-- ==== Sys2Proof/Syntax.lean ====
section
/-! DEFINITION. The commands and events of spec/opcode_table.json, one constructor per row, with their operands. -/

namespace Sys2Proof

/-- The two timescale banks of the Keeper (R76). -/
inductive Bank where
  | ts0 | ts1
deriving DecidableEq, Repr

/-- Who may send a mailbox message, a command packet or a stamped write (R14). -/
inductive Sender where
  | pf0 | pf1 | keeper
  | beacon (n : Fin 4)
  | peer (n : Fin 8)
deriving DecidableEq, Repr

/-- Who writes a steering command to a timescale (R51). -/
inductive Steerer where
  | ensemble | host
deriving DecidableEq, Repr

/-- Where a step GO comes from (R56). -/
inductive StepSource where
  | ensemble
  | sender (s : Sender)
deriving DecidableEq, Repr

/-- A GNSS signal a channel can be given (R119): system, low band, antenna B, PRN. -/
structure GnssSig where
  sys : Fin 4
  low : Bool
  ant : Bool
  svid : BitVec 8
deriving DecidableEq, Repr

/-- What a channel measures at an epoch (R127): C/N0 in 0.01 dB-Hz, Doppler in mHz, code phase in 2^-16 chip. -/
structure GnssMeas where
  chan : Fin 160
  cn0 : Nat
  dop : Int
  code : Nat
deriving DecidableEq, Repr

/-- One satellite as the firmware has it at an epoch E (R127, R137): elevation in degrees, whether its ephemeris is valid and marks it
healthy, its position (ECEF, cm), the transmit time each band's channel read at its port's last epoch stamp (REF_SYS time, 2^-16 ns), what is
added for everything that no rule of the model removes (clock, relativity, troposphere), the broadcast ionosphere model on each band, its
system's broadcast time offset (all 2^-16 ns), and its weight in the fit. -/
structure GnssSat where
  sys : Fin 4
  svid : BitVec 8
  elev : Nat
  healthy : Bool
  pos : Int × Int × Int
  txHigh : Int
  txLow : Int
  corr : Int
  ionoHigh : Int
  ionoLow : Int
  isbCast : Int
  weight : Nat
deriving DecidableEq, Repr

/-- What the firmware has for one antenna's solution at an epoch (R137-R141, R145): its satellites, the position of its navigation solution
(ECEF, cm), that of the solution made again without the satellites excluded, the broadcast offset to UTC (2^-16 ns), 1 sigma of x (2^-8 ns), the estimate of TS0's frequency (10^-15), the rms disagreement
of single differences with one direction (10^-3 cycle), the survey's 1 sigma (cm), and the TS0 seconds to which it holds ephemeris of
satellites predicted above the elevation mask. -/
structure GnssFix where
  sats : List GnssSat
  nav : Option (Int × Int × Int)
  again : Option (Int × Int × Int)
  poly : Int
  sigma : Nat
  freq : Int
  phaseRms : Option Nat
  surveySigma : Nat
  eph : List Nat
deriving DecidableEq, Repr

/-- UTC parameters a navigation record carries (R141): leap seconds now, and the announced day's ending midnight as a UTC
second with the future leap seconds. -/
structure UtcWord where
  dtLS : Int
  fut : Option (Nat × Int)
deriving DecidableEq, Repr

/-- A link with link states: a port, or a Mooring link (0 W, 1 E). -/
inductive LinkId where
  | port (p : Fin 32)
  | mooring (w : Fin 2)
deriving DecidableEq, Repr

/-- Why a link is lost (R223). -/
inductive LossCause where
  | signal | pcsLock | fecLock | hiBer
deriving DecidableEq, Repr

/-- A frame or mPacket as a port receives it (R232-R235, R242, R244): its delimiter, the fragment count after an SMD-C, its bytes with FCS or
mCRC, how long before now the first bit after the delimiter crossed the ball (2^-16 ns), a PCS error block inside it, the octets of the
receive buffer that frames already handed on still take, and whether the FEC verdict on it is still out. -/
structure RxFrame where
  smd : Byte
  frag : Byte
  bytes : List Byte
  back : Nat
  codeErr : Bool
  backlog : Nat
  fecOut : Bool
deriving DecidableEq, Repr

/-- The FEC verdict on a frame's codewords (R232). -/
inductive FecVerdict where
  | clean
  | corrected (bytes : List Byte)
  | uncorrectable
deriving DecidableEq, Repr

/-- The 64-bit statistics of a port or of a die (R255, R286, R310, R346). -/
inductive StatBlock where
  | mac (p : Fin 32)
  | ntp (n : Fin 4)
  | nts (n : Fin 4)
  | ptp (n : Fin 4)
deriving DecidableEq, Repr

/-- A scheduled PTP message (R329, R337): a multicast Sync or Announce of an instance, or a grant entry of a die. -/
inductive PtpDue where
  | multicast (j : Fin 128) (ann : Bool)
  | granted (n : Fin 4) (e : Fin 16384)
deriving DecidableEq, Repr

/-- A Tender frame as received, its CRC good (R391): DST, SRC and payload; the row gives its TYPE. -/
structure TndFrame where
  dst : Byte
  src : Byte
  payload : List Byte
deriving DecidableEq, Repr

/-- The path of an access to a mailbox (R407, R409): a PCIe function, the firmware from its secure or non-secure context, a Beacon
controller, or the relay agent for a stack address less one. -/
inductive MbxPath where
  | host (fn : Fin 2)
  | keeper (secure : Bool)
  | beacon (n : Fin 4)
  | peer (a : Fin 8)
deriving DecidableEq, Repr

/-- A register of a mailbox channel (R402, R419). -/
inductive MbxReg where
  | data (k : Fin 16)
  | ctl
  | lock
  | stat
deriving DecidableEq, Repr

/-- Where an ECC error was found (R473): an entry of a die's Client State Table or grant table, a frame at a place of a port's queue (in the
packet buffer or the queues), a received frame held in the packet buffer (R235) for its FEC verdict, by its place, or while it is reassembled, a
record of a group ring (by slot), the firmware store, the key store, the configuration shadow, or another array. -/
inductive EccArray where
  | cst (n : Fin 4) (e : Fin 2097152)
  | grant (n : Fin 4) (e : Fin 16384)
  | packet (p : Fin 32) (q : Fin 8) (i : Nat)
  | queue (p : Fin 32) (q : Fin 8) (i : Nat)
  | received (p : Fin 32) (i : Nat)
  | assembly (p : Fin 32)
  | record (g : Fin 8) (slot : Fin 16384)
  | firmware
  | keys
  | shadow
  | other (die : Fin 5)
deriving DecidableEq, Repr

/-- What the TAP does (R496, R497): it enters Test-Logic-Reset, loads an instruction register code, or scans bits through the register its
instruction selects (the bits on TDI, first to last). -/
inductive TapOp where
  | reset
  | load (code : Byte)
  | scan (tdi : List Bool)
deriving DecidableEq, Repr

/-- One command or event.  A word operand `w` is the word written to the register the row names; the bit the row is about
is written as the row says, whatever `w` holds there. -/
inductive Instr where
  -- time lanes and the tick domain (01, 02)
  | epochMarker
  | lanePulseRx (n : Fin 4) (sub : Nat)
  | lanePulseMiss (n : Fin 4)
  | laneReturn (n : Fin 4) (dc : Nat) (bin : Fin 64)
  | laneLock (n : Fin 4)
  | coastLimit (n : Fin 4)
  | incrApply (b : Bank) (src : Steerer) (w : Word)
  | slewGo (b : Bank) (src : Steerer) (w : Word)
  | slewAbort (b : Bank) (w : Word)
  | slewDone (b : Bank)
  | stepGo (b : Bank) (src : StepSource) (w : Word)
  | stepApply (b : Bank)
  | snapTake (w : Word)
  | snapLatch
  | switchGo (w : Word)
  | switchDone
  | ts1Enable (w : Word)
  | ownershipChange (w : Word)
  | utcOfsWrite (w : Word)
  | leapArm (w : Word)
  | leapCancel (w : Word)
  | leapWarn
  | leapSecondStart
  | leapOfsChange
  | smearStart
  | smearEnd
  -- ensemble (03)
  | filterStep (temp : BitVec 16)
  | sourceSample (i : Fin 16) (t : Nat) (x dly : Int)
  | slotLoss (i : Fin 16)
  | slotQualify (i : Fin 16)
  | slotConsistent (i : Fin 16)
  | carryExpire (i : Fin 16)
  | reestComplete (i : Fin 16)
  | slotEnable (i : Fin 16) (w : Word)
  | slotMove (i : Fin 16) (w : Word)
  | slotRelease (i : Fin 16)
  | slotQuarantine (i : Fin 16)
  | clrAsym (i : Fin 16)
  | relearn (i : Fin 16)
  | decideGo (w : Word)
  | anchorSelect (w : Word)
  | anchorHold
  | anchorReturn
  | driftRecord
  -- GNSS timing receiver (04); samples: the (I, Q) codes captured since the last epoch
  | gnssEpoch (n : Fin 4) (dc : Nat) (bin : Fin 64) (floor : Nat) (samples : List (BitVec 4 × BitVec 4)) (meas : List GnssMeas)
  | gnssPortFault (n : Fin 4)
  | gnssPortRecover (n : Fin 4)
  | channelAssign (c : Fin 160) (sig : Option GnssSig)
  | detection (c : Fin 160) (cn0 : Nat) (dop : Int) (code : Nat)
  | searchPassEnd (c : Fin 160)
  | pullInLock (c : Fin 160) (cn0 : Nat) (dop : Int) (code : Nat) (low : Fin 160)
  | pullInTimeout (c : Fin 160)
  | navSync (c : Fin 160)
  | channelLost (c : Fin 160)
  | reacquire (c : Fin 160)
  | lostTimeout (c : Fin 160)
  | channelPin (c : Fin 160) (w : Word)
  | pinApply (c : Fin 160)
  | navRecord (c : Fin 160) (inv sub3 : Bool) (cn0 : BitVec 16) (t : Nat) (payload : List Byte)
      (utc : Option UtcWord)
  | solution (a : Fin 2) (fix : GnssFix)
  | solutionDelivery (a : Fin 2)
  | solutionLate (a : Fin 2)
  | spoofClear (a : Fin 2)
  | positionWrite (a : Fin 2) (axis : Fin 3) (w : Word)
  | surveyDone (a : Fin 2)
  | surveySlow (a : Fin 2)
  | surveyRestart (a : Fin 2) (w : Word)
  | notchUpdate (n : Fin 4) (peaks : List (Int × Nat))
  | notchRelease (n k : Fin 4)
  | jamBaseline (n : Fin 4) (floor : Nat)
  | jamLearn (n : Fin 4) (w : Word)
  | antSwitch
  | antReturn
  | gnssSleep (span : Nat)
  | gnssSleepEnd
  | gnssWake (w : Option Word)
  | hotFail
  -- reference modules (05); us, ms: how long REFx_ALM_N has been low, or high
  | moduleInsert (p : Fin 2)
  | moduleRemove (p : Fin 2)
  | recordRead (p : Fin 2) (rec : Option (List Byte)) (a b : List Byte)
  | warmupDone (p : Fin 2)
  | warmFail (p : Fin 2)
  | moduleAlarm (p : Fin 2) (us : Nat)
  | alarmClear (p : Fin 2) (ms : Nat)
  | modulePark (p : Fin 2) (w : Word)
  | moduleUnpark (p : Fin 2) (w : Word)
  | moduleMinute (p : Fin 2)
  | hoursWriteEnd (p : Fin 2) (ok : Bool)
  | hoursSetGo (p : Fin 2) (w : Word)
  | efcWrite (p : Fin 2) (w : Word)
  | modulePps (p : Fin 2) (dc : Nat) (bin : Fin 64)
  | clockMeasure (c : Fin 3) (nHz : Nat)
  -- time-interval inputs and pulse outputs (06); dc: coarse periods after the start of the current tick; high: TGg's level after its edge
  | tiEdge (c : Fin 64) (dc : Nat) (bin : Fin 64) (fall : Bool)
  | gateOpen (g : Fin 8) (dc : Nat) (high : Bool)
  | gateClose (g : Fin 8) (dc : Nat) (high : Bool)
  | countSecond (c : Fin 64)
  | pairOverflow (c : Fin 64)
  | calPassEnd (g : Fin 9) (hits : List Nat)
  | calHandover (g : Fin 9)
  | calNow (w : Word)
  | channelArm (c : Fin 64) (w : Word)
  | channelDisarm (c : Fin 64) (w : Word)
  | groupWake (g : Fin 8)
  | pulseGo (o : Fin 32) (w : Word)
  | pulseStop (o : Fin 32) (w : Word)
  | pulseCommit (o : Fin 32)
  | pulseFire (o : Fin 32)
  | pulseEnd (o : Fin 32)
  -- ports (07); sub: ps after the start of the current tick
  | portConfig (p : Fin 32) (w : Word)
  | macAddrCommit (p : Fin 32) (w : Word)
  | signalDetect (l : LinkId)
  | trainingDone (l : LinkId) (fec : Fin 4)
  | portCalPass (l : LinkId) (rmsRx rmsTx phiRx phiTx : Nat)
  | linkLoss (l : LinkId) (cause : LossCause) (inFrame : Bool)
  | localFault (p : Fin 32) (rem : Bool)
  | queueFlush (p : Fin 32)
  | frameRx (p : Fin 32) (f : RxFrame)
  | fecVerdict (p : Fin 32) (v : FecVerdict) (corr uncorr sym : Nat)
  | pauseEffect (p : Fin 32)
  | pauseExpire (p : Fin 32) (q : Fin 8)
  | frameCommit (p : Fin 32) (sub : Nat)
  | fragmentEnd (p : Fin 32)
  | txUnderrun (p : Fin 32) (held : Nat)
  | verifySend (p : Fin 32)
  | verifyResponse (p : Fin 32)
  | svcWrite (p : Fin 32) (w : Word)
  | svcRead (p : Fin 32) (w : Word)
  | counterRead (b : StatBlock) (i : Fin 64)
  -- NTP, NTS, PTP (08-10)
  | cstSweep (n : Fin 4)
  | cstFlush (n : Fin 4) (w : Word)
  | ntpBroadcast (p : Fin 32)
  | bucketRefill (n : Fin 4)
  | ntsEngineDone (n : Fin 4) (e : Fin 12)
  | ntsReserve (p : Fin 32)
  | ntsHoldTimeout (p : Fin 32)
  | keyChangeEffect
  | ptpSend (due : PtpDue)
  | announceTimeout (j : Fin 128) (id : Nat)
  | followUpMiss (j : Fin 128)
  | grantExpire (n : Fin 4) (e : Fin 16384)
  | upstreamDelayReq (j : Fin 128) (wait : Nat)
  | unicastRenew (j : Fin 128) (m : Fin 3)
  | instanceConfig (j : Fin 128) (r : Fin 6) (w : Word)
  | instanceRateWrite (j : Fin 128) (phase : Bool) (w : Word)
  -- host rings (11); descs: the posted descriptors' bytes in host memory, data: the frame's
  | doorbell (fn : Fin 2) (q : Fin 258) (w : Word) (descs : List (List Byte))
  | txDescFetch (r : Fin 128) (data : List Byte)
  | ringEnable (fn : Fin 2) (q : Fin 258) (w : Word)
  | ringDisable (fn : Fin 2) (q : Fin 258) (w : Word)
  | ringOwner (q : Fin 256) (w : Word)
  | itrExpire (q : Fin 258)
  -- stacking (12); f: a Mooring frame's bytes after the EtherType, FCS good, stamped back (2^-16 ns) before now
  | mooringTimeRx (l : Fin 2) (back : Nat) (f : List Byte)
  | timedLoss (l : Fin 2)
  | bertRx (l : Fin 2) (bits errors : Nat) (f : List Byte)
  | relayFrameRx (l : Fin 2) (f : List Byte)
  | relayTimeout (id : Nat)
  | closureWindow
  | stackEnable (w : Word)
  | tenderTx (collision : Bool)
  | tenderBackoff
  | helloSend
  | hello (f : TndFrame)
  | assign (f : TndFrame)
  | rcheck (f : TndFrame)
  | rreport (f : TndFrame)
  | asym (f : TndFrame)
  | handoverRx (f : TndFrame)
  | ping (f : TndFrame)
  | pong (f : TndFrame)
  | rcheckSend
  | masterLost
  | discoverTimeout
  | nodeTimeout (a : Fin 8)
  | handoverLapse
  -- mailboxes (13)
  | mbxLockRead (c : Fin 16) (readers : List MbxPath)
  -- an access to any register of a channel, the data registers among them
  | mbxDataAccess (c : Fin 16) (r : MbxReg) (by_ : MbxPath) (w : Option Word)
  -- also: the other MBX_CTL writes of the same cycle, by channel
  | mbxGo (c : Fin 16) (by_ : MbxPath) (w : Word) (also : List (Fin 16 × MbxPath × Word))
  | mbxDone (c : Fin 16) (by_ : MbxPath) (w : Word)
  | mbxRelease (c : Fin 16) (by_ : MbxPath) (w : Word)
  | lockHoldExpire (c : Fin 16)
  | receiverDown (fn : Fin 2) (d0 : Bool)
  | firmwareTake
  | crossingTimeout (c : Fin 16)
  | notifyPost
  -- command packets (14): what the firmware does with the command it has begun
  | regRead
  | regWrite
  | nop
  | ident
  | result
  | cfgStage
  | cfgCommit
  | flashOpComplete (ok : Bool)
  | cfgRead
  | timeGet
  | step
  | solGet
  | navGet
  | timRecords
  | svcSet
  | svcGet
  | keyLoad
  | keyPromote
  | keyRetire
  | keyStatus
  | cstLookup
  | cstRemove
  | cstDump
  | grantRead
  | relay
  | handover
  | resetCmd
  | watchRun
  | logRead
  | hoursSet
  | commandComplete (id : Nat)
  | commandTimeout (id : Nat)
  -- power, reset, configuration (15): demand in grants by the islands' monitors; temp in 1/256 °C
  | arbiterEval (demand : Nat) (temp : BitVec 16) (die : Fin 5)
  | arbiterRestore (demand : Nat)
  | islandWake (i : Nat)
  -- lowNs: how long POR_N has been low; rises: whether it rises now, or is still low
  | powerOnReset (lowNs : Nat) (rises : Bool)
  | supplyDip (us : Nat)
  | watchdogExpire
  | rstGo (w : Word)
  | resetBegin
  | functionReset (fn : Fin 2)
  | perst
  | bootImageSelect (sfdp : Option (Nat × Nat))
  | firmwareRun
  | imageApply
  | resetComplete
  -- counters, Watch, TAP (16, 17)
  | pctSelect (c : Fin 1024) (w : Word)
  | pctRead (c : Fin 1024) (reader : Fin 3)
  | pctOvfClear (c : Fin 1024)
  | eccError (a : EccArray) (word : Word) (corrected : Bool)
  | watchTestEnd (bad : List (Fin 256)) (measure : Word)
  | watchTestBound
  | tapInstruction (op : TapOp)
  -- register access (01)
  | forbiddenAccess (addr : Nat) (w : Option Word)
  | offWindowAccess (addr : Nat) (w : Option Word)
  | rcRead (fn : Fin 2) (addr : Nat)
  | registerWrite (fn : Fin 2) (addr : Nat) (w : Word)
  | faultEnd (p : Fin 32) (rem : Bool)
  | mooringFrameErr (l : Fin 2)
  | tenderCrcErr
  | pePerstNRise
  | watchTestStart
deriving DecidableEq, Repr

end Sys2Proof
end

