-- ==== Sys2Proof/Config.lean ====
section
/-! DEFINITION. What one part fixes at production and what the spec leaves open: constants with no body, so that no
proof can see a value of them.  Each names its log entry. -/

namespace Sys2Proof

/-- The 64-bit unique ID fused at production (DEV_UID_LO, DEV_UID_HI; log entry 6). -/
opaque Config.deviceUid : Nat
/-- Lane turnaround t_turn of R28, fused per lane, in 2^-16 ns (log entry 6). -/
opaque Config.laneTurn : Nat → Int
/-- Lane asymmetry a_lane of R28, fused per lane, in 2^-16 ns (log entry 6). -/
opaque Config.laneAsym : Nat → Int
/-- The correction the lane's PI loop of R29 adds to the slave increment, in 2^-48 ns, from the offset e (2^-16 ns) and
the loop's accumulated offset: its gains are not stated (log entry 7). -/
opaque Config.lanePi : Int → Int → Int
/-- Which way a quotient is rounded where the spec states no rounding (log entry 8). -/
opaque Config.roundsUp : Rat → Bool
/-- How an exact half is rounded where the spec says "to nearest" and no more (log entry 8). -/
opaque Config.tieUp : Rat → Bool
/-- The filter's covariance terms p00, p01 and p11 when an engine leaves UNSET, which no rule states (log entry 10). -/
opaque Config.startP00 : Rat
opaque Config.startP01 : Rat
opaque Config.startP11 : Rat

/-- Each sample port's delay from ball to correlator, fused, in 2^-16 ns (R137; log entry 6). -/
opaque Config.portDelay : Nat → Nat

/-- The group delay at a band's centre of a notch, in 2^-16 ns, by its offset from the centre in Hz and its WIDTH code: R143 has it computed
and states no formula (log entry 99). -/
opaque Config.notchDelay : Int → Nat → Int
/-- What a signal's forward error correction makes of the symbols of a message unit, by signal code, whether it is subframe 3, and the symbols
(bytes, in order of reception): R131 leaves it to the interface documents (log entry 106). -/
opaque Config.fecDecode : Nat → Bool → List Nat → List Nat
/-- The inter-system bias of a system, by the second of the epoch, in a solution that uses no satellite of REF_SYS to estimate it from
(2^-16 ns; R137, log entry 106). -/
opaque Config.isbAlone : Nat → Nat → Int
/-- The Doppler (as GNS_CH_DOP holds it) and the code phase (2^-16 chip) predicted for a signal at a hot start, by satellite, band and
TS0 time, which no rule states (R151; log entry 99). -/
opaque Config.predictDop : Nat → Nat → Nat → BitVec 32
opaque Config.predictCode : Nat → Nat → Nat → Nat

/-- Each capture channel's and each pulse output's internal delay, fused, in 2^-16 ns (R183, R205; log entry 6). -/
opaque Config.chanDelay : Nat → Nat
opaque Config.outDelay : Nat → Nat
/-- Centre and width of a bin of a unit that has no accepted table, in 1/65,536 period: by group, unit and bin (R186; log
entry 23). -/
opaque Config.binCentre : Nat → Nat → Nat → Nat
opaque Config.binWidth : Nat → Nat → Nat → Nat
/-- Where tick 0 falls in its coarse period, in 1/65,536 period (R23, R181; log entry 6). -/
opaque Config.coarsePhase : Nat

/-- The lane's calibration terms C_RX and C_TX of a port in ps, fused (R228; log entry 6). -/
opaque Config.laneTermRx : Nat → Nat
opaque Config.laneTermTx : Nat → Nat
/-- The keyed 48-bit hash of R270 over the device's random 128-bit key and the inputs (log entry 24). -/
opaque Config.cstHash : List Nat → Nat
/-- The n-th 16-byte output of a die's random bit generator (R295; log entry 25). -/
opaque Config.drbg : Nat → Nat → BitVec 128

/-- DSCP and TTL (hop limit) of the PTP messages the device sends over IP, which no rule states (log entry 27). -/
opaque Config.ptpDscp : Nat
opaque Config.ptpTtl : Nat
/-- The MAC address a port sends to for a unicast IP destination of its own choosing: no rule states how it is found (log entry 27). -/
opaque Config.nextHop : Nat → List Nat → Nat

/-- The calibration terms C_RX and C_TX of the two Mooring links in ps, fused, and the strap pin MSTR_SEL (R378, R389; log entry 6). -/
opaque Config.morTermRx : Nat → Nat
opaque Config.morTermTx : Nat → Nat
opaque Config.mstrSel : Nat
/-- The event code of the record a lapsed handover writes, which no table gives (R396; log entry 29). -/
opaque Config.lapseEvent : Nat
/-- The HELLO's random 0-25 ms in 2^-16 ns, and the backoff's r, by the number drawn so far (R392, R394; log entry 30). -/
opaque Config.helloJitter : Nat → Nat
opaque Config.backoff : Nat → Nat

/-- How long after its epoch marker a TIME frame commits behind the frame in progress, by the number sent so far (2^-16 ns; R378;
log entry 31), and what the record of a lapsed handover names (log entry 29). -/
opaque Config.morCommit : Nat → Nat
opaque Config.lapseUnit : Nat → Nat
/-- The eight bytes of the n-th PING, as a number (R393; log entry 32). -/
opaque Config.pingData : Nat → Nat

/-- How many cycles of the Beacon core beyond one a request holds its die's responder pipeline, by the number passed so far (R463, log entry 62). -/
opaque Config.pipeCycles : Nat → Nat
/-- The boundary cell that drives a pulse output's ball, and what the boundary register captures from the balls, by the number of commands so far:
no rule gives the cells' places (R496; log entry 108). -/
opaque Config.outCell : Nat → Fin 1210
opaque Config.boundaryPins : Nat → BitVec 1210

/-- Whether a firmware patch's signature checks (R456), and the version the firmware then reports (R434; no patch: the empty list; log
entry 33). -/
opaque Config.patchSigned : List Nat → Bool
opaque Config.firmwareVersion : List Nat → Nat
/-- What a flash byte holds of the bits a failed or cut-off operation was to change, by the number of such operations so far and the
address (R459; log entry 34). -/
opaque Config.flashBits : Nat → Nat → Nat
/-- The value and the periods between the edges in the record of a pair that closes with one edge only, by its start channel and its
edge's time (R198, R200; log entry 96). -/
opaque Config.openValue : Nat → Nat → BitVec 64
opaque Config.openPeriods : Nat → Nat → BitVec 32

end Sys2Proof
end

