-- ==== Sys2Proof/Machine/Map.lean ====
section
/-! DEFINITION. Sparse tables in one canonical form: a list of key and value pairs, keys strictly rising, no entry equal
to what an unlisted key reads as.  Memory (Host.Cell lists), the register file and every repeated structure of the block use it. -/

namespace Sys2Proof.Machine

/-- A sparse table keyed by natural numbers. -/
abbrev IMap (α : Type) := List (Nat × α)

/-- The value at a key; an unlisted key reads as `d`. -/
def IMap.get {α : Type} (d : α) : IMap α → Nat → α
  | [], _ => d
  | (k', v) :: m, k => if k = k' then v else IMap.get d m k

/-- Removes a key. -/
def IMap.erase {α : Type} : IMap α → Nat → IMap α
  | [], _ => []
  | (k', v) :: m, k => if k = k' then IMap.erase m k else (k', v) :: IMap.erase m k

/-- Inserts or replaces a key, keeping the keys rising. -/
def IMap.insert {α : Type} : IMap α → Nat → α → IMap α
  | [], k, v => [(k, v)]
  | (k', v') :: m, k, v =>
    if k < k' then (k, v) :: (k', v') :: m else if k = k' then (k, v) :: m else (k', v') :: IMap.insert m k v

/-- Writes a key: writing what an unlisted key reads as removes the entry. -/
def IMap.put {α : Type} [DecidableEq α] (d : α) (m : IMap α) (k : Nat) (v : α) : IMap α :=
  if v = d then IMap.erase m k else IMap.insert m k v

/-- Rewrites one entry. -/
def IMap.upd {α : Type} [DecidableEq α] (d : α) (m : IMap α) (k : Nat) (f : α → α) : IMap α :=
  IMap.put d m k (f (IMap.get d m k))

/-- The canonical form: keys rise strictly from `lo` on, and no value is the unlisted one. -/
def IMap.wfFrom {α : Type} [DecidableEq α] (d : α) : Nat → IMap α → Bool
  | _, [] => true
  | lo, (k, v) :: m => decide (lo ≤ k) && (decide (v ≠ d) && IMap.wfFrom d (k + 1) m)

/-- The canonical form of a whole table. -/
def IMap.wf {α : Type} [DecidableEq α] (d : α) (m : IMap α) : Bool := IMap.wfFrom d 0 m

end Sys2Proof.Machine
end

