-- ==== Sys2Proof/Machine/Num.lean ====
section
/-! DEFINITION. Exact arithmetic and its explicit narrowing: signed views of register fields, saturation, the roundings the
spec states and the ones it does not. -/

namespace Sys2Proof.Machine

/-- Two's-complement reading of the low `w` bits of `n`. -/
def toSigned (w n : Nat) : Int :=
  if n % 2 ^ w < 2 ^ (w - 1) then (n % 2 ^ w : Nat) else ((n % 2 ^ w : Nat) : Int) - (2 ^ w : Nat)

/-- Two's-complement bits of an integer, `w` bits. -/
def ofSigned (w : Nat) (i : Int) : Nat := (i % (2 ^ w : Nat)).toNat

/-- Clamps an integer to the signed range of `w` bits. -/
def satSigned (w : Nat) (i : Int) : Int :=
  if i < -((2 ^ (w - 1) : Nat) : Int) then -((2 ^ (w - 1) : Nat) : Int)
  else if i > ((2 ^ (w - 1) : Nat) : Int) - 1 then ((2 ^ (w - 1) : Nat) : Int) - 1 else i

/-- Saturated two's-complement bits. -/
def satBits (w : Nat) (i : Int) : Nat := ofSigned w (satSigned w i)

/-- Clamps a natural number to `w` bits. -/
def satNat (w n : Nat) : Nat := if n ≤ 2 ^ w - 1 then n else 2 ^ w - 1

/-- Rounding where the spec states none: the exact value, else the integer below or above as the part has it. -/
def rnd (q : Rat) : Int := if q.den = 1 then q.num else if Config.roundsUp q then q.floor + 1 else q.floor

/-- Rounding to nearest; an exact half goes the way the part has it. -/
def rndNearest (q : Rat) : Int :=
  if (q - q.floor) * 2 = 1 then (if Config.tieUp q then q.floor + 1 else q.floor) else (q + 1 / 2).floor

/-- Largest `r` with `r * r ≤ n` among those below `2 ^ bits`, found bit by bit. -/
def isqrtBits (n : Nat) : Nat → Nat → Nat
  | 0, r => r
  | b + 1, r => isqrtBits n b (if (r + 2 ^ b) * (r + 2 ^ b) ≤ n then r + 2 ^ b else r)

/-- Integer square root, for `n < 2 ^ 256`. -/
def isqrt (n : Nat) : Nat := isqrtBits n 128 0

/-- Square root of a non-negative rational, cut to 2^-32 (log entry 9). -/
def sqrtRat (q : Rat) : Rat := mkRat (isqrt (q * ((2 ^ 64 : Nat) : Rat)).floor.toNat) (2 ^ 32)

/-- Quotient rounded up. -/
def ceilDiv (a b : Nat) : Nat := if b = 0 then 0 else (a + b - 1) / b

/-- Bits `[hi:lo]` of a number. -/
def bits (n hi lo : Nat) : Nat := n / 2 ^ lo % 2 ^ (hi + 1 - lo)

/-- Bit `i` of a number. -/
def bit (n i : Nat) : Bool := n / 2 ^ i % 2 = 1

/-- 1 or 0. -/
def b01 (b : Bool) : Nat := if b then 1 else 0

/-- One byte into a reflected CRC register with polynomial `poly`, bit by bit. -/
def crcBits (poly : Nat) : Nat → Nat → Nat
  | 0, c => c
  | n + 1, c => crcBits poly n (if c % 2 = 1 then (c / 2) ^^^ poly else c / 2)

/-- A reflected 32-bit CRC over bytes, preset to ones and complemented. -/
def crc32With (poly : Nat) (bytes : List Nat) : Nat :=
  bytes.foldl (fun c b => crcBits poly 8 (c ^^^ b)) 0xFFFFFFFF ^^^ 0xFFFFFFFF

/-- CRC-32C (Castagnoli). -/
def crc32c (bytes : List Nat) : Nat := crc32With 0x82F63B78 bytes

/-- CRC-32 of IEEE 802.3, the Ethernet FCS. -/
def crc32 (bytes : List Nat) : Nat := crc32With 0xEDB88320 bytes

/-- Little-endian number of the `n` bytes from offset `i` (R5). -/
def leAt (bs : List Nat) (i n : Nat) : Nat := ((bs.drop i).take n).foldr (fun b a => b + 256 * a) 0

/-- Big-endian number of the `n` bytes from offset `i`, as network protocols hold theirs. -/
def beAt (bs : List Nat) (i n : Nat) : Nat := ((bs.drop i).take n).foldl (fun a b => a * 256 + b) 0

/-- The `n` low bytes of a number, least significant first (R5). -/
def le : Nat → Nat → List Nat
  | 0, _ => []
  | n + 1, v => v % 256 :: le n (v / 256)

/-- The `n` low bytes of a number, most significant first. -/
def be (n v : Nat) : List Nat := (le n v).reverse

/-- Inserts an element ahead of the first one it may stand before. -/
def insertBy {α : Type} (before : α → α → Bool) (x : α) : List α → List α
  | [] => [x]
  | y :: l => if before x y then x :: y :: l else y :: insertBy before x l

/-- A list put in an order; equals keep their places. -/
def sortBy {α : Type} (before : α → α → Bool) : List α → List α
  | [] => []
  | x :: l => insertBy before x (sortBy before l)

/-- Bytes as numbers. -/
def natBytes (bs : List Byte) : List Nat := bs.map (·.toNat)

end Sys2Proof.Machine
end

