-- ==== Sys2Proof/Machine/Field.lean ====
section
/-! DEFINITION. Register fields: place, width, access code, reset value (R4, R5, R10), and registers as lists of fields. -/

namespace Sys2Proof.Machine

/-- The access codes of R10. -/
inductive Access where
  | ro | rw | wo | w1c | rc | sc | rws | rwl
deriving DecidableEq, Repr

/-- One field of one register.  `key` is where its bits are kept: two names of the same bits share a key. -/
structure Field where
  addr : Nat
  lsb : Nat
  width : Nat
  acc : Access
  reset : Nat
  key : Nat
deriving DecidableEq, Repr

/-- A field kept at its own place. -/
def Field.mk' (addr lsb width : Nat) (acc : Access) (reset : Nat) : Field :=
  ⟨addr, lsb, width, acc, reset, addr * 32 + lsb⟩

/-- The same bits shown read-only at another place. -/
def Field.at (f : Field) (addr lsb : Nat) : Field := { f with addr := addr, lsb := lsb, acc := .ro }

/-- One register: its offset and its fields. -/
structure Register where
  addr : Nat
  fields : List Field
deriving DecidableEq, Repr

/-- A register that is repeated: the offset of the first, the strides and counts of its indices (the widest first), and the
register at a flattened index. -/
structure RegFamily where
  base : Nat
  dims : List (Nat × Nat)
  reg : Nat → Register

/-- The flattened index of an offset among the strides; none between two registers. -/
def strideIndex : List (Nat × Nat) → Nat → Nat → Option Nat
  | [], off, acc => if off = 0 then some acc else none
  | (stride, count) :: ds, off, acc =>
    if off / stride < count then strideIndex ds (off % stride) (acc * count + off / stride) else none

/-- The register of a family at an address. -/
def RegFamily.find (r : RegFamily) (addr : Nat) : Option Register :=
  if addr < r.base then none else (strideIndex r.dims (addr - r.base) 0).map r.reg

/-- The register file: for each key the exclusive-or of the field's value and its reset value, so that a field at its
reset value is not listed. -/
abbrev RegFile := IMap Nat

/-- The value of a field. -/
def RegFile.get (m : RegFile) (f : Field) : Nat := (IMap.get 0 m f.key ^^^ f.reset) % 2 ^ f.width

/-- Writes a field; bits beyond its width are dropped. -/
def RegFile.set (m : RegFile) (f : Field) (v : Nat) : RegFile := IMap.put 0 m f.key ((v % 2 ^ f.width) ^^^ f.reset)

/-- Class of a source slot (R77): 0 G, 1 M, 2 P, 3 S, 4 X. -/
def slotClassOf (i : Nat) : Nat := if i < 2 then 0 else if i < 4 then 1 else if i < 6 then 2 else if i < 8 then 3 else 4

/-- A reset value chosen by the slot's class. -/
def byClass (i g m p s x : Nat) : Nat :=
  match slotClassOf i with
  | 0 => g | 1 => m | 2 => p | 3 => s | _ => x

end Sys2Proof.Machine
end

