-- ==== Sys2Proof/Machine/Regs.lean ====
section
/-! DEFINITION. Every register field of the spec's register tables: its place, its access code and its reset value.
One constant per field, indexed where the register is repeated (an index counts modulo the number of copies), one list of fields per register, and for each block the
table of its registers by offset.  Offsets 0x000_0000-0x7FF_FFFF are BAR0; BAR2 stands at 0x800_0000 and up (log entry 5). -/

namespace Sys2Proof.Machine

def R.DEV_IDENT_PART : Field := .mk' (0x0) 0 16 .ro 0x0832
def R.DEV_IDENT_STEPPING : Field := .mk' (0x0) 16 8 .ro 0xB1
def Reg.DEV_IDENT : Register := ⟨0x0, [R.DEV_IDENT_PART, R.DEV_IDENT_STEPPING]⟩

def R.DEV_UID_LO_UID_LO : Field := .mk' (0x4) 0 32 .ro (Config.deviceUid % 4294967296)
def Reg.DEV_UID_LO : Register := ⟨0x4, [R.DEV_UID_LO_UID_LO]⟩

def R.DEV_UID_HI_UID_HI : Field := .mk' (0x8) 0 32 .ro (Config.deviceUid / 4294967296 % 4294967296)
def Reg.DEV_UID_HI : Register := ⟨0x8, [R.DEV_UID_HI_UID_HI]⟩

def R.DEV_LANE_EVT_COAST : Field := .mk' (0x10) 0 4 .w1c 0
def R.DEV_LANE_EVT_FAULT : Field := .mk' (0x10) 4 4 .w1c 0
def Reg.DEV_LANE_EVT : Register := ⟨0x10, [R.DEV_LANE_EVT_COAST, R.DEV_LANE_EVT_FAULT]⟩

def R.DEV_SCRATCH_SCRATCH : Field := .mk' (0x14) 0 32 .rw 0
def Reg.DEV_SCRATCH : Register := ⟨0x14, [R.DEV_SCRATCH_SCRATCH]⟩

def R.TSC_LANE_STAT_STATE (n : Nat) : Field := .mk' (0x1400000+(n%4)*0x1000000) 0 3 .ro 0
def R.TSC_LANE_STAT_GOOD_RUN (n : Nat) : Field := .mk' (0x1400000+(n%4)*0x1000000) 8 8 .ro 0
def R.TSC_LANE_STAT_COAST_RUN (n : Nat) : Field := .mk' (0x1400000+(n%4)*0x1000000) 16 16 .ro 0
def Reg.TSC_LANE_STAT (n : Nat) : Register := ⟨0x1400000+(n%4)*0x1000000, [(R.TSC_LANE_STAT_STATE n), (R.TSC_LANE_STAT_GOOD_RUN n), (R.TSC_LANE_STAT_COAST_RUN n)]⟩

def R.TSC_LANE_OFS_OFS (n : Nat) : Field := .mk' (0x1400004+(n%4)*0x1000000) 0 32 .ro 0
def Reg.TSC_LANE_OFS (n : Nat) : Register := ⟨0x1400004+(n%4)*0x1000000, [(R.TSC_LANE_OFS_OFS n)]⟩

def R.TSC_LANE_DLY_DLY (n : Nat) : Field := .mk' (0x1400008+(n%4)*0x1000000) 0 32 .ro 0
def Reg.TSC_LANE_DLY (n : Nat) : Register := ⟨0x1400008+(n%4)*0x1000000, [(R.TSC_LANE_DLY_DLY n)]⟩

def R.TSC_LANE_CTL_COAST_LIMIT (n : Nat) : Field := .mk' (0x140000C+(n%4)*0x1000000) 0 16 .rwl 0x64
def Reg.TSC_LANE_CTL (n : Nat) : Register := ⟨0x140000C+(n%4)*0x1000000, [(R.TSC_LANE_CTL_COAST_LIMIT n)]⟩

def R.TSC_LANE_ERR_MISSED (n : Nat) : Field := .mk' (0x1400010+(n%4)*0x1000000) 0 16 .rc 0
def R.TSC_LANE_ERR_OUT_OF_BOUND (n : Nat) : Field := .mk' (0x1400010+(n%4)*0x1000000) 16 16 .rc 0
def Reg.TSC_LANE_ERR (n : Nat) : Register := ⟨0x1400010+(n%4)*0x1000000, [(R.TSC_LANE_ERR_MISSED n), (R.TSC_LANE_ERR_OUT_OF_BOUND n)]⟩

def R.TSC_CTL_OWN0 : Field := .mk' (0x10000) 0 1 .rw 0
def R.TSC_CTL_OWN1 : Field := .mk' (0x10000) 1 1 .rw 0
def R.TSC_CTL_TS1_EN : Field := .mk' (0x10000) 2 1 .rw 0
def R.TSC_CTL_SLEW_MAX : Field := .mk' (0x10000) 8 8 .rw 0x0A
def Reg.TSC_CTL : Register := ⟨0x10000, [R.TSC_CTL_OWN0, R.TSC_CTL_OWN1, R.TSC_CTL_TS1_EN, R.TSC_CTL_SLEW_MAX]⟩

def R.TSC_SNAP_CTL_TAKE : Field := .mk' (0x10008) 0 1 .sc 0
def R.TSC_SNAP_CTL_VALID : Field := .mk' (0x10008) 1 1 .ro 0
def Reg.TSC_SNAP_CTL : Register := ⟨0x10008, [R.TSC_SNAP_CTL_TAKE, R.TSC_SNAP_CTL_VALID]⟩

def R.TSC_UTC_OFS_OFS : Field := .mk' (0x1000C) 0 16 .rw 0x25
def R.TSC_UTC_OFS_VALID : Field := .mk' (0x1000C) 16 1 .ro 0
def Reg.TSC_UTC_OFS : Register := ⟨0x1000C, [R.TSC_UTC_OFS_OFS, R.TSC_UTC_OFS_VALID]⟩

def R.TSC_SWITCH_CTL_GO : Field := .mk' (0x10010) 0 1 .sc 0
def R.TSC_SWITCH_CTL_ACTIVE : Field := .mk' (0x10010) 1 1 .ro 0
def R.TSC_SWITCH_CTL_DONE : Field := .mk' (0x10010) 2 1 .w1c 0
def R.TSC_SWITCH_CTL_REFUSED : Field := .mk' (0x10010) 3 1 .w1c 0
def R.TSC_SWITCH_CTL_RATE : Field := .mk' (0x10010) 8 8 .rw 0x0A
def Reg.TSC_SWITCH_CTL : Register := ⟨0x10010, [R.TSC_SWITCH_CTL_GO, R.TSC_SWITCH_CTL_ACTIVE, R.TSC_SWITCH_CTL_DONE, R.TSC_SWITCH_CTL_REFUSED, R.TSC_SWITCH_CTL_RATE]⟩

def R.TSC_SWITCH_LIM_LIMIT : Field := .mk' (0x10014) 0 32 .rw 0x3E8
def Reg.TSC_SWITCH_LIM : Register := ⟨0x10014, [R.TSC_SWITCH_LIM_LIMIT]⟩

def R.TSC_INCR_NS_INT_NS (b : Nat) : Field := .mk' (0x10020+(b%2)*0x100) 0 8 .rw 1
def Reg.TSC_INCR_NS (b : Nat) : Register := ⟨0x10020+(b%2)*0x100, [(R.TSC_INCR_NS_INT_NS b)]⟩

def R.TSC_INCR_FRAC_HI_FRAC_HI (b : Nat) : Field := .mk' (0x10024+(b%2)*0x100) 0 16 .rw 0x4000
def Reg.TSC_INCR_FRAC_HI (b : Nat) : Register := ⟨0x10024+(b%2)*0x100, [(R.TSC_INCR_FRAC_HI_FRAC_HI b)]⟩

def R.TSC_INCR_FRAC_LO_FRAC_LO (b : Nat) : Field := .mk' (0x10028+(b%2)*0x100) 0 32 .rw 0
def Reg.TSC_INCR_FRAC_LO (b : Nat) : Register := ⟨0x10028+(b%2)*0x100, [(R.TSC_INCR_FRAC_LO_FRAC_LO b)]⟩

def R.TSC_INCR_CTL_APPLY (b : Nat) : Field := .mk' (0x1002C+(b%2)*0x100) 0 1 .sc 0
def R.TSC_INCR_CTL_REJECTED (b : Nat) : Field := .mk' (0x1002C+(b%2)*0x100) 1 1 .w1c 0
def R.TSC_INCR_CTL_IGNORED (b : Nat) : Field := .mk' (0x1002C+(b%2)*0x100) 2 1 .w1c 0
def Reg.TSC_INCR_CTL (b : Nat) : Register := ⟨0x1002C+(b%2)*0x100, [(R.TSC_INCR_CTL_APPLY b), (R.TSC_INCR_CTL_REJECTED b), (R.TSC_INCR_CTL_IGNORED b)]⟩

def R.TSC_SLEW_OFS_LO_OFS (b : Nat) : Field := .mk' (0x10030+(b%2)*0x100) 0 32 .rw 0
def Reg.TSC_SLEW_OFS_LO (b : Nat) : Register := ⟨0x10030+(b%2)*0x100, [(R.TSC_SLEW_OFS_LO_OFS b)]⟩

def R.TSC_SLEW_OFS_HI_OFS (b : Nat) : Field := .mk' (0x10034+(b%2)*0x100) 0 16 .rw 0
def Reg.TSC_SLEW_OFS_HI (b : Nat) : Register := ⟨0x10034+(b%2)*0x100, [(R.TSC_SLEW_OFS_HI_OFS b)]⟩

def R.TSC_SLEW_DUR_DUR (b : Nat) : Field := .mk' (0x10038+(b%2)*0x100) 0 32 .rw 0
def Reg.TSC_SLEW_DUR (b : Nat) : Register := ⟨0x10038+(b%2)*0x100, [(R.TSC_SLEW_DUR_DUR b)]⟩

def R.TSC_SLEW_CTL_GO (b : Nat) : Field := .mk' (0x1003C+(b%2)*0x100) 0 1 .sc 0
def R.TSC_SLEW_CTL_ABORT (b : Nat) : Field := .mk' (0x1003C+(b%2)*0x100) 1 1 .sc 0
def R.TSC_SLEW_CTL_ACTIVE (b : Nat) : Field := .mk' (0x1003C+(b%2)*0x100) 2 1 .ro 0
def R.TSC_SLEW_CTL_DONE (b : Nat) : Field := .mk' (0x1003C+(b%2)*0x100) 3 1 .w1c 0
def R.TSC_SLEW_CTL_ABORTED (b : Nat) : Field := .mk' (0x1003C+(b%2)*0x100) 4 1 .w1c 0
def R.TSC_SLEW_CTL_REJECTED (b : Nat) : Field := .mk' (0x1003C+(b%2)*0x100) 5 1 .w1c 0
def R.TSC_SLEW_CTL_IGNORED (b : Nat) : Field := .mk' (0x1003C+(b%2)*0x100) 6 1 .w1c 0
def Reg.TSC_SLEW_CTL (b : Nat) : Register := ⟨0x1003C+(b%2)*0x100, [(R.TSC_SLEW_CTL_GO b), (R.TSC_SLEW_CTL_ABORT b), (R.TSC_SLEW_CTL_ACTIVE b), (R.TSC_SLEW_CTL_DONE b), (R.TSC_SLEW_CTL_ABORTED b), (R.TSC_SLEW_CTL_REJECTED b), (R.TSC_SLEW_CTL_IGNORED b)]⟩

def R.TSC_SLEW_LEFT_LO_LEFT (b : Nat) : Field := .mk' (0x10040+(b%2)*0x100) 0 32 .ro 0
def Reg.TSC_SLEW_LEFT_LO (b : Nat) : Register := ⟨0x10040+(b%2)*0x100, [(R.TSC_SLEW_LEFT_LO_LEFT b)]⟩

def R.TSC_SLEW_LEFT_HI_LEFT (b : Nat) : Field := .mk' (0x10044+(b%2)*0x100) 0 16 .ro 0
def Reg.TSC_SLEW_LEFT_HI (b : Nat) : Register := ⟨0x10044+(b%2)*0x100, [(R.TSC_SLEW_LEFT_HI_LEFT b)]⟩

def R.TSC_STEP_SEC_LO_SEC (b : Nat) : Field := .mk' (0x10048+(b%2)*0x100) 0 32 .rw 0
def Reg.TSC_STEP_SEC_LO (b : Nat) : Register := ⟨0x10048+(b%2)*0x100, [(R.TSC_STEP_SEC_LO_SEC b)]⟩

def R.TSC_STEP_SEC_HI_SEC (b : Nat) : Field := .mk' (0x1004C+(b%2)*0x100) 0 16 .rw 0
def Reg.TSC_STEP_SEC_HI (b : Nat) : Register := ⟨0x1004C+(b%2)*0x100, [(R.TSC_STEP_SEC_HI_SEC b)]⟩

def R.TSC_STEP_NS_NS (b : Nat) : Field := .mk' (0x10050+(b%2)*0x100) 0 30 .rw 0
def Reg.TSC_STEP_NS (b : Nat) : Register := ⟨0x10050+(b%2)*0x100, [(R.TSC_STEP_NS_NS b)]⟩

def R.TSC_STEP_FRAC_FRAC (b : Nat) : Field := .mk' (0x10054+(b%2)*0x100) 0 16 .rw 0
def Reg.TSC_STEP_FRAC (b : Nat) : Register := ⟨0x10054+(b%2)*0x100, [(R.TSC_STEP_FRAC_FRAC b)]⟩

def R.TSC_STEP_CTL_GO (b : Nat) : Field := .mk' (0x10058+(b%2)*0x100) 0 1 .sc 0
def R.TSC_STEP_CTL_MODE (b : Nat) : Field := .mk' (0x10058+(b%2)*0x100) 1 1 .rw 0
def R.TSC_STEP_CTL_NEG (b : Nat) : Field := .mk' (0x10058+(b%2)*0x100) 2 1 .rw 0
def R.TSC_STEP_CTL_PENDING (b : Nat) : Field := .mk' (0x10058+(b%2)*0x100) 3 1 .ro 0
def R.TSC_STEP_CTL_DONE (b : Nat) : Field := .mk' (0x10058+(b%2)*0x100) 4 1 .w1c 0
def R.TSC_STEP_CTL_DENIED (b : Nat) : Field := .mk' (0x10058+(b%2)*0x100) 5 1 .w1c 0
def Reg.TSC_STEP_CTL (b : Nat) : Register := ⟨0x10058+(b%2)*0x100, [(R.TSC_STEP_CTL_GO b), (R.TSC_STEP_CTL_MODE b), (R.TSC_STEP_CTL_NEG b), (R.TSC_STEP_CTL_PENDING b), (R.TSC_STEP_CTL_DONE b), (R.TSC_STEP_CTL_DENIED b)]⟩

def R.TSC_SNAP_FRAC_FRAC (b : Nat) : Field := .mk' (0x10200+(b%2)*0x10) 0 16 .ro 0
def Reg.TSC_SNAP_FRAC (b : Nat) : Register := ⟨0x10200+(b%2)*0x10, [(R.TSC_SNAP_FRAC_FRAC b)]⟩

def R.TSC_SNAP_NS_NS (b : Nat) : Field := .mk' (0x10204+(b%2)*0x10) 0 30 .ro 0
def Reg.TSC_SNAP_NS (b : Nat) : Register := ⟨0x10204+(b%2)*0x10, [(R.TSC_SNAP_NS_NS b)]⟩

def R.TSC_SNAP_SEC_LO_SEC (b : Nat) : Field := .mk' (0x10208+(b%2)*0x10) 0 32 .ro 0
def Reg.TSC_SNAP_SEC_LO (b : Nat) : Register := ⟨0x10208+(b%2)*0x10, [(R.TSC_SNAP_SEC_LO_SEC b)]⟩

def R.TSC_SNAP_SEC_HI_SEC (b : Nat) : Field := .mk' (0x1020C+(b%2)*0x10) 0 16 .ro 0
def Reg.TSC_SNAP_SEC_HI (b : Nat) : Register := ⟨0x1020C+(b%2)*0x10, [(R.TSC_SNAP_SEC_HI_SEC b)]⟩

def R.TSC_SNAP_DIFF_LO_DIFF : Field := .mk' (0x10220) 0 32 .ro 0
def Reg.TSC_SNAP_DIFF_LO : Register := ⟨0x10220, [R.TSC_SNAP_DIFF_LO_DIFF]⟩

def R.TSC_SNAP_DIFF_HI_DIFF : Field := .mk' (0x10224) 0 16 .ro 0
def Reg.TSC_SNAP_DIFF_HI : Register := ⟨0x10224, [R.TSC_SNAP_DIFF_HI_DIFF]⟩

def R.TSC_LEAP_CTL_KIND : Field := .mk' (0x10240) 0 2 .rw 0
def R.TSC_LEAP_CTL_ARM : Field := .mk' (0x10240) 2 1 .rw 0
def R.TSC_LEAP_CTL_SMEAR : Field := .mk' (0x10240) 3 1 .rw 0
def R.TSC_LEAP_CTL_ARMED : Field := .mk' (0x10240) 4 1 .ro 0
def R.TSC_LEAP_CTL_WARN : Field := .mk' (0x10240) 5 1 .ro 0
def R.TSC_LEAP_CTL_SMEARING : Field := .mk' (0x10240) 6 1 .ro 0
def R.TSC_LEAP_CTL_IN_LEAP : Field := .mk' (0x10240) 7 1 .ro 0
def R.TSC_LEAP_CTL_SMEAR_LATE : Field := .mk' (0x10240) 8 1 .w1c 0
def R.TSC_LEAP_CTL_REFUSED : Field := .mk' (0x10240) 9 1 .w1c 0
def R.TSC_LEAP_CTL_DONE : Field := .mk' (0x10240) 10 1 .w1c 0
def Reg.TSC_LEAP_CTL : Register := ⟨0x10240, [R.TSC_LEAP_CTL_KIND, R.TSC_LEAP_CTL_ARM, R.TSC_LEAP_CTL_SMEAR, R.TSC_LEAP_CTL_ARMED, R.TSC_LEAP_CTL_WARN, R.TSC_LEAP_CTL_SMEARING, R.TSC_LEAP_CTL_IN_LEAP, R.TSC_LEAP_CTL_SMEAR_LATE, R.TSC_LEAP_CTL_REFUSED, R.TSC_LEAP_CTL_DONE]⟩

def R.TSC_LEAP_UTC_LO_UTC : Field := .mk' (0x10244) 0 32 .rw 0
def Reg.TSC_LEAP_UTC_LO : Register := ⟨0x10244, [R.TSC_LEAP_UTC_LO_UTC]⟩

def R.TSC_LEAP_UTC_HI_UTC : Field := .mk' (0x10248) 0 16 .rw 0
def Reg.TSC_LEAP_UTC_HI : Register := ⟨0x10248, [R.TSC_LEAP_UTC_HI_UTC]⟩

def R.ENS_CTL_TC_EN : Field := .mk' (0x20000) 0 1 .rws 1
def R.ENS_CTL_PTC : Field := .mk' (0x20000) 4 4 .rws 4
def R.ENS_CTL_DRIFT_WIN : Field := .mk' (0x20000) 8 8 .rws 0x18
def R.ENS_CTL_CONSIST : Field := .mk' (0x20000) 16 16 .rws 0x258
def Reg.ENS_CTL : Register := ⟨0x20000, [R.ENS_CTL_TC_EN, R.ENS_CTL_PTC, R.ENS_CTL_DRIFT_WIN, R.ENS_CTL_CONSIST]⟩

def R.ENS_STAT_STATE : Field := .mk' (0x20004) 0 3 .ro 0
def R.ENS_STAT_S1_DECIDE_PEND : Field := .mk' (0x20004) 3 1 .ro 0
def R.ENS_STAT_S1_STATE : Field := .mk' (0x20004) 4 3 .ro 0
def R.ENS_STAT_DECIDE_PEND : Field := .mk' (0x20004) 7 1 .ro 0
def R.ENS_STAT_LEAD : Field := .mk' (0x20004) 8 4 .ro 0
def R.ENS_STAT_LEAD_VALID : Field := .mk' (0x20004) 12 1 .ro 0
def R.ENS_STAT_QUAL : Field := .mk' (0x20004) 16 16 .ro 0
def Reg.ENS_STAT : Register := ⟨0x20004, [R.ENS_STAT_STATE, R.ENS_STAT_S1_DECIDE_PEND, R.ENS_STAT_S1_STATE, R.ENS_STAT_DECIDE_PEND, R.ENS_STAT_LEAD, R.ENS_STAT_LEAD_VALID, R.ENS_STAT_QUAL]⟩

def R.ENS_EVT_BITS : Field := .mk' (0x20008) 0 9 .w1c 0
def Reg.ENS_EVT : Register := ⟨0x20008, [R.ENS_EVT_BITS]⟩

def R.ENS_EVT_EN_BITS : Field := .mk' (0x2000C) 0 9 .rw 0
def Reg.ENS_EVT_EN : Register := ⟨0x2000C, [R.ENS_EVT_EN_BITS]⟩

def R.ENS_PHASE_THETA : Field := .mk' (0x20010) 0 32 .ro 0
def Reg.ENS_PHASE : Register := ⟨0x20010, [R.ENS_PHASE_THETA]⟩

def R.ENS_FREQ_Y : Field := .mk' (0x20014) 0 32 .ro 0
def Reg.ENS_FREQ : Register := ⟨0x20014, [R.ENS_FREQ_Y]⟩

def R.ENS_DRIFT_D : Field := .mk' (0x20018) 0 32 .ro 0
def Reg.ENS_DRIFT : Register := ⟨0x20018, [R.ENS_DRIFT_D]⟩

def R.ENS_ERR_ERR : Field := .mk' (0x2001C) 0 32 .ro 0xFFFFFFFF
def Reg.ENS_ERR : Register := ⟨0x2001C, [R.ENS_ERR_ERR]⟩

def R.ENS_HO_BUDGET_BUDGET : Field := .mk' (0x20020) 0 32 .rws 0x44C
def Reg.ENS_HO_BUDGET : Register := ⟨0x20020, [R.ENS_HO_BUDGET_BUDGET]⟩

def R.ENS_HO_TIME_SECONDS : Field := .mk' (0x20024) 0 32 .ro 0
def Reg.ENS_HO_TIME : Register := ⟨0x20024, [R.ENS_HO_TIME_SECONDS]⟩

def R.ENS_HO_TCR_TCR : Field := .mk' (0x20028) 0 32 .rws 0x3E8
def Reg.ENS_HO_TCR : Register := ⟨0x20028, [R.ENS_HO_TCR_TCR]⟩

def R.ENS_TEMP_TEMP : Field := .mk' (0x2002C) 0 16 .ro 0
def Reg.ENS_TEMP : Register := ⟨0x2002C, [R.ENS_TEMP_TEMP]⟩

def R.ENS_TC_C (k : Nat) : Field := .mk' (0x20030+(k%3)*4) 0 32 .rws 0
def Reg.ENS_TC (k : Nat) : Register := ⟨0x20030+(k%3)*4, [(R.ENS_TC_C k)]⟩

def R.ENS_LOC_WFM_Q : Field := .mk' (0x2003C) 0 32 .rws 0xF4240
def Reg.ENS_LOC_WFM : Register := ⟨0x2003C, [R.ENS_LOC_WFM_Q]⟩

def R.ENS_LOC_RWFM_Q : Field := .mk' (0x20040) 0 32 .rws 0xF4240
def Reg.ENS_LOC_RWFM : Register := ⟨0x20040, [R.ENS_LOC_RWFM_Q]⟩

def R.ENS_LOC_AGE_AGE : Field := .mk' (0x20044) 0 32 .rws 0x3E8
def Reg.ENS_LOC_AGE : Register := ⟨0x20044, [R.ENS_LOC_AGE_AGE]⟩

def R.ENS_ANCHOR_SEL : Field := .mk' (0x20048) 0 2 .rws 0
def R.ENS_ANCHOR_ACTIVE : Field := .mk' (0x20048) 4 2 .ro 0
def R.ENS_ANCHOR_HOLD : Field := .mk' (0x20048) 6 1 .ro 0
def Reg.ENS_ANCHOR : Register := ⟨0x20048, [R.ENS_ANCHOR_SEL, R.ENS_ANCHOR_ACTIVE, R.ENS_ANCHOR_HOLD]⟩

def R.ENS_BAND1_LIMIT : Field := .mk' (0x2004C) 0 24 .rws 0x64
def R.ENS_BAND1_RATE : Field := .mk' (0x2004C) 24 8 .rws 0x0A
def Reg.ENS_BAND1 : Register := ⟨0x2004C, [R.ENS_BAND1_LIMIT, R.ENS_BAND1_RATE]⟩

def R.ENS_BAND2_LIMIT : Field := .mk' (0x20050) 0 24 .rws 0x3E8
def R.ENS_BAND2_RATE : Field := .mk' (0x20050) 24 8 .rws 0x64
def Reg.ENS_BAND2 : Register := ⟨0x20050, [R.ENS_BAND2_LIMIT, R.ENS_BAND2_RATE]⟩

def R.ENS_ASYM_CTL_STEP_THR : Field := .mk' (0x20054) 0 16 .rws 0x14
def R.ENS_ASYM_CTL_REEST : Field := .mk' (0x20054) 16 16 .rws 0x40
def Reg.ENS_ASYM_CTL : Register := ⟨0x20054, [R.ENS_ASYM_CTL_STEP_THR, R.ENS_ASYM_CTL_REEST]⟩

def R.ENS_SETTLE_PHASE : Field := .mk' (0x20058) 0 16 .rws 0x64
def R.ENS_SETTLE_HOLD : Field := .mk' (0x20058) 16 16 .rws 0x10
def Reg.ENS_SETTLE : Register := ⟨0x20058, [R.ENS_SETTLE_PHASE, R.ENS_SETTLE_HOLD]⟩

def R.ENS_DECIDE_ACTION : Field := .mk' (0x2005C) 0 2 .rw 0
def R.ENS_DECIDE_GO : Field := .mk' (0x2005C) 2 1 .sc 0
def R.ENS_DECIDE_DONE : Field := .mk' (0x2005C) 3 1 .w1c 0
def R.ENS_DECIDE_REFUSED : Field := .mk' (0x2005C) 4 1 .w1c 0
def R.ENS_DECIDE_SET : Field := .mk' (0x2005C) 5 1 .rw 0
def Reg.ENS_DECIDE : Register := ⟨0x2005C, [R.ENS_DECIDE_ACTION, R.ENS_DECIDE_GO, R.ENS_DECIDE_DONE, R.ENS_DECIDE_REFUSED, R.ENS_DECIDE_SET]⟩

def R.ENS_HELD_LO_HELD : Field := .mk' (0x20060) 0 32 .ro 0
def Reg.ENS_HELD_LO : Register := ⟨0x20060, [R.ENS_HELD_LO_HELD]⟩

def R.ENS_HELD_HI_HELD : Field := .mk' (0x20064) 0 16 .ro 0
def Reg.ENS_HELD_HI : Register := ⟨0x20064, [R.ENS_HELD_HI_HELD]⟩

def R.ENS_MAP_NTP_TRK_STRAT : Field := .mk' (0x20068) 0 8 .rws 1
def R.ENS_MAP_NTP_HO_STRAT : Field := .mk' (0x20068) 8 8 .rws 1
def R.ENS_MAP_NTP_FW_STRAT : Field := .mk' (0x20068) 16 8 .rws 0x10
def R.ENS_MAP_NTP_PRE_ANSWER : Field := .mk' (0x20068) 24 1 .rws 0
def Reg.ENS_MAP_NTP : Register := ⟨0x20068, [R.ENS_MAP_NTP_TRK_STRAT, R.ENS_MAP_NTP_HO_STRAT, R.ENS_MAP_NTP_FW_STRAT, R.ENS_MAP_NTP_PRE_ANSWER]⟩

def R.ENS_MAP_CLASS_TRK : Field := .mk' (0x2006C) 0 8 .rws 6
def R.ENS_MAP_CLASS_HO : Field := .mk' (0x2006C) 8 8 .rws 7
def R.ENS_MAP_CLASS_FW : Field := .mk' (0x2006C) 16 8 .rws 0x34
def R.ENS_MAP_CLASS_PRE : Field := .mk' (0x2006C) 24 8 .rws 0xF8
def Reg.ENS_MAP_CLASS : Register := ⟨0x2006C, [R.ENS_MAP_CLASS_TRK, R.ENS_MAP_CLASS_HO, R.ENS_MAP_CLASS_FW, R.ENS_MAP_CLASS_PRE]⟩

def R.ENS_S1_PHASE_THETA : Field := .mk' (0x20070) 0 32 .ro 0
def Reg.ENS_S1_PHASE : Register := ⟨0x20070, [R.ENS_S1_PHASE_THETA]⟩

def R.ENS_S1_FREQ_Y : Field := .mk' (0x20074) 0 32 .ro 0
def Reg.ENS_S1_FREQ : Register := ⟨0x20074, [R.ENS_S1_FREQ_Y]⟩

def R.ENS_SLOT_CFG_EN (i : Nat) : Field := .mk' (0x21000+(i%16)*0x40) 0 1 .rws (if i < 8 then 1 else 0)
def R.ENS_SLOT_CFG_SET (i : Nat) : Field := .mk' (0x21000+(i%16)*0x40) 1 1 .rws 0
def R.ENS_SLOT_CFG_TB (i : Nat) : Field := .mk' (0x21000+(i%16)*0x40) 2 1 .ro (if slotClassOf i = 1 ∨ slotClassOf i = 4 then 0 else 1)
def R.ENS_SLOT_CFG_CLASS (i : Nat) : Field := .mk' (0x21000+(i%16)*0x40) 3 3 .ro (slotClassOf i)
def R.ENS_SLOT_CFG_BIAS_FIX (i : Nat) : Field := .mk' (0x21000+(i%16)*0x40) 6 1 .rws 0
def R.ENS_SLOT_CFG_REFID (i : Nat) : Field := .mk' (0x21000+(i%16)*0x40) 8 2 (if i < 8 then .ro else .rws) (byClass i 0 1 2 3 1)
def R.ENS_SLOT_CFG_TI_CH (i : Nat) : Field := .mk' (0x21000+(i%16)*0x40) 16 6 (if i < 8 then .ro else .rws) 0
def Reg.ENS_SLOT_CFG (i : Nat) : Register := ⟨0x21000+(i%16)*0x40, [(R.ENS_SLOT_CFG_EN i), (R.ENS_SLOT_CFG_SET i), (R.ENS_SLOT_CFG_TB i), (R.ENS_SLOT_CFG_CLASS i), (R.ENS_SLOT_CFG_BIAS_FIX i), (R.ENS_SLOT_CFG_REFID i), (R.ENS_SLOT_CFG_TI_CH i)]⟩

def R.ENS_SLOT_STAT_STATE (i : Nat) : Field := .mk' (0x21004+(i%16)*0x40) 0 3 .ro 0
def R.ENS_SLOT_STAT_ASYM_SUSPECT (i : Nat) : Field := .mk' (0x21004+(i%16)*0x40) 3 1 .ro 0
def R.ENS_SLOT_STAT_REEST (i : Nat) : Field := .mk' (0x21004+(i%16)*0x40) 4 1 .ro 0
def R.ENS_SLOT_STAT_BIAS_OK (i : Nat) : Field := .mk' (0x21004+(i%16)*0x40) 5 1 .ro 0
def R.ENS_SLOT_STAT_HELD (i : Nat) : Field := .mk' (0x21004+(i%16)*0x40) 6 1 .ro 0
def R.ENS_SLOT_STAT_ASSIGN_ERR (i : Nat) : Field := .mk' (0x21004+(i%16)*0x40) 7 1 .ro 0
def R.ENS_SLOT_STAT_CAUSE (i : Nat) : Field := .mk' (0x21004+(i%16)*0x40) 8 4 .ro 0
def R.ENS_SLOT_STAT_LEFT (i : Nat) : Field := .mk' (0x21004+(i%16)*0x40) 16 16 .ro 0
def Reg.ENS_SLOT_STAT (i : Nat) : Register := ⟨0x21004+(i%16)*0x40, [(R.ENS_SLOT_STAT_STATE i), (R.ENS_SLOT_STAT_ASYM_SUSPECT i), (R.ENS_SLOT_STAT_REEST i), (R.ENS_SLOT_STAT_BIAS_OK i), (R.ENS_SLOT_STAT_HELD i), (R.ENS_SLOT_STAT_ASSIGN_ERR i), (R.ENS_SLOT_STAT_CAUSE i), (R.ENS_SLOT_STAT_LEFT i)]⟩

def R.ENS_SLOT_CMD_RELEASE (i : Nat) : Field := .mk' (0x21008+(i%16)*0x40) 0 1 .sc 0
def R.ENS_SLOT_CMD_QUARANTINE (i : Nat) : Field := .mk' (0x21008+(i%16)*0x40) 1 1 .sc 0
def R.ENS_SLOT_CMD_CLR_ASYM (i : Nat) : Field := .mk' (0x21008+(i%16)*0x40) 2 1 .sc 0
def R.ENS_SLOT_CMD_RELEARN (i : Nat) : Field := .mk' (0x21008+(i%16)*0x40) 3 1 .sc 0
def Reg.ENS_SLOT_CMD (i : Nat) : Register := ⟨0x21008+(i%16)*0x40, [(R.ENS_SLOT_CMD_RELEASE i), (R.ENS_SLOT_CMD_QUARANTINE i), (R.ENS_SLOT_CMD_CLR_ASYM i), (R.ENS_SLOT_CMD_RELEARN i)]⟩

def R.ENS_SLOT_OFS_X (i : Nat) : Field := .mk' (0x2100C+(i%16)*0x40) 0 32 .ro 0
def Reg.ENS_SLOT_OFS (i : Nat) : Register := ⟨0x2100C+(i%16)*0x40, [(R.ENS_SLOT_OFS_X i)]⟩

def R.ENS_SLOT_WPM_Q (i : Nat) : Field := .mk' (0x21010+(i%16)*0x40) 0 32 .rws (byClass i 40000 100 1000000 4 10000)
def Reg.ENS_SLOT_WPM (i : Nat) : Register := ⟨0x21010+(i%16)*0x40, [(R.ENS_SLOT_WPM_Q i)]⟩

def R.ENS_SLOT_WFM_Q (i : Nat) : Field := .mk' (0x21014+(i%16)*0x40) 0 32 .rws (byClass i 0 100000 0 0 0)
def Reg.ENS_SLOT_WFM (i : Nat) : Register := ⟨0x21014+(i%16)*0x40, [(R.ENS_SLOT_WFM_Q i)]⟩

def R.ENS_SLOT_RWFM_Q (i : Nat) : Field := .mk' (0x21018+(i%16)*0x40) 0 32 .rws (byClass i 0 1000 0 0 0)
def Reg.ENS_SLOT_RWFM (i : Nat) : Register := ⟨0x21018+(i%16)*0x40, [(R.ENS_SLOT_RWFM_Q i)]⟩

def R.ENS_SLOT_THR_JUMP (i : Nat) : Field := .mk' (0x2101C+(i%16)*0x40) 0 16 .rws (byClass i 100 50 500 10 100)
def R.ENS_SLOT_THR_DEV (i : Nat) : Field := .mk' (0x2101C+(i%16)*0x40) 16 16 .rws (byClass i 200 100 1000 20 200)
def Reg.ENS_SLOT_THR (i : Nat) : Register := ⟨0x2101C+(i%16)*0x40, [(R.ENS_SLOT_THR_JUMP i), (R.ENS_SLOT_THR_DEV i)]⟩

def R.ENS_SLOT_TIME_QUAL (i : Nat) : Field := .mk' (0x21020+(i%16)*0x40) 0 16 .rws (byClass i 60 60 60 10 60)
def R.ENS_SLOT_TIME_LOSS (i : Nat) : Field := .mk' (0x21020+(i%16)*0x40) 16 16 .rws (byClass i 3000 3000 3000 100 3000)
def Reg.ENS_SLOT_TIME (i : Nat) : Register := ⟨0x21020+(i%16)*0x40, [(R.ENS_SLOT_TIME_QUAL i), (R.ENS_SLOT_TIME_LOSS i)]⟩

def R.ENS_SLOT_LIM_FDEV (i : Nat) : Field := .mk' (0x21024+(i%16)*0x40) 0 16 .rws (byClass i 10000 1000 50000 1000 10000)
def R.ENS_SLOT_LIM_CARRY (i : Nat) : Field := .mk' (0x21024+(i%16)*0x40) 16 16 .rws 0
def Reg.ENS_SLOT_LIM (i : Nat) : Register := ⟨0x21024+(i%16)*0x40, [(R.ENS_SLOT_LIM_FDEV i), (R.ENS_SLOT_LIM_CARRY i)]⟩

def R.ENS_SLOT_BIAS_B (i : Nat) : Field := .mk' (0x21028+(i%16)*0x40) 0 32 .rws 0
def Reg.ENS_SLOT_BIAS (i : Nat) : Register := ⟨0x21028+(i%16)*0x40, [(R.ENS_SLOT_BIAS_B i)]⟩

def R.ENS_SLOT_ASYM_A (i : Nat) : Field := .mk' (0x2102C+(i%16)*0x40) 0 32 .rws 0
def Reg.ENS_SLOT_ASYM (i : Nat) : Register := ⟨0x2102C+(i%16)*0x40, [(R.ENS_SLOT_ASYM_A i)]⟩

def R.ENS_SLOT_DLY_DLY (i : Nat) : Field := .mk' (0x21030+(i%16)*0x40) 0 32 .ro 0
def Reg.ENS_SLOT_DLY (i : Nat) : Register := ⟨0x21030+(i%16)*0x40, [(R.ENS_SLOT_DLY_DLY i)]⟩

def R.ENS_SLOT_WEIGHT_W (i : Nat) : Field := .mk' (0x21034+(i%16)*0x40) 0 17 .ro 0
def Reg.ENS_SLOT_WEIGHT (i : Nat) : Register := ⟨0x21034+(i%16)*0x40, [(R.ENS_SLOT_WEIGHT_W i)]⟩

def R.ENS_SLOT_HIST_SUSP (i : Nat) : Field := .mk' (0x21038+(i%16)*0x40) 0 4 .ro 0
def Reg.ENS_SLOT_HIST (i : Nat) : Register := ⟨0x21038+(i%16)*0x40, [(R.ENS_SLOT_HIST_SUSP i)]⟩

def R.ENS_SLOT_BIAS_HI_B (i : Nat) : Field := .mk' (0x2103C+(i%16)*0x40) 0 16 .rws 0
def Reg.ENS_SLOT_BIAS_HI (i : Nat) : Register := ⟨0x2103C+(i%16)*0x40, [(R.ENS_SLOT_BIAS_HI_B i)]⟩

def R.GNS_CTL_EN : Field := .mk' (0x40000) 0 1 .rws 1
def R.GNS_CTL_REDUND : Field := .mk' (0x40000) 1 2 .rws 0
def R.GNS_CTL_REF_SYS : Field := .mk' (0x40000) 3 2 .rws 0
def R.GNS_CTL_UTC_STEER : Field := .mk' (0x40000) 5 1 .rws 0
def R.GNS_CTL_UTC_AUTO : Field := .mk' (0x40000) 6 1 .rws 1
def R.GNS_CTL_LEAP_AUTO : Field := .mk' (0x40000) 7 1 .rws 1
def R.GNS_CTL_SYS_EN : Field := .mk' (0x40000) 8 4 .rws 0xF
def R.GNS_CTL_HIGH_EN : Field := .mk' (0x40000) 12 1 .rws 1
def R.GNS_CTL_LOW_EN : Field := .mk' (0x40000) 13 1 .rws 1
def R.GNS_CTL_ISB_BCAST : Field := .mk' (0x40000) 14 1 .rws 0
def Reg.GNS_CTL : Register := ⟨0x40000, [R.GNS_CTL_EN, R.GNS_CTL_REDUND, R.GNS_CTL_REF_SYS, R.GNS_CTL_UTC_STEER, R.GNS_CTL_UTC_AUTO, R.GNS_CTL_LEAP_AUTO, R.GNS_CTL_SYS_EN, R.GNS_CTL_HIGH_EN, R.GNS_CTL_LOW_EN, R.GNS_CTL_ISB_BCAST]⟩

def R.GNS_EVT_BITS : Field := .mk' (0x40008) 0 13 .w1c 0
def Reg.GNS_EVT : Register := ⟨0x40008, [R.GNS_EVT_BITS]⟩

def R.GNS_EVT_EN_BITS : Field := .mk' (0x4000C) 0 13 .rw 0
def Reg.GNS_EVT_EN : Register := ⟨0x4000C, [R.GNS_EVT_EN_BITS]⟩

def R.GNS_UTC_TAI_UTC : Field := .mk' (0x40010) 0 8 .ro 0
def R.GNS_UTC_TAI_UTC_F : Field := .mk' (0x40010) 8 8 .ro 0
def R.GNS_UTC_VALID : Field := .mk' (0x40010) 16 1 .ro 0
def R.GNS_UTC_ANNOUNCED : Field := .mk' (0x40010) 17 1 .ro 0
def Reg.GNS_UTC : Register := ⟨0x40010, [R.GNS_UTC_TAI_UTC, R.GNS_UTC_TAI_UTC_F, R.GNS_UTC_VALID, R.GNS_UTC_ANNOUNCED]⟩

def R.GNS_SURV_CTL_MIN_TIME : Field := .mk' (0x40014) 0 16 .rws 0x7D0
def R.GNS_SURV_CTL_ACC : Field := .mk' (0x40014) 16 16 .rws 0x64
def Reg.GNS_SURV_CTL : Register := ⟨0x40014, [R.GNS_SURV_CTL_MIN_TIME, R.GNS_SURV_CTL_ACC]⟩

def R.GNS_SPF_CTL_ENABLES : Field := .mk' (0x40018) 0 5 .rws 0x1F
def R.GNS_SPF_CTL_CLEAR : Field := .mk' (0x40018) 8 8 .rws 0x3C
def Reg.GNS_SPF_CTL : Register := ⟨0x40018, [R.GNS_SPF_CTL_ENABLES, R.GNS_SPF_CTL_CLEAR]⟩

def R.GNS_SPF_THR_RES_THR : Field := .mk' (0x4001C) 0 8 .rws 0x1E
def R.GNS_SPF_THR_ANT_THR : Field := .mk' (0x4001C) 8 8 .rws 0x1E
def R.GNS_SPF_THR_CLK_THR : Field := .mk' (0x4001C) 16 8 .rws 5
def R.GNS_SPF_THR_POS_THR : Field := .mk' (0x4001C) 24 8 .rws 5
def Reg.GNS_SPF_THR : Register := ⟨0x4001C, [R.GNS_SPF_THR_RES_THR, R.GNS_SPF_THR_ANT_THR, R.GNS_SPF_THR_CLK_THR, R.GNS_SPF_THR_POS_THR]⟩

def R.GNS_MASK_ELEV : Field := .mk' (0x40020) 0 8 .rws 0xA
def R.GNS_MASK_CN0 : Field := .mk' (0x40020) 8 8 .rws 0x1E
def Reg.GNS_MASK : Register := ⟨0x40020, [R.GNS_MASK_ELEV, R.GNS_MASK_CN0]⟩

def R.GNS_SPACING_SP_1M : Field := .mk' (0x40024) 0 7 .rws 8
def R.GNS_SPACING_SP_10M : Field := .mk' (0x40024) 8 7 .rws 0x20
def Reg.GNS_SPACING : Register := ⟨0x40024, [R.GNS_SPACING_SP_1M, R.GNS_SPACING_SP_10M]⟩

def R.GNS_SLEEP_CTL_ALLOW : Field := .mk' (0x40028) 0 1 .rws 0
def R.GNS_SLEEP_CTL_WAKE : Field := .mk' (0x40028) 1 1 .sc 0
def R.GNS_SLEEP_CTL_MAX : Field := .mk' (0x40028) 16 16 .rws 0xE10
def Reg.GNS_SLEEP_CTL : Register := ⟨0x40028, [R.GNS_SLEEP_CTL_ALLOW, R.GNS_SLEEP_CTL_WAKE, R.GNS_SLEEP_CTL_MAX]⟩

def R.GNS_SLEEP_STAT_ASLEEP : Field := .mk' (0x4002C) 0 1 .ro 0
def R.GNS_SLEEP_STAT_ELIGIBLE : Field := .mk' (0x4002C) 1 1 .ro 0
def R.GNS_SLEEP_STAT_HOT : Field := .mk' (0x4002C) 2 1 .ro 0
def R.GNS_SLEEP_STAT_LAST_START : Field := .mk' (0x4002C) 16 16 .ro 0
def Reg.GNS_SLEEP_STAT : Register := ⟨0x4002C, [R.GNS_SLEEP_STAT_ASLEEP, R.GNS_SLEEP_STAT_ELIGIBLE, R.GNS_SLEEP_STAT_HOT, R.GNS_SLEEP_STAT_LAST_START]⟩

def R.GNS_NAV_CTL_SYS : Field := .mk' (0x40030) 0 4 .rw 0
def R.GNS_NAV_CTL_FAILED : Field := .mk' (0x40030) 4 1 .rw 0
def Reg.GNS_NAV_CTL : Register := ⟨0x40030, [R.GNS_NAV_CTL_SYS, R.GNS_NAV_CTL_FAILED]⟩

def R.GNS_NAV_WR_WR : Field := .mk' (0x40034) 0 9 .ro 0
def Reg.GNS_NAV_WR : Register := ⟨0x40034, [R.GNS_NAV_WR_WR]⟩

def R.GNS_NAV_RD_RD : Field := .mk' (0x40038) 0 9 .rw 0
def Reg.GNS_NAV_RD : Register := ⟨0x40038, [R.GNS_NAV_RD_RD]⟩

def R.GNS_NAV_LOST_LOST : Field := .mk' (0x4003C) 0 32 .rc 0
def Reg.GNS_NAV_LOST : Register := ⟨0x4003C, [R.GNS_NAV_LOST_LOST]⟩

def R.GNS_EXCL_GPS_X : Field := .mk' (0x40040) 0 32 .rws 0
def Reg.GNS_EXCL_GPS : Register := ⟨0x40040, [R.GNS_EXCL_GPS_X]⟩

def R.GNS_EXCL_GAL_LO_X : Field := .mk' (0x40044) 0 32 .rws 0
def Reg.GNS_EXCL_GAL_LO : Register := ⟨0x40044, [R.GNS_EXCL_GAL_LO_X]⟩

def R.GNS_EXCL_GAL_HI_X : Field := .mk' (0x40048) 0 4 .rws 0
def Reg.GNS_EXCL_GAL_HI : Register := ⟨0x40048, [R.GNS_EXCL_GAL_HI_X]⟩

def R.GNS_EXCL_BDS_LO_X : Field := .mk' (0x4004C) 0 32 .rws 0
def Reg.GNS_EXCL_BDS_LO : Register := ⟨0x4004C, [R.GNS_EXCL_BDS_LO_X]⟩

def R.GNS_EXCL_BDS_HI_X : Field := .mk' (0x40050) 0 31 .rws 0
def Reg.GNS_EXCL_BDS_HI : Register := ⟨0x40050, [R.GNS_EXCL_BDS_HI_X]⟩

def R.GNS_EXCL_QZS_X : Field := .mk' (0x40054) 0 10 .rws 0
def Reg.GNS_EXCL_QZS : Register := ⟨0x40054, [R.GNS_EXCL_QZS_X]⟩

def R.GNS_PORT_CFG_EN (n : Nat) : Field := .mk' (0x40100+(n%4)*0x40) 0 1 .rws 1
def R.GNS_PORT_CFG_RATE (n : Nat) : Field := .mk' (0x40100+(n%4)*0x40) 1 2 .rws 0
def R.GNS_PORT_CFG_FMT (n : Nat) : Field := .mk' (0x40100+(n%4)*0x40) 3 1 .rws 0
def R.GNS_PORT_CFG_SPEC_INV (n : Nat) : Field := .mk' (0x40100+(n%4)*0x40) 4 1 .rws 0
def R.GNS_PORT_CFG_IF_OFS (n : Nat) : Field := .mk' (0x40100+(n%4)*0x40) 16 16 .rws 0
def Reg.GNS_PORT_CFG (n : Nat) : Register := ⟨0x40100+(n%4)*0x40, [(R.GNS_PORT_CFG_EN n), (R.GNS_PORT_CFG_RATE n), (R.GNS_PORT_CFG_FMT n), (R.GNS_PORT_CFG_SPEC_INV n), (R.GNS_PORT_CFG_IF_OFS n)]⟩

def R.GNS_PORT_STAT_CLK_OK (n : Nat) : Field := .mk' (0x40104+(n%4)*0x40) 0 1 .ro 0
def R.GNS_PORT_STAT_FAULT (n : Nat) : Field := .mk' (0x40104+(n%4)*0x40) 1 1 .ro 0
def R.GNS_PORT_STAT_LEVEL (n : Nat) : Field := .mk' (0x40104+(n%4)*0x40) 8 8 .ro 0
def R.GNS_PORT_STAT_RATE_ERR (n : Nat) : Field := .mk' (0x40104+(n%4)*0x40) 16 16 .ro 0
def Reg.GNS_PORT_STAT (n : Nat) : Register := ⟨0x40104+(n%4)*0x40, [(R.GNS_PORT_STAT_CLK_OK n), (R.GNS_PORT_STAT_FAULT n), (R.GNS_PORT_STAT_LEVEL n), (R.GNS_PORT_STAT_RATE_ERR n)]⟩

def R.GNS_PORT_DLY_DLY (n : Nat) : Field := .mk' (0x40108+(n%4)*0x40) 0 32 .rws 0
def Reg.GNS_PORT_DLY (n : Nat) : Register := ⟨0x40108+(n%4)*0x40, [(R.GNS_PORT_DLY_DLY n)]⟩

def R.GNS_PORT_JAM_LVL (n : Nat) : Field := .mk' (0x4010C+(n%4)*0x40) 0 8 .ro 0
def R.GNS_PORT_JAM_THR (n : Nat) : Field := .mk' (0x4010C+(n%4)*0x40) 8 8 .rws 0x28
def R.GNS_PORT_JAM_LEARN (n : Nat) : Field := .mk' (0x4010C+(n%4)*0x40) 16 1 .sc 0
def Reg.GNS_PORT_JAM (n : Nat) : Register := ⟨0x4010C+(n%4)*0x40, [(R.GNS_PORT_JAM_LVL n), (R.GNS_PORT_JAM_THR n), (R.GNS_PORT_JAM_LEARN n)]⟩

def R.GNS_NOTCH_CTL_MODE (n : Nat) : Field := .mk' (0x40110+(n%4)*0x40) 0 2 .rws 1
def R.GNS_NOTCH_CTL_WIDTH (n : Nat) : Field := .mk' (0x40110+(n%4)*0x40) 2 2 .rws 0
def R.GNS_NOTCH_CTL_THR (n : Nat) : Field := .mk' (0x40110+(n%4)*0x40) 4 8 .rws 0xF
def R.GNS_NOTCH_CTL_ENGAGED (n : Nat) : Field := .mk' (0x40110+(n%4)*0x40) 12 4 .ro 0
def Reg.GNS_NOTCH_CTL (n : Nat) : Register := ⟨0x40110+(n%4)*0x40, [(R.GNS_NOTCH_CTL_MODE n), (R.GNS_NOTCH_CTL_WIDTH n), (R.GNS_NOTCH_CTL_THR n), (R.GNS_NOTCH_CTL_ENGAGED n)]⟩

def R.GNS_NOTCH_FREQ (k : Nat) : Field := .mk' (0x40120+(k%16)/4*0x40+(k%16)%4*4) 0 32 .rws 0
def Reg.GNS_NOTCH (k : Nat) : Register := ⟨0x40120+(k%16)/4*0x40+(k%16)%4*4, [(R.GNS_NOTCH_FREQ k)]⟩

def R.GNS_POS_POS (k : Nat) : Field := .mk' (0x40200+(k%6)/3*0x40+(k%6)%3*4) 0 32 .rws 0
def Reg.GNS_POS (k : Nat) : Register := ⟨0x40200+(k%6)/3*0x40+(k%6)%3*4, [(R.GNS_POS_POS k)]⟩

def R.GNS_POS_CTL_MODE (a : Nat) : Field := .mk' (0x4020C+(a%2)*0x40) 0 2 .rws 0
def R.GNS_POS_CTL_RESTART (a : Nat) : Field := .mk' (0x4020C+(a%2)*0x40) 2 1 .sc 0
def R.GNS_POS_CTL_STATE (a : Nat) : Field := .mk' (0x4020C+(a%2)*0x40) 4 2 .ro 0
def Reg.GNS_POS_CTL (a : Nat) : Register := ⟨0x4020C+(a%2)*0x40, [(R.GNS_POS_CTL_MODE a), (R.GNS_POS_CTL_RESTART a), (R.GNS_POS_CTL_STATE a)]⟩

def R.GNS_SURV_STAT_SIGMA (a : Nat) : Field := .mk' (0x40210+(a%2)*0x40) 0 16 .ro 0xFFFF
def R.GNS_SURV_STAT_ELAPSED (a : Nat) : Field := .mk' (0x40210+(a%2)*0x40) 16 16 .ro 0
def Reg.GNS_SURV_STAT (a : Nat) : Register := ⟨0x40210+(a%2)*0x40, [(R.GNS_SURV_STAT_SIGMA a), (R.GNS_SURV_STAT_ELAPSED a)]⟩

def R.GNS_SOL_EPOCH_LO_SEC (a : Nat) : Field := .mk' (0x40214+(a%2)*0x40) 0 32 .ro 0
def Reg.GNS_SOL_EPOCH_LO (a : Nat) : Register := ⟨0x40214+(a%2)*0x40, [(R.GNS_SOL_EPOCH_LO_SEC a)]⟩

def R.GNS_SOL_EPOCH_HI_SEC (a : Nat) : Field := .mk' (0x40218+(a%2)*0x40) 0 16 .ro 0
def Reg.GNS_SOL_EPOCH_HI (a : Nat) : Register := ⟨0x40218+(a%2)*0x40, [(R.GNS_SOL_EPOCH_HI_SEC a)]⟩

def R.GNS_SOL_OFS_LO_X (a : Nat) : Field := .mk' (0x4021C+(a%2)*0x40) 0 32 .ro 0
def Reg.GNS_SOL_OFS_LO (a : Nat) : Register := ⟨0x4021C+(a%2)*0x40, [(R.GNS_SOL_OFS_LO_X a)]⟩

def R.GNS_SOL_OFS_HI_X (a : Nat) : Field := .mk' (0x40220+(a%2)*0x40) 0 16 .ro 0
def Reg.GNS_SOL_OFS_HI (a : Nat) : Register := ⟨0x40220+(a%2)*0x40, [(R.GNS_SOL_OFS_HI_X a)]⟩

def R.GNS_SOL_QUAL_SIGMA (a : Nat) : Field := .mk' (0x40224+(a%2)*0x40) 0 16 .ro 0xFFFF
def R.GNS_SOL_QUAL_NSV (a : Nat) : Field := .mk' (0x40224+(a%2)*0x40) 16 8 .ro 0
def R.GNS_SOL_QUAL_NEXCL (a : Nat) : Field := .mk' (0x40224+(a%2)*0x40) 24 8 .ro 0
def Reg.GNS_SOL_QUAL (a : Nat) : Register := ⟨0x40224+(a%2)*0x40, [(R.GNS_SOL_QUAL_SIGMA a), (R.GNS_SOL_QUAL_NSV a), (R.GNS_SOL_QUAL_NEXCL a)]⟩

def R.GNS_SOL_FLAGS_VALID (a : Nat) : Field := .mk' (0x40228+(a%2)*0x40) 0 1 .ro 0
def R.GNS_SOL_FLAGS_DUAL (a : Nat) : Field := .mk' (0x40228+(a%2)*0x40) 1 1 .ro 0
def R.GNS_SOL_FLAGS_POS_KNOWN (a : Nat) : Field := .mk' (0x40228+(a%2)*0x40) 2 1 .ro 0
def R.GNS_SOL_FLAGS_NOTCH_IN_LOBE (a : Nat) : Field := .mk' (0x40228+(a%2)*0x40) 3 1 .ro 0
def R.GNS_SOL_FLAGS_SPOOF (a : Nat) : Field := .mk' (0x40228+(a%2)*0x40) 4 1 .ro 0
def R.GNS_SOL_FLAGS_NO_RAIM (a : Nat) : Field := .mk' (0x40228+(a%2)*0x40) 5 1 .ro 0
def R.GNS_SOL_FLAGS_REF_CHG (a : Nat) : Field := .mk' (0x40228+(a%2)*0x40) 6 1 .ro 0
def R.GNS_SOL_FLAGS_DISCONT (a : Nat) : Field := .mk' (0x40228+(a%2)*0x40) 7 1 .ro 0
def R.GNS_SOL_FLAGS_REF_SYS (a : Nat) : Field := .mk' (0x40228+(a%2)*0x40) 8 2 .ro 0
def R.GNS_SOL_FLAGS_UTC_STEER (a : Nat) : Field := .mk' (0x40228+(a%2)*0x40) 10 1 .ro 0
def R.GNS_SOL_FLAGS_JAM (a : Nat) : Field := .mk' (0x40228+(a%2)*0x40) 11 1 .ro 0
def Reg.GNS_SOL_FLAGS (a : Nat) : Register := ⟨0x40228+(a%2)*0x40, [(R.GNS_SOL_FLAGS_VALID a), (R.GNS_SOL_FLAGS_DUAL a), (R.GNS_SOL_FLAGS_POS_KNOWN a), (R.GNS_SOL_FLAGS_NOTCH_IN_LOBE a), (R.GNS_SOL_FLAGS_SPOOF a), (R.GNS_SOL_FLAGS_NO_RAIM a), (R.GNS_SOL_FLAGS_REF_CHG a), (R.GNS_SOL_FLAGS_DISCONT a), (R.GNS_SOL_FLAGS_REF_SYS a), (R.GNS_SOL_FLAGS_UTC_STEER a), (R.GNS_SOL_FLAGS_JAM a)]⟩

def R.GNS_CH_CFG_PIN (c : Nat) : Field := .mk' (0x50000+(c%160)*16) 0 1 .rw 0
def R.GNS_CH_CFG_SYS (c : Nat) : Field := .mk' (0x50000+(c%160)*16) 1 2 .rw 0
def R.GNS_CH_CFG_BAND (c : Nat) : Field := .mk' (0x50000+(c%160)*16) 3 1 .rw 0
def R.GNS_CH_CFG_ANT (c : Nat) : Field := .mk' (0x50000+(c%160)*16) 4 1 .rw 0
def R.GNS_CH_CFG_RSV (c : Nat) : Field := .mk' (0x50000+(c%160)*16) 5 1 .rw (if c < 158 then 0 else 1)
def R.GNS_CH_CFG_SVID (c : Nat) : Field := .mk' (0x50000+(c%160)*16) 8 8 .rw 0
def R.GNS_CH_CFG_SPACING (c : Nat) : Field := .mk' (0x50000+(c%160)*16) 16 7 .rw 0
def Reg.GNS_CH_CFG (c : Nat) : Register := ⟨0x50000+(c%160)*16, [(R.GNS_CH_CFG_PIN c), (R.GNS_CH_CFG_SYS c), (R.GNS_CH_CFG_BAND c), (R.GNS_CH_CFG_ANT c), (R.GNS_CH_CFG_RSV c), (R.GNS_CH_CFG_SVID c), (R.GNS_CH_CFG_SPACING c)]⟩

def R.GNS_CH_STAT_STATE (c : Nat) : Field := .mk' (0x50004+(c%160)*16) 0 3 .ro 0
def R.GNS_CH_STAT_USED (c : Nat) : Field := .mk' (0x50004+(c%160)*16) 3 1 .ro 0
def R.GNS_CH_STAT_EXCLUDED (c : Nat) : Field := .mk' (0x50004+(c%160)*16) 4 1 .ro 0
def R.GNS_CH_STAT_NOTCHED (c : Nat) : Field := .mk' (0x50004+(c%160)*16) 5 1 .ro 0
def R.GNS_CH_STAT_CFG_ERR (c : Nat) : Field := .mk' (0x50004+(c%160)*16) 6 1 .ro 0
def R.GNS_CH_STAT_SVID (c : Nat) : Field := .mk' (0x50004+(c%160)*16) 8 8 .ro 0
def R.GNS_CH_STAT_CN0 (c : Nat) : Field := .mk' (0x50004+(c%160)*16) 16 16 .ro 0
def Reg.GNS_CH_STAT (c : Nat) : Register := ⟨0x50004+(c%160)*16, [(R.GNS_CH_STAT_STATE c), (R.GNS_CH_STAT_USED c), (R.GNS_CH_STAT_EXCLUDED c), (R.GNS_CH_STAT_NOTCHED c), (R.GNS_CH_STAT_CFG_ERR c), (R.GNS_CH_STAT_SVID c), (R.GNS_CH_STAT_CN0 c)]⟩

def R.GNS_CH_DOP_DOP (c : Nat) : Field := .mk' (0x50008+(c%160)*16) 0 32 .ro 0
def Reg.GNS_CH_DOP (c : Nat) : Register := ⟨0x50008+(c%160)*16, [(R.GNS_CH_DOP_DOP c)]⟩

def R.RFM_CTL_LIFE_WARN : Field := .mk' (0xC0000) 0 16 .rws 0x88E
def R.RFM_CTL_WARMUP_DEF : Field := .mk' (0xC0000) 16 16 .rws 0x708
def Reg.RFM_CTL : Register := ⟨0xC0000, [R.RFM_CTL_LIFE_WARN, R.RFM_CTL_WARMUP_DEF]⟩

def R.RFM_EVT_BITS : Field := .mk' (0xC0004) 0 32 .w1c 0
def Reg.RFM_EVT : Register := ⟨0xC0004, [R.RFM_EVT_BITS]⟩

def R.RFM_EVT_EN_BITS : Field := .mk' (0xC0008) 0 32 .rw 0
def Reg.RFM_EVT_EN : Register := ⟨0xC0008, [R.RFM_EVT_EN_BITS]⟩

def R.RFM_CFG_PARK (p : Nat) : Field := .mk' (0xC0100+(p%2)*0x100) 0 1 .rw 0
def R.RFM_CFG_EFC_MODE (p : Nat) : Field := .mk' (0xC0100+(p%2)*0x100) 1 2 .rws 2
def R.RFM_CFG_CLK (p : Nat) : Field := .mk' (0xC0100+(p%2)*0x100) 3 2 .rws 0
def Reg.RFM_CFG (p : Nat) : Register := ⟨0xC0100+(p%2)*0x100, [(R.RFM_CFG_PARK p), (R.RFM_CFG_EFC_MODE p), (R.RFM_CFG_CLK p)]⟩

def R.RFM_STAT_STATE (p : Nat) : Field := .mk' (0xC0104+(p%2)*0x100) 0 3 .ro 0
def R.RFM_STAT_IDENT_OK (p : Nat) : Field := .mk' (0xC0104+(p%2)*0x100) 3 1 .ro 0
def R.RFM_STAT_HOURS_OK (p : Nat) : Field := .mk' (0xC0104+(p%2)*0x100) 4 1 .ro 0
def R.RFM_STAT_CLK_OK (p : Nat) : Field := .mk' (0xC0104+(p%2)*0x100) 5 1 .ro 0
def R.RFM_STAT_ALM (p : Nat) : Field := .mk' (0xC0104+(p%2)*0x100) 6 1 .ro 0
def R.RFM_STAT_CANDIDATE (p : Nat) : Field := .mk' (0xC0104+(p%2)*0x100) 7 1 .ro 0
def R.RFM_STAT_LIFE (p : Nat) : Field := .mk' (0xC0104+(p%2)*0x100) 8 2 .ro 3
def R.RFM_STAT_EFC_RAIL (p : Nat) : Field := .mk' (0xC0104+(p%2)*0x100) 10 1 .ro 0
def R.RFM_STAT_PARKED (p : Nat) : Field := .mk' (0xC0104+(p%2)*0x100) 11 1 .ro 0
def R.RFM_STAT_WARM_LEFT (p : Nat) : Field := .mk' (0xC0104+(p%2)*0x100) 16 16 .ro 0
def Reg.RFM_STAT (p : Nat) : Register := ⟨0xC0104+(p%2)*0x100, [(R.RFM_STAT_STATE p), (R.RFM_STAT_IDENT_OK p), (R.RFM_STAT_HOURS_OK p), (R.RFM_STAT_CLK_OK p), (R.RFM_STAT_ALM p), (R.RFM_STAT_CANDIDATE p), (R.RFM_STAT_LIFE p), (R.RFM_STAT_EFC_RAIL p), (R.RFM_STAT_PARKED p), (R.RFM_STAT_WARM_LEFT p)]⟩

def R.RFM_EFC_CODE (p : Nat) : Field := .mk' (0xC0108+(p%2)*0x100) 0 20 .rw 0x80000
def Reg.RFM_EFC (p : Nat) : Register := ⟨0xC0108+(p%2)*0x100, [(R.RFM_EFC_CODE p)]⟩

def R.RFM_EFC_STEP_STEP (p : Nat) : Field := .mk' (0xC010C+(p%2)*0x100) 0 16 .rws 0x64
def Reg.RFM_EFC_STEP (p : Nat) : Register := ⟨0xC010C+(p%2)*0x100, [(R.RFM_EFC_STEP_STEP p)]⟩

def R.RFM_FREQ_F (p : Nat) : Field := .mk' (0xC0110+(p%2)*0x100) 0 32 .ro 0
def Reg.RFM_FREQ (p : Nat) : Register := ⟨0xC0110+(p%2)*0x100, [(R.RFM_FREQ_F p)]⟩

def R.RFM_HOURS_HOURS (p : Nat) : Field := .mk' (0xC0114+(p%2)*0x100) 0 32 .ro 0
def Reg.RFM_HOURS (p : Nat) : Register := ⟨0xC0114+(p%2)*0x100, [(R.RFM_HOURS_HOURS p)]⟩

def R.RFM_USE_MINUTES (p : Nat) : Field := .mk' (0xC0118+(p%2)*0x100) 0 6 .ro 0
def R.RFM_USE_SEQ (p : Nat) : Field := .mk' (0xC0118+(p%2)*0x100) 16 16 .ro 0
def Reg.RFM_USE (p : Nat) : Register := ⟨0xC0118+(p%2)*0x100, [(R.RFM_USE_MINUTES p), (R.RFM_USE_SEQ p)]⟩

def R.RFM_HOURS_SET_VALUE (p : Nat) : Field := .mk' (0xC011C+(p%2)*0x100) 0 32 .rw 0
def Reg.RFM_HOURS_SET (p : Nat) : Register := ⟨0xC011C+(p%2)*0x100, [(R.RFM_HOURS_SET_VALUE p)]⟩

def R.RFM_HOURS_CMD_GO (p : Nat) : Field := .mk' (0xC0120+(p%2)*0x100) 0 1 .sc 0
def R.RFM_HOURS_CMD_DONE (p : Nat) : Field := .mk' (0xC0120+(p%2)*0x100) 1 1 .w1c 0
def R.RFM_HOURS_CMD_REFUSED (p : Nat) : Field := .mk' (0xC0120+(p%2)*0x100) 2 1 .w1c 0
def Reg.RFM_HOURS_CMD (p : Nat) : Register := ⟨0xC0120+(p%2)*0x100, [(R.RFM_HOURS_CMD_GO p), (R.RFM_HOURS_CMD_DONE p), (R.RFM_HOURS_CMD_REFUSED p)]⟩

def R.RFM_LIFE_REMAIN (p : Nat) : Field := .mk' (0xC0124+(p%2)*0x100) 0 32 .ro 0xFFFFFFFF
def Reg.RFM_LIFE (p : Nat) : Register := ⟨0xC0124+(p%2)*0x100, [(R.RFM_LIFE_REMAIN p)]⟩

def R.RFM_RAIL_RAIL (p : Nat) : Field := .mk' (0xC0128+(p%2)*0x100) 0 32 .ro 0xFFFFFFFF
def Reg.RFM_RAIL (p : Nat) : Register := ⟨0xC0128+(p%2)*0x100, [(R.RFM_RAIL_RAIL p)]⟩

def R.RFM_PPS_EXTRA_EXTRA (p : Nat) : Field := .mk' (0xC012C+(p%2)*0x100) 0 16 .rc 0
def Reg.RFM_PPS_EXTRA (p : Nat) : Register := ⟨0xC012C+(p%2)*0x100, [(R.RFM_PPS_EXTRA_EXTRA p)]⟩

def R.RFM_REC_REC (k : Nat) : Field := .mk' (0xC0180+(k%64)/32*0x100+(k%64)%32*4) 0 32 .ro 0
def Reg.RFM_REC (k : Nat) : Register := ⟨0xC0180+(k%64)/32*0x100+(k%64)%32*4, [(R.RFM_REC_REC k)]⟩

def R.TIM_CTL_ROT_STEP : Field := .mk' (0x80000) 0 8 .rws 8
def R.TIM_CTL_CAL_NOW : Field := .mk' (0x80000) 8 1 .sc 0
def Reg.TIM_CTL : Register := ⟨0x80000, [R.TIM_CTL_ROT_STEP, R.TIM_CTL_CAL_NOW]⟩

def R.TIM_STAT_NO_SPARE : Field := .mk' (0x80004) 0 9 .ro 0
def R.TIM_STAT_CAL_BUSY : Field := .mk' (0x80004) 16 9 .ro 0
def Reg.TIM_STAT : Register := ⟨0x80004, [R.TIM_STAT_NO_SPARE, R.TIM_STAT_CAL_BUSY]⟩

def R.TIM_EVT_BITS : Field := .mk' (0x80008) 0 7 .w1c 0
def Reg.TIM_EVT : Register := ⟨0x80008, [R.TIM_EVT_BITS]⟩

def R.TIM_EVT_EN_BITS : Field := .mk' (0x8000C) 0 7 .rw 0
def Reg.TIM_EVT_EN : Register := ⟨0x8000C, [R.TIM_EVT_EN_BITS]⟩

def R.TIM_BIN_SEL_CH : Field := .mk' (0x80010) 0 7 .rw 0
def R.TIM_BIN_SEL_BIN : Field := .mk' (0x80010) 8 6 .rw 0
def Reg.TIM_BIN_SEL : Register := ⟨0x80010, [R.TIM_BIN_SEL_CH, R.TIM_BIN_SEL_BIN]⟩

def R.TIM_BIN_DATA_CENTRE : Field := .mk' (0x80014) 0 16 .ro 0
def R.TIM_BIN_DATA_WIDTH : Field := .mk' (0x80014) 16 16 .ro 0
def Reg.TIM_BIN_DATA : Register := ⟨0x80014, [R.TIM_BIN_DATA_CENTRE, R.TIM_BIN_DATA_WIDTH]⟩

def R.TIM_GRP_CFG_GATE_MODE (g : Nat) : Field := .mk' (0x80100+(g%8)*0x40) 0 2 .rws 0
def R.TIM_GRP_CFG_POL (g : Nat) : Field := .mk' (0x80100+(g%8)*0x40) 2 1 .rws 0
def R.TIM_GRP_CFG_REARM (g : Nat) : Field := .mk' (0x80100+(g%8)*0x40) 3 1 .rws 0
def Reg.TIM_GRP_CFG (g : Nat) : Register := ⟨0x80100+(g%8)*0x40, [(R.TIM_GRP_CFG_GATE_MODE g), (R.TIM_GRP_CFG_POL g), (R.TIM_GRP_CFG_REARM g)]⟩

def R.TIM_GRP_GLEN_LEN (g : Nat) : Field := .mk' (0x80104+(g%8)*0x40) 0 32 .rw 0
def Reg.TIM_GRP_GLEN (g : Nat) : Register := ⟨0x80104+(g%8)*0x40, [(R.TIM_GRP_GLEN_LEN g)]⟩

def R.TIM_GRP_GT_NS_NS (g : Nat) : Field := .mk' (0x80108+(g%8)*0x40) 0 30 .rw 0
def Reg.TIM_GRP_GT_NS (g : Nat) : Register := ⟨0x80108+(g%8)*0x40, [(R.TIM_GRP_GT_NS_NS g)]⟩

def R.TIM_GRP_GT_SEC_LO_SEC (g : Nat) : Field := .mk' (0x8010C+(g%8)*0x40) 0 32 .rw 0
def Reg.TIM_GRP_GT_SEC_LO (g : Nat) : Register := ⟨0x8010C+(g%8)*0x40, [(R.TIM_GRP_GT_SEC_LO_SEC g)]⟩

def R.TIM_GRP_GT_SEC_HI_SEC (g : Nat) : Field := .mk' (0x80110+(g%8)*0x40) 0 16 .rw 0
def Reg.TIM_GRP_GT_SEC_HI (g : Nat) : Register := ⟨0x80110+(g%8)*0x40, [(R.TIM_GRP_GT_SEC_HI_SEC g)]⟩

def R.TIM_GRP_WR_WR (g : Nat) : Field := .mk' (0x80114+(g%8)*0x40) 0 14 .ro 0
def Reg.TIM_GRP_WR (g : Nat) : Register := ⟨0x80114+(g%8)*0x40, [(R.TIM_GRP_WR_WR g)]⟩

def R.TIM_GRP_RD_RD (g : Nat) : Field := .mk' (0x80118+(g%8)*0x40) 0 14 .rw 0
def Reg.TIM_GRP_RD (g : Nat) : Register := ⟨0x80118+(g%8)*0x40, [(R.TIM_GRP_RD_RD g)]⟩

def R.TIM_GRP_WIN_WIN (g : Nat) : Field := .mk' (0x8011C+(g%8)*0x40) 0 5 .rw 0
def Reg.TIM_GRP_WIN (g : Nat) : Register := ⟨0x8011C+(g%8)*0x40, [(R.TIM_GRP_WIN_WIN g)]⟩

def R.TIM_GRP_LOST_LOST (g : Nat) : Field := .mk' (0x80120+(g%8)*0x40) 0 32 .rc 0
def Reg.TIM_GRP_LOST (g : Nat) : Register := ⟨0x80120+(g%8)*0x40, [(R.TIM_GRP_LOST_LOST g)]⟩

def R.TIM_GRP_STAT_GATE_OPEN (g : Nat) : Field := .mk' (0x80124+(g%8)*0x40) 0 1 .ro 0
def R.TIM_GRP_STAT_WAITING (g : Nat) : Field := .mk' (0x80124+(g%8)*0x40) 1 1 .ro 0
def R.TIM_GRP_STAT_SPARE (g : Nat) : Field := .mk' (0x80124+(g%8)*0x40) 8 4 .ro 8
def R.TIM_GRP_STAT_RETIRED (g : Nat) : Field := .mk' (0x80124+(g%8)*0x40) 12 4 .ro 0
def Reg.TIM_GRP_STAT (g : Nat) : Register := ⟨0x80124+(g%8)*0x40, [(R.TIM_GRP_STAT_GATE_OPEN g), (R.TIM_GRP_STAT_WAITING g), (R.TIM_GRP_STAT_SPARE g), (R.TIM_GRP_STAT_RETIRED g)]⟩

def R.TIM_CH_CFG_MODE (c : Nat) : Field := .mk' (0x81000+(c%64)*0x20) 0 2 .rw 0
def R.TIM_CH_CFG_EDGE (c : Nat) : Field := .mk' (0x81000+(c%64)*0x20) 2 2 .rw 0
def R.TIM_CH_CFG_GATED (c : Nat) : Field := .mk' (0x81000+(c%64)*0x20) 4 1 .rw 0
def R.TIM_CH_CFG_STOP_SELF (c : Nat) : Field := .mk' (0x81000+(c%64)*0x20) 5 1 .rw 0
def R.TIM_CH_CFG_PRESCALE (c : Nat) : Field := .mk' (0x81000+(c%64)*0x20) 6 4 .rw 0
def R.TIM_CH_CFG_CONT (c : Nat) : Field := .mk' (0x81000+(c%64)*0x20) 10 1 .rw 0
def Reg.TIM_CH_CFG (c : Nat) : Register := ⟨0x81000+(c%64)*0x20, [(R.TIM_CH_CFG_MODE c), (R.TIM_CH_CFG_EDGE c), (R.TIM_CH_CFG_GATED c), (R.TIM_CH_CFG_STOP_SELF c), (R.TIM_CH_CFG_PRESCALE c), (R.TIM_CH_CFG_CONT c)]⟩

def R.TIM_CH_CTL_ARM (c : Nat) : Field := .mk' (0x81004+(c%64)*0x20) 0 1 .rw 0
def Reg.TIM_CH_CTL (c : Nat) : Register := ⟨0x81004+(c%64)*0x20, [(R.TIM_CH_CTL_ARM c)]⟩

def R.TIM_CH_STAT_STATE (c : Nat) : Field := .mk' (0x81008+(c%64)*0x20) 0 2 .ro 0
def R.TIM_CH_STAT_ASSIGNED (c : Nat) : Field := .mk' (0x81008+(c%64)*0x20) 2 1 .ro 0
def R.TIM_CH_STAT_CFG_ERR (c : Nat) : Field := .mk' (0x81008+(c%64)*0x20) 3 1 .ro 0
def R.TIM_CH_STAT_HO_WAIT (c : Nat) : Field := .mk' (0x81008+(c%64)*0x20) 4 1 .ro 0
def R.TIM_CH_STAT_UNIT (c : Nat) : Field := .mk' (0x81008+(c%64)*0x20) 8 4 .ro 0
def R.TIM_CH_STAT_CAL_SEQ (c : Nat) : Field := .mk' (0x81008+(c%64)*0x20) 16 16 .ro 0
def Reg.TIM_CH_STAT (c : Nat) : Register := ⟨0x81008+(c%64)*0x20, [(R.TIM_CH_STAT_STATE c), (R.TIM_CH_STAT_ASSIGNED c), (R.TIM_CH_STAT_CFG_ERR c), (R.TIM_CH_STAT_HO_WAIT c), (R.TIM_CH_STAT_UNIT c), (R.TIM_CH_STAT_CAL_SEQ c)]⟩

def R.TIM_CH_DLY_DLY (c : Nat) : Field := .mk' (0x8100C+(c%64)*0x20) 0 32 .rws 0
def Reg.TIM_CH_DLY (c : Nat) : Register := ⟨0x8100C+(c%64)*0x20, [(R.TIM_CH_DLY_DLY c)]⟩

def R.TIM_CH_DEAD_DEAD (c : Nat) : Field := .mk' (0x81010+(c%64)*0x20) 0 32 .rc 0
def Reg.TIM_CH_DEAD (c : Nat) : Register := ⟨0x81010+(c%64)*0x20, [(R.TIM_CH_DEAD_DEAD c)]⟩

def R.TIM_CH_CAL_AGE (c : Nat) : Field := .mk' (0x81014+(c%64)*0x20) 0 16 .ro 0xFFFF
def R.TIM_CH_CAL_DNL (c : Nat) : Field := .mk' (0x81014+(c%64)*0x20) 16 16 .ro 0
def Reg.TIM_CH_CAL (c : Nat) : Register := ⟨0x81014+(c%64)*0x20, [(R.TIM_CH_CAL_AGE c), (R.TIM_CH_CAL_DNL c)]⟩

def R.PLS_EVT_OUT : Field := .mk' (0x90000) 0 32 .w1c 0
def Reg.PLS_EVT : Register := ⟨0x90000, [R.PLS_EVT_OUT]⟩

def R.PLS_EVT_EN_OUT : Field := .mk' (0x90004) 0 32 .rw 0
def Reg.PLS_EVT_EN : Register := ⟨0x90004, [R.PLS_EVT_EN_OUT]⟩

def R.PLS_ACTIVE_ARMED : Field := .mk' (0x90008) 0 32 .ro 0
def Reg.PLS_ACTIVE : Register := ⟨0x90008, [R.PLS_ACTIVE_ARMED]⟩

def R.PLS_CFG_TSSEL (o : Nat) : Field := .mk' (0x91000+(o%32)*0x40) 0 1 .rws 0
def R.PLS_CFG_POL (o : Nat) : Field := .mk' (0x91000+(o%32)*0x40) 1 1 .rws 0
def R.PLS_CFG_ALIGN (o : Nat) : Field := .mk' (0x91000+(o%32)*0x40) 2 1 .rws 0
def R.PLS_CFG_RECORD (o : Nat) : Field := .mk' (0x91000+(o%32)*0x40) 3 1 .rws 0
def R.PLS_CFG_MASK (o : Nat) : Field := .mk' (0x91000+(o%32)*0x40) 4 5 .rws 0x1C
def R.PLS_CFG_KEEP (o : Nat) : Field := .mk' (0x91000+(o%32)*0x40) 9 1 .rws 0
def Reg.PLS_CFG (o : Nat) : Register := ⟨0x91000+(o%32)*0x40, [(R.PLS_CFG_TSSEL o), (R.PLS_CFG_POL o), (R.PLS_CFG_ALIGN o), (R.PLS_CFG_RECORD o), (R.PLS_CFG_MASK o), (R.PLS_CFG_KEEP o)]⟩

def R.PLS_CTL_GO (o : Nat) : Field := .mk' (0x91004+(o%32)*0x40) 0 1 .sc 0
def R.PLS_CTL_STOP (o : Nat) : Field := .mk' (0x91004+(o%32)*0x40) 1 1 .sc 0
def R.PLS_CTL_DONE (o : Nat) : Field := .mk' (0x91004+(o%32)*0x40) 2 1 .w1c 0
def R.PLS_CTL_REFUSED (o : Nat) : Field := .mk' (0x91004+(o%32)*0x40) 3 1 .w1c 0
def R.PLS_CTL_STATUS (o : Nat) : Field := .mk' (0x91004+(o%32)*0x40) 4 4 .ro 0
def Reg.PLS_CTL (o : Nat) : Register := ⟨0x91004+(o%32)*0x40, [(R.PLS_CTL_GO o), (R.PLS_CTL_STOP o), (R.PLS_CTL_DONE o), (R.PLS_CTL_REFUSED o), (R.PLS_CTL_STATUS o)]⟩

def R.PLS_STAT_STATE (o : Nat) : Field := .mk' (0x91008+(o%32)*0x40) 0 2 .ro 0
def R.PLS_STAT_LEVEL (o : Nat) : Field := .mk' (0x91008+(o%32)*0x40) 2 1 .ro 0
def Reg.PLS_STAT (o : Nat) : Register := ⟨0x91008+(o%32)*0x40, [(R.PLS_STAT_STATE o), (R.PLS_STAT_LEVEL o)]⟩

def R.PLS_T0_FRAC_FRAC (o : Nat) : Field := .mk' (0x9100C+(o%32)*0x40) 0 16 .rws 0
def Reg.PLS_T0_FRAC (o : Nat) : Register := ⟨0x9100C+(o%32)*0x40, [(R.PLS_T0_FRAC_FRAC o)]⟩

def R.PLS_T0_NS_NS (o : Nat) : Field := .mk' (0x91010+(o%32)*0x40) 0 30 .rws 0
def Reg.PLS_T0_NS (o : Nat) : Register := ⟨0x91010+(o%32)*0x40, [(R.PLS_T0_NS_NS o)]⟩

def R.PLS_T0_SEC_LO_SEC (o : Nat) : Field := .mk' (0x91014+(o%32)*0x40) 0 32 .rws 0
def Reg.PLS_T0_SEC_LO (o : Nat) : Register := ⟨0x91014+(o%32)*0x40, [(R.PLS_T0_SEC_LO_SEC o)]⟩

def R.PLS_T0_SEC_HI_SEC (o : Nat) : Field := .mk' (0x91018+(o%32)*0x40) 0 16 .rws 0
def Reg.PLS_T0_SEC_HI (o : Nat) : Register := ⟨0x91018+(o%32)*0x40, [(R.PLS_T0_SEC_HI_SEC o)]⟩

def R.PLS_PER_FRAC_FRAC (o : Nat) : Field := .mk' (0x9101C+(o%32)*0x40) 0 16 .rws 0
def Reg.PLS_PER_FRAC (o : Nat) : Register := ⟨0x9101C+(o%32)*0x40, [(R.PLS_PER_FRAC_FRAC o)]⟩

def R.PLS_PER_NS_NS (o : Nat) : Field := .mk' (0x91020+(o%32)*0x40) 0 30 .rws 0
def Reg.PLS_PER_NS (o : Nat) : Register := ⟨0x91020+(o%32)*0x40, [(R.PLS_PER_NS_NS o)]⟩

def R.PLS_PER_SEC_SEC (o : Nat) : Field := .mk' (0x91024+(o%32)*0x40) 0 16 .rws 0
def Reg.PLS_PER_SEC (o : Nat) : Register := ⟨0x91024+(o%32)*0x40, [(R.PLS_PER_SEC_SEC o)]⟩

def R.PLS_WIDTH_C_COARSE (o : Nat) : Field := .mk' (0x91028+(o%32)*0x40) 0 32 .rws 0
def Reg.PLS_WIDTH_C (o : Nat) : Register := ⟨0x91028+(o%32)*0x40, [(R.PLS_WIDTH_C_COARSE o)]⟩

def R.PLS_WIDTH_F_FINE (o : Nat) : Field := .mk' (0x9102C+(o%32)*0x40) 0 6 .rws 0
def Reg.PLS_WIDTH_F (o : Nat) : Register := ⟨0x9102C+(o%32)*0x40, [(R.PLS_WIDTH_F_FINE o)]⟩

def R.PLS_COUNT_COUNT (o : Nat) : Field := .mk' (0x91030+(o%32)*0x40) 0 32 .rws 0
def Reg.PLS_COUNT (o : Nat) : Register := ⟨0x91030+(o%32)*0x40, [(R.PLS_COUNT_COUNT o)]⟩

def R.PLS_LEFT_LEFT (o : Nat) : Field := .mk' (0x91034+(o%32)*0x40) 0 32 .ro 0
def Reg.PLS_LEFT (o : Nat) : Register := ⟨0x91034+(o%32)*0x40, [(R.PLS_LEFT_LEFT o)]⟩

def R.PLS_MISSED_MISSED (o : Nat) : Field := .mk' (0x91038+(o%32)*0x40) 0 16 .rc 0
def R.PLS_MISSED_LAST_CAUSE (o : Nat) : Field := .mk' (0x91038+(o%32)*0x40) 16 8 .ro 0
def Reg.PLS_MISSED (o : Nat) : Register := ⟨0x91038+(o%32)*0x40, [(R.PLS_MISSED_MISSED o), (R.PLS_MISSED_LAST_CAUSE o)]⟩

def R.PLS_DLY_DLY (o : Nat) : Field := .mk' (0x9103C+(o%32)*0x40) 0 32 .rws 0
def Reg.PLS_DLY (o : Nat) : Register := ⟨0x9103C+(o%32)*0x40, [(R.PLS_DLY_DLY o)]⟩

def R.MAC_CFG_EN (p : Nat) : Field := .mk' (0x1000000+(p%32)/8*0x1000000+(p%32)%8*0x10000) 0 1 .rw 0
def R.MAC_CFG_MODE (p : Nat) : Field := .mk' (0x1000000+(p%32)/8*0x1000000+(p%32)%8*0x10000) 1 4 .rw 0
def R.MAC_CFG_FEC (p : Nat) : Field := .mk' (0x1000000+(p%32)/8*0x1000000+(p%32)%8*0x10000) 5 2 .rw 3
def R.MAC_CFG_AN_EN (p : Nat) : Field := .mk' (0x1000000+(p%32)/8*0x1000000+(p%32)%8*0x10000) 7 1 .rw 1
def Reg.MAC_CFG (p : Nat) : Register := ⟨0x1000000+(p%32)/8*0x1000000+(p%32)%8*0x10000, [(R.MAC_CFG_EN p), (R.MAC_CFG_MODE p), (R.MAC_CFG_FEC p), (R.MAC_CFG_AN_EN p)]⟩

def R.MAC_STAT_STATE (p : Nat) : Field := .mk' (0x1000004+(p%32)/8*0x1000000+(p%32)%8*0x10000) 0 2 .ro 0
def R.MAC_STAT_CAL_WEAK (p : Nat) : Field := .mk' (0x1000004+(p%32)/8*0x1000000+(p%32)%8*0x10000) 2 1 .ro 0
def R.MAC_STAT_LOC_FAULT (p : Nat) : Field := .mk' (0x1000004+(p%32)/8*0x1000000+(p%32)%8*0x10000) 3 1 .ro 0
def R.MAC_STAT_REM_FAULT (p : Nat) : Field := .mk' (0x1000004+(p%32)/8*0x1000000+(p%32)%8*0x10000) 4 1 .ro 0
def R.MAC_STAT_HI_BER (p : Nat) : Field := .mk' (0x1000004+(p%32)/8*0x1000000+(p%32)%8*0x10000) 5 1 .ro 0
def R.MAC_STAT_FEC_LOCK (p : Nat) : Field := .mk' (0x1000004+(p%32)/8*0x1000000+(p%32)%8*0x10000) 6 1 .ro 0
def R.MAC_STAT_AN_DONE (p : Nat) : Field := .mk' (0x1000004+(p%32)/8*0x1000000+(p%32)%8*0x10000) 7 1 .ro 0
def R.MAC_STAT_VERIFY (p : Nat) : Field := .mk' (0x1000004+(p%32)/8*0x1000000+(p%32)%8*0x10000) 8 2 .ro 0
def R.MAC_STAT_PRE_ACTIVE (p : Nat) : Field := .mk' (0x1000004+(p%32)/8*0x1000000+(p%32)%8*0x10000) 10 1 .ro 0
def R.MAC_STAT_CFG_ERR (p : Nat) : Field := .mk' (0x1000004+(p%32)/8*0x1000000+(p%32)%8*0x10000) 11 1 .ro 0
def R.MAC_STAT_FEC_USED (p : Nat) : Field := .mk' (0x1000004+(p%32)/8*0x1000000+(p%32)%8*0x10000) 12 2 .ro 0
def R.MAC_STAT_CAL_TRIES (p : Nat) : Field := .mk' (0x1000004+(p%32)/8*0x1000000+(p%32)%8*0x10000) 14 2 .ro 0
def R.MAC_STAT_PAUSED (p : Nat) : Field := .mk' (0x1000004+(p%32)/8*0x1000000+(p%32)%8*0x10000) 16 8 .ro 0
def Reg.MAC_STAT (p : Nat) : Register := ⟨0x1000004+(p%32)/8*0x1000000+(p%32)%8*0x10000, [(R.MAC_STAT_STATE p), (R.MAC_STAT_CAL_WEAK p), (R.MAC_STAT_LOC_FAULT p), (R.MAC_STAT_REM_FAULT p), (R.MAC_STAT_HI_BER p), (R.MAC_STAT_FEC_LOCK p), (R.MAC_STAT_AN_DONE p), (R.MAC_STAT_VERIFY p), (R.MAC_STAT_PRE_ACTIVE p), (R.MAC_STAT_CFG_ERR p), (R.MAC_STAT_FEC_USED p), (R.MAC_STAT_CAL_TRIES p), (R.MAC_STAT_PAUSED p)]⟩

def R.MAC_EVT_BITS (p : Nat) : Field := .mk' (0x1000008+(p%32)/8*0x1000000+(p%32)%8*0x10000) 0 11 .w1c 0
def Reg.MAC_EVT (p : Nat) : Register := ⟨0x1000008+(p%32)/8*0x1000000+(p%32)%8*0x10000, [(R.MAC_EVT_BITS p)]⟩

def R.MAC_EVT_EN_BITS (p : Nat) : Field := .mk' (0x100000C+(p%32)/8*0x1000000+(p%32)%8*0x10000) 0 11 .rw 0
def Reg.MAC_EVT_EN (p : Nat) : Register := ⟨0x100000C+(p%32)/8*0x1000000+(p%32)%8*0x10000, [(R.MAC_EVT_EN_BITS p)]⟩

def R.MAC_ADDR_LO_A (p : Nat) : Field := .mk' (0x1000010+(p%32)/8*0x1000000+(p%32)%8*0x10000) 0 32 .rw 0
def Reg.MAC_ADDR_LO (p : Nat) : Register := ⟨0x1000010+(p%32)/8*0x1000000+(p%32)%8*0x10000, [(R.MAC_ADDR_LO_A p)]⟩

def R.MAC_ADDR_HI_A (p : Nat) : Field := .mk' (0x1000014+(p%32)/8*0x1000000+(p%32)%8*0x10000) 0 16 .rw 0
def Reg.MAC_ADDR_HI (p : Nat) : Register := ⟨0x1000014+(p%32)/8*0x1000000+(p%32)%8*0x10000, [(R.MAC_ADDR_HI_A p)]⟩

def R.MAC_RX_CFG_MAX_LEN (p : Nat) : Field := .mk' (0x1000018+(p%32)/8*0x1000000+(p%32)%8*0x10000) 0 14 .rw 0x5F6
def R.MAC_RX_CFG_PROMISC (p : Nat) : Field := .mk' (0x1000018+(p%32)/8*0x1000000+(p%32)%8*0x10000) 14 1 .rw 0
def R.MAC_RX_CFG_MCAST_ALL (p : Nat) : Field := .mk' (0x1000018+(p%32)/8*0x1000000+(p%32)%8*0x10000) 15 1 .rw 0
def R.MAC_RX_CFG_ND_HOST (p : Nat) : Field := .mk' (0x1000018+(p%32)/8*0x1000000+(p%32)%8*0x10000) 16 1 .rw 1
def Reg.MAC_RX_CFG (p : Nat) : Register := ⟨0x1000018+(p%32)/8*0x1000000+(p%32)%8*0x10000, [(R.MAC_RX_CFG_MAX_LEN p), (R.MAC_RX_CFG_PROMISC p), (R.MAC_RX_CFG_MCAST_ALL p), (R.MAC_RX_CFG_ND_HOST p)]⟩

def R.MAC_PAUSE_CFG_MODE (p : Nat) : Field := .mk' (0x100001C+(p%32)/8*0x1000000+(p%32)%8*0x10000) 0 2 .rw 1
def Reg.MAC_PAUSE_CFG (p : Nat) : Register := ⟨0x100001C+(p%32)/8*0x1000000+(p%32)%8*0x10000, [(R.MAC_PAUSE_CFG_MODE p)]⟩

def R.MAC_PFC_MAP_Q (p : Nat) : Field := .mk' (0x1000020+(p%32)/8*0x1000000+(p%32)%8*0x10000) 0 24 .rw 0xFAC688
def Reg.MAC_PFC_MAP (p : Nat) : Register := ⟨0x1000020+(p%32)/8*0x1000000+(p%32)%8*0x10000, [(R.MAC_PFC_MAP_Q p)]⟩

def R.MAC_PRE_CFG_PRE_EN (p : Nat) : Field := .mk' (0x1000024+(p%32)/8*0x1000000+(p%32)%8*0x10000) 0 1 .rw 0
def R.MAC_PRE_CFG_VERIFY_DIS (p : Nat) : Field := .mk' (0x1000024+(p%32)/8*0x1000000+(p%32)%8*0x10000) 1 1 .rw 0
def R.MAC_PRE_CFG_ADD_FRAG (p : Nat) : Field := .mk' (0x1000024+(p%32)/8*0x1000000+(p%32)%8*0x10000) 2 2 .rw 0
def R.MAC_PRE_CFG_PMASK (p : Nat) : Field := .mk' (0x1000024+(p%32)/8*0x1000000+(p%32)%8*0x10000) 4 7 .rw 0x7F
def R.MAC_PRE_CFG_VERIFY_TIME (p : Nat) : Field := .mk' (0x1000024+(p%32)/8*0x1000000+(p%32)%8*0x10000) 16 8 .rw 0xA
def Reg.MAC_PRE_CFG (p : Nat) : Register := ⟨0x1000024+(p%32)/8*0x1000000+(p%32)%8*0x10000, [(R.MAC_PRE_CFG_PRE_EN p), (R.MAC_PRE_CFG_VERIFY_DIS p), (R.MAC_PRE_CFG_ADD_FRAG p), (R.MAC_PRE_CFG_PMASK p), (R.MAC_PRE_CFG_VERIFY_TIME p)]⟩

def R.MAC_TS_LAT_L_RX (p : Nat) : Field := .mk' (0x1000030+(p%32)/8*0x1000000+(p%32)%8*0x10000) 0 16 .ro 0xD20
def R.MAC_TS_LAT_L_TX (p : Nat) : Field := .mk' (0x1000030+(p%32)/8*0x1000000+(p%32)%8*0x10000) 16 16 .ro 0x21C0
def Reg.MAC_TS_LAT (p : Nat) : Register := ⟨0x1000030+(p%32)/8*0x1000000+(p%32)%8*0x10000, [(R.MAC_TS_LAT_L_RX p), (R.MAC_TS_LAT_L_TX p)]⟩

def R.MAC_TS_PHASE_PHI_RX (p : Nat) : Field := .mk' (0x1000034+(p%32)/8*0x1000000+(p%32)%8*0x10000) 0 16 .ro 0
def R.MAC_TS_PHASE_PHI_TX (p : Nat) : Field := .mk' (0x1000034+(p%32)/8*0x1000000+(p%32)%8*0x10000) 16 16 .ro 0
def Reg.MAC_TS_PHASE (p : Nat) : Register := ⟨0x1000034+(p%32)/8*0x1000000+(p%32)%8*0x10000, [(R.MAC_TS_PHASE_PHI_RX p), (R.MAC_TS_PHASE_PHI_TX p)]⟩

def R.MAC_TS_CAL_C_RX (p : Nat) : Field := .mk' (0x1000038+(p%32)/8*0x1000000+(p%32)%8*0x10000) 0 16 .ro (Config.laneTermRx p % 65536)
def R.MAC_TS_CAL_C_TX (p : Nat) : Field := .mk' (0x1000038+(p%32)/8*0x1000000+(p%32)%8*0x10000) 16 16 .ro (Config.laneTermTx p % 65536)
def Reg.MAC_TS_CAL (p : Nat) : Register := ⟨0x1000038+(p%32)/8*0x1000000+(p%32)%8*0x10000, [(R.MAC_TS_CAL_C_RX p), (R.MAC_TS_CAL_C_TX p)]⟩

def R.MAC_TS_DLY_RX_DLY (p : Nat) : Field := .mk' (0x100003C+(p%32)/8*0x1000000+(p%32)%8*0x10000) 0 32 .rw 0
def Reg.MAC_TS_DLY_RX (p : Nat) : Register := ⟨0x100003C+(p%32)/8*0x1000000+(p%32)%8*0x10000, [(R.MAC_TS_DLY_RX_DLY p)]⟩

def R.MAC_TS_DLY_TX_DLY (p : Nat) : Field := .mk' (0x1000040+(p%32)/8*0x1000000+(p%32)%8*0x10000) 0 32 .rw 0
def Reg.MAC_TS_DLY_TX (p : Nat) : Register := ⟨0x1000040+(p%32)/8*0x1000000+(p%32)%8*0x10000, [(R.MAC_TS_DLY_TX_DLY p)]⟩

def R.MAC_SVC_CMD_IDX (p : Nat) : Field := .mk' (0x1000100+(p%32)/8*0x1000000+(p%32)%8*0x10000) 0 7 .rw 0
def R.MAC_SVC_CMD_WRITE (p : Nat) : Field := .mk' (0x1000100+(p%32)/8*0x1000000+(p%32)%8*0x10000) 8 1 .sc 0
def R.MAC_SVC_CMD_READ (p : Nat) : Field := .mk' (0x1000100+(p%32)/8*0x1000000+(p%32)%8*0x10000) 9 1 .sc 0
def R.MAC_SVC_CMD_REFUSED (p : Nat) : Field := .mk' (0x1000100+(p%32)/8*0x1000000+(p%32)%8*0x10000) 10 1 .w1c 0
def R.MAC_SVC_CMD_BUSY (p : Nat) : Field := .mk' (0x1000100+(p%32)/8*0x1000000+(p%32)%8*0x10000) 16 1 .ro 0
def Reg.MAC_SVC_CMD (p : Nat) : Register := ⟨0x1000100+(p%32)/8*0x1000000+(p%32)%8*0x10000, [(R.MAC_SVC_CMD_IDX p), (R.MAC_SVC_CMD_WRITE p), (R.MAC_SVC_CMD_READ p), (R.MAC_SVC_CMD_REFUSED p), (R.MAC_SVC_CMD_BUSY p)]⟩

def R.MAC_SVC_DATA0_D (p : Nat) : Field := .mk' (0x1000104+(p%32)/8*0x1000000+(p%32)%8*0x10000) 0 4 .rw 0
def Reg.MAC_SVC_DATA0 (p : Nat) : Register := ⟨0x1000104+(p%32)/8*0x1000000+(p%32)%8*0x10000, [(R.MAC_SVC_DATA0_D p)]⟩

def R.MAC_SVC_DATA1_OUTER (p : Nat) : Field := .mk' (0x1000108+(p%32)/8*0x1000000+(p%32)%8*0x10000) 0 12 .rw 0
def R.MAC_SVC_DATA1_INNER (p : Nat) : Field := .mk' (0x1000108+(p%32)/8*0x1000000+(p%32)%8*0x10000) 16 12 .rw 0
def Reg.MAC_SVC_DATA1 (p : Nat) : Register := ⟨0x1000108+(p%32)/8*0x1000000+(p%32)%8*0x10000, [(R.MAC_SVC_DATA1_OUTER p), (R.MAC_SVC_DATA1_INNER p)]⟩

def R.MAC_SVC_DATA2_D (p : Nat) : Field := .mk' (0x100010C+(p%32)/8*0x1000000+(p%32)%8*0x10000) 0 32 .rw 0
def Reg.MAC_SVC_DATA2 (p : Nat) : Register := ⟨0x100010C+(p%32)/8*0x1000000+(p%32)%8*0x10000, [(R.MAC_SVC_DATA2_D p)]⟩

def R.MAC_SVC_DATA3_D (p : Nat) : Field := .mk' (0x1000110+(p%32)/8*0x1000000+(p%32)%8*0x10000) 0 32 .rw 0
def Reg.MAC_SVC_DATA3 (p : Nat) : Register := ⟨0x1000110+(p%32)/8*0x1000000+(p%32)%8*0x10000, [(R.MAC_SVC_DATA3_D p)]⟩

def R.MAC_SVC_DATA4_D (p : Nat) : Field := .mk' (0x1000114+(p%32)/8*0x1000000+(p%32)%8*0x10000) 0 32 .rw 0
def Reg.MAC_SVC_DATA4 (p : Nat) : Register := ⟨0x1000114+(p%32)/8*0x1000000+(p%32)%8*0x10000, [(R.MAC_SVC_DATA4_D p)]⟩

def R.MAC_SVC_DATA5_D (p : Nat) : Field := .mk' (0x1000118+(p%32)/8*0x1000000+(p%32)%8*0x10000) 0 32 .rw 0
def Reg.MAC_SVC_DATA5 (p : Nat) : Register := ⟨0x1000118+(p%32)/8*0x1000000+(p%32)%8*0x10000, [(R.MAC_SVC_DATA5_D p)]⟩

def R.NTP_CTL_EN (n : Nat) : Field := .mk' (0x1100000+(n%4)*0x1000000) 0 1 .rw 0
def R.NTP_CTL_V3_EN (n : Nat) : Field := .mk' (0x1100000+(n%4)*0x1000000) 1 1 .rw 1
def R.NTP_CTL_ILV_EN (n : Nat) : Field := .mk' (0x1100000+(n%4)*0x1000000) 2 1 .rw 1
def R.NTP_CTL_RL_EN (n : Nat) : Field := .mk' (0x1100000+(n%4)*0x1000000) 3 1 .rw 1
def R.NTP_CTL_KOD_EN (n : Nat) : Field := .mk' (0x1100000+(n%4)*0x1000000) 4 1 .rw 1
def Reg.NTP_CTL (n : Nat) : Register := ⟨0x1100000+(n%4)*0x1000000, [(R.NTP_CTL_EN n), (R.NTP_CTL_V3_EN n), (R.NTP_CTL_ILV_EN n), (R.NTP_CTL_RL_EN n), (R.NTP_CTL_KOD_EN n)]⟩

def R.NTP_CLS_CFG_MODE67 (n : Nat) : Field := .mk' (0x1100004+(n%4)*0x1000000) 0 1 .rw 1
def R.NTP_CLS_CFG_OTHER_MODE (n : Nat) : Field := .mk' (0x1100004+(n%4)*0x1000000) 1 1 .rw 0
def R.NTP_CLS_CFG_OTHER_VN (n : Nat) : Field := .mk' (0x1100004+(n%4)*0x1000000) 2 1 .rw 0
def R.NTP_CLS_CFG_EXT (n : Nat) : Field := .mk' (0x1100004+(n%4)*0x1000000) 3 1 .rw 1
def Reg.NTP_CLS_CFG (n : Nat) : Register := ⟨0x1100004+(n%4)*0x1000000, [(R.NTP_CLS_CFG_MODE67 n), (R.NTP_CLS_CFG_OTHER_MODE n), (R.NTP_CLS_CFG_OTHER_VN n), (R.NTP_CLS_CFG_EXT n)]⟩

def R.NTP_RESP_CFG_PRECISION (n : Nat) : Field := .mk' (0x1100008+(n%4)*0x1000000) 0 8 .rw 0xE0
def R.NTP_RESP_CFG_TTL (n : Nat) : Field := .mk' (0x1100008+(n%4)*0x1000000) 8 8 .rw 0x40
def R.NTP_RESP_CFG_DSCP (n : Nat) : Field := .mk' (0x1100008+(n%4)*0x1000000) 16 6 .rw 0
def R.NTP_RESP_CFG_DSCP_COPY (n : Nat) : Field := .mk' (0x1100008+(n%4)*0x1000000) 22 1 .rw 1
def R.NTP_RESP_CFG_KOD_POLL (n : Nat) : Field := .mk' (0x1100008+(n%4)*0x1000000) 24 5 .rw 6
def Reg.NTP_RESP_CFG (n : Nat) : Register := ⟨0x1100008+(n%4)*0x1000000, [(R.NTP_RESP_CFG_PRECISION n), (R.NTP_RESP_CFG_TTL n), (R.NTP_RESP_CFG_DSCP n), (R.NTP_RESP_CFG_DSCP_COPY n), (R.NTP_RESP_CFG_KOD_POLL n)]⟩

def R.NTP_ROOT_DELAY_DELAY (n : Nat) : Field := .mk' (0x110000C+(n%4)*0x1000000) 0 32 .rw 0
def Reg.NTP_ROOT_DELAY (n : Nat) : Register := ⟨0x110000C+(n%4)*0x1000000, [(R.NTP_ROOT_DELAY_DELAY n)]⟩

def R.NTP_ROOT_DISP_ADD (n : Nat) : Field := .mk' (0x1100010+(n%4)*0x1000000) 0 32 .rw 0
def Reg.NTP_ROOT_DISP (n : Nat) : Register := ⟨0x1100010+(n%4)*0x1000000, [(R.NTP_ROOT_DISP_ADD n)]⟩

def R.NTP_RL_CFG_RATE (n : Nat) : Field := .mk' (0x1100014+(n%4)*0x1000000) 0 16 .rw 0x20
def R.NTP_RL_CFG_BURST (n : Nat) : Field := .mk' (0x1100014+(n%4)*0x1000000) 16 8 .rw 0x10
def Reg.NTP_RL_CFG (n : Nat) : Register := ⟨0x1100014+(n%4)*0x1000000, [(R.NTP_RL_CFG_RATE n), (R.NTP_RL_CFG_BURST n)]⟩

def R.NTP_OVF_CFG_RATE (n : Nat) : Field := .mk' (0x1100018+(n%4)*0x1000000) 0 24 .rw 0xF4240
def R.NTP_OVF_CFG_BURST (n : Nat) : Field := .mk' (0x1100018+(n%4)*0x1000000) 24 8 .rw 0x10
def Reg.NTP_OVF_CFG (n : Nat) : Register := ⟨0x1100018+(n%4)*0x1000000, [(R.NTP_OVF_CFG_RATE n), (R.NTP_OVF_CFG_BURST n)]⟩

def R.NTP_KOD_CFG_RATE (n : Nat) : Field := .mk' (0x110001C+(n%4)*0x1000000) 0 20 .rw 0x2710
def R.NTP_KOD_CFG_BURST (n : Nat) : Field := .mk' (0x110001C+(n%4)*0x1000000) 20 8 .rw 0x40
def Reg.NTP_KOD_CFG (n : Nat) : Register := ⟨0x110001C+(n%4)*0x1000000, [(R.NTP_KOD_CFG_RATE n), (R.NTP_KOD_CFG_BURST n)]⟩

def R.NTP_CST_CFG_AGE_BASIC (n : Nat) : Field := .mk' (0x1100020+(n%4)*0x1000000) 0 16 .rw 0x40
def R.NTP_CST_CFG_AGE_ILV (n : Nat) : Field := .mk' (0x1100020+(n%4)*0x1000000) 16 16 .rw 0x44C
def Reg.NTP_CST_CFG (n : Nat) : Register := ⟨0x1100020+(n%4)*0x1000000, [(R.NTP_CST_CFG_AGE_BASIC n), (R.NTP_CST_CFG_AGE_ILV n)]⟩

def R.NTP_CST_CTL_FLUSH (n : Nat) : Field := .mk' (0x1100024+(n%4)*0x1000000) 0 1 .sc 0
def R.NTP_CST_CTL_FLUSH_BUSY (n : Nat) : Field := .mk' (0x1100024+(n%4)*0x1000000) 1 1 .ro 0
def R.NTP_CST_CTL_GEN (n : Nat) : Field := .mk' (0x1100024+(n%4)*0x1000000) 2 1 .ro 0
def Reg.NTP_CST_CTL (n : Nat) : Register := ⟨0x1100024+(n%4)*0x1000000, [(R.NTP_CST_CTL_FLUSH n), (R.NTP_CST_CTL_FLUSH_BUSY n), (R.NTP_CST_CTL_GEN n)]⟩

def R.NTP_CST_STAT_USED (n : Nat) : Field := .mk' (0x1100028+(n%4)*0x1000000) 0 22 .ro 0
def Reg.NTP_CST_STAT (n : Nat) : Register := ⟨0x1100028+(n%4)*0x1000000, [(R.NTP_CST_STAT_USED n)]⟩

def R.NTP_EVT_BITS (n : Nat) : Field := .mk' (0x110002C+(n%4)*0x1000000) 0 5 .w1c 0
def Reg.NTP_EVT (n : Nat) : Register := ⟨0x110002C+(n%4)*0x1000000, [(R.NTP_EVT_BITS n)]⟩

def R.NTP_EVT_EN_BITS (n : Nat) : Field := .mk' (0x1100030+(n%4)*0x1000000) 0 5 .rw 0
def Reg.NTP_EVT_EN (n : Nat) : Register := ⟨0x1100030+(n%4)*0x1000000, [(R.NTP_EVT_EN_BITS n)]⟩

def R.NTP_BC_CFG_EN (p : Nat) : Field := .mk' (0x1100100+(p%32)/8*0x1000000+(p%32)%8*0x10) 0 1 .rw 0
def R.NTP_BC_CFG_DEST (p : Nat) : Field := .mk' (0x1100100+(p%32)/8*0x1000000+(p%32)%8*0x10) 1 2 .rw 0
def R.NTP_BC_CFG_SVC (p : Nat) : Field := .mk' (0x1100100+(p%32)/8*0x1000000+(p%32)%8*0x10) 4 7 .rw 0
def R.NTP_BC_CFG_BPOLL (p : Nat) : Field := .mk' (0x1100100+(p%32)/8*0x1000000+(p%32)%8*0x10) 12 5 .rw 6
def Reg.NTP_BC_CFG (p : Nat) : Register := ⟨0x1100100+(p%32)/8*0x1000000+(p%32)%8*0x10, [(R.NTP_BC_CFG_EN p), (R.NTP_BC_CFG_DEST p), (R.NTP_BC_CFG_SVC p), (R.NTP_BC_CFG_BPOLL p)]⟩

def R.NTP_BC_ADDR_ADDR (p : Nat) : Field := .mk' (0x1100104+(p%32)/8*0x1000000+(p%32)%8*0x10) 0 32 .rw 0
def Reg.NTP_BC_ADDR (p : Nat) : Register := ⟨0x1100104+(p%32)/8*0x1000000+(p%32)%8*0x10, [(R.NTP_BC_ADDR_ADDR p)]⟩

def R.NTP_BC_OFS_OFS_MS (p : Nat) : Field := .mk' (0x1100108+(p%32)/8*0x1000000+(p%32)%8*0x10) 0 10 .rw 0
def Reg.NTP_BC_OFS (p : Nat) : Register := ⟨0x1100108+(p%32)/8*0x1000000+(p%32)%8*0x10, [(R.NTP_BC_OFS_OFS_MS p)]⟩

def R.NTS_CTL_EN (n : Nat) : Field := .mk' (0x1200000+(n%4)*0x1000000) 0 1 .rw 0
def R.NTS_CTL_NAK_EN (n : Nat) : Field := .mk' (0x1200000+(n%4)*0x1000000) 1 1 .rw 1
def Reg.NTS_CTL (n : Nat) : Register := ⟨0x1200000+(n%4)*0x1000000, [(R.NTS_CTL_EN n), (R.NTS_CTL_NAK_EN n)]⟩

def R.NTS_STAT_ACTIVE (n : Nat) : Field := .mk' (0x1200004+(n%4)*0x1000000) 0 4 .ro 0
def R.NTS_STAT_KEY_CURRENT (n : Nat) : Field := .mk' (0x1200004+(n%4)*0x1000000) 4 1 .ro 0
def R.NTS_STAT_KEY_PEND (n : Nat) : Field := .mk' (0x1200004+(n%4)*0x1000000) 5 1 .ro 0
def R.NTS_STAT_QUEUE (n : Nat) : Field := .mk' (0x1200004+(n%4)*0x1000000) 16 9 .ro 0
def Reg.NTS_STAT (n : Nat) : Register := ⟨0x1200004+(n%4)*0x1000000, [(R.NTS_STAT_ACTIVE n), (R.NTS_STAT_KEY_CURRENT n), (R.NTS_STAT_KEY_PEND n), (R.NTS_STAT_QUEUE n)]⟩

def R.NTS_EVT_BITS (n : Nat) : Field := .mk' (0x1200008+(n%4)*0x1000000) 0 6 .w1c 0
def Reg.NTS_EVT (n : Nat) : Register := ⟨0x1200008+(n%4)*0x1000000, [(R.NTS_EVT_BITS n)]⟩

def R.NTS_EVT_EN_BITS (n : Nat) : Field := .mk' (0x120000C+(n%4)*0x1000000) 0 6 .rw 0
def Reg.NTS_EVT_EN (n : Nat) : Register := ⟨0x120000C+(n%4)*0x1000000, [(R.NTS_EVT_EN_BITS n)]⟩

def R.NTS_ENG_STAT_PARKED (n : Nat) : Field := .mk' (0x1200010+(n%4)*0x1000000) 0 12 .ro 0
def R.NTS_ENG_STAT_LENT (n : Nat) : Field := .mk' (0x1200010+(n%4)*0x1000000) 16 12 .ro 0
def Reg.NTS_ENG_STAT (n : Nat) : Register := ⟨0x1200010+(n%4)*0x1000000, [(R.NTS_ENG_STAT_PARKED n), (R.NTS_ENG_STAT_LENT n)]⟩

def R.NTS_KEY_ID_ID (k : Nat) : Field := .mk' (0x1200020+(k%16)/4*0x1000000+(k%16)%4*4) 0 32 .ro 0
def Reg.NTS_KEY_ID (k : Nat) : Register := ⟨0x1200020+(k%16)/4*0x1000000+(k%16)%4*4, [(R.NTS_KEY_ID_ID k)]⟩

def R.NTS_KEY_STATE_S (n : Nat) : Field := .mk' (0x1200030+(n%4)*0x1000000) 0 8 .ro 0
def R.NTS_KEY_STATE_CHG_SEQ (n : Nat) : Field := .mk' (0x1200030+(n%4)*0x1000000) 8 8 .ro 0
def Reg.NTS_KEY_STATE (n : Nat) : Register := ⟨0x1200030+(n%4)*0x1000000, [(R.NTS_KEY_STATE_S n), (R.NTS_KEY_STATE_CHG_SEQ n)]⟩

def R.PTP_CTL_EN (n : Nat) : Field := .mk' (0x1300000+(n%4)*0x1000000) 0 1 .rw 0
def R.PTP_CTL_PRE_SERVE (n : Nat) : Field := .mk' (0x1300000+(n%4)*0x1000000) 1 1 .rw 0
def Reg.PTP_CTL (n : Nat) : Register := ⟨0x1300000+(n%4)*0x1000000, [(R.PTP_CTL_EN n), (R.PTP_CTL_PRE_SERVE n)]⟩

def R.PTP_CLK_ID_LO_ID (n : Nat) : Field := .mk' (0x1300004+(n%4)*0x1000000) 0 32 .rw (Config.deviceUid % 4294967296)
def Reg.PTP_CLK_ID_LO (n : Nat) : Register := ⟨0x1300004+(n%4)*0x1000000, [(R.PTP_CLK_ID_LO_ID n)]⟩

def R.PTP_CLK_ID_HI_ID (n : Nat) : Field := .mk' (0x1300008+(n%4)*0x1000000) 0 32 .rw (Config.deviceUid / 4294967296 % 4294967296)
def Reg.PTP_CLK_ID_HI (n : Nat) : Register := ⟨0x1300008+(n%4)*0x1000000, [(R.PTP_CLK_ID_HI_ID n)]⟩

def R.PTP_DS_PRIO1 (n : Nat) : Field := .mk' (0x130000C+(n%4)*0x1000000) 0 8 .rw 0x80
def R.PTP_DS_PRIO2 (n : Nat) : Field := .mk' (0x130000C+(n%4)*0x1000000) 8 8 .rw 0x80
def R.PTP_DS_OSLV (n : Nat) : Field := .mk' (0x130000C+(n%4)*0x1000000) 16 16 .rw 0x4E5D
def Reg.PTP_DS (n : Nat) : Register := ⟨0x130000C+(n%4)*0x1000000, [(R.PTP_DS_PRIO1 n), (R.PTP_DS_PRIO2 n), (R.PTP_DS_OSLV n)]⟩

def R.PTP_TEL_CLASS_TRK (n : Nat) : Field := .mk' (0x1300010+(n%4)*0x1000000) 0 8 .rw 6
def R.PTP_TEL_CLASS_HO (n : Nat) : Field := .mk' (0x1300010+(n%4)*0x1000000) 8 8 .rw 7
def R.PTP_TEL_CLASS_FW (n : Nat) : Field := .mk' (0x1300010+(n%4)*0x1000000) 16 8 .rw 0x8C
def R.PTP_TEL_CLASS_PRE (n : Nat) : Field := .mk' (0x1300010+(n%4)*0x1000000) 24 8 .rw 0xF8
def Reg.PTP_TEL_CLASS (n : Nat) : Register := ⟨0x1300010+(n%4)*0x1000000, [(R.PTP_TEL_CLASS_TRK n), (R.PTP_TEL_CLASS_HO n), (R.PTP_TEL_CLASS_FW n), (R.PTP_TEL_CLASS_PRE n)]⟩

def R.PTP_GRANT_CFG_DUR_MIN (n : Nat) : Field := .mk' (0x1300014+(n%4)*0x1000000) 0 16 .rw 0xA
def R.PTP_GRANT_CFG_DUR_MAX (n : Nat) : Field := .mk' (0x1300014+(n%4)*0x1000000) 16 16 .rw 0x3E8
def Reg.PTP_GRANT_CFG (n : Nat) : Register := ⟨0x1300014+(n%4)*0x1000000, [(R.PTP_GRANT_CFG_DUR_MIN n), (R.PTP_GRANT_CFG_DUR_MAX n)]⟩

def R.PTP_GRANT_STAT_USED (n : Nat) : Field := .mk' (0x1300018+(n%4)*0x1000000) 0 15 .ro 0
def Reg.PTP_GRANT_STAT (n : Nat) : Register := ⟨0x1300018+(n%4)*0x1000000, [(R.PTP_GRANT_STAT_USED n)]⟩

def R.PTP_EVT_BITS (n : Nat) : Field := .mk' (0x130001C+(n%4)*0x1000000) 0 6 .w1c 0
def Reg.PTP_EVT (n : Nat) : Register := ⟨0x130001C+(n%4)*0x1000000, [(R.PTP_EVT_BITS n)]⟩

def R.PTP_EVT_EN_BITS (n : Nat) : Field := .mk' (0x1300020+(n%4)*0x1000000) 0 6 .rw 0
def Reg.PTP_EVT_EN (n : Nat) : Register := ⟨0x1300020+(n%4)*0x1000000, [(R.PTP_EVT_EN_BITS n)]⟩

def R.PTP_INST_CFG_EN (j : Nat) : Field := .mk' (0x1300100+(j%128)/32*0x1000000+(j%128)%32*0x40) 0 1 .rw 0
def R.PTP_INST_CFG_PROFILE (j : Nat) : Field := .mk' (0x1300100+(j%128)/32*0x1000000+(j%128)%32*0x40) 1 3 .rw 0
def R.PTP_INST_CFG_TRANSPORT (j : Nat) : Field := .mk' (0x1300100+(j%128)/32*0x1000000+(j%128)%32*0x40) 4 2 .rw 1
def R.PTP_INST_CFG_ROLE (j : Nat) : Field := .mk' (0x1300100+(j%128)/32*0x1000000+(j%128)%32*0x40) 6 1 .rw 0
def R.PTP_INST_CFG_ONESTEP (j : Nat) : Field := .mk' (0x1300100+(j%128)/32*0x1000000+(j%128)%32*0x40) 7 1 .rw 1
def R.PTP_INST_CFG_DOMAIN (j : Nat) : Field := .mk' (0x1300100+(j%128)/32*0x1000000+(j%128)%32*0x40) 8 8 .rw 0x7F
def R.PTP_INST_CFG_MCAST (j : Nat) : Field := .mk' (0x1300100+(j%128)/32*0x1000000+(j%128)%32*0x40) 16 1 .rw 1
def R.PTP_INST_CFG_UCAST (j : Nat) : Field := .mk' (0x1300100+(j%128)/32*0x1000000+(j%128)%32*0x40) 17 1 .rw 0
def R.PTP_INST_CFG_DOM_SLOT (j : Nat) : Field := .mk' (0x1300100+(j%128)/32*0x1000000+(j%128)%32*0x40) 18 1 .rw 0
def R.PTP_INST_CFG_L2_ADDR (j : Nat) : Field := .mk' (0x1300100+(j%128)/32*0x1000000+(j%128)%32*0x40) 19 1 .rw 0
def R.PTP_INST_CFG_SVC (j : Nat) : Field := .mk' (0x1300100+(j%128)/32*0x1000000+(j%128)%32*0x40) 20 7 .rw 0
def R.PTP_INST_CFG_V2008 (j : Nat) : Field := .mk' (0x1300100+(j%128)/32*0x1000000+(j%128)%32*0x40) 27 1 .rw 0
def Reg.PTP_INST_CFG (j : Nat) : Register := ⟨0x1300100+(j%128)/32*0x1000000+(j%128)%32*0x40, [(R.PTP_INST_CFG_EN j), (R.PTP_INST_CFG_PROFILE j), (R.PTP_INST_CFG_TRANSPORT j), (R.PTP_INST_CFG_ROLE j), (R.PTP_INST_CFG_ONESTEP j), (R.PTP_INST_CFG_DOMAIN j), (R.PTP_INST_CFG_MCAST j), (R.PTP_INST_CFG_UCAST j), (R.PTP_INST_CFG_DOM_SLOT j), (R.PTP_INST_CFG_L2_ADDR j), (R.PTP_INST_CFG_SVC j), (R.PTP_INST_CFG_V2008 j)]⟩

def R.PTP_INST_RATE_LOG_SYNC (j : Nat) : Field := .mk' (0x1300104+(j%128)/32*0x1000000+(j%128)%32*0x40) 0 8 .rw 0x7F
def R.PTP_INST_RATE_LOG_ANN (j : Nat) : Field := .mk' (0x1300104+(j%128)/32*0x1000000+(j%128)%32*0x40) 8 8 .rw 0x7F
def R.PTP_INST_RATE_LOG_DREQ (j : Nat) : Field := .mk' (0x1300104+(j%128)/32*0x1000000+(j%128)%32*0x40) 16 8 .rw 0x7F
def R.PTP_INST_RATE_ANN_TO (j : Nat) : Field := .mk' (0x1300104+(j%128)/32*0x1000000+(j%128)%32*0x40) 24 4 .rw 3
def Reg.PTP_INST_RATE (j : Nat) : Register := ⟨0x1300104+(j%128)/32*0x1000000+(j%128)%32*0x40, [(R.PTP_INST_RATE_LOG_SYNC j), (R.PTP_INST_RATE_LOG_ANN j), (R.PTP_INST_RATE_LOG_DREQ j), (R.PTP_INST_RATE_ANN_TO j)]⟩

def R.PTP_INST_PHASE_PHASE (j : Nat) : Field := .mk' (0x1300108+(j%128)/32*0x1000000+(j%128)%32*0x40) 0 30 .rw 0
def Reg.PTP_INST_PHASE (j : Nat) : Register := ⟨0x1300108+(j%128)/32*0x1000000+(j%128)%32*0x40, [(R.PTP_INST_PHASE_PHASE j)]⟩

def R.PTP_INST_UP_QUAL_CLASS (j : Nat) : Field := .mk' (0x130010C+(j%128)/32*0x1000000+(j%128)%32*0x40) 0 8 .rw 7
def R.PTP_INST_UP_LOCAL_PRIO (j : Nat) : Field := .mk' (0x130010C+(j%128)/32*0x1000000+(j%128)%32*0x40) 8 8 .rw 0x80
def R.PTP_INST_UP_REQ_DUR (j : Nat) : Field := .mk' (0x130010C+(j%128)/32*0x1000000+(j%128)%32*0x40) 16 16 .rw 0x12C
def Reg.PTP_INST_UP (j : Nat) : Register := ⟨0x130010C+(j%128)/32*0x1000000+(j%128)%32*0x40, [(R.PTP_INST_UP_QUAL_CLASS j), (R.PTP_INST_UP_LOCAL_PRIO j), (R.PTP_INST_UP_REQ_DUR j)]⟩

def R.PTP_INST_STAT_STATE (j : Nat) : Field := .mk' (0x1300110+(j%128)/32*0x1000000+(j%128)%32*0x40) 0 3 .ro 0
def R.PTP_INST_STAT_CFG_ERR (j : Nat) : Field := .mk' (0x1300110+(j%128)/32*0x1000000+(j%128)%32*0x40) 3 1 .ro 0
def R.PTP_INST_STAT_MASTER_CLASS (j : Nat) : Field := .mk' (0x1300110+(j%128)/32*0x1000000+(j%128)%32*0x40) 8 8 .ro 0xFF
def Reg.PTP_INST_STAT (j : Nat) : Register := ⟨0x1300110+(j%128)/32*0x1000000+(j%128)%32*0x40, [(R.PTP_INST_STAT_STATE j), (R.PTP_INST_STAT_CFG_ERR j), (R.PTP_INST_STAT_MASTER_CLASS j)]⟩

def R.PTP_INST_PEER_ADDR (k : Nat) : Field := .mk' (0x1300120+(k%512)/128*0x1000000+(k%512)%128/4*0x40+(k%512)%4*4) 0 32 .rw 0
def Reg.PTP_INST_PEER (k : Nat) : Register := ⟨0x1300120+(k%512)/128*0x1000000+(k%512)%128/4*0x40+(k%512)%4*4, [(R.PTP_INST_PEER_ADDR k)]⟩

def R.HRG_RING_CFG_EN (q : Nat) : Field := .mk' (0x8000000+(q%258)*0x1000) 0 1 .rw 0
def R.HRG_RING_CFG_QUIESCED (q : Nat) : Field := .mk' (0x8000000+(q%258)*0x1000) 1 1 .ro 1
def R.HRG_RING_CFG_SIZE (q : Nat) : Field := .mk' (0x8000000+(q%258)*0x1000) 2 4 .rw 0
def R.HRG_RING_CFG_OWNER (q : Nat) : Field := .mk' (0x8000000+(q%258)*0x1000) 6 1 .rw 0
def R.HRG_RING_CFG_VEC (q : Nat) : Field := .mk' (0x8000000+(q%258)*0x1000) 8 6 .rw 0
def R.HRG_RING_CFG_CFG_ERR (q : Nat) : Field := .mk' (0x8000000+(q%258)*0x1000) 16 1 .ro 0
def Reg.HRG_RING_CFG (q : Nat) : Register := ⟨0x8000000+(q%258)*0x1000, [(R.HRG_RING_CFG_EN q), (R.HRG_RING_CFG_QUIESCED q), (R.HRG_RING_CFG_SIZE q), (R.HRG_RING_CFG_OWNER q), (R.HRG_RING_CFG_VEC q), (R.HRG_RING_CFG_CFG_ERR q)]⟩

def R.HRG_RING_BASE_LO_ADDR (q : Nat) : Field := .mk' (0x8000004+(q%258)*0x1000) 12 20 .rw 0
def Reg.HRG_RING_BASE_LO (q : Nat) : Register := ⟨0x8000004+(q%258)*0x1000, [(R.HRG_RING_BASE_LO_ADDR q)]⟩

def R.HRG_RING_BASE_HI_ADDR (q : Nat) : Field := .mk' (0x8000008+(q%258)*0x1000) 0 32 .rw 0
def Reg.HRG_RING_BASE_HI (q : Nat) : Register := ⟨0x8000008+(q%258)*0x1000, [(R.HRG_RING_BASE_HI_ADDR q)]⟩

def R.HRG_RING_TAIL_TAIL (q : Nat) : Field := .mk' (0x800000C+(q%258)*0x1000) 0 16 .rw 0
def Reg.HRG_RING_TAIL (q : Nat) : Register := ⟨0x800000C+(q%258)*0x1000, [(R.HRG_RING_TAIL_TAIL q)]⟩

def R.HRG_RING_HEAD_HEAD (q : Nat) : Field := .mk' (0x8000010+(q%258)*0x1000) 0 16 .ro 0
def Reg.HRG_RING_HEAD (q : Nat) : Register := ⟨0x8000010+(q%258)*0x1000, [(R.HRG_RING_HEAD_HEAD q)]⟩

def R.HRG_RING_ITR_ITR (q : Nat) : Field := .mk' (0x8000014+(q%258)*0x1000) 0 16 .rw 0
def R.HRG_RING_ITR_CNT (q : Nat) : Field := .mk' (0x8000014+(q%258)*0x1000) 16 16 .rw 0
def Reg.HRG_RING_ITR (q : Nat) : Register := ⟨0x8000014+(q%258)*0x1000, [(R.HRG_RING_ITR_ITR q), (R.HRG_RING_ITR_CNT q)]⟩

def R.HRG_RING_THR_START (q : Nat) : Field := .mk' (0x8000018+(q%258)*0x1000) 0 14 .rw (if 128 ≤ q % 258 ∧ q % 258 < 256 then 0x200 else 0)
def R.HRG_RING_THR_SAF (q : Nat) : Field := .mk' (0x8000018+(q%258)*0x1000) 14 1 .ro 0
def Reg.HRG_RING_THR (q : Nat) : Register := ⟨0x8000018+(q%258)*0x1000, [(R.HRG_RING_THR_START q), (R.HRG_RING_THR_SAF q)]⟩

def R.HRG_RING_DROP_DROP (q : Nat) : Field := .mk' (0x800001C+(q%128)*0x1000) 0 32 .rc 0
def Reg.HRG_RING_DROP (q : Nat) : Register := ⟨0x800001C+(q%128)*0x1000, [(R.HRG_RING_DROP_DROP q)]⟩

def R.HRG_RING_REFUSED_BAD_DESC (q : Nat) : Field := .mk' (0x808001C+(q%130)*0x1000) 0 16 .rc 0
def R.HRG_RING_REFUSED_TS_LOST (q : Nat) : Field := .mk' (0x808001C+(q%130)*0x1000) 16 16 .rc 0
def Reg.HRG_RING_REFUSED (q : Nat) : Register := ⟨0x808001C+(q%130)*0x1000, [(R.HRG_RING_REFUSED_BAD_DESC q), (R.HRG_RING_REFUSED_TS_LOST q)]⟩

def R.HRG_RING_STAT_BITS (q : Nat) : Field := .mk' (0x8000020+(q%258)*0x1000) 0 5 .w1c 0
def Reg.HRG_RING_STAT (q : Nat) : Register := ⟨0x8000020+(q%258)*0x1000, [(R.HRG_RING_STAT_BITS q)]⟩

def R.HRG_EVT_BITS (f : Nat) : Field := .mk' (0x8100100+(f%2)*0x1000) 0 5 .w1c 0
def Reg.HRG_EVT (f : Nat) : Register := ⟨0x8100100+(f%2)*0x1000, [(R.HRG_EVT_BITS f)]⟩

def R.HRG_EVT_EN_BITS (f : Nat) : Field := .mk' (0x8100104+(f%2)*0x1000) 0 5 .rw 0
def Reg.HRG_EVT_EN (f : Nat) : Register := ⟨0x8100104+(f%2)*0x1000, [(R.HRG_EVT_EN_BITS f)]⟩

def R.HRG_TS_LOST_PORT : Field := .mk' (0x8101180) 0 32 .w1c 0
def Reg.HRG_TS_LOST : Register := ⟨0x8101180, [R.HRG_TS_LOST_PORT]⟩

def R.HRG_FIFO_SEL_PORT : Field := .mk' (0x8101184) 0 5 .rw 0
def Reg.HRG_FIFO_SEL : Register := ⟨0x8101184, [R.HRG_FIFO_SEL_PORT]⟩

def R.HRG_FIFO_STAT_LEVEL : Field := .mk' (0x8101188) 0 11 .ro 0
def R.HRG_FIFO_STAT_HIGH : Field := .mk' (0x8101188) 16 11 .rc 0
def Reg.HRG_FIFO_STAT : Register := ⟨0x8101188, [R.HRG_FIFO_STAT_LEVEL, R.HRG_FIFO_STAT_HIGH]⟩

def R.HRG_STEER_W (w : Nat) : Field := .mk' (0x8101400+(w%64)*4) 0 32 .rw ((w / 2 + 128) * 16843009)
def Reg.HRG_STEER (w : Nat) : Register := ⟨0x8101400+(w%64)*4, [(R.HRG_STEER_W w)]⟩

def R.MSIX_ADDR_LO_A (v : Nat) : Field := .mk' (0x8100800+(v%128)/64*0x1000+(v%128)%64*16) 0 32 .rw 0
def Reg.MSIX_ADDR_LO (v : Nat) : Register := ⟨0x8100800+(v%128)/64*0x1000+(v%128)%64*16, [(R.MSIX_ADDR_LO_A v)]⟩

def R.MSIX_ADDR_HI_A (v : Nat) : Field := .mk' (0x8100804+(v%128)/64*0x1000+(v%128)%64*16) 0 32 .rw 0
def Reg.MSIX_ADDR_HI (v : Nat) : Register := ⟨0x8100804+(v%128)/64*0x1000+(v%128)%64*16, [(R.MSIX_ADDR_HI_A v)]⟩

def R.MSIX_DATA_D (v : Nat) : Field := .mk' (0x8100808+(v%128)/64*0x1000+(v%128)%64*16) 0 32 .rw 0
def Reg.MSIX_DATA (v : Nat) : Register := ⟨0x8100808+(v%128)/64*0x1000+(v%128)%64*16, [(R.MSIX_DATA_D v)]⟩

def R.MSIX_CTRL_MASK (v : Nat) : Field := .mk' (0x810080C+(v%128)/64*0x1000+(v%128)%64*16) 0 1 .rw 1
def Reg.MSIX_CTRL (v : Nat) : Register := ⟨0x810080C+(v%128)/64*0x1000+(v%128)%64*16, [(R.MSIX_CTRL_MASK v)]⟩

def R.MSIX_PBA_P (k : Nat) : Field := .mk' (0x8100C00+(k%4)/2*0x1000+(k%4)%2*4) 0 32 .ro 0
def Reg.MSIX_PBA (k : Nat) : Register := ⟨0x8100C00+(k%4)/2*0x1000+(k%4)%2*4, [(R.MSIX_PBA_P k)]⟩

def R.MOR_CTL_EN : Field := .mk' (0x0E0000) 0 1 .rws 0
def R.MOR_CTL_CLOSE_AUTO : Field := .mk' (0x0E0000) 1 1 .rws 1
def R.MOR_CTL_PRIO : Field := .mk' (0x0E0000) 8 8 .rws 0x80
def R.MOR_CTL_CLOSE_THR : Field := .mk' (0x0E0000) 16 16 .rws 0x64
def Reg.MOR_CTL : Register := ⟨0x0E0000, [R.MOR_CTL_EN, R.MOR_CTL_CLOSE_AUTO, R.MOR_CTL_PRIO, R.MOR_CTL_CLOSE_THR]⟩

def R.MOR_STAT_ADDR : Field := .mk' (0x0E0004) 0 4 .ro 0
def R.MOR_STAT_MASTER : Field := .mk' (0x0E0004) 4 4 .ro 0
def R.MOR_STAT_FABRIC : Field := .mk' (0x0E0004) 8 3 .ro 0
def R.MOR_STAT_STRAP : Field := .mk' (0x0E0004) 11 1 .ro (Config.mstrSel % 2)
def R.MOR_STAT_RING_OK : Field := .mk' (0x0E0004) 12 1 .ro 0
def R.MOR_STAT_N : Field := .mk' (0x0E0004) 16 4 .ro 0
def Reg.MOR_STAT : Register := ⟨0x0E0004, [R.MOR_STAT_ADDR, R.MOR_STAT_MASTER, R.MOR_STAT_FABRIC, R.MOR_STAT_STRAP, R.MOR_STAT_RING_OK, R.MOR_STAT_N]⟩

def R.MOR_EVT_BITS : Field := .mk' (0x0E0008) 0 11 .w1c 0
def Reg.MOR_EVT : Register := ⟨0x0E0008, [R.MOR_EVT_BITS]⟩

def R.MOR_EVT_EN_BITS : Field := .mk' (0x0E000C) 0 11 .rw 0
def Reg.MOR_EVT_EN : Register := ⟨0x0E000C, [R.MOR_EVT_EN_BITS]⟩

def R.MOR_CLOSE_C (i : Nat) : Field := .mk' (0x0E0010+(i%2)*4) 0 32 .ro 0x80000000
def Reg.MOR_CLOSE (i : Nat) : Register := ⟨0x0E0010+(i%2)*4, [(R.MOR_CLOSE_C i)]⟩

def R.MOR_RELAY_CFG_RELAY_SEC : Field := .mk' (0x0E0018) 0 1 .rws 0
def R.MOR_RELAY_CFG_RELAY_TO : Field := .mk' (0x0E0018) 16 16 .rws 0x14
def Reg.MOR_RELAY_CFG : Register := ⟨0x0E0018, [R.MOR_RELAY_CFG_RELAY_SEC, R.MOR_RELAY_CFG_RELAY_TO]⟩

def R.MOR_LINK_CFG_EN (l : Nat) : Field := .mk' (0x0E0100+(l%2)*0x40) 0 1 .rws 1
def R.MOR_LINK_CFG_TRAIN (l : Nat) : Field := .mk' (0x0E0100+(l%2)*0x40) 1 1 .rws 1
def Reg.MOR_LINK_CFG (l : Nat) : Register := ⟨0x0E0100+(l%2)*0x40, [(R.MOR_LINK_CFG_EN l), (R.MOR_LINK_CFG_TRAIN l)]⟩

def R.MOR_LINK_STAT_STATE (l : Nat) : Field := .mk' (0x0E0104+(l%2)*0x40) 0 3 .ro 0
def R.MOR_LINK_STAT_CAL_WEAK (l : Nat) : Field := .mk' (0x0E0104+(l%2)*0x40) 3 1 .ro 0
def R.MOR_LINK_STAT_PEER (l : Nat) : Field := .mk' (0x0E0104+(l%2)*0x40) 4 4 .ro 0
def R.MOR_LINK_STAT_CHAIN_HOPS (l : Nat) : Field := .mk' (0x0E0104+(l%2)*0x40) 8 4 .ro 0
def R.MOR_LINK_STAT_CHAIN_MASTER (l : Nat) : Field := .mk' (0x0E0104+(l%2)*0x40) 12 4 .ro 0
def Reg.MOR_LINK_STAT (l : Nat) : Register := ⟨0x0E0104+(l%2)*0x40, [(R.MOR_LINK_STAT_STATE l), (R.MOR_LINK_STAT_CAL_WEAK l), (R.MOR_LINK_STAT_PEER l), (R.MOR_LINK_STAT_CHAIN_HOPS l), (R.MOR_LINK_STAT_CHAIN_MASTER l)]⟩

def R.MOR_LINK_OFS_O (l : Nat) : Field := .mk' (0x0E0108+(l%2)*0x40) 0 32 .ro 0
def Reg.MOR_LINK_OFS (l : Nat) : Register := ⟨0x0E0108+(l%2)*0x40, [(R.MOR_LINK_OFS_O l)]⟩

def R.MOR_LINK_DLY_D (l : Nat) : Field := .mk' (0x0E010C+(l%2)*0x40) 0 32 .ro 0
def Reg.MOR_LINK_DLY (l : Nat) : Register := ⟨0x0E010C+(l%2)*0x40, [(R.MOR_LINK_DLY_D l)]⟩

def R.MOR_LINK_X_X (l : Nat) : Field := .mk' (0x0E0110+(l%2)*0x40) 0 32 .ro 0
def Reg.MOR_LINK_X (l : Nat) : Register := ⟨0x0E0110+(l%2)*0x40, [(R.MOR_LINK_X_X l)]⟩

def R.MOR_DLY_RX_DLY (l : Nat) : Field := .mk' (0x0E0114+(l%2)*0x40) 0 32 .rws 0
def Reg.MOR_DLY_RX (l : Nat) : Register := ⟨0x0E0114+(l%2)*0x40, [(R.MOR_DLY_RX_DLY l)]⟩

def R.MOR_DLY_TX_DLY (l : Nat) : Field := .mk' (0x0E0118+(l%2)*0x40) 0 32 .rws 0
def Reg.MOR_DLY_TX (l : Nat) : Register := ⟨0x0E0118+(l%2)*0x40, [(R.MOR_DLY_TX_DLY l)]⟩

def R.MOR_LINK_ERR_FRAME_ERR (l : Nat) : Field := .mk' (0x0E011C+(l%2)*0x40) 0 16 .rc 0
def R.MOR_LINK_ERR_TIME_MISS (l : Nat) : Field := .mk' (0x0E011C+(l%2)*0x40) 16 16 .rc 0
def Reg.MOR_LINK_ERR (l : Nat) : Register := ⟨0x0E011C+(l%2)*0x40, [(R.MOR_LINK_ERR_FRAME_ERR l), (R.MOR_LINK_ERR_TIME_MISS l)]⟩

def R.MOR_LINK_PHASE_PHI_RX (l : Nat) : Field := .mk' (0x0E0120+(l%2)*0x40) 0 16 .ro 0
def R.MOR_LINK_PHASE_PHI_TX (l : Nat) : Field := .mk' (0x0E0120+(l%2)*0x40) 16 16 .ro 0
def Reg.MOR_LINK_PHASE (l : Nat) : Register := ⟨0x0E0120+(l%2)*0x40, [(R.MOR_LINK_PHASE_PHI_RX l), (R.MOR_LINK_PHASE_PHI_TX l)]⟩

def R.MOR_LINK_CAL_C_RX (l : Nat) : Field := .mk' (0x0E0124+(l%2)*0x40) 0 16 .ro (Config.morTermRx l % 65536)
def R.MOR_LINK_CAL_C_TX (l : Nat) : Field := .mk' (0x0E0124+(l%2)*0x40) 16 16 .ro (Config.morTermTx l % 65536)
def Reg.MOR_LINK_CAL (l : Nat) : Register := ⟨0x0E0124+(l%2)*0x40, [(R.MOR_LINK_CAL_C_RX l), (R.MOR_LINK_CAL_C_TX l)]⟩

def R.TND_CTL_HELLO : Field := .mk' (0x0F0000) 0 8 .rws 0x19
def R.TND_CTL_TIMEOUT : Field := .mk' (0x0F0000) 8 4 .rws 4
def R.TND_CTL_RCHK : Field := .mk' (0x0F0000) 16 8 .rws 0xA
def Reg.TND_CTL : Register := ⟨0x0F0000, [R.TND_CTL_HELLO, R.TND_CTL_TIMEOUT, R.TND_CTL_RCHK]⟩

def R.TND_STAT_HEARD : Field := .mk' (0x0F0004) 0 8 .ro 0
def R.TND_STAT_UNASSIGNED : Field := .mk' (0x0F0004) 8 1 .ro 0
def Reg.TND_STAT : Register := ⟨0x0F0004, [R.TND_STAT_HEARD, R.TND_STAT_UNASSIGNED]⟩

def R.TND_CNT_COLLISIONS : Field := .mk' (0x0F0008) 0 16 .rc 0
def R.TND_CNT_ABORTS : Field := .mk' (0x0F0008) 16 16 .rc 0
def Reg.TND_CNT : Register := ⟨0x0F0008, [R.TND_CNT_COLLISIONS, R.TND_CNT_ABORTS]⟩

def R.TND_ERR_CRC_ERR : Field := .mk' (0x0F000C) 0 16 .rc 0
def R.TND_ERR_RX_OK : Field := .mk' (0x0F000C) 16 16 .rc 0
def Reg.TND_ERR : Register := ⟨0x0F000C, [R.TND_ERR_CRC_ERR, R.TND_ERR_RX_OK]⟩

def R.TND_NODE_UID_LO_UID (a : Nat) : Field := .mk' (0x0F0100+(a%8)*0x10) 0 32 .ro 0
def Reg.TND_NODE_UID_LO (a : Nat) : Register := ⟨0x0F0100+(a%8)*0x10, [(R.TND_NODE_UID_LO_UID a)]⟩

def R.TND_NODE_UID_HI_UID (a : Nat) : Field := .mk' (0x0F0104+(a%8)*0x10) 0 32 .ro 0
def Reg.TND_NODE_UID_HI (a : Nat) : Register := ⟨0x0F0104+(a%8)*0x10, [(R.TND_NODE_UID_HI_UID a)]⟩

def R.TND_NODE_INFO_PRIO (a : Nat) : Field := .mk' (0x0F0108+(a%8)*0x10) 0 8 .ro 0
def R.TND_NODE_INFO_STRAP (a : Nat) : Field := .mk' (0x0F0108+(a%8)*0x10) 8 1 .ro 0
def R.TND_NODE_INFO_MASTER (a : Nat) : Field := .mk' (0x0F0108+(a%8)*0x10) 9 1 .ro 0
def R.TND_NODE_INFO_PRESENT (a : Nat) : Field := .mk' (0x0F0108+(a%8)*0x10) 10 1 .ro 0
def R.TND_NODE_INFO_AGE (a : Nat) : Field := .mk' (0x0F0108+(a%8)*0x10) 16 16 .ro 0xFFFF
def Reg.TND_NODE_INFO (a : Nat) : Register := ⟨0x0F0108+(a%8)*0x10, [(R.TND_NODE_INFO_PRIO a), (R.TND_NODE_INFO_STRAP a), (R.TND_NODE_INFO_MASTER a), (R.TND_NODE_INFO_PRESENT a), (R.TND_NODE_INFO_AGE a)]⟩

def R.MBX_DATA_DATA (k : Nat) : Field := .mk' (0x100000+(k%256)/16*0x80+(k%256)%16*4) 0 32 .rw 0
def Reg.MBX_DATA (k : Nat) : Register := ⟨0x100000+(k%256)/16*0x80+(k%256)%16*4, [(R.MBX_DATA_DATA k)]⟩

def R.MBX_CTL_GO (c : Nat) : Field := .mk' (0x100040+(c%16)*0x80) 0 1 .sc 0
def R.MBX_CTL_DONE (c : Nat) : Field := .mk' (0x100040+(c%16)*0x80) 1 1 .sc 0
def R.MBX_CTL_RELEASE (c : Nat) : Field := .mk' (0x100040+(c%16)*0x80) 2 1 .sc 0
def R.MBX_CTL_WITHDRAW (c : Nat) : Field := .mk' (0x100040+(c%16)*0x80) 3 1 .sc 0
def Reg.MBX_CTL (c : Nat) : Register := ⟨0x100040+(c%16)*0x80, [(R.MBX_CTL_GO c), (R.MBX_CTL_DONE c), (R.MBX_CTL_RELEASE c), (R.MBX_CTL_WITHDRAW c)]⟩

def R.MBX_LOCK_LOCK (c : Nat) : Field := .mk' (0x100044+(c%16)*0x80) 0 8 .ro 0
def Reg.MBX_LOCK (c : Nat) : Register := ⟨0x100044+(c%16)*0x80, [(R.MBX_LOCK_LOCK c)]⟩

def R.MBX_STAT_STATE (c : Nat) : Field := .mk' (0x100048+(c%16)*0x80) 0 2 .ro 0
def R.MBX_STAT_RX_DOWN (c : Nat) : Field := .mk' (0x100048+(c%16)*0x80) 2 1 .ro 0
def R.MBX_STAT_REJECT (c : Nat) : Field := .mk' (0x100048+(c%16)*0x80) 3 1 .w1c 0
def R.MBX_STAT_STALE (c : Nat) : Field := .mk' (0x100048+(c%16)*0x80) 4 1 .w1c 0
def R.MBX_STAT_WITHDRAWN (c : Nat) : Field := .mk' (0x100048+(c%16)*0x80) 5 1 .w1c 0
def R.MBX_STAT_ORPHAN (c : Nat) : Field := .mk' (0x100048+(c%16)*0x80) 6 1 .ro 0
def R.MBX_STAT_OWNER (c : Nat) : Field := .mk' (0x100048+(c%16)*0x80) 8 8 .ro 0
def R.MBX_STAT_LAST_SENDER (c : Nat) : Field := .mk' (0x100048+(c%16)*0x80) 16 8 .ro 0
def Reg.MBX_STAT (c : Nat) : Register := ⟨0x100048+(c%16)*0x80, [(R.MBX_STAT_STATE c), (R.MBX_STAT_RX_DOWN c), (R.MBX_STAT_REJECT c), (R.MBX_STAT_STALE c), (R.MBX_STAT_WITHDRAWN c), (R.MBX_STAT_ORPHAN c), (R.MBX_STAT_OWNER c), (R.MBX_STAT_LAST_SENDER c)]⟩

def R.MBX_EVT_BITS (f : Nat) : Field := .mk' (0x100800+(f%2)*0x100) 0 32 .w1c 0
def Reg.MBX_EVT (f : Nat) : Register := ⟨0x100800+(f%2)*0x100, [(R.MBX_EVT_BITS f)]⟩

def R.MBX_EVT_EN_BITS (f : Nat) : Field := .mk' (0x100804+(f%2)*0x100) 0 32 .rw 0
def Reg.MBX_EVT_EN (f : Nat) : Register := ⟨0x100804+(f%2)*0x100, [(R.MBX_EVT_EN_BITS f)]⟩

def R.MBX_CFG_XTO : Field := .mk' (0x100908) 0 16 .rws 0x7D0
def R.MBX_CFG_LOCK_HOLD : Field := .mk' (0x100908) 16 16 .rws 0x64
def Reg.MBX_CFG : Register := ⟨0x100908, [R.MBX_CFG_XTO, R.MBX_CFG_LOCK_HOLD]⟩

def R.MBX_XCNT_CROSSED : Field := .mk' (0x10090C) 0 16 .rc 0
def R.MBX_XCNT_STALE : Field := .mk' (0x10090C) 16 16 .rc 0
def Reg.MBX_XCNT : Register := ⟨0x10090C, [R.MBX_XCNT_CROSSED, R.MBX_XCNT_STALE]⟩

def R.PWR_CTL_BUDGET : Field := .mk' (0x110000) 0 9 .rws 0x140
def Reg.PWR_CTL : Register := ⟨0x110000, [R.PWR_CTL_BUDGET]⟩

def R.PWR_STAT_GRANTED : Field := .mk' (0x110004) 0 9 .ro 0
def R.PWR_STAT_EFFECTIVE : Field := .mk' (0x110004) 16 9 .ro 0x140
def R.PWR_STAT_SHORT : Field := .mk' (0x110004) 25 1 .ro 0
def R.PWR_STAT_DERATE : Field := .mk' (0x110004) 26 1 .ro 0
def R.PWR_STAT_OVERTEMP : Field := .mk' (0x110004) 27 1 .ro 0
def Reg.PWR_STAT : Register := ⟨0x110004, [R.PWR_STAT_GRANTED, R.PWR_STAT_EFFECTIVE, R.PWR_STAT_SHORT, R.PWR_STAT_DERATE, R.PWR_STAT_OVERTEMP]⟩

def R.PWR_EVT_BITS : Field := .mk' (0x110008) 0 7 .w1c 0
def Reg.PWR_EVT : Register := ⟨0x110008, [R.PWR_EVT_BITS]⟩

def R.PWR_EVT_EN_BITS : Field := .mk' (0x11000C) 0 7 .rw 0
def Reg.PWR_EVT_EN : Register := ⟨0x11000C, [R.PWR_EVT_EN_BITS]⟩

def R.PWR_TEMP_TJ : Field := .mk' (0x110010) 0 16 .ro 0
def R.PWR_TEMP_DIE : Field := .mk' (0x110010) 16 3 .ro 0
def Reg.PWR_TEMP : Register := ⟨0x110010, [R.PWR_TEMP_TJ, R.PWR_TEMP_DIE]⟩

def R.PWR_LAT_NTS_LAT : Field := .mk' (0x110014) 0 32 .rws 0xC8
def Reg.PWR_LAT_NTS : Register := ⟨0x110014, [R.PWR_LAT_NTS_LAT]⟩

def R.PWR_LAT_PORT_LAT : Field := .mk' (0x110018) 0 32 .rws 0x4E20
def Reg.PWR_LAT_PORT : Register := ⟨0x110018, [R.PWR_LAT_PORT_LAT]⟩

def R.PWR_LAT_GNSS_LAT : Field := .mk' (0x11001C) 0 32 .rws 0
def Reg.PWR_LAT_GNSS : Register := ⟨0x11001C, [R.PWR_LAT_GNSS_LAT]⟩

def R.PWR_LAT_TIM_LAT : Field := .mk' (0x110020) 0 32 .rws 0xC8
def Reg.PWR_LAT_TIM : Register := ⟨0x110020, [R.PWR_LAT_TIM_LAT]⟩

def R.PWR_PORT_PERMIT_PERMIT : Field := .mk' (0x110024) 0 32 .rws 0xFFFFFFFF
def Reg.PWR_PORT_PERMIT : Register := ⟨0x110024, [R.PWR_PORT_PERMIT_PERMIT]⟩

def R.PWR_PORT_IDLE_IDLE_WIN : Field := .mk' (0x110028) 0 16 .rws 0xA
def Reg.PWR_PORT_IDLE : Register := ⟨0x110028, [R.PWR_PORT_IDLE_IDLE_WIN]⟩

def R.PWR_PORT_PARKED_PORTS : Field := .mk' (0x11002C) 0 32 .ro 0
def Reg.PWR_PORT_PARKED : Register := ⟨0x11002C, [R.PWR_PORT_PARKED_PORTS]⟩

def R.PWR_NTS_PARKED01_DIE0 : Field := .mk' (0x110030) 0 12 .ro 0
def R.PWR_NTS_PARKED01_DIE1 : Field := .mk' (0x110030) 16 12 .ro 0
def Reg.PWR_NTS_PARKED01 : Register := ⟨0x110030, [R.PWR_NTS_PARKED01_DIE0, R.PWR_NTS_PARKED01_DIE1]⟩

def R.PWR_NTS_PARKED23_DIE2 : Field := .mk' (0x110034) 0 12 .ro 0
def R.PWR_NTS_PARKED23_DIE3 : Field := .mk' (0x110034) 16 12 .ro 0
def Reg.PWR_NTS_PARKED23 : Register := ⟨0x110034, [R.PWR_NTS_PARKED23_DIE2, R.PWR_NTS_PARKED23_DIE3]⟩

def R.PWR_DIE_SLEEP_ASLEEP : Field := .mk' (0x110038) 0 4 .ro 0
def Reg.PWR_DIE_SLEEP : Register := ⟨0x110038, [R.PWR_DIE_SLEEP_ASLEEP]⟩

def R.PWR_RST_CTL_KIND : Field := .mk' (0x110040) 0 4 .rw 0
def R.PWR_RST_CTL_KEY : Field := .mk' (0x110040) 8 8 .wo 0
def R.PWR_RST_CTL_GO : Field := .mk' (0x110040) 16 1 .sc 0
def Reg.PWR_RST_CTL : Register := ⟨0x110040, [R.PWR_RST_CTL_KIND, R.PWR_RST_CTL_KEY, R.PWR_RST_CTL_GO]⟩

def R.PWR_RST_CAUSE_KIND : Field := .mk' (0x110044) 0 4 .ro 0
def R.PWR_RST_CAUSE_SENDER : Field := .mk' (0x110044) 8 8 .ro 0
def R.PWR_RST_CAUSE_WARM_CNT : Field := .mk' (0x110044) 16 16 .ro 0
def Reg.PWR_RST_CAUSE : Register := ⟨0x110044, [R.PWR_RST_CAUSE_KIND, R.PWR_RST_CAUSE_SENDER, R.PWR_RST_CAUSE_WARM_CNT]⟩

def R.CFG_STAT_ACTIVE_SLOT : Field := .mk' (0x110100) 0 1 .ro 0
def R.CFG_STAT_ACTIVE_VALID : Field := .mk' (0x110100) 1 1 .ro 0
def R.CFG_STAT_OTHER_VALID : Field := .mk' (0x110100) 2 1 .ro 0
def R.CFG_STAT_NO_IMAGE : Field := .mk' (0x110100) 3 1 .ro 0
def R.CFG_STAT_NO_SFDP : Field := .mk' (0x110100) 4 1 .ro 0
def R.CFG_STAT_LOCKED : Field := .mk' (0x110100) 5 1 .ro 0
def R.CFG_STAT_COMMIT_BUSY : Field := .mk' (0x110100) 6 1 .ro 0
def R.CFG_STAT_STEP : Field := .mk' (0x110100) 8 3 .ro 0
def R.CFG_STAT_ERR : Field := .mk' (0x110100) 12 4 .ro 0
def Reg.CFG_STAT : Register := ⟨0x110100, [R.CFG_STAT_ACTIVE_SLOT, R.CFG_STAT_ACTIVE_VALID, R.CFG_STAT_OTHER_VALID, R.CFG_STAT_NO_IMAGE, R.CFG_STAT_NO_SFDP, R.CFG_STAT_LOCKED, R.CFG_STAT_COMMIT_BUSY, R.CFG_STAT_STEP, R.CFG_STAT_ERR]⟩

def R.CFG_SEQ_SEQ : Field := .mk' (0x110104) 0 32 .ro 0
def Reg.CFG_SEQ : Register := ⟨0x110104, [R.CFG_SEQ_SEQ]⟩

def R.CFG_EVT_BITS : Field := .mk' (0x110108) 0 5 .w1c 0
def Reg.CFG_EVT : Register := ⟨0x110108, [R.CFG_EVT_BITS]⟩

def R.CFG_EVT_EN_BITS : Field := .mk' (0x11010C) 0 5 .rw 0
def Reg.CFG_EVT_EN : Register := ⟨0x11010C, [R.CFG_EVT_EN_BITS]⟩

def R.CFG_APPLY_PAIRS : Field := .mk' (0x110110) 0 16 .ro 0
def R.CFG_APPLY_SKIPPED : Field := .mk' (0x110110) 16 16 .ro 0
def Reg.CFG_APPLY : Register := ⟨0x110110, [R.CFG_APPLY_PAIRS, R.CFG_APPLY_SKIPPED]⟩

def R.CFG_FLASH_SIZE : Field := .mk' (0x110114) 0 16 .ro 0
def R.CFG_FLASH_MODE : Field := .mk' (0x110114) 16 2 .ro 0
def Reg.CFG_FLASH : Register := ⟨0x110114, [R.CFG_FLASH_SIZE, R.CFG_FLASH_MODE]⟩

def R.PCT_SEL_EVENT (c : Nat) : Field := .mk' (0x120000+(c%1024)*16) 0 10 .rws 0
def R.PCT_SEL_UNIT (c : Nat) : Field := .mk' (0x120000+(c%1024)*16) 10 8 .rws 0
def R.PCT_SEL_MODE (c : Nat) : Field := .mk' (0x120000+(c%1024)*16) 18 1 .rws 0
def R.PCT_SEL_INVALID (c : Nat) : Field := .mk' (0x120000+(c%1024)*16) 19 1 .ro 0
def Reg.PCT_SEL (c : Nat) : Register := ⟨0x120000+(c%1024)*16, [(R.PCT_SEL_EVENT c), (R.PCT_SEL_UNIT c), (R.PCT_SEL_MODE c), (R.PCT_SEL_INVALID c)]⟩

def R.PCT_LO_COUNT (c : Nat) : Field := .mk' (0x120004+(c%1024)*16) 0 32 .ro 0
def Reg.PCT_LO (c : Nat) : Register := ⟨0x120004+(c%1024)*16, [(R.PCT_LO_COUNT c)]⟩

def R.PCT_HI_COUNT (c : Nat) : Field := .mk' (0x120008+(c%1024)*16) 0 16 .ro 0
def R.PCT_HI_OVF (c : Nat) : Field := .mk' (0x120008+(c%1024)*16) 31 1 .w1c 0
def Reg.PCT_HI (c : Nat) : Register := ⟨0x120008+(c%1024)*16, [(R.PCT_HI_COUNT c), (R.PCT_HI_OVF c)]⟩

def R.PCT_OVF_OVF (k : Nat) : Field := .mk' (0x130000+(k%32)*4) 0 32 .w1c 0
def Reg.PCT_OVF (k : Nat) : Register := ⟨0x130000+(k%32)*4, [(R.PCT_OVF_OVF k)]⟩

def R.PCT_OVF_EN_EN (k : Nat) : Field := .mk' (0x130080+(k%32)*4) 0 32 .rw 0
def Reg.PCT_OVF_EN (k : Nat) : Register := ⟨0x130080+(k%32)*4, [(R.PCT_OVF_EN_EN k)]⟩

def R.WCH_CTL_MASK : Field := .mk' (0x140000) 0 8 .rws 0xFF
def R.WCH_CTL_SCHED_EN : Field := .mk' (0x140000) 8 1 .rws 1
def R.WCH_CTL_FORCE : Field := .mk' (0x140000) 9 1 .rws 0
def R.WCH_CTL_WIN : Field := .mk' (0x140000) 16 16 .rws 0xE10
def Reg.WCH_CTL : Register := ⟨0x140000, [R.WCH_CTL_MASK, R.WCH_CTL_SCHED_EN, R.WCH_CTL_FORCE, R.WCH_CTL_WIN]⟩

def R.WCH_TIME_TOD : Field := .mk' (0x140004) 0 17 .rws 0x2A30
def Reg.WCH_TIME : Register := ⟨0x140004, [R.WCH_TIME_TOD]⟩

def R.WCH_STAT_RUNNING : Field := .mk' (0x140008) 0 1 .ro 0
def R.WCH_STAT_SCHEDULED : Field := .mk' (0x140008) 1 1 .ro 0
def R.WCH_STAT_CURRENT : Field := .mk' (0x140008) 2 3 .ro 0
def R.WCH_STAT_PENDING : Field := .mk' (0x140008) 8 8 .ro 0
def R.WCH_STAT_LAST_DAY : Field := .mk' (0x140008) 16 16 .rws 0
def Reg.WCH_STAT : Register := ⟨0x140008, [R.WCH_STAT_RUNNING, R.WCH_STAT_SCHEDULED, R.WCH_STAT_CURRENT, R.WCH_STAT_PENDING, R.WCH_STAT_LAST_DAY]⟩

def R.WCH_EVT_BITS : Field := .mk' (0x14000C) 0 5 .w1c 0
def Reg.WCH_EVT : Register := ⟨0x14000C, [R.WCH_EVT_BITS]⟩

def R.WCH_EVT_EN_BITS : Field := .mk' (0x140010) 0 5 .rw 0
def Reg.WCH_EVT_EN : Register := ⟨0x140010, [R.WCH_EVT_EN_BITS]⟩

def R.WCH_RES0_RESULT (t : Nat) : Field := .mk' (0x140020+(t%8)*8) 0 4 .ro 0
def R.WCH_RES0_FORCED (t : Nat) : Field := .mk' (0x140020+(t%8)*8) 4 1 .ro 0
def R.WCH_RES0_UNIT (t : Nat) : Field := .mk' (0x140020+(t%8)*8) 8 8 .ro 0
def Reg.WCH_RES0 (t : Nat) : Register := ⟨0x140020+(t%8)*8, [(R.WCH_RES0_RESULT t), (R.WCH_RES0_FORCED t), (R.WCH_RES0_UNIT t)]⟩

def R.WCH_RES1_WHEN (t : Nat) : Field := .mk' (0x140024+(t%8)*8) 0 32 .ro 0
def Reg.WCH_RES1 (t : Nat) : Register := ⟨0x140024+(t%8)*8, [(R.WCH_RES1_WHEN t)]⟩

def R.WCH_ECC_CORR : Field := .mk' (0x140060) 0 16 .rc 0
def R.WCH_ECC_UNCORR : Field := .mk' (0x140060) 16 16 .rc 0
def Reg.WCH_ECC : Register := ⟨0x140060, [R.WCH_ECC_CORR, R.WCH_ECC_UNCORR]⟩

def R.LOG_NEXT_SEQ : Field := .mk' (0x141000) 0 32 .ro 0
def Reg.LOG_NEXT : Register := ⟨0x141000, [R.LOG_NEXT_SEQ]⟩

def R.LOG_FIRST_SEQ : Field := .mk' (0x141004) 0 32 .ro 0
def Reg.LOG_FIRST : Register := ⟨0x141004, [R.LOG_FIRST_SEQ]⟩

def R.LOG_WIN_WIN : Field := .mk' (0x141008) 0 6 .rw 0
def Reg.LOG_WIN : Register := ⟨0x141008, [R.LOG_WIN_WIN]⟩

def R.LOG_WRAPS_WRAPS : Field := .mk' (0x14100C) 0 32 .rc 0
def Reg.LOG_WRAPS : Register := ⟨0x14100C, [R.LOG_WRAPS_WRAPS]⟩

def R.DEV_DIE_STAT_B0_LANE : Field := (R.TSC_LANE_STAT_STATE (0)).at (0xC) 0
def R.DEV_DIE_STAT_B0_UP : Field := .mk' (0xC) 3 1 .ro 0
def R.DEV_DIE_STAT_B1_LANE : Field := (R.TSC_LANE_STAT_STATE (1)).at (0xC) 4
def R.DEV_DIE_STAT_B1_UP : Field := .mk' (0xC) 7 1 .ro 0
def R.DEV_DIE_STAT_B2_LANE : Field := (R.TSC_LANE_STAT_STATE (2)).at (0xC) 8
def R.DEV_DIE_STAT_B2_UP : Field := .mk' (0xC) 11 1 .ro 0
def R.DEV_DIE_STAT_B3_LANE : Field := (R.TSC_LANE_STAT_STATE (3)).at (0xC) 12
def R.DEV_DIE_STAT_B3_UP : Field := .mk' (0xC) 15 1 .ro 0
def R.DEV_DIE_STAT_KFW_RUN : Field := .mk' (0xC) 16 1 .ro 0
def Reg.DEV_DIE_STAT : Register := ⟨0xC, [R.DEV_DIE_STAT_B0_LANE, R.DEV_DIE_STAT_B0_UP, R.DEV_DIE_STAT_B1_LANE, R.DEV_DIE_STAT_B1_UP, R.DEV_DIE_STAT_B2_LANE, R.DEV_DIE_STAT_B2_UP, R.DEV_DIE_STAT_B3_LANE, R.DEV_DIE_STAT_B3_UP, R.DEV_DIE_STAT_KFW_RUN]⟩

def R.TSC_STAT_TIME_SET : Field := .mk' (0x10004) 0 1 .ro 0
def R.TSC_STAT_SERVED : Field := .mk' (0x10004) 1 1 .ro 0
def R.TSC_STAT_STEP_PEND0 : Field := (R.TSC_STEP_CTL_PENDING (0)).at (0x10004) 2
def R.TSC_STAT_STEP_PEND1 : Field := (R.TSC_STEP_CTL_PENDING (1)).at (0x10004) 3
def Reg.TSC_STAT : Register := ⟨0x10004, [R.TSC_STAT_TIME_SET, R.TSC_STAT_SERVED, R.TSC_STAT_STEP_PEND0, R.TSC_STAT_STEP_PEND1]⟩

def R.GNS_STAT_RUN : Field := .mk' (0x40004) 0 1 .ro 0
def R.GNS_STAT_ASLEEP : Field := (R.GNS_SLEEP_STAT_ASLEEP).at (0x40004) 1
def R.GNS_STAT_SOL : Field := .mk' (0x40004) 2 2 .ro 0
def R.GNS_STAT_SPOOF : Field := .mk' (0x40004) 4 2 .ro 0
def R.GNS_STAT_JAM : Field := .mk' (0x40004) 6 4 .ro 0
def R.GNS_STAT_PORT_FAULT : Field := .mk' (0x40004) 10 4 .ro 0
def R.GNS_STAT_ACTIVE_ANT : Field := .mk' (0x40004) 16 1 .ro 0
def Reg.GNS_STAT : Register := ⟨0x40004, [R.GNS_STAT_RUN, R.GNS_STAT_ASLEEP, R.GNS_STAT_SOL, R.GNS_STAT_SPOOF, R.GNS_STAT_JAM, R.GNS_STAT_PORT_FAULT, R.GNS_STAT_ACTIVE_ANT]⟩

def regs01_0 : List RegFamily := [
  ⟨0, [], fun _ => Reg.DEV_IDENT⟩,
  ⟨4, [], fun _ => Reg.DEV_UID_LO⟩,
  ⟨8, [], fun _ => Reg.DEV_UID_HI⟩,
  ⟨12, [], fun _ => Reg.DEV_DIE_STAT⟩,
  ⟨16, [], fun _ => Reg.DEV_LANE_EVT⟩,
  ⟨20, [], fun _ => Reg.DEV_SCRATCH⟩,
  ⟨20971520, [(16777216, 4)], fun i => Reg.TSC_LANE_STAT i⟩,
  ⟨20971524, [(16777216, 4)], fun i => Reg.TSC_LANE_OFS i⟩,
  ⟨20971528, [(16777216, 4)], fun i => Reg.TSC_LANE_DLY i⟩,
  ⟨20971532, [(16777216, 4)], fun i => Reg.TSC_LANE_CTL i⟩,
  ⟨20971536, [(16777216, 4)], fun i => Reg.TSC_LANE_ERR i⟩]
/-- The registers of 01_architecture.md. -/
def regs01 : List RegFamily := regs01_0

def regs02_0 : List RegFamily := [
  ⟨65536, [], fun _ => Reg.TSC_CTL⟩,
  ⟨65540, [], fun _ => Reg.TSC_STAT⟩,
  ⟨65544, [], fun _ => Reg.TSC_SNAP_CTL⟩,
  ⟨65548, [], fun _ => Reg.TSC_UTC_OFS⟩,
  ⟨65552, [], fun _ => Reg.TSC_SWITCH_CTL⟩,
  ⟨65556, [], fun _ => Reg.TSC_SWITCH_LIM⟩,
  ⟨65568, [(256, 2)], fun i => Reg.TSC_INCR_NS i⟩,
  ⟨65572, [(256, 2)], fun i => Reg.TSC_INCR_FRAC_HI i⟩,
  ⟨65576, [(256, 2)], fun i => Reg.TSC_INCR_FRAC_LO i⟩,
  ⟨65580, [(256, 2)], fun i => Reg.TSC_INCR_CTL i⟩,
  ⟨65584, [(256, 2)], fun i => Reg.TSC_SLEW_OFS_LO i⟩,
  ⟨65588, [(256, 2)], fun i => Reg.TSC_SLEW_OFS_HI i⟩,
  ⟨65592, [(256, 2)], fun i => Reg.TSC_SLEW_DUR i⟩,
  ⟨65596, [(256, 2)], fun i => Reg.TSC_SLEW_CTL i⟩,
  ⟨65600, [(256, 2)], fun i => Reg.TSC_SLEW_LEFT_LO i⟩,
  ⟨65604, [(256, 2)], fun i => Reg.TSC_SLEW_LEFT_HI i⟩,
  ⟨65608, [(256, 2)], fun i => Reg.TSC_STEP_SEC_LO i⟩,
  ⟨65612, [(256, 2)], fun i => Reg.TSC_STEP_SEC_HI i⟩,
  ⟨65616, [(256, 2)], fun i => Reg.TSC_STEP_NS i⟩,
  ⟨65620, [(256, 2)], fun i => Reg.TSC_STEP_FRAC i⟩]
def regs02_1 : List RegFamily := [
  ⟨65624, [(256, 2)], fun i => Reg.TSC_STEP_CTL i⟩,
  ⟨66048, [(16, 2)], fun i => Reg.TSC_SNAP_FRAC i⟩,
  ⟨66052, [(16, 2)], fun i => Reg.TSC_SNAP_NS i⟩,
  ⟨66056, [(16, 2)], fun i => Reg.TSC_SNAP_SEC_LO i⟩,
  ⟨66060, [(16, 2)], fun i => Reg.TSC_SNAP_SEC_HI i⟩,
  ⟨66080, [], fun _ => Reg.TSC_SNAP_DIFF_LO⟩,
  ⟨66084, [], fun _ => Reg.TSC_SNAP_DIFF_HI⟩,
  ⟨66112, [], fun _ => Reg.TSC_LEAP_CTL⟩,
  ⟨66116, [], fun _ => Reg.TSC_LEAP_UTC_LO⟩,
  ⟨66120, [], fun _ => Reg.TSC_LEAP_UTC_HI⟩]
/-- The registers of 02_timescale.md. -/
def regs02 : List RegFamily := regs02_0 ++ regs02_1

def regs03_0 : List RegFamily := [
  ⟨131072, [], fun _ => Reg.ENS_CTL⟩,
  ⟨131076, [], fun _ => Reg.ENS_STAT⟩,
  ⟨131080, [], fun _ => Reg.ENS_EVT⟩,
  ⟨131084, [], fun _ => Reg.ENS_EVT_EN⟩,
  ⟨131088, [], fun _ => Reg.ENS_PHASE⟩,
  ⟨131092, [], fun _ => Reg.ENS_FREQ⟩,
  ⟨131096, [], fun _ => Reg.ENS_DRIFT⟩,
  ⟨131100, [], fun _ => Reg.ENS_ERR⟩,
  ⟨131104, [], fun _ => Reg.ENS_HO_BUDGET⟩,
  ⟨131108, [], fun _ => Reg.ENS_HO_TIME⟩,
  ⟨131112, [], fun _ => Reg.ENS_HO_TCR⟩,
  ⟨131116, [], fun _ => Reg.ENS_TEMP⟩,
  ⟨131120, [(4, 3)], fun i => Reg.ENS_TC i⟩,
  ⟨131132, [], fun _ => Reg.ENS_LOC_WFM⟩,
  ⟨131136, [], fun _ => Reg.ENS_LOC_RWFM⟩,
  ⟨131140, [], fun _ => Reg.ENS_LOC_AGE⟩,
  ⟨131144, [], fun _ => Reg.ENS_ANCHOR⟩,
  ⟨131148, [], fun _ => Reg.ENS_BAND1⟩,
  ⟨131152, [], fun _ => Reg.ENS_BAND2⟩,
  ⟨131156, [], fun _ => Reg.ENS_ASYM_CTL⟩]
def regs03_1 : List RegFamily := [
  ⟨131160, [], fun _ => Reg.ENS_SETTLE⟩,
  ⟨131164, [], fun _ => Reg.ENS_DECIDE⟩,
  ⟨131168, [], fun _ => Reg.ENS_HELD_LO⟩,
  ⟨131172, [], fun _ => Reg.ENS_HELD_HI⟩,
  ⟨131176, [], fun _ => Reg.ENS_MAP_NTP⟩,
  ⟨131180, [], fun _ => Reg.ENS_MAP_CLASS⟩,
  ⟨131184, [], fun _ => Reg.ENS_S1_PHASE⟩,
  ⟨131188, [], fun _ => Reg.ENS_S1_FREQ⟩,
  ⟨135168, [(64, 16)], fun i => Reg.ENS_SLOT_CFG i⟩,
  ⟨135172, [(64, 16)], fun i => Reg.ENS_SLOT_STAT i⟩,
  ⟨135176, [(64, 16)], fun i => Reg.ENS_SLOT_CMD i⟩,
  ⟨135180, [(64, 16)], fun i => Reg.ENS_SLOT_OFS i⟩,
  ⟨135184, [(64, 16)], fun i => Reg.ENS_SLOT_WPM i⟩,
  ⟨135188, [(64, 16)], fun i => Reg.ENS_SLOT_WFM i⟩,
  ⟨135192, [(64, 16)], fun i => Reg.ENS_SLOT_RWFM i⟩,
  ⟨135196, [(64, 16)], fun i => Reg.ENS_SLOT_THR i⟩,
  ⟨135200, [(64, 16)], fun i => Reg.ENS_SLOT_TIME i⟩,
  ⟨135204, [(64, 16)], fun i => Reg.ENS_SLOT_LIM i⟩,
  ⟨135208, [(64, 16)], fun i => Reg.ENS_SLOT_BIAS i⟩,
  ⟨135212, [(64, 16)], fun i => Reg.ENS_SLOT_ASYM i⟩]
def regs03_2 : List RegFamily := [
  ⟨135216, [(64, 16)], fun i => Reg.ENS_SLOT_DLY i⟩,
  ⟨135220, [(64, 16)], fun i => Reg.ENS_SLOT_WEIGHT i⟩,
  ⟨135224, [(64, 16)], fun i => Reg.ENS_SLOT_HIST i⟩,
  ⟨135228, [(64, 16)], fun i => Reg.ENS_SLOT_BIAS_HI i⟩]
/-- The registers of 03_ensemble.md. -/
def regs03 : List RegFamily := regs03_0 ++ regs03_1 ++ regs03_2

def regs04_0 : List RegFamily := [
  ⟨262144, [], fun _ => Reg.GNS_CTL⟩,
  ⟨262148, [], fun _ => Reg.GNS_STAT⟩,
  ⟨262152, [], fun _ => Reg.GNS_EVT⟩,
  ⟨262156, [], fun _ => Reg.GNS_EVT_EN⟩,
  ⟨262160, [], fun _ => Reg.GNS_UTC⟩,
  ⟨262164, [], fun _ => Reg.GNS_SURV_CTL⟩,
  ⟨262168, [], fun _ => Reg.GNS_SPF_CTL⟩,
  ⟨262172, [], fun _ => Reg.GNS_SPF_THR⟩,
  ⟨262176, [], fun _ => Reg.GNS_MASK⟩,
  ⟨262180, [], fun _ => Reg.GNS_SPACING⟩,
  ⟨262184, [], fun _ => Reg.GNS_SLEEP_CTL⟩,
  ⟨262188, [], fun _ => Reg.GNS_SLEEP_STAT⟩,
  ⟨262192, [], fun _ => Reg.GNS_NAV_CTL⟩,
  ⟨262196, [], fun _ => Reg.GNS_NAV_WR⟩,
  ⟨262200, [], fun _ => Reg.GNS_NAV_RD⟩,
  ⟨262204, [], fun _ => Reg.GNS_NAV_LOST⟩,
  ⟨262208, [], fun _ => Reg.GNS_EXCL_GPS⟩,
  ⟨262212, [], fun _ => Reg.GNS_EXCL_GAL_LO⟩,
  ⟨262216, [], fun _ => Reg.GNS_EXCL_GAL_HI⟩,
  ⟨262220, [], fun _ => Reg.GNS_EXCL_BDS_LO⟩]
def regs04_1 : List RegFamily := [
  ⟨262224, [], fun _ => Reg.GNS_EXCL_BDS_HI⟩,
  ⟨262228, [], fun _ => Reg.GNS_EXCL_QZS⟩,
  ⟨262400, [(64, 4)], fun i => Reg.GNS_PORT_CFG i⟩,
  ⟨262404, [(64, 4)], fun i => Reg.GNS_PORT_STAT i⟩,
  ⟨262408, [(64, 4)], fun i => Reg.GNS_PORT_DLY i⟩,
  ⟨262412, [(64, 4)], fun i => Reg.GNS_PORT_JAM i⟩,
  ⟨262416, [(64, 4)], fun i => Reg.GNS_NOTCH_CTL i⟩,
  ⟨262432, [(64, 4), (4, 4)], fun i => Reg.GNS_NOTCH i⟩,
  ⟨262656, [(64, 2), (4, 3)], fun i => Reg.GNS_POS i⟩,
  ⟨262668, [(64, 2)], fun i => Reg.GNS_POS_CTL i⟩,
  ⟨262672, [(64, 2)], fun i => Reg.GNS_SURV_STAT i⟩,
  ⟨262676, [(64, 2)], fun i => Reg.GNS_SOL_EPOCH_LO i⟩,
  ⟨262680, [(64, 2)], fun i => Reg.GNS_SOL_EPOCH_HI i⟩,
  ⟨262684, [(64, 2)], fun i => Reg.GNS_SOL_OFS_LO i⟩,
  ⟨262688, [(64, 2)], fun i => Reg.GNS_SOL_OFS_HI i⟩,
  ⟨262692, [(64, 2)], fun i => Reg.GNS_SOL_QUAL i⟩,
  ⟨262696, [(64, 2)], fun i => Reg.GNS_SOL_FLAGS i⟩,
  ⟨327680, [(16, 160)], fun i => Reg.GNS_CH_CFG i⟩,
  ⟨327684, [(16, 160)], fun i => Reg.GNS_CH_STAT i⟩,
  ⟨327688, [(16, 160)], fun i => Reg.GNS_CH_DOP i⟩]
/-- The registers of 04_gnss.md. -/
def regs04 : List RegFamily := regs04_0 ++ regs04_1

def regs05_0 : List RegFamily := [
  ⟨786432, [], fun _ => Reg.RFM_CTL⟩,
  ⟨786436, [], fun _ => Reg.RFM_EVT⟩,
  ⟨786440, [], fun _ => Reg.RFM_EVT_EN⟩,
  ⟨786688, [(256, 2)], fun i => Reg.RFM_CFG i⟩,
  ⟨786692, [(256, 2)], fun i => Reg.RFM_STAT i⟩,
  ⟨786696, [(256, 2)], fun i => Reg.RFM_EFC i⟩,
  ⟨786700, [(256, 2)], fun i => Reg.RFM_EFC_STEP i⟩,
  ⟨786704, [(256, 2)], fun i => Reg.RFM_FREQ i⟩,
  ⟨786708, [(256, 2)], fun i => Reg.RFM_HOURS i⟩,
  ⟨786712, [(256, 2)], fun i => Reg.RFM_USE i⟩,
  ⟨786716, [(256, 2)], fun i => Reg.RFM_HOURS_SET i⟩,
  ⟨786720, [(256, 2)], fun i => Reg.RFM_HOURS_CMD i⟩,
  ⟨786724, [(256, 2)], fun i => Reg.RFM_LIFE i⟩,
  ⟨786728, [(256, 2)], fun i => Reg.RFM_RAIL i⟩,
  ⟨786732, [(256, 2)], fun i => Reg.RFM_PPS_EXTRA i⟩,
  ⟨786816, [(256, 2), (4, 32)], fun i => Reg.RFM_REC i⟩]
/-- The registers of 05_reference_modules.md. -/
def regs05 : List RegFamily := regs05_0

def regs06_0 : List RegFamily := [
  ⟨524288, [], fun _ => Reg.TIM_CTL⟩,
  ⟨524292, [], fun _ => Reg.TIM_STAT⟩,
  ⟨524296, [], fun _ => Reg.TIM_EVT⟩,
  ⟨524300, [], fun _ => Reg.TIM_EVT_EN⟩,
  ⟨524304, [], fun _ => Reg.TIM_BIN_SEL⟩,
  ⟨524308, [], fun _ => Reg.TIM_BIN_DATA⟩,
  ⟨524544, [(64, 8)], fun i => Reg.TIM_GRP_CFG i⟩,
  ⟨524548, [(64, 8)], fun i => Reg.TIM_GRP_GLEN i⟩,
  ⟨524552, [(64, 8)], fun i => Reg.TIM_GRP_GT_NS i⟩,
  ⟨524556, [(64, 8)], fun i => Reg.TIM_GRP_GT_SEC_LO i⟩,
  ⟨524560, [(64, 8)], fun i => Reg.TIM_GRP_GT_SEC_HI i⟩,
  ⟨524564, [(64, 8)], fun i => Reg.TIM_GRP_WR i⟩,
  ⟨524568, [(64, 8)], fun i => Reg.TIM_GRP_RD i⟩,
  ⟨524572, [(64, 8)], fun i => Reg.TIM_GRP_WIN i⟩,
  ⟨524576, [(64, 8)], fun i => Reg.TIM_GRP_LOST i⟩,
  ⟨524580, [(64, 8)], fun i => Reg.TIM_GRP_STAT i⟩,
  ⟨528384, [(32, 64)], fun i => Reg.TIM_CH_CFG i⟩,
  ⟨528388, [(32, 64)], fun i => Reg.TIM_CH_CTL i⟩,
  ⟨528392, [(32, 64)], fun i => Reg.TIM_CH_STAT i⟩,
  ⟨528396, [(32, 64)], fun i => Reg.TIM_CH_DLY i⟩]
def regs06_1 : List RegFamily := [
  ⟨528400, [(32, 64)], fun i => Reg.TIM_CH_DEAD i⟩,
  ⟨528404, [(32, 64)], fun i => Reg.TIM_CH_CAL i⟩,
  ⟨589824, [], fun _ => Reg.PLS_EVT⟩,
  ⟨589828, [], fun _ => Reg.PLS_EVT_EN⟩,
  ⟨589832, [], fun _ => Reg.PLS_ACTIVE⟩,
  ⟨593920, [(64, 32)], fun i => Reg.PLS_CFG i⟩,
  ⟨593924, [(64, 32)], fun i => Reg.PLS_CTL i⟩,
  ⟨593928, [(64, 32)], fun i => Reg.PLS_STAT i⟩,
  ⟨593932, [(64, 32)], fun i => Reg.PLS_T0_FRAC i⟩,
  ⟨593936, [(64, 32)], fun i => Reg.PLS_T0_NS i⟩,
  ⟨593940, [(64, 32)], fun i => Reg.PLS_T0_SEC_LO i⟩,
  ⟨593944, [(64, 32)], fun i => Reg.PLS_T0_SEC_HI i⟩,
  ⟨593948, [(64, 32)], fun i => Reg.PLS_PER_FRAC i⟩,
  ⟨593952, [(64, 32)], fun i => Reg.PLS_PER_NS i⟩,
  ⟨593956, [(64, 32)], fun i => Reg.PLS_PER_SEC i⟩,
  ⟨593960, [(64, 32)], fun i => Reg.PLS_WIDTH_C i⟩,
  ⟨593964, [(64, 32)], fun i => Reg.PLS_WIDTH_F i⟩,
  ⟨593968, [(64, 32)], fun i => Reg.PLS_COUNT i⟩,
  ⟨593972, [(64, 32)], fun i => Reg.PLS_LEFT i⟩,
  ⟨593976, [(64, 32)], fun i => Reg.PLS_MISSED i⟩]
def regs06_2 : List RegFamily := [
  ⟨593980, [(64, 32)], fun i => Reg.PLS_DLY i⟩]
/-- The registers of 06_interval_pulses.md. -/
def regs06 : List RegFamily := regs06_0 ++ regs06_1 ++ regs06_2

def regs07_0 : List RegFamily := [
  ⟨16777216, [(16777216, 4), (65536, 8)], fun i => Reg.MAC_CFG i⟩,
  ⟨16777220, [(16777216, 4), (65536, 8)], fun i => Reg.MAC_STAT i⟩,
  ⟨16777224, [(16777216, 4), (65536, 8)], fun i => Reg.MAC_EVT i⟩,
  ⟨16777228, [(16777216, 4), (65536, 8)], fun i => Reg.MAC_EVT_EN i⟩,
  ⟨16777232, [(16777216, 4), (65536, 8)], fun i => Reg.MAC_ADDR_LO i⟩,
  ⟨16777236, [(16777216, 4), (65536, 8)], fun i => Reg.MAC_ADDR_HI i⟩,
  ⟨16777240, [(16777216, 4), (65536, 8)], fun i => Reg.MAC_RX_CFG i⟩,
  ⟨16777244, [(16777216, 4), (65536, 8)], fun i => Reg.MAC_PAUSE_CFG i⟩,
  ⟨16777248, [(16777216, 4), (65536, 8)], fun i => Reg.MAC_PFC_MAP i⟩,
  ⟨16777252, [(16777216, 4), (65536, 8)], fun i => Reg.MAC_PRE_CFG i⟩,
  ⟨16777264, [(16777216, 4), (65536, 8)], fun i => Reg.MAC_TS_LAT i⟩,
  ⟨16777268, [(16777216, 4), (65536, 8)], fun i => Reg.MAC_TS_PHASE i⟩,
  ⟨16777272, [(16777216, 4), (65536, 8)], fun i => Reg.MAC_TS_CAL i⟩,
  ⟨16777276, [(16777216, 4), (65536, 8)], fun i => Reg.MAC_TS_DLY_RX i⟩,
  ⟨16777280, [(16777216, 4), (65536, 8)], fun i => Reg.MAC_TS_DLY_TX i⟩,
  ⟨16777472, [(16777216, 4), (65536, 8)], fun i => Reg.MAC_SVC_CMD i⟩,
  ⟨16777476, [(16777216, 4), (65536, 8)], fun i => Reg.MAC_SVC_DATA0 i⟩,
  ⟨16777480, [(16777216, 4), (65536, 8)], fun i => Reg.MAC_SVC_DATA1 i⟩,
  ⟨16777484, [(16777216, 4), (65536, 8)], fun i => Reg.MAC_SVC_DATA2 i⟩,
  ⟨16777488, [(16777216, 4), (65536, 8)], fun i => Reg.MAC_SVC_DATA3 i⟩]
def regs07_1 : List RegFamily := [
  ⟨16777492, [(16777216, 4), (65536, 8)], fun i => Reg.MAC_SVC_DATA4 i⟩,
  ⟨16777496, [(16777216, 4), (65536, 8)], fun i => Reg.MAC_SVC_DATA5 i⟩]
/-- The registers of 07_ports.md. -/
def regs07 : List RegFamily := regs07_0 ++ regs07_1

def regs08_0 : List RegFamily := [
  ⟨17825792, [(16777216, 4)], fun i => Reg.NTP_CTL i⟩,
  ⟨17825796, [(16777216, 4)], fun i => Reg.NTP_CLS_CFG i⟩,
  ⟨17825800, [(16777216, 4)], fun i => Reg.NTP_RESP_CFG i⟩,
  ⟨17825804, [(16777216, 4)], fun i => Reg.NTP_ROOT_DELAY i⟩,
  ⟨17825808, [(16777216, 4)], fun i => Reg.NTP_ROOT_DISP i⟩,
  ⟨17825812, [(16777216, 4)], fun i => Reg.NTP_RL_CFG i⟩,
  ⟨17825816, [(16777216, 4)], fun i => Reg.NTP_OVF_CFG i⟩,
  ⟨17825820, [(16777216, 4)], fun i => Reg.NTP_KOD_CFG i⟩,
  ⟨17825824, [(16777216, 4)], fun i => Reg.NTP_CST_CFG i⟩,
  ⟨17825828, [(16777216, 4)], fun i => Reg.NTP_CST_CTL i⟩,
  ⟨17825832, [(16777216, 4)], fun i => Reg.NTP_CST_STAT i⟩,
  ⟨17825836, [(16777216, 4)], fun i => Reg.NTP_EVT i⟩,
  ⟨17825840, [(16777216, 4)], fun i => Reg.NTP_EVT_EN i⟩,
  ⟨17826048, [(16777216, 4), (16, 8)], fun i => Reg.NTP_BC_CFG i⟩,
  ⟨17826052, [(16777216, 4), (16, 8)], fun i => Reg.NTP_BC_ADDR i⟩,
  ⟨17826056, [(16777216, 4), (16, 8)], fun i => Reg.NTP_BC_OFS i⟩]
/-- The registers of 08_ntp.md. -/
def regs08 : List RegFamily := regs08_0

def regs09_0 : List RegFamily := [
  ⟨18874368, [(16777216, 4)], fun i => Reg.NTS_CTL i⟩,
  ⟨18874372, [(16777216, 4)], fun i => Reg.NTS_STAT i⟩,
  ⟨18874376, [(16777216, 4)], fun i => Reg.NTS_EVT i⟩,
  ⟨18874380, [(16777216, 4)], fun i => Reg.NTS_EVT_EN i⟩,
  ⟨18874384, [(16777216, 4)], fun i => Reg.NTS_ENG_STAT i⟩,
  ⟨18874400, [(16777216, 4), (4, 4)], fun i => Reg.NTS_KEY_ID i⟩,
  ⟨18874416, [(16777216, 4)], fun i => Reg.NTS_KEY_STATE i⟩]
/-- The registers of 09_nts.md. -/
def regs09 : List RegFamily := regs09_0

def regs10_0 : List RegFamily := [
  ⟨19922944, [(16777216, 4)], fun i => Reg.PTP_CTL i⟩,
  ⟨19922948, [(16777216, 4)], fun i => Reg.PTP_CLK_ID_LO i⟩,
  ⟨19922952, [(16777216, 4)], fun i => Reg.PTP_CLK_ID_HI i⟩,
  ⟨19922956, [(16777216, 4)], fun i => Reg.PTP_DS i⟩,
  ⟨19922960, [(16777216, 4)], fun i => Reg.PTP_TEL_CLASS i⟩,
  ⟨19922964, [(16777216, 4)], fun i => Reg.PTP_GRANT_CFG i⟩,
  ⟨19922968, [(16777216, 4)], fun i => Reg.PTP_GRANT_STAT i⟩,
  ⟨19922972, [(16777216, 4)], fun i => Reg.PTP_EVT i⟩,
  ⟨19922976, [(16777216, 4)], fun i => Reg.PTP_EVT_EN i⟩,
  ⟨19923200, [(16777216, 4), (64, 32)], fun i => Reg.PTP_INST_CFG i⟩,
  ⟨19923204, [(16777216, 4), (64, 32)], fun i => Reg.PTP_INST_RATE i⟩,
  ⟨19923208, [(16777216, 4), (64, 32)], fun i => Reg.PTP_INST_PHASE i⟩,
  ⟨19923212, [(16777216, 4), (64, 32)], fun i => Reg.PTP_INST_UP i⟩,
  ⟨19923216, [(16777216, 4), (64, 32)], fun i => Reg.PTP_INST_STAT i⟩,
  ⟨19923232, [(16777216, 4), (64, 32), (4, 4)], fun i => Reg.PTP_INST_PEER i⟩]
/-- The registers of 10_ptp.md. -/
def regs10 : List RegFamily := regs10_0

def regs11_0 : List RegFamily := [
  ⟨134217728, [(4096, 258)], fun i => Reg.HRG_RING_CFG i⟩,
  ⟨134217732, [(4096, 258)], fun i => Reg.HRG_RING_BASE_LO i⟩,
  ⟨134217736, [(4096, 258)], fun i => Reg.HRG_RING_BASE_HI i⟩,
  ⟨134217740, [(4096, 258)], fun i => Reg.HRG_RING_TAIL i⟩,
  ⟨134217744, [(4096, 258)], fun i => Reg.HRG_RING_HEAD i⟩,
  ⟨134217748, [(4096, 258)], fun i => Reg.HRG_RING_ITR i⟩,
  ⟨134217752, [(4096, 258)], fun i => Reg.HRG_RING_THR i⟩,
  ⟨134217756, [(4096, 128)], fun i => Reg.HRG_RING_DROP i⟩,
  ⟨134742044, [(4096, 130)], fun i => Reg.HRG_RING_REFUSED i⟩,
  ⟨134217760, [(4096, 258)], fun i => Reg.HRG_RING_STAT i⟩,
  ⟨135266560, [(4096, 2)], fun i => Reg.HRG_EVT i⟩,
  ⟨135266564, [(4096, 2)], fun i => Reg.HRG_EVT_EN i⟩,
  ⟨135270784, [], fun _ => Reg.HRG_TS_LOST⟩,
  ⟨135270788, [], fun _ => Reg.HRG_FIFO_SEL⟩,
  ⟨135270792, [], fun _ => Reg.HRG_FIFO_STAT⟩,
  ⟨135271424, [(4, 64)], fun i => Reg.HRG_STEER i⟩,
  ⟨135268352, [(4096, 2), (16, 64)], fun i => Reg.MSIX_ADDR_LO i⟩,
  ⟨135268356, [(4096, 2), (16, 64)], fun i => Reg.MSIX_ADDR_HI i⟩,
  ⟨135268360, [(4096, 2), (16, 64)], fun i => Reg.MSIX_DATA i⟩,
  ⟨135268364, [(4096, 2), (16, 64)], fun i => Reg.MSIX_CTRL i⟩]
def regs11_1 : List RegFamily := [
  ⟨135269376, [(4096, 2), (4, 2)], fun i => Reg.MSIX_PBA i⟩]
/-- The registers of 11_host_frames.md. -/
def regs11 : List RegFamily := regs11_0 ++ regs11_1

def regs12_0 : List RegFamily := [
  ⟨917504, [], fun _ => Reg.MOR_CTL⟩,
  ⟨917508, [], fun _ => Reg.MOR_STAT⟩,
  ⟨917512, [], fun _ => Reg.MOR_EVT⟩,
  ⟨917516, [], fun _ => Reg.MOR_EVT_EN⟩,
  ⟨917520, [(4, 2)], fun i => Reg.MOR_CLOSE i⟩,
  ⟨917528, [], fun _ => Reg.MOR_RELAY_CFG⟩,
  ⟨917760, [(64, 2)], fun i => Reg.MOR_LINK_CFG i⟩,
  ⟨917764, [(64, 2)], fun i => Reg.MOR_LINK_STAT i⟩,
  ⟨917768, [(64, 2)], fun i => Reg.MOR_LINK_OFS i⟩,
  ⟨917772, [(64, 2)], fun i => Reg.MOR_LINK_DLY i⟩,
  ⟨917776, [(64, 2)], fun i => Reg.MOR_LINK_X i⟩,
  ⟨917780, [(64, 2)], fun i => Reg.MOR_DLY_RX i⟩,
  ⟨917784, [(64, 2)], fun i => Reg.MOR_DLY_TX i⟩,
  ⟨917788, [(64, 2)], fun i => Reg.MOR_LINK_ERR i⟩,
  ⟨917792, [(64, 2)], fun i => Reg.MOR_LINK_PHASE i⟩,
  ⟨917796, [(64, 2)], fun i => Reg.MOR_LINK_CAL i⟩,
  ⟨983040, [], fun _ => Reg.TND_CTL⟩,
  ⟨983044, [], fun _ => Reg.TND_STAT⟩,
  ⟨983048, [], fun _ => Reg.TND_CNT⟩,
  ⟨983052, [], fun _ => Reg.TND_ERR⟩]
def regs12_1 : List RegFamily := [
  ⟨983296, [(16, 8)], fun i => Reg.TND_NODE_UID_LO i⟩,
  ⟨983300, [(16, 8)], fun i => Reg.TND_NODE_UID_HI i⟩,
  ⟨983304, [(16, 8)], fun i => Reg.TND_NODE_INFO i⟩]
/-- The registers of 12_stacking.md. -/
def regs12 : List RegFamily := regs12_0 ++ regs12_1

def regs13_0 : List RegFamily := [
  ⟨1048576, [(128, 16), (4, 16)], fun i => Reg.MBX_DATA i⟩,
  ⟨1048640, [(128, 16)], fun i => Reg.MBX_CTL i⟩,
  ⟨1048644, [(128, 16)], fun i => Reg.MBX_LOCK i⟩,
  ⟨1048648, [(128, 16)], fun i => Reg.MBX_STAT i⟩,
  ⟨1050624, [(256, 2)], fun i => Reg.MBX_EVT i⟩,
  ⟨1050628, [(256, 2)], fun i => Reg.MBX_EVT_EN i⟩,
  ⟨1050888, [], fun _ => Reg.MBX_CFG⟩,
  ⟨1050892, [], fun _ => Reg.MBX_XCNT⟩]
/-- The registers of 13_mailboxes.md. -/
def regs13 : List RegFamily := regs13_0

def regs15_0 : List RegFamily := [
  ⟨1114112, [], fun _ => Reg.PWR_CTL⟩,
  ⟨1114116, [], fun _ => Reg.PWR_STAT⟩,
  ⟨1114120, [], fun _ => Reg.PWR_EVT⟩,
  ⟨1114124, [], fun _ => Reg.PWR_EVT_EN⟩,
  ⟨1114128, [], fun _ => Reg.PWR_TEMP⟩,
  ⟨1114132, [], fun _ => Reg.PWR_LAT_NTS⟩,
  ⟨1114136, [], fun _ => Reg.PWR_LAT_PORT⟩,
  ⟨1114140, [], fun _ => Reg.PWR_LAT_GNSS⟩,
  ⟨1114144, [], fun _ => Reg.PWR_LAT_TIM⟩,
  ⟨1114148, [], fun _ => Reg.PWR_PORT_PERMIT⟩,
  ⟨1114152, [], fun _ => Reg.PWR_PORT_IDLE⟩,
  ⟨1114156, [], fun _ => Reg.PWR_PORT_PARKED⟩,
  ⟨1114160, [], fun _ => Reg.PWR_NTS_PARKED01⟩,
  ⟨1114164, [], fun _ => Reg.PWR_NTS_PARKED23⟩,
  ⟨1114168, [], fun _ => Reg.PWR_DIE_SLEEP⟩,
  ⟨1114176, [], fun _ => Reg.PWR_RST_CTL⟩,
  ⟨1114180, [], fun _ => Reg.PWR_RST_CAUSE⟩,
  ⟨1114368, [], fun _ => Reg.CFG_STAT⟩,
  ⟨1114372, [], fun _ => Reg.CFG_SEQ⟩,
  ⟨1114376, [], fun _ => Reg.CFG_EVT⟩]
def regs15_1 : List RegFamily := [
  ⟨1114380, [], fun _ => Reg.CFG_EVT_EN⟩,
  ⟨1114384, [], fun _ => Reg.CFG_APPLY⟩,
  ⟨1114388, [], fun _ => Reg.CFG_FLASH⟩]
/-- The registers of 15_power_boot_config.md. -/
def regs15 : List RegFamily := regs15_0 ++ regs15_1

def regs16_0 : List RegFamily := [
  ⟨1179648, [(16, 1024)], fun i => Reg.PCT_SEL i⟩,
  ⟨1179652, [(16, 1024)], fun i => Reg.PCT_LO i⟩,
  ⟨1179656, [(16, 1024)], fun i => Reg.PCT_HI i⟩,
  ⟨1245184, [(4, 32)], fun i => Reg.PCT_OVF i⟩,
  ⟨1245312, [(4, 32)], fun i => Reg.PCT_OVF_EN i⟩,
  ⟨1310720, [], fun _ => Reg.WCH_CTL⟩,
  ⟨1310724, [], fun _ => Reg.WCH_TIME⟩,
  ⟨1310728, [], fun _ => Reg.WCH_STAT⟩,
  ⟨1310732, [], fun _ => Reg.WCH_EVT⟩,
  ⟨1310736, [], fun _ => Reg.WCH_EVT_EN⟩,
  ⟨1310752, [(8, 8)], fun i => Reg.WCH_RES0 i⟩,
  ⟨1310756, [(8, 8)], fun i => Reg.WCH_RES1 i⟩,
  ⟨1310816, [], fun _ => Reg.WCH_ECC⟩,
  ⟨1314816, [], fun _ => Reg.LOG_NEXT⟩,
  ⟨1314820, [], fun _ => Reg.LOG_FIRST⟩,
  ⟨1314824, [], fun _ => Reg.LOG_WIN⟩,
  ⟨1314828, [], fun _ => Reg.LOG_WRAPS⟩]
/-- The registers of 16_watch_counters.md. -/
def regs16 : List RegFamily := regs16_0

end Sys2Proof.Machine
end

