-- ==== Sys2Proof/Machine/State.lean ====
section
/-! DEFINITION. The state of the block as plain data: the register file, the structures the spec gives the block beside its
registers, the queue of waiting commands, what the block has put out, and the state after reset.  Instants from which a duration is
measured stand on the clock of durations, TS0 without its steps (State.clk, log entry 94); INVENTORY.md marks them (clk). -/

namespace Sys2Proof.Machine

/-- Who raises which: no command of this block ends in a fault of the machine; the constructor names the one access the
spec says does not exist, a BAR offset beyond the function's BARs (R40, R44); safe. -/
inductive Fault where
  | noSuchAddress (addr : Nat)
deriving DecidableEq, Repr

/-- `notModelled`: a command with no meaning yet, raised by exec's arms only; safe. -/
inductive Refusal where
  | notModelled (mnemonic : String)
deriving DecidableEq, Repr

/-- What a command answers. -/
abbrev Res (σ : Type) := Host.Outcome σ Fault Refusal

/-! ### Tick domain (02) -/

/-- A slew (R52): offset `o` in 2^-16 ns over `n` ticks, share `q` and remainder `r` in 2^-48 ns, `k` ticks given.
`n = 0`: none runs. -/
structure Slew where
  o : Int := 0
  n : Nat := 0
  q : Int := 0
  r : Int := 0
  k : Nat := 0
deriving DecidableEq, Repr

/-- One counter of the tick domain: its value and increment in 2^-48 ns (R46, R48), the staged increment (R50), the slew in
force, the pending step (R56-R58: relative offset in 2^-16 ns, epoch markers still to come, sender ID), the reading before the
last one applied and the tick it was applied at (R61), the tick the slew in force was started at and the slew it replaced there (R61), the
phase given since the filter last looked, beyond `incrRef` a tick (R88), and what its steps have moved it by so far. -/
structure TickBank where
  ts : Nat := 0
  incr : Nat := 351843720888320
  staged : Nat := 351843720888320
  slew : Slew := {}
  stepDelta : Int := 0
  stepMarkers : Nat := 0
  stepBy : Nat := 0
  stepRead : Nat := 0
  stepTick : Option Nat := none
  slewFrom : Nat := 0
  slewOld : Slew := {}
  phaseAcc : Int := 0
  jumped : Int := 0
  incrRef : Nat := 351843720888320
deriving DecidableEq, Repr

/-- The two counters as they stood at tick `at_`, and whether TS1 was running on its own then (R63). -/
structure Stretch where
  at_ : Nat := 0
  en : Bool := false
  bank0 : TickBank := {}
  bank1 : TickBank := {}
deriving DecidableEq, Repr

/-- What an armed leap has latched (R69, R71-R74): its KIND, whether it is smeared, whether OFS has changed and what it was before, and
whether TS0 has been stepped back since; for a leap that is over its instant in UTC seconds, which while it is armed stands in
TSC_LEAP_UTC. -/
structure Leap where
  kind : Nat := 0
  utc : Nat := 0
  smear : Bool := false
  ofsDone : Bool := false
  ofsOld : Int := 0
  back : Bool := false
deriving DecidableEq, Repr

/-- The tick domain: ticks since the counters started, the two counters, the tick of the last
epoch marker, the ticks at which a snapshot was asked for and at which the last one was latched, the leap, the last leap that is
over (kind 0: none), by which instants before it are still converted (R71, R72), and the counters as they stood at each change of the last
10 ms, newest first, by which an instant passed is read as it was then (R39). -/
structure Tick where
  count : Nat := 0
  bank0 : TickBank := {}
  bank1 : TickBank := {}
  markerAt : Option Nat := none
  takeAt : Nat := 0
  latchAt : Option Nat := none
  leap : Leap := {}
  past : Leap := {}
  trail : List Stretch := []
deriving DecidableEq, Repr

/-! ### Beacon time lanes (01) -/

/-- One Beacon die's side of its time lane: the slave counter and its increment in 2^-48 ns, whether it has been loaded
since OFF, slave ticks since the die came up, what the last sync pulse carried (Keeper time in 2^-16 ns, increment, lane
delay, step notice), the loop's accumulated offset (R28-R32), and whether the lane was LOCKED before its changes of the last 1 ms (the instant on
the clock of durations, what held; R355). -/
structure Lane where
  slave : Nat := 0
  slaveIncr : Nat := 351843720888320
  loaded : Bool := false
  ticks : Nat := 0
  pulseTime : Nat := 0
  pulseIncr : Nat := 351843720888320
  pulseDelay : Nat := 0
  notice : Option Int := none
  piSum : Int := 0
  was : List (Nat × Bool) := []
deriving DecidableEq, Repr

/-! ### Ensemble (03) -/

/-- An instant as it was stamped (R39): its TS0 reading, its place on the clock of durations and on the tick clock at its nominal rate,
and TS1 - TS0 as it stood then, all in 2^-16 ns. -/
structure Stamp where
  t : Nat := 0
  clk : Nat := 0
  k : Int := 0
  d : Int := 0
deriving DecidableEq, Repr

/-- A sample delivered to a slot (R78): the measured instant on the clock of durations and the offset, both in 2^-16 ns, path delay in
2^-16 ns, whether it came with the spoofing indication (R146); the instant `k` on the tick clock at its nominal rate, the source's time
against that clock `u`, and TS1 - TS0 `d`, as they stood at the measured instant. -/
structure Sample where
  t : Nat := 0
  x : Int := 0
  k : Int := 0
  u : Int := 0
  d : Int := 0
  dly : Int := 0
  spoof : Bool := false
deriving DecidableEq, Repr

/-- A sample as the checks saw it: its instant on the clock of durations and on the tick clock, corrected offset, in 2^-16 ns, and
offset less the set's phase, in ns. -/
structure Seen where
  t : Nat := 0
  k : Int := 0
  x : Int := 0
  e : Rat := 0
deriving DecidableEq, Repr

/-- What a slot did in one filter step: its samples, whether it contributed, and with what weight. -/
structure SlotStep where
  seen : List Seen := []
  used : Bool := false
  w : Rat := 0
deriving DecidableEq, Repr

/-- What a slot keeps beside its registers: among it `fit`, its last 16 samples as (instant, source's time) against the tick clock, so
that no step or slew of the timescale shows in them (R101), `last`, its newest sample as (instant on the clock of
durations, corrected offset), `learned`, whether a learned bias stands (R82), `dlys`, its last 272 path delays, and `longN`, how many of them
have come since the long mean restarted (R103), and the sender IDs of the write that its next filter step carries out and of the RELEARN
its re-estimation comes from (R470). -/
structure Slot where
  inbox : List Sample := []
  set : Nat := 0
  enOff : Bool := false
  bias : Int := 0
  biasWritten : Bool := false
  learned : Bool := false
  asym : Int := 0
  asymWritten : Bool := false
  heard : Nat := 0
  fit : List (Int × Int) := []
  last : Option (Nat × Int) := none
  firstAt : Int := 0
  hist : List SlotStep := []
  departs : Nat := 0
  clock : Nat := 0
  heldOnce : Bool := false
  susp : List Nat := []
  dlys : List Int := []
  longN : Nat := 0
  by_ : Nat := 0
  reestBy : Nat := 0
  reestAt : Nat := 0
  reestSum : Rat := 0
  reestN : Nat := 0
  learnAt : Option Nat := none
  learnSum : Rat := 0
  learnN : Nat := 0
  run : List Int := []
deriving DecidableEq, Repr

/-- The filter of one timescale and what goes with it and its source set (R87, R94, R111, R113, R114), among it when the last time-bearing
slot of the set left its states (R83); phase in ns, frequency in ns/s. -/
structure Filter where
  theta : Rat := 0
  y : Rat := 0
  d : Rat := 0
  p00 : Rat := 0
  p01 : Rat := 0
  p11 : Rat := 0
  lead : Option Nat := none
  hoAt : Nat := 0
  hoE0 : Rat := 0
  hoY : Rat := 0
  hoDd : Rat := 0
  hoTemp : Rat := 0
  hoTempInt : Rat := 0
  held : Int := 0
  slewMax : Bool := false
  settleAt : Option Nat := none
  drift : List (Int × Rat) := []
  estErr : Rat := 0
  timeLeft : Option Nat := none
deriving DecidableEq, Repr

/-- What the Beacon dies were last sent (R117, R264). -/
structure Published where
  engine : Nat := 0
  refid : Nat := 0x494E4954
  err : Nat := 0xFFFFFFFF
  refAt : Option Nat := none
  sentAt : Nat := 0
deriving DecidableEq, Repr

/-- The ensemble: slots, the two filters, the die temperature of the last step, the instant the last filter step
ran at, the anchor's history (whether a lost one is being stood in for, since when each candidate has been present, the last 1 s
measurement of each in nHz (R95) and the one the divider was set from (none: as at reset; R96)), the TS0 time of the last step at which a
QUALIFIED slot of TS0's set contributed (R264), the last publication, the sender ID of the decision waiting in ENS_DECIDE (R470), and the
ageing and temperature words of the anchor module's record as a warm reset found them, in force until the record is read again (R109). -/
structure Ens where
  slots : IMap Slot := []
  f0 : Filter := {}
  f1 : Filter := {}
  tempLast : Option Rat := none
  stepAt : Nat := 0
  anchorFall : Bool := false
  anchorSince : IMap Nat := []
  clockHz : IMap (Option Nat) := []
  divider : Option Nat := none
  driftAt : Nat := 0
  refAt : Option Nat := none
  pub : Published := {}
  decideBy : Nat := 0
  recKept : List Int := []
deriving DecidableEq, Repr

/-! ### Reference modules (05) -/

/-- What a page write to a module's EEPROM is for (R168, R169, R175). -/
inductive HoursJob where
  | hourly | flush | setFirst | setSecond
deriving DecidableEq, Repr

/-- A page write in progress or waiting for its retry: the copy (0 A, 1 B), its SEQ, what it is for, whether it has failed and waits, and
whether it had failed before. -/
structure HoursWrite where
  copy : Nat := 0
  seq : Nat := 0
  job : HoursJob := .hourly
  failed : Bool := false
  tried : Bool := false
deriving DecidableEq, Repr

/-- What a reference module port keeps beside its registers: the end of the last READING, the module read last and whether
its record was valid (R165), the SEQ of each hours copy (R167), the copy chosen or written last, the page write at work and the jobs behind
it, codes of the last 720 hourly writes (R174), the clock measurements of the last 64 s as (instant, nHz) (R172), the last one since the clock was last
gated off (R160), the last PPS delivered with the second of the slot's timescale it marked (R161), whether READY or WARM_FAIL has come since
the end of READING (R158), whether a warm reset kept the minute count and the DAC code and the warm-up time it kept (R176), and the sender
ID of the HOURS_SET at work (R470). -/
structure RfmPort where
  warmFrom : Option Int := none
  lastId : List Nat := []
  lastValid : Bool := false
  seqA : Option Nat := none
  seqB : Option Nat := none
  lastCopy : Nat := 0
  work : Option HoursWrite := none
  jobs : List HoursJob := []
  codes : List Nat := []
  freqs : List (Nat × Nat) := []
  hz : Option Nat := none
  ppsAt : Option Nat := none
  ppsSec : Int := 0
  warmEnd : Bool := false
  keptMinutes : Bool := false
  keptSpan : Nat := 0
  setBy : Nat := 0
deriving DecidableEq, Repr

/-! ### Event log (16) -/

/-- An event log record (R470): time in 2^-16 ns, event code, unit, sender, data bytes from byte 20 on. -/
structure LogRec where
  seq : Nat := 0
  time : Nat := 0
  event : Nat := 0
  unit : Nat := 0
  sender : Nat := 0
  data : List Nat := []
deriving DecidableEq, Repr

/-! ### GNSS receiver (04) -/

/-- A sample port: the TS0 time of its last epoch stamp, that stamp on the clock of durations, since when an epoch is awaited (R124), the
last sample with the band centre at its offset and the turns the mixer has made at it (R121), the codes last seen on I and Q and how many
samples in a row have held them, clean epochs in a row, the noise baseline once learned (0.25 dB) and when its learning began (R144), and
when a notch last engaged or released and since when each has stood below THR - 6 dB (R142, R143). -/
structure GnsPort where
  stampAt : Nat := 0
  epochAt : Option Nat := none
  awaitFrom : Nat := 0
  iq : Int × Int := (0, 0)
  turn : Rat := 0
  codeI : Nat × Nat := (0, 0)
  codeQ : Nat × Nat := (0, 0)
  clean : Nat := 0
  baseline : Option Nat := none
  learnAt : Option Nat := some 0
  notchAt : Option Nat := none
  below : IMap Nat := []
deriving DecidableEq, Repr

/-- A tracking channel beside its registers: the signal it is on, whether the host pinned it, when its state began, the TS0
time at which a pending PIN takes effect, a GNS_CH_CFG write held in TEST, whether a record has come since NAV began, its code phase
(2^-16 chip) and when it stood so, and the correlator spacing before and from the start of a code period on (R130). -/
structure GnsCh where
  sys : Nat := 0
  band : Nat := 0
  ant : Nat := 0
  pinned : Bool := false
  since : Nat := 0
  pinAt : Option Nat := none
  heldCfg : Option Nat := none
  navFirst : Bool := false
  code : Nat := 0
  codeAt : Nat := 0
  gapOld : Nat := 0
  gap : Nat := 0
  gapAt : Nat := 0
deriving DecidableEq, Repr

/-- An antenna: the epoch of its last solution (s), the solution not yet delivered (the stamp of its epoch and the offset in 2^-16 ns), the last
valid one, when the last valid solution was and since when they have been valid, the survey's start, the sum of the positions it has
averaged (cm) and their number, a position that a write in second `posSec` replaced (R135), since when all checks pass, what REF_SYS,
UTC_STEER and ISB_BCAST were, the elevation of each satellite at the last solution, the TS0 seconds to which ephemeris is held for the
planned wake, and the words latched by a read of SOL_EPOCH_LO. -/
structure GnsAnt where
  epoch : Option Nat := none
  ready : Option (Stamp × Int) := none
  lastX : Option (Nat × Int) := none
  validAt : Nat := 0
  validFrom : Option Nat := none
  surveyFrom : Option Nat := none
  surveySum : Int × Int × Int := (0, 0, 0)
  surveyN : Nat := 0
  posSec : Option Nat := none
  posOld : Int × Int × Int := (0, 0, 0)
  passFrom : Option Nat := none
  refSeen : Option Nat := none
  elev : IMap Nat := []
  eph : List Nat := []
  latch : IMap Nat := []
deriving DecidableEq, Repr

/-- A broadcast TAI - UTC and the announced change: UTC second of the midnight, future value (R141). -/
structure UtcParams where
  cur : Int := 0
  fut : Option (Nat × Int) := none
deriving DecidableEq, Repr

/-- The receiver: ports, channels, antennas, the run of epochs with the antennas apart and its last epoch (R145), the systems
in force while a change of SYS_EN waits for its epoch (R153), REF_SYS, UTC_STEER and ISB_BCAST as they stood before the changes of the
second `refSec` (R140), the sequence number of the next navigation record and the newest record of each signal, the tick GNS_NAV_RD was last
advanced at (R134), UTC parameters by satellite, the channels a sleep took (R151), and the sleep. -/
structure Gnss where
  ports : IMap GnsPort := []
  chans : IMap GnsCh := []
  ants : IMap GnsAnt := []
  antRun : Nat := 0
  antAt : Nat := 0
  sysHeld : Option Nat := none
  refSec : Option Nat := none
  refOld : Nat := 0
  navSeq : Nat := 0
  navLast : IMap (List Nat) := []
  rdAt : Option Nat := none
  utc : IMap UtcParams := []
  utcHeard : List Nat := []
  resume : List (Nat × GnssSig) := []
  sleepUntil : Nat := 0
  wakeAt : Option Nat := none
  lossHeld : Bool := false
deriving DecidableEq, Repr

/-! ### Interval inputs and pulse outputs (06) -/

/-- One edge as captured: coarse index, calibrated position and width of its bin in 1/65,536 period, bin, serving unit with the CAL_SEQ
of its table, TS0 time of the ball or reference point in 2^-48 ns, whether it was falling, and the steps of TS0 before it (R182). -/
structure Edge where
  c : Nat := 0
  pos : Nat := 0
  width : Nat := 0
  bin : Nat := 0
  unit : Nat := 0
  seq : Nat := 0
  t : Int := 0
  fall : Bool := false
  steps : Nat := 0
deriving DecidableEq, Repr

/-- A capture channel beside its registers: serving unit (none: as at reset), the coarse period from which it serves and the unit before
it (R188), the position of the last edge on its input, when its table came into force and its sequence, edges selected since arming (prescaler), the last stamped position, write instants of what its FIFO holds, flags
waiting for the next record, an open pair (on the stop channel or not), the count since when (TS0, coarse), and an ARM that
waits for its group to wake. -/
structure TimChan where
  unit : Option Nat := none
  unitFrom : Nat := 0
  oldUnit : Nat := 0
  lastEdge : Option Nat := none
  calAt : Option Nat := none
  calSeq : Nat := 0
  calChg : Bool := false
  selected : Nat := 0
  lastPos : Option Nat := none
  fifo : List Nat := []
  dead : Bool := false
  stepSeen : Nat := 0
  open_ : Option (Bool × Edge) := none
  count : Nat := 0
  countAt : Option (Nat × Nat) := none
  pendArm : Bool := false
deriving DecidableEq, Repr

/-- A group beside its registers: spare unit (none: as at reset), whether its table is fresh, failed passes in a row, units
retired, when it last handed over, handovers left of a CAL_NOW rotation, the tables of its units (hits of 64 bins), the gate's
opening (coarse, TS0), the end of its length (on the clock of durations), whether an edge gate has been used since arming, NAP, the record sequence, GAP
waiting, and the coarse index its record port is busy to. -/
structure TimGroup where
  spare : Option Nat := none
  fresh : Bool := false
  fails : Nat := 0
  retired : Nat := 0
  handAt : Nat := 0
  rotLeft : Nat := 0
  tables : IMap (List Nat) := []
  gateC : Nat := 0
  gateT : Nat := 0
  endAt : Option Nat := none
  gateUsed : Bool := false
  nap : Bool := false
  seq : Nat := 0
  gap : Bool := false
  busyC : Nat := 0
deriving DecidableEq, Repr

/-- The schedule a pulse output was handed (R203, R204), times in 2^-16 ns, width in 1/64 coarse period, POL, and whether its number of
pulses is unlimited. -/
structure PulseSched where
  ts1 : Bool := false
  t0 : Nat := 0
  per : Nat := 0
  width : Nat := 0
  pol : Bool := false
  unlim : Bool := false
deriving DecidableEq, Repr

/-- A committed edge (R206, R208): its instant, the interval-clock position of its leading edge (1/64 coarse period), its
width, its timescale, its polarity, the engine state at commit, and whether a GO has replaced its schedule since. -/
structure PulseEdge where
  inst : Nat := 0
  pos : Nat := 0
  width : Nat := 0
  ts1 : Bool := false
  pol : Bool := false
  eng : Nat := 0
  old : Bool := false
deriving DecidableEq, Repr

/-- A pulse output beside its registers: schedule, next instant's index, last instant fired, highest instant missed by a step,
committed edges waiting to fire, the end and the polarity of the active pulse, the end of the last committed one, a GO that waits for its group to wake, and
whether a warm reset makes it IDLE once what is committed has completed (R215). -/
structure PulseOut where
  sched : PulseSched := {}
  next : Nat := 0
  last : Option Nat := none
  passed : Option Nat := none
  commits : List PulseEdge := []
  endPos : Option Nat := none
  activePol : Bool := false
  busyPos : Nat := 0
  pendGo : Bool := false
  toIdle : Bool := false
deriving DecidableEq, Repr

/-- The interval block: channels (0-63 TI, 64-79 IC, 80 PA, 81 PB), groups (8 the internal one), rings (group * 16,384 + slot),
steps of TS0 so far, and outputs. -/
structure Tim where
  chans : IMap TimChan := []
  groups : IMap TimGroup := []
  rings : IMap (List Nat) := []
  steps : Nat := 0
  outs : IMap PulseOut := []
deriving DecidableEq, Repr

/-! ### Performance counters (16) -/

/-- A performance counter (R461-R467): the event, unit and mode of its PCT_SEL, its 48-bit count, and the PCT_HI word latched
for PF0, PF1 and the firmware (R464).  Its OVF bit is kept in PCT_OVF. -/
structure Pct where
  event : Nat := 0
  unit : Nat := 0
  level : Bool := false
  count : Nat := 0
  hi0 : Nat := 0
  hi1 : Nat := 0
  hiK : Nat := 0
deriving DecidableEq, Repr

/-! ### Ports (07) and served messages (08-10) -/

/-- A PTP message in a transmit queue: its type, its instance, the scheduled instant of a multicast one (ns; R329), the Follow_Up built with
it (none: no second message), the base of the
correction written at commit and T_rx of the request it answers (R323, R324), and the sequence of a Delay_Req. -/
structure PtpTx where
  msg : Nat := 0
  inst : Nat := 0
  due : Option Nat := none
  follow : Option (List Nat) := none
  corr : Int := 0
  tRx : Nat := 0
  seq : Nat := 0
deriving DecidableEq, Repr

/-- A finished NTS response (R299-R301): the table entry of its request, server-to-client key, nonce of its authenticator, the fresh
cookies. -/
structure NtsTx where
  entry : Option Nat := none
  key : List Nat := []
  nonce : List Nat := []
  cookies : List (List Nat) := []
deriving DecidableEq, Repr

/-- What a queued frame is, and so what its commit writes and does: a host frame (ring, descriptor index, CMD, OS_OFS, CF_OFS), an
ARP reply or Neighbor Advertisement, a host frame in flight whose ring has been reset (whether its commit wrote a time), a message that carries no time (KoD, NAK) with its table entry, an NTP response (its table entry and key, whether
interleaved, fraction of its receive timestamp), an NTP broadcast, an NTS response, a PTP message, a Signaling message of an instance with the grants (die * 16,384 + e) it gives. -/
inductive TxKind where
  | host (ring idx cmd osOfs cfOfs : Nat)
  | answer
  | orphan (stamped : Bool)
  | still (entry : Option Nat)
  | ntp (entry : Option (Nat × Nat)) (ilv : Bool) (rxFrac : Nat)
  | ntpBcast
  | nts (r : NtsTx)
  | ptp (m : PtpTx)
  | signal (inst : Nat) (grants : List Nat)
deriving DecidableEq, Repr

/-- A queued frame: its bytes without FCS, the received frame it answers (its number on the port), the earliest commit (ps). -/
structure TxFrame where
  kind : TxKind := .answer
  bytes : List Nat := []
  rx : Option Nat := none
  notBefore : Nat := 0
deriving DecidableEq, Repr

/-- A frame committed and not fully sent: queue, commit of the current fragment (ps), bytes sent in earlier fragments and their number,
whether it was committed as preemptable and its frame count, when its last byte is committed (ps), and START of a host frame's ring as it stood
at its commit (R360). -/
structure Flight where
  q : Nat := 0
  frame : TxFrame := {}
  startPs : Nat := 0
  sent : Nat := 0
  frags : Nat := 0
  pre : Bool := false
  count : Nat := 0
  endPs : Nat := 0
  start : Nat := 0
deriving DecidableEq, Repr

/-- A received pause waiting for its effect (R246): the instant (ps), for each queue named its quanta, how many of its pauses have
zero time and the quanta of all of them. -/
structure Pause where
  atPs : Nat := 0
  quanta : List (Nat × Nat) := []
  zeros : Nat := 0
  sum : Nat := 0
deriving DecidableEq, Repr

/-- A received frame whose FEC verdict is out (R232): its number, bytes, its stamp point on the clock of durations, the stamp of T_rx and
whether it is valid, when its last FCS bit crossed the ball (ps), whether its first copy failed its FCS check, whether a response to it has been
committed, and its delivery to the host that waits (class, steering byte as it stood when the frame was classified; R371). -/
structure FecWait where
  rx : Nat := 0
  bytes : List Nat := []
  point : Nat := 0
  stamp : Stamp := {}
  tsOk : Bool := true
  end_ : Nat := 0
  failed : Bool := false
  answered : Bool := false
  toHost : Option (Nat × Nat) := none
  reasm : Bool := false
deriving DecidableEq, Repr

/-- A preempted frame being reassembled (R244): its frame count, fragments and bytes so far, whether a PCS error block fell into them, its
stamp point on the clock of durations, the stamp of T_rx and whether it is valid. -/
structure OpenFrame where
  count : Nat := 0
  frags : Nat := 0
  bytes : List Nat := []
  codeErr : Bool := false
  point : Nat := 0
  stamp : Stamp := {}
  tsOk : Bool := true
deriving DecidableEq, Repr

/-- A port beside its registers: MAC_ADDR_LO as staged, service address entries (six words each), the entries and the values of DLY_RX that
writes of the last 1 ms replaced (the instant on the clock of durations, the index, what stood; R254, R256), queues, what is being sent,
what is committed whole and on its way to the ball (R38), and what stands suspended, the next frame count, when the transmitter is free (ps), pauses to come and the ends of running timers (ps), what it is
brought up to (ps) and the remainder of its pause time, MAC_PRE_CFG as latched at UP, verify mPackets sent and when the next is due, when it
left UP, when its calibration pass began, frames received, the frame being reassembled, whether one was cut off so when the port left UP, FEC verdicts out, NTS responses finished and held (with
the instant they entered), the two-step stamps pending (ring, index) and their highest number, when the last frame was sent or received, and
whether the power arbiter parks the port.  verifyAt, outAt, calAt, frameAt and the hold's instants are on the clock of durations. -/
structure Port where
  stagedLo : Option Nat := none
  svc : IMap (List Nat) := []
  svcOld : List (Nat × Nat × List Nat) := []
  dlyOld : List (Nat × Int) := []
  queues : IMap (List TxFrame) := []
  flight : Option Flight := none
  leaving : List Flight := []
  suspended : Option Flight := none
  txCount : Nat := 0
  freePs : Nat := 0
  pauses : List Pause := []
  pauseEnd : IMap Nat := []
  seenPs : Nat := 0
  heldRem : Nat := 0
  preCfg : Nat := 0
  verifySent : Nat := 0
  verifyAt : Nat := 0
  outAt : Nat := 0
  calAt : Nat := 0
  rxSeq : Nat := 0
  asm : Option OpenFrame := none
  cutAsm : Bool := false
  fec : List FecWait := []
  ready : List TxFrame := []
  hold : List (Nat × TxFrame) := []
  stamps : List (Nat × Nat) := []
  high : Nat := 0
  frameAt : Nat := 0
  parked : Bool := false
deriving DecidableEq, Repr

/-- A Client State Table entry (R269): KEY, ORG, TX_PREV, TOKENS, T_UPD, LAST and the flags; the default is a freed way. -/
structure CstEntry where
  key : Nat := 0
  org : Nat := 0
  txPrev : Nat := 0
  tokens : Nat := 0
  tUpd : Nat := 0
  last : Nat := 0
  valid : Bool := false
  gen : Nat := 0
  ilv : Bool := false
  kod : Bool := false
deriving DecidableEq, Repr

/-- A token bucket of a die: what it holds in 1/800,000,000 token (none: full) as of an instant, in 1/800,000,000 s. -/
structure Bucket where
  level : Option Nat := none
  tick : Nat := 0
deriving DecidableEq, Repr

/-- A die's NTP responder beside its registers: the sweeper's next bucket and when it visits it (on the clock of durations), buckets left of a flush, the KoD
and overflow buckets, the last broadcast instant of each port that was sent (2^-16 ns of TS0), and the tick in which each port last
skipped one (R282). -/
structure NtpDie where
  bucket : Nat := 0
  sweepAt : Nat := 0
  flushLeft : Nat := 0
  kod : Bucket := {}
  ovf : Bucket := {}
  bcLast : IMap (Option Nat) := []
  bcSkipped : IMap (Option Nat) := []
deriving DecidableEq, Repr

/-- An NTS request past step 6 (R296): receiving port, its bytes, T_rx, its number on the port, its table entry, and the key set it entered
an engine under (slot states, IDs, keys). -/
structure NtsJob where
  port : Nat := 0
  entry : Option Nat := none
  bytes : List Nat := []
  tRx : Nat := 0
  rx : Nat := 0
  keys : List (Nat × Nat × List Nat) := []
deriving DecidableEq, Repr

/-- A die's NTS engines: admission queue, the job each engine is on, outputs taken from its random bit generator, when ENG_DROP
last rose or the queue last exceeded 128 (R474), and the engines asked to park that hold a request still (a mask; R306). -/
structure NtsDie where
  queue : List NtsJob := []
  engines : IMap (Option NtsJob) := []
  drawn : Nat := 0
  busyAt : Option Nat := none
  parking : Nat := 0
deriving DecidableEq, Repr

/-- A master heard by an upstream instance (R341): instance, sourcePortIdentity (8 + 2 bytes as a number), dataset of its last
Announce, its announce interval, source address, and when it was last heard (on the clock of durations). -/
structure PtpMaster where
  inst : Nat := 0
  id : Nat := 0
  prio1 : Nat := 0
  cls : Nat := 0
  acc : Nat := 0
  var : Nat := 0
  prio2 : Nat := 0
  gm : Nat := 0
  steps : Nat := 0
  logAnn : Int := 0
  src : List Nat := []
  heard : Nat := 0
deriving DecidableEq, Repr

/-- A PTP instance beside its registers: whether it runs, the sequence counters of Sync, Announce, Signaling and Delay_Req, the last
instants of Sync and Announce sent (ns since the epoch) and the ticks in which one of each was last skipped (R329), a two-step Sync waiting for its Follow_Up (sequenceId, the stamp of t2, correction,
when, on the clock of durations), the latest Sync's t2 - t1 - c_S, the Delay_Req out (sequenceId, T_tx once committed), the latest path delay, the
master's Delay_Resp interval, when the Delay_Req interval that runs began, and an upstream requester's grants by message
type (when asked, granted duration in s with when it was granted, when to retry), these on the clock of durations. -/
structure PtpInst where
  on : Bool := false
  syncSeq : Nat := 0
  annSeq : Nat := 0
  sigSeq : Nat := 0
  dreqSeq : Nat := 0
  lastSync : Option Nat := none
  lastAnn : Option Nat := none
  skipSync : Option Nat := none
  skipAnn : Option Nat := none
  syncWait : Option (Nat × Stamp × Int × Nat) := none
  syncDiff : Option Int := none
  dreqOut : Option (Nat × Option Nat) := none
  dly : Option Int := none
  respLog : Option Int := none
  dreqFrom : Nat := 0
  asked : IMap (Option Nat) := []
  granted : IMap (Option (Nat × Nat)) := []
  retryAt : IMap (Option Nat) := []
deriving DecidableEq, Repr

/-- A grant table entry (R336), its tags as the tag words and T_UPD with its upper bits, with the last scheduled instant sent (ns) and the
tick in which one was last skipped; the default is a free entry. -/
structure Grant where
  valid : Bool := false
  clkId : Nat := 0
  portNum : Nat := 0
  msg : Nat := 0
  logPeriod : Int := 0
  family : Nat := 0
  inst : Nat := 0
  port : Nat := 0
  tags : List Nat := []
  addr : List Nat := []
  duration : Nat := 0
  expiry : Nat := 0
  seq : Nat := 0
  tokens : Nat := 0
  tUpd : Nat := 0
  lastNs : Option Nat := none
  skipped : Option Nat := none
deriving DecidableEq, Repr

/-- A pending key change (R290): opcode, slot, key ID, key, and the instant on the clock of durations from which a whole ms of TS0 puts it
into effect. -/
structure KeyChange where
  op : Nat := 0
  slot : Nat := 0
  id : Nat := 0
  key : List Nat := []
  ready : Nat := 0
deriving DecidableEq, Repr

/-- The Beacon dies' served side: ports, 64-bit statistics and their latched high words (port * 64 + i; 2,048, 2,176 and 2,304 on for
NTP, NTS and PTP, die * 32 + i), the Client State Tables (die * 2^21 + bucket * 8 + way) and the draws of their hash key, dies' NTP and
NTS sides, the Keeper's key slots (state, ID, key) and CHG_SEQ, the key change waiting, PTP instances, grants (die * 16,384 + e), masters heard and the masters
selected for slots 4 and 5 (instance, identity). -/
structure Served where
  ports : IMap Port := []
  stats : IMap Nat := []
  latch : IMap Nat := []
  cst : IMap CstEntry := []
  hashDraw : Nat := 0
  pipeDraw : Nat := 0
  ntp : IMap NtpDie := []
  nts : IMap NtsDie := []
  keys : IMap (Nat × Nat × List Nat) := []
  chgSeq : Nat := 0
  keyChange : Option KeyChange := none
  insts : IMap PtpInst := []
  grants : IMap Grant := []
  masters : List PtpMaster := []
  selected : IMap (Option (Nat × Nat)) := []
deriving DecidableEq, Repr

/-! ### Host rings (11) -/

/-- A fetched descriptor: index, its TAG bytes, the write-back its two-step commit fixed (R362, R363), its write-back once it is finished,
and the port whose FIFO holds its stamp. -/
structure RingDesc where
  idx : Nat := 0
  tag : List Nat := []
  sent : Option (List Nat) := none
  back : Option (List Nat) := none
  stamp : Option Nat := none
deriving DecidableEq, Repr

/-- A ring beside its registers: the fetch point, the posted descriptors' bytes, descriptors fetched and not written back in ring
order, write-backs since the last message and when the first was made (on the clock of durations), START before a host write and the tick
of the write, and the tick of the last raise of START (R360). -/
structure Ring where
  fetch : Nat := 0
  descs : IMap (List Nat) := []
  out : List RingDesc := []
  count : Nat := 0
  since : Nat := 0
  startWas : Option (Nat × Nat) := none
  raisedAt : Option Nat := none
deriving DecidableEq, Repr

/-! ### Stacking (12) -/

/-- A Mooring link beside its registers: T_rx and TX of the last TIME frame received (R377), x last formed (R379),
MASTER and CHAIN_HOPS of that frame, whether a TIME frame has come since the last marker and epochs in a row without one (R380), SEQ of TIME and RELAY frames sent, when the calibration pass began and passes
failed, and the bits and errors of BERT frames checked (R474). -/
structure MorLink where
  rxLast : Nat := 0
  txPeer : Nat := 0
  x : Option Int := none
  master : Nat := 0
  hops : Nat := 0
  gotTime : Bool := false
  miss : Nat := 0
  timeSeq : Nat := 0
  relaySeq : Nat := 0
  calAt : Nat := 0
  calTries : Nat := 0
  bertBits : Nat := 0
  bertErrs : Nat := 0
deriving DecidableEq, Repr

/-- A node heard with SRC 0: its UID and STRAP, when it was last heard so, when its last ASSIGN went out, and whether it has been heard with an
address since (R394, R398). -/
structure Newcomer where
  uid : Nat := 0
  strap : Nat := 0
  heard : Nat := 0
  assigned : Option Nat := none
  placed : Bool := false
deriving DecidableEq, Repr

/-- A node's link report (R397): RSEQ, and PEER and STATE of its M0 and M1. -/
structure RingReport where
  rseq : Nat := 0
  peer0 : Nat := 0
  state0 : Nat := 0
  peer1 : Nat := 0
  state1 : Nat := 0
deriving DecidableEq, Repr

/-- Stacking beside its registers: links; ENGINE last seen from each address; when each address was last heard (none: never)
and nodes without an address; those of the last master's HELLO and of the last better-ranked node; when the next HELLO is due and
draws of its jitter; frames waiting on Tender, attempts at the first, when its backoff ends, until when the bus is known to be busy, draws of the backoff; the handover
(target, when its frame went out) on the master, the target a HANDOVER named elsewhere, and how far this node is as its target (1 named, 2
its HELLO sent); when the next RCHECK is due, its RSEQ, reports by address, ORDER in force and as the master judged it last (R397); the closure sums of the window they belong to
(units of 2^-16 ns, and how many) and the last window spoilt (R383); ASYM shares waiting (2^-8 ns); TIME frames committed; PINGs out by
address (when, data), the nodes that answered, PINGs drawn; relayed packets waiting for the agent (source, packet). -/
structure Stack where
  links : IMap MorLink := []
  engines : IMap (Option Nat) := []
  heard : IMap (Option Nat) := []
  newcomers : List Newcomer := []
  masterAt : Nat := 0
  betterAt : Nat := 0
  helloAt : Nat := 0
  helloDraw : Nat := 0
  tx : List (List Nat) := []
  attempt : Nat := 0
  backoff : Option Nat := none
  busyTo : Nat := 0
  backoffDraw : Nat := 0
  handover : Option (Nat × Nat) := none
  heirOf : Option Nat := none
  heir : Nat := 0
  rcheckAt : Nat := 0
  rseq : Nat := 0
  reports : IMap (Option RingReport) := []
  order : List Nat := []
  judged : List Nat := []
  win : Nat := 0
  sumW : Int := 0
  numW : Nat := 0
  sumE : Int := 0
  numE : Nat := 0
  spoilt : Option Nat := none
  shares : Int × Int := (0, 0)
  timeDraw : Nat := 0
  pings : IMap (Option (Nat × Nat)) := []
  answered : List Nat := []
  pingDraw : Nat := 0
  relayQ : List (Nat × List Nat) := []
deriving DecidableEq, Repr

/-! ### Mailboxes (13) and command packets (14) -/

/-- A mailbox channel beside its registers: when its hold restarted and a crossing with its message began, and the tick of the DONE that
answered it (R406, R415, R416). -/
structure Mbx where
  holdAt : Nat := 0
  crossAt : Option Nat := none
  doneAt : Option Nat := none
deriving DecidableEq, Repr

/-- The path a command packet came by (R421, R424): a mailbox channel, a command ring (its ring, descriptor index, CMD_LEN, reply address
and RPL_LEN), the relay queue for a source address, or a ring that a function-level reset has taken away (no reply). -/
inductive CmdPath where
  | mbx (c : Nat)
  | ring (q idx cmdLen rplAddr rplLen : Nat)
  | relay (a : Nat)
  | lost
deriving DecidableEq, Repr

/-- A command packet as the firmware holds it: its path, the stamped sender, whether RELAY_SEC was 1 when it was delivered (R424), its
bytes. -/
structure Cmd where
  path : CmdPath := .mbx 0
  sender : Nat := 0
  sec : Bool := false
  bytes : List Nat := []
deriving DecidableEq, Repr

/-- How a command ended: status, detail, reply parameters, the TS0 time (R428). -/
structure Ending where
  status : Nat := 0
  detail : Nat := 0
  params : List Nat := []
  time : Nat := 0
deriving DecidableEq, Repr

/-- A waiting or deferred command in progress (R427, R428): its number, the command, whether it is deferred, when it began, its
ending once the device's part is over, and whether it has been answered with TIMEOUT while its action goes on. -/
structure Running where
  id : Nat := 0
  cmd : Cmd := {}
  deferred : Bool := false
  since : Nat := 0
  ending : Option Ending := none
  answered : Bool := false
deriving DecidableEq, Repr

/-- A deferred command's outcome as kept for RESULT (R428). -/
structure Kept where
  sender : Nat := 0
  tag : Nat := 0
  opcode : Nat := 0
  status : Nat := 7
  detail : Nat := 0
  time : Nat := 0
deriving DecidableEq, Repr

/-- A notification held: its function, whether it was withdrawn before (R416), the packet. -/
structure Held where
  fn : Nat := 0
  again : Bool := false
  bytes : List Nat := []
deriving DecidableEq, Repr

/-- The Keeper firmware: commands arrived and not begun, in arrival order (mailbox channels hold theirs in their data registers), the
command begun, commands running, their next number, outcomes kept (newest first), notifications held and posted
(channel, packet), the status each posted one ended with (by channel; 9 CROSSED, R416), and its last service cycle (on the clock of durations;
R447). -/
structure Fw where
  queue : List Cmd := []
  current : Option Cmd := none
  running : List Running := []
  nextId : Nat := 0
  kept : List Kept := []
  held : List Held := []
  posted : IMap (List Nat) := []
  postStatus : IMap Nat := []
  cycleAt : Nat := 0
deriving DecidableEq, Repr

/-! ### Watch (16) -/

/-- A Watch run (R476): whether it is the scheduled one, FORCE, the WATCH_RUN it serves (its number) and that command's sender, tests not ended
(the first is the one in progress), when that test fell due or began, whether it waits for its disturbing condition to pass, when that was last
found, whether it is flagged FORCED, and what it borrows: the outputs it takes in turn with the spare channel their loopback path ends on, a GNSS
channel, and the engine numbers it takes in turn on each die (R474). -/
structure WatchRun where
  scheduled : Bool := false
  force : Bool := false
  cmd : Option Nat := none
  sender : Nat := 0
  tests : List Nat := []
  since : Nat := 0
  waiting : Bool := false
  foundAt : Nat := 0
  forced : Bool := false
  outs : List Nat := []
  loop : Option Nat := none
  chan : Option Nat := none
  engs : List Nat := []
deriving DecidableEq, Repr

/-- Watch beside its registers: the run, whether a scheduled run waits for the run in progress to end, the spare banks withdrawn and the
engines (die * 12 + engine) a failed test keeps until cold reset (R475). -/
structure Watch where
  run : Option WatchRun := none
  due : Bool := false
  badBanks : List Nat := []
  badEngines : List Nat := []
deriving DecidableEq, Repr

/-! ### Power, reset, configuration (15) -/

/-- What the arbiter has cut (R443): an engine (die * 12 + engine), a port, or the receiver. -/
inductive Cut where
  | engine (e : Nat)
  | port (p : Nat)
  | gnss
deriving DecidableEq, Repr

/-- The arbiter beside its registers: the cuts in force, newest first, since when there has been headroom for a restoration and when the
last one was made, the islands waking (engines 0-47, ports 48-79, dies 80-83), the saving state of each parked island (1 IDLE, 2 NAP,
3 SLEEP; R446), and when the last evaluation was. -/
structure Power where
  cuts : List Cut := []
  calmAt : Option Nat := none
  restoredAt : Option Nat := none
  waking : List Nat := []
  saving : IMap Nat := []
  evalAt : Nat := 0
deriving DecidableEq, Repr

/-- The reset kinds (R447). -/
inductive ResetKind where
  | powerOn | cold | warmTs | warm | watchdog
  | die (n : Nat)
deriving DecidableEq, Repr

/-- A TAP instruction (R496). -/
inductive TapInstr where
  | idcode | sample | extest | clamp | highz | extestPulse | extestTrain | bypass
deriving DecidableEq, Repr

/-- Reset beside its registers: the reset in progress with its requester's ID, how far its boot has come (0 nothing, 1 image chosen, 2
firmware running, 3 image applied), the resets RESET commands asked for that are to come (kind, sender, when; oldest first), the instruction in the
TAP, the boundary cells that drive balls in a test (R496, R497), and whether POR_N is low (R488). -/
structure Rst where
  active : Option (ResetKind × Nat) := none
  stage : Nat := 0
  requests : List (ResetKind × Nat × Nat) := []
  tap : TapInstr := .idcode
  cells : BitVec 1210 := 0
  porLow : Bool := false
deriving DecidableEq, Repr

/-- What a body holds that acts (R456): its register pairs (offset, value), in order, and its firmware patch. -/
structure Image where
  pairs : List (Nat × Nat) := []
  patch : Option (List Nat) := none
deriving DecidableEq, Repr

/-- A commit in progress (R458): LENGTH, target slot, SEQ, the step, flash operations done in it, the number of the command it serves and that
command's sender. -/
structure CommitJob where
  len : Nat := 0
  slot : Nat := 0
  seq : Nat := 0
  step : Nat := 1
  done : Nat := 0
  cmd : Nat := 0
  sender : Nat := 0
deriving DecidableEq, Repr

/-- Configuration beside its registers: flash bytes that are not erased (0xFF), the staging area (0 where nothing is staged), the erase size
SFDP declares, the image booted, the commit, and flash operations that failed or were cut off so far. -/
structure Cfg where
  flash : IMap Nat := []
  staging : IMap Nat := []
  erase : Nat := 65536
  image : Option Image := none
  commit : Option CommitJob := none
  failures : Nat := 0
deriving DecidableEq, Repr

/-! ### PCIe (13, 15) -/

/-- The endpoint: whether each function is in D0 and whether in its function-level reset, whether PE_PERST_N is high, and the instant from which
configuration requests are answered, 100 ms after POR_N rises (R411, R447, R450). -/
structure Pcie where
  d0a : Bool := true
  d0b : Bool := true
  flr0 : Bool := false
  flr1 : Bool := false
  perstHigh : Bool := true
  answersAt : Nat := 6553600000000
deriving DecidableEq, Repr

/-! ### What the block puts out -/

/-- Anything the block shows to the outside: the model's own record of it, newest first.  `dma`: bytes written to host memory;
`frame`: a frame sent whole on a port, FCS included; `mpacket`: an mPacket sent on a port, its SMD and fragment count first, FCS or mCRC
last; `line`: what a port's reconciliation sublayer comes to send (0 frames, 1 idle only, 2 remote fault); `mooring`: a frame on a Mooring link, FCS included; `tender`: a frame on Tender;
`jam`: 32 bits of jam on Tender; `bert`: whether the gaps of a Mooring link are filled with BERT frames from here on; `lockRead`: what a reader (its
sender ID) reads from a mailbox register; `pathError`: the error response that ends a rejected access on an internal path (R403); `eeprom`: a page
written to a module's EEPROM, from an address up; `tdo`: the bits a scan shifts out of the TAP, first to last. -/
inductive Output where
  | msi (fn vec cycle : Nat)
  | aer (fn : Nat) (addr : Nat) (completerAbort : Bool)
  | readData (v : Nat)
  | dma (addr : Nat) (bytes : List Nat)
  | frame (port : Nat) (bytes : List Nat)
  | mpacket (port : Nat) (bytes : List Nat)
  | line (port what : Nat)
  | mooring (link : Nat) (bytes : List Nat)
  | tender (bytes : List Nat)
  | jam
  | bert (link : Nat) (on : Bool)
  | lockRead (reader v : Nat)
  | pathError (reader : Nat) (read : Bool)
  | eeprom (port addr : Nat) (bytes : List Nat)
  | tdo (bits : List Bool)
deriving DecidableEq, Repr

/-- The state of the block. -/
structure State where
  pending : List Instr := []
  cycle : Nat := 0
  regs : RegFile := []
  mem : List Host.Cell := []
  tick : Tick := {}
  lanes : IMap Lane := []
  ens : Ens := {}
  rfm : IMap RfmPort := []
  tim : Tim := {}
  gnss : Gnss := {}
  log : IMap LogRec := []
  pct : IMap Pct := []
  srv : Served := {}
  rings : IMap Ring := []
  stack : Stack := {}
  mbx : IMap Mbx := []
  fw : Fw := {}
  pcie : Pcie := {}
  watch : Watch := {}
  power : Power := {}
  rst : Rst := {}
  cfg : Cfg := {}
  out : List Output := []
deriving DecidableEq, Repr

/-- The block right after power-on reset: every register at its reset value, the counters at 0 and running, the boot still to come (R450). -/
def State.reset : State := { rst := { active := some (.powerOn, 0) } }

end Sys2Proof.Machine
end

