-- ==== Sys2Proof/Machine/Operands.lean ====
section
/-! DEFINITION. The operand forms of the commands: words written to registers (R10), senders (R14) and timescales (R76). -/

namespace Sys2Proof.Machine

/-! ### Written words -/

/-- The bits a written word carries for a field. -/
def Field.of (f : Field) (w : Nat) : Nat := w / 2 ^ f.lsb % 2 ^ f.width

/-- A word with a one-bit field set. -/
def Field.setIn (f : Field) (w : Nat) : Nat := if w / 2 ^ f.lsb % 2 = 1 then w else w + 2 ^ f.lsb

/-- A word with a one-bit field clear. -/
def Field.clearIn (f : Field) (w : Nat) : Nat := if w / 2 ^ f.lsb % 2 = 1 then w - 2 ^ f.lsb else w

/-- A word with a field replaced. -/
def Field.putIn (f : Field) (v w : Nat) : Nat := w - f.of w * 2 ^ f.lsb + v % 2 ^ f.width * 2 ^ f.lsb

/-! ### Senders (R14) -/

/-- The sender ID of R14. -/
def senderId : Sender → Nat
  | .pf0 => 1
  | .pf1 => 2
  | .keeper => 3
  | .beacon n => 4 + n.val
  | .peer n => 8 + n.val

/-- The bank number of R76. -/
def bankNo : Bank → Nat
  | .ts0 => 0
  | .ts1 => 1

end Sys2Proof.Machine
end

