-- ==== Sys2Proof/Machine/Ops.lean ====
section
/-! DEFINITION. The operations every command uses: reading and writing register fields, generic writes by access code
(R10, R11), the banks of the tick domain and the passing of time (R18, R46, R52). -/

namespace Sys2Proof.Machine

/-! ### Registers -/

/-- The value of a register field. -/
def State.rd (s : State) (f : Field) : Nat := RegFile.get s.regs f

/-- Writes a register field. -/
def State.wr (s : State) (f : Field) (v : Nat) : State := { s with regs := RegFile.set s.regs f v }

/-- A one-bit field read as a truth value. -/
def State.on (s : State) (f : Field) : Bool := s.rd f = 1

/-- Sets a one-bit field. -/
def State.hi (s : State) (f : Field) : State := s.wr f 1

/-- Clears a field. -/
def State.lo (s : State) (f : Field) : State := s.wr f 0

/-- A field read as a two's-complement number. -/
def State.rdSigned (s : State) (f : Field) : Int := toSigned f.width (s.rd f)

/-- Stores one field of a written word by its access code (R10): RW, RWS and RWL take the bits (RWL until the commit), W1C
bits written 1 clear; SC bits act through the command of their register; RO, RC and WO keep nothing. -/
def State.storeField (locked : Bool) (w : Nat) (s : State) (f : Field) : State :=
  match f.acc with
  | .rw => s.wr f (f.of w)
  | .rws => s.wr f (f.of w)
  | .rwl => if locked then s else s.wr f (f.of w)
  | .w1c => s.wr f (s.rd f &&& (2 ^ f.width - 1 - f.of w))
  | _ => s

/-- Stores every field of a register from a written word. -/
def State.storeReg (s : State) (locked : Bool) (r : Register) (w : Nat) : State :=
  r.fields.foldl (State.storeField locked w) s

/-- The word a register shows: write-only fields and reserved bits read 0 (R10, R11). -/
def State.showReg (s : State) (r : Register) : Nat :=
  r.fields.foldl (fun a f => if f.acc = .wo then a else a + s.rd f * 2 ^ f.lsb) 0

/-- A read clears the RC fields of a register (R10). -/
def State.clearRc (s : State) (r : Register) : State :=
  r.fields.foldl (fun s f => if f.acc = .rc then s.lo f else s) s

/-! ### Commands -/

/-- A command begins: one more processed. -/
def State.begin (s : State) : State := { s with cycle := s.cycle + 1 }

/-- Puts something out. -/
def State.emit (s : State) (o : Output) : State := { s with out := o :: s.out }

/-- Rewrites a state under a condition. -/
def State.when (s : State) (c : Bool) (f : State → State) : State := if c then f s else s

/-- Whether the TAP holds an instruction that takes the pins from the device (R497). -/
def State.inTest (s : State) : Bool := s.rst.tap ∈ [.extest, .clamp, .highz, .extestPulse, .extestTrain]

/-! ### Addressed buffers -/

/-- Reads one byte of an addressed buffer; a byte nothing has written reads 0 (log entry 11). -/
def readByte (m : List Host.Cell) (a : Nat) : Byte := IMap.get 0 m a

/-- Writes one byte of an addressed buffer. -/
def writeByte (m : List Host.Cell) (a : Nat) (v : Byte) : List Host.Cell := IMap.put 0 m a v

/-- Writes bytes from an address up. -/
def writeBytes (m : List Host.Cell) (a : Nat) (bs : List Nat) : List Host.Cell :=
  (bs.zipIdx).foldl (fun m b => writeByte m (a + b.2) (BitVec.ofNat 8 b.1)) m

/-- Whether the buffers' memory has its canonical form. -/
def Memory.wf (m : List Host.Cell) : Bool := IMap.wf 0 m

/-! ### Tick domain -/

/-- A bank of the tick domain. -/
def Tick.bank (t : Tick) : Bank → TickBank
  | .ts0 => t.bank0
  | .ts1 => t.bank1

/-- Replaces a bank. -/
def Tick.setBank (t : Tick) (b : Bank) (v : TickBank) : Tick :=
  match b with
  | .ts0 => { t with bank0 := v }
  | .ts1 => { t with bank1 := v }

/-- Rewrites a bank. -/
def State.modBank (s : State) (b : Bank) (f : TickBank → TickBank) : State :=
  { s with tick := s.tick.setBank b (f (s.tick.bank b)) }

/-- The counters wrap at 2^48 s (R46). -/
def wrapTs : Nat := 2 ^ 48 * 1000000000 * 2 ^ 48

/-- Nanoseconds and seconds in 2^-16 ns. -/
def ns16 (n : Nat) : Nat := n * 65536
def us16 (n : Nat) : Nat := n * 65536000
def ms16 (n : Nat) : Nat := n * 65536000000
def sec16 (n : Nat) : Nat := n * 65536000000000

/-- The sign of a remainder: one unit with its sign. -/
def signUnit (r : Int) : Int := if r < 0 then -1 else 1

/-- What a slew gives over its next `m` ticks (R52): `q` each, and one signed unit on each of the first |r|. -/
def Slew.give (v : Slew) (m : Nat) : Int :=
  v.q * ((min (v.k + m) v.n - v.k : Nat) : Int)
    + signUnit v.r * (((min (v.k + m) v.r.natAbs : Nat) : Int) - ((min v.k v.r.natAbs : Nat) : Int))

/-- What a slew has given so far. -/
def Slew.given (v : Slew) : Int := v.q * (v.k : Int) + signUnit v.r * ((min v.k v.r.natAbs : Nat) : Int)

/-- The offset a slew has not given yet, in 2^-16 ns (R54). -/
def Slew.left (v : Slew) : Int := rnd (mkRat (v.o * 2 ^ 32 - v.given) (2 ^ 32))

/-- A counter after `m` more ticks. -/
def TickBank.run (b : TickBank) (m : Nat) : TickBank :=
  { b with
    ts := (((b.ts + m * b.incr : Nat) : Int) + b.slew.give m).toNat % wrapTs
    phaseAcc := b.phaseAcc + (m : Int) * ((b.incr : Int) - (b.incrRef : Int)) + b.slew.give m
    slew := { b.slew with k := min (b.slew.k + m) b.slew.n } }

/-- TS1's counter after `m` more ticks in which it holds the value of TS0's, `b0` (R63): what it gains is what TS0's increment and slew give
(R88), and its own slew, which moves nothing, counts on. -/
def TickBank.follow (b b0 : TickBank) (m : Nat) : TickBank :=
  { b with
    ts := (b0.run m).ts
    phaseAcc := b.phaseAcc + (m : Int) * ((b0.incr : Int) - (b.incrRef : Int)) + b0.slew.give m
    slew := { b.slew with k := min (b.slew.k + m) b.slew.n } }

/-- A counter moved by a relative step, in 2^-16 ns (R57, R58). -/
def TickBank.step (b : TickBank) (d : Int) : TickBank :=
  { b with
    ts := (((b.ts : Int) + d * 2 ^ 32) % (wrapTs : Int)).toNat
    phaseAcc := b.phaseAcc + d * 2 ^ 32
    jumped := b.jumped + d * 2 ^ 32 }

/-- Both counters after `m` more ticks. -/
def Stretch.run (e : Stretch) (m : Nat) : Stretch :=
  { e with
    at_ := e.at_ + m
    bank0 := e.bank0.run m
    bank1 := if e.en then e.bank1.run m else e.bank1.follow e.bank0 m }

/-- A Beacon's slave counter after `m` more slave ticks. -/
def Lane.run (l : Lane) (m : Nat) : Lane :=
  if l.loaded then { l with slave := (l.slave + m * l.slaveIncr) % wrapTs, ticks := l.ticks + m } else l

/-- The reading of TS0 in 2^-16 ns (R47). -/
def State.ts0 (s : State) : Nat := s.tick.bank0.ts / 2 ^ 32

/-- What a counter's ticks alone have given it, in 2^-48 ns: its reading without its steps. -/
def TickBank.ran (b : TickBank) : Nat := (((b.ts : Int) - b.jumped) % (wrapTs : Int)).toNat

/-- The clock durations are measured on, in 2^-16 ns: TS0 as its ticks alone advance it, so that no step of TS0 lengthens or shortens
one (log entry 94). -/
def State.clk (s : State) : Nat := s.tick.bank0.ran / 2 ^ 32

/-- Both counters as they stand. -/
def State.stretch (s : State) : Stretch :=
  { at_ := s.tick.count, en := s.on R.TSC_CTL_TS1_EN, bank0 := s.tick.bank0, bank1 := s.tick.bank1 }

/-- The changes back to the one in force at tick `n`. -/
def cover (n : Nat) : List Stretch → List Stretch
  | [] => []
  | e :: rest => if e.at_ ≤ n then [e] else e :: cover n rest

/-- Notes the counters as time moves on, where something has changed since they were noted last; what is more than 10 ms (8,000,000 ticks)
old is dropped. -/
def Stretch.note (e : Stretch) (trail : List Stretch) : List Stretch :=
  match trail with
  | [] => [e]
  | p :: _ => if p.run (e.at_ - p.at_) = e then trail else e :: cover (e.at_ - 8000000) trail

/-- Both counters as they stood at tick `n`; as they stand now for a tick to come or one longer ago than is kept (DESIGN CHOICE, log entry
103). -/
def State.stretchAt (s : State) (n : Nat) : Stretch :=
  if s.tick.count ≤ n then s.stretch
  else match s.tick.trail.find? (fun e => decide (e.at_ ≤ n)) with
    | some e => e.run (n - e.at_)
    | none => s.stretch

/-- The instant on that clock of an instant read on TS0. -/
def State.clkOf (s : State) (t : Nat) : Nat := ((s.clk : Int) - ((s.ts0 : Int) - (t : Int))).toNat

/-- The reading of TS1: while TS1_EN is 0 it holds TS0's value (R63). -/
def State.ts1 (s : State) : Nat := if s.on R.TSC_CTL_TS1_EN then s.tick.bank1.ts / 2 ^ 32 else s.ts0

/-- The reading of a timescale. -/
def State.tsOf (s : State) : Bank → Nat
  | .ts0 => s.ts0
  | .ts1 => s.ts1

/-- A difference of two readings in 2^-16 ns, the nearer way round the wrap. -/
def nearTs (d : Int) : Int :=
  let w : Int := (wrapTs / 2 ^ 32 : Nat)
  if d % w * 2 ≥ w then d % w - w else d % w

/-- TS1 - TS0 in 2^-16 ns (R39, R62, R64). -/
def State.tsDiff (s : State) : Int := nearTs ((s.ts1 : Int) - (s.ts0 : Int))

/-- TS1 - TS0 as both stood then, in 2^-16 ns. -/
def Stretch.diff (e : Stretch) : Int :=
  if e.en then nearTs (((e.bank1.ts / 2 ^ 32 : Nat) : Int) - ((e.bank0.ts / 2 ^ 32 : Nat) : Int)) else 0

/-- The tick of an instant `back` (2^-16 ns) before the present one, the nearest. -/
def State.tickBack (s : State) (back : Nat) : Nat := s.tick.count - (back + 40960) / 81920

/-- What steps of TS0 have moved it by since tick `n`, in 2^-16 ns. -/
def State.steppedSince (s : State) (n : Nat) : Int := (s.tick.bank0.jumped - (s.stretchAt n).bank0.jumped) / 2 ^ 32

/-- A reading in 2^-16 ns moved by `d`, round the wrap. -/
def moveTs (t : Nat) (d : Int) : Nat := (((t : Int) + d) % (wrapTs / 2 ^ 32 : Nat)).toNat

/-- Ticks needed to cover `need`, along stretches of (ticks, gain a tick) and then at the last gain. -/
def ticksFor (last : Nat) : List (Nat × Nat) → Nat → Nat
  | [], need => ceilDiv need last
  | (len, a) :: rest, need =>
    if need ≤ len * a then ceilDiv need a else len + ticksFor last rest (need - len * a)

/-- Ticks in which a counter gains at least `need`, in 2^-48 ns. -/
def TickBank.ticksOver (b : TickBank) (need : Nat) : Nat :=
  ticksFor b.incr
    [(b.slew.r.natAbs - b.slew.k, ((b.incr : Int) + b.slew.q + signUnit b.slew.r).toNat),
     (b.slew.n - max b.slew.k b.slew.r.natAbs, ((b.incr : Int) + b.slew.q).toNat)]
    need

/-- Ticks until a counter reads at least `target`, in 2^-16 ns. -/
def TickBank.ticksTo (b : TickBank) (target : Nat) : Nat := b.ticksOver (target * 2 ^ 32 - b.ts)

/-- The increment by which a timescale moves: TS0's for a TS1 that follows it (R63, R88). -/
def State.incrOf (s : State) : Bank → Nat
  | .ts0 => s.tick.bank0.incr
  | .ts1 => if s.on R.TSC_CTL_TS1_EN then s.tick.bank1.incr else s.tick.bank0.incr

/-! ### Lanes -/

/-- A die's lane. -/
def State.lane (s : State) (n : Nat) : Lane := IMap.get {} s.lanes n

/-- Rewrites a die's lane. -/
def State.modLane (s : State) (n : Nat) (f : Lane → Lane) : State := { s with lanes := IMap.upd {} s.lanes n f }

/-- A die's slave time in 2^-16 ns (R47). -/
def State.slaveTime (s : State) (n : Nat) : Nat := (s.lane n).slave / 2 ^ 32

end Sys2Proof.Machine
end

