-- ==== Sys2Proof/Machine/Flags.lean ====
section
/-! DEFINITION. Event bits and the MSI-X messages they send (R367, R368), and event log records (R469-R472). -/

namespace Sys2Proof.Machine

/-! ### MSI-X -/

/-- Sends a message on a vector: a masked vector keeps it pending (R368). -/
def State.post (s : State) (fn vec : Nat) : State :=
  if s.rd (R.MSIX_CTRL_MASK (fn * 64 + vec)) = 1 then
    s.wr (R.MSIX_PBA_P (fn * 2 + vec / 32)) (s.rd (R.MSIX_PBA_P (fn * 2 + vec / 32)) ||| 2 ^ (vec % 32))
  else s.emit (.msi fn vec s.cycle)

/-- An event's message on its vector: one in a cycle, however many bits rise in it (R368). -/
def State.msi (s : State) (fn vec : Nat) : State := if Output.msi fn vec s.cycle ∈ s.out then s else s.post fn vec

/-- A write of a vector's control word that unmasks it sends the message it kept (PCIe, R368). -/
def State.unmasked (s : State) (fn vec : Nat) : State :=
  let p := R.MSIX_PBA_P (fn * 2 + vec / 32)
  if s.rd (R.MSIX_CTRL_MASK (fn * 64 + vec)) = 0 ∧ bit (s.rd p) (vec % 32) then
    (s.wr p (s.rd p - 2 ^ (vec % 32))).emit (.msi fn vec s.cycle)
  else s

/-! ### Event registers -/

/-- An event register: its bits, its enable bits (none: every bit set sends, R367), its function and vector. -/
structure EvtSrc where
  ev : Field
  en : Option Field
  fn : Nat
  vec : Nat
deriving DecidableEq, Repr

/-- The enable bits in force. -/
def EvtSrc.mask (e : EvtSrc) (s : State) : Nat :=
  match e.en with
  | none => 2 ^ e.ev.width - 1
  | some f => s.rd f

/-- Sets event bits; an enabled bit that rises sends the vector's message (R368). -/
def State.raise (s : State) (e : EvtSrc) (m : Nat) : State :=
  let old := s.rd e.ev
  let s' := s.wr e.ev (old ||| m)
  if (m &&& e.mask s) &&& (2 ^ e.ev.width - 1 - old) ≠ 0 then s'.msi e.fn e.vec else s'

/-- The bits of an enable register that are not reserved: RFM_EVT_EN has reserved bits among its others (R11, R177). -/
def enableBits (f : Field) (v : Nat) : Nat := if f = R.RFM_EVT_EN_BITS then v &&& 0x3FFF3FFF else v

/-- A write of the enable bits: a bit enabled while its event bit is set sends the vector's message (R368). -/
def State.enableEvt (s : State) (e : EvtSrc) (v : Nat) : State :=
  match e.en with
  | none => s
  | some f =>
    let old := s.rd f
    let s' := s.wr f (enableBits f v)
    if (s'.rd f &&& (2 ^ f.width - 1 - old)) &&& s.rd e.ev ≠ 0 then s'.msi e.fn e.vec else s'

/-- ENS_EVT, vector 40 of PF1. -/
def Evt.ens : EvtSrc := ⟨R.ENS_EVT_BITS, some R.ENS_EVT_EN_BITS, 1, 40⟩
/-- DEV_LANE_EVT, vector 45 of PF1, on every bit set. -/
def Evt.laneCoast : EvtSrc := ⟨R.DEV_LANE_EVT_COAST, none, 1, 45⟩
def Evt.laneFault : EvtSrc := ⟨R.DEV_LANE_EVT_FAULT, none, 1, 45⟩

/-- RFM_EVT, vector 42 of PF1; port B's bits at + 16. -/
def Evt.rfm : EvtSrc := ⟨R.RFM_EVT_BITS, some R.RFM_EVT_EN_BITS, 1, 42⟩
/-- WCH_EVT, vector 49 of PF1. -/
def Evt.wch : EvtSrc := ⟨R.WCH_EVT_BITS, some R.WCH_EVT_EN_BITS, 1, 49⟩

/-- GNS_EVT, vector 41 of PF1. -/
def Evt.gns : EvtSrc := ⟨R.GNS_EVT_BITS, some R.GNS_EVT_EN_BITS, 1, 41⟩

/-- TIM_EVT, vector 43, and PLS_EVT, vector 44, of PF1. -/
def Evt.tim : EvtSrc := ⟨R.TIM_EVT_BITS, some R.TIM_EVT_EN_BITS, 1, 43⟩
def Evt.pls : EvtSrc := ⟨R.PLS_EVT_OUT, some R.PLS_EVT_EN_OUT, 1, 44⟩

/-! ### Event log -/

/-- The ring holds 131,072 records (R469). -/
def logSize : Nat := 131072

/-- The bytes of a Keeper time in 2^-16 ns: FRAC, NS, SEC (R45). -/
def ktBytes (t : Nat) : List Nat :=
  le 2 (t % 65536) ++ le 4 (t / 65536 % 1000000000) ++ le 6 (t / 65536 / 1000000000)

/-- Writes a record: it takes the next SEQ and its ring slot, over the oldest record when the ring is full (R469, R471). -/
def State.logRec (s : State) (event unit sender : Nat) (data : List Nat) : State :=
  let seq := s.rd R.LOG_NEXT_SEQ
  let full := (seq + 2 ^ 32 - s.rd R.LOG_FIRST_SEQ) % 2 ^ 32 = logSize
  let r : LogRec := { seq := seq, time := s.ts0, event := event, unit := unit, sender := sender, data := data }
  let s := { s with log := IMap.put {} s.log (seq % logSize) r }
  let s := s.wr R.LOG_NEXT_SEQ (seq + 1)
  if full then
    ((s.wr R.LOG_FIRST_SEQ (s.rd R.LOG_FIRST_SEQ + 1)).wr R.LOG_WRAPS_WRAPS (satNat 32 (s.rd R.LOG_WRAPS_WRAPS + 1))).raise Evt.wch 16
  else s

/-! ### Commands that wait for the device -/

/-- How the running commands of a kind ended, those that have not ended before (R427, R428). -/
def endThose (p : Running → Bool) (status detail : Nat) (params : List Nat) (s : State) : State :=
  { s with fw := { s.fw with running := s.fw.running.map (fun r =>
      if p r ∧ r.ending = none then { r with ending := some { status := status, detail := detail, params := params, time := s.ts0 } } else r) } }

/-- A running command's part of the device is over: how it ended. -/
def endRunning (id status detail : Nat) (params : List Nat) (s : State) : State :=
  endThose (fun r => decide (r.id = id)) status detail params s

/-- The waiting command of an opcode on a bank or port ends as the device sets its DONE or DENIED (R435). -/
def endUnit (op unit status detail : Nat) (params : List Nat) (s : State) : State :=
  endThose (fun r => leAt r.cmd.bytes 0 2 = op && r.cmd.bytes.getD 16 0 = unit) status detail params s

end Sys2Proof.Machine
end

