-- ==== Sys2Proof/Machine/Counters.lean ====
section
/-! DEFINITION. Performance counters (R461-R467), the passing of time, and how every command ends. -/

namespace Sys2Proof.Machine

/-! ### Counting -/

/-- A counter has wrapped: its OVF is set (R466). -/
def raisePctOvf (c : Nat) (s : State) : State :=
  s.raise ⟨R.PCT_OVF_OVF (c / 32), some (R.PCT_OVF_EN_EN (c / 32)), 1, 48⟩ (2 ^ (c % 32))

/-- Adds to a counter, which wraps at 2^48. -/
def addPct (c inc : Nat) (s : State) : State :=
  let p := IMap.get {} s.pct c
  { s with pct := IMap.put {} s.pct c { p with count := (p.count + inc) % 2 ^ 48 } }

/-- Adds to a counter, wrapping at 2^48 with OVF (R466). -/
def bumpPct (c inc : Nat) (s : State) : State :=
  if (IMap.get {} s.pct c).count + inc < 2 ^ 48 then addPct c inc s else raisePctOvf c (addPct c inc s)

/-- An occurrence of kind O (R462, R463): every counter that selects it adds its increment. -/
def State.count (s : State) (event unit inc : Nat) : State :=
  if inc = 0 then s
  else s.pct.foldl (fun s cp => if cp.2.event = event ∧ cp.2.unit = unit then bumpPct cp.1 inc s else s) s

/-- A request passes the responder pipeline of a die (event 0x070): it enters, one edge, and holds the pipeline for one Beacon core cycle and a free
number more, since no rule bounds the stay (R462, R463, log entry 62). -/
def passPipe (d : Nat) (s : State) : State :=
  let n := 1 + Config.pipeCycles s.srv.pipeDraw
  s.pct.foldl (fun s cp => if cp.2.event = 0x070 ∧ cp.2.unit = d then bumpPct cp.1 (if cp.2.level then n else 1) s else s)
    { s with srv := { s.srv with pipeDraw := s.srv.pipeDraw + 1 } }

/-- The conditions of kind B (R463) but 0x070, which begins and ends within one command (see passPipe). -/
def State.pctCond (s : State) (event unit : Nat) : Bool :=
  match event with
  | 0x001 => true
  | 0x010 => s.rd (R.TSC_LANE_STAT_STATE unit) ≠ 2
  | 0x023 => s.fw.running.any (fun r => !r.answered)
  | 0x040 => s.rd (R.GNS_CH_STAT_STATE unit) = 4
  | 0x051 => s.on R.PWR_STAT_SHORT
  | 0x052 => s.on R.PWR_STAT_DERATE
  | 0x071 => !(IMap.get {} s.srv.nts unit).queue.isEmpty
  | 0x072 => (IMap.get none (IMap.get {} s.srv.nts (unit / 12)).engines (unit % 12)).isSome
  | 0x080 => !(IMap.get [] (IMap.get {} s.srv.ports unit).queues 7).isEmpty
  | 0x081 => (IMap.get {} s.srv.ports unit).pauseEnd.any (fun e => decide (s.tick.count * 1250 < e.2))
  | _ => false

/-- Edge counting over a whole command: a condition that was false and is true counts once (R462). -/
def countEdges (old new : State) : State :=
  old.pct.foldl (fun s cp =>
    let p := IMap.get {} s.pct cp.1
    if p.event = cp.2.event && p.unit = cp.2.unit && !p.level && !old.pctCond p.event p.unit
        && new.pctCond p.event p.unit then bumpPct cp.1 1 s
    else s) new

/-- A command that always goes on: its effect on everything but the queue of waiting commands. -/
def go (f : State → State) (s : State) : Res State := .next { countEdges s (f s.begin) with pending := s.pending }

/-! ### Time -/

/-- Cycles of an event's clock in the `m` ticks after tick `n`: the tick clock, the Keeper core's three for two ticks, the
Beacon core's two a tick. -/
def levelCycles (event n m : Nat) : Nat :=
  if event = 0x010 then m
  else if 0x070 ≤ event ∧ event < 0x090 then 2 * m
  else (n + m) * 3 / 2 - n * 3 / 2

/-- What a counter gains in the `m` ticks to come: ticks, or cycles in which its level condition is true. -/
def State.pctGain (s : State) (p : Pct) (m : Nat) : Nat :=
  if p.event = 0x002 then m
  else if p.level && s.pctCond p.event p.unit then levelCycles p.event s.tick.count m
  else 0

/-- The ticks after tick `n` until `need` cycles of an event's clock have passed. -/
def ticksOfCycles (event n need : Nat) : Nat :=
  if event = 0x002 ∨ event = 0x010 then need
  else if 0x070 ≤ event ∧ event < 0x090 then ceilDiv need 2
  else ceilDiv (2 * (need + n * 3 / 2)) 3 - n

/-- The counters that wrap in the `m` ticks to come, each with the ticks until it does. -/
def State.wraps (s : State) (m : Nat) : List (Nat × Nat) :=
  s.pct.filterMap (fun cp =>
    if cp.2.count + s.pctGain cp.2 m < 2 ^ 48 then none
    else some (ticksOfCycles cp.2.event s.tick.count (2 ^ 48 - cp.2.count), cp.1))

/-- Puts one wrap in its place among others, the earliest first. -/
def wrapInto (w : Nat × Nat) : List (Nat × Nat) → List (Nat × Nat)
  | [] => [w]
  | v :: rest => if w.1 ≤ v.1 then w :: v :: rest else v :: wrapInto w rest

/-- From `a` to `b` ticks on: another cycle, where they differ, in which a vector may send its message again (R368). -/
def cycleTo (a b : Nat) (s : State) : State := if a = b then s else { s with cycle := s.cycle + 1 }

/-- What `m` ticks add to the counters; those that wrap do so in the order of their ticks (R466). -/
def countTicks (m : Nat) (s : State) : State :=
  let ws := (s.wraps m).foldr wrapInto []
  let t := s.pct.foldl (fun t cp => addPct cp.1 (s.pctGain cp.2 m) t) s
  let r := ws.foldl (fun (q : State × Nat) w => (raisePctOvf w.2 (cycleTo q.2 w.1 q.1), w.1)) (t, 0)
  cycleTo r.2 m r.1

/-- Lets `m` ticks of the tick domain pass (log entry 1). -/
def State.advance (s : State) (m : Nat) : State :=
  let s := countTicks m s
  let e := s.stretch.run m
  { s with
    tick := { s.tick with
      count := e.at_, bank0 := e.bank0, bank1 := e.bank1
      trail := if m = 0 then s.tick.trail else s.stretch.note s.tick.trail }
    lanes := s.lanes.map (fun p => (p.1, p.2.run m)) }

/-- Lets time run until TS0 reads at least `target` (2^-16 ns); nothing where it does already (log entry 1). -/
def State.waitTs0 (s : State) (target : Nat) : State := s.advance (s.tick.bank0.ticksTo target)

/-- Lets time run until a duration has passed, its end given on the clock of durations; nothing where it has already (log entries 1
and 94). -/
def State.waitClk (s : State) (target : Nat) : State := s.advance (s.tick.bank0.ticksOver (target * 2 ^ 32 - s.tick.bank0.ran))

/-- Lets time run until the tick counter stands at `n` or beyond. -/
def State.waitTick (s : State) (n : Nat) : State := s.advance (n - s.tick.count)

end Sys2Proof.Machine
end

