-- ==== Sys2Proof/Machine/Packet.lean ====
section
/-! DEFINITION. Frames as bytes: Ethernet, tags, IPv4, IPv6, UDP, their checksums and the receive checks of R233; building the
frames the device sends (R252, R253, R261). -/

namespace Sys2Proof.Machine

/-! ### Checksums -/

/-- Sum of the 16-bit big-endian words of bytes. -/
def wordSum : List Nat → Nat → Nat
  | [], a => a
  | [b], a => a + b * 256
  | b :: c :: r, a => wordSum r (a + b * 256 + c)

/-- One folding of carries into 16 bits. -/
def fold16 (n : Nat) : Nat := n % 65536 + n / 65536

/-- Ones'-complement sum. -/
def onesSum (bs : List Nat) : Nat := fold16 (fold16 (fold16 (wordSum bs 0)))

/-- The Internet checksum. -/
def checksum (bs : List Nat) : Nat := 0xFFFF - onesSum bs

/-- Replaces the bytes at an offset. -/
def setBytes (bs : List Nat) (ofs : Nat) (new : List Nat) : List Nat :=
  bs.take ofs ++ new ++ bs.drop (ofs + new.length)

/-- The bytes at an offset. -/
def slice (bs : List Nat) (ofs n : Nat) : List Nat := (bs.drop ofs).take n

/-! ### Ethernet -/

/-- Whether an EtherType is a VLAN tag's. -/
def isTpid (e : Nat) : Bool := e = 0x8100 || e = 0x88A8

/-- Up to `n` tags from an offset, each as TPID and TCI in one 32-bit number. -/
def tagsFrom : Nat → List Nat → Nat → List Nat
  | 0, _, _ => []
  | n + 1, bs, ofs => if isTpid (beAt bs ofs 2) then beAt bs ofs 4 :: tagsFrom n bs (ofs + 4) else []

/-- A frame without FCS, read up to its EtherType; at most three tags are looked for. -/
structure Eth where
  bytes : List Nat := []
  dst : Nat := 0
  src : Nat := 0
  tags : List Nat := []
  etype : Nat := 0
  l3 : Nat := 0
deriving DecidableEq, Repr

/-- Reads a frame. -/
def Eth.parse (bs : List Nat) : Eth :=
  let t := tagsFrom 3 bs 12
  { bytes := bs, dst := beAt bs 0 6, src := beAt bs 6 6, tags := t, etype := beAt bs (12 + 4 * t.length) 2, l3 := 14 + 4 * t.length }

/-- A tag as TPID and VID. -/
def tagId (t : Nat) : Nat × Nat := (t / 65536, t % 4096)

/-- The tags that count: a tag with VID 0 counts as none (R251). -/
def Eth.tagKey (e : Eth) : List (Nat × Nat) := (e.tags.map tagId).filter (fun p => p.2 ≠ 0)

/-- Whether a destination is a group address. -/
def isGroup (mac : Nat) : Bool := bit mac 40

def macBcast : Nat := 0xFFFFFFFFFFFF

/-! ### IP -/

/-- An IP header: family, addresses, protocol, where its payload starts and how long it is, whether it stops the responders
(options, a fragment, or an extension header), its DSCP, and its hop limit. -/
structure Ip where
  v6 : Bool := false
  src : List Nat := []
  dst : List Nat := []
  proto : Nat := 0
  l4 : Nat := 0
  len : Nat := 0
  odd : Bool := false
  dscp : Nat := 0
  hop : Nat := 0
deriving DecidableEq, Repr

/-- The IPv6 extension headers. -/
def isExtHdr (nh : Nat) : Bool := nh ∈ [0, 43, 44, 50, 51, 60, 135, 139, 140]

/-- Reads the outermost IP header of a frame. -/
def Eth.ip (e : Eth) : Option Ip :=
  let b := e.bytes
  let o := e.l3
  if e.etype = 0x0800 then
    let ihl := b.getD o 0 % 16
    some { v6 := false, src := slice b (o + 12) 4, dst := slice b (o + 16) 4, proto := b.getD (o + 9) 0, l4 := o + ihl * 4,
           len := beAt b (o + 2) 2 - ihl * 4, odd := decide (5 < ihl) || decide (beAt b (o + 6) 2 % 16384 ≠ 0),
           dscp := b.getD (o + 1) 0 / 4, hop := b.getD (o + 8) 0 }
  else if e.etype = 0x86DD then
    some { v6 := true, src := slice b (o + 8) 16, dst := slice b (o + 24) 16, proto := b.getD (o + 6) 0, l4 := o + 40,
           len := beAt b (o + 4) 2, odd := isExtHdr (b.getD (o + 6) 0), dscp := beAt b o 2 / 64 % 64, hop := b.getD (o + 7) 0 }
  else none

/-- The pseudo-header's bytes. -/
def pseudo (src dst : List Nat) (proto len : Nat) : List Nat := src ++ dst ++ be 4 len ++ be 4 proto

/-- Whether UDP directly follows the IP header: not a fragment, no extension header (R233). -/
def Eth.plainUdp (e : Eth) (p : Ip) : Bool :=
  decide (p.proto = 17) && (if p.v6 then !p.odd else decide (beAt e.bytes (e.l3 + 6) 2 % 16384 = 0))

/-- Length of the UDP datagram as its header has it. -/
def Eth.udpLen (e : Eth) (p : Ip) : Nat := beAt e.bytes (p.l4 + 4) 2

/-- The UDP payload, by the UDP length (R233, R258). -/
def Eth.udpPayload (e : Eth) (p : Ip) : List Nat := slice e.bytes (p.l4 + 8) (e.udpLen p - 8)

/-- Whether a UDP checksum is good: over IPv4 0 passes, over IPv6 it fails (R233). -/
def Eth.udpSumOk (e : Eth) (p : Ip) : Bool :=
  if beAt e.bytes (p.l4 + 6) 2 = 0 then !p.v6
  else decide (onesSum (pseudo p.src p.dst 17 (e.udpLen p) ++ slice e.bytes p.l4 (e.udpLen p)) = 0xFFFF)

/-- Checks 5 to 7 of R233: the counter of the first that fails. -/
def Eth.ipCheck (e : Eth) : Option Nat :=
  let room := e.bytes.length - e.l3
  match e.ip with
  | none => none
  | some p =>
    let ver := e.bytes.getD e.l3 0 / 16
    let ihl := e.bytes.getD e.l3 0 % 16
    if !p.v6 && (decide (ver ≠ 4) || decide (ihl < 5) || decide (onesSum (slice e.bytes e.l3 (ihl * 4)) ≠ 0xFFFF)) then some 14
    else if p.v6 && decide (ver ≠ 6) then some 63
    else if !p.v6 && (decide (room < beAt e.bytes (e.l3 + 2) 2) || decide (beAt e.bytes (e.l3 + 2) 2 < ihl * 4)) then some 16
    else if p.v6 && decide (room < 40 + p.len) then some 16
    else if e.plainUdp p && (decide (e.udpLen p < 8) || decide (p.len < e.udpLen p)) then some 16
    else if e.plainUdp p && !e.udpSumOk p then some 15
    else none

/-- Whether a frame's FCS checks. -/
def fcsOk (bs : List Nat) : Bool := decide (leAt bs (bs.length - 4) 4 = crc32 (bs.take (bs.length - 4)))

/-- The checks of R233 on a frame with its FCS, in the order of the table: the counter of the first that fails. -/
def rxCheck (codeErr : Bool) (maxLen : Nat) (bs : List Nat) : Option Nat :=
  let ok := fcsOk bs
  let e := Eth.parse (bs.take (bs.length - 4))
  if codeErr then some 13
  else if bs.length < 64 then some (if ok then 8 else 9)
  else if maxLen < bs.length then some (if ok then 10 else 11)
  else if !ok then some 12
  else if 2 < e.tags.length then some 58
  else e.ipCheck

/-! ### mPackets (R242-R244): the octets of IEEE 802.3br (log entry 101) -/

/-- The start delimiters: SMD-E, SMD-V, SMD-R, SMD-S0 to SMD-S3, SMD-C0 to SMD-C3, and the fragment counts. -/
def smdExpress : Nat := 0xD5
def smdVerify : Nat := 0x07
def smdRespond : Nat := 0x19
def smdStarts : List Nat := [0xE6, 0x4C, 0x7F, 0xB3]
def smdConts : List Nat := [0x61, 0x52, 0x9E, 0x2A]
def fragCounts : List Nat := [0xE6, 0x4C, 0x7F, 0xB3]

/-- The mCRC of what has been sent of a frame so far: its CRC with the last 16 bits sent inverted. -/
def mcrc (bs : List Nat) : Nat := crc32 bs ^^^ 0xFFFF0000

/-- The delimiter of a frame's first fragment, or of a later one with its fragment count. -/
def mpacketHead (count frags : Nat) : List Nat :=
  if frags = 0 then [smdStarts.getD (count % 4) 0] else [smdConts.getD (count % 4) 0, fragCounts.getD ((frags - 1) % 4) 0]

/-- The octets of a verify or respond mPacket before its mCRC. -/
def verifyBody : List Nat := List.replicate 60 0

/-- Whether the last four bytes are the mCRC of those before them, after the bytes of earlier fragments. -/
def mcrcOk (before bs : List Nat) : Bool := decide (leAt bs (bs.length - 4) 4 = mcrc (before ++ bs.take (bs.length - 4)))

/-! ### Building -/

/-- An Ethernet header. -/
def ethHeader (dst src : Nat) (tags : List Nat) (etype : Nat) : List Nat :=
  be 6 dst ++ be 6 src ++ tags.flatMap (be 4) ++ be 2 etype

/-- Pads a frame to 60 bytes. -/
def pad60 (bs : List Nat) : List Nat := bs ++ List.replicate (60 - bs.length) 0

/-- A UDP datagram in its frame, checksums still 0 (R261): the IPv4 header has identification 0 and DF set. -/
def udpFrame (dst src : Nat) (tags : List Nat) (v6 : Bool) (ipSrc ipDst : List Nat) (dscp ttl sport dport : Nat) (payload : List Nat) :
    List Nat :=
  let len := 8 + payload.length
  let udp := be 2 sport ++ be 2 dport ++ be 2 len ++ [0, 0] ++ payload
  if v6 then
    ethHeader dst src tags 0x86DD ++ be 4 (6 * 2 ^ 28 + dscp * 2 ^ 22) ++ be 2 len ++ [17, ttl] ++ ipSrc ++ ipDst ++ udp
  else
    ethHeader dst src tags 0x0800 ++ [0x45, dscp * 4] ++ be 2 (20 + len) ++ [0, 0, 0x40, 0, ttl, 17, 0, 0] ++ ipSrc ++ ipDst ++ udp

/-- Computes the IPv4 header checksum of a frame (R238). -/
def sumIp4 (bs : List Nat) : List Nat :=
  let e := Eth.parse bs
  if e.etype = 0x0800 then
    let z := setBytes bs (e.l3 + 10) [0, 0]
    setBytes z (e.l3 + 10) (be 2 (checksum (slice z e.l3 (bs.getD e.l3 0 % 16 * 4))))
  else bs

/-- Computes the UDP checksum of a frame; 0x0000 is sent as 0xFFFF (R238). -/
def sumUdp (bs : List Nat) : List Nat :=
  let e := Eth.parse bs
  match e.ip with
  | some p =>
    if e.plainUdp p then
      let z := setBytes bs (p.l4 + 6) [0, 0]
      let c := checksum (pseudo p.src p.dst 17 (e.udpLen p) ++ slice z p.l4 (e.udpLen p))
      setBytes z (p.l4 + 6) (be 2 (if c = 0 then 0xFFFF else c))
    else bs
  | none => bs

/-- Where the message of a device-generated frame starts: after UDP, or after the EtherType. -/
def payloadOfs (bs : List Nat) : Nat :=
  let e := Eth.parse bs
  match e.ip with
  | some p => p.l4 + 8
  | none => e.l3

/-- The ARP reply to a request (R252). -/
def arpReply (e : Eth) (mac : Nat) : List Nat :=
  pad60 (ethHeader e.src mac e.tags 0x0806 ++ [0, 1, 8, 0, 6, 4, 0, 2] ++ be 6 mac ++ slice e.bytes (e.l3 + 24) 4
    ++ slice e.bytes (e.l3 + 8) 10)

/-- ff02::1 and ff02::101. -/
def allNodes : List Nat := [0xFF, 2] ++ List.replicate 13 0 ++ [1]
def allNtp : List Nat := [0xFF, 2] ++ List.replicate 12 0 ++ [1, 1]

/-- The Neighbor Advertisement for a target (R253): S and the destination by whether the solicitation's source is unicast. -/
def neighborAdv (e : Eth) (p : Ip) (mac : Nat) (unicast : Bool) : List Nat :=
  let target := slice e.bytes (p.l4 + 8) 16
  let dst := if unicast then p.src else allNodes
  let body (c : Nat) := [136, 0] ++ be 2 c ++ be 4 (if unicast then 0x60000000 else 0x20000000) ++ target ++ [2, 1] ++ be 6 mac
  let c := checksum (pseudo target dst 58 32 ++ body 0)
  ethHeader (if unicast then e.src else 0x333300000001) mac e.tags 0x86DD ++ be 4 (6 * 2 ^ 28) ++ be 2 32 ++ [58, 255] ++ target ++ dst
    ++ body c

/-! ### Service address entries (R250, R251) -/

/-- Word `k` of an entry. -/
def svcWord (e : List Nat) (k : Nat) : Nat := e.getD k 0

def svcValid (e : List Nat) : Bool := bit (svcWord e 0) 0

/-- The tags of an entry as TPID and VID. -/
def svcTags (e : List Nat) : List (Nat × Nat) :=
  let vid := svcWord e 1 % 4096
  match bits (svcWord e 0) 2 1 with
  | 1 => [(0x8100, vid)]
  | 2 => [(if bit (svcWord e 0) 3 then 0x88A8 else 0x8100, vid), (0x8100, svcWord e 1 / 65536 % 4096)]
  | _ => []

/-- The address of an entry of a family. -/
def svcAddr (v6 : Bool) (e : List Nat) : List Nat :=
  if v6 then (slice e 2 4).flatMap (be 4) else be 4 (svcWord e 2)

/-- The entry's tags as sent by the device on its own account, with PCP and DEI 0. -/
def svcTagWords (e : List Nat) : List Nat := (svcTags e).map (fun t => t.1 * 65536 + t.2)

/-- An entry as written from the staging registers, reserved bits dropped. -/
def svcEntry (d : List Nat) : List Nat := setBytes d 0 [svcWord d 0 % 16, svcWord d 1 % 4096 + svcWord d 1 / 65536 % 4096 * 65536]

/-- Indices of a family. -/
def svcIds (v6 : Bool) : List Nat := (List.range 64).map (· + (if v6 then 64 else 0))

end Sys2Proof.Machine
end

