-- ==== Sys2Proof/Machine/Timescale.lean ====
section
/-! DEFINITION. The Keeper timescale (02): increments, slews, steps, snapshots, the switch, UTC and leap seconds. -/

namespace Sys2Proof.Machine

/-! ### Increment (R48-R51) -/

/-- Lowest and highest increment accepted, 1.25 ns within 1,000 ppm, in 2^-48 ns (R49). -/
def incrMin : Nat := (1248750 * 2 ^ 48 + 999999) / 1000000
def incrMax : Nat := 1251250 * 2 ^ 48 / 1000000

/-- Whether a bank is steered by the host (R51). -/
def State.hostOwns (s : State) : Bank → Bool
  | .ts0 => s.on R.TSC_CTL_OWN0
  | .ts1 => s.on R.TSC_CTL_OWN1

/-- Whether a steering command of `src` acts on the bank (R51). -/
def State.ownerIs (s : State) (b : Bank) (src : Steerer) : Bool :=
  match src with
  | .host => s.hostOwns b
  | .ensemble => !s.hostOwns b

/-- A write to one of the increment registers changes the staging copy only (R50): `part` 0 INT_NS, 1 FRAC_HI, 2 FRAC_LO. -/
def stageIncr (b : Bank) (part w : Nat) (s : State) : State :=
  s.modBank b (fun k =>
    let old := k.staged
    { k with staged :=
        if part = 0 then w % 2 ^ 8 * 2 ^ 48 + old % 2 ^ 48
        else if part = 1 then old / 2 ^ 48 * 2 ^ 48 + w % 2 ^ 16 * 2 ^ 32 + old % 2 ^ 32
        else old / 2 ^ 32 * 2 ^ 32 + w % 2 ^ 32 })

/-- APPLY by the owner: the staged increment comes in force, or is rejected outside the range of R49. -/
def applyIncr (b : Bank) (s : State) : State :=
  let v := (s.tick.bank b).staged
  if incrMin ≤ v ∧ v ≤ incrMax then s.modBank b (fun k => { k with incr := v })
  else s.hi (R.TSC_INCR_CTL_REJECTED (bankNo b))

/-- A write of TSC_INCR_CTL (R50, R51). -/
def writeIncrCtl (b : Bank) (src : Steerer) (w : Nat) (s : State) : State :=
  let s := s.storeReg false (Reg.TSC_INCR_CTL (bankNo b)) w
  if (R.TSC_INCR_CTL_APPLY (bankNo b)).of w = 1 then
    if s.ownerIs b src then applyIncr b s
    else if src = .host then s.hi (R.TSC_INCR_CTL_IGNORED (bankNo b)) else s
  else s

def execIncrApply (b : Bank) (src : Steerer) (w : Word) : State → Res State :=
  go (writeIncrCtl b src ((R.TSC_INCR_CTL_APPLY (bankNo b)).setIn w.toNat))

/-! ### Slews (R52-R54) -/

/-- The slew of offset `o` (2^-16 ns) over `n` ticks (R52). -/
def Slew.make (o : Int) (n : Nat) : Slew :=
  { o := o, n := n, q := (o * 2 ^ 32).tdiv n, r := (o * 2 ^ 32).tmod n, k := 0 }

/-- SLEW_MAX in ppm: 0 is treated as 1, values above 100 as 100. -/
def State.slewMaxPpm (s : State) : Nat := max 1 (min 100 (s.rd R.TSC_CTL_SLEW_MAX))

/-- Writes the remainder registers (R54). -/
def setLeft (b : Bank) (v : Int) (s : State) : State :=
  (s.wr (R.TSC_SLEW_LEFT_LO_LEFT (bankNo b)) (ofSigned 48 v)).wr (R.TSC_SLEW_LEFT_HI_LEFT (bankNo b))
    (ofSigned 48 v / 2 ^ 32)

/-- Starts a slew on a bank at the tick the domain stands at. -/
def startSlew (b : Bank) (o : Int) (n : Nat) (s : State) : State :=
  s.modBank b (fun k => { k with slew := Slew.make o n, slewFrom := s.tick.count })

/-- Ends a running slew without completing it: ABORTED is set and the remainder kept (R54, R60, R64). -/
def abortSlew (b : Bank) (s : State) : State :=
  if s.on (R.TSC_SLEW_CTL_ACTIVE (bankNo b)) then
    (((setLeft b (s.tick.bank b).slew.left s).modBank b (fun k => { k with slew := {} })).lo
      (R.TSC_SLEW_CTL_ACTIVE (bankNo b))).hi (R.TSC_SLEW_CTL_ABORTED (bankNo b))
  else s

/-- Whether R53 refuses a slew of `o` (2^-16 ns) over `d` µs at a rate limit of `ppm`, or R61 because a step of the timescale has been
applied at this tick. -/
def slewRefused (s : State) (b : Bank) (o : Int) (d ppm : Nat) : Bool :=
  d = 0 || decide (o.natAbs * 1000 > ppm * 65536 * d) || (b = .ts0 && s.on R.TSC_SWITCH_CTL_ACTIVE)
    || (s.tick.bank b).stepTick = some s.tick.count

/-- The slew a GO at this tick replaces: the one that ran as the tick began, however many GOs have come in it since. -/
def State.slewBefore (s : State) (b : Bank) : Slew :=
  let k := s.tick.bank b
  if s.on (R.TSC_SLEW_CTL_ACTIVE (bankNo b)) then (if k.slewFrom = s.tick.count then k.slewOld else k.slew) else {}

/-- GO by the owner: starts or replaces a slew, or sets REJECTED (R52-R54). -/
def slewGo (b : Bank) (o : Int) (d : Nat) (s : State) : State :=
  if slewRefused s b o d s.slewMaxPpm then s.hi (R.TSC_SLEW_CTL_REJECTED (bankNo b))
  else
    let old := s.slewBefore b
    ((startSlew b o (800 * d) s).modBank b (fun k => { k with slewOld := old })).hi (R.TSC_SLEW_CTL_ACTIVE (bankNo b))

/-- The offset staged in TSC_SLEW_OFS. -/
def State.slewOfs (s : State) (b : Bank) : Int :=
  toSigned 48 (s.rd (R.TSC_SLEW_OFS_LO_OFS (bankNo b)) + s.rd (R.TSC_SLEW_OFS_HI_OFS (bankNo b)) * 2 ^ 32)

/-- A write of TSC_SLEW_CTL (R51-R54): ABORT ends a running slew, then GO starts one.  That a write with both acts in this order, with
ABORTED set for the slew that ran, is the model's choice (DESIGN CHOICE, log entry 97: R54 says nothing of both in one write). -/
def writeSlewCtl (b : Bank) (src : Steerer) (w : Nat) (s : State) : State :=
  let s := s.storeReg false (Reg.TSC_SLEW_CTL (bankNo b)) w
  let s := if (R.TSC_SLEW_CTL_ABORT (bankNo b)).of w = 1 then abortSlew b s else s
  if (R.TSC_SLEW_CTL_GO (bankNo b)).of w = 1 then
    if s.ownerIs b src then slewGo b (s.slewOfs b) (s.rd (R.TSC_SLEW_DUR_DUR (bankNo b))) s
    else if src = .host then s.hi (R.TSC_SLEW_CTL_IGNORED (bankNo b)) else s
  else s

def execSlewGo (b : Bank) (src : Steerer) (w : Word) : State → Res State :=
  go (writeSlewCtl b src ((R.TSC_SLEW_CTL_GO (bankNo b)).setIn w.toNat))

def execSlewAbort (b : Bank) (w : Word) : State → Res State :=
  go (writeSlewCtl b .host
    ((R.TSC_SLEW_CTL_ABORT (bankNo b)).setIn ((R.TSC_SLEW_CTL_GO (bankNo b)).clearIn w.toNat)))

/-- A slew that GO started completes at the end of its N ticks (R54). -/
def slewDone (b : Bank) (s : State) : State :=
  if s.on (R.TSC_SLEW_CTL_ACTIVE (bankNo b)) then
    let v := (s.tick.bank b).slew
    let s := s.advance (v.n - v.k)
    if (s.tick.bank b).slew.k = (s.tick.bank b).slew.n then
      (((setLeft b 0 s).modBank b (fun k => { k with slew := {} })).lo (R.TSC_SLEW_CTL_ACTIVE (bankNo b))).hi
        (R.TSC_SLEW_CTL_DONE (bankNo b))
    else s
  else s

def execSlewDone (b : Bank) : State → Res State := go (slewDone b)

/-! ### Steps (R55-R60) -/

/-- The step value registers as a Keeper time in 2^-16 ns. -/
def State.stepValue (s : State) (b : Bank) : Nat :=
  sec16 (s.rd (R.TSC_STEP_SEC_LO_SEC (bankNo b)) + s.rd (R.TSC_STEP_SEC_HI_SEC (bankNo b)) * 2 ^ 32)
    + ns16 (s.rd (R.TSC_STEP_NS_NS (bankNo b))) + s.rd (R.TSC_STEP_FRAC_FRAC (bankNo b))

/-- Whether a step GO is accepted from a source (R56). -/
def State.stepAccepted (s : State) (b : Bank) : StepSource → Bool
  | .sender .pf1 => true
  | .ensemble => b = .ts1 || !s.on R.TSC_STAT_SERVED
  | _ => false

/-- Whether a pending step may no longer land: one of TS0 that the ensemble pended before SERVED was set (R17). -/
def State.stepBarred (s : State) (b : Bank) : Bool := b = .ts0 && (s.tick.bank b).stepBy = 0 && s.on R.TSC_STAT_SERVED

/-- The cases in which R59 refuses a step. -/
def State.stepDenied (s : State) (b : Bank) (ns : Nat) : Bool :=
  decide (ns ≥ 1000000000) || s.on (R.TSC_STEP_CTL_PENDING (bankNo b))
    || (b = .ts0 && s.on R.TSC_SWITCH_CTL_ACTIVE) || (b = .ts1 && !s.on R.TSC_CTL_TS1_EN)

/-- The sender ID a step is logged with: 0 for the ensemble. -/
def stepSenderId : StepSource → Nat
  | .ensemble => 0
  | .sender x => senderId x

/-- A step becomes pending: it lands at the second epoch marker from here (R58). -/
def pendStep (b : Bank) (d : Int) (src : StepSource) (s : State) : State :=
  (s.modBank b (fun k => { k with stepDelta := d, stepMarkers := 2, stepBy := stepSenderId src })).hi
    (R.TSC_STEP_CTL_PENDING (bankNo b))

/-- The relative step a GO asks for: an absolute one is the requested value less the counter's reading (R57). -/
def State.stepOffset (s : State) (b : Bank) : Int :=
  if s.on (R.TSC_STEP_CTL_MODE (bankNo b)) then (s.stepValue b : Int) - (s.tsOf b : Int)
  else if s.on (R.TSC_STEP_CTL_NEG (bankNo b)) then -(s.stepValue b : Int) else (s.stepValue b : Int)

/-- DENIED is set, which ends a STEP command that waits (R59, R435). -/
def denyStep (b : Bank) (s : State) : State := endUnit 0x0211 (bankNo b) 4 2 [] (s.hi (R.TSC_STEP_CTL_DENIED (bankNo b)))

/-- DONE is set, which ends a STEP command that waits, its reply the reading at the step's tick before the step (R58, R435). -/
def reportStep (b : Bank) (s : State) : State :=
  endUnit 0x0211 (bankNo b) 0 0 (ktBytes (s.tick.bank b).stepRead)
    ((s.lo (R.TSC_STEP_CTL_PENDING (bankNo b))).hi (R.TSC_STEP_CTL_DONE (bankNo b)))

/-- A write of TSC_STEP_CTL (R56-R59). -/
def writeStepCtl (b : Bank) (src : StepSource) (w : Nat) (s : State) : State :=
  let s := s.storeReg false (Reg.TSC_STEP_CTL (bankNo b)) w
  if (R.TSC_STEP_CTL_GO (bankNo b)).of w = 1 then
    if s.stepAccepted b src && !s.stepDenied b (s.rd (R.TSC_STEP_NS_NS (bankNo b))) then
      pendStep b (s.stepOffset b) src s
    else denyStep b s
  else s

def execStepGo (b : Bank) (src : StepSource) (w : Word) : State → Res State :=
  go (writeStepCtl b src ((R.TSC_STEP_CTL_GO (bankNo b)).setIn w.toNat))

/-- What a slew on a bank comes to when a step is applied at this tick: one that GO started at this very tick is discarded
with REJECTED, and the one that ran as the tick began is aborted (R60, R61). -/
def slewMeetsStep (b : Bank) (s : State) : State :=
  if s.on (R.TSC_SLEW_CTL_ACTIVE (bankNo b)) ∧ (s.tick.bank b).slewFrom = s.tick.count then
    let old := (s.tick.bank b).slewOld
    let s := ((s.modBank b (fun k => { k with slew := {} })).lo (R.TSC_SLEW_CTL_ACTIVE (bankNo b))).hi
      (R.TSC_SLEW_CTL_REJECTED (bankNo b))
    if old.n = 0 then s else (setLeft b old.left s).hi (R.TSC_SLEW_CTL_ABORTED (bankNo b))
  else abortSlew b s

/-- A lane at a step of TS0 by `d` (R29): the slave, once loaded, takes the same step at the same instant, and the time the last pulse
carried is read in the stepped timescale. -/
def Lane.step (l : Lane) (d : Int) : Lane :=
  { l with
    slave := if l.loaded then (((l.slave : Int) + d * 2 ^ 32) % (wrapTs : Int)).toNat else l.slave
    pulseTime := moveTs l.pulseTime d
    notice := none }

/-- Writes a bank's snapshot registers. -/
def setSnap (b : Nat) (t : Nat) (s : State) : State :=
  (((s.wr (R.TSC_SNAP_FRAC_FRAC b) t).wr (R.TSC_SNAP_NS_NS b) (t / 65536 % 1000000000)).wr
    (R.TSC_SNAP_SEC_LO_SEC b) (t / 65536 / 1000000000)).wr (R.TSC_SNAP_SEC_HI_SEC b) (t / 65536 / 1000000000 / 2 ^ 32)

/-- The snapshot registers take both readings and their difference, all of this tick. -/
def latchSnap (s : State) : State :=
  let d := satBits 48 s.tsDiff
  let t := setSnap 1 s.ts1 (setSnap 0 s.ts0 s)
  (t.wr R.TSC_SNAP_DIFF_LO_DIFF d).wr R.TSC_SNAP_DIFF_HI_DIFF (d / 2 ^ 32)

/-- A reading has changed at this tick: a snapshot latched at the same tick shows the value after the change (R26, R61). -/
def snapAgain (s : State) : State := if s.tick.latchAt = some s.tick.count then latchSnap s else s

/-- No reading counts any longer as one before a leap that is over: a time that comes again, or an offset written, is converted by OFS as it
stands (R66). -/
def forgetPast (s : State) : State :=
  { s with tick := { s.tick with past := {}, leap := { s.tick.leap with back := s.tick.leap.ofsDone } } }

/-- A TS1 that follows TS0 takes its step with it (R63). -/
def followStep (d : Int) (s : State) : State :=
  if s.on R.TSC_CTL_TS1_EN then s else s.modBank .ts1 (fun k => k.step d)

/-- The counter moves, the slew ends, and the step is reported (R58-R60).  A step of TS0 moves every lane with it and sets TIME_SET. -/
def moveByStep (b : Bank) (s : State) : State :=
  let k := s.tick.bank b
  let d := k.stepDelta
  let old := s.tsOf b
  let s := slewMeetsStep b s
  let s := s.modBank b (fun k => { (k.step d) with stepDelta := 0, stepMarkers := 0, stepRead := old, stepTick := some s.tick.count })
  let s := if b = .ts0 then followStep d { s with lanes := s.lanes.map (fun p => (p.1, p.2.step d)) } else s
  let s := if b = .ts0 ∧ d < 0 then forgetPast s else s
  let s := snapAgain s
  let s := reportStep b s
  let s := if b = .ts0 then s.hi R.TSC_STAT_TIME_SET else s
  s.logRec 0x0201 (bankNo b + (if d < 0 then 128 else 0)) k.stepBy (ktBytes d.natAbs)

/-- A pending step that R17 no longer allows is dropped at its tick: DENIED, nothing moved and no record (DESIGN CHOICE, log entry 103: R58
has an accepted step applied, R17 has TS0 stepped by the host alone once SERVED is set). -/
def dropStep (b : Bank) (s : State) : State :=
  denyStep b ((s.modBank b (fun k => { k with stepDelta := 0, stepMarkers := 0 })).lo (R.TSC_STEP_CTL_PENDING (bankNo b)))

/-- Whether a step is due: pending, with its second marker emitted (R58). -/
def State.stepDue (s : State) (b : Bank) : Bool :=
  s.on (R.TSC_STEP_CTL_PENDING (bankNo b)) && (s.tick.bank b).stepMarkers = 0

/-- The next marker's tick: markers fall every 8,192 ticks from tick 0. -/
def State.nextMarker (s : State) : Nat := (s.tick.markerAt.getD 0 / 8192 + 1) * 8192

/-- Ticks until the pending step of a timescale is applied, none where none is pending that may be (R17, R58). -/
def State.stepAhead (s : State) (b : Bank) : Option Nat :=
  if s.on (R.TSC_STEP_CTL_PENDING (bankNo b)) && !s.stepBarred b then
    some (match (s.tick.bank b).stepMarkers with
      | 0 => 0
      | n + 1 => s.nextMarker + n * 8192 - s.tick.count)
  else none

/-- The counter as its pending step, `m` ticks on, leaves it (R58, R60). -/
def TickBank.stepped (k : TickBank) (m : Nat) : TickBank := { ((k.run m).step k.stepDelta) with slew := {} }

/-! ### Scheduled instants (R281, R329) -/

/-- The first instant of TS0 that the current tick brings: what lies after its reading one tick ago, or, where a step has just moved it, its
reading (2^-16 ns). -/
def State.tickFrom (s : State) : Nat :=
  let b := s.tick.bank0
  let gain := b.incr + b.slew.q.natAbs + 1
  if b.stepTick = some s.tick.count then s.ts0 else if b.ts < gain then 0 else (b.ts - gain) / 2 ^ 32 + 1

/-- The first instant still to come up: of the current tick, or, where one of it has been skipped already, of the next. -/
def State.openFrom (s : State) (skipped : Option Nat) : Nat := if skipped = some s.tick.count then s.ts0 + 1 else s.tickFrom

/-! ### Snapshots (R62) -/

/-- A write of TSC_SNAP_CTL: TAKE clears VALID and asks for a latch; a TAKE before the latch changes nothing more (R61, R62). -/
def writeSnapCtl (w : Nat) (s : State) : State :=
  if R.TSC_SNAP_CTL_TAKE.of w = 1 then
    let s := s.lo R.TSC_SNAP_CTL_VALID
    if s.on R.TSC_SNAP_CTL_TAKE then s
    else ({ s with tick := { s.tick with takeAt := s.tick.count } }).hi R.TSC_SNAP_CTL_TAKE
  else s

def execSnapTake (w : Word) : State → Res State :=
  go (writeSnapCtl (R.TSC_SNAP_CTL_TAKE.setIn w.toNat))

/-- The latch, two ticks or more after TAKE (R62).  It stands until the next TAKE whatever TS1_EN becomes meanwhile: that the difference
latched before TS1_EN was cleared is kept too, although R63 has TSC_SNAP_DIFF read 0 then, is the model's choice (DESIGN CHOICE, log entry
97). -/
def snapLatch (s : State) : State :=
  if s.on R.TSC_SNAP_CTL_TAKE then
    let s := s.waitTick (s.tick.takeAt + 2)
    let s := latchSnap { s with tick := { s.tick with latchAt := some s.tick.count } }
    (s.lo R.TSC_SNAP_CTL_TAKE).hi R.TSC_SNAP_CTL_VALID
  else s

def execSnapLatch : State → Res State := go snapLatch

/-! ### TSC_CTL (R51, R63) -/

/-- A counter loaded with a value, in 2^-48 ns: the move, the nearer way round, is phase given (R88). -/
def TickBank.load (k : TickBank) (ts : Nat) : TickBank :=
  let d := ((ts : Int) - (k.ts : Int)) % (wrapTs : Int)
  { k with ts := ts, phaseAcc := k.phaseAcc + (if d * 2 ≥ (wrapTs : Int) then d - wrapTs else d) }

/-- A write of TSC_CTL: ownership changes at once; TS1 starts from TS0's value and increment when TS1_EN rises, and is
reloaded from TS0's value when it falls.  A running slew of TS1, its pending step, its staged increment and, when TS1_EN falls, its
increment in force stay as they are (DESIGN CHOICE, log entry 97: the spec says nothing of them).  What a reload moves TS1 by is phase its
filter counts (R88). -/
def writeTscCtl (w : Nat) (s : State) : State :=
  let was := s.on R.TSC_CTL_TS1_EN
  let s := s.storeReg false Reg.TSC_CTL w
  let now := s.on R.TSC_CTL_TS1_EN
  if now && !was then snapAgain (s.modBank .ts1 (fun k => { (k.load s.tick.bank0.ts) with incr := s.tick.bank0.incr }))
  else if was && !now then snapAgain (s.modBank .ts1 (fun k => k.load s.tick.bank0.ts))
  else s

def execTs1Enable (w : Word) : State → Res State := go (writeTscCtl w.toNat)

def execOwnershipChange (w : Word) : State → Res State := go (fun s => writeTscCtl w.toNat s)

/-! ### UTC, NTP and leap seconds (R66-R74) -/

/-- currentUtcOffset in force, in seconds. -/
def State.utcOfs (s : State) : Int := s.rdSigned R.TSC_UTC_OFS_OFS

/-- The leap instant L, in UTC seconds. -/
def State.leapUtc (s : State) : Nat := s.rd R.TSC_LEAP_UTC_LO_UTC + s.rd R.TSC_LEAP_UTC_HI_UTC * 2 ^ 32

/-- A write to TSC_UTC_OFS (R66): discarded with REFUSED while a leap is armed (R69). -/
def writeUtcOfs (w : Nat) (s : State) : State :=
  if s.on R.TSC_LEAP_CTL_ARMED then s.hi R.TSC_LEAP_CTL_REFUSED
  else forgetPast ((s.storeReg false Reg.TSC_UTC_OFS w).hi R.TSC_UTC_OFS_VALID)

def execUtcOfsWrite (w : Word) : State → Res State := go (writeUtcOfs w.toNat)

/-- The armed leap with its instant. -/
def State.armedLeap (s : State) : Leap := { s.tick.leap with utc := s.leapUtc }

/-- OFS before the armed leap. -/
def State.ofsBefore (s : State) : Int := if s.tick.leap.ofsDone then s.tick.leap.ofsOld else s.utcOfs

/-- A TAI second, from UTC seconds under the offset before the leap; as a Keeper time in 2^-16 ns. -/
def State.taiOf (s : State) (utc : Int) : Nat := sec16 (utc + s.ofsBefore).toNat

/-- The leap's effect on OFS: L + OFS + 1 for an insertion, L + OFS - 1 for a deletion (R71). -/
def State.leapEffect (s : State) : Nat := s.taiOf ((s.leapUtc : Int) + (if s.tick.leap.kind = 1 then 1 else -1))

/-- The start of the last UTC second before the leap's effect (R70). -/
def State.leapLast (s : State) : Nat := s.taiOf ((s.leapUtc : Int) - (if s.tick.leap.kind = 1 then 1 else 2))

/-- T_s, 12:00:00 UTC of the leap day (R72). -/
def State.smearFrom (s : State) : Nat := s.taiOf ((s.leapUtc : Int) - 43200)

/-- The cases in which R69 refuses an arming of `kind`. -/
def State.armRefused (s : State) (kind : Nat) : Bool :=
  decide (s.leapUtc % 86400 ≠ 0)
    || decide ((s.leapUtc : Int) * 65536000000000 < (s.ts0 : Int) - s.utcOfs * 65536000000000 + 65536000000000)
    || kind = 0 || kind = 3 || !s.on R.TSC_UTC_OFS_VALID

/-- Arms a leap with KIND and SMEAR as they stand; one whose T_s has passed is not smeared (R69, R74). -/
def armLeap (s : State) : State :=
  let s := { s with tick := { s.tick with leap := {} } }
  let late := s.on R.TSC_LEAP_CTL_SMEAR && decide (s.smearFrom ≤ s.ts0)
  let s := { s with tick := { s.tick with leap :=
    { kind := s.rd R.TSC_LEAP_CTL_KIND, smear := s.on R.TSC_LEAP_CTL_SMEAR && !late, ofsDone := false, ofsOld := 0 } } }
  let s := (s.hi R.TSC_LEAP_CTL_ARM).hi R.TSC_LEAP_CTL_ARMED
  if late then s.hi R.TSC_LEAP_CTL_SMEAR_LATE else s

/-- A leap is over or cancelled: its indications fall (R70, R71, R73). -/
def endLeap (s : State) : State :=
  ((((s.lo R.TSC_LEAP_CTL_ARM).lo R.TSC_LEAP_CTL_ARMED).lo R.TSC_LEAP_CTL_WARN).lo R.TSC_LEAP_CTL_IN_LEAP).lo
    R.TSC_LEAP_CTL_SMEARING

/-- A leap is complete: instants before it are converted by what it has latched from here on. -/
def doneLeap (s : State) : State :=
  (endLeap { s with tick := { s.tick with past := s.armedLeap } }).hi R.TSC_LEAP_CTL_DONE

/-- A write of TSC_LEAP_CTL (R69, R70): ARM 1 while unarmed arms, ARM 0 while armed cancels. -/
def writeLeapCtl (w : Nat) (s : State) : State :=
  let armed := s.on R.TSC_LEAP_CTL_ARMED
  let arm := R.TSC_LEAP_CTL_ARM.of w = 1
  let s := s.storeReg false Reg.TSC_LEAP_CTL w
  if arm && !armed then
    if s.armRefused (s.rd R.TSC_LEAP_CTL_KIND) then (s.lo R.TSC_LEAP_CTL_ARM).hi R.TSC_LEAP_CTL_REFUSED else armLeap s
  else if !arm && armed then
    if s.on R.TSC_LEAP_CTL_SMEARING || decide (s.leapLast ≤ s.ts0) then
      (s.hi R.TSC_LEAP_CTL_ARM).hi R.TSC_LEAP_CTL_REFUSED
    else endLeap s
  else s

def execLeapArm (w : Word) : State → Res State := go (writeLeapCtl (R.TSC_LEAP_CTL_ARM.setIn w.toNat))

def execLeapCancel (w : Word) : State → Res State := go (writeLeapCtl (R.TSC_LEAP_CTL_ARM.clearIn w.toNat))

/-- A write of TSC_LEAP_UTC_LO or _HI: discarded while ARMED is 1. -/
def writeLeapUtc (r : Register) (w : Nat) (s : State) : State :=
  if s.on R.TSC_LEAP_CTL_ARMED then s else s.storeReg false r w

/-- A leap's instant: TS0 comes to `t`, unless a step due at the tick that brings it takes TS0 back before it, for the leap is judged by
the stepped value (R61). -/
def atLeap (t : Nat) (f : State → State) (s : State) : State :=
  let s := s.waitTs0 t
  if s.stepAhead .ts0 = some 0 ∧ (s.ts0 : Int) + s.tick.bank0.stepDelta < t then s else f s

/-- TS0 reaches the start of the leap day (R71). -/
def leapWarn (s : State) : State :=
  if s.on R.TSC_LEAP_CTL_ARMED && !s.tick.leap.ofsDone then
    atLeap (s.taiOf ((s.leapUtc : Int) - 86400)) (fun s => s.hi R.TSC_LEAP_CTL_WARN) s
  else s

def execLeapWarn : State → Res State := go leapWarn

/-- TS0 reaches the inserted second (R71). -/
def leapSecondStart (s : State) : State :=
  if s.on R.TSC_LEAP_CTL_ARMED && !s.tick.leap.ofsDone && s.tick.leap.kind = 1 then
    atLeap (s.taiOf (s.leapUtc : Int)) (fun s => s.hi R.TSC_LEAP_CTL_IN_LEAP) s
  else s

def execLeapSecondStart : State → Res State := go leapSecondStart

/-- The leap takes effect: OFS changes, the record is written, and without smear the leap completes (R71, R73). -/
def takeLeap (s : State) : State :=
  let l := s.tick.leap
  let new := s.utcOfs + (if l.kind = 1 then 1 else -1)
  let s := { s with tick := { s.tick with leap := { l with ofsDone := true, ofsOld := s.utcOfs } } }
  let s := s.wr R.TSC_UTC_OFS_OFS (ofSigned 16 new)
  let s := (s.lo R.TSC_LEAP_CTL_WARN).lo R.TSC_LEAP_CTL_IN_LEAP
  let s := s.logRec 0x0202 l.kind 0 (le 2 (ofSigned 16 new))
  if l.smear then s else doneLeap s

/-- TS0 reaches the leap's effect. -/
def leapOfsChange (s : State) : State :=
  if s.on R.TSC_LEAP_CTL_ARMED && !s.tick.leap.ofsDone then atLeap s.leapEffect takeLeap s else s

def execLeapOfsChange : State → Res State := go leapOfsChange

/-- TS0 reaches T_s with a smear armed (R72). -/
def smearStart (s : State) : State :=
  if s.on R.TSC_LEAP_CTL_ARMED && s.tick.leap.smear then atLeap s.smearFrom (fun s => s.hi R.TSC_LEAP_CTL_SMEARING) s else s

def execSmearStart : State → Res State := go smearStart

/-- TS0 reaches T_s + 86,400 s (R73). -/
def smearEnd (s : State) : State :=
  if s.on R.TSC_LEAP_CTL_SMEARING then atLeap (s.smearFrom + sec16 86400) doneLeap s else s

def execSmearEnd : State → Res State := go smearEnd

/-- A leap's instants as Keeper times in 2^-16 ns, `ofs` being OFS before it: a UTC second, its effect (R71), T_s (R72). -/
def Leap.tai (ofs utc : Int) : Nat := sec16 (utc + ofs).toNat
def Leap.sign (l : Leap) : Int := if l.kind = 1 then 1 else -1
def Leap.effect (l : Leap) (ofs : Int) : Nat := Leap.tai ofs (l.utc + l.sign)
def Leap.smearFrom (l : Leap) (ofs : Int) : Nat := Leap.tai ofs ((l.utc : Int) - 43200)

/-- Whether an instant falls before the effect of the leap that is over. -/
def State.beforePast (s : State) (t : Nat) : Bool :=
  decide (s.tick.past.kind ≠ 0) && decide (t < s.tick.past.effect s.tick.past.ofsOld)

/-- The offset that holds at an instant `t` (2^-16 ns): before a leap's effect the offset before it, from there on the one after it,
whether or not the Keeper has got to it (R71; every Beacon applies the change at the same Keeper instant by its own slave time).  Once TS0
has been stepped back after the change it is OFS as it stands (R66). -/
def State.ofsAt (s : State) (t : Nat) : Int :=
  if s.beforePast t then s.tick.past.ofsOld
  else if s.on R.TSC_LEAP_CTL_ARMED && !s.tick.leap.back then
    if t < s.leapEffect then s.ofsBefore else s.ofsBefore + s.tick.leap.sign
  else s.utcOfs

/-- UTC seconds of NTP era 0's start before 1970. -/
def ntpEpoch : Nat := 2208988800

/-- An NTP timestamp, seconds in bits [63:32], of a UTC reading in 2^-16 ns (R68): the fraction is rounded, halves up, and
carries into the seconds. -/
def ntpOfUtc (u : Int) : Nat :=
  let sub := (u % 65536000000000).toNat
  let frac := (sub * 2 ^ 33 + 65536000000000) / (2 * 65536000000000)
  let sec := (u / 65536000000000 + ntpEpoch + (if frac = 2 ^ 32 then 1 else 0)) % (2 ^ 32 : Nat)
  sec.toNat * 2 ^ 32 + frac % 2 ^ 32

/-- The NTP timestamp of a Keeper time `t` in 2^-16 ns through a leap before which OFS was `ofs`, `later` being the one from the leap's
end on: the hold through an inserted second (R71), the smear, of which c is (t - T_s) / 86,400 (R72), or the plain conversion (R68). -/
def Leap.ntp (l : Leap) (ofs : Int) (t later : Nat) : Nat :=
  let plain := (t : Int) - ofs * 65536000000000
  if l.smear then
    if t < l.smearFrom ofs then ntpOfUtc plain
    else if t < l.smearFrom ofs + sec16 86400 then ntpOfUtc (plain - l.sign * (((t : Int) - l.smearFrom ofs) / 86400))
    else later
  else if l.effect ofs ≤ t then later
  else if l.kind = 1 ∧ Leap.tai ofs l.utc ≤ t then
    (((l.utc : Int) - 1 + ntpEpoch) % (2 ^ 32 : Nat)).toNat * 2 ^ 32 + 0xFFFFFFFF
  else ntpOfUtc plain

/-- The NTP timestamp of a Keeper time: through the armed leap, and through the one that is over, by which alone it is moved where it
falls before that one's end. -/
def State.ntpTime (s : State) (t : Nat) : Nat :=
  let later := ntpOfUtc ((t : Int) - s.ofsAt t * 65536000000000)
  let armed := if s.on R.TSC_LEAP_CTL_ARMED then s.armedLeap.ntp s.ofsBefore t later else later
  if s.tick.past.kind = 0 then armed else s.tick.past.ntp s.tick.past.ofsOld t armed

/-- Whether instant `t` lies in the leap day of a leap, before its effect (R71). -/
def Leap.onDay (l : Leap) (ofs : Int) (t : Nat) : Bool :=
  decide (l.kind ≠ 0) && decide (Leap.tai ofs ((l.utc : Int) - 86400) ≤ t) && decide (t < l.effect ofs)

/-- The leap in whose day an instant lies: the armed one, or for an instant before its effect the one that is over. -/
def State.leapOf (s : State) (t : Nat) : Option Leap :=
  if s.tick.past.onDay s.tick.past.ofsOld t then some s.tick.past
  else if s.on R.TSC_LEAP_CTL_ARMED && !s.tick.leap.back && s.armedLeap.onDay s.ofsBefore t then some s.armedLeap
  else none

/-- The leap indicator NTP responses carry (R71, R73): 0 while a leap with smear is armed. -/
def State.ntpLeap (s : State) (t : Nat) : Nat :=
  if s.on R.TSC_LEAP_CTL_ARMED && s.tick.leap.smear then 0
  else match s.leapOf t with
    | some l => if l.smear then 0 else l.kind
    | none => 0

end Sys2Proof.Machine
end

