-- ==== Sys2Proof/Machine/Port.lean ====
section
/-! DEFINITION. What every port command uses: a port's state, its statistics and events (R255), its speed and its timestamp point
(R227-R231), its service addresses (R250, R251), the dies' token buckets (R278). -/

namespace Sys2Proof.Machine

/-! ### Access -/

def State.port (s : State) (p : Nat) : Port := IMap.get {} s.srv.ports p
def State.modPort (s : State) (p : Nat) (f : Port → Port) : State :=
  { s with srv := { s.srv with ports := IMap.upd {} s.srv.ports p f } }

/-- Picoseconds since the counters started. -/
def State.nowPs (s : State) : Nat := s.tick.count * 1250

/-- Lets time run to the tick that holds `ps`. -/
def State.waitPs (s : State) (ps : Nat) : State := s.waitTick (ps / 1250)

/-! ### Statistics -/

/-- Adds to a 64-bit statistic and to the performance event it feeds (R255, R463). -/
def bumpStat (key event unit n : Nat) (s : State) : State :=
  if n = 0 then s
  else ({ s with srv := { s.srv with stats := IMap.upd 0 s.srv.stats key (fun v => (v + n) % 2 ^ 64) } }).count event unit n

/-- MAC statistic `i` of a port, NTP, NTS and PTP counters `i` of a die (R255, R286, R310, R346). -/
def mac (p i n : Nat) : State → State := bumpStat (p * 64 + i) (0x100 + i) p n
def ntpStat (d i : Nat) : State → State := bumpStat (2048 + d * 32 + i) (0x140 + i) d 1
def ntsStat (d i n : Nat) : State → State := bumpStat (2176 + d * 32 + i) (0x160 + i) d n
def ptpStat (d i : Nat) : State → State := bumpStat (2304 + d * 32 + i) (0x180 + i) d 1

/-- A read of a statistic's low word: it returns it, latches the high word and clears the counter (R255). -/
def readStatLow (key : Nat) (s : State) : Nat × State :=
  let v := IMap.get 0 s.srv.stats key
  (v % 2 ^ 32, { s with srv := { s.srv with
    stats := IMap.put 0 s.srv.stats key 0, latch := IMap.put 0 s.srv.latch key (v / 2 ^ 32) } })

/-- A read of a statistic's high word: the value latched by the last low-word read. -/
def readStatHigh (key : Nat) (s : State) : Nat := IMap.get 0 s.srv.latch key

/-! ### Events -/

def Evt.mac (p : Nat) : EvtSrc := ⟨R.MAC_EVT_BITS p, some (R.MAC_EVT_EN_BITS p), 1, 52 + p / 8⟩
def Evt.ntp (d : Nat) : EvtSrc := ⟨R.NTP_EVT_BITS d, some (R.NTP_EVT_EN_BITS d), 1, 56 + d⟩
def Evt.nts (d : Nat) : EvtSrc := ⟨R.NTS_EVT_BITS d, some (R.NTS_EVT_EN_BITS d), 1, 56 + d⟩
def Evt.ptp (d : Nat) : EvtSrc := ⟨R.PTP_EVT_BITS d, some (R.PTP_EVT_EN_BITS d), 1, 60 + d⟩

/-! ### Link and speed -/

/-- A port's state: 0 DOWN, 1 TRAINING, 2 CALIBRATING, 3 UP (R222). -/
def State.link (s : State) (p : Nat) : Nat := s.rd (R.MAC_STAT_STATE p)
def State.isUp (s : State) (p : Nat) : Bool := s.link p = 3

/-- Whether a die's lane is LOCKED. -/
def State.laneLocked (s : State) (d : Nat) : Bool := s.rd (R.TSC_LANE_STAT_STATE d) = 2

/-- Whether a port's stamps are good: its die's lane LOCKED and no CAL_WEAK (R225, R355, R501). -/
def State.timed (s : State) (p : Nat) : Bool := s.laneLocked (p / 8) && !s.on (R.MAC_STAT_CAL_WEAK p)

/-- Whether they were for a frame whose stamp point was at `point` on the clock of durations: by the lane's state then (R355). -/
def State.timedAt (s : State) (p point : Nat) : Bool :=
  (match (s.lane (p / 8)).was.find? (fun w => point < w.1) with
    | some w => w.2
    | none => s.laneLocked (p / 8)) && !s.on (R.MAC_STAT_CAL_WEAK p)

/-- A byte's time on the wire in ps, by MODE (R219). -/
def bytePs (mode : Nat) : Nat := if mode < 3 then 80 else if mode < 5 then 160 else if mode < 7 then 320 else 800

def State.bytePs (s : State) (p : Nat) : Nat := Sys2Proof.Machine.bytePs (s.rd (R.MAC_CFG_MODE p))

/-- A pause quantum, 512 bit times (R245). -/
def State.quantumPs (s : State) (p : Nat) : Nat := 64 * s.bytePs p

/-- Whether a FEC code is allowed for a MODE (R219). -/
def fecAllowed (mode fec : Nat) : Bool :=
  if mode < 5 then fec = 3 else if mode < 7 then fec < 3 else if mode = 7 then fec < 2 else fec = 0

/-- Whether auto-negotiation runs (R221). -/
def State.anRuns (s : State) (p : Nat) : Bool :=
  s.on (R.MAC_CFG_AN_EN p) && s.rd (R.MAC_CFG_MODE p) ≠ 2 && s.rd (R.MAC_CFG_MODE p) ≠ 8

/-- L_rx and L_tx in ps for a MODE and FEC (R229). -/
def latRx (mode fec : Nat) : Nat :=
  if mode < 3 then 3360 else if mode < 5 then 5120
  else if mode < 7 then (if fec = 0 then 6400 else if fec = 1 then 7040 else 7680)
  else if fec = 0 then 12800 else 14080
def latTx (mode fec : Nat) : Nat :=
  if mode < 3 then 8640 else if mode < 5 then 13760
  else if mode < 7 then (if fec = 0 then 21120 else if fec = 1 then 23680 else 24960)
  else if fec = 0 then 44800 else 48000

/-- The delay in ps with which a pause takes effect (R229). -/
def pauseDelay (mode : Nat) : Nat := if mode < 3 then 12000 else if mode < 5 then 16000 else if mode < 7 then 26000 else 58000

/-- Puts the latencies of a MODE and FEC into MAC_TS_LAT. -/
def setLatency (p mode fec : Nat) (s : State) : State :=
  (s.wr (R.MAC_TS_LAT_L_RX p) (latRx mode fec)).wr (R.MAC_TS_LAT_L_TX p) (latTx mode fec)

/-! ### The timestamp point (R228) -/

/-- A sum of ps converted to 2^-16 ns once, to nearest. -/
def psUnits (ps : Int) : Int := rndNearest (mkRat (ps * 65536) 1000)

/-- DLY_RX for a stamp point: a write applies only to those after it (R256). -/
def State.dlyRx (s : State) (p point : Nat) : Int :=
  match (s.port p).dlyOld.find? (fun w => point < w.1) with
  | some w => w.2
  | none => s.rdSigned (R.MAC_TS_DLY_RX_DLY p)

/-- What a port keeps of the writes of the last 1 ms, longer than a frame lasts (log entry 100). -/
def keepRecent {α : Type} (now : Nat) (l : List (Nat × α)) : List (Nat × α) := l.filter (fun w => decide (now < w.1 + ms16 1))

/-- A write of MAC_TS_DLY_RX. -/
def writeDlyRx (p w : Nat) (s : State) : State :=
  (s.modPort p (fun k => { k with dlyOld := keepRecent s.clk k.dlyOld ++ [(s.clk, s.rdSigned (R.MAC_TS_DLY_RX_DLY p))] })).storeReg false
    (Reg.MAC_TS_DLY_RX p) w

/-- What lies between the ball and the capture of an ingress stamp, in ps: L_rx, φ_rx and C_rx of R228. -/
def State.pathRx (s : State) (p : Nat) : Int :=
  s.rd (R.MAC_TS_LAT_L_RX p) + s.rd (R.MAC_TS_PHASE_PHI_RX p) + s.rdSigned (R.MAC_TS_CAL_C_RX p)

/-- The fixed path from the commit of a byte to the ball, in ps: L_tx runs to the stamp point, the 8 bytes of preamble and delimiter after it
(R38, R229). -/
def State.pathTx (s : State) (p : Nat) : Nat := s.rd (R.MAC_TS_LAT_L_TX p) - 8 * s.bytePs p

/-- The correction of an ingress stamp and of a departure. -/
def State.corrRx (s : State) (p point : Nat) : Int := psUnits (s.pathRx p + s.dlyRx p point)
def State.corrTx (s : State) (p : Nat) : Int :=
  psUnits (s.rd (R.MAC_TS_LAT_L_TX p) + s.rd (R.MAC_TS_PHASE_PHI_TX p) + s.rdSigned (R.MAC_TS_CAL_C_TX p)
    + s.rdSigned (R.MAC_TS_DLY_TX_DLY p))

/-- T_cap of a frame whose stamp point crossed the ball `back` (2^-16 ns) before now: the slave time as it stood, a step since taken off, when
the capture came, later by the path from the ball (R228; DEDUCED, log entry 107). -/
def State.tCap (s : State) (p back : Nat) : Int :=
  (s.slaveTime (p / 8) : Int) - back - s.steppedSince (s.tickBack back) + psUnits (s.pathRx p)

/-- T_rx of that frame. -/
def State.tRx (s : State) (p back : Nat) : Nat := (s.tCap p back - s.corrRx p (s.clk - back)).toNat

/-- T_tx of a frame committed `ps` after the start of the current tick, as the slave timescale stands there. -/
def State.tTx (s : State) (p ps : Nat) : Nat :=
  let l := s.lane (p / 8)
  ((((l.slave + ps * l.slaveIncr / 1250) / 2 ^ 32 : Nat) : Int) + s.corrTx p).toNat

/-! ### Addresses -/

/-- The MAC address in force. -/
def State.macAddr (s : State) (p : Nat) : Nat := s.rd (R.MAC_ADDR_HI_A p) * 2 ^ 32 + s.rd (R.MAC_ADDR_LO_A p)

/-- Whether the address in force is zero or multicast (R220). -/
def State.badAddr (s : State) (p : Nat) : Bool := s.macAddr p = 0 || isGroup (s.macAddr p)

/-- A service address entry. -/
def State.svc (s : State) (p i : Nat) : List Nat := IMap.get [] (s.port p).svc i

/-- The entry a frame is matched against: the one that stood at its stamp point (R254). -/
def State.svcAt (s : State) (p point i : Nat) : List Nat :=
  match (s.port p).svcOld.find? (fun w => decide (point < w.1) && decide (w.2.1 = i)) with
  | some w => w.2.2
  | none => s.svc p i

/-- Puts an entry into the table, at this instant (R254). -/
def setSvc (p i : Nat) (e : List Nat) (s : State) : State :=
  s.modPort p (fun k => { k with
    svc := IMap.put [] k.svc i e, svcOld := keepRecent s.clk k.svcOld ++ [(s.clk, i, IMap.get [] k.svc i)] })

/-- The entry a destination address and tags match (R251). -/
def State.svcFind (s : State) (p point : Nat) (v6 : Bool) (addr : List Nat) (tags : List (Nat × Nat)) : Option Nat :=
  (svcIds v6).find? (fun i => svcValid (s.svcAt p point i) && svcAddr v6 (s.svcAt p point i) = addr && svcTags (s.svcAt p point i) = tags)

/-- Whether an address is one of the port's service addresses, whatever the tags (R252, R258). -/
def State.svcHolds (s : State) (p point : Nat) (v6 : Bool) (addr : List Nat) : Bool :=
  (svcIds v6).any (fun i => svcValid (s.svcAt p point i) && svcAddr v6 (s.svcAt p point i) = addr)

/-! ### Token buckets (R278, R279) -/

/-- Slave ticks of a die since it came up (R274). -/
def State.dieTicks (s : State) (d : Nat) : Nat := (s.lane d).ticks

/-- What a bucket holds after its refill, in 1/800,000,000 token: `rate` tokens a second up to `depth`. -/
def Bucket.refill (b : Bucket) (depth rate now : Nat) : Bucket :=
  { level := some (min (depth * 800000000) ((b.level.getD (depth * 800000000)) + (now - b.tick) * rate)), tick := now }

/-- Takes a token; none where the bucket holds none. -/
def Bucket.take (b : Bucket) : Option Bucket :=
  match b.level with
  | some l => if 800000000 ≤ l then some { b with level := some (l - 800000000) } else none
  | none => none

def State.ntpDie (s : State) (d : Nat) : NtpDie := IMap.get {} s.srv.ntp d
def State.modNtp (s : State) (d : Nat) (f : NtpDie → NtpDie) : State :=
  { s with srv := { s.srv with ntp := IMap.upd {} s.srv.ntp d f } }

/-- The clock of the buckets, in 1/800,000,000 s of TS0 (R18): a die's sleep does not stop it. -/
def State.bucketNow (s : State) : Nat := s.clk / 81920

/-- The die's KoD and overflow buckets refill at their rates (R278, R279). -/
def refillKod (d : Nat) (s : State) : State :=
  s.modNtp d (fun k => { k with
    kod := k.kod.refill (max 1 (s.rd (R.NTP_KOD_CFG_BURST d))) (max 1 (s.rd (R.NTP_KOD_CFG_RATE d))) s.bucketNow })
def refillOvf (d : Nat) (s : State) : State :=
  s.modNtp d (fun k => { k with
    ovf := k.ovf.refill (256 * max 1 (s.rd (R.NTP_OVF_CFG_BURST d))) (max 1 (s.rd (R.NTP_OVF_CFG_RATE d))) s.bucketNow })

/-- Draws on the KoD bucket: whether it held a token. -/
def takeKod (d : Nat) (s : State) : Bool × State :=
  let s := refillKod d s
  match (s.ntpDie d).kod.take with
  | some b => (true, s.modNtp d (fun k => { k with kod := b }))
  | none => (false, s)
def takeOvf (d : Nat) (s : State) : Bool × State :=
  let s := refillOvf d s
  match (s.ntpDie d).ovf.take with
  | some b => (true, s.modNtp d (fun k => { k with ovf := b }))
  | none => (false, s)

def bucketRefill (d : Nat) (s : State) : State := refillOvf d (refillKod d s)

def execBucketRefill (n : Fin 4) : State → Res State := go (bucketRefill n.val)

end Sys2Proof.Machine
end

