-- ==== Sys2Proof/Machine/Rings.lean ====
section
/-! DEFINITION. Host rings (11): pages, doorbells, write-backs, message moderation, and delivery of received frames.  Rings are
numbered as their pages stand in BAR2: receive 0-127, transmit 128-255, command 256 and 257. -/

namespace Sys2Proof.Machine

def State.ring (s : State) (q : Nat) : Ring := IMap.get {} s.rings q
def State.modRing (s : State) (q : Nat) (f : Ring → Ring) : State := { s with rings := IMap.upd {} s.rings q f }

/-- The function a ring belongs to (R347). -/
def State.ringFn (s : State) (q : Nat) : Nat := if q < 256 then s.rd (R.HRG_RING_CFG_OWNER q) else q - 256

/-- Descriptors a ring holds (R349). -/
def State.ringSize (s : State) (q : Nat) : Nat := 64 * 2 ^ min 10 (s.rd (R.HRG_RING_CFG_SIZE q))

def State.ringBase (s : State) (q : Nat) : Nat :=
  s.rd (R.HRG_RING_BASE_LO_ADDR q) * 4096 + s.rd (R.HRG_RING_BASE_HI_ADDR q) * 2 ^ 32

/-- HRG_EVT: vector 63 of PF0, vector 51 of PF1. -/
def Evt.hrg (f : Nat) : EvtSrc := ⟨R.HRG_EVT_BITS f, some (R.HRG_EVT_EN_BITS f), f, if f = 0 then 63 else 51⟩

/-- Notes an event of a ring in HRG_RING_STAT and in HRG_EVT of its owner: 1 DROP, 2 BAD_DESC, 4 UNDERRUN, 8 TS_LOST, 16 DB_ERR. -/
def ringNote (q m : Nat) (s : State) : State :=
  (s.wr (R.HRG_RING_STAT_BITS q) (s.rd (R.HRG_RING_STAT_BITS q) ||| m)).raise (Evt.hrg (s.ringFn q)) m

/-- Sets CFG_ERR (R347, R351). -/
def ringCfgErr (q : Nat) (s : State) : State := (s.hi (R.HRG_RING_CFG_CFG_ERR q)).raise (Evt.hrg (s.ringFn q)) 16

/-- An access that completes with Unsupported Request or Completer Abort, logged as a non-fatal error (R42, R43, R348). -/
def refuseAccess (fn addr : Nat) (completerAbort : Bool) (s : State) : State := s.emit (.aer fn addr completerAbort)

/-- Whether a die's window answers: not while its lane is OFF (R43). -/
def State.dieAnswers (s : State) (d : Nat) : Bool := s.rd (R.TSC_LANE_STAT_STATE d) ≠ 0

/-- A write by PF1 to a register of a die's window: discarded and logged through AER while the die's lane is OFF (R43). -/
def windowWrite (d : Nat) (r : Register) (f : State → State) (s : State) : State :=
  if s.dieAnswers d then f s else refuseAccess 1 r.addr true s

/-! ### Write-back (R350, R369) -/

/-- Sends a ring's message, which covers every write-back made before it (R369): the bound of one in a cycle is that of event vectors (R368). -/
def ringMsi (q : Nat) (s : State) : State :=
  (s.modRing q (fun r => { r with count := 0 })).post (s.ringFn q) (s.rd (R.HRG_RING_CFG_VEC q))

/-- Whether write-backs pending call for a message now: with CNT or ITR 0, that condition is not used (log entry 26). -/
def State.ringDue (s : State) (q : Nat) : Bool :=
  let cnt := s.rd (R.HRG_RING_ITR_CNT q)
  let itr := s.rd (R.HRG_RING_ITR_ITR q)
  (s.ring q).count ≠ 0
    && (decide (cnt = 0 ∧ itr = 0) || decide (cnt ≠ 0 ∧ cnt ≤ (s.ring q).count)
      || decide (itr ≠ 0 ∧ (s.ring q).since + us16 itr ≤ s.clk))

/-- A write of HRG_RING_ITR: a condition that the new values meet sends the message (R369). -/
def writeRingItr (q w : Nat) (s : State) : State :=
  let s := s.storeReg false (Reg.HRG_RING_ITR q) w
  if s.ringDue q then ringMsi q s else s

/-- Writes a descriptor back, advances HEAD past it, and sends a message where one is due (R349, R350, R369). -/
def writeBack (q idx : Nat) (bytes : List Nat) (s : State) : State :=
  let s := s.emit (.dma (s.ringBase q + idx * 32) bytes)
  let s := s.wr (R.HRG_RING_HEAD_HEAD q) ((idx + 1) % s.ringSize q)
  let s := s.modRing q (fun r => { r with since := if r.count = 0 then s.clk else r.since, count := r.count + 1 })
  if s.ringDue q then ringMsi q s else s

/-- Frees the two-step stamp a descriptor holds (R362). -/
def freeStamp (q : Nat) (d : RingDesc) (s : State) : State :=
  match d.stamp with
  | none => s
  | some p => s.modPort p (fun k => { k with stamps := k.stamps.filter (fun e => e ≠ (q, d.idx)) })

/-- Writes back in ring order whatever is finished (R350, R358). -/
def drainList (q : Nat) : List RingDesc → State → State
  | [], s => s.modRing q (fun r => { r with out := [] })
  | d :: ds, s =>
    match d.back with
    | none => s.modRing q (fun r => { r with out := d :: ds })
    | some b => drainList q ds (writeBack q d.idx b (freeStamp q d s))

/-- A stopped ring with nothing outstanding is QUIESCED (R364). -/
def quiesce (q : Nat) (s : State) : State :=
  if !s.on (R.HRG_RING_CFG_EN q) && (s.ring q).out.isEmpty then s.hi (R.HRG_RING_CFG_QUIESCED q) else s

def drain (q : Nat) (s : State) : State := quiesce q (drainList q (s.ring q).out s)

/-- A fetched descriptor is finished. -/
def finishDesc (q idx : Nat) (back : RingDesc → RingDesc) (s : State) : State :=
  drain q (s.modRing q (fun r => { r with out := r.out.map (fun d => if d.idx = idx then back d else d) }))

/-- A transmit write-back (R361): stamp in 2^-16 ns, TAG and STATUS. -/
def txBack (stamp : Option Nat) (tag : List Nat) (status : Nat) : List Nat :=
  (match stamp with
    | some t => ktBytes t
    | none => List.replicate 12 0) ++ [0, 0, 0, 0] ++ tag ++ le 2 status ++ List.replicate 10 0

/-! ### Pages (R347-R351, R364) -/

/-- Whether a function reaches a ring's page: PF0 its own rings and command ring 0, PF1 every page (R348). -/
def State.reaches (s : State) (fn q : Nat) : Bool := fn = 1 || s.ringFn q = 0

/-- Whether a function's writes there act on every field. -/
def State.ownsRing (s : State) (fn q : Nat) : Bool := s.ringFn q = fn

/-- Whether a ring's VEC lies in its owner's range (R367). -/
def State.vecOk (s : State) (q : Nat) : Bool := s.rd (R.HRG_RING_CFG_VEC q) ≤ if s.ringFn q = 0 then 61 else 39

/-- EN written 1 on a stopped ring: it is empty at TAIL, or stays off with CFG_ERR (R351, log entry 26). -/
def enableRing (q : Nat) (s : State) : State :=
  if s.vecOk q && s.on (R.HRG_RING_CFG_QUIESCED q) then
    let tail := s.rd (R.HRG_RING_TAIL_TAIL q)
    let s := (s.hi (R.HRG_RING_CFG_EN q)).lo (R.HRG_RING_CFG_QUIESCED q)
    (s.wr (R.HRG_RING_HEAD_HEAD q) tail).modRing q (fun r => { r with fetch := tail, descs := [] })
  else ringCfgErr q s

/-- EN written 0: no more fetches; QUIESCED once the last write-back is written (R364). -/
def disableRing (q : Nat) (s : State) : State :=
  quiesce q ((s.lo (R.HRG_RING_CFG_EN q)).modRing q (fun r => { r with descs := [] }))

/-- The part of a write of HRG_RING_CFG that sets OWNER: PF1's, on a data ring (R347). -/
def writeOwner (fn q w : Nat) (s : State) : State :=
  let v := (R.HRG_RING_CFG_OWNER q).of w
  if fn ≠ 1 ∨ 256 ≤ q ∨ v = s.rd (R.HRG_RING_CFG_OWNER q) then s
  else if s.on (R.HRG_RING_CFG_EN q) then ringCfgErr q s
  else s.wr (R.HRG_RING_CFG_OWNER q) v

/-- A write of HRG_RING_CFG (R347, R348, R351, R364). -/
def writeRingCfg (fn q w : Nat) (s : State) : State :=
  if !s.reaches fn q then refuseAccess fn (Reg.HRG_RING_CFG q).addr false s
  else
    let en := (R.HRG_RING_CFG_EN q).of w
    let full := s.ownsRing fn q
    let wasOn := s.on (R.HRG_RING_CFG_EN q)
    let accepted := full || en = 0 || (R.HRG_RING_CFG_OWNER q).of w ≠ s.rd (R.HRG_RING_CFG_OWNER q)
    let s := writeOwner fn q w (if accepted then s.lo (R.HRG_RING_CFG_CFG_ERR q) else s)
    let s := if full && !wasOn && s.on (R.HRG_RING_CFG_QUIESCED q) then s.wr (R.HRG_RING_CFG_SIZE q) ((R.HRG_RING_CFG_SIZE q).of w) else s
    let s := if full then s.wr (R.HRG_RING_CFG_VEC q) ((R.HRG_RING_CFG_VEC q).of w) else s
    if en = 0 then (if wasOn then disableRing q s else s)
    else if full && !wasOn then enableRing q s
    else s

/-- A write of BASE: only while EN is 0 and QUIESCED is 1 (R351). -/
def writeRingBase (r : Nat → Register) (q w : Nat) (s : State) : State :=
  if !s.on (R.HRG_RING_CFG_EN q) && s.on (R.HRG_RING_CFG_QUIESCED q) then s.storeReg false (r q) w else s

/-- Sets START; at 9,216 every frame is store-and-forward and SAF reads 1 (R360). -/
def setStart (q v : Nat) (s : State) : State :=
  (s.wr (R.HRG_RING_THR_START q) v).wr (R.HRG_RING_THR_SAF q) (b01 (decide (v = 9216)))

/-- A write of HRG_RING_THR: START above 9,216 is treated as 9,216; a write in the cycle of a raise is discarded (R360); the field is
reserved but on transmit rings. -/
def writeRingThr (q w : Nat) (s : State) : State :=
  if q < 128 ∨ 256 ≤ q ∨ (s.ring q).raisedAt = some s.tick.count then s
  else
    setStart q (min 9216 ((R.HRG_RING_THR_START q).of w))
      (s.modRing q (fun r => { r with startWas := some (s.tick.count, s.rd (R.HRG_RING_THR_START q)) }))

/-- START as a raise finds it: a host write of the same cycle is discarded (R360). -/
def State.startOf (s : State) (q : Nat) : Nat := match (s.ring q).startWas with
  | some (t, v) => if t = s.tick.count then v else s.rd (R.HRG_RING_THR_START q)
  | none => s.rd (R.HRG_RING_THR_START q)

/-- An underrun raises its ring's START by 256, to 9,216 at most (R360). -/
def raiseStart (q : Nat) (s : State) : State :=
  setStart q (min 9216 (s.startOf q + 256)) (s.modRing q (fun r => { r with startWas := none, raisedAt := some s.tick.count }))

/-- The indices from one up to another in a ring. -/
def ringIndices (size from_ n : Nat) : List Nat := (List.range n).map (fun k => (from_ + k) % size)

/-- The write-back of a command descriptor (R366): its first 26 bytes, RPL_USED and STATUS (1 DD, 2 TRUNC, 4 BAD_DESC). -/
def cmdBack (tag : List Nat) (used status : Nat) : List Nat := tag ++ le 2 used ++ le 2 status ++ [0, 0]

/-- A refused descriptor of a transmit or command ring: counted and noted (R357, R366). -/
def refuseDesc (q : Nat) (s : State) : State :=
  ringNote q 2 (s.wr (R.HRG_RING_REFUSED_BAD_DESC (q - 128)) (satNat 16 (s.rd (R.HRG_RING_REFUSED_BAD_DESC (q - 128)) + 1)))

/-- The firmware takes a posted command descriptor, its packet after it in `d`, into its queue; a CMD_LEN outside 16 to 4,112 is
BAD_DESC (R366, R427). -/
def postCommand (q : Nat) (s : State) (e : Nat × List Nat) : State :=
  let idx := e.1
  let d := e.2
  let len := leAt d 8 2
  let tag := (d ++ List.replicate 32 0).take 26
  if len < 16 ∨ 4112 < len then
    drain q (refuseDesc q (s.modRing q (fun r => { r with out := r.out ++ [{ idx := idx, tag := tag, back := some (cmdBack tag 0 5) }] })))
  else
    let s := s.modRing q (fun r => { r with out := r.out ++ [{ idx := idx, tag := tag }] })
    let c : Cmd :=
      { path := .ring q idx len (leAt d 16 8) (leAt d 24 2), sender := q - 255
        bytes := (d.drop 32 ++ List.replicate len 0).take len }
    { s with fw := { s.fw with queue := s.fw.queue ++ [c] } }

/-- A write of HRG_RING_TAIL posts the descriptors up to it, whose bytes stand in host memory (R349); a command ring's arrive at this
write (R427).  Bytes the host did not give read 0. -/
def doorbell (fn q w : Nat) (descs : List (List Nat)) (s : State) : State :=
  if !s.reaches fn q then refuseAccess fn (Reg.HRG_RING_TAIL q).addr false s
  else if !s.ownsRing fn q then s
  else
    let size := s.ringSize q
    let tail := (R.HRG_RING_TAIL_TAIL q).of w
    if size ≤ tail then ringNote q 16 s
    else
      let old := s.rd (R.HRG_RING_TAIL_TAIL q)
      let s := s.wr (R.HRG_RING_TAIL_TAIL q) tail
      if s.on (R.HRG_RING_CFG_EN q) then
        let n := (tail + size - old) % size
        let new := (ringIndices size old n).zip (descs ++ List.replicate n [])
        if 256 ≤ q then new.foldl (postCommand q) (s.modRing q (fun r => { r with fetch := tail }))
        else s.modRing q (fun r => { r with descs := new.foldl (fun m e => IMap.put [] m e.1 e.2) r.descs })
      else s

/-- A ring's moderation time passes with a write-back pending (R369). -/
def itrExpire (q : Nat) (s : State) : State :=
  let itr := s.rd (R.HRG_RING_ITR_ITR q)
  if itr = 0 ∨ (s.ring q).count = 0 then s else ringMsi q (s.waitClk ((s.ring q).since + us16 itr))

/-! ### Fetching -/

/-- Whether a ring has a posted descriptor not yet fetched. -/
def State.posted (s : State) (q : Nat) : Bool :=
  s.on (R.HRG_RING_CFG_EN q) && (s.ring q).fetch ≠ s.rd (R.HRG_RING_TAIL_TAIL q)

/-- The bytes of the next posted descriptor; bytes the host did not give read 0. -/
def State.nextDesc (s : State) (q : Nat) : List Nat :=
  (IMap.get [] (s.ring q).descs (s.ring q).fetch ++ List.replicate 32 0).take 32

/-- Takes the next posted descriptor. -/
def takeDesc (q : Nat) (s : State) : State :=
  s.modRing q (fun r => { r with fetch := (r.fetch + 1) % s.ringSize q, descs := IMap.erase r.descs r.fetch })

/-! ### Receive (R352-R355) -/

/-- The steering byte of a class of a port: ring and EN. -/
def State.steer (s : State) (p c : Nat) : Nat := s.rd (R.HRG_STEER_W (p * 2 + c / 4)) / 2 ^ (8 * (c % 4)) % 256

/-- A frame for the host that finds no room (R352). -/
def dropRx (p q : Nat) (s : State) : State :=
  let s := mac p 20 1 s
  ringNote q 1 (s.wr (R.HRG_RING_DROP_DROP q) (satNat 32 (s.rd (R.HRG_RING_DROP_DROP q) + 1)))

/-- A frame on its way to a receive ring: bytes without FCS, its stamp point on the clock of durations, T_rx and whether it is valid,
reassembled, taken from corrected data. -/
structure RxItem where
  bytes : List Nat := []
  point : Nat := 0
  stamp : Stamp := {}
  tsOk : Bool := true
  reasm : Bool := false
  redeliver : Bool := false
deriving DecidableEq, Repr

/-- The receive write-back (R354). -/
def rxBack (p c : Nat) (f : RxItem) : List Nat :=
  (if f.tsOk then ktBytes f.stamp.t else List.replicate 12 0) ++ le 2 f.bytes.length ++ [p, c]
    ++ le 2 (1 + 2 * b01 f.tsOk + 4 * b01 f.reasm + 8 * b01 f.redeliver + 32 * (Eth.parse f.bytes).tags.length)
    ++ List.replicate 14 0

/-- Puts a frame into the next posted descriptor; a BUF_LEN below 64 is refused and the frame moves on (R353). -/
def fillRx (p c q : Nat) (f : RxItem) : Nat → State → State
  | 0, s => dropRx p q s
  | n + 1, s =>
    if !s.posted q then dropRx p q s
    else
      let d := s.nextDesc q
      let idx := (s.ring q).fetch
      if leAt d 8 2 < 64 then
        fillRx p c q f n (ringNote q 2 (writeBack q idx (List.replicate 16 0 ++ le 2 17 ++ List.replicate 14 0) (takeDesc q s)))
      else if leAt d 8 2 < f.bytes.length then dropRx p q s
      else writeBack q idx (rxBack p c f) ((takeDesc q s).emit (.dma (leAt d 0 8) f.bytes))

/-- A frame of a class is delivered toward the host by a steering byte (R352). -/
def toHost (p c e : Nat) (f : RxItem) (s : State) : State :=
  let s := mac p 19 1 s
  let q := e % 128
  if e < 128 then dropRx p q s else fillRx p c q f (s.ringSize q) s

end Sys2Proof.Machine
end

