-- ==== Sys2Proof/Machine/Siv.lean ====
section
/-! DEFINITION. AEAD_AES_SIV_CMAC_256 of RFC 5297, the one AEAD of the NTS engines (R287, R294, R298-R301): AES-128 (FIPS 197), CMAC
(SP 800-38B), S2V and counter mode over lists of bytes (log entry 25). -/

namespace Sys2Proof.Machine

/-! ### AES-128 -/

/-- The S-box by rows of 16 entries, the first in the highest byte. -/
def aesBox : List Nat :=
  [0x637c777bf26b6fc53001672bfed7ab76, 0xca82c97dfa5947f0add4a2af9ca472c0, 0xb7fd9326363ff7cc34a5e5f171d83115,
   0x04c723c31896059a071280e2eb27b275, 0x09832c1a1b6e5aa0523bd6b329e32f84, 0x53d100ed20fcb15b6acbbe394a4c58cf,
   0xd0efaafb434d338545f9027f503c9fa8, 0x51a3408f929d38f5bcb6da2110fff3d2, 0xcd0c13ec5f974417c4a77e3d645d1973,
   0x60814fdc222a908846eeb814de5e0bdb, 0xe0323a0a4906245cc2d3ac629195e479, 0xe7c8376d8dd54ea96c56f4ea657aae08,
   0xba78252e1ca6b4c6e8dd741f4bbd8b8a, 0x703eb5664803f60e613557b986c11d9e, 0xe1f8981169d98e949b1e87e9ce5528df,
   0x8ca1890dbfe6426841992d0fb054bb16]

/-- The S-box. -/
def subByte (b : Nat) : Nat := aesBox.getD (b / 16) 0 / 2 ^ (8 * (15 - b % 16)) % 256

/-- Bytes added bit by bit. -/
def xorBytes (a b : List Nat) : List Nat := a.zipWith (· ^^^ ·) b

/-- The next round key: its words of four bytes, each the word before it added to the one four before (FIPS 197, 5.2). -/
def nextKey (rcon : Nat) (k : List Nat) : List Nat :=
  let w (i : Nat) : List Nat := (k.drop (4 * i)).take 4
  let t := (((w 3).drop 1 ++ (w 3).take 1).map subByte)
  let w0 := xorBytes (xorBytes (w 0) t) [rcon, 0, 0, 0]
  let w1 := xorBytes (w 1) w0
  let w2 := xorBytes (w 2) w1
  w0 ++ w1 ++ w2 ++ xorBytes (w 3) w2

/-- ShiftRows of a state held column by column. -/
def shiftRows (s : List Nat) : List Nat := (List.range 16).map (fun i => s.getD ((i + 4 * (i % 4)) % 16) 0)

/-- Multiplication by x in GF(2^8). -/
def xtime (b : Nat) : Nat := (2 * b) ^^^ (if 128 ≤ b then 0x11B else 0)

/-- MixColumns of one column. -/
def mixColumn : List Nat → List Nat
  | [a, b, c, d] =>
    let t := a ^^^ b ^^^ c ^^^ d
    [a ^^^ t ^^^ xtime (a ^^^ b), b ^^^ t ^^^ xtime (b ^^^ c), c ^^^ t ^^^ xtime (c ^^^ d), d ^^^ t ^^^ xtime (d ^^^ a)]
  | l => l

def mixColumns (s : List Nat) : List Nat := [0, 4, 8, 12].flatMap (fun i => mixColumn ((s.drop i).take 4))

/-- The rounds still to go, one for each round constant, from a state and the round key before; the last has no MixColumns. -/
def aesRounds : List Nat → List Nat → List Nat → List Nat
  | [], _, s => s
  | [r], k, s => xorBytes (shiftRows (s.map subByte)) (nextKey r k)
  | r :: rs, k, s => aesRounds rs (nextKey r k) (xorBytes (mixColumns (shiftRows (s.map subByte))) (nextKey r k))

/-- AES-128 of a 16-byte block. -/
def aes (key block : List Nat) : List Nat := aesRounds [1, 2, 4, 8, 16, 32, 64, 128, 0x1B, 0x36] key (xorBytes block key)

/-! ### CMAC and S2V -/

/-- A block of zeros. -/
def zeroBlock : List Nat := List.replicate 16 0

/-- Doubling of a block. -/
def dblBlock (b : List Nat) : List Nat :=
  let v := beAt b 0 16
  be 16 ((2 * v) % 2 ^ 128 ^^^ (if 2 ^ 127 ≤ v then 0x87 else 0))

/-- A block shorter than 16 bytes padded with a one bit and zeros. -/
def padBlock (b : List Nat) : List Nat := (b ++ 0x80 :: zeroBlock).take 16

/-- The chain of CMAC over a message from a block: its last block, whole or padded, meets the subkey. -/
def cmacFrom (key sub : List Nat) : Nat → List Nat → List Nat → List Nat
  | 0, _, x => x
  | n + 1, m, x =>
    if m.length < 16 then aes key (xorBytes x (xorBytes (padBlock m) (dblBlock sub)))
    else if m.length = 16 then aes key (xorBytes x (xorBytes m sub))
    else cmacFrom key sub n (m.drop 16) (aes key (xorBytes x (m.take 16)))

/-- CMAC of a message. -/
def cmac (key m : List Nat) : List Nat := cmacFrom key (dblBlock (aes key zeroBlock)) (m.length + 1) m zeroBlock

/-- S2V over some associated strings and the plaintext. -/
def s2v (key : List Nat) (ads : List (List Nat)) (plain : List Nat) : List Nat :=
  let d := ads.foldl (fun d a => xorBytes (dblBlock d) (cmac key a)) (cmac key zeroBlock)
  if 16 ≤ plain.length then
    let n := plain.length - 16
    cmac key (plain.take n ++ xorBytes (plain.drop n) d)
  else cmac key (xorBytes (dblBlock d) (padBlock plain))

/-! ### Counter mode and the AEAD -/

/-- The key stream added to some bytes, from a counter. -/
def ctrFrom (key : List Nat) : Nat → Nat → List Nat → List Nat
  | 0, _, _ => []
  | n + 1, c, m => if m = [] then [] else xorBytes (aes key (be 16 (c % 2 ^ 128))) (m.take 16) ++ ctrFrom key n (c + 1) (m.drop 16)

/-- Counter mode from a synthetic IV, with the top bits of its last two 32-bit words cleared. -/
def sivCtr (key iv m : List Nat) : List Nat :=
  ctrFrom key (m.length + 1) (beAt iv 0 16 &&& 0xFFFFFFFFFFFFFFFF7FFFFFFF7FFFFFFF) m

/-- Encryption under a 32-byte key, with associated data and a nonce: the synthetic IV, then the ciphertext. -/
def sivSeal (key ad nonce plain : List Nat) : List Nat :=
  let v := s2v (key.take 16) [ad, nonce] plain
  v ++ sivCtr (key.drop 16) v plain

/-- Decryption; none where the tag fails. -/
def sivOpen (key ad nonce sealed : List Nat) : Option (List Nat) :=
  let v := sealed.take 16
  let p := sivCtr (key.drop 16) v (sealed.drop 16)
  if s2v (key.take 16) [ad, nonce] p = v then some p else none

end Sys2Proof.Machine
end

