-- ==== Sys2Proof/Machine/Transmit.lean ====
section
/-! DEFINITION. The transmit side of a port (07, 11): queues, commit and what it writes (R236-R238, R265, R323, R359, R501),
frames in flight, preemption (R242, R243), pause (R245-R248), the NTS hold (R301, R302) and two-step stamps (R362, R363). -/

namespace Sys2Proof.Machine

def State.txq (s : State) (p q : Nat) : List TxFrame := IMap.get [] (s.port p).queues q
def setTxq (p q : Nat) (l : List TxFrame) (s : State) : State :=
  s.modPort p (fun k => { k with queues := IMap.put [] k.queues q l })

/-- Queues in strict priority (R236). -/
def queueIds : List Nat := [7, 6, 5, 4, 3, 2, 1, 0]

/-- Bytes waiting in some queues. -/
def State.queued (s : State) (p : Nat) (qs : List Nat) : Nat :=
  qs.foldl (fun a q => (s.txq p q).foldl (fun a f => a + f.bytes.length) a) 0

/-- Whether a queue has room for a frame (R236). -/
def State.txRoom (s : State) (p q n : Nat) : Bool :=
  if q = 7 then s.queued p [7] + n ≤ 131072 else s.queued p [6, 5, 4, 3, 2, 1, 0] + n ≤ 786432

/-- Whether a frame carries time that its commit writes or that is served (R501). -/
def TxKind.timeBearing : TxKind → Bool
  | .ntp _ _ _ => true
  | .ntpBcast => true
  | .nts _ => true
  | .ptp m => m.msg ∈ [0, 3, 8, 9, 10, 11]
  | _ => false

/-- Whether a host frame has ONESTEP. -/
def TxKind.oneStepHost : TxKind → Bool
  | .host _ _ cmd _ _ => bit cmd 2
  | _ => false

/-- Whether a time field is written at commit (TX_ONESTEP of R255). -/
def TxKind.stamped : TxKind → Bool
  | .host _ _ cmd _ _ => bit cmd 2
  | .orphan v => v
  | .ntp _ ilv _ => !ilv
  | .ntpBcast => true
  | .nts _ => true
  | .ptp m => match m.msg with
    | 0 => m.follow.isNone
    | 1 => true
    | 3 => m.follow.isNone
    | 11 => true
    | _ => false
  | _ => false

/-- Whether the NTP, NTS and PTP engines generated a frame. -/
def TxKind.generated : TxKind → Bool
  | .host _ _ _ _ _ => false
  | .answer => false
  | .orphan _ => false
  | _ => true

/-! ### Discards -/

/-- A frame is discarded before commit: a host frame's completion carries DISCARDED, and WITHHELD by R359. -/
def discardFrame (f : TxFrame) (withheld : Bool) (s : State) : State :=
  match f.kind with
  | .host q idx _ _ _ => finishDesc q idx (fun d => { d with back := some (txBack none d.tag (33 + 128 * b01 withheld)) }) s
  | _ => s

/-- Frames discarded at the head of a queue (R240, R241). -/
def faultDrop (p : Nat) (fs : List TxFrame) (s : State) : State :=
  fs.foldl (fun s f => discardFrame f false (mac p 42 1 s)) s

/-- Whether frames at the head of a port's queues are discarded: a local or remote fault, or out of UP for 1 ms (R240, R241). -/
def State.flushing (s : State) (p : Nat) : Bool :=
  s.on (R.MAC_STAT_LOC_FAULT p) || s.on (R.MAC_STAT_REM_FAULT p)
    || (!s.isUp p && decide ((s.port p).outAt + ms16 1 ≤ s.clk))

/-- Puts a finished NTS response into the hold, or drops it where the hold is full (R302). -/
def intoHold (p : Nat) (f : TxFrame) (s : State) : State :=
  if (s.port p).hold.length < 16 then s.modPort p (fun k => { k with hold := k.hold ++ [(s.clk, f)] })
  else (ntsStat (p / 8) 11 1 s).raise (Evt.nts (p / 8)) 32

def TxFrame.isNts (f : TxFrame) : Bool := match f.kind with
  | .nts _ => true
  | _ => false

/-- Cancels the reservations on Q7 whose instant is still to come (R302). -/
def cancelReservations (p : Nat) (s : State) : State :=
  let held (f : TxFrame) : Bool := f.isNts
  let l := s.txq p 7
  (l.filter held).foldl (fun s f => intoHold p f s) (setTxq p 7 (l.filter (fun f => !held f)) s)

/-- Discards what is queued; reservations go to the hold. -/
def flushQueues (p : Nat) (s : State) : State :=
  queueIds.foldl (fun s q => faultDrop p (s.txq p q) (setTxq p q [] s)) (cancelReservations p s)

/-- Puts a frame into a queue (R236), ahead of the first frame there that `later` picks, else at its end; where the heads of the queues are
being discarded it goes at once. -/
def enqueueAhead (p q : Nat) (later : TxFrame → Bool) (f : TxFrame) (s : State) : State :=
  if !s.txRoom p q f.bytes.length then discardFrame f false (mac p 43 1 s)
  else if s.flushing p then faultDrop p [f] s
  else
    let l := s.txq p q
    setTxq p q (l.takeWhile (fun g => !later g) ++ f :: l.dropWhile (fun g => !later g)) s

/-- Puts a frame at the end of a queue. -/
def enqueue (p q : Nat) (f : TxFrame) (s : State) : State := enqueueAhead p q (fun _ => false) f s

/-- Whether a frame is the Announce of an instance that falls due at an instant: the Sync of that instant and its Follow_Up go ahead of it
(R329). -/
def TxFrame.announces (inst : Nat) (due : Option Nat) (f : TxFrame) : Bool := match f.kind with
  | .ptp m => m.msg = 11 && m.inst = inst && due.isSome && m.due = due
  | _ => false

/-! ### What a commit writes -/

/-- Adds to the correctionField at an offset. -/
def addCorr (ofs : Nat) (d : Int) (bs : List Nat) : List Nat :=
  setBytes bs ofs (be 8 (ofSigned 64 (toSigned 64 (beAt bs ofs 8) + d)))

/-- A PTP timestamp: SEC and NS in network order (R67). -/
def ptpStamp (t : Nat) : List Nat := be 6 (t / 65536 / 1000000000) ++ be 4 (t / 65536 % 1000000000)

/-- FRAC of a time, in 2^-16 ns. -/
def fracOf (t : Nat) : Nat := t % 65536

/-- Both checksums of a device-generated frame. -/
def sums (bs : List Nat) : List Nat := sumUdp (sumIp4 bs)

/-- The frame with everything its commit writes, from its departure T_tx (R238, R262, R301, R323, R324, R328, R343, R359). -/
def commitBytes (s : State) (t : Nat) (f : TxFrame) : List Nat :=
  let o := payloadOfs f.bytes
  match f.kind with
  | .host _ _ cmd osOfs cfOfs =>
    let b := if !bit cmd 2 then f.bytes
      else if bits cmd 5 4 = 0 then addCorr cfOfs (fracOf t) (setBytes f.bytes osOfs (ptpStamp t))
      else setBytes f.bytes osOfs (be 8 (s.ntpTime t))
    let b := if bit cmd 0 then sumIp4 b else b
    if bit cmd 1 || bit cmd 2 then sumUdp b else b
  | .ntp _ ilv _ => sums (if ilv then f.bytes else setBytes f.bytes (o + 40) (be 8 (s.ntpTime t)))
  | .ntpBcast => sums (setBytes f.bytes (o + 40) (be 8 (s.ntpTime t)))
  | .nts r =>
    let b := setBytes f.bytes (o + 40) (be 8 (s.ntpTime t))
    let plain := r.cookies.flatMap (fun c => be 2 0x0204 ++ be 2 108 ++ c)
    let auth := b.length - (16 + 16 + plain.length)
    let ad := slice b o (auth - 8 - o)
    sums (setBytes b auth (r.nonce ++ sivSeal r.key ad r.nonce plain))
  | .ptp m =>
    match m.msg with
    | 0 => if m.follow.isNone then sums (setBytes (setBytes f.bytes (o + 34) (ptpStamp t)) (o + 8) (be 8 (fracOf t))) else sums f.bytes
    | 1 => sums (setBytes f.bytes (o + 34) (ptpStamp t))
    | 3 => if m.follow.isNone then sums (setBytes f.bytes (o + 8) (be 8 (ofSigned 64 (m.corr + t - m.tRx)))) else sums f.bytes
    | 11 => sums (setBytes f.bytes (o + 34) (ptpStamp t))
    | _ => sums f.bytes
  | .still _ => sums f.bytes
  | .signal _ _ => sums f.bytes
  | .answer => f.bytes
  | .orphan _ => f.bytes

/-- The second message of a two-step exchange, from the departure of the first (R323, R324). -/
def followFrame (m : PtpTx) (t : Nat) (bs : List Nat) : TxFrame :=
  let o := payloadOfs bs
  let corr : Int := if m.msg = 0 then fracOf t else m.corr + fracOf t - fracOf m.tRx
  { kind := .ptp { m with msg := if m.msg = 0 then 8 else 10, follow := none }
    bytes := setBytes (setBytes bs (o + 34) (ptpStamp t)) (o + 8) (be 8 (ofSigned 64 corr)) }

/-- The table updates of a response's commit (R267). -/
def cstCommit (e : Option (Nat × Nat)) (ilv : Bool) (rxFrac t : Nat) (s : State) : State :=
  match e with
  | none => s
  | some (i, key) =>
    let c := IMap.get ({} : CstEntry) s.srv.cst i
    if c.valid && c.key = key then
      { s with srv := { s.srv with cst := IMap.put {} s.srv.cst i { c with org := rxFrac, txPrev := s.ntpTime t, ilv := ilv } } }
    else s

/-- A two-step stamp is pushed with the commit, or lost where the FIFO is full (R362, R363). -/
def pushStamp (p q idx t : Nat) (s : State) : State :=
  let k := s.port p
  let here (f : RingDesc → RingDesc) (s : State) : State :=
    s.modRing q (fun r => { r with out := r.out.map (fun d => if d.idx = idx then f d else d) })
  if 1024 ≤ k.stamps.length then
    let s := here (fun d => { d with sent := some (txBack none d.tag 11) }) s
    let s := s.wr (R.HRG_RING_REFUSED_TS_LOST (q - 128)) (satNat 16 (s.rd (R.HRG_RING_REFUSED_TS_LOST (q - 128)) + 1))
    ringNote q 8 (s.wr R.HRG_TS_LOST_PORT (s.rd R.HRG_TS_LOST_PORT ||| 2 ^ p))
  else
    let s := s.modPort p (fun k => { k with stamps := k.stamps ++ [(q, idx)], high := max k.high (k.stamps.length + 1) })
    let ok := s.timed p
    here (fun d => { d with stamp := some p, sent := some (txBack (if ok then some t else none) d.tag (3 + 4 * b01 ok)) }) s

/-- Marks the response to a received frame whose verdict is out as committed (R232). -/
def markAnswered (p : Nat) (rx : Option Nat) (s : State) : State :=
  match rx with
  | none => s
  | some n => s.modPort p (fun k => { k with fec := k.fec.map (fun w => if w.rx = n then { w with answered := true } else w) })

/-- A PTP instance. -/
def State.inst (s : State) (j : Nat) : PtpInst := IMap.get {} s.srv.insts j
def State.modInst (s : State) (j : Nat) (f : PtpInst → PtpInst) : State :=
  { s with srv := { s.srv with insts := IMap.upd {} s.srv.insts j f } }

/-- Whether the engine of a die sends nothing that carries time for want of a served state (R320, third case). -/
def State.ptpSilent (s : State) (d : Nat) : Bool := decide (s.ens.pub.engine < 2) && !s.on (R.PTP_CTL_PRE_SERVE d)

/-- What the commit of a frame does beside its bytes: counters, table updates, Follow_Ups, stamps (R265, R267, R323, R324, R343, R362),
and SERVED at the first message that bears time (R55).  A second message that R320 does not let the engine send is not sent. -/
def commitEffects (p t : Nat) (f : TxFrame) (s : State) : State :=
  let d := p / 8
  let s := markAnswered p f.rx s
  let s := if f.kind.timeBearing || f.kind.oneStepHost then s.hi R.TSC_STAT_SERVED else s
  match f.kind with
  | .host q idx cmd _ _ => if bit cmd 3 then pushStamp p q idx t s else s
  | .ntp e ilv frac =>
    let s := ntpStat d (if e.isNone then 4 else if ilv then 3 else 2) s
    cstCommit e ilv frac t s
  | .nts r => ntsStat d 2 r.cookies.length (ntsStat d 1 1 s)
  | .ptp m =>
    let s := match m.msg with
      | 0 => ptpStat d 0 s
      | 3 => ptpStat d 4 s
      | 8 => ptpStat d 1 s
      | 9 => ptpStat d 3 s
      | 10 => ptpStat d 5 s
      | 11 => ptpStat d 2 s
      | _ => s
    let s := if m.msg = 1 ∧ s.timed p = true then s.modInst m.inst (fun k => { k with dreqOut := some (m.seq, some t) }) else s
    match m.follow with
    | some b => if s.ptpSilent d then s else enqueueAhead p 7 (TxFrame.announces m.inst m.due) (followFrame m t b) s
    | none => s
  | .signal _ gs =>
    let half := s.dieTicks d / 400000000
    gs.foldl (fun s g => { s with srv := { s.srv with grants := IMap.upd {} s.srv.grants g (fun k =>
      if k.valid then { k with expiry := (half + 2 * k.duration + 1) % 2 ^ 32 } else k) } }) s
  | _ => s

/-! ### Frames in flight -/

/-- What goes out as the fragment in progress of a frame: `n` bytes of it, then its FCS or its mCRC; a frame committed as not preemptable goes
out whole (R243). -/
def sendPart (p : Nat) (v : Flight) (b : List Nat) (n fcs : Nat) (s : State) : State :=
  s.emit (if v.pre then .mpacket p (mpacketHead v.count v.frags ++ slice b v.sent n ++ le 4 fcs) else .frame p (b ++ le 4 fcs))

/-- The instant on the clock of durations of an instant of the line that is past, or now. -/
def State.clkAt (s : State) (ps : Nat) : Nat := s.clk - (s.nowPs - ps) * 65536 / 1000

/-- When a frame's last bit crosses the ball (ps; R38). -/
def State.leftPs (s : State) (p : Nat) (v : Flight) : Nat := v.endPs + s.pathTx p

/-- A frame's last block is committed: the completion of a host frame (R361); the frame is on its way to the ball. -/
def endFlight (p : Nat) (v : Flight) (s : State) : State :=
  let s := s.modPort p (fun k => { k with flight := none, leaving := k.leaving ++ [v] })
  match v.frame.kind with
  | .host q idx _ _ _ => finishDesc q idx (fun d => { d with back := some (d.sent.getD (txBack none d.tag 3)) }) s
  | _ => s

/-- A frame has left: its statistics (R255). -/
def finishFlight (p : Nat) (v : Flight) (s : State) : State :=
  let b := v.frame.bytes
  let e := Eth.parse b
  let s := sendPart p v b (b.length - v.sent) (crc32 b) (s.modPort p (fun k => { k with frameAt := s.clkAt (s.leftPs p v) }))
  let s := mac p 33 1 (mac p 32 (b.length + 4) s)
  let s := mac p (if e.dst = macBcast then 36 else if isGroup e.dst then 35 else 34) 1 s
  let s := mac p 37 (b01 (decide (v.q = 7))) s
  let s := mac p 38 (b01 v.frame.kind.generated) s
  let s := mac p 50 (b01 v.frame.kind.stamped) s
  let s := mac p 45 (b01 (decide (v.frags ≠ 0))) s
  match v.frame.kind with
  | .answer => mac p 39 1 s
  | .host _ _ _ _ _ => mac p 40 1 s
  | .orphan _ => mac p 40 1 s
  | _ => s

/-- The frames whose last bit has crossed the ball by `now` (ps) have left. -/
def leaveBall (p now : Nat) (s : State) : State :=
  let l := (s.port p).leaving
  (l.filter (fun v => decide (s.leftPs p v ≤ now))).foldl (fun s v => finishFlight p v s)
    (s.modPort p (fun k => { k with leaving := k.leaving.filter (fun v => !decide (s.leftPs p v ≤ now)) }))

/-- Whether a queue is paused. -/
def State.paused (s : State) (p q : Nat) : Bool := bit (s.rd (R.MAC_STAT_PAUSED p)) q

/-- Whether any queue with frames waiting is held (R247). -/
def State.pauseHeld (s : State) (p : Nat) : Bool :=
  let k := s.port p
  queueIds.any (fun q => s.paused p q &&
    (!(s.txq p q).isEmpty || k.suspended.any (fun v => v.q = q) || k.flight.any (fun v => v.pre && v.q = q)))

/-- Brings a port up to an instant: what is committed whole and what has left, and the time held by pause. -/
def settleTo (p ps : Nat) (s : State) : State :=
  let k := s.port p
  let now := max k.seenPs ps
  let s := if s.pauseHeld p then
      let held := k.heldRem + (now - k.seenPs)
      mac p 48 (held / 1000) (s.modPort p (fun k => { k with heldRem := held % 1000 }))
    else s
  let s := s.modPort p (fun k => { k with seenPs := now })
  leaveBall p now (match k.flight with
    | none => s
    | some v => if v.endPs ≤ now then endFlight p v s else s)

/-- Brings a port up to the start of the current tick. -/
def settle (p : Nat) (s : State) : State := settleTo p s.nowPs s

/-- Lets time run to `ps`, which may fall within a tick, and brings the port up to it. -/
def settleAt (p ps : Nat) (s : State) : State := settleTo p ps (settle p (s.waitPs ps))

/-- Every port brought up to now. -/
def settleAll (s : State) : State := (List.range 32).foldl (fun s p => settle p s) s

/-- Whether something of a port has ended: a frame committed whole, or one that has left. -/
def State.ended (s : State) (p : Nat) : Bool :=
  (s.port p).flight.any (fun v => decide (v.endPs ≤ s.nowPs)) || (s.port p).leaving.any (fun v => decide (s.leftPs p v ≤ s.nowPs))

/-- What has ended on any port is completed: write-backs, statistics, stamps freed (R361, R362). -/
def settleEnded (s : State) : State := s.srv.ports.foldl (fun s e => if s.ended e.1 then settle e.1 s else s) s

/-- A tick with no command waiting: time passes, and what ends on the ports in it is completed (log entry 1). -/
def idle (s : State) : State := countEdges s (settleEnded (s.advance 1))

/-! ### Accesses to ring pages (R347-R351, R364, R369) -/

def execRingEnable (fn : Fin 2) (q : Fin 258) (w : Word) : State → Res State :=
  go (fun s => writeRingCfg fn.val q.val ((R.HRG_RING_CFG_EN q.val).setIn w.toNat) (settleEnded s))

def execRingDisable (fn : Fin 2) (q : Fin 258) (w : Word) : State → Res State :=
  go (fun s => writeRingCfg fn.val q.val ((R.HRG_RING_CFG_EN q.val).clearIn w.toNat) (settleEnded s))

def execRingOwner (q : Fin 256) (w : Word) : State → Res State := go (fun s => writeRingCfg 1 q.val w.toNat (settleEnded s))

def execDoorbell (fn : Fin 2) (q : Fin 258) (w : Word) (descs : List (List Byte)) : State → Res State :=
  go (fun s => doorbell fn.val q.val w.toNat (descs.map natBytes) (settleEnded s))

def execItrExpire (q : Fin 258) : State → Res State := go (fun s => itrExpire q.val (settleEnded s))

/-! ### Commit (R236, R237, R243) -/

/-- Whether frames of a queue are preemptable now: preemption active, Q7 always express (R242, R243). -/
def State.preemptable (s : State) (p q : Nat) : Bool :=
  s.on (R.MAC_STAT_PRE_ACTIVE p) && decide (q < 7) && bit (s.port p).preCfg (4 + q)

/-- What the transmitter takes next: a queue's head, or the suspended frame.  While one is suspended only express queues go first. -/
def State.nextTx (s : State) (p : Nat) : Option Nat :=
  let k := s.port p
  let ready (q : Nat) : Bool := !s.paused p q && !(s.txq p q).isEmpty
  match k.suspended with
  | none => queueIds.find? ready
  | some v =>
    match queueIds.find? (fun q => ready q && !s.preemptable p q) with
    | some q => some q
    | none => if s.paused p v.q then none else some 8

/-- The suspended frame goes on at `at_` (ps): SMD-C and its fragment count (R243). -/
def resumeTx (p at_ : Nat) (v : Flight) (s : State) : State :=
  let bt := s.bytePs p
  let endPs := at_ + (8 + (v.frame.bytes.length + 4 - v.sent)) * bt
  s.modPort p (fun k => { k with suspended := none, freePs := endPs + 12 * bt, flight := some { v with startPs := at_, endPs := endPs } })

/-- A frame is committed at `at_` (ps), in the current tick: its departure is determined, and written. -/
def commitFrame (p q at_ : Nat) (f : TxFrame) (s : State) : State :=
  let t := s.tTx p (at_ - s.nowPs)
  let bt := s.bytePs p
  let f' := { f with bytes := commitBytes s t f }
  let endPs := at_ + (8 + f'.bytes.length + 4) * bt
  let pre := s.preemptable p q
  let start := match f.kind with
    | .host r _ _ _ _ => s.rd (R.HRG_RING_THR_START r)
    | _ => 0
  let v : Flight :=
    { q := q, frame := f', startPs := at_, pre := pre, count := if pre then (s.port p).txCount else 0, endPs := endPs, start := start }
  commitEffects p t f (s.modPort p (fun k => { k with
    flight := some v, freePs := endPs + 12 * bt, txCount := if pre then (k.txCount + 1) % 4 else k.txCount }))

/-- Whether a frame at its commit bears a time that may not be sent: while its stamps are not good (R359, R501), or a PTP message while the
engine state is not served (R320, third case). -/
def State.withheld (s : State) (p : Nat) (f : TxFrame) : Bool :=
  ((f.kind.timeBearing || f.kind.oneStepHost) && !s.timed p)
    || (f.kind.timeBearing && s.ptpSilent (p / 8) && (match f.kind with
      | .ptp _ => true
      | _ => false))

/-- A time-bearing frame, or a host ONESTEP frame, at commit while it is withheld: discarded (R359, R501).  A PTP message that only the engine
state withholds counts as R320 has it: a scheduled one in SEND_SKIP, a response in STATE_WITHHELD (DEDUCED, log entry 107). -/
def withholdFrame (p : Nat) (f : TxFrame) (s : State) : State :=
  if f.kind.oneStepHost then discardFrame f true s
  else if !s.laneLocked (p / 8) then ntpStat (p / 8) 13 s
  else if !s.timed p then mac p 54 1 s
  else match f.kind with
    | .ptp m => if m.msg ∈ [0, 8, 11] then (ptpStat (p / 8) 9 s).raise (Evt.ptp (p / 8)) 16 else ptpStat (p / 8) 8 s
    | _ => s

/-- The frame the port serves next comes to its commit: `sub` ps into the current tick, or the gap after the frame before, or its
reservation, where these come later.  The instant is kept to the ps, so that no gap is stretched to a tick (R237). -/
def frameCommit (p sub : Nat) (s : State) : State :=
  let s := settle p s
  if !s.isUp p || s.flushing p then s
  else
    match s.nextTx p with
    | none => s
    | some 8 =>
      match (s.port p).suspended with
      | some v =>
        let at_ := max (s.port p).freePs (max (s.port p).seenPs (s.nowPs + sub))
        resumeTx p at_ v (settleAt p at_ s)
      | none => s
    | some q =>
      match s.txq p q with
      | [] => s
      | f :: rest =>
        let at_ := max (max (s.port p).freePs f.notBefore) (max (s.port p).seenPs (s.nowPs + sub))
        let s := settleEnded (setTxq p q rest (settleAt p at_ s))
        if s.withheld p f then withholdFrame p f s else commitFrame p q at_ f s

def execFrameCommit (p : Fin 32) (sub : Nat) : State → Res State := go (frameCommit p.val sub)

/-! ### Preemption (R242-R244) -/

/-- The bytes of the current fragment at its next permitted boundary; none where none is left (R243). -/
def State.boundary (s : State) (p : Nat) (v : Flight) : Option Nat :=
  let bt := s.bytePs p
  let done := ((s.port p).seenPs - v.startPs - 8 * bt) / (64 * bt) + 1
  let n := 64 * max done (bits (s.port p).preCfg 3 2 + 1)
  if 64 ≤ v.frame.bytes.length + 4 - v.sent - n then some n else none

/-- A preemptable frame ends a fragment, closed with its mCRC, for an express frame that waits or for its own paused queue (R243, R246). -/
def fragmentEnd (p : Nat) (s : State) : State :=
  let s := settle p s
  match (s.port p).flight with
  | none => s
  | some v =>
    let express := queueIds.any (fun q => !s.preemptable p q && !s.paused p q && !(s.txq p q).isEmpty)
    if v.pre && (express || s.paused p v.q) then
      match s.boundary p v with
      | none => s
      | some n =>
        let bt := s.bytePs p
        let s := mac p 45 1 (mac p 44 (b01 (decide (v.frags = 0))) s)
        let s := sendPart p v v.frame.bytes n (mcrc (v.frame.bytes.take (v.sent + n))) s
        s.modPort p (fun k => { k with flight := none, freePs := v.startPs + (8 + n + 4 + 12) * bt,
                                       suspended := some { v with sent := v.sent + n, frags := v.frags + 1 } })
    else s

def execFragmentEnd (p : Fin 32) : State → Res State := go (fragmentEnd p.val)

/-- VERIFY_TIME: 0 is treated as 1 ms, above 128 as 128. -/
def verifySpan (cfg : Nat) : Nat := ms16 (max 1 (min 128 (bits cfg 23 16)))

/-- Sends a verify or respond mPacket, 60 octets of 0 and their mCRC, once the transmitter is free (R242, log entry 101). -/
def sendVerify (p smd : Nat) (s : State) : State :=
  let s := settleAt p (max (s.port p).freePs s.nowPs) s
  let s := s.modPort p (fun k => { k with freePs := k.seenPs + (8 + 64 + 12) * s.bytePs p })
  s.emit (.mpacket p (smd :: verifyBody ++ le 4 (mcrc verifyBody)))

/-- A verify mPacket falls due and is sent; after three without a response VERIFY reads FAILED (R242). -/
def verifySend (p : Nat) (s : State) : State :=
  if s.rd (R.MAC_STAT_VERIFY p) = 1 then
    let k := s.port p
    let s := s.waitClk k.verifyAt
    if 3 ≤ k.verifySent then (mac p 46 1 (s.wr (R.MAC_STAT_VERIFY p) 3)).raise (Evt.mac p) 64
    else sendVerify p smdVerify (s.modPort p (fun k => { k with verifySent := k.verifySent + 1, verifyAt := k.verifyAt + verifySpan k.preCfg }))
  else s

def execVerifySend (p : Fin 32) : State → Res State := go (verifySend p.val)

/-- A respond mPacket is received and preemption becomes active (R242). -/
def verifyResponse (p : Nat) (s : State) : State :=
  if s.rd (R.MAC_STAT_VERIFY p) = 1 then (s.wr (R.MAC_STAT_VERIFY p) 2).hi (R.MAC_STAT_PRE_ACTIVE p) else s

def execVerifyResponse (p : Fin 32) : State → Res State := go (verifyResponse p.val)

/-! ### Pause (R246, R247) -/

/-- Sets or clears a queue's PAUSED bit. -/
def setPaused (p q : Nat) (v : Bool) (s : State) : State :=
  let m := s.rd (R.MAC_STAT_PAUSED p)
  s.wr (R.MAC_STAT_PAUSED p) (m - (if bit m q then 2 ^ q else 0) + (if v then 2 ^ q else 0))

/-- One queue's pause takes effect at `ps`: it starts or replaces the timer, or releases the queue. -/
def pauseQueue (p ps : Nat) (s : State) (qn : Nat × Nat) : State :=
  let s := setPaused p qn.1 (decide (qn.2 ≠ 0)) s
  let s := s.modPort p (fun k => { k with
    pauseEnd := IMap.put 0 k.pauseEnd qn.1 (if qn.2 = 0 then 0 else ps + qn.2 * s.quantumPs p) })
  if qn.1 = 7 ∧ qn.2 ≠ 0 then cancelReservations p s else s

/-- A received pause takes effect at the commit point (R246). -/
def pauseEffect (p : Nat) (s : State) : State :=
  match (s.port p).pauses with
  | [] => s
  | e :: rest =>
    let s := settleAt p e.atPs s
    let s := mac p 47 e.sum (mac p 49 e.zeros s)
    e.quanta.foldl (pauseQueue p e.atPs) (s.modPort p (fun k => { k with pauses := rest }))

def execPauseEffect (p : Fin 32) : State → Res State := go (pauseEffect p.val)

/-- A queue's pause timer runs out (R247). -/
def pauseExpire (p q : Nat) (s : State) : State :=
  let e := IMap.get 0 (s.port p).pauseEnd q
  if s.paused p q && e ≠ 0 then
    setPaused p q false ((settleAt p e s).modPort p (fun k => { k with pauseEnd := IMap.erase k.pauseEnd q }))
  else s

def execPauseExpire (p : Fin 32) (q : Fin 8) : State → Res State := go (pauseExpire p.val q.val)

/-! ### Host frames (R356-R360) -/

/-- Whether a transmit descriptor is refused (R357). -/
def badTxDesc (d : List Nat) : Bool :=
  let len := leAt d 8 2
  let cmd := d.getD 11 0
  let os := leAt d 12 2
  let one := bit cmd 2
  decide (len < 14) || decide (9212 < len) || (one && decide (2 ≤ bits cmd 5 4))
    || (one && decide (len < os + (if bits cmd 5 4 = 0 then 10 else 8)))
    || (one && decide (bits cmd 5 4 = 0) && decide (len < leAt d 14 2 + 8))
    || decide (64 ≤ cmd) || (d.drop 20).any (· ≠ 0)

/-- A posted transmit descriptor is fetched and checked, and its frame handed to its queue (R357, R358). -/
def txDescFetch (q : Nat) (data : List Nat) (s : State) : State :=
  if !s.posted q then s
  else
    let d := s.nextDesc q
    let idx := (s.ring q).fetch
    let tag := slice d 16 4
    let s := (takeDesc q s).modRing q (fun r => { r with out := r.out ++ [{ idx := idx, tag := tag }] })
    if badTxDesc d then
      refuseDesc q (finishDesc q idx (fun r => { r with back := some (txBack none tag 65) }) s)
    else
      let len := leAt d 8 2
      let b := pad60 ((data ++ List.replicate (len - data.length) 0).take len)
      let p := d.getD 10 0 % 32
      enqueue p (d.getD 10 0 / 32) { kind := .host q idx (d.getD 11 0) (leAt d 12 2) (leAt d 14 2), bytes := b } (settle p s)

def execTxDescFetch (r : Fin 128) (data : List Byte) : State → Res State := go (fun s => txDescFetch (128 + r.val) (natBytes data) (settleEnded s))

/-- A cut-through host frame runs out of data with `held` bytes sent (R239, R360): committed at START as it stood then, it ends padded to 60 bytes with an inverted FCS,
and its ring's START rises by 256. -/
def txUnderrun (p held : Nat) (s : State) : State :=
  let s := settle p s
  match (s.port p).flight with
  | none => s
  | some v =>
    match v.frame.kind with
    | .host q idx cmd _ _ =>
      let start := v.start
      if bit cmd 1 || bit cmd 2 || decide (9216 ≤ start) || decide (held < start) || decide (v.frame.bytes.length ≤ held) then s
      else
        let bt := s.bytePs p
        let b := pad60 (v.frame.bytes.take held)
        let endPs := v.startPs + (8 + (b.length - v.sent) + 4) * bt
        let s := s.modPort p (fun k => { k with flight := none, freePs := endPs + 12 * bt })
        let s := sendPart p v b (b.length - v.sent) (0xFFFFFFFF - crc32 b) s
        let s := (mac p 41 1 s).raise (Evt.mac p) 128
        let s := ringNote q 4 s
        finishDesc q idx (fun d => { d with back := some (underrunBack d) }) (raiseStart q s)
    | _ => s
where
  /-- The completion of an underrun: a two-step stamp already taken stays in it. -/
  underrunBack (d : RingDesc) : List Nat :=
    match d.sent with
    | some b => setBytes b 20 (le 2 (leAt b 20 2 ||| 16))
    | none => txBack none d.tag 19

def execTxUnderrun (p : Fin 32) (held : Nat) : State → Res State := go (txUnderrun p.val held)

/-! ### NTS reservations (R301, R302) -/

/-- The ps of the tick clock in which TS0 counts a duration in 2^-16 ns (R18), its end not before it. -/
def State.psFor (s : State) (d : Nat) : Nat :=
  let k := s.tick.bank0
  ceilDiv (d * 2 ^ 32 * 1250) ((k.incr : Int) + k.slew.give 1).toNat

/-- A finished response reserves a commit instant on Q7, at least 40 ns ahead on TS0 (R18); one that was held does so again; while Q7 is paused or
a fault lasts a finished response waits in the hold (R301, R302). -/
def ntsReserve (p : Nat) (s : State) : State :=
  let s := settle p s
  let k := s.port p
  let put (f : TxFrame) (s : State) : State := enqueue p 7 { f with notBefore := (s.port p).seenPs + s.psFor (ns16 40) } s
  if !s.isUp p then s
  else if s.flushing p || s.paused p 7 then
    match k.ready with
    | f :: rest => intoHold p f (s.modPort p (fun k => { k with ready := rest }))
    | [] => s
  else
    match k.hold with
    | (_, f) :: rest => put f (ntsStat (p / 8) 14 1 (s.modPort p (fun k => { k with hold := rest })))
    | [] =>
      match k.ready with
      | f :: rest => put f (s.modPort p (fun k => { k with ready := rest }))
      | [] => s

def execNtsReserve (p : Fin 32) : State → Res State := go (ntsReserve p.val)

/-- The oldest response in the hold has waited 1 ms (R302). -/
def ntsHoldTimeout (p : Nat) (s : State) : State :=
  match (s.port p).hold with
  | [] => s
  | (at_, _) :: rest =>
    let s := s.waitClk (at_ + ms16 1)
    (ntsStat (p / 8) 11 1 (s.modPort p (fun k => { k with hold := rest }))).raise (Evt.nts (p / 8)) 32

def execNtsHoldTimeout (p : Fin 32) : State → Res State := go (ntsHoldTimeout p.val)

end Sys2Proof.Machine
end

