-- ==== Sys2Proof/Machine/Link.lean ====
section
/-! DEFINITION. Link states of a port (R220-R226, R240-R242): configuration, training, calibration, faults, and what leaving UP does. -/

namespace Sys2Proof.Machine

/-! ### Leaving UP -/

/-- A committed frame that had not fully left is lost (R226); a host frame still to be committed to its end completes. -/
def loseFlight (p : Nat) (v : Option Flight) (s : State) : State :=
  match v with
  | none => s
  | some v =>
    let s := mac p 42 1 s
    match v.frame.kind with
    | .host q idx _ _ _ => finishDesc q idx (fun d => { d with back := some (d.sent.getD (txBack none d.tag 3)) }) s
    | _ => s

/-- Finished NTS responses of a port that leaves UP are discarded, those with a reservation on Q7 among them (R302). -/
def dropNts (p : Nat) (s : State) : State :=
  let l := s.txq p 7
  let n := (l.filter TxFrame.isNts).length + (s.port p).hold.length + (s.port p).ready.length
  let s := (setTxq p 7 (l.filter (fun f => !f.isNts)) s).modPort p (fun k => { k with hold := [], ready := [] })
  if n = 0 then s else (ntsStat (p / 8) 11 n s).raise (Evt.nts (p / 8)) 32

/-- A frame being received is discarded: one whose first fragments wait for the rest (R226); what is still on the wire shows at its end (see
frameRx), where a fragment of the same frame counts no second time. -/
def loseOpen (p : Nat) (s : State) : State :=
  let cut := (s.port p).asm.isSome
  let s := s.modPort p (fun k => { k with asm := none, cutAsm := cut })
  if cut then mac p 13 1 s else s

/-- The port leaves UP. -/
def leaveUp (p : Nat) (s : State) : State :=
  let s := settle p s
  let k := s.port p
  let s := loseFlight p k.suspended (loseFlight p k.flight (s.modPort p (fun k => { k with flight := none, leaving := [], suspended := none })))
  let s := mac p 42 k.leaving.length s
  let s := loseOpen p (dropNts p s)
  let s := (s.wr (R.MAC_STAT_VERIFY p) 0).lo (R.MAC_STAT_PRE_ACTIVE p)
  let s := s.modPort p (fun k => { k with outAt := s.clk })
  (mac p 51 1 s).raise (Evt.mac p) 2

/-- Puts a port into DOWN (0) or TRAINING (1). -/
def setLink (p st : Nat) (s : State) : State :=
  let s := if s.isUp p then leaveUp p s else s
  let s := (s.lo (R.MAC_STAT_FEC_LOCK p)).lo (R.MAC_STAT_AN_DONE p)
  (s.lo (R.MAC_STAT_FEC_USED p)).wr (R.MAC_STAT_STATE p) st

/-- The port enters UP: MAC_PRE_CFG takes effect, and verify starts or preemption is active at once (R242). -/
def enterUp (p : Nat) (s : State) : State :=
  let cfg := s.showReg (Reg.MAC_PRE_CFG p)
  let s := (mac p 52 1 (s.wr (R.MAC_STAT_STATE p) 3)).raise (Evt.mac p) 1
  let s := s.modPort p (fun k => { k with preCfg := cfg, verifySent := 0, verifyAt := s.clk, txCount := 0 })
  if !bit cfg 0 then s
  else if bit cfg 1 then s.hi (R.MAC_STAT_PRE_ACTIVE p)
  else s.wr (R.MAC_STAT_VERIFY p) 1

/-! ### Configuration (R220) -/

/-- Sets or clears CFG_ERR; with it the port stays DOWN. -/
def judgeCfg (p : Nat) (bad : Bool) (s : State) : State :=
  if bad then setLink p 0 ((s.hi (R.MAC_STAT_CFG_ERR p)).raise (Evt.mac p) 1024) else s.lo (R.MAC_STAT_CFG_ERR p)

/-- Whether MODE and FEC are a bad setting. -/
def State.badMode (s : State) (p : Nat) : Bool :=
  decide (9 ≤ s.rd (R.MAC_CFG_MODE p)) || !fecAllowed (s.rd (R.MAC_CFG_MODE p)) (s.rd (R.MAC_CFG_FEC p))

/-- A write of MAC_CFG: with EN 0 the address is not judged, and CFG_ERR stands while a bad one does (R220, R256). -/
def writeMacCfg (p w : Nat) (s : State) : State :=
  let old := s.showReg (Reg.MAC_CFG p)
  let s := s.storeReg false (Reg.MAC_CFG p) w
  let s := if s.showReg (Reg.MAC_CFG p) = old then s else setLink p 0 s
  let bad := s.badMode p || (s.on (R.MAC_CFG_EN p) && s.badAddr p)
  let s := if s.badMode p then s else setLatency p (s.rd (R.MAC_CFG_MODE p)) (s.rd (R.MAC_CFG_FEC p)) s
  if bad = false ∧ s.badAddr p = true then s else judgeCfg p bad s

def execPortConfig (p : Fin 32) (w : Word) : State → Res State :=
  go (windowWrite (p.val / 8) (Reg.MAC_CFG p.val) (writeMacCfg p.val w.toNat))

/-- A write of MAC_ADDR_LO is staged. -/
def writeMacAddrLo (p w : Nat) (s : State) : State := s.modPort p (fun k => { k with stagedLo := some (w % 2 ^ 32) })

/-- A write of MAC_ADDR_HI puts both halves in force and judges the address. -/
def writeMacAddrHi (p w : Nat) (s : State) : State :=
  let s := s.wr (R.MAC_ADDR_HI_A p) w
  let s := match (s.port p).stagedLo with
    | some v => (s.wr (R.MAC_ADDR_LO_A p) v).modPort p (fun k => { k with stagedLo := none })
    | none => s
  judgeCfg p (s.badAddr p || s.badMode p) s

def execMacAddrCommit (p : Fin 32) (w : Word) : State → Res State :=
  go (windowWrite (p.val / 8) (Reg.MAC_ADDR_HI p.val) (writeMacAddrHi p.val w.toNat))

/-! ### Training and calibration (R221-R224) -/

/-- An enabled port detects signal. -/
def portSignal (p : Nat) (s : State) : State :=
  if s.link p = 0 ∧ s.inTest = false ∧ s.on (R.MAC_CFG_EN p) ∧ s.on (R.MAC_STAT_CFG_ERR p) = false ∧ (s.port p).parked = false then setLink p 1 s else s

/-- Auto-negotiation, training and lock complete; `fec` is what Clause 73 resolved, where it ran. -/
def portTrained (p fec : Nat) (s : State) : State :=
  let mode := s.rd (R.MAC_CFG_MODE p)
  let fec := if s.anRuns p then fec else s.rd (R.MAC_CFG_FEC p)
  if s.link p = 1 ∧ fecAllowed mode fec then
    let s := ((s.wr (R.MAC_STAT_STATE p) 2).lo (R.MAC_STAT_CAL_WEAK p)).lo (R.MAC_STAT_CAL_TRIES p)
    let s := (s.wr (R.MAC_STAT_AN_DONE p) (b01 (s.anRuns p))).wr (R.MAC_STAT_FEC_LOCK p) (b01 (decide (fec ≠ 0)))
    let s := setLatency p mode fec ((s.wr (R.MAC_STAT_FEC_USED p) fec).lo (R.MAC_STAT_HI_BER p))
    s.modPort p (fun k => { k with calAt := s.clk })
  else s

/-- A 256 µs calibration pass ends: rms spreads in 0.001 ps, means in ps (R224). -/
def portCalibrated (p rmsRx rmsTx phiRx phiTx : Nat) (s : State) : State :=
  if s.link p = 2 then
    let s := s.waitClk ((s.port p).calAt + us16 256)
    if rmsRx ≤ 4000 ∧ rmsTx ≤ 4000 then
      enterUp p ((s.wr (R.MAC_TS_PHASE_PHI_RX p) phiRx).wr (R.MAC_TS_PHASE_PHI_TX p) phiTx)
    else
      let n := s.rd (R.MAC_STAT_CAL_TRIES p) + 1
      let s := (mac p 53 1 s).wr (R.MAC_STAT_CAL_TRIES p) n
      if n = 3 then enterUp p ((s.hi (R.MAC_STAT_CAL_WEAK p)).raise (Evt.mac p) 4)
      else s.modPort p (fun k => { k with calAt := s.clk })
  else s

/-- Loss of signal, PCS lock or FEC lock, or hi_ber (R223); a frame being received is discarded (R226): `inFrame` tells of one of which no
FRAME_RX will come, other than the frame being reassembled. -/
def portLost (p : Nat) (cause : LossCause) (inFrame : Bool) (s : State) : State :=
  if 2 ≤ s.link p then
    let s := match cause with
      | .pcsLock => mac p 29 1 s
      | .hiBer => (mac p 30 1 (s.hi (R.MAC_STAT_HI_BER p))).raise (Evt.mac p) 32
      | _ => s
    let s := if s.isUp p && inFrame then mac p 13 1 s else s
    setLink p 1 s
  else s

/-! ### Faults (R240, R241) -/

/-- What the reconciliation sublayer of a port in UP sends: remote fault while it detects a local fault (2), idle only while it receives
remote fault (1), else frames (0). -/
def State.rsSends (s : State) (p : Nat) : Nat :=
  if s.on (R.MAC_STAT_LOC_FAULT p) then 2 else if s.on (R.MAC_STAT_REM_FAULT p) then 1 else 0

/-- Puts out what the sublayer comes to send after a fault began or ended. -/
def rsChange (p old : Nat) (s : State) : State := if s.rsSends p = old then s else s.emit (.line p (s.rsSends p))

/-- A local fault begins, or remote fault comes to be received: queued frames go at the heads of their queues (R240). -/
def localFault (p : Nat) (rem : Bool) (s : State) : State :=
  let f := if rem then R.MAC_STAT_REM_FAULT p else R.MAC_STAT_LOC_FAULT p
  if s.on f then s
  else
    let s := rsChange p (s.rsSends p) ((settle p s).hi f)
    let s := if rem then (mac p 61 1 s).raise (Evt.mac p) 16 else (mac p 60 1 s).raise (Evt.mac p) 8
    flushQueues p s

def execLocalFault (p : Fin 32) (rem : Bool) : State → Res State := go (localFault p.val rem)

/-- The fault ends: the port sends frames again, unless the other lasts. -/
def faultEnd (p : Nat) (rem : Bool) (s : State) : State :=
  rsChange p (s.rsSends p) ((settle p s).lo (if rem then R.MAC_STAT_REM_FAULT p else R.MAC_STAT_LOC_FAULT p))

def execFaultEnd (p : Fin 32) (rem : Bool) : State → Res State := go (faultEnd p.val rem)

/-- A port has been out of UP for 1 ms (R241). -/
def queueFlush (p : Nat) (s : State) : State :=
  if s.isUp p then s else flushQueues p (settle p (s.waitClk ((s.port p).outAt + ms16 1)))

def execQueueFlush (p : Fin 32) : State → Res State := go (queueFlush p.val)

end Sys2Proof.Machine
end

