-- ==== Sys2Proof/Machine/Ensemble.lean ====
section
/-! DEFINITION. The ensemble (03): slots and their states, checks, the filter, steering, holdover, holds and publication.
Phases are exact rationals in ns; times and offsets carried by samples are integers in 2^-16 ns. -/

namespace Sys2Proof.Machine

/-! ### States (R15, R16) -/

/-- Engine states (R15), numbered as ENS_STAT codes them. -/
inductive Eng where
  | unset | settling | tracking | holdover | freewheel
deriving DecidableEq, Repr

/-- Source states (R16), numbered as ENS_SLOT_STAT codes them. -/
inductive Src where
  | absent | qualifying | qualified | suspect | quarantined
deriving DecidableEq, Repr

def Eng.code : Eng → Nat
  | .unset => 0 | .settling => 1 | .tracking => 2 | .holdover => 3 | .freewheel => 4

def Eng.ofCode : Nat → Eng
  | 1 => .settling | 2 => .tracking | 3 => .holdover | 4 => .freewheel | _ => .unset

def Src.code : Src → Nat
  | .absent => 0 | .qualifying => 1 | .qualified => 2 | .suspect => 3 | .quarantined => 4

def Src.ofCode : Nat → Src
  | 1 => .qualifying | 2 => .qualified | 3 => .suspect | 4 => .quarantined | _ => .absent

/-- The causes of ENS_SLOT_STAT CAUSE. -/
inductive Cause where
  | none | loss | jump | depart | freq | asymReest | noTime | repeat | command | spoof | lane | disabled | moved
deriving DecidableEq, Repr

def Cause.code : Cause → Nat
  | .none => 0 | .loss => 1 | .jump => 2 | .depart => 3 | .freq => 4 | .asymReest => 5 | .noTime => 6 | .repeat => 7
  | .command => 8 | .spoof => 9 | .lane => 10 | .disabled => 11 | .moved => 12

/-! ### Slots -/

def State.slot (s : State) (i : Nat) : Slot := IMap.get {} s.ens.slots i

def State.modSlot (s : State) (i : Nat) (f : Slot → Slot) : State :=
  { s with ens := { s.ens with slots := IMap.upd {} s.ens.slots i f } }

/-- Sixteen slots (R77). -/
def slotIds : List Nat := List.range 16

/-- A slot's state. -/
def State.src (s : State) (i : Nat) : Src := Src.ofCode (s.rd (R.ENS_SLOT_STAT_STATE i))

/-- Whether a slot is time-bearing (R77). -/
def timeBearing (i : Nat) : Bool := slotClassOf i ≠ 1 && slotClassOf i ≠ 4

/-- The slots of a bank's source set, as in force (R79). -/
def State.setOf (s : State) (b : Bank) : List Nat := slotIds.filter (fun i => (s.slot i).set = bankNo b)

/-- The engine state of TS0's filter, or the shadow state (R108, R110). -/
def engField : Bank → Field
  | .ts0 => R.ENS_STAT_STATE
  | .ts1 => R.ENS_STAT_S1_STATE

def State.eng (s : State) (b : Bank) : Eng := Eng.ofCode (s.rd (engField b))

/-- DECIDE_PEND of a set (R114). -/
def pendField : Bank → Field
  | .ts0 => R.ENS_STAT_DECIDE_PEND
  | .ts1 => R.ENS_STAT_S1_DECIDE_PEND

def State.filter (s : State) : Bank → Filter
  | .ts0 => s.ens.f0
  | .ts1 => s.ens.f1

def State.modFilter (s : State) (b : Bank) (f : Filter → Filter) : State :=
  match b with
  | .ts0 => { s with ens := { s.ens with f0 := f s.ens.f0 } }
  | .ts1 => { s with ens := { s.ens with f1 := f s.ens.f1 } }

/-- ns of a quantity in 2^-16 ns. -/
def toNs (x : Int) : Rat := mkRat x 65536

/-- Elapsed seconds between two readings of one clock in 2^-16 ns. -/
def secsBetween (a b : Nat) : Rat := mkRat ((b : Int) - (a : Int)) 65536000000000

/-- Elapsed seconds between two instants in 2^-16 ns. -/
def spanSecs (a b : Int) : Rat := mkRat (b - a) 65536000000000

/-- Whether `n` units of `unit` (2^-16 ns each) have passed since `since`. -/
def State.elapsed (s : State) (since span : Nat) : Bool := decide (since + span ≤ s.clk)

/-- Recomputes ENS_STAT QUAL bit `i`. -/
def setQual (i : Nat) (s : State) : State :=
  let q := s.rd R.ENS_STAT_QUAL
  s.wr R.ENS_STAT_QUAL (q - (if bit q i then 2 ^ i else 0) + (if s.src i = .qualified then 2 ^ i else 0))

/-- Whether a time-bearing slot of the set is QUALIFIED, or SUSPECT with cause ASYM_REEST (R83). -/
def State.timeHeld (s : State) (b : Bank) : Bool :=
  (s.setOf b).any (fun i => timeBearing i && (s.src i = .qualified ||
    (s.src i = .suspect && s.rd (R.ENS_SLOT_STAT_CAUSE i) = Cause.asymReest.code)))

/-- Marks when the last time-bearing slot of a set left its states, for CARRY (R83). -/
def noteTimeLeft (b : Bank) (before : Bool) (s : State) : State :=
  if before && !s.timeHeld b then s.modFilter b (fun f => { f with timeLeft := some s.clk }) else s

/-- Moves a slot to a state, with a cause where the transition has one (R98): the event bits, the log record with the sender that caused
it, the clocks that start with a state. -/
def setSrcBy (sender i : Nat) (dest : Src) (cause : Option Cause) (s : State) : State :=
  let held0 := s.timeHeld .ts0
  let held1 := s.timeHeld .ts1
  let old := s.src i
  let s := match cause with
    | some c => s.wr (R.ENS_SLOT_STAT_CAUSE i) c.code
    | none => s
  if old = dest then s
  else
    let s := (setQual i (s.wr (R.ENS_SLOT_STAT_STATE i) dest.code)).lo (R.ENS_SLOT_STAT_HELD i)
    let s := s.modSlot i (fun k =>
      let k := { k with clock := s.clk, departs := 0, run := [] }
      if dest = .absent then { k with fit := [], last := none, hist := [], longN := 0, reestAt := 0, learnAt := none }
      else if old = .absent then { k with fit := [], last := none }
      else k)
    let s := if dest = .absent ∨ dest = .quarantined then s.lo (R.ENS_SLOT_STAT_REEST i) else s
    let s := s.raise Evt.ens (if dest = .quarantined then 2 + 32 else 2)
    let s := s.logRec 0x0302 i sender [old.code, dest.code, s.rd (R.ENS_SLOT_STAT_CAUSE i)]
    noteTimeLeft .ts1 held1 (noteTimeLeft .ts0 held0 s)

/-- A transition that no sender caused. -/
def setSrc (i : Nat) (dest : Src) (cause : Option Cause) (s : State) : State := setSrcBy 0 i dest cause s

/-- Restarts a slot's qualifying or consistency clock. -/
def restartClock (i : Nat) (s : State) : State := s.modSlot i (fun k => { k with clock := s.clk })

/-- A slot's entries into SUSPECT within the last 3,600 s (R98). -/
def State.suspCount (s : State) (i : Nat) : Nat := ((s.slot i).susp.filter (fun t => decide (s.clk < t + sec16 3600))).length

/-- An entry into SUSPECT: the third within 3,600 s goes to QUARANTINED instead; ASYM_REEST is not counted (R98). -/
def enterSuspect (sender i : Nat) (cause : Cause) (s : State) : State :=
  let recent := (s.slot i).susp.filter (fun t => decide (s.clk < t + sec16 3600))
  if cause = .asymReest then setSrcBy sender i .suspect (some cause) s
  else
    let s := s.modSlot i (fun k => { k with susp := s.clk :: recent })
    let s := s.wr (R.ENS_SLOT_HIST_SUSP i) (satNat 4 (recent.length + 1))
    if recent.length + 1 ≥ 3 then setSrc i .quarantined (some .repeat) s else setSrc i .suspect (some cause) s

/-! ### Samples -/

/-- The short and long means of path delay (R103): the last 16, and of those since the long mean restarted, `n` of them, the 256 before
the last 16; newest first.  Means over fewer samples than that, the long one from one sample on, are compared too (DESIGN CHOICE, log
entry 97: the spec does not say that the windows must be full). -/
def shortMean (d : List Int) : Rat := mkRat ((d.take 16).foldl (· + ·) 0) (d.take 16).length
def longMean (d : List Int) (n : Nat) : Option Rat :=
  let l := ((d.take n).drop 16).take 256
  if l = [] then none else some (mkRat (l.foldl (· + ·) 0) l.length)

/-- The difference of a phase-only source's edge from the nearest whole second, -0.5 s to +0.5 s (R82). -/
def nearestSecond (x : Int) : Int := (x + 32768000000000) % 65536000000000 - 32768000000000

/-- The stamp of an instant read on TS0, `t` in 2^-16 ns, at the tick nearest to which the counters stood so: its places on the clock of
durations and on the tick clock at its nominal rate, counted from that tick by the increment in force, and the TS1 - TS0 difference
latched there (R39). -/
def Stretch.stamp (e : Stretch) (t : Nat) : Stamp :=
  let from_ := (t : Int) - ((e.bank0.ts / 2 ^ 32 : Nat) : Int)
  { t := t
    clk := (((e.bank0.ran / 2 ^ 32 : Nat) : Int) + from_).toNat
    k := (e.at_ * 81920 : Nat) + from_ * 351843720888320 / e.bank0.incr
    d := e.diff }

/-- The stamp of an instant of this tick. -/
def State.stampOf (s : State) (t : Nat) : Stamp := s.stretch.stamp t

/-- The stamp of an instant that tick `n` is the nearest to. -/
def State.stampAt (s : State) (n t : Nat) : Stamp := (s.stretchAt n).stamp t

/-- The upstream instances that serve a slot's domain (R341). -/
def State.feeders (s : State) (i : Nat) : List Nat :=
  (s.srv.insts.filter (fun e => e.2.on && s.on (R.PTP_INST_CFG_ROLE e.1) && s.rd (R.PTP_INST_CFG_DOM_SLOT e.1) = i - 4)).map (·.1)

/-- Whether a lane carries an upstream slot's time (R34): that of its selected master; with none selected, the lane of any upstream instance
that serves the slot's domain, and where none does nothing withdraws the slot (DESIGN CHOICE, log entry 104: R34 withdraws ports, and does
not say which slot a port serves that has no selected master). -/
def State.laneCarries (s : State) (i : Nat) : Bool :=
  let locked (j : Nat) : Bool := s.rd (R.TSC_LANE_STAT_STATE (j / 32)) = 2
  match IMap.get none s.srv.selected (i - 4) with
  | some (j, _) => locked j
  | none => s.feeders i = [] || (s.feeders i).any locked

/-- Whether a slot's lane or link carries time (R80): that of an upstream slot's lane, and that of a Mooring slot's link. -/
def State.carriesTime (s : State) (i : Nat) : Bool :=
  ((i ≠ 4 && i ≠ 5) || s.laneCarries i)
    && (i ≠ 6 || s.rd (R.MOR_LINK_STAT_STATE 0) = 4) && (i ≠ 7 || s.rd (R.MOR_LINK_STAT_STATE 1) = 4)

/-- Whether a slot is enabled. -/
def State.slotEn (s : State) (i : Nat) : Bool := s.on (R.ENS_SLOT_CFG_EN i)

/-- Whether a slot may leave ABSENT now (R80): a module that is warm, a lane that is LOCKED, a Mooring link that carries time. -/
def State.mayArrive (s : State) (i : Nat) : Bool :=
  s.slotEn i && (i ≠ 2 || s.rd (R.RFM_STAT_STATE 0) = 3) && (i ≠ 3 || s.rd (R.RFM_STAT_STATE 1) = 3) && s.carriesTime i

/-- Whether a slot's source measures a path delay (R103). -/
def twoWay (i : Nat) : Bool := decide (4 ≤ i) && decide (i < 8)

/-- A source delivers a sample to its slot, where it waits for the filter step: offset `x` against TS0 at the stamped instant (R78), and on
slots 4 to 7 the path delay `dly`. -/
def deliver (i : Nat) (p : Stamp) (x dly : Int) (spoof : Bool) (s : State) : State :=
  let u := p.k - ((p.t : Int) - x)
  let x := x + (if (s.slot i).set = 1 then p.d else 0)
  let x := if timeBearing i then x else nearestSecond x
  s.modSlot i (fun k => { k with inbox := k.inbox ++ [{ t := p.clk, x := x, k := p.k, u := u, d := p.d, dly := dly, spoof := spoof }] })

/-- Whether a path delay makes the two means of its slot differ by more than STEP_THR, which declares a path-delay step (R103). -/
def State.pathStepped (s : State) (i : Nat) (dly : Int) : Bool :=
  let k := s.slot i
  let d := (dly :: k.dlys).take 272
  twoWay i && match longMean d (k.longN + 1) with
    | none => false
    | some m => decide (|shortMean d - m| > (s.rd R.ENS_ASYM_CTL_STEP_THR : Rat) * 65536)

/-- A path delay is taken into its slot's means, and shown; the long mean restarts from the sample that declares a step (R103). -/
def takeDelay (i : Nat) (dly : Int) (s : State) : State :=
  if twoWay i then
    let d := (dly :: (s.slot i).dlys).take 272
    let n := if s.pathStepped i dly then 1 else min ((s.slot i).longN + 1) 272
    (s.modSlot i (fun k => { k with dlys := d, longN := n })).wr (R.ENS_SLOT_DLY_DLY i) (satNat 32 (rnd (shortMean d / 256)).toNat)
  else s

/-- Least-squares line through points, evaluated at `t`; the slope is per unit of `t`. -/
def lineSlope (p : List (Rat × Rat)) : Rat :=
  let n : Rat := p.length
  let sx := p.foldl (fun a q => a + q.1) 0
  let sy := p.foldl (fun a q => a + q.2) 0
  let sxx := p.foldl (fun a q => a + q.1 * q.1) 0
  let sxy := p.foldl (fun a q => a + q.1 * q.2) 0
  (n * sxy - sx * sy) / (n * sxx - sx * sx)

def lineAt (p : List (Rat × Rat)) (t : Rat) : Rat :=
  let n : Rat := p.length
  let mx := p.foldl (fun a q => a + q.1) 0 / n
  let my := p.foldl (fun a q => a + q.2) 0 / n
  my + lineSlope p * (t - mx)

/-- The slot's own prediction of a sample at `k` (R101): none with no earlier sample, the earlier one with one. -/
def predict (fit : List (Int × Int)) (k : Int) : Option Rat :=
  match fit with
  | [] => none
  | [q] => some (toNs q.2)
  | _ => some (lineAt (fit.map (fun q => (spanSecs k q.1, toNs q.2))) 0)

/-- A sample's place in its slot's line: a phase-only source marks a second and does not say which, so it stands in the half second
about the sample before it (R82). -/
def placeIn (i : Nat) (fit : List (Int × Int)) (u : Int) : Int :=
  match timeBearing i, fit with
  | false, q :: _ => q.2 + nearestSecond (u - q.2)
  | _, _ => u

/-- A slot's record as it reads under a correction larger by `dx` (2^-16 ns). -/
def Slot.corrected (k : Slot) (dx : Int) : Slot :=
  { k with
    last := k.last.map (fun q => (q.1, q.2 - dx))
    hist := k.hist.map (fun h => { h with seen := h.seen.map (fun q => { q with x := q.x - dx, e := q.e - toNs dx }) }) }

/-- The sample corrected by bias or asymmetry (R82, R103), in 2^-16 ns. -/
def corrected (k : Slot) (i : Nat) (x : Int) : Int :=
  if timeBearing i then (if 4 ≤ i ∧ i < 8 then x - k.asym * 256 else x) else x - k.bias

/-! ### Noise and weights (R84, R85, R89) -/

/-- Noise coefficients of a slot: q_wpm in ns², q_wfm in ns²/s, q_rwfm in ns²/s³. -/
def State.qWpm (s : State) (i : Nat) : Rat := mkRat (max 1 (s.rd (R.ENS_SLOT_WPM_Q i)) : Nat) 10000
def State.qWfm (s : State) (i : Nat) : Rat := mkRat (s.rd (R.ENS_SLOT_WFM_Q i) : Nat) 1000000000
def State.qRwfm (s : State) (i : Nat) : Rat := mkRat (s.rd (R.ENS_SLOT_RWFM_Q i) : Nat) 1000000000000000

/-- A slot's weight with `n` samples, the newest `a` seconds old (R84). -/
def State.weight (s : State) (i n : Nat) (a : Rat) : Rat :=
  let v := s.qWpm i / n + s.qWfm i * a + s.qRwfm i * a * a * a / 3
  let v := if v < mkRat 1 10000 then mkRat 1 10000 else v
  (if s.on (R.ENS_SLOT_STAT_ASYM_SUSPECT i) then mkRat 1 16 else 1) / v

/-- The slot of a module anchor; none for the board clock. -/
def State.anchorSlot (s : State) : Option Nat :=
  match s.rd R.ENS_ANCHOR_ACTIVE with
  | 1 => some 2
  | 2 => some 3
  | _ => none

/-- The active anchor's noise model (R89). -/
def State.anchorWfm (s : State) : Rat :=
  match s.anchorSlot with
  | some i => s.qWfm i
  | none => mkRat (s.rd R.ENS_LOC_WFM_Q : Nat) 1000000000
def State.anchorRwfm (s : State) : Rat :=
  match s.anchorSlot with
  | some i => s.qRwfm i
  | none => mkRat (s.rd R.ENS_LOC_RWFM_Q : Nat) 1000000000000000

/-- Word `k` of the identity record of the module that is slot `i`'s source. -/
def State.recWord (s : State) (i k : Nat) : Int := s.rdSigned (R.RFM_REC_REC ((i - 2) * 32 + k))

/-- Words 18 to 21 of the anchor module's record: as a warm reset kept them, until the record has been read again (R109). -/
def State.anchorWord (s : State) (i k : Nat) : Int := if s.ens.recKept = [] then s.recWord i k else s.ens.recKept.getD (k - 18) 0

/-- What a warm reset keeps of them. -/
def State.keepWords (s : State) : List Int := match s.anchorSlot with
  | some i => [18, 19, 20, 21].map (s.anchorWord i)
  | none => []

/-- They are in force no longer: the record has been read again, the module is gone, or the anchor has changed. -/
def dropWords (s : State) : State := { s with ens := { s.ens with recKept := [] } }

/-- The anchor's ageing model in fractional frequency per s (R111): AGE of its record, or ENS_LOC_AGE. -/
def State.anchorAge (s : State) : Rat :=
  match s.anchorSlot with
  | some i => mkRat (s.anchorWord i 18) (10 ^ 18)
  | none => mkRat (s.rdSigned R.ENS_LOC_AGE_AGE) (10 ^ 18)

/-- The temperature coefficients c1 to c3 (R112). -/
def State.anchorTc (s : State) (k : Nat) : Rat :=
  match s.anchorSlot with
  | some i => mkRat (s.anchorWord i (18 + k)) (10 ^ 15)
  | none => mkRat (s.rdSigned (R.ENS_TC_C (k - 1))) (10 ^ 15)

/-- Die temperature of the last step in °C. -/
def State.tempC (s : State) : Rat := mkRat (s.rdSigned R.ENS_TEMP_TEMP) 256

/-- tc at a die temperature, in ns/s (R112). -/
def State.tc (s : State) (temp : Rat) : Rat :=
  let d := temp - 25
  (s.anchorTc 1 * d + s.anchorTc 2 * d * d + s.anchorTc 3 * d * d * d) * 1000000000

/-- The temperature feedforward of a step, in ns/s: from the die temperature of the last step to this one's, by the coefficients in
force (R87, R112). -/
def State.feedforward (s : State) : Rat :=
  match s.on R.ENS_CTL_TC_EN, s.ens.tempLast with
  | true, some t => s.tc s.tempC - s.tc t
  | _, _ => 0

/-! ### Holdover (R111, R113) -/

/-- DRIFT_WIN in 2^-16 ns. -/
def State.driftWin (s : State) : Nat := sec16 (max 1 (s.rd R.ENS_CTL_DRIFT_WIN) * 3600)

/-- The record over the last DRIFT_WIN hours, as (s, fractional frequency); none while the whole record spans less than 6 h, or where
those hours hold fewer than the three entries a slope and its error need (DESIGN CHOICE, log entry 97: the spec names only the first). -/
def State.driftRec (s : State) (f : Filter) : Option (List (Rat × Rat)) :=
  match f.drift, f.drift.getLast? with
  | newest :: _, some oldest =>
    let r := f.drift.filter (fun q => decide ((s.clk : Int) ≤ q.1 + (s.driftWin : Int)))
    if decide (oldest.1 + (sec16 21600 : Nat) ≤ newest.1) && decide (3 ≤ r.length) then
      some (r.map (fun q => (spanSecs newest.1 q.1, q.2)))
    else none
  | _, _ => none

/-- The drift estimate in fractional frequency per s: the negative slope of the record, or the ageing model (R111). -/
def State.driftEst (s : State) (f : Filter) : Rat :=
  match s.driftRec f with
  | some p => -lineSlope p
  | none => s.anchorAge

/-- Standard error of a least-squares slope. -/
def slopeStdErr (p : List (Rat × Rat)) : Rat :=
  let n : Rat := p.length
  let mx := p.foldl (fun a q => a + q.1) 0 / n
  let sse := p.foldl (fun a q => a + (q.2 - lineAt p q.1) * (q.2 - lineAt p q.1)) 0
  let sxx := p.foldl (fun a q => a + (q.1 - mx) * (q.1 - mx)) 0
  sqrtRat (sse / ((n - 2) * sxx) * 10 ^ 40) / 10 ^ 20

/-- Dd of R113 in ns/s². -/
def State.driftErr (s : State) (f : Filter) : Rat :=
  (match s.driftRec f with
   | some p => 3 * slopeStdErr p
   | none => |s.anchorAge|) * 1000000000

/-- E(t) of R113, in ns. -/
def State.estError (s : State) (f : Filter) : Rat :=
  let t := secsBetween f.hoAt s.clk
  f.hoE0 + f.hoY * t + f.hoDd * t * t / 2 + 3 * sqrtRat (s.anchorWfm * t + s.anchorRwfm * t * t * t / 3)
    + mkRat (s.rd R.ENS_HO_TCR_TCR : Nat) 1000000 * f.hoTempInt

/-- The holdover budget in ns. -/
def State.budget (s : State) : Rat := (max 1 (s.rd R.ENS_HO_BUDGET_BUDGET) : Nat)

/-! ### Bands -/

def State.band1 (s : State) : Rat := (s.rd R.ENS_BAND1_LIMIT : Nat)
def State.band2 (s : State) : Rat := (s.rd R.ENS_BAND2_LIMIT * 1000 : Nat)

/-- The band rate of R91 in fractional frequency. -/
def State.bandRate (s : State) (theta : Rat) : Rat :=
  let r := if |theta| ≤ s.band1 then max 1 (s.rd R.ENS_BAND1_RATE) else max 1 (s.rd R.ENS_BAND2_RATE)
  min (mkRat (s.slewMaxPpm : Nat) 1000000) (mkRat (r : Nat) 10000000)

/-! ### Engine state (R108) -/

/-- What a change of the engine or shadow state from `old` shows: the event and, for the engine state, the record with the sender that caused
it (R108, R470, R472). -/
def tellEng (sender : Nat) (b : Bank) (old : Eng) (s : State) : State :=
  match b with
  | .ts0 => (s.raise Evt.ens 1).logRec 0x0301 0 sender ([old.code, (s.eng .ts0).code] ++ le 4 (s.rd R.ENS_ERR_ERR))
  | .ts1 => s.raise Evt.ens 256

/-- Changes the engine or shadow state. -/
def setEngBy (sender : Nat) (b : Bank) (dest : Eng) (s : State) : State :=
  if s.eng b = dest then s else tellEng sender b (s.eng b) (s.wr (engField b) dest.code)

/-- A change that no sender caused. -/
def setEng (b : Bank) (dest : Eng) (s : State) : State := setEngBy 0 b dest s

/-- The filter has taken in all phase given so far; what is given from here on is counted beyond the increment in force (R88). -/
def settlePhase (b : Bank) (s : State) : State := s.modBank b (fun k => { k with phaseAcc := 0, incrRef := s.incrOf b })

/-- The start of the filter from a known phase, as an engine leaves UNSET (R108). -/
def startFilter (b : Bank) (theta : Rat) (s : State) : State :=
  let s := s.modFilter b (fun f =>
    { f with theta := theta, p00 := Config.startP00, p01 := Config.startP01, p11 := Config.startP11, settleAt := none })
  let s := if b = .ts0 then { s with ens := { s.ens with refAt := none } } else s
  settlePhase b s

/-- Entry to HOLDOVER: the drift estimate is loaded and the error model starts (R111, R113). -/
def enterHoldover (sender : Nat) (b : Bank) (s : State) : State :=
  let s := s.modFilter b (fun f =>
    { f with
      d := s.driftEst f * 1000000000
      hoAt := s.clk
      hoE0 := 3 * sqrtRat f.p00
      estErr := 3 * sqrtRat f.p00
      hoY := 3 * sqrtRat f.p11
      hoDd := s.driftErr f
      hoTemp := s.tempC
      hoTempInt := 0 })
  setEngBy sender b .holdover s

/-- Entry to TRACKING. -/
def enterTracking (sender : Nat) (b : Bank) (s : State) : State :=
  setEngBy sender b .tracking (s.modFilter b (fun f => { f with d := 0 }))

/-! ### Re-estimation and asymmetry (R104-R107) -/

/-- The QUALIFIED slots of a set. -/
def State.qualifiedOf (s : State) (b : Bank) : List Nat := (s.setOf b).filter (fun i => s.src i = .qualified)

/-- The bank a slot's set steers. -/
def State.slotBank (s : State) (i : Nat) : Bank := if (s.slot i).set = 1 then .ts1 else .ts0

/-- Whether another slot than `i` is among the QUALIFIED ones of its set. -/
def another (qs : List Nat) (i : Nat) : Bool := qs.any (fun j => j ≠ i)

/-- Starts re-estimation of a slot's asymmetry, `sender` having asked for it (0: nobody). -/
def startReestBy (sender i : Nat) (s : State) : State :=
  (s.modSlot i (fun k => { k with reestAt := s.clk, reestSum := 0, reestN := 0, reestBy := sender })).hi (R.ENS_SLOT_STAT_REEST i)

/-- One that a path-delay step starts. -/
def startReest (i : Nat) (s : State) : State := startReestBy 0 i s

/-- Re-estimation by R104 where no path-delay step began it (R106): a QUALIFIED slot goes to SUSPECT, one that is QUALIFYING or SUSPECT
stays, and any other has nothing to estimate. -/
def beginReest (sender i : Nat) (s : State) : State :=
  match s.src i with
  | .qualified => startReestBy sender i (enterSuspect sender i .asymReest s)
  | .qualifying => startReestBy sender i s
  | .suspect => startReestBy sender i s
  | _ => s

/-- Marks a slot's asymmetry correction frozen (R105). -/
def markAsym (i : Nat) (s : State) : State := (s.hi (R.ENS_SLOT_STAT_ASYM_SUSPECT i)).raise Evt.ens 8

/-- What a declared path-delay step does to its slot, `qs` being the QUALIFIED slots of its set after order 1 (R104, R105, R107). -/
def pathDelayStep (qs : List Nat) (i : Nat) (s : State) : State :=
  match s.src i with
  | .qualified =>
    if another qs i then startReest i (enterSuspect 0 i .asymReest s) else markAsym i s
  | .suspect =>
    if s.on (R.ENS_SLOT_STAT_REEST i) || another qs i then startReest i s else restartClock i (markAsym i s)
  | .qualifying =>
    if s.on (R.ENS_SLOT_STAT_REEST i) || another qs i then startReest i s else restartClock i (markAsym i s)
  | _ => s

/-- The end of re-estimation: ASYM takes the mean of x - θ, the record is written, and the slot goes on (R104, R107).  ASYM_SUSPECT is
cleared here, at the end and not at the start of the re-estimation that R106 clears it by (DESIGN CHOICE, log entry 97). -/
def endReest (i : Nat) (s : State) : State :=
  let k := s.slot i
  let old := s.rd (R.ENS_SLOT_ASYM_A i)
  let new := satSigned 32 (k.asym + (if k.reestN = 0 then 0 else rnd (k.reestSum / k.reestN * 256)))
  let s := s.modSlot i (fun k => { (k.corrected ((new - k.asym) * 256)) with asym := new, asymWritten := false, reestAt := 0 })
  let s := (s.wr (R.ENS_SLOT_ASYM_A i) (ofSigned 32 new)).lo (R.ENS_SLOT_STAT_REEST i)
  let s := s.lo (R.ENS_SLOT_STAT_ASYM_SUSPECT i)
  let s := s.logRec 0x0303 i k.reestBy (le 4 old ++ le 4 (ofSigned 32 new))
  if s.src i = .suspect ∧ s.rd (R.ENS_SLOT_STAT_CAUSE i) = Cause.asymReest.code then setSrc i .qualified none s
  else restartClock i s

/-- Re-estimation in progress: once REEST seconds have passed it ends. -/
def reestComplete (i : Nat) (s : State) : State :=
  if s.on (R.ENS_SLOT_STAT_REEST i) && s.elapsed (s.slot i).reestAt (sec16 (s.rd R.ENS_ASYM_CTL_REEST)) then endReest i s
  else s

/-! ### Loss and carry -/

/-- LOSS of a slot in 2^-16 ns; 0 is treated as 1 ms. -/
def State.lossTime (s : State) (i : Nat) : Nat := ms16 (max 1 (s.rd (R.ENS_SLOT_TIME_LOSS i)))

/-- GNSS long sleep suspends loss detection of slots 0 and 1 (R100). -/
def State.lossSuspended (s : State) (i : Nat) : Bool := i < 2 && s.gnss.lossHeld

/-- The instant of a slot's newest sample, those included that wait for the next filter step. -/
def Slot.newestAt (k : Slot) : Nat := k.inbox.foldl (fun a q => max a q.t) k.heard

/-- Loss of a slot: no sample for LOSS (R98). -/
def slotLoss (i : Nat) (s : State) : State :=
  if (s.src i = .qualifying ∨ s.src i = .qualified ∨ s.src i = .suspect)
      ∧ s.lossSuspended i = false ∧ s.elapsed (s.slot i).newestAt (s.lossTime i) = true then
    setSrc i .absent (some .loss) s
  else s

/-- Whether CARRY still covers a phase-only slot (R83). -/
def State.carryOk (s : State) (b : Bank) (i : Nat) : Bool :=
  s.timeHeld b ||
  match (s.filter b).timeLeft with
  | none => false
  | some t => decide (s.clk < t + sec16 (s.rd (R.ENS_SLOT_LIM_CARRY i)))

/-- CARRY runs out (R83, R98). -/
def carryExpire (b : Bank) (i : Nat) (s : State) : State :=
  if timeBearing i = false ∧ s.src i = .qualified ∧ s.carryOk b i = false then setSrc i .qualifying (some .noTime) s else s

/-- A slot whose lane or link carries no time: what it delivered is dropped, and it is ABSENT with cause LANE (R34, R80, R381), unless it is
disabled, when it is ABSENT for that, or QUARANTINED: it stays so (R98) and only reads ABSENT (R34, R80) until time is carried again (DESIGN
CHOICE, log entry 104). -/
def withdraw (i : Nat) (s : State) : State :=
  let s := s.modSlot i (fun k => { k with inbox := [] })
  if s.src i = .quarantined ∨ s.slotEn i = false then s else setSrc i .absent (some .lane) s

/-! ### Judging a slot (R98, R99) -/

/-- DEV of a slot in ns. -/
def State.dev (s : State) (i : Nat) : Rat := (max 1 (s.rd (R.ENS_SLOT_THR_DEV i)) : Nat)

/-- Every sample of the last 256 steps within `lim` of the set's phase. -/
def Slot.within (k : Slot) (lim : Rat) : Bool := k.hist.all (fun h => h.seen.all (fun q => decide (|q.e| ≤ lim)))

/-- Whether a slot delivered a sample in the last 256 steps. -/
def Slot.sampled (k : Slot) : Bool := k.hist.any (fun h => h.seen ≠ [])

/-- Agrees (R98). -/
def State.agrees (s : State) (i : Nat) : Bool := (s.slot i).sampled && (s.slot i).within (s.dev i)

/-- Corroborated (R98): agrees, and a slot of another class among the QUALIFIED ones of the set contributed to every one of the last
256 steps. -/
def State.corroborated (s : State) (qs : List Nat) (i : Nat) : Bool :=
  s.agrees i && qs.any (fun j => slotClassOf j ≠ slotClassOf i && (s.slot j).hist.length = 256 && (s.slot j).hist.all (fun h => h.used))

/-- Consistent for CONSIST seconds: the clock restarts at every failed jump check. -/
def State.consistent (s : State) (i : Nat) : Bool :=
  s.elapsed (s.slot i).clock (sec16 (max 1 (s.rd R.ENS_CTL_CONSIST)))

/-- QUAL seconds without a jump. -/
def State.qualTime (s : State) (i : Nat) : Bool := s.elapsed (s.slot i).clock (sec16 (s.rd (R.ENS_SLOT_TIME_QUAL i)))

/-- Mean of the offsets a slot delivered in one step, in ns. -/
def SlotStep.mean (h : SlotStep) : Rat := h.seen.foldl (fun a q => a + toNs q.x) 0 / h.seen.length

/-- Two slots agree with each other in FREEWHEEL: at every one of the last 256 steps at which both delivered a sample, with at
least 4 such steps (R99). -/
def State.agreeTogether (s : State) (i j : Nat) : Bool :=
  let both := ((s.slot i).hist.zip (s.slot j).hist).filter (fun p => p.1.seen ≠ [] && p.2.seen ≠ [])
  decide (4 ≤ both.length) && both.all (fun p => decide (|p.1.mean - p.2.mean| ≤ max (s.dev i) (s.dev j)))

/-- The condition of R99 for the engine state.  In HOLDOVER the limit at every sample of the last 256 steps is E(t) as it stands at the step
that judges (DESIGN CHOICE, log entry 104: R99 does not say whether E(t) is that of the sample's own step). -/
def State.qualifies (s : State) (b : Bank) (i : Nat) : Bool :=
  (timeBearing i || ((s.on (R.ENS_SLOT_STAT_BIAS_OK i) || s.on (R.ENS_SLOT_CFG_BIAS_FIX i)) && s.carryOk b i))
  && !s.on (R.ENS_SLOT_STAT_REEST i)
  && match s.eng b with
    | .tracking => s.qualTime i && s.agrees i
    | .unset => timeBearing i && s.qualTime i
    | .settling => timeBearing i && s.qualTime i
    | .holdover => (s.qualTime i && (s.slot i).sampled && (s.slot i).within ((s.filter b).estErr + s.dev i))
        || s.consistent i
    | .freewheel => s.consistent i || (s.qualTime i && slotIds.any (fun j => j ≠ i && (s.slot j).set = (s.slot i).set
        && s.src j = .qualifying && slotClassOf j ≠ slotClassOf i && s.agreeTogether i j))

/-- Whether a SUSPECT slot may return: no re-estimation runs, and a phase-only slot has its time held (R83).  That one that re-estimates for
another cause than ASYM_REEST waits for its end too is the model's choice (DESIGN CHOICE, log entry 104: R107 says so of a QUALIFYING slot
only, and has the consistency clock of a SUSPECT one restart at that end). -/
def State.mayReturn (s : State) (b : Bank) (i : Nat) : Bool :=
  !s.on (R.ENS_SLOT_STAT_REEST i) && (timeBearing i || s.carryOk b i)

/-- Whether a slot meets its conditions to become QUALIFIED, `qs` being the QUALIFIED slots of its set after order 1; one whose state or
clock began anew at this instant waits for the next step, and one that a long sleep leaves without samples keeps its state (R100). -/
def State.ready (s : State) (b : Bank) (qs : List Nat) (i : Nat) : Bool :=
  decide ((s.slot i).clock ≠ s.clk) && !s.lossSuspended i && match s.src i with
  | .qualifying => s.qualifies b i
  | .suspect => s.mayReturn b i && (s.corroborated qs i || s.consistent i)
  | _ => false

/-- The newest corrected offset of a slot, in ns, with its instant. -/
def Slot.newest (k : Slot) : Option (Nat × Rat) := k.last.map (fun q => (q.1, toNs q.2))

/-- Weighted mean offset of slots (R114): of each its newest sample, with the weight R84 gives one sample of that age (DESIGN CHOICE, log
entry 97: the rule does not say by which samples and weights the mean is formed). -/
def State.meanOffset (s : State) (is : List Nat) : Rat :=
  let ws := is.filterMap (fun i => (s.slot i).newest.map (fun q => (s.weight i 1 (secsBetween q.1 s.clk), q.2)))
  let sw := ws.foldl (fun a q => a + q.1) 0
  if sw = 0 then 0 else ws.foldl (fun a q => a + q.1 * q.2) 0 / sw

/-- Whether an offset above band 2 is held rather than taken (R114). -/
def State.holds (s : State) (b : Bank) : Bool :=
  match s.eng b with
  | .holdover => true
  | .freewheel => true
  | .tracking => false
  | _ => s.on R.TSC_STAT_SERVED

/-- Holds slots for a decision (R114). -/
def holdSlots (b : Bank) (is : List Nat) (m : Rat) (s : State) : State :=
  let s := is.foldl (fun s i => s.hi (R.ENS_SLOT_STAT_HELD i)) s
  if s.on (pendField b) then s
  else
    let held := satSigned 48 (rnd (m * 65536))
    let s := s.modFilter b (fun f => { f with held := held })
    ((s.hi (pendField b)).raise Evt.ens 4).logRec 0x0304 0 0 (le 6 (ofSigned 48 held))

/-- Releases the hold flags of a set. -/
def endHold (b : Bank) (s : State) : State :=
  ((s.setOf b).foldl (fun s i => s.lo (R.ENS_SLOT_STAT_HELD i)) s).lo (pendField b)

/-- The slots that meet their conditions qualify together, or are held (R99, R114). -/
def judgeReady (b : Bank) (qs : List Nat) (s : State) : State :=
  let is := (s.setOf b).filter (s.ready b qs)
  if is = [] then (if s.on (pendField b) then endHold b s else s)
  else
    let m := s.meanOffset is
    if s.holds b && decide (|m| > s.band2) then
      holdSlots b is m (((s.setOf b).filter (fun i => i ∉ is)).foldl (fun s i => s.lo (R.ENS_SLOT_STAT_HELD i)) s)
    else is.foldl (fun s i => setSrc i .qualified none s) (if s.on (pendField b) then endHold b s else s)

/-- One slot meets its conditions outside a filter step: with every slot of its set that meets them it is held where their weighted mean
offset asks for it, else it becomes QUALIFIED (R114). -/
def qualifyOne (b : Bank) (i : Nat) (s : State) : State :=
  let is := (s.setOf b).filter (fun j => j = i || s.ready b (s.qualifiedOf b) j)
  if s.holds b && decide (|s.meanOffset is| > s.band2) then holdSlots b is (s.meanOffset is) s
  else setSrc i .qualified none s

/-- QUAL time expires on one slot (R99). -/
def slotQualify (b : Bank) (i : Nat) (s : State) : State :=
  if s.src i = .qualifying ∧ s.lossSuspended i = false ∧ s.qualifies b i = true then qualifyOne b i s else s

/-- CONSIST time passes on one SUSPECT slot (R98), a phase-only one with its time held (R83). -/
def slotConsistent (b : Bank) (i : Nat) (s : State) : State :=
  if s.src i = .suspect ∧ s.lossSuspended i = false ∧ s.mayReturn b i = true ∧ s.consistent i = true then qualifyOne b i s else s

/-! ### Order 1: commands and configuration (R87) -/

/-- A learned bias is discarded; a fixed one stands (R82). -/
def forgetBias (i : Nat) (s : State) : State :=
  if s.on (R.ENS_SLOT_CFG_BIAS_FIX i) then s.modSlot i (fun k => { k with learned := false })
  else
    (s.modSlot i (fun k => { (k.corrected (-k.bias)) with bias := 0, learned := false, learnAt := none })).lo
      (R.ENS_SLOT_STAT_BIAS_OK i)

/-- A written bias comes in force with BIAS_FIX at 1, and BIAS_OK reads whether a bias is in force that was learned or is fixed (R82). -/
def biasOrder1 (i : Nat) (s : State) : State :=
  let fixed := s.on (R.ENS_SLOT_CFG_BIAS_FIX i)
  let s := if (s.slot i).biasWritten && fixed then
      let b := toSigned 48 (s.rd (R.ENS_SLOT_BIAS_B i) + s.rd (R.ENS_SLOT_BIAS_HI_B i) * 2 ^ 32) * 256
      s.modSlot i (fun k => { (k.corrected (b - k.bias)) with bias := b, biasWritten := false, learned := false })
    else s.modSlot i (fun k => { k with biasWritten := false })
  if timeBearing i then s else s.wr (R.ENS_SLOT_STAT_BIAS_OK i) (b01 (fixed || (s.slot i).learned))

/-- A slot whose samples measure against the other timescale from here on (R78): those not yet taken in by TS1 - TS0 as it was latched with
each, its newest one and what its checks have seen by the difference `d` as it stands. -/
def Slot.rebased (k : Slot) (i set : Nat) (d : Int) : Slot :=
  let turn (x d : Int) : Int :=
    let x := x + ((set : Int) - (k.set : Int)) * d
    if timeBearing i then x else nearestSecond x
  { k with
    set := set
    inbox := k.inbox.map (fun q => { q with x := turn q.x q.d })
    last := k.last.map (fun q => (q.1, turn q.2 d))
    hist := k.hist.map (fun h => { h with seen := h.seen.map (fun q => { q with x := turn q.x d }) })
    run := k.run.map (fun x => turn x d) }

/-- A slot moved to the other set (R79).  A re-estimation under way runs on, over the samples of both sets (DESIGN CHOICE, log entry 97:
R79 names the state only). -/
def Slot.moved (k : Slot) (i set : Nat) (d : Int) : Slot := { (k.rebased i set d) with hist := [], learnAt := none, run := [] }

/-- A slot's commands and configuration writes take effect (R79, R82, R98, R106), and one whose lane or link carries no time reads so
(R80). -/
def slotOrder1 (i : Nat) (s : State) : State :=
  let k := s.slot i
  let s := if k.enOff then
      setSrcBy k.by_ i .absent (some .disabled) (forgetBias i (s.modSlot i (fun k => { k with enOff := false })))
    else s
  let set := s.rd (R.ENS_SLOT_CFG_SET i)
  let s := if set ≠ k.set then
      let held0 := s.timeHeld .ts0
      let held1 := s.timeHeld .ts1
      let d := s.tsDiff
      let s := noteTimeLeft .ts1 held1 (noteTimeLeft .ts0 held0 (s.modSlot i (fun k => k.moved i set d)))
      if s.src i = .qualifying ∨ s.src i = .qualified ∨ s.src i = .suspect then
        (restartClock i (setSrcBy k.by_ i .qualifying (some .moved) s)).lo (R.ENS_SLOT_STAT_HELD i) else s
    else s
  let quar := s.on (R.ENS_SLOT_CMD_QUARANTINE i)
  let s := if quar && s.slotEn i then setSrcBy k.by_ i .quarantined (some .command) s
    else if s.on (R.ENS_SLOT_CMD_RELEASE i) && s.src i = .quarantined then setSrcBy k.by_ i .qualifying none s else s
  let s := if s.on (R.ENS_SLOT_CMD_CLR_ASYM i) then s.lo (R.ENS_SLOT_STAT_ASYM_SUSPECT i) else s
  let s := if s.on (R.ENS_SLOT_CMD_RELEARN i) then
      if timeBearing i then (if 4 ≤ i && i < 8 && another (s.qualifiedOf (s.slotBank i)) i then beginReest k.by_ i s else s)
      else forgetBias i s
    else s
  let s := ((s.lo (R.ENS_SLOT_CMD_RELEASE i)).lo (R.ENS_SLOT_CMD_QUARANTINE i)).lo (R.ENS_SLOT_CMD_CLR_ASYM i)
  let s := s.lo (R.ENS_SLOT_CMD_RELEARN i)
  let s := if (s.slot i).asymWritten then
      let a := s.rdSigned (R.ENS_SLOT_ASYM_A i)
      s.modSlot i (fun k => { (k.corrected ((a - k.asym) * 256)) with asym := a, asymWritten := false }) else s
  let s := biasOrder1 i s
  if s.carriesTime i then s else withdraw i s

/-- The bank a decision names. -/
def State.decideBank (s : State) : Bank := if s.on R.ENS_DECIDE_SET then .ts1 else .ts0

/-- The decision command waiting in ENS_DECIDE is carried out or refused (R114). -/
def decideOrder1 (s : State) : State :=
  if s.on R.ENS_DECIDE_GO then
    let b := s.decideBank
    let a := s.rd R.ENS_DECIDE_ACTION
    let s := s.lo R.ENS_DECIDE_GO
    let is := (s.setOf b).filter (fun i => s.on (R.ENS_SLOT_STAT_HELD i))
    if s.on (pendField b) = false ∨ a = 0 ∨ a = 3 then s.hi R.ENS_DECIDE_REFUSED
    else if a = 1 then
      let s := is.foldl (fun s i => setSrcBy s.ens.decideBy i .qualified none s) (endHold b s)
      ((enterTracking s.ens.decideBy b s).modFilter b (fun f => { f with slewMax := true })).hi R.ENS_DECIDE_DONE
    else (is.foldl (fun s i => setSrcBy s.ens.decideBy i .quarantined (some .command) s) (endHold b s)).hi R.ENS_DECIDE_DONE
  else s

/-! ### Frequency anchor (R95-R97) -/

/-- Whether candidate `c` (0 board, 1 REFA, 2 REFB) is present as an anchor. -/
def State.candidate (s : State) (c : Nat) : Bool := c = 0 || s.on (R.RFM_STAT_CANDIDATE (c - 1))

/-- A candidate fit to fall back to: a module's clock with its slot neither ABSENT nor QUARANTINED (R97). -/
def State.fallbackOk (s : State) (c : Nat) : Bool :=
  s.candidate c && s.src (c + 1) ≠ .absent && s.src (c + 1) ≠ .quarantined

/-- The fallback of R97: the other module's clock, else the board clock. -/
def State.fallback (s : State) (lost : Nat) : Nat :=
  if lost ≠ 1 ∧ s.fallbackOk 1 = true then 1 else if lost ≠ 2 ∧ s.fallbackOk 2 = true then 2 else 0

/-- Changes the active anchor, without a phase step: the DPLL sets its divider from the candidate's last 1 s measurement (R96). -/
def setAnchor (c : Nat) (s : State) : State :=
  if s.rd R.ENS_ANCHOR_ACTIVE = c then s.lo R.ENS_ANCHOR_HOLD
  else
    let s := dropWords { s with ens := { s.ens with divider := IMap.get none s.ens.clockHz c } }
    ((s.wr R.ENS_ANCHOR_ACTIVE c).lo R.ENS_ANCHOR_HOLD).raise Evt.ens 64

/-- SEL, 3 treated as 0. -/
def State.anchorSel (s : State) : Nat := if s.rd R.ENS_ANCHOR_SEL = 3 then 0 else s.rd R.ENS_ANCHOR_SEL

/-- The anchor at a filter step: a lost one falls back; a newly selected one that is present is taken (R95-R97). -/
def anchorOrder1 (s : State) : State :=
  if s.on R.ENS_ANCHOR_HOLD then setAnchor (s.fallback (s.rd R.ENS_ANCHOR_ACTIVE)) { s with ens := { s.ens with anchorFall := true } }
  else if s.ens.anchorFall then s
  else if s.candidate s.anchorSel then setAnchor s.anchorSel s
  else setAnchor (s.fallback s.anchorSel) { s with ens := { s.ens with anchorFall := true } }

/-- Notes since when a candidate is present. -/
def anchorFrom (c : Nat) (s : State) : State :=
  { s with ens := { s.ens with anchorSince := IMap.put 0 s.ens.anchorSince c s.clk } }

/-- The active anchor misses 4 cycles (R97): its presence begins anew. -/
def anchorHold (s : State) : State := anchorFrom (s.rd R.ENS_ANCHOR_ACTIVE) (s.hi R.ENS_ANCHOR_HOLD)

/-- The selected anchor returns after 60 s of presence with its slot out of ABSENT (R97). -/
def anchorReturn (s : State) : State :=
  let c := s.anchorSel
  if s.ens.anchorFall && s.candidate c && (c = 0 || s.src (c + 1) ≠ .absent) then
    let s := s.waitClk (IMap.get 0 s.ens.anchorSince c + sec16 60)
    setAnchor c { s with ens := { s.ens with anchorFall := false } }
  else s

/-! ### Orders 2 to 5: samples and checks (R87, R101) -/

/-- What one sample came to. -/
structure Verdict where
  seen : Seen
  jump : Bool
  back : Bool
  path : Bool
  spoof : Bool
deriving DecidableEq, Repr

/-- The jump check of one sample against the slot's own line (R101), which stands against the tick clock, so that the device's own steps
and slews are no jump of the source (log entry 95).  It applies in QUALIFYING, QUALIFIED and SUSPECT, but not while REEST is set, nor from a
path-delay step on (`stepped`), this sample's included, that begins a re-estimation, another of the slots `qs` being QUALIFIED (R104,
R107). -/
def judgeSample (qs : List Nat) (i : Nat) (theta : Rat) (stepped : Bool) (q : Sample) (s : State) : Verdict :=
  let k := s.slot i
  let x := corrected k i q.x
  let lim : Rat := (max 1 (s.rd (R.ENS_SLOT_THR_JUMP i)) : Nat)
  let off := match predict k.fit q.k with
    | none => 0
    | some p => toNs (placeIn i k.fit q.u) - p
  let jump := s.src i ≠ .quarantined && !s.on (R.ENS_SLOT_STAT_REEST i) && !(stepped && another qs i) && decide (|off| > lim)
  let back := jump && timeBearing i && decide (off > 0)
  { seen := { t := q.t, k := q.k, x := x, e := toNs x - theta }, jump := jump, back := back, path := s.pathStepped i q.dly, spoof := q.spoof }

/-- Takes one sample in: the first one brings an ABSENT slot to QUALIFYING (R98), the fit and the reported offset follow. -/
def takeSample (qs : List Nat) (i : Nat) (theta : Rat) (stepped : Bool) (s : State) (q : Sample) : State × Verdict :=
  let s := if s.src i = .absent then (setSrc i .qualifying none s).modSlot i (fun k => { k with firstAt := q.k }) else s
  let v := judgeSample qs i theta (stepped || s.pathStepped i q.dly) q s
  let s := takeDelay i q.dly s
  let s := s.modSlot i (fun k =>
    { k with heard := q.t, last := some (q.t, v.seen.x), fit := ((q.k, placeIn i k.fit q.u) :: k.fit).take 16 })
  let s := if s.on (R.ENS_SLOT_STAT_REEST i) then
      s.modSlot i (fun k => { k with reestSum := k.reestSum + v.seen.e, reestN := k.reestN + 1 }) else s
  let s := s.modSlot i (fun k => { k with run := (v.seen.x :: k.run).take 3 })
  let s := s.wr (R.ENS_SLOT_OFS_X i) (satBits 32 (rnd (toNs v.seen.x * 256)))
  (s, v)

/-- The samples of a slot whose instant has passed, oldest first. -/
def takeSamples (qs : List Nat) (i : Nat) (theta : Rat) (s : State) : State × List Verdict :=
  let due := (s.slot i).inbox.filter (fun q => decide (q.t < s.clk))
  let s := s.modSlot i (fun k => { k with inbox := k.inbox.filter (fun q => decide (s.clk ≤ q.t)) })
  if s.mayArrive i then
    due.foldl (fun p q =>
      let r := takeSample qs i theta (p.2.any (·.path)) p.1 q
      (r.1, p.2 ++ [r.2])) (s, [])
  else (s, [])

/-! ### One filter (R87) -/

/-- dt of a step: 0.0625 s. -/
def dt : Rat := mkRat 1 16

/-- Phase given to a bank since the last step, in ns (R88). -/
def State.applied (s : State) (b : Bank) : Rat := mkRat (s.tick.bank b).phaseAcc (2 ^ 48)

/-- The prediction of one step; the increment in force, whoever wrote it, enters y: TS0's for a TS1 that follows it. -/
def State.predicted (s : State) (b : Bank) (dTc : Rat) : Filter :=
  let f := s.filter b
  let k := s.tick.bank b
  let y := f.y + mkRat ((s.incrOf b : Int) - (k.incrRef : Int)) k.incrRef * 1000000000
  { f with
    theta := f.theta + f.y * dt + f.d * dt * dt / 2 + s.applied b
    y := y + f.d * dt + dTc
    p00 := f.p00 + 2 * f.p01 * dt + f.p11 * dt * dt + s.anchorWfm * dt + s.anchorRwfm * dt * dt * dt / 3
    p01 := f.p01 + f.p11 * dt + s.anchorRwfm * dt * dt / 2
    p11 := f.p11 + s.anchorRwfm * dt }

/-- The measurement update with z and r (R85). -/
def Filter.update (f : Filter) (z r : Rat) : Filter :=
  let sv := f.p00 + r
  let k0 := f.p00 / sv
  let k1 := f.p01 / sv
  let v := z - f.theta
  { f with
    theta := f.theta + k0 * v
    y := f.y + k1 * v
    p11 := f.p11 - k1 * f.p01
    p01 := (1 - k0) * f.p01
    p00 := (1 - k0) * f.p00 }

/-- What a slot contributes to a step: its mean offset and its weight. -/
structure Contribution where
  i : Nat
  x : Rat
  w : Rat
deriving DecidableEq, Repr

/-- The contribution of a slot's unfailed samples: of several in one step the plain mean (DESIGN CHOICE, log entry 97: R84 gives n samples one
weight, R85 does not say what their x is). -/
def State.contribution (s : State) (i : Nat) (vs : List Verdict) : Option Contribution :=
  let ok := (vs.filter (fun v => !v.jump)).map (·.seen)
  match ok.getLast? with
  | none => none
  | some q =>
    some { i := i, x := ok.foldl (fun a q => a + toNs q.x) 0 / ok.length, w := s.weight i ok.length (secsBetween q.t s.clk) }

/-- Σ(w x)/Σw and Σw of contributions (R85). -/
def combine (cs : List Contribution) : Rat × Rat :=
  let sw := cs.foldl (fun a c => a + c.w) 0
  (if sw = 0 then 0 else cs.foldl (fun a c => a + c.w * c.x) 0 / sw, sw)

/-- The departure check over a step's samples (R101): the run of samples beyond DEV of the set's measurement without the slot, `n` long before
them, as it stands after them, and whether it has come to 4 at any of them. -/
def departRun (ref lim : Rat) (n : Nat) (vs : List Verdict) : Nat × Bool :=
  vs.foldl (fun r v =>
    let n := if decide (|toNs v.seen.x - ref| > lim) then r.1 + 1 else 0
    (n, r.2 || decide (4 ≤ n))) (n, false)

/-- The frequency check: the slope of x - θ over the last 16 s, once the samples since ABSENT span 16 s (R101); in ns/s. -/
def State.freqFails (s : State) (i : Nat) : Bool :=
  let k := s.slot i
  let pts := k.hist.flatMap (·.seen.reverse)
  match pts with
  | [] => false
  | newest :: _ =>
    let w := pts.filter (fun q => decide (newest.k - q.k ≤ ((sec16 16 : Nat) : Int)))
    decide (((sec16 16 : Nat) : Int) ≤ newest.k - k.firstAt) && decide (2 ≤ w.length)
      && decide (|lineSlope (w.map (fun q => (spanSecs newest.k q.k, q.e)))|
          > mkRat (s.rd (R.ENS_SLOT_LIM_FDEV i) : Nat) 1000)

/-- The checks of one slot come to a transition (orders 4 to 6), judged against the QUALIFIED slots `qs` as after order 1 (R87): path-delay
step, spoofing, jump, departure, frequency.  Where several checks fail in one step the cause is the first of them in that order (DESIGN
CHOICE, log entry 97: R98 does not say which). -/
def judgeSlot (b : Bank) (qs : List Nat) (theta : Rat) (cs : List Contribution) (s : State) (iv : Nat × List Verdict) : State :=
  let i := iv.1
  let vs := iv.2
  let s := if vs.any (·.path) then pathDelayStep qs i s else s
  let s := if vs.any (·.back) then s.raise Evt.ens 16 else s
  let others := cs.filter (fun c => c.i ≠ i)
  let ref := if others = [] then theta else (combine others).1
  let run := departRun ref (s.dev i) (s.slot i).departs vs
  let jump := vs.any (·.jump)
  let depart := run.2
  let freq := s.eng b = .tracking && vs ≠ [] && s.freqFails i
  let s := s.modSlot i (fun k => { k with departs := run.1 })
  if vs.any (·.spoof) then setSrc i .quarantined (some .spoof) s
  else match s.src i with
    | .qualified =>
      if jump then enterSuspect 0 i .jump s
      else if depart then enterSuspect 0 i .depart s
      else if freq then enterSuspect 0 i .freq s
      else s
    | .qualifying => if jump then restartClock i (setSrc i .qualifying (some .jump) s) else s
    | .suspect => if jump then restartClock i s else s
    | .quarantined => if vs ≠ [] ∧ s.corroborated qs i = true then setSrc i .qualifying none s else s
    | .absent => s

/-- What a slot did in the step. -/
def stepEntry (cs : List Contribution) (iv : Nat × List Verdict) : SlotStep :=
  let c := cs.find? (fun c => c.i = iv.1)
  { seen := iv.2.map (·.seen), used := c.isSome, w := (c.map (·.w)).getD 0 }

/-- Records what a slot did in the step, for its checks and transitions to look at. -/
def pushHist (cs : List Contribution) (s : State) (iv : Nat × List Verdict) : State :=
  s.modSlot iv.1 (fun k => { k with hist := (stepEntry cs iv :: k.hist).take 256 })

/-- Records in its place what the slot came to contribute.  A step at which the slot was not QUALIFIED yet counts with weight 0 in the sums
over 16 steps that choose the lead (DESIGN CHOICE, log entry 97: R86 does not say). -/
def finishHist (cs : List Contribution) (s : State) (iv : Nat × List Verdict) : State :=
  s.modSlot iv.1 (fun k => { k with hist := stepEntry cs iv :: k.hist.drop 1 })

/-- Publishes the normalised weights of a set (R85). -/
def publishWeights (b : Bank) (cs : List Contribution) (s : State) : State :=
  let sw := (combine cs).2
  (s.setOf b).foldl (fun s i =>
    match cs.find? (fun c => c.i = i) with
    | some c => s.wr (R.ENS_SLOT_WEIGHT_W i) (rndNearest (c.w / sw * 65536)).toNat
    | none => s.lo (R.ENS_SLOT_WEIGHT_W i)) s

/-- The slot of a list with the largest sum of weights over 16 steps; a tie goes to the lower number. -/
def State.heaviest (s : State) (is : List Nat) : Option Nat :=
  let sum := fun i => ((s.slot i).hist.take 16).foldl (fun a h => a + h.w) 0
  is.foldl (fun best i =>
    match best with
    | none => some i
    | some j => if sum j < sum i then some i else some j) none

/-- The lead of a set (R86). -/
def chooseLead (b : Bank) (s : State) : State :=
  let q := (s.setOf b).filter (fun i => s.src i = .qualified)
  let tb := q.filter timeBearing
  match s.heaviest (if tb = [] then q else tb) with
  | some i => s.modFilter b (fun f => { f with lead := some i })
  | none => s

/-- Bias learning of the phase-only slots of a set (R82): the mean of x - θ over 64 s from the first sample on at which its three conditions
hold, while they do. -/
def learnBias (b : Bank) (s : State) (iv : Nat × List Verdict) : State :=
  let i := iv.1
  let f := s.filter b
  if timeBearing i = true ∨ s.on (R.ENS_SLOT_CFG_BIAS_FIX i) = true
      ∨ (s.on (R.ENS_SLOT_STAT_BIAS_OK i) = true ∧ (s.src i ≠ .qualifying ∨ s.agrees i = true)) then s
  else if s.eng b = .tracking ∧ |f.theta| ≤ s.band1
      ∧ (s.setOf b).any (fun j => timeBearing j && s.src j = .qualified) = true then
    let good := iv.2.filter (fun v => !v.jump)
    let s := s.modSlot i (fun k =>
      match k.learnAt, good with
      | none, v :: _ => { k with learnAt := some v.seen.t, learnSum := 0, learnN := 0 }
      | _, _ => k)
    let s := s.modSlot i (fun k =>
      { k with
        learnSum := good.foldl (fun a v => a + (toNs (v.seen.x + k.bias) - f.theta)) k.learnSum
        learnN := k.learnN + good.length })
    let k := s.slot i
    match k.learnAt with
    | none => s
    | some t =>
      if s.elapsed t (sec16 64) && decide (0 < k.learnN) then
        let v16 := rnd (k.learnSum / k.learnN * 65536)
        let v := satSigned 48 (v16 / 256)
        let s := s.modSlot i (fun k => { (k.corrected (v16 - k.bias)) with bias := v16, learned := true, learnAt := none })
        ((s.wr (R.ENS_SLOT_BIAS_B i) (ofSigned 48 v)).wr (R.ENS_SLOT_BIAS_HI_B i) (ofSigned 48 v / 2 ^ 32)).hi
          (R.ENS_SLOT_STAT_BIAS_OK i)
      else s
  else s.modSlot i (fun k => { k with learnAt := none })

/-- The transition out of UNSET by three consecutive samples of a time-bearing slot, each within JUMP of the one before
(R108), a QUARANTINED one being ignored (R16); steps when R92 allows it, else the filter starts from their mean. -/
def leaveUnset (b : Bank) (s : State) : State :=
  let ok := fun i => timeBearing i && s.src i ≠ .quarantined && (match (s.slot i).run with
    | [x, y, z] =>
      let lim : Rat := (max 1 (s.rd (R.ENS_SLOT_THR_JUMP i)) : Nat)
      decide (|toNs x - toNs y| ≤ lim) && decide (|toNs y - toNs z| ≤ lim)
    | _ => false)
  match (s.setOf b).find? ok with
  | none => s
  | some i =>
    let m := toNs ((s.slot i).run.foldl (· + ·) 0) / 3
    let s := setEng b .settling (startFilter b m s)
    if decide (|m| > s.band2) && !s.hostOwns b && s.stepAccepted b .ensemble && !s.stepDenied b 0 then
      pendStep b (rndNearest (-m * 65536)) .ensemble s
    else s

/-- The engine transition of one set (order 7; R108, R113). -/
def engineOrder7 (b : Bank) (s : State) : State :=
  let f := s.filter b
  let anyQual := (s.setOf b).any (fun i => s.src i = .qualified)
  match s.eng b with
  | .unset => leaveUnset b s
  | .settling =>
    let lim : Rat := (s.rd R.ENS_SETTLE_PHASE : Nat)
    if anyQual && decide (|f.theta| ≤ lim) && decide (9 * f.p00 ≤ lim * lim) then
      match f.settleAt with
      | none => s.modFilter b (fun f => { f with settleAt := some s.clk })
      | some t => if s.elapsed t (sec16 (s.rd R.ENS_SETTLE_HOLD)) then enterTracking 0 b s else s
    else s.modFilter b (fun f => { f with settleAt := none })
  | .tracking => if anyQual then s else enterHoldover 0 b s
  | .holdover => if anyQual then enterTracking 0 b s else if f.estErr > s.budget then setEng b .freewheel s else s
  | .freewheel => if anyQual then enterTracking 0 b s else s

/-! ### Order 9: steering (R90-R93) -/

/-- Folds the frequency estimate into the increment, through the staging registers (R90). -/
def steerIncr (b : Bank) (s : State) : State :=
  let k := s.tick.bank b
  let f := s.filter b
  let want := rndNearest ((k.incr : Rat) * (1 - f.y / 1000000000))
  let v := (max (incrMin : Int) (min (incrMax : Int) want)).toNat
  let s := s.modFilter b (fun f => { f with y := f.y - mkRat ((k.incr : Int) - (v : Int)) k.incr * 1000000000 })
  let s := (applyIncr b (s.modBank b (fun k => { k with staged := v }))).modBank b (fun q =>
    { q with incrRef := ((q.incrRef : Int) + (v : Int) - (k.incr : Int)).toNat })
  if (v : Int) ≠ want then s.raise Evt.ens 128 else s

/-- The share of the phase error one step removes, in 2^-16 ns, within the band rate (R91) or SLEW_MAX after a decision
(R114). -/
def State.slewShare (s : State) (b : Bank) : Int :=
  let f := s.filter b
  let ptc : Rat := (2 ^ s.rd R.ENS_CTL_PTC : Nat)
  let rate := if f.slewMax then mkRat (s.slewMaxPpm : Nat) 1000000 else s.bandRate f.theta
  let cap := (rate * 62499000 * 65536).floor
  max (-cap) (min cap (rnd (-f.theta / (ptc * 16) * 65536)))

/-- Slew or step of one timescale at a step (R91-R93). -/
def steerPhase (b : Bank) (s : State) : State :=
  let f := s.filter b
  if s.on (R.TSC_STEP_CTL_PENDING (bankNo b)) then s
  else if b = .ts0 ∧ s.on R.TSC_SWITCH_CTL_ACTIVE = true then s
  else if |f.theta| ≤ s.band2 ∨ f.slewMax = true then slewGo b (s.slewShare b) 62499 s
  else if s.stepAccepted b .ensemble && !s.stepDenied b 0 then pendStep b (rndNearest (-f.theta * 65536)) .ensemble s
  else s

/-- Order 9 for one timescale: nothing in UNSET or under the host (R90, R93).  The SLEW_MAX of a slewing decision lasts until the mean offset
of the QUALIFIED slots is within band 2 as θ is: θ alone may be so before it has taken in the offset decided on (DESIGN CHOICE, log entry
97). -/
def steer (b : Bank) (s : State) : State :=
  let m := s.meanOffset (s.qualifiedOf b)
  let s := s.modFilter b (fun f => if |f.theta| ≤ s.band2 ∧ |m| ≤ s.band2 then { f with slewMax := false } else f)
  if s.eng b = .unset ∨ s.hostOwns b = true then s else steerPhase b (steerIncr b s)

/-! ### Order 10: publication (R116, R117) -/

/-- The reference ID of a lead, bytes in wire order (R116). -/
def refidOf (code : Nat) : Nat :=
  match code with
  | 0 => 0x474E5353
  | 1 => 0x41544F4D
  | 2 => 0x50545000
  | _ => 0x4D4F4F52

/-- The reference ID in force (R115, R116). -/
def State.refid (s : State) : Nat :=
  match s.eng .ts0, s.ens.f0.lead with
  | .unset, _ => 0x494E4954
  | .settling, _ => 0x494E4954
  | _, some i => refidOf (s.rd (R.ENS_SLOT_CFG_REFID i))
  | _, none => 0x494E4954

/-- The published error estimate in ns (R117). -/
def State.errNs (s : State) : Nat :=
  let f := s.ens.f0
  match s.eng .ts0 with
  | .unset => 0xFFFFFFFF
  | .holdover => satNat 32 (rnd f.estErr).toNat
  | .freewheel => satNat 32 (rnd f.estErr).toNat
  | _ => satNat 32 (rnd (|f.theta| + 3 * sqrtRat f.p00)).toNat

/-- Sends the engine state, the reference ID and the error estimate to every die (R117).  They apply at once: the Keeper instant, the same
for all, at which the dies apply a change is that of its publication (DESIGN CHOICE, log entry 104: R117 does not name it). -/
def publish (s : State) : State :=
  let e := s.errNs
  let s := s.wr R.ENS_ERR_ERR e
  { s with ens := { s.ens with pub := { engine := (s.eng .ts0).code, refid := s.refid, err := e, refAt := s.ens.refAt, sentAt := s.ts0 } } }

/-- A step from host PF1 takes an engine out of UNSET (R108), and the dies are told (R117). -/
def stepLeavesUnset (b : Bank) (by_ : Nat) (s : State) : State :=
  if by_ = 2 ∧ s.eng b = .unset then publish (setEngBy by_ b .settling (startFilter b 0 s)) else s

/-- The filter registers of a timescale: θ after the update, y before steering. -/
def publishFilter (b : Bank) (y : Rat) (s : State) : State :=
  let th := satBits 32 (rnd ((s.filter b).theta * 256))
  let yy := satBits 32 (rnd (y * 1000000))
  match b with
  | .ts0 => (s.wr R.ENS_PHASE_THETA th).wr R.ENS_FREQ_Y yy
  | .ts1 => (s.wr R.ENS_S1_PHASE_THETA th).wr R.ENS_S1_FREQ_Y yy

/-- Lead, drift and holdover registers (R86, R111, R113). -/
def publishTs0 (s : State) : State :=
  let f := s.ens.f0
  let s := match f.lead with
    | some i => (s.wr R.ENS_STAT_LEAD i).hi R.ENS_STAT_LEAD_VALID
    | none => s.lo R.ENS_STAT_LEAD_VALID
  let s := s.wr R.ENS_DRIFT_D (satBits 32 (rnd (s.driftEst f * 10 ^ 18)))
  let held := s.eng .ts0 = .holdover ∨ s.eng .ts0 = .freewheel
  s.wr R.ENS_HO_TIME_SECONDS (if held then satNat 32 (secsBetween f.hoAt s.clk).floor.toNat else 0)

/-! ### The whole step for one set -/

/-- E(t) and the temperature integral of a set in holdover run on (R113). -/
def runHoldover (b : Bank) (s : State) : State :=
  if s.eng b = .holdover ∨ s.eng b = .freewheel then
    let s := s.modFilter b (fun f => { f with hoTempInt := f.hoTempInt + |s.tempC - f.hoTemp| * dt })
    s.modFilter b (fun f => { f with estErr := s.estError f })
  else s

/-- Orders 2 to 7 of one set: samples, checks, transitions.  Answers the verdicts too.  The filter phase that the checks of order 5 and the
transitions take for θ is what this step predicts (DESIGN CHOICE, log entry 104: R87 puts the prediction at order 8, and R98 says only that
θ is the set's filter phase). -/
def setOrders2to7 (b : Bank) (dTc : Rat) (s : State) : State × List (Nat × List Verdict) :=
  let theta := if s.eng b = .unset then (s.filter b).theta else (s.predicted b dTc).theta
  let qs := s.qualifiedOf b
  let r := (s.setOf b).foldl (fun p i => let q := takeSamples qs i theta p.1; (q.1, p.2 ++ [(i, q.2)])) (s, [])
  let s := r.1
  let vs := r.2
  let cs := vs.filterMap (fun iv => if iv.1 ∈ qs then s.contribution iv.1 iv.2 else none)
  let s := vs.foldl (pushHist cs) s
  let s := (s.setOf b).foldl (fun s i => slotLoss i s) s
  let s := vs.foldl (judgeSlot b qs theta cs) s
  let s := (s.setOf b).foldl (fun s i => carryExpire b i (reestComplete i s)) s
  let s := runHoldover b s
  let s := judgeReady b qs s
  let s := (s.setOf b).foldl (fun s i =>
    if s.on (R.ENS_SLOT_STAT_ASYM_SUSPECT i) && !s.on (R.ENS_SLOT_STAT_REEST i) && another (s.qualifiedOf b) i then beginReest 0 i s else s) s
  (engineOrder7 b s, vs)

/-- Order 8 of one set: prediction and update, weights, lead, bias learning. -/
def setOrder8 (b : Bank) (dTc : Rat) (vs : List (Nat × List Verdict)) (s : State) : State :=
  let cs := vs.filterMap (fun iv => if s.src iv.1 = .qualified then s.contribution iv.1 iv.2 else none)
  let s := if s.eng b = .unset then s
    else
      let zr := combine cs
      let f := s.predicted b dTc
      s.modFilter b (fun _ => if zr.2 > 0 then f.update zr.1 (1 / zr.2) else f)
  let s := settlePhase b s
  let s := vs.foldl (finishHist cs) s
  let s := publishWeights b cs s
  let s := if s.eng b = .holdover ∨ s.eng b = .freewheel then s else chooseLead b s
  vs.foldl (learnBias b) s

/-- The seconds left in a slot's wait (ENS_SLOT_STAT LEFT): of a QUALIFYING slot that of QUAL, and once that has passed in HOLDOVER or FREEWHEEL
that of CONSIST (R99).  A part of a second is not counted (DESIGN CHOICE, log entry 104: R118 gives the unit only). -/
def State.slotLeft (s : State) (i : Nat) : Nat :=
  let left := fun (since span : Nat) => satNat 16 ((since + span - s.clk) / 65536000000000)
  let consist := left (s.slot i).clock (sec16 (max 1 (s.rd R.ENS_CTL_CONSIST)))
  let held := s.eng (s.slotBank i) = .holdover ∨ s.eng (s.slotBank i) = .freewheel
  if s.on (R.ENS_SLOT_STAT_REEST i) then left (s.slot i).reestAt (sec16 (s.rd R.ENS_ASYM_CTL_REEST))
  else match s.src i with
    | .qualifying => if held ∧ s.qualTime i = true then consist else left (s.slot i).clock (sec16 (s.rd (R.ENS_SLOT_TIME_QUAL i)))
    | .suspect => consist
    | _ => 0

end Sys2Proof.Machine
end

