-- ==== Sys2Proof/Machine/Ntp.lean ====
section
/-! DEFINITION. The NTP responder of a Beacon die (08): classification, the Client State Table, rate limiting, responses, Kiss-o'-Death,
broadcast. -/

namespace Sys2Proof.Machine

/-! ### Received frames -/

/-- A received frame on its way through a die: port, its number there, and what the host would get of it. -/
structure Arrived where
  port : Nat := 0
  rx : Nat := 0
  item : RxItem := {}
  e : Eth := {}
  ip : Ip := {}
deriving DecidableEq, Repr

def Arrived.die (a : Arrived) : Nat := a.port / 8
def Arrived.v6 (a : Arrived) : Bool := a.ip.v6
def Arrived.tRx (a : Arrived) : Nat := a.item.stamp.t
/-- Its stamp point, on the clock of durations. -/
def Arrived.point (a : Arrived) : Nat := a.item.point
/-- The UDP payload. -/
def Arrived.payload (a : Arrived) : List Nat := a.e.udpPayload a.ip
def Arrived.sport (a : Arrived) : Nat := beAt a.e.bytes a.ip.l4 2
def Arrived.dport (a : Arrived) : Nat := beAt a.e.bytes (a.ip.l4 + 2) 2

/-- A frame for the host goes there by its class's steering as it stands now (R371), or waits for its FEC verdict (R232). -/
def hostward (a : Arrived) (c : Nat) (s : State) : State :=
  let e := s.steer a.port c
  if (s.port a.port).fec.any (fun w => w.rx = a.rx) then
    s.modPort a.port (fun k => { k with fec := k.fec.map (fun w => if w.rx = a.rx then { w with toHost := some (c, e) } else w) })
  else toHost a.port c e a.item s

/-! ### Classification (R258) -/

/-- What R258 does with a frame to port 123. -/
inductive NtpAct where
  | drop (counter : Nat)
  | byAction (bit : Bool)
  | respond
  | nts
deriving DecidableEq, Repr

/-- Whether a source address is one no request comes from (R258, row 1). -/
def badNtpSource (s : State) (p point : Nat) (ip : Ip) : Bool :=
  let a := ip.src
  let special := if ip.v6 then a.getD 0 0 = 0xFF || a.all (· = 0) || (a.take 15).all (· = 0) && a.getD 15 0 = 1
    else decide (224 ≤ a.getD 0 0 ∧ a.getD 0 0 < 240) || a = [255, 255, 255, 255] || a = [0, 0, 0, 0] || a.getD 0 0 = 127
  special || s.svcHolds p point ip.v6 a

/-- The rows of R258, in order. -/
def State.ntpClass (s : State) (a : Arrived) : NtpAct :=
  let d := a.die
  let b := a.payload
  let vn := b.getD 0 0 / 8 % 8
  let mode := b.getD 0 0 % 8
  if badNtpSource s a.port a.point a.ip || a.sport = 0 then .drop 17
  else if b.length < 48 then .drop 16
  else if vn ≠ 3 ∧ vn ≠ 4 ∨ vn = 3 ∧ s.on (R.NTP_CTL_V3_EN d) = false then .byAction (s.on (R.NTP_CLS_CFG_OTHER_VN d))
  else if 6 ≤ mode then .byAction (s.on (R.NTP_CLS_CFG_MODE67 d))
  else if mode ≠ 3 then .byAction (s.on (R.NTP_CLS_CFG_OTHER_MODE d))
  else if b.length = 48 then .respond
  else if vn = 4 ∧ beAt b 48 2 = 0x0104 then .nts
  else .byAction (s.on (R.NTP_CLS_CFG_EXT d))

/-! ### The Client State Table (R269-R276) -/

def State.cst (s : State) (i : Nat) : CstEntry := IMap.get {} s.srv.cst i
def State.setCst (s : State) (i : Nat) (e : CstEntry) : State :=
  { s with srv := { s.srv with cst := IMap.put {} s.srv.cst i e } }

/-- The key hash of a request (R270). -/
def State.keyHash (s : State) (a : Arrived) : Nat :=
  let vids := a.e.tags.map (· % 4096)
  Config.cstHash ([s.srv.hashDraw, if a.v6 then 6 else 4] ++ a.ip.src ++ [a.sport, vids.getD 0 0, vids.getD 1 0]) % 2 ^ 48

/-- The eight ways of a bucket of a die. -/
def ways (d b : Nat) : List Nat := (List.range 8).map (fun w => d * 2097152 + b * 8 + w)

/-- Whether an entry is in use in the die's generation. -/
def State.cstLive (s : State) (d i : Nat) : Bool := (s.cst i).valid && (s.cst i).gen = s.rd (R.NTP_CST_CTL_GEN d)

/-- Time of the table: 0.5 s and 1/64 s of the die's slave tick (R274). -/
def State.nowHalf (s : State) (d : Nat) : Nat := s.dieTicks d / 400000000
def State.now64 (s : State) (d : Nat) : Nat := s.dieTicks d / 12500000

def State.cstBurst (s : State) (d : Nat) : Nat := max 1 (s.rd (R.NTP_RL_CFG_BURST d)) * 256

/-- Finds the entry of a hash, or creates it (R270, R271); none is a miss (R272). -/
def cstFind (d h : Nat) (s : State) : Option Nat × State :=
  let b1 := ways d (h % 2 ^ 18)
  let b2 := ways d (h / 2 ^ 18 % 2 ^ 18)
  match (b1 ++ b2).find? (fun i => s.cstLive d i && (s.cst i).key = h) with
  | some i => (some i, s)
  | none =>
    let free (b : List Nat) := b.filter (fun i => !s.cstLive d i)
    let best := if (free b1).length < (free b2).length then free b2 else free b1
    match best with
    | [] => (none, (ntpStat d 6 s).raise (Evt.ntp d) 1)
    | i :: _ =>
      let e : CstEntry := { key := h, tokens := s.cstBurst d, tUpd := s.now64 d % 65536, last := s.nowHalf d % 4096, valid := true,
                            gen := s.rd (R.NTP_CST_CTL_GEN d) }
      (some i, ntpStat d 5 (s.setCst i e))

/-- Refills and draws on an entry's bucket (R277): whether the request passes. -/
def cstDraw (d i : Nat) (s : State) : Bool × State :=
  let e := s.cst i
  let half := s.nowHalf d % 4096
  let n64 := s.now64 d % 65536
  if s.on (R.NTP_CTL_RL_EN d) then
    let t := if 1024 ≤ (half + 4096 - e.last) % 4096 then s.cstBurst d
      else min (s.cstBurst d) (e.tokens + (n64 + 65536 - e.tUpd) % 65536 * max 1 (s.rd (R.NTP_RL_CFG_RATE d)))
    let pass := decide (256 ≤ t)
    (pass, s.setCst i { e with tokens := if pass then t - 256 else t, tUpd := n64, last := half, kod := e.kod && !pass })
  else (true, s.setCst i { e with tUpd := n64, last := half, kod := false })

/-- A stateless request draws on the die's overflow bucket (R279). -/
def ovfDraw (d : Nat) (s : State) : Bool × State :=
  if s.on (R.NTP_CTL_RL_EN d) then
    match takeOvf d s with
    | (true, s) => (true, s)
    | (false, s) => (false, (ntpStat d 11 s).raise (Evt.ntp d) 2)
  else (true, s)

/-- The table entry of the client a response goes to. -/
def TxKind.client : TxKind → Option Nat
  | .ntp (some (i, _)) _ _ => some i
  | .still e => e
  | .nts r => r.entry
  | _ => none

/-- Whether a response to an entry waits to commit on a port of the die: in Q7, or, an NTS response, on its way there (R273). -/
def State.cstWaited (s : State) (d i : Nat) : Bool :=
  (IMap.get {} s.srv.nts d).queue.any (fun j => j.entry = some i)
    || (IMap.get {} s.srv.nts d).engines.any (fun e => e.2.any (fun j => j.entry = some i))
    || (List.range 8).any (fun k =>
      let q := s.port (d * 8 + k)
      (s.txq (d * 8 + k) 7 ++ q.ready ++ q.hold.map (·.2)).any (fun f => f.kind.client = some i))

/-- Whether the sweeper frees an entry (R273, R274): LAST counts whole half seconds, so an entry is surely past its age limit only once the
difference exceeds it. -/
def State.cstFrees (s : State) (d i : Nat) : Bool :=
  let e := s.cst i
  let limit := min 2000 (max 1 (if e.ilv then s.rd (R.NTP_CST_CFG_AGE_ILV d) else s.rd (R.NTP_CST_CFG_AGE_BASIC d)))
  e.valid && !s.cstWaited d i
    && (e.gen ≠ s.rd (R.NTP_CST_CTL_GEN d) || decide (2 * limit < (s.nowHalf d % 4096 + 4096 - e.last) % 4096))

/-- The sweeper visits its next bucket (R273, R275). -/
def cstSweep (d : Nat) (s : State) : State :=
  let s := s.waitClk (s.ntpDie d).sweepAt
  let k := s.ntpDie d
  let s := (ways d k.bucket).foldl (fun s i => if s.cstFrees d i then ntpStat d 7 (s.setCst i {}) else s) s
  let s := s.modNtp d (fun k => { k with bucket := (k.bucket + 1) % 262144, sweepAt := k.sweepAt + ns16 80, flushLeft := k.flushLeft - 1 })
  if k.flushLeft = 1 then (s.lo (R.NTP_CST_CTL_FLUSH_BUSY d)).raise (Evt.ntp d) 8 else s

def execCstSweep (n : Fin 4) : State → Res State := go (cstSweep n.val)

/-- A write of NTP_CST_CTL: FLUSH toggles GEN, unless a flush is under way (R275). -/
def writeCstCtl (d w : Nat) (s : State) : State :=
  if (R.NTP_CST_CTL_FLUSH d).of w = 1 && !s.on (R.NTP_CST_CTL_FLUSH_BUSY d) then
    ((s.wr (R.NTP_CST_CTL_GEN d) (1 - s.rd (R.NTP_CST_CTL_GEN d))).hi (R.NTP_CST_CTL_FLUSH_BUSY d)).modNtp d
      (fun k => { k with flushLeft := 262144 })
  else s

def execCstFlush (n : Fin 4) (w : Word) : State → Res State :=
  go (windowWrite n.val (Reg.NTP_CST_CTL n.val) (writeCstCtl n.val ((R.NTP_CST_CTL_FLUSH n.val).setIn w.toNat)))

/-- Valid entries of the current generation (USED, R272). -/
def State.cstUsed (s : State) (d : Nat) : Nat :=
  (s.srv.cst.filter (fun e => e.1 / 2097152 = d && s.cstLive d e.1)).length

/-! ### Responses (R261-R264, R280) -/

/-- Whether the engine state published to the dies is UNSET or SETTLING. -/
def State.unready (s : State) : Bool := s.ens.pub.engine < 2

/-- The tests of R259: the counter of the first that holds. -/
def withheld (p : Nat) (s : State) : Option (State → State) :=
  if !s.laneLocked (p / 8) then some (ntpStat (p / 8) 13)
  else if s.on (R.MAC_STAT_CAL_WEAK p) then some (mac p 54 1)
  else if s.unready && !s.on R.ENS_MAP_NTP_PRE_ANSWER then some (ntpStat (p / 8) 12)
  else none

/-- LI and stratum by engine state (R115, R262). -/
def State.ntpLi (s : State) (d : Nat) : Nat :=
  if s.ens.pub.engine = 2 ∨ s.ens.pub.engine = 3 then s.ntpLeap (s.slaveTime d) else 3
def State.ntpStratum (s : State) : Nat :=
  match s.ens.pub.engine with
  | 2 => stratumOf (s.rd R.ENS_MAP_NTP_TRK_STRAT)
  | 3 => stratumOf (s.rd R.ENS_MAP_NTP_HO_STRAT)
  | 4 => stratumOf (s.rd R.ENS_MAP_NTP_FW_STRAT)
  | _ => 16
where
  /-- A stratum field: values outside 1 to 16 are treated as 16 (R118). -/
  stratumOf (v : Nat) : Nat := if 1 ≤ v ∧ v ≤ 16 then v else 16

/-- Root dispersion (R263). -/
def State.rootDisp (s : State) (d : Nat) : Nat :=
  let err := s.ens.pub.err
  if err = 0xFFFFFFFF then 0xFFFFFFFF
  else min 0xFFFFFFFF (min 0xFFFFFFFF (ceilDiv (err * 65536) 1000000000) + s.rd (R.NTP_ROOT_DISP_ADD d))

/-- Reference timestamp (R264, R266). -/
def State.refStamp (s : State) : Nat :=
  if s.unready then 0 else match s.ens.pub.refAt with
    | some t => s.ntpTime t
    | none => 0

/-- Bytes 0-23 of a header that carries time (R262). -/
def State.ntpHead (s : State) (d vn mode poll : Nat) : List Nat :=
  [s.ntpLi d * 64 + vn * 8 + mode, s.ntpStratum, poll, s.rd (R.NTP_RESP_CFG_PRECISION d)] ++ be 4 (s.rd (R.NTP_ROOT_DELAY_DELAY d))
    ++ be 4 (s.rootDisp d) ++ be 4 s.ens.pub.refid ++ be 8 s.refStamp

/-- A response frame to a request: the headers of R261 around a payload. -/
def State.ntpReply (s : State) (a : Arrived) (payload : List Nat) : List Nat :=
  let d := a.die
  udpFrame a.e.src (s.macAddr a.port) a.e.tags a.v6 a.ip.dst a.ip.src
    (if s.on (R.NTP_RESP_CFG_DSCP_COPY d) then a.ip.dscp else s.rd (R.NTP_RESP_CFG_DSCP d)) (max 1 (s.rd (R.NTP_RESP_CFG_TTL d)))
    123 a.sport payload

/-- The header of a KoD or an NTS NAK (R280, R304). -/
def State.kissHead (s : State) (a : Arrived) (code : List Nat) : List Nat :=
  let b := a.payload
  let d := a.die
  [192 + b.getD 0 0 / 8 % 8 * 8 + 4, 0, max (b.getD 2 0) (min 17 (s.rd (R.NTP_RESP_CFG_KOD_POLL d))), s.rd (R.NTP_RESP_CFG_PRECISION d)]
    ++ List.replicate 8 0 ++ code ++ List.replicate 8 0 ++ slice b 40 8 ++ slice b 40 8 ++ slice b 40 8

/-- The response to a request, with its entry or stateless (R262, R267). -/
def ntpAnswer (a : Arrived) (entry : Option Nat) (s : State) : State :=
  let b := a.payload
  let e := s.cst (entry.getD 0)
  let ilv := entry.isSome && s.on (R.NTP_CTL_ILV_EN a.die) && beAt b 24 8 ≠ 0 && beAt b 28 4 = e.org
  let rxStamp := s.ntpTime a.tRx
  let payload := s.ntpHead a.die (b.getD 0 0 / 8 % 8) 4 (b.getD 2 0) ++ (if ilv then slice b 32 8 else slice b 40 8) ++ be 8 rxStamp
    ++ be 8 (if ilv then e.txPrev else 0)
  enqueue a.port 7 { kind := .ntp (entry.map (fun i => (i, e.key))) ilv (rxStamp % 2 ^ 32), bytes := s.ntpReply a payload,
                     rx := some a.rx } s

/-- An excess request (R278): a KoD, or a drop. -/
def ntpExcess (a : Arrived) (i : Nat) (s : State) : State :=
  let d := a.die
  let e := s.cst i
  if s.on (R.NTP_CTL_KOD_EN d) && !e.kod then
    match takeKod d s with
    | (true, s) =>
      let s := ntpStat d 9 (s.setCst i { s.cst i with kod := true })
      enqueue a.port 7 { kind := .still (some i), bytes := s.ntpReply a (s.kissHead a [0x52, 0x41, 0x54, 0x45]), rx := some a.rx } s
    | (false, s) => (ntpStat d 10 (ntpStat d 8 s)).raise (Evt.ntp d) 4
  else ntpStat d 8 s

/-- A request that reaches the responder (R259, R270-R280). -/
def ntpRequest (a : Arrived) (s : State) : State :=
  let s := passPipe a.die s
  match withheld a.port s with
  | some f => f s
  | none =>
    let d := a.die
    match cstFind d (s.keyHash a) s with
    | (some i, s) =>
      match cstDraw d i s with
      | (true, s) => ntpAnswer a (some i) s
      | (false, s) => ntpExcess a i s
    | (none, s) =>
      match ovfDraw d s with
      | (true, s) => ntpAnswer a none s
      | (false, s) => s

/-- A frame to port 123 that R258 sends to the host or drops by an action bit. -/
def ntpByAction (a : Arrived) (host : Bool) (s : State) : State :=
  if host then hostward a 2 (ntpStat a.die 14 s) else ntpStat a.die 15 s

/-! ### Broadcast (R281, R282) -/

/-- BPOLL: below 4 treated as 4, above 17 as 17. -/
def State.bcPoll (s : State) (p : Nat) : Nat := max 4 (min 17 (s.rd (R.NTP_BC_CFG_BPOLL p)))

/-- The first broadcast instant of a port at or after `t`, in 2^-16 ns. -/
def State.bcNext (s : State) (p t : Nat) : Nat :=
  let per := sec16 (2 ^ s.bcPoll p)
  let ofs := ms16 (min 999 (s.rd (R.NTP_BC_OFS_OFS_MS p)))
  if t ≤ ofs then ofs else ofs + ceilDiv (t - ofs) per * per

/-- An instant that is not sent (R282). -/
def bcSkip (p : Nat) (s : State) : State := (ntpStat (p / 8) 20 s).raise (Evt.ntp (p / 8)) 16

/-- The broadcast packet of a port. -/
def State.bcFrame (s : State) (p : Nat) : List Nat :=
  let d := p / 8
  let e := s.svc p (s.rd (R.NTP_BC_CFG_SVC p))
  let dest := s.rd (R.NTP_BC_CFG_DEST p)
  let payload := s.ntpHead d 4 5 (s.bcPoll p) ++ List.replicate 24 0
  let ttl := max 1 (s.rd (R.NTP_RESP_CFG_TTL d))
  let dscp := s.rd (R.NTP_RESP_CFG_DSCP d)
  if dest = 2 then
    udpFrame 0x333300000101 (s.macAddr p) (svcTagWords e) true (svcAddr true e) allNtp dscp ttl 123 123 payload
  else
    udpFrame macBcast (s.macAddr p) (svcTagWords e) false (svcAddr false e)
      (if dest = 1 then be 4 (s.rd (R.NTP_BC_ADDR_ADDR p)) else [255, 255, 255, 255]) dscp ttl 123 123 payload

/-- A broadcast instant comes: the packet is sent, or the instant is skipped (R281, R282); after a backward step a skipped one may come again,
one that was sent does not. -/
def ntpBroadcast (p : Nat) (s : State) : State :=
  if !s.on (R.NTP_BC_CFG_EN p) then s
  else
    let last := IMap.get none (s.ntpDie (p / 8)).bcLast (p % 8)
    let due := s.bcNext p (max (s.openFrom (IMap.get none (s.ntpDie (p / 8)).bcSkipped (p % 8))) ((last.map (· + 1)).getD 0))
    let s := s.waitTs0 due
    if s.ts0 < due then s
    else
      let i := s.rd (R.NTP_BC_CFG_SVC p)
      let famOk := decide (64 ≤ i) = decide (s.rd (R.NTP_BC_CFG_DEST p) = 2)
      if !(svcValid (s.svc p i) && famOk) || (withheld p s).isSome || !s.isUp p then
        bcSkip p (s.modNtp (p / 8) (fun k => { k with bcSkipped := IMap.put none k.bcSkipped (p % 8) (some s.tick.count) }))
      else
        let s := s.modNtp (p / 8) (fun k => { k with bcLast := IMap.put none k.bcLast (p % 8) (some due) })
        enqueue p 7 { kind := .ntpBcast, bytes := s.bcFrame p } (ntpStat (p / 8) 19 (settle p s))

def execNtpBroadcast (p : Fin 32) : State → Res State := go (ntpBroadcast p.val)

/-- Instants of a port not sent yet that a forward step of TS0 from `old` passed are skipped (R282). -/
def bcStepSkips (p old : Nat) (s : State) : State :=
  if s.on (R.NTP_BC_CFG_EN p) ∧ old < s.ts0 then
    let sent := ((IMap.get none (s.ntpDie (p / 8)).bcLast (p % 8)).map (· + 1)).getD 0
    let n := (s.bcNext p s.ts0 - s.bcNext p (max sent (old + 1))) / sec16 (2 ^ s.bcPoll p)
    if n = 0 then s
    else (bumpStat (2048 + p / 8 * 32 + 20) 0x154 (p / 8) n s).raise (Evt.ntp (p / 8)) 16
  else s

end Sys2Proof.Machine
end

