-- ==== Sys2Proof/Machine/Nts.lean ====
section
/-! DEFINITION. The NTS engines of a Beacon die (09): master keys, the structure of a request, admission, the checks of R296, responses
and NAKs. -/

namespace Sys2Proof.Machine

def State.ntsDie (s : State) (d : Nat) : NtsDie := IMap.get {} s.srv.nts d
def State.modNts (s : State) (d : Nat) (f : NtsDie → NtsDie) : State :=
  { s with srv := { s.srv with nts := IMap.upd {} s.srv.nts d f } }

/-! ### Master keys (R288-R290) -/

/-- A slot of the Keeper: state (0 EMPTY, 1 ACCEPT, 2 CURRENT), key ID, key. -/
def State.keySlot (s : State) (k : Nat) : Nat × Nat × List Nat := IMap.get (0, 0, []) s.srv.keys k
def State.setKeySlot (s : State) (k : Nat) (v : Nat × Nat × List Nat) : State :=
  { s with srv := { s.srv with keys := IMap.put (0, 0, []) s.srv.keys k v } }

def keySlots : List Nat := [0, 1, 2, 3]

/-- The four slot states, two bits each. -/
def State.keyStates (s : State) : Nat := keySlots.foldl (fun a k => a + (s.keySlot k).1 * 4 ^ k) 0

/-- The reply parameters of every key command. -/
def State.keyReply (s : State) : List Nat := [s.keyStates, s.srv.chgSeq, 0, 0] ++ keySlots.flatMap (fun k => be 4 (s.keySlot k).2.1)

/-- The Keeper copies the slots to a die, and whether a change of them waits (R288, R290). -/
def copyKeys (s : State) (d : Nat) : State :=
  let s := keySlots.foldl (fun s k => s.wr (R.NTS_KEY_ID_ID (d * 4 + k)) (s.keySlot k).2.1) s
  let s := (s.wr (R.NTS_KEY_STATE_S d) s.keyStates).wr (R.NTS_KEY_STATE_CHG_SEQ d) s.srv.chgSeq
  let s := s.wr (R.NTS_STAT_KEY_PEND d) (b01 s.srv.keyChange.isSome)
  s.wr (R.NTS_STAT_KEY_CURRENT d) (b01 (keySlots.any (fun k => (s.keySlot k).1 = 2)))

/-- A die's copy is cleared (R288). -/
def clearKeys (s : State) (d : Nat) : State :=
  let s := keySlots.foldl (fun s k => s.lo (R.NTS_KEY_ID_ID (d * 4 + k))) s
  (s.lo (R.NTS_KEY_STATE_S d)).lo (R.NTS_STAT_KEY_CURRENT d)

/-- What a key change makes of the slots (R289). -/
def applyKeyChange (c : KeyChange) (s : State) : State :=
  if c.op = 0x0710 then s.setKeySlot c.slot (1, c.id, c.key)
  else if c.op = 0x0711 then
    let s := keySlots.foldl (fun s k => if (s.keySlot k).1 = 2 then s.setKeySlot k (1, (s.keySlot k).2) else s) s
    s.setKeySlot c.slot (2, (s.keySlot c.slot).2)
  else s.setKeySlot c.slot (0, 0, [])

/-- A pending key change takes effect at one instant on all dies that are up (R290); one that comes up later copies the slots (R288). -/
def keyChangeNow (c : KeyChange) (s : State) : State :=
  let s := applyKeyChange c s
  let s := { s with srv := { s.srv with chgSeq := (s.srv.chgSeq + 1) % 256, keyChange := none } }
  ([0, 1, 2, 3].filter (fun d => s.rd (R.TSC_LANE_STAT_STATE d) ≠ 0)).foldl
    (fun s d => (copyKeys s d).raise (Evt.nts d) 16) s

/-- A change delivered at `ready` less 100 µs takes effect at the first whole ms of TS0 from `ready` on, a ms that this tick brings among
them (R290). -/
def waitKeyInstant (ready : Nat) (s : State) : State :=
  let s := s.waitClk ready
  s.waitTs0 (ceilDiv s.tickFrom (ms16 1) * ms16 1)

/-- The key set in force on a die. -/
def State.dieKeys (s : State) (d : Nat) : List (Nat × Nat × List Nat) :=
  keySlots.map (fun k => (s.rd (R.NTS_KEY_STATE_S d) / 4 ^ k % 4, s.rd (R.NTS_KEY_ID_ID (d * 4 + k)), (s.keySlot k).2.2))

/-! ### The structure of a request (R297) -/

/-- An extension field: type, offset in the payload, body. -/
structure ExtField where
  ty : Nat := 0
  ofs : Nat := 0
  body : List Nat := []
deriving DecidableEq, Repr

/-- The extension fields of a payload from an offset; none where they do not tile it. -/
def extFields : Nat → List Nat → Nat → Option (List ExtField)
  | 0, _, _ => none
  | n + 1, b, ofs =>
    if b.length ≤ ofs then some []
    else
      let len := beAt b (ofs + 2) 2
      if len < 16 ∨ len % 4 ≠ 0 ∨ b.length < ofs + len then none
      else (extFields n b (ofs + len)).map (⟨beAt b ofs 2, ofs, slice b (ofs + 4) (len - 4)⟩ :: ·)

/-- A length with its padding to 4 bytes. -/
def pad4 (n : Nat) : Nat := (n + 3) / 4 * 4

/-- The parts of a well-structured request. -/
structure NtsParts where
  uid : ExtField := {}
  cookie : List Nat := []
  holders : List Nat := []
  auth : ExtField := {}
deriving DecidableEq, Repr

/-- The structure step; none is MALFORMED (R297). -/
def ntsParts (b : List Nat) : Option NtsParts :=
  match extFields (b.length + 1) b 48 with
  | none => none
  | some fs =>
    let uids := fs.filter (fun f => f.ty = 0x0104)
    let cookies := fs.filter (fun f => f.ty = 0x0204)
    let auths := fs.filter (fun f => f.ty = 0x0404)
    match uids, cookies, auths, fs.getLast? with
    | [u], [c], [a], some l =>
      let nl := beAt a.body 0 2
      let cl := beAt a.body 2 2
      if u.body.length < 32 ∨ 128 < u.body.length ∨ l.ty ≠ 0x0404 ∨ nl < 16 ∨ 32 < nl ∨ cl < 16 ∨ 256 < cl
          ∨ a.body.length < 4 + pad4 nl + pad4 cl then none
      else some { uid := u, cookie := c.body, auth := a,
                  holders := (fs.filter (fun f => f.ty = 0x0304)).map (fun f => f.body.length) }
    | _, _, _, _ => none

/-! ### Admission and dispatch (R291, R296, R305-R307) -/

/-- The engine number Watch borrows on each die now: test 5 takes them in turn, 1 s each (R474, log entry 109). -/
def State.watchEngine (s : State) : Option Nat := s.watch.run.bind (fun r => r.engs[(s.clk - r.since) / sec16 1]?)

/-- Whether an engine serves: neither parked, nor asked to park, nor borrowed by Watch (R305, R306). -/
def State.engineServes (s : State) (d e : Nat) : Bool :=
  !bit (s.ntsDie d).parking e && !bit (s.rd (R.NTS_ENG_STAT_PARKED d)) e && s.watchEngine ≠ some e

def State.engineJob (s : State) (d e : Nat) : Option NtsJob := IMap.get none (s.ntsDie d).engines e

/-- LENT of a die: the engine Watch borrows, once it holds no request, of one that answers NTS and is not parked (R306, R474). -/
def State.lent (s : State) (d : Nat) : Nat := match s.watchEngine with
  | some e => if s.on (R.NTS_CTL_EN d) && (s.engineJob d e).isNone && !bit (s.rd (R.NTS_ENG_STAT_PARKED d)) e then 2 ^ e else 0
  | none => 0

/-- The admission queue goes to free engines in arrival order; a request meets the key set in force as it enters one. -/
def ntsDispatch : Nat → Nat → State → State
  | 0, _, s => s
  | n + 1, d, s =>
    let s := s.wr (R.NTS_STAT_QUEUE d) (s.ntsDie d).queue.length
    match (s.ntsDie d).queue, (List.range 12).find? (fun e => s.engineServes d e && (s.engineJob d e).isNone) with
    | j :: rest, some e =>
      ntsDispatch n d (s.modNts d (fun k => { k with
        queue := rest, busyAt := if 128 < k.queue.length then some s.clk else k.busyAt
        engines := IMap.put none k.engines e (some { j with keys := s.dieKeys d }) }))
    | _, _ => s

def dispatchNts (d : Nat) (s : State) : State := ntsDispatch 13 d s

/-- Engines serving (ACTIVE). -/
def State.ntsActive (s : State) (d : Nat) : Nat :=
  if s.rd (R.TSC_LANE_STAT_STATE d) = 0 then 0 else ((List.range 12).filter (fun e => s.engineServes d e)).length

/-- Steps 1 to 6 of R296. -/
def ntsRequest (a : Arrived) (s : State) : State :=
  let d := a.die
  match withheld a.port s with
  | some f => f s
  | none =>
    if !s.on (R.NTS_CTL_EN d) then hostward a 3 (ntsStat d 12 1 s)
    else if (ntsParts a.payload).isNone then ntsStat d 3 1 s
    else
      let found := cstFind d (s.keyHash a) s
      let drawn := match found with
        | (some i, s) =>
          match cstDraw d i s with
          | (true, s) => (true, s)
          | (false, s) => (false, ntpStat d 8 s)
        | (none, s) => ovfDraw d s
      let s := drawn.2
      if !drawn.1 then s
      else if !s.on (R.NTS_STAT_KEY_CURRENT d) then (ntsStat d 9 1 s).raise (Evt.nts d) 1
      else if 256 ≤ (s.ntsDie d).queue.length then
        ((ntsStat d 10 1 s).raise (Evt.nts d) 8).modNts d (fun k => { k with busyAt := some s.clk })
      else
        let j : NtsJob := { port := a.port, entry := found.1, bytes := a.item.bytes, tRx := a.tRx, rx := a.rx }
        dispatchNts d ((ntsStat d 0 1 s).modNts d (fun k => { k with
          queue := k.queue ++ [j], busyAt := if 128 ≤ k.queue.length then some s.clk else k.busyAt }))

/-! ### Steps 7 to 10 (R293, R294, R298-R300, R304) -/

/-- The request an engine is on, as it arrived. -/
def NtsJob.arrived (j : NtsJob) : Arrived :=
  let e := Eth.parse j.bytes
  { port := j.port, rx := j.rx, item := { bytes := j.bytes, stamp := { t := j.tRx } }, e := e, ip := e.ip.getD {} }

/-- A NAK in place of a response (R304). -/
def ntsNak (a : Arrived) (entry : Option Nat) (uid : List Nat) (counter : Nat) (s : State) : State :=
  let d := a.die
  let s := ntsStat d counter 1 s
  let t := if s.on (R.NTS_CTL_NAK_EN d) then takeKod d s else (false, s)
  if t.1 then
    let s := (ntsStat d 4 1 t.2).raise (Evt.nts d) 2
    enqueue a.port 7 { kind := .still entry, bytes := s.ntpReply a (s.kissHead a [0x4E, 0x54, 0x53, 0x4E] ++ uid), rx := some a.rx } s
  else (ntsStat d 5 1 t.2).raise (Evt.nts d) 4

/-- The n-th output of a die's random bit generator, as 16 bytes (R295). -/
def drawNonce (d n : Nat) : List Nat := be 16 (Config.drbg d n).toNat

/-- One cookie under a key (R293, R294). -/
def makeCookie (id : Nat) (key nonce plain : List Nat) : List Nat :=
  be 4 id ++ nonce ++ sivSeal key (be 4 id) nonce plain

/-- The response with its fresh cookies, finished but for its departure and authentication
(R299-R301); it is discarded where the port has left UP (R302). -/
def ntsBuild (a : Arrived) (entry : Option Nat) (p : NtsParts) (keys : List (Nat × Nat × List Nat)) (plain : List Nat) (s : State) : State :=
  let d := a.die
  let good := (p.holders.filter (· = 104)).length
  let n := 1 + min 7 good
  let s := ntsStat d 13 (p.holders.length - min 7 good) s
  let cur := (keys.find? (fun k => k.1 = 2)).getD (0, 0, [])
  let at_ := (s.ntsDie d).drawn
  let s := s.modNts d (fun k => { k with drawn := k.drawn + n + 1 })
  let cookies := (List.range n).map (fun i => makeCookie cur.2.1 cur.2.2 (drawNonce d (at_ + i)) plain)
  let b := a.payload
  let head := s.ntpHead d 4 4 (b.getD 2 0) ++ slice b 40 8 ++ be 8 (s.ntpTime a.tRx) ++ List.replicate 8 0
  let uid := slice b p.uid.ofs (p.uid.body.length + 4)
  let auth := be 2 0x0404 ++ be 2 (40 + 108 * n) ++ be 2 16 ++ be 2 (16 + 108 * n) ++ List.replicate (32 + 108 * n) 0
  let f : TxFrame := { kind := .nts { entry := entry, key := slice plain 36 32, nonce := drawNonce d (at_ + n), cookies := cookies },
                       bytes := s.ntpReply a (head ++ uid ++ auth), rx := some a.rx }
  if s.isUp a.port then s.modPort a.port (fun k => { k with ready := k.ready ++ [f] })
  else (ntsStat d 11 1 s).raise (Evt.nts d) 32

/-- Steps 7 to 9: the outcome of a request's checks. -/
def ntsJudge (j : NtsJob) (s : State) : State :=
  let a := j.arrived
  let b := a.payload
  match ntsParts b with
  | none => s
  | some p =>
    let uid := slice b p.uid.ofs (p.uid.body.length + 4)
    match j.keys.find? (fun k => k.1 ≠ 0 ∧ k.2.1 = beAt p.cookie 0 4) with
    | none => ntsNak a j.entry uid 6 s
    | some k =>
      let plain := if p.cookie.length = 104 then
          sivOpen k.2.2 (slice p.cookie 0 4) (slice p.cookie 4 16) (slice p.cookie 20 84)
        else none
      match plain with
      | none => ntsNak a j.entry uid 7 s
      | some t =>
        if beAt t 0 2 ≠ 15 ∨ beAt t 2 2 ≠ 0 then ntsNak a j.entry uid 7 s
        else
          let nl := beAt p.auth.body 0 2
          let cl := beAt p.auth.body 2 2
          let ct := slice p.auth.body (4 + pad4 nl) cl
          match sivOpen (slice t 4 32) (b.take p.auth.ofs) (slice p.auth.body 4 nl) ct with
          | none => ntsNak a j.entry uid 8 s
          | some _ => ntsBuild a j.entry p j.keys t s

/-- The engines of a die the arbiter has parked. -/
def parkedField : Nat → Field
  | 0 => R.PWR_NTS_PARKED01_DIE0
  | 1 => R.PWR_NTS_PARKED01_DIE1
  | 2 => R.PWR_NTS_PARKED23_DIE2
  | _ => R.PWR_NTS_PARKED23_DIE3

/-- An engine asked to park is parked once it holds no request (R306). -/
def parkIdle (d e : Nat) (s : State) : State :=
  if bit (s.ntsDie d).parking e && (s.engineJob d e).isNone then
    let s := s.modNts d (fun k => { k with parking := k.parking - 2 ^ e })
    (s.wr (R.NTS_ENG_STAT_PARKED d) (s.rd (R.NTS_ENG_STAT_PARKED d) ||| 2 ^ e)).wr (parkedField d) (s.rd (parkedField d) ||| 2 ^ e)
  else s

/-- An engine finishes its request (R296). -/
def ntsEngineDone (d e : Nat) (s : State) : State :=
  match s.engineJob d e with
  | none => s
  | some j => parkIdle d e (dispatchNts d (ntsJudge j (s.modNts d (fun k => { k with engines := IMap.put none k.engines e none }))))

def execNtsEngineDone (n : Fin 4) (e : Fin 12) : State → Res State := go (ntsEngineDone n.val e.val)

end Sys2Proof.Machine
end

