-- ==== Sys2Proof/Machine/Ptp.lean ====
section
/-! DEFINITION. The PTP engine of a Beacon die (10): instances, messages, schedules, unicast negotiation, upstream ports.  Instance i of
port p is number p * 4 + i. -/

namespace Sys2Proof.Machine

/-! ### Instances and profiles (R311-R313) -/

/-- What a profile permits: transports, domains and their default, ranges and defaults of Sync, Announce and Delay_Req rates (R312). -/
structure Profile where
  transports : List Nat := []
  domLo : Nat := 0
  domHi : Nat := 127
  domDef : Nat := 0
  sync : Int × Int × Int := (0, 0, 0)
  ann : Int × Int × Int := (0, 0, 0)
  dreq : Int × Int × Int := (0, 0, 0)

def profileOf : Nat → Option Profile
  | 0 => some { transports := [0, 1, 2], sync := (-7, 1, 0), ann := (-3, 4, 1), dreq := (-7, 5, 0) }
  | 1 => some { transports := [0, 1, 2], sync := (-7, 1, 0), ann := (-3, 4, 1), dreq := (-128, 127, 0) }
  | 2 => some { transports := [0], domLo := 24, domHi := 43, domDef := 24, sync := (-4, -4, -4), ann := (-3, -3, -3), dreq := (-4, -4, -4) }
  | 3 => some { transports := [1, 2], domLo := 44, domHi := 63, domDef := 44, sync := (-7, 0, -4), ann := (-3, 0, -3), dreq := (-7, 0, -4) }
  | 4 => some { transports := [1], domDef := 127, sync := (-7, -1, -3), ann := (-3, 1, -2), dreq := (-7, 5, -3) }
  | 5 => some { transports := [1], sync := (-4, 1, -3), ann := (0, 4, 1), dreq := (-3, 5, 0) }
  | _ => none

def State.prof (s : State) (j : Nat) : Profile := (profileOf (s.rd (R.PTP_INST_CFG_PROFILE j))).getD {}

/-- A rate field: 0x7F selects the default. -/
def rateOf (raw : Nat) (r : Int × Int × Int) : Int := if raw = 0x7F then r.2.2 else toSigned 8 raw
def rateOk (raw : Nat) (r : Int × Int × Int) : Bool := decide (r.1 ≤ rateOf raw r ∧ rateOf raw r ≤ r.2.1)

def State.logSync (s : State) (j : Nat) : Int := rateOf (s.rd (R.PTP_INST_RATE_LOG_SYNC j)) (s.prof j).sync
def State.logAnn (s : State) (j : Nat) : Int := rateOf (s.rd (R.PTP_INST_RATE_LOG_ANN j)) (s.prof j).ann
def State.logDreq (s : State) (j : Nat) : Int := rateOf (s.rd (R.PTP_INST_RATE_LOG_DREQ j)) (s.prof j).dreq

/-- The domain: 0x7F selects the profile's default. -/
def State.domain (s : State) (j : Nat) : Nat :=
  if s.rd (R.PTP_INST_CFG_DOMAIN j) = 0x7F then (s.prof j).domDef else s.rd (R.PTP_INST_CFG_DOMAIN j)

def State.upstream (s : State) (j : Nat) : Bool := s.on (R.PTP_INST_CFG_ROLE j)
def State.transport (s : State) (j : Nat) : Nat := s.rd (R.PTP_INST_CFG_TRANSPORT j)
def State.instSvc (s : State) (j : Nat) : List Nat := s.svc (j / 4) (s.rd (R.PTP_INST_CFG_SVC j))
def State.telecom (s : State) (j : Nat) : Bool := s.rd (R.PTP_INST_CFG_PROFILE j) = 2 || s.rd (R.PTP_INST_CFG_PROFILE j) = 3

def instIds : List Nat := List.range 128

/-- The instances of a port that run. -/
def State.running (s : State) (p : Nat) : List Nat := [0, 1, 2, 3].map (p * 4 + ·) |>.filter (fun j => (s.inst j).on)

/-- The cases in which an instance with EN at 1 stays OFF (R313). -/
def State.instBad (s : State) (j : Nat) : Bool :=
  let pr := s.rd (R.PTP_INST_CFG_PROFILE j)
  let p := s.prof j
  let tr := s.transport j
  let mc := s.on (R.PTP_INST_CFG_MCAST j)
  let uc := s.on (R.PTP_INST_CFG_UCAST j)
  let i := s.rd (R.PTP_INST_CFG_SVC j)
  let e := s.instSvc j
  decide (6 ≤ pr) || !(tr ∈ p.transports) || decide (s.domain j < p.domLo ∨ p.domHi < s.domain j)
    || !rateOk (s.rd (R.PTP_INST_RATE_LOG_SYNC j)) p.sync || !rateOk (s.rd (R.PTP_INST_RATE_LOG_ANN j)) p.ann
    || !rateOk (s.rd (R.PTP_INST_RATE_LOG_DREQ j)) p.dreq
    || (!mc && !uc) || (uc && (decide (pr = 1) || decide (pr = 2))) || (mc && decide (pr = 3))
    || !svcValid e || decide (tr = 1 ∧ 64 ≤ i) || decide (tr = 2 ∧ i < 64)
    || (s.running (j / 4)).any (fun k => k ≠ j && s.transport k = tr && s.domain k = s.domain j && svcTags (s.instSvc k) = svcTags e)
    || (s.upstream j && decide (pr = 1))
    || (s.upstream j && decide (4 ≤ (instIds.filter (fun k => k ≠ j && (s.inst k).on && s.upstream k)).length))

/-! ### When time is withheld (R320) -/

/-- R320's three cases, in order: the counter of a request dropped by it. -/
def ptpWithheld (p : Nat) (s : State) : Option (State → State) :=
  if !s.laneLocked (p / 8) then some (ntpStat (p / 8) 13)
  else if s.on (R.MAC_STAT_CAL_WEAK p) then some (mac p 54 1)
  else if s.ptpSilent (p / 8) then some (ptpStat (p / 8) 8)
  else none

/-! ### Messages (R316, R317, R322-R328) -/

/-- Where a message goes: destination MAC, IP destination, tags. -/
structure PtpDest where
  mac : Nat := 0
  ip : List Nat := []
  tags : List Nat := []
deriving DecidableEq, Repr

/-- The multicast destinations of an instance (R316). -/
def State.groupDest (s : State) (j : Nat) (peer : Bool) : PtpDest :=
  let tags := svcTagWords (s.instSvc j)
  match s.transport j with
  | 0 => { mac := if peer || s.on (R.PTP_INST_CFG_L2_ADDR j) then 0x0180C200000E else 0x011B19000000, tags := tags }
  | 1 => if peer then { mac := 0x01005E00006B, ip := [224, 0, 0, 107], tags := tags }
         else { mac := 0x01005E000181, ip := [224, 0, 1, 129], tags := tags }
  | _ => if peer then { mac := 0x33330000006B, ip := [0xFF, 2] ++ List.replicate 12 0 ++ [0, 0x6B], tags := tags }
         else { mac := 0x333300000181, ip := [0xFF, 0x0E] ++ List.replicate 12 0 ++ [1, 0x81], tags := tags }

/-- clockIdentity and the port identity of a port. -/
def State.clockId (s : State) (p : Nat) : Nat := s.rd (R.PTP_CLK_ID_HI_ID (p / 8)) * 2 ^ 32 + s.rd (R.PTP_CLK_ID_LO_ID (p / 8))
def State.portId (s : State) (p : Nat) : List Nat := be 8 (s.clockId p) ++ be 2 (p + 1)

/-- controlField by message type. -/
def ptpControl : Nat → Nat
  | 0 => 0
  | 1 => 1
  | 8 => 2
  | 9 => 3
  | _ => 5

/-- A message with its common header (R322). -/
def State.ptpMessage (s : State) (j msg flags0 flags1 : Nat) (corr : Int) (seq : Nat) (log : Int) (body : List Nat) : List Nat :=
  [msg, if s.on (R.PTP_INST_CFG_V2008 j) then 2 else 0x12] ++ be 2 (34 + body.length) ++ [s.domain j, 0, flags0, flags1]
    ++ be 8 (ofSigned 64 corr) ++ be 4 0 ++ s.portId (j / 4) ++ be 2 seq ++ [ptpControl msg, ofSigned 8 log] ++ body

/-- A message in its frame, from a service address entry (R317); an IPv6 event message has two zero octets after it. -/
def State.ptpFrame (s : State) (j : Nat) (entry : List Nat) (to_ : PtpDest) (msg : List Nat) : List Nat :=
  let event := decide (msg.getD 0 0 % 16 < 4)
  let src := s.macAddr (j / 4)
  match s.transport j with
  | 0 => pad60 (ethHeader to_.mac src to_.tags 0x88F7 ++ msg)
  | t =>
    let port := if event then 319 else 320
    udpFrame to_.mac src to_.tags (decide (t = 2)) (svcAddr (decide (t = 2)) entry) to_.ip (Config.ptpDscp % 64) (Config.ptpTtl % 256)
      port port (msg ++ (if event && t = 2 then [0, 0] else []))

/-- Puts a message into Q7. -/
def ptpQueue (j : Nat) (to_ : PtpDest) (kind : TxKind) (rx : Option Nat) (msg : List Nat) (s : State) : State :=
  enqueue (j / 4) 7 { kind := kind, bytes := s.ptpFrame j (s.instSvc j) to_ msg, rx := rx } s

/-- clockAccuracy by the error estimate in ns (R327). -/
def accuracyOf (err : Nat) (v2008 : Bool) : Nat :=
  let steps : List (Nat × Nat) := [(1, 0x1D), (2, 0x1E), (10, 0x1F), (25, 0x20), (100, 0x21), (250, 0x22), (1000, 0x23), (2500, 0x24),
    (10000, 0x25), (25000, 0x26), (100000, 0x27), (250000, 0x28), (1000000, 0x29), (2500000, 0x2A), (10000000, 0x2B),
    (25000000, 0x2C), (100000000, 0x2D), (250000000, 0x2E), (1000000000, 0x2F), (10000000000, 0x30)]
  if err = 0xFFFFFFFF then 0xFE
  else
    let a := match steps.find? (fun e => err ≤ e.1) with
      | some e => e.2
      | none => 0x31
    if v2008 then max a 0x20 else a

/-- timeSource by the reference ID (R326). -/
def timeSourceOf (refid : Nat) : Nat := if refid = 0x474E5353 then 0x20 else if refid = 0x41544F4D then 0x10 else 0x40

/-- clockClass, clockAccuracy, offsetScaledLogVariance, traceable flags and timeSource by engine state (R326). -/
def State.quality (s : State) (j : Nat) : Nat × Nat × Nat × Nat × Nat :=
  let d := j / 32
  let tel := s.telecom j
  let acc := accuracyOf s.ens.pub.err (s.on (R.PTP_INST_CFG_V2008 j))
  let oslv := s.rd (R.PTP_DS_OSLV d)
  let src := timeSourceOf s.ens.pub.refid
  match s.ens.pub.engine with
  | 2 => (if tel then s.rd (R.PTP_TEL_CLASS_TRK d) else s.rd R.ENS_MAP_CLASS_TRK, acc, oslv, 0x30, src)
  | 3 => (if tel then s.rd (R.PTP_TEL_CLASS_HO d) else s.rd R.ENS_MAP_CLASS_HO, if tel then 0xFE else acc,
          if tel then 0xFFFF else oslv, 0x30, src)
  | 4 => (if tel then s.rd (R.PTP_TEL_CLASS_FW d) else s.rd R.ENS_MAP_CLASS_FW, if tel then 0xFE else acc, 0xFFFF, 0, 0xA0)
  | _ => (if tel then s.rd (R.PTP_TEL_CLASS_PRE d) else s.rd R.ENS_MAP_CLASS_PRE, 0xFE, 0xFFFF, 0, 0xA0)

/-- An Announce (R328): its originTimestamp is written at commit. -/
def State.announce (s : State) (j flags0 seq : Nat) (log : Int) : List Nat :=
  let d := j / 32
  let q := s.quality j
  let t := s.slaveTime d
  let leap := match s.leapOf t with
    | some l => l.kind
    | none => 0
  let f1 := leap + 4 * s.rd R.TSC_UTC_OFS_VALID + 8 + q.2.2.2.1
  s.ptpMessage j 11 flags0 f1 0 seq log
    (List.replicate 10 0 ++ be 2 (ofSigned 16 (s.ofsAt t)) ++ [0, if s.telecom j then 128 else s.rd (R.PTP_DS_PRIO1 d), q.1, q.2.1]
      ++ be 2 q.2.2.1 ++ [s.rd (R.PTP_DS_PRIO2 d)] ++ be 8 (s.clockId (j / 4)) ++ [0, 0, q.2.2.2.2])

/-- Sends a Sync: one-step, or two-step with the Follow_Up its commit will send (R323).  That of a multicast instant `due` goes ahead of the
Announce of the same instant (R329). -/
def sendSync (j : Nat) (to_ : PtpDest) (uc seq : Nat) (log : Int) (due : Option Nat) (s : State) : State :=
  let one := s.on (R.PTP_INST_CFG_ONESTEP j)
  let fup := s.ptpFrame j (s.instSvc j) to_ (s.ptpMessage j 8 uc 0 0 seq log (List.replicate 10 0))
  let m := if one then s.ptpMessage j 0 uc 0 0 seq log (List.replicate 10 0) else s.ptpMessage j 0 (uc + 2) 0 0 seq log (ptpStamp s.ts0)
  enqueueAhead (j / 4) 7 (TxFrame.announces j due)
    { kind := .ptp { msg := 0, inst := j, due := due, follow := if one then none else some fup }
      bytes := s.ptpFrame j (s.instSvc j) to_ m } s

/-- Sends an Announce. -/
def sendAnnounce (j : Nat) (to_ : PtpDest) (uc seq : Nat) (log : Int) (due : Option Nat) (s : State) : State :=
  ptpQueue j to_ (.ptp { msg := 11, inst := j, due := due }) none (s.announce j uc seq log) s

/-! ### Grants (R329-R339) -/

def State.grant (s : State) (g : Nat) : Grant := IMap.get {} s.srv.grants g
def State.setGrant (s : State) (g : Nat) (v : Grant) : State :=
  { s with srv := { s.srv with grants := IMap.put {} s.srv.grants g v } }

/-- Entries of a die. -/
def State.dieGrants (s : State) (d : Nat) : List (Nat × Grant) := s.srv.grants.filter (fun g => g.1 / 16384 = d && g.2.valid)

/-- Valid grant entries (USED). -/
def State.grantUsed (s : State) (d : Nat) : Nat := (s.dieGrants d).length

/-- The lowest entry number from `k` on that a rising list of keys does not hold. -/
def firstFree : List (Nat × Grant) → Nat → Nat
  | [], k => k
  | (k', _) :: m, k => if k' = k then firstFree m (k + 1) else k

/-- The destination of a grant's messages. -/
def grantDest (g : Grant) : PtpDest :=
  { mac := if g.family = 0 then beAt g.addr 0 6 else Config.nextHop (g.inst / 4) g.addr, ip := g.addr, tags := g.tags }

/-- A Signaling message with some TLVs to a port identity (R330). -/
def sendSignal (j : Nat) (entry : List Nat) (to_ : PtpDest) (target tlvs grants : List Nat) (s : State) : State :=
  let m := s.ptpMessage j 12 4 0 0 (s.inst j).sigSeq 0x7F (target ++ tlvs)
  let f := s.ptpFrame j entry to_ m
  let s := s.modInst j (fun k => { k with sigSeq := (k.sigSeq + 1) % 65536 })
  enqueue (j / 4) 7 { kind := .signal j grants, bytes := f } s

def tlvGrant (msg : Nat) (log : Int) (dur : Nat) : List Nat := be 2 5 ++ be 2 8 ++ [msg * 16, ofSigned 8 log] ++ be 4 dur ++ [0, 1]
def tlvDenied (msg : Nat) (log : Int) : List Nat := be 2 5 ++ be 2 8 ++ [msg * 16, ofSigned 8 log] ++ be 4 0 ++ [0, 0]
def tlvCancel (msg : Nat) : List Nat := be 2 6 ++ be 2 2 ++ [msg * 16, 0]
def tlvAck (msg : Nat) : List Nat := be 2 7 ++ be 2 2 ++ [msg * 16, 0]
def tlvRequest (msg : Nat) (log : Int) (dur : Nat) : List Nat := be 2 4 ++ be 2 6 ++ [msg * 16, ofSigned 8 log] ++ be 4 dur

/-- Cancels an instance's grants, sent from an entry if the port is UP, and frees them (R314, R315). -/
def cancelGrants (j : Nat) (entry : List Nat) (s : State) : State :=
  let mine := (s.dieGrants (j / 32)).filter (fun g => g.2.inst = j)
  mine.foldl (fun s g =>
    let s := if s.isUp (j / 4) then
        ptpStat (j / 32) 14 (sendSignal j entry (grantDest g.2) (be 8 g.2.clkId ++ be 2 g.2.portNum) (tlvCancel g.2.msg) [] s)
      else s
    s.setGrant g.1 {}) s

/-! ### Upstream: selection (R341) -/

/-- The domain slot an upstream instance feeds. -/
def State.domSlot (s : State) (j : Nat) : Nat := s.rd (R.PTP_INST_CFG_DOM_SLOT j)

/-- Whether a master can be selected. -/
def State.selectable (s : State) (m : PtpMaster) : Bool :=
  decide (m.cls ≤ s.rd (R.PTP_INST_UP_QUAL_CLASS m.inst)) && decide (m.steps < 255)

/-- The dataset compared, best first: clause 9.3.4, or the alternate algorithm of profiles 2 and 3 with localPriority, which leaves out
the identity of grandmasters of class 127 and below (log entry 60). -/
def State.dataset (s : State) (alt : Bool) (m : PtpMaster) : List Nat :=
  if alt then [m.cls, m.acc, m.var, m.prio2, s.rd (R.PTP_INST_UP_LOCAL_PRIO m.inst)] ++ (if m.cls ≤ 127 then [] else [m.gm])
  else [m.prio1, m.cls, m.acc, m.var, m.prio2, m.gm]

/-- What decides between equal datasets: steps removed, the sender's identity, the lower port (R341). -/
def topology (m : PtpMaster) : List Nat := [m.steps, m.id, m.inst / 4]

/-- Lexicographic order. -/
def lexLt : List Nat → List Nat → Bool
  | a :: as, b :: bs => decide (a < b) || (decide (a = b) && lexLt as bs)
  | _, _ => false

/-- Whether one master is better than another. -/
def State.better (s : State) (a b : PtpMaster) : Bool :=
  let alt := s.telecom a.inst && s.telecom b.inst
  if !alt && a.gm = b.gm then lexLt (topology a) (topology b)
  else lexLt (s.dataset alt a ++ topology a) (s.dataset alt b ++ topology b)

/-- The best of some masters. -/
def State.bestOf (s : State) : List PtpMaster → Option PtpMaster
  | [] => none
  | m :: ms => match s.bestOf ms with
    | none => some m
    | some b => if s.better b m then some b else some m

def State.selectedOf (s : State) (ds : Nat) : Option (Nat × Nat) := IMap.get none s.srv.selected ds

/-- An instance's measurements start afresh after a change of selection (R342). -/
def clearMeasure (j : Nat) (s : State) : State :=
  s.modInst j (fun k => { k with syncWait := none, syncDiff := none, dreqOut := none, dly := none, respLog := none })

/-- What PTP_INST_STAT of an upstream instance shows. -/
def showUpstream (ds : Nat) (s : State) : State :=
  instIds.foldl (fun s j =>
    if (s.inst j).on && s.upstream j && s.domSlot j = ds then
      let mine := s.srv.masters.filter (fun m => m.inst = j)
      let sel := (s.selectedOf ds).bind (fun x => mine.find? (fun m => x.1 = j && m.id = x.2))
      let st := if sel.isSome then 4 else if mine.any s.selectable then 5 else 3
      let c := match sel with
        | some m => m.cls
        | none => (s.bestOf mine).elim 0xFF (·.cls)
      (s.wr (R.PTP_INST_STAT_STATE j) st).wr (R.PTP_INST_STAT_MASTER_CLASS j) c
    else s) s

/-- The instance whose master is no longer selected begins its measurements anew. -/
def clearDropped (old : Option (Nat × Nat)) (s : State) : State :=
  match old with
  | some o => clearMeasure o.1 s
  | none => s

/-- Selects among the masters of a domain slot (R341); one on a die whose lane is not LOCKED leaves the slot withdrawn (R34). -/
def reselect (ds : Nat) (s : State) : State :=
  let cands := s.srv.masters.filter (fun m => (s.inst m.inst).on && s.upstream m.inst && s.domSlot m.inst = ds && s.selectable m)
  let old := s.selectedOf ds
  let new := (s.bestOf cands).map (fun m => (m.inst, m.id))
  let s := if new = old then s
    else
      let s := { s with srv := { s.srv with selected := IMap.put none s.srv.selected ds new } }
      let s := clearDropped old s
      match new, old with
      | some n, _ => (clearMeasure n.1 s).raise (Evt.ptp (n.1 / 32)) 2
      | none, some o => (s.raise (Evt.ptp (o.1 / 32)) 4).raise (Evt.ptp (o.1 / 32)) 2
      | none, none => s
  showUpstream ds (if s.carriesTime (4 + ds) then s else withdraw (4 + ds) s)

/-- Drops masters and selects again. -/
def dropMasters (ds : Nat) (f : PtpMaster → Bool) (s : State) : State :=
  reselect ds { s with srv := { s.srv with masters := s.srv.masters.filter (fun m => !f m) } }

/-! ### Upstream requester (R344) -/

/-- The master's address in PTP_INST_PEER0-PEER3. -/
def State.peerAddr (s : State) (j : Nat) : List Nat :=
  if s.transport j = 1 then be 4 (s.rd (R.PTP_INST_PEER_ADDR (j * 4)))
  else ([0, 1, 2, 3].map (fun k => s.rd (R.PTP_INST_PEER_ADDR (j * 4 + k)))).flatMap (be 4)

def State.peerDest (s : State) (j : Nat) (entry : List Nat) : PtpDest :=
  { mac := Config.nextHop (j / 4) (s.peerAddr j), ip := s.peerAddr j, tags := svcTagWords entry }

def anyTarget : List Nat := List.replicate 10 0xFF

/-- An upstream instance that stops cancels the grants it holds (R344). -/
def cancelHeld (j : Nat) (entry : List Nat) (s : State) : State :=
  [0, 9, 11].foldl (fun s m =>
    if (IMap.get none (s.inst j).granted m).isSome && s.isUp (j / 4) then
      ptpStat (j / 32) 14 (sendSignal j entry (s.peerDest j entry) anyTarget (tlvCancel m) [] s)
    else s) s

/-! ### Starting and stopping an instance (R313-R315) -/

/-- Stops an instance that runs: its grants are cancelled and it withdraws from selection. -/
def stopInst (j : Nat) (entry : List Nat) (s : State) : State :=
  if (s.inst j).on then
    let s := cancelGrants j entry s
    let s := if s.upstream j && s.rd (R.PTP_INST_CFG_PROFILE j) = 3 then cancelHeld j entry s else s
    let s := s.modInst j (fun k => { syncSeq := k.syncSeq, annSeq := k.annSeq, sigSeq := k.sigSeq, dreqSeq := k.dreqSeq })
    let s := if s.upstream j then dropMasters (s.domSlot j) (fun m => m.inst = j) s else s
    (s.wr (R.PTP_INST_STAT_STATE j) 0).wr (R.PTP_INST_STAT_MASTER_CLASS j) 0xFF
  else s

/-- Starts an instance whose EN is 1, or leaves it OFF with CFG_ERR. -/
def startInst (j : Nat) (s : State) : State :=
  let s := s.lo (R.PTP_INST_STAT_CFG_ERR j)
  if !s.on (R.PTP_INST_CFG_EN j) then s
  else if s.instBad j then (s.hi (R.PTP_INST_STAT_CFG_ERR j)).raise (Evt.ptp (j / 32)) 8
  else
    let s := s.modInst j (fun k => { k with on := true, dreqFrom := s.clk })
    s.wr (R.PTP_INST_STAT_STATE j) (if s.upstream j then 3 else 2)

/-- A write to PTP_INST_CFG, PTP_INST_UP or PTP_INST_PEER restarts an enabled instance (R314). -/
def writeInst (j : Nat) (r : Register) (w : Nat) (s : State) : State :=
  let cfg := decide (r.addr = (Reg.PTP_INST_CFG j).addr)
  if cfg || s.on (R.PTP_INST_CFG_EN j) then startInst j ((stopInst j (s.instSvc j) s).storeReg false r w)
  else s.storeReg false r w

/-- The instance registers a write of which restarts an instance. -/
def instReg (j : Nat) : Fin 6 → Register
  | 0 => Reg.PTP_INST_CFG j
  | 1 => Reg.PTP_INST_UP j
  | k => Reg.PTP_INST_PEER (j * 4 + (k.val - 2))

def execInstanceConfig (j : Fin 128) (r : Fin 6) (w : Word) : State → Res State :=
  go (windowWrite (j.val / 32) (instReg j.val r) (writeInst j.val (instReg j.val r) w.toNat))

/-- A write to PTP_INST_RATE or PTP_INST_PHASE: only the RATE of an upstream instance restarts it (R314). -/
def writeInstRate (j : Nat) (phase : Bool) (w : Nat) (s : State) : State :=
  if phase then judgeAgain (s.storeReg false (Reg.PTP_INST_PHASE j) w)
  else if s.upstream j && s.on (R.PTP_INST_CFG_EN j) then
    startInst j ((stopInst j (s.instSvc j) s).storeReg false (Reg.PTP_INST_RATE j) w)
  else judgeAgain (s.storeReg false (Reg.PTP_INST_RATE j) w)
where
  /-- A write that leaves no error clears CFG_ERR (R345). -/
  judgeAgain (s : State) : State := if s.instBad j then s else s.lo (R.PTP_INST_STAT_CFG_ERR j)

def execInstanceRateWrite (j : Fin 128) (phase : Bool) (w : Word) : State → Res State :=
  go (windowWrite (j.val / 32) (if phase then Reg.PTP_INST_PHASE j.val else Reg.PTP_INST_RATE j.val) (writeInstRate j.val phase w.toNat))

/-! ### Service address access (R250, R251, R254, R315) -/

/-- The staging registers. -/
def State.svcData (s : State) (p : Nat) : List Nat :=
  [s.rd (R.MAC_SVC_DATA0_D p), s.rd (R.MAC_SVC_DATA1_OUTER p) + 65536 * s.rd (R.MAC_SVC_DATA1_INNER p), s.rd (R.MAC_SVC_DATA2_D p), s.rd (R.MAC_SVC_DATA3_D p),
   s.rd (R.MAC_SVC_DATA4_D p), s.rd (R.MAC_SVC_DATA5_D p)]

/-- Whether a WRITE would make a second valid entry of one family with the same address and tags (R251). -/
def State.svcTwice (s : State) (p i : Nat) (e : List Nat) : Bool :=
  let v6 := decide (64 ≤ i)
  svcValid e && (svcIds v6).any (fun k => k ≠ i && svcValid (s.svc p k) && svcAddr v6 (s.svc p k) = svcAddr v6 e
    && svcTags (s.svc p k) = svcTags e)

/-- Takes what some instances of a port have queued and not committed out of Q7: none is sent with tags that the entry no longer
holds (R315). -/
def dropUnsent (p : Nat) (mine : Nat → Bool) (s : State) : State :=
  setTxq p 7 ((s.txq p 7).filter (fun f => match f.kind with
    | .ptp m => !mine m.inst
    | .signal j _ => !mine j
    | _ => true)) s

/-- The WRITE: the whole entry at one cycle; instances that name it restart, cancelling from the entry as it stood (R254, R315). -/
def svcWriteEntry (p i : Nat) (s : State) : State :=
  let e := svcEntry (s.svcData p)
  if s.svcTwice p i e then (s.hi (R.MAC_SVC_CMD_REFUSED p)).raise (Evt.mac p) 512
  else
    let old := s.svc p i
    let s := dropUnsent p (fun j => s.rd (R.PTP_INST_CFG_SVC j) = i) s
    let js := ([0, 1, 2, 3].map (p * 4 + ·)).filter (fun j => s.on (R.PTP_INST_CFG_EN j) && s.rd (R.PTP_INST_CFG_SVC j) = i)
    let s := js.foldl (fun s j => stopInst j old s) s
    let s := setSvc p i e s
    js.foldl (fun s j => startInst j s) s

/-- The READ: entry IDX into the staging registers. -/
def svcReadEntry (p i : Nat) (s : State) : State :=
  let e := s.svc p i
  ((((((s.wr (R.MAC_SVC_DATA0_D p) (svcWord e 0)).wr (R.MAC_SVC_DATA1_OUTER p) (svcWord e 1 % 4096)).wr (R.MAC_SVC_DATA1_INNER p)
    (svcWord e 1 / 65536)).wr (R.MAC_SVC_DATA2_D p) (svcWord e 2)).wr (R.MAC_SVC_DATA3_D p) (svcWord e 3)).wr (R.MAC_SVC_DATA4_D p)
    (svcWord e 4)).wr (R.MAC_SVC_DATA5_D p) (svcWord e 5)

/-- A write of MAC_SVC_CMD; with both WRITE and READ it is discarded. -/
def writeSvcCmd (p w : Nat) (s : State) : State :=
  let wr := (R.MAC_SVC_CMD_WRITE p).of w = 1
  let rd := (R.MAC_SVC_CMD_READ p).of w = 1
  if wr ∧ rd then s
  else
    let s := s.storeReg false (Reg.MAC_SVC_CMD p) w
    let i := s.rd (R.MAC_SVC_CMD_IDX p)
    if wr then svcWriteEntry p i s else if rd then svcReadEntry p i s else s

def execSvcWrite (p : Fin 32) (w : Word) : State → Res State :=
  go (windowWrite (p.val / 8) (Reg.MAC_SVC_CMD p.val) (writeSvcCmd p.val ((R.MAC_SVC_CMD_WRITE p.val).setIn w.toNat)))
def execSvcRead (p : Fin 32) (w : Word) : State → Res State :=
  go (windowWrite (p.val / 8) (Reg.MAC_SVC_CMD p.val) (writeSvcCmd p.val ((R.MAC_SVC_CMD_READ p.val).setIn w.toNat)))

/-! ### Schedules (R329, R337) -/

/-- An interval of 2^r s in ns. -/
def intervalNs (r : Int) : Nat := if 0 ≤ r then 1000000000 * 2 ^ r.toNat else 1000000000 / 2 ^ (-r).toNat

/-- The first instant in ns at or after `t` that is `phase` past a multiple of an interval. -/
def nextInstant (interval phase t : Nat) : Nat :=
  let ph := phase % interval
  if t ≤ ph then ph else ph + ceilDiv (t - ph) interval * interval

/-- A scheduled send that is not made (R320, R329). -/
def sendSkip (p : Nat) (s : State) : State := (ptpStat (p / 8) 9 s).raise (Evt.ptp (p / 8)) 16

/-- The next scheduled instant (ns): none that was sent (`last`), or skipped in the current tick, comes again. -/
def State.dueNs (s : State) (interval phase : Nat) (last skipped : Option Nat) : Nat :=
  nextInstant interval phase (max (ceilDiv (s.openFrom skipped) 65536) ((last.map (· + 1)).getD 0))

/-- A scheduled instant: time runs to it, and the message is sent or skipped, each noted; after a backward step a skipped one may come again,
one that was sent does not (R282, R329). -/
def atInstant (p due : Nat) (skip : State → State) (send : State → State) (s : State) : State :=
  let s := s.waitTs0 (ns16 due)
  if s.ts0 < ns16 due then s
  else if (ptpWithheld p s).isSome || !s.isUp p then sendSkip p (skip s) else send (settle p s)

/-- Whether a multicast message is scheduled: never at a rate that a later write has put outside the profile's range (log entry 59). -/
def State.scheduled (s : State) (j : Nat) (ann : Bool) : Bool :=
  (s.inst j).on && !s.upstream j && s.on (R.PTP_INST_CFG_MCAST j) && s.on (R.PTP_CTL_EN (j / 32))
    && (if ann then rateOk (s.rd (R.PTP_INST_RATE_LOG_ANN j)) (s.prof j).ann else rateOk (s.rd (R.PTP_INST_RATE_LOG_SYNC j)) (s.prof j).sync)

/-- A multicast Sync or Announce falls due (R329). -/
def sendMulticast (j : Nat) (ann : Bool) (s : State) : State :=
  if !s.scheduled j ann then s
  else
    let log := if ann then s.logAnn j else s.logSync j
    let k := s.inst j
    let due := s.dueNs (intervalNs log) (s.rd (R.PTP_INST_PHASE_PHASE j)) (if ann then k.lastAnn else k.lastSync)
      (if ann then k.skipAnn else k.skipSync)
    atInstant (j / 4) due
      (fun s => s.modInst j (fun k => if ann then { k with skipAnn := some s.tick.count } else { k with skipSync := some s.tick.count }))
      (fun s =>
        let to_ := s.groupDest j false
        if ann then
          sendAnnounce j to_ 0 k.annSeq log (some due) (s.modInst j (fun k => { k with annSeq := (k.annSeq + 1) % 65536, lastAnn := some due }))
        else
          sendSync j to_ 0 k.syncSeq log (some due) (s.modInst j (fun k => { k with syncSeq := (k.syncSeq + 1) % 65536, lastSync := some due }))) s

/-- A granted Sync or Announce falls due (R337), in the order of R329 with what falls due with it. -/
def sendGranted (g : Nat) (s : State) : State :=
  let e := s.grant g
  if !(e.valid && (e.msg = 0 || e.msg = 11) && s.on (R.PTP_CTL_EN (g / 16384))) then s
  else
    let i := intervalNs e.logPeriod
    let due := s.dueNs i (g % 16384 * i / 16384) e.lastNs e.skipped
    atInstant (e.inst / 4) due
      (fun s => s.setGrant g { e with skipped := some s.tick.count })
      (fun s =>
        let s := s.setGrant g { e with seq := (e.seq + 1) % 65536, lastNs := some due }
        if e.msg = 0 then sendSync e.inst (grantDest e) 4 e.seq e.logPeriod (some due) s
        else sendAnnounce e.inst (grantDest e) 4 e.seq e.logPeriod (some due) s) s

/-- A Sync or Announce falls due. -/
def ptpSend : PtpDue → State → State
  | .multicast j ann, s => sendMulticast j.val ann s
  | .granted n e, s => sendGranted (n.val * 16384 + e.val) s

def execPtpSend (due : PtpDue) : State → Res State := go (ptpSend due)

/-- Instants that a forward step passed are skipped: `n` of them. -/
def skipMany (p n : Nat) (s : State) : State :=
  if n = 0 then s else (bumpStat (2304 + p / 8 * 32 + 9) 0x189 (p / 8) n s).raise (Evt.ptp (p / 8)) 16

/-- Instants of an interval and phase within a forward step of TS0 that lie beyond the last one sent. -/
def passedInstants (interval phase old new : Nat) (last : Option Nat) : Nat :=
  (nextInstant interval phase (ceilDiv new 65536)
    - nextInstant interval phase (max ((last.map (· + 1)).getD 0) (old / 65536 + 1))) / interval

/-- A forward step of TS0 from `old` skips what it passes (R329). -/
def ptpStepSkips (old : Nat) (s : State) : State :=
  if s.ts0 ≤ old then s
  else
    let s := instIds.foldl (fun s j =>
      let ph := s.rd (R.PTP_INST_PHASE_PHASE j)
      skipMany (j / 4)
        ((if s.scheduled j false then passedInstants (intervalNs (s.logSync j)) ph old s.ts0 (s.inst j).lastSync else 0)
          + (if s.scheduled j true then passedInstants (intervalNs (s.logAnn j)) ph old s.ts0 (s.inst j).lastAnn else 0)) s) s
    s.srv.grants.foldl (fun s g =>
      let i := intervalNs g.2.logPeriod
      if g.2.valid && (g.2.msg = 0 || g.2.msg = 11) && s.on (R.PTP_CTL_EN (g.1 / 16384)) then
        skipMany (g.2.inst / 4) (passedInstants i (g.1 % 16384 * i / 16384) old s.ts0 g.2.lastNs) s
      else s) s

/-! ### What the engine receives (R318, R319) -/

/-- A received PTP message: the frame, the message, its transport, whether it came to a group address. -/
structure PtpRx where
  a : Arrived := {}
  msg : List Nat := []
  tr : Nat := 0
  group : Bool := false
deriving DecidableEq, Repr

def PtpRx.type (m : PtpRx) : Nat := m.msg.getD 0 0 % 16
def PtpRx.len (m : PtpRx) : Nat := beAt m.msg 2 2
def PtpRx.corr (m : PtpRx) : Int := toSigned 64 (beAt m.msg 8 8)
def PtpRx.source (m : PtpRx) : List Nat := slice m.msg 20 10
def PtpRx.sourceId (m : PtpRx) : Nat := beAt m.msg 20 10
def PtpRx.seq (m : PtpRx) : Nat := beAt m.msg 30 2
def PtpRx.log (m : PtpRx) : Int := toSigned 8 (m.msg.getD 33 0)
/-- A timestamp of the message's body in 2^-16 ns. -/
def PtpRx.stamp (m : PtpRx) : Int := (sec16 (beAt m.msg 34 6) + ns16 (beAt m.msg 40 4) : Nat)
/-- The requester's address: IP source, or the source MAC. -/
def PtpRx.addr (m : PtpRx) : List Nat := if m.tr = 0 then be 6 m.a.e.src else m.a.ip.src
/-- Back to the sender, with its tags. -/
def PtpRx.back (m : PtpRx) : PtpDest := { mac := m.a.e.src, ip := m.a.ip.src, tags := m.a.e.tags }
/-- To where the message was sent. -/
def PtpRx.same (m : PtpRx) : PtpDest := { mac := m.a.e.dst, ip := m.a.ip.dst, tags := m.a.e.tags }
/-- The message's tags with PCP and DEI 0. -/
def PtpRx.tags (m : PtpRx) : List Nat := m.a.e.tagKey.map (fun t => t.1 * 65536 + t.2)

/-- The least messageLength of a type. -/
def ptpMinLen : Nat → Nat
  | 0 => 44
  | 1 => 44
  | 2 => 54
  | 3 => 54
  | 8 => 44
  | 9 => 54
  | 10 => 54
  | 11 => 64
  | 12 => 44
  | 13 => 48
  | _ => 34

/-- The TLVs after a message's body: type, body. -/
def tlvsFrom : Nat → List Nat → List (Nat × List Nat)
  | 0, _ => []
  | n + 1, b => if b.length < 4 then [] else (beAt b 0 2, slice b 4 (beAt b 2 2)) :: tlvsFrom n (b.drop (4 + beAt b 2 2))

def PtpRx.tlvs (m : PtpRx) : List (Nat × List Nat) :=
  let b := (m.msg.take m.len).drop (ptpMinLen m.type)
  tlvsFrom b.length b

/-- The running instance a message belongs to. -/
def State.ptpInstOf (s : State) (m : PtpRx) : Option Nat :=
  (s.running m.a.port).find? (fun j => s.transport j = m.tr && s.domain j = m.msg.getD 4 0 && svcTags (s.instSvc j) = m.a.e.tagKey)

/-! ### Delay and peer delay (R323, R324, R338) -/

/-- A grant that a requester holds (R333). -/
def State.grantOf (s : State) (j : Nat) (m : PtpRx) (msg : Nat) : Option (Nat × Grant) :=
  (s.dieGrants (j / 32)).find? (fun g => g.2.inst = j && g.2.msg = msg && g.2.addr = m.addr && g.2.tags = m.tags
    && be 8 g.2.clkId ++ be 2 g.2.portNum = m.source)

/-- Units of 1/256 request that a Delay_Resp grant gains in `units` of 1/64 s: twice the granted rate. -/
def grantGain (log : Int) (units : Nat) : Nat := if log ≤ 0 then units * 8 * 2 ^ (-log).toNat else units * 8 / 2 ^ log.toNat

/-- A Delay_Resp grant's bucket refilled as of `now`: four requests at most; the time of a part of a unit stays to its credit (R336, R338). -/
def grantRefill (e : Grant) (now : Nat) : Grant :=
  let k := grantGain e.logPeriod (now - e.tUpd)
  if 1024 ≤ e.tokens + k then { e with tokens := 1024, tUpd := now }
  else { e with tokens := e.tokens + k, tUpd := if e.logPeriod ≤ 3 then now else e.tUpd + k * 2 ^ (e.logPeriod.toNat - 3) }

/-- A Delay_Resp, multicast where the request was and otherwise to its source (R323). -/
def delayResp (j : Nat) (m : PtpRx) (log : Int) (s : State) : State :=
  let t := m.a.tRx
  ptpQueue j (if m.group then m.same else m.back) (.ptp { msg := 9, inst := j }) (some m.a.rx)
    (s.ptpMessage j 9 (if m.group then 0 else 4) 0 (m.corr - fracOf t) m.seq log (ptpStamp t ++ m.source)) s

/-- A Delay_Req to a master (R318 row 7, R320, R338). -/
def delayReq (j : Nat) (m : PtpRx) (s : State) : State :=
  let d := j / 32
  match ptpWithheld m.a.port s with
  | some f => f s
  | none =>
    if m.group then delayResp j m (s.logDreq j) s
    else
      match s.grantOf j m 9 with
      | some (g, e) =>
        let e := grantRefill e (s.now64 d)
        if 256 ≤ e.tokens then delayResp j m e.logPeriod (s.setGrant g { e with tokens := e.tokens - 256 })
        else ptpStat d 17 (s.setGrant g e)
      | none =>
        if s.on (R.PTP_INST_CFG_MCAST j) && (s.rd (R.PTP_INST_CFG_PROFILE j) ∈ [0, 4, 5]) then delayResp j m (s.logDreq j) s
        else (ptpStat d 16 s).raise (Evt.ptp d) 32

/-- A Pdelay_Req to a responder (R318 row 8, R324). -/
def pdelayReq (j : Nat) (m : PtpRx) (s : State) : State :=
  match ptpWithheld m.a.port s with
  | some f => f s
  | none =>
    let to_ := s.groupDest j true
    let t := m.a.tRx
    if s.on (R.PTP_INST_CFG_ONESTEP j) then
      ptpQueue j to_ (.ptp { msg := 3, inst := j, corr := m.corr, tRx := t }) (some m.a.rx)
        (s.ptpMessage j 3 0 0 0 m.seq 0x7F (List.replicate 10 0 ++ m.source)) s
    else
      let fup := s.ptpFrame j (s.instSvc j) to_ (s.ptpMessage j 10 0 0 0 m.seq 0x7F (List.replicate 10 0 ++ m.source))
      ptpQueue j to_ (.ptp { msg := 3, inst := j, corr := m.corr, tRx := t, follow := some fup }) (some m.a.rx)
        (s.ptpMessage j 3 2 0 0 m.seq 0x7F (ptpStamp t ++ m.source)) s

/-! ### Negotiation (R330-R334, R344) -/

/-- Whether a request's parameters deny it (R331). -/
def State.requestBad (s : State) (j msg : Nat) (log : Int) (dur : Nat) : Bool :=
  let p := s.prof j
  let r := if msg = 0 then p.sync else if msg = 11 then p.ann else p.dreq
  !s.on (R.PTP_INST_CFG_UCAST j) || s.upstream j || !(msg ∈ [0, 9, 11]) || decide (log < r.1 ∨ r.2.1 < log)
    || decide (dur < s.rd (R.PTP_GRANT_CFG_DUR_MIN (j / 32)))

/-- A REQUEST_UNICAST_TRANSMISSION: the answer's TLV, the grant entry it gives, the state after (R331-R333). -/
def requestTlv (j : Nat) (m : PtpRx) (b : List Nat) (s : State) : List Nat × List Nat × State :=
  let d := j / 32
  let msg := b.getD 0 0 / 16
  let log := toSigned 8 (b.getD 1 0)
  let dur := beAt b 2 4
  if s.requestBad j msg log dur then (tlvDenied msg log, [], ptpStat d 12 s)
  else
    let given := min dur (max (s.rd (R.PTP_GRANT_CFG_DUR_MIN d)) (s.rd (R.PTP_GRANT_CFG_DUR_MAX d)))
    let expiry := (s.nowHalf d + 2 * given + 1) % 2 ^ 32
    match s.grantOf j m msg with
    | some (g, e) =>
      let e := if e.msg = 9 then grantRefill e (s.now64 d) else e
      (tlvGrant msg log given, [g], ptpStat d 10 (s.setGrant g { e with logPeriod := log, duration := given, expiry := expiry }))
    | none =>
      let n := firstFree ((s.dieGrants d).map (fun g => (g.1 % 16384, g.2))) 0
      if 16384 ≤ n then (tlvDenied msg log, [], (ptpStat d 11 s).raise (Evt.ptp d) 1)
      else
        let g := d * 16384 + n
        let e : Grant := { valid := true, clkId := beAt m.msg 20 8, portNum := beAt m.msg 28 2, msg := msg, logPeriod := log,
                           family := m.tr, inst := j, port := m.a.port % 8, tags := m.tags, addr := m.addr, duration := given,
                           expiry := expiry, tokens := 1024, tUpd := s.now64 d }
        (tlvGrant msg log given, [g], ptpStat d 10 (s.setGrant g e))

/-- A CANCEL_UNICAST_TRANSMISSION frees the matching entry and is acknowledged (R334). -/
def cancelTlv (j : Nat) (m : PtpRx) (b : List Nat) (s : State) : List Nat × State :=
  let msg := b.getD 0 0 / 16
  let s := match s.grantOf j m msg with
    | some (g, _) => s.setGrant g {}
    | none => s
  let s := if s.upstream j && m.addr = s.peerAddr j then s.modInst j (fun k => { k with granted := IMap.put none k.granted msg none }) else s
  (tlvAck msg, ptpStat (j / 32) 13 s)

/-- A GRANT received by an upstream requester from the master it asked: granted, or denied and retried 8 s later (R344). -/
def grantTlv (j : Nat) (m : PtpRx) (b : List Nat) (s : State) : State :=
  let msg := b.getD 0 0 / 16
  if s.upstream j && m.addr = s.peerAddr j && (IMap.get none (s.inst j).asked msg).isSome then
    let dur := beAt b 2 4
    s.modInst j (fun k => { k with
      asked := IMap.put none k.asked msg none
      granted := IMap.put none k.granted msg (if dur = 0 then none else some (dur, s.clk))
      retryAt := IMap.put none k.retryAt msg (if dur = 0 then some (s.clk + sec16 8) else none) })
  else s

/-- The TLVs of a Signaling message in order: the first eight are processed, each further one ignored (R330). -/
def negotiate (j : Nat) (m : PtpRx) : List (Nat × List Nat) → Nat → List Nat × List Nat → State → (List Nat × List Nat) × State
  | [], _, acc, s => (acc, s)
  | t :: ts, n, acc, s =>
    if 8 ≤ n then negotiate j m ts (n + 1) acc (ptpStat (j / 32) 18 s)
    else if t.1 = 4 then
      let r := requestTlv j m t.2 s
      negotiate j m ts (n + 1) (acc.1 ++ r.1, acc.2 ++ r.2.1) r.2.2
    else if t.1 = 6 then
      let r := cancelTlv j m t.2 s
      negotiate j m ts (n + 1) (acc.1 ++ r.1, acc.2) r.2
    else negotiate j m ts (n + 1) acc (if t.1 = 5 then grantTlv j m t.2 s else s)

/-- A Signaling message of unicast negotiation (R330). -/
def signalRx (j : Nat) (m : PtpRx) (s : State) : State :=
  let r := negotiate j m m.tlvs 0 ([], []) s
  if r.1.1.isEmpty then r.2 else sendSignal j (r.2.instSvc j) m.back m.source r.1.1 r.1.2 r.2

/-! ### Upstream messages (R341, R342) -/

/-- An Announce heard: kept, and the engine selects (R341). -/
def announceRx (j : Nat) (m : PtpRx) (s : State) : State :=
  let b := m.msg
  let x : PtpMaster :=
    { inst := j, id := m.sourceId, prio1 := b.getD 47 0, cls := b.getD 48 0, acc := b.getD 49 0, var := beAt b 50 2, prio2 := b.getD 52 0,
      gm := beAt b 53 8, steps := beAt b 61 2, logAnn := m.log, src := m.addr, heard := s.clk }
  reselect (s.domSlot j) { s with srv := { s.srv with
    masters := s.srv.masters.filter (fun k => !(k.inst = j && k.id = x.id)) ++ [x] } }

/-- A pair (t2, t1 + c_S) of the selected master gives a sample once a path delay is known (R342). -/
def syncPair (j : Nat) (t2 : Stamp) (diff : Int) (s : State) : State :=
  let s := s.modInst j (fun k => { k with syncDiff := some diff })
  match (s.inst j).dly with
  | none => s
  | some d => ptpStat (j / 32) 21 (deliver (4 + s.domSlot j) t2 (diff - d) d false s)

/-- A two-step Sync whose Follow_Up has not come gives no sample (R342). -/
def missFollowUp (j : Nat) (s : State) : State :=
  if (s.inst j).syncWait.isSome then ptpStat (j / 32) 22 (s.modInst j (fun k => { k with syncWait := none })) else s

/-- A Delay_Resp to this port: its interval (R343), and the mean path delay where it answers the Delay_Req out and a Sync has come (R342). -/
def delayRespRx (j : Nat) (m : PtpRx) (s : State) : State :=
  if slice m.msg 44 10 = s.portId (j / 4) then
    let s := s.modInst j (fun k => { k with respLog := some m.log })
    match (s.inst j).dreqOut, (s.inst j).syncDiff with
    | some (seq, some t3), some diff =>
      if seq = m.seq then s.modInst j (fun k => { k with dly := some (rnd (mkRat (diff + (m.stamp - t3 - m.corr)) 2)), dreqOut := none })
      else s
    | _, _ => s
  else s

/-- A Sync, Follow_Up or Delay_Resp of the selected master (R342). -/
def measureRx (j : Nat) (m : PtpRx) (s : State) : State :=
  if s.selectedOf (s.domSlot j) ≠ some (j, m.sourceId) then s
  else
    match m.type with
    | 0 =>
      let s := missFollowUp j s
      if !m.a.item.tsOk then s
      else if bit (m.msg.getD 6 0) 1 then
        s.modInst j (fun k => { k with syncWait := some (m.seq, m.a.item.stamp, m.corr, s.clk) })
      else syncPair j m.a.item.stamp ((m.a.tRx : Int) - m.stamp - m.corr) s
    | 8 =>
      match (s.inst j).syncWait with
      | some (seq, t2, c, _) =>
        if seq = m.seq then
          syncPair j t2 ((t2.t : Int) - m.stamp - c - m.corr) (s.modInst j (fun k => { k with syncWait := none }))
        else s
      | none => s
    | _ => delayRespRx j m s

/-- The rows of R318 for a message. -/
def ptpHandle (m : PtpRx) (s : State) : State :=
  let d := m.a.port / 8
  let host (s : State) : State := hostward m.a 1 (ptpStat d 19 s)
  if m.msg.getD 1 0 % 16 ≠ 2 ∨ m.msg.length < m.len ∨ m.len < ptpMinLen m.type then ptpStat d 20 s
  else
    match s.ptpInstOf m with
    | none => ptpStat d 20 s
    | some j =>
      let ts := m.tlvs
      let pr := s.rd (R.PTP_INST_CFG_PROFILE j)
      if ts.any (fun t => t.1 = 0x8009) then host s
      else if m.type = 13 then host s
      else if m.type = 12 then
        (if !ts.isEmpty && ts.all (fun t => decide (4 ≤ t.1 ∧ t.1 ≤ 7)) then signalRx j m s else host s)
      else if m.type = 1 ∧ s.upstream j = false ∧ pr ≠ 1 then
        delayReq j m (ts.foldl (fun s _ => ptpStat d 18 s) (ptpStat d 6 s))
      else if m.type = 2 ∧ s.upstream j = false ∧ pr = 1 then
        pdelayReq j m (ts.foldl (fun s _ => ptpStat d 18 s) (ptpStat d 7 s))
      else if s.upstream j ∧ m.type = 11 then announceRx j m s
      else if s.upstream j ∧ (m.type = 0 ∨ m.type = 8 ∨ m.type = 9) then measureRx j m s
      else host s

/-- A frame that reaches the engine (R318). -/
def ptpRx (a : Arrived) (l2 : Bool) (s : State) : State :=
  if !s.on (R.PTP_CTL_EN a.die) then hostward a 1 s
  else
    ptpHandle { a := a, tr := if l2 then 0 else if a.v6 then 2 else 1, msg := if l2 then a.e.bytes.drop a.e.l3 else a.payload,
                group := isGroup a.e.dst } s

/-- The group MAC and IP destinations the running instances of a port accept (R316). -/
def State.ptpMacs (s : State) (p : Nat) : List Nat :=
  (s.running p).flatMap (fun j =>
    if s.on (R.PTP_INST_CFG_MCAST j) then
      [(s.groupDest j false).mac, (s.groupDest j true).mac]
        ++ (if s.rd (R.PTP_INST_CFG_PROFILE j) = 2 then [0x011B19000000, 0x0180C200000E] else [])
    else [])
def State.ptpIps (s : State) (p : Nat) : List (List Nat) :=
  (s.running p).flatMap (fun j =>
    if s.on (R.PTP_INST_CFG_MCAST j) && s.transport j ≠ 0 then [(s.groupDest j false).ip, (s.groupDest j true).ip] else [])

/-! ### Timed events -/

/-- Lets time run until a die's slave tick stands at `n`. -/
def State.waitDie (s : State) (d n : Nat) : State := s.advance (n - s.dieTicks d)

/-- A master goes ANN_TO intervals without an Announce and is dropped (R341). -/
def announceTimeout (j id : Nat) (s : State) : State :=
  match s.srv.masters.find? (fun m => m.inst = j && m.id = id) with
  | none => s
  | some m =>
    let s := s.waitClk (m.heard + max 2 (s.rd (R.PTP_INST_RATE_ANN_TO j)) * ns16 (intervalNs m.logAnn))
    dropMasters (s.domSlot j) (fun k => k.inst = j && k.id = id) (ptpStat (j / 32) 23 s)

def execAnnounceTimeout (j : Fin 128) (id : Nat) : State → Res State := go (announceTimeout j.val id)

/-- A Follow_Up fails to arrive within 1 s (R342). -/
def followUpMiss (j : Nat) (s : State) : State :=
  match (s.inst j).syncWait with
  | none => s
  | some (_, _, _, at_) => missFollowUp j (s.waitClk (at_ + sec16 1))

def execFollowUpMiss (j : Fin 128) : State → Res State := go (followUpMiss j.val)

/-- A grant's duration runs out on the slave tick (R335). -/
def grantExpire (g : Nat) (s : State) : State :=
  if (s.grant g).valid then ptpStat (g / 16384) 15 ((s.waitDie (g / 16384) ((s.grant g).expiry * 400000000)).setGrant g {}) else s

def execGrantExpire (n : Fin 4) (e : Fin 16384) : State → Res State := go (grantExpire (n.val * 16384 + e.val))

/-- An upstream instance sends a Delay_Req at an instant within the interval that runs, `wait` (2^-16 ns) from its start (R343). -/
def upstreamDelayReq (j wait : Nat) (s : State) : State :=
  match s.selectedOf (s.domSlot j) with
  | none => s
  | some (k, id) =>
    if k ≠ j ∨ (s.inst j).on = false ∨ s.on (R.PTP_CTL_EN (j / 32)) = false then s
    else
      let i := ns16 (intervalNs (max (s.logDreq j) ((s.inst j).respLog.getD (s.logDreq j))))
      let from_ := (s.inst j).dreqFrom + (s.clk - (s.inst j).dreqFrom) / i * i
      let s := settle (j / 4) (s.waitClk (from_ + wait % i))
      let uc := s.on (R.PTP_INST_CFG_UCAST j)
      let src := ((s.srv.masters.find? (fun m => m.inst = j && m.id = id)).map (·.src)).getD []
      let to_ : PtpDest := if uc then
          { mac := if s.transport j = 0 then beAt src 0 6 else Config.nextHop (j / 4) src, ip := src, tags := svcTagWords (s.instSvc j) }
        else s.groupDest j false
      let seq := (s.inst j).dreqSeq
      let s := s.modInst j (fun k => { k with dreqSeq := (seq + 1) % 65536, dreqFrom := from_ + i, dreqOut := some (seq, none) })
      ptpQueue j to_ (.ptp { msg := 1, inst := j, seq := seq }) none
        (s.ptpMessage j 1 (if uc then 4 else 0) 0 0 seq 0x7F (List.replicate 10 0)) s

def execUpstreamDelayReq (j : Fin 128) (wait : Nat) : State → Res State := go (upstreamDelayReq j.val wait)

/-- When a requester next asks for a message: the retry, half the granted duration, the lapse of a request, or now (R344). -/
def State.renewAt (s : State) (j msg : Nat) : Nat :=
  let k := s.inst j
  match IMap.get none k.retryAt msg, IMap.get none k.granted msg, IMap.get none k.asked msg with
  | some t, _, _ => t
  | none, _, some t => t + sec16 9
  | none, some (dur, t), none => t + dur * sec16 1 / 2
  | none, none, none => s.clk

/-- A profile-3 upstream instance requests or renews a grant (R344). -/
def unicastRenew (j msg : Nat) (s : State) : State :=
  if !((s.inst j).on && s.upstream j && s.rd (R.PTP_INST_CFG_PROFILE j) = 3 && s.on (R.PTP_CTL_EN (j / 32))) then s
  else
    let s := settle (j / 4) (s.waitClk (s.renewAt j msg))
    let log := if msg = 0 then s.logSync j else if msg = 11 then s.logAnn j else s.logDreq j
    let s := s.modInst j (fun k => { k with
      asked := IMap.put none k.asked msg (some s.clk), retryAt := IMap.put none k.retryAt msg none })
    sendSignal j (s.instSvc j) (s.peerDest j (s.instSvc j)) anyTarget
      (tlvRequest msg log (max 1 (s.rd (R.PTP_INST_UP_REQ_DUR j)))) [] s

/-- Announce, Sync and Delay_Resp in the order R344 names them. -/
def renewMsg : Fin 3 → Nat
  | 0 => 11
  | 1 => 0
  | 2 => 9

def execUnicastRenew (j : Fin 128) (m : Fin 3) : State → Res State := go (unicastRenew j.val (renewMsg m))

end Sys2Proof.Machine
end

