-- ==== Sys2Proof/Machine/Receive.lean ====
section
/-! DEFINITION. The receive path of a port: checks, filter, flow control, classification (R232-R235, R244, R245, R252, R253, R257). -/

namespace Sys2Proof.Machine

/-! ### Filter (R234) -/

/-- The solicited-node multicast MAC of an IPv6 address. -/
def solicitedMac (addr : List Nat) : Nat := 0x3333FF000000 + beAt addr 13 3

/-- The group address of MAC control frames (log entry 28). -/
def macControl : Nat := 0x0180C2000001

/-- Whether the port accepts a destination. -/
def State.macAccepts (s : State) (p point : Nat) (e : Eth) : Bool :=
  e.dst = s.macAddr p || e.dst = macBcast || e.dst = 0x333300000001
    || (svcIds true).any (fun i => svcValid (s.svcAt p point i) && solicitedMac (svcAddr true (s.svcAt p point i)) = e.dst)
    || e.dst ∈ s.ptpMacs p
    || (s.on (R.MAC_RX_CFG_MCAST_ALL p) && isGroup e.dst)
    || (e.etype = 0x8808 && e.dst = macControl)

/-! ### Flow control (R245) -/

/-- Takes note of a pause of some queues, to take effect after its delay (R246); `end_` is when its last FCS bit crossed the ball. -/
def notePause (p end_ : Nat) (classes : List (Nat × Nat)) (each : List Nat) (s : State) : State :=
  let e : Pause := { atPs := end_ + pauseDelay (s.rd (R.MAC_CFG_MODE p)), quanta := classes,
                     zeros := (each.filter (· = 0)).length, sum := each.foldl (· + ·) 0 }
  s.modPort p (fun k => { k with pauses := k.pauses ++ [e] })

/-- A MAC control frame: counted, acted on by MODE, and consumed. -/
def macControlRx (p end_ : Nat) (e : Eth) (s : State) : State :=
  let op := beAt e.bytes e.l3 2
  let mode := s.rd (R.MAC_PAUSE_CFG_MODE p)
  if op = 0x0001 then
    let n := beAt e.bytes (e.l3 + 2) 2
    let s := mac p 6 1 s
    if mode = 1 then notePause p end_ ((List.range 8).map (fun q => (q, n))) [n] s else s
  else if op = 0x0101 then
    let en := beAt e.bytes (e.l3 + 2) 2
    let each := ((List.range 8).filter (fun k => bit en k)).map (fun k => (k, beAt e.bytes (e.l3 + 4 + 2 * k) 2))
    let map_ := s.rd (R.MAC_PFC_MAP_Q p)
    let s := mac p 7 1 s
    if mode = 2 then notePause p end_ (each.map (fun k => (bits map_ (3 * k.1 + 2) (3 * k.1), k.2))) (each.map (·.2)) s else s
  else mac p 17 1 s

/-! ### Port answering (R252, R253) -/

/-- An ARP or neighbour discovery frame the port does not answer. -/
def ndToHost (a : Arrived) (always : Bool) (s : State) : State :=
  let s := mac a.port 57 1 s
  if always || s.on (R.MAC_RX_CFG_ND_HOST a.port) then hostward a 0 s else s

def addrConflict (p : Nat) (s : State) : State := s.raise (Evt.mac p) 256

/-- A frame of ARP (R252). -/
def arpRx (a : Arrived) (s : State) : State :=
  let b := a.e.bytes
  let o := a.e.l3
  let p := a.port
  let answered := slice b o 8 = [0, 1, 8, 0, 6, 4, 0, 1] && (s.svcFind p a.point false (slice b (o + 24) 4) a.e.tagKey).isSome
  let conflict := s.svcHolds p a.point false (slice b (o + 14) 4)
  let s := if answered then enqueue p 6 { kind := .answer, bytes := arpReply a.e (s.macAddr p), rx := some a.rx } (mac p 55 1 s) else s
  if conflict then ndToHost a true (addrConflict p s) else if answered then s else ndToHost a false s

/-- Neighbour discovery (R253). -/
def ndRx (a : Arrived) (s : State) : State :=
  let b := a.e.bytes
  let ip := a.ip
  let p := a.port
  let good := b.getD ip.l4 0 = 135 && ip.hop = 255 && b.getD (ip.l4 + 1) 0 = 0 && decide (24 ≤ ip.len) && ip.src.getD 0 0 ≠ 0xFF
    && onesSum (pseudo ip.src ip.dst 58 ip.len ++ slice b ip.l4 ip.len) = 0xFFFF
    && (s.svcFind p a.point true (slice b (ip.l4 + 8) 16) a.e.tagKey).isSome
  if good then
    let unicast := ip.src.any (· ≠ 0)
    let s := if unicast then s else addrConflict p s
    enqueue p 6 { kind := .answer, bytes := neighborAdv a.e ip (s.macAddr p) unicast, rx := some a.rx } (mac p 56 1 s)
  else ndToHost a false s

/-! ### Classification (R257, R258) -/

/-- A frame to UDP port 123 (R258). -/
def ntpRx (a : Arrived) (s : State) : State :=
  match s.ntpClass a with
  | .drop i => ntpStat a.die i s
  | .byAction h => ntpByAction a h s
  | .respond =>
    if s.on (R.NTP_CTL_EN a.die) then ntpRequest a (ntpStat a.die (if a.v6 then 1 else 0) s) else ntpByAction a true s
  | .nts => ntsRequest a (ntpStat a.die 18 s)

/-- One destination for each accepted frame (R257). -/
def classify (a : Arrived) (s : State) : State :=
  if a.e.etype = 0x0806 then arpRx a s
  else if a.e.etype = 0x88F7 then ptpRx a true s
  else
    match a.e.ip with
    | none => hostward a 7 s
    | some ip =>
      let icmp := a.e.bytes.getD ip.l4 0
      if ip.v6 && ip.proto = 58 && decide (133 ≤ icmp ∧ icmp ≤ 137) then ndRx a s
      else if ip.odd then hostward a 6 s
      else if (s.svcFind a.port a.point ip.v6 ip.dst a.e.tagKey).isNone then
        (if ip.dst ∈ s.ptpIps a.port then ptpRx a false s else hostward a 5 s)
      else if ip.proto ≠ 17 then hostward a 4 s
      else if a.dport = 319 ∨ a.dport = 320 then ptpRx a false s
      else if a.dport = 123 then ntpRx a s
      else hostward a 4 s

/-! ### A received frame -/

/-- Statistics of a frame that passes R233. -/
def countRxOk (p n : Nat) (e : Eth) (s : State) : State :=
  let s := mac p 1 1 (mac p 0 n s)
  let s := mac p (if e.dst = macBcast then 4 else if isGroup e.dst then 3 else 2) 1 s
  let s := mac p 5 (b01 (!e.tags.isEmpty)) s
  match e.ip with
  | some ip => mac p 59 (b01 (ip.v6 && ip.odd)) s
  | none => s

/-- Checks, filters and classifies a frame with its FCS. -/
def processFrame (p rx end_ : Nat) (codeErr : Bool) (bytes : List Nat) (item : RxItem) (s : State) : State :=
  let maxLen := max 64 (min 9216 (s.rd (R.MAC_RX_CFG_MAX_LEN p)))
  match rxCheck codeErr maxLen bytes with
  | some c => mac p c 1 s
  | none =>
    let b := bytes.take (bytes.length - 4)
    let e := Eth.parse b
    let s := countRxOk p bytes.length e s
    let a : Arrived := { port := p, rx := rx, item := { item with bytes := b }, e := e, ip := e.ip.getD {} }
    let promisc := s.on (R.MAC_RX_CFG_PROMISC p)
    if s.macAccepts p item.point e || (promisc && e.etype = 0x8808) then
      (if e.etype = 0x8808 then macControlRx p end_ e s else classify a s)
    else if promisc then hostward a 7 s
    else mac p 17 1 s

/-- A whole frame, as `o` has it, handed to classification; with RS-FEC a copy that fails its FCS check waits for the verdict (R232). -/
def frameIn (p end_ : Nat) (fecOut : Bool) (o : OpenFrame) (s : State) : State :=
  let rx := (s.port p).rxSeq
  let fec := fecOut && decide (2 ≤ s.rd (R.MAC_STAT_FEC_USED p))
  let failed := fec && !o.codeErr && !fcsOk o.bytes
  let reasm := decide (o.frags ≠ 0)
  let w : FecWait := { rx := rx, bytes := o.bytes, point := o.point, stamp := o.stamp, tsOk := o.tsOk, end_ := end_, failed := failed, reasm := reasm }
  let s := s.modPort p (fun k => { k with rxSeq := rx + 1, fec := if fec then k.fec ++ [w] else k.fec })
  if failed then s
  else processFrame p rx end_ o.codeErr o.bytes { point := o.point, stamp := o.stamp, tsOk := o.tsOk, reasm := reasm } s

/-- Octets of a port's receive buffer in use: frames whose verdict is out and the frame being reassembled (R235). -/
def State.rxHeld (s : State) (p : Nat) : Nat :=
  (s.port p).fec.foldl (fun a w => a + w.bytes.length) ((s.port p).asm.elim 0 (·.bytes.length))

/-- A reassembly error: what was open is dropped (R244). -/
def asmError (p : Nat) (s : State) : State := mac p 22 1 (s.modPort p (fun k => { k with asm := none }))

/-- An mPacket's frame or fragment as it opens, from its operands. -/
def openOf (p count : Nat) (f : RxFrame) (s : State) : OpenFrame :=
  { count := count, bytes := natBytes f.bytes, codeErr := f.codeErr, point := s.clk - f.back
    stamp := s.stampAt (s.tickBack f.back) (s.tRx p f.back), tsOk := s.timedAt p (s.clk - f.back) }

/-- The first fragment of a preemptable frame, or the whole of it (R244); one still open is a reassembly error. -/
def startRx (p count end_ : Nat) (f : RxFrame) (s : State) : State :=
  let s := if (s.port p).asm.isSome then asmError p s else s
  let o := openOf p count f s
  if mcrcOk [] o.bytes then
    mac p 23 1 (s.modPort p (fun k => { k with asm := some { o with bytes := o.bytes.take (o.bytes.length - 4), frags := 1 } }))
  else frameIn p end_ f.fecOut o s

/-- A later fragment (R244): the frame goes on, or is whole; an SMD-C with no open frame, one of another frame or out of sequence, or one whose
CRC is neither its mCRC nor the frame's FCS is a reassembly error (log entry 101). -/
def contRx (p count end_ : Nat) (f : RxFrame) (s : State) : State :=
  let s := mac p 23 1 s
  let b := natBytes f.bytes
  match (s.port p).asm with
  | none => asmError p s
  | some o =>
    let all : OpenFrame := { o with bytes := o.bytes ++ b, frags := o.frags + 1, codeErr := o.codeErr || f.codeErr }
    if o.count ≠ count ∨ fragCounts.getD ((o.frags - 1) % 4) 0 ≠ f.frag.toNat then asmError p s
    else if mcrcOk o.bytes b then
      s.modPort p (fun k => { k with asm := some { all with bytes := all.bytes.take (all.bytes.length - 4) } })
    else if fcsOk all.bytes || (f.fecOut && decide (2 ≤ s.rd (R.MAC_STAT_FEC_USED p))) || all.codeErr then
      frameIn p end_ f.fecOut all (mac p 21 1 (s.modPort p (fun k => { k with asm := none })))
    else asmError p s

/-- A verify or respond mPacket: a verify is answered while PRE_EN has the port run the procedure (R242, log entry 101). -/
def verifyRx (p : Nat) (f : RxFrame) (s : State) : State :=
  if natBytes f.bytes ≠ verifyBody ++ le 4 (mcrc verifyBody) then s
  else if f.smd.toNat = smdRespond then verifyResponse p s
  else if bit (s.port p).preCfg 0 then sendVerify p smdRespond s
  else s

/-- A fragment that finds no room in the receive buffer: its frame is dropped (R235). -/
def noRoomRx (p : Nat) (s : State) : State := mac p 18 1 (s.modPort p (fun k => { k with asm := none }))

/-- A frame or mPacket at a port, by its delimiter (R222, R226, R232-R235, R242, R244).  In a port that is not UP, one whose stamp point lies
before the exit from UP is the frame being received then, unless it is a later fragment of one cut off in reassembly; any other is not
received. -/
def frameRx (p : Nat) (f : RxFrame) (s : State) : State :=
  let s := settle p s
  let n := f.bytes.length
  let smd := f.smd.toNat
  let whole := s.nowPs + n * s.bytePs p - f.back * 1000 / 65536
  if !s.isUp p then
    if s.clk - f.back < (s.port p).outAt then
      (if (s.port p).cutAsm && smd ∈ smdConts then s.modPort p (fun k => { k with cutAsm := false }) else mac p 13 1 s)
    else if s.link p = 0 then s
    else mac p 62 1 (mac p 31 n s)
  else if smd = smdVerify ∨ smd = smdRespond then verifyRx p f s
  else
    let s := mac p 31 n (s.modPort p (fun k => { k with frameAt := s.clk }))
    match smdStarts.findIdx? (· = smd), smdConts.findIdx? (· = smd), s.on (R.MAC_STAT_PRE_ACTIVE p) with
    | some c, _, true => if s.rxHeld p + f.backlog + n ≤ 131072 then startRx p c whole f s else noRoomRx p s
    | none, some c, true => if s.rxHeld p + f.backlog + n ≤ 131072 then contRx p c whole f s else noRoomRx p s
    | _, _, _ =>
      if smd ≠ smdExpress then mac p 24 1 s
      else if s.rxHeld p + f.backlog + n ≤ 131072 then frameIn p whole f.fecOut (openOf p 0 f s) s
      else mac p 18 1 s

def execFrameRx (p : Fin 32) (f : RxFrame) : State → Res State := go (frameRx p.val f)

/-! ### The FEC verdict (R232) -/

/-- Whatever answers a received frame and has not committed is cancelled. -/
def cancelAnswers (p rx : Nat) (s : State) : State :=
  let keep (f : TxFrame) : Bool := f.rx ≠ some rx
  let job (j : NtsJob) : Bool := !(j.port = p && j.rx = rx)
  let s := setTxq p 6 ((s.txq p 6).filter keep) (setTxq p 7 ((s.txq p 7).filter keep) s)
  let s := s.modPort p (fun k => { k with ready := k.ready.filter keep, hold := k.hold.filter (fun h => keep h.2) })
  let s := s.modNts (p / 8) (fun k => { k with
    queue := k.queue.filter job, engines := k.engines.filter (fun e => e.2.all job) })
  (List.range 12).foldl (fun s e => parkIdle (p / 8) e s) (dispatchNts (p / 8) s)

/-- The verdict on the oldest frame it is out on. -/
def fecVerdict (p : Nat) (v : FecVerdict) (corr uncorr sym : Nat) (s : State) : State :=
  let s := mac p 27 sym (mac p 26 uncorr (mac p 25 corr (settle p s)))
  match (s.port p).fec with
  | [] => s
  | w :: rest =>
    let s := s.modPort p (fun k => { k with fec := rest })
    let item : RxItem := { point := w.point, stamp := w.stamp, tsOk := w.tsOk, reasm := w.reasm }
    match v with
    | .clean =>
      if w.failed then processFrame p w.rx w.end_ false w.bytes item s
      else
        match w.toHost with
        | some (c, e) => toHost p c e { item with bytes := w.bytes.take (w.bytes.length - 4) } s
        | none => s
    | .corrected b =>
      if w.answered then s
      else processFrame p w.rx w.end_ false (natBytes b) { item with redeliver := true } (mac p 28 1 (cancelAnswers p w.rx s))
    | .uncorrectable => if w.answered then s else mac p 13 1 (cancelAnswers p w.rx s)

def execFecVerdict (p : Fin 32) (v : FecVerdict) (corr uncorr sym : Nat) : State → Res State := go (fecVerdict p.val v corr uncorr sym)

/-! ### Statistics reads (R255) -/

/-- Where a block's counters are kept, and its die. -/
def statKey : StatBlock → Nat
  | .mac p => p.val * 64
  | .ntp n => 2048 + n.val * 32
  | .nts n => 2176 + n.val * 32
  | .ptp n => 2304 + n.val * 32
def statDie : StatBlock → Nat
  | .mac p => p.val / 8
  | .ntp n => n.val
  | .nts n => n.val
  | .ptp n => n.val
/-- BAR0 offset of a counter's low word. -/
def statAddr (b : StatBlock) (i : Nat) : Nat :=
  match b with
  | .mac p => 0x1001000 + p.val / 8 * 0x1000000 + p.val % 8 * 0x10000 + i * 8
  | .ntp n => 0x1100800 + n.val * 0x1000000 + i * 8
  | .nts n => 0x1200800 + n.val * 0x1000000 + i * 8
  | .ptp n => 0x1300C00 + n.val * 0x1000000 + i * 8
/-- Counters a block has. -/
def statSize : StatBlock → Nat
  | .mac _ => 64
  | _ => 32

/-- PF1 reads the low word of a 64-bit statistic (R255, R43). -/
def counterRead (b : StatBlock) (i : Nat) (s : State) : State :=
  if !s.dieAnswers (statDie b) then (refuseAccess 1 (statAddr b i) true s).emit (.readData 0xFFFFFFFF)
  else if statSize b ≤ i then s.emit (.readData 0)
  else
    let r := readStatLow (statKey b + i) (settleAll s)
    r.2.emit (.readData r.1)

def execCounterRead (b : StatBlock) (i : Fin 64) : State → Res State := go (counterRead b i.val)

end Sys2Proof.Machine
end

