-- ==== Sys2Proof/Machine/Interval.lean ====
section
/-! DEFINITION. Time-interval inputs (06): conversion, calibration, gates, the three channel modes and records. -/

namespace Sys2Proof.Machine

def State.chan (s : State) (c : Nat) : TimChan := IMap.get {} s.tim.chans c
def State.modChan (s : State) (c : Nat) (f : TimChan → TimChan) : State :=
  { s with tim := { s.tim with chans := IMap.upd {} s.tim.chans c f } }
def State.group (s : State) (g : Nat) : TimGroup := IMap.get {} s.tim.groups g
def State.modGroup (s : State) (g : Nat) (f : TimGroup → TimGroup) : State :=
  { s with tim := { s.tim with groups := IMap.upd {} s.tim.groups g f } }

/-- The group of a channel (R178): 8 is the internal one. -/
def groupOf (c : Nat) : Nat := if c < 64 then c / 8 else 8

/-- The channels of a group. -/
def groupChans (g : Nat) : List Nat := if g < 8 then (List.range 8).map (fun k => g * 8 + k) else (List.range 18).map (64 + ·)

/-- The unit serving a channel, and the spare of a group: at reset channel k of a group has unit k and the spare is the last. -/
def State.unitOf (s : State) (c : Nat) : Nat := (s.chan c).unit.getD (if c < 64 then c % 8 else c - 64)
def State.spareOf (s : State) (g : Nat) : Nat := (s.group g).spare.getD (if g < 8 then 8 else 18)

/-- MODE and EDGE in force: 3 is treated as 0. -/
def State.chMode (s : State) (c : Nat) : Nat := if s.rd (R.TIM_CH_CFG_MODE c) = 3 then 0 else s.rd (R.TIM_CH_CFG_MODE c)
def State.chEdge (s : State) (c : Nat) : Nat := if s.rd (R.TIM_CH_CFG_EDGE c) = 3 then 0 else s.rd (R.TIM_CH_CFG_EDGE c)

/-! ### Bin tables (R186) -/

/-- w(k) and p(k) of a table of hits, rounded to nearest. -/
def tableWidth (hits : List Nat) (k : Nat) : Nat := (rndNearest (mkRat (hits.getD k 0 : Nat) 16)).toNat
def tableCentre (hits : List Nat) (k : Nat) : Nat :=
  (rndNearest (mkRat (2 * (hits.take k).foldl (· + ·) 0 + hits.getD k 0 : Nat) 32)).toNat

/-- p(b) and w(b) of a unit: a unit with no accepted table has positions of its own. -/
def State.binCentre (s : State) (g u b : Nat) : Nat :=
  match IMap.get [] (s.group g).tables u with
  | [] => Config.binCentre g u b
  | h => tableCentre h b
def State.binWidth (s : State) (g u b : Nat) : Nat :=
  match IMap.get [] (s.group g).tables u with
  | [] => Config.binWidth g u b
  | h => tableWidth h b

/-! ### Conversion (R181-R183) -/

/-- The first coarse period that starts at or after the current tick, by its number. -/
def State.coarseNow (s : State) : Nat := ceilDiv (s.tick.count * 25) 8

/-- The tick in which a coarse period starts, or the one before it where the phase of the clocks carries it over. -/
def tickOfCoarse (c : Nat) : Nat := c * 8 / 25

/-- A position c + p in ticks. -/
def ticksOfPos (c p : Nat) : Rat := mkRat ((c * 65536 + p + Config.coarsePhase) * 8 : Nat) (25 * 65536)

/-- The coarse period that holds a place in ticks. -/
def coarseAt (ticks : Rat) : Nat := (ticks * mkRat 25 8 - mkRat (Config.coarsePhase : Nat) 65536).floor.toNat

/-- Whether the pending step of TS0 acts before a tick begins (R182). -/
def State.stepBefore (s : State) (j : Nat) : Bool := match s.stepAhead .ts0 with
  | none => false
  | some m => decide (s.tick.count + m ≤ j)

/-- TS0's counter as tick `j` begins, looking on from where the domain stands, with the step that acts before it, or back to where it stood
(R181, R182). -/
def State.bankIn (s : State) (j : Nat) : TickBank :=
  let k := (s.stretchAt j).bank0
  match s.stepBefore j, s.stepAhead .ts0 with
  | true, some m => (k.stepped m).run (j - s.tick.count - m)
  | _, _ => k.run (j - s.tick.count)

/-- TS0 in 2^-48 ns at a position in ticks: linear across each tick (R181). -/
def State.convert (s : State) (pos : Rat) : Rat :=
  let k := s.bankIn pos.floor.toNat
  (k.ts : Rat) + (pos - pos.floor) * ((k.incr : Rat) + (k.slew.give 1 : Rat))

/-- The place in ticks at which a counter that reads as `k` at tick `count` reaches a reading (2^-16 ns). -/
def TickBank.reaches (k : TickBank) (count : Nat) (at_ : Rat) : Rat :=
  let m := k.ticksTo at_.floor.toNat - 1
  let j := k.run m
  (count + m : Nat) + (at_ * 2 ^ 32 - (j.ts : Rat)) / ((j.incr : Rat) + (j.slew.give 1 : Rat))

/-- The same with a step to come after `m` ticks: a reading it passes is reached at the step. -/
def TickBank.reachesOver (k : TickBank) (count : Nat) (step : Option Nat) (t : Nat) : Rat :=
  match step with
  | none => k.reaches count t
  | some m =>
    if t * 2 ^ 32 ≤ (k.run m).ts then k.reaches count t
    else if t * 2 ^ 32 ≤ (k.stepped m).ts then ((count + m : Nat) : Rat)
    else (k.stepped m).reaches (count + m) t

/-- The coarse period in which TS0 reaches a reading, and the one in which the clock of durations does. -/
def State.coarseOfTs0 (s : State) (t : Nat) : Nat := coarseAt (s.tick.bank0.reachesOver s.tick.count (s.stepAhead .ts0) t)
def State.coarseOfClk (s : State) (t : Nat) : Nat :=
  let k := s.tick.bank0
  coarseAt ({ k with ts := k.ran, jumped := 0, stepDelta := 0 }.reachesOver s.tick.count (s.stepAhead .ts0) t)

/-- The edge a pair holds on a channel, as its start or as the stop of the channel before it. -/
def State.heldEdge (s : State) (ch : Nat) : Option Edge :=
  match (s.chan ch).open_, (s.chan (ch - 1)).open_ with
  | some (false, e), _ => some e
  | _, some (true, e) => if ch % 2 = 1 then some e else none
  | _, _ => none

/-- The unit that serves a channel in a coarse period and the CAL_SEQ of its table (R188, R189): a new unit serves from its own period
on, and a pair takes both its edges on one channel from one unit. -/
def State.servedBy (s : State) (ch c : Nat) : Nat × Nat :=
  let k := s.chan ch
  match s.heldEdge ch with
  | some e => (e.unit, e.seq)
  | none => if c < k.unitFrom then (k.oldUnit, (k.calSeq + 65535) % 65536) else (s.unitOf ch, k.calSeq)

/-- Captures an edge of a channel, external or internal, at coarse period `c` in bin `b` (R178, R181, R183, R188). -/
def State.capture (s : State) (ch c b : Nat) (fall : Bool) : Edge :=
  let g := groupOf ch
  let u := s.servedBy ch c
  let p := s.binCentre g u.1 b
  let dly : Rat := (Config.chanDelay ch : Rat) * 2 ^ 32
    + (if ch < 64 then mkRat (s.rdSigned (R.TIM_CH_DLY_DLY ch) * 2 ^ 48) 1000 else 0)
  let pos := ticksOfPos c p
  { c := c, pos := p, width := s.binWidth g u.1 b, bin := b, unit := u.1, seq := u.2, t := (s.convert pos - dly).floor, fall := fall
    steps := s.tim.steps + b01 (s.stepBefore pos.floor.toNat) }

/-- The place of an edge on the interval clock, in 1/65,536 coarse period. -/
def Edge.place (e : Edge) : Nat := e.c * 65536 + e.pos

/-- An edge has come on a channel's input (R188). -/
def noteEdge (ch : Nat) (e : Edge) (s : State) : State := s.modChan ch (fun k => { k with lastEdge := some e.place })

/-- An edge's time as a Keeper time in 2^-16 ns: truncated (R47, R181). -/
def Edge.time (e : Edge) : Nat := (e.t / 2 ^ 32).toNat

/-! ### Records (R200-R202) -/

/-- The record ring size. -/
def timRing : Nat := 16384

/-- Offers a record to a group ring: written with its SEQ and any GAP, or discarded when the ring is full. -/
def offerRecord (g type b1 flags flags2 calSeq t : Nat) (mid tail : List Nat) (s : State) : State :=
  let k := s.group g
  let s := s.count 0x030 g 1
  let wr := s.rd (R.TIM_GRP_WR_WR g)
  if (wr + 1) % timRing = s.rd (R.TIM_GRP_RD_RD g) then
    let s := s.modGroup g (fun k => { k with seq := (k.seq + 1) % 65536, gap := true })
    let s := s.wr (R.TIM_GRP_LOST_LOST g) (satNat 32 (s.rd (R.TIM_GRP_LOST_LOST g) + 1))
    (s.count 0x031 g 1).raise Evt.tim 1
  else
    let r := [type, b1, flags + b01 k.gap, flags2] ++ le 2 k.seq ++ le 2 calSeq ++ ktBytes t ++ mid ++ tail
    let s := { s with tim := { s.tim with rings := IMap.put [] s.tim.rings (g * timRing + wr) r } }
    (s.modGroup g (fun k => { k with seq := (k.seq + 1) % 65536, gap := false })).wr (R.TIM_GRP_WR_WR g) (wr + 1)

/-- The flags a channel's next record carries, beside GAP: DEAD, STEPPED, CAL_CHG, FALL; the record is formed with the table of CAL_SEQ
`seq`, after `steps` steps of TS0 (R182, R188, R200). -/
def State.chanFlags (s : State) (c seq steps : Nat) (fall : Bool) : Nat :=
  let k := s.chan c
  2 * b01 k.dead + 4 * b01 (k.stepSeen ≠ steps) + 8 * b01 (k.calChg && seq = k.calSeq) + 16 * b01 fall

/-- A record of a channel has been formed: what waited for it is carried. -/
def clearFlags (c seq steps : Nat) (s : State) : State :=
  s.modChan c (fun k => { k with dead := false, calChg := k.calChg && seq ≠ k.calSeq, stepSeen := steps })

/-- Counts an edge of channel `ch` not stamped or not used, for the next record of channel `c` (R180, R196). -/
def deadEdge (ch c : Nat) (s : State) : State :=
  let s := s.wr (R.TIM_CH_DEAD_DEAD ch) (satNat 32 (s.rd (R.TIM_CH_DEAD_DEAD ch) + 1))
  (s.modChan c (fun k => { k with dead := true })).raise Evt.tim 2

/-- The coarse period at which a group writes a record offered in period `c`: one in 4 ns at most (R180). -/
def State.recordAt (s : State) (g c : Nat) : Nat := max (s.group g).busyC c + 10

/-- A record takes its place in a group's row (R180). -/
def recordSlot (g c : Nat) (s : State) : State := s.modGroup g (fun q => { q with busyC := s.recordAt g c })

/-- FLAGS2 of a channel's record. -/
def State.flags2 (s : State) (c : Nat) (isOpen onStop : Bool) : Nat :=
  b01 isOpen + 2 * b01 onStop + 4 * s.rd (R.TIM_CH_CFG_GATED c)

/-! ### Calibration (R185-R190) -/

/-- Bit of a group in TIM_STAT. -/
def setGroupBit (f : Field) (g : Nat) (v : Bool) (s : State) : State :=
  let m := s.rd f
  s.wr f (m - (if bit m g then 2 ^ g else 0) + (if v then 2 ^ g else 0))

/-- A CAL_NOW rotation ends in a group; the last one sets CAL_DONE. -/
def endRotation (g : Nat) (s : State) : State :=
  if bit (s.rd R.TIM_STAT_CAL_BUSY) g then
    let s := setGroupBit R.TIM_STAT_CAL_BUSY g false (s.modGroup g (fun k => { k with rotLeft := 0 }))
    if s.rd R.TIM_STAT_CAL_BUSY = 0 then (s.lo R.TIM_CTL_CAL_NOW).raise Evt.tim 64 else s
  else s

/-- A shadow table is accepted when every width lies between 256 and 2,560 (R187). -/
def tableOk (hits : List Nat) : Bool := hits.length = 64 && hits.all (fun n => decide (4096 ≤ n) && decide (n ≤ 40960))

/-- A pass on a group's spare ends (R186, R187); one that is rejected leaves nothing to hand over, and a handover that waited is off. -/
def calPassEnd (g : Nat) (hits : List Nat) (s : State) : State :=
  if bit (s.rd R.TIM_STAT_NO_SPARE) g || (s.group g).nap then s
  else if tableOk hits then
    let u := s.spareOf g
    s.modGroup g (fun k => { k with tables := IMap.put [] k.tables u hits, fresh := true, fails := 0 })
  else
    let s := (s.modGroup g (fun k => { k with fails := k.fails + 1, fresh := false })).raise Evt.tim 4
    let s := (List.range 8).foldl (fun s k => if g < 8 then s.lo (R.TIM_CH_STAT_HO_WAIT (g * 8 + k)) else s) s
    if (s.group g).fails ≥ 3 then
      let s := s.modGroup g (fun k => { k with retired := k.retired + 1, fails := 0 })
      let s := if g < 8 then s.wr (R.TIM_GRP_STAT_RETIRED g) (s.group g).retired else s
      endRotation g ((setGroupBit R.TIM_STAT_NO_SPARE g true s).raise Evt.tim 8)
    else s

def execCalPassEnd (g : Fin 9) (hits : List Nat) : State → Res State := go (calPassEnd g.val hits)

/-- The channel of a group with the oldest table, ties to the lower number (R188). -/
def State.oldest (s : State) (g : Nat) : Option Nat :=
  (groupChans g).foldl (fun best c =>
    match best with
    | none => some c
    | some d =>
      match (s.chan c).calAt, (s.chan d).calAt with
      | none, some _ => some c
      | some a, some b => if a < b then some c else some d
      | _, none => some d) none

/-- Largest |w - 1,024| of a table. -/
def dnl (hits : List Nat) : Nat := (List.range 64).foldl (fun a k => max a ((tableWidth hits k : Int) - 1024).natAbs) 0

/-- The coarse period from which a unit connected now serves a channel: the first that starts 3.2 ns or more after the last edge on its
input (R188). -/
def State.servesFrom (s : State) (c : Nat) : Nat := match (s.chan c).lastEdge with
  | some p => max s.coarseNow (ceilDiv p 65536 + 8)
  | none => s.coarseNow

/-- Hands the spare to a channel (R188). -/
def handTo (g c : Nat) (s : State) : State :=
  let old := s.unitOf c
  let u := s.spareOf g
  let k := s.chan c
  let from_ := s.servesFrom c
  let s := s.modChan c (fun k =>
    { k with unit := some u, unitFrom := from_, oldUnit := old, calAt := some s.clk, calSeq := (k.calSeq + 1) % 65536, calChg := true })
  let s := s.modGroup g (fun q =>
    { q with spare := some old, fresh := false, handAt := s.clk, rotLeft := q.rotLeft - 1 })
  let s := if c < 64 then
      let s := ((s.wr (R.TIM_CH_STAT_UNIT c) u).wr (R.TIM_CH_STAT_CAL_SEQ c) (k.calSeq + 1)).lo (R.TIM_CH_STAT_HO_WAIT c)
      (s.wr (R.TIM_CH_CAL_DNL c) (dnl (IMap.get [] (s.group g).tables u))).wr (R.TIM_GRP_STAT_SPARE g) old
    else s
  if (s.group g).rotLeft = 0 then endRotation g s else s

/-- Whether an open pair holds a channel back from a handover (R189). -/
def State.pairHolds (s : State) (c : Nat) : Bool :=
  c < 64 && ((s.chan c).open_.isSome || (c % 2 = 1 && s.rd (R.TIM_CH_STAT_STATE c) = 3 && (s.chan (c - 1)).open_.isSome))

/-- A group hands over its freshly calibrated spare: at its step, or at once in a CAL_NOW rotation (R188-R190). -/
def calHandover (g : Nat) (s : State) : State :=
  let busy := bit (s.rd R.TIM_STAT_CAL_BUSY) g
  let k := s.group g
  if bit (s.rd R.TIM_STAT_NO_SPARE) g || k.nap || !k.fresh || (!busy && s.rd R.TIM_CTL_ROT_STEP = 0)
      || (groupChans g).any (fun c => c < 64 && s.on (R.TIM_CH_STAT_HO_WAIT c)) then s
  else
    let s := if busy then s else s.waitClk (k.handAt + sec16 (s.rd R.TIM_CTL_ROT_STEP))
    match s.oldest g with
    | some c => if s.pairHolds c then s.hi (R.TIM_CH_STAT_HO_WAIT c) else handTo g c s
    | none => s

def execCalHandover (g : Fin 9) : State → Res State := go (calHandover g.val)

/-- A pair has closed: a handover that waited takes place, while the group has its fresh spare (R187, R189). -/
def lateHandover (c : Nat) (s : State) : State :=
  [c, c + 1].foldl (fun s d =>
    if d < 64 ∧ s.on (R.TIM_CH_STAT_HO_WAIT d) = true ∧ s.pairHolds d = false ∧ (s.group (groupOf d)).fresh = true
        ∧ bit (s.rd R.TIM_STAT_NO_SPARE) (groupOf d) = false then handTo (groupOf d) d s else s) s

/-- A write of TIM_CTL: CAL_NOW starts one full rotation in every group that has a spare (R190). -/
def writeTimCtl (w : Nat) (s : State) : State :=
  let s := s.storeReg false Reg.TIM_CTL w
  if R.TIM_CTL_CAL_NOW.of w = 1 ∧ s.rd R.TIM_STAT_CAL_BUSY = 0 then
    let s := (List.range 9).foldl (fun s g =>
      if bit (s.rd R.TIM_STAT_NO_SPARE) g then s
      else setGroupBit R.TIM_STAT_CAL_BUSY g true (s.modGroup g (fun k => { k with rotLeft := (groupChans g).length }))) s
    if s.rd R.TIM_STAT_CAL_BUSY = 0 then s.raise Evt.tim 64 else s.hi R.TIM_CTL_CAL_NOW
  else s

def execCalNow (w : Word) : State → Res State := go (writeTimCtl (R.TIM_CTL_CAL_NOW.setIn w.toNat))

/-! ### Arming (R192, R195, R196, R199) -/

/-- Refuses an ARM or a configuration write. -/
def refuseCh (c : Nat) (s : State) : State := (s.hi (R.TIM_CH_STAT_CFG_ERR c)).raise Evt.tim 32

/-- A channel's state: 0 OFF, 1 ARMED, 2 OPEN, 3 PARTNER. -/
def State.chState (s : State) (c : Nat) : Nat := s.rd (R.TIM_CH_STAT_STATE c)

/-- Whether a channel is paired with the next one (R195). -/
def State.paired (s : State) (c : Nat) : Bool := s.chMode c = 1 && !s.on (R.TIM_CH_CFG_STOP_SELF c)

/-- GATE_MODE of a group. -/
def State.gateMode (s : State) (g : Nat) : Nat := s.rd (R.TIM_GRP_CFG_GATE_MODE g)

/-- A window gate without a length, or with an opening that is no time, refuses gated channels (R192). -/
def State.windowDenied (s : State) (g : Nat) : Bool :=
  s.gateMode g = 3 && (s.rd (R.TIM_GRP_GLEN_LEN g) = 0 || decide (1000000000 ≤ s.rd (R.TIM_GRP_GT_NS_NS g)))

/-- The conditions that refuse ARM (R192, R195): among them that the channel is a paired stop. -/
def State.armDenied (s : State) (c : Nat) : Bool :=
  let g := groupOf c
  s.chState c = 3 || (s.paired c && (c % 2 = 1 || s.chState (c + 1) ≠ 0 || s.on (R.TIM_CH_STAT_ASSIGNED (c + 1))))
    || (s.on (R.TIM_CH_CFG_GATED c) && s.windowDenied g)

/-- The window's opening and closing in TS0 time. -/
def State.windowFrom (s : State) (g : Nat) : Nat :=
  sec16 (s.rd (R.TIM_GRP_GT_SEC_LO_SEC g) + s.rd (R.TIM_GRP_GT_SEC_HI_SEC g) * 2 ^ 32) + ns16 (s.rd (R.TIM_GRP_GT_NS_NS g))
def State.windowTo (s : State) (g : Nat) : Nat := s.windowFrom g + us16 (s.rd (R.TIM_GRP_GLEN_LEN g))

/-- Whether a group has another gated channel armed: a stop's own GATED is ignored (R195). -/
def State.gatedArmed (s : State) (g c : Nat) : Bool :=
  (groupChans g).any (fun d => d ≠ c && (s.chState d = 1 || s.chState d = 2) && s.on (R.TIM_CH_CFG_GATED d))

/-- Opens a group gate at coarse period `c`: gated counts begin, and an edge gate's LEN runs (R18, R192). -/
def openGate (g c : Nat) (s : State) : State :=
  let t := (s.convert (ticksOfPos c 0) / 2 ^ 32).floor.toNat
  let s := ((s.hi (R.TIM_GRP_STAT_GATE_OPEN g)).lo (R.TIM_GRP_STAT_WAITING g)).modGroup g (fun k =>
    { k with gateC := c, gateT := t, gateUsed := true
             endAt := if s.gateMode g = 2 ∧ s.rd (R.TIM_GRP_GLEN_LEN g) ≠ 0
                      then some (s.clkOf t + us16 (s.rd (R.TIM_GRP_GLEN_LEN g))) else none })
  (groupChans g).foldl (fun s d =>
    if s.chState d ≠ 0 ∧ s.chMode d = 2 ∧ s.on (R.TIM_CH_CFG_GATED d) = true then
      s.modChan d (fun k => { k with count := 0, countAt := some (t, c) }) else s) s

/-- The first gated channel of a group is armed: an edge gate may open again; a window waits, opens at once or never (R192). -/
def armGate (g : Nat) (s : State) : State :=
  let s := s.modGroup g (fun k => { k with gateUsed := false })
  if s.gateMode g = 3 ∧ s.on (R.TIM_GRP_STAT_GATE_OPEN g) = false then
    if s.ts0 < s.windowFrom g then s.hi (R.TIM_GRP_STAT_WAITING g)
    else if s.ts0 < s.windowTo g then openGate g s.coarseNow s
    else s.lo (R.TIM_GRP_STAT_WAITING g)
  else s

/-- Arms a channel. -/
def armNow (c : Nat) (s : State) : State :=
  if s.armDenied c then refuseCh c ((s.lo (R.TIM_CH_CTL_ARM c)).modChan c (fun k => { k with pendArm := false }))
  else
    let g := groupOf c
    let s := if s.on (R.TIM_CH_CFG_GATED c) && !s.gatedArmed g c then armGate g s else s
    let s := ((s.hi (R.TIM_CH_CTL_ARM c)).wr (R.TIM_CH_STAT_STATE c) 1).lo (R.TIM_CH_STAT_CFG_ERR c)
    let s := if s.paired c then s.wr (R.TIM_CH_STAT_STATE (c + 1)) 3 else s
    let gated := s.on (R.TIM_CH_CFG_GATED c) && s.on (R.TIM_GRP_STAT_GATE_OPEN g)
    s.modChan c (fun k =>
      { k with selected := 0, lastPos := none, open_ := none, count := 0, pendArm := false
               countAt := if gated then some ((s.group g).gateT, (s.group g).gateC) else none })

/-- A window waits no longer than a gated channel of its group is armed (R192). -/
def endWait (g c : Nat) (s : State) : State := if s.gatedArmed g c then s else s.lo (R.TIM_GRP_STAT_WAITING g)

/-- Disarms a channel: an open pair is discarded (R196). -/
def disarmCh (c : Nat) (s : State) : State :=
  let s := if s.paired c ∧ s.chState c ≠ 0 then s.wr (R.TIM_CH_STAT_STATE (c + 1)) 0 else s
  let s := endWait (groupOf c) c ((s.lo (R.TIM_CH_CTL_ARM c)).wr (R.TIM_CH_STAT_STATE c) 0)
  lateHandover c (s.modChan c (fun k => { k with open_ := none, pendArm := false }))

/-- A write of TIM_CH_CTL (R195, R199, R217). -/
def writeChCtl (c w : Nat) (s : State) : State :=
  if s.on (R.TIM_CH_STAT_ASSIGNED c) || s.chState c = 3 then refuseCh c s
  else if (R.TIM_CH_CTL_ARM c).of w = 1 then
    if s.chState c ≠ 0 then s.lo (R.TIM_CH_STAT_CFG_ERR c)
    else if (s.group (groupOf c)).nap then s.modChan c (fun k => { k with pendArm := true })
    else armNow c s
  else (disarmCh c s).lo (R.TIM_CH_STAT_CFG_ERR c)

def execChannelArm (c : Fin 64) (w : Word) : State → Res State :=
  go (writeChCtl c.val ((R.TIM_CH_CTL_ARM c.val).setIn w.toNat))

def execChannelDisarm (c : Fin 64) (w : Word) : State → Res State :=
  go (writeChCtl c.val ((R.TIM_CH_CTL_ARM c.val).clearIn w.toNat))

/-- A write of TIM_CH_CFG: discarded on an armed or assigned channel (R199). -/
def writeTimChCfg (c w : Nat) (s : State) : State :=
  if s.on (R.TIM_CH_STAT_ASSIGNED c) || s.chState c = 1 || s.chState c = 2 then refuseCh c s
  else (s.storeReg false (Reg.TIM_CH_CFG c) w).lo (R.TIM_CH_STAT_CFG_ERR c)

/-- Whether a channel can be assigned to a slot (R81): not armed in another mode, not assigned already. -/
def State.assignable (s : State) (c : Nat) : Bool :=
  !s.on (R.TIM_CH_STAT_ASSIGNED c) && (s.chState c = 0 || (s.chState c = 1 && s.chMode c = 0))

/-- Arms a channel through a slot: stamp mode, rising edges, PRESCALE 0, GATED 0 (R199); in a napping group once it has woken (R217). -/
def assignChan (c : Nat) (s : State) : State :=
  let s := (((s.lo (R.TIM_CH_CFG_MODE c)).lo (R.TIM_CH_CFG_EDGE c)).lo (R.TIM_CH_CFG_PRESCALE c)).lo (R.TIM_CH_CFG_GATED c)
  let s := endWait (groupOf c) c s
  let s := s.hi (R.TIM_CH_STAT_ASSIGNED c)
  if (s.group (groupOf c)).nap then s.modChan c (fun k => { k with pendArm := true }) else armNow c s

/-- Frees a channel from its slot. -/
def unassignChan (c : Nat) (s : State) : State := (disarmCh c s).lo (R.TIM_CH_STAT_ASSIGNED c)

/-- The slot a channel is assigned to. -/
def State.slotOfChan (s : State) (c : Nat) : Option Nat :=
  if s.on (R.TIM_CH_STAT_ASSIGNED c) then
    (slotIds.filter (fun i => decide (8 ≤ i) && s.slotEn i)).find? (fun i => s.rd (R.ENS_SLOT_CFG_TI_CH i) = c)
  else none

/-! ### The three modes (R180, R194, R196-R198) -/

/-- An edge that falls within the dead time of its channel or finds the channel's FIFO full is not stamped (R180). -/
def State.unstamped (s : State) (ch : Nat) (e : Edge) : Bool :=
  (match (s.chan ch).lastPos with
    | some p => decide (e.place < p + 8 * 65536)
    | none => false)
  || decide (64 ≤ ((s.chan ch).fifo.filter (fun t => decide (e.c < t))).length)

/-- A stamped edge: the dead time runs from it (R180). -/
def noteStamp (ch : Nat) (e : Edge) (s : State) : State := s.modChan ch (fun k => { k with lastPos := some e.place })

/-- A record of channels' edges is written; until then their FIFOs hold an edge (R180). -/
def queueRecord (chs : List Nat) (g c : Nat) (s : State) : State :=
  let at_ := s.recordAt g c
  chs.foldl (fun s d => s.modChan d (fun k => { k with fifo := k.fifo.filter (fun t => decide (c < t)) ++ [at_] })) (recordSlot g c s)

/-- Stamps an edge: dead time and FIFO permitting, a record, and a sample where the channel is assigned (R180, R184, R199). -/
def stampEdge (c : Nat) (e : Edge) (s : State) : State :=
  let g := groupOf c
  if s.unstamped c e then deadEdge c c s
  else
    let s := noteStamp c e (queueRecord [c] g e.c s)
    let s := offerRecord g 1 c (s.chanFlags c e.seq e.steps e.fall) (s.flags2 c false false) e.seq e.time
      [e.bin, e.unit, 0, 0, 0, 0, 0, 0] (le 4 e.c) s
    let s := clearFlags c e.seq e.steps s
    match s.slotOfChan c with
    | some i => deliver i (s.stampOf e.time) (nearestSecond e.time) 0 false s
    | none => s

/-- An edge in stamp mode: PRESCALE keeps one selected edge in 2^n, the first one first (R179). -/
def stampMode (c : Nat) (e : Edge) (s : State) : State :=
  let n := (s.chan c).selected
  let s := s.modChan c (fun k => { k with selected := k.selected + 1 })
  if n % 2 ^ s.rd (R.TIM_CH_CFG_PRESCALE c) = 0 then stampEdge c e s else s

/-- Writes the record of a closed pair and goes on by CONT (R196, R197). -/
def closePair (c : Nat) (start stop : Edge) (s : State) : State :=
  let g := groupOf c
  let s := queueRecord (if s.on (R.TIM_CH_CFG_STOP_SELF c) then [c] else [c, c + 1]) g (max start.c stop.c) s
  let v := (stop.t - start.t) / 2 ^ 32
  let pd := ((start.pos : Int) - (stop.pos : Int)).natAbs
  let sub := start.c = stop.c && decide (2 * pd < start.width + stop.width)
  let steps := max start.steps stop.steps
  let f := s.chanFlags c start.seq steps start.fall + 32 * b01 (decide (v < 0)) + 64 * b01 sub
  let s := offerRecord g 2 c f (s.flags2 c false false) start.seq start.time
    (le 8 (ofSigned 64 v)) (le 4 (ofSigned 32 ((stop.c : Int) - start.c))) s
  let s := (clearFlags c start.seq steps s).modChan c (fun k => { k with open_ := none })
  if s.on (R.TIM_CH_CFG_CONT c) then lateHandover c (s.wr (R.TIM_CH_STAT_STATE c) 1) else disarmCh c s

/-- Closes a pair that holds one edge (R198): with OPEN, and OVF where it ran out of time. -/
def closeOpen (c : Nat) (ovf : Bool) (s : State) : State :=
  match (s.chan c).open_ with
  | none => s
  | some (onStop, e) =>
    let seq := if onStop then (s.chan c).calSeq else e.seq
    let f := s.chanFlags c seq s.tim.steps e.fall + 128 * b01 ovf
    let s := offerRecord (groupOf c) 2 c f (s.flags2 c true onStop) seq e.time
      (le 8 (Config.openValue c e.time).toNat) (le 4 (Config.openPeriods c e.time).toNat) (recordSlot (groupOf c) s.coarseNow s)
    let s := (clearFlags c seq s.tim.steps s).modChan c (fun k => { k with open_ := none })
    let s := if s.on (R.TIM_CH_CFG_CONT c) then lateHandover c (s.wr (R.TIM_CH_STAT_STATE c) 1) else disarmCh c s
    if ovf then s.raise Evt.tim 16 else s

/-- An edge of a pair, on the start channel or on the stop (R180, R195, R196). -/
def pairEdge (c : Nat) (onStop : Bool) (e : Edge) (s : State) : State :=
  let ch := if onStop then c + 1 else c
  if s.unstamped ch e then deadEdge ch c s
  else
    match (s.chan c).open_ with
    | none =>
      ((noteStamp ch e s).modChan c (fun k => { k with open_ := some (onStop, e) })).wr (R.TIM_CH_STAT_STATE c) 2
    | some (first, e0) =>
      if s.on (R.TIM_CH_CFG_STOP_SELF c) then closePair c e0 e (noteStamp ch e s)
      else if first = onStop then deadEdge ch c s
      else if first then closePair c e e0 (noteStamp ch e s)
      else closePair c e0 e (noteStamp ch e s)

/-- A selected edge in count mode: it counts while a gate or a second is open, up to 2^48 - 1 (R194). -/
def countEdge (c : Nat) (s : State) : State :=
  if (s.chan c).countAt.isSome then s.modChan c (fun k => { k with count := k.count + 1 }) else s

/-- Whether an open gate has closed by its length or its window's end in a coarse period or before it (R192, R193). -/
def State.gateOver (s : State) (g c : Nat) : Bool :=
  (match (s.group g).endAt with
   | some e => decide (e ≤ s.clk) || decide (s.coarseOfClk e ≤ c)
   | none => false)
  || (s.gateMode g = 3 && (decide (s.windowTo g ≤ s.ts0) || decide (s.coarseOfTs0 (s.windowTo g) ≤ c)))

/-- Whether the channel that governs an edge selects it, and its gate is open (R179, R192, R193). -/
def State.edgeTaken (s : State) (gov c : Nat) (fall : Bool) : Bool :=
  let g := groupOf gov
  (match s.chEdge gov with
   | 0 => !fall
   | 1 => fall
   | _ => true)
  && (!s.on (R.TIM_CH_CFG_GATED gov)
      || (s.on (R.TIM_GRP_STAT_GATE_OPEN g) && decide ((s.group g).gateC ≤ c) && !s.gateOver g c))

/-- A window that opens in a coarse period or has opened before it is open for an edge in it (R193). -/
def windowOpens (gov c : Nat) (s : State) : State :=
  let g := groupOf gov
  let w := s.coarseOfTs0 (s.windowFrom g)
  if s.on (R.TIM_CH_CFG_GATED gov) = true ∧ s.gateMode g = 3 ∧ s.on (R.TIM_GRP_STAT_WAITING g) = true ∧ w ≤ c then openGate g w s else s

/-- Whether an edge follows the last one detected on its input by less than the minimum pulse width, 0.8 ns or two coarse periods (R180,
R495).  The later edge is then the one not detected (DESIGN CHOICE, log entry 105: R180 says of both that they are not). -/
def State.undetected (s : State) (ch : Nat) (e : Edge) : Bool := match (s.chan ch).lastEdge with
  | some p => decide (e.place < p + 2 * 65536)
  | none => false

/-- An edge on a TI channel (R179-R183).  Commands come in the order of their coarse periods, and those of TGg before a channel's edges of
the same period (DESIGN CHOICE, log entry 98), so that R193 counts the period of an opening as inside and that of a closing as outside. -/
def tiEdge (ch dc b : Nat) (fall : Bool) (s : State) : State :=
  let c := s.coarseNow + dc
  let stop := s.chState ch = 3
  let gov := if stop then ch - 1 else ch
  if s.chState ch ≠ 0 then
    let s := windowOpens gov c (s.waitTick (tickOfCoarse c))
    let e := s.capture ch c b fall
    if s.undetected ch e then s
    else
      let s := noteEdge ch e s
      if s.edgeTaken gov c fall then
        match s.chMode gov with
        | 0 => stampMode gov e s
        | 1 => pairEdge gov stop e s
        | _ => countEdge gov s
      else s
  else s

def execTiEdge (c : Fin 64) (dc : Nat) (bin : Fin 64) (fall : Bool) : State → Res State := go (tiEdge c.val dc bin.val fall)

/-- Writes a count record: gate-open time, 48-bit count, gate length in coarse periods (R194, R200). -/
def countRecord (c endC : Nat) (s : State) : State :=
  match (s.chan c).countAt with
  | none => s
  | some (t, c0) =>
    let n := (s.chan c).count
    let seq := (s.chan c).calSeq
    let f := s.chanFlags c seq s.tim.steps false + 128 * b01 (decide (2 ^ 48 ≤ n))
    clearFlags c seq s.tim.steps
      (offerRecord (groupOf c) 3 c f (s.flags2 c false false) 0 t (le 6 (satNat 48 n) ++ [0, 0]) (le 4 (endC - c0))
        (recordSlot (groupOf c) endC s))

/-- The whole second of TS0 that ends a channel's count next: one that began in the tick at hand has begun its own. -/
def State.chanSecond (s : State) (c : Nat) : Nat :=
  let t := match (s.chan c).countAt with
    | some (t, _) => if s.ts0 < t ∧ t ≤ s.ts0 + 2 * 81920 then t else s.ts0
    | none => s.ts0
  (t / sec16 1 + 1) * sec16 1

/-- A whole TS0 second on an ungated count channel (R194), in the coarse period in which TS0 reaches it: edges of that period and later ones
of its tick count in the new second. -/
def countSecond (c : Nat) (s : State) : State :=
  if s.chState c = 1 ∧ s.chMode c = 2 ∧ s.on (R.TIM_CH_CFG_GATED c) = false then
    let t := s.chanSecond c
    let w := s.coarseOfTs0 t
    let s := countRecord c w (s.waitTick (tickOfCoarse w))
    s.modChan c (fun k => { k with count := 0, countAt := some (t, w) })
  else s

def execCountSecond (c : Fin 64) : State → Res State := go (countSecond c.val)

/-- A pair that has been open for 2^32 coarse periods (R198). -/
def pairOverflow (c : Nat) (s : State) : State :=
  match (s.chan c).open_ with
  | some (_, e) => closeOpen c true (s.waitTick (tickOfCoarse (e.c + 2 ^ 32)))
  | none => s

def execPairOverflow (c : Fin 64) : State → Res State := go (pairOverflow c.val)

/-! ### Gates (R192-R194, R198) -/

/-- Whether an edge of TGg to a level is one to its active level (R192). -/
def State.gateActive (s : State) (g : Nat) (high : Bool) : Bool := high ≠ s.on (R.TIM_GRP_CFG_POL g)

/-- A group gate opens: TGg going to its active level for a level or an edge gate, or the window's time. -/
def gateOpen (g dc : Nat) (high : Bool) (s : State) : State :=
  if s.on (R.TIM_GRP_STAT_GATE_OPEN g) then s
  else
    let c := s.coarseNow + dc
    match s.gateMode g, s.gateActive g high with
    | 1, true => openGate g c (s.waitTick (tickOfCoarse c))
    | 2, true => if (s.group g).gateUsed && !s.on (R.TIM_GRP_CFG_REARM g) then s else openGate g c (s.waitTick (tickOfCoarse c))
    | 3, _ =>
      if s.on (R.TIM_GRP_STAT_WAITING g) then
        let w := s.coarseOfTs0 (s.windowFrom g)
        openGate g w (s.waitTick (tickOfCoarse w))
      else s
    | _, _ => s

def execGateOpen (g : Fin 8) (dc : Nat) (high : Bool) : State → Res State := go (gateOpen g.val dc high)

/-- What the closing of a gate does to the group's gated channels. -/
def shutGate (g c : Nat) (s : State) : State :=
  let s := (s.lo (R.TIM_GRP_STAT_GATE_OPEN g)).modGroup g (fun k => { k with endAt := none })
  (groupChans g).foldl (fun s d =>
    if s.chState d ≠ 0 ∧ s.chState d ≠ 3 ∧ s.on (R.TIM_CH_CFG_GATED d) = true then
      if s.chMode d = 2 then (countRecord d c s).modChan d (fun k => { k with count := 0, countAt := none })
      else if s.chMode d = 1 then closeOpen d false s
      else s
    else s) s

/-- A group gate closes (R192): a level gate where TGg leaves its active level, an edge gate at its length or, with LEN = 0, at the next
active edge, a window at its end. -/
def gateClose (g dc : Nat) (high : Bool) (s : State) : State :=
  if s.on (R.TIM_GRP_STAT_GATE_OPEN g) then
    let c := s.coarseNow + dc
    if s.gateMode g = 3 then
      let w := s.coarseOfTs0 (s.windowTo g)
      shutGate g w (s.waitTick (tickOfCoarse w))
    else match (s.group g).endAt with
      | some e => shutGate g (s.coarseOfClk e) (s.waitTick (tickOfCoarse (s.coarseOfClk e)))
      | none => if s.gateActive g high = decide (s.gateMode g = 2) then shutGate g c (s.waitTick (tickOfCoarse c)) else s
  else s

def execGateClose (g : Fin 8) (dc : Nat) (high : Bool) : State → Res State := go (gateClose g.val dc high)

/-- A write of TIM_GRP_CFG.  A change of GATE_MODE ends the gate it finds open and a window's wait, and a window then waits or opens as at
the first ARM where gated channels are armed already (DESIGN CHOICE, log entry 98: no rule states what a gate in use comes to). -/
def writeGrpCfg (g w : Nat) (s : State) : State :=
  let was := s.gateMode g
  let now := (R.TIM_GRP_CFG_GATE_MODE g).of w
  let s := if was ≠ now ∧ s.on (R.TIM_GRP_STAT_GATE_OPEN g) = true then shutGate g s.coarseNow s else s
  let s := s.storeReg false (Reg.TIM_GRP_CFG g) w
  if was = now then s
  else
    let s := s.lo (R.TIM_GRP_STAT_WAITING g)
    if s.gatedArmed g 64 && !s.windowDenied g then armGate g s else s

/-! ### Read-only views -/

/-- AGE of a channel's table: seconds since it came into force. -/
def State.calAge (s : State) (c : Nat) : Nat :=
  match (s.chan c).calAt with
  | some t => satNat 16 ((s.clk - t) / sec16 1)
  | none => 0xFFFF

/-- TIM_BIN_DATA: the table in force of the channel in TIM_BIN_SEL; a channel with none reads 0. -/
def State.binData (s : State) : Nat :=
  let c := s.rd R.TIM_BIN_SEL_CH
  let b := s.rd R.TIM_BIN_SEL_BIN
  if c ≤ 81 then
    match IMap.get [] (s.group (groupOf c)).tables (s.unitOf c) with
    | [] => 0
    | h => tableCentre h b + 65536 * tableWidth h b
  else 0

/-- A word of a group's record window (R201). -/
def State.timWindow (s : State) (g off : Nat) : Nat :=
  leAt (IMap.get [] s.tim.rings (g * timRing + s.rd (R.TIM_GRP_WIN_WIN g) * 512 + off / 32)) (off % 32 / 4 * 4) 4

end Sys2Proof.Machine
end

