-- ==== Sys2Proof/Machine/RefModules.lean ====
section
/-! DEFINITION. Reference module ports A and B (05). -/

namespace Sys2Proof.Machine

/-- Port states (R157), numbered as RFM_STAT codes them. -/
inductive Rfm where
  | empty | reading | warming | ready | alarm | parked
deriving DecidableEq, Repr

def Rfm.code : Rfm → Nat
  | .empty => 0 | .reading => 1 | .warming => 2 | .ready => 3 | .alarm => 4 | .parked => 5

def Rfm.ofCode : Nat → Rfm
  | 1 => .reading | 2 => .warming | 3 => .ready | 4 => .alarm | 5 => .parked | _ => .empty

def State.rfmState (s : State) (p : Nat) : Rfm := Rfm.ofCode (s.rd (R.RFM_STAT_STATE p))
def State.rfmPort (s : State) (p : Nat) : RfmPort := IMap.get {} s.rfm p
def State.modRfm (s : State) (p : Nat) (f : RfmPort → RfmPort) : State := { s with rfm := IMap.upd {} s.rfm p f }

/-- Sets an event bit of a port (bits of port B stand 16 higher). -/
def rfmEvt (p bitNo : Nat) (s : State) : State := s.raise Evt.rfm (2 ^ (bitNo + 16 * p))

/-- CANDIDATE follows state and CLK_OK (R157, R160); the active anchor losing it makes the DPLL hold (R97). -/
def setCandidate (p : Nat) (s : State) : State :=
  let was := s.on (R.RFM_STAT_CANDIDATE p)
  let now := s.rfmState p = .ready ∧ s.on (R.RFM_STAT_CLK_OK p) = true
  if now then
    if was then s
    else
      let s := s.hi (R.RFM_STAT_CANDIDATE p)
      { s with ens := { s.ens with anchorSince := IMap.put 0 s.ens.anchorSince (p + 1) s.clk } }
  else
    let s := s.lo (R.RFM_STAT_CANDIDATE p)
    if was = true ∧ s.rd R.ENS_ANCHOR_ACTIVE = p + 1 then anchorHold s else s

/-- Moves a port to a state.  One that has its clock gated off and no measurement to come back to has CLK_OK 0 (R157, R160); in ALARM, which
CLK_OK 1 must be able to end (R158), the last measurement stands (DEDUCED, log entry 98). -/
def setRfm (p : Nat) (v : Rfm) (s : State) : State :=
  let s := s.wr (R.RFM_STAT_STATE p) v.code
  let s := if v = .empty ∨ v = .reading ∨ v = .parked then (s.lo (R.RFM_STAT_CLK_OK p)).modRfm p (fun k => { k with hz := none }) else s
  let s := s.wr (R.RFM_STAT_PARKED p) (if v = .parked then 1 else 0)
  setCandidate p s

/-! ### Identity record and hours copies (R162-R167) -/

/-- Whether a static record is valid (R164). -/
def recordValid (r : List Nat) : Bool :=
  r.length = 128 && r.take 4 = [0x53, 0x4D, 0x49, 0x52] && leAt r 4 1 = 1 && decide (1 ≤ leAt r 5 1)
    && decide (leAt r 5 1 ≤ 4) && leAt r 124 4 = crc32c (r.take 124)

/-- MAKER and SERIAL of a record (R165). -/
def recordId (r : List Nat) : List Nat := (r.drop 8).take 16 ++ (r.drop 40).take 16

/-- An hours copy whose CRC checks (R166, R167). -/
def copyValid (c : List Nat) : Bool := c.length = 32 && leAt c 28 4 = crc32c (c.take 28)

/-- SEQ `a` is higher than `b` by serial-number arithmetic. -/
def seqHigher (a b : Nat) : Bool := decide (0 < (a + 65536 - b) % 65536) && decide ((a + 65536 - b) % 65536 < 32768)

/-- The copy taken (R167): 0 A, 1 B. -/
def chooseCopy (a b : List Nat) : Option Nat :=
  match copyValid a, copyValid b with
  | true, true => some (if seqHigher (leAt b 0 2) (leAt a 0 2) then 1 else 0)
  | true, false => some 0
  | false, true => some 1
  | false, false => none

/-- Word `k` of the record registers, unsigned. -/
def State.rfmRec (s : State) (p k : Nat) : Nat := s.rd (R.RFM_REC_REC (p * 32 + k))

/-- Rated life, warm-up time, EFC gain of the module in place; in a READING that a warm reset began the warm-up time it kept. -/
def State.ratedLife (s : State) (p : Nat) : Nat := s.rfmRec p 14
def State.warmSecs (s : State) (p : Nat) : Nat :=
  if s.rfmState p = .reading then (s.rfmPort p).keptSpan
  else if s.on (R.RFM_STAT_IDENT_OK p) then s.rfmRec p 15 % 65536 else s.rd R.RFM_CTL_WARMUP_DEF
def State.efcGain (s : State) (p : Nat) : Int := toSigned 32 (s.rfmRec p 16)

/-- The declared clock frequency in Hz (R160, R164). -/
def State.declaredHz (s : State) (p : Nat) : Nat :=
  match s.rd (R.RFM_CFG_CLK p) with
  | 1 => 10000000
  | 2 => 100000000
  | _ => if s.on (R.RFM_STAT_IDENT_OK p) && bit (s.rfmRec p 1 / 2 ^ 16) 0 then 100000000 else 10000000

/-- LIFE and REMAIN follow hours and record (R170); the record of a change names the sender that caused it (0: none). -/
def updateLife (sender p : Nat) (s : State) : State :=
  let old := s.rd (R.RFM_STAT_LIFE p)
  let hours := s.rd (R.RFM_HOURS_HOURS p)
  let known := s.on (R.RFM_STAT_IDENT_OK p) && s.on (R.RFM_STAT_HOURS_OK p)
  let remain := s.ratedLife p - hours
  let life := if !known then 3 else if remain = 0 then 2 else if remain ≤ s.rd R.RFM_CTL_LIFE_WARN then 1 else 0
  let s := s.wr (R.RFM_LIFE_REMAIN p) (if known then remain else 0xFFFFFFFF)
  let s := s.wr (R.RFM_STAT_LIFE p) life
  if life = old then s
  else
    let s := if life = 1 ∨ (life = 2 ∧ old ≠ 1) then rfmEvt p 9 s else s
    let s := if life = 2 then rfmEvt p 10 s else s
    s.logRec 0x0C01 p sender (life :: le 4 hours)

/-- Loads the DAC: a code that reaches a rail sets EFC_RAIL and its event (R171). -/
def setEfc (p code : Nat) (s : State) : State :=
  let rail := code = 0 ∨ code = 0xFFFFF
  let there := s.rd (R.RFM_EFC_CODE p) = code ∧ s.on (R.RFM_STAT_EFC_RAIL p) = true
  let s := (s.wr (R.RFM_EFC_CODE p) code).wr (R.RFM_STAT_EFC_RAIL p) (if rail then 1 else 0)
  if rail ∧ ¬there then rfmEvt p 12 s else s

/-- REFx_PRES_N has been low for 100 ms (R158). -/
def moduleInsert (p : Nat) (s : State) : State :=
  if s.rfmState p = .empty then rfmEvt p 0 (setRfm p .reading s) else s

def execModuleInsert (p : Fin 2) : State → Res State := go (moduleInsert p.val)

/-- Clears the record registers of a port. -/
def clearRecord (p : Nat) (s : State) : State :=
  (List.range 32).foldl (fun s k => s.lo (R.RFM_REC_REC (p * 32 + k))) s

/-- What a warm reset kept of the anchor module's record is in force no longer once its port reads anew or is empty (R109). -/
def forgetWords (p : Nat) (s : State) : State := if s.anchorSlot = some (p + 2) then dropWords s else s

/-- REFx_PRES_N goes high (R159): inputs gated, transfers abandoned, DAC at mid-scale, PARK clear, EMPTY. -/
def moduleRemove (p : Nat) (s : State) : State :=
  if s.rfmState p = .empty then s
  else
    let s := s.modRfm p (fun k => { k with work := none, jobs := [], warmFrom := none, freqs := [], ppsAt := none, warmEnd := false, keptMinutes := false })
    let s := setEfc p 0x80000 (forgetWords p s)
    let s := s.lo (R.RFM_CFG_PARK p)
    let s := (s.lo (R.RFM_STAT_IDENT_OK p)).lo (R.RFM_STAT_HOURS_OK p)
    rfmEvt p 1 (updateLife 0 p (setRfm p .empty (clearRecord p (s.lo (R.RFM_STAT_ALM p)))))

def execModuleRemove (p : Fin 2) : State → Res State := go (moduleRemove p.val)

/-- A change of the identity record discards the slot's learned bias (R82, R165). -/
def newModule (p : Nat) (s : State) : State :=
  forgetBias (p + 2) (rfmEvt p 5 s)

/-- Stores the record registers. -/
def storeRecord (p : Nat) (r : List Nat) (s : State) : State :=
  (List.range 32).foldl (fun s k => s.wr (R.RFM_REC_REC (p * 32 + k)) (leAt r (4 * k) 4)) s

/-- The identity record as read, or its failure (R163-R165). -/
def takeRecord (p : Nat) (r : List Nat) (s : State) : State :=
  let valid := recordValid r
  let k := s.rfmPort p
  let changed := (valid && !k.lastValid) || (valid && decide (k.lastId ≠ recordId r))
  let s := if valid then (storeRecord p r s).hi (R.RFM_STAT_IDENT_OK p)
    else rfmEvt p 6 ((clearRecord p s).lo (R.RFM_STAT_IDENT_OK p))
  let s := s.modRfm p (fun k =>
    { k with lastValid := valid, lastId := if valid then recordId r else k.lastId
             warmFrom := if !changed && k.warmFrom.isSome then k.warmFrom else some (s.clk : Int)
             warmEnd := k.warmEnd && !changed && k.warmFrom.isSome
             keptMinutes := k.keptMinutes && !changed })
  if changed then newModule p s else s

/-- The hours copies as read (R167). -/
def takeHours (p : Nat) (a b : List Nat) (s : State) : State :=
  let sa := if copyValid a then some (leAt a 0 2) else none
  let sb := if copyValid b then some (leAt b 0 2) else none
  let s := s.modRfm p (fun k => { k with seqA := sa, seqB := sb })
  match chooseCopy a b with
  | some c =>
    let y := if c = 0 then a else b
    let s := s.modRfm p (fun k => { k with lastCopy := c })
    let s := (s.hi (R.RFM_STAT_HOURS_OK p)).wr (R.RFM_HOURS_HOURS p) (leAt y 4 4)
    let s := s.wr (R.RFM_USE_SEQ p) (leAt y 0 2)
    if (s.rfmPort p).keptMinutes then s else setEfc p (leAt y 8 4 % 2 ^ 20) (s.wr (R.RFM_USE_MINUTES p) (leAt y 2 1))
  | none =>
    let s := (s.lo (R.RFM_STAT_HOURS_OK p)).lo (R.RFM_HOURS_HOURS p)
    let s := if (s.rfmPort p).keptMinutes then s
      else setEfc p (if s.on (R.RFM_STAT_IDENT_OK p) then s.rfmRec p 17 % 2 ^ 20 else 0x80000) (s.lo (R.RFM_USE_MINUTES p))
    rfmEvt p 7 s

/-- Enters READY. -/
def enterReady (p : Nat) (s : State) : State := rfmEvt p 2 (setRfm p .ready (s.modRfm p (fun k => { k with warmEnd := true })))

/-- WARMING passes to READY once its warm-up time has elapsed, REFx_ALM_N is high and CLK_OK is 1 (R158, R176). -/
def warmReady (p : Nat) (s : State) : State :=
  match (s.rfmPort p).warmFrom with
  | some t =>
    if s.rfmState p = .warming ∧ s.on (R.RFM_STAT_ALM p) = false ∧ s.on (R.RFM_STAT_CLK_OK p) = true
        ∧ t + (sec16 (s.warmSecs p) : Nat) ≤ (s.clk : Int) then enterReady p s else s
  | none => s

/-- The end of READING (R158, R164-R167, R171). -/
def recordRead (p : Nat) (r : Option (List Byte)) (a b : List Byte) (s : State) : State :=
  if s.rfmState p = .reading then
    let s := takeRecord p ((r.map natBytes).getD []) (forgetWords p s)
    let s := takeHours p (natBytes a) (natBytes b) s
    let s := updateLife 0 p (s.modRfm p (fun k => { k with keptMinutes := false }))
    warmReady p (setRfm p (if s.on (R.RFM_CFG_PARK p) then .parked else .warming) s)
  else s

def execRecordRead (p : Fin 2) (r : Option (List Byte)) (a b : List Byte) : State → Res State :=
  go (recordRead p.val r a b)

/-! ### Warm-up and alarm (R158) -/

/-- The warm-up time has elapsed since the end of READING, with the alarm high and CLK_OK 1. -/
def warmupDone (p : Nat) (s : State) : State :=
  match (s.rfmPort p).warmFrom with
  | some t =>
    if s.rfmState p = .warming ∧ s.on (R.RFM_STAT_ALM p) = false ∧ s.on (R.RFM_STAT_CLK_OK p) = true then
      warmReady p (s.waitClk (t + (sec16 (s.warmSecs p) : Nat)).toNat)
    else s
  | none => s

def execWarmupDone (p : Fin 2) : State → Res State := go (warmupDone p.val)

/-- Twice the warm-up time has passed without READY, which a port that has what READY takes has reached before. -/
def warmFail (p : Nat) (s : State) : State :=
  let s := warmupDone p s
  match (s.rfmPort p).warmFrom with
  | some t =>
    if s.rfmState p = .warming ∧ (s.rfmPort p).warmEnd = false then
      rfmEvt p 4 ((s.waitClk (t + (sec16 (2 * s.warmSecs p) : Nat)).toNat).modRfm p (fun k => { k with warmEnd := true }))
    else s
  | none => s

def execWarmFail (p : Fin 2) : State → Res State := go (warmFail p.val)

/-- REFx_ALM_N is low and has been for `us` µs: ALM shows it at once, and from 1 ms on READY ends (R158, R177). -/
def moduleAlarm (p us : Nat) (s : State) : State :=
  if s.rfmState p = .empty then s
  else
    let s := s.hi (R.RFM_STAT_ALM p)
    if 1000 ≤ us ∧ s.rfmState p = .ready then rfmEvt p 3 (setRfm p .alarm s) else s

def execModuleAlarm (p : Fin 2) (us : Nat) : State → Res State := go (moduleAlarm p.val us)

/-- REFx_ALM_N is high and has been for `ms` ms: WARMING may end at once, ALARM from 10 s on, with CLK_OK 1 (R158, R177). -/
def alarmClear (p ms : Nat) (s : State) : State :=
  let s := s.lo (R.RFM_STAT_ALM p)
  if 10000 ≤ ms ∧ s.rfmState p = .alarm ∧ s.on (R.RFM_STAT_CLK_OK p) = true then enterReady p s else warmReady p s

def execAlarmClear (p : Fin 2) (ms : Nat) : State → Res State := go (alarmClear p.val ms)

/-! ### Hours writes (R168, R169) and parking (R175) -/

/-- The SEQ above the other copy's, or 1 above none. -/
def nextSeq (o : Option Nat) : Nat := ((o.getD 0) + 1) % 65536

/-- The higher of the valid SEQ values (R169). -/
def RfmPort.topSeq (k : RfmPort) : Option Nat :=
  match k.seqA, k.seqB with
  | some a, some b => some (if seqHigher b a then b else a)
  | some a, none => some a
  | none, o => o

/-- The page write of a job: the copy not chosen or written last; its SEQ is one above the other copy's (R168), or for the first write of
HOURS_SET one above the higher valid one (R169). -/
def RfmPort.nextWrite (k : RfmPort) (j : HoursJob) : HoursWrite :=
  let c := 1 - k.lastCopy
  { copy := c, seq := nextSeq (if j = .setFirst then k.topSeq else if c = 0 then k.seqB else k.seqA), job := j }

/-- An hours copy as it is written now (R166): SEQ, MINUTES, HOURS, the DAC code in force, CRC. -/
def State.hoursPage (s : State) (p seq : Nat) : List Nat :=
  let body := le 2 seq ++ [s.rd (R.RFM_USE_MINUTES p), 0] ++ le 4 (s.rd (R.RFM_HOURS_HOURS p)) ++ le 4 (s.rd (R.RFM_EFC_CODE p))
    ++ List.replicate 16 0
  body ++ le 4 (crc32c body)

/-- Puts a page write on the module's bus: copy A stands at 0x80, copy B at 0xA0 (R162, R168).  A retry writes the hours and the code as
they then are (DEDUCED, log entry 98). -/
def beginWrite (p : Nat) (w : HoursWrite) (s : State) : State :=
  (s.modRfm p (fun k => { k with work := some { w with failed := false } })).emit
    (.eeprom p (if w.copy = 0 then 0x80 else 0xA0) (s.hoursPage p w.seq))

/-- The next job's page write begins when none is at work. -/
def nextJob (p : Nat) (s : State) : State :=
  let k := s.rfmPort p
  match k.work, k.jobs with
  | none, j :: rest => beginWrite p (k.nextWrite j) (s.modRfm p (fun k => { k with jobs := rest }))
  | _, _ => s

/-- A page write is wanted: it begins when the one at work has succeeded. -/
def addJob (p : Nat) (j : HoursJob) (s : State) : State := nextJob p (s.modRfm p (fun k => { k with jobs := k.jobs ++ [j] }))

/-- Enters PARKED once the flush is done, unless PARK has been withdrawn. -/
def parkNow (p : Nat) (s : State) : State :=
  if s.on (R.RFM_CFG_PARK p) then setRfm p .parked s else s

/-- A write of PARK at 1 (R175): the hours flush begins; a module whose hours are not known is written nothing (R167). -/
def beginPark (p : Nat) (s : State) : State :=
  if s.rfmState p = .warming ∨ s.rfmState p = .ready ∨ s.rfmState p = .alarm then
    if s.on (R.RFM_STAT_HOURS_OK p) then addJob p .flush s else parkNow p s
  else s

/-- A clock's distance from the declared frequency, as a fraction (R160, R172). -/
def State.clockDev (s : State) (p nHz : Nat) : Rat :=
  let decl : Rat := (s.declaredHz p * 1000000000 : Nat)
  ((nHz : Rat) - decl) / decl

/-- CLK_OK and CANDIDATE by the last measurement and the frequency declared now (R160). -/
def judgeClock (p : Nat) (s : State) : State :=
  match (s.rfmPort p).hz with
  | some h => warmReady p (setCandidate p (s.wr (R.RFM_STAT_CLK_OK p) (b01 (decide (|s.clockDev p h| ≤ mkRat 5 1000000)))))
  | none => s

/-- A write of RFM_CFG (R158, R160, R175). -/
def writeRfmCfg (p w : Nat) (s : State) : State :=
  let was := s.on (R.RFM_CFG_PARK p)
  let s := judgeClock p (s.storeReg false (Reg.RFM_CFG p) w)
  let now := s.on (R.RFM_CFG_PARK p)
  if now && !was then beginPark p s
  else if !now && s.rfmState p = .parked then warmReady p (setRfm p .warming s)
  else s

def execModulePark (p : Fin 2) (w : Word) : State → Res State :=
  go (writeRfmCfg p.val ((R.RFM_CFG_PARK p.val).setIn w.toNat))

def execModuleUnpark (p : Fin 2) (w : Word) : State → Res State :=
  go (writeRfmCfg p.val ((R.RFM_CFG_PARK p.val).clearIn w.toNat))

/-- Hours until the code would reach the rail in the direction of its slope (R174). -/
def railHours (code : Nat) (codes : List Nat) : Nat :=
  if codes.length < 168 then 0xFFFFFFFF
  else
    let sl := lineSlope ((List.range codes.length).zip codes |>.map (fun q => (-(q.1 : Rat), (q.2 : Rat))))
    if sl = 0 then 0xFFFFFFFF
    else satNat 32 ((if sl > 0 then ((0xFFFFF : Rat) - code) / sl else (code : Rat) / -sl)).floor.toNat

/-- EFC_WARN is set once RFM_RAIL is at or below LIFE_WARN (R174). -/
def railWarn (p : Nat) (s : State) : State := if s.rd (R.RFM_RAIL_RAIL p) ≤ s.rd R.RFM_CTL_LIFE_WARN then rfmEvt p 11 s else s

/-- A write of RFM_CTL: LIFE and EFC_WARN follow LIFE_WARN (R170, R174). -/
def writeRfmCtl (sender w : Nat) (s : State) : State :=
  [0, 1].foldl (fun s p => railWarn p (updateLife sender p s)) (s.storeReg false Reg.RFM_CTL w)

/-- The hourly work of a port: the write with the code it records, life and rail (R168, R170, R174). -/
def modHour (p : Nat) (s : State) : State :=
  let s := s.wr (R.RFM_HOURS_HOURS p) (s.rd (R.RFM_HOURS_HOURS p) + 1)
  let s := if s.on (R.RFM_STAT_HOURS_OK p) then
      addJob p .hourly (s.modRfm p (fun k => { k with codes := (s.rd (R.RFM_EFC_CODE p) :: k.codes).take 720 })) else s
  let s := s.wr (R.RFM_RAIL_RAIL p) (railHours (s.rd (R.RFM_EFC_CODE p)) (s.rfmPort p).codes)
  updateLife 0 p (railWarn p s)

/-- Another minute of use (R168), in the states that count hours; a failed write is retried. -/
def moduleMinute (p : Nat) (s : State) : State :=
  if s.rfmState p = .empty ∨ s.rfmState p = .reading then s
  else
    let m := s.rd (R.RFM_USE_MINUTES p)
    let s := if m ≥ 59 then modHour p (s.lo (R.RFM_USE_MINUTES p)) else s.wr (R.RFM_USE_MINUTES p) (m + 1)
    match (s.rfmPort p).work with
    | some w => if w.failed then beginWrite p w s else s
    | none => s

def execModuleMinute (p : Fin 2) : State → Res State := go (moduleMinute p.val)

/-- A finished page write is noted: its copy holds its SEQ. -/
def noteWrite (p : Nat) (w : HoursWrite) (s : State) : State :=
  (s.modRfm p (fun k =>
    { k with
      work := none
      lastCopy := w.copy
      seqA := if w.copy = 0 then some w.seq else k.seqA
      seqB := if w.copy = 0 then k.seqB else some w.seq })).wr (R.RFM_USE_SEQ p) w.seq

/-- HOURS_SET has written both copies (R169); a command that waits for it ends (R435). -/
def hoursDone (p : Nat) (s : State) : State :=
  let s := (s.hi (R.RFM_HOURS_CMD_DONE p)).lo (R.RFM_HOURS_CMD_GO p)
  let e := s.rd R.RFM_EVT_BITS
  let s := s.wr R.RFM_EVT_BITS (e - (if bit e (7 + 16 * p) then 2 ^ (7 + 16 * p) else 0))
  let s := updateLife (s.rfmPort p).setBy p (s.hi (R.RFM_STAT_HOURS_OK p))
  endUnit 0x0C10 p 0 0 (le 4 (s.showReg (Reg.RFM_HOURS p)) ++ le 4 (s.showReg (Reg.RFM_USE p))) s

/-- The page write at work finishes, or fails within its 10 ms poll (R168): a flush completes the park, a set goes on with
the other copy and ends with DONE. -/
def hoursWriteEnd (p : Nat) (ok : Bool) (s : State) : State :=
  match (s.rfmPort p).work with
  | none => s
  | some w =>
    if w.failed then s
    else if ok then
      let s := noteWrite p w s
      match w.job with
      | .hourly => nextJob p s
      | .flush => nextJob p (parkNow p s)
      | .setFirst => beginWrite p { copy := 1 - w.copy, seq := (w.seq + 1) % 65536, job := .setSecond } s
      | .setSecond => nextJob p (hoursDone p s)
    else
      let s := s.modRfm p (fun k => { k with work := some { w with failed := true, tried := true } })
      if w.tried then s else rfmEvt p 8 s

def execHoursWriteEnd (p : Fin 2) (ok : Bool) : State → Res State := go (hoursWriteEnd p.val ok)

/-- HOURS_SET: both copies are to be written, or it is refused (R169). -/
def hoursSet (sender p : Nat) (s : State) : State :=
  if s.rfmState p = .empty ∨ s.rfmState p = .reading then s.hi (R.RFM_HOURS_CMD_REFUSED p)
  else
    let s := (s.wr (R.RFM_HOURS_HOURS p) (s.rd (R.RFM_HOURS_SET_VALUE p))).lo (R.RFM_USE_MINUTES p)
    addJob p .setFirst (updateLife sender p ((s.modRfm p (fun k => { k with setBy := sender })).hi (R.RFM_HOURS_CMD_GO p)))

/-- A write of RFM_HOURS_CMD. -/
def writeHoursCmd (sender p w : Nat) (s : State) : State :=
  let s := s.storeReg false (Reg.RFM_HOURS_CMD p) w
  if (R.RFM_HOURS_CMD_GO p).of w = 1 then hoursSet sender p s else s

def execHoursSetGo (p : Fin 2) (w : Word) : State → Res State :=
  go (writeHoursCmd 2 p.val ((R.RFM_HOURS_CMD_GO p.val).setIn w.toNat))

/-! ### EFC (R171-R174) -/

/-- Whether the record of the module in place was read and found invalid (R164). -/
def State.badRecord (s : State) (p : Nat) : Bool :=
  s.rfmState p ≠ .empty && s.rfmState p ≠ .reading && !s.on (R.RFM_STAT_IDENT_OK p)

/-- EFC_MODE in force: 3 is treated as 0, and an invalid record makes it HOLD (R164, R171). -/
def State.efcMode (s : State) (p : Nat) : Nat :=
  if s.badRecord p || s.rd (R.RFM_CFG_EFC_MODE p) = 3 then 0 else s.rd (R.RFM_CFG_EFC_MODE p)

/-- A write to RFM_EFC acts in HOST mode only. -/
def writeEfc (p w : Nat) (s : State) : State := if s.efcMode p = 1 then setEfc p (w % 2 ^ 20) s else s

def execEfcWrite (p : Fin 2) (w : Word) : State → Res State := go (writeEfc p.val w.toNat)

/-- Volts of one code: 2.384 µV. -/
def efcLsb : Rat := mkRat 2384 1000000000

/-- The clock measurements of the last 64 s, as fractions of the declared frequency (R172). -/
def State.recentFreqs (s : State) (p : Nat) : List Rat :=
  ((s.rfmPort p).freqs.filter (fun q => decide (s.clk < q.1 + sec16 64))).map (fun q => s.clockDev p q.2)

/-- One AUTO update (R172, R173): the code moves by the correction of F within STEP; answered is the active anchor's move in ns/s, which goes
into y of both filters. -/
def efcUpdate (p : Nat) (s : State) : Rat × State :=
  let fs := s.recentFreqs p
  let timeQual := (s.setOf .ts0).any (fun i => timeBearing i && s.src i = .qualified)
  if s.efcMode p = 2 ∧ s.rfmState p = .ready ∧ s.efcGain p ≠ 0 ∧ s.eng .ts0 = .tracking ∧ timeQual = true
      ∧ s.src (p + 2) ≠ .quarantined ∧ fs ≠ [] then
    let m := fs.foldl (· + ·) 0 / (fs.length : Rat)
    let incr : Rat := mkRat (s.tick.bank0.incr : Nat) (2 ^ 48)
    let f := m - (incr - mkRat 5 4) / mkRat 5 4
    let perCode := mkRat (s.efcGain p) (10 ^ 15) * efcLsb
    let lim := (mkRat (max 1 (s.rd (R.RFM_EFC_STEP_STEP p)) : Nat) (10 ^ 12) / |perCode|).floor
    let d := max (-lim) (min lim (rndNearest (-f / perCode)))
    let old := s.rd (R.RFM_EFC_CODE p)
    let new := (max 0 (min 0xFFFFF ((old : Int) + d))).toNat
    let s := setEfc p new (s.wr (R.RFM_FREQ_F p) (satBits 32 (rnd (f * 10 ^ 15))))
    (if s.rd R.ENS_ANCHOR_ACTIVE = p + 1 then (((new : Int) - (old : Int) : Int) : Rat) * perCode * 1000000000 else 0, s)
  else (0, s)

/-- The updates of both ports. -/
def efcUpdates (s : State) : Rat × State :=
  let a := efcUpdate 0 s
  let b := efcUpdate 1 a.2
  (a.1 + b.1, b.2)

/-! ### PPS and clock (R160, R161) -/

/-- The whole second of its slot's timescale that an edge at TS0 time `t` marks: the nearest one (R161). -/
def State.ppsSecond (s : State) (p t : Nat) : Int :=
  ((t : Int) + (if (s.slot (p + 2)).set = 1 then (s.stampOf t).d else 0) + 32768000000000) / 65536000000000

/-- An edge is delivered to the port's slot. -/
def takePps (p t : Nat) (sec : Int) (s : State) : State :=
  deliver (p + 2) (s.stampOf t) (nearestSecond t) 0 false (s.modRfm p (fun k => { k with ppsAt := some (s.clkOf t), ppsSec := sec }))

/-- A module PPS edge at TS0 time `t` (2^-16 ns) in READY (R161). -/
def ppsEdge (p t : Nat) (s : State) : State :=
    let sec := s.ppsSecond p t
    match (s.rfmPort p).ppsAt with
    | some l =>
      if decide (s.clkOf t < l + ms16 900) then
        rfmEvt p 13 (s.wr (R.RFM_PPS_EXTRA_EXTRA p) (satNat 16 (s.rd (R.RFM_PPS_EXTRA_EXTRA p) + 1)))
      else if sec = (s.rfmPort p).ppsSec then s
      else takePps p t sec s
    | none => takePps p t sec s

/-- A module PPS edge, captured on PA or PB (channels 80 and 81) in a coarse period and a bin (R157, R161, R178). -/
def modulePps (p dc bin : Nat) (s : State) : State :=
  let st := s.rfmState p
  if st = .warming ∨ st = .ready ∨ st = .alarm then
    let c := s.coarseNow + dc
    let s := s.waitTick (tickOfCoarse c)
    let e := s.capture (80 + p) c bin false
    let s := noteEdge (80 + p) e s
    if st = .ready then ppsEdge p e.time s else s
  else s

def execModulePps (p : Fin 2) (dc : Nat) (bin : Fin 64) : State → Res State := go (modulePps p.val dc bin.val)

/-- The last 1 s measurement of a candidate is kept (R95, R96). -/
def keepHz (c nHz : Nat) (s : State) : State := { s with ens := { s.ens with clockHz := IMap.put none s.ens.clockHz c (some nHz) } }

/-- A 1 s measurement of a candidate clock, in 10^-9 Hz against the DPLL's own output: candidate 0 is the board clock, 1 REFA, 2 REFB.  A
module's clock is measured in WARMING and READY; elsewhere it is gated off (R95, R157, R160). -/
def clockMeasure (c nHz : Nat) (s : State) : State :=
  let p := c - 1
  if c = 0 then keepHz 0 nHz s
  else if s.rfmState p = .warming ∨ s.rfmState p = .ready then
    judgeClock p ((keepHz c nHz s).modRfm p (fun k =>
      { k with hz := some nHz, freqs := (s.clk, nHz) :: k.freqs.filter (fun q => decide (s.clk < q.1 + sec16 64)) }))
  else s

def execClockMeasure (c : Fin 3) (nHz : Nat) : State → Res State := go (clockMeasure c.val nHz)

/-- Seconds of warm-up left (RFM_STAT WARM_LEFT): the timer counts from the end of READING whatever the port's state (R158, R176). -/
def State.warmLeft (s : State) (p : Nat) : Nat :=
  match (s.rfmPort p).warmFrom with
  | some t => satNat 16 ((t + (sec16 (s.warmSecs p) : Nat) - (s.clk : Int)).toNat / 65536000000000)
  | none => 0

end Sys2Proof.Machine
end

