-- ==== Sys2Proof/Machine/Gnss.lean ====
section
/-! DEFINITION. The GNSS timing receiver (04): sample ports, channels, navigation records, solutions, interference, antennas
and sleep. -/

namespace Sys2Proof.Machine

def State.gnsPort (s : State) (n : Nat) : GnsPort := IMap.get {} s.gnss.ports n
def State.modGnsPort (s : State) (n : Nat) (f : GnsPort → GnsPort) : State :=
  { s with gnss := { s.gnss with ports := IMap.upd {} s.gnss.ports n f } }
def State.gnsCh (s : State) (c : Nat) : GnsCh := IMap.get {} s.gnss.chans c
def State.modCh (s : State) (c : Nat) (f : GnsCh → GnsCh) : State :=
  { s with gnss := { s.gnss with chans := IMap.upd {} s.gnss.chans c f } }
def State.gnsAnt (s : State) (a : Nat) : GnsAnt := IMap.get {} s.gnss.ants a
def State.modAnt (s : State) (a : Nat) (f : GnsAnt → GnsAnt) : State :=
  { s with gnss := { s.gnss with ants := IMap.upd {} s.gnss.ants a f } }

/-- Channel states (R126), numbered as GNS_CH_STAT codes them. -/
inductive Ch where
  | idle | search | pullIn | track | nav | lost | test
deriving DecidableEq, Repr

def Ch.code : Ch → Nat
  | .idle => 0 | .search => 1 | .pullIn => 2 | .track => 3 | .nav => 4 | .lost => 5 | .test => 6

def Ch.ofCode : Nat → Ch
  | 1 => .search | 2 => .pullIn | 3 => .track | 4 => .nav | 5 => .lost | 6 => .test | _ => .idle

def State.ch (s : State) (c : Nat) : Ch := Ch.ofCode (s.rd (R.GNS_CH_STAT_STATE c))

def chIds : List Nat := List.range 160

/-- Reserved channels (R128). -/
def State.reserved (s : State) (c : Nat) : Bool := s.on (R.GNS_CH_CFG_RSV c)

/-- A reserved channel in IDLE. -/
def State.spareCh (s : State) : Option Nat := chIds.find? (fun c => s.reserved c && s.ch c = .idle)

/-- Before a channel changes: a Watch run notes that no reserved channel is IDLE yet, the condition its test 4 may wait for (R476). -/
def noteFull (s : State) : State :=
  if s.spareCh.isSome then s else { s with watch := { s.watch with run := s.watch.run.map (fun r => { r with foundAt := s.clk }) } }

/-- Moves a channel to a state. -/
def setCh (c : Nat) (v : Ch) (s : State) : State :=
  ((noteFull s).wr (R.GNS_CH_STAT_STATE c) v.code).modCh c (fun k => { k with since := s.clk })

/-- A channel becomes IDLE: it tracks no satellite. -/
def idleCh (c : Nat) (s : State) : State :=
  let s := setCh c .idle s
  let s := (((s.lo (R.GNS_CH_STAT_SVID c)).lo (R.GNS_CH_STAT_CN0 c)).lo (R.GNS_CH_DOP_DOP c)).lo (R.GNS_CH_STAT_USED c)
  let s := (s.lo (R.GNS_CH_STAT_EXCLUDED c)).lo (R.GNS_CH_STAT_NOTCHED c)
  s.modCh c (fun k => { k with pinned := false })


/-- The sample port of an antenna's band (R120). -/
def portOf (ant band : Nat) : Nat := ant * 2 + band

def State.chPort (s : State) (c : Nat) : Nat := portOf (s.gnsCh c).ant (s.gnsCh c).band

/-- Takes every channel that meets a condition, TEST apart, to IDLE (R126). -/
def idleWhere (f : State → Nat → Bool) (s : State) : State :=
  chIds.foldl (fun s c => if s.ch c ≠ .idle ∧ s.ch c ≠ .test ∧ f s c = true then idleCh c s else s) s

/-! ### Which signals may be tracked -/

/-- REF_SYS in force: 3 is treated as 0. -/
def State.refSys (s : State) : Nat := if s.rd R.GNS_CTL_REF_SYS = 3 then 0 else s.rd R.GNS_CTL_REF_SYS

/-- Whether an antenna is in use (R147). -/
def State.antInUse (s : State) (a : Nat) : Bool := a = 0 || s.rd R.GNS_CTL_REDUND ≠ 3

/-- Whether the receiver's baseband is on. -/
def State.gnsOn (s : State) : Bool := s.on R.GNS_CTL_EN && !s.on R.GNS_SLEEP_STAT_ASLEEP

/-- Whether a port is in use (R147, R153). -/
def State.portUsed (s : State) (n : Nat) : Bool := s.on (R.GNS_PORT_CFG_EN n) && s.antInUse (n / 2)

/-- Whether a port may carry channels: in use and not faulted. -/
def State.portOk (s : State) (n : Nat) : Bool := s.portUsed n && !s.on (R.GNS_PORT_STAT_FAULT n)

/-- Whether a system has a satellite of that PRN (R119, R153): SBAS, for one, is not supported. -/
def prnOk (sys svid : Nat) : Bool :=
  match sys with
  | 0 => decide (1 ≤ svid) && decide (svid ≤ 32)
  | 1 => decide (1 ≤ svid) && decide (svid ≤ 36)
  | 2 => decide (1 ≤ svid) && decide (svid ≤ 63)
  | _ => decide (193 ≤ svid) && decide (svid ≤ 202)

/-- The systems in force: a change of SYS_EN acts at the next epoch (R153). -/
def State.systems (s : State) : Nat := s.gnss.sysHeld.getD (s.rd R.GNS_CTL_SYS_EN)

/-- Whether a signal may be tracked: receiver, system, band, antenna and port all in use (R126). -/
def State.signalOk (s : State) (sys band ant : Nat) : Bool :=
  s.gnsOn && bit s.systems sys && s.on (if band = 0 then R.GNS_CTL_HIGH_EN else R.GNS_CTL_LOW_EN)
    && s.antInUse ant && s.portOk (portOf ant band)

/-- Whether the engine searches low-band signals of an antenna directly (R125). -/
def State.lowDirect (s : State) (ant : Nat) : Bool :=
  !s.on R.GNS_CTL_HIGH_EN || s.on (R.GNS_PORT_STAT_FAULT (portOf ant 0))

/-- The channels an antenna may hold (R147): half the pool each, or 8 for the antenna that is not primary, or all for A. -/
def State.antQuota (s : State) (a : Nat) : Nat :=
  let pool := (chIds.filter (fun c => !s.reserved c)).length
  match s.rd R.GNS_CTL_REDUND with
  | 0 => pool / 2
  | 3 => if a = 0 then pool else 0
  | _ => if s.rd R.GNS_STAT_ACTIVE_ANT = a then pool - 8 else 8

/-- The channels an antenna holds, in number order. -/
def State.antChans (s : State) (a : Nat) : List Nat :=
  chIds.filter (fun c => s.ch c ≠ .idle && s.ch c ≠ .test && (s.gnsCh c).ant = a)

/-- The satellite of a channel. -/
def State.satOf (s : State) (c : Nat) : Nat := (s.gnsCh c).sys * 256 + s.rd (R.GNS_CH_STAT_SVID c)

/-- A satellite's elevation at an antenna's last solution. -/
def State.elevOf (s : State) (a sat : Nat) : Nat := IMap.get 0 (s.gnsAnt a).elev sat

/-- Whether an antenna holds the 8 channels of the one that is not primary (R147). -/
def State.reduced (s : State) (a : Nat) : Bool :=
  (s.rd R.GNS_CTL_REDUND = 1 || s.rd R.GNS_CTL_REDUND = 2) && s.rd R.GNS_STAT_ACTIVE_ANT ≠ a

/-- Whether channel `c` of an antenna is kept before channel `d`: the one pinned by the host, else the one on the higher satellite, else the
lower number (R147; the host's pins first, DESIGN CHOICE, log entry 21). -/
def State.keptBefore (s : State) (a c d : Nat) : Bool :=
  let ec := s.elevOf a (s.satOf c)
  let ed := s.elevOf a (s.satOf d)
  if (s.gnsCh c).pinned = (s.gnsCh d).pinned then decide (ed < ec) || (ec = ed && decide (c ≤ d)) else (s.gnsCh c).pinned

/-- An antenna's channels, those to be kept first. -/
def State.antRanked (s : State) (a : Nat) : List Nat := sortBy (s.keptBefore a) (s.antChans a)

/-- Whether the plan may put a satellite on a further channel of an antenna (R147): within its share; of the 8 channels, one of the 8 highest
satellites that its last solution has placed, and in place of a lower one where all 8 are held. -/
def State.hasRoom (s : State) (a sat : Nat) : Bool :=
  let e := s.elevOf a sat
  let free := decide ((s.antChans a).length < s.antQuota a)
  if s.reduced a then
    decide (((s.gnsAnt a).elev.filter (fun q => decide (e < q.2))).length < 8)
      && (free || (s.antChans a).any (fun c => !(s.gnsCh c).pinned && decide (s.elevOf a (s.satOf c) < e)))
  else free

/-- Whether the host's pins leave an antenna room for one more (R147). -/
def State.pinRoom (s : State) (a : Nat) : Bool := decide (((s.antChans a).filter (fun c => (s.gnsCh c).pinned)).length < s.antQuota a)

/-- The firmware drops what an antenna holds beyond its share, the lowest satellites first (R147, log entry 21). -/
def trimPool (s : State) : State :=
  ([0, 1].flatMap (fun a => (s.antRanked a).drop (s.antQuota a))).foldl (fun s c => idleCh c s) s

/-- Drops every channel whose signal may not be tracked any more (R126). -/
def dropUnusable (s : State) : State :=
  idleWhere (fun s c => !s.signalOk (s.gnsCh c).sys (s.gnsCh c).band (s.gnsCh c).ant) s

/-- Half the main lobe of a band's signals in Hz (R143). -/
def lobe (band : Nat) : Nat := if band = 0 then 1023000 else 10230000

/-- Whether an engaged notch of a port lies in its signals' main lobe (R143). -/
def State.notchInLobe (s : State) (n : Nat) : Bool :=
  (List.range 4).any (fun k => bit (s.rd (R.GNS_NOTCH_CTL_ENGAGED n)) k &&
    decide ((s.rdSigned (R.GNS_NOTCH_FREQ (n * 4 + k))).natAbs ≤ lobe (n % 2)))

/-! ### Code phase and correlator spacing (R119, R125, R127, R130) -/

/-- Chips a second and chips in a primary code period of a system's band (R119). -/
def chipRate (band : Nat) : Nat := if band = 0 then 1023000 else 10230000
def codeChips (sys band : Nat) : Nat :=
  if band = 1 then 10230
  else match sys with
    | 1 => 4092
    | 2 => 10230
    | _ => 1023

/-- A channel's code phase now, in 2^-16 chip, as its code runs on from where it last stood. -/
def State.codeNow (s : State) (c : Nat) : Nat :=
  let k := s.gnsCh c
  (k.code + (s.clk - k.codeAt) * chipRate k.band / 1000000000) % (codeChips k.sys k.band * 65536)

/-- When a channel's next primary code period starts, on the clock of durations. -/
def State.codeStart (s : State) (c : Nat) : Nat :=
  let k := s.gnsCh c
  s.clk + ceilDiv ((codeChips k.sys k.band * 65536 - s.codeNow c) * 1000000000) (chipRate k.band)

/-- n of R130 that the registers ask of a channel: SPACING, or the signal's default; a value above 64 acts as 64 (of SPACING a DESIGN
CHOICE, log entry 99). -/
def State.gapWanted (s : State) (c : Nat) : Nat :=
  let n := s.rd (R.GNS_CH_CFG_SPACING c)
  min 64 (if n ≠ 0 then n
    else max 1 (s.rd (if (s.gnsCh c).band = 0 then R.GNS_SPACING_SP_1M else R.GNS_SPACING_SP_10M)))

/-- n in force on a channel: early and late stand n/128 chip either side of prompt (R130). -/
def State.gapInForce (s : State) (c : Nat) : Nat :=
  let k := s.gnsCh c
  if k.gapAt ≤ s.clk then k.gap else k.gapOld

/-- A change of spacing acts at the start of the channel's next primary code period (R130). -/
def refreshGap (c : Nat) (s : State) : State :=
  let n := s.gapWanted c
  if n = (s.gnsCh c).gap then s
  else
    let old := s.gapInForce c
    let at_ := s.codeStart c
    s.modCh c (fun k => { k with gapOld := old, gap := n, gapAt := at_ })

/-- A write of GNS_SPACING. -/
def writeSpacing (w : Nat) (s : State) : State := chIds.foldl (fun s c => refreshGap c s) (s.storeReg false Reg.GNS_SPACING w)

/-- Starts a signal on a channel; its code phase counts from 0 until it is measured, handed over or predicted. -/
def startCh (c : Nat) (v : Ch) (sys band ant svid : Nat) (pinned : Bool) (s : State) : State :=
  let s := s.modCh c (fun k => { k with sys := sys, band := band, ant := ant, pinned := pinned, navFirst := false, code := 0, codeAt := s.clk })
  let n := s.gapWanted c
  let s := s.modCh c (fun k => { k with gapOld := n, gap := n, gapAt := s.clk })
  let s := s.wr (R.GNS_CH_STAT_NOTCHED c) (b01 (s.notchInLobe (portOf ant band)))
  (setCh c v s).wr (R.GNS_CH_STAT_SVID c) svid

/-! ### Sample ports (R120-R124) -/

/-- The noise rise above the baseline, and the jamming indicator (R144). -/
def judgeJam (n floor : Nat) (s : State) : State :=
  match (s.gnsPort n).baseline with
  | none => s
  | some b =>
    let lvl := satNat 8 (floor - b)
    let s := s.wr (R.GNS_PORT_JAM_LVL n) lvl
    let thr := s.rd (R.GNS_PORT_JAM_THR n)
    let jam := s.rd R.GNS_STAT_JAM
    if lvl ≥ thr ∧ bit jam n = false then (s.wr R.GNS_STAT_JAM (jam + 2 ^ n)).raise Evt.gns 2
    else if lvl + 8 < thr ∧ bit jam n = true then (s.wr R.GNS_STAT_JAM (jam - 2 ^ n)).raise Evt.gns 2
    else s

/-- A port is faulted (R124): its channels go to IDLE. -/
def portFault (n : Nat) (s : State) : State :=
  let s := s.modGnsPort n (fun k => { k with clean := 0 })
  if s.on (R.GNS_PORT_STAT_FAULT n) then s
  else
    let s := (s.hi (R.GNS_PORT_STAT_FAULT n)).raise Evt.gns 4
    let s := s.wr R.GNS_STAT_PORT_FAULT (s.rd R.GNS_STAT_PORT_FAULT ||| 2 ^ n)
    idleWhere (fun s c => s.chPort c = n) s

/-- The declared sample rate in 10 ksps (R122): RATE 3 is treated as 0. -/
def State.sampleRate (s : State) (n : Nat) : Nat :=
  match s.rd (R.GNS_PORT_CFG_RATE n) with
  | 1 => 4092
  | 2 => 2046
  | _ => 8184

/-- The nominal interval of 2^16 samples in 2^-16 ns (R123). -/
def State.epochSpan (s : State) (n : Nat) : Rat := mkRat (65536 * 65536 * 100000 : Nat) (s.sampleRate n)

/-- IF_OFS in force, in kHz: at most 10,000 either way (R153). -/
def State.ifOfs (s : State) (n : Nat) : Int := max (-10000) (min 10000 (s.rdSigned (R.GNS_PORT_CFG_IF_OFS n)))

/-- The value of a 4-bit sample code (R121): two's complement, or offset binary. -/
def sampleValue (offsetBinary : Bool) (code : BitVec 4) : Int := if offsetBinary then (code.toNat : Int) - 8 else code.toInt

/-- A captured complex sample of a port (R121): SPEC_INV negates Q. -/
def State.sampleOf (s : State) (n : Nat) (q : BitVec 4 × BitVec 4) : Int × Int :=
  let f := s.on (R.GNS_PORT_CFG_FMT n)
  let v := sampleValue f q.2
  (sampleValue f q.1, if s.on (R.GNS_PORT_CFG_SPEC_INV n) then -v else v)

/-- A run of one code: the code, and how many samples in a row have held it. -/
def codeRun (k : Nat × Nat) (code : Nat) : Nat × Nat := (code, if code = k.1 ∧ k.2 ≠ 0 then min 65536 (k.2 + 1) else 1)

/-- One sample is captured (R121): the mixer, which turns the band centre to zero, has made one more step. -/
def captureSample (s : State) (n : Nat) (k : GnsPort) (q : BitVec 4 × BitVec 4) : GnsPort :=
  let t := k.turn - mkRat (s.ifOfs n) (s.sampleRate n * 10)
  { k with
    iq := s.sampleOf n q, turn := t - t.floor
    codeI := codeRun k.codeI q.1.toNat, codeQ := codeRun k.codeQ q.2.toNat }

/-- LEVEL (R124, R153): the rms magnitude of the complex samples in 1/16 LSB (DEDUCED, log entry 99). -/
def State.levelOf (s : State) (n : Nat) (samples : List (BitVec 4 × BitVec 4)) : Nat :=
  let sq := samples.foldl (fun a q => let v := s.sampleOf n q; a + v.1 * v.1 + v.2 * v.2) 0
  satNat 8 (rnd (16 * sqrtRat (mkRat sq samples.length))).toNat

/-- The samples up to an epoch. -/
def takeIq (n : Nat) (samples : List (BitVec 4 × BitVec 4)) (s : State) : State :=
  let s' := s.modGnsPort n (fun k => samples.foldl (captureSample s n) k)
  if samples = [] then s' else s'.wr (R.GNS_PORT_STAT_LEVEL n) (s.levelOf n samples)

/-- I or Q has held one code for 2^16 samples in a row (R124). -/
def GnsPort.stuck (k : GnsPort) : Bool := decide (65536 ≤ k.codeI.2) || decide (65536 ≤ k.codeQ.2)

/-- The offset of the measured rate from the declared one, in 0.01 ppm, from the interval between two epochs (2^-16 ns; R122, R124). -/
def State.rateError (s : State) (n span : Nat) : Rat := if span = 0 then 0 else (s.epochSpan n / (span : Rat) - 1) * 100000000

/-- What a channel measures (R127): C/N0 in 0.01 dB-Hz, Doppler in mHz and code phase in 2^-16 chip, which it stood at on the clock of
durations at `at_`. -/
def measureCh (c cn0 : Nat) (dop : Int) (code at_ : Nat) (s : State) : State :=
  let s := (s.wr (R.GNS_CH_STAT_CN0 c) (satNat 16 cn0)).wr (R.GNS_CH_DOP_DOP c) (satBits 32 dop)
  s.modCh c (fun k => { k with code := code % (codeChips k.sys k.band * 65536), codeAt := at_ })

/-- The measurements of a port's channels at an epoch: in TRACK and NAV only, each dated by the epoch's stamp (R123, R127). -/
def measurePort (n : Nat) (meas : List GnssMeas) (s : State) : State :=
  meas.foldl (fun s m =>
    if (s.ch m.chan.val = .track ∨ s.ch m.chan.val = .nav) ∧ s.chPort m.chan.val = n then measureCh m.chan.val m.cn0 m.dop m.code
      ((s.gnsPort n).epochAt.getD s.clk) s else s) s

/-- The rate as the interval since the last epoch shows it (R122, R124): the first epoch shows none. -/
def judgeRate (n : Nat) (last : Option Nat) (s : State) : State :=
  match last with
  | none => s.hi (R.GNS_PORT_STAT_CLK_OK n)
  | some t =>
    let e := s.rateError n (s.clkOf (s.gnsPort n).stampAt - t)
    (s.wr (R.GNS_PORT_STAT_RATE_ERR n) (satBits 16 (rnd e))).wr (R.GNS_PORT_STAT_CLK_OK n) (b01 (decide (|e| ≤ 10000)))

/-- A port's 2^16th sample edge, stamped on its epoch channel, IC5 to IC8 (channels 69 to 72), in a coarse period and a bin (R120, R123,
R178): with it come the samples since the last one, the noise floor (0.25 dB) and what the channels have measured. -/
def gnssEpoch (n dc bin floor : Nat) (samples : List (BitVec 4 × BitVec 4)) (meas : List GnssMeas) (s : State) : State :=
  if s.gnsOn && s.portUsed n then
    let c := s.coarseNow + dc
    let s := s.waitTick (tickOfCoarse c)
    let e := s.capture (69 + n) c bin false
    let last := (s.gnsPort n).epochAt
    let s := (noteEdge (69 + n) e s).modGnsPort n (fun k => { k with stampAt := e.time, epochAt := some (s.clkOf e.time), awaitFrom := s.clkOf e.time })
    let s := measurePort n meas (judgeJam n floor (judgeRate n last (takeIq n samples s)))
    if s.on (R.GNS_PORT_STAT_CLK_OK n) = false ∨ (s.gnsPort n).stuck = true then portFault n s
    else s.modGnsPort n (fun k => { k with clean := k.clean + 1 })
  else s

def execGnssEpoch (n : Fin 4) (dc : Nat) (bin : Fin 64) (floor : Nat) (samples : List (BitVec 4 × BitVec 4)) (meas : List GnssMeas) :
    State → Res State :=
  go (gnssEpoch n.val dc bin.val floor samples meas)

/-- No epoch has arrived within twice the nominal interval on a port in use (R124). -/
def gnssPortFault (n : Nat) (s : State) : State :=
  if s.gnsOn && s.portUsed n then
    let s := s.waitClk ((s.gnsPort n).awaitFrom + (2 * s.epochSpan n).ceil.toNat)
    portFault n ((s.lo (R.GNS_PORT_STAT_CLK_OK n)).modGnsPort n (fun k => { k with epochAt := none }))
  else s

def execGnssPortFault (n : Fin 4) : State → Res State := go (gnssPortFault n.val)

/-- A port goes out of use: nothing of it is judged. -/
def portIdle (n : Nat) (s : State) : State :=
  let m := s.rd R.GNS_STAT_PORT_FAULT
  ((s.lo (R.GNS_PORT_STAT_CLK_OK n)).lo (R.GNS_PORT_STAT_FAULT n)).wr R.GNS_STAT_PORT_FAULT (if bit m n then m - 2 ^ n else m)

/-- A port comes into use: its epochs are awaited from now. -/
def portAwaits (n : Nat) (s : State) : State := s.modGnsPort n (fun k => { k with clean := 0, epochAt := none, awaitFrom := s.clk })

/-! ### Channels (R125-R129) -/

/-- Whether the firmware may plan a signal onto a channel (R126, R128, R147): the channel free, and room for the satellite in the antenna's
share. -/
def State.mayPlan (s : State) (c sys band ant svid : Nat) : Bool :=
  s.ch c = .idle && !s.reserved c && !s.on (R.GNS_CH_CFG_PIN c) && s.signalOk sys band ant && prnOk sys svid
    && s.hasRoom ant (sys * 256 + svid)

/-- Whether it may assign a channel a signal to search for (R125). -/
def State.mayAssign (s : State) (c sys band ant svid : Nat) : Bool :=
  s.mayPlan c sys band ant svid && (band = 0 || s.lowDirect ant)

/-- The firmware plan assigns an IDLE channel: high band, or low band where it is searched directly (R125, R126); the antenna keeps to its
share (R147). -/
def assignCh (c sys band ant svid : Nat) (s : State) : State :=
  if s.mayAssign c sys band ant svid then trimPool (startCh c .search sys band ant svid false s) else s

/-- A channel starts a low-band signal in PULL_IN with the code phase and the Doppler given (R125). -/
def startLow (l sys ant svid : Nat) (pinned : Bool) (code : Nat) (dop : Int) (s : State) : State :=
  let s := startCh l .pullIn sys 1 ant svid pinned s
  (s.wr (R.GNS_CH_DOP_DOP l) (satBits 32 dop)).modCh l (fun q => { q with code := code % (codeChips sys 1 * 65536) })

/-- A satellite's low band, handed over from its high-band channel `h`: the code phase of the same transmit instant, ten chips to one, and
the Doppler in the ratio of the band centres (R125). -/
def handOver (h l : Nat) (pinned : Bool) (s : State) : State :=
  let k := s.gnsCh h
  startLow l k.sys k.ant (s.rd (R.GNS_CH_STAT_SVID h)) pinned (s.codeNow h * 10)
    (rnd (mkRat (s.rdSigned (R.GNS_CH_DOP_DOP h) * 117645) 157542)) s

/-- The high-band channel of a satellite on an antenna that is in TRACK or NAV. -/
def State.highOf (s : State) (sys ant svid : Nat) : Option Nat :=
  chIds.find? (fun d => (s.ch d = .track || s.ch d = .nav) && (s.gnsCh d).band = 0 && (s.gnsCh d).ant = ant
    && s.satOf d = sys * 256 + svid)

/-- The firmware plan gives a channel a signal, or takes away the one it gave (R126). -/
def channelAssign (c : Nat) (sig : Option GnssSig) (s : State) : State :=
  match sig with
  | some g => assignCh c g.sys.val (b01 g.low) (b01 g.ant) g.svid.toNat s
  | none => if s.ch c ≠ .idle ∧ s.ch c ≠ .test ∧ (s.gnsCh c).pinned = false then idleCh c s else s

def execChannelAssign (c : Fin 160) (sig : Option GnssSig) : State → Res State := go (channelAssign c.val sig)

/-- A SEARCH channel detects its signal. -/
def detection (c cn0 : Nat) (dop : Int) (code : Nat) (s : State) : State :=
  if s.ch c = .search then measureCh c cn0 dop code s.clk (setCh c .pullIn s) else s

def execDetection (c : Fin 160) (cn0 : Nat) (dop : Int) (code : Nat) : State → Res State := go (detection c.val cn0 dop code)

/-- A pass of the planned window ends without detection. -/
def searchPassEnd (c : Nat) (s : State) : State := if s.ch c = .search then idleCh c s else s

def execSearchPassEnd (c : Fin 160) : State → Res State := go (searchPassEnd c.val)

/-- Whether channel `l` may take the low band of channel `c`'s satellite by handover (R125): it is free, or pinned to it. -/
def State.handoverOk (s : State) (c l : Nat) : Bool :=
  let k := s.gnsCh c
  let mine : Bool := s.on (R.GNS_CH_CFG_PIN l) && s.rd (R.GNS_CH_CFG_SYS l) = k.sys && s.rd (R.GNS_CH_CFG_BAND l) = 1
    && s.rd (R.GNS_CH_CFG_ANT l) = k.ant && s.rd (R.GNS_CH_CFG_SVID l) = s.rd (R.GNS_CH_STAT_SVID c)
  s.ch l = .idle && !s.reserved l && s.signalOk k.sys 1 k.ant
    && (if mine then s.pinRoom k.ant else !s.on (R.GNS_CH_CFG_PIN l) && s.hasRoom k.ant (s.satOf c))

/-- Whether a channel already has the low band of channel `c`'s satellite. -/
def State.lowHeld (s : State) (c : Nat) : Bool :=
  let k := s.gnsCh c
  chIds.any (fun l => s.ch l ≠ .idle && s.ch l ≠ .test && (s.gnsCh l).band = 1 && (s.gnsCh l).ant = k.ant && s.satOf l = s.satOf c)

/-- The channel that takes the low band of channel `c`'s satellite: one pinned to it, else the one the firmware names, else the first that
may (R125). -/
def State.lowFor (s : State) (c low : Nat) : Option Nat :=
  let free := chIds.filter (s.handoverOk c)
  match free.find? (fun l => s.on (R.GNS_CH_CFG_PIN l)) with
  | some l => some l
  | none => if s.handoverOk c low then some low else free.head?

/-- Code and carrier lock held for 100 ms: TRACK; a high-band channel hands its satellite's low band to a channel of the same antenna (R125,
R126). -/
def pullInLock (c cn0 : Nat) (dop : Int) (code low : Nat) (s : State) : State :=
  if s.ch c = .pullIn then
    let s := measureCh c cn0 dop code s.clk (setCh c .track s)
    match (s.gnsCh c).band, s.lowHeld c, s.lowFor c low with
    | 0, false, some l => trimPool (handOver c l (s.on (R.GNS_CH_CFG_PIN l)) s)
    | _, _, _ => s
  else s

def execPullInLock (c : Fin 160) (cn0 : Nat) (dop : Int) (code : Nat) (low : Fin 160) : State → Res State :=
  go (pullInLock c.val cn0 dop code low.val)

/-- No lock within 500 ms of PULL_IN. -/
def pullInTimeout (c : Nat) (s : State) : State :=
  if s.ch c = .pullIn then setCh c .search (s.waitClk ((s.gnsCh c).since + ms16 500)) else s

def execPullInTimeout (c : Fin 160) : State → Res State := go (pullInTimeout c.val)

/-- Time of week decoded with a passing check. -/
def navSync (c : Nat) (s : State) : State :=
  if s.ch c = .track then (setCh c .nav s).modCh c (fun k => { k with navFirst := true }) else s

def execNavSync (c : Fin 160) : State → Res State := go (navSync c.val)

/-- Carrier lock lost for 50 ms, or C/N0 below 18 dB-Hz for 1 s. -/
def channelLost (c : Nat) (s : State) : State := if s.ch c = .track ∨ s.ch c = .nav then setCh c .lost s else s

def execChannelLost (c : Fin 160) : State → Res State := go (channelLost c.val)

/-- Re-acquired by a narrow search. -/
def reacquire (c : Nat) (s : State) : State := if s.ch c = .lost then setCh c .pullIn s else s

def execReacquire (c : Fin 160) : State → Res State := go (reacquire c.val)

/-- 10 s in LOST. -/
def lostTimeout (c : Nat) (s : State) : State :=
  if s.ch c = .lost then idleCh c (s.waitClk ((s.gnsCh c).since + sec16 10)) else s

def execLostTimeout (c : Fin 160) : State → Res State := go (lostTimeout c.val)

/-- The next whole second of TS0. -/
def State.nextSecond (s : State) : Nat := (s.ts0 / 65536000000000 + 1) * 65536000000000

/-- The firmware plans a signal that a pin has displaced onto another free channel, if one exists (R129): in SEARCH, or a low-band signal in
PULL_IN as a handover has it (R125); with no high-band channel of the satellite in TRACK or NAV, the handover is from the channel the signal
has lost, whose code phase and Doppler are given (DESIGN CHOICE, log entry 106). -/
def replan (sys band ant svid code : Nat) (dop : Int) (s : State) : State :=
  match chIds.find? (fun d => s.mayPlan d sys band ant svid) with
  | some d =>
    trimPool (match band, s.highOf sys ant svid with
      | 1, some h => handOver h d false s
      | 1, none => if s.lowDirect ant then startCh d .search sys 1 ant svid false s else startLow d sys ant svid false code dop s
      | _, _ => startCh d .search sys band ant svid false s)
  | none => s

/-- Starts the signal a channel is pinned to (R126): in SEARCH, or in PULL_IN for a low-band signal whose high-band channel
is in TRACK or NAV (R125); a low-band signal that is not searched directly waits in IDLE for its handover.  The antenna keeps to its share
(R147): the firmware's channels make room. -/
def pinSignal (c : Nat) (s : State) : State :=
  let sys := s.rd (R.GNS_CH_CFG_SYS c)
  let band := s.rd (R.GNS_CH_CFG_BAND c)
  let ant := s.rd (R.GNS_CH_CFG_ANT c)
  let svid := s.rd (R.GNS_CH_CFG_SVID c)
  if s.signalOk sys band ant = false ∨ prnOk sys svid = false ∨ s.pinRoom ant = false then s
  else match band, s.highOf sys ant svid with
    | 1, some h => trimPool (handOver h c true s)
    | _, _ => if band = 0 ∨ s.lowDirect ant = true then trimPool (startCh c .search sys band ant svid true s) else s

/-- A channel's pin takes effect: the firmware's signal is dropped and planned onto another channel (R129). -/
def startPinned (c : Nat) (s : State) : State :=
  let k := s.gnsCh c
  let svid := s.rd (R.GNS_CH_STAT_SVID c)
  let code := s.codeNow c
  let dop := s.rdSigned (R.GNS_CH_DOP_DOP c)
  let used : Bool := s.ch c ≠ .idle && !k.pinned
  let s := if s.ch c = .idle then s else idleCh c s
  let s := pinSignal c (s.modCh c (fun k => { k with pinAt := none }))
  if used then replan k.sys k.band k.ant svid code dop s else s

/-- Pinned channels whose signal may be tracked again start afresh (R124, R151). -/
def restartPins (s : State) : State :=
  chIds.foldl (fun s c =>
    if s.on (R.GNS_CH_CFG_PIN c) = true ∧ s.reserved c = false ∧ s.ch c = .idle ∧ (s.gnsCh c).pinAt = none then pinSignal c s else s) s

/-- The fault clears after 16 clean epochs in a row, and the port's channels are planned afresh: the pinned ones at once (R124). -/
def gnssPortRecover (n : Nat) (s : State) : State :=
  if s.on (R.GNS_PORT_STAT_FAULT n) && decide (16 ≤ (s.gnsPort n).clean) then
    let m := s.rd R.GNS_STAT_PORT_FAULT
    restartPins ((s.lo (R.GNS_PORT_STAT_FAULT n)).wr R.GNS_STAT_PORT_FAULT (if bit m n then m - 2 ^ n else m))
  else s

def execGnssPortRecover (n : Fin 4) : State → Res State := go (gnssPortRecover n.val)

/-- A write of GNS_PORT_CFG: a port taken out of use drops its channels, one put in use learns its baseline (R126, R144). -/
def writePortCfg (n w : Nat) (s : State) : State :=
  let was := s.on (R.GNS_PORT_CFG_EN n)
  let rate := s.sampleRate n
  let s := s.storeReg false (Reg.GNS_PORT_CFG n) w
  let now := s.on (R.GNS_PORT_CFG_EN n)
  if now && !was then restartPins ((portAwaits n s).modGnsPort n (fun k => { k with learnAt := some s.clk }))
  else if was && !now then dropUnusable (portIdle n s)
  else if s.sampleRate n = rate then s
  else portAwaits n s

/-- A write of GNS_CH_CFG outside TEST (R126, R128, R129).  DESIGN CHOICE (log entry 106): RSV set on a channel in use takes it to IDLE at once,
since a reserved channel is idle and no rule says when it becomes so; a PIN written to a channel that an earlier PIN has in use waits for
the next whole second of TS0 too, as R129 has it for one that the firmware uses. -/
def applyChCfg (c w : Nat) (s : State) : State :=
  let pin := (R.GNS_CH_CFG_PIN c).of w = 1
  if pin ∧ s.reserved c = true then s.hi (R.GNS_CH_STAT_CFG_ERR c)
  else
    let was := s.on (R.GNS_CH_CFG_PIN c)
    let s := refreshGap c ((noteFull s).storeReg false (Reg.GNS_CH_CFG c) w)
    if s.reserved c then (if s.ch c = .idle then s else idleCh c s).modCh c (fun k => { k with pinAt := none })
    else if pin then
      if s.ch c = .idle then startPinned c s else s.modCh c (fun k => { k with pinAt := some s.nextSecond })
    else if was then (if (s.gnsCh c).pinned then idleCh c s else s).modCh c (fun k => { k with pinAt := none })
    else s

/-- A write of GNS_CH_CFG: CFG_ERR clears; in TEST the write is held (R128): of several held writes the last one takes effect (DESIGN CHOICE, log
entry 106). -/
def writeChCfg (c w : Nat) (s : State) : State :=
  let s := s.lo (R.GNS_CH_STAT_CFG_ERR c)
  if s.ch c = .test then s.modCh c (fun k => { k with heldCfg := some w }) else applyChCfg c w s

def execChannelPin (c : Fin 160) (w : Word) : State → Res State :=
  go (writeChCfg c.val ((R.GNS_CH_CFG_PIN c.val).setIn w.toNat))

/-- A pending PIN takes effect at its whole second (R129). -/
def pinApply (c : Nat) (s : State) : State :=
  match (s.gnsCh c).pinAt with
  | some t => startPinned c (s.waitTs0 t)
  | none => s

def execPinApply (c : Fin 160) : State → Res State := go (pinApply c.val)

/-- A borrowed channel comes back from Watch: IDLE, with any held write taking effect (R126, R128). -/
def returnCh (c : Nat) (s : State) : State :=
  let held := (s.gnsCh c).heldCfg
  let s := (idleCh c s).modCh c (fun k => { k with heldCfg := none })
  match held with
  | some w => applyChCfg c w s
  | none => s

/-! ### Navigation records (R131-R134) -/

/-- Signal code of a system's band (R119). -/
def sigCode (sys band : Nat) : Nat :=
  match sys with
  | 1 => 2 + band
  | 2 => 4 + band
  | _ => band

/-! ### Checks of a message unit (R131) -/

/-- The first `n` bits of a payload, in order of reception. -/
def payloadBits (n : Nat) (bs : List Nat) : List Bool := (List.range n).map (fun i => bit (bs.getD (i / 8) 0) (7 - i % 8))

/-- CRC-24Q of bits in order of reception (PRESUMED polynomial, log entry 99). -/
def crc24q (bits : List Bool) : Nat :=
  bits.foldl (fun c b => let d := c * 2 % 16777216; if bit c 23 = b then d else d ^^^ 0x864CFB) 0

/-- Bits as a number, the first most significant. -/
def bitsNat (bits : List Bool) : Nat := bits.foldl (fun a b => a * 2 + b01 b) 0

/-- The data bits of each parity bit 25 to 30 of an LNAV word, and whether the word before gives its bit 29 (else 30) to it (PRESUMED, log
entry 99). -/
def lnavParity : List (Bool × List Nat) :=
  [(true, [1, 2, 3, 5, 6, 10, 11, 12, 13, 14, 17, 18, 20, 23]), (false, [2, 3, 4, 6, 7, 11, 12, 13, 14, 15, 18, 19, 21, 24]),
   (true, [1, 3, 4, 5, 7, 8, 12, 13, 14, 15, 16, 19, 20, 22]), (false, [2, 4, 5, 6, 8, 9, 13, 14, 15, 16, 17, 20, 21, 23]),
   (false, [1, 3, 5, 6, 7, 9, 10, 14, 15, 16, 17, 18, 21, 22, 24]), (true, [3, 5, 6, 8, 9, 10, 11, 13, 15, 19, 22, 23, 24])]

/-- Whether an LNAV word passes its parity, after a word whose last two bits were `d29` and `d30`. -/
def lnavWordOk (d29 d30 : Bool) (w : List Bool) : Bool :=
  let data (i : Nat) : Bool := w.getD (i - 1) false ^^ d30
  (lnavParity.zipIdx).all (fun p => w.getD (24 + p.2) false = p.1.2.foldl (fun a i => a ^^ data i) (if p.1.1 then d29 else d30))

/-- WORDS of an LNAV subframe: bit w for word w + 1 (R132); the word before the first ended in zeros (PRESUMED, log entry 99). -/
def lnavWords (bits : List Bool) : Nat :=
  (List.range 10).foldl (fun m w =>
    let prev := if w = 0 then [] else (bits.drop (30 * w - 2)).take 2
    m + (if lnavWordOk (prev.getD 0 false) (prev.getD 1 false) ((bits.drop (30 * w)).take 30) then 2 ^ w else 0)) 0

/-- The bits a signal's CRC-24Q covers; it stands behind them (PRESUMED, log entry 99). -/
def crcSpan (sig : Nat) (sub3 : Bool) : Nat :=
  match sig with
  | 1 => 276
  | 2 => 196
  | 3 => 214
  | 4 => if sub3 then 240 else 576
  | _ => 264

/-- The payload of a message unit (R131, R132): the symbols received, an inverted polarity corrected, through the signal's forward error
correction; L1 C/A has none. -/
def navPayload (sig : Nat) (inv sub3 : Bool) (symbols : List Nat) : List Nat :=
  let m := if inv then symbols.map (fun b => 255 - b % 256) else symbols
  if sig = 0 then m else Config.fecDecode sig sub3 m

/-- WORDS and CHECK of a unit (R131, R132): 1 pass, 2 fail, 3 some LNAV words failed. -/
def navCheck (sig : Nat) (sub3 : Bool) (payload : List Nat) : Nat × Nat :=
  if sig = 0 then
    let w := lnavWords (payloadBits 300 payload)
    (w, if w = 1023 then 1 else if w = 0 then 2 else 3)
  else
    let n := crcSpan sig sub3
    let bits := payloadBits (n + 24) payload
    (0, if crc24q (bits.take n) = bitsNat (bits.drop n) then 1 else 2)

/-- Payload bits of a message unit (R131). -/
def navBits (sig : Nat) (sub3 : Bool) : Nat :=
  match sig with
  | 0 => 300
  | 1 => 300
  | 2 => 228
  | 3 => 238
  | 4 => if sub3 then 264 else 600
  | _ => 288

/-- Keeps `n` bits of a payload, most significant first, in 96 bytes; the rest are 0 (R132). -/
def payloadBytes (n : Nat) (bs : List Nat) : List Nat :=
  (List.range 96).map (fun i =>
    if 8 * i + 8 ≤ n then bs.getD i 0
    else if 8 * i < n then bs.getD i 0 / 2 ^ (8 - n % 8) * 2 ^ (8 - n % 8)
    else 0)

/-- The 128 bytes of a record (R132). -/
def navRecordBytes (s : State) (c : Nat) (inv sub3 : Bool) (cn0 t : Nat) (payload : List Nat) : List Nat :=
  let k := s.gnsCh c
  let sig := sigCode k.sys k.band
  let check := navCheck sig sub3 payload
  [1, k.sys, sig, s.rd (R.GNS_CH_STAT_SVID c), c, portOf k.ant k.band, check.2, b01 inv + 2 * b01 k.navFirst]
    ++ le 2 (navBits sig sub3) ++ le 2 check.1 ++ le 2 cn0 ++ le 2 s.gnss.navSeq
    ++ ktBytes t ++ [0, 0, 0, 0] ++ payloadBytes (navBits sig sub3) payload

/-- Puts a record into the host buffer: with 511 unread, the oldest is overwritten (R133, R134). -/
def pushNav (r : List Nat) (s : State) : State :=
  let wr := s.rd R.GNS_NAV_WR_WR
  let rd := s.rd R.GNS_NAV_RD_RD
  let s := { s with mem := writeBytes s.mem (0x60000 + wr * 128) r }
  let s := s.wr R.GNS_NAV_WR_WR (wr + 1)
  if (wr + 512 - rd) % 512 = 511 then
    let s := { s with gnss := { s.gnss with rdAt := some s.tick.count } }
    ((s.wr R.GNS_NAV_RD_RD (rd + 1)).wr R.GNS_NAV_LOST_LOST (satNat 32 (s.rd R.GNS_NAV_LOST_LOST + 1))).raise Evt.gns 32
  else s

/-- A write of GNS_NAV_RD: one at the tick of an advance is discarded (R134). -/
def writeNavRd (w : Nat) (s : State) : State :=
  if s.gnss.rdAt = some s.tick.count then s else s.storeReg false Reg.GNS_NAV_RD w

/-- Whether the host takes a copy (R133). -/
def State.navWanted (s : State) (sys check : Nat) : Bool :=
  bit (s.rd R.GNS_NAV_CTL_SYS) sys && (check = 1 || s.on R.GNS_NAV_CTL_FAILED)

/-- UTC seconds of OFS and the announced leap, with LEAP_AUTO (R141). -/
def armAnnounced (mid : Nat) (kind : Nat) (s : State) : State :=
  if s.on R.TSC_LEAP_CTL_ARMED then
    if s.leapUtc = mid ∧ s.tick.leap.kind = kind then s else s.raise Evt.gns 512
  else
    let s := (s.wr R.TSC_LEAP_UTC_LO_UTC mid).wr R.TSC_LEAP_UTC_HI_UTC (mid / 2 ^ 32)
    let w := R.TSC_LEAP_CTL_ARM.setIn (kind * 2 ^ R.TSC_LEAP_CTL_KIND.lsb
      + s.rd R.TSC_LEAP_CTL_SMEAR * 2 ^ R.TSC_LEAP_CTL_SMEAR.lsb)
    let s := writeLeapCtl w s
    s.raise Evt.gns (if s.on R.TSC_LEAP_CTL_ARMED then 1024 else 2048)

/-- Whether TS0 stands in a leap, its day or its smear (log entry 22). -/
def State.inLeap (s : State) : Bool :=
  s.on R.TSC_LEAP_CTL_WARN || s.on R.TSC_LEAP_CTL_IN_LEAP || s.on R.TSC_LEAP_CTL_SMEARING

/-- A TAI - UTC value accepted from 3 satellites (R141). -/
def acceptUtc (p : UtcParams) (s : State) : State :=
  let ann := match p.fut with
    | some f => f.2 ≠ p.cur
    | none => false
  let fut := match p.fut with
    | some f => f.2
    | none => 0
  let s := (s.wr R.GNS_UTC_TAI_UTC (ofSigned 8 p.cur)).wr R.GNS_UTC_TAI_UTC_F (ofSigned 8 fut)
  let s := (s.hi R.GNS_UTC_VALID).wr R.GNS_UTC_ANNOUNCED (b01 ann)
  let s := if s.on R.GNS_CTL_UTC_AUTO then
      if !s.on R.TSC_UTC_OFS_VALID then writeUtcOfs (ofSigned 16 p.cur * 2 ^ R.TSC_UTC_OFS_OFS.lsb) s
      else if s.utcOfs ≠ p.cur ∧ s.inLeap = false then s.raise Evt.gns 512
      else s
    else s
  match p.fut with
  | some f => if ann && s.on R.GNS_CTL_LEAP_AUTO then armAnnounced f.1 (if f.2 > p.cur then 1 else 2) s else s
  | none => s

/-- UTC parameters of one satellite of REF_SYS, from a record that passed its check (R141). -/
def takeUtc (sys svid : Nat) (u : UtcWord) (s : State) : State :=
  if sys = s.refSys then
    let k : Int := if sys = 2 then 33 else 19
    let p : UtcParams := { cur := u.dtLS + k, fut := u.fut.map (fun f => (f.1, f.2 + k)) }
    let sat := sys * 256 + svid
    let sats := sat :: s.gnss.utcHeard.filter (fun v => v ≠ sat && v / 256 = sys)
    let s := { s with gnss := { s.gnss with utc := IMap.put {} s.gnss.utc sat p, utcHeard := sats } }
    if (sats.filter (fun v => IMap.get {} s.gnss.utc v = p)).length ≥ 3 then acceptUtc p s else s
  else s

/-- The newest record of a signal of a satellite; the next one takes the next sequence number (R133). -/
def keepNav (k : Nat) (r : List Nat) (s : State) : State :=
  { s with gnss := { s.gnss with navSeq := (s.gnss.navSeq + 1) % 65536, navLast := IMap.put [] s.gnss.navLast k r } }

/-- A message unit is received, its symbols packed in bytes (R131-R134, R141). -/
def navRecord (c : Nat) (inv sub3 : Bool) (cn0 t : Nat) (symbols : List Nat) (utc : Option UtcWord) (s : State) : State :=
  if s.ch c = .nav then
    let k := s.gnsCh c
    let svid := s.rd (R.GNS_CH_STAT_SVID c)
    let payload := navPayload (sigCode k.sys k.band) inv sub3 symbols
    let check := (navCheck (sigCode k.sys k.band) sub3 payload).2
    let r := navRecordBytes s c inv sub3 cn0 t payload
    let s := s.modCh c (fun k => { k with navFirst := false })
    let s := keepNav (sigCode k.sys k.band * 1024 + k.sys * 256 + svid) r s
    let s := if s.navWanted k.sys check then pushNav r s else s
    match utc with
    | some u => if check = 1 then takeUtc k.sys svid u s else s
    | none => s
  else s

def execNavRecord (c : Fin 160) (inv sub3 : Bool) (cn0 : BitVec 16) (t : Nat) (symbols : List Byte) (utc : Option UtcWord) :
    State → Res State :=
  go (navRecord c.val inv sub3 cn0.toNat t (natBytes symbols) utc)

/-! ### Solutions (R135-R146) -/

/-- K of R138 in seconds. -/
def sysEpoch (sys : Nat) : Nat :=
  match sys with
  | 1 => 935280019
  | 2 => 1136073633
  | _ => 315964819

/-- MODE of an antenna's position: 3 is treated as 0. -/
def State.posMode (s : State) (a : Nat) : Nat :=
  if s.rd (R.GNS_POS_CTL_MODE a) = 3 then 0 else s.rd (R.GNS_POS_CTL_MODE a)

/-- A position is known when surveyed or fixed (R139). -/
def State.posKnown (s : State) (a : Nat) : Bool :=
  s.rd (R.GNS_POS_CTL_STATE a) = 2 || s.rd (R.GNS_POS_CTL_STATE a) = 3

/-- The exclusion bit of a satellite (R127). -/
def State.excludedBit (s : State) (sys svid : Nat) : Bool :=
  match sys with
  | 0 => bit (s.rd R.GNS_EXCL_GPS_X) (svid - 1)
  | 1 => if svid ≤ 32 then bit (s.rd R.GNS_EXCL_GAL_LO_X) (svid - 1) else bit (s.rd R.GNS_EXCL_GAL_HI_X) (svid - 33)
  | 2 => if svid ≤ 32 then bit (s.rd R.GNS_EXCL_BDS_LO_X) (svid - 1) else bit (s.rd R.GNS_EXCL_BDS_HI_X) (svid - 33)
  | _ => bit (s.rd R.GNS_EXCL_QZS_X) (svid - 193)

/-- A threshold of GNS_SPF_THR: 0 is treated as 1. -/
def thr1 (n : Nat) : Nat := max 1 n

/-- Port delay in 2^-16 ns: the written one and the fused one (R137). -/
def State.portDelay (s : State) (n : Nat) : Rat :=
  mkRat (s.rd (R.GNS_PORT_DLY_DLY n) * 65536 : Nat) 1000 + mkRat (Config.portDelay n : Nat) 1

/-- The group delay at the band's centre of a port's engaged notches in the main lobe, in 2^-16 ns (R143). -/
def State.notchDelay (s : State) (n : Nat) : Int :=
  (List.range 4).foldl (fun a k =>
    let f := s.rdSigned (R.GNS_NOTCH_FREQ (n * 4 + k))
    if bit (s.rd (R.GNS_NOTCH_CTL_ENGAGED n)) k && decide (f.natAbs ≤ lobe (n % 2)) then
      a + Config.notchDelay f (s.rd (R.GNS_NOTCH_CTL_WIDTH n)) else a) 0

/-- What is removed from every measurement on a port: its delays and its notches' (R137, R143). -/
def State.measDelay (s : State) (n : Nat) : Rat := s.portDelay n + (s.notchDelay n : Rat)

/-- The channel of an antenna that may bring a satellite's band to a solution (R127): in NAV, above the C/N0 mask. -/
def State.usable (s : State) (a band : Nat) (v : GnssSat) : Option Nat :=
  chIds.find? (fun c => s.ch c = .nav && (s.gnsCh c).ant = a && (s.gnsCh c).band = band
    && s.satOf c = v.sys.val * 256 + v.svid.toNat && decide (s.rd R.GNS_MASK_CN0 * 100 ≤ s.rd (R.GNS_CH_STAT_CN0 c)))

/-- A satellite as it is used in a solution: its system and PRN, the channels it is used on, whether ionosphere-free, REF_SYS time at E as
it gives it (2^-16 ns), its weight, its C/N0 (0.01 dB-Hz). -/
structure SatUse where
  sys : Nat
  svid : Nat
  chans : List Nat
  dual : Bool
  t : Rat
  w : Nat
  cn0 : Nat
deriving DecidableEq, Repr

/-- The distance of two positions (cm) in 2^-16 ns of light travel (log entry 99). -/
def lightTime (p q : Int × Int × Int) : Rat :=
  let d2 := (p.1 - q.1) ^ 2 + (p.2.1 - q.2.1) ^ 2 + (p.2.2 - q.2.2) ^ 2
  sqrtRat (mkRat d2 1) * mkRat (65536 * 10000000) 299792458

/-- A band's centre in mHz (R119). -/
def centre (band : Nat) : Nat := if band = 0 then 1575420000000 else 1176450000000

/-- A transmit time that channel `c` read at its port's last epoch stamp, brought to epoch `e` by what lies between the two (R123, R138):
transmit time runs on at 1 + Doppler / centre (DEDUCED, log entry 106). -/
def State.txAt (s : State) (e c : Nat) (tx : Int) : Rat :=
  match (s.gnsPort (s.chPort c)).epochAt with
  | some t => (tx : Rat) + (((s.clkOf e : Int) - (t : Int) : Int) : Rat) * (1 + mkRat (s.rdSigned (R.GNS_CH_DOP_DOP c)) (centre (s.gnsCh c).band))
  | none => tx

/-- A satellite's measurement at epoch `e` with the delays removed (R137): ionosphere-free where both bands are usable, else with the broadcast
ionosphere model, and with ISB_BCAST brought to REF_SYS time; none where no channel may bring it (R127).  `at_` is the antenna's position. -/
def State.useSat (s : State) (a word e : Nat) (at_ : Int × Int × Int) (v : GnssSat) : Option SatUse :=
  let hi := s.usable a 0 v
  let lo := s.usable a 1 v
  let mh (c : Nat) := s.txAt e c v.txHigh + s.measDelay (portOf a 0)
  let ml (c : Nat) := s.txAt e c v.txLow + s.measDelay (portOf a 1)
  let bias : Int := if v.sys.val ≠ word % 4 ∧ bit word 3 = true then v.isbCast else 0
  let made (t : Rat) (c : Nat) (cs : List Nat) (dual : Bool) : SatUse :=
    { sys := v.sys.val, svid := v.svid.toNat, chans := c :: cs, dual := dual, t := t + lightTime v.pos at_ + ((v.corr + bias : Int) : Rat)
      w := max 1 v.weight, cn0 := s.rd (R.GNS_CH_STAT_CN0 c) }
  if !v.healthy || decide (v.elev < min 90 (s.rd R.GNS_MASK_ELEV)) || s.excludedBit v.sys.val v.svid.toNat then none
  else match hi, lo with
    | some h, some l => some (made (mkRat 226061 100000 * mh h - mkRat 126061 100000 * ml l) h [l] true)
    | some h, none => some (made (mh h + (v.ionoHigh : Rat)) h [] false)
    | none, some l => some (made (ml l + (v.ionoLow : Rat)) l [] false)
    | none, none => none

/-- The satellites of a fix, each once, at most 40 of them in one solution (R152). -/
def State.usedSats (s : State) (a word e : Nat) (at_ : Int × Int × Int) (fix : GnssFix) : List SatUse :=
  ((fix.sats.filterMap (s.useSat a word e at_)).foldl (fun l v =>
    if l.any (fun q => q.sys = v.sys && q.svid = v.svid) then l else l ++ [v]) []).take 40

/-- The satellites of a fix as they are used from a position: without one, none. -/
def State.satsFrom (s : State) (a word e : Nat) (at_ : Option (Int × Int × Int)) (fix : GnssFix) : List SatUse :=
  match at_ with
  | some p => s.usedSats a word e p fix
  | none => []

/-- The weighted mean of what satellites give (2^-16 ns). -/
def meanTime (us : List SatUse) : Rat :=
  us.foldl (fun a v => a + (v.w : Rat) * v.t) 0 / ((us.foldl (fun a v => a + v.w) 0 : Nat) : Rat)

/-- The satellites that give one time in a fit with those of a system: all of them where broadcast offsets have brought them to REF_SYS time,
else that system's own, since its bias is estimated (R137). -/
def sharing (word sys : Nat) (us : List SatUse) : List SatUse := if bit word 3 then us else us.filter (fun v => v.sys = sys)

/-- REF_SYS time at E by the weighted fit (2^-16 ns), one bias for each other system estimated with it (R137): its own satellites settle it.
Where none is in use the biases are free values (log entry 106). -/
def fitTime (word sec : Nat) (us : List SatUse) : Rat :=
  let own := sharing word (word % 4) us
  if own = [] then meanTime (us.map (fun v => { v with t := v.t - (Config.isbAlone v.sys sec : Rat) })) else meanTime own

/-- A satellite's post-fit residual (2^-16 ns). -/
def residual (word : Nat) (us : List SatUse) (v : SatUse) : Rat := v.t - meanTime (sharing word v.sys us)

/-- The satellites a fit excludes: in each system the worst, where its residual exceeds the threshold (R139). -/
def excluded (word thr : Nat) (us : List SatUse) : List SatUse :=
  [0, 1, 2, 3].filterMap (fun y =>
    ((us.filter (fun v => v.sys = y && decide ((thr : Rat) < |residual word us v|))).foldl (fun best v => match best with
      | none => some v
      | some w => if |residual word us w| < |residual word us v| then some v else some w) none))

/-- The systems but REF_SYS among satellites: each has an inter-system bias (R137). -/
def otherSystems (word : Nat) (us : List SatUse) : Nat := ([0, 1, 2, 3].filter (fun y => y ≠ word % 4 && us.any (fun v => v.sys = y))).length

/-- What a solution comes to: the satellites used with their residuals, those excluded, REF_SYS time at E, the least number of satellites it
needs, and the position of the navigation solution. -/
structure Solved where
  used : List SatUse
  resid : List (Nat × Rat)
  excl : List SatUse
  t : Rat
  least : Nat
  nav : Option (Int × Int × Int)
deriving DecidableEq, Repr

/-- The least number of satellites of a valid solution (R139). -/
def leastSats (known : Bool) (word : Nat) (us : List SatUse) : Nat :=
  if known then 1 + (if bit word 3 then 0 else otherSystems word us) else 4

/-- The solution of epoch `e` at an antenna (R139): the worst satellite of each system whose residual exceeds RES_THR is excluded, and the
solution is made again without it: where the position is not known, at the position that this gives. -/
def State.solve (s : State) (a word e : Nat) (known : Option (Int × Int × Int)) (fix : GnssFix) : Solved :=
  let us := s.satsFrom a word e (known.or fix.nav) fix
  let ex := excluded word (thr1 (s.rd R.GNS_SPF_THR_RES_THR) * 65536) us
  let nav := if ex = [] then fix.nav else fix.again.or fix.nav
  let us := (s.satsFrom a word e (known.or nav) fix).filter (fun v => !ex.any (fun q => q.sys = v.sys && q.svid = v.svid))
  { used := us, resid := us.map (fun v => (v.sys, residual word us v)), excl := ex, t := fitTime word (e / 65536000000000) us
    least := leastSats known.isSome word us, nav := nav }

/-- The mean of the squared post-fit residuals. -/
def Solved.meanSq (r : Solved) : Rat :=
  if r.used = [] then 0 else r.resid.foldl (fun a v => a + v.2 * v.2) 0 / ((r.used.length : Nat) : Rat)

/-- A second satellite of a system would need exclusion (R145). -/
def Solved.needsMore (r : Solved) (thr : Nat) : Bool :=
  r.resid.any (fun v => decide ((thr : Rat) < |v.2|) && r.excl.any (fun q => q.sys = v.1))

/-- x of R138 in 2^-16 ns, by REF_SYS and UTC_STEER as they stood at the epoch. -/
def solX (word e : Nat) (t : Rat) (poly : Int) : Int :=
  rnd (((e : Int) - (sec16 (sysEpoch (word % 4)) : Nat) : Int) - t) - (if bit word 2 then poly else 0)

/-- NOTCHED of every channel on a port (R143). -/
def markNotched (n : Nat) (s : State) : State :=
  chIds.foldl (fun s c => if s.ch c ≠ .idle ∧ s.chPort c = n then s.wr (R.GNS_CH_STAT_NOTCHED c) (b01 (s.notchInLobe n)) else s) s

/-- The power check (R145): C/N0 in 0.01 dB-Hz of the satellites used, and of every channel they are used on. -/
def powerFails (cs all : List Nat) : Bool :=
  let n := cs.length
  let sum := cs.foldl (· + ·) 0
  let sq := cs.foldl (fun a c => a + c * c) 0
  (decide (6 ≤ n) && decide (n * sq < sum * sum + n * n * 10000)) || all.any (fun c => decide (5500 < c))

/-- Raises the spoofing indication for an antenna (R146). -/
def raiseSpoof (a fails : Nat) (s : State) : State :=
  let m := s.rd R.GNS_STAT_SPOOF
  let s := s.modAnt a (fun k => { k with passFrom := none })
  if bit m a then s
  else ((s.wr R.GNS_STAT_SPOOF (m + 2 ^ a)).raise Evt.gns 1).logRec 0x0401 a 0 [fails]

/-- RES_THR in 2^-16 ns. -/
def State.resThr (s : State) : Nat := thr1 (s.rd R.GNS_SPF_THR_RES_THR) * 65536

/-- Whether two positions (cm) lie more than `m` metres apart. -/
def farApart (m : Nat) (p q : Int × Int × Int) : Bool :=
  decide (((m * 100) ^ 2 : Nat) < (p.1 - q.1) ^ 2 + (p.2.1 - q.2.1) ^ 2 + (p.2.2 - q.2.2) ^ 2)

/-- The checks of R145 that fail for an antenna's own solution, as bits of ENABLES; `raim` says the residual check runs, `at_` is the
position the antenna is known to have. -/
def State.ownChecks (s : State) (at_ : Option (Int × Int × Int)) (raim : Bool) (r : Solved) (fix : GnssFix) : Nat :=
  b01 (raim && (decide (((s.resThr * s.resThr : Nat) : Rat) < r.meanSq) || r.needsMore s.resThr))
    + 2 * b01 (powerFails (r.used.map (·.cn0)) (r.used.flatMap (fun v => v.chans.map (fun c => s.rd (R.GNS_CH_STAT_CN0 c)))))
    + 8 * b01 (decide (|mkRat fix.freq 1000000 - s.ens.f0.y| > (thr1 (s.rd R.GNS_SPF_THR_CLK_THR) : Rat)))
    + 16 * b01 (match at_, r.nav with
        | some p, some q => farApart (thr1 (s.rd R.GNS_SPF_THR_POS_THR) * 10) p q
        | _, _ => false)

/-- The run of consecutive epochs on which the two antennas lie apart, both with valid solutions (R145). -/
def antennaRun (a e : Nat) (x : Int) (s : State) : State :=
  match (s.gnsAnt (1 - a)).lastX with
  | some (e', x') =>
    let apart := decide ((x - x').natAbs > thr1 (s.rd R.GNS_SPF_THR_ANT_THR) * 65536)
    let run := if s.gnss.antAt + sec16 1 = e then s.gnss.antRun else 0
    if e' = e then { s with gnss := { s.gnss with antRun := if apart then run + 1 else 0, antAt := e } } else s
  | none => s

/-- The antenna check at an epoch (R145). -/
def State.antFails (s : State) (e : Nat) (fix : GnssFix) : Bool :=
  (decide (4 ≤ s.gnss.antRun) && decide (s.gnss.antAt = e)) || (match fix.phaseRms with
    | some p => decide (p ≤ 50)
    | none => false)

/-- What REF_SYS, UTC_STEER and ISB_BCAST are, as one word (R140). -/
def State.refWord (s : State) : Nat := s.refSys + 4 * s.rd R.GNS_CTL_UTC_STEER + 8 * s.rd R.GNS_CTL_ISB_BCAST

/-- The same as they stood at the epoch of second `sec`: a later change waits for the next one (R140). -/
def State.refAtEpoch (s : State) (sec : Nat) : Nat := if s.gnss.refSec = some sec then s.gnss.refOld else s.refWord

/-- The position registers of an antenna, in cm. -/
def State.posRegs (s : State) (a : Nat) : Int × Int × Int :=
  (s.rdSigned (R.GNS_POS_POS (a * 3)), s.rdSigned (R.GNS_POS_POS (a * 3 + 1)), s.rdSigned (R.GNS_POS_POS (a * 3 + 2)))

/-- The position a solution of second `sec` takes as known (R135, R139): a later write waits for the next epoch; none in NAV mode. -/
def State.knownAt (s : State) (a sec : Nat) : Option (Int × Int × Int) :=
  if s.posKnown a && s.posMode a ≠ 2 then some (if (s.gnsAnt a).posSec = some sec then (s.gnsAnt a).posOld else s.posRegs a) else none

/-- Sum of two positions. -/
def addPos (p q : Int × Int × Int) : Int × Int × Int := (p.1 + q.1, p.2.1 + q.2.1, p.2.2 + q.2.2)

/-- A survey's average begins anew. -/
def GnsAnt.newSurvey (k : GnsAnt) (at_ : Option Nat) : GnsAnt := { k with surveyFrom := at_, surveySum := (0, 0, 0), surveyN := 0 }

/-- The survey and position state at an epoch: the position of the navigation solution joins the average (R135, R136). -/
def surveyEpoch (a : Nat) (nav : Option (Int × Int × Int)) (sigma : Nat) (s : State) : State :=
  if s.posMode a = 0 ∧ s.posKnown a = false then
    let s := if s.rd (R.GNS_POS_CTL_STATE a) = 1 then s
      else (s.wr (R.GNS_POS_CTL_STATE a) 1).modAnt a (·.newSurvey (some s.clk))
    let s := match nav with
      | some p => s.modAnt a (fun k => { k with surveySum := addPos k.surveySum p, surveyN := k.surveyN + 1 })
      | none => s
    s.wr (R.GNS_SURV_STAT_SIGMA a) (satNat 16 sigma)
  else s

/-- Writes the solution registers of an antenna. -/
def storeSolution (a e : Nat) (x : Int) (valid : Bool) (nsv nexcl : Nat) (flags : Nat) (fix : GnssFix) (s : State) : State :=
  let s := (s.wr (R.GNS_SOL_EPOCH_LO_SEC a) (e / 65536000000000)).wr (R.GNS_SOL_EPOCH_HI_SEC a) (e / 65536000000000 / 2 ^ 32)
  let s := if valid then (s.wr (R.GNS_SOL_OFS_LO_X a) (satBits 48 x)).wr (R.GNS_SOL_OFS_HI_X a) (satBits 48 x / 2 ^ 32) else s
  let s := ((s.wr (R.GNS_SOL_QUAL_SIGMA a) (satNat 16 fix.sigma)).wr (R.GNS_SOL_QUAL_NSV a) (satNat 8 nsv)).wr
    (R.GNS_SOL_QUAL_NEXCL a) (satNat 8 nexcl)
  (Reg.GNS_SOL_FLAGS a).fields.foldl (fun s f => s.wr f (f.of flags)) s

/-- USED and EXCLUDED of the antenna's channels. -/
def markUsed (a : Nat) (used excl : List Nat) (s : State) : State :=
  chIds.foldl (fun s c =>
    if s.ch c ≠ .idle ∧ (s.gnsCh c).ant = a then
      (s.wr (R.GNS_CH_STAT_USED c) (b01 (used.contains c))).wr (R.GNS_CH_STAT_EXCLUDED c) (b01 (excl.contains c))
    else s) s

/-- The first valid solution after a wake ends the sleep for R100 and settles HOT and LAST_START (R151). -/
def noteWake (s : State) : State :=
  match s.gnss.wakeAt with
  | none => s
  | some w =>
    let hot : Bool := s.gnss.lossHeld && decide (s.clk ≤ w + sec16 5)
    let s := (s.wr R.GNS_SLEEP_STAT_LAST_START (satNat 16 ((s.clk - w) / ms16 10))).wr R.GNS_SLEEP_STAT_HOT (b01 hot)
    { s with gnss := { s.gnss with wakeAt := none } }

/-- Loss detection of slots 0 and 1 goes on, from now (R100, R151). -/
def resumeLoss (s : State) : State :=
  if s.gnss.lossHeld then
    let s := { s with gnss := { s.gnss with lossHeld := false } }
    (s.modSlot 0 (fun k => { k with heard := s.clk })).modSlot 1 (fun k => { k with heard := s.clk })
  else s

/-- The flags word of a solution; `word` is REF_SYS and UTC_STEER as it used them. -/
def State.solFlags (s : State) (a e word : Nat) (valid dual noRaim spoof refChg : Bool) : Nat :=
  let disc := [portOf a 0, portOf a 1].any (fun n => match (s.gnsPort n).notchAt with
    | some t => decide (s.clkOf e ≤ t + sec16 1)
    | none => false)
  let lobe := s.notchInLobe (portOf a 0) || s.notchInLobe (portOf a 1)
  let jam := bit (s.rd R.GNS_STAT_JAM) (portOf a 0) || bit (s.rd R.GNS_STAT_JAM) (portOf a 1)
  b01 valid + 2 * b01 dual + 4 * b01 (s.posKnown a) + 8 * b01 lobe + 16 * b01 spoof + 32 * b01 noRaim
    + 64 * b01 refChg + 128 * b01 disc + 256 * (word % 8) + 2048 * b01 jam

/-- The antenna check fails for the other antenna as well; its solution of the same epoch carries the indication, delivered already or not
(R145, R146). -/
def spoofOther (o e : Nat) (s : State) : State :=
  let s := raiseSpoof o 4 s
  if (s.gnsAnt o).epoch = some (e / 65536000000000) then
    let t := s.clkOf e
    (s.hi (R.GNS_SOL_FLAGS_SPOOF o)).modSlot o (fun k => { k with inbox := k.inbox.map (fun q => if q.t = t then { q with spoof := true } else q) })
  else s

/-- The registers and the record of a solved epoch: what a solution reports (R127, R138-R140, R143, R145, R146). -/
def reportSol (a e word : Nat) (r : Solved) (x : Int) (valid : Bool) (fix : GnssFix) (s : State) : State :=
  let refChg := match (s.gnsAnt a).refSeen with
    | some w => decide (w ≠ word)
    | none => false
  let s := s.modAnt a (fun k => { k with refSeen := some word })
  let dual := !r.used.isEmpty && r.used.all (·.dual)
  let noRaim := decide (r.used.length < r.least + 3)
  let s := storeSolution a e x valid r.used.length r.excl.length
    (s.solFlags a e word valid dual noRaim (bit (s.rd R.GNS_STAT_SPOOF) a) refChg) fix s
  let s := markUsed a (r.used.flatMap (·.chans)) (r.excl.flatMap (·.chans)) s
  let m := s.rd R.GNS_STAT_SOL
  s.wr R.GNS_STAT_SOL (m - (if bit m a then 2 ^ a else 0) + (if valid then 2 ^ a else 0))

/-- The spoofing checks of an epoch (R145, R146). -/
def checkSpoof (a e : Nat) (at_ : Option (Int × Int × Int)) (r : Solved) (fix : GnssFix) (s : State) : State :=
  let own := s.ownChecks at_ (decide (r.least + 3 ≤ r.used.length)) r fix
  let fails := (own + 4 * b01 (s.antFails e fix)) &&& s.rd R.GNS_SPF_CTL_ENABLES
  let s := if fails ≠ 0 then raiseSpoof a fails s
    else s.modAnt a (fun k => { k with passFrom := some (k.passFrom.getD (s.clkOf e)) })
  if bit fails 2 then spoofOther (1 - a) e s else s

/-- What an antenna keeps of a fix: elevations and ephemeris (R147, R149). -/
def GnsAnt.keep (k : GnsAnt) (sec : Nat) (fix : GnssFix) : GnsAnt :=
  { k with
    epoch := some sec, eph := fix.eph
    elev := fix.sats.foldl (fun m v => IMap.put 0 m (v.sys.val * 256 + v.svid.toNat) v.elev) [] }

/-- The stamp of a whole second of TS0, at the tick TS0 came to it (R39). -/
def State.stampOfSecond (s : State) (e : Nat) : Stamp := s.stampAt (s.tickBack (s.ts0 - e)) e

/-- The solution of antenna `a` at its next epoch (R137-R141, R145, R146).  With no position to work from there is none. -/
def solveAt (a e : Nat) (fix : GnssFix) (s : State) : State :=
  let sec := e / 65536000000000
  let word := s.refAtEpoch sec
  let known := s.knownAt a sec
  let r := s.solve a word e known fix
  let s := surveyEpoch a r.nav fix.surveySigma s
  let valid := decide (r.least ≤ r.used.length)
  let x := solX word e r.t fix.poly
  let s := s.modAnt a (fun k => { k.keep sec fix with lastX := if valid then some (e, x) else k.lastX })
  let s := checkSpoof a e known r fix (if valid then antennaRun a e x s else s)
  let s := reportSol a e word r x valid fix s
  if valid then
    let s := s.modAnt a (fun k =>
      { k with ready := some (s.stampOfSecond e, x), validAt := s.clkOf e, validFrom := some (k.validFrom.getD (s.clkOf e)) })
    resumeLoss (noteWake (s.count 65 a 1))
  else s.modAnt a (fun k => { k with ready := none, validFrom := none })

/-- The epoch of antenna `a`'s next solution: the whole second TS0 stands in, or the one after its last. -/
def State.nextEpoch (s : State) (a : Nat) : Nat :=
  match (s.gnsAnt a).epoch with
  | some e => (if s.ts0 / 65536000000000 = e then e + 1 else s.ts0 / 65536000000000) * 65536000000000
  | none => s.ts0 / 65536000000000 * 65536000000000

/-- An epoch: a change of SYS_EN acts (R153). -/
def systemsAct (s : State) : State :=
  match s.gnss.sysHeld with
  | some _ => dropUnusable { s with gnss := { s.gnss with sysHeld := none } }
  | none => s

/-- A whole TS0 second: the firmware solves one antenna's offset (R138). -/
def solution (a : Nat) (fix : GnssFix) (s : State) : State :=
  if s.gnsOn && s.antInUse a then
    let e := s.nextEpoch a
    solveAt a e fix (systemsAct (s.waitTs0 e))
  else s

def execSolution (a : Fin 2) (fix : GnssFix) : State → Res State := go (solution a.val fix)

/-- A solution is discarded, not ready in time: nothing is delivered for its epoch (R140), which has given no valid solution (R153). -/
def discardSol (a e : Nat) (s : State) : State :=
  let m := s.rd R.GNS_STAT_SOL
  let s := s.wr R.GNS_STAT_SOL (m - (if bit m a then 2 ^ a else 0))
  (s.modAnt a (fun k => { k with ready := none, validFrom := none, epoch := some (e / 65536000000000) })).raise Evt.gns 64

/-- A valid solution reaches its slot within 60 ms of its epoch, SPOOF and all; after that it is discarded (R140, R146). -/
def solutionDelivery (a : Nat) (s : State) : State :=
  match (s.gnsAnt a).ready with
  | some (p, x) =>
    if s.clk ≤ p.clk + ms16 60 then
      deliver a p x 0 (s.on (R.GNS_SOL_FLAGS_SPOOF a)) (s.modAnt a (fun k => { k with ready := none }))
    else discardSol a p.t s
  | none => s

def execSolutionDelivery (a : Fin 2) : State → Res State := go (solutionDelivery a.val)

/-- A solution is not ready by E + 60 ms: it is discarded (R140). -/
def solutionLate (a : Nat) (s : State) : State :=
  if s.gnsOn && s.antInUse a then
    let e := match (s.gnsAnt a).ready with
      | some r => r.1.t
      | none => s.nextEpoch a
    discardSol a e (systemsAct (s.waitTs0 (e + ms16 60)))
  else s

def execSolutionLate (a : Fin 2) : State → Res State := go (solutionLate a.val)

/-- All enabled checks have passed for CLEAR seconds (R146). -/
def spoofClear (a : Nat) (s : State) : State :=
  match (s.gnsAnt a).passFrom with
  | some t =>
    let m := s.rd R.GNS_STAT_SPOOF
    if bit m a then (s.waitClk (t + sec16 (thr1 (s.rd R.GNS_SPF_CTL_CLEAR)))).wr R.GNS_STAT_SPOOF (m - 2 ^ a) else s
  | none => s

def execSpoofClear (a : Fin 2) : State → Res State := go (spoofClear a.val)

/-! ### Position (R135, R136) -/

/-- A write to a position register: accepted in FIXED only, for the next solution epoch (R135). -/
def writePos (a axis w : Nat) (s : State) : State :=
  if s.posMode a = 1 then
    let sec := s.ts0 / 65536000000000
    let p := s.posRegs a
    (s.modAnt a (fun k => if k.posSec = some sec then k else { k with posSec := some sec, posOld := p })).wr
      (R.GNS_POS_POS (a * 3 + axis)) w
  else s

def execPositionWrite (a : Fin 2) (axis : Fin 3) (w : Word) : State → Res State := go (writePos a.val axis.val w.toNat)

/-- A survey begins: the average is discarded. -/
def beginSurvey (a : Nat) (s : State) : State :=
  ((s.wr (R.GNS_POS_CTL_STATE a) 1).wr (R.GNS_SURV_STAT_SIGMA a) 0xFFFF).modAnt a (·.newSurvey (some s.clk))

/-- The mean of a survey's positions, as a register holds one coordinate. -/
def meanCoord (sum : Int) (n : Nat) : Nat := satBits 32 (rnd (mkRat sum n))

/-- A survey meets MIN_TIME and ACC: its average is the position (R135, R136). -/
def surveyDone (a : Nat) (s : State) : State :=
  match (s.gnsAnt a).surveyFrom with
  | some t =>
    if s.rd (R.GNS_POS_CTL_STATE a) = 1 ∧ s.rd (R.GNS_SURV_STAT_SIGMA a) ≤ max 1 (s.rd R.GNS_SURV_CTL_ACC) then
      let s := s.waitClk (t + sec16 (s.rd R.GNS_SURV_CTL_MIN_TIME))
      let k := s.gnsAnt a
      let s := ((s.wr (R.GNS_POS_POS (a * 3)) (meanCoord k.surveySum.1 k.surveyN)).wr (R.GNS_POS_POS (a * 3 + 1))
        (meanCoord k.surveySum.2.1 k.surveyN)).wr (R.GNS_POS_POS (a * 3 + 2)) (meanCoord k.surveySum.2.2 k.surveyN)
      let s := s.wr (R.GNS_SURV_STAT_ELAPSED a) (satNat 16 ((s.clk - t) / sec16 10))
      ((s.wr (R.GNS_POS_CTL_STATE a) 2).modAnt a (fun k => { k with surveyFrom := none })).raise Evt.gns 8
    else s
  | none => s

def execSurveyDone (a : Fin 2) : State → Res State := go (surveyDone a.val)

/-- A survey has not completed after 86,400 s; it runs on. -/
def surveySlow (a : Nat) (s : State) : State :=
  match (s.gnsAnt a).surveyFrom with
  | some t => if s.rd (R.GNS_POS_CTL_STATE a) = 1 then (s.waitClk (t + sec16 86400)).raise Evt.gns 16 else s
  | none => s

def execSurveySlow (a : Fin 2) : State → Res State := go (surveySlow a.val)

/-- A write of GNS_ANTa_POS_CTL: a change of MODE, and RESTART (R135, R136).  A RESTART written where the mode is not SURVEY is ignored (DESIGN
CHOICE, log entry 106: the spec does not say). -/
def writePosCtl (a w : Nat) (s : State) : State :=
  let was := s.posMode a
  let s := s.storeReg false (Reg.GNS_POS_CTL a) w
  let now := s.posMode a
  let s := if was = now then s
    else match now with
      | 1 => (s.wr (R.GNS_POS_CTL_STATE a) 3).modAnt a (fun k => { k with surveyFrom := none })
      | 2 => (s.wr (R.GNS_POS_CTL_STATE a) 0).modAnt a (fun k => { k with surveyFrom := none })
      | _ => beginSurvey a s
  if (R.GNS_POS_CTL_RESTART a).of w = 1 ∧ now = 0 then beginSurvey a s else s

def execSurveyRestart (a : Fin 2) (w : Word) : State → Res State :=
  go (writePosCtl a.val ((R.GNS_POS_CTL_RESTART a.val).setIn w.toNat))

/-- Survey time so far in 10 s (GNS_ANTa_SURV_STAT ELAPSED). -/
def State.surveyElapsed (s : State) (a : Nat) : Nat :=
  match (s.gnsAnt a).surveyFrom with
  | some t => satNat 16 ((s.clk - t) / sec16 10)
  | none => s.rd (R.GNS_SURV_STAT_ELAPSED a)

/-! ### Notches and jamming (R142-R144) -/

/-- MODE of a port's notches: 3 is treated as 0. -/
def State.notchMode (s : State) (n : Nat) : Nat :=
  if s.rd (R.GNS_NOTCH_CTL_MODE n) = 3 then 0 else s.rd (R.GNS_NOTCH_CTL_MODE n)

/-- Engages or releases a notch; the change marks the second's solution (R143). -/
def setNotch (n k : Nat) (v : Bool) (s : State) : State :=
  let m := s.rd (R.GNS_NOTCH_CTL_ENGAGED n)
  if bit m k = v then s
  else
    let s := s.wr (R.GNS_NOTCH_CTL_ENGAGED n) (if v then m + 2 ^ k else m - 2 ^ k)
    s.modGnsPort n (fun q => { q with notchAt := some s.clk, below := IMap.erase q.below k })

/-- The peak nearest a frequency. -/
def nearestPeak (f : Int) : List (Int × Nat) → Option (Int × Nat)
  | [] => none
  | p :: ps =>
    match nearestPeak f ps with
    | none => some p
    | some q => if (p.1 - f).natAbs ≤ (q.1 - f).natAbs then some p else some q

/-- An engaged notch follows its peak, at most 16 kHz in the 16 ms of one average, and notes when it stands below
THR - 6 dB. -/
def followPeak (n k : Nat) (peaks : List (Int × Nat)) (s : State) : State :=
  let f := s.rdSigned (R.GNS_NOTCH_FREQ (n * 4 + k))
  let p := nearestPeak f peaks
  let lvl := (p.map (·.2)).getD 0
  let d := (p.map (fun q => q.1 - f)).getD 0
  let s := s.wr (R.GNS_NOTCH_FREQ (n * 4 + k)) (ofSigned 32 (f + max (-16000) (min 16000 d)))
  let low := decide (lvl + 6 < s.rd (R.GNS_NOTCH_CTL_THR n))
  let old := (s.gnsPort n).below
  let new := if low then (if IMap.get 0 old k = 0 then IMap.put 0 old k (s.clk + 1) else old) else IMap.erase old k
  s.modGnsPort n (fun q => { q with below := new })

/-- The four strongest peaks that stand THR above the median, strongest first. -/
def strongest (thr : Nat) (peaks : List (Int × Nat)) : List (Int × Nat) :=
  (sortBy (fun p q => decide (q.2 ≤ p.2)) (peaks.filter (fun p => decide (thr ≤ p.2)))).take 4

/-- The peaks a port's engaged notches follow. -/
def State.followed (s : State) (n : Nat) (peaks : List (Int × Nat)) : List (Int × Nat) :=
  ((List.range 4).filter (bit (s.rd (R.GNS_NOTCH_CTL_ENGAGED n)))).filterMap (fun k =>
    nearestPeak (s.rdSigned (R.GNS_NOTCH_FREQ (n * 4 + k))) peaks)

/-- Engages a free notch on a peak that none of `had`, those followed before, is. -/
def engageOn (n : Nat) (had : List (Int × Nat)) (s : State) (p : Int × Nat) : State :=
  let m := s.rd (R.GNS_NOTCH_CTL_ENGAGED n)
  let held : Bool := decide (p ∈ had)
  match (List.range 4).find? (fun k => !bit m k) with
  | some k => if held then s else setNotch n k true (s.wr (R.GNS_NOTCH_FREQ (n * 4 + k)) (ofSigned 32 p.1))
  | none => s

/-- 16 averaged spectra of a port in adaptive mode (R142): peaks as (Hz from band centre, dB above the median bin). -/
def notchUpdate (n : Nat) (peaks : List (Int × Nat)) (s : State) : State :=
  if s.gnsOn && s.portUsed n && s.notchMode n = 1 then
    let m := s.rd (R.GNS_NOTCH_CTL_ENGAGED n)
    let had := s.followed n peaks
    let s := (List.range 4).foldl (fun s k => if bit m k then followPeak n k peaks s else s) s
    markNotched n ((strongest (s.rd (R.GNS_NOTCH_CTL_THR n)) peaks).foldl (engageOn n had) s)
  else s

def execNotchUpdate (n : Fin 4) (peaks : List (Int × Nat)) : State → Res State := go (notchUpdate n.val peaks)

/-- 1 s below THR - 6 dB: the notch releases. -/
def notchRelease (n k : Nat) (s : State) : State :=
  let t := IMap.get 0 (s.gnsPort n).below k
  if s.notchMode n = 1 ∧ bit (s.rd (R.GNS_NOTCH_CTL_ENGAGED n)) k = true ∧ t ≠ 0 then
    markNotched n ((setNotch n k false (s.waitClk (t - 1 + sec16 1))).lo (R.GNS_NOTCH_FREQ (n * 4 + k)))
  else s

def execNotchRelease (n k : Fin 4) : State → Res State := go (notchRelease n.val k.val)

/-- Manual notches: each sits where its register says, 0 disables it. -/
def manualNotch (n k : Nat) (s : State) : State := setNotch n k (s.rd (R.GNS_NOTCH_FREQ (n * 4 + k)) ≠ 0) s

/-- A write of GNS_NOTCH_CTL. -/
def writeNotchCtl (n w : Nat) (s : State) : State :=
  let was := s.notchMode n
  let s := s.storeReg false (Reg.GNS_NOTCH_CTL n) w
  if s.notchMode n = was then s
  else markNotched n ((List.range 4).foldl (fun s k =>
    if s.notchMode n = 2 then manualNotch n k s
    else setNotch n k false (if was = 1 then s.lo (R.GNS_NOTCH_FREQ (n * 4 + k)) else s)) s)

/-- A write of GNS_NOTCHk: it reports the position in adaptive mode and is not written then. -/
def writeNotchFreq (n k w : Nat) (s : State) : State :=
  if s.notchMode n = 1 then s
  else
    let s := s.wr (R.GNS_NOTCH_FREQ (n * 4 + k)) w
    if s.notchMode n = 2 then markNotched n (manualNotch n k s) else s

/-- The baseline has been learned for 600 s (R144); `floor` in 0.25 dB. -/
def jamBaseline (n floor : Nat) (s : State) : State :=
  match (s.gnsPort n).learnAt with
  | some t =>
    let s := s.waitClk (t + sec16 600)
    judgeJam n floor ((s.modGnsPort n (fun k => { k with baseline := some floor, learnAt := none })).lo (R.GNS_PORT_JAM_LEARN n))
  | none => s

def execJamBaseline (n : Fin 4) (floor : Nat) : State → Res State := go (jamBaseline n.val floor)

/-- A write of GNS_PORT_JAM: LEARN relearns the baseline. -/
def writePortJam (n w : Nat) (s : State) : State :=
  let s := s.storeReg false (Reg.GNS_PORT_JAM n) w
  if (R.GNS_PORT_JAM_LEARN n).of w = 1 then
    (s.modGnsPort n (fun k => { k with learnAt := some s.clk })).hi (R.GNS_PORT_JAM_LEARN n)
  else s

def execJamLearn (n : Fin 4) (w : Word) : State → Res State :=
  go (writePortJam n.val ((R.GNS_PORT_JAM_LEARN n.val).setIn w.toNat))

/-! ### Antennas (R147, R148) -/

/-- The original primary of modes 1 and 2. -/
def State.originalPrimary (s : State) : Option Nat :=
  match s.rd R.GNS_CTL_REDUND with
  | 1 => some 0
  | 2 => some 1
  | _ => none

/-- 3 s without a valid solution of the primary (R148). -/
def antSwitch (s : State) : State :=
  match s.originalPrimary with
  | some _ =>
    if s.gnsOn then
      let p := s.rd R.GNS_STAT_ACTIVE_ANT
      let s := (s.waitClk ((s.gnsAnt p).validAt + sec16 3)).modAnt p (fun k => { k with validFrom := none })
      trimPool ((s.wr R.GNS_STAT_ACTIVE_ANT (1 - p)).raise Evt.gns 4096)
    else s
  | none => s

def execAntSwitch : State → Res State := go antSwitch

/-- The original primary has delivered valid solutions for 600 s (R148). -/
def antReturn (s : State) : State :=
  match s.originalPrimary with
  | some p =>
    match (s.gnsAnt p).validFrom with
    | some t =>
      if s.rd R.GNS_STAT_ACTIVE_ANT = p then s
      else trimPool ((s.waitClk (t + sec16 600)).wr R.GNS_STAT_ACTIVE_ANT p)
    | none => s
  | none => s

def execAntReturn : State → Res State := go antReturn

/-- A change of REF_SYS, UTC_STEER or ISB_BCAST, from what `old` holds of them, acts at the next epoch (R140). -/
def holdRef (s : State) (old : Nat) : State :=
  let sec := s.ts0 / 65536000000000
  if s.refWord = old ∨ s.gnss.refSec = some sec then s else { s with gnss := { s.gnss with refSec := some sec, refOld := old } }

/-- A write of GNS_CTL: the receiver, its systems and bands, and the antenna mode. -/
def writeGnsCtl (w : Nat) (s : State) : State :=
  let was := s.rd R.GNS_CTL_REDUND
  let sys := s.rd R.GNS_CTL_SYS_EN
  let on := s.gnsOn
  let ref := s.refSys
  let s := holdRef (s.storeReg false Reg.GNS_CTL w) s.refWord
  let s := if s.refSys = ref then s else { s with gnss := { s.gnss with utcHeard := [] } }
  let s := if s.rd R.GNS_CTL_SYS_EN = sys then s
    else { s with gnss := { s.gnss with sysHeld := some (s.gnss.sysHeld.getD sys) } }
  let s := s.wr R.GNS_STAT_RUN (b01 s.gnsOn)
  let s := if s.rd R.GNS_CTL_REDUND = was then s
    else match s.originalPrimary with
      | some p => s.wr R.GNS_STAT_ACTIVE_ANT p
      | none => s.lo R.GNS_STAT_ACTIVE_ANT
  let s := [0, 1, 2, 3].foldl (fun s n => if !s.portUsed n then portIdle n s else if s.gnsOn && !on then portAwaits n s else s) s
  let s := if was = 3 ∧ s.antInUse 1 = true then portAwaits 3 (portAwaits 2 s) else s
  restartPins (trimPool (dropUnusable s))

/-! ### Sleep (R149-R151) -/

/-- The TS0 second up to which an antenna holds ephemeris for at least 6 satellites (R149). -/
def GnsAnt.ephEnd (k : GnsAnt) : Nat := (sortBy (fun u v => decide (v ≤ u)) k.eph).getD 5 0

/-- The conditions of R149.  A sleep ends within the validity of the ephemeris held (R150), so that what is held for 6 satellites now serves
its planned wake. -/
def State.gnsEligible (s : State) : Bool :=
  s.on R.GNS_SLEEP_CTL_ALLOW && s.rd R.GNS_SLEEP_CTL_MAX ≠ 0 && s.eng .ts0 = .tracking
    && (match s.anchorSlot with
        | some i => s.src i = .qualified && (s.slot i).set = 0
        | none => false)
    && [0, 1].all (fun a => !s.antInUse a || (s.posKnown a && decide (s.ts0 / sec16 1 < (s.gnsAnt a).ephEnd)))
    && s.rd R.GNS_STAT_SPOOF = 0 && s.rd R.GNS_STAT_PORT_FAULT = 0 && decide (5000000 ≤ s.rd R.PWR_LAT_GNSS_LAT)

/-- The second the ephemeris of every antenna in use runs to. -/
def State.ephEnd (s : State) : Nat :=
  if s.antInUse 1 then min (s.gnsAnt 0).ephEnd (s.gnsAnt 1).ephEnd else (s.gnsAnt 0).ephEnd

/-- The signals the channels hold, as a sleep takes them. -/
def State.heldSignals (s : State) : List (Nat × GnssSig) :=
  (chIds.filter (fun c => s.ch c ≠ .idle && s.ch c ≠ .test)).map (fun c =>
    let k := s.gnsCh c
    (c, { sys := Fin.ofNat 4 k.sys, low := k.band = 1, ant := k.ant = 1, svid := BitVec.ofNat 8 (s.rd (R.GNS_CH_STAT_SVID c)) }))

/-- The length of a sleep of which the arbiter asks `span` seconds (R150). -/
def State.sleepLen (s : State) (span : Nat) : Nat := min (min (s.rd R.GNS_SLEEP_CTL_MAX) span) (s.ephEnd - s.ts0 / sec16 1)

/-- The arbiter asks for a long sleep of `span` seconds (R149, R150). -/
def gnsSleep (span : Nat) (s : State) : State :=
  let len := s.sleepLen span
  if s.gnsOn && s.gnsEligible && decide (0 < len) then
    let s := { s with gnss := { s.gnss with resume := s.heldSignals } }
    let s := idleWhere (fun _ _ => true) s
    let s := ((s.hi R.GNS_SLEEP_STAT_ASLEEP).lo R.GNS_STAT_RUN).lo R.GNS_STAT_SOL
    let s := (List.range 4).foldl (fun s n => s.lo (R.GNS_PORT_STAT_CLK_OK n)) s
    let s := [0, 1].foldl (fun s a => s.modAnt a (fun k => { k with ready := none, validFrom := none })) s
    { s with gnss := { s.gnss with sleepUntil := s.clk + sec16 len, lossHeld := true, wakeAt := none } }
  else s

def execGnssSleep (span : Nat) : State → Res State := go (gnsSleep span)

/-- A channel takes up again the signal it had: one that is searched directly (R125, R126); a pinned channel takes its pin. -/
def resumeCh (s : State) (p : Nat × GnssSig) : State :=
  let c := p.1
  let g := p.2
  let band := b01 g.low
  let ant := b01 g.ant
  if s.ch c = .idle ∧ s.reserved c = false ∧ s.on (R.GNS_CH_CFG_PIN c) = false ∧ s.signalOk g.sys.val band ant = true
      ∧ (band = 0 ∨ s.lowDirect ant = true) then
    startCh c .search g.sys.val band ant g.svid.toNat false s
  else s

/-- A channel that starts its search is loaded with the code phase and the Doppler predicted for its signal (R151). -/
def loadCh (s : State) (c : Nat) : State :=
  if s.ch c = .search then
    let k := s.gnsCh c
    let sat := s.satOf c
    (s.wr (R.GNS_CH_DOP_DOP c) (Config.predictDop sat k.band s.ts0).toNat).modCh c (fun k =>
      { k with code := Config.predictCode sat k.band s.ts0 % (codeChips k.sys k.band * 65536), codeAt := s.clk })
  else s

/-- The receiver wakes and hot-starts: its ports await their epochs, its channels are loaded (R151). -/
def gnsWake (s : State) : State :=
  let s := (s.lo R.GNS_SLEEP_STAT_ASLEEP).lo R.GNS_SLEEP_CTL_WAKE
  let s := s.wr R.GNS_STAT_RUN (b01 s.gnsOn)
  let s := [0, 1, 2, 3].foldl (fun s n => portAwaits n s) s
  let s := chIds.foldl loadCh (restartPins (trimPool (s.gnss.resume.foldl resumeCh s)))
  { s with gnss := { s.gnss with wakeAt := some s.clk, resume := [] } }

/-- A sleep's duration expires. -/
def gnssSleepEnd (s : State) : State :=
  if s.on R.GNS_SLEEP_STAT_ASLEEP then gnsWake (s.waitClk s.gnss.sleepUntil) else s

def execGnssSleepEnd : State → Res State := go gnssSleepEnd

/-- Whether a sleep must end early (R150). -/
def State.wakeDue (s : State) : Bool :=
  s.eng .ts0 ≠ .tracking || (match s.anchorSlot with
    | some i => s.src i ≠ .qualified
    | none => true)

/-- A sleep ends early. -/
def wakeEarly (s : State) : State :=
  if s.on R.GNS_SLEEP_STAT_ASLEEP then gnsWake (s.raise Evt.gns 128) else s

/-- A write of GNS_SLEEP_CTL. -/
def writeSleepCtl (w : Nat) (s : State) : State :=
  let s := s.storeReg false Reg.GNS_SLEEP_CTL w
  if R.GNS_SLEEP_CTL_WAKE.of w = 1 then wakeEarly s else s

/-- A write of WAKE, or a condition lapsing. -/
def gnssWake (w : Option Word) (s : State) : State :=
  match w with
  | some v => writeSleepCtl (R.GNS_SLEEP_CTL_WAKE.setIn v.toNat) s
  | none => if s.wakeDue then wakeEarly s else s

def execGnssWake (w : Option Word) : State → Res State := go (gnssWake w)

/-- No valid solution within 5 s of wake (R151). -/
def hotFail (s : State) : State :=
  match s.gnss.wakeAt with
  | some t =>
    if s.gnss.lossHeld then resumeLoss (((s.waitClk (t + sec16 5)).lo R.GNS_SLEEP_STAT_HOT).raise Evt.gns 256) else s
  | none => s

def execHotFail : State → Res State := go hotFail

end Sys2Proof.Machine
end

