-- ==== Sys2Proof/Machine/Switch.lean ====
section
/-! DEFINITION. Switching the served timescale's sources (R64, R65, R94), and steps as they are applied (R58, R108). -/

namespace Sys2Proof.Machine

/-- The cases in which R65 refuses a switch with D in 2^-16 ns. -/
def State.switchRefused (s : State) (d : Int) : Bool :=
  !s.on R.TSC_CTL_TS1_EN || s.on R.TSC_SWITCH_CTL_ACTIVE
    || s.on (R.TSC_STEP_CTL_PENDING 0) || s.on (R.TSC_STEP_CTL_PENDING 1)
    || decide (d.natAbs > ns16 (min 1000000 (s.rd R.TSC_SWITCH_LIM_LIMIT)))

/-- RATE in 0.1 ppm: 0 is treated as 1, values above 100 as 100. -/
def State.switchRate (s : State) : Nat := max 1 (min 100 (s.rd R.TSC_SWITCH_CTL_RATE))

/-- Duration of the switch slew in µs: |D| / RATE rounded up (R64). -/
def switchUs (d : Int) (rate : Nat) : Nat := ceilDiv (d.natAbs * 10000) (rate * 65536)

/-- Swaps two fields. -/
def swapFields (f g : Field) (s : State) : State :=
  let a := s.rd f
  let c := s.rd g
  (s.wr f c).wr g a

/-- The two timescales exchange source sets and their complete ensemble state (R64, R79, R94), and the dies are told (R117). -/
def exchangeSets (sender : Nat) (d : Int) (s : State) : State :=
  let s := slotIds.foldl (fun s i =>
    let s := s.wr (R.ENS_SLOT_CFG_SET i) (1 - s.rd (R.ENS_SLOT_CFG_SET i))
    s.modSlot i (fun k => k.rebased i (1 - k.set) d)) s
  let f0 := s.ens.f0
  let f1 := s.ens.f1
  let s := { s with ens := { s.ens with
    f0 := { f1 with theta := f1.theta - toNs d }
    f1 := { f0 with theta := f0.theta + toNs d } } }
  let old0 := s.eng .ts0
  let old1 := s.eng .ts1
  let s := swapFields R.ENS_STAT_STATE R.ENS_STAT_S1_STATE s
  let s := swapFields R.ENS_STAT_DECIDE_PEND R.ENS_STAT_S1_DECIDE_PEND s
  let k0 := s.tick.bank0
  let k1 := s.tick.bank1
  let s := s.modBank .ts0 (fun k => { k with phaseAcc := k1.phaseAcc, incrRef := k1.incrRef })
  let s := s.modBank .ts1 (fun k => { k with phaseAcc := k0.phaseAcc, incrRef := k0.incrRef })
  let s := publishTs0 s
  publish (if old0 ≠ old1 then tellEng sender .ts1 old1 (tellEng sender .ts0 old0 s) else s)

/-- The switch at T_sw (R64). -/
def doSwitch (sender : Nat) (d : Int) (s : State) : State :=
  let s := abortSlew .ts0 s
  let s := s.modBank .ts0 (fun k => { k with incr := s.tick.bank1.incr })
  let s := exchangeSets sender d s
  if d = 0 then s.hi R.TSC_SWITCH_CTL_DONE
  else (startSlew .ts0 d (800 * switchUs d s.switchRate) s).hi R.TSC_SWITCH_CTL_ACTIVE

/-- A write of TSC_SWITCH_CTL (R64, R65). -/
def writeSwitchCtl (sender w : Nat) (s : State) : State :=
  let s := s.storeReg false Reg.TSC_SWITCH_CTL w
  if R.TSC_SWITCH_CTL_GO.of w = 1 then
    if s.switchRefused s.tsDiff then s.hi R.TSC_SWITCH_CTL_REFUSED else doSwitch sender s.tsDiff s
  else s

def execSwitchGo (w : Word) : State → Res State := go (writeSwitchCtl 2 (R.TSC_SWITCH_CTL_GO.setIn w.toNat))

/-- The switch slew completes (R64). -/
def switchDone (s : State) : State :=
  if s.on R.TSC_SWITCH_CTL_ACTIVE then
    let v := s.tick.bank0.slew
    let s := s.advance (v.n - v.k)
    if s.tick.bank0.slew.k = s.tick.bank0.slew.n then
      ((s.modBank .ts0 (fun k => { k with slew := {} })).lo R.TSC_SWITCH_CTL_ACTIVE).hi R.TSC_SWITCH_CTL_DONE
    else s
  else s

def execSwitchDone : State → Res State := go switchDone

end Sys2Proof.Machine
end

