-- ==== Sys2Proof/Machine/Stacking.lean ====
section
/-! DEFINITION. Stacking (12): Mooring links and their TIME frames, ring closure, the Tender bus, fabric states, elections and
handovers.  Mooring stamps, periods and timeouts are of TS0 (R18). -/

namespace Sys2Proof.Machine

/-! ### Access -/

def State.mor (s : State) (l : Nat) : MorLink := IMap.get {} s.stack.links l
def State.modStack (s : State) (f : Stack → Stack) : State := { s with stack := f s.stack }
def State.modMor (s : State) (l : Nat) (f : MorLink → MorLink) : State :=
  s.modStack (fun k => { k with links := IMap.upd {} k.links l f })

/-- MOR_EVT, vector 46 of PF1. -/
def Evt.mor : EvtSrc := ⟨R.MOR_EVT_BITS, some R.MOR_EVT_EN_BITS, 1, 46⟩

/-- A link's state: 0 DOWN, 1 TRAINING, 2 CALIBRATING, 3 UP, 4 TIMED (R374). -/
def State.morState (s : State) (l : Nat) : Nat := s.rd (R.MOR_LINK_STAT_STATE l)
/-- Whether frames flow on a link. -/
def State.morUp (s : State) (l : Nat) : Bool := decide (3 ≤ s.morState l)

/-- The fabric states: 0 OFF, 1 LISTEN, 2 DISCOVER, 3 MEMBER, 4 MASTER. -/
def State.fabric (s : State) : Nat := s.rd R.MOR_STAT_FABRIC
def State.isMaster (s : State) : Bool := s.fabric = 4
def State.stackAddr (s : State) : Nat := s.rd R.MOR_STAT_ADDR
def State.masterAddr (s : State) : Nat := s.rd R.MOR_STAT_MASTER

/-- The HELLO period in 2^-16 ns; 0 is treated as 1 (R398). -/
def State.helloSpan (s : State) : Nat := max 1 (s.rd R.TND_CTL_HELLO) * ms16 10
/-- TIMEOUT periods in 2^-16 ns; below 2 treated as 2. -/
def State.timeoutSpan (s : State) : Nat := max 2 (s.rd R.TND_CTL_TIMEOUT) * s.helloSpan
/-- RCHK in 2^-16 ns; 0 is treated as 1. -/
def State.rchkSpan (s : State) : Nat := max 1 (s.rd R.TND_CTL_RCHK) * sec16 1

/-- Bumps a saturating register count. -/
def bumpReg (f : Field) (s : State) : State := s.wr f (satNat f.width (s.rd f + 1))

/-! ### Mooring frames (R376-R378) -/

/-- A Mooring frame: zero addresses, EtherType, the header, the payload, the pad of an IEEE 802.3 frame below 64 bytes, and the FCS. -/
def morFrame (type src dst hops seq : Nat) (payload : List Nat) : List Nat :=
  let b := pad60 (List.replicate 12 0 ++ [0x88, 0xB5, type, src, dst, hops] ++ le 2 seq ++ le 2 payload.length ++ payload)
  b ++ le 4 (crc32 b)

/-- The fields of a received frame's bytes after the EtherType. -/
def morSrc (f : List Nat) : Nat := f.getD 1 0
def morDst (f : List Nat) : Nat := f.getD 2 0
def morHops (f : List Nat) : Nat := f.getD 3 0
def morPayload (f : List Nat) : List Nat := (f.drop 8).take (leAt f 6 2)
/-- Whether a frame's LEN runs past it (R376). -/
def morShort (f : List Nat) : Bool := decide (f.length < 8 + leAt f 6 2)

/-- A Keeper time in 2^-16 ns from its 12 bytes (R45). -/
def ktOf (bs : List Nat) (i : Nat) : Nat := leAt bs i 2 + leAt bs (i + 2) 4 * 65536 + leAt bs (i + 6) 6 * 65536000000000

/-- The corrections of a link's stamps (R378). -/
def State.morRx (s : State) (l : Nat) : Int :=
  psUnits (6400 + s.rd (R.MOR_LINK_PHASE_PHI_RX l) + s.rdSigned (R.MOR_LINK_CAL_C_RX l) + s.rdSigned (R.MOR_DLY_RX_DLY l))
def State.morTx (s : State) (l : Nat) : Int :=
  psUnits (21120 + s.rd (R.MOR_LINK_PHASE_PHI_TX l) + s.rdSigned (R.MOR_LINK_CAL_C_TX l) + s.rdSigned (R.MOR_DLY_TX_DLY l))

/-- Whether a link counts as TIMED: in that state, with fewer than 4 epochs without a TIME frame (R380). -/
def State.morTimed (s : State) (l : Nat) : Bool := s.morState l = 4 && decide ((s.mor l).miss < 4)

/-- MASTER, MO and CHAIN_HOPS sent on a link: the master's own, or what the chain of the opposite link gives, with the ASYM of that link's slot in
force (R379-R381).  A node without an address relays no time (R394). -/
def State.chainOut (s : State) (l : Nat) : Nat × Int × Nat :=
  let k := s.mor (1 - l)
  if s.isMaster then (s.stackAddr, 0, 1)
  else match k.x with
    | some x => if s.morTimed (1 - l) && s.stackAddr ≠ 0 then (k.master, x - (s.slot (7 - l)).asym * 256, k.hops + 1) else (0, 0, 0)
    | none => (0, 0, 0)

/-- Sends a TIME frame on a link (R377). -/
def sendTime (l : Nat) (s : State) : State :=
  let k := s.mor l
  let tTx := ((s.ts0 : Int) + Config.morCommit s.stack.timeDraw + s.morTx l).toNat
  let c := s.chainOut l
  let p := ktBytes tTx ++ ktBytes k.rxLast ++ ktBytes k.txPeer ++ le 8 (ofSigned 64 c.2.1) ++ [c.1, c.2.2, s.rd R.ENS_STAT_STATE, 0]
  let s := (s.modStack (fun k => { k with timeDraw := k.timeDraw + 1 })).modMor l (fun k => { k with timeSeq := (k.timeSeq + 1) % 65536 })
  s.emit (.mooring l (morFrame 1 s.stackAddr 0 0 k.timeSeq p))

/-! ### Tender frames (R391-R393) -/

/-- The bytes of a Tender frame, a short payload padded to 8. -/
def tndFrame (dst src type : Nat) (payload : List Nat) : List Nat :=
  let p := payload ++ List.replicate (8 - payload.length) 0
  let b := [dst, src, type, p.length] ++ p
  List.replicate 7 0x55 ++ [0xD5] ++ b ++ le 4 (crc32c b)

/-- A frame joins those waiting to be sent. -/
def sendTnd (dst type : Nat) (payload : List Nat) (s : State) : State :=
  s.modStack (fun k => { k with tx := k.tx ++ [tndFrame dst s.stackAddr type payload] })

/-- A member's RREPORT (R397). -/
def sendReport (s : State) : State :=
  sendTnd s.masterAddr 4 (le 2 s.stack.rseq ++ [s.rd (R.MOR_LINK_STAT_PEER 0), s.morState 0, s.rd (R.MOR_LINK_STAT_PEER 1), s.morState 1]) s

/-- This node's UID and its rank: strapped first, then lower PRIO, then lower UID (R394). -/
def ownUid : Nat := Config.deviceUid % 2 ^ 64
def ranksAhead (a b : Nat × Nat × Nat) : Bool :=
  if a.1 ≠ b.1 then decide (b.1 < a.1) else if a.2.1 ≠ b.2.1 then decide (a.2.1 < b.2.1) else decide (a.2.2 < b.2.2)
def State.ownRank (s : State) : Nat × Nat × Nat := (s.rd R.MOR_STAT_STRAP, s.rd R.MOR_CTL_PRIO, ownUid)

/-- The node table's entry of an address: its UID, and its rank. -/
def State.nodeUid (s : State) (a : Nat) : Nat := s.rd (R.TND_NODE_UID_LO_UID (a - 1)) + s.rd (R.TND_NODE_UID_HI_UID (a - 1)) * 2 ^ 32
def setNodeUid (a uid : Nat) (s : State) : State :=
  (s.wr (R.TND_NODE_UID_LO_UID (a - 1)) uid).wr (R.TND_NODE_UID_HI_UID (a - 1)) (uid / 2 ^ 32)
def State.nodeRank (s : State) (a : Nat) : Nat × Nat × Nat :=
  (s.rd (R.TND_NODE_INFO_STRAP (a - 1)), s.rd (R.TND_NODE_INFO_PRIO (a - 1)), s.nodeUid a)

/-- The addresses a stack may hold, and those held: this node's and those of the table. -/
def stackAddrs : List Nat := [1, 2, 3, 4, 5, 6, 7, 8]
def State.addrHeld (s : State) (a : Nat) : Bool := a = s.stackAddr || s.nodeUid a ≠ 0
def State.held (s : State) : List Nat := stackAddrs.filter s.addrHeld

/-! ### Ring check (R397) -/

/-- The report in force of an address; this node's own from its links. -/
def State.ringReport (s : State) (a : Nat) : Option RingReport :=
  if a = s.stackAddr then
    some { peer0 := s.rd (R.MOR_LINK_STAT_PEER 0), state0 := s.morState 0, peer1 := s.rd (R.MOR_LINK_STAT_PEER 1), state1 := s.morState 1 }
  else IMap.get none s.stack.reports a

/-- The address an M0 link leads to, where the link is seen from both ends. -/
def State.eastOf (s : State) (a : Nat) : Option Nat :=
  match s.ringReport a with
  | none => none
  | some r =>
    match s.ringReport r.peer0 with
    | some q => if 3 ≤ r.state0 ∧ 3 ≤ q.state1 ∧ q.peer1 = a then some r.peer0 else none
    | none => none

/-- The addresses met from `a` along M0 links, at most `n`. -/
def State.walkRing (s : State) : Nat → Nat → List Nat
  | 0, _ => []
  | n + 1, a =>
    a :: (match s.eastOf a with
      | some b => s.walkRing n b
      | none => [])

/-- The ring order, if the reports form one cycle through every held address. -/
def State.ringOrder (s : State) : Option (List Nat) :=
  let n := s.held.length
  let w := s.walkRing n s.stackAddr
  if 2 ≤ n ∧ w.length = n ∧ w.Nodup ∧ (w.all s.addrHeld) = true ∧ (w.getLast?.bind s.eastOf) = some s.stackAddr then some w else none

/-- The window of 64 s that TS0 stands in (R383). -/
def State.closeWin (s : State) : Nat := s.ts0 / sec16 64

/-- The closure window in progress is discarded (R383). -/
def spoil (s : State) : State := s.modStack (fun k => { k with spoilt := some s.closeWin })

/-- The master judges the ring; the order it finds is in force from the RCHECK that carries it (R397). -/
def judgeRing (s : State) : State :=
  if s.isMaster then
    let was := s.rd R.MOR_STAT_RING_OK
    let s := s.wr R.MOR_STAT_N s.held.length
    let s := match s.ringOrder with
      | some w => ((s.hi R.MOR_STAT_RING_OK).modStack (fun k => { k with judged := w })).raise Evt.mor 16
      | none => (s.lo R.MOR_STAT_RING_OK).raise Evt.mor 8
    if s.rd R.MOR_STAT_RING_OK = was then s else spoil s
  else s

/-! ### Link states (R374, R380) -/

/-- A link changes state: the event, a member's unsolicited report, a closure window lost, and the slot of a link that leaves TIMED.  Where frames
come to flow no TIME frame has been received yet, and BERT frames fill the gaps until they flow no longer (R380, R474). -/
def setMor (l st : Nat) (s : State) : State :=
  let old := s.morState l
  if old = st then s
  else
    let s := (s.wr (R.MOR_LINK_STAT_STATE l) st).raise Evt.mor 1
    let s := if decide (3 ≤ old) = decide (3 ≤ st) then s
      else (s.modMor l (fun k => { k with miss := 4 })).emit (.bert l (decide (3 ≤ st)))
    let s := spoil (if old = 4 then withdraw (6 + l) s else s)
    if s.fabric = 3 then sendReport s else s

/-- A link leaves TIMED for UP. -/
def endTimed (l : Nat) (s : State) : State := if s.morState l = 4 then setMor l 3 s else s

/-- Signal on an enabled link; training and lock complete; a calibration pass ends; the link is lost (R223, R224, R374). -/
def morSignal (l : Nat) (s : State) : State :=
  if s.morState l = 0 ∧ s.inTest = false ∧ s.on R.MOR_CTL_EN ∧ s.on (R.MOR_LINK_CFG_EN l) then setMor l 1 s else s

def morTrained (l : Nat) (s : State) : State :=
  if s.morState l = 1 then
    ((setMor l 2 s).lo (R.MOR_LINK_STAT_CAL_WEAK l)).modMor l (fun k => { k with calAt := s.clk, calTries := 0 })
  else s

def morCalibrated (l rmsRx rmsTx phiRx phiTx : Nat) (s : State) : State :=
  if s.morState l = 2 then
    let s := s.waitClk ((s.mor l).calAt + us16 256)
    if rmsRx ≤ 4000 ∧ rmsTx ≤ 4000 then
      setMor l 3 (((s.wr (R.MOR_LINK_PHASE_PHI_RX l) phiRx).wr (R.MOR_LINK_PHASE_PHI_TX l) phiTx).lo (R.MOR_LINK_STAT_CAL_WEAK l))
    else if (s.mor l).calTries = 2 then setMor l 3 (s.hi (R.MOR_LINK_STAT_CAL_WEAK l))
    else s.modMor l (fun k => { k with calAt := s.clk, calTries := k.calTries + 1 })
  else s

def morLost (l : Nat) (s : State) : State := if 2 ≤ s.morState l then setMor l 1 s else s

def execSignalDetect (l : LinkId) : State → Res State := go (fun s =>
  match l with
  | .port p => portSignal p.val s
  | .mooring w => morSignal w.val s)

def execTrainingDone (l : LinkId) (fec : Fin 4) : State → Res State := go (fun s =>
  match l with
  | .port p => portTrained p.val fec.val s
  | .mooring w => morTrained w.val s)

def execPortCalPass (l : LinkId) (rmsRx rmsTx phiRx phiTx : Nat) : State → Res State := go (fun s =>
  match l with
  | .port p => portCalibrated p.val rmsRx rmsTx phiRx phiTx s
  | .mooring w => morCalibrated w.val rmsRx rmsTx phiRx phiTx s)

def execLinkLoss (l : LinkId) (cause : LossCause) (inFrame : Bool) : State → Res State := go (fun s =>
  match l with
  | .port p => portLost p.val cause inFrame s
  | .mooring w => morLost w.val s)

/-- A write of MOR_LINK_CFG: EN at 0 takes the link down (R374). -/
def writeLinkCfg (l w : Nat) (s : State) : State :=
  let s := s.storeReg false (Reg.MOR_LINK_CFG l) w
  if s.on (R.MOR_LINK_CFG_EN l) then s else setMor l 0 s

/-! ### TIME frames received (R379-R381, R383) -/

/-- What a received frame says of its chain: CHAIN_HOPS from 1 to 7 with the stack's master, at a member of a calibrated link (R380). -/
def State.goodChain (s : State) (l master hops : Nat) : Bool :=
  !s.isMaster && !s.on (R.MOR_LINK_STAT_CAL_WEAK l) && master ≠ 0 && master = s.masterAddr && decide (1 ≤ hops) && decide (hops ≤ 7)

/-- The master adds a returned chain's MO - ASYM to the closure of its window while RING_OK is set (R383). -/
def takeClosure (l : Nat) (mo : Int) (s : State) : State :=
  if s.isMaster && s.on R.MOR_STAT_RING_OK then
    let v := mo - (s.slot (6 + l)).asym * 256
    s.modStack (fun k =>
      let k := if k.win = s.closeWin then k else { k with win := s.closeWin, sumW := 0, numW := 0, sumE := 0, numE := 0 }
      if l = 0 then { k with sumW := k.sumW + v, numW := k.numW + 1 } else { k with sumE := k.sumE + v, numE := k.numE + 1 })
  else s

/-- Half of a sum of stamps, in 2^-16 ns. -/
def halved (v : Int) : Int := rnd (mkRat v 2)

/-- A signed time in 2^-16 ns as 2^-8 ns bits, and an unsigned one. -/
def to8 (v : Int) : Nat := satBits 32 (rnd (mkRat v 256))
def to8u (v : Int) : Nat := satNat 32 (rnd (mkRat v 256)).toNat

/-- Offset, mean path delay and raw sample of a link (R379): t1, t2 echoed, t3 carried, t4 stamped. -/
def linkOfs (t1 t2 t3 t4 : Nat) : Int := halved (((t4 : Int) - t3) - ((t2 : Int) - t1))
def linkDly (t1 t2 t3 t4 : Nat) : Int := halved (((t4 : Int) - t3) + ((t2 : Int) - t1))

/-- o, d and x are formed and published. -/
def formSample (l : Nat) (o d mo : Int) (s : State) : State :=
  let x := o + mo
  let s := ((s.wr (R.MOR_LINK_OFS_O l) (to8 o)).wr (R.MOR_LINK_DLY_D l) (to8u d)).wr (R.MOR_LINK_X_X l) (to8 x)
  s.modMor l (fun k => { k with x := some x })

/-- Whether a link meets the conditions of TIMED, by the last TIME frame it received (R380). -/
def State.timedNow (s : State) (l : Nat) : Bool :=
  s.morUp l && s.goodChain l (s.mor l).master (s.mor l).hops && decide ((s.mor l).miss < 4)

/-- A link is TIMED while it meets the conditions. -/
def judgeTimed (l : Nat) (s : State) : State := if s.timedNow l then setMor l 4 s else endTimed l s

/-- A frame with a bad FCS, or whose LEN runs past it, is discarded and counted (R376). -/
def mooringFrameErr (l : Nat) (s : State) : State :=
  if s.morUp l then (bumpReg (R.MOR_LINK_ERR_FRAME_ERR l) s).count 0x1A1 l 1 else s

def execMooringFrameErr (l : Fin 2) : State → Res State := go (mooringFrameErr l.val)

/-- A TIME frame received on a link in UP or TIMED. -/
def mooringTimeRx (l back : Nat) (f : List Nat) (s : State) : State :=
  if morShort f then mooringFrameErr l s
  else if s.morUp l then
    let p := morPayload f
    let t4 := ((s.ts0 : Int) - back - s.morRx l).toNat
    let t3 := ktOf p 0
    let t2 := ktOf p 12
    let mo := toSigned 64 (leAt p 36 8)
    let master := p.getD 44 0
    let hops := p.getD 45 0
    let s := (s.count 0x1A0 l 1).modStack (fun k => { k with engines := IMap.put none k.engines (morSrc f) (some (p.getD 46 0)) })
    let s := (s.wr (R.MOR_LINK_STAT_PEER l) (morSrc f)).wr (R.MOR_LINK_STAT_CHAIN_HOPS l) hops
    let s := s.wr (R.MOR_LINK_STAT_CHAIN_MASTER l) master
    let s := s.modMor l (fun k => { k with rxLast := t4, txPeer := t3, gotTime := true, miss := 0, master := master, hops := hops })
    let s := judgeTimed l s
    let s := if master = s.stackAddr then takeClosure l mo s else s
    if t2 = 0 then s
    else
      let t1 := ktOf p 24
      let o := linkOfs t1 t2 t3 t4
      let d := linkDly t1 t2 t3 t4
      let s := formSample l o d mo s
      if s.morState l = 4 then deliver (6 + l) (s.stampOf t4) (o + mo) d false s else s
  else s

def execMooringTimeRx (l : Fin 2) (back : Nat) (f : List Byte) : State → Res State := go (mooringTimeRx l.val back (natBytes f))

/-- 4 epochs in a row without a TIME frame take a link out of TIMED (R380): a frame that is not good has done so at once. -/
def timedLoss (l : Nat) (s : State) : State := if 4 ≤ (s.mor l).miss then endTimed l s else s

def execTimedLoss (l : Fin 2) : State → Res State := go (timedLoss l.val)

/-- A BERT frame received: its bits are checked (R474). -/
def bertRx (l bits errors : Nat) (f : List Nat) (s : State) : State :=
  if morShort f then mooringFrameErr l s
  else if s.morUp l then
    (s.wr (R.MOR_LINK_STAT_PEER l) (morSrc f)).modMor l (fun k => { k with bertBits := k.bertBits + bits, bertErrs := k.bertErrs + errors })
  else s

def execBertRx (l : Fin 2) (bits errors : Nat) (f : List Byte) : State → Res State := go (bertRx l.val bits errors (natBytes f))

/-! ### Ring closure (R383, R384) -/

/-- Adds each link's equal part of a closure to the shares the next filter step takes (R384). -/
def addShares (n : Nat) (w e : Int) (s : State) : State :=
  if n = 0 then s
  else s.modStack (fun k => { k with
    shares := (k.shares.1 + rndNearest (mkRat (w * 256) (1000 * n)), k.shares.2 + rndNearest (mkRat (e * 256) (1000 * n))) })

/-- Mean of a closure in ps. -/
def closurePs (sum : Int) (n : Nat) : Int := rnd (mkRat (sum * 1000) (65536 * n))

/-- The end of a closure window on the master. -/
def closureWindow (s : State) : State :=
  let w := s.closeWin
  let s := s.waitTs0 ((w + 1) * sec16 64)
  let k := s.stack
  if s.isMaster && s.on R.MOR_STAT_RING_OK && k.win = w && k.spoilt ≠ some w && k.numW ≠ 0 && k.numE ≠ 0 then
    let cw := closurePs k.sumW k.numW
    let ce := closurePs k.sumE k.numE
    let s := (s.wr (R.MOR_CLOSE_C 0) (ofSigned 32 cw)).wr (R.MOR_CLOSE_C 1) (ofSigned 32 ce)
    let thr := s.rd R.MOR_CTL_CLOSE_THR
    let s := if thr < cw.natAbs ∨ thr < ce.natAbs then s.raise Evt.mor 32 else s
    if s.on R.MOR_CTL_CLOSE_AUTO then
      let n := s.rd R.MOR_STAT_N
      addShares n cw ce (sendTnd 0xFF 5 ([n, 0, 0, 0] ++ le 4 (ofSigned 32 cw) ++ le 4 (ofSigned 32 ce)) s)
    else s
  else s

def execClosureWindow : State → Res State := go closureWindow

/-! ### Fabric states (R394-R396) -/

/-- MASTER in MOR_STAT changes; the links are judged by it at once (R380). -/
def setMaster (m : Nat) (s : State) : State :=
  let old := s.masterAddr
  if old = m then s else judgeTimed 1 (judgeTimed 0 (((s.wr R.MOR_STAT_MASTER m).raise Evt.mor 2).logRec 0x0901 m 0 [old]))

def setFabric (v : Nat) (s : State) : State := s.wr R.MOR_STAT_FABRIC v

/-- Enters LISTEN; the wait for a master's HELLO begins. -/
def enterListen (s : State) : State := (setFabric 1 s).modStack (fun k => { k with masterAt := s.clk })
/-- Enters DISCOVER; the wait without a better-ranked node begins. -/
def enterDiscover (s : State) : State := setMaster 0 ((setFabric 2 s).modStack (fun k => { k with betterAt := s.clk }))

/-- Becomes MASTER, taking address 1 without one; its links carry it no time from now on (R381, R395). -/
def becomeMaster (s : State) : State :=
  let s := setFabric 4 s
  let s := if s.stackAddr = 0 then s.wr R.MOR_STAT_ADDR 1 else s
  let s := endTimed 1 (endTimed 0 (setMaster s.stackAddr s))
  let s := s.modStack (fun k => { k with rcheckAt := s.clk + s.rchkSpan, reports := [], handover := none, heirOf := none, heir := 0 })
  s.wr R.MOR_STAT_N s.held.length

/-- Leaves MASTER. -/
def leaveMaster (s : State) : State := (s.lo R.MOR_STAT_RING_OK).modStack (fun k => { k with reports := [], handover := none })

/-- Stacking starts in LISTEN, or stops with ADDR 0 (R372, R394). -/
def stackOn (s : State) : State :=
  if s.fabric = 0 then (enterListen s).modStack (fun k => { k with helloAt := s.clk + s.helloSpan }) else s
def stackOff (s : State) : State :=
  let s := setMor 1 0 (setMor 0 0 (setFabric 0 s))
  let s := ((leaveMaster s).wr R.MOR_STAT_ADDR 0).lo R.MOR_STAT_N
  let s := setMaster 0 s
  s.modStack (fun k => { k with
    tx := [], attempt := 0, backoff := none, heirOf := none, heir := 0, order := [], judged := [], engines := [] })

/-- A write of MOR_CTL. -/
def writeMorCtl (w : Nat) (s : State) : State :=
  let s := s.storeReg false Reg.MOR_CTL w
  if s.on R.MOR_CTL_EN then stackOn s else if s.fabric = 0 then s else stackOff s

def execStackEnable (w : Word) : State → Res State := go (writeMorCtl w.toNat)

/-- What stacking does at an epoch marker: the target of a handover whose HELLO is out becomes master, epochs without frames are counted,
and TIME frames leave on the links where frames flow (R377, R380, R396). -/
def stackMarker (s : State) : State :=
  let s := if s.stack.heir = 2 then becomeMaster s else s
  let tick := fun (s : State) (l : Nat) =>
    if s.morUp l then
      let k := s.mor l
      let s := if k.gotTime then s else bumpReg (R.MOR_LINK_ERR_TIME_MISS l) s
      s.modMor l (fun k => { k with gotTime := false, miss := if k.gotTime then 0 else k.miss + 1 })
    else s
  let s := tick (tick s 0) 1
  let s := if s.morUp 0 then sendTime 0 s else s
  if s.morUp 1 then sendTime 1 s else s

/-! ### Tender transmission (R392) -/

/-- What the sending of a frame begins: the wait for a PONG, the TIMEOUT of a handover, and the epoch from which the heir whose HELLO
has MASTER set is master (R396, R474). -/
def noteSent (f : List Nat) (s : State) : State :=
  match f.getD 10 0 with
  | 1 => s.modStack (fun k => { k with heir := if k.heir = 1 ∧ bit (f.getD 21 0) 1 then 2 else k.heir })
  | 6 => s.modStack (fun k => { k with handover := k.handover.map (fun h => (h.1, s.clk)) })
  | 7 => s.modStack (fun k => { k with pings := IMap.put none k.pings (f.getD 8 0) (some (s.clk, leAt f 12 8)) })
  | _ => s

/-- So many bit times of 80 ns on the Tender bus (R390), in 2^-16 ns. -/
def tndBits (n : Nat) : Nat := ns16 (n * 80)

/-- The Tender bus is busy for so many more bit times (R392). -/
def tenderBusy (n : Nat) (s : State) : State := s.modStack (fun k => { k with busyTo := max k.busyTo (s.clk + tndBits n) })

/-- The frame at the head of the queue is sent after 96 idle bit times, or collides: then a jam of 32 bits follows (R392). -/
def tenderTx (collision : Bool) (s : State) : State :=
  match s.stack.tx with
  | [] => s
  | f :: rest =>
    if s.fabric = 0 ∨ s.inTest = true ∨ s.stack.backoff.isSome then s
    else
    let s := s.waitClk (s.stack.busyTo + tndBits 96)
    if collision then
      let s := tenderBusy 32 (((bumpReg R.TND_CNT_COLLISIONS s).count 0x1A2 0 1).emit .jam)
      let n := s.stack.attempt + 1
      if n = 16 then
        (bumpReg R.TND_CNT_ABORTS (s.modStack (fun k => { k with tx := rest, attempt := 0 }))).raise Evt.mor 1024
      else
        let r := Config.backoff s.stack.backoffDraw % 2 ^ (min n 8)
        s.modStack (fun k => { k with attempt := n, backoff := some (s.stack.busyTo + r * tndBits 128), backoffDraw := k.backoffDraw + 1 })
    else
      noteSent f (tenderBusy (8 * f.length) ((s.emit (.tender f)).modStack (fun k => { k with tx := rest, attempt := 0 })))

def execTenderTx (collision : Bool) : State → Res State := go (tenderTx collision)

/-- A backoff ends; the frame may be sent again. -/
def tenderBackoff (s : State) : State :=
  match s.stack.backoff with
  | none => s
  | some t => (s.waitClk t).modStack (fun k => { k with backoff := none })

def execTenderBackoff : State → Res State := go tenderBackoff

/-! ### Tender reception (R391) -/

/-- Whether a frame is for this node. -/
def State.tndTakes (s : State) (dst : Nat) : Bool := s.fabric ≠ 0 && (dst = 0xFF || (dst ≠ 0 && dst = s.stackAddr))

/-- An accepted frame is counted and acted on; any frame has kept the bus busy. -/
def takeTnd (f : TndFrame) (act : Nat → List Nat → State → State) (s : State) : State :=
  let s := tenderBusy 0 s
  if s.tndTakes f.dst.toNat then act f.src.toNat (natBytes f.payload) (bumpReg R.TND_ERR_RX_OK s) else s

/-- A frame with a bad CRC. -/
def tenderCrcErr (s : State) : State := if s.fabric = 0 then s else bumpReg R.TND_ERR_CRC_ERR (tenderBusy 0 s)

def execTenderCrcErr : State → Res State := go tenderCrcErr

/-! ### HELLO (R393, R394, R396) -/

/-- HELLO's payload; an heir's has MASTER set (R396). -/
def State.helloPayload (s : State) : List Nat :=
  let m := s.isMaster || s.stack.heir ≠ 0
  le 8 ownUid ++ [s.rd R.MOR_CTL_PRIO, s.rd R.MOR_STAT_STRAP + 2 * b01 m, if m then s.stackAddr else s.masterAddr, 0]

/-- The HELLO of this period goes out. -/
def helloSend (s : State) : State :=
  if s.fabric = 0 then s
  else
    let j := Config.helloJitter s.stack.helloDraw % (ms16 25 + 1)
    let s := s.waitClk (s.stack.helloAt + j)
    let s := sendTnd 0xFF 1 s.helloPayload s
    s.modStack (fun k => { k with helloAt := k.helloAt + s.helloSpan, helloDraw := k.helloDraw + 1 })

def execHelloSend : State → Res State := go helloSend

/-- The lowest free address. -/
def State.freeAddr (s : State) : Option Nat := stackAddrs.find? (fun a => !s.addrHeld a)

/-- The address reserved for a UID. -/
def State.addrOf (s : State) (uid : Nat) : Option Nat := stackAddrs.find? (fun a => s.nodeUid a = uid)

/-- Gives a newcomer an address, or raises NO_ADDR where none is free (R394).  The address is unheard from the node's last HELLO on. -/
def assignTo (uid : Nat) (addr : Option Nat) (s : State) : State :=
  match addr with
  | none => s.raise Evt.mor 128
  | some a =>
    let s := (setNodeUid a uid s).modStack (fun k => { k with
      heard := IMap.put none k.heard a (some (((k.newcomers.find? (fun n => n.uid = uid)).map (·.heard)).getD s.clk))
      newcomers := k.newcomers.map (fun n => if n.uid = uid then { n with assigned := some s.clk } else n) })
    sendTnd 0xFF 2 (le 8 uid ++ [a, 0, 0, 0]) s

/-- One ASSIGN to a node (R394). -/
def assignNode (uid : Nat) (s : State) : State := assignTo uid ((s.addrOf uid).or s.freeAddr) s

/-- Nodes heard with SRC 0 within TIMEOUT that have had no ASSIGN within a period, by rising UID. -/
def State.toAssign (s : State) : List Nat :=
  sortBy (fun u v => decide (u ≤ v)) ((s.stack.newcomers.filter (fun n => !n.placed && decide (s.clk ≤ n.heard + s.timeoutSpan)
    && (match n.assigned with
      | none => true
      | some t => decide (t + s.helloSpan ≤ s.clk)))).map (·.uid))

/-- The master assigns addresses. -/
def assignAll (s : State) : State := if s.isMaster then s.toAssign.foldl (fun s u => assignNode u s) s else s

/-- The table entry of a node that holds an address. -/
def noteNode (a uid prio strap mstr : Nat) (s : State) : State :=
  let s := (setNodeUid a uid s).wr (R.TND_NODE_INFO_PRIO (a - 1)) prio
  let s := (s.wr (R.TND_NODE_INFO_STRAP (a - 1)) strap).wr (R.TND_NODE_INFO_MASTER (a - 1)) mstr
  let s := (s.hi (R.TND_NODE_INFO_PRESENT (a - 1))).wr R.TND_STAT_HEARD (s.rd R.TND_STAT_HEARD ||| 2 ^ (a - 1))
  s.modStack (fun k => { k with
    heard := IMap.put none k.heard a (some s.clk)
    newcomers := k.newcomers.map (fun n => if n.uid = uid then { n with placed := true } else n) })

/-- A node without an address is noted. -/
def noteNewcomer (uid strap : Nat) (s : State) : State :=
  s.modStack (fun k => { k with
    newcomers := { (k.newcomers.find? (fun n => n.uid = uid)).getD {} with uid := uid, strap := strap, heard := s.clk, placed := false }
      :: k.newcomers.filter (fun n => n.uid ≠ uid) })

/-- TND_STAT UNASSIGNED: a HELLO with SRC 0 has been heard within TIMEOUT (R398). -/
def State.unassigned (s : State) : Bool := s.stack.newcomers.any (fun n => decide (s.clk ≤ n.heard + s.timeoutSpan))

/-- Whether two strapped nodes are heard, this one and those without an address included (R396). -/
def State.twoStraps (s : State) (uid : Nat) : Bool :=
  s.rd R.MOR_STAT_STRAP = 1
    || s.stack.newcomers.any (fun n => n.strap = 1 && n.uid ≠ uid && decide (s.clk ≤ n.heard + s.timeoutSpan))
    || stackAddrs.any (fun a => s.rd (R.TND_NODE_INFO_PRESENT (a - 1)) = 1 && s.rd (R.TND_NODE_INFO_STRAP (a - 1)) = 1 && s.nodeUid a ≠ uid)

/-- The yielding master keeps its address unless it is taken (R396). -/
def yield_ (src : Nat) (s : State) : State :=
  let s := enterListen (leaveMaster s)
  let s := if s.stackAddr = src ∨ (s.nodeUid s.stackAddr ≠ 0 ∧ s.nodeUid s.stackAddr ≠ ownUid) then s.wr R.MOR_STAT_ADDR 0 else s
  setMaster src s

/-- A HELLO with MASTER set. -/
def masterHello (src : Nat) (rank : Nat × Nat × Nat) (s : State) : State :=
  let heard := fun (s : State) => s.modStack (fun k => { k with masterAt := s.clk })
  if s.isMaster then
    match s.stack.handover with
    | some (t, _) =>
      if t = src then heard (setMaster src (setFabric 3 (leaveMaster s))) else s.raise Evt.mor 64
    | none =>
      let s := s.raise Evt.mor 64
      if ranksAhead rank s.ownRank then yield_ src s else s
  else
    let old := s.masterAddr
    let awaited := s.stack.heirOf = some src
    let clash : Bool := decide (old ≠ 0) && decide (old ≠ src) && !awaited && decide (old ≠ s.stackAddr)
      && decide (s.clk ≤ s.stack.masterAt + s.timeoutSpan)
    let s := if clash then s.raise Evt.mor 64 else s
    let s := if clash && !ranksAhead rank (s.nodeRank old) then s
      else heard (setMaster src (s.modStack (fun k => { k with heirOf := if awaited then none else k.heirOf })))
    if s.fabric = 2 then enterListen s
    else if s.fabric = 1 then s.modStack (fun k => { k with tx := k.tx ++ [tndFrame 0xFF 0 1 s.helloPayload] })
    else s

/-- Whether a HELLO is the one the target of a handover sends first, which sets no CONFLICT (R396). -/
def State.heirHello (s : State) (src mstr : Nat) : Bool :=
  mstr = 1 && (s.stack.heirOf = some src || (s.stack.handover.map (·.1)) = some src)

/-- A received HELLO. -/
def hello (src : Nat) (p : List Nat) (s : State) : State :=
  let uid := leAt p 0 8
  let prio := p.getD 8 0
  let strap := p.getD 9 0 % 2
  let mstr := p.getD 9 0 / 2 % 2
  let s := if strap = 1 && s.twoStraps uid && !s.heirHello src mstr then s.raise Evt.mor 64 else s
  let s := if 1 ≤ src ∧ src ≤ 8 then noteNode src uid prio strap mstr s else if src = 0 then noteNewcomer uid strap s else s
  let s := if mstr = 1 then masterHello src (strap, prio, uid) s else s
  let s := if s.fabric = 2 && ranksAhead (strap, prio, uid) s.ownRank then s.modStack (fun k => { k with betterAt := s.clk }) else s
  assignAll s

def execHello (f : TndFrame) : State → Res State := go (takeTnd f hello)

/-- A received ASSIGN. -/
def assign (p : List Nat) (s : State) : State :=
  if s.fabric = 1 ∧ leAt p 0 8 = ownUid ∧ 1 ≤ p.getD 8 0 ∧ p.getD 8 0 ≤ 8 then
    (setFabric 3 (s.wr R.MOR_STAT_ADDR (p.getD 8 0))).modStack (fun k => { k with masterAt := s.clk })
  else s

def execAssign (f : TndFrame) : State → Res State := go (takeTnd f (fun _ => assign))

/-! ### Ring check frames -/

/-- A received RCHECK: N follows the master, N and ORDER of a closed ring are kept, and a report answers (R397). -/
def rcheck (p : List Nat) (s : State) : State :=
  if s.fabric = 3 then
    let s := (s.wr R.MOR_STAT_N (p.getD 3 0)).modStack (fun k => { k with
      rseq := leAt p 0 2
      order := if p.getD 2 0 % 2 = 1 then ((p.drop 4).take 8).take (p.getD 3 0) else k.order })
    sendReport s
  else s

def execRcheck (f : TndFrame) : State → Res State := go (takeTnd f (fun _ => rcheck))

/-- A received RREPORT; one that shows a link in another state spoils the closure window (R383). -/
def rreport (src : Nat) (p : List Nat) (s : State) : State :=
  if s.isMaster then
    let moved := match IMap.get none s.stack.reports src with
      | some r => decide (r.state0 ≠ p.getD 3 0) || decide (r.state1 ≠ p.getD 5 0)
      | none => false
    let s := s.when moved spoil
    judgeRing (s.modStack (fun k => { k with
      reports := IMap.put none k.reports src
        (some { rseq := leAt p 0 2, peer0 := p.getD 2 0, state0 := p.getD 3 0, peer1 := p.getD 4 0, state1 := p.getD 5 0 }) }))
  else s

def execRreport (f : TndFrame) : State → Res State := go (takeTnd f rreport)

/-- The master's ring check: reports that did not answer the last one lapse, and the ring as judged goes out; the master keeps the ORDER of one with
RING_OK set, as the members do (R397). -/
def rcheckSend (s : State) : State :=
  if s.isMaster then
    let s := s.waitClk s.stack.rcheckAt
    let s := judgeRing (s.modStack (fun k => { k with
      reports := k.reports.filter (fun r => (r.2.map (·.rseq)) = some k.rseq), rcheckAt := k.rcheckAt + s.rchkSpan }))
    let ok := s.on R.MOR_STAT_RING_OK
    let s := s.modStack (fun k => { k with rseq := (k.rseq + 1) % 65536, order := if ok then k.judged else k.order })
    let order := (if ok then s.stack.order else []) ++ List.replicate 8 0
    sendTnd 0xFF 3 (le 2 s.stack.rseq ++ [b01 ok, s.rd R.MOR_STAT_N] ++ order.take 8) s
  else s

def execRcheckSend : State → Res State := go rcheckSend

/-- A received ASYM: shares for the next filter step (R384). -/
def asym (p : List Nat) (s : State) : State :=
  if s.fabric = 3 then addShares (p.getD 0 0) (toSigned 32 (leAt p 4 4)) (toSigned 32 (leAt p 8 4)) s else s

def execAsym (f : TndFrame) : State → Res State := go (takeTnd f (fun _ => asym))

/-- A received HANDOVER (R396): the target's next HELLO has MASTER set; others await it. -/
def handoverRx (src : Nat) (p : List Nat) (s : State) : State :=
  if (s.fabric = 1 ∨ s.fabric = 3) ∧ src = s.masterAddr then
    s.modStack (fun k =>
      let k := { k with heirOf := some (p.getD 0 0) }
      if s.fabric = 3 ∧ p.getD 0 0 = s.stackAddr then { k with heir := 1 } else k)
  else s

def execHandoverRx (f : TndFrame) : State → Res State := go (takeTnd f handoverRx)

/-- A received PING is echoed (R393). -/
def ping (src : Nat) (p : List Nat) (s : State) : State := sendTnd src 8 (p.take 8) s

def execPing (f : TndFrame) : State → Res State := go (takeTnd f ping)

/-- A received PONG: equal, and within 2 ms of its PING (R474). -/
def pong (src : Nat) (p : List Nat) (s : State) : State :=
  match IMap.get none s.stack.pings src with
  | some (t, v) =>
    if s.clk ≤ t + ms16 2 ∧ leAt p 0 8 = v then
      s.modStack (fun k => { k with pings := IMap.put none k.pings src none, answered := src :: k.answered })
    else s
  | none => s

def execPong (f : TndFrame) : State → Res State := go (takeTnd f pong)

/-! ### Timeouts (R394-R396) -/

/-- TIMEOUT periods without a master's HELLO. -/
def masterLost (s : State) : State :=
  if s.fabric = 1 ∨ s.fabric = 3 then
    let s := s.waitClk (s.stack.masterAt + s.timeoutSpan)
    if s.fabric = 1 then enterDiscover s
    else if s.morTimed 0 || s.morTimed 1 then s.raise Evt.mor 256
    else enterDiscover ((s.raise Evt.mor 4).modStack (fun k => { k with heirOf := none, heir := 0 }))
  else s

def execMasterLost : State → Res State := go masterLost

/-- 8 periods without a better-ranked node. -/
def discoverTimeout (s : State) : State :=
  if s.fabric = 2 then becomeMaster (s.waitClk (s.stack.betterAt + 8 * s.helloSpan)) else s

def execDiscoverTimeout : State → Res State := go discoverTimeout

/-- An address unheard for TIMEOUT periods is freed (`a` from 0), with stacking off as well. -/
def nodeTimeout (a : Nat) (s : State) : State :=
  match IMap.get none s.stack.heard (a + 1) with
  | none => s
  | some t =>
    if s.nodeUid (a + 1) ≠ 0 then
      let s := setNodeUid (a + 1) 0 (s.waitClk (t + s.timeoutSpan))
      let s := s.lo (R.TND_NODE_INFO_PRESENT a)
      judgeRing (s.wr R.TND_STAT_HEARD (s.rd R.TND_STAT_HEARD &&& (255 - 2 ^ a)))
    else s

def execNodeTimeout (a : Fin 8) : State → Res State := go (nodeTimeout a.val)

/-- TND_NODE_INFO AGE: 10 ms units since the last HELLO of an address. -/
def State.nodeAge (s : State) (a : Nat) : Nat :=
  match IMap.get none s.stack.heard (a + 1) with
  | none => 0xFFFF
  | some t => satNat 16 ((s.clk - t) / ms16 10)

/-- No HELLO came from the target of a handover: it lapses, with a record (R396). -/
def handoverLapse (s : State) : State :=
  match s.stack.handover with
  | none => s
  | some (t, at_) =>
    if s.isMaster then
      let s := s.waitClk (at_ + s.timeoutSpan)
      (s.modStack (fun k => { k with handover := none })).logRec (Config.lapseEvent % 65536) (Config.lapseUnit t % 256) 0 []
    else s

def execHandoverLapse : State → Res State := go handoverLapse

end Sys2Proof.Machine
end

