-- ==== Sys2Proof/Machine/Mailbox.lean ====
section
/-! DEFINITION. Mailboxes (13): channel states, locks, permitted and rejected accesses, holds, resets of owners and receivers, crossings
and notifications. -/

namespace Sys2Proof.Machine

/-! ### Channels (R400) -/

def State.mbox (s : State) (c : Nat) : Mbx := IMap.get {} s.mbx c
def State.modMbox (s : State) (c : Nat) (f : Mbx → Mbx) : State := { s with mbx := IMap.upd {} s.mbx c f }

/-- A channel's state: 0 EMPTY, 1 LOCKED, 2 FULL, 3 REPLIED. -/
def State.mbxState (s : State) (c : Nat) : Nat := s.rd (R.MBX_STAT_STATE c)
def State.mbxOwner (s : State) (c : Nat) : Nat := s.rd (R.MBX_STAT_OWNER c)

/-- The sender ID of a channel's receiver. -/
def mbxReceiver (c : Nat) : Nat := if c < 4 ∨ (8 ≤ c ∧ c < 12) then 3 else if c < 8 then 1 else 2

/-- Whether a sender's kind is accepted on a channel. -/
def mbxAccepts (c id : Nat) : Bool :=
  if c < 2 then id = 1
  else if c = 2 then decide (4 ≤ id ∧ id < 8)
  else if c = 3 ∨ c = 11 then decide (8 ≤ id)
  else if c < 8 then decide (3 ≤ id ∧ id < 8)
  else if c < 11 then id = 2
  else id = 3

/-- The same, with the channel for relayed packets that RELAY_SEC leaves out (R400). -/
def State.mbxOpen (s : State) (c id : Nat) : Bool :=
  mbxAccepts c id && !(c = 3 && s.on R.MOR_RELAY_CFG_RELAY_SEC) && !(c = 11 && !s.on R.MOR_RELAY_CFG_RELAY_SEC)

/-- The sender ID of a path (R407). -/
def pathId : MbxPath → Nat
  | .host f => 1 + f.val
  | .keeper _ => 3
  | .beacon n => 4 + n.val
  | .peer a => 8 + a.val

/-- Whether a path reaches a secure channel (R409). -/
def reachesSecure : MbxPath → Bool
  | .host f => f.val = 1
  | .keeper sec => sec
  | .beacon _ => false
  | .peer _ => true

/-- Whether a function is up: in D0, out of its function-level reset and of PE_PERST_N (R411, R447). -/
def State.fnUp (s : State) (f : Nat) : Bool :=
  (if f = 0 then s.pcie.d0a && !s.pcie.flr0 else s.pcie.d0b && !s.pcie.flr1) && s.pcie.perstHigh

/-- Whether a channel's receiver is down (R411). -/
def State.rxDown (s : State) (c : Nat) : Bool :=
  match mbxReceiver c with
  | 3 => !s.on R.DEV_DIE_STAT_KFW_RUN
  | 1 => !s.fnUp 0
  | _ => !s.fnUp 1

/-! ### Events and rejections (R403, R409, R418) -/

/-- MBX_EVT_NS, vector 62 of PF0, and MBX_EVT_S, vector 50 of PF1. -/
def Evt.mbx (cls : Nat) : EvtSrc := ⟨R.MBX_EVT_BITS cls, some (R.MBX_EVT_EN_BITS cls), cls, if cls = 0 then 62 else 50⟩

/-- Sets a channel's bit of a kind (0 ARRIVE, 1 REPLY, 2 REJECT, 3 WITHDRAW) in its class's event register. -/
def mbxEvent (c kind : Nat) (s : State) : State := s.raise (Evt.mbx (c / 8)) (2 ^ (8 * kind + c % 8))

/-- Register offsets within a channel's block. -/
def mbxOffset (r : Register) (c : Nat) : Nat := r.addr - (0x100000 + c * 0x80)

/-- A rejected access (R403, R409): REJECT and its event, the AER log of a host or the error response of an internal path, 0xFFFF_FFFF for a read,
the record of a secure channel. -/
def reject (c : Nat) (p : MbxPath) (addr : Nat) (read : Bool) (s : State) : State :=
  let s := (mbxEvent c 2 (s.hi (R.MBX_STAT_REJECT c))).count 0x021 c 1
  let logged : Bool := decide (8 ≤ c) && (!reachesSecure p || (decide (12 ≤ c) && decide (pathId p = 2)))
  let s := if logged then s.logRec 0x0E01 c (pathId p) (le 4 (addr - (0x100000 + c * 0x80))) else s
  let s := match p with
    | .host f => s.emit (.aer f.val addr read)
    | _ => s.emit (.pathError (pathId p) read)
  if read then s.emit (.lockRead (pathId p) 0xFFFFFFFF) else s

/-! ### Entering states (R401, R406-R408) -/

/-- The 16 data words of a channel. -/
def mbxWords : List Nat := List.range 16
def State.mbxData (s : State) (c : Nat) : List Nat := mbxWords.map (fun k => s.rd (R.MBX_DATA_DATA (c * 16 + k)))

/-- A channel becomes EMPTY, its data cleared (R408). -/
def mbxEmpty (c : Nat) (s : State) : State :=
  let s := mbxWords.foldl (fun s k => s.lo (R.MBX_DATA_DATA (c * 16 + k))) s
  let s := ((s.lo (R.MBX_STAT_STATE c)).lo (R.MBX_STAT_OWNER c)).lo (R.MBX_STAT_ORPHAN c)
  let s := { s with fw := { s.fw with posted := IMap.put [] s.fw.posted c [] } }
  s.modMbox c (fun _ => {})

/-- Stamps an ID into DATA1 [31:24] (R407). -/
def stamp (c id : Nat) (s : State) : State :=
  s.wr (R.MBX_DATA_DATA (c * 16 + 1)) (s.rd (R.MBX_DATA_DATA (c * 16 + 1)) % 2 ^ 24 + id * 2 ^ 24)

/-- The hold restarts (R406). -/
def restartHold (c : Nat) (s : State) : State := s.modMbox c (fun m => { m with holdAt := s.clk })

/-- The host function of a channel's class as a sender ID: PF0, or PF1 (R418). -/
def classHost (c : Nat) : Nat := if c < 8 then 1 else 2

/-- An owner's message becomes FULL; the firmware's queue takes it where it is the receiver (R401, R407, R427). -/
def goFull (c id : Nat) (s : State) : State :=
  let s := ((stamp c id s).wr (R.MBX_STAT_STATE c) 2).wr (R.MBX_STAT_LAST_SENDER c) id
  let s := s.count 0x020 c 1
  let s := if mbxReceiver c = classHost c then mbxEvent c 0 s else s
  if mbxReceiver c = 3 then
    { s with fw := { s.fw with queue := s.fw.queue ++ [{ path := .mbx c, sender := id, sec := s.on R.MOR_RELAY_CFG_RELAY_SEC }] } }
  else s

/-- How a message the firmware posted ended (R416, R423). -/
def postEnds (c status : Nat) (s : State) : State :=
  { s with fw := { s.fw with postStatus := IMap.put 0 s.fw.postStatus c status } }

/-- The receiver's reply is in place, or an orphan's is discarded (R401, R413). -/
def goReplied (c : Nat) (s : State) : State :=
  if s.on (R.MBX_STAT_ORPHAN c) then mbxEmpty c s
  else
    let s := restartHold c ((stamp c (mbxReceiver c) s).wr (R.MBX_STAT_STATE c) 3)
    let s := s.modMbox c (fun m => { m with doneAt := some s.tick.count })
    let s := if s.mbxOwner c = 3 then postEnds c (s.rd (R.MBX_DATA_DATA (c * 16 + 2)) % 256) s else s
    if s.mbxOwner c = classHost c then mbxEvent c 1 s else s

/-! ### Lock (R404, R405, R413) -/

/-- The accepted readers of one cycle, and the lowest ID among them. -/
def State.lowestId (s : State) (c : Nat) (ps : List MbxPath) : Option Nat := ((ps.map pathId).filter (s.mbxOpen c)).min?

/-- One reader's read of MBX_LOCK, the channel as it stood and the cycle's winner given. -/
def lockAnswer (c : Nat) (old : State) (winner : Option Nat) (p : MbxPath) (s : State) : State :=
  let id := pathId p
  if (old.rxDown c && id ≠ mbxReceiver c) || (decide (8 ≤ c) && !reachesSecure p) then reject c p (Reg.MBX_LOCK c).addr true s
  else if !old.mbxOpen c id then s.emit (.lockRead id 0xFF)
  else if old.mbxState c ≠ 0 then s.emit (.lockRead id (old.mbxOwner c))
  else s.emit (.lockRead id (if winner = some id then 0 else winner.getD 0))

/-- Reads of one MBX_LOCK in one cycle. -/
def lockRead (c : Nat) (ps : List MbxPath) (s : State) : State :=
  let ps := ps.filter (fun p => c < 8 || reachesSecure p || p ≠ .host 0)
  let w := s.lowestId c (ps.filter (fun p => c < 8 || reachesSecure p))
  let s' := ps.foldl (fun t p => lockAnswer c s w p t) s
  match w with
  | some id =>
    if s.mbxState c = 0 ∧ s.rxDown c = false then restartHold c ((s'.wr (R.MBX_STAT_STATE c) 1).wr (R.MBX_STAT_OWNER c) id) else s'
  | none => s'

/-! ### Data and control (R402) -/

/-- Whether an access as owner, or as receiver, is open to a path. -/
def State.asOwner (s : State) (c : Nat) (p : MbxPath) : Bool :=
  pathId p = s.mbxOwner c && !s.on (R.MBX_STAT_ORPHAN c) && !s.rxDown c && (c < 8 || reachesSecure p)
def State.asReceiver (s : State) (c : Nat) (p : MbxPath) : Bool := pathId p = mbxReceiver c && !s.rxDown c && (c < 8 || reachesSecure p)

/-- A read or write of MBX_DATAk. -/
def dataAccess (c k : Nat) (p : MbxPath) (w : Option Nat) (s : State) : State :=
  let f := R.MBX_DATA_DATA (c * 16 + k)
  let own : Bool := s.asOwner c p && (s.mbxState c = 1 || (s.mbxState c = 3 && w.isNone))
  if own || (s.asReceiver c p && s.mbxState c = 2) then
    let s := if own then restartHold c s else s
    match w with
    | some v => s.wr f v
    | none => s.emit (.lockRead (pathId p) (s.rd f))
  else reject c p f.addr w.isNone s

/-- The relay agent's further packets, long ones straight to the firmware, wait for the channel of RELAY_SEC (R410). -/
def relayChannel (s : State) : Nat := if s.on R.MOR_RELAY_CFG_RELAY_SEC then 11 else 3

/-- Writes bytes into a channel's data words, a part word padded with zeros. -/
def putWords (c : Nat) (bytes : List Nat) (s : State) : State :=
  (mbxWords.take ((bytes.length + 3) / 4)).foldl (fun s k => s.wr (R.MBX_DATA_DATA (c * 16 + k)) (leAt bytes (4 * k) 4)) s

/-- The relay agent hands over what it can, in arrival order (R410). -/
def agentFeed : Nat → State → State
  | 0, s => s
  | n + 1, s =>
    match s.stack.relayQ with
    | [] => s
    | (src, pkt) :: rest =>
      let drop := fun (s : State) => s.modStack (fun k => { k with relayQ := rest })
      if 64 < pkt.length then
        let s := drop s
        let c : Cmd := { path := .relay src, sender := 7 + src, sec := s.on R.MOR_RELAY_CFG_RELAY_SEC, bytes := pkt }
        agentFeed n { s with fw := { s.fw with queue := s.fw.queue ++ [c] } }
      else
        let c := relayChannel s
        if s.mbxState c = 0 ∧ s.rxDown c = false then
          agentFeed n (goFull c (7 + src) (putWords c pkt ((drop s).wr (R.MBX_STAT_OWNER c) (7 + src))))
        else s
def agentRun (s : State) : State := agentFeed 9 s

/-- Sends a RELAY frame to an address on the link with fewer hops, or on the other where that link carries no frames; none (R387). -/
def State.relayLink (s : State) (dst : Nat) : Option Nat :=
  let o := s.stack.order
  let n := o.length
  let i := o.idxOf s.stackAddr
  let j := o.idxOf dst
  let l := if i < n ∧ j < n ∧ (i + n - j) % n < (j + n - i) % n then 1 else 0
  if s.morUp l then some l else if s.morUp (1 - l) then some (1 - l) else none

def sendRelay (dst : Nat) (pkt : List Nat) (s : State) : State :=
  match s.relayLink dst with
  | none => s
  | some l =>
    let q := (s.mor l).relaySeq
    (s.emit (.mooring l (morFrame 2 s.stackAddr dst 7 q pkt))).modMor l (fun k => { k with relaySeq := (k.relaySeq + 1) % 65536 })

/-- The bytes of a packet in a channel: header and as many parameters as LENGTH says, at most 48. -/
def State.mbxPacket (s : State) (c : Nat) : List Nat :=
  let b := (s.mbxData c).flatMap (le 4)
  b.take (16 + min 48 (leAt b 4 2))

/-- A reply in place on a relay channel is returned by a RELAY frame, and the agent frees the channel (R410). -/
def agentReply (c : Nat) (s : State) : State :=
  if s.mbxState c = 3 ∧ 8 ≤ s.mbxOwner c then
    agentRun (mbxEmpty c (sendRelay (s.mbxOwner c - 7) (s.mbxPacket c) s))
  else s

/-- WITHDRAW by the firmware as owner (R416). -/
def withdrawMsg (c : Nat) (s : State) : State := mbxEvent c 3 ((mbxEmpty c s).hi (R.MBX_STAT_WITHDRAWN c))

/-- A write of MBX_CTL: exactly one action bit, open to the path in the channel's state. -/
def writeMbxCtl (c : Nat) (p : MbxPath) (w : Nat) (s : State) : State :=
  let st := s.mbxState c
  match w % 16 with
  | 1 => if s.asOwner c p && st = 1 then goFull c (pathId p) s else reject c p (Reg.MBX_CTL c).addr false s
  | 2 => if s.asReceiver c p && st = 2 then agentReply c (goReplied c s) else reject c p (Reg.MBX_CTL c).addr false s
  | 4 =>
    if s.asOwner c p && (st = 1 || st = 3) then agentRun (mbxEmpty c s) else reject c p (Reg.MBX_CTL c).addr false s
  | 8 => if s.asOwner c p && st = 2 && pathId p = 3 then withdrawMsg c s else reject c p (Reg.MBX_CTL c).addr false s
  | _ => reject c p (Reg.MBX_CTL c).addr false s

/-- An access of PF0 that completes with Unsupported Request: a read returns ones (R42). -/
def unsupported (addr : Nat) (read : Bool) (s : State) : State :=
  let s := s.emit (.aer 0 addr false)
  if read then s.emit (.readData 0xFFFFFFFF) else s

/-- PF0 reaches no secure channel (R42, R403). -/
def guarded (c : Nat) (p : MbxPath) (addr : Nat) (read : Bool) (f : State → State) (s : State) : State :=
  if 8 ≤ c ∧ p = .host 0 then unsupported addr read s else f s

/-! ### Any register of a channel (R402, R409, R411, R413) -/

/-- Whether an access is rejected whatever the channel's state: by a sender while its receiver is down, from a path that reaches no secure channel,
or by the former owner of an orphan. -/
def State.barred (s : State) (c : Nat) (p : MbxPath) : Bool :=
  (s.rxDown c && pathId p ≠ mbxReceiver c) || (decide (8 ≤ c) && !reachesSecure p)
    || (s.on (R.MBX_STAT_ORPHAN c) && pathId p = s.mbxOwner c)

/-- The same, with host PF1 on MBX12 to MBX15, which R409 leaves only reads of MBX_STAT and MBX_LOCK and what R402 gives a receiver (log entry
88). -/
def State.barredOther (s : State) (c : Nat) (p : MbxPath) : Bool := s.barred c p || (decide (12 ≤ c) && pathId p = 2)

/-- MBX_STAT as it reads, RX_DOWN among its bits. -/
def State.mbxStat (s : State) (c : Nat) : Nat := (R.MBX_STAT_RX_DOWN c).putIn (b01 (s.rxDown c)) (s.showReg (Reg.MBX_STAT c))

/-- A read of MBX_STAT, open to every path that reaches the channel, or a write of its W1C bits. -/
def statAccess (c : Nat) (p : MbxPath) (w : Option Nat) (s : State) : State :=
  match w with
  | none =>
    if decide (8 ≤ c) && !reachesSecure p then reject c p (Reg.MBX_STAT c).addr true s else s.emit (.lockRead (pathId p) (s.mbxStat c))
  | some v => if s.barredOther c p then reject c p (Reg.MBX_STAT c).addr false s else s.storeReg false (Reg.MBX_STAT c) v

/-- A read of MBX_CTL returns 0. -/
def readMbxCtl (c : Nat) (p : MbxPath) (s : State) : State :=
  if s.barredOther c p then reject c p (Reg.MBX_CTL c).addr true s else s.emit (.lockRead (pathId p) 0)

/-- A register's address. -/
def mbxRegAddr (c : Nat) : MbxReg → Nat
  | .data k => (Reg.MBX_DATA (c * 16 + k.val)).addr
  | .ctl => (Reg.MBX_CTL c).addr
  | .lock => (Reg.MBX_LOCK c).addr
  | .stat => (Reg.MBX_STAT c).addr

/-- An access to a register of a channel, by any path; a write of MBX_LOCK is rejected. -/
def mbxAccess (c : Nat) (r : MbxReg) (p : MbxPath) (w : Option Nat) (s : State) : State :=
  match r, w with
  | .data k, w => dataAccess c k.val p w s
  | .ctl, some v => writeMbxCtl c p v s
  | .ctl, none => readMbxCtl c p s
  | .lock, some _ => reject c p (Reg.MBX_LOCK c).addr false s
  | .lock, none => lockRead c [p] s
  | .stat, w => statAccess c p w s

def execMbxLockRead (c : Fin 16) (readers : List MbxPath) : State → Res State := go (fun s =>
  lockRead c.val readers (if 8 ≤ c.val ∧ MbxPath.host 0 ∈ readers then unsupported (Reg.MBX_LOCK c.val).addr true s else s))

def execMbxDataAccess (c : Fin 16) (r : MbxReg) (by_ : MbxPath) (w : Option Word) : State → Res State :=
  go (guarded c.val by_ (mbxRegAddr c.val r) w.isNone (mbxAccess c.val r by_ (w.map (·.toNat))))

/-- The channels. -/
def mbxIds : List Nat := List.range 16

/-- Writes of MBX_CTL in one cycle, the lower channel first (R414). -/
def goTogether (gs : List (Fin 16 × MbxPath × Nat)) (s : State) : State :=
  mbxIds.foldl (fun s c => (gs.filter (fun g => g.1.val = c)).foldl (fun s g =>
    guarded c g.2.1 (Reg.MBX_CTL c).addr false (writeMbxCtl c g.2.1 g.2.2) s) s) s

def execMbxGo (c : Fin 16) (by_ : MbxPath) (w : Word) (also : List (Fin 16 × MbxPath × Word)) : State → Res State :=
  go (goTogether ((c, by_, (R.MBX_CTL_GO c.val).setIn w.toNat) :: also.map (fun g => (g.1, g.2.1, g.2.2.toNat))))

def execMbxDone (c : Fin 16) (by_ : MbxPath) (w : Word) : State → Res State :=
  go (guarded c.val by_ (Reg.MBX_CTL c.val).addr false (writeMbxCtl c.val by_ ((R.MBX_CTL_DONE c.val).setIn w.toNat)))

def execMbxRelease (c : Fin 16) (by_ : MbxPath) (w : Word) : State → Res State :=
  go (guarded c.val by_ (Reg.MBX_CTL c.val).addr false (writeMbxCtl c.val by_ ((R.MBX_CTL_RELEASE c.val).setIn w.toNat)))

/-! ### Holds, receivers and owners (R406, R411, R412) -/

/-- A LOCKED or REPLIED channel's hold reaches LOCK_HOLD. -/
def lockHoldExpire (c : Nat) (s : State) : State :=
  if s.mbxState c = 1 ∨ s.mbxState c = 3 then
    let s := s.waitClk ((s.mbox c).holdAt + us16 (100 * max 1 (s.rd R.MBX_CFG_LOCK_HOLD)))
    agentRun (bumpReg R.MBX_XCNT_STALE ((mbxEmpty c s).hi (R.MBX_STAT_STALE c)))
  else s

def execLockHoldExpire (c : Fin 16) : State → Res State := go (lockHoldExpire c.val)

/-- A channel whose receiver goes down with a message FULL. -/
def abortMsg (c : Nat) (s : State) : State :=
  if s.mbxState c = 2 then
    if s.on (R.MBX_STAT_ORPHAN c) then mbxEmpty c s
    else
      let f := R.MBX_DATA_DATA (c * 16 + 2)
      goReplied c (s.wr f (s.rd f / 256 * 256 + 8))
  else s

/-- The same for the channels of a receiver. -/
def abortFor (id : Nat) (s : State) : State := (mbxIds.filter (fun c => mbxReceiver c = id)).foldl (fun s c => abortMsg c s) s

/-- The owner of a channel is reset. -/
def orphanFor (id : Nat) (s : State) : State :=
  (mbxIds.filter (fun c => s.mbxOwner c = id)).foldl (fun s c =>
    if s.mbxState c = 2 then s.hi (R.MBX_STAT_ORPHAN c) else if s.mbxState c = 0 then s else mbxEmpty c s) s

/-- A host function leaves D0, so that it is down as a receiver, or returns to it, its function-level reset over (R411). -/
def setD0 (f : Nat) (d0 : Bool) (s : State) : State :=
  let s := { s with pcie :=
    if f = 0 then { s.pcie with d0a := d0, flr0 := s.pcie.flr0 && !d0 } else { s.pcie with d0b := d0, flr1 := s.pcie.flr1 && !d0 } }
  if d0 then s else abortFor (1 + f) s

def execReceiverDown (fn : Fin 2) (d0 : Bool) : State → Res State := go (setD0 fn.val d0)

/-! ### Crossings and notifications (R415, R416, R430) -/

/-- The channels from the firmware to a function, and from the function to the firmware. -/
def toFn (f : Nat) : List Nat := if f = 0 then [4, 5, 6, 7] else [12, 13, 14, 15]
def fromFn (f : Nat) : List Nat := if f = 0 then [0, 1] else [8, 9, 10]

/-- Taking a message from a function while one to it is FULL begins a crossing (R415). -/
def beginCrossing (f : Nat) (s : State) : State :=
  (toFn f).foldl (fun s c =>
    if s.mbxState c = 2 ∧ s.mbxOwner c = 3 ∧ (s.mbox c).crossAt = none then s.modMbox c (fun m => { m with crossAt := some s.clk }) else s) s

/-- The firmware's message is still FULL at XTO after its crossing began: it is withdrawn, and its command ends with CROSSED; in the tick of its
DONE the WITHDRAW is rejected (R416). -/
def crossingTimeout (c : Nat) (s : State) : State :=
  match (s.mbox c).crossAt with
  | none => s
  | some t =>
    let due := t + us16 (max 1 (s.rd R.MBX_CFG_XTO))
    if s.mbxState c = 2 ∧ s.mbxOwner c = 3 ∧ s.on (R.MBX_STAT_ORPHAN c) = false then
      let s := s.waitClk due
      let pkt := IMap.get [] s.fw.posted c
      let s := postEnds c 9 (bumpReg R.MBX_XCNT_CROSSED (withdrawMsg c s))
      let s := s.logRec 0x0E02 c 3 [c / 8 + 1]
      { s with fw := { s.fw with
        posted := IMap.put [] s.fw.posted c []
        held := if pkt = [] then s.fw.held else { fn := c / 8, again := true, bytes := pkt } :: s.fw.held } }
    else if s.mbxState c = 3 ∧ (s.mbox c).doneAt = some s.tick.count ∧ due ≤ s.clk then
      reject c (.keeper true) (Reg.MBX_CTL c).addr false s
    else s

def execCrossingTimeout (c : Fin 16) : State → Res State := go (crossingTimeout c.val)

/-- The channel a held notification can go out on now: the lowest EMPTY one to its function; after a withdrawal, only with no message
from that function FULL (R416, R430). -/
def State.notifyChannel (s : State) (h : Held) : Option Nat :=
  if h.again && (fromFn h.fn).any (fun c => s.mbxState c = 2) then none
  else (toFn h.fn).find? (fun c => s.mbxState c = 0 && !s.rxDown c)

/-- The first held notification of a function. -/
def State.firstHeld (s : State) (f : Nat) : Option Held := s.fw.held.find? (fun h => h.fn = f)

/-- Posts one held notification; whether there was one to post. -/
def postHeld (f : Nat) (s : State) : Bool × State :=
  match s.firstHeld f with
  | none => (false, s)
  | some h =>
    match s.notifyChannel h with
    | none => (false, s)
    | some c =>
      let s := { s with fw := { s.fw with held := s.fw.held.erase h, posted := IMap.put [] s.fw.posted c h.bytes } }
      (true, goFull c 3 (putWords c h.bytes (s.wr (R.MBX_STAT_OWNER c) 3)))

/-- A held notification is posted, for PF0 first. -/
def notifyPost (s : State) : State :=
  if s.on R.DEV_DIE_STAT_KFW_RUN then
    if (postHeld 0 s).1 then (postHeld 0 s).2 else (postHeld 1 s).2
  else s

def execNotifyPost : State → Res State := go notifyPost

end Sys2Proof.Machine
end

