-- ==== Sys2Proof/Machine/Pulses.lean ====
section
/-! DEFINITION. Pulse outputs (06), steps as they are applied (R58, R108, R210), and the waking of interval groups. -/

namespace Sys2Proof.Machine

def State.pout (s : State) (o : Nat) : PulseOut := IMap.get {} s.tim.outs o
def State.modOut (s : State) (o : Nat) (f : PulseOut → PulseOut) : State :=
  { s with tim := { s.tim with outs := IMap.upd {} s.tim.outs o f } }

def outIds : List Nat := List.range 32

/-- The output Watch borrows now: test 3 takes the IDLE ones in turn, 1 ms each (R474, log entry 109). -/
def State.lentOut (s : State) : Option Nat := s.watch.run.bind (fun r => r.outs[(s.clk - r.since) / ms16 1]?)

/-- An output's state: 0 IDLE, 1 ARMED, 2 DONE, 3 LOOP, which an IDLE one reads while Watch borrows it (R216). -/
def State.outState (s : State) (o : Nat) : Nat :=
  if s.rd (R.PLS_STAT_STATE o) = 0 ∧ s.lentOut = some o then 3 else s.rd (R.PLS_STAT_STATE o)

/-- Moves an output to a state; PLS_ACTIVE shows the ARMED ones. -/
def setOut (o v : Nat) (s : State) : State :=
  let m := s.rd R.PLS_ACTIVE_ARMED
  (s.wr (R.PLS_STAT_STATE o) v).wr R.PLS_ACTIVE_ARMED
    (m - (if bit m o then 2 ^ o else 0) + (if v = 1 then 2 ^ o else 0))

/-- Enters DONE (R213). -/
def outDone (o : Nat) (s : State) : State := (setOut o 2 s).hi (R.PLS_CTL_DONE o)

/-- The bank an output's timescale reads: TS1 holds TS0's value while TS1_EN is 0 (R63, R203). -/
def State.schedBank (s : State) (ts1 : Bool) : Bank := if ts1 && s.on R.TSC_CTL_TS1_EN then .ts1 else .ts0

/-- The schedule in the staging registers (R203). -/
def State.staged (s : State) (o : Nat) : PulseSched :=
  { ts1 := s.on (R.PLS_CFG_TSSEL o)
    t0 := sec16 (s.rd (R.PLS_T0_SEC_LO_SEC o) + s.rd (R.PLS_T0_SEC_HI_SEC o) * 2 ^ 32) + ns16 (s.rd (R.PLS_T0_NS_NS o))
      + s.rd (R.PLS_T0_FRAC_FRAC o)
    per := sec16 (s.rd (R.PLS_PER_SEC_SEC o)) + ns16 (s.rd (R.PLS_PER_NS_NS o)) + s.rd (R.PLS_PER_FRAC_FRAC o)
    width := s.rd (R.PLS_WIDTH_C_COARSE o) * 64 + s.rd (R.PLS_WIDTH_F_FINE o)
    pol := s.on (R.PLS_CFG_POL o)
    unlim := s.rd (R.PLS_PER_SEC_SEC o) + s.rd (R.PLS_PER_NS_NS o) + s.rd (R.PLS_PER_FRAC_FRAC o) ≠ 0 && s.rd (R.PLS_COUNT_COUNT o) = 0 }

/-- Scheduled instant `k`. -/
def PulseSched.inst (p : PulseSched) (k : Nat) : Nat := p.t0 + k * p.per

/-- The first index whose instant is at least `t`; none for a single instant below `t`. -/
def PulseSched.indexFrom (p : PulseSched) (t : Nat) : Option Nat :=
  if t ≤ p.t0 then some 0 else if p.per = 0 then none else some (ceilDiv (t - p.t0) p.per)

/-- The first instant's index: with ALIGN, the first 1 µs or more ahead (R204). -/
def State.firstIndex (s : State) (o : Nat) (p : PulseSched) : Nat :=
  if s.on (R.PLS_CFG_ALIGN o) && p.per ≠ 0 then (p.indexFrom (s.tsOf (s.schedBank p.ts1) + us16 1)).getD 0 else 0

/-- STATUS of a GO: the first cause in the order LOOP, TIME, WIDTH, LEAD (R204). -/
def State.goStatus (s : State) (o : Nat) : Nat :=
  let p := s.staged o
  if s.outState o = 3 then 4
  else if 1000000000 ≤ s.rd (R.PLS_T0_NS_NS o) ∨ 1000000000 ≤ s.rd (R.PLS_PER_NS_NS o) then 3
  else if p.width < 256 ∨ (p.per ≠ 0 ∧ p.per * 640 < (p.width + 256) * 4 * 65536) then 2
  else if p.inst (s.firstIndex o p) < s.tsOf (s.schedBank p.ts1) + us16 1 then 1
  else 0

/-- The next index to fire from index `k` on: beyond the last instant fired or committed and any a step has passed (R209, R210). -/
def PulseOut.skip (q : PulseOut) (k : Nat) : Option Nat :=
  let floor_ := q.commits.foldl (fun a e => max a (e.inst + 1)) (max ((q.last.map (· + 1)).getD 0) ((q.passed.map (· + 1)).getD 0))
  match q.sched.indexFrom floor_ with
  | none => none
  | some j => if q.sched.per = 0 ∧ 0 < k then none else some (max j k)

/-- Committed edges of the schedule in force: those of a schedule that a GO has replaced complete (R208) but are not of its COUNT. -/
def PulseOut.ownCommits (q : PulseOut) : Nat := (q.commits.filter (fun e => !e.old)).length

/-- GO is judged and hands the schedule over (R204, R209). -/
def goNow (o : Nat) (s : State) : State :=
  let st := s.goStatus o
  let s := s.wr (R.PLS_CTL_STATUS o) st
  let s := (s.lo (R.PLS_CTL_GO o)).modOut o (fun q => { q with pendGo := false })
  if st ≠ 0 then (s.hi (R.PLS_CTL_REFUSED o)).raise Evt.pls (2 ^ o)
  else
    let p := s.staged o
    let k := s.firstIndex o p
    let s := s.modOut o (fun q =>
      { q with sched := p, next := k, passed := none, toIdle := false, commits := q.commits.map ({ · with old := true }) })
    let n := s.rd (R.PLS_COUNT_COUNT o)
    let s := s.wr (R.PLS_LEFT_LEFT o) (if p.per = 0 then 1 else if p.unlim then 0xFFFFFFFF else n)
    setOut o 1 s

/-- STOP on an ARMED output ends its schedule, apart from committed pulses (R213). -/
def stopOut (o : Nat) (s : State) : State := if s.outState o = 1 then outDone o s else s

/-- A write of PLS_CTL: STOP, then GO; a GO to a napping group waits for its wake (R204, R213, R217). -/
def writePlsCtl (o w : Nat) (s : State) : State :=
  let s := s.storeReg false (Reg.PLS_CTL o) w
  let s := if (R.PLS_CTL_STOP o).of w = 1 then stopOut o s else s
  if (R.PLS_CTL_GO o).of w = 1 then
    if (s.group (o / 4)).nap then (s.hi (R.PLS_CTL_GO o)).modOut o (fun q => { q with pendGo := true }) else goNow o s
  else s

def execPulseGo (o : Fin 32) (w : Word) : State → Res State :=
  go (writePlsCtl o.val ((R.PLS_CTL_GO o.val).setIn w.toNat))

def execPulseStop (o : Fin 32) (w : Word) : State → Res State :=
  go (writePlsCtl o.val ((R.PLS_CTL_STOP o.val).setIn ((R.PLS_CTL_GO o.val).clearIn w.toNat)))

/-- A group completes its wake: ARM and GO writes that waited take effect (R217). -/
def groupWake (g : Nat) (s : State) : State :=
  if (s.group g).nap then
    let s := s.modGroup g (fun k => { k with nap := false })
    let s := (groupChans g).foldl (fun s c => if (s.chan c).pendArm then armNow c s else s) s
    ([0, 1, 2, 3].map (g * 4 + ·)).foldl (fun s o => if (s.pout o).pendGo then goNow o s else s) s
  else s

def execGroupWake (g : Fin 8) : State → Res State := go (groupWake g.val)

/-! ### Commit, fire, end (R205-R211, R214) -/

/-- The engine state of a schedule's timescale: ENS_STAT STATE for TS0, S1_STATE for TS1 (R207). -/
def State.outEng (s : State) (ts1 : Bool) : Nat := s.rd (engField (if ts1 then .ts1 else .ts0))

/-- A missed instant: counted, flagged, and recorded where RECORD is set (R214). -/
def missOut (o inst cause : Nat) (ts1 : Bool) (s : State) : State :=
  let s := s.wr (R.PLS_MISSED_MISSED o) (satNat 16 (s.rd (R.PLS_MISSED_MISSED o) + 1))
  let s := (s.wr (R.PLS_MISSED_LAST_CAUSE o) cause).raise Evt.pls (2 ^ o)
  let s := s.count 0x033 o 1
  if s.on (R.PLS_CFG_RECORD o) then
    offerRecord (o / 4) 5 o 0 0 0 inst [b01 ts1, cause, 0, 0, 0, 0, 0, 0] (le 4 0) (recordSlot (o / 4) s.coarseNow s)
  else s

/-- An output's PLS_DLY in 2^-16 ns. -/
def State.outDly (s : State) (o : Nat) : Rat := mkRat (s.rdSigned (R.PLS_DLY_DLY o) * 65536) 1000

/-- What an output's timescale, referred to its reference point, reads when the timescale reads `t` (R205). -/
def State.referred (s : State) (o t : Nat) : Nat := ((t : Rat) + s.outDly o).floor.toNat

/-- The reading of its timescale at which an output fires an instant: the edge then crosses the ball (R205). -/
def State.fireAt (s : State) (o inst : Nat) : Nat := ((inst : Rat) - s.outDly o).ceil.toNat

/-- The interval-clock position (1/64 coarse period, on the phases of R23), to the nearest, at which a counter that reads as `k` at tick
`count` reaches a reading (2^-16 ns). -/
def placeOf (k : TickBank) (count : Nat) (at_ : Rat) : Nat :=
  (rndNearest (k.reaches count at_ * 200 - mkRat (Config.coarsePhase : Nat) 1024)).toNat

/-- The interval-clock position at which an output's edge is launched so that it reaches its reference point at an instant
(R205), with the increment, the slew and the step known now (R206). -/
def State.launchPos (s : State) (o inst : Nat) (ts1 : Bool) : Nat :=
  let b := s.schedBank ts1
  let k := s.tick.bank b
  let at_ : Rat := (inst : Rat) - (Config.outDelay o : Rat) - s.outDly o
  match s.stepAhead b with
  | none => placeOf k s.tick.count at_
  | some m =>
    if s.fireAt o inst * 2 ^ 32 ≤ (k.run m).ts then placeOf k s.tick.count at_ else placeOf (k.stepped m) (s.tick.count + m) at_

/-- Ticks until an instant's commit point, 400 ns before it fires (R206).  None where a pending step comes first: it passes the
instant, or the commit point lies after it. -/
def State.commitIn (s : State) (o inst : Nat) (ts1 : Bool) : Option Nat :=
  let b := s.schedBank ts1
  let k := s.tick.bank b
  let f := s.fireAt o inst
  match s.stepAhead b with
  | none => some (k.ticksTo (f - ns16 400))
  | some m =>
    if f * 2 ^ 32 ≤ (k.run m).ts then some (k.ticksTo (f - ns16 400))
    else
      let j := k.stepped m
      if f * 2 ^ 32 ≤ j.ts ∨ 320 < j.ticksTo f then none else some (m + j.ticksTo f - 320)

/-- No instant is left: the output is done. -/
def noneLeft (o : Nat) (s : State) : State := if s.outState o = 1 then outDone o s else s

/-- Ticks until the timescale of an output's schedule reaches an instant by its advance; none where a pending step passes it first. -/
def State.reachIn (s : State) (o inst : Nat) (ts1 : Bool) : Option Nat :=
  let b := s.schedBank ts1
  let k := s.tick.bank b
  let f := s.fireAt o inst
  match s.stepAhead b with
  | none => some (k.ticksTo f)
  | some m =>
    if f * 2 ^ 32 ≤ (k.run m).ts then some (k.ticksTo f)
    else if f * 2 ^ 32 ≤ (k.stepped m).ts then none
    else some (m + (k.stepped m).ticksTo f)

/-- A one-pulse schedule whose instant is not above the last fired is done once the timescale passes it over (R209, R213). -/
def passOver (o : Nat) (s : State) : State :=
  let q := s.pout o
  if q.sched.per = 0 ∧ q.next = 0 then
    match s.reachIn o q.sched.t0 q.sched.ts1 with
    | some n => noneLeft o (s.advance n)
    | none => s
  else noneLeft o s

/-- The next instant comes to its commit point, 400 ns before it (R206, R207, R209-R211). -/
def pulseCommit (o : Nat) (s : State) : State :=
  let q := s.pout o
  let left := s.rd (R.PLS_LEFT_LEFT o)
  if s.outState o ≠ 1 ∨ q.toIdle = true ∨ (q.sched.unlim = false ∧ left ≤ q.ownCommits) then s
  else
    match q.skip q.next with
    | none => passOver o s
    | some k =>
      let p := q.sched
      let inst := p.inst k
      match s.commitIn o inst p.ts1 with
      | none => s
      | some n =>
        let s := (s.advance n).modOut o (fun q => { q with next := k + 1 })
        let eng := s.outEng p.ts1
        let pos := s.launchPos o inst p.ts1
        if bit (s.rd (R.PLS_CFG_MASK o)) eng = false then
          let s := missOut o inst 3 p.ts1 s
          if p.per = 0 then noneLeft o s else s
        else if pos < q.busyPos then
          let s := missOut o inst 2 p.ts1 s
          if p.per = 0 then noneLeft o s else s
        else
          s.modOut o (fun q =>
            { q with commits := q.commits ++ [{ inst := inst, pos := pos, width := p.width, ts1 := p.ts1, pol := p.pol, eng := eng }]
                     busyPos := pos + p.width + 256 })

def execPulseCommit (o : Fin 32) : State → Res State := go (pulseCommit o.val)

/-- The tick in which an interval-clock position falls. -/
def tickOfPos (pos : Nat) : Nat := (pos * 1024 + Config.coarsePhase) / 204800

/-- A committed leading edge is launched (R205): the instant is fired; with COUNT pulses fired the output enters DONE (R213). -/
def pulseFire (o : Nat) (s : State) : State :=
  match (s.pout o).commits with
  | [] => s
  | e :: rest =>
    let s := (s.waitTick (tickOfPos e.pos)).hi (R.PLS_STAT_LEVEL o)
    let s := s.modOut o (fun q =>
      { q with commits := rest, last := some (max e.inst (q.last.getD 0)), endPos := some (e.pos + e.width), activePol := e.pol })
    let s := if e.ts1 then s else s.hi R.TSC_STAT_SERVED
    let own : Bool := s.outState o = 1 && !e.old
    let s := if own && !(s.pout o).sched.unlim then s.wr (R.PLS_LEFT_LEFT o) (s.rd (R.PLS_LEFT_LEFT o) - 1) else s
    let s := s.count 0x032 o 1
    let s := if s.on (R.PLS_CFG_RECORD o) then
        offerRecord (o / 4) 4 o 0 0 0 e.inst [b01 e.ts1, e.eng, 0, 0, 0, 0, 0, 0] (le 4 0) (recordSlot (o / 4) s.coarseNow s)
      else s
    if own && !(s.pout o).toIdle && s.rd (R.PLS_LEFT_LEFT o) = 0 then outDone o s else s

def execPulseFire (o : Fin 32) : State → Res State := go (pulseFire o.val)

/-- The trailing edge, W after the leading one (R205); an output that a warm reset left to complete is then IDLE (R215). -/
def pulseEnd (o : Nat) (s : State) : State :=
  match (s.pout o).endPos with
  | none => s
  | some e =>
    let s := ((s.waitTick (tickOfPos e)).lo (R.PLS_STAT_LEVEL o)).modOut o (fun q => { q with endPos := none })
    let q := s.pout o
    if q.toIdle && q.commits = [] then (setOut o 0 s).modOut o (fun q => { q with toIdle := false }) else s

def execPulseEnd (o : Fin 32) : State → Res State := go (pulseEnd o.val)

/-! ### Steps (R58, R209, R210) -/

/-- Missed instants from index `k` on, `n` of them, one by one up to the ring's size and the rest at once: a ring that is
full discards them all. -/
def missMany (o : Nat) (p : PulseSched) : Nat → Nat → State → State
  | 0, _, s => s
  | n + 1, k, s => missMany o p n (k + 1) (missOut o (p.inst k) 1 p.ts1 s)

/-- The rest of many missed instants, once the ring is full. -/
def missRest (o n : Nat) (s : State) : State :=
  if n = 0 then s
  else
    let g := o / 4
    let s := s.wr (R.PLS_MISSED_MISSED o) (satNat 16 (s.rd (R.PLS_MISSED_MISSED o) + n))
    let s := s.count 0x033 o n
    if s.on (R.PLS_CFG_RECORD o) then
      let at_ := s.recordAt g s.coarseNow
      let s := s.modGroup g (fun k => { k with seq := (k.seq + n) % 65536, gap := true, busyC := at_ + 10 * (n - 1) })
      let s := s.wr (R.TIM_GRP_LOST_LOST g) (satNat 32 (s.rd (R.TIM_GRP_LOST_LOST g) + n))
      ((s.count 0x030 g n).count 0x031 g n).raise Evt.tim 1
    else s

/-- What a step that moved a timescale from `old` to `new` does to one output (R209, R210). -/
def stepMeetsOut (b : Bank) (old new : Nat) (s : State) (o : Nat) : State :=
  let q := s.pout o
  let p := q.sched
  if s.outState o ≠ 1 ∨ q.toIdle = true ∨ s.schedBank p.ts1 ≠ b ∨ (p.per = 0 ∧ 0 < q.next) then s
  else
    match q.skip q.next with
    | none => if p.per = 0 ∧ s.referred o new < p.t0 then s else noneLeft o s
    | some k =>
      let new := s.referred o new
      let n := if new ≤ s.referred o old then 0 else match p.indexFrom (new + 1) with
        | some j => j - k
        | none => if p.inst k ≤ new then 1 else 0
      let s := missRest o (n - timRing) (missMany o p (min n timRing) k s)
      let s := if n = 0 then s else s.modOut o (fun q => { q with passed := some (p.inst (k + n - 1)) })
      match p.indexFrom (new + 1) with
      | none => noneLeft o s
      | some j =>
        if (s.pout o).skip j = none then noneLeft o s else s.modOut o (fun q => { q with next := j })

/-- A pending step is applied at the tick after its second marker (R58): the counter moves, an engine may leave UNSET (R108),
records after it carry STEPPED (R182), and outputs miss what it passed (R210). -/
def stepApply (b : Bank) (s : State) : State :=
  if s.stepDue b then
    let by_ := (s.tick.bank b).stepBy
    let old := s.tsOf b
    let s := stepLeavesUnset b by_ (moveByStep b s)
    let s := if b = .ts0 then { s with tim := { s.tim with steps := s.tim.steps + 1 } } else s
    outIds.foldl (stepMeetsOut b old (s.tsOf b)) s
  else s

/-- POL as it stands on an output: that of the pulse that is active, else that of the schedule it is ARMED with, else the register's, whose
write waits for a GO only while the output is ARMED (R203, R208). -/
def State.outPol (s : State) (o : Nat) : Bool :=
  let q := s.pout o
  if s.on (R.PLS_STAT_LEVEL o) then q.activePol else if s.outState o = 1 then q.sched.pol else s.on (R.PLS_CFG_POL o)

/-- Whether an output's ball is high: POL 0 makes high the active level (R203).  A LOOP output, which has no pulse, holds the inactive one
(R216). -/
def State.outLevel (s : State) (o : Nat) : Bool := s.on (R.PLS_STAT_LEVEL o) ≠ s.outPol o

/-- What drives an output's ball: nothing until POR_N rises (R488) or in HIGHZ, its boundary cell in the other test instructions, else the output
(R496, R497). -/
def State.ball (s : State) (o : Nat) : Option Bool :=
  if s.rst.porLow ∨ s.rst.tap = .highz then none
  else if s.inTest then some (s.rst.cells.getLsbD (Config.outCell o).val)
  else some (s.outLevel o)

end Sys2Proof.Machine
end

