-- ==== Sys2Proof/Machine/Watch.lean ====
section
/-! DEFINITION. Watch self-test runs (R474-R479) and the registers of the performance counters (R461, R464, R466, R467). -/

namespace Sys2Proof.Machine

/-! ### Performance counter registers -/

/-- The units of an event; none where the table has no such event (R463). -/
def pctUnits (event : Nat) : Option Nat :=
  if event ≤ 4 then some 1
  else if event = 0x010 ∨ event = 0x011 then some 4
  else if event = 0x020 ∨ event = 0x021 then some 16
  else if event = 0x022 ∨ event = 0x023 then some 1
  else if event = 0x030 ∨ event = 0x031 then some 8
  else if event = 0x032 ∨ event = 0x033 then some 32
  else if event = 0x040 then some 160
  else if event = 0x041 then some 2
  else if 0x050 ≤ event ∧ event ≤ 0x052 then some 1
  else if event = 0x060 ∨ event = 0x061 then some 5
  else if event = 0x070 ∨ event = 0x071 then some 4
  else if event = 0x072 then some 48
  else if event = 0x080 ∨ event = 0x081 then some 32
  else if 0x100 ≤ event ∧ event < 0x140 then some 32
  else if 0x140 ≤ event ∧ event < 0x160 then (if event - 0x140 < 21 then some 4 else none)
  else if 0x160 ≤ event ∧ event < 0x180 then (if event - 0x160 < 15 then some 4 else none)
  else if 0x180 ≤ event ∧ event < 0x1A0 then (if event - 0x180 < 24 then some 4 else none)
  else if event = 0x1A0 ∨ event = 0x1A1 then some 2
  else if event = 0x1A2 then some 1
  else none

/-- A write of PCT_SEL: the count restarts at 0 on the new event, OVF is kept (R467). -/
def writePctSel (c w : Nat) (s : State) : State :=
  let s := s.storeReg false (Reg.PCT_SEL c) w
  let ev := s.rd (R.PCT_SEL_EVENT c)
  let un := s.rd (R.PCT_SEL_UNIT c)
  let ok := match pctUnits ev with
    | some n => un < n
    | none => false
  let s := s.wr (R.PCT_SEL_INVALID c) (b01 (!ok && ev ≠ 0))
  let p := IMap.get {} s.pct c
  let p := { p with event := if ok then ev else 0, unit := un, level := s.on (R.PCT_SEL_MODE c), count := 0 }
  { s with pct := IMap.put {} s.pct c p }

/-- What the ports did before the write counts on the old event. -/
def execPctSelect (c : Fin 1024) (w : Word) : State → Res State := go (fun s => writePctSel c.val w.toNat (settleAll s))

/-- The PCT_HI word of a counter as it stands. -/
def State.pctHi (s : State) (c : Nat) : Nat :=
  (IMap.get {} s.pct c).count / 2 ^ 32 + b01 (bit (s.rd (R.PCT_OVF_OVF (c / 32))) (c % 32)) * 2 ^ 31

/-- A read of PCT_LO by PF0 (0), PF1 (1) or the firmware (2): the low word, PCT_HI latched for that reader (R464). -/
def readPctLo (c reader : Nat) (s : State) : Nat × State :=
  let p := IMap.get {} s.pct c
  let h := s.pctHi c
  let p' := if reader = 0 then { p with hi0 := h } else if reader = 1 then { p with hi1 := h } else { p with hiK := h }
  (p.count % 2 ^ 32, { s with pct := IMap.put {} s.pct c p' })

/-- A read of PCT_HI: the reader's latch. -/
def readPctHi (c reader : Nat) (s : State) : Nat :=
  let p := IMap.get {} s.pct c
  if reader = 0 then p.hi0 else if reader = 1 then p.hi1 else p.hiK

def execPctRead (c : Fin 1024) (reader : Fin 3) : State → Res State := go (fun s =>
  let r := readPctLo c.val reader.val (settleAll s)
  r.2.emit (.readData r.1))

/-- A write of 1 to a counter's OVF, by PCT_HI or by PCT_OVF: the two are one bit (R466). -/
def clearOvf (c : Nat) (s : State) : State :=
  let f := R.PCT_OVF_OVF (c / 32)
  s.wr f (s.rd f &&& (2 ^ 32 - 1 - 2 ^ (c % 32)))

def execPctOvfClear (c : Fin 1024) : State → Res State := go (fun s => clearOvf c.val (settleAll s))

/-! ### The tests (R474) -/

/-- Bounds in s. -/
def watchBound (t : Nat) : Nat := [20, 60, 30, 10, 30, 120, 60, 1].getD t 0

/-- Result codes of WCH_RES. -/
def watchPass : Nat := 1
def watchFail : Nat := 2
def watchSkipped : Nat := 3
def watchBusy : Nat := 4

/-- Dies whose engines answer. -/
def State.ntsDies (s : State) : List Nat := [0, 1, 2, 3].filter (fun d => s.on (R.NTS_CTL_EN d))

/-- Whether a test has nothing to test (R474). -/
def State.watchEmpty (s : State) (t : Nat) : Bool :=
  match t with
  | 3 => outIds.all (fun o => s.outState o ≠ 0)
  | 4 => !s.gnsOn
  | 5 => s.ntsDies.isEmpty
  | 6 => !s.on R.MOR_CTL_EN || (!s.morUp 0 && !s.morUp 1)
  | 7 => !s.on R.MOR_CTL_EN || s.rd R.TND_STAT_HEARD = 0
  | _ => false

/-- Whether a test would disturb service now. -/
def State.disturbs (s : State) (t : Nat) : Bool :=
  if s.watchEmpty t then false
  else match t with
    | 4 => s.spareCh.isNone
    | 5 => s.ntsDies.any (fun d => decide (128 < (s.ntsDie d).queue.length) || (match (s.ntsDie d).busyAt with
        | some u => decide (s.clk < u + sec16 1)
        | none => false))
    | _ => false

/-- The tests of a mask, in bit order. -/
def maskTests (m : Nat) : List Nat := (List.range 8).filter (fun t => bit m t)

def State.modWatch (s : State) (f : Watch → Watch) : State := { s with watch := f s.watch }
def State.modRun (s : State) (f : WatchRun → WatchRun) : State := s.modWatch (fun w => { w with run := w.run.map f })

/-- WCH_STAT follows the run. -/
def showRun (s : State) : State :=
  match s.watch.run with
  | none => (((s.lo R.WCH_STAT_RUNNING).lo R.WCH_STAT_SCHEDULED).lo R.WCH_STAT_CURRENT).lo R.WCH_STAT_PENDING
  | some r =>
    let s := (s.hi R.WCH_STAT_RUNNING).wr R.WCH_STAT_SCHEDULED (b01 r.scheduled)
    (s.wr R.WCH_STAT_CURRENT (r.tests.headD 0)).wr R.WCH_STAT_PENDING (r.tests.foldl (fun a t => a ||| 2 ^ t) 0)

/-- A test begins and takes what it borrows: tests 3 and 5 take the outputs, and the engines of each die, one after another. -/
def beginTest (t : Nat) (s : State) : State :=
  let s := s.modRun (fun r => { r with waiting := false, since := s.clk, outs := [], loop := none, chan := none, engs := [] })
  match t with
  | 2 => writeTimCtl (R.TIM_CTL_CAL_NOW.setIn (s.showReg Reg.TIM_CTL)) s
  | 3 =>
    let os := outIds.filter (fun o => s.outState o = 0)
    s.modRun (fun r => { r with outs := os, loop := some 73 })
  | 4 =>
    let c := s.spareCh.getD 159
    let s := if s.ch c = .idle then s else idleCh c (s.waitTs0 s.nextSecond)
    (startCh c .test 0 0 0 0 false s).modRun (fun r => { r with chan := some c })
  | 5 => s.modRun (fun r => { r with engs := List.range 12 })
  | 6 => (s.modMor 0 (fun k => { k with bertBits := 0, bertErrs := 0 })).modMor 1 (fun k => { k with bertBits := 0, bertErrs := 0 })
  | 7 =>
    let to_ := stackAddrs.filter (fun a => bit (s.rd R.TND_STAT_HEARD) (a - 1))
    let s := s.modStack (fun k => { k with pings := [], answered := [] })
    to_.foldl (fun s a =>
      let v := Config.pingData s.stack.pingDraw % 2 ^ 64
      (sendTnd a 7 (le 8 v) s).modStack (fun k => { k with pingDraw := k.pingDraw + 1, pings := IMap.put none k.pings a (some (s.clk, v)) })) s
  | _ => s

/-- Returns what the test in progress borrowed (R475). -/
def returnBorrowed (s : State) : State :=
  match s.watch.run with
  | none => s
  | some r =>
    let s := match r.chan with
      | some c => returnCh c s
      | none => s
    [0, 1, 2, 3].foldl (fun s d => dispatchNts d s) (s.modRun (fun r => { r with outs := [], loop := none, chan := none, engs := [] }))

/-- Writes a test's result (R478), its record with the sender of the WATCH_RUN that the run serves (R470). -/
def writeResult (t result unit measure : Nat) (s : State) : State :=
  let f := (s.watch.run.map (·.forced)).getD false
  let by_ := (s.watch.run.map (·.sender)).getD 0
  let s := ((s.wr (R.WCH_RES0_RESULT t) result).wr (R.WCH_RES0_FORCED t) (b01 f)).wr (R.WCH_RES0_UNIT t) unit
  let s := s.wr (R.WCH_RES1_WHEN t) (s.ts0 / sec16 1)
  let s := s.logRec 0x0B01 t by_ ([result, b01 f, unit, 0] ++ le 4 measure)
  s.raise Evt.wch (1 + (if result = watchFail then 2 else 0) + (if result = watchBusy then 4 else 0))

/-- A run begins with a mask. -/
def startRun (mask : Nat) (scheduled force : Bool) (cmd : Option Nat) (sender : Nat) (s : State) : State :=
  s.modWatch (fun w =>
    { w with run := some { scheduled := scheduled, force := force, cmd := cmd, sender := sender, tests := maskTests mask } })

/-- The UTC second and day of TS0 (R66, R477). -/
def State.utcNow (s : State) : Int := (s.ts0 / sec16 1 : Nat) - s.ofsAt s.ts0
def State.utcDay (s : State) : Nat := (s.utcNow / 86400 % 65536).toNat

/-- The scheduled run begins: LAST_DAY takes the day (R477). -/
def startScheduled (s : State) : State :=
  let s := (s.wr R.WCH_STAT_LAST_DAY s.utcDay).modWatch (fun w => { w with due := false })
  startRun (s.rd R.WCH_CTL_MASK) true (s.on R.WCH_CTL_FORCE) none 0 s

/-- The run goes to its next test, past those with nothing to test, or ends; a scheduled run that waited then begins. -/
def advanceRun : Nat → State → State
  | 0, s => showRun s
  | n + 1, s =>
    match s.watch.run with
    | none => showRun s
    | some r =>
      match r.tests with
      | [] =>
        let s := s.modWatch (fun w => { w with run := none })
        let s := match r.cmd with
          | some id => endRunning id 0 0 [] s
          | none => s
        if s.watch.due then advanceRun n (startScheduled s) else showRun s
      | t :: rest =>
        let d := s.disturbs t
        let s := s.modRun (fun r => { r with forced := r.force && d })
        if s.watchEmpty t then advanceRun n ((writeResult t watchSkipped 0 0 s).modRun (fun r => { r with tests := rest }))
        else if d && !r.force then showRun (s.modRun (fun r => { r with waiting := true, since := s.clk, foundAt := s.clk }))
        else showRun (beginTest t s)

/-- More steps than two runs have tests. -/
def runSteps : Nat := 20

/-- The test in progress ends with a result; the run goes on. -/
def endTest (t result unit measure : Nat) (s : State) : State :=
  let s := writeResult t result unit measure (returnBorrowed s)
  advanceRun runSteps (s.modRun (fun r => { r with tests := r.tests.drop 1, waiting := false }))

/-- Test 6: at most 1 error in at least 10^12 bits on each link checked; the first failing link and the errors. -/
def State.bertVerdict (s : State) : Bool × Nat × Nat :=
  let up := [0, 1].filter (fun l => s.morUp l)
  let bad := up.filter (fun l => decide ((s.mor l).bertBits < 1000000000000) || decide (1 < (s.mor l).bertErrs))
  (bad.isEmpty, bad.headD 0, up.foldl (fun a l => a + (s.mor l).bertErrs) 0)

/-- A failed test keeps what it found bad (R475). -/
def keepBad (t : Nat) (bad : List Nat) (s : State) : State :=
  if t = 0 then s.modWatch (fun w => { w with badBanks := bad ++ w.badBanks })
  else if t = 5 then
    (bad.foldl (fun s u => s.wr (R.NTS_ENG_STAT_PARKED (u / 12)) (s.rd (R.NTS_ENG_STAT_PARKED (u / 12)) ||| 2 ^ (u % 12))) s).modWatch
      (fun w => { w with badEngines := bad ++ w.badEngines })
  else s

/-- How long a test takes of itself: 1 ms for each output, 1 s for each engine number, 60 s for the bit-error test (R474, log entry 109). -/
def WatchRun.span (r : WatchRun) (t : Nat) : Nat :=
  if t = 3 then ms16 r.outs.length else if t = 5 then sec16 r.engs.length else if t = 6 then sec16 60 else 0

/-- The test in progress ends, within its bound or with BUSY: the units it found failing and its measured value, for tests 6 and 7 as the device
counted (R474). -/
def watchTestEnd (bad : List Nat) (measure : Nat) (s : State) : State :=
  match s.watch.run with
  | none => s
  | some r =>
    match r.tests with
    | [] => s
    | t :: _ =>
      let late := decide (r.since + sec16 (watchBound t) < s.clk)
      let s := if r.waiting || late then s else s.waitClk (r.since + r.span t)
      if r.waiting then s
      else if late then endTest t watchBusy 0 0 s
      else if t = 6 then
        let v := s.bertVerdict
        endTest 6 (if v.1 then watchPass else watchFail) v.2.1 v.2.2 s
      else if t = 7 then
        let out := s.stack.pings.filter (fun p => p.2.isSome)
        let s := s.waitClk (out.foldl (fun a p => max a ((p.2.map (·.1)).getD 0 + ms16 2)) 0)
        endTest 7 (if out.isEmpty then watchPass else watchFail) 0 s.stack.answered.length s
      else
        let m := if t = 0 ∨ t = 5 then bad.length else measure
        endTest t (if bad = [] then watchPass else watchFail) (bad.headD 0) m (keepBad t bad s)

def execWatchTestEnd (bad : List (Fin 256)) (measure : Word) : State → Res State :=
  go (watchTestEnd (bad.map (·.val)) measure.toNat)

/-- The wait of a test: its bound, or WIN in a scheduled run that waits (R474, R476, R477). -/
def State.watchWait (s : State) (r : WatchRun) (t : Nat) : Nat :=
  if r.waiting && r.scheduled then max 1 (s.rd R.WCH_CTL_WIN) else watchBound t

/-- The bound or WIN runs out: the test ends with BUSY. -/
def watchTestBound (s : State) : State :=
  match s.watch.run with
  | none => s
  | some r =>
    match r.tests with
    | [] => s
    | t :: _ => endTest t watchBusy 0 0 (s.waitClk (r.since + sec16 (s.watchWait r t)))

def execWatchTestBound : State → Res State := go watchTestBound

/-- The last instant at which a waiting test's disturbing condition is known to have held; none while it lasts, or its cause does (R476). -/
def State.lastDisturbed (s : State) (r : WatchRun) (t : Nat) : Option Nat :=
  match t with
  | 4 => if s.spareCh.isNone then none else some r.foundAt
  | 5 =>
    if s.ntsDies.any (fun d => decide (128 < (s.ntsDie d).queue.length)) then none
    else some (s.ntsDies.foldl (fun a d => max a (((s.ntsDie d).busyAt.map (· + sec16 1)).getD 0)) r.foundAt)
  | _ => some r.foundAt

/-- A waiting test starts once its disturbing condition has been absent for 1 s, or ends with BUSY where its wait is over before (R476). -/
def watchTestStart (s : State) : State :=
  match s.watch.run with
  | none => s
  | some r =>
    match r.tests with
    | [] => s
    | t :: _ =>
      if !r.waiting then s
      else if s.watchEmpty t then endTest t watchSkipped 0 0 s
      else
        let lim := r.since + sec16 (s.watchWait r t)
        match s.lastDisturbed r t with
        | none => s
        | some at_ =>
          if lim < at_ + sec16 1 then endTest t watchBusy 0 0 (s.waitClk lim)
          else showRun (beginTest t (s.waitClk (at_ + sec16 1)))

def execWatchTestStart : State → Res State := go watchTestStart

/-- A reset ends the run in progress: what it borrowed is returned, and tests that had not ended write no result (R479); its command ends
with ABORTED (R426). -/
def breakRun (s : State) : State :=
  match s.watch.run with
  | none => s
  | some r =>
    let s := (returnBorrowed s).modWatch (fun w => { w with run := none })
    let s := match r.cmd with
      | some id => endRunning id 8 0 [] s
      | none => s
    if s.watch.due then advanceRun runSteps (startScheduled s) else showRun s

/-- Counts and OVF return to 0, and with them the COUNT and OVF that PCT_HI shows (R480). -/
def clearCounts (s : State) : State :=
  let s := { s with pct := (s.pct.map (fun e => (e.1, { e.2 with count := 0, hi0 := 0, hi1 := 0, hiK := 0 }))).filter (fun e => e.2 ≠ ({} : Pct)) }
  (List.range 32).foldl (fun s k => s.lo (R.PCT_OVF_OVF k)) s

/-- The daily run at a filter step (R477). -/
def watchSchedule (s : State) : State :=
  let tod := min 86399 (s.rd R.WCH_TIME_TOD)
  if s.on R.WCH_CTL_SCHED_EN && s.on R.TSC_UTC_OFS_VALID && s.eng .ts0 ≠ .unset && !s.watch.due
      && decide (tod ≤ (s.utcNow % 86400).toNat) && s.utcDay ≠ s.rd R.WCH_STAT_LAST_DAY then
    match s.watch.run with
    | none => advanceRun runSteps (startScheduled s)
    | some r => if r.scheduled then s else s.modWatch (fun w => { w with due := true })
  else s

end Sys2Proof.Machine
end

