-- ==== Sys2Proof/Machine/FilterStep.lean ====
section
/-! DEFINITION. The filter step and the commands and events of the ensemble (R77-R117). -/

namespace Sys2Proof.Machine

/-! ### Register writes (R79, R81, R82, R95, R106, R114) -/

/-- The sender of a write that acts on a slot at the next filter step (R470): that of the last one before it (DESIGN CHOICE, log entry
104). -/
def noteWriter (sender i : Nat) (s : State) : State := s.modSlot i (fun k => { k with by_ := sender })

/-- A write of ENS_SLOT_CFG (R79, R81): EN = 1 on slots 8 to 15 assigns the channel or is refused; EN = 0 disables at the next filter
step and frees the channel at once.  A refused write keeps EN and TI_CH only: its other fields are stored (DESIGN CHOICE, log entry 97: R81
says that EN stays 0). -/
def writeSlotCfg (sender i w : Nat) (s : State) : State :=
  let was := s.slotEn i
  let ch0 := s.rd (R.ENS_SLOT_CFG_TI_CH i)
  let s := noteWriter sender i ((s.storeReg false (Reg.ENS_SLOT_CFG i) w).lo (R.ENS_SLOT_STAT_ASSIGN_ERR i))
  let now := s.slotEn i
  let ch := s.rd (R.ENS_SLOT_CFG_TI_CH i)
  let s := if was && !now then s.modSlot i (fun k => { k with enOff := true }) else s
  if i < 8 then s
  else if was && !now then unassignChan ch0 s
  else if now && !(was && ch = ch0) then
    if s.assignable ch then assignChan ch (if was then unassignChan ch0 s else s)
    else
      let s := s.hi (R.ENS_SLOT_STAT_ASSIGN_ERR i)
      if was then s.wr (R.ENS_SLOT_CFG_TI_CH i) ch0 else s.lo (R.ENS_SLOT_CFG_EN i)
  else s

def execSlotEnable (i : Fin 16) (w : Word) : State → Res State := go (writeSlotCfg 2 i.val w.toNat)

def execSlotMove (i : Fin 16) (w : Word) : State → Res State := go (fun s => writeSlotCfg 2 i.val w.toNat s)

/-- A write of ENS_SLOT_CMD: the bits wait for the next filter step. -/
def writeSlotCmd (sender i w : Nat) (s : State) : State :=
  (Reg.ENS_SLOT_CMD i).fields.foldl (fun s f => if f.of w = 1 then s.hi f else s) (noteWriter sender i s)

def execSlotRelease (i : Fin 16) : State → Res State := go (writeSlotCmd 2 i.val 1)

def execSlotQuarantine (i : Fin 16) : State → Res State := go (writeSlotCmd 2 i.val 2)

def execClrAsym (i : Fin 16) : State → Res State := go (writeSlotCmd 2 i.val 4)

def execRelearn (i : Fin 16) : State → Res State := go (writeSlotCmd 2 i.val 8)

/-- A write of ENS_SLOT_BIAS and of ENS_SLOT_ASYM: they act at the next filter step.  One of the bias takes effect only with BIAS_FIX at
1 (R82). -/
def writeSlotBias (i w : Nat) (s : State) : State :=
  if s.on (R.ENS_SLOT_CFG_BIAS_FIX i) then (s.storeReg false (Reg.ENS_SLOT_BIAS i) w).modSlot i (fun k => { k with biasWritten := true })
  else s
def writeSlotBiasHi (i w : Nat) (s : State) : State :=
  if s.on (R.ENS_SLOT_CFG_BIAS_FIX i) then s.storeReg false (Reg.ENS_SLOT_BIAS_HI i) w else s
def writeSlotAsym (i w : Nat) (s : State) : State :=
  (s.storeReg false (Reg.ENS_SLOT_ASYM i) w).modSlot i (fun k => { k with asymWritten := true })

/-- A write of ENS_DECIDE: GO waits for the next filter step (R114). -/
def writeDecide (sender w : Nat) (s : State) : State :=
  let s := s.storeReg false Reg.ENS_DECIDE w
  if R.ENS_DECIDE_GO.of w = 1 then ({ s with ens := { s.ens with decideBy := sender } }).hi R.ENS_DECIDE_GO else s

def execDecideGo (w : Word) : State → Res State := go (writeDecide 2 (R.ENS_DECIDE_GO.setIn w.toNat))

/-- A write of ENS_ANCHOR: a change of SEL ends what an earlier loss of the selected anchor had begun (R95, R97). -/
def writeAnchor (w : Nat) (s : State) : State :=
  let old := s.anchorSel
  let s := s.storeReg false Reg.ENS_ANCHOR w
  if s.anchorSel = old then s else { s with ens := { s.ens with anchorFall := false } }

def execAnchorSelect (w : Word) : State → Res State := go (writeAnchor w.toNat)

def execAnchorHold : State → Res State := go anchorHold

def execAnchorReturn : State → Res State := go anchorReturn

/-! ### Samples and clocks of one slot (R78, R83, R98, R99, R104) -/

def execSourceSample (i : Fin 16) (t : Nat) (x dly : Int) : State → Res State := go (fun s => deliver i.val (s.stampOf t) x dly false s)

def execSlotLoss (i : Fin 16) : State → Res State := go (fun s =>
  if s.src i.val = .absent ∨ s.src i.val = .quarantined ∨ s.lossSuspended i.val = true then s
  else slotLoss i.val (s.waitClk ((s.slot i.val).newestAt + s.lossTime i.val)))

def execSlotQualify (i : Fin 16) : State → Res State := go (fun s =>
  if s.src i.val = .qualifying then
    let s := s.waitClk ((s.slot i.val).clock + sec16 (s.rd (R.ENS_SLOT_TIME_QUAL i.val)))
    slotQualify (s.slotBank i.val) i.val s
  else s)

def execSlotConsistent (i : Fin 16) : State → Res State := go (fun s =>
  if s.src i.val = .suspect then
    let s := s.waitClk ((s.slot i.val).clock + sec16 (max 1 (s.rd R.ENS_CTL_CONSIST)))
    slotConsistent (s.slotBank i.val) i.val s
  else s)

def execCarryExpire (i : Fin 16) : State → Res State := go (fun s =>
  match timeBearing i.val, (s.filter (s.slotBank i.val)).timeLeft, s.timeHeld (s.slotBank i.val) with
  | false, some t, false =>
    let s := s.waitClk (t + sec16 (s.rd (R.ENS_SLOT_LIM_CARRY i.val)))
    carryExpire (s.slotBank i.val) i.val s
  | _, _, _ => s)

def execReestComplete (i : Fin 16) : State → Res State := go (fun s =>
  if s.on (R.ENS_SLOT_STAT_REEST i.val) then
    reestComplete i.val (s.waitClk ((s.slot i.val).reestAt + sec16 (s.rd R.ENS_ASYM_CTL_REEST)))
  else s)

/-! ### Drift record (R111) -/

/-- Adds the rate of a bank's counter against the anchor, as fractional frequency, to its filter's record. -/
def recordRate (b : Bank) (s : State) : State :=
  if s.eng b = .tracking then
    let r := mkRat (s.incrOf b : Nat) 351843720888320 - 1
    s.modFilter b (fun f => { f with drift :=
      ((s.clk : Int), r) :: f.drift.filter (fun q => decide ((s.clk : Int) ≤ q.1 + (sec16 918000 : Nat))) })
  else s

/-- The record every 64 s. -/
def driftRecord (s : State) : State :=
  let s := s.waitClk (s.ens.driftAt + sec16 64)
  recordRate .ts1 (recordRate .ts0 { s with ens := { s.ens with driftAt := s.clk } })

def execDriftRecord : State → Res State := go driftRecord

/-! ### The filter step (R87) -/

/-- 62.5 ms in 2^-16 ns. -/
def stepSpan : Nat := 4096000000000

/-- The closing shares waiting for slots 6 and 7 are added to their ASYM (R384). -/
def takeShares (s : State) : State :=
  let add := fun (i : Nat) (v : Int) (s : State) =>
    if v = 0 then s
    else
      let a := satSigned 32 ((s.slot i).asym + v)
      (s.modSlot i (fun k => { (k.corrected ((a - k.asym) * 256)) with asym := a })).wr (R.ENS_SLOT_ASYM_A i) (ofSigned 32 a)
  let p := s.stack.shares
  add 7 p.2 (add 6 p.1 { s with stack := { s.stack with shares := (0, 0) } })

/-- Order 1 over all slots, decisions and the anchor. -/
def order1 (s : State) : State := takeShares (anchorOrder1 (decideOrder1 (slotIds.foldl (fun s i => slotOrder1 i s) s)))

/-- Orders 2 to 9 of one set.  Before steering, what `move` answers goes into the filter's y (R173); it is answered again. -/
def runSet (b : Bank) (dTc : Rat) (move : State → Rat × State) (s : State) : Rat × State :=
  let r := setOrders2to7 b dTc s
  let m := move (setOrder8 b dTc r.2 r.1)
  let s := m.2.modFilter b (fun f => { f with y := f.y + m.1 })
  let y := (s.filter b).y
  (m.1, publishFilter b y (steer b s))

/-- Notes the step for R264 when a QUALIFIED slot of TS0's set contributed. -/
def noteReference (s : State) : State :=
  if (s.setOf .ts0).any (fun i => match (s.slot i).hist with
      | h :: _ => h.used
      | [] => false) then { s with ens := { s.ens with refAt := some s.ts0 } } else s

/-- The next instant not yet run: a multiple of 62.5 ms of TS0 after the last one. -/
def State.nextStep (s : State) : Nat := (s.ens.stepAt / stepSpan + 1) * stepSpan

/-- Orders 2 to 9 of both sets, TS0's first.  EFC updates fall on multiples of 64 s, after order 8 of TS0's set, and move y of both filters
before each is steered (R172, R173). -/
def runSets (due : Nat) (dTc : Rat) (s : State) : State :=
  let a := runSet .ts0 dTc (fun s => if due % sec16 64 = 0 then efcUpdates s else (0, s)) s
  (runSet .ts1 dTc (fun s => (a.1, s)) a.2).2

/-- One filter step; `temp` is the mean die temperature over it, in 1/256 °C.  The daily Watch run is looked for here (R477). -/
def filterStep (temp : Nat) (s : State) : State :=
  let due := s.nextStep
  let s := (s.waitTs0 due).wr R.ENS_TEMP_TEMP temp
  let s := s.count 0x004 0 1
  let dTc := s.feedforward
  let s := { s with ens := { s.ens with tempLast := some s.tempC, stepAt := due } }
  watchSchedule (publish (publishTs0 (noteReference (runSets due dTc (order1 s)))))

def execFilterStep (temp : BitVec 16) : State → Res State := go (filterStep temp.toNat)

end Sys2Proof.Machine
end

