-- ==== Sys2Proof/Machine/Flash.lean ====
section
/-! DEFINITION. The configuration flash (R453), the image format (R454-R456) and the flash operations of a commit (R458). -/

namespace Sys2Proof.Machine

/-! ### Flash and staging -/

/-- Bytes of the flash from an address on; an erased byte is 0xFF. -/
def Cfg.flashBytes (c : Cfg) (a n : Nat) : List Nat := (List.range n).map (fun k => IMap.get 0xFF c.flash (a + k))
/-- Bytes of the staging area. -/
def Cfg.stagedBytes (c : Cfg) (a n : Nat) : List Nat := (List.range n).map (fun k => IMap.get 0 c.staging (a + k))

/-- The start of a slot. -/
def slotBase (slot : Nat) : Nat := slot * 0x1000000

/-- The longest image and body. -/
def imageMax : Nat := 2097152
def bodyMax : Nat := 2097088

/-! ### Image format -/

/-- The header fields a check names. -/
def hdrSeq (h : List Nat) : Nat := leAt h 8 4
def hdrLength (h : List Nat) : Nat := leAt h 12 4
/-- MAGIC, FORMAT, HDR_LEN and HDR_CRC hold. -/
def hdrIntact (h : List Nat) : Bool :=
  h.take 4 = [0x4C, 0x55, 0x4D, 0x56] && leAt h 4 2 = 1 && leAt h 6 2 = 64 && leAt h 56 4 = crc32c (h.take 56)

/-- The value of SEAL. -/
def sealed : Nat := 0x4C414553

/-- Bytes of a section's data with its padding to a multiple of 4. -/
def padded (n : Nat) : Nat := (n + 3) / 4 * 4

/-- The pairs of a REGWRITE section. -/
def pairsOf : Nat → List Nat → List (Nat × Nat)
  | 0, _ => []
  | n + 1, b => if b.length < 8 then [] else (leAt b 0 4, leAt b 4 4) :: pairsOf n (b.drop 8)

/-- Reads the sections of a body: 0 and what they hold, 3 where they break R456, 5 where the patch's signature fails. -/
def sections : Nat → List Nat → Image → Nat × Image
  | 0, _, i => (3, i)
  | n + 1, b, i =>
    let type := leAt b 0 2
    let flags := leAt b 2 2
    let len := leAt b 4 4
    let data := (b.drop 8).take len
    let rest := b.drop (8 + padded len)
    let fits := decide (8 + padded len ≤ b.length) && ((b.drop (8 + len)).take (padded len - len)).all (· = 0)
    if b.length < 8 ∨ 2 ≤ flags ∨ fits = false then (3, i)
    else if type = 0 then (if len = 0 ∧ rest = [] then (0, i) else (3, i))
    else if type = 1 then (if len % 8 = 0 then sections n rest { i with pairs := i.pairs ++ pairsOf len data } else (3, i))
    else if type = 2 then
      if i.patch.isSome ∨ 1048576 < len then (3, i)
      else if Config.patchSigned data then sections n rest { i with patch := some data } else (5, i)
    else if type = 3 ∨ flags = 0 then sections n rest i
    else (3, i)

/-- Checks a header and body, SEAL apart: 0, or the reason as ERR codes it (1 header, 2 body CRC, 3 section, 5 patch signature). -/
def checkImage (h body : List Nat) : Nat × Image :=
  if hdrIntact h = false ∨ bodyMax < hdrLength h then (1, {})
  else if leAt h 16 4 ≠ crc32c body then (2, {})
  else sections (body.length + 1) body {}

/-- The image in a slot: its header, and what its body holds where the slot is valid. -/
def Cfg.slotImage (c : Cfg) (slot : Nat) : List Nat × Option Image :=
  let h := c.flashBytes (slotBase slot) 64
  if hdrIntact h = false ∨ leAt h 60 4 ≠ sealed ∨ bodyMax < hdrLength h then (h, none)
  else
    let r := checkImage h (c.flashBytes (slotBase slot + 64) (hdrLength h))
    (h, if r.1 = 0 then some r.2 else none)

/-- Whether SEQ `a` is newer than `b`, by serial-number arithmetic. -/
def seqNewer (a b : Nat) : Bool := decide (1 ≤ (a + 2 ^ 32 - b) % 2 ^ 32) && decide ((a + 2 ^ 32 - b) % 2 ^ 32 < 2 ^ 31)

/-! ### Operations of a commit -/

/-- What an operation writes from an address on. -/
structure FlashOp where
  addr : Nat := 0
  bytes : List Nat := []
  erase : Bool := false
  read : Bool := false
deriving DecidableEq, Repr

/-- The header the device programs: the staged one with SEQ set and HDR_CRC recomputed. -/
def Cfg.newHeader (c : Cfg) (j : CommitJob) : List Nat :=
  let h := c.stagedBytes 0 8 ++ le 4 j.seq ++ c.stagedBytes 12 44
  h ++ le 4 (crc32c h)

/-- Flash operations in a step. -/
def Cfg.stepOps (c : Cfg) (j : CommitJob) : Nat :=
  match j.step with
  | 1 => ceilDiv (64 + j.len) (max 1 c.erase)
  | 2 => ceilDiv (64 + j.len) 256
  | _ => 1

/-- The operation a commit is at. -/
def Cfg.currentOp (c : Cfg) (j : CommitJob) : FlashOp :=
  let base := slotBase j.slot
  match j.step with
  | 1 => { addr := base + j.done * c.erase, bytes := List.replicate c.erase 0xFF, erase := true }
  | 2 =>
    let first := max 64 (j.done * 256)
    { addr := base + first, bytes := c.stagedBytes first (min ((j.done + 1) * 256) (64 + j.len) - first) }
  | 4 => { addr := base, bytes := c.newHeader j }
  | 6 => { addr := base + 60, bytes := le 4 sealed }
  | _ => { read := true }

/-- Writes a byte of the flash. -/
def Cfg.putFlash (c : Cfg) (a v : Nat) : Cfg := { c with flash := IMap.put 0xFF c.flash a v }

/-- Carries out an operation: programming clears bits, erasing sets them. -/
def Cfg.doOp (c : Cfg) (o : FlashOp) : Cfg :=
  if o.read then c
  else (o.bytes.zipIdx).foldl (fun c b =>
    let a := o.addr + b.2
    c.putFlash a (if o.erase then b.1 else IMap.get 0xFF c.flash a &&& b.1)) c

/-- An operation that fails or is cut off: which of the bits it was to change it has changed is free (log entry 34). -/
def Cfg.breakOp (c : Cfg) (o : FlashOp) : Cfg :=
  if o.read then c
  else
    let n := c.failures
    let c := (o.bytes.zipIdx).foldl (fun c b =>
      let a := o.addr + b.2
      let old := IMap.get 0xFF c.flash a
      let goal := if o.erase then b.1 else old &&& b.1
      let bits := Config.flashBits n a % 256
      c.putFlash a ((old &&& (255 - bits)) ||| (goal &&& bits))) c
    { c with failures := n + 1 }

/-- A reset ends a commit at the operation it is at. -/
def Cfg.cutOff (c : Cfg) : Cfg := match c.commit with
  | some j => { (c.breakOp (c.currentOp j)) with commit := none }
  | none => c

end Sys2Proof.Machine
end

