-- ==== Sys2Proof/Machine/Lanes.lean ====
section
/-! DEFINITION. Epoch markers, the Beacon time lanes (R28-R35), and a step's application with all that follows it. -/

namespace Sys2Proof.Machine

/-! ### Lane states (R30, R31) -/

/-- A die's lane state: 0 OFF, 1 ACQUIRING, 2 LOCKED, 3 COASTING, 4 FAULT. -/
def State.laneState (s : State) (n : Nat) : Nat := s.rd (R.TSC_LANE_STAT_STATE n)

/-- The four dies. -/
def dies : List Nat := [0, 1, 2, 3]

/-- A lane that is not LOCKED withdraws its die's upstream ports from the ensemble (R34): slots 4 and 5 where no lane carries their time. -/
def withdrawPorts (s : State) : State := [4, 5].foldl (fun s i => if s.laneCarries i then s else withdraw i s) s

/-- A lane changes state.  COASTING and FAULT set their event bit and write a record (R34); entry to LOCKED ends the coasting count and
brings the key slots to the die (R288, R289). -/
def setLane (n st : Nat) (s : State) : State :=
  let was := s.laneState n
  let s := s.wr (R.TSC_LANE_STAT_STATE n) st
  let s := if (was = 2) = (st = 2) then s else s.modLane n (fun l => { l with was := keepRecent s.clk l.was ++ [(s.clk, decide (was = 2))] })
  let s := if was = 2 ∧ st ≠ 2 then withdrawPorts s else s
  let ofs := le 4 (s.rd (R.TSC_LANE_OFS_OFS n))
  match st with
  | 2 => copyKeys (s.lo (R.TSC_LANE_STAT_COAST_RUN n)) n
  | 3 => ((s.wr (R.TSC_LANE_STAT_COAST_RUN n) 1).raise Evt.laneCoast (2 ^ n)).logRec 0x0002 n 0 ofs
  | 4 => (s.raise Evt.laneFault (2 ^ n)).logRec 0x0003 n 0 ofs
  | _ => s.lo (R.TSC_LANE_STAT_COAST_RUN n)

/-- One more cycle of COASTING or FAULT. -/
def coastCycle (n : Nat) (s : State) : State :=
  if 3 ≤ s.laneState n then s.wr (R.TSC_LANE_STAT_COAST_RUN n) (satNat 16 (s.rd (R.TSC_LANE_STAT_COAST_RUN n) + 1)) else s

/-- A pulse missing, failing its check word, or out of bound: a LOCKED lane coasts from this cycle on (R31). -/
def badPulse (n : Nat) (s : State) : State :=
  let s := s.count 0x011 n 1
  if s.laneState n = 2 then setLane n 3 s else coastCycle n s

/-! ### One cycle (R28, R29, R31, R32) -/

/-- 20 ps and 100 ps in 2^-16 ns, rounded down: e is a whole number of those units. -/
def goodLimit : Nat := 1310
def outLimit : Nat := 6553

/-- The loop's change of the slave increment, held to 10 ppm in COASTING and FAULT (R29, R32). -/
def loopIncr (st : Nat) (l : Lane) (e : Int) : Int :=
  let v := Config.lanePi e (l.piSum + e)
  if 3 ≤ st then
    let cap : Int := (l.pulseIncr / 100000 : Nat)
    max (-cap) (min cap v)
  else v

/-- The slave is loaded with T_k + d at the first pulse after OFF (R31). -/
def loadSlave (n : Nat) (s : State) : State :=
  s.modLane n (fun l =>
    if l.loaded then l else { l with loaded := true, slave := ((l.pulseTime + l.pulseDelay) * 2 ^ 32) % wrapTs })

/-- The loop acts on the offset of a pulse, in the state the lane is in once the pulse is judged: the one that ends LOCKED already finds the
lane COASTING, where the counter moves at no more than 10 ppm (R29, R32). -/
def steerSlave (n : Nat) (e : Int) (s : State) : State :=
  let st := s.laneState n
  s.modLane n (fun l => { l with slaveIncr := ((l.pulseIncr : Int) + loopIncr st l e).toNat, piSum := l.piSum + e })

/-- A received pulse, `sub` 2^-16 ns into the slave's tick. -/
def lanePulseRx (n sub : Nat) (s : State) : State :=
  if s.laneState n = 0 then s
  else
    let fresh := !(s.lane n).loaded
    let s := loadSlave n s
    let l := s.lane n
    let e : Int := if fresh then 0 else nearTs (((s.slaveTime n + sub : Nat) : Int) - ((l.pulseTime + l.pulseDelay : Nat) : Int))
    let s := s.wr (R.TSC_LANE_OFS_OFS n) (satBits 32 e)
    let s := s.wr (R.TSC_LANE_STAT_GOOD_RUN n)
      (if e.natAbs ≤ goodLimit then satNat 8 (s.rd (R.TSC_LANE_STAT_GOOD_RUN n) + 1) else 0)
    let s := if outLimit < e.natAbs then
        badPulse n (s.wr (R.TSC_LANE_ERR_OUT_OF_BOUND n) (satNat 16 (s.rd (R.TSC_LANE_ERR_OUT_OF_BOUND n) + 1)))
      else coastCycle n s
    steerSlave n e s

def execLanePulseRx (n : Fin 4) (sub : Nat) : State → Res State := go (lanePulseRx n.val sub)

/-- A cycle whose pulse is missing or fails its check word. -/
def lanePulseMiss (n : Nat) (s : State) : State :=
  if s.laneState n = 0 then s
  else
    let s := s.lo (R.TSC_LANE_STAT_GOOD_RUN n)
    badPulse n (s.wr (R.TSC_LANE_ERR_MISSED n) (satNat 16 (s.rd (R.TSC_LANE_ERR_MISSED n) + 1)))

def execLanePulseMiss (n : Fin 4) : State → Res State := go (lanePulseMiss n.val)

/-- The returned pulse is stamped on its interval channel, IC1 to IC4 (channels 65 to 68), in a coarse period and a bin: the delay of R28,
which the next pulse carries. -/
def laneReturn (n dc bin : Nat) (s : State) : State :=
  if s.laneState n = 0 then s
  else
    let c := s.coarseNow + dc
    let s := s.waitTick (tickOfCoarse c)
    let e := s.capture (65 + n) c bin false
    let s := noteEdge (65 + n) e s
    let d := rnd (mkRat ((e.time : Int) - ((s.lane n).pulseTime : Int) - Config.laneTurn n) 2) + Config.laneAsym n
    s.wr (R.TSC_LANE_DLY_DLY n) (satNat 32 d.toNat)

def execLaneReturn (n : Fin 4) (dc : Nat) (bin : Fin 64) : State → Res State := go (laneReturn n.val dc bin.val)

/-- The run of good pulses a state needs. -/
def runNeeded (st : Nat) : Nat := if st = 3 then 4 else 16

/-- Enough good pulses: the lane locks. -/
def laneLock (n : Nat) (s : State) : State :=
  let st := s.laneState n
  if (st = 1 ∨ st = 3 ∨ st = 4) ∧ runNeeded st ≤ s.rd (R.TSC_LANE_STAT_GOOD_RUN n) then setLane n 2 s else s

def execLaneLock (n : Fin 4) : State → Res State := go (laneLock n.val)

/-- COAST_LIMIT cycles without a return to LOCKED; 0 is treated as 1. -/
def coastLimit (n : Nat) (s : State) : State :=
  if s.laneState n = 3 ∧ max 1 (s.rd (R.TSC_LANE_CTL_COAST_LIMIT n)) ≤ s.rd (R.TSC_LANE_STAT_COAST_RUN n)
      ∧ s.rd (R.TSC_LANE_STAT_GOOD_RUN n) < 4 then setLane n 4 s else s

def execCoastLimit (n : Fin 4) : State → Res State := go (coastLimit n.val)

/-! ### Epoch markers (R23, R58, R377) -/

/-- The pulse launched down one lane: Keeper time, increment, lane delay, and the pending step of TS0.  The increment carried is what the next
tick gives, a running slew's share with it, so that a slew is followed through the feedforward as R29 has it (DEDUCED, log entry 97). -/
def launchPulse (s : State) (n : Nat) : State :=
  if s.laneState n = 0 then s
  else
    let k := s.tick.bank0
    let note := if s.on (R.TSC_STEP_CTL_PENDING 0) && !s.stepBarred .ts0 then some k.stepDelta else none
    s.modLane n (fun l =>
      { l with pulseTime := s.ts0, pulseIncr := ((k.incr : Int) + k.slew.give 1).toNat, pulseDelay := s.rd (R.TSC_LANE_DLY_DLY n), notice := note })

/-- A pending step has one marker less to wait for. -/
def countMarker (b : Bank) (s : State) : State := s.modBank b (fun k => { k with stepMarkers := k.stepMarkers - 1 })

/-- An epoch marker. -/
def epochMarker (s : State) : State :=
  let due := s.nextMarker
  let s := (s.waitTick due).count 0x003 0 1
  let s := { s with tick := { s.tick with markerAt := some due } }
  let s := countMarker .ts1 (countMarker .ts0 s)
  stackMarker (dies.foldl launchPulse s)

def execEpochMarker : State → Res State := go epochMarker

/-! ### Steps (R58, R87, R282, R329) -/

/-- A due step is applied; broadcast and multicast instants it passes are skipped, and no filter step runs for the instants of 62.5 ms it
passes or lands on.  One that R17 no longer allows is dropped. -/
def applyStep (b : Bank) (s : State) : State :=
  if s.stepDue b && s.stepBarred b then dropStep b s
  else if s.stepDue b then
    let old := s.tsOf b
    let s := stepApply b s
    match b with
    | .ts1 => s
    | .ts0 =>
      let s := (List.range 32).foldl (fun s p => bcStepSkips p old s) s
      let s := ptpStepSkips old s
      { s with ens := { s.ens with stepAt := s.ts0 } }
  else s

def execStepApply (b : Bank) : State → Res State := go (applyStep b)

end Sys2Proof.Machine
end

