-- ==== Sys2Proof/Machine/Power.lean ====
section
/-! DEFINITION. The power arbiter (R441-R446): budget, derating, cuts, restoration, and the sleep and waking of islands. -/

namespace Sys2Proof.Machine

/-- PWR_EVT and CFG_EVT, vector 47 of PF1. -/
def Evt.pwr : EvtSrc := ⟨R.PWR_EVT_BITS, some R.PWR_EVT_EN_BITS, 1, 47⟩
def Evt.cfg : EvtSrc := ⟨R.CFG_EVT_BITS, some R.CFG_EVT_EN_BITS, 1, 47⟩

def State.modPower (s : State) (f : Power → Power) : State := { s with power := f s.power }

/-- The saving state of an island: 0 ON, 1 IDLE, 2 NAP, 3 SLEEP. -/
def setSaving (i v : Nat) (s : State) : State := s.modPower (fun k => { k with saving := IMap.put 0 k.saving i v })

/-- The deepest saving state whose wake time is no longer than a tolerance in µs: 0 none, 1 IDLE, 2 NAP, 3 SLEEP (R446). -/
def savingState (us : Nat) : Nat := if 20000 ≤ us then 3 else if 200 ≤ us then 2 else if 1 ≤ us then 1 else 0

/-- Whether ports and whole dies may go to SLEEP. -/
def State.sleepAdmitted (s : State) : Bool := savingState (s.rd R.PWR_LAT_PORT_LAT) = 3

/-! ### Budget (R441, R445) -/

/-- A write of PWR_CTL: 30 W to 90 W in grants of 0.25 W. -/
def writePwrCtl (w : Nat) (s : State) : State := s.wr R.PWR_CTL_BUDGET (max 120 (min 360 (R.PWR_CTL_BUDGET.of w)))

/-- E for a budget and a temperature in 1/256 °C. -/
def effective (budget : Nat) (t : Int) : Nat :=
  if t ≤ 115 * 256 then budget
  else if 125 * 256 ≤ t then budget * 70 / 100
  else budget * (25600 - 3 * (t - 115 * 256).toNat) / 25600

/-- Sets a status bit to a condition, with its event where it rises. -/
def showCond (f : Field) (evt : Nat) (v : Bool) (s : State) : State :=
  let was := s.on f
  let s := s.wr f (b01 v)
  if v && !was then s.raise Evt.pwr evt else s

/-! ### Beacon dies down and up (R275, R339, R412, R443) -/

/-- B_UP of a die. -/
def upField : Nat → Field
  | 0 => R.DEV_DIE_STAT_B0_UP
  | 1 => R.DEV_DIE_STAT_B1_UP
  | 2 => R.DEV_DIE_STAT_B2_UP
  | _ => R.DEV_DIE_STAT_B3_UP

/-- A die's tables are left empty. -/
def emptyTables (n : Nat) (s : State) : State :=
  { s with srv := { s.srv with
      cst := s.srv.cst.filter (fun e => e.1 / 2097152 ≠ n)
      grants := s.srv.grants.filter (fun g => g.1 / 16384 ≠ n) } }

/-- A die goes to sleep or into reset: its lane is OFF, its tables are empty, and its controller's channels are orphaned or freed. -/
def dieDown (n : Nat) (s : State) : State :=
  let s := ((setLane n 0 s).lo (R.TSC_LANE_STAT_GOOD_RUN n)).modLane n (fun k => { was := k.was })
  orphanFor (4 + n) (emptyTables n (s.lo (upField n)))

/-- A die leaves reset or sleep with the tick domain running: its lane acquires (R31). -/
def dieUp (n : Nat) (s : State) : State := if s.laneState n = 0 then setLane n 1 (s.hi (upField n)) else s

/-- The die an island is on. -/
def islandDie (i : Nat) : Nat := if i < 48 then i / 12 else if i < 80 then (i - 48) / 8 else i - 80

/-- Whether a die sleeps: its tolerance admits it, its ports are all parked or disabled and its engines all parked, and no island on it is being
restored (R443, R444, R446). -/
def State.dieIdle (s : State) (n : Nat) : Bool :=
  s.sleepAdmitted && s.power.waking.all (fun i => islandDie i ≠ n) && s.on (upField n) && s.rd (R.NTS_ENG_STAT_PARKED n) = 4095
    && (List.range 8).all (fun k => (s.port (n * 8 + k)).parked || !s.on (R.MAC_CFG_EN (n * 8 + k)))

def sleepDies (s : State) : State :=
  dies.foldl (fun s n =>
    if s.dieIdle n then (setSaving (80 + n) 3 (dieDown n s)).wr R.PWR_DIE_SLEEP_ASLEEP (s.rd R.PWR_DIE_SLEEP_ASLEEP ||| 2 ^ n) else s) s

/-! ### Cuts (R443) -/

/-- The serving engines of a die; a die whose lane is OFF serves nothing (R31). -/
def State.servingEngines (s : State) (d : Nat) : List Nat :=
  if s.laneState d = 0 then [] else (List.range 12).filter (fun e => s.engineServes d e)

/-- The die with the most serving engines, the lower one on a tie. -/
def State.busiestDie (s : State) : Nat :=
  dies.foldl (fun b d => if (s.servingEngines b).length < (s.servingEngines d).length then d else b) 0

/-- The engine the first class offers. -/
def State.engineCut (s : State) : Option Cut :=
  if savingState (s.rd R.PWR_LAT_NTS_LAT) = 0 then none
  else (s.servingEngines s.busiestDie).getLast?.map (fun e => .engine (s.busiestDie * 12 + e))

/-- When a port last sent or received a frame. -/
def State.lastFrame (s : State) (p : Nat) : Nat :=
  ((s.port p).flight.toList ++ (s.port p).leaving).foldl (fun a v => max a (s.clkAt (s.leftPs p v))) (s.port p).frameAt

/-- Whether a port has sent and received no frame for IDLE_WIN seconds; 0 is treated as 1 (R443, R460). -/
def State.portIdle (s : State) (p : Nat) : Bool := decide (s.lastFrame p + sec16 (max 1 (s.rd R.PWR_PORT_IDLE_IDLE_WIN)) ≤ s.clk)

/-- The port the second class offers. -/
def State.portCut (s : State) : Option Cut :=
  if s.sleepAdmitted then
    (((List.range 32).filter (fun p => s.portIdle p && bit (s.rd R.PWR_PORT_PERMIT_PERMIT) p && !(s.port p).parked)).getLast?).map .port
  else none

def State.gnssCut (s : State) : Option Cut := if s.gnsOn && s.gnsEligible then some .gnss else none

/-- The cut of one evaluation: from the first class with a candidate. -/
def State.nextCut (s : State) : Option Cut := (s.engineCut.or s.portCut).or s.gnssCut

/-- Makes a cut. -/
def doCut (c : Cut) (s : State) : State :=
  let s := (s.count 0x050 0 1).modPower (fun k => { k with cuts := c :: k.cuts, calmAt := none })
  match c with
  | .engine e =>
    let s := (setSaving e (savingState (s.rd R.PWR_LAT_NTS_LAT)) s).modNts (e / 12) (fun k => { k with parking := k.parking + 2 ^ (e % 12) })
    (parkIdle (e / 12) (e % 12) s).raise Evt.pwr 8
  | .port p =>
    let s := (setSaving (48 + p) 3 (setLink p 0 s)).modPort p (fun k => { k with parked := true })
    (s.wr R.PWR_PORT_PARKED_PORTS (s.rd R.PWR_PORT_PARKED_PORTS ||| 2 ^ p)).raise Evt.pwr 16
  | .gnss => (gnsSleep (s.rd R.GNS_SLEEP_CTL_MAX) s).raise Evt.pwr 32

/-- Groups with nothing armed go to NAP where the tolerance admits it (R217, R446). -/
def State.groupIdle (s : State) (g : Nat) : Bool :=
  (groupChans g).all (fun c => s.chState c ≠ 1 && s.chState c ≠ 2 && !s.on (R.TIM_CH_STAT_ASSIGNED c))
    && (List.range 4).all (fun k => s.outState (g * 4 + k) ≠ 1 && s.outState (g * 4 + k) ≠ 3 && (s.pout (g * 4 + k)).commits.isEmpty
      && (s.pout (g * 4 + k)).endPos.isNone)

def napGroups (s : State) : State :=
  if s.rd R.PWR_LAT_TIM_LAT < 200 then s
  else (List.range 8).foldl (fun s g => if s.groupIdle g then s.modGroup g (fun k => { k with nap := true }) else s) s

/-- The evaluation of this millisecond: temperature, E, the grants, and one cut while demand exceeds E (R441-R445).  Without a candidate
SHORT is set. -/
def arbiterEval (demand : Nat) (temp : Int) (die : Nat) (s : State) : State :=
  let s := s.waitClk (s.power.evalAt + ms16 1)
  let s := s.modPower (fun k => { k with evalAt := s.clk })
  let s := (s.wr R.PWR_TEMP_TJ (ofSigned 16 temp)).wr R.PWR_TEMP_DIE die
  let e := effective (s.rd R.PWR_CTL_BUDGET) temp
  let s := (s.wr R.PWR_STAT_EFFECTIVE e).wr R.PWR_STAT_GRANTED (satNat 9 demand)
  let s := showCond R.PWR_STAT_DERATE 2 (decide (115 * 256 < temp)) s
  let s := showCond R.PWR_STAT_OVERTEMP 4 (decide (125 * 256 < temp)) s
  let s := if e < demand + 4 then s.modPower (fun k => { k with calmAt := none }) else s
  let s := if demand ≤ e then showCond R.PWR_STAT_SHORT 1 false s
    else match s.nextCut with
      | some c => doCut c (showCond R.PWR_STAT_SHORT 1 false s)
      | none => showCond R.PWR_STAT_SHORT 1 true s
  napGroups (sleepDies s)

def execArbiterEval (demand : Nat) (temp : BitVec 16) (die : Fin 5) : State → Res State :=
  go (arbiterEval demand temp.toInt die.val)

/-! ### Restoration and waking (R444, R446) -/

/-- An island begins to wake, and the die it is on if that sleeps. -/
def beginWake (i d : Nat) (s : State) : State :=
  s.modPower (fun k => { k with waking := k.waking ++ [i] ++
    (if bit (s.rd R.PWR_DIE_SLEEP_ASLEEP) d && decide (80 + d ∉ k.waking) then [80 + d] else []) })

/-- Restores one item. -/
def undoCut (c : Cut) (s : State) : State :=
  match c with
  | .engine e =>
    let f := parkedField (e / 12)
    let s := if bit (s.rd f) (e % 12) then s.wr f (s.rd f - 2 ^ (e % 12)) else s
    if bit (s.ntsDie (e / 12)).parking (e % 12) then
      dispatchNts (e / 12) ((setSaving e 0 s).modNts (e / 12) (fun k => { k with parking := k.parking - 2 ^ (e % 12) }))
    else beginWake e (e / 12) s
  | .port p =>
    let s := if bit (s.rd R.PWR_PORT_PARKED_PORTS) p then s.wr R.PWR_PORT_PARKED_PORTS (s.rd R.PWR_PORT_PARKED_PORTS - 2 ^ p) else s
    beginWake (48 + p) (p / 8) s
  | .gnss => wakeEarly s

/-- The cuts still in force: a long sleep that has ended is none. -/
def State.liveCuts (s : State) : List Cut :=
  s.power.cuts.filter (fun c => match c with
    | .gnss => s.on R.GNS_SLEEP_STAT_ASLEEP
    | _ => true)

/-- Headroom, with every parked item counted in `demand`, of 4 grants held for 1 s: the item cut last is restored, one every 10 ms. -/
def arbiterRestore (demand : Nat) (s : State) : State :=
  if s.rd R.PWR_STAT_EFFECTIVE < demand + 4 then s.modPower (fun k => { k with calmAt := none })
  else
    match s.liveCuts with
    | [] => s
    | c :: rest =>
      let from_ := s.power.calmAt.getD s.clk
      let due := max (from_ + sec16 1) ((s.power.restoredAt.map (· + ms16 10)).getD 0)
      let s := s.waitClk due
      undoCut c (s.modPower (fun k => { k with cuts := rest, calmAt := some from_, restoredAt := some s.clk }))

def execArbiterRestore (demand : Nat) : State → Res State := go (arbiterRestore demand)

/-- An island's wake completes: an engine serves, a port may train, a die's lane acquires. -/
def islandWake (i : Nat) (s : State) : State :=
  if i ∈ s.power.waking then
    let done := setSaving i 0 (s.modPower (fun k => { k with waking := k.waking.filter (· ≠ i) }))
    if i < 48 then
      let f := R.NTS_ENG_STAT_PARKED (i / 12)
      if decide (i ∈ s.watch.badEngines) || !bit (s.rd f) (i % 12) then done
      else dispatchNts (i / 12) (done.wr f (s.rd f - 2 ^ (i % 12)))
    else if i < 80 then
      if bit (s.rd R.PWR_DIE_SLEEP_ASLEEP) ((i - 48) / 8) then s else done.modPort (i - 48) (fun k => { k with parked := false })
    else
      let n := i - 80
      if bit (s.rd R.PWR_DIE_SLEEP_ASLEEP) n then
        dieUp n (done.wr R.PWR_DIE_SLEEP_ASLEEP (s.rd R.PWR_DIE_SLEEP_ASLEEP - 2 ^ n))
      else done
  else s

def execIslandWake (i : Nat) : State → Res State := go (islandWake i)

end Sys2Proof.Machine
end

