-- ==== Sys2Proof/Machine/Reset.lean ====
section
/-! DEFINITION. Resets (R13, R447-R449): their scopes, what each keeps, their rank, and what requests them; ECC errors (R473) and the TAP
(R497). -/

namespace Sys2Proof.Machine

/-! ### What a field is -/

/-- Every register of the block. -/
def allRegs : List RegFamily :=
  regs01 ++ regs02 ++ regs03 ++ regs04 ++ regs05 ++ regs06 ++ regs07 ++ regs08 ++ regs09 ++ regs10 ++ regs11 ++ regs12 ++ regs13
    ++ regs15 ++ regs16

/-- The register at an address. -/
def regAt (addr : Nat) : Option Register := allRegs.findSome? (fun f => f.find addr)

/-- The field kept at a key. -/
def keyField (key : Nat) : Option Field := (regAt (key / 32)).bind (fun r => r.fields.find? (fun f => f.key = key))

/-- Whether the field kept at a key has an access code. -/
def keyHas (a : Access) (key : Nat) : Bool := match keyField key with
  | some f => decide (f.acc = a)
  | none => false

/-- Whether an address lies in a range. -/
def within (lo hi a : Nat) : Bool := decide (lo ≤ a) && decide (a < hi)

/-- Returns the registers of a range to their reset values, but for the fields a test keeps. -/
def resetRegs (lo hi : Nat) (keep : Nat → Bool) (s : State) : State :=
  { s with regs := s.regs.filter (fun e => !within lo hi (e.1 / 32) || keep e.1) }

/-! ### Beacon dies (R452) -/

/-- Running commands that name a die (R429). -/
def Running.names (r : Running) (n : Nat) : Bool :=
  let op := leAt r.cmd.bytes 0 2
  let b := r.cmd.bytes.getD 16 0
  if op = 0x0721 then b = n else if op = 0x0610 then b / 8 = n else false

/-- Pending two-step stamps of a port are written back as lost (R365). -/
def loseStamps (p : Nat) (s : State) : State :=
  ((s.port p).stamps).foldl (fun s e =>
    drain e.1 (s.modRing e.1 (fun r =>
      { r with out := r.out.map (fun d =>
          let b := txBack none d.tag 11
          if d.idx = e.2 then { d with stamp := none, sent := some b, back := d.back.map (fun _ => b) } else d) }))) s

/-- The ports of a die. -/
def diePorts (n : Nat) : List Nat := (List.range 8).map (fun k => n * 8 + k)

/-- Whether a statistics key belongs to a die. -/
def dieStat (n key : Nat) : Bool := if key < 2048 then key / 512 = n else (key - 2048) % 128 / 32 = n

/-- The engines of a die that stay parked: the arbiter's, and those a failed test keeps (R443, R475). -/
def State.parkedEngines (s : State) (n : Nat) : Nat :=
  (s.watch.badEngines.filter (fun e => e / 12 = n)).foldl (fun m e => m ||| 2 ^ (e % 12)) (s.rd (parkedField n))

/-- A die's own state as after reset; its random bit generator goes on from fresh outputs (R295).  An engine asked to park holds no request any
longer, so it becomes parked (R306). -/
def clearDie (n : Nat) (s : State) : State :=
  let s := s.wr (parkedField n) (s.rd (parkedField n) ||| (s.ntsDie n).parking)
  let parked := s.parkedEngines n
  let base := 0x1000000 + n * 0x1000000
  let s := { s with srv := { s.srv with
    ports := s.srv.ports.filter (fun e => e.1 / 8 ≠ n)
    stats := s.srv.stats.filter (fun e => !dieStat n e.1)
    latch := s.srv.latch.filter (fun e => !dieStat n e.1)
    ntp := s.srv.ntp.filter (fun e => e.1 ≠ n)
    nts := s.srv.nts.map (fun e => if e.1 = n then (n, { drawn := e.2.drawn }) else e) |>.filter (fun e => e.2 ≠ ({} : NtsDie))
    insts := s.srv.insts.filter (fun e => e.1 / 32 ≠ n)
    masters := s.srv.masters.filter (fun m => m.inst / 32 ≠ n)
    selected := s.srv.selected.filter (fun e => match e.2 with
      | some (j, _) => j / 32 ≠ n
      | none => false) } }
  let s := (resetRegs base (base + 0x1000000) (keyHas .rws) s).wr (R.NTS_ENG_STAT_PARKED n) parked
  (diePorts n).foldl (fun s p => s.modPort p (fun k =>
    { k with parked := bit (s.rd R.PWR_PORT_PARKED_PORTS) p, outAt := s.clk, frameAt := s.clk })) s

/-- A Beacon-die reset begins (R31, R241, R288, R339, R365, R412, R452); its event registers, which it clears, send nothing.  It ends a run
of Watch and returns the performance counts to 0 (R479, R480). -/
def resetDie (n : Nat) (s : State) : State :=
  let base := 0x1000000 + n * 0x1000000
  let evtEn (key : Nat) : Bool := match keyField key with
    | some f => !((diePorts n).any (fun p => f = R.MAC_EVT_EN_BITS p) || f = R.NTP_EVT_EN_BITS n || f = R.NTS_EVT_EN_BITS n
        || f = R.PTP_EVT_EN_BITS n)
    | none => true
  let s := resetRegs base (base + 0x1000000) evtEn (settleEnded (breakRun s))
  let s := (diePorts n).foldl (fun s p => flushQueues p (setLink p 0 (loseStamps p s))) s
  let s := clearKeys (dieDown n s) n
  let s := (s.fw.running.filter (fun r => r.names n)).foldl (fun s r => endRunning r.id 8 0 [] s) s
  clearCounts (clearDie n s)

/-! ### Functions (R365, R412, R447) -/

/-- The rings a function owns. -/
def State.ringsOf (s : State) (f : Nat) : List Nat := (List.range 258).filter (fun q => s.ringFn q = f)

/-- A frame of some rings that is committed leaves as one whose ring is gone (R365). -/
def Flight.unring (qs : List Nat) (v : Flight) : Flight := match v.frame.kind with
  | .host q _ _ _ _ => if q ∈ qs then { v with frame := { v.frame with kind := .orphan v.frame.kind.stamped } } else v
  | _ => v

/-- Frames of some rings are taken from a port's queues, their stamps from its FIFO, and frames held for its receive rings dropped; what is
committed leaves. -/
def dropHost (qs : List Nat) (s : State) (p : Nat) : State :=
  let mine (f : TxFrame) : Bool := match f.kind with
    | .host q _ _ _ _ => decide (q ∈ qs)
    | _ => false
  let bound (w : FecWait) : Bool := match w.toHost with
    | some (_, e) => decide (e % 128 ∈ qs)
    | none => false
  let n := ((s.port p).fec.filter bound).length
  let s := s.modPort p (fun k =>
    { k with
      queues := k.queues.map (fun e => (e.1, e.2.filter (fun f => !mine f))) |>.filter (fun e => e.2 ≠ [])
      stamps := k.stamps.filter (fun e => decide (e.1 ∉ qs))
      flight := k.flight.map (Flight.unring qs), suspended := k.suspended.map (Flight.unring qs), leaving := k.leaving.map (Flight.unring qs)
      fec := k.fec.map (fun w => if bound w then { w with toHost := none } else w) })
  if n = 0 then s else mac p 20 n s

/-- Fields of the ring pages a function-level reset keeps: OWNER, the steering table, and the device's stamp registers. -/
def keptRing (key : Nat) : Bool :=
  let a := key / 32
  within 0x8101180 0x810118C a || within 0x8101400 0x8101500 a
    || (match keyField key with
        | some f => decide (f.addr % 0x1000 = 0 ∧ f.lsb = 6)
        | none => false)

/-- A command that came by a command ring of a function has no ring to answer on. -/
def Cmd.unring (q : Nat) (c : Cmd) : Cmd := match c.path with
  | .ring k _ _ _ _ => if k = q then { c with path := .lost } else c
  | _ => c

/-- The firmware's commands after a command ring is reset. -/
def Fw.unring (q : Nat) (f : Fw) : Fw :=
  { f with
    queue := f.queue.map (Cmd.unring q), current := f.current.map (Cmd.unring q)
    running := f.running.map (fun r => { r with cmd := r.cmd.unring q }) }

/-- A function-level reset: its rings, its interrupts, its mailboxes and its notifications. -/
def resetFn (f : Nat) (s : State) : State :=
  let s := settleEnded s
  let qs := s.ringsOf f
  let s := (List.range 32).foldl (dropHost qs) s
  let s := { s with rings := s.rings.filter (fun e => decide (e.1 ∉ qs)) }
  let s := qs.foldl (fun s q => resetRegs (0x8000000 + q * 0x1000) (0x8001000 + q * 0x1000) keptRing s) s
  let s := resetRegs (0x8100000 + f * 0x1000) (0x8101000 + f * 0x1000) keptRing s
  let s := { s with fw := { (s.fw.unring (256 + f)) with held := s.fw.held.filter (fun h => h.fn ≠ f) } }
  let s := abortFor (1 + f) (orphanFor (1 + f) s)
  s.lo (R.MBX_EVT_BITS f)

/-- A function-level reset; while another reset is in progress it is narrower and is discarded (R448). -/
def functionReset (f : Nat) (s : State) : State := if s.rst.active.isSome then s else resetFn f s

/-- An FLR: the function is down until it is in D0 again (R411). -/
def beginFlr (f : Nat) (s : State) : State :=
  if s.rst.active.isSome then s
  else resetFn f { s with pcie := if f = 0 then { s.pcie with flr0 := true } else { s.pcie with flr1 := true } }

def execFunctionReset (fn : Fin 2) : State → Res State := go (beginFlr fn.val)

/-- PE_PERST_N goes low: both functions, their configuration space and the link. -/
def perst (s : State) : State :=
  let s := functionReset 1 (functionReset 0 s)
  { s with pcie := { s.pcie with d0a := true, d0b := true, flr0 := false, flr1 := false, perstHigh := false } }

def execPerst : State → Res State := go perst

/-- PE_PERST_N rises: the link trains, and configuration requests are answered from 100 ms on (R450). -/
def perstRise (s : State) : State :=
  if s.pcie.perstHigh then s else { s with pcie := { s.pcie with perstHigh := true, answersAt := s.clk + ms16 100 } }

def execPePerstNRise : State → Res State := go perstRise

/-! ### Power-on and cold reset -/

/-- Everything at its reset value; what stays is no state of the device: the commands to come, what it has put out, the flash, the pins,
and how far the random sources have been drawn.  The TAP, which a power-on reset takes too, goes on through a cold one. -/
def coldState (powerOn : Bool) (s : State) : State :=
  { pending := s.pending, cycle := s.cycle, out := s.out
    srv :=
      { hashDraw := s.srv.hashDraw + 1, pipeDraw := s.srv.pipeDraw
        nts := s.srv.nts.map (fun e => (e.1, ({ drawn := e.2.drawn } : NtsDie))) |>.filter (fun e => e.2 ≠ ({} : NtsDie)) }
    stack :=
      { helloDraw := s.stack.helloDraw, backoffDraw := s.stack.backoffDraw, timeDraw := s.stack.timeDraw, pingDraw := s.stack.pingDraw }
    pcie := { perstHigh := s.pcie.perstHigh, answersAt := if powerOn then ms16 100 else 0 }
    rst := if powerOn then {} else { tap := s.rst.tap, cells := s.rst.cells }
    cfg := { flash := s.cfg.cutOff.flash, failures := s.cfg.cutOff.failures } }

/-! ### Warm reset (R13, R75, R109, R176, R187, R215, R399, R451) -/

/-- Whether a group of the interval block has no spare. -/
def State.noSpare (s : State) (g : Nat) : Bool := bit (s.rd R.TIM_STAT_NO_SPARE) g

/-- Whether an output stays ARMED. -/
def State.keepsOut (s : State) (o : Nat) : Bool := s.outState o = 1 && s.on (R.PLS_CFG_KEEP o)

/-- Whether an output has a committed pulse that still runs. -/
def State.stillFires (s : State) (o : Nat) : Bool := !(s.pout o).commits.isEmpty || (s.pout o).endPos.isSome

/-- Fields of the ensemble beside the RWS ones that a warm reset leaves (R109). -/
def keptEns (f : Field) : Bool :=
  f ∈ [R.ENS_STAT_STATE, R.ENS_STAT_S1_STATE, R.ENS_STAT_LEAD, R.ENS_STAT_LEAD_VALID, R.ENS_STAT_QUAL, R.ENS_PHASE_THETA, R.ENS_FREQ_Y,
      R.ENS_DRIFT_D, R.ENS_ERR_ERR, R.ENS_HO_TIME_SECONDS, R.ENS_TEMP_TEMP, R.ENS_ANCHOR_ACTIVE, R.ENS_ANCHOR_HOLD,
      R.ENS_S1_PHASE_THETA, R.ENS_S1_FREQ_Y]
    || slotIds.any (fun i => decide (f ∈ [R.ENS_SLOT_STAT_STATE i, R.ENS_SLOT_STAT_CAUSE i, R.ENS_SLOT_STAT_BIAS_OK i]))

/-- Fields of one owner each that a warm reset leaves, as its rule says. -/
def State.keptSome (s : State) (f : Field) : Bool :=
  decide (f ∈ [R.PWR_RST_CAUSE_WARM_CNT, R.CFG_STAT_LOCKED, R.TIM_STAT_NO_SPARE])
    || [0, 1].any (fun p => decide (f ∈ [R.RFM_EFC_CODE p, R.RFM_USE_MINUTES p])
        || (f = R.GNS_POS_CTL_STATE p && decide (2 ≤ s.rd f)))
    || (List.range 8).any (fun g => s.noSpare g && (decide (f ∈ [R.TIM_GRP_STAT_SPARE g, R.TIM_GRP_STAT_RETIRED g])
        || (groupChans g).any (fun c => f = R.TIM_CH_STAT_UNIT c || f = R.TIM_CH_STAT_CAL_SEQ c || f = R.TIM_CH_CAL_DNL c)))
    || outIds.any (fun o => (f = R.PLS_LEFT_LEFT o && s.keepsOut o) || (f = R.PLS_STAT_LEVEL o && s.stillFires o))

/-- Whether the field kept at a key stands through a warm reset: RWS fields, the timescale, the event log's registers, stacking, the
selections of the counters, and the fields above. -/
def State.warmKeeps (s : State) (key : Nat) : Bool :=
  let a := key / 32
  match keyField key with
  | none => false
  | some f =>
    f.acc = .rws || within 0x10000 0x20000 a || within 0x141000 0x141010 a || (within 0xE0000 0x100000 a && f.acc = .ro)
      || (within 0x120000 0x124000 a && a % 16 = 0) || keptEns f || s.keptSome f

/-- A slot after a warm reset: its set, biases and asymmetry stand. -/
def Slot.warm (k : Slot) : Slot :=
  { set := k.set, enOff := k.enOff, bias := k.bias, biasWritten := k.biasWritten, learned := k.learned, asym := k.asym,
    asymWritten := k.asymWritten }

/-- A filter after a warm reset: the hold and the settling begin anew (R109). -/
def Filter.warm (f : Filter) : Filter := { f with held := 0, settleAt := none }

/-- The ensemble after a warm reset, its registers kept: slots and engines still as before. -/
def Ens.warm (e : Ens) : Ens :=
  { e with slots := (e.slots.map (fun p => (p.1, p.2.warm))).filter (fun p => p.2 ≠ ({} : Slot)), f0 := e.f0.warm, f1 := e.f1.warm, pub := {} }

/-- An engine goes to UNSET, recorded where it was in another state (R108, R472). -/
def engineUnset (sender : Nat) (b : Bank) (s : State) : State := setEngBy sender b .unset s

/-- Slots go to ABSENT; an engine that was TRACKING goes to HOLDOVER (R109), and with the timescale both go to UNSET (R500).  The events this
sets are cleared by the same reset. -/
def warmEns (ts : Bool) (sender : Nat) (s : State) : State :=
  let s := slotIds.foldl (fun s i =>
    if s.slotEn i && s.src i ≠ .quarantined then setSrcBy sender i .absent (some .loss) s else s) s
  let s := [Bank.ts0, .ts1].foldl (fun s b =>
    if ts then engineUnset sender b s else if s.eng b = .tracking then enterHoldover sender b s else s) s
  s.lo R.ENS_EVT_BITS

/-- A module port: its identity stands, seated or not (R165); a seated one is READING again, with its DAC code, minute count and warm-up
timer (R176).  EFC_RAIL and ALM go on showing the code and the pin. -/
def warmRfm (old : State) (s : State) (p : Nat) : State :=
  let k := old.rfmPort p
  let code := s.rd (R.RFM_EFC_CODE p)
  let s := s.wr (R.RFM_STAT_EFC_RAIL p) (b01 (code = 0 || code = 0xFFFFF))
  if old.rfmState p = .empty then s.modRfm p (fun _ => { lastId := k.lastId, lastValid := k.lastValid })
  else
    let s := s.wr (R.RFM_STAT_ALM p) (old.rd (R.RFM_STAT_ALM p))
    (s.modRfm p (fun _ =>
      { warmFrom := k.warmFrom, warmEnd := k.warmEnd, lastId := k.lastId, lastValid := k.lastValid
        keptMinutes := old.rfmState p ≠ .reading || k.keptMinutes, keptSpan := old.warmSecs p })).wr (R.RFM_STAT_STATE p) Rfm.reading.code

/-- An output after a warm reset: ARMED through it with KEEP; else IDLE, once what is committed has completed (R208, R215). -/
def warmOut (old : State) (s : State) (o : Nat) : State :=
  let q := old.pout o
  if old.keepsOut o then setOut o 1 (s.modOut o (fun _ => { q with pendGo := false }))
  else if old.stillFires o then
    let s := s.modOut o (fun _ =>
      { sched := { pol := q.sched.pol }, commits := q.commits, endPos := q.endPos, activePol := q.activePol, busyPos := q.busyPos, toIdle := old.outState o = 1 })
    if old.outState o = 1 then setOut o 1 s else s
  else s

/-- A group without a spare keeps its units and the tables its channels hold (R187, log entry 42). -/
def warmGroup (old : State) (s : State) (g : Nat) : State :=
  if old.noSpare g then
    let s := s.modGroup g (fun _ =>
      { spare := (old.group g).spare, retired := (old.group g).retired, tables := (old.group g).tables })
    (groupChans g).foldl (fun s c =>
      let k := old.chan c
      s.modChan c (fun _ => { stepSeen := k.stepSeen, unit := k.unit, unitFrom := k.unitFrom, oldUnit := k.oldUnit, calAt := k.calAt, calSeq := k.calSeq })) s
  else s

/-- The interval block through a warm reset: the steps so far, with each channel's note of those its records have reported (R182, R187). -/
def Tim.warm (t : Tim) : Tim :=
  { steps := t.steps, chans := (t.chans.map (fun e => (e.1, ({ stepSeen := e.2.stepSeen } : TimChan)))).filter (fun e => e.2 ≠ ({} : TimChan)) }

/-- What a warm reset keeps as it is, the rest at its reset value (R451). -/
def warmBase (s : State) : State :=
  { pending := s.pending, cycle := s.cycle, out := s.out, regs := s.regs.filter (fun e => s.warmKeeps e.1)
    tick := s.tick
    ens := { s.ens.warm with recKept := s.keepWords }
    tim := s.tim.warm
    log := s.log
    pct := (s.pct.map (fun e => (e.1, ({ event := e.2.event, unit := e.2.unit, level := e.2.level } : Pct)))).filter
      (fun e => e.2 ≠ ({} : Pct))
    srv :=
      { hashDraw := s.srv.hashDraw, pipeDraw := s.srv.pipeDraw
        nts := s.srv.nts.map (fun e => (e.1, ({ drawn := e.2.drawn } : NtsDie))) |>.filter (fun e => e.2 ≠ ({} : NtsDie)) }
    stack := { s.stack with relayQ := [] }
    pcie := s.pcie
    watch := { badBanks := s.watch.badBanks, badEngines := s.watch.badEngines }
    rst := { tap := s.rst.tap, cells := s.rst.cells }
    cfg := { flash := s.cfg.cutOff.flash, failures := s.cfg.cutOff.failures } }

/-- The block after a warm reset that `sender` requested, whether it includes the timescale (`ts`), whose own part is warmTs. -/
def warmState (ts : Bool) (sender : Nat) (s : State) : State :=
  let n := warmEns ts sender (warmBase s)
  let n := [0, 1].foldl (warmRfm s) n
  let n := outIds.foldl (warmOut s) ((List.range 9).foldl (warmGroup s) n)
  let n := dies.foldl (fun n d => n.wr (R.NTS_ENG_STAT_PARKED d) (n.parkedEngines d)) n
  let n := [0, 1, 2, 3].foldl (fun n p => n.modGnsPort p (fun k => { k with learnAt := some n.clk, awaitFrom := n.clk })) n
  let n := (List.range 32).foldl (fun n p => n.modPort p (fun k => { k with frameAt := n.clk })) n
  let n := n.wr R.GNS_STAT_ACTIVE_ANT (n.originalPrimary.getD 0)
  let n := [0, 1, 2, 3].foldl (fun n p => if n.notchMode p = 2 then [0, 1, 2, 3].foldl (fun n k => manualNotch p k n) n else n) n
  slotIds.foldl (fun n i => if 8 ≤ i ∧ n.slotEn i = true ∧ n.rd (R.ENS_SLOT_CFG_TI_CH i) < 64 ∧ n.assignable (n.rd (R.ENS_SLOT_CFG_TI_CH i)) = true
    then assignChan (n.rd (R.ENS_SLOT_CFG_TI_CH i)) n else n) n

/-- The closing windows of 64 s begin anew with TS0; the timers run on (log entries 40 and 94). -/
def Stack.rewind (k : Stack) : Stack := { k with win := 0, sumW := 0, numW := 0, sumE := 0, numE := 0, spoilt := none }

/-- A learned bias is discarded (R500). -/
def dropBias (s : State) (i : Nat) : State :=
  if s.on (R.ENS_SLOT_CFG_BIAS_FIX i) then s
  else
    (((s.modSlot i (fun k => { k with bias := 0, biasWritten := false, learned := false })).lo (R.ENS_SLOT_STAT_BIAS_OK i)).lo (R.ENS_SLOT_BIAS_B i)).lo
      (R.ENS_SLOT_BIAS_HI_B i)

/-- The filter of R500: only the drift record and estimate are left, and the set's own CARRY clock (R83). -/
def Filter.restart (f : Filter) : Filter := { drift := f.drift, timeLeft := f.timeLeft }

/-- The timescale's part of a warm reset (R75, R108, R500): both counters at 0, every TSC_ register at its reset value, engines UNSET. -/
def warmTs (s : State) : State :=
  let t := s.ts0
  let old1 := s.ts1
  let s := resetRegs 0x10000 0x20000 (fun _ => false) s
  let s := { s with
    tick := { count := s.tick.count, markerAt := s.tick.markerAt, bank0 := { jumped := s.tick.bank0.jumped - s.tick.bank0.ts } }
    ens := { s.ens with
      f0 := s.ens.f0.restart, f1 := s.ens.f1.restart, stepAt := 0, driftAt := s.clk, refAt := none
      slots := (s.ens.slots.map (fun e => (e.1, { e.2 with clock := s.clk }))).filter (fun e => e.2 ≠ ({} : Slot)) }
    stack := s.stack.rewind }
  let s := slotIds.foldl dropBias s
  let s := [R.ENS_STAT_LEAD, R.ENS_STAT_LEAD_VALID, R.ENS_PHASE_THETA, R.ENS_FREQ_Y, R.ENS_ERR_ERR, R.ENS_HO_TIME_SECONDS,
    R.ENS_S1_PHASE_THETA, R.ENS_S1_FREQ_Y].foldl (fun s f => s.wr f f.reset) s
  let s := outIds.foldl (stepMeetsOut .ts0 t 0) s
  outIds.foldl (stepMeetsOut .ts1 old1 0) s

/-! ### Requests (R447, R448) -/

/-- The rank of R448, the widest highest. -/
def ResetKind.rank : ResetKind → Nat
  | .powerOn => 5
  | .cold => 4
  | .warmTs => 3
  | .warm => 2
  | .watchdog => 2
  | .die _ => 1

/-- The state a reset of a kind leaves at its beginning.  One of the Keeper ends the commands that wait in its mailboxes with ABORTED (R411,
R429) before it empties the channels (R412). -/
def resetScope (k : ResetKind) (sender : Nat) (s : State) : State :=
  match k with
  | .powerOn => coldState true (abortFor 3 s)
  | .cold => coldState false (abortFor 3 s)
  | .warmTs => warmTs (warmState true sender (abortFor 3 s))
  | .warm => warmState false sender (abortFor 3 s)
  | .watchdog => warmState false sender (abortFor 3 s)
  | .die n => resetDie n s

/-- A requested reset begins, or restarts the one in progress with its wider scope, or is discarded; further requests wait on (R448). -/
def beginReset (k : ResetKind) (sender : Nat) (s : State) : State :=
  let ok := match s.rst.active with
    | some a => decide (a.1.rank < k.rank)
    | none => true
  if ok then
    let t := resetScope k sender s
    let left (r : ResetKind × Nat × Nat) : ResetKind × Nat × Nat := (r.1, r.2.1, t.clk + (r.2.2 - s.clk))
    { t with rst := { t.rst with active := some (k, sender), stage := 0, requests := if k = .powerOn then [] else s.rst.requests.map left } }
  else s

/-- KIND of PWR_RST_CTL and of the RESET opcode. -/
def resetKind (v : Nat) : Option ResetKind :=
  if v = 1 then some .warm else if v = 2 then some .warmTs else if v = 3 then some .cold
  else if 4 ≤ v ∧ v ≤ 7 then some (.die (v - 4)) else none

/-- A write of PWR_RST_CTL with the effect of one by PF1: a good GO begins its reset at once; any other GO write is discarded (R447), and so
is one by a relayed command, which resets nothing (R75, R424). -/
def writeRstCtl (id w : Nat) (s : State) : State :=
  if R.PWR_RST_CTL_GO.of w = 1 then
    match resetKind (R.PWR_RST_CTL_KIND.of w), decide (R.PWR_RST_CTL_KEY.of w = 0xA5 ∧ id < 8) with
    | some k, true => beginReset k 2 (s.wr R.PWR_RST_CTL_KIND (R.PWR_RST_CTL_KIND.of w))
    | _, _ => s.raise Evt.pwr 64
  else s.wr R.PWR_RST_CTL_KIND (R.PWR_RST_CTL_KIND.of w)

def execRstGo (w : Word) : State → Res State := go (writeRstCtl 2 (R.PWR_RST_CTL_GO.setIn w.toNat))

/-- The reset the oldest RESET command asked for begins, 1 ms after its reply. -/
def resetBegin (s : State) : State :=
  match s.rst.requests with
  | [] => s
  | (k, sender, due) :: rest =>
    let s := s.waitClk due
    beginReset k sender { s with rst := { s.rst with requests := rest } }

def execResetBegin : State → Res State := go resetBegin

/-- POR_N has been low for `ns` and rises, or stays low (R447, R450, R488): less than 1 µs is ignored (R495).  While it is low the block stays as
the reset leaves it, and its rise begins the sequence of R450. -/
def porLow (ns : Nat) (rises : Bool) (s : State) : State :=
  if ns < 1000 then s
  else
    let s := beginReset .powerOn 0 { s with rst := { s.rst with active := none } }
    { s with rst := { s.rst with porLow := !rises } }

def execPowerOnReset (lowNs : Nat) (rises : Bool) : State → Res State := go (porLow lowNs rises)

/-- A rail below 90% for 2 µs or longer (R489). -/
def execSupplyDip (us : Nat) : State → Res State := go (fun s => if 2 ≤ us then beginReset .powerOn 0 s else s)

/-- The running firmware goes 1 s without a service cycle, from the last one it is known to have made on (R18, R447, log entry 108). -/
def watchdogExpire (s : State) : State :=
  if s.on R.DEV_DIE_STAT_KFW_RUN then beginReset .watchdog 0 (s.waitClk (s.fw.cycleAt + sec16 1)) else s

def execWatchdogExpire : State → Res State := go watchdogExpire

/-! ### ECC (R473) -/

/-- The array code and the die of an array. -/
def eccCode : EccArray → Nat × Nat
  | .cst n _ => (0, n.val)
  | .grant n _ => (1, n.val)
  | .packet p _ _ => (2, p.val / 8)
  | .queue p _ _ => (3, p.val / 8)
  | .received p _ => (2, p.val / 8)
  | .assembly p => (2, p.val / 8)
  | .record _ _ => (6, 4)
  | .firmware => (4, 4)
  | .keys => (5, 4)
  | .shadow => (6, 4)
  | .other d => (6, d.val)

/-- A queued frame is discarded. -/
def dropQueued (p q i : Nat) (s : State) : State :=
  match (s.txq p q)[i]? with
  | some f => faultDrop p [f] (setTxq p q ((s.txq p q).eraseIdx i) s)
  | none => s

/-- A received frame of the packet buffer is discarded, counted as one the buffer lost (R235, log entry 108). -/
def dropReceived (p i : Nat) (s : State) : State :=
  if i < (s.port p).fec.length then mac p 18 1 (s.modPort p (fun k => { k with fec := k.fec.eraseIdx i })) else s

/-- So is one being reassembled. -/
def dropOpen (p : Nat) (s : State) : State :=
  if (s.port p).asm.isSome then mac p 18 1 (s.modPort p (fun k => { k with asm := none })) else s

/-- An unread record is discarded: its slot reads 0, and it is counted in LOST. -/
def dropRecord (g slot : Nat) (s : State) : State :=
  let rd := s.rd (R.TIM_GRP_RD_RD g)
  let wr := s.rd (R.TIM_GRP_WR_WR g)
  if (slot + timRing - rd) % timRing < (wr + timRing - rd) % timRing then
    let s := { s with tim := { s.tim with rings := IMap.put [] s.tim.rings (g * timRing + slot) [] } }
    (s.wr (R.TIM_GRP_LOST_LOST g) (satNat 32 (s.rd (R.TIM_GRP_LOST_LOST g) + 1))).count 0x031 g 1
  else s

/-- What an uncorrectable word does, by array. -/
def eccAct (a : EccArray) (s : State) : State :=
  match a with
  | .cst n e => if (IMap.get {} s.srv.cst (n.val * 2097152 + e.val)).valid then ntpStat n.val 7 (s.setCst (n.val * 2097152 + e.val) {}) else s
  | .grant n e => if (s.grant (n.val * 16384 + e.val)).valid then ptpStat n.val 15 (s.setGrant (n.val * 16384 + e.val) {}) else s
  | .packet p q i => dropQueued p.val q.val i s
  | .queue p q i => dropQueued p.val q.val i s
  | .received p i => dropReceived p.val i s
  | .assembly p => dropOpen p.val s
  | .record g slot => dropRecord g.val slot.val s
  | .firmware => beginReset .warm 0 s
  | .keys => beginReset .warm 0 s
  | .shadow => beginReset .warm 0 s
  | .other _ => s

/-- An SRAM read finds an error. -/
def eccError (a : EccArray) (word : Nat) (corrected : Bool) (s : State) : State :=
  let d := (eccCode a).2
  if corrected then (s.wr R.WCH_ECC_CORR (satNat 16 (s.rd R.WCH_ECC_CORR + 1))).count 0x060 d 1
  else
    let s := (s.wr R.WCH_ECC_UNCORR (satNat 16 (s.rd R.WCH_ECC_UNCORR + 1))).count 0x061 d 1
    eccAct a ((s.raise Evt.wch 8).logRec 0x0004 d 0 ((eccCode a).1 :: le 4 word))

def execEccError (a : EccArray) (word : Word) (corrected : Bool) : State → Res State := go (eccError a word.toNat corrected)

/-! ### TAP (R496, R497) -/

/-- The instruction of a code: every other code acts as BYPASS (R496). -/
def tapDecode (code : Nat) : TapInstr :=
  match code with
  | 0x01 => .idcode
  | 0x02 => .sample
  | 0x03 => .extest
  | 0x04 => .clamp
  | 0x05 => .highz
  | 0x06 => .extestPulse
  | 0x07 => .extestTrain
  | _ => .bypass

/-- The identification register (R496). -/
def tapId : Nat := 0x1083246B

/-- Whether an instruction selects the boundary register. -/
def TapInstr.boundary : TapInstr → Bool
  | .sample => true
  | .extest => true
  | .extestPulse => true
  | .extestTrain => true
  | _ => false

/-- What the selected register captures, first bit out first: the identification, the balls, or one 0 for the bypass register. -/
def State.captured (s : State) : List Bool :=
  if s.rst.tap = .idcode then (List.range 32).map tapId.testBit
  else if s.rst.tap.boundary then (List.range 1210).map (Config.boundaryPins s.cycle).getLsbD
  else [false]

/-- A scan: the captured bits leave on TDO with those of TDI behind them, and what is left in the boundary register comes to drive. -/
def tapScan (tdi : List Bool) (s : State) : State :=
  let through := s.captured ++ tdi
  let s := if s.rst.tap.boundary then
      { s with rst := { s.rst with cells := BitVec.ofNat 1210 (bitsNat (through.drop tdi.length).reverse) } }
    else s
  s.emit (.tdo (through.take tdi.length))

/-- An instruction comes into force.  Leaving a test instruction for any other is a cold reset (R497). -/
def tapInstruction (i : TapInstr) (s : State) : State :=
  let leaves := s.inTest && s.rst.tap ≠ i
  let s := { s with rst := { s.rst with tap := i } }
  let s := if leaves then beginReset .cold 0 s else s
  if s.inTest then
    let s := (List.range 32).foldl (fun s p => if s.link p = 0 then s else setLink p 0 s) s
    [0, 1].foldl (fun s l => setMor l 0 s) s
  else s

/-- What the TAP does; Test-Logic-Reset selects IDCODE. -/
def tapOp (op : TapOp) (s : State) : State :=
  match op with
  | .reset => tapInstruction .idcode s
  | .load code => tapInstruction (tapDecode code.toNat) s
  | .scan tdi => tapScan tdi s

def execTapInstruction (op : TapOp) : State → Res State := go (tapOp op)

end Sys2Proof.Machine
end

