-- ==== Sys2Proof/Machine/Bus.lean ====
section
/-! DEFINITION. Register access (01): what an address shows, what a read of it does, what a write of it does, and which function reaches
it (R10, R40-R44, R347, R402, R431, R432). -/

namespace Sys2Proof.Machine

/-- The index of an address among `n` places from `base` on, `stride` apart. -/
def idxAt (a base stride n : Nat) : Option Nat :=
  if base ≤ a ∧ (a - base) % stride = 0 ∧ (a - base) / stride < n then some ((a - base) / stride) else none

/-- The index of the block of `size` bytes that holds an address, and the offset in it. -/
def inBlock (a base stride n size : Nat) : Option (Nat × Nat) :=
  if base ≤ a ∧ (a - base) % stride < size ∧ (a - base) / stride < n then some ((a - base) / stride, (a - base) % stride) else none

/-- The timescale of a number. -/
def bankAt (b : Nat) : Bank := if b = 0 then .ts0 else .ts1

/-- The sender with an ID. -/
def senderAt (id : Nat) : Sender :=
  if id = 1 then .pf0 else if id = 2 then .pf1 else if id = 3 then .keeper
  else if id < 8 then .beacon (Fin.ofNat 4 (id - 4)) else .peer (Fin.ofNat 8 (id - 8))

/-! ### Capability list (R438-R440) -/

/-- Each entry's header, w0, w1 and w2, from 0x040 on. -/
def capabilities : List Nat :=
  [0x14010001, 0x00010000, 0x03300320, 0x00000064,
   0x18010002, 0x00020000, 0x00011010, 0x0000044C,
   0x1C010003, 0x00040000, 0x003FF4A0, 0x00000002,
   0x20010004, 0x00080000, 0x00400840, 0x0C800271,
   0x24010005, 0x00090000, 0x00000020, 0x00000271,
   0x28010006, 0x000C0000, 0x00001402, 0x00000000,
   0x2C010007, 0x01000000, 0x01FF0820, 0x00000308,
   0x30010008, 0x01100000, 0x00000715, 0x00000000]
  ++ [0x34010009, 0x01200000, 0x070F040C, 0x00000068,
   0x3801000A, 0x01300000, 0x40003F44, 0x000000F9,
   0x3C01000B, 0x000E0000, 0x00000082, 0x00000000,
   0x4001000C, 0x000F0000, 0x0008007D, 0x00000000,
   0x4401000D, 0x00120000, 0x00300400, 0x00000000,
   0x4801000E, 0x00140000, 0x000000FF, 0x00000000,
   0x4C01000F, 0x00110000, 0x19505A1E, 0x00000000,
   0x00010010, 0x00000000, 0x40028080, 0x0000000A]

/-! ### What a register shows -/

/-- Fields of the timescale, the ensemble and the GNSS receiver that follow something else. -/
def State.liveTime (s : State) (a w : Nat) : Option Nat :=
  if a = 0x40000 + 0x2C then some (R.GNS_SLEEP_STAT_ELIGIBLE.putIn (b01 s.gnsEligible) w)
  else if a = 0x20060 ∨ a = 0x20064 then
    let v := ofSigned 48 (s.filter s.decideBank).held
    some (if a = 0x20060 then v % 2 ^ 32 else v / 2 ^ 32)
  else
    match inBlock a 0x10020 0x100 2 0x28 with
    | some (b, o) =>
      let k := s.tick.bank (bankAt b)
      let left := ofSigned 48 k.slew.left
      if o = 0 then some (k.incr / 2 ^ 48)
      else if o = 4 then some (k.incr / 2 ^ 32 % 2 ^ 16)
      else if o = 8 then some (k.incr % 2 ^ 32)
      else if s.on (R.TSC_SLEW_CTL_ACTIVE b) ∧ o = 0x20 then some (left % 2 ^ 32)
      else if s.on (R.TSC_SLEW_CTL_ACTIVE b) ∧ o = 0x24 then some (left / 2 ^ 32)
      else none
    | none =>
      match idxAt a 0x21004 0x40 16 with
      | some i =>
        let w := (R.ENS_SLOT_STAT_LEFT i).putIn (s.slotLeft i) w
        some (if s.slotEn i && !s.carriesTime i then
          (R.ENS_SLOT_STAT_STATE i).putIn Src.absent.code ((R.ENS_SLOT_STAT_CAUSE i).putIn Cause.lane.code w) else w)
      | none =>
        match idxAt a 0x21038 0x40 16 with
        | some i => some ((R.ENS_SLOT_HIST_SUSP i).putIn (satNat 4 (s.suspCount i)) w)
        | none => (idxAt a 0x40210 0x40 2).map (fun n => (R.GNS_SURV_STAT_ELAPSED n).putIn (s.surveyElapsed n) w)

/-- Fields of the interval block, the module ports, stacking, mailboxes and counters. -/
def State.liveKeeper (s : State) (a w : Nat) : Option Nat :=
  if a = 0x80014 then some s.binData
  else if 0x91008 ≤ a ∧ a < 0x91808 ∧ (a - 0x91008) % 0x40 = 0 then
    some ((R.PLS_STAT_STATE ((a - 0x91008) / 0x40)).putIn (s.outState ((a - 0x91008) / 0x40)) w)
  else if a = 0xF0004 then some (R.TND_STAT_UNASSIGNED.putIn (b01 s.unassigned) w)
  else if a = 0x8101188 then
    let k := s.port (s.rd R.HRG_FIFO_SEL_PORT)
    some (R.HRG_FIFO_STAT_HIGH.putIn k.high (R.HRG_FIFO_STAT_LEVEL.putIn k.stamps.length w))
  else
    match idxAt a 0x81014 0x20 64 with
    | some c => some ((R.TIM_CH_CAL_AGE c).putIn (s.calAge c) w)
    | none =>
      match idxAt a 0xC0104 0x100 2 with
      | some p => some ((R.RFM_STAT_WARM_LEFT p).putIn (s.warmLeft p) w)
      | none =>
        match idxAt a 0xF0108 0x10 8 with
        | some n => some ((R.TND_NODE_INFO_AGE n).putIn (s.nodeAge n) w)
        | none =>
          match idxAt a 0x100048 0x80 16 with
          | some c => some ((R.MBX_STAT_RX_DOWN c).putIn (b01 (s.rxDown c)) w)
          | none =>
            match inBlock a 0x120000 16 1024 16 with
            | some (c, o) => if o = 4 then some ((IMap.get {} s.pct c).count % 2 ^ 32) else if o = 8 then some (s.pctHi c) else none
            | none => none

/-- Fields of a Beacon die. -/
def State.liveDie (s : State) (a w : Nat) : Option Nat :=
  match inBlock a 0x1000000 0x1000000 4 0x1000000 with
  | none => none
  | some (d, o) =>
    if o = 0x200010 then some ((R.NTS_ENG_STAT_LENT d).putIn (s.lent d) w)
    else if o = 0x100028 then some ((R.NTP_CST_STAT_USED d).putIn (s.cstUsed d) w)
    else if o = 0x200004 then
      some ((R.NTS_STAT_QUEUE d).putIn (s.ntsDie d).queue.length ((R.NTS_STAT_ACTIVE d).putIn (s.ntsActive d) w))
    else if o = 0x300018 then some ((R.PTP_GRANT_STAT_USED d).putIn (s.grantUsed d) w)
    else
      match idxAt o 0x300110 0x40 32 with
      | some k =>
        let j := d * 32 + k
        if s.rd (R.PTP_INST_STAT_STATE j) = 2 ∧ (ptpWithheld (j / 4) s).isSome then some ((R.PTP_INST_STAT_STATE j).putIn 1 w) else none
      | none => none

/-- The word of a register as it reads now. -/
def State.show (s : State) (r : Register) : Nat :=
  let w := s.showReg r
  (((s.liveTime r.addr w).or (s.liveKeeper r.addr w)).or (s.liveDie r.addr w)).getD w

/-! ### Buffers, windows and statistics -/

/-- The key and half of a 64-bit statistic at an address: MAC, NTP, NTS and PTP counters (R255, R286, R310, R346). -/
def statAt (a : Nat) : Option (Nat × Bool) :=
  match inBlock a 0x1000000 0x1000000 4 0x1000000 with
  | none => none
  | some (d, o) =>
    let hi := decide (o % 8 = 4)
    if o < 0x80000 ∧ 0x1000 ≤ o % 0x10000 ∧ o % 0x10000 < 0x1200 then some ((d * 8 + o / 0x10000) * 64 + (o % 0x10000 - 0x1000) / 8, hi)
    else if 0x100800 ≤ o ∧ o < 0x100900 then some (2048 + d * 32 + (o - 0x100800) / 8, hi)
    else if 0x200800 ≤ o ∧ o < 0x200900 then some (2176 + d * 32 + (o - 0x200800) / 8, hi)
    else if 0x300C00 ≤ o ∧ o < 0x300D00 then some (2304 + d * 32 + (o - 0x300C00) / 8, hi)
    else none

/-- The bytes of a log record (R470). -/
def LogRec.bytes (r : LogRec) : List Nat :=
  le 4 r.seq ++ ktBytes r.time ++ le 2 r.event ++ [r.unit % 256, r.sender] ++ (r.data ++ List.replicate 12 0).take 12

/-- A ring slot of the log as bytes; a slot nothing has been written to reads 0. -/
def State.logSlot (s : State) (k : Nat) : List Nat :=
  let r := IMap.get {} s.log k
  if r = {} then List.replicate 32 0 else r.bytes

/-- A word of a buffer or window: the capability list, navigation records, interval records, the event log. -/
def State.bufferWord (s : State) (a : Nat) : Option Nat :=
  if 0x40 ≤ a ∧ a < 0x140 then some (capabilities.getD ((a - 0x40) / 4) 0)
  else if 0x60000 ≤ a ∧ a < 0x70000 then
    some (leAt ((List.range 4).map (fun k => (readByte s.mem (a + k)).toNat)) 0 4)
  else if 0xA0000 ≤ a ∧ a < 0xC0000 then some (s.timWindow ((a - 0xA0000) / 0x4000) (a % 0x4000))
  else if 0x150000 ≤ a ∧ a < 0x160000 then
    some (leAt (s.logSlot (s.rd R.LOG_WIN_WIN * 2048 + (a - 0x150000) / 32)) (a % 32) 4)
  else none

/-- What an address reads without side effects; a reserved one reads 0 (R43, R432). -/
def State.peek (s : State) (a : Nat) : Nat :=
  match s.bufferWord a with
  | some v => v
  | none =>
    match statAt a with
    | some (k, hi) => IMap.get 0 s.srv.stats k / (if hi then 2 ^ 32 else 1) % 2 ^ 32
    | none => match regAt a with
      | some r => s.show r
      | none => 0

/-- Statistics, counters and rings are brought up to date before an access to them. -/
def settleFor (a : Nat) (s : State) : State :=
  if (0x120000 ≤ a ∧ a < 0x140000) ∨ (statAt a).isSome = true then settleAll s
  else if 0x8000000 ≤ a then settleEnded s
  else s

/-! ### Reads -/

/-- The words of an antenna's solution, from SOL_EPOCH_LO on. -/
def State.solWords (s : State) (n : Nat) : List Nat := (List.range 6).map (fun k => s.peek (0x40214 + n * 0x40 + 4 * k))

/-- A read of a solution register: EPOCH_LO latches all six. -/
def readSol (n k : Nat) (s : State) : Nat × State :=
  if k = 0 then
    let ws := s.solWords n
    (ws.getD 0 0, s.modAnt n (fun q => { q with latch := (ws.zipIdx).foldl (fun m e => IMap.put 0 m e.2 e.1) [(6, 1)] }))
  else if IMap.get 0 (s.gnsAnt n).latch 6 = 1 then (IMap.get 0 (s.gnsAnt n).latch k, s)
  else ((s.solWords n).getD k 0, s)

/-- A read with its side effects, by PF0 (0), PF1 (1) or the firmware (2): RC fields clear, latches are taken. -/
def busRead (reader a : Nat) (s : State) : Nat × State :=
  let s := settleFor a s
  match statAt a, inBlock a 0x120000 16 1024 16, inBlock a 0x40214 0x40 2 0x18 with
  | some (k, false), _, _ => readStatLow k s
  | some (k, true), _, _ => (readStatHigh k s, s)
  | _, some (c, 4), _ => readPctLo c reader s
  | _, some (c, 8), _ => (readPctHi c reader s, s)
  | _, _, some (n, o) => if o % 4 = 0 then readSol n (o / 4) s else (0, s)
  | _, _, _ =>
    let v := s.peek a
    let s := if a = 0x8101188 then s.modPort (s.rd R.HRG_FIFO_SEL_PORT) (fun k => { k with high := 0 }) else s
    match s.bufferWord a, regAt a with
    | none, some r => (v, s.clearRc r)
    | _, _ => (v, s)

/-! ### Writes -/

/-- The event registers with enables, by the address of the enables. -/
def evtAt (a : Nat) : Option EvtSrc :=
  let fixed := [Evt.ens, Evt.rfm, Evt.wch, Evt.gns, Evt.tim, Evt.pls, Evt.mor, Evt.pwr, Evt.cfg, Evt.hrg 0, Evt.hrg 1, Evt.mbx 0, Evt.mbx 1]
  let has (e : EvtSrc) : Bool := match e.en with
    | some f => f.addr = a
    | none => false
  match fixed.find? has with
  | some e => some e
  | none =>
    match idxAt a 0x130080 4 32 with
    | some k => some ⟨R.PCT_OVF_OVF k, some (R.PCT_OVF_EN_EN k), 1, 48⟩
    | none =>
      match inBlock a 0x1000000 0x1000000 4 0x1000000 with
      | some (d, o) =>
        (((List.range 8).map (fun k => Evt.mac (d * 8 + k))) ++ [Evt.ntp d, Evt.nts d, Evt.ptp d]).find? (fun e => has e && decide (o < 0x400000))
      | none => none

/-- Writes of the timescale's registers that do more than store. -/
def writeTsc (id a w : Nat) : Option (State → State) :=
  if a = 0x10000 then some (writeTscCtl w)
  else if a = 0x10008 then some (writeSnapCtl w)
  else if a = 0x1000C then some (writeUtcOfs w)
  else if a = 0x10010 then some (writeSwitchCtl id w)
  else if a = 0x10240 then some (writeLeapCtl w)
  else if a = 0x10244 then some (writeLeapUtc Reg.TSC_LEAP_UTC_LO w)
  else if a = 0x10248 then some (writeLeapUtc Reg.TSC_LEAP_UTC_HI w)
  else match inBlock a 0x10020 0x100 2 0x3C with
    | some (b, 0) => some (stageIncr (bankAt b) 0 w)
    | some (b, 4) => some (stageIncr (bankAt b) 1 w)
    | some (b, 8) => some (stageIncr (bankAt b) 2 w)
    | some (b, 0xC) => some (writeIncrCtl (bankAt b) .host w)
    | some (b, 0x1C) => some (writeSlewCtl (bankAt b) .host w)
    | some (b, 0x38) => some (writeStepCtl (bankAt b) (.sender (senderAt id)) w)
    | _ => none

/-- Of the ensemble's. -/
def writeEns (id a w : Nat) : Option (State → State) :=
  if a = 0x20048 then some (writeAnchor w)
  else if a = 0x2005C then some (writeDecide id w)
  else match inBlock a 0x21000 0x40 16 0x40 with
    | some (i, 0) => some (writeSlotCfg id i w)
    | some (i, 8) => some (writeSlotCmd id i w)
    | some (i, 0x28) => some (writeSlotBias i w)
    | some (i, 0x2C) => some (writeSlotAsym i w)
    | some (i, 0x3C) => some (writeSlotBiasHi i w)
    | _ => none

/-- Of the GNSS receiver's. -/
def writeGns (a w : Nat) : Option (State → State) :=
  if a = 0x40000 then some (writeGnsCtl w)
  else if a = 0x40024 then some (writeSpacing w)
  else if a = 0x40038 then some (writeNavRd w)
  else if a = 0x40028 then some (writeSleepCtl w)
  else match inBlock a 0x40100 0x40 4 0x40, inBlock a 0x40200 0x40 2 0x10, idxAt a 0x50000 16 160 with
    | some (n, 0), _, _ => some (writePortCfg n w)
    | some (n, 0xC), _, _ => some (writePortJam n w)
    | some (n, 0x10), _, _ => some (writeNotchCtl n w)
    | some (n, o), _, _ => if o = 0x20 ∨ o = 0x24 ∨ o = 0x28 ∨ o = 0x2C then some (writeNotchFreq n ((o - 0x20) / 4) w) else none
    | _, some (n, 0xC), _ => some (writePosCtl n w)
    | _, some (n, o), _ => if o % 4 = 0 then some (writePos n (o / 4) w) else none
    | _, _, some c => some (writeChCfg c w)
    | _, _, _ => none

/-- Of the interval block's, the module ports', stacking's, the arbiter's and the counters'. -/
def writeKeeper (id a w : Nat) : Option (State → State) :=
  if a = 0x80000 then some (writeTimCtl w)
  else if a = 0xE0000 then some (writeMorCtl w)
  else if a = 0x110000 then some (writePwrCtl w)
  else if a = 0x110040 then some (writeRstCtl id w)
  else match inBlock a 0x81000 0x20 64 0x20, idxAt a 0x91004 0x40 32, inBlock a 0xC0100 0x100 2 0x100, idxAt a 0xE0100 0x40 2,
      inBlock a 0x120000 16 1024 16 with
    | some (c, 0), _, _, _, _ => some (writeTimChCfg c w)
    | some (c, 4), _, _, _, _ => some (writeChCtl c w)
    | _, some o, _, _, _ => some (writePlsCtl o w)
    | _, _, some (p, 0), _, _ => some (writeRfmCfg p w)
    | _, _, some (p, 8), _, _ => some (writeEfc p w)
    | _, _, some (p, 0x20), _, _ => some (writeHoursCmd id p w)
    | _, _, _, some l, _ => some (writeLinkCfg l w)
    | _, _, _, _, some (c, 0) => some (writePctSel c w)
    | _, _, _, _, some (c, 8) => some (fun s => if bit w 31 then clearOvf c s else s)
    | _, _, _, _, _ => if a = 0xC0000 then some (writeRfmCtl id w) else (idxAt a 0x80100 0x40 8).map (fun g => writeGrpCfg g w)

/-- Of a Beacon die's. -/
def writeDie (a w : Nat) : Option (State → State) :=
  match inBlock a 0x1000000 0x1000000 4 0x1000000 with
  | none => none
  | some (d, o) =>
    if o = 0x100024 then some (writeCstCtl d w)
    else if o < 0x80000 then
      let p := d * 8 + o / 0x10000
      match o % 0x10000 with
      | 0 => some (writeMacCfg p w)
      | 0x10 => some (writeMacAddrLo p w)
      | 0x14 => some (writeMacAddrHi p w)
      | 0x3C => some (writeDlyRx p w)
      | 0x100 => some (writeSvcCmd p w)
      | _ => none
    else
      match inBlock o 0x300100 0x40 32 0x30 with
      | some (k, 0) => some (writeInst (d * 32 + k) (Reg.PTP_INST_CFG (d * 32 + k)) w)
      | some (k, 4) => some (writeInstRate (d * 32 + k) false w)
      | some (k, 8) => some (writeInstRate (d * 32 + k) true w)
      | some (k, 0xC) => some (writeInst (d * 32 + k) (Reg.PTP_INST_UP (d * 32 + k)) w)
      | some (k, o) => if 0x20 ≤ o ∧ o % 4 = 0 then some (writeInst (d * 32 + k) (Reg.PTP_INST_PEER ((d * 32 + k) * 4 + (o - 0x20) / 4)) w) else none
      | none => none

/-- A write by sender `id`, with the effect of a PF1 write: a register's own effect, else enables, else the access codes (R10); reserved
addresses discard it. -/
def busWrite (id a w : Nat) (s : State) : State :=
  let s := settleFor a s
  match (writeTsc id a w).or ((writeEns id a w).or ((writeGns a w).or ((writeKeeper id a w).or (writeDie a w)))) with
  | some f => f s
  | none =>
    match evtAt a, regAt a with
    | some e, some r => match r.fields.head? with
      | some f => s.enableEvt e (f.of w)
      | none => s
    | none, some r => s.storeReg (s.on R.CFG_STAT_LOCKED && id ≠ 3) r w
    | _, none => s

/-! ### Ring pages (R44, R347) -/

/-- A read in a ring page. -/
def readPage (fn a : Nat) (s : State) : State :=
  let q := (a - 0x8000000) / 0x1000
  if 258 ≤ q then (if fn = 0 then unsupported a true s else s.emit (.readData 0))
  else if !s.reaches fn q then unsupported a true s
  else
    let r := busRead fn a s
    r.2.emit (.readData r.1)

/-- A write in a ring page of a register other than HRG_RING_CFG and HRG_RING_TAIL, by the ring's owner. -/
def writeOwnPage (q a w : Nat) (s : State) : State :=
  let o := a % 0x1000
  if o = 4 then writeRingBase Reg.HRG_RING_BASE_LO q w s
  else if o = 8 then writeRingBase Reg.HRG_RING_BASE_HI q w s
  else if o = 0x14 then writeRingItr q w s
  else if o = 0x18 then writeRingThr q w s
  else if 256 ≤ q ∧ 0x800 ≤ o ∧ o < 0xC00 ∧ o % 16 = 12 then
    let vec := (o - 0x800) / 16
    (s.wr (R.MSIX_CTRL_MASK ((q - 256) * 64 + vec)) w).unmasked (q - 256) vec
  else busWrite 2 a w s

/-- A write in a ring page. -/
def writePage (fn a w : Nat) (s : State) : State :=
  let s := settleEnded s
  let q := (a - 0x8000000) / 0x1000
  if 258 ≤ q then (if fn = 0 then unsupported a false s else s)
  else if !s.reaches fn q then unsupported a false s
  else if a % 0x1000 = 0 then writeRingCfg fn q w s
  else if a % 0x1000 = 0xC then doorbell fn q w [] s
  else if s.ownsRing fn q then writeOwnPage q a w s
  else s

/-! ### Mailbox registers from the host (R402) -/

/-- The function's path. -/
def hostPath (fn : Nat) : MbxPath := .host (Fin.ofNat 2 fn)

/-- The register at an offset of a channel's block. -/
def mbxRegAt (o : Nat) : MbxReg := if o < 0x40 then .data (Fin.ofNat 16 (o / 4)) else if o = 0x40 then .ctl else if o = 0x44 then .lock else .stat

/-- A read or write of a channel's register by a function. -/
def hostMbx (fn c o : Nat) (w : Option Nat) : State → State := mbxAccess c (mbxRegAt o) (hostPath fn) w

/-! ### Host accesses (R40-R44) -/

/-- Whether PF0 reaches a BAR0 offset (R42).  The identity and counter blocks are taken as their whole ranges, so a reserved offset in them reads
0 as R43 has it, while a reserved offset of a mailbox is an Unsupported Request (DESIGN CHOICE, log entry 66). -/
def pf0Reaches (a : Nat) : Bool :=
  decide (a < 0x10000) || within 0x120000 0x140000 a || (within 0x100000 0x100400 a && (regAt a).isSome)
    || a = 0x100800 || a = 0x100804

/-- The die whose window holds a BAR0 offset. -/
def windowOf (a : Nat) : Option Nat := (inBlock a 0x1000000 0x1000000 4 0x1000000).map (·.1)

/-- Whether an offset lies in the window of a die whose lane is OFF. -/
def State.windowOff (s : State) (a : Nat) : Bool := match windowOf a with
  | some d => s.rd (R.TSC_LANE_STAT_STATE d) = 0
  | none => false

/-- A function's read of a flat offset: BAR0, then BAR2 from 0x800_0000 on (log entry 5). -/
def hostRead (fn a : Nat) (s : State) : State :=
  if 0x8000000 ≤ a then readPage fn a s
  else if fn = 0 ∧ pf0Reaches a = false then unsupported a true s
  else if s.windowOff a then (s.emit (.aer 1 a true)).emit (.readData 0xFFFFFFFF)
  else
    match inBlock a 0x100000 0x80 16 0x4C with
    | some (c, o) => if o % 4 = 0 then hostMbx fn c o none s else s.emit (.readData 0)
    | none =>
      let r := busRead fn a s
      r.2.emit (.readData r.1)

/-- A function's write; one of a counter register by PF0 is logged through AER (R480). -/
def hostWrite (fn a w : Nat) (s : State) : State :=
  if 0x8000000 ≤ a then writePage fn a w s
  else if fn = 0 ∧ pf0Reaches a = false then unsupported a false s
  else if s.windowOff a then s.emit (.aer 1 a true)
  else
    match inBlock a 0x100000 0x80 16 0x4C with
    | some (c, o) => if o % 4 = 0 then hostMbx fn c o (some w) s else s
    | none =>
      if fn = 0 ∧ a ≠ 0x100800 ∧ a ≠ 0x100804 then (if within 0x120000 0x140000 a then unsupported a false s else s)
      else busWrite 2 a w s

/-- An access, where the BARs hold its offset. -/
def hostAccess (fn a : Nat) (w : Option Nat) (s : State) : Res State :=
  if 0x9000000 ≤ a then .fault (.noSuchAddress a)
  else match w with
    | some v => go (hostWrite fn a v) s
    | none => go (hostRead fn a) s

def execForbiddenAccess (addr : Nat) (w : Option Word) : State → Res State := hostAccess 0 addr (w.map (·.toNat))
def execOffWindowAccess (addr : Nat) (w : Option Word) : State → Res State := hostAccess 1 addr (w.map (·.toNat))
def execRcRead (fn : Fin 2) (addr : Nat) : State → Res State := hostAccess fn.val addr none
def execRegisterWrite (fn : Fin 2) (addr : Nat) (w : Word) : State → Res State := hostAccess fn.val addr (some w.toNat)

end Sys2Proof.Machine
end

