-- ==== Sys2Proof/Machine/Boot.lean ====
section
/-! DEFINITION. The boot of the Keeper and the end of a reset (R447-R457), and the flash operations of a commit (R458, R459). -/

namespace Sys2Proof.Machine

/-! ### Register ranges of the opcode blocks (R431) -/

/-- A range in each die's window. -/
def dieRanges (lo hi : Nat) : List (Nat × Nat) :=
  [0, 1, 2, 3].map (fun n => (0x1000000 + n * 0x1000000 + lo, 0x1000000 + n * 0x1000000 + hi))

/-- The BAR0 ranges of a block: from, up to but not with. -/
def blockRanges (b : Nat) : List (Nat × Nat) :=
  match b with
  | 0x00 => [(0, 0x10000)]
  | 0x01 => [(0x110000, 0x120000)]
  | 0x02 => (0x10000, 0x20000) :: dieRanges 0x400000 0x400100
  | 0x03 => [(0x20000, 0x40000)]
  | 0x04 => [(0x40000, 0x80000)]
  | 0x05 => [(0x80000, 0xC0000)]
  | 0x06 => dieRanges 0 0x80000
  | 0x07 => dieRanges 0x100000 0x300000
  | 0x08 => dieRanges 0x300000 0x400000
  | 0x09 => [(0xE0000, 0x100000)]
  | 0x0A => [(0x110000, 0x120000)]
  | 0x0B => [(0x120000, 0x180000)]
  | 0x0C => [(0xC0000, 0xE0000)]
  | _ => []

/-- Whether a word's offset lies in a block's ranges. -/
def inRanges (b a : Nat) : Bool := (blockRanges b).any (fun r => within r.1 r.2 a)

/-- Whether a pair's offset breaks R457: outside the ranges, no multiple of 4, or a register no image may write. -/
def pairForbidden (a : Nat) : Bool :=
  a % 4 ≠ 0 || !(List.range 13).any (fun b => inRanges b a)
    || decide (a ∈ [0x10058, 0x10158, 0x10010, 0x2005C, 0x110040]) || within 0x110100 0x110118 a

/-! ### Choosing the image (R453, R455) -/

/-- The slot to boot, of the headers and images of both. -/
def bootSlot (i0 i1 : List Nat × Option Image) : Option Nat :=
  match i0.2, i1.2 with
  | some _, some _ => some (if seqNewer (hdrSeq i1.1) (hdrSeq i0.1) then 1 else 0)
  | some _, none => some 0
  | none, some _ => some 1
  | none, none => none

/-- Whether an invalid slot's intact header carries the newer SEQ. -/
def fallsBack (bad : List Nat × Option Image) (good : List Nat) : Bool :=
  bad.2.isNone && hdrIntact bad.1 && seqNewer (hdrSeq bad.1) (hdrSeq good)

/-- Whether a reset of the Keeper is in progress. -/
def State.booting (s : State) : Bool := match s.rst.active with
  | some (.die _, _) => false
  | some _ => true
  | none => false

/-- What SFDP declares (size in MiB, the largest erase of 64 KiB or less) is taken (R453). -/
def takeSfdp (sfdp : Option (Nat × Nat)) (s : State) : State :=
  let v := sfdp.getD (0, 65536)
  let bad := b01 (decide (v.1 < 32))
  let s := ((s.wr R.CFG_FLASH_SIZE (satNat 16 v.1)).wr R.CFG_FLASH_MODE bad).wr R.CFG_STAT_NO_SFDP bad
  { s with cfg := { s.cfg with erase := min 65536 v.2 } }

/-- The boot check of both slots completes: not while POR_N is low (R450), nor while the boundary cells drive the flash (R497). -/
def bootImageSelect (sfdp : Option (Nat × Nat)) (s : State) : State :=
  if s.booting && s.rst.stage = 0 && !s.rst.porLow && !s.inTest then
    let s := takeSfdp sfdp s
    let i0 := s.cfg.slotImage 0
    let i1 := s.cfg.slotImage 1
    let s := match bootSlot i0 i1 with
      | some k =>
        let good := if k = 0 then i0 else i1
        let other := if k = 0 then i1 else i0
        let s := (s.wr R.CFG_STAT_ACTIVE_SLOT k).hi R.CFG_STAT_ACTIVE_VALID
        let s := ((s.wr R.CFG_STAT_OTHER_VALID (b01 other.2.isSome)).lo R.CFG_STAT_NO_IMAGE).wr R.CFG_SEQ_SEQ (hdrSeq good.1)
        let s := { s with cfg := { s.cfg with image := good.2 } }
        if fallsBack other good.1 then (s.raise Evt.cfg 4).logRec 0x0102 k 0 [1] else s
      | none =>
        let s := ((s.lo R.CFG_STAT_ACTIVE_SLOT).lo R.CFG_STAT_ACTIVE_VALID).lo R.CFG_STAT_OTHER_VALID
        let s := (s.lo R.CFG_SEQ_SEQ).hi R.CFG_STAT_NO_IMAGE
        let s := { s with cfg := { s.cfg with image := none } }
        (s.raise Evt.cfg 8).logRec 0x0102 0 0 [2]
    { s with rst := { s.rst with stage := 1 } }
  else s

def execBootImageSelect (sfdp : Option (Nat × Nat)) : State → Res State := go (bootImageSelect sfdp)

/-! ### Firmware and image (R450, R457) -/

/-- The firmware runs, with the image's patch: mailboxes to the Keeper accept, and the Beacon dies are released. -/
def firmwareRun (s : State) : State :=
  if s.booting && s.rst.stage = 1 then
    let s := dies.foldl (fun s n => dieUp n s) (s.hi R.DEV_DIE_STAT_KFW_RUN)
    let s := s.wr R.GNS_STAT_RUN (b01 s.gnsOn)
    agentRun { s with rst := { s.rst with stage := 2 }, fw := { s.fw with cycleAt := s.clk } }
  else s

def execFirmwareRun : State → Res State := go firmwareRun

/-- A value with the RWS fields of its register as they stand. -/
def keepRws (a w : Nat) (s : State) : Nat := match regAt a with
  | some r => r.fields.foldl (fun w f => if f.acc = .rws then f.putIn (s.rd f) w else w) w
  | none => w

/-- Whether the firmware skips a pair. -/
def State.skipsPair (s : State) (a : Nat) : Bool := pairForbidden a || s.windowOff a

/-- Writes one pair, with the effect of a PF1 write, stamped 0x03. -/
def applyPair (rws : Bool) (p : Nat × Nat) (s : State) : State :=
  busWrite 3 p.1 (if rws then keepRws p.1 p.2 s else p.2 % 2 ^ 32) s

/-- A pair of the start-up, applied or skipped. -/
def bootPair (rws : Bool) (s : State) (p : Nat × Nat) : State :=
  if s.skipsPair p.1 then
    let first := s.rd R.CFG_APPLY_SKIPPED = 0
    let s := s.wr R.CFG_APPLY_SKIPPED (satNat 16 (s.rd R.CFG_APPLY_SKIPPED + 1))
    if first then s.raise Evt.cfg 16 else s
  else (applyPair rws p s).wr R.CFG_APPLY_PAIRS (satNat 16 (s.rd R.CFG_APPLY_PAIRS + 1))

/-- Whether a reset keeps RWS fields. -/
def State.keepsRws (s : State) : Bool := match s.rst.active with
  | some (.powerOn, _) => false
  | some (.cold, _) => false
  | _ => true

/-- The image's writes are applied; after a power-on or cold reset their end is a configuration commit. -/
def imageApply (s : State) : State :=
  if s.booting && s.rst.stage = 2 then
    let rws := s.keepsRws
    let s := (s.lo R.CFG_APPLY_PAIRS).lo R.CFG_APPLY_SKIPPED
    let s := match s.cfg.image with
      | some i =>
        let s := i.pairs.foldl (bootPair rws) s
        if rws then s else s.hi R.CFG_STAT_LOCKED
      | none => s
    { s with rst := { s.rst with stage := 3 } }
  else s

def execImageApply : State → Res State := go imageApply

/-! ### The end of a reset (R449, R452) -/

/-- KIND of PWR_RST_CAUSE. -/
def ResetKind.cause : ResetKind → Nat
  | .warm => 1
  | .warmTs => 2
  | .cold => 3
  | .watchdog => 5
  | _ => 0

/-- A Beacon die comes back: the firmware writes the image's pairs that name its window. -/
def dieBack (n : Nat) (s : State) : State :=
  let s := if bit (s.rd R.PWR_DIE_SLEEP_ASLEEP) n then s else dieUp n s
  let ps : List (Nat × Nat) := match s.cfg.image with
    | some i => i.pairs.filter (fun p => windowOf p.1 = some n)
    | none => []
  if s.on R.DEV_DIE_STAT_KFW_RUN then ps.foldl (fun s p => if s.skipsPair p.1 then s else applyPair true p s) s else s

/-- The cause of a reset of the Keeper is loaded and logged. -/
def loadCause (k : ResetKind) (sender : Nat) (s : State) : State :=
  let warm := decide (k = .warm ∨ k = .warmTs ∨ k = .watchdog)
  let s := (s.wr R.PWR_RST_CAUSE_KIND k.cause).wr R.PWR_RST_CAUSE_SENDER sender
  let n := if warm then satNat 16 (s.rd R.PWR_RST_CAUSE_WARM_CNT + 1) else 0
  let s := s.wr R.PWR_RST_CAUSE_WARM_CNT n
  if warm then s.logRec 0x0001 k.cause sender (sender :: le 2 n) else s

/-- A reset ends. -/
def resetComplete (s : State) : State :=
  match s.rst.active with
  | none => s
  | some (.die n, _) => dieBack n { s with rst := { s.rst with active := none } }
  | some (k, sender) =>
    if s.rst.stage = 3 then loadCause k sender { s with rst := { s.rst with active := none, stage := 0 } } else s

def execResetComplete : State → Res State := go resetComplete

/-! ### Flash operations of a commit (R458, R459) -/

/-- The record of a commit that ended. -/
def logCommit (j : CommitJob) (status : Nat) (s : State) : State :=
  s.logRec 0x0101 j.slot j.sender (le 4 j.seq ++ [status, s.rd R.CFG_STAT_ERR])

/-- The commit is over. -/
def dropCommit (s : State) : State :=
  let s := (s.lo R.CFG_STAT_COMMIT_BUSY).lo R.CFG_STAT_STEP
  { s with cfg := { s.cfg with commit := none } }

/-- The new image becomes active: RWL fields lock. -/
def commitDone (j : CommitJob) (s : State) : State :=
  let was := s.rd R.CFG_STAT_ACTIVE_VALID
  let s := ((dropCommit s).wr R.CFG_STAT_OTHER_VALID was).wr R.CFG_STAT_ACTIVE_SLOT j.slot
  let s := ((s.hi R.CFG_STAT_ACTIVE_VALID).wr R.CFG_SEQ_SEQ j.seq).hi R.CFG_STAT_LOCKED
  endRunning j.cmd 0 0 [] (logCommit j 0 (s.raise Evt.cfg 1))

/-- ERR of the operation that failed. -/
def commitErr (step : Nat) : Nat := if step = 1 then 6 else if step = 2 ∨ step = 4 ∨ step = 6 then 7 else 8

/-- An operation times out, or its read-back does not compare: the active image stays as it was. -/
def commitFail (j : CommitJob) (s : State) : State :=
  let s := (dropCommit s).wr R.CFG_STAT_ERR (commitErr j.step)
  let s := s.wr R.CFG_STAT_OTHER_VALID (b01 (s.on R.CFG_STAT_ACTIVE_VALID && (s.cfg.slotImage j.slot).2.isSome))
  endRunning j.cmd 4 2 [] (logCommit j 4 (s.raise Evt.cfg 2))

/-- An erase, program or read-back of a commit completes (`ok`), or fails; none completes while the boundary cells drive the flash (R497). -/
def flashOpComplete (ok : Bool) (s : State) : State :=
  match s.cfg.commit with
  | none => s
  | some j =>
    let op := s.cfg.currentOp j
    if ok && s.inTest then s
    else if ok then
      let s := { s with cfg := s.cfg.doOp op }
      if j.done + 1 < s.cfg.stepOps j then { s with cfg := { s.cfg with commit := some { j with done := j.done + 1 } } }
      else if j.step < 7 then
        ({ s with cfg := { s.cfg with commit := some { j with step := j.step + 1, done := 0 } } }).wr R.CFG_STAT_STEP (j.step + 1)
      else commitDone j s
    else commitFail j { s with cfg := s.cfg.breakOp op }

def execFlashOpComplete (ok : Bool) : State → Res State := go (flashOpComplete ok)

end Sys2Proof.Machine
end

