-- ==== Sys2Proof/Machine/Firmware.lean ====
section
/-! DEFINITION. How the Keeper firmware takes, checks and answers command packets (R420-R430), and relayed frames (R386, R387). -/

namespace Sys2Proof.Machine

/-! ### Packets (R420-R422) -/

def Cmd.op (c : Cmd) : Nat := leAt c.bytes 0 2
def Cmd.tag (c : Cmd) : Nat := leAt c.bytes 2 2
def Cmd.len (c : Cmd) : Nat := leAt c.bytes 4 2
/-- RSP [0], FORCE [1], NOTE [2] and the reserved bits of word 1. -/
def Cmd.flags (c : Cmd) : Nat := c.bytes.getD 6 0
def Cmd.force (c : Cmd) : Bool := bit c.flags 1
/-- Byte k of the parameters, and the number in n of them from k on. -/
def Cmd.b (c : Cmd) (k : Nat) : Nat := c.bytes.getD (16 + k) 0
def Cmd.num (c : Cmd) (k n : Nat) : Nat := leAt c.bytes (16 + k) n
/-- The parameters. -/
def Cmd.params (c : Cmd) : List Nat := ((c.bytes.drop 16) ++ List.replicate c.len 0).take c.len

/-- Parameter limits by path (R421). -/
def pathLimit : CmdPath → Nat
  | .mbx _ => 48
  | .relay _ => 1008
  | _ => 4096

/-! ### Replies (R423, R429) -/

/-- A packet the firmware sends: `flags` in bits [23:16] of word 1, stamped 0x03. -/
def fwPacket (c : Cmd) (flags status detail len : Nat) (params : List Nat) : List Nat :=
  (c.bytes ++ [0, 0, 0, 0]).take 4 ++ le 2 len ++ [flags + 2 * b01 c.force, 3, status] ++ le 3 detail ++ [0, 0, 0, 0] ++ params

/-- The reply of a command: what exceeds the path's limit is cut, and DETAIL then gives the full length. -/
def Cmd.reply (c : Cmd) (status detail : Nat) (params : List Nat) : List Nat :=
  let n := pathLimit c.path
  if params.length ≤ n then fwPacket c 1 status detail params.length params
  else fwPacket c 1 status (if status = 0 then params.length else detail) n (params.take n)

/-- Whether a command descriptor is still outstanding. -/
def State.descOut (s : State) (q idx : Nat) : Bool := (s.ring q).out.any (fun d => d.idx = idx && d.back.isNone)

/-- Writes a reply on its command's path: into the mailbox with DONE, into the reply buffer with the write-back (R366), or as a RELAY
frame.  A key command's reply leaves no key material in the mailbox (R288). -/
def writeReply (c : Cmd) (status detail : Nat) (params : List Nat) (s : State) : State :=
  let r := c.reply status detail params
  match c.path with
  | .mbx ch =>
    let r := if 0x0710 ≤ c.op ∧ c.op ≤ 0x0713 then (r ++ List.replicate 64 0).take 64 else r
    if s.mbxState ch = 2 then writeMbxCtl ch (.keeper true) 2 (putWords ch r s) else s
  | .ring q idx _ addr len =>
    if s.descOut q idx then
      let cut := r.take len
      let s := if cut = [] then s else s.emit (.dma addr cut)
      finishDesc q idx (fun d => { d with back := some (cmdBack d.tag r.length (if len < r.length then 3 else 1)) }) s
    else s
  | .relay src => sendRelay src r s
  | .lost => s

/-- The command begun is answered, and so over. -/
def answer (c : Cmd) (status detail : Nat) (params : List Nat) (s : State) : State :=
  writeReply c status detail params { s with fw := { s.fw with current := none } }

/-- The command begun goes on: its reply waits (R427), or has been given and its outcome is to come (R428). -/
def hold (c : Cmd) (deferred : Bool) (s : State) : State :=
  { s with fw := { s.fw with
    current := none, nextId := s.fw.nextId + 1
    running := s.fw.running ++ [{ id := s.fw.nextId, cmd := c, deferred := deferred, since := s.clk }] } }

/-! ### Checks (R424, R425) -/

/-- The rights classes. -/
inductive Rights where
  | q | h | s | p | k
deriving DecidableEq, Repr

/-- The class of an opcode of the table; none: BAD_OPCODE (R431, R434). -/
def opRights (op : Nat) : Option Rights :=
  if op % 256 = 0 ∧ op / 256 ≤ 0x0C then some .q
  else if op % 256 = 1 ∧ op / 256 ≤ 0x0C then some .s
  else if op ∈ [0x0010, 0x0011, 0x0012, 0x0112, 0x0210, 0x0410, 0x0411, 0x0611, 0x0720, 0x0722, 0x0810, 0x0B11] then some .q
  else if op ∈ [0x0110, 0x0111, 0x0510, 0x0610, 0x0721, 0x0B10, 0x0C10] then some .s
  else if op ∈ [0x0211, 0x0911, 0x0A10] then some .p
  else if op ∈ [0x0710, 0x0711, 0x0712, 0x0713] then some .k
  else if op = 0x0910 then some .h
  else none

/-- Whether a packet came by MBX11 or the relay queue. -/
def relayPath : CmdPath → Bool
  | .mbx c => c = 11
  | .relay _ => true
  | _ => false

/-- Whether a packet came by MBX8 to MBX10. -/
def keyPath : CmdPath → Bool
  | .mbx c => decide (8 ≤ c) && decide (c ≤ 10)
  | _ => false

/-- Whether a sender on a path holds a class; for a relayed packet RELAY_SEC counts as it stood at its delivery. -/
def Cmd.mayRun (c : Cmd) : Rights → Bool
  | .q => true
  | .h => c.sender = 1 || c.sender = 2
  | .s => c.sender = 2 || (decide (8 ≤ c.sender) && relayPath c.path && c.sec)
  | .p => c.sender = 2
  | .k => c.sender = 2 && keyPath c.path

/-- Whether CMD_LEN differs from 16 + LENGTH. -/
def Cmd.ringLenBad (c : Cmd) : Bool := match c.path with
  | .ring _ _ n _ _ => n ≠ 16 + c.len
  | _ => false

/-- Checks 1 to 4: the status and DETAIL of the first that fails. -/
def Cmd.headFault (c : Cmd) : Option (Nat × Nat) :=
  if pathLimit c.path < c.len ∨ c.ringLenBad = true then some (3, 4)
  else if c.flags ≠ 0 ∧ c.flags ≠ 2 then some (3, 4)
  else if leAt c.bytes 8 4 ≠ 0 then some (3, 8)
  else if leAt c.bytes 12 4 ≠ 0 then some (3, 12)
  else match opRights c.op with
    | none => some (2, 0)
    | some r => if c.mayRun r then none else some (4, 1)

/-- What a command holds while it runs (R425, R427): a bank's step port, a port's service addresses, the keys, a die's responder, a
module's hours, the staging area with the commit, Watch. -/
def Cmd.resource (c : Cmd) : Option (Nat × Nat) :=
  if c.op = 0x0211 then some (1, c.b 0)
  else if c.op = 0x0610 then some (2, c.b 0)
  else if 0x0710 ≤ c.op ∧ c.op ≤ 0x0713 then some (3, 0)
  else if c.op = 0x0721 then some (4, c.b 0)
  else if c.op = 0x0C10 then some (5, c.b 0)
  else if c.op = 0x0110 ∨ c.op = 0x0111 then some (6, 0)
  else if c.op = 0x0B10 then some (7, 0)
  else none

/-- The opcode of the command that holds a command's resource; a key change holds the keys while it waits for its instant (R290). -/
def State.holder (s : State) (c : Cmd) : Option Nat :=
  match c.resource with
  | none => none
  | some r =>
    match s.srv.keyChange, decide (r.1 = 3) with
    | some k, true => some k.op
    | _, _ => (s.fw.running.find? (fun k => !k.answered && k.cmd.resource = some r)).map (·.cmd.op)

/-- The parameters of a reply that ends a command before it acts: none, but every key reply carries the slots (R289). -/
def State.bareReply (s : State) (c : Cmd) : List Nat := if 0x0710 ≤ c.op ∧ c.op ≤ 0x0713 then s.keyReply else []

/-- The byte offset of the first fault of a list of places and faults, the places counted from the parameters. -/
def firstFault : List (Nat × Bool) → Option Nat
  | [] => none
  | (k, bad) :: rest => if bad then some (16 + k) else firstFault rest

/-- Reserved parameter bytes, which must be 0 (R422). -/
def Cmd.reserved (c : Cmd) (k n : Nat) : List (Nat × Bool) := (List.range n).map (fun i => (k + i, decide (c.b (k + i) ≠ 0)))

/-- Checks 5 to 7: the length the opcode states, the fields, the target, the resource; then the command acts.  A wrong LENGTH is named
by its own byte, 4. -/
def checked (c : Cmd) (lenOk : Bool) (fields : List (Nat × Bool)) (absent : Bool) (act : State → State) (s : State) : State :=
  if !lenOk then answer c 3 4 [] s
  else match firstFault fields with
    | some d => answer c 3 d [] s
    | none =>
      if absent then answer c 5 0 [] s
      else match s.holder c with
        | some op => answer c 1 op [] s
        | none => act s

/-- The command begun, where its opcode is the one named. -/
def onCurrent (is : Nat → Bool) (f : Cmd → State → State) (s : State) : State :=
  match s.fw.current with
  | some c => if is c.op then f c s else s
  | none => s

/-- One opcode. -/
def opIs (n : Nat) (op : Nat) : Bool := op = n

/-! ### Taking a command (R414, R415, R427) -/

/-- The function whose mailbox to the firmware a channel is. -/
def senderFn (c : Nat) : Option Nat := if c < 2 then some 0 else if 8 ≤ c ∧ c < 11 then some 1 else none

/-- A command as the firmware reads it: a mailbox holds its packet in the data words. -/
def State.readCmd (s : State) (c : Cmd) : Cmd := match c.path with
  | .mbx ch => { c with bytes := s.mbxPacket ch }
  | _ => c

/-- Whether a queued command is still there to be served. -/
def State.serves (s : State) (c : Cmd) : Bool := match c.path with
  | .mbx ch => s.mbxState ch = 2
  | _ => true

/-- Taking a message may begin a crossing. -/
def crossFor (c : Cmd) (s : State) : State := match c.path with
  | .mbx ch => match senderFn ch with
    | some f => beginCrossing f s
    | none => s
  | _ => s

/-- The firmware begins the next command of its queue, or ends it at the first of checks 1 to 4 that fails. -/
def firmwareTake (s : State) : State :=
  if s.on R.DEV_DIE_STAT_KFW_RUN && s.fw.current.isNone then
    match s.fw.queue with
    | [] => s
    | q :: rest =>
      let s := { s with fw := { s.fw with queue := rest, cycleAt := s.clk } }
      if s.serves q then
        let c := s.readCmd q
        let s := (crossFor q s).count 0x022 0 1
        match c.headFault with
        | some (st, d) => answer c st d (s.bareReply c) s
        | none => { s with fw := { s.fw with current := some c } }
      else s
  else s

def execFirmwareTake : State → Res State := go firmwareTake

/-! ### Deferred outcomes and notifications (R428, R430) -/

/-- A deferred command's entry, with status DEFERRED, among the last 16 of its sender. -/
def keepDeferred (c : Cmd) (detail : Nat) (s : State) : State :=
  let k : Kept := { sender := c.sender, tag := c.tag, opcode := c.op, status := 7, detail := detail }
  let mine := k :: s.fw.kept.filter (fun e => e.sender = c.sender)
  { s with fw := { s.fw with kept := mine.take 16 ++ s.fw.kept.filter (fun e => e.sender ≠ c.sender) } }

/-- A deferred command is started: DEFERRED at once, with the bound in s. -/
def startDeferred (c : Cmd) (bound : Nat) (s : State) : State := writeReply c 7 bound [] (keepDeferred c bound (hold c true s))

/-- The outcome of a deferred command is kept, and notified to a host function. -/
def endDeferred (c : Cmd) (e : Ending) (s : State) : State :=
  let fits (k : Kept) : Bool := k.sender = c.sender && k.tag = c.tag && k.opcode = c.op && k.status = 7
  let kept := s.fw.kept.map (fun k => if fits k then { k with status := e.status, detail := e.detail, time := e.time } else k)
  let held := if c.sender = 1 ∨ c.sender = 2 then
      s.fw.held ++ [{ fn := c.sender - 1, bytes := fwPacket c 5 e.status e.detail 12 (ktBytes e.time) }]
    else s.fw.held
  { s with fw := { s.fw with kept := kept, held := held } }

/-! ### Client State Table entries named by a command (R270, R436) -/

/-- The hash of the client a command names: family, address, port and VIDs. -/
def State.namedHash (s : State) (c : Cmd) : Nat :=
  let src := (c.bytes.drop 20).take (if c.b 1 = 6 then 16 else 4)
  Config.cstHash ([s.srv.hashDraw, c.b 1] ++ src ++ [c.num 20 2, c.num 22 2, c.num 24 2]) % 2 ^ 48

/-- The live entry of that client. -/
def State.namedEntry (s : State) (c : Cmd) : Option Nat :=
  let h := s.namedHash c
  (ways (c.b 0) (h % 2 ^ 18) ++ ways (c.b 0) (h / 2 ^ 18 % 2 ^ 18)).find? (fun i => s.cstLive (c.b 0) i && (s.cst i).key = h)

/-- A waiting removal acts once no response to the entry waits to commit. -/
def removeWhenFree (r : Running) (s : State) : State :=
  match s.namedEntry r.cmd with
  | none => endRunning r.id 0 0 [] s
  | some i =>
    if s.cstWaited (r.cmd.b 0) i then s else endRunning r.id 0 0 [] (ntpStat (r.cmd.b 0) 7 (s.setCst i {}))

/-! ### Completion (R427, R435) -/

/-- The words of some registers, without side effects. -/
def State.wordsAt (s : State) (as : List Nat) : List Nat := as.flatMap (fun a => le 4 (s.peek a))

/-- Ends a waiting command whose device action shows that it is over: a step by DONE or DENIED, an hours write by DONE, a removal. -/
def settleCmd (r : Running) (s : State) : State :=
  let p := r.cmd.b 0
  if r.ending.isSome then s
  else if r.cmd.op = 0x0211 then
    if s.on (R.TSC_STEP_CTL_DENIED p) then endRunning r.id 4 2 [] s
    else if s.on (R.TSC_STEP_CTL_DONE p) then endRunning r.id 0 0 (ktBytes (s.tick.bank (bankAt p)).stepRead) s
    else s
  else if r.cmd.op = 0x0C10 then
    if s.on (R.RFM_HOURS_CMD_DONE p) then endRunning r.id 0 0 (s.wordsAt [(Reg.RFM_HOURS p).addr, (Reg.RFM_USE p).addr]) s else s
  else if r.cmd.op = 0x0721 then removeWhenFree r s
  else s

/-- A running command by its number. -/
def State.runningAt (s : State) (id : Nat) : Option Running := s.fw.running.find? (fun r => r.id = id)

/-- A running command is over. -/
def dropRunning (id : Nat) (s : State) : State := { s with fw := { s.fw with running := s.fw.running.filter (fun r => r.id ≠ id) } }

/-- Its reply, or its outcome, once the device's part is over. -/
def concludeRunning (id : Nat) (s : State) : State :=
  match s.runningAt id with
  | none => s
  | some r => match r.ending with
    | none => s
    | some e =>
      let s := dropRunning id s
      if r.answered then s else if r.deferred then endDeferred r.cmd e s else writeReply r.cmd e.status e.detail e.params s

/-- A waiting or deferred command's action finishes. -/
def commandComplete (id : Nat) (s : State) : State :=
  match s.runningAt id with
  | none => s
  | some r => concludeRunning id (settleCmd r s)

def execCommandComplete (id : Nat) : State → Res State := go (commandComplete id)

/-- A waiting command that is not complete after 100 ms ends with TIMEOUT, a removal still going on in its die; one whose end the device shows by
then is complete (R435). -/
def commandTimeout (id : Nat) (s : State) : State :=
  match s.runningAt id with
  | none => s
  | some r =>
    if r.deferred || r.answered || r.ending.isSome then s
    else
      let s := settleCmd r (s.waitClk (r.since + ms16 100))
      match (s.runningAt id).bind (·.ending) with
      | some _ => concludeRunning id s
      | none =>
        let s := if r.cmd.op = 0x0721 then
            { s with fw := { s.fw with running := s.fw.running.map (fun k => if k.id = id then { k with answered := true } else k) } }
          else dropRunning id s
        writeReply r.cmd 6 0 (s.bareReply r.cmd) s

def execCommandTimeout (id : Nat) : State → Res State := go (commandTimeout id)

/-! ### Relayed frames (R386-R388, R410) -/

/-- A reply from another package ends the oldest RELAY that asked for it. -/
def relayReply (src : Nat) (pkt : List Nat) (s : State) : State :=
  match s.fw.running.find? (fun r => r.cmd.op = 0x0910 && r.ending.isNone && r.cmd.b 0 = src
      && leAt r.cmd.bytes 20 4 = leAt pkt 0 4) with
  | some r => endRunning r.id 0 0 pkt s
  | none => s

/-- A RELAY frame for this package: a reply, or a command for the relay agent, stamped with its source. -/
def relayArrives (src : Nat) (pkt : List Nat) (s : State) : State :=
  if bit (pkt.getD 6 0) 0 then relayReply src pkt s
  else if 8 ≤ s.stack.relayQ.length then s
  else agentRun (s.modStack (fun k => { k with relayQ := k.relayQ ++ [(src, pkt)] }))

/-- A RELAY frame received on a link with its FCS good. -/
def relayFrameRx (l : Nat) (f : List Nat) (s : State) : State :=
  if !s.morUp l then s
  else if morShort f then mooringFrameErr l s
  else
  let s := s.wr (R.MOR_LINK_STAT_PEER l) (morSrc f)
  if morDst f = s.stackAddr ∧ s.stackAddr ≠ 0 then relayArrives (morSrc f) (morPayload f) s
  else if morHops f ≤ 1 then s.raise Evt.mor 512
  else if s.morUp (1 - l) then
    s.emit (.mooring (1 - l) (morFrame 2 (morSrc f) (morDst f) (morHops f - 1) (leAt f 4 2) (morPayload f)))
  else s

def execRelayFrameRx (l : Fin 2) (f : List Byte) : State → Res State := go (relayFrameRx l.val (natBytes f))

/-- A RELAY gets no reply within RELAY_TO; 0 is treated as 1. -/
def relayTimeout (id : Nat) (s : State) : State :=
  match s.runningAt id with
  | none => s
  | some r =>
    if r.cmd.op = 0x0910 ∧ r.ending = none then
      endRunning id 6 0 [] (s.waitClk (r.since + ms16 (max 1 (s.rd R.MOR_RELAY_CFG_RELAY_TO))))
    else s

def execRelayTimeout (id : Nat) : State → Res State := go (relayTimeout id)

end Sys2Proof.Machine
end

