-- ==== Sys2Proof/Machine/Commands.lean ====
section
/-! DEFINITION. The opcodes of command packets (R431-R437, R289, R386, R396, R458): checks 5 to 7, the effect, the reply. -/

namespace Sys2Proof.Machine

/-! ### Parameters -/

/-- Whether a die's lane is OFF (R425, check 6). -/
def State.dieOff (s : State) (d : Nat) : Bool := s.rd (R.TSC_LANE_STAT_STATE d) = 0

/-- A byte of the parameters that must lie below a bound. -/
def Cmd.below (c : Cmd) (k n : Nat) : Nat × Bool := (k, decide (n ≤ c.b k))
/-- A field of n bytes that must lie within a range. -/
def Cmd.inside (c : Cmd) (k n lo hi : Nat) : Nat × Bool := (k, decide (c.num k n < lo) || decide (hi < c.num k n))

/-! ### Register access (R432, R433) -/

/-- The addresses a REG_READ names. -/
def Cmd.addrs (c : Cmd) : List Nat := (List.range (c.num 4 2)).map (fun k => c.num 0 4 + 4 * k)

/-- Reads in address order, each as a PF1 read. -/
def readAll : List Nat → List Nat → State → List Nat × State
  | [], acc, s => (acc, s)
  | a :: as, acc, s => let r := busRead 1 a s
                       readAll as (acc ++ le 4 r.1) r.2

/-- REG_READ. -/
def regRead (c : Cmd) (s : State) : State :=
  let b := c.op / 256
  let ok (a : Nat) : Bool := a % 4 = 0 && inRanges b a
  let count := c.num 4 2
  let span := decide (count < 1) || decide (1024 < count) || !c.addrs.all ok
  checked c (c.len = 8) ([(0, !ok (c.num 0 4)), (4, span)] ++ c.reserved 6 2) (c.addrs.any s.windowOff)
    (fun s =>
      if c.sender = 2 then
        let r := readAll c.addrs [] s
        answer c 0 0 r.1 r.2
      else
        let s := c.addrs.foldl (fun s a => settleFor a s) s
        answer c 0 0 (s.wordsAt c.addrs) s) s

def execRegRead : State → Res State := go (onCurrent (fun op => op % 256 = 0 && decide (op / 256 ≤ 12)) regRead)

/-- The pairs of a REG_WRITE. -/
def Cmd.pairs (c : Cmd) : List (Nat × Nat) := (List.range (c.len / 8)).map (fun k => (c.num (8 * k) 4, c.num (8 * k + 4) 4))

/-- Whether a pair sets GO of a step port. -/
def stepPair (p : Nat × Nat) : Bool := decide (p.1 = 0x10058 ∨ p.1 = 0x10158) && bit p.2 0

/-- Writes pairs in order, until one begins a reset that ends the command (R429, R447). -/
def writePairs (sender : Nat) : List (Nat × Nat) → State → State
  | [], s => s
  | p :: ps, s => if s.fw.current.isNone then s else writePairs sender ps (busWrite sender p.1 p.2 s)

/-- REG_WRITE: every pair is checked before the first is written. -/
def regWrite (c : Cmd) (s : State) : State :=
  let b := c.op / 256
  let faults := (c.pairs.zipIdx).map (fun e => (8 * e.2, e.1.1 % 4 ≠ 0 || !inRanges b e.1.1))
  checked c (decide (8 ≤ c.len) && decide (c.len ≤ 4096) && c.len % 8 = 0) faults (c.pairs.any (fun p => s.windowOff p.1))
    (fun s =>
      if c.sender ≠ 2 ∧ c.pairs.any stepPair = true then answer c 4 1 [] s
      else
        let s := writePairs c.sender c.pairs s
        if s.fw.current.isNone then s else answer c 0 0 (s.wordsAt (c.pairs.map (·.1))) s) s

def execRegWrite : State → Res State := go (onCurrent (fun op => op % 256 = 1 && decide (op / 256 ≤ 12)) regWrite)

/-! ### Identity and outcomes (R428, R434) -/

/-- NOP echoes its parameters. -/
def nopCmd (c : Cmd) : State → State := checked c (decide (c.len ≤ 4096)) [] false (answer c 0 0 c.params)

def execNop : State → Res State := go (onCurrent (opIs 0x0010) nopCmd)

/-- The firmware's version, with the image's patch. -/
def State.version (s : State) : Nat := Config.firmwareVersion ((s.cfg.image.bind (·.patch)).getD []) % 2 ^ 32

def ident (c : Cmd) : State → State :=
  checked c (c.len = 0) [] false (fun s =>
    answer c 0 0 (s.wordsAt [Reg.DEV_IDENT.addr, Reg.DEV_UID_LO.addr, Reg.DEV_UID_HI.addr, Reg.DEV_DIE_STAT.addr] ++ le 4 s.version
      ++ s.wordsAt [Reg.MOR_STAT.addr]) s)

def execIdent : State → Res State := go (onCurrent (opIs 0x0011) ident)

/-- The outcome kept for a tag and opcode of the sender's. -/
def State.keptFor (s : State) (c : Cmd) : Option Kept :=
  s.fw.kept.find? (fun k => k.sender = c.sender && k.tag = c.num 0 2 && k.opcode = c.num 2 2)

def result (c : Cmd) (s : State) : State :=
  checked c (c.len = 4) [] (s.keptFor c).isNone (fun s =>
    match s.keptFor c with
    | some k => answer c 0 0 ([k.status, 0, 0, 0] ++ le 4 k.detail ++ ktBytes k.time) s
    | none => s) s

def execResult : State → Res State := go (onCurrent (opIs 0x0012) result)

/-! ### Configuration (R434, R435, R458) -/

/-- CFG_STAGE writes into the staging area. -/
def cfgStage (c : Cmd) : State → State :=
  let n := c.len - 4
  checked c (decide (5 ≤ c.len) && decide (c.len ≤ 4096)) [(0, decide (imageMax < c.num 0 4 + n))] false (fun s =>
    let bs := (c.params.drop 4).zipIdx
    answer c 0 0 [] { s with cfg := { s.cfg with
      staging := bs.foldl (fun m e => IMap.put 0 m (c.num 0 4 + e.2) e.1) s.cfg.staging } })

def execCfgStage : State → Res State := go (onCurrent (opIs 0x0110) cfgStage)

/-- ERR of a staged image that may not be committed; 0: it may. -/
def State.stagedErr (s : State) : Nat :=
  let h := s.cfg.stagedBytes 0 64
  if s.on R.CFG_STAT_NO_SFDP then 9
  else
    let r := checkImage h (s.cfg.stagedBytes 64 (min bodyMax (hdrLength h)))
    if r.1 ≠ 0 then r.1 else if r.2.pairs.any (fun p => pairForbidden p.1) then 4 else 0

/-- The commit begins with step 1: its target is no valid image from then on. -/
def beginCommit (c : Cmd) (s : State) : State :=
  let valid := s.on R.CFG_STAT_ACTIVE_VALID
  let j : CommitJob :=
    { len := hdrLength (s.cfg.stagedBytes 0 64), slot := if valid then 1 - s.rd R.CFG_STAT_ACTIVE_SLOT else 0
      seq := if valid then (s.rd R.CFG_SEQ_SEQ + 1) % 2 ^ 32 else 1, cmd := s.fw.nextId, sender := c.sender }
  let s := ((s.hi R.CFG_STAT_COMMIT_BUSY).wr R.CFG_STAT_STEP 1).lo R.CFG_STAT_OTHER_VALID
  startDeferred c 10 { s with cfg := { s.cfg with commit := some j } }

/-- CFG_COMMIT. -/
def cfgCommit (c : Cmd) : State → State :=
  checked c (c.len = 4) [] false (fun s =>
    if c.num 0 4 ≠ 64 + hdrLength (s.cfg.stagedBytes 0 64) then answer c 3 16 [] s
    else
      let e := s.stagedErr
      if e ≠ 0 then answer c 4 2 [] (s.wr R.CFG_STAT_ERR e) else beginCommit c s)

def execCfgCommit : State → Res State := go (onCurrent (opIs 0x0111) cfgCommit)

/-- CFG_READ. -/
def cfgRead (c : Cmd) : State → State :=
  let n := c.num 8 2
  checked c (c.len = 12)
    ([c.below 0 2] ++ c.reserved 1 3 ++ [(4, decide (0x1000000 < c.num 4 4 + n)), c.inside 8 2 1 4096] ++ c.reserved 10 2) false
    (fun s => answer c 0 0 (s.cfg.flashBytes (slotBase (c.b 0) + c.num 4 4) n) s)

def execCfgRead : State → Res State := go (onCurrent (opIs 0x0112) cfgRead)

/-! ### Time (R434, R435) -/

/-- TIME_GET: one latch of its own. -/
def timeGet (c : Cmd) : State → State :=
  checked c (c.len = 0) [] false (fun s =>
    answer c 0 0 (ktBytes s.ts0 ++ ktBytes s.ts1 ++ le 8 (ofSigned 64 (satSigned 48 s.tsDiff))
      ++ s.wordsAt [Reg.TSC_STAT.addr, Reg.TSC_UTC_OFS.addr, Reg.ENS_STAT.addr, Reg.ENS_ERR.addr]) s)

def execTimeGet : State → Res State := go (onCurrent (opIs 0x0210) timeGet)

/-- STEP: the step registers, then GO with the command's stamp, with DONE and DENIED cleared by the same write; a GO denied at once ends it. -/
def stepCmd (c : Cmd) : State → State :=
  let b := c.b 0
  checked c (c.len = 16) ([c.below 0 2, c.below 1 2, c.below 2 2] ++ c.reserved 3 1 ++ [(9, decide (64 ≤ c.b 9))]) false (fun s =>
    let s := busWrite c.sender (Reg.TSC_STEP_FRAC b).addr (c.num 4 2) s
    let s := busWrite c.sender (Reg.TSC_STEP_NS b).addr (c.num 6 4) s
    let s := busWrite c.sender (Reg.TSC_STEP_SEC_LO b).addr (c.num 10 4) s
    let s := busWrite c.sender (Reg.TSC_STEP_SEC_HI b).addr (c.num 14 2) s
    let r : Running := { id := s.fw.nextId, cmd := c }
    settleCmd r (hold c false (busWrite c.sender (Reg.TSC_STEP_CTL b).addr (1 + 2 * c.b 1 + 4 * c.b 2 + 48) s)))

def execStep : State → Res State := go (onCurrent (opIs 0x0211) stepCmd)

/-! ### Receiver and interval block (R434, R437) -/

/-- SOL_GET. -/
def solGet (c : Cmd) : State → State :=
  checked c (c.len = 4) ([c.below 0 2] ++ c.reserved 1 3) false (fun s => answer c 0 0 ((s.solWords (c.b 0)).flatMap (le 4)) s)

def execSolGet : State → Res State := go (onCurrent (opIs 0x0410) solGet)

/-- The newest record of a system, signal and SVID. -/
def State.newestNav (s : State) (c : Cmd) : List Nat := IMap.get [] s.gnss.navLast (c.b 1 * 1024 + c.b 0 * 256 + c.b 2)

/-- NAV_GET. -/
def navGet (c : Cmd) (s : State) : State :=
  checked c (c.len = 4) ([c.below 0 4, c.below 1 6, c.inside 2 1 1 202] ++ c.reserved 3 1) (s.newestNav c).isEmpty
    (fun s => answer c 0 0 (s.newestNav c) s) s

def execNavGet : State → Res State := go (onCurrent (opIs 0x0411) navGet)

/-- Bytes of reply parameters that reach the sender. -/
def replyRoom : CmdPath → Nat
  | .ring _ _ _ _ n => min 4096 (n - 16)
  | p => pathLimit p

/-- A record of a group ring; a slot nothing has been written to reads 0. -/
def State.ringRecord (s : State) (g k : Nat) : List Nat :=
  ((IMap.get [] s.tim.rings (g * timRing + k % timRing)) ++ List.replicate 32 0).take 32

/-- TIM_RECORDS takes what its reply has room for. -/
def timRecords (c : Cmd) : State → State :=
  let g := c.b 0
  checked c (c.len = 4) ([c.below 0 8, c.inside 1 1 1 128] ++ c.reserved 2 2) false (fun s =>
    let rd := s.rd (R.TIM_GRP_RD_RD g)
    let n := min (min (c.b 1) (replyRoom c.path / 32)) ((s.rd (R.TIM_GRP_WR_WR g) + timRing - rd) % timRing)
    answer c 0 0 ((List.range n).flatMap (fun k => s.ringRecord g (rd + k))) (s.wr (R.TIM_GRP_RD_RD g) ((rd + n) % timRing)))

def execTimRecords : State → Res State := go (onCurrent (opIs 0x0510) timRecords)

/-! ### Service addresses (R250, R251, R435) -/

/-- SVC_SET: the staging registers, then WRITE; it is over when BUSY clears. -/
def svcSet (c : Cmd) (s : State) : State :=
  let p := c.b 0
  checked c (c.len = 28) ([c.below 0 32, c.below 1 128] ++ c.reserved 2 2) (s.dieOff (p / 8)) (fun s =>
    let s := [0, 1, 2, 3, 4, 5].foldl (fun s k => busWrite c.sender ((Reg.MAC_SVC_DATA0 p).addr + 4 * k) (c.num (4 + 4 * k) 4) s) s
    let s := busWrite c.sender (Reg.MAC_SVC_CMD p).addr (c.b 1 + 256 + 1024) s
    let id := s.fw.nextId
    let refused := s.on (R.MAC_SVC_CMD_REFUSED p)
    endRunning id (if refused then 4 else 0) (if refused then 2 else 0) [] (hold c false s)) s

def execSvcSet : State → Res State := go (onCurrent (opIs 0x0610) svcSet)

/-- SVC_GET. -/
def svcGet (c : Cmd) (s : State) : State :=
  let p := c.b 0
  checked c (c.len = 4) ([c.below 0 32, c.below 1 128] ++ c.reserved 2 2) (s.dieOff (p / 8)) (fun s =>
    answer c 0 0 ([0, 1, 2, 3, 4, 5].flatMap (fun k => le 4 (svcWord (s.svc p (c.b 1)) k))) s) s

def execSvcGet : State → Res State := go (onCurrent (opIs 0x0611) svcGet)

/-! ### Master keys (R289, R290) -/

/-- Checks 5 and 7 of a key command; a refusal carries the key reply too. -/
def keyChecked (c : Cmd) (n : Nat) (fields : List (Nat × Bool)) (act : State → State) (s : State) : State :=
  if c.len ≠ n then answer c 3 4 s.keyReply s
  else match firstFault fields with
    | some d => answer c 3 d s.keyReply s
    | none => match s.holder c with
      | some op => answer c 1 op s.keyReply s
      | none => act s

/-- A key change is delivered to the dies, and waits for its instant. -/
def startKeyChange (c : Cmd) (k : KeyChange) (s : State) : State :=
  let s := { s with srv := { s.srv with keyChange := some { k with op := c.op, slot := c.b 0, ready := s.clk + us16 100 } } }
  hold c false ((dies.filter (fun d => !s.dieOff d)).foldl (fun s d => s.hi (R.NTS_STAT_KEY_PEND d)) s)

/-- A key command that changes nothing. -/
def keyNoChange (c : Cmd) (s : State) : State :=
  let id := s.fw.nextId
  endRunning id 0 0 s.keyReply (hold c false s)

/-- KEY_LOAD. -/
def keyLoad (c : Cmd) (s : State) : State :=
  let k := c.b 0
  let id := beAt c.bytes 20 4
  let taken := keySlots.any (fun j => j ≠ k && (s.keySlot j).1 ≠ 0 && (s.keySlot j).2.1 = id)
  keyChecked c 40 ([(0, decide (4 ≤ k) || (s.keySlot k).1 ≠ 0)] ++ c.reserved 1 3 ++ [(4, id = 0 || taken)])
    (startKeyChange c { id := id, key := (c.params.drop 8).take 32 }) s

def execKeyLoad : State → Res State := go (onCurrent (opIs 0x0710) keyLoad)

/-- KEY_PROMOTE. -/
def keyPromote (c : Cmd) (s : State) : State :=
  let k := c.b 0
  keyChecked c 4 ([(0, decide (4 ≤ k) || (s.keySlot k).1 = 0)] ++ c.reserved 1 3)
    (fun s => if (s.keySlot k).1 = 2 then keyNoChange c s else startKeyChange c {} s) s

def execKeyPromote : State → Res State := go (onCurrent (opIs 0x0711) keyPromote)

/-- KEY_RETIRE. -/
def keyRetire (c : Cmd) (s : State) : State :=
  let k := c.b 0
  keyChecked c 4 ([(0, decide (4 ≤ k) || (s.keySlot k).1 = 0)] ++ c.reserved 1 3)
    (fun s => if (s.keySlot k).1 = 2 then answer c 4 2 s.keyReply s else startKeyChange c {} s) s

def execKeyRetire : State → Res State := go (onCurrent (opIs 0x0712) keyRetire)

/-- KEY_STATUS. -/
def keyStatus (c : Cmd) : State → State := keyChecked c 0 [] (keyNoChange c)

def execKeyStatus : State → Res State := go (onCurrent (opIs 0x0713) keyStatus)

/-- The instant of a key change: it takes effect on the dies, and its command is over. -/
def keyChangeEffect (s : State) : State :=
  match s.srv.keyChange with
  | none => s
  | some k =>
    let s := keyChangeNow k (waitKeyInstant k.ready s)
    (s.fw.running.filter (fun r => r.cmd.op = k.op)).foldl (fun s r => endRunning r.id 0 0 s.keyReply s) s

def execKeyChangeEffect : State → Res State := go keyChangeEffect

/-! ### Client State Table and grants (R269, R336, R435, R436) -/

/-- The 24 bytes of an entry. -/
def CstEntry.bytes (e : CstEntry) : List Nat :=
  le 6 e.key ++ le 4 e.org ++ le 8 e.txPrev ++ le 2 e.tUpd ++ le 2 e.tokens
    ++ le 2 (e.last * 16 + b01 e.valid * 8 + e.gen * 4 + b01 e.ilv * 2 + b01 e.kod)

/-- The fields of CST_LOOKUP and CST_REMOVE. -/
def Cmd.cstFields (c : Cmd) : List (Nat × Bool) :=
  [c.below 0 4, (1, c.b 1 ≠ 4 && c.b 1 ≠ 6)] ++ c.reserved 2 2 ++ [c.inside 22 2 0 4095, c.inside 24 2 0 4095] ++ c.reserved 26 2

/-- CST_LOOKUP. -/
def cstLookup (c : Cmd) (s : State) : State :=
  checked c (c.len = 28) c.cstFields (s.dieOff (c.b 0) || (s.namedEntry c).isNone) (fun s =>
    match s.namedEntry c with
    | some i => answer c 0 0 ((s.cst i).bytes ++ le 4 (i % 2097152 / 8)) s
    | none => s) s

def execCstLookup : State → Res State := go (onCurrent (opIs 0x0720) cstLookup)

/-- CST_REMOVE: at once, or after the commit of a waiting response. -/
def cstRemove (c : Cmd) (s : State) : State :=
  checked c (c.len = 28) c.cstFields (s.dieOff (c.b 0) || (s.namedEntry c).isNone) (fun s =>
    let r : Running := { id := s.fw.nextId, cmd := c }
    removeWhenFree r (hold c false s)) s

def execCstRemove : State → Res State := go (onCurrent (opIs 0x0721) cstRemove)

/-- CST_DUMP, buckets modulo 262,144. -/
def cstDump (c : Cmd) (s : State) : State :=
  let n := c.num 8 2
  checked c (c.len = 12) ([c.below 0 4] ++ c.reserved 1 3 ++ [c.inside 8 2 1 21] ++ c.reserved 10 2) (s.dieOff (c.b 0)) (fun s =>
    answer c 0 0 ((List.range n).flatMap (fun k =>
      (ways (c.b 0) ((c.num 4 4 + k) % 262144)).flatMap (fun i => (s.cst i).bytes))) s) s

def execCstDump : State → Res State := go (onCurrent (opIs 0x0722) cstDump)

/-- The 64 bytes of a grant; a tag word is TPID and VID. -/
def Grant.bytes (g : Grant) : List Nat :=
  if g.valid = false then List.replicate 64 0
  else
    let vid (k : Nat) : Nat := if g.tags.length = 2 then g.tags.getD k 0 % 4096 else if k = 0 then g.tags.getD 0 0 % 4096 else 0
    let outer88 := b01 (decide (g.tags.length = 2 ∧ g.tags.getD 0 0 / 65536 = 0x88A8))
    be 8 g.clkId ++ be 2 g.portNum ++ [g.msg, ofSigned 8 g.logPeriod, 1 + 2 * g.family + 8 * (g.inst % 4) + 32 * g.port,
      g.tags.length + 4 * outer88]
      ++ le 2 (vid 0) ++ le 2 (vid 1) ++ (g.addr ++ List.replicate 16 0).take 16 ++ le 4 g.duration ++ le 4 g.expiry ++ le 2 g.seq
      ++ le 2 g.tokens ++ le 2 (g.tUpd % 65536) ++ List.replicate 16 0

/-- GRANT_READ. -/
def grantRead (c : Cmd) (s : State) : State :=
  let first := c.num 2 2
  let n := c.num 4 2
  checked c (c.len = 8) ([c.below 0 4] ++ c.reserved 1 1 ++ [c.inside 4 2 1 64] ++ c.reserved 6 2)
    (s.dieOff (c.b 0) || decide (16384 < first + n)) (fun s =>
      answer c 0 0 ((List.range n).flatMap (fun k => (s.grant (c.b 0 * 16384 + first + k)).bytes)) s) s

def execGrantRead : State → Res State := go (onCurrent (opIs 0x0810) grantRead)

/-! ### Stacking (R386, R396) -/

/-- RELAY: the inner packet leaves; a path to an address that is held is needed. -/
def relayCmd (c : Cmd) (s : State) : State :=
  let d := c.b 0
  checked c (decide (20 ≤ c.len) && decide (c.len ≤ 1028)) ([(0, d = 0 || decide (8 < d) || d = s.stackAddr)] ++ c.reserved 1 3)
    ((s.relayLink d).isNone || !s.on (R.TND_NODE_INFO_PRESENT (d - 1)))
    (fun s => hold c false (sendRelay d (c.params.drop 4) s)) s

def execRelay : State → Res State := go (onCurrent (opIs 0x0910) relayCmd)

/-- HANDOVER: the master sends it to a TRACKING target. -/
def handoverCmd (c : Cmd) : State → State :=
  let t := c.b 0
  checked c (c.len = 4) ([c.inside 0 1 1 8] ++ c.reserved 1 3) false (fun s =>
    if s.isMaster && t ≠ s.stackAddr && IMap.get none s.stack.engines t = some 2 then
      answer c 0 0 [] ((sendTnd 0xFF 6 [t] s).modStack (fun k => { k with handover := some (t, s.clk) }))
    else answer c 4 2 [] s)

def execHandover : State → Res State := go (onCurrent (opIs 0x0911) handoverCmd)

/-! ### Reset, Watch, log, hours (R435, R476) -/

/-- RESET: the reply, and the reset 1 ms after it. -/
def resetCommand (c : Cmd) (s : State) : State :=
  let k := c.b 0
  checked c (c.len = 4) ([c.inside 0 1 1 7] ++ c.reserved 1 3) (decide (4 ≤ k) && s.dieOff (k - 4)) (fun s =>
    let s := answer c 0 0 [] s
    { s with rst := { s.rst with requests := s.rst.requests ++ ((resetKind k).map (fun v => (v, c.sender, s.clk + ms16 1))).toList } }) s

def execResetCmd : State → Res State := go (onCurrent (opIs 0x0A10) resetCommand)

/-- The tests of a mask that would disturb service now. -/
def State.disturbing (s : State) (mask : Nat) : Nat := (maskTests mask).foldl (fun a t => if s.disturbs t then a + 2 ^ t else a) 0

/-- WATCH_RUN: any run in progress holds Watch; without FORCE no test may disturb. -/
def watchRun (c : Cmd) : State → State :=
  checked c (c.len = 8) ([c.inside 0 4 1 255] ++ c.reserved 4 4) false (fun s =>
    if s.watch.run.isSome then answer c 1 0x0B10 [] s
    else
      let m := s.disturbing (c.num 0 4)
      if !c.force && m ≠ 0 then answer c 1 m [] s
      else
        let id := s.fw.nextId
        advanceRun runSteps (startRun (c.num 0 4) false c.force (some id) c.sender (startDeferred c 600 s)))

def execWatchRun : State → Res State := go (onCurrent (opIs 0x0B10) watchRun)

/-- The first record kept at or after a number, and how many follow. -/
def State.logFrom (s : State) (seq : Nat) : Nat × Nat :=
  let first := s.rd R.LOG_FIRST_SEQ
  let n := (s.rd R.LOG_NEXT_SEQ + 2 ^ 32 - first) % 2 ^ 32
  let d := (seq + 2 ^ 32 - first) % 2 ^ 32
  if d < n then (seq, n - d) else if 2 ^ 31 ≤ d then (first, n) else (seq, 0)

/-- LOG_READ. -/
def logRead (c : Cmd) : State → State :=
  checked c (c.len = 8) ([c.inside 4 2 1 128] ++ c.reserved 6 2) false (fun s =>
    let r := s.logFrom (c.num 0 4)
    answer c 0 0 ((List.range (min (c.num 4 2) r.2)).flatMap (fun k => s.logSlot ((r.1 + k) % 2 ^ 32 % logSize))) s)

def execLogRead : State → Res State := go (onCurrent (opIs 0x0B11) logRead)

/-- HOURS_SET: the value, then GO with DONE and REFUSED cleared by the same write. -/
def hoursCmd (c : Cmd) (s : State) : State :=
  let p := c.b 0
  checked c (c.len = 8) ([c.below 0 2] ++ c.reserved 1 3) (s.rfmState p = .empty) (fun s =>
    let s := busWrite c.sender (Reg.RFM_HOURS_SET p).addr (c.num 4 4) s
    let s := busWrite c.sender (Reg.RFM_HOURS_CMD p).addr 7 s
    if s.on (R.RFM_HOURS_CMD_REFUSED p) then answer c 4 2 [] s else hold c false s) s

def execHoursSet : State → Res State := go (onCurrent (opIs 0x0C10) hoursCmd)

end Sys2Proof.Machine
end

