-- ==== Sys2Proof/Machine/Dispatch.lean ====
section
/-! DEFINITION. One arm per command or event of spec/opcode_table.json, in the table's order. -/

namespace Sys2Proof.Machine

def exec (i : Instr) (s : State) : Host.Outcome State Fault Refusal :=
  match i with
  | .epochMarker => Sys2Proof.Machine.execEpochMarker s
  | .lanePulseRx n sub => Sys2Proof.Machine.execLanePulseRx n sub s
  | .lanePulseMiss n => Sys2Proof.Machine.execLanePulseMiss n s
  | .laneReturn n dc bin => Sys2Proof.Machine.execLaneReturn n dc bin s
  | .laneLock n => Sys2Proof.Machine.execLaneLock n s
  | .coastLimit n => Sys2Proof.Machine.execCoastLimit n s
  | .incrApply b src w => Sys2Proof.Machine.execIncrApply b src w s
  | .slewGo b src w => Sys2Proof.Machine.execSlewGo b src w s
  | .slewAbort b w => Sys2Proof.Machine.execSlewAbort b w s
  | .slewDone b => Sys2Proof.Machine.execSlewDone b s
  | .stepGo b src w => Sys2Proof.Machine.execStepGo b src w s
  | .stepApply b => Sys2Proof.Machine.execStepApply b s
  | .snapTake w => Sys2Proof.Machine.execSnapTake w s
  | .snapLatch => Sys2Proof.Machine.execSnapLatch s
  | .switchGo w => Sys2Proof.Machine.execSwitchGo w s
  | .switchDone => Sys2Proof.Machine.execSwitchDone s
  | .ts1Enable w => Sys2Proof.Machine.execTs1Enable w s
  | .ownershipChange w => Sys2Proof.Machine.execOwnershipChange w s
  | .utcOfsWrite w => Sys2Proof.Machine.execUtcOfsWrite w s
  | .leapArm w => Sys2Proof.Machine.execLeapArm w s
  | .leapCancel w => Sys2Proof.Machine.execLeapCancel w s
  | .leapWarn => Sys2Proof.Machine.execLeapWarn s
  | .leapSecondStart => Sys2Proof.Machine.execLeapSecondStart s
  | .leapOfsChange => Sys2Proof.Machine.execLeapOfsChange s
  | .smearStart => Sys2Proof.Machine.execSmearStart s
  | .smearEnd => Sys2Proof.Machine.execSmearEnd s
  | .filterStep temp => Sys2Proof.Machine.execFilterStep temp s
  | .sourceSample ix t x dly => Sys2Proof.Machine.execSourceSample ix t x dly s
  | .slotLoss ix => Sys2Proof.Machine.execSlotLoss ix s
  | .slotQualify ix => Sys2Proof.Machine.execSlotQualify ix s
  | .slotConsistent ix => Sys2Proof.Machine.execSlotConsistent ix s
  | .carryExpire ix => Sys2Proof.Machine.execCarryExpire ix s
  | .reestComplete ix => Sys2Proof.Machine.execReestComplete ix s
  | .slotEnable ix w => Sys2Proof.Machine.execSlotEnable ix w s
  | .slotMove ix w => Sys2Proof.Machine.execSlotMove ix w s
  | .slotRelease ix => Sys2Proof.Machine.execSlotRelease ix s
  | .slotQuarantine ix => Sys2Proof.Machine.execSlotQuarantine ix s
  | .clrAsym ix => Sys2Proof.Machine.execClrAsym ix s
  | .relearn ix => Sys2Proof.Machine.execRelearn ix s
  | .decideGo w => Sys2Proof.Machine.execDecideGo w s
  | .anchorSelect w => Sys2Proof.Machine.execAnchorSelect w s
  | .anchorHold => Sys2Proof.Machine.execAnchorHold s
  | .anchorReturn => Sys2Proof.Machine.execAnchorReturn s
  | .driftRecord => Sys2Proof.Machine.execDriftRecord s
  | .gnssEpoch n dc bin floor samples meas => Sys2Proof.Machine.execGnssEpoch n dc bin floor samples meas s
  | .gnssPortFault n => Sys2Proof.Machine.execGnssPortFault n s
  | .gnssPortRecover n => Sys2Proof.Machine.execGnssPortRecover n s
  | .channelAssign c sig => Sys2Proof.Machine.execChannelAssign c sig s
  | .detection c cn0 dop code => Sys2Proof.Machine.execDetection c cn0 dop code s
  | .searchPassEnd c => Sys2Proof.Machine.execSearchPassEnd c s
  | .pullInLock c cn0 dop code low => Sys2Proof.Machine.execPullInLock c cn0 dop code low s
  | .pullInTimeout c => Sys2Proof.Machine.execPullInTimeout c s
  | .navSync c => Sys2Proof.Machine.execNavSync c s
  | .channelLost c => Sys2Proof.Machine.execChannelLost c s
  | .reacquire c => Sys2Proof.Machine.execReacquire c s
  | .lostTimeout c => Sys2Proof.Machine.execLostTimeout c s
  | .channelPin c w => Sys2Proof.Machine.execChannelPin c w s
  | .pinApply c => Sys2Proof.Machine.execPinApply c s
  | .navRecord c inv sub3 cn0 t payload utc => Sys2Proof.Machine.execNavRecord c inv sub3 cn0 t payload utc s
  | .solution a fix => Sys2Proof.Machine.execSolution a fix s
  | .solutionDelivery a => Sys2Proof.Machine.execSolutionDelivery a s
  | .solutionLate a => Sys2Proof.Machine.execSolutionLate a s
  | .spoofClear a => Sys2Proof.Machine.execSpoofClear a s
  | .positionWrite a axis w => Sys2Proof.Machine.execPositionWrite a axis w s
  | .surveyDone a => Sys2Proof.Machine.execSurveyDone a s
  | .surveySlow a => Sys2Proof.Machine.execSurveySlow a s
  | .surveyRestart a w => Sys2Proof.Machine.execSurveyRestart a w s
  | .notchUpdate n peaks => Sys2Proof.Machine.execNotchUpdate n peaks s
  | .notchRelease n k => Sys2Proof.Machine.execNotchRelease n k s
  | .jamBaseline n floor => Sys2Proof.Machine.execJamBaseline n floor s
  | .jamLearn n w => Sys2Proof.Machine.execJamLearn n w s
  | .antSwitch => Sys2Proof.Machine.execAntSwitch s
  | .antReturn => Sys2Proof.Machine.execAntReturn s
  | .gnssSleep span => Sys2Proof.Machine.execGnssSleep span s
  | .gnssSleepEnd => Sys2Proof.Machine.execGnssSleepEnd s
  | .gnssWake w => Sys2Proof.Machine.execGnssWake w s
  | .hotFail => Sys2Proof.Machine.execHotFail s
  | .moduleInsert p => Sys2Proof.Machine.execModuleInsert p s
  | .moduleRemove p => Sys2Proof.Machine.execModuleRemove p s
  | .recordRead p rec a b => Sys2Proof.Machine.execRecordRead p rec a b s
  | .warmupDone p => Sys2Proof.Machine.execWarmupDone p s
  | .warmFail p => Sys2Proof.Machine.execWarmFail p s
  | .moduleAlarm p us => Sys2Proof.Machine.execModuleAlarm p us s
  | .alarmClear p ms => Sys2Proof.Machine.execAlarmClear p ms s
  | .modulePark p w => Sys2Proof.Machine.execModulePark p w s
  | .moduleUnpark p w => Sys2Proof.Machine.execModuleUnpark p w s
  | .moduleMinute p => Sys2Proof.Machine.execModuleMinute p s
  | .hoursWriteEnd p ok => Sys2Proof.Machine.execHoursWriteEnd p ok s
  | .hoursSetGo p w => Sys2Proof.Machine.execHoursSetGo p w s
  | .efcWrite p w => Sys2Proof.Machine.execEfcWrite p w s
  | .modulePps p dc bin => Sys2Proof.Machine.execModulePps p dc bin s
  | .clockMeasure c nHz => Sys2Proof.Machine.execClockMeasure c nHz s
  | .tiEdge c dc bin fall => Sys2Proof.Machine.execTiEdge c dc bin fall s
  | .gateOpen g dc high => Sys2Proof.Machine.execGateOpen g dc high s
  | .gateClose g dc high => Sys2Proof.Machine.execGateClose g dc high s
  | .countSecond c => Sys2Proof.Machine.execCountSecond c s
  | .pairOverflow c => Sys2Proof.Machine.execPairOverflow c s
  | .calPassEnd g hits => Sys2Proof.Machine.execCalPassEnd g hits s
  | .calHandover g => Sys2Proof.Machine.execCalHandover g s
  | .calNow w => Sys2Proof.Machine.execCalNow w s
  | .channelArm c w => Sys2Proof.Machine.execChannelArm c w s
  | .channelDisarm c w => Sys2Proof.Machine.execChannelDisarm c w s
  | .groupWake g => Sys2Proof.Machine.execGroupWake g s
  | .pulseGo o w => Sys2Proof.Machine.execPulseGo o w s
  | .pulseStop o w => Sys2Proof.Machine.execPulseStop o w s
  | .pulseCommit o => Sys2Proof.Machine.execPulseCommit o s
  | .pulseFire o => Sys2Proof.Machine.execPulseFire o s
  | .pulseEnd o => Sys2Proof.Machine.execPulseEnd o s
  | .portConfig p w => Sys2Proof.Machine.execPortConfig p w s
  | .macAddrCommit p w => Sys2Proof.Machine.execMacAddrCommit p w s
  | .signalDetect l => Sys2Proof.Machine.execSignalDetect l s
  | .trainingDone l fec => Sys2Proof.Machine.execTrainingDone l fec s
  | .portCalPass l rmsRx rmsTx phiRx phiTx => Sys2Proof.Machine.execPortCalPass l rmsRx rmsTx phiRx phiTx s
  | .linkLoss l cause inFrame => Sys2Proof.Machine.execLinkLoss l cause inFrame s
  | .localFault p rem => Sys2Proof.Machine.execLocalFault p rem s
  | .queueFlush p => Sys2Proof.Machine.execQueueFlush p s
  | .frameRx p f => Sys2Proof.Machine.execFrameRx p f s
  | .fecVerdict p v corr uncorr sym => Sys2Proof.Machine.execFecVerdict p v corr uncorr sym s
  | .pauseEffect p => Sys2Proof.Machine.execPauseEffect p s
  | .pauseExpire p q => Sys2Proof.Machine.execPauseExpire p q s
  | .frameCommit p sub => Sys2Proof.Machine.execFrameCommit p sub s
  | .fragmentEnd p => Sys2Proof.Machine.execFragmentEnd p s
  | .txUnderrun p held => Sys2Proof.Machine.execTxUnderrun p held s
  | .verifySend p => Sys2Proof.Machine.execVerifySend p s
  | .verifyResponse p => Sys2Proof.Machine.execVerifyResponse p s
  | .svcWrite p w => Sys2Proof.Machine.execSvcWrite p w s
  | .svcRead p w => Sys2Proof.Machine.execSvcRead p w s
  | .counterRead b ix => Sys2Proof.Machine.execCounterRead b ix s
  | .cstSweep n => Sys2Proof.Machine.execCstSweep n s
  | .cstFlush n w => Sys2Proof.Machine.execCstFlush n w s
  | .ntpBroadcast p => Sys2Proof.Machine.execNtpBroadcast p s
  | .bucketRefill n => Sys2Proof.Machine.execBucketRefill n s
  | .ntsEngineDone n e => Sys2Proof.Machine.execNtsEngineDone n e s
  | .ntsReserve p => Sys2Proof.Machine.execNtsReserve p s
  | .ntsHoldTimeout p => Sys2Proof.Machine.execNtsHoldTimeout p s
  | .keyChangeEffect => Sys2Proof.Machine.execKeyChangeEffect s
  | .ptpSend due => Sys2Proof.Machine.execPtpSend due s
  | .announceTimeout j id => Sys2Proof.Machine.execAnnounceTimeout j id s
  | .followUpMiss j => Sys2Proof.Machine.execFollowUpMiss j s
  | .grantExpire n e => Sys2Proof.Machine.execGrantExpire n e s
  | .upstreamDelayReq j wait => Sys2Proof.Machine.execUpstreamDelayReq j wait s
  | .unicastRenew j m => Sys2Proof.Machine.execUnicastRenew j m s
  | .instanceConfig j r w => Sys2Proof.Machine.execInstanceConfig j r w s
  | .instanceRateWrite j phase w => Sys2Proof.Machine.execInstanceRateWrite j phase w s
  | .doorbell fn q w descs => Sys2Proof.Machine.execDoorbell fn q w descs s
  | .txDescFetch r data => Sys2Proof.Machine.execTxDescFetch r data s
  | .ringEnable fn q w => Sys2Proof.Machine.execRingEnable fn q w s
  | .ringDisable fn q w => Sys2Proof.Machine.execRingDisable fn q w s
  | .ringOwner q w => Sys2Proof.Machine.execRingOwner q w s
  | .itrExpire q => Sys2Proof.Machine.execItrExpire q s
  | .mooringTimeRx l back f => Sys2Proof.Machine.execMooringTimeRx l back f s
  | .timedLoss l => Sys2Proof.Machine.execTimedLoss l s
  | .bertRx l bits errors f => Sys2Proof.Machine.execBertRx l bits errors f s
  | .relayFrameRx l f => Sys2Proof.Machine.execRelayFrameRx l f s
  | .relayTimeout id => Sys2Proof.Machine.execRelayTimeout id s
  | .closureWindow => Sys2Proof.Machine.execClosureWindow s
  | .stackEnable w => Sys2Proof.Machine.execStackEnable w s
  | .tenderTx collision => Sys2Proof.Machine.execTenderTx collision s
  | .tenderBackoff => Sys2Proof.Machine.execTenderBackoff s
  | .helloSend => Sys2Proof.Machine.execHelloSend s
  | .hello f => Sys2Proof.Machine.execHello f s
  | .assign f => Sys2Proof.Machine.execAssign f s
  | .rcheck f => Sys2Proof.Machine.execRcheck f s
  | .rreport f => Sys2Proof.Machine.execRreport f s
  | .asym f => Sys2Proof.Machine.execAsym f s
  | .handoverRx f => Sys2Proof.Machine.execHandoverRx f s
  | .ping f => Sys2Proof.Machine.execPing f s
  | .pong f => Sys2Proof.Machine.execPong f s
  | .rcheckSend => Sys2Proof.Machine.execRcheckSend s
  | .masterLost => Sys2Proof.Machine.execMasterLost s
  | .discoverTimeout => Sys2Proof.Machine.execDiscoverTimeout s
  | .nodeTimeout a => Sys2Proof.Machine.execNodeTimeout a s
  | .handoverLapse => Sys2Proof.Machine.execHandoverLapse s
  | .mbxLockRead c readers => Sys2Proof.Machine.execMbxLockRead c readers s
  | .mbxDataAccess c r by_ w => Sys2Proof.Machine.execMbxDataAccess c r by_ w s
  | .mbxGo c by_ w also => Sys2Proof.Machine.execMbxGo c by_ w also s
  | .mbxDone c by_ w => Sys2Proof.Machine.execMbxDone c by_ w s
  | .mbxRelease c by_ w => Sys2Proof.Machine.execMbxRelease c by_ w s
  | .lockHoldExpire c => Sys2Proof.Machine.execLockHoldExpire c s
  | .receiverDown fn d0 => Sys2Proof.Machine.execReceiverDown fn d0 s
  | .firmwareTake => Sys2Proof.Machine.execFirmwareTake s
  | .crossingTimeout c => Sys2Proof.Machine.execCrossingTimeout c s
  | .notifyPost => Sys2Proof.Machine.execNotifyPost s
  | .regRead => Sys2Proof.Machine.execRegRead s
  | .regWrite => Sys2Proof.Machine.execRegWrite s
  | .nop => Sys2Proof.Machine.execNop s
  | .ident => Sys2Proof.Machine.execIdent s
  | .result => Sys2Proof.Machine.execResult s
  | .cfgStage => Sys2Proof.Machine.execCfgStage s
  | .cfgCommit => Sys2Proof.Machine.execCfgCommit s
  | .flashOpComplete ok => Sys2Proof.Machine.execFlashOpComplete ok s
  | .cfgRead => Sys2Proof.Machine.execCfgRead s
  | .timeGet => Sys2Proof.Machine.execTimeGet s
  | .step => Sys2Proof.Machine.execStep s
  | .solGet => Sys2Proof.Machine.execSolGet s
  | .navGet => Sys2Proof.Machine.execNavGet s
  | .timRecords => Sys2Proof.Machine.execTimRecords s
  | .svcSet => Sys2Proof.Machine.execSvcSet s
  | .svcGet => Sys2Proof.Machine.execSvcGet s
  | .keyLoad => Sys2Proof.Machine.execKeyLoad s
  | .keyPromote => Sys2Proof.Machine.execKeyPromote s
  | .keyRetire => Sys2Proof.Machine.execKeyRetire s
  | .keyStatus => Sys2Proof.Machine.execKeyStatus s
  | .cstLookup => Sys2Proof.Machine.execCstLookup s
  | .cstRemove => Sys2Proof.Machine.execCstRemove s
  | .cstDump => Sys2Proof.Machine.execCstDump s
  | .grantRead => Sys2Proof.Machine.execGrantRead s
  | .relay => Sys2Proof.Machine.execRelay s
  | .handover => Sys2Proof.Machine.execHandover s
  | .resetCmd => Sys2Proof.Machine.execResetCmd s
  | .watchRun => Sys2Proof.Machine.execWatchRun s
  | .logRead => Sys2Proof.Machine.execLogRead s
  | .hoursSet => Sys2Proof.Machine.execHoursSet s
  | .commandComplete id => Sys2Proof.Machine.execCommandComplete id s
  | .commandTimeout id => Sys2Proof.Machine.execCommandTimeout id s
  | .arbiterEval demand temp die => Sys2Proof.Machine.execArbiterEval demand temp die s
  | .arbiterRestore demand => Sys2Proof.Machine.execArbiterRestore demand s
  | .islandWake ix => Sys2Proof.Machine.execIslandWake ix s
  | .powerOnReset lowNs rises => Sys2Proof.Machine.execPowerOnReset lowNs rises s
  | .supplyDip us => Sys2Proof.Machine.execSupplyDip us s
  | .watchdogExpire => Sys2Proof.Machine.execWatchdogExpire s
  | .rstGo w => Sys2Proof.Machine.execRstGo w s
  | .resetBegin => Sys2Proof.Machine.execResetBegin s
  | .functionReset fn => Sys2Proof.Machine.execFunctionReset fn s
  | .perst => Sys2Proof.Machine.execPerst s
  | .bootImageSelect sfdp => Sys2Proof.Machine.execBootImageSelect sfdp s
  | .firmwareRun => Sys2Proof.Machine.execFirmwareRun s
  | .imageApply => Sys2Proof.Machine.execImageApply s
  | .resetComplete => Sys2Proof.Machine.execResetComplete s
  | .pctSelect c w => Sys2Proof.Machine.execPctSelect c w s
  | .pctRead c reader => Sys2Proof.Machine.execPctRead c reader s
  | .pctOvfClear c => Sys2Proof.Machine.execPctOvfClear c s
  | .eccError a word corrected => Sys2Proof.Machine.execEccError a word corrected s
  | .watchTestEnd bad measure => Sys2Proof.Machine.execWatchTestEnd bad measure s
  | .watchTestBound => Sys2Proof.Machine.execWatchTestBound s
  | .tapInstruction op => Sys2Proof.Machine.execTapInstruction op s
  | .forbiddenAccess addr w => Sys2Proof.Machine.execForbiddenAccess addr w s
  | .offWindowAccess addr w => Sys2Proof.Machine.execOffWindowAccess addr w s
  | .rcRead fn addr => Sys2Proof.Machine.execRcRead fn addr s
  | .registerWrite fn addr w => Sys2Proof.Machine.execRegisterWrite fn addr w s
  | .faultEnd p rem => Sys2Proof.Machine.execFaultEnd p rem s
  | .mooringFrameErr l => Sys2Proof.Machine.execMooringFrameErr l s
  | .tenderCrcErr => Sys2Proof.Machine.execTenderCrcErr s
  | .pePerstNRise => Sys2Proof.Machine.execPePerstNRise s
  | .watchTestStart => Sys2Proof.Machine.execWatchTestStart s

end Sys2Proof.Machine
end

