-- ==== Sys2Proof/Safety.lean ====
section
/-! DEFINITION. What the claims are stated in: the register blocks, the parts of the state, what two states agree on, the canonical form
of the tables, and the queues of commands that name addresses that exist. -/

namespace Sys2Proof.Machine

/-- The register blocks of R40, R41 and R44, in the order of the map. -/
inductive Block where
  | dev | tsc | ens | gns | tim | rfm | mor | mbx | pwr | pct | wch | mac | ntp | nts | ptp | lane | ring
deriving DecidableEq, Repr

/-- Whether the bits kept at a key lie in a window of a Beacon die, in its part `i` of 1 MiB (R41). -/
def inWindow (i k : Nat) : Bool := decide (0x20000000 ≤ k ∧ k < 0xA0000000 ∧ k / 32 % 0x1000000 / 0x100000 = i)

/-- Whether the bits kept at a key are a block's. -/
def Block.has (b : Block) (k : Nat) : Bool :=
  match b with
  | .dev => decide (k < 0x200000)
  | .tsc => decide (0x200000 ≤ k ∧ k < 0x400000)
  | .ens => decide (0x400000 ≤ k ∧ k < 0x800000)
  | .gns => decide (0x800000 ≤ k ∧ k < 0x1000000)
  | .tim => decide (0x1000000 ≤ k ∧ k < 0x1800000)
  | .rfm => decide (0x1800000 ≤ k ∧ k < 0x1C00000)
  | .mor => decide (0x1C00000 ≤ k ∧ k < 0x2000000)
  | .mbx => decide (0x2000000 ≤ k ∧ k < 0x2200000)
  | .pwr => decide (0x2200000 ≤ k ∧ k < 0x2400000)
  | .pct => decide (0x2400000 ≤ k ∧ k < 0x2800000)
  | .wch => decide (0x2800000 ≤ k ∧ k < 0x3000000)
  | .mac => inWindow 0 k
  | .ntp => inWindow 1 k
  | .nts => inWindow 2 k
  | .ptp => inWindow 3 k
  | .lane => inWindow 4 k
  | .ring => decide (0x100000000 ≤ k)

/-- The bits any command may change beside its own effect: the overflow bits of the performance counters, and the pending bits of the
MSI-X vectors (R368, R466). -/
def sideKey (k : Nat) : Bool :=
  decide (0x2600000 ≤ k ∧ k < 0x2601000) || k ∈ [0x102018000, 0x102018080, 0x102038000, 0x102038080]

/-- Whether a field's bits are among those. -/
def Field.side (f : Field) : Bool := sideKey f.key

/-- The parts of the state beside its counters, what it has put out, its count of commands and its queue. -/
inductive Part where
  | mem | tick | lanes | ens | rfm | tim | gnss | log | srv | rings | stack | mbx | fw | pcie | watch | power | rst | cfg
  | regs (b : Block)
deriving DecidableEq, Repr

/-- Two states agree on a part. -/
def Part.same (p : Part) (s t : State) : Prop :=
  match p with
  | .mem => ∀ a, readByte t.mem a = readByte s.mem a
  | .tick => t.tick = s.tick
  | .lanes => t.lanes = s.lanes
  | .ens => t.ens = s.ens
  | .rfm => t.rfm = s.rfm
  | .tim => t.tim = s.tim
  | .gnss => t.gnss = s.gnss
  | .log => t.log = s.log
  | .srv => t.srv = s.srv
  | .rings => t.rings = s.rings
  | .stack => t.stack = s.stack
  | .mbx => t.mbx = s.mbx
  | .fw => t.fw = s.fw
  | .pcie => t.pcie = s.pcie
  | .watch => t.watch = s.watch
  | .power => t.power = s.power
  | .rst => t.rst = s.rst
  | .cfg => t.cfg = s.cfg
  | .regs b => ∀ f : Field, b.has f.key = true → f.side = false → t.rd f = s.rd f

/-- The snapshot registers of both timescales and their difference (R62). -/
def snapFields : List Field :=
  [R.TSC_SNAP_FRAC_FRAC 0, R.TSC_SNAP_NS_NS 0, R.TSC_SNAP_SEC_LO_SEC 0, R.TSC_SNAP_SEC_HI_SEC 0, R.TSC_SNAP_FRAC_FRAC 1, R.TSC_SNAP_NS_NS 1,
   R.TSC_SNAP_SEC_LO_SEC 1, R.TSC_SNAP_SEC_HI_SEC 1, R.TSC_SNAP_DIFF_LO_DIFF, R.TSC_SNAP_DIFF_HI_DIFF]

/-- The snapshot registers show what both timescales read now, and their difference. -/
def State.SnapShows (s : State) : Prop :=
  (∀ b : Fin 2, let v := if b.val = 0 then s.ts0 else s.ts1
      s.rd (R.TSC_SNAP_FRAC_FRAC b.val) = v % 65536 ∧ s.rd (R.TSC_SNAP_NS_NS b.val) = v / 65536 % 1000000000 ∧
        s.rd (R.TSC_SNAP_SEC_LO_SEC b.val) = v / 65536000000000 % 2 ^ 32 ∧
        s.rd (R.TSC_SNAP_SEC_HI_SEC b.val) = v / 65536000000000 / 2 ^ 32 % 2 ^ 16) ∧
    s.rd R.TSC_SNAP_DIFF_LO_DIFF = satBits 48 s.tsDiff % 2 ^ 32 ∧ s.rd R.TSC_SNAP_DIFF_HI_DIFF = satBits 48 s.tsDiff / 2 ^ 32 % 2 ^ 16

/-- Whether a part is the registers of a block. -/
def Part.isRegs : Part → Bool
  | .regs _ => true
  | _ => false

/-- No field's value changes beside those named. -/
def Keeps (fs : List Field) (s t : State) : Prop := ∀ f : Field, (∀ g ∈ fs, f.key ≠ g.key) → f.side = false → t.rd f = s.rd f

/-- The fields an event log record may write: LOG_NEXT_SEQ, and where the log is full LOG_FIRST_SEQ, LOG_WRAPS and the wrap's event (R471). -/
def logFields : List Field := [R.LOG_NEXT_SEQ, R.LOG_FIRST_SEQ, R.LOG_WRAPS_WRAPS, R.WCH_EVT_BITS]

/-- The performance counters keep what they select and their latched words: only their counts move. -/
def CountsOnly (s t : State) : Prop := ∀ c, { IMap.get {} t.pct c with count := (IMap.get {} s.pct c).count } = IMap.get {} s.pct c

/-- From `s` to `t` no register field changes beside those named and no other part of the state beside those named; counters only count,
nothing put out is taken back, and the queue stays. -/
def Frame (fs : List Field) (ps : List Part) (s t : State) : Prop :=
  Keeps fs s t ∧ (∀ p, p ∉ ps → p.isRegs = false → p.same s t) ∧ CountsOnly s t ∧ s.out <:+ t.out ∧ t.pending = s.pending

/-- The register file and the addressed buffers have their canonical form. -/
def State.Form (s : State) : Prop := IMap.wf 0 s.regs = true ∧ Memory.wf s.mem = true

/-- From `s` to `t` no part beside those named changes, and the canonical form is kept. -/
def Touches (ps : List Part) (s t : State) : Prop := (∀ p, p ∉ ps → p.same s t) ∧ (s.Form → t.Form)

/-- Every part. -/
def Part.all : List Part :=
  [.mem, .tick, .lanes, .ens, .rfm, .tim, .gnss, .log, .srv, .rings, .stack, .mbx, .fw, .pcie, .watch, .power, .rst, .cfg]
    ++ ([.dev, .tsc, .ens, .gns, .tim, .rfm, .mor, .mbx, .pwr, .pct, .wch, .mac, .ntp, .nts, .ptp, .lane, .ring] : List Block).map .regs

/-! ### What a command may change -/

/-- The parts of the state a command of each row may change. -/
def touches (i : Instr) : List Part :=
  match i with
  | .epochMarker | .masterLost | .discoverTimeout =>
    [.tick, .lanes, .ens, .log, .stack, .regs .ens, .regs .mor, .regs .wch]
  | .lanePulseRx .. | .lanePulseMiss .. | .laneLock .. | .coastLimit .. =>
    [.lanes, .ens, .log, .regs .dev, .regs .ens, .regs .wch, .regs .nts, .regs .lane]
  | .laneReturn .. =>
    [.tick, .lanes, .tim, .regs .lane]
  | .incrApply .. | .slewGo .. | .slewAbort .. | .snapTake .. | .ts1Enable .. | .ownershipChange .. | .leapArm .. | .leapCancel ..
  | .utcOfsWrite .. =>
    [.tick, .regs .tsc]
  | .stepGo .. =>
    [.tick, .fw, .regs .tsc]
  | .slewDone .. | .snapLatch | .switchDone | .leapWarn | .leapSecondStart | .smearStart | .smearEnd =>
    [.tick, .lanes, .regs .tsc]
  | .stepApply .. =>
    [.tick, .lanes, .ens, .tim, .log, .srv, .fw, .regs .tsc, .regs .ens, .regs .tim, .regs .wch, .regs .ntp, .regs .ptp]
  | .switchGo .. =>
    [.tick, .ens, .log, .regs .tsc, .regs .ens, .regs .wch]
  | .leapOfsChange =>
    [.tick, .lanes, .log, .regs .tsc, .regs .wch]
  | .filterStep .. =>
    [.tick, .lanes, .ens, .tim, .gnss, .log, .stack, .fw, .watch, .regs .tsc, .regs .ens, .regs .gns, .regs .tim, .regs .rfm, .regs .wch]
  | .sourceSample .. =>
    [.ens]
  | .anchorSelect .. | .anchorHold | .slotRelease .. | .slotQuarantine .. | .clrAsym .. | .relearn .. | .decideGo .. =>
    [.ens, .regs .ens]
  | .slotLoss .. | .slotQualify .. | .slotConsistent .. | .carryExpire .. | .reestComplete .. =>
    [.tick, .lanes, .ens, .log, .regs .ens, .regs .wch]
  | .slotEnable .. | .slotMove .. =>
    [.ens, .tim, .regs .ens, .regs .tim]
  | .anchorReturn =>
    [.tick, .lanes, .ens, .regs .ens]
  | .driftRecord =>
    [.tick, .lanes, .ens]
  | .gnssEpoch .. =>
    [.tick, .lanes, .tim, .gnss, .watch, .regs .gns]
  | .gnssPortFault .. | .pullInTimeout .. | .lostTimeout .. | .pinApply .. | .solutionLate .. | .antSwitch | .antReturn | .gnssSleepEnd =>
    [.tick, .lanes, .gnss, .watch, .regs .gns]
  | .surveyDone .. | .notchRelease .. | .jamBaseline .. =>
    [.tick, .lanes, .gnss, .regs .gns]
  | .channelAssign .. | .detection .. | .searchPassEnd .. | .pullInLock .. | .navSync .. | .channelLost .. | .reacquire .. | .channelPin ..
  | .gnssSleep .. | .gnssWake .. | .gnssPortRecover .. =>
    [.gnss, .watch, .regs .gns]
  | .surveyRestart .. | .notchUpdate .. | .jamLearn .. | .positionWrite .. =>
    [.gnss, .regs .gns]
  | .navRecord .. =>
    [.mem, .tick, .gnss, .regs .tsc, .regs .gns]
  | .solution .. =>
    [.tick, .lanes, .ens, .gnss, .log, .watch, .regs .gns, .regs .wch]
  | .solutionDelivery .. =>
    [.ens, .gnss, .regs .gns]
  | .spoofClear .. | .surveySlow .. =>
    [.tick, .lanes, .regs .gns]
  | .hotFail =>
    [.tick, .lanes, .ens, .gnss, .regs .gns]
  | .moduleInsert .. | .moduleAlarm .. | .alarmClear .. | .modulePark .. | .moduleUnpark .. | .clockMeasure .. =>
    [.ens, .rfm, .regs .ens, .regs .rfm]
  | .moduleRemove .. | .recordRead .. =>
    [.ens, .rfm, .log, .regs .ens, .regs .rfm, .regs .wch]
  | .hoursWriteEnd .. =>
    [.ens, .rfm, .log, .fw, .regs .ens, .regs .rfm, .regs .wch]
  | .warmupDone .. | .warmFail .. =>
    [.tick, .lanes, .ens, .rfm, .regs .ens, .regs .rfm]
  | .modulePps .. =>
    [.tick, .lanes, .ens, .rfm, .tim, .regs .rfm]
  | .moduleMinute .. | .hoursSetGo .. =>
    [.rfm, .log, .regs .rfm, .regs .wch]
  | .efcWrite .. =>
    [.regs .rfm]
  | .tiEdge .. =>
    [.tick, .lanes, .ens, .tim, .regs .tim]
  | .gateOpen .. | .gateClose .. | .countSecond .. | .pairOverflow .. | .calHandover .. | .pulseCommit .. | .pulseEnd .. =>
    [.tick, .lanes, .tim, .regs .tim]
  | .calPassEnd .. | .calNow .. | .channelArm .. | .channelDisarm .. | .groupWake .. | .pulseGo .. | .pulseStop .. =>
    [.tim, .regs .tim]
  | .pulseFire .. =>
    [.tick, .lanes, .tim, .regs .tsc, .regs .tim]
  | .portConfig .. | .macAddrCommit .. | .localFault .. =>
    [.srv, .rings, .regs .mac, .regs .nts, .regs .ring]
  | .signalDetect .. | .linkLoss .. =>
    [.ens, .log, .srv, .rings, .stack, .regs .ens, .regs .mor, .regs .wch, .regs .mac, .regs .nts, .regs .ring]
  | .trainingDone .. =>
    [.ens, .log, .srv, .stack, .regs .ens, .regs .mor, .regs .wch, .regs .mac]
  | .portCalPass .. =>
    [.tick, .lanes, .ens, .log, .srv, .stack, .regs .ens, .regs .mor, .regs .wch, .regs .mac]
  | .queueFlush .. =>
    [.tick, .lanes, .srv, .rings, .regs .nts, .regs .ring]
  | .frameRx .. =>
    [.tick, .lanes, .ens, .log, .srv, .rings, .regs .ens, .regs .wch, .regs .mac, .regs .ntp, .regs .nts, .regs .ptp, .regs .ring]
  | .fecVerdict .. =>
    [.ens, .log, .srv, .rings, .regs .ens, .regs .pwr, .regs .wch, .regs .mac, .regs .ntp, .regs .nts, .regs .ptp, .regs .ring]
  | .pauseEffect .. =>
    [.tick, .lanes, .srv, .rings, .regs .mac, .regs .nts, .regs .ring]
  | .pauseExpire .. | .verifySend .. =>
    [.tick, .lanes, .srv, .rings, .regs .mac, .regs .ring]
  | .frameCommit .. =>
    [.tick, .lanes, .srv, .rings, .regs .tsc, .regs .ptp, .regs .ring]
  | .fragmentEnd .. | .counterRead .. | .txDescFetch .. | .pctRead .. | .pctOvfClear .. | .ringEnable .. | .ringDisable ..
  | .ringOwner .. =>
    [.srv, .rings, .regs .ring]
  | .txUnderrun .. | .faultEnd .. =>
    [.srv, .rings, .regs .mac, .regs .ring]
  | .verifyResponse .. =>
    [.regs .mac]
  | .svcWrite .. | .svcRead .. =>
    [.ens, .log, .srv, .rings, .regs .ens, .regs .wch, .regs .mac, .regs .ptp, .regs .ring]
  | .cstSweep .. =>
    [.tick, .lanes, .srv, .regs .ntp]
  | .cstFlush .. =>
    [.srv, .regs .ntp]
  | .ntpBroadcast .. =>
    [.tick, .lanes, .srv, .rings, .regs .ntp, .regs .ring]
  | .bucketRefill .. =>
    [.srv]
  | .ntsEngineDone .. =>
    [.srv, .rings, .regs .pwr, .regs .nts, .regs .ring]
  | .ntsReserve .. =>
    [.srv, .rings, .regs .nts, .regs .ring]
  | .ntsHoldTimeout .. =>
    [.tick, .lanes, .srv, .regs .nts]
  | .keyChangeEffect =>
    [.tick, .lanes, .srv, .fw, .regs .nts]
  | .ptpSend .. =>
    [.tick, .lanes, .srv, .rings, .regs .ptp, .regs .ring]
  | .announceTimeout .. =>
    [.tick, .lanes, .ens, .log, .srv, .regs .ens, .regs .wch, .regs .ptp]
  | .followUpMiss .. | .grantExpire .. =>
    [.tick, .lanes, .srv]
  | .upstreamDelayReq .. | .unicastRenew .. | .itrExpire .. =>
    [.tick, .lanes, .srv, .rings, .regs .ring]
  | .instanceConfig .. | .instanceRateWrite .. =>
    [.ens, .log, .srv, .rings, .regs .ens, .regs .wch, .regs .ptp, .regs .ring]
  | .doorbell .. =>
    [.srv, .rings, .fw, .regs .ring]
  | .mooringTimeRx .. | .timedLoss .. | .stackEnable .. | .hello .. =>
    [.ens, .log, .stack, .regs .ens, .regs .mor, .regs .wch]
  | .bertRx .. | .assign .. | .rcheck .. | .rreport .. | .asym .. | .handoverRx .. | .ping .. | .pong .. | .tenderCrcErr =>
    [.stack, .regs .mor]
  | .tenderTx .. | .closureWindow | .rcheckSend | .nodeTimeout .. =>
    [.tick, .lanes, .stack, .regs .mor]
  | .relayFrameRx .. =>
    [.stack, .fw, .regs .mor, .regs .mbx]
  | .relayTimeout .. =>
    [.tick, .lanes, .fw]
  | .tenderBackoff | .helloSend =>
    [.tick, .lanes, .stack]
  | .handoverLapse =>
    [.tick, .lanes, .log, .stack, .regs .wch]
  | .mbxLockRead .. =>
    [.log, .mbx, .regs .mbx, .regs .wch]
  | .mbxDataAccess .. | .mbxGo .. | .mbxDone .. | .mbxRelease .. =>
    [.log, .stack, .mbx, .fw, .regs .mbx, .regs .wch]
  | .lockHoldExpire .. =>
    [.tick, .lanes, .stack, .mbx, .fw, .regs .mbx]
  | .receiverDown .. =>
    [.mbx, .fw, .pcie, .regs .mbx]
  | .firmwareTake | .nop | .ident | .result | .cfgRead | .timeGet | .solGet | .navGet | .svcGet | .keyStatus | .cstLookup | .cstRemove
  | .cstDump | .grantRead | .relay | .handover | .logRead | .commandComplete .. =>
    [.log, .srv, .rings, .stack, .mbx, .fw, .regs .mbx, .regs .wch, .regs .ring]
  | .crossingTimeout .. =>
    [.tick, .lanes, .log, .mbx, .fw, .regs .mbx, .regs .wch]
  | .notifyPost =>
    [.fw, .regs .mbx]
  | .regRead | .regWrite | .step | .svcSet | .hoursSet | .powerOnReset .. | .supplyDip .. | .watchdogExpire | .rstGo .. | .resetBegin
  | .functionReset .. | .perst | .imageApply | .resetComplete | .eccError .. | .tapInstruction .. | .forbiddenAccess ..
  | .offWindowAccess .. | .rcRead .. | .registerWrite .. =>
    Part.all
  | .cfgStage =>
    [.log, .srv, .rings, .stack, .mbx, .fw, .cfg, .regs .mbx, .regs .wch, .regs .ring]
  | .cfgCommit =>
    [.log, .srv, .rings, .stack, .mbx, .fw, .cfg, .regs .mbx, .regs .pwr, .regs .wch, .regs .ring]
  | .flashOpComplete .. =>
    [.log, .fw, .cfg, .regs .pwr, .regs .wch]
  | .timRecords =>
    [.log, .srv, .rings, .stack, .mbx, .fw, .regs .tim, .regs .mbx, .regs .wch, .regs .ring]
  | .keyLoad | .keyPromote | .keyRetire =>
    [.log, .srv, .rings, .stack, .mbx, .fw, .regs .mbx, .regs .wch, .regs .nts, .regs .ring]
  | .resetCmd =>
    [.log, .srv, .rings, .stack, .mbx, .fw, .rst, .regs .mbx, .regs .wch, .regs .ring]
  | .watchRun =>
    [.tick, .lanes, .tim, .gnss, .log, .srv, .rings, .stack, .mbx, .fw, .watch, .regs .gns, .regs .tim, .regs .mbx, .regs .wch, .regs .ring]
  | .commandTimeout .. =>
    [.tick, .lanes, .log, .srv, .rings, .stack, .mbx, .fw, .regs .mbx, .regs .wch, .regs .ring]
  | .arbiterEval .. =>
    [.tick, .lanes, .ens, .tim, .gnss, .log, .srv, .rings, .mbx, .fw, .watch, .power, .regs .dev, .regs .ens, .regs .gns, .regs .mbx,
     .regs .pwr, .regs .wch, .regs .mac, .regs .nts, .regs .lane, .regs .ring]
  | .arbiterRestore .. =>
    [.tick, .lanes, .gnss, .srv, .watch, .power, .regs .gns, .regs .pwr, .regs .nts]
  | .islandWake .. =>
    [.lanes, .ens, .log, .srv, .power, .regs .dev, .regs .ens, .regs .pwr, .regs .wch, .regs .nts, .regs .lane]
  | .bootImageSelect .. =>
    [.log, .rst, .cfg, .regs .pwr, .regs .wch]
  | .firmwareRun =>
    [.lanes, .ens, .log, .stack, .fw, .rst, .regs .dev, .regs .ens, .regs .gns, .regs .mbx, .regs .wch, .regs .nts, .regs .lane]
  | .pctSelect .. =>
    [.srv, .rings, .regs .pct, .regs .ring]
  | .watchTestEnd .. | .watchTestBound | .watchTestStart =>
    [.tick, .lanes, .tim, .gnss, .log, .srv, .stack, .fw, .watch, .regs .gns, .regs .tim, .regs .wch, .regs .nts]
  | .mooringFrameErr .. =>
    [.regs .mor]
  | .pePerstNRise =>
    [.pcie]

/-! ### Queues whose addresses exist -/

/-- The BAR offset a command names, where it names one. -/
def addressOf : Instr → Option Nat
  | .forbiddenAccess a _ | .offWindowAccess a _ | .rcRead _ a | .registerWrite _ a _ => some a
  | _ => none

/-- The BARs hold every offset a command names: 128 MiB of BAR0, then 16 MiB of BAR2 (R40, R44). -/
def inBars (i : Instr) : Prop := ∀ a, addressOf i = some a → a < 0x9000000

/-- Every waiting command names an offset that exists. -/
def State.Answerable (s : State) : Prop := ∀ i ∈ s.pending, inBars i

/-! ### Instants -/

/-- TS0 comes to an instant, and no step due at the tick that brings it takes it back before it (R61). -/
def State.comesTo (s : State) (x : Nat) : Bool :=
  let u := s.waitTs0 x
  !(u.stepAhead .ts0 = some 0 && decide ((u.ts0 : Int) + u.tick.bank0.stepDelta < x))

/-! ### Fields as written, cuts as reported -/

/-- What a field holds after a write of a word to its register, by its access code (R10): `locked` for the RWL fields. -/
def stored (locked : Bool) (f : Field) (old w : Nat) : Nat :=
  if f.acc = .rw ∨ f.acc = .rws ∨ (f.acc = .rwl ∧ locked = false) then f.of w
  else if f.acc = .w1c then old &&& (2 ^ f.width - 1 - f.of w)
  else old

/-- The bit of PWR_EVT that reports a cut. -/
def cutBit : Cut → Nat
  | .engine _ => 3
  | .port _ => 4
  | .gnss => 5

/-! ### Replies to command packets -/

/-- The outcome of checks 5 to 7 of R425, in their order: the status and DETAIL of the first that fails. -/
def refusal (lenOk : Bool) (fields : List (Nat × Bool)) (absent : Bool) (busy : Option Nat) : Option (Nat × Nat) :=
  if lenOk = false then some (3, 4)
  else match firstFault fields with
    | some d => some (3, d)
    | none => if absent then some (5, 0) else busy.map (fun op => (1, op))

/-- What the sender of a command sees of its reply, the state when the reply is written being `s`: in a mailbox that waits for it the packet
in the data words of a REPLIED channel; on a ring the reply buffer and, at the head of the ring, the write-back (R366); for a relayed
command a RELAY frame where a link is up (R410). -/
def replied (c : Cmd) (status detail : Nat) (params : List Nat) (s t : State) : Bool :=
  let r := c.reply status detail params
  match c.path with
  | .mbx ch =>
    !(s.asReceiver ch (.keeper true) && s.mbxState ch = 2 && !s.on (R.MBX_STAT_ORPHAN ch) && decide (s.mbxOwner ch < 8))
      || (t.mbxState ch = 3
        && mbxWords.all (fun k => decide (r.length ≤ 4 * k) || t.rd (R.MBX_DATA_DATA (ch * 16 + k)) = leAt r (4 * k) 4 % 2 ^ 32))
  | .ring q idx _ addr n =>
    !s.descOut q idx
      || (!t.descOut q idx && (r.take n = [] || decide (Output.dma addr (r.take n) ∈ t.out))
        && (s.ring q).out.head?.all (fun d => d.idx ≠ idx
          || decide (Output.dma (s.ringBase q + idx * 32) (cmdBack d.tag r.length (if n < r.length then 3 else 1)) ∈ t.out)))
  | .relay src => match s.relayLink src with
    | some l => decide (Output.mooring l (morFrame 2 s.stackAddr src 7 (s.mor l).relaySeq r) ∈ t.out)
    | none => true
  | .lost => true

end Sys2Proof.Machine
end

