-- ==== Sys2Proof/Certificates/Slice0/Obligations.lean ====
section
/-! DEFINITION. What is claimed of the model: one proposition for each obligation. -/

open Sys2Proof Sys2Proof.Machine

/-- For every command c, rest q and state s: a step of the state whose queue is c followed by q is exec of c at the state whose queue is q.
The queue is first in, first out (DESIGN CHOICE, log entry 35). (Rests on 14_commands.md.) -/
def Obligations.StepTakesTheFrontCommand : Prop :=
  ∀ (s : State) (c : Instr) (q : List Instr), step { s with pending := c :: q } = Sys2Proof.Machine.exec c { s with pending := q }

/-- With no command waiting a step completes: the tick counter is one on, each timescale has advanced by one tick, TS1 by what TS0 gains
where TS1_EN is 0, and beside the tick domain and the lanes nothing has changed but what a frame that ends on a port in that tick
completes, in its port and its ring.  That an empty queue lets one tick pass is the model's choice (log entry 1); what the tick does is
R46's and R63's. (Rests on 02_timescale.md; 11_host_frames.md.) -/
def Obligations.IdleStepIsOneTick : Prop :=
  ∀ (s : State), s.pending = [] →
    ∃ t, step s = .next t ∧ t.tick.count = s.tick.count + 1 ∧ t.tick.bank0 = s.tick.bank0.run 1 ∧
      t.tick.bank1 = (if s.rd R.TSC_CTL_TS1_EN = 1 then s.tick.bank1.run 1 else s.tick.bank1.follow s.tick.bank0 1) ∧
      t.lanes = s.lanes.map (fun p => (p.1, p.2.run 1)) ∧
      ((∀ p, (s.advance 1).ended p = false) → Frame [] [.tick, .lanes] s t) ∧
      Touches [.tick, .lanes, .srv, .rings, .regs .ring] s t

/-- For every command and every state: unless the command names an offset beyond the BARs, exec answers a next state, with the queue of
waiting commands unchanged.  No command ends a run on ordinary data.
Choices of the model that it rests on: log entries 3 and 5.
(Rests on 00_scope.md; 01_architecture.md.) -/
def Obligations.EveryCommandCompletes : Prop :=
  ∀ (i : Instr) (s : State), inBars i → ∃ t, Sys2Proof.Machine.exec i s = .next t ∧ t.pending = s.pending

/-- No command is ever refused, and one that faults named an offset that neither BAR0 nor BAR2 holds; each of the four rows that take an
offset faults there, whatever the state.
Choices of the model that it rests on: log entry 5.
(Rests on 01_architecture.md.) -/
def Obligations.StopsAreBeyondTheBars : Prop :=
  (∀ (i : Instr) (s : State), (∀ r, Sys2Proof.Machine.exec i s ≠ .refused r) ∧
      ∀ f, Sys2Proof.Machine.exec i s = .fault f → ∃ a, addressOf i = some a ∧ 0x9000000 ≤ a ∧ f = .noSuchAddress a) ∧
    ∀ (i : Instr) (s : State) (a : Nat), addressOf i = some a → 0x9000000 ≤ a → Sys2Proof.Machine.exec i s = .fault (.noSuchAddress a)

/-- For every state in which every waiting command names only offsets the BARs hold, a step answers a next state in which the same holds:
such a queue runs to its end without a stop.
Choices of the model that it rests on: log entries 5 and 35.
(Rests on 01_architecture.md.) -/
def Obligations.AnswerableQueueStays : Prop :=
  ∀ (s : State), s.Answerable → ∃ t, step s = .next t ∧ t.Answerable

/-- For every state whose register file and addressed buffers have their canonical form (keys strictly rising, nothing listed that an
unlisted key reads as), the state after any step has it too, so equal contents stay equal data.
Choices of the model that it rests on: log entries 11 and 14.
(Rests on 01_architecture.md;
04_gnss.md.) -/
def Obligations.StepKeepsForm : Prop :=
  ∀ (s t : State), s.Form → step s = .next t → t.Form

/-- For every command, operands and state: where exec answers a next state, every part of the state the row does not name (the addressed
buffers, the tick domain, lanes, ensemble, modules, interval inputs, receiver, log, served protocols, rings, stacking, mailboxes,
firmware, PCIe, Watch, power, reset, configuration, and each register block but for overflow and MSI-X pending bits) is as it was.
Choices of the model that it rests on: log entries 1 and 3.
(Rests on 01_architecture.md; 95_what_each_step_holds.md.) -/
def Obligations.CommandsTouchTheirOwnParts : Prop :=
  ∀ (i : Instr) (s t : State), Sys2Proof.Machine.exec i s = .next t → Touches (touches i) s t

/-- In State.reset every field reads its reset value, the queue, log, rings, mailboxes and addressed buffers are empty, both timescales read
0, the engine is UNSET and every source ABSENT, every lane is OFF and port DOWN, a power-on reset is in progress, and the canonical form
holds.  Reset values and contents the spec leaves open are the model's (log entries 11, 12 and 13). (Rests on 15_power_boot_config.md;
01_architecture.md.) -/
def Obligations.ResetState : Prop :=
  (∀ f : Field, State.reset.rd f = f.reset % 2 ^ f.width) ∧ State.reset.pending = [] ∧ State.reset.log = [] ∧ State.reset.rings = [] ∧
    State.reset.mbx = [] ∧ State.reset.mem = [] ∧ State.reset.tick.bank0.ts = 0 ∧ State.reset.tick.bank1.ts = 0 ∧
    State.reset.eng .ts0 = .unset ∧ State.reset.eng .ts1 = .unset ∧ (∀ i : Fin 16, State.reset.src i.val = .absent) ∧
    (∀ d : Fin 4, State.reset.laneState d.val = 0) ∧ (∀ p : Fin 32, State.reset.link p.val = 0) ∧
    State.reset.rst.active = some (.powerOn, 0) ∧ State.reset.Form ∧ State.reset.Answerable

/-- For every command, whatever ends a channel's use by it (a RELEASE, a DONE of a receiver or of the firmware, a LOCK_HOLD release, a
withdrawal, a receiver, function or die that goes down, a reset of any scope, a supply dip, a memory error, the test port): where a
channel that was not EMPTY is EMPTY afterwards, all 16 data registers read 0 and ORPHAN is clear, so its next owner reads no message or
reply of the one before. (States R408.) -/
def Obligations.EmptiedChannelIsClear : Prop :=
  ∀ (s t : State) (i : Instr) (c : Fin 16),
    Sys2Proof.Machine.exec i s = .next t → s.mbxState c.val ≠ 0 → t.mbxState c.val = 0 →
    (∀ k : Fin 16, t.rd (R.MBX_DATA_DATA (c.val * 16 + k.val)) = 0) ∧ t.rd (R.MBX_STAT_ORPHAN c.val) = 0

/-- INCR_APPLY.  From the steering owner, a staged increment of 1.248750 ns to 1.251250 ns inclusive becomes the increment in force of its
bank and nothing else of the tick domain changes. One outside that range is not applied: the tick domain keeps its state and REJECTED is
set.  The host's APPLY while the ensemble owns the timescale is discarded with IGNORED, and the ensemble's while the host owns it
changes nothing. Beside the bank's TSC_INCR_CTL no register changes. (States R49; 02_timescale.md.) -/
def Obligations.IncrementApply : Prop :=
  (∀ (s : State) (b : Bank) (src : Steerer) (w : Word),
      s.ownerIs b src = true →
      1248750 * 2 ^ 48 ≤ (s.tick.bank b).staged * 1000000 →
      (s.tick.bank b).staged * 1000000 ≤ 1251250 * 2 ^ 48 →
      ∃ t, Sys2Proof.Machine.exec (.incrApply b src w) s = .next t ∧
        t.tick = s.tick.setBank b { s.tick.bank b with incr := (s.tick.bank b).staged } ∧
        Frame (Reg.TSC_INCR_CTL (bankNo b)).fields [.tick] s t) ∧
  (∀ (s : State) (b : Bank) (src : Steerer) (w : Word),
      s.ownerIs b src = true →
      ((s.tick.bank b).staged * 1000000 < 1248750 * 2 ^ 48 ∨ 1251250 * 2 ^ 48 < (s.tick.bank b).staged * 1000000) →
      ∃ t, Sys2Proof.Machine.exec (.incrApply b src w) s = .next t ∧
        t.rd (R.TSC_INCR_CTL_REJECTED (bankNo b)) = 1 ∧
        Frame (Reg.TSC_INCR_CTL (bankNo b)).fields [] s t) ∧
  (∀ (s : State) (b : Bank) (w : Word),
      s.ownerIs b .host = false →
      ∃ t, Sys2Proof.Machine.exec (.incrApply b .host w) s = .next t ∧
        t.rd (R.TSC_INCR_CTL_IGNORED (bankNo b)) = 1 ∧
        Frame (Reg.TSC_INCR_CTL (bankNo b)).fields [] s t) ∧
  (∀ (s : State) (b : Bank) (w : Word),
      s.ownerIs b .ensemble = false →
      ∃ t, Sys2Proof.Machine.exec (.incrApply b .ensemble w) s = .next t ∧
        Frame (Reg.TSC_INCR_CTL (bankNo b)).fields [] s t)

/-- SLEW_GO, SLEW_ABORT, SLEW_DONE.  The owner's GO of an offset O over D microseconds within SLEW_MAX starts a slew of 800 D ticks whose
shares and remainder come from O x 2^32, and sets ACTIVE.  It is refused with REJECTED, the bank left as it is, where D is 0, |O| / D
exceeds SLEW_MAX, the timescale is TS0 and a switch slew runs, or a step of the timescale was applied at this very tick.  ABORT without
GO ends a running slew: ABORTED is set, ACTIVE falls and the remainder registers keep what was not applied; with none running it changes
nothing but the latched bits written 1, which clear.  A GO that is refused or ignored in a write that has ABORT at 1 too leaves a running
slew aborted in the same way. A slew completes when its ticks have passed: DONE is set, ACTIVE falls and the remainder reads 0.
Choices of the model that it rests on: log entry 97.
(Rests on 02_timescale.md.) -/
def Obligations.Slews : Prop :=
  (∀ (s : State) (b : Bank) (src : Steerer) (w : Word),
      s.ownerIs b src = true →
      0 < s.rd (R.TSC_SLEW_DUR_DUR (bankNo b)) →
      (s.slewOfs b).natAbs * 1000 ≤ max 1 (min 100 (s.rd R.TSC_CTL_SLEW_MAX)) * 65536 * s.rd (R.TSC_SLEW_DUR_DUR (bankNo b)) →
      (b = .ts0 → s.rd R.TSC_SWITCH_CTL_ACTIVE ≠ 1) →
      (s.tick.bank b).stepTick ≠ some s.tick.count →
      ∃ t, Sys2Proof.Machine.exec (.slewGo b src w) s = .next t ∧
        (t.tick.bank b).slew = Slew.make (s.slewOfs b) (800 * s.rd (R.TSC_SLEW_DUR_DUR (bankNo b))) ∧
        (t.tick.bank b).slewFrom = s.tick.count ∧
        (t.tick.bank b).ts = (s.tick.bank b).ts ∧
        t.rd (R.TSC_SLEW_CTL_ACTIVE (bankNo b)) = 1 ∧
        Frame (R.TSC_SLEW_LEFT_LO_LEFT (bankNo b) :: R.TSC_SLEW_LEFT_HI_LEFT (bankNo b) :: (Reg.TSC_SLEW_CTL (bankNo b)).fields) [.tick] s t) ∧
  (∀ (s : State) (b : Bank) (src : Steerer) (w : Word),
      s.ownerIs b src = true →
      (R.TSC_SLEW_CTL_ABORT (bankNo b)).of w.toNat = 0 →
      (s.rd (R.TSC_SLEW_DUR_DUR (bankNo b)) = 0 ∨ max 1 (min 100 (s.rd R.TSC_CTL_SLEW_MAX)) * 65536 * s.rd (R.TSC_SLEW_DUR_DUR (bankNo b)) < (s.slewOfs b).natAbs * 1000 ∨ (b = .ts0 ∧ s.rd R.TSC_SWITCH_CTL_ACTIVE = 1) ∨ (s.tick.bank b).stepTick = some s.tick.count) →
      ∃ t, Sys2Proof.Machine.exec (.slewGo b src w) s = .next t ∧
        t.rd (R.TSC_SLEW_CTL_REJECTED (bankNo b)) = 1 ∧
        t.rd (R.TSC_SLEW_CTL_ACTIVE (bankNo b)) = s.rd (R.TSC_SLEW_CTL_ACTIVE (bankNo b)) ∧
        Frame (Reg.TSC_SLEW_CTL (bankNo b)).fields [] s t) ∧
  (∀ (s : State) (b : Bank) (w : Word),
      s.ownerIs b .host = false →
      (R.TSC_SLEW_CTL_ABORT (bankNo b)).of w.toNat = 0 →
      ∃ t, Sys2Proof.Machine.exec (.slewGo b .host w) s = .next t ∧
        t.rd (R.TSC_SLEW_CTL_IGNORED (bankNo b)) = 1 ∧
        Frame (Reg.TSC_SLEW_CTL (bankNo b)).fields [] s t) ∧
  (∀ (s : State) (b : Bank) (src : Steerer) (w : Word),
      s.ownerIs b src = true →
      (R.TSC_SLEW_CTL_ABORT (bankNo b)).of w.toNat = 1 →
      (s.rd (R.TSC_SLEW_DUR_DUR (bankNo b)) = 0 ∨ max 1 (min 100 (s.rd R.TSC_CTL_SLEW_MAX)) * 65536 * s.rd (R.TSC_SLEW_DUR_DUR (bankNo b)) < (s.slewOfs b).natAbs * 1000 ∨ (b = .ts0 ∧ s.rd R.TSC_SWITCH_CTL_ACTIVE = 1) ∨ (s.tick.bank b).stepTick = some s.tick.count) →
      ∃ t, Sys2Proof.Machine.exec (.slewGo b src w) s = .next t ∧
        t.rd (R.TSC_SLEW_CTL_REJECTED (bankNo b)) = 1 ∧
        (s.rd (R.TSC_SLEW_CTL_ACTIVE (bankNo b)) = 1 →
          t.tick = s.tick.setBank b { s.tick.bank b with slew := {} } ∧
          t.rd (R.TSC_SLEW_CTL_ABORTED (bankNo b)) = 1 ∧
          t.rd (R.TSC_SLEW_CTL_ACTIVE (bankNo b)) = 0 ∧
          t.rd (R.TSC_SLEW_LEFT_LO_LEFT (bankNo b)) = ofSigned 48 (s.tick.bank b).slew.left % 2 ^ 32 ∧
          t.rd (R.TSC_SLEW_LEFT_HI_LEFT (bankNo b)) = ofSigned 48 (s.tick.bank b).slew.left / 2 ^ 32 % 2 ^ 16) ∧
        (s.rd (R.TSC_SLEW_CTL_ACTIVE (bankNo b)) ≠ 1 → Frame (Reg.TSC_SLEW_CTL (bankNo b)).fields [] s t ∧
          t.rd (R.TSC_SLEW_CTL_ACTIVE (bankNo b)) = s.rd (R.TSC_SLEW_CTL_ACTIVE (bankNo b))) ∧
        Frame (R.TSC_SLEW_LEFT_LO_LEFT (bankNo b) :: R.TSC_SLEW_LEFT_HI_LEFT (bankNo b) :: (Reg.TSC_SLEW_CTL (bankNo b)).fields) [.tick] s t) ∧
  (∀ (s : State) (b : Bank) (w : Word),
      s.ownerIs b .host = false →
      (R.TSC_SLEW_CTL_ABORT (bankNo b)).of w.toNat = 1 →
      ∃ t, Sys2Proof.Machine.exec (.slewGo b .host w) s = .next t ∧
        t.rd (R.TSC_SLEW_CTL_IGNORED (bankNo b)) = 1 ∧
        (s.rd (R.TSC_SLEW_CTL_ACTIVE (bankNo b)) = 1 →
          t.tick = s.tick.setBank b { s.tick.bank b with slew := {} } ∧
          t.rd (R.TSC_SLEW_CTL_ABORTED (bankNo b)) = 1 ∧
          t.rd (R.TSC_SLEW_CTL_ACTIVE (bankNo b)) = 0 ∧
          t.rd (R.TSC_SLEW_LEFT_LO_LEFT (bankNo b)) = ofSigned 48 (s.tick.bank b).slew.left % 2 ^ 32 ∧
          t.rd (R.TSC_SLEW_LEFT_HI_LEFT (bankNo b)) = ofSigned 48 (s.tick.bank b).slew.left / 2 ^ 32 % 2 ^ 16) ∧
        (s.rd (R.TSC_SLEW_CTL_ACTIVE (bankNo b)) ≠ 1 → Frame (Reg.TSC_SLEW_CTL (bankNo b)).fields [] s t ∧
          t.rd (R.TSC_SLEW_CTL_ACTIVE (bankNo b)) = s.rd (R.TSC_SLEW_CTL_ACTIVE (bankNo b))) ∧
        Frame (R.TSC_SLEW_LEFT_LO_LEFT (bankNo b) :: R.TSC_SLEW_LEFT_HI_LEFT (bankNo b) :: (Reg.TSC_SLEW_CTL (bankNo b)).fields) [.tick] s t) ∧
  (∀ (s : State) (b : Bank) (w : Word),
      s.rd (R.TSC_SLEW_CTL_ACTIVE (bankNo b)) = 1 →
      ∃ t, Sys2Proof.Machine.exec (.slewAbort b w) s = .next t ∧
        t.tick = s.tick.setBank b { s.tick.bank b with slew := {} } ∧
        t.rd (R.TSC_SLEW_CTL_ABORTED (bankNo b)) = 1 ∧
        t.rd (R.TSC_SLEW_CTL_ACTIVE (bankNo b)) = 0 ∧
        t.rd (R.TSC_SLEW_LEFT_LO_LEFT (bankNo b)) = ofSigned 48 (s.tick.bank b).slew.left % 2 ^ 32 ∧
        t.rd (R.TSC_SLEW_LEFT_HI_LEFT (bankNo b)) = ofSigned 48 (s.tick.bank b).slew.left / 2 ^ 32 % 2 ^ 16 ∧
        Frame (R.TSC_SLEW_LEFT_LO_LEFT (bankNo b) :: R.TSC_SLEW_LEFT_HI_LEFT (bankNo b) :: (Reg.TSC_SLEW_CTL (bankNo b)).fields) [.tick] s t) ∧
  (∀ (s : State) (b : Bank) (w : Word),
      s.rd (R.TSC_SLEW_CTL_ACTIVE (bankNo b)) ≠ 1 →
      ∃ t, Sys2Proof.Machine.exec (.slewAbort b w) s = .next t ∧
        (∀ f ∈ (Reg.TSC_SLEW_CTL (bankNo b)).fields, t.rd f = stored false f (s.rd f) ((R.TSC_SLEW_CTL_ABORT (bankNo b)).setIn ((R.TSC_SLEW_CTL_GO (bankNo b)).clearIn w.toNat))) ∧
        Frame (Reg.TSC_SLEW_CTL (bankNo b)).fields [] s t) ∧
  (∀ (s : State) (b : Bank),
      let u : State := s.advance ((s.tick.bank b).slew.n - (s.tick.bank b).slew.k)
      s.rd (R.TSC_SLEW_CTL_ACTIVE (bankNo b)) = 1 →
      ∃ t, Sys2Proof.Machine.exec (.slewDone b) s = .next t ∧
        t.tick = u.tick.setBank b { u.tick.bank b with slew := {} } ∧
        t.rd (R.TSC_SLEW_CTL_DONE (bankNo b)) = 1 ∧
        t.rd (R.TSC_SLEW_CTL_ACTIVE (bankNo b)) = 0 ∧
        t.rd (R.TSC_SLEW_LEFT_LO_LEFT (bankNo b)) = 0 ∧
        t.rd (R.TSC_SLEW_LEFT_HI_LEFT (bankNo b)) = 0 ∧
        Frame [R.TSC_SLEW_LEFT_LO_LEFT (bankNo b), R.TSC_SLEW_LEFT_HI_LEFT (bankNo b), R.TSC_SLEW_CTL_DONE (bankNo b), R.TSC_SLEW_CTL_ACTIVE (bankNo b)] [.tick, .lanes] s t)

/-- STEP_GO, STEP_APPLY.  A GO of host PF1, or of the ensemble on TS1 or while SERVED is 0, makes pending the step the TSC_STEP registers
and MODE and NEG of the write ask for, an absolute one less the counter's value now, with two epoch markers to come.  It is refused with
DENIED, and nothing applied, where NS holds 10^9 or more, a step is pending on the timescale, the step is on TS0 while a switch slew
runs, or on TS1 while TS1_EN is 0; a GO from another sender, or the ensemble's on TS0 with SERVED at 1, is refused in the same way. A
step whose markers have come (the host's, or the ensemble's while it may still step) moves the counter by its offset, clears PENDING,
sets DONE, and on TS0 TIME_SET, the time each lane's last pulse carried moving with it; a slew that ran is aborted, one that GO started
at this very tick is discarded with REJECTED, and a snapshot latched at the same tick shows the value after the step.  The record of a
step of TS1 takes the next place of the log: its timescale and direction, its sender and its size. (States R59; 02_timescale.md.) -/
def Obligations.Steps : Prop :=
  (∀ (s : State) (b : Bank) (src : StepSource) (w : Word),
      (src = .sender .pf1 ∨ (src = .ensemble ∧ (b = .ts1 ∨ s.rd R.TSC_STAT_SERVED ≠ 1))) →
      s.rd (R.TSC_STEP_NS_NS (bankNo b)) < 1000000000 →
      s.rd (R.TSC_STEP_CTL_PENDING (bankNo b)) ≠ 1 →
      (b = .ts0 → s.rd R.TSC_SWITCH_CTL_ACTIVE ≠ 1) →
      (b = .ts1 → s.rd R.TSC_CTL_TS1_EN = 1) →
      ∃ t, Sys2Proof.Machine.exec (.stepGo b src w) s = .next t ∧
        (t.tick = s.tick.setBank b { s.tick.bank b with stepDelta := (if (R.TSC_STEP_CTL_MODE (bankNo b)).of w.toNat = 1 then (s.stepValue b : Int) - (s.tsOf b : Int) else if (R.TSC_STEP_CTL_NEG (bankNo b)).of w.toNat = 1 then -(s.stepValue b : Int) else (s.stepValue b : Int)), stepMarkers := 2, stepBy := stepSenderId src }) ∧
        t.rd (R.TSC_STEP_CTL_PENDING (bankNo b)) = 1 ∧
        Frame (Reg.TSC_STEP_CTL (bankNo b)).fields [.tick] s t) ∧
  (∀ (s : State) (b : Bank) (src : StepSource) (w : Word),
      (1000000000 ≤ s.rd (R.TSC_STEP_NS_NS (bankNo b)) ∨ s.rd (R.TSC_STEP_CTL_PENDING (bankNo b)) = 1 ∨ (b = .ts0 ∧ s.rd R.TSC_SWITCH_CTL_ACTIVE = 1) ∨ (b = .ts1 ∧ s.rd R.TSC_CTL_TS1_EN ≠ 1)) →
      ∃ t, Sys2Proof.Machine.exec (.stepGo b src w) s = .next t ∧
        t.rd (R.TSC_STEP_CTL_DENIED (bankNo b)) = 1 ∧
        t.rd (R.TSC_STEP_CTL_PENDING (bankNo b)) = s.rd (R.TSC_STEP_CTL_PENDING (bankNo b)) ∧
        ((∀ r ∈ s.fw.running, leAt r.cmd.bytes 0 2 ≠ 0x0211) → t.fw = s.fw) ∧
        Frame (Reg.TSC_STEP_CTL (bankNo b)).fields [.fw] s t) ∧
  (∀ (s : State) (b : Bank) (src : StepSource) (w : Word),
      src ≠ .sender .pf1 →
      (src = .ensemble → b = .ts0 ∧ s.rd R.TSC_STAT_SERVED = 1) →
      ∃ t, Sys2Proof.Machine.exec (.stepGo b src w) s = .next t ∧
        t.rd (R.TSC_STEP_CTL_DENIED (bankNo b)) = 1 ∧
        ((∀ r ∈ s.fw.running, leAt r.cmd.bytes 0 2 ≠ 0x0211) → t.fw = s.fw) ∧
        Frame (Reg.TSC_STEP_CTL (bankNo b)).fields [.fw] s t) ∧
  (∀ (s : State) (b : Bank),
      s.rd (R.TSC_STEP_CTL_PENDING (bankNo b)) = 1 →
      (s.tick.bank b).stepMarkers = 0 →
      (b = .ts0 → (s.tick.bank b).stepBy = 0 → s.rd R.TSC_STAT_SERVED ≠ 1) →
      ∃ t, Sys2Proof.Machine.exec (.stepApply b) s = .next t ∧
        (t.tick.bank b).ts = (((s.tick.bank b).ts + (s.tick.bank b).stepDelta * 2 ^ 32) % (wrapTs : Int)).toNat ∧
        (t.tick.bank b).stepDelta = 0 ∧
        t.rd (R.TSC_STEP_CTL_PENDING (bankNo b)) = 0 ∧
        t.rd (R.TSC_STEP_CTL_DONE (bankNo b)) = 1 ∧
        (b = .ts0 → t.rd R.TSC_STAT_TIME_SET = 1) ∧
        (b = .ts0 → ∀ n : Fin 4, s.lane n.val ≠ {} → (t.lane n.val).pulseTime = moveTs (s.lane n.val).pulseTime s.tick.bank0.stepDelta) ∧
        (s.tick.latchAt = some s.tick.count → t.SnapShows) ∧
        (s.rd (R.TSC_SLEW_CTL_ACTIVE (bankNo b)) = 1 → (s.tick.bank b).slewFrom ≠ s.tick.count → t.rd (R.TSC_SLEW_CTL_ABORTED (bankNo b)) = 1 ∧ t.rd (R.TSC_SLEW_CTL_ACTIVE (bankNo b)) = 0 ∧ (t.tick.bank b).slew = {}) ∧
        (s.rd (R.TSC_SLEW_CTL_ACTIVE (bankNo b)) = 1 → (s.tick.bank b).slewFrom = s.tick.count → t.rd (R.TSC_SLEW_CTL_REJECTED (bankNo b)) = 1 ∧ t.rd (R.TSC_SLEW_CTL_ACTIVE (bankNo b)) = 0 ∧ (t.tick.bank b).slew = {} ∧ ((s.tick.bank b).slewOld.n ≠ 0 → t.rd (R.TSC_SLEW_CTL_ABORTED (bankNo b)) = 1)) ∧
        (t.tick.bank b).stepRead = s.tsOf b ∧
        (b = .ts1 → t.rd R.LOG_NEXT_SEQ = (s.rd R.LOG_NEXT_SEQ + 1) % 2 ^ 32 ∧
          IMap.get {} t.log (s.rd R.LOG_NEXT_SEQ % 131072) =
            { seq := s.rd R.LOG_NEXT_SEQ, time := s.ts0, event := 0x0201, unit := (if s.tick.bank1.stepDelta < 0 then 129 else 1),
              sender := s.tick.bank1.stepBy, data := ktBytes s.tick.bank1.stepDelta.natAbs }) ∧
        Touches [.tick, .lanes, .ens, .tim, .log, .srv, .fw, .regs .tsc, .regs .ens, .regs .tim, .regs .wch, .regs .ntp, .regs .ptp] s t)

/-- STEP_APPLY of an ensemble step of TS0 whose second marker comes with SERVED at 1: the step is dropped.  PENDING falls, DENIED is set, no
counter moves, nothing is logged and nothing else changes but a STEP command that waits.  That it is dropped is the model's choice (log
entry 103).
Choices of the model that it rests on: log entry 103.
(Rests on 00_scope.md; 02_timescale.md.) -/
def Obligations.BarredStepIsDropped : Prop :=
  (∀ (s : State),
      s.rd (R.TSC_STEP_CTL_PENDING 0) = 1 →
      s.tick.bank0.stepMarkers = 0 →
      s.tick.bank0.stepBy = 0 →
      s.rd R.TSC_STAT_SERVED = 1 →
      ∃ t, Sys2Proof.Machine.exec (.stepApply .ts0) s = .next t ∧
        t.rd (R.TSC_STEP_CTL_PENDING 0) = 0 ∧
        t.rd (R.TSC_STEP_CTL_DENIED 0) = 1 ∧
        t.rd (R.TSC_STEP_CTL_DONE 0) = s.rd (R.TSC_STEP_CTL_DONE 0) ∧
        t.tick = { s.tick with bank0 := { s.tick.bank0 with stepDelta := 0, stepMarkers := 0 } } ∧
        t.lanes = s.lanes ∧
        ((∀ r ∈ s.fw.running, leAt r.cmd.bytes 0 2 ≠ 0x0211) → t.fw = s.fw) ∧
        Frame [R.TSC_STEP_CTL_PENDING 0, R.TSC_STEP_CTL_DENIED 0] [.tick, .fw] s t)

/-- SWITCH_GO, SWITCH_DONE, SNAP_TAKE, SNAP_LATCH, TS1_ENABLE, OWNERSHIP_CHANGE.  A switch loads TS0's increment with TS1's, leaves TS1 as
it is, exchanges the source sets, and starts a slew of D at RATE (D not 0: ACTIVE) or completes at once (D = 0: DONE).  It is refused
with REFUSED, the tick domain left as it is, where TS1_EN is 0, a switch is active, a step is pending on either timescale, or |D|
exceeds LIMIT and at most 1,000,000 ns. A switch slew completes with DONE when its ticks have passed.  TAKE clears VALID and reads 1
until the latch; the latch holds one coherent reading of both timescales and their difference. A write of TSC_CTL starts TS1 from TS0's
value and increment where TS1_EN rises, reloads it from TS0's value where it falls, and leaves the tick domain as it is otherwise; a
snapshot latched at the very tick of such a start or reload shows the readings after it.
Choices of the model that it rests on: log entries 79 and 97.
(Rests on 02_timescale.md.) -/
def Obligations.SwitchAndSnapshot : Prop :=
  (∀ (s : State) (w : Word),
      s.rd R.TSC_CTL_TS1_EN = 1 →
      s.rd R.TSC_SWITCH_CTL_ACTIVE ≠ 1 →
      s.rd (R.TSC_STEP_CTL_PENDING 0) ≠ 1 →
      s.rd (R.TSC_STEP_CTL_PENDING 1) ≠ 1 →
      s.tsDiff.natAbs ≤ min 1000000 (s.rd R.TSC_SWITCH_LIM_LIMIT) * 65536 →
      ∃ t, Sys2Proof.Machine.exec (.switchGo w) s = .next t ∧
        t.tick.bank0.incr = s.tick.bank1.incr ∧
        t.tick.bank0.ts = s.tick.bank0.ts ∧
        t.tick.bank1.ts = s.tick.bank1.ts ∧
        t.tick.bank1.incr = s.tick.bank1.incr ∧
        t.tick.bank1.slew = s.tick.bank1.slew ∧
        (∀ i : Fin 16, t.rd (R.ENS_SLOT_CFG_SET i.val) = 1 - s.rd (R.ENS_SLOT_CFG_SET i.val)) ∧
        (s.rd (R.TSC_SLEW_CTL_ACTIVE 0) = 1 → t.rd (R.TSC_SLEW_CTL_ACTIVE 0) = 0 ∧ t.rd (R.TSC_SLEW_CTL_ABORTED 0) = 1) ∧
        (s.tsDiff = 0 → t.rd R.TSC_SWITCH_CTL_DONE = 1 ∧ t.rd R.TSC_SWITCH_CTL_ACTIVE = s.rd R.TSC_SWITCH_CTL_ACTIVE) ∧
        (s.tsDiff ≠ 0 → t.rd R.TSC_SWITCH_CTL_ACTIVE = 1 ∧ t.tick.bank0.slew = Slew.make s.tsDiff (800 * ceilDiv (s.tsDiff.natAbs * 10000) (max 1 (min 100 (R.TSC_SWITCH_CTL_RATE.of w.toNat)) * 65536))) ∧
        Touches [.tick, .ens, .log, .regs .tsc, .regs .ens, .regs .wch] s t) ∧
  (∀ (s : State) (w : Word),
      (s.rd R.TSC_CTL_TS1_EN ≠ 1 ∨ s.rd R.TSC_SWITCH_CTL_ACTIVE = 1 ∨ s.rd (R.TSC_STEP_CTL_PENDING 0) = 1 ∨ s.rd (R.TSC_STEP_CTL_PENDING 1) = 1 ∨ min 1000000 (s.rd R.TSC_SWITCH_LIM_LIMIT) * 65536 < s.tsDiff.natAbs) →
      ∃ t, Sys2Proof.Machine.exec (.switchGo w) s = .next t ∧
        t.rd R.TSC_SWITCH_CTL_REFUSED = 1 ∧
        t.rd R.TSC_SWITCH_CTL_ACTIVE = s.rd R.TSC_SWITCH_CTL_ACTIVE ∧
        Frame Reg.TSC_SWITCH_CTL.fields [] s t) ∧
  (∀ (s : State),
      s.rd R.TSC_SWITCH_CTL_ACTIVE = 1 →
      ∃ t, Sys2Proof.Machine.exec (.switchDone) s = .next t ∧
        t.tick = (s.advance (s.tick.bank0.slew.n - s.tick.bank0.slew.k)).tick.setBank .ts0 { s.tick.bank0.run (s.tick.bank0.slew.n - s.tick.bank0.slew.k) with slew := {} } ∧
        t.rd R.TSC_SWITCH_CTL_ACTIVE = 0 ∧
        t.rd R.TSC_SWITCH_CTL_DONE = 1 ∧
        Frame [R.TSC_SWITCH_CTL_ACTIVE, R.TSC_SWITCH_CTL_DONE] [.tick, .lanes] s t) ∧
  (∀ (s : State) (w : Word),
      s.rd R.TSC_SNAP_CTL_TAKE ≠ 1 →
      ∃ t, Sys2Proof.Machine.exec (.snapTake w) s = .next t ∧
        t.tick = { s.tick with takeAt := s.tick.count } ∧
        t.rd R.TSC_SNAP_CTL_TAKE = 1 ∧
        t.rd R.TSC_SNAP_CTL_VALID = 0 ∧
        Frame [R.TSC_SNAP_CTL_TAKE, R.TSC_SNAP_CTL_VALID] [.tick] s t) ∧
  (∀ (s : State),
      s.rd R.TSC_SNAP_CTL_TAKE = 1 →
      ∃ t, Sys2Proof.Machine.exec (.snapLatch) s = .next t ∧
        t.tick = { (s.waitTick (s.tick.takeAt + 2)).tick with latchAt := some t.tick.count } ∧
        t.tick.count = max s.tick.count (s.tick.takeAt + 2) ∧
        t.SnapShows ∧
        t.rd R.TSC_SNAP_CTL_TAKE = 0 ∧
        t.rd R.TSC_SNAP_CTL_VALID = 1 ∧
        Frame (R.TSC_SNAP_CTL_TAKE :: R.TSC_SNAP_CTL_VALID :: snapFields) [.tick, .lanes] s t) ∧
  (∀ (s : State) (w : Word),
      ∃ t, Sys2Proof.Machine.exec (.ts1Enable w) s = .next t ∧
        (t.tick = (if R.TSC_CTL_TS1_EN.of w.toNat = 1 ∧ s.rd R.TSC_CTL_TS1_EN ≠ 1 then s.tick.setBank .ts1 { s.tick.bank1.load s.tick.bank0.ts with incr := s.tick.bank0.incr } else if R.TSC_CTL_TS1_EN.of w.toNat ≠ 1 ∧ s.rd R.TSC_CTL_TS1_EN = 1 then s.tick.setBank .ts1 (s.tick.bank1.load s.tick.bank0.ts) else s.tick)) ∧
        t.rd R.TSC_CTL_OWN0 = R.TSC_CTL_OWN0.of w.toNat ∧
        t.rd R.TSC_CTL_OWN1 = R.TSC_CTL_OWN1.of w.toNat ∧
        t.rd R.TSC_CTL_TS1_EN = R.TSC_CTL_TS1_EN.of w.toNat ∧
        t.rd R.TSC_CTL_SLEW_MAX = R.TSC_CTL_SLEW_MAX.of w.toNat ∧
        (s.tick.latchAt ≠ some s.tick.count → Frame Reg.TSC_CTL.fields [.tick] s t) ∧
        (s.tick.latchAt = some s.tick.count → R.TSC_CTL_TS1_EN.of w.toNat ≠ s.rd R.TSC_CTL_TS1_EN → t.SnapShows) ∧
        Frame (Reg.TSC_CTL.fields ++ snapFields) [.tick] s t) ∧
  (∀ (s : State) (w : Word),
      ∃ t, Sys2Proof.Machine.exec (.ownershipChange w) s = .next t ∧
        (t.tick = (if R.TSC_CTL_TS1_EN.of w.toNat = 1 ∧ s.rd R.TSC_CTL_TS1_EN ≠ 1 then s.tick.setBank .ts1 { s.tick.bank1.load s.tick.bank0.ts with incr := s.tick.bank0.incr } else if R.TSC_CTL_TS1_EN.of w.toNat ≠ 1 ∧ s.rd R.TSC_CTL_TS1_EN = 1 then s.tick.setBank .ts1 (s.tick.bank1.load s.tick.bank0.ts) else s.tick)) ∧
        t.rd R.TSC_CTL_OWN0 = R.TSC_CTL_OWN0.of w.toNat ∧
        t.rd R.TSC_CTL_OWN1 = R.TSC_CTL_OWN1.of w.toNat ∧
        t.rd R.TSC_CTL_TS1_EN = R.TSC_CTL_TS1_EN.of w.toNat ∧
        t.rd R.TSC_CTL_SLEW_MAX = R.TSC_CTL_SLEW_MAX.of w.toNat ∧
        (s.tick.latchAt ≠ some s.tick.count → Frame Reg.TSC_CTL.fields [.tick] s t) ∧
        (s.tick.latchAt = some s.tick.count → R.TSC_CTL_TS1_EN.of w.toNat ≠ s.rd R.TSC_CTL_TS1_EN → t.SnapShows) ∧
        Frame (Reg.TSC_CTL.fields ++ snapFields) [.tick] s t)

/-- UTC_OFS_WRITE, LEAP_ARM, LEAP_CANCEL, LEAP_WARN, LEAP_SECOND_START, LEAP_OFS_CHANGE, SMEAR_START, SMEAR_END.  An offset write while no
leap is armed takes effect and sets VALID, while one is armed is discarded with REFUSED.  Arming latches KIND and SMEAR as written and
sets ARMED where the instant is a multiple of 86,400, at least 1 s ahead, KIND is 1 or 2 and VALID is set (SMEAR_LATE in place of smear
once T_s has passed), else REFUSED. A cancel before the last second and before smearing ends the leap, later it is REFUSED.  At each
instant the indications change, OFS moves by one, and without smear the leap completes with DONE; with smear it completes at T_s +
86,400 s.  Where a step due at the tick of such an instant takes TS0 back before it, only the time to it passes. A leap that completes is
kept, so that instants before its end convert as they did; an offset written ends that, and every instant converts by it.
Choices of the model that it rests on: log entries 22, 92 and 94.
(Rests on
02_timescale.md; the choice in log entry 103.) -/
def Obligations.UtcAndLeaps : Prop :=
  (∀ (s : State) (w : Word),
      s.rd R.TSC_LEAP_CTL_ARMED ≠ 1 →
      ∃ t, Sys2Proof.Machine.exec (.utcOfsWrite w) s = .next t ∧
        t.rd R.TSC_UTC_OFS_OFS = w.toNat % 65536 ∧
        t.rd R.TSC_UTC_OFS_VALID = 1 ∧
        t.tick = { s.tick with past := {}, leap := { s.tick.leap with back := s.tick.leap.ofsDone } } ∧
        (∀ x, t.ofsAt x = t.utcOfs) ∧
        Frame [R.TSC_UTC_OFS_OFS, R.TSC_UTC_OFS_VALID] [.tick] s t) ∧
  (∀ (s : State) (w : Word),
      s.rd R.TSC_LEAP_CTL_ARMED = 1 →
      ∃ t, Sys2Proof.Machine.exec (.utcOfsWrite w) s = .next t ∧
        t.rd R.TSC_LEAP_CTL_REFUSED = 1 ∧
        Frame [R.TSC_LEAP_CTL_REFUSED] [] s t) ∧
  (∀ (s : State) (w : Word),
      s.rd R.TSC_LEAP_CTL_ARMED ≠ 1 →
      s.leapUtc % 86400 = 0 →
      (s.ts0 : Int) - s.utcOfs * 65536000000000 + 65536000000000 ≤ (s.leapUtc : Int) * 65536000000000 →
      (R.TSC_LEAP_CTL_KIND.of w.toNat = 1 ∨ R.TSC_LEAP_CTL_KIND.of w.toNat = 2) →
      s.rd R.TSC_UTC_OFS_VALID = 1 →
      ∃ t, Sys2Proof.Machine.exec (.leapArm w) s = .next t ∧
        t.rd R.TSC_LEAP_CTL_ARMED = 1 ∧
        t.rd R.TSC_LEAP_CTL_ARM = 1 ∧
        t.tick.leap.kind = R.TSC_LEAP_CTL_KIND.of w.toNat ∧
        t.tick.leap.ofsDone = false ∧
        t.tick.leap.smear = (R.TSC_LEAP_CTL_SMEAR.of w.toNat = 1 ∧ s.ts0 < sec16 ((s.leapUtc : Int) - 43200 + s.utcOfs).toNat : Bool) ∧
        (R.TSC_LEAP_CTL_SMEAR.of w.toNat = 1 → sec16 ((s.leapUtc : Int) - 43200 + s.utcOfs).toNat ≤ s.ts0 → t.rd R.TSC_LEAP_CTL_SMEAR_LATE = 1) ∧
        t.tick.count = s.tick.count ∧
        t.tick.bank0 = s.tick.bank0 ∧
        t.tick.bank1 = s.tick.bank1 ∧
        Frame Reg.TSC_LEAP_CTL.fields [.tick] s t) ∧
  (∀ (s : State) (w : Word),
      s.rd R.TSC_LEAP_CTL_ARMED ≠ 1 →
      (s.leapUtc % 86400 ≠ 0 ∨ (s.leapUtc : Int) * 65536000000000 < (s.ts0 : Int) - s.utcOfs * 65536000000000 + 65536000000000 ∨ R.TSC_LEAP_CTL_KIND.of w.toNat = 0 ∨ R.TSC_LEAP_CTL_KIND.of w.toNat = 3 ∨ s.rd R.TSC_UTC_OFS_VALID ≠ 1) →
      ∃ t, Sys2Proof.Machine.exec (.leapArm w) s = .next t ∧
        t.rd R.TSC_LEAP_CTL_REFUSED = 1 ∧
        t.rd R.TSC_LEAP_CTL_ARM = 0 ∧
        t.rd R.TSC_LEAP_CTL_ARMED = s.rd R.TSC_LEAP_CTL_ARMED ∧
        Frame Reg.TSC_LEAP_CTL.fields [] s t) ∧
  (∀ (s : State) (w : Word),
      s.rd R.TSC_LEAP_CTL_ARMED = 1 →
      s.rd R.TSC_LEAP_CTL_SMEARING ≠ 1 →
      s.ts0 < s.leapLast →
      ∃ t, Sys2Proof.Machine.exec (.leapCancel w) s = .next t ∧
        t.rd R.TSC_LEAP_CTL_ARM = 0 ∧
        t.rd R.TSC_LEAP_CTL_ARMED = 0 ∧
        t.rd R.TSC_LEAP_CTL_WARN = 0 ∧
        t.rd R.TSC_LEAP_CTL_IN_LEAP = 0 ∧
        Frame Reg.TSC_LEAP_CTL.fields [] s t) ∧
  (∀ (s : State) (w : Word),
      s.rd R.TSC_LEAP_CTL_ARMED = 1 →
      (s.rd R.TSC_LEAP_CTL_SMEARING = 1 ∨ s.leapLast ≤ s.ts0) →
      ∃ t, Sys2Proof.Machine.exec (.leapCancel w) s = .next t ∧
        t.rd R.TSC_LEAP_CTL_REFUSED = 1 ∧
        t.rd R.TSC_LEAP_CTL_ARMED = 1 ∧
        t.rd R.TSC_LEAP_CTL_ARM = 1 ∧
        Frame Reg.TSC_LEAP_CTL.fields [] s t) ∧
  (∀ (s : State),
      s.rd R.TSC_LEAP_CTL_ARMED = 1 →
      s.tick.leap.ofsDone = false →
      s.comesTo (sec16 ((s.leapUtc : Int) - 86400 + s.utcOfs).toNat) = true →
      ∃ t, Sys2Proof.Machine.exec (.leapWarn) s = .next t ∧
        t.tick = (s.waitTs0 (sec16 ((s.leapUtc : Int) - 86400 + s.utcOfs).toNat)).tick ∧
        t.rd R.TSC_LEAP_CTL_WARN = 1 ∧
        Frame [R.TSC_LEAP_CTL_WARN] [.tick, .lanes] s t) ∧
  (∀ (s : State),
      s.rd R.TSC_LEAP_CTL_ARMED = 1 →
      s.tick.leap.ofsDone = false →
      s.tick.leap.kind = 1 →
      s.comesTo (sec16 ((s.leapUtc : Int) + s.utcOfs).toNat) = true →
      ∃ t, Sys2Proof.Machine.exec (.leapSecondStart) s = .next t ∧
        t.tick = (s.waitTs0 (sec16 ((s.leapUtc : Int) + s.utcOfs).toNat)).tick ∧
        t.rd R.TSC_LEAP_CTL_IN_LEAP = 1 ∧
        Frame [R.TSC_LEAP_CTL_IN_LEAP] [.tick, .lanes] s t) ∧
  (∀ (s : State),
      s.rd R.TSC_LEAP_CTL_ARMED = 1 →
      s.tick.leap.ofsDone = false →
      s.comesTo (sec16 ((s.leapUtc : Int) + (if s.tick.leap.kind = 1 then 1 else -1) + s.utcOfs).toNat) = true →
      ∃ t, Sys2Proof.Machine.exec (.leapOfsChange) s = .next t ∧
        (t.tick.bank0 = (s.waitTs0 (sec16 ((s.leapUtc : Int) + (if s.tick.leap.kind = 1 then 1 else -1) + s.utcOfs).toNat)).tick.bank0) ∧
        t.tick.leap.ofsDone = true ∧
        t.tick.leap.ofsOld = s.utcOfs ∧
        (t.rd R.TSC_UTC_OFS_OFS = ofSigned 16 (s.utcOfs + (if s.tick.leap.kind = 1 then 1 else -1))) ∧
        t.rd R.TSC_LEAP_CTL_WARN = 0 ∧
        t.rd R.TSC_LEAP_CTL_IN_LEAP = 0 ∧
        (s.tick.leap.smear = false → t.rd R.TSC_LEAP_CTL_ARMED = 0 ∧ t.rd R.TSC_LEAP_CTL_ARM = 0 ∧ t.rd R.TSC_LEAP_CTL_DONE = 1 ∧ t.tick.past = { t.tick.leap with utc := s.leapUtc }) ∧
        (s.tick.leap.smear = true → t.rd R.TSC_LEAP_CTL_ARMED = 1 ∧ t.rd R.TSC_LEAP_CTL_DONE = s.rd R.TSC_LEAP_CTL_DONE) ∧
        (IMap.get {} t.log (s.rd R.LOG_NEXT_SEQ % 131072)).event = 0x0202 ∧
        t.rd R.LOG_NEXT_SEQ = (s.rd R.LOG_NEXT_SEQ + 1) % 2 ^ 32 ∧
        Frame (R.TSC_UTC_OFS_OFS :: Reg.TSC_LEAP_CTL.fields ++ logFields) [.tick, .lanes, .log] s t) ∧
  (∀ (s : State),
      s.rd R.TSC_LEAP_CTL_ARMED = 1 →
      s.tick.leap.smear = true →
      s.comesTo (s.smearFrom) = true →
      ∃ t, Sys2Proof.Machine.exec (.smearStart) s = .next t ∧
        t.tick = (s.waitTs0 s.smearFrom).tick ∧
        t.rd R.TSC_LEAP_CTL_SMEARING = 1 ∧
        Frame [R.TSC_LEAP_CTL_SMEARING] [.tick, .lanes] s t) ∧
  (∀ (s : State),
      s.rd R.TSC_LEAP_CTL_SMEARING = 1 →
      s.comesTo (s.smearFrom + sec16 86400) = true →
      ∃ t, Sys2Proof.Machine.exec (.smearEnd) s = .next t ∧
        t.tick = { (s.waitTs0 (s.smearFrom + sec16 86400)).tick with past := { s.tick.leap with utc := s.leapUtc } } ∧
        t.rd R.TSC_LEAP_CTL_SMEARING = 0 ∧
        t.rd R.TSC_LEAP_CTL_ARM = 0 ∧
        t.rd R.TSC_LEAP_CTL_ARMED = 0 ∧
        t.rd R.TSC_LEAP_CTL_DONE = 1 ∧
        Frame Reg.TSC_LEAP_CTL.fields [.tick, .lanes] s t) ∧
  (∀ (s : State) (i : Instr) (x : Nat),
      s.rd R.TSC_LEAP_CTL_ARMED = 1 →
      (i = .leapWarn ∧ s.tick.leap.ofsDone = false ∧ x = sec16 ((s.leapUtc : Int) - 86400 + s.utcOfs).toNat ∨
        i = .leapSecondStart ∧ s.tick.leap.ofsDone = false ∧ s.tick.leap.kind = 1 ∧ x = sec16 ((s.leapUtc : Int) + s.utcOfs).toNat ∨
        i = .leapOfsChange ∧ s.tick.leap.ofsDone = false ∧ x = sec16 ((s.leapUtc : Int) + (if s.tick.leap.kind = 1 then 1 else -1) + s.utcOfs).toNat ∨
        i = .smearStart ∧ s.tick.leap.smear = true ∧ x = s.smearFrom ∨
        i = .smearEnd ∧ s.rd R.TSC_LEAP_CTL_SMEARING = 1 ∧ x = s.smearFrom + sec16 86400) →
      s.comesTo x = false →
      ∃ t, Sys2Proof.Machine.exec i s = .next t ∧ t.tick = (s.waitTs0 x).tick ∧ Frame [] [.tick, .lanes] s t)

/-- EPOCH_MARKER, LANE_PULSE_RX, LANE_PULSE_MISS, LANE_RETURN, LANE_LOCK, COAST_LIMIT.  A marker comes at the next multiple of 8,192 ticks,
counts towards pending steps, and hands each lane not OFF the Keeper time, the increment with a running slew's share (log entry 97) and
the delay of the pulse.  A received pulse writes
its offset e and counts the good run (|e| within 20 ps: one more, saturating; else 0); the first after OFF loads the slave with T_k + d.
A pulse further out than 100 ps moves a LOCKED lane to COASTING, its increment held within 10 ppm. A missing pulse is counted, breaks the
run, and moves a LOCKED lane to COASTING with its event and record. The returned pulse, stamped on the lane's interval channel, gives the
lane delay. 16 good pulses (4 from COASTING) lock the lane, and COAST_LIMIT cycles of COASTING fault it.
Choices of the model that it rests on: log entries 7, 15, 16, 17, 19 and 78.
(Rests on 01_architecture.md.) -/
def Obligations.TimeLanes : Prop :=
  (∀ (s : State),
      ∃ t, Sys2Proof.Machine.exec (.epochMarker) s = .next t ∧
        t.tick.markerAt = some (((s.tick.markerAt.getD 0) / 8192 + 1) * 8192) ∧
        t.tick.count = max s.tick.count (((s.tick.markerAt.getD 0) / 8192 + 1) * 8192) ∧
        t.tick.bank0.stepMarkers = s.tick.bank0.stepMarkers - 1 ∧
        t.tick.bank1.stepMarkers = s.tick.bank1.stepMarkers - 1 ∧
        (∀ n : Fin 4, s.laneState n.val ≠ 0 → (t.lane n.val).pulseTime = t.ts0 ∧ (t.lane n.val).pulseIncr = ((t.tick.bank0.incr : Int) + t.tick.bank0.slew.give 1).toNat ∧ (t.lane n.val).pulseDelay = s.rd (R.TSC_LANE_DLY_DLY n.val)) ∧
        Touches [.tick, .lanes, .ens, .log, .stack, .regs .ens, .regs .mor, .regs .wch] s t) ∧
  (∀ (s : State) (n : Fin 4) (sub : Nat),
      let e : Int := nearTs (((s.slaveTime n.val + sub : Nat) : Int) - (((s.lane n.val).pulseTime + (s.lane n.val).pulseDelay : Nat) : Int))
      s.laneState n.val ≠ 0 →
      (s.lane n.val).loaded = true →
      e.natAbs ≤ 6553 →
      ∃ t, Sys2Proof.Machine.exec (.lanePulseRx n sub) s = .next t ∧
        t.rd (R.TSC_LANE_OFS_OFS n.val) = satBits 32 e ∧
        (t.rd (R.TSC_LANE_STAT_GOOD_RUN n.val) = (if e.natAbs ≤ 1310 then satNat 8 (s.rd (R.TSC_LANE_STAT_GOOD_RUN n.val) + 1) else 0)) ∧
        t.laneState n.val = s.laneState n.val ∧
        (t.lane n.val).slave = (s.lane n.val).slave ∧
        (s.laneState n.val < 3 → ((t.lane n.val).slaveIncr : Int) = max 0 ((s.lane n.val).pulseIncr + Config.lanePi e ((s.lane n.val).piSum + e))) ∧
        Frame [R.TSC_LANE_OFS_OFS n.val, R.TSC_LANE_STAT_GOOD_RUN n.val, R.TSC_LANE_STAT_COAST_RUN n.val] [.lanes] s t) ∧
  (∀ (s : State) (n : Fin 4) (sub : Nat),
      s.laneState n.val ≠ 0 →
      (s.lane n.val).loaded = false →
      ∃ t, Sys2Proof.Machine.exec (.lanePulseRx n sub) s = .next t ∧
        (t.lane n.val).loaded = true ∧
        (t.lane n.val).slave = ((s.lane n.val).pulseTime + (s.lane n.val).pulseDelay) * 2 ^ 32 % wrapTs ∧
        t.rd (R.TSC_LANE_OFS_OFS n.val) = 0 ∧
        Frame [R.TSC_LANE_OFS_OFS n.val, R.TSC_LANE_STAT_GOOD_RUN n.val, R.TSC_LANE_STAT_COAST_RUN n.val] [.lanes] s t) ∧
  (∀ (s : State) (n : Fin 4) (sub : Nat),
      let e : Int := nearTs (((s.slaveTime n.val + sub : Nat) : Int) - (((s.lane n.val).pulseTime + (s.lane n.val).pulseDelay : Nat) : Int))
      s.laneState n.val = 2 →
      (s.lane n.val).loaded = true →
      6553 < e.natAbs →
      ∃ t, Sys2Proof.Machine.exec (.lanePulseRx n sub) s = .next t ∧
        t.rd (R.TSC_LANE_OFS_OFS n.val) = satBits 32 e ∧
        t.rd (R.TSC_LANE_STAT_GOOD_RUN n.val) = 0 ∧
        t.rd (R.TSC_LANE_ERR_OUT_OF_BOUND n.val) = satNat 16 (s.rd (R.TSC_LANE_ERR_OUT_OF_BOUND n.val) + 1) ∧
        t.laneState n.val = 3 ∧
        (t.lane n.val).slaveIncr ≤ (s.lane n.val).pulseIncr + (s.lane n.val).pulseIncr / 100000 ∧
        (s.lane n.val).pulseIncr ≤ (t.lane n.val).slaveIncr + (s.lane n.val).pulseIncr / 100000 ∧
        Touches [.lanes, .ens, .log, .regs .dev, .regs .ens, .regs .wch, .regs .nts, .regs .lane] s t) ∧
  (∀ (s : State) (n : Fin 4),
      s.laneState n.val ≠ 0 →
      ∃ t, Sys2Proof.Machine.exec (.lanePulseMiss n) s = .next t ∧
        t.rd (R.TSC_LANE_ERR_MISSED n.val) = satNat 16 (s.rd (R.TSC_LANE_ERR_MISSED n.val) + 1) ∧
        t.rd (R.TSC_LANE_STAT_GOOD_RUN n.val) = 0 ∧
        (t.laneState n.val = (if s.laneState n.val = 2 then 3 else s.laneState n.val)) ∧
        (s.laneState n.val = 2 → t.rd (R.TSC_LANE_STAT_COAST_RUN n.val) = 1 ∧ t.rd R.DEV_LANE_EVT_COAST = (s.rd R.DEV_LANE_EVT_COAST ||| 2 ^ n.val) % 16 ∧ (IMap.get {} t.log (s.rd R.LOG_NEXT_SEQ % 131072)).event = 0x0002) ∧
        (3 ≤ s.laneState n.val → t.rd (R.TSC_LANE_STAT_COAST_RUN n.val) = satNat 16 (s.rd (R.TSC_LANE_STAT_COAST_RUN n.val) + 1)) ∧
        Touches [.lanes, .ens, .log, .regs .dev, .regs .ens, .regs .wch, .regs .nts, .regs .lane] s t) ∧
  (∀ (s : State) (n : Fin 4) (dc : Nat) (bin : Fin 64),
      s.laneState n.val ≠ 0 →
      ∃ t, Sys2Proof.Machine.exec (.laneReturn n dc bin) s = .next t ∧
        (let c := s.coarseNow + dc
        let tRet := ((s.waitTick (tickOfCoarse c)).capture (65 + n.val) c bin.val false).time
        t.tick = (s.waitTick (tickOfCoarse c)).tick ∧
          t.rd (R.TSC_LANE_DLY_DLY n.val) = satNat 32 (rnd (mkRat ((tRet : Int) - ((s.lane n.val).pulseTime : Int) - Config.laneTurn n.val) 2) + Config.laneAsym n.val).toNat) ∧
        Frame [R.TSC_LANE_DLY_DLY n.val] [.tick, .lanes, .tim] s t) ∧
  (∀ (s : State) (n : Fin 4),
      ((s.laneState n.val = 3 ∧ 4 ≤ s.rd (R.TSC_LANE_STAT_GOOD_RUN n.val)) ∨ ((s.laneState n.val = 1 ∨ s.laneState n.val = 4) ∧ 16 ≤ s.rd (R.TSC_LANE_STAT_GOOD_RUN n.val))) →
      ∃ t, Sys2Proof.Machine.exec (.laneLock n) s = .next t ∧
        t.laneState n.val = 2 ∧
        t.rd (R.TSC_LANE_STAT_COAST_RUN n.val) = 0 ∧
        Touches [.lanes, .regs .nts, .regs .lane] s t) ∧
  (∀ (s : State) (n : Fin 4),
      s.laneState n.val = 3 →
      max 1 (s.rd (R.TSC_LANE_CTL_COAST_LIMIT n.val)) ≤ s.rd (R.TSC_LANE_STAT_COAST_RUN n.val) →
      s.rd (R.TSC_LANE_STAT_GOOD_RUN n.val) < 4 →
      ∃ t, Sys2Proof.Machine.exec (.coastLimit n) s = .next t ∧
        t.laneState n.val = 4 ∧
        t.rd R.DEV_LANE_EVT_FAULT = (s.rd R.DEV_LANE_EVT_FAULT ||| 2 ^ n.val) % 16 ∧
        (IMap.get {} t.log (s.rd R.LOG_NEXT_SEQ % 131072)).event = 0x0003 ∧
        t.rd (R.TSC_LANE_STAT_COAST_RUN n.val) = s.rd (R.TSC_LANE_STAT_COAST_RUN n.val) ∧
        Frame ([R.TSC_LANE_STAT_STATE n.val, R.DEV_LANE_EVT_FAULT] ++ logFields) [.log] s t)

/-- SLOT_LOSS, SLOT_QUALIFY, SLOT_CONSISTENT, CARRY_EXPIRE, REEST_COMPLETE.  Time runs to the instant the event names (it acts at once where
that has passed).  A QUALIFYING, QUALIFIED or SUSPECT slot without a sample for LOSS goes to ABSENT with cause LOSS; a QUALIFYING slot
that meets the condition of its engine state, and a SUSPECT slot consistent for CONSIST with no re-estimation running and, phase-only, its
time held, become QUALIFIED unless the mean offset of the slots that meet their conditions is held, and where it is held they keep their
state with HELD and the decision pending; a phase-only QUALIFIED slot whose CARRY has run out goes to QUALIFYING with cause NO_TIME; re-estimation adds the mean of x - theta to ASYM and clears REEST and
ASYM_SUSPECT.  A change of state sets SRC in ENS_EVT and writes record 0x0302 with the old and new state.
Choices of the model that it rests on: log entries 80, 81, 83, 97 and 104.
(Rests on 03_ensemble.md.) -/
def Obligations.SourceStates : Prop :=
  (∀ (s : State) (i : Fin 16),
      let u : State := s.waitClk ((s.slot i.val).newestAt + s.lossTime i.val)
      s.src i.val ≠ .absent →
      s.src i.val ≠ .quarantined →
      (i.val < 2 → s.gnss.lossHeld = false) →
      u.elapsed (s.slot i.val).newestAt (s.lossTime i.val) = true →
      ∃ t, Sys2Proof.Machine.exec (.slotLoss i) s = .next t ∧
        t.src i.val = .absent ∧
        t.rd (R.ENS_SLOT_STAT_CAUSE i.val) = 1 ∧
        bit (t.rd R.ENS_STAT_QUAL) i.val = false ∧
        (IMap.get {} t.log (s.rd R.LOG_NEXT_SEQ % 131072)).event = 0x0302 ∧
        (IMap.get {} t.log (s.rd R.LOG_NEXT_SEQ % 131072)).data = [(s.src i.val).code, 0, 1] ∧
        bit (t.rd R.ENS_EVT_BITS) 1 = true ∧
        t.tick = u.tick ∧
        Frame ([R.ENS_SLOT_STAT_STATE i.val, R.ENS_SLOT_STAT_CAUSE i.val, R.ENS_SLOT_STAT_HELD i.val, R.ENS_SLOT_STAT_REEST i.val, R.ENS_STAT_QUAL, R.ENS_EVT_BITS] ++ logFields) [.tick, .lanes, .ens, .log] s t) ∧
  (∀ (s : State) (i : Fin 16),
      let u : State := s.waitClk ((s.slot i.val).clock + sec16 (s.rd (R.ENS_SLOT_TIME_QUAL i.val)))
      let b := u.slotBank i.val
      let is := (u.setOf b).filter (fun j => j = i.val || u.ready b (u.qualifiedOf b) j)
      s.src i.val = .qualifying →
      (i.val < 2 → s.gnss.lossHeld = false) →
      u.qualifies b i.val = true →
      (u.holds b && decide (|u.meanOffset is| > u.band2)) = false →
      ∃ t, Sys2Proof.Machine.exec (.slotQualify i) s = .next t ∧
        t.src i.val = .qualified ∧
        bit (t.rd R.ENS_STAT_QUAL) i.val = true ∧
        t.rd (R.ENS_SLOT_STAT_CAUSE i.val) = s.rd (R.ENS_SLOT_STAT_CAUSE i.val) ∧
        (IMap.get {} t.log (s.rd R.LOG_NEXT_SEQ % 131072)).data = [1, 2, s.rd (R.ENS_SLOT_STAT_CAUSE i.val)] ∧
        bit (t.rd R.ENS_EVT_BITS) 1 = true ∧
        t.tick = u.tick ∧
        Frame ([R.ENS_SLOT_STAT_STATE i.val, R.ENS_SLOT_STAT_CAUSE i.val, R.ENS_SLOT_STAT_HELD i.val, R.ENS_SLOT_STAT_REEST i.val, R.ENS_STAT_QUAL, R.ENS_EVT_BITS] ++ logFields) [.tick, .lanes, .ens, .log] s t) ∧
  (∀ (s : State) (i : Fin 16),
      let u : State := s.waitClk ((s.slot i.val).clock + sec16 (s.rd (R.ENS_SLOT_TIME_QUAL i.val)))
      let b := u.slotBank i.val
      let is := (u.setOf b).filter (fun j => j = i.val || u.ready b (u.qualifiedOf b) j)
      s.src i.val = .qualifying →
      (i.val < 2 → s.gnss.lossHeld = false) →
      u.qualifies b i.val = true →
      (s.slot i.val).set < 2 →
      (u.holds b && decide (|u.meanOffset is| > u.band2)) = true →
      ∃ t, Sys2Proof.Machine.exec (.slotQualify i) s = .next t ∧
        t.src i.val = .qualifying ∧
        t.rd (R.ENS_SLOT_STAT_HELD i.val) = 1 ∧
        (∀ j : Fin 16, t.rd (R.ENS_SLOT_STAT_HELD j.val) = if j.val ∈ is then 1 else s.rd (R.ENS_SLOT_STAT_HELD j.val)) ∧
        t.rd (pendField (s.slotBank i.val)) = 1 ∧
        Frame (slotIds.map R.ENS_SLOT_STAT_HELD ++ [R.ENS_STAT_DECIDE_PEND, R.ENS_STAT_S1_DECIDE_PEND, R.ENS_EVT_BITS] ++ logFields) [.tick, .lanes, .ens, .log] s t) ∧
  (∀ (s : State) (i : Fin 16),
      let u : State := s.waitClk ((s.slot i.val).clock + sec16 (max 1 (s.rd R.ENS_CTL_CONSIST)))
      let b := u.slotBank i.val
      let is := (u.setOf b).filter (fun j => j = i.val || u.ready b (u.qualifiedOf b) j)
      s.src i.val = .suspect →
      (i.val < 2 → s.gnss.lossHeld = false) →
      s.rd (R.ENS_SLOT_STAT_REEST i.val) ≠ 1 →
      (timeBearing i.val = true ∨ u.carryOk b i.val = true) →
      u.elapsed (s.slot i.val).clock (sec16 (max 1 (s.rd R.ENS_CTL_CONSIST))) = true →
      (u.holds b && decide (|u.meanOffset is| > u.band2)) = false →
      ∃ t, Sys2Proof.Machine.exec (.slotConsistent i) s = .next t ∧
        t.src i.val = .qualified ∧
        bit (t.rd R.ENS_STAT_QUAL) i.val = true ∧
        (IMap.get {} t.log (s.rd R.LOG_NEXT_SEQ % 131072)).data = [3, 2, s.rd (R.ENS_SLOT_STAT_CAUSE i.val)] ∧
        bit (t.rd R.ENS_EVT_BITS) 1 = true ∧
        t.tick = u.tick ∧
        Frame ([R.ENS_SLOT_STAT_STATE i.val, R.ENS_SLOT_STAT_CAUSE i.val, R.ENS_SLOT_STAT_HELD i.val, R.ENS_SLOT_STAT_REEST i.val, R.ENS_STAT_QUAL, R.ENS_EVT_BITS] ++ logFields) [.tick, .lanes, .ens, .log] s t) ∧
  (∀ (s : State) (i : Fin 16) (left : Nat),
      let u : State := s.waitClk (left + sec16 (s.rd (R.ENS_SLOT_LIM_CARRY i.val)))
      timeBearing i.val = false →
      s.src i.val = .qualified →
      (s.filter (s.slotBank i.val)).timeLeft = some left →
      s.timeHeld (s.slotBank i.val) = false →
      left + sec16 (s.rd (R.ENS_SLOT_LIM_CARRY i.val)) ≤ u.clk →
      ∃ t, Sys2Proof.Machine.exec (.carryExpire i) s = .next t ∧
        t.src i.val = .qualifying ∧
        t.rd (R.ENS_SLOT_STAT_CAUSE i.val) = 6 ∧
        (IMap.get {} t.log (s.rd R.LOG_NEXT_SEQ % 131072)).data = [2, 1, 6] ∧
        (t.slot i.val).bias = (s.slot i.val).bias ∧
        t.tick = u.tick ∧
        Frame ([R.ENS_SLOT_STAT_STATE i.val, R.ENS_SLOT_STAT_CAUSE i.val, R.ENS_SLOT_STAT_HELD i.val, R.ENS_SLOT_STAT_REEST i.val, R.ENS_STAT_QUAL, R.ENS_EVT_BITS] ++ logFields) [.tick, .lanes, .ens, .log] s t) ∧
  (∀ (s : State) (i : Fin 16),
      let u : State := s.waitClk ((s.slot i.val).reestAt + sec16 (s.rd R.ENS_ASYM_CTL_REEST))
      s.rd (R.ENS_SLOT_STAT_REEST i.val) = 1 →
      u.elapsed (s.slot i.val).reestAt (sec16 (s.rd R.ENS_ASYM_CTL_REEST)) = true →
      ∃ t, Sys2Proof.Machine.exec (.reestComplete i) s = .next t ∧
        (t.rd (R.ENS_SLOT_ASYM_A i.val) = ofSigned 32 (satSigned 32 ((s.slot i.val).asym + (if (s.slot i.val).reestN = 0 then 0 else rnd ((s.slot i.val).reestSum / (s.slot i.val).reestN * 256))))) ∧
        t.rd (R.ENS_SLOT_STAT_REEST i.val) = 0 ∧
        t.rd (R.ENS_SLOT_STAT_ASYM_SUSPECT i.val) = 0 ∧
        (IMap.get {} t.log (s.rd R.LOG_NEXT_SEQ % 131072)).event = 0x0303 ∧
        (s.src i.val = .suspect ∧ s.rd (R.ENS_SLOT_STAT_CAUSE i.val) = 5 → t.src i.val = .qualified) ∧
        (s.src i.val = .qualifying → t.src i.val = .qualifying) ∧
        t.tick = u.tick ∧
        Frame ([R.ENS_SLOT_ASYM_A i.val, R.ENS_SLOT_STAT_ASYM_SUSPECT i.val] ++ ([R.ENS_SLOT_STAT_STATE i.val, R.ENS_SLOT_STAT_CAUSE i.val, R.ENS_SLOT_STAT_HELD i.val, R.ENS_SLOT_STAT_REEST i.val, R.ENS_STAT_QUAL, R.ENS_EVT_BITS] ++ logFields)) [.tick, .lanes, .ens, .log] s t)

/-- SLOT_ENABLE, SLOT_MOVE, SLOT_RELEASE, SLOT_QUARANTINE, CLR_ASYM, RELEARN, DECIDE_GO, ANCHOR_SELECT, ANCHOR_HOLD, ANCHOR_RETURN.  A write
of a slot's configuration stores EN and SET, and on slots 8 to 15 EN = 1 assigns the named channel or is refused (EN stays 0,
ASSIGN_ERR); on one of them already enabled the same channel stays assigned, another is assigned in place of the first or refused with
the first kept, and EN = 0 frees the channel.  Slot commands and decisions set the bit that waits for the next filter step, note their
sender for the record and change nothing else.  A change of SEL ends
an earlier fallback; a lost anchor sets HOLD and its presence begins anew; the selected anchor, present for 60 s with its slot out of
ABSENT, becomes the active one and, where that is a change, sets ANCHOR and the divider of its last measurement.
Choices of the model that it rests on: log entries 37, 38, 83, 84 and 97.
(Rests on
03_ensemble.md.) -/
def Obligations.EnsembleCommands : Prop :=
  (∀ (s : State) (i : Fin 16) (w : Word),
      i.val < 8 →
      ∃ t, Sys2Proof.Machine.exec (.slotEnable i w) s = .next t ∧
        t.rd (R.ENS_SLOT_CFG_EN i.val) = (R.ENS_SLOT_CFG_EN i.val).of w.toNat ∧
        t.rd (R.ENS_SLOT_CFG_SET i.val) = (R.ENS_SLOT_CFG_SET i.val).of w.toNat ∧
        t.rd (R.ENS_SLOT_CFG_BIAS_FIX i.val) = (R.ENS_SLOT_CFG_BIAS_FIX i.val).of w.toNat ∧
        ((t.slot i.val).enOff = ((s.slot i.val).enOff || (decide (s.rd (R.ENS_SLOT_CFG_EN i.val) = 1 ∧ (R.ENS_SLOT_CFG_EN i.val).of w.toNat ≠ 1)))) ∧
        Frame (R.ENS_SLOT_STAT_ASSIGN_ERR i.val :: (Reg.ENS_SLOT_CFG i.val).fields) [.ens] s t) ∧
  (∀ (s : State) (i : Fin 16) (w : Word),
      i.val < 8 →
      ∃ t, Sys2Proof.Machine.exec (.slotMove i w) s = .next t ∧
        t.rd (R.ENS_SLOT_CFG_EN i.val) = (R.ENS_SLOT_CFG_EN i.val).of w.toNat ∧
        t.rd (R.ENS_SLOT_CFG_SET i.val) = (R.ENS_SLOT_CFG_SET i.val).of w.toNat ∧
        t.rd (R.ENS_SLOT_CFG_BIAS_FIX i.val) = (R.ENS_SLOT_CFG_BIAS_FIX i.val).of w.toNat ∧
        ((t.slot i.val).enOff = ((s.slot i.val).enOff || (decide (s.rd (R.ENS_SLOT_CFG_EN i.val) = 1 ∧ (R.ENS_SLOT_CFG_EN i.val).of w.toNat ≠ 1)))) ∧
        Frame (R.ENS_SLOT_STAT_ASSIGN_ERR i.val :: (Reg.ENS_SLOT_CFG i.val).fields) [.ens] s t) ∧
  (∀ (s : State) (i : Fin 16) (w : Word),
      8 ≤ i.val →
      s.rd (R.ENS_SLOT_CFG_EN i.val) ≠ 1 →
      (R.ENS_SLOT_CFG_EN i.val).of w.toNat = 1 →
      s.assignable ((R.ENS_SLOT_CFG_TI_CH i.val).of w.toNat) = true →
      ∃ t, Sys2Proof.Machine.exec (.slotEnable i w) s = .next t ∧
        t.rd (R.ENS_SLOT_CFG_EN i.val) = 1 ∧
        t.rd (R.ENS_SLOT_CFG_TI_CH i.val) = (R.ENS_SLOT_CFG_TI_CH i.val).of w.toNat ∧
        t.rd (R.ENS_SLOT_CFG_SET i.val) = (R.ENS_SLOT_CFG_SET i.val).of w.toNat ∧
        t.rd (R.ENS_SLOT_STAT_ASSIGN_ERR i.val) = 0 ∧
        t.rd (R.TIM_CH_STAT_ASSIGNED ((R.ENS_SLOT_CFG_TI_CH i.val).of w.toNat)) = 1 ∧
        t.rd (R.TIM_CH_CFG_MODE ((R.ENS_SLOT_CFG_TI_CH i.val).of w.toNat)) = 0 ∧
        t.rd (R.TIM_CH_CFG_EDGE ((R.ENS_SLOT_CFG_TI_CH i.val).of w.toNat)) = 0 ∧
        Touches [.ens, .tim, .regs .ens, .regs .tim] s t) ∧
  (∀ (s : State) (i : Fin 16) (w : Word),
      8 ≤ i.val →
      s.rd (R.ENS_SLOT_CFG_EN i.val) ≠ 1 →
      (R.ENS_SLOT_CFG_EN i.val).of w.toNat = 1 →
      s.assignable ((R.ENS_SLOT_CFG_TI_CH i.val).of w.toNat) = true →
      ∃ t, Sys2Proof.Machine.exec (.slotMove i w) s = .next t ∧
        t.rd (R.ENS_SLOT_CFG_EN i.val) = 1 ∧
        t.rd (R.ENS_SLOT_CFG_TI_CH i.val) = (R.ENS_SLOT_CFG_TI_CH i.val).of w.toNat ∧
        t.rd (R.ENS_SLOT_CFG_SET i.val) = (R.ENS_SLOT_CFG_SET i.val).of w.toNat ∧
        t.rd (R.ENS_SLOT_STAT_ASSIGN_ERR i.val) = 0 ∧
        t.rd (R.TIM_CH_STAT_ASSIGNED ((R.ENS_SLOT_CFG_TI_CH i.val).of w.toNat)) = 1 ∧
        t.rd (R.TIM_CH_CFG_MODE ((R.ENS_SLOT_CFG_TI_CH i.val).of w.toNat)) = 0 ∧
        t.rd (R.TIM_CH_CFG_EDGE ((R.ENS_SLOT_CFG_TI_CH i.val).of w.toNat)) = 0 ∧
        Touches [.ens, .tim, .regs .ens, .regs .tim] s t) ∧
  (∀ (s : State) (i : Fin 16) (w : Word),
      8 ≤ i.val →
      s.rd (R.ENS_SLOT_CFG_EN i.val) ≠ 1 →
      (R.ENS_SLOT_CFG_EN i.val).of w.toNat = 1 →
      s.assignable ((R.ENS_SLOT_CFG_TI_CH i.val).of w.toNat) = false →
      ∃ t, Sys2Proof.Machine.exec (.slotEnable i w) s = .next t ∧
        t.rd (R.ENS_SLOT_CFG_EN i.val) = 0 ∧
        t.rd (R.ENS_SLOT_STAT_ASSIGN_ERR i.val) = 1 ∧
        Frame (R.ENS_SLOT_STAT_ASSIGN_ERR i.val :: (Reg.ENS_SLOT_CFG i.val).fields) [.ens] s t) ∧
  (∀ (s : State) (i : Fin 16) (w : Word) (c : Instr),
      let ch0 := s.rd (R.ENS_SLOT_CFG_TI_CH i.val)
      let ch := (R.ENS_SLOT_CFG_TI_CH i.val).of w.toNat
      let en := (R.ENS_SLOT_CFG_EN i.val).of w.toNat
      (c = .slotEnable i w ∨ c = .slotMove i w) →
      8 ≤ i.val →
      s.rd (R.ENS_SLOT_CFG_EN i.val) = 1 →
      ∃ t, Sys2Proof.Machine.exec c s = .next t ∧
        t.rd (R.ENS_SLOT_CFG_EN i.val) = en ∧
        t.rd (R.ENS_SLOT_CFG_SET i.val) = (R.ENS_SLOT_CFG_SET i.val).of w.toNat ∧
        (en = 1 → ch = ch0 → t.rd (R.ENS_SLOT_CFG_TI_CH i.val) = ch ∧ t.rd (R.ENS_SLOT_STAT_ASSIGN_ERR i.val) = 0 ∧
          Frame (R.ENS_SLOT_STAT_ASSIGN_ERR i.val :: (Reg.ENS_SLOT_CFG i.val).fields) [.ens] s t) ∧
        (en = 1 → ch ≠ ch0 → s.assignable ch = true → t.rd (R.ENS_SLOT_CFG_TI_CH i.val) = ch ∧
          t.rd (R.ENS_SLOT_STAT_ASSIGN_ERR i.val) = 0 ∧ t.rd (R.TIM_CH_STAT_ASSIGNED ch) = 1 ∧ t.rd (R.TIM_CH_STAT_ASSIGNED ch0) = 0) ∧
        (en = 1 → ch ≠ ch0 → s.assignable ch = false → t.rd (R.ENS_SLOT_CFG_TI_CH i.val) = ch0 ∧
          t.rd (R.ENS_SLOT_STAT_ASSIGN_ERR i.val) = 1 ∧
          Frame (R.ENS_SLOT_STAT_ASSIGN_ERR i.val :: (Reg.ENS_SLOT_CFG i.val).fields) [.ens] s t) ∧
        (en = 0 → (t.slot i.val).enOff = true ∧ t.rd (R.TIM_CH_STAT_ASSIGNED ch0) = 0) ∧
        Touches [.ens, .tim, .regs .ens, .regs .tim] s t) ∧
  (∀ (s : State) (i : Fin 16),
      ∃ t, Sys2Proof.Machine.exec (.slotRelease i) s = .next t ∧
        t.rd (R.ENS_SLOT_CMD_RELEASE i.val) = 1 ∧
        t.ens = (s.modSlot i.val (fun k => { k with by_ := 2 })).ens ∧
        Frame [R.ENS_SLOT_CMD_RELEASE i.val] [.ens] s t) ∧
  (∀ (s : State) (i : Fin 16),
      ∃ t, Sys2Proof.Machine.exec (.slotQuarantine i) s = .next t ∧
        t.rd (R.ENS_SLOT_CMD_QUARANTINE i.val) = 1 ∧
        t.ens = (s.modSlot i.val (fun k => { k with by_ := 2 })).ens ∧
        Frame [R.ENS_SLOT_CMD_QUARANTINE i.val] [.ens] s t) ∧
  (∀ (s : State) (i : Fin 16),
      ∃ t, Sys2Proof.Machine.exec (.clrAsym i) s = .next t ∧
        t.rd (R.ENS_SLOT_CMD_CLR_ASYM i.val) = 1 ∧
        t.ens = (s.modSlot i.val (fun k => { k with by_ := 2 })).ens ∧
        Frame [R.ENS_SLOT_CMD_CLR_ASYM i.val] [.ens] s t) ∧
  (∀ (s : State) (i : Fin 16),
      ∃ t, Sys2Proof.Machine.exec (.relearn i) s = .next t ∧
        t.rd (R.ENS_SLOT_CMD_RELEARN i.val) = 1 ∧
        t.ens = (s.modSlot i.val (fun k => { k with by_ := 2 })).ens ∧
        Frame [R.ENS_SLOT_CMD_RELEARN i.val] [.ens] s t) ∧
  (∀ (s : State) (w : Word),
      ∃ t, Sys2Proof.Machine.exec (.decideGo w) s = .next t ∧
        t.rd R.ENS_DECIDE_GO = 1 ∧
        t.rd R.ENS_DECIDE_ACTION = R.ENS_DECIDE_ACTION.of w.toNat ∧
        t.rd R.ENS_DECIDE_SET = R.ENS_DECIDE_SET.of w.toNat ∧
        t.ens = { s.ens with decideBy := 2 } ∧
        Frame Reg.ENS_DECIDE.fields [.ens] s t) ∧
  (∀ (s : State) (w : Word),
      ∃ t, Sys2Proof.Machine.exec (.anchorSelect w) s = .next t ∧
        t.rd R.ENS_ANCHOR_SEL = R.ENS_ANCHOR_SEL.of w.toNat ∧
        t.rd R.ENS_ANCHOR_ACTIVE = s.rd R.ENS_ANCHOR_ACTIVE ∧
        (t.ens = (if t.anchorSel = s.anchorSel then s.ens else { s.ens with anchorFall := false })) ∧
        Frame Reg.ENS_ANCHOR.fields [.ens] s t) ∧
  (∀ (s : State),
      ∃ t, Sys2Proof.Machine.exec (.anchorHold) s = .next t ∧
        t.rd R.ENS_ANCHOR_HOLD = 1 ∧
        t.ens = { s.ens with anchorSince := IMap.put 0 s.ens.anchorSince (s.rd R.ENS_ANCHOR_ACTIVE) s.clk } ∧
        Frame [R.ENS_ANCHOR_HOLD] [.ens] s t) ∧
  (∀ (s : State),
      s.ens.anchorFall = true →
      s.candidate s.anchorSel = true →
      (s.anchorSel ≠ 0 → s.src (s.anchorSel + 1) ≠ .absent) →
      ∃ t, Sys2Proof.Machine.exec (.anchorReturn) s = .next t ∧
        t.rd R.ENS_ANCHOR_ACTIVE = s.anchorSel ∧
        t.rd R.ENS_ANCHOR_HOLD = 0 ∧
        t.ens = { s.ens with anchorFall := false, divider := if s.rd R.ENS_ANCHOR_ACTIVE = s.anchorSel then s.ens.divider else IMap.get none s.ens.clockHz s.anchorSel, recKept := if s.rd R.ENS_ANCHOR_ACTIVE = s.anchorSel then s.ens.recKept else [] } ∧
        t.tick = (s.waitClk (IMap.get 0 s.ens.anchorSince s.anchorSel + sec16 60)).tick ∧
        (s.rd R.ENS_ANCHOR_ACTIVE ≠ s.anchorSel → bit (t.rd R.ENS_EVT_BITS) 6 = true) ∧
        Frame [R.ENS_ANCHOR_ACTIVE, R.ENS_ANCHOR_HOLD, R.ENS_EVT_BITS] [.tick, .lanes, .ens] s t)

/-- SOURCE_SAMPLE, FILTER_STEP, DRIFT_RECORD.  A sample is added to its slot's with TS1 - TS0 as it stood at the stamp where the slot is in
TS1's set, a phase-only slot's as the distance from the nearest whole second.  A filter step runs at the next multiple of 62.5 ms not yet run: slot and decision
commands have been taken, the temperature is reported, the engine state, the reference ID, the error estimate and the instant are
published as they stand after the step, and a timescale that is UNSET or owned by the host keeps its increment and its slew. The drift
record of a TRACKING engine grows by the counter's rate every 64 s.
Choices of the model that it rests on: log entries 80, 81, 82, 83, 84, 95, 97 and 104.
(Rests on 03_ensemble.md.) -/
def Obligations.FilterStep : Prop :=
  (∀ (s : State) (i : Fin 16) (at_ : Nat) (x dly : Int),
      let y : Int := x + (if (s.slot i.val).set = 1 then (s.stampOf at_).d else 0)
      ∃ t, Sys2Proof.Machine.exec (.sourceSample i at_ x dly) s = .next t ∧
        ((t.slot i.val).inbox.dropLast) = (s.slot i.val).inbox ∧
        ((t.slot i.val).inbox.getLast?.map (fun q => (q.t, q.x, q.dly, q.spoof)) = some ((s.stampOf at_).clk, (if i.val = 2 ∨ i.val = 3 ∨ 8 ≤ i.val then (y + 32768000000000) % 65536000000000 - 32768000000000 else y), dly, false)) ∧
        (t.slot i.val).fit = (s.slot i.val).fit ∧
        t.ens.f0 = s.ens.f0 ∧
        t.ens.f1 = s.ens.f1 ∧
        Frame [] [.ens] s t) ∧
  (∀ (s : State) (temp : BitVec 16),
      ∃ t, Sys2Proof.Machine.exec (.filterStep temp) s = .next t ∧
        t.ens.stepAt = (s.ens.stepAt / 4096000000000 + 1) * 4096000000000 ∧
        t.tick.count = (s.waitTs0 ((s.ens.stepAt / 4096000000000 + 1) * 4096000000000)).tick.count ∧
        t.rd R.ENS_TEMP_TEMP = temp.toNat ∧
        (∀ i : Fin 16, t.rd (R.ENS_SLOT_CMD_RELEASE i.val) = 0 ∧ t.rd (R.ENS_SLOT_CMD_QUARANTINE i.val) = 0 ∧ t.rd (R.ENS_SLOT_CMD_CLR_ASYM i.val) = 0 ∧ t.rd (R.ENS_SLOT_CMD_RELEARN i.val) = 0 ∧ (t.slot i.val).set = s.rd (R.ENS_SLOT_CFG_SET i.val)) ∧
        t.rd R.ENS_DECIDE_GO ≠ 1 ∧
        t.ens.pub.engine = (t.eng .ts0).code ∧
        t.ens.pub.refid = t.refid ∧
        t.ens.pub.err = t.rd R.ENS_ERR_ERR ∧
        t.ens.pub.refAt = t.ens.refAt ∧
        (t.eng .ts0 = .unset → t.ens.pub.err = 0xFFFFFFFF ∧ t.ens.pub.refid = 0x494E4954) ∧
        (∀ b : Bool, let k : Bank := if b then .ts1 else .ts0; t.eng k = .unset ∨ s.hostOwns k = true → (t.tick.bank k).incr = (s.tick.bank k).incr ∧ (t.tick.bank k).slew = ((s.waitTs0 ((s.ens.stepAt / 4096000000000 + 1) * 4096000000000)).tick.bank k).slew) ∧
        Touches [.tick, .lanes, .ens, .tim, .gnss, .log, .stack, .fw, .watch, .regs .tsc, .regs .ens, .regs .gns, .regs .tim, .regs .rfm, .regs .wch] s t) ∧
  (∀ (s : State),
      ∃ t, Sys2Proof.Machine.exec (.driftRecord) s = .next t ∧
        t.ens.driftAt = t.clk ∧
        t.tick = (s.waitClk (s.ens.driftAt + sec16 64)).tick ∧
        (s.eng .ts0 = .tracking → t.ens.f0.drift.head? = some ((t.clk : Int), mkRat (s.tick.bank0.incr : Nat) 351843720888320 - 1)) ∧
        (s.eng .ts0 ≠ .tracking → t.ens.f0 = s.ens.f0) ∧
        Frame [] [.tick, .lanes, .ens] s t)

/-- FILTER_STEP, of a set whose engine or shadow state stays what it was, out of UNSET: the filter predicts and takes in the combined
measurement of the slots that contributed at this step, each with a weight and an offset within those of its samples; its weight, as a
share of the sum, stands in ENS_SLOT_WEIGHT.  Where the ensemble owns the timescale, the whole frequency estimate goes into the increment,
to the nearest 2^-48 ns within the range, what that leaves stays the estimate, and a phase within band 2 is slewed by its share over 62,499
µs within the band's rate; one beyond it starts no slew, and TS0 is not stepped while SERVED is 1.  A set in UNSET takes in no measurement.
(Rests on 03_ensemble.md; the phase clauses' roundings are log entry 9, several samples of one slot in one step log entry 97.) -/
def Obligations.FilterArithmetic : Prop :=
  (∀ (s : State) (temp : BitVec 16) (b : Bank),
      let due := s.nextStep
      let u := (s.waitTs0 due).wr R.ENS_TEMP_TEMP temp.toNat
      let f := s.filter b
      s.eng b ≠ .unset →
      (b = .ts1 → s.rd R.TSC_CTL_TS1_EN = 1) →
      due % sec16 64 ≠ 0 →
      ∃ t, Sys2Proof.Machine.exec (.filterStep temp) s = .next t ∧
        (t.eng b = s.eng b →
          let h : Nat → SlotStep := fun i => ((t.slot i).hist.head?).getD {}
          let sw : Rat := (t.setOf b).foldl (fun a i => a + (h i).w) 0
          let k := u.tick.bank b
          let yAny : Rat := f.y + mkRat ((k.incr : Int) - (k.incrRef : Int)) k.incrRef * 1000000000
          let th : Rat := f.theta + f.y / 16 + f.d / 512 + mkRat k.phaseAcc (2 ^ 48)
          let y : Rat := yAny + f.d / 16 + u.feedforward
          let p00 : Rat := f.p00 + f.p01 / 8 + f.p11 / 256 + t.anchorWfm / 16 + t.anchorRwfm / 12288
          let p01 : Rat := f.p01 + f.p11 / 16 + t.anchorRwfm / 512
          let p11 : Rat := f.p11 + t.anchorRwfm / 16
          let g := t.filter b
          ∃ x : Nat → Rat,
            (∀ i ∈ t.setOf b, (h i).used = true → t.src i = .qualified ∧
              (∃ q ∈ (h i).seen, toNs q.x ≤ x i) ∧ (∃ q ∈ (h i).seen, x i ≤ toNs q.x) ∧
              t.rd (R.ENS_SLOT_WEIGHT_W i) = (rndNearest ((h i).w / sw * 65536)).toNat % 2 ^ 17) ∧
            (∀ i ∈ t.setOf b, (h i).used = false → (h i).w = 0 ∧ t.rd (R.ENS_SLOT_WEIGHT_W i) = 0) ∧
            let z : Rat := (t.setOf b).foldl (fun a i => a + (h i).w * x i) 0 / sw
            let k0 : Rat := p00 / (p00 + 1 / sw)
            let k1 : Rat := p01 / (p00 + 1 / sw)
            let y' : Rat := if 0 < sw then y + k1 * (z - th) else y
            (if 0 < sw then g.theta = th + k0 * (z - th) ∧ g.p00 = (1 - k0) * p00 ∧ g.p01 = (1 - k0) * p01 ∧ g.p11 = p11 - k1 * p01
              else g.theta = th ∧ g.p00 = p00 ∧ g.p01 = p01 ∧ g.p11 = p11) ∧
            (t.hostOwns b = true → g.y = y' ∧ (t.tick.bank b).incr = k.incr) ∧
            (t.hostOwns b = false →
              (t.tick.bank b).incr = (max (incrMin : Int) (min (incrMax : Int) (rndNearest ((k.incr : Rat) * (1 - y' / 1000000000))))).toNat ∧
              g.y = y' - mkRat ((k.incr : Int) - ((t.tick.bank b).incr : Int)) k.incr * 1000000000)) ∧
        (t.eng b = s.eng b → t.hostOwns b = false → |(t.filter b).theta| ≤ t.band2 → (t.filter b).slewMax = false →
          t.rd (R.TSC_STEP_CTL_PENDING (bankNo b)) ≠ 1 → (b = .ts0 → t.rd R.TSC_SWITCH_CTL_ACTIVE ≠ 1) →
          (u.tick.bank b).stepTick ≠ some u.tick.count →
          let cap : Int := (t.bandRate (t.filter b).theta * 62499000 * 65536).floor
          (t.tick.bank b).slew = Slew.make (max (-cap) (min cap (rnd (-(t.filter b).theta / (2 ^ t.rd R.ENS_CTL_PTC * 16 : Nat) * 65536)))) (800 * 62499)) ∧
        (t.eng b = s.eng b → t.band2 < |(t.filter b).theta| → (t.filter b).slewMax = false → (t.tick.bank b).slew = (u.tick.bank b).slew ∧
          (b = .ts0 → s.rd R.TSC_STAT_SERVED = 1 → s.rd (R.TSC_STEP_CTL_PENDING 0) ≠ 1 → s.rd R.ENS_DECIDE_GO ≠ 1 → t.rd (R.TSC_STEP_CTL_PENDING 0) ≠ 1))) ∧
  (∀ (s : State) (temp : BitVec 16) (b : Bank),
      s.eng b = .unset →
      ∃ t, Sys2Proof.Machine.exec (.filterStep temp) s = .next t ∧
        (t.eng b = .unset → (t.filter b).theta = (s.filter b).theta ∧ (t.filter b).y = (s.filter b).y ∧ (t.filter b).p00 = (s.filter b).p00 ∧
          (t.filter b).p01 = (s.filter b).p01 ∧ (t.filter b).p11 = (s.filter b).p11))

/-- FILTER_STEP, the engine state and the shadow state.  Out of UNSET a step leads to SETTLING or nowhere; SETTLING is left for TRACKING
alone, with a QUALIFIED slot in the set; TRACKING holds while the set has a QUALIFIED slot and goes to HOLDOVER when it has none; HOLDOVER
and FREEWHEEL go to TRACKING when one is QUALIFIED, and without one HOLDOVER goes to FREEWHEEL when its error exceeds the budget, FREEWHEEL
stays.  A change of the engine state raises its event.
Choices of the model that it rests on: log entries 82, 83 and 97.
(Rests on 03_ensemble.md.) -/
def Obligations.EngineTransitions : Prop :=
  (∀ (s : State) (temp : BitVec 16) (b : Bank),
      ∃ t, Sys2Proof.Machine.exec (.filterStep temp) s = .next t ∧
        (let some_ : Prop := ∃ i ∈ t.setOf b, t.src i = .qualified
         (s.eng b = .unset → t.eng b = .unset ∨ t.eng b = .settling) ∧
         (s.eng b = .settling → t.eng b = .settling ∨ (t.eng b = .tracking ∧ some_)) ∧
         (s.eng b = .tracking → (some_ → t.eng b = .tracking) ∧ (¬ some_ → t.eng b = .holdover)) ∧
         (s.eng b = .holdover → (some_ → t.eng b = .tracking) ∧
           (¬ some_ → t.eng b = (if (t.filter b).estErr > t.budget then .freewheel else .holdover))) ∧
         (s.eng b = .freewheel → (some_ → t.eng b = .tracking) ∧ (¬ some_ → t.eng b = .freewheel)) ∧
         (t.eng b ≠ s.eng b → bit (t.rd R.ENS_EVT_BITS) (if b = .ts0 then 0 else 8) = true) ∧
         (s.eng b = .tracking → t.eng b = .holdover → (t.filter b).hoAt = t.clk)))

/-- GNSS_EPOCH, GNSS_PORT_FAULT, GNSS_PORT_RECOVER, JAM_BASELINE, JAM_LEARN, NOTCH_UPDATE, NOTCH_RELEASE.  An epoch of a port in use is
stamped on its epoch channel, IC5 to IC8, and reports the level of its samples, decoded as FMT and SPEC_INV say, and the rate error its
interval shows; beyond 100 ppm or with a sample code stuck it faults the port, else it counts a clean epoch, and channels of the port in
TRACK and NAV take what they measure.  No epoch for twice the nominal interval faults the port too.  A fault sets FAULT and PORT_FAULT and
takes the port's channels to IDLE; 16 clean epochs clear it.  The baseline learned over 600 s is what JAM_LVL is measured from, and LEARN
starts it afresh.  In adaptive mode an engaged notch follows the peak nearest it, at most 16 kHz in the 16 ms of an average, each of the four
strongest peaks THR above the median that no notch follows engages a free notch at its frequency, and a notch 1 s below THR - 6 dB
releases.
Choices of the model that it rests on: log entry 17.
(Rests on
04_gnss.md; the level as the rms of the complex magnitude is log entry 99.) -/
def Obligations.GnssPorts : Prop :=
  (∀ (s : State) (n : Fin 4) (dc : Nat) (bin : Fin 64) (floor : Nat) (samples : List (BitVec 4 × BitVec 4)) (meas : List GnssMeas),
      let u : State := s.waitTick (tickOfCoarse (s.coarseNow + dc))
      let e : Nat := (u.capture (69 + n.val) (s.coarseNow + dc) bin.val false).time
      let err : Rat := match (s.gnsPort n.val).epochAt with
        | some last => s.rateError n.val (u.clkOf e - last)
        | none => 0
      let k : GnsPort := samples.foldl (captureSample s n.val) (s.gnsPort n.val)
      s.gnsOn = true →
      s.portUsed n.val = true →
      |err| ≤ 10000 →
      k.stuck = false →
      ∃ t, Sys2Proof.Machine.exec (.gnssEpoch n dc bin floor samples meas) s = .next t ∧
        t.tick = u.tick ∧
        (t.gnsPort n.val).stampAt = e ∧
        (t.gnsPort n.val).epochAt = some (u.clkOf e) ∧
        (t.gnsPort n.val).turn = k.turn ∧
        (∀ l q, samples = l ++ [q] → (t.gnsPort n.val).iq =
          (sampleValue (s.on (R.GNS_PORT_CFG_FMT n.val)) q.1,
            (if s.rd (R.GNS_PORT_CFG_SPEC_INV n.val) = 1 then -1 else 1) * sampleValue (s.on (R.GNS_PORT_CFG_FMT n.val)) q.2)) ∧
        (t.gnsPort n.val).clean = (s.gnsPort n.val).clean + 1 ∧
        (samples ≠ [] → t.rd (R.GNS_PORT_STAT_LEVEL n.val) = s.levelOf n.val samples) ∧
        (t.rd (R.GNS_PORT_STAT_RATE_ERR n.val) = if (s.gnsPort n.val).epochAt = none then s.rd (R.GNS_PORT_STAT_RATE_ERR n.val) else satBits 16 (rnd err)) ∧
        t.rd (R.GNS_PORT_STAT_CLK_OK n.val) = 1 ∧
        (∀ base, (s.gnsPort n.val).baseline = some base → t.rd (R.GNS_PORT_JAM_LVL n.val) = satNat 8 (floor - base)) ∧
        (∀ m, meas = [m] → (s.ch m.chan.val = .track ∨ s.ch m.chan.val = .nav) → s.chPort m.chan.val = n.val →
          t.rd (R.GNS_CH_STAT_CN0 m.chan.val) = satNat 16 m.cn0 ∧ t.rd (R.GNS_CH_DOP_DOP m.chan.val) = satBits 32 m.dop) ∧
        (∀ c : Fin 160, (s.ch c.val ≠ .track ∧ s.ch c.val ≠ .nav) ∨ s.chPort c.val ≠ n.val →
          t.rd (R.GNS_CH_STAT_CN0 c.val) = s.rd (R.GNS_CH_STAT_CN0 c.val) ∧ t.gnsCh c.val = s.gnsCh c.val) ∧
        Frame ([R.GNS_PORT_STAT_LEVEL n.val, R.GNS_PORT_STAT_RATE_ERR n.val, R.GNS_PORT_STAT_CLK_OK n.val, R.GNS_PORT_JAM_LVL n.val, R.GNS_STAT_JAM, R.GNS_EVT_BITS]
          ++ meas.map (fun m => R.GNS_CH_STAT_CN0 m.chan.val) ++ meas.map (fun m => R.GNS_CH_DOP_DOP m.chan.val)) [.tick, .lanes, .tim, .gnss] s t) ∧
  (∀ (s : State) (n : Fin 4) (dc : Nat) (bin : Fin 64) (floor : Nat) (samples : List (BitVec 4 × BitVec 4)) (meas : List GnssMeas),
      let u : State := s.waitTick (tickOfCoarse (s.coarseNow + dc))
      let e : Nat := (u.capture (69 + n.val) (s.coarseNow + dc) bin.val false).time
      let err : Rat := match (s.gnsPort n.val).epochAt with
        | some last => s.rateError n.val (u.clkOf e - last)
        | none => 0
      s.gnsOn = true →
      s.portUsed n.val = true →
      (10000 < |err| ∨ (samples.foldl (captureSample s n.val) (s.gnsPort n.val)).stuck = true) →
      ∃ t, Sys2Proof.Machine.exec (.gnssEpoch n dc bin floor samples meas) s = .next t ∧
        t.tick = u.tick ∧
        (t.gnsPort n.val).stampAt = e ∧
        (t.gnsPort n.val).clean = 0 ∧
        t.rd (R.GNS_PORT_STAT_FAULT n.val) = 1 ∧
        (t.rd (R.GNS_PORT_STAT_CLK_OK n.val) = if 10000 < |err| then 0 else 1) ∧
        Touches [.tick, .lanes, .tim, .gnss, .regs .gns, .watch] s t) ∧
  (∀ (s : State) (n : Fin 4),
      s.gnsOn = true →
      s.portUsed n.val = true →
      s.rd (R.GNS_PORT_STAT_FAULT n.val) ≠ 1 →
      ∃ t, Sys2Proof.Machine.exec (.gnssPortFault n) s = .next t ∧
        t.rd (R.GNS_PORT_STAT_FAULT n.val) = 1 ∧
        t.rd (R.GNS_PORT_STAT_CLK_OK n.val) = 0 ∧
        t.tick = (s.waitClk ((s.gnsPort n.val).awaitFrom + (2 * s.epochSpan n.val).ceil.toNat)).tick ∧
        bit (t.rd R.GNS_STAT_PORT_FAULT) n.val = true ∧
        bit (t.rd R.GNS_EVT_BITS) 2 = true ∧
        (∀ c : Fin 160, s.chPort c.val = n.val → s.ch c.val ≠ .test → t.ch c.val = .idle) ∧
        (∀ c : Fin 160, s.chPort c.val ≠ n.val → t.ch c.val = s.ch c.val) ∧
        Touches [.tick, .lanes, .gnss, .regs .gns, .watch] s t) ∧
  (∀ (s : State) (n : Fin 4),
      s.rd (R.GNS_PORT_STAT_FAULT n.val) = 1 →
      16 ≤ (s.gnsPort n.val).clean →
      ∃ t, Sys2Proof.Machine.exec (.gnssPortRecover n) s = .next t ∧
        t.rd (R.GNS_PORT_STAT_FAULT n.val) = 0 ∧
        bit (t.rd R.GNS_STAT_PORT_FAULT) n.val = false ∧
        ((∀ a ≤ 1, (s.antChans a).length ≤ s.antQuota a) →
          (∀ c : Fin 160, s.ch c.val = .idle → s.rd (R.GNS_CH_CFG_PIN c.val) ≠ 1 → t.ch c.val = .idle) ∧
          (∀ c : Fin 160, s.ch c.val ≠ .idle → t.ch c.val = s.ch c.val ∨ ((s.gnsCh c.val).pinned = false ∧ t.ch c.val = .idle))) ∧
        Touches [.gnss, .regs .gns, .watch] s t) ∧
  (∀ (s : State) (n : Fin 4) (floor from_ : Nat),
      (s.gnsPort n.val).learnAt = some from_ →
      ∃ t, Sys2Proof.Machine.exec (.jamBaseline n floor) s = .next t ∧
        (t.gnsPort n.val).baseline = some floor ∧
        (t.gnsPort n.val).learnAt = none ∧
        t.rd (R.GNS_PORT_JAM_LEARN n.val) = 0 ∧
        t.rd (R.GNS_PORT_JAM_LVL n.val) = 0 ∧
        t.tick = (s.waitClk (from_ + sec16 600)).tick ∧
        Frame [R.GNS_PORT_JAM_LEARN n.val, R.GNS_PORT_JAM_LVL n.val, R.GNS_STAT_JAM, R.GNS_EVT_BITS] [.tick, .lanes, .gnss] s t) ∧
  (∀ (s : State) (n : Fin 4) (w : Word),
      ∃ t, Sys2Proof.Machine.exec (.jamLearn n w) s = .next t ∧
        (t.gnsPort n.val).learnAt = some s.clk ∧
        t.rd (R.GNS_PORT_JAM_LEARN n.val) = 1 ∧
        t.rd (R.GNS_PORT_JAM_THR n.val) = (R.GNS_PORT_JAM_THR n.val).of w.toNat ∧
        Frame (Reg.GNS_PORT_JAM n.val).fields [.gnss] s t) ∧
  (∀ (s : State) (n : Fin 4) (peaks : List (Int × Nat)),
      s.gnsOn = true →
      s.portUsed n.val = true →
      s.rd (R.GNS_NOTCH_CTL_MODE n.val) = 1 →
      ∃ t, Sys2Proof.Machine.exec (.notchUpdate n peaks) s = .next t ∧
        (∀ k : Fin 4, bit (s.rd (R.GNS_NOTCH_CTL_ENGAGED n.val)) k.val = true → bit (t.rd (R.GNS_NOTCH_CTL_ENGAGED n.val)) k.val = true) ∧
        (peaks = [] → t.rd (R.GNS_NOTCH_CTL_ENGAGED n.val) = s.rd (R.GNS_NOTCH_CTL_ENGAGED n.val)) ∧
        (∀ k : Fin 4, bit (s.rd (R.GNS_NOTCH_CTL_ENGAGED n.val)) k.val = true →
          let f : Int := s.rdSigned (R.GNS_NOTCH_FREQ (n.val * 4 + k.val))
          match nearestPeak f peaks with
          | some p => t.rd (R.GNS_NOTCH_FREQ (n.val * 4 + k.val)) = ofSigned 32 (f + max (-16000) (min 16000 (p.1 - f)))
          | none => t.rdSigned (R.GNS_NOTCH_FREQ (n.val * 4 + k.val)) = f) ∧
        (∀ k : Fin 4, bit (s.rd (R.GNS_NOTCH_CTL_ENGAGED n.val)) k.val = false →
          if bit (t.rd (R.GNS_NOTCH_CTL_ENGAGED n.val)) k.val
          then ∃ p ∈ strongest (s.rd (R.GNS_NOTCH_CTL_THR n.val)) peaks, p ∉ s.followed n.val peaks ∧
            t.rd (R.GNS_NOTCH_FREQ (n.val * 4 + k.val)) = ofSigned 32 p.1
          else t.rd (R.GNS_NOTCH_FREQ (n.val * 4 + k.val)) = s.rd (R.GNS_NOTCH_FREQ (n.val * 4 + k.val))) ∧
        (∀ p ∈ strongest (s.rd (R.GNS_NOTCH_CTL_THR n.val)) peaks, p ∉ s.followed n.val peaks →
          (∃ k : Fin 4, bit (s.rd (R.GNS_NOTCH_CTL_ENGAGED n.val)) k.val = false ∧ bit (t.rd (R.GNS_NOTCH_CTL_ENGAGED n.val)) k.val = true ∧
            t.rd (R.GNS_NOTCH_FREQ (n.val * 4 + k.val)) = ofSigned 32 p.1) ∨
          ∀ k : Fin 4, bit (t.rd (R.GNS_NOTCH_CTL_ENGAGED n.val)) k.val = true) ∧
        (∀ c : Fin 160, s.ch c.val ≠ .idle → s.chPort c.val = n.val → t.rd (R.GNS_CH_STAT_NOTCHED c.val) = b01 (t.notchInLobe n.val)) ∧
        t.rd R.GNS_EVT_BITS = s.rd R.GNS_EVT_BITS ∧
        Touches [.gnss, .regs .gns] s t) ∧
  (∀ (s : State) (n k : Fin 4),
      s.rd (R.GNS_NOTCH_CTL_MODE n.val) = 1 →
      bit (s.rd (R.GNS_NOTCH_CTL_ENGAGED n.val)) k.val = true →
      IMap.get 0 (s.gnsPort n.val).below k.val ≠ 0 →
      ∃ t, Sys2Proof.Machine.exec (.notchRelease n k) s = .next t ∧
        bit (t.rd (R.GNS_NOTCH_CTL_ENGAGED n.val)) k.val = false ∧
        t.rd (R.GNS_NOTCH_FREQ (n.val * 4 + k.val)) = 0 ∧
        t.tick = (s.waitClk (IMap.get 0 (s.gnsPort n.val).below k.val - 1 + sec16 1)).tick ∧
        Touches [.tick, .lanes, .gnss, .regs .gns] s t)

/-- CHANNEL_ASSIGN, DETECTION, SEARCH_PASS_END, PULL_IN_LOCK, PULL_IN_TIMEOUT, NAV_SYNC, CHANNEL_LOST, REACQUIRE, LOST_TIMEOUT, CHANNEL_PIN,
PIN_APPLY.  Each clause takes one row of the state table of R126 from its state to the next with what the channel reports, the firmware
taking back a channel it assigned among them; only PRNs of the system are tracked; a high-band lock hands its satellite's low band to a
channel that may take it, in PULL_IN with the code phase of the same instant and the Doppler in the ratio of the band centres; a PIN of a
reserved channel is refused with CFG_ERR, on an IDLE one it starts the signal, on one in use it waits for the next whole second, where the
firmware's signal is planned onto another free channel, and in TEST it is held.
Choices of the model that it rests on: log entries 21 and 106.
(Rests on 04_gnss.md.) -/
def Obligations.GnssChannels : Prop :=
  (∀ (s : State) (c : Fin 160) (sys : Fin 4) (low ant : Bool) (svid : BitVec 8),
      s.ch c.val = .idle →
      s.reserved c.val = false →
      s.rd (R.GNS_CH_CFG_PIN c.val) ≠ 1 →
      s.signalOk sys.val (b01 low) (b01 ant) = true →
      prnOk sys.val svid.toNat = true →
      (low = true → s.lowDirect (b01 ant) = true) →
      s.hasRoom (b01 ant) (sys.val * 256 + svid.toNat) = true →
      (∀ a ≤ 1, (s.antChans a).length + (if a = b01 ant then 1 else 0) ≤ s.antQuota a) →
      ∃ t, Sys2Proof.Machine.exec (.channelAssign c (some ⟨sys, low, ant, svid⟩)) s = .next t ∧
        t.ch c.val = .search ∧
        t.rd (R.GNS_CH_STAT_SVID c.val) = svid.toNat ∧
        (t.gnsCh c.val).sys = sys.val ∧
        (t.gnsCh c.val).band = b01 low ∧
        (t.gnsCh c.val).ant = b01 ant ∧
        (t.gnsCh c.val).pinned = false ∧
        t.rd (R.GNS_CH_STAT_NOTCHED c.val) = b01 (s.notchInLobe (portOf (b01 ant) (b01 low))) ∧
        Frame [R.GNS_CH_STAT_STATE c.val, R.GNS_CH_STAT_SVID c.val, R.GNS_CH_STAT_NOTCHED c.val] [.gnss, .watch] s t) ∧
  (∀ (s : State) (c : Fin 160) (sys : Fin 4) (low ant : Bool) (svid : BitVec 8),
      s.mayAssign c.val sys.val (b01 low) (b01 ant) svid.toNat = true →
      (∀ a ≤ 1, (s.antChans a).length ≤ s.antQuota a) →
      (s.antChans (b01 ant)).length = s.antQuota (b01 ant) →
      ∃ t, Sys2Proof.Machine.exec (.channelAssign c (some ⟨sys, low, ant, svid⟩)) s = .next t ∧
        t.ch c.val = .search ∧
        (t.antChans (b01 ant)).length = (s.antChans (b01 ant)).length ∧
        (∃ d : Fin 160, d ≠ c ∧ d.val ∈ s.antChans (b01 ant) ∧ t.ch d.val = .idle ∧ (s.gnsCh d.val).pinned = false ∧
          s.elevOf (b01 ant) (s.satOf d.val) < s.elevOf (b01 ant) (sys.val * 256 + svid.toNat) ∧
          ∀ e : Fin 160, e ≠ c → e ≠ d → t.ch e.val = s.ch e.val) ∧
        Touches [.gnss, .regs .gns, .watch] s t) ∧
  (∀ (s : State) (c : Fin 160) (sys : Fin 4) (low ant : Bool) (svid : BitVec 8),
      (prnOk sys.val svid.toNat = false ∨ s.hasRoom (b01 ant) (sys.val * 256 + svid.toNat) = false) →
      ∃ t, Sys2Proof.Machine.exec (.channelAssign c (some ⟨sys, low, ant, svid⟩)) s = .next t ∧
        Frame [] [] s t) ∧
  (∀ (s : State) (c : Fin 160),
      s.ch c.val ≠ .idle →
      s.ch c.val ≠ .test →
      (s.gnsCh c.val).pinned = false →
      ∃ t, Sys2Proof.Machine.exec (.channelAssign c none) s = .next t ∧
        t.ch c.val = .idle ∧
        t.rd (R.GNS_CH_STAT_SVID c.val) = 0 ∧
        t.rd (R.GNS_CH_STAT_USED c.val) = 0 ∧
        Frame [R.GNS_CH_STAT_STATE c.val, R.GNS_CH_STAT_SVID c.val, R.GNS_CH_STAT_CN0 c.val, R.GNS_CH_DOP_DOP c.val, R.GNS_CH_STAT_USED c.val, R.GNS_CH_STAT_EXCLUDED c.val, R.GNS_CH_STAT_NOTCHED c.val] [.gnss, .watch] s t) ∧
  (∀ (s : State) (c : Fin 160) (cn0 : Nat) (dop : Int) (code : Nat),
      s.ch c.val = .search →
      ∃ t, Sys2Proof.Machine.exec (.detection c cn0 dop code) s = .next t ∧
        (t.gnsCh c.val).code = code % (codeChips (s.gnsCh c.val).sys (s.gnsCh c.val).band * 65536) ∧
        t.ch c.val = .pullIn ∧
        t.rd (R.GNS_CH_STAT_CN0 c.val) = satNat 16 cn0 ∧
        t.rd (R.GNS_CH_DOP_DOP c.val) = satBits 32 dop ∧
        Frame [R.GNS_CH_STAT_STATE c.val, R.GNS_CH_STAT_CN0 c.val, R.GNS_CH_DOP_DOP c.val] [.gnss, .watch] s t) ∧
  (∀ (s : State) (c : Fin 160),
      s.ch c.val = .search →
      ∃ t, Sys2Proof.Machine.exec (.searchPassEnd c) s = .next t ∧
        t.ch c.val = .idle ∧
        t.rd (R.GNS_CH_STAT_SVID c.val) = 0 ∧
        t.rd (R.GNS_CH_STAT_CN0 c.val) = 0 ∧
        t.rd (R.GNS_CH_STAT_USED c.val) = 0 ∧
        Frame [R.GNS_CH_STAT_STATE c.val, R.GNS_CH_STAT_SVID c.val, R.GNS_CH_STAT_CN0 c.val, R.GNS_CH_DOP_DOP c.val, R.GNS_CH_STAT_USED c.val, R.GNS_CH_STAT_EXCLUDED c.val, R.GNS_CH_STAT_NOTCHED c.val] [.gnss, .watch] s t) ∧
  (∀ (s : State) (c : Fin 160) (cn0 : Nat) (dop : Int) (code : Nat) (l : Fin 160),
      s.ch c.val = .pullIn →
      ((s.gnsCh c.val).band ≠ 0 ∨ s.lowHeld c.val = true ∨ ∀ d : Fin 160, d ≠ c → s.handoverOk c.val d.val = false) →
      ∃ t, Sys2Proof.Machine.exec (.pullInLock c cn0 dop code l) s = .next t ∧
        t.ch c.val = .track ∧
        t.rd (R.GNS_CH_STAT_CN0 c.val) = satNat 16 cn0 ∧
        t.rd (R.GNS_CH_DOP_DOP c.val) = satBits 32 dop ∧
        Frame [R.GNS_CH_STAT_STATE c.val, R.GNS_CH_STAT_CN0 c.val, R.GNS_CH_DOP_DOP c.val] [.gnss, .watch] s t) ∧
  (∀ (s : State) (c : Fin 160) (cn0 : Nat) (dop : Int) (code : Nat) (named l : Fin 160),
      s.ch c.val = .pullIn →
      (s.gnsCh c.val).band = 0 →
      s.lowHeld c.val = false →
      s.lowFor c.val named.val = some l.val →
      (∀ a ≤ 1, (s.antChans a).length + (if a = (s.gnsCh c.val).ant then 1 else 0) ≤ s.antQuota a) →
      ∃ t, Sys2Proof.Machine.exec (.pullInLock c cn0 dop code named) s = .next t ∧
        s.handoverOk c.val l.val = true ∧
        (t.gnsCh l.val).code = code % (codeChips (s.gnsCh c.val).sys 0 * 65536) * 10 % (codeChips (s.gnsCh c.val).sys 1 * 65536) ∧
        t.ch c.val = .track ∧
        t.ch l.val = .pullIn ∧
        (t.gnsCh l.val).band = 1 ∧
        (t.gnsCh l.val).sys = (s.gnsCh c.val).sys ∧
        (t.gnsCh l.val).ant = (s.gnsCh c.val).ant ∧
        t.rd (R.GNS_CH_STAT_SVID l.val) = s.rd (R.GNS_CH_STAT_SVID c.val) % 256 ∧
        t.rd (R.GNS_CH_DOP_DOP l.val) = satBits 32 (rnd (mkRat (satSigned 32 dop * 117645) 157542)) ∧
        Frame [R.GNS_CH_STAT_STATE c.val, R.GNS_CH_STAT_CN0 c.val, R.GNS_CH_DOP_DOP c.val, R.GNS_CH_STAT_STATE l.val, R.GNS_CH_STAT_SVID l.val, R.GNS_CH_DOP_DOP l.val, R.GNS_CH_STAT_NOTCHED l.val] [.gnss, .watch] s t) ∧
  (∀ (s : State) (c : Fin 160),
      s.ch c.val = .pullIn →
      ∃ t, Sys2Proof.Machine.exec (.pullInTimeout c) s = .next t ∧
        t.ch c.val = .search ∧
        t.tick = (s.waitClk ((s.gnsCh c.val).since + ms16 500)).tick ∧
        Frame [R.GNS_CH_STAT_STATE c.val] [.tick, .lanes, .gnss, .watch] s t) ∧
  (∀ (s : State) (c : Fin 160),
      s.ch c.val = .track →
      ∃ t, Sys2Proof.Machine.exec (.navSync c) s = .next t ∧
        t.ch c.val = .nav ∧
        (t.gnsCh c.val).navFirst = true ∧
        Frame [R.GNS_CH_STAT_STATE c.val] [.gnss, .watch] s t) ∧
  (∀ (s : State) (c : Fin 160),
      (s.ch c.val = .track ∨ s.ch c.val = .nav) →
      ∃ t, Sys2Proof.Machine.exec (.channelLost c) s = .next t ∧
        t.ch c.val = .lost ∧
        Frame [R.GNS_CH_STAT_STATE c.val] [.gnss, .watch] s t) ∧
  (∀ (s : State) (c : Fin 160),
      s.ch c.val = .lost →
      ∃ t, Sys2Proof.Machine.exec (.reacquire c) s = .next t ∧
        t.ch c.val = .pullIn ∧
        Frame [R.GNS_CH_STAT_STATE c.val] [.gnss, .watch] s t) ∧
  (∀ (s : State) (c : Fin 160),
      s.ch c.val = .lost →
      ∃ t, Sys2Proof.Machine.exec (.lostTimeout c) s = .next t ∧
        t.ch c.val = .idle ∧
        t.rd (R.GNS_CH_STAT_SVID c.val) = 0 ∧
        t.rd (R.GNS_CH_STAT_CN0 c.val) = 0 ∧
        t.rd (R.GNS_CH_STAT_USED c.val) = 0 ∧
        t.tick = (s.waitClk ((s.gnsCh c.val).since + sec16 10)).tick ∧
        Frame [R.GNS_CH_STAT_STATE c.val, R.GNS_CH_STAT_SVID c.val, R.GNS_CH_STAT_CN0 c.val, R.GNS_CH_DOP_DOP c.val, R.GNS_CH_STAT_USED c.val, R.GNS_CH_STAT_EXCLUDED c.val, R.GNS_CH_STAT_NOTCHED c.val] [.tick, .lanes, .gnss, .watch] s t) ∧
  (∀ (s : State) (c : Fin 160) (w : Word),
      s.ch c.val ≠ .test →
      s.reserved c.val = true →
      ∃ t, Sys2Proof.Machine.exec (.channelPin c w) s = .next t ∧
        t.rd (R.GNS_CH_STAT_CFG_ERR c.val) = 1 ∧
        Frame [R.GNS_CH_STAT_CFG_ERR c.val] [] s t) ∧
  (∀ (s : State) (c : Fin 160) (w : Word),
      s.ch c.val = .test →
      ∃ t, Sys2Proof.Machine.exec (.channelPin c w) s = .next t ∧
        (t.gnsCh c.val).heldCfg = some ((R.GNS_CH_CFG_PIN c.val).setIn w.toNat) ∧
        t.rd (R.GNS_CH_STAT_CFG_ERR c.val) = 0 ∧
        Frame [R.GNS_CH_STAT_CFG_ERR c.val] [.gnss, .watch] s t) ∧
  (∀ (s : State) (c : Fin 160) (w : Word),
      s.ch c.val = .idle →
      s.reserved c.val = false →
      (R.GNS_CH_CFG_RSV c.val).of w.toNat = 0 →
      (R.GNS_CH_CFG_BAND c.val).of w.toNat = 0 →
      s.signalOk ((R.GNS_CH_CFG_SYS c.val).of w.toNat) 0 ((R.GNS_CH_CFG_ANT c.val).of w.toNat) = true →
      prnOk ((R.GNS_CH_CFG_SYS c.val).of w.toNat) ((R.GNS_CH_CFG_SVID c.val).of w.toNat) = true →
      (∀ a ≤ 1, (s.antChans a).length + (if a = (R.GNS_CH_CFG_ANT c.val).of w.toNat then 1 else 0) ≤ s.antQuota a) →
      ∃ t, Sys2Proof.Machine.exec (.channelPin c w) s = .next t ∧
        t.ch c.val = .search ∧
        t.rd (R.GNS_CH_STAT_SVID c.val) = (R.GNS_CH_CFG_SVID c.val).of w.toNat ∧
        t.rd (R.GNS_CH_CFG_PIN c.val) = 1 ∧
        (t.gnsCh c.val).pinned = true ∧
        (t.gnsCh c.val).sys = (R.GNS_CH_CFG_SYS c.val).of w.toNat ∧
        (t.gnsCh c.val).ant = (R.GNS_CH_CFG_ANT c.val).of w.toNat ∧
        t.rd (R.GNS_CH_STAT_CFG_ERR c.val) = 0 ∧
        Frame ([R.GNS_CH_STAT_STATE c.val, R.GNS_CH_STAT_SVID c.val, R.GNS_CH_STAT_NOTCHED c.val, R.GNS_CH_STAT_CFG_ERR c.val] ++ (Reg.GNS_CH_CFG c.val).fields) [.gnss, .watch] s t) ∧
  (∀ (s : State) (c : Fin 160) (w : Word),
      s.ch c.val ≠ .idle →
      s.ch c.val ≠ .test →
      s.reserved c.val = false →
      (R.GNS_CH_CFG_RSV c.val).of w.toNat = 0 →
      ∃ t, Sys2Proof.Machine.exec (.channelPin c w) s = .next t ∧
        t.ch c.val = s.ch c.val ∧
        (t.gnsCh c.val).pinAt = some ((s.ts0 / 65536000000000 + 1) * 65536000000000) ∧
        t.rd (R.GNS_CH_CFG_PIN c.val) = 1 ∧
        Frame (R.GNS_CH_STAT_CFG_ERR c.val :: (Reg.GNS_CH_CFG c.val).fields) [.gnss, .watch] s t) ∧
  (∀ (s : State) (c : Fin 160) (at_ : Nat),
      (s.gnsCh c.val).pinAt = some at_ →
      s.rd (R.GNS_CH_CFG_BAND c.val) = 0 →
      s.signalOk (s.rd (R.GNS_CH_CFG_SYS c.val)) 0 (s.rd (R.GNS_CH_CFG_ANT c.val)) = true →
      prnOk (s.rd (R.GNS_CH_CFG_SYS c.val)) (s.rd (R.GNS_CH_CFG_SVID c.val)) = true →
      (∀ a ≤ 1, (s.antChans a).length + 2 ≤ s.antQuota a) →
      ∃ t, Sys2Proof.Machine.exec (.pinApply c) s = .next t ∧
        t.ch c.val = .search ∧
        t.rd (R.GNS_CH_STAT_SVID c.val) = s.rd (R.GNS_CH_CFG_SVID c.val) % 256 ∧
        (t.gnsCh c.val).pinAt = none ∧
        (t.gnsCh c.val).pinned = true ∧
        t.tick = (s.waitTs0 at_).tick ∧
        (∀ d : Fin 160, d ≠ c → s.ch d.val ≠ .idle → t.ch d.val = s.ch d.val) ∧
        (∀ d : Fin 160, d ≠ c → t.ch d.val ≠ s.ch d.val → t.ch d.val = (if (s.gnsCh c.val).band = 1 ∧
          ((s.highOf (s.gnsCh c.val).sys (s.gnsCh c.val).ant (s.rd (R.GNS_CH_STAT_SVID c.val))).isSome = true ∨ s.lowDirect (s.gnsCh c.val).ant = false)
            then .pullIn else .search) ∧ (t.gnsCh d.val).pinned = false ∧
          (t.gnsCh d.val).sys = (s.gnsCh c.val).sys ∧ (t.gnsCh d.val).band = (s.gnsCh c.val).band ∧ (t.gnsCh d.val).ant = (s.gnsCh c.val).ant ∧
          t.rd (R.GNS_CH_STAT_SVID d.val) = s.rd (R.GNS_CH_STAT_SVID c.val)) ∧
        ((s.ch c.val = .idle ∨ (s.gnsCh c.val).pinned = true) → ∀ d : Fin 160, d ≠ c → t.ch d.val = s.ch d.val) ∧
        (s.ch c.val ≠ .idle → (s.gnsCh c.val).pinned = false →
          (∃ d : Fin 160, d ≠ c ∧ s.mayPlan d.val (s.gnsCh c.val).sys (s.gnsCh c.val).band (s.gnsCh c.val).ant (s.rd (R.GNS_CH_STAT_SVID c.val)) = true) →
          ∃ d : Fin 160, d ≠ c ∧ t.ch d.val ≠ s.ch d.val) ∧
        Touches [.tick, .lanes, .gnss, .regs .gns, .watch] s t)

/-- NAV_RECORD, SOLUTION, SOLUTION_DELIVERY, SOLUTION_LATE, SPOOF_CLEAR.  A record the host wants, by the CHECK its own words give, is
written at the slot GNS_NAV_WR names, 128 bytes and no other, and WR moves on; with 511 unread the oldest is lost, RD moves and NAV_OVR is
set; one it does not want changes no register and no memory; its payload is what the symbols received give, an inverted polarity corrected.  A value that 3 satellites of REF_SYS agree on is reported in GNS_UTC.  A
solution names its epoch, is valid where the fit, its exclusions made, keeps enough satellites, and is then ready for the ensemble with x,
stamped at its epoch; without a known position the fit made again stands at the position that the exclusions give; a change of SYS_EN
acts at it.  Delivered within 60 ms it reaches its slot with its SPOOF flag, later it is discarded, SOL_LATE is set and SOL_A or SOL_B
clears, as where none was ready.  The indication clears after CLEAR seconds of passing checks. (Rests on 04_gnss.md;
the message checks' layouts are log entry 99, the forward error correction and the biases of a fit without REF_SYS are free values of log
entry 106.) -/
def Obligations.GnssSolutions : Prop :=
  (∀ (s : State) (c : Fin 160) (inv sub3 : Bool) (cn0 : BitVec 16) (at_ : Nat) (symbols : List Byte),
      let sig : Nat := sigCode (s.gnsCh c.val).sys (s.gnsCh c.val).band
      let payload : List Nat := navPayload sig inv sub3 (natBytes symbols)
      let check : Nat := (navCheck sig sub3 payload).2
      let r : List Nat := navRecordBytes s c.val inv sub3 cn0.toNat at_ payload
      let base : Nat := 0x60000 + s.rd R.GNS_NAV_WR_WR * 128
      s.ch c.val = .nav →
      s.navWanted (s.gnsCh c.val).sys check = true →
      (s.rd R.GNS_NAV_WR_WR + 512 - s.rd R.GNS_NAV_RD_RD) % 512 ≠ 511 →
      ∃ t, Sys2Proof.Machine.exec (.navRecord c inv sub3 cn0 at_ symbols none) s = .next t ∧
        (∀ i : Fin 128, readByte t.mem (base + i.val) = BitVec.ofNat 8 (r.getD i.val 0)) ∧
        (∀ a, a < base ∨ base + 128 ≤ a → readByte t.mem a = readByte s.mem a) ∧
        t.rd R.GNS_NAV_WR_WR = (s.rd R.GNS_NAV_WR_WR + 1) % 512 ∧
        t.gnss.navSeq = (s.gnss.navSeq + 1) % 65536 ∧
        (readByte t.mem base).toNat = 1 ∧
        (readByte t.mem (base + 4)).toNat = c.val ∧
        (readByte t.mem (base + 6)).toNat = check ∧
        Frame [R.GNS_NAV_WR_WR] [.mem, .gnss] s t) ∧
  (∀ (s : State) (c : Fin 160) (inv sub3 : Bool) (cn0 : BitVec 16) (at_ : Nat) (symbols : List Byte),
      let sig : Nat := sigCode (s.gnsCh c.val).sys (s.gnsCh c.val).band
      let payload : List Nat := navPayload sig inv sub3 (natBytes symbols)
      let check : Nat := (navCheck sig sub3 payload).2
      let r : List Nat := navRecordBytes s c.val inv sub3 cn0.toNat at_ payload
      let base : Nat := 0x60000 + s.rd R.GNS_NAV_WR_WR * 128
      s.ch c.val = .nav →
      s.navWanted (s.gnsCh c.val).sys check = true →
      (s.rd R.GNS_NAV_WR_WR + 512 - s.rd R.GNS_NAV_RD_RD) % 512 = 511 →
      ∃ t, Sys2Proof.Machine.exec (.navRecord c inv sub3 cn0 at_ symbols none) s = .next t ∧
        (∀ i : Fin 128, readByte t.mem (base + i.val) = BitVec.ofNat 8 (r.getD i.val 0)) ∧
        (∀ a, a < base ∨ base + 128 ≤ a → readByte t.mem a = readByte s.mem a) ∧
        t.rd R.GNS_NAV_WR_WR = (s.rd R.GNS_NAV_WR_WR + 1) % 512 ∧
        t.rd R.GNS_NAV_RD_RD = (s.rd R.GNS_NAV_RD_RD + 1) % 512 ∧
        t.rd R.GNS_NAV_LOST_LOST = satNat 32 (s.rd R.GNS_NAV_LOST_LOST + 1) ∧
        bit (t.rd R.GNS_EVT_BITS) 5 = true ∧
        Frame [R.GNS_NAV_WR_WR, R.GNS_NAV_RD_RD, R.GNS_NAV_LOST_LOST, R.GNS_EVT_BITS] [.mem, .gnss] s t) ∧
  (∀ (s : State) (c : Fin 160) (inv sub3 : Bool) (cn0 : BitVec 16) (at_ : Nat) (symbols : List Byte),
      let sig : Nat := sigCode (s.gnsCh c.val).sys (s.gnsCh c.val).band
      s.ch c.val = .nav →
      s.navWanted (s.gnsCh c.val).sys (navCheck sig sub3 (navPayload sig inv sub3 (natBytes symbols))).2 = false →
      ∃ t, Sys2Proof.Machine.exec (.navRecord c inv sub3 cn0 at_ symbols none) s = .next t ∧
        t.gnss.navSeq = (s.gnss.navSeq + 1) % 65536 ∧
        (t.gnsCh c.val).navFirst = false ∧
        Frame [] [.gnss] s t) ∧
  (∀ (s : State) (c : Fin 160) (inv sub3 : Bool) (cn0 : BitVec 16) (at_ : Nat) (symbols : List Byte) (dt : Int),
      let k : Int := if s.refSys = 2 then 33 else 19
      let sig : Nat := sigCode (s.gnsCh c.val).sys (s.gnsCh c.val).band
      let sat : Nat := s.refSys * 256 + s.rd (R.GNS_CH_STAT_SVID c.val)
      let sats : List Nat := sat :: s.gnss.utcHeard.filter (fun v => v ≠ sat && v / 256 = s.refSys)
      s.ch c.val = .nav →
      (s.gnsCh c.val).sys = s.refSys →
      (navCheck sig sub3 (navPayload sig inv sub3 (natBytes symbols))).2 = 1 →
      ((sats.filter (fun v => v = sat ∨ IMap.get {} s.gnss.utc v = { cur := dt + k })).length ≥ 3) →
      ∃ t, Sys2Proof.Machine.exec (.navRecord c inv sub3 cn0 at_ symbols (some ⟨dt, none⟩)) s = .next t ∧
        IMap.get {} t.gnss.utc sat = { cur := dt + k } ∧
        t.rd R.GNS_UTC_TAI_UTC = ofSigned 8 (dt + k) ∧
        t.rd R.GNS_UTC_VALID = 1 ∧
        t.rd R.GNS_UTC_ANNOUNCED = 0 ∧
        (s.rd R.GNS_CTL_UTC_AUTO = 1 → s.rd R.TSC_UTC_OFS_VALID ≠ 1 → s.rd R.TSC_LEAP_CTL_ARMED ≠ 1 → t.rd R.TSC_UTC_OFS_OFS = ofSigned 16 (dt + k) ∧ t.rd R.TSC_UTC_OFS_VALID = 1) ∧
        (s.rd R.TSC_UTC_OFS_VALID = 1 → t.rd R.TSC_UTC_OFS_OFS = s.rd R.TSC_UTC_OFS_OFS) ∧
        Touches [.mem, .tick, .gnss, .regs .tsc, .regs .gns] s t) ∧
  (∀ (s : State) (a : Fin 2) (fix : GnssFix),
      let e : Nat := s.nextEpoch a.val
      let u : State := systemsAct (s.waitTs0 e)
      let word : Nat := u.refAtEpoch (e / 65536000000000)
      let known : Option (Int × Int × Int) := u.knownAt a.val (e / 65536000000000)
      let r : Solved := u.solve a.val word e known fix
      s.gnsOn = true →
      s.antInUse a.val = true →
      r.least ≤ r.used.length →
      ∃ t, Sys2Proof.Machine.exec (.solution a fix) s = .next t ∧
        t.rd (R.GNS_SOL_EPOCH_LO_SEC a.val) = e / 65536000000000 % 2 ^ 32 ∧
        t.rd (R.GNS_SOL_OFS_LO_X a.val) = satBits 48 (solX word e r.t fix.poly) % 2 ^ 32 ∧
        t.rd (R.GNS_SOL_OFS_HI_X a.val) = satBits 48 (solX word e r.t fix.poly) / 2 ^ 32 % 2 ^ 16 ∧
        t.rd (R.GNS_SOL_FLAGS_VALID a.val) = 1 ∧
        t.rd (R.GNS_SOL_FLAGS_DUAL a.val) = b01 (decide (r.used ≠ [] ∧ ∀ v ∈ r.used, v.dual = true)) ∧
        t.rd (R.GNS_SOL_FLAGS_NO_RAIM a.val) = b01 (decide (r.used.length < r.least + 3)) ∧
        t.rd (R.GNS_SOL_QUAL_NSV a.val) = satNat 8 r.used.length ∧
        t.rd (R.GNS_SOL_QUAL_NEXCL a.val) = satNat 8 r.excl.length ∧
        (∀ v ∈ r.excl, v ∈ u.satsFrom a.val word e (known.or fix.nav) fix ∧ v ∉ r.used) ∧
        (r.excl ≠ [] → ∀ p, known = none → fix.again = some p → ∀ v ∈ r.used, v ∈ u.usedSats a.val word e p fix) ∧
        (∀ v ∈ r.excl, ∀ q ∈ r.excl, v.sys = q.sys → v = q) ∧
        (s.gnss.sysHeld ≠ none → ∀ c : Fin 160, s.ch c.val ≠ .test → bit (s.rd R.GNS_CTL_SYS_EN) (s.gnsCh c.val).sys = false → t.ch c.val = .idle) ∧
        t.rd (R.GNS_SOL_FLAGS_SPOOF a.val) = b01 (bit (t.rd R.GNS_STAT_SPOOF) a.val) ∧
        bit (t.rd R.GNS_STAT_SOL) a.val = true ∧
        (t.gnsAnt a.val).ready = some (t.stampOfSecond e, solX word e r.t fix.poly) ∧
        (t.gnsAnt a.val).epoch = some (e / 65536000000000) ∧
        t.tick = (s.waitTs0 e).tick ∧
        Touches [.tick, .lanes, .ens, .gnss, .log, .regs .gns, .regs .wch, .watch] s t) ∧
  (∀ (s : State) (a : Fin 2) (fix : GnssFix),
      let e : Nat := s.nextEpoch a.val
      let u : State := systemsAct (s.waitTs0 e)
      let word : Nat := u.refAtEpoch (e / 65536000000000)
      let known : Option (Int × Int × Int) := u.knownAt a.val (e / 65536000000000)
      let r : Solved := u.solve a.val word e known fix
      s.gnsOn = true →
      s.antInUse a.val = true →
      r.used.length < r.least →
      ∃ t, Sys2Proof.Machine.exec (.solution a fix) s = .next t ∧
        t.rd (R.GNS_SOL_FLAGS_VALID a.val) = 0 ∧
        t.rd (R.GNS_SOL_OFS_LO_X a.val) = s.rd (R.GNS_SOL_OFS_LO_X a.val) ∧
        bit (t.rd R.GNS_STAT_SOL) a.val = false ∧
        (t.gnsAnt a.val).ready = none ∧
        (t.gnsAnt a.val).epoch = some (e / 65536000000000) ∧
        t.tick = (s.waitTs0 e).tick ∧
        Touches [.tick, .lanes, .ens, .gnss, .log, .regs .gns, .regs .wch, .watch] s t) ∧
  (∀ (s : State) (a : Fin 2) (p : Stamp) (x : Int),
      (s.gnsAnt a.val).ready = some (p, x) →
      s.clk ≤ p.clk + ms16 60 →
      ∃ t, Sys2Proof.Machine.exec (.solutionDelivery a) s = .next t ∧
        (t.gnsAnt a.val).ready = none ∧
        (t.slot a.val).inbox.dropLast = (s.slot a.val).inbox ∧
        ((t.slot a.val).inbox.getLast? = some { t := p.clk, x := x + (if (s.slot a.val).set = 1 then p.d else 0), k := p.k, u := p.k - ((p.t : Int) - x), d := p.d, dly := 0, spoof := decide (s.rd (R.GNS_SOL_FLAGS_SPOOF a.val) = 1) }) ∧
        Frame [] [.ens, .gnss] s t) ∧
  (∀ (s : State) (a : Fin 2) (p : Stamp) (x : Int),
      (s.gnsAnt a.val).ready = some (p, x) →
      p.clk + ms16 60 < s.clk →
      ∃ t, Sys2Proof.Machine.exec (.solutionDelivery a) s = .next t ∧
        (t.gnsAnt a.val).ready = none ∧
        bit (t.rd R.GNS_EVT_BITS) 6 = true ∧
        bit (t.rd R.GNS_STAT_SOL) a.val = false ∧
        Frame [R.GNS_EVT_BITS, R.GNS_STAT_SOL] [.gnss] s t) ∧
  (∀ (s : State) (a : Fin 2),
      s.gnsOn = true →
      s.antInUse a.val = true →
      ∃ t, Sys2Proof.Machine.exec (.solutionLate a) s = .next t ∧
        (t.gnsAnt a.val).ready = none ∧
        bit (t.rd R.GNS_EVT_BITS) 6 = true ∧
        bit (t.rd R.GNS_STAT_SOL) a.val = false ∧
        (∀ r, (s.gnsAnt a.val).ready = some r → (t.gnsAnt a.val).epoch = some (r.1.t / 65536000000000) ∧ t.tick = (s.waitTs0 (r.1.t + ms16 60)).tick) ∧
        ((s.gnsAnt a.val).ready = none → (t.gnsAnt a.val).epoch = some (s.nextEpoch a.val / 65536000000000) ∧ t.tick = (s.waitTs0 (s.nextEpoch a.val + ms16 60)).tick) ∧
        (s.gnss.sysHeld = none → Frame [R.GNS_EVT_BITS, R.GNS_STAT_SOL] [.tick, .lanes, .gnss] s t) ∧
        Touches [.tick, .lanes, .gnss, .regs .gns, .watch] s t) ∧
  (∀ (s : State) (a : Fin 2) (from_ : Nat),
      (s.gnsAnt a.val).passFrom = some from_ →
      bit (s.rd R.GNS_STAT_SPOOF) a.val = true →
      ∃ t, Sys2Proof.Machine.exec (.spoofClear a) s = .next t ∧
        bit (t.rd R.GNS_STAT_SPOOF) a.val = false ∧
        t.tick = (s.waitClk (from_ + sec16 (max 1 (s.rd R.GNS_SPF_CTL_CLEAR)))).tick ∧
        t.src 0 = s.src 0 ∧
        t.src 1 = s.src 1 ∧
        Frame [R.GNS_STAT_SPOOF] [.tick, .lanes] s t)

/-- POSITION_WRITE, SURVEY_DONE, SURVEY_SLOW, SURVEY_RESTART, ANT_SWITCH, ANT_RETURN, GNSS_SLEEP, GNSS_SLEEP_END, GNSS_WAKE, HOT_FAIL.  A
position register takes a write in FIXED only, and the solutions of the second it falls in keep the position before it.  A survey that
meets MIN_TIME and ACC writes the mean of its positions and SURVEY_DONE; RESTART begins one.  The primary changes after 3 s without a
valid solution and comes back after 600 s.  A sleep takes every channel to IDLE, lasts the shortest of MAX, the request and the ephemeris,
is not entered where that is 0, and holds loss detection of slots 0 and 1 until the first solution or HOT_FAIL; an early end sets
WAKE_ABORT; at the wake the ports await their epochs afresh, a channel takes up the signal it had where that is searched
directly, and every channel in SEARCH is loaded with the Doppler predicted for its signal.
Choices of the model that it rests on: log entries 21, 49 and 99.
(Rests on 04_gnss.md; a RESTART outside SURVEY
mode is log entry 106, the predictions are free values.) -/
def Obligations.GnssPositionAndSleep : Prop :=
  (∀ (s : State) (a : Fin 2) (axis : Fin 3) (w : Word),
      s.rd (R.GNS_POS_CTL_MODE a.val) = 1 →
      ∃ t, Sys2Proof.Machine.exec (.positionWrite a axis w) s = .next t ∧
        t.rd (R.GNS_POS_POS (a.val * 3 + axis.val)) = w.toNat ∧
        (t.gnsAnt a.val).posSec = some (s.ts0 / 65536000000000) ∧
        ((s.gnsAnt a.val).posSec ≠ some (s.ts0 / 65536000000000) → (t.gnsAnt a.val).posOld = s.posRegs a.val) ∧
        Frame [R.GNS_POS_POS (a.val * 3 + axis.val)] [.gnss] s t) ∧
  (∀ (s : State) (a : Fin 2) (axis : Fin 3) (w : Word),
      s.rd (R.GNS_POS_CTL_MODE a.val) ≠ 1 →
      ∃ t, Sys2Proof.Machine.exec (.positionWrite a axis w) s = .next t ∧
        Frame [] [] s t) ∧
  (∀ (s : State) (a : Fin 2) (from_ : Nat),
      (s.gnsAnt a.val).surveyFrom = some from_ →
      s.rd (R.GNS_POS_CTL_STATE a.val) = 1 →
      s.rd (R.GNS_SURV_STAT_SIGMA a.val) ≤ max 1 (s.rd R.GNS_SURV_CTL_ACC) →
      ∃ t, Sys2Proof.Machine.exec (.surveyDone a) s = .next t ∧
        t.rd (R.GNS_POS_POS (a.val * 3)) = meanCoord (s.gnsAnt a.val).surveySum.1 (s.gnsAnt a.val).surveyN ∧
        t.rd (R.GNS_POS_POS (a.val * 3 + 1)) = meanCoord (s.gnsAnt a.val).surveySum.2.1 (s.gnsAnt a.val).surveyN ∧
        t.rd (R.GNS_POS_POS (a.val * 3 + 2)) = meanCoord (s.gnsAnt a.val).surveySum.2.2 (s.gnsAnt a.val).surveyN ∧
        t.rd (R.GNS_POS_CTL_STATE a.val) = 2 ∧
        bit (t.rd R.GNS_EVT_BITS) 3 = true ∧
        (t.gnsAnt a.val).surveyFrom = none ∧
        t.tick = (s.waitClk (from_ + sec16 (s.rd R.GNS_SURV_CTL_MIN_TIME))).tick ∧
        Frame [R.GNS_POS_POS (a.val * 3), R.GNS_POS_POS (a.val * 3 + 1), R.GNS_POS_POS (a.val * 3 + 2), R.GNS_SURV_STAT_ELAPSED a.val, R.GNS_POS_CTL_STATE a.val, R.GNS_EVT_BITS] [.tick, .lanes, .gnss] s t) ∧
  (∀ (s : State) (a : Fin 2) (from_ : Nat),
      (s.gnsAnt a.val).surveyFrom = some from_ →
      s.rd (R.GNS_POS_CTL_STATE a.val) = 1 →
      ∃ t, Sys2Proof.Machine.exec (.surveySlow a) s = .next t ∧
        bit (t.rd R.GNS_EVT_BITS) 4 = true ∧
        t.tick = (s.waitClk (from_ + sec16 86400)).tick ∧
        Frame [R.GNS_EVT_BITS] [.tick, .lanes] s t) ∧
  (∀ (s : State) (a : Fin 2) (w : Word),
      ((R.GNS_POS_CTL_MODE a.val).of w.toNat = 0 ∨ (R.GNS_POS_CTL_MODE a.val).of w.toNat = 3) →
      ∃ t, Sys2Proof.Machine.exec (.surveyRestart a w) s = .next t ∧
        t.rd (R.GNS_POS_CTL_STATE a.val) = 1 ∧
        t.rd (R.GNS_SURV_STAT_SIGMA a.val) = 0xFFFF ∧
        (t.gnsAnt a.val).surveyFrom = some s.clk ∧
        (t.gnsAnt a.val).surveyN = 0 ∧
        (t.gnsAnt a.val).surveySum = (0, 0, 0) ∧
        t.rd (R.GNS_POS_CTL_MODE a.val) = (R.GNS_POS_CTL_MODE a.val).of w.toNat ∧
        Frame (R.GNS_SURV_STAT_SIGMA a.val :: (Reg.GNS_POS_CTL a.val).fields) [.gnss] s t) ∧
  (∀ (s : State) (a : Fin 2) (w : Word),
      (R.GNS_POS_CTL_MODE a.val).of w.toNat = 1 →
      ∃ t, Sys2Proof.Machine.exec (.surveyRestart a w) s = .next t ∧
        (t.rd (R.GNS_POS_CTL_STATE a.val) = (if s.posMode a.val = 1 then s.rd (R.GNS_POS_CTL_STATE a.val) else 3)) ∧
        t.rd (R.GNS_POS_CTL_MODE a.val) = 1 ∧
        Frame (Reg.GNS_POS_CTL a.val).fields [.gnss] s t) ∧
  (∀ (s : State),
      (s.rd R.GNS_CTL_REDUND = 1 ∨ s.rd R.GNS_CTL_REDUND = 2) →
      s.gnsOn = true →
      ∃ t, Sys2Proof.Machine.exec (.antSwitch) s = .next t ∧
        t.rd R.GNS_STAT_ACTIVE_ANT = 1 - s.rd R.GNS_STAT_ACTIVE_ANT ∧
        bit (t.rd R.GNS_EVT_BITS) 12 = true ∧
        t.tick = (s.waitClk ((s.gnsAnt (s.rd R.GNS_STAT_ACTIVE_ANT)).validAt + sec16 3)).tick ∧
        Touches [.tick, .lanes, .gnss, .regs .gns, .watch] s t) ∧
  (∀ (s : State) (p from_ : Nat),
      s.originalPrimary = some p →
      (s.gnsAnt p).validFrom = some from_ →
      s.rd R.GNS_STAT_ACTIVE_ANT ≠ p →
      ∃ t, Sys2Proof.Machine.exec (.antReturn) s = .next t ∧
        t.rd R.GNS_STAT_ACTIVE_ANT = p ∧
        t.tick = (s.waitClk (from_ + sec16 600)).tick ∧
        Touches [.tick, .lanes, .gnss, .regs .gns, .watch] s t) ∧
  (∀ (s : State) (span : Nat),
      s.gnsOn = true →
      s.gnsEligible = true →
      s.sleepLen span = 0 →
      ∃ t, Sys2Proof.Machine.exec (.gnssSleep span) s = .next t ∧
        Frame [] [] s t) ∧
  (∀ (s : State) (span : Nat),
      s.gnsOn = true →
      s.gnsEligible = true →
      0 < s.sleepLen span →
      ∃ t, Sys2Proof.Machine.exec (.gnssSleep span) s = .next t ∧
        t.rd R.GNS_SLEEP_STAT_ASLEEP = 1 ∧
        t.rd R.GNS_STAT_RUN = 0 ∧
        t.gnss.lossHeld = true ∧
        t.gnss.sleepUntil = s.clk + sec16 (min (min (s.rd R.GNS_SLEEP_CTL_MAX) span) (s.ephEnd - s.ts0 / sec16 1)) ∧
        t.gnss.resume = s.heldSignals ∧
        (∀ c : Fin 160, s.ch c.val ≠ .test → t.ch c.val = .idle) ∧
        (∀ k : Fin 6, t.rd (R.GNS_POS_POS k.val) = s.rd (R.GNS_POS_POS k.val)) ∧
        Touches [.gnss, .regs .gns, .watch] s t) ∧
  (∀ (s : State),
      s.rd R.GNS_SLEEP_STAT_ASLEEP = 1 →
      ∃ t, Sys2Proof.Machine.exec (.gnssSleepEnd) s = .next t ∧
        t.rd R.GNS_SLEEP_STAT_ASLEEP = 0 ∧
        t.rd R.GNS_SLEEP_CTL_WAKE = 0 ∧
        t.rd R.GNS_STAT_RUN = b01 (decide (s.rd R.GNS_CTL_EN = 1)) ∧
        t.gnss.wakeAt = some t.clk ∧
        t.gnss.lossHeld = s.gnss.lossHeld ∧
        (∀ n : Fin 4, (t.gnsPort n.val).epochAt = none ∧ (t.gnsPort n.val).awaitFrom = t.clk ∧ (t.gnsPort n.val).clean = 0) ∧
        (∀ (c : Fin 160) (g : GnssSig),
          s.gnss.resume = [(c.val, g)] →
          (∀ d : Fin 160, s.ch d.val = .idle) →
          s.reserved c.val = false →
          (∀ d : Fin 160, s.rd (R.GNS_CH_CFG_PIN d.val) ≠ 1) →
          t.signalOk g.sys.val (b01 g.low) (b01 g.ant) = true →
          (g.low = true → t.lowDirect (b01 g.ant) = true) →
          0 < t.antQuota (b01 g.ant) →
          t.ch c.val = .search ∧ t.rd (R.GNS_CH_STAT_SVID c.val) = g.svid.toNat) ∧
        (∀ c : Fin 160, t.ch c.val = .search →
          t.rd (R.GNS_CH_DOP_DOP c.val) = (Config.predictDop (t.satOf c.val) (t.gnsCh c.val).band t.ts0).toNat) ∧
        t.gnss.resume = [] ∧
        t.tick = (s.waitClk s.gnss.sleepUntil).tick ∧
        t.rd R.GNS_EVT_BITS = s.rd R.GNS_EVT_BITS ∧
        Touches [.tick, .lanes, .gnss, .regs .gns, .watch] s t) ∧
  (∀ (s : State) (w : Word),
      s.rd R.GNS_SLEEP_STAT_ASLEEP = 1 →
      ∃ t, Sys2Proof.Machine.exec (.gnssWake (some w)) s = .next t ∧
        t.rd R.GNS_SLEEP_STAT_ASLEEP = 0 ∧
        bit (t.rd R.GNS_EVT_BITS) 7 = true ∧
        t.gnss.wakeAt = some s.clk ∧
        t.gnss.lossHeld = s.gnss.lossHeld ∧
        (∀ n : Fin 4, (t.gnsPort n.val).epochAt = none ∧ (t.gnsPort n.val).awaitFrom = t.clk ∧ (t.gnsPort n.val).clean = 0) ∧
        (∀ (c : Fin 160) (g : GnssSig),
          s.gnss.resume = [(c.val, g)] →
          (∀ d : Fin 160, s.ch d.val = .idle) →
          s.reserved c.val = false →
          (∀ d : Fin 160, s.rd (R.GNS_CH_CFG_PIN d.val) ≠ 1) →
          t.signalOk g.sys.val (b01 g.low) (b01 g.ant) = true →
          (g.low = true → t.lowDirect (b01 g.ant) = true) →
          0 < t.antQuota (b01 g.ant) →
          t.ch c.val = .search ∧ t.rd (R.GNS_CH_STAT_SVID c.val) = g.svid.toNat) ∧
        (∀ c : Fin 160, t.ch c.val = .search →
          t.rd (R.GNS_CH_DOP_DOP c.val) = (Config.predictDop (t.satOf c.val) (t.gnsCh c.val).band t.ts0).toNat) ∧
        t.gnss.resume = [] ∧
        t.rd R.GNS_SLEEP_CTL_ALLOW = R.GNS_SLEEP_CTL_ALLOW.of w.toNat ∧
        Touches [.gnss, .regs .gns, .watch] s t) ∧
  (∀ (s : State),
      s.rd R.GNS_SLEEP_STAT_ASLEEP = 1 →
      s.wakeDue = true →
      ∃ t, Sys2Proof.Machine.exec (.gnssWake none) s = .next t ∧
        t.rd R.GNS_SLEEP_STAT_ASLEEP = 0 ∧
        bit (t.rd R.GNS_EVT_BITS) 7 = true ∧
        t.gnss.wakeAt = some s.clk ∧
        t.gnss.lossHeld = s.gnss.lossHeld ∧
        (∀ n : Fin 4, (t.gnsPort n.val).epochAt = none ∧ (t.gnsPort n.val).awaitFrom = t.clk ∧ (t.gnsPort n.val).clean = 0) ∧
        (∀ (c : Fin 160) (g : GnssSig),
          s.gnss.resume = [(c.val, g)] →
          (∀ d : Fin 160, s.ch d.val = .idle) →
          s.reserved c.val = false →
          (∀ d : Fin 160, s.rd (R.GNS_CH_CFG_PIN d.val) ≠ 1) →
          t.signalOk g.sys.val (b01 g.low) (b01 g.ant) = true →
          (g.low = true → t.lowDirect (b01 g.ant) = true) →
          0 < t.antQuota (b01 g.ant) →
          t.ch c.val = .search ∧ t.rd (R.GNS_CH_STAT_SVID c.val) = g.svid.toNat) ∧
        (∀ c : Fin 160, t.ch c.val = .search →
          t.rd (R.GNS_CH_DOP_DOP c.val) = (Config.predictDop (t.satOf c.val) (t.gnsCh c.val).band t.ts0).toNat) ∧
        t.gnss.resume = [] ∧
        Touches [.gnss, .regs .gns, .watch] s t) ∧
  (∀ (s : State) (at_ : Nat),
      s.gnss.wakeAt = some at_ →
      s.gnss.lossHeld = true →
      ∃ t, Sys2Proof.Machine.exec (.hotFail) s = .next t ∧
        t.rd R.GNS_SLEEP_STAT_HOT = 0 ∧
        bit (t.rd R.GNS_EVT_BITS) 8 = true ∧
        t.gnss = { s.gnss with lossHeld := false } ∧
        (t.slot 0).heard = t.clk ∧
        (t.slot 1).heard = t.clk ∧
        t.tick = (s.waitClk (at_ + sec16 5)).tick ∧
        Frame [R.GNS_SLEEP_STAT_HOT, R.GNS_EVT_BITS] [.tick, .lanes, .ens, .gnss] s t)

/-- MODULE_INSERT, MODULE_REMOVE, RECORD_READ, WARMUP_DONE, WARM_FAIL, MODULE_ALARM, ALARM_CLEAR, MODULE_PARK, MODULE_UNPARK.  Insertion
takes an EMPTY port to READING; the end of READING sets IDENT_OK with a valid record and stores it, takes the hours copy with the higher
SEQ (HOURS_BAD with none), loads the DAC from that copy, the record or mid-scale, and goes to WARMING, or to PARKED where PARK is set.
Warm-up, with the alarm pin high and CLK_OK 1, ends in READY, and twice its time without READY sets WARM_FAIL once; an alarm of 1 ms moves
READY to ALARM, and 10 s without it back; a write of RFM_CFG judges CLK_OK by the frequency it declares, and PARK writes the hours page
first; removal takes any other state to EMPTY with the DAC at mid-scale and PARK clear.
Choices of the model that it rests on: log entries 12 and 36.
(Rests on 05_reference_modules.md;
a port's CLK_OK as it goes through its states is log entry 98.) -/
def Obligations.ReferenceModules : Prop :=
  (∀ (s : State) (p : Fin 2),
      s.rfmState p.val = .empty →
      ∃ t, Sys2Proof.Machine.exec (.moduleInsert p) s = .next t ∧
        t.rfmState p.val = .reading ∧
        bit (t.rd R.RFM_EVT_BITS) (0 + 16 * p.val) = true ∧
        t.rd (R.RFM_STAT_CANDIDATE p.val) = 0 ∧
        t.rd (R.RFM_STAT_CLK_OK p.val) = 0 ∧
        Frame [R.RFM_STAT_STATE p.val, R.RFM_STAT_PARKED p.val, R.RFM_STAT_CLK_OK p.val, R.RFM_STAT_CANDIDATE p.val, R.RFM_EVT_BITS, R.ENS_ANCHOR_HOLD] [.ens, .rfm] s t) ∧
  (∀ (s : State) (p : Fin 2),
      s.rfmState p.val ≠ .empty →
      ∃ t, Sys2Proof.Machine.exec (.moduleRemove p) s = .next t ∧
        t.rfmState p.val = .empty ∧
        bit (t.rd R.RFM_EVT_BITS) (1 + 16 * p.val) = true ∧
        t.rd (R.RFM_EFC_CODE p.val) = 0x80000 ∧
        t.rd (R.RFM_CFG_PARK p.val) = 0 ∧
        t.rd (R.RFM_STAT_CANDIDATE p.val) = 0 ∧
        t.rd (R.RFM_STAT_CLK_OK p.val) = 0 ∧
        t.rd (R.RFM_STAT_IDENT_OK p.val) = 0 ∧
        t.rd (R.RFM_STAT_LIFE p.val) = 3 ∧
        (t.rfmPort p.val).work = none ∧
        (t.rfmPort p.val).jobs = [] ∧
        (t.rfmPort p.val).lastId = (s.rfmPort p.val).lastId ∧
        (s.rd R.ENS_ANCHOR_ACTIVE = p.val + 1 → s.rd (R.RFM_STAT_CANDIDATE p.val) = 1 → t.rd R.ENS_ANCHOR_HOLD = 1) ∧
        t.src (p.val + 2) = s.src (p.val + 2) ∧
        Touches [.ens, .rfm, .log, .regs .ens, .regs .rfm, .regs .wch] s t) ∧
  (∀ (s : State) (p : Fin 2) (idr : Option (List Byte)) (a b : List Byte),
      let r : List Nat := (idr.map natBytes).getD []
      s.rfmState p.val = .reading →
      ∃ t, Sys2Proof.Machine.exec (.recordRead p idr a b) s = .next t ∧
        (t.rfmState p.val = (if s.rd (R.RFM_CFG_PARK p.val) = 1 then .parked
          else if s.rd (R.RFM_STAT_CLK_OK p.val) = 1 ∧ s.rd (R.RFM_STAT_ALM p.val) ≠ 1 ∧ (t.rfmPort p.val).warmFrom.getD 0 + (sec16 (t.warmSecs p.val) : Nat) ≤ (t.clk : Int) then .ready else .warming)) ∧
        t.rd (R.RFM_STAT_IDENT_OK p.val) = b01 (recordValid r) ∧
        t.rd (R.RFM_STAT_HOURS_OK p.val) = b01 (chooseCopy (natBytes a) (natBytes b)).isSome ∧
        (∀ k : Fin 32, t.rd (R.RFM_REC_REC (p.val * 32 + k.val)) = (if recordValid r then leAt r (4 * k.val) 4 else 0)) ∧
        (chooseCopy (natBytes a) (natBytes b) = some 0 → t.rd (R.RFM_HOURS_HOURS p.val) = leAt (natBytes a) 4 4 ∧
          ((s.rfmPort p.val).keptMinutes = false → t.rd (R.RFM_EFC_CODE p.val) = leAt (natBytes a) 8 4 % 2 ^ 20 ∧ t.rd (R.RFM_USE_MINUTES p.val) = leAt (natBytes a) 2 1)) ∧
        (chooseCopy (natBytes a) (natBytes b) = some 1 → t.rd (R.RFM_HOURS_HOURS p.val) = leAt (natBytes b) 4 4 ∧
          ((s.rfmPort p.val).keptMinutes = false → t.rd (R.RFM_EFC_CODE p.val) = leAt (natBytes b) 8 4 % 2 ^ 20 ∧ t.rd (R.RFM_USE_MINUTES p.val) = leAt (natBytes b) 2 1)) ∧
        (chooseCopy (natBytes a) (natBytes b) = none → t.rd (R.RFM_HOURS_HOURS p.val) = 0 ∧
          ((s.rfmPort p.val).keptMinutes = false → t.rd (R.RFM_EFC_CODE p.val) = (if recordValid r then leAt r 68 4 % 2 ^ 20 else 0x80000)) ∧ bit (t.rd R.RFM_EVT_BITS) (7 + 16 * p.val) = true) ∧
        ((s.rfmPort p.val).keptMinutes = true → recordValid r = true → (s.rfmPort p.val).lastValid = true → (s.rfmPort p.val).lastId = recordId r →
          t.rd (R.RFM_EFC_CODE p.val) = s.rd (R.RFM_EFC_CODE p.val) ∧ t.rd (R.RFM_USE_MINUTES p.val) = s.rd (R.RFM_USE_MINUTES p.val)) ∧
        (recordValid r = false → bit (t.rd R.RFM_EVT_BITS) (6 + 16 * p.val) = true ∧ t.rd (R.RFM_STAT_LIFE p.val) = 3) ∧
        Touches [.ens, .rfm, .log, .regs .ens, .regs .rfm, .regs .wch] s t) ∧
  (∀ (s : State) (p : Fin 2) (from_ : Int),
      (s.rfmPort p.val).warmFrom = some from_ →
      s.rfmState p.val = .warming →
      s.rd (R.RFM_STAT_ALM p.val) ≠ 1 →
      s.rd (R.RFM_STAT_CLK_OK p.val) = 1 →
      ∃ t, Sys2Proof.Machine.exec (.warmupDone p) s = .next t ∧
        t.rfmState p.val = .ready ∧
        bit (t.rd R.RFM_EVT_BITS) (2 + 16 * p.val) = true ∧
        t.rd (R.RFM_STAT_CANDIDATE p.val) = 1 ∧
        t.tick = (s.waitClk (from_ + (sec16 (s.warmSecs p.val) : Nat)).toNat).tick ∧
        Frame [R.RFM_STAT_STATE p.val, R.RFM_STAT_PARKED p.val, R.RFM_STAT_CANDIDATE p.val, R.RFM_EVT_BITS, R.ENS_ANCHOR_HOLD] [.tick, .lanes, .ens, .rfm] s t) ∧
  (∀ (s : State) (p : Fin 2) (from_ : Int),
      (s.rfmPort p.val).warmFrom = some from_ →
      s.rfmState p.val = .warming →
      (s.rd (R.RFM_STAT_ALM p.val) = 1 ∨ s.rd (R.RFM_STAT_CLK_OK p.val) ≠ 1) →
      (s.rfmPort p.val).warmEnd = false →
      ∃ t, Sys2Proof.Machine.exec (.warmFail p) s = .next t ∧
        t.rfmState p.val = .warming ∧
        (t.rfmPort p.val).warmEnd = true ∧
        bit (t.rd R.RFM_EVT_BITS) (4 + 16 * p.val) = true ∧
        t.tick = (s.waitClk (from_ + (sec16 (2 * s.warmSecs p.val) : Nat)).toNat).tick ∧
        Frame [R.RFM_EVT_BITS] [.tick, .lanes, .rfm] s t) ∧
  (∀ (s : State) (p : Fin 2),
      (s.rd (R.RFM_STAT_ALM p.val) = 1 ∨ s.rd (R.RFM_STAT_CLK_OK p.val) ≠ 1 ∨ s.rfmState p.val ≠ .warming) →
      ((s.rfmPort p.val).warmEnd = true ∨ s.rfmState p.val ≠ .warming) →
      ∃ t, Sys2Proof.Machine.exec (.warmFail p) s = .next t ∧
        Frame [] [] s t) ∧
  (∀ (s : State) (p : Fin 2) (from_ : Int),
      (s.rfmPort p.val).warmFrom = some from_ →
      s.rfmState p.val = .warming →
      s.rd (R.RFM_STAT_ALM p.val) ≠ 1 →
      s.rd (R.RFM_STAT_CLK_OK p.val) = 1 →
      ∃ t, Sys2Proof.Machine.exec (.warmFail p) s = .next t ∧
        t.rfmState p.val = .ready ∧
        Touches [.tick, .lanes, .ens, .rfm, .regs .rfm, .regs .ens] s t) ∧
  (∀ (s : State) (p : Fin 2) (us : Nat),
      s.rfmState p.val ≠ .empty →
      ∃ t, Sys2Proof.Machine.exec (.moduleAlarm p us) s = .next t ∧
        t.rd (R.RFM_STAT_ALM p.val) = 1 ∧
        (t.rfmState p.val = (if 1000 ≤ us ∧ s.rfmState p.val = .ready then .alarm else s.rfmState p.val)) ∧
        (1000 ≤ us → s.rfmState p.val = .ready → bit (t.rd R.RFM_EVT_BITS) (3 + 16 * p.val) = true ∧ t.rd (R.RFM_STAT_CANDIDATE p.val) = 0) ∧
        Frame (R.RFM_STAT_ALM p.val :: [R.RFM_STAT_STATE p.val, R.RFM_STAT_PARKED p.val, R.RFM_STAT_CANDIDATE p.val, R.RFM_EVT_BITS, R.ENS_ANCHOR_HOLD]) [.ens] s t) ∧
  (∀ (s : State) (p : Fin 2) (ms : Nat),
      (s.rfmState p.val ≠ .warming ∧ (ms < 10000 ∨ s.rfmState p.val ≠ .alarm)) →
      ∃ t, Sys2Proof.Machine.exec (.alarmClear p ms) s = .next t ∧
        t.rd (R.RFM_STAT_ALM p.val) = 0 ∧
        t.rfmState p.val = s.rfmState p.val ∧
        Frame [R.RFM_STAT_ALM p.val] [] s t) ∧
  (∀ (s : State) (p : Fin 2) (ms : Nat) (from_ : Int),
      s.rfmState p.val = .warming →
      (s.rfmPort p.val).warmFrom = some from_ →
      from_ + (sec16 (s.warmSecs p.val) : Nat) ≤ (s.clk : Int) →
      s.rd (R.RFM_STAT_CLK_OK p.val) = 1 →
      ∃ t, Sys2Proof.Machine.exec (.alarmClear p ms) s = .next t ∧
        t.rfmState p.val = .ready ∧
        t.rd (R.RFM_STAT_ALM p.val) = 0 ∧
        t.rd (R.RFM_STAT_CANDIDATE p.val) = 1 ∧
        Frame (R.RFM_STAT_ALM p.val :: [R.RFM_STAT_STATE p.val, R.RFM_STAT_PARKED p.val, R.RFM_STAT_CANDIDATE p.val, R.RFM_EVT_BITS, R.ENS_ANCHOR_HOLD]) [.ens, .rfm] s t) ∧
  (∀ (s : State) (p : Fin 2) (ms : Nat),
      s.rfmState p.val = .alarm →
      s.rd (R.RFM_STAT_CLK_OK p.val) = 1 →
      10000 ≤ ms →
      ∃ t, Sys2Proof.Machine.exec (.alarmClear p ms) s = .next t ∧
        t.rfmState p.val = .ready ∧
        t.rd (R.RFM_STAT_ALM p.val) = 0 ∧
        bit (t.rd R.RFM_EVT_BITS) (2 + 16 * p.val) = true ∧
        t.rd (R.RFM_STAT_CANDIDATE p.val) = 1 ∧
        Frame (R.RFM_STAT_ALM p.val :: [R.RFM_STAT_STATE p.val, R.RFM_STAT_PARKED p.val, R.RFM_STAT_CANDIDATE p.val, R.RFM_EVT_BITS, R.ENS_ANCHOR_HOLD]) [.ens, .rfm] s t) ∧
  (∀ (s : State) (p : Fin 2),
      (s.rfmPort p.val).hz = none →
      judgeClock p.val s = s) ∧
  (∀ (s : State) (p : Fin 2) (h : Nat),
      let u : State := judgeClock p.val s
      (s.rfmPort p.val).hz = some h →
      (u.rd (R.RFM_STAT_CLK_OK p.val) =
        b01 (decide (|((h : Rat) - (s.declaredHz p.val * 1000000000 : Nat)) / (s.declaredHz p.val * 1000000000 : Nat)| ≤ 5 / 1000000))) ∧
      u.rd (R.RFM_STAT_CANDIDATE p.val) = b01 (decide (u.rfmState p.val = .ready ∧ u.rd (R.RFM_STAT_CLK_OK p.val) = 1)) ∧
      (u.rfmState p.val ≠ s.rfmState p.val → s.rfmState p.val = .warming ∧ u.rfmState p.val = .ready) ∧
      Frame [R.RFM_STAT_STATE p.val, R.RFM_STAT_PARKED p.val, R.RFM_STAT_CLK_OK p.val, R.RFM_STAT_CANDIDATE p.val, R.RFM_EVT_BITS, R.ENS_ANCHOR_HOLD] [.ens, .rfm] s u) ∧
  (∀ (s : State) (p : Fin 2) (w : Word),
      let u : State := judgeClock p.val (s.storeReg false (Reg.RFM_CFG p.val) ((R.RFM_CFG_PARK p.val).setIn w.toNat))
      (s.rd (R.RFM_CFG_PARK p.val) = 1 ∨ s.rfmState p.val = .empty ∨ s.rfmState p.val = .reading ∨ s.rfmState p.val = .parked) →
      ∃ t, Sys2Proof.Machine.exec (.modulePark p w) s = .next t ∧
        t.rd (R.RFM_CFG_PARK p.val) = 1 ∧
        t.rd (R.RFM_CFG_CLK p.val) = (R.RFM_CFG_CLK p.val).of w.toNat ∧
        t.rfmState p.val = u.rfmState p.val ∧
        t.rd (R.RFM_STAT_CLK_OK p.val) = u.rd (R.RFM_STAT_CLK_OK p.val) ∧
        Frame ([R.RFM_STAT_STATE p.val, R.RFM_STAT_PARKED p.val, R.RFM_STAT_CLK_OK p.val, R.RFM_STAT_CANDIDATE p.val, R.RFM_EVT_BITS, R.ENS_ANCHOR_HOLD] ++ (Reg.RFM_CFG p.val).fields) [.ens, .rfm] s t) ∧
  (∀ (s : State) (p : Fin 2) (w : Word),
      let u : State := judgeClock p.val (s.storeReg false (Reg.RFM_CFG p.val) ((R.RFM_CFG_PARK p.val).setIn w.toNat))
      s.rd (R.RFM_CFG_PARK p.val) ≠ 1 →
      (s.rfmState p.val = .warming ∨ s.rfmState p.val = .ready ∨ s.rfmState p.val = .alarm) →
      s.rd (R.RFM_STAT_HOURS_OK p.val) = 1 →
      ∃ t, Sys2Proof.Machine.exec (.modulePark p w) s = .next t ∧
        t.rd (R.RFM_CFG_PARK p.val) = 1 ∧
        t.rfmState p.val = u.rfmState p.val ∧
        t.rd (R.RFM_STAT_CLK_OK p.val) = u.rd (R.RFM_STAT_CLK_OK p.val) ∧
        ((s.rfmPort p.val).work = none → (s.rfmPort p.val).jobs = [] →
          (t.rfmPort p.val).work = some ((s.rfmPort p.val).nextWrite .flush) ∧ .eeprom p.val (if 1 - (s.rfmPort p.val).lastCopy = 0 then 0x80 else 0xA0) (s.hoursPage p.val (((s.rfmPort p.val).nextWrite .flush).seq)) ∈ t.out) ∧
        ((s.rfmPort p.val).work ≠ none → (t.rfmPort p.val).work = (s.rfmPort p.val).work ∧ (t.rfmPort p.val).jobs = (s.rfmPort p.val).jobs ++ [.flush]) ∧
        Frame ([R.RFM_STAT_STATE p.val, R.RFM_STAT_PARKED p.val, R.RFM_STAT_CLK_OK p.val, R.RFM_STAT_CANDIDATE p.val, R.RFM_EVT_BITS, R.ENS_ANCHOR_HOLD] ++ (Reg.RFM_CFG p.val).fields) [.ens, .rfm] s t) ∧
  (∀ (s : State) (p : Fin 2) (w : Word),
      s.rd (R.RFM_CFG_PARK p.val) ≠ 1 →
      (s.rfmState p.val = .warming ∨ s.rfmState p.val = .ready ∨ s.rfmState p.val = .alarm) →
      s.rd (R.RFM_STAT_HOURS_OK p.val) ≠ 1 →
      ∃ t, Sys2Proof.Machine.exec (.modulePark p w) s = .next t ∧
        t.rd (R.RFM_CFG_PARK p.val) = 1 ∧
        t.rfmState p.val = .parked ∧
        t.rd (R.RFM_STAT_PARKED p.val) = 1 ∧
        t.rd (R.RFM_STAT_CLK_OK p.val) = 0 ∧
        Frame ([R.RFM_STAT_STATE p.val, R.RFM_STAT_PARKED p.val, R.RFM_STAT_CLK_OK p.val, R.RFM_STAT_CANDIDATE p.val, R.RFM_EVT_BITS, R.ENS_ANCHOR_HOLD] ++ (Reg.RFM_CFG p.val).fields) [.ens, .rfm] s t) ∧
  (∀ (s : State) (p : Fin 2) (w : Word),
      s.rfmState p.val = .parked →
      ∃ t, Sys2Proof.Machine.exec (.moduleUnpark p w) s = .next t ∧
        ((s.rfmPort p.val).hz = none → t.rd (R.RFM_STAT_CLK_OK p.val) = s.rd (R.RFM_STAT_CLK_OK p.val)) ∧
        (t.rfmState p.val = (if t.rd (R.RFM_STAT_CLK_OK p.val) = 1 ∧ s.rd (R.RFM_STAT_ALM p.val) ≠ 1 ∧ (s.rfmPort p.val).warmFrom ≠ none ∧ (t.rfmPort p.val).warmFrom.getD 0 + (sec16 (t.warmSecs p.val) : Nat) ≤ (t.clk : Int) then .ready else .warming)) ∧
        t.rd (R.RFM_CFG_PARK p.val) = 0 ∧
        t.rd (R.RFM_STAT_PARKED p.val) = 0 ∧
        (t.rfmPort p.val).warmFrom = (s.rfmPort p.val).warmFrom ∧
        Frame ([R.RFM_STAT_STATE p.val, R.RFM_STAT_PARKED p.val, R.RFM_STAT_CLK_OK p.val, R.RFM_STAT_CANDIDATE p.val, R.RFM_EVT_BITS, R.ENS_ANCHOR_HOLD] ++ (Reg.RFM_CFG p.val).fields) [.ens, .rfm] s t) ∧
  (∀ (s : State) (p : Fin 2) (w : Word),
      let u : State := judgeClock p.val (s.storeReg false (Reg.RFM_CFG p.val) ((R.RFM_CFG_PARK p.val).clearIn w.toNat))
      s.rfmState p.val ≠ .parked →
      ∃ t, Sys2Proof.Machine.exec (.moduleUnpark p w) s = .next t ∧
        t.rd (R.RFM_CFG_PARK p.val) = 0 ∧
        t.rfmState p.val = u.rfmState p.val ∧
        t.rd (R.RFM_STAT_CLK_OK p.val) = u.rd (R.RFM_STAT_CLK_OK p.val) ∧
        Frame ([R.RFM_STAT_STATE p.val, R.RFM_STAT_PARKED p.val, R.RFM_STAT_CLK_OK p.val, R.RFM_STAT_CANDIDATE p.val, R.RFM_EVT_BITS, R.ENS_ANCHOR_HOLD] ++ (Reg.RFM_CFG p.val).fields) [.ens, .rfm] s t)

/-- MODULE_MINUTE, HOURS_WRITE_END, HOURS_SET_GO, EFC_WRITE, MODULE_PPS, CLOCK_MEASURE.  A page written to the EEPROM is a valid copy that
holds SEQ, the minutes, the hours and the DAC code.  A minute counts in the states that count hours, and the 60th adds an hour and writes
the page of the copy not chosen last, or queues it behind the one at work.  A write that ends notes its copy's SEQ, and a flush completes
the park; a failed one stays to be retried, the first failure with I2C_ERR.  HOURS_SET takes the value, writes it to both copies, and is
refused in EMPTY and READING.  RFM_EFC acts in HOST mode only, which an invalid record rules out.  PPS edges are captured on the port's own
interval channel; in READY the first edge of a second is delivered to the slot, one within 0.9 s of it is counted as extra.  A 1 s
measurement, in WARMING and READY, sets CLK_OK within 5 ppm of the declared frequency.
Choices of the model that it rests on: log entries 17, 36, 94 and 98.
(Rests on 05_reference_modules.md.) -/
def Obligations.ModuleHoursAndEfc : Prop :=
  (∀ (s : State) (p : Fin 2) (seq : Nat),
      let page : List Nat := s.hoursPage p.val seq
      copyValid page = true ∧ leAt page 0 2 = seq % 65536 ∧ leAt page 2 1 = s.rd (R.RFM_USE_MINUTES p.val) % 256 ∧
        leAt page 4 4 = s.rd (R.RFM_HOURS_HOURS p.val) % 2 ^ 32 ∧ leAt page 8 4 = s.rd (R.RFM_EFC_CODE p.val) % 2 ^ 32) ∧
  (∀ (s : State) (p : Fin 2),
      s.rfmState p.val ≠ .empty →
      s.rfmState p.val ≠ .reading →
      s.rd (R.RFM_USE_MINUTES p.val) < 59 →
      ∃ t, Sys2Proof.Machine.exec (.moduleMinute p) s = .next t ∧
        t.rd (R.RFM_USE_MINUTES p.val) = s.rd (R.RFM_USE_MINUTES p.val) + 1 ∧
        Frame [R.RFM_USE_MINUTES p.val] [.rfm] s t) ∧
  (∀ (s : State) (p : Fin 2),
      s.rfmState p.val ≠ .empty →
      s.rfmState p.val ≠ .reading →
      s.rd (R.RFM_USE_MINUTES p.val) = 59 →
      ∃ t, Sys2Proof.Machine.exec (.moduleMinute p) s = .next t ∧
        t.rd (R.RFM_USE_MINUTES p.val) = 0 ∧
        t.rd (R.RFM_HOURS_HOURS p.val) = (s.rd (R.RFM_HOURS_HOURS p.val) + 1) % 2 ^ 32 ∧
        (s.rd (R.RFM_STAT_HOURS_OK p.val) = 1 → (s.rfmPort p.val).work = none → (s.rfmPort p.val).jobs = [] →
          (t.rfmPort p.val).work = some { copy := 1 - (s.rfmPort p.val).lastCopy, seq := (((if 1 - (s.rfmPort p.val).lastCopy = 0 then (s.rfmPort p.val).seqB else (s.rfmPort p.val).seqA).getD 0) + 1) % 65536, job := .hourly } ∧
          .eeprom p.val (if 1 - (s.rfmPort p.val).lastCopy = 0 then 0x80 else 0xA0) (t.hoursPage p.val (((s.rfmPort p.val).nextWrite .hourly).seq)) ∈ t.out) ∧
        (s.rd (R.RFM_STAT_HOURS_OK p.val) = 1 → (s.rfmPort p.val).work ≠ none → (t.rfmPort p.val).jobs = (s.rfmPort p.val).jobs ++ [.hourly]) ∧
        (s.rd (R.RFM_STAT_HOURS_OK p.val) = 1 → (t.rfmPort p.val).codes = (s.rd (R.RFM_EFC_CODE p.val) :: (s.rfmPort p.val).codes).take 720) ∧
        (s.rd (R.RFM_STAT_HOURS_OK p.val) ≠ 1 → (t.rfmPort p.val).jobs = (s.rfmPort p.val).jobs ∧ (t.rfmPort p.val).codes = (s.rfmPort p.val).codes) ∧
        Frame ([R.RFM_USE_MINUTES p.val, R.RFM_HOURS_HOURS p.val, R.RFM_RAIL_RAIL p.val] ++ ([R.RFM_LIFE_REMAIN p.val, R.RFM_STAT_LIFE p.val, R.RFM_EVT_BITS] ++ logFields)) [.rfm, .log] s t) ∧
  (∀ (s : State) (p : Fin 2) (w : HoursWrite) (rest : List HoursJob),
      (s.rfmPort p.val).work = some w →
      (s.rfmPort p.val).jobs = rest →
      w.failed = false →
      (w.job = .hourly ∨ w.job = .flush) →
      ∃ t, Sys2Proof.Machine.exec (.hoursWriteEnd p true) s = .next t ∧
        (rest = [] → (t.rfmPort p.val).work = none ∧ (t.rfmPort p.val).jobs = []) ∧
        (∀ j js, rest = j :: js → (t.rfmPort p.val).work = some ((t.rfmPort p.val).nextWrite j) ∧ (t.rfmPort p.val).jobs = js) ∧
        (t.rfmPort p.val).lastCopy = w.copy ∧
        ((if w.copy = 0 then (t.rfmPort p.val).seqA else (t.rfmPort p.val).seqB) = some w.seq) ∧
        t.rd (R.RFM_USE_SEQ p.val) = w.seq % 65536 ∧
        (t.rfmState p.val = (if w.job = .flush ∧ s.rd (R.RFM_CFG_PARK p.val) = 1 then .parked else s.rfmState p.val)) ∧
        Frame (R.RFM_USE_SEQ p.val :: [R.RFM_STAT_STATE p.val, R.RFM_STAT_PARKED p.val, R.RFM_STAT_CLK_OK p.val, R.RFM_STAT_CANDIDATE p.val, R.RFM_EVT_BITS, R.ENS_ANCHOR_HOLD]) [.ens, .rfm] s t) ∧
  (∀ (s : State) (p : Fin 2) (w : HoursWrite) (rest : List HoursJob),
      (s.rfmPort p.val).work = some w →
      (s.rfmPort p.val).jobs = rest →
      w.failed = false →
      w.job = .setFirst →
      ∃ t, Sys2Proof.Machine.exec (.hoursWriteEnd p true) s = .next t ∧
        (t.rfmPort p.val).work = some { copy := 1 - w.copy, seq := (w.seq + 1) % 65536, job := .setSecond } ∧
        (t.rfmPort p.val).jobs = rest ∧
        .eeprom p.val (if 1 - w.copy = 0 then 0x80 else 0xA0) (s.hoursPage p.val ((w.seq + 1) % 65536)) ∈ t.out ∧
        Frame [R.RFM_USE_SEQ p.val] [.rfm] s t) ∧
  (∀ (s : State) (p : Fin 2) (w : HoursWrite) (rest : List HoursJob),
      (s.rfmPort p.val).work = some w →
      (s.rfmPort p.val).jobs = rest →
      w.failed = false →
      w.job = .setSecond →
      ∃ t, Sys2Proof.Machine.exec (.hoursWriteEnd p true) s = .next t ∧
        (rest = [] → (t.rfmPort p.val).work = none ∧ (t.rfmPort p.val).jobs = []) ∧
        (∀ j js, rest = j :: js → (t.rfmPort p.val).work = some ((t.rfmPort p.val).nextWrite j) ∧ (t.rfmPort p.val).jobs = js) ∧
        t.rd (R.RFM_HOURS_CMD_DONE p.val) = 1 ∧
        t.rd (R.RFM_HOURS_CMD_GO p.val) = 0 ∧
        t.rd (R.RFM_STAT_HOURS_OK p.val) = 1 ∧
        (s.rd (R.RFM_STAT_IDENT_OK p.val) ≠ 1 → bit (t.rd R.RFM_EVT_BITS) (7 + 16 * p.val) = false) ∧
        Frame ([R.RFM_USE_SEQ p.val, R.RFM_HOURS_CMD_DONE p.val, R.RFM_HOURS_CMD_GO p.val, R.RFM_STAT_HOURS_OK p.val] ++ ([R.RFM_LIFE_REMAIN p.val, R.RFM_STAT_LIFE p.val, R.RFM_EVT_BITS] ++ logFields)) [.rfm, .log, .fw] s t) ∧
  (∀ (s : State) (p : Fin 2) (w : HoursWrite) (rest : List HoursJob),
      (s.rfmPort p.val).work = some w →
      (s.rfmPort p.val).jobs = rest →
      w.failed = false →
      ∃ t, Sys2Proof.Machine.exec (.hoursWriteEnd p false) s = .next t ∧
        (t.rfmPort p.val).work = some { w with failed := true, tried := true } ∧
        (t.rfmPort p.val).jobs = rest ∧
        (w.tried = false → bit (t.rd R.RFM_EVT_BITS) (8 + 16 * p.val) = true) ∧
        Frame [R.RFM_EVT_BITS] [.rfm] s t) ∧
  (∀ (s : State) (p : Fin 2) (w : Word),
      s.rfmState p.val ≠ .empty →
      s.rfmState p.val ≠ .reading →
      ∃ t, Sys2Proof.Machine.exec (.hoursSetGo p w) s = .next t ∧
        t.rd (R.RFM_HOURS_HOURS p.val) = s.rd (R.RFM_HOURS_SET_VALUE p.val) % 2 ^ 32 ∧
        t.rd (R.RFM_USE_MINUTES p.val) = 0 ∧
        t.rd (R.RFM_HOURS_CMD_GO p.val) = 1 ∧
        ((s.rfmPort p.val).work = none → (s.rfmPort p.val).jobs = [] →
          (t.rfmPort p.val).work = some { copy := 1 - (s.rfmPort p.val).lastCopy, seq := ((s.rfmPort p.val).topSeq.getD 0 + 1) % 65536, job := .setFirst } ∧
          .eeprom p.val (if 1 - (s.rfmPort p.val).lastCopy = 0 then 0x80 else 0xA0) (t.hoursPage p.val (((s.rfmPort p.val).topSeq.getD 0 + 1) % 65536)) ∈ t.out) ∧
        ((s.rfmPort p.val).work ≠ none → (t.rfmPort p.val).jobs = (s.rfmPort p.val).jobs ++ [.setFirst]) ∧
        Frame ([R.RFM_HOURS_HOURS p.val, R.RFM_USE_MINUTES p.val] ++ (Reg.RFM_HOURS_CMD p.val).fields ++ ([R.RFM_LIFE_REMAIN p.val, R.RFM_STAT_LIFE p.val, R.RFM_EVT_BITS] ++ logFields)) [.rfm, .log] s t) ∧
  (∀ (s : State) (p : Fin 2) (w : Word),
      (s.rfmState p.val = .empty ∨ s.rfmState p.val = .reading) →
      ∃ t, Sys2Proof.Machine.exec (.hoursSetGo p w) s = .next t ∧
        t.rd (R.RFM_HOURS_CMD_REFUSED p.val) = 1 ∧
        Frame (Reg.RFM_HOURS_CMD p.val).fields [] s t) ∧
  (∀ (s : State) (p : Fin 2) (w : Word),
      (s.rd (R.RFM_STAT_IDENT_OK p.val) = 1 ∨ s.rfmState p.val = .empty ∨ s.rfmState p.val = .reading) →
      s.rd (R.RFM_CFG_EFC_MODE p.val) = 1 →
      ∃ t, Sys2Proof.Machine.exec (.efcWrite p w) s = .next t ∧
        t.rd (R.RFM_EFC_CODE p.val) = w.toNat % 2 ^ 20 ∧
        ((w.toNat % 2 ^ 20 = 0 ∨ w.toNat % 2 ^ 20 = 0xFFFFF) → (s.rd (R.RFM_EFC_CODE p.val) ≠ w.toNat % 2 ^ 20 ∨ s.rd (R.RFM_STAT_EFC_RAIL p.val) ≠ 1) →
          bit (t.rd R.RFM_EVT_BITS) (12 + 16 * p.val) = true) ∧
        (t.rd (R.RFM_STAT_EFC_RAIL p.val) = b01 (decide (w.toNat % 2 ^ 20 = 0 ∨ w.toNat % 2 ^ 20 = 0xFFFFF))) ∧
        Frame [R.RFM_EFC_CODE p.val, R.RFM_STAT_EFC_RAIL p.val, R.RFM_EVT_BITS] [] s t) ∧
  (∀ (s : State) (p : Fin 2) (w : Word),
      ((s.rd (R.RFM_STAT_IDENT_OK p.val) ≠ 1 ∧ s.rfmState p.val ≠ .empty ∧ s.rfmState p.val ≠ .reading) ∨ s.rd (R.RFM_CFG_EFC_MODE p.val) ≠ 1) →
      ∃ t, Sys2Proof.Machine.exec (.efcWrite p w) s = .next t ∧
        Frame [] [] s t) ∧
  (∀ (s : State) (p : Fin 2) (dc : Nat) (bin : Fin 64),
      let u : State := s.waitTick (tickOfCoarse (s.coarseNow + dc))
      let e : Nat := (u.capture (80 + p.val) (s.coarseNow + dc) bin.val false).time
      s.rfmState p.val = .ready →
      (s.rfmPort p.val).ppsAt = none →
      ∃ t, Sys2Proof.Machine.exec (.modulePps p dc bin) s = .next t ∧
        t.tick = u.tick ∧
        (t.rfmPort p.val).ppsAt = some (u.clkOf e) ∧
        (t.rfmPort p.val).ppsSec = u.ppsSecond p.val e ∧
        (t.slot (p.val + 2)).inbox.length = (s.slot (p.val + 2)).inbox.length + 1 ∧
        (t.slot (p.val + 2)).inbox.getLast?.map (·.t) = some (u.clkOf e) ∧
        Frame [] [.tick, .lanes, .tim, .rfm, .ens] s t) ∧
  (∀ (s : State) (p : Fin 2) (dc : Nat) (bin : Fin 64) (last : Nat),
      let u : State := s.waitTick (tickOfCoarse (s.coarseNow + dc))
      let e : Nat := (u.capture (80 + p.val) (s.coarseNow + dc) bin.val false).time
      s.rfmState p.val = .ready →
      (s.rfmPort p.val).ppsAt = some last →
      u.clkOf e < last + ms16 900 →
      ∃ t, Sys2Proof.Machine.exec (.modulePps p dc bin) s = .next t ∧
        t.tick = u.tick ∧
        t.rd (R.RFM_PPS_EXTRA_EXTRA p.val) = satNat 16 (s.rd (R.RFM_PPS_EXTRA_EXTRA p.val) + 1) ∧
        bit (t.rd R.RFM_EVT_BITS) (13 + 16 * p.val) = true ∧
        Frame [R.RFM_PPS_EXTRA_EXTRA p.val, R.RFM_EVT_BITS] [.tick, .lanes, .tim] s t) ∧
  (∀ (s : State) (p : Fin 2) (dc : Nat) (bin : Fin 64) (last : Nat),
      let u : State := s.waitTick (tickOfCoarse (s.coarseNow + dc))
      let e : Nat := (u.capture (80 + p.val) (s.coarseNow + dc) bin.val false).time
      s.rfmState p.val = .ready →
      (s.rfmPort p.val).ppsAt = some last →
      last + ms16 900 ≤ u.clkOf e →
      u.ppsSecond p.val e ≠ (s.rfmPort p.val).ppsSec →
      ∃ t, Sys2Proof.Machine.exec (.modulePps p dc bin) s = .next t ∧
        t.tick = u.tick ∧
        (t.rfmPort p.val).ppsAt = some (u.clkOf e) ∧
        (t.rfmPort p.val).ppsSec = u.ppsSecond p.val e ∧
        (t.slot (p.val + 2)).inbox.length = (s.slot (p.val + 2)).inbox.length + 1 ∧
        Frame [] [.tick, .lanes, .tim, .rfm, .ens] s t) ∧
  (∀ (s : State) (p : Fin 2) (dc : Nat) (bin : Fin 64) (last : Nat),
      let u : State := s.waitTick (tickOfCoarse (s.coarseNow + dc))
      let e : Nat := (u.capture (80 + p.val) (s.coarseNow + dc) bin.val false).time
      s.rfmState p.val = .ready →
      (s.rfmPort p.val).ppsAt = some last →
      last + ms16 900 ≤ u.clkOf e →
      u.ppsSecond p.val e = (s.rfmPort p.val).ppsSec →
      ∃ t, Sys2Proof.Machine.exec (.modulePps p dc bin) s = .next t ∧
        t.tick = u.tick ∧
        Frame [] [.tick, .lanes, .tim] s t) ∧
  (∀ (s : State) (p : Fin 2) (dc : Nat) (bin : Fin 64),
      (s.rfmState p.val = .warming ∨ s.rfmState p.val = .alarm) →
      ∃ t, Sys2Proof.Machine.exec (.modulePps p dc bin) s = .next t ∧
        t.tick = (s.waitTick (tickOfCoarse (s.coarseNow + dc))).tick ∧
        Frame [] [.tick, .lanes, .tim] s t) ∧
  (∀ (s : State) (p : Fin 2) (dc : Nat) (bin : Fin 64),
      (s.rfmState p.val = .empty ∨ s.rfmState p.val = .reading ∨ s.rfmState p.val = .parked) →
      ∃ t, Sys2Proof.Machine.exec (.modulePps p dc bin) s = .next t ∧
        Frame [] [] s t) ∧
  (∀ (s : State) (c : Fin 3) (nHz : Nat) (p : Fin 2),
      let f : Rat := ((nHz : Rat) - (s.declaredHz p.val * 1000000000 : Nat)) / (s.declaredHz p.val * 1000000000 : Nat)
      c.val = p.val + 1 →
      (s.rfmState p.val = .warming ∨ s.rfmState p.val = .ready) →
      ∃ t, Sys2Proof.Machine.exec (.clockMeasure c nHz) s = .next t ∧
        (t.rfmPort p.val).hz = some nHz ∧
        (t.rfmPort p.val).freqs = (s.clk, nHz) :: (s.rfmPort p.val).freqs.filter (fun q => decide (s.clk < q.1 + sec16 64)) ∧
        IMap.get none t.ens.clockHz c.val = some nHz ∧
        (t.rd (R.RFM_STAT_CLK_OK p.val) = (if |f| ≤ 5 / 1000000 then 1 else 0)) ∧
        (t.rfmState p.val = (if s.rfmState p.val = .ready ∨ (|f| ≤ 5 / 1000000 ∧ s.rd (R.RFM_STAT_ALM p.val) ≠ 1 ∧ (s.rfmPort p.val).warmFrom ≠ none ∧ (t.rfmPort p.val).warmFrom.getD 0 + (sec16 (t.warmSecs p.val) : Nat) ≤ (t.clk : Int)) then .ready else .warming)) ∧
        t.rd (R.RFM_STAT_CANDIDATE p.val) = b01 (decide (t.rfmState p.val = .ready ∧ t.rd (R.RFM_STAT_CLK_OK p.val) = 1)) ∧
        Frame [R.RFM_STAT_STATE p.val, R.RFM_STAT_PARKED p.val, R.RFM_STAT_CLK_OK p.val, R.RFM_STAT_CANDIDATE p.val, R.RFM_EVT_BITS, R.ENS_ANCHOR_HOLD] [.rfm, .ens] s t) ∧
  (∀ (s : State) (c : Fin 3) (nHz : Nat) (p : Fin 2),
      c.val = p.val + 1 →
      s.rfmState p.val ≠ .warming →
      s.rfmState p.val ≠ .ready →
      ∃ t, Sys2Proof.Machine.exec (.clockMeasure c nHz) s = .next t ∧
        Frame [] [] s t) ∧
  (∀ (s : State) (nHz : Nat),
      ∃ t, Sys2Proof.Machine.exec (.clockMeasure 0 nHz) s = .next t ∧
        IMap.get none t.ens.clockHz 0 = some nHz ∧
        Frame [] [.ens] s t)

/-- TI_EDGE, COUNT_SECOND, PAIR_OVERFLOW, CHANNEL_ARM, CHANNEL_DISARM.  A channel that is OFF takes no edge.  An ungated stamp channel with
PRESCALE 0 and no dead time stamps the edge: a record of TYPE 1 with the converted time, bin, unit and coarse count goes in the group
ring; an edge less than 8 coarse periods after the last stamp is counted in TIM_CH_DEAD with TIM_EVT bit 1.  A pair's first edge opens
it, another on the same input is counted on that input, and the edge on the other input closes it with a record of TYPE 2 whose value is
stop minus start.  A count channel counts while its gate or second is open, the coarse period of a gate's opening inside and that of its
closing outside, and each whole TS0 second of an ungated one ends its count with a record of TYPE 3.  A pair open for 2^32 coarse periods
closes with OPEN, OVF and TIM_EVT bit 4.  ARM arms an OFF channel of an awake group, and the first gated one of a window waits for it;
ARM of a paired stop, of a start whose stop is in use, or for a window that can never open is refused; DISARM returns the channel to OFF
and ends a window's wait with the last gated one; on an assigned or partner channel both are refused with CFG_ERR and TIM_EVT bit 5.
Choices of the model that it rests on: log entries 17, 23, 37, 94, 98 and 105.
(Rests on 06_interval_pulses.md.) -/
def Obligations.IntervalInputs : Prop :=
  (∀ (s : State) (c : Fin 64) (dc : Nat) (bin : Fin 64) (fall : Bool),
      s.chState c.val = 0 →
      ∃ t, Sys2Proof.Machine.exec (.tiEdge c dc bin fall) s = .next t ∧
        Frame [] [] s t) ∧
  (∀ (s : State) (c : Fin 64) (dc : Nat) (bin : Fin 64) (fall : Bool),
      let q := s.waitTick (tickOfCoarse (s.coarseNow + dc))
      let e := q.capture c.val (s.coarseNow + dc) bin.val fall
      let g := groupOf c.val
      s.chState c.val = 1 →
      s.chMode c.val = 0 →
      (s.chEdge c.val = (if fall then 1 else 0)) →
      s.on (R.TIM_CH_CFG_GATED c.val) = false →
      s.rd (R.TIM_CH_CFG_PRESCALE c.val) = 0 →
      (s.chan c.val).fifo = [] →
      (s.chan c.val).lastPos = none →
      (s.rd (R.TIM_GRP_WR_WR (groupOf c.val)) + 1) % 16384 ≠ s.rd (R.TIM_GRP_RD_RD (groupOf c.val)) →
      (∀ p, (s.chan c.val).lastEdge = some p → p + 131072 ≤ e.place) →
      ∃ t, Sys2Proof.Machine.exec (.tiEdge c dc bin fall) s = .next t ∧
        IMap.get [] t.tim.rings (g * 16384 + s.rd (R.TIM_GRP_WR_WR g)) = [1, c.val, s.chanFlags c.val e.seq e.steps fall + b01 (s.group g).gap, s.flags2 c.val false false] ++ le 2 (s.group g).seq ++ le 2 e.seq ++ ktBytes e.time ++ [bin.val, e.unit, 0, 0, 0, 0, 0, 0] ++ le 4 (s.coarseNow + dc) ∧
        t.rd (R.TIM_GRP_WR_WR g) = (s.rd (R.TIM_GRP_WR_WR g) + 1) % 16384 ∧
        (e.unit, e.seq) = s.servedBy c.val (s.coarseNow + dc) ∧
        (t.chan c.val).lastPos = some ((s.coarseNow + dc) * 65536 + s.binCentre g e.unit bin.val) ∧
        (t.chan c.val).lastEdge = some ((s.coarseNow + dc) * 65536 + s.binCentre g e.unit bin.val) ∧
        t.tick = q.tick ∧
        Frame [R.TIM_GRP_WR_WR g] [.tick, .lanes, .ens, .tim] s t) ∧
  (∀ (s : State) (c : Fin 64) (dc : Nat) (bin : Fin 64) (fall : Bool) (last : Nat),
      let q := s.waitTick (tickOfCoarse (s.coarseNow + dc))
      let e := q.capture c.val (s.coarseNow + dc) bin.val fall
      let g := groupOf c.val
      s.chState c.val = 1 →
      s.chMode c.val = 0 →
      (s.chEdge c.val = (if fall then 1 else 0)) →
      s.on (R.TIM_CH_CFG_GATED c.val) = false →
      s.rd (R.TIM_CH_CFG_PRESCALE c.val) = 0 →
      (s.chan c.val).lastPos = some last →
      (s.coarseNow + dc) * 65536 + s.binCentre g (s.servedBy c.val (s.coarseNow + dc)).1 bin.val < last + 8 * 65536 →
      (∀ p, (s.chan c.val).lastEdge = some p → p + 131072 ≤ e.place) →
      ∃ t, Sys2Proof.Machine.exec (.tiEdge c dc bin fall) s = .next t ∧
        t.rd (R.TIM_CH_DEAD_DEAD c.val) = satNat 32 (s.rd (R.TIM_CH_DEAD_DEAD c.val) + 1) ∧
        bit (t.rd R.TIM_EVT_BITS) 1 = true ∧
        t.tim.rings = s.tim.rings ∧
        (t.chan c.val).dead = true ∧
        Frame [R.TIM_CH_DEAD_DEAD c.val, R.TIM_EVT_BITS] [.tick, .lanes, .tim] s t) ∧
  (∀ (s : State) (c : Fin 64) (dc : Nat) (bin : Fin 64) (fall : Bool),
      let q := s.waitTick (tickOfCoarse (s.coarseNow + dc))
      let e := q.capture c.val (s.coarseNow + dc) bin.val fall
      s.chState c.val = 1 →
      s.chMode c.val = 1 →
      (s.chEdge c.val = (if fall then 1 else 0)) →
      s.on (R.TIM_CH_CFG_GATED c.val) = false →
      (s.chan c.val).open_ = none →
      s.unstamped c.val e = false →
      (∀ p, (s.chan c.val).lastEdge = some p → p + 131072 ≤ e.place) →
      ∃ t, Sys2Proof.Machine.exec (.tiEdge c dc bin fall) s = .next t ∧
        s.chState c.val ≠ t.chState c.val ∧
        t.chState c.val = 2 ∧
        (t.chan c.val).open_ = some (false, e) ∧
        Frame [R.TIM_CH_STAT_STATE c.val] [.tick, .lanes, .tim] s t) ∧
  (∀ (s : State) (c : Fin 64) (hc : c.val + 1 < 64) (dc : Nat) (bin : Fin 64) (fall : Bool) (a : Edge),
      let q := s.waitTick (tickOfCoarse (s.coarseNow + dc))
      let e := q.capture (c.val + 1) (s.coarseNow + dc) bin.val fall
      s.chState (c.val + 1) = 3 →
      s.chMode c.val = 1 →
      (s.chEdge c.val = (if fall then 1 else 0)) →
      s.on (R.TIM_CH_CFG_GATED c.val) = false →
      s.on (R.TIM_CH_CFG_STOP_SELF c.val) = false →
      (s.chan c.val).open_ = some (true, a) →
      (∀ p, (s.chan (c.val + 1)).lastEdge = some p → p + 131072 ≤ e.place) →
      ∃ t, Sys2Proof.Machine.exec (.tiEdge ⟨c.val + 1, hc⟩ dc bin fall) s = .next t ∧
        t.rd (R.TIM_CH_DEAD_DEAD (c.val + 1)) = satNat 32 (s.rd (R.TIM_CH_DEAD_DEAD (c.val + 1)) + 1) ∧
        bit (t.rd R.TIM_EVT_BITS) 1 = true ∧
        (t.chan c.val).open_ = some (true, a) ∧
        (t.chan c.val).dead = true ∧
        Frame [R.TIM_CH_DEAD_DEAD (c.val + 1), R.TIM_EVT_BITS] [.tick, .lanes, .tim] s t) ∧
  (∀ (s : State) (c : Fin 64) (hc : c.val + 1 < 64) (dc : Nat) (bin : Fin 64) (fall : Bool) (a : Edge),
      let q := s.waitTick (tickOfCoarse (s.coarseNow + dc))
      let e := q.capture (c.val + 1) (s.coarseNow + dc) bin.val fall
      let g := groupOf c.val
      s.chState (c.val + 1) = 3 →
      s.chMode c.val = 1 →
      (s.chEdge c.val = (if fall then 1 else 0)) →
      s.on (R.TIM_CH_CFG_GATED c.val) = false →
      s.on (R.TIM_CH_CFG_STOP_SELF c.val) = false →
      s.on (R.TIM_CH_CFG_CONT c.val) = true →
      (s.chan c.val).open_ = some (false, a) →
      s.unstamped (c.val + 1) e = false →
      (s.rd (R.TIM_GRP_WR_WR (groupOf c.val)) + 1) % 16384 ≠ s.rd (R.TIM_GRP_RD_RD (groupOf c.val)) →
      s.on (R.TIM_CH_STAT_HO_WAIT c.val) = false ∧ s.on (R.TIM_CH_STAT_HO_WAIT (c.val + 1)) = false →
      (∀ p, (s.chan (c.val + 1)).lastEdge = some p → p + 131072 ≤ e.place) →
      ∃ t, Sys2Proof.Machine.exec (.tiEdge ⟨c.val + 1, hc⟩ dc bin fall) s = .next t ∧
        (IMap.get [] t.tim.rings (g * 16384 + s.rd (R.TIM_GRP_WR_WR g))).take 2 = [2, c.val] ∧
        ((IMap.get [] t.tim.rings (g * 16384 + s.rd (R.TIM_GRP_WR_WR g))).drop 20).take 8 = le 8 (ofSigned 64 ((e.t - a.t) / 2 ^ 32)) ∧
        ((IMap.get [] t.tim.rings (g * 16384 + s.rd (R.TIM_GRP_WR_WR g))).drop 8).take 12 = ktBytes a.time ∧
        t.rd (R.TIM_GRP_WR_WR g) = (s.rd (R.TIM_GRP_WR_WR g) + 1) % 16384 ∧
        t.chState c.val = 1 ∧
        (t.chan c.val).open_ = none ∧
        Frame [R.TIM_CH_STAT_STATE c.val, R.TIM_GRP_WR_WR g] [.tick, .lanes, .tim] s t) ∧
  (∀ (s : State) (c : Fin 64) (dc : Nat) (bin : Fin 64) (fall : Bool),
      let q := s.waitTick (tickOfCoarse (s.coarseNow + dc))
      let e := q.capture c.val (s.coarseNow + dc) bin.val fall
      s.chState c.val = 1 →
      s.chMode c.val = 2 →
      (s.chEdge c.val = (if fall then 1 else 0)) →
      s.on (R.TIM_CH_CFG_GATED c.val) = false →
      (s.chan c.val).countAt.isSome = true →
      (∀ p, (s.chan c.val).lastEdge = some p → p + 131072 ≤ e.place) →
      ∃ t, Sys2Proof.Machine.exec (.tiEdge c dc bin fall) s = .next t ∧
        (t.chan c.val).count = (s.chan c.val).count + 1 ∧
        Frame [] [.tick, .lanes, .tim] s t) ∧
  (∀ (s : State) (c : Fin 64) (dc : Nat) (bin : Fin 64) (fall : Bool),
      let q := s.waitTick (tickOfCoarse (s.coarseNow + dc))
      let e := q.capture c.val (s.coarseNow + dc) bin.val fall
      let g := groupOf c.val
      s.chState c.val = 1 →
      s.chMode c.val = 2 →
      (s.chEdge c.val = (if fall then 1 else 0)) →
      s.on (R.TIM_CH_CFG_GATED c.val) = true →
      s.gateMode g ≠ 3 →
      s.on (R.TIM_GRP_STAT_GATE_OPEN g) = true →
      (s.chan c.val).countAt.isSome = true →
      (∀ p, (s.chan c.val).lastEdge = some p → p + 131072 ≤ e.place) →
      ∃ t, Sys2Proof.Machine.exec (.tiEdge c dc bin fall) s = .next t ∧
        (t.chan c.val).count = (s.chan c.val).count +
          (if (s.group g).gateC ≤ s.coarseNow + dc ∧ (∀ e, (s.group g).endAt = some e → q.clk < e ∧ s.coarseNow + dc < q.coarseOfClk e) then 1 else 0) ∧
        Frame [] [.tick, .lanes, .tim] s t) ∧
  (∀ (s : State) (c : Fin 64) (dc : Nat) (bin : Fin 64) (fall : Bool) (p : Nat),
      let q := s.waitTick (tickOfCoarse (s.coarseNow + dc))
      s.chState c.val ≠ 0 →
      s.gateMode (groupOf c.val) ≠ 3 →
      (s.chan c.val).lastEdge = some p →
      (q.capture c.val (s.coarseNow + dc) bin.val fall).place < p + 131072 →
      ∃ t, Sys2Proof.Machine.exec (.tiEdge c dc bin fall) s = .next t ∧
        t.tim = s.tim ∧
        t.tick = q.tick ∧
        Frame [] [.tick, .lanes] s t) ∧
  (∀ (s : State) (c : Fin 64) (at_ c0 : Nat),
      let g := groupOf c.val
      let n := ((if s.ts0 < at_ ∧ at_ ≤ s.ts0 + 163840 then at_ else s.ts0) / sec16 1 + 1) * sec16 1
      let e := s.coarseOfTs0 n
      s.chState c.val = 1 →
      s.chMode c.val = 2 →
      s.on (R.TIM_CH_CFG_GATED c.val) = false →
      (s.chan c.val).countAt = some (at_, c0) →
      (s.rd (R.TIM_GRP_WR_WR (groupOf c.val)) + 1) % 16384 ≠ s.rd (R.TIM_GRP_RD_RD (groupOf c.val)) →
      ∃ t, Sys2Proof.Machine.exec (.countSecond c) s = .next t ∧
        IMap.get [] t.tim.rings (g * 16384 + s.rd (R.TIM_GRP_WR_WR g)) = [3, c.val, s.chanFlags c.val (s.chan c.val).calSeq s.tim.steps false + 128 * b01 (decide (2 ^ 48 ≤ (s.chan c.val).count)) + b01 (s.group g).gap, s.flags2 c.val false false] ++ le 2 (s.group g).seq ++ le 2 0 ++ ktBytes at_ ++ (le 6 (satNat 48 (s.chan c.val).count) ++ [0, 0]) ++ le 4 (e - c0) ∧
        (t.chan c.val).count = 0 ∧
        (t.chan c.val).countAt = some (n, e) ∧
        t.tick = (s.waitTick (tickOfCoarse e)).tick ∧
        Frame [R.TIM_GRP_WR_WR g] [.tick, .lanes, .tim] s t) ∧
  (∀ (s : State) (c : Fin 64),
      (s.chan c.val).open_ = none →
      ∃ t, Sys2Proof.Machine.exec (.pairOverflow c) s = .next t ∧
        Frame [] [] s t) ∧
  (∀ (s : State) (c : Fin 64) (onStop : Bool) (a : Edge),
      let g := groupOf c.val
      let seq := if onStop then (s.chan c.val).calSeq else a.seq
      (s.chan c.val).open_ = some (onStop, a) →
      s.on (R.TIM_CH_CFG_CONT c.val) = true →
      (s.rd (R.TIM_GRP_WR_WR (groupOf c.val)) + 1) % 16384 ≠ s.rd (R.TIM_GRP_RD_RD (groupOf c.val)) →
      s.on (R.TIM_CH_STAT_HO_WAIT c.val) = false ∧ s.on (R.TIM_CH_STAT_HO_WAIT (c.val + 1)) = false →
      ∃ t, Sys2Proof.Machine.exec (.pairOverflow c) s = .next t ∧
        IMap.get [] t.tim.rings (g * 16384 + s.rd (R.TIM_GRP_WR_WR g)) = [2, c.val, s.chanFlags c.val seq s.tim.steps a.fall + 128 + b01 (s.group g).gap, s.flags2 c.val true onStop] ++ le 2 (s.group g).seq ++ le 2 seq ++ ktBytes a.time ++ le 8 (Config.openValue c.val a.time).toNat ++ le 4 (Config.openPeriods c.val a.time).toNat ∧
        t.chState c.val = 1 ∧
        (t.chan c.val).open_ = none ∧
        bit (t.rd R.TIM_EVT_BITS) 4 = true ∧
        t.tick = (s.waitTick (tickOfCoarse (a.c + 2 ^ 32))).tick ∧
        Frame [R.TIM_CH_STAT_STATE c.val, R.TIM_GRP_WR_WR g, R.TIM_EVT_BITS] [.tick, .lanes, .tim] s t) ∧
  (∀ (s : State) (c : Fin 64) (w : Word),
      s.on (R.TIM_CH_STAT_ASSIGNED c.val) = false →
      s.chState c.val = 0 →
      (s.group (groupOf c.val)).nap = false →
      s.paired c.val = false →
      s.on (R.TIM_CH_CFG_GATED c.val) = false →
      ∃ t, Sys2Proof.Machine.exec (.channelArm c w) s = .next t ∧
        t.chState c.val = 1 ∧
        t.rd (R.TIM_CH_CTL_ARM c.val) = 1 ∧
        t.rd (R.TIM_CH_STAT_CFG_ERR c.val) = 0 ∧
        (t.chan c.val).open_ = none ∧
        (t.chan c.val).count = 0 ∧
        Frame [R.TIM_CH_CTL_ARM c.val, R.TIM_CH_STAT_STATE c.val, R.TIM_CH_STAT_CFG_ERR c.val] [.tim] s t) ∧
  (∀ (s : State) (c : Fin 64) (w : Word),
      s.on (R.TIM_CH_STAT_ASSIGNED c.val) = false →
      s.chState c.val = 0 →
      (s.group (groupOf c.val)).nap = false →
      s.paired c.val = true →
      c.val % 2 = 0 →
      s.chState (c.val + 1) = 0 →
      s.on (R.TIM_CH_STAT_ASSIGNED (c.val + 1)) = false →
      s.on (R.TIM_CH_CFG_GATED c.val) = false →
      ∃ t, Sys2Proof.Machine.exec (.channelArm c w) s = .next t ∧
        t.chState c.val = 1 ∧
        t.chState (c.val + 1) = 3 ∧
        t.rd (R.TIM_CH_CTL_ARM c.val) = 1 ∧
        Frame [R.TIM_CH_CTL_ARM c.val, R.TIM_CH_STAT_STATE c.val, R.TIM_CH_STAT_CFG_ERR c.val, R.TIM_CH_STAT_STATE (c.val + 1)] [.tim] s t) ∧
  (∀ (s : State) (c : Fin 64) (w : Word),
      let g := groupOf c.val
      s.on (R.TIM_CH_STAT_ASSIGNED c.val) = false →
      s.chState c.val = 0 →
      (s.group g).nap = false →
      s.paired c.val = false →
      s.on (R.TIM_CH_CFG_GATED c.val) = true →
      s.gateMode g = 3 →
      s.windowDenied g = false →
      s.gatedArmed g c.val = false →
      s.on (R.TIM_GRP_STAT_GATE_OPEN g) = false →
      s.ts0 < s.windowFrom g →
      ∃ t, Sys2Proof.Machine.exec (.channelArm c w) s = .next t ∧
        t.chState c.val = 1 ∧
        t.rd (R.TIM_GRP_STAT_WAITING g) = 1 ∧
        (t.chan c.val).countAt = none ∧
        Frame [R.TIM_CH_CTL_ARM c.val, R.TIM_CH_STAT_STATE c.val, R.TIM_CH_STAT_CFG_ERR c.val, R.TIM_GRP_STAT_WAITING g] [.tim] s t) ∧
  (∀ (s : State) (c : Fin 64) (w : Word),
      s.on (R.TIM_CH_STAT_ASSIGNED c.val) = false →
      s.chState c.val = 0 →
      (s.group (groupOf c.val)).nap = false →
      ((s.paired c.val = true ∧ (c.val % 2 = 1 ∨ s.chState (c.val + 1) ≠ 0 ∨ s.on (R.TIM_CH_STAT_ASSIGNED (c.val + 1)) = true)) ∨
        (s.on (R.TIM_CH_CFG_GATED c.val) = true ∧ s.windowDenied (groupOf c.val) = true)) →
      ∃ t, Sys2Proof.Machine.exec (.channelArm c w) s = .next t ∧
        t.chState c.val = 0 ∧
        t.rd (R.TIM_CH_CTL_ARM c.val) = 0 ∧
        t.rd (R.TIM_CH_STAT_CFG_ERR c.val) = 1 ∧
        bit (t.rd R.TIM_EVT_BITS) 5 = true ∧
        Frame [R.TIM_CH_CTL_ARM c.val, R.TIM_CH_STAT_CFG_ERR c.val, R.TIM_EVT_BITS] [.tim] s t) ∧
  (∀ (s : State) (c : Fin 64) (w : Word),
      (s.on (R.TIM_CH_STAT_ASSIGNED c.val) = true ∨ s.chState c.val = 3) →
      ∃ t, Sys2Proof.Machine.exec (.channelArm c w) s = .next t ∧
        t.rd (R.TIM_CH_STAT_CFG_ERR c.val) = 1 ∧
        bit (t.rd R.TIM_EVT_BITS) 5 = true ∧
        t.chState c.val = s.chState c.val ∧
        Frame [R.TIM_CH_STAT_CFG_ERR c.val, R.TIM_EVT_BITS] [] s t) ∧
  (∀ (s : State) (c : Fin 64) (w : Word),
      s.on (R.TIM_CH_STAT_ASSIGNED c.val) = false →
      s.chState c.val = 0 →
      (s.group (groupOf c.val)).nap = true →
      ∃ t, Sys2Proof.Machine.exec (.channelArm c w) s = .next t ∧
        (t.chan c.val).pendArm = true ∧
        t.chState c.val = 0 ∧
        Frame [] [.tim] s t) ∧
  (∀ (s : State) (c : Fin 64) (w : Word),
      s.on (R.TIM_CH_STAT_ASSIGNED c.val) = false →
      (s.chState c.val = 1 ∨ s.chState c.val = 2) →
      s.paired c.val = false →
      s.on (R.TIM_CH_STAT_HO_WAIT c.val) = false ∧ s.on (R.TIM_CH_STAT_HO_WAIT (c.val + 1)) = false →
      ∃ t, Sys2Proof.Machine.exec (.channelDisarm c w) s = .next t ∧
        t.chState c.val = 0 ∧
        t.rd (R.TIM_CH_CTL_ARM c.val) = 0 ∧
        t.rd (R.TIM_CH_STAT_CFG_ERR c.val) = 0 ∧
        (t.chan c.val).open_ = none ∧
        (t.rd (R.TIM_GRP_STAT_WAITING (groupOf c.val)) = if s.gatedArmed (groupOf c.val) c.val then s.rd (R.TIM_GRP_STAT_WAITING (groupOf c.val)) else 0) ∧
        Frame [R.TIM_CH_CTL_ARM c.val, R.TIM_CH_STAT_STATE c.val, R.TIM_CH_STAT_CFG_ERR c.val, R.TIM_GRP_STAT_WAITING (groupOf c.val)] [.tim] s t) ∧
  (∀ (s : State) (c : Fin 64) (w : Word),
      (s.on (R.TIM_CH_STAT_ASSIGNED c.val) = true ∨ s.chState c.val = 3) →
      ∃ t, Sys2Proof.Machine.exec (.channelDisarm c w) s = .next t ∧
        t.rd (R.TIM_CH_STAT_CFG_ERR c.val) = 1 ∧
        bit (t.rd R.TIM_EVT_BITS) 5 = true ∧
        Frame [R.TIM_CH_STAT_CFG_ERR c.val, R.TIM_EVT_BITS] [] s t)

/-- GATE_OPEN, GATE_CLOSE, CAL_PASS_END, CAL_HANDOVER, CAL_NOW, GROUP_WAKE.  A closed gate opens where TGg goes to its active level in
level mode, in edge mode unless it was used since arming without REARM, and in window mode at the window's time if it waits; a timed edge
gate carries its closing, LEN us of the timescale on; an open gate closes at that time, where TGg leaves its active level, at the next
active edge, or at its window's end.  A pass whose 64 widths are accepted gives the spare a fresh table; a failed one sets TIM_EVT bit 2, and the third in a row
retires the unit and leaves the group with NO_SPARE.  A handover moves the fresh spare to the channel with the oldest table with a new
CAL_SEQ, from the first coarse period 3.2 ns or more after its last edge, unless an open pair holds it back (HO_WAIT).  CAL_NOW starts a rotation in each group with a spare.  A wake ends NAP,
and a start it arms takes its stop as partner.
Choices of the model that it rests on: log entries 17, 23, 29, 42, 96 and 98.
(Rests on 06_interval_pulses.md.) -/
def Obligations.GatesAndCalibration : Prop :=
  (∀ (s : State) (g : Fin 8) (dc : Nat) (high : Bool),
      (s.on (R.TIM_GRP_STAT_GATE_OPEN g.val) = true ∨ (s.gateMode g.val ≠ 3 ∧ high = s.on (R.TIM_GRP_CFG_POL g.val))) →
      ∃ t, Sys2Proof.Machine.exec (.gateOpen g dc high) s = .next t ∧
        Frame [] [] s t) ∧
  (∀ (s : State) (g : Fin 8) (dc : Nat) (high : Bool),
      let u := s.waitTick (tickOfCoarse (s.coarseNow + dc))
      s.on (R.TIM_GRP_STAT_GATE_OPEN g.val) = false →
      high ≠ s.on (R.TIM_GRP_CFG_POL g.val) →
      (s.gateMode g.val = 1 ∨ (s.gateMode g.val = 2 ∧ ((s.group g.val).gateUsed = false ∨ s.on (R.TIM_GRP_CFG_REARM g.val) = true))) →
      ∃ t, Sys2Proof.Machine.exec (.gateOpen g dc high) s = .next t ∧
        t.rd (R.TIM_GRP_STAT_GATE_OPEN g.val) = 1 ∧
        t.tick = u.tick ∧
        (t.group g.val).gateC = s.coarseNow + dc ∧
        (t.group g.val).gateT = (u.convert (ticksOfPos (s.coarseNow + dc) 0) / 2 ^ 32).floor.toNat ∧
        (t.group g.val).gateUsed = true ∧
        ((t.group g.val).endAt = (if s.gateMode g.val = 2 ∧ s.rd (R.TIM_GRP_GLEN_LEN g.val) ≠ 0 then some (t.clkOf (t.group g.val).gateT + s.rd (R.TIM_GRP_GLEN_LEN g.val) * 1000 * 65536) else none)) ∧
        Frame [R.TIM_GRP_STAT_GATE_OPEN g.val, R.TIM_GRP_STAT_WAITING g.val] [.tick, .lanes, .tim] s t) ∧
  (∀ (s : State) (g : Fin 8) (dc : Nat) (high : Bool),
      s.on (R.TIM_GRP_STAT_GATE_OPEN g.val) = false →
      s.gateMode g.val = 2 →
      (s.group g.val).gateUsed = true →
      s.on (R.TIM_GRP_CFG_REARM g.val) = false →
      ∃ t, Sys2Proof.Machine.exec (.gateOpen g dc high) s = .next t ∧
        Frame [] [] s t) ∧
  (∀ (s : State) (g : Fin 8) (dc : Nat) (high : Bool),
      let w_ := sec16 (s.rd (R.TIM_GRP_GT_SEC_LO_SEC g.val) + s.rd (R.TIM_GRP_GT_SEC_HI_SEC g.val) * 2 ^ 32) + s.rd (R.TIM_GRP_GT_NS_NS g.val) * 65536
      s.on (R.TIM_GRP_STAT_GATE_OPEN g.val) = false →
      s.gateMode g.val = 3 →
      s.on (R.TIM_GRP_STAT_WAITING g.val) = true →
      ∃ t, Sys2Proof.Machine.exec (.gateOpen g dc high) s = .next t ∧
        t.rd (R.TIM_GRP_STAT_GATE_OPEN g.val) = 1 ∧
        t.rd (R.TIM_GRP_STAT_WAITING g.val) = 0 ∧
        (t.group g.val).gateC = s.coarseOfTs0 w_ ∧
        t.tick = (s.waitTick (tickOfCoarse (s.coarseOfTs0 w_))).tick ∧
        Frame [R.TIM_GRP_STAT_GATE_OPEN g.val, R.TIM_GRP_STAT_WAITING g.val] [.tick, .lanes, .tim] s t) ∧
  (∀ (s : State) (g : Fin 8) (dc : Nat) (high : Bool),
      (s.on (R.TIM_GRP_STAT_GATE_OPEN g.val) = false ∨
        ((s.group g.val).endAt = none ∧ (s.gateMode g.val = 2 ∧ high = s.on (R.TIM_GRP_CFG_POL g.val) ∨ s.gateMode g.val ≠ 2 ∧ s.gateMode g.val ≠ 3 ∧ high ≠ s.on (R.TIM_GRP_CFG_POL g.val)))) →
      ∃ t, Sys2Proof.Machine.exec (.gateClose g dc high) s = .next t ∧
        Frame [] [] s t) ∧
  (∀ (s : State) (g : Fin 8) (dc : Nat) (high : Bool) (at_ : Nat),
      s.on (R.TIM_GRP_STAT_GATE_OPEN g.val) = true →
      s.gateMode g.val ≠ 3 →
      (s.group g.val).endAt = some at_ →
      ∃ t, Sys2Proof.Machine.exec (.gateClose g dc high) s = .next t ∧
        t.rd (R.TIM_GRP_STAT_GATE_OPEN g.val) = 0 ∧
        (t.group g.val).endAt = none ∧
        t.tick = (s.waitTick (tickOfCoarse (s.coarseOfClk at_))).tick ∧
        Touches [.tick, .lanes, .tim, .regs .tim] s t) ∧
  (∀ (s : State) (g : Fin 8) (dc : Nat) (high : Bool),
      s.on (R.TIM_GRP_STAT_GATE_OPEN g.val) = true →
      s.gateMode g.val ≠ 3 →
      (s.group g.val).endAt = none →
      (high ≠ s.on (R.TIM_GRP_CFG_POL g.val) ↔ s.gateMode g.val = 2) →
      ∃ t, Sys2Proof.Machine.exec (.gateClose g dc high) s = .next t ∧
        t.rd (R.TIM_GRP_STAT_GATE_OPEN g.val) = 0 ∧
        (t.group g.val).endAt = none ∧
        t.tick = (s.waitTick (tickOfCoarse (s.coarseNow + dc))).tick ∧
        Touches [.tick, .lanes, .tim, .regs .tim] s t) ∧
  (∀ (s : State) (g : Fin 8) (dc : Nat) (high : Bool),
      let w_ := sec16 (s.rd (R.TIM_GRP_GT_SEC_LO_SEC g.val) + s.rd (R.TIM_GRP_GT_SEC_HI_SEC g.val) * 2 ^ 32) + s.rd (R.TIM_GRP_GT_NS_NS g.val) * 65536
      s.on (R.TIM_GRP_STAT_GATE_OPEN g.val) = true →
      s.gateMode g.val = 3 →
      ∃ t, Sys2Proof.Machine.exec (.gateClose g dc high) s = .next t ∧
        t.rd (R.TIM_GRP_STAT_GATE_OPEN g.val) = 0 ∧
        t.tick = (s.waitTick (tickOfCoarse (s.coarseOfTs0 (w_ + s.rd (R.TIM_GRP_GLEN_LEN g.val) * 1000 * 65536)))).tick ∧
        Touches [.tick, .lanes, .tim, .regs .tim] s t) ∧
  (∀ (s : State) (g : Fin 9) (hits : List Nat),
      bit (s.rd R.TIM_STAT_NO_SPARE) g.val = false →
      (s.group g.val).nap = false →
      hits.length = 64 →
      (∀ n ∈ hits, 4096 ≤ n ∧ n ≤ 40960) →
      ∃ t, Sys2Proof.Machine.exec (.calPassEnd g hits) s = .next t ∧
        (t.group g.val).fresh = true ∧
        (t.group g.val).fails = 0 ∧
        IMap.get [] (t.group g.val).tables (s.spareOf g.val) = hits ∧
        Frame [] [.tim] s t) ∧
  (∀ (s : State) (g : Fin 9) (hits : List Nat),
      bit (s.rd R.TIM_STAT_NO_SPARE) g.val = false →
      (s.group g.val).nap = false →
      hits.length = 64 →
      (∃ n ∈ hits, n < 4096 ∨ 40960 < n) →
      (s.group g.val).fails < 2 →
      ∃ t, Sys2Proof.Machine.exec (.calPassEnd g hits) s = .next t ∧
        (t.group g.val).fresh = false ∧
        (t.group g.val).fails = (s.group g.val).fails + 1 ∧
        bit (t.rd R.TIM_EVT_BITS) 2 = true ∧
        (t.group g.val).tables = (s.group g.val).tables ∧
        (∀ d ∈ groupChans g.val, d < 64 → t.on (R.TIM_CH_STAT_HO_WAIT d) = false) ∧
        Frame (R.TIM_EVT_BITS :: ((groupChans g.val).filter (· < 64)).map R.TIM_CH_STAT_HO_WAIT) [.tim] s t) ∧
  (∀ (s : State) (g : Fin 9) (hits : List Nat),
      bit (s.rd R.TIM_STAT_NO_SPARE) g.val = false →
      (s.group g.val).nap = false →
      hits.length = 64 →
      (∃ n ∈ hits, n < 4096 ∨ 40960 < n) →
      (s.group g.val).fails = 2 →
      ∃ t, Sys2Proof.Machine.exec (.calPassEnd g hits) s = .next t ∧
        (t.group g.val).retired = (s.group g.val).retired + 1 ∧
        bit (t.rd R.TIM_STAT_NO_SPARE) g.val = true ∧
        bit (t.rd R.TIM_EVT_BITS) 3 = true ∧
        bit (t.rd R.TIM_STAT_CAL_BUSY) g.val = false ∧
        (∀ d ∈ groupChans g.val, d < 64 → t.on (R.TIM_CH_STAT_HO_WAIT d) = false) ∧
        Frame ([R.TIM_EVT_BITS, R.TIM_STAT_NO_SPARE, R.TIM_STAT_CAL_BUSY, R.TIM_CTL_CAL_NOW, R.TIM_GRP_STAT_RETIRED g.val]
          ++ ((groupChans g.val).filter (· < 64)).map R.TIM_CH_STAT_HO_WAIT) [.tim] s t) ∧
  (∀ (s : State) (g : Fin 9) (hits : List Nat),
      (bit (s.rd R.TIM_STAT_NO_SPARE) g.val = true ∨ (s.group g.val).nap = true) →
      ∃ t, Sys2Proof.Machine.exec (.calPassEnd g hits) s = .next t ∧
        Frame [] [] s t) ∧
  (∀ (s : State) (g : Fin 9) (c : Nat),
      let due := (s.group g.val).handAt + sec16 (s.rd R.TIM_CTL_ROT_STEP)
      bit (s.rd R.TIM_STAT_NO_SPARE) g.val = false →
      (s.group g.val).nap = false →
      (s.group g.val).fresh = true →
      bit (s.rd R.TIM_STAT_CAL_BUSY) g.val = false →
      s.rd R.TIM_CTL_ROT_STEP ≠ 0 →
      (∀ d ∈ groupChans g.val, d < 64 → s.on (R.TIM_CH_STAT_HO_WAIT d) = false) →
      (s.waitClk due).oldest g.val = some c →
      (s.waitClk due).pairHolds c = false →
      (s.group g.val).rotLeft ≠ 1 →
      ∃ t, Sys2Proof.Machine.exec (.calHandover g) s = .next t ∧
        t.unitOf c = s.spareOf g.val ∧
        t.spareOf g.val = s.unitOf c ∧
        (t.chan c).calSeq = ((s.chan c).calSeq + 1) % 65536 ∧
        (t.chan c).calChg = true ∧
        (t.chan c).unitFrom = (s.waitClk due).servesFrom c ∧
        (t.chan c).oldUnit = s.unitOf c ∧
        (t.group g.val).fresh = false ∧
        (c < 64 → t.rd (R.TIM_CH_STAT_UNIT c) = s.spareOf g.val % 16 ∧ t.rd (R.TIM_CH_STAT_CAL_SEQ c) = ((s.chan c).calSeq + 1) % 65536) ∧
        t.tick = (s.waitClk due).tick ∧
        Touches [.tick, .lanes, .tim, .regs .tim] s t) ∧
  (∀ (s : State) (g : Fin 9) (c : Nat),
      let due := (s.group g.val).handAt + sec16 (s.rd R.TIM_CTL_ROT_STEP)
      bit (s.rd R.TIM_STAT_NO_SPARE) g.val = false →
      (s.group g.val).nap = false →
      (s.group g.val).fresh = true →
      bit (s.rd R.TIM_STAT_CAL_BUSY) g.val = false →
      s.rd R.TIM_CTL_ROT_STEP ≠ 0 →
      (∀ d ∈ groupChans g.val, d < 64 → s.on (R.TIM_CH_STAT_HO_WAIT d) = false) →
      (s.waitClk due).oldest g.val = some c →
      (s.waitClk due).pairHolds c = true →
      ∃ t, Sys2Proof.Machine.exec (.calHandover g) s = .next t ∧
        t.rd (R.TIM_CH_STAT_HO_WAIT c) = 1 ∧
        t.tim = s.tim ∧
        Frame [R.TIM_CH_STAT_HO_WAIT c] [.tick, .lanes] s t) ∧
  (∀ (s : State) (g : Fin 9),
      (bit (s.rd R.TIM_STAT_NO_SPARE) g.val = true ∨ (s.group g.val).nap = true ∨ (s.group g.val).fresh = false) →
      ∃ t, Sys2Proof.Machine.exec (.calHandover g) s = .next t ∧
        Frame [] [] s t) ∧
  (∀ (s : State) (w : Word),
      s.rd R.TIM_STAT_CAL_BUSY = 0 →
      ∃ t, Sys2Proof.Machine.exec (.calNow w) s = .next t ∧
        (∀ g : Fin 9, bit (t.rd R.TIM_STAT_CAL_BUSY) g.val = !bit (s.rd R.TIM_STAT_NO_SPARE) g.val) ∧
        (∀ g : Fin 9, bit (s.rd R.TIM_STAT_NO_SPARE) g.val = false → (t.group g.val).rotLeft = (if g.val < 8 then 8 else 18)) ∧
        t.rd R.TIM_CTL_ROT_STEP = (R.TIM_CTL_ROT_STEP).of w.toNat ∧
        Frame (Reg.TIM_CTL.fields ++ [R.TIM_STAT_CAL_BUSY, R.TIM_EVT_BITS]) [.tim] s t) ∧
  (∀ (s : State) (w : Word),
      s.rd R.TIM_STAT_CAL_BUSY ≠ 0 →
      ∃ t, Sys2Proof.Machine.exec (.calNow w) s = .next t ∧
        t.tim = s.tim ∧
        Frame (Reg.TIM_CTL.fields) [] s t) ∧
  (∀ (s : State) (g : Fin 8),
      (s.group g.val).nap = false →
      ∃ t, Sys2Proof.Machine.exec (.groupWake g) s = .next t ∧
        Frame [] [] s t) ∧
  (∀ (s : State) (g : Fin 8),
      (s.group g.val).nap = true →
      (∀ c ∈ groupChans g.val, (s.chan c).pendArm = false) →
      (∀ o : Fin 4, (s.pout (g.val * 4 + o.val)).pendGo = false) →
      ∃ t, Sys2Proof.Machine.exec (.groupWake g) s = .next t ∧
        (t.group g.val).nap = false ∧
        (t.tim = { s.tim with groups := IMap.upd {} s.tim.groups g.val (fun k => { k with nap := false }) }) ∧
        Frame [] [.tim] s t) ∧
  (∀ (s : State) (g : Fin 8) (c : Fin 64),
      (s.group g.val).nap = true →
      groupOf c.val = g.val →
      (s.chan c.val).pendArm = true →
      (∀ d ∈ groupChans g.val, d ≠ c.val → (s.chan d).pendArm = false) →
      (∀ o : Fin 4, (s.pout (g.val * 4 + o.val)).pendGo = false) →
      s.paired c.val = false →
      s.on (R.TIM_CH_CFG_GATED c.val) = false →
      ∃ t, Sys2Proof.Machine.exec (.groupWake g) s = .next t ∧
        t.chState c.val = 1 ∧
        (t.group g.val).nap = false ∧
        Frame [R.TIM_CH_CTL_ARM c.val, R.TIM_CH_STAT_STATE c.val, R.TIM_CH_STAT_CFG_ERR c.val] [.tim] s t) ∧
  (∀ (s : State) (g : Fin 8) (c : Fin 64),
      (s.group g.val).nap = true →
      groupOf c.val = g.val →
      c.val % 2 = 0 →
      (s.chan c.val).pendArm = true →
      (s.chan (c.val + 1)).pendArm = true →
      (∀ d ∈ groupChans g.val, d ≠ c.val → d ≠ c.val + 1 → (s.chan d).pendArm = false) →
      (∀ o : Fin 4, (s.pout (g.val * 4 + o.val)).pendGo = false) →
      s.paired c.val = true →
      s.chState (c.val + 1) = 0 →
      s.chState c.val = 0 →
      s.on (R.TIM_CH_STAT_ASSIGNED (c.val + 1)) = false →
      s.on (R.TIM_CH_CFG_GATED c.val) = false →
      ∃ t, Sys2Proof.Machine.exec (.groupWake g) s = .next t ∧
        t.chState c.val = 1 ∧
        t.chState (c.val + 1) = 3 ∧
        (t.group g.val).nap = false ∧
        t.rd (R.TIM_CH_STAT_CFG_ERR (c.val + 1)) = 1 ∧
        Touches [.tim, .regs .tim] s t)

/-- PULSE_GO, PULSE_STOP, PULSE_COMMIT, PULSE_FIRE, PULSE_END.  GO without STOP on an awake group puts its result in STATUS; OK takes the
staged schedule, loads PLS_LEFT (COUNT, all ones for 0, 1 for a single pulse) and arms the output; any other result sets REFUSED and
PLS_EVT bit o and keeps schedule and state.  STOP ends an ARMED output's schedule with DONE, commits kept, and changes nothing else.
The next instant comes to its commit 400 ns before its edge crosses the ball, the pending step known; where the step comes first nothing
is committed yet.  Masked it is missed with cause 3, overlapping with cause 2, else its edge is committed.  A committed edge fires:
LEVEL is 1, the ball takes the active level of the POL its schedule latched at GO, it is the last instant fired, PLS_LEFT counts down, and
with nothing left the output is DONE.  The pulse ends its width later.
Choices of the model that it rests on: log entries 61, 85 and 94.
(Rests on 06_interval_pulses.md.) -/
def Obligations.PulseOutputs : Prop :=
  (∀ (s : State) (o : Fin 32) (w : Word),
      (R.PLS_CTL_STOP o.val).of w.toNat = 0 →
      (s.group (o.val / 4)).nap = false →
      s.goStatus o.val = 0 →
      ∃ t, Sys2Proof.Machine.exec (.pulseGo o w) s = .next t ∧
        t.rd (R.PLS_CTL_STATUS o.val) = 0 ∧
        t.rd (R.PLS_STAT_STATE o.val) = 1 ∧
        bit (t.rd R.PLS_ACTIVE_ARMED) o.val = true ∧
        (t.pout o.val).sched = s.staged o.val ∧
        (s.rd (R.PLS_STAT_LEVEL o.val) ≠ 1 → t.outLevel o.val = s.on (R.PLS_CFG_POL o.val)) ∧
        (s.rd (R.PLS_STAT_LEVEL o.val) = 1 → t.outLevel o.val = s.outLevel o.val) ∧
        (t.rd (R.PLS_LEFT_LEFT o.val) = (if (s.staged o.val).per = 0 then 1 else if s.rd (R.PLS_COUNT_COUNT o.val) = 0 then 0xFFFFFFFF else s.rd (R.PLS_COUNT_COUNT o.val))) ∧
        (t.pout o.val).last = (s.pout o.val).last ∧
        Frame (R.PLS_LEFT_LEFT o.val :: [R.PLS_STAT_STATE o.val, R.PLS_ACTIVE_ARMED] ++ (Reg.PLS_CTL o.val).fields) [.tim] s t) ∧
  (∀ (s : State) (o : Fin 32) (w : Word),
      (R.PLS_CTL_STOP o.val).of w.toNat = 0 →
      (s.group (o.val / 4)).nap = false →
      s.goStatus o.val ≠ 0 →
      ∃ t, Sys2Proof.Machine.exec (.pulseGo o w) s = .next t ∧
        t.rd (R.PLS_CTL_STATUS o.val) = s.goStatus o.val ∧
        t.rd (R.PLS_CTL_REFUSED o.val) = 1 ∧
        bit (t.rd R.PLS_EVT_OUT) o.val = true ∧
        (t.pout o.val).sched = (s.pout o.val).sched ∧
        t.rd (R.PLS_STAT_STATE o.val) = s.rd (R.PLS_STAT_STATE o.val) ∧
        Frame (R.PLS_EVT_OUT :: (Reg.PLS_CTL o.val).fields) [.tim] s t) ∧
  (∀ (s : State) (o : Fin 32) (w : Word),
      (R.PLS_CTL_STOP o.val).of w.toNat = 0 →
      (s.group (o.val / 4)).nap = true →
      ∃ t, Sys2Proof.Machine.exec (.pulseGo o w) s = .next t ∧
        (t.pout o.val).pendGo = true ∧
        t.rd (R.PLS_CTL_GO o.val) = 1 ∧
        t.rd (R.PLS_STAT_STATE o.val) = s.rd (R.PLS_STAT_STATE o.val) ∧
        Frame (Reg.PLS_CTL o.val).fields [.tim] s t) ∧
  (∀ (s : State) (o : Fin 32) (w : Word),
      s.rd (R.PLS_STAT_STATE o.val) = 1 →
      ∃ t, Sys2Proof.Machine.exec (.pulseStop o w) s = .next t ∧
        t.rd (R.PLS_STAT_STATE o.val) = 2 ∧
        t.rd (R.PLS_CTL_DONE o.val) = 1 ∧
        bit (t.rd R.PLS_ACTIVE_ARMED) o.val = false ∧
        (t.pout o.val).commits = (s.pout o.val).commits ∧
        Frame ([R.PLS_STAT_STATE o.val, R.PLS_ACTIVE_ARMED] ++ (Reg.PLS_CTL o.val).fields) [] s t) ∧
  (∀ (s : State) (o : Fin 32) (w : Word),
      s.rd (R.PLS_STAT_STATE o.val) ≠ 1 →
      ∃ t, Sys2Proof.Machine.exec (.pulseStop o w) s = .next t ∧
        (t.rd (R.PLS_CTL_DONE o.val) = (if (R.PLS_CTL_DONE o.val).of w.toNat = 1 then 0 else s.rd (R.PLS_CTL_DONE o.val))) ∧
        Frame (Reg.PLS_CTL o.val).fields [] s t) ∧
  (∀ (s : State) (o : Fin 32),
      s.rd (R.PLS_STAT_STATE o.val) ≠ 1 →
      ∃ t, Sys2Proof.Machine.exec (.pulseCommit o) s = .next t ∧
        Frame [] [] s t) ∧
  (∀ (s : State) (o : Fin 32) (k : Nat),
      let p := (s.pout o.val).sched
      let q := s.advance ((s.commitIn o.val (p.inst k) p.ts1).getD 0)
      s.rd (R.PLS_STAT_STATE o.val) = 1 →
      (s.pout o.val).toIdle = false →
      (s.rd (R.PLS_LEFT_LEFT o.val) = 0xFFFFFFFF ∨ (s.pout o.val).ownCommits < s.rd (R.PLS_LEFT_LEFT o.val)) →
      (s.pout o.val).skip (s.pout o.val).next = some k →
      (s.commitIn o.val (p.inst k) p.ts1).isSome = true →
      bit (s.rd (R.PLS_CFG_MASK o.val)) (s.outEng p.ts1) = true →
      (s.pout o.val).busyPos ≤ q.launchPos o.val (p.inst k) p.ts1 →
      ∃ t, Sys2Proof.Machine.exec (.pulseCommit o) s = .next t ∧
        (t.pout o.val).commits = (s.pout o.val).commits ++ [{ inst := p.inst k, pos := q.launchPos o.val (p.inst k) p.ts1, width := p.width, ts1 := p.ts1, pol := p.pol, eng := s.outEng p.ts1 }] ∧
        (t.pout o.val).next = k + 1 ∧
        t.tick = q.tick ∧
        (s.on (R.TSC_STEP_CTL_PENDING (bankNo (s.schedBank p.ts1))) = false → t.tick = (s.advance ((s.tick.bank (s.schedBank p.ts1)).ticksTo (s.fireAt o.val (p.inst k) - 400 * 65536))).tick) ∧
        Frame [] [.tick, .lanes, .tim] s t) ∧
  (∀ (s : State) (o : Fin 32) (k : Nat),
      let p := (s.pout o.val).sched
      let q := s.advance ((s.commitIn o.val (p.inst k) p.ts1).getD 0)
      let c := if bit (s.rd (R.PLS_CFG_MASK o.val)) (s.outEng p.ts1) = false then 3 else if q.launchPos o.val (p.inst k) p.ts1 < (s.pout o.val).busyPos then 2 else 0
      s.rd (R.PLS_STAT_STATE o.val) = 1 →
      (s.pout o.val).toIdle = false →
      (s.rd (R.PLS_LEFT_LEFT o.val) = 0xFFFFFFFF ∨ (s.pout o.val).ownCommits < s.rd (R.PLS_LEFT_LEFT o.val)) →
      (s.pout o.val).skip (s.pout o.val).next = some k →
      (s.commitIn o.val (p.inst k) p.ts1).isSome = true →
      c ≠ 0 →
      p.per ≠ 0 →
      ∃ t, Sys2Proof.Machine.exec (.pulseCommit o) s = .next t ∧
        t.rd (R.PLS_MISSED_MISSED o.val) = satNat 16 (s.rd (R.PLS_MISSED_MISSED o.val) + 1) ∧
        t.rd (R.PLS_MISSED_LAST_CAUSE o.val) = c ∧
        bit (t.rd R.PLS_EVT_OUT) o.val = true ∧
        (t.pout o.val).commits = (s.pout o.val).commits ∧
        (t.pout o.val).next = k + 1 ∧
        t.tick = q.tick ∧
        (s.on (R.TSC_STEP_CTL_PENDING (bankNo (s.schedBank p.ts1))) = false → t.tick = (s.advance ((s.tick.bank (s.schedBank p.ts1)).ticksTo (s.fireAt o.val (p.inst k) - 400 * 65536))).tick) ∧
        Frame [R.PLS_MISSED_MISSED o.val, R.PLS_MISSED_LAST_CAUSE o.val, R.PLS_EVT_OUT, R.TIM_EVT_BITS, R.TIM_GRP_WR_WR (o.val / 4), R.TIM_GRP_LOST_LOST (o.val / 4)] [.tick, .lanes, .tim] s t) ∧
  (∀ (s : State) (o : Fin 32) (k : Nat),
      (s.pout o.val).skip (s.pout o.val).next = some k →
      s.commitIn o.val ((s.pout o.val).sched.inst k) (s.pout o.val).sched.ts1 = none →
      ∃ t, Sys2Proof.Machine.exec (.pulseCommit o) s = .next t ∧
        Frame [] [] s t) ∧
  (∀ (s : State) (o : Fin 32),
      (s.pout o.val).commits = [] →
      ∃ t, Sys2Proof.Machine.exec (.pulseFire o) s = .next t ∧
        Frame [] [] s t) ∧
  (∀ (s : State) (o : Fin 32) (e : PulseEdge) (rest : List PulseEdge),
      (s.pout o.val).commits = e :: rest →
      ∃ t, Sys2Proof.Machine.exec (.pulseFire o) s = .next t ∧
        t.rd (R.PLS_STAT_LEVEL o.val) = 1 ∧
        (t.pout o.val).commits = rest ∧
        (t.pout o.val).last = some (max e.inst ((s.pout o.val).last.getD 0)) ∧
        (t.pout o.val).endPos = some (e.pos + e.width) ∧
        (t.rd (R.PLS_LEFT_LEFT o.val) = (if s.rd (R.PLS_STAT_STATE o.val) = 1 ∧ e.old = false ∧ s.rd (R.PLS_LEFT_LEFT o.val) ≠ 0xFFFFFFFF then s.rd (R.PLS_LEFT_LEFT o.val) - 1 else s.rd (R.PLS_LEFT_LEFT o.val))) ∧
        (e.ts1 = false → t.rd R.TSC_STAT_SERVED = 1) ∧
        (t.rd (R.PLS_STAT_STATE o.val) = (if s.rd (R.PLS_STAT_STATE o.val) = 1 ∧ e.old = false ∧ (s.pout o.val).toIdle = false ∧ t.rd (R.PLS_LEFT_LEFT o.val) = 0 then 2 else s.rd (R.PLS_STAT_STATE o.val))) ∧
        (t.rd (R.PLS_CTL_DONE o.val) = (if s.rd (R.PLS_STAT_STATE o.val) = 1 ∧ e.old = false ∧ (s.pout o.val).toIdle = false ∧ t.rd (R.PLS_LEFT_LEFT o.val) = 0 then 1 else s.rd (R.PLS_CTL_DONE o.val))) ∧
        t.tick = (s.waitTick (tickOfPos e.pos)).tick ∧
        t.outLevel o.val = !e.pol ∧
        Frame [R.PLS_STAT_STATE o.val, R.PLS_CTL_DONE o.val, R.PLS_ACTIVE_ARMED, R.PLS_STAT_LEVEL o.val, R.PLS_LEFT_LEFT o.val, R.TSC_STAT_SERVED, R.TIM_EVT_BITS, R.TIM_GRP_WR_WR (o.val / 4), R.TIM_GRP_LOST_LOST (o.val / 4)] [.tick, .lanes, .tim] s t) ∧
  (∀ (s : State) (o : Fin 32),
      (s.pout o.val).endPos = none →
      ∃ t, Sys2Proof.Machine.exec (.pulseEnd o) s = .next t ∧
        Frame [] [] s t) ∧
  (∀ (s : State) (o : Fin 32) (p : Nat),
      (s.pout o.val).endPos = some p →
      (s.pout o.val).toIdle = false →
      ∃ t, Sys2Proof.Machine.exec (.pulseEnd o) s = .next t ∧
        t.rd (R.PLS_STAT_LEVEL o.val) = 0 ∧
        (t.pout o.val).endPos = none ∧
        t.tick = (s.waitTick (tickOfPos p)).tick ∧
        t.outLevel o.val = (if s.rd (R.PLS_STAT_STATE o.val) = 1 then (s.pout o.val).sched.pol else s.on (R.PLS_CFG_POL o.val)) ∧
        Frame [R.PLS_STAT_LEVEL o.val] [.tick, .lanes, .tim] s t) ∧
  (∀ (s : State) (o : Fin 32) (p : Nat),
      (s.pout o.val).endPos = some p →
      (s.pout o.val).toIdle = true →
      (s.pout o.val).commits = [] →
      ∃ t, Sys2Proof.Machine.exec (.pulseEnd o) s = .next t ∧
        t.rd (R.PLS_STAT_LEVEL o.val) = 0 ∧
        t.rd (R.PLS_STAT_STATE o.val) = 0 ∧
        (t.pout o.val).toIdle = false ∧
        Frame (R.PLS_STAT_LEVEL o.val :: [R.PLS_STAT_STATE o.val, R.PLS_ACTIVE_ARMED]) [.tick, .lanes, .tim] s t)

/-- PORT_CONFIG, MAC_ADDR_COMMIT, SIGNAL_DETECT, TRAINING_DONE, PORT_CAL_PASS, LINK_LOSS, VERIFY_SEND, VERIFY_RESPONSE, on a port and where
named on a Mooring link.  A good configuration is taken, CFG_ERR falls unless a bad address stands that is not judged (EN 0), the
latencies follow MODE and FEC and a change takes the port to DOWN; MODE 9 to 15 sets CFG_ERR.  A write of MAC_ADDR_HI puts both halves
in force and judges them.  An enabled DOWN port with signal trains, a trained one calibrates, a good pass or a third failed one
(CAL_WEAK) enters UP, and loss takes CALIBRATING or UP to TRAINING, a frame being reassembled counted and dropped.  A verify mPacket is
sent when it is due, up to three, and then verify fails; a response makes preemption active.  A window write while the die's lane is OFF
is discarded and logged through AER.
Choices of the model that it rests on: log entries 36, 86 and 100.
(Rests on 07_ports.md; 12_stacking.md; the mPackets' octets are log entry 101.) -/
def Obligations.PortLinks : Prop :=
  (∀ (s : State) (p : Fin 32) (w : Word),
      s.dieAnswers (p.val / 8) = false →
      ∃ t, Sys2Proof.Machine.exec (.portConfig p w) s = .next t ∧
        t.out.head? = some (.aer 1 (Reg.MAC_CFG p.val).addr true) ∧
        Frame [] [] s t) ∧
  (∀ (s : State) (p : Fin 32) (w : Word),
      s.dieAnswers (p.val / 8) = false →
      ∃ t, Sys2Proof.Machine.exec (.macAddrCommit p w) s = .next t ∧
        t.out.head? = some (.aer 1 (Reg.MAC_ADDR_HI p.val).addr true) ∧
        Frame [] [] s t) ∧
  (∀ (s : State) (p : Fin 32) (w : Word),
      s.rd (R.MAC_STAT_STATE p.val) ≠ 3 →
      fecAllowed ((R.MAC_CFG_MODE p.val).of w.toNat) ((R.MAC_CFG_FEC p.val).of w.toNat) = true →
      (R.MAC_CFG_MODE p.val).of w.toNat < 9 →
      ((R.MAC_CFG_EN p.val).of w.toNat = 0 ∨ s.badAddr p.val = false) →
      s.dieAnswers (p.val / 8) = true →
      ∃ t, Sys2Proof.Machine.exec (.portConfig p w) s = .next t ∧
        t.rd (R.MAC_CFG_EN p.val) = (R.MAC_CFG_EN p.val).of w.toNat ∧
        t.rd (R.MAC_CFG_MODE p.val) = (R.MAC_CFG_MODE p.val).of w.toNat ∧
        t.rd (R.MAC_CFG_FEC p.val) = (R.MAC_CFG_FEC p.val).of w.toNat ∧
        t.rd (R.MAC_CFG_AN_EN p.val) = (R.MAC_CFG_AN_EN p.val).of w.toNat ∧
        (t.rd (R.MAC_STAT_CFG_ERR p.val) = (if s.badAddr p.val then s.rd (R.MAC_STAT_CFG_ERR p.val) else 0)) ∧
        (t.rd (R.MAC_STAT_STATE p.val) = (if (s.rd (R.MAC_CFG_EN p.val) = (R.MAC_CFG_EN p.val).of w.toNat ∧ s.rd (R.MAC_CFG_MODE p.val) = (R.MAC_CFG_MODE p.val).of w.toNat ∧ s.rd (R.MAC_CFG_FEC p.val) = (R.MAC_CFG_FEC p.val).of w.toNat ∧ s.rd (R.MAC_CFG_AN_EN p.val) = (R.MAC_CFG_AN_EN p.val).of w.toNat) then s.rd (R.MAC_STAT_STATE p.val) else 0)) ∧
        t.rd (R.MAC_TS_LAT_L_RX p.val) = latRx ((R.MAC_CFG_MODE p.val).of w.toNat) ((R.MAC_CFG_FEC p.val).of w.toNat) ∧
        t.rd (R.MAC_TS_LAT_L_TX p.val) = latTx ((R.MAC_CFG_MODE p.val).of w.toNat) ((R.MAC_CFG_FEC p.val).of w.toNat) ∧
        Frame ((R.MAC_STAT_CFG_ERR p.val :: [R.MAC_STAT_STATE p.val, R.MAC_STAT_FEC_LOCK p.val, R.MAC_STAT_AN_DONE p.val, R.MAC_STAT_FEC_USED p.val] ++ [R.MAC_TS_LAT_L_RX p.val, R.MAC_TS_LAT_L_TX p.val]) ++ (Reg.MAC_CFG p.val).fields) [] s t) ∧
  (∀ (s : State) (p : Fin 32) (w : Word),
      s.rd (R.MAC_STAT_STATE p.val) ≠ 3 →
      (9 ≤ (R.MAC_CFG_MODE p.val).of w.toNat ∨ fecAllowed ((R.MAC_CFG_MODE p.val).of w.toNat) ((R.MAC_CFG_FEC p.val).of w.toNat) = false) →
      s.dieAnswers (p.val / 8) = true →
      ∃ t, Sys2Proof.Machine.exec (.portConfig p w) s = .next t ∧
        t.rd (R.MAC_STAT_CFG_ERR p.val) = 1 ∧
        t.rd (R.MAC_STAT_STATE p.val) = 0 ∧
        bit (t.rd (R.MAC_EVT_BITS p.val)) 10 = true ∧
        t.rd (R.MAC_TS_LAT_L_RX p.val) = s.rd (R.MAC_TS_LAT_L_RX p.val) ∧
        Frame (R.MAC_EVT_BITS p.val :: ((R.MAC_STAT_CFG_ERR p.val :: [R.MAC_STAT_STATE p.val, R.MAC_STAT_FEC_LOCK p.val, R.MAC_STAT_AN_DONE p.val, R.MAC_STAT_FEC_USED p.val] ++ [R.MAC_TS_LAT_L_RX p.val, R.MAC_TS_LAT_L_TX p.val]) ++ (Reg.MAC_CFG p.val).fields)) [] s t) ∧
  (∀ (s : State) (p : Fin 32) (w : Word),
      s.rd (R.MAC_STAT_STATE p.val) = 3 →
      ¬ (s.rd (R.MAC_CFG_EN p.val) = (R.MAC_CFG_EN p.val).of w.toNat ∧ s.rd (R.MAC_CFG_MODE p.val) = (R.MAC_CFG_MODE p.val).of w.toNat ∧ s.rd (R.MAC_CFG_FEC p.val) = (R.MAC_CFG_FEC p.val).of w.toNat ∧ s.rd (R.MAC_CFG_AN_EN p.val) = (R.MAC_CFG_AN_EN p.val).of w.toNat) →
      s.dieAnswers (p.val / 8) = true →
      ∃ t, Sys2Proof.Machine.exec (.portConfig p w) s = .next t ∧
        t.rd (R.MAC_STAT_STATE p.val) = 0 ∧
        bit (t.rd (R.MAC_EVT_BITS p.val)) 1 = true ∧
        IMap.get 0 t.srv.stats (p.val * 64 + 51) = (IMap.get 0 s.srv.stats (p.val * 64 + 51) + 1) % 2 ^ 64 ∧
        t.rd (R.MAC_CFG_EN p.val) = (R.MAC_CFG_EN p.val).of w.toNat ∧
        (t.port p.val).outAt = s.clk ∧
        (t.port p.val).flight = none ∧
        (t.port p.val).hold = [] ∧
        (t.port p.val).asm = none ∧
        (∀ x ∈ t.txq p.val 7, x.isNts = false) ∧
        Touches [.srv, .rings, .regs .mac, .regs .nts, .regs .ring] s t) ∧
  (∀ (s : State) (p : Fin 32) (w : Word) (lo : Nat),
      s.rd (R.MAC_STAT_STATE p.val) ≠ 3 →
      (s.port p.val).stagedLo = some lo →
      s.badMode p.val = false →
      s.dieAnswers (p.val / 8) = true →
      ∃ t, Sys2Proof.Machine.exec (.macAddrCommit p w) s = .next t ∧
        t.macAddr p.val = w.toNat % 2 ^ 16 * 2 ^ 32 + lo % 2 ^ 32 ∧
        (t.port p.val).stagedLo = none ∧
        t.rd (R.MAC_STAT_CFG_ERR p.val) = b01 (t.badAddr p.val) ∧
        (t.badAddr p.val = true → bit (t.rd (R.MAC_EVT_BITS p.val)) 10 = true ∧ t.rd (R.MAC_STAT_STATE p.val) = 0) ∧
        Frame ([R.MAC_ADDR_LO_A p.val, R.MAC_ADDR_HI_A p.val, R.MAC_STAT_CFG_ERR p.val, R.MAC_EVT_BITS p.val] ++ [R.MAC_STAT_STATE p.val, R.MAC_STAT_FEC_LOCK p.val, R.MAC_STAT_AN_DONE p.val, R.MAC_STAT_FEC_USED p.val]) [.srv] s t) ∧
  (∀ (s : State) (p : Fin 32) (w : Word),
      s.rd (R.MAC_STAT_STATE p.val) ≠ 3 →
      (s.port p.val).stagedLo = none →
      s.badMode p.val = false →
      s.dieAnswers (p.val / 8) = true →
      ∃ t, Sys2Proof.Machine.exec (.macAddrCommit p w) s = .next t ∧
        t.macAddr p.val = w.toNat % 2 ^ 16 * 2 ^ 32 + s.rd (R.MAC_ADDR_LO_A p.val) ∧
        t.rd (R.MAC_STAT_CFG_ERR p.val) = b01 (t.badAddr p.val) ∧
        Frame ([R.MAC_ADDR_HI_A p.val, R.MAC_STAT_CFG_ERR p.val, R.MAC_EVT_BITS p.val] ++ [R.MAC_STAT_STATE p.val, R.MAC_STAT_FEC_LOCK p.val, R.MAC_STAT_AN_DONE p.val, R.MAC_STAT_FEC_USED p.val]) [] s t) ∧
  (∀ (s : State) (p : Fin 32),
      s.rd (R.MAC_STAT_STATE p.val) = 0 →
      s.inTest = false →
      s.on (R.MAC_CFG_EN p.val) = true →
      s.on (R.MAC_STAT_CFG_ERR p.val) = false →
      (s.port p.val).parked = false →
      ∃ t, Sys2Proof.Machine.exec (.signalDetect (.port p)) s = .next t ∧
        t.rd (R.MAC_STAT_STATE p.val) = 1 ∧
        Frame [R.MAC_STAT_STATE p.val, R.MAC_STAT_FEC_LOCK p.val, R.MAC_STAT_AN_DONE p.val, R.MAC_STAT_FEC_USED p.val] [] s t) ∧
  (∀ (s : State) (p : Fin 32),
      (s.on (R.MAC_CFG_EN p.val) = false ∨ s.on (R.MAC_STAT_CFG_ERR p.val) = true ∨ s.rd (R.MAC_STAT_STATE p.val) ≠ 0) →
      ∃ t, Sys2Proof.Machine.exec (.signalDetect (.port p)) s = .next t ∧
        Frame [] [] s t) ∧
  (∀ (s : State) (l : Fin 2),
      s.morState l.val = 0 →
      s.inTest = false →
      s.on R.MOR_CTL_EN = true →
      s.on (R.MOR_LINK_CFG_EN l.val) = true →
      s.fabric ≠ 3 →
      ∃ t, Sys2Proof.Machine.exec (.signalDetect (.mooring l)) s = .next t ∧
        t.morState l.val = 1 ∧
        bit (t.rd R.MOR_EVT_BITS) 0 = true ∧
        Frame [R.MOR_LINK_STAT_STATE l.val, R.MOR_EVT_BITS] [.stack] s t) ∧
  (∀ (s : State) (p : Fin 32) (fec : Fin 4),
      let f := if s.anRuns p.val then fec.val else s.rd (R.MAC_CFG_FEC p.val)
      s.rd (R.MAC_STAT_STATE p.val) = 1 →
      fecAllowed (s.rd (R.MAC_CFG_MODE p.val)) f = true →
      ∃ t, Sys2Proof.Machine.exec (.trainingDone (.port p) fec) s = .next t ∧
        t.rd (R.MAC_STAT_STATE p.val) = 2 ∧
        t.rd (R.MAC_STAT_FEC_USED p.val) = f ∧
        t.rd (R.MAC_STAT_FEC_LOCK p.val) = b01 (decide (f ≠ 0)) ∧
        t.rd (R.MAC_STAT_AN_DONE p.val) = b01 (s.anRuns p.val) ∧
        t.rd (R.MAC_STAT_CAL_WEAK p.val) = 0 ∧
        t.rd (R.MAC_TS_LAT_L_RX p.val) = latRx (s.rd (R.MAC_CFG_MODE p.val)) f ∧
        t.rd (R.MAC_TS_LAT_L_TX p.val) = latTx (s.rd (R.MAC_CFG_MODE p.val)) f ∧
        (t.port p.val).calAt = s.clk ∧
        Frame ([R.MAC_STAT_CAL_WEAK p.val, R.MAC_STAT_CAL_TRIES p.val, R.MAC_STAT_HI_BER p.val] ++ [R.MAC_STAT_STATE p.val, R.MAC_STAT_FEC_LOCK p.val, R.MAC_STAT_AN_DONE p.val, R.MAC_STAT_FEC_USED p.val] ++ [R.MAC_TS_LAT_L_RX p.val, R.MAC_TS_LAT_L_TX p.val]) [.srv] s t) ∧
  (∀ (s : State) (p : Fin 32) (rmsRx rmsTx phiRx phiTx : Nat),
      s.rd (R.MAC_STAT_STATE p.val) = 2 →
      rmsRx ≤ 4000 →
      rmsTx ≤ 4000 →
      ∃ t, Sys2Proof.Machine.exec (.portCalPass (.port p) rmsRx rmsTx phiRx phiTx) s = .next t ∧
        t.rd (R.MAC_STAT_STATE p.val) = 3 ∧
        t.rd (R.MAC_TS_PHASE_PHI_RX p.val) = phiRx % 65536 ∧
        t.rd (R.MAC_TS_PHASE_PHI_TX p.val) = phiTx % 65536 ∧
        IMap.get 0 t.srv.stats (p.val * 64 + 52) = (IMap.get 0 s.srv.stats (p.val * 64 + 52) + 1) % 2 ^ 64 ∧
        bit (t.rd (R.MAC_EVT_BITS p.val)) 0 = true ∧
        (t.rd (R.MAC_STAT_PRE_ACTIVE p.val) = (if s.rd (R.MAC_PRE_CFG_PRE_EN p.val) = 1 ∧ s.rd (R.MAC_PRE_CFG_VERIFY_DIS p.val) = 1 then 1 else s.rd (R.MAC_STAT_PRE_ACTIVE p.val))) ∧
        (t.rd (R.MAC_STAT_VERIFY p.val) = (if s.rd (R.MAC_PRE_CFG_PRE_EN p.val) = 1 ∧ s.rd (R.MAC_PRE_CFG_VERIFY_DIS p.val) = 0 then 1 else s.rd (R.MAC_STAT_VERIFY p.val))) ∧
        t.tick = (s.waitClk ((s.port p.val).calAt + 256 * 1000 * 65536)).tick ∧
        Frame [R.MAC_STAT_STATE p.val, R.MAC_TS_PHASE_PHI_RX p.val, R.MAC_TS_PHASE_PHI_TX p.val, R.MAC_EVT_BITS p.val, R.MAC_STAT_PRE_ACTIVE p.val, R.MAC_STAT_VERIFY p.val] [.tick, .lanes, .srv] s t) ∧
  (∀ (s : State) (p : Fin 32) (rmsRx rmsTx phiRx phiTx : Nat),
      s.rd (R.MAC_STAT_STATE p.val) = 2 →
      (4000 < rmsRx ∨ 4000 < rmsTx) →
      s.rd (R.MAC_STAT_CAL_TRIES p.val) < 2 →
      ∃ t, Sys2Proof.Machine.exec (.portCalPass (.port p) rmsRx rmsTx phiRx phiTx) s = .next t ∧
        t.rd (R.MAC_STAT_STATE p.val) = 2 ∧
        t.rd (R.MAC_STAT_CAL_TRIES p.val) = s.rd (R.MAC_STAT_CAL_TRIES p.val) + 1 ∧
        IMap.get 0 t.srv.stats (p.val * 64 + 53) = (IMap.get 0 s.srv.stats (p.val * 64 + 53) + 1) % 2 ^ 64 ∧
        Frame [R.MAC_STAT_CAL_TRIES p.val] [.tick, .lanes, .srv] s t) ∧
  (∀ (s : State) (p : Fin 32) (rmsRx rmsTx phiRx phiTx : Nat),
      s.rd (R.MAC_STAT_STATE p.val) = 2 →
      (4000 < rmsRx ∨ 4000 < rmsTx) →
      s.rd (R.MAC_STAT_CAL_TRIES p.val) = 2 →
      ∃ t, Sys2Proof.Machine.exec (.portCalPass (.port p) rmsRx rmsTx phiRx phiTx) s = .next t ∧
        t.rd (R.MAC_STAT_STATE p.val) = 3 ∧
        t.rd (R.MAC_STAT_CAL_WEAK p.val) = 1 ∧
        bit (t.rd (R.MAC_EVT_BITS p.val)) 2 = true ∧
        bit (t.rd (R.MAC_EVT_BITS p.val)) 0 = true ∧
        IMap.get 0 t.srv.stats (p.val * 64 + 53) = (IMap.get 0 s.srv.stats (p.val * 64 + 53) + 1) % 2 ^ 64 ∧
        IMap.get 0 t.srv.stats (p.val * 64 + 52) = (IMap.get 0 s.srv.stats (p.val * 64 + 52) + 1) % 2 ^ 64 ∧
        Frame [R.MAC_STAT_STATE p.val, R.MAC_STAT_CAL_WEAK p.val, R.MAC_STAT_CAL_TRIES p.val, R.MAC_EVT_BITS p.val, R.MAC_STAT_PRE_ACTIVE p.val, R.MAC_STAT_VERIFY p.val] [.tick, .lanes, .srv] s t) ∧
  (∀ (s : State) (p : Fin 32) (cause : LossCause) (inFrame : Bool),
      s.rd (R.MAC_STAT_STATE p.val) = 3 →
      ∃ t, Sys2Proof.Machine.exec (.linkLoss (.port p) cause inFrame) s = .next t ∧
        t.rd (R.MAC_STAT_STATE p.val) = 1 ∧
        bit (t.rd (R.MAC_EVT_BITS p.val)) 1 = true ∧
        IMap.get 0 t.srv.stats (p.val * 64 + 51) = (IMap.get 0 s.srv.stats (p.val * 64 + 51) + 1) % 2 ^ 64 ∧
        (cause = .pcsLock → IMap.get 0 t.srv.stats (p.val * 64 + 29) = (IMap.get 0 s.srv.stats (p.val * 64 + 29) + 1) % 2 ^ 64) ∧
        (cause = .hiBer → IMap.get 0 t.srv.stats (p.val * 64 + 30) = (IMap.get 0 s.srv.stats (p.val * 64 + 30) + 1) % 2 ^ 64 ∧ t.rd (R.MAC_STAT_HI_BER p.val) = 1 ∧ bit (t.rd (R.MAC_EVT_BITS p.val)) 5 = true) ∧
        IMap.get 0 t.srv.stats (p.val * 64 + 13) % 2 ^ 64 = (IMap.get 0 s.srv.stats (p.val * 64 + 13) + b01 inFrame + b01 (s.port p.val).asm.isSome) % 2 ^ 64 ∧
        (t.port p.val).asm = none ∧
        Touches [.srv, .rings, .regs .mac, .regs .nts, .regs .ring] s t) ∧
  (∀ (s : State) (p : Fin 32) (cause : LossCause) (inFrame : Bool),
      s.rd (R.MAC_STAT_STATE p.val) = 2 →
      ∃ t, Sys2Proof.Machine.exec (.linkLoss (.port p) cause inFrame) s = .next t ∧
        t.rd (R.MAC_STAT_STATE p.val) = 1 ∧
        Frame ([R.MAC_STAT_HI_BER p.val, R.MAC_EVT_BITS p.val] ++ [R.MAC_STAT_STATE p.val, R.MAC_STAT_FEC_LOCK p.val, R.MAC_STAT_AN_DONE p.val, R.MAC_STAT_FEC_USED p.val]) [.srv] s t) ∧
  (∀ (s : State) (p : Fin 32) (cause : LossCause) (inFrame : Bool),
      s.rd (R.MAC_STAT_STATE p.val) < 2 →
      ∃ t, Sys2Proof.Machine.exec (.linkLoss (.port p) cause inFrame) s = .next t ∧
        Frame [] [] s t) ∧
  (∀ (s : State) (p : Fin 32),
      s.rd (R.MAC_STAT_VERIFY p.val) = 1 →
      (s.port p.val).verifySent < 3 →
      (s.port p.val).flight = none →
      ∃ t, Sys2Proof.Machine.exec (.verifySend p) s = .next t ∧
        (t.port p.val).verifySent = (s.port p.val).verifySent + 1 ∧
        (t.port p.val).verifyAt = (s.port p.val).verifyAt + 1000000 * 65536 * max 1 (min 128 (bits (s.port p.val).preCfg 23 16)) ∧
        t.out.head? = some (.mpacket p.val (0x07 :: verifyBody ++ le 4 (mcrc verifyBody))) ∧
        t.tick = ((s.waitClk (s.port p.val).verifyAt).waitPs (max (s.port p.val).freePs (s.waitClk (s.port p.val).verifyAt).nowPs)).tick ∧
        (t.port p.val).freePs = (t.port p.val).seenPs + 84 * s.bytePs p.val ∧
        Frame [] [.tick, .lanes, .srv] s t) ∧
  (∀ (s : State) (p : Fin 32),
      s.rd (R.MAC_STAT_VERIFY p.val) = 1 →
      3 ≤ (s.port p.val).verifySent →
      ∃ t, Sys2Proof.Machine.exec (.verifySend p) s = .next t ∧
        t.rd (R.MAC_STAT_VERIFY p.val) = 3 ∧
        bit (t.rd (R.MAC_EVT_BITS p.val)) 6 = true ∧
        IMap.get 0 t.srv.stats (p.val * 64 + 46) = (IMap.get 0 s.srv.stats (p.val * 64 + 46) + 1) % 2 ^ 64 ∧
        t.tick = (s.waitClk (s.port p.val).verifyAt).tick ∧
        Frame [R.MAC_STAT_VERIFY p.val, R.MAC_EVT_BITS p.val] [.tick, .lanes, .srv] s t) ∧
  (∀ (s : State) (p : Fin 32),
      s.rd (R.MAC_STAT_VERIFY p.val) = 1 →
      ∃ t, Sys2Proof.Machine.exec (.verifyResponse p) s = .next t ∧
        t.rd (R.MAC_STAT_VERIFY p.val) = 2 ∧
        t.rd (R.MAC_STAT_PRE_ACTIVE p.val) = 1 ∧
        Frame [R.MAC_STAT_VERIFY p.val, R.MAC_STAT_PRE_ACTIVE p.val] [] s t) ∧
  (∀ (s : State) (p : Fin 32),
      s.rd (R.MAC_STAT_VERIFY p.val) ≠ 1 →
      ∃ t, Sys2Proof.Machine.exec (.verifyResponse p) s = .next t ∧
        Frame [] [] s t)

/-- FRAME_RX, FEC_VERDICT, COUNTER_READ, SVC_WRITE, SVC_READ, LOCAL_FAULT, FAULT_END, QUEUE_FLUSH.  A DOWN port receives nothing; in every
other state a delimited frame counts its octets in RX_OCTETS_ALL.  Out of UP it is counted in RX_NOT_UP, or in RX_CODE_ERR where it was
being received as the port left UP, beyond the 128 KiB of buffer in RX_BUF_DROP; with preemption active a first fragment opens a frame, a
later one in sequence joins it, one out of sequence is a reassembly error, and a verify mPacket is answered; one that fails a check of R233 in the counter of the first that fails, and each is dropped.  A good PAUSE frame in 802.3x mode is
noted with its effect delay and counted; one no filter accepts is counted in RX_FILTERED.  A FEC verdict adds its codeword counts, and an
uncorrectable one drops an unanswered frame with RX_CODE_ERR.  A read of a statistic's low word returns it, latches the high word and
clears the counter.  A WRITE stores the staged entry, frames whose stamp point precedes it still matching the old one, or is refused as a
duplicate; a READ fills the staging registers; both together are discarded, and either while the die's lane is OFF.  A fault sets its bit
with its event, empties the queues and has the port send remote fault or idle until it ends.
Choices of the model that it rests on: log entries 28, 51, 54, 55, 100 and 107.
(Rests on 07_ports.md; the mPackets' octets
are log entry 101.) -/
def Obligations.PortReceive : Prop :=
  (∀ (s : State) (p : Fin 32) (f : RxFrame),
      (s.port p.val).flight = none ∧ (s.port p.val).leaving = [] ∧ s.pauseHeld p.val = false →
      s.rd (R.MAC_STAT_STATE p.val) = 0 →
      (s.port p.val).outAt ≤ s.clk - f.back →
      ∃ t, Sys2Proof.Machine.exec (.frameRx p f) s = .next t ∧
        t.srv.stats = s.srv.stats ∧
        Frame [] [.srv] s t) ∧
  (∀ (s : State) (p : Fin 32) (f : RxFrame),
      (s.port p.val).flight = none ∧ (s.port p.val).leaving = [] ∧ s.pauseHeld p.val = false →
      s.rd (R.MAC_STAT_STATE p.val) ≠ 0 →
      s.rd (R.MAC_STAT_STATE p.val) ≠ 3 →
      (s.port p.val).outAt ≤ s.clk - f.back →
      ∃ t, Sys2Proof.Machine.exec (.frameRx p f) s = .next t ∧
        IMap.get 0 t.srv.stats (p.val * 64 + 31) % 2 ^ 64 = (IMap.get 0 s.srv.stats (p.val * 64 + 31) + f.bytes.length) % 2 ^ 64 ∧
        IMap.get 0 t.srv.stats (p.val * 64 + 62) = (IMap.get 0 s.srv.stats (p.val * 64 + 62) + 1) % 2 ^ 64 ∧
        Frame [] [.srv] s t) ∧
  (∀ (s : State) (p : Fin 32) (f : RxFrame),
      (s.port p.val).flight = none ∧ (s.port p.val).leaving = [] ∧ s.pauseHeld p.val = false →
      s.rd (R.MAC_STAT_STATE p.val) ≠ 3 →
      s.clk - f.back < (s.port p.val).outAt →
      ∃ t, Sys2Proof.Machine.exec (.frameRx p f) s = .next t ∧
        IMap.get 0 t.srv.stats (p.val * 64 + 13) = (IMap.get 0 s.srv.stats (p.val * 64 + 13) + 1) % 2 ^ 64 ∧
        (∀ k, k ≠ p.val * 64 + 13 → IMap.get 0 t.srv.stats k = IMap.get 0 s.srv.stats k) ∧
        Frame [] [.srv] s t) ∧
  (∀ (s : State) (p : Fin 32) (f : RxFrame) (c : Nat),
      (s.port p.val).flight = none ∧ (s.port p.val).leaving = [] ∧ s.pauseHeld p.val = false →
      s.rd (R.MAC_STAT_STATE p.val) = 3 →
      s.rd (R.MAC_STAT_PRE_ACTIVE p.val) = 1 →
      (s.port p.val).asm = none →
      smdStarts.findIdx? (· = f.smd.toNat) = some c →
      s.rxHeld p.val + f.backlog + f.bytes.length ≤ 131072 →
      mcrcOk [] (natBytes f.bytes) = true →
      ∃ t, Sys2Proof.Machine.exec (.frameRx p f) s = .next t ∧
        (∃ o, (t.port p.val).asm = some o ∧ o.count = c ∧ o.frags = 1 ∧ o.bytes = (natBytes f.bytes).take (f.bytes.length - 4) ∧
          o.point = s.clk - f.back ∧ o.stamp.t = s.tRx p.val f.back ∧ o.tsOk = s.timed p.val) ∧
        IMap.get 0 t.srv.stats (p.val * 64 + 23) = (IMap.get 0 s.srv.stats (p.val * 64 + 23) + 1) % 2 ^ 64 ∧
        Frame [] [.srv] s t) ∧
  (∀ (s : State) (p : Fin 32) (f : RxFrame) (c : Nat) (o : OpenFrame),
      (s.port p.val).flight = none ∧ (s.port p.val).leaving = [] ∧ s.pauseHeld p.val = false →
      s.rd (R.MAC_STAT_STATE p.val) = 3 →
      s.rd (R.MAC_STAT_PRE_ACTIVE p.val) = 1 →
      (s.port p.val).asm = some o →
      smdStarts.findIdx? (· = f.smd.toNat) = none →
      smdConts.findIdx? (· = f.smd.toNat) = some c →
      s.rxHeld p.val + f.backlog + f.bytes.length ≤ 131072 →
      o.count = c →
      fragCounts.getD ((o.frags - 1) % 4) 0 = f.frag.toNat →
      mcrcOk o.bytes (natBytes f.bytes) = true →
      ∃ t, Sys2Proof.Machine.exec (.frameRx p f) s = .next t ∧
        (t.port p.val).asm = some { o with bytes := o.bytes ++ (natBytes f.bytes).take (f.bytes.length - 4), frags := o.frags + 1, codeErr := o.codeErr || f.codeErr } ∧
        IMap.get 0 t.srv.stats (p.val * 64 + 23) = (IMap.get 0 s.srv.stats (p.val * 64 + 23) + 1) % 2 ^ 64 ∧
        Frame [] [.srv] s t) ∧
  (∀ (s : State) (p : Fin 32) (f : RxFrame) (c : Nat),
      (s.port p.val).flight = none ∧ (s.port p.val).leaving = [] ∧ s.pauseHeld p.val = false →
      s.rd (R.MAC_STAT_STATE p.val) = 3 →
      s.rd (R.MAC_STAT_PRE_ACTIVE p.val) = 1 →
      smdStarts.findIdx? (· = f.smd.toNat) = none →
      smdConts.findIdx? (· = f.smd.toNat) = some c →
      s.rxHeld p.val + f.backlog + f.bytes.length ≤ 131072 →
      (∀ o, (s.port p.val).asm = some o → o.count ≠ c ∨ fragCounts.getD ((o.frags - 1) % 4) 0 ≠ f.frag.toNat) →
      ∃ t, Sys2Proof.Machine.exec (.frameRx p f) s = .next t ∧
        (t.port p.val).asm = none ∧
        IMap.get 0 t.srv.stats (p.val * 64 + 22) = (IMap.get 0 s.srv.stats (p.val * 64 + 22) + 1) % 2 ^ 64 ∧
        IMap.get 0 t.srv.stats (p.val * 64 + 23) = (IMap.get 0 s.srv.stats (p.val * 64 + 23) + 1) % 2 ^ 64 ∧
        Frame [] [.srv] s t) ∧
  (∀ (s : State) (p : Fin 32) (f : RxFrame),
      (s.port p.val).flight = none ∧ (s.port p.val).leaving = [] ∧ s.pauseHeld p.val = false →
      s.rd (R.MAC_STAT_STATE p.val) = 3 →
      f.smd.toNat ∉ [0xD5, 0x07, 0x19] →
      (s.rd (R.MAC_STAT_PRE_ACTIVE p.val) ≠ 1 ∨ (f.smd.toNat ∉ smdStarts ∧ f.smd.toNat ∉ smdConts)) →
      ∃ t, Sys2Proof.Machine.exec (.frameRx p f) s = .next t ∧
        IMap.get 0 t.srv.stats (p.val * 64 + 24) = (IMap.get 0 s.srv.stats (p.val * 64 + 24) + 1) % 2 ^ 64 ∧
        (t.port p.val).asm = (s.port p.val).asm ∧
        Frame [] [.srv] s t) ∧
  (∀ (s : State) (p : Fin 32) (f : RxFrame),
      (s.port p.val).flight = none ∧ (s.port p.val).leaving = [] ∧ s.pauseHeld p.val = false →
      s.rd (R.MAC_STAT_STATE p.val) = 3 →
      natBytes f.bytes = verifyBody ++ le 4 (mcrc verifyBody) →
      f.smd = 0x07 →
      bit (s.port p.val).preCfg 0 = true →
      ∃ t, Sys2Proof.Machine.exec (.frameRx p f) s = .next t ∧
        t.out.head? = some (.mpacket p.val (0x19 :: verifyBody ++ le 4 (mcrc verifyBody))) ∧
        t.srv.stats = s.srv.stats ∧
        Frame [] [.tick, .lanes, .srv] s t) ∧
  (∀ (s : State) (p : Fin 32) (f : RxFrame),
      (s.port p.val).flight = none ∧ (s.port p.val).leaving = [] ∧ s.pauseHeld p.val = false →
      s.rd (R.MAC_STAT_STATE p.val) = 3 →
      natBytes f.bytes = verifyBody ++ le 4 (mcrc verifyBody) →
      f.smd = 0x19 →
      s.rd (R.MAC_STAT_VERIFY p.val) = 1 →
      ∃ t, Sys2Proof.Machine.exec (.frameRx p f) s = .next t ∧
        t.rd (R.MAC_STAT_VERIFY p.val) = 2 ∧
        t.rd (R.MAC_STAT_PRE_ACTIVE p.val) = 1 ∧
        Frame [R.MAC_STAT_VERIFY p.val, R.MAC_STAT_PRE_ACTIVE p.val] [.srv] s t) ∧
  (∀ (s : State) (p : Fin 32) (f : RxFrame),
      (s.port p.val).flight = none ∧ (s.port p.val).leaving = [] ∧ s.pauseHeld p.val = false →
      s.rd (R.MAC_STAT_STATE p.val) = 3 →
      f.smd = 0xD5 →
      131072 < s.rxHeld p.val + f.backlog + f.bytes.length →
      ∃ t, Sys2Proof.Machine.exec (.frameRx p f) s = .next t ∧
        IMap.get 0 t.srv.stats (p.val * 64 + 31) % 2 ^ 64 = (IMap.get 0 s.srv.stats (p.val * 64 + 31) + f.bytes.length) % 2 ^ 64 ∧
        IMap.get 0 t.srv.stats (p.val * 64 + 18) = (IMap.get 0 s.srv.stats (p.val * 64 + 18) + 1) % 2 ^ 64 ∧
        Frame [] [.srv] s t) ∧
  (∀ (s : State) (p : Fin 32) (f : RxFrame) (c : Nat),
      (s.port p.val).flight = none ∧ (s.port p.val).leaving = [] ∧ s.pauseHeld p.val = false →
      s.rd (R.MAC_STAT_STATE p.val) = 3 →
      f.smd = 0xD5 →
      s.rxHeld p.val + f.backlog + f.bytes.length ≤ 131072 →
      f.fecOut = false →
      rxCheck f.codeErr (max 64 (min 9216 (s.rd (R.MAC_RX_CFG_MAX_LEN p.val)))) (natBytes f.bytes) = some c →
      c ≠ 31 →
      ∃ t, Sys2Proof.Machine.exec (.frameRx p f) s = .next t ∧
        IMap.get 0 t.srv.stats (p.val * 64 + 31) % 2 ^ 64 = (IMap.get 0 s.srv.stats (p.val * 64 + 31) + f.bytes.length) % 2 ^ 64 ∧
        IMap.get 0 t.srv.stats (p.val * 64 + c) = (IMap.get 0 s.srv.stats (p.val * 64 + c) + 1) % 2 ^ 64 ∧
        (t.port p.val).queues = (s.port p.val).queues ∧
        (t.port p.val).rxSeq = (s.port p.val).rxSeq + 1 ∧
        Frame [] [.srv] s t) ∧
  (∀ (s : State) (p : Fin 32) (f : RxFrame),
      let e := Eth.parse ((natBytes f.bytes).take ((natBytes f.bytes).length - 4))
      (s.port p.val).flight = none ∧ (s.port p.val).leaving = [] ∧ s.pauseHeld p.val = false →
      s.rd (R.MAC_STAT_STATE p.val) = 3 →
      f.smd = 0xD5 →
      s.rxHeld p.val + f.backlog + f.bytes.length ≤ 131072 →
      f.fecOut = false →
      rxCheck f.codeErr (max 64 (min 9216 (s.rd (R.MAC_RX_CFG_MAX_LEN p.val)))) (natBytes f.bytes) = none →
      e.etype = 0x8808 →
      e.dst = macControl →
      beAt e.bytes e.l3 2 = 1 →
      s.rd (R.MAC_PAUSE_CFG_MODE p.val) = 1 →
      ∃ t, Sys2Proof.Machine.exec (.frameRx p f) s = .next t ∧
        IMap.get 0 t.srv.stats (p.val * 64 + 6) = (IMap.get 0 s.srv.stats (p.val * 64 + 6) + 1) % 2 ^ 64 ∧
        IMap.get 0 t.srv.stats (p.val * 64 + 1) = (IMap.get 0 s.srv.stats (p.val * 64 + 1) + 1) % 2 ^ 64 ∧
        ((t.port p.val).pauses = (s.port p.val).pauses ++ [{ atPs := s.nowPs + f.bytes.length * s.bytePs p.val - f.back * 1000 / 65536 + pauseDelay (s.rd (R.MAC_CFG_MODE p.val)), quanta := (List.range 8).map (fun q => (q, beAt e.bytes (e.l3 + 2) 2)), zeros := b01 (decide (beAt e.bytes (e.l3 + 2) 2 = 0)), sum := beAt e.bytes (e.l3 + 2) 2 }]) ∧
        Frame [] [.srv] s t) ∧
  (∀ (s : State) (p : Fin 32) (f : RxFrame),
      let e := Eth.parse ((natBytes f.bytes).take ((natBytes f.bytes).length - 4))
      (s.port p.val).flight = none ∧ (s.port p.val).leaving = [] ∧ s.pauseHeld p.val = false →
      s.rd (R.MAC_STAT_STATE p.val) = 3 →
      f.smd = 0xD5 →
      s.rxHeld p.val + f.backlog + f.bytes.length ≤ 131072 →
      f.fecOut = false →
      rxCheck f.codeErr (max 64 (min 9216 (s.rd (R.MAC_RX_CFG_MAX_LEN p.val)))) (natBytes f.bytes) = none →
      s.macAccepts p.val (s.clk - f.back) e = false →
      s.on (R.MAC_RX_CFG_PROMISC p.val) = false →
      ∃ t, Sys2Proof.Machine.exec (.frameRx p f) s = .next t ∧
        IMap.get 0 t.srv.stats (p.val * 64 + 17) = (IMap.get 0 s.srv.stats (p.val * 64 + 17) + 1) % 2 ^ 64 ∧
        IMap.get 0 t.srv.stats (p.val * 64 + 1) = (IMap.get 0 s.srv.stats (p.val * 64 + 1) + 1) % 2 ^ 64 ∧
        (t.port p.val).queues = (s.port p.val).queues ∧
        Frame [] [.srv] s t) ∧
  (∀ (s : State) (p : Fin 32) (v : FecVerdict) (corr uncorr sym : Nat),
      (s.port p.val).flight = none ∧ (s.port p.val).leaving = [] ∧ s.pauseHeld p.val = false →
      (s.port p.val).fec = [] →
      ∃ t, Sys2Proof.Machine.exec (.fecVerdict p v corr uncorr sym) s = .next t ∧
        IMap.get 0 t.srv.stats (p.val * 64 + 25) % 2 ^ 64 = (IMap.get 0 s.srv.stats (p.val * 64 + 25) + corr) % 2 ^ 64 ∧
        IMap.get 0 t.srv.stats (p.val * 64 + 26) % 2 ^ 64 = (IMap.get 0 s.srv.stats (p.val * 64 + 26) + uncorr) % 2 ^ 64 ∧
        IMap.get 0 t.srv.stats (p.val * 64 + 27) % 2 ^ 64 = (IMap.get 0 s.srv.stats (p.val * 64 + 27) + sym) % 2 ^ 64 ∧
        Frame [] [.srv] s t) ∧
  (∀ (s : State) (p : Fin 32) (corr uncorr sym : Nat) (w : FecWait) (rest : List FecWait),
      (s.port p.val).flight = none ∧ (s.port p.val).leaving = [] ∧ s.pauseHeld p.val = false →
      (s.port p.val).fec = w :: rest →
      ∃ t, Sys2Proof.Machine.exec (.fecVerdict p .uncorrectable corr uncorr sym) s = .next t ∧
        IMap.get 0 t.srv.stats (p.val * 64 + 25) % 2 ^ 64 = (IMap.get 0 s.srv.stats (p.val * 64 + 25) + corr) % 2 ^ 64 ∧
        IMap.get 0 t.srv.stats (p.val * 64 + 26) % 2 ^ 64 = (IMap.get 0 s.srv.stats (p.val * 64 + 26) + uncorr) % 2 ^ 64 ∧
        IMap.get 0 t.srv.stats (p.val * 64 + 27) % 2 ^ 64 = (IMap.get 0 s.srv.stats (p.val * 64 + 27) + sym) % 2 ^ 64 ∧
        (t.port p.val).fec.length = rest.length ∧
        (w.answered = false → IMap.get 0 t.srv.stats (p.val * 64 + 13) = (IMap.get 0 s.srv.stats (p.val * 64 + 13) + 1) % 2 ^ 64) ∧
        (w.answered = true → (t.port p.val).queues = (s.port p.val).queues) ∧
        Touches [.log, .srv, .regs .nts, .regs .pwr, .regs .wch] s t) ∧
  (∀ (s : State) (b : StatBlock) (i : Fin 64),
      (∀ p : Fin 32, (s.port p.val).flight = none ∧ (s.port p.val).leaving = [] ∧ s.pauseHeld p.val = false) →
      s.dieAnswers (statDie b) = true →
      i.val < statSize b →
      ∃ t, Sys2Proof.Machine.exec (.counterRead b i) s = .next t ∧
        t.out.head? = some (.readData (IMap.get 0 s.srv.stats (statKey b + i.val) % 2 ^ 32)) ∧
        IMap.get 0 t.srv.stats (statKey b + i.val) = 0 ∧
        IMap.get 0 t.srv.latch (statKey b + i.val) = IMap.get 0 s.srv.stats (statKey b + i.val) / 2 ^ 32 ∧
        (∀ k, k ≠ statKey b + i.val → IMap.get 0 t.srv.stats k = IMap.get 0 s.srv.stats k) ∧
        Frame [] [.srv] s t) ∧
  (∀ (s : State) (b : StatBlock) (i : Fin 64),
      s.dieAnswers (statDie b) = false →
      ∃ t, Sys2Proof.Machine.exec (.counterRead b i) s = .next t ∧
        t.out.head? = some (.readData 0xFFFFFFFF) ∧
        Frame [] [] s t) ∧
  (∀ (s : State) (p : Fin 32) (w : Word),
      let i := (R.MAC_SVC_CMD_IDX p.val).of w.toNat
      s.dieAnswers (p.val / 8) = true →
      (R.MAC_SVC_CMD_READ p.val).of w.toNat = 0 →
      s.svcTwice p.val i (svcEntry (s.svcData p.val)) = false →
      (∀ k : Fin 4, s.on (R.PTP_INST_CFG_EN (p.val * 4 + k.val)) = false ∨ s.rd (R.PTP_INST_CFG_SVC (p.val * 4 + k.val)) ≠ i) →
      ∃ t, Sys2Proof.Machine.exec (.svcWrite p w) s = .next t ∧
        t.svc p.val i = svcEntry (s.svcData p.val) ∧
        t.rd (R.MAC_SVC_CMD_IDX p.val) = i ∧
        (∀ k, k ≠ i → t.svc p.val k = s.svc p.val k) ∧
        (∀ k point, point < s.clk → s.clk < point + 1000000 * 65536 → t.svcAt p.val point k = s.svcAt p.val point k) ∧
        Frame (Reg.MAC_SVC_CMD p.val).fields [.srv] s t) ∧
  (∀ (s : State) (p : Fin 32) (w : Word),
      let i := (R.MAC_SVC_CMD_IDX p.val).of w.toNat
      s.dieAnswers (p.val / 8) = true →
      (R.MAC_SVC_CMD_READ p.val).of w.toNat = 0 →
      s.svcTwice p.val i (svcEntry (s.svcData p.val)) = true →
      ∃ t, Sys2Proof.Machine.exec (.svcWrite p w) s = .next t ∧
        t.rd (R.MAC_SVC_CMD_REFUSED p.val) = 1 ∧
        bit (t.rd (R.MAC_EVT_BITS p.val)) 9 = true ∧
        t.srv = s.srv ∧
        Frame (R.MAC_EVT_BITS p.val :: (Reg.MAC_SVC_CMD p.val).fields) [] s t) ∧
  (∀ (s : State) (p : Fin 32) (w : Word),
      let i := (R.MAC_SVC_CMD_IDX p.val).of w.toNat
      s.dieAnswers (p.val / 8) = true →
      (R.MAC_SVC_CMD_WRITE p.val).of w.toNat = 0 →
      ∃ t, Sys2Proof.Machine.exec (.svcRead p w) s = .next t ∧
        t.rd (R.MAC_SVC_DATA0_D p.val) = svcWord (s.svc p.val i) 0 % 16 ∧
        t.rd (R.MAC_SVC_DATA1_OUTER p.val) = svcWord (s.svc p.val i) 1 % 4096 ∧
        t.rd (R.MAC_SVC_DATA1_INNER p.val) = svcWord (s.svc p.val i) 1 / 65536 % 4096 ∧
        t.rd (R.MAC_SVC_DATA2_D p.val) = svcWord (s.svc p.val i) 2 % 2 ^ 32 ∧
        t.rd (R.MAC_SVC_DATA3_D p.val) = svcWord (s.svc p.val i) 3 % 2 ^ 32 ∧
        t.rd (R.MAC_SVC_DATA4_D p.val) = svcWord (s.svc p.val i) 4 % 2 ^ 32 ∧
        t.rd (R.MAC_SVC_DATA5_D p.val) = svcWord (s.svc p.val i) 5 % 2 ^ 32 ∧
        t.rd (R.MAC_SVC_CMD_IDX p.val) = i ∧
        Frame ((Reg.MAC_SVC_CMD p.val).fields ++ [R.MAC_SVC_DATA0_D p.val, R.MAC_SVC_DATA1_OUTER p.val, R.MAC_SVC_DATA1_INNER p.val, R.MAC_SVC_DATA2_D p.val, R.MAC_SVC_DATA3_D p.val, R.MAC_SVC_DATA4_D p.val, R.MAC_SVC_DATA5_D p.val]) [] s t) ∧
  (∀ (s : State) (p : Fin 32) (w : Word),
      s.dieAnswers (p.val / 8) = true →
      (R.MAC_SVC_CMD_WRITE p.val).of w.toNat = 1 →
      (R.MAC_SVC_CMD_READ p.val).of w.toNat = 1 →
      ∃ t, Sys2Proof.Machine.exec (.svcWrite p w) s = .next t ∧
        Sys2Proof.Machine.exec (.svcRead p w) s = .next t ∧
        Frame [] [] s t) ∧
  (∀ (s : State) (p : Fin 32) (w : Word),
      s.dieAnswers (p.val / 8) = false →
      ∃ t, Sys2Proof.Machine.exec (.svcWrite p w) s = .next t ∧
        Sys2Proof.Machine.exec (.svcRead p w) s = .next t ∧
        t.out.head? = some (.aer 1 (Reg.MAC_SVC_CMD p.val).addr true) ∧
        Frame [] [] s t) ∧
  (∀ (s : State) (p : Fin 32) (rem : Bool),
      let f := if rem then R.MAC_STAT_REM_FAULT p.val else R.MAC_STAT_LOC_FAULT p.val
      (s.port p.val).flight = none ∧ (s.port p.val).leaving = [] ∧ s.pauseHeld p.val = false →
      s.on f = false →
      (∀ q : Fin 8, s.txq p.val q.val = []) →
      ∃ t, Sys2Proof.Machine.exec (.localFault p rem) s = .next t ∧
        t.rd f = 1 ∧
        (bit (t.rd (R.MAC_EVT_BITS p.val)) (if rem then 4 else 3) = true) ∧
        (IMap.get 0 t.srv.stats (p.val * 64 + (if rem then 61 else 60)) = (IMap.get 0 s.srv.stats (p.val * 64 + (if rem then 61 else 60)) + 1) % 2 ^ 64) ∧
        t.rsSends p.val = (if t.rd (R.MAC_STAT_LOC_FAULT p.val) = 1 then 2 else 1) ∧
        (t.rsSends p.val ≠ s.rsSends p.val → .line p.val (t.rsSends p.val) ∈ t.out) ∧
        Frame [f, R.MAC_EVT_BITS p.val] [.srv] s t) ∧
  (∀ (s : State) (p : Fin 32) (rem : Bool),
      let f := if rem then R.MAC_STAT_REM_FAULT p.val else R.MAC_STAT_LOC_FAULT p.val
      let lost := (List.range 7).flatMap (s.txq p.val) ++ (s.txq p.val 7).filter (fun x => !x.isNts)
      (s.port p.val).flight = none ∧ (s.port p.val).leaving = [] ∧ s.pauseHeld p.val = false →
      s.on f = false →
      ∃ t, Sys2Proof.Machine.exec (.localFault p rem) s = .next t ∧
        t.rd f = 1 ∧
        (∀ q : Fin 8, t.txq p.val q.val = []) ∧
        IMap.get 0 t.srv.stats (p.val * 64 + 42) % 2 ^ 64 = (IMap.get 0 s.srv.stats (p.val * 64 + 42) + lost.length) % 2 ^ 64 ∧
        (∀ r : Fin 32, r ≠ p → ∀ q : Fin 8, t.txq r.val q.val = s.txq r.val q.val) ∧
        Touches [.srv, .rings, .regs .mac, .regs .nts, .regs .ring] s t) ∧
  (∀ (s : State) (p : Fin 32) (rem : Bool),
      let f := if rem then R.MAC_STAT_REM_FAULT p.val else R.MAC_STAT_LOC_FAULT p.val
      s.on f = true →
      ∃ t, Sys2Proof.Machine.exec (.localFault p rem) s = .next t ∧
        Frame [] [] s t) ∧
  (∀ (s : State) (p : Fin 32) (rem : Bool),
      let f := if rem then R.MAC_STAT_REM_FAULT p.val else R.MAC_STAT_LOC_FAULT p.val
      (s.port p.val).flight = none ∧ (s.port p.val).leaving = [] ∧ s.pauseHeld p.val = false →
      ∃ t, Sys2Proof.Machine.exec (.faultEnd p rem) s = .next t ∧
        t.rd f = 0 ∧
        (t.rsSends p.val ≠ s.rsSends p.val → t.out.head? = some (.line p.val (t.rsSends p.val))) ∧
        Frame [f] [.srv] s t) ∧
  (∀ (s : State) (p : Fin 32),
      s.rd (R.MAC_STAT_STATE p.val) ≠ 3 →
      (∀ q : Fin 8, ∀ x ∈ s.txq p.val q.val, ∃ e, x.kind = .still e) →
      (s.port p.val).flight = none →
      (∀ q : Fin 8, s.paused p.val q.val = false) →
      ∃ t, Sys2Proof.Machine.exec (.queueFlush p) s = .next t ∧
        (∀ q : Fin 8, t.txq p.val q.val = []) ∧
        IMap.get 0 t.srv.stats (p.val * 64 + 42) % 2 ^ 64 = (IMap.get 0 s.srv.stats (p.val * 64 + 42) + ((List.range 8).flatMap (s.txq p.val)).length) % 2 ^ 64 ∧
        t.tick = (s.waitClk ((s.port p.val).outAt + 1000000 * 65536)).tick ∧
        Frame [] [.tick, .lanes, .srv] s t) ∧
  (∀ (s : State) (p : Fin 32),
      s.rd (R.MAC_STAT_STATE p.val) ≠ 3 →
      ∃ t, Sys2Proof.Machine.exec (.queueFlush p) s = .next t ∧
        (∀ q : Fin 8, t.txq p.val q.val = []) ∧
        (∀ r : Fin 32, r ≠ p → ∀ q : Fin 8, t.txq r.val q.val = s.txq r.val q.val) ∧
        Touches [.tick, .lanes, .srv, .rings, .regs .nts, .regs .ring] s t) ∧
  (∀ (s : State) (p : Fin 32),
      s.rd (R.MAC_STAT_STATE p.val) = 3 →
      ∃ t, Sys2Proof.Machine.exec (.queueFlush p) s = .next t ∧
        Frame [] [] s t)

/-- PAUSE_EFFECT, PAUSE_EXPIRE, FRAME_COMMIT, FRAGMENT_END, TX_UNDERRUN, NTS_RESERVE, NTS_HOLD_TIMEOUT.  A pause sets or clears the PAUSED
bits of the queues it names at its instant and sets their timers; a timer that runs out releases its queue.  The frame at the head of
the highest queue that is not paused commits, to the ps: it leaves its queue and is in flight with the bytes written at commit, the gap
after it 12 bytes; a suspended frame goes on where no express frame waits; a frame that has left is put out with its FCS and counted.  A time-bearing frame whose port is not timed is discarded at commit and counted in LANE_WITHHELD or PORT_WITHHELD.  A
preemptable frame ends its fragment at the next permitted boundary for a waiting express frame or its own pause, and the fragment goes out
with its mCRC.  An underrun raises the
ring's START by 256 with UNDERRUN.  A finished NTS response reserves its commit 40 ns ahead, or waits in the hold while Q7 is
paused; one held 1 ms is discarded.
Choices of the model that it rests on: log entries 18, 51, 52, 53, 58, 100 and 107.
(Rests on 07_ports.md; 09_nts.md; 11_host_frames.md; the mPackets' octets are log entry 101.) -/
def Obligations.PortTransmit : Prop :=
  (∀ (s : State) (p : Fin 32),
      (s.port p.val).pauses = [] →
      ∃ t, Sys2Proof.Machine.exec (.pauseEffect p) s = .next t ∧
        Frame [] [] s t) ∧
  (∀ (s : State) (p : Fin 32) (e : Pause) (rest : List Pause) (q : Fin 8) (n : Nat),
      (s.port p.val).flight = none ∧ (s.port p.val).leaving = [] ∧ s.pauseHeld p.val = false →
      (s.port p.val).pauses = e :: rest →
      e.quanta = [(q.val, n)] →
      q.val ≠ 7 →
      ∃ t, Sys2Proof.Machine.exec (.pauseEffect p) s = .next t ∧
        t.paused p.val q.val = decide (n ≠ 0) ∧
        (IMap.get 0 (t.port p.val).pauseEnd q.val = (if n = 0 then 0 else e.atPs + n * s.quantumPs p.val)) ∧
        (t.port p.val).pauses = rest ∧
        IMap.get 0 t.srv.stats (p.val * 64 + 47) % 2 ^ 64 = (IMap.get 0 s.srv.stats (p.val * 64 + 47) + e.sum) % 2 ^ 64 ∧
        IMap.get 0 t.srv.stats (p.val * 64 + 49) % 2 ^ 64 = (IMap.get 0 s.srv.stats (p.val * 64 + 49) + e.zeros) % 2 ^ 64 ∧
        (∀ k : Fin 8, k ≠ q → t.paused p.val k.val = s.paused p.val k.val) ∧
        t.tick = (s.waitPs e.atPs).tick ∧
        Frame [R.MAC_STAT_PAUSED p.val] [.tick, .lanes, .srv] s t) ∧
  (∀ (s : State) (p : Fin 32) (q : Fin 8),
      (s.port p.val).flight = none ∧ (s.port p.val).leaving = [] ∧ s.pauseHeld p.val = false →
      s.paused p.val q.val = true →
      IMap.get 0 (s.port p.val).pauseEnd q.val ≠ 0 →
      ∃ t, Sys2Proof.Machine.exec (.pauseExpire p q) s = .next t ∧
        t.paused p.val q.val = false ∧
        IMap.get 0 (t.port p.val).pauseEnd q.val = 0 ∧
        (∀ k : Fin 8, k ≠ q → t.paused p.val k.val = s.paused p.val k.val) ∧
        t.tick = (s.waitPs (IMap.get 0 (s.port p.val).pauseEnd q.val)).tick ∧
        Frame [R.MAC_STAT_PAUSED p.val] [.tick, .lanes, .srv] s t) ∧
  (∀ (s : State) (p : Fin 32) (q : Fin 8),
      s.paused p.val q.val = false →
      ∃ t, Sys2Proof.Machine.exec (.pauseExpire p q) s = .next t ∧
        Frame [] [] s t) ∧
  (∀ (s : State) (p : Fin 32) (sub : Nat),
      (s.port p.val).flight = none ∧ (s.port p.val).leaving = [] ∧ s.pauseHeld p.val = false →
      (s.rd (R.MAC_STAT_STATE p.val) ≠ 3 ∨ s.flushing p.val = true ∨ s.nextTx p.val = none) →
      ∃ t, Sys2Proof.Machine.exec (.frameCommit p sub) s = .next t ∧
        (t.port p.val).queues = (s.port p.val).queues ∧
        (t.port p.val).flight = none ∧
        Frame [] [.srv] s t) ∧
  (∀ (s : State) (p : Fin 32) (q : Fin 8) (sub : Nat) (f : TxFrame) (rest : List TxFrame),
      let at_ := max (max (s.port p.val).freePs f.notBefore) (max (s.port p.val).seenPs (s.nowPs + sub))
      (s.port p.val).flight = none ∧ (s.port p.val).leaving = [] ∧ s.pauseHeld p.val = false →
      s.rd (R.MAC_STAT_STATE p.val) = 3 →
      s.flushing p.val = false →
      s.nextTx p.val = some q.val →
      s.txq p.val q.val = f :: rest →
      (f.kind = .answer ∨ ∃ e, f.kind = .still e) →
      ∃ t, Sys2Proof.Machine.exec (.frameCommit p sub) s = .next t ∧
        t.txq p.val q.val = rest ∧
        (∃ v, (t.port p.val).flight = some v ∧ v.q = q.val ∧ v.frame.bytes = (if f.kind = .answer then f.bytes else sumUdp (sumIp4 f.bytes)) ∧ v.startPs = at_ ∧ v.sent = 0 ∧ v.frags = 0 ∧ v.pre = s.preemptable p.val q.val ∧ (v.pre = true → v.count = (s.port p.val).txCount) ∧ v.endPs = at_ + (12 + v.frame.bytes.length) * s.bytePs p.val ∧ (t.port p.val).freePs = v.endPs + 12 * s.bytePs p.val) ∧
        t.tick = (s.waitPs at_).tick ∧
        (∀ k : Fin 8, k ≠ q → t.txq p.val k.val = s.txq p.val k.val) ∧
        Frame [] [.tick, .lanes, .srv] s t) ∧
  (∀ (s : State) (p : Fin 32) (q : Fin 8) (sub : Nat) (f : TxFrame) (rest : List TxFrame),
      (s.port p.val).flight = none ∧ (s.port p.val).leaving = [] ∧ s.pauseHeld p.val = false →
      s.rd (R.MAC_STAT_STATE p.val) = 3 →
      s.flushing p.val = false →
      s.nextTx p.val = some q.val →
      s.txq p.val q.val = f :: rest →
      f.kind = .ntpBcast →
      (s.waitPs (max (max (s.port p.val).freePs f.notBefore) (max (s.port p.val).seenPs (s.nowPs + sub)))).timed p.val = false →
      ∃ t, Sys2Proof.Machine.exec (.frameCommit p sub) s = .next t ∧
        t.txq p.val q.val = rest ∧
        (t.port p.val).flight = none ∧
        (s.laneLocked (p.val / 8) = true → IMap.get 0 t.srv.stats (p.val * 64 + 54) = (IMap.get 0 s.srv.stats (p.val * 64 + 54) + 1) % 2 ^ 64) ∧
        (s.laneLocked (p.val / 8) = false → IMap.get 0 t.srv.stats (2048 + p.val / 8 * 32 + 13) = (IMap.get 0 s.srv.stats (2048 + p.val / 8 * 32 + 13) + 1) % 2 ^ 64) ∧
        Frame [] [.tick, .lanes, .srv] s t) ∧
  (∀ (s : State) (p : Fin 32) (sub : Nat) (v : Flight),
      let at_ := max (s.port p.val).freePs (max (s.port p.val).seenPs (s.nowPs + sub))
      (s.port p.val).flight = none ∧ (s.port p.val).leaving = [] ∧ s.pauseHeld p.val = false →
      s.rd (R.MAC_STAT_STATE p.val) = 3 →
      s.flushing p.val = false →
      s.nextTx p.val = some 8 →
      (s.port p.val).suspended = some v →
      ∃ t, Sys2Proof.Machine.exec (.frameCommit p sub) s = .next t ∧
        (t.port p.val).suspended = none ∧
        (t.port p.val).flight = some { v with startPs := at_, endPs := at_ + (8 + (v.frame.bytes.length + 4 - v.sent)) * s.bytePs p.val } ∧
        (t.port p.val).queues = (s.port p.val).queues ∧
        t.tick = (s.waitPs at_).tick ∧
        Frame [] [.tick, .lanes, .srv] s t) ∧
  (∀ (s : State) (p : Fin 32) (v : Flight),
      (s.port p.val).flight = some v →
      s.leftPs p.val v ≤ max (s.port p.val).seenPs s.nowPs →
      (s.port p.val).leaving = [] →
      v.frame.kind = .answer →
      s.pauseHeld p.val = false →
      (s.port p.val).hold = [] →
      (s.port p.val).ready = [] →
      ∃ t, Sys2Proof.Machine.exec (.ntsReserve p) s = .next t ∧
        (t.port p.val).flight = none ∧
        (t.out.head? = some (if v.pre then .mpacket p.val (mpacketHead v.count v.frags ++ v.frame.bytes.drop v.sent ++ le 4 (crc32 v.frame.bytes))
          else .frame p.val (v.frame.bytes ++ le 4 (crc32 v.frame.bytes)))) ∧
        IMap.get 0 t.srv.stats (p.val * 64 + 33) = (IMap.get 0 s.srv.stats (p.val * 64 + 33) + 1) % 2 ^ 64 ∧
        IMap.get 0 t.srv.stats (p.val * 64 + 32) = (IMap.get 0 s.srv.stats (p.val * 64 + 32) + v.frame.bytes.length + 4) % 2 ^ 64 ∧
        IMap.get 0 t.srv.stats (p.val * 64 + 39) = (IMap.get 0 s.srv.stats (p.val * 64 + 39) + 1) % 2 ^ 64 ∧
        Frame [] [.srv] s t) ∧
  (∀ (s : State) (p : Fin 32),
      (s.port p.val).flight = none →
      s.pauseHeld p.val = false →
      ∃ t, Sys2Proof.Machine.exec (.fragmentEnd p) s = .next t ∧
        (t.port p.val).suspended = (s.port p.val).suspended ∧
        Frame [] [.srv] s t) ∧
  (∀ (s : State) (p : Fin 32) (v : Flight) (n : Nat),
      (s.port p.val).flight = some v →
      max (s.port p.val).seenPs s.nowPs < v.endPs →
      v.pre = true →
      ((s.paused p.val 7 = false ∧ s.txq p.val 7 ≠ []) ∨ s.paused p.val v.q = true) →
      (settle p.val s).boundary p.val v = some n →
      ∃ t, Sys2Proof.Machine.exec (.fragmentEnd p) s = .next t ∧
        (t.port p.val).flight = none ∧
        (t.port p.val).suspended = some { v with sent := v.sent + n, frags := v.frags + 1 } ∧
        t.out.head? = some (.mpacket p.val (mpacketHead v.count v.frags ++ slice v.frame.bytes v.sent n ++ le 4 (mcrc (v.frame.bytes.take (v.sent + n))))) ∧
        (t.port p.val).freePs = v.startPs + (8 + n + 16) * s.bytePs p.val ∧
        IMap.get 0 t.srv.stats (p.val * 64 + 45) = (IMap.get 0 s.srv.stats (p.val * 64 + 45) + 1) % 2 ^ 64 ∧
        IMap.get 0 t.srv.stats (p.val * 64 + 44) % 2 ^ 64 = (IMap.get 0 s.srv.stats (p.val * 64 + 44) + b01 (decide (v.frags = 0))) % 2 ^ 64 ∧
        Frame [] [.srv] s t) ∧
  (∀ (s : State) (p : Fin 32) (held : Nat),
      (s.port p.val).flight = none →
      s.pauseHeld p.val = false →
      ∃ t, Sys2Proof.Machine.exec (.txUnderrun p held) s = .next t ∧
        Frame [] [.srv] s t) ∧
  (∀ (s : State) (p : Fin 32) (held : Nat) (v : Flight) (q idx cmd os cf : Nat),
      (s.port p.val).flight = some v →
      max (s.port p.val).seenPs s.nowPs < v.endPs →
      v.frame.kind = .host q idx cmd os cf →
      bit cmd 1 = false →
      bit cmd 2 = false →
      128 ≤ q ∧ q < 256 →
      s.rd (R.HRG_RING_THR_START q) < 9216 →
      s.rd (R.HRG_RING_THR_START q) ≤ held →
      held < v.frame.bytes.length →
      ∃ t, Sys2Proof.Machine.exec (.txUnderrun p held) s = .next t ∧
        t.rd (R.HRG_RING_THR_START q) = min 9216 (s.rd (R.HRG_RING_THR_START q) + 256) ∧
        IMap.get 0 t.srv.stats (p.val * 64 + 41) = (IMap.get 0 s.srv.stats (p.val * 64 + 41) + 1) % 2 ^ 64 ∧
        bit (t.rd (R.MAC_EVT_BITS p.val)) 7 = true ∧
        (t.port p.val).flight = none ∧
        (let b := pad60 (v.frame.bytes.take held)
         (if v.pre then .mpacket p.val (mpacketHead v.count v.frags ++ b.drop v.sent ++ le 4 (0xFFFFFFFF - crc32 b)) else .frame p.val (b ++ le 4 (0xFFFFFFFF - crc32 b))) ∈ t.out) ∧
        bit (t.rd (R.HRG_RING_STAT_BITS q)) 2 = true ∧
        Touches [.srv, .rings, .regs .mac, .regs .ring] s t) ∧
  (∀ (s : State) (p : Fin 32) (f : TxFrame) (rest : List TxFrame),
      (s.port p.val).flight = none ∧ (s.port p.val).leaving = [] ∧ s.pauseHeld p.val = false →
      s.rd (R.MAC_STAT_STATE p.val) = 3 →
      s.flushing p.val = false →
      (s.port p.val).hold = [] →
      (s.port p.val).ready = f :: rest →
      s.paused p.val 7 = false →
      s.txRoom p.val 7 f.bytes.length = true →
      ∃ t, Sys2Proof.Machine.exec (.ntsReserve p) s = .next t ∧
        (t.port p.val).ready = rest ∧
        t.txq p.val 7 = s.txq p.val 7 ++ [{ f with notBefore := max (s.port p.val).seenPs s.nowPs + 40000 }] ∧
        Frame [] [.srv] s t) ∧
  (∀ (s : State) (p : Fin 32) (f : TxFrame) (rest : List TxFrame),
      (s.port p.val).flight = none ∧ (s.port p.val).leaving = [] ∧ s.pauseHeld p.val = false →
      s.rd (R.MAC_STAT_STATE p.val) = 3 →
      (s.flushing p.val = true ∨ s.paused p.val 7 = true) →
      (s.port p.val).ready = f :: rest →
      (s.port p.val).hold.length < 16 →
      ∃ t, Sys2Proof.Machine.exec (.ntsReserve p) s = .next t ∧
        (t.port p.val).ready = rest ∧
        (t.port p.val).hold = (s.port p.val).hold ++ [(s.clk, f)] ∧
        t.txq p.val 7 = s.txq p.val 7 ∧
        Frame [] [.srv] s t) ∧
  (∀ (s : State) (p : Fin 32),
      (s.port p.val).flight = none ∧ (s.port p.val).leaving = [] ∧ s.pauseHeld p.val = false →
      (s.port p.val).hold = [] →
      (s.port p.val).ready = [] →
      ∃ t, Sys2Proof.Machine.exec (.ntsReserve p) s = .next t ∧
        (t.port p.val).queues = (s.port p.val).queues ∧
        Frame [] [.srv] s t) ∧
  (∀ (s : State) (p : Fin 32) (at_ : Nat) (f : TxFrame) (rest : List (Nat × TxFrame)),
      (s.port p.val).hold = (at_, f) :: rest →
      ∃ t, Sys2Proof.Machine.exec (.ntsHoldTimeout p) s = .next t ∧
        (t.port p.val).hold = rest ∧
        bit (t.rd (R.NTS_EVT_BITS (p.val / 8))) 5 = true ∧
        IMap.get 0 t.srv.stats (2176 + p.val / 8 * 32 + 11) = (IMap.get 0 s.srv.stats (2176 + p.val / 8 * 32 + 11) + 1) % 2 ^ 64 ∧
        t.tick = (s.waitClk (at_ + 1000000 * 65536)).tick ∧
        Frame [R.NTS_EVT_BITS (p.val / 8)] [.tick, .lanes, .srv] s t) ∧
  (∀ (s : State) (p : Fin 32),
      (s.port p.val).hold = [] →
      ∃ t, Sys2Proof.Machine.exec (.ntsHoldTimeout p) s = .next t ∧
        Frame [] [] s t)

/-- CST_SWEEP, CST_FLUSH, BUCKET_REFILL, NTP_BROADCAST, NTS_ENGINE_DONE, KEY_CHANGE_EFFECT.  The sweeper frees the entries of its bucket
that are idle past their limit or of another generation, counts them and moves on 80 ns; the last bucket of a flush clears FLUSH_BUSY
with FLUSH_DONE.  FLUSH toggles GEN and sets FLUSH_BUSY, and is discarded while a flush runs, and while the die's lane is OFF with a report through AER.  The die's buckets gain rate per second up
to their depth.  A broadcast instant puts the packet into Q7 and counts BCAST_SENT, or is skipped with BCAST_SKIP.  An engine that ends
its request is free again; an unknown key with NAK off counts KEY_UNKNOWN and NAK_SUPPRESSED.  A pending key change moves its slot,
raises CHG_SEQ and shows on every die that is up.
Choices of the model that it rests on: log entries 24, 25, 56, 57, 58, 87, 92 and 100.
(Rests on 08_ntp.md; 09_nts.md.) -/
def Obligations.NtpAndNts : Prop :=
  (∀ (s : State) (n : Fin 4),
      let k := s.ntpDie n.val
      let u := s.waitClk k.sweepAt
      ∃ t, Sys2Proof.Machine.exec (.cstSweep n) s = .next t ∧
        (∀ w : Fin 8, t.cst (n.val * 2097152 + k.bucket * 8 + w.val) = (if u.cstFrees n.val (n.val * 2097152 + k.bucket * 8 + w.val) then {} else s.cst (n.val * 2097152 + k.bucket * 8 + w.val))) ∧
        (∀ i, i ∉ ways n.val k.bucket → t.cst i = s.cst i) ∧
        IMap.get 0 t.srv.stats (2048 + n.val * 32 + 7) % 2 ^ 64 = (IMap.get 0 s.srv.stats (2048 + n.val * 32 + 7) + ((ways n.val k.bucket).filter (u.cstFrees n.val)).length) % 2 ^ 64 ∧
        (t.ntpDie n.val).bucket = (k.bucket + 1) % 262144 ∧
        (t.ntpDie n.val).sweepAt = k.sweepAt + 80 * 65536 ∧
        (t.ntpDie n.val).flushLeft = k.flushLeft - 1 ∧
        (k.flushLeft = 1 → t.rd (R.NTP_CST_CTL_FLUSH_BUSY n.val) = 0 ∧ bit (t.rd (R.NTP_EVT_BITS n.val)) 3 = true) ∧
        t.tick = u.tick ∧
        Frame [R.NTP_CST_CTL_FLUSH_BUSY n.val, R.NTP_EVT_BITS n.val] [.tick, .lanes, .srv] s t) ∧
  (∀ (s : State) (n : Fin 4) (w : Word),
      s.dieAnswers n.val = true →
      s.rd (R.NTP_CST_CTL_FLUSH_BUSY n.val) = 0 →
      ∃ t, Sys2Proof.Machine.exec (.cstFlush n w) s = .next t ∧
        t.rd (R.NTP_CST_CTL_GEN n.val) = 1 - s.rd (R.NTP_CST_CTL_GEN n.val) ∧
        t.rd (R.NTP_CST_CTL_FLUSH_BUSY n.val) = 1 ∧
        (t.ntpDie n.val).flushLeft = 262144 ∧
        t.srv.cst = s.srv.cst ∧
        Frame [R.NTP_CST_CTL_GEN n.val, R.NTP_CST_CTL_FLUSH_BUSY n.val] [.srv] s t) ∧
  (∀ (s : State) (n : Fin 4) (w : Word),
      s.dieAnswers n.val = true →
      s.rd (R.NTP_CST_CTL_FLUSH_BUSY n.val) = 1 →
      ∃ t, Sys2Proof.Machine.exec (.cstFlush n w) s = .next t ∧
        Frame [] [] s t) ∧
  (∀ (s : State) (n : Fin 4) (w : Word),
      s.dieAnswers n.val = false →
      ∃ t, Sys2Proof.Machine.exec (.cstFlush n w) s = .next t ∧
        t.out.head? = some (.aer 1 (Reg.NTP_CST_CTL n.val).addr true) ∧
        Frame [] [] s t) ∧
  (∀ (s : State) (n : Fin 4),
      let depkod := max 1 (s.rd (R.NTP_KOD_CFG_BURST n.val))
      let depovf := 256 * max 1 (s.rd (R.NTP_OVF_CFG_BURST n.val))
      ∃ t, Sys2Proof.Machine.exec (.bucketRefill n) s = .next t ∧
        (t.ntpDie n.val).kod = { level := some (min (depkod * 800000000) (((s.ntpDie n.val).kod.level.getD (depkod * 800000000)) + (s.clk / 81920 - (s.ntpDie n.val).kod.tick) * max 1 (s.rd (R.NTP_KOD_CFG_RATE n.val)))), tick := s.clk / 81920 } ∧
        (t.ntpDie n.val).ovf = { level := some (min (depovf * 800000000) (((s.ntpDie n.val).ovf.level.getD (depovf * 800000000)) + (s.clk / 81920 - (s.ntpDie n.val).ovf.tick) * max 1 (s.rd (R.NTP_OVF_CFG_RATE n.val)))), tick := s.clk / 81920 } ∧
        Frame [] [.srv] s t) ∧
  (∀ (s : State) (p : Fin 32),
      s.on (R.NTP_BC_CFG_EN p.val) = false →
      ∃ t, Sys2Proof.Machine.exec (.ntpBroadcast p) s = .next t ∧
        Frame [] [] s t) ∧
  (∀ (s : State) (p : Fin 32),
      let due := s.bcNext p.val (max (s.openFrom (IMap.get none (s.ntpDie (p.val / 8)).bcSkipped (p.val % 8))) (((IMap.get none (s.ntpDie (p.val / 8)).bcLast (p.val % 8)).map (· + 1)).getD 0))
      let u := s.waitTs0 due
      let i := s.rd (R.NTP_BC_CFG_SVC p.val)
      s.on (R.NTP_BC_CFG_EN p.val) = true →
      due ≤ u.ts0 →
      (s.port p.val).flight = none ∧ (s.port p.val).leaving = [] ∧ s.pauseHeld p.val = false →
      s.rd (R.MAC_STAT_STATE p.val) = 3 →
      (withheld p.val u).isNone = true →
      svcValid (s.svc p.val i) = true →
      (64 ≤ i ↔ s.rd (R.NTP_BC_CFG_DEST p.val) = 2) →
      s.txRoom p.val 7 (u.bcFrame p.val).length = true →
      s.flushing p.val = false →
      ∃ t, Sys2Proof.Machine.exec (.ntpBroadcast p) s = .next t ∧
        t.txq p.val 7 = s.txq p.val 7 ++ [{ kind := .ntpBcast, bytes := u.bcFrame p.val }] ∧
        IMap.get none (t.ntpDie (p.val / 8)).bcLast (p.val % 8) = some due ∧
        IMap.get 0 t.srv.stats (2048 + p.val / 8 * 32 + 19) = (IMap.get 0 s.srv.stats (2048 + p.val / 8 * 32 + 19) + 1) % 2 ^ 64 ∧
        t.tick = u.tick ∧
        Frame [] [.tick, .lanes, .srv] s t) ∧
  (∀ (s : State) (p : Fin 32),
      let due := s.bcNext p.val (max (s.openFrom (IMap.get none (s.ntpDie (p.val / 8)).bcSkipped (p.val % 8))) (((IMap.get none (s.ntpDie (p.val / 8)).bcLast (p.val % 8)).map (· + 1)).getD 0))
      let u := s.waitTs0 due
      s.on (R.NTP_BC_CFG_EN p.val) = true →
      due ≤ u.ts0 →
      (s.rd (R.MAC_STAT_STATE p.val) ≠ 3 ∨ (withheld p.val u).isSome = true ∨ svcValid (s.svc p.val (s.rd (R.NTP_BC_CFG_SVC p.val))) = false) →
      ∃ t, Sys2Proof.Machine.exec (.ntpBroadcast p) s = .next t ∧
        t.txq p.val 7 = s.txq p.val 7 ∧
        IMap.get none (t.ntpDie (p.val / 8)).bcSkipped (p.val % 8) = some t.tick.count ∧
        (t.ntpDie (p.val / 8)).bcLast = (s.ntpDie (p.val / 8)).bcLast ∧
        bit (t.rd (R.NTP_EVT_BITS (p.val / 8))) 4 = true ∧
        IMap.get 0 t.srv.stats (2048 + p.val / 8 * 32 + 20) = (IMap.get 0 s.srv.stats (2048 + p.val / 8 * 32 + 20) + 1) % 2 ^ 64 ∧
        Frame [R.NTP_EVT_BITS (p.val / 8)] [.tick, .lanes, .srv] s t) ∧
  (∀ (s : State) (n : Fin 4) (e : Fin 12),
      s.engineJob n.val e.val = none →
      ∃ t, Sys2Proof.Machine.exec (.ntsEngineDone n e) s = .next t ∧
        Frame [] [] s t) ∧
  (∀ (s : State) (n : Fin 4) (e : Fin 12) (j : NtsJob) (q : NtsParts),
      s.engineJob n.val e.val = some j →
      j.port / 8 = n.val →
      (s.ntsDie n.val).queue = [] →
      ntsParts j.arrived.payload = some q →
      (j.keys.find? (fun k => k.1 ≠ 0 ∧ k.2.1 = beAt q.cookie 0 4) = none) →
      s.rd (R.NTS_CTL_NAK_EN n.val) = 0 →
      ∃ t, Sys2Proof.Machine.exec (.ntsEngineDone n e) s = .next t ∧
        t.engineJob n.val e.val = none ∧
        IMap.get 0 t.srv.stats (2176 + n.val * 32 + 6) = (IMap.get 0 s.srv.stats (2176 + n.val * 32 + 6) + 1) % 2 ^ 64 ∧
        IMap.get 0 t.srv.stats (2176 + n.val * 32 + 5) = (IMap.get 0 s.srv.stats (2176 + n.val * 32 + 5) + 1) % 2 ^ 64 ∧
        bit (t.rd (R.NTS_EVT_BITS n.val)) 2 = true ∧
        (t.port j.port).ready = (s.port j.port).ready ∧
        Touches [.srv, .regs .nts, .regs .pwr] s t) ∧
  (∀ (s : State) (n : Fin 4) (e : Fin 12) (j : NtsJob) (q : NtsParts) (k : Nat × Nat × List Nat),
      s.engineJob n.val e.val = some j →
      j.port / 8 = n.val →
      (s.ntsDie n.val).queue = [] →
      ntsParts j.arrived.payload = some q →
      (j.keys.find? (fun k => k.1 ≠ 0 ∧ k.2.1 = beAt q.cookie 0 4) = some k) →
      q.cookie.length = 104 →
      s.rd (R.MAC_STAT_STATE j.port) = 3 →
      ∃ t, Sys2Proof.Machine.exec (.ntsEngineDone n e) s = .next t ∧
        t.engineJob n.val e.val = none ∧
        (∀ plain x, sivOpen k.2.2 (slice q.cookie 0 4) (slice q.cookie 4 16) (slice q.cookie 20 84) = some plain → beAt plain 0 2 = 15 → beAt plain 2 2 = 0 →
          sivOpen (slice plain 4 32) (j.arrived.payload.take q.auth.ofs) (slice q.auth.body 4 (beAt q.auth.body 0 2)) (slice q.auth.body (4 + pad4 (beAt q.auth.body 0 2)) (beAt q.auth.body 2 2)) = some x →
          ∃ f, (t.port j.port).ready = (s.port j.port).ready ++ [f] ∧ f.rx = some j.rx ∧ f.isNts = true) ∧
        (t.port j.port).rxSeq = (s.port j.port).rxSeq ∧
        Touches [.srv, .rings, .regs .nts, .regs .pwr, .regs .ring] s t) ∧
  (∀ (s : State),
      s.srv.keyChange = none →
      ∃ t, Sys2Proof.Machine.exec (.keyChangeEffect) s = .next t ∧
        Frame [] [] s t) ∧
  (∀ (s : State) (k : KeyChange),
      s.srv.keyChange = some k →
      k.op = 0x0710 →
      k.slot < 4 →
      s.fw.running = [] →
      ∃ t, Sys2Proof.Machine.exec (.keyChangeEffect) s = .next t ∧
        t.keySlot k.slot = (1, k.id, k.key) ∧
        t.srv.keyChange = none ∧
        t.srv.chgSeq = (s.srv.chgSeq + 1) % 256 ∧
        (∀ j : Fin 4, j.val ≠ k.slot → t.keySlot j.val = s.keySlot j.val) ∧
        (∀ d : Fin 4, s.rd (R.TSC_LANE_STAT_STATE d.val) ≠ 0 → t.rd (R.NTS_KEY_ID_ID (d.val * 4 + k.slot)) = k.id % 2 ^ 32 ∧ t.rd (R.NTS_KEY_STATE_CHG_SEQ d.val) = (s.srv.chgSeq + 1) % 256 ∧ bit (t.rd (R.NTS_EVT_BITS d.val)) 4 = true ∧ t.rd (R.NTS_STAT_KEY_PEND d.val) = 0) ∧
        (let v := s.waitClk k.ready
         t.tick = (v.waitTs0 ((v.tickFrom + (1000000 * 65536 - 1)) / (1000000 * 65536) * (1000000 * 65536))).tick) ∧
        Touches [.tick, .lanes, .srv, .regs .nts] s t) ∧
  (∀ (s : State) (k : KeyChange),
      s.srv.keyChange = some k →
      k.op = 0x0711 →
      k.slot < 4 →
      s.fw.running = [] →
      ∃ t, Sys2Proof.Machine.exec (.keyChangeEffect) s = .next t ∧
        t.keySlot k.slot = (2, (s.keySlot k.slot).2) ∧
        (∀ j : Fin 4, j.val ≠ k.slot → t.keySlot j.val = ((if (s.keySlot j.val).1 = 2 then 1 else (s.keySlot j.val).1), (s.keySlot j.val).2)) ∧
        t.srv.chgSeq = (s.srv.chgSeq + 1) % 256 ∧
        Touches [.tick, .lanes, .srv, .regs .nts] s t) ∧
  (∀ (s : State) (k : KeyChange),
      s.srv.keyChange = some k →
      k.op = 0x0712 →
      k.slot < 4 →
      s.fw.running = [] →
      ∃ t, Sys2Proof.Machine.exec (.keyChangeEffect) s = .next t ∧
        t.keySlot k.slot = (0, 0, []) ∧
        (∀ j : Fin 4, j.val ≠ k.slot → t.keySlot j.val = s.keySlot j.val) ∧
        t.srv.chgSeq = (s.srv.chgSeq + 1) % 256 ∧
        Touches [.tick, .lanes, .srv, .regs .nts] s t)

/-- PTP_SEND, ANNOUNCE_TIMEOUT, FOLLOW_UP_MISS, GRANT_EXPIRE, UPSTREAM_DELAY_REQ, UNICAST_RENEW, INSTANCE_CONFIG, INSTANCE_RATE_WRITE.  A
multicast Sync or Announce, or a granted one, goes to Q7 at its instant with the next sequenceId, a Sync ahead of the Announce of the same
instant, or is skipped with SEND_SKIP; at a rate
outside the profile's range none falls due (log entry 59).  A master ANN_TO intervals silent is dropped; a Follow_Up that fails to come
within 1 s is counted.  A grant whose duration has run out is freed.  An upstream instance with the selected master sends a Delay_Req; a
profile-3 one requests its grants.  A write of an instance register stores it and restarts the instance when enabled: good settings start
it, bad ones leave it OFF with CFG_ERR.  RATE and PHASE of a master are only stored.  While the die's lane is OFF a write of these registers
is discarded and logged through AER.
Choices of the model that it rests on: log entries 27, 60, 100 and 102.
(Rests on 10_ptp.md.) -/
def Obligations.PtpEngine : Prop :=
  (∀ (s : State) (j : Fin 128) (ann : Bool),
      ((s.inst j.val).on = false ∨ s.upstream j.val = true ∨ s.on (R.PTP_INST_CFG_MCAST j.val) = false ∨ s.on (R.PTP_CTL_EN (j.val / 32)) = false ∨ (if ann then rateOk (s.rd (R.PTP_INST_RATE_LOG_ANN j.val)) (s.prof j.val).ann else rateOk (s.rd (R.PTP_INST_RATE_LOG_SYNC j.val)) (s.prof j.val).sync) = false) →
      ∃ t, Sys2Proof.Machine.exec (.ptpSend (.multicast j ann)) s = .next t ∧
        Frame [] [] s t) ∧
  (∀ (s : State) (j : Fin 128),
      let log := s.logSync j.val
      let due := nextInstant (intervalNs log) (s.rd (R.PTP_INST_PHASE_PHASE j.val)) (max (ceilDiv (s.openFrom (s.inst j.val).skipSync) 65536) (((s.inst j.val).lastSync.map (· + 1)).getD 0))
      let u := s.waitTs0 (ns16 due)
      let F := s.ptpFrame j.val (s.instSvc j.val) (s.groupDest j.val false) (s.ptpMessage j.val 0 0 0 0 (s.inst j.val).syncSeq log (List.replicate 10 0))
      (s.inst j.val).on = true →
      s.upstream j.val = false →
      s.on (R.PTP_INST_CFG_MCAST j.val) = true →
      s.on (R.PTP_CTL_EN (j.val / 32)) = true →
      rateOk (s.rd (R.PTP_INST_RATE_LOG_SYNC j.val)) (s.prof j.val).sync = true →
      (s.port (j.val / 4)).flight = none ∧ (s.port (j.val / 4)).leaving = [] ∧ s.pauseHeld (j.val / 4) = false →
      ns16 due ≤ u.ts0 →
      (ptpWithheld (j.val / 4) u).isNone = true →
      s.rd (R.MAC_STAT_STATE (j.val / 4)) = 3 →
      s.flushing (j.val / 4) = false →
      s.on (R.PTP_INST_CFG_ONESTEP j.val) = true →
      s.txRoom (j.val / 4) 7 F.length = true →
      ∃ t, Sys2Proof.Machine.exec (.ptpSend (.multicast j false)) s = .next t ∧
        t.txq (j.val / 4) 7 = (s.txq (j.val / 4) 7).takeWhile (fun g => !g.announces j.val (some due))
          ++ { kind := .ptp { msg := 0, inst := j.val, due := some due }, bytes := F } :: (s.txq (j.val / 4) 7).dropWhile (fun g => !g.announces j.val (some due)) ∧
        (t.inst j.val).syncSeq = ((s.inst j.val).syncSeq + 1) % 65536 ∧
        (t.inst j.val).lastSync = some due ∧
        t.tick = u.tick ∧
        Frame [] [.tick, .lanes, .srv] s t) ∧
  (∀ (s : State) (j : Fin 128),
      let log := s.logAnn j.val
      let due := nextInstant (intervalNs log) (s.rd (R.PTP_INST_PHASE_PHASE j.val)) (max (ceilDiv (s.openFrom (s.inst j.val).skipAnn) 65536) (((s.inst j.val).lastAnn.map (· + 1)).getD 0))
      let u := s.waitTs0 (ns16 due)
      let F := u.ptpFrame j.val (u.instSvc j.val) (u.groupDest j.val false) (u.announce j.val 0 (s.inst j.val).annSeq log)
      (s.inst j.val).on = true →
      s.upstream j.val = false →
      s.on (R.PTP_INST_CFG_MCAST j.val) = true →
      s.on (R.PTP_CTL_EN (j.val / 32)) = true →
      rateOk (s.rd (R.PTP_INST_RATE_LOG_ANN j.val)) (s.prof j.val).ann = true →
      (s.port (j.val / 4)).flight = none ∧ (s.port (j.val / 4)).leaving = [] ∧ s.pauseHeld (j.val / 4) = false →
      ns16 due ≤ u.ts0 →
      (ptpWithheld (j.val / 4) u).isNone = true →
      s.rd (R.MAC_STAT_STATE (j.val / 4)) = 3 →
      s.flushing (j.val / 4) = false →
      s.txRoom (j.val / 4) 7 F.length = true →
      ∃ t, Sys2Proof.Machine.exec (.ptpSend (.multicast j true)) s = .next t ∧
        t.txq (j.val / 4) 7 = s.txq (j.val / 4) 7 ++ [{ kind := .ptp { msg := 11, inst := j.val, due := some due }, bytes := F }] ∧
        (t.inst j.val).annSeq = ((s.inst j.val).annSeq + 1) % 65536 ∧
        (t.inst j.val).lastAnn = some due ∧
        Frame [] [.tick, .lanes, .srv] s t) ∧
  (∀ (s : State) (j : Fin 128) (ann : Bool),
      let log := if ann then s.logAnn j.val else s.logSync j.val
      let due := nextInstant (intervalNs log) (s.rd (R.PTP_INST_PHASE_PHASE j.val)) (max (ceilDiv (s.openFrom (if ann then (s.inst j.val).skipAnn else (s.inst j.val).skipSync)) 65536) (((if ann then (s.inst j.val).lastAnn else (s.inst j.val).lastSync).map (· + 1)).getD 0))
      let u := s.waitTs0 (ns16 due)
      (s.inst j.val).on = true →
      s.upstream j.val = false →
      s.on (R.PTP_INST_CFG_MCAST j.val) = true →
      s.on (R.PTP_CTL_EN (j.val / 32)) = true →
      (if ann then rateOk (s.rd (R.PTP_INST_RATE_LOG_ANN j.val)) (s.prof j.val).ann else rateOk (s.rd (R.PTP_INST_RATE_LOG_SYNC j.val)) (s.prof j.val).sync) = true →
      ns16 due ≤ u.ts0 →
      ((ptpWithheld (j.val / 4) u).isSome = true ∨ s.rd (R.MAC_STAT_STATE (j.val / 4)) ≠ 3) →
      ∃ t, Sys2Proof.Machine.exec (.ptpSend (.multicast j ann)) s = .next t ∧
        t.txq (j.val / 4) 7 = s.txq (j.val / 4) 7 ∧
        (if ann then (t.inst j.val).skipAnn else (t.inst j.val).skipSync) = some t.tick.count ∧
        (t.inst j.val).lastSync = (s.inst j.val).lastSync ∧ (t.inst j.val).lastAnn = (s.inst j.val).lastAnn ∧
        IMap.get 0 t.srv.stats (2304 + (j.val / 32) * 32 + 9) = (IMap.get 0 s.srv.stats (2304 + (j.val / 32) * 32 + 9) + 1) % 2 ^ 64 ∧
        bit (t.rd (R.PTP_EVT_BITS (j.val / 32))) 4 = true ∧
        Frame [R.PTP_EVT_BITS (j.val / 32)] [.tick, .lanes, .srv] s t) ∧
  (∀ (s : State) (n : Fin 4) (e : Fin 16384),
      (s.grant (n.val * 16384 + e.val)).valid = false →
      ∃ t, Sys2Proof.Machine.exec (.ptpSend (.granted n e)) s = .next t ∧
        Frame [] [] s t) ∧
  (∀ (s : State) (n : Fin 4) (e : Fin 16384),
      let g := s.grant (n.val * 16384 + e.val)
      let p := g.inst / 4
      let due := nextInstant (intervalNs g.logPeriod) (e.val * intervalNs g.logPeriod / 16384) (max (ceilDiv (s.openFrom g.skipped) 65536) ((g.lastNs.map (· + 1)).getD 0))
      let u := s.waitTs0 (ns16 due)
      let F := s.ptpFrame g.inst (s.instSvc g.inst) (grantDest g) (s.ptpMessage g.inst 0 4 0 0 g.seq g.logPeriod (List.replicate 10 0))
      g.valid = true →
      g.msg = 0 →
      g.inst / 32 = n.val →
      s.on (R.PTP_CTL_EN n.val) = true →
      (s.port p).flight = none ∧ (s.port p).leaving = [] ∧ s.pauseHeld p = false →
      ns16 due ≤ u.ts0 →
      (ptpWithheld p u).isNone = true →
      s.rd (R.MAC_STAT_STATE p) = 3 →
      s.flushing p = false →
      s.on (R.PTP_INST_CFG_ONESTEP g.inst) = true →
      s.txRoom p 7 F.length = true →
      ∃ t, Sys2Proof.Machine.exec (.ptpSend (.granted n e)) s = .next t ∧
        t.txq p 7 = s.txq p 7 ++ [{ kind := .ptp { msg := 0, inst := g.inst, due := some due }, bytes := F }] ∧
        t.grant (n.val * 16384 + e.val) = { g with seq := (g.seq + 1) % 65536, lastNs := some due } ∧
        Frame [] [.tick, .lanes, .srv] s t) ∧
  (∀ (s : State) (n : Fin 4) (e : Fin 16384),
      let g := s.grant (n.val * 16384 + e.val)
      let p := g.inst / 4
      let due := nextInstant (intervalNs g.logPeriod) (e.val * intervalNs g.logPeriod / 16384) (max (ceilDiv (s.openFrom g.skipped) 65536) ((g.lastNs.map (· + 1)).getD 0))
      let u := s.waitTs0 (ns16 due)
      g.valid = true →
      (g.msg = 0 ∨ g.msg = 11) →
      g.inst / 32 = n.val →
      s.on (R.PTP_CTL_EN n.val) = true →
      ns16 due ≤ u.ts0 →
      ((ptpWithheld p u).isSome = true ∨ s.rd (R.MAC_STAT_STATE p) ≠ 3) →
      ∃ t, Sys2Proof.Machine.exec (.ptpSend (.granted n e)) s = .next t ∧
        t.grant (n.val * 16384 + e.val) = { g with skipped := some t.tick.count } ∧
        t.txq p 7 = s.txq p 7 ∧
        IMap.get 0 t.srv.stats (2304 + n.val * 32 + 9) = (IMap.get 0 s.srv.stats (2304 + n.val * 32 + 9) + 1) % 2 ^ 64 ∧
        bit (t.rd (R.PTP_EVT_BITS n.val)) 4 = true ∧
        Frame [R.PTP_EVT_BITS n.val] [.tick, .lanes, .srv] s t) ∧
  (∀ (s : State) (j : Fin 128) (id : Nat),
      (∀ m ∈ s.srv.masters, ¬ (m.inst = j.val ∧ m.id = id)) →
      ∃ t, Sys2Proof.Machine.exec (.announceTimeout j id) s = .next t ∧
        Frame [] [] s t) ∧
  (∀ (s : State) (j : Fin 128) (id : Nat) (m : PtpMaster),
      (s.srv.masters.find? (fun m => m.inst = j.val && m.id = id) = some m) →
      ∃ t, Sys2Proof.Machine.exec (.announceTimeout j id) s = .next t ∧
        (t.srv.masters = s.srv.masters.filter (fun k => !(k.inst = j.val && k.id = id))) ∧
        IMap.get 0 t.srv.stats (2304 + (j.val / 32) * 32 + 23) = (IMap.get 0 s.srv.stats (2304 + (j.val / 32) * 32 + 23) + 1) % 2 ^ 64 ∧
        t.tick = (s.waitClk (m.heard + max 2 (s.rd (R.PTP_INST_RATE_ANN_TO j.val)) * (intervalNs m.logAnn * 65536))).tick ∧
        t.selectedOf (s.domSlot j.val) ≠ some (j.val, id) ∧
        Touches [.tick, .lanes, .ens, .log, .srv, .regs .ens, .regs .wch, .regs .ptp] s t) ∧
  (∀ (s : State) (j : Fin 128),
      (s.inst j.val).syncWait = none →
      ∃ t, Sys2Proof.Machine.exec (.followUpMiss j) s = .next t ∧
        Frame [] [] s t) ∧
  (∀ (s : State) (j : Fin 128) (a : Nat) (b : Stamp) (c : Int) (at_ : Nat),
      (s.inst j.val).syncWait = some (a, b, c, at_) →
      ∃ t, Sys2Proof.Machine.exec (.followUpMiss j) s = .next t ∧
        (t.inst j.val).syncWait = none ∧
        IMap.get 0 t.srv.stats (2304 + (j.val / 32) * 32 + 22) = (IMap.get 0 s.srv.stats (2304 + (j.val / 32) * 32 + 22) + 1) % 2 ^ 64 ∧
        t.tick = (s.waitClk (at_ + 1000000000 * 65536)).tick ∧
        Frame [] [.tick, .lanes, .srv] s t) ∧
  (∀ (s : State) (n : Fin 4) (e : Fin 16384),
      (s.grant (n.val * 16384 + e.val)).valid = false →
      ∃ t, Sys2Proof.Machine.exec (.grantExpire n e) s = .next t ∧
        Frame [] [] s t) ∧
  (∀ (s : State) (n : Fin 4) (e : Fin 16384),
      (s.grant (n.val * 16384 + e.val)).valid = true →
      ∃ t, Sys2Proof.Machine.exec (.grantExpire n e) s = .next t ∧
        t.grant (n.val * 16384 + e.val) = {} ∧
        IMap.get 0 t.srv.stats (2304 + n.val * 32 + 15) = (IMap.get 0 s.srv.stats (2304 + n.val * 32 + 15) + 1) % 2 ^ 64 ∧
        (∀ k, k ≠ n.val * 16384 + e.val → t.grant k = s.grant k) ∧
        t.tick = (s.waitDie n.val ((s.grant (n.val * 16384 + e.val)).expiry * 400000000)).tick ∧
        Frame [] [.tick, .lanes, .srv] s t) ∧
  (∀ (s : State) (j : Fin 128) (wait : Nat),
      ((s.inst j.val).on = false ∨ s.on (R.PTP_CTL_EN (j.val / 32)) = false ∨ s.selectedOf (s.domSlot j.val) = none) →
      ∃ t, Sys2Proof.Machine.exec (.upstreamDelayReq j wait) s = .next t ∧
        Frame [] [] s t) ∧
  (∀ (s : State) (j : Fin 128) (wait id : Nat),
      let i := intervalNs (max (s.logDreq j.val) ((s.inst j.val).respLog.getD (s.logDreq j.val))) * 65536
      let f0 := (s.inst j.val).dreqFrom + (s.clk - (s.inst j.val).dreqFrom) / i * i
      let F := s.ptpFrame j.val (s.instSvc j.val) (s.groupDest j.val false) (s.ptpMessage j.val 1 0 0 0 (s.inst j.val).dreqSeq 0x7F (List.replicate 10 0))
      (s.inst j.val).on = true →
      s.selectedOf (s.domSlot j.val) = some (j.val, id) →
      s.on (R.PTP_CTL_EN (j.val / 32)) = true →
      (s.port (j.val / 4)).flight = none ∧ (s.port (j.val / 4)).leaving = [] ∧ s.pauseHeld (j.val / 4) = false →
      s.rd (R.MAC_STAT_STATE (j.val / 4)) = 3 →
      s.flushing (j.val / 4) = false →
      s.on (R.PTP_INST_CFG_UCAST j.val) = false →
      s.txRoom (j.val / 4) 7 F.length = true →
      ∃ t, Sys2Proof.Machine.exec (.upstreamDelayReq j wait) s = .next t ∧
        t.txq (j.val / 4) 7 = s.txq (j.val / 4) 7 ++ [{ kind := .ptp { msg := 1, inst := j.val, seq := (s.inst j.val).dreqSeq }, bytes := F }] ∧
        (t.inst j.val).dreqSeq = ((s.inst j.val).dreqSeq + 1) % 65536 ∧
        (t.inst j.val).dreqOut = some ((s.inst j.val).dreqSeq, none) ∧
        (t.inst j.val).dreqFrom = f0 + i ∧
        t.tick = (s.waitClk (f0 + wait % i)).tick ∧
        Frame [] [.tick, .lanes, .srv] s t) ∧
  (∀ (s : State) (j : Fin 128) (m : Fin 3),
      ((s.inst j.val).on = false ∨ s.on (R.PTP_CTL_EN (j.val / 32)) = false ∨ s.upstream j.val = false ∨ s.rd (R.PTP_INST_CFG_PROFILE j.val) ≠ 3) →
      ∃ t, Sys2Proof.Machine.exec (.unicastRenew j m) s = .next t ∧
        Frame [] [] s t) ∧
  (∀ (s : State) (j : Fin 128) (m : Fin 3),
      let msg : Nat := if m = 0 then 11 else if m = 1 then 0 else 9
      let log := if m = 0 then s.logAnn j.val else if m = 1 then s.logSync j.val else s.logDreq j.val
      let F := s.ptpFrame j.val (s.instSvc j.val) (s.peerDest j.val (s.instSvc j.val)) (s.ptpMessage j.val 12 4 0 0 (s.inst j.val).sigSeq 0x7F (anyTarget ++ tlvRequest msg log (max 1 (s.rd (R.PTP_INST_UP_REQ_DUR j.val)))))
      (s.inst j.val).on = true →
      s.upstream j.val = true →
      s.rd (R.PTP_INST_CFG_PROFILE j.val) = 3 →
      s.on (R.PTP_CTL_EN (j.val / 32)) = true →
      (s.port (j.val / 4)).flight = none ∧ (s.port (j.val / 4)).leaving = [] ∧ s.pauseHeld (j.val / 4) = false →
      s.rd (R.MAC_STAT_STATE (j.val / 4)) = 3 →
      s.flushing (j.val / 4) = false →
      s.txRoom (j.val / 4) 7 F.length = true →
      ∃ t, Sys2Proof.Machine.exec (.unicastRenew j m) s = .next t ∧
        t.txq (j.val / 4) 7 = s.txq (j.val / 4) 7 ++ [{ kind := .signal j.val [], bytes := F }] ∧
        (t.inst j.val).sigSeq = ((s.inst j.val).sigSeq + 1) % 65536 ∧
        IMap.get none (t.inst j.val).asked msg = some t.clk ∧
        IMap.get none (t.inst j.val).retryAt msg = none ∧
        t.tick = (s.waitClk (s.renewAt j.val msg)).tick ∧
        Frame [] [.tick, .lanes, .srv] s t) ∧
  (∀ (s : State) (j : Fin 128) (w : Word),
      (s.inst j.val).on = false →
      (R.PTP_INST_CFG_EN j.val).of w.toNat = 0 →
      s.dieAnswers (j.val / 32) = true →
      ∃ t, Sys2Proof.Machine.exec (.instanceConfig j 0 w) s = .next t ∧
        t.rd (R.PTP_INST_CFG_EN j.val) = 0 ∧
        t.rd (R.PTP_INST_CFG_PROFILE j.val) = (R.PTP_INST_CFG_PROFILE j.val).of w.toNat ∧
        t.rd (R.PTP_INST_CFG_SVC j.val) = (R.PTP_INST_CFG_SVC j.val).of w.toNat ∧
        t.rd (R.PTP_INST_STAT_CFG_ERR j.val) = 0 ∧
        Frame (R.PTP_INST_STAT_CFG_ERR j.val :: (Reg.PTP_INST_CFG j.val).fields) [] s t) ∧
  (∀ (s : State) (j : Fin 128) (w : Word),
      (s.inst j.val).on = false →
      (R.PTP_INST_CFG_EN j.val).of w.toNat = 1 →
      (6 ≤ (R.PTP_INST_CFG_PROFILE j.val).of w.toNat ∨ (R.PTP_INST_CFG_TRANSPORT j.val).of w.toNat = 3 ∨ ((R.PTP_INST_CFG_MCAST j.val).of w.toNat = 0 ∧ (R.PTP_INST_CFG_UCAST j.val).of w.toNat = 0) ∨ svcValid (s.svc (j.val / 4) ((R.PTP_INST_CFG_SVC j.val).of w.toNat)) = false) →
      s.dieAnswers (j.val / 32) = true →
      ∃ t, Sys2Proof.Machine.exec (.instanceConfig j 0 w) s = .next t ∧
        t.rd (R.PTP_INST_STAT_CFG_ERR j.val) = 1 ∧
        bit (t.rd (R.PTP_EVT_BITS (j.val / 32))) 3 = true ∧
        (t.inst j.val).on = false ∧
        t.rd (R.PTP_INST_CFG_EN j.val) = 1 ∧
        Frame ([R.PTP_INST_STAT_CFG_ERR j.val, R.PTP_EVT_BITS (j.val / 32)] ++ (Reg.PTP_INST_CFG j.val).fields) [] s t) ∧
  (∀ (s : State) (j : Fin 128) (w : Word),
      (∀ k : Fin 4, (s.inst (j.val / 4 * 4 + k.val)).on = false) →
      w = 0x00317F91 →
      svcValid (s.svc (j.val / 4) 3) = true →
      s.rd (R.PTP_INST_RATE_LOG_SYNC j.val) = 0x7F ∧ s.rd (R.PTP_INST_RATE_LOG_ANN j.val) = 0x7F ∧ s.rd (R.PTP_INST_RATE_LOG_DREQ j.val) = 0x7F →
      s.dieAnswers (j.val / 32) = true →
      ∃ t, Sys2Proof.Machine.exec (.instanceConfig j 0 w) s = .next t ∧
        t.rd (R.PTP_INST_STAT_STATE j.val) = 2 ∧
        t.rd (R.PTP_INST_STAT_CFG_ERR j.val) = 0 ∧
        (t.inst j.val).on = true ∧
        (t.inst j.val).dreqFrom = s.clk ∧
        Frame ([R.PTP_INST_STAT_CFG_ERR j.val, R.PTP_INST_STAT_STATE j.val] ++ (Reg.PTP_INST_CFG j.val).fields) [.srv] s t) ∧
  (∀ (s : State) (j : Fin 128) (w : Word),
      s.rd (R.PTP_INST_CFG_EN j.val) = 0 →
      s.dieAnswers (j.val / 32) = true →
      ∃ t, Sys2Proof.Machine.exec (.instanceConfig j 1 w) s = .next t ∧
        t.rd (R.PTP_INST_UP_QUAL_CLASS j.val) = (R.PTP_INST_UP_QUAL_CLASS j.val).of w.toNat ∧
        t.rd (R.PTP_INST_UP_REQ_DUR j.val) = (R.PTP_INST_UP_REQ_DUR j.val).of w.toNat ∧
        Frame (Reg.PTP_INST_UP j.val).fields [] s t) ∧
  (∀ (s : State) (j : Fin 128) (k : Fin 4) (w : Word),
      s.rd (R.PTP_INST_CFG_EN j.val) = 0 →
      s.dieAnswers (j.val / 32) = true →
      ∃ t, Sys2Proof.Machine.exec (.instanceConfig j ⟨k.val + 2, by omega⟩ w) s = .next t ∧
        t.rd (R.PTP_INST_PEER_ADDR (j.val * 4 + k.val)) = w.toNat ∧
        Frame [R.PTP_INST_PEER_ADDR (j.val * 4 + k.val)] [] s t) ∧
  (∀ (s : State) (j : Fin 128) (w : Word),
      s.dieAnswers (j.val / 32) = true →
      ∃ t, Sys2Proof.Machine.exec (.instanceRateWrite j true w) s = .next t ∧
        t.rd (R.PTP_INST_PHASE_PHASE j.val) = (R.PTP_INST_PHASE_PHASE j.val).of w.toNat ∧
        Frame (Reg.PTP_INST_PHASE j.val).fields [] s t) ∧
  (∀ (s : State) (j : Fin 128) (w : Word),
      (s.upstream j.val = false ∨ s.rd (R.PTP_INST_CFG_EN j.val) = 0) →
      s.dieAnswers (j.val / 32) = true →
      ∃ t, Sys2Proof.Machine.exec (.instanceRateWrite j false w) s = .next t ∧
        t.rd (R.PTP_INST_RATE_LOG_SYNC j.val) = (R.PTP_INST_RATE_LOG_SYNC j.val).of w.toNat ∧
        t.rd (R.PTP_INST_RATE_ANN_TO j.val) = (R.PTP_INST_RATE_ANN_TO j.val).of w.toNat ∧
        Frame (Reg.PTP_INST_RATE j.val).fields [] s t) ∧
  (∀ (s : State) (j : Fin 128) (r : Fin 6) (w : Word),
      s.dieAnswers (j.val / 32) = false →
      ∃ t, Sys2Proof.Machine.exec (.instanceConfig j r w) s = .next t ∧
        t.out.head? = some (.aer 1 (instReg j.val r).addr true) ∧
        Frame [] [] s t) ∧
  (∀ (s : State) (j : Fin 128) (phase : Bool) (w : Word),
      s.dieAnswers (j.val / 32) = false →
      ∃ t, Sys2Proof.Machine.exec (.instanceRateWrite j phase w) s = .next t ∧
        t.out.head? = some (.aer 1 (if phase then (Reg.PTP_INST_PHASE j.val).addr else (Reg.PTP_INST_RATE j.val).addr) true) ∧
        Frame [] [] s t)

/-- RING_ENABLE, RING_DISABLE and RING_OWNER.  The owner's write of EN 1 to a stopped, quiesced ring with VEC in range takes SIZE and VEC,
sets EN, clears QUIESCED and CFG_ERR, and sets HEAD and the fetch point to TAIL; with VEC out of range EN stays 0 and CFG_ERR is set.
EN 0 drops the posted descriptors and sets QUIESCED when nothing is outstanding.  PF1's write of OWNER takes effect on a stopped ring
and on a running one sets CFG_ERR.  PF0's write to a page it does not own is logged as a non-fatal error and changes nothing; PF1's
writes to a PF0 ring act on OWNER and EN 0 only.
Choices of the model that it rests on: log entry 26.
(Rests on 11_host_frames.md.) -/
def Obligations.RingControl : Prop :=
  (∀ (s : State) (fn : Fin 2) (q : Fin 258) (w : Word),
      let u := settleEnded s
      u.ringFn q.val = fn.val →
      (fn.val = 0 ∨ 256 ≤ q.val ∨ (R.HRG_RING_CFG_OWNER q.val).of w.toNat = u.rd (R.HRG_RING_CFG_OWNER q.val)) →
      u.on (R.HRG_RING_CFG_EN q.val) = false →
      u.on (R.HRG_RING_CFG_QUIESCED q.val) = true →
      ((R.HRG_RING_CFG_VEC q.val).of w.toNat ≤ (if u.ringFn q.val = 0 then 61 else 39)) →
      ∃ t, Sys2Proof.Machine.exec (.ringEnable fn q w) s = .next t ∧
        t.rd (R.HRG_RING_CFG_EN q.val) = 1 ∧
        t.rd (R.HRG_RING_CFG_QUIESCED q.val) = 0 ∧
        t.rd (R.HRG_RING_CFG_CFG_ERR q.val) = 0 ∧
        t.rd (R.HRG_RING_CFG_SIZE q.val) = (R.HRG_RING_CFG_SIZE q.val).of w.toNat ∧
        t.rd (R.HRG_RING_CFG_VEC q.val) = (R.HRG_RING_CFG_VEC q.val).of w.toNat ∧
        t.rd (R.HRG_RING_CFG_OWNER q.val) = u.rd (R.HRG_RING_CFG_OWNER q.val) ∧
        t.rd (R.HRG_RING_HEAD_HEAD q.val) = u.rd (R.HRG_RING_TAIL_TAIL q.val) ∧
        (t.ring q.val).fetch = u.rd (R.HRG_RING_TAIL_TAIL q.val) ∧
        (∀ k : Fin 258, k ≠ q → t.ring k.val = u.ring k.val) ∧
        Frame (R.HRG_RING_HEAD_HEAD q.val :: (Reg.HRG_RING_CFG q.val).fields) [.rings] u t) ∧
  (∀ (s : State) (fn : Fin 2) (q : Fin 258) (w : Word),
      let u := settleEnded s
      u.ringFn q.val = fn.val →
      (fn.val = 0 ∨ 256 ≤ q.val ∨ (R.HRG_RING_CFG_OWNER q.val).of w.toNat = u.rd (R.HRG_RING_CFG_OWNER q.val)) →
      u.on (R.HRG_RING_CFG_EN q.val) = false →
      ((if u.ringFn q.val = 0 then 61 else 39) < (R.HRG_RING_CFG_VEC q.val).of w.toNat) →
      ∃ t, Sys2Proof.Machine.exec (.ringEnable fn q w) s = .next t ∧
        t.rd (R.HRG_RING_CFG_EN q.val) = 0 ∧
        t.rd (R.HRG_RING_CFG_CFG_ERR q.val) = 1 ∧
        bit (t.rd (R.HRG_EVT_BITS fn.val)) 4 = true ∧
        t.rings = u.rings ∧
        Frame (R.HRG_EVT_BITS fn.val :: (Reg.HRG_RING_CFG q.val).fields) [] u t) ∧
  (∀ (s : State) (fn : Fin 2) (q : Fin 258) (w : Word),
      let u := settleEnded s
      u.ringFn q.val = fn.val →
      (fn.val = 0 ∨ 256 ≤ q.val ∨ (R.HRG_RING_CFG_OWNER q.val).of w.toNat = u.rd (R.HRG_RING_CFG_OWNER q.val)) →
      u.on (R.HRG_RING_CFG_EN q.val) = true →
      ∃ t, Sys2Proof.Machine.exec (.ringEnable fn q w) s = .next t ∧
        t.rd (R.HRG_RING_CFG_EN q.val) = 1 ∧
        t.rd (R.HRG_RING_CFG_SIZE q.val) = u.rd (R.HRG_RING_CFG_SIZE q.val) ∧
        t.rd (R.HRG_RING_CFG_VEC q.val) = (R.HRG_RING_CFG_VEC q.val).of w.toNat ∧
        t.rings = u.rings ∧
        Frame [R.HRG_RING_CFG_VEC q.val, R.HRG_RING_CFG_CFG_ERR q.val] [] u t) ∧
  (∀ (s : State) (fn : Fin 2) (q : Fin 258) (w : Word),
      let u := settleEnded s
      u.reaches fn.val q.val = false →
      ∃ t, Sys2Proof.Machine.exec (.ringEnable fn q w) s = .next t ∧
        t.out.head? = some (.aer fn.val (0x8000000 + q.val * 0x1000) false) ∧
        Frame [] [] u t) ∧
  (∀ (s : State) (fn : Fin 2) (q : Fin 258) (w : Word),
      let u := settleEnded s
      fn.val = 1 →
      u.ringFn q.val = 0 →
      (R.HRG_RING_CFG_OWNER q.val).of w.toNat = u.rd (R.HRG_RING_CFG_OWNER q.val) →
      ∃ t, Sys2Proof.Machine.exec (.ringEnable fn q w) s = .next t ∧
        Frame [] [] u t) ∧
  (∀ (s : State) (fn : Fin 2) (q : Fin 258) (w : Word),
      let u := settleEnded s
      u.reaches fn.val q.val = true →
      (fn.val = 0 ∨ 256 ≤ q.val ∨ (R.HRG_RING_CFG_OWNER q.val).of w.toNat = u.rd (R.HRG_RING_CFG_OWNER q.val)) →
      u.on (R.HRG_RING_CFG_EN q.val) = true →
      ∃ t, Sys2Proof.Machine.exec (.ringDisable fn q w) s = .next t ∧
        t.rd (R.HRG_RING_CFG_EN q.val) = 0 ∧
        (t.rd (R.HRG_RING_CFG_QUIESCED q.val) = (if (u.ring q.val).out = [] then 1 else u.rd (R.HRG_RING_CFG_QUIESCED q.val))) ∧
        t.rd (R.HRG_RING_CFG_CFG_ERR q.val) = 0 ∧
        (t.ring q.val).descs = [] ∧
        (t.ring q.val).out = (u.ring q.val).out ∧
        t.rd (R.HRG_RING_HEAD_HEAD q.val) = u.rd (R.HRG_RING_HEAD_HEAD q.val) ∧
        (∀ k : Fin 258, k ≠ q → t.ring k.val = u.ring k.val) ∧
        (t.rd (R.HRG_RING_CFG_VEC q.val) = if u.ownsRing fn.val q.val = true then (R.HRG_RING_CFG_VEC q.val).of w.toNat else u.rd (R.HRG_RING_CFG_VEC q.val)) ∧
        Frame [R.HRG_RING_CFG_EN q.val, R.HRG_RING_CFG_VEC q.val, R.HRG_RING_CFG_QUIESCED q.val, R.HRG_RING_CFG_CFG_ERR q.val] [.rings] u t) ∧
  (∀ (s : State) (fn : Fin 2) (q : Fin 258) (w : Word),
      let u := settleEnded s
      u.ringFn q.val = fn.val →
      (fn.val = 0 ∨ 256 ≤ q.val ∨ (R.HRG_RING_CFG_OWNER q.val).of w.toNat = u.rd (R.HRG_RING_CFG_OWNER q.val)) →
      u.on (R.HRG_RING_CFG_EN q.val) = false →
      u.on (R.HRG_RING_CFG_QUIESCED q.val) = true →
      ∃ t, Sys2Proof.Machine.exec (.ringDisable fn q w) s = .next t ∧
        t.rd (R.HRG_RING_CFG_EN q.val) = 0 ∧
        t.rd (R.HRG_RING_CFG_SIZE q.val) = (R.HRG_RING_CFG_SIZE q.val).of w.toNat ∧
        t.rd (R.HRG_RING_CFG_VEC q.val) = (R.HRG_RING_CFG_VEC q.val).of w.toNat ∧
        t.rd (R.HRG_RING_CFG_QUIESCED q.val) = 1 ∧
        t.rings = u.rings ∧
        Frame (Reg.HRG_RING_CFG q.val).fields [] u t) ∧
  (∀ (s : State) (fn : Fin 2) (q : Fin 258) (w : Word),
      let u := settleEnded s
      u.ringFn q.val = fn.val →
      (fn.val = 0 ∨ 256 ≤ q.val ∨ (R.HRG_RING_CFG_OWNER q.val).of w.toNat = u.rd (R.HRG_RING_CFG_OWNER q.val)) →
      u.on (R.HRG_RING_CFG_EN q.val) = false →
      u.on (R.HRG_RING_CFG_QUIESCED q.val) = false →
      ∃ t, Sys2Proof.Machine.exec (.ringDisable fn q w) s = .next t ∧
        t.rd (R.HRG_RING_CFG_SIZE q.val) = u.rd (R.HRG_RING_CFG_SIZE q.val) ∧
        t.rd (R.HRG_RING_CFG_VEC q.val) = (R.HRG_RING_CFG_VEC q.val).of w.toNat ∧
        t.rings = u.rings ∧
        Frame (Reg.HRG_RING_CFG q.val).fields [] u t) ∧
  (∀ (s : State) (fn : Fin 2) (q : Fin 258) (w : Word),
      let u := settleEnded s
      u.reaches fn.val q.val = false →
      ∃ t, Sys2Proof.Machine.exec (.ringDisable fn q w) s = .next t ∧
        t.out.head? = some (.aer fn.val (0x8000000 + q.val * 0x1000) false) ∧
        Frame [] [] u t) ∧
  (∀ (s : State) (q : Fin 256) (w : Word),
      let u := settleEnded s
      u.on (R.HRG_RING_CFG_EN q.val) = false →
      (R.HRG_RING_CFG_EN q.val).of w.toNat = 0 →
      ∃ t, Sys2Proof.Machine.exec (.ringOwner q w) s = .next t ∧
        t.rd (R.HRG_RING_CFG_OWNER q.val) = (R.HRG_RING_CFG_OWNER q.val).of w.toNat ∧
        t.rd (R.HRG_RING_CFG_CFG_ERR q.val) = 0 ∧
        t.rd (R.HRG_RING_CFG_EN q.val) = 0 ∧
        t.rings = u.rings ∧
        (u.rd (R.HRG_RING_CFG_OWNER q.val) = 0 → t.rd (R.HRG_RING_CFG_SIZE q.val) = u.rd (R.HRG_RING_CFG_SIZE q.val) ∧ t.rd (R.HRG_RING_CFG_VEC q.val) = u.rd (R.HRG_RING_CFG_VEC q.val)) ∧
        Frame (Reg.HRG_RING_CFG q.val).fields [] u t) ∧
  (∀ (s : State) (q : Fin 256) (w : Word),
      let u := settleEnded s
      u.on (R.HRG_RING_CFG_EN q.val) = true →
      (R.HRG_RING_CFG_EN q.val).of w.toNat = 1 →
      (R.HRG_RING_CFG_OWNER q.val).of w.toNat ≠ u.rd (R.HRG_RING_CFG_OWNER q.val) →
      ∃ t, Sys2Proof.Machine.exec (.ringOwner q w) s = .next t ∧
        t.rd (R.HRG_RING_CFG_OWNER q.val) = u.rd (R.HRG_RING_CFG_OWNER q.val) ∧
        t.rd (R.HRG_RING_CFG_CFG_ERR q.val) = 1 ∧
        bit (t.rd (R.HRG_EVT_BITS (u.ringFn q.val))) 4 = true ∧
        t.rd (R.HRG_RING_CFG_EN q.val) = 1 ∧
        Frame [R.HRG_RING_CFG_CFG_ERR q.val, R.HRG_EVT_BITS (u.ringFn q.val)] [] u t)

/-- DOORBELL, TX_DESC_FETCH and ITR_EXPIRE.  A TAIL at or above the ring size is discarded with DB_ERR; a good TAIL of the ring's owner is
taken, and on a running data ring the new descriptors are posted.  On a command ring each posted descriptor with CMD_LEN from 16 to
4,112 enters the firmware's queue, and another is written back BAD_DESC.  The next posted transmit descriptor is taken and its frame,
padded to 60 bytes, joins the queue it names; a bad one is counted in BAD_DESC and written back.  With a write-back pending and ITR not
0, ITR_EXPIRE sends the ring's message when the ITR microseconds have passed.
Choices of the model that it rests on: log entries 26 and 68.
(Rests on 11_host_frames.md; 14_commands.md.) -/
def Obligations.RingTraffic : Prop :=
  (∀ (s : State) (fn : Fin 2) (q : Fin 258) (w : Word) (descs : List (List Byte)),
      let u := settleEnded s
      u.reaches fn.val q.val = false →
      ∃ t, Sys2Proof.Machine.exec (.doorbell fn q w descs) s = .next t ∧
        t.out.head? = some (.aer fn.val (0x800000C + q.val * 0x1000) false) ∧
        Frame [] [] u t) ∧
  (∀ (s : State) (fn : Fin 2) (q : Fin 258) (w : Word) (descs : List (List Byte)),
      let u := settleEnded s
      u.reaches fn.val q.val = true →
      u.ringFn q.val ≠ fn.val →
      ∃ t, Sys2Proof.Machine.exec (.doorbell fn q w descs) s = .next t ∧
        Frame [] [] u t) ∧
  (∀ (s : State) (fn : Fin 2) (q : Fin 258) (w : Word) (descs : List (List Byte)),
      let u := settleEnded s
      u.ringFn q.val = fn.val →
      u.ringSize q.val ≤ (R.HRG_RING_TAIL_TAIL q.val).of w.toNat →
      ∃ t, Sys2Proof.Machine.exec (.doorbell fn q w descs) s = .next t ∧
        bit (t.rd (R.HRG_RING_STAT_BITS q.val)) 4 = true ∧
        bit (t.rd (R.HRG_EVT_BITS fn.val)) 4 = true ∧
        t.rd (R.HRG_RING_TAIL_TAIL q.val) = u.rd (R.HRG_RING_TAIL_TAIL q.val) ∧
        Frame [R.HRG_RING_STAT_BITS q.val, R.HRG_EVT_BITS fn.val] [] u t) ∧
  (∀ (s : State) (fn : Fin 2) (q : Fin 258) (w : Word) (descs : List (List Byte)),
      let u := settleEnded s
      u.ringFn q.val = fn.val →
      (R.HRG_RING_TAIL_TAIL q.val).of w.toNat < u.ringSize q.val →
      u.on (R.HRG_RING_CFG_EN q.val) = false →
      ∃ t, Sys2Proof.Machine.exec (.doorbell fn q w descs) s = .next t ∧
        t.rd (R.HRG_RING_TAIL_TAIL q.val) = (R.HRG_RING_TAIL_TAIL q.val).of w.toNat ∧
        Frame [R.HRG_RING_TAIL_TAIL q.val] [] u t) ∧
  (∀ (s : State) (fn : Fin 2) (q : Fin 258) (w : Word) (descs : List (List Byte)) (k : Nat),
      let u := settleEnded s
      let n := ((R.HRG_RING_TAIL_TAIL q.val).of w.toNat + u.ringSize q.val - u.rd (R.HRG_RING_TAIL_TAIL q.val)) % u.ringSize q.val
      u.ringFn q.val = fn.val →
      q.val < 256 →
      (R.HRG_RING_TAIL_TAIL q.val).of w.toNat < u.ringSize q.val →
      u.rd (R.HRG_RING_TAIL_TAIL q.val) < u.ringSize q.val →
      u.on (R.HRG_RING_CFG_EN q.val) = true →
      k < n →
      k < descs.length →
      (descs.getD k []).length = 32 →
      ∃ t, Sys2Proof.Machine.exec (.doorbell fn q w descs) s = .next t ∧
        t.rd (R.HRG_RING_TAIL_TAIL q.val) = (R.HRG_RING_TAIL_TAIL q.val).of w.toNat ∧
        IMap.get [] (t.ring q.val).descs ((u.rd (R.HRG_RING_TAIL_TAIL q.val) + k) % u.ringSize q.val) = natBytes (descs.getD k []) ∧
        (t.ring q.val).fetch = (u.ring q.val).fetch ∧
        (t.ring q.val).out = (u.ring q.val).out ∧
        (∀ j : Fin 258, j ≠ q → t.ring j.val = u.ring j.val) ∧
        Frame [R.HRG_RING_TAIL_TAIL q.val] [.rings] u t) ∧
  (∀ (s : State) (fn : Fin 2) (q : Fin 258) (w : Word) (d : List Byte),
      let u := settleEnded s
      let len := leAt (natBytes d) 8 2
      u.ringFn q.val = fn.val →
      256 ≤ q.val →
      (R.HRG_RING_TAIL_TAIL q.val).of w.toNat = (u.rd (R.HRG_RING_TAIL_TAIL q.val) + 1) % u.ringSize q.val →
      u.rd (R.HRG_RING_TAIL_TAIL q.val) < u.ringSize q.val →
      u.on (R.HRG_RING_CFG_EN q.val) = true →
      16 ≤ len ∧ len ≤ 4112 →
      d.length = 32 + len →
      ∃ t, Sys2Proof.Machine.exec (.doorbell fn q w [d]) s = .next t ∧
        t.rd (R.HRG_RING_TAIL_TAIL q.val) = (R.HRG_RING_TAIL_TAIL q.val).of w.toNat ∧
        t.fw = { u.fw with queue := u.fw.queue ++ [{ path := .ring q.val (u.rd (R.HRG_RING_TAIL_TAIL q.val)) len (leAt (natBytes d) 16 8) (leAt (natBytes d) 24 2), sender := fn.val + 1, bytes := (natBytes d).drop 32 }] } ∧
        (t.ring q.val).out = (u.ring q.val).out ++ [{ idx := u.rd (R.HRG_RING_TAIL_TAIL q.val), tag := (natBytes d).take 26 }] ∧
        (∀ k : Fin 258, k ≠ q → t.ring k.val = u.ring k.val) ∧
        Frame [R.HRG_RING_TAIL_TAIL q.val] [.rings, .fw] u t) ∧
  (∀ (s : State) (fn : Fin 2) (q : Fin 258) (w : Word) (d : List Byte),
      let u := settleEnded s
      let len := leAt (natBytes d) 8 2
      u.ringFn q.val = fn.val →
      256 ≤ q.val →
      (R.HRG_RING_TAIL_TAIL q.val).of w.toNat = (u.rd (R.HRG_RING_TAIL_TAIL q.val) + 1) % u.ringSize q.val →
      u.rd (R.HRG_RING_TAIL_TAIL q.val) < u.ringSize q.val →
      u.on (R.HRG_RING_CFG_EN q.val) = true →
      (len < 16 ∨ 4112 < len) →
      ∃ t, Sys2Proof.Machine.exec (.doorbell fn q w [d]) s = .next t ∧
        t.fw = u.fw ∧
        t.rd (R.HRG_RING_REFUSED_BAD_DESC (q.val - 128)) = satNat 16 (u.rd (R.HRG_RING_REFUSED_BAD_DESC (q.val - 128)) + 1) ∧
        bit (t.rd (R.HRG_RING_STAT_BITS q.val)) 1 = true ∧
        bit (t.rd (R.HRG_EVT_BITS fn.val)) 1 = true ∧
        ((u.ring q.val).out = [] → t.rd (R.HRG_RING_HEAD_HEAD q.val) = ((R.HRG_RING_TAIL_TAIL q.val).of w.toNat : Nat) ∧ Output.dma (u.ringBase q.val + u.rd (R.HRG_RING_TAIL_TAIL q.val) * 32) (cmdBack ((natBytes d ++ List.replicate 32 0).take 26) 0 5) ∈ t.out) ∧
        Touches [.srv, .rings, .regs .ring] u t) ∧
  (∀ (s : State) (r : Fin 128) (data : List Byte),
      let u := settleEnded s
      u.posted (128 + r.val) = false →
      ∃ t, Sys2Proof.Machine.exec (.txDescFetch r data) s = .next t ∧
        Frame [] [] u t) ∧
  (∀ (s : State) (r : Fin 128) (data : List Byte),
      let u := settleEnded s
      let q := 128 + r.val
      u.posted q = true →
      badTxDesc (u.nextDesc q) = true →
      ∃ t, Sys2Proof.Machine.exec (.txDescFetch r data) s = .next t ∧
        t.rd (R.HRG_RING_REFUSED_BAD_DESC r.val) = satNat 16 (u.rd (R.HRG_RING_REFUSED_BAD_DESC r.val) + 1) ∧
        bit (t.rd (R.HRG_RING_STAT_BITS q)) 1 = true ∧
        bit (t.rd (R.HRG_EVT_BITS (u.ringFn q))) 1 = true ∧
        (t.ring q).fetch = ((u.ring q).fetch + 1) % u.ringSize q ∧
        ((u.ring q).out = [] → t.rd (R.HRG_RING_HEAD_HEAD q) = ((u.ring q).fetch + 1) % u.ringSize q % 2 ^ 16 ∧ Output.dma (u.ringBase q + (u.ring q).fetch * 32) (txBack none (slice (u.nextDesc q) 16 4) 65) ∈ t.out) ∧
        Touches [.srv, .rings, .regs .ring] u t) ∧
  (∀ (s : State) (r : Fin 128) (data : List Byte),
      let u := settleEnded s
      let q := 128 + r.val
      let d := u.nextDesc q
      let p := d.getD 10 0 % 32
      u.posted q = true →
      badTxDesc d = false →
      p < 32 →
      (u.port p).flight = none →
      u.pauseHeld p = false →
      u.isUp p = true →
      u.flushing p = false →
      u.txRoom p (d.getD 10 0 / 32) (max 60 (leAt d 8 2)) = true →
      data.length = leAt d 8 2 →
      d.getD 10 0 < 256 →
      ∃ t, Sys2Proof.Machine.exec (.txDescFetch r data) s = .next t ∧
        t.txq p (d.getD 10 0 / 32) = u.txq p (d.getD 10 0 / 32) ++ [{ kind := .host q (u.ring q).fetch (d.getD 11 0) (leAt d 12 2) (leAt d 14 2), bytes := pad60 (natBytes data) }] ∧
        (t.ring q).fetch = ((u.ring q).fetch + 1) % u.ringSize q ∧
        (t.ring q).out = (u.ring q).out ++ [{ idx := (u.ring q).fetch, tag := slice d 16 4 }] ∧
        (∀ k : Fin 258, k.val ≠ q → t.ring k.val = u.ring k.val) ∧
        Frame [] [.srv, .rings] u t) ∧
  (∀ (s : State) (q : Fin 258),
      let u := settleEnded s
      (u.rd (R.HRG_RING_ITR_ITR q.val) = 0 ∨ (u.ring q.val).count = 0) →
      ∃ t, Sys2Proof.Machine.exec (.itrExpire q) s = .next t ∧
        Frame [] [] u t) ∧
  (∀ (s : State) (q : Fin 258),
      let u := settleEnded s
      0 < u.rd (R.HRG_RING_ITR_ITR q.val) →
      0 < (u.ring q.val).count →
      u.rd (R.MSIX_CTRL_MASK (u.ringFn q.val * 64 + u.rd (R.HRG_RING_CFG_VEC q.val))) = 0 →
      ∃ t, Sys2Proof.Machine.exec (.itrExpire q) s = .next t ∧
        t.tick = (u.waitClk ((u.ring q.val).since + us16 (u.rd (R.HRG_RING_ITR_ITR q.val)))).tick ∧
        (t.ring q.val).count = 0 ∧
        Output.msi (u.ringFn q.val) (u.rd (R.HRG_RING_CFG_VEC q.val)) t.cycle ∈ t.out ∧
        (t.ring q.val).descs = (u.ring q.val).descs ∧
        Frame [] [.tick, .lanes, .rings] u t)

/-- MOORING_TIME_RX, TIMED_LOSS, BERT_RX, RELAY_FRAME_RX, RELAY_TIMEOUT, MOORING_FRAME_ERR, TRAINING_DONE, PORT_CAL_PASS and LINK_LOSS on a
Mooring link.  On a link where frames flow a TIME frame leaves PEER, CHAIN_HOPS and CHAIN_MASTER as it carries them, T_rx and TX kept;
one that meets R380 puts the link in TIMED, another takes it from TIMED to UP; with an echoed receive stamp O, D and X are those of the
four stamps and the MO carried, and the opposite link's MO is X less ASYM.  4 epochs missed end TIMED.  A BERT frame adds its bits and
errors.  A relayed frame at HOPS 1 is dropped with RELAY_DROP, else it leaves on the opposite link with HOPS less one.  A RELAY without
a reply ends in TIMEOUT.  A bad frame, and a TIME, BERT or RELAY frame whose LEN runs past it, is counted in FRAME_ERR and does nothing
else.
Choices of the model that it rests on: log entries 31, 63, 64, 65 and 72.
(Rests on 12_stacking.md; 14_commands.md; 16_watch_counters.md.) -/
def Obligations.MooringLinks : Prop :=
  (∀ (s : State) (l : Fin 2) (back : Nat) (f : List Byte),
      s.morState l.val < 3 →
      ∃ t, Sys2Proof.Machine.exec (.mooringTimeRx l back f) s = .next t ∧
        Frame [] [] s t) ∧
  (∀ (s : State) (l : Fin 2) (back : Nat) (f : List Byte),
      let t4 := ((s.ts0 : Int) - back - s.morRx l.val).toNat
      3 ≤ s.morState l.val →
      morShort (natBytes f) = false →
      s.goodChain l.val ((morPayload (natBytes f)).getD 44 0) ((morPayload (natBytes f)).getD 45 0) = true →
      ktOf (morPayload (natBytes f)) 12 = 0 →
      (morPayload (natBytes f)).getD 44 0 ≠ s.stackAddr →
      ∃ t, Sys2Proof.Machine.exec (.mooringTimeRx l back f) s = .next t ∧
        t.morState l.val = 4 ∧
        (t.mor l.val).miss = 0 ∧
        (t.mor l.val).x = (s.mor l.val).x ∧
        (s.morState l.val ≠ 4 → bit (t.rd R.MOR_EVT_BITS) 0 = true) ∧
        t.rd (R.MOR_LINK_STAT_PEER l.val) = morSrc (natBytes f) % 16 ∧
        t.rd (R.MOR_LINK_STAT_CHAIN_HOPS l.val) = (morPayload (natBytes f)).getD 45 0 % 16 ∧
        t.rd (R.MOR_LINK_STAT_CHAIN_MASTER l.val) = (morPayload (natBytes f)).getD 44 0 % 16 ∧
        (t.mor l.val).rxLast = t4 ∧
        (t.mor l.val).txPeer = ktOf (morPayload (natBytes f)) 0 ∧
        (t.mor l.val).gotTime = true ∧
        Touches [.ens, .log, .stack, .regs .ens, .regs .mor, .regs .wch] s t) ∧
  (∀ (s : State) (l : Fin 2) (back : Nat) (f : List Byte),
      let t4 := ((s.ts0 : Int) - back - s.morRx l.val).toNat
      s.morState l.val = 4 →
      morShort (natBytes f) = false →
      s.goodChain l.val ((morPayload (natBytes f)).getD 44 0) ((morPayload (natBytes f)).getD 45 0) = false →
      ktOf (morPayload (natBytes f)) 12 = 0 →
      (morPayload (natBytes f)).getD 44 0 ≠ s.stackAddr →
      ∃ t, Sys2Proof.Machine.exec (.mooringTimeRx l back f) s = .next t ∧
        t.morState l.val = 3 ∧
        t.src (6 + l.val) = .absent ∧
        bit (t.rd R.MOR_EVT_BITS) 0 = true ∧
        t.rd (R.MOR_LINK_STAT_PEER l.val) = morSrc (natBytes f) % 16 ∧
        t.rd (R.MOR_LINK_STAT_CHAIN_HOPS l.val) = (morPayload (natBytes f)).getD 45 0 % 16 ∧
        t.rd (R.MOR_LINK_STAT_CHAIN_MASTER l.val) = (morPayload (natBytes f)).getD 44 0 % 16 ∧
        (t.mor l.val).rxLast = t4 ∧
        (t.mor l.val).txPeer = ktOf (morPayload (natBytes f)) 0 ∧
        (t.mor l.val).gotTime = true ∧
        Touches [.ens, .log, .stack, .regs .ens, .regs .mor, .regs .wch] s t) ∧
  (∀ (s : State) (l : Fin 2) (back : Nat) (f : List Byte),
      let t4 := ((s.ts0 : Int) - back - s.morRx l.val).toNat
      let t3 := ktOf (morPayload (natBytes f)) 0
      let t2 := ktOf (morPayload (natBytes f)) 12
      let t1 := ktOf (morPayload (natBytes f)) 24
      let mo := toSigned 64 (leAt (morPayload (natBytes f)) 36 8)
      let o := linkOfs t1 t2 t3 t4
      let d := linkDly t1 t2 t3 t4
      (s.morState l.val = 3 ∨ s.morState l.val = 4) →
      morShort (natBytes f) = false →
      t2 ≠ 0 →
      ∃ t, Sys2Proof.Machine.exec (.mooringTimeRx l back f) s = .next t ∧
        t.rd (R.MOR_LINK_OFS_O l.val) = to8 o ∧
        t.rd (R.MOR_LINK_DLY_D l.val) = to8u d ∧
        t.rd (R.MOR_LINK_X_X l.val) = to8 (o + mo) ∧
        (t.mor l.val).x = some (o + mo) ∧
        (t.morState l.val = 4 → s.stackAddr ≠ 0 → t.chainOut (1 - l.val) =
          ((morPayload (natBytes f)).getD 44 0, o + mo - (s.slot (6 + l.val)).asym * 256, (morPayload (natBytes f)).getD 45 0 + 1)) ∧
        (t.morState l.val = (if s.goodChain l.val ((morPayload (natBytes f)).getD 44 0) ((morPayload (natBytes f)).getD 45 0) = true then 4 else 3)) ∧
        t.rd (R.MOR_LINK_STAT_PEER l.val) = morSrc (natBytes f) % 16 ∧
        t.rd (R.MOR_LINK_STAT_CHAIN_HOPS l.val) = (morPayload (natBytes f)).getD 45 0 % 16 ∧
        t.rd (R.MOR_LINK_STAT_CHAIN_MASTER l.val) = (morPayload (natBytes f)).getD 44 0 % 16 ∧
        (t.mor l.val).rxLast = t4 ∧
        (t.mor l.val).txPeer = ktOf (morPayload (natBytes f)) 0 ∧
        (t.mor l.val).gotTime = true ∧
        Touches [.ens, .log, .stack, .regs .ens, .regs .mor, .regs .wch] s t) ∧
  (∀ (s : State) (l : Fin 2),
      s.morState l.val = 4 →
      4 ≤ (s.mor l.val).miss →
      ∃ t, Sys2Proof.Machine.exec (.timedLoss l) s = .next t ∧
        t.morState l.val = 3 ∧
        t.src (6 + l.val) = .absent ∧
        bit (t.rd R.MOR_EVT_BITS) 0 = true ∧
        Touches [.ens, .log, .stack, .regs .ens, .regs .mor, .regs .wch] s t) ∧
  (∀ (s : State) (l : Fin 2),
      (s.morState l.val ≠ 4 ∨ (s.mor l.val).miss < 4) →
      ∃ t, Sys2Proof.Machine.exec (.timedLoss l) s = .next t ∧
        Frame [] [] s t) ∧
  (∀ (s : State) (l : Fin 2) (nbits errors : Nat) (f : List Byte),
      3 ≤ s.morState l.val →
      morShort (natBytes f) = false →
      ∃ t, Sys2Proof.Machine.exec (.bertRx l nbits errors f) s = .next t ∧
        (t.mor l.val).bertBits = (s.mor l.val).bertBits + nbits ∧
        (t.mor l.val).bertErrs = (s.mor l.val).bertErrs + errors ∧
        t.rd (R.MOR_LINK_STAT_PEER l.val) = morSrc (natBytes f) % 16 ∧
        t.mor (1 - l.val) = s.mor (1 - l.val) ∧
        Frame [R.MOR_LINK_STAT_PEER l.val] [.stack] s t) ∧
  (∀ (s : State) (l : Fin 2) (nbits errors : Nat) (f : List Byte),
      s.morState l.val < 3 →
      ∃ t, Sys2Proof.Machine.exec (.bertRx l nbits errors f) s = .next t ∧
        Frame [] [] s t) ∧
  (∀ (s : State) (l : Fin 2) (f : List Byte),
      s.morState l.val < 3 →
      ∃ t, Sys2Proof.Machine.exec (.relayFrameRx l f) s = .next t ∧
        Frame [] [] s t) ∧
  (∀ (s : State) (l : Fin 2) (f : List Byte),
      let b := natBytes f
      3 ≤ s.morState l.val →
      morShort b = false →
      (morDst b ≠ s.stackAddr ∨ s.stackAddr = 0) →
      morHops b ≤ 1 →
      ∃ t, Sys2Proof.Machine.exec (.relayFrameRx l f) s = .next t ∧
        bit (t.rd R.MOR_EVT_BITS) 9 = true ∧
        t.rd (R.MOR_LINK_STAT_PEER l.val) = morSrc b % 16 ∧
        Frame [R.MOR_EVT_BITS, R.MOR_LINK_STAT_PEER l.val] [] s t) ∧
  (∀ (s : State) (l : Fin 2) (f : List Byte),
      let b := natBytes f
      3 ≤ s.morState l.val →
      morShort b = false →
      (morDst b ≠ s.stackAddr ∨ s.stackAddr = 0) →
      1 < morHops b →
      3 ≤ s.morState (1 - l.val) →
      ∃ t, Sys2Proof.Machine.exec (.relayFrameRx l f) s = .next t ∧
        t.out.head? = some (.mooring (1 - l.val) (morFrame 2 (morSrc b) (morDst b) (morHops b - 1) (leAt b 4 2) (morPayload b))) ∧
        t.rd (R.MOR_LINK_STAT_PEER l.val) = morSrc b % 16 ∧
        Frame [R.MOR_LINK_STAT_PEER l.val] [] s t) ∧
  (∀ (s : State) (l : Fin 2) (f : List Byte),
      let b := natBytes f
      3 ≤ s.morState l.val →
      morShort b = false →
      morDst b = s.stackAddr →
      s.stackAddr ≠ 0 →
      ∃ t, Sys2Proof.Machine.exec (.relayFrameRx l f) s = .next t ∧
        (bit ((morPayload b).getD 6 0) 0 = false ∧ s.stack.relayQ = [] ∧ s.stack.order = [] → (t.fw.queue.length = s.fw.queue.length + 1 ∨ t.stack.relayQ = [(morSrc b, morPayload b)])) ∧
        Touches [.log, .stack, .mbx, .fw, .regs .mbx, .regs .mor, .regs .wch] s t) ∧
  (∀ (s : State) (id : Nat),
      s.runningAt id = none →
      ∃ t, Sys2Proof.Machine.exec (.relayTimeout id) s = .next t ∧
        Frame [] [] s t) ∧
  (∀ (s : State) (id : Nat) (r : Running),
      let u := s.waitClk (r.since + ms16 (max 1 (s.rd R.MOR_RELAY_CFG_RELAY_TO)))
      s.runningAt id = some r →
      r.id = id →
      r.cmd.op = 0x0910 →
      r.ending = none →
      ∃ t, Sys2Proof.Machine.exec (.relayTimeout id) s = .next t ∧
        t.tick = u.tick ∧
        t.runningAt id = some { r with ending := some { status := 6, time := u.ts0 } } ∧
        Frame [] [.tick, .lanes, .fw] s t) ∧
  (∀ (s : State) (l : Fin 2),
      3 ≤ s.morState l.val →
      ∃ t, Sys2Proof.Machine.exec (.mooringFrameErr l) s = .next t ∧
        t.rd (R.MOR_LINK_ERR_FRAME_ERR l.val) = satNat 16 (s.rd (R.MOR_LINK_ERR_FRAME_ERR l.val) + 1) ∧
        Frame [R.MOR_LINK_ERR_FRAME_ERR l.val] [] s t) ∧
  (∀ (s : State) (l : Fin 2),
      s.morState l.val < 3 →
      ∃ t, Sys2Proof.Machine.exec (.mooringFrameErr l) s = .next t ∧
        Frame [] [] s t) ∧
  (∀ (s : State) (l : Fin 2) (fec : Fin 4),
      s.morState l.val = 1 →
      ∃ t, Sys2Proof.Machine.exec (.trainingDone (.mooring l) fec) s = .next t ∧
        t.morState l.val = 2 ∧
        (t.mor l.val).calTries = 0 ∧
        (t.mor l.val).calAt = s.clk ∧
        t.rd (R.MOR_LINK_STAT_CAL_WEAK l.val) = 0 ∧
        bit (t.rd R.MOR_EVT_BITS) 0 = true ∧
        Frame [R.MOR_LINK_STAT_STATE l.val, R.MOR_LINK_STAT_CAL_WEAK l.val, R.MOR_EVT_BITS] [.stack] s t) ∧
  (∀ (s : State) (l : Fin 2) (rmsRx rmsTx phiRx phiTx : Nat),
      s.morState l.val = 2 →
      rmsRx ≤ 4000 →
      rmsTx ≤ 4000 →
      ∃ t, Sys2Proof.Machine.exec (.portCalPass (.mooring l) rmsRx rmsTx phiRx phiTx) s = .next t ∧
        t.morState l.val = 3 ∧
        t.rd (R.MOR_LINK_PHASE_PHI_RX l.val) = phiRx % 65536 ∧
        t.rd (R.MOR_LINK_PHASE_PHI_TX l.val) = phiTx % 65536 ∧
        t.rd (R.MOR_LINK_STAT_CAL_WEAK l.val) = 0 ∧
        t.tick = (s.waitClk ((s.mor l.val).calAt + us16 256)).tick ∧
        Frame [R.MOR_LINK_STAT_STATE l.val, R.MOR_LINK_STAT_CAL_WEAK l.val, R.MOR_LINK_PHASE_PHI_RX l.val, R.MOR_LINK_PHASE_PHI_TX l.val, R.MOR_EVT_BITS] [.tick, .lanes, .stack] s t) ∧
  (∀ (s : State) (l : Fin 2) (rmsRx rmsTx phiRx phiTx : Nat),
      s.morState l.val = 2 →
      (4000 < rmsRx ∨ 4000 < rmsTx) →
      ∃ t, Sys2Proof.Machine.exec (.portCalPass (.mooring l) rmsRx rmsTx phiRx phiTx) s = .next t ∧
        (t.morState l.val = (if (s.mor l.val).calTries = 2 then 3 else 2)) ∧
        (t.rd (R.MOR_LINK_STAT_CAL_WEAK l.val) = (if (s.mor l.val).calTries = 2 then 1 else s.rd (R.MOR_LINK_STAT_CAL_WEAK l.val))) ∧
        ((s.mor l.val).calTries ≠ 2 → (t.mor l.val).calTries = (s.mor l.val).calTries + 1) ∧
        Frame [R.MOR_LINK_STAT_STATE l.val, R.MOR_LINK_STAT_CAL_WEAK l.val, R.MOR_EVT_BITS] [.tick, .lanes, .stack] s t) ∧
  (∀ (s : State) (l : Fin 2) (cause : LossCause) (inFrame : Bool),
      2 ≤ s.morState l.val →
      ∃ t, Sys2Proof.Machine.exec (.linkLoss (.mooring l) cause inFrame) s = .next t ∧
        t.morState l.val = 1 ∧
        bit (t.rd R.MOR_EVT_BITS) 0 = true ∧
        (s.morState l.val = 4 → t.src (6 + l.val) = .absent) ∧
        Touches [.ens, .log, .stack, .regs .ens, .regs .mor, .regs .wch] s t) ∧
  (∀ (s : State) (l : Fin 2) (cause : LossCause) (inFrame : Bool),
      s.morState l.val < 2 →
      ∃ t, Sys2Proof.Machine.exec (.linkLoss (.mooring l) cause inFrame) s = .next t ∧
        Frame [] [] s t) ∧
  (∀ (s : State) (l : Fin 2) (back nbits errors : Nat) (f : List Byte),
      3 ≤ s.morState l.val →
      morShort (natBytes f) = true →
      ∃ t, Sys2Proof.Machine.exec (.mooringTimeRx l back f) s = .next t ∧
        Sys2Proof.Machine.exec (.bertRx l nbits errors f) s = .next t ∧
        Sys2Proof.Machine.exec (.relayFrameRx l f) s = .next t ∧
        Sys2Proof.Machine.exec (.mooringFrameErr l) s = .next t ∧
        t.rd (R.MOR_LINK_ERR_FRAME_ERR l.val) = satNat 16 (s.rd (R.MOR_LINK_ERR_FRAME_ERR l.val) + 1) ∧
        Frame [R.MOR_LINK_ERR_FRAME_ERR l.val] [] s t)

/-- TENDER_TX, TENDER_BACKOFF, HELLO_SEND, TENDER_CRC_ERR, PING, PONG.  The frame at the head of the queue is sent while stacking is on, no
backoff runs and the pins are not lent to the TAP, after 96 idle bit times; a collision is counted, a jam of 32 bits follows and the
backoff of r slots of 10.24 µs, the 16th in a row abandons the frame with ABORTS and its event.  A frame received has kept the bus busy.  HELLO_SEND waits out the period and the jitter drawn (free, log entry 30) and queues a HELLO.  A
frame with a bad CRC is counted while stacking is on.  A PING is answered with its first 8 bytes, a PONG equal to its PING within 2 ms
marks its node answered.
Choices of the model that it rests on: log entries 32, 63, 64, 65 and 102.
(Rests on 12_stacking.md; 16_watch_counters.md.) -/
def Obligations.TenderBus : Prop :=
  (∀ (s : State) (collision : Bool),
      (s.stack.tx = [] ∨ s.fabric = 0 ∨ s.inTest = true ∨ s.stack.backoff.isSome = true) →
      ∃ t, Sys2Proof.Machine.exec (.tenderTx collision) s = .next t ∧
        Frame [] [] s t) ∧
  (∀ (s : State) (f : List Nat) (rest : List (List Nat)),
      let u := s.waitClk (s.stack.busyTo + ns16 (96 * 80))
      s.stack.tx = f :: rest →
      s.fabric ≠ 0 →
      s.inTest = false →
      s.stack.backoff = none →
      ∃ t, Sys2Proof.Machine.exec (.tenderTx false) s = .next t ∧
        t.out = .tender f :: s.out ∧
        t.stack.tx = rest ∧
        t.stack.attempt = 0 ∧
        (t.stack.pings = (if f.getD 10 0 = 7 then IMap.put none s.stack.pings (f.getD 8 0) (some (u.clk, leAt f 12 8)) else s.stack.pings)) ∧
        t.tick = u.tick ∧
        t.stack.busyTo = max s.stack.busyTo (u.clk + ns16 (8 * f.length * 80)) ∧
        Frame [] [.tick, .lanes, .stack] s t) ∧
  (∀ (s : State) (f : List Nat) (rest : List (List Nat)),
      let u := s.waitClk (s.stack.busyTo + ns16 (96 * 80))
      let busy := max s.stack.busyTo (u.clk + ns16 (32 * 80))
      s.stack.tx = f :: rest →
      s.fabric ≠ 0 →
      s.inTest = false →
      s.stack.backoff = none →
      ∃ t, Sys2Proof.Machine.exec (.tenderTx true) s = .next t ∧
        (t.stack.attempt = (if s.stack.attempt + 1 = 16 then 0 else s.stack.attempt + 1)) ∧
        (t.stack.tx = (if s.stack.attempt + 1 = 16 then rest else s.stack.tx)) ∧
        (t.stack.backoff = (if s.stack.attempt + 1 = 16 then none else some (busy + Config.backoff s.stack.backoffDraw % 2 ^ (min (s.stack.attempt + 1) 8) * ns16 10240))) ∧
        t.rd R.TND_CNT_COLLISIONS = satNat 16 (s.rd R.TND_CNT_COLLISIONS + 1) ∧
        (t.rd R.TND_CNT_ABORTS = (if s.stack.attempt + 1 = 16 then satNat 16 (s.rd R.TND_CNT_ABORTS + 1) else s.rd R.TND_CNT_ABORTS)) ∧
        (s.stack.attempt + 1 = 16 → bit (t.rd R.MOR_EVT_BITS) 10 = true) ∧
        t.tick = u.tick ∧
        t.stack.busyTo = busy ∧
        Frame [R.TND_CNT_COLLISIONS, R.TND_CNT_ABORTS, R.MOR_EVT_BITS] [.tick, .lanes, .stack] s t) ∧
  (∀ (s : State),
      s.stack.backoff = none →
      ∃ t, Sys2Proof.Machine.exec (.tenderBackoff) s = .next t ∧
        Frame [] [] s t) ∧
  (∀ (s : State) (at_ : Nat),
      s.stack.backoff = some at_ →
      ∃ t, Sys2Proof.Machine.exec (.tenderBackoff) s = .next t ∧
        t.stack = { s.stack with backoff := none } ∧
        t.tick = (s.waitClk at_).tick ∧
        Frame [] [.tick, .lanes, .stack] s t) ∧
  (∀ (s : State),
      s.fabric = 0 →
      ∃ t, Sys2Proof.Machine.exec (.helloSend) s = .next t ∧
        Frame [] [] s t) ∧
  (∀ (s : State),
      s.fabric ≠ 0 →
      ∃ t, Sys2Proof.Machine.exec (.helloSend) s = .next t ∧
        t.tick = (s.waitClk (s.stack.helloAt + Config.helloJitter s.stack.helloDraw % (ms16 25 + 1))).tick ∧
        (t.stack = { s.stack with tx := s.stack.tx ++ [tndFrame 0xFF s.stackAddr 1 s.helloPayload], helloAt := s.stack.helloAt + s.helloSpan, helloDraw := s.stack.helloDraw + 1, heir := (if s.stack.heir = 1 then 2 else s.stack.heir) }) ∧
        Frame [] [.tick, .lanes, .stack] s t) ∧
  (∀ (s : State),
      s.fabric = 0 →
      ∃ t, Sys2Proof.Machine.exec (.tenderCrcErr) s = .next t ∧
        Frame [] [] s t) ∧
  (∀ (s : State),
      s.fabric ≠ 0 →
      ∃ t, Sys2Proof.Machine.exec (.tenderCrcErr) s = .next t ∧
        t.rd R.TND_ERR_CRC_ERR = satNat 16 (s.rd R.TND_ERR_CRC_ERR + 1) ∧
        t.stack = { s.stack with busyTo := max s.stack.busyTo s.clk } ∧
        Frame [R.TND_ERR_CRC_ERR] [.stack] s t) ∧
  (∀ (s : State) (f : TndFrame),
      s.tndTakes f.dst.toNat = true →
      ∃ t, Sys2Proof.Machine.exec (.ping f) s = .next t ∧
        t.stack = { s.stack with busyTo := max s.stack.busyTo s.clk, tx := s.stack.tx ++ [tndFrame f.src.toNat s.stackAddr 8 ((natBytes f.payload).take 8)] } ∧
        t.rd R.TND_ERR_RX_OK = satNat 16 (s.rd R.TND_ERR_RX_OK + 1) ∧
        Frame [R.TND_ERR_RX_OK] [.stack] s t) ∧
  (∀ (s : State) (f : TndFrame) (at_ v : Nat),
      s.tndTakes f.dst.toNat = true →
      IMap.get none s.stack.pings f.src.toNat = some (at_, v) →
      s.clk ≤ at_ + ms16 2 →
      leAt (natBytes f.payload) 0 8 = v →
      ∃ t, Sys2Proof.Machine.exec (.pong f) s = .next t ∧
        t.stack.busyTo = max s.stack.busyTo s.clk ∧
        t.stack.answered = f.src.toNat :: s.stack.answered ∧
        IMap.get none t.stack.pings f.src.toNat = none ∧
        t.rd R.TND_ERR_RX_OK = satNat 16 (s.rd R.TND_ERR_RX_OK + 1) ∧
        Frame [R.TND_ERR_RX_OK] [.stack] s t) ∧
  (∀ (s : State) (f : TndFrame),
      s.tndTakes f.dst.toNat = true →
      IMap.get none s.stack.pings f.src.toNat = none →
      ∃ t, Sys2Proof.Machine.exec (.pong f) s = .next t ∧
        t.rd R.TND_ERR_RX_OK = satNat 16 (s.rd R.TND_ERR_RX_OK + 1) ∧
        t.stack = { s.stack with busyTo := max s.stack.busyTo s.clk } ∧
        Frame [R.TND_ERR_RX_OK] [.stack] s t) ∧
  (∀ (s : State) (f : TndFrame) (at_ v : Nat),
      s.tndTakes f.dst.toNat = true →
      IMap.get none s.stack.pings f.src.toNat = some (at_, v) →
      (at_ + ms16 2 < s.clk ∨ leAt (natBytes f.payload) 0 8 ≠ v) →
      ∃ t, Sys2Proof.Machine.exec (.pong f) s = .next t ∧
        t.rd R.TND_ERR_RX_OK = satNat 16 (s.rd R.TND_ERR_RX_OK + 1) ∧
        t.stack = { s.stack with busyTo := max s.stack.busyTo s.clk } ∧
        Frame [R.TND_ERR_RX_OK] [.stack] s t) ∧
  (∀ (s : State) (f : TndFrame),
      s.tndTakes f.dst.toNat = false →
      ∃ t, Sys2Proof.Machine.exec (.hello f) s = .next t ∧
        t.stack = { s.stack with busyTo := max s.stack.busyTo s.clk } ∧
        Frame [] [.stack] s t) ∧
  (∀ (s : State) (f : TndFrame),
      s.tndTakes f.dst.toNat = false →
      ∃ t, Sys2Proof.Machine.exec (.assign f) s = .next t ∧
        t.stack = { s.stack with busyTo := max s.stack.busyTo s.clk } ∧
        Frame [] [.stack] s t) ∧
  (∀ (s : State) (f : TndFrame),
      s.tndTakes f.dst.toNat = false →
      ∃ t, Sys2Proof.Machine.exec (.rcheck f) s = .next t ∧
        t.stack = { s.stack with busyTo := max s.stack.busyTo s.clk } ∧
        Frame [] [.stack] s t) ∧
  (∀ (s : State) (f : TndFrame),
      s.tndTakes f.dst.toNat = false →
      ∃ t, Sys2Proof.Machine.exec (.rreport f) s = .next t ∧
        t.stack = { s.stack with busyTo := max s.stack.busyTo s.clk } ∧
        Frame [] [.stack] s t) ∧
  (∀ (s : State) (f : TndFrame),
      s.tndTakes f.dst.toNat = false →
      ∃ t, Sys2Proof.Machine.exec (.asym f) s = .next t ∧
        t.stack = { s.stack with busyTo := max s.stack.busyTo s.clk } ∧
        Frame [] [.stack] s t) ∧
  (∀ (s : State) (f : TndFrame),
      s.tndTakes f.dst.toNat = false →
      ∃ t, Sys2Proof.Machine.exec (.handoverRx f) s = .next t ∧
        t.stack = { s.stack with busyTo := max s.stack.busyTo s.clk } ∧
        Frame [] [.stack] s t) ∧
  (∀ (s : State) (f : TndFrame),
      s.tndTakes f.dst.toNat = false →
      ∃ t, Sys2Proof.Machine.exec (.ping f) s = .next t ∧
        t.stack = { s.stack with busyTo := max s.stack.busyTo s.clk } ∧
        Frame [] [.stack] s t) ∧
  (∀ (s : State) (f : TndFrame),
      s.tndTakes f.dst.toNat = false →
      ∃ t, Sys2Proof.Machine.exec (.pong f) s = .next t ∧
        t.stack = { s.stack with busyTo := max s.stack.busyTo s.clk } ∧
        Frame [] [.stack] s t)

/-- STACK_ENABLE, HELLO, ASSIGN, RCHECK, RREPORT, RCHECK_SEND, ASYM, CLOSURE_WINDOW, HANDOVER_RX, HANDOVER_LAPSE, MASTER_LOST,
DISCOVER_TIMEOUT, NODE_TIMEOUT.  EN 1 takes OFF to LISTEN; EN 0 clears the address, master and links.  A HELLO without MASTER notes its
node; an ASSIGN of this node's UID in LISTEN gives the address and MEMBER.  A member keeps RSEQ, N and a closed ring's ORDER, and
answers with a report; a master notes reports and sends the next check.  A good closure window publishes C_W and C_E.  A silent master
is lost unless a link is TIMED (TND_SILENT); 8 periods in DISCOVER make a MASTER with address 1 at least.  A node unheard is freed; a
lapsed handover is over.
Choices of the model that it rests on: log entries 30, 63, 64, 65 and 97.
(Rests on 12_stacking.md.) -/
def Obligations.StackFormation : Prop :=
  (∀ (s : State) (w : Word),
      s.fabric = 0 →
      w.toNat % 2 = 1 →
      ∃ t, Sys2Proof.Machine.exec (.stackEnable w) s = .next t ∧
        t.fabric = 1 ∧
        t.stack.masterAt = s.clk ∧
        t.stack.helloAt = s.clk + s.helloSpan ∧
        t.rd R.MOR_CTL_PRIO = w.toNat / 2 ^ 8 % 2 ^ 8 ∧
        t.rd R.MOR_CTL_CLOSE_THR = w.toNat / 2 ^ 16 % 2 ^ 16 ∧
        Frame (R.MOR_STAT_FABRIC :: Reg.MOR_CTL.fields) [.stack] s t) ∧
  (∀ (s : State) (w : Word),
      s.fabric ≠ 0 →
      w.toNat % 2 = 1 →
      ∃ t, Sys2Proof.Machine.exec (.stackEnable w) s = .next t ∧
        t.rd R.MOR_CTL_PRIO = w.toNat / 2 ^ 8 % 2 ^ 8 ∧
        t.rd R.MOR_CTL_CLOSE_AUTO = w.toNat / 2 % 2 ∧
        Frame Reg.MOR_CTL.fields [] s t) ∧
  (∀ (s : State) (w : Word),
      s.fabric ≠ 0 →
      w.toNat % 2 = 0 →
      ∃ t, Sys2Proof.Machine.exec (.stackEnable w) s = .next t ∧
        t.fabric = 0 ∧
        t.stackAddr = 0 ∧
        t.masterAddr = 0 ∧
        t.morState 0 = 0 ∧
        t.morState 1 = 0 ∧
        t.stack.tx = [] ∧
        t.rd R.MOR_STAT_N = 0 ∧
        t.rd R.MOR_STAT_RING_OK = 0 ∧
        t.rd R.MOR_CTL_EN = 0 ∧
        Touches [.ens, .log, .stack, .regs .ens, .regs .mor, .regs .wch] s t) ∧
  (∀ (s : State) (w : Word),
      s.fabric = 0 →
      w.toNat % 2 = 0 →
      ∃ t, Sys2Proof.Machine.exec (.stackEnable w) s = .next t ∧
        t.rd R.MOR_CTL_EN = 0 ∧
        t.rd R.MOR_CTL_PRIO = w.toNat / 2 ^ 8 % 2 ^ 8 ∧
        Frame Reg.MOR_CTL.fields [] s t) ∧
  (∀ (s : State) (f : TndFrame),
      s.tndTakes f.dst.toNat = true →
      1 ≤ f.src.toNat ∧ f.src.toNat ≤ 8 →
      bit ((natBytes f.payload).getD 9 0) 1 = false →
      (natBytes f.payload).getD 9 0 % 2 = 0 →
      s.fabric = 3 →
      ∃ t, Sys2Proof.Machine.exec (.hello f) s = .next t ∧
        t.rd R.TND_ERR_RX_OK = satNat 16 (s.rd R.TND_ERR_RX_OK + 1) ∧
        t.nodeUid f.src.toNat = leAt (natBytes f.payload) 0 8 ∧
        t.rd (R.TND_NODE_INFO_PRIO (f.src.toNat - 1)) = (natBytes f.payload).getD 8 0 ∧
        t.rd (R.TND_NODE_INFO_PRESENT (f.src.toNat - 1)) = 1 ∧
        IMap.get none t.stack.heard f.src.toNat = some s.clk ∧
        bit (t.rd R.TND_STAT_HEARD) (f.src.toNat - 1) = true ∧
        t.fabric = 3 ∧
        t.masterAddr = s.masterAddr ∧
        Frame ([R.TND_ERR_RX_OK, R.TND_STAT_HEARD, R.TND_NODE_UID_LO_UID (f.src.toNat - 1), R.TND_NODE_UID_HI_UID (f.src.toNat - 1)] ++ (Reg.TND_NODE_INFO (f.src.toNat - 1)).fields) [.stack] s t) ∧
  (∀ (s : State) (f : TndFrame),
      s.tndTakes f.dst.toNat = true →
      f.src.toNat = 0 →
      bit ((natBytes f.payload).getD 9 0) 1 = false →
      (natBytes f.payload).getD 9 0 % 2 = 0 →
      s.fabric = 3 →
      ∃ t, Sys2Proof.Machine.exec (.hello f) s = .next t ∧
        t.rd R.TND_ERR_RX_OK = satNat 16 (s.rd R.TND_ERR_RX_OK + 1) ∧
        (∃ n ∈ t.stack.newcomers, n.uid = leAt (natBytes f.payload) 0 8 ∧ n.heard = s.clk) ∧
        Frame [R.TND_ERR_RX_OK] [.stack] s t) ∧
  (∀ (s : State) (f : TndFrame),
      s.tndTakes f.dst.toNat = true →
      f.src.toNat = s.masterAddr →
      1 ≤ f.src.toNat ∧ f.src.toNat ≤ 8 →
      bit ((natBytes f.payload).getD 9 0) 1 = true →
      (natBytes f.payload).getD 9 0 % 2 = 0 →
      s.fabric = 3 →
      ∃ t, Sys2Proof.Machine.exec (.hello f) s = .next t ∧
        t.rd R.TND_ERR_RX_OK = satNat 16 (s.rd R.TND_ERR_RX_OK + 1) ∧
        t.stack.masterAt = s.clk ∧
        t.fabric = 3 ∧
        t.masterAddr = s.masterAddr ∧
        t.rd (R.TND_NODE_INFO_MASTER (f.src.toNat - 1)) = 1 ∧
        Touches [.ens, .log, .stack, .regs .ens, .regs .mor, .regs .wch] s t) ∧
  (∀ (s : State) (f : TndFrame),
      s.tndTakes f.dst.toNat = true →
      1 ≤ f.src.toNat ∧ f.src.toNat ≤ 8 →
      bit ((natBytes f.payload).getD 9 0) 1 = true →
      (natBytes f.payload).getD 9 0 % 2 = 0 →
      s.fabric = 3 →
      s.stack.heirOf = some f.src.toNat →
      f.src.toNat ≠ s.masterAddr →
      ∃ t, Sys2Proof.Machine.exec (.hello f) s = .next t ∧
        t.rd R.TND_ERR_RX_OK = satNat 16 (s.rd R.TND_ERR_RX_OK + 1) ∧
        t.masterAddr = f.src.toNat ∧
        t.stack.heirOf = none ∧
        bit (t.rd R.MOR_EVT_BITS) 1 = true ∧
        t.fabric = 3 ∧
        (t.morState 0 ≠ 4 ∨ s.rd (R.MOR_LINK_STAT_CHAIN_MASTER 0) = f.src.toNat) ∧
        (t.morState 1 ≠ 4 ∨ s.rd (R.MOR_LINK_STAT_CHAIN_MASTER 1) = f.src.toNat) ∧
        Touches [.ens, .log, .stack, .regs .ens, .regs .mor, .regs .wch] s t) ∧
  (∀ (s : State) (f : TndFrame),
      s.tndTakes f.dst.toNat = true →
      bit ((natBytes f.payload).getD 9 0) 1 = true →
      (natBytes f.payload).getD 9 0 % 2 = 0 →
      s.fabric = 2 →
      s.masterAddr = 0 →
      s.stack.heirOf = none →
      f.src.toNat ≠ 0 ∧ f.src.toNat ≤ 8 →
      ∃ t, Sys2Proof.Machine.exec (.hello f) s = .next t ∧
        t.rd R.TND_ERR_RX_OK = satNat 16 (s.rd R.TND_ERR_RX_OK + 1) ∧
        t.fabric = 1 ∧
        t.masterAddr = f.src.toNat ∧
        t.stack.masterAt = s.clk ∧
        Touches [.ens, .log, .stack, .regs .ens, .regs .mor, .regs .wch] s t) ∧
  (∀ (s : State) (f : TndFrame),
      s.tndTakes f.dst.toNat = true →
      s.fabric = 1 →
      leAt (natBytes f.payload) 0 8 = ownUid →
      1 ≤ (natBytes f.payload).getD 8 0 →
      (natBytes f.payload).getD 8 0 ≤ 8 →
      ∃ t, Sys2Proof.Machine.exec (.assign f) s = .next t ∧
        t.rd R.TND_ERR_RX_OK = satNat 16 (s.rd R.TND_ERR_RX_OK + 1) ∧
        t.stackAddr = (natBytes f.payload).getD 8 0 ∧
        t.fabric = 3 ∧
        t.stack = { s.stack with busyTo := max s.stack.busyTo s.clk, masterAt := s.clk } ∧
        Frame [R.TND_ERR_RX_OK, R.MOR_STAT_ADDR, R.MOR_STAT_FABRIC] [.stack] s t) ∧
  (∀ (s : State) (f : TndFrame),
      s.tndTakes f.dst.toNat = true →
      (s.fabric ≠ 1 ∨ leAt (natBytes f.payload) 0 8 ≠ ownUid ∨ (natBytes f.payload).getD 8 0 = 0 ∨ 8 < (natBytes f.payload).getD 8 0) →
      ∃ t, Sys2Proof.Machine.exec (.assign f) s = .next t ∧
        t.rd R.TND_ERR_RX_OK = satNat 16 (s.rd R.TND_ERR_RX_OK + 1) ∧
        t.stack = { s.stack with busyTo := max s.stack.busyTo s.clk } ∧
        Frame [R.TND_ERR_RX_OK] [.stack] s t) ∧
  (∀ (s : State) (f : TndFrame),
      s.tndTakes f.dst.toNat = true →
      s.fabric = 3 →
      ∃ t, Sys2Proof.Machine.exec (.rcheck f) s = .next t ∧
        t.rd R.TND_ERR_RX_OK = satNat 16 (s.rd R.TND_ERR_RX_OK + 1) ∧
        t.rd R.MOR_STAT_N = (natBytes f.payload).getD 3 0 % 16 ∧
        (t.stack = { s.stack with busyTo := max s.stack.busyTo s.clk, rseq := leAt (natBytes f.payload) 0 2, order := (if (natBytes f.payload).getD 2 0 % 2 = 1 then (((natBytes f.payload).drop 4).take 8).take ((natBytes f.payload).getD 3 0) else s.stack.order), tx := s.stack.tx ++ [tndFrame s.masterAddr s.stackAddr 4 (le 2 (leAt (natBytes f.payload) 0 2) ++ [s.rd (R.MOR_LINK_STAT_PEER 0), s.morState 0, s.rd (R.MOR_LINK_STAT_PEER 1), s.morState 1])] }) ∧
        Frame [R.TND_ERR_RX_OK, R.MOR_STAT_N] [.stack] s t) ∧
  (∀ (s : State) (f : TndFrame),
      s.tndTakes f.dst.toNat = true →
      s.fabric ≠ 3 →
      ∃ t, Sys2Proof.Machine.exec (.rcheck f) s = .next t ∧
        t.rd R.TND_ERR_RX_OK = satNat 16 (s.rd R.TND_ERR_RX_OK + 1) ∧
        t.stack = { s.stack with busyTo := max s.stack.busyTo s.clk } ∧
        Frame [R.TND_ERR_RX_OK] [.stack] s t) ∧
  (∀ (s : State) (f : TndFrame),
      s.tndTakes f.dst.toNat = true →
      s.fabric = 4 →
      f.src.toNat ≠ s.stackAddr →
      ∃ t, Sys2Proof.Machine.exec (.rreport f) s = .next t ∧
        t.rd R.TND_ERR_RX_OK = satNat 16 (s.rd R.TND_ERR_RX_OK + 1) ∧
        t.ringReport f.src.toNat = some { rseq := leAt (natBytes f.payload) 0 2, peer0 := (natBytes f.payload).getD 2 0, state0 := (natBytes f.payload).getD 3 0, peer1 := (natBytes f.payload).getD 4 0, state1 := (natBytes f.payload).getD 5 0 } ∧
        t.rd R.MOR_STAT_N = s.held.length % 16 ∧
        t.rd R.MOR_STAT_RING_OK = b01 t.ringOrder.isSome ∧
        (bit (t.rd R.MOR_EVT_BITS) (if t.ringOrder.isSome then 4 else 3) = true) ∧
        Frame [R.TND_ERR_RX_OK, R.MOR_STAT_N, R.MOR_STAT_RING_OK, R.MOR_EVT_BITS] [.stack] s t) ∧
  (∀ (s : State) (f : TndFrame),
      s.tndTakes f.dst.toNat = true →
      s.fabric ≠ 4 →
      ∃ t, Sys2Proof.Machine.exec (.rreport f) s = .next t ∧
        t.rd R.TND_ERR_RX_OK = satNat 16 (s.rd R.TND_ERR_RX_OK + 1) ∧
        t.stack = { s.stack with busyTo := max s.stack.busyTo s.clk } ∧
        Frame [R.TND_ERR_RX_OK] [.stack] s t) ∧
  (∀ (s : State),
      s.fabric ≠ 4 →
      ∃ t, Sys2Proof.Machine.exec (.rcheckSend) s = .next t ∧
        Frame [] [] s t) ∧
  (∀ (s : State),
      s.fabric = 4 →
      ∃ t, Sys2Proof.Machine.exec (.rcheckSend) s = .next t ∧
        t.tick = (s.waitClk s.stack.rcheckAt).tick ∧
        t.stack.rseq = (s.stack.rseq + 1) % 65536 ∧
        t.stack.rcheckAt = s.stack.rcheckAt + s.rchkSpan ∧
        t.rd R.MOR_STAT_RING_OK = b01 t.ringOrder.isSome ∧
        t.rd R.MOR_STAT_N = s.held.length % 16 ∧
        (t.stack.tx = s.stack.tx ++ [tndFrame 0xFF s.stackAddr 3 (le 2 ((s.stack.rseq + 1) % 65536) ++ [t.rd R.MOR_STAT_RING_OK, t.rd R.MOR_STAT_N] ++ ((if t.ringOrder.isSome then t.stack.order else []) ++ List.replicate 8 0).take 8)]) ∧
        Frame [R.MOR_STAT_N, R.MOR_STAT_RING_OK, R.MOR_EVT_BITS] [.tick, .lanes, .stack] s t) ∧
  (∀ (s : State) (f : TndFrame),
      s.tndTakes f.dst.toNat = true →
      s.fabric = 3 →
      (natBytes f.payload).getD 0 0 ≠ 0 →
      ∃ t, Sys2Proof.Machine.exec (.asym f) s = .next t ∧
        t.rd R.TND_ERR_RX_OK = satNat 16 (s.rd R.TND_ERR_RX_OK + 1) ∧
        t.stack = { s.stack with busyTo := max s.stack.busyTo s.clk, shares := (s.stack.shares.1 + rndNearest (mkRat (toSigned 32 (leAt (natBytes f.payload) 4 4) * 256) (1000 * (natBytes f.payload).getD 0 0)), s.stack.shares.2 + rndNearest (mkRat (toSigned 32 (leAt (natBytes f.payload) 8 4) * 256) (1000 * (natBytes f.payload).getD 0 0))) } ∧
        Frame [R.TND_ERR_RX_OK] [.stack] s t) ∧
  (∀ (s : State) (f : TndFrame),
      s.tndTakes f.dst.toNat = true →
      (s.fabric ≠ 3 ∨ (natBytes f.payload).getD 0 0 = 0) →
      ∃ t, Sys2Proof.Machine.exec (.asym f) s = .next t ∧
        t.rd R.TND_ERR_RX_OK = satNat 16 (s.rd R.TND_ERR_RX_OK + 1) ∧
        t.stack = { s.stack with busyTo := max s.stack.busyTo s.clk } ∧
        Frame [R.TND_ERR_RX_OK] [.stack] s t) ∧
  (∀ (s : State),
      (s.fabric ≠ 4 ∨ s.on R.MOR_STAT_RING_OK = false ∨ s.stack.win ≠ s.closeWin ∨ s.stack.spoilt = some s.closeWin ∨ s.stack.numW = 0 ∨ s.stack.numE = 0) →
      ∃ t, Sys2Proof.Machine.exec (.closureWindow) s = .next t ∧
        t.tick = (s.waitTs0 ((s.closeWin + 1) * sec16 64)).tick ∧
        Frame [] [.tick, .lanes] s t) ∧
  (∀ (s : State),
      let cw := closurePs s.stack.sumW s.stack.numW
      let ce := closurePs s.stack.sumE s.stack.numE
      s.fabric = 4 →
      s.on R.MOR_STAT_RING_OK = true →
      s.stack.win = s.closeWin →
      s.stack.spoilt ≠ some s.closeWin →
      s.stack.numW ≠ 0 →
      s.stack.numE ≠ 0 →
      ∃ t, Sys2Proof.Machine.exec (.closureWindow) s = .next t ∧
        t.tick = (s.waitTs0 ((s.closeWin + 1) * sec16 64)).tick ∧
        t.rd (R.MOR_CLOSE_C 0) = ofSigned 32 cw ∧
        t.rd (R.MOR_CLOSE_C 1) = ofSigned 32 ce ∧
        (s.rd R.MOR_CTL_CLOSE_THR < cw.natAbs ∨ s.rd R.MOR_CTL_CLOSE_THR < ce.natAbs → bit (t.rd R.MOR_EVT_BITS) 5 = true) ∧
        (t.stack.tx = (if s.on R.MOR_CTL_CLOSE_AUTO then s.stack.tx ++ [tndFrame 0xFF s.stackAddr 5 ([s.rd R.MOR_STAT_N, 0, 0, 0] ++ le 4 (ofSigned 32 cw) ++ le 4 (ofSigned 32 ce))] else s.stack.tx)) ∧
        Frame [R.MOR_CLOSE_C 0, R.MOR_CLOSE_C 1, R.MOR_EVT_BITS] [.tick, .lanes, .stack] s t) ∧
  (∀ (s : State) (f : TndFrame),
      s.tndTakes f.dst.toNat = true →
      s.fabric = 3 →
      f.src.toNat = s.masterAddr →
      ∃ t, Sys2Proof.Machine.exec (.handoverRx f) s = .next t ∧
        t.rd R.TND_ERR_RX_OK = satNat 16 (s.rd R.TND_ERR_RX_OK + 1) ∧
        (t.stack = { s.stack with busyTo := max s.stack.busyTo s.clk, heirOf := some ((natBytes f.payload).getD 0 0), heir := (if (natBytes f.payload).getD 0 0 = s.stackAddr then 1 else s.stack.heir) }) ∧
        Frame [R.TND_ERR_RX_OK] [.stack] s t) ∧
  (∀ (s : State) (f : TndFrame),
      s.tndTakes f.dst.toNat = true →
      (s.fabric ≠ 3 ∨ f.src.toNat ≠ s.masterAddr) →
      ∃ t, Sys2Proof.Machine.exec (.handoverRx f) s = .next t ∧
        t.rd R.TND_ERR_RX_OK = satNat 16 (s.rd R.TND_ERR_RX_OK + 1) ∧
        t.stack = { s.stack with busyTo := max s.stack.busyTo s.clk } ∧
        Frame [R.TND_ERR_RX_OK] [.stack] s t) ∧
  (∀ (s : State),
      (s.stack.handover = none ∨ s.fabric ≠ 4) →
      ∃ t, Sys2Proof.Machine.exec (.handoverLapse) s = .next t ∧
        Frame [] [] s t) ∧
  (∀ (s : State) (a at_ : Nat),
      s.stack.handover = some (a, at_) →
      s.fabric = 4 →
      ∃ t, Sys2Proof.Machine.exec (.handoverLapse) s = .next t ∧
        t.stack = { s.stack with handover := none } ∧
        t.rd R.LOG_NEXT_SEQ = (s.rd R.LOG_NEXT_SEQ + 1) % 2 ^ 32 ∧
        t.tick = (s.waitClk (at_ + s.timeoutSpan)).tick ∧
        Frame logFields [.tick, .lanes, .log, .stack] s t) ∧
  (∀ (s : State),
      (s.fabric = 0 ∨ s.fabric = 2 ∨ s.fabric = 4) →
      ∃ t, Sys2Proof.Machine.exec (.masterLost) s = .next t ∧
        Frame [] [] s t) ∧
  (∀ (s : State),
      s.fabric = 3 →
      (s.morTimed 0 = true ∨ s.morTimed 1 = true) →
      ∃ t, Sys2Proof.Machine.exec (.masterLost) s = .next t ∧
        bit (t.rd R.MOR_EVT_BITS) 8 = true ∧
        t.fabric = 3 ∧
        t.tick = (s.waitClk (s.stack.masterAt + s.timeoutSpan)).tick ∧
        Frame [R.MOR_EVT_BITS] [.tick, .lanes] s t) ∧
  (∀ (s : State),
      s.fabric = 3 →
      s.morTimed 0 = false →
      s.morTimed 1 = false →
      ∃ t, Sys2Proof.Machine.exec (.masterLost) s = .next t ∧
        bit (t.rd R.MOR_EVT_BITS) 2 = true ∧
        t.fabric = 2 ∧
        t.masterAddr = 0 ∧
        t.stackAddr = s.stackAddr ∧
        t.tick = (s.waitClk (s.stack.masterAt + s.timeoutSpan)).tick ∧
        Touches [.tick, .lanes, .ens, .log, .stack, .regs .ens, .regs .mor, .regs .wch] s t) ∧
  (∀ (s : State),
      s.fabric = 1 →
      ∃ t, Sys2Proof.Machine.exec (.masterLost) s = .next t ∧
        t.fabric = 2 ∧
        t.masterAddr = 0 ∧
        t.tick = (s.waitClk (s.stack.masterAt + s.timeoutSpan)).tick ∧
        Touches [.tick, .lanes, .ens, .log, .stack, .regs .ens, .regs .mor, .regs .wch] s t) ∧
  (∀ (s : State),
      s.fabric ≠ 2 →
      ∃ t, Sys2Proof.Machine.exec (.discoverTimeout) s = .next t ∧
        Frame [] [] s t) ∧
  (∀ (s : State),
      s.fabric = 2 →
      ∃ t, Sys2Proof.Machine.exec (.discoverTimeout) s = .next t ∧
        t.fabric = 4 ∧
        (t.stackAddr = (if s.stackAddr = 0 then 1 else s.stackAddr)) ∧
        t.masterAddr = t.stackAddr ∧
        t.morState 0 ≠ 4 ∧
        t.morState 1 ≠ 4 ∧
        t.stack.heir = 0 ∧
        t.tick = (s.waitClk (s.stack.betterAt + 8 * s.helloSpan)).tick ∧
        Touches [.tick, .lanes, .ens, .log, .stack, .regs .ens, .regs .mor, .regs .wch] s t) ∧
  (∀ (s : State) (a : Fin 8),
      (IMap.get none s.stack.heard (a.val + 1) = none ∨ s.fabric = 0 ∨ s.nodeUid (a.val + 1) = 0) →
      ∃ t, Sys2Proof.Machine.exec (.nodeTimeout a) s = .next t ∧
        Frame [] [] s t) ∧
  (∀ (s : State) (a : Fin 8) (at_ : Nat),
      IMap.get none s.stack.heard (a.val + 1) = some at_ →
      s.fabric = 3 →
      s.nodeUid (a.val + 1) ≠ 0 →
      ∃ t, Sys2Proof.Machine.exec (.nodeTimeout a) s = .next t ∧
        t.nodeUid (a.val + 1) = 0 ∧
        t.rd (R.TND_NODE_INFO_PRESENT a.val) = 0 ∧
        bit (t.rd R.TND_STAT_HEARD) a.val = false ∧
        t.tick = (s.waitClk (at_ + s.timeoutSpan)).tick ∧
        Frame [R.TND_NODE_UID_LO_UID a.val, R.TND_NODE_UID_HI_UID a.val, R.TND_NODE_INFO_PRESENT a.val, R.TND_STAT_HEARD] [.tick, .lanes] s t)

/-- MBX_LOCK_READ.  On an EMPTY channel with its receiver up the accepted reader with the lowest sender ID wins: it reads 0, becomes OWNER,
the channel is LOCKED and its hold begins; another accepted reader of that cycle reads the winner's ID.  Otherwise an accepted reader
reads OWNER and one that is not accepted reads 0xFF, with nothing changed.  A sender's read while the receiver is down, or over a path
that does not reach a secure channel, is rejected: REJECT with its event, 0xFFFF_FFFF, and for the path a log record.  PF0's read of a
secure channel completes with Unsupported Request.
Choices of the model that it rests on: log entry 66.
(Rests on 13_mailboxes.md.) -/
def Obligations.MailboxLocks : Prop :=
  (∀ (s : State) (c : Fin 16) (p : MbxPath),
      s.mbxOpen c.val (pathId p) = true →
      (c.val < 8 ∨ reachesSecure p = true) →
      s.mbxState c.val = 0 →
      s.rxDown c.val = false →
      ∃ t, Sys2Proof.Machine.exec (.mbxLockRead c [p]) s = .next t ∧
        t.rd (R.MBX_STAT_STATE c.val) = 1 ∧
        t.rd (R.MBX_STAT_OWNER c.val) = pathId p ∧
        t.out = .lockRead (pathId p) 0 :: s.out ∧
        (t.mbox c.val).holdAt = s.clk ∧
        Frame [R.MBX_STAT_STATE c.val, R.MBX_STAT_OWNER c.val] [.mbx] s t) ∧
  (∀ (s : State) (c : Fin 16) (p q : MbxPath),
      s.mbxOpen c.val (pathId p) = true →
      mbxAccepts c.val (pathId q) = true →
      (c.val < 8 ∨ (reachesSecure p = true ∧ reachesSecure q = true)) →
      pathId p < pathId q →
      s.mbxState c.val = 0 →
      s.rxDown c.val = false →
      ∃ t, Sys2Proof.Machine.exec (.mbxLockRead c [p, q]) s = .next t ∧
        t.rd (R.MBX_STAT_STATE c.val) = 1 ∧
        t.rd (R.MBX_STAT_OWNER c.val) = pathId p ∧
        t.out = .lockRead (pathId q) (pathId p) :: .lockRead (pathId p) 0 :: s.out ∧
        Frame [R.MBX_STAT_STATE c.val, R.MBX_STAT_OWNER c.val] [.mbx] s t) ∧
  (∀ (s : State) (c : Fin 16) (p q : MbxPath),
      s.mbxOpen c.val (pathId p) = true →
      mbxAccepts c.val (pathId q) = true →
      (c.val < 8 ∨ (reachesSecure p = true ∧ reachesSecure q = true)) →
      pathId p < pathId q →
      s.mbxState c.val = 0 →
      s.rxDown c.val = false →
      ∃ t, Sys2Proof.Machine.exec (.mbxLockRead c [q, p]) s = .next t ∧
        t.rd (R.MBX_STAT_STATE c.val) = 1 ∧
        t.rd (R.MBX_STAT_OWNER c.val) = pathId p ∧
        t.out = .lockRead (pathId p) 0 :: .lockRead (pathId q) (pathId p) :: s.out ∧
        Frame [R.MBX_STAT_STATE c.val, R.MBX_STAT_OWNER c.val] [.mbx] s t) ∧
  (∀ (s : State) (c : Fin 16) (p : MbxPath),
      s.mbxOpen c.val (pathId p) = true →
      (c.val < 8 ∨ reachesSecure p = true) →
      s.mbxState c.val ≠ 0 →
      s.rxDown c.val = false →
      ∃ t, Sys2Proof.Machine.exec (.mbxLockRead c [p]) s = .next t ∧
        t.out = .lockRead (pathId p) (s.mbxOwner c.val) :: s.out ∧
        Frame [] [] s t) ∧
  (∀ (s : State) (c : Fin 16) (p : MbxPath),
      s.mbxOpen c.val (pathId p) = false →
      (c.val < 8 ∨ reachesSecure p = true) →
      (s.rxDown c.val = false ∨ pathId p = mbxReceiver c.val) →
      ∃ t, Sys2Proof.Machine.exec (.mbxLockRead c [p]) s = .next t ∧
        t.out = .lockRead (pathId p) 0xFF :: s.out ∧
        Frame [] [] s t) ∧
  (∀ (s : State) (c : Fin 16) (p : MbxPath),
      let a := 0x100000 + c.val * 0x80 + 0x44
      s.rxDown c.val = true →
      pathId p ≠ mbxReceiver c.val →
      (c.val < 8 ∨ p ≠ .host 0) →
      (c.val < 8 ∨ (reachesSecure p = true ∧ (c.val < 12 ∨ pathId p ≠ 2))) →
      ∃ t, Sys2Proof.Machine.exec (.mbxLockRead c [p]) s = .next t ∧
        t.rd (R.MBX_STAT_REJECT c.val) = 1 ∧
        bit (t.rd (R.MBX_EVT_BITS (c.val / 8))) (16 + c.val % 8) = true ∧
        Output.lockRead (pathId p) 0xFFFFFFFF ∈ t.out ∧
        (∀ fn : Fin 2, p = .host fn → Output.aer fn.val a true ∈ t.out) ∧
        Frame [R.MBX_STAT_REJECT c.val, R.MBX_EVT_BITS (c.val / 8)] [] s t) ∧
  (∀ (s : State) (c : Fin 16) (p : MbxPath),
      (s.rxDown c.val = true ∨ reachesSecure p = false) →
      (pathId p ≠ mbxReceiver c.val ∨ reachesSecure p = false) →
      (c.val < 8 ∨ p ≠ .host 0) →
      (8 ≤ c.val ∧ (reachesSecure p = false ∨ (12 ≤ c.val ∧ pathId p = 2))) →
      ∃ t, Sys2Proof.Machine.exec (.mbxLockRead c [p]) s = .next t ∧
        t.rd (R.MBX_STAT_REJECT c.val) = 1 ∧
        bit (t.rd (R.MBX_EVT_BITS (c.val / 8))) (16 + c.val % 8) = true ∧
        Output.lockRead (pathId p) 0xFFFFFFFF ∈ t.out ∧
        t.rd R.LOG_NEXT_SEQ = (s.rd R.LOG_NEXT_SEQ + 1) % 2 ^ 32 ∧
        IMap.get {} t.log (s.rd R.LOG_NEXT_SEQ % logSize) = { seq := s.rd R.LOG_NEXT_SEQ, time := s.ts0, event := 0x0E01, unit := c.val, sender := pathId p, data := le 4 0x44 } ∧
        Frame ([R.MBX_STAT_REJECT c.val, R.MBX_EVT_BITS (c.val / 8)] ++ logFields) [.log] s t) ∧
  (∀ (s : State) (c : Fin 16),
      8 ≤ c.val →
      ∃ t, Sys2Proof.Machine.exec (.mbxLockRead c [.host 0]) s = .next t ∧
        t.out = .readData 0xFFFFFFFF :: .aer 0 (0x100044 + c.val * 0x80) false :: s.out ∧
        Frame [] [] s t)

/-- MBX_DATA_ACCESS, MBX_GO, MBX_DONE and MBX_RELEASE.  The owner reads and writes the data words while LOCKED, and reads them while
REPLIED, and its hold restarts; the receiver reads and writes them while FULL.  GO by the owner makes the channel FULL with the owner's
ID stamped and kept as LAST_SENDER, in the firmware's queue where it is the receiver, with ARRIVE where the class's host is.  DONE by
the receiver makes it REPLIED, stamped, or EMPTY and cleared under ORPHAN; a relay channel's reply leaves.  RELEASE by the owner clears
it.  MBX_STAT reads with RX_DOWN and takes writes of its W1C bits, and MBX_CTL reads 0.  Any other access, a write of MBX_LOCK or one with
another action bit, is rejected, with REJECT, its event and the error response of its path; PF0's access to a secure channel is an
Unsupported Request.  Of two GOs in one cycle the one of the lower channel comes first.
Choices of the model that it rests on: log entry 66.
(Rests on 13_mailboxes.md; PF1 on MBX12 to MBX15
is log entry 88.) -/
def Obligations.MailboxAccesses : Prop :=
  (∀ (s : State) (c k : Fin 16) (p : MbxPath),
      s.asOwner c.val p = true →
      (s.mbxState c.val = 1 ∨ s.mbxState c.val = 3) →
      ∃ t, Sys2Proof.Machine.exec (.mbxDataAccess c (.data k) p none) s = .next t ∧
        t.out = .lockRead (pathId p) (s.rd (R.MBX_DATA_DATA (c.val * 16 + k.val))) :: s.out ∧
        (t.mbox c.val).holdAt = s.clk ∧
        Frame [] [.mbx] s t) ∧
  (∀ (s : State) (c k : Fin 16) (p : MbxPath) (w : Word),
      s.asOwner c.val p = true →
      s.mbxState c.val = 1 →
      ∃ t, Sys2Proof.Machine.exec (.mbxDataAccess c (.data k) p (some w)) s = .next t ∧
        t.rd (R.MBX_DATA_DATA (c.val * 16 + k.val)) = w.toNat ∧
        (t.mbox c.val).holdAt = s.clk ∧
        Frame [R.MBX_DATA_DATA (c.val * 16 + k.val)] [.mbx] s t) ∧
  (∀ (s : State) (c k : Fin 16) (p : MbxPath),
      s.asReceiver c.val p = true →
      s.mbxState c.val = 2 →
      ∃ t, Sys2Proof.Machine.exec (.mbxDataAccess c (.data k) p none) s = .next t ∧
        t.out = .lockRead (pathId p) (s.rd (R.MBX_DATA_DATA (c.val * 16 + k.val))) :: s.out ∧
        Frame [] [] s t) ∧
  (∀ (s : State) (c k : Fin 16) (p : MbxPath) (w : Word),
      s.asReceiver c.val p = true →
      s.mbxState c.val = 2 →
      ∃ t, Sys2Proof.Machine.exec (.mbxDataAccess c (.data k) p (some w)) s = .next t ∧
        t.rd (R.MBX_DATA_DATA (c.val * 16 + k.val)) = w.toNat ∧
        Frame [R.MBX_DATA_DATA (c.val * 16 + k.val)] [] s t) ∧
  (∀ (s : State) (c k : Fin 16) (p : MbxPath) (w : Option Word),
      let a := 0x100000 + c.val * 0x80 + 4 * k.val
      (c.val < 8 ∨ p ≠ .host 0) →
      (s.asOwner c.val p = false ∨ ¬ (s.mbxState c.val = 1 ∨ (s.mbxState c.val = 3 ∧ w = none))) →
      (s.asReceiver c.val p = false ∨ s.mbxState c.val ≠ 2) →
      (c.val < 8 ∨ (reachesSecure p = true ∧ (c.val < 12 ∨ pathId p ≠ 2))) →
      ∃ t, Sys2Proof.Machine.exec (.mbxDataAccess c (.data k) p w) s = .next t ∧
        t.rd (R.MBX_STAT_REJECT c.val) = 1 ∧
        bit (t.rd (R.MBX_EVT_BITS (c.val / 8))) (16 + c.val % 8) = true ∧
        (∀ fn : Fin 2, p = .host fn → Output.aer fn.val a w.isNone ∈ t.out) ∧
        ((∀ fn : Fin 2, p ≠ .host fn) → Output.pathError (pathId p) w.isNone ∈ t.out) ∧
        (w = none → t.out.head? = some (.lockRead (pathId p) 0xFFFFFFFF)) ∧
        Frame [R.MBX_STAT_REJECT c.val, R.MBX_EVT_BITS (c.val / 8)] [] s t) ∧
  (∀ (s : State) (c k : Fin 16) (p : MbxPath) (w : Option Word),
      (c.val < 8 ∨ p ≠ .host 0) →
      (s.asOwner c.val p = false ∨ ¬ (s.mbxState c.val = 1 ∨ (s.mbxState c.val = 3 ∧ w = none))) →
      (s.asReceiver c.val p = false ∨ s.mbxState c.val ≠ 2) →
      (8 ≤ c.val ∧ (reachesSecure p = false ∨ (12 ≤ c.val ∧ pathId p = 2))) →
      ∃ t, Sys2Proof.Machine.exec (.mbxDataAccess c (.data k) p w) s = .next t ∧
        t.rd (R.MBX_STAT_REJECT c.val) = 1 ∧
        bit (t.rd (R.MBX_EVT_BITS (c.val / 8))) (16 + c.val % 8) = true ∧
        IMap.get {} t.log (s.rd R.LOG_NEXT_SEQ % logSize) = { seq := s.rd R.LOG_NEXT_SEQ, time := s.ts0, event := 0x0E01, unit := c.val, sender := pathId p, data := le 4 (4 * k.val) } ∧
        Frame ([R.MBX_STAT_REJECT c.val, R.MBX_EVT_BITS (c.val / 8)] ++ logFields) [.log] s t) ∧
  (∀ (s : State) (c k : Fin 16) (w : Option Word),
      let a := 0x100000 + c.val * 0x80 + 4 * k.val
      8 ≤ c.val →
      ∃ t, Sys2Proof.Machine.exec (.mbxDataAccess c (.data k) (.host 0) w) s = .next t ∧
        Output.aer 0 a false ∈ t.out ∧
        (w = none → t.out.head? = some (.readData 0xFFFFFFFF)) ∧
        Frame [] [] s t) ∧
  (∀ (s : State) (c : Fin 16) (p : MbxPath) (w : Word),
      s.asOwner c.val p = true →
      s.mbxState c.val = 1 →
      (w.toNat ||| 1) % 16 = 1 →
      ∃ t, Sys2Proof.Machine.exec (.mbxGo c p w []) s = .next t ∧
        t.rd (R.MBX_STAT_STATE c.val) = 2 ∧
        t.rd (R.MBX_DATA_DATA (c.val * 16 + 1)) = s.rd (R.MBX_DATA_DATA (c.val * 16 + 1)) % 2 ^ 24 + pathId p * 2 ^ 24 ∧
        t.rd (R.MBX_STAT_LAST_SENDER c.val) = pathId p ∧
        (t.fw = (if mbxReceiver c.val = 3 then { s.fw with queue := s.fw.queue ++ [{ path := .mbx c.val, sender := pathId p, sec := s.on R.MOR_RELAY_CFG_RELAY_SEC }] } else s.fw)) ∧
        (mbxReceiver c.val = 1 ∧ c.val < 8 ∨ mbxReceiver c.val = 2 → bit (t.rd (R.MBX_EVT_BITS (c.val / 8))) (0 + c.val % 8) = true) ∧
        Frame [R.MBX_STAT_STATE c.val, R.MBX_STAT_LAST_SENDER c.val, R.MBX_DATA_DATA (c.val * 16 + 1), R.MBX_EVT_BITS (c.val / 8)] [.fw] s t) ∧
  (∀ (s : State) (c : Fin 16) (p : MbxPath) (w : Word),
      let a := 0x100000 + c.val * 0x80 + 0x40
      (c.val < 8 ∨ p ≠ .host 0) →
      (c.val < 8 ∨ (reachesSecure p = true ∧ (c.val < 12 ∨ pathId p ≠ 2))) →
      (s.asOwner c.val p = false ∨ s.mbxState c.val ≠ 1 ∨ (w.toNat ||| 1) % 16 ≠ 1) →
      ∃ t, Sys2Proof.Machine.exec (.mbxGo c p w []) s = .next t ∧
        t.rd (R.MBX_STAT_REJECT c.val) = 1 ∧
        bit (t.rd (R.MBX_EVT_BITS (c.val / 8))) (16 + c.val % 8) = true ∧
        (∀ fn : Fin 2, p = .host fn → Output.aer fn.val a false ∈ t.out) ∧
        ((∀ fn : Fin 2, p ≠ .host fn) → Output.pathError (pathId p) false ∈ t.out) ∧
        Frame [R.MBX_STAT_REJECT c.val, R.MBX_EVT_BITS (c.val / 8)] [] s t) ∧
  (∀ (s : State) (c : Fin 16) (p : MbxPath) (w : Word),
      s.asReceiver c.val p = true →
      s.mbxState c.val = 2 →
      s.on (R.MBX_STAT_ORPHAN c.val) = false →
      s.mbxOwner c.val < 8 →
      (w.toNat ||| 2) % 16 = 2 →
      ∃ t, Sys2Proof.Machine.exec (.mbxDone c p w) s = .next t ∧
        t.rd (R.MBX_STAT_STATE c.val) = 3 ∧
        t.rd (R.MBX_DATA_DATA (c.val * 16 + 1)) = s.rd (R.MBX_DATA_DATA (c.val * 16 + 1)) % 2 ^ 24 + pathId p * 2 ^ 24 ∧
        (t.mbox c.val).holdAt = s.clk ∧
        (t.mbox c.val).doneAt = some s.tick.count ∧
        (t.fw = (if s.mbxOwner c.val = 3 then { s.fw with postStatus := IMap.put 0 s.fw.postStatus c.val (t.rd (R.MBX_DATA_DATA (c.val * 16 + 2)) % 256) } else s.fw)) ∧
        (s.mbxOwner c.val = classHost c.val → bit (t.rd (R.MBX_EVT_BITS (c.val / 8))) (8 + c.val % 8) = true) ∧
        Frame [R.MBX_STAT_STATE c.val, R.MBX_DATA_DATA (c.val * 16 + 1), R.MBX_EVT_BITS (c.val / 8)] [.mbx, .fw] s t) ∧
  (∀ (s : State) (c : Fin 16) (p : MbxPath) (w : Word),
      s.asReceiver c.val p = true →
      s.mbxState c.val = 2 →
      s.on (R.MBX_STAT_ORPHAN c.val) = true →
      (w.toNat ||| 2) % 16 = 2 →
      ∃ t, Sys2Proof.Machine.exec (.mbxDone c p w) s = .next t ∧
        t.rd (R.MBX_STAT_STATE c.val) = 0 ∧
        t.rd (R.MBX_STAT_OWNER c.val) = 0 ∧
        t.rd (R.MBX_STAT_ORPHAN c.val) = 0 ∧
        (∀ k : Fin 16, t.rd (R.MBX_DATA_DATA (c.val * 16 + k.val)) = 0) ∧
        Frame ([R.MBX_STAT_STATE c.val, R.MBX_STAT_OWNER c.val, R.MBX_STAT_ORPHAN c.val] ++ (mbxWords.map (fun k => R.MBX_DATA_DATA (c.val * 16 + k)))) [.mbx, .fw] s t) ∧
  (∀ (s : State) (c : Fin 16) (p : MbxPath) (w : Word),
      s.asReceiver c.val p = true →
      s.mbxState c.val = 2 →
      s.on (R.MBX_STAT_ORPHAN c.val) = false →
      8 ≤ s.mbxOwner c.val →
      s.stack.relayQ = [] →
      (w.toNat ||| 2) % 16 = 2 →
      ∃ t, Sys2Proof.Machine.exec (.mbxDone c p w) s = .next t ∧
        t.rd (R.MBX_STAT_STATE c.val) = 0 ∧
        (∀ k : Fin 16, t.rd (R.MBX_DATA_DATA (c.val * 16 + k.val)) = 0) ∧
        (∀ l, s.relayLink (s.mbxOwner c.val - 7) = some l → t.out.length = s.out.length + 1) ∧
        Touches [.log, .stack, .mbx, .fw, .regs .mbx, .regs .wch] s t) ∧
  (∀ (s : State) (c : Fin 16) (p : MbxPath) (w : Word),
      s.asReceiver c.val p = true →
      s.mbxState c.val = 2 →
      s.on (R.MBX_STAT_ORPHAN c.val) = false →
      8 ≤ s.mbxOwner c.val →
      s.stack.relayQ ≠ [] →
      (w.toNat ||| 2) % 16 = 2 →
      ∃ t, Sys2Proof.Machine.exec (.mbxDone c p w) s = .next t ∧
        t.stack.relayQ.length ≤ s.stack.relayQ.length ∧
        Touches [.log, .stack, .mbx, .fw, .regs .mbx, .regs .wch] s t) ∧
  (∀ (s : State) (c : Fin 16) (p : MbxPath) (w : Word),
      (c.val < 8 ∨ p ≠ .host 0) →
      (c.val < 8 ∨ (reachesSecure p = true ∧ (c.val < 12 ∨ pathId p ≠ 2))) →
      (s.asReceiver c.val p = false ∨ s.mbxState c.val ≠ 2 ∨ (w.toNat ||| 2) % 16 ≠ 2) →
      ∃ t, Sys2Proof.Machine.exec (.mbxDone c p w) s = .next t ∧
        t.rd (R.MBX_STAT_REJECT c.val) = 1 ∧
        bit (t.rd (R.MBX_EVT_BITS (c.val / 8))) (16 + c.val % 8) = true ∧
        Frame [R.MBX_STAT_REJECT c.val, R.MBX_EVT_BITS (c.val / 8)] [] s t) ∧
  (∀ (s : State) (c : Fin 16) (p : MbxPath) (w : Word),
      s.asOwner c.val p = true →
      (s.mbxState c.val = 1 ∨ s.mbxState c.val = 3) →
      s.stack.relayQ = [] →
      (w.toNat ||| 4) % 16 = 4 →
      ∃ t, Sys2Proof.Machine.exec (.mbxRelease c p w) s = .next t ∧
        t.rd (R.MBX_STAT_STATE c.val) = 0 ∧
        t.rd (R.MBX_STAT_OWNER c.val) = 0 ∧
        (∀ k : Fin 16, t.rd (R.MBX_DATA_DATA (c.val * 16 + k.val)) = 0) ∧
        Frame ([R.MBX_STAT_STATE c.val, R.MBX_STAT_OWNER c.val, R.MBX_STAT_ORPHAN c.val] ++ (mbxWords.map (fun k => R.MBX_DATA_DATA (c.val * 16 + k)))) [.mbx, .fw] s t) ∧
  (∀ (s : State) (c : Fin 16) (p : MbxPath) (w : Word),
      s.asOwner c.val p = true →
      (s.mbxState c.val = 1 ∨ s.mbxState c.val = 3) →
      c.val ≠ 3 ∧ c.val ≠ 11 →
      (w.toNat ||| 4) % 16 = 4 →
      ∃ t, Sys2Proof.Machine.exec (.mbxRelease c p w) s = .next t ∧
        t.rd (R.MBX_STAT_STATE c.val) = 0 ∧
        t.rd (R.MBX_STAT_OWNER c.val) = 0 ∧
        (∀ k : Fin 16, t.rd (R.MBX_DATA_DATA (c.val * 16 + k.val)) = 0) ∧
        Touches [.log, .stack, .mbx, .fw, .regs .mbx, .regs .wch] s t) ∧
  (∀ (s : State) (c : Fin 16) (p : MbxPath) (w : Word),
      s.asOwner c.val p = true →
      (s.mbxState c.val = 1 ∨ s.mbxState c.val = 3) →
      (c.val = 3 ∨ c.val = 11) →
      s.stack.relayQ ≠ [] →
      (w.toNat ||| 4) % 16 = 4 →
      ∃ t, Sys2Proof.Machine.exec (.mbxRelease c p w) s = .next t ∧
        t.stack.relayQ.length ≤ s.stack.relayQ.length ∧
        (relayChannel s ≠ c.val → t.rd (R.MBX_STAT_STATE c.val) = 0) ∧
        Touches [.log, .stack, .mbx, .fw, .regs .mbx, .regs .wch] s t) ∧
  (∀ (s : State) (c : Fin 16) (p : MbxPath) (w : Word),
      (c.val < 8 ∨ p ≠ .host 0) →
      (c.val < 8 ∨ (reachesSecure p = true ∧ (c.val < 12 ∨ pathId p ≠ 2))) →
      (s.asOwner c.val p = false ∨ s.mbxState c.val = 0 ∨ s.mbxState c.val = 2 ∨ (w.toNat ||| 4) % 16 ≠ 4) →
      ∃ t, Sys2Proof.Machine.exec (.mbxRelease c p w) s = .next t ∧
        t.rd (R.MBX_STAT_REJECT c.val) = 1 ∧
        bit (t.rd (R.MBX_EVT_BITS (c.val / 8))) (16 + c.val % 8) = true ∧
        Frame [R.MBX_STAT_REJECT c.val, R.MBX_EVT_BITS (c.val / 8)] [] s t) ∧
  (∀ (s : State) (c : Fin 16) (p : MbxPath) (w : Word),
      (c.val < 8 ∨ p ≠ .host 0) →
      (8 ≤ c.val ∧ (reachesSecure p = false ∨ (12 ≤ c.val ∧ pathId p = 2))) →
      (s.asOwner c.val p = false ∨ s.mbxState c.val ≠ 1 ∨ (w.toNat ||| 1) % 16 ≠ 1) →
      ∃ t, Sys2Proof.Machine.exec (.mbxGo c p w []) s = .next t ∧
        t.rd (R.MBX_STAT_REJECT c.val) = 1 ∧
        bit (t.rd (R.MBX_EVT_BITS (c.val / 8))) (16 + c.val % 8) = true ∧
        IMap.get {} t.log (s.rd R.LOG_NEXT_SEQ % logSize) = { seq := s.rd R.LOG_NEXT_SEQ, time := s.ts0, event := 0x0E01, unit := c.val, sender := pathId p, data := le 4 0x40 } ∧
        Frame ([R.MBX_STAT_REJECT c.val, R.MBX_EVT_BITS (c.val / 8)] ++ logFields) [.log] s t) ∧
  (∀ (s : State) (c : Fin 16) (p : MbxPath) (w : Word),
      (c.val < 8 ∨ p ≠ .host 0) →
      (8 ≤ c.val ∧ (reachesSecure p = false ∨ (12 ≤ c.val ∧ pathId p = 2))) →
      (s.asReceiver c.val p = false ∨ s.mbxState c.val ≠ 2 ∨ (w.toNat ||| 2) % 16 ≠ 2) →
      ∃ t, Sys2Proof.Machine.exec (.mbxDone c p w) s = .next t ∧
        t.rd (R.MBX_STAT_REJECT c.val) = 1 ∧
        bit (t.rd (R.MBX_EVT_BITS (c.val / 8))) (16 + c.val % 8) = true ∧
        IMap.get {} t.log (s.rd R.LOG_NEXT_SEQ % logSize) = { seq := s.rd R.LOG_NEXT_SEQ, time := s.ts0, event := 0x0E01, unit := c.val, sender := pathId p, data := le 4 0x40 } ∧
        Frame ([R.MBX_STAT_REJECT c.val, R.MBX_EVT_BITS (c.val / 8)] ++ logFields) [.log] s t) ∧
  (∀ (s : State) (c : Fin 16) (p : MbxPath) (w : Word),
      (c.val < 8 ∨ p ≠ .host 0) →
      (8 ≤ c.val ∧ (reachesSecure p = false ∨ (12 ≤ c.val ∧ pathId p = 2))) →
      (s.asOwner c.val p = false ∨ s.mbxState c.val = 0 ∨ s.mbxState c.val = 2 ∨ (w.toNat ||| 4) % 16 ≠ 4) →
      ∃ t, Sys2Proof.Machine.exec (.mbxRelease c p w) s = .next t ∧
        t.rd (R.MBX_STAT_REJECT c.val) = 1 ∧
        bit (t.rd (R.MBX_EVT_BITS (c.val / 8))) (16 + c.val % 8) = true ∧
        IMap.get {} t.log (s.rd R.LOG_NEXT_SEQ % logSize) = { seq := s.rd R.LOG_NEXT_SEQ, time := s.ts0, event := 0x0E01, unit := c.val, sender := pathId p, data := le 4 0x40 } ∧
        Frame ([R.MBX_STAT_REJECT c.val, R.MBX_EVT_BITS (c.val / 8)] ++ logFields) [.log] s t) ∧
  (∀ (s : State) (c : Fin 16) (w : Word),
      let a := 0x100000 + c.val * 0x80 + 0x40
      8 ≤ c.val →
      ∃ t, Sys2Proof.Machine.exec (.mbxGo c (.host 0) w []) s = .next t ∧
        t.out = .aer 0 a false :: s.out ∧
        Frame [] [] s t) ∧
  (∀ (s : State) (c : Fin 16) (w : Word),
      let a := 0x100000 + c.val * 0x80 + 0x40
      8 ≤ c.val →
      ∃ t, Sys2Proof.Machine.exec (.mbxDone c (.host 0) w) s = .next t ∧
        t.out = .aer 0 a false :: s.out ∧
        Frame [] [] s t) ∧
  (∀ (s : State) (c : Fin 16) (w : Word),
      let a := 0x100000 + c.val * 0x80 + 0x40
      8 ≤ c.val →
      ∃ t, Sys2Proof.Machine.exec (.mbxRelease c (.host 0) w) s = .next t ∧
        t.out = .aer 0 a false :: s.out ∧
        Frame [] [] s t) ∧
  (∀ (s : State) (c : Fin 16) (p : MbxPath),
      (c.val < 8 ∨ reachesSecure p = true) →
      ∃ t, Sys2Proof.Machine.exec (.mbxDataAccess c .stat p none) s = .next t ∧
        t.out = .lockRead (pathId p) ((R.MBX_STAT_RX_DOWN c.val).putIn (b01 (s.rxDown c.val)) (s.showReg (Reg.MBX_STAT c.val))) :: s.out ∧
        Frame [] [] s t) ∧
  (∀ (s : State) (c : Fin 16) (p : MbxPath) (w : Word),
      (c.val < 8 ∨ reachesSecure p = true) →
      s.barredOther c.val p = false →
      ∃ t, Sys2Proof.Machine.exec (.mbxDataAccess c .stat p (some w)) s = .next t ∧
        (∀ f ∈ (Reg.MBX_STAT c.val).fields, t.rd f = stored false f (s.rd f) w.toNat) ∧
        Frame (Reg.MBX_STAT c.val).fields [] s t) ∧
  (∀ (s : State) (c : Fin 16) (p : MbxPath),
      (c.val < 8 ∨ p ≠ .host 0) →
      s.barredOther c.val p = false →
      ∃ t, Sys2Proof.Machine.exec (.mbxDataAccess c .ctl p none) s = .next t ∧
        t.out = .lockRead (pathId p) 0 :: s.out ∧
        Frame [] [] s t) ∧
  (∀ (s : State) (c : Fin 16) (r : MbxReg) (p : MbxPath) (w : Option Word),
      let a : Nat := 0x100000 + c.val * 0x80 + (match r with
        | .ctl => 0x40
        | .lock => 0x44
        | _ => 0x48)
      (r = .stat ∨ r = .ctl ∨ r = .lock) →
      (c.val < 8 ∨ p ≠ .host 0) →
      ((r = .stat ∧ ((w = none ∧ 8 ≤ c.val ∧ reachesSecure p = false) ∨ (w ≠ none ∧ s.barredOther c.val p = true)))
        ∨ (r = .ctl ∧ w = none ∧ s.barredOther c.val p = true) ∨ (r = .lock ∧ w ≠ none)) →
      ∃ t, Sys2Proof.Machine.exec (.mbxDataAccess c r p w) s = .next t ∧
        t.rd (R.MBX_STAT_REJECT c.val) = 1 ∧
        bit (t.rd (R.MBX_EVT_BITS (c.val / 8))) (16 + c.val % 8) = true ∧
        (∀ fn : Fin 2, p = .host fn → Output.aer fn.val a w.isNone ∈ t.out) ∧
        ((∀ fn : Fin 2, p ≠ .host fn) → Output.pathError (pathId p) w.isNone ∈ t.out) ∧
        (w = none → t.out.head? = some (.lockRead (pathId p) 0xFFFFFFFF)) ∧
        (8 ≤ c.val → (reachesSecure p = false ∨ (12 ≤ c.val ∧ pathId p = 2)) →
          IMap.get {} t.log (s.rd R.LOG_NEXT_SEQ % logSize) = { seq := s.rd R.LOG_NEXT_SEQ, time := s.ts0, event := 0x0E01, unit := c.val, sender := pathId p, data := le 4 (a - 0x100000 - c.val * 0x80) }) ∧
        Frame ([R.MBX_STAT_REJECT c.val, R.MBX_EVT_BITS (c.val / 8)] ++ logFields) [.log] s t) ∧
  (∀ (s : State) (c : Fin 16) (p : MbxPath) (w : Word),
      (bit w.toNat 0 = true → Sys2Proof.Machine.exec (.mbxDataAccess c .ctl p (some w)) s = Sys2Proof.Machine.exec (.mbxGo c p w []) s) ∧
      (bit w.toNat 1 = true → Sys2Proof.Machine.exec (.mbxDataAccess c .ctl p (some w)) s = Sys2Proof.Machine.exec (.mbxDone c p w) s) ∧
      (bit w.toNat 2 = true → Sys2Proof.Machine.exec (.mbxDataAccess c .ctl p (some w)) s = Sys2Proof.Machine.exec (.mbxRelease c p w) s)) ∧
  (∀ (s : State) (c : Fin 16) (p : MbxPath) (w : Word),
      s.asOwner c.val p = true →
      pathId p = 3 →
      s.mbxState c.val = 2 →
      w.toNat % 16 = 8 →
      ∃ t, Sys2Proof.Machine.exec (.mbxDataAccess c .ctl p (some w)) s = .next t ∧
        t.mbxState c.val = 0 ∧
        t.rd (R.MBX_STAT_WITHDRAWN c.val) = 1 ∧
        bit (t.rd (R.MBX_EVT_BITS (c.val / 8))) (24 + c.val % 8) = true ∧
        (∀ k : Fin 16, t.rd (R.MBX_DATA_DATA (c.val * 16 + k.val)) = 0) ∧
        Frame ([R.MBX_STAT_STATE c.val, R.MBX_STAT_OWNER c.val, R.MBX_STAT_ORPHAN c.val, R.MBX_STAT_WITHDRAWN c.val, R.MBX_EVT_BITS (c.val / 8)] ++ (mbxWords.map (fun k => R.MBX_DATA_DATA (c.val * 16 + k)))) [.mbx, .fw] s t) ∧
  (∀ (s : State) (c : Fin 16) (p : MbxPath) (w : Word),
      (c.val < 8 ∨ p ≠ .host 0) →
      (w.toNat % 16 = 0 ∨ (w.toNat % 16 = 8 ∧ (s.asOwner c.val p = false ∨ pathId p ≠ 3 ∨ s.mbxState c.val ≠ 2))) →
      ∃ t, Sys2Proof.Machine.exec (.mbxDataAccess c .ctl p (some w)) s = .next t ∧
        t.rd (R.MBX_STAT_REJECT c.val) = 1 ∧
        bit (t.rd (R.MBX_EVT_BITS (c.val / 8))) (16 + c.val % 8) = true ∧
        Frame ([R.MBX_STAT_REJECT c.val, R.MBX_EVT_BITS (c.val / 8)] ++ logFields) [.log] s t) ∧
  (∀ (s : State) (c : Fin 16) (p : MbxPath),
      (c.val < 8 ∨ p ≠ .host 0) →
      Sys2Proof.Machine.exec (.mbxDataAccess c .lock p none) s = Sys2Proof.Machine.exec (.mbxLockRead c [p]) s) ∧
  (∀ (s : State) (c d : Fin 16) (p q : MbxPath) (w v : Word),
      c.val < d.val →
      mbxReceiver c.val = 3 →
      mbxReceiver d.val = 3 →
      s.asOwner c.val p = true →
      s.asOwner d.val q = true →
      s.mbxState c.val = 1 →
      s.mbxState d.val = 1 →
      (w.toNat ||| 1) % 16 = 1 →
      v.toNat % 16 = 1 →
      (d.val < 8 ∨ q ≠ .host 0) →
      (c.val < 8 ∨ p ≠ .host 0) →
      ∃ t, Sys2Proof.Machine.exec (.mbxGo d q w [(c, p, v)]) s = .next t ∧
        t.mbxState c.val = 2 ∧
        t.mbxState d.val = 2 ∧
        t.fw.queue = s.fw.queue ++ [{ path := .mbx c.val, sender := pathId p, sec := s.on R.MOR_RELAY_CFG_RELAY_SEC },
          { path := .mbx d.val, sender := pathId q, sec := s.on R.MOR_RELAY_CFG_RELAY_SEC }] ∧
        Touches [.fw, .regs .mbx] s t)

/-- LOCK_HOLD_EXPIRE, RECEIVER_DOWN, CROSSING_TIMEOUT and NOTIFY_POST.  A LOCKED or REPLIED channel whose hold runs out is EMPTY and
cleared, with STALE set and counted.  A function that leaves D0 leaves every message FULL for it REPLIED with ABORTED and its ID, an
orphan EMPTY.  Taking a message of a function begins the crossing of each firmware message FULL to it.  One still FULL at XTO after
that is withdrawn: EMPTY, WITHDRAWN, its event, counted in CROSSED, ended with status 9, recorded, and its notification held again; in
the tick of its DONE the WITHDRAW is rejected.  A held notification goes out on the lowest EMPTY channel to its function, PF0's
first, while the firmware runs.
Choices of the model that it rests on: log entries 41, 66 and 73.
(Rests on 13_mailboxes.md; 14_commands.md.) -/
def Obligations.MailboxTimeouts : Prop :=
  (∀ (s : State) (c : Fin 16),
      (s.mbxState c.val = 0 ∨ s.mbxState c.val = 2) →
      ∃ t, Sys2Proof.Machine.exec (.lockHoldExpire c) s = .next t ∧
        Frame [] [] s t) ∧
  (∀ (s : State) (c : Fin 16),
      (s.mbxState c.val = 1 ∨ s.mbxState c.val = 3) →
      s.stack.relayQ = [] →
      ∃ t, Sys2Proof.Machine.exec (.lockHoldExpire c) s = .next t ∧
        t.rd (R.MBX_STAT_STATE c.val) = 0 ∧
        t.rd (R.MBX_STAT_OWNER c.val) = 0 ∧
        t.rd (R.MBX_STAT_STALE c.val) = 1 ∧
        t.rd R.MBX_XCNT_STALE = satNat 16 (s.rd R.MBX_XCNT_STALE + 1) ∧
        (∀ k : Fin 16, t.rd (R.MBX_DATA_DATA (c.val * 16 + k.val)) = 0) ∧
        t.tick = (s.waitClk ((s.mbox c.val).holdAt + us16 (100 * max 1 (s.rd R.MBX_CFG_LOCK_HOLD)))).tick ∧
        Frame ([R.MBX_STAT_STATE c.val, R.MBX_STAT_OWNER c.val, R.MBX_STAT_ORPHAN c.val, R.MBX_STAT_STALE c.val, R.MBX_XCNT_STALE] ++ (mbxWords.map (fun k => R.MBX_DATA_DATA (c.val * 16 + k)))) [.tick, .lanes, .mbx, .fw] s t) ∧
  (∀ (s : State) (c : Fin 16),
      (s.mbxState c.val = 1 ∨ s.mbxState c.val = 3) →
      s.stack.relayQ ≠ [] →
      c.val ≠ 3 ∧ c.val ≠ 11 →
      ∃ t, Sys2Proof.Machine.exec (.lockHoldExpire c) s = .next t ∧
        t.rd (R.MBX_STAT_STATE c.val) = 0 ∧
        t.rd (R.MBX_STAT_OWNER c.val) = 0 ∧
        t.rd (R.MBX_STAT_STALE c.val) = 1 ∧
        Touches [.tick, .lanes, .log, .stack, .mbx, .fw, .regs .mbx, .regs .wch] s t) ∧
  (∀ (s : State) (c : Fin 16),
      (s.mbxState c.val = 1 ∨ s.mbxState c.val = 3) →
      s.stack.relayQ ≠ [] →
      (c.val = 3 ∨ c.val = 11) →
      ∃ t, Sys2Proof.Machine.exec (.lockHoldExpire c) s = .next t ∧
        (relayChannel s ≠ c.val → t.rd (R.MBX_STAT_STATE c.val) = 0) ∧
        t.rd (R.MBX_STAT_STALE c.val) = 1 ∧
        t.rd R.MBX_XCNT_STALE = satNat 16 (s.rd R.MBX_XCNT_STALE + 1) ∧
        Touches [.tick, .lanes, .log, .stack, .mbx, .fw, .regs .mbx, .regs .wch] s t) ∧
  (∀ (s : State) (fn : Fin 2) (d0 : Bool),
      (d0 = true ∨ ∀ c : Fin 16, mbxReceiver c.val = 1 + fn.val → s.mbxState c.val ≠ 2) →
      ∃ t, Sys2Proof.Machine.exec (.receiverDown fn d0) s = .next t ∧
        (t.pcie = (if fn.val = 0 then { s.pcie with d0a := d0, flr0 := s.pcie.flr0 && !d0 } else { s.pcie with d0b := d0, flr1 := s.pcie.flr1 && !d0 })) ∧
        Frame [] [.pcie] s t) ∧
  (∀ (s : State) (fn : Fin 2) (c : Fin 16),
      mbxReceiver c.val = 1 + fn.val →
      s.mbxState c.val = 2 →
      s.on (R.MBX_STAT_ORPHAN c.val) = false →
      ∃ t, Sys2Proof.Machine.exec (.receiverDown fn false) s = .next t ∧
        t.rd (R.MBX_STAT_STATE c.val) = 3 ∧
        t.rd (R.MBX_DATA_DATA (c.val * 16 + 2)) % 256 = 8 ∧
        t.rd (R.MBX_DATA_DATA (c.val * 16 + 2)) / 256 = s.rd (R.MBX_DATA_DATA (c.val * 16 + 2)) / 256 ∧
        t.rd (R.MBX_DATA_DATA (c.val * 16 + 1)) = s.rd (R.MBX_DATA_DATA (c.val * 16 + 1)) % 2 ^ 24 + (1 + fn.val) * 2 ^ 24 ∧
        t.fnUp fn.val = false ∧
        Touches [.mbx, .fw, .pcie, .regs .mbx] s t) ∧
  (∀ (s : State) (fn : Fin 2) (c : Fin 16),
      mbxReceiver c.val = 1 + fn.val →
      s.mbxState c.val = 2 →
      s.on (R.MBX_STAT_ORPHAN c.val) = true →
      ∃ t, Sys2Proof.Machine.exec (.receiverDown fn false) s = .next t ∧
        t.rd (R.MBX_STAT_STATE c.val) = 0 ∧
        (∀ k : Fin 16, t.rd (R.MBX_DATA_DATA (c.val * 16 + k.val)) = 0) ∧
        t.rd (R.MBX_STAT_ORPHAN c.val) = 0 ∧
        Touches [.mbx, .fw, .pcie, .regs .mbx] s t) ∧
  (∀ (s : State) (c : Fin 16),
      ((s.mbox c.val).crossAt = none ∨ s.mbxState c.val ≠ 2 ∨ s.mbxOwner c.val ≠ 3 ∨ s.on (R.MBX_STAT_ORPHAN c.val) = true) →
      ((s.mbox c.val).crossAt = none ∨ s.mbxState c.val ≠ 3 ∨ (s.mbox c.val).doneAt ≠ some s.tick.count) →
      ∃ t, Sys2Proof.Machine.exec (.crossingTimeout c) s = .next t ∧
        Frame [] [] s t) ∧
  (∀ (s : State) (c : Fin 16) (at_ : Nat),
      (s.mbox c.val).crossAt = some at_ →
      s.mbxState c.val = 3 →
      (s.mbox c.val).doneAt = some s.tick.count →
      at_ + us16 (max 1 (s.rd R.MBX_CFG_XTO)) ≤ s.clk →
      ∃ t, Sys2Proof.Machine.exec (.crossingTimeout c) s = .next t ∧
        t.mbxState c.val = 3 ∧
        t.rd (R.MBX_STAT_REJECT c.val) = 1 ∧
        bit (t.rd (R.MBX_EVT_BITS (c.val / 8))) (16 + c.val % 8) = true ∧
        Output.pathError 3 false ∈ t.out ∧
        Frame ([R.MBX_STAT_REJECT c.val, R.MBX_EVT_BITS (c.val / 8)]) [] s t) ∧
  (∀ (s : State) (c : Fin 16) (q : Cmd) (rest : List Cmd) (fn : Fin 2),
      s.on R.DEV_DIE_STAT_KFW_RUN = true →
      s.fw.current = none →
      s.fw.queue = q :: rest →
      q.path = .mbx c.val →
      senderFn c.val = some fn.val →
      s.mbxState c.val = 2 →
      (s.readCmd q).headFault = none →
      ∃ t, Sys2Proof.Machine.exec (.firmwareTake) s = .next t ∧
        (∀ d : Fin 16, d.val ∈ toFn fn.val → s.mbxState d.val = 2 → s.mbxOwner d.val = 3 → (s.mbox d.val).crossAt = none →
          (t.mbox d.val).crossAt = some s.clk) ∧
        (∀ d : Fin 16, (d.val ∉ toFn fn.val ∨ s.mbxState d.val ≠ 2 ∨ s.mbxOwner d.val ≠ 3 ∨ (s.mbox d.val).crossAt ≠ none) → t.mbox d.val = s.mbox d.val) ∧
        Frame [] [.mbx, .fw] s t) ∧
  (∀ (s : State) (c : Fin 16) (at_ : Nat),
      (s.mbox c.val).crossAt = some at_ →
      s.mbxState c.val = 2 →
      s.mbxOwner c.val = 3 →
      s.on (R.MBX_STAT_ORPHAN c.val) = false →
      ∃ t, Sys2Proof.Machine.exec (.crossingTimeout c) s = .next t ∧
        t.rd (R.MBX_STAT_STATE c.val) = 0 ∧
        t.rd (R.MBX_STAT_WITHDRAWN c.val) = 1 ∧
        bit (t.rd (R.MBX_EVT_BITS (c.val / 8))) (24 + c.val % 8) = true ∧
        t.rd R.MBX_XCNT_CROSSED = satNat 16 (s.rd R.MBX_XCNT_CROSSED + 1) ∧
        IMap.get 0 t.fw.postStatus c.val = 9 ∧
        (∀ k : Fin 16, t.rd (R.MBX_DATA_DATA (c.val * 16 + k.val)) = 0) ∧
        (t.fw.held = (if IMap.get [] s.fw.posted c.val = [] then s.fw.held else { fn := c.val / 8, again := true, bytes := IMap.get [] s.fw.posted c.val } :: s.fw.held)) ∧
        t.tick = (s.waitClk (at_ + us16 (max 1 (s.rd R.MBX_CFG_XTO)))).tick ∧
        t.rd R.LOG_NEXT_SEQ = (s.rd R.LOG_NEXT_SEQ + 1) % 2 ^ 32 ∧
        Frame ([R.MBX_STAT_STATE c.val, R.MBX_STAT_OWNER c.val, R.MBX_STAT_ORPHAN c.val, R.MBX_STAT_WITHDRAWN c.val, R.MBX_XCNT_CROSSED, R.MBX_EVT_BITS (c.val / 8)] ++ (mbxWords.map (fun k => R.MBX_DATA_DATA (c.val * 16 + k))) ++ logFields) [.tick, .lanes, .log, .mbx, .fw] s t) ∧
  (∀ (s : State),
      (s.on R.DEV_DIE_STAT_KFW_RUN = false ∨ s.fw.held = []) →
      ∃ t, Sys2Proof.Machine.exec (.notifyPost) s = .next t ∧
        Frame [] [] s t) ∧
  (∀ (s : State) (h : Held) (c : Fin 16),
      let n := h.bytes.length / 4
      s.on R.DEV_DIE_STAT_KFW_RUN = true →
      s.firstHeld 0 = some h →
      s.notifyChannel h = some c.val →
      h.bytes.length = 4 * n →
      n ≤ 16 →
      ∃ t, Sys2Proof.Machine.exec (.notifyPost) s = .next t ∧
        t.rd (R.MBX_STAT_STATE c.val) = 2 ∧
        t.rd (R.MBX_STAT_OWNER c.val) = 3 ∧
        t.fw = { s.fw with held := s.fw.held.erase h, posted := IMap.put [] s.fw.posted c.val h.bytes } ∧
        (∀ k : Fin 16, k.val < n → k.val ≠ 1 → t.rd (R.MBX_DATA_DATA (c.val * 16 + k.val)) = leAt h.bytes (4 * k.val) 4 % 2 ^ 32) ∧
        bit (t.rd (R.MBX_EVT_BITS (c.val / 8))) (0 + c.val % 8) = true ∧
        t.rd (R.MBX_DATA_DATA (c.val * 16 + 1)) / 2 ^ 24 = 3 ∧
        Frame ([R.MBX_STAT_STATE c.val, R.MBX_STAT_OWNER c.val, R.MBX_STAT_LAST_SENDER c.val, R.MBX_EVT_BITS (c.val / 8)] ++ (mbxWords.map (fun k => R.MBX_DATA_DATA (c.val * 16 + k)))) [.fw] s t) ∧
  (∀ (s : State),
      s.on R.DEV_DIE_STAT_KFW_RUN = true →
      (postHeld 0 s).1 = false →
      (postHeld 1 s).1 = false →
      ∃ t, Sys2Proof.Machine.exec (.notifyPost) s = .next t ∧
        Frame [] [] s t) ∧
  (∀ (s : State) (h : Held) (c : Fin 16),
      s.on R.DEV_DIE_STAT_KFW_RUN = true →
      (postHeld 0 s).1 = false →
      s.firstHeld 1 = some h →
      s.notifyChannel h = some c.val →
      ∃ t, Sys2Proof.Machine.exec (.notifyPost) s = .next t ∧
        t.rd (R.MBX_STAT_STATE c.val) = 2 ∧
        t.rd (R.MBX_STAT_OWNER c.val) = 3 ∧
        t.fw = { s.fw with held := s.fw.held.erase h, posted := IMap.put [] s.fw.posted c.val h.bytes } ∧
        Frame ([R.MBX_STAT_STATE c.val, R.MBX_STAT_OWNER c.val, R.MBX_STAT_LAST_SENDER c.val, R.MBX_EVT_BITS (c.val / 8)] ++ (mbxWords.map (fun k => R.MBX_DATA_DATA (c.val * 16 + k)))) [.fw] s t)

/-- REG_READ and REG_WRITE.  A REG_READ that passes checks 5 to 7 answers OK with its words in address order, with a PF1 read's side effects
for sender 0x02 and without any for another sender.  A REG_WRITE that passes them writes its pairs in order with the command's sender
and answers OK with the registers read back; a pair that sets a step port's GO from a sender other than 0x02 is DENIED with DETAIL 1 and
nothing is written.  A failed check is answered with its status and DETAIL.
Choices of the model that it rests on: log entries 67, 68, 69 and 74.
(Rests on 14_commands.md.) -/
def Obligations.RegisterCommands : Prop :=
  (∀ (s : State),
      (∀ c, s.fw.current = some c → ¬ (c.op % 256 = 0 ∧ c.op / 256 ≤ 12)) →
      ∃ t, Sys2Proof.Machine.exec (.regRead) s = .next t ∧
        Frame [] [] s t) ∧
  (∀ (s : State) (c : Cmd) (st d : Nat),
      s.fw.current = some c →
      c.op % 256 = 0 ∧ c.op / 256 ≤ 12 →
      (refusal (decide (c.len = 8)) ([(0, !(decide (c.num 0 4 % 4 = 0) && inRanges (c.op / 256) (c.num 0 4))), (4, decide (c.num 4 2 < 1) || decide (1024 < c.num 4 2) || !c.addrs.all (fun a => decide (a % 4 = 0) && inRanges (c.op / 256) a))] ++ c.reserved 6 2) (c.addrs.any s.windowOff) (s.holder c) = some (st, d)) →
      ∃ t, Sys2Proof.Machine.exec (.regRead) s = .next t ∧
        replied c st d [] s t = true ∧
        t.fw.current = none ∧
        Touches [.log, .srv, .rings, .stack, .mbx, .fw, .regs .mbx, .regs .wch, .regs .ring] s t) ∧
  (∀ (s : State) (c : Cmd),
      let r := readAll c.addrs [] s.begin
      s.fw.current = some c →
      c.op % 256 = 0 ∧ c.op / 256 ≤ 12 →
      (refusal (decide (c.len = 8)) ([(0, !(decide (c.num 0 4 % 4 = 0) && inRanges (c.op / 256) (c.num 0 4))), (4, decide (c.num 4 2 < 1) || decide (1024 < c.num 4 2) || !c.addrs.all (fun a => decide (a % 4 = 0) && inRanges (c.op / 256) a))] ++ c.reserved 6 2) (c.addrs.any s.windowOff) (s.holder c) = none) →
      c.sender = 2 →
      ∃ t, Sys2Proof.Machine.exec (.regRead) s = .next t ∧
        replied c 0 0 (r.1) r.2 t = true ∧
        t.fw.current = none ∧
        Touches Part.all s t ∧
        Touches [.log, .srv, .rings, .stack, .mbx, .fw, .regs .mbx, .regs .wch, .regs .ring] r.2 t) ∧
  (∀ (s : State) (c : Cmd),
      let u := c.addrs.foldl (fun s a => settleFor a s) s.begin
      s.fw.current = some c →
      c.op % 256 = 0 ∧ c.op / 256 ≤ 12 →
      (refusal (decide (c.len = 8)) ([(0, !(decide (c.num 0 4 % 4 = 0) && inRanges (c.op / 256) (c.num 0 4))), (4, decide (c.num 4 2 < 1) || decide (1024 < c.num 4 2) || !c.addrs.all (fun a => decide (a % 4 = 0) && inRanges (c.op / 256) a))] ++ c.reserved 6 2) (c.addrs.any s.windowOff) (s.holder c) = none) →
      c.sender ≠ 2 →
      ∃ t, Sys2Proof.Machine.exec (.regRead) s = .next t ∧
        replied c 0 0 (u.wordsAt c.addrs) u t = true ∧
        t.fw.current = none ∧
        Touches [.log, .srv, .rings, .stack, .mbx, .fw, .regs .mbx, .regs .wch, .regs .ring] s t ∧
        Touches [.log, .srv, .rings, .stack, .mbx, .fw, .regs .mbx, .regs .wch, .regs .ring] u t) ∧
  (∀ (s : State),
      (∀ c, s.fw.current = some c → ¬ (c.op % 256 = 1 ∧ c.op / 256 ≤ 12)) →
      ∃ t, Sys2Proof.Machine.exec (.regWrite) s = .next t ∧
        Frame [] [] s t) ∧
  (∀ (s : State) (c : Cmd) (st d : Nat),
      s.fw.current = some c →
      c.op % 256 = 1 ∧ c.op / 256 ≤ 12 →
      (refusal (decide (8 ≤ c.len ∧ c.len ≤ 4096 ∧ c.len % 8 = 0)) ((c.pairs.zipIdx).map (fun e => (8 * e.2, decide (e.1.1 % 4 ≠ 0) || !inRanges (c.op / 256) e.1.1))) (c.pairs.any (fun p => s.windowOff p.1)) (s.holder c) = some (st, d)) →
      ∃ t, Sys2Proof.Machine.exec (.regWrite) s = .next t ∧
        replied c st d [] s t = true ∧
        t.fw.current = none ∧
        Touches [.log, .srv, .rings, .stack, .mbx, .fw, .regs .mbx, .regs .wch, .regs .ring] s t) ∧
  (∀ (s : State) (c : Cmd),
      let u := writePairs c.sender c.pairs s.begin
      s.fw.current = some c →
      c.op % 256 = 1 ∧ c.op / 256 ≤ 12 →
      (refusal (decide (8 ≤ c.len ∧ c.len ≤ 4096 ∧ c.len % 8 = 0)) ((c.pairs.zipIdx).map (fun e => (8 * e.2, decide (e.1.1 % 4 ≠ 0) || !inRanges (c.op / 256) e.1.1))) (c.pairs.any (fun p => s.windowOff p.1)) (s.holder c) = none) →
      (c.sender = 2 ∨ c.pairs.any stepPair = false) →
      u.fw.current.isSome = true →
      ∃ t, Sys2Proof.Machine.exec (.regWrite) s = .next t ∧
        replied c 0 0 (u.wordsAt (c.pairs.map (·.1))) u t = true ∧
        t.fw.current = none ∧
        Touches Part.all s t ∧
        Touches [.log, .srv, .rings, .stack, .mbx, .fw, .regs .mbx, .regs .wch, .regs .ring] u t) ∧
  (∀ (s : State) (c : Cmd),
      let u := writePairs c.sender c.pairs s.begin
      s.fw.current = some c →
      c.op % 256 = 1 ∧ c.op / 256 ≤ 12 →
      (refusal (decide (8 ≤ c.len ∧ c.len ≤ 4096 ∧ c.len % 8 = 0)) ((c.pairs.zipIdx).map (fun e => (8 * e.2, decide (e.1.1 % 4 ≠ 0) || !inRanges (c.op / 256) e.1.1))) (c.pairs.any (fun p => s.windowOff p.1)) (s.holder c) = none) →
      (c.sender = 2 ∨ c.pairs.any stepPair = false) →
      u.fw.current = none →
      ∃ t, Sys2Proof.Machine.exec (.regWrite) s = .next t ∧
        Frame [] [] u t) ∧
  (∀ (s : State) (c : Cmd),
      s.fw.current = some c →
      c.op % 256 = 1 ∧ c.op / 256 ≤ 12 →
      (refusal (decide (8 ≤ c.len ∧ c.len ≤ 4096 ∧ c.len % 8 = 0)) ((c.pairs.zipIdx).map (fun e => (8 * e.2, decide (e.1.1 % 4 ≠ 0) || !inRanges (c.op / 256) e.1.1))) (c.pairs.any (fun p => s.windowOff p.1)) (s.holder c) = none) →
      c.sender ≠ 2 →
      c.pairs.any stepPair = true →
      ∃ t, Sys2Proof.Machine.exec (.regWrite) s = .next t ∧
        replied c 4 1 [] s t = true ∧
        t.fw.current = none ∧
        Touches [.log, .srv, .rings, .stack, .mbx, .fw, .regs .mbx, .regs .wch, .regs .ring] s t)

/-- NOP, IDENT, RESULT, CFG_STAGE, CFG_COMMIT, CFG_READ.  NOP echoes its parameters; IDENT answers the identity words, the firmware version
and MOR_STAT; RESULT the outcome kept for a tag and opcode of the sender.  CFG_STAGE writes its bytes into the staging area.  A
CFG_COMMIT of another length than the staged image's is BAD_PARAM, one whose image fails its checks is DENIED with ERR set, a good one
begins the commit and answers DEFERRED with bound 10 s.  CFG_READ answers the bytes of a flash slot.  A failed check is answered with
its status.
Choices of the model that it rests on: log entries 33, 48, 67, 68, 70, 71 and 72.
(Rests on 14_commands.md; 15_power_boot_config.md.) -/
def Obligations.ConfigCommands : Prop :=
  (∀ (s : State),
      (∀ c, s.fw.current = some c → ¬ (c.op = 0x0010)) →
      ∃ t, Sys2Proof.Machine.exec (.nop) s = .next t ∧
        Frame [] [] s t) ∧
  (∀ (s : State) (c : Cmd) (st d : Nat),
      s.fw.current = some c →
      c.op = 0x0010 →
      refusal (decide (c.len ≤ 4096)) ([]) (false) (s.holder c) = some (st, d) →
      ∃ t, Sys2Proof.Machine.exec (.nop) s = .next t ∧
        replied c st d [] s t = true ∧
        t.fw.current = none ∧
        Touches [.log, .srv, .rings, .stack, .mbx, .fw, .regs .mbx, .regs .wch, .regs .ring] s t) ∧
  (∀ (s : State) (c : Cmd),
      s.fw.current = some c →
      c.op = 0x0010 →
      refusal (decide (c.len ≤ 4096)) ([]) (false) (s.holder c) = none →
      ∃ t, Sys2Proof.Machine.exec (.nop) s = .next t ∧
        replied c 0 0 (c.params) s t = true ∧
        t.fw.current = none ∧
        Touches [.log, .srv, .rings, .stack, .mbx, .fw, .regs .mbx, .regs .wch, .regs .ring] s t) ∧
  (∀ (s : State),
      (∀ c, s.fw.current = some c → ¬ (c.op = 0x0011)) →
      ∃ t, Sys2Proof.Machine.exec (.ident) s = .next t ∧
        Frame [] [] s t) ∧
  (∀ (s : State) (c : Cmd) (st d : Nat),
      s.fw.current = some c →
      c.op = 0x0011 →
      refusal (decide (c.len = 0)) ([]) (false) (s.holder c) = some (st, d) →
      ∃ t, Sys2Proof.Machine.exec (.ident) s = .next t ∧
        replied c st d [] s t = true ∧
        t.fw.current = none ∧
        Touches [.log, .srv, .rings, .stack, .mbx, .fw, .regs .mbx, .regs .wch, .regs .ring] s t) ∧
  (∀ (s : State) (c : Cmd),
      s.fw.current = some c →
      c.op = 0x0011 →
      refusal (decide (c.len = 0)) ([]) (false) (s.holder c) = none →
      ∃ t, Sys2Proof.Machine.exec (.ident) s = .next t ∧
        replied c 0 0 (s.wordsAt [Reg.DEV_IDENT.addr, Reg.DEV_UID_LO.addr, Reg.DEV_UID_HI.addr, Reg.DEV_DIE_STAT.addr] ++ le 4 s.version ++ s.wordsAt [Reg.MOR_STAT.addr]) s t = true ∧
        t.fw.current = none ∧
        Touches [.log, .srv, .rings, .stack, .mbx, .fw, .regs .mbx, .regs .wch, .regs .ring] s t) ∧
  (∀ (s : State),
      (∀ c, s.fw.current = some c → ¬ (c.op = 0x0012)) →
      ∃ t, Sys2Proof.Machine.exec (.result) s = .next t ∧
        Frame [] [] s t) ∧
  (∀ (s : State) (c : Cmd) (st d : Nat),
      s.fw.current = some c →
      c.op = 0x0012 →
      refusal (decide (c.len = 4)) ([]) ((s.keptFor c).isNone) (s.holder c) = some (st, d) →
      ∃ t, Sys2Proof.Machine.exec (.result) s = .next t ∧
        replied c st d [] s t = true ∧
        t.fw.current = none ∧
        Touches [.log, .srv, .rings, .stack, .mbx, .fw, .regs .mbx, .regs .wch, .regs .ring] s t) ∧
  (∀ (s : State) (c : Cmd) (k : Kept),
      s.fw.current = some c →
      c.op = 0x0012 →
      refusal (decide (c.len = 4)) ([]) ((s.keptFor c).isNone) (s.holder c) = none →
      s.keptFor c = some k →
      ∃ t, Sys2Proof.Machine.exec (.result) s = .next t ∧
        replied c 0 0 ([k.status, 0, 0, 0] ++ le 4 k.detail ++ ktBytes k.time) s t = true ∧
        t.fw.current = none ∧
        Touches [.log, .srv, .rings, .stack, .mbx, .fw, .regs .mbx, .regs .wch, .regs .ring] s t) ∧
  (∀ (s : State),
      (∀ c, s.fw.current = some c → ¬ (c.op = 0x0110)) →
      ∃ t, Sys2Proof.Machine.exec (.cfgStage) s = .next t ∧
        Frame [] [] s t) ∧
  (∀ (s : State) (c : Cmd) (st d : Nat),
      s.fw.current = some c →
      c.op = 0x0110 →
      refusal (decide (5 ≤ c.len ∧ c.len ≤ 4096)) ([(0, decide (2097152 < c.num 0 4 + (c.len - 4)))]) (false) (s.holder c) = some (st, d) →
      ∃ t, Sys2Proof.Machine.exec (.cfgStage) s = .next t ∧
        replied c st d [] s t = true ∧
        t.fw.current = none ∧
        Touches [.log, .srv, .rings, .stack, .mbx, .fw, .regs .mbx, .regs .wch, .regs .ring] s t) ∧
  (∀ (s : State) (c : Cmd),
      s.fw.current = some c →
      c.op = 0x0110 →
      refusal (decide (5 ≤ c.len ∧ c.len ≤ 4096)) ([(0, decide (2097152 < c.num 0 4 + (c.len - 4)))]) (false) (s.holder c) = none →
      ∃ t, Sys2Proof.Machine.exec (.cfgStage) s = .next t ∧
        replied c 0 0 ([]) s t = true ∧
        (∀ k : Fin 4092, k.val < c.len - 4 → IMap.get 0 t.cfg.staging (c.num 0 4 + k.val) = c.b (4 + k.val)) ∧
        t.cfg = { s.cfg with staging := t.cfg.staging } ∧
        t.fw.current = none ∧
        Touches [.log, .srv, .rings, .stack, .mbx, .fw, .cfg, .regs .mbx, .regs .wch, .regs .ring] s t) ∧
  (∀ (s : State),
      (∀ c, s.fw.current = some c → ¬ (c.op = 0x0111)) →
      ∃ t, Sys2Proof.Machine.exec (.cfgCommit) s = .next t ∧
        Frame [] [] s t) ∧
  (∀ (s : State) (c : Cmd) (st d : Nat),
      s.fw.current = some c →
      c.op = 0x0111 →
      refusal (decide (c.len = 4)) ([]) (false) (s.holder c) = some (st, d) →
      ∃ t, Sys2Proof.Machine.exec (.cfgCommit) s = .next t ∧
        replied c st d [] s t = true ∧
        t.fw.current = none ∧
        Touches [.log, .srv, .rings, .stack, .mbx, .fw, .regs .mbx, .regs .wch, .regs .ring] s t) ∧
  (∀ (s : State) (c : Cmd),
      s.fw.current = some c →
      c.op = 0x0111 →
      refusal (decide (c.len = 4)) ([]) (false) (s.holder c) = none →
      c.num 0 4 ≠ 64 + hdrLength (s.cfg.stagedBytes 0 64) →
      ∃ t, Sys2Proof.Machine.exec (.cfgCommit) s = .next t ∧
        replied c 3 16 ([]) s t = true ∧
        t.fw.current = none ∧
        Touches [.log, .srv, .rings, .stack, .mbx, .fw, .regs .mbx, .regs .wch, .regs .ring] s t) ∧
  (∀ (s : State) (c : Cmd),
      s.fw.current = some c →
      c.op = 0x0111 →
      c.len = 4 →
      s.holder c = none →
      c.num 0 4 = 64 + hdrLength (s.cfg.stagedBytes 0 64) →
      s.stagedErr ≠ 0 →
      ∃ t, Sys2Proof.Machine.exec (.cfgCommit) s = .next t ∧
        replied c 4 2 [] s t = true ∧
        t.fw.current = none ∧
        t.rd R.CFG_STAT_ERR = s.stagedErr % 2 ^ R.CFG_STAT_ERR.width ∧
        t.cfg = s.cfg ∧
        Touches [.log, .srv, .rings, .stack, .mbx, .fw, .regs .mbx, .regs .pwr, .regs .wch, .regs .ring] s t) ∧
  (∀ (s : State) (c : Cmd),
      s.fw.current = some c →
      c.op = 0x0111 →
      c.len = 4 →
      s.holder c = none →
      c.num 0 4 = 64 + hdrLength (s.cfg.stagedBytes 0 64) →
      s.stagedErr = 0 →
      ∃ t, Sys2Proof.Machine.exec (.cfgCommit) s = .next t ∧
        replied c 7 10 [] s t = true ∧
        t.fw.current = none ∧
        t.rd R.CFG_STAT_COMMIT_BUSY = 1 ∧
        t.rd R.CFG_STAT_STEP = 1 ∧
        t.rd R.CFG_STAT_OTHER_VALID = 0 ∧
        (∃ j, t.cfg.commit = some j ∧ j.len = hdrLength (s.cfg.stagedBytes 0 64) ∧ j.slot = (if s.on R.CFG_STAT_ACTIVE_VALID then 1 - s.rd R.CFG_STAT_ACTIVE_SLOT else 0) ∧ j.seq = (if s.on R.CFG_STAT_ACTIVE_VALID then (s.rd R.CFG_SEQ_SEQ + 1) % 2 ^ 32 else 1)) ∧
        Touches [.log, .srv, .rings, .stack, .mbx, .fw, .cfg, .regs .mbx, .regs .pwr, .regs .wch, .regs .ring] s t) ∧
  (∀ (s : State),
      (∀ c, s.fw.current = some c → ¬ (c.op = 0x0112)) →
      ∃ t, Sys2Proof.Machine.exec (.cfgRead) s = .next t ∧
        Frame [] [] s t) ∧
  (∀ (s : State) (c : Cmd) (st d : Nat),
      s.fw.current = some c →
      c.op = 0x0112 →
      refusal (decide (c.len = 12)) ([c.below 0 2] ++ c.reserved 1 3 ++ [(4, decide (0x1000000 < c.num 4 4 + c.num 8 2)), c.inside 8 2 1 4096] ++ c.reserved 10 2) (false) (s.holder c) = some (st, d) →
      ∃ t, Sys2Proof.Machine.exec (.cfgRead) s = .next t ∧
        replied c st d [] s t = true ∧
        t.fw.current = none ∧
        Touches [.log, .srv, .rings, .stack, .mbx, .fw, .regs .mbx, .regs .wch, .regs .ring] s t) ∧
  (∀ (s : State) (c : Cmd),
      s.fw.current = some c →
      c.op = 0x0112 →
      refusal (decide (c.len = 12)) ([c.below 0 2] ++ c.reserved 1 3 ++ [(4, decide (0x1000000 < c.num 4 4 + c.num 8 2)), c.inside 8 2 1 4096] ++ c.reserved 10 2) (false) (s.holder c) = none →
      ∃ t, Sys2Proof.Machine.exec (.cfgRead) s = .next t ∧
        replied c 0 0 (s.cfg.flashBytes (slotBase (c.b 0) + c.num 4 4) (c.num 8 2)) s t = true ∧
        t.fw.current = none ∧
        Touches [.log, .srv, .rings, .stack, .mbx, .fw, .regs .mbx, .regs .wch, .regs .ring] s t)

/-- TIME_GET, STEP, SOL_GET, NAV_GET, TIM_RECORDS, HOURS_SET, SVC_SET, SVC_GET.  TIME_GET answers both timescales, their difference and four
registers of one latch; SOL_GET the six words of one solution; NAV_GET the newest record kept; TIM_RECORDS the oldest unread records
there is room for, with RD advanced past them; SVC_GET the entry.  STEP, HOURS_SET and SVC_SET write the registers of their block, begin
their action and wait; an hours write refused by its module is DENIED with DETAIL 2.  A failed check is answered with its status.
Choices of the model that it rests on: log entries 67, 68, 69, 70 and 72.
(Rests
on 14_commands.md.) -/
def Obligations.TimeCommands : Prop :=
  (∀ (s : State),
      (∀ c, s.fw.current = some c → ¬ (c.op = 0x0210)) →
      ∃ t, Sys2Proof.Machine.exec (.timeGet) s = .next t ∧
        Frame [] [] s t) ∧
  (∀ (s : State) (c : Cmd) (st d : Nat),
      s.fw.current = some c →
      c.op = 0x0210 →
      refusal (decide (c.len = 0)) ([]) (false) (s.holder c) = some (st, d) →
      ∃ t, Sys2Proof.Machine.exec (.timeGet) s = .next t ∧
        replied c st d [] s t = true ∧
        t.fw.current = none ∧
        Touches [.log, .srv, .rings, .stack, .mbx, .fw, .regs .mbx, .regs .wch, .regs .ring] s t) ∧
  (∀ (s : State) (c : Cmd),
      s.fw.current = some c →
      c.op = 0x0210 →
      refusal (decide (c.len = 0)) ([]) (false) (s.holder c) = none →
      ∃ t, Sys2Proof.Machine.exec (.timeGet) s = .next t ∧
        replied c 0 0 (ktBytes s.ts0 ++ ktBytes s.ts1 ++ le 8 (ofSigned 64 (satSigned 48 s.tsDiff)) ++ s.wordsAt [Reg.TSC_STAT.addr, Reg.TSC_UTC_OFS.addr, Reg.ENS_STAT.addr, Reg.ENS_ERR.addr]) s t = true ∧
        t.fw.current = none ∧
        Touches [.log, .srv, .rings, .stack, .mbx, .fw, .regs .mbx, .regs .wch, .regs .ring] s t) ∧
  (∀ (s : State),
      (∀ c, s.fw.current = some c → ¬ (c.op = 0x0211)) →
      ∃ t, Sys2Proof.Machine.exec (.step) s = .next t ∧
        Frame [] [] s t) ∧
  (∀ (s : State) (c : Cmd) (st d : Nat),
      s.fw.current = some c →
      c.op = 0x0211 →
      refusal (decide (c.len = 16)) ([c.below 0 2, c.below 1 2, c.below 2 2] ++ c.reserved 3 1 ++ [(9, decide (64 ≤ c.b 9))]) (false) (s.holder c) = some (st, d) →
      ∃ t, Sys2Proof.Machine.exec (.step) s = .next t ∧
        replied c st d [] s t = true ∧
        t.fw.current = none ∧
        Touches [.log, .srv, .rings, .stack, .mbx, .fw, .regs .mbx, .regs .wch, .regs .ring] s t) ∧
  (∀ (s : State) (c : Cmd),
      let b := c.b 0
      let u := [((Reg.TSC_STEP_FRAC b).addr, c.num 4 2), ((Reg.TSC_STEP_NS b).addr, c.num 6 4), ((Reg.TSC_STEP_SEC_LO b).addr, c.num 10 4), ((Reg.TSC_STEP_SEC_HI b).addr, c.num 14 2), ((Reg.TSC_STEP_CTL b).addr, 1 + 2 * c.b 1 + 4 * c.b 2 + 48)].foldl (fun s p => busWrite c.sender p.1 p.2 s) s.begin
      s.fw.current = some c →
      c.op = 0x0211 →
      refusal (decide (c.len = 16)) ([c.below 0 2, c.below 1 2, c.below 2 2] ++ c.reserved 3 1 ++ [(9, decide (64 ≤ c.b 9))]) (false) (s.holder c) = none →
      ∃ t, Sys2Proof.Machine.exec (.step) s = .next t ∧
        t.regs = u.regs ∧
        t.tick = u.tick ∧
        t.fw.running = s.fw.running ++ [{ id := s.fw.nextId, cmd := c, since := s.clk }] ∧
        t.fw.nextId = s.fw.nextId + 1 ∧
        (b = 0 → t.rd (R.TSC_STEP_NS_NS 0) = c.num 6 4 % 2 ^ 30 ∧ t.rd (R.TSC_STEP_FRAC_FRAC 0) = c.num 4 2 % 2 ^ 16) ∧
        t.fw.current = none ∧
        Touches Part.all s t) ∧
  (∀ (s : State),
      (∀ c, s.fw.current = some c → ¬ (c.op = 0x0410)) →
      ∃ t, Sys2Proof.Machine.exec (.solGet) s = .next t ∧
        Frame [] [] s t) ∧
  (∀ (s : State) (c : Cmd) (st d : Nat),
      s.fw.current = some c →
      c.op = 0x0410 →
      refusal (decide (c.len = 4)) ([c.below 0 2] ++ c.reserved 1 3) (false) (s.holder c) = some (st, d) →
      ∃ t, Sys2Proof.Machine.exec (.solGet) s = .next t ∧
        replied c st d [] s t = true ∧
        t.fw.current = none ∧
        Touches [.log, .srv, .rings, .stack, .mbx, .fw, .regs .mbx, .regs .wch, .regs .ring] s t) ∧
  (∀ (s : State) (c : Cmd),
      s.fw.current = some c →
      c.op = 0x0410 →
      refusal (decide (c.len = 4)) ([c.below 0 2] ++ c.reserved 1 3) (false) (s.holder c) = none →
      ∃ t, Sys2Proof.Machine.exec (.solGet) s = .next t ∧
        replied c 0 0 ((s.solWords (c.b 0)).flatMap (le 4)) s t = true ∧
        t.fw.current = none ∧
        Touches [.log, .srv, .rings, .stack, .mbx, .fw, .regs .mbx, .regs .wch, .regs .ring] s t) ∧
  (∀ (s : State),
      (∀ c, s.fw.current = some c → ¬ (c.op = 0x0411)) →
      ∃ t, Sys2Proof.Machine.exec (.navGet) s = .next t ∧
        Frame [] [] s t) ∧
  (∀ (s : State) (c : Cmd) (st d : Nat),
      s.fw.current = some c →
      c.op = 0x0411 →
      refusal (decide (c.len = 4)) ([c.below 0 4, c.below 1 6, c.inside 2 1 1 202] ++ c.reserved 3 1) ((s.newestNav c).isEmpty) (s.holder c) = some (st, d) →
      ∃ t, Sys2Proof.Machine.exec (.navGet) s = .next t ∧
        replied c st d [] s t = true ∧
        t.fw.current = none ∧
        Touches [.log, .srv, .rings, .stack, .mbx, .fw, .regs .mbx, .regs .wch, .regs .ring] s t) ∧
  (∀ (s : State) (c : Cmd),
      s.fw.current = some c →
      c.op = 0x0411 →
      refusal (decide (c.len = 4)) ([c.below 0 4, c.below 1 6, c.inside 2 1 1 202] ++ c.reserved 3 1) ((s.newestNav c).isEmpty) (s.holder c) = none →
      ∃ t, Sys2Proof.Machine.exec (.navGet) s = .next t ∧
        replied c 0 0 (s.newestNav c) s t = true ∧
        t.fw.current = none ∧
        Touches [.log, .srv, .rings, .stack, .mbx, .fw, .regs .mbx, .regs .wch, .regs .ring] s t) ∧
  (∀ (s : State),
      (∀ c, s.fw.current = some c → ¬ (c.op = 0x0510)) →
      ∃ t, Sys2Proof.Machine.exec (.timRecords) s = .next t ∧
        Frame [] [] s t) ∧
  (∀ (s : State) (c : Cmd) (st d : Nat),
      s.fw.current = some c →
      c.op = 0x0510 →
      refusal (decide (c.len = 4)) ([c.below 0 8, c.inside 1 1 1 128] ++ c.reserved 2 2) (false) (s.holder c) = some (st, d) →
      ∃ t, Sys2Proof.Machine.exec (.timRecords) s = .next t ∧
        replied c st d [] s t = true ∧
        t.fw.current = none ∧
        Touches [.log, .srv, .rings, .stack, .mbx, .fw, .regs .mbx, .regs .wch, .regs .ring] s t) ∧
  (∀ (s : State) (c : Cmd),
      let rd := s.rd (R.TIM_GRP_RD_RD (c.b 0))
      let n := min (min (c.b 1) (replyRoom c.path / 32)) ((s.rd (R.TIM_GRP_WR_WR (c.b 0)) + timRing - rd) % timRing)
      s.fw.current = some c →
      c.op = 0x0510 →
      refusal (decide (c.len = 4)) ([c.below 0 8, c.inside 1 1 1 128] ++ c.reserved 2 2) (false) (s.holder c) = none →
      ∃ t, Sys2Proof.Machine.exec (.timRecords) s = .next t ∧
        (replied c 0 0 ((List.range n).flatMap (fun k => s.ringRecord (c.b 0) (rd + k))) s t = true) ∧
        t.rd (R.TIM_GRP_RD_RD (c.b 0)) = (rd + n) % timRing % 2 ^ (R.TIM_GRP_RD_RD (c.b 0)).width ∧
        t.fw.current = none ∧
        Touches [.log, .srv, .rings, .stack, .mbx, .fw, .regs .tim, .regs .mbx, .regs .wch, .regs .ring] s t) ∧
  (∀ (s : State),
      (∀ c, s.fw.current = some c → ¬ (c.op = 0x0610)) →
      ∃ t, Sys2Proof.Machine.exec (.svcSet) s = .next t ∧
        Frame [] [] s t) ∧
  (∀ (s : State) (c : Cmd) (st d : Nat),
      s.fw.current = some c →
      c.op = 0x0610 →
      refusal (decide (c.len = 28)) ([c.below 0 32, c.below 1 128] ++ c.reserved 2 2) (s.dieOff (c.b 0 / 8)) (s.holder c) = some (st, d) →
      ∃ t, Sys2Proof.Machine.exec (.svcSet) s = .next t ∧
        replied c st d [] s t = true ∧
        t.fw.current = none ∧
        Touches [.log, .srv, .rings, .stack, .mbx, .fw, .regs .mbx, .regs .wch, .regs .ring] s t) ∧
  (∀ (s : State) (c : Cmd),
      s.fw.current = some c →
      c.op = 0x0610 →
      refusal (decide (c.len = 28)) ([c.below 0 32, c.below 1 128] ++ c.reserved 2 2) (s.dieOff (c.b 0 / 8)) (s.holder c) = none →
      (s.svcTwice (c.b 0) (c.b 1) (svcEntry ((List.range 6).map (fun k => c.num (4 + 4 * k) 4))) = false) →
      (∀ k : Fin 4, s.on (R.PTP_INST_CFG_EN (c.b 0 * 4 + k.val)) = false ∨ s.rd (R.PTP_INST_CFG_SVC (c.b 0 * 4 + k.val)) ≠ c.b 1) →
      ∃ t, Sys2Proof.Machine.exec (.svcSet) s = .next t ∧
        (t.svc (c.b 0) (c.b 1) = svcEntry ((List.range 6).map (fun k => c.num (4 + 4 * k) 4))) ∧
        (∃ r ∈ t.fw.running, r.id = s.fw.nextId ∧ r.cmd = c ∧ r.ending.map (fun e => (e.status, e.detail)) = some (0, 0)) ∧
        t.fw.nextId = s.fw.nextId + 1 ∧
        t.fw.current = none ∧
        Touches Part.all s t) ∧
  (∀ (s : State) (c : Cmd),
      s.fw.current = some c →
      c.op = 0x0610 →
      refusal (decide (c.len = 28)) ([c.below 0 32, c.below 1 128] ++ c.reserved 2 2) (s.dieOff (c.b 0 / 8)) (s.holder c) = none →
      (s.svcTwice (c.b 0) (c.b 1) (svcEntry ((List.range 6).map (fun k => c.num (4 + 4 * k) 4))) = true) →
      ∃ t, Sys2Proof.Machine.exec (.svcSet) s = .next t ∧
        (∀ p i, t.svc p i = s.svc p i) ∧
        t.rd (R.MAC_SVC_CMD_REFUSED (c.b 0)) = 1 ∧
        (∃ r ∈ t.fw.running, r.id = s.fw.nextId ∧ r.cmd = c ∧ r.ending.map (fun e => (e.status, e.detail)) = some (4, 2)) ∧
        t.fw.current = none ∧
        Touches Part.all s t) ∧
  (∀ (s : State),
      (∀ c, s.fw.current = some c → ¬ (c.op = 0x0611)) →
      ∃ t, Sys2Proof.Machine.exec (.svcGet) s = .next t ∧
        Frame [] [] s t) ∧
  (∀ (s : State) (c : Cmd) (st d : Nat),
      s.fw.current = some c →
      c.op = 0x0611 →
      refusal (decide (c.len = 4)) ([c.below 0 32, c.below 1 128] ++ c.reserved 2 2) (s.dieOff (c.b 0 / 8)) (s.holder c) = some (st, d) →
      ∃ t, Sys2Proof.Machine.exec (.svcGet) s = .next t ∧
        replied c st d [] s t = true ∧
        t.fw.current = none ∧
        Touches [.log, .srv, .rings, .stack, .mbx, .fw, .regs .mbx, .regs .wch, .regs .ring] s t) ∧
  (∀ (s : State) (c : Cmd),
      s.fw.current = some c →
      c.op = 0x0611 →
      refusal (decide (c.len = 4)) ([c.below 0 32, c.below 1 128] ++ c.reserved 2 2) (s.dieOff (c.b 0 / 8)) (s.holder c) = none →
      ∃ t, Sys2Proof.Machine.exec (.svcGet) s = .next t ∧
        (replied c 0 0 ([0, 1, 2, 3, 4, 5].flatMap (fun k => le 4 (svcWord (s.svc (c.b 0) (c.b 1)) k))) s t = true) ∧
        t.fw.current = none ∧
        Touches [.log, .srv, .rings, .stack, .mbx, .fw, .regs .mbx, .regs .wch, .regs .ring] s t) ∧
  (∀ (s : State),
      (∀ c, s.fw.current = some c → ¬ (c.op = 0x0C10)) →
      ∃ t, Sys2Proof.Machine.exec (.hoursSet) s = .next t ∧
        Frame [] [] s t) ∧
  (∀ (s : State) (c : Cmd) (st d : Nat),
      s.fw.current = some c →
      c.op = 0x0C10 →
      refusal (decide (c.len = 8)) ([c.below 0 2] ++ c.reserved 1 3) (decide (s.rfmState (c.b 0) = .empty)) (s.holder c) = some (st, d) →
      ∃ t, Sys2Proof.Machine.exec (.hoursSet) s = .next t ∧
        replied c st d [] s t = true ∧
        t.fw.current = none ∧
        Touches [.log, .srv, .rings, .stack, .mbx, .fw, .regs .mbx, .regs .wch, .regs .ring] s t) ∧
  (∀ (s : State) (c : Cmd),
      let p := c.b 0
      let u := busWrite c.sender (Reg.RFM_HOURS_CMD p).addr 7 (busWrite c.sender (Reg.RFM_HOURS_SET p).addr (c.num 4 4) s.begin)
      s.fw.current = some c →
      c.op = 0x0C10 →
      refusal (decide (c.len = 8)) ([c.below 0 2] ++ c.reserved 1 3) (decide (s.rfmState (c.b 0) = .empty)) (s.holder c) = none →
      ∃ t, Sys2Proof.Machine.exec (.hoursSet) s = .next t ∧
        (u.on (R.RFM_HOURS_CMD_REFUSED p) = true → replied c 4 2 [] u t = true) ∧
        (u.on (R.RFM_HOURS_CMD_REFUSED p) = false → t.fw.running = s.fw.running ++ [{ id := s.fw.nextId, cmd := c, since := s.clk }] ∧ t.regs = u.regs ∧ t.rfm = u.rfm) ∧
        t.fw.current = none ∧
        Touches Part.all s t)

/-- KEY_LOAD, KEY_PROMOTE, KEY_RETIRE, KEY_STATUS, CST_LOOKUP, CST_REMOVE, CST_DUMP, GRANT_READ.  A key change that passes its checks waits
for the first whole millisecond at least 100 µs on, with KEY_PEND set on every die that is up; KEY_STATUS, and a promotion of the
CURRENT slot, are over at once with the key reply; retiring the CURRENT slot is DENIED.  Every key reply carries the 20 bytes.
CST_LOOKUP answers a client's entry and bucket, CST_REMOVE frees it, or waits while a response to it waits to commit, CST_DUMP answers
the ways of its buckets, GRANT_READ its entries.  A failed check is answered with its status.
Choices of the model that it rests on: log entries 67, 68, 70, 71 and 72.
(Rests on 09_nts.md; 14_commands.md.) -/
def Obligations.ServiceCommands : Prop :=
  (∀ (s : State),
      (∀ c, s.fw.current = some c → ¬ (c.op = 0x0710)) →
      ∃ t, Sys2Proof.Machine.exec (.keyLoad) s = .next t ∧
        Frame [] [] s t) ∧
  (∀ (s : State) (c : Cmd) (st d : Nat),
      s.fw.current = some c →
      c.op = 0x0710 →
      (refusal (decide (c.len = 40)) ([(0, decide (4 ≤ c.b 0) || decide ((s.keySlot (c.b 0)).1 ≠ 0))] ++ c.reserved 1 3 ++ [(4, decide (beAt c.bytes 20 4 = 0) || keySlots.any (fun j => decide (j ≠ c.b 0) && decide ((s.keySlot j).1 ≠ 0) && decide ((s.keySlot j).2.1 = beAt c.bytes 20 4)))]) (false) (s.holder c) = some (st, d)) →
      ∃ t, Sys2Proof.Machine.exec (.keyLoad) s = .next t ∧
        replied c st d s.keyReply s t = true ∧
        t.fw.current = none ∧
        Touches [.log, .srv, .rings, .stack, .mbx, .fw, .regs .mbx, .regs .wch, .regs .ring] s t) ∧
  (∀ (s : State) (c : Cmd),
      s.fw.current = some c →
      c.op = 0x0710 →
      (refusal (decide (c.len = 40)) ([(0, decide (4 ≤ c.b 0) || decide ((s.keySlot (c.b 0)).1 ≠ 0))] ++ c.reserved 1 3 ++ [(4, decide (beAt c.bytes 20 4 = 0) || keySlots.any (fun j => decide (j ≠ c.b 0) && decide ((s.keySlot j).1 ≠ 0) && decide ((s.keySlot j).2.1 = beAt c.bytes 20 4)))]) (false) (s.holder c) = none) →
      ∃ t, Sys2Proof.Machine.exec (.keyLoad) s = .next t ∧
        t.srv.keyChange = some { op := c.op, slot := c.b 0, ready := s.clk + 100 * 65536000, id := beAt c.bytes 20 4, key := (c.params.drop 8).take 32 } ∧
        t.srv.keys = s.srv.keys ∧
        t.fw.running = s.fw.running ++ [{ id := s.fw.nextId, cmd := c, since := s.clk }] ∧
        t.fw.nextId = s.fw.nextId + 1 ∧
        (∀ d : Fin 4, s.dieOff d.val = false → t.rd (R.NTS_STAT_KEY_PEND d.val) = 1) ∧
        t.fw.current = none ∧
        Touches [.log, .srv, .rings, .stack, .mbx, .fw, .regs .mbx, .regs .wch, .regs .nts, .regs .ring] s t) ∧
  (∀ (s : State),
      (∀ c, s.fw.current = some c → ¬ (c.op = 0x0711)) →
      ∃ t, Sys2Proof.Machine.exec (.keyPromote) s = .next t ∧
        Frame [] [] s t) ∧
  (∀ (s : State) (c : Cmd) (st d : Nat),
      s.fw.current = some c →
      c.op = 0x0711 →
      refusal (decide (c.len = 4)) ([(0, decide (4 ≤ c.b 0) || decide ((s.keySlot (c.b 0)).1 = 0))] ++ c.reserved 1 3) (false) (s.holder c) = some (st, d) →
      ∃ t, Sys2Proof.Machine.exec (.keyPromote) s = .next t ∧
        replied c st d s.keyReply s t = true ∧
        t.fw.current = none ∧
        Touches [.log, .srv, .rings, .stack, .mbx, .fw, .regs .mbx, .regs .wch, .regs .ring] s t) ∧
  (∀ (s : State) (c : Cmd),
      s.fw.current = some c →
      c.op = 0x0711 →
      refusal (decide (c.len = 4)) ([(0, decide (4 ≤ c.b 0) || decide ((s.keySlot (c.b 0)).1 = 0))] ++ c.reserved 1 3) (false) (s.holder c) = none →
      (s.keySlot (c.b 0)).1 ≠ 2 →
      ∃ t, Sys2Proof.Machine.exec (.keyPromote) s = .next t ∧
        t.srv.keyChange = some { op := c.op, slot := c.b 0, ready := s.clk + 100 * 65536000 } ∧
        t.srv.keys = s.srv.keys ∧
        t.fw.running = s.fw.running ++ [{ id := s.fw.nextId, cmd := c, since := s.clk }] ∧
        t.fw.nextId = s.fw.nextId + 1 ∧
        (∀ d : Fin 4, s.dieOff d.val = false → t.rd (R.NTS_STAT_KEY_PEND d.val) = 1) ∧
        t.fw.current = none ∧
        Touches [.log, .srv, .rings, .stack, .mbx, .fw, .regs .mbx, .regs .wch, .regs .nts, .regs .ring] s t) ∧
  (∀ (s : State) (c : Cmd),
      s.fw.current = some c →
      c.op = 0x0711 →
      c.len = 4 →
      c.b 0 < 4 →
      (s.keySlot (c.b 0)).1 = 2 →
      c.b 1 = 0 ∧ c.b 2 = 0 ∧ c.b 3 = 0 →
      s.holder c = none →
      ∃ t, Sys2Proof.Machine.exec (.keyPromote) s = .next t ∧
        t.srv = s.srv ∧
        (∃ r ∈ t.fw.running, r.id = s.fw.nextId ∧ r.cmd = c ∧ r.ending = some { status := 0, detail := 0, params := s.keyReply, time := s.ts0 }) ∧
        t.fw.current = none ∧
        Touches [.log, .srv, .rings, .stack, .mbx, .fw, .regs .mbx, .regs .wch, .regs .nts, .regs .ring] s t) ∧
  (∀ (s : State),
      (∀ c, s.fw.current = some c → ¬ (c.op = 0x0712)) →
      ∃ t, Sys2Proof.Machine.exec (.keyRetire) s = .next t ∧
        Frame [] [] s t) ∧
  (∀ (s : State) (c : Cmd) (st d : Nat),
      s.fw.current = some c →
      c.op = 0x0712 →
      refusal (decide (c.len = 4)) ([(0, decide (4 ≤ c.b 0) || decide ((s.keySlot (c.b 0)).1 = 0))] ++ c.reserved 1 3) (false) (s.holder c) = some (st, d) →
      ∃ t, Sys2Proof.Machine.exec (.keyRetire) s = .next t ∧
        replied c st d s.keyReply s t = true ∧
        t.fw.current = none ∧
        Touches [.log, .srv, .rings, .stack, .mbx, .fw, .regs .mbx, .regs .wch, .regs .ring] s t) ∧
  (∀ (s : State) (c : Cmd),
      s.fw.current = some c →
      c.op = 0x0712 →
      refusal (decide (c.len = 4)) ([(0, decide (4 ≤ c.b 0) || decide ((s.keySlot (c.b 0)).1 = 0))] ++ c.reserved 1 3) (false) (s.holder c) = none →
      (s.keySlot (c.b 0)).1 ≠ 2 →
      ∃ t, Sys2Proof.Machine.exec (.keyRetire) s = .next t ∧
        t.srv.keyChange = some { op := c.op, slot := c.b 0, ready := s.clk + 100 * 65536000 } ∧
        t.srv.keys = s.srv.keys ∧
        t.fw.running = s.fw.running ++ [{ id := s.fw.nextId, cmd := c, since := s.clk }] ∧
        t.fw.nextId = s.fw.nextId + 1 ∧
        (∀ d : Fin 4, s.dieOff d.val = false → t.rd (R.NTS_STAT_KEY_PEND d.val) = 1) ∧
        t.fw.current = none ∧
        Touches [.log, .srv, .rings, .stack, .mbx, .fw, .regs .mbx, .regs .wch, .regs .nts, .regs .ring] s t) ∧
  (∀ (s : State) (c : Cmd),
      s.fw.current = some c →
      c.op = 0x0712 →
      c.len = 4 →
      c.b 0 < 4 →
      (s.keySlot (c.b 0)).1 = 2 →
      c.b 1 = 0 ∧ c.b 2 = 0 ∧ c.b 3 = 0 →
      s.holder c = none →
      ∃ t, Sys2Proof.Machine.exec (.keyRetire) s = .next t ∧
        replied c 4 2 s.keyReply s t = true ∧
        t.srv.keys = s.srv.keys ∧
        t.srv.keyChange = s.srv.keyChange ∧
        t.fw.current = none ∧
        Touches [.log, .srv, .rings, .stack, .mbx, .fw, .regs .mbx, .regs .wch, .regs .ring] s t) ∧
  (∀ (s : State),
      (∀ c, s.fw.current = some c → ¬ (c.op = 0x0713)) →
      ∃ t, Sys2Proof.Machine.exec (.keyStatus) s = .next t ∧
        Frame [] [] s t) ∧
  (∀ (s : State) (c : Cmd) (st d : Nat),
      s.fw.current = some c →
      c.op = 0x0713 →
      refusal (decide (c.len = 0)) ([]) (false) (s.holder c) = some (st, d) →
      ∃ t, Sys2Proof.Machine.exec (.keyStatus) s = .next t ∧
        replied c st d s.keyReply s t = true ∧
        t.fw.current = none ∧
        Touches [.log, .srv, .rings, .stack, .mbx, .fw, .regs .mbx, .regs .wch, .regs .ring] s t) ∧
  (∀ (s : State) (c : Cmd),
      s.fw.current = some c →
      c.op = 0x0713 →
      refusal (decide (c.len = 0)) ([]) (false) (s.holder c) = none →
      ∃ t, Sys2Proof.Machine.exec (.keyStatus) s = .next t ∧
        t.srv = s.srv ∧
        (∃ r ∈ t.fw.running, r.id = s.fw.nextId ∧ r.cmd = c ∧ r.ending = some { status := 0, detail := 0, params := s.keyReply, time := s.ts0 }) ∧
        t.fw.current = none ∧
        Touches [.log, .srv, .rings, .stack, .mbx, .fw, .regs .mbx, .regs .wch, .regs .nts, .regs .ring] s t) ∧
  (∀ (s : State),
      (∀ c, s.fw.current = some c → ¬ (c.op = 0x0720)) →
      ∃ t, Sys2Proof.Machine.exec (.cstLookup) s = .next t ∧
        Frame [] [] s t) ∧
  (∀ (s : State) (c : Cmd) (st d : Nat),
      s.fw.current = some c →
      c.op = 0x0720 →
      refusal (decide (c.len = 28)) ([c.below 0 4, (1, decide (c.b 1 ≠ 4) && decide (c.b 1 ≠ 6))] ++ c.reserved 2 2 ++ [c.inside 22 2 0 4095, c.inside 24 2 0 4095] ++ c.reserved 26 2) (s.dieOff (c.b 0) || (s.namedEntry c).isNone) (s.holder c) = some (st, d) →
      ∃ t, Sys2Proof.Machine.exec (.cstLookup) s = .next t ∧
        replied c st d [] s t = true ∧
        t.fw.current = none ∧
        Touches [.log, .srv, .rings, .stack, .mbx, .fw, .regs .mbx, .regs .wch, .regs .ring] s t) ∧
  (∀ (s : State) (c : Cmd) (i : Nat),
      s.fw.current = some c →
      c.op = 0x0720 →
      refusal (decide (c.len = 28)) ([c.below 0 4, (1, decide (c.b 1 ≠ 4) && decide (c.b 1 ≠ 6))] ++ c.reserved 2 2 ++ [c.inside 22 2 0 4095, c.inside 24 2 0 4095] ++ c.reserved 26 2) (s.dieOff (c.b 0) || (s.namedEntry c).isNone) (s.holder c) = none →
      s.namedEntry c = some i →
      ∃ t, Sys2Proof.Machine.exec (.cstLookup) s = .next t ∧
        replied c 0 0 ((s.cst i).bytes ++ le 4 (i % 2097152 / 8)) s t = true ∧
        t.fw.current = none ∧
        Touches [.log, .srv, .rings, .stack, .mbx, .fw, .regs .mbx, .regs .wch, .regs .ring] s t) ∧
  (∀ (s : State),
      (∀ c, s.fw.current = some c → ¬ (c.op = 0x0721)) →
      ∃ t, Sys2Proof.Machine.exec (.cstRemove) s = .next t ∧
        Frame [] [] s t) ∧
  (∀ (s : State) (c : Cmd) (st d : Nat),
      s.fw.current = some c →
      c.op = 0x0721 →
      refusal (decide (c.len = 28)) ([c.below 0 4, (1, decide (c.b 1 ≠ 4) && decide (c.b 1 ≠ 6))] ++ c.reserved 2 2 ++ [c.inside 22 2 0 4095, c.inside 24 2 0 4095] ++ c.reserved 26 2) (s.dieOff (c.b 0) || (s.namedEntry c).isNone) (s.holder c) = some (st, d) →
      ∃ t, Sys2Proof.Machine.exec (.cstRemove) s = .next t ∧
        replied c st d [] s t = true ∧
        t.fw.current = none ∧
        Touches [.log, .srv, .rings, .stack, .mbx, .fw, .regs .mbx, .regs .wch, .regs .ring] s t) ∧
  (∀ (s : State) (c : Cmd) (i : Nat),
      s.fw.current = some c →
      c.op = 0x0721 →
      refusal (decide (c.len = 28)) ([c.below 0 4, (1, decide (c.b 1 ≠ 4) && decide (c.b 1 ≠ 6))] ++ c.reserved 2 2 ++ [c.inside 22 2 0 4095, c.inside 24 2 0 4095] ++ c.reserved 26 2) (s.dieOff (c.b 0) || (s.namedEntry c).isNone) (s.holder c) = none →
      s.namedEntry c = some i →
      ∃ t, Sys2Proof.Machine.exec (.cstRemove) s = .next t ∧
        (t.cst i = (if s.cstWaited (c.b 0) i then s.cst i else {})) ∧
        (t.fw.running = s.fw.running ++ [{ id := s.fw.nextId, cmd := c, since := s.clk, ending := if s.cstWaited (c.b 0) i then none else some { time := s.ts0 } }]) ∧
        (∀ j, j ≠ i → t.cst j = s.cst j) ∧
        t.fw.current = none ∧
        Touches [.log, .srv, .rings, .stack, .mbx, .fw, .regs .mbx, .regs .wch, .regs .ring] s t) ∧
  (∀ (s : State),
      (∀ c, s.fw.current = some c → ¬ (c.op = 0x0722)) →
      ∃ t, Sys2Proof.Machine.exec (.cstDump) s = .next t ∧
        Frame [] [] s t) ∧
  (∀ (s : State) (c : Cmd) (st d : Nat),
      s.fw.current = some c →
      c.op = 0x0722 →
      refusal (decide (c.len = 12)) ([c.below 0 4] ++ c.reserved 1 3 ++ [c.inside 8 2 1 21] ++ c.reserved 10 2) (s.dieOff (c.b 0)) (s.holder c) = some (st, d) →
      ∃ t, Sys2Proof.Machine.exec (.cstDump) s = .next t ∧
        replied c st d [] s t = true ∧
        t.fw.current = none ∧
        Touches [.log, .srv, .rings, .stack, .mbx, .fw, .regs .mbx, .regs .wch, .regs .ring] s t) ∧
  (∀ (s : State) (c : Cmd),
      s.fw.current = some c →
      c.op = 0x0722 →
      refusal (decide (c.len = 12)) ([c.below 0 4] ++ c.reserved 1 3 ++ [c.inside 8 2 1 21] ++ c.reserved 10 2) (s.dieOff (c.b 0)) (s.holder c) = none →
      ∃ t, Sys2Proof.Machine.exec (.cstDump) s = .next t ∧
        (replied c 0 0 ((List.range (c.num 8 2)).flatMap (fun k => (ways (c.b 0) ((c.num 4 4 + k) % 262144)).flatMap (fun i => (s.cst i).bytes))) s t = true) ∧
        t.fw.current = none ∧
        Touches [.log, .srv, .rings, .stack, .mbx, .fw, .regs .mbx, .regs .wch, .regs .ring] s t) ∧
  (∀ (s : State),
      (∀ c, s.fw.current = some c → ¬ (c.op = 0x0810)) →
      ∃ t, Sys2Proof.Machine.exec (.grantRead) s = .next t ∧
        Frame [] [] s t) ∧
  (∀ (s : State) (c : Cmd) (st d : Nat),
      s.fw.current = some c →
      c.op = 0x0810 →
      refusal (decide (c.len = 8)) ([c.below 0 4] ++ c.reserved 1 1 ++ [c.inside 4 2 1 64] ++ c.reserved 6 2) (s.dieOff (c.b 0) || decide (16384 < c.num 2 2 + c.num 4 2)) (s.holder c) = some (st, d) →
      ∃ t, Sys2Proof.Machine.exec (.grantRead) s = .next t ∧
        replied c st d [] s t = true ∧
        t.fw.current = none ∧
        Touches [.log, .srv, .rings, .stack, .mbx, .fw, .regs .mbx, .regs .wch, .regs .ring] s t) ∧
  (∀ (s : State) (c : Cmd),
      s.fw.current = some c →
      c.op = 0x0810 →
      refusal (decide (c.len = 8)) ([c.below 0 4] ++ c.reserved 1 1 ++ [c.inside 4 2 1 64] ++ c.reserved 6 2) (s.dieOff (c.b 0) || decide (16384 < c.num 2 2 + c.num 4 2)) (s.holder c) = none →
      ∃ t, Sys2Proof.Machine.exec (.grantRead) s = .next t ∧
        (replied c 0 0 ((List.range (c.num 4 2)).flatMap (fun k => (s.grant (c.b 0 * 16384 + c.num 2 2 + k)).bytes)) s t = true) ∧
        t.fw.current = none ∧
        Touches [.log, .srv, .rings, .stack, .mbx, .fw, .regs .mbx, .regs .wch, .regs .ring] s t)

/-- RELAY, HANDOVER, RESET, WATCH_RUN, LOG_READ.  A RELAY to a held address with a path sends its inner packet and waits.  The master's
HANDOVER to a TRACKING target sends it and answers OK, else DENIED.  RESET answers OK and asks for its reset 1 ms on.  WATCH_RUN is BUSY
while another run is in progress, or without FORCE where a test would disturb service, with the mask of those tests; else it answers
DEFERRED with bound 600 s and the run begins.  LOG_READ answers the records from the first kept at or after a number.  A failed check is
answered with its status.
Choices of the model that it rests on: log entries 67, 68, 70, 72 and 109.
(Rests on 12_stacking.md; 14_commands.md; 16_watch_counters.md.) -/
def Obligations.SystemCommands : Prop :=
  (∀ (s : State),
      (∀ c, s.fw.current = some c → ¬ (c.op = 0x0910)) →
      ∃ t, Sys2Proof.Machine.exec (.relay) s = .next t ∧
        Frame [] [] s t) ∧
  (∀ (s : State) (c : Cmd) (st d : Nat),
      s.fw.current = some c →
      c.op = 0x0910 →
      refusal (decide (20 ≤ c.len ∧ c.len ≤ 1028)) ([(0, decide (c.b 0 = 0) || decide (8 < c.b 0) || decide (c.b 0 = s.stackAddr))] ++ c.reserved 1 3) ((s.relayLink (c.b 0)).isNone || !s.on (R.TND_NODE_INFO_PRESENT (c.b 0 - 1))) (s.holder c) = some (st, d) →
      ∃ t, Sys2Proof.Machine.exec (.relay) s = .next t ∧
        replied c st d [] s t = true ∧
        t.fw.current = none ∧
        Touches [.log, .srv, .rings, .stack, .mbx, .fw, .regs .mbx, .regs .wch, .regs .ring] s t) ∧
  (∀ (s : State) (c : Cmd) (l : Nat),
      s.fw.current = some c →
      c.op = 0x0910 →
      refusal (decide (20 ≤ c.len ∧ c.len ≤ 1028)) ([(0, decide (c.b 0 = 0) || decide (8 < c.b 0) || decide (c.b 0 = s.stackAddr))] ++ c.reserved 1 3) ((s.relayLink (c.b 0)).isNone || !s.on (R.TND_NODE_INFO_PRESENT (c.b 0 - 1))) (s.holder c) = none →
      s.relayLink (c.b 0) = some l →
      ∃ t, Sys2Proof.Machine.exec (.relay) s = .next t ∧
        t.out = .mooring l (morFrame 2 s.stackAddr (c.b 0) 7 (s.mor l).relaySeq (c.params.drop 4)) :: s.out ∧
        t.fw.running = s.fw.running ++ [{ id := s.fw.nextId, cmd := c, since := s.clk }] ∧
        t.fw.current = none ∧
        Touches [.log, .srv, .rings, .stack, .mbx, .fw, .regs .mbx, .regs .wch, .regs .ring] s t) ∧
  (∀ (s : State),
      (∀ c, s.fw.current = some c → ¬ (c.op = 0x0911)) →
      ∃ t, Sys2Proof.Machine.exec (.handover) s = .next t ∧
        Frame [] [] s t) ∧
  (∀ (s : State) (c : Cmd) (st d : Nat),
      s.fw.current = some c →
      c.op = 0x0911 →
      refusal (decide (c.len = 4)) ([c.inside 0 1 1 8] ++ c.reserved 1 3) (false) (s.holder c) = some (st, d) →
      ∃ t, Sys2Proof.Machine.exec (.handover) s = .next t ∧
        replied c st d [] s t = true ∧
        t.fw.current = none ∧
        Touches [.log, .srv, .rings, .stack, .mbx, .fw, .regs .mbx, .regs .wch, .regs .ring] s t) ∧
  (∀ (s : State) (c : Cmd),
      s.fw.current = some c →
      c.op = 0x0911 →
      refusal (decide (c.len = 4)) ([c.inside 0 1 1 8] ++ c.reserved 1 3) (false) (s.holder c) = none →
      s.isMaster = true →
      c.b 0 ≠ s.stackAddr →
      IMap.get none s.stack.engines (c.b 0) = some 2 →
      ∃ t, Sys2Proof.Machine.exec (.handover) s = .next t ∧
        replied c 0 0 ([]) s t = true ∧
        t.stack.handover = some (c.b 0, s.clk) ∧
        tndFrame 0xFF s.stackAddr 6 [c.b 0] ∈ t.stack.tx ∧
        t.fw.current = none ∧
        Touches [.log, .srv, .rings, .stack, .mbx, .fw, .regs .mbx, .regs .wch, .regs .ring] s t) ∧
  (∀ (s : State) (c : Cmd),
      s.fw.current = some c →
      c.op = 0x0911 →
      refusal (decide (c.len = 4)) ([c.inside 0 1 1 8] ++ c.reserved 1 3) false (s.holder c) = none →
      (s.isMaster = false ∨ c.b 0 = s.stackAddr ∨ IMap.get none s.stack.engines (c.b 0) ≠ some 2) →
      ∃ t, Sys2Proof.Machine.exec (.handover) s = .next t ∧
        replied c 4 2 [] s t = true ∧
        t.fw.current = none ∧
        Touches [.log, .srv, .rings, .stack, .mbx, .fw, .regs .mbx, .regs .wch, .regs .ring] s t) ∧
  (∀ (s : State),
      (∀ c, s.fw.current = some c → ¬ (c.op = 0x0A10)) →
      ∃ t, Sys2Proof.Machine.exec (.resetCmd) s = .next t ∧
        Frame [] [] s t) ∧
  (∀ (s : State) (c : Cmd) (st d : Nat),
      s.fw.current = some c →
      c.op = 0x0A10 →
      refusal (decide (c.len = 4)) ([c.inside 0 1 1 7] ++ c.reserved 1 3) (decide (4 ≤ c.b 0) && s.dieOff (c.b 0 - 4)) (s.holder c) = some (st, d) →
      ∃ t, Sys2Proof.Machine.exec (.resetCmd) s = .next t ∧
        replied c st d [] s t = true ∧
        t.fw.current = none ∧
        Touches [.log, .srv, .rings, .stack, .mbx, .fw, .regs .mbx, .regs .wch, .regs .ring] s t) ∧
  (∀ (s : State) (c : Cmd),
      s.fw.current = some c →
      c.op = 0x0A10 →
      refusal (decide (c.len = 4)) ([c.inside 0 1 1 7] ++ c.reserved 1 3) (decide (4 ≤ c.b 0) && s.dieOff (c.b 0 - 4)) (s.holder c) = none →
      ∃ t, Sys2Proof.Machine.exec (.resetCmd) s = .next t ∧
        replied c 0 0 ([]) s t = true ∧
        (t.rst = { s.rst with requests := s.rst.requests ++ ((resetKind (c.b 0)).map (fun v => (v, c.sender, s.clk + ms16 1))).toList }) ∧
        t.fw.current = none ∧
        Touches [.log, .srv, .rings, .stack, .mbx, .fw, .rst, .regs .mbx, .regs .wch, .regs .ring] s t) ∧
  (∀ (s : State),
      (∀ c, s.fw.current = some c → ¬ (c.op = 0x0B10)) →
      ∃ t, Sys2Proof.Machine.exec (.watchRun) s = .next t ∧
        Frame [] [] s t) ∧
  (∀ (s : State) (c : Cmd) (st d : Nat),
      s.fw.current = some c →
      c.op = 0x0B10 →
      refusal (decide (c.len = 8)) ([c.inside 0 4 1 255] ++ c.reserved 4 4) (false) (s.holder c) = some (st, d) →
      ∃ t, Sys2Proof.Machine.exec (.watchRun) s = .next t ∧
        replied c st d [] s t = true ∧
        t.fw.current = none ∧
        Touches [.log, .srv, .rings, .stack, .mbx, .fw, .regs .mbx, .regs .wch, .regs .ring] s t) ∧
  (∀ (s : State) (c : Cmd),
      s.fw.current = some c →
      c.op = 0x0B10 →
      refusal (decide (c.len = 8)) ([c.inside 0 4 1 255] ++ c.reserved 4 4) (false) (s.holder c) = none →
      s.watch.run = none →
      (c.force = true ∨ s.disturbing (c.num 0 4) = 0) →
      ∃ t, Sys2Proof.Machine.exec (.watchRun) s = .next t ∧
        replied c 7 600 ([]) s t = true ∧
        (∃ k ∈ t.fw.kept, k.sender = c.sender ∧ k.tag = c.tag ∧ k.opcode = c.op) ∧
        ((∀ x ∈ maskTests (c.num 0 4), s.watchEmpty x = false) →
          ∃ r, t.watch.run = some r ∧ r.tests = maskTests (c.num 0 4) ∧ r.sender = c.sender ∧ r.cmd = some s.fw.nextId ∧
            r.force = c.force ∧ r.scheduled = false) ∧
        t.fw.current = none ∧
        Touches [.tick, .lanes, .tim, .gnss, .log, .srv, .rings, .stack, .mbx, .fw, .watch, .regs .gns, .regs .tim, .regs .mbx, .regs .wch, .regs .nts, .regs .ring] s t) ∧
  (∀ (s : State) (c : Cmd),
      s.fw.current = some c →
      c.op = 0x0B10 →
      refusal (decide (c.len = 8)) ([c.inside 0 4 1 255] ++ c.reserved 4 4) false (s.holder c) = none →
      s.watch.run.isSome = true →
      ∃ t, Sys2Proof.Machine.exec (.watchRun) s = .next t ∧
        replied c 1 0x0B10 [] s t = true ∧
        t.fw.current = none ∧
        Touches [.log, .srv, .rings, .stack, .mbx, .fw, .regs .mbx, .regs .wch, .regs .ring] s t) ∧
  (∀ (s : State) (c : Cmd),
      s.fw.current = some c →
      c.op = 0x0B10 →
      refusal (decide (c.len = 8)) ([c.inside 0 4 1 255] ++ c.reserved 4 4) false (s.holder c) = none →
      s.watch.run = none →
      c.force = false →
      s.disturbing (c.num 0 4) ≠ 0 →
      ∃ t, Sys2Proof.Machine.exec (.watchRun) s = .next t ∧
        replied c 1 (s.disturbing (c.num 0 4)) [] s t = true ∧
        t.fw.current = none ∧
        Touches [.log, .srv, .rings, .stack, .mbx, .fw, .regs .mbx, .regs .wch, .regs .ring] s t) ∧
  (∀ (s : State),
      (∀ c, s.fw.current = some c → ¬ (c.op = 0x0B11)) →
      ∃ t, Sys2Proof.Machine.exec (.logRead) s = .next t ∧
        Frame [] [] s t) ∧
  (∀ (s : State) (c : Cmd) (st d : Nat),
      s.fw.current = some c →
      c.op = 0x0B11 →
      refusal (decide (c.len = 8)) ([c.inside 4 2 1 128] ++ c.reserved 6 2) (false) (s.holder c) = some (st, d) →
      ∃ t, Sys2Proof.Machine.exec (.logRead) s = .next t ∧
        replied c st d [] s t = true ∧
        t.fw.current = none ∧
        Touches [.log, .srv, .rings, .stack, .mbx, .fw, .regs .mbx, .regs .wch, .regs .ring] s t) ∧
  (∀ (s : State) (c : Cmd),
      let r := s.logFrom (c.num 0 4)
      s.fw.current = some c →
      c.op = 0x0B11 →
      refusal (decide (c.len = 8)) ([c.inside 4 2 1 128] ++ c.reserved 6 2) (false) (s.holder c) = none →
      ∃ t, Sys2Proof.Machine.exec (.logRead) s = .next t ∧
        (replied c 0 0 ((List.range (min (c.num 4 2) r.2)).flatMap (fun k => s.logSlot ((r.1 + k) % 2 ^ 32 % logSize))) s t = true) ∧
        t.fw.current = none ∧
        Touches [.log, .srv, .rings, .stack, .mbx, .fw, .regs .mbx, .regs .wch, .regs .ring] s t)

/-- FIRMWARE_TAKE, COMMAND_COMPLETE, COMMAND_TIMEOUT.  While it runs and has begun no command, the firmware takes the first of its queue: a
mailbox message that is no longer FULL is passed over, a command that fails one of checks 1 to 4 is answered with that status and
DETAIL, and any other is begun.  A running command whose action is over leaves the list and is answered as it ended; a deferred one's
outcome is kept for RESULT and a host function's is notified.  A waiting command not complete after 100 ms is answered TIMEOUT.  The
refusal or timeout of a key command carries its 20 bytes.
Choices of the model that it rests on: log entries 67, 68, 70, 71 and 73.
(Rests on 14_commands.md; 09_nts.md.) -/
def Obligations.CommandService : Prop :=
  (∀ (s : State),
      (s.on R.DEV_DIE_STAT_KFW_RUN = false ∨ s.fw.current.isSome = true ∨ s.fw.queue = []) →
      ∃ t, Sys2Proof.Machine.exec (.firmwareTake) s = .next t ∧
        Frame [] [] s t) ∧
  (∀ (s : State) (q : Cmd) (rest : List Cmd),
      s.on R.DEV_DIE_STAT_KFW_RUN = true →
      s.fw.current = none →
      s.fw.queue = q :: rest →
      s.serves q = false →
      ∃ t, Sys2Proof.Machine.exec (.firmwareTake) s = .next t ∧
        t.fw = { s.fw with queue := rest, cycleAt := s.clk } ∧
        Frame [] [.fw] s t) ∧
  (∀ (s : State) (q : Cmd) (rest : List Cmd),
      s.on R.DEV_DIE_STAT_KFW_RUN = true →
      s.fw.current = none →
      s.fw.queue = q :: rest →
      s.serves q = true →
      (s.readCmd q).headFault = none →
      ∃ t, Sys2Proof.Machine.exec (.firmwareTake) s = .next t ∧
        t.fw = { s.fw with queue := rest, cycleAt := s.clk, current := some (s.readCmd q) } ∧
        Frame [] [.mbx, .fw] s t) ∧
  (∀ (s : State) (q : Cmd) (rest : List Cmd) (st d : Nat),
      s.on R.DEV_DIE_STAT_KFW_RUN = true →
      s.fw.current = none →
      s.fw.queue = q :: rest →
      s.serves q = true →
      (s.readCmd q).headFault = some (st, d) →
      ∃ t, Sys2Proof.Machine.exec (.firmwareTake) s = .next t ∧
        replied (s.readCmd q) st d (if 0x0710 ≤ (s.readCmd q).op ∧ (s.readCmd q).op ≤ 0x0713 then s.keyReply else []) s t = true ∧
        t.fw.current = none ∧
        ((q.path ≠ .mbx 3 ∧ q.path ≠ .mbx 11) ∨ s.stack.relayQ = [] → t.fw.queue = rest) ∧
        Touches [.log, .srv, .rings, .stack, .mbx, .fw, .regs .mbx, .regs .wch, .regs .ring] s t) ∧
  (∀ (s : State) (id : Nat),
      s.runningAt id = none →
      ∃ t, Sys2Proof.Machine.exec (.commandComplete id) s = .next t ∧
        Frame [] [] s t) ∧
  (∀ (s : State) (id : Nat) (r : Running),
      s.runningAt id = some r →
      r.ending = none →
      r.cmd.op ≠ 0x0211 ∧ r.cmd.op ≠ 0x0C10 ∧ r.cmd.op ≠ 0x0721 →
      ∃ t, Sys2Proof.Machine.exec (.commandComplete id) s = .next t ∧
        Frame [] [] s t) ∧
  (∀ (s : State) (id : Nat) (r : Running) (e : Ending),
      s.runningAt id = some r →
      r.ending = some e →
      r.deferred = false →
      r.answered = false →
      ∃ t, Sys2Proof.Machine.exec (.commandComplete id) s = .next t ∧
        replied r.cmd e.status e.detail e.params s t = true ∧
        t.runningAt id = none ∧
        Touches [.log, .srv, .rings, .stack, .mbx, .fw, .regs .mbx, .regs .wch, .regs .ring] s t) ∧
  (∀ (s : State) (id : Nat) (r : Running) (e : Ending),
      s.runningAt id = some r →
      r.ending = some e →
      r.deferred = false →
      r.answered = true →
      ∃ t, Sys2Proof.Machine.exec (.commandComplete id) s = .next t ∧
        (t.fw = { s.fw with running := s.fw.running.filter (fun k => k.id ≠ id) }) ∧
        Frame [] [.fw] s t) ∧
  (∀ (s : State) (id : Nat) (r : Running) (e : Ending),
      s.runningAt id = some r →
      r.ending = some e →
      r.deferred = true →
      r.answered = false →
      ∃ t, Sys2Proof.Machine.exec (.commandComplete id) s = .next t ∧
        t.runningAt id = none ∧
        (r.cmd.sender = 1 ∨ r.cmd.sender = 2 → t.fw.held = s.fw.held ++ [{ fn := r.cmd.sender - 1, bytes := fwPacket r.cmd 5 e.status e.detail 12 (ktBytes e.time) }]) ∧
        (∀ k ∈ s.fw.kept, k.sender = r.cmd.sender ∧ k.tag = r.cmd.tag ∧ k.opcode = r.cmd.op ∧ k.status = 7 → { k with status := e.status, detail := e.detail, time := e.time } ∈ t.fw.kept) ∧
        Frame [] [.fw] s t) ∧
  (∀ (s : State) (id : Nat) (r : Running),
      s.runningAt id = some r →
      r.id = id →
      r.ending = none →
      r.cmd.op = 0x0211 →
      s.on (R.TSC_STEP_CTL_DENIED (r.cmd.b 0)) = true →
      r.deferred = false →
      r.answered = false →
      ∃ t, Sys2Proof.Machine.exec (.commandComplete id) s = .next t ∧
        replied r.cmd 4 2 [] s t = true ∧
        t.runningAt id = none ∧
        Touches [.log, .srv, .rings, .stack, .mbx, .fw, .regs .mbx, .regs .wch, .regs .ring] s t) ∧
  (∀ (s : State) (id : Nat) (r : Running),
      s.runningAt id = some r →
      r.id = id →
      r.ending = none →
      r.cmd.op = 0x0211 →
      s.on (R.TSC_STEP_CTL_DENIED (r.cmd.b 0)) = false →
      s.on (R.TSC_STEP_CTL_DONE (r.cmd.b 0)) = true →
      r.deferred = false →
      r.answered = false →
      ∃ t, Sys2Proof.Machine.exec (.commandComplete id) s = .next t ∧
        replied r.cmd 0 0 (ktBytes (s.tick.bank (bankAt (r.cmd.b 0))).stepRead) s t = true ∧
        t.runningAt id = none ∧
        Touches [.log, .srv, .rings, .stack, .mbx, .fw, .regs .mbx, .regs .wch, .regs .ring] s t) ∧
  (∀ (s : State) (id : Nat) (r : Running),
      s.runningAt id = some r →
      r.id = id →
      r.ending = none →
      r.cmd.op = 0x0C10 →
      s.on (R.RFM_HOURS_CMD_DONE (r.cmd.b 0)) = true →
      r.deferred = false →
      r.answered = false →
      ∃ t, Sys2Proof.Machine.exec (.commandComplete id) s = .next t ∧
        replied r.cmd 0 0 (s.wordsAt [(Reg.RFM_HOURS (r.cmd.b 0)).addr, (Reg.RFM_USE (r.cmd.b 0)).addr]) s t = true ∧
        t.runningAt id = none ∧
        Touches [.log, .srv, .rings, .stack, .mbx, .fw, .regs .mbx, .regs .wch, .regs .ring] s t) ∧
  (∀ (s : State) (id : Nat) (r : Running),
      s.runningAt id = some r →
      r.ending = none →
      (r.cmd.op = 0x0211 ∧ s.on (R.TSC_STEP_CTL_DENIED (r.cmd.b 0)) = false ∧ s.on (R.TSC_STEP_CTL_DONE (r.cmd.b 0)) = false ∨ r.cmd.op = 0x0C10 ∧ s.on (R.RFM_HOURS_CMD_DONE (r.cmd.b 0)) = false) →
      ∃ t, Sys2Proof.Machine.exec (.commandComplete id) s = .next t ∧
        Frame [] [] s t) ∧
  (∀ (s : State) (id : Nat) (r : Running) (i : Nat),
      s.runningAt id = some r →
      r.id = id →
      r.ending = none →
      r.cmd.op = 0x0721 →
      s.namedEntry r.cmd = some i →
      s.cstWaited (r.cmd.b 0) i = true →
      ∃ t, Sys2Proof.Machine.exec (.commandComplete id) s = .next t ∧
        t.cst i = s.cst i ∧
        t.fw = s.fw ∧
        Touches [.log, .srv, .rings, .stack, .mbx, .fw, .regs .mbx, .regs .wch, .regs .ring] s t) ∧
  (∀ (s : State) (id : Nat) (r : Running),
      s.runningAt id = some r →
      r.id = id →
      r.ending = none →
      r.cmd.op = 0x0721 →
      s.namedEntry r.cmd = none →
      r.deferred = false →
      r.answered = false →
      ∃ t, Sys2Proof.Machine.exec (.commandComplete id) s = .next t ∧
        replied r.cmd 0 0 [] s t = true ∧
        t.runningAt id = none ∧
        Touches [.log, .srv, .rings, .stack, .mbx, .fw, .regs .mbx, .regs .wch, .regs .ring] s t) ∧
  (∀ (s : State) (id : Nat) (r : Running) (i : Nat),
      s.runningAt id = some r →
      r.id = id →
      r.ending = none →
      r.cmd.op = 0x0721 →
      s.namedEntry r.cmd = some i →
      s.cstWaited (r.cmd.b 0) i = false →
      r.deferred = false →
      ∃ t, Sys2Proof.Machine.exec (.commandComplete id) s = .next t ∧
        t.cst i = {} ∧
        (r.answered = false → replied r.cmd 0 0 [] s t = true) ∧
        t.runningAt id = none ∧
        Touches [.log, .srv, .rings, .stack, .mbx, .fw, .regs .mbx, .regs .wch, .regs .ring] s t) ∧
  (∀ (s : State) (id : Nat),
      s.runningAt id = none →
      ∃ t, Sys2Proof.Machine.exec (.commandTimeout id) s = .next t ∧
        Frame [] [] s t) ∧
  (∀ (s : State) (id : Nat) (r : Running),
      s.runningAt id = some r →
      (r.deferred = true ∨ r.answered = true ∨ r.ending.isSome = true) →
      ∃ t, Sys2Proof.Machine.exec (.commandTimeout id) s = .next t ∧
        Frame [] [] s t) ∧
  (∀ (s : State) (id : Nat) (r : Running),
      s.runningAt id = some r →
      r.id = id →
      r.deferred = false →
      r.answered = false →
      r.ending = none →
      ∃ t, Sys2Proof.Machine.exec (.commandTimeout id) s = .next t ∧
        replied r.cmd 6 0 (if 0x0710 ≤ r.cmd.op ∧ r.cmd.op ≤ 0x0713 then s.keyReply else []) s t = true ∧
        t.tick = (s.waitClk (r.since + ms16 100)).tick ∧
        (t.runningAt id = (if r.cmd.op = 0x0721 then some { r with answered := true } else none)) ∧
        Touches [.tick, .lanes, .log, .srv, .rings, .stack, .mbx, .fw, .regs .mbx, .regs .wch, .regs .ring] s t)

/-- ARBITER_EVAL, ARBITER_RESTORE, ISLAND_WAKE.  An evaluation comes 1 ms after the last and publishes the temperature, the effective budget E of R445, the grants, DERATE
and OVERTEMP; with demand within E it cuts nothing and SHORT is clear; above E it makes one cut, the first candidate's of R443, or sets
SHORT with its event.  Without 4 grants of headroom nothing is restored and the 1 s begins anew; with it the newest cut is undone after
1 s, and 10 ms after the last one.  An engine that has woken serves, a port may train, a die's lane acquires.
Choices of the model that it rests on: log entries 49, 50 and 102.
(Rests on
15_power_boot_config.md.) -/
def Obligations.PowerArbiter : Prop :=
  (∀ (s : State) (demand : Nat) (temp : BitVec 16) (die : Fin 5),
      let e := effective (s.rd R.PWR_CTL_BUDGET) temp.toInt
      let u := s.waitClk (s.power.evalAt + 1000000 * 65536)
      demand ≤ e →
      ∃ t, Sys2Proof.Machine.exec (.arbiterEval demand temp die) s = .next t ∧
        t.tick = u.tick ∧
        t.power.evalAt = u.clk ∧
        t.rd R.PWR_TEMP_TJ = temp.toNat ∧
        t.rd R.PWR_TEMP_DIE = die.val ∧
        t.rd R.PWR_STAT_EFFECTIVE = e % 512 ∧
        t.rd R.PWR_STAT_GRANTED = satNat 9 demand ∧
        t.rd R.PWR_STAT_DERATE = b01 (decide (115 * 256 < temp.toInt)) ∧
        t.rd R.PWR_STAT_OVERTEMP = b01 (decide (125 * 256 < temp.toInt)) ∧
        t.rd R.PWR_STAT_SHORT = 0 ∧
        t.power.cuts = s.power.cuts ∧
        t.power.waking = s.power.waking ∧
        Touches [.tick, .lanes, .ens, .tim, .gnss, .log, .srv, .rings, .mbx, .fw, .power, .regs .dev, .regs .ens, .regs .gns, .regs .mbx, .regs .pwr, .regs .wch, .regs .mac, .regs .nts, .regs .lane, .regs .ring] s t) ∧
  (∀ (s : State) (demand : Nat) (temp : BitVec 16) (die : Fin 5) (c : Cut),
      let e := effective (s.rd R.PWR_CTL_BUDGET) temp.toInt
      let u := s.waitClk (s.power.evalAt + 1000000 * 65536)
      e < demand →
      u.nextCut = some c →
      ∃ t, Sys2Proof.Machine.exec (.arbiterEval demand temp die) s = .next t ∧
        t.tick = u.tick ∧
        t.power.evalAt = u.clk ∧
        t.rd R.PWR_TEMP_TJ = temp.toNat ∧
        t.rd R.PWR_TEMP_DIE = die.val ∧
        t.rd R.PWR_STAT_EFFECTIVE = e % 512 ∧
        t.rd R.PWR_STAT_GRANTED = satNat 9 demand ∧
        t.rd R.PWR_STAT_DERATE = b01 (decide (115 * 256 < temp.toInt)) ∧
        t.rd R.PWR_STAT_OVERTEMP = b01 (decide (125 * 256 < temp.toInt)) ∧
        t.rd R.PWR_STAT_SHORT = 0 ∧
        t.power.cuts = c :: s.power.cuts ∧
        t.power.calmAt = none ∧
        bit (t.rd R.PWR_EVT_BITS) (cutBit c) = true ∧
        Touches [.tick, .lanes, .ens, .tim, .gnss, .log, .srv, .rings, .mbx, .fw, .power, .regs .dev, .regs .ens, .regs .gns, .regs .mbx, .regs .pwr, .regs .wch, .regs .mac, .regs .nts, .regs .lane, .regs .ring] s t) ∧
  (∀ (s : State) (demand : Nat) (temp : BitVec 16) (die : Fin 5),
      let e := effective (s.rd R.PWR_CTL_BUDGET) temp.toInt
      let u := s.waitClk (s.power.evalAt + 1000000 * 65536)
      e < demand →
      u.nextCut = none →
      ∃ t, Sys2Proof.Machine.exec (.arbiterEval demand temp die) s = .next t ∧
        t.tick = u.tick ∧
        t.power.evalAt = u.clk ∧
        t.rd R.PWR_TEMP_TJ = temp.toNat ∧
        t.rd R.PWR_TEMP_DIE = die.val ∧
        t.rd R.PWR_STAT_EFFECTIVE = e % 512 ∧
        t.rd R.PWR_STAT_GRANTED = satNat 9 demand ∧
        t.rd R.PWR_STAT_DERATE = b01 (decide (115 * 256 < temp.toInt)) ∧
        t.rd R.PWR_STAT_OVERTEMP = b01 (decide (125 * 256 < temp.toInt)) ∧
        t.rd R.PWR_STAT_SHORT = 1 ∧
        t.power.cuts = s.power.cuts ∧
        (s.rd R.PWR_STAT_SHORT = 0 → bit (t.rd R.PWR_EVT_BITS) 0 = true) ∧
        Touches [.tick, .lanes, .ens, .tim, .gnss, .log, .srv, .rings, .mbx, .fw, .power, .regs .dev, .regs .ens, .regs .gns, .regs .mbx, .regs .pwr, .regs .wch, .regs .mac, .regs .nts, .regs .lane, .regs .ring] s t) ∧
  (∀ (s : State) (demand : Nat),
      s.rd R.PWR_STAT_EFFECTIVE < demand + 4 →
      ∃ t, Sys2Proof.Machine.exec (.arbiterRestore demand) s = .next t ∧
        t.power = { s.power with calmAt := none } ∧
        Frame [] [.power] s t) ∧
  (∀ (s : State) (demand : Nat),
      demand + 4 ≤ s.rd R.PWR_STAT_EFFECTIVE →
      s.liveCuts = [] →
      ∃ t, Sys2Proof.Machine.exec (.arbiterRestore demand) s = .next t ∧
        Frame [] [] s t) ∧
  (∀ (s : State) (demand : Nat) (c : Cut) (rest : List Cut),
      let u := s.waitClk (max (s.power.calmAt.getD s.clk + sec16 1) ((s.power.restoredAt.map (· + ms16 10)).getD 0))
      demand + 4 ≤ s.rd R.PWR_STAT_EFFECTIVE →
      s.liveCuts = c :: rest →
      ∃ t, Sys2Proof.Machine.exec (.arbiterRestore demand) s = .next t ∧
        t.power.cuts = rest ∧
        t.tick = u.tick ∧
        t.power.restoredAt = some u.clk ∧
        t.power.calmAt = some (s.power.calmAt.getD s.clk) ∧
        (∀ p : Fin 32, c = .port p.val → 48 + p.val ∈ t.power.waking ∧ bit (t.rd R.PWR_PORT_PARKED_PORTS) p.val = false) ∧
        Touches [.tick, .lanes, .gnss, .srv, .power, .regs .gns, .regs .pwr, .regs .nts] s t) ∧
  (∀ (s : State) (i : Nat),
      i ∉ s.power.waking →
      ∃ t, Sys2Proof.Machine.exec (.islandWake i) s = .next t ∧
        Frame [] [] s t) ∧
  (∀ (s : State) (i : Nat),
      i ∈ s.power.waking →
      i < 48 →
      i ∉ s.watch.badEngines →
      ∃ t, Sys2Proof.Machine.exec (.islandWake i) s = .next t ∧
        t.power.waking = s.power.waking.filter (· ≠ i) ∧
        IMap.get 0 t.power.saving i = 0 ∧
        bit (t.rd (R.NTS_ENG_STAT_PARKED (i / 12))) (i % 12) = false ∧
        Touches [.ens, .log, .srv, .power, .regs .dev, .regs .ens, .regs .pwr, .regs .wch, .regs .nts, .regs .lane] s t) ∧
  (∀ (s : State) (i : Nat),
      i ∈ s.power.waking →
      i < 48 →
      i ∈ s.watch.badEngines →
      ∃ t, Sys2Proof.Machine.exec (.islandWake i) s = .next t ∧
        t.power.waking = s.power.waking.filter (· ≠ i) ∧
        Frame [] [.power] s t) ∧
  (∀ (s : State) (i : Nat),
      i ∈ s.power.waking →
      48 ≤ i ∧ i < 80 →
      bit (s.rd R.PWR_DIE_SLEEP_ASLEEP) ((i - 48) / 8) = false →
      ∃ t, Sys2Proof.Machine.exec (.islandWake i) s = .next t ∧
        t.power.waking = s.power.waking.filter (· ≠ i) ∧
        (t.port (i - 48)).parked = false ∧
        t.link (i - 48) = s.link (i - 48) ∧
        Frame [] [.srv, .power] s t) ∧
  (∀ (s : State) (i : Nat),
      i ∈ s.power.waking →
      48 ≤ i ∧ i < 80 →
      bit (s.rd R.PWR_DIE_SLEEP_ASLEEP) ((i - 48) / 8) = true →
      ∃ t, Sys2Proof.Machine.exec (.islandWake i) s = .next t ∧
        Frame [] [] s t) ∧
  (∀ (s : State) (i : Nat),
      i ∈ s.power.waking →
      80 ≤ i ∧ i < 84 →
      bit (s.rd R.PWR_DIE_SLEEP_ASLEEP) (i - 80) = true →
      s.laneState (i - 80) = 0 →
      ∃ t, Sys2Proof.Machine.exec (.islandWake i) s = .next t ∧
        t.power.waking = s.power.waking.filter (· ≠ i) ∧
        bit (t.rd R.PWR_DIE_SLEEP_ASLEEP) (i - 80) = false ∧
        t.laneState (i - 80) = 1 ∧
        t.on (upField (i - 80)) = true ∧
        Touches [.ens, .log, .srv, .power, .regs .dev, .regs .ens, .regs .pwr, .regs .wch, .regs .nts, .regs .lane] s t) ∧
  (∀ (s : State) (i : Nat),
      i ∈ s.power.waking →
      (84 ≤ i ∨ (80 ≤ i ∧ bit (s.rd R.PWR_DIE_SLEEP_ASLEEP) (i - 80) = false)) →
      ∃ t, Sys2Proof.Machine.exec (.islandWake i) s = .next t ∧
        t.power.waking = s.power.waking.filter (· ≠ i) ∧
        Frame [] [.power] s t)

/-- RST_GO, RESET_BEGIN, POWER_ON_RESET, SUPPLY_DIP, WATCHDOG_EXPIRE, FUNCTION_RESET, PERST, PE_PERST_N_RISE.  A GO with KEY 0xA5 and KIND 1
to 7 begins its reset at once where none as wide is in progress; another GO sets RST_REFUSED.  A cold or power-on reset leaves every
register at its reset value and keeps the flash; a warm one keeps the timescale, stacking and RWS fields, with lanes OFF, ports DOWN,
mailboxes EMPTY and no keys, TRACKING engines in HOLDOVER; kind 2 sets both counters to 0 and engines to UNSET; a die's leaves the rest
running.  POR_N low for less than 1 us is ignored, and while it stays low every output is at high impedance.  RESET commands' resets begin oldest
first.  A function-level reset frees the function's rings and events, takes it down until it is in D0 again, and is discarded during
another reset; PE_PERST_N low resets both
functions; its rise answers configuration requests 100 ms on.
Choices of the model that it rests on: log entries 12, 39, 40, 41, 43, 89, 90 and 108.
(Rests on 15_power_boot_config.md; 01_architecture.md; 17_electrical.md.) -/
def Obligations.ResetRequests : Prop :=
  (∀ (s : State) (w : Word),
      ((R.PWR_RST_CTL_KEY).of w.toNat ≠ 0xA5 ∨ resetKind ((R.PWR_RST_CTL_KIND).of w.toNat) = none) →
      ∃ t, Sys2Proof.Machine.exec (.rstGo w) s = .next t ∧
        bit (t.rd R.PWR_EVT_BITS) 6 = true ∧
        Frame [R.PWR_EVT_BITS] [] s t) ∧
  (∀ (s : State) (w : Word) (k : ResetKind),
      (R.PWR_RST_CTL_KEY).of w.toNat = 0xA5 →
      resetKind ((R.PWR_RST_CTL_KIND).of w.toNat) = some k →
      s.rst.active.isSome = true →
      (∀ a, s.rst.active = some a → k.rank ≤ a.1.rank) →
      ∃ t, Sys2Proof.Machine.exec (.rstGo w) s = .next t ∧
        t.rd R.PWR_RST_CTL_KIND = (R.PWR_RST_CTL_KIND).of w.toNat ∧
        t.rst = s.rst ∧
        Frame [R.PWR_RST_CTL_KIND] [] s t) ∧
  (∀ (s : State) (w : Word),
      (R.PWR_RST_CTL_KEY).of w.toNat = 0xA5 →
      (R.PWR_RST_CTL_KIND).of w.toNat = 3 →
      (∀ a, s.rst.active = some a → a.1.rank < (ResetKind.cold).rank) →
      ∃ t, Sys2Proof.Machine.exec (.rstGo w) s = .next t ∧
        t.rst.active = some (.cold, 2) ∧
        t.rst.stage = 0 ∧
        t.regs = [] ∧
        t.mem = [] ∧
        t.tick = {} ∧
        t.log = [] ∧
        t.srv.keys = [] ∧
        t.fw = {} ∧
        t.mbx = [] ∧
        t.rings = [] ∧
        t.ens = {} ∧
        t.gnss = {} ∧
        t.tim = {} ∧
        t.rfm = [] ∧
        t.watch = {} ∧
        t.power = {} ∧
        t.lanes = [] ∧
        t.pct = [] ∧
        t.cfg.flash = s.cfg.cutOff.flash ∧
        t.cfg.staging = [] ∧
        t.cfg.image = none ∧
        t.rst.tap = s.rst.tap ∧
        t.srv.ports = [] ∧
        t.srv.cst = [] ∧
        Touches Part.all s t) ∧
  (∀ (s : State) (w : Word),
      (R.PWR_RST_CTL_KEY).of w.toNat = 0xA5 →
      (R.PWR_RST_CTL_KIND).of w.toNat = 1 →
      (∀ a, s.rst.active = some a → a.1.rank < (ResetKind.warm).rank) →
      ∃ t, Sys2Proof.Machine.exec (.rstGo w) s = .next t ∧
        t.rst.active = some (.warm, 2) ∧
        t.rst.stage = 0 ∧
        t.tick.bank0 = s.tick.bank0 ∧
        t.tick.bank1 = s.tick.bank1 ∧
        t.tick.count = s.tick.count ∧
        t.log.length ≥ s.log.length ∧
        t.fw = {} ∧
        t.mbx = [] ∧
        t.rings = [] ∧
        t.power = {} ∧
        t.lanes = [] ∧
        t.srv.keys = [] ∧
        (∀ p : Fin 32, t.port p.val = { frameAt := t.clk }) ∧
        t.srv.cst = [] ∧
        t.cfg.flash = s.cfg.cutOff.flash ∧
        t.cfg.staging = [] ∧
        t.mem = [] ∧
        (∀ n : Fin 4, t.laneState n.val = 0) ∧
        (∀ p : Fin 32, t.link p.val = 0) ∧
        t.on R.DEV_DIE_STAT_KFW_RUN = false ∧
        (∀ c : Fin 16, t.mbxState c.val = 0) ∧
        t.fabric = s.fabric ∧
        t.stackAddr = s.stackAddr ∧
        t.rd R.PWR_CTL_BUDGET = s.rd R.PWR_CTL_BUDGET ∧
        t.rd R.MBX_CFG_XTO = s.rd R.MBX_CFG_XTO ∧
        (t.eng .ts0 = (if s.eng .ts0 = .tracking then .holdover else s.eng .ts0)) ∧
        Touches Part.all s t) ∧
  (∀ (s : State) (w : Word),
      (R.PWR_RST_CTL_KEY).of w.toNat = 0xA5 →
      (R.PWR_RST_CTL_KIND).of w.toNat = 2 →
      (∀ a, s.rst.active = some a → a.1.rank < (ResetKind.warmTs).rank) →
      ∃ t, Sys2Proof.Machine.exec (.rstGo w) s = .next t ∧
        t.rst.active = some (.warmTs, 2) ∧
        t.rst.stage = 0 ∧
        t.tick.bank0.ts = 0 ∧
        t.tick.bank1.ts = 0 ∧
        t.eng .ts0 = .unset ∧
        t.eng .ts1 = .unset ∧
        t.fw = {} ∧
        t.mbx = [] ∧
        t.rings = [] ∧
        (∀ n : Fin 4, t.laneState n.val = 0) ∧
        (∀ p : Fin 32, t.link p.val = 0) ∧
        t.on R.DEV_DIE_STAT_KFW_RUN = false ∧
        t.fabric = s.fabric ∧
        t.rd R.PWR_CTL_BUDGET = s.rd R.PWR_CTL_BUDGET ∧
        Touches Part.all s t) ∧
  (∀ (s : State) (w : Word) (n : Fin 4),
      (R.PWR_RST_CTL_KEY).of w.toNat = 0xA5 →
      (R.PWR_RST_CTL_KIND).of w.toNat = 4 + n.val →
      (∀ a, s.rst.active = some a → a.1.rank < (ResetKind.die n.val).rank) →
      ∃ t, Sys2Proof.Machine.exec (.rstGo w) s = .next t ∧
        t.rst.active = some (.die n.val, 2) ∧
        t.rst.stage = 0 ∧
        t.laneState (n.val) = 0 ∧
        (∀ k : Fin 8, t.link ((n.val) * 8 + k.val) = 0) ∧
        t.tick = s.tick ∧
        (∀ k : Fin 8, t.txq ((n.val) * 8) k.val = []) ∧
        t.on (upField (n.val)) = false ∧
        Touches Part.all s t) ∧
  (∀ (s : State),
      s.rst.requests = [] →
      ∃ t, Sys2Proof.Machine.exec (.resetBegin) s = .next t ∧
        Frame [] [] s t) ∧
  (∀ (s : State) (snd due : Nat) (rest : List (ResetKind × Nat × Nat)),
      s.rst.requests = (.cold, snd, due) :: rest →
      (∀ a, s.rst.active = some a → a.1.rank < (ResetKind.cold).rank) →
      ∃ t, Sys2Proof.Machine.exec (.resetBegin) s = .next t ∧
        t.rst.active = some (.cold, snd) ∧
        t.rst.requests.map (fun r => (r.1, r.2.1)) = rest.map (fun r => (r.1, r.2.1)) ∧
        t.rst.stage = 0 ∧
        t.regs = [] ∧
        t.mem = [] ∧
        t.tick = {} ∧
        t.log = [] ∧
        t.srv.keys = [] ∧
        t.fw = {} ∧
        t.mbx = [] ∧
        t.rings = [] ∧
        t.ens = {} ∧
        t.gnss = {} ∧
        t.tim = {} ∧
        t.rfm = [] ∧
        t.watch = {} ∧
        t.power = {} ∧
        t.lanes = [] ∧
        t.pct = [] ∧
        t.cfg.flash = s.cfg.cutOff.flash ∧
        t.cfg.staging = [] ∧
        t.cfg.image = none ∧
        t.rst.tap = s.rst.tap ∧
        t.srv.ports = [] ∧
        t.srv.cst = [] ∧
        Touches Part.all s t) ∧
  (∀ (s : State) (snd due : Nat) (rest : List (ResetKind × Nat × Nat)),
      s.rst.requests = (.warm, snd, due) :: rest →
      (∀ a, s.rst.active = some a → a.1.rank < (ResetKind.warm).rank) →
      ∃ t, Sys2Proof.Machine.exec (.resetBegin) s = .next t ∧
        t.rst.active = some (.warm, snd) ∧
        t.rst.requests.map (fun r => (r.1, r.2.1)) = rest.map (fun r => (r.1, r.2.1)) ∧
        t.rst.stage = 0 ∧
        t.tick.bank0 = (s.waitClk due).tick.bank0 ∧
        t.fw = {} ∧
        t.mbx = [] ∧
        t.rings = [] ∧
        t.power = {} ∧
        t.lanes = [] ∧
        t.srv.keys = [] ∧
        (∀ p : Fin 32, t.port p.val = { frameAt := t.clk }) ∧
        t.srv.cst = [] ∧
        t.cfg.flash = s.cfg.cutOff.flash ∧
        t.cfg.staging = [] ∧
        t.mem = [] ∧
        (∀ n : Fin 4, t.laneState n.val = 0) ∧
        (∀ p : Fin 32, t.link p.val = 0) ∧
        t.on R.DEV_DIE_STAT_KFW_RUN = false ∧
        (∀ c : Fin 16, t.mbxState c.val = 0) ∧
        t.fabric = s.fabric ∧
        t.stackAddr = s.stackAddr ∧
        t.rd R.PWR_CTL_BUDGET = s.rd R.PWR_CTL_BUDGET ∧
        t.rd R.MBX_CFG_XTO = s.rd R.MBX_CFG_XTO ∧
        (t.eng .ts0 = (if s.eng .ts0 = .tracking then .holdover else s.eng .ts0)) ∧
        Touches Part.all s t) ∧
  (∀ (s : State) (snd due : Nat) (rest : List (ResetKind × Nat × Nat)),
      s.rst.requests = (.warmTs, snd, due) :: rest →
      (∀ a, s.rst.active = some a → a.1.rank < (ResetKind.warmTs).rank) →
      ∃ t, Sys2Proof.Machine.exec (.resetBegin) s = .next t ∧
        t.rst.active = some (.warmTs, snd) ∧
        t.rst.requests.map (fun r => (r.1, r.2.1)) = rest.map (fun r => (r.1, r.2.1)) ∧
        t.rst.stage = 0 ∧
        t.tick.bank0.ts = 0 ∧
        t.tick.bank1.ts = 0 ∧
        t.fw = {} ∧
        t.mbx = [] ∧
        Touches Part.all s t) ∧
  (∀ (s : State) (snd due : Nat) (n : Fin 4) (rest : List (ResetKind × Nat × Nat)),
      s.rst.requests = (.die n.val, snd, due) :: rest →
      (∀ a, s.rst.active = some a → a.1.rank < (ResetKind.die n.val).rank) →
      ∃ t, Sys2Proof.Machine.exec (.resetBegin) s = .next t ∧
        t.rst.active = some (.die n.val, snd) ∧
        t.rst.requests.map (fun r => (r.1, r.2.1)) = rest.map (fun r => (r.1, r.2.1)) ∧
        t.rst.stage = 0 ∧
        t.laneState n.val = 0 ∧
        (∀ k : Fin 8, t.link (n.val * 8 + k.val) = 0) ∧
        Touches Part.all s t) ∧
  (∀ (s : State) (k : ResetKind) (snd due : Nat) (rest : List (ResetKind × Nat × Nat)),
      s.rst.requests = (k, snd, due) :: rest →
      s.rst.active.isSome = true →
      (∀ a, s.rst.active = some a → k.rank ≤ a.1.rank) →
      ∃ t, Sys2Proof.Machine.exec (.resetBegin) s = .next t ∧
        t.rst = { s.rst with requests := rest } ∧
        t.tick = (s.waitClk due).tick ∧
        Frame [] [.tick, .lanes, .rst] s t) ∧
  (∀ (s : State) (ns : Nat) (rises : Bool),
      1000 ≤ ns →
      ∃ t, Sys2Proof.Machine.exec (.powerOnReset ns rises) s = .next t ∧
        t.rst = { active := some (.powerOn, 0), porLow := !rises } ∧
        t.regs = [] ∧
        t.mem = [] ∧
        t.tick = {} ∧
        t.log = [] ∧
        t.srv.keys = [] ∧
        t.fw = {} ∧
        t.mbx = [] ∧
        t.rings = [] ∧
        t.ens = {} ∧
        t.gnss = {} ∧
        t.tim = {} ∧
        t.rfm = [] ∧
        t.watch = {} ∧
        t.power = {} ∧
        t.lanes = [] ∧
        t.pct = [] ∧
        t.cfg.flash = s.cfg.cutOff.flash ∧
        t.cfg.staging = [] ∧
        t.cfg.image = none ∧
        (rises = false → ∀ o : Fin 32, t.ball o.val = none) ∧
        t.srv.ports = [] ∧
        t.srv.cst = [] ∧
        Touches Part.all s t) ∧
  (∀ (s : State) (ns : Nat) (rises : Bool),
      ns < 1000 →
      ∃ t, Sys2Proof.Machine.exec (.powerOnReset ns rises) s = .next t ∧
        Frame [] [] s t) ∧
  (∀ (s : State) (us : Nat),
      us < 2 →
      ∃ t, Sys2Proof.Machine.exec (.supplyDip us) s = .next t ∧
        Frame [] [] s t) ∧
  (∀ (s : State) (us : Nat),
      2 ≤ us →
      s.rst.active.isSome = true →
      (∀ a, s.rst.active = some a → a.1 = .powerOn) →
      ∃ t, Sys2Proof.Machine.exec (.supplyDip us) s = .next t ∧
        Frame [] [] s t) ∧
  (∀ (s : State) (us : Nat),
      2 ≤ us →
      (∀ a, s.rst.active = some a → a.1 ≠ .powerOn) →
      ∃ t, Sys2Proof.Machine.exec (.supplyDip us) s = .next t ∧
        t.rst.active = some (.powerOn, 0) ∧
        t.rst.stage = 0 ∧
        t.regs = [] ∧
        t.mem = [] ∧
        t.tick = {} ∧
        t.log = [] ∧
        t.srv.keys = [] ∧
        t.fw = {} ∧
        t.mbx = [] ∧
        t.rings = [] ∧
        t.ens = {} ∧
        t.gnss = {} ∧
        t.tim = {} ∧
        t.rfm = [] ∧
        t.watch = {} ∧
        t.power = {} ∧
        t.lanes = [] ∧
        t.pct = [] ∧
        t.cfg.flash = s.cfg.cutOff.flash ∧
        t.cfg.staging = [] ∧
        t.cfg.image = none ∧
        t.rst.tap = .idcode ∧
        t.srv.ports = [] ∧
        t.srv.cst = [] ∧
        Touches Part.all s t) ∧
  (∀ (s : State),
      s.on R.DEV_DIE_STAT_KFW_RUN = false →
      ∃ t, Sys2Proof.Machine.exec (.watchdogExpire) s = .next t ∧
        Frame [] [] s t) ∧
  (∀ (s : State),
      s.on R.DEV_DIE_STAT_KFW_RUN = true →
      (∀ a, s.rst.active = some a → a.1.rank < (ResetKind.watchdog).rank) →
      ∃ t, Sys2Proof.Machine.exec (.watchdogExpire) s = .next t ∧
        t.rst.active = some (.watchdog, 0) ∧
        t.rst.stage = 0 ∧
        t.tick.bank0 = (s.waitClk (s.fw.cycleAt + sec16 1)).tick.bank0 ∧
        t.log.length ≥ s.log.length ∧
        t.fw = {} ∧
        t.mbx = [] ∧
        t.rings = [] ∧
        t.power = {} ∧
        t.lanes = [] ∧
        t.srv.keys = [] ∧
        (∀ p : Fin 32, t.port p.val = { frameAt := t.clk }) ∧
        t.srv.cst = [] ∧
        t.cfg.flash = s.cfg.cutOff.flash ∧
        t.cfg.staging = [] ∧
        t.mem = [] ∧
        (∀ n : Fin 4, t.laneState n.val = 0) ∧
        (∀ p : Fin 32, t.link p.val = 0) ∧
        t.on R.DEV_DIE_STAT_KFW_RUN = false ∧
        (∀ c : Fin 16, t.mbxState c.val = 0) ∧
        t.fabric = s.fabric ∧
        t.stackAddr = s.stackAddr ∧
        t.rd R.PWR_CTL_BUDGET = s.rd R.PWR_CTL_BUDGET ∧
        t.rd R.MBX_CFG_XTO = s.rd R.MBX_CFG_XTO ∧
        (t.eng .ts0 = (if s.eng .ts0 = .tracking then .holdover else s.eng .ts0)) ∧
        Touches Part.all s t) ∧
  (∀ (s : State) (fn : Fin 2),
      s.rst.active.isSome = true →
      ∃ t, Sys2Proof.Machine.exec (.functionReset fn) s = .next t ∧
        Frame [] [] s t) ∧
  (∀ (s : State) (fn : Fin 2),
      s.rst.active = none →
      ∃ t, Sys2Proof.Machine.exec (.functionReset fn) s = .next t ∧
        (∀ q : Fin 258, s.ringFn q.val = fn.val → t.ring q.val = {} ∧ t.rd (R.HRG_RING_CFG_EN q.val) = 0 ∧ t.rd (R.HRG_RING_CFG_OWNER q.val) = s.rd (R.HRG_RING_CFG_OWNER q.val)) ∧
        (∀ q : Fin 258, s.ringFn q.val ≠ fn.val → t.ring q.val = s.ring q.val) ∧
        t.rd (R.MBX_EVT_BITS fn.val) = 0 ∧
        t.rd (R.MBX_EVT_EN_BITS fn.val) = s.rd (R.MBX_EVT_EN_BITS fn.val) ∧
        t.pcie = (if fn.val = 0 then { s.pcie with flr0 := true } else { s.pcie with flr1 := true }) ∧
        t.fnUp fn.val = false ∧
        (∀ h ∈ t.fw.held, h.fn ≠ fn.val) ∧
        (∀ c : Fin 16, s.mbxOwner c.val = 1 + fn.val → s.mbxState c.val = 1 ∨ s.mbxState c.val = 3 → t.mbxState c.val = 0) ∧
        Touches ([.srv, .rings, .mbx, .fw, .pcie] ++ Part.all.filter Part.isRegs) s t) ∧
  (∀ (s : State),
      s.rst.active = none →
      ∃ t, Sys2Proof.Machine.exec (.perst) s = .next t ∧
        t.pcie = { s.pcie with d0a := true, d0b := true, flr0 := false, flr1 := false, perstHigh := false } ∧
        (∀ q : Fin 258, t.ring q.val = {} ∧ t.rd (R.HRG_RING_CFG_EN q.val) = 0) ∧
        (∀ h ∈ t.fw.held, h.fn ≠ 0 ∧ h.fn ≠ 1) ∧
        Touches ([.srv, .rings, .mbx, .fw, .pcie] ++ Part.all.filter Part.isRegs) s t) ∧
  (∀ (s : State),
      s.rst.active.isSome = true →
      ∃ t, Sys2Proof.Machine.exec (.perst) s = .next t ∧
        t.pcie = { s.pcie with d0a := true, d0b := true, flr0 := false, flr1 := false, perstHigh := false } ∧
        Frame [] [.pcie] s t) ∧
  (∀ (s : State),
      s.pcie.perstHigh = true →
      ∃ t, Sys2Proof.Machine.exec (.pePerstNRise) s = .next t ∧
        Frame [] [] s t) ∧
  (∀ (s : State),
      s.pcie.perstHigh = false →
      ∃ t, Sys2Proof.Machine.exec (.pePerstNRise) s = .next t ∧
        t.pcie = { s.pcie with perstHigh := true, answersAt := s.clk + ms16 100 } ∧
        Frame [] [.pcie] s t)

/-- BOOT_IMAGE_SELECT, FIRMWARE_RUN, IMAGE_APPLY, RESET_COMPLETE, FLASH_OP_COMPLETE.  Each boot event acts once, in its turn, during a reset
of the Keeper.  The choice of image takes what SFDP declares and the slots' validity: the valid slot with the newer SEQ, slot 0 where
neither is newer; FALLBACK or NO_IMAGE with a record where they apply.  The firmware's start sets KFW_RUN and releases the dies into
ACQUIRING.  The image's pairs are written or skipped and counted, and a power-on's or cold reset's end locks RWL fields.  The end of a
reset loads its cause; a die's brings the die back.  A flash operation that completes advances the commit, the last one makes the new
image active and locks RWL fields; one that fails ends it with COMMIT_FAIL and ERR.
Choices of the model that it rests on: log entries 34, 46, 47, 48, 77 and 102.
(Rests on 15_power_boot_config.md.) -/
def Obligations.BootAndCommit : Prop :=
  (∀ (s : State) (sfdp : Option (Nat × Nat)),
      (s.booting = false ∨ s.rst.stage ≠ 0) →
      ∃ t, Sys2Proof.Machine.exec (.bootImageSelect sfdp) s = .next t ∧
        Frame [] [] s t) ∧
  (∀ (s : State) (sfdp : Option (Nat × Nat)),
      let i0 := (takeSfdp sfdp s).cfg.slotImage 0
      let i1 := (takeSfdp sfdp s).cfg.slotImage 1
      s.inTest = false →
      s.rst.porLow = false →
      s.booting = true →
      s.rst.stage = 0 →
      bootSlot i0 i1 = none →
      ∃ t, Sys2Proof.Machine.exec (.bootImageSelect sfdp) s = .next t ∧
        t.rst.stage = 1 ∧
        t.rd R.CFG_STAT_NO_IMAGE = 1 ∧
        t.rd R.CFG_STAT_ACTIVE_VALID = 0 ∧
        t.rd R.CFG_STAT_OTHER_VALID = 0 ∧
        t.rd R.CFG_SEQ_SEQ = 0 ∧
        t.cfg.image = none ∧
        bit (t.rd R.CFG_EVT_BITS) 3 = true ∧
        t.rd R.CFG_STAT_NO_SFDP = b01 (decide ((sfdp.getD (0, 65536)).1 < 32)) ∧
        t.cfg.erase = min 65536 (sfdp.getD (0, 65536)).2 ∧
        t.rd R.LOG_NEXT_SEQ = (s.rd R.LOG_NEXT_SEQ + 1) % 2 ^ 32 ∧
        Touches [.log, .rst, .cfg, .regs .pwr, .regs .wch] s t) ∧
  (∀ (s : State) (sfdp : Option (Nat × Nat)) (k : Nat),
      let i0 := (takeSfdp sfdp s).cfg.slotImage 0
      let i1 := (takeSfdp sfdp s).cfg.slotImage 1
      s.inTest = false →
      s.rst.porLow = false →
      s.booting = true →
      s.rst.stage = 0 →
      bootSlot i0 i1 = some k →
      ∃ t, Sys2Proof.Machine.exec (.bootImageSelect sfdp) s = .next t ∧
        t.rst.stage = 1 ∧
        t.rd R.CFG_STAT_NO_IMAGE = 0 ∧
        t.rd R.CFG_STAT_ACTIVE_VALID = 1 ∧
        t.rd R.CFG_STAT_ACTIVE_SLOT = k % 2 ∧
        (t.rd R.CFG_SEQ_SEQ = hdrSeq (if k = 0 then i0 else i1).1 % 2 ^ 32) ∧
        (t.cfg.image = (if k = 0 then i0 else i1).2) ∧
        (t.rd R.CFG_STAT_OTHER_VALID = b01 (if k = 0 then i1 else i0).2.isSome) ∧
        (fallsBack (if k = 0 then i1 else i0) (if k = 0 then i0 else i1).1 = true → bit (t.rd R.CFG_EVT_BITS) 2 = true) ∧
        Touches [.log, .rst, .cfg, .regs .pwr, .regs .wch] s t) ∧
  (∀ (s : State),
      (s.booting = false ∨ s.rst.stage ≠ 1) →
      ∃ t, Sys2Proof.Machine.exec (.firmwareRun) s = .next t ∧
        Frame [] [] s t) ∧
  (∀ (s : State),
      s.booting = true →
      s.rst.stage = 1 →
      ∃ t, Sys2Proof.Machine.exec (.firmwareRun) s = .next t ∧
        t.rst = { s.rst with stage := 2 } ∧
        t.on R.DEV_DIE_STAT_KFW_RUN = true ∧
        (∀ n : Fin 4, t.laneState n.val = (if s.laneState n.val = 0 then 1 else s.laneState n.val)) ∧
        t.rd R.GNS_STAT_RUN = b01 s.gnsOn ∧
        Touches [.ens, .log, .stack, .mbx, .fw, .rst, .regs .dev, .regs .ens, .regs .gns, .regs .mbx, .regs .wch, .regs .nts, .regs .lane] s t) ∧
  (∀ (s : State),
      (s.booting = false ∨ s.rst.stage ≠ 2) →
      ∃ t, Sys2Proof.Machine.exec (.imageApply) s = .next t ∧
        Frame [] [] s t) ∧
  (∀ (s : State),
      s.booting = true →
      s.rst.stage = 2 →
      s.cfg.image = none →
      ∃ t, Sys2Proof.Machine.exec (.imageApply) s = .next t ∧
        t.rst = { s.rst with stage := 3 } ∧
        t.rd R.CFG_APPLY_PAIRS = 0 ∧
        t.rd R.CFG_APPLY_SKIPPED = 0 ∧
        Frame [R.CFG_APPLY_PAIRS, R.CFG_APPLY_SKIPPED] [.rst] s t) ∧
  (∀ (s : State) (i : Image),
      let v := i.pairs.foldl (bootPair s.keepsRws) ((s.begin.lo R.CFG_APPLY_PAIRS).lo R.CFG_APPLY_SKIPPED)
      let u := if s.keepsRws then v else v.hi R.CFG_STAT_LOCKED
      s.booting = true →
      s.rst.stage = 2 →
      s.cfg.image = some i →
      ∃ t, Sys2Proof.Machine.exec (.imageApply) s = .next t ∧
        t.rst.stage = 3 ∧
        t.regs = u.regs ∧
        t.srv = u.srv ∧
        Touches Part.all s t) ∧
  (∀ (s : State),
      (s.rst.active = none ∨ (s.booting = true ∧ s.rst.stage ≠ 3)) →
      ∃ t, Sys2Proof.Machine.exec (.resetComplete) s = .next t ∧
        Frame [] [] s t) ∧
  (∀ (s : State) (k : ResetKind) (snd : Nat),
      s.rst.active = some (k, snd) →
      (k = .warm ∨ k = .warmTs ∨ k = .watchdog) →
      s.rst.stage = 3 →
      ∃ t, Sys2Proof.Machine.exec (.resetComplete) s = .next t ∧
        t.rst = { s.rst with active := none, stage := 0 } ∧
        t.rd R.PWR_RST_CAUSE_KIND = k.cause ∧
        t.rd R.PWR_RST_CAUSE_SENDER = snd % 256 ∧
        t.rd R.PWR_RST_CAUSE_WARM_CNT = satNat 16 (s.rd R.PWR_RST_CAUSE_WARM_CNT + 1) ∧
        t.rd R.LOG_NEXT_SEQ = (s.rd R.LOG_NEXT_SEQ + 1) % 2 ^ 32 ∧
        Frame ([R.PWR_RST_CAUSE_KIND, R.PWR_RST_CAUSE_SENDER, R.PWR_RST_CAUSE_WARM_CNT] ++ logFields) [.log, .rst] s t) ∧
  (∀ (s : State) (k : ResetKind) (snd : Nat),
      s.rst.active = some (k, snd) →
      (k = .powerOn ∨ k = .cold) →
      s.rst.stage = 3 →
      ∃ t, Sys2Proof.Machine.exec (.resetComplete) s = .next t ∧
        t.rst = { s.rst with active := none, stage := 0 } ∧
        t.rd R.PWR_RST_CAUSE_KIND = k.cause ∧
        t.rd R.PWR_RST_CAUSE_SENDER = snd % 256 ∧
        t.rd R.PWR_RST_CAUSE_WARM_CNT = 0 ∧
        Frame [R.PWR_RST_CAUSE_KIND, R.PWR_RST_CAUSE_SENDER, R.PWR_RST_CAUSE_WARM_CNT] [.rst] s t) ∧
  (∀ (s : State) (n : Fin 4) (snd : Nat),
      s.rst.active = some (.die n.val, snd) →
      bit (s.rd R.PWR_DIE_SLEEP_ASLEEP) n.val = false →
      s.laneState n.val = 0 →
      (s.cfg.image = none ∨ s.on R.DEV_DIE_STAT_KFW_RUN = false) →
      ∃ t, Sys2Proof.Machine.exec (.resetComplete) s = .next t ∧
        t.rst = { s.rst with active := none } ∧
        t.laneState n.val = 1 ∧
        t.on (upField n.val) = true ∧
        Touches Part.all s t) ∧
  (∀ (s : State) (n : Fin 4) (snd : Nat),
      s.rst.active = some (.die n.val, snd) →
      (bit (s.rd R.PWR_DIE_SLEEP_ASLEEP) n.val = true ∨ s.laneState n.val ≠ 0 ∨ (s.cfg.image.isSome = true ∧ s.on R.DEV_DIE_STAT_KFW_RUN = true)) →
      ∃ t, Sys2Proof.Machine.exec (.resetComplete) s = .next t ∧
        t.rst.active = none ∧
        Touches Part.all s t) ∧
  (∀ (s : State) (ok : Bool),
      s.cfg.commit = none →
      ∃ t, Sys2Proof.Machine.exec (.flashOpComplete ok) s = .next t ∧
        Frame [] [] s t) ∧
  (∀ (s : State) (j : CommitJob),
      s.inTest = false →
      s.cfg.commit = some j →
      j.done + 1 < s.cfg.stepOps j →
      ∃ t, Sys2Proof.Machine.exec (.flashOpComplete true) s = .next t ∧
        t.cfg = { s.cfg.doOp (s.cfg.currentOp j) with commit := some { j with done := j.done + 1 } } ∧
        Frame [] [.cfg] s t) ∧
  (∀ (s : State) (j : CommitJob),
      s.inTest = false →
      s.cfg.commit = some j →
      s.cfg.stepOps j ≤ j.done + 1 →
      j.step < 7 →
      ∃ t, Sys2Proof.Machine.exec (.flashOpComplete true) s = .next t ∧
        t.cfg = { s.cfg.doOp (s.cfg.currentOp j) with commit := some { j with step := j.step + 1, done := 0 } } ∧
        t.rd R.CFG_STAT_STEP = (j.step + 1) % 8 ∧
        Frame [R.CFG_STAT_STEP] [.cfg] s t) ∧
  (∀ (s : State) (j : CommitJob),
      s.inTest = false →
      s.cfg.commit = some j →
      s.cfg.stepOps j ≤ j.done + 1 →
      7 ≤ j.step →
      ∃ t, Sys2Proof.Machine.exec (.flashOpComplete true) s = .next t ∧
        t.cfg.commit = none ∧
        t.rd R.CFG_STAT_COMMIT_BUSY = 0 ∧
        t.rd R.CFG_STAT_STEP = 0 ∧
        t.rd R.CFG_STAT_ACTIVE_SLOT = j.slot % 2 ∧
        t.rd R.CFG_STAT_ACTIVE_VALID = 1 ∧
        t.rd R.CFG_STAT_OTHER_VALID = s.rd R.CFG_STAT_ACTIVE_VALID ∧
        t.rd R.CFG_SEQ_SEQ = j.seq % 2 ^ 32 ∧
        t.rd R.CFG_STAT_LOCKED = 1 ∧
        bit (t.rd R.CFG_EVT_BITS) 0 = true ∧
        (∀ r ∈ t.fw.running, r.id = j.cmd → r.ending.isSome = true) ∧
        Frame ((Reg.CFG_STAT).fields ++ [R.CFG_SEQ_SEQ, R.CFG_EVT_BITS] ++ logFields) [.log, .fw, .cfg] s t) ∧
  (∀ (s : State) (j : CommitJob),
      s.inTest = false →
      s.cfg.commit = some j →
      ∃ t, Sys2Proof.Machine.exec (.flashOpComplete false) s = .next t ∧
        t.cfg.commit = none ∧
        t.cfg.flash = (s.cfg.breakOp (s.cfg.currentOp j)).flash ∧
        t.rd R.CFG_STAT_COMMIT_BUSY = 0 ∧
        t.rd R.CFG_STAT_STEP = 0 ∧
        t.rd R.CFG_STAT_ERR = commitErr j.step % 16 ∧
        t.rd R.CFG_STAT_ACTIVE_SLOT = s.rd R.CFG_STAT_ACTIVE_SLOT ∧
        t.rd R.CFG_STAT_ACTIVE_VALID = s.rd R.CFG_STAT_ACTIVE_VALID ∧
        t.rd R.CFG_STAT_LOCKED = s.rd R.CFG_STAT_LOCKED ∧
        bit (t.rd R.CFG_EVT_BITS) 1 = true ∧
        (∀ r ∈ t.fw.running, r.id = j.cmd → r.ending.isSome = true) ∧
        Frame ((Reg.CFG_STAT).fields ++ [R.CFG_SEQ_SEQ, R.CFG_EVT_BITS] ++ logFields) [.log, .fw, .cfg] s t) ∧
  (∀ (s : State) (sfdp : Option (Nat × Nat)),
      (s.inTest = true ∨ s.rst.porLow = true) →
      ∃ t, Sys2Proof.Machine.exec (.bootImageSelect sfdp) s = .next t ∧
        Frame [] [] s t) ∧
  (∀ (s : State) (ok : Bool),
      s.inTest = true →
      ∃ t, Sys2Proof.Machine.exec (.flashOpComplete ok) s = .next t ∧
        Frame [] [] s t)

/-- PCT_SELECT, PCT_READ, PCT_OVF_CLEAR.  A write of PCT_SEL starts the counter at 0 on the event, unit and mode written; an event or unit
the table does not have counts nothing and shows INVALID, and OVF is kept; EVENT 0 stops the counter and shows no INVALID, whatever UNIT
holds (log entry 62).  A read of PCT_LO returns the low word and latches the high word with OVF for its reader alone, the count left.  A
write of 1 to OVF clears that counter's bit and no other.  Each brings the ports' counts up to the access first.
Choices of the model that it rests on: log entry 75.
(Rests on
16_watch_counters.md.) -/
def Obligations.CountersSelectReadClear : Prop :=
  (∀ (s : State) (c : Fin 1024) (w : Word) (n : Nat),
      let u := settleAll s.begin
      pctUnits (w.toNat % 2 ^ 10) = some n →
      (w.toNat / 2 ^ 10 % 2 ^ 8 < n ∨ w.toNat % 2 ^ 10 = 0) →
      ∃ t, Sys2Proof.Machine.exec (.pctSelect c w) s = .next t ∧
        (IMap.get {} t.pct c.val) = { (IMap.get {} u.pct c.val) with event := w.toNat % 2 ^ 10, unit := w.toNat / 2 ^ 10 % 2 ^ 8, level := bit w.toNat 18, count := 0 } ∧
        t.rd (R.PCT_SEL_INVALID c.val) = 0 ∧
        t.rd (R.PCT_SEL_EVENT c.val) = w.toNat % 2 ^ 10 ∧
        t.rd (R.PCT_SEL_UNIT c.val) = w.toNat / 2 ^ 10 % 2 ^ 8 ∧
        t.rd (R.PCT_SEL_MODE c.val) = w.toNat / 2 ^ 18 % 2 ∧
        (∀ k : Fin 1024, k ≠ c → IMap.get {} t.pct k.val = IMap.get {} u.pct k.val) ∧
        t.rd (R.PCT_OVF_OVF (c.val / 32)) = u.rd (R.PCT_OVF_OVF (c.val / 32)) ∧
        Touches [.srv, .rings, .regs .ring, .regs .pct] s t) ∧
  (∀ (s : State) (c : Fin 1024) (w : Word),
      let u := settleAll s.begin
      (pctUnits (w.toNat % 2 ^ 10) = none ∨ ∃ n : Fin 257, pctUnits (w.toNat % 2 ^ 10) = some n.val ∧ n.val ≤ w.toNat / 2 ^ 10 % 2 ^ 8) →
      w.toNat % 2 ^ 10 ≠ 0 →
      ∃ t, Sys2Proof.Machine.exec (.pctSelect c w) s = .next t ∧
        (IMap.get {} t.pct c.val).event = 0 ∧
        (IMap.get {} t.pct c.val).count = 0 ∧
        t.rd (R.PCT_SEL_INVALID c.val) = 1 ∧
        t.rd (R.PCT_SEL_EVENT c.val) = w.toNat % 2 ^ 10 ∧
        t.rd (R.PCT_OVF_OVF (c.val / 32)) = u.rd (R.PCT_OVF_OVF (c.val / 32)) ∧
        (∀ k : Fin 1024, k ≠ c → IMap.get {} t.pct k.val = IMap.get {} u.pct k.val) ∧
        Touches [.srv, .rings, .regs .ring, .regs .pct] s t) ∧
  (∀ (s : State) (c : Fin 1024) (reader : Fin 3),
      let u := settleAll s.begin
      ∃ t, Sys2Proof.Machine.exec (.pctRead c reader) s = .next t ∧
        t.out = .readData ((IMap.get {} u.pct c.val).count % 2 ^ 32) :: u.out ∧
        (IMap.get {} t.pct c.val).count = (IMap.get {} u.pct c.val).count ∧
        (IMap.get {} t.pct c.val).event = (IMap.get {} u.pct c.val).event ∧
        ((if reader = 0 then (IMap.get {} t.pct c.val).hi0 else if reader = 1 then (IMap.get {} t.pct c.val).hi1 else (IMap.get {} t.pct c.val).hiK) = u.pctHi c.val) ∧
        (reader ≠ 0 → (IMap.get {} t.pct c.val).hi0 = (IMap.get {} u.pct c.val).hi0) ∧
        (reader ≠ 1 → (IMap.get {} t.pct c.val).hi1 = (IMap.get {} u.pct c.val).hi1) ∧
        (reader ≠ 2 → (IMap.get {} t.pct c.val).hiK = (IMap.get {} u.pct c.val).hiK) ∧
        (∀ k : Fin 1024, k ≠ c → IMap.get {} t.pct k.val = IMap.get {} u.pct k.val) ∧
        Touches [.srv, .rings, .regs .ring] s t) ∧
  (∀ (s : State) (c : Fin 1024),
      let u := settleAll s.begin
      ∃ t, Sys2Proof.Machine.exec (.pctOvfClear c) s = .next t ∧
        bit (t.rd (R.PCT_OVF_OVF (c.val / 32))) (c.val % 32) = false ∧
        (∀ j : Fin 32, j.val ≠ c.val % 32 → bit (t.rd (R.PCT_OVF_OVF (c.val / 32))) j.val = bit (u.rd (R.PCT_OVF_OVF (c.val / 32))) j.val) ∧
        (IMap.get {} t.pct c.val) = (IMap.get {} u.pct c.val) ∧
        Touches [.srv, .rings, .regs .ring] s t)

/-- ECC_ERROR.  A corrected word counts in WCH_ECC CORR and changes nothing else.  An uncorrectable one counts in UNCORR, sets ECC_UNCORR
and writes log record 0x0004 with the array and word; a Client State Table or grant entry is then removed and counted as if swept or
expired, a queued frame dropped, a received frame that waits in the packet buffer discarded and counted in RX_BUF_DROP (log entry 108), an unread interval record lost and counted, and a word of the firmware, the keys or the shadow begins a
warm reset unless a reset of its scope or a wider one is in progress.
Choices of the model that it rests on: log entry 44.
(Rests on 16_watch_counters.md.) -/
def Obligations.EccErrors : Prop :=
  (∀ (s : State) (a : EccArray) (word : Word),
      ∃ t, Sys2Proof.Machine.exec (.eccError a word true) s = .next t ∧
        t.rd R.WCH_ECC_CORR = satNat 16 (s.rd R.WCH_ECC_CORR + 1) ∧
        Frame [R.WCH_ECC_CORR] [] s t) ∧
  (∀ (s : State) (d : Fin 5) (word : Word),
      ∃ t, Sys2Proof.Machine.exec (.eccError (.other d) word false) s = .next t ∧
        t.rd R.WCH_ECC_UNCORR = satNat 16 (s.rd R.WCH_ECC_UNCORR + 1) ∧
        t.rd R.WCH_ECC_CORR = s.rd R.WCH_ECC_CORR ∧
        bit (t.rd R.WCH_EVT_BITS) 3 = true ∧
        t.rd R.LOG_NEXT_SEQ = (s.rd R.LOG_NEXT_SEQ + 1) % 2 ^ 32 ∧
        IMap.get {} t.log (s.rd R.LOG_NEXT_SEQ % logSize) = { seq := s.rd R.LOG_NEXT_SEQ, time := s.ts0, event := 0x0004, unit := (eccCode (.other d)).2, sender := 0, data := (eccCode (.other d)).1 :: le 4 word.toNat } ∧
        Frame ([R.WCH_ECC_UNCORR, R.WCH_EVT_BITS] ++ logFields) [.log] s t) ∧
  (∀ (s : State) (n : Fin 4) (e : Fin 2097152) (word : Word),
      (IMap.get {} s.srv.cst (n.val * 2097152 + e.val)).valid = true →
      ∃ t, Sys2Proof.Machine.exec (.eccError (.cst n e) word false) s = .next t ∧
        t.rd R.WCH_ECC_UNCORR = satNat 16 (s.rd R.WCH_ECC_UNCORR + 1) ∧
        t.rd R.WCH_ECC_CORR = s.rd R.WCH_ECC_CORR ∧
        bit (t.rd R.WCH_EVT_BITS) 3 = true ∧
        t.rd R.LOG_NEXT_SEQ = (s.rd R.LOG_NEXT_SEQ + 1) % 2 ^ 32 ∧
        IMap.get {} t.log (s.rd R.LOG_NEXT_SEQ % logSize) = { seq := s.rd R.LOG_NEXT_SEQ, time := s.ts0, event := 0x0004, unit := (eccCode (.cst n e)).2, sender := 0, data := (eccCode (.cst n e)).1 :: le 4 word.toNat } ∧
        (IMap.get {} t.srv.cst (n.val * 2097152 + e.val)).valid = false ∧
        (∀ k, k ≠ n.val * 2097152 + e.val → IMap.get {} t.srv.cst k = IMap.get {} s.srv.cst k) ∧
        IMap.get 0 t.srv.stats (2048 + n.val * 32 + 7) = (IMap.get 0 s.srv.stats (2048 + n.val * 32 + 7) + 1) % 2 ^ 64 ∧
        (∀ k, k ≠ 2048 + n.val * 32 + 7 → IMap.get 0 t.srv.stats k = IMap.get 0 s.srv.stats k) ∧
        t.srv.grants = s.srv.grants ∧
        t.srv.ports = s.srv.ports ∧
        Frame ([R.WCH_ECC_UNCORR, R.WCH_EVT_BITS] ++ logFields) [.log, .srv] s t) ∧
  (∀ (s : State) (n : Fin 4) (e : Fin 2097152) (word : Word),
      (IMap.get {} s.srv.cst (n.val * 2097152 + e.val)).valid = false →
      ∃ t, Sys2Proof.Machine.exec (.eccError (.cst n e) word false) s = .next t ∧
        t.rd R.WCH_ECC_UNCORR = satNat 16 (s.rd R.WCH_ECC_UNCORR + 1) ∧
        t.rd R.WCH_ECC_CORR = s.rd R.WCH_ECC_CORR ∧
        bit (t.rd R.WCH_EVT_BITS) 3 = true ∧
        t.rd R.LOG_NEXT_SEQ = (s.rd R.LOG_NEXT_SEQ + 1) % 2 ^ 32 ∧
        IMap.get {} t.log (s.rd R.LOG_NEXT_SEQ % logSize) = { seq := s.rd R.LOG_NEXT_SEQ, time := s.ts0, event := 0x0004, unit := (eccCode (.cst n e)).2, sender := 0, data := (eccCode (.cst n e)).1 :: le 4 word.toNat } ∧
        Frame ([R.WCH_ECC_UNCORR, R.WCH_EVT_BITS] ++ logFields) [.log] s t) ∧
  (∀ (s : State) (n : Fin 4) (e : Fin 16384) (word : Word),
      (s.grant (n.val * 16384 + e.val)).valid = true →
      ∃ t, Sys2Proof.Machine.exec (.eccError (.grant n e) word false) s = .next t ∧
        t.rd R.WCH_ECC_UNCORR = satNat 16 (s.rd R.WCH_ECC_UNCORR + 1) ∧
        t.rd R.WCH_ECC_CORR = s.rd R.WCH_ECC_CORR ∧
        bit (t.rd R.WCH_EVT_BITS) 3 = true ∧
        t.rd R.LOG_NEXT_SEQ = (s.rd R.LOG_NEXT_SEQ + 1) % 2 ^ 32 ∧
        IMap.get {} t.log (s.rd R.LOG_NEXT_SEQ % logSize) = { seq := s.rd R.LOG_NEXT_SEQ, time := s.ts0, event := 0x0004, unit := (eccCode (.grant n e)).2, sender := 0, data := (eccCode (.grant n e)).1 :: le 4 word.toNat } ∧
        (t.grant (n.val * 16384 + e.val)).valid = false ∧
        (∀ k, k ≠ n.val * 16384 + e.val → t.grant k = s.grant k) ∧
        IMap.get 0 t.srv.stats (2304 + n.val * 32 + 15) = (IMap.get 0 s.srv.stats (2304 + n.val * 32 + 15) + 1) % 2 ^ 64 ∧
        (∀ k, k ≠ 2304 + n.val * 32 + 15 → IMap.get 0 t.srv.stats k = IMap.get 0 s.srv.stats k) ∧
        t.srv.cst = s.srv.cst ∧
        t.srv.ports = s.srv.ports ∧
        Frame ([R.WCH_ECC_UNCORR, R.WCH_EVT_BITS] ++ logFields) [.log, .srv] s t) ∧
  (∀ (s : State) (n : Fin 4) (e : Fin 16384) (word : Word),
      (s.grant (n.val * 16384 + e.val)).valid = false →
      ∃ t, Sys2Proof.Machine.exec (.eccError (.grant n e) word false) s = .next t ∧
        t.rd R.WCH_ECC_UNCORR = satNat 16 (s.rd R.WCH_ECC_UNCORR + 1) ∧
        t.rd R.WCH_ECC_CORR = s.rd R.WCH_ECC_CORR ∧
        bit (t.rd R.WCH_EVT_BITS) 3 = true ∧
        t.rd R.LOG_NEXT_SEQ = (s.rd R.LOG_NEXT_SEQ + 1) % 2 ^ 32 ∧
        IMap.get {} t.log (s.rd R.LOG_NEXT_SEQ % logSize) = { seq := s.rd R.LOG_NEXT_SEQ, time := s.ts0, event := 0x0004, unit := (eccCode (.grant n e)).2, sender := 0, data := (eccCode (.grant n e)).1 :: le 4 word.toNat } ∧
        Frame ([R.WCH_ECC_UNCORR, R.WCH_EVT_BITS] ++ logFields) [.log] s t) ∧
  (∀ (s : State) (p : Fin 32) (q : Fin 8) (i : Nat) (word : Word),
      (s.txq p.val q.val).length ≤ i →
      ∃ t, Sys2Proof.Machine.exec (.eccError (.packet p q i) word false) s = .next t ∧
        t.rd R.WCH_ECC_UNCORR = satNat 16 (s.rd R.WCH_ECC_UNCORR + 1) ∧
        t.rd R.WCH_ECC_CORR = s.rd R.WCH_ECC_CORR ∧
        bit (t.rd R.WCH_EVT_BITS) 3 = true ∧
        t.rd R.LOG_NEXT_SEQ = (s.rd R.LOG_NEXT_SEQ + 1) % 2 ^ 32 ∧
        IMap.get {} t.log (s.rd R.LOG_NEXT_SEQ % logSize) = { seq := s.rd R.LOG_NEXT_SEQ, time := s.ts0, event := 0x0004, unit := (eccCode (.packet p q i)).2, sender := 0, data := (eccCode (.packet p q i)).1 :: le 4 word.toNat } ∧
        Frame ([R.WCH_ECC_UNCORR, R.WCH_EVT_BITS] ++ logFields) [.log] s t) ∧
  (∀ (s : State) (p : Fin 32) (q : Fin 8) (i : Nat) (word : Word),
      (s.txq p.val q.val).length ≤ i →
      ∃ t, Sys2Proof.Machine.exec (.eccError (.queue p q i) word false) s = .next t ∧
        t.rd R.WCH_ECC_UNCORR = satNat 16 (s.rd R.WCH_ECC_UNCORR + 1) ∧
        t.rd R.WCH_ECC_CORR = s.rd R.WCH_ECC_CORR ∧
        bit (t.rd R.WCH_EVT_BITS) 3 = true ∧
        t.rd R.LOG_NEXT_SEQ = (s.rd R.LOG_NEXT_SEQ + 1) % 2 ^ 32 ∧
        IMap.get {} t.log (s.rd R.LOG_NEXT_SEQ % logSize) = { seq := s.rd R.LOG_NEXT_SEQ, time := s.ts0, event := 0x0004, unit := (eccCode (.queue p q i)).2, sender := 0, data := (eccCode (.queue p q i)).1 :: le 4 word.toNat } ∧
        Frame ([R.WCH_ECC_UNCORR, R.WCH_EVT_BITS] ++ logFields) [.log] s t) ∧
  (∀ (s : State) (p : Fin 32) (q : Fin 8) (i : Nat) (word : Word),
      i < (s.txq p.val q.val).length →
      ∃ t, Sys2Proof.Machine.exec (.eccError (.packet p q i) word false) s = .next t ∧
        t.rd R.WCH_ECC_UNCORR = satNat 16 (s.rd R.WCH_ECC_UNCORR + 1) ∧
        t.rd R.WCH_ECC_CORR = s.rd R.WCH_ECC_CORR ∧
        bit (t.rd R.WCH_EVT_BITS) 3 = true ∧
        t.rd R.LOG_NEXT_SEQ = (s.rd R.LOG_NEXT_SEQ + 1) % 2 ^ 32 ∧
        IMap.get {} t.log (s.rd R.LOG_NEXT_SEQ % logSize) = { seq := s.rd R.LOG_NEXT_SEQ, time := s.ts0, event := 0x0004, unit := (eccCode (.packet p q i)).2, sender := 0, data := (eccCode (.packet p q i)).1 :: le 4 word.toNat } ∧
        t.txq p.val q.val = (s.txq p.val q.val).eraseIdx i ∧
        (∀ r : Fin 8, r ≠ q → t.txq p.val r.val = s.txq p.val r.val) ∧
        IMap.get 0 t.srv.stats (p.val * 64 + 42) = (IMap.get 0 s.srv.stats (p.val * 64 + 42) + 1) % 2 ^ 64 ∧
        Touches [.log, .srv, .rings, .regs .wch, .regs .ring] s t) ∧
  (∀ (s : State) (p : Fin 32) (q : Fin 8) (i : Nat) (word : Word),
      i < (s.txq p.val q.val).length →
      ∃ t, Sys2Proof.Machine.exec (.eccError (.queue p q i) word false) s = .next t ∧
        t.rd R.WCH_ECC_UNCORR = satNat 16 (s.rd R.WCH_ECC_UNCORR + 1) ∧
        t.rd R.WCH_ECC_CORR = s.rd R.WCH_ECC_CORR ∧
        bit (t.rd R.WCH_EVT_BITS) 3 = true ∧
        t.rd R.LOG_NEXT_SEQ = (s.rd R.LOG_NEXT_SEQ + 1) % 2 ^ 32 ∧
        IMap.get {} t.log (s.rd R.LOG_NEXT_SEQ % logSize) = { seq := s.rd R.LOG_NEXT_SEQ, time := s.ts0, event := 0x0004, unit := (eccCode (.queue p q i)).2, sender := 0, data := (eccCode (.queue p q i)).1 :: le 4 word.toNat } ∧
        t.txq p.val q.val = (s.txq p.val q.val).eraseIdx i ∧
        (∀ r : Fin 8, r ≠ q → t.txq p.val r.val = s.txq p.val r.val) ∧
        IMap.get 0 t.srv.stats (p.val * 64 + 42) = (IMap.get 0 s.srv.stats (p.val * 64 + 42) + 1) % 2 ^ 64 ∧
        Touches [.log, .srv, .rings, .regs .wch, .regs .ring] s t) ∧
  (∀ (s : State) (p : Fin 32) (i : Nat) (word : Word),
      i < (s.port p.val).fec.length →
      ∃ t, Sys2Proof.Machine.exec (.eccError (.received p i) word false) s = .next t ∧
        t.rd R.WCH_ECC_UNCORR = satNat 16 (s.rd R.WCH_ECC_UNCORR + 1) ∧
        t.rd R.WCH_ECC_CORR = s.rd R.WCH_ECC_CORR ∧
        bit (t.rd R.WCH_EVT_BITS) 3 = true ∧
        t.rd R.LOG_NEXT_SEQ = (s.rd R.LOG_NEXT_SEQ + 1) % 2 ^ 32 ∧
        IMap.get {} t.log (s.rd R.LOG_NEXT_SEQ % logSize) = { seq := s.rd R.LOG_NEXT_SEQ, time := s.ts0, event := 0x0004, unit := (eccCode (.received p i)).2, sender := 0, data := (eccCode (.received p i)).1 :: le 4 word.toNat } ∧
        (t.port p.val).fec = (s.port p.val).fec.eraseIdx i ∧
        (t.port p.val).queues = (s.port p.val).queues ∧
        IMap.get 0 t.srv.stats (p.val * 64 + 18) = (IMap.get 0 s.srv.stats (p.val * 64 + 18) + 1) % 2 ^ 64 ∧
        (∀ k, k ≠ p.val * 64 + 18 → IMap.get 0 t.srv.stats k = IMap.get 0 s.srv.stats k) ∧
        Frame ([R.WCH_ECC_UNCORR, R.WCH_EVT_BITS] ++ logFields) [.log, .srv] s t) ∧
  (∀ (s : State) (p : Fin 32) (i : Nat) (word : Word),
      (s.port p.val).fec.length ≤ i →
      ∃ t, Sys2Proof.Machine.exec (.eccError (.received p i) word false) s = .next t ∧
        t.rd R.WCH_ECC_UNCORR = satNat 16 (s.rd R.WCH_ECC_UNCORR + 1) ∧
        t.rd R.WCH_ECC_CORR = s.rd R.WCH_ECC_CORR ∧
        bit (t.rd R.WCH_EVT_BITS) 3 = true ∧
        t.rd R.LOG_NEXT_SEQ = (s.rd R.LOG_NEXT_SEQ + 1) % 2 ^ 32 ∧
        IMap.get {} t.log (s.rd R.LOG_NEXT_SEQ % logSize) = { seq := s.rd R.LOG_NEXT_SEQ, time := s.ts0, event := 0x0004, unit := (eccCode (.received p i)).2, sender := 0, data := (eccCode (.received p i)).1 :: le 4 word.toNat } ∧
        Frame ([R.WCH_ECC_UNCORR, R.WCH_EVT_BITS] ++ logFields) [.log] s t) ∧
  (∀ (s : State) (p : Fin 32) (word : Word),
      (s.port p.val).asm.isSome = true →
      ∃ t, Sys2Proof.Machine.exec (.eccError (.assembly p) word false) s = .next t ∧
        t.rd R.WCH_ECC_UNCORR = satNat 16 (s.rd R.WCH_ECC_UNCORR + 1) ∧
        t.rd R.WCH_ECC_CORR = s.rd R.WCH_ECC_CORR ∧
        bit (t.rd R.WCH_EVT_BITS) 3 = true ∧
        t.rd R.LOG_NEXT_SEQ = (s.rd R.LOG_NEXT_SEQ + 1) % 2 ^ 32 ∧
        IMap.get {} t.log (s.rd R.LOG_NEXT_SEQ % logSize) = { seq := s.rd R.LOG_NEXT_SEQ, time := s.ts0, event := 0x0004, unit := (eccCode (.assembly p)).2, sender := 0, data := (eccCode (.assembly p)).1 :: le 4 word.toNat } ∧
        (t.port p.val).asm = none ∧
        (t.port p.val).queues = (s.port p.val).queues ∧
        IMap.get 0 t.srv.stats (p.val * 64 + 18) = (IMap.get 0 s.srv.stats (p.val * 64 + 18) + 1) % 2 ^ 64 ∧
        (∀ k, k ≠ p.val * 64 + 18 → IMap.get 0 t.srv.stats k = IMap.get 0 s.srv.stats k) ∧
        Frame ([R.WCH_ECC_UNCORR, R.WCH_EVT_BITS] ++ logFields) [.log, .srv] s t) ∧
  (∀ (s : State) (p : Fin 32) (word : Word),
      (s.port p.val).asm = none →
      ∃ t, Sys2Proof.Machine.exec (.eccError (.assembly p) word false) s = .next t ∧
        t.rd R.WCH_ECC_UNCORR = satNat 16 (s.rd R.WCH_ECC_UNCORR + 1) ∧
        t.rd R.WCH_ECC_CORR = s.rd R.WCH_ECC_CORR ∧
        bit (t.rd R.WCH_EVT_BITS) 3 = true ∧
        t.rd R.LOG_NEXT_SEQ = (s.rd R.LOG_NEXT_SEQ + 1) % 2 ^ 32 ∧
        IMap.get {} t.log (s.rd R.LOG_NEXT_SEQ % logSize) = { seq := s.rd R.LOG_NEXT_SEQ, time := s.ts0, event := 0x0004, unit := (eccCode (.assembly p)).2, sender := 0, data := (eccCode (.assembly p)).1 :: le 4 word.toNat } ∧
        Frame ([R.WCH_ECC_UNCORR, R.WCH_EVT_BITS] ++ logFields) [.log] s t) ∧
  (∀ (s : State) (g : Fin 8) (slot : Fin 16384) (word : Word),
      (slot.val + 16384 - s.rd (R.TIM_GRP_RD_RD g.val)) % 16384 < (s.rd (R.TIM_GRP_WR_WR g.val) + 16384 - s.rd (R.TIM_GRP_RD_RD g.val)) % 16384 →
      ∃ t, Sys2Proof.Machine.exec (.eccError (.record g slot) word false) s = .next t ∧
        t.rd R.WCH_ECC_UNCORR = satNat 16 (s.rd R.WCH_ECC_UNCORR + 1) ∧
        t.rd R.WCH_ECC_CORR = s.rd R.WCH_ECC_CORR ∧
        bit (t.rd R.WCH_EVT_BITS) 3 = true ∧
        t.rd R.LOG_NEXT_SEQ = (s.rd R.LOG_NEXT_SEQ + 1) % 2 ^ 32 ∧
        IMap.get {} t.log (s.rd R.LOG_NEXT_SEQ % logSize) = { seq := s.rd R.LOG_NEXT_SEQ, time := s.ts0, event := 0x0004, unit := (eccCode (.record g slot)).2, sender := 0, data := (eccCode (.record g slot)).1 :: le 4 word.toNat } ∧
        IMap.get [] t.tim.rings (g.val * 16384 + slot.val) = [] ∧
        t.rd (R.TIM_GRP_LOST_LOST g.val) = satNat 32 (s.rd (R.TIM_GRP_LOST_LOST g.val) + 1) ∧
        Frame ([R.TIM_GRP_LOST_LOST g.val] ++ ([R.WCH_ECC_UNCORR, R.WCH_EVT_BITS] ++ logFields)) [.log, .tim] s t) ∧
  (∀ (s : State) (g : Fin 8) (slot : Fin 16384) (word : Word),
      ¬ (slot.val + 16384 - s.rd (R.TIM_GRP_RD_RD g.val)) % 16384 < (s.rd (R.TIM_GRP_WR_WR g.val) + 16384 - s.rd (R.TIM_GRP_RD_RD g.val)) % 16384 →
      ∃ t, Sys2Proof.Machine.exec (.eccError (.record g slot) word false) s = .next t ∧
        t.rd R.WCH_ECC_UNCORR = satNat 16 (s.rd R.WCH_ECC_UNCORR + 1) ∧
        t.rd R.WCH_ECC_CORR = s.rd R.WCH_ECC_CORR ∧
        bit (t.rd R.WCH_EVT_BITS) 3 = true ∧
        t.rd R.LOG_NEXT_SEQ = (s.rd R.LOG_NEXT_SEQ + 1) % 2 ^ 32 ∧
        IMap.get {} t.log (s.rd R.LOG_NEXT_SEQ % logSize) = { seq := s.rd R.LOG_NEXT_SEQ, time := s.ts0, event := 0x0004, unit := (eccCode (.record g slot)).2, sender := 0, data := (eccCode (.record g slot)).1 :: le 4 word.toNat } ∧
        Frame ([R.WCH_ECC_UNCORR, R.WCH_EVT_BITS] ++ logFields) [.log] s t) ∧
  (∀ (s : State) (a : EccArray) (word : Word),
      (a = .firmware ∨ a = .keys ∨ a = .shadow) →
      (∀ k, s.rst.active = some k → k.1.rank < ResetKind.warm.rank) →
      ∃ t, Sys2Proof.Machine.exec (.eccError a word false) s = .next t ∧
        t.rst.active = some (.warm, 0) ∧
        t.rst.stage = 0 ∧
        t.fw = {} ∧
        t.mbx = [] ∧
        t.rings = [] ∧
        t.power = {} ∧
        t.tick = s.tick ∧
        Touches Part.all s t) ∧
  (∀ (s : State) (a : EccArray) (word : Word),
      (a = .firmware ∨ a = .keys ∨ a = .shadow) →
      s.rst.active.isSome = true →
      (∀ k, s.rst.active = some k → ResetKind.warm.rank ≤ k.1.rank) →
      ∃ t, Sys2Proof.Machine.exec (.eccError a word false) s = .next t ∧
        t.rd R.WCH_ECC_UNCORR = satNat 16 (s.rd R.WCH_ECC_UNCORR + 1) ∧
        t.rd R.WCH_ECC_CORR = s.rd R.WCH_ECC_CORR ∧
        bit (t.rd R.WCH_EVT_BITS) 3 = true ∧
        t.rd R.LOG_NEXT_SEQ = (s.rd R.LOG_NEXT_SEQ + 1) % 2 ^ 32 ∧
        IMap.get {} t.log (s.rd R.LOG_NEXT_SEQ % logSize) = { seq := s.rd R.LOG_NEXT_SEQ, time := s.ts0, event := 0x0004, unit := (eccCode a).2, sender := 0, data := (eccCode a).1 :: le 4 word.toNat } ∧
        Frame ([R.WCH_ECC_UNCORR, R.WCH_EVT_BITS] ++ logFields) [.log] s t)

/-- WATCH_TEST_START, WATCH_TEST_END, WATCH_TEST_BOUND.  A waiting test begins 1 s after its disturbing condition was last found, unless it
is found again.  A test that ends returns what it borrowed, writes WCH_RES and log record 0x0B01 with result, flag, first failing unit
and measured value, and sets DONE, with FAIL for a failure; at its bound the result is BUSY with SKIP_BUSY.  Tests 0 and 5 keep what
failed; tests 6 and 7 are judged as the device counted.  The run goes to its next test, or ends: its command then finishes, and a
scheduled run that waited begins and takes the day.
Choices of the model that it rests on: log entries 91, 94 and 109.
(Rests on 16_watch_counters.md.) -/
def Obligations.WatchRuns : Prop :=
  (∀ (s : State),
      (s.watch.run = none ∨ ∀ r, s.watch.run = some r → r.tests = [] ∨ r.waiting = false) →
      ∃ t, Sys2Proof.Machine.exec (.watchTestStart) s = .next t ∧
        Frame [] [] s t) ∧
  (∀ (s : State) (r : WatchRun) (k : Nat) (rest : List Nat),
      s.watch.run = some r →
      r.tests = k :: rest →
      r.waiting = true →
      s.watchEmpty k = false →
      ((k = 4 ∧ s.spareCh = none) ∨ (k = 5 ∧ ∃ d ∈ s.ntsDies, 128 < (s.ntsDie d).queue.length)) →
      ∃ t, Sys2Proof.Machine.exec (.watchTestStart) s = .next t ∧
        Frame [] [] s t) ∧
  (∀ (s : State) (r : WatchRun) (k a : Nat) (rest : List Nat),
      let u := s.waitClk (a + sec16 1)
      let v := (beginTest k u).watch.run.getD {}
      s.watch.run = some r →
      r.tests = k :: rest →
      r.waiting = true →
      s.watchEmpty k = false →
      s.lastDisturbed r k = some a →
      a + sec16 1 ≤ r.since + sec16 (if r.scheduled = true then max 1 (s.rd R.WCH_CTL_WIN) else [20, 60, 30, 10, 30, 120, 60, 1].getD k 0) →
      ∃ t, Sys2Proof.Machine.exec (.watchTestStart) s = .next t ∧
        t.watch.run = some { r with waiting := false, since := u.clk, outs := v.outs, loop := v.loop, chan := v.chan, engs := v.engs } ∧
        r.foundAt ≤ a ∧
        (k ≠ 5 → a = r.foundAt) ∧
        (k = 5 → ∀ d ∈ s.ntsDies, ∀ b, (s.ntsDie d).busyAt = some b → b + sec16 1 ≤ a) ∧
        (k = 4 → ∃ c, v.chan = some c ∧ s.spareCh = some c) ∧
        (k = 5 → v.engs = List.range 12) ∧
        (k = 3 → ∀ o : Fin 32, o.val ∈ v.outs ↔ u.outState o.val = 0) ∧
        t.rd R.WCH_STAT_RUNNING = 1 ∧
        t.rd R.WCH_STAT_CURRENT = k % 8 ∧
        t.rd R.WCH_STAT_SCHEDULED = b01 r.scheduled ∧
        (k = 5 → ∀ d : Fin 4, t.lent d.val = if s.on (R.NTS_CTL_EN d.val) = true ∧ u.engineJob d.val 0 = none ∧ bit (s.rd (R.NTS_ENG_STAT_PARKED d.val)) 0 = false then 1 else 0) ∧
        Touches [.tick, .lanes, .tim, .gnss, .stack, .watch, .regs .gns, .regs .tim, .regs .wch, .regs .nts] s t) ∧
  (∀ (s : State) (r : WatchRun) (k : Fin 8) (a : Nat),
      let lim := r.since + sec16 (if r.scheduled = true then max 1 (s.rd R.WCH_CTL_WIN) else [20, 60, 30, 10, 30, 120, 60, 1].getD k.val 0)
      let u := s.waitClk lim
      s.watch.run = some r →
      r.tests = [k.val] →
      r.waiting = true →
      s.watchEmpty k.val = false →
      s.watch.due = false →
      s.lastDisturbed r k.val = some a →
      lim < a + sec16 1 →
      ∃ t, Sys2Proof.Machine.exec (.watchTestStart) s = .next t ∧
        t.rd (R.WCH_RES0_RESULT k.val) = 4 ∧
        t.rd (R.WCH_RES1_WHEN k.val) = u.ts0 / sec16 1 % 2 ^ 32 ∧
        t.watch.run = none ∧
        bit (t.rd R.WCH_EVT_BITS) 2 = true ∧
        Touches [.tick, .lanes, .tim, .gnss, .log, .srv, .stack, .fw, .watch, .regs .gns, .regs .tim, .regs .wch, .regs .nts] s t) ∧
  (∀ (s : State) (bad : List (Fin 256)) (m : Word),
      (∀ r, s.watch.run = some r → r.tests = [] ∨ r.waiting = true) →
      ∃ t, Sys2Proof.Machine.exec (.watchTestEnd bad m) s = .next t ∧
        Frame [] [] s t) ∧
  (∀ (s : State) (bad : List (Fin 256)) (m : Word) (r : WatchRun) (k : Fin 8),
      let u := s.waitClk (r.since + (if k = 3 then ms16 r.outs.length else if k = 5 then sec16 r.engs.length else 0))
      s.watch.run = some r →
      r.tests = [k.val] →
      s.watch.due = false →
      r.waiting = false →
      k ≠ 6 →
      k ≠ 7 →
      s.clk ≤ r.since + sec16 ([20, 60, 30, 10, 30, 120, 60, 1].getD k.val 0) →
      ∃ t, Sys2Proof.Machine.exec (.watchTestEnd bad m) s = .next t ∧
        (t.rd (R.WCH_RES0_RESULT k.val) = (if bad = [] then 1 else 2)) ∧
        t.rd (R.WCH_RES0_FORCED k.val) = b01 r.forced ∧
        t.rd (R.WCH_RES0_UNIT k.val) = ((bad.map (·.val)).headD 0) ∧
        t.rd (R.WCH_RES1_WHEN k.val) = u.ts0 / sec16 1 % 2 ^ 32 ∧
        t.watch.run = none ∧
        t.rd R.WCH_STAT_RUNNING = 0 ∧
        t.rd R.WCH_STAT_PENDING = 0 ∧
        bit (t.rd R.WCH_EVT_BITS) 0 = true ∧
        t.rd R.LOG_NEXT_SEQ = (s.rd R.LOG_NEXT_SEQ + 1) % 2 ^ 32 ∧
        (IMap.get {} t.log (s.rd R.LOG_NEXT_SEQ % logSize) = { seq := s.rd R.LOG_NEXT_SEQ, time := u.ts0, event := 0x0B01, unit := k.val, sender := r.sender, data := [(if bad = [] then 1 else 2), b01 r.forced, ((bad.map (·.val)).headD 0), 0] ++ le 4 (if k.val = 0 ∨ k.val = 5 then bad.length else m.toNat) }) ∧
        (∀ x ∈ t.fw.running, r.cmd = some x.id → x.ending.isSome = true) ∧
        (∀ o : Fin 32, t.outState o.val = s.rd (R.PLS_STAT_STATE o.val)) ∧
        (∀ d : Fin 4, t.lent d.val = 0) ∧
        (bad ≠ [] → bit (t.rd R.WCH_EVT_BITS) 1 = true) ∧
        (t.watch.badBanks = (if k = 0 then bad.map (·.val) else []) ++ s.watch.badBanks) ∧
        (t.watch.badEngines = (if k = 5 then bad.map (·.val) else []) ++ s.watch.badEngines) ∧
        (k = 5 → ∀ b ∈ bad, b.val < 48 → bit (t.rd (R.NTS_ENG_STAT_PARKED (b.val / 12))) (b.val % 12) = true) ∧
        Touches [.tick, .lanes, .tim, .gnss, .log, .srv, .stack, .fw, .watch, .regs .gns, .regs .tim, .regs .wch, .regs .nts] s t) ∧
  (∀ (s : State) (bad : List (Fin 256)) (m : Word) (r : WatchRun),
      let u := s.waitClk (r.since + sec16 60)
      let v := u.bertVerdict
      s.watch.run = some r →
      r.tests = [6] →
      s.watch.due = false →
      r.waiting = false →
      s.clk ≤ r.since + sec16 60 →
      ∃ t, Sys2Proof.Machine.exec (.watchTestEnd bad m) s = .next t ∧
        (t.rd (R.WCH_RES0_RESULT 6) = (if v.1 then 1 else 2)) ∧
        t.rd (R.WCH_RES0_FORCED 6) = b01 r.forced ∧
        t.rd (R.WCH_RES0_UNIT 6) = v.2.1 ∧
        t.rd (R.WCH_RES1_WHEN 6) = u.ts0 / sec16 1 % 2 ^ 32 ∧
        t.watch.run = none ∧
        t.rd R.WCH_STAT_RUNNING = 0 ∧
        t.rd R.WCH_STAT_PENDING = 0 ∧
        bit (t.rd R.WCH_EVT_BITS) 0 = true ∧
        t.rd R.LOG_NEXT_SEQ = (s.rd R.LOG_NEXT_SEQ + 1) % 2 ^ 32 ∧
        (IMap.get {} t.log (s.rd R.LOG_NEXT_SEQ % logSize) = { seq := s.rd R.LOG_NEXT_SEQ, time := u.ts0, event := 0x0B01, unit := 6, sender := r.sender, data := [(if v.1 then 1 else 2), b01 r.forced, v.2.1, 0] ++ le 4 (v.2.2) }) ∧
        (∀ x ∈ t.fw.running, r.cmd = some x.id → x.ending.isSome = true) ∧
        (∀ o : Fin 32, t.outState o.val = s.rd (R.PLS_STAT_STATE o.val)) ∧
        (∀ d : Fin 4, t.lent d.val = 0) ∧
        (v.1 = false → bit (t.rd R.WCH_EVT_BITS) 1 = true) ∧
        (v.1 = true ↔ ∀ l : Fin 2, s.morUp l.val = true → 1000000000000 ≤ (s.mor l.val).bertBits ∧ (s.mor l.val).bertErrs ≤ 1) ∧
        Touches [.tick, .lanes, .tim, .gnss, .log, .srv, .stack, .fw, .watch, .regs .gns, .regs .tim, .regs .wch, .regs .nts] s t) ∧
  (∀ (s : State) (bad : List (Fin 256)) (m : Word) (r : WatchRun),
      let out := s.stack.pings.filter (fun p => p.2.isSome)
      let u := (s.waitClk r.since).waitClk (out.foldl (fun a p => max a ((p.2.map (·.1)).getD 0 + ms16 2)) 0)
      s.watch.run = some r →
      r.tests = [7] →
      s.watch.due = false →
      r.waiting = false →
      s.clk ≤ r.since + sec16 1 →
      ∃ t, Sys2Proof.Machine.exec (.watchTestEnd bad m) s = .next t ∧
        (t.rd (R.WCH_RES0_RESULT 7) = (if s.stack.pings.any (fun p => p.2.isSome) then 2 else 1)) ∧
        t.rd (R.WCH_RES0_FORCED 7) = b01 r.forced ∧
        t.rd (R.WCH_RES0_UNIT 7) = 0 ∧
        t.rd (R.WCH_RES1_WHEN 7) = u.ts0 / sec16 1 % 2 ^ 32 ∧
        t.watch.run = none ∧
        t.rd R.WCH_STAT_RUNNING = 0 ∧
        t.rd R.WCH_STAT_PENDING = 0 ∧
        bit (t.rd R.WCH_EVT_BITS) 0 = true ∧
        t.rd R.LOG_NEXT_SEQ = (s.rd R.LOG_NEXT_SEQ + 1) % 2 ^ 32 ∧
        (IMap.get {} t.log (s.rd R.LOG_NEXT_SEQ % logSize) = { seq := s.rd R.LOG_NEXT_SEQ, time := u.ts0, event := 0x0B01, unit := 7, sender := r.sender, data := [(if s.stack.pings.any (fun p => p.2.isSome) then 2 else 1), b01 r.forced, 0, 0] ++ le 4 (s.stack.answered.length) }) ∧
        (∀ x ∈ t.fw.running, r.cmd = some x.id → x.ending.isSome = true) ∧
        (∀ o : Fin 32, t.outState o.val = s.rd (R.PLS_STAT_STATE o.val)) ∧
        (∀ d : Fin 4, t.lent d.val = 0) ∧
        (s.stack.pings.any (fun p => p.2.isSome) = true → bit (t.rd R.WCH_EVT_BITS) 1 = true) ∧
        Touches [.tick, .lanes, .tim, .gnss, .log, .srv, .stack, .fw, .watch, .regs .gns, .regs .tim, .regs .wch, .regs .nts] s t) ∧
  (∀ (s : State) (bad : List (Fin 256)) (m : Word) (r : WatchRun) (k j : Fin 8) (rest : List Nat),
      let u := s.begin.waitClk (r.since + (if k = 3 then ms16 r.outs.length else if k = 5 then sec16 r.engs.length else 0))
      let v := writeResult k.val (if bad = [] then 1 else 2) ((bad.map (·.val)).headD 0) (if k.val = 0 ∨ k.val = 5 then bad.length else m.toNat) (returnBorrowed (keepBad k.val (bad.map (·.val)) u))
      s.watch.run = some r →
      r.tests = k.val :: j.val :: rest →
      r.waiting = false →
      s.clk ≤ r.since + sec16 ([20, 60, 30, 10, 30, 120, 60, 1].getD k.val 0) →
      (∀ x ∈ j.val :: rest, k.val < x) →
      s.watchEmpty j.val = false →
      k ≠ 6 →
      k ≠ 7 →
      v.disturbs j.val = false →
      ∃ t, Sys2Proof.Machine.exec (.watchTestEnd bad m) s = .next t ∧
        (t.rd (R.WCH_RES0_RESULT k.val) = (if bad = [] then 1 else 2)) ∧
        t.watch.run.map (·.tests) = some (j.val :: rest) ∧
        t.watch.run.map (·.waiting) = some false ∧
        t.rd R.WCH_STAT_CURRENT = j.val ∧
        t.rd R.WCH_STAT_RUNNING = 1 ∧
        Touches [.tick, .lanes, .tim, .gnss, .log, .srv, .stack, .fw, .watch, .regs .gns, .regs .tim, .regs .wch, .regs .nts] s t) ∧
  (∀ (s : State) (bad : List (Fin 256)) (m : Word) (r : WatchRun) (k : Fin 8),
      s.watch.run = some r →
      r.tests = [k.val] →
      s.watch.due = false →
      r.waiting = false →
      r.since + sec16 ([20, 60, 30, 10, 30, 120, 60, 1].getD k.val 0) < s.clk →
      ∃ t, Sys2Proof.Machine.exec (.watchTestEnd bad m) s = .next t ∧
        t.rd (R.WCH_RES0_RESULT k.val) = 4 ∧
        t.rd (R.WCH_RES0_UNIT k.val) = 0 ∧
        t.rd (R.WCH_RES1_WHEN k.val) = s.ts0 / sec16 1 % 2 ^ 32 ∧
        t.watch.run = none ∧
        bit (t.rd R.WCH_EVT_BITS) 2 = true ∧
        t.tick = s.tick ∧
        t.watch.badBanks = s.watch.badBanks ∧
        t.watch.badEngines = s.watch.badEngines ∧
        Touches [.tick, .lanes, .tim, .gnss, .log, .srv, .stack, .fw, .watch, .regs .gns, .regs .tim, .regs .wch, .regs .nts] s t) ∧
  (∀ (s : State) (bad : List (Fin 256)) (m : Word) (r : WatchRun) (k : Fin 8),
      s.watch.run = some r →
      r.tests = [k.val] →
      s.watch.due = true →
      r.waiting = false →
      k ≠ 6 →
      k ≠ 7 →
      ∃ t, Sys2Proof.Machine.exec (.watchTestEnd bad m) s = .next t ∧
        t.rd R.WCH_STAT_LAST_DAY = s.utcDay ∧
        t.watch.due = false ∧
        (∀ x ∈ t.fw.running, r.cmd = some x.id → x.ending.isSome = true) ∧
        (∀ q, t.watch.run = some q → q.scheduled = true ∧ q.force = s.on R.WCH_CTL_FORCE ∧ q.cmd = none) ∧
        Touches [.tick, .lanes, .tim, .gnss, .log, .srv, .stack, .fw, .watch, .regs .gns, .regs .tim, .regs .wch, .regs .nts] s t) ∧
  (∀ (s : State),
      (∀ r, s.watch.run = some r → r.tests = []) →
      ∃ t, Sys2Proof.Machine.exec (.watchTestBound) s = .next t ∧
        Frame [] [] s t) ∧
  (∀ (s : State) (r : WatchRun) (k : Fin 8),
      let u := s.waitClk (r.since + sec16 (if r.waiting = true ∧ r.scheduled = true then max 1 (s.rd R.WCH_CTL_WIN) else [20, 60, 30, 10, 30, 120, 60, 1].getD k.val 0))
      s.watch.run = some r →
      r.tests = [k.val] →
      s.watch.due = false →
      ∃ t, Sys2Proof.Machine.exec (.watchTestBound) s = .next t ∧
        t.rd (R.WCH_RES0_RESULT k.val) = 4 ∧
        t.rd (R.WCH_RES0_FORCED k.val) = b01 r.forced ∧
        t.rd (R.WCH_RES0_UNIT k.val) = 0 ∧
        t.rd (R.WCH_RES1_WHEN k.val) = u.ts0 / sec16 1 % 2 ^ 32 ∧
        t.watch.run = none ∧
        t.rd R.WCH_STAT_RUNNING = 0 ∧
        t.rd R.WCH_STAT_PENDING = 0 ∧
        bit (t.rd R.WCH_EVT_BITS) 0 = true ∧
        t.rd R.LOG_NEXT_SEQ = (s.rd R.LOG_NEXT_SEQ + 1) % 2 ^ 32 ∧
        IMap.get {} t.log (s.rd R.LOG_NEXT_SEQ % logSize) = { seq := s.rd R.LOG_NEXT_SEQ, time := u.ts0, event := 0x0B01, unit := k.val, sender := r.sender, data := [4, b01 r.forced, 0, 0] ++ le 4 (0) } ∧
        (∀ x ∈ t.fw.running, r.cmd = some x.id → x.ending.isSome = true) ∧
        (∀ o : Fin 32, t.outState o.val = s.rd (R.PLS_STAT_STATE o.val)) ∧
        (∀ d : Fin 4, t.lent d.val = 0) ∧
        bit (t.rd R.WCH_EVT_BITS) 2 = true ∧
        t.watch.badBanks = s.watch.badBanks ∧
        t.watch.badEngines = s.watch.badEngines ∧
        Touches [.tick, .lanes, .tim, .gnss, .log, .srv, .stack, .fw, .watch, .regs .gns, .regs .tim, .regs .wch, .regs .nts] s t) ∧
  (∀ (s : State) (r : WatchRun) (k j : Nat) (rest : List Nat),
      s.watch.run = some r →
      r.tests = k :: j :: rest →
      ∃ t, Sys2Proof.Machine.exec (.watchTestBound) s = .next t ∧
        bit (t.rd R.WCH_EVT_BITS) 2 = true ∧
        bit (t.rd R.WCH_EVT_BITS) 0 = true ∧
        Touches [.tick, .lanes, .tim, .gnss, .log, .srv, .stack, .fw, .watch, .regs .gns, .regs .tim, .regs .wch, .regs .nts] s t)

/-- TAP_INSTRUCTION.  IDCODE, SAMPLE/PRELOAD and BYPASS, and Test-Logic-Reset, which selects IDCODE, leave the device running.  While
EXTEST, CLAMP, HIGHZ, EXTEST_PULSE or EXTEST_TRAIN is in force every port and Mooring link is DOWN, the timescale keeps counting and the
boundary cells drive the outputs, none in HIGHZ.  Any other instruction after one of these begins a cold reset, unless one or a power-on
reset is in progress.  An 8-bit code not of the eight is BYPASS.  A scan shifts out the identification, the bypass bit or the captured
balls, and a full scan of the boundary register loads its cells.
Choices of the model that it rests on: log entry 45.
(Rests on 17_electrical.md; the cells' places and the captured balls are
free values, log entry 108.) -/
def Obligations.TapInstructions : Prop :=
  (∀ b : Byte, tapDecode b.toNat = (match b.toNat with
      | 1 => .idcode
      | 2 => .sample
      | 3 => .extest
      | 4 => .clamp
      | 5 => .highz
      | 6 => .extestPulse
      | 7 => .extestTrain
      | _ => .bypass)) ∧
  (∀ (s : State) (tdi : List Bool),
      s.rst.tap = .idcode →
      ∃ t, Sys2Proof.Machine.exec (.tapInstruction (.scan tdi)) s = .next t ∧
        t.out = .tdo (((List.range 32).map (0x1083246B : Nat).testBit ++ tdi).take tdi.length) :: s.out ∧
        Frame [] [] s t) ∧
  (∀ (s : State) (tdi : List Bool),
      (s.rst.tap = .bypass ∨ s.rst.tap = .clamp ∨ s.rst.tap = .highz) →
      ∃ t, Sys2Proof.Machine.exec (.tapInstruction (.scan tdi)) s = .next t ∧
        t.out = .tdo ((false :: tdi).take tdi.length) :: s.out ∧
        Frame [] [] s t) ∧
  (∀ (s : State) (tdi : List Bool),
      (s.rst.tap = .sample ∨ s.rst.tap = .extest ∨ s.rst.tap = .extestPulse ∨ s.rst.tap = .extestTrain) →
      tdi.length = 1210 →
      ∃ t, Sys2Proof.Machine.exec (.tapInstruction (.scan tdi)) s = .next t ∧
        (∀ k : Fin 1210, t.rst.cells.getLsbD k.val = tdi.getD k.val false) ∧
        t.rst.tap = s.rst.tap ∧
        t.out = .tdo ((List.range 1210).map (Config.boundaryPins (s.cycle + 1)).getLsbD) :: s.out ∧
        Frame [] [.rst] s t) ∧
  (∀ (s : State) (op : TapOp) (i : TapInstr),
      ((op = .reset ∧ i = .idcode) ∨ ∃ b : Byte, op = .load b ∧ tapDecode b.toNat = i) →
      s.rst.tap ∉ [TapInstr.extest, .clamp, .highz, .extestPulse, .extestTrain] →
      i ∉ [TapInstr.extest, .clamp, .highz, .extestPulse, .extestTrain] →
      ∃ t, Sys2Proof.Machine.exec (.tapInstruction op) s = .next t ∧
        (t.rst = { s.rst with tap := i }) ∧
        Frame [] [.rst] s t) ∧
  (∀ (s : State) (op : TapOp) (i : TapInstr),
      ((op = .reset ∧ i = .idcode) ∨ ∃ b : Byte, op = .load b ∧ tapDecode b.toNat = i) →
      i ∈ [TapInstr.extest, .clamp, .highz, .extestPulse, .extestTrain] →
      (s.rst.tap ∉ [TapInstr.extest, .clamp, .highz, .extestPulse, .extestTrain] ∨ s.rst.tap = i) →
      ∃ t, Sys2Proof.Machine.exec (.tapInstruction op) s = .next t ∧
        t.rst = { s.rst with tap := i } ∧
        (∀ p : Fin 32, t.link p.val = 0) ∧
        (∀ l : Fin 2, t.morState l.val = 0) ∧
        (∀ o : Fin 32, t.ball o.val = (if s.rst.porLow = true ∨ i = .highz then none else some (t.rst.cells.getLsbD (Config.outCell o.val).val))) ∧
        Touches [.ens, .log, .srv, .rings, .stack, .rst, .regs .ens, .regs .mor, .regs .wch, .regs .mac, .regs .nts, .regs .ring] s t) ∧
  (∀ (s : State) (op : TapOp) (i : TapInstr),
      ((op = .reset ∧ i = .idcode) ∨ ∃ b : Byte, op = .load b ∧ tapDecode b.toNat = i) →
      s.rst.tap ∈ [TapInstr.extest, .clamp, .highz, .extestPulse, .extestTrain] →
      s.rst.tap ≠ i →
      i ∉ [TapInstr.extest, .clamp, .highz, .extestPulse, .extestTrain] →
      (∀ a, s.rst.active = some a → a.1.rank < ResetKind.cold.rank) →
      ∃ t, Sys2Proof.Machine.exec (.tapInstruction op) s = .next t ∧
        t.rst.active = some (.cold, 0) ∧
        t.rst.stage = 0 ∧
        (t.rst.tap = i) ∧
        t.regs = [] ∧
        t.mem = [] ∧
        t.tick = {} ∧
        t.log = [] ∧
        t.fw = {} ∧
        t.mbx = [] ∧
        t.rings = [] ∧
        t.ens = {} ∧
        t.gnss = {} ∧
        t.watch = {} ∧
        t.power = {} ∧
        t.lanes = [] ∧
        t.pct = [] ∧
        t.srv.ports = [] ∧
        t.cfg.flash = s.cfg.cutOff.flash ∧
        Touches Part.all s t) ∧
  (∀ (s : State) (op : TapOp) (i : TapInstr),
      ((op = .reset ∧ i = .idcode) ∨ ∃ b : Byte, op = .load b ∧ tapDecode b.toNat = i) →
      s.rst.tap ∈ [TapInstr.extest, .clamp, .highz, .extestPulse, .extestTrain] →
      s.rst.tap ≠ i →
      i ∈ [TapInstr.extest, .clamp, .highz, .extestPulse, .extestTrain] →
      (∀ a, s.rst.active = some a → a.1.rank < ResetKind.cold.rank) →
      ∃ t, Sys2Proof.Machine.exec (.tapInstruction op) s = .next t ∧
        t.rst.active = some (.cold, 0) ∧
        t.rst.tap = i ∧
        (∀ p : Fin 32, t.link p.val = 0) ∧
        (∀ l : Fin 2, t.morState l.val = 0) ∧
        t.tick = {} ∧
        t.fw = {} ∧
        Touches Part.all s t) ∧
  (∀ (s : State) (op : TapOp) (i : TapInstr),
      ((op = .reset ∧ i = .idcode) ∨ ∃ b : Byte, op = .load b ∧ tapDecode b.toNat = i) →
      s.rst.tap ∈ [TapInstr.extest, .clamp, .highz, .extestPulse, .extestTrain] →
      s.rst.tap ≠ i →
      i ∉ [TapInstr.extest, .clamp, .highz, .extestPulse, .extestTrain] →
      s.rst.active.isSome = true →
      (∀ a, s.rst.active = some a → ResetKind.cold.rank ≤ a.1.rank) →
      ∃ t, Sys2Proof.Machine.exec (.tapInstruction op) s = .next t ∧
        (t.rst = { s.rst with tap := i }) ∧
        Frame [] [.rst] s t)

/-- RC_READ, and the read side of FORBIDDEN_ACCESS and OFF_WINDOW_ACCESS.  A read returns the register's word and clears its RC fields; of a
reserved offset 0 on PF1; of a buffer its word; of a statistic's low word its count, cleared, with the high word latched; of a counter
the low word through the reader's latch; of a solution's first word with the six latched.  PF0 outside its blocks reads 0xFFFF_FFFF with
Unsupported Request, PF1 in the window of a die whose lane is OFF 0xFFFF_FFFF with Completer Abort, both through AER with nothing
changed.
Choices of the model that it rests on: log entries 5, 14, 66, 74 and 75.
(Rests on 01_architecture.md; 16_watch_counters.md.) -/
def Obligations.HostReads : Prop :=
  (∀ (s : State) (fn : Fin 2) (a : Nat) (r : Register),
      (fn = 1 ∨ pf0Reaches a = true) →
      a < 0x8000000 →
      s.windowOff a = false →
      (a < 0x100000 ∨ 0x100800 ≤ a) →
      s.bufferWord a = none →
      statAt a = none →
      ¬ (0x120000 ≤ a ∧ a < 0x140000) →
      ¬ (0x40214 ≤ a ∧ a < 0x40280) →
      regAt a = some r →
      ∃ t, Sys2Proof.Machine.exec (.rcRead fn a) s = .next t ∧
        t.out = .readData (s.show r) :: s.out ∧
        (∀ f ∈ r.fields, f.acc = .rc → t.rd f = 0) ∧
        Frame (r.fields.filter (fun f => f.acc = .rc)) [] s t) ∧
  (∀ (s : State) (a : Nat),
      a < 0x8000000 →
      s.windowOff a = false →
      (a < 0x100000 ∨ 0x100800 ≤ a) →
      s.bufferWord a = none →
      statAt a = none →
      ¬ (0x120000 ≤ a ∧ a < 0x140000) →
      ¬ (0x40214 ≤ a ∧ a < 0x40280) →
      regAt a = none →
      ∃ t, Sys2Proof.Machine.exec (.rcRead 1 a) s = .next t ∧
        t.out = .readData 0 :: s.out ∧
        Frame [] [] s t) ∧
  (∀ (s : State) (fn : Fin 2) (a v : Nat),
      (fn = 1 ∨ pf0Reaches a = true) →
      s.bufferWord a = some v →
      a < 0x8000000 →
      ∃ t, Sys2Proof.Machine.exec (.rcRead fn a) s = .next t ∧
        t.out = .readData v :: s.out ∧
        Frame [] [] s t) ∧
  (∀ (s : State) (a k : Nat),
      let u := settleAll s.begin
      statAt a = some (k, false) →
      s.windowOff a = false →
      ∃ t, Sys2Proof.Machine.exec (.rcRead 1 a) s = .next t ∧
        t.out = .readData (IMap.get 0 u.srv.stats k % 2 ^ 32) :: u.out ∧
        IMap.get 0 t.srv.stats k = 0 ∧
        IMap.get 0 t.srv.latch k = IMap.get 0 u.srv.stats k / 2 ^ 32 ∧
        (∀ j : Fin 2432, j.val ≠ k → IMap.get 0 t.srv.stats j.val = IMap.get 0 u.srv.stats j.val) ∧
        Touches [.srv, .rings, .regs .ring] s t) ∧
  (∀ (s : State) (a k : Nat),
      let u := settleAll s.begin
      statAt a = some (k, true) →
      s.windowOff a = false →
      ∃ t, Sys2Proof.Machine.exec (.rcRead 1 a) s = .next t ∧
        t.out = .readData (IMap.get 0 u.srv.latch k) :: u.out ∧
        t.srv.stats = u.srv.stats ∧
        Touches [.srv, .rings, .regs .ring] s t) ∧
  (∀ (s : State) (fn : Fin 2) (c : Fin 1024),
      let u := settleAll s.begin
      ∃ t, Sys2Proof.Machine.exec (.rcRead fn (0x120004 + 16 * c.val)) s = .next t ∧
        t.out = .readData ((IMap.get {} u.pct c.val).count % 2 ^ 32) :: u.out ∧
        ((if fn = 0 then (IMap.get {} t.pct c.val).hi0 else (IMap.get {} t.pct c.val).hi1) = u.pctHi c.val) ∧
        Touches [.srv, .rings, .regs .ring] s t) ∧
  (∀ (s : State) (fn : Fin 2) (c : Fin 1024),
      let u := settleAll s.begin
      ∃ t, Sys2Proof.Machine.exec (.rcRead fn (0x120008 + 16 * c.val)) s = .next t ∧
        (t.out = .readData (if fn = 0 then (IMap.get {} u.pct c.val).hi0 else (IMap.get {} u.pct c.val).hi1) :: u.out) ∧
        Touches [.srv, .rings, .regs .ring] s t) ∧
  (∀ (s : State) (n : Fin 2),
      ∃ t, Sys2Proof.Machine.exec (.rcRead 1 (0x40214 + 0x40 * n.val)) s = .next t ∧
        t.out = .readData (s.peek (0x40214 + 0x40 * n.val)) :: s.out ∧
        (∀ k : Fin 6, IMap.get 0 (t.gnsAnt n.val).latch k.val = s.peek (0x40214 + 0x40 * n.val + 4 * k.val)) ∧
        Frame [] [.gnss] s t) ∧
  (∀ (s : State) (n : Fin 2) (k : Fin 6),
      0 < k.val →
      IMap.get 0 (s.gnsAnt n.val).latch 6 = 1 →
      ∃ t, Sys2Proof.Machine.exec (.rcRead 1 (0x40214 + 0x40 * n.val + 4 * k.val)) s = .next t ∧
        t.out = .readData (IMap.get 0 (s.gnsAnt n.val).latch k.val) :: s.out ∧
        Frame [] [] s t) ∧
  (∀ (s : State) (fn : Fin 2) (a : Nat),
      let u := settleEnded s
      0x8000000 ≤ a ∧ a < 0x9000000 →
      ((a - 0x8000000) / 0x1000) < 258 →
      u.reaches fn.val ((a - 0x8000000) / 0x1000) = true →
      a ≠ 0x8101188 →
      ∃ t, Sys2Proof.Machine.exec (.rcRead fn a) s = .next t ∧
        t.out = .readData (u.peek a) :: u.out ∧
        Frame (((regAt a).map (fun r => r.fields.filter (fun f => f.acc = .rc))).getD []) [] u t) ∧
  (∀ (s : State) (a : Nat),
      a < 0x8000000 →
      pf0Reaches a = false →
      ∃ t, Sys2Proof.Machine.exec (.forbiddenAccess a none) s = .next t ∧
        t.out = .readData 0xFFFFFFFF :: .aer 0 a false :: s.out ∧
        Frame [] [] s t) ∧
  (∀ (s : State) (a : Nat),
      let u := settleEnded s
      0x8000000 ≤ a ∧ a < 0x9000000 →
      (258 ≤ ((a - 0x8000000) / 0x1000) ∨ u.reaches 0 ((a - 0x8000000) / 0x1000) = false) →
      ∃ t, Sys2Proof.Machine.exec (.forbiddenAccess a none) s = .next t ∧
        t.out = .readData 0xFFFFFFFF :: .aer 0 a false :: u.out ∧
        Frame [] [] u t) ∧
  (∀ (s : State) (a : Nat),
      let u := settleEnded s
      0x8000000 ≤ a ∧ a < 0x9000000 →
      258 ≤ ((a - 0x8000000) / 0x1000) →
      ∃ t, Sys2Proof.Machine.exec (.rcRead 1 a) s = .next t ∧
        t.out = .readData 0 :: u.out ∧
        Frame [] [] u t) ∧
  (∀ (s : State) (a : Nat),
      s.windowOff a = true →
      ∃ t, Sys2Proof.Machine.exec (.offWindowAccess a none) s = .next t ∧
        t.out = .readData 0xFFFFFFFF :: .aer 1 a true :: s.out ∧
        Frame [] [] s t) ∧
  (∀ (s : State) (fn : Fin 2) (a : Nat),
      0x9000000 ≤ a →
      Sys2Proof.Machine.exec (.rcRead fn a) s = .fault (.noSuchAddress a))

/-- REGISTER_WRITE, and the write side of FORBIDDEN_ACCESS and OFF_WINDOW_ACCESS.  PF1's write of a register with no effect of its own
stores RW and RWS fields, RWL fields until they are locked, clears W1C bits written 1 and leaves the others; event enables are taken,
and one set on a standing event sends the vector's message; a reserved offset discards the write.  PF0 writes its own mailbox events
alone: elsewhere in its blocks the write is discarded, a counter's logged through AER; outside them, and in a ring page it does not
reach, it is an Unsupported Request; in the window of a die whose lane is OFF the write is discarded and logged.
Choices of the model that it rests on: log entries 5, 14, 26, 66 and 76.
(Rests on
01_architecture.md; 16_watch_counters.md.) -/
def Obligations.HostWrites : Prop :=
  (∀ (s : State) (a : Nat) (w : Word) (r : Register),
      a < 0x8000000 →
      s.windowOff a = false →
      (a < 0x100000 ∨ 0x100800 ≤ a) →
      ¬ (0x120000 ≤ a ∧ a < 0x140000) →
      (writeTsc 2 a w.toNat).or ((writeEns 2 a w.toNat).or ((writeGns a w.toNat).or ((writeKeeper 2 a w.toNat).or (writeDie a w.toNat)))) = none →
      evtAt a = none →
      regAt a = some r →
      ∃ t, Sys2Proof.Machine.exec (.registerWrite 1 a w) s = .next t ∧
        (∀ f ∈ r.fields, t.rd f = stored (s.on R.CFG_STAT_LOCKED) f (s.rd f) w.toNat) ∧
        Frame r.fields [] s t) ∧
  (∀ (s : State) (a : Nat) (w : Word) (e : EvtSrc) (r : Register) (f : Field),
      a < 0x8000000 →
      s.windowOff a = false →
      (a < 0x100000 ∨ 0x100800 ≤ a) →
      ¬ (0x120000 ≤ a ∧ a < 0x140000) →
      (writeTsc 2 a w.toNat).or ((writeEns 2 a w.toNat).or ((writeGns a w.toNat).or ((writeKeeper 2 a w.toNat).or (writeDie a w.toNat)))) = none →
      evtAt a = some e →
      e.en = some f →
      regAt a = some r →
      r.fields = [f] →
      ∃ t, Sys2Proof.Machine.exec (.registerWrite 1 a w) s = .next t ∧
        t.rd f = enableBits f (f.of w.toNat) % 2 ^ f.width ∧
        ((t.rd f &&& (2 ^ f.width - 1 - s.rd f)) &&& s.rd e.ev ≠ 0 → s.rd (R.MSIX_CTRL_MASK (e.fn * 64 + e.vec)) = 0 → .msi e.fn e.vec s.cycle ∈ t.out) ∧
        ((t.rd f &&& (2 ^ f.width - 1 - s.rd f)) &&& s.rd e.ev ≠ 0 → s.rd (R.MSIX_CTRL_MASK (e.fn * 64 + e.vec)) = 1 →
          .msi e.fn e.vec s.cycle ∉ s.out → bit (t.rd (R.MSIX_PBA_P (e.fn * 2 + e.vec / 32))) (e.vec % 32) = true) ∧
        ((t.rd f &&& (2 ^ f.width - 1 - s.rd f)) &&& s.rd e.ev = 0 → t.out = s.out) ∧
        Frame [f] [] s t) ∧
  (∀ (s : State) (a : Nat) (w : Word),
      a < 0x8000000 →
      s.windowOff a = false →
      (a < 0x100000 ∨ 0x100800 ≤ a) →
      ¬ (0x120000 ≤ a ∧ a < 0x140000) →
      (writeTsc 2 a w.toNat).or ((writeEns 2 a w.toNat).or ((writeGns a w.toNat).or ((writeKeeper 2 a w.toNat).or (writeDie a w.toNat)))) = none →
      regAt a = none →
      ∃ t, Sys2Proof.Machine.exec (.registerWrite 1 a w) s = .next t ∧
        Frame [] [] s t) ∧
  (∀ (s : State) (a : Nat) (w : Word),
      a < 0x10000 →
      ∃ t, Sys2Proof.Machine.exec (.registerWrite 0 a w) s = .next t ∧
        Frame [] [] s t) ∧
  (∀ (s : State) (a : Nat) (w : Word),
      0x120000 ≤ a ∧ a < 0x140000 →
      ∃ t, Sys2Proof.Machine.exec (.registerWrite 0 a w) s = .next t ∧
        t.out = .aer 0 a false :: s.out ∧
        Frame [] [] s t) ∧
  (∀ (s : State) (w : Word),
      ∃ t, Sys2Proof.Machine.exec (.registerWrite 0 0x100800 w) s = .next t ∧
        t.rd (R.MBX_EVT_BITS 0) = s.rd (R.MBX_EVT_BITS 0) &&& (2 ^ (R.MBX_EVT_BITS 0).width - 1 - (R.MBX_EVT_BITS 0).of w.toNat) ∧
        Frame [R.MBX_EVT_BITS 0] [] s t) ∧
  (∀ (s : State) (fn : Fin 2) (a : Nat) (w : Word),
      let u := settleEnded s
      0x8000000 ≤ a ∧ a < 0x9000000 →
      ((a - 0x8000000) / 0x1000) < 258 →
      u.reaches fn.val ((a - 0x8000000) / 0x1000) = true →
      u.ownsRing fn.val ((a - 0x8000000) / 0x1000) = false →
      a % 0x1000 ≠ 0 →
      a % 0x1000 ≠ 0xC →
      ∃ t, Sys2Proof.Machine.exec (.registerWrite fn a w) s = .next t ∧
        Frame [] [] u t) ∧
  (∀ (s : State) (a : Nat) (w : Word),
      a < 0x8000000 →
      pf0Reaches a = false →
      ∃ t, Sys2Proof.Machine.exec (.forbiddenAccess a (some w)) s = .next t ∧
        t.out = .aer 0 a false :: s.out ∧
        Frame [] [] s t) ∧
  (∀ (s : State) (a : Nat) (w : Word),
      let u := settleEnded s
      0x8000000 ≤ a ∧ a < 0x9000000 →
      (258 ≤ ((a - 0x8000000) / 0x1000) ∨ u.reaches 0 ((a - 0x8000000) / 0x1000) = false) →
      ∃ t, Sys2Proof.Machine.exec (.forbiddenAccess a (some w)) s = .next t ∧
        t.out = .aer 0 a false :: u.out ∧
        Frame [] [] u t) ∧
  (∀ (s : State) (a : Nat) (w : Word),
      s.windowOff a = true →
      ∃ t, Sys2Proof.Machine.exec (.offWindowAccess a (some w)) s = .next t ∧
        t.out = .aer 1 a true :: s.out ∧
        Frame [] [] s t) ∧
  (∀ (s : State) (fn : Fin 2) (a : Nat) (w : Word),
      0x9000000 ≤ a →
      Sys2Proof.Machine.exec (.registerWrite fn a w) s = .fault (.noSuchAddress a))

/-- Over a path that reaches the channel and with its receiver up: an accepted sender reads 0 of an EMPTY channel, which is then LOCKED with
the reader its owner; of a channel in any other state it reads the owner's ID, its own where it is the owner; a reader that is not
accepted reads 0xFF and nothing changes.  None of these sets REJECT, and each answer fits one byte. (States R404.) -/
def Obligations.LockReadAnswers : Prop :=
  (∀ (s : State) (c : Fin 16) (p : MbxPath),
      (c.val < 8 ∨ reachesSecure p = true) →
      s.rxDown c.val = false →
      mbxAccepts c.val (pathId p) = true →
      s.mbxState c.val = 0 →
      ∃ t, Sys2Proof.Machine.exec (.mbxLockRead c [p]) s = .next t ∧
        t.out = .lockRead (pathId p) 0 :: s.out ∧
        t.mbxState c.val = 1 ∧
        t.mbxOwner c.val = pathId p ∧
        Frame [R.MBX_STAT_STATE c.val, R.MBX_STAT_OWNER c.val] [.mbx] s t) ∧
  (∀ (s : State) (c : Fin 16) (p : MbxPath),
      (c.val < 8 ∨ reachesSecure p = true) →
      s.rxDown c.val = false →
      mbxAccepts c.val (pathId p) = true →
      s.mbxState c.val ≠ 0 →
      ∃ t, Sys2Proof.Machine.exec (.mbxLockRead c [p]) s = .next t ∧
        t.out = .lockRead (pathId p) (s.mbxOwner c.val) :: s.out ∧
        s.mbxOwner c.val < 256 ∧
        Frame [] [] s t) ∧
  (∀ (s : State) (c : Fin 16) (p : MbxPath),
      (c.val < 8 ∨ reachesSecure p = true) →
      s.rxDown c.val = false →
      mbxAccepts c.val (pathId p) = false →
      ∃ t, Sys2Proof.Machine.exec (.mbxLockRead c [p]) s = .next t ∧
        t.out = .lockRead (pathId p) 0xFF :: s.out ∧
        Frame [] [] s t)
end

