-- ==== Sys2Proof/Laws/Blocks.lean ====
section
/-! SUPPORT. The block of each register field a command writes. -/

namespace Sys2Proof.Machine

theorem has_R_CFG_APPLY_PAIRS : Block.has .pwr R.CFG_APPLY_PAIRS.key = true := by decide

theorem has_R_CFG_APPLY_SKIPPED : Block.has .pwr R.CFG_APPLY_SKIPPED.key = true := by decide

theorem has_R_CFG_EVT_BITS : Block.has .pwr R.CFG_EVT_BITS.key = true := by decide

theorem has_R_CFG_FLASH_MODE : Block.has .pwr R.CFG_FLASH_MODE.key = true := by decide

theorem has_R_CFG_FLASH_SIZE : Block.has .pwr R.CFG_FLASH_SIZE.key = true := by decide

theorem has_R_CFG_SEQ_SEQ : Block.has .pwr R.CFG_SEQ_SEQ.key = true := by decide

theorem has_R_CFG_STAT_ACTIVE_SLOT : Block.has .pwr R.CFG_STAT_ACTIVE_SLOT.key = true := by decide

theorem has_R_CFG_STAT_ACTIVE_VALID : Block.has .pwr R.CFG_STAT_ACTIVE_VALID.key = true := by decide

theorem has_R_CFG_STAT_COMMIT_BUSY : Block.has .pwr R.CFG_STAT_COMMIT_BUSY.key = true := by decide

theorem has_R_CFG_STAT_ERR : Block.has .pwr R.CFG_STAT_ERR.key = true := by decide

theorem has_R_CFG_STAT_LOCKED : Block.has .pwr R.CFG_STAT_LOCKED.key = true := by decide

theorem has_R_CFG_STAT_NO_IMAGE : Block.has .pwr R.CFG_STAT_NO_IMAGE.key = true := by decide

theorem has_R_CFG_STAT_NO_SFDP : Block.has .pwr R.CFG_STAT_NO_SFDP.key = true := by decide

theorem has_R_CFG_STAT_OTHER_VALID : Block.has .pwr R.CFG_STAT_OTHER_VALID.key = true := by decide

theorem has_R_CFG_STAT_STEP : Block.has .pwr R.CFG_STAT_STEP.key = true := by decide

theorem has_R_DEV_DIE_STAT_KFW_RUN : Block.has .dev R.DEV_DIE_STAT_KFW_RUN.key = true := by decide

theorem has_R_DEV_LANE_EVT_COAST : Block.has .dev R.DEV_LANE_EVT_COAST.key = true := by decide

theorem has_R_DEV_LANE_EVT_FAULT : Block.has .dev R.DEV_LANE_EVT_FAULT.key = true := by decide

theorem has_R_ENS_ANCHOR_ACTIVE : Block.has .ens R.ENS_ANCHOR_ACTIVE.key = true := by decide

theorem has_R_ENS_ANCHOR_HOLD : Block.has .ens R.ENS_ANCHOR_HOLD.key = true := by decide

theorem has_R_ENS_DECIDE_DONE : Block.has .ens R.ENS_DECIDE_DONE.key = true := by decide

theorem has_R_ENS_DECIDE_GO : Block.has .ens R.ENS_DECIDE_GO.key = true := by decide

theorem has_R_ENS_DECIDE_REFUSED : Block.has .ens R.ENS_DECIDE_REFUSED.key = true := by decide

theorem has_R_ENS_DRIFT_D : Block.has .ens R.ENS_DRIFT_D.key = true := by decide

theorem has_R_ENS_ERR_ERR : Block.has .ens R.ENS_ERR_ERR.key = true := by decide

theorem has_R_ENS_EVT_BITS : Block.has .ens R.ENS_EVT_BITS.key = true := by decide

theorem has_R_ENS_FREQ_Y : Block.has .ens R.ENS_FREQ_Y.key = true := by decide

theorem has_R_ENS_HO_TIME_SECONDS : Block.has .ens R.ENS_HO_TIME_SECONDS.key = true := by decide

theorem has_R_ENS_PHASE_THETA : Block.has .ens R.ENS_PHASE_THETA.key = true := by decide

theorem has_R_ENS_S1_FREQ_Y : Block.has .ens R.ENS_S1_FREQ_Y.key = true := by decide

theorem has_R_ENS_S1_PHASE_THETA : Block.has .ens R.ENS_S1_PHASE_THETA.key = true := by decide

theorem has_R_ENS_SLOT_ASYM_A (n : Nat) : Block.has .ens (R.ENS_SLOT_ASYM_A n).key = true := by
  refine decide_eq_true ?_
  simp only [R.ENS_SLOT_ASYM_A, Field.mk']; omega

theorem has_R_ENS_SLOT_BIAS_B (n : Nat) : Block.has .ens (R.ENS_SLOT_BIAS_B n).key = true := by
  refine decide_eq_true ?_
  simp only [R.ENS_SLOT_BIAS_B, Field.mk']; omega

theorem has_R_ENS_SLOT_BIAS_HI_B (n : Nat) : Block.has .ens (R.ENS_SLOT_BIAS_HI_B n).key = true := by
  refine decide_eq_true ?_
  simp only [R.ENS_SLOT_BIAS_HI_B, Field.mk']; omega

theorem has_R_ENS_SLOT_CFG_BIAS_FIX (n : Nat) : Block.has .ens (R.ENS_SLOT_CFG_BIAS_FIX n).key = true := by
  refine decide_eq_true ?_
  simp only [R.ENS_SLOT_CFG_BIAS_FIX, Field.mk']; omega

theorem has_R_ENS_SLOT_CFG_CLASS (n : Nat) : Block.has .ens (R.ENS_SLOT_CFG_CLASS n).key = true := by
  refine decide_eq_true ?_
  simp only [R.ENS_SLOT_CFG_CLASS, Field.mk']; omega

theorem has_R_ENS_SLOT_CFG_EN (n : Nat) : Block.has .ens (R.ENS_SLOT_CFG_EN n).key = true := by
  refine decide_eq_true ?_
  simp only [R.ENS_SLOT_CFG_EN, Field.mk']; omega

theorem has_R_ENS_SLOT_CFG_REFID (n : Nat) : Block.has .ens (R.ENS_SLOT_CFG_REFID n).key = true := by
  refine decide_eq_true ?_
  simp only [R.ENS_SLOT_CFG_REFID, Field.mk']; omega

theorem has_R_ENS_SLOT_CFG_SET (n : Nat) : Block.has .ens (R.ENS_SLOT_CFG_SET n).key = true := by
  refine decide_eq_true ?_
  simp only [R.ENS_SLOT_CFG_SET, Field.mk']; omega

theorem has_R_ENS_SLOT_CFG_TB (n : Nat) : Block.has .ens (R.ENS_SLOT_CFG_TB n).key = true := by
  refine decide_eq_true ?_
  simp only [R.ENS_SLOT_CFG_TB, Field.mk']; omega

theorem has_R_ENS_SLOT_CFG_TI_CH (n : Nat) : Block.has .ens (R.ENS_SLOT_CFG_TI_CH n).key = true := by
  refine decide_eq_true ?_
  simp only [R.ENS_SLOT_CFG_TI_CH, Field.mk']; omega

theorem has_R_ENS_SLOT_CMD_CLR_ASYM (n : Nat) : Block.has .ens (R.ENS_SLOT_CMD_CLR_ASYM n).key = true := by
  refine decide_eq_true ?_
  simp only [R.ENS_SLOT_CMD_CLR_ASYM, Field.mk']; omega

theorem has_R_ENS_SLOT_CMD_QUARANTINE (n : Nat) : Block.has .ens (R.ENS_SLOT_CMD_QUARANTINE n).key = true := by
  refine decide_eq_true ?_
  simp only [R.ENS_SLOT_CMD_QUARANTINE, Field.mk']; omega

theorem has_R_ENS_SLOT_CMD_RELEARN (n : Nat) : Block.has .ens (R.ENS_SLOT_CMD_RELEARN n).key = true := by
  refine decide_eq_true ?_
  simp only [R.ENS_SLOT_CMD_RELEARN, Field.mk']; omega

theorem has_R_ENS_SLOT_CMD_RELEASE (n : Nat) : Block.has .ens (R.ENS_SLOT_CMD_RELEASE n).key = true := by
  refine decide_eq_true ?_
  simp only [R.ENS_SLOT_CMD_RELEASE, Field.mk']; omega

theorem has_R_ENS_SLOT_DLY_DLY (n : Nat) : Block.has .ens (R.ENS_SLOT_DLY_DLY n).key = true := by
  refine decide_eq_true ?_
  simp only [R.ENS_SLOT_DLY_DLY, Field.mk']; omega

theorem has_R_ENS_SLOT_HIST_SUSP (n : Nat) : Block.has .ens (R.ENS_SLOT_HIST_SUSP n).key = true := by
  refine decide_eq_true ?_
  simp only [R.ENS_SLOT_HIST_SUSP, Field.mk']; omega

theorem has_R_ENS_SLOT_OFS_X (n : Nat) : Block.has .ens (R.ENS_SLOT_OFS_X n).key = true := by
  refine decide_eq_true ?_
  simp only [R.ENS_SLOT_OFS_X, Field.mk']; omega

theorem has_R_ENS_SLOT_STAT_ASSIGN_ERR (n : Nat) : Block.has .ens (R.ENS_SLOT_STAT_ASSIGN_ERR n).key = true := by
  refine decide_eq_true ?_
  simp only [R.ENS_SLOT_STAT_ASSIGN_ERR, Field.mk']; omega

theorem has_R_ENS_SLOT_STAT_ASYM_SUSPECT (n : Nat) : Block.has .ens (R.ENS_SLOT_STAT_ASYM_SUSPECT n).key = true := by
  refine decide_eq_true ?_
  simp only [R.ENS_SLOT_STAT_ASYM_SUSPECT, Field.mk']; omega

theorem has_R_ENS_SLOT_STAT_BIAS_OK (n : Nat) : Block.has .ens (R.ENS_SLOT_STAT_BIAS_OK n).key = true := by
  refine decide_eq_true ?_
  simp only [R.ENS_SLOT_STAT_BIAS_OK, Field.mk']; omega

theorem has_R_ENS_SLOT_STAT_CAUSE (n : Nat) : Block.has .ens (R.ENS_SLOT_STAT_CAUSE n).key = true := by
  refine decide_eq_true ?_
  simp only [R.ENS_SLOT_STAT_CAUSE, Field.mk']; omega

theorem has_R_ENS_SLOT_STAT_HELD (n : Nat) : Block.has .ens (R.ENS_SLOT_STAT_HELD n).key = true := by
  refine decide_eq_true ?_
  simp only [R.ENS_SLOT_STAT_HELD, Field.mk']; omega

theorem has_R_ENS_SLOT_STAT_REEST (n : Nat) : Block.has .ens (R.ENS_SLOT_STAT_REEST n).key = true := by
  refine decide_eq_true ?_
  simp only [R.ENS_SLOT_STAT_REEST, Field.mk']; omega

theorem has_R_ENS_SLOT_STAT_STATE (n : Nat) : Block.has .ens (R.ENS_SLOT_STAT_STATE n).key = true := by
  refine decide_eq_true ?_
  simp only [R.ENS_SLOT_STAT_STATE, Field.mk']; omega

theorem has_R_ENS_SLOT_WEIGHT_W (n : Nat) : Block.has .ens (R.ENS_SLOT_WEIGHT_W n).key = true := by
  refine decide_eq_true ?_
  simp only [R.ENS_SLOT_WEIGHT_W, Field.mk']; omega

theorem has_R_ENS_STAT_DECIDE_PEND : Block.has .ens R.ENS_STAT_DECIDE_PEND.key = true := by decide

theorem has_R_ENS_STAT_LEAD : Block.has .ens R.ENS_STAT_LEAD.key = true := by decide

theorem has_R_ENS_STAT_LEAD_VALID : Block.has .ens R.ENS_STAT_LEAD_VALID.key = true := by decide

theorem has_R_ENS_STAT_QUAL : Block.has .ens R.ENS_STAT_QUAL.key = true := by decide

theorem has_R_ENS_STAT_S1_DECIDE_PEND : Block.has .ens R.ENS_STAT_S1_DECIDE_PEND.key = true := by decide

theorem has_R_ENS_STAT_S1_STATE : Block.has .ens R.ENS_STAT_S1_STATE.key = true := by decide

theorem has_R_ENS_STAT_STATE : Block.has .ens R.ENS_STAT_STATE.key = true := by decide

theorem has_R_ENS_TEMP_TEMP : Block.has .ens R.ENS_TEMP_TEMP.key = true := by decide

theorem has_R_GNS_CH_CFG_ANT (n : Nat) : Block.has .gns (R.GNS_CH_CFG_ANT n).key = true := by
  refine decide_eq_true ?_
  simp only [R.GNS_CH_CFG_ANT, Field.mk']; omega

theorem has_R_GNS_CH_CFG_BAND (n : Nat) : Block.has .gns (R.GNS_CH_CFG_BAND n).key = true := by
  refine decide_eq_true ?_
  simp only [R.GNS_CH_CFG_BAND, Field.mk']; omega

theorem has_R_GNS_CH_CFG_PIN (n : Nat) : Block.has .gns (R.GNS_CH_CFG_PIN n).key = true := by
  refine decide_eq_true ?_
  simp only [R.GNS_CH_CFG_PIN, Field.mk']; omega

theorem has_R_GNS_CH_CFG_RSV (n : Nat) : Block.has .gns (R.GNS_CH_CFG_RSV n).key = true := by
  refine decide_eq_true ?_
  simp only [R.GNS_CH_CFG_RSV, Field.mk']; omega

theorem has_R_GNS_CH_CFG_SPACING (n : Nat) : Block.has .gns (R.GNS_CH_CFG_SPACING n).key = true := by
  refine decide_eq_true ?_
  simp only [R.GNS_CH_CFG_SPACING, Field.mk']; omega

theorem has_R_GNS_CH_CFG_SVID (n : Nat) : Block.has .gns (R.GNS_CH_CFG_SVID n).key = true := by
  refine decide_eq_true ?_
  simp only [R.GNS_CH_CFG_SVID, Field.mk']; omega

theorem has_R_GNS_CH_CFG_SYS (n : Nat) : Block.has .gns (R.GNS_CH_CFG_SYS n).key = true := by
  refine decide_eq_true ?_
  simp only [R.GNS_CH_CFG_SYS, Field.mk']; omega

theorem has_R_GNS_CH_DOP_DOP (n : Nat) : Block.has .gns (R.GNS_CH_DOP_DOP n).key = true := by
  refine decide_eq_true ?_
  simp only [R.GNS_CH_DOP_DOP, Field.mk']; omega

theorem has_R_GNS_CH_STAT_CFG_ERR (n : Nat) : Block.has .gns (R.GNS_CH_STAT_CFG_ERR n).key = true := by
  refine decide_eq_true ?_
  simp only [R.GNS_CH_STAT_CFG_ERR, Field.mk']; omega

theorem has_R_GNS_CH_STAT_CN0 (n : Nat) : Block.has .gns (R.GNS_CH_STAT_CN0 n).key = true := by
  refine decide_eq_true ?_
  simp only [R.GNS_CH_STAT_CN0, Field.mk']; omega

theorem has_R_GNS_CH_STAT_EXCLUDED (n : Nat) : Block.has .gns (R.GNS_CH_STAT_EXCLUDED n).key = true := by
  refine decide_eq_true ?_
  simp only [R.GNS_CH_STAT_EXCLUDED, Field.mk']; omega

theorem has_R_GNS_CH_STAT_NOTCHED (n : Nat) : Block.has .gns (R.GNS_CH_STAT_NOTCHED n).key = true := by
  refine decide_eq_true ?_
  simp only [R.GNS_CH_STAT_NOTCHED, Field.mk']; omega

theorem has_R_GNS_CH_STAT_STATE (n : Nat) : Block.has .gns (R.GNS_CH_STAT_STATE n).key = true := by
  refine decide_eq_true ?_
  simp only [R.GNS_CH_STAT_STATE, Field.mk']; omega

theorem has_R_GNS_CH_STAT_SVID (n : Nat) : Block.has .gns (R.GNS_CH_STAT_SVID n).key = true := by
  refine decide_eq_true ?_
  simp only [R.GNS_CH_STAT_SVID, Field.mk']; omega

theorem has_R_GNS_CH_STAT_USED (n : Nat) : Block.has .gns (R.GNS_CH_STAT_USED n).key = true := by
  refine decide_eq_true ?_
  simp only [R.GNS_CH_STAT_USED, Field.mk']; omega

theorem has_R_GNS_EVT_BITS : Block.has .gns R.GNS_EVT_BITS.key = true := by decide

theorem has_R_GNS_NAV_LOST_LOST : Block.has .gns R.GNS_NAV_LOST_LOST.key = true := by decide

theorem has_R_GNS_NAV_RD_RD : Block.has .gns R.GNS_NAV_RD_RD.key = true := by decide

theorem has_R_GNS_NAV_WR_WR : Block.has .gns R.GNS_NAV_WR_WR.key = true := by decide

theorem has_R_GNS_NOTCH_CTL_ENGAGED (n : Nat) : Block.has .gns (R.GNS_NOTCH_CTL_ENGAGED n).key = true := by
  refine decide_eq_true ?_
  simp only [R.GNS_NOTCH_CTL_ENGAGED, Field.mk']; omega

theorem has_R_GNS_NOTCH_CTL_MODE (n : Nat) : Block.has .gns (R.GNS_NOTCH_CTL_MODE n).key = true := by
  refine decide_eq_true ?_
  simp only [R.GNS_NOTCH_CTL_MODE, Field.mk']; omega

theorem has_R_GNS_NOTCH_CTL_THR (n : Nat) : Block.has .gns (R.GNS_NOTCH_CTL_THR n).key = true := by
  refine decide_eq_true ?_
  simp only [R.GNS_NOTCH_CTL_THR, Field.mk']; omega

theorem has_R_GNS_NOTCH_CTL_WIDTH (n : Nat) : Block.has .gns (R.GNS_NOTCH_CTL_WIDTH n).key = true := by
  refine decide_eq_true ?_
  simp only [R.GNS_NOTCH_CTL_WIDTH, Field.mk']; omega

theorem has_R_GNS_NOTCH_FREQ (n : Nat) : Block.has .gns (R.GNS_NOTCH_FREQ n).key = true := by
  refine decide_eq_true ?_
  simp only [R.GNS_NOTCH_FREQ, Field.mk']; omega

theorem has_R_GNS_PORT_CFG_EN (n : Nat) : Block.has .gns (R.GNS_PORT_CFG_EN n).key = true := by
  refine decide_eq_true ?_
  simp only [R.GNS_PORT_CFG_EN, Field.mk']; omega

theorem has_R_GNS_PORT_CFG_FMT (n : Nat) : Block.has .gns (R.GNS_PORT_CFG_FMT n).key = true := by
  refine decide_eq_true ?_
  simp only [R.GNS_PORT_CFG_FMT, Field.mk']; omega

theorem has_R_GNS_PORT_CFG_IF_OFS (n : Nat) : Block.has .gns (R.GNS_PORT_CFG_IF_OFS n).key = true := by
  refine decide_eq_true ?_
  simp only [R.GNS_PORT_CFG_IF_OFS, Field.mk']; omega

theorem has_R_GNS_PORT_CFG_RATE (n : Nat) : Block.has .gns (R.GNS_PORT_CFG_RATE n).key = true := by
  refine decide_eq_true ?_
  simp only [R.GNS_PORT_CFG_RATE, Field.mk']; omega

theorem has_R_GNS_PORT_CFG_SPEC_INV (n : Nat) : Block.has .gns (R.GNS_PORT_CFG_SPEC_INV n).key = true := by
  refine decide_eq_true ?_
  simp only [R.GNS_PORT_CFG_SPEC_INV, Field.mk']; omega

theorem has_R_GNS_PORT_JAM_LEARN (n : Nat) : Block.has .gns (R.GNS_PORT_JAM_LEARN n).key = true := by
  refine decide_eq_true ?_
  simp only [R.GNS_PORT_JAM_LEARN, Field.mk']; omega

theorem has_R_GNS_PORT_JAM_LVL (n : Nat) : Block.has .gns (R.GNS_PORT_JAM_LVL n).key = true := by
  refine decide_eq_true ?_
  simp only [R.GNS_PORT_JAM_LVL, Field.mk']; omega

theorem has_R_GNS_PORT_JAM_THR (n : Nat) : Block.has .gns (R.GNS_PORT_JAM_THR n).key = true := by
  refine decide_eq_true ?_
  simp only [R.GNS_PORT_JAM_THR, Field.mk']; omega

theorem has_R_GNS_PORT_STAT_CLK_OK (n : Nat) : Block.has .gns (R.GNS_PORT_STAT_CLK_OK n).key = true := by
  refine decide_eq_true ?_
  simp only [R.GNS_PORT_STAT_CLK_OK, Field.mk']; omega

theorem has_R_GNS_PORT_STAT_FAULT (n : Nat) : Block.has .gns (R.GNS_PORT_STAT_FAULT n).key = true := by
  refine decide_eq_true ?_
  simp only [R.GNS_PORT_STAT_FAULT, Field.mk']; omega

theorem has_R_GNS_PORT_STAT_LEVEL (n : Nat) : Block.has .gns (R.GNS_PORT_STAT_LEVEL n).key = true := by
  refine decide_eq_true ?_
  simp only [R.GNS_PORT_STAT_LEVEL, Field.mk']; omega

theorem has_R_GNS_PORT_STAT_RATE_ERR (n : Nat) : Block.has .gns (R.GNS_PORT_STAT_RATE_ERR n).key = true := by
  refine decide_eq_true ?_
  simp only [R.GNS_PORT_STAT_RATE_ERR, Field.mk']; omega

theorem has_R_GNS_POS_CTL_MODE (n : Nat) : Block.has .gns (R.GNS_POS_CTL_MODE n).key = true := by
  refine decide_eq_true ?_
  simp only [R.GNS_POS_CTL_MODE, Field.mk']; omega

theorem has_R_GNS_POS_CTL_RESTART (n : Nat) : Block.has .gns (R.GNS_POS_CTL_RESTART n).key = true := by
  refine decide_eq_true ?_
  simp only [R.GNS_POS_CTL_RESTART, Field.mk']; omega

theorem has_R_GNS_POS_CTL_STATE (n : Nat) : Block.has .gns (R.GNS_POS_CTL_STATE n).key = true := by
  refine decide_eq_true ?_
  simp only [R.GNS_POS_CTL_STATE, Field.mk']; omega

theorem has_R_GNS_POS_POS (n : Nat) : Block.has .gns (R.GNS_POS_POS n).key = true := by
  refine decide_eq_true ?_
  simp only [R.GNS_POS_POS, Field.mk']; omega

theorem has_R_GNS_SLEEP_CTL_WAKE : Block.has .gns R.GNS_SLEEP_CTL_WAKE.key = true := by decide

theorem has_R_GNS_SLEEP_STAT_ASLEEP : Block.has .gns R.GNS_SLEEP_STAT_ASLEEP.key = true := by decide

theorem has_R_GNS_SLEEP_STAT_HOT : Block.has .gns R.GNS_SLEEP_STAT_HOT.key = true := by decide

theorem has_R_GNS_SLEEP_STAT_LAST_START : Block.has .gns R.GNS_SLEEP_STAT_LAST_START.key = true := by decide

theorem has_R_GNS_SOL_EPOCH_HI_SEC (n : Nat) : Block.has .gns (R.GNS_SOL_EPOCH_HI_SEC n).key = true := by
  refine decide_eq_true ?_
  simp only [R.GNS_SOL_EPOCH_HI_SEC, Field.mk']; omega

theorem has_R_GNS_SOL_EPOCH_LO_SEC (n : Nat) : Block.has .gns (R.GNS_SOL_EPOCH_LO_SEC n).key = true := by
  refine decide_eq_true ?_
  simp only [R.GNS_SOL_EPOCH_LO_SEC, Field.mk']; omega

theorem has_R_GNS_SOL_FLAGS_DISCONT (n : Nat) : Block.has .gns (R.GNS_SOL_FLAGS_DISCONT n).key = true := by
  refine decide_eq_true ?_
  simp only [R.GNS_SOL_FLAGS_DISCONT, Field.mk']; omega

theorem has_R_GNS_SOL_FLAGS_DUAL (n : Nat) : Block.has .gns (R.GNS_SOL_FLAGS_DUAL n).key = true := by
  refine decide_eq_true ?_
  simp only [R.GNS_SOL_FLAGS_DUAL, Field.mk']; omega

theorem has_R_GNS_SOL_FLAGS_JAM (n : Nat) : Block.has .gns (R.GNS_SOL_FLAGS_JAM n).key = true := by
  refine decide_eq_true ?_
  simp only [R.GNS_SOL_FLAGS_JAM, Field.mk']; omega

theorem has_R_GNS_SOL_FLAGS_NOTCH_IN_LOBE (n : Nat) : Block.has .gns (R.GNS_SOL_FLAGS_NOTCH_IN_LOBE n).key = true := by
  refine decide_eq_true ?_
  simp only [R.GNS_SOL_FLAGS_NOTCH_IN_LOBE, Field.mk']; omega

theorem has_R_GNS_SOL_FLAGS_NO_RAIM (n : Nat) : Block.has .gns (R.GNS_SOL_FLAGS_NO_RAIM n).key = true := by
  refine decide_eq_true ?_
  simp only [R.GNS_SOL_FLAGS_NO_RAIM, Field.mk']; omega

theorem has_R_GNS_SOL_FLAGS_POS_KNOWN (n : Nat) : Block.has .gns (R.GNS_SOL_FLAGS_POS_KNOWN n).key = true := by
  refine decide_eq_true ?_
  simp only [R.GNS_SOL_FLAGS_POS_KNOWN, Field.mk']; omega

theorem has_R_GNS_SOL_FLAGS_REF_CHG (n : Nat) : Block.has .gns (R.GNS_SOL_FLAGS_REF_CHG n).key = true := by
  refine decide_eq_true ?_
  simp only [R.GNS_SOL_FLAGS_REF_CHG, Field.mk']; omega

theorem has_R_GNS_SOL_FLAGS_REF_SYS (n : Nat) : Block.has .gns (R.GNS_SOL_FLAGS_REF_SYS n).key = true := by
  refine decide_eq_true ?_
  simp only [R.GNS_SOL_FLAGS_REF_SYS, Field.mk']; omega

theorem has_R_GNS_SOL_FLAGS_SPOOF (n : Nat) : Block.has .gns (R.GNS_SOL_FLAGS_SPOOF n).key = true := by
  refine decide_eq_true ?_
  simp only [R.GNS_SOL_FLAGS_SPOOF, Field.mk']; omega

theorem has_R_GNS_SOL_FLAGS_UTC_STEER (n : Nat) : Block.has .gns (R.GNS_SOL_FLAGS_UTC_STEER n).key = true := by
  refine decide_eq_true ?_
  simp only [R.GNS_SOL_FLAGS_UTC_STEER, Field.mk']; omega

theorem has_R_GNS_SOL_FLAGS_VALID (n : Nat) : Block.has .gns (R.GNS_SOL_FLAGS_VALID n).key = true := by
  refine decide_eq_true ?_
  simp only [R.GNS_SOL_FLAGS_VALID, Field.mk']; omega

theorem has_R_GNS_SOL_OFS_HI_X (n : Nat) : Block.has .gns (R.GNS_SOL_OFS_HI_X n).key = true := by
  refine decide_eq_true ?_
  simp only [R.GNS_SOL_OFS_HI_X, Field.mk']; omega

theorem has_R_GNS_SOL_OFS_LO_X (n : Nat) : Block.has .gns (R.GNS_SOL_OFS_LO_X n).key = true := by
  refine decide_eq_true ?_
  simp only [R.GNS_SOL_OFS_LO_X, Field.mk']; omega

theorem has_R_GNS_SOL_QUAL_NEXCL (n : Nat) : Block.has .gns (R.GNS_SOL_QUAL_NEXCL n).key = true := by
  refine decide_eq_true ?_
  simp only [R.GNS_SOL_QUAL_NEXCL, Field.mk']; omega

theorem has_R_GNS_SOL_QUAL_NSV (n : Nat) : Block.has .gns (R.GNS_SOL_QUAL_NSV n).key = true := by
  refine decide_eq_true ?_
  simp only [R.GNS_SOL_QUAL_NSV, Field.mk']; omega

theorem has_R_GNS_SOL_QUAL_SIGMA (n : Nat) : Block.has .gns (R.GNS_SOL_QUAL_SIGMA n).key = true := by
  refine decide_eq_true ?_
  simp only [R.GNS_SOL_QUAL_SIGMA, Field.mk']; omega

theorem has_R_GNS_STAT_ACTIVE_ANT : Block.has .gns R.GNS_STAT_ACTIVE_ANT.key = true := by decide

theorem has_R_GNS_STAT_JAM : Block.has .gns R.GNS_STAT_JAM.key = true := by decide

theorem has_R_GNS_STAT_PORT_FAULT : Block.has .gns R.GNS_STAT_PORT_FAULT.key = true := by decide

theorem has_R_GNS_STAT_RUN : Block.has .gns R.GNS_STAT_RUN.key = true := by decide

theorem has_R_GNS_STAT_SOL : Block.has .gns R.GNS_STAT_SOL.key = true := by decide

theorem has_R_GNS_STAT_SPOOF : Block.has .gns R.GNS_STAT_SPOOF.key = true := by decide

theorem has_R_GNS_SURV_STAT_ELAPSED (n : Nat) : Block.has .gns (R.GNS_SURV_STAT_ELAPSED n).key = true := by
  refine decide_eq_true ?_
  simp only [R.GNS_SURV_STAT_ELAPSED, Field.mk']; omega

theorem has_R_GNS_SURV_STAT_SIGMA (n : Nat) : Block.has .gns (R.GNS_SURV_STAT_SIGMA n).key = true := by
  refine decide_eq_true ?_
  simp only [R.GNS_SURV_STAT_SIGMA, Field.mk']; omega

theorem has_R_GNS_UTC_ANNOUNCED : Block.has .gns R.GNS_UTC_ANNOUNCED.key = true := by decide

theorem has_R_GNS_UTC_TAI_UTC : Block.has .gns R.GNS_UTC_TAI_UTC.key = true := by decide

theorem has_R_GNS_UTC_TAI_UTC_F : Block.has .gns R.GNS_UTC_TAI_UTC_F.key = true := by decide

theorem has_R_GNS_UTC_VALID : Block.has .gns R.GNS_UTC_VALID.key = true := by decide

theorem has_R_HRG_EVT_BITS (n : Nat) : Block.has .ring (R.HRG_EVT_BITS n).key = true := by
  refine decide_eq_true ?_
  simp only [R.HRG_EVT_BITS, Field.mk']; omega

theorem has_R_HRG_RING_BASE_HI_ADDR (n : Nat) : Block.has .ring (R.HRG_RING_BASE_HI_ADDR n).key = true := by
  refine decide_eq_true ?_
  simp only [R.HRG_RING_BASE_HI_ADDR, Field.mk']; omega

theorem has_R_HRG_RING_BASE_LO_ADDR (n : Nat) : Block.has .ring (R.HRG_RING_BASE_LO_ADDR n).key = true := by
  refine decide_eq_true ?_
  simp only [R.HRG_RING_BASE_LO_ADDR, Field.mk']; omega

theorem has_R_HRG_RING_CFG_CFG_ERR (n : Nat) : Block.has .ring (R.HRG_RING_CFG_CFG_ERR n).key = true := by
  refine decide_eq_true ?_
  simp only [R.HRG_RING_CFG_CFG_ERR, Field.mk']; omega

theorem has_R_HRG_RING_CFG_EN (n : Nat) : Block.has .ring (R.HRG_RING_CFG_EN n).key = true := by
  refine decide_eq_true ?_
  simp only [R.HRG_RING_CFG_EN, Field.mk']; omega

theorem has_R_HRG_RING_CFG_OWNER (n : Nat) : Block.has .ring (R.HRG_RING_CFG_OWNER n).key = true := by
  refine decide_eq_true ?_
  simp only [R.HRG_RING_CFG_OWNER, Field.mk']; omega

theorem has_R_HRG_RING_CFG_QUIESCED (n : Nat) : Block.has .ring (R.HRG_RING_CFG_QUIESCED n).key = true := by
  refine decide_eq_true ?_
  simp only [R.HRG_RING_CFG_QUIESCED, Field.mk']; omega

theorem has_R_HRG_RING_CFG_SIZE (n : Nat) : Block.has .ring (R.HRG_RING_CFG_SIZE n).key = true := by
  refine decide_eq_true ?_
  simp only [R.HRG_RING_CFG_SIZE, Field.mk']; omega

theorem has_R_HRG_RING_CFG_VEC (n : Nat) : Block.has .ring (R.HRG_RING_CFG_VEC n).key = true := by
  refine decide_eq_true ?_
  simp only [R.HRG_RING_CFG_VEC, Field.mk']; omega

theorem has_R_HRG_RING_DROP_DROP (n : Nat) : Block.has .ring (R.HRG_RING_DROP_DROP n).key = true := by
  refine decide_eq_true ?_
  simp only [R.HRG_RING_DROP_DROP, Field.mk']; omega

theorem has_R_HRG_RING_HEAD_HEAD (n : Nat) : Block.has .ring (R.HRG_RING_HEAD_HEAD n).key = true := by
  refine decide_eq_true ?_
  simp only [R.HRG_RING_HEAD_HEAD, Field.mk']; omega

theorem has_R_HRG_RING_REFUSED_BAD_DESC (n : Nat) : Block.has .ring (R.HRG_RING_REFUSED_BAD_DESC n).key = true := by
  refine decide_eq_true ?_
  simp only [R.HRG_RING_REFUSED_BAD_DESC, Field.mk']; omega

theorem has_R_HRG_RING_REFUSED_TS_LOST (n : Nat) : Block.has .ring (R.HRG_RING_REFUSED_TS_LOST n).key = true := by
  refine decide_eq_true ?_
  simp only [R.HRG_RING_REFUSED_TS_LOST, Field.mk']; omega

theorem has_R_HRG_RING_STAT_BITS (n : Nat) : Block.has .ring (R.HRG_RING_STAT_BITS n).key = true := by
  refine decide_eq_true ?_
  simp only [R.HRG_RING_STAT_BITS, Field.mk']; omega

theorem has_R_HRG_RING_TAIL_TAIL (n : Nat) : Block.has .ring (R.HRG_RING_TAIL_TAIL n).key = true := by
  refine decide_eq_true ?_
  simp only [R.HRG_RING_TAIL_TAIL, Field.mk']; omega

theorem has_R_HRG_RING_THR_SAF (n : Nat) : Block.has .ring (R.HRG_RING_THR_SAF n).key = true := by
  refine decide_eq_true ?_
  simp only [R.HRG_RING_THR_SAF, Field.mk']; omega

theorem has_R_HRG_RING_THR_START (n : Nat) : Block.has .ring (R.HRG_RING_THR_START n).key = true := by
  refine decide_eq_true ?_
  simp only [R.HRG_RING_THR_START, Field.mk']; omega

theorem has_R_HRG_TS_LOST_PORT : Block.has .ring R.HRG_TS_LOST_PORT.key = true := by decide

theorem has_R_LOG_FIRST_SEQ : Block.has .wch R.LOG_FIRST_SEQ.key = true := by decide

theorem has_R_LOG_NEXT_SEQ : Block.has .wch R.LOG_NEXT_SEQ.key = true := by decide

theorem has_R_LOG_WRAPS_WRAPS : Block.has .wch R.LOG_WRAPS_WRAPS.key = true := by decide

theorem has_R_MAC_ADDR_HI_A (n : Nat) : Block.has .mac (R.MAC_ADDR_HI_A n).key = true := by
  refine decide_eq_true ?_
  simp only [R.MAC_ADDR_HI_A, Field.mk']; omega

theorem has_R_MAC_ADDR_LO_A (n : Nat) : Block.has .mac (R.MAC_ADDR_LO_A n).key = true := by
  refine decide_eq_true ?_
  simp only [R.MAC_ADDR_LO_A, Field.mk']; omega

theorem has_R_MAC_CFG_AN_EN (n : Nat) : Block.has .mac (R.MAC_CFG_AN_EN n).key = true := by
  refine decide_eq_true ?_
  simp only [R.MAC_CFG_AN_EN, Field.mk']; omega

theorem has_R_MAC_CFG_EN (n : Nat) : Block.has .mac (R.MAC_CFG_EN n).key = true := by
  refine decide_eq_true ?_
  simp only [R.MAC_CFG_EN, Field.mk']; omega

theorem has_R_MAC_CFG_FEC (n : Nat) : Block.has .mac (R.MAC_CFG_FEC n).key = true := by
  refine decide_eq_true ?_
  simp only [R.MAC_CFG_FEC, Field.mk']; omega

theorem has_R_MAC_CFG_MODE (n : Nat) : Block.has .mac (R.MAC_CFG_MODE n).key = true := by
  refine decide_eq_true ?_
  simp only [R.MAC_CFG_MODE, Field.mk']; omega

theorem has_R_MAC_EVT_BITS (n : Nat) : Block.has .mac (R.MAC_EVT_BITS n).key = true := by
  refine decide_eq_true ?_
  simp only [R.MAC_EVT_BITS, Field.mk']; omega

theorem has_R_MAC_STAT_AN_DONE (n : Nat) : Block.has .mac (R.MAC_STAT_AN_DONE n).key = true := by
  refine decide_eq_true ?_
  simp only [R.MAC_STAT_AN_DONE, Field.mk']; omega

theorem has_R_MAC_STAT_CAL_TRIES (n : Nat) : Block.has .mac (R.MAC_STAT_CAL_TRIES n).key = true := by
  refine decide_eq_true ?_
  simp only [R.MAC_STAT_CAL_TRIES, Field.mk']; omega

theorem has_R_MAC_STAT_CAL_WEAK (n : Nat) : Block.has .mac (R.MAC_STAT_CAL_WEAK n).key = true := by
  refine decide_eq_true ?_
  simp only [R.MAC_STAT_CAL_WEAK, Field.mk']; omega

theorem has_R_MAC_STAT_CFG_ERR (n : Nat) : Block.has .mac (R.MAC_STAT_CFG_ERR n).key = true := by
  refine decide_eq_true ?_
  simp only [R.MAC_STAT_CFG_ERR, Field.mk']; omega

theorem has_R_MAC_STAT_FEC_LOCK (n : Nat) : Block.has .mac (R.MAC_STAT_FEC_LOCK n).key = true := by
  refine decide_eq_true ?_
  simp only [R.MAC_STAT_FEC_LOCK, Field.mk']; omega

theorem has_R_MAC_STAT_FEC_USED (n : Nat) : Block.has .mac (R.MAC_STAT_FEC_USED n).key = true := by
  refine decide_eq_true ?_
  simp only [R.MAC_STAT_FEC_USED, Field.mk']; omega

theorem has_R_MAC_STAT_HI_BER (n : Nat) : Block.has .mac (R.MAC_STAT_HI_BER n).key = true := by
  refine decide_eq_true ?_
  simp only [R.MAC_STAT_HI_BER, Field.mk']; omega

theorem has_R_MAC_STAT_LOC_FAULT (n : Nat) : Block.has .mac (R.MAC_STAT_LOC_FAULT n).key = true := by
  refine decide_eq_true ?_
  simp only [R.MAC_STAT_LOC_FAULT, Field.mk']; omega

theorem has_R_MAC_STAT_PAUSED (n : Nat) : Block.has .mac (R.MAC_STAT_PAUSED n).key = true := by
  refine decide_eq_true ?_
  simp only [R.MAC_STAT_PAUSED, Field.mk']; omega

theorem has_R_MAC_STAT_PRE_ACTIVE (n : Nat) : Block.has .mac (R.MAC_STAT_PRE_ACTIVE n).key = true := by
  refine decide_eq_true ?_
  simp only [R.MAC_STAT_PRE_ACTIVE, Field.mk']; omega

theorem has_R_MAC_STAT_REM_FAULT (n : Nat) : Block.has .mac (R.MAC_STAT_REM_FAULT n).key = true := by
  refine decide_eq_true ?_
  simp only [R.MAC_STAT_REM_FAULT, Field.mk']; omega

theorem has_R_MAC_STAT_STATE (n : Nat) : Block.has .mac (R.MAC_STAT_STATE n).key = true := by
  refine decide_eq_true ?_
  simp only [R.MAC_STAT_STATE, Field.mk']; omega

theorem has_R_MAC_STAT_VERIFY (n : Nat) : Block.has .mac (R.MAC_STAT_VERIFY n).key = true := by
  refine decide_eq_true ?_
  simp only [R.MAC_STAT_VERIFY, Field.mk']; omega

theorem has_R_MAC_SVC_CMD_BUSY (n : Nat) : Block.has .mac (R.MAC_SVC_CMD_BUSY n).key = true := by
  refine decide_eq_true ?_
  simp only [R.MAC_SVC_CMD_BUSY, Field.mk']; omega

theorem has_R_MAC_SVC_CMD_IDX (n : Nat) : Block.has .mac (R.MAC_SVC_CMD_IDX n).key = true := by
  refine decide_eq_true ?_
  simp only [R.MAC_SVC_CMD_IDX, Field.mk']; omega

theorem has_R_MAC_SVC_CMD_READ (n : Nat) : Block.has .mac (R.MAC_SVC_CMD_READ n).key = true := by
  refine decide_eq_true ?_
  simp only [R.MAC_SVC_CMD_READ, Field.mk']; omega

theorem has_R_MAC_SVC_CMD_REFUSED (n : Nat) : Block.has .mac (R.MAC_SVC_CMD_REFUSED n).key = true := by
  refine decide_eq_true ?_
  simp only [R.MAC_SVC_CMD_REFUSED, Field.mk']; omega

theorem has_R_MAC_SVC_CMD_WRITE (n : Nat) : Block.has .mac (R.MAC_SVC_CMD_WRITE n).key = true := by
  refine decide_eq_true ?_
  simp only [R.MAC_SVC_CMD_WRITE, Field.mk']; omega

theorem has_R_MAC_SVC_DATA0_D (n : Nat) : Block.has .mac (R.MAC_SVC_DATA0_D n).key = true := by
  refine decide_eq_true ?_
  simp only [R.MAC_SVC_DATA0_D, Field.mk']; omega

theorem has_R_MAC_SVC_DATA1_OUTER (n : Nat) : Block.has .mac (R.MAC_SVC_DATA1_OUTER n).key = true := by
  refine decide_eq_true ?_
  simp only [R.MAC_SVC_DATA1_OUTER, Field.mk']; omega

theorem has_R_MAC_SVC_DATA1_INNER (n : Nat) : Block.has .mac (R.MAC_SVC_DATA1_INNER n).key = true := by
  refine decide_eq_true ?_
  simp only [R.MAC_SVC_DATA1_INNER, Field.mk']; omega

theorem has_R_TIM_GRP_CFG_GATE_MODE (n : Nat) : Block.has .tim (R.TIM_GRP_CFG_GATE_MODE n).key = true := by
  refine decide_eq_true ?_
  simp only [R.TIM_GRP_CFG_GATE_MODE, Field.mk']; omega

theorem has_R_TIM_GRP_CFG_POL (n : Nat) : Block.has .tim (R.TIM_GRP_CFG_POL n).key = true := by
  refine decide_eq_true ?_
  simp only [R.TIM_GRP_CFG_POL, Field.mk']; omega

theorem has_R_TIM_GRP_CFG_REARM (n : Nat) : Block.has .tim (R.TIM_GRP_CFG_REARM n).key = true := by
  refine decide_eq_true ?_
  simp only [R.TIM_GRP_CFG_REARM, Field.mk']; omega

theorem has_R_MAC_TS_DLY_RX_DLY (n : Nat) : Block.has .mac (R.MAC_TS_DLY_RX_DLY n).key = true := by
  refine decide_eq_true ?_
  simp only [R.MAC_TS_DLY_RX_DLY, Field.mk']; omega

theorem has_R_MAC_SVC_DATA2_D (n : Nat) : Block.has .mac (R.MAC_SVC_DATA2_D n).key = true := by
  refine decide_eq_true ?_
  simp only [R.MAC_SVC_DATA2_D, Field.mk']; omega

theorem has_R_MAC_SVC_DATA3_D (n : Nat) : Block.has .mac (R.MAC_SVC_DATA3_D n).key = true := by
  refine decide_eq_true ?_
  simp only [R.MAC_SVC_DATA3_D, Field.mk']; omega

theorem has_R_MAC_SVC_DATA4_D (n : Nat) : Block.has .mac (R.MAC_SVC_DATA4_D n).key = true := by
  refine decide_eq_true ?_
  simp only [R.MAC_SVC_DATA4_D, Field.mk']; omega

theorem has_R_MAC_SVC_DATA5_D (n : Nat) : Block.has .mac (R.MAC_SVC_DATA5_D n).key = true := by
  refine decide_eq_true ?_
  simp only [R.MAC_SVC_DATA5_D, Field.mk']; omega

theorem has_R_MAC_TS_LAT_L_RX (n : Nat) : Block.has .mac (R.MAC_TS_LAT_L_RX n).key = true := by
  refine decide_eq_true ?_
  simp only [R.MAC_TS_LAT_L_RX, Field.mk']; omega

theorem has_R_MAC_TS_LAT_L_TX (n : Nat) : Block.has .mac (R.MAC_TS_LAT_L_TX n).key = true := by
  refine decide_eq_true ?_
  simp only [R.MAC_TS_LAT_L_TX, Field.mk']; omega

theorem has_R_MAC_TS_PHASE_PHI_RX (n : Nat) : Block.has .mac (R.MAC_TS_PHASE_PHI_RX n).key = true := by
  refine decide_eq_true ?_
  simp only [R.MAC_TS_PHASE_PHI_RX, Field.mk']; omega

theorem has_R_MAC_TS_PHASE_PHI_TX (n : Nat) : Block.has .mac (R.MAC_TS_PHASE_PHI_TX n).key = true := by
  refine decide_eq_true ?_
  simp only [R.MAC_TS_PHASE_PHI_TX, Field.mk']; omega

theorem has_R_MBX_DATA_DATA (n : Nat) : Block.has .mbx (R.MBX_DATA_DATA n).key = true := by
  refine decide_eq_true ?_
  simp only [R.MBX_DATA_DATA, Field.mk']; omega

theorem has_R_MBX_EVT_BITS (n : Nat) : Block.has .mbx (R.MBX_EVT_BITS n).key = true := by
  refine decide_eq_true ?_
  simp only [R.MBX_EVT_BITS, Field.mk']; omega

theorem has_R_MBX_STAT_LAST_SENDER (n : Nat) : Block.has .mbx (R.MBX_STAT_LAST_SENDER n).key = true := by
  refine decide_eq_true ?_
  simp only [R.MBX_STAT_LAST_SENDER, Field.mk']; omega

theorem has_R_MBX_STAT_ORPHAN (n : Nat) : Block.has .mbx (R.MBX_STAT_ORPHAN n).key = true := by
  refine decide_eq_true ?_
  simp only [R.MBX_STAT_ORPHAN, Field.mk']; omega

theorem has_R_MBX_STAT_OWNER (n : Nat) : Block.has .mbx (R.MBX_STAT_OWNER n).key = true := by
  refine decide_eq_true ?_
  simp only [R.MBX_STAT_OWNER, Field.mk']; omega

theorem has_R_MBX_STAT_REJECT (n : Nat) : Block.has .mbx (R.MBX_STAT_REJECT n).key = true := by
  refine decide_eq_true ?_
  simp only [R.MBX_STAT_REJECT, Field.mk']; omega

theorem has_R_MBX_STAT_STALE (n : Nat) : Block.has .mbx (R.MBX_STAT_STALE n).key = true := by
  refine decide_eq_true ?_
  simp only [R.MBX_STAT_STALE, Field.mk']; omega

theorem has_R_MBX_STAT_STATE (n : Nat) : Block.has .mbx (R.MBX_STAT_STATE n).key = true := by
  refine decide_eq_true ?_
  simp only [R.MBX_STAT_STATE, Field.mk']; omega

theorem has_R_MBX_STAT_WITHDRAWN (n : Nat) : Block.has .mbx (R.MBX_STAT_WITHDRAWN n).key = true := by
  refine decide_eq_true ?_
  simp only [R.MBX_STAT_WITHDRAWN, Field.mk']; omega

theorem has_R_MBX_XCNT_CROSSED : Block.has .mbx R.MBX_XCNT_CROSSED.key = true := by decide

theorem has_R_MBX_XCNT_STALE : Block.has .mbx R.MBX_XCNT_STALE.key = true := by decide

theorem has_R_MOR_CLOSE_C (n : Nat) : Block.has .mor (R.MOR_CLOSE_C n).key = true := by
  refine decide_eq_true ?_
  simp only [R.MOR_CLOSE_C, Field.mk']; omega

theorem has_R_MOR_EVT_BITS : Block.has .mor R.MOR_EVT_BITS.key = true := by decide

theorem has_R_MOR_LINK_CFG_EN (n : Nat) : Block.has .mor (R.MOR_LINK_CFG_EN n).key = true := by
  refine decide_eq_true ?_
  simp only [R.MOR_LINK_CFG_EN, Field.mk']; omega

theorem has_R_MOR_LINK_CFG_TRAIN (n : Nat) : Block.has .mor (R.MOR_LINK_CFG_TRAIN n).key = true := by
  refine decide_eq_true ?_
  simp only [R.MOR_LINK_CFG_TRAIN, Field.mk']; omega

theorem has_R_MOR_LINK_DLY_D (n : Nat) : Block.has .mor (R.MOR_LINK_DLY_D n).key = true := by
  refine decide_eq_true ?_
  simp only [R.MOR_LINK_DLY_D, Field.mk']; omega

theorem has_R_MOR_LINK_ERR_FRAME_ERR (n : Nat) : Block.has .mor (R.MOR_LINK_ERR_FRAME_ERR n).key = true := by
  refine decide_eq_true ?_
  simp only [R.MOR_LINK_ERR_FRAME_ERR, Field.mk']; omega

theorem has_R_MOR_LINK_ERR_TIME_MISS (n : Nat) : Block.has .mor (R.MOR_LINK_ERR_TIME_MISS n).key = true := by
  refine decide_eq_true ?_
  simp only [R.MOR_LINK_ERR_TIME_MISS, Field.mk']; omega

theorem has_R_MOR_LINK_OFS_O (n : Nat) : Block.has .mor (R.MOR_LINK_OFS_O n).key = true := by
  refine decide_eq_true ?_
  simp only [R.MOR_LINK_OFS_O, Field.mk']; omega

theorem has_R_MOR_LINK_PHASE_PHI_RX (n : Nat) : Block.has .mor (R.MOR_LINK_PHASE_PHI_RX n).key = true := by
  refine decide_eq_true ?_
  simp only [R.MOR_LINK_PHASE_PHI_RX, Field.mk']; omega

theorem has_R_MOR_LINK_PHASE_PHI_TX (n : Nat) : Block.has .mor (R.MOR_LINK_PHASE_PHI_TX n).key = true := by
  refine decide_eq_true ?_
  simp only [R.MOR_LINK_PHASE_PHI_TX, Field.mk']; omega

theorem has_R_MOR_LINK_STAT_CAL_WEAK (n : Nat) : Block.has .mor (R.MOR_LINK_STAT_CAL_WEAK n).key = true := by
  refine decide_eq_true ?_
  simp only [R.MOR_LINK_STAT_CAL_WEAK, Field.mk']; omega

theorem has_R_MOR_LINK_STAT_CHAIN_HOPS (n : Nat) : Block.has .mor (R.MOR_LINK_STAT_CHAIN_HOPS n).key = true := by
  refine decide_eq_true ?_
  simp only [R.MOR_LINK_STAT_CHAIN_HOPS, Field.mk']; omega

theorem has_R_MOR_LINK_STAT_CHAIN_MASTER (n : Nat) : Block.has .mor (R.MOR_LINK_STAT_CHAIN_MASTER n).key = true := by
  refine decide_eq_true ?_
  simp only [R.MOR_LINK_STAT_CHAIN_MASTER, Field.mk']; omega

theorem has_R_MOR_LINK_STAT_PEER (n : Nat) : Block.has .mor (R.MOR_LINK_STAT_PEER n).key = true := by
  refine decide_eq_true ?_
  simp only [R.MOR_LINK_STAT_PEER, Field.mk']; omega

theorem has_R_MOR_LINK_STAT_STATE (n : Nat) : Block.has .mor (R.MOR_LINK_STAT_STATE n).key = true := by
  refine decide_eq_true ?_
  simp only [R.MOR_LINK_STAT_STATE, Field.mk']; omega

theorem has_R_MOR_LINK_X_X (n : Nat) : Block.has .mor (R.MOR_LINK_X_X n).key = true := by
  refine decide_eq_true ?_
  simp only [R.MOR_LINK_X_X, Field.mk']; omega

theorem has_R_MOR_STAT_ADDR : Block.has .mor R.MOR_STAT_ADDR.key = true := by decide

theorem has_R_MOR_STAT_FABRIC : Block.has .mor R.MOR_STAT_FABRIC.key = true := by decide

theorem has_R_MOR_STAT_MASTER : Block.has .mor R.MOR_STAT_MASTER.key = true := by decide

theorem has_R_MOR_STAT_N : Block.has .mor R.MOR_STAT_N.key = true := by decide

theorem has_R_MOR_STAT_RING_OK : Block.has .mor R.MOR_STAT_RING_OK.key = true := by decide

theorem has_R_MSIX_CTRL_MASK (n : Nat) : Block.has .ring (R.MSIX_CTRL_MASK n).key = true := by
  refine decide_eq_true ?_
  simp only [R.MSIX_CTRL_MASK, Field.mk']; omega

theorem has_R_NTP_CST_CTL_FLUSH_BUSY (n : Nat) : Block.has .ntp (R.NTP_CST_CTL_FLUSH_BUSY n).key = true := by
  refine decide_eq_true ?_
  simp only [R.NTP_CST_CTL_FLUSH_BUSY, Field.mk']; omega

theorem has_R_NTP_CST_CTL_GEN (n : Nat) : Block.has .ntp (R.NTP_CST_CTL_GEN n).key = true := by
  refine decide_eq_true ?_
  simp only [R.NTP_CST_CTL_GEN, Field.mk']; omega

theorem has_R_NTP_EVT_BITS (n : Nat) : Block.has .ntp (R.NTP_EVT_BITS n).key = true := by
  refine decide_eq_true ?_
  simp only [R.NTP_EVT_BITS, Field.mk']; omega

theorem has_R_NTS_ENG_STAT_LENT (n : Nat) : Block.has .nts (R.NTS_ENG_STAT_LENT n).key = true := by
  refine decide_eq_true ?_
  simp only [R.NTS_ENG_STAT_LENT, Field.mk']; omega

theorem has_R_NTS_ENG_STAT_PARKED (n : Nat) : Block.has .nts (R.NTS_ENG_STAT_PARKED n).key = true := by
  refine decide_eq_true ?_
  simp only [R.NTS_ENG_STAT_PARKED, Field.mk']; omega

theorem has_R_NTS_EVT_BITS (n : Nat) : Block.has .nts (R.NTS_EVT_BITS n).key = true := by
  refine decide_eq_true ?_
  simp only [R.NTS_EVT_BITS, Field.mk']; omega

theorem has_R_NTS_KEY_ID_ID (n : Nat) : Block.has .nts (R.NTS_KEY_ID_ID n).key = true := by
  refine decide_eq_true ?_
  simp only [R.NTS_KEY_ID_ID, Field.mk']; omega

theorem has_R_NTS_KEY_STATE_CHG_SEQ (n : Nat) : Block.has .nts (R.NTS_KEY_STATE_CHG_SEQ n).key = true := by
  refine decide_eq_true ?_
  simp only [R.NTS_KEY_STATE_CHG_SEQ, Field.mk']; omega

theorem has_R_NTS_KEY_STATE_S (n : Nat) : Block.has .nts (R.NTS_KEY_STATE_S n).key = true := by
  refine decide_eq_true ?_
  simp only [R.NTS_KEY_STATE_S, Field.mk']; omega

theorem has_R_NTS_STAT_KEY_CURRENT (n : Nat) : Block.has .nts (R.NTS_STAT_KEY_CURRENT n).key = true := by
  refine decide_eq_true ?_
  simp only [R.NTS_STAT_KEY_CURRENT, Field.mk']; omega

theorem has_R_NTS_STAT_KEY_PEND (n : Nat) : Block.has .nts (R.NTS_STAT_KEY_PEND n).key = true := by
  refine decide_eq_true ?_
  simp only [R.NTS_STAT_KEY_PEND, Field.mk']; omega

theorem has_R_NTS_STAT_QUEUE (n : Nat) : Block.has .nts (R.NTS_STAT_QUEUE n).key = true := by
  refine decide_eq_true ?_
  simp only [R.NTS_STAT_QUEUE, Field.mk']; omega

theorem has_R_PCT_SEL_EVENT (n : Nat) : Block.has .pct (R.PCT_SEL_EVENT n).key = true := by
  refine decide_eq_true ?_
  simp only [R.PCT_SEL_EVENT, Field.mk']; omega

theorem has_R_PCT_SEL_INVALID (n : Nat) : Block.has .pct (R.PCT_SEL_INVALID n).key = true := by
  refine decide_eq_true ?_
  simp only [R.PCT_SEL_INVALID, Field.mk']; omega

theorem has_R_PCT_SEL_MODE (n : Nat) : Block.has .pct (R.PCT_SEL_MODE n).key = true := by
  refine decide_eq_true ?_
  simp only [R.PCT_SEL_MODE, Field.mk']; omega

theorem has_R_PCT_SEL_UNIT (n : Nat) : Block.has .pct (R.PCT_SEL_UNIT n).key = true := by
  refine decide_eq_true ?_
  simp only [R.PCT_SEL_UNIT, Field.mk']; omega

theorem has_R_PLS_ACTIVE_ARMED : Block.has .tim R.PLS_ACTIVE_ARMED.key = true := by decide

theorem has_R_PLS_CTL_DONE (n : Nat) : Block.has .tim (R.PLS_CTL_DONE n).key = true := by
  refine decide_eq_true ?_
  simp only [R.PLS_CTL_DONE, Field.mk']; omega

theorem has_R_PLS_CTL_GO (n : Nat) : Block.has .tim (R.PLS_CTL_GO n).key = true := by
  refine decide_eq_true ?_
  simp only [R.PLS_CTL_GO, Field.mk']; omega

theorem has_R_PLS_CTL_REFUSED (n : Nat) : Block.has .tim (R.PLS_CTL_REFUSED n).key = true := by
  refine decide_eq_true ?_
  simp only [R.PLS_CTL_REFUSED, Field.mk']; omega

theorem has_R_PLS_CTL_STATUS (n : Nat) : Block.has .tim (R.PLS_CTL_STATUS n).key = true := by
  refine decide_eq_true ?_
  simp only [R.PLS_CTL_STATUS, Field.mk']; omega

theorem has_R_PLS_CTL_STOP (n : Nat) : Block.has .tim (R.PLS_CTL_STOP n).key = true := by
  refine decide_eq_true ?_
  simp only [R.PLS_CTL_STOP, Field.mk']; omega

theorem has_R_PLS_EVT_OUT : Block.has .tim R.PLS_EVT_OUT.key = true := by decide

theorem has_R_PLS_LEFT_LEFT (n : Nat) : Block.has .tim (R.PLS_LEFT_LEFT n).key = true := by
  refine decide_eq_true ?_
  simp only [R.PLS_LEFT_LEFT, Field.mk']; omega

theorem has_R_PLS_MISSED_LAST_CAUSE (n : Nat) : Block.has .tim (R.PLS_MISSED_LAST_CAUSE n).key = true := by
  refine decide_eq_true ?_
  simp only [R.PLS_MISSED_LAST_CAUSE, Field.mk']; omega

theorem has_R_PLS_MISSED_MISSED (n : Nat) : Block.has .tim (R.PLS_MISSED_MISSED n).key = true := by
  refine decide_eq_true ?_
  simp only [R.PLS_MISSED_MISSED, Field.mk']; omega

theorem has_R_PLS_STAT_LEVEL (n : Nat) : Block.has .tim (R.PLS_STAT_LEVEL n).key = true := by
  refine decide_eq_true ?_
  simp only [R.PLS_STAT_LEVEL, Field.mk']; omega

theorem has_R_PLS_STAT_STATE (n : Nat) : Block.has .tim (R.PLS_STAT_STATE n).key = true := by
  refine decide_eq_true ?_
  simp only [R.PLS_STAT_STATE, Field.mk']; omega

theorem has_R_PTP_EVT_BITS (n : Nat) : Block.has .ptp (R.PTP_EVT_BITS n).key = true := by
  refine decide_eq_true ?_
  simp only [R.PTP_EVT_BITS, Field.mk']; omega

theorem has_R_PTP_INST_CFG_DOMAIN (n : Nat) : Block.has .ptp (R.PTP_INST_CFG_DOMAIN n).key = true := by
  refine decide_eq_true ?_
  simp only [R.PTP_INST_CFG_DOMAIN, Field.mk']; omega

theorem has_R_PTP_INST_CFG_DOM_SLOT (n : Nat) : Block.has .ptp (R.PTP_INST_CFG_DOM_SLOT n).key = true := by
  refine decide_eq_true ?_
  simp only [R.PTP_INST_CFG_DOM_SLOT, Field.mk']; omega

theorem has_R_PTP_INST_CFG_EN (n : Nat) : Block.has .ptp (R.PTP_INST_CFG_EN n).key = true := by
  refine decide_eq_true ?_
  simp only [R.PTP_INST_CFG_EN, Field.mk']; omega

theorem has_R_PTP_INST_CFG_L2_ADDR (n : Nat) : Block.has .ptp (R.PTP_INST_CFG_L2_ADDR n).key = true := by
  refine decide_eq_true ?_
  simp only [R.PTP_INST_CFG_L2_ADDR, Field.mk']; omega

theorem has_R_PTP_INST_CFG_MCAST (n : Nat) : Block.has .ptp (R.PTP_INST_CFG_MCAST n).key = true := by
  refine decide_eq_true ?_
  simp only [R.PTP_INST_CFG_MCAST, Field.mk']; omega

theorem has_R_PTP_INST_CFG_ONESTEP (n : Nat) : Block.has .ptp (R.PTP_INST_CFG_ONESTEP n).key = true := by
  refine decide_eq_true ?_
  simp only [R.PTP_INST_CFG_ONESTEP, Field.mk']; omega

theorem has_R_PTP_INST_CFG_PROFILE (n : Nat) : Block.has .ptp (R.PTP_INST_CFG_PROFILE n).key = true := by
  refine decide_eq_true ?_
  simp only [R.PTP_INST_CFG_PROFILE, Field.mk']; omega

theorem has_R_PTP_INST_CFG_ROLE (n : Nat) : Block.has .ptp (R.PTP_INST_CFG_ROLE n).key = true := by
  refine decide_eq_true ?_
  simp only [R.PTP_INST_CFG_ROLE, Field.mk']; omega

theorem has_R_PTP_INST_CFG_SVC (n : Nat) : Block.has .ptp (R.PTP_INST_CFG_SVC n).key = true := by
  refine decide_eq_true ?_
  simp only [R.PTP_INST_CFG_SVC, Field.mk']; omega

theorem has_R_PTP_INST_CFG_TRANSPORT (n : Nat) : Block.has .ptp (R.PTP_INST_CFG_TRANSPORT n).key = true := by
  refine decide_eq_true ?_
  simp only [R.PTP_INST_CFG_TRANSPORT, Field.mk']; omega

theorem has_R_PTP_INST_CFG_UCAST (n : Nat) : Block.has .ptp (R.PTP_INST_CFG_UCAST n).key = true := by
  refine decide_eq_true ?_
  simp only [R.PTP_INST_CFG_UCAST, Field.mk']; omega

theorem has_R_PTP_INST_CFG_V2008 (n : Nat) : Block.has .ptp (R.PTP_INST_CFG_V2008 n).key = true := by
  refine decide_eq_true ?_
  simp only [R.PTP_INST_CFG_V2008, Field.mk']; omega

theorem has_R_PTP_INST_PEER_ADDR (n : Nat) : Block.has .ptp (R.PTP_INST_PEER_ADDR n).key = true := by
  refine decide_eq_true ?_
  simp only [R.PTP_INST_PEER_ADDR, Field.mk']
  have h1 : n % 512 / 128 < 4 := by omega
  have h2 : n % 512 % 128 / 4 < 32 := by omega
  have h3 : n % 512 % 4 < 4 := by omega
  generalize n % 512 / 128 = a at *
  generalize n % 512 % 128 / 4 = b at *
  generalize n % 512 % 4 = c at *
  omega

theorem has_R_PTP_INST_PHASE_PHASE (n : Nat) : Block.has .ptp (R.PTP_INST_PHASE_PHASE n).key = true := by
  refine decide_eq_true ?_
  simp only [R.PTP_INST_PHASE_PHASE, Field.mk']; omega

theorem has_R_PTP_INST_RATE_ANN_TO (n : Nat) : Block.has .ptp (R.PTP_INST_RATE_ANN_TO n).key = true := by
  refine decide_eq_true ?_
  simp only [R.PTP_INST_RATE_ANN_TO, Field.mk']; omega

theorem has_R_PTP_INST_RATE_LOG_ANN (n : Nat) : Block.has .ptp (R.PTP_INST_RATE_LOG_ANN n).key = true := by
  refine decide_eq_true ?_
  simp only [R.PTP_INST_RATE_LOG_ANN, Field.mk']; omega

theorem has_R_PTP_INST_RATE_LOG_DREQ (n : Nat) : Block.has .ptp (R.PTP_INST_RATE_LOG_DREQ n).key = true := by
  refine decide_eq_true ?_
  simp only [R.PTP_INST_RATE_LOG_DREQ, Field.mk']; omega

theorem has_R_PTP_INST_RATE_LOG_SYNC (n : Nat) : Block.has .ptp (R.PTP_INST_RATE_LOG_SYNC n).key = true := by
  refine decide_eq_true ?_
  simp only [R.PTP_INST_RATE_LOG_SYNC, Field.mk']; omega

theorem has_R_PTP_INST_STAT_CFG_ERR (n : Nat) : Block.has .ptp (R.PTP_INST_STAT_CFG_ERR n).key = true := by
  refine decide_eq_true ?_
  simp only [R.PTP_INST_STAT_CFG_ERR, Field.mk']; omega

theorem has_R_PTP_INST_STAT_MASTER_CLASS (n : Nat) : Block.has .ptp (R.PTP_INST_STAT_MASTER_CLASS n).key = true := by
  refine decide_eq_true ?_
  simp only [R.PTP_INST_STAT_MASTER_CLASS, Field.mk']; omega

theorem has_R_PTP_INST_STAT_STATE (n : Nat) : Block.has .ptp (R.PTP_INST_STAT_STATE n).key = true := by
  refine decide_eq_true ?_
  simp only [R.PTP_INST_STAT_STATE, Field.mk']; omega

theorem has_R_PTP_INST_UP_LOCAL_PRIO (n : Nat) : Block.has .ptp (R.PTP_INST_UP_LOCAL_PRIO n).key = true := by
  refine decide_eq_true ?_
  simp only [R.PTP_INST_UP_LOCAL_PRIO, Field.mk']; omega

theorem has_R_PTP_INST_UP_QUAL_CLASS (n : Nat) : Block.has .ptp (R.PTP_INST_UP_QUAL_CLASS n).key = true := by
  refine decide_eq_true ?_
  simp only [R.PTP_INST_UP_QUAL_CLASS, Field.mk']; omega

theorem has_R_PTP_INST_UP_REQ_DUR (n : Nat) : Block.has .ptp (R.PTP_INST_UP_REQ_DUR n).key = true := by
  refine decide_eq_true ?_
  simp only [R.PTP_INST_UP_REQ_DUR, Field.mk']; omega

theorem has_R_PWR_CTL_BUDGET : Block.has .pwr R.PWR_CTL_BUDGET.key = true := by decide

theorem has_R_PWR_DIE_SLEEP_ASLEEP : Block.has .pwr R.PWR_DIE_SLEEP_ASLEEP.key = true := by decide

theorem has_R_PWR_EVT_BITS : Block.has .pwr R.PWR_EVT_BITS.key = true := by decide

theorem has_R_PWR_PORT_PARKED_PORTS : Block.has .pwr R.PWR_PORT_PARKED_PORTS.key = true := by decide

theorem has_R_PWR_RST_CAUSE_KIND : Block.has .pwr R.PWR_RST_CAUSE_KIND.key = true := by decide

theorem has_R_PWR_RST_CAUSE_SENDER : Block.has .pwr R.PWR_RST_CAUSE_SENDER.key = true := by decide

theorem has_R_PWR_RST_CAUSE_WARM_CNT : Block.has .pwr R.PWR_RST_CAUSE_WARM_CNT.key = true := by decide

theorem has_R_PWR_RST_CTL_KIND : Block.has .pwr R.PWR_RST_CTL_KIND.key = true := by decide

theorem has_R_PWR_STAT_DERATE : Block.has .pwr R.PWR_STAT_DERATE.key = true := by decide

theorem has_R_PWR_STAT_EFFECTIVE : Block.has .pwr R.PWR_STAT_EFFECTIVE.key = true := by decide

theorem has_R_PWR_STAT_GRANTED : Block.has .pwr R.PWR_STAT_GRANTED.key = true := by decide

theorem has_R_PWR_STAT_OVERTEMP : Block.has .pwr R.PWR_STAT_OVERTEMP.key = true := by decide

theorem has_R_PWR_STAT_SHORT : Block.has .pwr R.PWR_STAT_SHORT.key = true := by decide

theorem has_R_PWR_TEMP_DIE : Block.has .pwr R.PWR_TEMP_DIE.key = true := by decide

theorem has_R_PWR_TEMP_TJ : Block.has .pwr R.PWR_TEMP_TJ.key = true := by decide

theorem has_R_RFM_CFG_CLK (n : Nat) : Block.has .rfm (R.RFM_CFG_CLK n).key = true := by
  refine decide_eq_true ?_
  simp only [R.RFM_CFG_CLK, Field.mk']; omega

theorem has_R_RFM_CFG_EFC_MODE (n : Nat) : Block.has .rfm (R.RFM_CFG_EFC_MODE n).key = true := by
  refine decide_eq_true ?_
  simp only [R.RFM_CFG_EFC_MODE, Field.mk']; omega

theorem has_R_RFM_CFG_PARK (n : Nat) : Block.has .rfm (R.RFM_CFG_PARK n).key = true := by
  refine decide_eq_true ?_
  simp only [R.RFM_CFG_PARK, Field.mk']; omega

theorem has_R_RFM_EFC_CODE (n : Nat) : Block.has .rfm (R.RFM_EFC_CODE n).key = true := by
  refine decide_eq_true ?_
  simp only [R.RFM_EFC_CODE, Field.mk']; omega

theorem has_R_RFM_EVT_BITS : Block.has .rfm R.RFM_EVT_BITS.key = true := by decide

theorem has_R_RFM_FREQ_F (n : Nat) : Block.has .rfm (R.RFM_FREQ_F n).key = true := by
  refine decide_eq_true ?_
  simp only [R.RFM_FREQ_F, Field.mk']; omega

theorem has_R_RFM_HOURS_CMD_DONE (n : Nat) : Block.has .rfm (R.RFM_HOURS_CMD_DONE n).key = true := by
  refine decide_eq_true ?_
  simp only [R.RFM_HOURS_CMD_DONE, Field.mk']; omega

theorem has_R_RFM_HOURS_CMD_GO (n : Nat) : Block.has .rfm (R.RFM_HOURS_CMD_GO n).key = true := by
  refine decide_eq_true ?_
  simp only [R.RFM_HOURS_CMD_GO, Field.mk']; omega

theorem has_R_RFM_HOURS_CMD_REFUSED (n : Nat) : Block.has .rfm (R.RFM_HOURS_CMD_REFUSED n).key = true := by
  refine decide_eq_true ?_
  simp only [R.RFM_HOURS_CMD_REFUSED, Field.mk']; omega

theorem has_R_RFM_HOURS_HOURS (n : Nat) : Block.has .rfm (R.RFM_HOURS_HOURS n).key = true := by
  refine decide_eq_true ?_
  simp only [R.RFM_HOURS_HOURS, Field.mk']; omega

theorem has_R_RFM_LIFE_REMAIN (n : Nat) : Block.has .rfm (R.RFM_LIFE_REMAIN n).key = true := by
  refine decide_eq_true ?_
  simp only [R.RFM_LIFE_REMAIN, Field.mk']; omega

theorem has_R_RFM_PPS_EXTRA_EXTRA (n : Nat) : Block.has .rfm (R.RFM_PPS_EXTRA_EXTRA n).key = true := by
  refine decide_eq_true ?_
  simp only [R.RFM_PPS_EXTRA_EXTRA, Field.mk']; omega

theorem has_R_RFM_RAIL_RAIL (n : Nat) : Block.has .rfm (R.RFM_RAIL_RAIL n).key = true := by
  refine decide_eq_true ?_
  simp only [R.RFM_RAIL_RAIL, Field.mk']; omega

theorem has_R_RFM_REC_REC (n : Nat) : Block.has .rfm (R.RFM_REC_REC n).key = true := by
  refine decide_eq_true ?_
  simp only [R.RFM_REC_REC, Field.mk']; omega

theorem has_R_RFM_STAT_ALM (n : Nat) : Block.has .rfm (R.RFM_STAT_ALM n).key = true := by
  refine decide_eq_true ?_
  simp only [R.RFM_STAT_ALM, Field.mk']; omega

theorem has_R_RFM_STAT_CANDIDATE (n : Nat) : Block.has .rfm (R.RFM_STAT_CANDIDATE n).key = true := by
  refine decide_eq_true ?_
  simp only [R.RFM_STAT_CANDIDATE, Field.mk']; omega

theorem has_R_RFM_STAT_CLK_OK (n : Nat) : Block.has .rfm (R.RFM_STAT_CLK_OK n).key = true := by
  refine decide_eq_true ?_
  simp only [R.RFM_STAT_CLK_OK, Field.mk']; omega

theorem has_R_RFM_STAT_EFC_RAIL (n : Nat) : Block.has .rfm (R.RFM_STAT_EFC_RAIL n).key = true := by
  refine decide_eq_true ?_
  simp only [R.RFM_STAT_EFC_RAIL, Field.mk']; omega

theorem has_R_RFM_STAT_HOURS_OK (n : Nat) : Block.has .rfm (R.RFM_STAT_HOURS_OK n).key = true := by
  refine decide_eq_true ?_
  simp only [R.RFM_STAT_HOURS_OK, Field.mk']; omega

theorem has_R_RFM_STAT_IDENT_OK (n : Nat) : Block.has .rfm (R.RFM_STAT_IDENT_OK n).key = true := by
  refine decide_eq_true ?_
  simp only [R.RFM_STAT_IDENT_OK, Field.mk']; omega

theorem has_R_RFM_STAT_LIFE (n : Nat) : Block.has .rfm (R.RFM_STAT_LIFE n).key = true := by
  refine decide_eq_true ?_
  simp only [R.RFM_STAT_LIFE, Field.mk']; omega

theorem has_R_RFM_STAT_PARKED (n : Nat) : Block.has .rfm (R.RFM_STAT_PARKED n).key = true := by
  refine decide_eq_true ?_
  simp only [R.RFM_STAT_PARKED, Field.mk']; omega

theorem has_R_RFM_STAT_STATE (n : Nat) : Block.has .rfm (R.RFM_STAT_STATE n).key = true := by
  refine decide_eq_true ?_
  simp only [R.RFM_STAT_STATE, Field.mk']; omega

theorem has_R_RFM_USE_MINUTES (n : Nat) : Block.has .rfm (R.RFM_USE_MINUTES n).key = true := by
  refine decide_eq_true ?_
  simp only [R.RFM_USE_MINUTES, Field.mk']; omega

theorem has_R_RFM_USE_SEQ (n : Nat) : Block.has .rfm (R.RFM_USE_SEQ n).key = true := by
  refine decide_eq_true ?_
  simp only [R.RFM_USE_SEQ, Field.mk']; omega

theorem has_R_TIM_CH_CAL_DNL (n : Nat) : Block.has .tim (R.TIM_CH_CAL_DNL n).key = true := by
  refine decide_eq_true ?_
  simp only [R.TIM_CH_CAL_DNL, Field.mk']; omega

theorem has_R_TIM_CH_CFG_CONT (n : Nat) : Block.has .tim (R.TIM_CH_CFG_CONT n).key = true := by
  refine decide_eq_true ?_
  simp only [R.TIM_CH_CFG_CONT, Field.mk']; omega

theorem has_R_TIM_CH_CFG_EDGE (n : Nat) : Block.has .tim (R.TIM_CH_CFG_EDGE n).key = true := by
  refine decide_eq_true ?_
  simp only [R.TIM_CH_CFG_EDGE, Field.mk']; omega

theorem has_R_TIM_CH_CFG_GATED (n : Nat) : Block.has .tim (R.TIM_CH_CFG_GATED n).key = true := by
  refine decide_eq_true ?_
  simp only [R.TIM_CH_CFG_GATED, Field.mk']; omega

theorem has_R_TIM_CH_CFG_MODE (n : Nat) : Block.has .tim (R.TIM_CH_CFG_MODE n).key = true := by
  refine decide_eq_true ?_
  simp only [R.TIM_CH_CFG_MODE, Field.mk']; omega

theorem has_R_TIM_CH_CFG_PRESCALE (n : Nat) : Block.has .tim (R.TIM_CH_CFG_PRESCALE n).key = true := by
  refine decide_eq_true ?_
  simp only [R.TIM_CH_CFG_PRESCALE, Field.mk']; omega

theorem has_R_TIM_CH_CFG_STOP_SELF (n : Nat) : Block.has .tim (R.TIM_CH_CFG_STOP_SELF n).key = true := by
  refine decide_eq_true ?_
  simp only [R.TIM_CH_CFG_STOP_SELF, Field.mk']; omega

theorem has_R_TIM_CH_CTL_ARM (n : Nat) : Block.has .tim (R.TIM_CH_CTL_ARM n).key = true := by
  refine decide_eq_true ?_
  simp only [R.TIM_CH_CTL_ARM, Field.mk']; omega

theorem has_R_TIM_CH_DEAD_DEAD (n : Nat) : Block.has .tim (R.TIM_CH_DEAD_DEAD n).key = true := by
  refine decide_eq_true ?_
  simp only [R.TIM_CH_DEAD_DEAD, Field.mk']; omega

theorem has_R_TIM_CH_STAT_ASSIGNED (n : Nat) : Block.has .tim (R.TIM_CH_STAT_ASSIGNED n).key = true := by
  refine decide_eq_true ?_
  simp only [R.TIM_CH_STAT_ASSIGNED, Field.mk']; omega

theorem has_R_TIM_CH_STAT_CAL_SEQ (n : Nat) : Block.has .tim (R.TIM_CH_STAT_CAL_SEQ n).key = true := by
  refine decide_eq_true ?_
  simp only [R.TIM_CH_STAT_CAL_SEQ, Field.mk']; omega

theorem has_R_TIM_CH_STAT_CFG_ERR (n : Nat) : Block.has .tim (R.TIM_CH_STAT_CFG_ERR n).key = true := by
  refine decide_eq_true ?_
  simp only [R.TIM_CH_STAT_CFG_ERR, Field.mk']; omega

theorem has_R_TIM_CH_STAT_HO_WAIT (n : Nat) : Block.has .tim (R.TIM_CH_STAT_HO_WAIT n).key = true := by
  refine decide_eq_true ?_
  simp only [R.TIM_CH_STAT_HO_WAIT, Field.mk']; omega

theorem has_R_TIM_CH_STAT_STATE (n : Nat) : Block.has .tim (R.TIM_CH_STAT_STATE n).key = true := by
  refine decide_eq_true ?_
  simp only [R.TIM_CH_STAT_STATE, Field.mk']; omega

theorem has_R_TIM_CH_STAT_UNIT (n : Nat) : Block.has .tim (R.TIM_CH_STAT_UNIT n).key = true := by
  refine decide_eq_true ?_
  simp only [R.TIM_CH_STAT_UNIT, Field.mk']; omega

theorem has_R_TIM_CTL_CAL_NOW : Block.has .tim R.TIM_CTL_CAL_NOW.key = true := by decide

theorem has_R_TIM_EVT_BITS : Block.has .tim R.TIM_EVT_BITS.key = true := by decide

theorem has_R_TIM_GRP_LOST_LOST (n : Nat) : Block.has .tim (R.TIM_GRP_LOST_LOST n).key = true := by
  refine decide_eq_true ?_
  simp only [R.TIM_GRP_LOST_LOST, Field.mk']; omega

theorem has_R_TIM_GRP_RD_RD (n : Nat) : Block.has .tim (R.TIM_GRP_RD_RD n).key = true := by
  refine decide_eq_true ?_
  simp only [R.TIM_GRP_RD_RD, Field.mk']; omega

theorem has_R_TIM_GRP_STAT_GATE_OPEN (n : Nat) : Block.has .tim (R.TIM_GRP_STAT_GATE_OPEN n).key = true := by
  refine decide_eq_true ?_
  simp only [R.TIM_GRP_STAT_GATE_OPEN, Field.mk']; omega

theorem has_R_TIM_GRP_STAT_RETIRED (n : Nat) : Block.has .tim (R.TIM_GRP_STAT_RETIRED n).key = true := by
  refine decide_eq_true ?_
  simp only [R.TIM_GRP_STAT_RETIRED, Field.mk']; omega

theorem has_R_TIM_GRP_STAT_SPARE (n : Nat) : Block.has .tim (R.TIM_GRP_STAT_SPARE n).key = true := by
  refine decide_eq_true ?_
  simp only [R.TIM_GRP_STAT_SPARE, Field.mk']; omega

theorem has_R_TIM_GRP_STAT_WAITING (n : Nat) : Block.has .tim (R.TIM_GRP_STAT_WAITING n).key = true := by
  refine decide_eq_true ?_
  simp only [R.TIM_GRP_STAT_WAITING, Field.mk']; omega

theorem has_R_TIM_GRP_WR_WR (n : Nat) : Block.has .tim (R.TIM_GRP_WR_WR n).key = true := by
  refine decide_eq_true ?_
  simp only [R.TIM_GRP_WR_WR, Field.mk']; omega

theorem has_R_TIM_STAT_CAL_BUSY : Block.has .tim R.TIM_STAT_CAL_BUSY.key = true := by decide

theorem has_R_TIM_STAT_NO_SPARE : Block.has .tim R.TIM_STAT_NO_SPARE.key = true := by decide

theorem has_R_TND_CNT_ABORTS : Block.has .mor R.TND_CNT_ABORTS.key = true := by decide

theorem has_R_TND_CNT_COLLISIONS : Block.has .mor R.TND_CNT_COLLISIONS.key = true := by decide

theorem has_R_TND_ERR_CRC_ERR : Block.has .mor R.TND_ERR_CRC_ERR.key = true := by decide

theorem has_R_TND_ERR_RX_OK : Block.has .mor R.TND_ERR_RX_OK.key = true := by decide

theorem has_R_TND_NODE_INFO_MASTER (n : Nat) : Block.has .mor (R.TND_NODE_INFO_MASTER n).key = true := by
  refine decide_eq_true ?_
  simp only [R.TND_NODE_INFO_MASTER, Field.mk']; omega

theorem has_R_TND_NODE_INFO_PRESENT (n : Nat) : Block.has .mor (R.TND_NODE_INFO_PRESENT n).key = true := by
  refine decide_eq_true ?_
  simp only [R.TND_NODE_INFO_PRESENT, Field.mk']; omega

theorem has_R_TND_NODE_INFO_PRIO (n : Nat) : Block.has .mor (R.TND_NODE_INFO_PRIO n).key = true := by
  refine decide_eq_true ?_
  simp only [R.TND_NODE_INFO_PRIO, Field.mk']; omega

theorem has_R_TND_NODE_INFO_STRAP (n : Nat) : Block.has .mor (R.TND_NODE_INFO_STRAP n).key = true := by
  refine decide_eq_true ?_
  simp only [R.TND_NODE_INFO_STRAP, Field.mk']; omega

theorem has_R_TND_NODE_UID_HI_UID (n : Nat) : Block.has .mor (R.TND_NODE_UID_HI_UID n).key = true := by
  refine decide_eq_true ?_
  simp only [R.TND_NODE_UID_HI_UID, Field.mk']; omega

theorem has_R_TND_NODE_UID_LO_UID (n : Nat) : Block.has .mor (R.TND_NODE_UID_LO_UID n).key = true := by
  refine decide_eq_true ?_
  simp only [R.TND_NODE_UID_LO_UID, Field.mk']; omega

theorem has_R_TND_STAT_HEARD : Block.has .mor R.TND_STAT_HEARD.key = true := by decide

theorem has_R_TSC_INCR_CTL_APPLY (n : Nat) : Block.has .tsc (R.TSC_INCR_CTL_APPLY n).key = true := by
  refine decide_eq_true ?_
  simp only [R.TSC_INCR_CTL_APPLY, Field.mk']; omega

theorem has_R_TSC_INCR_CTL_IGNORED (n : Nat) : Block.has .tsc (R.TSC_INCR_CTL_IGNORED n).key = true := by
  refine decide_eq_true ?_
  simp only [R.TSC_INCR_CTL_IGNORED, Field.mk']; omega

theorem has_R_TSC_INCR_CTL_REJECTED (n : Nat) : Block.has .tsc (R.TSC_INCR_CTL_REJECTED n).key = true := by
  refine decide_eq_true ?_
  simp only [R.TSC_INCR_CTL_REJECTED, Field.mk']; omega

theorem has_R_TSC_LANE_DLY_DLY (n : Nat) : Block.has .lane (R.TSC_LANE_DLY_DLY n).key = true := by
  refine decide_eq_true ?_
  simp only [R.TSC_LANE_DLY_DLY, Field.mk']; omega

theorem has_R_TSC_LANE_ERR_MISSED (n : Nat) : Block.has .lane (R.TSC_LANE_ERR_MISSED n).key = true := by
  refine decide_eq_true ?_
  simp only [R.TSC_LANE_ERR_MISSED, Field.mk']; omega

theorem has_R_TSC_LANE_ERR_OUT_OF_BOUND (n : Nat) : Block.has .lane (R.TSC_LANE_ERR_OUT_OF_BOUND n).key = true := by
  refine decide_eq_true ?_
  simp only [R.TSC_LANE_ERR_OUT_OF_BOUND, Field.mk']; omega

theorem has_R_TSC_LANE_OFS_OFS (n : Nat) : Block.has .lane (R.TSC_LANE_OFS_OFS n).key = true := by
  refine decide_eq_true ?_
  simp only [R.TSC_LANE_OFS_OFS, Field.mk']; omega

theorem has_R_TSC_LANE_STAT_COAST_RUN (n : Nat) : Block.has .lane (R.TSC_LANE_STAT_COAST_RUN n).key = true := by
  refine decide_eq_true ?_
  simp only [R.TSC_LANE_STAT_COAST_RUN, Field.mk']; omega

theorem has_R_TSC_LANE_STAT_GOOD_RUN (n : Nat) : Block.has .lane (R.TSC_LANE_STAT_GOOD_RUN n).key = true := by
  refine decide_eq_true ?_
  simp only [R.TSC_LANE_STAT_GOOD_RUN, Field.mk']; omega

theorem has_R_TSC_LANE_STAT_STATE (n : Nat) : Block.has .lane (R.TSC_LANE_STAT_STATE n).key = true := by
  refine decide_eq_true ?_
  simp only [R.TSC_LANE_STAT_STATE, Field.mk']; omega

theorem has_R_TSC_LEAP_CTL_ARM : Block.has .tsc R.TSC_LEAP_CTL_ARM.key = true := by decide

theorem has_R_TSC_LEAP_CTL_ARMED : Block.has .tsc R.TSC_LEAP_CTL_ARMED.key = true := by decide

theorem has_R_TSC_LEAP_CTL_DONE : Block.has .tsc R.TSC_LEAP_CTL_DONE.key = true := by decide

theorem has_R_TSC_LEAP_CTL_IN_LEAP : Block.has .tsc R.TSC_LEAP_CTL_IN_LEAP.key = true := by decide

theorem has_R_TSC_LEAP_CTL_REFUSED : Block.has .tsc R.TSC_LEAP_CTL_REFUSED.key = true := by decide

theorem has_R_TSC_LEAP_CTL_SMEARING : Block.has .tsc R.TSC_LEAP_CTL_SMEARING.key = true := by decide

theorem has_R_TSC_LEAP_CTL_SMEAR_LATE : Block.has .tsc R.TSC_LEAP_CTL_SMEAR_LATE.key = true := by decide

theorem has_R_TSC_LEAP_CTL_WARN : Block.has .tsc R.TSC_LEAP_CTL_WARN.key = true := by decide

theorem has_R_TSC_LEAP_UTC_HI_UTC : Block.has .tsc R.TSC_LEAP_UTC_HI_UTC.key = true := by decide

theorem has_R_TSC_LEAP_UTC_LO_UTC : Block.has .tsc R.TSC_LEAP_UTC_LO_UTC.key = true := by decide

theorem has_R_TSC_SLEW_CTL_ABORT (n : Nat) : Block.has .tsc (R.TSC_SLEW_CTL_ABORT n).key = true := by
  refine decide_eq_true ?_
  simp only [R.TSC_SLEW_CTL_ABORT, Field.mk']; omega

theorem has_R_TSC_SLEW_CTL_ABORTED (n : Nat) : Block.has .tsc (R.TSC_SLEW_CTL_ABORTED n).key = true := by
  refine decide_eq_true ?_
  simp only [R.TSC_SLEW_CTL_ABORTED, Field.mk']; omega

theorem has_R_TSC_SLEW_CTL_ACTIVE (n : Nat) : Block.has .tsc (R.TSC_SLEW_CTL_ACTIVE n).key = true := by
  refine decide_eq_true ?_
  simp only [R.TSC_SLEW_CTL_ACTIVE, Field.mk']; omega

theorem has_R_TSC_SLEW_CTL_DONE (n : Nat) : Block.has .tsc (R.TSC_SLEW_CTL_DONE n).key = true := by
  refine decide_eq_true ?_
  simp only [R.TSC_SLEW_CTL_DONE, Field.mk']; omega

theorem has_R_TSC_SLEW_CTL_GO (n : Nat) : Block.has .tsc (R.TSC_SLEW_CTL_GO n).key = true := by
  refine decide_eq_true ?_
  simp only [R.TSC_SLEW_CTL_GO, Field.mk']; omega

theorem has_R_TSC_SLEW_CTL_IGNORED (n : Nat) : Block.has .tsc (R.TSC_SLEW_CTL_IGNORED n).key = true := by
  refine decide_eq_true ?_
  simp only [R.TSC_SLEW_CTL_IGNORED, Field.mk']; omega

theorem has_R_TSC_SLEW_CTL_REJECTED (n : Nat) : Block.has .tsc (R.TSC_SLEW_CTL_REJECTED n).key = true := by
  refine decide_eq_true ?_
  simp only [R.TSC_SLEW_CTL_REJECTED, Field.mk']; omega

theorem has_R_TSC_SLEW_LEFT_HI_LEFT (n : Nat) : Block.has .tsc (R.TSC_SLEW_LEFT_HI_LEFT n).key = true := by
  refine decide_eq_true ?_
  simp only [R.TSC_SLEW_LEFT_HI_LEFT, Field.mk']; omega

theorem has_R_TSC_SLEW_LEFT_LO_LEFT (n : Nat) : Block.has .tsc (R.TSC_SLEW_LEFT_LO_LEFT n).key = true := by
  refine decide_eq_true ?_
  simp only [R.TSC_SLEW_LEFT_LO_LEFT, Field.mk']; omega

theorem has_R_TSC_SNAP_CTL_TAKE : Block.has .tsc R.TSC_SNAP_CTL_TAKE.key = true := by decide

theorem has_R_TSC_SNAP_CTL_VALID : Block.has .tsc R.TSC_SNAP_CTL_VALID.key = true := by decide

theorem has_R_TSC_SNAP_DIFF_HI_DIFF : Block.has .tsc R.TSC_SNAP_DIFF_HI_DIFF.key = true := by decide

theorem has_R_TSC_SNAP_DIFF_LO_DIFF : Block.has .tsc R.TSC_SNAP_DIFF_LO_DIFF.key = true := by decide

theorem has_R_TSC_SNAP_FRAC_FRAC (n : Nat) : Block.has .tsc (R.TSC_SNAP_FRAC_FRAC n).key = true := by
  refine decide_eq_true ?_
  simp only [R.TSC_SNAP_FRAC_FRAC, Field.mk']; omega

theorem has_R_TSC_SNAP_NS_NS (n : Nat) : Block.has .tsc (R.TSC_SNAP_NS_NS n).key = true := by
  refine decide_eq_true ?_
  simp only [R.TSC_SNAP_NS_NS, Field.mk']; omega

theorem has_R_TSC_SNAP_SEC_HI_SEC (n : Nat) : Block.has .tsc (R.TSC_SNAP_SEC_HI_SEC n).key = true := by
  refine decide_eq_true ?_
  simp only [R.TSC_SNAP_SEC_HI_SEC, Field.mk']; omega

theorem has_R_TSC_SNAP_SEC_LO_SEC (n : Nat) : Block.has .tsc (R.TSC_SNAP_SEC_LO_SEC n).key = true := by
  refine decide_eq_true ?_
  simp only [R.TSC_SNAP_SEC_LO_SEC, Field.mk']; omega

theorem has_R_TSC_STAT_SERVED : Block.has .tsc R.TSC_STAT_SERVED.key = true := by decide

theorem has_R_TSC_STAT_TIME_SET : Block.has .tsc R.TSC_STAT_TIME_SET.key = true := by decide

theorem has_R_TSC_STEP_CTL_DENIED (n : Nat) : Block.has .tsc (R.TSC_STEP_CTL_DENIED n).key = true := by
  refine decide_eq_true ?_
  simp only [R.TSC_STEP_CTL_DENIED, Field.mk']; omega

theorem has_R_TSC_STEP_CTL_DONE (n : Nat) : Block.has .tsc (R.TSC_STEP_CTL_DONE n).key = true := by
  refine decide_eq_true ?_
  simp only [R.TSC_STEP_CTL_DONE, Field.mk']; omega

theorem has_R_TSC_STEP_CTL_GO (n : Nat) : Block.has .tsc (R.TSC_STEP_CTL_GO n).key = true := by
  refine decide_eq_true ?_
  simp only [R.TSC_STEP_CTL_GO, Field.mk']; omega

theorem has_R_TSC_STEP_CTL_MODE (n : Nat) : Block.has .tsc (R.TSC_STEP_CTL_MODE n).key = true := by
  refine decide_eq_true ?_
  simp only [R.TSC_STEP_CTL_MODE, Field.mk']; omega

theorem has_R_TSC_STEP_CTL_NEG (n : Nat) : Block.has .tsc (R.TSC_STEP_CTL_NEG n).key = true := by
  refine decide_eq_true ?_
  simp only [R.TSC_STEP_CTL_NEG, Field.mk']; omega

theorem has_R_TSC_STEP_CTL_PENDING (n : Nat) : Block.has .tsc (R.TSC_STEP_CTL_PENDING n).key = true := by
  refine decide_eq_true ?_
  simp only [R.TSC_STEP_CTL_PENDING, Field.mk']; omega

theorem has_R_TSC_SWITCH_CTL_ACTIVE : Block.has .tsc R.TSC_SWITCH_CTL_ACTIVE.key = true := by decide

theorem has_R_TSC_SWITCH_CTL_DONE : Block.has .tsc R.TSC_SWITCH_CTL_DONE.key = true := by decide

theorem has_R_TSC_SWITCH_CTL_REFUSED : Block.has .tsc R.TSC_SWITCH_CTL_REFUSED.key = true := by decide

theorem has_R_TSC_UTC_OFS_OFS : Block.has .tsc R.TSC_UTC_OFS_OFS.key = true := by decide

theorem has_R_TSC_UTC_OFS_VALID : Block.has .tsc R.TSC_UTC_OFS_VALID.key = true := by decide

theorem has_R_WCH_ECC_CORR : Block.has .wch R.WCH_ECC_CORR.key = true := by decide

theorem has_R_WCH_ECC_UNCORR : Block.has .wch R.WCH_ECC_UNCORR.key = true := by decide

theorem has_R_WCH_EVT_BITS : Block.has .wch R.WCH_EVT_BITS.key = true := by decide

theorem has_R_WCH_RES0_FORCED (n : Nat) : Block.has .wch (R.WCH_RES0_FORCED n).key = true := by
  refine decide_eq_true ?_
  simp only [R.WCH_RES0_FORCED, Field.mk']; omega

theorem has_R_WCH_RES0_RESULT (n : Nat) : Block.has .wch (R.WCH_RES0_RESULT n).key = true := by
  refine decide_eq_true ?_
  simp only [R.WCH_RES0_RESULT, Field.mk']; omega

theorem has_R_WCH_RES0_UNIT (n : Nat) : Block.has .wch (R.WCH_RES0_UNIT n).key = true := by
  refine decide_eq_true ?_
  simp only [R.WCH_RES0_UNIT, Field.mk']; omega

theorem has_R_WCH_RES1_WHEN (n : Nat) : Block.has .wch (R.WCH_RES1_WHEN n).key = true := by
  refine decide_eq_true ?_
  simp only [R.WCH_RES1_WHEN, Field.mk']; omega

theorem has_R_WCH_STAT_CURRENT : Block.has .wch R.WCH_STAT_CURRENT.key = true := by decide

theorem has_R_WCH_STAT_LAST_DAY : Block.has .wch R.WCH_STAT_LAST_DAY.key = true := by decide

theorem has_R_WCH_STAT_PENDING : Block.has .wch R.WCH_STAT_PENDING.key = true := by decide

theorem has_R_WCH_STAT_RUNNING : Block.has .wch R.WCH_STAT_RUNNING.key = true := by decide

theorem has_R_WCH_STAT_SCHEDULED : Block.has .wch R.WCH_STAT_SCHEDULED.key = true := by decide

theorem has_Reg_TIM_GRP_CFG (n : Nat) : ∀ f ∈ (Reg.TIM_GRP_CFG n).fields, Block.has .tim f.key = true := by
  simp only [Reg.TIM_GRP_CFG, List.forall_mem_cons, List.not_mem_nil, false_implies, implies_true, and_true]
  exact ⟨has_R_TIM_GRP_CFG_GATE_MODE _, has_R_TIM_GRP_CFG_POL _, has_R_TIM_GRP_CFG_REARM _⟩

theorem has_Reg_MAC_TS_DLY_RX (n : Nat) : ∀ f ∈ (Reg.MAC_TS_DLY_RX n).fields, Block.has .mac f.key = true := by
  simp only [Reg.MAC_TS_DLY_RX, List.forall_mem_cons, List.not_mem_nil, false_implies, implies_true, and_true]
  exact has_R_MAC_TS_DLY_RX_DLY _

theorem has_R_MBX_STAT_RX_DOWN (n : Nat) : Block.has .mbx (R.MBX_STAT_RX_DOWN n).key = true := by
  refine decide_eq_true ?_
  simp only [R.MBX_STAT_RX_DOWN, Field.mk']; omega

theorem has_R_HRG_RING_ITR_ITR (n : Nat) : Block.has .ring (R.HRG_RING_ITR_ITR n).key = true := by
  refine decide_eq_true ?_
  simp only [R.HRG_RING_ITR_ITR, Field.mk']; omega

theorem has_R_HRG_RING_ITR_CNT (n : Nat) : Block.has .ring (R.HRG_RING_ITR_CNT n).key = true := by
  refine decide_eq_true ?_
  simp only [R.HRG_RING_ITR_CNT, Field.mk']; omega

theorem has_Reg_HRG_RING_ITR (n : Nat) : ∀ f ∈ (Reg.HRG_RING_ITR n).fields, Block.has .ring f.key = true := by
  simp only [Reg.HRG_RING_ITR, List.forall_mem_cons, List.not_mem_nil, false_implies, implies_true, and_true]
  exact ⟨has_R_HRG_RING_ITR_ITR _, has_R_HRG_RING_ITR_CNT _⟩

theorem has_Reg_MBX_STAT (n : Nat) : ∀ f ∈ (Reg.MBX_STAT n).fields, Block.has .mbx f.key = true := by
  simp only [Reg.MBX_STAT, List.forall_mem_cons, List.not_mem_nil, false_implies, implies_true, and_true]
  exact ⟨has_R_MBX_STAT_STATE _, has_R_MBX_STAT_RX_DOWN _, has_R_MBX_STAT_REJECT _, has_R_MBX_STAT_STALE _, has_R_MBX_STAT_WITHDRAWN _,
    has_R_MBX_STAT_ORPHAN _, has_R_MBX_STAT_OWNER _, has_R_MBX_STAT_LAST_SENDER _⟩

theorem has_Reg_GNS_SPACING : ∀ f ∈ Reg.GNS_SPACING.fields, Block.has .gns f.key = true := by decide

theorem has_Reg_GNS_NAV_RD : ∀ f ∈ Reg.GNS_NAV_RD.fields, Block.has .gns f.key = true := by decide

theorem has_Reg_RFM_CTL : ∀ f ∈ Reg.RFM_CTL.fields, Block.has .rfm f.key = true := by decide

theorem has_Reg_ENS_ANCHOR : ∀ f ∈ Reg.ENS_ANCHOR.fields, Block.has .ens f.key = true := by decide

theorem has_Reg_ENS_DECIDE : ∀ f ∈ Reg.ENS_DECIDE.fields, Block.has .ens f.key = true := by decide

theorem has_Reg_ENS_SLOT_ASYM (n : Nat) : ∀ f ∈ (Reg.ENS_SLOT_ASYM n).fields, Block.has .ens f.key = true := by
  simp only [Reg.ENS_SLOT_ASYM, List.forall_mem_cons, List.not_mem_nil, false_implies, implies_true, and_true]
  exact has_R_ENS_SLOT_ASYM_A _

theorem has_Reg_ENS_SLOT_BIAS (n : Nat) : ∀ f ∈ (Reg.ENS_SLOT_BIAS n).fields, Block.has .ens f.key = true := by
  simp only [Reg.ENS_SLOT_BIAS, List.forall_mem_cons, List.not_mem_nil, false_implies, implies_true, and_true]
  exact has_R_ENS_SLOT_BIAS_B _

theorem has_Reg_ENS_SLOT_BIAS_HI (n : Nat) : ∀ f ∈ (Reg.ENS_SLOT_BIAS_HI n).fields, Block.has .ens f.key = true := by
  simp only [Reg.ENS_SLOT_BIAS_HI, List.forall_mem_cons, List.not_mem_nil, false_implies, implies_true, and_true]
  exact has_R_ENS_SLOT_BIAS_HI_B _

theorem has_Reg_ENS_SLOT_CFG (n : Nat) : ∀ f ∈ (Reg.ENS_SLOT_CFG n).fields, Block.has .ens f.key = true := by
  simp only [Reg.ENS_SLOT_CFG, List.forall_mem_cons, List.not_mem_nil, false_implies, implies_true, and_true]
  exact ⟨has_R_ENS_SLOT_CFG_EN _, has_R_ENS_SLOT_CFG_SET _, has_R_ENS_SLOT_CFG_TB _, has_R_ENS_SLOT_CFG_CLASS _, has_R_ENS_SLOT_CFG_BIAS_FIX _, has_R_ENS_SLOT_CFG_REFID _, has_R_ENS_SLOT_CFG_TI_CH _⟩

theorem has_Reg_ENS_SLOT_CMD (n : Nat) : ∀ f ∈ (Reg.ENS_SLOT_CMD n).fields, Block.has .ens f.key = true := by
  simp only [Reg.ENS_SLOT_CMD, List.forall_mem_cons, List.not_mem_nil, false_implies, implies_true, and_true]
  exact ⟨has_R_ENS_SLOT_CMD_RELEASE _, has_R_ENS_SLOT_CMD_QUARANTINE _, has_R_ENS_SLOT_CMD_CLR_ASYM _, has_R_ENS_SLOT_CMD_RELEARN _⟩

theorem has_Reg_GNS_CH_CFG (n : Nat) : ∀ f ∈ (Reg.GNS_CH_CFG n).fields, Block.has .gns f.key = true := by
  simp only [Reg.GNS_CH_CFG, List.forall_mem_cons, List.not_mem_nil, false_implies, implies_true, and_true]
  exact ⟨has_R_GNS_CH_CFG_PIN _, has_R_GNS_CH_CFG_SYS _, has_R_GNS_CH_CFG_BAND _, has_R_GNS_CH_CFG_ANT _, has_R_GNS_CH_CFG_RSV _, has_R_GNS_CH_CFG_SVID _, has_R_GNS_CH_CFG_SPACING _⟩

theorem has_Reg_GNS_CTL : ∀ f ∈ Reg.GNS_CTL.fields, Block.has .gns f.key = true := by decide

theorem has_Reg_GNS_NOTCH_CTL (n : Nat) : ∀ f ∈ (Reg.GNS_NOTCH_CTL n).fields, Block.has .gns f.key = true := by
  simp only [Reg.GNS_NOTCH_CTL, List.forall_mem_cons, List.not_mem_nil, false_implies, implies_true, and_true]
  exact ⟨has_R_GNS_NOTCH_CTL_MODE _, has_R_GNS_NOTCH_CTL_WIDTH _, has_R_GNS_NOTCH_CTL_THR _, has_R_GNS_NOTCH_CTL_ENGAGED _⟩

theorem has_Reg_GNS_PORT_CFG (n : Nat) : ∀ f ∈ (Reg.GNS_PORT_CFG n).fields, Block.has .gns f.key = true := by
  simp only [Reg.GNS_PORT_CFG, List.forall_mem_cons, List.not_mem_nil, false_implies, implies_true, and_true]
  exact ⟨has_R_GNS_PORT_CFG_EN _, has_R_GNS_PORT_CFG_RATE _, has_R_GNS_PORT_CFG_FMT _, has_R_GNS_PORT_CFG_SPEC_INV _, has_R_GNS_PORT_CFG_IF_OFS _⟩

theorem has_Reg_GNS_PORT_JAM (n : Nat) : ∀ f ∈ (Reg.GNS_PORT_JAM n).fields, Block.has .gns f.key = true := by
  simp only [Reg.GNS_PORT_JAM, List.forall_mem_cons, List.not_mem_nil, false_implies, implies_true, and_true]
  exact ⟨has_R_GNS_PORT_JAM_LVL _, has_R_GNS_PORT_JAM_THR _, has_R_GNS_PORT_JAM_LEARN _⟩

theorem has_Reg_GNS_POS_CTL (n : Nat) : ∀ f ∈ (Reg.GNS_POS_CTL n).fields, Block.has .gns f.key = true := by
  simp only [Reg.GNS_POS_CTL, List.forall_mem_cons, List.not_mem_nil, false_implies, implies_true, and_true]
  exact ⟨has_R_GNS_POS_CTL_MODE _, has_R_GNS_POS_CTL_RESTART _, has_R_GNS_POS_CTL_STATE _⟩

theorem has_Reg_GNS_SLEEP_CTL : ∀ f ∈ Reg.GNS_SLEEP_CTL.fields, Block.has .gns f.key = true := by decide

theorem has_Reg_GNS_SOL_FLAGS (n : Nat) : ∀ f ∈ (Reg.GNS_SOL_FLAGS n).fields, Block.has .gns f.key = true := by
  simp only [Reg.GNS_SOL_FLAGS, List.forall_mem_cons, List.not_mem_nil, false_implies, implies_true, and_true]
  exact ⟨has_R_GNS_SOL_FLAGS_VALID _, has_R_GNS_SOL_FLAGS_DUAL _, has_R_GNS_SOL_FLAGS_POS_KNOWN _, has_R_GNS_SOL_FLAGS_NOTCH_IN_LOBE _, has_R_GNS_SOL_FLAGS_SPOOF _, has_R_GNS_SOL_FLAGS_NO_RAIM _, has_R_GNS_SOL_FLAGS_REF_CHG _, has_R_GNS_SOL_FLAGS_DISCONT _, has_R_GNS_SOL_FLAGS_REF_SYS _, has_R_GNS_SOL_FLAGS_UTC_STEER _, has_R_GNS_SOL_FLAGS_JAM _⟩

theorem has_Reg_HRG_RING_BASE_HI (n : Nat) : ∀ f ∈ (Reg.HRG_RING_BASE_HI n).fields, Block.has .ring f.key = true := by
  simp only [Reg.HRG_RING_BASE_HI, List.forall_mem_cons, List.not_mem_nil, false_implies, implies_true, and_true]
  exact has_R_HRG_RING_BASE_HI_ADDR _

theorem has_Reg_HRG_RING_BASE_LO (n : Nat) : ∀ f ∈ (Reg.HRG_RING_BASE_LO n).fields, Block.has .ring f.key = true := by
  simp only [Reg.HRG_RING_BASE_LO, List.forall_mem_cons, List.not_mem_nil, false_implies, implies_true, and_true]
  exact has_R_HRG_RING_BASE_LO_ADDR _

theorem has_Reg_MAC_CFG (n : Nat) : ∀ f ∈ (Reg.MAC_CFG n).fields, Block.has .mac f.key = true := by
  simp only [Reg.MAC_CFG, List.forall_mem_cons, List.not_mem_nil, false_implies, implies_true, and_true]
  exact ⟨has_R_MAC_CFG_EN _, has_R_MAC_CFG_MODE _, has_R_MAC_CFG_FEC _, has_R_MAC_CFG_AN_EN _⟩

theorem has_Reg_MAC_SVC_CMD (n : Nat) : ∀ f ∈ (Reg.MAC_SVC_CMD n).fields, Block.has .mac f.key = true := by
  simp only [Reg.MAC_SVC_CMD, List.forall_mem_cons, List.not_mem_nil, false_implies, implies_true, and_true]
  exact ⟨has_R_MAC_SVC_CMD_IDX _, has_R_MAC_SVC_CMD_WRITE _, has_R_MAC_SVC_CMD_READ _, has_R_MAC_SVC_CMD_REFUSED _, has_R_MAC_SVC_CMD_BUSY _⟩

theorem has_Reg_MOR_CTL : ∀ f ∈ Reg.MOR_CTL.fields, Block.has .mor f.key = true := by decide

theorem has_Reg_MOR_LINK_CFG (n : Nat) : ∀ f ∈ (Reg.MOR_LINK_CFG n).fields, Block.has .mor f.key = true := by
  simp only [Reg.MOR_LINK_CFG, List.forall_mem_cons, List.not_mem_nil, false_implies, implies_true, and_true]
  exact ⟨has_R_MOR_LINK_CFG_EN _, has_R_MOR_LINK_CFG_TRAIN _⟩

theorem has_Reg_PCT_SEL (n : Nat) : ∀ f ∈ (Reg.PCT_SEL n).fields, Block.has .pct f.key = true := by
  simp only [Reg.PCT_SEL, List.forall_mem_cons, List.not_mem_nil, false_implies, implies_true, and_true]
  exact ⟨has_R_PCT_SEL_EVENT _, has_R_PCT_SEL_UNIT _, has_R_PCT_SEL_MODE _, has_R_PCT_SEL_INVALID _⟩

theorem has_Reg_PLS_CTL (n : Nat) : ∀ f ∈ (Reg.PLS_CTL n).fields, Block.has .tim f.key = true := by
  simp only [Reg.PLS_CTL, List.forall_mem_cons, List.not_mem_nil, false_implies, implies_true, and_true]
  exact ⟨has_R_PLS_CTL_GO _, has_R_PLS_CTL_STOP _, has_R_PLS_CTL_DONE _, has_R_PLS_CTL_REFUSED _, has_R_PLS_CTL_STATUS _⟩

theorem has_Reg_PTP_INST_CFG (n : Nat) : ∀ f ∈ (Reg.PTP_INST_CFG n).fields, Block.has .ptp f.key = true := by
  simp only [Reg.PTP_INST_CFG, List.forall_mem_cons, List.not_mem_nil, false_implies, implies_true, and_true]
  exact ⟨has_R_PTP_INST_CFG_EN _, has_R_PTP_INST_CFG_PROFILE _, has_R_PTP_INST_CFG_TRANSPORT _, has_R_PTP_INST_CFG_ROLE _, has_R_PTP_INST_CFG_ONESTEP _, has_R_PTP_INST_CFG_DOMAIN _, has_R_PTP_INST_CFG_MCAST _, has_R_PTP_INST_CFG_UCAST _, has_R_PTP_INST_CFG_DOM_SLOT _, has_R_PTP_INST_CFG_L2_ADDR _, has_R_PTP_INST_CFG_SVC _, has_R_PTP_INST_CFG_V2008 _⟩

theorem has_Reg_PTP_INST_PEER (n : Nat) : ∀ f ∈ (Reg.PTP_INST_PEER n).fields, Block.has .ptp f.key = true := by
  simp only [Reg.PTP_INST_PEER, List.forall_mem_cons, List.not_mem_nil, false_implies, implies_true, and_true]
  exact has_R_PTP_INST_PEER_ADDR _

theorem has_Reg_PTP_INST_PHASE (n : Nat) : ∀ f ∈ (Reg.PTP_INST_PHASE n).fields, Block.has .ptp f.key = true := by
  simp only [Reg.PTP_INST_PHASE, List.forall_mem_cons, List.not_mem_nil, false_implies, implies_true, and_true]
  exact has_R_PTP_INST_PHASE_PHASE _

theorem has_Reg_PTP_INST_RATE (n : Nat) : ∀ f ∈ (Reg.PTP_INST_RATE n).fields, Block.has .ptp f.key = true := by
  simp only [Reg.PTP_INST_RATE, List.forall_mem_cons, List.not_mem_nil, false_implies, implies_true, and_true]
  exact ⟨has_R_PTP_INST_RATE_LOG_SYNC _, has_R_PTP_INST_RATE_LOG_ANN _, has_R_PTP_INST_RATE_LOG_DREQ _, has_R_PTP_INST_RATE_ANN_TO _⟩

theorem has_Reg_PTP_INST_UP (n : Nat) : ∀ f ∈ (Reg.PTP_INST_UP n).fields, Block.has .ptp f.key = true := by
  simp only [Reg.PTP_INST_UP, List.forall_mem_cons, List.not_mem_nil, false_implies, implies_true, and_true]
  exact ⟨has_R_PTP_INST_UP_QUAL_CLASS _, has_R_PTP_INST_UP_LOCAL_PRIO _, has_R_PTP_INST_UP_REQ_DUR _⟩

theorem has_Reg_RFM_CFG (n : Nat) : ∀ f ∈ (Reg.RFM_CFG n).fields, Block.has .rfm f.key = true := by
  simp only [Reg.RFM_CFG, List.forall_mem_cons, List.not_mem_nil, false_implies, implies_true, and_true]
  exact ⟨has_R_RFM_CFG_PARK _, has_R_RFM_CFG_EFC_MODE _, has_R_RFM_CFG_CLK _⟩

theorem has_Reg_RFM_HOURS_CMD (n : Nat) : ∀ f ∈ (Reg.RFM_HOURS_CMD n).fields, Block.has .rfm f.key = true := by
  simp only [Reg.RFM_HOURS_CMD, List.forall_mem_cons, List.not_mem_nil, false_implies, implies_true, and_true]
  exact ⟨has_R_RFM_HOURS_CMD_GO _, has_R_RFM_HOURS_CMD_DONE _, has_R_RFM_HOURS_CMD_REFUSED _⟩

theorem has_Reg_TIM_CH_CFG (n : Nat) : ∀ f ∈ (Reg.TIM_CH_CFG n).fields, Block.has .tim f.key = true := by
  simp only [Reg.TIM_CH_CFG, List.forall_mem_cons, List.not_mem_nil, false_implies, implies_true, and_true]
  exact ⟨has_R_TIM_CH_CFG_MODE _, has_R_TIM_CH_CFG_EDGE _, has_R_TIM_CH_CFG_GATED _, has_R_TIM_CH_CFG_STOP_SELF _, has_R_TIM_CH_CFG_PRESCALE _, has_R_TIM_CH_CFG_CONT _⟩

theorem has_Reg_TIM_CTL : ∀ f ∈ Reg.TIM_CTL.fields, Block.has .tim f.key = true := by decide

theorem has_Reg_TSC_CTL : ∀ f ∈ Reg.TSC_CTL.fields, Block.has .tsc f.key = true := by decide

theorem has_Reg_TSC_INCR_CTL (n : Nat) : ∀ f ∈ (Reg.TSC_INCR_CTL n).fields, Block.has .tsc f.key = true := by
  simp only [Reg.TSC_INCR_CTL, List.forall_mem_cons, List.not_mem_nil, false_implies, implies_true, and_true]
  exact ⟨has_R_TSC_INCR_CTL_APPLY _, has_R_TSC_INCR_CTL_REJECTED _, has_R_TSC_INCR_CTL_IGNORED _⟩

theorem has_Reg_TSC_LEAP_CTL : ∀ f ∈ Reg.TSC_LEAP_CTL.fields, Block.has .tsc f.key = true := by decide

theorem has_Reg_TSC_LEAP_UTC_HI : ∀ f ∈ Reg.TSC_LEAP_UTC_HI.fields, Block.has .tsc f.key = true := by decide

theorem has_Reg_TSC_LEAP_UTC_LO : ∀ f ∈ Reg.TSC_LEAP_UTC_LO.fields, Block.has .tsc f.key = true := by decide

theorem has_Reg_TSC_SLEW_CTL (n : Nat) : ∀ f ∈ (Reg.TSC_SLEW_CTL n).fields, Block.has .tsc f.key = true := by
  simp only [Reg.TSC_SLEW_CTL, List.forall_mem_cons, List.not_mem_nil, false_implies, implies_true, and_true]
  exact ⟨has_R_TSC_SLEW_CTL_GO _, has_R_TSC_SLEW_CTL_ABORT _, has_R_TSC_SLEW_CTL_ACTIVE _, has_R_TSC_SLEW_CTL_DONE _, has_R_TSC_SLEW_CTL_ABORTED _, has_R_TSC_SLEW_CTL_REJECTED _, has_R_TSC_SLEW_CTL_IGNORED _⟩

theorem has_Reg_TSC_STEP_CTL (n : Nat) : ∀ f ∈ (Reg.TSC_STEP_CTL n).fields, Block.has .tsc f.key = true := by
  simp only [Reg.TSC_STEP_CTL, List.forall_mem_cons, List.not_mem_nil, false_implies, implies_true, and_true]
  exact ⟨has_R_TSC_STEP_CTL_GO _, has_R_TSC_STEP_CTL_MODE _, has_R_TSC_STEP_CTL_NEG _, has_R_TSC_STEP_CTL_PENDING _, has_R_TSC_STEP_CTL_DONE _, has_R_TSC_STEP_CTL_DENIED _⟩

theorem has_Reg_TSC_SWITCH_CTL : ∀ f ∈ Reg.TSC_SWITCH_CTL.fields, Block.has .tsc f.key = true := by decide

theorem has_Reg_TSC_UTC_OFS : ∀ f ∈ Reg.TSC_UTC_OFS.fields, Block.has .tsc f.key = true := by decide

theorem has_Evt_cfg : Block.has .pwr Evt.cfg.ev.key = true := by decide

theorem has_Evt_ens : Block.has .ens Evt.ens.ev.key = true := by decide

theorem has_Evt_gns : Block.has .gns Evt.gns.ev.key = true := by decide

theorem has_Evt_hrg (n : Nat) : Block.has .ring (Evt.hrg n).ev.key = true := has_R_HRG_EVT_BITS n

theorem has_Evt_laneCoast : Block.has .dev Evt.laneCoast.ev.key = true := by decide

theorem has_Evt_laneFault : Block.has .dev Evt.laneFault.ev.key = true := by decide

theorem has_Evt_mac (n : Nat) : Block.has .mac (Evt.mac n).ev.key = true := has_R_MAC_EVT_BITS n

theorem has_Evt_mbx (n : Nat) : Block.has .mbx (Evt.mbx n).ev.key = true := has_R_MBX_EVT_BITS n

theorem has_Evt_mor : Block.has .mor Evt.mor.ev.key = true := by decide

theorem has_Evt_ntp (n : Nat) : Block.has .ntp (Evt.ntp n).ev.key = true := has_R_NTP_EVT_BITS n

theorem has_Evt_nts (n : Nat) : Block.has .nts (Evt.nts n).ev.key = true := has_R_NTS_EVT_BITS n

theorem has_Evt_pls : Block.has .tim Evt.pls.ev.key = true := by decide

theorem has_Evt_ptp (n : Nat) : Block.has .ptp (Evt.ptp n).ev.key = true := has_R_PTP_EVT_BITS n

theorem has_Evt_pwr : Block.has .pwr Evt.pwr.ev.key = true := by decide

theorem has_Evt_rfm : Block.has .rfm Evt.rfm.ev.key = true := by decide

theorem has_Evt_tim : Block.has .tim Evt.tim.ev.key = true := by decide

theorem has_Evt_wch : Block.has .wch Evt.wch.ev.key = true := by decide

theorem has_pendField (b : Bank) : Block.has .ens (pendField b).key = true := by cases b <;> decide

theorem has_engField (b : Bank) : Block.has .ens (engField b).key = true := by cases b <;> decide

theorem has_upField (n : Nat) : Block.has .dev (upField n).key = true := by unfold upField; split <;> decide

theorem has_parkedField (n : Nat) : Block.has .pwr (parkedField n).key = true := by unfold parkedField; split <;> decide

end Sys2Proof.Machine
end

