-- ==== Sys2Proof/Laws/Field.lean ====
section
/-! SUPPORT. Bits of a written word. -/

namespace Sys2Proof.Machine

/-- A word with a one-bit field set carries a 1 for it. -/
theorem Field.of_setIn (f : Field) (w : Nat) (h : f.width = 1) : f.of (f.setIn w) = 1 := by
  unfold Field.of Field.setIn
  rw [h]
  split
  · assumption
  · rw [Nat.add_div_right _ (Nat.two_pow_pos _)]; omega

/-- A word with a one-bit field cleared carries a 0 for it. -/
theorem Field.of_clearIn (f : Field) (w : Nat) (h : f.width = 1) : f.of (f.clearIn w) = 0 := by
  unfold Field.of Field.clearIn
  rw [h]
  have hp := Nat.two_pow_pos f.lsb
  split
  · next hb =>
    have : 2 ^ f.lsb ≤ w := by
      by_contra hlt
      rw [Nat.div_eq_of_lt (by omega)] at hb
      omega
    have e : w = (w - 2 ^ f.lsb) + 2 ^ f.lsb := by omega
    rw [e, Nat.add_div_right _ hp] at hb
    omega
  · omega

end Sys2Proof.Machine
end

