-- ==== Sys2Proof/Laws/Map.lean ====
section
/-! SUPPORT. Sparse tables: a read after a write, and the canonical form is kept by every operation; the register file and the addressed
buffers inherit both. -/

namespace Sys2Proof.Machine

variable {α : Type}

@[simp] theorem IMap.get_erase_same (d : α) (m : IMap α) (k : Nat) : IMap.get d (IMap.erase m k) k = d := by
  induction m with
  | nil => rfl
  | cons p m ih =>
    obtain ⟨k', v⟩ := p
    by_cases h : k = k' <;> simp [IMap.erase, IMap.get, h]
    · simpa [h] using ih
    · simpa using ih

theorem IMap.get_erase_ne (d : α) (m : IMap α) {k j : Nat} (h : j ≠ k) : IMap.get d (IMap.erase m k) j = IMap.get d m j := by
  induction m with
  | nil => rfl
  | cons p m ih =>
    obtain ⟨k', v⟩ := p
    by_cases hk : k = k'
    · subst hk; simp [IMap.erase, IMap.get, h, ih]
    · by_cases hj : j = k' <;> simp [IMap.erase, IMap.get, hk, hj, ih]

@[simp] theorem IMap.get_insert_same (d : α) (m : IMap α) (k : Nat) (v : α) : IMap.get d (IMap.insert m k v) k = v := by
  induction m with
  | nil => simp [IMap.insert, IMap.get]
  | cons p m ih =>
    obtain ⟨k', v'⟩ := p
    by_cases h1 : k < k'
    · simp [IMap.insert, IMap.get, h1]
    · by_cases h2 : k = k'
      · subst h2; simp [IMap.insert, IMap.get]
      · simp [IMap.insert, IMap.get, h1, h2, ih]

theorem IMap.get_insert_ne (d : α) (m : IMap α) {k j : Nat} (v : α) (h : j ≠ k) :
    IMap.get d (IMap.insert m k v) j = IMap.get d m j := by
  induction m with
  | nil => simp [IMap.insert, IMap.get, h]
  | cons p m ih =>
    obtain ⟨k', v'⟩ := p
    by_cases h1 : k < k'
    · simp [IMap.insert, IMap.get, h1, h]
    · by_cases h2 : k = k'
      · subst h2; simp [IMap.insert, IMap.get, h]
      · by_cases hj : j = k' <;> simp [IMap.insert, IMap.get, h1, h2, hj, ih]

variable [DecidableEq α]

@[simp] theorem IMap.get_put_same (d : α) (m : IMap α) (k : Nat) (v : α) : IMap.get d (IMap.put d m k v) k = v := by
  by_cases h : v = d <;> simp [IMap.put, h]

theorem IMap.get_put_ne (d : α) (m : IMap α) {k j : Nat} (v : α) (h : j ≠ k) : IMap.get d (IMap.put d m k v) j = IMap.get d m j := by
  by_cases hv : v = d
  · simp [IMap.put, hv, IMap.get_erase_ne d m h]
  · simp [IMap.put, hv, IMap.get_insert_ne d m v h]

@[simp] theorem IMap.get_upd_same (d : α) (m : IMap α) (k : Nat) (f : α → α) :
    IMap.get d (IMap.upd d m k f) k = f (IMap.get d m k) := by simp [IMap.upd]

theorem IMap.get_upd_ne (d : α) (m : IMap α) {k j : Nat} (f : α → α) (h : j ≠ k) :
    IMap.get d (IMap.upd d m k f) j = IMap.get d m j := by simp [IMap.upd, IMap.get_put_ne d m _ h]

theorem IMap.wfFrom_mono {d : α} {m : IMap α} {a b : Nat} (h : a ≤ b) (hm : IMap.wfFrom d b m = true) : IMap.wfFrom d a m = true := by
  cases m with
  | nil => rfl
  | cons p m =>
    obtain ⟨k, v⟩ := p
    simp [IMap.wfFrom] at hm ⊢
    exact ⟨by omega, hm.2⟩

theorem IMap.wfFrom_erase {d : α} {m : IMap α} {a : Nat} (k : Nat) (h : IMap.wfFrom d a m = true) :
    IMap.wfFrom d a (IMap.erase m k) = true := by
  induction m generalizing a with
  | nil => rfl
  | cons p m ih =>
    obtain ⟨k', v⟩ := p
    simp [IMap.wfFrom] at h
    by_cases hk : k = k'
    · simp [IMap.erase, hk]
      have := ih (a := k' + 1) h.2.2
      rw [hk] at this
      exact IMap.wfFrom_mono (by omega) this
    · simp [IMap.erase, hk, IMap.wfFrom, h.1, h.2.1, ih h.2.2]

theorem IMap.wfFrom_insert {d : α} {m : IMap α} {a k : Nat} {v : α} (hv : v ≠ d) (hk : a ≤ k) (h : IMap.wfFrom d a m = true) :
    IMap.wfFrom d a (IMap.insert m k v) = true := by
  induction m generalizing a with
  | nil => simp [IMap.insert, IMap.wfFrom, hv, hk]
  | cons p m ih =>
    obtain ⟨k', v'⟩ := p
    simp [IMap.wfFrom] at h
    by_cases h1 : k < k'
    · simp [IMap.insert, IMap.wfFrom, h1, hv, hk, h.2.1, h.2.2]
    · by_cases h2 : k = k'
      · subst h2; simp [IMap.insert, IMap.wfFrom, hv, hk, h.2.2]
      · simp [IMap.insert, IMap.wfFrom, h1, h2, h.1, h.2.1, ih (a := k' + 1) (by omega) h.2.2]

theorem IMap.wfFrom_put {d : α} {m : IMap α} {a k : Nat} (v : α) (hk : a ≤ k) (h : IMap.wfFrom d a m = true) :
    IMap.wfFrom d a (IMap.put d m k v) = true := by
  by_cases hv : v = d
  · simp [IMap.put, hv, IMap.wfFrom_erase k h]
  · simp [IMap.put, hv, IMap.wfFrom_insert hv hk h]

theorem IMap.wf_put {d : α} {m : IMap α} (k : Nat) (v : α) (h : IMap.wf d m = true) : IMap.wf d (IMap.put d m k v) = true :=
  IMap.wfFrom_put v (Nat.zero_le k) h

theorem IMap.wfFrom_filter {d : α} {m : IMap α} {a : Nat} (p : Nat × α → Bool) (h : IMap.wfFrom d a m = true) :
    IMap.wfFrom d a (m.filter p) = true := by
  induction m generalizing a with
  | nil => rfl
  | cons q m ih =>
    obtain ⟨k', v⟩ := q
    simp [IMap.wfFrom] at h
    by_cases hp : p (k', v) = true
    · simp [hp, IMap.wfFrom, h.1, h.2.1, ih h.2.2]
    · simp [hp]
      exact IMap.wfFrom_mono (by omega) (ih h.2.2)

/-! ### The register file -/

@[simp] theorem RegFile.get_set_same (m : RegFile) (f : Field) (v : Nat) : RegFile.get (RegFile.set m f v) f = v % 2 ^ f.width := by
  simp [RegFile.get, RegFile.set]

theorem RegFile.get_set_ne (m : RegFile) {f g : Field} (v : Nat) (h : g.key ≠ f.key) :
    RegFile.get (RegFile.set m f v) g = RegFile.get m g := by
  simp [RegFile.get, RegFile.set, IMap.get_put_ne _ _ _ h]

theorem RegFile.wf_set {m : RegFile} (f : Field) (v : Nat) (h : IMap.wf 0 m = true) : IMap.wf 0 (RegFile.set m f v) = true :=
  IMap.wf_put _ _ h

/-! ### The addressed buffers -/

@[simp] theorem readByte_writeByte_same (m : List Host.Cell) (a : Nat) (v : Byte) : readByte (writeByte m a v) a = v := by
  simp [readByte, writeByte]

theorem readByte_writeByte_ne (m : List Host.Cell) {a b : Nat} (v : Byte) (h : b ≠ a) :
    readByte (writeByte m a v) b = readByte m b := IMap.get_put_ne _ _ _ h

theorem Memory.wf_writeByte {m : List Host.Cell} (a : Nat) (v : Byte) (h : Memory.wf m = true) : Memory.wf (writeByte m a v) = true :=
  IMap.wf_put _ _ h

theorem Memory.wf_writeBytes {m : List Host.Cell} (a : Nat) (bs : List Nat) (h : Memory.wf m = true) :
    Memory.wf (writeBytes m a bs) = true := by
  have key : ∀ (l : List (Nat × Nat)) (m : List Host.Cell), Memory.wf m = true →
      Memory.wf (l.foldl (fun m b => writeByte m (a + b.2) (BitVec.ofNat 8 b.1)) m) = true := by
    intro l
    induction l with
    | nil => exact fun _ hm => hm
    | cons x l ih => exact fun m hm => ih _ (Memory.wf_writeByte _ _ hm)
  exact key _ _ h

end Sys2Proof.Machine
end

