-- ==== Sys2Proof/Laws/Touches.lean ====
section
/-! SUPPORT. What a change of the state touches: how the relation composes, and what each update of the state record and of the
registers touches. -/

namespace Sys2Proof.Machine

theorem Touches.refl (ps : List Part) (s : State) : Touches ps s s :=
  ⟨fun p _ => by cases p <;> first | rfl | exact fun _ => rfl | exact fun _ _ _ => rfl, id⟩

theorem Touches.trans {ps : List Part} {s t u : State} (h : Touches ps s t) (k : Touches ps t u) : Touches ps s u :=
  ⟨fun p hp => by
      have h1 := h.1 p hp
      have h2 := k.1 p hp
      cases p <;> first
        | exact h2.trans h1
        | exact fun a => (h2 a).trans (h1 a)
        | exact fun f a b => (h2 f a b).trans (h1 f a b),
    fun f => k.2 (h.2 f)⟩

theorem Touches.mono {ps qs : List Part} {s t : State} (h : Touches ps s t) (hs : ∀ p ∈ ps, p ∈ qs) : Touches qs s t :=
  ⟨fun p hp => h.1 p (fun hq => hp (hs p hq)), h.2⟩

theorem touches_ite {ps : List Part} {s₀ a b : State} {c : Prop} [Decidable c] (ha : Touches ps s₀ a) (hb : Touches ps s₀ b) :
    Touches ps s₀ (if c then a else b) := by split <;> assumption

theorem touches_State_when {ps : List Part} {s₀ s : State} {c : Bool} {f : State → State} (h : Touches ps s₀ s)
    (hf : ∀ s, Touches ps s₀ s → Touches ps s₀ (f s)) : Touches ps s₀ (s.when c f) := by
  unfold State.when; split
  · exact hf s h
  · exact h

theorem touches_foldl {α : Type} {ps : List Part} {s₀ s : State} {f : State → α → State} {l : List α} (h : Touches ps s₀ s)
    (hf : ∀ s x, Touches ps s₀ s → Touches ps s₀ (f s x)) : Touches ps s₀ (l.foldl f s) := by
  induction l generalizing s with
  | nil => exact h
  | cons x l ih => exact ih (hf s x h)

theorem touches_foldl_mem {α : Type} {ps : List Part} {s₀ s : State} {f : State → α → State} {l : List α} (h : Touches ps s₀ s)
    (hf : ∀ s x, x ∈ l → Touches ps s₀ s → Touches ps s₀ (f s x)) : Touches ps s₀ (l.foldl f s) := by
  induction l generalizing s with
  | nil => exact h
  | cons x l ih =>
    exact ih (hf s x List.mem_cons_self h) (fun s y hy => hf s y (List.mem_cons_of_mem _ hy))

theorem touches_foldl_fst {α β : Type} {ps : List Part} {s₀ : State} {f : State × β → α → State × β} {p : State × β} {l : List α}
    (h : Touches ps s₀ p.1) (hf : ∀ p x, Touches ps s₀ p.1 → Touches ps s₀ (f p x).1) : Touches ps s₀ (l.foldl f p).1 := by
  induction l generalizing p with
  | nil => exact h
  | cons x l ih => exact ih (hf p x h)

theorem touches_of_fst {β : Type} {ps : List Part} {s₀ s : State} {p : State × β} {b : β} (e : p = (s, b)) (h : Touches ps s₀ p.1) :
    Touches ps s₀ s := by subst e; exact h

theorem touches_of_snd {β : Type} {ps : List Part} {s₀ s : State} {p : β × State} {b : β} (e : p = (b, s)) (h : Touches ps s₀ p.2) :
    Touches ps s₀ s := by subst e; exact h

/-- An update that may be absent touches no part beside those named. -/
def TouchesSome (ps : List Part) (o : Option (State → State)) : Prop :=
  ∀ f, o = some f → ∀ s₀ s, Touches ps s₀ s → Touches ps s₀ (f s)

theorem touchesSome_none (ps : List Part) : TouchesSome ps none := fun _ e => by cases e

theorem touchesSome_some {ps : List Part} {f : State → State} (h : ∀ s₀ s, Touches ps s₀ s → Touches ps s₀ (f s)) :
    TouchesSome ps (some f) := fun _ e => by cases e; exact h

theorem touchesSome_ite {ps : List Part} {a b : Option (State → State)} {c : Prop} [Decidable c] (ha : TouchesSome ps a)
    (hb : TouchesSome ps b) : TouchesSome ps (if c then a else b) := by split <;> assumption

theorem touchesSome_map {α : Type} {ps : List Part} {o : Option α} {g : α → State → State}
    (h : ∀ x s₀ s, Touches ps s₀ s → Touches ps s₀ (g x s)) : TouchesSome ps (o.map g) := by
  cases o with
  | none => exact touchesSome_none ps
  | some x => exact touchesSome_some (h x)

theorem touchesSome_or {ps : List Part} {a b : Option (State → State)} (ha : TouchesSome ps a) (hb : TouchesSome ps b) :
    TouchesSome ps (a.or b) := by cases a <;> assumption

theorem touches_of_some {ps : List Part} {s₀ s : State} {o : Option (State → State)} {f : State → State} (e : o = some f)
    (ho : TouchesSome ps o) (h : Touches ps s₀ s) : Touches ps s₀ (f s) := ho f e s₀ s h

/-! ### Registers -/

/-- No key is of two blocks. -/
theorem Block.disjoint {a b : Block} {k : Nat} (ha : a.has k = true) (hb : b.has k = true) : a = b := by
  cases a <;> cases b <;> first | rfl | (simp only [Block.has, inWindow, decide_eq_true_eq] at ha hb; omega)

theorem touches_State_wr {ps : List Part} {s₀ s : State} {b : Block} {f : Field} {v : Nat} (hb : b.has f.key = true)
    (hr : Part.regs b ∈ ps) (h : Touches ps s₀ s) : Touches ps s₀ (s.wr f v) :=
  ⟨fun p hp => by
      have := h.1 p hp
      cases p <;> first
        | exact this
        | (rename_i c
           intro g hg hs
           refine (RegFile.get_set_ne _ _ fun e => hp ?_).trans (this g hg hs)
           rw [e] at hg
           rw [Block.disjoint hg hb]
           exact hr),
    fun k => ⟨RegFile.wf_set _ _ (h.2 k).1, (h.2 k).2⟩⟩

theorem touches_wr_side {ps : List Part} {s₀ s : State} {f : Field} {v : Nat} (hf : sideKey f.key = true) (h : Touches ps s₀ s) :
    Touches ps s₀ (s.wr f v) :=
  ⟨fun p hp => by
      have := h.1 p hp
      cases p <;> first
        | exact this
        | (intro g hg hs
           refine (RegFile.get_set_ne _ _ fun e => ?_).trans (this g hg hs)
           rw [Field.side, e, hf] at hs
           cases hs),
    fun k => ⟨RegFile.wf_set _ _ (h.2 k).1, (h.2 k).2⟩⟩

theorem touches_lo_side {ps : List Part} {s₀ s : State} {f : Field} (hf : sideKey f.key = true) (h : Touches ps s₀ s) :
    Touches ps s₀ (s.lo f) := touches_wr_side hf h

theorem touches_wr_all {ps : List Part} {s₀ s : State} {f : Field} {v : Nat} (hall : ∀ b, Part.regs b ∈ ps) (h : Touches ps s₀ s) :
    Touches ps s₀ (s.wr f v) :=
  ⟨fun p hp => by
      have := h.1 p hp
      cases p <;> first | exact this | exact absurd (hall _) hp,
    fun k => ⟨RegFile.wf_set _ _ (h.2 k).1, (h.2 k).2⟩⟩

theorem touches_State_hi {ps : List Part} {s₀ s : State} {b : Block} {f : Field} (hb : b.has f.key = true) (hr : Part.regs b ∈ ps)
    (h : Touches ps s₀ s) : Touches ps s₀ (s.hi f) := touches_State_wr hb hr h

theorem touches_State_lo {ps : List Part} {s₀ s : State} {b : Block} {f : Field} (hb : b.has f.key = true) (hr : Part.regs b ∈ ps)
    (h : Touches ps s₀ s) : Touches ps s₀ (s.lo f) := touches_State_wr hb hr h

theorem touches_State_storeReg {ps : List Part} {s₀ s : State} {b : Block} {l : Bool} {r : Register} {w : Nat}
    (hb : ∀ f ∈ r.fields, b.has f.key = true) (hr : Part.regs b ∈ ps) (h : Touches ps s₀ s) : Touches ps s₀ (s.storeReg l r w) := by
  unfold State.storeReg
  refine touches_foldl_mem h (fun s f hf h => ?_)
  unfold State.storeField
  repeat' first
    | exact h
    | exact touches_State_wr (hb f hf) hr h
    | split

theorem touches_storeReg_all {ps : List Part} {s₀ s : State} {l : Bool} {r : Register} {w : Nat} (hall : ∀ b, Part.regs b ∈ ps)
    (h : Touches ps s₀ s) : Touches ps s₀ (s.storeReg l r w) := by
  unfold State.storeReg
  refine touches_foldl h (fun s f h => ?_)
  unfold State.storeField
  repeat' first
    | exact h
    | exact touches_wr_all hall h
    | split

theorem touches_clearRc_all {ps : List Part} {s₀ s : State} {r : Register} (hall : ∀ b, Part.regs b ∈ ps)
    (h : Touches ps s₀ s) : Touches ps s₀ (s.clearRc r) :=
  touches_foldl h (fun _ _ h => touches_ite (touches_wr_all hall h) h)

theorem touches_set_out {ps : List Part} {s₀ s : State} {x : List Output} (h : Touches ps s₀ s) : Touches ps s₀ { s with out := x } :=
  ⟨fun p hp => by have := h.1 p hp; cases p <;> exact this, h.2⟩

theorem touches_State_emit {ps : List Part} {s₀ s : State} {o : Output} (h : Touches ps s₀ s) : Touches ps s₀ (s.emit o) :=
  touches_set_out h

theorem sideKey_pba (k : Nat) : sideKey (R.MSIX_PBA_P k).key = true := by
  simp only [sideKey, R.MSIX_PBA_P, Field.mk', Bool.or_eq_true, decide_eq_true_eq, List.mem_cons, List.not_mem_nil]
  omega

theorem sideKey_ovf (k : Nat) : sideKey (R.PCT_OVF_OVF k).key = true := by
  simp [sideKey, R.PCT_OVF_OVF, Field.mk']
  omega

theorem touches_State_post {ps : List Part} {s₀ s : State} {fn vec : Nat} (h : Touches ps s₀ s) : Touches ps s₀ (s.post fn vec) := by
  unfold State.post
  exact touches_ite (touches_wr_side (sideKey_pba _) h) (touches_State_emit h)

theorem touches_State_msi {ps : List Part} {s₀ s : State} {fn vec : Nat} (h : Touches ps s₀ s) : Touches ps s₀ (s.msi fn vec) := by
  unfold State.msi
  exact touches_ite h (touches_State_post h)

theorem touches_State_unmasked {ps : List Part} {s₀ s : State} {fn vec : Nat} (h : Touches ps s₀ s) :
    Touches ps s₀ (s.unmasked fn vec) := by
  unfold State.unmasked
  exact touches_ite (touches_State_emit (touches_wr_side (sideKey_pba _) h)) h

theorem touches_State_raise {ps : List Part} {s₀ s : State} {b : Block} {e : EvtSrc} {m : Nat} (hb : b.has e.ev.key = true)
    (hr : Part.regs b ∈ ps) (h : Touches ps s₀ s) : Touches ps s₀ (s.raise e m) := by
  unfold State.raise
  exact touches_ite (touches_State_msi (touches_State_wr hb hr h)) (touches_State_wr hb hr h)

theorem touches_raise_side {ps : List Part} {s₀ s : State} {e : EvtSrc} {m : Nat} (hf : sideKey e.ev.key = true)
    (h : Touches ps s₀ s) : Touches ps s₀ (s.raise e m) := by
  unfold State.raise
  exact touches_ite (touches_State_msi (touches_wr_side hf h)) (touches_wr_side hf h)

theorem touches_enableEvt_all {ps : List Part} {s₀ s : State} {e : EvtSrc} {v : Nat} (hall : ∀ b, Part.regs b ∈ ps)
    (h : Touches ps s₀ s) : Touches ps s₀ (s.enableEvt e v) := by
  unfold State.enableEvt
  split
  · exact h
  · exact touches_ite (touches_State_msi (touches_wr_all hall h)) (touches_wr_all hall h)

/-! ### Updates of the record -/

theorem touches_set_gnss {ps : List Part} {s₀ s : State} {x0} (hgnss : Part.gnss ∈ ps) (h : Touches ps s₀ s) :
    Touches ps s₀ { s with gnss := x0 } :=
  ⟨fun p hp => by have := h.1 p hp; cases p <;> first | exact this | contradiction, h.2⟩

theorem touches_writeMem {ps : List Part} {s₀ s : State} {x : Nat} {l : List Nat} (hmem : Part.mem ∈ ps) (h : Touches ps s₀ s) :
    Touches ps s₀ { s with mem := writeBytes s.mem x l } :=
  ⟨fun p hp => by have := h.1 p hp; cases p <;> first | exact this | contradiction,
    fun k => ⟨(h.2 k).1, Memory.wf_writeBytes _ _ (h.2 k).2⟩⟩

theorem touches_set_pct {ps : List Part} {s₀ s : State} {x0} (h : Touches ps s₀ s) :
    Touches ps s₀ { s with pct := x0 } :=
  ⟨fun p hp => by have := h.1 p hp; cases p <;> exact this, h.2⟩

theorem touches_set_rfm {ps : List Part} {s₀ s : State} {x0} (hrfm : Part.rfm ∈ ps) (h : Touches ps s₀ s) :
    Touches ps s₀ { s with rfm := x0 } :=
  ⟨fun p hp => by have := h.1 p hp; cases p <;> first | exact this | contradiction, h.2⟩

theorem touches_set_pcie {ps : List Part} {s₀ s : State} {x0} (hpcie : Part.pcie ∈ ps) (h : Touches ps s₀ s) :
    Touches ps s₀ { s with pcie := x0 } :=
  ⟨fun p hp => by have := h.1 p hp; cases p <;> first | exact this | contradiction, h.2⟩

theorem touches_set_rings {ps : List Part} {s₀ s : State} {x0} (hrings : Part.rings ∈ ps) (h : Touches ps s₀ s) :
    Touches ps s₀ { s with rings := x0 } :=
  ⟨fun p hp => by have := h.1 p hp; cases p <;> first | exact this | contradiction, h.2⟩

theorem touches_set_cfg {ps : List Part} {s₀ s : State} {x0} (hcfg : Part.cfg ∈ ps) (h : Touches ps s₀ s) :
    Touches ps s₀ { s with cfg := x0 } :=
  ⟨fun p hp => by have := h.1 p hp; cases p <;> first | exact this | contradiction, h.2⟩

theorem touches_set_stack {ps : List Part} {s₀ s : State} {x0} (hstack : Part.stack ∈ ps) (h : Touches ps s₀ s) :
    Touches ps s₀ { s with stack := x0 } :=
  ⟨fun p hp => by have := h.1 p hp; cases p <;> first | exact this | contradiction, h.2⟩

theorem touches_set_cycle {ps : List Part} {s₀ s : State} {x0} (h : Touches ps s₀ s) :
    Touches ps s₀ { s with cycle := x0 } :=
  ⟨fun p hp => by have := h.1 p hp; cases p <;> exact this, h.2⟩

theorem touches_set_tick {ps : List Part} {s₀ s : State} {x0} (htick : Part.tick ∈ ps) (h : Touches ps s₀ s) :
    Touches ps s₀ { s with tick := x0 } :=
  ⟨fun p hp => by have := h.1 p hp; cases p <;> first | exact this | contradiction, h.2⟩

theorem touches_set_rst {ps : List Part} {s₀ s : State} {x0} (hrst : Part.rst ∈ ps) (h : Touches ps s₀ s) :
    Touches ps s₀ { s with rst := x0 } :=
  ⟨fun p hp => by have := h.1 p hp; cases p <;> first | exact this | contradiction, h.2⟩

theorem touches_set_srv {ps : List Part} {s₀ s : State} {x0} (hsrv : Part.srv ∈ ps) (h : Touches ps s₀ s) :
    Touches ps s₀ { s with srv := x0 } :=
  ⟨fun p hp => by have := h.1 p hp; cases p <;> first | exact this | contradiction, h.2⟩

theorem touches_set_power {ps : List Part} {s₀ s : State} {x0} (hpower : Part.power ∈ ps) (h : Touches ps s₀ s) :
    Touches ps s₀ { s with power := x0 } :=
  ⟨fun p hp => by have := h.1 p hp; cases p <;> first | exact this | contradiction, h.2⟩

theorem touches_set_log {ps : List Part} {s₀ s : State} {x0} (hlog : Part.log ∈ ps) (h : Touches ps s₀ s) :
    Touches ps s₀ { s with log := x0 } :=
  ⟨fun p hp => by have := h.1 p hp; cases p <;> first | exact this | contradiction, h.2⟩

theorem touches_set_fw {ps : List Part} {s₀ s : State} {x0} (hfw : Part.fw ∈ ps) (h : Touches ps s₀ s) :
    Touches ps s₀ { s with fw := x0 } :=
  ⟨fun p hp => by have := h.1 p hp; cases p <;> first | exact this | contradiction, h.2⟩

theorem touches_set_lanes {ps : List Part} {s₀ s : State} {x0} (hlanes : Part.lanes ∈ ps) (h : Touches ps s₀ s) :
    Touches ps s₀ { s with lanes := x0 } :=
  ⟨fun p hp => by have := h.1 p hp; cases p <;> first | exact this | contradiction, h.2⟩

theorem touches_set_mbx {ps : List Part} {s₀ s : State} {x0} (hmbx : Part.mbx ∈ ps) (h : Touches ps s₀ s) :
    Touches ps s₀ { s with mbx := x0 } :=
  ⟨fun p hp => by have := h.1 p hp; cases p <;> first | exact this | contradiction, h.2⟩

theorem touches_set_ens {ps : List Part} {s₀ s : State} {x0} (hens : Part.ens ∈ ps) (h : Touches ps s₀ s) :
    Touches ps s₀ { s with ens := x0 } :=
  ⟨fun p hp => by have := h.1 p hp; cases p <;> first | exact this | contradiction, h.2⟩

theorem touches_set_tim {ps : List Part} {s₀ s : State} {x0} (htim : Part.tim ∈ ps) (h : Touches ps s₀ s) :
    Touches ps s₀ { s with tim := x0 } :=
  ⟨fun p hp => by have := h.1 p hp; cases p <;> first | exact this | contradiction, h.2⟩

theorem touches_set_watch {ps : List Part} {s₀ s : State} {x0} (hwatch : Part.watch ∈ ps) (h : Touches ps s₀ s) :
    Touches ps s₀ { s with watch := x0 } :=
  ⟨fun p hp => by have := h.1 p hp; cases p <;> first | exact this | contradiction, h.2⟩

theorem touches_set_rings_fw {ps : List Part} {s₀ s : State} {x0 x1} (hrings : Part.rings ∈ ps) (hfw : Part.fw ∈ ps) (h : Touches ps s₀ s) :
    Touches ps s₀ { s with rings := x0, fw := x1 } :=
  ⟨fun p hp => by have := h.1 p hp; cases p <;> first | exact this | contradiction, h.2⟩

theorem touches_set_tick_lanes {ps : List Part} {s₀ s : State} {x0 x1} (htick : Part.tick ∈ ps) (hlanes : Part.lanes ∈ ps) (h : Touches ps s₀ s) :
    Touches ps s₀ { s with tick := x0, lanes := x1 } :=
  ⟨fun p hp => by have := h.1 p hp; cases p <;> first | exact this | contradiction, h.2⟩

theorem touches_set_rst_fw {ps : List Part} {s₀ s : State} {x0 x1} (hrst : Part.rst ∈ ps) (hfw : Part.fw ∈ ps) (h : Touches ps s₀ s) :
    Touches ps s₀ { s with rst := x0, fw := x1 } :=
  ⟨fun p hp => by have := h.1 p hp; cases p <;> first | exact this | contradiction, h.2⟩

theorem touches_set_rst_cfg {ps : List Part} {s₀ s : State} {x0 x1} (hrst : Part.rst ∈ ps) (hcfg : Part.cfg ∈ ps) (h : Touches ps s₀ s) :
    Touches ps s₀ { s with rst := x0, cfg := x1 } :=
  ⟨fun p hp => by have := h.1 p hp; cases p <;> first | exact this | contradiction, h.2⟩

theorem touches_set_tick_ens_stack {ps : List Part} {s₀ s : State} {x0 x1 x2} (htick : Part.tick ∈ ps) (hens : Part.ens ∈ ps) (hstack : Part.stack ∈ ps) (h : Touches ps s₀ s) :
    Touches ps s₀ { s with tick := x0, ens := x1, stack := x2 } :=
  ⟨fun p hp => by have := h.1 p hp; cases p <;> first | exact this | contradiction, h.2⟩

end Sys2Proof.Machine
end

