-- ==== Sys2Proof/Laws/TouchesTick.lean ====
section
/-! SUPPORT. What the operations of the tick domain: counting, the passing of time, steering, steps, leaps touch: one lemma per operation. -/

namespace Sys2Proof.Machine

theorem touches_State_begin {ps : List Part} {s₀ : State} (s : State) (h : Touches ps s₀ s) :
    Touches ps s₀ (State.begin s) := by
  unfold State.begin
  with_reducible repeat' first
    | assumption
    | intro _
    | apply touches_ite
    | dsimp only
    | split
    | apply touches_set_cycle

theorem touches_State_modBank {ps : List Part} {s₀ : State} (s : State) (b : Bank) (f : TickBank → TickBank) (htick : Part.tick ∈ ps) (h : Touches ps s₀ s) :
    Touches ps s₀ (State.modBank s b f) := by
  unfold State.modBank
  with_reducible repeat' first
    | assumption
    | intro _
    | apply touches_ite
    | dsimp only
    | split
    | apply touches_set_tick

theorem touches_State_modLane {ps : List Part} {s₀ : State} (s : State) (n : Nat) (f : Lane → Lane) (hlanes : Part.lanes ∈ ps) (h : Touches ps s₀ s) :
    Touches ps s₀ (State.modLane s n f) := by
  unfold State.modLane
  with_reducible repeat' first
    | assumption
    | intro _
    | apply touches_ite
    | dsimp only
    | split
    | apply touches_set_lanes

theorem touches_State_logRec {ps : List Part} {s₀ : State} (s : State) (event : Nat) (unit : Nat) (sender : Nat) (data : List Nat) (hlog : Part.log ∈ ps) (rwch : Part.regs .wch ∈ ps) (h : Touches ps s₀ s) :
    Touches ps s₀ (State.logRec s event unit sender data) := by
  unfold State.logRec
  with_reducible repeat' first
    | assumption
    | intro _
    | apply touches_State_wr
    | apply touches_State_raise
    | apply touches_ite
    | exact has_Evt_wch
    | exact has_R_LOG_FIRST_SEQ
    | exact has_R_LOG_NEXT_SEQ
    | exact has_R_LOG_WRAPS_WRAPS
    | dsimp only
    | split
    | apply touches_set_log

theorem touches_endThose {ps : List Part} {s₀ : State} (p : Running → Bool) (status : Nat) (detail : Nat) (params : List Nat) (s : State) (hfw : Part.fw ∈ ps) (h : Touches ps s₀ s) :
    Touches ps s₀ (endThose p status detail params s) := by
  unfold endThose
  with_reducible repeat' first
    | assumption
    | intro _
    | apply touches_ite
    | dsimp only
    | split
    | apply touches_set_fw

theorem touches_endRunning {ps : List Part} {s₀ : State} (id : Nat) (status : Nat) (detail : Nat) (params : List Nat) (s : State) (hfw : Part.fw ∈ ps) (h : Touches ps s₀ s) :
    Touches ps s₀ (endRunning id status detail params s) := by
  unfold endRunning
  with_reducible repeat' first
    | assumption
    | intro _
    | apply touches_endThose

theorem touches_endUnit {ps : List Part} {s₀ : State} (op : Nat) (unit : Nat) (status : Nat) (detail : Nat) (params : List Nat) (s : State) (hfw : Part.fw ∈ ps) (h : Touches ps s₀ s) :
    Touches ps s₀ (endUnit op unit status detail params s) := by
  unfold endUnit
  with_reducible repeat' first
    | assumption
    | intro _
    | apply touches_endThose

theorem touches_raisePctOvf {ps : List Part} {s₀ : State} (c : Nat) (s : State) (h : Touches ps s₀ s) :
    Touches ps s₀ (raisePctOvf c s) :=
  touches_raise_side (sideKey_ovf _) h

theorem touches_addPct {ps : List Part} {s₀ : State} (c : Nat) (inc : Nat) (s : State) (h : Touches ps s₀ s) :
    Touches ps s₀ (addPct c inc s) := by
  unfold addPct
  with_reducible repeat' first
    | assumption
    | intro _
    | dsimp only
    | split
    | apply touches_set_pct

theorem touches_bumpPct {ps : List Part} {s₀ : State} (c : Nat) (inc : Nat) (s : State) (h : Touches ps s₀ s) :
    Touches ps s₀ (bumpPct c inc s) := by
  unfold bumpPct
  with_reducible repeat' first
    | assumption
    | intro _
    | apply touches_addPct
    | apply touches_raisePctOvf
    | apply touches_ite

theorem touches_State_count {ps : List Part} {s₀ : State} (s : State) (event : Nat) (unit : Nat) (inc : Nat) (h : Touches ps s₀ s) :
    Touches ps s₀ (State.count s event unit inc) := by
  unfold State.count
  with_reducible repeat' first
    | assumption
    | intro _
    | apply touches_bumpPct
    | apply touches_ite
    | apply touches_foldl

theorem touches_passPipe {ps : List Part} {s₀ : State} (d : Nat) (s : State) (hsrv : Part.srv ∈ ps) (h : Touches ps s₀ s) :
    Touches ps s₀ (passPipe d s) := by
  unfold passPipe
  with_reducible repeat' first
    | assumption
    | intro _
    | apply touches_bumpPct
    | apply touches_foldl
    | apply touches_ite
    | apply touches_foldl_fst
    | dsimp only
    | split
    | apply touches_set_srv

theorem touches_countEdges {ps : List Part} {s₀ : State} (old : State) (s : State) (h : Touches ps s₀ s) :
    Touches ps s₀ (countEdges old s) := by
  unfold countEdges
  with_reducible repeat' first
    | assumption
    | intro _
    | apply touches_bumpPct
    | apply touches_ite
    | apply touches_foldl

theorem touches_cycleTo {ps : List Part} {s₀ : State} (a : Nat) (b : Nat) (s : State) (h : Touches ps s₀ s) :
    Touches ps s₀ (cycleTo a b s) := by
  unfold cycleTo
  with_reducible repeat' first
    | assumption
    | intro _
    | apply touches_ite
    | dsimp only
    | split
    | apply touches_set_cycle

theorem touches_countTicks {ps : List Part} {s₀ : State} (m : Nat) (s : State) (h : Touches ps s₀ s) :
    Touches ps s₀ (countTicks m s) := by
  unfold countTicks
  with_reducible repeat' first
    | assumption
    | intro _
    | apply touches_addPct
    | apply touches_raisePctOvf
    | apply touches_cycleTo
    | apply touches_foldl
    | apply touches_foldl_fst

theorem touches_State_advance {ps : List Part} {s₀ : State} (s : State) (m : Nat) (htick : Part.tick ∈ ps) (hlanes : Part.lanes ∈ ps) (h : Touches ps s₀ s) :
    Touches ps s₀ (State.advance s m) := by
  unfold State.advance
  with_reducible repeat' first
    | assumption
    | intro _
    | apply touches_countTicks
    | apply touches_ite
    | dsimp only
    | split
    | apply touches_set_tick_lanes

theorem touches_State_waitTs0 {ps : List Part} {s₀ : State} (s : State) (target : Nat) (htick : Part.tick ∈ ps) (hlanes : Part.lanes ∈ ps) (h : Touches ps s₀ s) :
    Touches ps s₀ (State.waitTs0 s target) := by
  unfold State.waitTs0
  with_reducible repeat' first
    | assumption
    | intro _
    | apply touches_State_advance

theorem touches_State_waitClk {ps : List Part} {s₀ : State} (s : State) (target : Nat) (htick : Part.tick ∈ ps) (hlanes : Part.lanes ∈ ps) (h : Touches ps s₀ s) :
    Touches ps s₀ (State.waitClk s target) := by
  unfold State.waitClk
  with_reducible repeat' first
    | assumption
    | intro _
    | apply touches_State_advance

theorem touches_State_waitTick {ps : List Part} {s₀ : State} (s : State) (n : Nat) (htick : Part.tick ∈ ps) (hlanes : Part.lanes ∈ ps) (h : Touches ps s₀ s) :
    Touches ps s₀ (State.waitTick s n) := by
  unfold State.waitTick
  with_reducible repeat' first
    | assumption
    | intro _
    | apply touches_State_advance

theorem touches_stageIncr {ps : List Part} {s₀ : State} (b : Bank) (part : Nat) (w : Nat) (s : State) (htick : Part.tick ∈ ps) (h : Touches ps s₀ s) :
    Touches ps s₀ (stageIncr b part w s) := by
  unfold stageIncr
  with_reducible repeat' first
    | assumption
    | intro _
    | apply touches_State_modBank

theorem touches_applyIncr {ps : List Part} {s₀ : State} (b : Bank) (s : State) (htick : Part.tick ∈ ps) (rtsc : Part.regs .tsc ∈ ps) (h : Touches ps s₀ s) :
    Touches ps s₀ (applyIncr b s) := by
  unfold applyIncr
  with_reducible repeat' first
    | assumption
    | intro _
    | apply touches_State_modBank
    | apply touches_State_hi
    | apply touches_ite
    | exact has_R_TSC_INCR_CTL_REJECTED _

theorem touches_writeIncrCtl {ps : List Part} {s₀ : State} (b : Bank) (src : Steerer) (w : Nat) (s : State) (htick : Part.tick ∈ ps) (rtsc : Part.regs .tsc ∈ ps) (h : Touches ps s₀ s) :
    Touches ps s₀ (writeIncrCtl b src w s) := by
  unfold writeIncrCtl
  with_reducible repeat' first
    | assumption
    | intro _
    | apply touches_State_storeReg
    | apply touches_applyIncr
    | apply touches_State_hi
    | apply touches_ite
    | exact has_R_TSC_INCR_CTL_IGNORED _
    | (apply has_Reg_TSC_INCR_CTL; assumption)

theorem touches_setLeft {ps : List Part} {s₀ : State} (b : Bank) (v : Int) (s : State) (rtsc : Part.regs .tsc ∈ ps) (h : Touches ps s₀ s) :
    Touches ps s₀ (setLeft b v s) := by
  unfold setLeft
  with_reducible repeat' first
    | assumption
    | intro _
    | apply touches_State_wr
    | apply touches_ite
    | exact has_R_TSC_SLEW_LEFT_HI_LEFT _
    | exact has_R_TSC_SLEW_LEFT_LO_LEFT _

theorem touches_startSlew {ps : List Part} {s₀ : State} (b : Bank) (o : Int) (n : Nat) (s : State) (htick : Part.tick ∈ ps) (h : Touches ps s₀ s) :
    Touches ps s₀ (startSlew b o n s) := by
  unfold startSlew
  with_reducible repeat' first
    | assumption
    | intro _
    | apply touches_State_modBank

theorem touches_abortSlew {ps : List Part} {s₀ : State} (b : Bank) (s : State) (htick : Part.tick ∈ ps) (rtsc : Part.regs .tsc ∈ ps) (h : Touches ps s₀ s) :
    Touches ps s₀ (abortSlew b s) := by
  unfold abortSlew
  with_reducible repeat' first
    | assumption
    | intro _
    | apply touches_State_hi
    | apply touches_State_lo
    | apply touches_State_modBank
    | apply touches_setLeft
    | apply touches_ite
    | exact has_R_TSC_SLEW_CTL_ABORTED _
    | exact has_R_TSC_SLEW_CTL_ACTIVE _

theorem touches_slewGo {ps : List Part} {s₀ : State} (b : Bank) (o : Int) (d : Nat) (s : State) (htick : Part.tick ∈ ps) (rtsc : Part.regs .tsc ∈ ps) (h : Touches ps s₀ s) :
    Touches ps s₀ (slewGo b o d s) := by
  unfold slewGo
  with_reducible repeat' first
    | assumption
    | intro _
    | apply touches_startSlew
    | apply touches_State_modBank
    | apply touches_State_hi
    | apply touches_ite
    | exact has_R_TSC_SLEW_CTL_REJECTED _
    | exact has_R_TSC_SLEW_CTL_ACTIVE _

theorem touches_writeSlewCtl {ps : List Part} {s₀ : State} (b : Bank) (src : Steerer) (w : Nat) (s : State) (htick : Part.tick ∈ ps) (rtsc : Part.regs .tsc ∈ ps) (h : Touches ps s₀ s) :
    Touches ps s₀ (writeSlewCtl b src w s) := by
  unfold writeSlewCtl
  with_reducible repeat' first
    | assumption
    | intro _
    | apply touches_State_storeReg
    | apply touches_abortSlew
    | apply touches_slewGo
    | apply touches_State_hi
    | apply touches_ite
    | exact has_R_TSC_SLEW_CTL_IGNORED _
    | (apply has_Reg_TSC_SLEW_CTL; assumption)

theorem touches_slewDone {ps : List Part} {s₀ : State} (b : Bank) (s : State) (htick : Part.tick ∈ ps) (hlanes : Part.lanes ∈ ps) (rtsc : Part.regs .tsc ∈ ps) (h : Touches ps s₀ s) :
    Touches ps s₀ (slewDone b s) := by
  unfold slewDone
  with_reducible repeat' first
    | assumption
    | intro _
    | apply touches_State_advance
    | apply touches_State_hi
    | apply touches_State_lo
    | apply touches_State_modBank
    | apply touches_setLeft
    | apply touches_ite
    | exact has_R_TSC_SLEW_CTL_ACTIVE _
    | exact has_R_TSC_SLEW_CTL_DONE _

theorem touches_pendStep {ps : List Part} {s₀ : State} (b : Bank) (d : Int) (src : StepSource) (s : State) (htick : Part.tick ∈ ps) (rtsc : Part.regs .tsc ∈ ps) (h : Touches ps s₀ s) :
    Touches ps s₀ (pendStep b d src s) := by
  unfold pendStep
  with_reducible repeat' first
    | assumption
    | intro _
    | apply touches_State_hi
    | apply touches_State_modBank
    | apply touches_ite
    | exact has_R_TSC_STEP_CTL_PENDING _

theorem touches_denyStep {ps : List Part} {s₀ : State} (b : Bank) (s : State) (hfw : Part.fw ∈ ps) (rtsc : Part.regs .tsc ∈ ps) (h : Touches ps s₀ s) :
    Touches ps s₀ (denyStep b s) := by
  unfold denyStep
  with_reducible repeat' first
    | assumption
    | intro _
    | apply touches_endUnit
    | apply touches_State_hi
    | exact has_R_TSC_STEP_CTL_DENIED _

theorem touches_reportStep {ps : List Part} {s₀ : State} (b : Bank) (s : State) (hfw : Part.fw ∈ ps) (rtsc : Part.regs .tsc ∈ ps) (h : Touches ps s₀ s) :
    Touches ps s₀ (reportStep b s) := by
  unfold reportStep
  with_reducible repeat' first
    | assumption
    | intro _
    | apply touches_endUnit
    | apply touches_State_hi
    | apply touches_State_lo
    | exact has_R_TSC_STEP_CTL_PENDING _
    | exact has_R_TSC_STEP_CTL_DONE _

theorem touches_writeStepCtl {ps : List Part} {s₀ : State} (b : Bank) (src : StepSource) (w : Nat) (s : State) (htick : Part.tick ∈ ps) (hfw : Part.fw ∈ ps) (rtsc : Part.regs .tsc ∈ ps) (h : Touches ps s₀ s) :
    Touches ps s₀ (writeStepCtl b src w s) := by
  unfold writeStepCtl
  with_reducible repeat' first
    | assumption
    | intro _
    | apply touches_pendStep
    | apply touches_denyStep
    | apply touches_State_storeReg
    | apply touches_ite
    | (apply has_Reg_TSC_STEP_CTL; assumption)

theorem touches_slewMeetsStep {ps : List Part} {s₀ : State} (b : Bank) (s : State) (htick : Part.tick ∈ ps) (rtsc : Part.regs .tsc ∈ ps) (h : Touches ps s₀ s) :
    Touches ps s₀ (slewMeetsStep b s) := by
  unfold slewMeetsStep
  with_reducible repeat' first
    | assumption
    | intro _
    | apply touches_State_modBank
    | apply touches_setLeft
    | apply touches_abortSlew
    | apply touches_State_hi
    | apply touches_State_lo
    | apply touches_ite
    | exact has_R_TSC_SLEW_CTL_ACTIVE _
    | exact has_R_TSC_SLEW_CTL_REJECTED _
    | exact has_R_TSC_SLEW_CTL_ABORTED _

theorem touches_setSnap {ps : List Part} {s₀ : State} (b : Nat) (t : Nat) (s : State) (rtsc : Part.regs .tsc ∈ ps) (h : Touches ps s₀ s) :
    Touches ps s₀ (setSnap b t s) := by
  unfold setSnap
  with_reducible repeat' first
    | assumption
    | intro _
    | apply touches_State_wr
    | apply touches_ite
    | exact has_R_TSC_SNAP_FRAC_FRAC _
    | exact has_R_TSC_SNAP_NS_NS _
    | exact has_R_TSC_SNAP_SEC_HI_SEC _
    | exact has_R_TSC_SNAP_SEC_LO_SEC _

theorem touches_latchSnap {ps : List Part} {s₀ : State} (s : State) (rtsc : Part.regs .tsc ∈ ps) (h : Touches ps s₀ s) :
    Touches ps s₀ (latchSnap s) := by
  unfold latchSnap
  with_reducible repeat' first
    | assumption
    | intro _
    | apply touches_setSnap
    | apply touches_State_wr
    | apply touches_ite
    | exact has_R_TSC_SNAP_DIFF_HI_DIFF
    | exact has_R_TSC_SNAP_DIFF_LO_DIFF

theorem touches_snapAgain {ps : List Part} {s₀ : State} (s : State) (rtsc : Part.regs .tsc ∈ ps) (h : Touches ps s₀ s) :
    Touches ps s₀ (snapAgain s) := by
  unfold snapAgain
  with_reducible repeat' first
    | assumption
    | intro _
    | apply touches_latchSnap
    | apply touches_ite

theorem touches_forgetPast {ps : List Part} {s₀ : State} (s : State) (htick : Part.tick ∈ ps) (h : Touches ps s₀ s) :
    Touches ps s₀ (forgetPast s) := by
  unfold forgetPast
  with_reducible repeat' first
    | assumption
    | intro _
    | dsimp only
    | split
    | apply touches_set_tick

theorem touches_followStep {ps : List Part} {s₀ : State} (d : Int) (s : State) (htick : Part.tick ∈ ps) (h : Touches ps s₀ s) :
    Touches ps s₀ (followStep d s) := by
  unfold followStep
  with_reducible repeat' first
    | assumption
    | intro _
    | apply touches_State_modBank
    | apply touches_ite

theorem touches_moveByStep {ps : List Part} {s₀ : State} (b : Bank) (s : State) (htick : Part.tick ∈ ps) (hlanes : Part.lanes ∈ ps) (hlog : Part.log ∈ ps) (hfw : Part.fw ∈ ps) (rtsc : Part.regs .tsc ∈ ps) (rwch : Part.regs .wch ∈ ps) (h : Touches ps s₀ s) :
    Touches ps s₀ (moveByStep b s) := by
  unfold moveByStep
  with_reducible repeat' first
    | assumption
    | intro _
    | apply touches_slewMeetsStep
    | apply touches_State_modBank
    | apply touches_followStep
    | apply touches_forgetPast
    | apply touches_snapAgain
    | apply touches_reportStep
    | apply touches_State_logRec
    | apply touches_State_hi
    | apply touches_ite
    | exact has_R_TSC_STAT_TIME_SET
    | dsimp only
    | split
    | apply touches_set_lanes

theorem touches_dropStep {ps : List Part} {s₀ : State} (b : Bank) (s : State) (htick : Part.tick ∈ ps) (hfw : Part.fw ∈ ps) (rtsc : Part.regs .tsc ∈ ps) (h : Touches ps s₀ s) :
    Touches ps s₀ (dropStep b s) := by
  unfold dropStep
  with_reducible repeat' first
    | assumption
    | intro _
    | apply touches_denyStep
    | apply touches_State_modBank
    | apply touches_State_lo
    | exact has_R_TSC_STEP_CTL_PENDING _

theorem touches_writeSnapCtl {ps : List Part} {s₀ : State} (w : Nat) (s : State) (htick : Part.tick ∈ ps) (rtsc : Part.regs .tsc ∈ ps) (h : Touches ps s₀ s) :
    Touches ps s₀ (writeSnapCtl w s) := by
  unfold writeSnapCtl
  with_reducible repeat' first
    | assumption
    | intro _
    | apply touches_State_lo
    | apply touches_State_hi
    | apply touches_ite
    | exact has_R_TSC_SNAP_CTL_TAKE
    | exact has_R_TSC_SNAP_CTL_VALID
    | dsimp only
    | split
    | apply touches_set_tick

theorem touches_snapLatch {ps : List Part} {s₀ : State} (s : State) (htick : Part.tick ∈ ps) (hlanes : Part.lanes ∈ ps) (rtsc : Part.regs .tsc ∈ ps) (h : Touches ps s₀ s) :
    Touches ps s₀ (snapLatch s) := by
  unfold snapLatch
  with_reducible repeat' first
    | assumption
    | intro _
    | apply touches_State_waitTick
    | apply touches_latchSnap
    | apply touches_State_hi
    | apply touches_State_lo
    | apply touches_ite
    | exact has_R_TSC_SNAP_CTL_TAKE
    | exact has_R_TSC_SNAP_CTL_VALID
    | dsimp only
    | split
    | apply touches_set_tick

theorem touches_writeTscCtl {ps : List Part} {s₀ : State} (w : Nat) (s : State) (htick : Part.tick ∈ ps) (rtsc : Part.regs .tsc ∈ ps) (h : Touches ps s₀ s) :
    Touches ps s₀ (writeTscCtl w s) := by
  unfold writeTscCtl
  with_reducible repeat' first
    | assumption
    | intro _
    | apply touches_snapAgain
    | apply touches_State_modBank
    | apply touches_State_storeReg
    | apply touches_ite
    | (apply has_Reg_TSC_CTL; assumption)

theorem touches_writeUtcOfs {ps : List Part} {s₀ : State} (w : Nat) (s : State) (htick : Part.tick ∈ ps) (rtsc : Part.regs .tsc ∈ ps) (h : Touches ps s₀ s) :
    Touches ps s₀ (writeUtcOfs w s) := by
  unfold writeUtcOfs
  with_reducible repeat' first
    | assumption
    | intro _
    | apply touches_forgetPast
    | apply touches_State_hi
    | apply touches_State_storeReg
    | apply touches_ite
    | exact has_R_TSC_LEAP_CTL_REFUSED
    | exact has_R_TSC_UTC_OFS_VALID
    | (apply has_Reg_TSC_UTC_OFS; assumption)

theorem touches_armLeap {ps : List Part} {s₀ : State} (s : State) (htick : Part.tick ∈ ps) (rtsc : Part.regs .tsc ∈ ps) (h : Touches ps s₀ s) :
    Touches ps s₀ (armLeap s) := by
  unfold armLeap
  with_reducible repeat' first
    | assumption
    | intro _
    | apply touches_State_hi
    | apply touches_ite
    | exact has_R_TSC_LEAP_CTL_ARM
    | exact has_R_TSC_LEAP_CTL_ARMED
    | exact has_R_TSC_LEAP_CTL_SMEAR_LATE
    | dsimp only
    | split
    | apply touches_set_tick

theorem touches_endLeap {ps : List Part} {s₀ : State} (s : State) (rtsc : Part.regs .tsc ∈ ps) (h : Touches ps s₀ s) :
    Touches ps s₀ (endLeap s) := by
  unfold endLeap
  with_reducible repeat' first
    | assumption
    | intro _
    | apply touches_State_lo
    | apply touches_ite
    | exact has_R_TSC_LEAP_CTL_ARM
    | exact has_R_TSC_LEAP_CTL_ARMED
    | exact has_R_TSC_LEAP_CTL_IN_LEAP
    | exact has_R_TSC_LEAP_CTL_SMEARING
    | exact has_R_TSC_LEAP_CTL_WARN

theorem touches_doneLeap {ps : List Part} {s₀ : State} (s : State) (htick : Part.tick ∈ ps) (rtsc : Part.regs .tsc ∈ ps) (h : Touches ps s₀ s) :
    Touches ps s₀ (doneLeap s) := by
  unfold doneLeap
  with_reducible repeat' first
    | assumption
    | intro _
    | apply touches_State_hi
    | apply touches_endLeap
    | apply touches_ite
    | exact has_R_TSC_LEAP_CTL_DONE
    | dsimp only
    | split
    | apply touches_set_tick

theorem touches_writeLeapCtl {ps : List Part} {s₀ : State} (w : Nat) (s : State) (htick : Part.tick ∈ ps) (rtsc : Part.regs .tsc ∈ ps) (h : Touches ps s₀ s) :
    Touches ps s₀ (writeLeapCtl w s) := by
  unfold writeLeapCtl
  with_reducible repeat' first
    | assumption
    | intro _
    | apply touches_State_storeReg
    | apply touches_State_hi
    | apply touches_State_lo
    | apply touches_armLeap
    | apply touches_endLeap
    | apply touches_ite
    | exact has_R_TSC_LEAP_CTL_ARM
    | exact has_R_TSC_LEAP_CTL_REFUSED
    | (apply has_Reg_TSC_LEAP_CTL; assumption)

theorem touches_writeLeapUtc {ps : List Part} {s₀ : State} (r : Register) (w : Nat) (s : State) {b0 : Block} (k0 : ∀ f ∈ r.fields, b0.has f.key = true) (rb0 : Part.regs b0 ∈ ps) (h : Touches ps s₀ s) :
    Touches ps s₀ (writeLeapUtc r w s) := by
  unfold writeLeapUtc
  with_reducible repeat' first
    | assumption
    | intro _
    | apply k0
    | apply touches_State_storeReg
    | apply touches_ite

theorem touches_atLeap {ps : List Part} {s₀ : State} (t : Nat) (f : State → State) (s : State) (htick : Part.tick ∈ ps) (hlanes : Part.lanes ∈ ps) (h : Touches ps s₀ s)
    (hf : ∀ s, Touches ps s₀ s → Touches ps s₀ (f s)) : Touches ps s₀ (atLeap t f s) := by
  unfold atLeap
  with_reducible repeat' first
    | assumption
    | apply hf
    | apply touches_State_waitTs0
    | dsimp only
    | split

theorem touches_leapWarn {ps : List Part} {s₀ : State} (s : State) (htick : Part.tick ∈ ps) (hlanes : Part.lanes ∈ ps) (rtsc : Part.regs .tsc ∈ ps) (h : Touches ps s₀ s) :
    Touches ps s₀ (leapWarn s) := by
  unfold leapWarn
  with_reducible repeat' first
    | assumption
    | intro _
    | apply touches_atLeap
    | apply touches_State_hi
    | apply touches_ite
    | exact has_R_TSC_LEAP_CTL_WARN

theorem touches_leapSecondStart {ps : List Part} {s₀ : State} (s : State) (htick : Part.tick ∈ ps) (hlanes : Part.lanes ∈ ps) (rtsc : Part.regs .tsc ∈ ps) (h : Touches ps s₀ s) :
    Touches ps s₀ (leapSecondStart s) := by
  unfold leapSecondStart
  with_reducible repeat' first
    | assumption
    | intro _
    | apply touches_atLeap
    | apply touches_State_hi
    | apply touches_ite
    | exact has_R_TSC_LEAP_CTL_IN_LEAP

theorem touches_takeLeap {ps : List Part} {s₀ : State} (s : State) (htick : Part.tick ∈ ps) (hlog : Part.log ∈ ps) (rtsc : Part.regs .tsc ∈ ps) (rwch : Part.regs .wch ∈ ps) (h : Touches ps s₀ s) :
    Touches ps s₀ (takeLeap s) := by
  unfold takeLeap
  with_reducible repeat' first
    | assumption
    | intro _
    | apply touches_State_logRec
    | apply touches_doneLeap
    | apply touches_State_wr
    | apply touches_State_lo
    | apply touches_ite
    | exact has_R_TSC_UTC_OFS_OFS
    | exact has_R_TSC_LEAP_CTL_WARN
    | exact has_R_TSC_LEAP_CTL_IN_LEAP
    | dsimp only
    | split
    | apply touches_set_tick

theorem touches_leapOfsChange {ps : List Part} {s₀ : State} (s : State) (htick : Part.tick ∈ ps) (hlanes : Part.lanes ∈ ps) (hlog : Part.log ∈ ps) (rtsc : Part.regs .tsc ∈ ps) (rwch : Part.regs .wch ∈ ps) (h : Touches ps s₀ s) :
    Touches ps s₀ (leapOfsChange s) := by
  unfold leapOfsChange
  with_reducible repeat' first
    | assumption
    | intro _
    | apply touches_atLeap
    | apply touches_takeLeap
    | apply touches_ite

theorem touches_smearStart {ps : List Part} {s₀ : State} (s : State) (htick : Part.tick ∈ ps) (hlanes : Part.lanes ∈ ps) (rtsc : Part.regs .tsc ∈ ps) (h : Touches ps s₀ s) :
    Touches ps s₀ (smearStart s) := by
  unfold smearStart
  with_reducible repeat' first
    | assumption
    | intro _
    | apply touches_atLeap
    | apply touches_State_hi
    | apply touches_ite
    | exact has_R_TSC_LEAP_CTL_SMEARING

theorem touches_smearEnd {ps : List Part} {s₀ : State} (s : State) (htick : Part.tick ∈ ps) (hlanes : Part.lanes ∈ ps) (rtsc : Part.regs .tsc ∈ ps) (h : Touches ps s₀ s) :
    Touches ps s₀ (smearEnd s) := by
  unfold smearEnd
  with_reducible repeat' first
    | assumption
    | intro _
    | apply touches_atLeap
    | apply touches_doneLeap
    | apply touches_ite

end Sys2Proof.Machine
end

