-- ==== Sys2Proof/Laws/State.lean ====
section
/-! SUPPORT. What the shared operations leave and what they write, field by field: one lemma per field of the state for each of them, and
the value every register field reads as afterwards. -/

namespace Sys2Proof.Machine

/-! ### Writing a register field -/

@[simp] theorem wr_pending (s : State) (f : Field) (v : Nat) : (s.wr f v).pending = s.pending := rfl
@[simp] theorem wr_cycle (s : State) (f : Field) (v : Nat) : (s.wr f v).cycle = s.cycle := rfl
@[simp] theorem wr_mem (s : State) (f : Field) (v : Nat) : (s.wr f v).mem = s.mem := rfl
@[simp] theorem wr_tick (s : State) (f : Field) (v : Nat) : (s.wr f v).tick = s.tick := rfl
@[simp] theorem wr_lanes (s : State) (f : Field) (v : Nat) : (s.wr f v).lanes = s.lanes := rfl
@[simp] theorem wr_ens (s : State) (f : Field) (v : Nat) : (s.wr f v).ens = s.ens := rfl
@[simp] theorem wr_rfm (s : State) (f : Field) (v : Nat) : (s.wr f v).rfm = s.rfm := rfl
@[simp] theorem wr_tim (s : State) (f : Field) (v : Nat) : (s.wr f v).tim = s.tim := rfl
@[simp] theorem wr_gnss (s : State) (f : Field) (v : Nat) : (s.wr f v).gnss = s.gnss := rfl
@[simp] theorem wr_log (s : State) (f : Field) (v : Nat) : (s.wr f v).log = s.log := rfl
@[simp] theorem wr_pct (s : State) (f : Field) (v : Nat) : (s.wr f v).pct = s.pct := rfl
@[simp] theorem wr_srv (s : State) (f : Field) (v : Nat) : (s.wr f v).srv = s.srv := rfl
@[simp] theorem wr_rings (s : State) (f : Field) (v : Nat) : (s.wr f v).rings = s.rings := rfl
@[simp] theorem wr_stack (s : State) (f : Field) (v : Nat) : (s.wr f v).stack = s.stack := rfl
@[simp] theorem wr_mbx (s : State) (f : Field) (v : Nat) : (s.wr f v).mbx = s.mbx := rfl
@[simp] theorem wr_fw (s : State) (f : Field) (v : Nat) : (s.wr f v).fw = s.fw := rfl
@[simp] theorem wr_pcie (s : State) (f : Field) (v : Nat) : (s.wr f v).pcie = s.pcie := rfl
@[simp] theorem wr_watch (s : State) (f : Field) (v : Nat) : (s.wr f v).watch = s.watch := rfl
@[simp] theorem wr_power (s : State) (f : Field) (v : Nat) : (s.wr f v).power = s.power := rfl
@[simp] theorem wr_rst (s : State) (f : Field) (v : Nat) : (s.wr f v).rst = s.rst := rfl
@[simp] theorem wr_cfg (s : State) (f : Field) (v : Nat) : (s.wr f v).cfg = s.cfg := rfl
@[simp] theorem wr_out (s : State) (f : Field) (v : Nat) : (s.wr f v).out = s.out := rfl

@[simp] theorem hi_pending (s : State) (f : Field) : (s.hi f).pending = s.pending := rfl
@[simp] theorem hi_cycle (s : State) (f : Field) : (s.hi f).cycle = s.cycle := rfl
@[simp] theorem hi_mem (s : State) (f : Field) : (s.hi f).mem = s.mem := rfl
@[simp] theorem hi_tick (s : State) (f : Field) : (s.hi f).tick = s.tick := rfl
@[simp] theorem hi_lanes (s : State) (f : Field) : (s.hi f).lanes = s.lanes := rfl
@[simp] theorem hi_ens (s : State) (f : Field) : (s.hi f).ens = s.ens := rfl
@[simp] theorem hi_rfm (s : State) (f : Field) : (s.hi f).rfm = s.rfm := rfl
@[simp] theorem hi_tim (s : State) (f : Field) : (s.hi f).tim = s.tim := rfl
@[simp] theorem hi_gnss (s : State) (f : Field) : (s.hi f).gnss = s.gnss := rfl
@[simp] theorem hi_log (s : State) (f : Field) : (s.hi f).log = s.log := rfl
@[simp] theorem hi_pct (s : State) (f : Field) : (s.hi f).pct = s.pct := rfl
@[simp] theorem hi_srv (s : State) (f : Field) : (s.hi f).srv = s.srv := rfl
@[simp] theorem hi_rings (s : State) (f : Field) : (s.hi f).rings = s.rings := rfl
@[simp] theorem hi_stack (s : State) (f : Field) : (s.hi f).stack = s.stack := rfl
@[simp] theorem hi_mbx (s : State) (f : Field) : (s.hi f).mbx = s.mbx := rfl
@[simp] theorem hi_fw (s : State) (f : Field) : (s.hi f).fw = s.fw := rfl
@[simp] theorem hi_pcie (s : State) (f : Field) : (s.hi f).pcie = s.pcie := rfl
@[simp] theorem hi_watch (s : State) (f : Field) : (s.hi f).watch = s.watch := rfl
@[simp] theorem hi_power (s : State) (f : Field) : (s.hi f).power = s.power := rfl
@[simp] theorem hi_rst (s : State) (f : Field) : (s.hi f).rst = s.rst := rfl
@[simp] theorem hi_cfg (s : State) (f : Field) : (s.hi f).cfg = s.cfg := rfl
@[simp] theorem hi_out (s : State) (f : Field) : (s.hi f).out = s.out := rfl

@[simp] theorem lo_pending (s : State) (f : Field) : (s.lo f).pending = s.pending := rfl
@[simp] theorem lo_cycle (s : State) (f : Field) : (s.lo f).cycle = s.cycle := rfl
@[simp] theorem lo_mem (s : State) (f : Field) : (s.lo f).mem = s.mem := rfl
@[simp] theorem lo_tick (s : State) (f : Field) : (s.lo f).tick = s.tick := rfl
@[simp] theorem lo_lanes (s : State) (f : Field) : (s.lo f).lanes = s.lanes := rfl
@[simp] theorem lo_ens (s : State) (f : Field) : (s.lo f).ens = s.ens := rfl
@[simp] theorem lo_rfm (s : State) (f : Field) : (s.lo f).rfm = s.rfm := rfl
@[simp] theorem lo_tim (s : State) (f : Field) : (s.lo f).tim = s.tim := rfl
@[simp] theorem lo_gnss (s : State) (f : Field) : (s.lo f).gnss = s.gnss := rfl
@[simp] theorem lo_log (s : State) (f : Field) : (s.lo f).log = s.log := rfl
@[simp] theorem lo_pct (s : State) (f : Field) : (s.lo f).pct = s.pct := rfl
@[simp] theorem lo_srv (s : State) (f : Field) : (s.lo f).srv = s.srv := rfl
@[simp] theorem lo_rings (s : State) (f : Field) : (s.lo f).rings = s.rings := rfl
@[simp] theorem lo_stack (s : State) (f : Field) : (s.lo f).stack = s.stack := rfl
@[simp] theorem lo_mbx (s : State) (f : Field) : (s.lo f).mbx = s.mbx := rfl
@[simp] theorem lo_fw (s : State) (f : Field) : (s.lo f).fw = s.fw := rfl
@[simp] theorem lo_pcie (s : State) (f : Field) : (s.lo f).pcie = s.pcie := rfl
@[simp] theorem lo_watch (s : State) (f : Field) : (s.lo f).watch = s.watch := rfl
@[simp] theorem lo_power (s : State) (f : Field) : (s.lo f).power = s.power := rfl
@[simp] theorem lo_rst (s : State) (f : Field) : (s.lo f).rst = s.rst := rfl
@[simp] theorem lo_cfg (s : State) (f : Field) : (s.lo f).cfg = s.cfg := rfl
@[simp] theorem lo_out (s : State) (f : Field) : (s.lo f).out = s.out := rfl

@[simp] theorem emit_pending (s : State) (o : Output) : (s.emit o).pending = s.pending := rfl
@[simp] theorem emit_cycle (s : State) (o : Output) : (s.emit o).cycle = s.cycle := rfl
@[simp] theorem emit_regs (s : State) (o : Output) : (s.emit o).regs = s.regs := rfl
@[simp] theorem emit_mem (s : State) (o : Output) : (s.emit o).mem = s.mem := rfl
@[simp] theorem emit_tick (s : State) (o : Output) : (s.emit o).tick = s.tick := rfl
@[simp] theorem emit_lanes (s : State) (o : Output) : (s.emit o).lanes = s.lanes := rfl
@[simp] theorem emit_ens (s : State) (o : Output) : (s.emit o).ens = s.ens := rfl
@[simp] theorem emit_rfm (s : State) (o : Output) : (s.emit o).rfm = s.rfm := rfl
@[simp] theorem emit_tim (s : State) (o : Output) : (s.emit o).tim = s.tim := rfl
@[simp] theorem emit_gnss (s : State) (o : Output) : (s.emit o).gnss = s.gnss := rfl
@[simp] theorem emit_log (s : State) (o : Output) : (s.emit o).log = s.log := rfl
@[simp] theorem emit_pct (s : State) (o : Output) : (s.emit o).pct = s.pct := rfl
@[simp] theorem emit_srv (s : State) (o : Output) : (s.emit o).srv = s.srv := rfl
@[simp] theorem emit_rings (s : State) (o : Output) : (s.emit o).rings = s.rings := rfl
@[simp] theorem emit_stack (s : State) (o : Output) : (s.emit o).stack = s.stack := rfl
@[simp] theorem emit_mbx (s : State) (o : Output) : (s.emit o).mbx = s.mbx := rfl
@[simp] theorem emit_fw (s : State) (o : Output) : (s.emit o).fw = s.fw := rfl
@[simp] theorem emit_pcie (s : State) (o : Output) : (s.emit o).pcie = s.pcie := rfl
@[simp] theorem emit_watch (s : State) (o : Output) : (s.emit o).watch = s.watch := rfl
@[simp] theorem emit_power (s : State) (o : Output) : (s.emit o).power = s.power := rfl
@[simp] theorem emit_rst (s : State) (o : Output) : (s.emit o).rst = s.rst := rfl
@[simp] theorem emit_cfg (s : State) (o : Output) : (s.emit o).cfg = s.cfg := rfl

@[simp] theorem begin_pending (s : State) : (s.begin).pending = s.pending := rfl
@[simp] theorem begin_regs (s : State) : (s.begin).regs = s.regs := rfl
@[simp] theorem begin_mem (s : State) : (s.begin).mem = s.mem := rfl
@[simp] theorem begin_tick (s : State) : (s.begin).tick = s.tick := rfl
@[simp] theorem begin_lanes (s : State) : (s.begin).lanes = s.lanes := rfl
@[simp] theorem begin_ens (s : State) : (s.begin).ens = s.ens := rfl
@[simp] theorem begin_rfm (s : State) : (s.begin).rfm = s.rfm := rfl
@[simp] theorem begin_tim (s : State) : (s.begin).tim = s.tim := rfl
@[simp] theorem begin_gnss (s : State) : (s.begin).gnss = s.gnss := rfl
@[simp] theorem begin_log (s : State) : (s.begin).log = s.log := rfl
@[simp] theorem begin_pct (s : State) : (s.begin).pct = s.pct := rfl
@[simp] theorem begin_srv (s : State) : (s.begin).srv = s.srv := rfl
@[simp] theorem begin_rings (s : State) : (s.begin).rings = s.rings := rfl
@[simp] theorem begin_stack (s : State) : (s.begin).stack = s.stack := rfl
@[simp] theorem begin_mbx (s : State) : (s.begin).mbx = s.mbx := rfl
@[simp] theorem begin_fw (s : State) : (s.begin).fw = s.fw := rfl
@[simp] theorem begin_pcie (s : State) : (s.begin).pcie = s.pcie := rfl
@[simp] theorem begin_watch (s : State) : (s.begin).watch = s.watch := rfl
@[simp] theorem begin_power (s : State) : (s.begin).power = s.power := rfl
@[simp] theorem begin_rst (s : State) : (s.begin).rst = s.rst := rfl
@[simp] theorem begin_cfg (s : State) : (s.begin).cfg = s.cfg := rfl
@[simp] theorem begin_out (s : State) : (s.begin).out = s.out := rfl

@[simp] theorem emit_out (s : State) (o : Output) : (s.emit o).out = o :: s.out := rfl

@[simp] theorem begin_cycle (s : State) : s.begin.cycle = s.cycle + 1 := rfl

@[simp] theorem emit_rd (s : State) (o : Output) (g : Field) : (s.emit o).rd g = s.rd g := rfl

@[simp] theorem begin_rd (s : State) (g : Field) : s.begin.rd g = s.rd g := rfl

@[simp] theorem rd_wr_same (s : State) (f : Field) (v : Nat) : (s.wr f v).rd f = v % 2 ^ f.width := RegFile.get_set_same _ _ _

theorem rd_wr_ne (s : State) {f g : Field} (v : Nat) (h : g.key ≠ f.key) : (s.wr f v).rd g = s.rd g := RegFile.get_set_ne _ _ h

@[simp] theorem rd_hi_same (s : State) (f : Field) : (s.hi f).rd f = 1 % 2 ^ f.width := rd_wr_same _ _ _

theorem rd_hi_ne (s : State) {f g : Field} (h : g.key ≠ f.key) : (s.hi f).rd g = s.rd g := rd_wr_ne _ _ h

@[simp] theorem rd_lo_same (s : State) (f : Field) : (s.lo f).rd f = 0 := (rd_wr_same _ _ _).trans (Nat.zero_mod _)

theorem rd_lo_ne (s : State) {f g : Field} (h : g.key ≠ f.key) : (s.lo f).rd g = s.rd g := rd_wr_ne _ _ h

/-- A write of a register leaves every field that is none of its own. -/
theorem rd_storeReg_ne (s : State) (l : Bool) (r : Register) (w : Nat) {g : Field} (h : ∀ f ∈ r.fields, g.key ≠ f.key) :
    (s.storeReg l r w).rd g = s.rd g := by
  have key : ∀ (fs : List Field) (s : State), (∀ f ∈ fs, g.key ≠ f.key) → (fs.foldl (State.storeField l w) s).rd g = s.rd g := by
    intro fs
    induction fs with
    | nil => exact fun _ _ => rfl
    | cons f fs ih =>
      intro s h
      refine (ih _ fun x hx => h x (List.mem_cons_of_mem _ hx)).trans ?_
      have hg := h f List.mem_cons_self
      unfold State.storeField
      repeat' first
        | rfl
        | exact rd_wr_ne _ _ hg
        | split
  exact key _ _ h

/-- What a write of a register changes: registers only. -/
theorem storeReg_eq (s : State) (l : Bool) (r : Register) (w : Nat) : s.storeReg l r w = { s with regs := (s.storeReg l r w).regs } := by
  have key : ∀ (fs : List Field) (s : State),
      fs.foldl (State.storeField l w) s = { s with regs := (fs.foldl (State.storeField l w) s).regs } := by
    intro fs
    induction fs with
    | nil => exact fun _ => rfl
    | cons f fs ih =>
      intro s
      rw [List.foldl_cons, ih]
      have : State.storeField l w s f = { s with regs := (State.storeField l w s f).regs } := by
        unfold State.storeField
        repeat' first
          | rfl
          | split
      rw [this]
  exact key _ _

@[simp] theorem storeReg_pending (s : State) (l : Bool) (r : Register) (w : Nat) : (s.storeReg l r w).pending = s.pending := by
  rw [storeReg_eq]

@[simp] theorem storeReg_cycle (s : State) (l : Bool) (r : Register) (w : Nat) : (s.storeReg l r w).cycle = s.cycle := by
  rw [storeReg_eq]

@[simp] theorem storeReg_mem (s : State) (l : Bool) (r : Register) (w : Nat) : (s.storeReg l r w).mem = s.mem := by
  rw [storeReg_eq]

@[simp] theorem storeReg_tick (s : State) (l : Bool) (r : Register) (w : Nat) : (s.storeReg l r w).tick = s.tick := by
  rw [storeReg_eq]

@[simp] theorem storeReg_lanes (s : State) (l : Bool) (r : Register) (w : Nat) : (s.storeReg l r w).lanes = s.lanes := by
  rw [storeReg_eq]

@[simp] theorem storeReg_ens (s : State) (l : Bool) (r : Register) (w : Nat) : (s.storeReg l r w).ens = s.ens := by
  rw [storeReg_eq]

@[simp] theorem storeReg_rfm (s : State) (l : Bool) (r : Register) (w : Nat) : (s.storeReg l r w).rfm = s.rfm := by
  rw [storeReg_eq]

@[simp] theorem storeReg_tim (s : State) (l : Bool) (r : Register) (w : Nat) : (s.storeReg l r w).tim = s.tim := by
  rw [storeReg_eq]

@[simp] theorem storeReg_gnss (s : State) (l : Bool) (r : Register) (w : Nat) : (s.storeReg l r w).gnss = s.gnss := by
  rw [storeReg_eq]

@[simp] theorem storeReg_log (s : State) (l : Bool) (r : Register) (w : Nat) : (s.storeReg l r w).log = s.log := by
  rw [storeReg_eq]

@[simp] theorem storeReg_pct (s : State) (l : Bool) (r : Register) (w : Nat) : (s.storeReg l r w).pct = s.pct := by
  rw [storeReg_eq]

@[simp] theorem storeReg_srv (s : State) (l : Bool) (r : Register) (w : Nat) : (s.storeReg l r w).srv = s.srv := by
  rw [storeReg_eq]

@[simp] theorem storeReg_rings (s : State) (l : Bool) (r : Register) (w : Nat) : (s.storeReg l r w).rings = s.rings := by
  rw [storeReg_eq]

@[simp] theorem storeReg_stack (s : State) (l : Bool) (r : Register) (w : Nat) : (s.storeReg l r w).stack = s.stack := by
  rw [storeReg_eq]

@[simp] theorem storeReg_mbx (s : State) (l : Bool) (r : Register) (w : Nat) : (s.storeReg l r w).mbx = s.mbx := by
  rw [storeReg_eq]

@[simp] theorem storeReg_fw (s : State) (l : Bool) (r : Register) (w : Nat) : (s.storeReg l r w).fw = s.fw := by
  rw [storeReg_eq]

@[simp] theorem storeReg_pcie (s : State) (l : Bool) (r : Register) (w : Nat) : (s.storeReg l r w).pcie = s.pcie := by
  rw [storeReg_eq]

@[simp] theorem storeReg_watch (s : State) (l : Bool) (r : Register) (w : Nat) : (s.storeReg l r w).watch = s.watch := by
  rw [storeReg_eq]

@[simp] theorem storeReg_power (s : State) (l : Bool) (r : Register) (w : Nat) : (s.storeReg l r w).power = s.power := by
  rw [storeReg_eq]

@[simp] theorem storeReg_rst (s : State) (l : Bool) (r : Register) (w : Nat) : (s.storeReg l r w).rst = s.rst := by
  rw [storeReg_eq]

@[simp] theorem storeReg_cfg (s : State) (l : Bool) (r : Register) (w : Nat) : (s.storeReg l r w).cfg = s.cfg := by
  rw [storeReg_eq]

@[simp] theorem storeReg_out (s : State) (l : Bool) (r : Register) (w : Nat) : (s.storeReg l r w).out = s.out := by
  rw [storeReg_eq]

/-! ### Messages and event bits -/

/-- A message sent is put out, or kept in its vector's pending bit. -/
theorem post_cases (s : State) (fn vec : Nat) : s.post fn vec = s.emit (.msi fn vec s.cycle) ∨
    ∃ v, s.post fn vec = s.wr (R.MSIX_PBA_P (fn * 2 + vec / 32)) v := by
  unfold State.post; split
  · exact .inr ⟨_, rfl⟩
  · exact .inl rfl

/-- An event's message is sent, or has been in this cycle. -/
theorem msi_cases (s : State) (fn vec : Nat) : s.msi fn vec = s ∨ s.msi fn vec = s.emit (.msi fn vec s.cycle) ∨
    ∃ v, s.msi fn vec = s.wr (R.MSIX_PBA_P (fn * 2 + vec / 32)) v := by
  unfold State.msi; split
  · exact .inl rfl
  · exact .inr (post_cases s fn vec)

theorem rd_msi (s : State) (fn vec : Nat) {g : Field} (h : g.side = false) : (s.msi fn vec).rd g = s.rd g := by
  rcases msi_cases s fn vec with k | k | ⟨v, k⟩ <;> rw [k]
  · rfl
  · exact rd_wr_ne _ _ fun e => by rw [Field.side, e, sideKey_pba] at h; cases h

/-- A raise writes the event register, and may send the vector's message. -/
theorem raise_cases (s : State) (e : EvtSrc) (m : Nat) :
    s.raise e m = s.wr e.ev (s.rd e.ev ||| m) ∨ s.raise e m = (s.wr e.ev (s.rd e.ev ||| m)).msi e.fn e.vec := by
  unfold State.raise; dsimp only; split
  · exact .inr rfl
  · exact .inl rfl

/-- A raised event register holds its old bits and the new ones. -/
theorem rd_raise_same (s : State) (e : EvtSrc) (m : Nat) (h : e.ev.side = false) :
    (s.raise e m).rd e.ev = (s.rd e.ev ||| m) % 2 ^ e.ev.width := by
  rcases raise_cases s e m with k | k <;> rw [k]
  · exact rd_wr_same _ _ _
  · exact (rd_msi _ _ _ h).trans (rd_wr_same _ _ _)

theorem rd_raise_ne (s : State) (e : EvtSrc) (m : Nat) {g : Field} (hk : g.key ≠ e.ev.key) (h : g.side = false) :
    (s.raise e m).rd g = s.rd g := by
  rcases raise_cases s e m with k | k <;> rw [k]
  · exact rd_wr_ne _ _ hk
  · exact (rd_msi _ _ _ h).trans (rd_wr_ne _ _ hk)

/-- A raised overflow bit is one of the side fields. -/
theorem rd_raise_side (s : State) (e : EvtSrc) (m : Nat) {g : Field} (he : e.ev.side = true) (h : g.side = false) :
    (s.raise e m).rd g = s.rd g :=
  rd_raise_ne s e m (fun k => by rw [Field.side, k] at h; rw [Field.side, h] at he; cases he) h

@[simp] theorem msi_pending (s : State) (fn vec : Nat) : (s.msi fn vec).pending = s.pending := by
  rcases msi_cases s fn vec with k | k | ⟨v, k⟩ <;> rw [k] <;> rfl
@[simp] theorem msi_cycle (s : State) (fn vec : Nat) : (s.msi fn vec).cycle = s.cycle := by
  rcases msi_cases s fn vec with k | k | ⟨v, k⟩ <;> rw [k] <;> rfl
@[simp] theorem msi_mem (s : State) (fn vec : Nat) : (s.msi fn vec).mem = s.mem := by
  rcases msi_cases s fn vec with k | k | ⟨v, k⟩ <;> rw [k] <;> rfl
@[simp] theorem msi_tick (s : State) (fn vec : Nat) : (s.msi fn vec).tick = s.tick := by
  rcases msi_cases s fn vec with k | k | ⟨v, k⟩ <;> rw [k] <;> rfl
@[simp] theorem msi_lanes (s : State) (fn vec : Nat) : (s.msi fn vec).lanes = s.lanes := by
  rcases msi_cases s fn vec with k | k | ⟨v, k⟩ <;> rw [k] <;> rfl
@[simp] theorem msi_ens (s : State) (fn vec : Nat) : (s.msi fn vec).ens = s.ens := by
  rcases msi_cases s fn vec with k | k | ⟨v, k⟩ <;> rw [k] <;> rfl
@[simp] theorem msi_rfm (s : State) (fn vec : Nat) : (s.msi fn vec).rfm = s.rfm := by
  rcases msi_cases s fn vec with k | k | ⟨v, k⟩ <;> rw [k] <;> rfl
@[simp] theorem msi_tim (s : State) (fn vec : Nat) : (s.msi fn vec).tim = s.tim := by
  rcases msi_cases s fn vec with k | k | ⟨v, k⟩ <;> rw [k] <;> rfl
@[simp] theorem msi_gnss (s : State) (fn vec : Nat) : (s.msi fn vec).gnss = s.gnss := by
  rcases msi_cases s fn vec with k | k | ⟨v, k⟩ <;> rw [k] <;> rfl
@[simp] theorem msi_log (s : State) (fn vec : Nat) : (s.msi fn vec).log = s.log := by
  rcases msi_cases s fn vec with k | k | ⟨v, k⟩ <;> rw [k] <;> rfl
@[simp] theorem msi_pct (s : State) (fn vec : Nat) : (s.msi fn vec).pct = s.pct := by
  rcases msi_cases s fn vec with k | k | ⟨v, k⟩ <;> rw [k] <;> rfl
@[simp] theorem msi_srv (s : State) (fn vec : Nat) : (s.msi fn vec).srv = s.srv := by
  rcases msi_cases s fn vec with k | k | ⟨v, k⟩ <;> rw [k] <;> rfl
@[simp] theorem msi_rings (s : State) (fn vec : Nat) : (s.msi fn vec).rings = s.rings := by
  rcases msi_cases s fn vec with k | k | ⟨v, k⟩ <;> rw [k] <;> rfl
@[simp] theorem msi_stack (s : State) (fn vec : Nat) : (s.msi fn vec).stack = s.stack := by
  rcases msi_cases s fn vec with k | k | ⟨v, k⟩ <;> rw [k] <;> rfl
@[simp] theorem msi_mbx (s : State) (fn vec : Nat) : (s.msi fn vec).mbx = s.mbx := by
  rcases msi_cases s fn vec with k | k | ⟨v, k⟩ <;> rw [k] <;> rfl
@[simp] theorem msi_fw (s : State) (fn vec : Nat) : (s.msi fn vec).fw = s.fw := by
  rcases msi_cases s fn vec with k | k | ⟨v, k⟩ <;> rw [k] <;> rfl
@[simp] theorem msi_pcie (s : State) (fn vec : Nat) : (s.msi fn vec).pcie = s.pcie := by
  rcases msi_cases s fn vec with k | k | ⟨v, k⟩ <;> rw [k] <;> rfl
@[simp] theorem msi_watch (s : State) (fn vec : Nat) : (s.msi fn vec).watch = s.watch := by
  rcases msi_cases s fn vec with k | k | ⟨v, k⟩ <;> rw [k] <;> rfl
@[simp] theorem msi_power (s : State) (fn vec : Nat) : (s.msi fn vec).power = s.power := by
  rcases msi_cases s fn vec with k | k | ⟨v, k⟩ <;> rw [k] <;> rfl
@[simp] theorem msi_rst (s : State) (fn vec : Nat) : (s.msi fn vec).rst = s.rst := by
  rcases msi_cases s fn vec with k | k | ⟨v, k⟩ <;> rw [k] <;> rfl
@[simp] theorem msi_cfg (s : State) (fn vec : Nat) : (s.msi fn vec).cfg = s.cfg := by
  rcases msi_cases s fn vec with k | k | ⟨v, k⟩ <;> rw [k] <;> rfl

@[simp] theorem raise_pending (s : State) (e : EvtSrc) (m : Nat) : (s.raise e m).pending = s.pending := by rcases raise_cases s e m with k | k <;> rw [k] <;> simp
@[simp] theorem raise_cycle (s : State) (e : EvtSrc) (m : Nat) : (s.raise e m).cycle = s.cycle := by rcases raise_cases s e m with k | k <;> rw [k] <;> simp
@[simp] theorem raise_mem (s : State) (e : EvtSrc) (m : Nat) : (s.raise e m).mem = s.mem := by rcases raise_cases s e m with k | k <;> rw [k] <;> simp
@[simp] theorem raise_tick (s : State) (e : EvtSrc) (m : Nat) : (s.raise e m).tick = s.tick := by rcases raise_cases s e m with k | k <;> rw [k] <;> simp
@[simp] theorem raise_lanes (s : State) (e : EvtSrc) (m : Nat) : (s.raise e m).lanes = s.lanes := by rcases raise_cases s e m with k | k <;> rw [k] <;> simp
@[simp] theorem raise_ens (s : State) (e : EvtSrc) (m : Nat) : (s.raise e m).ens = s.ens := by rcases raise_cases s e m with k | k <;> rw [k] <;> simp
@[simp] theorem raise_rfm (s : State) (e : EvtSrc) (m : Nat) : (s.raise e m).rfm = s.rfm := by rcases raise_cases s e m with k | k <;> rw [k] <;> simp
@[simp] theorem raise_tim (s : State) (e : EvtSrc) (m : Nat) : (s.raise e m).tim = s.tim := by rcases raise_cases s e m with k | k <;> rw [k] <;> simp
@[simp] theorem raise_gnss (s : State) (e : EvtSrc) (m : Nat) : (s.raise e m).gnss = s.gnss := by rcases raise_cases s e m with k | k <;> rw [k] <;> simp
@[simp] theorem raise_log (s : State) (e : EvtSrc) (m : Nat) : (s.raise e m).log = s.log := by rcases raise_cases s e m with k | k <;> rw [k] <;> simp
@[simp] theorem raise_pct (s : State) (e : EvtSrc) (m : Nat) : (s.raise e m).pct = s.pct := by rcases raise_cases s e m with k | k <;> rw [k] <;> simp
@[simp] theorem raise_srv (s : State) (e : EvtSrc) (m : Nat) : (s.raise e m).srv = s.srv := by rcases raise_cases s e m with k | k <;> rw [k] <;> simp
@[simp] theorem raise_rings (s : State) (e : EvtSrc) (m : Nat) : (s.raise e m).rings = s.rings := by rcases raise_cases s e m with k | k <;> rw [k] <;> simp
@[simp] theorem raise_stack (s : State) (e : EvtSrc) (m : Nat) : (s.raise e m).stack = s.stack := by rcases raise_cases s e m with k | k <;> rw [k] <;> simp
@[simp] theorem raise_mbx (s : State) (e : EvtSrc) (m : Nat) : (s.raise e m).mbx = s.mbx := by rcases raise_cases s e m with k | k <;> rw [k] <;> simp
@[simp] theorem raise_fw (s : State) (e : EvtSrc) (m : Nat) : (s.raise e m).fw = s.fw := by rcases raise_cases s e m with k | k <;> rw [k] <;> simp
@[simp] theorem raise_pcie (s : State) (e : EvtSrc) (m : Nat) : (s.raise e m).pcie = s.pcie := by rcases raise_cases s e m with k | k <;> rw [k] <;> simp
@[simp] theorem raise_watch (s : State) (e : EvtSrc) (m : Nat) : (s.raise e m).watch = s.watch := by rcases raise_cases s e m with k | k <;> rw [k] <;> simp
@[simp] theorem raise_power (s : State) (e : EvtSrc) (m : Nat) : (s.raise e m).power = s.power := by rcases raise_cases s e m with k | k <;> rw [k] <;> simp
@[simp] theorem raise_rst (s : State) (e : EvtSrc) (m : Nat) : (s.raise e m).rst = s.rst := by rcases raise_cases s e m with k | k <;> rw [k] <;> simp
@[simp] theorem raise_cfg (s : State) (e : EvtSrc) (m : Nat) : (s.raise e m).cfg = s.cfg := by rcases raise_cases s e m with k | k <;> rw [k] <;> simp

theorem msi_out (s : State) (fn vec : Nat) : s.out <:+ (s.msi fn vec).out := by
  rcases msi_cases s fn vec with k | k | ⟨v, k⟩ <;> rw [k]
  · exact List.suffix_cons _ _
  · exact List.suffix_refl _

theorem raise_out (s : State) (e : EvtSrc) (m : Nat) : s.out <:+ (s.raise e m).out := by
  rcases raise_cases s e m with k | k <;> rw [k]
  · exact List.suffix_refl _
  · exact msi_out (s.wr _ _) _ _

/-! ### Counting -/

theorem CountsOnly.refl (s : State) : CountsOnly s s := fun _ => rfl

theorem CountsOnly.of_pct {s t : State} (h : t.pct = s.pct) : CountsOnly s t := fun _ => by rw [h]

theorem CountsOnly.trans {s t u : State} (h : CountsOnly s t) (k : CountsOnly t u) : CountsOnly s u := fun c => by
  have h1 := h c
  have h2 := k c
  rw [← h2] at h1
  exact h1

/-- What counting can change: counts, overflow bits, the messages they send and the cycles those are sent in. -/
structure Counted (s t : State) : Prop where
  rd : ∀ g : Field, g.side = false → t.rd g = s.rd g
  counts : CountsOnly s t
  out : s.out <:+ t.out
  rest : t = { s with regs := t.regs, pct := t.pct, out := t.out, cycle := t.cycle }

theorem Counted.refl (s : State) : Counted s s := ⟨fun _ _ => rfl, CountsOnly.refl s, List.suffix_refl _, rfl⟩

theorem Counted.trans {s t u : State} (h : Counted s t) (k : Counted t u) : Counted s u :=
  ⟨fun g hg => (k.rd g hg).trans (h.rd g hg), h.counts.trans k.counts, h.out.trans k.out, by
    have h1 := h.rest
    have h2 := k.rest
    rw [h1] at h2
    exact h2⟩

theorem counted_ite {s a b : State} {c : Prop} [Decidable c] (ha : Counted s a) (hb : Counted s b) : Counted s (if c then a else b) := by
  split <;> assumption

theorem counted_foldl {α : Type} {s₀ s : State} {f : State → α → State} {l : List α} (h : Counted s₀ s)
    (hf : ∀ s x, Counted s₀ s → Counted s₀ (f s x)) : Counted s₀ (l.foldl f s) := by
  induction l generalizing s with
  | nil => exact h
  | cons x l ih => exact ih (hf s x h)

/-- Raising a bit that any command may raise is counting. -/
theorem counted_raise_side (s : State) (e : EvtSrc) (m : Nat) (he : e.ev.side = true) : Counted s (s.raise e m) := by
  refine ⟨fun g hg => rd_raise_side s e m he hg, CountsOnly.of_pct (raise_pct s e m), raise_out s e m, ?_⟩
  rcases raise_cases s e m with k | k <;> rw [k]
  · rfl
  · rcases msi_cases (s.wr e.ev (s.rd e.ev ||| m)) e.fn e.vec with j | j | ⟨v, j⟩ <;> rw [j] <;> rfl

theorem counted_addPct (c inc : Nat) (s : State) : Counted s (addPct c inc s) :=
  ⟨fun _ _ => rfl, fun k => by
    by_cases hk : k = c
    · subst hk; simp [addPct]
    · simp [addPct, IMap.get_put_ne _ _ _ hk], List.suffix_refl _, rfl⟩

theorem counted_raisePctOvf (c : Nat) (s : State) : Counted s (raisePctOvf c s) :=
  counted_raise_side _ _ _ (show Field.side _ = true from sideKey_ovf _)

theorem counted_bumpPct (c inc : Nat) (s : State) : Counted s (bumpPct c inc s) := by
  unfold bumpPct
  exact counted_ite (counted_addPct _ _ _) ((counted_addPct _ _ _).trans (counted_raisePctOvf _ _))

theorem counted_cycleTo (a b : Nat) (s : State) : Counted s (cycleTo a b s) := by
  unfold cycleTo
  exact counted_ite (Counted.refl s) ⟨fun _ _ => rfl, CountsOnly.of_pct rfl, List.suffix_refl _, rfl⟩

theorem counted_count (s : State) (event unit inc : Nat) : Counted s (s.count event unit inc) := by
  unfold State.count
  exact counted_ite (Counted.refl s) (counted_foldl (Counted.refl s) fun t x h => counted_ite (h.trans (counted_bumpPct _ _ _)) h)

theorem counted_countEdges (old new : State) : Counted new (countEdges old new) := by
  unfold countEdges
  exact counted_foldl (Counted.refl new) fun t x h => counted_ite (h.trans (counted_bumpPct _ _ _)) h

theorem counted_foldl_fst {α β : Type} {s₀ : State} {p : State × β} {f : State × β → α → State × β} {l : List α} (h : Counted s₀ p.1)
    (hf : ∀ p x, Counted s₀ p.1 → Counted s₀ (f p x).1) : Counted s₀ (l.foldl f p).1 := by
  induction l generalizing p with
  | nil => exact h
  | cons x l ih => exact ih (hf p x h)

theorem counted_countTicks (m : Nat) (s : State) : Counted s (countTicks m s) := by
  unfold countTicks
  dsimp only
  refine (counted_foldl_fst ?_ fun p x h => (h.trans (counted_cycleTo _ _ _)).trans (counted_raisePctOvf _ _)).trans (counted_cycleTo _ _ _)
  exact counted_foldl (Counted.refl s) fun t x h => h.trans (counted_addPct _ _ _)

theorem Counted.pending {s t : State} (h : Counted s t) : t.pending = s.pending := by rw [h.rest]
theorem Counted.mem {s t : State} (h : Counted s t) : t.mem = s.mem := by rw [h.rest]
theorem Counted.tick {s t : State} (h : Counted s t) : t.tick = s.tick := by rw [h.rest]
theorem Counted.lanes {s t : State} (h : Counted s t) : t.lanes = s.lanes := by rw [h.rest]
theorem Counted.ens {s t : State} (h : Counted s t) : t.ens = s.ens := by rw [h.rest]
theorem Counted.rfm {s t : State} (h : Counted s t) : t.rfm = s.rfm := by rw [h.rest]
theorem Counted.tim {s t : State} (h : Counted s t) : t.tim = s.tim := by rw [h.rest]
theorem Counted.gnss {s t : State} (h : Counted s t) : t.gnss = s.gnss := by rw [h.rest]
theorem Counted.log {s t : State} (h : Counted s t) : t.log = s.log := by rw [h.rest]
theorem Counted.srv {s t : State} (h : Counted s t) : t.srv = s.srv := by rw [h.rest]
theorem Counted.rings {s t : State} (h : Counted s t) : t.rings = s.rings := by rw [h.rest]
theorem Counted.stack {s t : State} (h : Counted s t) : t.stack = s.stack := by rw [h.rest]
theorem Counted.mbx {s t : State} (h : Counted s t) : t.mbx = s.mbx := by rw [h.rest]
theorem Counted.fw {s t : State} (h : Counted s t) : t.fw = s.fw := by rw [h.rest]
theorem Counted.pcie {s t : State} (h : Counted s t) : t.pcie = s.pcie := by rw [h.rest]
theorem Counted.watch {s t : State} (h : Counted s t) : t.watch = s.watch := by rw [h.rest]
theorem Counted.power {s t : State} (h : Counted s t) : t.power = s.power := by rw [h.rest]
theorem Counted.rst {s t : State} (h : Counted s t) : t.rst = s.rst := by rw [h.rest]
theorem Counted.cfg {s t : State} (h : Counted s t) : t.cfg = s.cfg := by rw [h.rest]

@[simp] theorem count_pending (s : State) (event unit inc : Nat) : (s.count event unit inc).pending = s.pending := (counted_count s event unit inc).pending
@[simp] theorem bumpPct_cycle (c inc : Nat) (s : State) : (bumpPct c inc s).cycle = s.cycle := by
  unfold bumpPct; split
  · rfl
  · exact raise_cycle _ _ _
@[simp] theorem count_cycle (s : State) (event unit inc : Nat) : (s.count event unit inc).cycle = s.cycle := by
  have key : ∀ (l : List (Nat × Pct)) (t : State),
      (l.foldl (fun s cp => if cp.2.event = event ∧ cp.2.unit = unit then bumpPct cp.1 inc s else s) t).cycle = t.cycle := by
    intro l
    induction l with
    | nil => exact fun _ => rfl
    | cons x l ih => intro t; refine (ih _).trans ?_; dsimp only; split <;> simp
  unfold State.count; split
  · rfl
  · exact key _ _
@[simp] theorem count_mem (s : State) (event unit inc : Nat) : (s.count event unit inc).mem = s.mem := (counted_count s event unit inc).mem
@[simp] theorem count_tick (s : State) (event unit inc : Nat) : (s.count event unit inc).tick = s.tick := (counted_count s event unit inc).tick
@[simp] theorem count_lanes (s : State) (event unit inc : Nat) : (s.count event unit inc).lanes = s.lanes := (counted_count s event unit inc).lanes
@[simp] theorem count_ens (s : State) (event unit inc : Nat) : (s.count event unit inc).ens = s.ens := (counted_count s event unit inc).ens
@[simp] theorem count_rfm (s : State) (event unit inc : Nat) : (s.count event unit inc).rfm = s.rfm := (counted_count s event unit inc).rfm
@[simp] theorem count_tim (s : State) (event unit inc : Nat) : (s.count event unit inc).tim = s.tim := (counted_count s event unit inc).tim
@[simp] theorem count_gnss (s : State) (event unit inc : Nat) : (s.count event unit inc).gnss = s.gnss := (counted_count s event unit inc).gnss
@[simp] theorem count_log (s : State) (event unit inc : Nat) : (s.count event unit inc).log = s.log := (counted_count s event unit inc).log
@[simp] theorem count_srv (s : State) (event unit inc : Nat) : (s.count event unit inc).srv = s.srv := (counted_count s event unit inc).srv
@[simp] theorem count_rings (s : State) (event unit inc : Nat) : (s.count event unit inc).rings = s.rings := (counted_count s event unit inc).rings
@[simp] theorem count_stack (s : State) (event unit inc : Nat) : (s.count event unit inc).stack = s.stack := (counted_count s event unit inc).stack
@[simp] theorem count_mbx (s : State) (event unit inc : Nat) : (s.count event unit inc).mbx = s.mbx := (counted_count s event unit inc).mbx
@[simp] theorem count_fw (s : State) (event unit inc : Nat) : (s.count event unit inc).fw = s.fw := (counted_count s event unit inc).fw
@[simp] theorem count_pcie (s : State) (event unit inc : Nat) : (s.count event unit inc).pcie = s.pcie := (counted_count s event unit inc).pcie
@[simp] theorem count_watch (s : State) (event unit inc : Nat) : (s.count event unit inc).watch = s.watch := (counted_count s event unit inc).watch
@[simp] theorem count_power (s : State) (event unit inc : Nat) : (s.count event unit inc).power = s.power := (counted_count s event unit inc).power
@[simp] theorem count_rst (s : State) (event unit inc : Nat) : (s.count event unit inc).rst = s.rst := (counted_count s event unit inc).rst
@[simp] theorem count_cfg (s : State) (event unit inc : Nat) : (s.count event unit inc).cfg = s.cfg := (counted_count s event unit inc).cfg

theorem rd_count (s : State) (event unit inc : Nat) {g : Field} (h : g.side = false) : (s.count event unit inc).rd g = s.rd g :=
  (counted_count s event unit inc).rd g h

/-! ### How a command ends -/

/-- A command always goes on: its effect, counted, with the queue it was given. -/
theorem go_next (f : State → State) (s : State) : ∃ t, go f s = .next { t with pending := s.pending } ∧ Counted (f s.begin) t :=
  ⟨countEdges s (f s.begin), rfl, counted_countEdges _ _⟩

/-! ### Records -/

/-- The state with a record in the next SEQ's place. -/
def State.recorded (s : State) (event unit sender : Nat) (data : List Nat) : State :=
  let r : LogRec := { seq := s.rd R.LOG_NEXT_SEQ, time := s.ts0, event := event, unit := unit, sender := sender, data := data }
  { s with log := IMap.put {} s.log (s.rd R.LOG_NEXT_SEQ % logSize) r }

/-- A record takes one SEQ; where the log is full it also drops the oldest, and says so. -/
theorem logRec_cases (s : State) (event unit sender : Nat) (data : List Nat) :
    s.logRec event unit sender data = (s.recorded event unit sender data).wr R.LOG_NEXT_SEQ (s.rd R.LOG_NEXT_SEQ + 1) ∨
    ∃ a b, s.logRec event unit sender data =
      ((((s.recorded event unit sender data).wr R.LOG_NEXT_SEQ (s.rd R.LOG_NEXT_SEQ + 1)).wr R.LOG_FIRST_SEQ a).wr
        R.LOG_WRAPS_WRAPS b).raise Evt.wch 16 := by
  unfold State.logRec
  dsimp only
  split
  · exact .inr ⟨_, _, rfl⟩
  · exact .inl rfl

/-- A record takes the next SEQ's place in the log (R469). -/
theorem logRec_log (s : State) (event unit sender : Nat) (data : List Nat) :
    (s.logRec event unit sender data).log = IMap.put {} s.log (s.rd R.LOG_NEXT_SEQ % logSize)
      { seq := s.rd R.LOG_NEXT_SEQ, time := s.ts0, event := event, unit := unit, sender := sender, data := data } := by
  rcases logRec_cases s event unit sender data with k | ⟨a, b, k⟩ <;> rw [k]
  · rfl
  · rw [raise_log]; rfl

/-- A record takes one SEQ. -/
theorem rd_logRec_next (s : State) (event unit sender : Nat) (data : List Nat) :
    (s.logRec event unit sender data).rd R.LOG_NEXT_SEQ = (s.rd R.LOG_NEXT_SEQ + 1) % 2 ^ 32 := by
  rcases logRec_cases s event unit sender data with k | ⟨a, b, k⟩ <;> rw [k]
  · exact rd_wr_same _ _ _
  · rw [rd_raise_ne _ _ _ (by decide) (by decide), rd_wr_ne _ _ (by decide), rd_wr_ne _ _ (by decide)]
    exact rd_wr_same _ _ _

theorem rd_logRec_ne (s : State) (event unit sender : Nat) (data : List Nat) {g : Field} (h1 : g.key ≠ R.LOG_NEXT_SEQ.key)
    (h2 : g.key ≠ R.LOG_FIRST_SEQ.key) (h3 : g.key ≠ R.LOG_WRAPS_WRAPS.key) (h4 : g.key ≠ R.WCH_EVT_BITS.key) (hs : g.side = false) :
    (s.logRec event unit sender data).rd g = s.rd g := by
  rcases logRec_cases s event unit sender data with k | ⟨a, b, k⟩ <;> rw [k]
  · rw [rd_wr_ne _ _ h1]; rfl
  · rw [rd_raise_ne _ _ _ h4 hs, rd_wr_ne _ _ h3, rd_wr_ne _ _ h2, rd_wr_ne _ _ h1]; rfl

theorem logRec_out (s : State) (event unit sender : Nat) (data : List Nat) : s.out <:+ (s.logRec event unit sender data).out := by
  rcases logRec_cases s event unit sender data with k | ⟨a, b, k⟩ <;> rw [k]
  · exact List.suffix_refl _
  · exact raise_out ((((s.recorded event unit sender data).wr _ _).wr _ _).wr _ _) _ _

@[simp] theorem logRec_pending (s : State) (event unit sender : Nat) (data : List Nat) :
    (s.logRec event unit sender data).pending = s.pending := by
  rcases logRec_cases s event unit sender data with k | ⟨a, b, k⟩ <;> rw [k]
  · rfl
  · rw [raise_pending]; rfl
@[simp] theorem logRec_cycle (s : State) (event unit sender : Nat) (data : List Nat) :
    (s.logRec event unit sender data).cycle = s.cycle := by
  rcases logRec_cases s event unit sender data with k | ⟨a, b, k⟩ <;> rw [k]
  · rfl
  · rw [raise_cycle]; rfl
@[simp] theorem logRec_mem (s : State) (event unit sender : Nat) (data : List Nat) :
    (s.logRec event unit sender data).mem = s.mem := by
  rcases logRec_cases s event unit sender data with k | ⟨a, b, k⟩ <;> rw [k]
  · rfl
  · rw [raise_mem]; rfl
@[simp] theorem logRec_tick (s : State) (event unit sender : Nat) (data : List Nat) :
    (s.logRec event unit sender data).tick = s.tick := by
  rcases logRec_cases s event unit sender data with k | ⟨a, b, k⟩ <;> rw [k]
  · rfl
  · rw [raise_tick]; rfl
@[simp] theorem logRec_lanes (s : State) (event unit sender : Nat) (data : List Nat) :
    (s.logRec event unit sender data).lanes = s.lanes := by
  rcases logRec_cases s event unit sender data with k | ⟨a, b, k⟩ <;> rw [k]
  · rfl
  · rw [raise_lanes]; rfl
@[simp] theorem logRec_ens (s : State) (event unit sender : Nat) (data : List Nat) :
    (s.logRec event unit sender data).ens = s.ens := by
  rcases logRec_cases s event unit sender data with k | ⟨a, b, k⟩ <;> rw [k]
  · rfl
  · rw [raise_ens]; rfl
@[simp] theorem logRec_rfm (s : State) (event unit sender : Nat) (data : List Nat) :
    (s.logRec event unit sender data).rfm = s.rfm := by
  rcases logRec_cases s event unit sender data with k | ⟨a, b, k⟩ <;> rw [k]
  · rfl
  · rw [raise_rfm]; rfl
@[simp] theorem logRec_tim (s : State) (event unit sender : Nat) (data : List Nat) :
    (s.logRec event unit sender data).tim = s.tim := by
  rcases logRec_cases s event unit sender data with k | ⟨a, b, k⟩ <;> rw [k]
  · rfl
  · rw [raise_tim]; rfl
@[simp] theorem logRec_gnss (s : State) (event unit sender : Nat) (data : List Nat) :
    (s.logRec event unit sender data).gnss = s.gnss := by
  rcases logRec_cases s event unit sender data with k | ⟨a, b, k⟩ <;> rw [k]
  · rfl
  · rw [raise_gnss]; rfl
@[simp] theorem logRec_pct (s : State) (event unit sender : Nat) (data : List Nat) :
    (s.logRec event unit sender data).pct = s.pct := by
  rcases logRec_cases s event unit sender data with k | ⟨a, b, k⟩ <;> rw [k]
  · rfl
  · rw [raise_pct]; rfl
@[simp] theorem logRec_srv (s : State) (event unit sender : Nat) (data : List Nat) :
    (s.logRec event unit sender data).srv = s.srv := by
  rcases logRec_cases s event unit sender data with k | ⟨a, b, k⟩ <;> rw [k]
  · rfl
  · rw [raise_srv]; rfl
@[simp] theorem logRec_rings (s : State) (event unit sender : Nat) (data : List Nat) :
    (s.logRec event unit sender data).rings = s.rings := by
  rcases logRec_cases s event unit sender data with k | ⟨a, b, k⟩ <;> rw [k]
  · rfl
  · rw [raise_rings]; rfl
@[simp] theorem logRec_stack (s : State) (event unit sender : Nat) (data : List Nat) :
    (s.logRec event unit sender data).stack = s.stack := by
  rcases logRec_cases s event unit sender data with k | ⟨a, b, k⟩ <;> rw [k]
  · rfl
  · rw [raise_stack]; rfl
@[simp] theorem logRec_mbx (s : State) (event unit sender : Nat) (data : List Nat) :
    (s.logRec event unit sender data).mbx = s.mbx := by
  rcases logRec_cases s event unit sender data with k | ⟨a, b, k⟩ <;> rw [k]
  · rfl
  · rw [raise_mbx]; rfl
@[simp] theorem logRec_fw (s : State) (event unit sender : Nat) (data : List Nat) :
    (s.logRec event unit sender data).fw = s.fw := by
  rcases logRec_cases s event unit sender data with k | ⟨a, b, k⟩ <;> rw [k]
  · rfl
  · rw [raise_fw]; rfl
@[simp] theorem logRec_pcie (s : State) (event unit sender : Nat) (data : List Nat) :
    (s.logRec event unit sender data).pcie = s.pcie := by
  rcases logRec_cases s event unit sender data with k | ⟨a, b, k⟩ <;> rw [k]
  · rfl
  · rw [raise_pcie]; rfl
@[simp] theorem logRec_watch (s : State) (event unit sender : Nat) (data : List Nat) :
    (s.logRec event unit sender data).watch = s.watch := by
  rcases logRec_cases s event unit sender data with k | ⟨a, b, k⟩ <;> rw [k]
  · rfl
  · rw [raise_watch]; rfl
@[simp] theorem logRec_power (s : State) (event unit sender : Nat) (data : List Nat) :
    (s.logRec event unit sender data).power = s.power := by
  rcases logRec_cases s event unit sender data with k | ⟨a, b, k⟩ <;> rw [k]
  · rfl
  · rw [raise_power]; rfl
@[simp] theorem logRec_rst (s : State) (event unit sender : Nat) (data : List Nat) :
    (s.logRec event unit sender data).rst = s.rst := by
  rcases logRec_cases s event unit sender data with k | ⟨a, b, k⟩ <;> rw [k]
  · rfl
  · rw [raise_rst]; rfl
@[simp] theorem logRec_cfg (s : State) (event unit sender : Nat) (data : List Nat) :
    (s.logRec event unit sender data).cfg = s.cfg := by
  rcases logRec_cases s event unit sender data with k | ⟨a, b, k⟩ <;> rw [k]
  · rfl
  · rw [raise_cfg]; rfl

/-! ### Time -/

/-- Time passing counts, and moves the tick domain and the lanes. -/
theorem advance_counted (s : State) (m : Nat) : ∃ t, Counted s t ∧
    s.advance m = { t with tick := (s.advance m).tick, lanes := s.lanes.map (fun p => (p.1, p.2.run m)) } := by
  refine ⟨countTicks m s, counted_countTicks m s, ?_⟩
  unfold State.advance
  simp only [(counted_countTicks m s).lanes]

theorem rd_advance (s : State) (m : Nat) {g : Field} (h : g.side = false) : (s.advance m).rd g = s.rd g :=
  (counted_countTicks m s).rd g h

theorem advance_counts (s : State) (m : Nat) : CountsOnly s (s.advance m) := (counted_countTicks m s).counts

theorem advance_out (s : State) (m : Nat) : s.out <:+ (s.advance m).out := (counted_countTicks m s).out

@[simp] theorem advance_pending (s : State) (m : Nat) : (s.advance m).pending = s.pending := (counted_countTicks m s).pending
@[simp] theorem advance_mem (s : State) (m : Nat) : (s.advance m).mem = s.mem := (counted_countTicks m s).mem
@[simp] theorem advance_ens (s : State) (m : Nat) : (s.advance m).ens = s.ens := (counted_countTicks m s).ens
@[simp] theorem advance_rfm (s : State) (m : Nat) : (s.advance m).rfm = s.rfm := (counted_countTicks m s).rfm
@[simp] theorem advance_tim (s : State) (m : Nat) : (s.advance m).tim = s.tim := (counted_countTicks m s).tim
@[simp] theorem advance_gnss (s : State) (m : Nat) : (s.advance m).gnss = s.gnss := (counted_countTicks m s).gnss
@[simp] theorem advance_log (s : State) (m : Nat) : (s.advance m).log = s.log := (counted_countTicks m s).log
@[simp] theorem advance_srv (s : State) (m : Nat) : (s.advance m).srv = s.srv := (counted_countTicks m s).srv
@[simp] theorem advance_rings (s : State) (m : Nat) : (s.advance m).rings = s.rings := (counted_countTicks m s).rings
@[simp] theorem advance_stack (s : State) (m : Nat) : (s.advance m).stack = s.stack := (counted_countTicks m s).stack
@[simp] theorem advance_mbx (s : State) (m : Nat) : (s.advance m).mbx = s.mbx := (counted_countTicks m s).mbx
@[simp] theorem advance_fw (s : State) (m : Nat) : (s.advance m).fw = s.fw := (counted_countTicks m s).fw
@[simp] theorem advance_pcie (s : State) (m : Nat) : (s.advance m).pcie = s.pcie := (counted_countTicks m s).pcie
@[simp] theorem advance_watch (s : State) (m : Nat) : (s.advance m).watch = s.watch := (counted_countTicks m s).watch
@[simp] theorem advance_power (s : State) (m : Nat) : (s.advance m).power = s.power := (counted_countTicks m s).power
@[simp] theorem advance_rst (s : State) (m : Nat) : (s.advance m).rst = s.rst := (counted_countTicks m s).rst
@[simp] theorem advance_cfg (s : State) (m : Nat) : (s.advance m).cfg = s.cfg := (counted_countTicks m s).cfg

/-- Both counters as they stand after counting. -/
theorem Counted.stretch {s t : State} (h : Counted s t) : t.stretch = s.stretch := by
  unfold State.stretch State.on; rw [h.tick, h.rd _ (by decide)]

/-- What the passing of `m` ticks leaves in the tick domain (R46, R63). -/
@[simp] theorem advance_tick (s : State) (m : Nat) : (s.advance m).tick =
    { s.tick with
      count := s.tick.count + m, bank0 := s.tick.bank0.run m
      bank1 := if s.on R.TSC_CTL_TS1_EN then s.tick.bank1.run m else s.tick.bank1.follow s.tick.bank0 m
      trail := if m = 0 then s.tick.trail else s.stretch.note s.tick.trail } := by
  have k := counted_countTicks m s
  unfold State.advance; dsimp only; rw [k.stretch, k.tick]; rfl

end Sys2Proof.Machine
end

