-- ==== Sys2Proof/Laws/Frame.lean ====
section
/-! SUPPORT. How a frame composes, and what each shared operation adds to one. -/

namespace Sys2Proof.Machine

variable {fs : List Field} {ps : List Part} {s₀ s t : State}

theorem Frame.refl (fs : List Field) (ps : List Part) (s : State) : Frame fs ps s s :=
  ⟨fun _ _ _ => rfl, fun p _ _ => by cases p <;> first | rfl | exact fun _ => rfl | exact fun _ _ _ => rfl, CountsOnly.refl s,
    List.suffix_refl _, rfl⟩

theorem frame_begin (s : State) : Frame fs ps s s.begin := Frame.refl fs ps s

/-- A frame holds on a wider list. -/
theorem Frame.mono {gs : List Field} {qs : List Part} (h : Frame fs ps s t) (hf : ∀ f ∈ fs, f ∈ gs) (hp : ∀ p ∈ ps, p ∈ qs) :
    Frame gs qs s t :=
  ⟨fun f hg hs => h.1 f (fun g hm => hg g (hf g hm)) hs, fun p hq => h.2.1 p (fun hm => hq (hp p hm)), h.2.2⟩

theorem frame_ite {a b : State} {c : Prop} [Decidable c] (ha : Frame fs ps s₀ a) (hb : Frame fs ps s₀ b) :
    Frame fs ps s₀ (if c then a else b) := by split <;> assumption

theorem frame_foldl {α : Type} {f : State → α → State} {l : List α} (h : Frame fs ps s₀ s)
    (hf : ∀ s x, x ∈ l → Frame fs ps s₀ s → Frame fs ps s₀ (f s x)) : Frame fs ps s₀ (l.foldl f s) := by
  induction l generalizing s with
  | nil => exact h
  | cons x l ih => exact ih (hf s x List.mem_cons_self h) fun s y hy => hf s y (List.mem_cons_of_mem _ hy)

theorem frame_wr {f : Field} {v : Nat} (hf : f ∈ fs) (h : Frame fs ps s₀ s) : Frame fs ps s₀ (s.wr f v) :=
  ⟨fun g hg hs => (rd_wr_ne _ _ (hg f hf)).trans (h.1 g hg hs), fun p hp hr => by
    have := h.2.1 p hp hr
    cases p <;> first | exact this | (cases hr), h.2.2⟩

theorem frame_hi {f : Field} (hf : f ∈ fs) (h : Frame fs ps s₀ s) : Frame fs ps s₀ (s.hi f) := frame_wr hf h

theorem frame_lo {f : Field} (hf : f ∈ fs) (h : Frame fs ps s₀ s) : Frame fs ps s₀ (s.lo f) := frame_wr hf h

theorem frame_storeReg {l : Bool} {r : Register} {w : Nat} (hr : ∀ f ∈ r.fields, f.acc = .ro ∨ f.acc = .wo ∨ f.acc = .rc ∨ f.acc = .sc ∨ f ∈ fs)
    (h : Frame fs ps s₀ s) : Frame fs ps s₀ (s.storeReg l r w) := by
  unfold State.storeReg
  refine frame_foldl h fun s f hf h => ?_
  unfold State.storeField
  rcases hr f hf with e | e | e | e | e
  iterate 4 rw [e]; exact h
  repeat' first
    | exact h
    | exact frame_wr e h
    | split

theorem frame_msi {fn vec : Nat} (h : Frame fs ps s₀ s) : Frame fs ps s₀ (s.msi fn vec) :=
  ⟨fun g hg hs => (rd_msi _ _ _ hs).trans (h.1 g hg hs), fun p hp hr => by
    have := h.2.1 p hp hr
    cases p <;> first | (simp only [Part.same, msi_mem, msi_tick, msi_lanes, msi_ens, msi_rfm, msi_tim, msi_gnss, msi_log, msi_srv,
      msi_rings, msi_stack, msi_mbx, msi_fw, msi_pcie, msi_watch, msi_power, msi_rst, msi_cfg]; exact this) | (cases hr),
    h.2.2.1.trans (CountsOnly.of_pct (msi_pct _ _ _)), h.2.2.2.1.trans (msi_out _ _ _), (msi_pending _ _ _).trans h.2.2.2.2⟩

theorem frame_raise {e : EvtSrc} {m : Nat} (hf : e.ev ∈ fs) (h : Frame fs ps s₀ s) : Frame fs ps s₀ (s.raise e m) := by
  rcases raise_cases s e m with k | k <;> rw [k]
  · exact frame_wr hf h
  · exact frame_msi (frame_wr hf h)

theorem frame_counted {u : State} (h : Frame fs ps s₀ s) (k : Counted s u) : Frame fs ps s₀ u :=
  ⟨fun g hg hs => (k.rd g hs).trans (h.1 g hg hs), fun p hp hr => by
    have := h.2.1 p hp hr
    cases p <;> first | (simp only [Part.same, k.mem, k.tick, k.lanes, k.ens, k.rfm, k.tim, k.gnss, k.log, k.srv,
      k.rings, k.stack, k.mbx, k.fw, k.pcie, k.watch, k.power, k.rst, k.cfg]; exact this) | (cases hr),
    h.2.2.1.trans k.counts, h.2.2.2.1.trans k.out, k.pending.trans h.2.2.2.2⟩

theorem frame_count {event unit inc : Nat} (h : Frame fs ps s₀ s) : Frame fs ps s₀ (s.count event unit inc) :=
  frame_counted h (counted_count s event unit inc)

theorem frame_emit {o : Output} (h : Frame fs ps s₀ s) : Frame fs ps s₀ (s.emit o) :=
  ⟨h.1, fun p hp hr => by
    have := h.2.1 p hp hr
    cases p <;> exact this, h.2.2.1, h.2.2.2.1.trans (List.suffix_cons _ _), h.2.2.2.2⟩

theorem frame_logRec {event unit sender : Nat} {data : List Nat} (hf : ∀ f ∈ logFields, f ∈ fs) (hl : Part.log ∈ ps)
    (h : Frame fs ps s₀ s) : Frame fs ps s₀ (s.logRec event unit sender data) := by
  have hr : Frame fs ps s₀ (s.recorded event unit sender data) :=
    ⟨h.1, fun p hp hr => by
      have := h.2.1 p hp hr
      cases p <;> first | exact this | contradiction, h.2.2⟩
  have hw := frame_wr (v := s.rd R.LOG_NEXT_SEQ + 1) (hf R.LOG_NEXT_SEQ (by simp [logFields])) hr
  rcases logRec_cases s event unit sender data with k | ⟨a, b, k⟩ <;> rw [k]
  · exact hw
  · exact frame_raise (hf _ (by simp [logFields, Evt.wch])) (frame_wr (hf _ (by simp [logFields])) (frame_wr (hf _ (by simp [logFields])) hw))

theorem frame_advance {m : Nat} (ht : Part.tick ∈ ps) (hl : Part.lanes ∈ ps) (h : Frame fs ps s₀ s) : Frame fs ps s₀ (s.advance m) := by
  have k := frame_counted h (counted_countTicks m s)
  exact ⟨k.1, fun p hp hr => by
    have := k.2.1 p hp hr
    cases p <;> first | exact this | contradiction, k.2.2⟩

/-- Updates of one part of the state. -/
theorem frame_part {u : State} (p : Part) (hp : p ∈ ps) (hn : p.isRegs = false) (h : Frame fs ps s₀ s) (hr : u.regs = s.regs)
    (hs : ∀ q, q ≠ p → q.isRegs = false → q.same s u) (hc : u.pct = s.pct) (ho : u.out = s.out) (hq : u.pending = s.pending) :
    Frame fs ps s₀ u :=
  ⟨fun g hg hs => (show RegFile.get u.regs g = _ by rw [hr]; exact h.1 g hg hs), fun q hq hn => by
    have a := h.2.1 q hq hn
    have b := hs q (fun e => hq (e ▸ hp)) hn
    cases q <;> first | exact b.trans a | exact fun x => (b x).trans (a x) | (cases hn),
    h.2.2.1.trans (CountsOnly.of_pct hc), by rw [ho]; exact h.2.2.2.1, hq.trans h.2.2.2.2⟩

/-- How a command ends: it goes on, every register but the counters' own reads as its effect leaves it, every part of the state is as
its effect leaves it, and its frame is its effect's frame. -/
theorem go_spec (f : State → State) (s : State) : ∃ t, go f s = .next t ∧
    (∀ g : Field, g.side = false → t.rd g = (f s.begin).rd g) ∧ (∀ p : Part, p.isRegs = false → p.same (f s.begin) t) ∧
    (∀ fs ps, Frame fs ps s (f s.begin) → Frame fs ps s t) ∧ (f s.begin).out <:+ t.out := by
  obtain ⟨t, e, k⟩ := go_next f s
  refine ⟨_, e, k.rd, fun p hr => ?_, fun fs ps h => ?_, k.out⟩
  · have h := frame_counted (Frame.refl [] [] (f s.begin)) k
    have := h.2.1 p (List.not_mem_nil) hr
    cases p <;> exact this
  · have hk := frame_counted h k
    refine ⟨hk.1, fun p hp hr => ?_, hk.2.2.1, hk.2.2.2.1, rfl⟩
    have := hk.2.1 p hp hr
    cases p <;> exact this

end Sys2Proof.Machine
end

