-- ==== Sys2Proof/Laws/TouchesEnsemble.lean ====
section
/-! SUPPORT. What the operations of the ensemble touch: one lemma per operation. -/

namespace Sys2Proof.Machine

theorem touches_State_modSlot {ps : List Part} {s₀ : State} (s : State) (i : Nat) (f : Slot → Slot) (hens : Part.ens ∈ ps) (h : Touches ps s₀ s) :
    Touches ps s₀ (State.modSlot s i f) := by
  unfold State.modSlot
  with_reducible repeat' first
    | assumption
    | intro _
    | apply touches_ite
    | dsimp only
    | split
    | apply touches_set_ens

theorem touches_State_modFilter {ps : List Part} {s₀ : State} (s : State) (b : Bank) (f : Filter → Filter) (hens : Part.ens ∈ ps) (h : Touches ps s₀ s) :
    Touches ps s₀ (State.modFilter s b f) := by
  unfold State.modFilter
  with_reducible repeat' first
    | assumption
    | intro _
    | apply touches_ite
    | dsimp only
    | split
    | apply touches_set_ens

theorem touches_setQual {ps : List Part} {s₀ : State} (i : Nat) (s : State) (rens : Part.regs .ens ∈ ps) (h : Touches ps s₀ s) :
    Touches ps s₀ (setQual i s) := by
  unfold setQual
  with_reducible repeat' first
    | assumption
    | intro _
    | apply touches_State_wr
    | apply touches_ite
    | exact has_R_ENS_STAT_QUAL

theorem touches_noteTimeLeft {ps : List Part} {s₀ : State} (b : Bank) (before : Bool) (s : State) (hens : Part.ens ∈ ps) (h : Touches ps s₀ s) :
    Touches ps s₀ (noteTimeLeft b before s) := by
  unfold noteTimeLeft
  with_reducible repeat' first
    | assumption
    | intro _
    | apply touches_State_modFilter
    | apply touches_ite

theorem touches_setSrcBy {ps : List Part} {s₀ : State} (sender : Nat) (i : Nat) (dest : Src) (cause : Option Cause) (s : State) (hens : Part.ens ∈ ps) (hlog : Part.log ∈ ps) (rens : Part.regs .ens ∈ ps) (rwch : Part.regs .wch ∈ ps) (h : Touches ps s₀ s) :
    Touches ps s₀ (setSrcBy sender i dest cause s) := by
  unfold setSrcBy
  with_reducible repeat' first
    | assumption
    | intro _
    | apply touches_setQual
    | apply touches_State_modSlot
    | apply touches_State_logRec
    | apply touches_noteTimeLeft
    | apply touches_State_wr
    | apply touches_State_lo
    | apply touches_State_raise
    | apply touches_ite
    | exact has_R_ENS_SLOT_STAT_CAUSE _
    | exact has_R_ENS_SLOT_STAT_STATE _
    | exact has_R_ENS_SLOT_STAT_HELD _
    | exact has_R_ENS_SLOT_STAT_REEST _
    | exact has_Evt_ens
    | dsimp only
    | split

theorem touches_setSrc {ps : List Part} {s₀ : State} (i : Nat) (dest : Src) (cause : Option Cause) (s : State) (hens : Part.ens ∈ ps) (hlog : Part.log ∈ ps) (rens : Part.regs .ens ∈ ps) (rwch : Part.regs .wch ∈ ps) (h : Touches ps s₀ s) :
    Touches ps s₀ (setSrc i dest cause s) := by
  unfold setSrc
  with_reducible repeat' first
    | assumption
    | intro _
    | apply touches_setSrcBy

theorem touches_restartClock {ps : List Part} {s₀ : State} (i : Nat) (s : State) (hens : Part.ens ∈ ps) (h : Touches ps s₀ s) :
    Touches ps s₀ (restartClock i s) := by
  unfold restartClock
  with_reducible repeat' first
    | assumption
    | intro _
    | apply touches_State_modSlot

theorem touches_enterSuspect {ps : List Part} {s₀ : State} (sender : Nat) (i : Nat) (cause : Cause) (s : State) (hens : Part.ens ∈ ps) (hlog : Part.log ∈ ps) (rens : Part.regs .ens ∈ ps) (rwch : Part.regs .wch ∈ ps) (h : Touches ps s₀ s) :
    Touches ps s₀ (enterSuspect sender i cause s) := by
  unfold enterSuspect
  with_reducible repeat' first
    | assumption
    | intro _
    | apply touches_setSrcBy
    | apply touches_State_modSlot
    | apply touches_setSrc
    | apply touches_State_wr
    | apply touches_ite
    | exact has_R_ENS_SLOT_HIST_SUSP _

theorem touches_deliver {ps : List Part} {s₀ : State} (i : Nat) (p : Stamp) (x : Int) (dly : Int) (spoof : Bool) (s : State) (hens : Part.ens ∈ ps) (h : Touches ps s₀ s) :
    Touches ps s₀ (deliver i p x dly spoof s) := by
  unfold deliver
  with_reducible repeat' first
    | assumption
    | intro _
    | apply touches_State_modSlot

theorem touches_takeDelay {ps : List Part} {s₀ : State} (i : Nat) (dly : Int) (s : State) (hens : Part.ens ∈ ps) (rens : Part.regs .ens ∈ ps) (h : Touches ps s₀ s) :
    Touches ps s₀ (takeDelay i dly s) := by
  unfold takeDelay
  with_reducible repeat' first
    | assumption
    | intro _
    | apply touches_State_modSlot
    | apply touches_State_wr
    | apply touches_ite
    | exact has_R_ENS_SLOT_DLY_DLY _

theorem touches_dropWords {ps : List Part} {s₀ : State} (s : State) (hens : Part.ens ∈ ps) (h : Touches ps s₀ s) :
    Touches ps s₀ (dropWords s) := by
  unfold dropWords
  with_reducible repeat' first
    | assumption
    | intro _
    | dsimp only
    | split
    | apply touches_set_ens

theorem touches_tellEng {ps : List Part} {s₀ : State} (sender : Nat) (b : Bank) (old : Eng) (s : State) (hlog : Part.log ∈ ps) (rens : Part.regs .ens ∈ ps) (rwch : Part.regs .wch ∈ ps) (h : Touches ps s₀ s) :
    Touches ps s₀ (tellEng sender b old s) := by
  unfold tellEng
  with_reducible repeat' first
    | assumption
    | intro _
    | apply touches_State_logRec
    | apply touches_State_raise
    | exact has_Evt_ens
    | dsimp only
    | split

theorem touches_setEngBy {ps : List Part} {s₀ : State} (sender : Nat) (b : Bank) (dest : Eng) (s : State) (hlog : Part.log ∈ ps) (rens : Part.regs .ens ∈ ps) (rwch : Part.regs .wch ∈ ps) (h : Touches ps s₀ s) :
    Touches ps s₀ (setEngBy sender b dest s) := by
  unfold setEngBy
  with_reducible repeat' first
    | assumption
    | intro _
    | apply touches_tellEng
    | apply touches_State_wr
    | apply touches_ite
    | exact has_engField _

theorem touches_setEng {ps : List Part} {s₀ : State} (b : Bank) (dest : Eng) (s : State) (hlog : Part.log ∈ ps) (rens : Part.regs .ens ∈ ps) (rwch : Part.regs .wch ∈ ps) (h : Touches ps s₀ s) :
    Touches ps s₀ (setEng b dest s) := by
  unfold setEng
  with_reducible repeat' first
    | assumption
    | intro _
    | apply touches_setEngBy

theorem touches_settlePhase {ps : List Part} {s₀ : State} (b : Bank) (s : State) (htick : Part.tick ∈ ps) (h : Touches ps s₀ s) :
    Touches ps s₀ (settlePhase b s) := by
  unfold settlePhase
  with_reducible repeat' first
    | assumption
    | intro _
    | apply touches_State_modBank

theorem touches_startFilter {ps : List Part} {s₀ : State} (b : Bank) (theta : Rat) (s : State) (htick : Part.tick ∈ ps) (hens : Part.ens ∈ ps) (h : Touches ps s₀ s) :
    Touches ps s₀ (startFilter b theta s) := by
  unfold startFilter
  with_reducible repeat' first
    | assumption
    | intro _
    | apply touches_State_modFilter
    | apply touches_settlePhase
    | apply touches_ite
    | dsimp only
    | split
    | apply touches_set_ens

theorem touches_enterHoldover {ps : List Part} {s₀ : State} (sender : Nat) (b : Bank) (s : State) (hens : Part.ens ∈ ps) (hlog : Part.log ∈ ps) (rens : Part.regs .ens ∈ ps) (rwch : Part.regs .wch ∈ ps) (h : Touches ps s₀ s) :
    Touches ps s₀ (enterHoldover sender b s) := by
  unfold enterHoldover
  with_reducible repeat' first
    | assumption
    | intro _
    | apply touches_State_modFilter
    | apply touches_setEngBy

theorem touches_enterTracking {ps : List Part} {s₀ : State} (sender : Nat) (b : Bank) (s : State) (hens : Part.ens ∈ ps) (hlog : Part.log ∈ ps) (rens : Part.regs .ens ∈ ps) (rwch : Part.regs .wch ∈ ps) (h : Touches ps s₀ s) :
    Touches ps s₀ (enterTracking sender b s) := by
  unfold enterTracking
  with_reducible repeat' first
    | assumption
    | intro _
    | apply touches_setEngBy
    | apply touches_State_modFilter

theorem touches_startReestBy {ps : List Part} {s₀ : State} (sender : Nat) (i : Nat) (s : State) (hens : Part.ens ∈ ps) (rens : Part.regs .ens ∈ ps) (h : Touches ps s₀ s) :
    Touches ps s₀ (startReestBy sender i s) := by
  unfold startReestBy
  with_reducible repeat' first
    | assumption
    | intro _
    | apply touches_State_modSlot
    | apply touches_State_hi
    | exact has_R_ENS_SLOT_STAT_REEST _

theorem touches_startReest {ps : List Part} {s₀ : State} (i : Nat) (s : State) (hens : Part.ens ∈ ps) (rens : Part.regs .ens ∈ ps) (h : Touches ps s₀ s) :
    Touches ps s₀ (startReest i s) := by
  unfold startReest
  with_reducible repeat' first
    | assumption
    | intro _
    | apply touches_startReestBy

theorem touches_beginReest {ps : List Part} {s₀ : State} (sender : Nat) (i : Nat) (s : State) (hens : Part.ens ∈ ps) (hlog : Part.log ∈ ps) (rens : Part.regs .ens ∈ ps) (rwch : Part.regs .wch ∈ ps) (h : Touches ps s₀ s) :
    Touches ps s₀ (beginReest sender i s) := by
  unfold beginReest
  with_reducible repeat' first
    | assumption
    | intro _
    | apply touches_startReestBy
    | apply touches_enterSuspect
    | dsimp only
    | split

theorem touches_markAsym {ps : List Part} {s₀ : State} (i : Nat) (s : State) (rens : Part.regs .ens ∈ ps) (h : Touches ps s₀ s) :
    Touches ps s₀ (markAsym i s) := by
  unfold markAsym
  with_reducible repeat' first
    | assumption
    | intro _
    | apply touches_State_raise
    | apply touches_State_hi
    | apply touches_ite
    | exact has_Evt_ens
    | exact has_R_ENS_SLOT_STAT_ASYM_SUSPECT _

theorem touches_pathDelayStep {ps : List Part} {s₀ : State} (qs : List Nat) (i : Nat) (s : State) (hens : Part.ens ∈ ps) (hlog : Part.log ∈ ps) (rens : Part.regs .ens ∈ ps) (rwch : Part.regs .wch ∈ ps) (h : Touches ps s₀ s) :
    Touches ps s₀ (pathDelayStep qs i s) := by
  unfold pathDelayStep
  with_reducible repeat' first
    | assumption
    | intro _
    | apply touches_startReest
    | apply touches_enterSuspect
    | apply touches_markAsym
    | apply touches_restartClock
    | apply touches_ite
    | dsimp only
    | split

theorem touches_endReest {ps : List Part} {s₀ : State} (i : Nat) (s : State) (hens : Part.ens ∈ ps) (hlog : Part.log ∈ ps) (rens : Part.regs .ens ∈ ps) (rwch : Part.regs .wch ∈ ps) (h : Touches ps s₀ s) :
    Touches ps s₀ (endReest i s) := by
  unfold endReest
  with_reducible repeat' first
    | assumption
    | intro _
    | apply touches_State_modSlot
    | apply touches_State_logRec
    | apply touches_setSrc
    | apply touches_restartClock
    | apply touches_State_wr
    | apply touches_State_lo
    | apply touches_ite
    | exact has_R_ENS_SLOT_ASYM_A _
    | exact has_R_ENS_SLOT_STAT_REEST _
    | exact has_R_ENS_SLOT_STAT_ASYM_SUSPECT _

theorem touches_reestComplete {ps : List Part} {s₀ : State} (i : Nat) (s : State) (hens : Part.ens ∈ ps) (hlog : Part.log ∈ ps) (rens : Part.regs .ens ∈ ps) (rwch : Part.regs .wch ∈ ps) (h : Touches ps s₀ s) :
    Touches ps s₀ (reestComplete i s) := by
  unfold reestComplete
  with_reducible repeat' first
    | assumption
    | intro _
    | apply touches_endReest
    | apply touches_ite

theorem touches_slotLoss {ps : List Part} {s₀ : State} (i : Nat) (s : State) (hens : Part.ens ∈ ps) (hlog : Part.log ∈ ps) (rens : Part.regs .ens ∈ ps) (rwch : Part.regs .wch ∈ ps) (h : Touches ps s₀ s) :
    Touches ps s₀ (slotLoss i s) := by
  unfold slotLoss
  with_reducible repeat' first
    | assumption
    | intro _
    | apply touches_setSrc
    | apply touches_ite

theorem touches_carryExpire {ps : List Part} {s₀ : State} (b : Bank) (i : Nat) (s : State) (hens : Part.ens ∈ ps) (hlog : Part.log ∈ ps) (rens : Part.regs .ens ∈ ps) (rwch : Part.regs .wch ∈ ps) (h : Touches ps s₀ s) :
    Touches ps s₀ (carryExpire b i s) := by
  unfold carryExpire
  with_reducible repeat' first
    | assumption
    | intro _
    | apply touches_setSrc
    | apply touches_ite

theorem touches_withdraw {ps : List Part} {s₀ : State} (i : Nat) (s : State) (hens : Part.ens ∈ ps) (hlog : Part.log ∈ ps) (rens : Part.regs .ens ∈ ps) (rwch : Part.regs .wch ∈ ps) (h : Touches ps s₀ s) :
    Touches ps s₀ (withdraw i s) := by
  unfold withdraw
  with_reducible repeat' first
    | assumption
    | intro _
    | apply touches_State_modSlot
    | apply touches_setSrc
    | apply touches_ite

theorem touches_holdSlots {ps : List Part} {s₀ : State} (b : Bank) (is : List Nat) (m : Rat) (s : State) (hens : Part.ens ∈ ps) (hlog : Part.log ∈ ps) (rens : Part.regs .ens ∈ ps) (rwch : Part.regs .wch ∈ ps) (h : Touches ps s₀ s) :
    Touches ps s₀ (holdSlots b is m s) := by
  unfold holdSlots
  with_reducible repeat' first
    | assumption
    | intro _
    | apply touches_State_hi
    | apply touches_State_modFilter
    | apply touches_State_logRec
    | apply touches_State_raise
    | apply touches_ite
    | apply touches_foldl
    | exact has_Evt_ens
    | exact has_R_ENS_SLOT_STAT_HELD _
    | exact has_pendField _

theorem touches_endHold {ps : List Part} {s₀ : State} (b : Bank) (s : State) (rens : Part.regs .ens ∈ ps) (h : Touches ps s₀ s) :
    Touches ps s₀ (endHold b s) := by
  unfold endHold
  with_reducible repeat' first
    | assumption
    | intro _
    | apply touches_State_lo
    | apply touches_ite
    | apply touches_foldl
    | exact has_R_ENS_SLOT_STAT_HELD _
    | exact has_pendField _

theorem touches_judgeReady {ps : List Part} {s₀ : State} (b : Bank) (qs : List Nat) (s : State) (hens : Part.ens ∈ ps) (hlog : Part.log ∈ ps) (rens : Part.regs .ens ∈ ps) (rwch : Part.regs .wch ∈ ps) (h : Touches ps s₀ s) :
    Touches ps s₀ (judgeReady b qs s) := by
  unfold judgeReady
  with_reducible repeat' first
    | assumption
    | intro _
    | apply touches_endHold
    | apply touches_holdSlots
    | apply touches_State_lo
    | apply touches_setSrc
    | apply touches_ite
    | apply touches_foldl
    | exact has_R_ENS_SLOT_STAT_HELD _

theorem touches_qualifyOne {ps : List Part} {s₀ : State} (b : Bank) (i : Nat) (s : State) (hens : Part.ens ∈ ps) (hlog : Part.log ∈ ps) (rens : Part.regs .ens ∈ ps) (rwch : Part.regs .wch ∈ ps) (h : Touches ps s₀ s) :
    Touches ps s₀ (qualifyOne b i s) := by
  unfold qualifyOne
  with_reducible repeat' first
    | assumption
    | intro _
    | apply touches_holdSlots
    | apply touches_setSrc
    | apply touches_ite

theorem touches_slotQualify {ps : List Part} {s₀ : State} (b : Bank) (i : Nat) (s : State) (hens : Part.ens ∈ ps) (hlog : Part.log ∈ ps) (rens : Part.regs .ens ∈ ps) (rwch : Part.regs .wch ∈ ps) (h : Touches ps s₀ s) :
    Touches ps s₀ (slotQualify b i s) := by
  unfold slotQualify
  with_reducible repeat' first
    | assumption
    | intro _
    | apply touches_qualifyOne
    | apply touches_ite

theorem touches_slotConsistent {ps : List Part} {s₀ : State} (b : Bank) (i : Nat) (s : State) (hens : Part.ens ∈ ps) (hlog : Part.log ∈ ps) (rens : Part.regs .ens ∈ ps) (rwch : Part.regs .wch ∈ ps) (h : Touches ps s₀ s) :
    Touches ps s₀ (slotConsistent b i s) := by
  unfold slotConsistent
  with_reducible repeat' first
    | assumption
    | intro _
    | apply touches_qualifyOne
    | apply touches_ite

theorem touches_forgetBias {ps : List Part} {s₀ : State} (i : Nat) (s : State) (hens : Part.ens ∈ ps) (rens : Part.regs .ens ∈ ps) (h : Touches ps s₀ s) :
    Touches ps s₀ (forgetBias i s) := by
  unfold forgetBias
  with_reducible repeat' first
    | assumption
    | intro _
    | apply touches_State_modSlot
    | apply touches_State_lo
    | apply touches_ite
    | exact has_R_ENS_SLOT_STAT_BIAS_OK _

theorem touches_biasOrder1 {ps : List Part} {s₀ : State} (i : Nat) (s : State) (hens : Part.ens ∈ ps) (rens : Part.regs .ens ∈ ps) (h : Touches ps s₀ s) :
    Touches ps s₀ (biasOrder1 i s) := by
  unfold biasOrder1
  with_reducible repeat' first
    | assumption
    | intro _
    | apply touches_State_modSlot
    | apply touches_State_wr
    | apply touches_ite
    | exact has_R_ENS_SLOT_STAT_BIAS_OK _

theorem touches_slotOrder1 {ps : List Part} {s₀ : State} (i : Nat) (s : State) (hens : Part.ens ∈ ps) (hlog : Part.log ∈ ps) (rens : Part.regs .ens ∈ ps) (rwch : Part.regs .wch ∈ ps) (h : Touches ps s₀ s) :
    Touches ps s₀ (slotOrder1 i s) := by
  unfold slotOrder1
  with_reducible repeat' first
    | assumption
    | intro _
    | apply touches_setSrcBy
    | apply touches_forgetBias
    | apply touches_State_modSlot
    | apply touches_noteTimeLeft
    | apply touches_restartClock
    | apply touches_beginReest
    | apply touches_biasOrder1
    | apply touches_withdraw
    | apply touches_State_lo
    | apply touches_ite
    | exact has_R_ENS_SLOT_STAT_HELD _
    | exact has_R_ENS_SLOT_STAT_ASYM_SUSPECT _
    | exact has_R_ENS_SLOT_CMD_RELEASE _
    | exact has_R_ENS_SLOT_CMD_QUARANTINE _
    | exact has_R_ENS_SLOT_CMD_CLR_ASYM _
    | exact has_R_ENS_SLOT_CMD_RELEARN _

theorem touches_decideOrder1 {ps : List Part} {s₀ : State} (s : State) (hens : Part.ens ∈ ps) (hlog : Part.log ∈ ps) (rens : Part.regs .ens ∈ ps) (rwch : Part.regs .wch ∈ ps) (h : Touches ps s₀ s) :
    Touches ps s₀ (decideOrder1 s) := by
  unfold decideOrder1
  with_reducible repeat' first
    | assumption
    | intro _
    | apply touches_setSrcBy
    | apply touches_endHold
    | apply touches_enterTracking
    | apply touches_State_modFilter
    | apply touches_State_hi
    | apply touches_State_lo
    | apply touches_foldl
    | apply touches_ite
    | exact has_R_ENS_DECIDE_GO
    | exact has_R_ENS_DECIDE_REFUSED
    | exact has_R_ENS_DECIDE_DONE

theorem touches_setAnchor {ps : List Part} {s₀ : State} (c : Nat) (s : State) (hens : Part.ens ∈ ps) (rens : Part.regs .ens ∈ ps) (h : Touches ps s₀ s) :
    Touches ps s₀ (setAnchor c s) := by
  unfold setAnchor
  with_reducible repeat' first
    | assumption
    | intro _
    | apply touches_dropWords
    | apply touches_State_wr
    | apply touches_State_lo
    | apply touches_State_raise
    | apply touches_ite
    | exact has_R_ENS_ANCHOR_HOLD
    | exact has_R_ENS_ANCHOR_ACTIVE
    | exact has_Evt_ens
    | dsimp only
    | split
    | apply touches_set_ens

theorem touches_anchorOrder1 {ps : List Part} {s₀ : State} (s : State) (hens : Part.ens ∈ ps) (rens : Part.regs .ens ∈ ps) (h : Touches ps s₀ s) :
    Touches ps s₀ (anchorOrder1 s) := by
  unfold anchorOrder1
  with_reducible repeat' first
    | assumption
    | intro _
    | apply touches_setAnchor
    | apply touches_ite
    | dsimp only
    | split
    | apply touches_set_ens

theorem touches_anchorFrom {ps : List Part} {s₀ : State} (c : Nat) (s : State) (hens : Part.ens ∈ ps) (h : Touches ps s₀ s) :
    Touches ps s₀ (anchorFrom c s) := by
  unfold anchorFrom
  with_reducible repeat' first
    | assumption
    | intro _
    | apply touches_ite
    | dsimp only
    | split
    | apply touches_set_ens

theorem touches_anchorHold {ps : List Part} {s₀ : State} (s : State) (hens : Part.ens ∈ ps) (rens : Part.regs .ens ∈ ps) (h : Touches ps s₀ s) :
    Touches ps s₀ (anchorHold s) := by
  unfold anchorHold
  with_reducible repeat' first
    | assumption
    | intro _
    | apply touches_anchorFrom
    | apply touches_State_hi
    | apply touches_ite
    | exact has_R_ENS_ANCHOR_HOLD

theorem touches_anchorReturn {ps : List Part} {s₀ : State} (s : State) (htick : Part.tick ∈ ps) (hlanes : Part.lanes ∈ ps) (hens : Part.ens ∈ ps) (rens : Part.regs .ens ∈ ps) (h : Touches ps s₀ s) :
    Touches ps s₀ (anchorReturn s) := by
  unfold anchorReturn
  with_reducible repeat' first
    | assumption
    | intro _
    | apply touches_State_waitClk
    | apply touches_setAnchor
    | apply touches_ite
    | dsimp only
    | split
    | apply touches_set_ens

theorem touches_takeSample {ps : List Part} {s₀ : State} (qs : List Nat) (i : Nat) (theta : Rat) (stepped : Bool) (s : State) (q : Sample) (hens : Part.ens ∈ ps) (hlog : Part.log ∈ ps) (rens : Part.regs .ens ∈ ps) (rwch : Part.regs .wch ∈ ps) (h : Touches ps s₀ s) :
    Touches ps s₀ (takeSample qs i theta stepped s q).1 := by
  unfold takeSample
  with_reducible repeat' first
    | assumption
    | intro _
    | apply touches_setSrc
    | apply touches_State_modSlot
    | apply touches_takeDelay
    | apply touches_State_wr
    | apply touches_ite
    | exact has_R_ENS_SLOT_OFS_X _

theorem touches_takeSamples {ps : List Part} {s₀ : State} (qs : List Nat) (i : Nat) (theta : Rat) (s : State) (hens : Part.ens ∈ ps) (hlog : Part.log ∈ ps) (rens : Part.regs .ens ∈ ps) (rwch : Part.regs .wch ∈ ps) (h : Touches ps s₀ s) :
    Touches ps s₀ (takeSamples qs i theta s).1 := by
  unfold takeSamples
  with_reducible repeat' first
    | assumption
    | intro _
    | apply touches_State_modSlot
    | apply touches_takeSample
    | apply touches_foldl
    | apply touches_ite
    | apply touches_foldl_fst
    | dsimp only
    | split

theorem touches_judgeSlot {ps : List Part} {s₀ : State} (b : Bank) (qs : List Nat) (theta : Rat) (cs : List Contribution) (s : State) (iv : Nat × List Verdict) (hens : Part.ens ∈ ps) (hlog : Part.log ∈ ps) (rens : Part.regs .ens ∈ ps) (rwch : Part.regs .wch ∈ ps) (h : Touches ps s₀ s) :
    Touches ps s₀ (judgeSlot b qs theta cs s iv) := by
  unfold judgeSlot
  with_reducible repeat' first
    | assumption
    | intro _
    | apply touches_pathDelayStep
    | apply touches_State_modSlot
    | apply touches_setSrc
    | apply touches_enterSuspect
    | apply touches_restartClock
    | apply touches_State_raise
    | apply touches_ite
    | exact has_Evt_ens
    | dsimp only
    | split

theorem touches_pushHist {ps : List Part} {s₀ : State} (cs : List Contribution) (s : State) (iv : Nat × List Verdict) (hens : Part.ens ∈ ps) (h : Touches ps s₀ s) :
    Touches ps s₀ (pushHist cs s iv) := by
  unfold pushHist
  with_reducible repeat' first
    | assumption
    | intro _
    | apply touches_State_modSlot

theorem touches_finishHist {ps : List Part} {s₀ : State} (cs : List Contribution) (s : State) (iv : Nat × List Verdict) (hens : Part.ens ∈ ps) (h : Touches ps s₀ s) :
    Touches ps s₀ (finishHist cs s iv) := by
  unfold finishHist
  with_reducible repeat' first
    | assumption
    | intro _
    | apply touches_State_modSlot

theorem touches_publishWeights {ps : List Part} {s₀ : State} (b : Bank) (cs : List Contribution) (s : State) (rens : Part.regs .ens ∈ ps) (h : Touches ps s₀ s) :
    Touches ps s₀ (publishWeights b cs s) := by
  unfold publishWeights
  with_reducible repeat' first
    | assumption
    | intro _
    | apply touches_State_wr
    | apply touches_State_lo
    | apply touches_ite
    | apply touches_foldl
    | exact has_R_ENS_SLOT_WEIGHT_W _
    | dsimp only
    | split

theorem touches_chooseLead {ps : List Part} {s₀ : State} (b : Bank) (s : State) (hens : Part.ens ∈ ps) (h : Touches ps s₀ s) :
    Touches ps s₀ (chooseLead b s) := by
  unfold chooseLead
  with_reducible repeat' first
    | assumption
    | intro _
    | apply touches_State_modFilter
    | apply touches_ite
    | dsimp only
    | split

theorem touches_learnBias {ps : List Part} {s₀ : State} (b : Bank) (s : State) (iv : Nat × List Verdict) (hens : Part.ens ∈ ps) (rens : Part.regs .ens ∈ ps) (h : Touches ps s₀ s) :
    Touches ps s₀ (learnBias b s iv) := by
  unfold learnBias
  with_reducible repeat' first
    | assumption
    | intro _
    | apply touches_State_modSlot
    | apply touches_State_wr
    | apply touches_State_hi
    | apply touches_foldl
    | apply touches_ite
    | apply touches_foldl_fst
    | exact has_R_ENS_SLOT_BIAS_B _
    | exact has_R_ENS_SLOT_BIAS_HI_B _
    | exact has_R_ENS_SLOT_STAT_BIAS_OK _
    | dsimp only
    | split

theorem touches_leaveUnset {ps : List Part} {s₀ : State} (b : Bank) (s : State) (htick : Part.tick ∈ ps) (hens : Part.ens ∈ ps) (hlog : Part.log ∈ ps) (rtsc : Part.regs .tsc ∈ ps) (rens : Part.regs .ens ∈ ps) (rwch : Part.regs .wch ∈ ps) (h : Touches ps s₀ s) :
    Touches ps s₀ (leaveUnset b s) := by
  unfold leaveUnset
  with_reducible repeat' first
    | assumption
    | intro _
    | apply touches_setEng
    | apply touches_startFilter
    | apply touches_pendStep
    | apply touches_foldl
    | apply touches_ite
    | dsimp only
    | split

theorem touches_engineOrder7 {ps : List Part} {s₀ : State} (b : Bank) (s : State) (htick : Part.tick ∈ ps) (hens : Part.ens ∈ ps) (hlog : Part.log ∈ ps) (rtsc : Part.regs .tsc ∈ ps) (rens : Part.regs .ens ∈ ps) (rwch : Part.regs .wch ∈ ps) (h : Touches ps s₀ s) :
    Touches ps s₀ (engineOrder7 b s) := by
  unfold engineOrder7
  with_reducible repeat' first
    | assumption
    | intro _
    | apply touches_leaveUnset
    | apply touches_State_modFilter
    | apply touches_enterTracking
    | apply touches_enterHoldover
    | apply touches_setEng
    | apply touches_ite
    | dsimp only
    | split

theorem touches_steerIncr {ps : List Part} {s₀ : State} (b : Bank) (s : State) (htick : Part.tick ∈ ps) (hens : Part.ens ∈ ps) (rtsc : Part.regs .tsc ∈ ps) (rens : Part.regs .ens ∈ ps) (h : Touches ps s₀ s) :
    Touches ps s₀ (steerIncr b s) := by
  unfold steerIncr
  with_reducible repeat' first
    | assumption
    | intro _
    | apply touches_State_modFilter
    | apply touches_applyIncr
    | apply touches_State_modBank
    | apply touches_State_raise
    | apply touches_ite
    | exact has_Evt_ens

theorem touches_steerPhase {ps : List Part} {s₀ : State} (b : Bank) (s : State) (htick : Part.tick ∈ ps) (rtsc : Part.regs .tsc ∈ ps) (h : Touches ps s₀ s) :
    Touches ps s₀ (steerPhase b s) := by
  unfold steerPhase
  with_reducible repeat' first
    | assumption
    | intro _
    | apply touches_slewGo
    | apply touches_pendStep
    | apply touches_ite

theorem touches_steer {ps : List Part} {s₀ : State} (b : Bank) (s : State) (htick : Part.tick ∈ ps) (hens : Part.ens ∈ ps) (rtsc : Part.regs .tsc ∈ ps) (rens : Part.regs .ens ∈ ps) (h : Touches ps s₀ s) :
    Touches ps s₀ (steer b s) := by
  unfold steer
  with_reducible repeat' first
    | assumption
    | intro _
    | apply touches_State_modFilter
    | apply touches_steerPhase
    | apply touches_steerIncr
    | apply touches_ite

theorem touches_publish {ps : List Part} {s₀ : State} (s : State) (hens : Part.ens ∈ ps) (rens : Part.regs .ens ∈ ps) (h : Touches ps s₀ s) :
    Touches ps s₀ (publish s) := by
  unfold publish
  with_reducible repeat' first
    | assumption
    | intro _
    | apply touches_State_wr
    | apply touches_ite
    | exact has_R_ENS_ERR_ERR
    | dsimp only
    | split
    | apply touches_set_ens

theorem touches_stepLeavesUnset {ps : List Part} {s₀ : State} (b : Bank) (by_ : Nat) (s : State) (htick : Part.tick ∈ ps) (hens : Part.ens ∈ ps) (hlog : Part.log ∈ ps) (rens : Part.regs .ens ∈ ps) (rwch : Part.regs .wch ∈ ps) (h : Touches ps s₀ s) :
    Touches ps s₀ (stepLeavesUnset b by_ s) := by
  unfold stepLeavesUnset
  with_reducible repeat' first
    | assumption
    | intro _
    | apply touches_publish
    | apply touches_setEngBy
    | apply touches_startFilter
    | apply touches_ite

theorem touches_publishFilter {ps : List Part} {s₀ : State} (b : Bank) (y : Rat) (s : State) (rens : Part.regs .ens ∈ ps) (h : Touches ps s₀ s) :
    Touches ps s₀ (publishFilter b y s) := by
  unfold publishFilter
  with_reducible repeat' first
    | assumption
    | intro _
    | apply touches_State_wr
    | apply touches_ite
    | exact has_R_ENS_FREQ_Y
    | exact has_R_ENS_PHASE_THETA
    | exact has_R_ENS_S1_FREQ_Y
    | exact has_R_ENS_S1_PHASE_THETA
    | dsimp only
    | split

theorem touches_publishTs0 {ps : List Part} {s₀ : State} (s : State) (rens : Part.regs .ens ∈ ps) (h : Touches ps s₀ s) :
    Touches ps s₀ (publishTs0 s) := by
  unfold publishTs0
  with_reducible repeat' first
    | assumption
    | intro _
    | apply touches_State_hi
    | apply touches_State_wr
    | apply touches_State_lo
    | apply touches_ite
    | exact has_R_ENS_DRIFT_D
    | exact has_R_ENS_HO_TIME_SECONDS
    | exact has_R_ENS_STAT_LEAD
    | exact has_R_ENS_STAT_LEAD_VALID
    | dsimp only
    | split

theorem touches_runHoldover {ps : List Part} {s₀ : State} (b : Bank) (s : State) (hens : Part.ens ∈ ps) (h : Touches ps s₀ s) :
    Touches ps s₀ (runHoldover b s) := by
  unfold runHoldover
  with_reducible repeat' first
    | assumption
    | intro _
    | apply touches_State_modFilter
    | apply touches_ite

theorem touches_setOrders2to7 {ps : List Part} {s₀ : State} (b : Bank) (dTc : Rat) (s : State) (htick : Part.tick ∈ ps) (hens : Part.ens ∈ ps) (hlog : Part.log ∈ ps) (rtsc : Part.regs .tsc ∈ ps) (rens : Part.regs .ens ∈ ps) (rwch : Part.regs .wch ∈ ps) (h : Touches ps s₀ s) :
    Touches ps s₀ (setOrders2to7 b dTc s).1 := by
  unfold setOrders2to7
  with_reducible repeat' first
    | assumption
    | intro _
    | apply touches_takeSamples
    | apply touches_pushHist
    | apply touches_slotLoss
    | apply touches_judgeSlot
    | apply touches_carryExpire
    | apply touches_reestComplete
    | apply touches_runHoldover
    | apply touches_judgeReady
    | apply touches_beginReest
    | apply touches_engineOrder7
    | apply touches_foldl
    | apply touches_ite
    | apply touches_foldl_fst

theorem touches_setOrder8 {ps : List Part} {s₀ : State} (b : Bank) (dTc : Rat) (vs : List (Nat × List Verdict)) (s : State) (htick : Part.tick ∈ ps) (hens : Part.ens ∈ ps) (rens : Part.regs .ens ∈ ps) (h : Touches ps s₀ s) :
    Touches ps s₀ (setOrder8 b dTc vs s) := by
  unfold setOrder8
  with_reducible repeat' first
    | assumption
    | intro _
    | apply touches_State_modFilter
    | apply touches_settlePhase
    | apply touches_finishHist
    | apply touches_publishWeights
    | apply touches_chooseLead
    | apply touches_learnBias
    | apply touches_ite
    | apply touches_foldl

theorem touches_swapFields {ps : List Part} {s₀ : State} (f : Field) (g : Field) (s : State) {b0 : Block} {b1 : Block} (k0 : b0.has f.key = true) (rb0 : Part.regs b0 ∈ ps) (k1 : b1.has g.key = true) (rb1 : Part.regs b1 ∈ ps) (h : Touches ps s₀ s) :
    Touches ps s₀ (swapFields f g s) := by
  unfold swapFields
  with_reducible repeat' first
    | assumption
    | intro _
    | apply k0
    | apply k1
    | apply touches_State_wr

theorem touches_exchangeSets {ps : List Part} {s₀ : State} (sender : Nat) (d : Int) (s : State) (htick : Part.tick ∈ ps) (hens : Part.ens ∈ ps) (hlog : Part.log ∈ ps) (rens : Part.regs .ens ∈ ps) (rwch : Part.regs .wch ∈ ps) (h : Touches ps s₀ s) :
    Touches ps s₀ (exchangeSets sender d s) := by
  unfold exchangeSets
  with_reducible repeat' first
    | assumption
    | intro _
    | apply touches_State_modSlot
    | apply touches_swapFields (b0 := .ens) (b1 := .ens)
    | apply touches_State_modBank
    | apply touches_publishTs0
    | apply touches_publish
    | apply touches_tellEng
    | apply touches_State_wr
    | apply touches_foldl
    | apply touches_ite
    | exact has_R_ENS_SLOT_CFG_SET _
    | exact has_R_ENS_STAT_STATE
    | exact has_R_ENS_STAT_S1_STATE
    | exact has_R_ENS_STAT_DECIDE_PEND
    | exact has_R_ENS_STAT_S1_DECIDE_PEND
    | dsimp only
    | split
    | apply touches_set_ens

theorem touches_doSwitch {ps : List Part} {s₀ : State} (sender : Nat) (d : Int) (s : State) (htick : Part.tick ∈ ps) (hens : Part.ens ∈ ps) (hlog : Part.log ∈ ps) (rtsc : Part.regs .tsc ∈ ps) (rens : Part.regs .ens ∈ ps) (rwch : Part.regs .wch ∈ ps) (h : Touches ps s₀ s) :
    Touches ps s₀ (doSwitch sender d s) := by
  unfold doSwitch
  with_reducible repeat' first
    | assumption
    | intro _
    | apply touches_abortSlew
    | apply touches_State_modBank
    | apply touches_exchangeSets
    | apply touches_startSlew
    | apply touches_State_hi
    | apply touches_ite
    | exact has_R_TSC_SWITCH_CTL_DONE
    | exact has_R_TSC_SWITCH_CTL_ACTIVE

theorem touches_writeSwitchCtl {ps : List Part} {s₀ : State} (sender : Nat) (w : Nat) (s : State) (htick : Part.tick ∈ ps) (hens : Part.ens ∈ ps) (hlog : Part.log ∈ ps) (rtsc : Part.regs .tsc ∈ ps) (rens : Part.regs .ens ∈ ps) (rwch : Part.regs .wch ∈ ps) (h : Touches ps s₀ s) :
    Touches ps s₀ (writeSwitchCtl sender w s) := by
  unfold writeSwitchCtl
  with_reducible repeat' first
    | assumption
    | intro _
    | apply touches_doSwitch
    | apply touches_State_hi
    | apply touches_State_storeReg
    | apply touches_ite
    | exact has_R_TSC_SWITCH_CTL_REFUSED
    | (apply has_Reg_TSC_SWITCH_CTL; assumption)

theorem touches_switchDone {ps : List Part} {s₀ : State} (s : State) (htick : Part.tick ∈ ps) (hlanes : Part.lanes ∈ ps) (rtsc : Part.regs .tsc ∈ ps) (h : Touches ps s₀ s) :
    Touches ps s₀ (switchDone s) := by
  unfold switchDone
  with_reducible repeat' first
    | assumption
    | intro _
    | apply touches_State_advance
    | apply touches_State_hi
    | apply touches_State_lo
    | apply touches_State_modBank
    | apply touches_ite
    | exact has_R_TSC_SWITCH_CTL_ACTIVE
    | exact has_R_TSC_SWITCH_CTL_DONE

end Sys2Proof.Machine
end

