-- ==== Sys2Proof/Laws/TouchesTiming.lean ====
section
/-! SUPPORT. What the operations of the GNSS receiver, the interval inputs, the reference modules and the pulse outputs touch: one lemma per operation. -/

namespace Sys2Proof.Machine

theorem touches_State_modChan {ps : List Part} {s₀ : State} (s : State) (c : Nat) (f : TimChan → TimChan) (htim : Part.tim ∈ ps) (h : Touches ps s₀ s) :
    Touches ps s₀ (State.modChan s c f) := by
  unfold State.modChan
  with_reducible repeat' first
    | assumption
    | intro _
    | apply touches_ite
    | dsimp only
    | split
    | apply touches_set_tim

theorem touches_State_modGroup {ps : List Part} {s₀ : State} (s : State) (g : Nat) (f : TimGroup → TimGroup) (htim : Part.tim ∈ ps) (h : Touches ps s₀ s) :
    Touches ps s₀ (State.modGroup s g f) := by
  unfold State.modGroup
  with_reducible repeat' first
    | assumption
    | intro _
    | apply touches_ite
    | dsimp only
    | split
    | apply touches_set_tim

theorem touches_noteEdge {ps : List Part} {s₀ : State} (ch : Nat) (e : Edge) (s : State) (htim : Part.tim ∈ ps) (h : Touches ps s₀ s) :
    Touches ps s₀ (noteEdge ch e s) := by
  unfold noteEdge
  with_reducible repeat' first
    | assumption
    | intro _
    | apply touches_State_modChan

theorem touches_offerRecord {ps : List Part} {s₀ : State} (g : Nat) (type : Nat) (b1 : Nat) (flags : Nat) (flags2 : Nat) (calSeq : Nat) (t : Nat) (mid : List Nat) (tail : List Nat) (s : State) (htim : Part.tim ∈ ps) (rtim : Part.regs .tim ∈ ps) (h : Touches ps s₀ s) :
    Touches ps s₀ (offerRecord g type b1 flags flags2 calSeq t mid tail s) := by
  unfold offerRecord
  with_reducible repeat' first
    | assumption
    | intro _
    | apply touches_State_count
    | apply touches_State_modGroup
    | apply touches_State_wr
    | apply touches_State_raise
    | apply touches_ite
    | exact has_Evt_tim
    | exact has_R_TIM_GRP_LOST_LOST _
    | exact has_R_TIM_GRP_WR_WR _
    | dsimp only
    | split
    | apply touches_set_tim

theorem touches_clearFlags {ps : List Part} {s₀ : State} (c : Nat) (seq : Nat) (steps : Nat) (s : State) (htim : Part.tim ∈ ps) (h : Touches ps s₀ s) :
    Touches ps s₀ (clearFlags c seq steps s) := by
  unfold clearFlags
  with_reducible repeat' first
    | assumption
    | intro _
    | apply touches_State_modChan

theorem touches_deadEdge {ps : List Part} {s₀ : State} (ch : Nat) (c : Nat) (s : State) (htim : Part.tim ∈ ps) (rtim : Part.regs .tim ∈ ps) (h : Touches ps s₀ s) :
    Touches ps s₀ (deadEdge ch c s) := by
  unfold deadEdge
  with_reducible repeat' first
    | assumption
    | intro _
    | apply touches_State_wr
    | apply touches_State_raise
    | apply touches_State_modChan
    | apply touches_ite
    | exact has_Evt_tim
    | exact has_R_TIM_CH_DEAD_DEAD _

theorem touches_recordSlot {ps : List Part} {s₀ : State} (g : Nat) (c : Nat) (s : State) (htim : Part.tim ∈ ps) (h : Touches ps s₀ s) :
    Touches ps s₀ (recordSlot g c s) := by
  unfold recordSlot
  with_reducible repeat' first
    | assumption
    | intro _
    | apply touches_State_modGroup

theorem touches_setGroupBit {ps : List Part} {s₀ : State} (f : Field) (g : Nat) (v : Bool) (s : State) {b0 : Block} (k0 : b0.has f.key = true) (rb0 : Part.regs b0 ∈ ps) (h : Touches ps s₀ s) :
    Touches ps s₀ (setGroupBit f g v s) := by
  unfold setGroupBit
  with_reducible repeat' first
    | assumption
    | intro _
    | apply k0
    | apply touches_State_wr

theorem touches_endRotation {ps : List Part} {s₀ : State} (g : Nat) (s : State) (htim : Part.tim ∈ ps) (rtim : Part.regs .tim ∈ ps) (h : Touches ps s₀ s) :
    Touches ps s₀ (endRotation g s) := by
  unfold endRotation
  with_reducible repeat' first
    | assumption
    | intro _
    | apply touches_setGroupBit
    | apply touches_State_modGroup
    | apply touches_State_raise
    | apply touches_State_lo
    | apply touches_ite
    | exact has_Evt_tim
    | exact has_R_TIM_CTL_CAL_NOW
    | exact has_R_TIM_STAT_CAL_BUSY

theorem touches_calPassEnd {ps : List Part} {s₀ : State} (g : Nat) (hits : List Nat) (s : State) (htim : Part.tim ∈ ps) (rtim : Part.regs .tim ∈ ps) (h : Touches ps s₀ s) :
    Touches ps s₀ (calPassEnd g hits s) := by
  unfold calPassEnd
  with_reducible repeat' first
    | assumption
    | intro _
    | apply touches_State_modGroup
    | apply touches_State_raise
    | apply touches_State_lo
    | apply touches_State_wr
    | apply touches_endRotation
    | apply touches_setGroupBit
    | apply touches_ite
    | apply touches_foldl
    | exact has_Evt_tim
    | exact has_R_TIM_CH_STAT_HO_WAIT _
    | exact has_R_TIM_GRP_STAT_RETIRED _
    | exact has_R_TIM_STAT_NO_SPARE

theorem touches_handTo {ps : List Part} {s₀ : State} (g : Nat) (c : Nat) (s : State) (htim : Part.tim ∈ ps) (rtim : Part.regs .tim ∈ ps) (h : Touches ps s₀ s) :
    Touches ps s₀ (handTo g c s) := by
  unfold handTo
  with_reducible repeat' first
    | assumption
    | intro _
    | apply touches_State_modChan
    | apply touches_State_modGroup
    | apply touches_State_lo
    | apply touches_State_wr
    | apply touches_endRotation
    | apply touches_ite
    | exact has_R_TIM_CH_CAL_DNL _
    | exact has_R_TIM_CH_STAT_CAL_SEQ _
    | exact has_R_TIM_CH_STAT_HO_WAIT _
    | exact has_R_TIM_CH_STAT_UNIT _
    | exact has_R_TIM_GRP_STAT_SPARE _

theorem touches_calHandover {ps : List Part} {s₀ : State} (g : Nat) (s : State) (htick : Part.tick ∈ ps) (hlanes : Part.lanes ∈ ps) (htim : Part.tim ∈ ps) (rtim : Part.regs .tim ∈ ps) (h : Touches ps s₀ s) :
    Touches ps s₀ (calHandover g s) := by
  unfold calHandover
  with_reducible repeat' first
    | assumption
    | intro _
    | apply touches_State_waitClk
    | apply touches_State_hi
    | apply touches_handTo
    | apply touches_ite
    | exact has_R_TIM_CH_STAT_HO_WAIT _
    | dsimp only
    | split

theorem touches_lateHandover {ps : List Part} {s₀ : State} (c : Nat) (s : State) (htim : Part.tim ∈ ps) (rtim : Part.regs .tim ∈ ps) (h : Touches ps s₀ s) :
    Touches ps s₀ (lateHandover c s) := by
  unfold lateHandover
  with_reducible repeat' first
    | assumption
    | intro _
    | apply touches_handTo
    | apply touches_ite
    | apply touches_foldl

theorem touches_writeTimCtl {ps : List Part} {s₀ : State} (w : Nat) (s : State) (htim : Part.tim ∈ ps) (rtim : Part.regs .tim ∈ ps) (h : Touches ps s₀ s) :
    Touches ps s₀ (writeTimCtl w s) := by
  unfold writeTimCtl
  with_reducible repeat' first
    | assumption
    | intro _
    | apply touches_State_storeReg
    | apply touches_setGroupBit
    | apply touches_State_modGroup
    | apply touches_State_raise
    | apply touches_State_hi
    | apply touches_ite
    | apply touches_foldl
    | exact has_Evt_tim
    | exact has_R_TIM_CTL_CAL_NOW
    | exact has_R_TIM_STAT_CAL_BUSY
    | (apply has_Reg_TIM_CTL; assumption)

theorem touches_refuseCh {ps : List Part} {s₀ : State} (c : Nat) (s : State) (rtim : Part.regs .tim ∈ ps) (h : Touches ps s₀ s) :
    Touches ps s₀ (refuseCh c s) := by
  unfold refuseCh
  with_reducible repeat' first
    | assumption
    | intro _
    | apply touches_State_raise
    | apply touches_State_hi
    | apply touches_ite
    | exact has_Evt_tim
    | exact has_R_TIM_CH_STAT_CFG_ERR _

theorem touches_openGate {ps : List Part} {s₀ : State} (g : Nat) (c : Nat) (s : State) (htim : Part.tim ∈ ps) (rtim : Part.regs .tim ∈ ps) (h : Touches ps s₀ s) :
    Touches ps s₀ (openGate g c s) := by
  unfold openGate
  with_reducible repeat' first
    | assumption
    | intro _
    | apply touches_State_modGroup
    | apply touches_State_lo
    | apply touches_State_hi
    | apply touches_State_modChan
    | apply touches_ite
    | apply touches_foldl
    | exact has_R_TIM_GRP_STAT_GATE_OPEN _
    | exact has_R_TIM_GRP_STAT_WAITING _

theorem touches_armGate {ps : List Part} {s₀ : State} (g : Nat) (s : State) (htim : Part.tim ∈ ps) (rtim : Part.regs .tim ∈ ps) (h : Touches ps s₀ s) :
    Touches ps s₀ (armGate g s) := by
  unfold armGate
  with_reducible repeat' first
    | assumption
    | intro _
    | apply touches_State_modGroup
    | apply touches_State_hi
    | apply touches_openGate
    | apply touches_State_lo
    | apply touches_ite
    | exact has_R_TIM_GRP_STAT_WAITING _

theorem touches_armNow {ps : List Part} {s₀ : State} (c : Nat) (s : State) (htim : Part.tim ∈ ps) (rtim : Part.regs .tim ∈ ps) (h : Touches ps s₀ s) :
    Touches ps s₀ (armNow c s) := by
  unfold armNow
  with_reducible repeat' first
    | assumption
    | intro _
    | apply touches_refuseCh
    | apply touches_State_modChan
    | apply touches_State_lo
    | apply touches_armGate
    | apply touches_State_wr
    | apply touches_State_hi
    | apply touches_ite
    | exact has_R_TIM_CH_CTL_ARM _
    | exact has_R_TIM_CH_STAT_CFG_ERR _
    | exact has_R_TIM_CH_STAT_STATE _

theorem touches_endWait {ps : List Part} {s₀ : State} (g : Nat) (c : Nat) (s : State) (rtim : Part.regs .tim ∈ ps) (h : Touches ps s₀ s) :
    Touches ps s₀ (endWait g c s) := by
  unfold endWait
  with_reducible repeat' first
    | assumption
    | intro _
    | apply touches_State_lo
    | apply touches_ite
    | exact has_R_TIM_GRP_STAT_WAITING _

theorem touches_disarmCh {ps : List Part} {s₀ : State} (c : Nat) (s : State) (htim : Part.tim ∈ ps) (rtim : Part.regs .tim ∈ ps) (h : Touches ps s₀ s) :
    Touches ps s₀ (disarmCh c s) := by
  unfold disarmCh
  with_reducible repeat' first
    | assumption
    | intro _
    | apply touches_State_wr
    | apply touches_endWait
    | apply touches_State_lo
    | apply touches_lateHandover
    | apply touches_State_modChan
    | apply touches_ite
    | exact has_R_TIM_CH_CTL_ARM _
    | exact has_R_TIM_CH_STAT_STATE _

theorem touches_writeChCtl {ps : List Part} {s₀ : State} (c : Nat) (w : Nat) (s : State) (htim : Part.tim ∈ ps) (rtim : Part.regs .tim ∈ ps) (h : Touches ps s₀ s) :
    Touches ps s₀ (writeChCtl c w s) := by
  unfold writeChCtl
  with_reducible repeat' first
    | assumption
    | intro _
    | apply touches_refuseCh
    | apply touches_State_lo
    | apply touches_State_modChan
    | apply touches_armNow
    | apply touches_disarmCh
    | apply touches_ite
    | exact has_R_TIM_CH_STAT_CFG_ERR _

theorem touches_writeTimChCfg {ps : List Part} {s₀ : State} (c : Nat) (w : Nat) (s : State) (rtim : Part.regs .tim ∈ ps) (h : Touches ps s₀ s) :
    Touches ps s₀ (writeTimChCfg c w s) := by
  unfold writeTimChCfg
  with_reducible repeat' first
    | assumption
    | intro _
    | apply touches_refuseCh
    | apply touches_State_lo
    | apply touches_State_storeReg
    | apply touches_ite
    | exact has_R_TIM_CH_STAT_CFG_ERR _
    | (apply has_Reg_TIM_CH_CFG; assumption)

theorem touches_assignChan {ps : List Part} {s₀ : State} (c : Nat) (s : State) (htim : Part.tim ∈ ps) (rtim : Part.regs .tim ∈ ps) (h : Touches ps s₀ s) :
    Touches ps s₀ (assignChan c s) := by
  unfold assignChan
  with_reducible repeat' first
    | assumption
    | intro _
    | apply touches_endWait
    | apply touches_State_modChan
    | apply touches_armNow
    | apply touches_State_hi
    | apply touches_State_lo
    | apply touches_ite
    | exact has_R_TIM_CH_CFG_MODE _
    | exact has_R_TIM_CH_CFG_EDGE _
    | exact has_R_TIM_CH_CFG_PRESCALE _
    | exact has_R_TIM_CH_CFG_GATED _
    | exact has_R_TIM_CH_STAT_ASSIGNED _

theorem touches_unassignChan {ps : List Part} {s₀ : State} (c : Nat) (s : State) (htim : Part.tim ∈ ps) (rtim : Part.regs .tim ∈ ps) (h : Touches ps s₀ s) :
    Touches ps s₀ (unassignChan c s) := by
  unfold unassignChan
  with_reducible repeat' first
    | assumption
    | intro _
    | apply touches_State_lo
    | apply touches_disarmCh
    | apply touches_ite
    | exact has_R_TIM_CH_STAT_ASSIGNED _

theorem touches_noteStamp {ps : List Part} {s₀ : State} (ch : Nat) (e : Edge) (s : State) (htim : Part.tim ∈ ps) (h : Touches ps s₀ s) :
    Touches ps s₀ (noteStamp ch e s) := by
  unfold noteStamp
  with_reducible repeat' first
    | assumption
    | intro _
    | apply touches_State_modChan

theorem touches_queueRecord {ps : List Part} {s₀ : State} (chs : List Nat) (g : Nat) (c : Nat) (s : State) (htim : Part.tim ∈ ps) (h : Touches ps s₀ s) :
    Touches ps s₀ (queueRecord chs g c s) := by
  unfold queueRecord
  with_reducible repeat' first
    | assumption
    | intro _
    | apply touches_State_modChan
    | apply touches_recordSlot
    | apply touches_ite
    | apply touches_foldl

theorem touches_stampEdge {ps : List Part} {s₀ : State} (c : Nat) (e : Edge) (s : State) (hens : Part.ens ∈ ps) (htim : Part.tim ∈ ps) (rtim : Part.regs .tim ∈ ps) (h : Touches ps s₀ s) :
    Touches ps s₀ (stampEdge c e s) := by
  unfold stampEdge
  with_reducible repeat' first
    | assumption
    | intro _
    | apply touches_deadEdge
    | apply touches_noteStamp
    | apply touches_queueRecord
    | apply touches_offerRecord
    | apply touches_clearFlags
    | apply touches_deliver
    | apply touches_ite
    | dsimp only
    | split

theorem touches_stampMode {ps : List Part} {s₀ : State} (c : Nat) (e : Edge) (s : State) (hens : Part.ens ∈ ps) (htim : Part.tim ∈ ps) (rtim : Part.regs .tim ∈ ps) (h : Touches ps s₀ s) :
    Touches ps s₀ (stampMode c e s) := by
  unfold stampMode
  with_reducible repeat' first
    | assumption
    | intro _
    | apply touches_State_modChan
    | apply touches_stampEdge
    | apply touches_ite

theorem touches_closePair {ps : List Part} {s₀ : State} (c : Nat) (start : Edge) (stop : Edge) (s : State) (htim : Part.tim ∈ ps) (rtim : Part.regs .tim ∈ ps) (h : Touches ps s₀ s) :
    Touches ps s₀ (closePair c start stop s) := by
  unfold closePair
  with_reducible repeat' first
    | assumption
    | intro _
    | apply touches_queueRecord
    | apply touches_offerRecord
    | apply touches_State_modChan
    | apply touches_clearFlags
    | apply touches_lateHandover
    | apply touches_State_wr
    | apply touches_disarmCh
    | apply touches_ite
    | exact has_R_TIM_CH_STAT_STATE _

theorem touches_closeOpen {ps : List Part} {s₀ : State} (c : Nat) (ovf : Bool) (s : State) (htim : Part.tim ∈ ps) (rtim : Part.regs .tim ∈ ps) (h : Touches ps s₀ s) :
    Touches ps s₀ (closeOpen c ovf s) := by
  unfold closeOpen
  with_reducible repeat' first
    | assumption
    | intro _
    | apply touches_offerRecord
    | apply touches_recordSlot
    | apply touches_State_modChan
    | apply touches_clearFlags
    | apply touches_lateHandover
    | apply touches_State_wr
    | apply touches_disarmCh
    | apply touches_State_raise
    | apply touches_ite
    | exact has_Evt_tim
    | exact has_R_TIM_CH_STAT_STATE _
    | dsimp only
    | split

theorem touches_pairEdge {ps : List Part} {s₀ : State} (c : Nat) (onStop : Bool) (e : Edge) (s : State) (htim : Part.tim ∈ ps) (rtim : Part.regs .tim ∈ ps) (h : Touches ps s₀ s) :
    Touches ps s₀ (pairEdge c onStop e s) := by
  unfold pairEdge
  with_reducible repeat' first
    | assumption
    | intro _
    | apply touches_deadEdge
    | apply touches_State_wr
    | apply touches_State_modChan
    | apply touches_noteStamp
    | apply touches_closePair
    | apply touches_ite
    | exact has_R_TIM_CH_STAT_STATE _
    | dsimp only
    | split

theorem touches_countEdge {ps : List Part} {s₀ : State} (c : Nat) (s : State) (htim : Part.tim ∈ ps) (h : Touches ps s₀ s) :
    Touches ps s₀ (countEdge c s) := by
  unfold countEdge
  with_reducible repeat' first
    | assumption
    | intro _
    | apply touches_State_modChan
    | apply touches_ite

theorem touches_windowOpens {ps : List Part} {s₀ : State} (gov : Nat) (c : Nat) (s : State) (htim : Part.tim ∈ ps) (rtim : Part.regs .tim ∈ ps) (h : Touches ps s₀ s) :
    Touches ps s₀ (windowOpens gov c s) := by
  unfold windowOpens
  with_reducible repeat' first
    | assumption
    | intro _
    | apply touches_openGate
    | apply touches_ite

theorem touches_tiEdge {ps : List Part} {s₀ : State} (ch : Nat) (dc : Nat) (b : Nat) (fall : Bool) (s : State) (htick : Part.tick ∈ ps) (hlanes : Part.lanes ∈ ps) (hens : Part.ens ∈ ps) (htim : Part.tim ∈ ps) (rtim : Part.regs .tim ∈ ps) (h : Touches ps s₀ s) :
    Touches ps s₀ (tiEdge ch dc b fall s) := by
  unfold tiEdge
  with_reducible repeat' first
    | assumption
    | intro _
    | apply touches_windowOpens
    | apply touches_State_waitTick
    | apply touches_noteEdge
    | apply touches_stampMode
    | apply touches_pairEdge
    | apply touches_countEdge
    | apply touches_ite
    | dsimp only
    | split

theorem touches_countRecord {ps : List Part} {s₀ : State} (c : Nat) (endC : Nat) (s : State) (htim : Part.tim ∈ ps) (rtim : Part.regs .tim ∈ ps) (h : Touches ps s₀ s) :
    Touches ps s₀ (countRecord c endC s) := by
  unfold countRecord
  with_reducible repeat' first
    | assumption
    | intro _
    | apply touches_clearFlags
    | apply touches_offerRecord
    | apply touches_recordSlot
    | apply touches_ite
    | dsimp only
    | split

theorem touches_countSecond {ps : List Part} {s₀ : State} (c : Nat) (s : State) (htick : Part.tick ∈ ps) (hlanes : Part.lanes ∈ ps) (htim : Part.tim ∈ ps) (rtim : Part.regs .tim ∈ ps) (h : Touches ps s₀ s) :
    Touches ps s₀ (countSecond c s) := by
  unfold countSecond
  with_reducible repeat' first
    | assumption
    | intro _
    | apply touches_countRecord
    | apply touches_State_waitTick
    | apply touches_State_modChan
    | apply touches_ite

theorem touches_pairOverflow {ps : List Part} {s₀ : State} (c : Nat) (s : State) (htick : Part.tick ∈ ps) (hlanes : Part.lanes ∈ ps) (htim : Part.tim ∈ ps) (rtim : Part.regs .tim ∈ ps) (h : Touches ps s₀ s) :
    Touches ps s₀ (pairOverflow c s) := by
  unfold pairOverflow
  with_reducible repeat' first
    | assumption
    | intro _
    | apply touches_closeOpen
    | apply touches_State_waitTick
    | apply touches_ite
    | dsimp only
    | split

theorem touches_gateOpen {ps : List Part} {s₀ : State} (g : Nat) (dc : Nat) (high : Bool) (s : State) (htick : Part.tick ∈ ps) (hlanes : Part.lanes ∈ ps) (htim : Part.tim ∈ ps) (rtim : Part.regs .tim ∈ ps) (h : Touches ps s₀ s) :
    Touches ps s₀ (gateOpen g dc high s) := by
  unfold gateOpen
  with_reducible repeat' first
    | assumption
    | intro _
    | apply touches_openGate
    | apply touches_State_waitTick
    | apply touches_ite
    | dsimp only
    | split

theorem touches_shutGate {ps : List Part} {s₀ : State} (g : Nat) (c : Nat) (s : State) (htim : Part.tim ∈ ps) (rtim : Part.regs .tim ∈ ps) (h : Touches ps s₀ s) :
    Touches ps s₀ (shutGate g c s) := by
  unfold shutGate
  with_reducible repeat' first
    | assumption
    | intro _
    | apply touches_State_modGroup
    | apply touches_State_lo
    | apply touches_State_modChan
    | apply touches_countRecord
    | apply touches_closeOpen
    | apply touches_ite
    | apply touches_foldl
    | exact has_R_TIM_GRP_STAT_GATE_OPEN _

theorem touches_gateClose {ps : List Part} {s₀ : State} (g : Nat) (dc : Nat) (high : Bool) (s : State) (htick : Part.tick ∈ ps) (hlanes : Part.lanes ∈ ps) (htim : Part.tim ∈ ps) (rtim : Part.regs .tim ∈ ps) (h : Touches ps s₀ s) :
    Touches ps s₀ (gateClose g dc high s) := by
  unfold gateClose
  with_reducible repeat' first
    | assumption
    | intro _
    | apply touches_shutGate
    | apply touches_State_waitTick
    | apply touches_ite
    | dsimp only
    | split

theorem touches_writeGrpCfg {ps : List Part} {s₀ : State} (g : Nat) (w : Nat) (s : State) (htim : Part.tim ∈ ps) (rtim : Part.regs .tim ∈ ps) (h : Touches ps s₀ s) :
    Touches ps s₀ (writeGrpCfg g w s) := by
  unfold writeGrpCfg
  with_reducible repeat' first
    | assumption
    | intro _
    | apply touches_shutGate
    | apply touches_State_storeReg
    | apply touches_State_lo
    | apply touches_armGate
    | apply touches_ite
    | exact has_R_TIM_GRP_STAT_WAITING _
    | (apply has_Reg_TIM_GRP_CFG; assumption)

theorem touches_State_modGnsPort {ps : List Part} {s₀ : State} (s : State) (n : Nat) (f : GnsPort → GnsPort) (hgnss : Part.gnss ∈ ps) (h : Touches ps s₀ s) :
    Touches ps s₀ (State.modGnsPort s n f) := by
  unfold State.modGnsPort
  with_reducible repeat' first
    | assumption
    | intro _
    | apply touches_ite
    | dsimp only
    | split
    | apply touches_set_gnss

theorem touches_State_modCh {ps : List Part} {s₀ : State} (s : State) (c : Nat) (f : GnsCh → GnsCh) (hgnss : Part.gnss ∈ ps) (h : Touches ps s₀ s) :
    Touches ps s₀ (State.modCh s c f) := by
  unfold State.modCh
  with_reducible repeat' first
    | assumption
    | intro _
    | apply touches_ite
    | dsimp only
    | split
    | apply touches_set_gnss

theorem touches_State_modAnt {ps : List Part} {s₀ : State} (s : State) (a : Nat) (f : GnsAnt → GnsAnt) (hgnss : Part.gnss ∈ ps) (h : Touches ps s₀ s) :
    Touches ps s₀ (State.modAnt s a f) := by
  unfold State.modAnt
  with_reducible repeat' first
    | assumption
    | intro _
    | apply touches_ite
    | dsimp only
    | split
    | apply touches_set_gnss

theorem touches_noteFull {ps : List Part} {s₀ : State} (s : State) (hwatch : Part.watch ∈ ps) (h : Touches ps s₀ s) :
    Touches ps s₀ (noteFull s) := by
  unfold noteFull
  with_reducible repeat' first
    | assumption
    | intro _
    | apply touches_ite
    | dsimp only
    | split
    | apply touches_set_watch

theorem touches_setCh {ps : List Part} {s₀ : State} (c : Nat) (v : Ch) (s : State) (hgnss : Part.gnss ∈ ps) (hwatch : Part.watch ∈ ps) (rgns : Part.regs .gns ∈ ps) (h : Touches ps s₀ s) :
    Touches ps s₀ (setCh c v s) := by
  unfold setCh
  with_reducible repeat' first
    | assumption
    | intro _
    | apply touches_noteFull
    | apply touches_State_modCh
    | apply touches_State_wr
    | exact has_R_GNS_CH_STAT_STATE _

theorem touches_idleCh {ps : List Part} {s₀ : State} (c : Nat) (s : State) (hgnss : Part.gnss ∈ ps) (hwatch : Part.watch ∈ ps) (rgns : Part.regs .gns ∈ ps) (h : Touches ps s₀ s) :
    Touches ps s₀ (idleCh c s) := by
  unfold idleCh
  with_reducible repeat' first
    | assumption
    | intro _
    | apply touches_setCh
    | apply touches_State_lo
    | apply touches_State_modCh
    | apply touches_ite
    | exact has_R_GNS_CH_DOP_DOP _
    | exact has_R_GNS_CH_STAT_CN0 _
    | exact has_R_GNS_CH_STAT_EXCLUDED _
    | exact has_R_GNS_CH_STAT_NOTCHED _
    | exact has_R_GNS_CH_STAT_SVID _
    | exact has_R_GNS_CH_STAT_USED _

theorem touches_idleWhere {ps : List Part} {s₀ : State} (f : State → Nat → Bool) (s : State) (hgnss : Part.gnss ∈ ps) (hwatch : Part.watch ∈ ps) (rgns : Part.regs .gns ∈ ps) (h : Touches ps s₀ s) :
    Touches ps s₀ (idleWhere f s) := by
  unfold idleWhere
  with_reducible repeat' first
    | assumption
    | intro _
    | apply touches_idleCh
    | apply touches_ite
    | apply touches_foldl

theorem touches_trimPool {ps : List Part} {s₀ : State} (s : State) (hgnss : Part.gnss ∈ ps) (hwatch : Part.watch ∈ ps) (rgns : Part.regs .gns ∈ ps) (h : Touches ps s₀ s) :
    Touches ps s₀ (trimPool s) := by
  unfold trimPool
  with_reducible repeat' first
    | assumption
    | intro _
    | apply touches_idleCh
    | apply touches_ite
    | apply touches_foldl

theorem touches_dropUnusable {ps : List Part} {s₀ : State} (s : State) (hgnss : Part.gnss ∈ ps) (hwatch : Part.watch ∈ ps) (rgns : Part.regs .gns ∈ ps) (h : Touches ps s₀ s) :
    Touches ps s₀ (dropUnusable s) := by
  unfold dropUnusable
  with_reducible repeat' first
    | assumption
    | intro _
    | apply touches_idleWhere

theorem touches_refreshGap {ps : List Part} {s₀ : State} (c : Nat) (s : State) (hgnss : Part.gnss ∈ ps) (h : Touches ps s₀ s) :
    Touches ps s₀ (refreshGap c s) := by
  unfold refreshGap
  with_reducible repeat' first
    | assumption
    | intro _
    | apply touches_State_modCh
    | apply touches_ite

theorem touches_writeSpacing {ps : List Part} {s₀ : State} (w : Nat) (s : State) (hgnss : Part.gnss ∈ ps) (rgns : Part.regs .gns ∈ ps) (h : Touches ps s₀ s) :
    Touches ps s₀ (writeSpacing w s) := by
  unfold writeSpacing
  with_reducible repeat' first
    | assumption
    | intro _
    | apply touches_refreshGap
    | apply touches_State_storeReg
    | apply touches_ite
    | apply touches_foldl
    | (apply has_Reg_GNS_SPACING; assumption)

theorem touches_startCh {ps : List Part} {s₀ : State} (c : Nat) (v : Ch) (sys : Nat) (band : Nat) (ant : Nat) (svid : Nat) (pinned : Bool) (s : State) (hgnss : Part.gnss ∈ ps) (hwatch : Part.watch ∈ ps) (rgns : Part.regs .gns ∈ ps) (h : Touches ps s₀ s) :
    Touches ps s₀ (startCh c v sys band ant svid pinned s) := by
  unfold startCh
  with_reducible repeat' first
    | assumption
    | intro _
    | apply touches_State_modCh
    | apply touches_State_wr
    | apply touches_setCh
    | apply touches_ite
    | exact has_R_GNS_CH_STAT_NOTCHED _
    | exact has_R_GNS_CH_STAT_SVID _

theorem touches_judgeJam {ps : List Part} {s₀ : State} (n : Nat) (floor : Nat) (s : State) (rgns : Part.regs .gns ∈ ps) (h : Touches ps s₀ s) :
    Touches ps s₀ (judgeJam n floor s) := by
  unfold judgeJam
  with_reducible repeat' first
    | assumption
    | intro _
    | apply touches_State_wr
    | apply touches_State_raise
    | apply touches_ite
    | exact has_Evt_gns
    | exact has_R_GNS_PORT_JAM_LVL _
    | exact has_R_GNS_STAT_JAM
    | dsimp only
    | split

theorem touches_portFault {ps : List Part} {s₀ : State} (n : Nat) (s : State) (hgnss : Part.gnss ∈ ps) (hwatch : Part.watch ∈ ps) (rgns : Part.regs .gns ∈ ps) (h : Touches ps s₀ s) :
    Touches ps s₀ (portFault n s) := by
  unfold portFault
  with_reducible repeat' first
    | assumption
    | intro _
    | apply touches_State_modGnsPort
    | apply touches_State_raise
    | apply touches_State_hi
    | apply touches_State_wr
    | apply touches_idleWhere
    | apply touches_ite
    | exact has_Evt_gns
    | exact has_R_GNS_PORT_STAT_FAULT _
    | exact has_R_GNS_STAT_PORT_FAULT

theorem touches_takeIq {ps : List Part} {s₀ : State} (n : Nat) (samples : List (BitVec 4 × BitVec 4)) (s : State) (hgnss : Part.gnss ∈ ps) (rgns : Part.regs .gns ∈ ps) (h : Touches ps s₀ s) :
    Touches ps s₀ (takeIq n samples s) := by
  unfold takeIq
  with_reducible repeat' first
    | assumption
    | intro _
    | apply touches_State_modGnsPort
    | apply touches_State_wr
    | apply touches_ite
    | apply touches_foldl
    | exact has_R_GNS_PORT_STAT_LEVEL _

theorem touches_measureCh {ps : List Part} {s₀ : State} (c : Nat) (cn0 : Nat) (dop : Int) (code : Nat) (at_ : Nat) (s : State) (hgnss : Part.gnss ∈ ps) (rgns : Part.regs .gns ∈ ps) (h : Touches ps s₀ s) :
    Touches ps s₀ (measureCh c cn0 dop code at_ s) := by
  unfold measureCh
  with_reducible repeat' first
    | assumption
    | intro _
    | apply touches_State_modCh
    | apply touches_State_wr
    | exact has_R_GNS_CH_STAT_CN0 _
    | exact has_R_GNS_CH_DOP_DOP _

theorem touches_measurePort {ps : List Part} {s₀ : State} (n : Nat) (meas : List GnssMeas) (s : State) (hgnss : Part.gnss ∈ ps) (rgns : Part.regs .gns ∈ ps) (h : Touches ps s₀ s) :
    Touches ps s₀ (measurePort n meas s) := by
  unfold measurePort
  with_reducible repeat' first
    | assumption
    | intro _
    | apply touches_measureCh
    | apply touches_foldl
    | apply touches_ite

theorem touches_judgeRate {ps : List Part} {s₀ : State} (n : Nat) (last : Option Nat) (s : State) (rgns : Part.regs .gns ∈ ps) (h : Touches ps s₀ s) :
    Touches ps s₀ (judgeRate n last s) := by
  unfold judgeRate
  with_reducible repeat' first
    | assumption
    | intro _
    | apply touches_State_hi
    | apply touches_State_wr
    | apply touches_ite
    | exact has_R_GNS_PORT_STAT_CLK_OK _
    | exact has_R_GNS_PORT_STAT_RATE_ERR _
    | dsimp only
    | split

theorem touches_gnssEpoch {ps : List Part} {s₀ : State} (n : Nat) (dc : Nat) (bin : Nat) (floor : Nat) (samples : List (BitVec 4 × BitVec 4)) (meas : List GnssMeas) (s : State) (htick : Part.tick ∈ ps) (hlanes : Part.lanes ∈ ps) (htim : Part.tim ∈ ps) (hgnss : Part.gnss ∈ ps) (hwatch : Part.watch ∈ ps) (rgns : Part.regs .gns ∈ ps) (h : Touches ps s₀ s) :
    Touches ps s₀ (gnssEpoch n dc bin floor samples meas s) := by
  unfold gnssEpoch
  with_reducible repeat' first
    | assumption
    | intro _
    | apply touches_State_waitTick
    | apply touches_State_modGnsPort
    | apply touches_noteEdge
    | apply touches_measurePort
    | apply touches_judgeJam
    | apply touches_judgeRate
    | apply touches_takeIq
    | apply touches_portFault
    | apply touches_ite

theorem touches_gnssPortFault {ps : List Part} {s₀ : State} (n : Nat) (s : State) (htick : Part.tick ∈ ps) (hlanes : Part.lanes ∈ ps) (hgnss : Part.gnss ∈ ps) (hwatch : Part.watch ∈ ps) (rgns : Part.regs .gns ∈ ps) (h : Touches ps s₀ s) :
    Touches ps s₀ (gnssPortFault n s) := by
  unfold gnssPortFault
  with_reducible repeat' first
    | assumption
    | intro _
    | apply touches_State_waitClk
    | apply touches_portFault
    | apply touches_State_modGnsPort
    | apply touches_State_lo
    | apply touches_ite
    | exact has_R_GNS_PORT_STAT_CLK_OK _

theorem touches_portIdle {ps : List Part} {s₀ : State} (n : Nat) (s : State) (rgns : Part.regs .gns ∈ ps) (h : Touches ps s₀ s) :
    Touches ps s₀ (portIdle n s) := by
  unfold portIdle
  with_reducible repeat' first
    | assumption
    | intro _
    | apply touches_State_wr
    | apply touches_State_lo
    | apply touches_ite
    | exact has_R_GNS_PORT_STAT_CLK_OK _
    | exact has_R_GNS_PORT_STAT_FAULT _
    | exact has_R_GNS_STAT_PORT_FAULT

theorem touches_portAwaits {ps : List Part} {s₀ : State} (n : Nat) (s : State) (hgnss : Part.gnss ∈ ps) (h : Touches ps s₀ s) :
    Touches ps s₀ (portAwaits n s) := by
  unfold portAwaits
  with_reducible repeat' first
    | assumption
    | intro _
    | apply touches_State_modGnsPort

theorem touches_assignCh {ps : List Part} {s₀ : State} (c : Nat) (sys : Nat) (band : Nat) (ant : Nat) (svid : Nat) (s : State) (hgnss : Part.gnss ∈ ps) (hwatch : Part.watch ∈ ps) (rgns : Part.regs .gns ∈ ps) (h : Touches ps s₀ s) :
    Touches ps s₀ (assignCh c sys band ant svid s) := by
  unfold assignCh
  with_reducible repeat' first
    | assumption
    | intro _
    | apply touches_trimPool
    | apply touches_startCh
    | apply touches_ite

theorem touches_startLow {ps : List Part} {s₀ : State} (l : Nat) (sys : Nat) (ant : Nat) (svid : Nat) (pinned : Bool) (code : Nat) (dop : Int) (s : State) (hgnss : Part.gnss ∈ ps) (hwatch : Part.watch ∈ ps) (rgns : Part.regs .gns ∈ ps) (h : Touches ps s₀ s) :
    Touches ps s₀ (startLow l sys ant svid pinned code dop s) := by
  unfold startLow
  with_reducible repeat' first
    | assumption
    | intro _
    | apply touches_startCh
    | apply touches_State_modCh
    | apply touches_State_wr
    | exact has_R_GNS_CH_DOP_DOP _

theorem touches_handOver {ps : List Part} {s₀ : State} (h0 : Nat) (l : Nat) (pinned : Bool) (s : State) (hgnss : Part.gnss ∈ ps) (hwatch : Part.watch ∈ ps) (rgns : Part.regs .gns ∈ ps) (h : Touches ps s₀ s) :
    Touches ps s₀ (handOver h0 l pinned s) := by
  unfold handOver
  with_reducible repeat' first
    | assumption
    | intro _
    | apply touches_startLow

theorem touches_channelAssign {ps : List Part} {s₀ : State} (c : Nat) (sig : Option GnssSig) (s : State) (hgnss : Part.gnss ∈ ps) (hwatch : Part.watch ∈ ps) (rgns : Part.regs .gns ∈ ps) (h : Touches ps s₀ s) :
    Touches ps s₀ (channelAssign c sig s) := by
  unfold channelAssign
  with_reducible repeat' first
    | assumption
    | intro _
    | apply touches_assignCh
    | apply touches_idleCh
    | apply touches_ite
    | dsimp only
    | split

theorem touches_detection {ps : List Part} {s₀ : State} (c : Nat) (cn0 : Nat) (dop : Int) (code : Nat) (s : State) (hgnss : Part.gnss ∈ ps) (hwatch : Part.watch ∈ ps) (rgns : Part.regs .gns ∈ ps) (h : Touches ps s₀ s) :
    Touches ps s₀ (detection c cn0 dop code s) := by
  unfold detection
  with_reducible repeat' first
    | assumption
    | intro _
    | apply touches_measureCh
    | apply touches_setCh
    | apply touches_ite

theorem touches_searchPassEnd {ps : List Part} {s₀ : State} (c : Nat) (s : State) (hgnss : Part.gnss ∈ ps) (hwatch : Part.watch ∈ ps) (rgns : Part.regs .gns ∈ ps) (h : Touches ps s₀ s) :
    Touches ps s₀ (searchPassEnd c s) := by
  unfold searchPassEnd
  with_reducible repeat' first
    | assumption
    | intro _
    | apply touches_idleCh
    | apply touches_ite

theorem touches_pullInLock {ps : List Part} {s₀ : State} (c : Nat) (cn0 : Nat) (dop : Int) (code : Nat) (low : Nat) (s : State) (hgnss : Part.gnss ∈ ps) (hwatch : Part.watch ∈ ps) (rgns : Part.regs .gns ∈ ps) (h : Touches ps s₀ s) :
    Touches ps s₀ (pullInLock c cn0 dop code low s) := by
  unfold pullInLock
  with_reducible repeat' first
    | assumption
    | intro _
    | apply touches_measureCh
    | apply touches_setCh
    | apply touches_trimPool
    | apply touches_handOver
    | apply touches_ite
    | dsimp only
    | split

theorem touches_pullInTimeout {ps : List Part} {s₀ : State} (c : Nat) (s : State) (htick : Part.tick ∈ ps) (hlanes : Part.lanes ∈ ps) (hgnss : Part.gnss ∈ ps) (hwatch : Part.watch ∈ ps) (rgns : Part.regs .gns ∈ ps) (h : Touches ps s₀ s) :
    Touches ps s₀ (pullInTimeout c s) := by
  unfold pullInTimeout
  with_reducible repeat' first
    | assumption
    | intro _
    | apply touches_setCh
    | apply touches_State_waitClk
    | apply touches_ite

theorem touches_navSync {ps : List Part} {s₀ : State} (c : Nat) (s : State) (hgnss : Part.gnss ∈ ps) (hwatch : Part.watch ∈ ps) (rgns : Part.regs .gns ∈ ps) (h : Touches ps s₀ s) :
    Touches ps s₀ (navSync c s) := by
  unfold navSync
  with_reducible repeat' first
    | assumption
    | intro _
    | apply touches_State_modCh
    | apply touches_setCh
    | apply touches_ite

theorem touches_channelLost {ps : List Part} {s₀ : State} (c : Nat) (s : State) (hgnss : Part.gnss ∈ ps) (hwatch : Part.watch ∈ ps) (rgns : Part.regs .gns ∈ ps) (h : Touches ps s₀ s) :
    Touches ps s₀ (channelLost c s) := by
  unfold channelLost
  with_reducible repeat' first
    | assumption
    | intro _
    | apply touches_setCh
    | apply touches_ite

theorem touches_reacquire {ps : List Part} {s₀ : State} (c : Nat) (s : State) (hgnss : Part.gnss ∈ ps) (hwatch : Part.watch ∈ ps) (rgns : Part.regs .gns ∈ ps) (h : Touches ps s₀ s) :
    Touches ps s₀ (reacquire c s) := by
  unfold reacquire
  with_reducible repeat' first
    | assumption
    | intro _
    | apply touches_setCh
    | apply touches_ite

theorem touches_lostTimeout {ps : List Part} {s₀ : State} (c : Nat) (s : State) (htick : Part.tick ∈ ps) (hlanes : Part.lanes ∈ ps) (hgnss : Part.gnss ∈ ps) (hwatch : Part.watch ∈ ps) (rgns : Part.regs .gns ∈ ps) (h : Touches ps s₀ s) :
    Touches ps s₀ (lostTimeout c s) := by
  unfold lostTimeout
  with_reducible repeat' first
    | assumption
    | intro _
    | apply touches_idleCh
    | apply touches_State_waitClk
    | apply touches_ite

theorem touches_replan {ps : List Part} {s₀ : State} (sys : Nat) (band : Nat) (ant : Nat) (svid : Nat) (code : Nat) (dop : Int) (s : State) (hgnss : Part.gnss ∈ ps) (hwatch : Part.watch ∈ ps) (rgns : Part.regs .gns ∈ ps) (h : Touches ps s₀ s) :
    Touches ps s₀ (replan sys band ant svid code dop s) := by
  unfold replan
  with_reducible repeat' first
    | assumption
    | intro _
    | apply touches_trimPool
    | apply touches_handOver
    | apply touches_startCh
    | apply touches_startLow
    | apply touches_ite
    | dsimp only
    | split

theorem touches_pinSignal {ps : List Part} {s₀ : State} (c : Nat) (s : State) (hgnss : Part.gnss ∈ ps) (hwatch : Part.watch ∈ ps) (rgns : Part.regs .gns ∈ ps) (h : Touches ps s₀ s) :
    Touches ps s₀ (pinSignal c s) := by
  unfold pinSignal
  with_reducible repeat' first
    | assumption
    | intro _
    | apply touches_trimPool
    | apply touches_handOver
    | apply touches_startCh
    | apply touches_ite
    | dsimp only
    | split

theorem touches_startPinned {ps : List Part} {s₀ : State} (c : Nat) (s : State) (hgnss : Part.gnss ∈ ps) (hwatch : Part.watch ∈ ps) (rgns : Part.regs .gns ∈ ps) (h : Touches ps s₀ s) :
    Touches ps s₀ (startPinned c s) := by
  unfold startPinned
  with_reducible repeat' first
    | assumption
    | intro _
    | apply touches_idleCh
    | apply touches_pinSignal
    | apply touches_State_modCh
    | apply touches_replan
    | apply touches_ite

theorem touches_restartPins {ps : List Part} {s₀ : State} (s : State) (hgnss : Part.gnss ∈ ps) (hwatch : Part.watch ∈ ps) (rgns : Part.regs .gns ∈ ps) (h : Touches ps s₀ s) :
    Touches ps s₀ (restartPins s) := by
  unfold restartPins
  with_reducible repeat' first
    | assumption
    | intro _
    | apply touches_pinSignal
    | apply touches_ite
    | apply touches_foldl

theorem touches_gnssPortRecover {ps : List Part} {s₀ : State} (n : Nat) (s : State) (hgnss : Part.gnss ∈ ps) (hwatch : Part.watch ∈ ps) (rgns : Part.regs .gns ∈ ps) (h : Touches ps s₀ s) :
    Touches ps s₀ (gnssPortRecover n s) := by
  unfold gnssPortRecover
  with_reducible repeat' first
    | assumption
    | intro _
    | apply touches_restartPins
    | apply touches_State_wr
    | apply touches_State_lo
    | apply touches_ite
    | exact has_R_GNS_PORT_STAT_FAULT _
    | exact has_R_GNS_STAT_PORT_FAULT

theorem touches_writePortCfg {ps : List Part} {s₀ : State} (n : Nat) (w : Nat) (s : State) (hgnss : Part.gnss ∈ ps) (hwatch : Part.watch ∈ ps) (rgns : Part.regs .gns ∈ ps) (h : Touches ps s₀ s) :
    Touches ps s₀ (writePortCfg n w s) := by
  unfold writePortCfg
  with_reducible repeat' first
    | assumption
    | intro _
    | apply touches_State_storeReg
    | apply touches_restartPins
    | apply touches_State_modGnsPort
    | apply touches_portAwaits
    | apply touches_dropUnusable
    | apply touches_portIdle
    | apply touches_ite
    | (apply has_Reg_GNS_PORT_CFG; assumption)

theorem touches_applyChCfg {ps : List Part} {s₀ : State} (c : Nat) (w : Nat) (s : State) (hgnss : Part.gnss ∈ ps) (hwatch : Part.watch ∈ ps) (rgns : Part.regs .gns ∈ ps) (h : Touches ps s₀ s) :
    Touches ps s₀ (applyChCfg c w s) := by
  unfold applyChCfg
  with_reducible repeat' first
    | assumption
    | intro _
    | apply touches_refreshGap
    | apply touches_noteFull
    | apply touches_idleCh
    | apply touches_State_modCh
    | apply touches_startPinned
    | apply touches_State_hi
    | apply touches_State_storeReg
    | apply touches_ite
    | exact has_R_GNS_CH_STAT_CFG_ERR _
    | (apply has_Reg_GNS_CH_CFG; assumption)

theorem touches_writeChCfg {ps : List Part} {s₀ : State} (c : Nat) (w : Nat) (s : State) (hgnss : Part.gnss ∈ ps) (hwatch : Part.watch ∈ ps) (rgns : Part.regs .gns ∈ ps) (h : Touches ps s₀ s) :
    Touches ps s₀ (writeChCfg c w s) := by
  unfold writeChCfg
  with_reducible repeat' first
    | assumption
    | intro _
    | apply touches_State_lo
    | apply touches_State_modCh
    | apply touches_applyChCfg
    | apply touches_ite
    | exact has_R_GNS_CH_STAT_CFG_ERR _

theorem touches_pinApply {ps : List Part} {s₀ : State} (c : Nat) (s : State) (htick : Part.tick ∈ ps) (hlanes : Part.lanes ∈ ps) (hgnss : Part.gnss ∈ ps) (hwatch : Part.watch ∈ ps) (rgns : Part.regs .gns ∈ ps) (h : Touches ps s₀ s) :
    Touches ps s₀ (pinApply c s) := by
  unfold pinApply
  with_reducible repeat' first
    | assumption
    | intro _
    | apply touches_startPinned
    | apply touches_State_waitTs0
    | apply touches_ite
    | dsimp only
    | split

theorem touches_returnCh {ps : List Part} {s₀ : State} (c : Nat) (s : State) (hgnss : Part.gnss ∈ ps) (hwatch : Part.watch ∈ ps) (rgns : Part.regs .gns ∈ ps) (h : Touches ps s₀ s) :
    Touches ps s₀ (returnCh c s) := by
  unfold returnCh
  with_reducible repeat' first
    | assumption
    | intro _
    | apply touches_State_modCh
    | apply touches_idleCh
    | apply touches_applyChCfg
    | apply touches_ite
    | dsimp only
    | split

theorem touches_pushNav {ps : List Part} {s₀ : State} (a0 : List Nat) (s : State) (hmem : Part.mem ∈ ps) (hgnss : Part.gnss ∈ ps) (rgns : Part.regs .gns ∈ ps) (h : Touches ps s₀ s) :
    Touches ps s₀ (pushNav a0 s) := by
  have hm := touches_State_wr (v := s.rd R.GNS_NAV_WR_WR + 1) has_R_GNS_NAV_WR_WR rgns
    (touches_writeMem (x := 0x60000 + s.rd R.GNS_NAV_WR_WR * 128) (l := a0) hmem h)
  unfold pushNav
  dsimp only
  split
  · exact touches_State_raise has_Evt_gns rgns (touches_State_wr has_R_GNS_NAV_LOST_LOST rgns
      (touches_State_wr has_R_GNS_NAV_RD_RD rgns (touches_set_gnss hgnss hm)))
  · exact hm

theorem touches_writeNavRd {ps : List Part} {s₀ : State} (w : Nat) (s : State) (rgns : Part.regs .gns ∈ ps) (h : Touches ps s₀ s) :
    Touches ps s₀ (writeNavRd w s) := by
  unfold writeNavRd
  with_reducible repeat' first
    | assumption
    | intro _
    | apply touches_State_storeReg
    | apply touches_ite
    | (apply has_Reg_GNS_NAV_RD; assumption)

theorem touches_armAnnounced {ps : List Part} {s₀ : State} (mid : Nat) (kind : Nat) (s : State) (htick : Part.tick ∈ ps) (rtsc : Part.regs .tsc ∈ ps) (rgns : Part.regs .gns ∈ ps) (h : Touches ps s₀ s) :
    Touches ps s₀ (armAnnounced mid kind s) := by
  unfold armAnnounced
  with_reducible repeat' first
    | assumption
    | intro _
    | apply touches_State_raise
    | apply touches_State_wr
    | apply touches_writeLeapCtl
    | apply touches_ite
    | exact has_Evt_gns
    | exact has_R_TSC_LEAP_UTC_HI_UTC
    | exact has_R_TSC_LEAP_UTC_LO_UTC

theorem touches_acceptUtc {ps : List Part} {s₀ : State} (p : UtcParams) (s : State) (htick : Part.tick ∈ ps) (rtsc : Part.regs .tsc ∈ ps) (rgns : Part.regs .gns ∈ ps) (h : Touches ps s₀ s) :
    Touches ps s₀ (acceptUtc p s) := by
  unfold acceptUtc
  with_reducible repeat' first
    | assumption
    | intro _
    | apply touches_State_wr
    | apply touches_State_hi
    | apply touches_writeUtcOfs
    | apply touches_State_raise
    | apply touches_armAnnounced
    | apply touches_ite
    | exact has_Evt_gns
    | exact has_R_GNS_UTC_ANNOUNCED
    | exact has_R_GNS_UTC_TAI_UTC
    | exact has_R_GNS_UTC_TAI_UTC_F
    | exact has_R_GNS_UTC_VALID
    | dsimp only
    | split

theorem touches_takeUtc {ps : List Part} {s₀ : State} (sys : Nat) (svid : Nat) (u : UtcWord) (s : State) (htick : Part.tick ∈ ps) (hgnss : Part.gnss ∈ ps) (rtsc : Part.regs .tsc ∈ ps) (rgns : Part.regs .gns ∈ ps) (h : Touches ps s₀ s) :
    Touches ps s₀ (takeUtc sys svid u s) := by
  unfold takeUtc
  with_reducible repeat' first
    | assumption
    | intro _
    | apply touches_acceptUtc
    | apply touches_ite
    | dsimp only
    | split
    | apply touches_set_gnss

theorem touches_keepNav {ps : List Part} {s₀ : State} (k : Nat) (r : List Nat) (s : State) (hgnss : Part.gnss ∈ ps) (h : Touches ps s₀ s) :
    Touches ps s₀ (keepNav k r s) := by
  unfold keepNav
  with_reducible repeat' first
    | assumption
    | intro _
    | apply touches_ite
    | dsimp only
    | split
    | apply touches_set_gnss

theorem touches_navRecord {ps : List Part} {s₀ : State} (c : Nat) (inv : Bool) (sub3 : Bool) (cn0 : Nat) (t : Nat) (symbols : List Nat) (utc : Option UtcWord) (s : State) (hmem : Part.mem ∈ ps) (htick : Part.tick ∈ ps) (hgnss : Part.gnss ∈ ps) (rtsc : Part.regs .tsc ∈ ps) (rgns : Part.regs .gns ∈ ps) (h : Touches ps s₀ s) :
    Touches ps s₀ (navRecord c inv sub3 cn0 t symbols utc s) := by
  unfold navRecord
  with_reducible repeat' first
    | assumption
    | intro _
    | apply touches_State_modCh
    | apply touches_keepNav
    | apply touches_pushNav
    | apply touches_takeUtc
    | apply touches_ite
    | dsimp only
    | split

theorem touches_markNotched {ps : List Part} {s₀ : State} (n : Nat) (s : State) (rgns : Part.regs .gns ∈ ps) (h : Touches ps s₀ s) :
    Touches ps s₀ (markNotched n s) := by
  unfold markNotched
  with_reducible repeat' first
    | assumption
    | intro _
    | apply touches_State_wr
    | apply touches_ite
    | apply touches_foldl
    | exact has_R_GNS_CH_STAT_NOTCHED _

theorem touches_raiseSpoof {ps : List Part} {s₀ : State} (a : Nat) (fails : Nat) (s : State) (hgnss : Part.gnss ∈ ps) (hlog : Part.log ∈ ps) (rgns : Part.regs .gns ∈ ps) (rwch : Part.regs .wch ∈ ps) (h : Touches ps s₀ s) :
    Touches ps s₀ (raiseSpoof a fails s) := by
  unfold raiseSpoof
  with_reducible repeat' first
    | assumption
    | intro _
    | apply touches_State_modAnt
    | apply touches_State_logRec
    | apply touches_State_raise
    | apply touches_State_wr
    | apply touches_ite
    | exact has_Evt_gns
    | exact has_R_GNS_STAT_SPOOF

theorem touches_antennaRun {ps : List Part} {s₀ : State} (a : Nat) (e : Nat) (x : Int) (s : State) (hgnss : Part.gnss ∈ ps) (h : Touches ps s₀ s) :
    Touches ps s₀ (antennaRun a e x s) := by
  unfold antennaRun
  with_reducible repeat' first
    | assumption
    | intro _
    | apply touches_ite
    | dsimp only
    | split
    | apply touches_set_gnss

theorem touches_surveyEpoch {ps : List Part} {s₀ : State} (a : Nat) (nav : Option (Int × Int × Int)) (sigma : Nat) (s : State) (hgnss : Part.gnss ∈ ps) (rgns : Part.regs .gns ∈ ps) (h : Touches ps s₀ s) :
    Touches ps s₀ (surveyEpoch a nav sigma s) := by
  unfold surveyEpoch
  with_reducible repeat' first
    | assumption
    | intro _
    | apply touches_State_modAnt
    | apply touches_State_wr
    | apply touches_ite
    | exact has_R_GNS_POS_CTL_STATE _
    | exact has_R_GNS_SURV_STAT_SIGMA _
    | dsimp only
    | split

theorem touches_storeSolution {ps : List Part} {s₀ : State} (a : Nat) (e : Nat) (x : Int) (valid : Bool) (nsv : Nat) (nexcl : Nat) (flags : Nat) (fix : GnssFix) (s : State) (rgns : Part.regs .gns ∈ ps) (h : Touches ps s₀ s) :
    Touches ps s₀ (storeSolution a e x valid nsv nexcl flags fix s) := by
  unfold storeSolution
  with_reducible repeat' first
    | assumption
    | intro _
    | apply touches_State_wr
    | apply touches_ite
    | apply touches_foldl_mem
    | exact has_R_GNS_SOL_EPOCH_HI_SEC _
    | exact has_R_GNS_SOL_EPOCH_LO_SEC _
    | exact has_R_GNS_SOL_OFS_HI_X _
    | exact has_R_GNS_SOL_OFS_LO_X _
    | exact has_R_GNS_SOL_QUAL_NEXCL _
    | exact has_R_GNS_SOL_QUAL_NSV _
    | exact has_R_GNS_SOL_QUAL_SIGMA _
    | (apply has_Reg_GNS_SOL_FLAGS; assumption)

theorem touches_markUsed {ps : List Part} {s₀ : State} (a : Nat) (used : List Nat) (excl : List Nat) (s : State) (rgns : Part.regs .gns ∈ ps) (h : Touches ps s₀ s) :
    Touches ps s₀ (markUsed a used excl s) := by
  unfold markUsed
  with_reducible repeat' first
    | assumption
    | intro _
    | apply touches_State_wr
    | apply touches_ite
    | apply touches_foldl
    | exact has_R_GNS_CH_STAT_EXCLUDED _
    | exact has_R_GNS_CH_STAT_USED _

theorem touches_noteWake {ps : List Part} {s₀ : State} (s : State) (hgnss : Part.gnss ∈ ps) (rgns : Part.regs .gns ∈ ps) (h : Touches ps s₀ s) :
    Touches ps s₀ (noteWake s) := by
  unfold noteWake
  with_reducible repeat' first
    | assumption
    | intro _
    | apply touches_State_wr
    | apply touches_ite
    | exact has_R_GNS_SLEEP_STAT_HOT
    | exact has_R_GNS_SLEEP_STAT_LAST_START
    | dsimp only
    | split
    | apply touches_set_gnss

theorem touches_resumeLoss {ps : List Part} {s₀ : State} (s : State) (hens : Part.ens ∈ ps) (hgnss : Part.gnss ∈ ps) (h : Touches ps s₀ s) :
    Touches ps s₀ (resumeLoss s) := by
  unfold resumeLoss
  with_reducible repeat' first
    | assumption
    | intro _
    | apply touches_State_modSlot
    | apply touches_ite
    | dsimp only
    | split
    | apply touches_set_gnss

theorem touches_spoofOther {ps : List Part} {s₀ : State} (o : Nat) (e : Nat) (s : State) (hens : Part.ens ∈ ps) (hgnss : Part.gnss ∈ ps) (hlog : Part.log ∈ ps) (rgns : Part.regs .gns ∈ ps) (rwch : Part.regs .wch ∈ ps) (h : Touches ps s₀ s) :
    Touches ps s₀ (spoofOther o e s) := by
  unfold spoofOther
  with_reducible repeat' first
    | assumption
    | intro _
    | apply touches_raiseSpoof
    | apply touches_State_modSlot
    | apply touches_State_hi
    | apply touches_ite
    | exact has_R_GNS_SOL_FLAGS_SPOOF _

theorem touches_reportSol {ps : List Part} {s₀ : State} (a : Nat) (e : Nat) (word : Nat) (r : Solved) (x : Int) (valid : Bool) (fix : GnssFix) (s : State) (hgnss : Part.gnss ∈ ps) (rgns : Part.regs .gns ∈ ps) (h : Touches ps s₀ s) :
    Touches ps s₀ (reportSol a e word r x valid fix s) := by
  unfold reportSol
  with_reducible repeat' first
    | assumption
    | intro _
    | apply touches_State_modAnt
    | apply touches_storeSolution
    | apply touches_markUsed
    | apply touches_State_wr
    | apply touches_ite
    | exact has_R_GNS_STAT_SOL

theorem touches_checkSpoof {ps : List Part} {s₀ : State} (a : Nat) (e : Nat) (at_ : Option (Int × Int × Int)) (r : Solved) (fix : GnssFix) (s : State) (hens : Part.ens ∈ ps) (hgnss : Part.gnss ∈ ps) (hlog : Part.log ∈ ps) (rgns : Part.regs .gns ∈ ps) (rwch : Part.regs .wch ∈ ps) (h : Touches ps s₀ s) :
    Touches ps s₀ (checkSpoof a e at_ r fix s) := by
  unfold checkSpoof
  with_reducible repeat' first
    | assumption
    | intro _
    | apply touches_raiseSpoof
    | apply touches_State_modAnt
    | apply touches_spoofOther
    | apply touches_ite

theorem touches_solveAt {ps : List Part} {s₀ : State} (a : Nat) (e : Nat) (fix : GnssFix) (s : State) (hens : Part.ens ∈ ps) (hgnss : Part.gnss ∈ ps) (hlog : Part.log ∈ ps) (rgns : Part.regs .gns ∈ ps) (rwch : Part.regs .wch ∈ ps) (h : Touches ps s₀ s) :
    Touches ps s₀ (solveAt a e fix s) := by
  unfold solveAt
  with_reducible repeat' first
    | assumption
    | intro _
    | apply touches_surveyEpoch
    | apply touches_State_modAnt
    | apply touches_checkSpoof
    | apply touches_antennaRun
    | apply touches_reportSol
    | apply touches_resumeLoss
    | apply touches_noteWake
    | apply touches_State_count
    | apply touches_ite

theorem touches_systemsAct {ps : List Part} {s₀ : State} (s : State) (hgnss : Part.gnss ∈ ps) (hwatch : Part.watch ∈ ps) (rgns : Part.regs .gns ∈ ps) (h : Touches ps s₀ s) :
    Touches ps s₀ (systemsAct s) := by
  unfold systemsAct
  with_reducible repeat' first
    | assumption
    | intro _
    | apply touches_dropUnusable
    | apply touches_ite
    | dsimp only
    | split
    | apply touches_set_gnss

theorem touches_solution {ps : List Part} {s₀ : State} (a : Nat) (fix : GnssFix) (s : State) (htick : Part.tick ∈ ps) (hlanes : Part.lanes ∈ ps) (hens : Part.ens ∈ ps) (hgnss : Part.gnss ∈ ps) (hlog : Part.log ∈ ps) (hwatch : Part.watch ∈ ps) (rgns : Part.regs .gns ∈ ps) (rwch : Part.regs .wch ∈ ps) (h : Touches ps s₀ s) :
    Touches ps s₀ (solution a fix s) := by
  unfold solution
  with_reducible repeat' first
    | assumption
    | intro _
    | apply touches_solveAt
    | apply touches_systemsAct
    | apply touches_State_waitTs0
    | apply touches_ite

theorem touches_discardSol {ps : List Part} {s₀ : State} (a : Nat) (e : Nat) (s : State) (hgnss : Part.gnss ∈ ps) (rgns : Part.regs .gns ∈ ps) (h : Touches ps s₀ s) :
    Touches ps s₀ (discardSol a e s) := by
  unfold discardSol
  with_reducible repeat' first
    | assumption
    | intro _
    | apply touches_State_modAnt
    | apply touches_State_wr
    | apply touches_State_raise
    | apply touches_ite
    | exact has_R_GNS_STAT_SOL
    | exact has_Evt_gns

theorem touches_solutionDelivery {ps : List Part} {s₀ : State} (a : Nat) (s : State) (hens : Part.ens ∈ ps) (hgnss : Part.gnss ∈ ps) (rgns : Part.regs .gns ∈ ps) (h : Touches ps s₀ s) :
    Touches ps s₀ (solutionDelivery a s) := by
  unfold solutionDelivery
  with_reducible repeat' first
    | assumption
    | intro _
    | apply touches_deliver
    | apply touches_State_modAnt
    | apply touches_discardSol
    | apply touches_ite
    | dsimp only
    | split

theorem touches_solutionLate {ps : List Part} {s₀ : State} (a : Nat) (s : State) (htick : Part.tick ∈ ps) (hlanes : Part.lanes ∈ ps) (hgnss : Part.gnss ∈ ps) (hwatch : Part.watch ∈ ps) (rgns : Part.regs .gns ∈ ps) (h : Touches ps s₀ s) :
    Touches ps s₀ (solutionLate a s) := by
  unfold solutionLate
  with_reducible repeat' first
    | assumption
    | intro _
    | apply touches_discardSol
    | apply touches_systemsAct
    | apply touches_State_waitTs0
    | apply touches_ite

theorem touches_spoofClear {ps : List Part} {s₀ : State} (a : Nat) (s : State) (htick : Part.tick ∈ ps) (hlanes : Part.lanes ∈ ps) (rgns : Part.regs .gns ∈ ps) (h : Touches ps s₀ s) :
    Touches ps s₀ (spoofClear a s) := by
  unfold spoofClear
  with_reducible repeat' first
    | assumption
    | intro _
    | apply touches_State_wr
    | apply touches_State_waitClk
    | apply touches_ite
    | exact has_R_GNS_STAT_SPOOF
    | dsimp only
    | split

theorem touches_writePos {ps : List Part} {s₀ : State} (a : Nat) (axis : Nat) (w : Nat) (s : State) (hgnss : Part.gnss ∈ ps) (rgns : Part.regs .gns ∈ ps) (h : Touches ps s₀ s) :
    Touches ps s₀ (writePos a axis w s) := by
  unfold writePos
  with_reducible repeat' first
    | assumption
    | intro _
    | apply touches_State_wr
    | apply touches_State_modAnt
    | apply touches_ite
    | exact has_R_GNS_POS_POS _

theorem touches_beginSurvey {ps : List Part} {s₀ : State} (a : Nat) (s : State) (hgnss : Part.gnss ∈ ps) (rgns : Part.regs .gns ∈ ps) (h : Touches ps s₀ s) :
    Touches ps s₀ (beginSurvey a s) := by
  unfold beginSurvey
  with_reducible repeat' first
    | assumption
    | intro _
    | apply touches_State_modAnt
    | apply touches_State_wr
    | apply touches_ite
    | exact has_R_GNS_POS_CTL_STATE _
    | exact has_R_GNS_SURV_STAT_SIGMA _

theorem touches_surveyDone {ps : List Part} {s₀ : State} (a : Nat) (s : State) (htick : Part.tick ∈ ps) (hlanes : Part.lanes ∈ ps) (hgnss : Part.gnss ∈ ps) (rgns : Part.regs .gns ∈ ps) (h : Touches ps s₀ s) :
    Touches ps s₀ (surveyDone a s) := by
  unfold surveyDone
  with_reducible repeat' first
    | assumption
    | intro _
    | apply touches_State_waitClk
    | apply touches_State_wr
    | apply touches_State_raise
    | apply touches_State_modAnt
    | apply touches_ite
    | exact has_Evt_gns
    | exact has_R_GNS_POS_CTL_STATE _
    | exact has_R_GNS_POS_POS _
    | exact has_R_GNS_SURV_STAT_ELAPSED _
    | dsimp only
    | split

theorem touches_surveySlow {ps : List Part} {s₀ : State} (a : Nat) (s : State) (htick : Part.tick ∈ ps) (hlanes : Part.lanes ∈ ps) (rgns : Part.regs .gns ∈ ps) (h : Touches ps s₀ s) :
    Touches ps s₀ (surveySlow a s) := by
  unfold surveySlow
  with_reducible repeat' first
    | assumption
    | intro _
    | apply touches_State_raise
    | apply touches_State_waitClk
    | apply touches_ite
    | exact has_Evt_gns
    | dsimp only
    | split

theorem touches_writePosCtl {ps : List Part} {s₀ : State} (a : Nat) (w : Nat) (s : State) (hgnss : Part.gnss ∈ ps) (rgns : Part.regs .gns ∈ ps) (h : Touches ps s₀ s) :
    Touches ps s₀ (writePosCtl a w s) := by
  unfold writePosCtl
  with_reducible repeat' first
    | assumption
    | intro _
    | apply touches_State_storeReg
    | apply touches_State_modAnt
    | apply touches_State_wr
    | apply touches_beginSurvey
    | apply touches_ite
    | exact has_R_GNS_POS_CTL_STATE _
    | (apply has_Reg_GNS_POS_CTL; assumption)
    | dsimp only
    | split

theorem touches_setNotch {ps : List Part} {s₀ : State} (n : Nat) (k : Nat) (v : Bool) (s : State) (hgnss : Part.gnss ∈ ps) (rgns : Part.regs .gns ∈ ps) (h : Touches ps s₀ s) :
    Touches ps s₀ (setNotch n k v s) := by
  unfold setNotch
  with_reducible repeat' first
    | assumption
    | intro _
    | apply touches_State_wr
    | apply touches_State_modGnsPort
    | apply touches_ite
    | exact has_R_GNS_NOTCH_CTL_ENGAGED _

theorem touches_followPeak {ps : List Part} {s₀ : State} (n : Nat) (k : Nat) (peaks : List (Int × Nat)) (s : State) (hgnss : Part.gnss ∈ ps) (rgns : Part.regs .gns ∈ ps) (h : Touches ps s₀ s) :
    Touches ps s₀ (followPeak n k peaks s) := by
  unfold followPeak
  with_reducible repeat' first
    | assumption
    | intro _
    | apply touches_State_wr
    | apply touches_State_modGnsPort
    | apply touches_ite
    | exact has_R_GNS_NOTCH_FREQ _

theorem touches_engageOn {ps : List Part} {s₀ : State} (n : Nat) (had : List (Int × Nat)) (s : State) (p : Int × Nat) (hgnss : Part.gnss ∈ ps) (rgns : Part.regs .gns ∈ ps) (h : Touches ps s₀ s) :
    Touches ps s₀ (engageOn n had s p) := by
  unfold engageOn
  with_reducible repeat' first
    | assumption
    | intro _
    | apply touches_setNotch
    | apply touches_State_wr
    | apply touches_ite
    | exact has_R_GNS_NOTCH_FREQ _
    | dsimp only
    | split

theorem touches_notchUpdate {ps : List Part} {s₀ : State} (n : Nat) (peaks : List (Int × Nat)) (s : State) (hgnss : Part.gnss ∈ ps) (rgns : Part.regs .gns ∈ ps) (h : Touches ps s₀ s) :
    Touches ps s₀ (notchUpdate n peaks s) := by
  unfold notchUpdate
  with_reducible repeat' first
    | assumption
    | intro _
    | apply touches_followPeak
    | apply touches_markNotched
    | apply touches_engageOn
    | apply touches_ite
    | apply touches_foldl

theorem touches_notchRelease {ps : List Part} {s₀ : State} (n : Nat) (k : Nat) (s : State) (htick : Part.tick ∈ ps) (hlanes : Part.lanes ∈ ps) (hgnss : Part.gnss ∈ ps) (rgns : Part.regs .gns ∈ ps) (h : Touches ps s₀ s) :
    Touches ps s₀ (notchRelease n k s) := by
  unfold notchRelease
  with_reducible repeat' first
    | assumption
    | intro _
    | apply touches_markNotched
    | apply touches_State_lo
    | apply touches_setNotch
    | apply touches_State_waitClk
    | apply touches_ite
    | exact has_R_GNS_NOTCH_FREQ _

theorem touches_manualNotch {ps : List Part} {s₀ : State} (n : Nat) (k : Nat) (s : State) (hgnss : Part.gnss ∈ ps) (rgns : Part.regs .gns ∈ ps) (h : Touches ps s₀ s) :
    Touches ps s₀ (manualNotch n k s) := by
  unfold manualNotch
  with_reducible repeat' first
    | assumption
    | intro _
    | apply touches_setNotch

theorem touches_writeNotchCtl {ps : List Part} {s₀ : State} (n : Nat) (w : Nat) (s : State) (hgnss : Part.gnss ∈ ps) (rgns : Part.regs .gns ∈ ps) (h : Touches ps s₀ s) :
    Touches ps s₀ (writeNotchCtl n w s) := by
  unfold writeNotchCtl
  with_reducible repeat' first
    | assumption
    | intro _
    | apply touches_State_storeReg
    | apply touches_markNotched
    | apply touches_manualNotch
    | apply touches_setNotch
    | apply touches_State_lo
    | apply touches_ite
    | apply touches_foldl
    | exact has_R_GNS_NOTCH_FREQ _
    | (apply has_Reg_GNS_NOTCH_CTL; assumption)

theorem touches_writeNotchFreq {ps : List Part} {s₀ : State} (n : Nat) (k : Nat) (w : Nat) (s : State) (hgnss : Part.gnss ∈ ps) (rgns : Part.regs .gns ∈ ps) (h : Touches ps s₀ s) :
    Touches ps s₀ (writeNotchFreq n k w s) := by
  unfold writeNotchFreq
  with_reducible repeat' first
    | assumption
    | intro _
    | apply touches_State_wr
    | apply touches_markNotched
    | apply touches_manualNotch
    | apply touches_ite
    | exact has_R_GNS_NOTCH_FREQ _

theorem touches_jamBaseline {ps : List Part} {s₀ : State} (n : Nat) (floor : Nat) (s : State) (htick : Part.tick ∈ ps) (hlanes : Part.lanes ∈ ps) (hgnss : Part.gnss ∈ ps) (rgns : Part.regs .gns ∈ ps) (h : Touches ps s₀ s) :
    Touches ps s₀ (jamBaseline n floor s) := by
  unfold jamBaseline
  with_reducible repeat' first
    | assumption
    | intro _
    | apply touches_State_waitClk
    | apply touches_judgeJam
    | apply touches_State_lo
    | apply touches_State_modGnsPort
    | apply touches_ite
    | exact has_R_GNS_PORT_JAM_LEARN _
    | dsimp only
    | split

theorem touches_writePortJam {ps : List Part} {s₀ : State} (n : Nat) (w : Nat) (s : State) (hgnss : Part.gnss ∈ ps) (rgns : Part.regs .gns ∈ ps) (h : Touches ps s₀ s) :
    Touches ps s₀ (writePortJam n w s) := by
  unfold writePortJam
  with_reducible repeat' first
    | assumption
    | intro _
    | apply touches_State_storeReg
    | apply touches_State_hi
    | apply touches_State_modGnsPort
    | apply touches_ite
    | exact has_R_GNS_PORT_JAM_LEARN _
    | (apply has_Reg_GNS_PORT_JAM; assumption)

theorem touches_antSwitch {ps : List Part} {s₀ : State} (s : State) (htick : Part.tick ∈ ps) (hlanes : Part.lanes ∈ ps) (hgnss : Part.gnss ∈ ps) (hwatch : Part.watch ∈ ps) (rgns : Part.regs .gns ∈ ps) (h : Touches ps s₀ s) :
    Touches ps s₀ (antSwitch s) := by
  unfold antSwitch
  with_reducible repeat' first
    | assumption
    | intro _
    | apply touches_State_modAnt
    | apply touches_State_waitClk
    | apply touches_trimPool
    | apply touches_State_raise
    | apply touches_State_wr
    | apply touches_ite
    | exact has_Evt_gns
    | exact has_R_GNS_STAT_ACTIVE_ANT
    | dsimp only
    | split

theorem touches_antReturn {ps : List Part} {s₀ : State} (s : State) (htick : Part.tick ∈ ps) (hlanes : Part.lanes ∈ ps) (hgnss : Part.gnss ∈ ps) (hwatch : Part.watch ∈ ps) (rgns : Part.regs .gns ∈ ps) (h : Touches ps s₀ s) :
    Touches ps s₀ (antReturn s) := by
  unfold antReturn
  with_reducible repeat' first
    | assumption
    | intro _
    | apply touches_trimPool
    | apply touches_State_wr
    | apply touches_State_waitClk
    | apply touches_ite
    | exact has_R_GNS_STAT_ACTIVE_ANT
    | dsimp only
    | split

theorem touches_holdRef {ps : List Part} {s₀ : State} (s : State) (old : Nat) (hgnss : Part.gnss ∈ ps) (h : Touches ps s₀ s) :
    Touches ps s₀ (holdRef s old) := by
  unfold holdRef
  with_reducible repeat' first
    | assumption
    | intro _
    | apply touches_ite
    | dsimp only
    | split
    | apply touches_set_gnss

theorem touches_writeGnsCtl {ps : List Part} {s₀ : State} (w : Nat) (s : State) (hgnss : Part.gnss ∈ ps) (hwatch : Part.watch ∈ ps) (rgns : Part.regs .gns ∈ ps) (h : Touches ps s₀ s) :
    Touches ps s₀ (writeGnsCtl w s) := by
  unfold writeGnsCtl
  with_reducible repeat' first
    | assumption
    | intro _
    | apply touches_holdRef
    | apply touches_State_storeReg
    | apply touches_State_wr
    | apply touches_State_lo
    | apply touches_portIdle
    | apply touches_portAwaits
    | apply touches_restartPins
    | apply touches_trimPool
    | apply touches_dropUnusable
    | apply touches_ite
    | apply touches_foldl
    | exact has_R_GNS_STAT_ACTIVE_ANT
    | exact has_R_GNS_STAT_RUN
    | (apply has_Reg_GNS_CTL; assumption)
    | dsimp only
    | split
    | apply touches_set_gnss

theorem touches_gnsSleep {ps : List Part} {s₀ : State} (span : Nat) (s : State) (hgnss : Part.gnss ∈ ps) (hwatch : Part.watch ∈ ps) (rgns : Part.regs .gns ∈ ps) (h : Touches ps s₀ s) :
    Touches ps s₀ (gnsSleep span s) := by
  unfold gnsSleep
  with_reducible repeat' first
    | assumption
    | intro _
    | apply touches_idleWhere
    | apply touches_State_lo
    | apply touches_State_hi
    | apply touches_State_modAnt
    | apply touches_ite
    | apply touches_foldl
    | exact has_R_GNS_PORT_STAT_CLK_OK _
    | exact has_R_GNS_SLEEP_STAT_ASLEEP
    | exact has_R_GNS_STAT_RUN
    | exact has_R_GNS_STAT_SOL
    | dsimp only
    | split
    | apply touches_set_gnss

theorem touches_resumeCh {ps : List Part} {s₀ : State} (s : State) (p : Nat × GnssSig) (hgnss : Part.gnss ∈ ps) (hwatch : Part.watch ∈ ps) (rgns : Part.regs .gns ∈ ps) (h : Touches ps s₀ s) :
    Touches ps s₀ (resumeCh s p) := by
  unfold resumeCh
  with_reducible repeat' first
    | assumption
    | intro _
    | apply touches_startCh
    | apply touches_ite

theorem touches_loadCh {ps : List Part} {s₀ : State} (s : State) (c : Nat) (hgnss : Part.gnss ∈ ps) (rgns : Part.regs .gns ∈ ps) (h : Touches ps s₀ s) :
    Touches ps s₀ (loadCh s c) := by
  unfold loadCh
  with_reducible repeat' first
    | assumption
    | intro _
    | apply touches_State_modCh
    | apply touches_State_wr
    | apply touches_ite
    | exact has_R_GNS_CH_DOP_DOP _

theorem touches_gnsWake {ps : List Part} {s₀ : State} (s : State) (hgnss : Part.gnss ∈ ps) (hwatch : Part.watch ∈ ps) (rgns : Part.regs .gns ∈ ps) (h : Touches ps s₀ s) :
    Touches ps s₀ (gnsWake s) := by
  unfold gnsWake
  with_reducible repeat' first
    | assumption
    | intro _
    | apply touches_portAwaits
    | apply touches_loadCh
    | apply touches_restartPins
    | apply touches_trimPool
    | apply touches_resumeCh
    | apply touches_State_wr
    | apply touches_State_lo
    | apply touches_foldl
    | exact has_R_GNS_SLEEP_STAT_ASLEEP
    | exact has_R_GNS_SLEEP_CTL_WAKE
    | exact has_R_GNS_STAT_RUN
    | dsimp only
    | split
    | apply touches_set_gnss

theorem touches_gnssSleepEnd {ps : List Part} {s₀ : State} (s : State) (htick : Part.tick ∈ ps) (hlanes : Part.lanes ∈ ps) (hgnss : Part.gnss ∈ ps) (hwatch : Part.watch ∈ ps) (rgns : Part.regs .gns ∈ ps) (h : Touches ps s₀ s) :
    Touches ps s₀ (gnssSleepEnd s) := by
  unfold gnssSleepEnd
  with_reducible repeat' first
    | assumption
    | intro _
    | apply touches_gnsWake
    | apply touches_State_waitClk
    | apply touches_ite

theorem touches_wakeEarly {ps : List Part} {s₀ : State} (s : State) (hgnss : Part.gnss ∈ ps) (hwatch : Part.watch ∈ ps) (rgns : Part.regs .gns ∈ ps) (h : Touches ps s₀ s) :
    Touches ps s₀ (wakeEarly s) := by
  unfold wakeEarly
  with_reducible repeat' first
    | assumption
    | intro _
    | apply touches_gnsWake
    | apply touches_State_raise
    | apply touches_ite
    | exact has_Evt_gns

theorem touches_writeSleepCtl {ps : List Part} {s₀ : State} (w : Nat) (s : State) (hgnss : Part.gnss ∈ ps) (hwatch : Part.watch ∈ ps) (rgns : Part.regs .gns ∈ ps) (h : Touches ps s₀ s) :
    Touches ps s₀ (writeSleepCtl w s) := by
  unfold writeSleepCtl
  with_reducible repeat' first
    | assumption
    | intro _
    | apply touches_State_storeReg
    | apply touches_wakeEarly
    | apply touches_ite
    | (apply has_Reg_GNS_SLEEP_CTL; assumption)

theorem touches_gnssWake {ps : List Part} {s₀ : State} (w : Option Word) (s : State) (hgnss : Part.gnss ∈ ps) (hwatch : Part.watch ∈ ps) (rgns : Part.regs .gns ∈ ps) (h : Touches ps s₀ s) :
    Touches ps s₀ (gnssWake w s) := by
  unfold gnssWake
  with_reducible repeat' first
    | assumption
    | intro _
    | apply touches_writeSleepCtl
    | apply touches_wakeEarly
    | apply touches_ite
    | dsimp only
    | split

theorem touches_hotFail {ps : List Part} {s₀ : State} (s : State) (htick : Part.tick ∈ ps) (hlanes : Part.lanes ∈ ps) (hens : Part.ens ∈ ps) (hgnss : Part.gnss ∈ ps) (rgns : Part.regs .gns ∈ ps) (h : Touches ps s₀ s) :
    Touches ps s₀ (hotFail s) := by
  unfold hotFail
  with_reducible repeat' first
    | assumption
    | intro _
    | apply touches_resumeLoss
    | apply touches_State_raise
    | apply touches_State_lo
    | apply touches_State_waitClk
    | apply touches_ite
    | exact has_Evt_gns
    | exact has_R_GNS_SLEEP_STAT_HOT
    | dsimp only
    | split

theorem touches_State_modRfm {ps : List Part} {s₀ : State} (s : State) (p : Nat) (f : RfmPort → RfmPort) (hrfm : Part.rfm ∈ ps) (h : Touches ps s₀ s) :
    Touches ps s₀ (State.modRfm s p f) := by
  unfold State.modRfm
  with_reducible repeat' first
    | assumption
    | intro _
    | apply touches_ite
    | dsimp only
    | split
    | apply touches_set_rfm

theorem touches_rfmEvt {ps : List Part} {s₀ : State} (p : Nat) (bitNo : Nat) (s : State) (rrfm : Part.regs .rfm ∈ ps) (h : Touches ps s₀ s) :
    Touches ps s₀ (rfmEvt p bitNo s) := by
  unfold rfmEvt
  with_reducible repeat' first
    | assumption
    | intro _
    | apply touches_State_raise
    | apply touches_ite
    | exact has_Evt_rfm

theorem touches_setCandidate {ps : List Part} {s₀ : State} (p : Nat) (s : State) (hens : Part.ens ∈ ps) (rens : Part.regs .ens ∈ ps) (rrfm : Part.regs .rfm ∈ ps) (h : Touches ps s₀ s) :
    Touches ps s₀ (setCandidate p s) := by
  unfold setCandidate
  with_reducible repeat' first
    | assumption
    | intro _
    | apply touches_State_hi
    | apply touches_State_lo
    | apply touches_anchorHold
    | apply touches_ite
    | exact has_R_RFM_STAT_CANDIDATE _
    | dsimp only
    | split
    | apply touches_set_ens

theorem touches_setRfm {ps : List Part} {s₀ : State} (p : Nat) (v : Rfm) (s : State) (hens : Part.ens ∈ ps) (hrfm : Part.rfm ∈ ps) (rens : Part.regs .ens ∈ ps) (rrfm : Part.regs .rfm ∈ ps) (h : Touches ps s₀ s) :
    Touches ps s₀ (setRfm p v s) := by
  unfold setRfm
  with_reducible repeat' first
    | assumption
    | intro _
    | apply touches_State_modRfm
    | apply touches_setCandidate
    | apply touches_State_wr
    | apply touches_State_lo
    | apply touches_ite
    | exact has_R_RFM_STAT_STATE _
    | exact has_R_RFM_STAT_CLK_OK _
    | exact has_R_RFM_STAT_PARKED _

theorem touches_updateLife {ps : List Part} {s₀ : State} (sender : Nat) (p : Nat) (s : State) (hlog : Part.log ∈ ps) (rrfm : Part.regs .rfm ∈ ps) (rwch : Part.regs .wch ∈ ps) (h : Touches ps s₀ s) :
    Touches ps s₀ (updateLife sender p s) := by
  unfold updateLife
  with_reducible repeat' first
    | assumption
    | intro _
    | apply touches_rfmEvt
    | apply touches_State_logRec
    | apply touches_State_wr
    | apply touches_ite
    | exact has_R_RFM_LIFE_REMAIN _
    | exact has_R_RFM_STAT_LIFE _

theorem touches_setEfc {ps : List Part} {s₀ : State} (p : Nat) (code : Nat) (s : State) (rrfm : Part.regs .rfm ∈ ps) (h : Touches ps s₀ s) :
    Touches ps s₀ (setEfc p code s) := by
  unfold setEfc
  with_reducible repeat' first
    | assumption
    | intro _
    | apply touches_rfmEvt
    | apply touches_State_wr
    | apply touches_ite
    | exact has_R_RFM_EFC_CODE _
    | exact has_R_RFM_STAT_EFC_RAIL _

theorem touches_moduleInsert {ps : List Part} {s₀ : State} (p : Nat) (s : State) (hens : Part.ens ∈ ps) (hrfm : Part.rfm ∈ ps) (rens : Part.regs .ens ∈ ps) (rrfm : Part.regs .rfm ∈ ps) (h : Touches ps s₀ s) :
    Touches ps s₀ (moduleInsert p s) := by
  unfold moduleInsert
  with_reducible repeat' first
    | assumption
    | intro _
    | apply touches_rfmEvt
    | apply touches_setRfm
    | apply touches_ite

theorem touches_clearRecord {ps : List Part} {s₀ : State} (p : Nat) (s : State) (rrfm : Part.regs .rfm ∈ ps) (h : Touches ps s₀ s) :
    Touches ps s₀ (clearRecord p s) := by
  unfold clearRecord
  with_reducible repeat' first
    | assumption
    | intro _
    | apply touches_State_lo
    | apply touches_ite
    | apply touches_foldl
    | exact has_R_RFM_REC_REC _

theorem touches_forgetWords {ps : List Part} {s₀ : State} (p : Nat) (s : State) (hens : Part.ens ∈ ps) (h : Touches ps s₀ s) :
    Touches ps s₀ (forgetWords p s) := by
  unfold forgetWords
  with_reducible repeat' first
    | assumption
    | intro _
    | apply touches_dropWords
    | apply touches_ite

theorem touches_moduleRemove {ps : List Part} {s₀ : State} (p : Nat) (s : State) (hens : Part.ens ∈ ps) (hrfm : Part.rfm ∈ ps) (hlog : Part.log ∈ ps) (rens : Part.regs .ens ∈ ps) (rrfm : Part.regs .rfm ∈ ps) (rwch : Part.regs .wch ∈ ps) (h : Touches ps s₀ s) :
    Touches ps s₀ (moduleRemove p s) := by
  unfold moduleRemove
  with_reducible repeat' first
    | assumption
    | intro _
    | apply touches_State_modRfm
    | apply touches_setEfc
    | apply touches_forgetWords
    | apply touches_rfmEvt
    | apply touches_updateLife
    | apply touches_setRfm
    | apply touches_clearRecord
    | apply touches_State_lo
    | apply touches_ite
    | exact has_R_RFM_CFG_PARK _
    | exact has_R_RFM_STAT_IDENT_OK _
    | exact has_R_RFM_STAT_HOURS_OK _
    | exact has_R_RFM_STAT_ALM _

theorem touches_newModule {ps : List Part} {s₀ : State} (p : Nat) (s : State) (hens : Part.ens ∈ ps) (rens : Part.regs .ens ∈ ps) (rrfm : Part.regs .rfm ∈ ps) (h : Touches ps s₀ s) :
    Touches ps s₀ (newModule p s) := by
  unfold newModule
  with_reducible repeat' first
    | assumption
    | intro _
    | apply touches_forgetBias
    | apply touches_rfmEvt

theorem touches_storeRecord {ps : List Part} {s₀ : State} (p : Nat) (r : List Nat) (s : State) (rrfm : Part.regs .rfm ∈ ps) (h : Touches ps s₀ s) :
    Touches ps s₀ (storeRecord p r s) := by
  unfold storeRecord
  with_reducible repeat' first
    | assumption
    | intro _
    | apply touches_State_wr
    | apply touches_ite
    | apply touches_foldl
    | exact has_R_RFM_REC_REC _

theorem touches_takeRecord {ps : List Part} {s₀ : State} (p : Nat) (r : List Nat) (s : State) (hens : Part.ens ∈ ps) (hrfm : Part.rfm ∈ ps) (rens : Part.regs .ens ∈ ps) (rrfm : Part.regs .rfm ∈ ps) (h : Touches ps s₀ s) :
    Touches ps s₀ (takeRecord p r s) := by
  unfold takeRecord
  with_reducible repeat' first
    | assumption
    | intro _
    | apply touches_storeRecord
    | apply touches_rfmEvt
    | apply touches_clearRecord
    | apply touches_State_modRfm
    | apply touches_newModule
    | apply touches_State_hi
    | apply touches_State_lo
    | apply touches_ite
    | exact has_R_RFM_STAT_IDENT_OK _

theorem touches_takeHours {ps : List Part} {s₀ : State} (p : Nat) (a : List Nat) (b : List Nat) (s : State) (hrfm : Part.rfm ∈ ps) (rrfm : Part.regs .rfm ∈ ps) (h : Touches ps s₀ s) :
    Touches ps s₀ (takeHours p a b s) := by
  unfold takeHours
  with_reducible repeat' first
    | assumption
    | intro _
    | apply touches_State_modRfm
    | apply touches_State_wr
    | apply touches_State_hi
    | apply touches_setEfc
    | apply touches_State_lo
    | apply touches_rfmEvt
    | apply touches_ite
    | exact has_R_RFM_HOURS_HOURS _
    | exact has_R_RFM_STAT_HOURS_OK _
    | exact has_R_RFM_USE_MINUTES _
    | exact has_R_RFM_USE_SEQ _
    | dsimp only
    | split

theorem touches_enterReady {ps : List Part} {s₀ : State} (p : Nat) (s : State) (hens : Part.ens ∈ ps) (hrfm : Part.rfm ∈ ps) (rens : Part.regs .ens ∈ ps) (rrfm : Part.regs .rfm ∈ ps) (h : Touches ps s₀ s) :
    Touches ps s₀ (enterReady p s) := by
  unfold enterReady
  with_reducible repeat' first
    | assumption
    | intro _
    | apply touches_rfmEvt
    | apply touches_setRfm
    | apply touches_State_modRfm

theorem touches_warmReady {ps : List Part} {s₀ : State} (p : Nat) (s : State) (hens : Part.ens ∈ ps) (hrfm : Part.rfm ∈ ps) (rens : Part.regs .ens ∈ ps) (rrfm : Part.regs .rfm ∈ ps) (h : Touches ps s₀ s) :
    Touches ps s₀ (warmReady p s) := by
  unfold warmReady
  with_reducible repeat' first
    | assumption
    | intro _
    | apply touches_enterReady
    | apply touches_ite
    | dsimp only
    | split

theorem touches_recordRead {ps : List Part} {s₀ : State} (p : Nat) (r : Option (List Byte)) (a : List Byte) (b : List Byte) (s : State) (hens : Part.ens ∈ ps) (hrfm : Part.rfm ∈ ps) (hlog : Part.log ∈ ps) (rens : Part.regs .ens ∈ ps) (rrfm : Part.regs .rfm ∈ ps) (rwch : Part.regs .wch ∈ ps) (h : Touches ps s₀ s) :
    Touches ps s₀ (recordRead p r a b s) := by
  unfold recordRead
  with_reducible repeat' first
    | assumption
    | intro _
    | apply touches_takeRecord
    | apply touches_forgetWords
    | apply touches_takeHours
    | apply touches_updateLife
    | apply touches_State_modRfm
    | apply touches_warmReady
    | apply touches_setRfm
    | apply touches_ite

theorem touches_warmupDone {ps : List Part} {s₀ : State} (p : Nat) (s : State) (htick : Part.tick ∈ ps) (hlanes : Part.lanes ∈ ps) (hens : Part.ens ∈ ps) (hrfm : Part.rfm ∈ ps) (rens : Part.regs .ens ∈ ps) (rrfm : Part.regs .rfm ∈ ps) (h : Touches ps s₀ s) :
    Touches ps s₀ (warmupDone p s) := by
  unfold warmupDone
  with_reducible repeat' first
    | assumption
    | intro _
    | apply touches_warmReady
    | apply touches_State_waitClk
    | apply touches_ite
    | dsimp only
    | split

theorem touches_warmFail {ps : List Part} {s₀ : State} (p : Nat) (s : State) (htick : Part.tick ∈ ps) (hlanes : Part.lanes ∈ ps) (hens : Part.ens ∈ ps) (hrfm : Part.rfm ∈ ps) (rens : Part.regs .ens ∈ ps) (rrfm : Part.regs .rfm ∈ ps) (h : Touches ps s₀ s) :
    Touches ps s₀ (warmFail p s) := by
  unfold warmFail
  with_reducible repeat' first
    | assumption
    | intro _
    | apply touches_warmupDone
    | apply touches_rfmEvt
    | apply touches_State_waitClk
    | apply touches_State_modRfm
    | apply touches_ite
    | dsimp only
    | split

theorem touches_moduleAlarm {ps : List Part} {s₀ : State} (p : Nat) (us : Nat) (s : State) (hens : Part.ens ∈ ps) (hrfm : Part.rfm ∈ ps) (rens : Part.regs .ens ∈ ps) (rrfm : Part.regs .rfm ∈ ps) (h : Touches ps s₀ s) :
    Touches ps s₀ (moduleAlarm p us s) := by
  unfold moduleAlarm
  with_reducible repeat' first
    | assumption
    | intro _
    | apply touches_State_hi
    | apply touches_rfmEvt
    | apply touches_setRfm
    | apply touches_ite
    | exact has_R_RFM_STAT_ALM _

theorem touches_alarmClear {ps : List Part} {s₀ : State} (p : Nat) (ms : Nat) (s : State) (hens : Part.ens ∈ ps) (hrfm : Part.rfm ∈ ps) (rens : Part.regs .ens ∈ ps) (rrfm : Part.regs .rfm ∈ ps) (h : Touches ps s₀ s) :
    Touches ps s₀ (alarmClear p ms s) := by
  unfold alarmClear
  with_reducible repeat' first
    | assumption
    | intro _
    | apply touches_State_lo
    | apply touches_enterReady
    | apply touches_warmReady
    | apply touches_ite
    | exact has_R_RFM_STAT_ALM _

theorem touches_beginWrite {ps : List Part} {s₀ : State} (p : Nat) (w : HoursWrite) (s : State) (hrfm : Part.rfm ∈ ps) (h : Touches ps s₀ s) :
    Touches ps s₀ (beginWrite p w s) := by
  unfold beginWrite
  with_reducible repeat' first
    | assumption
    | intro _
    | apply touches_State_emit
    | apply touches_State_modRfm

theorem touches_nextJob {ps : List Part} {s₀ : State} (p : Nat) (s : State) (hrfm : Part.rfm ∈ ps) (h : Touches ps s₀ s) :
    Touches ps s₀ (nextJob p s) := by
  unfold nextJob
  with_reducible repeat' first
    | assumption
    | intro _
    | apply touches_beginWrite
    | apply touches_State_modRfm
    | apply touches_ite
    | dsimp only
    | split

theorem touches_addJob {ps : List Part} {s₀ : State} (p : Nat) (j : HoursJob) (s : State) (hrfm : Part.rfm ∈ ps) (h : Touches ps s₀ s) :
    Touches ps s₀ (addJob p j s) := by
  unfold addJob
  with_reducible repeat' first
    | assumption
    | intro _
    | apply touches_nextJob
    | apply touches_State_modRfm

theorem touches_parkNow {ps : List Part} {s₀ : State} (p : Nat) (s : State) (hens : Part.ens ∈ ps) (hrfm : Part.rfm ∈ ps) (rens : Part.regs .ens ∈ ps) (rrfm : Part.regs .rfm ∈ ps) (h : Touches ps s₀ s) :
    Touches ps s₀ (parkNow p s) := by
  unfold parkNow
  with_reducible repeat' first
    | assumption
    | intro _
    | apply touches_setRfm
    | apply touches_ite

theorem touches_beginPark {ps : List Part} {s₀ : State} (p : Nat) (s : State) (hens : Part.ens ∈ ps) (hrfm : Part.rfm ∈ ps) (rens : Part.regs .ens ∈ ps) (rrfm : Part.regs .rfm ∈ ps) (h : Touches ps s₀ s) :
    Touches ps s₀ (beginPark p s) := by
  unfold beginPark
  with_reducible repeat' first
    | assumption
    | intro _
    | apply touches_addJob
    | apply touches_parkNow
    | apply touches_ite

theorem touches_judgeClock {ps : List Part} {s₀ : State} (p : Nat) (s : State) (hens : Part.ens ∈ ps) (hrfm : Part.rfm ∈ ps) (rens : Part.regs .ens ∈ ps) (rrfm : Part.regs .rfm ∈ ps) (h : Touches ps s₀ s) :
    Touches ps s₀ (judgeClock p s) := by
  unfold judgeClock
  with_reducible repeat' first
    | assumption
    | intro _
    | apply touches_warmReady
    | apply touches_setCandidate
    | apply touches_State_wr
    | exact has_R_RFM_STAT_CLK_OK _
    | dsimp only
    | split

theorem touches_writeRfmCfg {ps : List Part} {s₀ : State} (p : Nat) (w : Nat) (s : State) (hens : Part.ens ∈ ps) (hrfm : Part.rfm ∈ ps) (rens : Part.regs .ens ∈ ps) (rrfm : Part.regs .rfm ∈ ps) (h : Touches ps s₀ s) :
    Touches ps s₀ (writeRfmCfg p w s) := by
  unfold writeRfmCfg
  with_reducible repeat' first
    | assumption
    | intro _
    | apply touches_judgeClock
    | apply touches_beginPark
    | apply touches_warmReady
    | apply touches_setRfm
    | apply touches_State_storeReg
    | apply touches_ite
    | (apply has_Reg_RFM_CFG; assumption)

theorem touches_railWarn {ps : List Part} {s₀ : State} (p : Nat) (s : State) (rrfm : Part.regs .rfm ∈ ps) (h : Touches ps s₀ s) :
    Touches ps s₀ (railWarn p s) := by
  unfold railWarn
  with_reducible repeat' first
    | assumption
    | intro _
    | apply touches_rfmEvt
    | apply touches_ite

theorem touches_writeRfmCtl {ps : List Part} {s₀ : State} (sender : Nat) (w : Nat) (s : State) (hlog : Part.log ∈ ps) (rrfm : Part.regs .rfm ∈ ps) (rwch : Part.regs .wch ∈ ps) (h : Touches ps s₀ s) :
    Touches ps s₀ (writeRfmCtl sender w s) := by
  unfold writeRfmCtl
  with_reducible repeat' first
    | assumption
    | intro _
    | apply touches_railWarn
    | apply touches_updateLife
    | apply touches_State_storeReg
    | apply touches_foldl
    | (apply has_Reg_RFM_CTL; assumption)

theorem touches_modHour {ps : List Part} {s₀ : State} (p : Nat) (s : State) (hrfm : Part.rfm ∈ ps) (hlog : Part.log ∈ ps) (rrfm : Part.regs .rfm ∈ ps) (rwch : Part.regs .wch ∈ ps) (h : Touches ps s₀ s) :
    Touches ps s₀ (modHour p s) := by
  unfold modHour
  with_reducible repeat' first
    | assumption
    | intro _
    | apply touches_addJob
    | apply touches_State_modRfm
    | apply touches_updateLife
    | apply touches_railWarn
    | apply touches_State_wr
    | apply touches_ite
    | exact has_R_RFM_HOURS_HOURS _
    | exact has_R_RFM_RAIL_RAIL _

theorem touches_moduleMinute {ps : List Part} {s₀ : State} (p : Nat) (s : State) (hrfm : Part.rfm ∈ ps) (hlog : Part.log ∈ ps) (rrfm : Part.regs .rfm ∈ ps) (rwch : Part.regs .wch ∈ ps) (h : Touches ps s₀ s) :
    Touches ps s₀ (moduleMinute p s) := by
  unfold moduleMinute
  with_reducible repeat' first
    | assumption
    | intro _
    | apply touches_modHour
    | apply touches_State_lo
    | apply touches_State_wr
    | apply touches_beginWrite
    | apply touches_ite
    | exact has_R_RFM_USE_MINUTES _
    | dsimp only
    | split

theorem touches_noteWrite {ps : List Part} {s₀ : State} (p : Nat) (w : HoursWrite) (s : State) (hrfm : Part.rfm ∈ ps) (rrfm : Part.regs .rfm ∈ ps) (h : Touches ps s₀ s) :
    Touches ps s₀ (noteWrite p w s) := by
  unfold noteWrite
  with_reducible repeat' first
    | assumption
    | intro _
    | apply touches_State_wr
    | apply touches_State_modRfm
    | apply touches_ite
    | exact has_R_RFM_USE_SEQ _

theorem touches_hoursDone {ps : List Part} {s₀ : State} (p : Nat) (s : State) (hlog : Part.log ∈ ps) (hfw : Part.fw ∈ ps) (rrfm : Part.regs .rfm ∈ ps) (rwch : Part.regs .wch ∈ ps) (h : Touches ps s₀ s) :
    Touches ps s₀ (hoursDone p s) := by
  unfold hoursDone
  with_reducible repeat' first
    | assumption
    | intro _
    | apply touches_updateLife
    | apply touches_endUnit
    | apply touches_State_wr
    | apply touches_State_hi
    | apply touches_State_lo
    | apply touches_ite
    | exact has_R_RFM_HOURS_CMD_DONE _
    | exact has_R_RFM_HOURS_CMD_GO _
    | exact has_R_RFM_EVT_BITS
    | exact has_R_RFM_STAT_HOURS_OK _

theorem touches_hoursWriteEnd {ps : List Part} {s₀ : State} (p : Nat) (ok : Bool) (s : State) (hens : Part.ens ∈ ps) (hrfm : Part.rfm ∈ ps) (hlog : Part.log ∈ ps) (hfw : Part.fw ∈ ps) (rens : Part.regs .ens ∈ ps) (rrfm : Part.regs .rfm ∈ ps) (rwch : Part.regs .wch ∈ ps) (h : Touches ps s₀ s) :
    Touches ps s₀ (hoursWriteEnd p ok s) := by
  unfold hoursWriteEnd
  with_reducible repeat' first
    | assumption
    | intro _
    | apply touches_noteWrite
    | apply touches_nextJob
    | apply touches_parkNow
    | apply touches_beginWrite
    | apply touches_hoursDone
    | apply touches_State_modRfm
    | apply touches_rfmEvt
    | apply touches_ite
    | dsimp only
    | split

theorem touches_hoursSet {ps : List Part} {s₀ : State} (sender : Nat) (p : Nat) (s : State) (hrfm : Part.rfm ∈ ps) (hlog : Part.log ∈ ps) (rrfm : Part.regs .rfm ∈ ps) (rwch : Part.regs .wch ∈ ps) (h : Touches ps s₀ s) :
    Touches ps s₀ (hoursSet sender p s) := by
  unfold hoursSet
  with_reducible repeat' first
    | assumption
    | intro _
    | apply touches_addJob
    | apply touches_updateLife
    | apply touches_State_modRfm
    | apply touches_State_wr
    | apply touches_State_hi
    | apply touches_State_lo
    | apply touches_ite
    | exact has_R_RFM_HOURS_CMD_REFUSED _
    | exact has_R_RFM_HOURS_HOURS _
    | exact has_R_RFM_USE_MINUTES _
    | exact has_R_RFM_HOURS_CMD_GO _

theorem touches_writeHoursCmd {ps : List Part} {s₀ : State} (sender : Nat) (p : Nat) (w : Nat) (s : State) (hrfm : Part.rfm ∈ ps) (hlog : Part.log ∈ ps) (rrfm : Part.regs .rfm ∈ ps) (rwch : Part.regs .wch ∈ ps) (h : Touches ps s₀ s) :
    Touches ps s₀ (writeHoursCmd sender p w s) := by
  unfold writeHoursCmd
  with_reducible repeat' first
    | assumption
    | intro _
    | apply touches_hoursSet
    | apply touches_State_storeReg
    | apply touches_ite
    | (apply has_Reg_RFM_HOURS_CMD; assumption)

theorem touches_writeEfc {ps : List Part} {s₀ : State} (p : Nat) (w : Nat) (s : State) (rrfm : Part.regs .rfm ∈ ps) (h : Touches ps s₀ s) :
    Touches ps s₀ (writeEfc p w s) := by
  unfold writeEfc
  with_reducible repeat' first
    | assumption
    | intro _
    | apply touches_setEfc
    | apply touches_ite

theorem touches_efcUpdate {ps : List Part} {s₀ : State} (p : Nat) (s : State) (rrfm : Part.regs .rfm ∈ ps) (h : Touches ps s₀ s) :
    Touches ps s₀ (efcUpdate p s).2 := by
  unfold efcUpdate
  with_reducible repeat' first
    | assumption
    | intro _
    | apply touches_setEfc
    | apply touches_State_wr
    | apply touches_ite
    | apply touches_foldl
    | apply touches_foldl_fst
    | exact has_R_RFM_FREQ_F _
    | dsimp only
    | split

theorem touches_efcUpdates {ps : List Part} {s₀ : State} (s : State) (rrfm : Part.regs .rfm ∈ ps) (h : Touches ps s₀ s) :
    Touches ps s₀ (efcUpdates s).2 := by
  unfold efcUpdates
  with_reducible repeat' first
    | assumption
    | intro _
    | apply touches_efcUpdate

theorem touches_takePps {ps : List Part} {s₀ : State} (p : Nat) (t : Nat) (sec : Int) (s : State) (hens : Part.ens ∈ ps) (hrfm : Part.rfm ∈ ps) (h : Touches ps s₀ s) :
    Touches ps s₀ (takePps p t sec s) := by
  unfold takePps
  with_reducible repeat' first
    | assumption
    | intro _
    | apply touches_deliver
    | apply touches_State_modRfm

theorem touches_ppsEdge {ps : List Part} {s₀ : State} (p : Nat) (t : Nat) (s : State) (hens : Part.ens ∈ ps) (hrfm : Part.rfm ∈ ps) (rrfm : Part.regs .rfm ∈ ps) (h : Touches ps s₀ s) :
    Touches ps s₀ (ppsEdge p t s) := by
  unfold ppsEdge
  with_reducible repeat' first
    | assumption
    | intro _
    | apply touches_rfmEvt
    | apply touches_State_wr
    | apply touches_takePps
    | apply touches_ite
    | exact has_R_RFM_PPS_EXTRA_EXTRA _
    | dsimp only
    | split

theorem touches_modulePps {ps : List Part} {s₀ : State} (p : Nat) (dc : Nat) (bin : Nat) (s : State) (htick : Part.tick ∈ ps) (hlanes : Part.lanes ∈ ps) (hens : Part.ens ∈ ps) (hrfm : Part.rfm ∈ ps) (htim : Part.tim ∈ ps) (rrfm : Part.regs .rfm ∈ ps) (h : Touches ps s₀ s) :
    Touches ps s₀ (modulePps p dc bin s) := by
  unfold modulePps
  with_reducible repeat' first
    | assumption
    | intro _
    | apply touches_State_waitTick
    | apply touches_noteEdge
    | apply touches_ppsEdge
    | apply touches_ite

theorem touches_keepHz {ps : List Part} {s₀ : State} (c : Nat) (nHz : Nat) (s : State) (hens : Part.ens ∈ ps) (h : Touches ps s₀ s) :
    Touches ps s₀ (keepHz c nHz s) := by
  unfold keepHz
  with_reducible repeat' first
    | assumption
    | intro _
    | apply touches_ite
    | dsimp only
    | split
    | apply touches_set_ens

theorem touches_clockMeasure {ps : List Part} {s₀ : State} (c : Nat) (nHz : Nat) (s : State) (hens : Part.ens ∈ ps) (hrfm : Part.rfm ∈ ps) (rens : Part.regs .ens ∈ ps) (rrfm : Part.regs .rfm ∈ ps) (h : Touches ps s₀ s) :
    Touches ps s₀ (clockMeasure c nHz s) := by
  unfold clockMeasure
  with_reducible repeat' first
    | assumption
    | intro _
    | apply touches_keepHz
    | apply touches_judgeClock
    | apply touches_State_modRfm
    | apply touches_ite

theorem touches_State_modOut {ps : List Part} {s₀ : State} (s : State) (o : Nat) (f : PulseOut → PulseOut) (htim : Part.tim ∈ ps) (h : Touches ps s₀ s) :
    Touches ps s₀ (State.modOut s o f) := by
  unfold State.modOut
  with_reducible repeat' first
    | assumption
    | intro _
    | apply touches_ite
    | dsimp only
    | split
    | apply touches_set_tim

theorem touches_setOut {ps : List Part} {s₀ : State} (o : Nat) (v : Nat) (s : State) (rtim : Part.regs .tim ∈ ps) (h : Touches ps s₀ s) :
    Touches ps s₀ (setOut o v s) := by
  unfold setOut
  with_reducible repeat' first
    | assumption
    | intro _
    | apply touches_State_wr
    | apply touches_ite
    | exact has_R_PLS_ACTIVE_ARMED
    | exact has_R_PLS_STAT_STATE _

theorem touches_outDone {ps : List Part} {s₀ : State} (o : Nat) (s : State) (rtim : Part.regs .tim ∈ ps) (h : Touches ps s₀ s) :
    Touches ps s₀ (outDone o s) := by
  unfold outDone
  with_reducible repeat' first
    | assumption
    | intro _
    | apply touches_State_hi
    | apply touches_setOut
    | apply touches_ite
    | exact has_R_PLS_CTL_DONE _

theorem touches_goNow {ps : List Part} {s₀ : State} (o : Nat) (s : State) (htim : Part.tim ∈ ps) (rtim : Part.regs .tim ∈ ps) (h : Touches ps s₀ s) :
    Touches ps s₀ (goNow o s) := by
  unfold goNow
  with_reducible repeat' first
    | assumption
    | intro _
    | apply touches_State_modOut
    | apply touches_setOut
    | apply touches_State_wr
    | apply touches_State_hi
    | apply touches_State_lo
    | apply touches_State_raise
    | apply touches_ite
    | exact has_R_PLS_CTL_STATUS _
    | exact has_R_PLS_CTL_GO _
    | exact has_R_PLS_CTL_REFUSED _
    | exact has_R_PLS_LEFT_LEFT _
    | exact has_Evt_pls

theorem touches_stopOut {ps : List Part} {s₀ : State} (o : Nat) (s : State) (rtim : Part.regs .tim ∈ ps) (h : Touches ps s₀ s) :
    Touches ps s₀ (stopOut o s) := by
  unfold stopOut
  with_reducible repeat' first
    | assumption
    | intro _
    | apply touches_outDone
    | apply touches_ite

theorem touches_writePlsCtl {ps : List Part} {s₀ : State} (o : Nat) (w : Nat) (s : State) (htim : Part.tim ∈ ps) (rtim : Part.regs .tim ∈ ps) (h : Touches ps s₀ s) :
    Touches ps s₀ (writePlsCtl o w s) := by
  unfold writePlsCtl
  with_reducible repeat' first
    | assumption
    | intro _
    | apply touches_State_storeReg
    | apply touches_stopOut
    | apply touches_State_modOut
    | apply touches_State_hi
    | apply touches_goNow
    | apply touches_ite
    | exact has_R_PLS_CTL_GO _
    | (apply has_Reg_PLS_CTL; assumption)

theorem touches_groupWake {ps : List Part} {s₀ : State} (g : Nat) (s : State) (htim : Part.tim ∈ ps) (rtim : Part.regs .tim ∈ ps) (h : Touches ps s₀ s) :
    Touches ps s₀ (groupWake g s) := by
  unfold groupWake
  with_reducible repeat' first
    | assumption
    | intro _
    | apply touches_State_modGroup
    | apply touches_armNow
    | apply touches_goNow
    | apply touches_ite
    | apply touches_foldl

theorem touches_missOut {ps : List Part} {s₀ : State} (o : Nat) (inst : Nat) (cause : Nat) (ts1 : Bool) (s : State) (htim : Part.tim ∈ ps) (rtim : Part.regs .tim ∈ ps) (h : Touches ps s₀ s) :
    Touches ps s₀ (missOut o inst cause ts1 s) := by
  unfold missOut
  with_reducible repeat' first
    | assumption
    | intro _
    | apply touches_State_wr
    | apply touches_State_raise
    | apply touches_State_count
    | apply touches_offerRecord
    | apply touches_recordSlot
    | apply touches_ite
    | exact has_Evt_pls
    | exact has_R_PLS_MISSED_LAST_CAUSE _
    | exact has_R_PLS_MISSED_MISSED _

theorem touches_noneLeft {ps : List Part} {s₀ : State} (o : Nat) (s : State) (rtim : Part.regs .tim ∈ ps) (h : Touches ps s₀ s) :
    Touches ps s₀ (noneLeft o s) := by
  unfold noneLeft
  with_reducible repeat' first
    | assumption
    | intro _
    | apply touches_outDone
    | apply touches_ite

theorem touches_passOver {ps : List Part} {s₀ : State} (o : Nat) (s : State) (htick : Part.tick ∈ ps) (hlanes : Part.lanes ∈ ps) (rtim : Part.regs .tim ∈ ps) (h : Touches ps s₀ s) :
    Touches ps s₀ (passOver o s) := by
  unfold passOver
  with_reducible repeat' first
    | assumption
    | intro _
    | apply touches_noneLeft
    | apply touches_State_advance
    | apply touches_ite
    | dsimp only
    | split

theorem touches_pulseCommit {ps : List Part} {s₀ : State} (o : Nat) (s : State) (htick : Part.tick ∈ ps) (hlanes : Part.lanes ∈ ps) (htim : Part.tim ∈ ps) (rtim : Part.regs .tim ∈ ps) (h : Touches ps s₀ s) :
    Touches ps s₀ (pulseCommit o s) := by
  unfold pulseCommit
  with_reducible repeat' first
    | assumption
    | intro _
    | apply touches_passOver
    | apply touches_State_advance
    | apply touches_State_modOut
    | apply touches_missOut
    | apply touches_noneLeft
    | apply touches_ite
    | dsimp only
    | split

theorem touches_pulseFire {ps : List Part} {s₀ : State} (o : Nat) (s : State) (htick : Part.tick ∈ ps) (hlanes : Part.lanes ∈ ps) (htim : Part.tim ∈ ps) (rtsc : Part.regs .tsc ∈ ps) (rtim : Part.regs .tim ∈ ps) (h : Touches ps s₀ s) :
    Touches ps s₀ (pulseFire o s) := by
  unfold pulseFire
  with_reducible repeat' first
    | assumption
    | intro _
    | apply touches_State_waitTick
    | apply touches_State_modOut
    | apply touches_State_count
    | apply touches_offerRecord
    | apply touches_recordSlot
    | apply touches_outDone
    | apply touches_State_wr
    | apply touches_State_hi
    | apply touches_ite
    | exact has_R_PLS_STAT_LEVEL _
    | exact has_R_TSC_STAT_SERVED
    | exact has_R_PLS_LEFT_LEFT _
    | dsimp only
    | split

theorem touches_pulseEnd {ps : List Part} {s₀ : State} (o : Nat) (s : State) (htick : Part.tick ∈ ps) (hlanes : Part.lanes ∈ ps) (htim : Part.tim ∈ ps) (rtim : Part.regs .tim ∈ ps) (h : Touches ps s₀ s) :
    Touches ps s₀ (pulseEnd o s) := by
  unfold pulseEnd
  with_reducible repeat' first
    | assumption
    | intro _
    | apply touches_State_modOut
    | apply touches_State_lo
    | apply touches_State_waitTick
    | apply touches_setOut
    | apply touches_ite
    | exact has_R_PLS_STAT_LEVEL _
    | dsimp only
    | split

theorem touches_missMany {ps : List Part} {s₀ : State} (o : Nat) (p : PulseSched) (a2 : Nat) (a3 : Nat) (s : State) (htim : Part.tim ∈ ps) (rtim : Part.regs .tim ∈ ps) (h : Touches ps s₀ s) :
    Touches ps s₀ (missMany o p a2 a3 s) := by
  induction a2 generalizing a3 s with
  | zero =>
    unfold missMany
    with_reducible repeat' first
      | assumption
  | succ _ ih =>
    unfold missMany
    with_reducible repeat' first
      | assumption
      | intro _
      | apply ih
      | apply touches_missOut

theorem touches_missRest {ps : List Part} {s₀ : State} (o : Nat) (n : Nat) (s : State) (htim : Part.tim ∈ ps) (rtim : Part.regs .tim ∈ ps) (h : Touches ps s₀ s) :
    Touches ps s₀ (missRest o n s) := by
  unfold missRest
  with_reducible repeat' first
    | assumption
    | intro _
    | apply touches_State_wr
    | apply touches_State_count
    | apply touches_State_modGroup
    | apply touches_State_raise
    | apply touches_ite
    | exact has_Evt_tim
    | exact has_R_PLS_MISSED_MISSED _
    | exact has_R_TIM_GRP_LOST_LOST _

theorem touches_stepMeetsOut {ps : List Part} {s₀ : State} (b : Bank) (old : Nat) (new : Nat) (s : State) (o : Nat) (htim : Part.tim ∈ ps) (rtim : Part.regs .tim ∈ ps) (h : Touches ps s₀ s) :
    Touches ps s₀ (stepMeetsOut b old new s o) := by
  unfold stepMeetsOut
  with_reducible repeat' first
    | assumption
    | intro _
    | apply touches_noneLeft
    | apply touches_missRest
    | apply touches_missMany
    | apply touches_State_modOut
    | apply touches_ite
    | dsimp only
    | split

theorem touches_stepApply {ps : List Part} {s₀ : State} (b : Bank) (s : State) (htick : Part.tick ∈ ps) (hlanes : Part.lanes ∈ ps) (hens : Part.ens ∈ ps) (htim : Part.tim ∈ ps) (hlog : Part.log ∈ ps) (hfw : Part.fw ∈ ps) (rtsc : Part.regs .tsc ∈ ps) (rens : Part.regs .ens ∈ ps) (rtim : Part.regs .tim ∈ ps) (rwch : Part.regs .wch ∈ ps) (h : Touches ps s₀ s) :
    Touches ps s₀ (stepApply b s) := by
  unfold stepApply
  with_reducible repeat' first
    | assumption
    | intro _
    | apply touches_stepLeavesUnset
    | apply touches_moveByStep
    | apply touches_stepMeetsOut
    | apply touches_ite
    | apply touches_foldl
    | dsimp only
    | split
    | apply touches_set_tim

end Sys2Proof.Machine
end

