-- ==== Sys2Proof/Laws/TouchesPorts.lean ====
section
/-! SUPPORT. What the operations of the ports, the host rings and transmission touch: one lemma per operation. -/

namespace Sys2Proof.Machine

theorem touches_State_modPort {ps : List Part} {s₀ : State} (s : State) (p : Nat) (f : Port → Port) (hsrv : Part.srv ∈ ps) (h : Touches ps s₀ s) :
    Touches ps s₀ (State.modPort s p f) := by
  unfold State.modPort
  with_reducible repeat' first
    | assumption
    | intro _
    | apply touches_ite
    | dsimp only
    | split
    | apply touches_set_srv

theorem touches_State_waitPs {ps : List Part} {s₀ : State} (s : State) (a1 : Nat) (htick : Part.tick ∈ ps) (hlanes : Part.lanes ∈ ps) (h : Touches ps s₀ s) :
    Touches ps s₀ (State.waitPs s a1) := by
  unfold State.waitPs
  with_reducible repeat' first
    | assumption
    | intro _
    | apply touches_State_waitTick

theorem touches_bumpStat {ps : List Part} {s₀ : State} (key : Nat) (event : Nat) (unit : Nat) (n : Nat) (s : State) (hsrv : Part.srv ∈ ps) (h : Touches ps s₀ s) :
    Touches ps s₀ (bumpStat key event unit n s) := by
  unfold bumpStat
  with_reducible repeat' first
    | assumption
    | intro _
    | apply touches_State_count
    | apply touches_ite
    | dsimp only
    | split
    | apply touches_set_srv

theorem touches_mac {ps : List Part} {s₀ : State} (p : Nat) (i : Nat) (n : Nat) (s : State) (hsrv : Part.srv ∈ ps) (h : Touches ps s₀ s) :
    Touches ps s₀ (mac p i n s) := by
  unfold mac
  with_reducible repeat' first
    | assumption
    | intro _
    | apply touches_bumpStat

theorem touches_ntpStat {ps : List Part} {s₀ : State} (d : Nat) (i : Nat) (s : State) (hsrv : Part.srv ∈ ps) (h : Touches ps s₀ s) :
    Touches ps s₀ (ntpStat d i s) := by
  unfold ntpStat
  with_reducible repeat' first
    | assumption
    | intro _
    | apply touches_bumpStat

theorem touches_ntsStat {ps : List Part} {s₀ : State} (d : Nat) (i : Nat) (n : Nat) (s : State) (hsrv : Part.srv ∈ ps) (h : Touches ps s₀ s) :
    Touches ps s₀ (ntsStat d i n s) := by
  unfold ntsStat
  with_reducible repeat' first
    | assumption
    | intro _
    | apply touches_bumpStat

theorem touches_ptpStat {ps : List Part} {s₀ : State} (d : Nat) (i : Nat) (s : State) (hsrv : Part.srv ∈ ps) (h : Touches ps s₀ s) :
    Touches ps s₀ (ptpStat d i s) := by
  unfold ptpStat
  with_reducible repeat' first
    | assumption
    | intro _
    | apply touches_bumpStat

theorem touches_readStatLow {ps : List Part} {s₀ : State} (key : Nat) (s : State) (hsrv : Part.srv ∈ ps) (h : Touches ps s₀ s) :
    Touches ps s₀ (readStatLow key s).2 := by
  unfold readStatLow
  with_reducible repeat' first
    | assumption
    | intro _
    | apply touches_ite
    | apply touches_foldl_fst
    | dsimp only
    | split
    | refine touches_of_fst (by assumption) ?_
    | refine touches_of_snd (by assumption) ?_
    | apply touches_set_srv

theorem touches_setLatency {ps : List Part} {s₀ : State} (p : Nat) (mode : Nat) (fec : Nat) (s : State) (rmac : Part.regs .mac ∈ ps) (h : Touches ps s₀ s) :
    Touches ps s₀ (setLatency p mode fec s) := by
  unfold setLatency
  with_reducible repeat' first
    | assumption
    | intro _
    | apply touches_State_wr
    | apply touches_ite
    | exact has_R_MAC_TS_LAT_L_RX _
    | exact has_R_MAC_TS_LAT_L_TX _

theorem touches_writeDlyRx {ps : List Part} {s₀ : State} (p : Nat) (w : Nat) (s : State) (hsrv : Part.srv ∈ ps) (rmac : Part.regs .mac ∈ ps) (h : Touches ps s₀ s) :
    Touches ps s₀ (writeDlyRx p w s) := by
  unfold writeDlyRx
  with_reducible repeat' first
    | assumption
    | intro _
    | apply touches_State_storeReg
    | apply touches_State_modPort
    | apply touches_ite
    | (apply has_Reg_MAC_TS_DLY_RX; assumption)

theorem touches_setSvc {ps : List Part} {s₀ : State} (p : Nat) (i : Nat) (e : List Nat) (s : State) (hsrv : Part.srv ∈ ps) (h : Touches ps s₀ s) :
    Touches ps s₀ (setSvc p i e s) := by
  unfold setSvc
  with_reducible repeat' first
    | assumption
    | intro _
    | apply touches_State_modPort

theorem touches_State_modNtp {ps : List Part} {s₀ : State} (s : State) (d : Nat) (f : NtpDie → NtpDie) (hsrv : Part.srv ∈ ps) (h : Touches ps s₀ s) :
    Touches ps s₀ (State.modNtp s d f) := by
  unfold State.modNtp
  with_reducible repeat' first
    | assumption
    | intro _
    | apply touches_ite
    | dsimp only
    | split
    | apply touches_set_srv

theorem touches_refillKod {ps : List Part} {s₀ : State} (d : Nat) (s : State) (hsrv : Part.srv ∈ ps) (h : Touches ps s₀ s) :
    Touches ps s₀ (refillKod d s) := by
  unfold refillKod
  with_reducible repeat' first
    | assumption
    | intro _
    | apply touches_State_modNtp

theorem touches_refillOvf {ps : List Part} {s₀ : State} (d : Nat) (s : State) (hsrv : Part.srv ∈ ps) (h : Touches ps s₀ s) :
    Touches ps s₀ (refillOvf d s) := by
  unfold refillOvf
  with_reducible repeat' first
    | assumption
    | intro _
    | apply touches_State_modNtp

theorem touches_takeKod {ps : List Part} {s₀ : State} (d : Nat) (s : State) (hsrv : Part.srv ∈ ps) (h : Touches ps s₀ s) :
    Touches ps s₀ (takeKod d s).2 := by
  unfold takeKod
  with_reducible repeat' first
    | assumption
    | intro _
    | apply touches_refillKod
    | apply touches_State_modNtp
    | apply touches_ite
    | apply touches_foldl_fst
    | dsimp only
    | split

theorem touches_takeOvf {ps : List Part} {s₀ : State} (d : Nat) (s : State) (hsrv : Part.srv ∈ ps) (h : Touches ps s₀ s) :
    Touches ps s₀ (takeOvf d s).2 := by
  unfold takeOvf
  with_reducible repeat' first
    | assumption
    | intro _
    | apply touches_refillOvf
    | apply touches_State_modNtp
    | apply touches_ite
    | apply touches_foldl_fst
    | dsimp only
    | split

theorem touches_bucketRefill {ps : List Part} {s₀ : State} (d : Nat) (s : State) (hsrv : Part.srv ∈ ps) (h : Touches ps s₀ s) :
    Touches ps s₀ (bucketRefill d s) := by
  unfold bucketRefill
  with_reducible repeat' first
    | assumption
    | intro _
    | apply touches_refillOvf
    | apply touches_refillKod

theorem touches_State_modRing {ps : List Part} {s₀ : State} (s : State) (q : Nat) (f : Ring → Ring) (hrings : Part.rings ∈ ps) (h : Touches ps s₀ s) :
    Touches ps s₀ (State.modRing s q f) := by
  unfold State.modRing
  with_reducible repeat' first
    | assumption
    | intro _
    | apply touches_ite
    | dsimp only
    | split
    | apply touches_set_rings

theorem touches_ringNote {ps : List Part} {s₀ : State} (q : Nat) (m : Nat) (s : State) (rring : Part.regs .ring ∈ ps) (h : Touches ps s₀ s) :
    Touches ps s₀ (ringNote q m s) := by
  unfold ringNote
  with_reducible repeat' first
    | assumption
    | intro _
    | apply touches_State_raise
    | apply touches_State_wr
    | apply touches_ite
    | exact has_Evt_hrg _
    | exact has_R_HRG_RING_STAT_BITS _

theorem touches_ringCfgErr {ps : List Part} {s₀ : State} (q : Nat) (s : State) (rring : Part.regs .ring ∈ ps) (h : Touches ps s₀ s) :
    Touches ps s₀ (ringCfgErr q s) := by
  unfold ringCfgErr
  with_reducible repeat' first
    | assumption
    | intro _
    | apply touches_State_raise
    | apply touches_State_hi
    | apply touches_ite
    | exact has_Evt_hrg _
    | exact has_R_HRG_RING_CFG_CFG_ERR _

theorem touches_refuseAccess {ps : List Part} {s₀ : State} (fn : Nat) (addr : Nat) (completerAbort : Bool) (s : State) (h : Touches ps s₀ s) :
    Touches ps s₀ (refuseAccess fn addr completerAbort s) := by
  unfold refuseAccess
  with_reducible repeat' first
    | assumption
    | intro _
    | apply touches_State_emit

theorem touches_windowWrite {ps : List Part} {s₀ : State} (d : Nat) (r : Register) (f : State → State) (s : State) (g2 : ∀ s, Touches ps s₀ s → Touches ps s₀ (f s)) (h : Touches ps s₀ s) :
    Touches ps s₀ (windowWrite d r f s) := by
  unfold windowWrite
  with_reducible repeat' first
    | assumption
    | intro _
    | apply g2
    | apply touches_refuseAccess
    | apply touches_ite

theorem touches_ringMsi {ps : List Part} {s₀ : State} (q : Nat) (s : State) (hrings : Part.rings ∈ ps) (h : Touches ps s₀ s) :
    Touches ps s₀ (ringMsi q s) := by
  unfold ringMsi
  with_reducible repeat' first
    | assumption
    | intro _
    | apply touches_State_modRing
    | apply touches_State_post

theorem touches_writeRingItr {ps : List Part} {s₀ : State} (q : Nat) (w : Nat) (s : State) (hrings : Part.rings ∈ ps) (rring : Part.regs .ring ∈ ps) (h : Touches ps s₀ s) :
    Touches ps s₀ (writeRingItr q w s) := by
  unfold writeRingItr
  with_reducible repeat' first
    | assumption
    | intro _
    | apply touches_ringMsi
    | apply touches_State_storeReg
    | apply touches_ite
    | (apply has_Reg_HRG_RING_ITR; assumption)

theorem touches_writeBack {ps : List Part} {s₀ : State} (q : Nat) (idx : Nat) (bytes : List Nat) (s : State) (hrings : Part.rings ∈ ps) (rring : Part.regs .ring ∈ ps) (h : Touches ps s₀ s) :
    Touches ps s₀ (writeBack q idx bytes s) := by
  unfold writeBack
  with_reducible repeat' first
    | assumption
    | intro _
    | apply touches_State_emit
    | apply touches_State_wr
    | apply touches_State_modRing
    | apply touches_ringMsi
    | apply touches_ite
    | exact has_R_HRG_RING_HEAD_HEAD _

theorem touches_freeStamp {ps : List Part} {s₀ : State} (q : Nat) (d : RingDesc) (s : State) (hsrv : Part.srv ∈ ps) (h : Touches ps s₀ s) :
    Touches ps s₀ (freeStamp q d s) := by
  unfold freeStamp
  with_reducible repeat' first
    | assumption
    | intro _
    | apply touches_State_modPort
    | apply touches_ite
    | dsimp only
    | split

theorem touches_drainList {ps : List Part} {s₀ : State} (q : Nat) (a1 : List RingDesc) (s : State) (hsrv : Part.srv ∈ ps) (hrings : Part.rings ∈ ps) (rring : Part.regs .ring ∈ ps) (h : Touches ps s₀ s) :
    Touches ps s₀ (drainList q a1 s) := by
  induction a1 generalizing s with
  | nil =>
    unfold drainList
    with_reducible repeat' first
      | assumption
      | intro _
      | apply touches_State_modRing
  | cons _ _ ih =>
    unfold drainList
    with_reducible repeat' first
      | assumption
      | intro _
      | apply ih
      | apply touches_State_modRing
      | apply touches_writeBack
      | apply touches_freeStamp
      | apply touches_ite
      | dsimp only
      | split

theorem touches_quiesce {ps : List Part} {s₀ : State} (q : Nat) (s : State) (rring : Part.regs .ring ∈ ps) (h : Touches ps s₀ s) :
    Touches ps s₀ (quiesce q s) := by
  unfold quiesce
  with_reducible repeat' first
    | assumption
    | intro _
    | apply touches_State_hi
    | apply touches_ite
    | exact has_R_HRG_RING_CFG_QUIESCED _

theorem touches_drain {ps : List Part} {s₀ : State} (q : Nat) (s : State) (hsrv : Part.srv ∈ ps) (hrings : Part.rings ∈ ps) (rring : Part.regs .ring ∈ ps) (h : Touches ps s₀ s) :
    Touches ps s₀ (drain q s) := by
  unfold drain
  with_reducible repeat' first
    | assumption
    | intro _
    | apply touches_quiesce
    | apply touches_drainList

theorem touches_finishDesc {ps : List Part} {s₀ : State} (q : Nat) (idx : Nat) (back : RingDesc → RingDesc) (s : State) (hsrv : Part.srv ∈ ps) (hrings : Part.rings ∈ ps) (rring : Part.regs .ring ∈ ps) (h : Touches ps s₀ s) :
    Touches ps s₀ (finishDesc q idx back s) := by
  unfold finishDesc
  with_reducible repeat' first
    | assumption
    | intro _
    | apply touches_drain
    | apply touches_State_modRing

theorem touches_enableRing {ps : List Part} {s₀ : State} (q : Nat) (s : State) (hrings : Part.rings ∈ ps) (rring : Part.regs .ring ∈ ps) (h : Touches ps s₀ s) :
    Touches ps s₀ (enableRing q s) := by
  unfold enableRing
  with_reducible repeat' first
    | assumption
    | intro _
    | apply touches_State_lo
    | apply touches_State_hi
    | apply touches_State_modRing
    | apply touches_State_wr
    | apply touches_ringCfgErr
    | apply touches_ite
    | exact has_R_HRG_RING_CFG_EN _
    | exact has_R_HRG_RING_CFG_QUIESCED _
    | exact has_R_HRG_RING_HEAD_HEAD _

theorem touches_disableRing {ps : List Part} {s₀ : State} (q : Nat) (s : State) (hrings : Part.rings ∈ ps) (rring : Part.regs .ring ∈ ps) (h : Touches ps s₀ s) :
    Touches ps s₀ (disableRing q s) := by
  unfold disableRing
  with_reducible repeat' first
    | assumption
    | intro _
    | apply touches_quiesce
    | apply touches_State_modRing
    | apply touches_State_lo
    | apply touches_ite
    | exact has_R_HRG_RING_CFG_EN _

theorem touches_writeOwner {ps : List Part} {s₀ : State} (fn : Nat) (q : Nat) (w : Nat) (s : State) (rring : Part.regs .ring ∈ ps) (h : Touches ps s₀ s) :
    Touches ps s₀ (writeOwner fn q w s) := by
  unfold writeOwner
  with_reducible repeat' first
    | assumption
    | intro _
    | apply touches_ringCfgErr
    | apply touches_State_wr
    | apply touches_ite
    | exact has_R_HRG_RING_CFG_OWNER _

theorem touches_writeRingCfg {ps : List Part} {s₀ : State} (fn : Nat) (q : Nat) (w : Nat) (s : State) (hrings : Part.rings ∈ ps) (rring : Part.regs .ring ∈ ps) (h : Touches ps s₀ s) :
    Touches ps s₀ (writeRingCfg fn q w s) := by
  unfold writeRingCfg
  with_reducible repeat' first
    | assumption
    | intro _
    | apply touches_refuseAccess
    | apply touches_writeOwner
    | apply touches_disableRing
    | apply touches_enableRing
    | apply touches_State_wr
    | apply touches_State_lo
    | apply touches_ite
    | exact has_R_HRG_RING_CFG_CFG_ERR _
    | exact has_R_HRG_RING_CFG_SIZE _
    | exact has_R_HRG_RING_CFG_VEC _

theorem touches_writeRingBase {ps : List Part} {s₀ : State} (r : Nat → Register) (q : Nat) (w : Nat) (s : State) {b0 : Block} (k0 : ∀ q, ∀ f ∈ (r q).fields, b0.has f.key = true) (rb0 : Part.regs b0 ∈ ps) (h : Touches ps s₀ s) :
    Touches ps s₀ (writeRingBase r q w s) := by
  unfold writeRingBase
  with_reducible repeat' first
    | assumption
    | intro _
    | apply k0
    | apply touches_State_storeReg
    | apply touches_ite

theorem touches_setStart {ps : List Part} {s₀ : State} (q : Nat) (v : Nat) (s : State) (rring : Part.regs .ring ∈ ps) (h : Touches ps s₀ s) :
    Touches ps s₀ (setStart q v s) := by
  unfold setStart
  with_reducible repeat' first
    | assumption
    | intro _
    | apply touches_State_wr
    | apply touches_ite
    | exact has_R_HRG_RING_THR_SAF _
    | exact has_R_HRG_RING_THR_START _

theorem touches_writeRingThr {ps : List Part} {s₀ : State} (q : Nat) (w : Nat) (s : State) (hrings : Part.rings ∈ ps) (rring : Part.regs .ring ∈ ps) (h : Touches ps s₀ s) :
    Touches ps s₀ (writeRingThr q w s) := by
  unfold writeRingThr
  with_reducible repeat' first
    | assumption
    | intro _
    | apply touches_setStart
    | apply touches_State_modRing
    | apply touches_ite

theorem touches_raiseStart {ps : List Part} {s₀ : State} (q : Nat) (s : State) (hrings : Part.rings ∈ ps) (rring : Part.regs .ring ∈ ps) (h : Touches ps s₀ s) :
    Touches ps s₀ (raiseStart q s) := by
  unfold raiseStart
  with_reducible repeat' first
    | assumption
    | intro _
    | apply touches_setStart
    | apply touches_State_modRing

theorem touches_refuseDesc {ps : List Part} {s₀ : State} (q : Nat) (s : State) (rring : Part.regs .ring ∈ ps) (h : Touches ps s₀ s) :
    Touches ps s₀ (refuseDesc q s) := by
  unfold refuseDesc
  with_reducible repeat' first
    | assumption
    | intro _
    | apply touches_ringNote
    | apply touches_State_wr
    | apply touches_ite
    | exact has_R_HRG_RING_REFUSED_BAD_DESC _

theorem touches_postCommand {ps : List Part} {s₀ : State} (q : Nat) (s : State) (e : Nat × List Nat) (hsrv : Part.srv ∈ ps) (hrings : Part.rings ∈ ps) (hfw : Part.fw ∈ ps) (rring : Part.regs .ring ∈ ps) (h : Touches ps s₀ s) :
    Touches ps s₀ (postCommand q s e) := by
  unfold postCommand
  with_reducible repeat' first
    | assumption
    | intro _
    | apply touches_drain
    | apply touches_refuseDesc
    | apply touches_State_modRing
    | apply touches_ite
    | dsimp only
    | split
    | apply touches_set_fw

theorem touches_doorbell {ps : List Part} {s₀ : State} (fn : Nat) (q : Nat) (w : Nat) (descs : List (List Nat)) (s : State) (hsrv : Part.srv ∈ ps) (hrings : Part.rings ∈ ps) (hfw : Part.fw ∈ ps) (rring : Part.regs .ring ∈ ps) (h : Touches ps s₀ s) :
    Touches ps s₀ (doorbell fn q w descs s) := by
  unfold doorbell
  with_reducible repeat' first
    | assumption
    | intro _
    | apply touches_refuseAccess
    | apply touches_ringNote
    | apply touches_postCommand
    | apply touches_State_modRing
    | apply touches_State_wr
    | apply touches_foldl
    | apply touches_ite
    | apply touches_foldl_fst
    | exact has_R_HRG_RING_TAIL_TAIL _

theorem touches_itrExpire {ps : List Part} {s₀ : State} (q : Nat) (s : State) (htick : Part.tick ∈ ps) (hlanes : Part.lanes ∈ ps) (hrings : Part.rings ∈ ps) (h : Touches ps s₀ s) :
    Touches ps s₀ (itrExpire q s) := by
  unfold itrExpire
  with_reducible repeat' first
    | assumption
    | intro _
    | apply touches_ringMsi
    | apply touches_State_waitClk
    | apply touches_ite

theorem touches_takeDesc {ps : List Part} {s₀ : State} (q : Nat) (s : State) (hrings : Part.rings ∈ ps) (h : Touches ps s₀ s) :
    Touches ps s₀ (takeDesc q s) := by
  unfold takeDesc
  with_reducible repeat' first
    | assumption
    | intro _
    | apply touches_State_modRing

theorem touches_dropRx {ps : List Part} {s₀ : State} (p : Nat) (q : Nat) (s : State) (hsrv : Part.srv ∈ ps) (rring : Part.regs .ring ∈ ps) (h : Touches ps s₀ s) :
    Touches ps s₀ (dropRx p q s) := by
  unfold dropRx
  with_reducible repeat' first
    | assumption
    | intro _
    | apply touches_mac
    | apply touches_ringNote
    | apply touches_State_wr
    | apply touches_ite
    | exact has_R_HRG_RING_DROP_DROP _

theorem touches_fillRx {ps : List Part} {s₀ : State} (p : Nat) (c : Nat) (q : Nat) (f : RxItem) (a4 : Nat) (s : State) (hsrv : Part.srv ∈ ps) (hrings : Part.rings ∈ ps) (rring : Part.regs .ring ∈ ps) (h : Touches ps s₀ s) :
    Touches ps s₀ (fillRx p c q f a4 s) := by
  induction a4 generalizing s with
  | zero =>
    unfold fillRx
    with_reducible repeat' first
      | assumption
      | intro _
      | apply touches_dropRx
  | succ _ ih =>
    unfold fillRx
    with_reducible repeat' first
      | assumption
      | intro _
      | apply ih
      | apply touches_dropRx
      | apply touches_ringNote
      | apply touches_writeBack
      | apply touches_takeDesc
      | apply touches_State_emit
      | apply touches_ite

theorem touches_toHost {ps : List Part} {s₀ : State} (p : Nat) (c : Nat) (e : Nat) (f : RxItem) (s : State) (hsrv : Part.srv ∈ ps) (hrings : Part.rings ∈ ps) (rring : Part.regs .ring ∈ ps) (h : Touches ps s₀ s) :
    Touches ps s₀ (toHost p c e f s) := by
  unfold toHost
  with_reducible repeat' first
    | assumption
    | intro _
    | apply touches_mac
    | apply touches_dropRx
    | apply touches_fillRx
    | apply touches_ite

theorem touches_setTxq {ps : List Part} {s₀ : State} (p : Nat) (q : Nat) (l : List TxFrame) (s : State) (hsrv : Part.srv ∈ ps) (h : Touches ps s₀ s) :
    Touches ps s₀ (setTxq p q l s) := by
  unfold setTxq
  with_reducible repeat' first
    | assumption
    | intro _
    | apply touches_State_modPort

theorem touches_discardFrame {ps : List Part} {s₀ : State} (f : TxFrame) (withheld : Bool) (s : State) (hsrv : Part.srv ∈ ps) (hrings : Part.rings ∈ ps) (rring : Part.regs .ring ∈ ps) (h : Touches ps s₀ s) :
    Touches ps s₀ (discardFrame f withheld s) := by
  unfold discardFrame
  with_reducible repeat' first
    | assumption
    | intro _
    | apply touches_finishDesc
    | apply touches_ite
    | dsimp only
    | split

theorem touches_faultDrop {ps : List Part} {s₀ : State} (p : Nat) (fs : List TxFrame) (s : State) (hsrv : Part.srv ∈ ps) (hrings : Part.rings ∈ ps) (rring : Part.regs .ring ∈ ps) (h : Touches ps s₀ s) :
    Touches ps s₀ (faultDrop p fs s) := by
  unfold faultDrop
  with_reducible repeat' first
    | assumption
    | intro _
    | apply touches_discardFrame
    | apply touches_mac
    | apply touches_ite
    | apply touches_foldl

theorem touches_intoHold {ps : List Part} {s₀ : State} (p : Nat) (f : TxFrame) (s : State) (hsrv : Part.srv ∈ ps) (rnts : Part.regs .nts ∈ ps) (h : Touches ps s₀ s) :
    Touches ps s₀ (intoHold p f s) := by
  unfold intoHold
  with_reducible repeat' first
    | assumption
    | intro _
    | apply touches_State_modPort
    | apply touches_State_raise
    | apply touches_ntsStat
    | apply touches_ite
    | exact has_Evt_nts _

theorem touches_cancelReservations {ps : List Part} {s₀ : State} (p : Nat) (s : State) (hsrv : Part.srv ∈ ps) (rnts : Part.regs .nts ∈ ps) (h : Touches ps s₀ s) :
    Touches ps s₀ (cancelReservations p s) := by
  unfold cancelReservations
  with_reducible repeat' first
    | assumption
    | intro _
    | apply touches_intoHold
    | apply touches_setTxq
    | apply touches_ite
    | apply touches_foldl

theorem touches_flushQueues {ps : List Part} {s₀ : State} (p : Nat) (s : State) (hsrv : Part.srv ∈ ps) (hrings : Part.rings ∈ ps) (rnts : Part.regs .nts ∈ ps) (rring : Part.regs .ring ∈ ps) (h : Touches ps s₀ s) :
    Touches ps s₀ (flushQueues p s) := by
  unfold flushQueues
  with_reducible repeat' first
    | assumption
    | intro _
    | apply touches_faultDrop
    | apply touches_setTxq
    | apply touches_cancelReservations
    | apply touches_ite
    | apply touches_foldl

theorem touches_enqueueAhead {ps : List Part} {s₀ : State} (p : Nat) (q : Nat) (later : TxFrame → Bool) (f : TxFrame) (s : State) (hsrv : Part.srv ∈ ps) (hrings : Part.rings ∈ ps) (rring : Part.regs .ring ∈ ps) (h : Touches ps s₀ s) :
    Touches ps s₀ (enqueueAhead p q later f s) := by
  unfold enqueueAhead
  with_reducible repeat' first
    | assumption
    | intro _
    | apply touches_discardFrame
    | apply touches_mac
    | apply touches_faultDrop
    | apply touches_setTxq
    | apply touches_ite

theorem touches_enqueue {ps : List Part} {s₀ : State} (p : Nat) (q : Nat) (f : TxFrame) (s : State) (hsrv : Part.srv ∈ ps) (hrings : Part.rings ∈ ps) (rring : Part.regs .ring ∈ ps) (h : Touches ps s₀ s) :
    Touches ps s₀ (enqueue p q f s) := by
  unfold enqueue
  with_reducible repeat' first
    | assumption
    | intro _
    | apply touches_enqueueAhead

theorem touches_cstCommit {ps : List Part} {s₀ : State} (e : Option (Nat × Nat)) (ilv : Bool) (rxFrac : Nat) (t : Nat) (s : State) (hsrv : Part.srv ∈ ps) (h : Touches ps s₀ s) :
    Touches ps s₀ (cstCommit e ilv rxFrac t s) := by
  unfold cstCommit
  with_reducible repeat' first
    | assumption
    | intro _
    | apply touches_ite
    | dsimp only
    | split
    | apply touches_set_srv

theorem touches_pushStamp {ps : List Part} {s₀ : State} (p : Nat) (q : Nat) (idx : Nat) (t : Nat) (s : State) (hsrv : Part.srv ∈ ps) (hrings : Part.rings ∈ ps) (rring : Part.regs .ring ∈ ps) (h : Touches ps s₀ s) :
    Touches ps s₀ (pushStamp p q idx t s) := by
  unfold pushStamp
  with_reducible repeat' first
    | assumption
    | intro _
    | apply touches_State_modRing
    | apply touches_State_wr
    | apply touches_ringNote
    | apply touches_State_modPort
    | apply touches_ite
    | exact has_R_HRG_RING_REFUSED_TS_LOST _
    | exact has_R_HRG_TS_LOST_PORT

theorem touches_markAnswered {ps : List Part} {s₀ : State} (p : Nat) (rx : Option Nat) (s : State) (hsrv : Part.srv ∈ ps) (h : Touches ps s₀ s) :
    Touches ps s₀ (markAnswered p rx s) := by
  unfold markAnswered
  with_reducible repeat' first
    | assumption
    | intro _
    | apply touches_State_modPort
    | apply touches_ite
    | dsimp only
    | split

theorem touches_State_modInst {ps : List Part} {s₀ : State} (s : State) (j : Nat) (f : PtpInst → PtpInst) (hsrv : Part.srv ∈ ps) (h : Touches ps s₀ s) :
    Touches ps s₀ (State.modInst s j f) := by
  unfold State.modInst
  with_reducible repeat' first
    | assumption
    | intro _
    | apply touches_ite
    | dsimp only
    | split
    | apply touches_set_srv

theorem touches_commitEffects {ps : List Part} {s₀ : State} (p : Nat) (t : Nat) (f : TxFrame) (s : State) (hsrv : Part.srv ∈ ps) (hrings : Part.rings ∈ ps) (rtsc : Part.regs .tsc ∈ ps) (rring : Part.regs .ring ∈ ps) (h : Touches ps s₀ s) :
    Touches ps s₀ (commitEffects p t f s) := by
  unfold commitEffects
  with_reducible repeat' first
    | assumption
    | intro _
    | apply touches_markAnswered
    | apply touches_State_hi
    | apply touches_pushStamp
    | apply touches_ntpStat
    | apply touches_cstCommit
    | apply touches_ntsStat
    | apply touches_ptpStat
    | apply touches_State_modInst
    | apply touches_enqueueAhead
    | apply touches_ite
    | apply touches_foldl
    | exact has_R_TSC_STAT_SERVED
    | dsimp only
    | split
    | apply touches_set_srv

theorem touches_sendPart {ps : List Part} {s₀ : State} (p : Nat) (v : Flight) (b : List Nat) (n : Nat) (fcs : Nat) (s : State) (h : Touches ps s₀ s) :
    Touches ps s₀ (sendPart p v b n fcs s) := by
  unfold sendPart
  with_reducible repeat' first
    | assumption
    | intro _
    | apply touches_State_emit

theorem touches_endFlight {ps : List Part} {s₀ : State} (p : Nat) (v : Flight) (s : State) (hsrv : Part.srv ∈ ps) (hrings : Part.rings ∈ ps) (rring : Part.regs .ring ∈ ps) (h : Touches ps s₀ s) :
    Touches ps s₀ (endFlight p v s) := by
  unfold endFlight
  with_reducible repeat' first
    | assumption
    | intro _
    | apply touches_State_modPort
    | apply touches_finishDesc
    | dsimp only
    | split

theorem touches_finishFlight {ps : List Part} {s₀ : State} (p : Nat) (v : Flight) (s : State) (hsrv : Part.srv ∈ ps) (h : Touches ps s₀ s) :
    Touches ps s₀ (finishFlight p v s) := by
  unfold finishFlight
  with_reducible repeat' first
    | assumption
    | intro _
    | apply touches_sendPart
    | apply touches_State_modPort
    | apply touches_mac
    | apply touches_ite
    | dsimp only
    | split

theorem touches_leaveBall {ps : List Part} {s₀ : State} (p : Nat) (now : Nat) (s : State) (hsrv : Part.srv ∈ ps) (h : Touches ps s₀ s) :
    Touches ps s₀ (leaveBall p now s) := by
  unfold leaveBall
  with_reducible repeat' first
    | assumption
    | intro _
    | apply touches_finishFlight
    | apply touches_State_modPort
    | apply touches_foldl

theorem touches_settleTo {ps : List Part} {s₀ : State} (p : Nat) (ps0 : Nat) (s : State) (hsrv : Part.srv ∈ ps) (hrings : Part.rings ∈ ps) (rring : Part.regs .ring ∈ ps) (h : Touches ps s₀ s) :
    Touches ps s₀ (settleTo p ps0 s) := by
  unfold settleTo
  with_reducible repeat' first
    | assumption
    | intro _
    | apply touches_mac
    | apply touches_State_modPort
    | apply touches_leaveBall
    | apply touches_endFlight
    | apply touches_ite
    | dsimp only
    | split

theorem touches_settle {ps : List Part} {s₀ : State} (p : Nat) (s : State) (hsrv : Part.srv ∈ ps) (hrings : Part.rings ∈ ps) (rring : Part.regs .ring ∈ ps) (h : Touches ps s₀ s) :
    Touches ps s₀ (settle p s) := by
  unfold settle
  with_reducible repeat' first
    | assumption
    | intro _
    | apply touches_settleTo

theorem touches_settleAt {ps : List Part} {s₀ : State} (p : Nat) (a1 : Nat) (s : State) (htick : Part.tick ∈ ps) (hlanes : Part.lanes ∈ ps) (hsrv : Part.srv ∈ ps) (hrings : Part.rings ∈ ps) (rring : Part.regs .ring ∈ ps) (h : Touches ps s₀ s) :
    Touches ps s₀ (settleAt p a1 s) := by
  unfold settleAt
  with_reducible repeat' first
    | assumption
    | intro _
    | apply touches_settleTo
    | apply touches_settle
    | apply touches_State_waitPs

theorem touches_settleAll {ps : List Part} {s₀ : State} (s : State) (hsrv : Part.srv ∈ ps) (hrings : Part.rings ∈ ps) (rring : Part.regs .ring ∈ ps) (h : Touches ps s₀ s) :
    Touches ps s₀ (settleAll s) := by
  unfold settleAll
  with_reducible repeat' first
    | assumption
    | intro _
    | apply touches_settle
    | apply touches_ite
    | apply touches_foldl

theorem touches_settleEnded {ps : List Part} {s₀ : State} (s : State) (hsrv : Part.srv ∈ ps) (hrings : Part.rings ∈ ps) (rring : Part.regs .ring ∈ ps) (h : Touches ps s₀ s) :
    Touches ps s₀ (settleEnded s) := by
  unfold settleEnded
  with_reducible repeat' first
    | assumption
    | intro _
    | apply touches_settle
    | apply touches_foldl
    | apply touches_ite

theorem touches_idle {ps : List Part} {s₀ : State} (s : State) (htick : Part.tick ∈ ps) (hlanes : Part.lanes ∈ ps) (hsrv : Part.srv ∈ ps) (hrings : Part.rings ∈ ps) (rring : Part.regs .ring ∈ ps) (h : Touches ps s₀ s) :
    Touches ps s₀ (idle s) := by
  unfold idle
  with_reducible repeat' first
    | assumption
    | intro _
    | apply touches_countEdges
    | apply touches_settleEnded
    | apply touches_State_advance

theorem touches_resumeTx {ps : List Part} {s₀ : State} (p : Nat) (at_ : Nat) (v : Flight) (s : State) (hsrv : Part.srv ∈ ps) (h : Touches ps s₀ s) :
    Touches ps s₀ (resumeTx p at_ v s) := by
  unfold resumeTx
  with_reducible repeat' first
    | assumption
    | intro _
    | apply touches_State_modPort

theorem touches_commitFrame {ps : List Part} {s₀ : State} (p : Nat) (q : Nat) (at_ : Nat) (f : TxFrame) (s : State) (hsrv : Part.srv ∈ ps) (hrings : Part.rings ∈ ps) (rtsc : Part.regs .tsc ∈ ps) (rring : Part.regs .ring ∈ ps) (h : Touches ps s₀ s) :
    Touches ps s₀ (commitFrame p q at_ f s) := by
  unfold commitFrame
  with_reducible repeat' first
    | assumption
    | intro _
    | apply touches_commitEffects
    | apply touches_State_modPort

theorem touches_withholdFrame {ps : List Part} {s₀ : State} (p : Nat) (f : TxFrame) (s : State) (hsrv : Part.srv ∈ ps) (hrings : Part.rings ∈ ps) (rptp : Part.regs .ptp ∈ ps) (rring : Part.regs .ring ∈ ps) (h : Touches ps s₀ s) :
    Touches ps s₀ (withholdFrame p f s) := by
  unfold withholdFrame
  with_reducible repeat' first
    | assumption
    | intro _
    | apply touches_discardFrame
    | apply touches_ntpStat
    | apply touches_mac
    | apply touches_ptpStat
    | apply touches_State_raise
    | apply touches_ite
    | exact has_Evt_ptp _
    | dsimp only
    | split

theorem touches_frameCommit {ps : List Part} {s₀ : State} (p : Nat) (sub : Nat) (s : State) (htick : Part.tick ∈ ps) (hlanes : Part.lanes ∈ ps) (hsrv : Part.srv ∈ ps) (hrings : Part.rings ∈ ps) (rtsc : Part.regs .tsc ∈ ps) (rptp : Part.regs .ptp ∈ ps) (rring : Part.regs .ring ∈ ps) (h : Touches ps s₀ s) :
    Touches ps s₀ (frameCommit p sub s) := by
  unfold frameCommit
  with_reducible repeat' first
    | assumption
    | intro _
    | apply touches_settle
    | apply touches_resumeTx
    | apply touches_settleAt
    | apply touches_settleEnded
    | apply touches_setTxq
    | apply touches_withholdFrame
    | apply touches_commitFrame
    | apply touches_ite
    | dsimp only
    | split

theorem touches_fragmentEnd {ps : List Part} {s₀ : State} (p : Nat) (s : State) (hsrv : Part.srv ∈ ps) (hrings : Part.rings ∈ ps) (rring : Part.regs .ring ∈ ps) (h : Touches ps s₀ s) :
    Touches ps s₀ (fragmentEnd p s) := by
  unfold fragmentEnd
  with_reducible repeat' first
    | assumption
    | intro _
    | apply touches_settle
    | apply touches_mac
    | apply touches_sendPart
    | apply touches_State_modPort
    | apply touches_ite
    | dsimp only
    | split

theorem touches_sendVerify {ps : List Part} {s₀ : State} (p : Nat) (smd : Nat) (s : State) (htick : Part.tick ∈ ps) (hlanes : Part.lanes ∈ ps) (hsrv : Part.srv ∈ ps) (hrings : Part.rings ∈ ps) (rring : Part.regs .ring ∈ ps) (h : Touches ps s₀ s) :
    Touches ps s₀ (sendVerify p smd s) := by
  unfold sendVerify
  with_reducible repeat' first
    | assumption
    | intro _
    | apply touches_settleAt
    | apply touches_State_modPort
    | apply touches_State_emit

theorem touches_verifySend {ps : List Part} {s₀ : State} (p : Nat) (s : State) (htick : Part.tick ∈ ps) (hlanes : Part.lanes ∈ ps) (hsrv : Part.srv ∈ ps) (hrings : Part.rings ∈ ps) (rmac : Part.regs .mac ∈ ps) (rring : Part.regs .ring ∈ ps) (h : Touches ps s₀ s) :
    Touches ps s₀ (verifySend p s) := by
  unfold verifySend
  with_reducible repeat' first
    | assumption
    | intro _
    | apply touches_State_waitClk
    | apply touches_State_raise
    | apply touches_mac
    | apply touches_State_wr
    | apply touches_sendVerify
    | apply touches_State_modPort
    | apply touches_ite
    | exact has_Evt_mac _
    | exact has_R_MAC_STAT_VERIFY _

theorem touches_verifyResponse {ps : List Part} {s₀ : State} (p : Nat) (s : State) (rmac : Part.regs .mac ∈ ps) (h : Touches ps s₀ s) :
    Touches ps s₀ (verifyResponse p s) := by
  unfold verifyResponse
  with_reducible repeat' first
    | assumption
    | intro _
    | apply touches_State_hi
    | apply touches_State_wr
    | apply touches_ite
    | exact has_R_MAC_STAT_PRE_ACTIVE _
    | exact has_R_MAC_STAT_VERIFY _

theorem touches_setPaused {ps : List Part} {s₀ : State} (p : Nat) (q : Nat) (v : Bool) (s : State) (rmac : Part.regs .mac ∈ ps) (h : Touches ps s₀ s) :
    Touches ps s₀ (setPaused p q v s) := by
  unfold setPaused
  with_reducible repeat' first
    | assumption
    | intro _
    | apply touches_State_wr
    | apply touches_ite
    | exact has_R_MAC_STAT_PAUSED _

theorem touches_pauseQueue {ps : List Part} {s₀ : State} (p : Nat) (a1 : Nat) (s : State) (qn : Nat × Nat) (hsrv : Part.srv ∈ ps) (rmac : Part.regs .mac ∈ ps) (rnts : Part.regs .nts ∈ ps) (h : Touches ps s₀ s) :
    Touches ps s₀ (pauseQueue p a1 s qn) := by
  unfold pauseQueue
  with_reducible repeat' first
    | assumption
    | intro _
    | apply touches_setPaused
    | apply touches_State_modPort
    | apply touches_cancelReservations
    | apply touches_ite

theorem touches_pauseEffect {ps : List Part} {s₀ : State} (p : Nat) (s : State) (htick : Part.tick ∈ ps) (hlanes : Part.lanes ∈ ps) (hsrv : Part.srv ∈ ps) (hrings : Part.rings ∈ ps) (rmac : Part.regs .mac ∈ ps) (rnts : Part.regs .nts ∈ ps) (rring : Part.regs .ring ∈ ps) (h : Touches ps s₀ s) :
    Touches ps s₀ (pauseEffect p s) := by
  unfold pauseEffect
  with_reducible repeat' first
    | assumption
    | intro _
    | apply touches_settleAt
    | apply touches_mac
    | apply touches_pauseQueue
    | apply touches_State_modPort
    | apply touches_ite
    | apply touches_foldl
    | dsimp only
    | split

theorem touches_pauseExpire {ps : List Part} {s₀ : State} (p : Nat) (q : Nat) (s : State) (htick : Part.tick ∈ ps) (hlanes : Part.lanes ∈ ps) (hsrv : Part.srv ∈ ps) (hrings : Part.rings ∈ ps) (rmac : Part.regs .mac ∈ ps) (rring : Part.regs .ring ∈ ps) (h : Touches ps s₀ s) :
    Touches ps s₀ (pauseExpire p q s) := by
  unfold pauseExpire
  with_reducible repeat' first
    | assumption
    | intro _
    | apply touches_setPaused
    | apply touches_State_modPort
    | apply touches_settleAt
    | apply touches_ite

theorem touches_txDescFetch {ps : List Part} {s₀ : State} (q : Nat) (data : List Nat) (s : State) (hsrv : Part.srv ∈ ps) (hrings : Part.rings ∈ ps) (rring : Part.regs .ring ∈ ps) (h : Touches ps s₀ s) :
    Touches ps s₀ (txDescFetch q data s) := by
  unfold txDescFetch
  with_reducible repeat' first
    | assumption
    | intro _
    | apply touches_State_modRing
    | apply touches_takeDesc
    | apply touches_refuseDesc
    | apply touches_finishDesc
    | apply touches_enqueue
    | apply touches_settle
    | apply touches_ite

theorem touches_txUnderrun {ps : List Part} {s₀ : State} (p : Nat) (held : Nat) (s : State) (hsrv : Part.srv ∈ ps) (hrings : Part.rings ∈ ps) (rmac : Part.regs .mac ∈ ps) (rring : Part.regs .ring ∈ ps) (h : Touches ps s₀ s) :
    Touches ps s₀ (txUnderrun p held s) := by
  unfold txUnderrun
  with_reducible repeat' first
    | assumption
    | intro _
    | apply touches_settle
    | apply touches_State_modPort
    | apply touches_sendPart
    | apply touches_mac
    | apply touches_ringNote
    | apply touches_finishDesc
    | apply touches_raiseStart
    | apply touches_State_raise
    | apply touches_ite
    | exact has_Evt_mac _
    | dsimp only
    | split

theorem touches_ntsReserve {ps : List Part} {s₀ : State} (p : Nat) (s : State) (hsrv : Part.srv ∈ ps) (hrings : Part.rings ∈ ps) (rnts : Part.regs .nts ∈ ps) (rring : Part.regs .ring ∈ ps) (h : Touches ps s₀ s) :
    Touches ps s₀ (ntsReserve p s) := by
  unfold ntsReserve
  with_reducible repeat' first
    | assumption
    | intro _
    | apply touches_settle
    | apply touches_enqueue
    | apply touches_intoHold
    | apply touches_State_modPort
    | apply touches_ntsStat
    | apply touches_ite
    | dsimp only
    | split

theorem touches_ntsHoldTimeout {ps : List Part} {s₀ : State} (p : Nat) (s : State) (htick : Part.tick ∈ ps) (hlanes : Part.lanes ∈ ps) (hsrv : Part.srv ∈ ps) (rnts : Part.regs .nts ∈ ps) (h : Touches ps s₀ s) :
    Touches ps s₀ (ntsHoldTimeout p s) := by
  unfold ntsHoldTimeout
  with_reducible repeat' first
    | assumption
    | intro _
    | apply touches_State_waitClk
    | apply touches_State_raise
    | apply touches_ntsStat
    | apply touches_State_modPort
    | apply touches_ite
    | exact has_Evt_nts _
    | dsimp only
    | split

end Sys2Proof.Machine
end

