-- ==== Sys2Proof/Laws/TouchesServed.lean ====
section
/-! SUPPORT. What the operations of served NTP, NTS and PTP, links and reception touch: one lemma per operation. -/

namespace Sys2Proof.Machine

theorem touches_hostward {ps : List Part} {s₀ : State} (a : Arrived) (c : Nat) (s : State) (hsrv : Part.srv ∈ ps) (hrings : Part.rings ∈ ps) (rring : Part.regs .ring ∈ ps) (h : Touches ps s₀ s) :
    Touches ps s₀ (hostward a c s) := by
  unfold hostward
  with_reducible repeat' first
    | assumption
    | intro _
    | apply touches_State_modPort
    | apply touches_toHost
    | apply touches_ite

theorem touches_State_setCst {ps : List Part} {s₀ : State} (s : State) (i : Nat) (e : CstEntry) (hsrv : Part.srv ∈ ps) (h : Touches ps s₀ s) :
    Touches ps s₀ (State.setCst s i e) := by
  unfold State.setCst
  with_reducible repeat' first
    | assumption
    | intro _
    | apply touches_ite
    | dsimp only
    | split
    | apply touches_set_srv

theorem touches_cstFind {ps : List Part} {s₀ : State} (d : Nat) (a1 : Nat) (s : State) (hsrv : Part.srv ∈ ps) (rntp : Part.regs .ntp ∈ ps) (h : Touches ps s₀ s) :
    Touches ps s₀ (cstFind d a1 s).2 := by
  unfold cstFind
  with_reducible repeat' first
    | assumption
    | intro _
    | apply touches_State_raise
    | apply touches_ntpStat
    | apply touches_State_setCst
    | apply touches_ite
    | apply touches_foldl_fst
    | exact has_Evt_ntp _
    | dsimp only
    | split

theorem touches_cstDraw {ps : List Part} {s₀ : State} (d : Nat) (i : Nat) (s : State) (hsrv : Part.srv ∈ ps) (h : Touches ps s₀ s) :
    Touches ps s₀ (cstDraw d i s).2 := by
  unfold cstDraw
  with_reducible repeat' first
    | assumption
    | intro _
    | apply touches_State_setCst
    | apply touches_ite
    | apply touches_foldl_fst
    | dsimp only
    | split

theorem touches_ovfDraw {ps : List Part} {s₀ : State} (d : Nat) (s : State) (hsrv : Part.srv ∈ ps) (rntp : Part.regs .ntp ∈ ps) (h : Touches ps s₀ s) :
    Touches ps s₀ (ovfDraw d s).2 := by
  unfold ovfDraw
  with_reducible repeat' first
    | assumption
    | intro _
    | apply touches_takeOvf
    | apply touches_State_raise
    | apply touches_ntpStat
    | apply touches_ite
    | apply touches_foldl_fst
    | exact has_Evt_ntp _
    | dsimp only
    | split
    | refine touches_of_fst (by assumption) ?_
    | refine touches_of_snd (by assumption) ?_

theorem touches_cstSweep {ps : List Part} {s₀ : State} (d : Nat) (s : State) (htick : Part.tick ∈ ps) (hlanes : Part.lanes ∈ ps) (hsrv : Part.srv ∈ ps) (rntp : Part.regs .ntp ∈ ps) (h : Touches ps s₀ s) :
    Touches ps s₀ (cstSweep d s) := by
  unfold cstSweep
  with_reducible repeat' first
    | assumption
    | intro _
    | apply touches_State_waitClk
    | apply touches_ntpStat
    | apply touches_State_setCst
    | apply touches_State_modNtp
    | apply touches_State_raise
    | apply touches_State_lo
    | apply touches_ite
    | apply touches_foldl
    | exact has_Evt_ntp _
    | exact has_R_NTP_CST_CTL_FLUSH_BUSY _

theorem touches_writeCstCtl {ps : List Part} {s₀ : State} (d : Nat) (w : Nat) (s : State) (hsrv : Part.srv ∈ ps) (rntp : Part.regs .ntp ∈ ps) (h : Touches ps s₀ s) :
    Touches ps s₀ (writeCstCtl d w s) := by
  unfold writeCstCtl
  with_reducible repeat' first
    | assumption
    | intro _
    | apply touches_State_modNtp
    | apply touches_State_hi
    | apply touches_State_wr
    | apply touches_ite
    | exact has_R_NTP_CST_CTL_FLUSH_BUSY _
    | exact has_R_NTP_CST_CTL_GEN _

theorem touches_withheld {ps : List Part} (p : Nat) (s : State) (hsrv : Part.srv ∈ ps) : TouchesSome ps (withheld p s) := by
  unfold withheld
  with_reducible repeat' first
    | (apply touchesSome_none)
    | (apply touchesSome_some)
    | (apply touchesSome_ite)
    | assumption
    | intro _
    | apply touches_ntpStat
    | apply touches_mac

theorem touches_ntpAnswer {ps : List Part} {s₀ : State} (a : Arrived) (entry : Option Nat) (s : State) (hsrv : Part.srv ∈ ps) (hrings : Part.rings ∈ ps) (rring : Part.regs .ring ∈ ps) (h : Touches ps s₀ s) :
    Touches ps s₀ (ntpAnswer a entry s) := by
  unfold ntpAnswer
  with_reducible repeat' first
    | assumption
    | intro _
    | apply touches_enqueue

theorem touches_ntpExcess {ps : List Part} {s₀ : State} (a : Arrived) (i : Nat) (s : State) (hsrv : Part.srv ∈ ps) (hrings : Part.rings ∈ ps) (rntp : Part.regs .ntp ∈ ps) (rring : Part.regs .ring ∈ ps) (h : Touches ps s₀ s) :
    Touches ps s₀ (ntpExcess a i s) := by
  unfold ntpExcess
  with_reducible repeat' first
    | assumption
    | intro _
    | apply touches_takeKod
    | apply touches_ntpStat
    | apply touches_State_setCst
    | apply touches_enqueue
    | apply touches_State_raise
    | apply touches_ite
    | exact has_Evt_ntp _
    | dsimp only
    | split
    | refine touches_of_fst (by assumption) ?_
    | refine touches_of_snd (by assumption) ?_

theorem touches_ntpRequest {ps : List Part} {s₀ : State} (a : Arrived) (s : State) (hsrv : Part.srv ∈ ps) (hrings : Part.rings ∈ ps) (rntp : Part.regs .ntp ∈ ps) (rring : Part.regs .ring ∈ ps) (h : Touches ps s₀ s) :
    Touches ps s₀ (ntpRequest a s) := by
  unfold ntpRequest
  with_reducible repeat' first
    | assumption
    | intro _
    | apply touches_passPipe
    | apply touches_withheld
    | apply touches_cstFind
    | apply touches_cstDraw
    | apply touches_ntpAnswer
    | apply touches_ntpExcess
    | apply touches_ovfDraw
    | dsimp only
    | split
    | refine touches_of_snd (by assumption) ?_
    | refine touches_of_some (by assumption) ?_ ?_

theorem touches_ntpByAction {ps : List Part} {s₀ : State} (a : Arrived) (host : Bool) (s : State) (hsrv : Part.srv ∈ ps) (hrings : Part.rings ∈ ps) (rring : Part.regs .ring ∈ ps) (h : Touches ps s₀ s) :
    Touches ps s₀ (ntpByAction a host s) := by
  unfold ntpByAction
  with_reducible repeat' first
    | assumption
    | intro _
    | apply touches_hostward
    | apply touches_ntpStat
    | apply touches_ite

theorem touches_bcSkip {ps : List Part} {s₀ : State} (p : Nat) (s : State) (hsrv : Part.srv ∈ ps) (rntp : Part.regs .ntp ∈ ps) (h : Touches ps s₀ s) :
    Touches ps s₀ (bcSkip p s) := by
  unfold bcSkip
  with_reducible repeat' first
    | assumption
    | intro _
    | apply touches_State_raise
    | apply touches_ntpStat
    | apply touches_ite
    | exact has_Evt_ntp _

theorem touches_ntpBroadcast {ps : List Part} {s₀ : State} (p : Nat) (s : State) (htick : Part.tick ∈ ps) (hlanes : Part.lanes ∈ ps) (hsrv : Part.srv ∈ ps) (hrings : Part.rings ∈ ps) (rntp : Part.regs .ntp ∈ ps) (rring : Part.regs .ring ∈ ps) (h : Touches ps s₀ s) :
    Touches ps s₀ (ntpBroadcast p s) := by
  unfold ntpBroadcast
  with_reducible repeat' first
    | assumption
    | intro _
    | apply touches_State_waitTs0
    | apply touches_withheld
    | apply touches_bcSkip
    | apply touches_State_modNtp
    | apply touches_enqueue
    | apply touches_ntpStat
    | apply touches_settle
    | apply touches_ite

theorem touches_bcStepSkips {ps : List Part} {s₀ : State} (p : Nat) (old : Nat) (s : State) (hsrv : Part.srv ∈ ps) (rntp : Part.regs .ntp ∈ ps) (h : Touches ps s₀ s) :
    Touches ps s₀ (bcStepSkips p old s) := by
  unfold bcStepSkips
  with_reducible repeat' first
    | assumption
    | intro _
    | apply touches_State_raise
    | apply touches_bumpStat
    | apply touches_ite
    | exact has_Evt_ntp _

theorem touches_State_modNts {ps : List Part} {s₀ : State} (s : State) (d : Nat) (f : NtsDie → NtsDie) (hsrv : Part.srv ∈ ps) (h : Touches ps s₀ s) :
    Touches ps s₀ (State.modNts s d f) := by
  unfold State.modNts
  with_reducible repeat' first
    | assumption
    | intro _
    | apply touches_ite
    | dsimp only
    | split
    | apply touches_set_srv

theorem touches_State_setKeySlot {ps : List Part} {s₀ : State} (s : State) (k : Nat) (v : Nat × Nat × List Nat) (hsrv : Part.srv ∈ ps) (h : Touches ps s₀ s) :
    Touches ps s₀ (State.setKeySlot s k v) := by
  unfold State.setKeySlot
  with_reducible repeat' first
    | assumption
    | intro _
    | apply touches_ite
    | dsimp only
    | split
    | apply touches_set_srv

theorem touches_copyKeys {ps : List Part} {s₀ : State} (s : State) (d : Nat) (rnts : Part.regs .nts ∈ ps) (h : Touches ps s₀ s) :
    Touches ps s₀ (copyKeys s d) := by
  unfold copyKeys
  with_reducible repeat' first
    | assumption
    | intro _
    | apply touches_State_wr
    | apply touches_ite
    | apply touches_foldl
    | exact has_R_NTS_KEY_ID_ID _
    | exact has_R_NTS_KEY_STATE_CHG_SEQ _
    | exact has_R_NTS_KEY_STATE_S _
    | exact has_R_NTS_STAT_KEY_CURRENT _
    | exact has_R_NTS_STAT_KEY_PEND _

theorem touches_clearKeys {ps : List Part} {s₀ : State} (s : State) (d : Nat) (rnts : Part.regs .nts ∈ ps) (h : Touches ps s₀ s) :
    Touches ps s₀ (clearKeys s d) := by
  unfold clearKeys
  with_reducible repeat' first
    | assumption
    | intro _
    | apply touches_State_lo
    | apply touches_ite
    | apply touches_foldl
    | exact has_R_NTS_KEY_ID_ID _
    | exact has_R_NTS_KEY_STATE_S _
    | exact has_R_NTS_STAT_KEY_CURRENT _

theorem touches_applyKeyChange {ps : List Part} {s₀ : State} (c : KeyChange) (s : State) (hsrv : Part.srv ∈ ps) (h : Touches ps s₀ s) :
    Touches ps s₀ (applyKeyChange c s) := by
  unfold applyKeyChange
  with_reducible repeat' first
    | assumption
    | intro _
    | apply touches_State_setKeySlot
    | apply touches_ite
    | apply touches_foldl

theorem touches_keyChangeNow {ps : List Part} {s₀ : State} (c : KeyChange) (s : State) (hsrv : Part.srv ∈ ps) (rnts : Part.regs .nts ∈ ps) (h : Touches ps s₀ s) :
    Touches ps s₀ (keyChangeNow c s) := by
  unfold keyChangeNow
  with_reducible repeat' first
    | assumption
    | intro _
    | apply touches_applyKeyChange
    | apply touches_State_raise
    | apply touches_copyKeys
    | apply touches_ite
    | apply touches_foldl
    | exact has_Evt_nts _
    | dsimp only
    | split
    | apply touches_set_srv

theorem touches_waitKeyInstant {ps : List Part} {s₀ : State} (ready : Nat) (s : State) (htick : Part.tick ∈ ps) (hlanes : Part.lanes ∈ ps) (h : Touches ps s₀ s) :
    Touches ps s₀ (waitKeyInstant ready s) := by
  unfold waitKeyInstant
  with_reducible repeat' first
    | assumption
    | intro _
    | apply touches_State_waitClk
    | apply touches_State_waitTs0

theorem touches_ntsDispatch {ps : List Part} {s₀ : State} (a0 : Nat) (a1 : Nat) (s : State) (hsrv : Part.srv ∈ ps) (rnts : Part.regs .nts ∈ ps) (h : Touches ps s₀ s) :
    Touches ps s₀ (ntsDispatch a0 a1 s) := by
  induction a0 generalizing a1 s with
  | zero =>
    unfold ntsDispatch
    with_reducible repeat' first
      | assumption
  | succ _ ih =>
    unfold ntsDispatch
    with_reducible repeat' first
      | assumption
      | intro _
      | apply ih
      | apply touches_State_wr
      | apply touches_State_modNts
      | apply touches_ite
      | exact has_R_NTS_STAT_QUEUE _
      | dsimp only
      | split

theorem touches_dispatchNts {ps : List Part} {s₀ : State} (d : Nat) (s : State) (hsrv : Part.srv ∈ ps) (rnts : Part.regs .nts ∈ ps) (h : Touches ps s₀ s) :
    Touches ps s₀ (dispatchNts d s) := by
  unfold dispatchNts
  with_reducible repeat' first
    | assumption
    | intro _
    | apply touches_ntsDispatch

theorem touches_ntsRequest {ps : List Part} {s₀ : State} (a : Arrived) (s : State) (hsrv : Part.srv ∈ ps) (hrings : Part.rings ∈ ps) (rntp : Part.regs .ntp ∈ ps) (rnts : Part.regs .nts ∈ ps) (rring : Part.regs .ring ∈ ps) (h : Touches ps s₀ s) :
    Touches ps s₀ (ntsRequest a s) := by
  unfold ntsRequest
  with_reducible repeat' first
    | assumption
    | intro _
    | apply touches_withheld
    | apply touches_hostward
    | apply touches_ntsStat
    | apply touches_cstFind
    | apply touches_cstDraw
    | apply touches_ntpStat
    | apply touches_ovfDraw
    | apply touches_State_raise
    | apply touches_State_modNts
    | apply touches_dispatchNts
    | apply touches_ite
    | exact has_Evt_nts _
    | dsimp only
    | split
    | refine touches_of_fst (by assumption) ?_
    | refine touches_of_snd (by assumption) ?_
    | refine touches_of_some (by assumption) ?_ ?_

theorem touches_ntsNak {ps : List Part} {s₀ : State} (a : Arrived) (entry : Option Nat) (uid : List Nat) (counter : Nat) (s : State) (hsrv : Part.srv ∈ ps) (hrings : Part.rings ∈ ps) (rnts : Part.regs .nts ∈ ps) (rring : Part.regs .ring ∈ ps) (h : Touches ps s₀ s) :
    Touches ps s₀ (ntsNak a entry uid counter s) := by
  unfold ntsNak
  with_reducible repeat' first
    | assumption
    | intro _
    | apply touches_ntsStat
    | apply touches_takeKod
    | apply touches_State_raise
    | apply touches_enqueue
    | apply touches_ite
    | exact has_Evt_nts _
    | dsimp only
    | split

theorem touches_ntsBuild {ps : List Part} {s₀ : State} (a : Arrived) (entry : Option Nat) (p : NtsParts) (keys : List (Nat × Nat × List Nat)) (plain : List Nat) (s : State) (hsrv : Part.srv ∈ ps) (rnts : Part.regs .nts ∈ ps) (h : Touches ps s₀ s) :
    Touches ps s₀ (ntsBuild a entry p keys plain s) := by
  unfold ntsBuild
  with_reducible repeat' first
    | assumption
    | intro _
    | apply touches_ntsStat
    | apply touches_State_modNts
    | apply touches_State_modPort
    | apply touches_State_raise
    | apply touches_ite
    | exact has_Evt_nts _

theorem touches_ntsJudge {ps : List Part} {s₀ : State} (j : NtsJob) (s : State) (hsrv : Part.srv ∈ ps) (hrings : Part.rings ∈ ps) (rnts : Part.regs .nts ∈ ps) (rring : Part.regs .ring ∈ ps) (h : Touches ps s₀ s) :
    Touches ps s₀ (ntsJudge j s) := by
  unfold ntsJudge
  with_reducible repeat' first
    | assumption
    | intro _
    | apply touches_ntsNak
    | apply touches_ntsBuild
    | apply touches_ite
    | dsimp only
    | split

theorem touches_parkIdle {ps : List Part} {s₀ : State} (d : Nat) (e : Nat) (s : State) (hsrv : Part.srv ∈ ps) (rpwr : Part.regs .pwr ∈ ps) (rnts : Part.regs .nts ∈ ps) (h : Touches ps s₀ s) :
    Touches ps s₀ (parkIdle d e s) := by
  unfold parkIdle
  with_reducible repeat' first
    | assumption
    | intro _
    | apply touches_State_modNts
    | apply touches_State_wr
    | apply touches_ite
    | exact has_R_NTS_ENG_STAT_PARKED _
    | exact has_parkedField _

theorem touches_ntsEngineDone {ps : List Part} {s₀ : State} (d : Nat) (e : Nat) (s : State) (hsrv : Part.srv ∈ ps) (hrings : Part.rings ∈ ps) (rpwr : Part.regs .pwr ∈ ps) (rnts : Part.regs .nts ∈ ps) (rring : Part.regs .ring ∈ ps) (h : Touches ps s₀ s) :
    Touches ps s₀ (ntsEngineDone d e s) := by
  unfold ntsEngineDone
  with_reducible repeat' first
    | assumption
    | intro _
    | apply touches_parkIdle
    | apply touches_dispatchNts
    | apply touches_ntsJudge
    | apply touches_State_modNts
    | apply touches_ite
    | dsimp only
    | split

theorem touches_ptpWithheld {ps : List Part} (p : Nat) (s : State) (hsrv : Part.srv ∈ ps) : TouchesSome ps (ptpWithheld p s) := by
  unfold ptpWithheld
  with_reducible repeat' first
    | (apply touchesSome_none)
    | (apply touchesSome_some)
    | (apply touchesSome_ite)
    | assumption
    | intro _
    | apply touches_ntpStat
    | apply touches_mac
    | apply touches_ptpStat

theorem touches_ptpQueue {ps : List Part} {s₀ : State} (j : Nat) (to_ : PtpDest) (kind : TxKind) (rx : Option Nat) (msg : List Nat) (s : State) (hsrv : Part.srv ∈ ps) (hrings : Part.rings ∈ ps) (rring : Part.regs .ring ∈ ps) (h : Touches ps s₀ s) :
    Touches ps s₀ (ptpQueue j to_ kind rx msg s) := by
  unfold ptpQueue
  with_reducible repeat' first
    | assumption
    | intro _
    | apply touches_enqueue

theorem touches_sendSync {ps : List Part} {s₀ : State} (j : Nat) (to_ : PtpDest) (uc : Nat) (seq : Nat) (log : Int) (due : Option Nat) (s : State) (hsrv : Part.srv ∈ ps) (hrings : Part.rings ∈ ps) (rring : Part.regs .ring ∈ ps) (h : Touches ps s₀ s) :
    Touches ps s₀ (sendSync j to_ uc seq log due s) := by
  unfold sendSync
  with_reducible repeat' first
    | assumption
    | intro _
    | apply touches_enqueueAhead

theorem touches_sendAnnounce {ps : List Part} {s₀ : State} (j : Nat) (to_ : PtpDest) (uc : Nat) (seq : Nat) (log : Int) (due : Option Nat) (s : State) (hsrv : Part.srv ∈ ps) (hrings : Part.rings ∈ ps) (rring : Part.regs .ring ∈ ps) (h : Touches ps s₀ s) :
    Touches ps s₀ (sendAnnounce j to_ uc seq log due s) := by
  unfold sendAnnounce
  with_reducible repeat' first
    | assumption
    | intro _
    | apply touches_ptpQueue

theorem touches_State_setGrant {ps : List Part} {s₀ : State} (s : State) (g : Nat) (v : Grant) (hsrv : Part.srv ∈ ps) (h : Touches ps s₀ s) :
    Touches ps s₀ (State.setGrant s g v) := by
  unfold State.setGrant
  with_reducible repeat' first
    | assumption
    | intro _
    | apply touches_ite
    | dsimp only
    | split
    | apply touches_set_srv

theorem touches_sendSignal {ps : List Part} {s₀ : State} (j : Nat) (entry : List Nat) (to_ : PtpDest) (target : List Nat) (tlvs : List Nat) (grants : List Nat) (s : State) (hsrv : Part.srv ∈ ps) (hrings : Part.rings ∈ ps) (rring : Part.regs .ring ∈ ps) (h : Touches ps s₀ s) :
    Touches ps s₀ (sendSignal j entry to_ target tlvs grants s) := by
  unfold sendSignal
  with_reducible repeat' first
    | assumption
    | intro _
    | apply touches_State_modInst
    | apply touches_enqueue

theorem touches_cancelGrants {ps : List Part} {s₀ : State} (j : Nat) (entry : List Nat) (s : State) (hsrv : Part.srv ∈ ps) (hrings : Part.rings ∈ ps) (rring : Part.regs .ring ∈ ps) (h : Touches ps s₀ s) :
    Touches ps s₀ (cancelGrants j entry s) := by
  unfold cancelGrants
  with_reducible repeat' first
    | assumption
    | intro _
    | apply touches_ptpStat
    | apply touches_sendSignal
    | apply touches_State_setGrant
    | apply touches_ite
    | apply touches_foldl

theorem touches_clearMeasure {ps : List Part} {s₀ : State} (j : Nat) (s : State) (hsrv : Part.srv ∈ ps) (h : Touches ps s₀ s) :
    Touches ps s₀ (clearMeasure j s) := by
  unfold clearMeasure
  with_reducible repeat' first
    | assumption
    | intro _
    | apply touches_State_modInst

theorem touches_showUpstream {ps : List Part} {s₀ : State} (ds : Nat) (s : State) (rptp : Part.regs .ptp ∈ ps) (h : Touches ps s₀ s) :
    Touches ps s₀ (showUpstream ds s) := by
  unfold showUpstream
  with_reducible repeat' first
    | assumption
    | intro _
    | apply touches_State_wr
    | apply touches_ite
    | apply touches_foldl
    | exact has_R_PTP_INST_STAT_MASTER_CLASS _
    | exact has_R_PTP_INST_STAT_STATE _

theorem touches_clearDropped {ps : List Part} {s₀ : State} (old : Option (Nat × Nat)) (s : State) (hsrv : Part.srv ∈ ps) (h : Touches ps s₀ s) :
    Touches ps s₀ (clearDropped old s) := by
  unfold clearDropped
  with_reducible repeat' first
    | assumption
    | intro _
    | apply touches_clearMeasure
    | apply touches_ite
    | dsimp only
    | split

theorem touches_reselect {ps : List Part} {s₀ : State} (ds : Nat) (s : State) (hens : Part.ens ∈ ps) (hlog : Part.log ∈ ps) (hsrv : Part.srv ∈ ps) (rens : Part.regs .ens ∈ ps) (rwch : Part.regs .wch ∈ ps) (rptp : Part.regs .ptp ∈ ps) (h : Touches ps s₀ s) :
    Touches ps s₀ (reselect ds s) := by
  unfold reselect
  with_reducible repeat' first
    | assumption
    | intro _
    | apply touches_clearDropped
    | apply touches_State_raise
    | apply touches_clearMeasure
    | apply touches_showUpstream
    | apply touches_withdraw
    | apply touches_ite
    | exact has_Evt_ptp _
    | dsimp only
    | split
    | apply touches_set_srv

theorem touches_dropMasters {ps : List Part} {s₀ : State} (ds : Nat) (f : PtpMaster → Bool) (s : State) (hens : Part.ens ∈ ps) (hlog : Part.log ∈ ps) (hsrv : Part.srv ∈ ps) (rens : Part.regs .ens ∈ ps) (rwch : Part.regs .wch ∈ ps) (rptp : Part.regs .ptp ∈ ps) (h : Touches ps s₀ s) :
    Touches ps s₀ (dropMasters ds f s) := by
  unfold dropMasters
  with_reducible repeat' first
    | assumption
    | intro _
    | apply touches_reselect
    | apply touches_ite
    | dsimp only
    | split
    | apply touches_set_srv

theorem touches_cancelHeld {ps : List Part} {s₀ : State} (j : Nat) (entry : List Nat) (s : State) (hsrv : Part.srv ∈ ps) (hrings : Part.rings ∈ ps) (rring : Part.regs .ring ∈ ps) (h : Touches ps s₀ s) :
    Touches ps s₀ (cancelHeld j entry s) := by
  unfold cancelHeld
  with_reducible repeat' first
    | assumption
    | intro _
    | apply touches_ptpStat
    | apply touches_sendSignal
    | apply touches_ite
    | apply touches_foldl

theorem touches_stopInst {ps : List Part} {s₀ : State} (j : Nat) (entry : List Nat) (s : State) (hens : Part.ens ∈ ps) (hlog : Part.log ∈ ps) (hsrv : Part.srv ∈ ps) (hrings : Part.rings ∈ ps) (rens : Part.regs .ens ∈ ps) (rwch : Part.regs .wch ∈ ps) (rptp : Part.regs .ptp ∈ ps) (rring : Part.regs .ring ∈ ps) (h : Touches ps s₀ s) :
    Touches ps s₀ (stopInst j entry s) := by
  unfold stopInst
  with_reducible repeat' first
    | assumption
    | intro _
    | apply touches_cancelGrants
    | apply touches_cancelHeld
    | apply touches_State_modInst
    | apply touches_dropMasters
    | apply touches_State_wr
    | apply touches_ite
    | exact has_R_PTP_INST_STAT_MASTER_CLASS _
    | exact has_R_PTP_INST_STAT_STATE _

theorem touches_startInst {ps : List Part} {s₀ : State} (j : Nat) (s : State) (hsrv : Part.srv ∈ ps) (rptp : Part.regs .ptp ∈ ps) (h : Touches ps s₀ s) :
    Touches ps s₀ (startInst j s) := by
  unfold startInst
  with_reducible repeat' first
    | assumption
    | intro _
    | apply touches_State_lo
    | apply touches_State_raise
    | apply touches_State_hi
    | apply touches_State_modInst
    | apply touches_State_wr
    | apply touches_ite
    | exact has_Evt_ptp _
    | exact has_R_PTP_INST_STAT_CFG_ERR _
    | exact has_R_PTP_INST_STAT_STATE _

theorem touches_writeInst {ps : List Part} {s₀ : State} (j : Nat) (r : Register) (w : Nat) (s : State) {b1 : Block} (hens : Part.ens ∈ ps) (hlog : Part.log ∈ ps) (hsrv : Part.srv ∈ ps) (hrings : Part.rings ∈ ps) (rens : Part.regs .ens ∈ ps) (rwch : Part.regs .wch ∈ ps) (rptp : Part.regs .ptp ∈ ps) (rring : Part.regs .ring ∈ ps) (k1 : ∀ f ∈ r.fields, b1.has f.key = true) (rb1 : Part.regs b1 ∈ ps) (h : Touches ps s₀ s) :
    Touches ps s₀ (writeInst j r w s) := by
  unfold writeInst
  with_reducible repeat' first
    | assumption
    | intro _
    | apply k1
    | apply touches_startInst
    | apply touches_State_storeReg
    | apply touches_stopInst
    | apply touches_ite

theorem touches_writeInstRate {ps : List Part} {s₀ : State} (j : Nat) (phase : Bool) (w : Nat) (s : State) (hens : Part.ens ∈ ps) (hlog : Part.log ∈ ps) (hsrv : Part.srv ∈ ps) (hrings : Part.rings ∈ ps) (rens : Part.regs .ens ∈ ps) (rwch : Part.regs .wch ∈ ps) (rptp : Part.regs .ptp ∈ ps) (rring : Part.regs .ring ∈ ps) (h : Touches ps s₀ s) :
    Touches ps s₀ (writeInstRate j phase w s) := by
  unfold writeInstRate writeInstRate.judgeAgain
  with_reducible repeat' first
    | assumption
    | intro _
    | apply touches_startInst
    | apply touches_stopInst
    | apply touches_State_lo
    | apply touches_State_storeReg
    | apply touches_ite
    | exact has_R_PTP_INST_STAT_CFG_ERR _
    | (apply has_Reg_PTP_INST_PHASE; assumption)
    | (apply has_Reg_PTP_INST_RATE; assumption)

theorem touches_dropUnsent {ps : List Part} {s₀ : State} (p : Nat) (mine : Nat → Bool) (s : State) (hsrv : Part.srv ∈ ps) (h : Touches ps s₀ s) :
    Touches ps s₀ (dropUnsent p mine s) := by
  unfold dropUnsent
  with_reducible repeat' first
    | assumption
    | intro _
    | apply touches_setTxq

theorem touches_svcWriteEntry {ps : List Part} {s₀ : State} (p : Nat) (i : Nat) (s : State) (hens : Part.ens ∈ ps) (hlog : Part.log ∈ ps) (hsrv : Part.srv ∈ ps) (hrings : Part.rings ∈ ps) (rens : Part.regs .ens ∈ ps) (rwch : Part.regs .wch ∈ ps) (rmac : Part.regs .mac ∈ ps) (rptp : Part.regs .ptp ∈ ps) (rring : Part.regs .ring ∈ ps) (h : Touches ps s₀ s) :
    Touches ps s₀ (svcWriteEntry p i s) := by
  unfold svcWriteEntry
  with_reducible repeat' first
    | assumption
    | intro _
    | apply touches_State_raise
    | apply touches_State_hi
    | apply touches_dropUnsent
    | apply touches_stopInst
    | apply touches_setSvc
    | apply touches_startInst
    | apply touches_ite
    | apply touches_foldl
    | exact has_Evt_mac _
    | exact has_R_MAC_SVC_CMD_REFUSED _

theorem touches_svcReadEntry {ps : List Part} {s₀ : State} (p : Nat) (i : Nat) (s : State) (rmac : Part.regs .mac ∈ ps) (h : Touches ps s₀ s) :
    Touches ps s₀ (svcReadEntry p i s) := by
  unfold svcReadEntry
  with_reducible repeat' first
    | assumption
    | intro _
    | apply touches_State_wr
    | apply touches_ite
    | exact has_R_MAC_SVC_DATA0_D _
    | exact has_R_MAC_SVC_DATA1_INNER _
    | exact has_R_MAC_SVC_DATA1_OUTER _
    | exact has_R_MAC_SVC_DATA2_D _
    | exact has_R_MAC_SVC_DATA3_D _
    | exact has_R_MAC_SVC_DATA4_D _
    | exact has_R_MAC_SVC_DATA5_D _

theorem touches_writeSvcCmd {ps : List Part} {s₀ : State} (p : Nat) (w : Nat) (s : State) (hens : Part.ens ∈ ps) (hlog : Part.log ∈ ps) (hsrv : Part.srv ∈ ps) (hrings : Part.rings ∈ ps) (rens : Part.regs .ens ∈ ps) (rwch : Part.regs .wch ∈ ps) (rmac : Part.regs .mac ∈ ps) (rptp : Part.regs .ptp ∈ ps) (rring : Part.regs .ring ∈ ps) (h : Touches ps s₀ s) :
    Touches ps s₀ (writeSvcCmd p w s) := by
  unfold writeSvcCmd
  with_reducible repeat' first
    | assumption
    | intro _
    | apply touches_State_storeReg
    | apply touches_svcWriteEntry
    | apply touches_svcReadEntry
    | apply touches_ite
    | (apply has_Reg_MAC_SVC_CMD; assumption)

theorem touches_sendSkip {ps : List Part} {s₀ : State} (p : Nat) (s : State) (hsrv : Part.srv ∈ ps) (rptp : Part.regs .ptp ∈ ps) (h : Touches ps s₀ s) :
    Touches ps s₀ (sendSkip p s) := by
  unfold sendSkip
  with_reducible repeat' first
    | assumption
    | intro _
    | apply touches_State_raise
    | apply touches_ptpStat
    | apply touches_ite
    | exact has_Evt_ptp _

theorem touches_atInstant {ps : List Part} {s₀ : State} (p : Nat) (due : Nat) (skip : State → State) (send : State → State) (s : State) (htick : Part.tick ∈ ps) (hlanes : Part.lanes ∈ ps) (hsrv : Part.srv ∈ ps) (hrings : Part.rings ∈ ps) (rptp : Part.regs .ptp ∈ ps) (rring : Part.regs .ring ∈ ps) (g2 : ∀ s, Touches ps s₀ s → Touches ps s₀ (skip s)) (g3 : ∀ s, Touches ps s₀ s → Touches ps s₀ (send s)) (h : Touches ps s₀ s) :
    Touches ps s₀ (atInstant p due skip send s) := by
  unfold atInstant
  with_reducible repeat' first
    | assumption
    | intro _
    | apply g2
    | apply g3
    | apply touches_State_waitTs0
    | apply touches_ptpWithheld
    | apply touches_sendSkip
    | apply touches_settle
    | apply touches_ite

theorem touches_sendMulticast {ps : List Part} {s₀ : State} (j : Nat) (ann : Bool) (s : State) (htick : Part.tick ∈ ps) (hlanes : Part.lanes ∈ ps) (hsrv : Part.srv ∈ ps) (hrings : Part.rings ∈ ps) (rptp : Part.regs .ptp ∈ ps) (rring : Part.regs .ring ∈ ps) (h : Touches ps s₀ s) :
    Touches ps s₀ (sendMulticast j ann s) := by
  unfold sendMulticast
  with_reducible repeat' first
    | assumption
    | intro _
    | apply touches_atInstant
    | apply touches_State_modInst
    | apply touches_sendAnnounce
    | apply touches_sendSync
    | apply touches_ite

theorem touches_sendGranted {ps : List Part} {s₀ : State} (g : Nat) (s : State) (htick : Part.tick ∈ ps) (hlanes : Part.lanes ∈ ps) (hsrv : Part.srv ∈ ps) (hrings : Part.rings ∈ ps) (rptp : Part.regs .ptp ∈ ps) (rring : Part.regs .ring ∈ ps) (h : Touches ps s₀ s) :
    Touches ps s₀ (sendGranted g s) := by
  unfold sendGranted
  with_reducible repeat' first
    | assumption
    | intro _
    | apply touches_atInstant
    | apply touches_State_setGrant
    | apply touches_sendSync
    | apply touches_sendAnnounce
    | apply touches_ite

theorem touches_ptpSend {ps : List Part} {s₀ : State} (a0 : PtpDue) (s : State) (htick : Part.tick ∈ ps) (hlanes : Part.lanes ∈ ps) (hsrv : Part.srv ∈ ps) (hrings : Part.rings ∈ ps) (rptp : Part.regs .ptp ∈ ps) (rring : Part.regs .ring ∈ ps) (h : Touches ps s₀ s) :
    Touches ps s₀ (ptpSend a0 s) := by
  unfold ptpSend
  with_reducible repeat' first
    | assumption
    | intro _
    | apply touches_sendMulticast
    | apply touches_sendGranted
    | apply touches_ite
    | dsimp only
    | split

theorem touches_skipMany {ps : List Part} {s₀ : State} (p : Nat) (n : Nat) (s : State) (hsrv : Part.srv ∈ ps) (rptp : Part.regs .ptp ∈ ps) (h : Touches ps s₀ s) :
    Touches ps s₀ (skipMany p n s) := by
  unfold skipMany
  with_reducible repeat' first
    | assumption
    | intro _
    | apply touches_State_raise
    | apply touches_bumpStat
    | apply touches_ite
    | exact has_Evt_ptp _

theorem touches_ptpStepSkips {ps : List Part} {s₀ : State} (old : Nat) (s : State) (hsrv : Part.srv ∈ ps) (rptp : Part.regs .ptp ∈ ps) (h : Touches ps s₀ s) :
    Touches ps s₀ (ptpStepSkips old s) := by
  unfold ptpStepSkips
  with_reducible repeat' first
    | assumption
    | intro _
    | apply touches_skipMany
    | apply touches_ite
    | apply touches_foldl

theorem touches_delayResp {ps : List Part} {s₀ : State} (j : Nat) (m : PtpRx) (log : Int) (s : State) (hsrv : Part.srv ∈ ps) (hrings : Part.rings ∈ ps) (rring : Part.regs .ring ∈ ps) (h : Touches ps s₀ s) :
    Touches ps s₀ (delayResp j m log s) := by
  unfold delayResp
  with_reducible repeat' first
    | assumption
    | intro _
    | apply touches_ptpQueue

theorem touches_delayReq {ps : List Part} {s₀ : State} (j : Nat) (m : PtpRx) (s : State) (hsrv : Part.srv ∈ ps) (hrings : Part.rings ∈ ps) (rptp : Part.regs .ptp ∈ ps) (rring : Part.regs .ring ∈ ps) (h : Touches ps s₀ s) :
    Touches ps s₀ (delayReq j m s) := by
  unfold delayReq
  with_reducible repeat' first
    | assumption
    | intro _
    | apply touches_ptpWithheld
    | apply touches_delayResp
    | apply touches_State_setGrant
    | apply touches_ptpStat
    | apply touches_State_raise
    | apply touches_ite
    | exact has_Evt_ptp _
    | dsimp only
    | split
    | refine touches_of_some (by assumption) ?_ ?_

theorem touches_pdelayReq {ps : List Part} {s₀ : State} (j : Nat) (m : PtpRx) (s : State) (hsrv : Part.srv ∈ ps) (hrings : Part.rings ∈ ps) (rring : Part.regs .ring ∈ ps) (h : Touches ps s₀ s) :
    Touches ps s₀ (pdelayReq j m s) := by
  unfold pdelayReq
  with_reducible repeat' first
    | assumption
    | intro _
    | apply touches_ptpWithheld
    | apply touches_ptpQueue
    | apply touches_ite
    | dsimp only
    | split
    | refine touches_of_some (by assumption) ?_ ?_

theorem touches_requestTlv {ps : List Part} {s₀ : State} (j : Nat) (m : PtpRx) (b : List Nat) (s : State) (hsrv : Part.srv ∈ ps) (rptp : Part.regs .ptp ∈ ps) (h : Touches ps s₀ s) :
    Touches ps s₀ (requestTlv j m b s).2.2 := by
  unfold requestTlv
  with_reducible repeat' first
    | assumption
    | intro _
    | apply touches_ptpStat
    | apply touches_State_setGrant
    | apply touches_State_raise
    | apply touches_ite
    | apply touches_foldl_fst
    | exact has_Evt_ptp _
    | dsimp only
    | split

theorem touches_cancelTlv {ps : List Part} {s₀ : State} (j : Nat) (m : PtpRx) (b : List Nat) (s : State) (hsrv : Part.srv ∈ ps) (h : Touches ps s₀ s) :
    Touches ps s₀ (cancelTlv j m b s).2 := by
  unfold cancelTlv
  with_reducible repeat' first
    | assumption
    | intro _
    | apply touches_State_setGrant
    | apply touches_State_modInst
    | apply touches_ptpStat
    | apply touches_ite
    | apply touches_foldl_fst
    | dsimp only
    | split

theorem touches_grantTlv {ps : List Part} {s₀ : State} (j : Nat) (m : PtpRx) (b : List Nat) (s : State) (hsrv : Part.srv ∈ ps) (h : Touches ps s₀ s) :
    Touches ps s₀ (grantTlv j m b s) := by
  unfold grantTlv
  with_reducible repeat' first
    | assumption
    | intro _
    | apply touches_State_modInst
    | apply touches_ite

theorem touches_negotiate {ps : List Part} {s₀ : State} (j : Nat) (m : PtpRx) (a2 : List (Nat × List Nat)) (a3 : Nat) (a4 : List Nat × List Nat) (s : State) (hsrv : Part.srv ∈ ps) (rptp : Part.regs .ptp ∈ ps) (h : Touches ps s₀ s) :
    Touches ps s₀ (negotiate j m a2 a3 a4 s).2 := by
  induction a2 generalizing a3 a4 s with
  | nil =>
    unfold negotiate
    with_reducible repeat' first
      | assumption
  | cons _ _ ih =>
    unfold negotiate
    with_reducible repeat' first
      | assumption
      | intro _
      | apply ih
      | apply touches_ptpStat
      | apply touches_requestTlv
      | apply touches_cancelTlv
      | apply touches_grantTlv
      | apply touches_ite
      | apply touches_foldl_fst
      | dsimp only
      | split

theorem touches_signalRx {ps : List Part} {s₀ : State} (j : Nat) (m : PtpRx) (s : State) (hsrv : Part.srv ∈ ps) (hrings : Part.rings ∈ ps) (rptp : Part.regs .ptp ∈ ps) (rring : Part.regs .ring ∈ ps) (h : Touches ps s₀ s) :
    Touches ps s₀ (signalRx j m s) := by
  unfold signalRx
  with_reducible repeat' first
    | assumption
    | intro _
    | apply touches_negotiate
    | apply touches_sendSignal
    | apply touches_ite

theorem touches_announceRx {ps : List Part} {s₀ : State} (j : Nat) (m : PtpRx) (s : State) (hens : Part.ens ∈ ps) (hlog : Part.log ∈ ps) (hsrv : Part.srv ∈ ps) (rens : Part.regs .ens ∈ ps) (rwch : Part.regs .wch ∈ ps) (rptp : Part.regs .ptp ∈ ps) (h : Touches ps s₀ s) :
    Touches ps s₀ (announceRx j m s) := by
  unfold announceRx
  with_reducible repeat' first
    | assumption
    | intro _
    | apply touches_reselect
    | apply touches_ite
    | dsimp only
    | split
    | apply touches_set_srv

theorem touches_syncPair {ps : List Part} {s₀ : State} (j : Nat) (t2 : Stamp) (diff : Int) (s : State) (hens : Part.ens ∈ ps) (hsrv : Part.srv ∈ ps) (h : Touches ps s₀ s) :
    Touches ps s₀ (syncPair j t2 diff s) := by
  unfold syncPair
  with_reducible repeat' first
    | assumption
    | intro _
    | apply touches_State_modInst
    | apply touches_ptpStat
    | apply touches_deliver
    | dsimp only
    | split

theorem touches_missFollowUp {ps : List Part} {s₀ : State} (j : Nat) (s : State) (hsrv : Part.srv ∈ ps) (h : Touches ps s₀ s) :
    Touches ps s₀ (missFollowUp j s) := by
  unfold missFollowUp
  with_reducible repeat' first
    | assumption
    | intro _
    | apply touches_ptpStat
    | apply touches_State_modInst
    | apply touches_ite

theorem touches_delayRespRx {ps : List Part} {s₀ : State} (j : Nat) (m : PtpRx) (s : State) (hsrv : Part.srv ∈ ps) (h : Touches ps s₀ s) :
    Touches ps s₀ (delayRespRx j m s) := by
  unfold delayRespRx
  with_reducible repeat' first
    | assumption
    | intro _
    | apply touches_State_modInst
    | apply touches_ite
    | dsimp only
    | split

theorem touches_measureRx {ps : List Part} {s₀ : State} (j : Nat) (m : PtpRx) (s : State) (hens : Part.ens ∈ ps) (hsrv : Part.srv ∈ ps) (h : Touches ps s₀ s) :
    Touches ps s₀ (measureRx j m s) := by
  unfold measureRx
  with_reducible repeat' first
    | assumption
    | intro _
    | apply touches_missFollowUp
    | apply touches_State_modInst
    | apply touches_syncPair
    | apply touches_delayRespRx
    | apply touches_ite
    | dsimp only
    | split

theorem touches_ptpHandle {ps : List Part} {s₀ : State} (m : PtpRx) (s : State) (hens : Part.ens ∈ ps) (hlog : Part.log ∈ ps) (hsrv : Part.srv ∈ ps) (hrings : Part.rings ∈ ps) (rens : Part.regs .ens ∈ ps) (rwch : Part.regs .wch ∈ ps) (rptp : Part.regs .ptp ∈ ps) (rring : Part.regs .ring ∈ ps) (h : Touches ps s₀ s) :
    Touches ps s₀ (ptpHandle m s) := by
  unfold ptpHandle
  with_reducible repeat' first
    | assumption
    | intro _
    | apply touches_hostward
    | apply touches_ptpStat
    | apply touches_signalRx
    | apply touches_delayReq
    | apply touches_pdelayReq
    | apply touches_announceRx
    | apply touches_measureRx
    | apply touches_ite
    | apply touches_foldl
    | dsimp only
    | split

theorem touches_ptpRx {ps : List Part} {s₀ : State} (a : Arrived) (l2 : Bool) (s : State) (hens : Part.ens ∈ ps) (hlog : Part.log ∈ ps) (hsrv : Part.srv ∈ ps) (hrings : Part.rings ∈ ps) (rens : Part.regs .ens ∈ ps) (rwch : Part.regs .wch ∈ ps) (rptp : Part.regs .ptp ∈ ps) (rring : Part.regs .ring ∈ ps) (h : Touches ps s₀ s) :
    Touches ps s₀ (ptpRx a l2 s) := by
  unfold ptpRx
  with_reducible repeat' first
    | assumption
    | intro _
    | apply touches_hostward
    | apply touches_ptpHandle
    | apply touches_ite

theorem touches_State_waitDie {ps : List Part} {s₀ : State} (s : State) (d : Nat) (n : Nat) (htick : Part.tick ∈ ps) (hlanes : Part.lanes ∈ ps) (h : Touches ps s₀ s) :
    Touches ps s₀ (State.waitDie s d n) := by
  unfold State.waitDie
  with_reducible repeat' first
    | assumption
    | intro _
    | apply touches_State_advance

theorem touches_announceTimeout {ps : List Part} {s₀ : State} (j : Nat) (id : Nat) (s : State) (htick : Part.tick ∈ ps) (hlanes : Part.lanes ∈ ps) (hens : Part.ens ∈ ps) (hlog : Part.log ∈ ps) (hsrv : Part.srv ∈ ps) (rens : Part.regs .ens ∈ ps) (rwch : Part.regs .wch ∈ ps) (rptp : Part.regs .ptp ∈ ps) (h : Touches ps s₀ s) :
    Touches ps s₀ (announceTimeout j id s) := by
  unfold announceTimeout
  with_reducible repeat' first
    | assumption
    | intro _
    | apply touches_State_waitClk
    | apply touches_dropMasters
    | apply touches_ptpStat
    | apply touches_ite
    | dsimp only
    | split

theorem touches_followUpMiss {ps : List Part} {s₀ : State} (j : Nat) (s : State) (htick : Part.tick ∈ ps) (hlanes : Part.lanes ∈ ps) (hsrv : Part.srv ∈ ps) (h : Touches ps s₀ s) :
    Touches ps s₀ (followUpMiss j s) := by
  unfold followUpMiss
  with_reducible repeat' first
    | assumption
    | intro _
    | apply touches_missFollowUp
    | apply touches_State_waitClk
    | apply touches_ite
    | dsimp only
    | split

theorem touches_grantExpire {ps : List Part} {s₀ : State} (g : Nat) (s : State) (htick : Part.tick ∈ ps) (hlanes : Part.lanes ∈ ps) (hsrv : Part.srv ∈ ps) (h : Touches ps s₀ s) :
    Touches ps s₀ (grantExpire g s) := by
  unfold grantExpire
  with_reducible repeat' first
    | assumption
    | intro _
    | apply touches_ptpStat
    | apply touches_State_setGrant
    | apply touches_State_waitDie
    | apply touches_ite

theorem touches_upstreamDelayReq {ps : List Part} {s₀ : State} (j : Nat) (wait : Nat) (s : State) (htick : Part.tick ∈ ps) (hlanes : Part.lanes ∈ ps) (hsrv : Part.srv ∈ ps) (hrings : Part.rings ∈ ps) (rring : Part.regs .ring ∈ ps) (h : Touches ps s₀ s) :
    Touches ps s₀ (upstreamDelayReq j wait s) := by
  unfold upstreamDelayReq
  with_reducible repeat' first
    | assumption
    | intro _
    | apply touches_settle
    | apply touches_State_waitClk
    | apply touches_State_modInst
    | apply touches_ptpQueue
    | apply touches_ite
    | dsimp only
    | split

theorem touches_unicastRenew {ps : List Part} {s₀ : State} (j : Nat) (msg : Nat) (s : State) (htick : Part.tick ∈ ps) (hlanes : Part.lanes ∈ ps) (hsrv : Part.srv ∈ ps) (hrings : Part.rings ∈ ps) (rring : Part.regs .ring ∈ ps) (h : Touches ps s₀ s) :
    Touches ps s₀ (unicastRenew j msg s) := by
  unfold unicastRenew
  with_reducible repeat' first
    | assumption
    | intro _
    | apply touches_settle
    | apply touches_State_waitClk
    | apply touches_State_modInst
    | apply touches_sendSignal
    | apply touches_ite

theorem touches_loseFlight {ps : List Part} {s₀ : State} (p : Nat) (v : Option Flight) (s : State) (hsrv : Part.srv ∈ ps) (hrings : Part.rings ∈ ps) (rring : Part.regs .ring ∈ ps) (h : Touches ps s₀ s) :
    Touches ps s₀ (loseFlight p v s) := by
  unfold loseFlight
  with_reducible repeat' first
    | assumption
    | intro _
    | apply touches_mac
    | apply touches_finishDesc
    | apply touches_ite
    | dsimp only
    | split

theorem touches_dropNts {ps : List Part} {s₀ : State} (p : Nat) (s : State) (hsrv : Part.srv ∈ ps) (rnts : Part.regs .nts ∈ ps) (h : Touches ps s₀ s) :
    Touches ps s₀ (dropNts p s) := by
  unfold dropNts
  with_reducible repeat' first
    | assumption
    | intro _
    | apply touches_State_modPort
    | apply touches_setTxq
    | apply touches_State_raise
    | apply touches_ntsStat
    | apply touches_ite
    | exact has_Evt_nts _

theorem touches_loseOpen {ps : List Part} {s₀ : State} (p : Nat) (s : State) (hsrv : Part.srv ∈ ps) (h : Touches ps s₀ s) :
    Touches ps s₀ (loseOpen p s) := by
  unfold loseOpen
  with_reducible repeat' first
    | assumption
    | intro _
    | apply touches_State_modPort
    | apply touches_mac
    | apply touches_ite

theorem touches_leaveUp {ps : List Part} {s₀ : State} (p : Nat) (s : State) (hsrv : Part.srv ∈ ps) (hrings : Part.rings ∈ ps) (rmac : Part.regs .mac ∈ ps) (rnts : Part.regs .nts ∈ ps) (rring : Part.regs .ring ∈ ps) (h : Touches ps s₀ s) :
    Touches ps s₀ (leaveUp p s) := by
  unfold leaveUp
  with_reducible repeat' first
    | assumption
    | intro _
    | apply touches_settle
    | apply touches_loseFlight
    | apply touches_State_modPort
    | apply touches_mac
    | apply touches_loseOpen
    | apply touches_dropNts
    | apply touches_State_wr
    | apply touches_State_lo
    | apply touches_State_raise
    | exact has_R_MAC_STAT_VERIFY _
    | exact has_R_MAC_STAT_PRE_ACTIVE _
    | exact has_Evt_mac _

theorem touches_setLink {ps : List Part} {s₀ : State} (p : Nat) (st : Nat) (s : State) (hsrv : Part.srv ∈ ps) (hrings : Part.rings ∈ ps) (rmac : Part.regs .mac ∈ ps) (rnts : Part.regs .nts ∈ ps) (rring : Part.regs .ring ∈ ps) (h : Touches ps s₀ s) :
    Touches ps s₀ (setLink p st s) := by
  unfold setLink
  with_reducible repeat' first
    | assumption
    | intro _
    | apply touches_leaveUp
    | apply touches_State_lo
    | apply touches_State_wr
    | apply touches_ite
    | exact has_R_MAC_STAT_AN_DONE _
    | exact has_R_MAC_STAT_FEC_LOCK _
    | exact has_R_MAC_STAT_FEC_USED _
    | exact has_R_MAC_STAT_STATE _

theorem touches_enterUp {ps : List Part} {s₀ : State} (p : Nat) (s : State) (hsrv : Part.srv ∈ ps) (rmac : Part.regs .mac ∈ ps) (h : Touches ps s₀ s) :
    Touches ps s₀ (enterUp p s) := by
  unfold enterUp
  with_reducible repeat' first
    | assumption
    | intro _
    | apply touches_State_raise
    | apply touches_mac
    | apply touches_State_wr
    | apply touches_State_modPort
    | apply touches_State_hi
    | apply touches_ite
    | exact has_Evt_mac _
    | exact has_R_MAC_STAT_PRE_ACTIVE _
    | exact has_R_MAC_STAT_STATE _
    | exact has_R_MAC_STAT_VERIFY _

theorem touches_judgeCfg {ps : List Part} {s₀ : State} (p : Nat) (bad : Bool) (s : State) (hsrv : Part.srv ∈ ps) (hrings : Part.rings ∈ ps) (rmac : Part.regs .mac ∈ ps) (rnts : Part.regs .nts ∈ ps) (rring : Part.regs .ring ∈ ps) (h : Touches ps s₀ s) :
    Touches ps s₀ (judgeCfg p bad s) := by
  unfold judgeCfg
  with_reducible repeat' first
    | assumption
    | intro _
    | apply touches_setLink
    | apply touches_State_raise
    | apply touches_State_hi
    | apply touches_State_lo
    | apply touches_ite
    | exact has_Evt_mac _
    | exact has_R_MAC_STAT_CFG_ERR _

theorem touches_writeMacCfg {ps : List Part} {s₀ : State} (p : Nat) (w : Nat) (s : State) (hsrv : Part.srv ∈ ps) (hrings : Part.rings ∈ ps) (rmac : Part.regs .mac ∈ ps) (rnts : Part.regs .nts ∈ ps) (rring : Part.regs .ring ∈ ps) (h : Touches ps s₀ s) :
    Touches ps s₀ (writeMacCfg p w s) := by
  unfold writeMacCfg
  with_reducible repeat' first
    | assumption
    | intro _
    | apply touches_State_storeReg
    | apply touches_setLink
    | apply touches_setLatency
    | apply touches_judgeCfg
    | apply touches_ite
    | (apply has_Reg_MAC_CFG; assumption)

theorem touches_writeMacAddrLo {ps : List Part} {s₀ : State} (p : Nat) (w : Nat) (s : State) (hsrv : Part.srv ∈ ps) (h : Touches ps s₀ s) :
    Touches ps s₀ (writeMacAddrLo p w s) := by
  unfold writeMacAddrLo
  with_reducible repeat' first
    | assumption
    | intro _
    | apply touches_State_modPort

theorem touches_writeMacAddrHi {ps : List Part} {s₀ : State} (p : Nat) (w : Nat) (s : State) (hsrv : Part.srv ∈ ps) (hrings : Part.rings ∈ ps) (rmac : Part.regs .mac ∈ ps) (rnts : Part.regs .nts ∈ ps) (rring : Part.regs .ring ∈ ps) (h : Touches ps s₀ s) :
    Touches ps s₀ (writeMacAddrHi p w s) := by
  unfold writeMacAddrHi
  with_reducible repeat' first
    | assumption
    | intro _
    | apply touches_State_wr
    | apply touches_State_modPort
    | apply touches_judgeCfg
    | apply touches_ite
    | exact has_R_MAC_ADDR_HI_A _
    | exact has_R_MAC_ADDR_LO_A _
    | dsimp only
    | split

theorem touches_portSignal {ps : List Part} {s₀ : State} (p : Nat) (s : State) (hsrv : Part.srv ∈ ps) (hrings : Part.rings ∈ ps) (rmac : Part.regs .mac ∈ ps) (rnts : Part.regs .nts ∈ ps) (rring : Part.regs .ring ∈ ps) (h : Touches ps s₀ s) :
    Touches ps s₀ (portSignal p s) := by
  unfold portSignal
  with_reducible repeat' first
    | assumption
    | intro _
    | apply touches_setLink
    | apply touches_ite

theorem touches_portTrained {ps : List Part} {s₀ : State} (p : Nat) (fec : Nat) (s : State) (hsrv : Part.srv ∈ ps) (rmac : Part.regs .mac ∈ ps) (h : Touches ps s₀ s) :
    Touches ps s₀ (portTrained p fec s) := by
  unfold portTrained
  with_reducible repeat' first
    | assumption
    | intro _
    | apply touches_State_lo
    | apply touches_State_wr
    | apply touches_setLatency
    | apply touches_State_modPort
    | apply touches_ite
    | exact has_R_MAC_STAT_AN_DONE _
    | exact has_R_MAC_STAT_CAL_TRIES _
    | exact has_R_MAC_STAT_CAL_WEAK _
    | exact has_R_MAC_STAT_FEC_LOCK _
    | exact has_R_MAC_STAT_FEC_USED _
    | exact has_R_MAC_STAT_HI_BER _
    | exact has_R_MAC_STAT_STATE _

theorem touches_portCalibrated {ps : List Part} {s₀ : State} (p : Nat) (rmsRx : Nat) (rmsTx : Nat) (phiRx : Nat) (phiTx : Nat) (s : State) (htick : Part.tick ∈ ps) (hlanes : Part.lanes ∈ ps) (hsrv : Part.srv ∈ ps) (rmac : Part.regs .mac ∈ ps) (h : Touches ps s₀ s) :
    Touches ps s₀ (portCalibrated p rmsRx rmsTx phiRx phiTx s) := by
  unfold portCalibrated
  with_reducible repeat' first
    | assumption
    | intro _
    | apply touches_State_waitClk
    | apply touches_enterUp
    | apply touches_State_wr
    | apply touches_mac
    | apply touches_State_raise
    | apply touches_State_hi
    | apply touches_State_modPort
    | apply touches_ite
    | exact has_Evt_mac _
    | exact has_R_MAC_STAT_CAL_TRIES _
    | exact has_R_MAC_STAT_CAL_WEAK _
    | exact has_R_MAC_TS_PHASE_PHI_RX _
    | exact has_R_MAC_TS_PHASE_PHI_TX _

theorem touches_portLost {ps : List Part} {s₀ : State} (p : Nat) (cause : LossCause) (inFrame : Bool) (s : State) (hsrv : Part.srv ∈ ps) (hrings : Part.rings ∈ ps) (rmac : Part.regs .mac ∈ ps) (rnts : Part.regs .nts ∈ ps) (rring : Part.regs .ring ∈ ps) (h : Touches ps s₀ s) :
    Touches ps s₀ (portLost p cause inFrame s) := by
  unfold portLost
  with_reducible repeat' first
    | assumption
    | intro _
    | apply touches_mac
    | apply touches_State_raise
    | apply touches_State_hi
    | apply touches_setLink
    | apply touches_ite
    | exact has_Evt_mac _
    | exact has_R_MAC_STAT_HI_BER _
    | dsimp only
    | split

theorem touches_rsChange {ps : List Part} {s₀ : State} (p : Nat) (old : Nat) (s : State) (h : Touches ps s₀ s) :
    Touches ps s₀ (rsChange p old s) := by
  unfold rsChange
  with_reducible repeat' first
    | assumption
    | intro _
    | apply touches_State_emit
    | apply touches_ite

theorem touches_localFault {ps : List Part} {s₀ : State} (p : Nat) (rem : Bool) (s : State) (hsrv : Part.srv ∈ ps) (hrings : Part.rings ∈ ps) (rmac : Part.regs .mac ∈ ps) (rnts : Part.regs .nts ∈ ps) (rring : Part.regs .ring ∈ ps) (h : Touches ps s₀ s) :
    Touches ps s₀ (localFault p rem s) := by
  unfold localFault
  with_reducible repeat' first
    | assumption
    | intro _
    | apply touches_rsChange
    | apply touches_State_hi
    | apply touches_settle
    | apply touches_State_raise
    | apply touches_mac
    | apply touches_flushQueues
    | apply touches_ite
    | exact has_Evt_mac _
    | exact has_R_MAC_STAT_LOC_FAULT _
    | exact has_R_MAC_STAT_REM_FAULT _
    | dsimp only
    | split

theorem touches_faultEnd {ps : List Part} {s₀ : State} (p : Nat) (rem : Bool) (s : State) (hsrv : Part.srv ∈ ps) (hrings : Part.rings ∈ ps) (rmac : Part.regs .mac ∈ ps) (rring : Part.regs .ring ∈ ps) (h : Touches ps s₀ s) :
    Touches ps s₀ (faultEnd p rem s) := by
  unfold faultEnd
  with_reducible repeat' first
    | assumption
    | intro _
    | apply touches_rsChange
    | apply touches_State_lo
    | apply touches_settle
    | apply touches_ite
    | exact has_R_MAC_STAT_LOC_FAULT _
    | exact has_R_MAC_STAT_REM_FAULT _
    | dsimp only
    | split

theorem touches_queueFlush {ps : List Part} {s₀ : State} (p : Nat) (s : State) (htick : Part.tick ∈ ps) (hlanes : Part.lanes ∈ ps) (hsrv : Part.srv ∈ ps) (hrings : Part.rings ∈ ps) (rnts : Part.regs .nts ∈ ps) (rring : Part.regs .ring ∈ ps) (h : Touches ps s₀ s) :
    Touches ps s₀ (queueFlush p s) := by
  unfold queueFlush
  with_reducible repeat' first
    | assumption
    | intro _
    | apply touches_flushQueues
    | apply touches_settle
    | apply touches_State_waitClk
    | apply touches_ite

theorem touches_notePause {ps : List Part} {s₀ : State} (p : Nat) (end_ : Nat) (classes : List (Nat × Nat)) (each : List Nat) (s : State) (hsrv : Part.srv ∈ ps) (h : Touches ps s₀ s) :
    Touches ps s₀ (notePause p end_ classes each s) := by
  unfold notePause
  with_reducible repeat' first
    | assumption
    | intro _
    | apply touches_State_modPort

theorem touches_macControlRx {ps : List Part} {s₀ : State} (p : Nat) (end_ : Nat) (e : Eth) (s : State) (hsrv : Part.srv ∈ ps) (h : Touches ps s₀ s) :
    Touches ps s₀ (macControlRx p end_ e s) := by
  unfold macControlRx
  with_reducible repeat' first
    | assumption
    | intro _
    | apply touches_mac
    | apply touches_notePause
    | apply touches_ite

theorem touches_ndToHost {ps : List Part} {s₀ : State} (a : Arrived) (always : Bool) (s : State) (hsrv : Part.srv ∈ ps) (hrings : Part.rings ∈ ps) (rring : Part.regs .ring ∈ ps) (h : Touches ps s₀ s) :
    Touches ps s₀ (ndToHost a always s) := by
  unfold ndToHost
  with_reducible repeat' first
    | assumption
    | intro _
    | apply touches_mac
    | apply touches_hostward
    | apply touches_ite

theorem touches_addrConflict {ps : List Part} {s₀ : State} (p : Nat) (s : State) (rmac : Part.regs .mac ∈ ps) (h : Touches ps s₀ s) :
    Touches ps s₀ (addrConflict p s) := by
  unfold addrConflict
  with_reducible repeat' first
    | assumption
    | intro _
    | apply touches_State_raise
    | apply touches_ite
    | exact has_Evt_mac _

theorem touches_arpRx {ps : List Part} {s₀ : State} (a : Arrived) (s : State) (hsrv : Part.srv ∈ ps) (hrings : Part.rings ∈ ps) (rmac : Part.regs .mac ∈ ps) (rring : Part.regs .ring ∈ ps) (h : Touches ps s₀ s) :
    Touches ps s₀ (arpRx a s) := by
  unfold arpRx
  with_reducible repeat' first
    | assumption
    | intro _
    | apply touches_enqueue
    | apply touches_mac
    | apply touches_ndToHost
    | apply touches_addrConflict
    | apply touches_ite

theorem touches_ndRx {ps : List Part} {s₀ : State} (a : Arrived) (s : State) (hsrv : Part.srv ∈ ps) (hrings : Part.rings ∈ ps) (rmac : Part.regs .mac ∈ ps) (rring : Part.regs .ring ∈ ps) (h : Touches ps s₀ s) :
    Touches ps s₀ (ndRx a s) := by
  unfold ndRx
  with_reducible repeat' first
    | assumption
    | intro _
    | apply touches_addrConflict
    | apply touches_enqueue
    | apply touches_mac
    | apply touches_ndToHost
    | apply touches_ite

theorem touches_ntpRx {ps : List Part} {s₀ : State} (a : Arrived) (s : State) (hsrv : Part.srv ∈ ps) (hrings : Part.rings ∈ ps) (rntp : Part.regs .ntp ∈ ps) (rnts : Part.regs .nts ∈ ps) (rring : Part.regs .ring ∈ ps) (h : Touches ps s₀ s) :
    Touches ps s₀ (ntpRx a s) := by
  unfold ntpRx
  with_reducible repeat' first
    | assumption
    | intro _
    | apply touches_ntpStat
    | apply touches_ntpByAction
    | apply touches_ntpRequest
    | apply touches_ntsRequest
    | apply touches_ite
    | dsimp only
    | split

theorem touches_classify {ps : List Part} {s₀ : State} (a : Arrived) (s : State) (hens : Part.ens ∈ ps) (hlog : Part.log ∈ ps) (hsrv : Part.srv ∈ ps) (hrings : Part.rings ∈ ps) (rens : Part.regs .ens ∈ ps) (rwch : Part.regs .wch ∈ ps) (rmac : Part.regs .mac ∈ ps) (rntp : Part.regs .ntp ∈ ps) (rnts : Part.regs .nts ∈ ps) (rptp : Part.regs .ptp ∈ ps) (rring : Part.regs .ring ∈ ps) (h : Touches ps s₀ s) :
    Touches ps s₀ (classify a s) := by
  unfold classify
  with_reducible repeat' first
    | assumption
    | intro _
    | apply touches_arpRx
    | apply touches_ptpRx
    | apply touches_hostward
    | apply touches_ndRx
    | apply touches_ntpRx
    | apply touches_ite
    | dsimp only
    | split

theorem touches_countRxOk {ps : List Part} {s₀ : State} (p : Nat) (n : Nat) (e : Eth) (s : State) (hsrv : Part.srv ∈ ps) (h : Touches ps s₀ s) :
    Touches ps s₀ (countRxOk p n e s) := by
  unfold countRxOk
  with_reducible repeat' first
    | assumption
    | intro _
    | apply touches_mac
    | apply touches_ite
    | dsimp only
    | split

theorem touches_processFrame {ps : List Part} {s₀ : State} (p : Nat) (rx : Nat) (end_ : Nat) (codeErr : Bool) (bytes : List Nat) (item : RxItem) (s : State) (hens : Part.ens ∈ ps) (hlog : Part.log ∈ ps) (hsrv : Part.srv ∈ ps) (hrings : Part.rings ∈ ps) (rens : Part.regs .ens ∈ ps) (rwch : Part.regs .wch ∈ ps) (rmac : Part.regs .mac ∈ ps) (rntp : Part.regs .ntp ∈ ps) (rnts : Part.regs .nts ∈ ps) (rptp : Part.regs .ptp ∈ ps) (rring : Part.regs .ring ∈ ps) (h : Touches ps s₀ s) :
    Touches ps s₀ (processFrame p rx end_ codeErr bytes item s) := by
  unfold processFrame
  with_reducible repeat' first
    | assumption
    | intro _
    | apply touches_mac
    | apply touches_countRxOk
    | apply touches_macControlRx
    | apply touches_classify
    | apply touches_hostward
    | apply touches_ite
    | dsimp only
    | split

theorem touches_frameIn {ps : List Part} {s₀ : State} (p : Nat) (end_ : Nat) (fecOut : Bool) (o : OpenFrame) (s : State) (hens : Part.ens ∈ ps) (hlog : Part.log ∈ ps) (hsrv : Part.srv ∈ ps) (hrings : Part.rings ∈ ps) (rens : Part.regs .ens ∈ ps) (rwch : Part.regs .wch ∈ ps) (rmac : Part.regs .mac ∈ ps) (rntp : Part.regs .ntp ∈ ps) (rnts : Part.regs .nts ∈ ps) (rptp : Part.regs .ptp ∈ ps) (rring : Part.regs .ring ∈ ps) (h : Touches ps s₀ s) :
    Touches ps s₀ (frameIn p end_ fecOut o s) := by
  unfold frameIn
  with_reducible repeat' first
    | assumption
    | intro _
    | apply touches_State_modPort
    | apply touches_processFrame
    | apply touches_ite

theorem touches_asmError {ps : List Part} {s₀ : State} (p : Nat) (s : State) (hsrv : Part.srv ∈ ps) (h : Touches ps s₀ s) :
    Touches ps s₀ (asmError p s) := by
  unfold asmError
  with_reducible repeat' first
    | assumption
    | intro _
    | apply touches_mac
    | apply touches_State_modPort

theorem touches_startRx {ps : List Part} {s₀ : State} (p : Nat) (count : Nat) (end_ : Nat) (f : RxFrame) (s : State) (hens : Part.ens ∈ ps) (hlog : Part.log ∈ ps) (hsrv : Part.srv ∈ ps) (hrings : Part.rings ∈ ps) (rens : Part.regs .ens ∈ ps) (rwch : Part.regs .wch ∈ ps) (rmac : Part.regs .mac ∈ ps) (rntp : Part.regs .ntp ∈ ps) (rnts : Part.regs .nts ∈ ps) (rptp : Part.regs .ptp ∈ ps) (rring : Part.regs .ring ∈ ps) (h : Touches ps s₀ s) :
    Touches ps s₀ (startRx p count end_ f s) := by
  unfold startRx
  with_reducible repeat' first
    | assumption
    | intro _
    | apply touches_asmError
    | apply touches_mac
    | apply touches_State_modPort
    | apply touches_frameIn
    | apply touches_ite

theorem touches_contRx {ps : List Part} {s₀ : State} (p : Nat) (count : Nat) (end_ : Nat) (f : RxFrame) (s : State) (hens : Part.ens ∈ ps) (hlog : Part.log ∈ ps) (hsrv : Part.srv ∈ ps) (hrings : Part.rings ∈ ps) (rens : Part.regs .ens ∈ ps) (rwch : Part.regs .wch ∈ ps) (rmac : Part.regs .mac ∈ ps) (rntp : Part.regs .ntp ∈ ps) (rnts : Part.regs .nts ∈ ps) (rptp : Part.regs .ptp ∈ ps) (rring : Part.regs .ring ∈ ps) (h : Touches ps s₀ s) :
    Touches ps s₀ (contRx p count end_ f s) := by
  unfold contRx
  with_reducible repeat' first
    | assumption
    | intro _
    | apply touches_mac
    | apply touches_asmError
    | apply touches_State_modPort
    | apply touches_frameIn
    | apply touches_ite
    | dsimp only
    | split

theorem touches_verifyRx {ps : List Part} {s₀ : State} (p : Nat) (f : RxFrame) (s : State) (htick : Part.tick ∈ ps) (hlanes : Part.lanes ∈ ps) (hsrv : Part.srv ∈ ps) (hrings : Part.rings ∈ ps) (rmac : Part.regs .mac ∈ ps) (rring : Part.regs .ring ∈ ps) (h : Touches ps s₀ s) :
    Touches ps s₀ (verifyRx p f s) := by
  unfold verifyRx
  with_reducible repeat' first
    | assumption
    | intro _
    | apply touches_verifyResponse
    | apply touches_sendVerify
    | apply touches_ite

theorem touches_noRoomRx {ps : List Part} {s₀ : State} (p : Nat) (s : State) (hsrv : Part.srv ∈ ps) (h : Touches ps s₀ s) :
    Touches ps s₀ (noRoomRx p s) := by
  unfold noRoomRx
  with_reducible repeat' first
    | assumption
    | intro _
    | apply touches_mac
    | apply touches_State_modPort

theorem touches_frameRx {ps : List Part} {s₀ : State} (p : Nat) (f : RxFrame) (s : State) (htick : Part.tick ∈ ps) (hlanes : Part.lanes ∈ ps) (hens : Part.ens ∈ ps) (hlog : Part.log ∈ ps) (hsrv : Part.srv ∈ ps) (hrings : Part.rings ∈ ps) (rens : Part.regs .ens ∈ ps) (rwch : Part.regs .wch ∈ ps) (rmac : Part.regs .mac ∈ ps) (rntp : Part.regs .ntp ∈ ps) (rnts : Part.regs .nts ∈ ps) (rptp : Part.regs .ptp ∈ ps) (rring : Part.regs .ring ∈ ps) (h : Touches ps s₀ s) :
    Touches ps s₀ (frameRx p f s) := by
  unfold frameRx
  with_reducible repeat' first
    | assumption
    | intro _
    | apply touches_settle
    | apply touches_State_modPort
    | apply touches_mac
    | apply touches_verifyRx
    | apply touches_startRx
    | apply touches_noRoomRx
    | apply touches_contRx
    | apply touches_frameIn
    | apply touches_ite
    | dsimp only
    | split

theorem touches_cancelAnswers {ps : List Part} {s₀ : State} (p : Nat) (rx : Nat) (s : State) (hsrv : Part.srv ∈ ps) (rpwr : Part.regs .pwr ∈ ps) (rnts : Part.regs .nts ∈ ps) (h : Touches ps s₀ s) :
    Touches ps s₀ (cancelAnswers p rx s) := by
  unfold cancelAnswers
  with_reducible repeat' first
    | assumption
    | intro _
    | apply touches_setTxq
    | apply touches_State_modPort
    | apply touches_State_modNts
    | apply touches_parkIdle
    | apply touches_dispatchNts
    | apply touches_ite
    | apply touches_foldl

theorem touches_fecVerdict {ps : List Part} {s₀ : State} (p : Nat) (v : FecVerdict) (corr : Nat) (uncorr : Nat) (sym : Nat) (s : State) (hens : Part.ens ∈ ps) (hlog : Part.log ∈ ps) (hsrv : Part.srv ∈ ps) (hrings : Part.rings ∈ ps) (rens : Part.regs .ens ∈ ps) (rpwr : Part.regs .pwr ∈ ps) (rwch : Part.regs .wch ∈ ps) (rmac : Part.regs .mac ∈ ps) (rntp : Part.regs .ntp ∈ ps) (rnts : Part.regs .nts ∈ ps) (rptp : Part.regs .ptp ∈ ps) (rring : Part.regs .ring ∈ ps) (h : Touches ps s₀ s) :
    Touches ps s₀ (fecVerdict p v corr uncorr sym s) := by
  unfold fecVerdict
  with_reducible repeat' first
    | assumption
    | intro _
    | apply touches_mac
    | apply touches_settle
    | apply touches_State_modPort
    | apply touches_processFrame
    | apply touches_toHost
    | apply touches_cancelAnswers
    | apply touches_ite
    | dsimp only
    | split

theorem touches_counterRead {ps : List Part} {s₀ : State} (b : StatBlock) (i : Nat) (s : State) (hsrv : Part.srv ∈ ps) (hrings : Part.rings ∈ ps) (rring : Part.regs .ring ∈ ps) (h : Touches ps s₀ s) :
    Touches ps s₀ (counterRead b i s) := by
  unfold counterRead
  with_reducible repeat' first
    | assumption
    | intro _
    | apply touches_State_emit
    | apply touches_refuseAccess
    | apply touches_readStatLow
    | apply touches_settleAll
    | apply touches_ite

end Sys2Proof.Machine
end

