-- ==== Sys2Proof/Laws/TouchesStack.lean ====
section
/-! SUPPORT. What the operations of stacking, the mailboxes, Watch, the filter step and the lanes touch: one lemma per operation. -/

namespace Sys2Proof.Machine

theorem touches_State_modStack {ps : List Part} {s₀ : State} (s : State) (f : Stack → Stack) (hstack : Part.stack ∈ ps) (h : Touches ps s₀ s) :
    Touches ps s₀ (State.modStack s f) := by
  unfold State.modStack
  with_reducible repeat' first
    | assumption
    | intro _
    | apply touches_ite
    | dsimp only
    | split
    | apply touches_set_stack

theorem touches_State_modMor {ps : List Part} {s₀ : State} (s : State) (l : Nat) (f : MorLink → MorLink) (hstack : Part.stack ∈ ps) (h : Touches ps s₀ s) :
    Touches ps s₀ (State.modMor s l f) := by
  unfold State.modMor
  with_reducible repeat' first
    | assumption
    | intro _
    | apply touches_State_modStack

theorem touches_bumpReg {ps : List Part} {s₀ : State} (f : Field) (s : State) {b0 : Block} (k0 : b0.has f.key = true) (rb0 : Part.regs b0 ∈ ps) (h : Touches ps s₀ s) :
    Touches ps s₀ (bumpReg f s) := by
  unfold bumpReg
  with_reducible repeat' first
    | assumption
    | intro _
    | apply k0
    | apply touches_State_wr

theorem touches_sendTime {ps : List Part} {s₀ : State} (l : Nat) (s : State) (hstack : Part.stack ∈ ps) (h : Touches ps s₀ s) :
    Touches ps s₀ (sendTime l s) := by
  unfold sendTime
  with_reducible repeat' first
    | assumption
    | intro _
    | apply touches_State_modMor
    | apply touches_State_modStack
    | apply touches_State_emit

theorem touches_sendTnd {ps : List Part} {s₀ : State} (dst : Nat) (type : Nat) (payload : List Nat) (s : State) (hstack : Part.stack ∈ ps) (h : Touches ps s₀ s) :
    Touches ps s₀ (sendTnd dst type payload s) := by
  unfold sendTnd
  with_reducible repeat' first
    | assumption
    | intro _
    | apply touches_State_modStack

theorem touches_sendReport {ps : List Part} {s₀ : State} (s : State) (hstack : Part.stack ∈ ps) (h : Touches ps s₀ s) :
    Touches ps s₀ (sendReport s) := by
  unfold sendReport
  with_reducible repeat' first
    | assumption
    | intro _
    | apply touches_sendTnd

theorem touches_setNodeUid {ps : List Part} {s₀ : State} (a : Nat) (uid : Nat) (s : State) (rmor : Part.regs .mor ∈ ps) (h : Touches ps s₀ s) :
    Touches ps s₀ (setNodeUid a uid s) := by
  unfold setNodeUid
  with_reducible repeat' first
    | assumption
    | intro _
    | apply touches_State_wr
    | apply touches_ite
    | exact has_R_TND_NODE_UID_HI_UID _
    | exact has_R_TND_NODE_UID_LO_UID _

theorem touches_spoil {ps : List Part} {s₀ : State} (s : State) (hstack : Part.stack ∈ ps) (h : Touches ps s₀ s) :
    Touches ps s₀ (spoil s) := by
  unfold spoil
  with_reducible repeat' first
    | assumption
    | intro _
    | apply touches_State_modStack

theorem touches_judgeRing {ps : List Part} {s₀ : State} (s : State) (hstack : Part.stack ∈ ps) (rmor : Part.regs .mor ∈ ps) (h : Touches ps s₀ s) :
    Touches ps s₀ (judgeRing s) := by
  unfold judgeRing
  with_reducible repeat' first
    | assumption
    | intro _
    | apply touches_State_modStack
    | apply touches_spoil
    | apply touches_State_wr
    | apply touches_State_hi
    | apply touches_State_lo
    | apply touches_State_raise
    | apply touches_ite
    | exact has_R_MOR_STAT_N
    | exact has_R_MOR_STAT_RING_OK
    | exact has_Evt_mor
    | dsimp only
    | split

theorem touches_setMor {ps : List Part} {s₀ : State} (l : Nat) (st : Nat) (s : State) (hens : Part.ens ∈ ps) (hlog : Part.log ∈ ps) (hstack : Part.stack ∈ ps) (rens : Part.regs .ens ∈ ps) (rmor : Part.regs .mor ∈ ps) (rwch : Part.regs .wch ∈ ps) (h : Touches ps s₀ s) :
    Touches ps s₀ (setMor l st s) := by
  unfold setMor
  with_reducible repeat' first
    | assumption
    | intro _
    | apply touches_State_modMor
    | apply touches_spoil
    | apply touches_withdraw
    | apply touches_sendReport
    | apply touches_State_wr
    | apply touches_State_emit
    | apply touches_State_raise
    | apply touches_ite
    | exact has_R_MOR_LINK_STAT_STATE _
    | exact has_Evt_mor

theorem touches_endTimed {ps : List Part} {s₀ : State} (l : Nat) (s : State) (hens : Part.ens ∈ ps) (hlog : Part.log ∈ ps) (hstack : Part.stack ∈ ps) (rens : Part.regs .ens ∈ ps) (rmor : Part.regs .mor ∈ ps) (rwch : Part.regs .wch ∈ ps) (h : Touches ps s₀ s) :
    Touches ps s₀ (endTimed l s) := by
  unfold endTimed
  with_reducible repeat' first
    | assumption
    | intro _
    | apply touches_setMor
    | apply touches_ite

theorem touches_morSignal {ps : List Part} {s₀ : State} (l : Nat) (s : State) (hens : Part.ens ∈ ps) (hlog : Part.log ∈ ps) (hstack : Part.stack ∈ ps) (rens : Part.regs .ens ∈ ps) (rmor : Part.regs .mor ∈ ps) (rwch : Part.regs .wch ∈ ps) (h : Touches ps s₀ s) :
    Touches ps s₀ (morSignal l s) := by
  unfold morSignal
  with_reducible repeat' first
    | assumption
    | intro _
    | apply touches_setMor
    | apply touches_ite

theorem touches_morTrained {ps : List Part} {s₀ : State} (l : Nat) (s : State) (hens : Part.ens ∈ ps) (hlog : Part.log ∈ ps) (hstack : Part.stack ∈ ps) (rens : Part.regs .ens ∈ ps) (rmor : Part.regs .mor ∈ ps) (rwch : Part.regs .wch ∈ ps) (h : Touches ps s₀ s) :
    Touches ps s₀ (morTrained l s) := by
  unfold morTrained
  with_reducible repeat' first
    | assumption
    | intro _
    | apply touches_State_modMor
    | apply touches_State_lo
    | apply touches_setMor
    | apply touches_ite
    | exact has_R_MOR_LINK_STAT_CAL_WEAK _

theorem touches_morCalibrated {ps : List Part} {s₀ : State} (l : Nat) (rmsRx : Nat) (rmsTx : Nat) (phiRx : Nat) (phiTx : Nat) (s : State) (htick : Part.tick ∈ ps) (hlanes : Part.lanes ∈ ps) (hens : Part.ens ∈ ps) (hlog : Part.log ∈ ps) (hstack : Part.stack ∈ ps) (rens : Part.regs .ens ∈ ps) (rmor : Part.regs .mor ∈ ps) (rwch : Part.regs .wch ∈ ps) (h : Touches ps s₀ s) :
    Touches ps s₀ (morCalibrated l rmsRx rmsTx phiRx phiTx s) := by
  unfold morCalibrated
  with_reducible repeat' first
    | assumption
    | intro _
    | apply touches_State_waitClk
    | apply touches_setMor
    | apply touches_State_lo
    | apply touches_State_wr
    | apply touches_State_hi
    | apply touches_State_modMor
    | apply touches_ite
    | exact has_R_MOR_LINK_PHASE_PHI_RX _
    | exact has_R_MOR_LINK_PHASE_PHI_TX _
    | exact has_R_MOR_LINK_STAT_CAL_WEAK _

theorem touches_morLost {ps : List Part} {s₀ : State} (l : Nat) (s : State) (hens : Part.ens ∈ ps) (hlog : Part.log ∈ ps) (hstack : Part.stack ∈ ps) (rens : Part.regs .ens ∈ ps) (rmor : Part.regs .mor ∈ ps) (rwch : Part.regs .wch ∈ ps) (h : Touches ps s₀ s) :
    Touches ps s₀ (morLost l s) := by
  unfold morLost
  with_reducible repeat' first
    | assumption
    | intro _
    | apply touches_setMor
    | apply touches_ite

theorem touches_writeLinkCfg {ps : List Part} {s₀ : State} (l : Nat) (w : Nat) (s : State) (hens : Part.ens ∈ ps) (hlog : Part.log ∈ ps) (hstack : Part.stack ∈ ps) (rens : Part.regs .ens ∈ ps) (rmor : Part.regs .mor ∈ ps) (rwch : Part.regs .wch ∈ ps) (h : Touches ps s₀ s) :
    Touches ps s₀ (writeLinkCfg l w s) := by
  unfold writeLinkCfg
  with_reducible repeat' first
    | assumption
    | intro _
    | apply touches_State_storeReg
    | apply touches_setMor
    | apply touches_ite
    | (apply has_Reg_MOR_LINK_CFG; assumption)

theorem touches_takeClosure {ps : List Part} {s₀ : State} (l : Nat) (mo : Int) (s : State) (hstack : Part.stack ∈ ps) (h : Touches ps s₀ s) :
    Touches ps s₀ (takeClosure l mo s) := by
  unfold takeClosure
  with_reducible repeat' first
    | assumption
    | intro _
    | apply touches_State_modStack
    | apply touches_ite

theorem touches_formSample {ps : List Part} {s₀ : State} (l : Nat) (o : Int) (d : Int) (mo : Int) (s : State) (hstack : Part.stack ∈ ps) (rmor : Part.regs .mor ∈ ps) (h : Touches ps s₀ s) :
    Touches ps s₀ (formSample l o d mo s) := by
  unfold formSample
  with_reducible repeat' first
    | assumption
    | intro _
    | apply touches_State_modMor
    | apply touches_State_wr
    | exact has_R_MOR_LINK_OFS_O _
    | exact has_R_MOR_LINK_DLY_D _
    | exact has_R_MOR_LINK_X_X _

theorem touches_judgeTimed {ps : List Part} {s₀ : State} (l : Nat) (s : State) (hens : Part.ens ∈ ps) (hlog : Part.log ∈ ps) (hstack : Part.stack ∈ ps) (rens : Part.regs .ens ∈ ps) (rmor : Part.regs .mor ∈ ps) (rwch : Part.regs .wch ∈ ps) (h : Touches ps s₀ s) :
    Touches ps s₀ (judgeTimed l s) := by
  unfold judgeTimed
  with_reducible repeat' first
    | assumption
    | intro _
    | apply touches_setMor
    | apply touches_endTimed
    | apply touches_ite

theorem touches_mooringFrameErr {ps : List Part} {s₀ : State} (l : Nat) (s : State) (rmor : Part.regs .mor ∈ ps) (h : Touches ps s₀ s) :
    Touches ps s₀ (mooringFrameErr l s) := by
  unfold mooringFrameErr
  with_reducible repeat' first
    | assumption
    | intro _
    | apply touches_State_count
    | apply touches_bumpReg
    | apply touches_ite
    | exact has_R_MOR_LINK_ERR_FRAME_ERR _

theorem touches_mooringTimeRx {ps : List Part} {s₀ : State} (l : Nat) (back : Nat) (f : List Nat) (s : State) (hens : Part.ens ∈ ps) (hlog : Part.log ∈ ps) (hstack : Part.stack ∈ ps) (rens : Part.regs .ens ∈ ps) (rmor : Part.regs .mor ∈ ps) (rwch : Part.regs .wch ∈ ps) (h : Touches ps s₀ s) :
    Touches ps s₀ (mooringTimeRx l back f s) := by
  unfold mooringTimeRx
  with_reducible repeat' first
    | assumption
    | intro _
    | apply touches_mooringFrameErr
    | apply touches_State_count
    | apply touches_State_modStack
    | apply touches_State_modMor
    | apply touches_judgeTimed
    | apply touches_takeClosure
    | apply touches_formSample
    | apply touches_deliver
    | apply touches_State_wr
    | apply touches_ite
    | exact has_R_MOR_LINK_STAT_PEER _
    | exact has_R_MOR_LINK_STAT_CHAIN_HOPS _
    | exact has_R_MOR_LINK_STAT_CHAIN_MASTER _

theorem touches_timedLoss {ps : List Part} {s₀ : State} (l : Nat) (s : State) (hens : Part.ens ∈ ps) (hlog : Part.log ∈ ps) (hstack : Part.stack ∈ ps) (rens : Part.regs .ens ∈ ps) (rmor : Part.regs .mor ∈ ps) (rwch : Part.regs .wch ∈ ps) (h : Touches ps s₀ s) :
    Touches ps s₀ (timedLoss l s) := by
  unfold timedLoss
  with_reducible repeat' first
    | assumption
    | intro _
    | apply touches_endTimed
    | apply touches_ite

theorem touches_bertRx {ps : List Part} {s₀ : State} (l : Nat) (bits : Nat) (errors : Nat) (f : List Nat) (s : State) (hstack : Part.stack ∈ ps) (rmor : Part.regs .mor ∈ ps) (h : Touches ps s₀ s) :
    Touches ps s₀ (bertRx l bits errors f s) := by
  unfold bertRx
  with_reducible repeat' first
    | assumption
    | intro _
    | apply touches_mooringFrameErr
    | apply touches_State_modMor
    | apply touches_State_wr
    | apply touches_ite
    | exact has_R_MOR_LINK_STAT_PEER _

theorem touches_addShares {ps : List Part} {s₀ : State} (n : Nat) (w : Int) (e : Int) (s : State) (hstack : Part.stack ∈ ps) (h : Touches ps s₀ s) :
    Touches ps s₀ (addShares n w e s) := by
  unfold addShares
  with_reducible repeat' first
    | assumption
    | intro _
    | apply touches_State_modStack
    | apply touches_ite

theorem touches_closureWindow {ps : List Part} {s₀ : State} (s : State) (htick : Part.tick ∈ ps) (hlanes : Part.lanes ∈ ps) (hstack : Part.stack ∈ ps) (rmor : Part.regs .mor ∈ ps) (h : Touches ps s₀ s) :
    Touches ps s₀ (closureWindow s) := by
  unfold closureWindow
  with_reducible repeat' first
    | assumption
    | intro _
    | apply touches_State_waitTs0
    | apply touches_State_wr
    | apply touches_State_raise
    | apply touches_addShares
    | apply touches_sendTnd
    | apply touches_ite
    | exact has_Evt_mor
    | exact has_R_MOR_CLOSE_C _

theorem touches_setMaster {ps : List Part} {s₀ : State} (m : Nat) (s : State) (hens : Part.ens ∈ ps) (hlog : Part.log ∈ ps) (hstack : Part.stack ∈ ps) (rens : Part.regs .ens ∈ ps) (rmor : Part.regs .mor ∈ ps) (rwch : Part.regs .wch ∈ ps) (h : Touches ps s₀ s) :
    Touches ps s₀ (setMaster m s) := by
  unfold setMaster
  with_reducible repeat' first
    | assumption
    | intro _
    | apply touches_judgeTimed
    | apply touches_State_logRec
    | apply touches_State_wr
    | apply touches_State_raise
    | apply touches_ite
    | exact has_R_MOR_STAT_MASTER
    | exact has_Evt_mor

theorem touches_setFabric {ps : List Part} {s₀ : State} (v : Nat) (s : State) (rmor : Part.regs .mor ∈ ps) (h : Touches ps s₀ s) :
    Touches ps s₀ (setFabric v s) := by
  unfold setFabric
  with_reducible repeat' first
    | assumption
    | intro _
    | apply touches_State_wr
    | apply touches_ite
    | exact has_R_MOR_STAT_FABRIC

theorem touches_enterListen {ps : List Part} {s₀ : State} (s : State) (hstack : Part.stack ∈ ps) (rmor : Part.regs .mor ∈ ps) (h : Touches ps s₀ s) :
    Touches ps s₀ (enterListen s) := by
  unfold enterListen
  with_reducible repeat' first
    | assumption
    | intro _
    | apply touches_State_modStack
    | apply touches_setFabric

theorem touches_enterDiscover {ps : List Part} {s₀ : State} (s : State) (hens : Part.ens ∈ ps) (hlog : Part.log ∈ ps) (hstack : Part.stack ∈ ps) (rens : Part.regs .ens ∈ ps) (rmor : Part.regs .mor ∈ ps) (rwch : Part.regs .wch ∈ ps) (h : Touches ps s₀ s) :
    Touches ps s₀ (enterDiscover s) := by
  unfold enterDiscover
  with_reducible repeat' first
    | assumption
    | intro _
    | apply touches_setMaster
    | apply touches_State_modStack
    | apply touches_setFabric

theorem touches_becomeMaster {ps : List Part} {s₀ : State} (s : State) (hens : Part.ens ∈ ps) (hlog : Part.log ∈ ps) (hstack : Part.stack ∈ ps) (rens : Part.regs .ens ∈ ps) (rmor : Part.regs .mor ∈ ps) (rwch : Part.regs .wch ∈ ps) (h : Touches ps s₀ s) :
    Touches ps s₀ (becomeMaster s) := by
  unfold becomeMaster
  with_reducible repeat' first
    | assumption
    | intro _
    | apply touches_setFabric
    | apply touches_State_wr
    | apply touches_endTimed
    | apply touches_setMaster
    | apply touches_State_modStack
    | apply touches_ite
    | exact has_R_MOR_STAT_ADDR
    | exact has_R_MOR_STAT_N

theorem touches_leaveMaster {ps : List Part} {s₀ : State} (s : State) (hstack : Part.stack ∈ ps) (rmor : Part.regs .mor ∈ ps) (h : Touches ps s₀ s) :
    Touches ps s₀ (leaveMaster s) := by
  unfold leaveMaster
  with_reducible repeat' first
    | assumption
    | intro _
    | apply touches_State_modStack
    | apply touches_State_lo
    | apply touches_ite
    | exact has_R_MOR_STAT_RING_OK

theorem touches_stackOn {ps : List Part} {s₀ : State} (s : State) (hstack : Part.stack ∈ ps) (rmor : Part.regs .mor ∈ ps) (h : Touches ps s₀ s) :
    Touches ps s₀ (stackOn s) := by
  unfold stackOn
  with_reducible repeat' first
    | assumption
    | intro _
    | apply touches_State_modStack
    | apply touches_enterListen
    | apply touches_ite

theorem touches_stackOff {ps : List Part} {s₀ : State} (s : State) (hens : Part.ens ∈ ps) (hlog : Part.log ∈ ps) (hstack : Part.stack ∈ ps) (rens : Part.regs .ens ∈ ps) (rmor : Part.regs .mor ∈ ps) (rwch : Part.regs .wch ∈ ps) (h : Touches ps s₀ s) :
    Touches ps s₀ (stackOff s) := by
  unfold stackOff
  with_reducible repeat' first
    | assumption
    | intro _
    | apply touches_setMor
    | apply touches_setFabric
    | apply touches_leaveMaster
    | apply touches_setMaster
    | apply touches_State_modStack
    | apply touches_State_wr
    | apply touches_State_lo
    | exact has_R_MOR_STAT_ADDR
    | exact has_R_MOR_STAT_N

theorem touches_writeMorCtl {ps : List Part} {s₀ : State} (w : Nat) (s : State) (hens : Part.ens ∈ ps) (hlog : Part.log ∈ ps) (hstack : Part.stack ∈ ps) (rens : Part.regs .ens ∈ ps) (rmor : Part.regs .mor ∈ ps) (rwch : Part.regs .wch ∈ ps) (h : Touches ps s₀ s) :
    Touches ps s₀ (writeMorCtl w s) := by
  unfold writeMorCtl
  with_reducible repeat' first
    | assumption
    | intro _
    | apply touches_State_storeReg
    | apply touches_stackOn
    | apply touches_stackOff
    | apply touches_ite
    | (apply has_Reg_MOR_CTL; assumption)

theorem touches_stackMarker {ps : List Part} {s₀ : State} (s : State) (hens : Part.ens ∈ ps) (hlog : Part.log ∈ ps) (hstack : Part.stack ∈ ps) (rens : Part.regs .ens ∈ ps) (rmor : Part.regs .mor ∈ ps) (rwch : Part.regs .wch ∈ ps) (h : Touches ps s₀ s) :
    Touches ps s₀ (stackMarker s) := by
  unfold stackMarker
  with_reducible repeat' first
    | assumption
    | intro _
    | apply touches_becomeMaster
    | apply touches_bumpReg (b0 := .mor)
    | apply touches_State_modMor
    | apply touches_sendTime
    | apply touches_ite
    | exact has_R_MOR_LINK_ERR_TIME_MISS _

theorem touches_noteSent {ps : List Part} {s₀ : State} (f : List Nat) (s : State) (hstack : Part.stack ∈ ps) (h : Touches ps s₀ s) :
    Touches ps s₀ (noteSent f s) := by
  unfold noteSent
  with_reducible repeat' first
    | assumption
    | intro _
    | apply touches_State_modStack
    | apply touches_ite
    | dsimp only
    | split

theorem touches_tenderBusy {ps : List Part} {s₀ : State} (n : Nat) (s : State) (hstack : Part.stack ∈ ps) (h : Touches ps s₀ s) :
    Touches ps s₀ (tenderBusy n s) := by
  unfold tenderBusy
  with_reducible repeat' first
    | assumption
    | intro _
    | apply touches_State_modStack

theorem touches_tenderTx {ps : List Part} {s₀ : State} (collision : Bool) (s : State) (htick : Part.tick ∈ ps) (hlanes : Part.lanes ∈ ps) (hstack : Part.stack ∈ ps) (rmor : Part.regs .mor ∈ ps) (h : Touches ps s₀ s) :
    Touches ps s₀ (tenderTx collision s) := by
  unfold tenderTx
  with_reducible repeat' first
    | assumption
    | intro _
    | apply touches_State_waitClk
    | apply touches_tenderBusy
    | apply touches_bumpReg (b0 := .mor)
    | apply touches_State_count
    | apply touches_State_modStack
    | apply touches_noteSent
    | apply touches_State_emit
    | apply touches_State_raise
    | apply touches_ite
    | exact has_Evt_mor
    | exact has_R_TND_CNT_COLLISIONS
    | exact has_R_TND_CNT_ABORTS
    | dsimp only
    | split

theorem touches_tenderBackoff {ps : List Part} {s₀ : State} (s : State) (htick : Part.tick ∈ ps) (hlanes : Part.lanes ∈ ps) (hstack : Part.stack ∈ ps) (h : Touches ps s₀ s) :
    Touches ps s₀ (tenderBackoff s) := by
  unfold tenderBackoff
  with_reducible repeat' first
    | assumption
    | intro _
    | apply touches_State_modStack
    | apply touches_State_waitClk
    | apply touches_ite
    | dsimp only
    | split

theorem touches_takeTnd {ps : List Part} {s₀ : State} (f : TndFrame) (act : Nat → List Nat → State → State) (s : State) (hstack : Part.stack ∈ ps) (rmor : Part.regs .mor ∈ ps) (g1 : ∀ x0 x1 s, Touches ps s₀ s → Touches ps s₀ (act x0 x1 s)) (h : Touches ps s₀ s) :
    Touches ps s₀ (takeTnd f act s) := by
  unfold takeTnd
  with_reducible repeat' first
    | assumption
    | intro _
    | apply g1
    | apply touches_tenderBusy
    | apply touches_bumpReg
    | apply touches_ite
    | exact has_R_TND_ERR_RX_OK

theorem touches_tenderCrcErr {ps : List Part} {s₀ : State} (s : State) (hstack : Part.stack ∈ ps) (rmor : Part.regs .mor ∈ ps) (h : Touches ps s₀ s) :
    Touches ps s₀ (tenderCrcErr s) := by
  unfold tenderCrcErr
  with_reducible repeat' first
    | assumption
    | intro _
    | apply touches_bumpReg
    | apply touches_tenderBusy
    | apply touches_ite
    | exact has_R_TND_ERR_CRC_ERR

theorem touches_helloSend {ps : List Part} {s₀ : State} (s : State) (htick : Part.tick ∈ ps) (hlanes : Part.lanes ∈ ps) (hstack : Part.stack ∈ ps) (h : Touches ps s₀ s) :
    Touches ps s₀ (helloSend s) := by
  unfold helloSend
  with_reducible repeat' first
    | assumption
    | intro _
    | apply touches_State_waitClk
    | apply touches_sendTnd
    | apply touches_State_modStack
    | apply touches_ite

theorem touches_assignTo {ps : List Part} {s₀ : State} (uid : Nat) (addr : Option Nat) (s : State) (hstack : Part.stack ∈ ps) (rmor : Part.regs .mor ∈ ps) (h : Touches ps s₀ s) :
    Touches ps s₀ (assignTo uid addr s) := by
  unfold assignTo
  with_reducible repeat' first
    | assumption
    | intro _
    | apply touches_setNodeUid
    | apply touches_State_modStack
    | apply touches_sendTnd
    | apply touches_State_raise
    | apply touches_ite
    | exact has_Evt_mor
    | dsimp only
    | split

theorem touches_assignNode {ps : List Part} {s₀ : State} (uid : Nat) (s : State) (hstack : Part.stack ∈ ps) (rmor : Part.regs .mor ∈ ps) (h : Touches ps s₀ s) :
    Touches ps s₀ (assignNode uid s) := by
  unfold assignNode
  with_reducible repeat' first
    | assumption
    | intro _
    | apply touches_assignTo

theorem touches_assignAll {ps : List Part} {s₀ : State} (s : State) (hstack : Part.stack ∈ ps) (rmor : Part.regs .mor ∈ ps) (h : Touches ps s₀ s) :
    Touches ps s₀ (assignAll s) := by
  unfold assignAll
  with_reducible repeat' first
    | assumption
    | intro _
    | apply touches_assignNode
    | apply touches_ite
    | apply touches_foldl

theorem touches_noteNode {ps : List Part} {s₀ : State} (a : Nat) (uid : Nat) (prio : Nat) (strap : Nat) (mstr : Nat) (s : State) (hstack : Part.stack ∈ ps) (rmor : Part.regs .mor ∈ ps) (h : Touches ps s₀ s) :
    Touches ps s₀ (noteNode a uid prio strap mstr s) := by
  unfold noteNode
  with_reducible repeat' first
    | assumption
    | intro _
    | apply touches_setNodeUid
    | apply touches_State_modStack
    | apply touches_State_wr
    | apply touches_State_hi
    | apply touches_ite
    | exact has_R_TND_NODE_INFO_PRIO _
    | exact has_R_TND_NODE_INFO_STRAP _
    | exact has_R_TND_NODE_INFO_MASTER _
    | exact has_R_TND_NODE_INFO_PRESENT _
    | exact has_R_TND_STAT_HEARD

theorem touches_noteNewcomer {ps : List Part} {s₀ : State} (uid : Nat) (strap : Nat) (s : State) (hstack : Part.stack ∈ ps) (h : Touches ps s₀ s) :
    Touches ps s₀ (noteNewcomer uid strap s) := by
  unfold noteNewcomer
  with_reducible repeat' first
    | assumption
    | intro _
    | apply touches_State_modStack

theorem touches_yield_ {ps : List Part} {s₀ : State} (src : Nat) (s : State) (hens : Part.ens ∈ ps) (hlog : Part.log ∈ ps) (hstack : Part.stack ∈ ps) (rens : Part.regs .ens ∈ ps) (rmor : Part.regs .mor ∈ ps) (rwch : Part.regs .wch ∈ ps) (h : Touches ps s₀ s) :
    Touches ps s₀ (yield_ src s) := by
  unfold yield_
  with_reducible repeat' first
    | assumption
    | intro _
    | apply touches_enterListen
    | apply touches_leaveMaster
    | apply touches_State_wr
    | apply touches_setMaster
    | apply touches_ite
    | exact has_R_MOR_STAT_ADDR

theorem touches_masterHello {ps : List Part} {s₀ : State} (src : Nat) (rank : Nat × Nat × Nat) (s : State) (hens : Part.ens ∈ ps) (hlog : Part.log ∈ ps) (hstack : Part.stack ∈ ps) (rens : Part.regs .ens ∈ ps) (rmor : Part.regs .mor ∈ ps) (rwch : Part.regs .wch ∈ ps) (h : Touches ps s₀ s) :
    Touches ps s₀ (masterHello src rank s) := by
  unfold masterHello
  with_reducible repeat' first
    | assumption
    | intro _
    | apply touches_State_modStack
    | apply touches_setMaster
    | apply touches_setFabric
    | apply touches_leaveMaster
    | apply touches_yield_
    | apply touches_enterListen
    | apply touches_State_raise
    | apply touches_ite
    | exact has_Evt_mor
    | dsimp only
    | split

theorem touches_hello {ps : List Part} {s₀ : State} (src : Nat) (p : List Nat) (s : State) (hens : Part.ens ∈ ps) (hlog : Part.log ∈ ps) (hstack : Part.stack ∈ ps) (rens : Part.regs .ens ∈ ps) (rmor : Part.regs .mor ∈ ps) (rwch : Part.regs .wch ∈ ps) (h : Touches ps s₀ s) :
    Touches ps s₀ (hello src p s) := by
  unfold hello
  with_reducible repeat' first
    | assumption
    | intro _
    | apply touches_noteNode
    | apply touches_noteNewcomer
    | apply touches_masterHello
    | apply touches_State_modStack
    | apply touches_assignAll
    | apply touches_State_raise
    | apply touches_ite
    | exact has_Evt_mor

theorem touches_assign {ps : List Part} {s₀ : State} (p : List Nat) (s : State) (hstack : Part.stack ∈ ps) (rmor : Part.regs .mor ∈ ps) (h : Touches ps s₀ s) :
    Touches ps s₀ (assign p s) := by
  unfold assign
  with_reducible repeat' first
    | assumption
    | intro _
    | apply touches_State_modStack
    | apply touches_setFabric
    | apply touches_State_wr
    | apply touches_ite
    | exact has_R_MOR_STAT_ADDR

theorem touches_rcheck {ps : List Part} {s₀ : State} (p : List Nat) (s : State) (hstack : Part.stack ∈ ps) (rmor : Part.regs .mor ∈ ps) (h : Touches ps s₀ s) :
    Touches ps s₀ (rcheck p s) := by
  unfold rcheck
  with_reducible repeat' first
    | assumption
    | intro _
    | apply touches_State_modStack
    | apply touches_State_wr
    | apply touches_sendReport
    | apply touches_ite
    | exact has_R_MOR_STAT_N

theorem touches_rreport {ps : List Part} {s₀ : State} (src : Nat) (p : List Nat) (s : State) (hstack : Part.stack ∈ ps) (rmor : Part.regs .mor ∈ ps) (h : Touches ps s₀ s) :
    Touches ps s₀ (rreport src p s) := by
  unfold rreport
  with_reducible repeat' first
    | assumption
    | intro _
    | apply touches_State_when
    | apply touches_spoil
    | apply touches_judgeRing
    | apply touches_State_modStack
    | apply touches_ite

theorem touches_rcheckSend {ps : List Part} {s₀ : State} (s : State) (htick : Part.tick ∈ ps) (hlanes : Part.lanes ∈ ps) (hstack : Part.stack ∈ ps) (rmor : Part.regs .mor ∈ ps) (h : Touches ps s₀ s) :
    Touches ps s₀ (rcheckSend s) := by
  unfold rcheckSend
  with_reducible repeat' first
    | assumption
    | intro _
    | apply touches_State_waitClk
    | apply touches_judgeRing
    | apply touches_State_modStack
    | apply touches_sendTnd
    | apply touches_ite

theorem touches_asym {ps : List Part} {s₀ : State} (p : List Nat) (s : State) (hstack : Part.stack ∈ ps) (h : Touches ps s₀ s) :
    Touches ps s₀ (asym p s) := by
  unfold asym
  with_reducible repeat' first
    | assumption
    | intro _
    | apply touches_addShares
    | apply touches_ite

theorem touches_handoverRx {ps : List Part} {s₀ : State} (src : Nat) (p : List Nat) (s : State) (hstack : Part.stack ∈ ps) (h : Touches ps s₀ s) :
    Touches ps s₀ (handoverRx src p s) := by
  unfold handoverRx
  with_reducible repeat' first
    | assumption
    | intro _
    | apply touches_State_modStack
    | apply touches_ite

theorem touches_ping {ps : List Part} {s₀ : State} (src : Nat) (p : List Nat) (s : State) (hstack : Part.stack ∈ ps) (h : Touches ps s₀ s) :
    Touches ps s₀ (ping src p s) := by
  unfold ping
  with_reducible repeat' first
    | assumption
    | intro _
    | apply touches_sendTnd

theorem touches_pong {ps : List Part} {s₀ : State} (src : Nat) (p : List Nat) (s : State) (hstack : Part.stack ∈ ps) (h : Touches ps s₀ s) :
    Touches ps s₀ (pong src p s) := by
  unfold pong
  with_reducible repeat' first
    | assumption
    | intro _
    | apply touches_State_modStack
    | apply touches_ite
    | dsimp only
    | split

theorem touches_masterLost {ps : List Part} {s₀ : State} (s : State) (htick : Part.tick ∈ ps) (hlanes : Part.lanes ∈ ps) (hens : Part.ens ∈ ps) (hlog : Part.log ∈ ps) (hstack : Part.stack ∈ ps) (rens : Part.regs .ens ∈ ps) (rmor : Part.regs .mor ∈ ps) (rwch : Part.regs .wch ∈ ps) (h : Touches ps s₀ s) :
    Touches ps s₀ (masterLost s) := by
  unfold masterLost
  with_reducible repeat' first
    | assumption
    | intro _
    | apply touches_State_waitClk
    | apply touches_enterDiscover
    | apply touches_State_raise
    | apply touches_State_modStack
    | apply touches_ite
    | exact has_Evt_mor

theorem touches_discoverTimeout {ps : List Part} {s₀ : State} (s : State) (htick : Part.tick ∈ ps) (hlanes : Part.lanes ∈ ps) (hens : Part.ens ∈ ps) (hlog : Part.log ∈ ps) (hstack : Part.stack ∈ ps) (rens : Part.regs .ens ∈ ps) (rmor : Part.regs .mor ∈ ps) (rwch : Part.regs .wch ∈ ps) (h : Touches ps s₀ s) :
    Touches ps s₀ (discoverTimeout s) := by
  unfold discoverTimeout
  with_reducible repeat' first
    | assumption
    | intro _
    | apply touches_becomeMaster
    | apply touches_State_waitClk
    | apply touches_ite

theorem touches_nodeTimeout {ps : List Part} {s₀ : State} (a : Nat) (s : State) (htick : Part.tick ∈ ps) (hlanes : Part.lanes ∈ ps) (hstack : Part.stack ∈ ps) (rmor : Part.regs .mor ∈ ps) (h : Touches ps s₀ s) :
    Touches ps s₀ (nodeTimeout a s) := by
  unfold nodeTimeout
  with_reducible repeat' first
    | assumption
    | intro _
    | apply touches_setNodeUid
    | apply touches_State_waitClk
    | apply touches_judgeRing
    | apply touches_State_wr
    | apply touches_State_lo
    | apply touches_ite
    | exact has_R_TND_NODE_INFO_PRESENT _
    | exact has_R_TND_STAT_HEARD
    | dsimp only
    | split

theorem touches_handoverLapse {ps : List Part} {s₀ : State} (s : State) (htick : Part.tick ∈ ps) (hlanes : Part.lanes ∈ ps) (hlog : Part.log ∈ ps) (hstack : Part.stack ∈ ps) (rwch : Part.regs .wch ∈ ps) (h : Touches ps s₀ s) :
    Touches ps s₀ (handoverLapse s) := by
  unfold handoverLapse
  with_reducible repeat' first
    | assumption
    | intro _
    | apply touches_State_waitClk
    | apply touches_State_logRec
    | apply touches_State_modStack
    | apply touches_ite
    | dsimp only
    | split

theorem touches_State_modMbox {ps : List Part} {s₀ : State} (s : State) (c : Nat) (f : Mbx → Mbx) (hmbx : Part.mbx ∈ ps) (h : Touches ps s₀ s) :
    Touches ps s₀ (State.modMbox s c f) := by
  unfold State.modMbox
  with_reducible repeat' first
    | assumption
    | intro _
    | apply touches_ite
    | dsimp only
    | split
    | apply touches_set_mbx

theorem touches_mbxEvent {ps : List Part} {s₀ : State} (c : Nat) (kind : Nat) (s : State) (rmbx : Part.regs .mbx ∈ ps) (h : Touches ps s₀ s) :
    Touches ps s₀ (mbxEvent c kind s) := by
  unfold mbxEvent
  with_reducible repeat' first
    | assumption
    | intro _
    | apply touches_State_raise
    | apply touches_ite
    | exact has_Evt_mbx _

theorem touches_reject {ps : List Part} {s₀ : State} (c : Nat) (p : MbxPath) (addr : Nat) (read : Bool) (s : State) (hlog : Part.log ∈ ps) (rmbx : Part.regs .mbx ∈ ps) (rwch : Part.regs .wch ∈ ps) (h : Touches ps s₀ s) :
    Touches ps s₀ (reject c p addr read s) := by
  unfold reject
  with_reducible repeat' first
    | assumption
    | intro _
    | apply touches_mbxEvent
    | apply touches_State_count
    | apply touches_State_logRec
    | apply touches_State_hi
    | apply touches_State_emit
    | apply touches_ite
    | exact has_R_MBX_STAT_REJECT _
    | dsimp only
    | split

theorem touches_mbxEmpty {ps : List Part} {s₀ : State} (c : Nat) (s : State) (hmbx : Part.mbx ∈ ps) (hfw : Part.fw ∈ ps) (rmbx : Part.regs .mbx ∈ ps) (h : Touches ps s₀ s) :
    Touches ps s₀ (mbxEmpty c s) := by
  unfold mbxEmpty
  with_reducible repeat' first
    | assumption
    | intro _
    | apply touches_State_lo
    | apply touches_State_modMbox
    | apply touches_ite
    | apply touches_foldl
    | exact has_R_MBX_DATA_DATA _
    | exact has_R_MBX_STAT_ORPHAN _
    | exact has_R_MBX_STAT_OWNER _
    | exact has_R_MBX_STAT_STATE _
    | dsimp only
    | split
    | apply touches_set_fw

theorem touches_stamp {ps : List Part} {s₀ : State} (c : Nat) (id : Nat) (s : State) (rmbx : Part.regs .mbx ∈ ps) (h : Touches ps s₀ s) :
    Touches ps s₀ (stamp c id s) := by
  unfold stamp
  with_reducible repeat' first
    | assumption
    | intro _
    | apply touches_State_wr
    | apply touches_ite
    | exact has_R_MBX_DATA_DATA _

theorem touches_restartHold {ps : List Part} {s₀ : State} (c : Nat) (s : State) (hmbx : Part.mbx ∈ ps) (h : Touches ps s₀ s) :
    Touches ps s₀ (restartHold c s) := by
  unfold restartHold
  with_reducible repeat' first
    | assumption
    | intro _
    | apply touches_State_modMbox

theorem touches_goFull {ps : List Part} {s₀ : State} (c : Nat) (id : Nat) (s : State) (hfw : Part.fw ∈ ps) (rmbx : Part.regs .mbx ∈ ps) (h : Touches ps s₀ s) :
    Touches ps s₀ (goFull c id s) := by
  unfold goFull
  with_reducible repeat' first
    | assumption
    | intro _
    | apply touches_stamp
    | apply touches_State_count
    | apply touches_mbxEvent
    | apply touches_State_wr
    | apply touches_ite
    | exact has_R_MBX_STAT_STATE _
    | exact has_R_MBX_STAT_LAST_SENDER _
    | dsimp only
    | split
    | apply touches_set_fw

theorem touches_postEnds {ps : List Part} {s₀ : State} (c : Nat) (status : Nat) (s : State) (hfw : Part.fw ∈ ps) (h : Touches ps s₀ s) :
    Touches ps s₀ (postEnds c status s) := by
  unfold postEnds
  with_reducible repeat' first
    | assumption
    | intro _
    | dsimp only
    | split
    | apply touches_set_fw

theorem touches_goReplied {ps : List Part} {s₀ : State} (c : Nat) (s : State) (hmbx : Part.mbx ∈ ps) (hfw : Part.fw ∈ ps) (rmbx : Part.regs .mbx ∈ ps) (h : Touches ps s₀ s) :
    Touches ps s₀ (goReplied c s) := by
  unfold goReplied
  with_reducible repeat' first
    | assumption
    | intro _
    | apply touches_mbxEmpty
    | apply touches_restartHold
    | apply touches_stamp
    | apply touches_State_modMbox
    | apply touches_postEnds
    | apply touches_mbxEvent
    | apply touches_State_wr
    | apply touches_ite
    | exact has_R_MBX_STAT_STATE _

theorem touches_lockAnswer {ps : List Part} {s₀ : State} (c : Nat) (old : State) (winner : Option Nat) (p : MbxPath) (s : State) (hlog : Part.log ∈ ps) (rmbx : Part.regs .mbx ∈ ps) (rwch : Part.regs .wch ∈ ps) (h : Touches ps s₀ s) :
    Touches ps s₀ (lockAnswer c old winner p s) := by
  unfold lockAnswer
  with_reducible repeat' first
    | assumption
    | intro _
    | apply touches_reject
    | apply touches_State_emit
    | apply touches_ite

theorem touches_lockRead {ps : List Part} {s₀ : State} (c : Nat) (a1 : List MbxPath) (s : State) (hlog : Part.log ∈ ps) (hmbx : Part.mbx ∈ ps) (rmbx : Part.regs .mbx ∈ ps) (rwch : Part.regs .wch ∈ ps) (h : Touches ps s₀ s) :
    Touches ps s₀ (lockRead c a1 s) := by
  unfold lockRead
  with_reducible repeat' first
    | assumption
    | intro _
    | apply touches_lockAnswer
    | apply touches_restartHold
    | apply touches_State_wr
    | apply touches_ite
    | apply touches_foldl
    | exact has_R_MBX_STAT_OWNER _
    | exact has_R_MBX_STAT_STATE _
    | dsimp only
    | split

theorem touches_dataAccess {ps : List Part} {s₀ : State} (c : Nat) (k : Nat) (p : MbxPath) (w : Option Nat) (s : State) (hlog : Part.log ∈ ps) (hmbx : Part.mbx ∈ ps) (rmbx : Part.regs .mbx ∈ ps) (rwch : Part.regs .wch ∈ ps) (h : Touches ps s₀ s) :
    Touches ps s₀ (dataAccess c k p w s) := by
  unfold dataAccess
  with_reducible repeat' first
    | assumption
    | intro _
    | apply touches_restartHold
    | apply touches_State_wr
    | apply touches_State_emit
    | apply touches_reject
    | apply touches_ite
    | exact has_R_MBX_DATA_DATA _
    | dsimp only
    | split

theorem touches_putWords {ps : List Part} {s₀ : State} (c : Nat) (bytes : List Nat) (s : State) (rmbx : Part.regs .mbx ∈ ps) (h : Touches ps s₀ s) :
    Touches ps s₀ (putWords c bytes s) := by
  unfold putWords
  with_reducible repeat' first
    | assumption
    | intro _
    | apply touches_State_wr
    | apply touches_ite
    | apply touches_foldl
    | exact has_R_MBX_DATA_DATA _

theorem touches_agentFeed {ps : List Part} {s₀ : State} (a0 : Nat) (s : State) (hstack : Part.stack ∈ ps) (hfw : Part.fw ∈ ps) (rmbx : Part.regs .mbx ∈ ps) (h : Touches ps s₀ s) :
    Touches ps s₀ (agentFeed a0 s) := by
  induction a0 generalizing s with
  | zero =>
    unfold agentFeed
    with_reducible repeat' first
      | assumption
  | succ _ ih =>
    unfold agentFeed
    with_reducible repeat' first
      | assumption
      | intro _
      | apply ih
      | apply touches_State_modStack
      | apply touches_goFull
      | apply touches_putWords
      | apply touches_State_wr
      | apply touches_ite
      | exact has_R_MBX_STAT_OWNER _
      | dsimp only
      | split
      | apply touches_set_fw

theorem touches_agentRun {ps : List Part} {s₀ : State} (s : State) (hstack : Part.stack ∈ ps) (hfw : Part.fw ∈ ps) (rmbx : Part.regs .mbx ∈ ps) (h : Touches ps s₀ s) :
    Touches ps s₀ (agentRun s) := by
  unfold agentRun
  with_reducible repeat' first
    | assumption
    | intro _
    | apply touches_agentFeed

theorem touches_sendRelay {ps : List Part} {s₀ : State} (dst : Nat) (pkt : List Nat) (s : State) (hstack : Part.stack ∈ ps) (h : Touches ps s₀ s) :
    Touches ps s₀ (sendRelay dst pkt s) := by
  unfold sendRelay
  with_reducible repeat' first
    | assumption
    | intro _
    | apply touches_State_modMor
    | apply touches_State_emit
    | apply touches_ite
    | dsimp only
    | split

theorem touches_agentReply {ps : List Part} {s₀ : State} (c : Nat) (s : State) (hstack : Part.stack ∈ ps) (hmbx : Part.mbx ∈ ps) (hfw : Part.fw ∈ ps) (rmbx : Part.regs .mbx ∈ ps) (h : Touches ps s₀ s) :
    Touches ps s₀ (agentReply c s) := by
  unfold agentReply
  with_reducible repeat' first
    | assumption
    | intro _
    | apply touches_agentRun
    | apply touches_mbxEmpty
    | apply touches_sendRelay
    | apply touches_ite

theorem touches_withdrawMsg {ps : List Part} {s₀ : State} (c : Nat) (s : State) (hmbx : Part.mbx ∈ ps) (hfw : Part.fw ∈ ps) (rmbx : Part.regs .mbx ∈ ps) (h : Touches ps s₀ s) :
    Touches ps s₀ (withdrawMsg c s) := by
  unfold withdrawMsg
  with_reducible repeat' first
    | assumption
    | intro _
    | apply touches_mbxEvent
    | apply touches_State_hi
    | apply touches_mbxEmpty
    | apply touches_ite
    | exact has_R_MBX_STAT_WITHDRAWN _

theorem touches_writeMbxCtl {ps : List Part} {s₀ : State} (c : Nat) (p : MbxPath) (w : Nat) (s : State) (hlog : Part.log ∈ ps) (hstack : Part.stack ∈ ps) (hmbx : Part.mbx ∈ ps) (hfw : Part.fw ∈ ps) (rmbx : Part.regs .mbx ∈ ps) (rwch : Part.regs .wch ∈ ps) (h : Touches ps s₀ s) :
    Touches ps s₀ (writeMbxCtl c p w s) := by
  unfold writeMbxCtl
  with_reducible repeat' first
    | assumption
    | intro _
    | apply touches_goFull
    | apply touches_reject
    | apply touches_agentReply
    | apply touches_goReplied
    | apply touches_agentRun
    | apply touches_mbxEmpty
    | apply touches_withdrawMsg
    | apply touches_ite
    | dsimp only
    | split

theorem touches_unsupported {ps : List Part} {s₀ : State} (addr : Nat) (read : Bool) (s : State) (h : Touches ps s₀ s) :
    Touches ps s₀ (unsupported addr read s) := by
  unfold unsupported
  with_reducible repeat' first
    | assumption
    | intro _
    | apply touches_State_emit
    | apply touches_ite

theorem touches_guarded {ps : List Part} {s₀ : State} (c : Nat) (p : MbxPath) (addr : Nat) (read : Bool) (f : State → State) (s : State) (g4 : ∀ s, Touches ps s₀ s → Touches ps s₀ (f s)) (h : Touches ps s₀ s) :
    Touches ps s₀ (guarded c p addr read f s) := by
  unfold guarded
  with_reducible repeat' first
    | assumption
    | intro _
    | apply g4
    | apply touches_unsupported
    | apply touches_ite

theorem touches_statAccess {ps : List Part} {s₀ : State} (c : Nat) (p : MbxPath) (w : Option Nat) (s : State) (hlog : Part.log ∈ ps) (rmbx : Part.regs .mbx ∈ ps) (rwch : Part.regs .wch ∈ ps) (h : Touches ps s₀ s) :
    Touches ps s₀ (statAccess c p w s) := by
  unfold statAccess
  with_reducible repeat' first
    | assumption
    | intro _
    | apply touches_reject
    | apply touches_State_emit
    | apply touches_State_storeReg
    | apply touches_ite
    | (apply has_Reg_MBX_STAT; assumption)
    | dsimp only
    | split

theorem touches_readMbxCtl {ps : List Part} {s₀ : State} (c : Nat) (p : MbxPath) (s : State) (hlog : Part.log ∈ ps) (rmbx : Part.regs .mbx ∈ ps) (rwch : Part.regs .wch ∈ ps) (h : Touches ps s₀ s) :
    Touches ps s₀ (readMbxCtl c p s) := by
  unfold readMbxCtl
  with_reducible repeat' first
    | assumption
    | intro _
    | apply touches_reject
    | apply touches_State_emit
    | apply touches_ite

theorem touches_mbxAccess {ps : List Part} {s₀ : State} (c : Nat) (r : MbxReg) (p : MbxPath) (w : Option Nat) (s : State) (hlog : Part.log ∈ ps) (hstack : Part.stack ∈ ps) (hmbx : Part.mbx ∈ ps) (hfw : Part.fw ∈ ps) (rmbx : Part.regs .mbx ∈ ps) (rwch : Part.regs .wch ∈ ps) (h : Touches ps s₀ s) :
    Touches ps s₀ (mbxAccess c r p w s) := by
  unfold mbxAccess
  with_reducible repeat' first
    | assumption
    | intro _
    | apply touches_dataAccess
    | apply touches_writeMbxCtl
    | apply touches_readMbxCtl
    | apply touches_reject
    | apply touches_lockRead
    | apply touches_statAccess
    | dsimp only
    | split

theorem touches_goTogether {ps : List Part} {s₀ : State} (gs : List (Fin 16 × MbxPath × Nat)) (s : State) (hlog : Part.log ∈ ps) (hstack : Part.stack ∈ ps) (hmbx : Part.mbx ∈ ps) (hfw : Part.fw ∈ ps) (rmbx : Part.regs .mbx ∈ ps) (rwch : Part.regs .wch ∈ ps) (h : Touches ps s₀ s) :
    Touches ps s₀ (goTogether gs s) := by
  unfold goTogether
  with_reducible repeat' first
    | assumption
    | intro _
    | apply touches_guarded
    | apply touches_writeMbxCtl
    | apply touches_foldl

theorem touches_lockHoldExpire {ps : List Part} {s₀ : State} (c : Nat) (s : State) (htick : Part.tick ∈ ps) (hlanes : Part.lanes ∈ ps) (hstack : Part.stack ∈ ps) (hmbx : Part.mbx ∈ ps) (hfw : Part.fw ∈ ps) (rmbx : Part.regs .mbx ∈ ps) (h : Touches ps s₀ s) :
    Touches ps s₀ (lockHoldExpire c s) := by
  unfold lockHoldExpire
  with_reducible repeat' first
    | assumption
    | intro _
    | apply touches_State_waitClk
    | apply touches_agentRun
    | apply touches_bumpReg
    | apply touches_State_hi
    | apply touches_mbxEmpty
    | apply touches_ite
    | exact has_R_MBX_STAT_STALE _
    | exact has_R_MBX_XCNT_STALE

theorem touches_abortMsg {ps : List Part} {s₀ : State} (c : Nat) (s : State) (hmbx : Part.mbx ∈ ps) (hfw : Part.fw ∈ ps) (rmbx : Part.regs .mbx ∈ ps) (h : Touches ps s₀ s) :
    Touches ps s₀ (abortMsg c s) := by
  unfold abortMsg
  with_reducible repeat' first
    | assumption
    | intro _
    | apply touches_mbxEmpty
    | apply touches_goReplied
    | apply touches_State_wr
    | apply touches_ite
    | exact has_R_MBX_DATA_DATA _

theorem touches_abortFor {ps : List Part} {s₀ : State} (id : Nat) (s : State) (hmbx : Part.mbx ∈ ps) (hfw : Part.fw ∈ ps) (rmbx : Part.regs .mbx ∈ ps) (h : Touches ps s₀ s) :
    Touches ps s₀ (abortFor id s) := by
  unfold abortFor
  with_reducible repeat' first
    | assumption
    | intro _
    | apply touches_abortMsg
    | apply touches_ite
    | apply touches_foldl

theorem touches_orphanFor {ps : List Part} {s₀ : State} (id : Nat) (s : State) (hmbx : Part.mbx ∈ ps) (hfw : Part.fw ∈ ps) (rmbx : Part.regs .mbx ∈ ps) (h : Touches ps s₀ s) :
    Touches ps s₀ (orphanFor id s) := by
  unfold orphanFor
  with_reducible repeat' first
    | assumption
    | intro _
    | apply touches_State_hi
    | apply touches_mbxEmpty
    | apply touches_ite
    | apply touches_foldl
    | exact has_R_MBX_STAT_ORPHAN _

theorem touches_setD0 {ps : List Part} {s₀ : State} (f : Nat) (d0 : Bool) (s : State) (hmbx : Part.mbx ∈ ps) (hfw : Part.fw ∈ ps) (hpcie : Part.pcie ∈ ps) (rmbx : Part.regs .mbx ∈ ps) (h : Touches ps s₀ s) :
    Touches ps s₀ (setD0 f d0 s) := by
  unfold setD0
  with_reducible repeat' first
    | assumption
    | intro _
    | apply touches_abortFor
    | apply touches_ite
    | dsimp only
    | split
    | apply touches_set_pcie

theorem touches_beginCrossing {ps : List Part} {s₀ : State} (f : Nat) (s : State) (hmbx : Part.mbx ∈ ps) (h : Touches ps s₀ s) :
    Touches ps s₀ (beginCrossing f s) := by
  unfold beginCrossing
  with_reducible repeat' first
    | assumption
    | intro _
    | apply touches_State_modMbox
    | apply touches_ite
    | apply touches_foldl

theorem touches_crossingTimeout {ps : List Part} {s₀ : State} (c : Nat) (s : State) (htick : Part.tick ∈ ps) (hlanes : Part.lanes ∈ ps) (hlog : Part.log ∈ ps) (hmbx : Part.mbx ∈ ps) (hfw : Part.fw ∈ ps) (rmbx : Part.regs .mbx ∈ ps) (rwch : Part.regs .wch ∈ ps) (h : Touches ps s₀ s) :
    Touches ps s₀ (crossingTimeout c s) := by
  unfold crossingTimeout
  with_reducible repeat' first
    | assumption
    | intro _
    | apply touches_State_waitClk
    | apply touches_postEnds
    | apply touches_bumpReg (b0 := .mbx)
    | apply touches_withdrawMsg
    | apply touches_State_logRec
    | apply touches_reject
    | apply touches_ite
    | exact has_R_MBX_XCNT_CROSSED
    | dsimp only
    | split
    | apply touches_set_fw

theorem touches_postHeld {ps : List Part} {s₀ : State} (f : Nat) (s : State) (hfw : Part.fw ∈ ps) (rmbx : Part.regs .mbx ∈ ps) (h : Touches ps s₀ s) :
    Touches ps s₀ (postHeld f s).2 := by
  unfold postHeld
  with_reducible repeat' first
    | assumption
    | intro _
    | apply touches_goFull
    | apply touches_putWords
    | apply touches_State_wr
    | apply touches_ite
    | apply touches_foldl_fst
    | exact has_R_MBX_STAT_OWNER _
    | dsimp only
    | split
    | refine touches_of_fst (by assumption) ?_
    | refine touches_of_snd (by assumption) ?_
    | apply touches_set_fw

theorem touches_notifyPost {ps : List Part} {s₀ : State} (s : State) (hfw : Part.fw ∈ ps) (rmbx : Part.regs .mbx ∈ ps) (h : Touches ps s₀ s) :
    Touches ps s₀ (notifyPost s) := by
  unfold notifyPost
  with_reducible repeat' first
    | assumption
    | intro _
    | apply touches_postHeld
    | apply touches_ite

theorem touches_writePctSel {ps : List Part} {s₀ : State} (c : Nat) (w : Nat) (s : State) (rpct : Part.regs .pct ∈ ps) (h : Touches ps s₀ s) :
    Touches ps s₀ (writePctSel c w s) := by
  unfold writePctSel
  with_reducible repeat' first
    | assumption
    | intro _
    | apply touches_State_storeReg
    | apply touches_State_wr
    | apply touches_ite
    | exact has_R_PCT_SEL_INVALID _
    | (apply has_Reg_PCT_SEL; assumption)
    | dsimp only
    | split
    | apply touches_set_pct

theorem touches_readPctLo {ps : List Part} {s₀ : State} (c : Nat) (reader : Nat) (s : State) (h : Touches ps s₀ s) :
    Touches ps s₀ (readPctLo c reader s).2 := by
  unfold readPctLo
  with_reducible repeat' first
    | assumption
    | intro _
    | apply touches_ite
    | apply touches_foldl_fst
    | dsimp only
    | split
    | refine touches_of_fst (by assumption) ?_
    | refine touches_of_snd (by assumption) ?_
    | apply touches_set_pct

theorem touches_clearOvf {ps : List Part} {s₀ : State} (c : Nat) (s : State) (h : Touches ps s₀ s) :
    Touches ps s₀ (clearOvf c s) := by
  unfold clearOvf
  with_reducible repeat' first
    | assumption
    | intro _
    | (apply touches_wr_side; first | exact sideKey_pba _ | exact sideKey_ovf _)

theorem touches_State_modWatch {ps : List Part} {s₀ : State} (s : State) (f : Watch → Watch) (hwatch : Part.watch ∈ ps) (h : Touches ps s₀ s) :
    Touches ps s₀ (State.modWatch s f) := by
  unfold State.modWatch
  with_reducible repeat' first
    | assumption
    | intro _
    | apply touches_ite
    | dsimp only
    | split
    | apply touches_set_watch

theorem touches_State_modRun {ps : List Part} {s₀ : State} (s : State) (f : WatchRun → WatchRun) (hwatch : Part.watch ∈ ps) (h : Touches ps s₀ s) :
    Touches ps s₀ (State.modRun s f) := by
  unfold State.modRun
  with_reducible repeat' first
    | assumption
    | intro _
    | apply touches_State_modWatch

theorem touches_showRun {ps : List Part} {s₀ : State} (s : State) (rwch : Part.regs .wch ∈ ps) (h : Touches ps s₀ s) :
    Touches ps s₀ (showRun s) := by
  unfold showRun
  with_reducible repeat' first
    | assumption
    | intro _
    | apply touches_State_lo
    | apply touches_State_wr
    | apply touches_State_hi
    | apply touches_ite
    | apply touches_foldl
    | exact has_R_WCH_STAT_CURRENT
    | exact has_R_WCH_STAT_PENDING
    | exact has_R_WCH_STAT_RUNNING
    | exact has_R_WCH_STAT_SCHEDULED
    | dsimp only
    | split

theorem touches_beginTest {ps : List Part} {s₀ : State} (t : Nat) (s : State) (htick : Part.tick ∈ ps) (hlanes : Part.lanes ∈ ps) (htim : Part.tim ∈ ps) (hgnss : Part.gnss ∈ ps) (hstack : Part.stack ∈ ps) (hwatch : Part.watch ∈ ps) (rgns : Part.regs .gns ∈ ps) (rtim : Part.regs .tim ∈ ps) (h : Touches ps s₀ s) :
    Touches ps s₀ (beginTest t s) := by
  unfold beginTest
  with_reducible repeat' first
    | assumption
    | intro _
    | apply touches_State_modRun
    | apply touches_writeTimCtl
    | apply touches_idleCh
    | apply touches_State_waitTs0
    | apply touches_startCh
    | apply touches_State_modMor
    | apply touches_State_modStack
    | apply touches_sendTnd
    | apply touches_foldl
    | apply touches_ite
    | dsimp only
    | split

theorem touches_returnBorrowed {ps : List Part} {s₀ : State} (s : State) (hgnss : Part.gnss ∈ ps) (hsrv : Part.srv ∈ ps) (hwatch : Part.watch ∈ ps) (rgns : Part.regs .gns ∈ ps) (rnts : Part.regs .nts ∈ ps) (h : Touches ps s₀ s) :
    Touches ps s₀ (returnBorrowed s) := by
  unfold returnBorrowed
  with_reducible repeat' first
    | assumption
    | intro _
    | apply touches_returnCh
    | apply touches_dispatchNts
    | apply touches_State_modRun
    | apply touches_foldl
    | dsimp only
    | split

theorem touches_writeResult {ps : List Part} {s₀ : State} (t : Nat) (result : Nat) (unit : Nat) (measure : Nat) (s : State) (hlog : Part.log ∈ ps) (rwch : Part.regs .wch ∈ ps) (h : Touches ps s₀ s) :
    Touches ps s₀ (writeResult t result unit measure s) := by
  unfold writeResult
  with_reducible repeat' first
    | assumption
    | intro _
    | apply touches_State_logRec
    | apply touches_State_wr
    | apply touches_State_raise
    | apply touches_ite
    | exact has_R_WCH_RES0_RESULT _
    | exact has_R_WCH_RES0_FORCED _
    | exact has_R_WCH_RES0_UNIT _
    | exact has_R_WCH_RES1_WHEN _
    | exact has_Evt_wch

theorem touches_startRun {ps : List Part} {s₀ : State} (mask : Nat) (scheduled : Bool) (force : Bool) (cmd : Option Nat) (sender : Nat) (s : State) (hwatch : Part.watch ∈ ps) (h : Touches ps s₀ s) :
    Touches ps s₀ (startRun mask scheduled force cmd sender s) := by
  unfold startRun
  with_reducible repeat' first
    | assumption
    | intro _
    | apply touches_State_modWatch

theorem touches_startScheduled {ps : List Part} {s₀ : State} (s : State) (hwatch : Part.watch ∈ ps) (rwch : Part.regs .wch ∈ ps) (h : Touches ps s₀ s) :
    Touches ps s₀ (startScheduled s) := by
  unfold startScheduled
  with_reducible repeat' first
    | assumption
    | intro _
    | apply touches_State_modWatch
    | apply touches_startRun
    | apply touches_State_wr
    | exact has_R_WCH_STAT_LAST_DAY

theorem touches_advanceRun {ps : List Part} {s₀ : State} (a0 : Nat) (s : State) (htick : Part.tick ∈ ps) (hlanes : Part.lanes ∈ ps) (htim : Part.tim ∈ ps) (hgnss : Part.gnss ∈ ps) (hlog : Part.log ∈ ps) (hstack : Part.stack ∈ ps) (hfw : Part.fw ∈ ps) (hwatch : Part.watch ∈ ps) (rgns : Part.regs .gns ∈ ps) (rtim : Part.regs .tim ∈ ps) (rwch : Part.regs .wch ∈ ps) (h : Touches ps s₀ s) :
    Touches ps s₀ (advanceRun a0 s) := by
  induction a0 generalizing s with
  | zero =>
    unfold advanceRun
    with_reducible repeat' first
      | assumption
      | intro _
      | apply touches_showRun
  | succ _ ih =>
    unfold advanceRun
    with_reducible repeat' first
      | assumption
      | intro _
      | apply ih
      | apply touches_showRun
      | apply touches_State_modWatch
      | apply touches_endRunning
      | apply touches_startScheduled
      | apply touches_State_modRun
      | apply touches_writeResult
      | apply touches_beginTest
      | apply touches_ite
      | dsimp only
      | split

theorem touches_endTest {ps : List Part} {s₀ : State} (t : Nat) (result : Nat) (unit : Nat) (measure : Nat) (s : State) (htick : Part.tick ∈ ps) (hlanes : Part.lanes ∈ ps) (htim : Part.tim ∈ ps) (hgnss : Part.gnss ∈ ps) (hlog : Part.log ∈ ps) (hsrv : Part.srv ∈ ps) (hstack : Part.stack ∈ ps) (hfw : Part.fw ∈ ps) (hwatch : Part.watch ∈ ps) (rgns : Part.regs .gns ∈ ps) (rtim : Part.regs .tim ∈ ps) (rwch : Part.regs .wch ∈ ps) (rnts : Part.regs .nts ∈ ps) (h : Touches ps s₀ s) :
    Touches ps s₀ (endTest t result unit measure s) := by
  unfold endTest
  with_reducible repeat' first
    | assumption
    | intro _
    | apply touches_writeResult
    | apply touches_returnBorrowed
    | apply touches_advanceRun
    | apply touches_State_modRun

theorem touches_keepBad {ps : List Part} {s₀ : State} (t : Nat) (bad : List Nat) (s : State) (hwatch : Part.watch ∈ ps) (rnts : Part.regs .nts ∈ ps) (h : Touches ps s₀ s) :
    Touches ps s₀ (keepBad t bad s) := by
  unfold keepBad
  with_reducible repeat' first
    | assumption
    | intro _
    | apply touches_State_modWatch
    | apply touches_State_wr
    | apply touches_ite
    | apply touches_foldl
    | exact has_R_NTS_ENG_STAT_PARKED _

theorem touches_watchTestEnd {ps : List Part} {s₀ : State} (bad : List Nat) (measure : Nat) (s : State) (htick : Part.tick ∈ ps) (hlanes : Part.lanes ∈ ps) (htim : Part.tim ∈ ps) (hgnss : Part.gnss ∈ ps) (hlog : Part.log ∈ ps) (hsrv : Part.srv ∈ ps) (hstack : Part.stack ∈ ps) (hfw : Part.fw ∈ ps) (hwatch : Part.watch ∈ ps) (rgns : Part.regs .gns ∈ ps) (rtim : Part.regs .tim ∈ ps) (rwch : Part.regs .wch ∈ ps) (rnts : Part.regs .nts ∈ ps) (h : Touches ps s₀ s) :
    Touches ps s₀ (watchTestEnd bad measure s) := by
  unfold watchTestEnd
  with_reducible repeat' first
    | assumption
    | intro _
    | apply touches_State_waitClk
    | apply touches_endTest
    | apply touches_keepBad
    | apply touches_foldl
    | apply touches_ite
    | apply touches_foldl_fst
    | dsimp only
    | split

theorem touches_watchTestBound {ps : List Part} {s₀ : State} (s : State) (htick : Part.tick ∈ ps) (hlanes : Part.lanes ∈ ps) (htim : Part.tim ∈ ps) (hgnss : Part.gnss ∈ ps) (hlog : Part.log ∈ ps) (hsrv : Part.srv ∈ ps) (hstack : Part.stack ∈ ps) (hfw : Part.fw ∈ ps) (hwatch : Part.watch ∈ ps) (rgns : Part.regs .gns ∈ ps) (rtim : Part.regs .tim ∈ ps) (rwch : Part.regs .wch ∈ ps) (rnts : Part.regs .nts ∈ ps) (h : Touches ps s₀ s) :
    Touches ps s₀ (watchTestBound s) := by
  unfold watchTestBound
  with_reducible repeat' first
    | assumption
    | intro _
    | apply touches_endTest
    | apply touches_State_waitClk
    | apply touches_ite
    | dsimp only
    | split

theorem touches_watchTestStart {ps : List Part} {s₀ : State} (s : State) (htick : Part.tick ∈ ps) (hlanes : Part.lanes ∈ ps) (htim : Part.tim ∈ ps) (hgnss : Part.gnss ∈ ps) (hlog : Part.log ∈ ps) (hsrv : Part.srv ∈ ps) (hstack : Part.stack ∈ ps) (hfw : Part.fw ∈ ps) (hwatch : Part.watch ∈ ps) (rgns : Part.regs .gns ∈ ps) (rtim : Part.regs .tim ∈ ps) (rwch : Part.regs .wch ∈ ps) (rnts : Part.regs .nts ∈ ps) (h : Touches ps s₀ s) :
    Touches ps s₀ (watchTestStart s) := by
  unfold watchTestStart
  with_reducible repeat' first
    | assumption
    | intro _
    | apply touches_endTest
    | apply touches_State_waitClk
    | apply touches_showRun
    | apply touches_beginTest
    | apply touches_ite
    | dsimp only
    | split

theorem touches_breakRun {ps : List Part} {s₀ : State} (s : State) (htick : Part.tick ∈ ps) (hlanes : Part.lanes ∈ ps) (htim : Part.tim ∈ ps) (hgnss : Part.gnss ∈ ps) (hlog : Part.log ∈ ps) (hsrv : Part.srv ∈ ps) (hstack : Part.stack ∈ ps) (hfw : Part.fw ∈ ps) (hwatch : Part.watch ∈ ps) (rgns : Part.regs .gns ∈ ps) (rtim : Part.regs .tim ∈ ps) (rwch : Part.regs .wch ∈ ps) (rnts : Part.regs .nts ∈ ps) (h : Touches ps s₀ s) :
    Touches ps s₀ (breakRun s) := by
  unfold breakRun
  with_reducible repeat' first
    | assumption
    | intro _
    | apply touches_State_modWatch
    | apply touches_returnBorrowed
    | apply touches_endRunning
    | apply touches_advanceRun
    | apply touches_startScheduled
    | apply touches_showRun
    | apply touches_ite
    | dsimp only
    | split

theorem touches_clearCounts {ps : List Part} {s₀ : State} (s : State) (h : Touches ps s₀ s) :
    Touches ps s₀ (clearCounts s) := by
  unfold clearCounts
  with_reducible repeat' first
    | assumption
    | intro _
    | (apply touches_lo_side; exact sideKey_ovf _)
    | apply touches_foldl
    | dsimp only
    | apply touches_set_pct

theorem touches_watchSchedule {ps : List Part} {s₀ : State} (s : State) (htick : Part.tick ∈ ps) (hlanes : Part.lanes ∈ ps) (htim : Part.tim ∈ ps) (hgnss : Part.gnss ∈ ps) (hlog : Part.log ∈ ps) (hstack : Part.stack ∈ ps) (hfw : Part.fw ∈ ps) (hwatch : Part.watch ∈ ps) (rgns : Part.regs .gns ∈ ps) (rtim : Part.regs .tim ∈ ps) (rwch : Part.regs .wch ∈ ps) (h : Touches ps s₀ s) :
    Touches ps s₀ (watchSchedule s) := by
  unfold watchSchedule
  with_reducible repeat' first
    | assumption
    | intro _
    | apply touches_advanceRun
    | apply touches_startScheduled
    | apply touches_State_modWatch
    | apply touches_ite
    | dsimp only
    | split

theorem touches_noteWriter {ps : List Part} {s₀ : State} (sender : Nat) (i : Nat) (s : State) (hens : Part.ens ∈ ps) (h : Touches ps s₀ s) :
    Touches ps s₀ (noteWriter sender i s) := by
  unfold noteWriter
  with_reducible repeat' first
    | assumption
    | intro _
    | apply touches_State_modSlot

theorem touches_writeSlotCfg {ps : List Part} {s₀ : State} (sender : Nat) (i : Nat) (w : Nat) (s : State) (hens : Part.ens ∈ ps) (htim : Part.tim ∈ ps) (rens : Part.regs .ens ∈ ps) (rtim : Part.regs .tim ∈ ps) (h : Touches ps s₀ s) :
    Touches ps s₀ (writeSlotCfg sender i w s) := by
  unfold writeSlotCfg
  with_reducible repeat' first
    | assumption
    | intro _
    | apply touches_noteWriter
    | apply touches_State_modSlot
    | apply touches_unassignChan
    | apply touches_assignChan
    | apply touches_State_wr
    | apply touches_State_hi
    | apply touches_State_lo
    | apply touches_State_storeReg
    | apply touches_ite
    | exact has_R_ENS_SLOT_STAT_ASSIGN_ERR _
    | exact has_R_ENS_SLOT_CFG_TI_CH _
    | exact has_R_ENS_SLOT_CFG_EN _
    | (apply has_Reg_ENS_SLOT_CFG; assumption)

theorem touches_writeSlotCmd {ps : List Part} {s₀ : State} (sender : Nat) (i : Nat) (w : Nat) (s : State) (hens : Part.ens ∈ ps) (rens : Part.regs .ens ∈ ps) (h : Touches ps s₀ s) :
    Touches ps s₀ (writeSlotCmd sender i w s) := by
  unfold writeSlotCmd
  with_reducible repeat' first
    | assumption
    | intro _
    | apply touches_noteWriter
    | apply touches_State_hi
    | apply touches_ite
    | apply touches_foldl_mem
    | (apply has_Reg_ENS_SLOT_CMD; assumption)

theorem touches_writeSlotBias {ps : List Part} {s₀ : State} (i : Nat) (w : Nat) (s : State) (hens : Part.ens ∈ ps) (rens : Part.regs .ens ∈ ps) (h : Touches ps s₀ s) :
    Touches ps s₀ (writeSlotBias i w s) := by
  unfold writeSlotBias
  with_reducible repeat' first
    | assumption
    | intro _
    | apply touches_State_modSlot
    | apply touches_State_storeReg
    | apply touches_ite
    | (apply has_Reg_ENS_SLOT_BIAS; assumption)

theorem touches_writeSlotBiasHi {ps : List Part} {s₀ : State} (i : Nat) (w : Nat) (s : State) (rens : Part.regs .ens ∈ ps) (h : Touches ps s₀ s) :
    Touches ps s₀ (writeSlotBiasHi i w s) := by
  unfold writeSlotBiasHi
  with_reducible repeat' first
    | assumption
    | intro _
    | apply touches_State_storeReg
    | apply touches_ite
    | (apply has_Reg_ENS_SLOT_BIAS_HI; assumption)

theorem touches_writeSlotAsym {ps : List Part} {s₀ : State} (i : Nat) (w : Nat) (s : State) (hens : Part.ens ∈ ps) (rens : Part.regs .ens ∈ ps) (h : Touches ps s₀ s) :
    Touches ps s₀ (writeSlotAsym i w s) := by
  unfold writeSlotAsym
  with_reducible repeat' first
    | assumption
    | intro _
    | apply touches_State_modSlot
    | apply touches_State_storeReg
    | apply touches_ite
    | (apply has_Reg_ENS_SLOT_ASYM; assumption)

theorem touches_writeDecide {ps : List Part} {s₀ : State} (sender : Nat) (w : Nat) (s : State) (hens : Part.ens ∈ ps) (rens : Part.regs .ens ∈ ps) (h : Touches ps s₀ s) :
    Touches ps s₀ (writeDecide sender w s) := by
  unfold writeDecide
  with_reducible repeat' first
    | assumption
    | intro _
    | apply touches_State_hi
    | apply touches_State_storeReg
    | apply touches_ite
    | exact has_R_ENS_DECIDE_GO
    | (apply has_Reg_ENS_DECIDE; assumption)
    | dsimp only
    | split
    | apply touches_set_ens

theorem touches_writeAnchor {ps : List Part} {s₀ : State} (w : Nat) (s : State) (hens : Part.ens ∈ ps) (rens : Part.regs .ens ∈ ps) (h : Touches ps s₀ s) :
    Touches ps s₀ (writeAnchor w s) := by
  unfold writeAnchor
  with_reducible repeat' first
    | assumption
    | intro _
    | apply touches_State_storeReg
    | apply touches_ite
    | (apply has_Reg_ENS_ANCHOR; assumption)
    | dsimp only
    | split
    | apply touches_set_ens

theorem touches_recordRate {ps : List Part} {s₀ : State} (b : Bank) (s : State) (hens : Part.ens ∈ ps) (h : Touches ps s₀ s) :
    Touches ps s₀ (recordRate b s) := by
  unfold recordRate
  with_reducible repeat' first
    | assumption
    | intro _
    | apply touches_State_modFilter
    | apply touches_ite

theorem touches_driftRecord {ps : List Part} {s₀ : State} (s : State) (htick : Part.tick ∈ ps) (hlanes : Part.lanes ∈ ps) (hens : Part.ens ∈ ps) (h : Touches ps s₀ s) :
    Touches ps s₀ (driftRecord s) := by
  unfold driftRecord
  with_reducible repeat' first
    | assumption
    | intro _
    | apply touches_State_waitClk
    | apply touches_recordRate
    | apply touches_ite
    | dsimp only
    | split
    | apply touches_set_ens

theorem touches_takeShares {ps : List Part} {s₀ : State} (s : State) (hens : Part.ens ∈ ps) (hstack : Part.stack ∈ ps) (rens : Part.regs .ens ∈ ps) (h : Touches ps s₀ s) :
    Touches ps s₀ (takeShares s) := by
  unfold takeShares
  with_reducible repeat' first
    | assumption
    | intro _
    | apply touches_State_wr
    | apply touches_State_modSlot
    | apply touches_ite
    | exact has_R_ENS_SLOT_ASYM_A _
    | dsimp only
    | split
    | apply touches_set_stack

theorem touches_order1 {ps : List Part} {s₀ : State} (s : State) (hens : Part.ens ∈ ps) (hlog : Part.log ∈ ps) (hstack : Part.stack ∈ ps) (rens : Part.regs .ens ∈ ps) (rwch : Part.regs .wch ∈ ps) (h : Touches ps s₀ s) :
    Touches ps s₀ (order1 s) := by
  unfold order1
  with_reducible repeat' first
    | assumption
    | intro _
    | apply touches_takeShares
    | apply touches_anchorOrder1
    | apply touches_decideOrder1
    | apply touches_slotOrder1
    | apply touches_ite
    | apply touches_foldl

theorem touches_runSet {ps : List Part} {s₀ : State} (b : Bank) (dTc : Rat) (move : State → Rat × State) (s : State) (htick : Part.tick ∈ ps) (hens : Part.ens ∈ ps) (hlog : Part.log ∈ ps) (rtsc : Part.regs .tsc ∈ ps) (rens : Part.regs .ens ∈ ps) (rwch : Part.regs .wch ∈ ps) (g2 : ∀ s, Touches ps s₀ s → Touches ps s₀ (move s).2) (h : Touches ps s₀ s) :
    Touches ps s₀ (runSet b dTc move s).2 := by
  unfold runSet
  with_reducible repeat' first
    | assumption
    | intro _
    | apply g2
    | apply touches_setOrders2to7
    | apply touches_setOrder8
    | apply touches_State_modFilter
    | apply touches_publishFilter
    | apply touches_steer

theorem touches_noteReference {ps : List Part} {s₀ : State} (s : State) (hens : Part.ens ∈ ps) (h : Touches ps s₀ s) :
    Touches ps s₀ (noteReference s) := by
  unfold noteReference
  with_reducible repeat' first
    | assumption
    | intro _
    | apply touches_ite
    | dsimp only
    | split
    | apply touches_set_ens

theorem touches_runSets {ps : List Part} {s₀ : State} (due : Nat) (dTc : Rat) (s : State) (htick : Part.tick ∈ ps) (hens : Part.ens ∈ ps) (hlog : Part.log ∈ ps) (rtsc : Part.regs .tsc ∈ ps) (rens : Part.regs .ens ∈ ps) (rrfm : Part.regs .rfm ∈ ps) (rwch : Part.regs .wch ∈ ps) (h : Touches ps s₀ s) :
    Touches ps s₀ (runSets due dTc s) := by
  unfold runSets
  with_reducible repeat' first
    | assumption
    | intro _
    | apply touches_runSet
    | apply touches_efcUpdates
    | apply touches_ite
    | dsimp only
    | split

theorem touches_filterStep {ps : List Part} {s₀ : State} (temp : Nat) (s : State) (htick : Part.tick ∈ ps) (hlanes : Part.lanes ∈ ps) (hens : Part.ens ∈ ps) (htim : Part.tim ∈ ps) (hgnss : Part.gnss ∈ ps) (hlog : Part.log ∈ ps) (hstack : Part.stack ∈ ps) (hfw : Part.fw ∈ ps) (hwatch : Part.watch ∈ ps) (rtsc : Part.regs .tsc ∈ ps) (rens : Part.regs .ens ∈ ps) (rgns : Part.regs .gns ∈ ps) (rtim : Part.regs .tim ∈ ps) (rrfm : Part.regs .rfm ∈ ps) (rwch : Part.regs .wch ∈ ps) (h : Touches ps s₀ s) :
    Touches ps s₀ (filterStep temp s) := by
  unfold filterStep
  with_reducible repeat' first
    | assumption
    | intro _
    | apply touches_State_wr
    | apply touches_State_waitTs0
    | apply touches_State_count
    | apply touches_watchSchedule
    | apply touches_publish
    | apply touches_publishTs0
    | apply touches_noteReference
    | apply touches_runSets
    | apply touches_order1
    | apply touches_ite
    | exact has_R_ENS_TEMP_TEMP
    | dsimp only
    | split
    | apply touches_set_ens

theorem touches_withdrawPorts {ps : List Part} {s₀ : State} (s : State) (hens : Part.ens ∈ ps) (hlog : Part.log ∈ ps) (rens : Part.regs .ens ∈ ps) (rwch : Part.regs .wch ∈ ps) (h : Touches ps s₀ s) :
    Touches ps s₀ (withdrawPorts s) := by
  unfold withdrawPorts
  with_reducible repeat' first
    | assumption
    | intro _
    | apply touches_withdraw
    | apply touches_foldl
    | apply touches_ite

theorem touches_setLane {ps : List Part} {s₀ : State} (n : Nat) (st : Nat) (s : State) (hlanes : Part.lanes ∈ ps) (hens : Part.ens ∈ ps) (hlog : Part.log ∈ ps) (rdev : Part.regs .dev ∈ ps) (rens : Part.regs .ens ∈ ps) (rwch : Part.regs .wch ∈ ps) (rnts : Part.regs .nts ∈ ps) (rlane : Part.regs .lane ∈ ps) (h : Touches ps s₀ s) :
    Touches ps s₀ (setLane n st s) := by
  unfold setLane
  with_reducible repeat' first
    | assumption
    | intro _
    | apply touches_State_modLane
    | apply touches_withdrawPorts
    | apply touches_copyKeys
    | apply touches_State_logRec
    | apply touches_State_wr
    | apply touches_State_lo
    | apply touches_State_raise
    | apply touches_ite
    | exact has_R_TSC_LANE_STAT_STATE _
    | exact has_R_TSC_LANE_STAT_COAST_RUN _
    | exact has_Evt_laneCoast
    | exact has_Evt_laneFault
    | dsimp only
    | split

theorem touches_coastCycle {ps : List Part} {s₀ : State} (n : Nat) (s : State) (rlane : Part.regs .lane ∈ ps) (h : Touches ps s₀ s) :
    Touches ps s₀ (coastCycle n s) := by
  unfold coastCycle
  with_reducible repeat' first
    | assumption
    | intro _
    | apply touches_State_wr
    | apply touches_ite
    | exact has_R_TSC_LANE_STAT_COAST_RUN _

theorem touches_badPulse {ps : List Part} {s₀ : State} (n : Nat) (s : State) (hlanes : Part.lanes ∈ ps) (hens : Part.ens ∈ ps) (hlog : Part.log ∈ ps) (rdev : Part.regs .dev ∈ ps) (rens : Part.regs .ens ∈ ps) (rwch : Part.regs .wch ∈ ps) (rnts : Part.regs .nts ∈ ps) (rlane : Part.regs .lane ∈ ps) (h : Touches ps s₀ s) :
    Touches ps s₀ (badPulse n s) := by
  unfold badPulse
  with_reducible repeat' first
    | assumption
    | intro _
    | apply touches_State_count
    | apply touches_setLane
    | apply touches_coastCycle
    | apply touches_ite

theorem touches_loadSlave {ps : List Part} {s₀ : State} (n : Nat) (s : State) (hlanes : Part.lanes ∈ ps) (h : Touches ps s₀ s) :
    Touches ps s₀ (loadSlave n s) := by
  unfold loadSlave
  with_reducible repeat' first
    | assumption
    | intro _
    | apply touches_State_modLane

theorem touches_steerSlave {ps : List Part} {s₀ : State} (n : Nat) (e : Int) (s : State) (hlanes : Part.lanes ∈ ps) (h : Touches ps s₀ s) :
    Touches ps s₀ (steerSlave n e s) := by
  unfold steerSlave
  with_reducible repeat' first
    | assumption
    | intro _
    | apply touches_State_modLane

theorem touches_lanePulseRx {ps : List Part} {s₀ : State} (n : Nat) (sub : Nat) (s : State) (hlanes : Part.lanes ∈ ps) (hens : Part.ens ∈ ps) (hlog : Part.log ∈ ps) (rdev : Part.regs .dev ∈ ps) (rens : Part.regs .ens ∈ ps) (rwch : Part.regs .wch ∈ ps) (rnts : Part.regs .nts ∈ ps) (rlane : Part.regs .lane ∈ ps) (h : Touches ps s₀ s) :
    Touches ps s₀ (lanePulseRx n sub s) := by
  unfold lanePulseRx
  with_reducible repeat' first
    | assumption
    | intro _
    | apply touches_loadSlave
    | apply touches_State_wr
    | apply touches_badPulse
    | apply touches_coastCycle
    | apply touches_steerSlave
    | apply touches_ite
    | exact has_R_TSC_LANE_ERR_OUT_OF_BOUND _
    | exact has_R_TSC_LANE_OFS_OFS _
    | exact has_R_TSC_LANE_STAT_GOOD_RUN _

theorem touches_lanePulseMiss {ps : List Part} {s₀ : State} (n : Nat) (s : State) (hlanes : Part.lanes ∈ ps) (hens : Part.ens ∈ ps) (hlog : Part.log ∈ ps) (rdev : Part.regs .dev ∈ ps) (rens : Part.regs .ens ∈ ps) (rwch : Part.regs .wch ∈ ps) (rnts : Part.regs .nts ∈ ps) (rlane : Part.regs .lane ∈ ps) (h : Touches ps s₀ s) :
    Touches ps s₀ (lanePulseMiss n s) := by
  unfold lanePulseMiss
  with_reducible repeat' first
    | assumption
    | intro _
    | apply touches_State_lo
    | apply touches_badPulse
    | apply touches_State_wr
    | apply touches_ite
    | exact has_R_TSC_LANE_ERR_MISSED _
    | exact has_R_TSC_LANE_STAT_GOOD_RUN _

theorem touches_laneReturn {ps : List Part} {s₀ : State} (n : Nat) (dc : Nat) (bin : Nat) (s : State) (htick : Part.tick ∈ ps) (hlanes : Part.lanes ∈ ps) (htim : Part.tim ∈ ps) (rlane : Part.regs .lane ∈ ps) (h : Touches ps s₀ s) :
    Touches ps s₀ (laneReturn n dc bin s) := by
  unfold laneReturn
  with_reducible repeat' first
    | assumption
    | intro _
    | apply touches_State_waitTick
    | apply touches_noteEdge
    | apply touches_State_wr
    | apply touches_ite
    | exact has_R_TSC_LANE_DLY_DLY _

theorem touches_laneLock {ps : List Part} {s₀ : State} (n : Nat) (s : State) (hlanes : Part.lanes ∈ ps) (hens : Part.ens ∈ ps) (hlog : Part.log ∈ ps) (rdev : Part.regs .dev ∈ ps) (rens : Part.regs .ens ∈ ps) (rwch : Part.regs .wch ∈ ps) (rnts : Part.regs .nts ∈ ps) (rlane : Part.regs .lane ∈ ps) (h : Touches ps s₀ s) :
    Touches ps s₀ (laneLock n s) := by
  unfold laneLock
  with_reducible repeat' first
    | assumption
    | intro _
    | apply touches_setLane
    | apply touches_ite

theorem touches_coastLimit {ps : List Part} {s₀ : State} (n : Nat) (s : State) (hlanes : Part.lanes ∈ ps) (hens : Part.ens ∈ ps) (hlog : Part.log ∈ ps) (rdev : Part.regs .dev ∈ ps) (rens : Part.regs .ens ∈ ps) (rwch : Part.regs .wch ∈ ps) (rnts : Part.regs .nts ∈ ps) (rlane : Part.regs .lane ∈ ps) (h : Touches ps s₀ s) :
    Touches ps s₀ (coastLimit n s) := by
  unfold coastLimit
  with_reducible repeat' first
    | assumption
    | intro _
    | apply touches_setLane
    | apply touches_ite

theorem touches_launchPulse {ps : List Part} {s₀ : State} (s : State) (n : Nat) (hlanes : Part.lanes ∈ ps) (h : Touches ps s₀ s) :
    Touches ps s₀ (launchPulse s n) := by
  unfold launchPulse
  with_reducible repeat' first
    | assumption
    | intro _
    | apply touches_State_modLane
    | apply touches_ite

theorem touches_countMarker {ps : List Part} {s₀ : State} (b : Bank) (s : State) (htick : Part.tick ∈ ps) (h : Touches ps s₀ s) :
    Touches ps s₀ (countMarker b s) := by
  unfold countMarker
  with_reducible repeat' first
    | assumption
    | intro _
    | apply touches_State_modBank

theorem touches_epochMarker {ps : List Part} {s₀ : State} (s : State) (htick : Part.tick ∈ ps) (hlanes : Part.lanes ∈ ps) (hens : Part.ens ∈ ps) (hlog : Part.log ∈ ps) (hstack : Part.stack ∈ ps) (rens : Part.regs .ens ∈ ps) (rmor : Part.regs .mor ∈ ps) (rwch : Part.regs .wch ∈ ps) (h : Touches ps s₀ s) :
    Touches ps s₀ (epochMarker s) := by
  unfold epochMarker
  with_reducible repeat' first
    | assumption
    | intro _
    | apply touches_State_count
    | apply touches_State_waitTick
    | apply touches_countMarker
    | apply touches_stackMarker
    | apply touches_launchPulse
    | apply touches_ite
    | apply touches_foldl
    | dsimp only
    | split
    | apply touches_set_tick

theorem touches_applyStep {ps : List Part} {s₀ : State} (b : Bank) (s : State) (htick : Part.tick ∈ ps) (hlanes : Part.lanes ∈ ps) (hens : Part.ens ∈ ps) (htim : Part.tim ∈ ps) (hlog : Part.log ∈ ps) (hsrv : Part.srv ∈ ps) (hfw : Part.fw ∈ ps) (rtsc : Part.regs .tsc ∈ ps) (rens : Part.regs .ens ∈ ps) (rtim : Part.regs .tim ∈ ps) (rwch : Part.regs .wch ∈ ps) (rntp : Part.regs .ntp ∈ ps) (rptp : Part.regs .ptp ∈ ps) (h : Touches ps s₀ s) :
    Touches ps s₀ (applyStep b s) := by
  unfold applyStep
  with_reducible repeat' first
    | assumption
    | intro _
    | apply touches_dropStep
    | apply touches_stepApply
    | apply touches_State_modBank
    | apply touches_bcStepSkips
    | apply touches_ptpStepSkips
    | apply touches_foldl
    | apply touches_ite
    | dsimp only
    | split
    | apply touches_set_ens

end Sys2Proof.Machine
end

