-- ==== Sys2Proof/Laws/TouchesSystem.lean ====
section
/-! SUPPORT. What the operations of power, reset, register access, boot and the command packets touch: one lemma per operation. -/

namespace Sys2Proof.Machine

theorem touches_State_modPower {ps : List Part} {s₀ : State} (s : State) (f : Power → Power) (hpower : Part.power ∈ ps) (h : Touches ps s₀ s) :
    Touches ps s₀ (State.modPower s f) := by
  unfold State.modPower
  with_reducible repeat' first
    | assumption
    | intro _
    | apply touches_ite
    | dsimp only
    | split
    | apply touches_set_power

theorem touches_setSaving {ps : List Part} {s₀ : State} (i : Nat) (v : Nat) (s : State) (hpower : Part.power ∈ ps) (h : Touches ps s₀ s) :
    Touches ps s₀ (setSaving i v s) := by
  unfold setSaving
  with_reducible repeat' first
    | assumption
    | intro _
    | apply touches_State_modPower

theorem touches_writePwrCtl {ps : List Part} {s₀ : State} (w : Nat) (s : State) (rpwr : Part.regs .pwr ∈ ps) (h : Touches ps s₀ s) :
    Touches ps s₀ (writePwrCtl w s) := by
  unfold writePwrCtl
  with_reducible repeat' first
    | assumption
    | intro _
    | apply touches_State_wr
    | apply touches_ite
    | exact has_R_PWR_CTL_BUDGET

theorem touches_showCond {ps : List Part} {s₀ : State} (f : Field) (evt : Nat) (v : Bool) (s : State) {b0 : Block} (rpwr : Part.regs .pwr ∈ ps) (k0 : b0.has f.key = true) (rb0 : Part.regs b0 ∈ ps) (h : Touches ps s₀ s) :
    Touches ps s₀ (showCond f evt v s) := by
  unfold showCond
  with_reducible repeat' first
    | assumption
    | intro _
    | apply k0
    | apply touches_State_wr
    | apply touches_State_raise
    | apply touches_ite
    | exact has_Evt_pwr

theorem touches_emptyTables {ps : List Part} {s₀ : State} (n : Nat) (s : State) (hsrv : Part.srv ∈ ps) (h : Touches ps s₀ s) :
    Touches ps s₀ (emptyTables n s) := by
  unfold emptyTables
  with_reducible repeat' first
    | assumption
    | intro _
    | apply touches_ite
    | dsimp only
    | split
    | apply touches_set_srv

theorem touches_dieDown {ps : List Part} {s₀ : State} (n : Nat) (s : State) (hlanes : Part.lanes ∈ ps) (hens : Part.ens ∈ ps) (hlog : Part.log ∈ ps) (hsrv : Part.srv ∈ ps) (hmbx : Part.mbx ∈ ps) (hfw : Part.fw ∈ ps) (rdev : Part.regs .dev ∈ ps) (rens : Part.regs .ens ∈ ps) (rmbx : Part.regs .mbx ∈ ps) (rwch : Part.regs .wch ∈ ps) (rnts : Part.regs .nts ∈ ps) (rlane : Part.regs .lane ∈ ps) (h : Touches ps s₀ s) :
    Touches ps s₀ (dieDown n s) := by
  unfold dieDown
  with_reducible repeat' first
    | assumption
    | intro _
    | apply touches_setLane
    | apply touches_State_modLane
    | apply touches_orphanFor
    | apply touches_emptyTables
    | apply touches_State_lo
    | exact has_R_TSC_LANE_STAT_GOOD_RUN _
    | exact has_upField _

theorem touches_dieUp {ps : List Part} {s₀ : State} (n : Nat) (s : State) (hlanes : Part.lanes ∈ ps) (hens : Part.ens ∈ ps) (hlog : Part.log ∈ ps) (rdev : Part.regs .dev ∈ ps) (rens : Part.regs .ens ∈ ps) (rwch : Part.regs .wch ∈ ps) (rnts : Part.regs .nts ∈ ps) (rlane : Part.regs .lane ∈ ps) (h : Touches ps s₀ s) :
    Touches ps s₀ (dieUp n s) := by
  unfold dieUp
  with_reducible repeat' first
    | assumption
    | intro _
    | apply touches_setLane
    | apply touches_State_hi
    | apply touches_ite
    | exact has_upField _

theorem touches_sleepDies {ps : List Part} {s₀ : State} (s : State) (hlanes : Part.lanes ∈ ps) (hens : Part.ens ∈ ps) (hlog : Part.log ∈ ps) (hsrv : Part.srv ∈ ps) (hmbx : Part.mbx ∈ ps) (hfw : Part.fw ∈ ps) (hpower : Part.power ∈ ps) (rdev : Part.regs .dev ∈ ps) (rens : Part.regs .ens ∈ ps) (rmbx : Part.regs .mbx ∈ ps) (rpwr : Part.regs .pwr ∈ ps) (rwch : Part.regs .wch ∈ ps) (rnts : Part.regs .nts ∈ ps) (rlane : Part.regs .lane ∈ ps) (h : Touches ps s₀ s) :
    Touches ps s₀ (sleepDies s) := by
  unfold sleepDies
  with_reducible repeat' first
    | assumption
    | intro _
    | apply touches_State_wr
    | apply touches_setSaving
    | apply touches_dieDown
    | apply touches_ite
    | apply touches_foldl
    | exact has_R_PWR_DIE_SLEEP_ASLEEP

theorem touches_doCut {ps : List Part} {s₀ : State} (c : Cut) (s : State) (hgnss : Part.gnss ∈ ps) (hsrv : Part.srv ∈ ps) (hrings : Part.rings ∈ ps) (hwatch : Part.watch ∈ ps) (hpower : Part.power ∈ ps) (rgns : Part.regs .gns ∈ ps) (rpwr : Part.regs .pwr ∈ ps) (rmac : Part.regs .mac ∈ ps) (rnts : Part.regs .nts ∈ ps) (rring : Part.regs .ring ∈ ps) (h : Touches ps s₀ s) :
    Touches ps s₀ (doCut c s) := by
  unfold doCut
  with_reducible repeat' first
    | assumption
    | intro _
    | apply touches_State_modPower
    | apply touches_State_count
    | apply touches_State_modNts
    | apply touches_setSaving
    | apply touches_State_raise
    | apply touches_parkIdle
    | apply touches_State_modPort
    | apply touches_setLink
    | apply touches_State_wr
    | apply touches_gnsSleep
    | apply touches_ite
    | exact has_Evt_pwr
    | exact has_R_PWR_PORT_PARKED_PORTS
    | dsimp only
    | split

theorem touches_napGroups {ps : List Part} {s₀ : State} (s : State) (htim : Part.tim ∈ ps) (h : Touches ps s₀ s) :
    Touches ps s₀ (napGroups s) := by
  unfold napGroups
  with_reducible repeat' first
    | assumption
    | intro _
    | apply touches_State_modGroup
    | apply touches_ite
    | apply touches_foldl

theorem touches_arbiterEval {ps : List Part} {s₀ : State} (demand : Nat) (temp : Int) (die : Nat) (s : State) (htick : Part.tick ∈ ps) (hlanes : Part.lanes ∈ ps) (hens : Part.ens ∈ ps) (htim : Part.tim ∈ ps) (hgnss : Part.gnss ∈ ps) (hlog : Part.log ∈ ps) (hsrv : Part.srv ∈ ps) (hrings : Part.rings ∈ ps) (hmbx : Part.mbx ∈ ps) (hfw : Part.fw ∈ ps) (hwatch : Part.watch ∈ ps) (hpower : Part.power ∈ ps) (rdev : Part.regs .dev ∈ ps) (rens : Part.regs .ens ∈ ps) (rgns : Part.regs .gns ∈ ps) (rmbx : Part.regs .mbx ∈ ps) (rpwr : Part.regs .pwr ∈ ps) (rwch : Part.regs .wch ∈ ps) (rmac : Part.regs .mac ∈ ps) (rnts : Part.regs .nts ∈ ps) (rlane : Part.regs .lane ∈ ps) (rring : Part.regs .ring ∈ ps) (h : Touches ps s₀ s) :
    Touches ps s₀ (arbiterEval demand temp die s) := by
  unfold arbiterEval
  with_reducible repeat' first
    | assumption
    | intro _
    | apply touches_State_waitClk
    | apply touches_State_modPower
    | apply touches_State_wr
    | apply touches_showCond
    | apply touches_doCut
    | apply touches_napGroups
    | apply touches_sleepDies
    | apply touches_ite
    | exact has_R_PWR_STAT_DERATE
    | exact has_R_PWR_STAT_EFFECTIVE
    | exact has_R_PWR_STAT_GRANTED
    | exact has_R_PWR_STAT_OVERTEMP
    | exact has_R_PWR_STAT_SHORT
    | exact has_R_PWR_TEMP_DIE
    | exact has_R_PWR_TEMP_TJ
    | dsimp only
    | split

theorem touches_beginWake {ps : List Part} {s₀ : State} (i : Nat) (d : Nat) (s : State) (hpower : Part.power ∈ ps) (h : Touches ps s₀ s) :
    Touches ps s₀ (beginWake i d s) := by
  unfold beginWake
  with_reducible repeat' first
    | assumption
    | intro _
    | apply touches_State_modPower

theorem touches_undoCut {ps : List Part} {s₀ : State} (c : Cut) (s : State) (hgnss : Part.gnss ∈ ps) (hsrv : Part.srv ∈ ps) (hwatch : Part.watch ∈ ps) (hpower : Part.power ∈ ps) (rgns : Part.regs .gns ∈ ps) (rpwr : Part.regs .pwr ∈ ps) (rnts : Part.regs .nts ∈ ps) (h : Touches ps s₀ s) :
    Touches ps s₀ (undoCut c s) := by
  unfold undoCut
  with_reducible repeat' first
    | assumption
    | intro _
    | apply touches_State_wr
    | apply touches_dispatchNts
    | apply touches_State_modNts
    | apply touches_setSaving
    | apply touches_beginWake
    | apply touches_wakeEarly
    | apply touches_ite
    | exact has_R_PWR_PORT_PARKED_PORTS
    | exact has_parkedField _
    | dsimp only
    | split

theorem touches_arbiterRestore {ps : List Part} {s₀ : State} (demand : Nat) (s : State) (htick : Part.tick ∈ ps) (hlanes : Part.lanes ∈ ps) (hgnss : Part.gnss ∈ ps) (hsrv : Part.srv ∈ ps) (hwatch : Part.watch ∈ ps) (hpower : Part.power ∈ ps) (rgns : Part.regs .gns ∈ ps) (rpwr : Part.regs .pwr ∈ ps) (rnts : Part.regs .nts ∈ ps) (h : Touches ps s₀ s) :
    Touches ps s₀ (arbiterRestore demand s) := by
  unfold arbiterRestore
  with_reducible repeat' first
    | assumption
    | intro _
    | apply touches_State_modPower
    | apply touches_State_waitClk
    | apply touches_undoCut
    | apply touches_ite
    | dsimp only
    | split

theorem touches_islandWake {ps : List Part} {s₀ : State} (i : Nat) (s : State) (hlanes : Part.lanes ∈ ps) (hens : Part.ens ∈ ps) (hlog : Part.log ∈ ps) (hsrv : Part.srv ∈ ps) (hpower : Part.power ∈ ps) (rdev : Part.regs .dev ∈ ps) (rens : Part.regs .ens ∈ ps) (rpwr : Part.regs .pwr ∈ ps) (rwch : Part.regs .wch ∈ ps) (rnts : Part.regs .nts ∈ ps) (rlane : Part.regs .lane ∈ ps) (h : Touches ps s₀ s) :
    Touches ps s₀ (islandWake i s) := by
  unfold islandWake
  with_reducible repeat' first
    | assumption
    | intro _
    | apply touches_setSaving
    | apply touches_State_modPower
    | apply touches_dispatchNts
    | apply touches_State_wr
    | apply touches_State_modPort
    | apply touches_dieUp
    | apply touches_ite
    | exact has_R_NTS_ENG_STAT_PARKED _
    | exact has_R_PWR_DIE_SLEEP_ASLEEP

theorem touches_resetRegs {ps : List Part} {s₀ : State} (a0 : Nat) (a1 : Nat) (a2 : Nat → Bool) (s : State) (hall : ∀ b, Part.regs b ∈ ps) (h : Touches ps s₀ s) :
    Touches ps s₀ (resetRegs a0 a1 a2 s) :=
  ⟨fun p hp => by have := h.1 p hp; cases p <;> first | exact this | exact absurd (hall _) hp,
    fun k => ⟨IMap.wfFrom_filter _ (h.2 k).1, (h.2 k).2⟩⟩

theorem touches_loseStamps {ps : List Part} {s₀ : State} (p : Nat) (s : State) (hsrv : Part.srv ∈ ps) (hrings : Part.rings ∈ ps) (rring : Part.regs .ring ∈ ps) (h : Touches ps s₀ s) :
    Touches ps s₀ (loseStamps p s) := by
  unfold loseStamps
  with_reducible repeat' first
    | assumption
    | intro _
    | apply touches_drain
    | apply touches_State_modRing
    | apply touches_ite
    | apply touches_foldl

theorem touches_clearDie {ps : List Part} {s₀ : State} (n : Nat) (s : State) (hsrv : Part.srv ∈ ps) (hall : ∀ b, Part.regs b ∈ ps) (h : Touches ps s₀ s) :
    Touches ps s₀ (clearDie n s) := by
  unfold clearDie
  with_reducible repeat' first
    | assumption
    | intro _
    | apply touches_resetRegs
    | apply touches_State_modPort
    | apply touches_wr_all
    | apply touches_foldl
    | apply touches_ite
    | apply touches_foldl_fst
    | exact has_parkedField _
    | exact has_R_NTS_ENG_STAT_PARKED _
    | apply hall
    | dsimp only
    | split
    | apply touches_set_srv

theorem touches_resetDie {ps : List Part} {s₀ : State} (n : Nat) (s : State) (htick : Part.tick ∈ ps) (hlanes : Part.lanes ∈ ps) (hens : Part.ens ∈ ps) (htim : Part.tim ∈ ps) (hgnss : Part.gnss ∈ ps) (hlog : Part.log ∈ ps) (hsrv : Part.srv ∈ ps) (hrings : Part.rings ∈ ps) (hstack : Part.stack ∈ ps) (hmbx : Part.mbx ∈ ps) (hfw : Part.fw ∈ ps) (hwatch : Part.watch ∈ ps) (hall : ∀ b, Part.regs b ∈ ps) (h : Touches ps s₀ s) :
    Touches ps s₀ (resetDie n s) := by
  unfold resetDie
  with_reducible repeat' first
    | assumption
    | intro _
    | apply touches_resetRegs
    | apply touches_settleEnded
    | apply touches_breakRun
    | apply touches_flushQueues
    | apply touches_setLink
    | apply touches_loseStamps
    | apply touches_clearKeys
    | apply touches_dieDown
    | apply touches_endRunning
    | apply touches_clearCounts
    | apply touches_clearDie
    | apply touches_foldl
    | apply hall

theorem touches_dropHost {ps : List Part} {s₀ : State} (qs : List Nat) (s : State) (p : Nat) (hsrv : Part.srv ∈ ps) (h : Touches ps s₀ s) :
    Touches ps s₀ (dropHost qs s p) := by
  unfold dropHost
  with_reducible repeat' first
    | assumption
    | intro _
    | apply touches_State_modPort
    | apply touches_mac
    | apply touches_ite

theorem touches_resetFn {ps : List Part} {s₀ : State} (f : Nat) (s : State) (hsrv : Part.srv ∈ ps) (hrings : Part.rings ∈ ps) (hmbx : Part.mbx ∈ ps) (hfw : Part.fw ∈ ps) (hall : ∀ b, Part.regs b ∈ ps) (h : Touches ps s₀ s) :
    Touches ps s₀ (resetFn f s) := by
  unfold resetFn
  with_reducible repeat' first
    | assumption
    | intro _
    | apply touches_settleEnded
    | apply touches_dropHost
    | apply touches_resetRegs
    | apply touches_abortFor
    | apply touches_orphanFor
    | apply touches_State_lo
    | apply touches_foldl
    | apply touches_foldl_fst
    | exact has_R_MBX_EVT_BITS _
    | apply hall
    | dsimp only
    | split
    | apply touches_set_rings
    | apply touches_set_fw

theorem touches_functionReset {ps : List Part} {s₀ : State} (f : Nat) (s : State) (hsrv : Part.srv ∈ ps) (hrings : Part.rings ∈ ps) (hmbx : Part.mbx ∈ ps) (hfw : Part.fw ∈ ps) (hall : ∀ b, Part.regs b ∈ ps) (h : Touches ps s₀ s) :
    Touches ps s₀ (functionReset f s) := by
  unfold functionReset
  with_reducible repeat' first
    | assumption
    | intro _
    | apply touches_resetFn
    | apply touches_ite

theorem touches_beginFlr {ps : List Part} {s₀ : State} (f : Nat) (s : State) (hsrv : Part.srv ∈ ps) (hrings : Part.rings ∈ ps) (hmbx : Part.mbx ∈ ps) (hfw : Part.fw ∈ ps) (hpcie : Part.pcie ∈ ps) (hall : ∀ b, Part.regs b ∈ ps) (h : Touches ps s₀ s) :
    Touches ps s₀ (beginFlr f s) := by
  unfold beginFlr
  with_reducible repeat' first
    | assumption
    | intro _
    | apply touches_resetFn
    | apply touches_ite
    | apply hall
    | dsimp only
    | split
    | apply touches_set_pcie

theorem touches_perst {ps : List Part} {s₀ : State} (s : State) (hsrv : Part.srv ∈ ps) (hrings : Part.rings ∈ ps) (hmbx : Part.mbx ∈ ps) (hfw : Part.fw ∈ ps) (hpcie : Part.pcie ∈ ps) (hall : ∀ b, Part.regs b ∈ ps) (h : Touches ps s₀ s) :
    Touches ps s₀ (perst s) := by
  unfold perst
  with_reducible repeat' first
    | assumption
    | intro _
    | apply touches_functionReset
    | apply hall
    | dsimp only
    | split
    | apply touches_set_pcie

theorem touches_perstRise {ps : List Part} {s₀ : State} (s : State) (hpcie : Part.pcie ∈ ps) (h : Touches ps s₀ s) :
    Touches ps s₀ (perstRise s) := by
  unfold perstRise
  with_reducible repeat' first
    | assumption
    | intro _
    | apply touches_ite
    | dsimp only
    | split
    | apply touches_set_pcie

theorem touches_coldState {ps : List Part} {s₀ : State} (a0 : Bool) (s : State) (hmem : Part.mem ∈ ps) (htick : Part.tick ∈ ps) (hlanes : Part.lanes ∈ ps) (hens : Part.ens ∈ ps) (hrfm : Part.rfm ∈ ps) (htim : Part.tim ∈ ps) (hgnss : Part.gnss ∈ ps) (hlog : Part.log ∈ ps) (hsrv : Part.srv ∈ ps) (hrings : Part.rings ∈ ps) (hstack : Part.stack ∈ ps) (hmbx : Part.mbx ∈ ps) (hfw : Part.fw ∈ ps) (hpcie : Part.pcie ∈ ps) (hwatch : Part.watch ∈ ps) (hpower : Part.power ∈ ps) (hrst : Part.rst ∈ ps) (hcfg : Part.cfg ∈ ps) (hall : ∀ b, Part.regs b ∈ ps) :
    Touches ps s₀ (coldState a0 s) :=
  ⟨fun p hp => by cases p <;> first | contradiction | exact absurd (hall _) hp, fun _ => ⟨rfl, rfl⟩⟩

theorem touches_engineUnset {ps : List Part} {s₀ : State} (sender : Nat) (b : Bank) (s : State) (hlog : Part.log ∈ ps) (rens : Part.regs .ens ∈ ps) (rwch : Part.regs .wch ∈ ps) (h : Touches ps s₀ s) :
    Touches ps s₀ (engineUnset sender b s) := by
  unfold engineUnset
  with_reducible repeat' first
    | assumption
    | intro _
    | apply touches_setEngBy

theorem touches_warmEns {ps : List Part} {s₀ : State} (ts : Bool) (sender : Nat) (s : State) (hens : Part.ens ∈ ps) (hlog : Part.log ∈ ps) (rens : Part.regs .ens ∈ ps) (rwch : Part.regs .wch ∈ ps) (h : Touches ps s₀ s) :
    Touches ps s₀ (warmEns ts sender s) := by
  unfold warmEns
  with_reducible repeat' first
    | assumption
    | intro _
    | apply touches_setSrcBy
    | apply touches_engineUnset
    | apply touches_enterHoldover
    | apply touches_State_lo
    | apply touches_foldl
    | apply touches_ite
    | exact has_R_ENS_EVT_BITS

theorem touches_warmRfm {ps : List Part} {s₀ : State} (old : State) (s : State) (p : Nat) (hrfm : Part.rfm ∈ ps) (rrfm : Part.regs .rfm ∈ ps) (h : Touches ps s₀ s) :
    Touches ps s₀ (warmRfm old s p) := by
  unfold warmRfm
  with_reducible repeat' first
    | assumption
    | intro _
    | apply touches_State_modRfm
    | apply touches_State_wr
    | apply touches_ite
    | exact has_R_RFM_STAT_EFC_RAIL _
    | exact has_R_RFM_STAT_ALM _
    | exact has_R_RFM_STAT_STATE _

theorem touches_warmOut {ps : List Part} {s₀ : State} (old : State) (s : State) (o : Nat) (htim : Part.tim ∈ ps) (rtim : Part.regs .tim ∈ ps) (h : Touches ps s₀ s) :
    Touches ps s₀ (warmOut old s o) := by
  unfold warmOut
  with_reducible repeat' first
    | assumption
    | intro _
    | apply touches_setOut
    | apply touches_State_modOut
    | apply touches_ite

theorem touches_warmGroup {ps : List Part} {s₀ : State} (old : State) (s : State) (g : Nat) (htim : Part.tim ∈ ps) (h : Touches ps s₀ s) :
    Touches ps s₀ (warmGroup old s g) := by
  unfold warmGroup
  with_reducible repeat' first
    | assumption
    | intro _
    | apply touches_State_modGroup
    | apply touches_State_modChan
    | apply touches_foldl
    | apply touches_ite

theorem touches_warmBase {ps : List Part} {s₀ : State} (s : State) (hmem : Part.mem ∈ ps) (hlanes : Part.lanes ∈ ps) (hens : Part.ens ∈ ps) (hrfm : Part.rfm ∈ ps) (htim : Part.tim ∈ ps) (hgnss : Part.gnss ∈ ps) (hsrv : Part.srv ∈ ps) (hrings : Part.rings ∈ ps) (hstack : Part.stack ∈ ps) (hmbx : Part.mbx ∈ ps) (hfw : Part.fw ∈ ps) (hwatch : Part.watch ∈ ps) (hpower : Part.power ∈ ps) (hrst : Part.rst ∈ ps) (hcfg : Part.cfg ∈ ps) (hall : ∀ b, Part.regs b ∈ ps) (h : Touches ps s₀ s) :
    Touches ps s₀ (warmBase s) :=
  ⟨fun p hp => by have := h.1 p hp; cases p <;> first | exact this | contradiction | exact absurd (hall _) hp,
    fun k => ⟨IMap.wfFrom_filter _ (h.2 k).1, rfl⟩⟩

theorem touches_warmState {ps : List Part} {s₀ : State} (ts : Bool) (sender : Nat) (s : State) (hmem : Part.mem ∈ ps) (hlanes : Part.lanes ∈ ps) (hens : Part.ens ∈ ps) (hrfm : Part.rfm ∈ ps) (htim : Part.tim ∈ ps) (hgnss : Part.gnss ∈ ps) (hlog : Part.log ∈ ps) (hsrv : Part.srv ∈ ps) (hrings : Part.rings ∈ ps) (hstack : Part.stack ∈ ps) (hmbx : Part.mbx ∈ ps) (hfw : Part.fw ∈ ps) (hwatch : Part.watch ∈ ps) (hpower : Part.power ∈ ps) (hrst : Part.rst ∈ ps) (hcfg : Part.cfg ∈ ps) (hall : ∀ b, Part.regs b ∈ ps) (h : Touches ps s₀ s) :
    Touches ps s₀ (warmState ts sender s) := by
  unfold warmState
  with_reducible repeat' first
    | assumption
    | intro _
    | apply touches_warmEns
    | apply touches_warmBase
    | apply touches_warmRfm
    | apply touches_warmOut
    | apply touches_warmGroup
    | apply touches_State_modGnsPort
    | apply touches_State_modPort
    | apply touches_manualNotch
    | apply touches_assignChan
    | apply touches_wr_all
    | apply touches_foldl
    | apply touches_ite
    | exact has_R_NTS_ENG_STAT_PARKED _
    | exact has_R_GNS_STAT_ACTIVE_ANT
    | apply hall

theorem touches_dropBias {ps : List Part} {s₀ : State} (s : State) (i : Nat) (hens : Part.ens ∈ ps) (rens : Part.regs .ens ∈ ps) (h : Touches ps s₀ s) :
    Touches ps s₀ (dropBias s i) := by
  unfold dropBias
  with_reducible repeat' first
    | assumption
    | intro _
    | apply touches_State_lo
    | apply touches_State_modSlot
    | apply touches_ite
    | exact has_R_ENS_SLOT_BIAS_B _
    | exact has_R_ENS_SLOT_BIAS_HI_B _
    | exact has_R_ENS_SLOT_STAT_BIAS_OK _

theorem touches_warmTs {ps : List Part} {s₀ : State} (s : State) (htick : Part.tick ∈ ps) (hens : Part.ens ∈ ps) (htim : Part.tim ∈ ps) (hstack : Part.stack ∈ ps) (hall : ∀ b, Part.regs b ∈ ps) (h : Touches ps s₀ s) :
    Touches ps s₀ (warmTs s) := by
  unfold warmTs
  with_reducible repeat' first
    | assumption
    | intro _
    | apply touches_resetRegs
    | apply touches_dropBias
    | apply touches_stepMeetsOut
    | apply touches_wr_all
    | apply touches_foldl
    | apply touches_foldl_fst
    | apply hall
    | dsimp only
    | split
    | apply touches_set_tick_ens_stack

theorem touches_resetScope {ps : List Part} {s₀ : State} (k : ResetKind) (sender : Nat) (s : State) (hmem : Part.mem ∈ ps) (htick : Part.tick ∈ ps) (hlanes : Part.lanes ∈ ps) (hens : Part.ens ∈ ps) (hrfm : Part.rfm ∈ ps) (htim : Part.tim ∈ ps) (hgnss : Part.gnss ∈ ps) (hlog : Part.log ∈ ps) (hsrv : Part.srv ∈ ps) (hrings : Part.rings ∈ ps) (hstack : Part.stack ∈ ps) (hmbx : Part.mbx ∈ ps) (hfw : Part.fw ∈ ps) (hpcie : Part.pcie ∈ ps) (hwatch : Part.watch ∈ ps) (hpower : Part.power ∈ ps) (hrst : Part.rst ∈ ps) (hcfg : Part.cfg ∈ ps) (hall : ∀ b, Part.regs b ∈ ps) (h : Touches ps s₀ s) :
    Touches ps s₀ (resetScope k sender s) := by
  unfold resetScope
  with_reducible repeat' first
    | assumption
    | intro _
    | apply touches_coldState
    | apply touches_abortFor
    | apply touches_warmTs
    | apply touches_warmState
    | apply touches_resetDie
    | apply hall
    | dsimp only
    | split

theorem touches_beginReset {ps : List Part} {s₀ : State} (k : ResetKind) (sender : Nat) (s : State) (hmem : Part.mem ∈ ps) (htick : Part.tick ∈ ps) (hlanes : Part.lanes ∈ ps) (hens : Part.ens ∈ ps) (hrfm : Part.rfm ∈ ps) (htim : Part.tim ∈ ps) (hgnss : Part.gnss ∈ ps) (hlog : Part.log ∈ ps) (hsrv : Part.srv ∈ ps) (hrings : Part.rings ∈ ps) (hstack : Part.stack ∈ ps) (hmbx : Part.mbx ∈ ps) (hfw : Part.fw ∈ ps) (hpcie : Part.pcie ∈ ps) (hwatch : Part.watch ∈ ps) (hpower : Part.power ∈ ps) (hrst : Part.rst ∈ ps) (hcfg : Part.cfg ∈ ps) (hall : ∀ b, Part.regs b ∈ ps) (h : Touches ps s₀ s) :
    Touches ps s₀ (beginReset k sender s) := by
  unfold beginReset
  with_reducible repeat' first
    | assumption
    | intro _
    | apply touches_resetScope
    | apply touches_ite
    | apply hall
    | dsimp only
    | split
    | apply touches_set_rst

theorem touches_writeRstCtl {ps : List Part} {s₀ : State} (id : Nat) (w : Nat) (s : State) (hmem : Part.mem ∈ ps) (htick : Part.tick ∈ ps) (hlanes : Part.lanes ∈ ps) (hens : Part.ens ∈ ps) (hrfm : Part.rfm ∈ ps) (htim : Part.tim ∈ ps) (hgnss : Part.gnss ∈ ps) (hlog : Part.log ∈ ps) (hsrv : Part.srv ∈ ps) (hrings : Part.rings ∈ ps) (hstack : Part.stack ∈ ps) (hmbx : Part.mbx ∈ ps) (hfw : Part.fw ∈ ps) (hpcie : Part.pcie ∈ ps) (hwatch : Part.watch ∈ ps) (hpower : Part.power ∈ ps) (hrst : Part.rst ∈ ps) (hcfg : Part.cfg ∈ ps) (hall : ∀ b, Part.regs b ∈ ps) (h : Touches ps s₀ s) :
    Touches ps s₀ (writeRstCtl id w s) := by
  unfold writeRstCtl
  with_reducible repeat' first
    | assumption
    | intro _
    | apply touches_beginReset
    | apply touches_State_wr
    | apply touches_State_raise
    | apply touches_ite
    | exact has_Evt_pwr
    | exact has_R_PWR_RST_CTL_KIND
    | apply hall
    | dsimp only
    | split

theorem touches_resetBegin {ps : List Part} {s₀ : State} (s : State) (hmem : Part.mem ∈ ps) (htick : Part.tick ∈ ps) (hlanes : Part.lanes ∈ ps) (hens : Part.ens ∈ ps) (hrfm : Part.rfm ∈ ps) (htim : Part.tim ∈ ps) (hgnss : Part.gnss ∈ ps) (hlog : Part.log ∈ ps) (hsrv : Part.srv ∈ ps) (hrings : Part.rings ∈ ps) (hstack : Part.stack ∈ ps) (hmbx : Part.mbx ∈ ps) (hfw : Part.fw ∈ ps) (hpcie : Part.pcie ∈ ps) (hwatch : Part.watch ∈ ps) (hpower : Part.power ∈ ps) (hrst : Part.rst ∈ ps) (hcfg : Part.cfg ∈ ps) (hall : ∀ b, Part.regs b ∈ ps) (h : Touches ps s₀ s) :
    Touches ps s₀ (resetBegin s) := by
  unfold resetBegin
  with_reducible repeat' first
    | assumption
    | intro _
    | apply touches_State_waitClk
    | apply touches_beginReset
    | apply hall
    | dsimp only
    | split
    | apply touches_set_rst

theorem touches_porLow {ps : List Part} {s₀ : State} (ns : Nat) (rises : Bool) (s : State) (hmem : Part.mem ∈ ps) (htick : Part.tick ∈ ps) (hlanes : Part.lanes ∈ ps) (hens : Part.ens ∈ ps) (hrfm : Part.rfm ∈ ps) (htim : Part.tim ∈ ps) (hgnss : Part.gnss ∈ ps) (hlog : Part.log ∈ ps) (hsrv : Part.srv ∈ ps) (hrings : Part.rings ∈ ps) (hstack : Part.stack ∈ ps) (hmbx : Part.mbx ∈ ps) (hfw : Part.fw ∈ ps) (hpcie : Part.pcie ∈ ps) (hwatch : Part.watch ∈ ps) (hpower : Part.power ∈ ps) (hrst : Part.rst ∈ ps) (hcfg : Part.cfg ∈ ps) (hall : ∀ b, Part.regs b ∈ ps) (h : Touches ps s₀ s) :
    Touches ps s₀ (porLow ns rises s) := by
  unfold porLow
  with_reducible repeat' first
    | assumption
    | intro _
    | apply touches_beginReset
    | apply touches_ite
    | apply hall
    | dsimp only
    | split
    | apply touches_set_rst

theorem touches_watchdogExpire {ps : List Part} {s₀ : State} (s : State) (hmem : Part.mem ∈ ps) (htick : Part.tick ∈ ps) (hlanes : Part.lanes ∈ ps) (hens : Part.ens ∈ ps) (hrfm : Part.rfm ∈ ps) (htim : Part.tim ∈ ps) (hgnss : Part.gnss ∈ ps) (hlog : Part.log ∈ ps) (hsrv : Part.srv ∈ ps) (hrings : Part.rings ∈ ps) (hstack : Part.stack ∈ ps) (hmbx : Part.mbx ∈ ps) (hfw : Part.fw ∈ ps) (hpcie : Part.pcie ∈ ps) (hwatch : Part.watch ∈ ps) (hpower : Part.power ∈ ps) (hrst : Part.rst ∈ ps) (hcfg : Part.cfg ∈ ps) (hall : ∀ b, Part.regs b ∈ ps) (h : Touches ps s₀ s) :
    Touches ps s₀ (watchdogExpire s) := by
  unfold watchdogExpire
  with_reducible repeat' first
    | assumption
    | intro _
    | apply touches_beginReset
    | apply touches_State_waitClk
    | apply touches_ite

theorem touches_dropQueued {ps : List Part} {s₀ : State} (p : Nat) (q : Nat) (i : Nat) (s : State) (hsrv : Part.srv ∈ ps) (hrings : Part.rings ∈ ps) (rring : Part.regs .ring ∈ ps) (h : Touches ps s₀ s) :
    Touches ps s₀ (dropQueued p q i s) := by
  unfold dropQueued
  with_reducible repeat' first
    | assumption
    | intro _
    | apply touches_faultDrop
    | apply touches_setTxq
    | apply touches_ite
    | dsimp only
    | split

theorem touches_dropReceived {ps : List Part} {s₀ : State} (p : Nat) (i : Nat) (s : State) (hsrv : Part.srv ∈ ps) (h : Touches ps s₀ s) :
    Touches ps s₀ (dropReceived p i s) := by
  unfold dropReceived
  with_reducible repeat' first
    | assumption
    | intro _
    | apply touches_mac
    | apply touches_State_modPort
    | apply touches_ite

theorem touches_dropOpen {ps : List Part} {s₀ : State} (p : Nat) (s : State) (hsrv : Part.srv ∈ ps) (h : Touches ps s₀ s) :
    Touches ps s₀ (dropOpen p s) := by
  unfold dropOpen
  with_reducible repeat' first
    | assumption
    | intro _
    | apply touches_mac
    | apply touches_State_modPort
    | apply touches_ite

theorem touches_dropRecord {ps : List Part} {s₀ : State} (g : Nat) (slot : Nat) (s : State) (htim : Part.tim ∈ ps) (rtim : Part.regs .tim ∈ ps) (h : Touches ps s₀ s) :
    Touches ps s₀ (dropRecord g slot s) := by
  unfold dropRecord
  with_reducible repeat' first
    | assumption
    | intro _
    | apply touches_State_count
    | apply touches_State_wr
    | apply touches_ite
    | exact has_R_TIM_GRP_LOST_LOST _
    | dsimp only
    | split
    | apply touches_set_tim

theorem touches_eccAct {ps : List Part} {s₀ : State} (a : EccArray) (s : State) (hmem : Part.mem ∈ ps) (htick : Part.tick ∈ ps) (hlanes : Part.lanes ∈ ps) (hens : Part.ens ∈ ps) (hrfm : Part.rfm ∈ ps) (htim : Part.tim ∈ ps) (hgnss : Part.gnss ∈ ps) (hlog : Part.log ∈ ps) (hsrv : Part.srv ∈ ps) (hrings : Part.rings ∈ ps) (hstack : Part.stack ∈ ps) (hmbx : Part.mbx ∈ ps) (hfw : Part.fw ∈ ps) (hpcie : Part.pcie ∈ ps) (hwatch : Part.watch ∈ ps) (hpower : Part.power ∈ ps) (hrst : Part.rst ∈ ps) (hcfg : Part.cfg ∈ ps) (hall : ∀ b, Part.regs b ∈ ps) (h : Touches ps s₀ s) :
    Touches ps s₀ (eccAct a s) := by
  unfold eccAct
  with_reducible repeat' first
    | assumption
    | intro _
    | apply touches_ntpStat
    | apply touches_State_setCst
    | apply touches_ptpStat
    | apply touches_State_setGrant
    | apply touches_dropQueued
    | apply touches_dropReceived
    | apply touches_dropOpen
    | apply touches_dropRecord
    | apply touches_beginReset
    | apply touches_ite
    | apply hall
    | dsimp only
    | split

theorem touches_eccError {ps : List Part} {s₀ : State} (a : EccArray) (word : Nat) (corrected : Bool) (s : State) (hmem : Part.mem ∈ ps) (htick : Part.tick ∈ ps) (hlanes : Part.lanes ∈ ps) (hens : Part.ens ∈ ps) (hrfm : Part.rfm ∈ ps) (htim : Part.tim ∈ ps) (hgnss : Part.gnss ∈ ps) (hlog : Part.log ∈ ps) (hsrv : Part.srv ∈ ps) (hrings : Part.rings ∈ ps) (hstack : Part.stack ∈ ps) (hmbx : Part.mbx ∈ ps) (hfw : Part.fw ∈ ps) (hpcie : Part.pcie ∈ ps) (hwatch : Part.watch ∈ ps) (hpower : Part.power ∈ ps) (hrst : Part.rst ∈ ps) (hcfg : Part.cfg ∈ ps) (hall : ∀ b, Part.regs b ∈ ps) (h : Touches ps s₀ s) :
    Touches ps s₀ (eccError a word corrected s) := by
  unfold eccError
  with_reducible repeat' first
    | assumption
    | intro _
    | apply touches_State_count
    | apply touches_State_wr
    | apply touches_eccAct
    | apply touches_State_logRec
    | apply touches_State_raise
    | apply touches_ite
    | exact has_Evt_wch
    | exact has_R_WCH_ECC_CORR
    | exact has_R_WCH_ECC_UNCORR
    | apply hall

theorem touches_tapScan {ps : List Part} {s₀ : State} (tdi : List Bool) (s : State) (hrst : Part.rst ∈ ps) (h : Touches ps s₀ s) :
    Touches ps s₀ (tapScan tdi s) := by
  unfold tapScan
  with_reducible repeat' first
    | assumption
    | intro _
    | apply touches_State_emit
    | apply touches_ite
    | dsimp only
    | split
    | apply touches_set_rst

theorem touches_tapInstruction {ps : List Part} {s₀ : State} (i : TapInstr) (s : State) (hmem : Part.mem ∈ ps) (htick : Part.tick ∈ ps) (hlanes : Part.lanes ∈ ps) (hens : Part.ens ∈ ps) (hrfm : Part.rfm ∈ ps) (htim : Part.tim ∈ ps) (hgnss : Part.gnss ∈ ps) (hlog : Part.log ∈ ps) (hsrv : Part.srv ∈ ps) (hrings : Part.rings ∈ ps) (hstack : Part.stack ∈ ps) (hmbx : Part.mbx ∈ ps) (hfw : Part.fw ∈ ps) (hpcie : Part.pcie ∈ ps) (hwatch : Part.watch ∈ ps) (hpower : Part.power ∈ ps) (hrst : Part.rst ∈ ps) (hcfg : Part.cfg ∈ ps) (hall : ∀ b, Part.regs b ∈ ps) (h : Touches ps s₀ s) :
    Touches ps s₀ (tapInstruction i s) := by
  unfold tapInstruction
  with_reducible repeat' first
    | assumption
    | intro _
    | apply touches_beginReset
    | apply touches_setLink
    | apply touches_setMor
    | apply touches_foldl
    | apply touches_ite
    | apply hall
    | dsimp only
    | split
    | apply touches_set_rst

theorem touches_tapOp {ps : List Part} {s₀ : State} (op : TapOp) (s : State) (hmem : Part.mem ∈ ps) (htick : Part.tick ∈ ps) (hlanes : Part.lanes ∈ ps) (hens : Part.ens ∈ ps) (hrfm : Part.rfm ∈ ps) (htim : Part.tim ∈ ps) (hgnss : Part.gnss ∈ ps) (hlog : Part.log ∈ ps) (hsrv : Part.srv ∈ ps) (hrings : Part.rings ∈ ps) (hstack : Part.stack ∈ ps) (hmbx : Part.mbx ∈ ps) (hfw : Part.fw ∈ ps) (hpcie : Part.pcie ∈ ps) (hwatch : Part.watch ∈ ps) (hpower : Part.power ∈ ps) (hrst : Part.rst ∈ ps) (hcfg : Part.cfg ∈ ps) (hall : ∀ b, Part.regs b ∈ ps) (h : Touches ps s₀ s) :
    Touches ps s₀ (tapOp op s) := by
  unfold tapOp
  with_reducible repeat' first
    | assumption
    | intro _
    | apply touches_tapInstruction
    | apply touches_tapScan
    | apply hall
    | dsimp only
    | split

theorem touches_settleFor {ps : List Part} {s₀ : State} (a : Nat) (s : State) (hsrv : Part.srv ∈ ps) (hrings : Part.rings ∈ ps) (rring : Part.regs .ring ∈ ps) (h : Touches ps s₀ s) :
    Touches ps s₀ (settleFor a s) := by
  unfold settleFor
  with_reducible repeat' first
    | assumption
    | intro _
    | apply touches_settleAll
    | apply touches_settleEnded
    | apply touches_ite

theorem touches_readSol {ps : List Part} {s₀ : State} (n : Nat) (k : Nat) (s : State) (hgnss : Part.gnss ∈ ps) (h : Touches ps s₀ s) :
    Touches ps s₀ (readSol n k s).2 := by
  unfold readSol
  with_reducible repeat' first
    | assumption
    | intro _
    | apply touches_State_modAnt
    | apply touches_ite
    | apply touches_foldl
    | apply touches_foldl_fst
    | dsimp only
    | split

theorem touches_busRead {ps : List Part} {s₀ : State} (reader : Nat) (a : Nat) (s : State) (hgnss : Part.gnss ∈ ps) (hsrv : Part.srv ∈ ps) (hrings : Part.rings ∈ ps) (hall : ∀ b, Part.regs b ∈ ps) (h : Touches ps s₀ s) :
    Touches ps s₀ (busRead reader a s).2 := by
  unfold busRead
  with_reducible repeat' first
    | assumption
    | intro _
    | apply touches_settleFor
    | apply touches_readStatLow
    | apply touches_readPctLo
    | apply touches_readSol
    | apply touches_State_modPort
    | apply touches_clearRc_all
    | apply touches_ite
    | apply touches_foldl_fst
    | apply hall
    | dsimp only
    | split

theorem touches_writeTsc {ps : List Part} (id : Nat) (a : Nat) (w : Nat) (htick : Part.tick ∈ ps) (hens : Part.ens ∈ ps) (hlog : Part.log ∈ ps) (hfw : Part.fw ∈ ps) (rtsc : Part.regs .tsc ∈ ps) (rens : Part.regs .ens ∈ ps) (rwch : Part.regs .wch ∈ ps) : TouchesSome ps (writeTsc id a w) := by
  unfold writeTsc
  with_reducible repeat' first
    | (apply touchesSome_none)
    | (apply touchesSome_some)
    | (apply touchesSome_ite)
    | assumption
    | intro _
    | apply touches_writeTscCtl
    | apply touches_writeSnapCtl
    | apply touches_writeUtcOfs
    | apply touches_writeSwitchCtl
    | apply touches_writeLeapCtl
    | apply touches_writeLeapUtc (b0 := .tsc)
    | apply touches_stageIncr
    | apply touches_writeIncrCtl
    | apply touches_writeSlewCtl
    | apply touches_writeStepCtl
    | apply touches_ite
    | (apply has_Reg_TSC_LEAP_UTC_LO; assumption)
    | (apply has_Reg_TSC_LEAP_UTC_HI; assumption)
    | dsimp only
    | split

theorem touches_writeEns {ps : List Part} (id : Nat) (a : Nat) (w : Nat) (hens : Part.ens ∈ ps) (htim : Part.tim ∈ ps) (rens : Part.regs .ens ∈ ps) (rtim : Part.regs .tim ∈ ps) : TouchesSome ps (writeEns id a w) := by
  unfold writeEns
  with_reducible repeat' first
    | (apply touchesSome_none)
    | (apply touchesSome_some)
    | (apply touchesSome_ite)
    | assumption
    | intro _
    | apply touches_writeAnchor
    | apply touches_writeDecide
    | apply touches_writeSlotCfg
    | apply touches_writeSlotCmd
    | apply touches_writeSlotBias
    | apply touches_writeSlotAsym
    | apply touches_writeSlotBiasHi
    | apply touches_ite
    | dsimp only
    | split

theorem touches_writeGns {ps : List Part} (a : Nat) (w : Nat) (hgnss : Part.gnss ∈ ps) (hwatch : Part.watch ∈ ps) (rgns : Part.regs .gns ∈ ps) : TouchesSome ps (writeGns a w) := by
  unfold writeGns
  with_reducible repeat' first
    | (apply touchesSome_none)
    | (apply touchesSome_some)
    | (apply touchesSome_ite)
    | assumption
    | intro _
    | apply touches_writeGnsCtl
    | apply touches_writeSpacing
    | apply touches_writeNavRd
    | apply touches_writeSleepCtl
    | apply touches_writePortCfg
    | apply touches_writePortJam
    | apply touches_writeNotchCtl
    | apply touches_writeNotchFreq
    | apply touches_writePosCtl
    | apply touches_writePos
    | apply touches_writeChCfg
    | apply touches_ite
    | dsimp only
    | split

theorem touches_writeKeeper {ps : List Part} (id : Nat) (a : Nat) (w : Nat) (hmem : Part.mem ∈ ps) (htick : Part.tick ∈ ps) (hlanes : Part.lanes ∈ ps) (hens : Part.ens ∈ ps) (hrfm : Part.rfm ∈ ps) (htim : Part.tim ∈ ps) (hgnss : Part.gnss ∈ ps) (hlog : Part.log ∈ ps) (hsrv : Part.srv ∈ ps) (hrings : Part.rings ∈ ps) (hstack : Part.stack ∈ ps) (hmbx : Part.mbx ∈ ps) (hfw : Part.fw ∈ ps) (hpcie : Part.pcie ∈ ps) (hwatch : Part.watch ∈ ps) (hpower : Part.power ∈ ps) (hrst : Part.rst ∈ ps) (hcfg : Part.cfg ∈ ps) (hall : ∀ b, Part.regs b ∈ ps) : TouchesSome ps (writeKeeper id a w) := by
  unfold writeKeeper
  with_reducible repeat' first
    | (apply touchesSome_none)
    | (apply touchesSome_some)
    | (apply touchesSome_ite)
    | apply touchesSome_map
    | assumption
    | intro _
    | apply touches_writeTimCtl
    | apply touches_writeMorCtl
    | apply touches_writePwrCtl
    | apply touches_writeRstCtl
    | apply touches_writeTimChCfg
    | apply touches_writeChCtl
    | apply touches_writePlsCtl
    | apply touches_writeRfmCfg
    | apply touches_writeEfc
    | apply touches_writeHoursCmd
    | apply touches_writeLinkCfg
    | apply touches_writePctSel
    | apply touches_clearOvf
    | apply touches_writeRfmCtl
    | apply touches_writeGrpCfg
    | apply touches_ite
    | apply hall
    | dsimp only
    | split

theorem touches_writeDie {ps : List Part} (a : Nat) (w : Nat) (hens : Part.ens ∈ ps) (hlog : Part.log ∈ ps) (hsrv : Part.srv ∈ ps) (hrings : Part.rings ∈ ps) (rens : Part.regs .ens ∈ ps) (rwch : Part.regs .wch ∈ ps) (rmac : Part.regs .mac ∈ ps) (rntp : Part.regs .ntp ∈ ps) (rnts : Part.regs .nts ∈ ps) (rptp : Part.regs .ptp ∈ ps) (rring : Part.regs .ring ∈ ps) : TouchesSome ps (writeDie a w) := by
  unfold writeDie
  with_reducible repeat' first
    | (apply touchesSome_none)
    | (apply touchesSome_some)
    | (apply touchesSome_ite)
    | assumption
    | intro _
    | apply touches_writeCstCtl
    | apply touches_writeMacCfg
    | apply touches_writeMacAddrLo
    | apply touches_writeMacAddrHi
    | apply touches_writeDlyRx
    | apply touches_writeSvcCmd
    | apply touches_writeInst
    | apply touches_writeInstRate
    | apply touches_ite
    | (apply has_Reg_PTP_INST_CFG; assumption)
    | (apply has_Reg_PTP_INST_PEER; assumption)
    | (apply has_Reg_PTP_INST_UP; assumption)
    | dsimp only
    | split

theorem touches_busWrite {ps : List Part} {s₀ : State} (id : Nat) (a : Nat) (w : Nat) (s : State) (hmem : Part.mem ∈ ps) (htick : Part.tick ∈ ps) (hlanes : Part.lanes ∈ ps) (hens : Part.ens ∈ ps) (hrfm : Part.rfm ∈ ps) (htim : Part.tim ∈ ps) (hgnss : Part.gnss ∈ ps) (hlog : Part.log ∈ ps) (hsrv : Part.srv ∈ ps) (hrings : Part.rings ∈ ps) (hstack : Part.stack ∈ ps) (hmbx : Part.mbx ∈ ps) (hfw : Part.fw ∈ ps) (hpcie : Part.pcie ∈ ps) (hwatch : Part.watch ∈ ps) (hpower : Part.power ∈ ps) (hrst : Part.rst ∈ ps) (hcfg : Part.cfg ∈ ps) (hall : ∀ b, Part.regs b ∈ ps) (h : Touches ps s₀ s) :
    Touches ps s₀ (busWrite id a w s) := by
  unfold busWrite
  with_reducible repeat' first
    | assumption
    | intro _
    | apply touches_settleFor
    | apply touches_writeTsc
    | apply touches_writeEns
    | apply touches_writeGns
    | apply touches_writeKeeper
    | apply touches_writeDie
    | apply touches_enableEvt_all
    | apply touches_storeReg_all
    | apply hall
    | dsimp only
    | split
    | refine touches_of_some (by assumption) ?_ ?_
    | apply touchesSome_or

theorem touches_readPage {ps : List Part} {s₀ : State} (fn : Nat) (a : Nat) (s : State) (hgnss : Part.gnss ∈ ps) (hsrv : Part.srv ∈ ps) (hrings : Part.rings ∈ ps) (hall : ∀ b, Part.regs b ∈ ps) (h : Touches ps s₀ s) :
    Touches ps s₀ (readPage fn a s) := by
  unfold readPage
  with_reducible repeat' first
    | assumption
    | intro _
    | apply touches_unsupported
    | apply touches_State_emit
    | apply touches_busRead
    | apply touches_ite

theorem touches_writeOwnPage {ps : List Part} {s₀ : State} (q : Nat) (a : Nat) (w : Nat) (s : State) (hmem : Part.mem ∈ ps) (htick : Part.tick ∈ ps) (hlanes : Part.lanes ∈ ps) (hens : Part.ens ∈ ps) (hrfm : Part.rfm ∈ ps) (htim : Part.tim ∈ ps) (hgnss : Part.gnss ∈ ps) (hlog : Part.log ∈ ps) (hsrv : Part.srv ∈ ps) (hrings : Part.rings ∈ ps) (hstack : Part.stack ∈ ps) (hmbx : Part.mbx ∈ ps) (hfw : Part.fw ∈ ps) (hpcie : Part.pcie ∈ ps) (hwatch : Part.watch ∈ ps) (hpower : Part.power ∈ ps) (hrst : Part.rst ∈ ps) (hcfg : Part.cfg ∈ ps) (hall : ∀ b, Part.regs b ∈ ps) (h : Touches ps s₀ s) :
    Touches ps s₀ (writeOwnPage q a w s) := by
  unfold writeOwnPage
  with_reducible repeat' first
    | assumption
    | intro _
    | apply touches_writeRingBase (b0 := .ring)
    | apply touches_writeRingItr
    | apply touches_writeRingThr
    | apply touches_busWrite
    | apply touches_wr_all
    | apply touches_State_unmasked
    | apply touches_ite
    | exact has_R_MSIX_CTRL_MASK _
    | (apply has_Reg_HRG_RING_BASE_LO; assumption)
    | (apply has_Reg_HRG_RING_BASE_HI; assumption)
    | apply hall

theorem touches_writePage {ps : List Part} {s₀ : State} (fn : Nat) (a : Nat) (w : Nat) (s : State) (hmem : Part.mem ∈ ps) (htick : Part.tick ∈ ps) (hlanes : Part.lanes ∈ ps) (hens : Part.ens ∈ ps) (hrfm : Part.rfm ∈ ps) (htim : Part.tim ∈ ps) (hgnss : Part.gnss ∈ ps) (hlog : Part.log ∈ ps) (hsrv : Part.srv ∈ ps) (hrings : Part.rings ∈ ps) (hstack : Part.stack ∈ ps) (hmbx : Part.mbx ∈ ps) (hfw : Part.fw ∈ ps) (hpcie : Part.pcie ∈ ps) (hwatch : Part.watch ∈ ps) (hpower : Part.power ∈ ps) (hrst : Part.rst ∈ ps) (hcfg : Part.cfg ∈ ps) (hall : ∀ b, Part.regs b ∈ ps) (h : Touches ps s₀ s) :
    Touches ps s₀ (writePage fn a w s) := by
  unfold writePage
  with_reducible repeat' first
    | assumption
    | intro _
    | apply touches_settleEnded
    | apply touches_unsupported
    | apply touches_writeRingCfg
    | apply touches_doorbell
    | apply touches_writeOwnPage
    | apply touches_ite
    | apply hall

theorem touches_hostMbx {ps : List Part} {s₀ : State} (fn : Nat) (c : Nat) (o : Nat) (w : Option Nat) (s : State) (hlog : Part.log ∈ ps) (hstack : Part.stack ∈ ps) (hmbx : Part.mbx ∈ ps) (hfw : Part.fw ∈ ps) (rmbx : Part.regs .mbx ∈ ps) (rwch : Part.regs .wch ∈ ps) (h : Touches ps s₀ s) :
    Touches ps s₀ (hostMbx fn c o w s) := by
  unfold hostMbx
  with_reducible repeat' first
    | assumption
    | intro _
    | apply touches_mbxAccess

theorem touches_hostRead {ps : List Part} {s₀ : State} (fn : Nat) (a : Nat) (s : State) (hgnss : Part.gnss ∈ ps) (hlog : Part.log ∈ ps) (hsrv : Part.srv ∈ ps) (hrings : Part.rings ∈ ps) (hstack : Part.stack ∈ ps) (hmbx : Part.mbx ∈ ps) (hfw : Part.fw ∈ ps) (hall : ∀ b, Part.regs b ∈ ps) (h : Touches ps s₀ s) :
    Touches ps s₀ (hostRead fn a s) := by
  unfold hostRead
  with_reducible repeat' first
    | assumption
    | intro _
    | apply touches_readPage
    | apply touches_unsupported
    | apply touches_hostMbx
    | apply touches_busRead
    | apply touches_State_emit
    | apply touches_ite
    | apply hall
    | dsimp only
    | split

theorem touches_hostWrite {ps : List Part} {s₀ : State} (fn : Nat) (a : Nat) (w : Nat) (s : State) (hmem : Part.mem ∈ ps) (htick : Part.tick ∈ ps) (hlanes : Part.lanes ∈ ps) (hens : Part.ens ∈ ps) (hrfm : Part.rfm ∈ ps) (htim : Part.tim ∈ ps) (hgnss : Part.gnss ∈ ps) (hlog : Part.log ∈ ps) (hsrv : Part.srv ∈ ps) (hrings : Part.rings ∈ ps) (hstack : Part.stack ∈ ps) (hmbx : Part.mbx ∈ ps) (hfw : Part.fw ∈ ps) (hpcie : Part.pcie ∈ ps) (hwatch : Part.watch ∈ ps) (hpower : Part.power ∈ ps) (hrst : Part.rst ∈ ps) (hcfg : Part.cfg ∈ ps) (hall : ∀ b, Part.regs b ∈ ps) (h : Touches ps s₀ s) :
    Touches ps s₀ (hostWrite fn a w s) := by
  unfold hostWrite
  with_reducible repeat' first
    | assumption
    | intro _
    | apply touches_writePage
    | apply touches_unsupported
    | apply touches_hostMbx
    | apply touches_busWrite
    | apply touches_State_emit
    | apply touches_ite
    | apply hall
    | dsimp only
    | split

theorem touches_takeSfdp {ps : List Part} {s₀ : State} (sfdp : Option (Nat × Nat)) (s : State) (hcfg : Part.cfg ∈ ps) (rpwr : Part.regs .pwr ∈ ps) (h : Touches ps s₀ s) :
    Touches ps s₀ (takeSfdp sfdp s) := by
  unfold takeSfdp
  with_reducible repeat' first
    | assumption
    | intro _
    | apply touches_State_wr
    | apply touches_ite
    | exact has_R_CFG_FLASH_MODE
    | exact has_R_CFG_FLASH_SIZE
    | exact has_R_CFG_STAT_NO_SFDP
    | dsimp only
    | split
    | apply touches_set_cfg

theorem touches_bootImageSelect {ps : List Part} {s₀ : State} (sfdp : Option (Nat × Nat)) (s : State) (hlog : Part.log ∈ ps) (hrst : Part.rst ∈ ps) (hcfg : Part.cfg ∈ ps) (rpwr : Part.regs .pwr ∈ ps) (rwch : Part.regs .wch ∈ ps) (h : Touches ps s₀ s) :
    Touches ps s₀ (bootImageSelect sfdp s) := by
  unfold bootImageSelect
  with_reducible repeat' first
    | assumption
    | intro _
    | apply touches_takeSfdp
    | apply touches_State_logRec
    | apply touches_State_wr
    | apply touches_State_hi
    | apply touches_State_lo
    | apply touches_State_raise
    | apply touches_ite
    | exact has_R_CFG_STAT_ACTIVE_SLOT
    | exact has_R_CFG_STAT_ACTIVE_VALID
    | exact has_R_CFG_STAT_OTHER_VALID
    | exact has_R_CFG_STAT_NO_IMAGE
    | exact has_R_CFG_SEQ_SEQ
    | exact has_Evt_cfg
    | dsimp only
    | split
    | apply touches_set_cfg
    | apply touches_set_rst
    | apply touches_set_rst_cfg

theorem touches_firmwareRun {ps : List Part} {s₀ : State} (s : State) (hlanes : Part.lanes ∈ ps) (hens : Part.ens ∈ ps) (hlog : Part.log ∈ ps) (hstack : Part.stack ∈ ps) (hfw : Part.fw ∈ ps) (hrst : Part.rst ∈ ps) (rdev : Part.regs .dev ∈ ps) (rens : Part.regs .ens ∈ ps) (rgns : Part.regs .gns ∈ ps) (rmbx : Part.regs .mbx ∈ ps) (rwch : Part.regs .wch ∈ ps) (rnts : Part.regs .nts ∈ ps) (rlane : Part.regs .lane ∈ ps) (h : Touches ps s₀ s) :
    Touches ps s₀ (firmwareRun s) := by
  unfold firmwareRun
  with_reducible repeat' first
    | assumption
    | intro _
    | apply touches_dieUp
    | apply touches_agentRun
    | apply touches_State_wr
    | apply touches_State_hi
    | apply touches_foldl
    | apply touches_ite
    | exact has_R_DEV_DIE_STAT_KFW_RUN
    | exact has_R_GNS_STAT_RUN
    | dsimp only
    | split
    | apply touches_set_rst_fw

theorem touches_applyPair {ps : List Part} {s₀ : State} (rws : Bool) (p : Nat × Nat) (s : State) (hmem : Part.mem ∈ ps) (htick : Part.tick ∈ ps) (hlanes : Part.lanes ∈ ps) (hens : Part.ens ∈ ps) (hrfm : Part.rfm ∈ ps) (htim : Part.tim ∈ ps) (hgnss : Part.gnss ∈ ps) (hlog : Part.log ∈ ps) (hsrv : Part.srv ∈ ps) (hrings : Part.rings ∈ ps) (hstack : Part.stack ∈ ps) (hmbx : Part.mbx ∈ ps) (hfw : Part.fw ∈ ps) (hpcie : Part.pcie ∈ ps) (hwatch : Part.watch ∈ ps) (hpower : Part.power ∈ ps) (hrst : Part.rst ∈ ps) (hcfg : Part.cfg ∈ ps) (hall : ∀ b, Part.regs b ∈ ps) (h : Touches ps s₀ s) :
    Touches ps s₀ (applyPair rws p s) := by
  unfold applyPair
  with_reducible repeat' first
    | assumption
    | intro _
    | apply touches_busWrite

theorem touches_bootPair {ps : List Part} {s₀ : State} (rws : Bool) (s : State) (p : Nat × Nat) (hmem : Part.mem ∈ ps) (htick : Part.tick ∈ ps) (hlanes : Part.lanes ∈ ps) (hens : Part.ens ∈ ps) (hrfm : Part.rfm ∈ ps) (htim : Part.tim ∈ ps) (hgnss : Part.gnss ∈ ps) (hlog : Part.log ∈ ps) (hsrv : Part.srv ∈ ps) (hrings : Part.rings ∈ ps) (hstack : Part.stack ∈ ps) (hmbx : Part.mbx ∈ ps) (hfw : Part.fw ∈ ps) (hpcie : Part.pcie ∈ ps) (hwatch : Part.watch ∈ ps) (hpower : Part.power ∈ ps) (hrst : Part.rst ∈ ps) (hcfg : Part.cfg ∈ ps) (hall : ∀ b, Part.regs b ∈ ps) (h : Touches ps s₀ s) :
    Touches ps s₀ (bootPair rws s p) := by
  unfold bootPair
  with_reducible repeat' first
    | assumption
    | intro _
    | apply touches_State_wr
    | apply touches_State_raise
    | apply touches_applyPair
    | apply touches_ite
    | exact has_Evt_cfg
    | exact has_R_CFG_APPLY_PAIRS
    | exact has_R_CFG_APPLY_SKIPPED
    | apply hall

theorem touches_imageApply {ps : List Part} {s₀ : State} (s : State) (hmem : Part.mem ∈ ps) (htick : Part.tick ∈ ps) (hlanes : Part.lanes ∈ ps) (hens : Part.ens ∈ ps) (hrfm : Part.rfm ∈ ps) (htim : Part.tim ∈ ps) (hgnss : Part.gnss ∈ ps) (hlog : Part.log ∈ ps) (hsrv : Part.srv ∈ ps) (hrings : Part.rings ∈ ps) (hstack : Part.stack ∈ ps) (hmbx : Part.mbx ∈ ps) (hfw : Part.fw ∈ ps) (hpcie : Part.pcie ∈ ps) (hwatch : Part.watch ∈ ps) (hpower : Part.power ∈ ps) (hrst : Part.rst ∈ ps) (hcfg : Part.cfg ∈ ps) (hall : ∀ b, Part.regs b ∈ ps) (h : Touches ps s₀ s) :
    Touches ps s₀ (imageApply s) := by
  unfold imageApply
  with_reducible repeat' first
    | assumption
    | intro _
    | apply touches_State_lo
    | apply touches_bootPair
    | apply touches_State_hi
    | apply touches_ite
    | apply touches_foldl
    | exact has_R_CFG_APPLY_PAIRS
    | exact has_R_CFG_APPLY_SKIPPED
    | exact has_R_CFG_STAT_LOCKED
    | apply hall
    | dsimp only
    | split
    | apply touches_set_rst

theorem touches_dieBack {ps : List Part} {s₀ : State} (n : Nat) (s : State) (hmem : Part.mem ∈ ps) (htick : Part.tick ∈ ps) (hlanes : Part.lanes ∈ ps) (hens : Part.ens ∈ ps) (hrfm : Part.rfm ∈ ps) (htim : Part.tim ∈ ps) (hgnss : Part.gnss ∈ ps) (hlog : Part.log ∈ ps) (hsrv : Part.srv ∈ ps) (hrings : Part.rings ∈ ps) (hstack : Part.stack ∈ ps) (hmbx : Part.mbx ∈ ps) (hfw : Part.fw ∈ ps) (hpcie : Part.pcie ∈ ps) (hwatch : Part.watch ∈ ps) (hpower : Part.power ∈ ps) (hrst : Part.rst ∈ ps) (hcfg : Part.cfg ∈ ps) (hall : ∀ b, Part.regs b ∈ ps) (h : Touches ps s₀ s) :
    Touches ps s₀ (dieBack n s) := by
  unfold dieBack
  with_reducible repeat' first
    | assumption
    | intro _
    | apply touches_dieUp
    | apply touches_applyPair
    | apply touches_ite
    | apply touches_foldl
    | apply hall

theorem touches_loadCause {ps : List Part} {s₀ : State} (k : ResetKind) (sender : Nat) (s : State) (hlog : Part.log ∈ ps) (rpwr : Part.regs .pwr ∈ ps) (rwch : Part.regs .wch ∈ ps) (h : Touches ps s₀ s) :
    Touches ps s₀ (loadCause k sender s) := by
  unfold loadCause
  with_reducible repeat' first
    | assumption
    | intro _
    | apply touches_State_wr
    | apply touches_State_logRec
    | apply touches_ite
    | exact has_R_PWR_RST_CAUSE_KIND
    | exact has_R_PWR_RST_CAUSE_SENDER
    | exact has_R_PWR_RST_CAUSE_WARM_CNT

theorem touches_resetComplete {ps : List Part} {s₀ : State} (s : State) (hmem : Part.mem ∈ ps) (htick : Part.tick ∈ ps) (hlanes : Part.lanes ∈ ps) (hens : Part.ens ∈ ps) (hrfm : Part.rfm ∈ ps) (htim : Part.tim ∈ ps) (hgnss : Part.gnss ∈ ps) (hlog : Part.log ∈ ps) (hsrv : Part.srv ∈ ps) (hrings : Part.rings ∈ ps) (hstack : Part.stack ∈ ps) (hmbx : Part.mbx ∈ ps) (hfw : Part.fw ∈ ps) (hpcie : Part.pcie ∈ ps) (hwatch : Part.watch ∈ ps) (hpower : Part.power ∈ ps) (hrst : Part.rst ∈ ps) (hcfg : Part.cfg ∈ ps) (hall : ∀ b, Part.regs b ∈ ps) (h : Touches ps s₀ s) :
    Touches ps s₀ (resetComplete s) := by
  unfold resetComplete
  with_reducible repeat' first
    | assumption
    | intro _
    | apply touches_dieBack
    | apply touches_loadCause
    | apply touches_ite
    | apply hall
    | dsimp only
    | split
    | apply touches_set_rst

theorem touches_logCommit {ps : List Part} {s₀ : State} (j : CommitJob) (status : Nat) (s : State) (hlog : Part.log ∈ ps) (rwch : Part.regs .wch ∈ ps) (h : Touches ps s₀ s) :
    Touches ps s₀ (logCommit j status s) := by
  unfold logCommit
  with_reducible repeat' first
    | assumption
    | intro _
    | apply touches_State_logRec

theorem touches_dropCommit {ps : List Part} {s₀ : State} (s : State) (hcfg : Part.cfg ∈ ps) (rpwr : Part.regs .pwr ∈ ps) (h : Touches ps s₀ s) :
    Touches ps s₀ (dropCommit s) := by
  unfold dropCommit
  with_reducible repeat' first
    | assumption
    | intro _
    | apply touches_State_lo
    | apply touches_ite
    | exact has_R_CFG_STAT_COMMIT_BUSY
    | exact has_R_CFG_STAT_STEP
    | dsimp only
    | split
    | apply touches_set_cfg

theorem touches_commitDone {ps : List Part} {s₀ : State} (j : CommitJob) (s : State) (hlog : Part.log ∈ ps) (hfw : Part.fw ∈ ps) (hcfg : Part.cfg ∈ ps) (rpwr : Part.regs .pwr ∈ ps) (rwch : Part.regs .wch ∈ ps) (h : Touches ps s₀ s) :
    Touches ps s₀ (commitDone j s) := by
  unfold commitDone
  with_reducible repeat' first
    | assumption
    | intro _
    | apply touches_State_wr
    | apply touches_dropCommit
    | apply touches_State_hi
    | apply touches_endRunning
    | apply touches_logCommit
    | apply touches_State_raise
    | apply touches_ite
    | exact has_Evt_cfg
    | exact has_R_CFG_SEQ_SEQ
    | exact has_R_CFG_STAT_ACTIVE_SLOT
    | exact has_R_CFG_STAT_ACTIVE_VALID
    | exact has_R_CFG_STAT_LOCKED
    | exact has_R_CFG_STAT_OTHER_VALID

theorem touches_commitFail {ps : List Part} {s₀ : State} (j : CommitJob) (s : State) (hlog : Part.log ∈ ps) (hfw : Part.fw ∈ ps) (hcfg : Part.cfg ∈ ps) (rpwr : Part.regs .pwr ∈ ps) (rwch : Part.regs .wch ∈ ps) (h : Touches ps s₀ s) :
    Touches ps s₀ (commitFail j s) := by
  unfold commitFail
  with_reducible repeat' first
    | assumption
    | intro _
    | apply touches_State_wr
    | apply touches_dropCommit
    | apply touches_endRunning
    | apply touches_logCommit
    | apply touches_State_raise
    | apply touches_ite
    | exact has_Evt_cfg
    | exact has_R_CFG_STAT_ERR
    | exact has_R_CFG_STAT_OTHER_VALID

theorem touches_flashOpComplete {ps : List Part} {s₀ : State} (ok : Bool) (s : State) (hlog : Part.log ∈ ps) (hfw : Part.fw ∈ ps) (hcfg : Part.cfg ∈ ps) (rpwr : Part.regs .pwr ∈ ps) (rwch : Part.regs .wch ∈ ps) (h : Touches ps s₀ s) :
    Touches ps s₀ (flashOpComplete ok s) := by
  unfold flashOpComplete
  with_reducible repeat' first
    | assumption
    | intro _
    | apply touches_State_wr
    | apply touches_commitDone
    | apply touches_commitFail
    | apply touches_ite
    | exact has_R_CFG_STAT_STEP
    | dsimp only
    | split
    | apply touches_set_cfg

theorem touches_writeReply {ps : List Part} {s₀ : State} (c : Cmd) (status : Nat) (detail : Nat) (params : List Nat) (s : State) (hlog : Part.log ∈ ps) (hsrv : Part.srv ∈ ps) (hrings : Part.rings ∈ ps) (hstack : Part.stack ∈ ps) (hmbx : Part.mbx ∈ ps) (hfw : Part.fw ∈ ps) (rmbx : Part.regs .mbx ∈ ps) (rwch : Part.regs .wch ∈ ps) (rring : Part.regs .ring ∈ ps) (h : Touches ps s₀ s) :
    Touches ps s₀ (writeReply c status detail params s) := by
  unfold writeReply
  with_reducible repeat' first
    | assumption
    | intro _
    | apply touches_writeMbxCtl
    | apply touches_putWords
    | apply touches_State_emit
    | apply touches_finishDesc
    | apply touches_sendRelay
    | apply touches_ite
    | dsimp only
    | split

theorem touches_answer {ps : List Part} {s₀ : State} (c : Cmd) (status : Nat) (detail : Nat) (params : List Nat) (s : State) (hlog : Part.log ∈ ps) (hsrv : Part.srv ∈ ps) (hrings : Part.rings ∈ ps) (hstack : Part.stack ∈ ps) (hmbx : Part.mbx ∈ ps) (hfw : Part.fw ∈ ps) (rmbx : Part.regs .mbx ∈ ps) (rwch : Part.regs .wch ∈ ps) (rring : Part.regs .ring ∈ ps) (h : Touches ps s₀ s) :
    Touches ps s₀ (answer c status detail params s) := by
  unfold answer
  with_reducible repeat' first
    | assumption
    | intro _
    | apply touches_writeReply
    | apply touches_ite
    | dsimp only
    | split
    | apply touches_set_fw

theorem touches_hold {ps : List Part} {s₀ : State} (c : Cmd) (deferred : Bool) (s : State) (hfw : Part.fw ∈ ps) (h : Touches ps s₀ s) :
    Touches ps s₀ (hold c deferred s) := by
  unfold hold
  with_reducible repeat' first
    | assumption
    | intro _
    | apply touches_ite
    | dsimp only
    | split
    | apply touches_set_fw

theorem touches_checked {ps : List Part} {s₀ : State} (c : Cmd) (lenOk : Bool) (fields : List (Nat × Bool)) (absent : Bool) (act : State → State) (s : State) (hlog : Part.log ∈ ps) (hsrv : Part.srv ∈ ps) (hrings : Part.rings ∈ ps) (hstack : Part.stack ∈ ps) (hmbx : Part.mbx ∈ ps) (hfw : Part.fw ∈ ps) (rmbx : Part.regs .mbx ∈ ps) (rwch : Part.regs .wch ∈ ps) (rring : Part.regs .ring ∈ ps) (g4 : ∀ s, Touches ps s₀ s → Touches ps s₀ (act s)) (h : Touches ps s₀ s) :
    Touches ps s₀ (checked c lenOk fields absent act s) := by
  unfold checked
  with_reducible repeat' first
    | assumption
    | intro _
    | apply g4
    | apply touches_answer
    | apply touches_ite
    | dsimp only
    | split

theorem touches_onCurrent {ps : List Part} {s₀ : State} (is : Nat → Bool) (f : Cmd → State → State) (s : State) (g1 : ∀ x0 s, Touches ps s₀ s → Touches ps s₀ (f x0 s)) (h : Touches ps s₀ s) :
    Touches ps s₀ (onCurrent is f s) := by
  unfold onCurrent
  with_reducible repeat' first
    | assumption
    | intro _
    | apply g1
    | apply touches_ite
    | dsimp only
    | split

theorem touches_crossFor {ps : List Part} {s₀ : State} (c : Cmd) (s : State) (hmbx : Part.mbx ∈ ps) (h : Touches ps s₀ s) :
    Touches ps s₀ (crossFor c s) := by
  unfold crossFor
  with_reducible repeat' first
    | assumption
    | intro _
    | apply touches_beginCrossing
    | apply touches_ite
    | dsimp only
    | split

theorem touches_firmwareTake {ps : List Part} {s₀ : State} (s : State) (hlog : Part.log ∈ ps) (hsrv : Part.srv ∈ ps) (hrings : Part.rings ∈ ps) (hstack : Part.stack ∈ ps) (hmbx : Part.mbx ∈ ps) (hfw : Part.fw ∈ ps) (rmbx : Part.regs .mbx ∈ ps) (rwch : Part.regs .wch ∈ ps) (rring : Part.regs .ring ∈ ps) (h : Touches ps s₀ s) :
    Touches ps s₀ (firmwareTake s) := by
  unfold firmwareTake
  with_reducible repeat' first
    | assumption
    | intro _
    | apply touches_crossFor
    | apply touches_State_count
    | apply touches_answer
    | apply touches_ite
    | dsimp only
    | split
    | apply touches_set_fw

theorem touches_keepDeferred {ps : List Part} {s₀ : State} (c : Cmd) (detail : Nat) (s : State) (hfw : Part.fw ∈ ps) (h : Touches ps s₀ s) :
    Touches ps s₀ (keepDeferred c detail s) := by
  unfold keepDeferred
  with_reducible repeat' first
    | assumption
    | intro _
    | apply touches_ite
    | dsimp only
    | split
    | apply touches_set_fw

theorem touches_startDeferred {ps : List Part} {s₀ : State} (c : Cmd) (bound : Nat) (s : State) (hlog : Part.log ∈ ps) (hsrv : Part.srv ∈ ps) (hrings : Part.rings ∈ ps) (hstack : Part.stack ∈ ps) (hmbx : Part.mbx ∈ ps) (hfw : Part.fw ∈ ps) (rmbx : Part.regs .mbx ∈ ps) (rwch : Part.regs .wch ∈ ps) (rring : Part.regs .ring ∈ ps) (h : Touches ps s₀ s) :
    Touches ps s₀ (startDeferred c bound s) := by
  unfold startDeferred
  with_reducible repeat' first
    | assumption
    | intro _
    | apply touches_writeReply
    | apply touches_keepDeferred
    | apply touches_hold

theorem touches_endDeferred {ps : List Part} {s₀ : State} (c : Cmd) (e : Ending) (s : State) (hfw : Part.fw ∈ ps) (h : Touches ps s₀ s) :
    Touches ps s₀ (endDeferred c e s) := by
  unfold endDeferred
  with_reducible repeat' first
    | assumption
    | intro _
    | apply touches_ite
    | dsimp only
    | split
    | apply touches_set_fw

theorem touches_removeWhenFree {ps : List Part} {s₀ : State} (r : Running) (s : State) (hsrv : Part.srv ∈ ps) (hfw : Part.fw ∈ ps) (h : Touches ps s₀ s) :
    Touches ps s₀ (removeWhenFree r s) := by
  unfold removeWhenFree
  with_reducible repeat' first
    | assumption
    | intro _
    | apply touches_endRunning
    | apply touches_ntpStat
    | apply touches_State_setCst
    | apply touches_ite
    | dsimp only
    | split

theorem touches_settleCmd {ps : List Part} {s₀ : State} (r : Running) (s : State) (hsrv : Part.srv ∈ ps) (hfw : Part.fw ∈ ps) (h : Touches ps s₀ s) :
    Touches ps s₀ (settleCmd r s) := by
  unfold settleCmd
  with_reducible repeat' first
    | assumption
    | intro _
    | apply touches_endRunning
    | apply touches_removeWhenFree
    | apply touches_ite

theorem touches_dropRunning {ps : List Part} {s₀ : State} (id : Nat) (s : State) (hfw : Part.fw ∈ ps) (h : Touches ps s₀ s) :
    Touches ps s₀ (dropRunning id s) := by
  unfold dropRunning
  with_reducible repeat' first
    | assumption
    | intro _
    | apply touches_ite
    | dsimp only
    | split
    | apply touches_set_fw

theorem touches_concludeRunning {ps : List Part} {s₀ : State} (id : Nat) (s : State) (hlog : Part.log ∈ ps) (hsrv : Part.srv ∈ ps) (hrings : Part.rings ∈ ps) (hstack : Part.stack ∈ ps) (hmbx : Part.mbx ∈ ps) (hfw : Part.fw ∈ ps) (rmbx : Part.regs .mbx ∈ ps) (rwch : Part.regs .wch ∈ ps) (rring : Part.regs .ring ∈ ps) (h : Touches ps s₀ s) :
    Touches ps s₀ (concludeRunning id s) := by
  unfold concludeRunning
  with_reducible repeat' first
    | assumption
    | intro _
    | apply touches_dropRunning
    | apply touches_endDeferred
    | apply touches_writeReply
    | apply touches_ite
    | dsimp only
    | split

theorem touches_commandComplete {ps : List Part} {s₀ : State} (id : Nat) (s : State) (hlog : Part.log ∈ ps) (hsrv : Part.srv ∈ ps) (hrings : Part.rings ∈ ps) (hstack : Part.stack ∈ ps) (hmbx : Part.mbx ∈ ps) (hfw : Part.fw ∈ ps) (rmbx : Part.regs .mbx ∈ ps) (rwch : Part.regs .wch ∈ ps) (rring : Part.regs .ring ∈ ps) (h : Touches ps s₀ s) :
    Touches ps s₀ (commandComplete id s) := by
  unfold commandComplete
  with_reducible repeat' first
    | assumption
    | intro _
    | apply touches_concludeRunning
    | apply touches_settleCmd
    | apply touches_ite
    | dsimp only
    | split

theorem touches_commandTimeout {ps : List Part} {s₀ : State} (id : Nat) (s : State) (htick : Part.tick ∈ ps) (hlanes : Part.lanes ∈ ps) (hlog : Part.log ∈ ps) (hsrv : Part.srv ∈ ps) (hrings : Part.rings ∈ ps) (hstack : Part.stack ∈ ps) (hmbx : Part.mbx ∈ ps) (hfw : Part.fw ∈ ps) (rmbx : Part.regs .mbx ∈ ps) (rwch : Part.regs .wch ∈ ps) (rring : Part.regs .ring ∈ ps) (h : Touches ps s₀ s) :
    Touches ps s₀ (commandTimeout id s) := by
  unfold commandTimeout
  with_reducible repeat' first
    | assumption
    | intro _
    | apply touches_settleCmd
    | apply touches_State_waitClk
    | apply touches_concludeRunning
    | apply touches_dropRunning
    | apply touches_writeReply
    | apply touches_ite
    | dsimp only
    | split
    | apply touches_set_fw

theorem touches_relayReply {ps : List Part} {s₀ : State} (src : Nat) (pkt : List Nat) (s : State) (hfw : Part.fw ∈ ps) (h : Touches ps s₀ s) :
    Touches ps s₀ (relayReply src pkt s) := by
  unfold relayReply
  with_reducible repeat' first
    | assumption
    | intro _
    | apply touches_endRunning
    | apply touches_ite
    | dsimp only
    | split

theorem touches_relayArrives {ps : List Part} {s₀ : State} (src : Nat) (pkt : List Nat) (s : State) (hstack : Part.stack ∈ ps) (hfw : Part.fw ∈ ps) (rmbx : Part.regs .mbx ∈ ps) (h : Touches ps s₀ s) :
    Touches ps s₀ (relayArrives src pkt s) := by
  unfold relayArrives
  with_reducible repeat' first
    | assumption
    | intro _
    | apply touches_relayReply
    | apply touches_agentRun
    | apply touches_State_modStack
    | apply touches_ite

theorem touches_relayFrameRx {ps : List Part} {s₀ : State} (l : Nat) (f : List Nat) (s : State) (hstack : Part.stack ∈ ps) (hfw : Part.fw ∈ ps) (rmor : Part.regs .mor ∈ ps) (rmbx : Part.regs .mbx ∈ ps) (h : Touches ps s₀ s) :
    Touches ps s₀ (relayFrameRx l f s) := by
  unfold relayFrameRx
  with_reducible repeat' first
    | assumption
    | intro _
    | apply touches_mooringFrameErr
    | apply touches_State_wr
    | apply touches_relayArrives
    | apply touches_State_raise
    | apply touches_State_emit
    | apply touches_ite
    | exact has_Evt_mor
    | exact has_R_MOR_LINK_STAT_PEER _

theorem touches_relayTimeout {ps : List Part} {s₀ : State} (id : Nat) (s : State) (htick : Part.tick ∈ ps) (hlanes : Part.lanes ∈ ps) (hfw : Part.fw ∈ ps) (h : Touches ps s₀ s) :
    Touches ps s₀ (relayTimeout id s) := by
  unfold relayTimeout
  with_reducible repeat' first
    | assumption
    | intro _
    | apply touches_endRunning
    | apply touches_State_waitClk
    | apply touches_ite
    | dsimp only
    | split

theorem touches_readAll {ps : List Part} {s₀ : State} (a0 : List Nat) (a1 : List Nat) (s : State) (hgnss : Part.gnss ∈ ps) (hsrv : Part.srv ∈ ps) (hrings : Part.rings ∈ ps) (hall : ∀ b, Part.regs b ∈ ps) (h : Touches ps s₀ s) :
    Touches ps s₀ (readAll a0 a1 s).2 := by
  induction a0 generalizing a1 s with
  | nil =>
    unfold readAll
    with_reducible repeat' first
      | assumption
  | cons _ _ ih =>
    unfold readAll
    with_reducible repeat' first
      | assumption
      | intro _
      | apply ih
      | apply touches_busRead

theorem touches_regRead {ps : List Part} {s₀ : State} (c : Cmd) (s : State) (hgnss : Part.gnss ∈ ps) (hlog : Part.log ∈ ps) (hsrv : Part.srv ∈ ps) (hrings : Part.rings ∈ ps) (hstack : Part.stack ∈ ps) (hmbx : Part.mbx ∈ ps) (hfw : Part.fw ∈ ps) (hall : ∀ b, Part.regs b ∈ ps) (h : Touches ps s₀ s) :
    Touches ps s₀ (regRead c s) := by
  unfold regRead
  with_reducible repeat' first
    | assumption
    | intro _
    | apply touches_checked
    | apply touches_readAll
    | apply touches_answer
    | apply touches_settleFor
    | apply touches_ite
    | apply touches_foldl
    | apply touches_foldl_fst
    | apply hall

theorem touches_writePairs {ps : List Part} {s₀ : State} (sender : Nat) (a1 : List (Nat × Nat)) (s : State) (hmem : Part.mem ∈ ps) (htick : Part.tick ∈ ps) (hlanes : Part.lanes ∈ ps) (hens : Part.ens ∈ ps) (hrfm : Part.rfm ∈ ps) (htim : Part.tim ∈ ps) (hgnss : Part.gnss ∈ ps) (hlog : Part.log ∈ ps) (hsrv : Part.srv ∈ ps) (hrings : Part.rings ∈ ps) (hstack : Part.stack ∈ ps) (hmbx : Part.mbx ∈ ps) (hfw : Part.fw ∈ ps) (hpcie : Part.pcie ∈ ps) (hwatch : Part.watch ∈ ps) (hpower : Part.power ∈ ps) (hrst : Part.rst ∈ ps) (hcfg : Part.cfg ∈ ps) (hall : ∀ b, Part.regs b ∈ ps) (h : Touches ps s₀ s) :
    Touches ps s₀ (writePairs sender a1 s) := by
  induction a1 generalizing s with
  | nil => exact h
  | cons _ _ ih =>
    unfold writePairs
    with_reducible repeat' first
      | assumption
      | apply ih
      | apply touches_busWrite
      | apply touches_ite

theorem touches_regWrite {ps : List Part} {s₀ : State} (c : Cmd) (s : State) (hmem : Part.mem ∈ ps) (htick : Part.tick ∈ ps) (hlanes : Part.lanes ∈ ps) (hens : Part.ens ∈ ps) (hrfm : Part.rfm ∈ ps) (htim : Part.tim ∈ ps) (hgnss : Part.gnss ∈ ps) (hlog : Part.log ∈ ps) (hsrv : Part.srv ∈ ps) (hrings : Part.rings ∈ ps) (hstack : Part.stack ∈ ps) (hmbx : Part.mbx ∈ ps) (hfw : Part.fw ∈ ps) (hpcie : Part.pcie ∈ ps) (hwatch : Part.watch ∈ ps) (hpower : Part.power ∈ ps) (hrst : Part.rst ∈ ps) (hcfg : Part.cfg ∈ ps) (hall : ∀ b, Part.regs b ∈ ps) (h : Touches ps s₀ s) :
    Touches ps s₀ (regWrite c s) := by
  unfold regWrite
  with_reducible repeat' first
    | assumption
    | intro _
    | apply touches_checked
    | apply touches_answer
    | apply touches_writePairs
    | apply touches_ite
    | apply hall

theorem touches_nopCmd {ps : List Part} {s₀ : State} (c : Cmd) (s : State) (hlog : Part.log ∈ ps) (hsrv : Part.srv ∈ ps) (hrings : Part.rings ∈ ps) (hstack : Part.stack ∈ ps) (hmbx : Part.mbx ∈ ps) (hfw : Part.fw ∈ ps) (rmbx : Part.regs .mbx ∈ ps) (rwch : Part.regs .wch ∈ ps) (rring : Part.regs .ring ∈ ps) (h : Touches ps s₀ s) :
    Touches ps s₀ (nopCmd c s) := by
  unfold nopCmd
  with_reducible repeat' first
    | assumption
    | intro _
    | apply touches_checked
    | apply touches_answer

theorem touches_ident {ps : List Part} {s₀ : State} (c : Cmd) (s : State) (hlog : Part.log ∈ ps) (hsrv : Part.srv ∈ ps) (hrings : Part.rings ∈ ps) (hstack : Part.stack ∈ ps) (hmbx : Part.mbx ∈ ps) (hfw : Part.fw ∈ ps) (rmbx : Part.regs .mbx ∈ ps) (rwch : Part.regs .wch ∈ ps) (rring : Part.regs .ring ∈ ps) (h : Touches ps s₀ s) :
    Touches ps s₀ (ident c s) := by
  unfold ident
  with_reducible repeat' first
    | assumption
    | intro _
    | apply touches_checked
    | apply touches_answer

theorem touches_result {ps : List Part} {s₀ : State} (c : Cmd) (s : State) (hlog : Part.log ∈ ps) (hsrv : Part.srv ∈ ps) (hrings : Part.rings ∈ ps) (hstack : Part.stack ∈ ps) (hmbx : Part.mbx ∈ ps) (hfw : Part.fw ∈ ps) (rmbx : Part.regs .mbx ∈ ps) (rwch : Part.regs .wch ∈ ps) (rring : Part.regs .ring ∈ ps) (h : Touches ps s₀ s) :
    Touches ps s₀ (result c s) := by
  unfold result
  with_reducible repeat' first
    | assumption
    | intro _
    | apply touches_checked
    | apply touches_answer
    | apply touches_ite
    | dsimp only
    | split

theorem touches_cfgStage {ps : List Part} {s₀ : State} (c : Cmd) (s : State) (hlog : Part.log ∈ ps) (hsrv : Part.srv ∈ ps) (hrings : Part.rings ∈ ps) (hstack : Part.stack ∈ ps) (hmbx : Part.mbx ∈ ps) (hfw : Part.fw ∈ ps) (hcfg : Part.cfg ∈ ps) (rmbx : Part.regs .mbx ∈ ps) (rwch : Part.regs .wch ∈ ps) (rring : Part.regs .ring ∈ ps) (h : Touches ps s₀ s) :
    Touches ps s₀ (cfgStage c s) := by
  unfold cfgStage
  with_reducible repeat' first
    | assumption
    | intro _
    | apply touches_checked
    | apply touches_answer
    | apply touches_ite
    | apply touches_foldl
    | dsimp only
    | split
    | apply touches_set_cfg

theorem touches_beginCommit {ps : List Part} {s₀ : State} (c : Cmd) (s : State) (hlog : Part.log ∈ ps) (hsrv : Part.srv ∈ ps) (hrings : Part.rings ∈ ps) (hstack : Part.stack ∈ ps) (hmbx : Part.mbx ∈ ps) (hfw : Part.fw ∈ ps) (hcfg : Part.cfg ∈ ps) (rmbx : Part.regs .mbx ∈ ps) (rpwr : Part.regs .pwr ∈ ps) (rwch : Part.regs .wch ∈ ps) (rring : Part.regs .ring ∈ ps) (h : Touches ps s₀ s) :
    Touches ps s₀ (beginCommit c s) := by
  unfold beginCommit
  with_reducible repeat' first
    | assumption
    | intro _
    | apply touches_startDeferred
    | apply touches_State_wr
    | apply touches_State_hi
    | apply touches_State_lo
    | apply touches_ite
    | exact has_R_CFG_STAT_COMMIT_BUSY
    | exact has_R_CFG_STAT_STEP
    | exact has_R_CFG_STAT_OTHER_VALID
    | dsimp only
    | split
    | apply touches_set_cfg

theorem touches_cfgCommit {ps : List Part} {s₀ : State} (c : Cmd) (s : State) (hlog : Part.log ∈ ps) (hsrv : Part.srv ∈ ps) (hrings : Part.rings ∈ ps) (hstack : Part.stack ∈ ps) (hmbx : Part.mbx ∈ ps) (hfw : Part.fw ∈ ps) (hcfg : Part.cfg ∈ ps) (rmbx : Part.regs .mbx ∈ ps) (rpwr : Part.regs .pwr ∈ ps) (rwch : Part.regs .wch ∈ ps) (rring : Part.regs .ring ∈ ps) (h : Touches ps s₀ s) :
    Touches ps s₀ (cfgCommit c s) := by
  unfold cfgCommit
  with_reducible repeat' first
    | assumption
    | intro _
    | apply touches_checked
    | apply touches_answer
    | apply touches_State_wr
    | apply touches_beginCommit
    | apply touches_ite
    | exact has_R_CFG_STAT_ERR

theorem touches_cfgRead {ps : List Part} {s₀ : State} (c : Cmd) (s : State) (hlog : Part.log ∈ ps) (hsrv : Part.srv ∈ ps) (hrings : Part.rings ∈ ps) (hstack : Part.stack ∈ ps) (hmbx : Part.mbx ∈ ps) (hfw : Part.fw ∈ ps) (rmbx : Part.regs .mbx ∈ ps) (rwch : Part.regs .wch ∈ ps) (rring : Part.regs .ring ∈ ps) (h : Touches ps s₀ s) :
    Touches ps s₀ (cfgRead c s) := by
  unfold cfgRead
  with_reducible repeat' first
    | assumption
    | intro _
    | apply touches_checked
    | apply touches_answer

theorem touches_timeGet {ps : List Part} {s₀ : State} (c : Cmd) (s : State) (hlog : Part.log ∈ ps) (hsrv : Part.srv ∈ ps) (hrings : Part.rings ∈ ps) (hstack : Part.stack ∈ ps) (hmbx : Part.mbx ∈ ps) (hfw : Part.fw ∈ ps) (rmbx : Part.regs .mbx ∈ ps) (rwch : Part.regs .wch ∈ ps) (rring : Part.regs .ring ∈ ps) (h : Touches ps s₀ s) :
    Touches ps s₀ (timeGet c s) := by
  unfold timeGet
  with_reducible repeat' first
    | assumption
    | intro _
    | apply touches_checked
    | apply touches_answer

theorem touches_stepCmd {ps : List Part} {s₀ : State} (c : Cmd) (s : State) (hmem : Part.mem ∈ ps) (htick : Part.tick ∈ ps) (hlanes : Part.lanes ∈ ps) (hens : Part.ens ∈ ps) (hrfm : Part.rfm ∈ ps) (htim : Part.tim ∈ ps) (hgnss : Part.gnss ∈ ps) (hlog : Part.log ∈ ps) (hsrv : Part.srv ∈ ps) (hrings : Part.rings ∈ ps) (hstack : Part.stack ∈ ps) (hmbx : Part.mbx ∈ ps) (hfw : Part.fw ∈ ps) (hpcie : Part.pcie ∈ ps) (hwatch : Part.watch ∈ ps) (hpower : Part.power ∈ ps) (hrst : Part.rst ∈ ps) (hcfg : Part.cfg ∈ ps) (hall : ∀ b, Part.regs b ∈ ps) (h : Touches ps s₀ s) :
    Touches ps s₀ (stepCmd c s) := by
  unfold stepCmd
  with_reducible repeat' first
    | assumption
    | intro _
    | apply touches_checked
    | apply touches_busWrite
    | apply touches_settleCmd
    | apply touches_hold
    | apply hall

theorem touches_solGet {ps : List Part} {s₀ : State} (c : Cmd) (s : State) (hlog : Part.log ∈ ps) (hsrv : Part.srv ∈ ps) (hrings : Part.rings ∈ ps) (hstack : Part.stack ∈ ps) (hmbx : Part.mbx ∈ ps) (hfw : Part.fw ∈ ps) (rmbx : Part.regs .mbx ∈ ps) (rwch : Part.regs .wch ∈ ps) (rring : Part.regs .ring ∈ ps) (h : Touches ps s₀ s) :
    Touches ps s₀ (solGet c s) := by
  unfold solGet
  with_reducible repeat' first
    | assumption
    | intro _
    | apply touches_checked
    | apply touches_answer

theorem touches_navGet {ps : List Part} {s₀ : State} (c : Cmd) (s : State) (hlog : Part.log ∈ ps) (hsrv : Part.srv ∈ ps) (hrings : Part.rings ∈ ps) (hstack : Part.stack ∈ ps) (hmbx : Part.mbx ∈ ps) (hfw : Part.fw ∈ ps) (rmbx : Part.regs .mbx ∈ ps) (rwch : Part.regs .wch ∈ ps) (rring : Part.regs .ring ∈ ps) (h : Touches ps s₀ s) :
    Touches ps s₀ (navGet c s) := by
  unfold navGet
  with_reducible repeat' first
    | assumption
    | intro _
    | apply touches_checked
    | apply touches_answer

theorem touches_timRecords {ps : List Part} {s₀ : State} (c : Cmd) (s : State) (hlog : Part.log ∈ ps) (hsrv : Part.srv ∈ ps) (hrings : Part.rings ∈ ps) (hstack : Part.stack ∈ ps) (hmbx : Part.mbx ∈ ps) (hfw : Part.fw ∈ ps) (rtim : Part.regs .tim ∈ ps) (rmbx : Part.regs .mbx ∈ ps) (rwch : Part.regs .wch ∈ ps) (rring : Part.regs .ring ∈ ps) (h : Touches ps s₀ s) :
    Touches ps s₀ (timRecords c s) := by
  unfold timRecords
  with_reducible repeat' first
    | assumption
    | intro _
    | apply touches_checked
    | apply touches_answer
    | apply touches_State_wr
    | apply touches_ite
    | exact has_R_TIM_GRP_RD_RD _

theorem touches_svcSet {ps : List Part} {s₀ : State} (c : Cmd) (s : State) (hmem : Part.mem ∈ ps) (htick : Part.tick ∈ ps) (hlanes : Part.lanes ∈ ps) (hens : Part.ens ∈ ps) (hrfm : Part.rfm ∈ ps) (htim : Part.tim ∈ ps) (hgnss : Part.gnss ∈ ps) (hlog : Part.log ∈ ps) (hsrv : Part.srv ∈ ps) (hrings : Part.rings ∈ ps) (hstack : Part.stack ∈ ps) (hmbx : Part.mbx ∈ ps) (hfw : Part.fw ∈ ps) (hpcie : Part.pcie ∈ ps) (hwatch : Part.watch ∈ ps) (hpower : Part.power ∈ ps) (hrst : Part.rst ∈ ps) (hcfg : Part.cfg ∈ ps) (hall : ∀ b, Part.regs b ∈ ps) (h : Touches ps s₀ s) :
    Touches ps s₀ (svcSet c s) := by
  unfold svcSet
  with_reducible repeat' first
    | assumption
    | intro _
    | apply touches_checked
    | apply touches_busWrite
    | apply touches_endRunning
    | apply touches_hold
    | apply touches_ite
    | apply touches_foldl
    | apply hall

theorem touches_svcGet {ps : List Part} {s₀ : State} (c : Cmd) (s : State) (hlog : Part.log ∈ ps) (hsrv : Part.srv ∈ ps) (hrings : Part.rings ∈ ps) (hstack : Part.stack ∈ ps) (hmbx : Part.mbx ∈ ps) (hfw : Part.fw ∈ ps) (rmbx : Part.regs .mbx ∈ ps) (rwch : Part.regs .wch ∈ ps) (rring : Part.regs .ring ∈ ps) (h : Touches ps s₀ s) :
    Touches ps s₀ (svcGet c s) := by
  unfold svcGet
  with_reducible repeat' first
    | assumption
    | intro _
    | apply touches_checked
    | apply touches_answer

theorem touches_keyChecked {ps : List Part} {s₀ : State} (c : Cmd) (n : Nat) (fields : List (Nat × Bool)) (act : State → State) (s : State) (hlog : Part.log ∈ ps) (hsrv : Part.srv ∈ ps) (hrings : Part.rings ∈ ps) (hstack : Part.stack ∈ ps) (hmbx : Part.mbx ∈ ps) (hfw : Part.fw ∈ ps) (rmbx : Part.regs .mbx ∈ ps) (rwch : Part.regs .wch ∈ ps) (rring : Part.regs .ring ∈ ps) (g3 : ∀ s, Touches ps s₀ s → Touches ps s₀ (act s)) (h : Touches ps s₀ s) :
    Touches ps s₀ (keyChecked c n fields act s) := by
  unfold keyChecked
  with_reducible repeat' first
    | assumption
    | intro _
    | apply g3
    | apply touches_answer
    | apply touches_ite
    | dsimp only
    | split

theorem touches_startKeyChange {ps : List Part} {s₀ : State} (c : Cmd) (k : KeyChange) (s : State) (hsrv : Part.srv ∈ ps) (hfw : Part.fw ∈ ps) (rnts : Part.regs .nts ∈ ps) (h : Touches ps s₀ s) :
    Touches ps s₀ (startKeyChange c k s) := by
  unfold startKeyChange
  with_reducible repeat' first
    | assumption
    | intro _
    | apply touches_hold
    | apply touches_State_hi
    | apply touches_ite
    | apply touches_foldl
    | exact has_R_NTS_STAT_KEY_PEND _
    | dsimp only
    | split
    | apply touches_set_srv

theorem touches_keyNoChange {ps : List Part} {s₀ : State} (c : Cmd) (s : State) (hfw : Part.fw ∈ ps) (h : Touches ps s₀ s) :
    Touches ps s₀ (keyNoChange c s) := by
  unfold keyNoChange
  with_reducible repeat' first
    | assumption
    | intro _
    | apply touches_endRunning
    | apply touches_hold

theorem touches_keyLoad {ps : List Part} {s₀ : State} (c : Cmd) (s : State) (hlog : Part.log ∈ ps) (hsrv : Part.srv ∈ ps) (hrings : Part.rings ∈ ps) (hstack : Part.stack ∈ ps) (hmbx : Part.mbx ∈ ps) (hfw : Part.fw ∈ ps) (rmbx : Part.regs .mbx ∈ ps) (rwch : Part.regs .wch ∈ ps) (rnts : Part.regs .nts ∈ ps) (rring : Part.regs .ring ∈ ps) (h : Touches ps s₀ s) :
    Touches ps s₀ (keyLoad c s) := by
  unfold keyLoad
  with_reducible repeat' first
    | assumption
    | intro _
    | apply touches_keyChecked
    | apply touches_startKeyChange

theorem touches_keyPromote {ps : List Part} {s₀ : State} (c : Cmd) (s : State) (hlog : Part.log ∈ ps) (hsrv : Part.srv ∈ ps) (hrings : Part.rings ∈ ps) (hstack : Part.stack ∈ ps) (hmbx : Part.mbx ∈ ps) (hfw : Part.fw ∈ ps) (rmbx : Part.regs .mbx ∈ ps) (rwch : Part.regs .wch ∈ ps) (rnts : Part.regs .nts ∈ ps) (rring : Part.regs .ring ∈ ps) (h : Touches ps s₀ s) :
    Touches ps s₀ (keyPromote c s) := by
  unfold keyPromote
  with_reducible repeat' first
    | assumption
    | intro _
    | apply touches_keyChecked
    | apply touches_keyNoChange
    | apply touches_startKeyChange
    | apply touches_ite

theorem touches_keyRetire {ps : List Part} {s₀ : State} (c : Cmd) (s : State) (hlog : Part.log ∈ ps) (hsrv : Part.srv ∈ ps) (hrings : Part.rings ∈ ps) (hstack : Part.stack ∈ ps) (hmbx : Part.mbx ∈ ps) (hfw : Part.fw ∈ ps) (rmbx : Part.regs .mbx ∈ ps) (rwch : Part.regs .wch ∈ ps) (rnts : Part.regs .nts ∈ ps) (rring : Part.regs .ring ∈ ps) (h : Touches ps s₀ s) :
    Touches ps s₀ (keyRetire c s) := by
  unfold keyRetire
  with_reducible repeat' first
    | assumption
    | intro _
    | apply touches_keyChecked
    | apply touches_answer
    | apply touches_startKeyChange
    | apply touches_ite

theorem touches_keyStatus {ps : List Part} {s₀ : State} (c : Cmd) (s : State) (hlog : Part.log ∈ ps) (hsrv : Part.srv ∈ ps) (hrings : Part.rings ∈ ps) (hstack : Part.stack ∈ ps) (hmbx : Part.mbx ∈ ps) (hfw : Part.fw ∈ ps) (rmbx : Part.regs .mbx ∈ ps) (rwch : Part.regs .wch ∈ ps) (rring : Part.regs .ring ∈ ps) (h : Touches ps s₀ s) :
    Touches ps s₀ (keyStatus c s) := by
  unfold keyStatus
  with_reducible repeat' first
    | assumption
    | intro _
    | apply touches_keyChecked
    | apply touches_keyNoChange

theorem touches_keyChangeEffect {ps : List Part} {s₀ : State} (s : State) (htick : Part.tick ∈ ps) (hlanes : Part.lanes ∈ ps) (hsrv : Part.srv ∈ ps) (hfw : Part.fw ∈ ps) (rnts : Part.regs .nts ∈ ps) (h : Touches ps s₀ s) :
    Touches ps s₀ (keyChangeEffect s) := by
  unfold keyChangeEffect
  with_reducible repeat' first
    | assumption
    | intro _
    | apply touches_keyChangeNow
    | apply touches_waitKeyInstant
    | apply touches_endRunning
    | apply touches_ite
    | apply touches_foldl
    | dsimp only
    | split

theorem touches_cstLookup {ps : List Part} {s₀ : State} (c : Cmd) (s : State) (hlog : Part.log ∈ ps) (hsrv : Part.srv ∈ ps) (hrings : Part.rings ∈ ps) (hstack : Part.stack ∈ ps) (hmbx : Part.mbx ∈ ps) (hfw : Part.fw ∈ ps) (rmbx : Part.regs .mbx ∈ ps) (rwch : Part.regs .wch ∈ ps) (rring : Part.regs .ring ∈ ps) (h : Touches ps s₀ s) :
    Touches ps s₀ (cstLookup c s) := by
  unfold cstLookup
  with_reducible repeat' first
    | assumption
    | intro _
    | apply touches_checked
    | apply touches_answer
    | apply touches_ite
    | dsimp only
    | split

theorem touches_cstRemove {ps : List Part} {s₀ : State} (c : Cmd) (s : State) (hlog : Part.log ∈ ps) (hsrv : Part.srv ∈ ps) (hrings : Part.rings ∈ ps) (hstack : Part.stack ∈ ps) (hmbx : Part.mbx ∈ ps) (hfw : Part.fw ∈ ps) (rmbx : Part.regs .mbx ∈ ps) (rwch : Part.regs .wch ∈ ps) (rring : Part.regs .ring ∈ ps) (h : Touches ps s₀ s) :
    Touches ps s₀ (cstRemove c s) := by
  unfold cstRemove
  with_reducible repeat' first
    | assumption
    | intro _
    | apply touches_checked
    | apply touches_removeWhenFree
    | apply touches_hold

theorem touches_cstDump {ps : List Part} {s₀ : State} (c : Cmd) (s : State) (hlog : Part.log ∈ ps) (hsrv : Part.srv ∈ ps) (hrings : Part.rings ∈ ps) (hstack : Part.stack ∈ ps) (hmbx : Part.mbx ∈ ps) (hfw : Part.fw ∈ ps) (rmbx : Part.regs .mbx ∈ ps) (rwch : Part.regs .wch ∈ ps) (rring : Part.regs .ring ∈ ps) (h : Touches ps s₀ s) :
    Touches ps s₀ (cstDump c s) := by
  unfold cstDump
  with_reducible repeat' first
    | assumption
    | intro _
    | apply touches_checked
    | apply touches_answer

theorem touches_grantRead {ps : List Part} {s₀ : State} (c : Cmd) (s : State) (hlog : Part.log ∈ ps) (hsrv : Part.srv ∈ ps) (hrings : Part.rings ∈ ps) (hstack : Part.stack ∈ ps) (hmbx : Part.mbx ∈ ps) (hfw : Part.fw ∈ ps) (rmbx : Part.regs .mbx ∈ ps) (rwch : Part.regs .wch ∈ ps) (rring : Part.regs .ring ∈ ps) (h : Touches ps s₀ s) :
    Touches ps s₀ (grantRead c s) := by
  unfold grantRead
  with_reducible repeat' first
    | assumption
    | intro _
    | apply touches_checked
    | apply touches_answer

theorem touches_relayCmd {ps : List Part} {s₀ : State} (c : Cmd) (s : State) (hlog : Part.log ∈ ps) (hsrv : Part.srv ∈ ps) (hrings : Part.rings ∈ ps) (hstack : Part.stack ∈ ps) (hmbx : Part.mbx ∈ ps) (hfw : Part.fw ∈ ps) (rmbx : Part.regs .mbx ∈ ps) (rwch : Part.regs .wch ∈ ps) (rring : Part.regs .ring ∈ ps) (h : Touches ps s₀ s) :
    Touches ps s₀ (relayCmd c s) := by
  unfold relayCmd
  with_reducible repeat' first
    | assumption
    | intro _
    | apply touches_checked
    | apply touches_hold
    | apply touches_sendRelay

theorem touches_handoverCmd {ps : List Part} {s₀ : State} (c : Cmd) (s : State) (hlog : Part.log ∈ ps) (hsrv : Part.srv ∈ ps) (hrings : Part.rings ∈ ps) (hstack : Part.stack ∈ ps) (hmbx : Part.mbx ∈ ps) (hfw : Part.fw ∈ ps) (rmbx : Part.regs .mbx ∈ ps) (rwch : Part.regs .wch ∈ ps) (rring : Part.regs .ring ∈ ps) (h : Touches ps s₀ s) :
    Touches ps s₀ (handoverCmd c s) := by
  unfold handoverCmd
  with_reducible repeat' first
    | assumption
    | intro _
    | apply touches_checked
    | apply touches_answer
    | apply touches_State_modStack
    | apply touches_sendTnd
    | apply touches_ite

theorem touches_resetCommand {ps : List Part} {s₀ : State} (c : Cmd) (s : State) (hlog : Part.log ∈ ps) (hsrv : Part.srv ∈ ps) (hrings : Part.rings ∈ ps) (hstack : Part.stack ∈ ps) (hmbx : Part.mbx ∈ ps) (hfw : Part.fw ∈ ps) (hrst : Part.rst ∈ ps) (rmbx : Part.regs .mbx ∈ ps) (rwch : Part.regs .wch ∈ ps) (rring : Part.regs .ring ∈ ps) (h : Touches ps s₀ s) :
    Touches ps s₀ (resetCommand c s) := by
  unfold resetCommand
  with_reducible repeat' first
    | assumption
    | intro _
    | apply touches_checked
    | apply touches_answer
    | dsimp only
    | split
    | apply touches_set_rst

theorem touches_watchRun {ps : List Part} {s₀ : State} (c : Cmd) (s : State) (htick : Part.tick ∈ ps) (hlanes : Part.lanes ∈ ps) (htim : Part.tim ∈ ps) (hgnss : Part.gnss ∈ ps) (hlog : Part.log ∈ ps) (hsrv : Part.srv ∈ ps) (hrings : Part.rings ∈ ps) (hstack : Part.stack ∈ ps) (hmbx : Part.mbx ∈ ps) (hfw : Part.fw ∈ ps) (hwatch : Part.watch ∈ ps) (rgns : Part.regs .gns ∈ ps) (rtim : Part.regs .tim ∈ ps) (rmbx : Part.regs .mbx ∈ ps) (rwch : Part.regs .wch ∈ ps) (rring : Part.regs .ring ∈ ps) (h : Touches ps s₀ s) :
    Touches ps s₀ (watchRun c s) := by
  unfold watchRun
  with_reducible repeat' first
    | assumption
    | intro _
    | apply touches_checked
    | apply touches_answer
    | apply touches_advanceRun
    | apply touches_startRun
    | apply touches_startDeferred
    | apply touches_ite

theorem touches_logRead {ps : List Part} {s₀ : State} (c : Cmd) (s : State) (hlog : Part.log ∈ ps) (hsrv : Part.srv ∈ ps) (hrings : Part.rings ∈ ps) (hstack : Part.stack ∈ ps) (hmbx : Part.mbx ∈ ps) (hfw : Part.fw ∈ ps) (rmbx : Part.regs .mbx ∈ ps) (rwch : Part.regs .wch ∈ ps) (rring : Part.regs .ring ∈ ps) (h : Touches ps s₀ s) :
    Touches ps s₀ (logRead c s) := by
  unfold logRead
  with_reducible repeat' first
    | assumption
    | intro _
    | apply touches_checked
    | apply touches_answer

theorem touches_hoursCmd {ps : List Part} {s₀ : State} (c : Cmd) (s : State) (hmem : Part.mem ∈ ps) (htick : Part.tick ∈ ps) (hlanes : Part.lanes ∈ ps) (hens : Part.ens ∈ ps) (hrfm : Part.rfm ∈ ps) (htim : Part.tim ∈ ps) (hgnss : Part.gnss ∈ ps) (hlog : Part.log ∈ ps) (hsrv : Part.srv ∈ ps) (hrings : Part.rings ∈ ps) (hstack : Part.stack ∈ ps) (hmbx : Part.mbx ∈ ps) (hfw : Part.fw ∈ ps) (hpcie : Part.pcie ∈ ps) (hwatch : Part.watch ∈ ps) (hpower : Part.power ∈ ps) (hrst : Part.rst ∈ ps) (hcfg : Part.cfg ∈ ps) (hall : ∀ b, Part.regs b ∈ ps) (h : Touches ps s₀ s) :
    Touches ps s₀ (hoursCmd c s) := by
  unfold hoursCmd
  with_reducible repeat' first
    | assumption
    | intro _
    | apply touches_checked
    | apply touches_busWrite
    | apply touches_answer
    | apply touches_hold
    | apply touches_ite
    | apply hall

end Sys2Proof.Machine
end

