-- ==== Sys2Proof/WellFormed.lean ====
section
/-! DEFINITION. When the operands of a command are ones the hardware can be given, where their types do not already say so.  Commands
outside these bounds still have a meaning: nothing in the machine rests on the checks. -/

namespace Sys2Proof

/-- The byte offsets behind both functions' BARs: BAR0, then BAR2 (R40, R44). -/
def barEnd : Nat := 0x9000000

/-- A register address a function can name: a multiple of 4 behind its BARs (R40). -/
def regAddrOk (a : Nat) : Bool := a % 4 = 0 && decide (a < barEnd)

/-- A place within a tick, in 2^-16 ns (R47). -/
def subTickOk (sub : Nat) : Bool := decide (sub < 81920)

/-- Coarse periods that can start within one tick (R181). -/
def coarseOk (dc : Nat) : Bool := decide (dc < 4)

/-- Whether a command's operands are ones the hardware can be given. -/
def Instr.wellFormed : Instr → Bool
  | .lanePulseRx _ sub => subTickOk sub
  | .frameCommit _ sub => subTickOk sub
  | .tiEdge _ dc _ _ => coarseOk dc
  | .gateOpen _ dc _ => coarseOk dc
  | .gateClose _ dc _ => coarseOk dc
  | .laneReturn _ dc _ => coarseOk dc
  | .modulePps _ dc _ => coarseOk dc
  | .calPassEnd _ hits => hits.length = 64
  | .gnssEpoch _ dc _ _ _ _ => coarseOk dc
  | .navRecord _ _ _ _ _ payload _ => decide (payload.length ≤ 96)
  | .doorbell _ _ _ descs => descs.all (fun d => decide (32 ≤ d.length))
  | .mooringTimeRx _ _ f => decide (56 ≤ f.length)
  | .mbxLockRead _ readers => decide readers.Nodup && !readers.isEmpty
  | .bootImageSelect sfdp => match sfdp with
    | some (_, e) => decide (e = 4096 ∨ e = 65536)
    | none => true
  | .forbiddenAccess addr _ => regAddrOk addr
  | .offWindowAccess addr _ => regAddrOk addr
  | .rcRead _ addr => regAddrOk addr
  | .registerWrite _ addr _ => regAddrOk addr
  | _ => true

end Sys2Proof
end

