-- ==== Sys2Proof/Tests/Slice0.lean ====
section
/-! SUPPORT. Tests: the checks of WellFormed, single commands against the spec's worked examples and tables, and for every obligation
with hypotheses a state and operands that meet them. -/

open Sys2Proof Sys2Proof.Machine

namespace Sys2Proof.Tests

set_option maxRecDepth 100000
/- One theorem at a time: theorems that wait for one another's kernel check would each hold a stack. -/
set_option Elab.async false

/-! ### Operands the hardware cannot be given, and words -/

theorem test_wf_sub_tick : (Instr.lanePulseRx 0 81920).wellFormed = false ∧ (Instr.lanePulseRx 0 81919).wellFormed = true := by decide
theorem test_wf_frame_sub_tick : (Instr.frameCommit 0 81920).wellFormed = false := by decide
theorem test_wf_coarse : (Instr.tiEdge 0 4 0 false).wellFormed = false ∧ (Instr.tiEdge 0 3 0 false).wellFormed = true := by decide
theorem test_wf_gate_open : (Instr.gateOpen 0 4 true).wellFormed = false := by decide
theorem test_wf_gate_close : (Instr.gateClose 0 4 true).wellFormed = false := by decide
theorem test_wf_cal_pass : (Instr.calPassEnd 0 [1, 2]).wellFormed = false := by decide
theorem test_wf_nav_record : (Instr.navRecord 0 false false 0 0 (List.replicate 97 0) none).wellFormed = false := by decide
theorem test_wf_doorbell : (Instr.doorbell 0 0 0 [[1]]).wellFormed = false := by decide
theorem test_wf_mooring_time : (Instr.mooringTimeRx 0 0 []).wellFormed = false := by decide
theorem test_wf_lock_readers : (Instr.mbxLockRead 2 [.beacon 1, .beacon 1]).wellFormed = false ∧ (Instr.mbxLockRead 2 []).wellFormed = false := by decide
theorem test_wf_sfdp : (Instr.bootImageSelect (some (64, 8192))).wellFormed = false ∧ (Instr.bootImageSelect (some (64, 4096))).wellFormed = true := by decide
theorem test_wf_forbidden : (Instr.forbiddenAccess 0x10001 none).wellFormed = false := by decide
theorem test_wf_off_window : (Instr.offWindowAccess 0x9000000 none).wellFormed = false := by decide
theorem test_wf_rc_read : (Instr.rcRead 0 0x9000000).wellFormed = false ∧ (Instr.rcRead 0 0x40).wellFormed = true := by decide
theorem test_wf_register_write : (Instr.registerWrite 0 2 0).wellFormed = false := by decide

/-- The opcode table gives its rows no bits: no word spells a command. -/
theorem test_no_word : decodeTableWord 32 0x00100093 = none := by decide

/-! ### Single commands and operations, against the spec's worked examples and tables -/

/-- The state a command leads to. -/
def after : Res State → State
  | .next t => t
  | _ => State.reset

/-- The device after its reset, with the firmware running. -/
def dev : State := { State.reset with rst := {} }.hi R.DEV_DIE_STAT_KFW_RUN

/-- A tick is 1.25 ns at the nominal increment (R46). -/
theorem test_tick : (after (step dev)).ts0 = 81920 ∧ (after (step dev)).tick.count = 1 := by decide

/-- The host owns TS0. -/
def host0 : State := dev.hi R.TSC_CTL_OWN0

/-- The increment's lower bound is 1.248750 ns inclusive (R49). -/
theorem test_incr_low : (after (exec (.incrApply .ts0 .host 1)
    (after (exec (.registerWrite 1 0x10024 0x3FAE) (after (exec (.registerWrite 1 0x10028 0x147AE148) host0)))))).on (R.TSC_INCR_CTL_REJECTED 0) = false := by decide
theorem test_incr_rejected : (after (exec (.incrApply .ts0 .host 1)
    (after (exec (.registerWrite 1 0x10024 0x3FAE) (after (exec (.registerWrite 1 0x10028 0x147AE147) host0)))))).on (R.TSC_INCR_CTL_REJECTED 0) = true := by decide

/-- 1,800,000,037.25 s with OFS 37 is 0xEEF4_5080 . 0x4000_0002 in NTP (the example of R68). -/
theorem test_ntp_time : (dev.wr R.TSC_UTC_OFS_OFS 37 |>.hi R.TSC_UTC_OFS_VALID).ntpTime ((1800000037 * 1000000000 + 250000000) * 65536 + 0x8000)
    = 0xEEF4508040000002 := by decide +kernel

/-- Slots 0, 1 and 4 of the example of R85: their weights of 65,536. -/
theorem test_weights :
    let cs : List Contribution := [{ i := 0, x := 3, w := 1 / 4 }, { i := 1, x := 3 / 2, w := 4 / 25 }, { i := 4, x := -4, w := 1 / 100 }]
    cs.map (fun c => rndNearest (c.w / (combine cs).2 * 65536)) = [39010, 24966, 1560] := by decide +kernel

/-- The corrections of port P17 in the example of R231, 3,360 + 217 - 12 + 145 ps, are 243,139 units. -/
theorem test_stamp_correction : psUnits (3360 + 217 - 12 + 145) = 243139 := by decide +kernel

/-- The effective budget of the derating example of R446: 281 grants at 119 °C, 320 at 112 °C. -/
theorem test_derating : effective 320 (119 * 256) = 281 ∧ effective 320 (112 * 256) = 320 := by decide +kernel

/-- The first cut of that example: engine 11 of die 0. -/
theorem test_first_cut : ((([0, 1, 2, 3] : List Nat).foldl (fun s n => s.wr (R.TSC_LANE_STAT_STATE n) 2) dev).nextCut) = some (.engine 11) := by decide +kernel

/-- Beacon controllers 1 and 2 read MBX2's lock in one cycle: 0x05 wins and 0x06 reads the winner's ID (the example of R405). -/
theorem test_lock_race : (after (exec (.mbxLockRead 2 [.beacon 2, .beacon 1]) dev)).out = [.lockRead 5 0, .lockRead 6 5]
    ∨ (after (exec (.mbxLockRead 2 [.beacon 2, .beacon 1]) dev)).out = [.lockRead 6 5, .lockRead 5 0] := by decide
theorem test_lock_owner : (after (exec (.mbxLockRead 2 [.beacon 2, .beacon 1]) dev)).mbxOwner 2 = 5 := by decide

/-- A counter at 2^48 - 1 wraps to 0 with OVF (R466); PCT_SEL keeps OVF (R467). -/
def ecc5 : State := { dev with pct := [(5, { event := 0x060, unit := 2, count := 2 ^ 48 - 1 })] }
theorem test_counter_wraps : (IMap.get {} (after (exec (.eccError (.cst 2 9) 4 true) ecc5)).pct 5).count = 0
    ∧ (after (exec (.eccError (.cst 2 9) 4 true) ecc5)).rd (R.PCT_OVF_OVF 0) = 0x20 := by decide
theorem test_select_keeps_ovf : (after (exec (.pctSelect 5 0x101) (dev.wr (R.PCT_OVF_OVF 0) 0x20))).rd (R.PCT_OVF_OVF 0) = 0x20 := by decide +kernel

/-- The capability list of R440 is found by reads from 0x040 on. -/
theorem test_capability_first : (after (exec (.rcRead 0 0x40) dev)).out.head? = some (.readData 0x14010001) := by decide +kernel
theorem test_capability_last : (after (exec (.rcRead 1 0x130) dev)).out.head? = some (.readData 0x00010010) := by decide +kernel

/-- PF0 outside its blocks (R42), PF1 at a reserved offset (R43). -/
theorem test_forbidden : (after (exec (.forbiddenAccess 0x10000 none) dev)).out = [.readData 0xFFFFFFFF, .aer 0 0x10000 false] := by decide +kernel
theorem test_reserved : (after (exec (.rcRead 1 0x180000) dev)).out = [.readData 0] := by decide +kernel

/-- W1C bits written 1 clear, the others stay (R10). -/
theorem test_w1c : (after (exec (.registerWrite 1 0x14000C 0x5) (dev.wr R.WCH_EVT_BITS 7))).rd R.WCH_EVT_BITS = 2 := by decide +kernel

/-- The pair (0x140_000C, 0xC8) sets COAST_LIMIT of die 0 to 200 (the example of R455). -/
theorem test_pair : (busWrite 3 0x140000C 0xC8 dev).rd (R.TSC_LANE_CTL_COAST_LIMIT 0) = 200 := by decide +kernel

/-- A GO with another KEY is discarded with its event (R447). -/
theorem test_bad_key : (after (exec (.rstGo 0xA401) dev)).rst.active = none ∧ (after (exec (.rstGo 0xA401) dev)).rd R.PWR_EVT_BITS = 64 := by decide

/-- Leaving EXTEST for BYPASS is a cold reset (R497). -/
theorem test_tap_leave : (after (exec (.tapInstruction (.load 0xFF)) (after (exec (.tapInstruction (.load 3)) dev)))).rst.active = some (.cold, 0) := by decide +kernel

/-- POR_N low for less than 1 µs is ignored (R495). -/
theorem test_por_short : (after (exec (.powerOnReset 999 true) dev)).rst.active = none := by decide

/-- The 8-bit codes of the TAP's table; a code that is not in it is BYPASS (R496). -/
theorem test_tap_codes : tapDecode 0xFF = .bypass ∧ tapDecode 0x7E = .bypass ∧ tapDecode 2 = .sample := by decide

/-- The SIV and the ciphertext of RFC 5297's example A.1 (R294 names the RFC). -/
theorem test_siv :
    let k := be 32 0xfffefdfcfbfaf9f8f7f6f5f4f3f2f1f0f0f1f2f3f4f5f6f7f8f9fafbfcfdfeff
    let p := be 14 0x112233445566778899aabbccddee
    let v := s2v (k.take 16) [be 24 0x101112131415161718191a1b1c1d1e1f2021222324252627] p
    v ++ sivCtr (k.drop 16) v p = be 30 0x85632d07c6e8f37f950acd320a2ecc9340c02b9690c4dc04daef7f6afe5c := by decide +kernel

/-- An access beyond the BARs is the one stop. -/
theorem test_stop : exec (.rcRead 1 0x9000000) dev = .fault (.noSuchAddress 0x9000000) := rfl

/-- A ring is empty at TAIL when it is enabled (R351). -/
theorem test_ring_enable : (after (exec (.ringEnable 0 256 1) (dev.wr (R.HRG_RING_TAIL_TAIL 256) 9))).rd (R.HRG_RING_HEAD_HEAD 256) = 9 := by decide +kernel

/-- 50 ps and -45 ps of closure in units of 2^-8 ns (the example of R384). -/
theorem test_closure : rndNearest (mkRat (50 * 256) 1000) = 13 ∧ rndNearest (mkRat (-45 * 256) 1000) = -12 := by decide +kernel


/-! ### Hypotheses that are met -/

/-- The state witnesses start from. -/
def z : State := State.reset

/-- A command of PF1 in MBX8 that names the IPv4 client 10.0.0.1, port 123, of die 2. -/
def clientCmd (op : Nat) : Cmd :=
  { path := .mbx 8, sender := 2, bytes := le 2 op ++ le 2 66 ++ le 2 28 ++ [0, 2] ++ le 8 0
      ++ ([2, 4, 0, 0] ++ [10, 0, 0, 1] ++ List.replicate 12 0 ++ le 2 123 ++ [0, 0, 0, 0, 0, 0]) }

/-- That client's hash and the first way of its bucket, and the device with die 2 locked and the client's entry there. -/
def clientHash (op : Nat) : Nat := State.reset.namedHash (clientCmd op)
def clientAt (op : Nat) : Nat := 2 * 2097152 + clientHash op % 2 ^ 18 * 8 + 0
def withClient (op : Nat) : State :=
  (State.reset.wr (R.TSC_LANE_STAT_STATE 2) 2).setCst (clientAt op) { key := clientHash op, valid := true, gen := 0 }

theorem namedEntry_first (s : State) (c : Cmd) (h : s.cstLive (c.b 0) (c.b 0 * 2097152 + s.namedHash c % 2 ^ 18 * 8 + 0) = true)
    (k : (s.cst (c.b 0 * 2097152 + s.namedHash c % 2 ^ 18 * 8 + 0)).key = s.namedHash c) :
    s.namedEntry c = some (c.b 0 * 2097152 + s.namedHash c % 2 ^ 18 * 8 + 0) := by
  unfold State.namedEntry
  have e : ways (c.b 0) (s.namedHash c % 2 ^ 18) = (c.b 0 * 2097152 + s.namedHash c % 2 ^ 18 * 8 + 0) ::
      (List.range' 1 7).map (fun w => c.b 0 * 2097152 + s.namedHash c % 2 ^ 18 * 8 + w) := rfl
  simp only [e, List.cons_append]
  rw [List.find?_cons_of_pos]
  simp only [h, k, Bool.true_and, decide_true]

theorem client_found (s : State) (op : Nat) (hb : (clientCmd op).b 0 = 2) (hd : s.srv.hashDraw = State.reset.srv.hashDraw)
    (hc : s.srv.cst = (withClient op).srv.cst) (hg : s.rd (R.NTP_CST_CTL_GEN 2) = 0) :
    s.namedEntry (clientCmd op) = some (clientAt op) := by
  have hh : s.namedHash (clientCmd op) = clientHash op := by
    unfold clientHash State.namedHash
    rw [hd]
  have hi : s.cst (clientAt op) = { key := clientHash op, valid := true, gen := 0 } := by
    unfold State.cst
    rw [hc]
    exact IMap.get_put_same _ _ _ _
  have hw : (clientCmd op).b 0 * 2097152 + s.namedHash (clientCmd op) % 2 ^ 18 * 8 + 0 = clientAt op := by
    rw [hb, hh]; rfl
  have := namedEntry_first s (clientCmd op)
  rw [hw] at this
  refine this ?_ ?_
  · unfold State.cstLive
    rw [hi, hb, hg]; rfl
  · rw [hi, hh]

def clientWaits (op : Nat) : State := { withClient op with fw := { (withClient op).fw with current := some (clientCmd op) } }
def clientRuns (op : Nat) : State :=
  { withClient op with fw := { (withClient op).fw with nextId := 5, running := [{ id := 4, since := 9, cmd := clientCmd op }] } }

theorem client_lookup : (clientWaits 0x720).namedEntry (clientCmd 0x720) = some (clientAt 0x720) :=
  client_found _ _ (by decide) rfl rfl (by decide)
theorem client_remove : (clientWaits 0x721).namedEntry (clientCmd 0x721) = some (clientAt 0x721) :=
  client_found _ _ (by decide) rfl rfl (by decide)
theorem client_removing : (clientRuns 0x721).namedEntry (clientCmd 0x721) = some (clientAt 0x721) :=
  client_found _ _ (by decide) rfl rfl (by decide)


theorem uid_back (u : Nat) (h : u < 2 ^ 64) : leAt (natBytes ((le 8 u ++ [6, 0, 0, 0]).map (BitVec.ofNat 8))) 0 8 = u := by
  simp only [natBytes, le, leAt]
  simp
  omega
theorem uid_tail (u : Nat) : (natBytes ((le 8 u ++ [6, 0, 0, 0]).map (BitVec.ofNat 8))).getD 8 0 = 6 := rfl


/-- One satellite alone is never excluded: its residual is 0. -/
theorem excluded_single (word thr : Nat) (v : SatUse) (hw : v.w ≠ 0) : excluded word thr [v] = [] := by
  have hs : sharing word v.sys [v] = [v] := by simp [sharing]
  have h : Machine.residual word [v] v = 0 := by
    have hw' : (v.w : Rat) ≠ 0 := by exact_mod_cast hw
    simp only [Machine.residual, hs, meanTime, List.foldl, zero_add]
    rw [mul_div_cancel_left₀ _ hw', sub_self]
  have h0 (y : Nat) : (([v].filter (fun q => q.sys = y && decide ((thr : Rat) < |Machine.residual word [v] q|)))) = [] := by
    have : ¬ ((thr : Rat) < 0) := not_lt.mpr (Nat.cast_nonneg thr)
    simp [h, this]
  simp [excluded, h0]

/-- A known position and one satellite of REF_SYS make a valid solution. -/
theorem solve_single (u : State) (a word e : Nat) (p : Int × Int × Int) (fix : GnssFix) (v : SatUse)
    (h : u.usedSats a word e p fix = [v]) (hw : v.w ≠ 0) (hs : ([0, 1, 2, 3].filter (fun y => y ≠ word % 4 && [v].any (fun q => q.sys = y))) = []) :
    (u.solve a word e (some p) fix).least ≤ (u.solve a word e (some p) fix).used.length := by
  have ho : otherSystems word [v] = 0 := by unfold otherSystems; rw [hs]; rfl
  simp [State.solve, State.satsFrom, h, excluded_single _ _ _ hw, leastSats, ho]

/-- The hypotheses of the statements over every command and every step are met. -/
theorem witness_IdleStepIsOneTick : ∃ s : State, s.pending = [] := ⟨z, rfl⟩
theorem witness_EveryCommandCompletes : ∃ i : Instr, inBars i := ⟨.rcRead 1 0x8FFFFFC, fun _ h => by cases h; decide⟩
theorem witness_StopsAreBeyondTheBars :
    (∃ (i : Instr) (s : State) (f : Fault), exec i s = .fault f) ∧ ∃ (i : Instr) (a : Nat), addressOf i = some a ∧ 0x9000000 ≤ a :=
  ⟨⟨.rcRead 1 0x9000000, z, _, rfl⟩, .rcRead 1 0x9000000, _, rfl, Nat.le_refl _⟩
theorem witness_AnswerableQueueStays : ∃ s : State, s.pending ≠ [] ∧ s.Answerable :=
  ⟨{ z with pending := [.nop] }, by decide, fun i h a k => by cases List.mem_singleton.mp h; cases k⟩
theorem witness_StepKeepsForm : ∃ s t : State, s.Form ∧ step s = .next t := ⟨z, _, ⟨by decide, by decide⟩, rfl⟩
theorem witness_CommandsTouchTheirOwnParts : ∃ (i : Instr) (s t : State), exec i s = .next t := ⟨.nop, z, _, rfl⟩

/-- MBX2 as Beacon controller 1 has locked it. -/
def locked2 : State := ((z.hi R.DEV_DIE_STAT_KFW_RUN).wr (R.MBX_STAT_STATE 2) 1).wr (R.MBX_STAT_OWNER 2) 5
theorem witness_EmptiedChannelIsClear : ∃ (s t : State) (i : Instr) (c : Fin 16), (∃ d p w, i = .mbxRelease d p w) ∧
    exec i s = .next t ∧ s.mbxState c.val ≠ 0 ∧ t.mbxState c.val = 0 :=
  ⟨locked2, _, .mbxRelease 2 (.beacon 1) 4, 2, ⟨_, _, _, rfl⟩, rfl, by decide, by decide +kernel⟩

/-- One more case of `Obligations.ServiceCommands`. -/
theorem witness_ServiceCommands_17 :
    ∃ (s : State) (c : Cmd) (i : Nat), (s.fw.current = some c) ∧ (c.op = 0x0720) ∧ (refusal (decide (c.len = 28)) ([c.below 0 4, (1, decide (c.b 1 ≠ 4) && decide (c.b 1 ≠ 6))] ++ c.reserved 2 2 ++ [c.inside 22 2 0 4095, c.inside 24 2 0 4095] ++ c.reserved 26 2) (s.dieOff (c.b 0) || (s.namedEntry c).isNone) (s.holder c) = none) ∧ (s.namedEntry c = some i) :=
  ⟨clientWaits 0x720, clientCmd 0x720, clientAt 0x720, rfl, by decide, by rw [client_lookup]; decide, client_lookup⟩

/-- One more case of `Obligations.ServiceCommands`. -/
theorem witness_ServiceCommands_20 :
    ∃ (s : State) (c : Cmd) (i : Nat), (s.fw.current = some c) ∧ (c.op = 0x0721) ∧ (refusal (decide (c.len = 28)) ([c.below 0 4, (1, decide (c.b 1 ≠ 4) && decide (c.b 1 ≠ 6))] ++ c.reserved 2 2 ++ [c.inside 22 2 0 4095, c.inside 24 2 0 4095] ++ c.reserved 26 2) (s.dieOff (c.b 0) || (s.namedEntry c).isNone) (s.holder c) = none) ∧ (s.namedEntry c = some i) :=
  ⟨clientWaits 0x721, clientCmd 0x721, clientAt 0x721, rfl, by decide, by rw [client_remove]; decide, client_remove⟩

/-- One more case of `Obligations.CommandService`. -/
theorem witness_CommandService_14 :
    ∃ (s : State) (id : Nat) (r : Running) (i : Nat), (s.runningAt id = some r) ∧ (r.id = id) ∧ (r.ending = none) ∧ (r.cmd.op = 0x0721) ∧ (s.namedEntry r.cmd = some i) ∧ (s.cstWaited (r.cmd.b 0) i = true) := by
  let f : TxFrame := { kind := .still (some (clientAt 0x721)) }
  let s : State := (clientRuns 0x721).modPort 16 (fun k => { k with queues := [(7, [f])] })
  refine ⟨s, 4, { id := 4, since := 9, cmd := clientCmd 0x721 }, clientAt 0x721, rfl, rfl, rfl, by decide, ?_, ?_⟩
  · exact client_found _ _ (by decide) rfl rfl (by decide)
  · have hb : (clientCmd 0x721).b 0 = 2 := by decide
    have hq : s.txq (2 * 8 + 0) 7 = [f] := rfl
    simp only [hb, State.cstWaited, Bool.or_eq_true, List.any_eq_true]
    refine Or.inr ⟨0, by decide, f, ?_, decide_eq_true rfl⟩
    rw [hq]
    exact List.mem_append_left _ (List.mem_append_left _ List.mem_cons_self)

/-- One more case of `Obligations.CommandService`. -/
theorem witness_CommandService_16 :
    ∃ (s : State) (id : Nat) (r : Running) (i : Nat), (s.runningAt id = some r) ∧ (r.id = id) ∧ (r.ending = none) ∧ (r.cmd.op = 0x0721) ∧ (s.namedEntry r.cmd = some i) ∧ (s.cstWaited (r.cmd.b 0) i = false) ∧ (r.deferred = false) :=
  ⟨clientRuns 0x721, 4, { id := 4, since := 9, cmd := clientCmd 0x721 }, clientAt 0x721, rfl, rfl, rfl, by decide, client_removing, by decide, rfl⟩

/-- One more case of `Obligations.IntervalInputs`. -/
theorem witness_IntervalInputs_3 :
    ∃ (s : State) (c : Fin 64) (dc : Nat) (bin : Fin 64) (fall : Bool) (last : Nat), ∃ q, q = (s.waitTick (tickOfCoarse (s.coarseNow + dc))) ∧ ∃ e, e = (q.capture c.val (s.coarseNow + dc) bin.val fall) ∧ ∃ g, g = (groupOf c.val) ∧ ((s.chState c.val = 1) ∧ (s.chMode c.val = 0) ∧ ((s.chEdge c.val = (if fall then 1 else 0))) ∧ (s.on (R.TIM_CH_CFG_GATED c.val) = false) ∧ (s.rd (R.TIM_CH_CFG_PRESCALE c.val) = 0) ∧ ((s.chan c.val).lastPos = some last) ∧ ((s.coarseNow + dc) * 65536 + s.binCentre g (s.servedBy c.val (s.coarseNow + dc)).1 bin.val < last + 8 * 65536) ∧ ((∀ p, (s.chan c.val).lastEdge = some p → p + 131072 ≤ e.place))) := by
  let z : State := ((State.reset.wr (R.TIM_CH_CFG_MODE 3) 0).wr (R.TIM_CH_STAT_STATE 3) 1)
  let l : Nat := (z.coarseNow + 5) * 65536 + z.binCentre (groupOf 3) (z.servedBy 3 (z.coarseNow + 5)).1 6
  let s : State := z.modChan 3 (fun k => { k with lastPos := some l })
  have hl : (s.coarseNow + 5) * 65536 + s.binCentre (groupOf 3) (s.servedBy 3 (s.coarseNow + 5)).1 6 = l := rfl
  refine ⟨s, 3, 5, 6, false, l, _, rfl, _, rfl, _, rfl, by decide, by decide, by decide, by decide, by decide, rfl, ?_, fun p h => by cases h⟩
  exact Nat.lt_of_le_of_lt (Nat.le_of_eq hl) (by omega)

/-- One more case of `Obligations.PulseOutputs`. -/
theorem witness_PulseOutputs_7 :
    ∃ (s : State) (o : Fin 32) (k : Nat), ∃ p, p = ((s.pout o.val).sched) ∧ ∃ q, q = (s.advance ((s.commitIn o.val (p.inst k) p.ts1).getD 0)) ∧ ((s.rd (R.PLS_STAT_STATE o.val) = 1) ∧ ((s.pout o.val).toIdle = false) ∧ ((s.rd (R.PLS_LEFT_LEFT o.val) = 0xFFFFFFFF ∨ (s.pout o.val).ownCommits < s.rd (R.PLS_LEFT_LEFT o.val))) ∧ ((s.pout o.val).skip (s.pout o.val).next = some k) ∧ ((s.commitIn o.val (p.inst k) p.ts1).isSome = true) ∧ (bit (s.rd (R.PLS_CFG_MASK o.val)) (s.outEng p.ts1) = true) ∧ ((s.pout o.val).busyPos ≤ q.launchPos o.val (p.inst k) p.ts1)) := by
  let s : State := ((State.reset.wr (R.PLS_CFG_MASK 5) 0xFF).wr (R.PLS_STAT_STATE 5) 1).wr (R.PLS_LEFT_LEFT 5) 1 |>.modOut 5 (fun q =>
    { q with sched := { ts1 := false, t0 := 2000000000 * 65536000000000, per := 65536000000000, width := 16000000000 } })
  refine ⟨s, 5, 0, _, rfl, _, rfl, by decide, by decide, by decide, by decide, by decide, by decide, ?_⟩
  have h0 : (s.pout (5 : Fin 32).val).busyPos = 0 := by decide
  rw [h0]
  exact Nat.zero_le _

/-- One more case of `Obligations.StackFormation`. -/
theorem witness_StackFormation_10 :
    ∃ (s : State) (f : TndFrame), (s.tndTakes f.dst.toNat = true) ∧ (s.fabric = 1) ∧ (leAt (natBytes f.payload) 0 8 = ownUid) ∧ (1 ≤ (natBytes f.payload).getD 8 0) ∧ ((natBytes f.payload).getD 8 0 ≤ 8) := by
  refine ⟨State.reset.wr R.MOR_STAT_FABRIC 1, ⟨0xFF, 1, (le 8 ownUid ++ [6, 0, 0, 0]).map (BitVec.ofNat 8)⟩,
    by decide, by decide, uid_back ownUid (Nat.mod_lt _ (by decide)), ?_, ?_⟩
  · rw [uid_tail]; decide
  · rw [uid_tail]; decide

/-- With no counter selecting an event, time runs on whatever the module ports hold. -/
theorem waitTick_rfm (s : State) (h : s.pct = []) (p : Nat) (g : RfmPort → RfmPort) (n : Nat) :
    (s.modRfm p g).waitTick n = (s.waitTick n).modRfm p g := by
  have h1 (m : Nat) : countTicks m s = cycleTo 0 m s := by simp [countTicks, State.wraps, h]
  have h2 (m : Nat) : countTicks m (s.modRfm p g) = cycleTo 0 m (s.modRfm p g) := by
    simp [countTicks, State.wraps, State.modRfm, h]
  unfold State.waitTick State.advance
  rw [h1, h2]
  have hc : (s.modRfm p g).tick.count = s.tick.count := rfl
  rw [hc]
  unfold cycleTo
  split <;> rfl

theorem capture_rfm (s : State) (p : Nat) (g : RfmPort → RfmPort) (c d b : Nat) (f : Bool) :
    (s.modRfm p g).capture c d b f = s.capture c d b f := rfl

theorem ppsSecond_rfm (s : State) (p : Nat) (g : RfmPort → RfmPort) (q t : Nat) : (s.modRfm p g).ppsSecond q t = s.ppsSecond q t := rfl
theorem clkOf_rfm (s : State) (p : Nat) (g : RfmPort → RfmPort) (t : Nat) : (s.modRfm p g).clkOf t = s.clkOf t := rfl
theorem coarseNow_rfm (s : State) (p : Nat) (g : RfmPort → RfmPort) : (s.modRfm p g).coarseNow = s.coarseNow := rfl

/-- A PPS edge is captured, and dated, whatever the module ports hold. -/
theorem pps_rfm (s0 : State) (h : s0.pct = []) (g : RfmPort → RfmPort) (p dc bin : Nat) :
    let s := s0.modRfm p g
    let u := s.waitTick (tickOfCoarse (s.coarseNow + dc))
    let u0 := s0.waitTick (tickOfCoarse (s0.coarseNow + dc))
    let e := (u.capture (80 + p) (s.coarseNow + dc) bin false).time
    let e0 := (u0.capture (80 + p) (s0.coarseNow + dc) bin false).time
    u.clkOf e = u0.clkOf e0 ∧ u.ppsSecond p e = u0.ppsSecond p e0 := by
  simp only [waitTick_rfm _ h, capture_rfm, ppsSecond_rfm, clkOf_rfm, coarseNow_rfm, and_self]

/-- One more case of `Obligations.ModuleHoursAndEfc`. -/
theorem witness_ModuleHoursAndEfc_13 :
    ∃ (s : State) (p : Fin 2) (dc : Nat) (bin : Fin 64) (last : Nat), ∃ u : State, u = (s.waitTick (tickOfCoarse (s.coarseNow + dc))) ∧ ∃ e : Nat, e = ((u.capture (80 + p.val) (s.coarseNow + dc) bin.val false).time) ∧ ((s.rfmState p.val = .ready) ∧ ((s.rfmPort p.val).ppsAt = some last) ∧ (u.clkOf e < last + ms16 900)) := by
  let s0 : State := (z.wr (R.RFM_STAT_STATE 1) 3).modBank .ts0 (fun k => { k with jumped := -(2 ^ 92) })
  let u0 : State := s0.waitTick (tickOfCoarse (s0.coarseNow + 9))
  let e0 : Nat := (u0.capture 81 (s0.coarseNow + 9) 3 false).time
  refine ⟨s0.modRfm 1 (fun k => { k with ppsAt := some (u0.clkOf e0) }), 1, 9, 3, u0.clkOf e0, _, rfl, _, rfl, by decide, by rfl, ?_⟩
  exact Nat.lt_of_le_of_lt (Nat.le_of_eq (pps_rfm s0 rfl (fun k => { k with ppsAt := some (u0.clkOf e0) }) 1 9 3).1) (Nat.lt_add_of_pos_right (by decide))

/-- One more case of `Obligations.ModuleHoursAndEfc`. -/
theorem witness_ModuleHoursAndEfc_14 :
    ∃ (s : State) (p : Fin 2) (dc : Nat) (bin : Fin 64) (last : Nat), ∃ u : State, u = (s.waitTick (tickOfCoarse (s.coarseNow + dc))) ∧ ∃ e : Nat, e = ((u.capture (80 + p.val) (s.coarseNow + dc) bin.val false).time) ∧ ((s.rfmState p.val = .ready) ∧ ((s.rfmPort p.val).ppsAt = some last) ∧ (last + ms16 900 ≤ u.clkOf e) ∧ (u.ppsSecond p.val e ≠ (s.rfmPort p.val).ppsSec)) := by
  let s0 : State := (z.wr (R.RFM_STAT_STATE 1) 3).modBank .ts0 (fun k => { k with jumped := -(2 ^ 92) })
  let u0 : State := s0.waitTick (tickOfCoarse (s0.coarseNow + 9))
  let e0 : Nat := (u0.capture 81 (s0.coarseNow + 9) 3 false).time
  have h : ms16 900 ≤ u0.clkOf e0 := by
    have hc : u0.clk = 1152921504607010816 := by decide +kernel
    have ht : u0.ts0 = 163840 := by decide +kernel
    unfold State.clkOf ms16
    rw [hc, ht]
    omega
  have hs : u0.ppsSecond 1 e0 ≠ u0.ppsSecond 1 e0 + 1 := by omega
  have hp := pps_rfm s0 rfl (fun k => { k with ppsAt := some 0, ppsSec := u0.ppsSecond 1 e0 + 1 }) 1 9 3
  refine ⟨s0.modRfm 1 (fun k => { k with ppsAt := some 0, ppsSec := u0.ppsSecond 1 e0 + 1 }), 1, 9, 3, 0, _, rfl, _, rfl, by decide, rfl, ?_, ?_⟩
  · rw [Nat.zero_add]; exact Nat.le_trans h (Nat.le_of_eq hp.1.symm)
  · exact fun he => hs (hp.2.symm.trans he)

/-- One more case of `Obligations.ModuleHoursAndEfc`. -/
theorem witness_ModuleHoursAndEfc_15 :
    ∃ (s : State) (p : Fin 2) (dc : Nat) (bin : Fin 64) (last : Nat), ∃ u : State, u = (s.waitTick (tickOfCoarse (s.coarseNow + dc))) ∧ ∃ e : Nat, e = ((u.capture (80 + p.val) (s.coarseNow + dc) bin.val false).time) ∧ ((s.rfmState p.val = .ready) ∧ ((s.rfmPort p.val).ppsAt = some last) ∧ (last + ms16 900 ≤ u.clkOf e) ∧ (u.ppsSecond p.val e = (s.rfmPort p.val).ppsSec)) := by
  let s0 : State := (z.wr (R.RFM_STAT_STATE 1) 3).modBank .ts0 (fun k => { k with jumped := -(2 ^ 92) })
  let u0 : State := s0.waitTick (tickOfCoarse (s0.coarseNow + 9))
  let e0 : Nat := (u0.capture 81 (s0.coarseNow + 9) 3 false).time
  have h : ms16 900 ≤ u0.clkOf e0 := by
    have hc : u0.clk = 1152921504607010816 := by decide +kernel
    have ht : u0.ts0 = 163840 := by decide +kernel
    unfold State.clkOf ms16
    rw [hc, ht]
    omega
  have hp := pps_rfm s0 rfl (fun k => { k with ppsAt := some 0, ppsSec := u0.ppsSecond 1 e0 }) 1 9 3
  refine ⟨s0.modRfm 1 (fun k => { k with ppsAt := some 0, ppsSec := u0.ppsSecond 1 e0 }), 1, 9, 3, 0, _, rfl, _, rfl, by decide, rfl, ?_, ?_⟩
  · rw [Nat.zero_add]; exact Nat.le_trans h (Nat.le_of_eq hp.1.symm)
  · exact hp.2

/-- The hypotheses of `Obligations.IncrementApply`, case by case, are met. -/
theorem witness_IncrementApply :
    (∃ (s : State) (b : Bank) (src : Steerer), (s.ownerIs b src = true) ∧ (1248750 * 2 ^ 48 ≤ (s.tick.bank b).staged * 1000000) ∧ ((s.tick.bank b).staged * 1000000 ≤ 1251250 * 2 ^ 48)) ∧
    (∃ (s : State) (b : Bank) (src : Steerer), (s.ownerIs b src = true) ∧ ((s.tick.bank b).staged * 1000000 < 1248750 * 2 ^ 48 ∨ 1251250 * 2 ^ 48 < (s.tick.bank b).staged * 1000000)) ∧
    (∃ (s : State) (b : Bank), (s.ownerIs b .host = false)) ∧
    (∃ (s : State) (b : Bank), (s.ownerIs b .ensemble = false)) :=
  ⟨⟨z.modBank .ts0 (fun k => { k with staged := incrMax }), .ts0, .ensemble, by decide⟩,
    ⟨z.modBank .ts0 (fun k => { k with staged := incrMax + 1 }), .ts0, .ensemble, by decide⟩,
    ⟨z, .ts0, by decide⟩,
    ⟨z.hi R.TSC_CTL_OWN0, .ts0, by decide⟩⟩

/-- The hypotheses of `Obligations.Slews`, case by case, are met. -/
theorem witness_Slews :
    (∃ (s : State) (b : Bank) (src : Steerer), (s.ownerIs b src = true) ∧ (0 < s.rd (R.TSC_SLEW_DUR_DUR (bankNo b))) ∧ ((s.slewOfs b).natAbs * 1000 ≤ max 1 (min 100 (s.rd R.TSC_CTL_SLEW_MAX)) * 65536 * s.rd (R.TSC_SLEW_DUR_DUR (bankNo b))) ∧ ((b = .ts0 → s.rd R.TSC_SWITCH_CTL_ACTIVE ≠ 1)) ∧ ((s.tick.bank b).stepTick ≠ some s.tick.count)) ∧
    (∃ (s : State) (b : Bank) (src : Steerer) (w : Word), (s.ownerIs b src = true) ∧ ((R.TSC_SLEW_CTL_ABORT (bankNo b)).of w.toNat = 0) ∧ ((s.rd (R.TSC_SLEW_DUR_DUR (bankNo b)) = 0 ∨ max 1 (min 100 (s.rd R.TSC_CTL_SLEW_MAX)) * 65536 * s.rd (R.TSC_SLEW_DUR_DUR (bankNo b)) < (s.slewOfs b).natAbs * 1000 ∨ (b = .ts0 ∧ s.rd R.TSC_SWITCH_CTL_ACTIVE = 1) ∨ (s.tick.bank b).stepTick = some s.tick.count))) ∧
    (∃ (s : State) (b : Bank) (w : Word), (s.ownerIs b .host = false) ∧ ((R.TSC_SLEW_CTL_ABORT (bankNo b)).of w.toNat = 0)) ∧
    (∃ (s : State) (b : Bank) (src : Steerer) (w : Word), (s.ownerIs b src = true) ∧ ((R.TSC_SLEW_CTL_ABORT (bankNo b)).of w.toNat = 1) ∧ ((s.rd (R.TSC_SLEW_DUR_DUR (bankNo b)) = 0 ∨ max 1 (min 100 (s.rd R.TSC_CTL_SLEW_MAX)) * 65536 * s.rd (R.TSC_SLEW_DUR_DUR (bankNo b)) < (s.slewOfs b).natAbs * 1000 ∨ (b = .ts0 ∧ s.rd R.TSC_SWITCH_CTL_ACTIVE = 1) ∨ (s.tick.bank b).stepTick = some s.tick.count))) ∧
    (∃ (s : State) (b : Bank) (w : Word), (s.ownerIs b .host = false) ∧ ((R.TSC_SLEW_CTL_ABORT (bankNo b)).of w.toNat = 1)) ∧
    (∃ (s : State) (b : Bank), (s.rd (R.TSC_SLEW_CTL_ACTIVE (bankNo b)) = 1)) ∧
    (∃ (s : State) (b : Bank), (s.rd (R.TSC_SLEW_CTL_ACTIVE (bankNo b)) ≠ 1)) ∧
    (∃ (s : State) (b : Bank), (s.rd (R.TSC_SLEW_CTL_ACTIVE (bankNo b)) = 1)) :=
  ⟨⟨((z.wr (R.TSC_SLEW_OFS_LO_OFS 0) 3932160).wr (R.TSC_SLEW_DUR_DUR 0) 100000), .ts0, .ensemble, by decide⟩,
    ⟨z, .ts0, .ensemble, 0, by decide⟩,
    ⟨z, .ts0, 0, by decide⟩,
    ⟨z, .ts0, .ensemble, 2, by decide⟩,
    ⟨z, .ts0, 2, by decide⟩,
    ⟨(z.hi (R.TSC_SLEW_CTL_ACTIVE 0)).modBank .ts0 (fun k => { k with slew := { Slew.make 3932160 80000000 with k := 7 } }), .ts0, by decide⟩,
    ⟨z, .ts0, by decide⟩,
    ⟨(z.hi (R.TSC_SLEW_CTL_ACTIVE 0)).modBank .ts0 (fun k => { k with slew := Slew.make 65536 800 }), .ts0, by decide⟩⟩

/-- The hypotheses of `Obligations.Steps`, case by case, are met. -/
theorem witness_Steps :
    (∃ (s : State) (b : Bank) (src : StepSource), (src = .sender .pf1 ∨ (src = .ensemble ∧ (b = .ts1 ∨ s.rd R.TSC_STAT_SERVED ≠ 1))) ∧ (s.rd (R.TSC_STEP_NS_NS (bankNo b)) < 1000000000) ∧ (s.rd (R.TSC_STEP_CTL_PENDING (bankNo b)) ≠ 1) ∧ (b = .ts0 → s.rd R.TSC_SWITCH_CTL_ACTIVE ≠ 1) ∧ (b = .ts1 → s.rd R.TSC_CTL_TS1_EN = 1)) ∧
    (∃ (s : State) (b : Bank), (1000000000 ≤ s.rd (R.TSC_STEP_NS_NS (bankNo b)) ∨ s.rd (R.TSC_STEP_CTL_PENDING (bankNo b)) = 1 ∨ (b = .ts0 ∧ s.rd R.TSC_SWITCH_CTL_ACTIVE = 1) ∨ (b = .ts1 ∧ s.rd R.TSC_CTL_TS1_EN ≠ 1))) ∧
    (∃ (s : State) (b : Bank) (src : StepSource), (src ≠ .sender .pf1) ∧ (src = .ensemble → b = .ts0 ∧ s.rd R.TSC_STAT_SERVED = 1)) ∧
    (∃ (s : State) (b : Bank), (s.rd (R.TSC_STEP_CTL_PENDING (bankNo b)) = 1) ∧ ((s.tick.bank b).stepMarkers = 0) ∧ ((b = .ts0 → (s.tick.bank b).stepBy = 0 → s.rd R.TSC_STAT_SERVED ≠ 1))) :=
  ⟨⟨z, .ts0, (.sender .pf1), by decide⟩,
    ⟨z.wr (R.TSC_STEP_NS_NS 0) 1000000000, .ts0, by decide⟩,
    ⟨z.hi R.TSC_STAT_SERVED, .ts0, .ensemble, by decide⟩,
    ⟨(z.hi (R.TSC_STEP_CTL_PENDING 0)).modBank .ts0 (fun k => { k with stepDelta := 65536000000000, stepBy := 2 }), .ts0, by decide⟩⟩

/-- The hypotheses of `Obligations.SwitchAndSnapshot`, case by case, are met. -/
theorem witness_SwitchAndSnapshot :
    (∃ (s : State), (s.rd R.TSC_CTL_TS1_EN = 1) ∧ (s.rd R.TSC_SWITCH_CTL_ACTIVE ≠ 1) ∧ (s.rd (R.TSC_STEP_CTL_PENDING 0) ≠ 1) ∧ (s.rd (R.TSC_STEP_CTL_PENDING 1) ≠ 1) ∧ (s.tsDiff.natAbs ≤ min 1000000 (s.rd R.TSC_SWITCH_LIM_LIMIT) * 65536)) ∧
    (∃ (s : State), (s.rd R.TSC_CTL_TS1_EN ≠ 1 ∨ s.rd R.TSC_SWITCH_CTL_ACTIVE = 1 ∨ s.rd (R.TSC_STEP_CTL_PENDING 0) = 1 ∨ s.rd (R.TSC_STEP_CTL_PENDING 1) = 1 ∨ min 1000000 (s.rd R.TSC_SWITCH_LIM_LIMIT) * 65536 < s.tsDiff.natAbs)) ∧
    (∃ (s : State), (s.rd R.TSC_SWITCH_CTL_ACTIVE = 1)) ∧
    (∃ (s : State), (s.rd R.TSC_SNAP_CTL_TAKE ≠ 1)) ∧
    (∃ (s : State), (s.rd R.TSC_SNAP_CTL_TAKE = 1)) :=
  ⟨⟨(z.hi R.TSC_CTL_TS1_EN).modBank .ts1 (fun k => { k with ts := (z.tick.bank0.ts + 240 * 2 ^ 48) % wrapTs, incr := incrMax }), by decide⟩,
    ⟨z, by decide⟩,
    ⟨(z.hi R.TSC_SWITCH_CTL_ACTIVE).modBank .ts0 (fun k => { k with slew := Slew.make 777 800 }), by decide⟩,
    ⟨z.hi R.TSC_SNAP_CTL_VALID, by decide⟩,
    ⟨z.hi R.TSC_SNAP_CTL_TAKE, by decide⟩⟩

/-- The hypotheses of `Obligations.UtcAndLeaps`, case by case, are met. -/
theorem witness_UtcAndLeaps :
    (∃ (s : State), (s.rd R.TSC_LEAP_CTL_ARMED ≠ 1)) ∧
    (∃ (s : State), (s.rd R.TSC_LEAP_CTL_ARMED = 1)) ∧
    (∃ (s : State) (w : Word), (s.rd R.TSC_LEAP_CTL_ARMED ≠ 1) ∧ (s.leapUtc % 86400 = 0) ∧ ((s.ts0 : Int) - s.utcOfs * 65536000000000 + 65536000000000 ≤ (s.leapUtc : Int) * 65536000000000) ∧ (R.TSC_LEAP_CTL_KIND.of w.toNat = 1 ∨ R.TSC_LEAP_CTL_KIND.of w.toNat = 2) ∧ (s.rd R.TSC_UTC_OFS_VALID = 1)) ∧
    (∃ (s : State) (w : Word), (s.rd R.TSC_LEAP_CTL_ARMED ≠ 1) ∧ (s.leapUtc % 86400 ≠ 0 ∨ (s.leapUtc : Int) * 65536000000000 < (s.ts0 : Int) - s.utcOfs * 65536000000000 + 65536000000000 ∨ R.TSC_LEAP_CTL_KIND.of w.toNat = 0 ∨ R.TSC_LEAP_CTL_KIND.of w.toNat = 3 ∨ s.rd R.TSC_UTC_OFS_VALID ≠ 1)) ∧
    (∃ (s : State), (s.rd R.TSC_LEAP_CTL_ARMED = 1) ∧ (s.rd R.TSC_LEAP_CTL_SMEARING ≠ 1) ∧ (s.ts0 < s.leapLast)) ∧
    (∃ (s : State), (s.rd R.TSC_LEAP_CTL_ARMED = 1) ∧ (s.rd R.TSC_LEAP_CTL_SMEARING = 1 ∨ s.leapLast ≤ s.ts0)) ∧
    (∃ (s : State), (s.rd R.TSC_LEAP_CTL_ARMED = 1) ∧ (s.tick.leap.ofsDone = false) ∧ (s.comesTo (sec16 ((s.leapUtc : Int) - 86400 + s.utcOfs).toNat) = true)) ∧
    (∃ (s : State), (s.rd R.TSC_LEAP_CTL_ARMED = 1) ∧ (s.tick.leap.ofsDone = false) ∧ (s.tick.leap.kind = 1) ∧ (s.comesTo (sec16 ((s.leapUtc : Int) + s.utcOfs).toNat) = true)) ∧
    (∃ (s : State), (s.rd R.TSC_LEAP_CTL_ARMED = 1) ∧ (s.tick.leap.ofsDone = false) ∧ (s.comesTo (sec16 ((s.leapUtc : Int) + (if s.tick.leap.kind = 1 then 1 else -1) + s.utcOfs).toNat) = true)) ∧
    (∃ (s : State), (s.rd R.TSC_LEAP_CTL_ARMED = 1) ∧ (s.tick.leap.smear = true) ∧ (s.comesTo (s.smearFrom) = true)) ∧
    (∃ (s : State), (s.rd R.TSC_LEAP_CTL_SMEARING = 1) ∧ (s.comesTo (s.smearFrom + sec16 86400) = true)) ∧
    (∃ (s : State) (i : Instr) (x : Nat), (s.rd R.TSC_LEAP_CTL_ARMED = 1) ∧ ((i = .leapWarn ∧ s.tick.leap.ofsDone = false ∧ x = sec16 ((s.leapUtc : Int) - 86400 + s.utcOfs).toNat ∨ i = .leapSecondStart ∧ s.tick.leap.ofsDone = false ∧ s.tick.leap.kind = 1 ∧ x = sec16 ((s.leapUtc : Int) + s.utcOfs).toNat ∨ i = .leapOfsChange ∧ s.tick.leap.ofsDone = false ∧ x = sec16 ((s.leapUtc : Int) + (if s.tick.leap.kind = 1 then 1 else -1) + s.utcOfs).toNat ∨ i = .smearStart ∧ s.tick.leap.smear = true ∧ x = s.smearFrom ∨ i = .smearEnd ∧ s.rd R.TSC_LEAP_CTL_SMEARING = 1 ∧ x = s.smearFrom + sec16 86400)) ∧ (s.comesTo x = false)) :=
  ⟨⟨z, by decide⟩,
    ⟨z.hi R.TSC_LEAP_CTL_ARMED, by decide⟩,
    ⟨(z.hi R.TSC_UTC_OFS_VALID).wr R.TSC_LEAP_UTC_LO_UTC 1798761600, 9, by decide⟩,
    ⟨z, 0, by decide⟩,
    ⟨{ (((z.hi R.TSC_UTC_OFS_VALID).wr R.TSC_LEAP_UTC_LO_UTC 1798761600).hi R.TSC_LEAP_CTL_ARM).hi R.TSC_LEAP_CTL_ARMED with tick := { z.tick with leap := { kind := 1 } } }, by decide⟩,
    ⟨(z.hi R.TSC_LEAP_CTL_ARMED).hi R.TSC_LEAP_CTL_SMEARING, by decide⟩,
    ⟨{ (((z.hi R.TSC_UTC_OFS_VALID).wr R.TSC_LEAP_UTC_LO_UTC 1798761600).hi R.TSC_LEAP_CTL_ARM).hi R.TSC_LEAP_CTL_ARMED with tick := { z.tick with leap := { kind := 1 } } }, by decide⟩,
    ⟨{ (((z.hi R.TSC_UTC_OFS_VALID).wr R.TSC_LEAP_UTC_LO_UTC 1798761600).hi R.TSC_LEAP_CTL_ARM).hi R.TSC_LEAP_CTL_ARMED with tick := { z.tick with leap := { kind := 1 } } }, by decide⟩,
    ⟨{ (((z.hi R.TSC_UTC_OFS_VALID).wr R.TSC_LEAP_UTC_LO_UTC 1798761600).hi R.TSC_LEAP_CTL_ARM).hi R.TSC_LEAP_CTL_ARMED with tick := { z.tick with leap := { kind := 1 } } }, by decide⟩,
    ⟨{ (((z.hi R.TSC_UTC_OFS_VALID).wr R.TSC_LEAP_UTC_LO_UTC 1798761600).hi R.TSC_LEAP_CTL_ARM).hi R.TSC_LEAP_CTL_ARMED with tick := { z.tick with leap := { kind := 1, smear := true } } }, by decide⟩,
    ⟨(z.hi R.TSC_LEAP_CTL_ARMED).hi R.TSC_LEAP_CTL_SMEARING, by decide⟩,
    ⟨{ ((((z.hi R.TSC_UTC_OFS_VALID).wr R.TSC_LEAP_UTC_LO_UTC 1798761600).hi R.TSC_LEAP_CTL_ARM).hi R.TSC_LEAP_CTL_ARMED).hi (R.TSC_STEP_CTL_PENDING 0) with tick := { z.tick with bank0 := { z.tick.bank0 with ts := 1798761620 * 65536000000000 * 2 ^ 32, stepDelta := -(10 ^ 23), stepBy := 2 }, leap := { kind := 1 } } }, .leapWarn, sec16 1798675237, by decide⟩⟩

/-- The hypotheses of `Obligations.TimeLanes`, case by case, are met. -/
theorem witness_TimeLanes :
    (∃ (s : State) (n : Fin 4) (sub : Nat), ∃ e : Int, e = (nearTs (((s.slaveTime n.val + sub : Nat) : Int) - (((s.lane n.val).pulseTime + (s.lane n.val).pulseDelay : Nat) : Int))) ∧ ((s.laneState n.val ≠ 0) ∧ ((s.lane n.val).loaded = true) ∧ (e.natAbs ≤ 6553))) ∧
    (∃ (s : State) (n : Fin 4), (s.laneState n.val ≠ 0) ∧ ((s.lane n.val).loaded = false)) ∧
    (∃ (s : State) (n : Fin 4) (sub : Nat), ∃ e : Int, e = (nearTs (((s.slaveTime n.val + sub : Nat) : Int) - (((s.lane n.val).pulseTime + (s.lane n.val).pulseDelay : Nat) : Int))) ∧ ((s.laneState n.val = 2) ∧ ((s.lane n.val).loaded = true) ∧ (6553 < e.natAbs))) ∧
    (∃ (s : State) (n : Fin 4), (s.laneState n.val ≠ 0)) ∧
    (∃ (s : State) (n : Fin 4), (s.laneState n.val ≠ 0)) ∧
    (∃ (s : State) (n : Fin 4), ((s.laneState n.val = 3 ∧ 4 ≤ s.rd (R.TSC_LANE_STAT_GOOD_RUN n.val)) ∨ ((s.laneState n.val = 1 ∨ s.laneState n.val = 4) ∧ 16 ≤ s.rd (R.TSC_LANE_STAT_GOOD_RUN n.val)))) ∧
    (∃ (s : State) (n : Fin 4), (s.laneState n.val = 3) ∧ (max 1 (s.rd (R.TSC_LANE_CTL_COAST_LIMIT n.val)) ≤ s.rd (R.TSC_LANE_STAT_COAST_RUN n.val)) ∧ (s.rd (R.TSC_LANE_STAT_GOOD_RUN n.val) < 4)) :=
  ⟨⟨(z.wr (R.TSC_LANE_STAT_STATE 0) 1).modLane 0 (fun l => { l with loaded := true }), 0, 7, _, rfl, by decide⟩,
    ⟨z.wr (R.TSC_LANE_STAT_STATE 0) 1, 0, by decide⟩,
    ⟨(z.wr (R.TSC_LANE_STAT_STATE 1) 2).modLane 1 (fun l => { l with loaded := true }), 1, 6554, _, rfl, by decide⟩,
    ⟨z.wr (R.TSC_LANE_STAT_STATE 3) 2, 3, by decide⟩,
    ⟨z.wr (R.TSC_LANE_STAT_STATE 0) 1, 0, by decide⟩,
    ⟨(z.wr (R.TSC_LANE_STAT_STATE 0) 3).wr (R.TSC_LANE_STAT_GOOD_RUN 0) 4, 0, by decide⟩,
    ⟨(z.wr (R.TSC_LANE_STAT_STATE 0) 3).wr (R.TSC_LANE_STAT_COAST_RUN 0) 100, 0, by decide⟩⟩

/-- The hypotheses of `Obligations.SourceStates`, case by case, are met. -/
theorem witness_SourceStates :
    (∃ (s : State) (i : Fin 16), ∃ u : State, u = (s.waitClk ((s.slot i.val).newestAt + s.lossTime i.val)) ∧ ((s.src i.val ≠ .absent) ∧ (s.src i.val ≠ .quarantined) ∧ ((i.val < 2 → s.gnss.lossHeld = false)) ∧ (u.elapsed (s.slot i.val).newestAt (s.lossTime i.val) = true))) ∧
    (∃ (s : State) (i : Fin 16), ∃ u : State, u = (s.waitClk ((s.slot i.val).clock + sec16 (s.rd (R.ENS_SLOT_TIME_QUAL i.val)))) ∧ ∃ b, b = (u.slotBank i.val) ∧ ∃ is, is = ((u.setOf b).filter (fun j => j = i.val || u.ready b (u.qualifiedOf b) j)) ∧ ((s.src i.val = .qualifying) ∧ ((i.val < 2 → s.gnss.lossHeld = false)) ∧ (u.qualifies b i.val = true) ∧ ((u.holds b && decide (|u.meanOffset is| > u.band2)) = false))) ∧
    (∃ (s : State) (i : Fin 16), ∃ u : State, u = (s.waitClk ((s.slot i.val).clock + sec16 (s.rd (R.ENS_SLOT_TIME_QUAL i.val)))) ∧ ∃ b, b = (u.slotBank i.val) ∧ ∃ is, is = ((u.setOf b).filter (fun j => j = i.val || u.ready b (u.qualifiedOf b) j)) ∧ ((s.src i.val = .qualifying) ∧ ((i.val < 2 → s.gnss.lossHeld = false)) ∧ (u.qualifies b i.val = true) ∧ ((s.slot i.val).set < 2) ∧ ((u.holds b && decide (|u.meanOffset is| > u.band2)) = true))) ∧
    (∃ (s : State) (i : Fin 16), ∃ u : State, u = (s.waitClk ((s.slot i.val).clock + sec16 (max 1 (s.rd R.ENS_CTL_CONSIST)))) ∧ ∃ b, b = (u.slotBank i.val) ∧ ∃ is, is = ((u.setOf b).filter (fun j => j = i.val || u.ready b (u.qualifiedOf b) j)) ∧ ((s.src i.val = .suspect) ∧ ((i.val < 2 → s.gnss.lossHeld = false)) ∧ (s.rd (R.ENS_SLOT_STAT_REEST i.val) ≠ 1) ∧ ((timeBearing i.val = true ∨ u.carryOk b i.val = true)) ∧ (u.elapsed (s.slot i.val).clock (sec16 (max 1 (s.rd R.ENS_CTL_CONSIST))) = true) ∧ ((u.holds b && decide (|u.meanOffset is| > u.band2)) = false))) ∧
    (∃ (s : State) (i : Fin 16) (left : Nat), ∃ u : State, u = (s.waitClk (left + sec16 (s.rd (R.ENS_SLOT_LIM_CARRY i.val)))) ∧ ((timeBearing i.val = false) ∧ (s.src i.val = .qualified) ∧ ((s.filter (s.slotBank i.val)).timeLeft = some left) ∧ (s.timeHeld (s.slotBank i.val) = false) ∧ (left + sec16 (s.rd (R.ENS_SLOT_LIM_CARRY i.val)) ≤ u.clk))) ∧
    (∃ (s : State) (i : Fin 16), ∃ u : State, u = (s.waitClk ((s.slot i.val).reestAt + sec16 (s.rd R.ENS_ASYM_CTL_REEST))) ∧ ((s.rd (R.ENS_SLOT_STAT_REEST i.val) = 1) ∧ (u.elapsed (s.slot i.val).reestAt (sec16 (s.rd R.ENS_ASYM_CTL_REEST)) = true))) :=
  ⟨⟨(z.wr (R.ENS_SLOT_STAT_STATE 3) 2), 3, _, rfl, by decide⟩,
    ⟨(z.wr (R.ENS_SLOT_STAT_STATE 0) 1), 0, _, rfl, _, rfl, _, rfl, by decide +kernel⟩,
    ⟨((z.wr (R.ENS_SLOT_STAT_STATE 0) 1).wr R.ENS_STAT_STATE 1).hi R.TSC_STAT_SERVED |>.modSlot 0 (fun k => { k with last := some (0, 66 * 10 ^ 9 * 65536) }), 0, _, rfl, _, rfl, _, rfl, by decide +kernel⟩,
    ⟨(z.wr (R.ENS_SLOT_STAT_STATE 0) 3), 0, _, rfl, _, rfl, _, rfl, by decide +kernel⟩,
    ⟨{ (z.wr (R.ENS_SLOT_STAT_STATE 2) 2) with ens := { z.ens with f0 := { z.ens.f0 with timeLeft := some 5 } } }, 2, 5, _, rfl, by decide⟩,
    ⟨((z.wr (R.ENS_SLOT_STAT_STATE 5) 3).wr (R.ENS_SLOT_STAT_CAUSE 5) 5).hi (R.ENS_SLOT_STAT_REEST 5) |>.modSlot 5 (fun k => { k with reestSum := 17, reestN := 4 }), 5, _, rfl, by decide⟩⟩

/-- The hypotheses of `Obligations.EnsembleCommands`, case by case, are met. -/
theorem witness_EnsembleCommands :
    (∃ (i : Fin 16), (i.val < 8)) ∧
    (∃ (i : Fin 16), (i.val < 8)) ∧
    (∃ (s : State) (i : Fin 16) (w : Word), (8 ≤ i.val) ∧ (s.rd (R.ENS_SLOT_CFG_EN i.val) ≠ 1) ∧ ((R.ENS_SLOT_CFG_EN i.val).of w.toNat = 1) ∧ (s.assignable ((R.ENS_SLOT_CFG_TI_CH i.val).of w.toNat) = true)) ∧
    (∃ (s : State) (i : Fin 16) (w : Word), (8 ≤ i.val) ∧ (s.rd (R.ENS_SLOT_CFG_EN i.val) ≠ 1) ∧ ((R.ENS_SLOT_CFG_EN i.val).of w.toNat = 1) ∧ (s.assignable ((R.ENS_SLOT_CFG_TI_CH i.val).of w.toNat) = true)) ∧
    (∃ (s : State) (i : Fin 16) (w : Word), (8 ≤ i.val) ∧ (s.rd (R.ENS_SLOT_CFG_EN i.val) ≠ 1) ∧ ((R.ENS_SLOT_CFG_EN i.val).of w.toNat = 1) ∧ (s.assignable ((R.ENS_SLOT_CFG_TI_CH i.val).of w.toNat) = false)) ∧
    (∃ (s : State) (i : Fin 16) (w : Word) (c : Instr), ((c = .slotEnable i w ∨ c = .slotMove i w)) ∧ (8 ≤ i.val) ∧ (s.rd (R.ENS_SLOT_CFG_EN i.val) = 1)) ∧
    (∃ (s : State), (s.ens.anchorFall = true) ∧ (s.candidate s.anchorSel = true) ∧ (s.anchorSel ≠ 0 → s.src (s.anchorSel + 1) ≠ .absent)) :=
  ⟨⟨0, by decide⟩,
    ⟨0, by decide⟩,
    ⟨z, 8, 0x3F0001, by decide⟩,
    ⟨z, 8, 0x3F0001, by decide⟩,
    ⟨z.hi (R.TIM_CH_STAT_ASSIGNED 0), 8, 1, by decide⟩,
    ⟨z.hi (R.ENS_SLOT_CFG_EN 9), 9, 0x01010001, .slotMove 9 0x01010001, by decide⟩,
    ⟨{ z.wr R.ENS_ANCHOR_ACTIVE 2 with ens := { z.ens with anchorFall := true } }, by decide⟩⟩

/-- The hypotheses of `Obligations.GnssPorts`, case by case, are met. -/
theorem witness_GnssPorts :
    (∃ (s : State) (n : Fin 4) (dc : Nat) (bin : Fin 64) (samples : List (BitVec 4 × BitVec 4)), ∃ u : State, u = (s.waitTick (tickOfCoarse (s.coarseNow + dc))) ∧ ∃ e : Nat, e = ((u.capture (69 + n.val) (s.coarseNow + dc) bin.val false).time) ∧ ∃ err : Rat, err = (match (s.gnsPort n.val).epochAt with | some last => s.rateError n.val (u.clkOf e - last) | none => 0) ∧ ∃ k : GnsPort, k = (samples.foldl (captureSample s n.val) (s.gnsPort n.val)) ∧ ((s.gnsOn = true) ∧ (s.portUsed n.val = true) ∧ (|err| ≤ 10000) ∧ (k.stuck = false))) ∧
    (∃ (s : State) (n : Fin 4) (dc : Nat) (bin : Fin 64) (samples : List (BitVec 4 × BitVec 4)), ∃ u : State, u = (s.waitTick (tickOfCoarse (s.coarseNow + dc))) ∧ ∃ e : Nat, e = ((u.capture (69 + n.val) (s.coarseNow + dc) bin.val false).time) ∧ ∃ err : Rat, err = (match (s.gnsPort n.val).epochAt with | some last => s.rateError n.val (u.clkOf e - last) | none => 0) ∧ ((s.gnsOn = true) ∧ (s.portUsed n.val = true) ∧ ((10000 < |err| ∨ (samples.foldl (captureSample s n.val) (s.gnsPort n.val)).stuck = true)))) ∧
    (∃ (s : State) (n : Fin 4), (s.gnsOn = true) ∧ (s.portUsed n.val = true) ∧ (s.rd (R.GNS_PORT_STAT_FAULT n.val) ≠ 1)) ∧
    (∃ (s : State) (n : Fin 4), (s.rd (R.GNS_PORT_STAT_FAULT n.val) = 1) ∧ (16 ≤ (s.gnsPort n.val).clean)) ∧
    (∃ (s : State) (n : Fin 4) (from_ : Nat), ((s.gnsPort n.val).learnAt = some from_)) ∧
    (∃ (s : State) (n : Fin 4), (s.gnsOn = true) ∧ (s.portUsed n.val = true) ∧ (s.rd (R.GNS_NOTCH_CTL_MODE n.val) = 1)) ∧
    (∃ (s : State) (n : Fin 4) (k : Fin 4), (s.rd (R.GNS_NOTCH_CTL_MODE n.val) = 1) ∧ (bit (s.rd (R.GNS_NOTCH_CTL_ENGAGED n.val)) k.val = true) ∧ (IMap.get 0 (s.gnsPort n.val).below k.val ≠ 0)) :=
  ⟨⟨((z.hi R.GNS_CTL_EN).hi (R.GNS_PORT_CFG_EN 0)).modBank .ts0 (fun k => { k with ts := 7 }), 0, 9, 3, [(3, 12)], _, rfl, _, rfl, _, rfl, _, rfl, by decide⟩,
    ⟨((z.hi R.GNS_CTL_EN).hi (R.GNS_PORT_CFG_EN 0)).modGnsPort 0 (fun k => { k with codeI := (3, 65536) }), 0, 9, 3, [(3, 12)], _, rfl, _, rfl, _, rfl, by decide, by decide, Or.inr (by decide)⟩,
    ⟨((z.hi R.GNS_CTL_EN).hi (R.GNS_PORT_CFG_EN 0)).wr (R.GNS_CH_STAT_STATE 5) 3, 0, by decide⟩,
    ⟨((z.hi (R.GNS_PORT_STAT_FAULT 2)).wr R.GNS_STAT_PORT_FAULT 6).modGnsPort 2 (fun k => { k with clean := 16 }), 2, by decide⟩,
    ⟨z, 0, 0, by decide⟩,
    ⟨((z.hi R.GNS_CTL_EN).hi (R.GNS_PORT_CFG_EN 0)), 0, by decide⟩,
    ⟨((z.wr (R.GNS_NOTCH_CTL_ENGAGED 1) 4).wr (R.GNS_NOTCH_CTL_MODE 1) 1).modGnsPort 1 (fun k => { k with below := [(2, 9)] }), 1, 2, by decide⟩⟩

/-- The hypotheses of `Obligations.GnssChannels`, case by case, are met. -/
theorem witness_GnssChannels :
    (∃ (s : State) (c : Fin 160) (sys : Fin 4) (low ant : Bool) (svid : BitVec 8), (s.ch c.val = .idle) ∧ (s.reserved c.val = false) ∧ (s.rd (R.GNS_CH_CFG_PIN c.val) ≠ 1) ∧ (s.signalOk sys.val (b01 low) (b01 ant) = true) ∧ (prnOk sys.val svid.toNat = true) ∧ ((low = true → s.lowDirect (b01 ant) = true)) ∧ (s.hasRoom (b01 ant) (sys.val * 256 + svid.toNat) = true) ∧ ((∀ a ≤ 1, (s.antChans a).length + (if a = b01 ant then 1 else 0) ≤ s.antQuota a))) ∧
    (∃ (s : State) (c : Fin 160) (sys : Fin 4) (low ant : Bool) (svid : BitVec 8), (s.mayAssign c.val sys.val (b01 low) (b01 ant) svid.toNat = true) ∧ ((∀ a ≤ 1, (s.antChans a).length ≤ s.antQuota a)) ∧ ((s.antChans (b01 ant)).length = s.antQuota (b01 ant))) ∧
    (∃ (s : State) (sys : Fin 4) (ant : Bool) (svid : BitVec 8), ((prnOk sys.val svid.toNat = false ∨ s.hasRoom (b01 ant) (sys.val * 256 + svid.toNat) = false))) ∧
    (∃ (s : State) (c : Fin 160), (s.ch c.val ≠ .idle) ∧ (s.ch c.val ≠ .test) ∧ ((s.gnsCh c.val).pinned = false)) ∧
    (∃ (s : State) (c : Fin 160), (s.ch c.val = .search)) ∧
    (∃ (s : State) (c : Fin 160), (s.ch c.val = .search)) ∧
    (∃ (s : State) (c : Fin 160), (s.ch c.val = .pullIn) ∧ (((s.gnsCh c.val).band ≠ 0 ∨ s.lowHeld c.val = true ∨ ∀ d : Fin 160, d ≠ c → s.handoverOk c.val d.val = false))) ∧
    (∃ (s : State) (c : Fin 160) (named l : Fin 160), (s.ch c.val = .pullIn) ∧ ((s.gnsCh c.val).band = 0) ∧ (s.lowHeld c.val = false) ∧ (s.lowFor c.val named.val = some l.val) ∧ ((∀ a ≤ 1, (s.antChans a).length + (if a = (s.gnsCh c.val).ant then 1 else 0) ≤ s.antQuota a))) ∧
    (∃ (s : State) (c : Fin 160), (s.ch c.val = .pullIn)) ∧
    (∃ (s : State) (c : Fin 160), (s.ch c.val = .track)) ∧
    (∃ (s : State) (c : Fin 160), (s.ch c.val = .track ∨ s.ch c.val = .nav)) ∧
    (∃ (s : State) (c : Fin 160), (s.ch c.val = .lost)) ∧
    (∃ (s : State) (c : Fin 160), (s.ch c.val = .lost)) ∧
    (∃ (s : State) (c : Fin 160), (s.ch c.val ≠ .test) ∧ (s.reserved c.val = true)) ∧
    (∃ (s : State) (c : Fin 160), (s.ch c.val = .test)) ∧
    (∃ (s : State) (c : Fin 160) (w : Word), (s.ch c.val = .idle) ∧ (s.reserved c.val = false) ∧ ((R.GNS_CH_CFG_RSV c.val).of w.toNat = 0) ∧ ((R.GNS_CH_CFG_BAND c.val).of w.toNat = 0) ∧ (s.signalOk ((R.GNS_CH_CFG_SYS c.val).of w.toNat) 0 ((R.GNS_CH_CFG_ANT c.val).of w.toNat) = true) ∧ (prnOk ((R.GNS_CH_CFG_SYS c.val).of w.toNat) ((R.GNS_CH_CFG_SVID c.val).of w.toNat) = true) ∧ ((∀ a ≤ 1, (s.antChans a).length + (if a = (R.GNS_CH_CFG_ANT c.val).of w.toNat then 1 else 0) ≤ s.antQuota a))) ∧
    (∃ (s : State) (c : Fin 160) (w : Word), (s.ch c.val ≠ .idle) ∧ (s.ch c.val ≠ .test) ∧ (s.reserved c.val = false) ∧ ((R.GNS_CH_CFG_RSV c.val).of w.toNat = 0)) ∧
    (∃ (s : State) (c : Fin 160) (at_ : Nat), ((s.gnsCh c.val).pinAt = some at_) ∧ (s.rd (R.GNS_CH_CFG_BAND c.val) = 0) ∧ (s.signalOk (s.rd (R.GNS_CH_CFG_SYS c.val)) 0 (s.rd (R.GNS_CH_CFG_ANT c.val)) = true) ∧ (prnOk (s.rd (R.GNS_CH_CFG_SYS c.val)) (s.rd (R.GNS_CH_CFG_SVID c.val)) = true) ∧ ((∀ a ≤ 1, (s.antChans a).length + 2 ≤ s.antQuota a))) :=
  ⟨⟨((((z.hi R.GNS_CTL_EN).hi (R.GNS_PORT_CFG_EN 0)).hi (R.GNS_PORT_CFG_EN 1)).wr R.GNS_CTL_SYS_EN 15), 3, 0, false, false, by decide⟩,
    ⟨((List.range 8).foldl (fun z c => ((setCh c .search z).modCh c (fun k => { k with ant := 1 })).wr (R.GNS_CH_STAT_SVID c) 5) ((((z.hi R.GNS_CTL_EN).hi (R.GNS_PORT_CFG_EN 2)).wr R.GNS_CTL_SYS_EN 15).wr R.GNS_CTL_REDUND 1)).modAnt 1 (fun k => { k with elev := [(5, 10), (9, 60)] }), 155, 0, false, true, 9, by decide +kernel⟩,
    ⟨z, 0, false, 120, by decide⟩,
    ⟨(z.wr (R.GNS_CH_STAT_STATE 9) 2), 9, by decide⟩,
    ⟨(z.wr (R.GNS_CH_STAT_STATE 159) 1), 159, by decide⟩,
    ⟨(z.wr (R.GNS_CH_STAT_STATE 0) 1), 0, by decide⟩,
    ⟨(z.wr (R.GNS_CH_STAT_STATE 0) 2).modCh 0 (fun k => { k with band := 1 }), 0, by decide⟩,
    ⟨((((((z.hi R.GNS_CTL_EN).hi (R.GNS_PORT_CFG_EN 0)).hi (R.GNS_PORT_CFG_EN 1)).wr R.GNS_CTL_SYS_EN 15).wr (R.GNS_CH_STAT_STATE 0) 2).wr (R.GNS_CH_STAT_SVID 0) 31), 0, 9, 9, by decide⟩,
    ⟨(z.wr (R.GNS_CH_STAT_STATE 5) 2), 5, by decide⟩,
    ⟨(z.wr (R.GNS_CH_STAT_STATE 5) 3), 5, by decide⟩,
    ⟨(z.wr (R.GNS_CH_STAT_STATE 5) 4), 5, by decide⟩,
    ⟨(z.wr (R.GNS_CH_STAT_STATE 5) 5), 5, by decide⟩,
    ⟨(z.wr (R.GNS_CH_STAT_STATE 5) 5), 5, by decide⟩,
    ⟨z, 158, by decide⟩,
    ⟨(z.wr (R.GNS_CH_STAT_STATE 158) 6), 158, by decide⟩,
    ⟨((((z.hi R.GNS_CTL_EN).hi (R.GNS_PORT_CFG_EN 0)).hi (R.GNS_PORT_CFG_EN 1)).wr R.GNS_CTL_SYS_EN 15), 5, 0x1F00, by decide⟩,
    ⟨(z.wr (R.GNS_CH_STAT_STATE 5) 4), 5, 0, by decide⟩,
    ⟨((((((z.hi R.GNS_CTL_EN).hi (R.GNS_PORT_CFG_EN 0)).hi (R.GNS_PORT_CFG_EN 1)).wr R.GNS_CTL_SYS_EN 15).wr (R.GNS_CH_STAT_STATE 5) 4).wr (R.GNS_CH_CFG_SVID 5) 31).modCh 5 (fun k => { k with pinAt := some 0 }), 5, 0, by decide⟩⟩

/-- The hypotheses of `Obligations.GnssSolutions`, case by case, are met. -/
theorem witness_GnssSolutions :
    (∃ (s : State) (c : Fin 160) (inv sub3 : Bool) (symbols : List Byte), ∃ sig : Nat, sig = (sigCode (s.gnsCh c.val).sys (s.gnsCh c.val).band) ∧ ∃ payload : List Nat, payload = (navPayload sig inv sub3 (natBytes symbols)) ∧ ∃ check : Nat, check = ((navCheck sig sub3 payload).2) ∧ ((s.ch c.val = .nav) ∧ (s.navWanted (s.gnsCh c.val).sys check = true) ∧ ((s.rd R.GNS_NAV_WR_WR + 512 - s.rd R.GNS_NAV_RD_RD) % 512 ≠ 511))) ∧
    (∃ (s : State) (c : Fin 160) (inv sub3 : Bool) (symbols : List Byte), ∃ sig : Nat, sig = (sigCode (s.gnsCh c.val).sys (s.gnsCh c.val).band) ∧ ∃ payload : List Nat, payload = (navPayload sig inv sub3 (natBytes symbols)) ∧ ∃ check : Nat, check = ((navCheck sig sub3 payload).2) ∧ ((s.ch c.val = .nav) ∧ (s.navWanted (s.gnsCh c.val).sys check = true) ∧ ((s.rd R.GNS_NAV_WR_WR + 512 - s.rd R.GNS_NAV_RD_RD) % 512 = 511))) ∧
    (∃ (s : State) (c : Fin 160) (inv sub3 : Bool) (symbols : List Byte), ∃ sig : Nat, sig = (sigCode (s.gnsCh c.val).sys (s.gnsCh c.val).band) ∧ ((s.ch c.val = .nav) ∧ (s.navWanted (s.gnsCh c.val).sys (navCheck sig sub3 (navPayload sig inv sub3 (natBytes symbols))).2 = false))) ∧
    (∃ (s : State) (c : Fin 160) (inv sub3 : Bool) (symbols : List Byte) (dt : Int), ∃ k : Int, k = (if s.refSys = 2 then 33 else 19) ∧ ∃ sig : Nat, sig = (sigCode (s.gnsCh c.val).sys (s.gnsCh c.val).band) ∧ ∃ sat : Nat, sat = (s.refSys * 256 + s.rd (R.GNS_CH_STAT_SVID c.val)) ∧ ∃ sats : List Nat, sats = (sat :: s.gnss.utcHeard.filter (fun v => v ≠ sat && v / 256 = s.refSys)) ∧ ((s.ch c.val = .nav) ∧ ((s.gnsCh c.val).sys = s.refSys) ∧ ((navCheck sig sub3 (navPayload sig inv sub3 (natBytes symbols))).2 = 1) ∧ (((sats.filter (fun v => v = sat ∨ IMap.get {} s.gnss.utc v = { cur := dt + k })).length ≥ 3)))) ∧
    (∃ (s : State) (a : Fin 2) (fix : GnssFix), ∃ e : Nat, e = (s.nextEpoch a.val) ∧ ∃ u : State, u = (systemsAct (s.waitTs0 e)) ∧ ∃ word : Nat, word = (u.refAtEpoch (e / 65536000000000)) ∧ ∃ known : Option (Int × Int × Int), known = (u.knownAt a.val (e / 65536000000000)) ∧ ∃ r : Solved, r = (u.solve a.val word e known fix) ∧ ((s.gnsOn = true) ∧ (s.antInUse a.val = true) ∧ (r.least ≤ r.used.length))) ∧
    (∃ (s : State) (a : Fin 2) (fix : GnssFix), ∃ e : Nat, e = (s.nextEpoch a.val) ∧ ∃ u : State, u = (systemsAct (s.waitTs0 e)) ∧ ∃ word : Nat, word = (u.refAtEpoch (e / 65536000000000)) ∧ ∃ known : Option (Int × Int × Int), known = (u.knownAt a.val (e / 65536000000000)) ∧ ∃ r : Solved, r = (u.solve a.val word e known fix) ∧ ((s.gnsOn = true) ∧ (s.antInUse a.val = true) ∧ (r.used.length < r.least))) ∧
    (∃ (s : State) (a : Fin 2) (p : Stamp) (x : Int), ((s.gnsAnt a.val).ready = some (p, x)) ∧ (s.clk ≤ p.clk + ms16 60)) ∧
    (∃ (s : State) (a : Fin 2) (p : Stamp) (x : Int), ((s.gnsAnt a.val).ready = some (p, x)) ∧ (p.clk + ms16 60 < s.clk)) ∧
    (∃ (s : State) (a : Fin 2), (s.gnsOn = true) ∧ (s.antInUse a.val = true)) ∧
    (∃ (s : State) (a : Fin 2) (from_ : Nat), ((s.gnsAnt a.val).passFrom = some from_) ∧ (bit (s.rd R.GNS_STAT_SPOOF) a.val = true)) :=
  ⟨⟨((z.wr (R.GNS_CH_STAT_STATE 5) 4).wr R.GNS_NAV_CTL_SYS 15), 5, true, false, List.replicate 38 255, _, rfl, _, rfl, _, rfl, by decide +kernel⟩,
    ⟨((z.wr (R.GNS_CH_STAT_STATE 5) 4).wr R.GNS_NAV_CTL_SYS 15).wr R.GNS_NAV_WR_WR 511, 5, false, false, [], _, rfl, _, rfl, _, rfl, by decide +kernel⟩,
    ⟨z.wr (R.GNS_CH_STAT_STATE 5) 4, 5, false, false, [], _, rfl, by decide +kernel⟩,
    ⟨{ ((z.wr (R.GNS_CH_STAT_STATE 5) 4).wr R.GNS_NAV_CTL_SYS 15) with gnss := { ((z.wr (R.GNS_CH_STAT_STATE 5) 4).wr R.GNS_NAV_CTL_SYS 15).gnss with utc := [(8, { cur := 37 }), (9, { cur := 37 })], utcHeard := [8, 9] } }, 5, false, false, [], 18, _, rfl, _, rfl, _, rfl, _, rfl, by decide +kernel⟩,
    ⟨((((((z.hi R.GNS_CTL_EN).hi (R.GNS_PORT_CFG_EN 0)).hi (R.GNS_PORT_CFG_EN 1)).wr R.GNS_CTL_SYS_EN 15).wr (R.GNS_CH_STAT_STATE 0) 4).wr (R.GNS_CH_STAT_SVID 0) 9).wr (R.GNS_CH_STAT_CN0 0) 4500 |>.wr (R.GNS_POS_CTL_STATE 0) 3, 0, { sats := [{ sys := 0, svid := 9, elev := 40, healthy := true, pos := (2600000000, 0, 0), txHigh := 5000000000, txLow := 0, corr := 0, ionoHigh := 0, ionoLow := 0, isbCast := 0, weight := 1 }], nav := none, again := none, poly := 3, sigma := 9, freq := 1, phaseRms := none, surveySigma := 5, eph := [] }, _, rfl, _, rfl, _, rfl, some (0, 0, 0), by decide +kernel, _, rfl, by decide, by decide, solve_single _ _ _ _ _ _ _ rfl (by decide +kernel) (by decide +kernel)⟩,
    ⟨((((z.hi R.GNS_CTL_EN).hi (R.GNS_PORT_CFG_EN 0)).hi (R.GNS_PORT_CFG_EN 1)).wr R.GNS_CTL_SYS_EN 15), 0, { sats := [{ sys := 0, svid := 9, elev := 40, healthy := true, pos := (2600000000, 0, 0), txHigh := 5000000000, txLow := 0, corr := 0, ionoHigh := 0, ionoLow := 0, isbCast := 0, weight := 1 }], nav := none, again := none, poly := 3, sigma := 9, freq := 1, phaseRms := none, surveySigma := 5, eph := [] }, _, rfl, _, rfl, _, rfl, _, rfl, _, rfl, by decide +kernel⟩,
    ⟨z.modAnt 1 (fun k => { k with ready := some ({ t := z.ts0, clk := z.clk }, 7) }), 1, { t := z.ts0, clk := z.clk }, 7, by decide⟩,
    ⟨(z.modAnt 1 (fun k => { k with ready := some ({}, 7) })).modBank .ts0 (fun k => { k with ts := 2 ^ 90 }), 1, {}, 7, by decide⟩,
    ⟨z.hi R.GNS_CTL_EN, 0, by decide⟩,
    ⟨(z.wr R.GNS_STAT_SPOOF 3).modAnt 1 (fun k => { k with passFrom := some 0 }), 1, 0, by decide⟩⟩

/-- The hypotheses of `Obligations.GnssPositionAndSleep`, case by case, are met. -/
theorem witness_GnssPositionAndSleep :
    (∃ (s : State) (a : Fin 2), (s.rd (R.GNS_POS_CTL_MODE a.val) = 1)) ∧
    (∃ (s : State) (a : Fin 2), (s.rd (R.GNS_POS_CTL_MODE a.val) ≠ 1)) ∧
    (∃ (s : State) (a : Fin 2) (from_ : Nat), ((s.gnsAnt a.val).surveyFrom = some from_) ∧ (s.rd (R.GNS_POS_CTL_STATE a.val) = 1) ∧ (s.rd (R.GNS_SURV_STAT_SIGMA a.val) ≤ max 1 (s.rd R.GNS_SURV_CTL_ACC))) ∧
    (∃ (s : State) (a : Fin 2) (from_ : Nat), ((s.gnsAnt a.val).surveyFrom = some from_) ∧ (s.rd (R.GNS_POS_CTL_STATE a.val) = 1)) ∧
    (∃ (a : Fin 2) (w : Word), ((R.GNS_POS_CTL_MODE a.val).of w.toNat = 0 ∨ (R.GNS_POS_CTL_MODE a.val).of w.toNat = 3)) ∧
    (∃ (a : Fin 2) (w : Word), ((R.GNS_POS_CTL_MODE a.val).of w.toNat = 1)) ∧
    (∃ (s : State), ((s.rd R.GNS_CTL_REDUND = 1 ∨ s.rd R.GNS_CTL_REDUND = 2)) ∧ (s.gnsOn = true)) ∧
    (∃ (s : State) (p : Nat) (from_ : Nat), (s.originalPrimary = some p) ∧ ((s.gnsAnt p).validFrom = some from_) ∧ (s.rd R.GNS_STAT_ACTIVE_ANT ≠ p)) ∧
    (∃ (s : State) (span : Nat), (s.gnsOn = true) ∧ (s.gnsEligible = true) ∧ (s.sleepLen span = 0)) ∧
    (∃ (s : State) (span : Nat), (s.gnsOn = true) ∧ (s.gnsEligible = true) ∧ (0 < s.sleepLen span)) ∧
    (∃ (s : State), (s.rd R.GNS_SLEEP_STAT_ASLEEP = 1)) ∧
    (∃ (s : State), (s.rd R.GNS_SLEEP_STAT_ASLEEP = 1)) ∧
    (∃ (s : State), (s.rd R.GNS_SLEEP_STAT_ASLEEP = 1) ∧ (s.wakeDue = true)) ∧
    (∃ (s : State) (at_ : Nat), (s.gnss.wakeAt = some at_) ∧ (s.gnss.lossHeld = true)) :=
  ⟨⟨z.wr (R.GNS_POS_CTL_MODE 1) 1, 1, by decide⟩,
    ⟨z, 1, by decide⟩,
    ⟨((z.wr (R.GNS_POS_CTL_STATE 0) 1).wr (R.GNS_SURV_STAT_SIGMA 0) 100).modAnt 0 (fun k => { k with surveyFrom := some 0 }), 0, 0, by decide⟩,
    ⟨(z.wr (R.GNS_POS_CTL_STATE 1) 1).modAnt 1 (fun k => { k with surveyFrom := some 0 }), 1, 0, by decide⟩,
    ⟨0, 0, by decide⟩,
    ⟨0, 1, by decide⟩,
    ⟨(z.hi R.GNS_CTL_EN).wr R.GNS_CTL_REDUND 1, by decide⟩,
    ⟨(z.wr R.GNS_CTL_REDUND 2).modAnt 1 (fun k => { k with validFrom := some 0 }), 1, 0, by decide⟩,
    ⟨((((((((((z.hi R.GNS_CTL_EN).hi R.GNS_SLEEP_CTL_ALLOW).wr R.ENS_STAT_STATE 2).wr R.ENS_ANCHOR_ACTIVE 1).wr (R.ENS_SLOT_STAT_STATE 2) 2).wr (R.GNS_POS_CTL_STATE 0) 3).wr (R.GNS_POS_CTL_STATE 1) 2).wr R.PWR_LAT_GNSS_LAT 5000000).wr (R.GNS_CH_STAT_STATE 7) 4).modAnt 0 (fun k => { k with eph := List.replicate 6 9999999999 })).modAnt 1 (fun k => { k with eph := List.replicate 7 9999999998 }), 0, by decide +kernel⟩,
    ⟨((((((((((z.hi R.GNS_CTL_EN).hi R.GNS_SLEEP_CTL_ALLOW).wr R.ENS_STAT_STATE 2).wr R.ENS_ANCHOR_ACTIVE 1).wr (R.ENS_SLOT_STAT_STATE 2) 2).wr (R.GNS_POS_CTL_STATE 0) 3).wr (R.GNS_POS_CTL_STATE 1) 2).wr R.PWR_LAT_GNSS_LAT 5000000).wr (R.GNS_CH_STAT_STATE 7) 4).modAnt 0 (fun k => { k with eph := List.replicate 6 9999999999 })).modAnt 1 (fun k => { k with eph := List.replicate 7 9999999998 }), 600, by decide +kernel⟩,
    ⟨(((z.hi R.GNS_CTL_EN).hi R.GNS_SLEEP_STAT_ASLEEP)), by decide⟩,
    ⟨(((z.hi R.GNS_CTL_EN).hi R.GNS_SLEEP_STAT_ASLEEP)), by decide⟩,
    ⟨(((z.hi R.GNS_CTL_EN).hi R.GNS_SLEEP_STAT_ASLEEP)), by decide⟩,
    ⟨{ z with gnss := { z.gnss with wakeAt := some 0, lossHeld := true } }, 0, by decide⟩⟩

/-- The hypotheses of `Obligations.ReferenceModules`, case by case, are met. -/
theorem witness_ReferenceModules :
    (∃ (s : State) (p : Fin 2), (s.rfmState p.val = .empty)) ∧
    (∃ (s : State) (p : Fin 2), (s.rfmState p.val ≠ .empty)) ∧
    (∃ (s : State) (p : Fin 2), (s.rfmState p.val = .reading)) ∧
    (∃ (s : State) (p : Fin 2) (from_ : Int), ((s.rfmPort p.val).warmFrom = some from_) ∧ (s.rfmState p.val = .warming) ∧ (s.rd (R.RFM_STAT_ALM p.val) ≠ 1) ∧ (s.rd (R.RFM_STAT_CLK_OK p.val) = 1)) ∧
    (∃ (s : State) (p : Fin 2) (from_ : Int), ((s.rfmPort p.val).warmFrom = some from_) ∧ (s.rfmState p.val = .warming) ∧ ((s.rd (R.RFM_STAT_ALM p.val) = 1 ∨ s.rd (R.RFM_STAT_CLK_OK p.val) ≠ 1)) ∧ ((s.rfmPort p.val).warmEnd = false)) ∧
    (∃ (s : State) (p : Fin 2), ((s.rd (R.RFM_STAT_ALM p.val) = 1 ∨ s.rd (R.RFM_STAT_CLK_OK p.val) ≠ 1 ∨ s.rfmState p.val ≠ .warming)) ∧ (((s.rfmPort p.val).warmEnd = true ∨ s.rfmState p.val ≠ .warming))) ∧
    (∃ (s : State) (p : Fin 2) (from_ : Int), ((s.rfmPort p.val).warmFrom = some from_) ∧ (s.rfmState p.val = .warming) ∧ (s.rd (R.RFM_STAT_ALM p.val) ≠ 1) ∧ (s.rd (R.RFM_STAT_CLK_OK p.val) = 1)) ∧
    (∃ (s : State) (p : Fin 2), (s.rfmState p.val ≠ .empty)) ∧
    (∃ (s : State) (p : Fin 2) (ms : Nat), ((s.rfmState p.val ≠ .warming ∧ (ms < 10000 ∨ s.rfmState p.val ≠ .alarm)))) ∧
    (∃ (s : State) (p : Fin 2) (from_ : Int), (s.rfmState p.val = .warming) ∧ ((s.rfmPort p.val).warmFrom = some from_) ∧ (from_ + (sec16 (s.warmSecs p.val) : Nat) ≤ (s.clk : Int)) ∧ (s.rd (R.RFM_STAT_CLK_OK p.val) = 1)) ∧
    (∃ (s : State) (p : Fin 2) (ms : Nat), (s.rfmState p.val = .alarm) ∧ (s.rd (R.RFM_STAT_CLK_OK p.val) = 1) ∧ (10000 ≤ ms)) ∧
    (∃ (s : State) (p : Fin 2), ((s.rfmPort p.val).hz = none)) ∧
    (∃ (s : State) (p : Fin 2) (h : Nat), ((s.rfmPort p.val).hz = some h)) ∧
    (∃ (s : State) (p : Fin 2), ((s.rd (R.RFM_CFG_PARK p.val) = 1 ∨ s.rfmState p.val = .empty ∨ s.rfmState p.val = .reading ∨ s.rfmState p.val = .parked))) ∧
    (∃ (s : State) (p : Fin 2), (s.rd (R.RFM_CFG_PARK p.val) ≠ 1) ∧ (s.rfmState p.val = .warming ∨ s.rfmState p.val = .ready ∨ s.rfmState p.val = .alarm) ∧ (s.rd (R.RFM_STAT_HOURS_OK p.val) = 1)) ∧
    (∃ (s : State) (p : Fin 2), (s.rd (R.RFM_CFG_PARK p.val) ≠ 1) ∧ (s.rfmState p.val = .warming ∨ s.rfmState p.val = .ready ∨ s.rfmState p.val = .alarm) ∧ (s.rd (R.RFM_STAT_HOURS_OK p.val) ≠ 1)) ∧
    (∃ (s : State) (p : Fin 2), (s.rfmState p.val = .parked)) ∧
    (∃ (s : State) (p : Fin 2), (s.rfmState p.val ≠ .parked)) :=
  ⟨⟨z, 1, by decide⟩,
    ⟨(((z.wr (R.RFM_STAT_STATE 0) 3).hi (R.RFM_STAT_CANDIDATE 0)).wr R.ENS_ANCHOR_ACTIVE 1), 0, by decide⟩,
    ⟨(z.wr (R.RFM_STAT_STATE 0) 1), 0, by decide⟩,
    ⟨((z.wr (R.RFM_STAT_STATE 0) 2).hi (R.RFM_STAT_CLK_OK 0)).modRfm 0 (fun k => { k with warmFrom := some 0 }), 0, 0, by decide⟩,
    ⟨(z.wr (R.RFM_STAT_STATE 1) 2).modRfm 1 (fun k => { k with warmFrom := some 0 }), 1, 0, by decide⟩,
    ⟨(z.wr (R.RFM_STAT_STATE 1) 5), 1, by decide⟩,
    ⟨((z.wr (R.RFM_STAT_STATE 1) 2).hi (R.RFM_STAT_CLK_OK 1)).modRfm 1 (fun k => { k with warmFrom := some 0 }), 1, 0, by decide⟩,
    ⟨(z.wr (R.RFM_STAT_STATE 0) 3).hi (R.RFM_STAT_CANDIDATE 0), 0, by decide⟩,
    ⟨z.wr (R.RFM_STAT_STATE 1) 4, 1, 9999, by decide⟩,
    ⟨((z.wr (R.RFM_STAT_STATE 1) 2).hi (R.RFM_STAT_CLK_OK 1)).modRfm 1 (fun k => { k with warmFrom := some (-(10 ^ 20)) }), 1, -(10 ^ 20), by decide⟩,
    ⟨(z.wr (R.RFM_STAT_STATE 1) 4).hi (R.RFM_STAT_CLK_OK 1), 1, 10000, by decide⟩,
    ⟨z, 1, by decide⟩,
    ⟨(z.wr (R.RFM_STAT_STATE 1) 4).modRfm 1 (fun k => { k with hz := some (10 ^ 16) }), 1, 10 ^ 16, by decide⟩,
    ⟨z, 1, by decide⟩,
    ⟨(z.wr (R.RFM_STAT_STATE 0) 3).hi (R.RFM_STAT_HOURS_OK 0), 0, by decide⟩,
    ⟨(z.wr (R.RFM_STAT_STATE 1) 2), 1, by decide⟩,
    ⟨(z.wr (R.RFM_STAT_STATE 0) 5).hi (R.RFM_CFG_PARK 0), 0, by decide⟩,
    ⟨z, 1, by decide⟩⟩

/-- The hypotheses of `Obligations.ModuleHoursAndEfc`, case by case, are met. -/
theorem witness_ModuleHoursAndEfc :
    (∃ (s : State) (p : Fin 2), (s.rfmState p.val ≠ .empty) ∧ (s.rfmState p.val ≠ .reading) ∧ (s.rd (R.RFM_USE_MINUTES p.val) < 59)) ∧
    (∃ (s : State) (p : Fin 2), (s.rfmState p.val ≠ .empty) ∧ (s.rfmState p.val ≠ .reading) ∧ (s.rd (R.RFM_USE_MINUTES p.val) = 59)) ∧
    (∃ (s : State) (p : Fin 2) (w : HoursWrite) (rest : List HoursJob), ((s.rfmPort p.val).work = some w) ∧ ((s.rfmPort p.val).jobs = rest) ∧ (w.failed = false) ∧ ((w.job = .hourly ∨ w.job = .flush))) ∧
    (∃ (s : State) (p : Fin 2) (w : HoursWrite) (rest : List HoursJob), ((s.rfmPort p.val).work = some w) ∧ ((s.rfmPort p.val).jobs = rest) ∧ (w.failed = false) ∧ (w.job = .setFirst)) ∧
    (∃ (s : State) (p : Fin 2) (w : HoursWrite) (rest : List HoursJob), ((s.rfmPort p.val).work = some w) ∧ ((s.rfmPort p.val).jobs = rest) ∧ (w.failed = false) ∧ (w.job = .setSecond)) ∧
    (∃ (s : State) (p : Fin 2) (w : HoursWrite) (rest : List HoursJob), ((s.rfmPort p.val).work = some w) ∧ ((s.rfmPort p.val).jobs = rest) ∧ (w.failed = false)) ∧
    (∃ (s : State) (p : Fin 2), (s.rfmState p.val ≠ .empty) ∧ (s.rfmState p.val ≠ .reading)) ∧
    (∃ (s : State) (p : Fin 2), (s.rfmState p.val = .empty ∨ s.rfmState p.val = .reading)) ∧
    (∃ (s : State) (p : Fin 2), ((s.rd (R.RFM_STAT_IDENT_OK p.val) = 1 ∨ s.rfmState p.val = .empty ∨ s.rfmState p.val = .reading)) ∧ (s.rd (R.RFM_CFG_EFC_MODE p.val) = 1)) ∧
    (∃ (s : State) (p : Fin 2), (((s.rd (R.RFM_STAT_IDENT_OK p.val) ≠ 1 ∧ s.rfmState p.val ≠ .empty ∧ s.rfmState p.val ≠ .reading) ∨ s.rd (R.RFM_CFG_EFC_MODE p.val) ≠ 1))) ∧
    (∃ (s : State) (p : Fin 2), (s.rfmState p.val = .ready) ∧ ((s.rfmPort p.val).ppsAt = none)) ∧
    (∃ (s : State) (p : Fin 2), ((s.rfmState p.val = .warming ∨ s.rfmState p.val = .alarm))) ∧
    (∃ (s : State) (p : Fin 2), ((s.rfmState p.val = .empty ∨ s.rfmState p.val = .reading ∨ s.rfmState p.val = .parked))) ∧
    (∃ (s : State) (c : Fin 3) (p : Fin 2), (c.val = p.val + 1) ∧ ((s.rfmState p.val = .warming ∨ s.rfmState p.val = .ready))) ∧
    (∃ (s : State) (c : Fin 3) (p : Fin 2), (c.val = p.val + 1) ∧ (s.rfmState p.val ≠ .warming) ∧ (s.rfmState p.val ≠ .ready)) :=
  ⟨⟨(z.wr (R.RFM_STAT_STATE 0) 2), 0, by decide⟩,
    ⟨((z.wr (R.RFM_STAT_STATE 1) 3).wr (R.RFM_USE_MINUTES 1) 59).hi (R.RFM_STAT_HOURS_OK 1), 1, by decide⟩,
    ⟨z.modRfm 0 (fun k => { k with work := some { copy := 0, seq := 8, job := .hourly } }), 0, ({ copy := 0, seq := 8, job := .hourly }), [], by decide⟩,
    ⟨z.modRfm 0 (fun k => { k with work := some { copy := 0, seq := 8, job := .setFirst } }), 0, ({ copy := 0, seq := 8, job := .setFirst }), [], by decide⟩,
    ⟨(z.wr R.RFM_EVT_BITS 128).modRfm 0 (fun k => { k with work := some { copy := 0, seq := 8, job := .setSecond } }), 0, ({ copy := 0, seq := 8, job := .setSecond }), [], by decide⟩,
    ⟨z.modRfm 0 (fun k => { k with work := some { copy := 0, seq := 8, job := .hourly } }), 0, ({ copy := 0, seq := 8, job := .hourly }), [], by decide⟩,
    ⟨(z.wr (R.RFM_STAT_STATE 0) 4).wr (R.RFM_HOURS_SET_VALUE 0) 12345, 0, by decide⟩,
    ⟨z, 0, by decide⟩,
    ⟨(z.hi (R.RFM_STAT_IDENT_OK 1)).wr (R.RFM_CFG_EFC_MODE 1) 1, 1, by decide⟩,
    ⟨z, 1, by decide⟩,
    ⟨(z.wr (R.RFM_STAT_STATE 0) 3), 0, by decide⟩,
    ⟨z.wr (R.RFM_STAT_STATE 1) 4, 1, by decide⟩,
    ⟨z.wr (R.RFM_STAT_STATE 1) 1, 1, by decide⟩,
    ⟨(z.wr (R.RFM_STAT_STATE 0) 3), 1, 0, by decide⟩,
    ⟨(z.wr (R.RFM_STAT_STATE 0) 4), 1, 0, by decide⟩⟩

/-- The hypotheses of `Obligations.IntervalInputs`, case by case, are met. -/
theorem witness_IntervalInputs :
    (∃ (s : State) (c : Fin 64), (s.chState c.val = 0)) ∧
    (∃ (s : State) (c : Fin 64) (dc : Nat) (bin : Fin 64) (fall : Bool), ∃ q, q = (s.waitTick (tickOfCoarse (s.coarseNow + dc))) ∧ ∃ e, e = (q.capture c.val (s.coarseNow + dc) bin.val fall) ∧ ((s.chState c.val = 1) ∧ (s.chMode c.val = 0) ∧ ((s.chEdge c.val = (if fall then 1 else 0))) ∧ (s.on (R.TIM_CH_CFG_GATED c.val) = false) ∧ (s.rd (R.TIM_CH_CFG_PRESCALE c.val) = 0) ∧ ((s.chan c.val).fifo = []) ∧ ((s.chan c.val).lastPos = none) ∧ ((s.rd (R.TIM_GRP_WR_WR (groupOf c.val)) + 1) % 16384 ≠ s.rd (R.TIM_GRP_RD_RD (groupOf c.val))) ∧ ((∀ p, (s.chan c.val).lastEdge = some p → p + 131072 ≤ e.place)))) ∧
    (∃ (s : State) (c : Fin 64) (dc : Nat) (bin : Fin 64) (fall : Bool), ∃ q, q = (s.waitTick (tickOfCoarse (s.coarseNow + dc))) ∧ ∃ e, e = (q.capture c.val (s.coarseNow + dc) bin.val fall) ∧ ((s.chState c.val = 1) ∧ (s.chMode c.val = 1) ∧ ((s.chEdge c.val = (if fall then 1 else 0))) ∧ (s.on (R.TIM_CH_CFG_GATED c.val) = false) ∧ ((s.chan c.val).open_ = none) ∧ (s.unstamped c.val e = false) ∧ ((∀ p, (s.chan c.val).lastEdge = some p → p + 131072 ≤ e.place)))) ∧
    (∃ (s : State) (c : Fin 64) (dc : Nat) (bin : Fin 64) (fall : Bool) (a : Edge), ∃ q, q = (s.waitTick (tickOfCoarse (s.coarseNow + dc))) ∧ ∃ e, e = (q.capture (c.val + 1) (s.coarseNow + dc) bin.val fall) ∧ ((s.chState (c.val + 1) = 3) ∧ (s.chMode c.val = 1) ∧ ((s.chEdge c.val = (if fall then 1 else 0))) ∧ (s.on (R.TIM_CH_CFG_GATED c.val) = false) ∧ (s.on (R.TIM_CH_CFG_STOP_SELF c.val) = false) ∧ ((s.chan c.val).open_ = some (true, a)) ∧ ((∀ p, (s.chan (c.val + 1)).lastEdge = some p → p + 131072 ≤ e.place)))) ∧
    (∃ (s : State) (c : Fin 64) (dc : Nat) (bin : Fin 64) (fall : Bool) (a : Edge), ∃ q, q = (s.waitTick (tickOfCoarse (s.coarseNow + dc))) ∧ ∃ e, e = (q.capture (c.val + 1) (s.coarseNow + dc) bin.val fall) ∧ ((s.chState (c.val + 1) = 3) ∧ (s.chMode c.val = 1) ∧ ((s.chEdge c.val = (if fall then 1 else 0))) ∧ (s.on (R.TIM_CH_CFG_GATED c.val) = false) ∧ (s.on (R.TIM_CH_CFG_STOP_SELF c.val) = false) ∧ (s.on (R.TIM_CH_CFG_CONT c.val) = true) ∧ ((s.chan c.val).open_ = some (false, a)) ∧ (s.unstamped (c.val + 1) e = false) ∧ ((s.rd (R.TIM_GRP_WR_WR (groupOf c.val)) + 1) % 16384 ≠ s.rd (R.TIM_GRP_RD_RD (groupOf c.val))) ∧ (s.on (R.TIM_CH_STAT_HO_WAIT c.val) = false ∧ s.on (R.TIM_CH_STAT_HO_WAIT (c.val + 1)) = false) ∧ ((∀ p, (s.chan (c.val + 1)).lastEdge = some p → p + 131072 ≤ e.place)))) ∧
    (∃ (s : State) (c : Fin 64) (dc : Nat) (bin : Fin 64) (fall : Bool), ∃ q, q = (s.waitTick (tickOfCoarse (s.coarseNow + dc))) ∧ ∃ e, e = (q.capture c.val (s.coarseNow + dc) bin.val fall) ∧ ((s.chState c.val = 1) ∧ (s.chMode c.val = 2) ∧ ((s.chEdge c.val = (if fall then 1 else 0))) ∧ (s.on (R.TIM_CH_CFG_GATED c.val) = false) ∧ ((s.chan c.val).countAt.isSome = true) ∧ ((∀ p, (s.chan c.val).lastEdge = some p → p + 131072 ≤ e.place)))) ∧
    (∃ (s : State) (c : Fin 64) (dc : Nat) (bin : Fin 64) (fall : Bool), ∃ q, q = (s.waitTick (tickOfCoarse (s.coarseNow + dc))) ∧ ∃ e, e = (q.capture c.val (s.coarseNow + dc) bin.val fall) ∧ ∃ g, g = (groupOf c.val) ∧ ((s.chState c.val = 1) ∧ (s.chMode c.val = 2) ∧ ((s.chEdge c.val = (if fall then 1 else 0))) ∧ (s.on (R.TIM_CH_CFG_GATED c.val) = true) ∧ (s.gateMode g ≠ 3) ∧ (s.on (R.TIM_GRP_STAT_GATE_OPEN g) = true) ∧ ((s.chan c.val).countAt.isSome = true) ∧ ((∀ p, (s.chan c.val).lastEdge = some p → p + 131072 ≤ e.place)))) ∧
    (∃ (s : State) (c : Fin 64) (dc : Nat) (bin : Fin 64) (fall : Bool) (p : Nat), ∃ q, q = (s.waitTick (tickOfCoarse (s.coarseNow + dc))) ∧ ((s.chState c.val ≠ 0) ∧ (s.gateMode (groupOf c.val) ≠ 3) ∧ ((s.chan c.val).lastEdge = some p) ∧ ((q.capture c.val (s.coarseNow + dc) bin.val fall).place < p + 131072))) ∧
    (∃ (s : State) (c : Fin 64) (at_ : Nat) (c0 : Nat), (s.chState c.val = 1) ∧ (s.chMode c.val = 2) ∧ (s.on (R.TIM_CH_CFG_GATED c.val) = false) ∧ ((s.chan c.val).countAt = some (at_, c0)) ∧ ((s.rd (R.TIM_GRP_WR_WR (groupOf c.val)) + 1) % 16384 ≠ s.rd (R.TIM_GRP_RD_RD (groupOf c.val)))) ∧
    (∃ (s : State) (c : Fin 64), ((s.chan c.val).open_ = none)) ∧
    (∃ (s : State) (c : Fin 64) (onStop : Bool) (a : Edge), ((s.chan c.val).open_ = some (onStop, a)) ∧ (s.on (R.TIM_CH_CFG_CONT c.val) = true) ∧ ((s.rd (R.TIM_GRP_WR_WR (groupOf c.val)) + 1) % 16384 ≠ s.rd (R.TIM_GRP_RD_RD (groupOf c.val))) ∧ (s.on (R.TIM_CH_STAT_HO_WAIT c.val) = false ∧ s.on (R.TIM_CH_STAT_HO_WAIT (c.val + 1)) = false)) ∧
    (∃ (s : State) (c : Fin 64), (s.on (R.TIM_CH_STAT_ASSIGNED c.val) = false) ∧ (s.chState c.val = 0) ∧ ((s.group (groupOf c.val)).nap = false) ∧ (s.paired c.val = false) ∧ (s.on (R.TIM_CH_CFG_GATED c.val) = false)) ∧
    (∃ (s : State) (c : Fin 64), (s.on (R.TIM_CH_STAT_ASSIGNED c.val) = false) ∧ (s.chState c.val = 0) ∧ ((s.group (groupOf c.val)).nap = false) ∧ (s.paired c.val = true) ∧ (c.val % 2 = 0) ∧ (s.chState (c.val + 1) = 0) ∧ (s.on (R.TIM_CH_STAT_ASSIGNED (c.val + 1)) = false) ∧ (s.on (R.TIM_CH_CFG_GATED c.val) = false)) ∧
    (∃ (s : State) (c : Fin 64), ∃ g, g = (groupOf c.val) ∧ ((s.on (R.TIM_CH_STAT_ASSIGNED c.val) = false) ∧ (s.chState c.val = 0) ∧ ((s.group g).nap = false) ∧ (s.paired c.val = false) ∧ (s.on (R.TIM_CH_CFG_GATED c.val) = true) ∧ (s.gateMode g = 3) ∧ (s.windowDenied g = false) ∧ (s.gatedArmed g c.val = false) ∧ (s.on (R.TIM_GRP_STAT_GATE_OPEN g) = false) ∧ (s.ts0 < s.windowFrom g))) ∧
    (∃ (s : State) (c : Fin 64), (s.on (R.TIM_CH_STAT_ASSIGNED c.val) = false) ∧ (s.chState c.val = 0) ∧ ((s.group (groupOf c.val)).nap = false) ∧ (((s.paired c.val = true ∧ (c.val % 2 = 1 ∨ s.chState (c.val + 1) ≠ 0 ∨ s.on (R.TIM_CH_STAT_ASSIGNED (c.val + 1)) = true)) ∨ (s.on (R.TIM_CH_CFG_GATED c.val) = true ∧ s.windowDenied (groupOf c.val) = true)))) ∧
    (∃ (s : State) (c : Fin 64), (s.on (R.TIM_CH_STAT_ASSIGNED c.val) = true ∨ s.chState c.val = 3)) ∧
    (∃ (s : State) (c : Fin 64), (s.on (R.TIM_CH_STAT_ASSIGNED c.val) = false) ∧ (s.chState c.val = 0) ∧ ((s.group (groupOf c.val)).nap = true)) ∧
    (∃ (s : State) (c : Fin 64), (s.on (R.TIM_CH_STAT_ASSIGNED c.val) = false) ∧ (s.chState c.val = 1 ∨ s.chState c.val = 2) ∧ (s.paired c.val = false) ∧ (s.on (R.TIM_CH_STAT_HO_WAIT c.val) = false ∧ s.on (R.TIM_CH_STAT_HO_WAIT (c.val + 1)) = false)) ∧
    (∃ (s : State) (c : Fin 64), (s.on (R.TIM_CH_STAT_ASSIGNED c.val) = true ∨ s.chState c.val = 3)) :=
  ⟨⟨z, 3, by decide⟩,
    ⟨((z.wr (R.TIM_CH_CFG_MODE 3) 0).wr (R.TIM_CH_STAT_STATE 3) 1), 3, 0, 0, false, _, rfl, _, rfl, by decide, by decide, by decide, by decide, by decide, by decide, by decide, by decide, fun p h => by cases h⟩,
    ⟨((z.wr (R.TIM_CH_CFG_MODE 4) 1).wr (R.TIM_CH_STAT_STATE 4) 1), 4, 9, 3, false, _, rfl, _, rfl, by decide, by decide, by decide, by decide, by decide, rfl, fun p h => by cases h⟩,
    ⟨((z.wr (R.TIM_CH_CFG_MODE 4) 1).wr (R.TIM_CH_STAT_STATE 5) 3).modChan 4 (fun k => { k with open_ := some (true, { c := 100, pos := 5000, width := 1024, bin := 3, unit := 1, t := 1000 * 2 ^ 48, fall := false }) }), 4, 0, 0, false, { c := 100, pos := 5000, width := 1024, bin := 3, unit := 1, t := 1000 * 2 ^ 48, fall := false }, _, rfl, _, rfl, by decide, by decide, by decide, by decide, by decide, by decide, fun p h => by cases h⟩,
    ⟨((((z.wr (R.TIM_CH_CFG_MODE 4) 1).wr (R.TIM_CH_STAT_STATE 4) 1).wr (R.TIM_CH_STAT_STATE 5) 3).hi (R.TIM_CH_CFG_CONT 4)).modChan 4 (fun k => { k with open_ := some (false, { c := 100, pos := 5000, width := 1024, bin := 3, unit := 1, t := 1000 * 2 ^ 48, fall := false }) }), 4, 9, 3, false, { c := 100, pos := 5000, width := 1024, bin := 3, unit := 1, t := 1000 * 2 ^ 48, fall := false }, _, rfl, _, rfl, by decide, by decide, by decide, by decide, by decide, by decide, by decide, rfl, by decide, by decide, fun p h => by cases h⟩,
    ⟨((z.wr (R.TIM_CH_CFG_MODE 4) 2).wr (R.TIM_CH_STAT_STATE 4) 1).modChan 4 (fun k => { k with countAt := some (1, 2) }), 4, 0, 0, false, _, rfl, _, rfl, by decide, by decide, by decide, by decide, by decide, fun p h => by cases h⟩,
    ⟨(((z.wr (R.TIM_CH_CFG_MODE 4) 2).wr (R.TIM_CH_STAT_STATE 4) 1).hi (R.TIM_CH_CFG_GATED 4)).hi (R.TIM_GRP_STAT_GATE_OPEN 0) |>.modChan 4 (fun k => { k with countAt := some (1, 3) }), 4, 0, 0, false, _, rfl, _, rfl, _, rfl, by decide, by decide, by decide, by decide, by decide, by decide, by decide, fun p h => by cases h⟩,
    by
        let y : State := z.wr (R.TIM_CH_STAT_STATE 4) 1
        let l : Nat := y.coarseNow * 65536 + y.binCentre (groupOf 4) (y.servedBy 4 y.coarseNow).1 0
        let s : State := y.modChan 4 (fun k => { k with lastEdge := some l })
        have hb (u v : State) (c : Nat) (h : u.tim = v.tim) : u.binCentre (groupOf 4) (u.servedBy 4 c).1 0
            = v.binCentre (groupOf 4) (v.servedBy 4 c).1 0 := by
          cases u; cases v; cases h; rfl
        have hl : s.coarseNow * 65536 + s.binCentre (groupOf 4) (s.servedBy 4 s.coarseNow).1 0 = l := rfl
        refine ⟨s, 4, 0, 0, false, l, _, rfl, by decide, by decide, rfl, ?_⟩
        show (s.coarseNow + 0) * 65536 + (s.waitTick (tickOfCoarse (s.coarseNow + 0))).binCentre (groupOf 4) ((s.waitTick (tickOfCoarse (s.coarseNow + 0))).servedBy 4 (s.coarseNow + 0)).1 0 < l + 131072
        rw [Nat.add_zero, hb _ s _ (by simp [State.waitTick]), hl]; omega,
    ⟨((z.wr (R.TIM_CH_CFG_MODE 4) 2).wr (R.TIM_CH_STAT_STATE 4) 1).modChan 4 (fun k => { k with countAt := some (1, 2), count := 77 }), 4, 1, 2, by decide⟩,
    ⟨z, 4, by decide⟩,
    ⟨(((z.wr (R.TIM_CH_CFG_MODE 4) 1).wr (R.TIM_CH_STAT_STATE 4) 1).hi (R.TIM_CH_CFG_CONT 4)).modChan 4 (fun k => { k with open_ := some (true, { c := 100, pos := 5000, width := 1024, bin := 3, unit := 1, t := 1000 * 2 ^ 48, fall := false }) }), 4, true, ({ c := 100, pos := 5000, width := 1024, bin := 3, unit := 1, t := 1000 * 2 ^ 48, fall := false }), by decide⟩,
    ⟨z, 7, by decide⟩,
    ⟨z.wr (R.TIM_CH_CFG_MODE 6) 1, 6, by decide⟩,
    ⟨(((z.hi (R.TIM_CH_CFG_GATED 4)).wr (R.TIM_GRP_CFG_GATE_MODE 0) 3).wr (R.TIM_GRP_GLEN_LEN 0) 5).wr (R.TIM_GRP_GT_NS_NS 0) 100, 4, _, rfl, by decide⟩,
    ⟨(z.hi (R.TIM_CH_CFG_GATED 4)).wr (R.TIM_GRP_CFG_GATE_MODE 0) 3, 4, by decide⟩,
    ⟨z.hi (R.TIM_CH_STAT_ASSIGNED 6), 6, by decide⟩,
    ⟨z.modGroup 0 (fun k => { k with nap := true }), 6, by decide⟩,
    ⟨((z.wr (R.TIM_CH_CFG_MODE 8) 0).wr (R.TIM_CH_STAT_STATE 8) 1), 8, by decide⟩,
    ⟨z.wr (R.TIM_CH_STAT_STATE 7) 3, 7, by decide⟩⟩

/-- The hypotheses of `Obligations.GatesAndCalibration`, case by case, are met. -/
theorem witness_GatesAndCalibration :
    (∃ (s : State) (g : Fin 8) (high : Bool), ((s.on (R.TIM_GRP_STAT_GATE_OPEN g.val) = true ∨ (s.gateMode g.val ≠ 3 ∧ high = s.on (R.TIM_GRP_CFG_POL g.val))))) ∧
    (∃ (s : State) (g : Fin 8) (high : Bool), (s.on (R.TIM_GRP_STAT_GATE_OPEN g.val) = false) ∧ (high ≠ s.on (R.TIM_GRP_CFG_POL g.val)) ∧ ((s.gateMode g.val = 1 ∨ (s.gateMode g.val = 2 ∧ ((s.group g.val).gateUsed = false ∨ s.on (R.TIM_GRP_CFG_REARM g.val) = true))))) ∧
    (∃ (s : State) (g : Fin 8), (s.on (R.TIM_GRP_STAT_GATE_OPEN g.val) = false) ∧ (s.gateMode g.val = 2) ∧ ((s.group g.val).gateUsed = true) ∧ (s.on (R.TIM_GRP_CFG_REARM g.val) = false)) ∧
    (∃ (s : State) (g : Fin 8), (s.on (R.TIM_GRP_STAT_GATE_OPEN g.val) = false) ∧ (s.gateMode g.val = 3) ∧ (s.on (R.TIM_GRP_STAT_WAITING g.val) = true)) ∧
    (∃ (s : State) (g : Fin 8) (high : Bool), ((s.on (R.TIM_GRP_STAT_GATE_OPEN g.val) = false ∨ ((s.group g.val).endAt = none ∧ (s.gateMode g.val = 2 ∧ high = s.on (R.TIM_GRP_CFG_POL g.val) ∨ s.gateMode g.val ≠ 2 ∧ s.gateMode g.val ≠ 3 ∧ high ≠ s.on (R.TIM_GRP_CFG_POL g.val)))))) ∧
    (∃ (s : State) (g : Fin 8) (at_ : Nat), (s.on (R.TIM_GRP_STAT_GATE_OPEN g.val) = true) ∧ (s.gateMode g.val ≠ 3) ∧ ((s.group g.val).endAt = some at_)) ∧
    (∃ (s : State) (g : Fin 8) (high : Bool), (s.on (R.TIM_GRP_STAT_GATE_OPEN g.val) = true) ∧ (s.gateMode g.val ≠ 3) ∧ ((s.group g.val).endAt = none) ∧ ((high ≠ s.on (R.TIM_GRP_CFG_POL g.val) ↔ s.gateMode g.val = 2))) ∧
    (∃ (s : State) (g : Fin 8), (s.on (R.TIM_GRP_STAT_GATE_OPEN g.val) = true) ∧ (s.gateMode g.val = 3)) ∧
    (∃ (s : State) (g : Fin 9) (hits : List Nat), (bit (s.rd R.TIM_STAT_NO_SPARE) g.val = false) ∧ ((s.group g.val).nap = false) ∧ (hits.length = 64) ∧ (∀ n ∈ hits, 4096 ≤ n ∧ n ≤ 40960)) ∧
    (∃ (s : State) (g : Fin 9) (hits : List Nat), (bit (s.rd R.TIM_STAT_NO_SPARE) g.val = false) ∧ ((s.group g.val).nap = false) ∧ (hits.length = 64) ∧ (∃ n ∈ hits, n < 4096 ∨ 40960 < n) ∧ ((s.group g.val).fails < 2)) ∧
    (∃ (s : State) (g : Fin 9) (hits : List Nat), (bit (s.rd R.TIM_STAT_NO_SPARE) g.val = false) ∧ ((s.group g.val).nap = false) ∧ (hits.length = 64) ∧ (∃ n ∈ hits, n < 4096 ∨ 40960 < n) ∧ ((s.group g.val).fails = 2)) ∧
    (∃ (s : State) (g : Fin 9), (bit (s.rd R.TIM_STAT_NO_SPARE) g.val = true ∨ (s.group g.val).nap = true)) ∧
    (∃ (s : State) (g : Fin 9) (c : Nat), ∃ due, due = ((s.group g.val).handAt + sec16 (s.rd R.TIM_CTL_ROT_STEP)) ∧ ((bit (s.rd R.TIM_STAT_NO_SPARE) g.val = false) ∧ ((s.group g.val).nap = false) ∧ ((s.group g.val).fresh = true) ∧ (bit (s.rd R.TIM_STAT_CAL_BUSY) g.val = false) ∧ (s.rd R.TIM_CTL_ROT_STEP ≠ 0) ∧ ((∀ d ∈ groupChans g.val, d < 64 → s.on (R.TIM_CH_STAT_HO_WAIT d) = false)) ∧ ((s.waitClk due).oldest g.val = some c) ∧ ((s.waitClk due).pairHolds c = false) ∧ ((s.group g.val).rotLeft ≠ 1))) ∧
    (∃ (s : State) (g : Fin 9) (c : Nat), ∃ due, due = ((s.group g.val).handAt + sec16 (s.rd R.TIM_CTL_ROT_STEP)) ∧ ((bit (s.rd R.TIM_STAT_NO_SPARE) g.val = false) ∧ ((s.group g.val).nap = false) ∧ ((s.group g.val).fresh = true) ∧ (bit (s.rd R.TIM_STAT_CAL_BUSY) g.val = false) ∧ (s.rd R.TIM_CTL_ROT_STEP ≠ 0) ∧ ((∀ d ∈ groupChans g.val, d < 64 → s.on (R.TIM_CH_STAT_HO_WAIT d) = false)) ∧ ((s.waitClk due).oldest g.val = some c) ∧ ((s.waitClk due).pairHolds c = true))) ∧
    (∃ (s : State) (g : Fin 9), (bit (s.rd R.TIM_STAT_NO_SPARE) g.val = true ∨ (s.group g.val).nap = true ∨ (s.group g.val).fresh = false)) ∧
    (∃ (s : State), (s.rd R.TIM_STAT_CAL_BUSY = 0)) ∧
    (∃ (s : State), (s.rd R.TIM_STAT_CAL_BUSY ≠ 0)) ∧
    (∃ (s : State) (g : Fin 8), ((s.group g.val).nap = false)) ∧
    (∃ (s : State) (g : Fin 8), ((s.group g.val).nap = true) ∧ (∀ c ∈ groupChans g.val, (s.chan c).pendArm = false) ∧ (∀ o : Fin 4, (s.pout (g.val * 4 + o.val)).pendGo = false)) ∧
    (∃ (s : State) (g : Fin 8) (c : Fin 64), ((s.group g.val).nap = true) ∧ (groupOf c.val = g.val) ∧ ((s.chan c.val).pendArm = true) ∧ (∀ d ∈ groupChans g.val, d ≠ c.val → (s.chan d).pendArm = false) ∧ (∀ o : Fin 4, (s.pout (g.val * 4 + o.val)).pendGo = false) ∧ (s.paired c.val = false) ∧ (s.on (R.TIM_CH_CFG_GATED c.val) = false)) ∧
    (∃ (s : State) (g : Fin 8) (c : Fin 64), ((s.group g.val).nap = true) ∧ (groupOf c.val = g.val) ∧ (c.val % 2 = 0) ∧ ((s.chan c.val).pendArm = true) ∧ ((s.chan (c.val + 1)).pendArm = true) ∧ ((∀ d ∈ groupChans g.val, d ≠ c.val → d ≠ c.val + 1 → (s.chan d).pendArm = false)) ∧ ((∀ o : Fin 4, (s.pout (g.val * 4 + o.val)).pendGo = false)) ∧ (s.paired c.val = true) ∧ (s.chState (c.val + 1) = 0) ∧ (s.chState c.val = 0) ∧ (s.on (R.TIM_CH_STAT_ASSIGNED (c.val + 1)) = false) ∧ (s.on (R.TIM_CH_CFG_GATED c.val) = false)) :=
  ⟨⟨z.hi (R.TIM_GRP_STAT_GATE_OPEN 2), 2, true, by decide⟩,
    ⟨(z.wr (R.TIM_GRP_CFG_GATE_MODE 2) 1), 2, true, by decide⟩,
    ⟨(z.wr (R.TIM_GRP_CFG_GATE_MODE 2) 2).modGroup 2 (fun k => { k with gateUsed := true }), 2, by decide⟩,
    ⟨(z.wr (R.TIM_GRP_CFG_GATE_MODE 2) 3).hi (R.TIM_GRP_STAT_WAITING 2), 2, by decide⟩,
    ⟨z, 2, false, by decide⟩,
    ⟨((z.wr (R.TIM_GRP_CFG_GATE_MODE 2) 2).hi (R.TIM_GRP_STAT_GATE_OPEN 2)).modGroup 2 (fun k => { k with endAt := some 77 }), 2, 77, by decide⟩,
    ⟨(z.wr (R.TIM_GRP_CFG_GATE_MODE 2) 1).hi (R.TIM_GRP_STAT_GATE_OPEN 2), 2, false, by decide⟩,
    ⟨(z.wr (R.TIM_GRP_CFG_GATE_MODE 2) 3).hi (R.TIM_GRP_STAT_GATE_OPEN 2), 2, by decide⟩,
    ⟨z, 8, (List.replicate 64 16384), by decide⟩,
    ⟨z, 3, (List.replicate 64 4095), by decide⟩,
    ⟨z.modGroup 3 (fun k => { k with fails := 2 }), 3, (List.replicate 64 40961), by decide⟩,
    ⟨z.wr R.TIM_STAT_NO_SPARE 8, 3, by decide⟩,
    ⟨(z.wr R.TIM_CTL_ROT_STEP 300).modGroup 3 (fun k => { k with fresh := true, rotLeft := 5 }), 3, 24, _, rfl, by decide⟩,
    ⟨((z.wr R.TIM_CTL_ROT_STEP 300).modGroup 3 (fun k => { k with fresh := true })).modChan 24 (fun k => { k with open_ := some (false, { c := 100, pos := 5000, width := 1024, bin := 3, unit := 1, t := 1000 * 2 ^ 48, fall := false }) }), 3, 24, _, rfl, by decide⟩,
    ⟨z, 3, by decide⟩,
    ⟨z, by decide⟩,
    ⟨z.wr R.TIM_STAT_CAL_BUSY 1, by decide⟩,
    ⟨z, 3, by decide⟩,
    ⟨z.modGroup 3 (fun k => { k with nap := true }), 3, by decide⟩,
    ⟨(z.modGroup 3 (fun k => { k with nap := true })).modChan 25 (fun k => { k with pendArm := true }), 3, 25, by decide⟩,
    ⟨((z.wr (R.TIM_CH_CFG_MODE 4) 1).modGroup 0 (fun k => { k with nap := true })).modChan 4 (fun k => { k with pendArm := true }) |>.modChan 5 (fun k => { k with pendArm := true }), 0, 4, by decide⟩⟩

/-- The hypotheses of `Obligations.PulseOutputs`, case by case, are met. -/
theorem witness_PulseOutputs :
    (∃ (s : State) (o : Fin 32) (w : Word), ((R.PLS_CTL_STOP o.val).of w.toNat = 0) ∧ ((s.group (o.val / 4)).nap = false) ∧ (s.goStatus o.val = 0)) ∧
    (∃ (s : State) (o : Fin 32) (w : Word), ((R.PLS_CTL_STOP o.val).of w.toNat = 0) ∧ ((s.group (o.val / 4)).nap = false) ∧ (s.goStatus o.val ≠ 0)) ∧
    (∃ (s : State) (o : Fin 32) (w : Word), ((R.PLS_CTL_STOP o.val).of w.toNat = 0) ∧ ((s.group (o.val / 4)).nap = true)) ∧
    (∃ (s : State) (o : Fin 32), (s.rd (R.PLS_STAT_STATE o.val) = 1)) ∧
    (∃ (s : State) (o : Fin 32), (s.rd (R.PLS_STAT_STATE o.val) ≠ 1)) ∧
    (∃ (s : State) (o : Fin 32), (s.rd (R.PLS_STAT_STATE o.val) ≠ 1)) ∧
    (∃ (s : State) (o : Fin 32) (k : Nat), ∃ p, p = ((s.pout o.val).sched) ∧ ∃ q, q = (s.advance ((s.commitIn o.val (p.inst k) p.ts1).getD 0)) ∧ ∃ c, c = (if bit (s.rd (R.PLS_CFG_MASK o.val)) (s.outEng p.ts1) = false then 3 else if q.launchPos o.val (p.inst k) p.ts1 < (s.pout o.val).busyPos then 2 else 0) ∧ ((s.rd (R.PLS_STAT_STATE o.val) = 1) ∧ ((s.pout o.val).toIdle = false) ∧ (s.rd (R.PLS_LEFT_LEFT o.val) = 0xFFFFFFFF ∨ (s.pout o.val).ownCommits < s.rd (R.PLS_LEFT_LEFT o.val)) ∧ ((s.pout o.val).skip (s.pout o.val).next = some k) ∧ ((s.commitIn o.val (p.inst k) p.ts1).isSome = true) ∧ (c ≠ 0) ∧ (p.per ≠ 0))) ∧
    (∃ (s : State) (o : Fin 32) (k : Nat), ((s.pout o.val).skip (s.pout o.val).next = some k) ∧ (s.commitIn o.val ((s.pout o.val).sched.inst k) (s.pout o.val).sched.ts1 = none)) ∧
    (∃ (s : State) (o : Fin 32), ((s.pout o.val).commits = [])) ∧
    (∃ (s : State) (o : Fin 32) (e : PulseEdge) (rest : List PulseEdge), ((s.pout o.val).commits = e :: rest)) ∧
    (∃ (s : State) (o : Fin 32), ((s.pout o.val).endPos = none)) ∧
    (∃ (s : State) (o : Fin 32) (p : Nat), ((s.pout o.val).endPos = some p) ∧ ((s.pout o.val).toIdle = false)) ∧
    (∃ (s : State) (o : Fin 32) (p : Nat), ((s.pout o.val).endPos = some p) ∧ ((s.pout o.val).toIdle = true) ∧ ((s.pout o.val).commits = [])) :=
  ⟨⟨((((z.wr (R.PLS_T0_SEC_LO_SEC 5) 2000000000).wr (R.PLS_PER_SEC_SEC 5) 1).wr (R.PLS_WIDTH_C_COARSE 5) 250000000).wr (R.PLS_COUNT_COUNT 5) 7), 5, 0, by decide⟩,
    ⟨z, 5, 0, by decide⟩,
    ⟨z.modGroup 1 (fun k => { k with nap := true }), 5, 0, by decide⟩,
    ⟨(((z.wr (R.PLS_STAT_STATE 5) 1).wr R.PLS_ACTIVE_ARMED 32).wr (R.PLS_LEFT_LEFT 5) 3), 5, by decide⟩,
    ⟨z, 5, by decide⟩,
    ⟨z, 5, by decide⟩,
    ⟨((z.wr (R.PLS_CFG_MASK 5) 0).wr (R.PLS_STAT_STATE 5) 1).wr (R.PLS_LEFT_LEFT 5) 1 |>.modOut 5 (fun q => { q with sched := { ts1 := false, t0 := 2000000000 * 65536000000000, per := 65536000000000, width := 16000000000 } }), 5, 0, _, rfl, _, rfl, _, rfl, by decide +kernel⟩,
    ⟨((z.hi (R.TSC_STEP_CTL_PENDING 0)).wr (R.PLS_STAT_STATE 5) 1).wr (R.PLS_LEFT_LEFT 5) 1 |>.modOut 5 (fun q => { q with sched := { ts1 := false, t0 := 2000000000 * 65536000000000, per := 65536000000000, width := 16000000000 } }), 5, 0, by decide +kernel⟩,
    ⟨z, 5, by decide⟩,
    ⟨(((z.wr (R.PLS_STAT_STATE 5) 1).wr R.PLS_ACTIVE_ARMED 32).wr (R.PLS_LEFT_LEFT 5) 3).modOut 5 (fun q => { q with commits := [{ inst := 99, pos := 1000, width := 5000, ts1 := false, eng := 3, old := false }] }), 5, ({ inst := 99, pos := 1000, width := 5000, ts1 := false, eng := 3, old := false }), [], by decide⟩,
    ⟨z, 5, by decide⟩,
    ⟨(((z.wr (R.PLS_STAT_STATE 5) 1).wr R.PLS_ACTIVE_ARMED 32).wr (R.PLS_LEFT_LEFT 5) 0).modOut 5 (fun q => { q with endPos := some 4000 }), 5, 4000, by decide⟩,
    ⟨(((z.wr (R.PLS_STAT_STATE 5) 1).wr R.PLS_ACTIVE_ARMED 32).wr (R.PLS_LEFT_LEFT 5) 0).modOut 5 (fun q => { q with endPos := some 4000, toIdle := true }), 5, 4000, by decide⟩⟩

/-- The hypotheses of `Obligations.PortLinks`, case by case, are met. -/
theorem witness_PortLinks :
    (∃ (s : State) (p : Fin 32), (s.dieAnswers (p.val / 8) = false)) ∧
    (∃ (s : State) (p : Fin 32), (s.dieAnswers (p.val / 8) = false)) ∧
    (∃ (s : State) (p : Fin 32) (w : Word), (s.rd (R.MAC_STAT_STATE p.val) ≠ 3) ∧ (fecAllowed ((R.MAC_CFG_MODE p.val).of w.toNat) ((R.MAC_CFG_FEC p.val).of w.toNat) = true) ∧ ((R.MAC_CFG_MODE p.val).of w.toNat < 9) ∧ (((R.MAC_CFG_EN p.val).of w.toNat = 0 ∨ s.badAddr p.val = false)) ∧ (s.dieAnswers (p.val / 8) = true)) ∧
    (∃ (s : State) (p : Fin 32) (w : Word), (s.rd (R.MAC_STAT_STATE p.val) ≠ 3) ∧ ((9 ≤ (R.MAC_CFG_MODE p.val).of w.toNat ∨ fecAllowed ((R.MAC_CFG_MODE p.val).of w.toNat) ((R.MAC_CFG_FEC p.val).of w.toNat) = false)) ∧ (s.dieAnswers (p.val / 8) = true)) ∧
    (∃ (s : State) (p : Fin 32) (w : Word), (s.rd (R.MAC_STAT_STATE p.val) = 3) ∧ (¬ (s.rd (R.MAC_CFG_EN p.val) = (R.MAC_CFG_EN p.val).of w.toNat ∧ s.rd (R.MAC_CFG_MODE p.val) = (R.MAC_CFG_MODE p.val).of w.toNat ∧ s.rd (R.MAC_CFG_FEC p.val) = (R.MAC_CFG_FEC p.val).of w.toNat ∧ s.rd (R.MAC_CFG_AN_EN p.val) = (R.MAC_CFG_AN_EN p.val).of w.toNat)) ∧ (s.dieAnswers (p.val / 8) = true)) ∧
    (∃ (s : State) (p : Fin 32) (lo : Nat), (s.rd (R.MAC_STAT_STATE p.val) ≠ 3) ∧ ((s.port p.val).stagedLo = some lo) ∧ (s.badMode p.val = false) ∧ (s.dieAnswers (p.val / 8) = true)) ∧
    (∃ (s : State) (p : Fin 32), (s.rd (R.MAC_STAT_STATE p.val) ≠ 3) ∧ ((s.port p.val).stagedLo = none) ∧ (s.badMode p.val = false) ∧ (s.dieAnswers (p.val / 8) = true)) ∧
    (∃ (s : State) (p : Fin 32), (s.rd (R.MAC_STAT_STATE p.val) = 0) ∧ (s.inTest = false) ∧ (s.on (R.MAC_CFG_EN p.val) = true) ∧ (s.on (R.MAC_STAT_CFG_ERR p.val) = false) ∧ ((s.port p.val).parked = false)) ∧
    (∃ (s : State) (p : Fin 32), (s.on (R.MAC_CFG_EN p.val) = false ∨ s.on (R.MAC_STAT_CFG_ERR p.val) = true ∨ s.rd (R.MAC_STAT_STATE p.val) ≠ 0)) ∧
    (∃ (s : State) (l : Fin 2), (s.morState l.val = 0) ∧ (s.inTest = false) ∧ (s.on R.MOR_CTL_EN = true) ∧ (s.on (R.MOR_LINK_CFG_EN l.val) = true) ∧ (s.fabric ≠ 3)) ∧
    (∃ (s : State) (p : Fin 32) (fec : Fin 4), ∃ f, f = (if s.anRuns p.val then fec.val else s.rd (R.MAC_CFG_FEC p.val)) ∧ ((s.rd (R.MAC_STAT_STATE p.val) = 1) ∧ (fecAllowed (s.rd (R.MAC_CFG_MODE p.val)) f = true))) ∧
    (∃ (s : State) (p : Fin 32) (rmsRx : Nat) (rmsTx : Nat), (s.rd (R.MAC_STAT_STATE p.val) = 2) ∧ (rmsRx ≤ 4000) ∧ (rmsTx ≤ 4000)) ∧
    (∃ (s : State) (p : Fin 32) (rmsRx : Nat) (rmsTx : Nat), (s.rd (R.MAC_STAT_STATE p.val) = 2) ∧ (4000 < rmsRx ∨ 4000 < rmsTx) ∧ (s.rd (R.MAC_STAT_CAL_TRIES p.val) < 2)) ∧
    (∃ (s : State) (p : Fin 32) (rmsRx : Nat) (rmsTx : Nat), (s.rd (R.MAC_STAT_STATE p.val) = 2) ∧ (4000 < rmsRx ∨ 4000 < rmsTx) ∧ (s.rd (R.MAC_STAT_CAL_TRIES p.val) = 2)) ∧
    (∃ (s : State) (p : Fin 32), (s.rd (R.MAC_STAT_STATE p.val) = 3)) ∧
    (∃ (s : State) (p : Fin 32), (s.rd (R.MAC_STAT_STATE p.val) = 2)) ∧
    (∃ (s : State) (p : Fin 32), (s.rd (R.MAC_STAT_STATE p.val) < 2)) ∧
    (∃ (s : State) (p : Fin 32), (s.rd (R.MAC_STAT_VERIFY p.val) = 1) ∧ ((s.port p.val).verifySent < 3) ∧ ((s.port p.val).flight = none)) ∧
    (∃ (s : State) (p : Fin 32), (s.rd (R.MAC_STAT_VERIFY p.val) = 1) ∧ (3 ≤ (s.port p.val).verifySent)) ∧
    (∃ (s : State) (p : Fin 32), (s.rd (R.MAC_STAT_VERIFY p.val) = 1)) ∧
    (∃ (s : State) (p : Fin 32), (s.rd (R.MAC_STAT_VERIFY p.val) ≠ 1)) :=
  ⟨⟨z, 17, by decide⟩,
    ⟨z, 17, by decide⟩,
    ⟨(z.wr (R.TSC_LANE_STAT_STATE 2) 2), 17, 0x60, by decide⟩,
    ⟨(z.wr (R.TSC_LANE_STAT_STATE 2) 2), 17, 0x73, by decide⟩,
    ⟨(z.wr (R.TSC_LANE_STAT_STATE 2) 2).wr (R.MAC_STAT_STATE 17) 3, 17, 0x61, by decide⟩,
    ⟨(z.wr (R.TSC_LANE_STAT_STATE 2) 2).modPort 17 (fun k => { k with stagedLo := some 7 }), 17, 7, by decide⟩,
    ⟨(z.wr (R.TSC_LANE_STAT_STATE 2) 2), 17, by decide⟩,
    ⟨z.hi (R.MAC_CFG_EN 17), 17, by decide⟩,
    ⟨z, 17, by decide⟩,
    ⟨((z.hi R.MOR_CTL_EN).hi (R.MOR_LINK_CFG_EN 1)).wr (R.MOR_LINK_STAT_STATE 1) 0, 1, by decide⟩,
    ⟨(z.wr (R.MAC_STAT_STATE 17) 1).hi (R.MAC_STAT_CAL_WEAK 17), 17, 3, _, rfl, by decide⟩,
    ⟨(z.wr (R.MAC_STAT_STATE 17) 2), 17, 4000, 3999, by decide⟩,
    ⟨(z.wr (R.MAC_STAT_STATE 17) 2), 17, 4001, 3999, by decide⟩,
    ⟨(z.wr (R.MAC_STAT_STATE 17) 2).wr (R.MAC_STAT_CAL_TRIES 17) 2, 17, 4001, 3999, by decide⟩,
    ⟨(z.wr (R.MAC_STAT_STATE 17) 3), 17, by decide⟩,
    ⟨(z.wr (R.MAC_STAT_STATE 17) 2), 17, by decide⟩,
    ⟨z, 17, by decide⟩,
    ⟨z.wr (R.MAC_STAT_VERIFY 17) 1, 17, by decide⟩,
    ⟨(z.wr (R.MAC_STAT_VERIFY 17) 1).modPort 17 (fun k => { k with verifySent := 3 }), 17, by decide⟩,
    ⟨z.wr (R.MAC_STAT_VERIFY 17) 1, 17, by decide⟩,
    ⟨z, 17, by decide⟩⟩

/-- The hypotheses of `Obligations.PortReceive`, case by case, are met. -/
theorem witness_PortReceive :
    (∃ (s : State) (p : Fin 32) (f : RxFrame), ((s.port p.val).flight = none ∧ (s.port p.val).leaving = [] ∧ s.pauseHeld p.val = false) ∧ (s.rd (R.MAC_STAT_STATE p.val) = 0) ∧ ((s.port p.val).outAt ≤ s.clk - f.back)) ∧
    (∃ (s : State) (p : Fin 32) (f : RxFrame), ((s.port p.val).flight = none ∧ (s.port p.val).leaving = [] ∧ s.pauseHeld p.val = false) ∧ (s.rd (R.MAC_STAT_STATE p.val) ≠ 0) ∧ (s.rd (R.MAC_STAT_STATE p.val) ≠ 3) ∧ ((s.port p.val).outAt ≤ s.clk - f.back)) ∧
    (∃ (s : State) (p : Fin 32) (f : RxFrame), ((s.port p.val).flight = none ∧ (s.port p.val).leaving = [] ∧ s.pauseHeld p.val = false) ∧ (s.rd (R.MAC_STAT_STATE p.val) ≠ 3) ∧ (s.clk - f.back < (s.port p.val).outAt)) ∧
    (∃ (s : State) (p : Fin 32) (f : RxFrame) (c : Nat), ((s.port p.val).flight = none ∧ (s.port p.val).leaving = [] ∧ s.pauseHeld p.val = false) ∧ (s.rd (R.MAC_STAT_STATE p.val) = 3) ∧ (s.rd (R.MAC_STAT_PRE_ACTIVE p.val) = 1) ∧ ((s.port p.val).asm = none) ∧ (smdStarts.findIdx? (· = f.smd.toNat) = some c) ∧ (s.rxHeld p.val + f.backlog + f.bytes.length ≤ 131072) ∧ (mcrcOk [] (natBytes f.bytes) = true)) ∧
    (∃ (s : State) (p : Fin 32) (f : RxFrame) (c : Nat) (o : OpenFrame), ((s.port p.val).flight = none ∧ (s.port p.val).leaving = [] ∧ s.pauseHeld p.val = false) ∧ (s.rd (R.MAC_STAT_STATE p.val) = 3) ∧ (s.rd (R.MAC_STAT_PRE_ACTIVE p.val) = 1) ∧ ((s.port p.val).asm = some o) ∧ (smdStarts.findIdx? (· = f.smd.toNat) = none) ∧ (smdConts.findIdx? (· = f.smd.toNat) = some c) ∧ (s.rxHeld p.val + f.backlog + f.bytes.length ≤ 131072) ∧ (o.count = c) ∧ (fragCounts.getD ((o.frags - 1) % 4) 0 = f.frag.toNat) ∧ (mcrcOk o.bytes (natBytes f.bytes) = true)) ∧
    (∃ (s : State) (p : Fin 32) (f : RxFrame) (c : Nat), ((s.port p.val).flight = none ∧ (s.port p.val).leaving = [] ∧ s.pauseHeld p.val = false) ∧ (s.rd (R.MAC_STAT_STATE p.val) = 3) ∧ (s.rd (R.MAC_STAT_PRE_ACTIVE p.val) = 1) ∧ (smdStarts.findIdx? (· = f.smd.toNat) = none) ∧ (smdConts.findIdx? (· = f.smd.toNat) = some c) ∧ (s.rxHeld p.val + f.backlog + f.bytes.length ≤ 131072) ∧ ((∀ o, (s.port p.val).asm = some o → o.count ≠ c ∨ fragCounts.getD ((o.frags - 1) % 4) 0 ≠ f.frag.toNat))) ∧
    (∃ (s : State) (p : Fin 32) (f : RxFrame), ((s.port p.val).flight = none ∧ (s.port p.val).leaving = [] ∧ s.pauseHeld p.val = false) ∧ (s.rd (R.MAC_STAT_STATE p.val) = 3) ∧ (f.smd.toNat ∉ [0xD5, 0x07, 0x19]) ∧ ((s.rd (R.MAC_STAT_PRE_ACTIVE p.val) ≠ 1 ∨ (f.smd.toNat ∉ smdStarts ∧ f.smd.toNat ∉ smdConts)))) ∧
    (∃ (s : State) (p : Fin 32) (f : RxFrame), ((s.port p.val).flight = none ∧ (s.port p.val).leaving = [] ∧ s.pauseHeld p.val = false) ∧ (s.rd (R.MAC_STAT_STATE p.val) = 3) ∧ (natBytes f.bytes = verifyBody ++ le 4 (mcrc verifyBody)) ∧ (f.smd = 0x07) ∧ (bit (s.port p.val).preCfg 0 = true)) ∧
    (∃ (s : State) (p : Fin 32) (f : RxFrame), ((s.port p.val).flight = none ∧ (s.port p.val).leaving = [] ∧ s.pauseHeld p.val = false) ∧ (s.rd (R.MAC_STAT_STATE p.val) = 3) ∧ (natBytes f.bytes = verifyBody ++ le 4 (mcrc verifyBody)) ∧ (f.smd = 0x19) ∧ (s.rd (R.MAC_STAT_VERIFY p.val) = 1)) ∧
    (∃ (s : State) (p : Fin 32) (f : RxFrame), ((s.port p.val).flight = none ∧ (s.port p.val).leaving = [] ∧ s.pauseHeld p.val = false) ∧ (s.rd (R.MAC_STAT_STATE p.val) = 3) ∧ (f.smd = 0xD5) ∧ (131072 < s.rxHeld p.val + f.backlog + f.bytes.length)) ∧
    (∃ (s : State) (p : Fin 32) (f : RxFrame) (c : Nat), ((s.port p.val).flight = none ∧ (s.port p.val).leaving = [] ∧ s.pauseHeld p.val = false) ∧ (s.rd (R.MAC_STAT_STATE p.val) = 3) ∧ (f.smd = 0xD5) ∧ (s.rxHeld p.val + f.backlog + f.bytes.length ≤ 131072) ∧ (f.fecOut = false) ∧ (rxCheck f.codeErr (max 64 (min 9216 (s.rd (R.MAC_RX_CFG_MAX_LEN p.val)))) (natBytes f.bytes) = some c) ∧ (c ≠ 31)) ∧
    (∃ (s : State) (p : Fin 32) (f : RxFrame), ∃ e, e = (Eth.parse ((natBytes f.bytes).take ((natBytes f.bytes).length - 4))) ∧ (((s.port p.val).flight = none ∧ (s.port p.val).leaving = [] ∧ s.pauseHeld p.val = false) ∧ (s.rd (R.MAC_STAT_STATE p.val) = 3) ∧ (f.smd = 0xD5) ∧ (s.rxHeld p.val + f.backlog + f.bytes.length ≤ 131072) ∧ (f.fecOut = false) ∧ (rxCheck f.codeErr (max 64 (min 9216 (s.rd (R.MAC_RX_CFG_MAX_LEN p.val)))) (natBytes f.bytes) = none) ∧ (e.etype = 0x8808) ∧ (e.dst = macControl) ∧ (beAt e.bytes e.l3 2 = 1) ∧ (s.rd (R.MAC_PAUSE_CFG_MODE p.val) = 1))) ∧
    (∃ (s : State) (p : Fin 32) (f : RxFrame), ∃ e, e = (Eth.parse ((natBytes f.bytes).take ((natBytes f.bytes).length - 4))) ∧ (((s.port p.val).flight = none ∧ (s.port p.val).leaving = [] ∧ s.pauseHeld p.val = false) ∧ (s.rd (R.MAC_STAT_STATE p.val) = 3) ∧ (f.smd = 0xD5) ∧ (s.rxHeld p.val + f.backlog + f.bytes.length ≤ 131072) ∧ (f.fecOut = false) ∧ (rxCheck f.codeErr (max 64 (min 9216 (s.rd (R.MAC_RX_CFG_MAX_LEN p.val)))) (natBytes f.bytes) = none) ∧ (s.macAccepts p.val (s.clk - f.back) e = false) ∧ (s.on (R.MAC_RX_CFG_PROMISC p.val) = false))) ∧
    (∃ (s : State) (p : Fin 32), ((s.port p.val).flight = none ∧ (s.port p.val).leaving = [] ∧ s.pauseHeld p.val = false) ∧ ((s.port p.val).fec = [])) ∧
    (∃ (s : State) (p : Fin 32) (w : FecWait) (rest : List FecWait), ((s.port p.val).flight = none ∧ (s.port p.val).leaving = [] ∧ s.pauseHeld p.val = false) ∧ ((s.port p.val).fec = w :: rest)) ∧
    (∃ (s : State) (b : StatBlock) (i : Fin 64), ((∀ p : Fin 32, (s.port p.val).flight = none ∧ (s.port p.val).leaving = [] ∧ s.pauseHeld p.val = false)) ∧ (s.dieAnswers (statDie b) = true) ∧ (i.val < statSize b)) ∧
    (∃ (s : State) (b : StatBlock), (s.dieAnswers (statDie b) = false)) ∧
    (∃ (s : State) (p : Fin 32) (w : Word), ∃ i, i = ((R.MAC_SVC_CMD_IDX p.val).of w.toNat) ∧ ((s.dieAnswers (p.val / 8) = true) ∧ ((R.MAC_SVC_CMD_READ p.val).of w.toNat = 0) ∧ (s.svcTwice p.val i (svcEntry (s.svcData p.val)) = false) ∧ ((∀ k : Fin 4, s.on (R.PTP_INST_CFG_EN (p.val * 4 + k.val)) = false ∨ s.rd (R.PTP_INST_CFG_SVC (p.val * 4 + k.val)) ≠ i)))) ∧
    (∃ (s : State) (p : Fin 32) (w : Word), ∃ i, i = ((R.MAC_SVC_CMD_IDX p.val).of w.toNat) ∧ ((s.dieAnswers (p.val / 8) = true) ∧ ((R.MAC_SVC_CMD_READ p.val).of w.toNat = 0) ∧ (s.svcTwice p.val i (svcEntry (s.svcData p.val)) = true))) ∧
    (∃ (s : State) (p : Fin 32) (w : Word), (s.dieAnswers (p.val / 8) = true) ∧ ((R.MAC_SVC_CMD_WRITE p.val).of w.toNat = 0)) ∧
    (∃ (s : State) (p : Fin 32) (w : Word), (s.dieAnswers (p.val / 8) = true) ∧ ((R.MAC_SVC_CMD_WRITE p.val).of w.toNat = 1) ∧ ((R.MAC_SVC_CMD_READ p.val).of w.toNat = 1)) ∧
    (∃ (s : State) (p : Fin 32), (s.dieAnswers (p.val / 8) = false)) ∧
    (∃ (s : State) (p : Fin 32) (rem : Bool), ∃ f, f = (if rem then R.MAC_STAT_REM_FAULT p.val else R.MAC_STAT_LOC_FAULT p.val) ∧ (((s.port p.val).flight = none ∧ (s.port p.val).leaving = [] ∧ s.pauseHeld p.val = false) ∧ (s.on f = false) ∧ ((∀ q : Fin 8, s.txq p.val q.val = [])))) ∧
    (∃ (s : State) (p : Fin 32) (rem : Bool), ∃ f, f = (if rem then R.MAC_STAT_REM_FAULT p.val else R.MAC_STAT_LOC_FAULT p.val) ∧ (((s.port p.val).flight = none ∧ (s.port p.val).leaving = [] ∧ s.pauseHeld p.val = false) ∧ (s.on f = false))) ∧
    (∃ (s : State) (p : Fin 32) (rem : Bool), ∃ f, f = (if rem then R.MAC_STAT_REM_FAULT p.val else R.MAC_STAT_LOC_FAULT p.val) ∧ ((s.on f = true))) ∧
    (∃ (s : State) (p : Fin 32), ((s.port p.val).flight = none ∧ (s.port p.val).leaving = [] ∧ s.pauseHeld p.val = false)) ∧
    (∃ (s : State) (p : Fin 32), (s.rd (R.MAC_STAT_STATE p.val) ≠ 3) ∧ ((∀ q : Fin 8, ∀ x ∈ s.txq p.val q.val, ∃ e, x.kind = .still e)) ∧ ((s.port p.val).flight = none) ∧ ((∀ q : Fin 8, s.paused p.val q.val = false))) ∧
    (∃ (s : State) (p : Fin 32), (s.rd (R.MAC_STAT_STATE p.val) ≠ 3)) ∧
    (∃ (s : State) (p : Fin 32), (s.rd (R.MAC_STAT_STATE p.val) = 3)) :=
  ⟨⟨z, 17, ({ smd := 0xD5, frag := 0, bytes := List.replicate 64 0, back := 0, codeErr := false, backlog := 0, fecOut := false } : RxFrame), by decide⟩,
    ⟨z.wr (R.MAC_STAT_STATE 17) 2, 17, ({ smd := 0xD5, frag := 0, bytes := List.replicate 64 0, back := 0, codeErr := false, backlog := 0, fecOut := false } : RxFrame), by decide⟩,
    ⟨z.modPort 17 (fun k => { k with outAt := 10 ^ 30 }), 17, ({ smd := 0xD5, frag := 0, bytes := List.replicate 64 0, back := 0, codeErr := false, backlog := 0, fecOut := false } : RxFrame), by decide⟩,
    ⟨((z.wr (R.MAC_STAT_STATE 17) 3).hi (R.MAC_STAT_PRE_ACTIVE 17)), 17, ({ smd := 0x4C, frag := 0, bytes := (List.replicate 60 1 ++ le 4 (mcrc (List.replicate 60 1))).map (BitVec.ofNat 8), back := 0, codeErr := false, backlog := 0, fecOut := false } : RxFrame), 1, by decide⟩,
    ⟨((z.wr (R.MAC_STAT_STATE 17) 3).hi (R.MAC_STAT_PRE_ACTIVE 17)).modPort 17 (fun k => { k with asm := some { count := 1, frags := 1, bytes := List.replicate 64 1 } }), 17, ({ smd := 0x52, frag := 0xE6, bytes := (List.replicate 60 2 ++ le 4 (mcrc (List.replicate 64 1 ++ List.replicate 60 2))).map (BitVec.ofNat 8), back := 0, codeErr := false, backlog := 0, fecOut := false } : RxFrame), 1, { count := 1, frags := 1, bytes := List.replicate 64 1 }, by decide⟩,
    ⟨((z.wr (R.MAC_STAT_STATE 17) 3).hi (R.MAC_STAT_PRE_ACTIVE 17)).modPort 17 (fun k => { k with asm := some { count := 1, frags := 1, bytes := List.replicate 64 1 } }), 17, ({ smd := 0x9E, frag := 0xE6, bytes := List.replicate 64 0, back := 0, codeErr := false, backlog := 0, fecOut := false } : RxFrame), 2, by decide, by decide, by decide, by decide, by decide, by decide,
      fun o h => by cases h; exact Or.inl (by decide)⟩,
    ⟨(z.wr (R.MAC_STAT_STATE 17) 3), 17, ({ smd := 0xE6, frag := 0, bytes := List.replicate 64 0, back := 0, codeErr := false, backlog := 0, fecOut := false } : RxFrame), by decide⟩,
    ⟨(z.wr (R.MAC_STAT_STATE 17) 3).modPort 17 (fun k => { k with preCfg := 1 }), 17, ({ smd := 0x07, frag := 0, bytes := (verifyBody ++ le 4 (mcrc verifyBody)).map (BitVec.ofNat 8), back := 0, codeErr := false, backlog := 0, fecOut := false } : RxFrame), by decide⟩,
    ⟨(z.wr (R.MAC_STAT_STATE 17) 3).wr (R.MAC_STAT_VERIFY 17) 1, 17, ({ smd := 0x19, frag := 0, bytes := (verifyBody ++ le 4 (mcrc verifyBody)).map (BitVec.ofNat 8), back := 0, codeErr := false, backlog := 0, fecOut := false } : RxFrame), by decide⟩,
    ⟨(z.wr (R.MAC_STAT_STATE 17) 3), 17, ({ smd := 0xD5, frag := 0, bytes := List.replicate 64 0, back := 0, codeErr := false, backlog := 131010, fecOut := false } : RxFrame), by decide⟩,
    ⟨(z.wr (R.MAC_STAT_STATE 17) 3), 17, ({ smd := 0xD5, frag := 0, bytes := List.replicate 64 0, back := 0, codeErr := false, backlog := 0, fecOut := false } : RxFrame), 12, by decide⟩,
    ⟨(z.wr (R.MAC_STAT_STATE 17) 3).wr (R.MAC_PAUSE_CFG_MODE 17) 1, 17, ({ smd := 0xD5, frag := 0, bytes := (([1,0x80,0xC2,0,0,1, 2,0,0,0,0,5, 0x88,8, 0,1, 0,5] ++ List.replicate 42 0) ++ le 4 (crc32 ([1,0x80,0xC2,0,0,1, 2,0,0,0,0,5, 0x88,8, 0,1, 0,5] ++ List.replicate 42 0))).map (BitVec.ofNat 8), back := 0, codeErr := false, backlog := 0, fecOut := false } : RxFrame), _, rfl, by decide⟩,
    ⟨(z.wr (R.MAC_STAT_STATE 17) 3), 17, ({ smd := 0xD5, frag := 0, bytes := (([2,0,0,0,0,9, 2,0,0,0,0,5, 0x88,0xB5] ++ List.replicate 46 7) ++ le 4 (crc32 ([2,0,0,0,0,9, 2,0,0,0,0,5, 0x88,0xB5] ++ List.replicate 46 7))).map (BitVec.ofNat 8), back := 0, codeErr := false, backlog := 0, fecOut := false } : RxFrame), _, rfl, by decide⟩,
    ⟨z, 17, by decide⟩,
    ⟨z.modPort 17 (fun k => { k with fec := [{}] }), 17, {}, [], by decide⟩,
    ⟨{ z with srv := { z.srv with stats := [(5, 1), (2048 + 64 + 31, 2 ^ 40 + 7)] } }.hi (R.TSC_LANE_STAT_STATE 2), (.ntp 2), 31, by decide⟩,
    ⟨z, (.mac 9), by decide⟩,
    ⟨((z.wr (R.TSC_LANE_STAT_STATE 2) 2).wr (R.MAC_SVC_DATA0_D 17) 0xFF).wr (R.MAC_SVC_DATA2_D 17) 0x0A000001, 17, 5, _, rfl, by decide⟩,
    ⟨(((z.wr (R.TSC_LANE_STAT_STATE 2) 2).wr (R.MAC_SVC_DATA0_D 17) 1).wr (R.MAC_SVC_DATA2_D 17) 0x0A000001).modPort 17 (fun k => { k with svc := [(7, [1, 0, 0x0A000001, 0, 0, 0])] }), 17, 5, _, rfl, by decide⟩,
    ⟨(z.wr (R.TSC_LANE_STAT_STATE 2) 2), 17, 7, by decide⟩,
    ⟨(z.wr (R.TSC_LANE_STAT_STATE 2) 2), 17, 0x307, by decide⟩,
    ⟨z, 17, by decide⟩,
    ⟨z, 17, true, _, rfl, by decide⟩,
    ⟨z.modPort 17 (fun k => { k with queues := [(3, [{ kind := .still none }])] }), 17, false, _, rfl, by decide⟩,
    ⟨z.hi (R.MAC_STAT_REM_FAULT 17), 17, true, _, rfl, by decide⟩,
    ⟨z.hi (R.MAC_STAT_REM_FAULT 17), 17, by decide⟩,
    ⟨z.modPort 17 (fun k => { k with queues := [(3, [{ kind := .still none }, { kind := .still (some 4) }])] }), 17, by decide,
      fun q x h => (show x.kind = .still none ∨ x.kind = .still (some 4) by revert q x h; decide).elim (fun e => ⟨_, e⟩) (fun e => ⟨_, e⟩), by decide, by decide⟩,
    ⟨z.modPort 17 (fun k => { k with queues := [(3, [{ kind := .answer, bytes := List.replicate 60 1 }])] }), 17, by decide⟩,
    ⟨(z.wr (R.MAC_STAT_STATE 17) 3), 17, by decide⟩⟩

/-- The hypotheses of `Obligations.PortTransmit`, case by case, are met. -/
theorem witness_PortTransmit :
    (∃ (s : State) (p : Fin 32), ((s.port p.val).pauses = [])) ∧
    (∃ (s : State) (p : Fin 32) (e : Pause) (rest : List Pause) (q : Fin 8) (n : Nat), ((s.port p.val).flight = none ∧ (s.port p.val).leaving = [] ∧ s.pauseHeld p.val = false) ∧ ((s.port p.val).pauses = e :: rest) ∧ (e.quanta = [(q.val, n)]) ∧ (q.val ≠ 7)) ∧
    (∃ (s : State) (p : Fin 32) (q : Fin 8), ((s.port p.val).flight = none ∧ (s.port p.val).leaving = [] ∧ s.pauseHeld p.val = false) ∧ (s.paused p.val q.val = true) ∧ (IMap.get 0 (s.port p.val).pauseEnd q.val ≠ 0)) ∧
    (∃ (s : State) (p : Fin 32) (q : Fin 8), (s.paused p.val q.val = false)) ∧
    (∃ (s : State) (p : Fin 32), ((s.port p.val).flight = none ∧ (s.port p.val).leaving = [] ∧ s.pauseHeld p.val = false) ∧ ((s.rd (R.MAC_STAT_STATE p.val) ≠ 3 ∨ s.flushing p.val = true ∨ s.nextTx p.val = none))) ∧
    (∃ (s : State) (p : Fin 32) (q : Fin 8) (f : TxFrame) (rest : List TxFrame), ((s.port p.val).flight = none ∧ (s.port p.val).leaving = [] ∧ s.pauseHeld p.val = false) ∧ (s.rd (R.MAC_STAT_STATE p.val) = 3) ∧ (s.flushing p.val = false) ∧ (s.nextTx p.val = some q.val) ∧ (s.txq p.val q.val = f :: rest) ∧ ((f.kind = .answer ∨ ∃ e, f.kind = .still e))) ∧
    (∃ (s : State) (p : Fin 32) (q : Fin 8) (sub : Nat) (f : TxFrame) (rest : List TxFrame), ((s.port p.val).flight = none ∧ (s.port p.val).leaving = [] ∧ s.pauseHeld p.val = false) ∧ (s.rd (R.MAC_STAT_STATE p.val) = 3) ∧ (s.flushing p.val = false) ∧ (s.nextTx p.val = some q.val) ∧ (s.txq p.val q.val = f :: rest) ∧ (f.kind = .ntpBcast) ∧ ((s.waitPs (max (max (s.port p.val).freePs f.notBefore) (max (s.port p.val).seenPs (s.nowPs + sub)))).timed p.val = false)) ∧
    (∃ (s : State) (p : Fin 32) (v : Flight), ((s.port p.val).flight = none ∧ (s.port p.val).leaving = [] ∧ s.pauseHeld p.val = false) ∧ (s.rd (R.MAC_STAT_STATE p.val) = 3) ∧ (s.flushing p.val = false) ∧ (s.nextTx p.val = some 8) ∧ ((s.port p.val).suspended = some v)) ∧
    (∃ (s : State) (p : Fin 32) (v : Flight), ((s.port p.val).flight = some v) ∧ (s.leftPs p.val v ≤ max (s.port p.val).seenPs s.nowPs) ∧ ((s.port p.val).leaving = []) ∧ (v.frame.kind = .answer) ∧ (s.pauseHeld p.val = false) ∧ ((s.port p.val).hold = []) ∧ ((s.port p.val).ready = [])) ∧
    (∃ (s : State) (p : Fin 32), ((s.port p.val).flight = none) ∧ (s.pauseHeld p.val = false)) ∧
    (∃ (s : State) (p : Fin 32) (v : Flight) (n : Nat), ((s.port p.val).flight = some v) ∧ (max (s.port p.val).seenPs s.nowPs < v.endPs) ∧ (v.pre = true) ∧ (((s.paused p.val 7 = false ∧ s.txq p.val 7 ≠ []) ∨ s.paused p.val v.q = true)) ∧ ((settle p.val s).boundary p.val v = some n)) ∧
    (∃ (s : State) (p : Fin 32), ((s.port p.val).flight = none) ∧ (s.pauseHeld p.val = false)) ∧
    (∃ (s : State) (p : Fin 32) (held : Nat) (v : Flight) (q idx cmd os cf : Nat), ((s.port p.val).flight = some v) ∧ (max (s.port p.val).seenPs s.nowPs < v.endPs) ∧ (v.frame.kind = .host q idx cmd os cf) ∧ (bit cmd 1 = false) ∧ (bit cmd 2 = false) ∧ (128 ≤ q ∧ q < 256) ∧ (s.rd (R.HRG_RING_THR_START q) < 9216) ∧ (s.rd (R.HRG_RING_THR_START q) ≤ held) ∧ (held < v.frame.bytes.length)) ∧
    (∃ (s : State) (p : Fin 32) (f : TxFrame) (rest : List TxFrame), ((s.port p.val).flight = none ∧ (s.port p.val).leaving = [] ∧ s.pauseHeld p.val = false) ∧ (s.rd (R.MAC_STAT_STATE p.val) = 3) ∧ (s.flushing p.val = false) ∧ ((s.port p.val).hold = []) ∧ ((s.port p.val).ready = f :: rest) ∧ (s.paused p.val 7 = false) ∧ (s.txRoom p.val 7 f.bytes.length = true)) ∧
    (∃ (s : State) (p : Fin 32) (f : TxFrame) (rest : List TxFrame), ((s.port p.val).flight = none ∧ (s.port p.val).leaving = [] ∧ s.pauseHeld p.val = false) ∧ (s.rd (R.MAC_STAT_STATE p.val) = 3) ∧ ((s.flushing p.val = true ∨ s.paused p.val 7 = true)) ∧ ((s.port p.val).ready = f :: rest) ∧ ((s.port p.val).hold.length < 16)) ∧
    (∃ (s : State) (p : Fin 32), ((s.port p.val).flight = none ∧ (s.port p.val).leaving = [] ∧ s.pauseHeld p.val = false) ∧ ((s.port p.val).hold = []) ∧ ((s.port p.val).ready = [])) ∧
    (∃ (s : State) (p : Fin 32) (at_ : Nat) (f : TxFrame) (rest : List (Nat × TxFrame)), ((s.port p.val).hold = (at_, f) :: rest)) ∧
    (∃ (s : State) (p : Fin 32), ((s.port p.val).hold = [])) :=
  ⟨⟨z, 17, by decide⟩,
    ⟨z.modPort 17 (fun k => { k with pauses := [{ atPs := 10 ^ 9, quanta := [(3, 200)], sum := 200 }] }), 17, ({ atPs := 10 ^ 9, quanta := [(3, 200)], sum := 200 }), [], 3, 200, by decide⟩,
    ⟨(z.wr (R.MAC_STAT_PAUSED 17) 0x18).modPort 17 (fun k => { k with pauseEnd := [(4, 10 ^ 9)] }), 17, 4, by decide⟩,
    ⟨z, 17, 4, by decide⟩,
    ⟨z, 17, by decide⟩,
    ⟨(z.wr (R.MAC_STAT_STATE 17) 3).modPort 17 (fun k => { k with freePs := 10 ^ 10, queues := [(3, [{}]), (6, [({ kind := .answer, bytes := List.replicate 60 1 } : TxFrame)])] }), 17, 6, ({ kind := .answer, bytes := List.replicate 60 1 } : TxFrame), [], by decide, by decide, by decide, by decide, by decide, Or.inl rfl⟩,
    ⟨(z.wr (R.MAC_STAT_STATE 17) 3).modPort 17 (fun k => { k with queues := [(7, [({ kind := .ntpBcast, bytes := List.replicate 90 0 } : TxFrame)])] }), 17, 7, 500, ({ kind := .ntpBcast, bytes := List.replicate 90 0 } : TxFrame), [], by decide⟩,
    ⟨(z.wr (R.MAC_STAT_STATE 17) 3).modPort 17 (fun k => { k with suspended := some ({ q := 2, frame := { kind := .answer, bytes := List.replicate 1514 1 }, startPs := 0, pre := true, endPs := 10 ^ 9 } : Flight) }), 17, ({ q := 2, frame := { kind := .answer, bytes := List.replicate 1514 1 }, startPs := 0, pre := true, endPs := 10 ^ 9 } : Flight), by decide⟩,
    ⟨(z.wr (R.MAC_STAT_STATE 17) 3).modPort 17 (fun k => { k with seenPs := 10 ^ 9, flight := some ({ q := 2, frame := { kind := .answer, bytes := List.replicate 1514 1 }, startPs := 0, pre := true, endPs := 0 } : Flight) }), 17, ({ q := 2, frame := { kind := .answer, bytes := List.replicate 1514 1 }, startPs := 0, pre := true, endPs := 0 } : Flight), by decide⟩,
    ⟨z, 17, by decide⟩,
    ⟨(z.hi (R.MAC_STAT_PRE_ACTIVE 17)).modPort 17 (fun k => { k with preCfg := 0x7F1, queues := [(7, [{ kind := .answer, bytes := List.replicate 60 1 }])], flight := some { q := 2, frame := { kind := .answer, bytes := List.replicate 1514 1 }, startPs := z.tick.count * 1250, pre := true, endPs := 10 ^ 15 } }), 17, ({ q := 2, frame := { kind := .answer, bytes := List.replicate 1514 1 }, startPs := z.tick.count * 1250, pre := true, endPs := 10 ^ 15 }), 64, by decide⟩,
    ⟨z, 17, by decide⟩,
    ⟨z.modPort 17 (fun k => { k with flight := some { q := 2, frame := { kind := .host 130 0 0 0 0, bytes := List.replicate 1514 1 }, startPs := 0, pre := true, endPs := 10 ^ 15 } }), 17, 1000, ({ q := 2, frame := { kind := .host 130 0 0 0 0, bytes := List.replicate 1514 1 }, startPs := 0, pre := true, endPs := 10 ^ 15 }), 130, 0, 0, 0, 0, by decide⟩,
    ⟨(z.wr (R.MAC_STAT_STATE 17) 3).modPort 17 (fun k => { k with ready := [{ kind := .answer, bytes := List.replicate 60 1 }] }), 17, ({ kind := .answer, bytes := List.replicate 60 1 }), [], by decide⟩,
    ⟨((z.wr (R.MAC_STAT_STATE 17) 3).hi (R.MAC_STAT_LOC_FAULT 17)).modPort 17 (fun k => { k with ready := [({ kind := .answer, bytes := List.replicate 60 1 } : TxFrame)] }), 17, ({ kind := .answer, bytes := List.replicate 60 1 } : TxFrame), [], by decide⟩,
    ⟨z, 17, by decide⟩,
    ⟨z.modPort 17 (fun k => { k with hold := [(5, {})] }), 17, 5, {}, [], by decide⟩,
    ⟨z, 17, by decide⟩⟩

/-- The hypotheses of `Obligations.NtpAndNts`, case by case, are met. -/
theorem witness_NtpAndNts :
    (∃ (s : State) (n : Fin 4), (s.dieAnswers n.val = true) ∧ (s.rd (R.NTP_CST_CTL_FLUSH_BUSY n.val) = 0)) ∧
    (∃ (s : State) (n : Fin 4), (s.dieAnswers n.val = true) ∧ (s.rd (R.NTP_CST_CTL_FLUSH_BUSY n.val) = 1)) ∧
    (∃ (s : State) (n : Fin 4), (s.dieAnswers n.val = false)) ∧
    (∃ (s : State) (p : Fin 32), (s.on (R.NTP_BC_CFG_EN p.val) = false)) ∧
    (∃ (s : State) (p : Fin 32), ∃ due, due = (s.bcNext p.val (max (s.openFrom (IMap.get none (s.ntpDie (p.val / 8)).bcSkipped (p.val % 8))) (((IMap.get none (s.ntpDie (p.val / 8)).bcLast (p.val % 8)).map (· + 1)).getD 0))) ∧ ∃ u, u = (s.waitTs0 due) ∧ ∃ i, i = (s.rd (R.NTP_BC_CFG_SVC p.val)) ∧ ((s.on (R.NTP_BC_CFG_EN p.val) = true) ∧ (due ≤ u.ts0) ∧ ((s.port p.val).flight = none ∧ (s.port p.val).leaving = [] ∧ s.pauseHeld p.val = false) ∧ (s.rd (R.MAC_STAT_STATE p.val) = 3) ∧ ((withheld p.val u).isNone = true) ∧ (svcValid (s.svc p.val i) = true) ∧ ((64 ≤ i ↔ s.rd (R.NTP_BC_CFG_DEST p.val) = 2)) ∧ (s.txRoom p.val 7 (u.bcFrame p.val).length = true) ∧ (s.flushing p.val = false))) ∧
    (∃ (s : State) (p : Fin 32), ∃ due, due = (s.bcNext p.val (max (s.openFrom (IMap.get none (s.ntpDie (p.val / 8)).bcSkipped (p.val % 8))) (((IMap.get none (s.ntpDie (p.val / 8)).bcLast (p.val % 8)).map (· + 1)).getD 0))) ∧ ∃ u, u = (s.waitTs0 due) ∧ ((s.on (R.NTP_BC_CFG_EN p.val) = true) ∧ (due ≤ u.ts0) ∧ ((s.rd (R.MAC_STAT_STATE p.val) ≠ 3 ∨ (withheld p.val u).isSome = true ∨ svcValid (s.svc p.val (s.rd (R.NTP_BC_CFG_SVC p.val))) = false)))) ∧
    (∃ (s : State) (n : Fin 4) (e : Fin 12), (s.engineJob n.val e.val = none)) ∧
    (∃ (s : State) (n : Fin 4) (e : Fin 12) (j : NtsJob) (q : NtsParts), (s.engineJob n.val e.val = some j) ∧ (j.port / 8 = n.val) ∧ ((s.ntsDie n.val).queue = []) ∧ (ntsParts j.arrived.payload = some q) ∧ (j.keys.find? (fun k => k.1 ≠ 0 ∧ k.2.1 = beAt q.cookie 0 4) = none) ∧ (s.rd (R.NTS_CTL_NAK_EN n.val) = 0)) ∧
    (∃ (s : State) (n : Fin 4) (e : Fin 12) (j : NtsJob) (q : NtsParts) (k : Nat × Nat × List Nat), (s.engineJob n.val e.val = some j) ∧ (j.port / 8 = n.val) ∧ ((s.ntsDie n.val).queue = []) ∧ (ntsParts j.arrived.payload = some q) ∧ (j.keys.find? (fun k => k.1 ≠ 0 ∧ k.2.1 = beAt q.cookie 0 4) = some k) ∧ (q.cookie.length = 104) ∧ (s.rd (R.MAC_STAT_STATE j.port) = 3)) ∧
    (∃ (s : State), (s.srv.keyChange = none)) ∧
    (∃ (s : State) (k : KeyChange), (s.srv.keyChange = some k) ∧ (k.op = 0x0710) ∧ (k.slot < 4) ∧ (s.fw.running = [])) ∧
    (∃ (s : State) (k : KeyChange), (s.srv.keyChange = some k) ∧ (k.op = 0x0711) ∧ (k.slot < 4) ∧ (s.fw.running = [])) ∧
    (∃ (s : State) (k : KeyChange), (s.srv.keyChange = some k) ∧ (k.op = 0x0712) ∧ (k.slot < 4) ∧ (s.fw.running = [])) :=
  ⟨⟨(z.wr (R.TSC_LANE_STAT_STATE 1) 2), 1, by decide⟩,
    ⟨(z.wr (R.TSC_LANE_STAT_STATE 1) 2).hi (R.NTP_CST_CTL_FLUSH_BUSY 1), 1, by decide⟩,
    ⟨z, 1, by decide⟩,
    ⟨z, 17, by decide⟩,
    ⟨({ ((z.wr (R.TSC_LANE_STAT_STATE 2) 2).wr (R.MAC_STAT_STATE 17) 3) with ens := { z.ens with pub := { z.ens.pub with engine := 2, refAt := some 5 } } }.modPort 17 (fun k => { k with svc := [(3, [1, 0, 0x0A000001, 0, 0, 0]), (70, [1, 0, 0x20010000, 0, 0, 9])] })).hi (R.NTP_BC_CFG_EN 17) |>.wr (R.NTP_BC_CFG_SVC 17) 3, 17, _, rfl, _, rfl, _, rfl, by decide⟩,
    ⟨z.hi (R.NTP_BC_CFG_EN 17), 17, _, rfl, _, rfl, by decide⟩,
    ⟨z, 2, 5, by decide⟩,
    ⟨(z.lo (R.NTS_CTL_NAK_EN 2)).modNts 2 (fun k => { k with engines := [(5, some { port := 17, bytes := [2,0,0,0,0,9, 2,0,0,0,0,5, 8,0, 0x45,0] ++ be 2 (28 + 48 + 36 + 108 + 40) ++ [0,0,0,0,64,17,0,0, 10,0,0,9, 10,0,0,1, 0x30,0x39,0,123] ++ be 2 (8 + 48 + 36 + 108 + 40) ++ [0,0] ++ [0x23] ++ List.replicate 47 0 ++ be 2 0x104 ++ be 2 36 ++ List.replicate 32 7 ++ be 2 0x204 ++ be 2 108 ++ List.replicate 104 9 ++ be 2 0x404 ++ be 2 40 ++ be 2 16 ++ be 2 16 ++ List.replicate 32 3, tRx := 10 ^ 20, rx := 4 })] }), 2, 5, ({ port := 17, bytes := [2,0,0,0,0,9, 2,0,0,0,0,5, 8,0, 0x45,0] ++ be 2 (28 + 48 + 36 + 108 + 40) ++ [0,0,0,0,64,17,0,0, 10,0,0,9, 10,0,0,1, 0x30,0x39,0,123] ++ be 2 (8 + 48 + 36 + 108 + 40) ++ [0,0] ++ [0x23] ++ List.replicate 47 0 ++ be 2 0x104 ++ be 2 36 ++ List.replicate 32 7 ++ be 2 0x204 ++ be 2 108 ++ List.replicate 104 9 ++ be 2 0x404 ++ be 2 40 ++ be 2 16 ++ be 2 16 ++ List.replicate 32 3, tRx := 10 ^ 20, rx := 4 }), (ntsParts (NtsJob.arrived { port := 17, bytes := [2,0,0,0,0,9, 2,0,0,0,0,5, 8,0, 0x45,0] ++ be 2 (28 + 48 + 36 + 108 + 40) ++ [0,0,0,0,64,17,0,0, 10,0,0,9, 10,0,0,1, 0x30,0x39,0,123] ++ be 2 (8 + 48 + 36 + 108 + 40) ++ [0,0] ++ [0x23] ++ List.replicate 47 0 ++ be 2 0x104 ++ be 2 36 ++ List.replicate 32 7 ++ be 2 0x204 ++ be 2 108 ++ List.replicate 104 9 ++ be 2 0x404 ++ be 2 40 ++ be 2 16 ++ be 2 16 ++ List.replicate 32 3, tRx := 10 ^ 20, rx := 4 }).payload).getD {}, by decide⟩,
    ⟨((z.wr (R.TSC_LANE_STAT_STATE 2) 2).wr (R.MAC_STAT_STATE 17) 3).modNts 2 (fun k => { k with engines := [(5, some { port := 17, bytes := [2,0,0,0,0,9, 2,0,0,0,0,5, 8,0, 0x45,0] ++ be 2 (28 + 48 + 36 + 108 + 40) ++ [0,0,0,0,64,17,0,0, 10,0,0,9, 10,0,0,1, 0x30,0x39,0,123] ++ be 2 (8 + 48 + 36 + 108 + 40) ++ [0,0] ++ [0x23] ++ List.replicate 47 0 ++ be 2 0x104 ++ be 2 36 ++ List.replicate 32 7 ++ be 2 0x204 ++ be 2 108 ++ List.replicate 104 9 ++ be 2 0x404 ++ be 2 40 ++ be 2 16 ++ be 2 16 ++ List.replicate 32 3, tRx := 10 ^ 20, rx := 4, keys := [(2, 0x09090909, [])] })] }), 2, 5, ({ port := 17, bytes := [2,0,0,0,0,9, 2,0,0,0,0,5, 8,0, 0x45,0] ++ be 2 (28 + 48 + 36 + 108 + 40) ++ [0,0,0,0,64,17,0,0, 10,0,0,9, 10,0,0,1, 0x30,0x39,0,123] ++ be 2 (8 + 48 + 36 + 108 + 40) ++ [0,0] ++ [0x23] ++ List.replicate 47 0 ++ be 2 0x104 ++ be 2 36 ++ List.replicate 32 7 ++ be 2 0x204 ++ be 2 108 ++ List.replicate 104 9 ++ be 2 0x404 ++ be 2 40 ++ be 2 16 ++ be 2 16 ++ List.replicate 32 3, tRx := 10 ^ 20, rx := 4, keys := [(2, 0x09090909, [])] }), (ntsParts (NtsJob.arrived { port := 17, bytes := [2,0,0,0,0,9, 2,0,0,0,0,5, 8,0, 0x45,0] ++ be 2 (28 + 48 + 36 + 108 + 40) ++ [0,0,0,0,64,17,0,0, 10,0,0,9, 10,0,0,1, 0x30,0x39,0,123] ++ be 2 (8 + 48 + 36 + 108 + 40) ++ [0,0] ++ [0x23] ++ List.replicate 47 0 ++ be 2 0x104 ++ be 2 36 ++ List.replicate 32 7 ++ be 2 0x204 ++ be 2 108 ++ List.replicate 104 9 ++ be 2 0x404 ++ be 2 40 ++ be 2 16 ++ be 2 16 ++ List.replicate 32 3, tRx := 10 ^ 20, rx := 4 }).payload).getD {}, (2, 0x09090909, []), by decide⟩,
    ⟨z, by decide⟩,
    ⟨{ z.wr (R.TSC_LANE_STAT_STATE 1) 1 with srv := { z.srv with keyChange := some { op := 0x0710, slot := 2, id := 77, key := [1, 2], ready := 10 ^ 8 } } }, ({ op := 0x0710, slot := 2, id := 77, key := [1, 2], ready := 10 ^ 8 }), by decide⟩,
    ⟨{ z with srv := { z.srv with keys := [(0, 2, 5, [9]), (2, 1, 7, [8])], keyChange := some { op := 0x0711, slot := 2, ready := 10 ^ 8 } } }, ({ op := 0x0711, slot := 2, ready := 10 ^ 8 }), by decide⟩,
    ⟨{ z with srv := { z.srv with keys := [(0, 2, 5, [9]), (2, 1, 7, [8])], keyChange := some { op := 0x0712, slot := 2, ready := 10 ^ 8 } } }, ({ op := 0x0712, slot := 2, ready := 10 ^ 8 }), by decide⟩⟩

/-- The hypotheses of `Obligations.PtpEngine`, case by case, are met. -/
theorem witness_PtpEngine :
    (∃ (s : State) (j : Fin 128) (ann : Bool), (((s.inst j.val).on = false ∨ s.upstream j.val = true ∨ s.on (R.PTP_INST_CFG_MCAST j.val) = false ∨ s.on (R.PTP_CTL_EN (j.val / 32)) = false ∨ (if ann then rateOk (s.rd (R.PTP_INST_RATE_LOG_ANN j.val)) (s.prof j.val).ann else rateOk (s.rd (R.PTP_INST_RATE_LOG_SYNC j.val)) (s.prof j.val).sync) = false))) ∧
    (∃ (s : State) (j : Fin 128), ∃ log, log = (s.logSync j.val) ∧ ∃ due, due = (nextInstant (intervalNs log) (s.rd (R.PTP_INST_PHASE_PHASE j.val)) (max (ceilDiv (s.openFrom (s.inst j.val).skipSync) 65536) (((s.inst j.val).lastSync.map (· + 1)).getD 0))) ∧ ∃ u, u = (s.waitTs0 (ns16 due)) ∧ ∃ F, F = (s.ptpFrame j.val (s.instSvc j.val) (s.groupDest j.val false) (s.ptpMessage j.val 0 0 0 0 (s.inst j.val).syncSeq log (List.replicate 10 0))) ∧ (((s.inst j.val).on = true) ∧ (s.upstream j.val = false) ∧ (s.on (R.PTP_INST_CFG_MCAST j.val) = true) ∧ (s.on (R.PTP_CTL_EN (j.val / 32)) = true) ∧ (rateOk (s.rd (R.PTP_INST_RATE_LOG_SYNC j.val)) (s.prof j.val).sync = true) ∧ ((s.port (j.val / 4)).flight = none ∧ (s.port (j.val / 4)).leaving = [] ∧ s.pauseHeld (j.val / 4) = false) ∧ (ns16 due ≤ u.ts0) ∧ ((ptpWithheld (j.val / 4) u).isNone = true) ∧ (s.rd (R.MAC_STAT_STATE (j.val / 4)) = 3) ∧ (s.flushing (j.val / 4) = false) ∧ (s.on (R.PTP_INST_CFG_ONESTEP j.val) = true) ∧ (s.txRoom (j.val / 4) 7 F.length = true))) ∧
    (∃ (s : State) (j : Fin 128), ∃ log, log = (s.logAnn j.val) ∧ ∃ due, due = (nextInstant (intervalNs log) (s.rd (R.PTP_INST_PHASE_PHASE j.val)) (max (ceilDiv (s.openFrom (s.inst j.val).skipAnn) 65536) (((s.inst j.val).lastAnn.map (· + 1)).getD 0))) ∧ ∃ u, u = (s.waitTs0 (ns16 due)) ∧ ∃ F, F = (u.ptpFrame j.val (u.instSvc j.val) (u.groupDest j.val false) (u.announce j.val 0 (s.inst j.val).annSeq log)) ∧ (((s.inst j.val).on = true) ∧ (s.upstream j.val = false) ∧ (s.on (R.PTP_INST_CFG_MCAST j.val) = true) ∧ (s.on (R.PTP_CTL_EN (j.val / 32)) = true) ∧ (rateOk (s.rd (R.PTP_INST_RATE_LOG_ANN j.val)) (s.prof j.val).ann = true) ∧ ((s.port (j.val / 4)).flight = none ∧ (s.port (j.val / 4)).leaving = [] ∧ s.pauseHeld (j.val / 4) = false) ∧ (ns16 due ≤ u.ts0) ∧ ((ptpWithheld (j.val / 4) u).isNone = true) ∧ (s.rd (R.MAC_STAT_STATE (j.val / 4)) = 3) ∧ (s.flushing (j.val / 4) = false) ∧ (s.txRoom (j.val / 4) 7 F.length = true))) ∧
    (∃ (s : State) (j : Fin 128) (ann : Bool), ∃ log, log = (if ann then s.logAnn j.val else s.logSync j.val) ∧ ∃ due, due = (nextInstant (intervalNs log) (s.rd (R.PTP_INST_PHASE_PHASE j.val)) (max (ceilDiv (s.openFrom (if ann then (s.inst j.val).skipAnn else (s.inst j.val).skipSync)) 65536) (((if ann then (s.inst j.val).lastAnn else (s.inst j.val).lastSync).map (· + 1)).getD 0))) ∧ ∃ u, u = (s.waitTs0 (ns16 due)) ∧ (((s.inst j.val).on = true) ∧ (s.upstream j.val = false) ∧ (s.on (R.PTP_INST_CFG_MCAST j.val) = true) ∧ (s.on (R.PTP_CTL_EN (j.val / 32)) = true) ∧ ((if ann then rateOk (s.rd (R.PTP_INST_RATE_LOG_ANN j.val)) (s.prof j.val).ann else rateOk (s.rd (R.PTP_INST_RATE_LOG_SYNC j.val)) (s.prof j.val).sync) = true) ∧ (ns16 due ≤ u.ts0) ∧ (((ptpWithheld (j.val / 4) u).isSome = true ∨ s.rd (R.MAC_STAT_STATE (j.val / 4)) ≠ 3)))) ∧
    (∃ (s : State) (n : Fin 4) (e : Fin 16384), ((s.grant (n.val * 16384 + e.val)).valid = false)) ∧
    (∃ (s : State) (n : Fin 4) (e : Fin 16384), ∃ g, g = (s.grant (n.val * 16384 + e.val)) ∧ ∃ p, p = (g.inst / 4) ∧ ∃ due, due = (nextInstant (intervalNs g.logPeriod) (e.val * intervalNs g.logPeriod / 16384) (max (ceilDiv (s.openFrom g.skipped) 65536) ((g.lastNs.map (· + 1)).getD 0))) ∧ ∃ u, u = (s.waitTs0 (ns16 due)) ∧ ∃ F, F = (s.ptpFrame g.inst (s.instSvc g.inst) (grantDest g) (s.ptpMessage g.inst 0 4 0 0 g.seq g.logPeriod (List.replicate 10 0))) ∧ ((g.valid = true) ∧ (g.msg = 0) ∧ (g.inst / 32 = n.val) ∧ (s.on (R.PTP_CTL_EN n.val) = true) ∧ ((s.port p).flight = none ∧ (s.port p).leaving = [] ∧ s.pauseHeld p = false) ∧ (ns16 due ≤ u.ts0) ∧ ((ptpWithheld p u).isNone = true) ∧ (s.rd (R.MAC_STAT_STATE p) = 3) ∧ (s.flushing p = false) ∧ (s.on (R.PTP_INST_CFG_ONESTEP g.inst) = true) ∧ (s.txRoom p 7 F.length = true))) ∧
    (∃ (s : State) (n : Fin 4) (e : Fin 16384), ∃ g, g = (s.grant (n.val * 16384 + e.val)) ∧ ∃ p, p = (g.inst / 4) ∧ ∃ due, due = (nextInstant (intervalNs g.logPeriod) (e.val * intervalNs g.logPeriod / 16384) (max (ceilDiv (s.openFrom g.skipped) 65536) ((g.lastNs.map (· + 1)).getD 0))) ∧ ∃ u, u = (s.waitTs0 (ns16 due)) ∧ ((g.valid = true) ∧ ((g.msg = 0 ∨ g.msg = 11)) ∧ (g.inst / 32 = n.val) ∧ (s.on (R.PTP_CTL_EN n.val) = true) ∧ (ns16 due ≤ u.ts0) ∧ (((ptpWithheld p u).isSome = true ∨ s.rd (R.MAC_STAT_STATE p) ≠ 3)))) ∧
    (∃ (s : State) (j : Fin 128) (id : Nat), (∀ m ∈ s.srv.masters, ¬ (m.inst = j.val ∧ m.id = id))) ∧
    (∃ (s : State) (j : Fin 128) (id : Nat) (m : PtpMaster), (s.srv.masters.find? (fun m => m.inst = j.val && m.id = id) = some m)) ∧
    (∃ (s : State) (j : Fin 128), ((s.inst j.val).syncWait = none)) ∧
    (∃ (s : State) (j : Fin 128) (a : Nat) (b : Stamp) (c : Int) (at_ : Nat), ((s.inst j.val).syncWait = some (a, b, c, at_))) ∧
    (∃ (s : State) (n : Fin 4) (e : Fin 16384), ((s.grant (n.val * 16384 + e.val)).valid = false)) ∧
    (∃ (s : State) (n : Fin 4) (e : Fin 16384), ((s.grant (n.val * 16384 + e.val)).valid = true)) ∧
    (∃ (s : State) (j : Fin 128), (((s.inst j.val).on = false ∨ s.on (R.PTP_CTL_EN (j.val / 32)) = false ∨ s.selectedOf (s.domSlot j.val) = none))) ∧
    (∃ (s : State) (j : Fin 128) (id : Nat), ∃ F, F = (s.ptpFrame j.val (s.instSvc j.val) (s.groupDest j.val false) (s.ptpMessage j.val 1 0 0 0 (s.inst j.val).dreqSeq 0x7F (List.replicate 10 0))) ∧ (((s.inst j.val).on = true) ∧ (s.selectedOf (s.domSlot j.val) = some (j.val, id)) ∧ (s.on (R.PTP_CTL_EN (j.val / 32)) = true) ∧ ((s.port (j.val / 4)).flight = none ∧ (s.port (j.val / 4)).leaving = [] ∧ s.pauseHeld (j.val / 4) = false) ∧ (s.rd (R.MAC_STAT_STATE (j.val / 4)) = 3) ∧ (s.flushing (j.val / 4) = false) ∧ (s.on (R.PTP_INST_CFG_UCAST j.val) = false) ∧ (s.txRoom (j.val / 4) 7 F.length = true))) ∧
    (∃ (s : State) (j : Fin 128), (((s.inst j.val).on = false ∨ s.on (R.PTP_CTL_EN (j.val / 32)) = false ∨ s.upstream j.val = false ∨ s.rd (R.PTP_INST_CFG_PROFILE j.val) ≠ 3))) ∧
    (∃ (s : State) (j : Fin 128) (m : Fin 3), ∃ msg : Nat, msg = (if m = 0 then 11 else if m = 1 then 0 else 9) ∧ ∃ log, log = (if m = 0 then s.logAnn j.val else if m = 1 then s.logSync j.val else s.logDreq j.val) ∧ ∃ F, F = (s.ptpFrame j.val (s.instSvc j.val) (s.peerDest j.val (s.instSvc j.val)) (s.ptpMessage j.val 12 4 0 0 (s.inst j.val).sigSeq 0x7F (anyTarget ++ tlvRequest msg log (max 1 (s.rd (R.PTP_INST_UP_REQ_DUR j.val)))))) ∧ (((s.inst j.val).on = true) ∧ (s.upstream j.val = true) ∧ (s.rd (R.PTP_INST_CFG_PROFILE j.val) = 3) ∧ (s.on (R.PTP_CTL_EN (j.val / 32)) = true) ∧ ((s.port (j.val / 4)).flight = none ∧ (s.port (j.val / 4)).leaving = [] ∧ s.pauseHeld (j.val / 4) = false) ∧ (s.rd (R.MAC_STAT_STATE (j.val / 4)) = 3) ∧ (s.flushing (j.val / 4) = false) ∧ (s.txRoom (j.val / 4) 7 F.length = true))) ∧
    (∃ (s : State) (j : Fin 128) (w : Word), ((s.inst j.val).on = false) ∧ ((R.PTP_INST_CFG_EN j.val).of w.toNat = 0) ∧ (s.dieAnswers (j.val / 32) = true)) ∧
    (∃ (s : State) (j : Fin 128) (w : Word), ((s.inst j.val).on = false) ∧ ((R.PTP_INST_CFG_EN j.val).of w.toNat = 1) ∧ ((6 ≤ (R.PTP_INST_CFG_PROFILE j.val).of w.toNat ∨ (R.PTP_INST_CFG_TRANSPORT j.val).of w.toNat = 3 ∨ ((R.PTP_INST_CFG_MCAST j.val).of w.toNat = 0 ∧ (R.PTP_INST_CFG_UCAST j.val).of w.toNat = 0) ∨ svcValid (s.svc (j.val / 4) ((R.PTP_INST_CFG_SVC j.val).of w.toNat)) = false)) ∧ (s.dieAnswers (j.val / 32) = true)) ∧
    (∃ (s : State) (j : Fin 128) (w : Word), ((∀ k : Fin 4, (s.inst (j.val / 4 * 4 + k.val)).on = false)) ∧ (w = 0x00317F91) ∧ (svcValid (s.svc (j.val / 4) 3) = true) ∧ (s.rd (R.PTP_INST_RATE_LOG_SYNC j.val) = 0x7F ∧ s.rd (R.PTP_INST_RATE_LOG_ANN j.val) = 0x7F ∧ s.rd (R.PTP_INST_RATE_LOG_DREQ j.val) = 0x7F) ∧ (s.dieAnswers (j.val / 32) = true)) ∧
    (∃ (s : State) (j : Fin 128), (s.rd (R.PTP_INST_CFG_EN j.val) = 0) ∧ (s.dieAnswers (j.val / 32) = true)) ∧
    (∃ (s : State) (j : Fin 128), (s.rd (R.PTP_INST_CFG_EN j.val) = 0) ∧ (s.dieAnswers (j.val / 32) = true)) ∧
    (∃ (s : State) (j : Fin 128), (s.dieAnswers (j.val / 32) = true)) ∧
    (∃ (s : State) (j : Fin 128), ((s.upstream j.val = false ∨ s.rd (R.PTP_INST_CFG_EN j.val) = 0)) ∧ (s.dieAnswers (j.val / 32) = true)) ∧
    (∃ (s : State) (j : Fin 128), (s.dieAnswers (j.val / 32) = false)) ∧
    (∃ (s : State) (j : Fin 128), (s.dieAnswers (j.val / 32) = false)) :=
  ⟨⟨z, 68, true, by decide⟩,
    ⟨(({ ((z.wr (R.TSC_LANE_STAT_STATE 2) 2).wr (R.MAC_STAT_STATE 17) 3) with ens := { z.ens with pub := { z.ens.pub with engine := 2, refAt := some 5 } } }.modPort 17 (fun k => { k with svc := [(3, [1, 0, 0x0A000001, 0, 0, 0]), (70, [1, 0, 0x20010000, 0, 0, 9])] })).hi (R.PTP_CTL_EN 2) |>.wr (R.PTP_INST_CFG_SVC 68) 3 |>.hi (R.PTP_INST_CFG_EN 68) |>.modInst 68 (fun k => { k with on := true })), 68, _, rfl, _, rfl, _, rfl, _, rfl, by decide⟩,
    ⟨(({ ((z.wr (R.TSC_LANE_STAT_STATE 2) 2).wr (R.MAC_STAT_STATE 17) 3) with ens := { z.ens with pub := { z.ens.pub with engine := 2, refAt := some 5 } } }.modPort 17 (fun k => { k with svc := [(3, [1, 0, 0x0A000001, 0, 0, 0]), (70, [1, 0, 0x20010000, 0, 0, 9])] })).hi (R.PTP_CTL_EN 2) |>.wr (R.PTP_INST_CFG_SVC 68) 3 |>.hi (R.PTP_INST_CFG_EN 68) |>.modInst 68 (fun k => { k with on := true })), 68, _, rfl, _, rfl, _, rfl, _, rfl, by decide⟩,
    ⟨(({ ((z.wr (R.TSC_LANE_STAT_STATE 2) 2).wr (R.MAC_STAT_STATE 17) 3) with ens := { z.ens with pub := { z.ens.pub with engine := 2, refAt := some 5 } } }.modPort 17 (fun k => { k with svc := [(3, [1, 0, 0x0A000001, 0, 0, 0]), (70, [1, 0, 0x20010000, 0, 0, 9])] })).hi (R.PTP_CTL_EN 2) |>.wr (R.PTP_INST_CFG_SVC 68) 3 |>.hi (R.PTP_INST_CFG_EN 68) |>.modInst 68 (fun k => { k with on := true }) |>.lo (R.TSC_LANE_STAT_STATE 2)), 68, true, _, rfl, _, rfl, _, rfl, by decide⟩,
    ⟨z, 2, 5, by decide⟩,
    ⟨(({ ((z.wr (R.TSC_LANE_STAT_STATE 2) 2).wr (R.MAC_STAT_STATE 17) 3) with ens := { z.ens with pub := { z.ens.pub with engine := 2, refAt := some 5 } } }.modPort 17 (fun k => { k with svc := [(3, [1, 0, 0x0A000001, 0, 0, 0]), (70, [1, 0, 0x20010000, 0, 0, 9])] })).hi (R.PTP_CTL_EN 2) |>.wr (R.PTP_INST_CFG_SVC 68) 3 |>.hi (R.PTP_INST_CFG_EN 68) |>.modInst 68 (fun k => { k with on := true }) |>.setGrant (2 * 16384 + 5) { valid := true, msg := 0, logPeriod := -3, inst := 68, family := 1, addr := [10, 0, 0, 9], seq := 7, expiry := 3 }), 2, 5, _, rfl, _, rfl, _, rfl, _, rfl, _, rfl, by decide⟩,
    ⟨(({ ((z.wr (R.TSC_LANE_STAT_STATE 2) 2).wr (R.MAC_STAT_STATE 17) 3) with ens := { z.ens with pub := { z.ens.pub with engine := 2, refAt := some 5 } } }.modPort 17 (fun k => { k with svc := [(3, [1, 0, 0x0A000001, 0, 0, 0]), (70, [1, 0, 0x20010000, 0, 0, 9])] })).hi (R.PTP_CTL_EN 2) |>.wr (R.PTP_INST_CFG_SVC 68) 3 |>.hi (R.PTP_INST_CFG_EN 68) |>.modInst 68 (fun k => { k with on := true }) |>.setGrant (2 * 16384 + 5) { valid := true, msg := 11, logPeriod := -3, inst := 68, family := 1, addr := [10, 0, 0, 9], seq := 7, expiry := 3 } |>.lo (R.TSC_LANE_STAT_STATE 2)), 2, 5, _, rfl, _, rfl, _, rfl, _, rfl, by decide⟩,
    ⟨z, 68, 9, by decide⟩,
    ⟨((({ ((z.wr (R.TSC_LANE_STAT_STATE 2) 2).wr (R.MAC_STAT_STATE 17) 3) with ens := { z.ens with pub := { z.ens.pub with engine := 2, refAt := some 5 } } }.modPort 17 (fun k => { k with svc := [(3, [1, 0, 0x0A000001, 0, 0, 0]), (70, [1, 0, 0x20010000, 0, 0, 9])] })).hi (R.PTP_CTL_EN 2) |>.wr (R.PTP_INST_CFG_SVC 68) 3 |>.hi (R.PTP_INST_CFG_EN 68) |>.modInst 68 (fun k => { k with on := true }) |>.hi (R.PTP_INST_CFG_ROLE 68)) |> fun s => { s with srv := { s.srv with masters := [{ inst := 68, id := 9, cls := 6, logAnn := 1, heard := 5, src := [10, 0, 0, 7] }], selected := [(0, some (68, 9))] } }), 68, 9, ({ inst := 68, id := 9, cls := 6, logAnn := 1, heard := 5, src := [10, 0, 0, 7] }), by decide⟩,
    ⟨z, 68, by decide⟩,
    ⟨z.modInst 68 (fun k => { k with syncWait := some (1, { t := 2 }, 4, 3) }), 68, 1, { t := 2 }, 4, 3, by decide⟩,
    ⟨z, 2, 5, by decide⟩,
    ⟨z.setGrant (2 * 16384 + 5) { valid := true, msg := 0, logPeriod := -3, inst := 68, family := 1, addr := [10, 0, 0, 9], seq := 7, expiry := 3 }, 2, 5, by decide⟩,
    ⟨z, 68, by decide⟩,
    ⟨((({ ((z.wr (R.TSC_LANE_STAT_STATE 2) 2).wr (R.MAC_STAT_STATE 17) 3) with ens := { z.ens with pub := { z.ens.pub with engine := 2, refAt := some 5 } } }.modPort 17 (fun k => { k with svc := [(3, [1, 0, 0x0A000001, 0, 0, 0]), (70, [1, 0, 0x20010000, 0, 0, 9])] })).hi (R.PTP_CTL_EN 2) |>.wr (R.PTP_INST_CFG_SVC 68) 3 |>.hi (R.PTP_INST_CFG_EN 68) |>.modInst 68 (fun k => { k with on := true }) |>.hi (R.PTP_INST_CFG_ROLE 68)) |> fun s => { s with srv := { s.srv with masters := [{ inst := 68, id := 9, cls := 6, logAnn := 1, heard := 5, src := [10, 0, 0, 7] }], selected := [(0, some (68, 9))] } }), 68, 9, _, rfl, by decide⟩,
    ⟨z, 68, by decide⟩,
    ⟨(({ ((z.wr (R.TSC_LANE_STAT_STATE 2) 2).wr (R.MAC_STAT_STATE 17) 3) with ens := { z.ens with pub := { z.ens.pub with engine := 2, refAt := some 5 } } }.modPort 17 (fun k => { k with svc := [(3, [1, 0, 0x0A000001, 0, 0, 0]), (70, [1, 0, 0x20010000, 0, 0, 9])] })).hi (R.PTP_CTL_EN 2) |>.wr (R.PTP_INST_CFG_SVC 68) 3 |>.hi (R.PTP_INST_CFG_EN 68) |>.modInst 68 (fun k => { k with on := true }) |>.hi (R.PTP_INST_CFG_ROLE 68) |>.wr (R.PTP_INST_CFG_PROFILE 68) 3), 68, 1, _, rfl, _, rfl, _, rfl, by decide⟩,
    ⟨(z.wr (R.TSC_LANE_STAT_STATE 2) 2), 68, 0x00317F90, by decide⟩,
    ⟨(z.wr (R.TSC_LANE_STAT_STATE 2) 2), 68, 0x00317F91, by decide⟩,
    ⟨(z.wr (R.TSC_LANE_STAT_STATE 2) 2).modPort 17 (fun k => { k with svc := [(3, [1, 0, 0x0A000001, 0, 0, 0]), (70, [1, 0, 0x20010000, 0, 0, 9])] }), 68, 0x00317F91, by decide⟩,
    ⟨(z.wr (R.TSC_LANE_STAT_STATE 2) 2), 68, by decide⟩,
    ⟨(z.wr (R.TSC_LANE_STAT_STATE 2) 2), 68, by decide⟩,
    ⟨(z.wr (R.TSC_LANE_STAT_STATE 2) 2), 68, by decide⟩,
    ⟨(z.wr (R.TSC_LANE_STAT_STATE 2) 2), 68, by decide⟩,
    ⟨z, 68, by decide⟩,
    ⟨z, 68, by decide⟩⟩

/-- The hypotheses of `Obligations.RingControl`, case by case, are met. -/
theorem witness_RingControl :
    (∃ (s : State) (fn : Fin 2) (q : Fin 258) (w : Word), ∃ u, u = (settleEnded s) ∧ ((u.ringFn q.val = fn.val) ∧ ((fn.val = 0 ∨ 256 ≤ q.val ∨ (R.HRG_RING_CFG_OWNER q.val).of w.toNat = u.rd (R.HRG_RING_CFG_OWNER q.val))) ∧ (u.on (R.HRG_RING_CFG_EN q.val) = false) ∧ (u.on (R.HRG_RING_CFG_QUIESCED q.val) = true) ∧ (((R.HRG_RING_CFG_VEC q.val).of w.toNat ≤ (if u.ringFn q.val = 0 then 61 else 39))))) ∧
    (∃ (s : State) (fn : Fin 2) (q : Fin 258) (w : Word), ∃ u, u = (settleEnded s) ∧ ((u.ringFn q.val = fn.val) ∧ ((fn.val = 0 ∨ 256 ≤ q.val ∨ (R.HRG_RING_CFG_OWNER q.val).of w.toNat = u.rd (R.HRG_RING_CFG_OWNER q.val))) ∧ (u.on (R.HRG_RING_CFG_EN q.val) = false) ∧ (((if u.ringFn q.val = 0 then 61 else 39) < (R.HRG_RING_CFG_VEC q.val).of w.toNat)))) ∧
    (∃ (s : State) (fn : Fin 2) (q : Fin 258) (w : Word), ∃ u, u = (settleEnded s) ∧ ((u.ringFn q.val = fn.val) ∧ ((fn.val = 0 ∨ 256 ≤ q.val ∨ (R.HRG_RING_CFG_OWNER q.val).of w.toNat = u.rd (R.HRG_RING_CFG_OWNER q.val))) ∧ (u.on (R.HRG_RING_CFG_EN q.val) = true))) ∧
    (∃ (s : State) (fn : Fin 2) (q : Fin 258), ∃ u, u = (settleEnded s) ∧ ((u.reaches fn.val q.val = false))) ∧
    (∃ (s : State) (fn : Fin 2) (q : Fin 258) (w : Word), ∃ u, u = (settleEnded s) ∧ ((fn.val = 1) ∧ (u.ringFn q.val = 0) ∧ ((R.HRG_RING_CFG_OWNER q.val).of w.toNat = u.rd (R.HRG_RING_CFG_OWNER q.val)))) ∧
    (∃ (s : State) (fn : Fin 2) (q : Fin 258) (w : Word), ∃ u, u = (settleEnded s) ∧ ((u.reaches fn.val q.val = true) ∧ ((fn.val = 0 ∨ 256 ≤ q.val ∨ (R.HRG_RING_CFG_OWNER q.val).of w.toNat = u.rd (R.HRG_RING_CFG_OWNER q.val))) ∧ (u.on (R.HRG_RING_CFG_EN q.val) = true))) ∧
    (∃ (s : State) (fn : Fin 2) (q : Fin 258) (w : Word), ∃ u, u = (settleEnded s) ∧ ((u.ringFn q.val = fn.val) ∧ ((fn.val = 0 ∨ 256 ≤ q.val ∨ (R.HRG_RING_CFG_OWNER q.val).of w.toNat = u.rd (R.HRG_RING_CFG_OWNER q.val))) ∧ (u.on (R.HRG_RING_CFG_EN q.val) = false) ∧ (u.on (R.HRG_RING_CFG_QUIESCED q.val) = true))) ∧
    (∃ (s : State) (fn : Fin 2) (q : Fin 258) (w : Word), ∃ u, u = (settleEnded s) ∧ ((u.ringFn q.val = fn.val) ∧ ((fn.val = 0 ∨ 256 ≤ q.val ∨ (R.HRG_RING_CFG_OWNER q.val).of w.toNat = u.rd (R.HRG_RING_CFG_OWNER q.val))) ∧ (u.on (R.HRG_RING_CFG_EN q.val) = false) ∧ (u.on (R.HRG_RING_CFG_QUIESCED q.val) = false))) ∧
    (∃ (s : State) (fn : Fin 2) (q : Fin 258), ∃ u, u = (settleEnded s) ∧ ((u.reaches fn.val q.val = false))) ∧
    (∃ (s : State) (q : Fin 256) (w : Word), ∃ u, u = (settleEnded s) ∧ ((u.on (R.HRG_RING_CFG_EN q.val) = false) ∧ ((R.HRG_RING_CFG_EN q.val).of w.toNat = 0))) ∧
    (∃ (s : State) (q : Fin 256) (w : Word), ∃ u, u = (settleEnded s) ∧ ((u.on (R.HRG_RING_CFG_EN q.val) = true) ∧ ((R.HRG_RING_CFG_EN q.val).of w.toNat = 1) ∧ ((R.HRG_RING_CFG_OWNER q.val).of w.toNat ≠ u.rd (R.HRG_RING_CFG_OWNER q.val)))) :=
  ⟨⟨(z.wr (R.HRG_RING_TAIL_TAIL 130) 9), 0, 130, 0x3D0C, _, rfl, by decide⟩,
    ⟨(z.wr (R.HRG_RING_TAIL_TAIL 130) 9), 0, 130, 0x3E00, _, rfl, by decide⟩,
    ⟨((z.hi (R.HRG_RING_CFG_EN 130)).lo (R.HRG_RING_CFG_QUIESCED 130)), 0, 130, 0x3F3D, _, rfl, by decide⟩,
    ⟨z, 0, 257, _, rfl, by decide⟩,
    ⟨z, 1, 130, 1, _, rfl, by decide⟩,
    ⟨((z.hi (R.HRG_RING_CFG_EN 130)).lo (R.HRG_RING_CFG_QUIESCED 130)), 0, 130, 0x3F3D, _, rfl, by decide⟩,
    ⟨z, 0, 130, 0x3F3D, _, rfl, by decide⟩,
    ⟨z.lo (R.HRG_RING_CFG_QUIESCED 130), 0, 130, 0x3F3D, _, rfl, by decide⟩,
    ⟨z.hi (R.HRG_RING_CFG_OWNER 130), 0, 130, _, rfl, by decide⟩,
    ⟨z.hi (R.HRG_RING_CFG_CFG_ERR 130), 130, 0x3F7C, _, rfl, by decide⟩,
    ⟨((z.hi (R.HRG_RING_CFG_EN 130)).lo (R.HRG_RING_CFG_QUIESCED 130)), 130, 0x41, _, rfl, by decide⟩⟩

/-- The hypotheses of `Obligations.RingTraffic`, case by case, are met. -/
theorem witness_RingTraffic :
    (∃ (s : State) (fn : Fin 2) (q : Fin 258), ∃ u, u = (settleEnded s) ∧ ((u.reaches fn.val q.val = false))) ∧
    (∃ (s : State) (fn : Fin 2) (q : Fin 258), ∃ u, u = (settleEnded s) ∧ ((u.reaches fn.val q.val = true) ∧ (u.ringFn q.val ≠ fn.val))) ∧
    (∃ (s : State) (fn : Fin 2) (q : Fin 258) (w : Word), ∃ u, u = (settleEnded s) ∧ ((u.ringFn q.val = fn.val) ∧ (u.ringSize q.val ≤ (R.HRG_RING_TAIL_TAIL q.val).of w.toNat))) ∧
    (∃ (s : State) (fn : Fin 2) (q : Fin 258) (w : Word), ∃ u, u = (settleEnded s) ∧ ((u.ringFn q.val = fn.val) ∧ ((R.HRG_RING_TAIL_TAIL q.val).of w.toNat < u.ringSize q.val) ∧ (u.on (R.HRG_RING_CFG_EN q.val) = false))) ∧
    (∃ (s : State) (fn : Fin 2) (q : Fin 258) (w : Word) (descs : List (List Byte)) (k : Nat), ∃ u, u = (settleEnded s) ∧ ∃ n, n = (((R.HRG_RING_TAIL_TAIL q.val).of w.toNat + u.ringSize q.val - u.rd (R.HRG_RING_TAIL_TAIL q.val)) % u.ringSize q.val) ∧ ((u.ringFn q.val = fn.val) ∧ (q.val < 256) ∧ ((R.HRG_RING_TAIL_TAIL q.val).of w.toNat < u.ringSize q.val) ∧ (u.rd (R.HRG_RING_TAIL_TAIL q.val) < u.ringSize q.val) ∧ (u.on (R.HRG_RING_CFG_EN q.val) = true) ∧ (k < n) ∧ (k < descs.length) ∧ ((descs.getD k []).length = 32))) ∧
    (∃ (s : State) (fn : Fin 2) (q : Fin 258) (w : Word) (d : List Byte), ∃ u, u = (settleEnded s) ∧ ∃ len, len = (leAt (natBytes d) 8 2) ∧ ((u.ringFn q.val = fn.val) ∧ (256 ≤ q.val) ∧ ((R.HRG_RING_TAIL_TAIL q.val).of w.toNat = (u.rd (R.HRG_RING_TAIL_TAIL q.val) + 1) % u.ringSize q.val) ∧ (u.rd (R.HRG_RING_TAIL_TAIL q.val) < u.ringSize q.val) ∧ (u.on (R.HRG_RING_CFG_EN q.val) = true) ∧ (16 ≤ len ∧ len ≤ 4112) ∧ (d.length = 32 + len))) ∧
    (∃ (s : State) (fn : Fin 2) (q : Fin 258) (w : Word) (d : List Byte), ∃ u, u = (settleEnded s) ∧ ∃ len, len = (leAt (natBytes d) 8 2) ∧ ((u.ringFn q.val = fn.val) ∧ (256 ≤ q.val) ∧ ((R.HRG_RING_TAIL_TAIL q.val).of w.toNat = (u.rd (R.HRG_RING_TAIL_TAIL q.val) + 1) % u.ringSize q.val) ∧ (u.rd (R.HRG_RING_TAIL_TAIL q.val) < u.ringSize q.val) ∧ (u.on (R.HRG_RING_CFG_EN q.val) = true) ∧ ((len < 16 ∨ 4112 < len)))) ∧
    (∃ (s : State) (r : Fin 128), ∃ u, u = (settleEnded s) ∧ ((u.posted (128 + r.val) = false))) ∧
    (∃ (s : State) (r : Fin 128), ∃ u, u = (settleEnded s) ∧ ∃ q, q = (128 + r.val) ∧ ((u.posted q = true) ∧ (badTxDesc (u.nextDesc q) = true))) ∧
    (∃ (s : State) (r : Fin 128) (data : List Byte), ∃ u, u = (settleEnded s) ∧ ∃ q, q = (128 + r.val) ∧ ∃ d, d = (u.nextDesc q) ∧ ∃ p, p = (d.getD 10 0 % 32) ∧ ((u.posted q = true) ∧ (badTxDesc d = false) ∧ (p < 32) ∧ ((u.port p).flight = none) ∧ (u.pauseHeld p = false) ∧ (u.isUp p = true) ∧ (u.flushing p = false) ∧ (u.txRoom p (d.getD 10 0 / 32) (max 60 (leAt d 8 2)) = true) ∧ (data.length = leAt d 8 2) ∧ (d.getD 10 0 < 256))) ∧
    (∃ (s : State) (q : Fin 258), ∃ u, u = (settleEnded s) ∧ (((u.rd (R.HRG_RING_ITR_ITR q.val) = 0 ∨ (u.ring q.val).count = 0)))) ∧
    (∃ (s : State) (q : Fin 258), ∃ u, u = (settleEnded s) ∧ ((0 < u.rd (R.HRG_RING_ITR_ITR q.val)) ∧ (0 < (u.ring q.val).count) ∧ (u.rd (R.MSIX_CTRL_MASK (u.ringFn q.val * 64 + u.rd (R.HRG_RING_CFG_VEC q.val))) = 0))) :=
  ⟨⟨z, 0, 257, _, rfl, by decide⟩,
    ⟨z, 1, 130, _, rfl, by decide⟩,
    ⟨z, 0, 130, 64, _, rfl, by decide⟩,
    ⟨z, 0, 130, 63, _, rfl, by decide⟩,
    ⟨(z.hi (R.HRG_RING_CFG_EN 130)).wr (R.HRG_RING_TAIL_TAIL 130) 62, 0, 130, 2, [List.replicate 32 (1 : Byte), List.replicate 32 2, List.replicate 32 3, List.replicate 32 4], 3, _, rfl, _, rfl, by decide⟩,
    ⟨(z.hi (R.HRG_RING_CFG_EN 257)).wr (R.HRG_RING_TAIL_TAIL 257) 63, 1, 257, 0, ((le 8 0 ++ le 2 16 ++ List.replicate 22 0 ++ List.replicate 16 0x11).map (BitVec.ofNat 8)), _, rfl, _, rfl, by decide⟩,
    ⟨(z.hi (R.HRG_RING_CFG_EN 257)).wr (R.HRG_RING_TAIL_TAIL 257) 63, 1, 257, 0, ((le 8 0 ++ le 2 15 ++ List.replicate 22 0).map (BitVec.ofNat 8)), _, rfl, _, rfl, by decide⟩,
    ⟨z, 2, _, rfl, by decide⟩,
    ⟨((z.hi (R.HRG_RING_CFG_EN 130)).lo (R.HRG_RING_CFG_QUIESCED 130)).wr (R.HRG_RING_TAIL_TAIL 130) 8 |>.wr (R.MAC_STAT_STATE 3) 3 |>.modRing 130 (fun r => { r with fetch := 7, descs := [(7, (le 8 4096 ++ le 2 1000 ++ [0x23, 0] ++ le 4 0 ++ [9, 8, 7, 6] ++ [1] ++ List.replicate 11 0))] }), 2, _, rfl, _, rfl, by decide⟩,
    ⟨((z.hi (R.HRG_RING_CFG_EN 130)).lo (R.HRG_RING_CFG_QUIESCED 130)).wr (R.HRG_RING_TAIL_TAIL 130) 8 |>.wr (R.MAC_STAT_STATE 3) 3 |>.modRing 130 (fun r => { r with fetch := 7, descs := [(7, (le 8 4096 ++ le 2 1000 ++ [0x23, 0] ++ le 4 0 ++ [9, 8, 7, 6] ++ List.replicate 12 0))] }), 2, (List.replicate 1000 7), _, rfl, _, rfl, _, rfl, _, rfl, by decide⟩,
    ⟨z, 130, _, rfl, by decide⟩,
    ⟨((z.wr (R.HRG_RING_ITR_ITR 130) 5).lo (R.MSIX_CTRL_MASK 3)).wr (R.HRG_RING_CFG_VEC 130) 3 |>.modRing 130 (fun r => { r with count := 2, since := z.tick.count - 1 }), 130, _, rfl, by decide⟩⟩

/-- The hypotheses of `Obligations.MooringLinks`, case by case, are met. -/
theorem witness_MooringLinks :
  (∃ (s : State) (l : Fin 2), (s.morState l.val < 3)) ∧
  (∃ (s : State) (l : Fin 2) (f : List Byte), (3 ≤ s.morState l.val) ∧ (morShort (natBytes f) = false) ∧ (s.goodChain l.val ((morPayload (natBytes f)).getD 44 0) ((morPayload (natBytes f)).getD 45 0) = true) ∧ (ktOf (morPayload (natBytes f)) 12 = 0) ∧ ((morPayload (natBytes f)).getD 44 0 ≠ s.stackAddr)) ∧
  (∃ (s : State) (l : Fin 2) (f : List Byte), (s.morState l.val = 4) ∧ (morShort (natBytes f) = false) ∧ (s.goodChain l.val ((morPayload (natBytes f)).getD 44 0) ((morPayload (natBytes f)).getD 45 0) = false) ∧ (ktOf (morPayload (natBytes f)) 12 = 0) ∧ ((morPayload (natBytes f)).getD 44 0 ≠ s.stackAddr)) ∧
  (∃ (s : State) (l : Fin 2) (f : List Byte), ∃ t2, t2 = (ktOf (morPayload (natBytes f)) 12) ∧ (((s.morState l.val = 3 ∨ s.morState l.val = 4)) ∧ (morShort (natBytes f) = false) ∧ (t2 ≠ 0))) ∧
  (∃ (s : State) (l : Fin 2), (s.morState l.val = 4) ∧ (4 ≤ (s.mor l.val).miss)) ∧
  (∃ (s : State) (l : Fin 2), (s.morState l.val ≠ 4 ∨ (s.mor l.val).miss < 4)) ∧
  (∃ (s : State) (l : Fin 2) (f : List Byte), (3 ≤ s.morState l.val) ∧ (morShort (natBytes f) = false)) ∧
  (∃ (s : State) (l : Fin 2), (s.morState l.val < 3)) ∧
  (∃ (s : State) (l : Fin 2), (s.morState l.val < 3)) ∧
  (∃ (s : State) (l : Fin 2) (f : List Byte), ∃ b, b = (natBytes f) ∧ ((3 ≤ s.morState l.val) ∧ (morShort b = false) ∧ (morDst b ≠ s.stackAddr ∨ s.stackAddr = 0) ∧ (morHops b ≤ 1))) ∧
  (∃ (s : State) (l : Fin 2) (f : List Byte), ∃ b, b = (natBytes f) ∧ ((3 ≤ s.morState l.val) ∧ (morShort b = false) ∧ (morDst b ≠ s.stackAddr ∨ s.stackAddr = 0) ∧ (1 < morHops b) ∧ (3 ≤ s.morState (1 - l.val)))) ∧
  (∃ (s : State) (l : Fin 2) (f : List Byte), ∃ b, b = (natBytes f) ∧ ((3 ≤ s.morState l.val) ∧ (morShort b = false) ∧ (morDst b = s.stackAddr) ∧ (s.stackAddr ≠ 0))) ∧
  (∃ (s : State) (id : Nat), (s.runningAt id = none)) ∧
  (∃ (s : State) (id : Nat) (r : Running), (s.runningAt id = some r) ∧ (r.id = id) ∧ (r.cmd.op = 0x0910) ∧ (r.ending = none)) ∧
  (∃ (s : State) (l : Fin 2), (3 ≤ s.morState l.val)) ∧
  (∃ (s : State) (l : Fin 2), (s.morState l.val < 3)) ∧
  (∃ (s : State) (l : Fin 2), (s.morState l.val = 1)) ∧
  (∃ (s : State) (l : Fin 2) (rmsRx : Nat) (rmsTx : Nat), (s.morState l.val = 2) ∧ (rmsRx ≤ 4000) ∧ (rmsTx ≤ 4000)) ∧
  (∃ (s : State) (l : Fin 2) (rmsRx : Nat) (rmsTx : Nat), (s.morState l.val = 2) ∧ (4000 < rmsRx ∨ 4000 < rmsTx)) ∧
  (∃ (s : State) (l : Fin 2), (2 ≤ s.morState l.val)) ∧
  (∃ (s : State) (l : Fin 2), (s.morState l.val < 2)) ∧
  (∃ (s : State) (l : Fin 2) (f : List Byte), (3 ≤ s.morState l.val) ∧ (morShort (natBytes f) = true)) :=
  ⟨⟨z, 1, by decide⟩,
    ⟨(z.wr (R.MOR_LINK_STAT_STATE 1) 3).wr R.MOR_STAT_FABRIC 3 |>.wr R.MOR_STAT_MASTER 2 |>.wr R.MOR_STAT_ADDR 5, 1, (([1, 3, 0, 0] ++ le 2 7 ++ le 2 ((ktBytes 1000000000 ++ ktBytes 0 ++ ktBytes 900000000 ++ le 8 77 ++ [2, 3, 2, 0])).length ++ (ktBytes 1000000000 ++ ktBytes 0 ++ ktBytes 900000000 ++ le 8 77 ++ [2, 3, 2, 0])).map (BitVec.ofNat 8)), by decide⟩,
    ⟨(z.wr (R.MOR_LINK_STAT_STATE 1) 4).wr R.MOR_STAT_FABRIC 3 |>.wr R.MOR_STAT_MASTER 2 |>.wr R.MOR_STAT_ADDR 5, 1, (([1, 3, 0, 0] ++ le 2 7 ++ le 2 ((ktBytes 1000000000 ++ ktBytes 0 ++ ktBytes 900000000 ++ le 8 77 ++ [2, 8, 2, 0])).length ++ (ktBytes 1000000000 ++ ktBytes 0 ++ ktBytes 900000000 ++ le 8 77 ++ [2, 8, 2, 0])).map (BitVec.ofNat 8)), by decide⟩,
    ⟨(z.wr (R.MOR_LINK_STAT_STATE 1) 3).wr R.MOR_STAT_FABRIC 3 |>.wr R.MOR_STAT_MASTER 2 |>.wr R.MOR_STAT_ADDR 5, 1, (([1, 3, 0, 0] ++ le 2 7 ++ le 2 ((ktBytes 1000000000 ++ ktBytes 900001000 ++ ktBytes 900000000 ++ le 8 77 ++ [2, 1, 2, 0])).length ++ (ktBytes 1000000000 ++ ktBytes 900001000 ++ ktBytes 900000000 ++ le 8 77 ++ [2, 1, 2, 0])).map (BitVec.ofNat 8)), _, rfl, by decide⟩,
    ⟨(z.wr (R.MOR_LINK_STAT_STATE 1) 4).modMor 1 (fun k => { k with miss := 4 }), 1, by decide⟩,
    ⟨z, 1, by decide⟩,
    ⟨(z.wr (R.MOR_LINK_STAT_STATE 1) 3), 1, (([3, 3, 0, 0] ++ le 2 7 ++ le 2 2 ++ [5, 6]).map (BitVec.ofNat 8)), by decide⟩,
    ⟨z, 1, by decide⟩,
    ⟨z, 1, by decide⟩,
    ⟨(z.wr (R.MOR_LINK_STAT_STATE 1) 3), 1, (([2, 3, 6, 1] ++ le 2 7 ++ le 2 ([1, 2, 3]).length ++ [1, 2, 3]).map (BitVec.ofNat 8)), _, rfl, by decide⟩,
    ⟨((z.wr (R.MOR_LINK_STAT_STATE 1) 3)).wr (R.MOR_LINK_STAT_STATE 0) 4, 1, (([2, 3, 6, 7] ++ le 2 7 ++ le 2 ([1, 2, 3]).length ++ [1, 2, 3]).map (BitVec.ofNat 8)), _, rfl, by decide⟩,
    ⟨(z.wr (R.MOR_LINK_STAT_STATE 1) 3).wr R.MOR_STAT_FABRIC 3 |>.wr R.MOR_STAT_MASTER 2 |>.wr R.MOR_STAT_ADDR 5, 1, (([2, 3, 5, 7] ++ le 2 7 ++ le 2 ((le 4 0x00070001 ++ le 2 0 ++ [0, 0] ++ le 8 0)).length ++ (le 4 0x00070001 ++ le 2 0 ++ [0, 0] ++ le 8 0)).map (BitVec.ofNat 8)), _, rfl, by decide⟩,
    ⟨z, 4, by decide⟩,
    ⟨{ z with fw := { z.fw with running := [{ id := 4, since := 5, cmd := { bytes := le 2 0x0910 ++ List.replicate 40 0 } }] } }, 4, ({ id := 4, since := 5, cmd := { bytes := le 2 0x0910 ++ List.replicate 40 0 } }), by decide⟩,
    ⟨(z.wr (R.MOR_LINK_STAT_STATE 1) 3).wr (R.MOR_LINK_ERR_FRAME_ERR 1) 65535, 1, by decide⟩,
    ⟨z, 1, by decide⟩,
    ⟨(z.wr (R.MOR_LINK_STAT_STATE 1) 1), 1, by decide⟩,
    ⟨(z.wr (R.MOR_LINK_STAT_STATE 1) 2), 1, 4000, 0, by decide⟩,
    ⟨(z.wr (R.MOR_LINK_STAT_STATE 1) 2), 1, 4001, 0, by decide⟩,
    ⟨(z.wr (R.MOR_LINK_STAT_STATE 1) 4), 1, by decide⟩,
    ⟨z, 1, by decide⟩,
    ⟨(z.wr (R.MOR_LINK_STAT_STATE 1) 3), 1, (([1, 3, 0, 0] ++ le 2 7 ++ le 2 2 ++ [5]).map (BitVec.ofNat 8)), by decide⟩⟩

/-- The hypotheses of `Obligations.TenderBus`, case by case, are met. -/
theorem witness_TenderBus :
  (∃ (s : State), (s.stack.tx = [] ∨ s.fabric = 0 ∨ s.inTest = true ∨ s.stack.backoff.isSome = true)) ∧
  (∃ (s : State) (f : List Nat) (rest : List (List Nat)), (s.stack.tx = f :: rest) ∧ (s.fabric ≠ 0) ∧ (s.inTest = false) ∧ (s.stack.backoff = none)) ∧
  (∃ (s : State) (f : List Nat) (rest : List (List Nat)), (s.stack.tx = f :: rest) ∧ (s.fabric ≠ 0) ∧ (s.inTest = false) ∧ (s.stack.backoff = none)) ∧
  (∃ (s : State), (s.stack.backoff = none)) ∧
  (∃ (s : State) (at_ : Nat), (s.stack.backoff = some at_)) ∧
  (∃ (s : State), (s.fabric = 0)) ∧
  (∃ (s : State), (s.fabric ≠ 0)) ∧
  (∃ (s : State), (s.fabric = 0)) ∧
  (∃ (s : State), (s.fabric ≠ 0)) ∧
  (∃ (s : State) (f : TndFrame), (s.tndTakes f.dst.toNat = true)) ∧
  (∃ (s : State) (f : TndFrame) (at_ v : Nat), (s.tndTakes f.dst.toNat = true) ∧ (IMap.get none s.stack.pings f.src.toNat = some (at_, v)) ∧ (s.clk ≤ at_ + ms16 2) ∧ (leAt (natBytes f.payload) 0 8 = v)) ∧
  (∃ (s : State) (f : TndFrame), (s.tndTakes f.dst.toNat = true) ∧ (IMap.get none s.stack.pings f.src.toNat = none)) ∧
  (∃ (s : State) (f : TndFrame) (at_ v : Nat), (s.tndTakes f.dst.toNat = true) ∧ (IMap.get none s.stack.pings f.src.toNat = some (at_, v)) ∧ ((at_ + ms16 2 < s.clk ∨ leAt (natBytes f.payload) 0 8 ≠ v))) ∧
  (∃ (s : State) (f : TndFrame), (s.tndTakes f.dst.toNat = false)) ∧
  (∃ (s : State) (f : TndFrame), (s.tndTakes f.dst.toNat = false)) ∧
  (∃ (s : State) (f : TndFrame), (s.tndTakes f.dst.toNat = false)) ∧
  (∃ (s : State) (f : TndFrame), (s.tndTakes f.dst.toNat = false)) ∧
  (∃ (s : State) (f : TndFrame), (s.tndTakes f.dst.toNat = false)) ∧
  (∃ (s : State) (f : TndFrame), (s.tndTakes f.dst.toNat = false)) ∧
  (∃ (s : State) (f : TndFrame), (s.tndTakes f.dst.toNat = false)) ∧
  (∃ (s : State) (f : TndFrame), (s.tndTakes f.dst.toNat = false)) :=
  ⟨⟨z, by decide⟩,
    ⟨{ (z.wr R.MOR_STAT_FABRIC 3) with stack := { z.stack with tx := [tndFrame 0xFF 2 1 (List.replicate 12 9), tndFrame 3 2 7 [1, 2, 3, 4, 5, 6, 7, 8]] } }, (tndFrame 0xFF 2 1 (List.replicate 12 9)), [tndFrame 3 2 7 [1, 2, 3, 4, 5, 6, 7, 8]], by decide⟩,
    ⟨{ (z.wr R.MOR_STAT_FABRIC 3) with stack := { z.stack with tx := [tndFrame 3 2 7 [1, 2, 3, 4, 5, 6, 7, 8]] } }, (tndFrame 3 2 7 [1, 2, 3, 4, 5, 6, 7, 8]), [], by decide⟩,
    ⟨z, by decide⟩,
    ⟨z.modStack (fun k => { k with backoff := some 77 }), 77, by decide⟩,
    ⟨z, by decide⟩,
    ⟨(z.wr R.MOR_STAT_FABRIC 3), by decide⟩,
    ⟨z, by decide⟩,
    ⟨(z.wr R.MOR_STAT_FABRIC 1), by decide⟩,
    ⟨(z.wr R.MOR_STAT_FABRIC 3).wr R.MOR_STAT_ADDR 2, (⟨2, 3, [1, 2, 3, 4, 5, 6, 7, 8]⟩), by decide⟩,
    ⟨(z.wr R.MOR_STAT_FABRIC 3).wr R.MOR_STAT_ADDR 2 |>.modStack (fun k => { k with pings := [(3, some (z.clk, 513))] }), (⟨2, 3, [1, 2, 0, 0, 0, 0, 0, 0]⟩), z.clk, 513, by decide⟩,
    ⟨(z.wr R.MOR_STAT_FABRIC 3), (⟨0xFF, 3, []⟩), by decide⟩,
    ⟨(z.wr R.MOR_STAT_FABRIC 3).wr R.MOR_STAT_ADDR 2 |>.modStack (fun k => { k with pings := [(3, some (z.clk, 513))] }), (⟨2, 3, [1, 2, 0, 0, 0, 0, 0, 1]⟩), z.clk, 513, by decide⟩,
    ⟨z, (⟨2, 3, [1, 2, 0, 0, 0, 0, 0, 1]⟩), by decide⟩,
    ⟨z, (⟨2, 3, [1, 2, 0, 0, 0, 0, 0, 1]⟩), by decide⟩,
    ⟨z, (⟨2, 3, [1, 2, 0, 0, 0, 0, 0, 1]⟩), by decide⟩,
    ⟨z, (⟨2, 3, [1, 2, 0, 0, 0, 0, 0, 1]⟩), by decide⟩,
    ⟨z, (⟨2, 3, [1, 2, 0, 0, 0, 0, 0, 1]⟩), by decide⟩,
    ⟨z, (⟨2, 3, [1, 2, 0, 0, 0, 0, 0, 1]⟩), by decide⟩,
    ⟨z, (⟨2, 3, [1, 2, 0, 0, 0, 0, 0, 1]⟩), by decide⟩,
    ⟨z, (⟨2, 3, [1, 2, 0, 0, 0, 0, 0, 1]⟩), by decide⟩⟩

/-- The hypotheses of `Obligations.StackFormation`, case by case, are met. -/
theorem witness_StackFormation :
    (∃ (s : State) (w : Word), (s.fabric = 0) ∧ (w.toNat % 2 = 1)) ∧
    (∃ (s : State) (w : Word), (s.fabric ≠ 0) ∧ (w.toNat % 2 = 1)) ∧
    (∃ (s : State) (w : Word), (s.fabric ≠ 0) ∧ (w.toNat % 2 = 0)) ∧
    (∃ (s : State) (w : Word), (s.fabric = 0) ∧ (w.toNat % 2 = 0)) ∧
    (∃ (s : State) (f : TndFrame), (s.tndTakes f.dst.toNat = true) ∧ (1 ≤ f.src.toNat ∧ f.src.toNat ≤ 8) ∧ (bit ((natBytes f.payload).getD 9 0) 1 = false) ∧ ((natBytes f.payload).getD 9 0 % 2 = 0) ∧ (s.fabric = 3)) ∧
    (∃ (s : State) (f : TndFrame), (s.tndTakes f.dst.toNat = true) ∧ (f.src.toNat = 0) ∧ (bit ((natBytes f.payload).getD 9 0) 1 = false) ∧ ((natBytes f.payload).getD 9 0 % 2 = 0) ∧ (s.fabric = 3)) ∧
    (∃ (s : State) (f : TndFrame), (s.tndTakes f.dst.toNat = true) ∧ (f.src.toNat = s.masterAddr) ∧ (1 ≤ f.src.toNat ∧ f.src.toNat ≤ 8) ∧ (bit ((natBytes f.payload).getD 9 0) 1 = true) ∧ ((natBytes f.payload).getD 9 0 % 2 = 0) ∧ (s.fabric = 3)) ∧
    (∃ (s : State) (f : TndFrame), (s.tndTakes f.dst.toNat = true) ∧ (1 ≤ f.src.toNat ∧ f.src.toNat ≤ 8) ∧ (bit ((natBytes f.payload).getD 9 0) 1 = true) ∧ ((natBytes f.payload).getD 9 0 % 2 = 0) ∧ (s.fabric = 3) ∧ (s.stack.heirOf = some f.src.toNat) ∧ (f.src.toNat ≠ s.masterAddr)) ∧
    (∃ (s : State) (f : TndFrame), (s.tndTakes f.dst.toNat = true) ∧ (bit ((natBytes f.payload).getD 9 0) 1 = true) ∧ ((natBytes f.payload).getD 9 0 % 2 = 0) ∧ (s.fabric = 2) ∧ (s.masterAddr = 0) ∧ (s.stack.heirOf = none) ∧ (f.src.toNat ≠ 0 ∧ f.src.toNat ≤ 8)) ∧
    (∃ (s : State) (f : TndFrame), (s.tndTakes f.dst.toNat = true) ∧ (s.fabric ≠ 1 ∨ leAt (natBytes f.payload) 0 8 ≠ ownUid ∨ (natBytes f.payload).getD 8 0 = 0 ∨ 8 < (natBytes f.payload).getD 8 0)) ∧
    (∃ (s : State) (f : TndFrame), (s.tndTakes f.dst.toNat = true) ∧ (s.fabric = 3)) ∧
    (∃ (s : State) (f : TndFrame), (s.tndTakes f.dst.toNat = true) ∧ (s.fabric ≠ 3)) ∧
    (∃ (s : State) (f : TndFrame), (s.tndTakes f.dst.toNat = true) ∧ (s.fabric = 4) ∧ (f.src.toNat ≠ s.stackAddr)) ∧
    (∃ (s : State) (f : TndFrame), (s.tndTakes f.dst.toNat = true) ∧ (s.fabric ≠ 4)) ∧
    (∃ (s : State), (s.fabric ≠ 4)) ∧
    (∃ (s : State), (s.fabric = 4)) ∧
    (∃ (s : State) (f : TndFrame), (s.tndTakes f.dst.toNat = true) ∧ (s.fabric = 3) ∧ ((natBytes f.payload).getD 0 0 ≠ 0)) ∧
    (∃ (s : State) (f : TndFrame), (s.tndTakes f.dst.toNat = true) ∧ (s.fabric ≠ 3 ∨ (natBytes f.payload).getD 0 0 = 0)) ∧
    (∃ (s : State), (s.fabric ≠ 4 ∨ s.on R.MOR_STAT_RING_OK = false ∨ s.stack.win ≠ s.closeWin ∨ s.stack.spoilt = some s.closeWin ∨ s.stack.numW = 0 ∨ s.stack.numE = 0)) ∧
    (∃ (s : State), (s.fabric = 4) ∧ (s.on R.MOR_STAT_RING_OK = true) ∧ (s.stack.win = s.closeWin) ∧ (s.stack.spoilt ≠ some s.closeWin) ∧ (s.stack.numW ≠ 0) ∧ (s.stack.numE ≠ 0)) ∧
    (∃ (s : State) (f : TndFrame), (s.tndTakes f.dst.toNat = true) ∧ (s.fabric = 3) ∧ (f.src.toNat = s.masterAddr)) ∧
    (∃ (s : State) (f : TndFrame), (s.tndTakes f.dst.toNat = true) ∧ (s.fabric ≠ 3 ∨ f.src.toNat ≠ s.masterAddr)) ∧
    (∃ (s : State), (s.stack.handover = none ∨ s.fabric ≠ 4)) ∧
    (∃ (s : State) (a : Nat) (at_ : Nat), (s.stack.handover = some (a, at_)) ∧ (s.fabric = 4)) ∧
    (∃ (s : State), (s.fabric = 0 ∨ s.fabric = 2 ∨ s.fabric = 4)) ∧
    (∃ (s : State), (s.fabric = 3) ∧ (s.morTimed 0 = true ∨ s.morTimed 1 = true)) ∧
    (∃ (s : State), (s.fabric = 3) ∧ (s.morTimed 0 = false) ∧ (s.morTimed 1 = false)) ∧
    (∃ (s : State), (s.fabric = 1)) ∧
    (∃ (s : State), (s.fabric ≠ 2)) ∧
    (∃ (s : State), (s.fabric = 2)) ∧
    (∃ (s : State) (a : Fin 8), (IMap.get none s.stack.heard (a.val + 1) = none ∨ s.fabric = 0 ∨ s.nodeUid (a.val + 1) = 0)) ∧
    (∃ (s : State) (a : Fin 8) (at_ : Nat), (IMap.get none s.stack.heard (a.val + 1) = some at_) ∧ (s.fabric = 3) ∧ (s.nodeUid (a.val + 1) ≠ 0)) :=
  ⟨⟨z, 0x00644003, by decide⟩,
    ⟨(z.wr R.MOR_STAT_FABRIC 3).wr R.MOR_STAT_ADDR 2 |>.wr R.MOR_STAT_MASTER 1, 0x00644001, by decide⟩,
    ⟨((z.wr R.MOR_STAT_FABRIC 3).wr R.MOR_STAT_ADDR 2 |>.wr R.MOR_STAT_MASTER 1).wr (R.MOR_LINK_STAT_STATE 1) 4, 0x00644000, by decide⟩,
    ⟨z, 0x00648000, by decide⟩,
    ⟨(z.wr R.MOR_STAT_FABRIC 3).wr R.MOR_STAT_ADDR 2 |>.wr R.MOR_STAT_MASTER 1, (⟨0xFF, 4, ((le 8 0x1122334455667788 ++ [200, 0, 0, 0]).map (BitVec.ofNat 8))⟩), by decide⟩,
    ⟨(z.wr R.MOR_STAT_FABRIC 3).wr R.MOR_STAT_ADDR 2 |>.wr R.MOR_STAT_MASTER 1, (⟨0xFF, 0, ((le 8 0x1122334455667788 ++ [200, 0, 0, 0]).map (BitVec.ofNat 8))⟩), by decide⟩,
    ⟨(z.wr R.MOR_STAT_FABRIC 3).wr R.MOR_STAT_ADDR 2 |>.wr R.MOR_STAT_MASTER 1, (⟨0xFF, 1, ((le 8 0x1122334455667788 ++ [200, 2, 1, 0]).map (BitVec.ofNat 8))⟩), by decide⟩,
    ⟨((z.wr R.MOR_STAT_FABRIC 3).wr R.MOR_STAT_ADDR 2 |>.wr R.MOR_STAT_MASTER 1).wr (R.MOR_LINK_STAT_STATE 1) 4 |>.modStack (fun k => { k with heirOf := some 4 }), (⟨0xFF, 4, ((le 8 0x1122334455667788 ++ [200, 2, 4, 0]).map (BitVec.ofNat 8))⟩), by decide⟩,
    ⟨(z.wr R.MOR_STAT_FABRIC 2), (⟨0xFF, 4, ((le 8 0x1122334455667788 ++ [200, 2, 4, 0]).map (BitVec.ofNat 8))⟩), by decide⟩,
    ⟨(z.wr R.MOR_STAT_FABRIC 3).wr R.MOR_STAT_ADDR 2 |>.wr R.MOR_STAT_MASTER 1, (⟨0xFF, 1, ((le 8 ownUid ++ [6, 0, 0, 0]).map (BitVec.ofNat 8))⟩), by decide⟩,
    ⟨(z.wr R.MOR_STAT_FABRIC 3).wr R.MOR_STAT_ADDR 2 |>.wr R.MOR_STAT_MASTER 1, (⟨0xFF, 1, [9, 1, 1, 3, 1, 2, 5, 0, 0, 0, 0, 0]⟩), by decide⟩,
    ⟨(z.wr R.MOR_STAT_FABRIC 4).wr R.MOR_STAT_ADDR 1 |>.wr R.MOR_STAT_MASTER 1, (⟨0xFF, 1, [9, 1, 1, 3, 1, 2, 5, 0, 0, 0, 0, 0]⟩), by decide⟩,
    ⟨(z.wr R.MOR_STAT_FABRIC 4).wr R.MOR_STAT_ADDR 1 |>.wr R.MOR_STAT_MASTER 1, (⟨1, 2, [0, 0, 1, 4, 1, 4, 0, 0]⟩), by decide⟩,
    ⟨(z.wr R.MOR_STAT_FABRIC 3).wr R.MOR_STAT_ADDR 2 |>.wr R.MOR_STAT_MASTER 1, (⟨2, 1, [0, 0, 1, 4, 1, 4, 0, 0]⟩), by decide⟩,
    ⟨(z.wr R.MOR_STAT_FABRIC 3).wr R.MOR_STAT_ADDR 2 |>.wr R.MOR_STAT_MASTER 1, by decide⟩,
    ⟨(z.wr R.MOR_STAT_FABRIC 4).wr R.MOR_STAT_ADDR 1 |>.wr R.MOR_STAT_MASTER 1, by decide⟩,
    ⟨(z.wr R.MOR_STAT_FABRIC 3).wr R.MOR_STAT_ADDR 2 |>.wr R.MOR_STAT_MASTER 1, (⟨0xFF, 1, [4, 0, 0, 0, 200, 0, 0, 0, 0x4C, 0xFF, 0xFF, 0xFF]⟩), by decide⟩,
    ⟨(z.wr R.MOR_STAT_FABRIC 4).wr R.MOR_STAT_ADDR 1 |>.wr R.MOR_STAT_MASTER 1, (⟨0xFF, 1, [4, 0, 0, 0, 200, 0, 0, 0, 0x4C, 0xFF, 0xFF, 0xFF]⟩), by decide⟩,
    ⟨(z.wr R.MOR_STAT_FABRIC 3).wr R.MOR_STAT_ADDR 2 |>.wr R.MOR_STAT_MASTER 1, by decide⟩,
    ⟨((z.wr R.MOR_STAT_FABRIC 4).wr R.MOR_STAT_ADDR 1 |>.wr R.MOR_STAT_MASTER 1).hi R.MOR_STAT_RING_OK |>.wr R.MOR_STAT_N 4 |>.modStack (fun k => { k with win := ((z.wr R.MOR_STAT_FABRIC 4).wr R.MOR_STAT_ADDR 1 |>.wr R.MOR_STAT_MASTER 1).closeWin, numW := 10, numE := 10, sumW := 131072, sumE := -117965 }), by decide⟩,
    ⟨(z.wr R.MOR_STAT_FABRIC 3).wr R.MOR_STAT_ADDR 2 |>.wr R.MOR_STAT_MASTER 1, (⟨0xFF, 1, [2, 0, 0, 0, 0, 0, 0, 0]⟩), by decide⟩,
    ⟨(z.wr R.MOR_STAT_FABRIC 3).wr R.MOR_STAT_ADDR 2 |>.wr R.MOR_STAT_MASTER 1, (⟨0xFF, 4, [2, 0, 0, 0, 0, 0, 0, 0]⟩), by decide⟩,
    ⟨(z.wr R.MOR_STAT_FABRIC 3).wr R.MOR_STAT_ADDR 2 |>.wr R.MOR_STAT_MASTER 1, by decide⟩,
    ⟨((z.wr R.MOR_STAT_FABRIC 4).wr R.MOR_STAT_ADDR 1 |>.wr R.MOR_STAT_MASTER 1).modStack (fun k => { k with handover := some (3, 0) }), 3, 0, by decide⟩,
    ⟨z, by decide⟩,
    ⟨((z.wr R.MOR_STAT_FABRIC 3).wr R.MOR_STAT_ADDR 2 |>.wr R.MOR_STAT_MASTER 1).wr (R.MOR_LINK_STAT_STATE 1) 4, by decide⟩,
    ⟨(z.wr R.MOR_STAT_FABRIC 3).wr R.MOR_STAT_ADDR 2 |>.wr R.MOR_STAT_MASTER 1, by decide⟩,
    ⟨(z.wr R.MOR_STAT_FABRIC 1), by decide⟩,
    ⟨(z.wr R.MOR_STAT_FABRIC 3).wr R.MOR_STAT_ADDR 2 |>.wr R.MOR_STAT_MASTER 1, by decide⟩,
    ⟨(z.wr R.MOR_STAT_FABRIC 2).wr (R.MOR_LINK_STAT_STATE 1) 4, by decide⟩,
    ⟨z, 3, by decide⟩,
    ⟨((z.wr R.MOR_STAT_FABRIC 3).wr R.MOR_STAT_ADDR 2 |>.wr R.MOR_STAT_MASTER 1).wr (R.TND_NODE_UID_HI_UID 3) 8 |>.wr R.TND_STAT_HEARD 0xFF |>.modStack (fun k => { k with heard := [(4, some 9)] }), 3, 9, by decide⟩⟩

/-- The hypotheses of `Obligations.MailboxLocks`, case by case, are met. -/
theorem witness_MailboxLocks :
    (∃ (s : State) (c : Fin 16) (p : MbxPath), (s.mbxOpen c.val (pathId p) = true) ∧ ((c.val < 8 ∨ reachesSecure p = true)) ∧ (s.mbxState c.val = 0) ∧ (s.rxDown c.val = false)) ∧
    (∃ (s : State) (c : Fin 16) (p q : MbxPath), (s.mbxOpen c.val (pathId p) = true) ∧ (mbxAccepts c.val (pathId q) = true) ∧ ((c.val < 8 ∨ (reachesSecure p = true ∧ reachesSecure q = true))) ∧ (pathId p < pathId q) ∧ (s.mbxState c.val = 0) ∧ (s.rxDown c.val = false)) ∧
    (∃ (s : State) (c : Fin 16) (p q : MbxPath), (s.mbxOpen c.val (pathId p) = true) ∧ (mbxAccepts c.val (pathId q) = true) ∧ ((c.val < 8 ∨ (reachesSecure p = true ∧ reachesSecure q = true))) ∧ (pathId p < pathId q) ∧ (s.mbxState c.val = 0) ∧ (s.rxDown c.val = false)) ∧
    (∃ (s : State) (c : Fin 16) (p : MbxPath), (s.mbxOpen c.val (pathId p) = true) ∧ ((c.val < 8 ∨ reachesSecure p = true)) ∧ (s.mbxState c.val ≠ 0) ∧ (s.rxDown c.val = false)) ∧
    (∃ (s : State) (c : Fin 16) (p : MbxPath), (s.mbxOpen c.val (pathId p) = false) ∧ ((c.val < 8 ∨ reachesSecure p = true)) ∧ ((s.rxDown c.val = false ∨ pathId p = mbxReceiver c.val))) ∧
    (∃ (s : State) (c : Fin 16) (p : MbxPath), (s.rxDown c.val = true) ∧ (pathId p ≠ mbxReceiver c.val) ∧ (c.val < 8 ∨ p ≠ .host 0) ∧ (c.val < 8 ∨ (reachesSecure p = true ∧ (c.val < 12 ∨ pathId p ≠ 2)))) ∧
    (∃ (s : State) (c : Fin 16) (p : MbxPath), (s.rxDown c.val = true ∨ reachesSecure p = false) ∧ (pathId p ≠ mbxReceiver c.val ∨ reachesSecure p = false) ∧ (c.val < 8 ∨ p ≠ .host 0) ∧ (8 ≤ c.val ∧ (reachesSecure p = false ∨ (12 ≤ c.val ∧ pathId p = 2)))) ∧
    (∃ (c : Fin 16), (8 ≤ c.val)) :=
  ⟨⟨z.hi R.DEV_DIE_STAT_KFW_RUN, 2, (.beacon 1), by decide⟩,
    ⟨z.hi R.DEV_DIE_STAT_KFW_RUN, 2, (.beacon 1), (.beacon 2), by decide⟩,
    ⟨z.hi R.DEV_DIE_STAT_KFW_RUN, 2, (.beacon 1), (.beacon 2), by decide⟩,
    ⟨(z.hi R.DEV_DIE_STAT_KFW_RUN).wr (R.MBX_STAT_STATE 2) 2 |>.wr (R.MBX_STAT_OWNER 2) 6, 2, (.beacon 1), by decide⟩,
    ⟨(z.hi R.DEV_DIE_STAT_KFW_RUN).wr (R.MBX_STAT_STATE 2) 2 |>.wr (R.MBX_STAT_OWNER 2) 6, 2, (.host 1), by decide⟩,
    ⟨z, 2, (.beacon 1), by decide⟩,
    ⟨z, 9, (.beacon 1), by decide⟩,
    ⟨9, by decide⟩⟩

/-- The hypotheses of `Obligations.MailboxAccesses`, case by case, are met. -/
theorem witness_MailboxAccesses :
    (∃ (s : State) (c : Fin 16) (p : MbxPath), (s.asOwner c.val p = true) ∧ (s.mbxState c.val = 1 ∨ s.mbxState c.val = 3)) ∧
    (∃ (s : State) (c : Fin 16) (p : MbxPath), (s.asOwner c.val p = true) ∧ (s.mbxState c.val = 1)) ∧
    (∃ (s : State) (c : Fin 16) (p : MbxPath), (s.asReceiver c.val p = true) ∧ (s.mbxState c.val = 2)) ∧
    (∃ (s : State) (c : Fin 16) (p : MbxPath), (s.asReceiver c.val p = true) ∧ (s.mbxState c.val = 2)) ∧
    (∃ (s : State) (c : Fin 16) (p : MbxPath) (w : Option Word), (c.val < 8 ∨ p ≠ .host 0) ∧ (s.asOwner c.val p = false ∨ ¬ (s.mbxState c.val = 1 ∨ (s.mbxState c.val = 3 ∧ w = none))) ∧ (s.asReceiver c.val p = false ∨ s.mbxState c.val ≠ 2) ∧ (c.val < 8 ∨ (reachesSecure p = true ∧ (c.val < 12 ∨ pathId p ≠ 2)))) ∧
    (∃ (s : State) (c : Fin 16) (p : MbxPath) (w : Option Word), (c.val < 8 ∨ p ≠ .host 0) ∧ (s.asOwner c.val p = false ∨ ¬ (s.mbxState c.val = 1 ∨ (s.mbxState c.val = 3 ∧ w = none))) ∧ (s.asReceiver c.val p = false ∨ s.mbxState c.val ≠ 2) ∧ (8 ≤ c.val ∧ (reachesSecure p = false ∨ (12 ≤ c.val ∧ pathId p = 2)))) ∧
    (∃ (c : Fin 16), (8 ≤ c.val)) ∧
    (∃ (s : State) (c : Fin 16) (p : MbxPath) (w : Word), (s.asOwner c.val p = true) ∧ (s.mbxState c.val = 1) ∧ ((w.toNat ||| 1) % 16 = 1)) ∧
    (∃ (s : State) (c : Fin 16) (p : MbxPath) (w : Word), (c.val < 8 ∨ p ≠ .host 0) ∧ (c.val < 8 ∨ (reachesSecure p = true ∧ (c.val < 12 ∨ pathId p ≠ 2))) ∧ (s.asOwner c.val p = false ∨ s.mbxState c.val ≠ 1 ∨ (w.toNat ||| 1) % 16 ≠ 1)) ∧
    (∃ (s : State) (c : Fin 16) (p : MbxPath) (w : Word), (s.asReceiver c.val p = true) ∧ (s.mbxState c.val = 2) ∧ (s.on (R.MBX_STAT_ORPHAN c.val) = false) ∧ (s.mbxOwner c.val < 8) ∧ ((w.toNat ||| 2) % 16 = 2)) ∧
    (∃ (s : State) (c : Fin 16) (p : MbxPath) (w : Word), (s.asReceiver c.val p = true) ∧ (s.mbxState c.val = 2) ∧ (s.on (R.MBX_STAT_ORPHAN c.val) = true) ∧ ((w.toNat ||| 2) % 16 = 2)) ∧
    (∃ (s : State) (c : Fin 16) (p : MbxPath) (w : Word), (s.asReceiver c.val p = true) ∧ (s.mbxState c.val = 2) ∧ (s.on (R.MBX_STAT_ORPHAN c.val) = false) ∧ (8 ≤ s.mbxOwner c.val) ∧ (s.stack.relayQ = []) ∧ ((w.toNat ||| 2) % 16 = 2)) ∧
    (∃ (s : State) (c : Fin 16) (p : MbxPath) (w : Word), (s.asReceiver c.val p = true) ∧ (s.mbxState c.val = 2) ∧ (s.on (R.MBX_STAT_ORPHAN c.val) = false) ∧ (8 ≤ s.mbxOwner c.val) ∧ (s.stack.relayQ ≠ []) ∧ ((w.toNat ||| 2) % 16 = 2)) ∧
    (∃ (s : State) (c : Fin 16) (p : MbxPath) (w : Word), (c.val < 8 ∨ p ≠ .host 0) ∧ (c.val < 8 ∨ (reachesSecure p = true ∧ (c.val < 12 ∨ pathId p ≠ 2))) ∧ (s.asReceiver c.val p = false ∨ s.mbxState c.val ≠ 2 ∨ (w.toNat ||| 2) % 16 ≠ 2)) ∧
    (∃ (s : State) (c : Fin 16) (p : MbxPath) (w : Word), (s.asOwner c.val p = true) ∧ (s.mbxState c.val = 1 ∨ s.mbxState c.val = 3) ∧ (s.stack.relayQ = []) ∧ ((w.toNat ||| 4) % 16 = 4)) ∧
    (∃ (s : State) (c : Fin 16) (p : MbxPath) (w : Word), (s.asOwner c.val p = true) ∧ (s.mbxState c.val = 1 ∨ s.mbxState c.val = 3) ∧ (c.val ≠ 3 ∧ c.val ≠ 11) ∧ ((w.toNat ||| 4) % 16 = 4)) ∧
    (∃ (s : State) (c : Fin 16) (p : MbxPath) (w : Word), (s.asOwner c.val p = true) ∧ (s.mbxState c.val = 1 ∨ s.mbxState c.val = 3) ∧ (c.val = 3 ∨ c.val = 11) ∧ (s.stack.relayQ ≠ []) ∧ ((w.toNat ||| 4) % 16 = 4)) ∧
    (∃ (s : State) (c : Fin 16) (p : MbxPath) (w : Word), (c.val < 8 ∨ p ≠ .host 0) ∧ (c.val < 8 ∨ (reachesSecure p = true ∧ (c.val < 12 ∨ pathId p ≠ 2))) ∧ (s.asOwner c.val p = false ∨ s.mbxState c.val = 0 ∨ s.mbxState c.val = 2 ∨ (w.toNat ||| 4) % 16 ≠ 4)) ∧
    (∃ (s : State) (c : Fin 16) (p : MbxPath) (w : Word), (c.val < 8 ∨ p ≠ .host 0) ∧ (8 ≤ c.val ∧ (reachesSecure p = false ∨ (12 ≤ c.val ∧ pathId p = 2))) ∧ (s.asOwner c.val p = false ∨ s.mbxState c.val ≠ 1 ∨ (w.toNat ||| 1) % 16 ≠ 1)) ∧
    (∃ (s : State) (c : Fin 16) (p : MbxPath) (w : Word), (c.val < 8 ∨ p ≠ .host 0) ∧ (8 ≤ c.val ∧ (reachesSecure p = false ∨ (12 ≤ c.val ∧ pathId p = 2))) ∧ (s.asReceiver c.val p = false ∨ s.mbxState c.val ≠ 2 ∨ (w.toNat ||| 2) % 16 ≠ 2)) ∧
    (∃ (s : State) (c : Fin 16) (p : MbxPath) (w : Word), (c.val < 8 ∨ p ≠ .host 0) ∧ (8 ≤ c.val ∧ (reachesSecure p = false ∨ (12 ≤ c.val ∧ pathId p = 2))) ∧ (s.asOwner c.val p = false ∨ s.mbxState c.val = 0 ∨ s.mbxState c.val = 2 ∨ (w.toNat ||| 4) % 16 ≠ 4)) ∧
    (∃ (c : Fin 16), (8 ≤ c.val)) ∧
    (∃ (c : Fin 16), (8 ≤ c.val)) ∧
    (∃ (c : Fin 16), (8 ≤ c.val)) ∧
    (∃ (c : Fin 16) (p : MbxPath), ((c.val < 8 ∨ reachesSecure p = true))) ∧
    (∃ (s : State) (c : Fin 16) (p : MbxPath), ((c.val < 8 ∨ reachesSecure p = true)) ∧ (s.barredOther c.val p = false)) ∧
    (∃ (s : State) (c : Fin 16) (p : MbxPath), ((c.val < 8 ∨ p ≠ .host 0)) ∧ (s.barredOther c.val p = false)) ∧
    (∃ (s : State) (c : Fin 16) (r : MbxReg) (p : MbxPath) (w : Option Word), ((r = .stat ∨ r = .ctl ∨ r = .lock)) ∧ ((c.val < 8 ∨ p ≠ .host 0)) ∧ (((r = .stat ∧ ((w = none ∧ 8 ≤ c.val ∧ reachesSecure p = false) ∨ (w ≠ none ∧ s.barredOther c.val p = true))) ∨ (r = .ctl ∧ w = none ∧ s.barredOther c.val p = true) ∨ (r = .lock ∧ w ≠ none)))) ∧
    (∃ (s : State) (c : Fin 16) (p : MbxPath) (w : Word), (s.asOwner c.val p = true) ∧ (pathId p = 3) ∧ (s.mbxState c.val = 2) ∧ (w.toNat % 16 = 8)) ∧
    (∃ (s : State) (c : Fin 16) (p : MbxPath) (w : Word), ((c.val < 8 ∨ p ≠ .host 0)) ∧ ((w.toNat % 16 = 0 ∨ (w.toNat % 16 = 8 ∧ (s.asOwner c.val p = false ∨ pathId p ≠ 3 ∨ s.mbxState c.val ≠ 2))))) ∧
    (∃ (c : Fin 16) (p : MbxPath), ((c.val < 8 ∨ p ≠ .host 0))) ∧
    (∃ (s : State) (c d : Fin 16) (p q : MbxPath) (w v : Word), (c.val < d.val) ∧ (mbxReceiver c.val = 3) ∧ (mbxReceiver d.val = 3) ∧ (s.asOwner c.val p = true) ∧ (s.asOwner d.val q = true) ∧ (s.mbxState c.val = 1) ∧ (s.mbxState d.val = 1) ∧ ((w.toNat ||| 1) % 16 = 1) ∧ (v.toNat % 16 = 1) ∧ ((d.val < 8 ∨ q ≠ .host 0)) ∧ ((c.val < 8 ∨ p ≠ .host 0))) :=
  ⟨⟨(z.hi R.DEV_DIE_STAT_KFW_RUN).wr (R.MBX_STAT_STATE 2) 3 |>.wr (R.MBX_STAT_OWNER 2) 5, 2, (.beacon 1), by decide⟩,
    ⟨(z.hi R.DEV_DIE_STAT_KFW_RUN).wr (R.MBX_STAT_STATE 2) 1 |>.wr (R.MBX_STAT_OWNER 2) 5, 2, (.beacon 1), by decide⟩,
    ⟨(z.hi R.DEV_DIE_STAT_KFW_RUN).wr (R.MBX_STAT_STATE 2) 2 |>.wr (R.MBX_STAT_OWNER 2) 5, 2, (.keeper false), by decide⟩,
    ⟨(z.hi R.DEV_DIE_STAT_KFW_RUN).wr (R.MBX_STAT_STATE 9) 2 |>.wr (R.MBX_STAT_OWNER 9) 2, 9, (.keeper true), by decide⟩,
    ⟨z, 2, (.keeper true), none, by decide⟩,
    ⟨z, 12, (.host 1), none, by decide⟩,
    ⟨9, by decide⟩,
    ⟨(z.hi R.DEV_DIE_STAT_KFW_RUN).wr (R.MBX_STAT_STATE 2) 1 |>.wr (R.MBX_STAT_OWNER 2) 5, 2, (.beacon 1), 0, by decide⟩,
    ⟨(z.hi R.DEV_DIE_STAT_KFW_RUN).wr (R.MBX_STAT_STATE 2) 1 |>.wr (R.MBX_STAT_OWNER 2) 5, 2, (.beacon 1), 3, by decide⟩,
    ⟨(z.hi R.DEV_DIE_STAT_KFW_RUN).wr (R.MBX_STAT_STATE 9) 2 |>.wr (R.MBX_STAT_OWNER 9) 2, 9, (.keeper true), 0, by decide⟩,
    ⟨(z.hi R.DEV_DIE_STAT_KFW_RUN).wr (R.MBX_STAT_STATE 9) 2 |>.wr (R.MBX_STAT_OWNER 9) 2 |>.hi (R.MBX_STAT_ORPHAN 9), 9, (.keeper true), 2, by decide⟩,
    ⟨(z.hi R.DEV_DIE_STAT_KFW_RUN).wr (R.MBX_STAT_STATE 3) 2 |>.wr (R.MBX_STAT_OWNER 3) 12, 3, (.keeper true), 2, by decide⟩,
    ⟨(z.hi R.DEV_DIE_STAT_KFW_RUN).wr (R.MBX_STAT_STATE 3) 2 |>.wr (R.MBX_STAT_OWNER 3) 12 |>.modStack (fun k => { k with relayQ := [(4, List.replicate 16 1), (5, List.replicate 100 1)] }), 3, (.keeper true), 2, by decide⟩,
    ⟨(z.hi R.DEV_DIE_STAT_KFW_RUN).wr (R.MBX_STAT_STATE 2) 1 |>.wr (R.MBX_STAT_OWNER 2) 5, 2, (.beacon 1), 3, by decide⟩,
    ⟨(z.hi R.DEV_DIE_STAT_KFW_RUN).wr (R.MBX_STAT_STATE 2) 3 |>.wr (R.MBX_STAT_OWNER 2) 5 |>.wr (R.MBX_DATA_DATA 33) 9, 2, (.beacon 1), 0, by decide⟩,
    ⟨(z.hi R.DEV_DIE_STAT_KFW_RUN).wr (R.MBX_STAT_STATE 2) 3 |>.wr (R.MBX_STAT_OWNER 2) 5 |>.modStack (fun k => { k with relayQ := [(4, List.replicate 16 1)] }), 2, (.beacon 1), 0, by decide⟩,
    ⟨(z.hi R.DEV_DIE_STAT_KFW_RUN).wr (R.MBX_STAT_STATE 3) 3 |>.wr (R.MBX_STAT_OWNER 3) 10 |>.modStack (fun k => { k with relayQ := [(4, List.replicate 16 1)] }), 3, (.peer 2), 0, by decide⟩,
    ⟨(z.hi R.DEV_DIE_STAT_KFW_RUN).wr (R.MBX_STAT_STATE 2) 2 |>.wr (R.MBX_STAT_OWNER 2) 5, 2, (.beacon 1), 4, by decide⟩,
    ⟨z, 12, (.keeper false), 0, by decide⟩,
    ⟨z, 12, (.keeper false), 0, by decide⟩,
    ⟨z, 12, (.keeper false), 0, by decide⟩,
    ⟨12, by decide⟩,
    ⟨12, by decide⟩,
    ⟨12, by decide⟩,
    ⟨3, .beacon 1, by decide⟩,
    ⟨z.hi R.DEV_DIE_STAT_KFW_RUN, 2, .beacon 1, by decide⟩,
    ⟨z.hi R.DEV_DIE_STAT_KFW_RUN, 2, .beacon 1, by decide⟩,
    ⟨z.hi R.DEV_DIE_STAT_KFW_RUN, 2, .lock, .beacon 1, some 7, by decide⟩,
    ⟨(z.wr (R.MBX_STAT_STATE 5) 2).wr (R.MBX_STAT_OWNER 5) 3, 5, .keeper true, 8, by decide⟩,
    ⟨z, 5, .keeper true, 0, by decide⟩,
    ⟨2, .beacon 1, by decide⟩,
    ⟨((z.hi R.DEV_DIE_STAT_KFW_RUN |>.wr (R.MBX_STAT_STATE 0) 1).wr (R.MBX_STAT_OWNER 0) 1).wr (R.MBX_STAT_STATE 2) 1 |>.wr (R.MBX_STAT_OWNER 2) 5, 0, 2, .host 0, .beacon 1, 1, 1, by decide⟩⟩

/-- The hypotheses of `Obligations.MailboxTimeouts`, case by case, are met. -/
theorem witness_MailboxTimeouts :
    (∃ (s : State) (c : Fin 16), (s.mbxState c.val = 0 ∨ s.mbxState c.val = 2)) ∧
    (∃ (s : State) (c : Fin 16), (s.mbxState c.val = 1 ∨ s.mbxState c.val = 3) ∧ (s.stack.relayQ = [])) ∧
    (∃ (s : State) (c : Fin 16), (s.mbxState c.val = 1 ∨ s.mbxState c.val = 3) ∧ (s.stack.relayQ ≠ []) ∧ (c.val ≠ 3 ∧ c.val ≠ 11)) ∧
    (∃ (s : State) (c : Fin 16), (s.mbxState c.val = 1 ∨ s.mbxState c.val = 3) ∧ (s.stack.relayQ ≠ []) ∧ (c.val = 3 ∨ c.val = 11)) ∧
    (∃ (s : State) (fn : Fin 2) (d0 : Bool), (d0 = true ∨ ∀ c : Fin 16, mbxReceiver c.val = 1 + fn.val → s.mbxState c.val ≠ 2)) ∧
    (∃ (s : State) (fn : Fin 2) (c : Fin 16), (mbxReceiver c.val = 1 + fn.val) ∧ (s.mbxState c.val = 2) ∧ (s.on (R.MBX_STAT_ORPHAN c.val) = false)) ∧
    (∃ (s : State) (fn : Fin 2) (c : Fin 16), (mbxReceiver c.val = 1 + fn.val) ∧ (s.mbxState c.val = 2) ∧ (s.on (R.MBX_STAT_ORPHAN c.val) = true)) ∧
    (∃ (s : State) (c : Fin 16), (((s.mbox c.val).crossAt = none ∨ s.mbxState c.val ≠ 2 ∨ s.mbxOwner c.val ≠ 3 ∨ s.on (R.MBX_STAT_ORPHAN c.val) = true)) ∧ (((s.mbox c.val).crossAt = none ∨ s.mbxState c.val ≠ 3 ∨ (s.mbox c.val).doneAt ≠ some s.tick.count))) ∧
    (∃ (s : State) (c : Fin 16) (at_ : Nat), ((s.mbox c.val).crossAt = some at_) ∧ (s.mbxState c.val = 3) ∧ ((s.mbox c.val).doneAt = some s.tick.count) ∧ (at_ + us16 (max 1 (s.rd R.MBX_CFG_XTO)) ≤ s.clk)) ∧
    (∃ (s : State) (c : Fin 16) (q : Cmd) (rest : List Cmd) (fn : Fin 2), (s.on R.DEV_DIE_STAT_KFW_RUN = true) ∧ (s.fw.current = none) ∧ (s.fw.queue = q :: rest) ∧ (q.path = .mbx c.val) ∧ (senderFn c.val = some fn.val) ∧ (s.mbxState c.val = 2) ∧ ((s.readCmd q).headFault = none)) ∧
    (∃ (s : State) (c : Fin 16) (at_ : Nat), ((s.mbox c.val).crossAt = some at_) ∧ (s.mbxState c.val = 2) ∧ (s.mbxOwner c.val = 3) ∧ (s.on (R.MBX_STAT_ORPHAN c.val) = false)) ∧
    (∃ (s : State), (s.on R.DEV_DIE_STAT_KFW_RUN = false ∨ s.fw.held = [])) ∧
    (∃ (s : State) (h : Held) (c : Fin 16), ∃ n, n = (h.bytes.length / 4) ∧ ((s.on R.DEV_DIE_STAT_KFW_RUN = true) ∧ (s.firstHeld 0 = some h) ∧ (s.notifyChannel h = some c.val) ∧ (h.bytes.length = 4 * n) ∧ (n ≤ 16))) ∧
    (∃ (s : State), (s.on R.DEV_DIE_STAT_KFW_RUN = true) ∧ ((postHeld 0 s).1 = false) ∧ ((postHeld 1 s).1 = false)) ∧
    (∃ (s : State) (h : Held) (c : Fin 16), (s.on R.DEV_DIE_STAT_KFW_RUN = true) ∧ ((postHeld 0 s).1 = false) ∧ (s.firstHeld 1 = some h) ∧ (s.notifyChannel h = some c.val)) :=
  ⟨⟨(z.hi R.DEV_DIE_STAT_KFW_RUN).wr (R.MBX_STAT_STATE 2) 2 |>.wr (R.MBX_STAT_OWNER 2) 5, 2, by decide⟩,
    ⟨(z.hi R.DEV_DIE_STAT_KFW_RUN).wr (R.MBX_STAT_STATE 2) 1 |>.wr (R.MBX_STAT_OWNER 2) 5 |>.wr (R.MBX_DATA_DATA 47) 9, 2, by decide⟩,
    ⟨(z.hi R.DEV_DIE_STAT_KFW_RUN).wr (R.MBX_STAT_STATE 2) 1 |>.wr (R.MBX_STAT_OWNER 2) 5 |>.modStack (fun k => { k with relayQ := [(4, List.replicate 16 1)] }), 2, by decide⟩,
    ⟨(z.hi R.DEV_DIE_STAT_KFW_RUN).wr (R.MBX_STAT_STATE 3) 1 |>.wr (R.MBX_STAT_OWNER 3) 9 |>.modStack (fun k => { k with relayQ := [(4, List.replicate 16 1)] }), 3, by decide⟩,
    ⟨z, 0, true, by decide⟩,
    ⟨((z.hi R.DEV_DIE_STAT_KFW_RUN |> fun (z : State) => { z with pcie := { z.pcie with d0a := true, perstHigh := true } })).wr (R.MBX_STAT_STATE 5) 2 |>.wr (R.MBX_STAT_OWNER 5) 3 |>.wr (R.MBX_DATA_DATA 82) 0x12345678, 0, 5, by decide⟩,
    ⟨((z.hi R.DEV_DIE_STAT_KFW_RUN |> fun (z : State) => { z with pcie := { z.pcie with d0a := true, perstHigh := true } })).wr (R.MBX_STAT_STATE 5) 2 |>.wr (R.MBX_STAT_OWNER 5) 4 |>.hi (R.MBX_STAT_ORPHAN 5), 0, 5, by decide⟩,
    ⟨z, 5, by decide⟩,
    ⟨((z.wr (R.MBX_STAT_STATE 0) 3).modMbox 0 (fun k => { k with crossAt := some 0, doneAt := some 0 })).modBank .ts0 (fun k => { k with jumped := -(2 ^ 92) }), 0, 0, by decide⟩,
    ⟨((((z.hi R.DEV_DIE_STAT_KFW_RUN).wr (R.MBX_STAT_STATE 8) 2 |>.wr (R.MBX_STAT_OWNER 8) 2)) |> fun (z : State) => { z with fw := { z.fw with queue := [{ path := .mbx 8, sender := 2 }] } }).wr (R.MBX_DATA_DATA 128) 0x00420010, 8, ({ path := .mbx 8, sender := 2 }), [], 1, by decide⟩,
    ⟨(z.hi R.DEV_DIE_STAT_KFW_RUN).wr (R.MBX_STAT_STATE 5) 2 |>.wr (R.MBX_STAT_OWNER 5) 3 |>.modMbox 5 (fun m => { m with crossAt := some 9 }) |> fun (z : State) => { z with fw := { z.fw with posted := [(5, [1, 2, 3])] } }, 5, 9, by decide⟩,
    ⟨z, by decide⟩,
    ⟨(((z.hi R.DEV_DIE_STAT_KFW_RUN |> fun (z : State) => { z with pcie := { z.pcie with d0a := true, perstHigh := true } })) |> fun (z : State) => { z with fw := { z.fw with held := [{ fn := 0, bytes := List.replicate 20 7 }] } }), ({ fn := 0, bytes := List.replicate 20 7 }), 4, _, rfl, by decide⟩,
    ⟨z.hi R.DEV_DIE_STAT_KFW_RUN, by decide⟩,
    ⟨(((z.hi R.DEV_DIE_STAT_KFW_RUN |> fun (z : State) => { z with pcie := { z.pcie with d0a := true, perstHigh := true } })) |> fun (z : State) => { z with pcie := { z.pcie with d0b := true }, fw := { z.fw with held := [{ fn := 1, bytes := List.replicate 20 7 }] } }), ({ fn := 1, bytes := List.replicate 20 7 }), 12, by decide⟩⟩

/-- The hypotheses of `Obligations.RegisterCommands`, case by case, are met. -/
theorem witness_RegisterCommands :
    (∃ (s : State), (∀ c, s.fw.current = some c → ¬ (c.op % 256 = 0 ∧ c.op / 256 ≤ 12))) ∧
    (∃ (s : State) (c : Cmd) (st : Nat) (d : Nat), (s.fw.current = some c) ∧ (c.op % 256 = 0 ∧ c.op / 256 ≤ 12) ∧ (refusal (decide (c.len = 8)) ([(0, !(decide (c.num 0 4 % 4 = 0) && inRanges (c.op / 256) (c.num 0 4))), (4, decide (c.num 4 2 < 1) || decide (1024 < c.num 4 2) || !c.addrs.all (fun a => decide (a % 4 = 0) && inRanges (c.op / 256) a))] ++ c.reserved 6 2) (c.addrs.any s.windowOff) (s.holder c) = some (st, d))) ∧
    (∃ (s : State) (c : Cmd), (s.fw.current = some c) ∧ (c.op % 256 = 0 ∧ c.op / 256 ≤ 12) ∧ (refusal (decide (c.len = 8)) ([(0, !(decide (c.num 0 4 % 4 = 0) && inRanges (c.op / 256) (c.num 0 4))), (4, decide (c.num 4 2 < 1) || decide (1024 < c.num 4 2) || !c.addrs.all (fun a => decide (a % 4 = 0) && inRanges (c.op / 256) a))] ++ c.reserved 6 2) (c.addrs.any s.windowOff) (s.holder c) = none) ∧ (c.sender = 2)) ∧
    (∃ (s : State) (c : Cmd), (s.fw.current = some c) ∧ (c.op % 256 = 0 ∧ c.op / 256 ≤ 12) ∧ (refusal (decide (c.len = 8)) ([(0, !(decide (c.num 0 4 % 4 = 0) && inRanges (c.op / 256) (c.num 0 4))), (4, decide (c.num 4 2 < 1) || decide (1024 < c.num 4 2) || !c.addrs.all (fun a => decide (a % 4 = 0) && inRanges (c.op / 256) a))] ++ c.reserved 6 2) (c.addrs.any s.windowOff) (s.holder c) = none) ∧ (c.sender ≠ 2)) ∧
    (∃ (s : State), (∀ c, s.fw.current = some c → ¬ (c.op % 256 = 1 ∧ c.op / 256 ≤ 12))) ∧
    (∃ (s : State) (c : Cmd) (st : Nat) (d : Nat), (s.fw.current = some c) ∧ (c.op % 256 = 1 ∧ c.op / 256 ≤ 12) ∧ (refusal (decide (8 ≤ c.len ∧ c.len ≤ 4096 ∧ c.len % 8 = 0)) ((c.pairs.zipIdx).map (fun e => (8 * e.2, decide (e.1.1 % 4 ≠ 0) || !inRanges (c.op / 256) e.1.1))) (c.pairs.any (fun p => s.windowOff p.1)) (s.holder c) = some (st, d))) ∧
    (∃ (s : State) (c : Cmd), ∃ u, u = (writePairs c.sender c.pairs s.begin) ∧ ((s.fw.current = some c) ∧ (c.op % 256 = 1 ∧ c.op / 256 ≤ 12) ∧ ((refusal (decide (8 ≤ c.len ∧ c.len ≤ 4096 ∧ c.len % 8 = 0)) ((c.pairs.zipIdx).map (fun e => (8 * e.2, decide (e.1.1 % 4 ≠ 0) || !inRanges (c.op / 256) e.1.1))) (c.pairs.any (fun p => s.windowOff p.1)) (s.holder c) = none)) ∧ ((c.sender = 2 ∨ c.pairs.any stepPair = false)) ∧ (u.fw.current.isSome = true))) ∧
    (∃ (s : State) (c : Cmd), ∃ u, u = (writePairs c.sender c.pairs s.begin) ∧ ((s.fw.current = some c) ∧ (c.op % 256 = 1 ∧ c.op / 256 ≤ 12) ∧ ((refusal (decide (8 ≤ c.len ∧ c.len ≤ 4096 ∧ c.len % 8 = 0)) ((c.pairs.zipIdx).map (fun e => (8 * e.2, decide (e.1.1 % 4 ≠ 0) || !inRanges (c.op / 256) e.1.1))) (c.pairs.any (fun p => s.windowOff p.1)) (s.holder c) = none)) ∧ ((c.sender = 2 ∨ c.pairs.any stepPair = false)) ∧ (u.fw.current = none))) ∧
    (∃ (s : State) (c : Cmd), (s.fw.current = some c) ∧ (c.op % 256 = 1 ∧ c.op / 256 ≤ 12) ∧ (refusal (decide (8 ≤ c.len ∧ c.len ≤ 4096 ∧ c.len % 8 = 0)) ((c.pairs.zipIdx).map (fun e => (8 * e.2, decide (e.1.1 % 4 ≠ 0) || !inRanges (c.op / 256) e.1.1))) (c.pairs.any (fun p => s.windowOff p.1)) (s.holder c) = none) ∧ (c.sender ≠ 2) ∧ (c.pairs.any stepPair = true)) :=
  ⟨⟨z, by decide⟩,
    ⟨((((z.hi R.DEV_DIE_STAT_KFW_RUN).wr (R.MBX_STAT_STATE 8) 2 |>.wr (R.MBX_STAT_OWNER 8) 2)) |> fun (z : State) => { z with fw := { z.fw with current := some { path := .mbx 8, sender := 2, bytes := le 2 0x0200 ++ le 2 66 ++ le 2 (([] : List Nat)).length ++ [0, 2] ++ le 8 0 ++ ([] : List Nat) } } }), ({ path := .mbx 8, sender := 2, bytes := le 2 0x0200 ++ le 2 66 ++ le 2 (([] : List Nat)).length ++ [0, 2] ++ le 8 0 ++ ([] : List Nat) }), 3, 4, by decide⟩,
    ⟨((((z.hi R.DEV_DIE_STAT_KFW_RUN).wr (R.MBX_STAT_STATE 8) 2 |>.wr (R.MBX_STAT_OWNER 8) 2)) |> fun (z : State) => { z with fw := { z.fw with current := some { path := .mbx 8, sender := 2, bytes := le 2 0x0200 ++ le 2 66 ++ le 2 ((le 4 0x10000 ++ le 2 3 ++ [0, 0])).length ++ [0, 2] ++ le 8 0 ++ (le 4 0x10000 ++ le 2 3 ++ [0, 0]) } } }), ({ path := .mbx 8, sender := 2, bytes := le 2 0x0200 ++ le 2 66 ++ le 2 ((le 4 0x10000 ++ le 2 3 ++ [0, 0])).length ++ [0, 2] ++ le 8 0 ++ (le 4 0x10000 ++ le 2 3 ++ [0, 0]) }), by decide⟩,
    ⟨((((z.hi R.DEV_DIE_STAT_KFW_RUN).wr (R.MBX_STAT_STATE 8) 2 |>.wr (R.MBX_STAT_OWNER 8) 2).wr (R.HRG_RING_CFG_SIZE 256) 3 |>.modRing 256 (fun r => { r with out := [{ idx := 3, tag := List.replicate 26 5 }] })) |> fun (z : State) => { z with fw := { z.fw with current := some { path := .ring 256 3 24 4096 64, sender := 1, bytes := le 2 0x0200 ++ le 2 66 ++ le 2 ((le 4 0x10000 ++ le 2 3 ++ [0, 0])).length ++ [0, 1] ++ le 8 0 ++ (le 4 0x10000 ++ le 2 3 ++ [0, 0]) } } }), ({ path := .ring 256 3 24 4096 64, sender := 1, bytes := le 2 0x0200 ++ le 2 66 ++ le 2 ((le 4 0x10000 ++ le 2 3 ++ [0, 0])).length ++ [0, 1] ++ le 8 0 ++ (le 4 0x10000 ++ le 2 3 ++ [0, 0]) }), by decide⟩,
    ⟨z, by decide⟩,
    ⟨((((z.hi R.DEV_DIE_STAT_KFW_RUN).wr (R.MBX_STAT_STATE 8) 2 |>.wr (R.MBX_STAT_OWNER 8) 2)) |> fun (z : State) => { z with fw := { z.fw with current := some { path := .mbx 8, sender := 2, bytes := le 2 0x0401 ++ le 2 66 ++ le 2 ([1, 2, 3]).length ++ [0, 2] ++ le 8 0 ++ [1, 2, 3] } } }), ({ path := .mbx 8, sender := 2, bytes := le 2 0x0401 ++ le 2 66 ++ le 2 ([1, 2, 3]).length ++ [0, 2] ++ le 8 0 ++ [1, 2, 3] }), 3, 4, by decide⟩,
    ⟨((((z.hi R.DEV_DIE_STAT_KFW_RUN).wr (R.MBX_STAT_STATE 8) 2 |>.wr (R.MBX_STAT_OWNER 8) 2)) |> fun (z : State) => { z with fw := { z.fw with current := some { path := .mbx 8, sender := 2, bytes := le 2 0x0401 ++ le 2 66 ++ le 2 ((le 4 0x40000 ++ le 4 0 ++ le 4 0x40004 ++ le 4 5)).length ++ [0, 2] ++ le 8 0 ++ (le 4 0x40000 ++ le 4 0 ++ le 4 0x40004 ++ le 4 5) } } }), ({ path := .mbx 8, sender := 2, bytes := le 2 0x0401 ++ le 2 66 ++ le 2 ((le 4 0x40000 ++ le 4 0 ++ le 4 0x40004 ++ le 4 5)).length ++ [0, 2] ++ le 8 0 ++ (le 4 0x40000 ++ le 4 0 ++ le 4 0x40004 ++ le 4 5) }), _, rfl, by decide⟩,
    ⟨((((z.hi R.DEV_DIE_STAT_KFW_RUN).wr (R.MBX_STAT_STATE 8) 2 |>.wr (R.MBX_STAT_OWNER 8) 2)) |> fun (z : State) => { z with rst := { z.rst with active := none }, fw := { z.fw with current := some { path := .mbx 8, sender := 2, bytes := le 2 0x0A01 ++ le 2 66 ++ le 2 8 ++ [0, 2] ++ le 8 0 ++ (le 4 0x110040 ++ le 4 0x1A501) } } }), { path := .mbx 8, sender := 2, bytes := le 2 0x0A01 ++ le 2 66 ++ le 2 8 ++ [0, 2] ++ le 8 0 ++ (le 4 0x110040 ++ le 4 0x1A501) }, _, rfl, by decide⟩,
    ⟨((((z.hi R.DEV_DIE_STAT_KFW_RUN).wr (R.MBX_STAT_STATE 8) 2 |>.wr (R.MBX_STAT_OWNER 8) 2).wr (R.MBX_STAT_STATE 11) 2 |>.wr (R.MBX_STAT_OWNER 11) 2) |> fun (z : State) => { z with fw := { z.fw with current := some { path := .mbx 11, sender := 9, bytes := le 2 0x0201 ++ le 2 66 ++ le 2 ((le 4 0x10058 ++ le 4 1)).length ++ [0, 9] ++ le 8 0 ++ (le 4 0x10058 ++ le 4 1) } } }), ({ path := .mbx 11, sender := 9, bytes := le 2 0x0201 ++ le 2 66 ++ le 2 ((le 4 0x10058 ++ le 4 1)).length ++ [0, 9] ++ le 8 0 ++ (le 4 0x10058 ++ le 4 1) }), by decide⟩⟩

/-- The hypotheses of `Obligations.ConfigCommands`, case by case, are met. -/
theorem witness_ConfigCommands :
    (∃ (s : State), (∀ c, s.fw.current = some c → ¬ (c.op = 0x0010))) ∧
    (∃ (s : State) (c : Cmd) (st : Nat) (d : Nat), (s.fw.current = some c) ∧ (c.op = 0x0010) ∧ (refusal (decide (c.len ≤ 4096)) ([]) (false) (s.holder c) = some (st, d))) ∧
    (∃ (s : State) (c : Cmd), (s.fw.current = some c) ∧ (c.op = 0x0010) ∧ (refusal (decide (c.len ≤ 4096)) ([]) (false) (s.holder c) = none)) ∧
    (∃ (s : State), (∀ c, s.fw.current = some c → ¬ (c.op = 0x0011))) ∧
    (∃ (s : State) (c : Cmd) (st : Nat) (d : Nat), (s.fw.current = some c) ∧ (c.op = 0x0011) ∧ (refusal (decide (c.len = 0)) ([]) (false) (s.holder c) = some (st, d))) ∧
    (∃ (s : State) (c : Cmd), (s.fw.current = some c) ∧ (c.op = 0x0011) ∧ (refusal (decide (c.len = 0)) ([]) (false) (s.holder c) = none)) ∧
    (∃ (s : State), (∀ c, s.fw.current = some c → ¬ (c.op = 0x0012))) ∧
    (∃ (s : State) (c : Cmd) (st : Nat) (d : Nat), (s.fw.current = some c) ∧ (c.op = 0x0012) ∧ (refusal (decide (c.len = 4)) ([]) ((s.keptFor c).isNone) (s.holder c) = some (st, d))) ∧
    (∃ (s : State) (c : Cmd) (k : Kept), (s.fw.current = some c) ∧ (c.op = 0x0012) ∧ (refusal (decide (c.len = 4)) ([]) ((s.keptFor c).isNone) (s.holder c) = none) ∧ (s.keptFor c = some k)) ∧
    (∃ (s : State), (∀ c, s.fw.current = some c → ¬ (c.op = 0x0110))) ∧
    (∃ (s : State) (c : Cmd) (st : Nat) (d : Nat), (s.fw.current = some c) ∧ (c.op = 0x0110) ∧ (refusal (decide (5 ≤ c.len ∧ c.len ≤ 4096)) ([(0, decide (2097152 < c.num 0 4 + (c.len - 4)))]) (false) (s.holder c) = some (st, d))) ∧
    (∃ (s : State) (c : Cmd), (s.fw.current = some c) ∧ (c.op = 0x0110) ∧ (refusal (decide (5 ≤ c.len ∧ c.len ≤ 4096)) ([(0, decide (2097152 < c.num 0 4 + (c.len - 4)))]) (false) (s.holder c) = none)) ∧
    (∃ (s : State), (∀ c, s.fw.current = some c → ¬ (c.op = 0x0111))) ∧
    (∃ (s : State) (c : Cmd) (st : Nat) (d : Nat), (s.fw.current = some c) ∧ (c.op = 0x0111) ∧ (refusal (decide (c.len = 4)) ([]) (false) (s.holder c) = some (st, d))) ∧
    (∃ (s : State) (c : Cmd), (s.fw.current = some c) ∧ (c.op = 0x0111) ∧ (refusal (decide (c.len = 4)) ([]) (false) (s.holder c) = none) ∧ (c.num 0 4 ≠ 64 + hdrLength (s.cfg.stagedBytes 0 64))) ∧
    (∃ (s : State) (c : Cmd), (s.fw.current = some c) ∧ (c.op = 0x0111) ∧ (c.len = 4) ∧ (s.holder c = none) ∧ (c.num 0 4 = 64 + hdrLength (s.cfg.stagedBytes 0 64)) ∧ (s.stagedErr ≠ 0)) ∧
    (∃ (s : State) (c : Cmd), (s.fw.current = some c) ∧ (c.op = 0x0111) ∧ (c.len = 4) ∧ (s.holder c = none) ∧ (c.num 0 4 = 64 + hdrLength (s.cfg.stagedBytes 0 64)) ∧ (s.stagedErr = 0)) ∧
    (∃ (s : State), (∀ c, s.fw.current = some c → ¬ (c.op = 0x0112))) ∧
    (∃ (s : State) (c : Cmd) (st : Nat) (d : Nat), (s.fw.current = some c) ∧ (c.op = 0x0112) ∧ (refusal (decide (c.len = 12)) ([c.below 0 2] ++ c.reserved 1 3 ++ [(4, decide (0x1000000 < c.num 4 4 + c.num 8 2)), c.inside 8 2 1 4096] ++ c.reserved 10 2) (false) (s.holder c) = some (st, d))) ∧
    (∃ (s : State) (c : Cmd), (s.fw.current = some c) ∧ (c.op = 0x0112) ∧ (refusal (decide (c.len = 12)) ([c.below 0 2] ++ c.reserved 1 3 ++ [(4, decide (0x1000000 < c.num 4 4 + c.num 8 2)), c.inside 8 2 1 4096] ++ c.reserved 10 2) (false) (s.holder c) = none)) :=
  ⟨⟨z, by decide⟩,
    ⟨((((z.hi R.DEV_DIE_STAT_KFW_RUN).wr (R.MBX_STAT_STATE 8) 2 |>.wr (R.MBX_STAT_OWNER 8) 2)) |> fun (z : State) => { z with fw := { z.fw with current := some { path := .ring 257 0 4113 0 0, sender := 2, bytes := le 2 0x0010 ++ le 2 66 ++ le 2 ((List.replicate 4097 1)).length ++ [0, 2] ++ le 8 0 ++ (List.replicate 4097 1) } } }), ({ path := .ring 257 0 4113 0 0, sender := 2, bytes := le 2 0x0010 ++ le 2 66 ++ le 2 ((List.replicate 4097 1)).length ++ [0, 2] ++ le 8 0 ++ (List.replicate 4097 1) }), 3, 4, by decide⟩,
    ⟨((((z.hi R.DEV_DIE_STAT_KFW_RUN).wr (R.MBX_STAT_STATE 8) 2 |>.wr (R.MBX_STAT_OWNER 8) 2)) |> fun (z : State) => { z with fw := { z.fw with current := some { path := .mbx 8, sender := 2, bytes := le 2 0x0010 ++ le 2 66 ++ le 2 (([7, 8, 9] : List Nat)).length ++ [0, 2] ++ le 8 0 ++ ([7, 8, 9] : List Nat) } } }), ({ path := .mbx 8, sender := 2, bytes := le 2 0x0010 ++ le 2 66 ++ le 2 (([7, 8, 9] : List Nat)).length ++ [0, 2] ++ le 8 0 ++ ([7, 8, 9] : List Nat) }), by decide⟩,
    ⟨z, by decide⟩,
    ⟨((((z.hi R.DEV_DIE_STAT_KFW_RUN).wr (R.MBX_STAT_STATE 8) 2 |>.wr (R.MBX_STAT_OWNER 8) 2)) |> fun (z : State) => { z with fw := { z.fw with current := some { path := .mbx 8, sender := 2, bytes := le 2 0x0011 ++ le 2 66 ++ le 2 (([1] : List Nat)).length ++ [0, 2] ++ le 8 0 ++ ([1] : List Nat) } } }), ({ path := .mbx 8, sender := 2, bytes := le 2 0x0011 ++ le 2 66 ++ le 2 (([1] : List Nat)).length ++ [0, 2] ++ le 8 0 ++ ([1] : List Nat) }), 3, 4, by decide⟩,
    ⟨((((z.hi R.DEV_DIE_STAT_KFW_RUN).wr (R.MBX_STAT_STATE 8) 2 |>.wr (R.MBX_STAT_OWNER 8) 2)) |> fun (z : State) => { z with fw := { z.fw with current := some { path := .mbx 8, sender := 2, bytes := le 2 0x0011 ++ le 2 66 ++ le 2 (([] : List Nat)).length ++ [0, 2] ++ le 8 0 ++ ([] : List Nat) } } }), ({ path := .mbx 8, sender := 2, bytes := le 2 0x0011 ++ le 2 66 ++ le 2 (([] : List Nat)).length ++ [0, 2] ++ le 8 0 ++ ([] : List Nat) }), by decide⟩,
    ⟨z, by decide⟩,
    ⟨((((z.hi R.DEV_DIE_STAT_KFW_RUN).wr (R.MBX_STAT_STATE 8) 2 |>.wr (R.MBX_STAT_OWNER 8) 2) |> fun (z : State) => { z with fw := { z.fw with kept := [{ sender := 2, tag := 5, opcode := 0x0B10, status := 0, detail := 0, time := 10 ^ 15 }] } }) |> fun (z : State) => { z with fw := { z.fw with current := some { path := .mbx 8, sender := 2, bytes := le 2 0x0012 ++ le 2 66 ++ le 2 (([1] : List Nat)).length ++ [0, 2] ++ le 8 0 ++ ([1] : List Nat) } } }), ({ path := .mbx 8, sender := 2, bytes := le 2 0x0012 ++ le 2 66 ++ le 2 (([1] : List Nat)).length ++ [0, 2] ++ le 8 0 ++ ([1] : List Nat) }), 3, 4, by decide⟩,
    ⟨((((z.hi R.DEV_DIE_STAT_KFW_RUN).wr (R.MBX_STAT_STATE 8) 2 |>.wr (R.MBX_STAT_OWNER 8) 2) |> fun (z : State) => { z with fw := { z.fw with kept := [{ sender := 2, tag := 5, opcode := 0x0B10, status := 0, detail := 0, time := 10 ^ 15 }] } }) |> fun (z : State) => { z with fw := { z.fw with current := some { path := .mbx 8, sender := 2, bytes := le 2 0x0012 ++ le 2 66 ++ le 2 ((le 2 5 ++ le 2 0x0B10)).length ++ [0, 2] ++ le 8 0 ++ (le 2 5 ++ le 2 0x0B10) } } }), ({ path := .mbx 8, sender := 2, bytes := le 2 0x0012 ++ le 2 66 ++ le 2 ((le 2 5 ++ le 2 0x0B10)).length ++ [0, 2] ++ le 8 0 ++ (le 2 5 ++ le 2 0x0B10) }), ({ sender := 2, tag := 5, opcode := 0x0B10, status := 0, detail := 0, time := 10 ^ 15 }), by decide⟩,
    ⟨z, by decide⟩,
    ⟨((((z.hi R.DEV_DIE_STAT_KFW_RUN).wr (R.MBX_STAT_STATE 8) 2 |>.wr (R.MBX_STAT_OWNER 8) 2)) |> fun (z : State) => { z with fw := { z.fw with current := some { path := .mbx 8, sender := 2, bytes := le 2 0x0110 ++ le 2 66 ++ le 2 (([1] : List Nat)).length ++ [0, 2] ++ le 8 0 ++ ([1] : List Nat) } } }), ({ path := .mbx 8, sender := 2, bytes := le 2 0x0110 ++ le 2 66 ++ le 2 (([1] : List Nat)).length ++ [0, 2] ++ le 8 0 ++ ([1] : List Nat) }), 3, 4, by decide⟩,
    ⟨((((z.hi R.DEV_DIE_STAT_KFW_RUN).wr (R.MBX_STAT_STATE 8) 2 |>.wr (R.MBX_STAT_OWNER 8) 2)) |> fun (z : State) => { z with fw := { z.fw with current := some { path := .mbx 8, sender := 2, bytes := le 2 0x0110 ++ le 2 66 ++ le 2 ((le 4 100 ++ [1, 2, 3])).length ++ [0, 2] ++ le 8 0 ++ (le 4 100 ++ [1, 2, 3]) } } }), ({ path := .mbx 8, sender := 2, bytes := le 2 0x0110 ++ le 2 66 ++ le 2 ((le 4 100 ++ [1, 2, 3])).length ++ [0, 2] ++ le 8 0 ++ (le 4 100 ++ [1, 2, 3]) }), by decide⟩,
    ⟨z, by decide⟩,
    ⟨((((z.hi R.DEV_DIE_STAT_KFW_RUN).wr (R.MBX_STAT_STATE 8) 2 |>.wr (R.MBX_STAT_OWNER 8) 2)) |> fun (z : State) => { z with fw := { z.fw with current := some { path := .mbx 8, sender := 2, bytes := le 2 0x0111 ++ le 2 66 ++ le 2 (([1] : List Nat)).length ++ [0, 2] ++ le 8 0 ++ ([1] : List Nat) } } }), ({ path := .mbx 8, sender := 2, bytes := le 2 0x0111 ++ le 2 66 ++ le 2 (([1] : List Nat)).length ++ [0, 2] ++ le 8 0 ++ ([1] : List Nat) }), 3, 4, by decide⟩,
    ⟨((((z.hi R.DEV_DIE_STAT_KFW_RUN).wr (R.MBX_STAT_STATE 8) 2 |>.wr (R.MBX_STAT_OWNER 8) 2)) |> fun (z : State) => { z with fw := { z.fw with current := some { path := .mbx 8, sender := 2, bytes := le 2 0x0111 ++ le 2 66 ++ le 2 (le 4 70).length ++ [0, 2] ++ le 8 0 ++ le 4 70 } } }), ({ path := .mbx 8, sender := 2, bytes := le 2 0x0111 ++ le 2 66 ++ le 2 (le 4 70).length ++ [0, 2] ++ le 8 0 ++ le 4 70 }), by decide⟩,
    ⟨((((z.hi R.DEV_DIE_STAT_KFW_RUN).wr (R.MBX_STAT_STATE 8) 2 |>.wr (R.MBX_STAT_OWNER 8) 2)) |> fun (z : State) => { z with fw := { z.fw with current := some { path := .mbx 8, sender := 2, bytes := le 2 0x0111 ++ le 2 66 ++ le 2 ((le 4 64)).length ++ [0, 2] ++ le 8 0 ++ (le 4 64) } } }), ({ path := .mbx 8, sender := 2, bytes := le 2 0x0111 ++ le 2 66 ++ le 2 ((le 4 64)).length ++ [0, 2] ++ le 8 0 ++ (le 4 64) }), by decide⟩,
    ⟨((((z.hi R.DEV_DIE_STAT_KFW_RUN).wr (R.MBX_STAT_STATE 8) 2 |>.wr (R.MBX_STAT_OWNER 8) 2).lo R.CFG_STAT_NO_SFDP |> fun (z : State) => { z with cfg := { z.cfg with staging := (((([0x4C, 0x55, 0x4D, 0x56, 1, 0, 64, 0] ++ le 4 0 ++ le 4 8 ++ le 4 (crc32c (List.replicate 8 0)) ++ List.replicate 36 0) ++ le 4 (crc32c ([0x4C, 0x55, 0x4D, 0x56, 1, 0, 64, 0] ++ le 4 0 ++ le 4 8 ++ le 4 (crc32c (List.replicate 8 0)) ++ List.replicate 36 0)) ++ List.replicate 12 0).zipIdx).map (fun (e : Nat × Nat) => (e.2, e.1))).filter (fun (e : Nat × Nat) => e.2 ≠ 0) } }) |> fun (z : State) => { z with fw := { z.fw with current := some { path := .mbx 8, sender := 2, bytes := le 2 0x0111 ++ le 2 66 ++ le 2 ((le 4 72)).length ++ [0, 2] ++ le 8 0 ++ (le 4 72) } } }), ({ path := .mbx 8, sender := 2, bytes := le 2 0x0111 ++ le 2 66 ++ le 2 ((le 4 72)).length ++ [0, 2] ++ le 8 0 ++ (le 4 72) }), by decide⟩,
    ⟨z, by decide⟩,
    ⟨((((z.hi R.DEV_DIE_STAT_KFW_RUN).wr (R.MBX_STAT_STATE 8) 2 |>.wr (R.MBX_STAT_OWNER 8) 2)) |> fun (z : State) => { z with fw := { z.fw with current := some { path := .mbx 8, sender := 2, bytes := le 2 0x0112 ++ le 2 66 ++ le 2 (([1] : List Nat)).length ++ [0, 2] ++ le 8 0 ++ ([1] : List Nat) } } }), ({ path := .mbx 8, sender := 2, bytes := le 2 0x0112 ++ le 2 66 ++ le 2 (([1] : List Nat)).length ++ [0, 2] ++ le 8 0 ++ ([1] : List Nat) }), 3, 4, by decide⟩,
    ⟨((((z.hi R.DEV_DIE_STAT_KFW_RUN).wr (R.MBX_STAT_STATE 8) 2 |>.wr (R.MBX_STAT_OWNER 8) 2)) |> fun (z : State) => { z with fw := { z.fw with current := some { path := .mbx 8, sender := 2, bytes := le 2 0x0112 ++ le 2 66 ++ le 2 (([1, 0, 0, 0] ++ le 4 16 ++ le 2 40 ++ [0, 0])).length ++ [0, 2] ++ le 8 0 ++ ([1, 0, 0, 0] ++ le 4 16 ++ le 2 40 ++ [0, 0]) } } }), ({ path := .mbx 8, sender := 2, bytes := le 2 0x0112 ++ le 2 66 ++ le 2 (([1, 0, 0, 0] ++ le 4 16 ++ le 2 40 ++ [0, 0])).length ++ [0, 2] ++ le 8 0 ++ ([1, 0, 0, 0] ++ le 4 16 ++ le 2 40 ++ [0, 0]) }), by decide⟩⟩

/-- The hypotheses of `Obligations.TimeCommands`, case by case, are met. -/
theorem witness_TimeCommands :
    (∃ (s : State), (∀ c, s.fw.current = some c → ¬ (c.op = 0x0210))) ∧
    (∃ (s : State) (c : Cmd) (st : Nat) (d : Nat), (s.fw.current = some c) ∧ (c.op = 0x0210) ∧ (refusal (decide (c.len = 0)) ([]) (false) (s.holder c) = some (st, d))) ∧
    (∃ (s : State) (c : Cmd), (s.fw.current = some c) ∧ (c.op = 0x0210) ∧ (refusal (decide (c.len = 0)) ([]) (false) (s.holder c) = none)) ∧
    (∃ (s : State), (∀ c, s.fw.current = some c → ¬ (c.op = 0x0211))) ∧
    (∃ (s : State) (c : Cmd) (st : Nat) (d : Nat), (s.fw.current = some c) ∧ (c.op = 0x0211) ∧ (refusal (decide (c.len = 16)) ([c.below 0 2, c.below 1 2, c.below 2 2] ++ c.reserved 3 1 ++ [(9, decide (64 ≤ c.b 9))]) (false) (s.holder c) = some (st, d))) ∧
    (∃ (s : State) (c : Cmd), (s.fw.current = some c) ∧ (c.op = 0x0211) ∧ (refusal (decide (c.len = 16)) ([c.below 0 2, c.below 1 2, c.below 2 2] ++ c.reserved 3 1 ++ [(9, decide (64 ≤ c.b 9))]) (false) (s.holder c) = none)) ∧
    (∃ (s : State), (∀ c, s.fw.current = some c → ¬ (c.op = 0x0410))) ∧
    (∃ (s : State) (c : Cmd) (st : Nat) (d : Nat), (s.fw.current = some c) ∧ (c.op = 0x0410) ∧ (refusal (decide (c.len = 4)) ([c.below 0 2] ++ c.reserved 1 3) (false) (s.holder c) = some (st, d))) ∧
    (∃ (s : State) (c : Cmd), (s.fw.current = some c) ∧ (c.op = 0x0410) ∧ (refusal (decide (c.len = 4)) ([c.below 0 2] ++ c.reserved 1 3) (false) (s.holder c) = none)) ∧
    (∃ (s : State), (∀ c, s.fw.current = some c → ¬ (c.op = 0x0411))) ∧
    (∃ (s : State) (c : Cmd) (st : Nat) (d : Nat), (s.fw.current = some c) ∧ (c.op = 0x0411) ∧ (refusal (decide (c.len = 4)) ([c.below 0 4, c.below 1 6, c.inside 2 1 1 202] ++ c.reserved 3 1) ((s.newestNav c).isEmpty) (s.holder c) = some (st, d))) ∧
    (∃ (s : State) (c : Cmd), (s.fw.current = some c) ∧ (c.op = 0x0411) ∧ (refusal (decide (c.len = 4)) ([c.below 0 4, c.below 1 6, c.inside 2 1 1 202] ++ c.reserved 3 1) ((s.newestNav c).isEmpty) (s.holder c) = none)) ∧
    (∃ (s : State), (∀ c, s.fw.current = some c → ¬ (c.op = 0x0510))) ∧
    (∃ (s : State) (c : Cmd) (st : Nat) (d : Nat), (s.fw.current = some c) ∧ (c.op = 0x0510) ∧ (refusal (decide (c.len = 4)) ([c.below 0 8, c.inside 1 1 1 128] ++ c.reserved 2 2) (false) (s.holder c) = some (st, d))) ∧
    (∃ (s : State) (c : Cmd), (s.fw.current = some c) ∧ (c.op = 0x0510) ∧ (refusal (decide (c.len = 4)) ([c.below 0 8, c.inside 1 1 1 128] ++ c.reserved 2 2) (false) (s.holder c) = none)) ∧
    (∃ (s : State), (∀ c, s.fw.current = some c → ¬ (c.op = 0x0610))) ∧
    (∃ (s : State) (c : Cmd) (st : Nat) (d : Nat), (s.fw.current = some c) ∧ (c.op = 0x0610) ∧ (refusal (decide (c.len = 28)) ([c.below 0 32, c.below 1 128] ++ c.reserved 2 2) (s.dieOff (c.b 0 / 8)) (s.holder c) = some (st, d))) ∧
    (∃ (s : State) (c : Cmd), (s.fw.current = some c) ∧ (c.op = 0x0610) ∧ (refusal (decide (c.len = 28)) ([c.below 0 32, c.below 1 128] ++ c.reserved 2 2) (s.dieOff (c.b 0 / 8)) (s.holder c) = none) ∧ (s.svcTwice (c.b 0) (c.b 1) (svcEntry ((List.range 6).map (fun k => c.num (4 + 4 * k) 4))) = false) ∧ (∀ k : Fin 4, s.on (R.PTP_INST_CFG_EN (c.b 0 * 4 + k.val)) = false ∨ s.rd (R.PTP_INST_CFG_SVC (c.b 0 * 4 + k.val)) ≠ c.b 1)) ∧
    (∃ (s : State) (c : Cmd), (s.fw.current = some c) ∧ (c.op = 0x0610) ∧ (refusal (decide (c.len = 28)) ([c.below 0 32, c.below 1 128] ++ c.reserved 2 2) (s.dieOff (c.b 0 / 8)) (s.holder c) = none) ∧ (s.svcTwice (c.b 0) (c.b 1) (svcEntry ((List.range 6).map (fun k => c.num (4 + 4 * k) 4))) = true)) ∧
    (∃ (s : State), (∀ c, s.fw.current = some c → ¬ (c.op = 0x0611))) ∧
    (∃ (s : State) (c : Cmd) (st : Nat) (d : Nat), (s.fw.current = some c) ∧ (c.op = 0x0611) ∧ (refusal (decide (c.len = 4)) ([c.below 0 32, c.below 1 128] ++ c.reserved 2 2) (s.dieOff (c.b 0 / 8)) (s.holder c) = some (st, d))) ∧
    (∃ (s : State) (c : Cmd), (s.fw.current = some c) ∧ (c.op = 0x0611) ∧ (refusal (decide (c.len = 4)) ([c.below 0 32, c.below 1 128] ++ c.reserved 2 2) (s.dieOff (c.b 0 / 8)) (s.holder c) = none)) ∧
    (∃ (s : State), (∀ c, s.fw.current = some c → ¬ (c.op = 0x0C10))) ∧
    (∃ (s : State) (c : Cmd) (st : Nat) (d : Nat), (s.fw.current = some c) ∧ (c.op = 0x0C10) ∧ (refusal (decide (c.len = 8)) ([c.below 0 2] ++ c.reserved 1 3) (decide (s.rfmState (c.b 0) = .empty)) (s.holder c) = some (st, d))) ∧
    (∃ (s : State) (c : Cmd), (s.fw.current = some c) ∧ (c.op = 0x0C10) ∧ (refusal (decide (c.len = 8)) ([c.below 0 2] ++ c.reserved 1 3) (decide (s.rfmState (c.b 0) = .empty)) (s.holder c) = none)) :=
  ⟨⟨z, by decide⟩,
    ⟨((((z.hi R.DEV_DIE_STAT_KFW_RUN).wr (R.MBX_STAT_STATE 8) 2 |>.wr (R.MBX_STAT_OWNER 8) 2)) |> fun (z : State) => { z with fw := { z.fw with current := some { path := .mbx 8, sender := 2, bytes := le 2 0x0210 ++ le 2 66 ++ le 2 (([1] : List Nat)).length ++ [0, 2] ++ le 8 0 ++ ([1] : List Nat) } } }), ({ path := .mbx 8, sender := 2, bytes := le 2 0x0210 ++ le 2 66 ++ le 2 (([1] : List Nat)).length ++ [0, 2] ++ le 8 0 ++ ([1] : List Nat) }), 3, 4, by decide⟩,
    ⟨((((z.hi R.DEV_DIE_STAT_KFW_RUN).wr (R.MBX_STAT_STATE 8) 2 |>.wr (R.MBX_STAT_OWNER 8) 2)) |> fun (z : State) => { z with fw := { z.fw with current := some { path := .mbx 8, sender := 2, bytes := le 2 0x0210 ++ le 2 66 ++ le 2 (([] : List Nat)).length ++ [0, 2] ++ le 8 0 ++ ([] : List Nat) } } }), ({ path := .mbx 8, sender := 2, bytes := le 2 0x0210 ++ le 2 66 ++ le 2 (([] : List Nat)).length ++ [0, 2] ++ le 8 0 ++ ([] : List Nat) }), by decide⟩,
    ⟨z, by decide⟩,
    ⟨((((z.hi R.DEV_DIE_STAT_KFW_RUN).wr (R.MBX_STAT_STATE 8) 2 |>.wr (R.MBX_STAT_OWNER 8) 2)) |> fun (z : State) => { z with fw := { z.fw with current := some { path := .mbx 8, sender := 2, bytes := le 2 0x0211 ++ le 2 66 ++ le 2 (([1] : List Nat)).length ++ [0, 2] ++ le 8 0 ++ ([1] : List Nat) } } }), ({ path := .mbx 8, sender := 2, bytes := le 2 0x0211 ++ le 2 66 ++ le 2 (([1] : List Nat)).length ++ [0, 2] ++ le 8 0 ++ ([1] : List Nat) }), 3, 4, by decide⟩,
    ⟨((((z.hi R.DEV_DIE_STAT_KFW_RUN).wr (R.MBX_STAT_STATE 8) 2 |>.wr (R.MBX_STAT_OWNER 8) 2)) |> fun (z : State) => { z with fw := { z.fw with current := some { path := .mbx 8, sender := 2, bytes := le 2 0x0211 ++ le 2 66 ++ le 2 (([0, 0, 1, 0] ++ le 2 0 ++ le 4 300000000 ++ le 6 1)).length ++ [0, 2] ++ le 8 0 ++ ([0, 0, 1, 0] ++ le 2 0 ++ le 4 300000000 ++ le 6 1) } } }), ({ path := .mbx 8, sender := 2, bytes := le 2 0x0211 ++ le 2 66 ++ le 2 (([0, 0, 1, 0] ++ le 2 0 ++ le 4 300000000 ++ le 6 1)).length ++ [0, 2] ++ le 8 0 ++ ([0, 0, 1, 0] ++ le 2 0 ++ le 4 300000000 ++ le 6 1) }), by decide⟩,
    ⟨z, by decide⟩,
    ⟨((((z.hi R.DEV_DIE_STAT_KFW_RUN).wr (R.MBX_STAT_STATE 8) 2 |>.wr (R.MBX_STAT_OWNER 8) 2)) |> fun (z : State) => { z with fw := { z.fw with current := some { path := .mbx 8, sender := 2, bytes := le 2 0x0410 ++ le 2 66 ++ le 2 (([1] : List Nat)).length ++ [0, 2] ++ le 8 0 ++ ([1] : List Nat) } } }), ({ path := .mbx 8, sender := 2, bytes := le 2 0x0410 ++ le 2 66 ++ le 2 (([1] : List Nat)).length ++ [0, 2] ++ le 8 0 ++ ([1] : List Nat) }), 3, 4, by decide⟩,
    ⟨((((z.hi R.DEV_DIE_STAT_KFW_RUN).wr (R.MBX_STAT_STATE 8) 2 |>.wr (R.MBX_STAT_OWNER 8) 2)) |> fun (z : State) => { z with fw := { z.fw with current := some { path := .mbx 8, sender := 2, bytes := le 2 0x0410 ++ le 2 66 ++ le 2 (([1, 0, 0, 0] : List Nat)).length ++ [0, 2] ++ le 8 0 ++ ([1, 0, 0, 0] : List Nat) } } }), ({ path := .mbx 8, sender := 2, bytes := le 2 0x0410 ++ le 2 66 ++ le 2 (([1, 0, 0, 0] : List Nat)).length ++ [0, 2] ++ le 8 0 ++ ([1, 0, 0, 0] : List Nat) }), by decide⟩,
    ⟨z, by decide⟩,
    ⟨((((z.hi R.DEV_DIE_STAT_KFW_RUN).wr (R.MBX_STAT_STATE 8) 2 |>.wr (R.MBX_STAT_OWNER 8) 2) |> fun (z : State) => { z with gnss := { z.gnss with navLast := [(2 * 1024 + 256 + 5, List.replicate 128 6)] } }) |> fun (z : State) => { z with fw := { z.fw with current := some { path := .mbx 8, sender := 2, bytes := le 2 0x0411 ++ le 2 66 ++ le 2 (([1] : List Nat)).length ++ [0, 2] ++ le 8 0 ++ ([1] : List Nat) } } }), ({ path := .mbx 8, sender := 2, bytes := le 2 0x0411 ++ le 2 66 ++ le 2 (([1] : List Nat)).length ++ [0, 2] ++ le 8 0 ++ ([1] : List Nat) }), 3, 4, by decide⟩,
    ⟨((((z.hi R.DEV_DIE_STAT_KFW_RUN).wr (R.MBX_STAT_STATE 8) 2 |>.wr (R.MBX_STAT_OWNER 8) 2) |> fun (z : State) => { z with gnss := { z.gnss with navLast := [(2 * 1024 + 256 + 5, List.replicate 128 6)] } }) |> fun (z : State) => { z with fw := { z.fw with current := some { path := .mbx 8, sender := 2, bytes := le 2 0x0411 ++ le 2 66 ++ le 2 (([1, 2, 5, 0] : List Nat)).length ++ [0, 2] ++ le 8 0 ++ ([1, 2, 5, 0] : List Nat) } } }), ({ path := .mbx 8, sender := 2, bytes := le 2 0x0411 ++ le 2 66 ++ le 2 (([1, 2, 5, 0] : List Nat)).length ++ [0, 2] ++ le 8 0 ++ ([1, 2, 5, 0] : List Nat) }), by decide⟩,
    ⟨z, by decide⟩,
    ⟨((((z.hi R.DEV_DIE_STAT_KFW_RUN).wr (R.MBX_STAT_STATE 8) 2 |>.wr (R.MBX_STAT_OWNER 8) 2).wr (R.TIM_GRP_WR_WR 2) 5) |> fun (z : State) => { z with fw := { z.fw with current := some { path := .mbx 8, sender := 2, bytes := le 2 0x0510 ++ le 2 66 ++ le 2 (([1] : List Nat)).length ++ [0, 2] ++ le 8 0 ++ ([1] : List Nat) } } }), ({ path := .mbx 8, sender := 2, bytes := le 2 0x0510 ++ le 2 66 ++ le 2 (([1] : List Nat)).length ++ [0, 2] ++ le 8 0 ++ ([1] : List Nat) }), 3, 4, by decide⟩,
    ⟨((((z.hi R.DEV_DIE_STAT_KFW_RUN).wr (R.MBX_STAT_STATE 8) 2 |>.wr (R.MBX_STAT_OWNER 8) 2).wr (R.TIM_GRP_WR_WR 2) 5) |> fun (z : State) => { z with fw := { z.fw with current := some { path := .mbx 8, sender := 2, bytes := le 2 0x0510 ++ le 2 66 ++ le 2 (([2, 3, 0, 0] : List Nat)).length ++ [0, 2] ++ le 8 0 ++ ([2, 3, 0, 0] : List Nat) } } }), ({ path := .mbx 8, sender := 2, bytes := le 2 0x0510 ++ le 2 66 ++ le 2 (([2, 3, 0, 0] : List Nat)).length ++ [0, 2] ++ le 8 0 ++ ([2, 3, 0, 0] : List Nat) }), by decide⟩,
    ⟨z, by decide⟩,
    ⟨((((z.hi R.DEV_DIE_STAT_KFW_RUN).wr (R.MBX_STAT_STATE 8) 2 |>.wr (R.MBX_STAT_OWNER 8) 2).hi (R.TSC_LANE_STAT_STATE 2)) |> fun (z : State) => { z with fw := { z.fw with current := some { path := .mbx 8, sender := 2, bytes := le 2 0x0610 ++ le 2 66 ++ le 2 (([1] : List Nat)).length ++ [0, 2] ++ le 8 0 ++ ([1] : List Nat) } } }), ({ path := .mbx 8, sender := 2, bytes := le 2 0x0610 ++ le 2 66 ++ le 2 (([1] : List Nat)).length ++ [0, 2] ++ le 8 0 ++ ([1] : List Nat) }), 3, 4, by decide⟩,
    ⟨((((z.hi R.DEV_DIE_STAT_KFW_RUN).wr (R.MBX_STAT_STATE 8) 2 |>.wr (R.MBX_STAT_OWNER 8) 2).hi (R.TSC_LANE_STAT_STATE 2)) |> fun (z : State) => { z with fw := { z.fw with current := some { path := .mbx 8, sender := 2, bytes := le 2 0x0610 ++ le 2 66 ++ le 2 (([17, 5, 0, 0] ++ le 4 0x11 ++ le 4 0 ++ le 4 0x0A000001 ++ le 12 0)).length ++ [0, 2] ++ le 8 0 ++ ([17, 5, 0, 0] ++ le 4 0x11 ++ le 4 0 ++ le 4 0x0A000001 ++ le 12 0) } } }), ({ path := .mbx 8, sender := 2, bytes := le 2 0x0610 ++ le 2 66 ++ le 2 (([17, 5, 0, 0] ++ le 4 0x11 ++ le 4 0 ++ le 4 0x0A000001 ++ le 12 0)).length ++ [0, 2] ++ le 8 0 ++ ([17, 5, 0, 0] ++ le 4 0x11 ++ le 4 0 ++ le 4 0x0A000001 ++ le 12 0) }), by decide⟩,
    ⟨((((z.hi R.DEV_DIE_STAT_KFW_RUN).wr (R.MBX_STAT_STATE 8) 2 |>.wr (R.MBX_STAT_OWNER 8) 2).hi (R.TSC_LANE_STAT_STATE 2) |>.modPort 17 (fun k => { k with svc := [(7, [0x11, 0, 0x0A000001, 0, 0, 0])] })) |> fun (z : State) => { z with fw := { z.fw with current := some { path := .mbx 8, sender := 2, bytes := le 2 0x0610 ++ le 2 66 ++ le 2 (([17, 5, 0, 0] ++ le 4 0x11 ++ le 4 0 ++ le 4 0x0A000001 ++ le 12 0)).length ++ [0, 2] ++ le 8 0 ++ ([17, 5, 0, 0] ++ le 4 0x11 ++ le 4 0 ++ le 4 0x0A000001 ++ le 12 0) } } }), ({ path := .mbx 8, sender := 2, bytes := le 2 0x0610 ++ le 2 66 ++ le 2 (([17, 5, 0, 0] ++ le 4 0x11 ++ le 4 0 ++ le 4 0x0A000001 ++ le 12 0)).length ++ [0, 2] ++ le 8 0 ++ ([17, 5, 0, 0] ++ le 4 0x11 ++ le 4 0 ++ le 4 0x0A000001 ++ le 12 0) }), by decide⟩,
    ⟨z, by decide⟩,
    ⟨((((z.hi R.DEV_DIE_STAT_KFW_RUN).wr (R.MBX_STAT_STATE 8) 2 |>.wr (R.MBX_STAT_OWNER 8) 2).hi (R.TSC_LANE_STAT_STATE 2)) |> fun (z : State) => { z with fw := { z.fw with current := some { path := .mbx 8, sender := 2, bytes := le 2 0x0611 ++ le 2 66 ++ le 2 (([1] : List Nat)).length ++ [0, 2] ++ le 8 0 ++ ([1] : List Nat) } } }), ({ path := .mbx 8, sender := 2, bytes := le 2 0x0611 ++ le 2 66 ++ le 2 (([1] : List Nat)).length ++ [0, 2] ++ le 8 0 ++ ([1] : List Nat) }), 3, 4, by decide⟩,
    ⟨((((z.hi R.DEV_DIE_STAT_KFW_RUN).wr (R.MBX_STAT_STATE 8) 2 |>.wr (R.MBX_STAT_OWNER 8) 2).hi (R.TSC_LANE_STAT_STATE 2)) |> fun (z : State) => { z with fw := { z.fw with current := some { path := .mbx 8, sender := 2, bytes := le 2 0x0611 ++ le 2 66 ++ le 2 (([17, 5, 0, 0] : List Nat)).length ++ [0, 2] ++ le 8 0 ++ ([17, 5, 0, 0] : List Nat) } } }), ({ path := .mbx 8, sender := 2, bytes := le 2 0x0611 ++ le 2 66 ++ le 2 (([17, 5, 0, 0] : List Nat)).length ++ [0, 2] ++ le 8 0 ++ ([17, 5, 0, 0] : List Nat) }), by decide⟩,
    ⟨z, by decide⟩,
    ⟨((((z.hi R.DEV_DIE_STAT_KFW_RUN).wr (R.MBX_STAT_STATE 8) 2 |>.wr (R.MBX_STAT_OWNER 8) 2).wr (R.RFM_STAT_STATE 1) 4) |> fun (z : State) => { z with fw := { z.fw with current := some { path := .mbx 8, sender := 2, bytes := le 2 0x0C10 ++ le 2 66 ++ le 2 (([1] : List Nat)).length ++ [0, 2] ++ le 8 0 ++ ([1] : List Nat) } } }), ({ path := .mbx 8, sender := 2, bytes := le 2 0x0C10 ++ le 2 66 ++ le 2 (([1] : List Nat)).length ++ [0, 2] ++ le 8 0 ++ ([1] : List Nat) }), 3, 4, by decide⟩,
    ⟨((((z.hi R.DEV_DIE_STAT_KFW_RUN).wr (R.MBX_STAT_STATE 8) 2 |>.wr (R.MBX_STAT_OWNER 8) 2).wr (R.RFM_STAT_STATE 1) 4) |> fun (z : State) => { z with fw := { z.fw with current := some { path := .mbx 8, sender := 2, bytes := le 2 0x0C10 ++ le 2 66 ++ le 2 (([1, 0, 0, 0] ++ le 4 1000)).length ++ [0, 2] ++ le 8 0 ++ ([1, 0, 0, 0] ++ le 4 1000) } } }), ({ path := .mbx 8, sender := 2, bytes := le 2 0x0C10 ++ le 2 66 ++ le 2 (([1, 0, 0, 0] ++ le 4 1000)).length ++ [0, 2] ++ le 8 0 ++ ([1, 0, 0, 0] ++ le 4 1000) }), by decide⟩⟩

/-- The hypotheses of `Obligations.ServiceCommands`, case by case, are met. -/
theorem witness_ServiceCommands :
    (∃ (s : State), (∀ c, s.fw.current = some c → ¬ (c.op = 0x0710))) ∧
    (∃ (s : State) (c : Cmd) (st : Nat) (d : Nat), (s.fw.current = some c) ∧ (c.op = 0x0710) ∧ (refusal (decide (c.len = 40)) ([(0, decide (4 ≤ c.b 0) || decide ((s.keySlot (c.b 0)).1 ≠ 0))] ++ c.reserved 1 3 ++ [(4, decide (beAt c.bytes 20 4 = 0) || keySlots.any (fun j => decide (j ≠ c.b 0) && decide ((s.keySlot j).1 ≠ 0) && decide ((s.keySlot j).2.1 = beAt c.bytes 20 4)))]) (false) (s.holder c) = some (st, d))) ∧
    (∃ (s : State) (c : Cmd), (s.fw.current = some c) ∧ (c.op = 0x0710) ∧ (refusal (decide (c.len = 40)) ([(0, decide (4 ≤ c.b 0) || decide ((s.keySlot (c.b 0)).1 ≠ 0))] ++ c.reserved 1 3 ++ [(4, decide (beAt c.bytes 20 4 = 0) || keySlots.any (fun j => decide (j ≠ c.b 0) && decide ((s.keySlot j).1 ≠ 0) && decide ((s.keySlot j).2.1 = beAt c.bytes 20 4)))]) (false) (s.holder c) = none)) ∧
    (∃ (s : State), (∀ c, s.fw.current = some c → ¬ (c.op = 0x0711))) ∧
    (∃ (s : State) (c : Cmd) (st : Nat) (d : Nat), (s.fw.current = some c) ∧ (c.op = 0x0711) ∧ (refusal (decide (c.len = 4)) ([(0, decide (4 ≤ c.b 0) || decide ((s.keySlot (c.b 0)).1 = 0))] ++ c.reserved 1 3) (false) (s.holder c) = some (st, d))) ∧
    (∃ (s : State) (c : Cmd), (s.fw.current = some c) ∧ (c.op = 0x0711) ∧ (refusal (decide (c.len = 4)) ([(0, decide (4 ≤ c.b 0) || decide ((s.keySlot (c.b 0)).1 = 0))] ++ c.reserved 1 3) (false) (s.holder c) = none) ∧ ((s.keySlot (c.b 0)).1 ≠ 2)) ∧
    (∃ (s : State) (c : Cmd), (s.fw.current = some c) ∧ (c.op = 0x0711) ∧ (c.len = 4) ∧ (c.b 0 < 4) ∧ ((s.keySlot (c.b 0)).1 = 2) ∧ (c.b 1 = 0 ∧ c.b 2 = 0 ∧ c.b 3 = 0) ∧ (s.holder c = none)) ∧
    (∃ (s : State), (∀ c, s.fw.current = some c → ¬ (c.op = 0x0712))) ∧
    (∃ (s : State) (c : Cmd) (st : Nat) (d : Nat), (s.fw.current = some c) ∧ (c.op = 0x0712) ∧ (refusal (decide (c.len = 4)) ([(0, decide (4 ≤ c.b 0) || decide ((s.keySlot (c.b 0)).1 = 0))] ++ c.reserved 1 3) (false) (s.holder c) = some (st, d))) ∧
    (∃ (s : State) (c : Cmd), (s.fw.current = some c) ∧ (c.op = 0x0712) ∧ (refusal (decide (c.len = 4)) ([(0, decide (4 ≤ c.b 0) || decide ((s.keySlot (c.b 0)).1 = 0))] ++ c.reserved 1 3) (false) (s.holder c) = none) ∧ ((s.keySlot (c.b 0)).1 ≠ 2)) ∧
    (∃ (s : State) (c : Cmd), (s.fw.current = some c) ∧ (c.op = 0x0712) ∧ (c.len = 4) ∧ (c.b 0 < 4) ∧ ((s.keySlot (c.b 0)).1 = 2) ∧ (c.b 1 = 0 ∧ c.b 2 = 0 ∧ c.b 3 = 0) ∧ (s.holder c = none)) ∧
    (∃ (s : State), (∀ c, s.fw.current = some c → ¬ (c.op = 0x0713))) ∧
    (∃ (s : State) (c : Cmd) (st : Nat) (d : Nat), (s.fw.current = some c) ∧ (c.op = 0x0713) ∧ (refusal (decide (c.len = 0)) ([]) (false) (s.holder c) = some (st, d))) ∧
    (∃ (s : State) (c : Cmd), (s.fw.current = some c) ∧ (c.op = 0x0713) ∧ (refusal (decide (c.len = 0)) ([]) (false) (s.holder c) = none)) ∧
    (∃ (s : State), (∀ c, s.fw.current = some c → ¬ (c.op = 0x0720))) ∧
    (∃ (s : State) (c : Cmd) (st : Nat) (d : Nat), (s.fw.current = some c) ∧ (c.op = 0x0720) ∧ (refusal (decide (c.len = 28)) ([c.below 0 4, (1, decide (c.b 1 ≠ 4) && decide (c.b 1 ≠ 6))] ++ c.reserved 2 2 ++ [c.inside 22 2 0 4095, c.inside 24 2 0 4095] ++ c.reserved 26 2) (s.dieOff (c.b 0) || (s.namedEntry c).isNone) (s.holder c) = some (st, d))) ∧
    (∃ (s : State), (∀ c, s.fw.current = some c → ¬ (c.op = 0x0721))) ∧
    (∃ (s : State) (c : Cmd) (st : Nat) (d : Nat), (s.fw.current = some c) ∧ (c.op = 0x0721) ∧ (refusal (decide (c.len = 28)) ([c.below 0 4, (1, decide (c.b 1 ≠ 4) && decide (c.b 1 ≠ 6))] ++ c.reserved 2 2 ++ [c.inside 22 2 0 4095, c.inside 24 2 0 4095] ++ c.reserved 26 2) (s.dieOff (c.b 0) || (s.namedEntry c).isNone) (s.holder c) = some (st, d))) ∧
    (∃ (s : State), (∀ c, s.fw.current = some c → ¬ (c.op = 0x0722))) ∧
    (∃ (s : State) (c : Cmd) (st : Nat) (d : Nat), (s.fw.current = some c) ∧ (c.op = 0x0722) ∧ (refusal (decide (c.len = 12)) ([c.below 0 4] ++ c.reserved 1 3 ++ [c.inside 8 2 1 21] ++ c.reserved 10 2) (s.dieOff (c.b 0)) (s.holder c) = some (st, d))) ∧
    (∃ (s : State) (c : Cmd), (s.fw.current = some c) ∧ (c.op = 0x0722) ∧ (refusal (decide (c.len = 12)) ([c.below 0 4] ++ c.reserved 1 3 ++ [c.inside 8 2 1 21] ++ c.reserved 10 2) (s.dieOff (c.b 0)) (s.holder c) = none)) ∧
    (∃ (s : State), (∀ c, s.fw.current = some c → ¬ (c.op = 0x0810))) ∧
    (∃ (s : State) (c : Cmd) (st : Nat) (d : Nat), (s.fw.current = some c) ∧ (c.op = 0x0810) ∧ (refusal (decide (c.len = 8)) ([c.below 0 4] ++ c.reserved 1 1 ++ [c.inside 4 2 1 64] ++ c.reserved 6 2) (s.dieOff (c.b 0) || decide (16384 < c.num 2 2 + c.num 4 2)) (s.holder c) = some (st, d))) ∧
    (∃ (s : State) (c : Cmd), (s.fw.current = some c) ∧ (c.op = 0x0810) ∧ (refusal (decide (c.len = 8)) ([c.below 0 4] ++ c.reserved 1 1 ++ [c.inside 4 2 1 64] ++ c.reserved 6 2) (s.dieOff (c.b 0) || decide (16384 < c.num 2 2 + c.num 4 2)) (s.holder c) = none)) :=
  ⟨⟨z, by decide⟩,
    ⟨((((z.hi R.DEV_DIE_STAT_KFW_RUN).wr (R.MBX_STAT_STATE 8) 2 |>.wr (R.MBX_STAT_OWNER 8) 2) |> fun (z : State) => { z with srv := { z.srv with keys := [(0, (2, 5, [])), (1, (1, 6, []))] } } |> fun (z : State) => z.hi (R.TSC_LANE_STAT_STATE 2)) |> fun (z : State) => { z with fw := { z.fw with current := some { path := .mbx 8, sender := 2, bytes := le 2 0x0710 ++ le 2 66 ++ le 2 (([1] : List Nat)).length ++ [0, 2] ++ le 8 0 ++ ([1] : List Nat) } } }), ({ path := .mbx 8, sender := 2, bytes := le 2 0x0710 ++ le 2 66 ++ le 2 (([1] : List Nat)).length ++ [0, 2] ++ le 8 0 ++ ([1] : List Nat) }), 3, 4, by decide⟩,
    ⟨((((z.hi R.DEV_DIE_STAT_KFW_RUN).wr (R.MBX_STAT_STATE 8) 2 |>.wr (R.MBX_STAT_OWNER 8) 2) |> fun (z : State) => { z with srv := { z.srv with keys := [(0, (2, 5, [])), (1, (1, 6, []))] } } |> fun (z : State) => z.hi (R.TSC_LANE_STAT_STATE 2)) |> fun (z : State) => { z with fw := { z.fw with current := some { path := .mbx 8, sender := 2, bytes := le 2 0x0710 ++ le 2 66 ++ le 2 (([2, 0, 0, 0] ++ be 4 77 ++ List.replicate 32 9)).length ++ [0, 2] ++ le 8 0 ++ ([2, 0, 0, 0] ++ be 4 77 ++ List.replicate 32 9) } } }), ({ path := .mbx 8, sender := 2, bytes := le 2 0x0710 ++ le 2 66 ++ le 2 (([2, 0, 0, 0] ++ be 4 77 ++ List.replicate 32 9)).length ++ [0, 2] ++ le 8 0 ++ ([2, 0, 0, 0] ++ be 4 77 ++ List.replicate 32 9) }), by decide⟩,
    ⟨z, by decide⟩,
    ⟨((((z.hi R.DEV_DIE_STAT_KFW_RUN).wr (R.MBX_STAT_STATE 8) 2 |>.wr (R.MBX_STAT_OWNER 8) 2) |> fun (z : State) => { z with srv := { z.srv with keys := [(0, (2, 5, [])), (1, (1, 6, []))] } } |> fun (z : State) => z.hi (R.TSC_LANE_STAT_STATE 2)) |> fun (z : State) => { z with fw := { z.fw with current := some { path := .mbx 8, sender := 2, bytes := le 2 0x0711 ++ le 2 66 ++ le 2 (([1] : List Nat)).length ++ [0, 2] ++ le 8 0 ++ ([1] : List Nat) } } }), ({ path := .mbx 8, sender := 2, bytes := le 2 0x0711 ++ le 2 66 ++ le 2 (([1] : List Nat)).length ++ [0, 2] ++ le 8 0 ++ ([1] : List Nat) }), 3, 4, by decide⟩,
    ⟨((((z.hi R.DEV_DIE_STAT_KFW_RUN).wr (R.MBX_STAT_STATE 8) 2 |>.wr (R.MBX_STAT_OWNER 8) 2) |> fun (z : State) => { z with srv := { z.srv with keys := [(0, (2, 5, [])), (1, (1, 6, []))] } } |> fun (z : State) => z.hi (R.TSC_LANE_STAT_STATE 2)) |> fun (z : State) => { z with fw := { z.fw with current := some { path := .mbx 8, sender := 2, bytes := le 2 0x0711 ++ le 2 66 ++ le 2 (([1, 0, 0, 0] : List Nat)).length ++ [0, 2] ++ le 8 0 ++ ([1, 0, 0, 0] : List Nat) } } }), ({ path := .mbx 8, sender := 2, bytes := le 2 0x0711 ++ le 2 66 ++ le 2 (([1, 0, 0, 0] : List Nat)).length ++ [0, 2] ++ le 8 0 ++ ([1, 0, 0, 0] : List Nat) }), by decide⟩,
    ⟨((((z.hi R.DEV_DIE_STAT_KFW_RUN).wr (R.MBX_STAT_STATE 8) 2 |>.wr (R.MBX_STAT_OWNER 8) 2) |> fun (z : State) => { z with srv := { z.srv with keys := [(0, (2, 5, [])), (1, (1, 6, []))] } }) |> fun (z : State) => { z with fw := { z.fw with current := some { path := .mbx 8, sender := 2, bytes := le 2 0x0711 ++ le 2 66 ++ le 2 (([0, 0, 0, 0] : List Nat)).length ++ [0, 2] ++ le 8 0 ++ ([0, 0, 0, 0] : List Nat) } } }), ({ path := .mbx 8, sender := 2, bytes := le 2 0x0711 ++ le 2 66 ++ le 2 (([0, 0, 0, 0] : List Nat)).length ++ [0, 2] ++ le 8 0 ++ ([0, 0, 0, 0] : List Nat) }), by decide⟩,
    ⟨z, by decide⟩,
    ⟨((((z.hi R.DEV_DIE_STAT_KFW_RUN).wr (R.MBX_STAT_STATE 8) 2 |>.wr (R.MBX_STAT_OWNER 8) 2) |> fun (z : State) => { z with srv := { z.srv with keys := [(0, (2, 5, [])), (1, (1, 6, []))] } } |> fun (z : State) => z.hi (R.TSC_LANE_STAT_STATE 2)) |> fun (z : State) => { z with fw := { z.fw with current := some { path := .mbx 8, sender := 2, bytes := le 2 0x0712 ++ le 2 66 ++ le 2 (([1] : List Nat)).length ++ [0, 2] ++ le 8 0 ++ ([1] : List Nat) } } }), ({ path := .mbx 8, sender := 2, bytes := le 2 0x0712 ++ le 2 66 ++ le 2 (([1] : List Nat)).length ++ [0, 2] ++ le 8 0 ++ ([1] : List Nat) }), 3, 4, by decide⟩,
    ⟨((((z.hi R.DEV_DIE_STAT_KFW_RUN).wr (R.MBX_STAT_STATE 8) 2 |>.wr (R.MBX_STAT_OWNER 8) 2) |> fun (z : State) => { z with srv := { z.srv with keys := [(0, (2, 5, [])), (1, (1, 6, []))] } } |> fun (z : State) => z.hi (R.TSC_LANE_STAT_STATE 2)) |> fun (z : State) => { z with fw := { z.fw with current := some { path := .mbx 8, sender := 2, bytes := le 2 0x0712 ++ le 2 66 ++ le 2 (([1, 0, 0, 0] : List Nat)).length ++ [0, 2] ++ le 8 0 ++ ([1, 0, 0, 0] : List Nat) } } }), ({ path := .mbx 8, sender := 2, bytes := le 2 0x0712 ++ le 2 66 ++ le 2 (([1, 0, 0, 0] : List Nat)).length ++ [0, 2] ++ le 8 0 ++ ([1, 0, 0, 0] : List Nat) }), by decide⟩,
    ⟨((((z.hi R.DEV_DIE_STAT_KFW_RUN).wr (R.MBX_STAT_STATE 8) 2 |>.wr (R.MBX_STAT_OWNER 8) 2) |> fun (z : State) => { z with srv := { z.srv with keys := [(0, (2, 5, [])), (1, (1, 6, []))] } }) |> fun (z : State) => { z with fw := { z.fw with current := some { path := .mbx 8, sender := 2, bytes := le 2 0x0712 ++ le 2 66 ++ le 2 (([0, 0, 0, 0] : List Nat)).length ++ [0, 2] ++ le 8 0 ++ ([0, 0, 0, 0] : List Nat) } } }), ({ path := .mbx 8, sender := 2, bytes := le 2 0x0712 ++ le 2 66 ++ le 2 (([0, 0, 0, 0] : List Nat)).length ++ [0, 2] ++ le 8 0 ++ ([0, 0, 0, 0] : List Nat) }), by decide⟩,
    ⟨z, by decide⟩,
    ⟨((((z.hi R.DEV_DIE_STAT_KFW_RUN).wr (R.MBX_STAT_STATE 8) 2 |>.wr (R.MBX_STAT_OWNER 8) 2)) |> fun (z : State) => { z with fw := { z.fw with current := some { path := .mbx 8, sender := 2, bytes := le 2 0x0713 ++ le 2 66 ++ le 2 (([1] : List Nat)).length ++ [0, 2] ++ le 8 0 ++ ([1] : List Nat) } } }), ({ path := .mbx 8, sender := 2, bytes := le 2 0x0713 ++ le 2 66 ++ le 2 (([1] : List Nat)).length ++ [0, 2] ++ le 8 0 ++ ([1] : List Nat) }), 3, 4, by decide⟩,
    ⟨((((z.hi R.DEV_DIE_STAT_KFW_RUN).wr (R.MBX_STAT_STATE 8) 2 |>.wr (R.MBX_STAT_OWNER 8) 2)) |> fun (z : State) => { z with fw := { z.fw with current := some { path := .mbx 8, sender := 2, bytes := le 2 0x0713 ++ le 2 66 ++ le 2 (([] : List Nat)).length ++ [0, 2] ++ le 8 0 ++ ([] : List Nat) } } }), ({ path := .mbx 8, sender := 2, bytes := le 2 0x0713 ++ le 2 66 ++ le 2 (([] : List Nat)).length ++ [0, 2] ++ le 8 0 ++ ([] : List Nat) }), by decide⟩,
    ⟨z, by decide⟩,
    ⟨((((z.hi R.DEV_DIE_STAT_KFW_RUN).wr (R.MBX_STAT_STATE 8) 2 |>.wr (R.MBX_STAT_OWNER 8) 2).hi (R.TSC_LANE_STAT_STATE 2) |> fun (z : State) => z.setCst (2 * 2097152 + z.namedHash { path := .mbx 8, sender := 2, bytes := le 2 0x0720 ++ le 2 66 ++ le 2 (([2, 4, 0, 0] ++ [10, 0, 0, 1] ++ List.replicate 12 0 ++ le 2 123 ++ le 2 0 ++ le 2 0 ++ [0, 0])).length ++ [0, 2] ++ le 8 0 ++ ([2, 4, 0, 0] ++ [10, 0, 0, 1] ++ List.replicate 12 0 ++ le 2 123 ++ le 2 0 ++ le 2 0 ++ [0, 0]) } % 2 ^ 18 * 8 + 1) { key := z.namedHash { path := .mbx 8, sender := 2, bytes := le 2 0x0720 ++ le 2 66 ++ le 2 (([2, 4, 0, 0] ++ [10, 0, 0, 1] ++ List.replicate 12 0 ++ le 2 123 ++ le 2 0 ++ le 2 0 ++ [0, 0])).length ++ [0, 2] ++ le 8 0 ++ ([2, 4, 0, 0] ++ [10, 0, 0, 1] ++ List.replicate 12 0 ++ le 2 123 ++ le 2 0 ++ le 2 0 ++ [0, 0]) }, valid := true, gen := 0 }) |> fun (z : State) => { z with fw := { z.fw with current := some { path := .mbx 8, sender := 2, bytes := le 2 0x0720 ++ le 2 66 ++ le 2 (([1] : List Nat)).length ++ [0, 2] ++ le 8 0 ++ ([1] : List Nat) } } }), ({ path := .mbx 8, sender := 2, bytes := le 2 0x0720 ++ le 2 66 ++ le 2 (([1] : List Nat)).length ++ [0, 2] ++ le 8 0 ++ ([1] : List Nat) }), 3, 4, by decide⟩,
    ⟨z, by decide⟩,
    ⟨((((z.hi R.DEV_DIE_STAT_KFW_RUN).wr (R.MBX_STAT_STATE 8) 2 |>.wr (R.MBX_STAT_OWNER 8) 2).hi (R.TSC_LANE_STAT_STATE 2) |> fun (z : State) => z.setCst (2 * 2097152 + z.namedHash { path := .mbx 8, sender := 2, bytes := le 2 0x0720 ++ le 2 66 ++ le 2 (([2, 4, 0, 0] ++ [10, 0, 0, 1] ++ List.replicate 12 0 ++ le 2 123 ++ le 2 0 ++ le 2 0 ++ [0, 0])).length ++ [0, 2] ++ le 8 0 ++ ([2, 4, 0, 0] ++ [10, 0, 0, 1] ++ List.replicate 12 0 ++ le 2 123 ++ le 2 0 ++ le 2 0 ++ [0, 0]) } % 2 ^ 18 * 8 + 1) { key := z.namedHash { path := .mbx 8, sender := 2, bytes := le 2 0x0720 ++ le 2 66 ++ le 2 (([2, 4, 0, 0] ++ [10, 0, 0, 1] ++ List.replicate 12 0 ++ le 2 123 ++ le 2 0 ++ le 2 0 ++ [0, 0])).length ++ [0, 2] ++ le 8 0 ++ ([2, 4, 0, 0] ++ [10, 0, 0, 1] ++ List.replicate 12 0 ++ le 2 123 ++ le 2 0 ++ le 2 0 ++ [0, 0]) }, valid := true, gen := 0 }) |> fun (z : State) => { z with fw := { z.fw with current := some { path := .mbx 8, sender := 2, bytes := le 2 0x0721 ++ le 2 66 ++ le 2 (([1] : List Nat)).length ++ [0, 2] ++ le 8 0 ++ ([1] : List Nat) } } }), ({ path := .mbx 8, sender := 2, bytes := le 2 0x0721 ++ le 2 66 ++ le 2 (([1] : List Nat)).length ++ [0, 2] ++ le 8 0 ++ ([1] : List Nat) }), 3, 4, by decide⟩,
    ⟨z, by decide⟩,
    ⟨((((z.hi R.DEV_DIE_STAT_KFW_RUN).wr (R.MBX_STAT_STATE 8) 2 |>.wr (R.MBX_STAT_OWNER 8) 2).hi (R.TSC_LANE_STAT_STATE 2)) |> fun (z : State) => { z with fw := { z.fw with current := some { path := .mbx 8, sender := 2, bytes := le 2 0x0722 ++ le 2 66 ++ le 2 (([1] : List Nat)).length ++ [0, 2] ++ le 8 0 ++ ([1] : List Nat) } } }), ({ path := .mbx 8, sender := 2, bytes := le 2 0x0722 ++ le 2 66 ++ le 2 (([1] : List Nat)).length ++ [0, 2] ++ le 8 0 ++ ([1] : List Nat) }), 3, 4, by decide⟩,
    ⟨((((z.hi R.DEV_DIE_STAT_KFW_RUN).wr (R.MBX_STAT_STATE 8) 2 |>.wr (R.MBX_STAT_OWNER 8) 2).hi (R.TSC_LANE_STAT_STATE 2)) |> fun (z : State) => { z with fw := { z.fw with current := some { path := .mbx 8, sender := 2, bytes := le 2 0x0722 ++ le 2 66 ++ le 2 (([2, 0, 0, 0] ++ le 4 262143 ++ le 2 2 ++ [0, 0])).length ++ [0, 2] ++ le 8 0 ++ ([2, 0, 0, 0] ++ le 4 262143 ++ le 2 2 ++ [0, 0]) } } }), ({ path := .mbx 8, sender := 2, bytes := le 2 0x0722 ++ le 2 66 ++ le 2 (([2, 0, 0, 0] ++ le 4 262143 ++ le 2 2 ++ [0, 0])).length ++ [0, 2] ++ le 8 0 ++ ([2, 0, 0, 0] ++ le 4 262143 ++ le 2 2 ++ [0, 0]) }), by decide⟩,
    ⟨z, by decide⟩,
    ⟨((((z.hi R.DEV_DIE_STAT_KFW_RUN).wr (R.MBX_STAT_STATE 8) 2 |>.wr (R.MBX_STAT_OWNER 8) 2).hi (R.TSC_LANE_STAT_STATE 2)) |> fun (z : State) => { z with fw := { z.fw with current := some { path := .mbx 8, sender := 2, bytes := le 2 0x0810 ++ le 2 66 ++ le 2 (([1] : List Nat)).length ++ [0, 2] ++ le 8 0 ++ ([1] : List Nat) } } }), ({ path := .mbx 8, sender := 2, bytes := le 2 0x0810 ++ le 2 66 ++ le 2 (([1] : List Nat)).length ++ [0, 2] ++ le 8 0 ++ ([1] : List Nat) }), 3, 4, by decide⟩,
    ⟨((((z.hi R.DEV_DIE_STAT_KFW_RUN).wr (R.MBX_STAT_STATE 8) 2 |>.wr (R.MBX_STAT_OWNER 8) 2).hi (R.TSC_LANE_STAT_STATE 2)) |> fun (z : State) => { z with fw := { z.fw with current := some { path := .mbx 8, sender := 2, bytes := le 2 0x0810 ++ le 2 66 ++ le 2 (([2, 0] ++ le 2 16382 ++ le 2 2 ++ [0, 0])).length ++ [0, 2] ++ le 8 0 ++ ([2, 0] ++ le 2 16382 ++ le 2 2 ++ [0, 0]) } } }), ({ path := .mbx 8, sender := 2, bytes := le 2 0x0810 ++ le 2 66 ++ le 2 (([2, 0] ++ le 2 16382 ++ le 2 2 ++ [0, 0])).length ++ [0, 2] ++ le 8 0 ++ ([2, 0] ++ le 2 16382 ++ le 2 2 ++ [0, 0]) }), by decide⟩⟩

/-- The hypotheses of `Obligations.SystemCommands`, case by case, are met. -/
theorem witness_SystemCommands :
    (∃ (s : State), (∀ c, s.fw.current = some c → ¬ (c.op = 0x0910))) ∧
    (∃ (s : State) (c : Cmd) (st : Nat) (d : Nat), (s.fw.current = some c) ∧ (c.op = 0x0910) ∧ (refusal (decide (20 ≤ c.len ∧ c.len ≤ 1028)) ([(0, decide (c.b 0 = 0) || decide (8 < c.b 0) || decide (c.b 0 = s.stackAddr))] ++ c.reserved 1 3) ((s.relayLink (c.b 0)).isNone || !s.on (R.TND_NODE_INFO_PRESENT (c.b 0 - 1))) (s.holder c) = some (st, d))) ∧
    (∃ (s : State) (c : Cmd) (l : Nat), (s.fw.current = some c) ∧ (c.op = 0x0910) ∧ (refusal (decide (20 ≤ c.len ∧ c.len ≤ 1028)) ([(0, decide (c.b 0 = 0) || decide (8 < c.b 0) || decide (c.b 0 = s.stackAddr))] ++ c.reserved 1 3) ((s.relayLink (c.b 0)).isNone || !s.on (R.TND_NODE_INFO_PRESENT (c.b 0 - 1))) (s.holder c) = none) ∧ (s.relayLink (c.b 0) = some l)) ∧
    (∃ (s : State), (∀ c, s.fw.current = some c → ¬ (c.op = 0x0911))) ∧
    (∃ (s : State) (c : Cmd) (st : Nat) (d : Nat), (s.fw.current = some c) ∧ (c.op = 0x0911) ∧ (refusal (decide (c.len = 4)) ([c.inside 0 1 1 8] ++ c.reserved 1 3) (false) (s.holder c) = some (st, d))) ∧
    (∃ (s : State) (c : Cmd), (s.fw.current = some c) ∧ (c.op = 0x0911) ∧ (refusal (decide (c.len = 4)) ([c.inside 0 1 1 8] ++ c.reserved 1 3) (false) (s.holder c) = none) ∧ (s.isMaster = true) ∧ (c.b 0 ≠ s.stackAddr) ∧ (IMap.get none s.stack.engines (c.b 0) = some 2)) ∧
    (∃ (s : State) (c : Cmd), (s.fw.current = some c) ∧ (c.op = 0x0911) ∧ (refusal (decide (c.len = 4)) ([c.inside 0 1 1 8] ++ c.reserved 1 3) false (s.holder c) = none) ∧ (s.isMaster = false ∨ c.b 0 = s.stackAddr ∨ IMap.get none s.stack.engines (c.b 0) ≠ some 2)) ∧
    (∃ (s : State), (∀ c, s.fw.current = some c → ¬ (c.op = 0x0A10))) ∧
    (∃ (s : State) (c : Cmd) (st : Nat) (d : Nat), (s.fw.current = some c) ∧ (c.op = 0x0A10) ∧ (refusal (decide (c.len = 4)) ([c.inside 0 1 1 7] ++ c.reserved 1 3) (decide (4 ≤ c.b 0) && s.dieOff (c.b 0 - 4)) (s.holder c) = some (st, d))) ∧
    (∃ (s : State) (c : Cmd), (s.fw.current = some c) ∧ (c.op = 0x0A10) ∧ (refusal (decide (c.len = 4)) ([c.inside 0 1 1 7] ++ c.reserved 1 3) (decide (4 ≤ c.b 0) && s.dieOff (c.b 0 - 4)) (s.holder c) = none)) ∧
    (∃ (s : State), (∀ c, s.fw.current = some c → ¬ (c.op = 0x0B10))) ∧
    (∃ (s : State) (c : Cmd) (st : Nat) (d : Nat), (s.fw.current = some c) ∧ (c.op = 0x0B10) ∧ (refusal (decide (c.len = 8)) ([c.inside 0 4 1 255] ++ c.reserved 4 4) (false) (s.holder c) = some (st, d))) ∧
    (∃ (s : State) (c : Cmd), (s.fw.current = some c) ∧ (c.op = 0x0B10) ∧ (refusal (decide (c.len = 8)) ([c.inside 0 4 1 255] ++ c.reserved 4 4) (false) (s.holder c) = none) ∧ (s.watch.run = none) ∧ (c.force = true ∨ s.disturbing (c.num 0 4) = 0)) ∧
    (∃ (s : State) (c : Cmd), (s.fw.current = some c) ∧ (c.op = 0x0B10) ∧ (refusal (decide (c.len = 8)) ([c.inside 0 4 1 255] ++ c.reserved 4 4) false (s.holder c) = none) ∧ (s.watch.run.isSome = true)) ∧
    (∃ (s : State) (c : Cmd), (s.fw.current = some c) ∧ (c.op = 0x0B10) ∧ (refusal (decide (c.len = 8)) ([c.inside 0 4 1 255] ++ c.reserved 4 4) false (s.holder c) = none) ∧ (s.watch.run = none) ∧ (c.force = false) ∧ (s.disturbing (c.num 0 4) ≠ 0)) ∧
    (∃ (s : State), (∀ c, s.fw.current = some c → ¬ (c.op = 0x0B11))) ∧
    (∃ (s : State) (c : Cmd) (st : Nat) (d : Nat), (s.fw.current = some c) ∧ (c.op = 0x0B11) ∧ (refusal (decide (c.len = 8)) ([c.inside 4 2 1 128] ++ c.reserved 6 2) (false) (s.holder c) = some (st, d))) ∧
    (∃ (s : State) (c : Cmd), (s.fw.current = some c) ∧ (c.op = 0x0B11) ∧ (refusal (decide (c.len = 8)) ([c.inside 4 2 1 128] ++ c.reserved 6 2) (false) (s.holder c) = none)) :=
  ⟨⟨z, by decide⟩,
    ⟨((((z.hi R.DEV_DIE_STAT_KFW_RUN).wr (R.MBX_STAT_STATE 8) 2 |>.wr (R.MBX_STAT_OWNER 8) 2).hi (R.TND_NODE_INFO_PRESENT 2) |>.wr (R.MOR_LINK_STAT_STATE 1) 3 |>.wr R.MOR_STAT_ADDR 5) |> fun (z : State) => { z with fw := { z.fw with current := some { path := .mbx 8, sender := 2, bytes := le 2 0x0910 ++ le 2 66 ++ le 2 (([1] : List Nat)).length ++ [0, 2] ++ le 8 0 ++ ([1] : List Nat) } } }), ({ path := .mbx 8, sender := 2, bytes := le 2 0x0910 ++ le 2 66 ++ le 2 (([1] : List Nat)).length ++ [0, 2] ++ le 8 0 ++ ([1] : List Nat) }), 3, 4, by decide⟩,
    ⟨((((z.hi R.DEV_DIE_STAT_KFW_RUN).wr (R.MBX_STAT_STATE 8) 2 |>.wr (R.MBX_STAT_OWNER 8) 2).hi (R.TND_NODE_INFO_PRESENT 2) |>.wr (R.MOR_LINK_STAT_STATE 1) 3 |>.wr R.MOR_STAT_ADDR 5) |> fun (z : State) => { z with fw := { z.fw with current := some { path := .mbx 8, sender := 2, bytes := le 2 0x0910 ++ le 2 66 ++ le 2 (([3, 0, 0, 0] ++ le 2 0x0010 ++ le 14 5)).length ++ [0, 2] ++ le 8 0 ++ ([3, 0, 0, 0] ++ le 2 0x0010 ++ le 14 5) } } }), ({ path := .mbx 8, sender := 2, bytes := le 2 0x0910 ++ le 2 66 ++ le 2 (([3, 0, 0, 0] ++ le 2 0x0010 ++ le 14 5)).length ++ [0, 2] ++ le 8 0 ++ ([3, 0, 0, 0] ++ le 2 0x0010 ++ le 14 5) }), 1, by decide⟩,
    ⟨z, by decide⟩,
    ⟨((((z.hi R.DEV_DIE_STAT_KFW_RUN).wr (R.MBX_STAT_STATE 8) 2 |>.wr (R.MBX_STAT_OWNER 8) 2).wr R.MOR_STAT_FABRIC 4 |>.wr R.MOR_STAT_ADDR 1 |>.modStack (fun k => { k with engines := [(3, some 2)] })) |> fun (z : State) => { z with fw := { z.fw with current := some { path := .mbx 8, sender := 2, bytes := le 2 0x0911 ++ le 2 66 ++ le 2 (([1] : List Nat)).length ++ [0, 2] ++ le 8 0 ++ ([1] : List Nat) } } }), ({ path := .mbx 8, sender := 2, bytes := le 2 0x0911 ++ le 2 66 ++ le 2 (([1] : List Nat)).length ++ [0, 2] ++ le 8 0 ++ ([1] : List Nat) }), 3, 4, by decide⟩,
    ⟨((((z.hi R.DEV_DIE_STAT_KFW_RUN).wr (R.MBX_STAT_STATE 8) 2 |>.wr (R.MBX_STAT_OWNER 8) 2).wr R.MOR_STAT_FABRIC 4 |>.wr R.MOR_STAT_ADDR 1 |>.modStack (fun k => { k with engines := [(3, some 2)] })) |> fun (z : State) => { z with fw := { z.fw with current := some { path := .mbx 8, sender := 2, bytes := le 2 0x0911 ++ le 2 66 ++ le 2 (([3, 0, 0, 0] : List Nat)).length ++ [0, 2] ++ le 8 0 ++ ([3, 0, 0, 0] : List Nat) } } }), ({ path := .mbx 8, sender := 2, bytes := le 2 0x0911 ++ le 2 66 ++ le 2 (([3, 0, 0, 0] : List Nat)).length ++ [0, 2] ++ le 8 0 ++ ([3, 0, 0, 0] : List Nat) }), by decide⟩,
    ⟨((((z.hi R.DEV_DIE_STAT_KFW_RUN).wr (R.MBX_STAT_STATE 8) 2 |>.wr (R.MBX_STAT_OWNER 8) 2)) |> fun (z : State) => { z with fw := { z.fw with current := some { path := .mbx 8, sender := 2, bytes := le 2 0x0911 ++ le 2 66 ++ le 2 (([3, 0, 0, 0] : List Nat)).length ++ [0, 2] ++ le 8 0 ++ ([3, 0, 0, 0] : List Nat) } } }), ({ path := .mbx 8, sender := 2, bytes := le 2 0x0911 ++ le 2 66 ++ le 2 (([3, 0, 0, 0] : List Nat)).length ++ [0, 2] ++ le 8 0 ++ ([3, 0, 0, 0] : List Nat) }), by decide⟩,
    ⟨z, by decide⟩,
    ⟨((((z.hi R.DEV_DIE_STAT_KFW_RUN).wr (R.MBX_STAT_STATE 8) 2 |>.wr (R.MBX_STAT_OWNER 8) 2)) |> fun (z : State) => { z with fw := { z.fw with current := some { path := .mbx 8, sender := 2, bytes := le 2 0x0A10 ++ le 2 66 ++ le 2 (([1] : List Nat)).length ++ [0, 2] ++ le 8 0 ++ ([1] : List Nat) } } }), ({ path := .mbx 8, sender := 2, bytes := le 2 0x0A10 ++ le 2 66 ++ le 2 (([1] : List Nat)).length ++ [0, 2] ++ le 8 0 ++ ([1] : List Nat) }), 3, 4, by decide⟩,
    ⟨((((z.hi R.DEV_DIE_STAT_KFW_RUN).wr (R.MBX_STAT_STATE 8) 2 |>.wr (R.MBX_STAT_OWNER 8) 2)) |> fun (z : State) => { z with fw := { z.fw with current := some { path := .mbx 8, sender := 2, bytes := le 2 0x0A10 ++ le 2 66 ++ le 2 (([2, 0, 0, 0] : List Nat)).length ++ [0, 2] ++ le 8 0 ++ ([2, 0, 0, 0] : List Nat) } } }), ({ path := .mbx 8, sender := 2, bytes := le 2 0x0A10 ++ le 2 66 ++ le 2 (([2, 0, 0, 0] : List Nat)).length ++ [0, 2] ++ le 8 0 ++ ([2, 0, 0, 0] : List Nat) }), by decide⟩,
    ⟨z, by decide⟩,
    ⟨((((z.hi R.DEV_DIE_STAT_KFW_RUN).wr (R.MBX_STAT_STATE 8) 2 |>.wr (R.MBX_STAT_OWNER 8) 2)) |> fun (z : State) => { z with fw := { z.fw with current := some { path := .mbx 8, sender := 2, bytes := le 2 0x0B10 ++ le 2 66 ++ le 2 (([1] : List Nat)).length ++ [0, 2] ++ le 8 0 ++ ([1] : List Nat) } } }), ({ path := .mbx 8, sender := 2, bytes := le 2 0x0B10 ++ le 2 66 ++ le 2 (([1] : List Nat)).length ++ [0, 2] ++ le 8 0 ++ ([1] : List Nat) }), 3, 4, by decide⟩,
    ⟨((((z.hi R.DEV_DIE_STAT_KFW_RUN).wr (R.MBX_STAT_STATE 8) 2 |>.wr (R.MBX_STAT_OWNER 8) 2)) |> fun (z : State) => { z with fw := { z.fw with current := some { path := .mbx 8, sender := 2, bytes := le 2 0x0B10 ++ le 2 66 ++ le 2 ((le 4 0x40 ++ le 4 0)).length ++ [2, 2] ++ le 8 0 ++ (le 4 0x40 ++ le 4 0) } } }), ({ path := .mbx 8, sender := 2, bytes := le 2 0x0B10 ++ le 2 66 ++ le 2 ((le 4 0x40 ++ le 4 0)).length ++ [2, 2] ++ le 8 0 ++ (le 4 0x40 ++ le 4 0) }), by decide⟩,
    ⟨((((z.hi R.DEV_DIE_STAT_KFW_RUN).wr (R.MBX_STAT_STATE 8) 2 |>.wr (R.MBX_STAT_OWNER 8) 2) |> fun (z : State) => { z with watch := { z.watch with run := some {} } }) |> fun (z : State) => { z with fw := { z.fw with current := some { path := .mbx 8, sender := 2, bytes := le 2 0x0B10 ++ le 2 66 ++ le 2 ((le 4 0x40 ++ le 4 0)).length ++ [2, 2] ++ le 8 0 ++ (le 4 0x40 ++ le 4 0) } } }), ({ path := .mbx 8, sender := 2, bytes := le 2 0x0B10 ++ le 2 66 ++ le 2 ((le 4 0x40 ++ le 4 0)).length ++ [2, 2] ++ le 8 0 ++ (le 4 0x40 ++ le 4 0) }), by decide⟩,
    ⟨((((z.hi R.DEV_DIE_STAT_KFW_RUN).wr (R.MBX_STAT_STATE 8) 2 |>.wr (R.MBX_STAT_OWNER 8) 2) |> fun (z : State) => (List.range 160).foldl (fun s c => s.lo (R.GNS_CH_CFG_RSV c)) ((z.hi R.GNS_CTL_EN).lo R.GNS_SLEEP_STAT_ASLEEP)) |> fun (z : State) => { z with fw := { z.fw with current := some { path := .mbx 8, sender := 2, bytes := le 2 0x0B10 ++ le 2 66 ++ le 2 ((le 4 0x10 ++ le 4 0)).length ++ [0, 2] ++ le 8 0 ++ (le 4 0x10 ++ le 4 0) } } }), ({ path := .mbx 8, sender := 2, bytes := le 2 0x0B10 ++ le 2 66 ++ le 2 ((le 4 0x10 ++ le 4 0)).length ++ [0, 2] ++ le 8 0 ++ (le 4 0x10 ++ le 4 0) }), by decide⟩,
    ⟨z, by decide⟩,
    ⟨((((z.hi R.DEV_DIE_STAT_KFW_RUN).wr (R.MBX_STAT_STATE 8) 2 |>.wr (R.MBX_STAT_OWNER 8) 2).wr R.LOG_NEXT_SEQ 9 |>.wr R.LOG_FIRST_SEQ 5) |> fun (z : State) => { z with fw := { z.fw with current := some { path := .mbx 8, sender := 2, bytes := le 2 0x0B11 ++ le 2 66 ++ le 2 (([1] : List Nat)).length ++ [0, 2] ++ le 8 0 ++ ([1] : List Nat) } } }), ({ path := .mbx 8, sender := 2, bytes := le 2 0x0B11 ++ le 2 66 ++ le 2 (([1] : List Nat)).length ++ [0, 2] ++ le 8 0 ++ ([1] : List Nat) }), 3, 4, by decide⟩,
    ⟨((((z.hi R.DEV_DIE_STAT_KFW_RUN).wr (R.MBX_STAT_STATE 8) 2 |>.wr (R.MBX_STAT_OWNER 8) 2).wr R.LOG_NEXT_SEQ 9 |>.wr R.LOG_FIRST_SEQ 5) |> fun (z : State) => { z with fw := { z.fw with current := some { path := .mbx 8, sender := 2, bytes := le 2 0x0B11 ++ le 2 66 ++ le 2 ((le 4 7 ++ le 2 2 ++ [0, 0])).length ++ [0, 2] ++ le 8 0 ++ (le 4 7 ++ le 2 2 ++ [0, 0]) } } }), ({ path := .mbx 8, sender := 2, bytes := le 2 0x0B11 ++ le 2 66 ++ le 2 ((le 4 7 ++ le 2 2 ++ [0, 0])).length ++ [0, 2] ++ le 8 0 ++ (le 4 7 ++ le 2 2 ++ [0, 0]) }), by decide⟩⟩

/-- The hypotheses of `Obligations.CommandService`, case by case, are met. -/
theorem witness_CommandService :
    (∃ (s : State), (s.on R.DEV_DIE_STAT_KFW_RUN = false ∨ s.fw.current.isSome = true ∨ s.fw.queue = [])) ∧
    (∃ (s : State) (q : Cmd) (rest : List Cmd), (s.on R.DEV_DIE_STAT_KFW_RUN = true) ∧ (s.fw.current = none) ∧ (s.fw.queue = q :: rest) ∧ (s.serves q = false)) ∧
    (∃ (s : State) (q : Cmd) (rest : List Cmd), (s.on R.DEV_DIE_STAT_KFW_RUN = true) ∧ (s.fw.current = none) ∧ (s.fw.queue = q :: rest) ∧ (s.serves q = true) ∧ ((s.readCmd q).headFault = none)) ∧
    (∃ (s : State) (q : Cmd) (rest : List Cmd) (st d : Nat), (s.on R.DEV_DIE_STAT_KFW_RUN = true) ∧ (s.fw.current = none) ∧ (s.fw.queue = q :: rest) ∧ (s.serves q = true) ∧ ((s.readCmd q).headFault = some (st, d))) ∧
    (∃ (s : State) (id : Nat), (s.runningAt id = none)) ∧
    (∃ (s : State) (id : Nat) (r : Running), (s.runningAt id = some r) ∧ (r.ending = none) ∧ (r.cmd.op ≠ 0x0211 ∧ r.cmd.op ≠ 0x0C10 ∧ r.cmd.op ≠ 0x0721)) ∧
    (∃ (s : State) (id : Nat) (r : Running) (e : Ending), (s.runningAt id = some r) ∧ (r.ending = some e) ∧ (r.deferred = false) ∧ (r.answered = false)) ∧
    (∃ (s : State) (id : Nat) (r : Running) (e : Ending), (s.runningAt id = some r) ∧ (r.ending = some e) ∧ (r.deferred = false) ∧ (r.answered = true)) ∧
    (∃ (s : State) (id : Nat) (r : Running) (e : Ending), (s.runningAt id = some r) ∧ (r.ending = some e) ∧ (r.deferred = true) ∧ (r.answered = false)) ∧
    (∃ (s : State) (id : Nat) (r : Running), (s.runningAt id = some r) ∧ (r.id = id) ∧ (r.ending = none) ∧ (r.cmd.op = 0x0211) ∧ (s.on (R.TSC_STEP_CTL_DENIED (r.cmd.b 0)) = true) ∧ (r.deferred = false) ∧ (r.answered = false)) ∧
    (∃ (s : State) (id : Nat) (r : Running), (s.runningAt id = some r) ∧ (r.id = id) ∧ (r.ending = none) ∧ (r.cmd.op = 0x0211) ∧ (s.on (R.TSC_STEP_CTL_DENIED (r.cmd.b 0)) = false) ∧ (s.on (R.TSC_STEP_CTL_DONE (r.cmd.b 0)) = true) ∧ (r.deferred = false) ∧ (r.answered = false)) ∧
    (∃ (s : State) (id : Nat) (r : Running), (s.runningAt id = some r) ∧ (r.id = id) ∧ (r.ending = none) ∧ (r.cmd.op = 0x0C10) ∧ (s.on (R.RFM_HOURS_CMD_DONE (r.cmd.b 0)) = true) ∧ (r.deferred = false) ∧ (r.answered = false)) ∧
    (∃ (s : State) (id : Nat) (r : Running), (s.runningAt id = some r) ∧ (r.ending = none) ∧ (r.cmd.op = 0x0211 ∧ s.on (R.TSC_STEP_CTL_DENIED (r.cmd.b 0)) = false ∧ s.on (R.TSC_STEP_CTL_DONE (r.cmd.b 0)) = false ∨ r.cmd.op = 0x0C10 ∧ s.on (R.RFM_HOURS_CMD_DONE (r.cmd.b 0)) = false)) ∧
    (∃ (s : State) (id : Nat) (r : Running), (s.runningAt id = some r) ∧ (r.id = id) ∧ (r.ending = none) ∧ (r.cmd.op = 0x0721) ∧ (s.namedEntry r.cmd = none) ∧ (r.deferred = false) ∧ (r.answered = false)) ∧
    (∃ (s : State) (id : Nat), (s.runningAt id = none)) ∧
    (∃ (s : State) (id : Nat) (r : Running), (s.runningAt id = some r) ∧ (r.deferred = true ∨ r.answered = true ∨ r.ending.isSome = true)) ∧
    (∃ (s : State) (id : Nat) (r : Running), (s.runningAt id = some r) ∧ (r.id = id) ∧ (r.deferred = false) ∧ (r.answered = false) ∧ (r.ending = none)) :=
  ⟨⟨z, by decide⟩,
    ⟨((((z.hi R.DEV_DIE_STAT_KFW_RUN).wr (R.MBX_STAT_STATE 8) 2 |>.wr (R.MBX_STAT_OWNER 8) 2)) |> fun (z : State) => { z with fw := { z.fw with queue := [{ path := .mbx 8, sender := 2 }] } }).wr (R.MBX_STAT_STATE 8) 0, ({ path := .mbx 8, sender := 2 }), [], by decide⟩,
    ⟨((((z.hi R.DEV_DIE_STAT_KFW_RUN).wr (R.MBX_STAT_STATE 8) 2 |>.wr (R.MBX_STAT_OWNER 8) 2)) |> fun (z : State) => { z with fw := { z.fw with queue := [{ path := .mbx 8, sender := 2 }] } }).wr (R.MBX_DATA_DATA 128) 0x00420010, ({ path := .mbx 8, sender := 2 }), [], by decide⟩,
    ⟨((((z.hi R.DEV_DIE_STAT_KFW_RUN).wr (R.MBX_STAT_STATE 8) 2 |>.wr (R.MBX_STAT_OWNER 8) 2)) |> fun (z : State) => { z with fw := { z.fw with queue := [{ path := .mbx 8, sender := 2 }] } }).wr (R.MBX_DATA_DATA 128) 0x00420013, ({ path := .mbx 8, sender := 2 }), [], 2, 0, by decide⟩,
    ⟨z, 4, by decide⟩,
    ⟨((z.hi R.DEV_DIE_STAT_KFW_RUN).wr (R.MBX_STAT_STATE 8) 2 |>.wr (R.MBX_STAT_OWNER 8) 2) |> fun (z : State) => { z with fw := { z.fw with nextId := 5, running := [{ id := 4, since := 9, cmd := { path := .mbx 8, sender := 2, bytes := le 2 0x0611 ++ le 2 66 ++ le 2 (([17, 5, 0, 0] : List Nat)).length ++ [0, 2] ++ le 8 0 ++ ([17, 5, 0, 0] : List Nat) }, ending := none, deferred := false, answered := false }] } }, 4, ({ id := 4, since := 9, cmd := { path := .mbx 8, sender := 2, bytes := le 2 0x0611 ++ le 2 66 ++ le 2 (([17, 5, 0, 0] : List Nat)).length ++ [0, 2] ++ le 8 0 ++ ([17, 5, 0, 0] : List Nat) }, ending := none, deferred := false, answered := false }), by decide⟩,
    ⟨((z.hi R.DEV_DIE_STAT_KFW_RUN).wr (R.MBX_STAT_STATE 8) 2 |>.wr (R.MBX_STAT_OWNER 8) 2) |> fun (z : State) => { z with fw := { z.fw with nextId := 5, running := [{ id := 4, since := 9, cmd := { path := .mbx 8, sender := 2, bytes := le 2 0x0610 ++ le 2 66 ++ le 2 (([17, 5, 0, 0] ++ le 4 0x11 ++ le 4 0 ++ le 4 0x0A000001 ++ le 12 0)).length ++ [0, 2] ++ le 8 0 ++ ([17, 5, 0, 0] ++ le 4 0x11 ++ le 4 0 ++ le 4 0x0A000001 ++ le 12 0) }, ending := some { status := 4, detail := 2, params := [1, 2, 3], time := 10 ^ 14 }, deferred := false, answered := false }] } }, 4, ({ id := 4, since := 9, cmd := { path := .mbx 8, sender := 2, bytes := le 2 0x0610 ++ le 2 66 ++ le 2 (([17, 5, 0, 0] ++ le 4 0x11 ++ le 4 0 ++ le 4 0x0A000001 ++ le 12 0)).length ++ [0, 2] ++ le 8 0 ++ ([17, 5, 0, 0] ++ le 4 0x11 ++ le 4 0 ++ le 4 0x0A000001 ++ le 12 0) }, ending := some { status := 4, detail := 2, params := [1, 2, 3], time := 10 ^ 14 }, deferred := false, answered := false }), ({ status := 4, detail := 2, params := [1, 2, 3], time := 10 ^ 14 }), by decide⟩,
    ⟨((z.hi R.DEV_DIE_STAT_KFW_RUN).wr (R.MBX_STAT_STATE 8) 2 |>.wr (R.MBX_STAT_OWNER 8) 2) |> fun (z : State) => { z with fw := { z.fw with nextId := 5, running := [{ id := 4, since := 9, cmd := { path := .mbx 8, sender := 2, bytes := le 2 0x0721 ++ le 2 66 ++ le 2 (([2, 4, 0, 0] ++ [10, 0, 0, 1] ++ List.replicate 12 0 ++ le 2 123 ++ le 2 0 ++ le 2 0 ++ [0, 0])).length ++ [0, 2] ++ le 8 0 ++ ([2, 4, 0, 0] ++ [10, 0, 0, 1] ++ List.replicate 12 0 ++ le 2 123 ++ le 2 0 ++ le 2 0 ++ [0, 0]) }, ending := some { status := 4, detail := 2, params := [1, 2, 3], time := 10 ^ 14 }, deferred := false, answered := true }] } }, 4, ({ id := 4, since := 9, cmd := { path := .mbx 8, sender := 2, bytes := le 2 0x0721 ++ le 2 66 ++ le 2 (([2, 4, 0, 0] ++ [10, 0, 0, 1] ++ List.replicate 12 0 ++ le 2 123 ++ le 2 0 ++ le 2 0 ++ [0, 0])).length ++ [0, 2] ++ le 8 0 ++ ([2, 4, 0, 0] ++ [10, 0, 0, 1] ++ List.replicate 12 0 ++ le 2 123 ++ le 2 0 ++ le 2 0 ++ [0, 0]) }, ending := some { status := 4, detail := 2, params := [1, 2, 3], time := 10 ^ 14 }, deferred := false, answered := true }), ({ status := 4, detail := 2, params := [1, 2, 3], time := 10 ^ 14 }), by decide⟩,
    ⟨((z.hi R.DEV_DIE_STAT_KFW_RUN).wr (R.MBX_STAT_STATE 8) 2 |>.wr (R.MBX_STAT_OWNER 8) 2) |> fun (z : State) => { z with fw := { z.fw with nextId := 5, running := [{ id := 4, since := 9, cmd := { path := .mbx 8, sender := 2, bytes := le 2 0x0B10 ++ le 2 66 ++ le 2 ((le 4 0x40 ++ le 4 0)).length ++ [2, 2] ++ le 8 0 ++ (le 4 0x40 ++ le 4 0) }, ending := some { status := 4, detail := 2, params := [1, 2, 3], time := 10 ^ 14 }, deferred := true, answered := false }] } } |> fun (z : State) => { z with fw := { z.fw with kept := [{ sender := 2, tag := 0x42, opcode := 0x0B10 }] } }, 4, ({ id := 4, since := 9, cmd := { path := .mbx 8, sender := 2, bytes := le 2 0x0B10 ++ le 2 66 ++ le 2 ((le 4 0x40 ++ le 4 0)).length ++ [2, 2] ++ le 8 0 ++ (le 4 0x40 ++ le 4 0) }, ending := some { status := 4, detail := 2, params := [1, 2, 3], time := 10 ^ 14 }, deferred := true, answered := false }), ({ status := 4, detail := 2, params := [1, 2, 3], time := 10 ^ 14 }), by decide⟩,
    ⟨((z.hi R.DEV_DIE_STAT_KFW_RUN).wr (R.MBX_STAT_STATE 8) 2 |>.wr (R.MBX_STAT_OWNER 8) 2).hi (R.TSC_STEP_CTL_DENIED 0) |> fun (z : State) => { z with fw := { z.fw with nextId := 5, running := [{ id := 4, since := 9, cmd := { path := .mbx 8, sender := 2, bytes := le 2 0x0211 ++ le 2 66 ++ le 2 (([0, 0, 1, 0] ++ le 2 0 ++ le 4 300000000 ++ le 6 1)).length ++ [0, 2] ++ le 8 0 ++ ([0, 0, 1, 0] ++ le 2 0 ++ le 4 300000000 ++ le 6 1) }, ending := none, deferred := false, answered := false }] } }, 4, ({ id := 4, since := 9, cmd := { path := .mbx 8, sender := 2, bytes := le 2 0x0211 ++ le 2 66 ++ le 2 (([0, 0, 1, 0] ++ le 2 0 ++ le 4 300000000 ++ le 6 1)).length ++ [0, 2] ++ le 8 0 ++ ([0, 0, 1, 0] ++ le 2 0 ++ le 4 300000000 ++ le 6 1) }, ending := none, deferred := false, answered := false }), by decide⟩,
    ⟨((z.hi R.DEV_DIE_STAT_KFW_RUN).wr (R.MBX_STAT_STATE 8) 2 |>.wr (R.MBX_STAT_OWNER 8) 2).hi (R.TSC_STEP_CTL_DONE 0) |> fun (z : State) => { z with fw := { z.fw with nextId := 5, running := [{ id := 4, since := 9, cmd := { path := .mbx 8, sender := 2, bytes := le 2 0x0211 ++ le 2 66 ++ le 2 (([0, 0, 1, 0] ++ le 2 0 ++ le 4 300000000 ++ le 6 1)).length ++ [0, 2] ++ le 8 0 ++ ([0, 0, 1, 0] ++ le 2 0 ++ le 4 300000000 ++ le 6 1) }, ending := none, deferred := false, answered := false }] } }, 4, ({ id := 4, since := 9, cmd := { path := .mbx 8, sender := 2, bytes := le 2 0x0211 ++ le 2 66 ++ le 2 (([0, 0, 1, 0] ++ le 2 0 ++ le 4 300000000 ++ le 6 1)).length ++ [0, 2] ++ le 8 0 ++ ([0, 0, 1, 0] ++ le 2 0 ++ le 4 300000000 ++ le 6 1) }, ending := none, deferred := false, answered := false }), by decide⟩,
    ⟨((z.hi R.DEV_DIE_STAT_KFW_RUN).wr (R.MBX_STAT_STATE 8) 2 |>.wr (R.MBX_STAT_OWNER 8) 2).hi (R.RFM_HOURS_CMD_DONE 1) |> fun (z : State) => { z with fw := { z.fw with nextId := 5, running := [{ id := 4, since := 9, cmd := { path := .mbx 8, sender := 2, bytes := le 2 0x0C10 ++ le 2 66 ++ le 2 (([1, 0, 0, 0] ++ le 4 1000)).length ++ [0, 2] ++ le 8 0 ++ ([1, 0, 0, 0] ++ le 4 1000) }, ending := none, deferred := false, answered := false }] } }, 4, ({ id := 4, since := 9, cmd := { path := .mbx 8, sender := 2, bytes := le 2 0x0C10 ++ le 2 66 ++ le 2 (([1, 0, 0, 0] ++ le 4 1000)).length ++ [0, 2] ++ le 8 0 ++ ([1, 0, 0, 0] ++ le 4 1000) }, ending := none, deferred := false, answered := false }), by decide⟩,
    ⟨((z.hi R.DEV_DIE_STAT_KFW_RUN).wr (R.MBX_STAT_STATE 8) 2 |>.wr (R.MBX_STAT_OWNER 8) 2) |> fun (z : State) => { z with fw := { z.fw with nextId := 5, running := [{ id := 4, since := 9, cmd := { path := .mbx 8, sender := 2, bytes := le 2 0x0211 ++ le 2 66 ++ le 2 (([0, 0, 1, 0] ++ le 2 0 ++ le 4 300000000 ++ le 6 1)).length ++ [0, 2] ++ le 8 0 ++ ([0, 0, 1, 0] ++ le 2 0 ++ le 4 300000000 ++ le 6 1) }, ending := none, deferred := false, answered := false }] } }, 4, ({ id := 4, since := 9, cmd := { path := .mbx 8, sender := 2, bytes := le 2 0x0211 ++ le 2 66 ++ le 2 (([0, 0, 1, 0] ++ le 2 0 ++ le 4 300000000 ++ le 6 1)).length ++ [0, 2] ++ le 8 0 ++ ([0, 0, 1, 0] ++ le 2 0 ++ le 4 300000000 ++ le 6 1) }, ending := none, deferred := false, answered := false }), by decide⟩,
    ⟨((z.hi R.DEV_DIE_STAT_KFW_RUN).wr (R.MBX_STAT_STATE 8) 2 |>.wr (R.MBX_STAT_OWNER 8) 2) |> fun (z : State) => { z with fw := { z.fw with nextId := 5, running := [{ id := 4, since := 9, cmd := { path := .mbx 8, sender := 2, bytes := le 2 0x0721 ++ le 2 66 ++ le 2 (([2, 4, 0, 0] ++ [10, 0, 0, 1] ++ List.replicate 12 0 ++ le 2 123 ++ le 2 0 ++ le 2 0 ++ [0, 0])).length ++ [0, 2] ++ le 8 0 ++ ([2, 4, 0, 0] ++ [10, 0, 0, 1] ++ List.replicate 12 0 ++ le 2 123 ++ le 2 0 ++ le 2 0 ++ [0, 0]) }, ending := none, deferred := false, answered := false }] } }, 4, ({ id := 4, since := 9, cmd := { path := .mbx 8, sender := 2, bytes := le 2 0x0721 ++ le 2 66 ++ le 2 (([2, 4, 0, 0] ++ [10, 0, 0, 1] ++ List.replicate 12 0 ++ le 2 123 ++ le 2 0 ++ le 2 0 ++ [0, 0])).length ++ [0, 2] ++ le 8 0 ++ ([2, 4, 0, 0] ++ [10, 0, 0, 1] ++ List.replicate 12 0 ++ le 2 123 ++ le 2 0 ++ le 2 0 ++ [0, 0]) }, ending := none, deferred := false, answered := false }), by decide⟩,
    ⟨z, 4, by decide⟩,
    ⟨((z.hi R.DEV_DIE_STAT_KFW_RUN).wr (R.MBX_STAT_STATE 8) 2 |>.wr (R.MBX_STAT_OWNER 8) 2) |> fun (z : State) => { z with fw := { z.fw with nextId := 5, running := [{ id := 4, since := 9, cmd := { path := .mbx 8, sender := 2, bytes := le 2 0x0B10 ++ le 2 66 ++ le 2 ((le 4 0x40 ++ le 4 0)).length ++ [2, 2] ++ le 8 0 ++ (le 4 0x40 ++ le 4 0) }, ending := none, deferred := true, answered := false }] } }, 4, ({ id := 4, since := 9, cmd := { path := .mbx 8, sender := 2, bytes := le 2 0x0B10 ++ le 2 66 ++ le 2 ((le 4 0x40 ++ le 4 0)).length ++ [2, 2] ++ le 8 0 ++ (le 4 0x40 ++ le 4 0) }, ending := none, deferred := true, answered := false }), by decide⟩,
    ⟨((z.hi R.DEV_DIE_STAT_KFW_RUN).wr (R.MBX_STAT_STATE 8) 2 |>.wr (R.MBX_STAT_OWNER 8) 2) |> fun (z : State) => { z with fw := { z.fw with nextId := 5, running := [{ id := 4, since := 9, cmd := { path := .mbx 8, sender := 2, bytes := le 2 0x0211 ++ le 2 66 ++ le 2 (([0, 0, 1, 0] ++ le 2 0 ++ le 4 300000000 ++ le 6 1)).length ++ [0, 2] ++ le 8 0 ++ ([0, 0, 1, 0] ++ le 2 0 ++ le 4 300000000 ++ le 6 1) }, ending := none, deferred := false, answered := false }] } }, 4, ({ id := 4, since := 9, cmd := { path := .mbx 8, sender := 2, bytes := le 2 0x0211 ++ le 2 66 ++ le 2 (([0, 0, 1, 0] ++ le 2 0 ++ le 4 300000000 ++ le 6 1)).length ++ [0, 2] ++ le 8 0 ++ ([0, 0, 1, 0] ++ le 2 0 ++ le 4 300000000 ++ le 6 1) }, ending := none, deferred := false, answered := false }), by decide⟩⟩

/-- The hypotheses of `Obligations.PowerArbiter`, case by case, are met. -/
theorem witness_PowerArbiter :
    (∃ (s : State) (demand : Nat) (temp : BitVec 16), ∃ e, e = (effective (s.rd R.PWR_CTL_BUDGET) temp.toInt) ∧ ((demand ≤ e))) ∧
    (∃ (s : State) (demand : Nat) (temp : BitVec 16) (c : Cut), ∃ e, e = (effective (s.rd R.PWR_CTL_BUDGET) temp.toInt) ∧ ∃ u, u = (s.waitClk (s.power.evalAt + 1000000 * 65536)) ∧ ((e < demand) ∧ (u.nextCut = some c))) ∧
    (∃ (s : State) (demand : Nat) (temp : BitVec 16), ∃ e, e = (effective (s.rd R.PWR_CTL_BUDGET) temp.toInt) ∧ ∃ u, u = (s.waitClk (s.power.evalAt + 1000000 * 65536)) ∧ ((e < demand) ∧ (u.nextCut = none))) ∧
    (∃ (s : State) (demand : Nat), (s.rd R.PWR_STAT_EFFECTIVE < demand + 4)) ∧
    (∃ (s : State) (demand : Nat), (demand + 4 ≤ s.rd R.PWR_STAT_EFFECTIVE) ∧ (s.liveCuts = [])) ∧
    (∃ (s : State) (demand : Nat) (c : Cut) (rest : List Cut), (demand + 4 ≤ s.rd R.PWR_STAT_EFFECTIVE) ∧ (s.liveCuts = c :: rest)) ∧
    (∃ (s : State) (i : Nat), (i ∉ s.power.waking)) ∧
    (∃ (s : State) (i : Nat), (i ∈ s.power.waking) ∧ (i < 48) ∧ (i ∉ s.watch.badEngines)) ∧
    (∃ (s : State) (i : Nat), (i ∈ s.power.waking) ∧ (i < 48) ∧ (i ∈ s.watch.badEngines)) ∧
    (∃ (s : State) (i : Nat), (i ∈ s.power.waking) ∧ (48 ≤ i ∧ i < 80) ∧ (bit (s.rd R.PWR_DIE_SLEEP_ASLEEP) ((i - 48) / 8) = false)) ∧
    (∃ (s : State) (i : Nat), (i ∈ s.power.waking) ∧ (48 ≤ i ∧ i < 80) ∧ (bit (s.rd R.PWR_DIE_SLEEP_ASLEEP) ((i - 48) / 8) = true)) ∧
    (∃ (s : State) (i : Nat), (i ∈ s.power.waking) ∧ (80 ≤ i ∧ i < 84) ∧ (bit (s.rd R.PWR_DIE_SLEEP_ASLEEP) (i - 80) = true) ∧ (s.laneState (i - 80) = 0)) ∧
    (∃ (s : State) (i : Nat), (i ∈ s.power.waking) ∧ (84 ≤ i ∨ (80 ≤ i ∧ bit (s.rd R.PWR_DIE_SLEEP_ASLEEP) (i - 80) = false))) :=
  ⟨⟨z.wr (R.TSC_LANE_STAT_STATE 2) 2 |>.wr (R.TSC_LANE_STAT_STATE 1) 2, 281, 0x7700, _, rfl, by decide⟩,
    ⟨z.wr (R.TSC_LANE_STAT_STATE 2) 2 |>.wr (R.TSC_LANE_STAT_STATE 1) 2, 296, 0x7700, .engine 23, _, rfl, _, rfl, by decide⟩,
    ⟨z, 400, 0x8001, _, rfl, _, rfl, by decide⟩,
    ⟨z, 317, by decide⟩,
    ⟨z, 316, by decide⟩,
    ⟨(z.wr R.PWR_PORT_PARKED_PORTS 0x20001).modPower (fun k => { k with cuts := [.port 17, .engine 3] }), 316, (.port 17), [.engine 3], by decide⟩,
    ⟨z, 5, by decide⟩,
    ⟨(z.wr (R.NTS_ENG_STAT_PARKED 2) 0x40).modPower (fun k => { k with waking := [30, 4] }), 30, by decide⟩,
    ⟨(z.modPower (fun k => { k with waking := [30, 4] })).modWatch (fun w => { w with badEngines := [30] }), 30, by decide⟩,
    ⟨(z.modPort 17 (fun k => { k with parked := true })).modPower (fun k => { k with waking := [65] }), 65, by decide⟩,
    ⟨(z.wr R.PWR_DIE_SLEEP_ASLEEP 4).modPower (fun k => { k with waking := [65] }), 65, by decide⟩,
    ⟨(z.wr R.PWR_DIE_SLEEP_ASLEEP 0xF).modPower (fun k => { k with waking := [82] }), 82, by decide⟩,
    ⟨z.modPower (fun k => { k with waking := [82] }), 82, by decide⟩⟩

/-- The hypotheses of `Obligations.ResetRequests`, case by case, are met. -/
theorem witness_ResetRequests :
    (∃ (w : Word), ((R.PWR_RST_CTL_KEY).of w.toNat ≠ 0xA5 ∨ resetKind ((R.PWR_RST_CTL_KIND).of w.toNat) = none)) ∧
    (∃ (s : State) (w : Word) (k : ResetKind), ((R.PWR_RST_CTL_KEY).of w.toNat = 0xA5) ∧ (resetKind ((R.PWR_RST_CTL_KIND).of w.toNat) = some k) ∧ (s.rst.active.isSome = true) ∧ (∀ a, s.rst.active = some a → k.rank ≤ a.1.rank)) ∧
    (∃ (s : State) (w : Word), ((R.PWR_RST_CTL_KEY).of w.toNat = 0xA5) ∧ ((R.PWR_RST_CTL_KIND).of w.toNat = 3) ∧ ((∀ a, s.rst.active = some a → a.1.rank < (ResetKind.cold).rank))) ∧
    (∃ (s : State) (w : Word), ((R.PWR_RST_CTL_KEY).of w.toNat = 0xA5) ∧ ((R.PWR_RST_CTL_KIND).of w.toNat = 1) ∧ ((∀ a, s.rst.active = some a → a.1.rank < (ResetKind.warm).rank))) ∧
    (∃ (s : State) (w : Word), ((R.PWR_RST_CTL_KEY).of w.toNat = 0xA5) ∧ ((R.PWR_RST_CTL_KIND).of w.toNat = 2) ∧ ((∀ a, s.rst.active = some a → a.1.rank < (ResetKind.warmTs).rank))) ∧
    (∃ (s : State) (w : Word) (n : Fin 4), ((R.PWR_RST_CTL_KEY).of w.toNat = 0xA5) ∧ ((R.PWR_RST_CTL_KIND).of w.toNat = 4 + n.val) ∧ ((∀ a, s.rst.active = some a → a.1.rank < (ResetKind.die n.val).rank))) ∧
    (∃ (s : State), (s.rst.requests = [])) ∧
    (∃ (s : State) (snd due : Nat) (rest : List (ResetKind × Nat × Nat)), (s.rst.requests = (.cold, snd, due) :: rest) ∧ ((∀ a, s.rst.active = some a → a.1.rank < (ResetKind.cold).rank))) ∧
    (∃ (s : State) (snd due : Nat) (rest : List (ResetKind × Nat × Nat)), (s.rst.requests = (.warm, snd, due) :: rest) ∧ ((∀ a, s.rst.active = some a → a.1.rank < (ResetKind.warm).rank))) ∧
    (∃ (s : State) (snd due : Nat) (rest : List (ResetKind × Nat × Nat)), (s.rst.requests = (.warmTs, snd, due) :: rest) ∧ ((∀ a, s.rst.active = some a → a.1.rank < (ResetKind.warmTs).rank))) ∧
    (∃ (s : State) (snd due : Nat) (n : Fin 4) (rest : List (ResetKind × Nat × Nat)), (s.rst.requests = (.die n.val, snd, due) :: rest) ∧ ((∀ a, s.rst.active = some a → a.1.rank < (ResetKind.die n.val).rank))) ∧
    (∃ (s : State) (k : ResetKind) (snd due : Nat) (rest : List (ResetKind × Nat × Nat)), (s.rst.requests = (k, snd, due) :: rest) ∧ (s.rst.active.isSome = true) ∧ ((∀ a, s.rst.active = some a → k.rank ≤ a.1.rank))) ∧
    (∃ (ns : Nat), (1000 ≤ ns)) ∧
    (∃ (ns : Nat), (ns < 1000)) ∧
    (∃ (us : Nat), (us < 2)) ∧
    (∃ (s : State) (us : Nat), (2 ≤ us) ∧ (s.rst.active.isSome = true) ∧ ((∀ a, s.rst.active = some a → a.1 = .powerOn))) ∧
    (∃ (s : State) (us : Nat), (2 ≤ us) ∧ (∀ a, s.rst.active = some a → a.1 ≠ .powerOn)) ∧
    (∃ (s : State), (s.on R.DEV_DIE_STAT_KFW_RUN = false)) ∧
    (∃ (s : State), (s.on R.DEV_DIE_STAT_KFW_RUN = true) ∧ ((∀ a, s.rst.active = some a → a.1.rank < (ResetKind.watchdog).rank))) ∧
    (∃ (s : State), (s.rst.active.isSome = true)) ∧
    (∃ (s : State), (s.rst.active = none)) ∧
    (∃ (s : State), (s.rst.active = none)) ∧
    (∃ (s : State), (s.rst.active.isSome = true)) ∧
    (∃ (s : State), (s.pcie.perstHigh = true)) ∧
    (∃ (s : State), (s.pcie.perstHigh = false)) :=
  ⟨⟨0x1A403, by decide⟩,
    ⟨{ z with rst := { z.rst with active := some (.watchdog, 0) } }, 0xA501, .warm, by decide⟩,
    ⟨{ z with rst := { z.rst with active := none } }, 0xA503, by decide⟩,
    ⟨{ z with rst := { z.rst with active := none } }, 0xA501, by decide⟩,
    ⟨{ z with rst := { z.rst with active := none } }, 0xA502, by decide⟩,
    ⟨{ z with rst := { z.rst with active := none } } |> fun (z : State) => z.wr (R.TSC_LANE_STAT_STATE 2) 2 |>.wr (R.MAC_STAT_STATE 17) 3, 0xA506, 2, by decide⟩,
    ⟨z, by decide⟩,
    ⟨{ z with rst := { z.rst with active := none, requests := [(.cold, 2, z.ts0 + 7)] } }, 2, (z.ts0 + 7), [], by decide⟩,
    ⟨{ z with rst := { z.rst with active := none, requests := [(.warm, 2, z.ts0 + 7), (.cold, 2, z.ts0 + 9)] } }, 2, (z.ts0 + 7), [(.cold, 2, z.ts0 + 9)], by decide⟩,
    ⟨{ z with rst := { z.rst with active := none, requests := [(.warmTs, 2, z.ts0 + 7)] } }, 2, (z.ts0 + 7), [], by decide⟩,
    ⟨{ z with rst := { z.rst with active := none, requests := [(.die 1, 2, z.ts0 + 7)] } }, 2, (z.ts0 + 7), 1, [], by decide⟩,
    ⟨{ z with rst := { z.rst with active := some (.cold, 0), requests := [(.warm, 2, z.ts0 + 7)] } }, .warm, 2, (z.ts0 + 7), [], by decide⟩,
    ⟨1000, by decide⟩,
    ⟨999, by decide⟩,
    ⟨1, by decide⟩,
    ⟨z, 2, by decide⟩,
    ⟨{ z with rst := { z.rst with active := none } }, 2, by decide⟩,
    ⟨z, by decide⟩,
    ⟨{ z with rst := { z.rst with active := none } } |> fun (z : State) => z.hi R.DEV_DIE_STAT_KFW_RUN, by decide⟩,
    ⟨{ z with rst := { z.rst with active := some (.die 2, 0) } }, by decide⟩,
    ⟨{ z with rst := { z.rst with active := none } } |> fun (z : State) => (z.hi (R.HRG_RING_CFG_EN 130)).modRing 130 (fun r => { r with fetch := 4 }) |>.wr (R.MBX_STAT_STATE 1) 3 |>.wr (R.MBX_STAT_OWNER 1) 1 |>.modRing 257 (fun r => { r with fetch := 4 }), by decide⟩,
    ⟨{ z with rst := { z.rst with active := none } }, by decide⟩,
    ⟨{ z with rst := { z.rst with active := some (.die 2, 0) } }, by decide⟩,
    ⟨{ z with pcie := { z.pcie with perstHigh := true } }, by decide⟩,
    ⟨{ z with pcie := { z.pcie with perstHigh := false } }, by decide⟩⟩

/-- The hypotheses of `Obligations.BootAndCommit`, case by case, are met. -/
theorem witness_BootAndCommit :
    (∃ (s : State), (s.booting = false ∨ s.rst.stage ≠ 0)) ∧
    (∃ (s : State) (sfdp : Option (Nat × Nat)), ∃ i0, i0 = ((takeSfdp sfdp s).cfg.slotImage 0) ∧ ∃ i1, i1 = ((takeSfdp sfdp s).cfg.slotImage 1) ∧ ((s.inTest = false) ∧ (s.rst.porLow = false) ∧ (s.booting = true) ∧ (s.rst.stage = 0) ∧ (bootSlot i0 i1 = none))) ∧
    (∃ (s : State) (sfdp : Option (Nat × Nat)) (k : Nat), ∃ i0, i0 = ((takeSfdp sfdp s).cfg.slotImage 0) ∧ ∃ i1, i1 = ((takeSfdp sfdp s).cfg.slotImage 1) ∧ ((s.inTest = false) ∧ (s.rst.porLow = false) ∧ (s.booting = true) ∧ (s.rst.stage = 0) ∧ (bootSlot i0 i1 = some k))) ∧
    (∃ (s : State), (s.booting = false ∨ s.rst.stage ≠ 1)) ∧
    (∃ (s : State), (s.booting = true) ∧ (s.rst.stage = 1)) ∧
    (∃ (s : State), (s.booting = false ∨ s.rst.stage ≠ 2)) ∧
    (∃ (s : State), (s.booting = true) ∧ (s.rst.stage = 2) ∧ (s.cfg.image = none)) ∧
    (∃ (s : State) (i : Image), (s.booting = true) ∧ (s.rst.stage = 2) ∧ (s.cfg.image = some i)) ∧
    (∃ (s : State), (s.rst.active = none ∨ (s.booting = true ∧ s.rst.stage ≠ 3))) ∧
    (∃ (s : State) (k : ResetKind) (snd : Nat), (s.rst.active = some (k, snd)) ∧ (k = .warm ∨ k = .warmTs ∨ k = .watchdog) ∧ (s.rst.stage = 3)) ∧
    (∃ (s : State) (k : ResetKind) (snd : Nat), (s.rst.active = some (k, snd)) ∧ (k = .powerOn ∨ k = .cold) ∧ (s.rst.stage = 3)) ∧
    (∃ (s : State) (n : Fin 4) (snd : Nat), (s.rst.active = some (.die n.val, snd)) ∧ (bit (s.rd R.PWR_DIE_SLEEP_ASLEEP) n.val = false) ∧ (s.laneState n.val = 0) ∧ (s.cfg.image = none ∨ s.on R.DEV_DIE_STAT_KFW_RUN = false)) ∧
    (∃ (s : State) (n : Fin 4) (snd : Nat), (s.rst.active = some (.die n.val, snd)) ∧ (bit (s.rd R.PWR_DIE_SLEEP_ASLEEP) n.val = true ∨ s.laneState n.val ≠ 0 ∨ (s.cfg.image.isSome = true ∧ s.on R.DEV_DIE_STAT_KFW_RUN = true))) ∧
    (∃ (s : State), (s.cfg.commit = none)) ∧
    (∃ (s : State) (j : CommitJob), (s.inTest = false) ∧ (s.cfg.commit = some j) ∧ (j.done + 1 < s.cfg.stepOps j)) ∧
    (∃ (s : State) (j : CommitJob), (s.inTest = false) ∧ (s.cfg.commit = some j) ∧ (s.cfg.stepOps j ≤ j.done + 1) ∧ (j.step < 7)) ∧
    (∃ (s : State) (j : CommitJob), (s.inTest = false) ∧ (s.cfg.commit = some j) ∧ (s.cfg.stepOps j ≤ j.done + 1) ∧ (7 ≤ j.step)) ∧
    (∃ (s : State) (j : CommitJob), (s.inTest = false) ∧ (s.cfg.commit = some j)) ∧
    (∃ (s : State), ((s.inTest = true ∨ s.rst.porLow = true))) ∧
    (∃ (s : State), (s.inTest = true)) :=
  ⟨⟨{ z with rst := { z.rst with active := none } }, by decide⟩,
    ⟨{ z with rst := { z.rst with active := some (.powerOn, 0), stage := 0 } }, (some (64, 4096)), _, rfl, _, rfl, by decide⟩,
    ⟨{ z with rst := { z.rst with active := some (.powerOn, 0), stage := 0 } } |> fun (z : State) => { z with cfg := { z.cfg with flash := ((((([0x4C, 0x55, 0x4D, 0x56, 1, 0, 64, 0] ++ le 4 7 ++ le 4 8 ++ le 4 (crc32c (List.replicate 8 0)) ++ List.replicate 36 0) ++ le 4 (crc32c ([0x4C, 0x55, 0x4D, 0x56, 1, 0, 64, 0] ++ le 4 7 ++ le 4 8 ++ le 4 (crc32c (List.replicate 8 0)) ++ List.replicate 36 0)) ++ le 4 sealed ++ List.replicate 8 0)).zipIdx).map (fun (e : Nat × Nat) => (0x1000000 + e.2, e.1))).filter (fun (e : Nat × Nat) => e.2 ≠ 0xFF) } }, (some (64, 65536)), 1, _, rfl, _, rfl, by decide⟩,
    ⟨{ z with rst := { z.rst with active := none } }, by decide⟩,
    ⟨{ z with rst := { z.rst with active := some (.powerOn, 0), stage := 1 } }, by decide⟩,
    ⟨{ z with rst := { z.rst with active := none } }, by decide⟩,
    ⟨{ z with rst := { z.rst with active := some (.powerOn, 0), stage := 2 } }, by decide⟩,
    ⟨{ z with rst := { z.rst with active := some (.powerOn, 0), stage := 2 } } |> fun (z : State) => { z with cfg := { z.cfg with image := some { pairs := [(0x110000, 0xC8), (0x10058, 1), (0x140000C, 0xC8)] } } }, ({ pairs := [(0x110000, 0xC8), (0x10058, 1), (0x140000C, 0xC8)] }), by decide⟩,
    ⟨{ z with rst := { z.rst with active := none } }, by decide⟩,
    ⟨{ z with rst := { z.rst with active := some (.warmTs, 2), stage := 3 } }, .warmTs, 2, by decide⟩,
    ⟨{ z with rst := { z.rst with active := some (.cold, 2), stage := 3 } }, .cold, 2, by decide⟩,
    ⟨{ z with rst := { z.rst with active := some (.die 2, 2) } }, 2, 2, by decide⟩,
    ⟨{ z with rst := { z.rst with active := some (.die 2, 2) } } |> fun (z : State) => z.wr R.PWR_DIE_SLEEP_ASLEEP 4, 2, 2, by decide⟩,
    ⟨z, by decide⟩,
    ⟨z |> fun (z : State) => { z with cfg := { z.cfg with commit := some { len := 200000, slot := 1, seq := 8, step := 1, done := 1, cmd := 4 } } }, ({ len := 200000, slot := 1, seq := 8, step := 1, done := 1, cmd := 4 }), by decide⟩,
    ⟨z |> fun (z : State) => { z with cfg := { z.cfg with commit := some { len := 8, slot := 1, seq := 8, step := 6, done := 0, cmd := 4 } } }, ({ len := 8, slot := 1, seq := 8, step := 6, done := 0, cmd := 4 }), by decide⟩,
    ⟨z |> fun (z : State) => { z with cfg := { z.cfg with commit := some { len := 8, slot := 1, seq := 8, step := 7, done := 0, cmd := 4 } } } |> fun (z : State) => { z with fw := { z.fw with running := [{ id := 4 }] } }, ({ len := 8, slot := 1, seq := 8, step := 7, done := 0, cmd := 4 }), by decide⟩,
    ⟨z |> fun (z : State) => { z with cfg := { z.cfg with commit := some { len := 8, slot := 1, seq := 8, step := 1, done := 0, cmd := 4 } } } |> fun (z : State) => { z with fw := { z.fw with running := [{ id := 4 }] } }, ({ len := 8, slot := 1, seq := 8, step := 1, done := 0, cmd := 4 }), by decide⟩,
    ⟨{ z with rst := { z.rst with tap := .clamp } }, by decide⟩,
    ⟨{ z with rst := { z.rst with tap := .clamp } }, by decide⟩⟩

/-- The hypotheses of `Obligations.CountersSelectReadClear`, case by case, are met. -/
theorem witness_CountersSelectReadClear :
  (∃ (w : Word) (n : Nat), (pctUnits (w.toNat % 2 ^ 10) = some n) ∧ ((w.toNat / 2 ^ 10 % 2 ^ 8 < n ∨ w.toNat % 2 ^ 10 = 0))) ∧
  (∃ (w : Word), ((pctUnits (w.toNat % 2 ^ 10) = none ∨ ∃ n : Fin 257, pctUnits (w.toNat % 2 ^ 10) = some n.val ∧ n.val ≤ w.toNat / 2 ^ 10 % 2 ^ 8)) ∧ (w.toNat % 2 ^ 10 ≠ 0)) :=
  ⟨⟨0x0040C60, 5, by decide⟩,
    ⟨0x2FF, by decide⟩⟩

/-- The hypotheses of `Obligations.EccErrors`, case by case, are met. -/
theorem witness_EccErrors :
    (∃ (s : State) (n : Fin 4) (e : Fin 2097152), ((IMap.get {} s.srv.cst (n.val * 2097152 + e.val)).valid = true)) ∧
    (∃ (s : State) (n : Fin 4) (e : Fin 2097152), ((IMap.get {} s.srv.cst (n.val * 2097152 + e.val)).valid = false)) ∧
    (∃ (s : State) (n : Fin 4) (e : Fin 16384), ((s.grant (n.val * 16384 + e.val)).valid = true)) ∧
    (∃ (s : State) (n : Fin 4) (e : Fin 16384), ((s.grant (n.val * 16384 + e.val)).valid = false)) ∧
    (∃ (s : State) (p : Fin 32) (q : Fin 8) (i : Nat), ((s.txq p.val q.val).length ≤ i)) ∧
    (∃ (s : State) (p : Fin 32) (q : Fin 8) (i : Nat), ((s.txq p.val q.val).length ≤ i)) ∧
    (∃ (s : State) (p : Fin 32) (q : Fin 8) (i : Nat), (i < (s.txq p.val q.val).length)) ∧
    (∃ (s : State) (p : Fin 32) (q : Fin 8) (i : Nat), (i < (s.txq p.val q.val).length)) ∧
    (∃ (s : State) (p : Fin 32) (i : Nat), (i < (s.port p.val).fec.length)) ∧
    (∃ (s : State) (p : Fin 32) (i : Nat), ((s.port p.val).fec.length ≤ i)) ∧
    (∃ (s : State) (p : Fin 32), ((s.port p.val).asm.isSome = true)) ∧
    (∃ (s : State) (p : Fin 32), ((s.port p.val).asm = none)) ∧
    (∃ (s : State) (g : Fin 8) (slot : Fin 16384), ((slot.val + 16384 - s.rd (R.TIM_GRP_RD_RD g.val)) % 16384 < (s.rd (R.TIM_GRP_WR_WR g.val) + 16384 - s.rd (R.TIM_GRP_RD_RD g.val)) % 16384)) ∧
    (∃ (s : State) (g : Fin 8) (slot : Fin 16384), (¬ (slot.val + 16384 - s.rd (R.TIM_GRP_RD_RD g.val)) % 16384 < (s.rd (R.TIM_GRP_WR_WR g.val) + 16384 - s.rd (R.TIM_GRP_RD_RD g.val)) % 16384)) ∧
    (∃ (s : State) (a : EccArray), (a = .firmware ∨ a = .keys ∨ a = .shadow) ∧ (∀ k, s.rst.active = some k → k.1.rank < ResetKind.warm.rank)) ∧
    (∃ (s : State) (a : EccArray), (a = .firmware ∨ a = .keys ∨ a = .shadow) ∧ (s.rst.active.isSome = true) ∧ (∀ k, s.rst.active = some k → ResetKind.warm.rank ≤ k.1.rank)) :=
  ⟨⟨z |> fun (z : State) => z.setCst (2 * 2097152 + 70000) { valid := true }, 2, 70000, by decide⟩,
    ⟨z, 2, 70000, by decide⟩,
    ⟨z |> fun (z : State) => z.setGrant (3 * 16384 + 16383) { valid := true }, 3, 16383, by decide⟩,
    ⟨z, 3, 16383, by decide⟩,
    ⟨z, 9, 7, 0, by decide⟩,
    ⟨z, 9, 7, 0, by decide⟩,
    ⟨z |> fun (z : State) => setTxq 9 7 [{ kind := .answer, bytes := [1] }, { kind := .answer, bytes := [2] }, { kind := .answer, bytes := [3] }] z, 9, 7, 1, by decide⟩,
    ⟨z |> fun (z : State) => setTxq 9 7 [{ kind := .answer, bytes := [1] }, { kind := .answer, bytes := [2] }, { kind := .answer, bytes := [3] }] z, 9, 7, 1, by decide⟩,
    ⟨z.modPort 17 (fun k => { k with fec := [{}, {}] }), 17, 1, by decide⟩,
    ⟨z, 17, 1, by decide⟩,
    ⟨z.modPort 17 (fun k => { k with asm := some { count := 1, frags := 1, bytes := List.replicate 64 1 } }), 17, by decide⟩,
    ⟨z, 17, by decide⟩,
    ⟨z.wr (R.TIM_GRP_RD_RD 3) 16380 |>.wr (R.TIM_GRP_WR_WR 3) 4, 3, 2, by decide⟩,
    ⟨z.wr (R.TIM_GRP_RD_RD 3) 16380 |>.wr (R.TIM_GRP_WR_WR 3) 4, 3, 4, by decide⟩,
    ⟨{ z with rst := { z.rst with active := none } }, .keys, by decide⟩,
    ⟨{ z with rst := { z.rst with active := some (.cold, 0) } }, .shadow, by decide⟩⟩

/-- The hypotheses of `Obligations.WatchRuns`, case by case, are met. -/
theorem witness_WatchRuns :
    (∃ (s : State), (s.watch.run = none ∨ ∀ r, s.watch.run = some r → r.tests = [] ∨ r.waiting = false)) ∧
    (∃ (s : State) (r : WatchRun) (k : Nat) (rest : List Nat), (s.watch.run = some r) ∧ (r.tests = k :: rest) ∧ (r.waiting = true) ∧ (s.watchEmpty k = false) ∧ (((k = 4 ∧ s.spareCh = none) ∨ (k = 5 ∧ ∃ d ∈ s.ntsDies, 128 < (s.ntsDie d).queue.length)))) ∧
    (∃ (s : State) (r : WatchRun) (k a : Nat) (rest : List Nat), (s.watch.run = some r) ∧ (r.tests = k :: rest) ∧ (r.waiting = true) ∧ (s.watchEmpty k = false) ∧ (s.lastDisturbed r k = some a) ∧ (a + sec16 1 ≤ r.since + sec16 (if r.scheduled = true then max 1 (s.rd R.WCH_CTL_WIN) else [20, 60, 30, 10, 30, 120, 60, 1].getD k 0))) ∧
    (∃ (s : State) (r : WatchRun) (k : Fin 8) (a : Nat), ∃ lim, lim = (r.since + sec16 (if r.scheduled = true then max 1 (s.rd R.WCH_CTL_WIN) else [20, 60, 30, 10, 30, 120, 60, 1].getD k.val 0)) ∧ ((s.watch.run = some r) ∧ (r.tests = [k.val]) ∧ (r.waiting = true) ∧ (s.watchEmpty k.val = false) ∧ (s.watch.due = false) ∧ (s.lastDisturbed r k.val = some a) ∧ (lim < a + sec16 1))) ∧
    (∃ (s : State), (∀ r, s.watch.run = some r → r.tests = [] ∨ r.waiting = true)) ∧
    (∃ (s : State) (r : WatchRun) (k : Fin 8), (s.watch.run = some r) ∧ (r.tests = [k.val]) ∧ (s.watch.due = false) ∧ (r.waiting = false) ∧ (k ≠ 6) ∧ (k ≠ 7) ∧ (s.clk ≤ r.since + sec16 ([20, 60, 30, 10, 30, 120, 60, 1].getD k.val 0))) ∧
    (∃ (s : State) (r : WatchRun), (s.watch.run = some r) ∧ (r.tests = [6]) ∧ (s.watch.due = false) ∧ (r.waiting = false) ∧ (s.clk ≤ r.since + sec16 60)) ∧
    (∃ (s : State) (r : WatchRun), (s.watch.run = some r) ∧ (r.tests = [7]) ∧ (s.watch.due = false) ∧ (r.waiting = false) ∧ (s.clk ≤ r.since + sec16 1)) ∧
    (∃ (s : State) (bad : List (Fin 256)) (m : Word) (r : WatchRun) (k j : Fin 8) (rest : List Nat), ∃ u, u = (s.begin.waitClk (r.since + (if k = 3 then ms16 r.outs.length else if k = 5 then sec16 r.engs.length else 0))) ∧ ∃ v, v = (writeResult k.val (if bad = [] then 1 else 2) ((bad.map (·.val)).headD 0) (if k.val = 0 ∨ k.val = 5 then bad.length else m.toNat) (returnBorrowed (keepBad k.val (bad.map (·.val)) u))) ∧ ((s.watch.run = some r) ∧ (r.tests = k.val :: j.val :: rest) ∧ (r.waiting = false) ∧ (s.clk ≤ r.since + sec16 ([20, 60, 30, 10, 30, 120, 60, 1].getD k.val 0)) ∧ ((∀ x ∈ j.val :: rest, k.val < x)) ∧ (s.watchEmpty j.val = false) ∧ (k ≠ 6) ∧ (k ≠ 7) ∧ (v.disturbs j.val = false))) ∧
    (∃ (s : State) (r : WatchRun) (k : Fin 8), (s.watch.run = some r) ∧ (r.tests = [k.val]) ∧ (s.watch.due = false) ∧ (r.waiting = false) ∧ (r.since + sec16 ([20, 60, 30, 10, 30, 120, 60, 1].getD k.val 0) < s.clk)) ∧
    (∃ (s : State) (r : WatchRun) (k : Fin 8), (s.watch.run = some r) ∧ (r.tests = [k.val]) ∧ (s.watch.due = true) ∧ (r.waiting = false) ∧ (k ≠ 6) ∧ (k ≠ 7)) ∧
    (∃ (s : State), (∀ r, s.watch.run = some r → r.tests = [])) ∧
    (∃ (s : State) (r : WatchRun) (k : Fin 8), (s.watch.run = some r) ∧ (r.tests = [k.val]) ∧ (s.watch.due = false)) ∧
    (∃ (s : State) (r : WatchRun) (k : Nat) (j : Nat) (rest : List Nat), (s.watch.run = some r) ∧ (r.tests = k :: j :: rest)) :=
  ⟨⟨z, by decide⟩,
    ⟨((z.wr (R.NTS_CTL_EN 1) 1).modNts 1 (fun k => { k with queue := List.replicate 129 {} })) |> fun (z : State) => z.modWatch (fun w => { w with run := some { tests := [5, 6], waiting := true } }), { tests := [5, 6], waiting := true }, 5, [6], by decide⟩,
    ⟨(z.wr R.GNS_CTL_EN 1).hi (R.GNS_CH_CFG_RSV 159) |> fun (z : State) => z.modWatch (fun w => { w with run := some { tests := [4, 6], waiting := true, foundAt := 5, scheduled := true, cmd := some 3 } }), { tests := [4, 6], waiting := true, foundAt := 5, scheduled := true, cmd := some 3 }, 4, 5, [6], by decide⟩,
    ⟨(z.wr R.GNS_CTL_EN 1).hi (R.GNS_CH_CFG_RSV 159) |> fun (z : State) => z.modWatch (fun w => { w with run := some { tests := [4], waiting := true, foundAt := sec16 30, cmd := some 3 } }), { tests := [4], waiting := true, foundAt := sec16 30, cmd := some 3 }, 4, sec16 30, _, rfl, by decide⟩,
    ⟨z, by decide⟩,
    ⟨z |> fun (z : State) => z.modWatch (fun w => { w with run := some { tests := [0], cmd := some 3, outs := [4], since := 5 } }), { tests := [0], cmd := some 3, outs := [4], since := 5 }, 0, by decide⟩,
    ⟨z |> fun (z : State) => z.modWatch (fun w => { w with run := some { tests := [6] } }), { tests := [6] }, by decide⟩,
    ⟨z |> fun (z : State) => z.modWatch (fun w => { w with run := some { tests := [7] } }), { tests := [7] }, by decide⟩,
    ⟨z |> fun (z : State) => z.modWatch (fun w => { w with run := some { tests := [0, 1, 6] } }), [2, 1], 9, ({ tests := [0, 1, 6] }), 0, 1, [6], _, rfl, _, rfl, by decide⟩,
    ⟨{ z with tick := { z.tick with bank0 := { z.tick.bank0 with ts := sec16 200 * 2 ^ 32 } } } |> fun (z : State) => z.modWatch (fun w => { w with run := some { tests := [5], since := 0, engs := List.range 12 } }), { tests := [5], since := 0, engs := List.range 12 }, 5, by decide⟩,
    ⟨z |> fun (z : State) => z.modWatch (fun w => { w with run := some { tests := [0], cmd := some 3 } }) |> fun (z : State) => { z with fw := { z.fw with running := [{ id := 3 }] } } |> fun (z : State) => z.modWatch (fun w => { w with due := true }), ({ tests := [0], cmd := some 3 }), 0, by decide⟩,
    ⟨z, by decide⟩,
    ⟨z |> fun (z : State) => z.modWatch (fun w => { w with run := some { tests := [4], waiting := true, scheduled := true, cmd := some 3 } }) |> fun (z : State) => { z with fw := { z.fw with running := [{ id := 3 }] } }, ({ tests := [4], waiting := true, scheduled := true, cmd := some 3 }), 4, by decide⟩,
    ⟨z |> fun (z : State) => z.modWatch (fun w => { w with run := some { tests := [2, 3] } }), ({ tests := [2, 3] }), 2, 3, [], by decide⟩⟩

/-- The hypotheses of `Obligations.TapInstructions`, case by case, are met. -/
theorem witness_TapInstructions :
    (∃ (s : State), (s.rst.tap = .idcode)) ∧
    (∃ (s : State), ((s.rst.tap = .bypass ∨ s.rst.tap = .clamp ∨ s.rst.tap = .highz))) ∧
    (∃ (s : State) (tdi : List Bool), ((s.rst.tap = .sample ∨ s.rst.tap = .extest ∨ s.rst.tap = .extestPulse ∨ s.rst.tap = .extestTrain)) ∧ (tdi.length = 1210)) ∧
    (∃ (s : State) (op : TapOp) (i : TapInstr), (((op = .reset ∧ i = .idcode) ∨ ∃ b : Byte, op = .load b ∧ tapDecode b.toNat = i)) ∧ (s.rst.tap ∉ [TapInstr.extest, .clamp, .highz, .extestPulse, .extestTrain]) ∧ (i ∉ [TapInstr.extest, .clamp, .highz, .extestPulse, .extestTrain])) ∧
    (∃ (s : State) (op : TapOp) (i : TapInstr), (((op = .reset ∧ i = .idcode) ∨ ∃ b : Byte, op = .load b ∧ tapDecode b.toNat = i)) ∧ (i ∈ [TapInstr.extest, .clamp, .highz, .extestPulse, .extestTrain]) ∧ ((s.rst.tap ∉ [TapInstr.extest, .clamp, .highz, .extestPulse, .extestTrain] ∨ s.rst.tap = i))) ∧
    (∃ (s : State) (op : TapOp) (i : TapInstr), (((op = .reset ∧ i = .idcode) ∨ ∃ b : Byte, op = .load b ∧ tapDecode b.toNat = i)) ∧ (s.rst.tap ∈ [TapInstr.extest, .clamp, .highz, .extestPulse, .extestTrain]) ∧ (s.rst.tap ≠ i) ∧ (i ∉ [TapInstr.extest, .clamp, .highz, .extestPulse, .extestTrain]) ∧ ((∀ a, s.rst.active = some a → a.1.rank < ResetKind.cold.rank))) ∧
    (∃ (s : State) (op : TapOp) (i : TapInstr), (((op = .reset ∧ i = .idcode) ∨ ∃ b : Byte, op = .load b ∧ tapDecode b.toNat = i)) ∧ (s.rst.tap ∈ [TapInstr.extest, .clamp, .highz, .extestPulse, .extestTrain]) ∧ (s.rst.tap ≠ i) ∧ (i ∈ [TapInstr.extest, .clamp, .highz, .extestPulse, .extestTrain]) ∧ ((∀ a, s.rst.active = some a → a.1.rank < ResetKind.cold.rank))) ∧
    (∃ (s : State) (op : TapOp) (i : TapInstr), (((op = .reset ∧ i = .idcode) ∨ ∃ b : Byte, op = .load b ∧ tapDecode b.toNat = i)) ∧ (s.rst.tap ∈ [TapInstr.extest, .clamp, .highz, .extestPulse, .extestTrain]) ∧ (s.rst.tap ≠ i) ∧ (i ∉ [TapInstr.extest, .clamp, .highz, .extestPulse, .extestTrain]) ∧ (s.rst.active.isSome = true) ∧ ((∀ a, s.rst.active = some a → ResetKind.cold.rank ≤ a.1.rank))) :=
  ⟨⟨z, by decide⟩,
    ⟨{ z with rst := { z.rst with tap := .bypass } }, by decide⟩,
    ⟨{ z with rst := { z.rst with tap := .sample } }, List.replicate 1210 true, by decide⟩,
    ⟨z, .load 2, .sample, Or.inr ⟨2, by decide⟩, by decide⟩,
    ⟨z.wr (R.MAC_STAT_STATE 17) 3, .load 3, .extest, Or.inr ⟨3, by decide⟩, by decide⟩,
    ⟨{ z with rst := { z.rst with active := none } } |> fun (z : State) => { z with rst := { z.rst with tap := .extest } }, .load 0xFF, .bypass, Or.inr ⟨0xFF, by decide⟩, by decide⟩,
    ⟨{ z with rst := { z.rst with active := none } } |> fun (z : State) => { z with rst := { z.rst with tap := .extest } }, .load 4, .clamp, Or.inr ⟨4, by decide⟩, by decide⟩,
    ⟨{ z with rst := { z.rst with active := some (.powerOn, 0) } } |> fun (z : State) => { z with rst := { z.rst with tap := .extest } }, .reset, .idcode, Or.inl ⟨rfl, rfl⟩, by decide⟩⟩

/-- The hypotheses of `Obligations.HostReads`, case by case, are met. -/
theorem witness_HostReads :
    (∃ (s : State) (fn : Fin 2) (a : Nat) (r : Register), (fn = 1 ∨ pf0Reaches a = true) ∧ (a < 0x8000000) ∧ (s.windowOff a = false) ∧ (a < 0x100000 ∨ 0x100800 ≤ a) ∧ (s.bufferWord a = none) ∧ (statAt a = none) ∧ (¬ (0x120000 ≤ a ∧ a < 0x140000)) ∧ (¬ (0x40214 ≤ a ∧ a < 0x40280)) ∧ (regAt a = some r)) ∧
    (∃ (s : State) (a : Nat), (a < 0x8000000) ∧ (s.windowOff a = false) ∧ (a < 0x100000 ∨ 0x100800 ≤ a) ∧ (s.bufferWord a = none) ∧ (statAt a = none) ∧ (¬ (0x120000 ≤ a ∧ a < 0x140000)) ∧ (¬ (0x40214 ≤ a ∧ a < 0x40280)) ∧ (regAt a = none)) ∧
    (∃ (s : State) (fn : Fin 2) (a : Nat) (v : Nat), (fn = 1 ∨ pf0Reaches a = true) ∧ (s.bufferWord a = some v) ∧ (a < 0x8000000)) ∧
    (∃ (s : State) (a : Nat) (k : Nat), (statAt a = some (k, false)) ∧ (s.windowOff a = false)) ∧
    (∃ (s : State) (a : Nat) (k : Nat), (statAt a = some (k, true)) ∧ (s.windowOff a = false)) ∧
    (∃ (s : State) (n : Fin 2) (k : Fin 6), (0 < k.val) ∧ (IMap.get 0 (s.gnsAnt n.val).latch 6 = 1)) ∧
    (∃ (s : State) (fn : Fin 2) (a : Nat), ∃ u, u = (settleEnded s) ∧ ((0x8000000 ≤ a ∧ a < 0x9000000) ∧ (((a - 0x8000000) / 0x1000) < 258) ∧ (u.reaches fn.val ((a - 0x8000000) / 0x1000) = true) ∧ (a ≠ 0x8101188))) ∧
    (∃ (a : Nat), (a < 0x8000000) ∧ (pf0Reaches a = false)) ∧
    (∃ (s : State) (a : Nat), ∃ u, u = (settleEnded s) ∧ ((0x8000000 ≤ a ∧ a < 0x9000000) ∧ ((258 ≤ ((a - 0x8000000) / 0x1000) ∨ u.reaches 0 ((a - 0x8000000) / 0x1000) = false)))) ∧
    (∃ (a : Nat), (0x8000000 ≤ a ∧ a < 0x9000000) ∧ (258 ≤ ((a - 0x8000000) / 0x1000))) ∧
    (∃ (s : State) (a : Nat), (s.windowOff a = true)) ∧
    (∃ (a : Nat), (0x9000000 ≤ a)) :=
  ⟨⟨z.wr R.WCH_ECC_CORR 7 |>.wr R.WCH_ECC_UNCORR 9, 1, 0x140060, Reg.WCH_ECC, by decide⟩,
    ⟨z, 0x180000, by decide⟩,
    ⟨z, 0, 0x40, 0x14010001, by decide⟩,
    ⟨z.wr (R.TSC_LANE_STAT_STATE 2) 2 |> fun (z : State) => { z with srv := { z.srv with stats := IMap.put 0 z.srv.stats 2113 (2 ^ 40 + 5) } }, 0x3100808, 2113, by decide⟩,
    ⟨z.wr (R.TSC_LANE_STAT_STATE 2) 2 |> fun (z : State) => { z with srv := { z.srv with latch := IMap.put 0 z.srv.latch 2113 5 } }, 0x310080C, 2113, by decide⟩,
    ⟨z.modAnt 1 (fun q => { q with latch := [(3, 99), (6, 1)] }), 1, 3, by decide⟩,
    ⟨z, 1, 0x8005010, _, rfl, by decide⟩,
    ⟨0x10000, by decide⟩,
    ⟨z, 0x8102000, _, rfl, by decide⟩,
    ⟨0x8102000, by decide⟩,
    ⟨z.wr (R.TSC_LANE_STAT_STATE 0) 0, 0x1000000, by decide⟩,
    ⟨0x9000000, by decide⟩⟩

/-- The hypotheses of `Obligations.HostWrites`, case by case, are met. -/
theorem witness_HostWrites :
    (∃ (s : State) (a : Nat) (w : Word) (r : Register), (a < 0x8000000) ∧ (s.windowOff a = false) ∧ ((a < 0x100000 ∨ 0x100800 ≤ a)) ∧ (¬ (0x120000 ≤ a ∧ a < 0x140000)) ∧ ((writeTsc 2 a w.toNat).or ((writeEns 2 a w.toNat).or ((writeGns a w.toNat).or ((writeKeeper 2 a w.toNat).or (writeDie a w.toNat)))) = none) ∧ (evtAt a = none) ∧ (regAt a = some r)) ∧
    (∃ (s : State) (a : Nat) (w : Word) (e : EvtSrc) (r : Register) (f : Field), (a < 0x8000000) ∧ (s.windowOff a = false) ∧ ((a < 0x100000 ∨ 0x100800 ≤ a)) ∧ (¬ (0x120000 ≤ a ∧ a < 0x140000)) ∧ ((writeTsc 2 a w.toNat).or ((writeEns 2 a w.toNat).or ((writeGns a w.toNat).or ((writeKeeper 2 a w.toNat).or (writeDie a w.toNat)))) = none) ∧ (evtAt a = some e) ∧ (e.en = some f) ∧ (regAt a = some r) ∧ (r.fields = [f])) ∧
    (∃ (s : State) (a : Nat) (w : Word), (a < 0x8000000) ∧ (s.windowOff a = false) ∧ ((a < 0x100000 ∨ 0x100800 ≤ a)) ∧ (¬ (0x120000 ≤ a ∧ a < 0x140000)) ∧ ((writeTsc 2 a w.toNat).or ((writeEns 2 a w.toNat).or ((writeGns a w.toNat).or ((writeKeeper 2 a w.toNat).or (writeDie a w.toNat)))) = none) ∧ (regAt a = none)) ∧
    (∃ (a : Nat), (a < 0x10000)) ∧
    (∃ (a : Nat), (0x120000 ≤ a ∧ a < 0x140000)) ∧
    (∃ (s : State) (fn : Fin 2) (a : Nat), ∃ u, u = (settleEnded s) ∧ ((0x8000000 ≤ a ∧ a < 0x9000000) ∧ (((a - 0x8000000) / 0x1000) < 258) ∧ (u.reaches fn.val ((a - 0x8000000) / 0x1000) = true) ∧ (u.ownsRing fn.val ((a - 0x8000000) / 0x1000) = false) ∧ (a % 0x1000 ≠ 0) ∧ (a % 0x1000 ≠ 0xC))) ∧
    (∃ (a : Nat), (a < 0x8000000) ∧ (pf0Reaches a = false)) ∧
    (∃ (s : State) (a : Nat), ∃ u, u = (settleEnded s) ∧ ((0x8000000 ≤ a ∧ a < 0x9000000) ∧ ((258 ≤ ((a - 0x8000000) / 0x1000) ∨ u.reaches 0 ((a - 0x8000000) / 0x1000) = false)))) ∧
    (∃ (s : State) (a : Nat), (s.windowOff a = true)) ∧
    (∃ (a : Nat), (0x9000000 ≤ a)) :=
  ⟨⟨z, 0x140000, 0xDEADBEEF, Reg.WCH_CTL, by decide⟩,
    ⟨z.wr R.WCH_EVT_BITS 7, 0x140010, 0x1F, Evt.wch, Reg.WCH_EVT_EN, R.WCH_EVT_EN_BITS, by decide⟩,
    ⟨z, 0x180000, 7, by decide⟩,
    ⟨0x40, by decide⟩,
    ⟨0x120010, by decide⟩,
    ⟨z, 1, 0x8005018, _, rfl, by decide⟩,
    ⟨0x10000, by decide⟩,
    ⟨z, 0x8102000, _, rfl, by decide⟩,
    ⟨z.wr (R.TSC_LANE_STAT_STATE 0) 0, 0x1000000, by decide⟩,
    ⟨0x9000000, by decide⟩⟩

/-- The hypotheses of `Obligations.LockReadAnswers`, case by case, are met. -/
theorem witness_LockReadAnswers :
    (∃ (s : State) (c : Fin 16) (p : MbxPath), (c.val < 8 ∨ reachesSecure p = true) ∧ (s.rxDown c.val = false) ∧ (mbxAccepts c.val (pathId p) = true) ∧ (s.mbxState c.val = 0)) ∧
    (∃ (s : State) (c : Fin 16) (p : MbxPath), (c.val < 8 ∨ reachesSecure p = true) ∧ (s.rxDown c.val = false) ∧ (mbxAccepts c.val (pathId p) = true) ∧ (s.mbxState c.val ≠ 0)) ∧
    (∃ (s : State) (c : Fin 16) (p : MbxPath), (c.val < 8 ∨ reachesSecure p = true) ∧ (s.rxDown c.val = false) ∧ (mbxAccepts c.val (pathId p) = false)) :=
  ⟨⟨z.hi R.DEV_DIE_STAT_KFW_RUN, 2, (.beacon 1), by decide⟩,
    ⟨z.hi R.DEV_DIE_STAT_KFW_RUN |> fun (z : State) => z.wr (R.MBX_STAT_STATE 2) 2 |>.wr (R.MBX_STAT_OWNER 2) 6, 2, (.beacon 1), by decide⟩,
    ⟨z.hi R.DEV_DIE_STAT_KFW_RUN |> fun (z : State) => z.wr (R.MBX_STAT_STATE 2) 2 |>.wr (R.MBX_STAT_OWNER 2) 6, 2, (.host 1), by decide⟩⟩

/-- The hypotheses of `Obligations.FilterArithmetic`, case by case, are met. -/
theorem witness_FilterArithmetic :
    (∃ (s : State) (b : Bank), ∃ due, due = (s.nextStep) ∧ ((s.eng b ≠ .unset) ∧ ((b = .ts1 → s.rd R.TSC_CTL_TS1_EN = 1)) ∧ (due % sec16 64 ≠ 0))) ∧
    (∃ (s : State) (b : Bank), (s.eng b = .unset)) :=
  ⟨⟨z.wr R.ENS_STAT_STATE 1, .ts0, _, rfl, by decide⟩,
    ⟨z, .ts0, by decide⟩⟩

/-- The hypotheses of `Obligations.BarredStepIsDropped`, case by case, are met. -/
theorem witness_BarredStepIsDropped :
    (∃ (s : State), (s.rd (R.TSC_STEP_CTL_PENDING 0) = 1) ∧ (s.tick.bank0.stepMarkers = 0) ∧ (s.tick.bank0.stepBy = 0) ∧ (s.rd R.TSC_STAT_SERVED = 1)) :=
  ⟨(z.hi (R.TSC_STEP_CTL_PENDING 0)).hi R.TSC_STAT_SERVED, by decide⟩

end Sys2Proof.Tests
end

section
/-! PROOFS. Written words, and what the ends of commands add: shared by the proofs about the timescale's commands. -/

namespace Sys2Proof.Machine

/-! ### Written words -/

/-- Setting a one-bit field of a word leaves the fields above it. -/
theorem Field.of_setIn_above (f g : Field) (w : Nat) (h : f.lsb < g.lsb) : g.of (f.setIn w) = g.of w := by
  obtain ⟨k, hk⟩ := Nat.exists_eq_add_of_lt h
  have hp : 2 ^ g.lsb = 2 ^ f.lsb * (2 * 2 ^ k) := by rw [hk]; ring
  unfold Field.of Field.setIn
  split
  · rfl
  · next hb =>
    have hdiv : (w / 2 ^ f.lsb + 1) / 2 = w / 2 ^ f.lsb / 2 := by omega
    simp only [hp, ← Nat.div_div_eq_div_mul, Nat.add_div_right _ (Nat.two_pow_pos f.lsb), hdiv]

/-! ### How a command ends -/

/-- The queue is none of the parts. -/
theorem touches_set_pending {ps : List Part} {s₀ s : State} {q : List Instr} (h : Touches ps s₀ s) :
    Touches ps s₀ { s with pending := q } :=
  ⟨fun p hp => by have := h.1 p hp; cases p <;> exact this, h.2⟩

/-- A command that goes on touches what its effect touches. -/
theorem touches_go {ps : List Part} {f : State → State} {s t : State} (e : go f s = .next t) (h : Touches ps s (f s.begin)) :
    Touches ps s t := by
  cases e
  exact touches_set_pending (touches_countEdges _ _ h)

/-! ### The banks of the tick domain -/

@[simp] theorem bank_setBank_same (k : Tick) (b : Bank) (v : TickBank) : (k.setBank b v).bank b = v := by cases b <;> rfl

@[simp] theorem setBank_bank (k : Tick) (b : Bank) : k.setBank b (k.bank b) = k := by cases b <;> rfl

@[simp] theorem setBank_count (k : Tick) (b : Bank) (v : TickBank) : (k.setBank b v).count = k.count := by cases b <;> rfl

@[simp] theorem setBank_latchAt (k : Tick) (b : Bank) (v : TickBank) : (k.setBank b v).latchAt = k.latchAt := by cases b <;> rfl

@[simp] theorem modBank_tick (s : State) (b : Bank) (f : TickBank → TickBank) :
    (s.modBank b f).tick = s.tick.setBank b (f (s.tick.bank b)) := rfl

section
variable {fs : List Field} {ps : List Part} {s₀ s : State}

theorem frame_set_tick {x : Tick} (ht : Part.tick ∈ ps) (h : Frame fs ps s₀ s) : Frame fs ps s₀ { s with tick := x } :=
  ⟨h.1, fun p hp hr => by have := h.2.1 p hp hr; cases p <;> first | exact this | contradiction, h.2.2⟩

theorem frame_set_lanes {x : IMap Lane} (hl : Part.lanes ∈ ps) (h : Frame fs ps s₀ s) : Frame fs ps s₀ { s with lanes := x } :=
  ⟨h.1, fun p hp hr => by have := h.2.1 p hp hr; cases p <;> first | exact this | contradiction, h.2.2⟩

theorem frame_set_fw {x : Fw} (hw : Part.fw ∈ ps) (h : Frame fs ps s₀ s) : Frame fs ps s₀ { s with fw := x } :=
  ⟨h.1, fun p hp hr => by have := h.2.1 p hp hr; cases p <;> first | exact this | contradiction, h.2.2⟩

theorem frame_modBank {b : Bank} {f : TickBank → TickBank} (ht : Part.tick ∈ ps) (h : Frame fs ps s₀ s) :
    Frame fs ps s₀ (s.modBank b f) := frame_set_tick ht h

theorem frame_endUnit {op unit status detail : Nat} {params : List Nat} (hw : Part.fw ∈ ps) (h : Frame fs ps s₀ s) :
    Frame fs ps s₀ (endUnit op unit status detail params s) := frame_set_fw hw h

end

@[simp] theorem rd_endUnit (op unit status detail : Nat) (params : List Nat) (s : State) (g : Field) :
    (endUnit op unit status detail params s).rd g = s.rd g := rfl

/-- Where no running command has the opcode, none ends. -/
theorem endUnit_fw_of_none {op : Nat} (unit status detail : Nat) (params : List Nat) {s : State}
    (h : ∀ r ∈ s.fw.running, leAt r.cmd.bytes 0 2 ≠ op) : (endUnit op unit status detail params s).fw = s.fw := by
  have hmap : ∀ f : Running → Running, (∀ r ∈ s.fw.running, f r = r) → { s.fw with running := s.fw.running.map f } = s.fw := by
    intro f hf
    rw [List.map_congr_left hf, List.map_id']
  refine hmap _ fun r hr => if_neg fun hp => h r hr ?_
  simp only [Bool.and_eq_true, decide_eq_true_eq] at hp
  exact hp.1.1

end Sys2Proof.Machine
end

section
/-! PROOFS. The increment in force (R49-R51). -/

namespace Sys2Proof.Machine

/-- The range test of an increment says what R49 says in ppm. -/
theorem incr_in_range_iff (v : Nat) :
    (incrMin ≤ v ∧ v ≤ incrMax) ↔ 1248750 * 2 ^ 48 ≤ v * 1000000 ∧ v * 1000000 ≤ 1251250 * 2 ^ 48 := by
  unfold incrMin incrMax; omega

/-- A write of TSC_INCR_CTL stores its own fields alone. -/
theorem frame_storeIncrCtl (b : Bank) (ps : List Part) (w : Nat) (s : State) :
    Frame (Reg.TSC_INCR_CTL (bankNo b)).fields ps s (s.begin.storeReg false (Reg.TSC_INCR_CTL (bankNo b)) w) :=
  frame_storeReg (fun _ hf => by simp [hf]) (frame_begin s)

/-- A write of TSC_INCR_CTL leaves who steers the bank. -/
theorem ownerIs_storeIncrCtl (b : Bank) (w : Nat) (src : Steerer) (s : State) :
    (s.storeReg false (Reg.TSC_INCR_CTL (bankNo b)) w).ownerIs b src = s.ownerIs b src := by
  have hown : ∀ g ∈ [R.TSC_CTL_OWN0, R.TSC_CTL_OWN1], (s.storeReg false (Reg.TSC_INCR_CTL (bankNo b)) w).rd g = s.rd g := by
    refine fun g hg => rd_storeReg_ne s false _ w ?_
    revert g; cases b <;> decide
  cases b <;> cases src <;> simp [State.ownerIs, State.hostOwns, State.on, hown]

/-- What APPLY does, by who writes it (R50, R51). -/
theorem writeIncrCtl_apply (b : Bank) (src : Steerer) (w : Nat) (s : State) :
    writeIncrCtl b src ((R.TSC_INCR_CTL_APPLY (bankNo b)).setIn w) s =
      let u := s.storeReg false (Reg.TSC_INCR_CTL (bankNo b)) ((R.TSC_INCR_CTL_APPLY (bankNo b)).setIn w)
      if s.ownerIs b src then applyIncr b u
      else if src = .host then u.hi (R.TSC_INCR_CTL_IGNORED (bankNo b)) else u := by
  unfold writeIncrCtl
  simp only [Field.of_setIn _ w (show (R.TSC_INCR_CTL_APPLY (bankNo b)).width = 1 from rfl), if_true, ownerIs_storeIncrCtl]

/-- An increment in range comes in force. -/
theorem applyIncr_of_range {b : Bank} {s : State} (h : incrMin ≤ (s.tick.bank b).staged ∧ (s.tick.bank b).staged ≤ incrMax) :
    applyIncr b s = s.modBank b (fun k => { k with incr := (s.tick.bank b).staged }) := if_pos h

/-- An increment out of range is rejected. -/
theorem applyIncr_of_not_range {b : Bank} {s : State} (h : ¬(incrMin ≤ (s.tick.bank b).staged ∧ (s.tick.bank b).staged ≤ incrMax)) :
    applyIncr b s = s.hi (R.TSC_INCR_CTL_REJECTED (bankNo b)) := if_neg h

/-- INCR_APPLY by the owner, an increment in range (R49, R50). -/
theorem incrApply_applied {s : State} {b : Bank} {src : Steerer} (w : Word) (ho : s.ownerIs b src = true)
    (hr : incrMin ≤ (s.tick.bank b).staged ∧ (s.tick.bank b).staged ≤ incrMax) :
    ∃ t, exec (.incrApply b src w) s = .next t ∧
      t.tick = s.tick.setBank b { s.tick.bank b with incr := (s.tick.bank b).staged } ∧
      Frame (Reg.TSC_INCR_CTL (bankNo b)).fields [.tick] s t := by
  obtain ⟨t, e, -, hsame, hframe, -⟩ := go_spec (writeIncrCtl b src ((R.TSC_INCR_CTL_APPLY (bankNo b)).setIn w.toNat)) s
  have hb : s.begin.ownerIs b src = true := ho
  rw [writeIncrCtl_apply, if_pos hb, applyIncr_of_range (by rw [storeReg_tick]; exact hr)] at hsame hframe
  exact ⟨t, e, (hsame .tick rfl).trans (by simp), hframe _ _ (frame_modBank List.mem_cons_self (frame_storeIncrCtl b _ _ s))⟩

/-- INCR_APPLY that ends in a bit of TSC_INCR_CTL alone, `f`: nothing but the register changes. -/
theorem incrApply_flagged {s : State} {b : Bank} {src : Steerer} (w : Word) {f : Field} (hf : f ∈ (Reg.TSC_INCR_CTL (bankNo b)).fields)
    (h : writeIncrCtl b src ((R.TSC_INCR_CTL_APPLY (bankNo b)).setIn w.toNat) s.begin =
      (s.begin.storeReg false (Reg.TSC_INCR_CTL (bankNo b)) ((R.TSC_INCR_CTL_APPLY (bankNo b)).setIn w.toNat)).hi f) :
    ∃ t, exec (.incrApply b src w) s = .next t ∧ t.rd f = 1 ∧ Frame (Reg.TSC_INCR_CTL (bankNo b)).fields [] s t := by
  obtain ⟨t, e, hrd, -, hframe, -⟩ := go_spec (writeIncrCtl b src ((R.TSC_INCR_CTL_APPLY (bankNo b)).setIn w.toNat)) s
  have hone : ∀ g ∈ (Reg.TSC_INCR_CTL (bankNo b)).fields, g.side = false ∧ 1 % 2 ^ g.width = 1 := by cases b <;> decide
  rw [h] at hframe hrd
  exact ⟨t, e, (hrd f (hone f hf).1).trans ((rd_hi_same _ _).trans (hone f hf).2),
    hframe _ _ (frame_hi hf (frame_storeIncrCtl b _ _ s))⟩

/-- Settles O10: APPLY by the owner, in and out of range, then by the host and by the ensemble as the other owns the bank. -/
theorem incrementApply : Obligations.IncrementApply := by
  unfold Obligations.IncrementApply
  refine ⟨fun s b src w ho hlo hhi => incrApply_applied w ho ((incr_in_range_iff _).2 ⟨hlo, hhi⟩),
    fun s b src w ho hout => ?_, fun s b w ho => ?_, fun s b w ho => ?_⟩
  · have hr : ¬(incrMin ≤ (s.tick.bank b).staged ∧ (s.tick.bank b).staged ≤ incrMax) := by rw [incr_in_range_iff]; omega
    have hb : s.begin.ownerIs b src = true := ho
    refine incrApply_flagged w (by simp [Reg.TSC_INCR_CTL]) ?_
    rw [writeIncrCtl_apply, if_pos hb, applyIncr_of_not_range (by rw [storeReg_tick]; exact hr)]
  · have hb : s.begin.ownerIs b .host = false := ho
    refine incrApply_flagged w (by simp [Reg.TSC_INCR_CTL]) ?_
    simp [writeIncrCtl_apply, hb]
  · have hb : s.begin.ownerIs b .ensemble = false := ho
    obtain ⟨t, e, -, -, hframe, -⟩ := go_spec (writeIncrCtl b .ensemble ((R.TSC_INCR_CTL_APPLY (bankNo b)).setIn w.toNat)) s
    refine ⟨t, e, hframe _ _ ?_⟩
    rw [writeIncrCtl_apply]
    simpa [hb] using frame_storeIncrCtl b [] _ s

end Sys2Proof.Machine
end

section
/-! PROOFS. A step's GO (R56-R59): made pending, or denied. -/

namespace Sys2Proof.Machine

/-! ### The write of TSC_STEP_CTL -/

/-- An RW field of a written register holds the bits of the word (R10). -/
theorem rd_storeReg_rw (s : State) (l : Bool) (r : Register) (w : Nat) {f : Field} (hf : f ∈ r.fields) (ha : f.acc = .rw)
    (hn : r.fields.Pairwise fun a b => a.key ≠ b.key) : (s.storeReg l r w).rd f = f.of w := by
  obtain ⟨a, fs⟩ := r
  induction fs generalizing s with
  | nil => cases hf
  | cons x fs ih =>
    obtain ⟨hx, hn⟩ := List.pairwise_cons.1 hn
    rcases List.mem_cons.1 hf with rfl | hf
    · have hrest : (s.storeReg l ⟨a, f :: fs⟩ w).rd f = (State.storeField l w s f).rd f := rd_storeReg_ne _ l ⟨a, fs⟩ w hx
      rw [hrest, State.storeField, ha]
      exact (rd_wr_same _ _ _).trans (Nat.mod_mod _ _)
    · exact ih _ hf hn

/-- The fields of TSC_STEP_CTL that take bits of a written word (R10). -/
def stepCtlStored (b : Bank) : List Field :=
  [R.TSC_STEP_CTL_MODE (bankNo b), R.TSC_STEP_CTL_NEG (bankNo b), R.TSC_STEP_CTL_DONE (bankNo b), R.TSC_STEP_CTL_DENIED (bankNo b)]

/-- What decides on a GO and what it asks for, beside the word written. -/
def stepInputs (b : Bank) : List Field :=
  [R.TSC_STEP_CTL_PENDING (bankNo b), R.TSC_STEP_NS_NS (bankNo b), R.TSC_STEP_SEC_LO_SEC (bankNo b), R.TSC_STEP_SEC_HI_SEC (bankNo b),
   R.TSC_STEP_FRAC_FRAC (bankNo b), R.TSC_STAT_SERVED, R.TSC_SWITCH_CTL_ACTIVE, R.TSC_CTL_TS1_EN]

/-- The state once TSC_STEP_CTL has been written with GO set. -/
def State.stepStored (s : State) (b : Bank) (w : Nat) : State :=
  s.storeReg false (Reg.TSC_STEP_CTL (bankNo b)) ((R.TSC_STEP_CTL_GO (bankNo b)).setIn w)

theorem frame_stepStored (b : Bank) (ps : List Part) (w : Nat) (s : State) :
    Frame (stepCtlStored b) ps s (s.begin.stepStored b w) :=
  frame_storeReg (by cases b <;> decide) (frame_begin s)

theorem frame_stepStored_reg (b : Bank) (ps : List Part) (w : Nat) (s : State) :
    Frame (Reg.TSC_STEP_CTL (bankNo b)).fields ps s (s.begin.stepStored b w) :=
  (frame_stepStored b ps w s).mono (by cases b <;> decide) fun _ h => h

/-- A write of TSC_STEP_CTL leaves what decides on a GO. -/
theorem rd_stepStored_inputs (b : Bank) (w : Nat) (s : State) : ∀ g ∈ stepInputs b, (s.stepStored b w).rd g = s.rd g := by
  have hkeys : ∀ g ∈ stepInputs b, (∀ f ∈ stepCtlStored b, g.key ≠ f.key) ∧ g.side = false := by cases b <;> decide
  exact fun g hg => (frame_stepStored b [] w s).1 g (hkeys g hg).1 (hkeys g hg).2

@[simp] theorem stepStored_tick (b : Bank) (w : Nat) (s : State) : (s.stepStored b w).tick = s.tick := storeReg_tick _ _ _ _

@[simp] theorem stepStored_fw (b : Bank) (w : Nat) (s : State) : (s.stepStored b w).fw = s.fw := storeReg_fw _ _ _ _

/-- MODE and NEG of the write are those GO sees. -/
theorem rd_stepStored_written (b : Bank) (w : Nat) (s : State) {f : Field}
    (hf : f = R.TSC_STEP_CTL_MODE (bankNo b) ∨ f = R.TSC_STEP_CTL_NEG (bankNo b)) : (s.stepStored b w).rd f = f.of w := by
  have hmem : f ∈ (Reg.TSC_STEP_CTL (bankNo b)).fields ∧ f.acc = .rw ∧ (R.TSC_STEP_CTL_GO (bankNo b)).lsb < f.lsb := by
    rcases hf with rfl | rfl <;> simp [Reg.TSC_STEP_CTL, R.TSC_STEP_CTL_MODE, R.TSC_STEP_CTL_NEG, R.TSC_STEP_CTL_GO, Field.mk']
  obtain ⟨hin, hacc, hlsb⟩ := hmem
  exact (rd_storeReg_rw s false _ _ hin hacc (by cases b <;> decide)).trans (Field.of_setIn_above _ _ w hlsb)

/-! ### Which GO is accepted (R56, R59) -/

/-- A timescale reads alike where both counters and TS1_EN do. -/
theorem tsOf_congr {s t : State} (h0 : t.ts0 = s.ts0) (h1 : t.tick.bank1.ts = s.tick.bank1.ts)
    (he : t.rd R.TSC_CTL_TS1_EN = s.rd R.TSC_CTL_TS1_EN) (b : Bank) : t.tsOf b = s.tsOf b := by
  cases b with
  | ts0 => exact h0
  | ts1 => unfold State.tsOf State.ts1 State.on; rw [he, h0, h1]

/-- The offset a GO asks for, by MODE and NEG of its word (R57). -/
theorem stepOffset_stepStored (b : Bank) (w : Nat) (s : State) :
    (s.stepStored b w).stepOffset b =
      if (R.TSC_STEP_CTL_MODE (bankNo b)).of w = 1 then (s.stepValue b : Int) - (s.tsOf b : Int)
      else if (R.TSC_STEP_CTL_NEG (bankNo b)).of w = 1 then -(s.stepValue b : Int) else (s.stepValue b : Int) := by
  have hin := rd_stepStored_inputs b w s
  simp only [stepInputs, List.forall_mem_cons] at hin
  obtain ⟨-, hns, hlo, hhi, hfrac, -, -, hen, -⟩ := hin
  have hval : (s.stepStored b w).stepValue b = s.stepValue b := by simp only [State.stepValue, hns, hlo, hhi, hfrac]
  have hts : (s.stepStored b w).tsOf b = s.tsOf b := by
    have h0 : (s.stepStored b w).ts0 = s.ts0 := by rw [State.ts0, stepStored_tick]; rfl
    exact tsOf_congr h0 (by rw [stepStored_tick]) hen b
  simp [State.stepOffset, State.on, hval, hts, rd_stepStored_written]

theorem stepAccepted_iff (s : State) (b : Bank) (src : StepSource) :
    s.stepAccepted b src = true ↔ src = .sender .pf1 ∨ (src = .ensemble ∧ (b = .ts1 ∨ s.rd R.TSC_STAT_SERVED ≠ 1)) := by
  cases src with
  | ensemble => simp [State.stepAccepted, State.on]
  | sender x => cases x <;> simp [State.stepAccepted]

theorem stepDenied_iff (s : State) (b : Bank) (ns : Nat) :
    s.stepDenied b ns = true ↔ 1000000000 ≤ ns ∨ s.rd (R.TSC_STEP_CTL_PENDING (bankNo b)) = 1 ∨
      (b = .ts0 ∧ s.rd R.TSC_SWITCH_CTL_ACTIVE = 1) ∨ (b = .ts1 ∧ s.rd R.TSC_CTL_TS1_EN ≠ 1) := by
  simp [State.stepDenied, State.on, or_assoc]

/-- Whether a GO is taken: its sender may step the timescale and R59 does not refuse it. -/
def State.stepTaken (s : State) (b : Bank) (src : StepSource) : Bool :=
  s.stepAccepted b src && !s.stepDenied b (s.rd (R.TSC_STEP_NS_NS (bankNo b)))

theorem stepTaken_stepStored (b : Bank) (src : StepSource) (w : Nat) (s : State) :
    (s.stepStored b w).stepTaken b src = s.stepTaken b src := by
  have hin := rd_stepStored_inputs b w s
  simp only [stepInputs, List.forall_mem_cons] at hin
  obtain ⟨hpend, hns, -, -, -, hserved, hswitch, hen, -⟩ := hin
  have hacc : (s.stepStored b w).stepAccepted b src = s.stepAccepted b src := by
    rw [Bool.eq_iff_iff, stepAccepted_iff, stepAccepted_iff, hserved]
  have hden : ∀ ns, (s.stepStored b w).stepDenied b ns = s.stepDenied b ns := fun ns => by
    rw [Bool.eq_iff_iff, stepDenied_iff, stepDenied_iff, hpend, hswitch, hen]
  simp only [State.stepTaken, hacc, hden, hns]

/-- What a GO does: the step becomes pending, or DENIED is set. -/
theorem writeStepCtl_go (b : Bank) (src : StepSource) (w : Nat) (s : State) :
    writeStepCtl b src ((R.TSC_STEP_CTL_GO (bankNo b)).setIn w) s =
      if s.stepTaken b src then pendStep b ((s.stepStored b w).stepOffset b) src (s.stepStored b w) else denyStep b (s.stepStored b w) := by
  rw [← stepTaken_stepStored b src w s]
  unfold writeStepCtl
  simp only [Field.of_setIn _ w (show (R.TSC_STEP_CTL_GO (bankNo b)).width = 1 from rfl), if_true]
  rfl

/-- STEP_GO taken: the step is pending, two markers from here (R57, R58). -/
theorem stepGo_taken {s : State} {b : Bank} {src : StepSource} (w : Word) (h : s.stepTaken b src = true) :
    ∃ t, exec (.stepGo b src w) s = .next t ∧
      t.tick = s.tick.setBank b { s.tick.bank b with
        stepDelta := (if (R.TSC_STEP_CTL_MODE (bankNo b)).of w.toNat = 1 then (s.stepValue b : Int) - (s.tsOf b : Int)
          else if (R.TSC_STEP_CTL_NEG (bankNo b)).of w.toNat = 1 then -(s.stepValue b : Int) else (s.stepValue b : Int))
        stepMarkers := 2, stepBy := stepSenderId src } ∧
      t.rd (R.TSC_STEP_CTL_PENDING (bankNo b)) = 1 ∧
      Frame (Reg.TSC_STEP_CTL (bankNo b)).fields [.tick] s t := by
  obtain ⟨t, e, hrd, hsame, hframe, -⟩ := go_spec (writeStepCtl b src ((R.TSC_STEP_CTL_GO (bankNo b)).setIn w.toNat)) s
  have hb : s.begin.stepTaken b src = true := h
  rw [writeStepCtl_go, if_pos hb] at hrd hsame hframe
  refine ⟨t, e, (hsame .tick rfl).trans ?_, (hrd _ (by cases b <;> decide)).trans (rd_hi_same _ _), hframe _ _ ?_⟩
  · rw [stepOffset_stepStored, pendStep, hi_tick, modBank_tick, stepStored_tick]; rfl
  · exact frame_hi (by simp [Reg.TSC_STEP_CTL]) (frame_modBank List.mem_cons_self (frame_stepStored_reg b _ _ s))

/-- STEP_GO refused: DENIED is set and nothing is applied (R59). -/
theorem stepGo_denied {s : State} {b : Bank} {src : StepSource} (w : Word) (h : s.stepTaken b src = false) :
    ∃ t, exec (.stepGo b src w) s = .next t ∧
      t.rd (R.TSC_STEP_CTL_DENIED (bankNo b)) = 1 ∧
      t.rd (R.TSC_STEP_CTL_PENDING (bankNo b)) = s.rd (R.TSC_STEP_CTL_PENDING (bankNo b)) ∧
      ((∀ r ∈ s.fw.running, leAt r.cmd.bytes 0 2 ≠ 0x0211) → t.fw = s.fw) ∧
      Frame (Reg.TSC_STEP_CTL (bankNo b)).fields [.fw] s t := by
  obtain ⟨t, e, hrd, hsame, hframe, -⟩ := go_spec (writeStepCtl b src ((R.TSC_STEP_CTL_GO (bankNo b)).setIn w.toNat)) s
  have hb : ¬s.begin.stepTaken b src = true := by rw [Bool.not_eq_true]; exact h
  rw [writeStepCtl_go, if_neg hb, denyStep] at hrd hsame hframe
  refine ⟨t, e, (hrd _ (by cases b <;> decide)).trans (rd_hi_same _ _), (hrd _ (by cases b <;> decide)).trans ?_,
    fun hw => (hsame .fw rfl).trans ?_, hframe _ _ ?_⟩
  · rw [rd_endUnit, rd_hi_ne _ (by cases b <;> decide), rd_stepStored_inputs b _ _ _ List.mem_cons_self]; rfl
  · rw [endUnit_fw_of_none _ _ _ _ (by simpa using hw)]; simp
  · exact frame_endUnit List.mem_cons_self (frame_hi (by simp [Reg.TSC_STEP_CTL]) (frame_stepStored_reg b _ _ s))

end Sys2Proof.Machine
end

section
/-! PROOFS. A due step (R58-R61): the counter moves, what a slew and a snapshot of the same tick come to, and the record. -/

namespace Sys2Proof.Machine

/-! ### What a slew comes to (R54, R60, R61) -/

/-- The fields of TSC_SLEW_CTL and TSC_SLEW_LEFT that the end of a slew writes. -/
def slewEndFields (b : Bank) : List Field :=
  [R.TSC_SLEW_CTL_ACTIVE (bankNo b), R.TSC_SLEW_CTL_REJECTED (bankNo b), R.TSC_SLEW_CTL_ABORTED (bankNo b),
   R.TSC_SLEW_LEFT_LO_LEFT (bankNo b), R.TSC_SLEW_LEFT_HI_LEFT (bankNo b)]

section
variable {fs : List Field} {ps : List Part} {s₀ s : State} {b : Bank}

theorem frame_setLeft {v : Int} (hf : ∀ f ∈ slewEndFields b, f ∈ fs) (h : Frame fs ps s₀ s) : Frame fs ps s₀ (setLeft b v s) :=
  frame_wr (hf _ (by simp [slewEndFields])) (frame_wr (hf _ (by simp [slewEndFields])) h)

theorem frame_abortSlew (hf : ∀ f ∈ slewEndFields b, f ∈ fs) (ht : Part.tick ∈ ps) (h : Frame fs ps s₀ s) :
    Frame fs ps s₀ (abortSlew b s) :=
  frame_ite (frame_hi (hf _ (by simp [slewEndFields]))
    (frame_lo (hf _ (by simp [slewEndFields])) (frame_modBank ht (frame_setLeft hf h)))) h

theorem frame_slewMeetsStep (hf : ∀ f ∈ slewEndFields b, f ∈ fs) (ht : Part.tick ∈ ps) (h : Frame fs ps s₀ s) :
    Frame fs ps s₀ (slewMeetsStep b s) := by
  have hrej := frame_hi (hf (R.TSC_SLEW_CTL_REJECTED (bankNo b)) (by simp [slewEndFields]))
    (frame_lo (hf (R.TSC_SLEW_CTL_ACTIVE (bankNo b)) (by simp [slewEndFields]))
      (frame_modBank (b := b) (f := fun k => { k with slew := {} }) ht h))
  exact frame_ite (frame_ite hrej (frame_hi (hf _ (by simp [slewEndFields])) (frame_setLeft hf hrej))) (frame_abortSlew hf ht h)

end

/-- A running slew is over, however it ends; nothing else of the tick domain changes. -/
theorem slewMeetsStep_tick (b : Bank) (s : State) : (slewMeetsStep b s).tick =
    if s.on (R.TSC_SLEW_CTL_ACTIVE (bankNo b)) then s.tick.setBank b { s.tick.bank b with slew := {} } else s.tick := by
  by_cases ha : s.on (R.TSC_SLEW_CTL_ACTIVE (bankNo b)) = true
  · by_cases hf : (s.tick.bank b).slewFrom = s.tick.count
    · by_cases hn : (s.tick.bank b).slewOld.n = 0 <;> simp [slewMeetsStep, setLeft, ha, hf, hn]
    · simp [slewMeetsStep, abortSlew, setLeft, ha, hf]
  · simp [slewMeetsStep, abortSlew, ha]

/-- A slew that ran as the tick began is aborted. -/
theorem slewMeetsStep_aborts {b : Bank} {s : State} (ha : s.rd (R.TSC_SLEW_CTL_ACTIVE (bankNo b)) = 1)
    (hf : (s.tick.bank b).slewFrom ≠ s.tick.count) :
    (slewMeetsStep b s).rd (R.TSC_SLEW_CTL_ABORTED (bankNo b)) = 1 ∧ (slewMeetsStep b s).rd (R.TSC_SLEW_CTL_ACTIVE (bankNo b)) = 0 := by
  have hon : s.on (R.TSC_SLEW_CTL_ACTIVE (bankNo b)) = true := decide_eq_true ha
  rw [slewMeetsStep, if_neg fun h => hf h.2, abortSlew, if_pos hon]
  exact ⟨rd_hi_same _ _, (rd_hi_ne _ (by cases b <;> decide)).trans (rd_lo_same _ _)⟩

/-- A slew that GO started at this tick is discarded, and the one it replaced is aborted. -/
theorem slewMeetsStep_rejects {b : Bank} {s : State} (ha : s.rd (R.TSC_SLEW_CTL_ACTIVE (bankNo b)) = 1)
    (hf : (s.tick.bank b).slewFrom = s.tick.count) :
    (slewMeetsStep b s).rd (R.TSC_SLEW_CTL_REJECTED (bankNo b)) = 1 ∧ (slewMeetsStep b s).rd (R.TSC_SLEW_CTL_ACTIVE (bankNo b)) = 0 ∧
      ((s.tick.bank b).slewOld.n ≠ 0 → (slewMeetsStep b s).rd (R.TSC_SLEW_CTL_ABORTED (bankNo b)) = 1) := by
  have hon : s.on (R.TSC_SLEW_CTL_ACTIVE (bankNo b)) = true := decide_eq_true ha
  rw [slewMeetsStep, if_pos ⟨hon, hf⟩]
  dsimp only
  split
  · next hn =>
    exact ⟨rd_hi_same _ _, (rd_hi_ne _ (by cases b <;> decide)).trans (rd_lo_same _ _), fun h => absurd hn h⟩
  · have hleft : ∀ (v : Int) (u : State), ∀ f ∈ [R.TSC_SLEW_CTL_REJECTED (bankNo b), R.TSC_SLEW_CTL_ACTIVE (bankNo b)],
        ((setLeft b v u).hi (R.TSC_SLEW_CTL_ABORTED (bankNo b))).rd f = u.rd f := by
      intro v u f hm
      have hk : ∀ f ∈ [R.TSC_SLEW_CTL_REJECTED (bankNo b), R.TSC_SLEW_CTL_ACTIVE (bankNo b)],
          f.key ≠ (R.TSC_SLEW_CTL_ABORTED (bankNo b)).key ∧ f.key ≠ (R.TSC_SLEW_LEFT_HI_LEFT (bankNo b)).key ∧
            f.key ≠ (R.TSC_SLEW_LEFT_LO_LEFT (bankNo b)).key := by cases b <;> decide
      obtain ⟨h1, h2, h3⟩ := hk f hm
      rw [rd_hi_ne _ h1, setLeft, rd_wr_ne _ _ h2, rd_wr_ne _ _ h3]
    refine ⟨(hleft _ _ _ (by simp)).trans (rd_hi_same _ _), (hleft _ _ _ (by simp)).trans ?_, fun _ => rd_hi_same _ _⟩
    exact (rd_hi_ne _ (by cases b <;> decide)).trans (rd_lo_same _ _)

/-! ### The move and what is told of it -/

/-- A bank once its step by `d` has been applied at tick `now`, its reading before it `old`. -/
def TickBank.landed (k : TickBank) (d : Int) (old now : Nat) : TickBank :=
  { k.step d with stepDelta := 0, stepMarkers := 0, stepRead := old, stepTick := some now }

/-- A due step moves the counters and the lanes, and ends the slew: `moveByStep` up to what it shows (R58, R60). -/
def stepMoves (b : Bank) (s : State) : State :=
  let d := (s.tick.bank b).stepDelta
  let u := slewMeetsStep b s
  let u := u.modBank b (fun k => k.landed d (s.tsOf b) u.tick.count)
  let u := if b = .ts0 then followStep d { u with lanes := u.lanes.map (fun p => (p.1, p.2.step d)) } else u
  if b = .ts0 ∧ d < 0 then forgetPast u else u

/-- What a step by `d` that sender `by_` pended reports once it has moved the counter: DONE, TIME_SET and the record (R58, R59). -/
def stepShown (b : Bank) (d : Int) (by_ : Nat) (s : State) : State :=
  let u := reportStep b s
  let u := if b = .ts0 then u.hi R.TSC_STAT_TIME_SET else u
  u.logRec 0x0201 (bankNo b + (if d < 0 then 128 else 0)) by_ (ktBytes d.natAbs)

theorem moveByStep_eq (b : Bank) (s : State) :
    moveByStep b s = stepShown b (s.tick.bank b).stepDelta (s.tick.bank b).stepBy (snapAgain (stepMoves b s)) := rfl

@[simp] theorem followStep_regs (d : Int) (s : State) : (followStep d s).regs = s.regs := by unfold followStep; split <;> rfl

@[simp] theorem followStep_lanes (d : Int) (s : State) : (followStep d s).lanes = s.lanes := by unfold followStep; split <;> rfl

@[simp] theorem followStep_bank0 (d : Int) (s : State) : (followStep d s).tick.bank0 = s.tick.bank0 := by
  unfold followStep; split <;> rfl

@[simp] theorem followStep_count (d : Int) (s : State) : (followStep d s).tick.count = s.tick.count := by
  unfold followStep; split <;> rfl

@[simp] theorem followStep_latchAt (d : Int) (s : State) : (followStep d s).tick.latchAt = s.tick.latchAt := by
  unfold followStep; split <;> rfl

theorem frame_followStep {fs : List Field} {ps : List Part} {s₀ s : State} {d : Int} (ht : Part.tick ∈ ps) (h : Frame fs ps s₀ s) :
    Frame fs ps s₀ (followStep d s) := frame_ite h (frame_modBank ht h)

/-- A step of TS1 moves its own bank alone. -/
theorem stepMoves_ts1 (s : State) : stepMoves .ts1 s = (slewMeetsStep .ts1 s).modBank .ts1
    (fun k => k.landed s.tick.bank1.stepDelta (s.tsOf .ts1) (slewMeetsStep .ts1 s).tick.count) := rfl

theorem frame_stepMoves (b : Bank) (s : State) : Frame (slewEndFields b) [.tick, .lanes] s (stepMoves b s) := by
  have hslew : Frame (slewEndFields b) [.tick, .lanes] s (slewMeetsStep b s) :=
    frame_slewMeetsStep (fun _ h => h) (by decide) (Frame.refl _ _ s)
  cases b with
  | ts1 => rw [stepMoves_ts1]; exact frame_modBank (by decide) hslew
  | ts0 =>
    refine frame_ite (frame_set_tick (by decide) ?_) ?_ <;>
      exact frame_followStep (by decide) (frame_set_lanes (by decide) (frame_modBank (by decide) hslew))

/-- The step moves the bank as its slew leaves it. -/
theorem stepMoves_bank (b : Bank) (s : State) : (stepMoves b s).tick.bank b =
    ((slewMeetsStep b s).tick.bank b).landed (s.tick.bank b).stepDelta (s.tsOf b) (slewMeetsStep b s).tick.count := by
  unfold stepMoves
  cases b with
  | ts1 => rfl
  | ts0 => dsimp only; split <;> exact followStep_bank0 _ _

/-- Registers change by the end of a slew alone. -/
theorem rd_stepMoves (b : Bank) (s : State) (g : Field) : (stepMoves b s).rd g = (slewMeetsStep b s).rd g := by
  have hregs : (stepMoves b s).regs = (slewMeetsStep b s).regs := by
    unfold stepMoves
    cases b with
    | ts1 => rfl
    | ts0 => dsimp only; split <;> exact followStep_regs _ _
  exact congrArg (RegFile.get · g) hregs

/-- A step of TS0 moves the lanes with it (R29). -/
theorem stepMoves_lanes (s : State) :
    (stepMoves .ts0 s).lanes = s.lanes.map (fun p => (p.1, p.2.step s.tick.bank0.stepDelta)) := by
  have hslew : (slewMeetsStep .ts0 s).lanes = s.lanes :=
    (frame_slewMeetsStep (fun _ h => h) List.mem_cons_self (Frame.refl (slewEndFields .ts0) [.tick] s)).2.1 .lanes (by decide) rfl
  rw [← hslew]
  unfold stepMoves
  dsimp only
  split <;> exact followStep_lanes _ _

theorem slewMeetsStep_count (b : Bank) (s : State) : (slewMeetsStep b s).tick.count = s.tick.count := by
  rw [slewMeetsStep_tick]; split <;> simp

theorem slewMeetsStep_latchAt (b : Bank) (s : State) : (slewMeetsStep b s).tick.latchAt = s.tick.latchAt := by
  rw [slewMeetsStep_tick]; split <;> simp

/-- The tick and the tick of the last snapshot stay. -/
theorem stepMoves_ticks (b : Bank) (s : State) :
    (stepMoves b s).tick.count = s.tick.count ∧ (stepMoves b s).tick.latchAt = s.tick.latchAt := by
  rw [← slewMeetsStep_count b s, ← slewMeetsStep_latchAt b s]
  unfold stepMoves
  cases b with
  | ts1 => exact ⟨rfl, rfl⟩
  | ts0 => dsimp only; split <;> exact ⟨followStep_count _ _, followStep_latchAt _ _⟩

/-- A step of TS1 leaves TS0. -/
theorem stepMoves_ts0 (s : State) : (stepMoves .ts1 s).tick.bank0 = s.tick.bank0 := by
  have hslew : (slewMeetsStep .ts1 s).tick.bank0 = s.tick.bank0 := by rw [slewMeetsStep_tick]; split <;> rfl
  exact hslew

/-! ### The snapshot of the same tick (R26, R61, R62) -/

/-- A timescale's snapshot registers. -/
def snapBank (b : Nat) : List Field :=
  [R.TSC_SNAP_FRAC_FRAC b, R.TSC_SNAP_NS_NS b, R.TSC_SNAP_SEC_LO_SEC b, R.TSC_SNAP_SEC_HI_SEC b]

/-- A timescale's snapshot registers show a reading, as `State.SnapShows` has it. -/
def State.BankShows (s : State) (b v : Nat) : Prop :=
  s.rd (R.TSC_SNAP_FRAC_FRAC b) = v % 65536 ∧ s.rd (R.TSC_SNAP_NS_NS b) = v / 65536 % 1000000000 ∧
    s.rd (R.TSC_SNAP_SEC_LO_SEC b) = v / 65536000000000 % 2 ^ 32 ∧ s.rd (R.TSC_SNAP_SEC_HI_SEC b) = v / 65536000000000 / 2 ^ 32 % 2 ^ 16

theorem bankShows_congr {s t : State} {b v : Nat} (h : s.BankShows b v) (hf : ∀ f ∈ snapBank b, t.rd f = s.rd f) : t.BankShows b v := by
  simp only [snapBank, List.forall_mem_cons] at hf
  obtain ⟨h0, h1, h2, h3, -⟩ := hf
  rwa [State.BankShows, h0, h1, h2, h3]

theorem frame_setSnap {fs : List Field} {ps : List Part} {s₀ s : State} {b v : Nat} (hf : ∀ f ∈ snapBank b, f ∈ fs)
    (h : Frame fs ps s₀ s) : Frame fs ps s₀ (setSnap b v s) :=
  frame_wr (hf _ (by simp [snapBank])) (frame_wr (hf _ (by simp [snapBank]))
    (frame_wr (hf _ (by simp [snapBank])) (frame_wr (hf _ (by simp [snapBank])) h)))

theorem frame_latchSnap {ps : List Part} {s₀ s : State} (h : Frame snapFields ps s₀ s) : Frame snapFields ps s₀ (latchSnap s) :=
  frame_wr (by decide) (frame_wr (by decide) (frame_setSnap (by decide) (frame_setSnap (by decide) h)))

theorem frame_snapAgain (ps : List Part) (s : State) : Frame snapFields ps s (snapAgain s) :=
  frame_ite (frame_latchSnap (Frame.refl _ _ s)) (Frame.refl _ _ s)

@[simp] theorem snapAgain_tick (s : State) : (snapAgain s).tick = s.tick := (frame_snapAgain [] s).2.1 .tick List.not_mem_nil rfl

theorem latchSnap_tick (s : State) : (latchSnap s).tick = s.tick :=
  (frame_latchSnap (Frame.refl _ [] s)).2.1 .tick List.not_mem_nil rfl

/-- A reading written to a timescale's snapshot registers is what they show. -/
theorem bankShows_setSnap (b : Fin 2) (v : Nat) (s : State) : (setSnap b v s).BankShows b v := by
  have hkeys : ((snapBank b).map Field.key).Pairwise (· ≠ ·) := by revert b; decide
  simp only [snapBank, List.map, List.pairwise_cons, List.mem_cons, List.not_mem_nil, or_false, forall_eq_or_imp, forall_eq] at hkeys
  obtain ⟨⟨h01, h02, h03⟩, ⟨h12, h13⟩, h23, -⟩ := hkeys
  have hsec : v / 65536 / 1000000000 = v / 65536000000000 := by omega
  have w0 : (R.TSC_SNAP_FRAC_FRAC b).width = 16 := rfl
  have w1 : (R.TSC_SNAP_NS_NS b).width = 30 := rfl
  have w2 : (R.TSC_SNAP_SEC_LO_SEC b).width = 32 := rfl
  have w3 : (R.TSC_SNAP_SEC_HI_SEC b).width = 16 := rfl
  unfold setSnap
  refine ⟨?_, ?_, ?_, ?_⟩
  · rw [rd_wr_ne _ _ h03, rd_wr_ne _ _ h02, rd_wr_ne _ _ h01, rd_wr_same, w0]; norm_num
  · rw [rd_wr_ne _ _ h13, rd_wr_ne _ _ h12, rd_wr_same, w1]
    omega
  · rw [rd_wr_ne _ _ h23, rd_wr_same, hsec, w2]
  · rw [rd_wr_same, hsec, w3]

/-- The readings a snapshot shows depend on the counters, TS1_EN and the snapshot registers alone. -/
theorem snapShows_congr {s t : State} (h : s.SnapShows) (hf : ∀ f ∈ snapFields, t.rd f = s.rd f) (h0 : t.ts0 = s.ts0)
    (h1 : t.tick.bank1.ts = s.tick.bank1.ts) (he : t.rd R.TSC_CTL_TS1_EN = s.rd R.TSC_CTL_TS1_EN) : t.SnapShows := by
  have hts1 : t.ts1 = s.ts1 := tsOf_congr h0 h1 he .ts1
  have hdiff : t.tsDiff = s.tsDiff := by unfold State.tsDiff; rw [h0, hts1]
  have hbank : ∀ b : Fin 2, ∀ f ∈ snapBank b, f ∈ snapFields := by decide
  obtain ⟨hs, hlo, hhi⟩ := h
  refine ⟨fun b => ?_, ?_, ?_⟩
  · dsimp only
    rw [h0, hts1]
    exact bankShows_congr (hs b) fun f hm => hf f (hbank b f hm)
  · rw [hf _ (by decide), hdiff]; exact hlo
  · rw [hf _ (by decide), hdiff]; exact hhi

/-- A latch shows what both timescales read now. -/
theorem snapShows_latchSnap (s : State) : (latchSnap s).SnapShows := by
  have hen : (latchSnap s).rd R.TSC_CTL_TS1_EN = s.rd R.TSC_CTL_TS1_EN :=
    (frame_latchSnap (Frame.refl _ [] s)).1 _ (by decide) (by decide)
  have h0 : (latchSnap s).ts0 = s.ts0 := by unfold State.ts0; rw [latchSnap_tick]
  have hts1 : (latchSnap s).ts1 = s.ts1 := tsOf_congr h0 (by rw [latchSnap_tick]) hen .ts1
  have hdiff : (latchSnap s).tsDiff = s.tsDiff := by unfold State.tsDiff; rw [h0, hts1]
  have hkeep : ∀ b : Fin 2, ∀ g ∈ snapBank b, (latchSnap s).rd g = (setSnap 1 s.ts1 (setSnap 0 s.ts0 s)).rd g := by
    have hkeys : ∀ b : Fin 2, ∀ g ∈ snapBank b, g.key ≠ R.TSC_SNAP_DIFF_HI_DIFF.key ∧ g.key ≠ R.TSC_SNAP_DIFF_LO_DIFF.key := by
      decide
    exact fun b g hg => (rd_wr_ne _ _ (hkeys b g hg).1).trans (rd_wr_ne _ _ (hkeys b g hg).2)
  have hfirst : ∀ g ∈ snapBank 0, (setSnap 1 s.ts1 (setSnap 0 s.ts0 s)).rd g = (setSnap 0 s.ts0 s).rd g := by
    have hkeys : ∀ g ∈ snapBank 0, (∀ f ∈ snapBank 1, g.key ≠ f.key) ∧ g.side = false := by decide
    exact fun g hg => (frame_setSnap (fun _ h => h) (Frame.refl (snapBank 1) [] _)).1 g (hkeys g hg).1 (hkeys g hg).2
  have hlo : R.TSC_SNAP_DIFF_LO_DIFF.width = 32 := rfl
  have hhi : R.TSC_SNAP_DIFF_HI_DIFF.width = 16 := rfl
  refine ⟨fun b => ?_, ?_, ?_⟩
  · dsimp only
    rw [h0, hts1]
    obtain rfl | rfl : b = 0 ∨ b = 1 := by omega
    · exact bankShows_congr (bankShows_setSnap 0 s.ts0 s) fun g hg => (hkeep 0 g hg).trans (hfirst g hg)
    · exact bankShows_congr (bankShows_setSnap 1 s.ts1 (setSnap 0 s.ts0 s)) (hkeep 1)
  · rw [hdiff, ← hlo]
    exact (rd_wr_ne _ _ (by decide)).trans (rd_wr_same _ _ _)
  · rw [hdiff, ← hhi]
    exact rd_wr_same _ _ _

/-- A change of a reading at the tick of a latch is latched again. -/
theorem snapShows_snapAgain {s : State} (h : s.tick.latchAt = some s.tick.count) : (snapAgain s).SnapShows := by
  rw [snapAgain, if_pos h]; exact snapShows_latchSnap s

end Sys2Proof.Machine
end

section
/-! PROOFS. STEP_APPLY (R58-R61): the move, what it shows, and what else a step of a timescale brings about. -/

namespace Sys2Proof.Machine

/-! ### What a step shows -/

/-- The fields that report a step: DONE for PENDING, TIME_SET and those of the record. -/
def stepShownFields (b : Bank) : List Field :=
  [R.TSC_STEP_CTL_PENDING (bankNo b), R.TSC_STEP_CTL_DONE (bankNo b), R.TSC_STAT_TIME_SET] ++ logFields

theorem frame_reportStep {fs : List Field} {ps : List Part} {s₀ s : State} {b : Bank} (hf : ∀ f ∈ stepShownFields b, f ∈ fs)
    (hw : Part.fw ∈ ps) (h : Frame fs ps s₀ s) : Frame fs ps s₀ (reportStep b s) :=
  frame_endUnit hw (frame_hi (hf _ (by simp [stepShownFields])) (frame_lo (hf _ (by simp [stepShownFields])) h))

theorem frame_stepShown (b : Bank) (d : Int) (by_ : Nat) (s : State) :
    Frame (stepShownFields b) [.fw, .log] s (stepShown b d by_ s) := by
  have hrep : Frame (stepShownFields b) [.fw, .log] s (reportStep b s) := frame_reportStep (fun _ h => h) (by decide) (Frame.refl _ _ s)
  exact frame_logRec (by cases b <;> decide) (by decide) (frame_ite (frame_hi (by simp [stepShownFields]) hrep) hrep)

/-- PENDING falls and DONE rises; a step of TS0 sets TIME_SET. -/
theorem rd_stepShown (b : Bank) (d : Int) (by_ : Nat) (s : State) :
    (stepShown b d by_ s).rd (R.TSC_STEP_CTL_PENDING (bankNo b)) = 0 ∧ (stepShown b d by_ s).rd (R.TSC_STEP_CTL_DONE (bankNo b)) = 1 ∧
      (b = .ts0 → (stepShown b d by_ s).rd R.TSC_STAT_TIME_SET = 1) := by
  have hkeys : ∀ g ∈ [R.TSC_STEP_CTL_PENDING (bankNo b), R.TSC_STEP_CTL_DONE (bankNo b), R.TSC_STAT_TIME_SET],
      (∀ f ∈ logFields, g.key ≠ f.key) ∧ g.side = false := by cases b <;> decide
  have hlog : ∀ g ∈ [R.TSC_STEP_CTL_PENDING (bankNo b), R.TSC_STEP_CTL_DONE (bankNo b), R.TSC_STAT_TIME_SET],
      (stepShown b d by_ s).rd g = (if b = .ts0 then (reportStep b s).hi R.TSC_STAT_TIME_SET else reportStep b s).rd g := fun g hg =>
    (frame_logRec (fun _ h => h) List.mem_cons_self (Frame.refl logFields [.log] _)).1 g (hkeys g hg).1 (hkeys g hg).2
  have htime : ∀ g, g.key ≠ R.TSC_STAT_TIME_SET.key →
      (if b = .ts0 then (reportStep b s).hi R.TSC_STAT_TIME_SET else reportStep b s).rd g = (reportStep b s).rd g := by
    intro g hg
    split
    · exact rd_hi_ne _ hg
    · rfl
  refine ⟨?_, ?_, fun hb => ?_⟩
  · rw [hlog _ (by simp), htime _ (by cases b <;> decide), reportStep, rd_endUnit, rd_hi_ne _ (by cases b <;> decide), rd_lo_same]
  · rw [hlog _ (by simp), htime _ (by cases b <;> decide), reportStep, rd_endUnit]; exact rd_hi_same _ _
  · rw [hlog _ (by simp), if_pos hb]; exact rd_hi_same _ _

/-- The record of a step of TS1 takes the next SEQ and its place (R59, R469). -/
theorem stepShown_record (d : Int) (by_ : Nat) (s : State) :
    (stepShown .ts1 d by_ s).rd R.LOG_NEXT_SEQ = (s.rd R.LOG_NEXT_SEQ + 1) % 2 ^ 32 ∧
      IMap.get {} (stepShown .ts1 d by_ s).log (s.rd R.LOG_NEXT_SEQ % 131072) =
        { seq := s.rd R.LOG_NEXT_SEQ, time := s.ts0, event := 0x0201, unit := if d < 0 then 129 else 1, sender := by_,
          data := ktBytes d.natAbs } := by
  have hseq : (reportStep .ts1 s).rd R.LOG_NEXT_SEQ = s.rd R.LOG_NEXT_SEQ := by
    rw [reportStep, rd_endUnit, rd_hi_ne _ (by decide), rd_lo_ne _ (by decide)]
  have hunit : bankNo .ts1 + (if d < 0 then 128 else 0) = if d < 0 then 129 else 1 := by split <;> rfl
  have hrec : stepShown .ts1 d by_ s = (reportStep .ts1 s).logRec 0x0201 (if d < 0 then 129 else 1) by_ (ktBytes d.natAbs) := by
    rw [← hunit]; rfl
  rw [hrec, rd_logRec_next, logRec_log, hseq]
  exact ⟨rfl, IMap.get_put_same _ _ _ _⟩

/-! ### The whole move -/

/-- Showing a snapshot and reporting a step leave the tick domain as the move left it. -/
theorem moveByStep_tick (b : Bank) (s : State) : (moveByStep b s).tick = (stepMoves b s).tick := by
  rw [moveByStep_eq]
  exact ((frame_stepShown b _ _ _).2.1 .tick (by decide) rfl).trans (snapAgain_tick _)

theorem moveByStep_lanes (b : Bank) (s : State) : (moveByStep b s).lanes = (stepMoves b s).lanes := by
  rw [moveByStep_eq]
  exact ((frame_stepShown b _ _ _).2.1 .lanes (by decide) rfl).trans ((frame_snapAgain [] _).2.1 .lanes List.not_mem_nil rfl)

/-- A register that neither reports a step nor shows a snapshot is as the end of the slew leaves it. -/
theorem rd_moveByStep (b : Bank) (s : State) {g : Field} (hg : ∀ f ∈ stepShownFields b ++ snapFields, g.key ≠ f.key)
    (hs : g.side = false) : (moveByStep b s).rd g = (slewMeetsStep b s).rd g := by
  rw [moveByStep_eq, (frame_stepShown b _ _ _).1 g (fun f hf => hg f (List.mem_append_left _ hf)) hs,
    (frame_snapAgain [] _).1 g (fun f hf => hg f (List.mem_append_right _ hf)) hs, rd_stepMoves]

/-- How the slew ended stays to be read. -/
theorem rd_moveByStep_slew (b : Bank) (s : State) : ∀ g ∈ slewEndFields b, (moveByStep b s).rd g = (slewMeetsStep b s).rd g := by
  have hkeys : ∀ g ∈ slewEndFields b, (∀ f ∈ stepShownFields b ++ snapFields, g.key ≠ f.key) ∧ g.side = false := by
    cases b <;> decide
  exact fun g hg => rd_moveByStep b s (hkeys g hg).1 (hkeys g hg).2

/-- A snapshot latched at the tick of the step shows the value after it (R61). -/
theorem snapShows_moveByStep (b : Bank) (s : State) (h : s.tick.latchAt = some s.tick.count) : (moveByStep b s).SnapShows := by
  have hmoved : (stepMoves b s).tick.latchAt = some (stepMoves b s).tick.count := by
    rw [(stepMoves_ticks b s).1, (stepMoves_ticks b s).2, h]
  have hkeys : ∀ g ∈ R.TSC_CTL_TS1_EN :: snapFields, (∀ f ∈ stepShownFields b, g.key ≠ f.key) ∧ g.side = false := by
    cases b <;> decide
  rw [moveByStep_eq]
  have hframe := frame_stepShown b (s.tick.bank b).stepDelta (s.tick.bank b).stepBy (snapAgain (stepMoves b s))
  have hrd : ∀ g ∈ R.TSC_CTL_TS1_EN :: snapFields,
      (stepShown b (s.tick.bank b).stepDelta (s.tick.bank b).stepBy (snapAgain (stepMoves b s))).rd g
        = (snapAgain (stepMoves b s)).rd g := fun g hg => hframe.1 g (hkeys g hg).1 (hkeys g hg).2
  have htick := hframe.2.1 .tick (by decide) rfl
  exact snapShows_congr (snapShows_snapAgain hmoved) (fun f hf => hrd f (List.mem_cons_of_mem _ hf))
    (by unfold State.ts0; rw [htick]) (by rw [htick]) (hrd _ List.mem_cons_self)

/-- The record of a step of TS1, by the state before the step. -/
theorem moveByStep_record (s : State) :
    (moveByStep .ts1 s).rd R.LOG_NEXT_SEQ = (s.rd R.LOG_NEXT_SEQ + 1) % 2 ^ 32 ∧
      IMap.get {} (moveByStep .ts1 s).log (s.rd R.LOG_NEXT_SEQ % 131072) =
        { seq := s.rd R.LOG_NEXT_SEQ, time := s.ts0, event := 0x0201, unit := if s.tick.bank1.stepDelta < 0 then 129 else 1,
          sender := s.tick.bank1.stepBy, data := ktBytes s.tick.bank1.stepDelta.natAbs } := by
  have hseq : (snapAgain (stepMoves .ts1 s)).rd R.LOG_NEXT_SEQ = s.rd R.LOG_NEXT_SEQ :=
    ((frame_snapAgain [] _).1 _ (by decide) (by decide)).trans ((frame_stepMoves .ts1 s).1 _ (by decide) (by decide))
  have hts0 : (snapAgain (stepMoves .ts1 s)).ts0 = s.ts0 := by rw [State.ts0, snapAgain_tick, stepMoves_ts0]; rfl
  have h := stepShown_record s.tick.bank1.stepDelta s.tick.bank1.stepBy (snapAgain (stepMoves .ts1 s))
  rwa [hseq, hts0] at h

/-! ### What else a step brings about (R108, R182, R209, R210, R282, R329) -/

/-- A step leaves the tick domain but for what its filter has taken in: where an engine leaves UNSET, phase is counted anew (R88, R108). -/
theorem stepLeavesUnset_tick (b : Bank) (by_ : Nat) (s : State) :
    ∃ p i, (stepLeavesUnset b by_ s).tick = s.tick.setBank b { s.tick.bank b with phaseAcc := p, incrRef := i } := by
  unfold stepLeavesUnset
  split
  · have hset : ∀ u : State, (publish (setEngBy by_ b .settling u)).tick = u.tick := fun u =>
      (touches_publish (ps := [.ens, .log, .regs .ens, .regs .wch]) _ (by decide) (by decide)
        (touches_setEngBy by_ b .settling u (by decide) (by decide) (by decide) (Touches.refl _ u))).1 .tick (by decide)
    rw [hset]
    cases b <;> exact ⟨_, _, rfl⟩
  · exact ⟨_, _, (setBank_bank _ _).symm⟩

/-- An engine of TS1 that leaves UNSET is no record. -/
theorem touches_stepLeavesUnset_ts1 (by_ : Nat) (s : State) :
    Touches [.tick, .ens, .regs .ens] s (stepLeavesUnset .ts1 by_ s) := by
  unfold stepLeavesUnset
  split
  · have hstart := touches_startFilter .ts1 0 s (ps := [.tick, .ens, .regs .ens]) (by decide) (by decide) (Touches.refl _ s)
    refine touches_publish _ (by decide) (by decide) ?_
    unfold setEngBy
    exact touches_ite hstart (touches_State_raise has_Evt_ens (by decide) (touches_State_wr (has_engField .ts1) (by decide) hstart))
  · exact Touches.refl _ s

/-- Records after a step of TS0 carry STEPPED, and the outputs of a timescale that read `old` miss what its step passed. -/
def outsMeetStep (b : Bank) (old : Nat) (s : State) : State :=
  let u := if b = .ts0 then { s with tim := { s.tim with steps := s.tim.steps + 1 } } else s
  outIds.foldl (stepMeetsOut b old (u.tsOf b)) u

/-- What follows the move of a timescale that read `old` before: what its outputs meet, and for TS0 broadcast and multicast instants
skipped and the filter's instants begun anew. -/
def stepPasses (b : Bank) (old : Nat) (s : State) : State :=
  if b = .ts0 then
    let u := ptpStepSkips old ((List.range 32).foldl (fun s p => bcStepSkips p old s) (outsMeetStep b old s))
    { u with ens := { u.ens with stepAt := u.ts0 } }
  else outsMeetStep b old s

/-- A due step that may be applied is applied. -/
theorem applyStep_due {b : Bank} {s : State} (hd : s.stepDue b = true) (hb : s.stepBarred b = false) :
    applyStep b s = stepPasses b (s.tsOf b) (stepLeavesUnset b (s.tick.bank b).stepBy (moveByStep b s)) := by
  unfold applyStep stepApply
  rw [hd, hb]
  cases b <;> rfl

theorem touches_outsMeetStep {ps : List Part} (b : Bank) (old : Nat) (s : State) (htim : Part.tim ∈ ps) (rtim : Part.regs .tim ∈ ps) :
    Touches ps s (outsMeetStep b old s) :=
  touches_foldl (touches_ite (touches_set_tim htim (Touches.refl _ s)) (Touches.refl _ s))
    fun u o h => touches_stepMeetsOut b old _ u o htim rtim h

theorem touches_stepPasses (b : Bank) (old : Nat) (s : State) :
    Touches [.ens, .tim, .srv, .regs .tim, .regs .ntp, .regs .ptp] s (stepPasses b old s) := by
  have houts := touches_outsMeetStep (ps := [.ens, .tim, .srv, .regs .tim, .regs .ntp, .regs .ptp]) b old s (by decide) (by decide)
  refine touches_ite (touches_set_ens (by decide) (touches_ptpStepSkips _ _ (by decide) (by decide) ?_)) houts
  exact touches_foldl houts fun u p h => touches_bcStepSkips p old u (by decide) (by decide) h

/-- A step of TS1 skips nothing of TS0's. -/
theorem touches_stepPasses_ts1 (old : Nat) (s : State) : Touches [.tim, .regs .tim] s (stepPasses .ts1 old s) :=
  touches_outsMeetStep .ts1 old s (by decide) (by decide)

/-! ### STEP_APPLY -/

section
variable {b : Bank} {s : State} (hd : s.stepDue b = true) (hb : s.stepBarred b = false)
include hd hb

/-- After the move the tick domain stays, but for what a filter that begins has taken in. -/
theorem applyStep_tick : ∃ p i, (applyStep b s).tick =
    (stepMoves b s).tick.setBank b { (stepMoves b s).tick.bank b with phaseAcc := p, incrRef := i } := by
  obtain ⟨p, i, h⟩ := stepLeavesUnset_tick b (s.tick.bank b).stepBy (moveByStep b s)
  rw [moveByStep_tick] at h
  exact ⟨p, i, by rw [applyStep_due hd hb, ← h]; exact (touches_stepPasses b _ _).1 .tick (by decide)⟩

theorem applyStep_lanes : (applyStep b s).lanes = (stepMoves b s).lanes := by
  have hunset : (stepLeavesUnset b (s.tick.bank b).stepBy (moveByStep b s)).lanes = (moveByStep b s).lanes :=
    (touches_stepLeavesUnset (ps := [.tick, .ens, .log, .regs .ens, .regs .wch]) b _ _ (by decide) (by decide) (by decide) (by decide)
      (by decide) (Touches.refl _ _)).1 .lanes (by decide)
  rw [applyStep_due hd hb, ← moveByStep_lanes, ← hunset]
  exact (touches_stepPasses b _ _).1 .lanes (by decide)

/-- What the move has left in the registers of the timescales stays. -/
theorem rd_applyStep_tsc {g : Field} (hg : Block.has .tsc g.key = true) (hs : g.side = false) :
    (applyStep b s).rd g = (moveByStep b s).rd g := by
  have hunset : (stepLeavesUnset b (s.tick.bank b).stepBy (moveByStep b s)).rd g = (moveByStep b s).rd g :=
    (touches_stepLeavesUnset (ps := [.tick, .ens, .log, .regs .ens, .regs .wch]) b _ _ (by decide) (by decide) (by decide) (by decide)
      (by decide) (Touches.refl _ _)).1 (.regs .tsc) (by decide) g hg hs
  rw [applyStep_due hd hb, ← hunset]
  exact (touches_stepPasses b _ _).1 (.regs .tsc) (by decide) g hg hs

end

end Sys2Proof.Machine
end

section
/-! PROOFS. Steps as the obligation states them (R56-R61). -/

namespace Sys2Proof.Machine

/-- Counting phase anew moves no counter. -/
theorem setBank_phase_ts (k : Tick) (b : Bank) (p : Int) (i : Nat) :
    (k.setBank b { k.bank b with phaseAcc := p, incrRef := i }).bank0.ts = k.bank0.ts ∧
      (k.setBank b { k.bank b with phaseAcc := p, incrRef := i }).bank1.ts = k.bank1.ts := by cases b <;> exact ⟨rfl, rfl⟩

/-! ### Lanes moved with TS0 -/

/-- A listed key reads what a function that rewrites every entry makes of it. -/
theorem IMap.get_map_of_ne {α : Type} (d : α) (f : α → α) (m : IMap α) (n : Nat) (h : IMap.get d m n ≠ d) :
    IMap.get d (m.map fun p => (p.1, f p.2)) n = f (IMap.get d m n) := by
  induction m with
  | nil => exact absurd rfl h
  | cons p m ih =>
    by_cases hn : n = p.1
    · simp [IMap.get, hn]
    · simp only [List.map_cons, IMap.get, if_neg hn] at h ⊢
      exact ih h

section
variable {b : Bank} {s : State} (hd : s.stepDue b = true) (hb : s.stepBarred b = false)
include hd hb

/-! ### The state a due step leaves -/

/-- The counter has moved by the step, which is gone; what it read before is kept, and the slew is as it met the step (R58, R60). -/
theorem applyStep_counter :
    ((applyStep b s).tick.bank b).ts = (((s.tick.bank b).ts + (s.tick.bank b).stepDelta * 2 ^ 32) % (wrapTs : Int)).toNat ∧
      ((applyStep b s).tick.bank b).stepDelta = 0 ∧ ((applyStep b s).tick.bank b).stepRead = s.tsOf b ∧
      (s.rd (R.TSC_SLEW_CTL_ACTIVE (bankNo b)) = 1 → ((applyStep b s).tick.bank b).slew = {}) := by
  obtain ⟨p, i, h⟩ := applyStep_tick hd hb
  have hts : ((slewMeetsStep b s).tick.bank b).ts = (s.tick.bank b).ts := by rw [slewMeetsStep_tick]; split <;> simp
  have hslew : s.rd (R.TSC_SLEW_CTL_ACTIVE (bankNo b)) = 1 → ((slewMeetsStep b s).tick.bank b).slew = {} := fun ha => by
    rw [slewMeetsStep_tick, if_pos (show s.on _ = true from decide_eq_true ha), bank_setBank_same]
  rw [h, bank_setBank_same, stepMoves_bank]
  refine ⟨?_, rfl, rfl, hslew⟩
  rw [← hts]; rfl

/-- PENDING has fallen, DONE and for TS0 TIME_SET are set (R58). -/
theorem applyStep_reports :
    (applyStep b s).rd (R.TSC_STEP_CTL_PENDING (bankNo b)) = 0 ∧ (applyStep b s).rd (R.TSC_STEP_CTL_DONE (bankNo b)) = 1 ∧
      (b = .ts0 → (applyStep b s).rd R.TSC_STAT_TIME_SET = 1) := by
  obtain ⟨hpend, hdone, htime⟩ := rd_stepShown b (s.tick.bank b).stepDelta (s.tick.bank b).stepBy (snapAgain (stepMoves b s))
  rw [← moveByStep_eq] at hpend hdone htime
  exact ⟨(rd_applyStep_tsc hd hb (has_R_TSC_STEP_CTL_PENDING _) (by cases b <;> decide)).trans hpend,
    (rd_applyStep_tsc hd hb (has_R_TSC_STEP_CTL_DONE _) (by cases b <;> decide)).trans hdone,
    fun h => (rd_applyStep_tsc hd hb has_R_TSC_STAT_TIME_SET (by decide)).trans (htime h)⟩

/-- A slew shows how it met the step. -/
theorem rd_applyStep_slew {g : Field} (hg : g ∈ slewEndFields b) : (applyStep b s).rd g = (slewMeetsStep b s).rd g := by
  have hkeys : ∀ g ∈ slewEndFields b, Block.has .tsc g.key = true ∧ g.side = false := by cases b <;> decide
  exact (rd_applyStep_tsc hd hb (hkeys g hg).1 (hkeys g hg).2).trans (rd_moveByStep_slew b s g hg)

/-- A snapshot of the same tick shows the value after the step (R61). -/
theorem snapShows_applyStep (hl : s.tick.latchAt = some s.tick.count) : (applyStep b s).SnapShows := by
  have hkeys : ∀ g ∈ R.TSC_CTL_TS1_EN :: snapFields, Block.has .tsc g.key = true ∧ g.side = false := by decide
  have hrd : ∀ g ∈ R.TSC_CTL_TS1_EN :: snapFields, (applyStep b s).rd g = (moveByStep b s).rd g := fun g hg =>
    rd_applyStep_tsc hd hb (hkeys g hg).1 (hkeys g hg).2
  obtain ⟨p, i, h⟩ := applyStep_tick hd hb
  rw [← moveByStep_tick] at h
  have hbanks : (applyStep b s).tick.bank0.ts = (moveByStep b s).tick.bank0.ts ∧
      (applyStep b s).tick.bank1.ts = (moveByStep b s).tick.bank1.ts := by rw [h]; exact setBank_phase_ts _ b p i
  exact snapShows_congr (snapShows_moveByStep b s hl) (fun f hf => hrd f (List.mem_cons_of_mem _ hf))
    (by unfold State.ts0; rw [hbanks.1]) hbanks.2 (hrd _ List.mem_cons_self)

end

/-- The lanes in use have moved with TS0 (R29). -/
theorem applyStep_pulseTime {s : State} (hd : s.stepDue .ts0 = true) (hb : s.stepBarred .ts0 = false) (n : Nat) (hn : s.lane n ≠ {}) :
    ((applyStep .ts0 s).lane n).pulseTime = moveTs (s.lane n).pulseTime s.tick.bank0.stepDelta := by
  have hlane : (applyStep .ts0 s).lane n = (s.lane n).step s.tick.bank0.stepDelta := by
    rw [State.lane, applyStep_lanes hd hb, stepMoves_lanes]
    exact IMap.get_map_of_ne ({} : Lane) (·.step s.tick.bank0.stepDelta) s.lanes n hn
  rw [hlane]; rfl

/-- The record of a step of TS1 is the one record of the command (R59). -/
theorem applyStep_record {s : State} (hd : s.stepDue .ts1 = true) (hb : s.stepBarred .ts1 = false) :
    (applyStep .ts1 s).rd R.LOG_NEXT_SEQ = (s.rd R.LOG_NEXT_SEQ + 1) % 2 ^ 32 ∧
      IMap.get {} (applyStep .ts1 s).log (s.rd R.LOG_NEXT_SEQ % 131072) =
        { seq := s.rd R.LOG_NEXT_SEQ, time := s.ts0, event := 0x0201, unit := if s.tick.bank1.stepDelta < 0 then 129 else 1,
          sender := s.tick.bank1.stepBy, data := ktBytes s.tick.bank1.stepDelta.natAbs } := by
  have hpass := ((touches_stepLeavesUnset_ts1 (s.tick.bank .ts1).stepBy (moveByStep .ts1 s)).mono
    (qs := [.tick, .ens, .tim, .regs .ens, .regs .tim]) (by decide)).trans
      ((touches_stepPasses_ts1 (s.tsOf .ts1) _).mono (by decide))
  rw [← applyStep_due hd hb] at hpass
  rw [hpass.1 (.regs .wch) (by decide) _ has_R_LOG_NEXT_SEQ (by decide), hpass.1 .log (by decide)]
  exact moveByStep_record s

theorem stepDue_iff (s : State) (b : Bank) :
    s.stepDue b = true ↔ s.rd (R.TSC_STEP_CTL_PENDING (bankNo b)) = 1 ∧ (s.tick.bank b).stepMarkers = 0 := by
  simp [State.stepDue, State.on]

/-- The steps that may still be applied (R17). -/
theorem stepBarred_eq_false_iff (s : State) (b : Bank) :
    s.stepBarred b = false ↔ (b = .ts0 → (s.tick.bank b).stepBy = 0 → s.rd R.TSC_STAT_SERVED ≠ 1) := by
  simp [State.stepBarred, State.on]

/-- Settles O12: GO taken and refused by what `stepTaken` says, and STEP_APPLY by what a due step leaves. -/
theorem steps : Obligations.Steps := by
  unfold Obligations.Steps
  refine ⟨fun s b src w hsrc hns hpend hswitch hen => stepGo_taken w ?_, fun s b src w hden => stepGo_denied w ?_,
    fun s b src w hpf1 hens => ?_, fun s b hpend hmark hserved => ?_⟩
  · have hacc := (stepAccepted_iff s b src).2 hsrc
    have hden : ¬s.stepDenied b (s.rd (R.TSC_STEP_NS_NS (bankNo b))) = true := by
      rw [stepDenied_iff]
      rintro (h | h | ⟨h0, h⟩ | ⟨h1, h⟩)
      · omega
      · exact hpend h
      · exact hswitch h0 h
      · exact h (hen h1)
    simp [State.stepTaken, hacc, hden]
  · simp [State.stepTaken, (stepDenied_iff s b _).2 hden]
  · have hacc : ¬s.stepAccepted b src = true := by
      rw [stepAccepted_iff]
      rintro (h | ⟨h, hb | hb⟩)
      · exact hpf1 h
      · cases (hens h).1.symm.trans hb
      · exact hb (hens h).2
    obtain ⟨t, e, hdenied, -, hfw, hframe⟩ := stepGo_denied w (show s.stepTaken b src = false by simp [State.stepTaken, hacc])
    exact ⟨t, e, hdenied, hfw, hframe⟩
  · have hd : s.begin.stepDue b = true := (stepDue_iff _ _).2 ⟨hpend, hmark⟩
    have hb : s.begin.stepBarred b = false := (stepBarred_eq_false_iff _ _).2 hserved
    obtain ⟨t, e, hrd, hsame, -, -⟩ := go_spec (applyStep b) s
    have htick : t.tick = (applyStep b s.begin).tick := hsame .tick rfl
    obtain ⟨hts, hdelta, hread, hslew⟩ := applyStep_counter hd hb
    obtain ⟨hpend', hdone, htime⟩ := applyStep_reports hd hb
    have hslewRd : ∀ g ∈ slewEndFields b, t.rd g = (slewMeetsStep b s.begin).rd g := fun g hg =>
      (hrd g (by revert g; cases b <;> decide)).trans (rd_applyStep_slew hd hb hg)
    refine ⟨t, e, ?_, ?_, ?_, ?_, ?_, ?_, ?_, ?_, ?_, ?_, ?_, ?_⟩
    · rw [htick]; exact hts
    · rw [htick]; exact hdelta
    · rw [hrd _ (by cases b <;> decide)]; exact hpend'
    · rw [hrd _ (by cases b <;> decide)]; exact hdone
    · intro h; rw [hrd _ (by decide)]; exact htime h
    · rintro rfl n hn
      have hlanes : t.lanes = (applyStep .ts0 s.begin).lanes := hsame .lanes rfl
      rw [State.lane, hlanes]; exact applyStep_pulseTime hd hb n.val hn
    · intro hl
      have hkeys : ∀ g ∈ R.TSC_CTL_TS1_EN :: snapFields, g.side = false := by decide
      have hsnap := fun g hg => hrd g (hkeys g hg)
      exact snapShows_congr (snapShows_applyStep hd hb hl) (fun f hf => hsnap f (List.mem_cons_of_mem _ hf))
        (by unfold State.ts0; rw [htick]) (by rw [htick]) (hsnap _ List.mem_cons_self)
    · intro ha hf
      obtain ⟨h1, h2⟩ := slewMeetsStep_aborts (s := s.begin) ha hf
      rw [htick, hslewRd _ (by simp [slewEndFields]), hslewRd _ (by simp [slewEndFields])]
      exact ⟨h1, h2, hslew ha⟩
    · intro ha hf
      obtain ⟨h1, h2, h3⟩ := slewMeetsStep_rejects (s := s.begin) ha hf
      rw [htick, hslewRd _ (by simp [slewEndFields]), hslewRd _ (by simp [slewEndFields]), hslewRd _ (by simp [slewEndFields])]
      exact ⟨h1, h2, hslew ha, h3⟩
    · rw [htick]; exact hread
    · rintro rfl
      have hlog : t.log = (applyStep .ts1 s.begin).log := hsame .log rfl
      rw [hrd _ (by decide), hlog]
      exact applyStep_record hd hb
    · exact touches_go e (touches_applyStep b _ (by decide) (by decide) (by decide) (by decide) (by decide) (by decide) (by decide)
        (by decide) (by decide) (by decide) (by decide) (by decide) (by decide) (touches_State_begin s (Touches.refl _ s)))

end Sys2Proof.Machine
end

section
/-! PROOFS. The channels of the mailboxes (R400, R408): the registers that show a channel's use, when two states agree on them, and the
property a channel keeps, that it is clear whenever it is EMPTY. -/

namespace Sys2Proof.Machine

/-! ### The registers of a channel -/

/-- Whether the bits kept at a key are the state of a channel, its ORPHAN, or one of its data words. -/
def onChannel (c k : Nat) : Prop :=
  k = (0x100048 + c * 0x80) * 32 ∨ k = (0x100048 + c * 0x80) * 32 + 6 ∨
    ((0x100000 + c * 0x80) * 32 ≤ k ∧ k < (0x100040 + c * 0x80) * 32)

variable {c : Fin 16}

theorem onChannel_state_iff (ch : Nat) : onChannel c.val (R.MBX_STAT_STATE ch).key ↔ c.val = ch % 16 := by
  simp only [onChannel, R.MBX_STAT_STATE, Field.mk']; omega

theorem onChannel_orphan_iff (ch : Nat) : onChannel c.val (R.MBX_STAT_ORPHAN ch).key ↔ c.val = ch % 16 := by
  simp only [onChannel, R.MBX_STAT_ORPHAN, Field.mk']; omega

theorem onChannel_data_iff (ch : Nat) {k : Nat} (hk : k < 16) : onChannel c.val (R.MBX_DATA_DATA (ch * 16 + k)).key ↔ c.val = ch % 16 := by
  simp only [onChannel, R.MBX_DATA_DATA, Field.mk']; omega

/-- Bits outside the blocks of the channels are none of a channel's. -/
theorem not_onChannel_of_outside {k : Nat} (h : k < 0x2000000 ∨ 0x2010000 ≤ k) : ¬onChannel c.val k := by
  unfold onChannel; omega

/-- The other fields of MBX_STAT are none of these. -/
theorem not_onChannel_owner (ch : Nat) : ¬onChannel c.val (R.MBX_STAT_OWNER ch).key := by
  simp only [onChannel, R.MBX_STAT_OWNER, Field.mk']; omega

theorem not_onChannel_lastSender (ch : Nat) : ¬onChannel c.val (R.MBX_STAT_LAST_SENDER ch).key := by
  simp only [onChannel, R.MBX_STAT_LAST_SENDER, Field.mk']; omega

theorem not_onChannel_reject (ch : Nat) : ¬onChannel c.val (R.MBX_STAT_REJECT ch).key := by
  simp only [onChannel, R.MBX_STAT_REJECT, Field.mk']; omega

theorem not_onChannel_stale (ch : Nat) : ¬onChannel c.val (R.MBX_STAT_STALE ch).key := by
  simp only [onChannel, R.MBX_STAT_STALE, Field.mk']; omega

theorem not_onChannel_withdrawn (ch : Nat) : ¬onChannel c.val (R.MBX_STAT_WITHDRAWN ch).key := by
  simp only [onChannel, R.MBX_STAT_WITHDRAWN, Field.mk']; omega

theorem side_of_onChannel {f : Field} (h : onChannel c.val f.key) : f.side = false := by
  unfold onChannel at h
  simp only [Field.side, sideKey, Bool.or_eq_false_iff, decide_eq_false_iff_not, List.mem_cons, List.not_mem_nil, or_false]
  omega

theorem has_mbx_of_onChannel {k : Nat} (h : onChannel c.val k) : Block.mbx.has k = true := by
  unfold onChannel at h
  simp only [Block.has, decide_eq_true_eq]
  omega

theorem key_state_ne_data (ch k : Nat) : (R.MBX_STAT_STATE ch).key ≠ (R.MBX_DATA_DATA k).key := by
  simp only [R.MBX_STAT_STATE, R.MBX_DATA_DATA, Field.mk']; omega

theorem data_eq_of_key {j k : Nat} (h : (R.MBX_DATA_DATA j).key = (R.MBX_DATA_DATA k).key) : R.MBX_DATA_DATA j = R.MBX_DATA_DATA k := by
  have ha : 0x100000 + j % 256 / 16 * 0x80 + j % 256 % 16 * 4 = 0x100000 + k % 256 / 16 * 0x80 + k % 256 % 16 * 4 := by
    simp only [R.MBX_DATA_DATA, Field.mk'] at h; omega
  rw [R.MBX_DATA_DATA, ha]; rfl

/-! ### Agreement on a channel -/

/-- Two states agree on the state, the ORPHAN and the data words of a channel. -/
def SameChannel (c : Fin 16) (s t : State) : Prop := ∀ f : Field, onChannel c.val f.key → t.rd f = s.rd f

theorem SameChannel.refl (s : State) : SameChannel c s s := fun _ _ => rfl

theorem SameChannel.trans {s t u : State} (h : SameChannel c s t) (k : SameChannel c t u) : SameChannel c s u :=
  fun f hf => (k f hf).trans (h f hf)

theorem SameChannel.mbxState {s t : State} (h : SameChannel c s t) {ch : Nat} (hc : c.val = ch % 16) : t.mbxState ch = s.mbxState ch :=
  h _ ((onChannel_state_iff ch).2 hc)

section
variable {s₀ s : State}

theorem same_ite {a b : State} {p : Prop} [Decidable p] (ha : SameChannel c s₀ a) (hb : SameChannel c s₀ b) :
    SameChannel c s₀ (if p then a else b) := by split <;> assumption

theorem same_foldl {α : Type} {f : State → α → State} {l : List α} (h : SameChannel c s₀ s)
    (hf : ∀ s x, x ∈ l → SameChannel c s₀ s → SameChannel c s₀ (f s x)) : SameChannel c s₀ (l.foldl f s) := by
  induction l generalizing s with
  | nil => exact h
  | cons x l ih => exact ih (hf s x List.mem_cons_self h) fun s y hy => hf s y (List.mem_cons_of_mem _ hy)

theorem same_wr {f : Field} {v : Nat} (hf : ¬onChannel c.val f.key) (h : SameChannel c s₀ s) : SameChannel c s₀ (s.wr f v) :=
  fun g hg => (rd_wr_ne _ _ fun e => hf (e ▸ hg)).trans (h g hg)

theorem same_hi {f : Field} (hf : ¬onChannel c.val f.key) (h : SameChannel c s₀ s) : SameChannel c s₀ (s.hi f) := same_wr hf h

theorem same_lo {f : Field} (hf : ¬onChannel c.val f.key) (h : SameChannel c s₀ s) : SameChannel c s₀ (s.lo f) := same_wr hf h

theorem same_count {event unit inc : Nat} (h : SameChannel c s₀ s) : SameChannel c s₀ (s.count event unit inc) :=
  fun g hg => (rd_count _ _ _ _ (side_of_onChannel hg)).trans (h g hg)

theorem same_msi {fn vec : Nat} (h : SameChannel c s₀ s) : SameChannel c s₀ (s.msi fn vec) :=
  fun g hg => (rd_msi _ _ _ (side_of_onChannel hg)).trans (h g hg)

theorem same_raise {e : EvtSrc} {m : Nat} (he : ¬onChannel c.val e.ev.key) (h : SameChannel c s₀ s) : SameChannel c s₀ (s.raise e m) :=
  fun g hg => (rd_raise_ne _ _ _ (fun k => he (k ▸ hg)) (side_of_onChannel hg)).trans (h g hg)

/-- An update beside the registers leaves every channel. -/
theorem same_of_regs {t : State} (hr : t.regs = s.regs) (h : SameChannel c s₀ s) : SameChannel c s₀ t :=
  fun g hg => (congrArg (fun m => RegFile.get m g) hr).trans (h g hg)

/-- A change that touches no mailbox register leaves every channel. -/
theorem same_touches {ps : List Part} {t : State} (hps : Part.regs .mbx ∉ ps) (ht : Touches ps s t) (h : SameChannel c s₀ s) :
    SameChannel c s₀ t :=
  fun g hg => (ht.1 _ hps g (has_mbx_of_onChannel hg) (side_of_onChannel hg)).trans (h g hg)

end

/-! ### Clear where EMPTY -/

/-- Where the channel is EMPTY, its data words read 0 and its ORPHAN is clear (R408). -/
def ClearIfEmpty (c : Fin 16) (s : State) : Prop :=
  s.mbxState c.val = 0 → (∀ k : Fin 16, s.rd (R.MBX_DATA_DATA (c.val * 16 + k.val)) = 0) ∧ s.rd (R.MBX_STAT_ORPHAN c.val) = 0

theorem mbxState_mod (s : State) (ch : Nat) : s.mbxState (ch % 16) = s.mbxState ch := by
  simp [State.mbxState, R.MBX_STAT_STATE]

theorem ClearIfEmpty.of_same {s t : State} (h : ClearIfEmpty c s) (hs : SameChannel c s t) : ClearIfEmpty c t := by
  have hc : c.val = c.val % 16 := (Nat.mod_eq_of_lt c.isLt).symm
  intro he
  rw [hs.mbxState hc] at he
  obtain ⟨hd, ho⟩ := h he
  exact ⟨fun k => (hs _ ((onChannel_data_iff _ k.isLt).2 hc)).trans (hd k), (hs _ ((onChannel_orphan_iff _).2 hc)).trans ho⟩

/-- A channel in use may hold anything. -/
theorem clearIfEmpty_of_used {s : State} {ch : Nat} (hc : c.val = ch % 16) (hu : s.mbxState ch ≠ 0) : ClearIfEmpty c s := by
  intro he
  rw [hc, mbxState_mod] at he
  exact absurd he hu

/-- A change of one channel alone that leaves it in use. -/
theorem ClearIfEmpty.of_used {s t : State} {ch : Nat} (h : ClearIfEmpty c s) (hs : c.val ≠ ch % 16 → SameChannel c s t)
    (hu : t.mbxState ch ≠ 0) : ClearIfEmpty c t := by
  by_cases hc : c.val = ch % 16
  · exact clearIfEmpty_of_used hc hu
  · exact h.of_same (hs hc)

section
variable {s : State}

theorem clear_ite {a b : State} {p : Prop} [Decidable p] (ha : ClearIfEmpty c a) (hb : ClearIfEmpty c b) :
    ClearIfEmpty c (if p then a else b) := by split <;> assumption

theorem clear_foldl {α : Type} {f : State → α → State} {l : List α} (h : ClearIfEmpty c s)
    (hf : ∀ s x, x ∈ l → ClearIfEmpty c s → ClearIfEmpty c (f s x)) : ClearIfEmpty c (l.foldl f s) := by
  induction l generalizing s with
  | nil => exact h
  | cons x l ih => exact ih (hf s x List.mem_cons_self h) fun s y hy => hf s y (List.mem_cons_of_mem _ hy)

theorem clear_wr {f : Field} {v : Nat} (hf : ¬onChannel c.val f.key) (h : ClearIfEmpty c s) : ClearIfEmpty c (s.wr f v) :=
  h.of_same (same_wr hf (SameChannel.refl s))

end

theorem ClearIfEmpty.of_regs {s t : State} (h : ClearIfEmpty c s) (hr : t.regs = s.regs) : ClearIfEmpty c t :=
  h.of_same (same_of_regs hr (SameChannel.refl s))

theorem clear_set_fw {s : State} {x : Fw} (h : ClearIfEmpty c s) : ClearIfEmpty c { s with fw := x } := h.of_regs rfl

theorem clear_set_pcie {s : State} {x : Pcie} (h : ClearIfEmpty c s) : ClearIfEmpty c { s with pcie := x } := h.of_regs rfl

theorem clear_set_rst {s : State} {x : Rst} (h : ClearIfEmpty c s) : ClearIfEmpty c { s with rst := x } := h.of_regs rfl

theorem clear_set_cfg {s : State} {x : Cfg} (h : ClearIfEmpty c s) : ClearIfEmpty c { s with cfg := x } := h.of_regs rfl

theorem clear_emit {s : State} {o : Output} (h : ClearIfEmpty c s) : ClearIfEmpty c (s.emit o) := h.of_regs rfl

/-! ### What leaves the mailbox registers -/

/-- A field of another block is none of a channel's. -/
theorem not_onChannel_of_has {b : Block} {k : Nat} (hb : b.has k = true) (hne : b ≠ .mbx) : ¬onChannel c.val k :=
  fun h => hne (Block.disjoint hb (has_mbx_of_onChannel h))

/-- Every part of the state but the mailbox registers. -/
def offMbx : List Part := Part.all.filter (fun p => p ≠ .regs .mbx)

theorem Part.mem_all (p : Part) : p ∈ Part.all := by
  cases p with
  | regs b => cases b <;> decide
  | _ => decide

@[simp] theorem mem_offMbx (p : Part) : p ∈ offMbx ↔ p ≠ .regs .mbx := by simp [offMbx, Part.mem_all]

@[simp] theorem touches_self (ps : List Part) (s : State) : Touches ps s s := Touches.refl ps s

theorem ClearIfEmpty.touches {s t : State} (h : ClearIfEmpty c s) (ht : Touches offMbx s t) : ClearIfEmpty c t :=
  h.of_same (same_touches (by simp) ht (SameChannel.refl s))

end Sys2Proof.Machine
end

section
/-! PROOFS. What the mailbox operations (13) keep of a channel: those that write one channel leave the others, and each leaves a channel
clear where it is EMPTY. -/

namespace Sys2Proof.Machine

variable {c : Fin 16}

/-! ### Operations that write no state, ORPHAN or data word -/

section
variable {s₀ s : State}

theorem same_mbxEvent {ch kind : Nat} (h : SameChannel c s₀ s) : SameChannel c s₀ (mbxEvent ch kind s) :=
  same_raise (not_onChannel_of_outside (by simp only [Evt.mbx, R.MBX_EVT_BITS, Field.mk']; omega)) h

theorem same_logRec {event unit sender : Nat} {data : List Nat} (h : SameChannel c s₀ s) :
    SameChannel c s₀ (s.logRec event unit sender data) :=
  same_touches (ps := [.log, .regs .wch]) (by decide)
    (touches_State_logRec _ _ _ _ _ (by decide) (by decide) (Touches.refl _ _)) h

theorem same_modMbox {ch : Nat} {f : Mbx → Mbx} (h : SameChannel c s₀ s) : SameChannel c s₀ (s.modMbox ch f) := same_of_regs rfl h

theorem same_postEnds {ch status : Nat} (h : SameChannel c s₀ s) : SameChannel c s₀ (postEnds ch status s) := same_of_regs rfl h

theorem same_reject {ch addr : Nat} {p : MbxPath} {read : Bool} (h : SameChannel c s₀ s) :
    SameChannel c s₀ (reject ch p addr read s) := by
  have hr : SameChannel c s₀ ((mbxEvent ch 2 (s.hi (R.MBX_STAT_REJECT ch))).count 0x021 ch 1) :=
    same_count (same_mbxEvent (same_hi (not_onChannel_reject ch) h))
  have hl := same_ite (p := (decide (8 ≤ ch) && (!reachesSecure p || (decide (12 ≤ ch) && decide (pathId p = 2)))) = true)
    (same_logRec (event := 0x0E01) (unit := ch) (sender := pathId p) (data := le 4 (addr - (0x100000 + ch * 0x80))) hr) hr
  unfold reject
  cases p <;> exact same_ite hl hl

theorem same_unsupported {addr : Nat} {read : Bool} (h : SameChannel c s₀ s) : SameChannel c s₀ (unsupported addr read s) :=
  same_ite h h

theorem same_lockAnswer {ch : Nat} {old : State} {winner : Option Nat} {p : MbxPath} (h : SameChannel c s₀ s) :
    SameChannel c s₀ (lockAnswer ch old winner p s) :=
  same_ite (same_reject h) (same_ite h (same_ite h h))

end

theorem clear_reject {ch addr : Nat} {p : MbxPath} {read : Bool} {s : State} (h : ClearIfEmpty c s) :
    ClearIfEmpty c (reject ch p addr read s) := h.of_same (same_reject (SameChannel.refl s))

theorem clear_unsupported {addr : Nat} {read : Bool} {s : State} (h : ClearIfEmpty c s) : ClearIfEmpty c (unsupported addr read s) :=
  h.of_same (same_unsupported (SameChannel.refl s))

/-! ### Becoming EMPTY (R408) -/

theorem rd_lo_zero {s : State} {f g : Field} (hfg : f.key = g.key → f = g) (h : s.rd f = 0) : (s.lo g).rd f = 0 := by
  by_cases e : f.key = g.key
  · rw [hfg e]; exact rd_lo_same _ _
  · rw [rd_lo_ne _ e]; exact h

/-- The data words of a channel after all of them have been cleared. -/
theorem rd_clearWords (ch : Nat) (ks : List Nat) (s : State) (j : Nat) (hj : j ∈ ks ∨ s.rd (R.MBX_DATA_DATA (ch * 16 + j)) = 0) :
    (ks.foldl (fun s k => s.lo (R.MBX_DATA_DATA (ch * 16 + k))) s).rd (R.MBX_DATA_DATA (ch * 16 + j)) = 0 := by
  induction ks generalizing s with
  | nil => simpa using hj
  | cons k ks ih =>
    refine ih _ ?_
    by_cases hk : j = k
    · subst hk; exact .inr (rd_lo_same _ _)
    · rcases hj with hj | hj
      · exact .inl ((List.mem_cons.1 hj).resolve_left hk)
      · exact .inr (rd_lo_zero data_eq_of_key hj)

/-- What the registers read in a channel that becomes EMPTY. -/
theorem rd_mbxEmpty (ch : Nat) (s : State) (g : Field) : (mbxEmpty ch s).rd g =
    ((((mbxWords.foldl (fun s k => s.lo (R.MBX_DATA_DATA (ch * 16 + k))) s).lo (R.MBX_STAT_STATE ch)).lo (R.MBX_STAT_OWNER ch)).lo
      (R.MBX_STAT_ORPHAN ch)).rd g := by
  unfold mbxEmpty
  generalize mbxWords.foldl (fun s k => s.lo (R.MBX_DATA_DATA (ch * 16 + k))) s = u
  rfl

theorem same_mbxEmpty {s₀ s : State} {ch : Nat} (hc : c.val ≠ ch % 16) (h : SameChannel c s₀ s) : SameChannel c s₀ (mbxEmpty ch s) := by
  have hw : SameChannel c s₀ (mbxWords.foldl (fun s k => s.lo (R.MBX_DATA_DATA (ch * 16 + k))) s) :=
    same_foldl h fun s k hk h => same_lo (mt (onChannel_data_iff ch (List.mem_range.1 hk)).1 hc) h
  exact fun g hg => (rd_mbxEmpty ch s g).trans
    (same_lo (mt (onChannel_orphan_iff ch).1 hc) (same_lo (not_onChannel_owner ch) (same_lo (mt (onChannel_state_iff ch).1 hc) hw)) g hg)

/-- A channel that becomes EMPTY is clear. -/
theorem clear_mbxEmpty {s : State} (ch : Nat) (h : ClearIfEmpty c s) : ClearIfEmpty c (mbxEmpty ch s) := by
  by_cases hc : c.val = ch % 16
  · refine fun _ => ⟨fun k => ?_, ?_⟩
    · have he : R.MBX_DATA_DATA (c.val * 16 + k.val) = R.MBX_DATA_DATA (ch * 16 + k.val) :=
        data_eq_of_key (by simp only [R.MBX_DATA_DATA, Field.mk']; omega)
      have hw := rd_clearWords ch mbxWords s k.val (.inl (List.mem_range.2 k.isLt))
      rw [he, rd_mbxEmpty]
      refine (rd_lo_ne _ ?_).trans ((rd_lo_ne _ ?_).trans ((rd_lo_ne _ ?_).trans hw)) <;>
        · simp only [R.MBX_DATA_DATA, R.MBX_STAT_ORPHAN, R.MBX_STAT_OWNER, R.MBX_STAT_STATE, Field.mk']; omega
    · have he : R.MBX_STAT_ORPHAN c.val = R.MBX_STAT_ORPHAN ch := by simp only [R.MBX_STAT_ORPHAN, hc, Nat.mod_mod]
      rw [he, rd_mbxEmpty]
      exact rd_lo_same _ _
  · exact h.of_same (same_mbxEmpty hc (SameChannel.refl s))

/-! ### Becoming LOCKED, FULL and REPLIED (R401, R404, R407) -/

section
variable {s₀ s : State}

theorem same_stamp {ch id : Nat} (hc : c.val ≠ ch % 16) (h : SameChannel c s₀ s) : SameChannel c s₀ (stamp ch id s) :=
  same_wr (mt (onChannel_data_iff ch (by decide)).1 hc) h

theorem same_putWords {ch : Nat} {bytes : List Nat} (hc : c.val ≠ ch % 16) (h : SameChannel c s₀ s) :
    SameChannel c s₀ (putWords ch bytes s) :=
  same_foldl h fun _ _ hk h => same_wr (mt (onChannel_data_iff ch (List.mem_range.1 (List.mem_of_mem_take hk))).1 hc) h

end

/-- Writing data words leaves the state of every channel. -/
theorem mbxState_putWords (ch j : Nat) (bytes : List Nat) (s : State) : (putWords ch bytes s).mbxState j = s.mbxState j := by
  have key : ∀ (ks : List Nat) (s : State),
      (ks.foldl (fun s k => s.wr (R.MBX_DATA_DATA (ch * 16 + k)) (leAt bytes (4 * k) 4)) s).mbxState j = s.mbxState j := by
    intro ks
    induction ks with
    | nil => exact fun _ => rfl
    | cons k ks ih => exact fun s => (ih _).trans (rd_wr_ne _ _ (key_state_ne_data _ _))
  exact key _ s

/-- The registers a message's arrival writes; the rest of goFull counts, tells the receiver and queues. -/
theorem same_goFull_arrival (ch id : Nat) (s : State) :
    SameChannel c (((stamp ch id s).wr (R.MBX_STAT_STATE ch) 2).wr (R.MBX_STAT_LAST_SENDER ch) id) (goFull ch id s) := by
  unfold goFull
  generalize ((stamp ch id s).wr (R.MBX_STAT_STATE ch) 2).wr (R.MBX_STAT_LAST_SENDER ch) id = t
  have hn : SameChannel c t (t.count 0x020 ch 1) := same_count (SameChannel.refl t)
  have he := same_ite (p := mbxReceiver ch = classHost ch) (same_mbxEvent (ch := ch) (kind := 0) hn) hn
  exact same_ite he he

theorem same_goFull {s₀ s : State} {ch id : Nat} (hc : c.val ≠ ch % 16) (h : SameChannel c s₀ s) : SameChannel c s₀ (goFull ch id s) :=
  (same_wr (not_onChannel_lastSender ch) (same_wr (mt (onChannel_state_iff ch).1 hc) (same_stamp hc h))).trans
    (same_goFull_arrival ch id s)

/-- A message that has arrived is FULL. -/
theorem mbxState_goFull (ch id : Nat) (s : State) : (goFull ch id s).mbxState ch = 2 := by
  have hc : (Fin.ofNat 16 ch).val = ch % 16 := rfl
  refine (same_goFull_arrival ch id s).mbxState hc |>.trans ((rd_wr_ne _ _ ?_).trans (rd_wr_same _ _ _))
  simp only [R.MBX_STAT_STATE, R.MBX_STAT_LAST_SENDER, Field.mk']; omega

theorem clear_goFull {s t : State} {ch id : Nat} (h : ClearIfEmpty c s) (hs : c.val ≠ ch % 16 → SameChannel c s t) :
    ClearIfEmpty c (goFull ch id t) :=
  h.of_used (fun hc => same_goFull hc (hs hc)) (by rw [mbxState_goFull]; decide)

/-- The registers a reply writes; the rest of goReplied restarts the hold and tells the owner. -/
theorem same_goReplied_reply (ch : Nat) {s : State} (ho : ¬s.on (R.MBX_STAT_ORPHAN ch) = true) :
    SameChannel c ((stamp ch (mbxReceiver ch) s).wr (R.MBX_STAT_STATE ch) 3) (goReplied ch s) := by
  unfold goReplied
  rw [if_neg ho]
  generalize (stamp ch (mbxReceiver ch) s).wr (R.MBX_STAT_STATE ch) 3 = t
  have hd : SameChannel c t ((restartHold ch t).modMbox ch (fun m => { m with doneAt := some (restartHold ch t).tick.count })) :=
    same_modMbox (same_modMbox (SameChannel.refl t))
  refine same_ite (same_mbxEvent ?_) ?_ <;> exact same_ite (same_postEnds hd) hd

/-- A reply leaves every channel clear where it is EMPTY. -/
theorem clear_goReplied {s t : State} {ch : Nat} (h : ClearIfEmpty c s) (hs : c.val ≠ ch % 16 → SameChannel c s t)
    (hu : t.mbxState ch ≠ 0) : ClearIfEmpty c (goReplied ch t) := by
  by_cases ho : t.on (R.MBX_STAT_ORPHAN ch) = true
  · unfold goReplied
    rw [if_pos ho]
    exact clear_mbxEmpty ch (h.of_used hs hu)
  · refine h.of_used (fun hc => (same_wr (mt (onChannel_state_iff ch).1 hc) (same_stamp hc (hs hc))).trans (same_goReplied_reply ch ho)) ?_
    have hst : (goReplied ch t).mbxState ch = 3 :=
      ((same_goReplied_reply (c := Fin.ofNat 16 ch) ch ho).mbxState rfl).trans (rd_wr_same _ _ _)
    rw [hst]; decide

/-- A read of MBX_LOCK leaves a channel clear where it is EMPTY: the winner's channel is LOCKED. -/
theorem clear_lockRead {s : State} (ch : Nat) (ps : List MbxPath) (h : ClearIfEmpty c s) : ClearIfEmpty c (lockRead ch ps s) := by
  have hf : ∀ (w : Option Nat) (qs : List MbxPath), SameChannel c s (qs.foldl (fun t p => lockAnswer ch s w p t) s) :=
    fun w qs => same_foldl (SameChannel.refl s) fun _ _ _ h => same_lockAnswer h
  unfold lockRead
  dsimp only
  split
  · refine clear_ite (h.of_used (ch := ch) (fun hc => ?_) ?_) (h.of_same (hf _ _))
    · exact same_wr (not_onChannel_owner ch) (same_wr (mt (onChannel_state_iff ch).1 hc) (hf _ _))
    · have hst : ∀ (t : State) (id : Nat), (restartHold ch ((t.wr (R.MBX_STAT_STATE ch) 1).wr (R.MBX_STAT_OWNER ch) id)).mbxState ch = 1 :=
        fun t id => (rd_wr_ne _ _ (by simp only [R.MBX_STAT_STATE, R.MBX_STAT_OWNER, Field.mk']; omega)).trans (rd_wr_same _ _ _)
      rw [hst]; decide
  · exact h.of_same (hf _ _)

/-! ### Accesses of a channel's registers (R402) -/

/-- A data word of a channel in use may be written. -/
theorem clear_wr_data {s : State} {ch k v : Nat} (hk : k < 16) (hu : s.mbxState ch ≠ 0) (h : ClearIfEmpty c s) :
    ClearIfEmpty c (s.wr (R.MBX_DATA_DATA (ch * 16 + k)) v) :=
  h.of_used (fun hc => same_wr (mt (onChannel_data_iff ch hk).1 hc) (SameChannel.refl s))
    (by rw [State.mbxState, rd_wr_ne _ _ (key_state_ne_data _ _)]; exact hu)

theorem clear_dataAccess {s : State} {ch k : Nat} (hk : k < 16) (p : MbxPath) (w : Option Nat) (h : ClearIfEmpty c s) :
    ClearIfEmpty c (dataAccess ch k p w s) := by
  unfold dataAccess
  dsimp only
  split
  · next hopen =>
    have hu : s.mbxState ch ≠ 0 := by
      intro e
      simp [e] at hopen
    have hh : ∀ own : Bool, ClearIfEmpty c (if own then restartHold ch s else s) := fun own => clear_ite h h
    split
    · exact clear_wr_data hk (by split <;> exact hu) (hh _)
    · exact hh _
  · exact clear_reject h

/-- What the relay agent hands over becomes FULL (R410). -/
theorem clear_agentFeed (n : Nat) {s : State} (h : ClearIfEmpty c s) : ClearIfEmpty c (agentFeed n s) := by
  induction n generalizing s with
  | zero => exact h
  | succ n ih =>
    unfold agentFeed
    dsimp only
    split
    · exact h
    · refine clear_ite (ih h) (clear_ite (ih (clear_goFull h fun hc => ?_)) h)
      exact same_putWords hc (same_wr (not_onChannel_owner _) (SameChannel.refl s))

theorem clear_agentRun {s : State} (h : ClearIfEmpty c s) : ClearIfEmpty c (agentRun s) := clear_agentFeed 9 h

theorem clear_sendRelay {s : State} (dst : Nat) (pkt : List Nat) (h : ClearIfEmpty c s) : ClearIfEmpty c (sendRelay dst pkt s) :=
  h.touches (touches_sendRelay _ _ _ (by simp) (Touches.refl _ _))

theorem clear_agentReply {s : State} (ch : Nat) (h : ClearIfEmpty c s) : ClearIfEmpty c (agentReply ch s) :=
  clear_ite (clear_agentRun (clear_mbxEmpty ch (clear_sendRelay _ _ h))) h

theorem clear_withdrawMsg {s : State} (ch : Nat) (h : ClearIfEmpty c s) : ClearIfEmpty c (withdrawMsg ch s) :=
  (clear_mbxEmpty ch h).of_same (same_mbxEvent (same_hi (not_onChannel_withdrawn ch) (SameChannel.refl _)))

theorem clear_writeMbxCtl {s : State} (ch : Nat) (p : MbxPath) (w : Nat) (h : ClearIfEmpty c s) : ClearIfEmpty c (writeMbxCtl ch p w s) := by
  unfold writeMbxCtl
  dsimp only
  split
  · exact clear_ite (clear_goFull h fun _ => SameChannel.refl s) (clear_reject h)
  · split
    · next hopen =>
      have hu : s.mbxState ch ≠ 0 := by
        intro e
        simp [e] at hopen
      exact clear_agentReply ch (clear_goReplied h (fun _ => SameChannel.refl s) hu)
    · exact clear_reject h
  · exact clear_ite (clear_agentRun (clear_mbxEmpty ch h)) (clear_reject h)
  · exact clear_ite (clear_withdrawMsg ch h) (clear_reject h)
  · exact clear_reject h

/-- A write of MBX_STAT clears W1C bits alone. -/
theorem clear_storeStat {s : State} (ch w : Nat) (h : ClearIfEmpty c s) : ClearIfEmpty c (s.storeReg false (Reg.MBX_STAT ch) w) :=
  clear_wr (not_onChannel_withdrawn ch) (clear_wr (not_onChannel_stale ch) (clear_wr (not_onChannel_reject ch) h))

theorem clear_statAccess {s : State} (ch : Nat) (p : MbxPath) (w : Option Nat) (h : ClearIfEmpty c s) :
    ClearIfEmpty c (statAccess ch p w s) := by
  cases w with
  | none => exact clear_ite (clear_reject h) h
  | some v => exact clear_ite (clear_reject h) (clear_storeStat ch v h)

theorem clear_mbxAccess {s : State} (ch : Nat) (r : MbxReg) (p : MbxPath) (w : Option Nat) (h : ClearIfEmpty c s) :
    ClearIfEmpty c (mbxAccess ch r p w s) := by
  cases r with
  | data k => exact clear_dataAccess k.isLt p w h
  | ctl =>
    cases w with
    | some v => exact clear_writeMbxCtl ch p v h
    | none => exact clear_ite (clear_reject h) h
  | lock =>
    cases w with
    | some _ => exact clear_reject h
    | none => exact clear_lockRead ch [p] h
  | stat => exact clear_statAccess ch p w h

theorem clear_guarded {s : State} {ch addr : Nat} {p : MbxPath} {read : Bool} {f : State → State} (h : ClearIfEmpty c s)
    (hf : ClearIfEmpty c (f s)) : ClearIfEmpty c (guarded ch p addr read f s) :=
  clear_ite (clear_unsupported h) hf

theorem clear_goTogether {s : State} (gs : List (Fin 16 × MbxPath × Nat)) (h : ClearIfEmpty c s) : ClearIfEmpty c (goTogether gs s) :=
  clear_foldl h fun _ _ _ h => clear_foldl h fun _ _ _ h => clear_guarded h (clear_writeMbxCtl _ _ _ h)

/-! ### Holds, receivers and owners (R406, R411, R412) -/

theorem clear_waitClk {s : State} (x : Nat) (h : ClearIfEmpty c s) : ClearIfEmpty c (s.waitClk x) :=
  h.touches (by apply touches_State_waitClk <;> simp)

theorem clear_bumpReg {s : State} {f : Field} (hf : ¬onChannel c.val f.key) (h : ClearIfEmpty c s) : ClearIfEmpty c (bumpReg f s) :=
  clear_wr hf h

theorem clear_lockHoldExpire {s : State} (ch : Nat) (h : ClearIfEmpty c s) : ClearIfEmpty c (lockHoldExpire ch s) :=
  clear_ite (clear_agentRun (clear_bumpReg (not_onChannel_of_outside (by decide))
    (clear_wr (not_onChannel_stale ch) (clear_mbxEmpty ch (clear_waitClk _ h))))) h

theorem clear_abortMsg {s : State} (ch : Nat) (h : ClearIfEmpty c s) : ClearIfEmpty c (abortMsg ch s) := by
  unfold abortMsg
  split
  · next hfull =>
    refine clear_ite (clear_mbxEmpty ch h) (clear_goReplied h (fun hc => ?_) ?_)
    · exact same_wr (mt (onChannel_data_iff ch (by decide)).1 hc) (SameChannel.refl s)
    · rw [State.mbxState, rd_wr_ne _ _ (key_state_ne_data _ _)]
      exact ne_of_eq_of_ne hfull (by decide)
  · exact h

theorem clear_abortFor {s : State} (id : Nat) (h : ClearIfEmpty c s) : ClearIfEmpty c (abortFor id s) :=
  clear_foldl h fun _ _ _ h => clear_abortMsg _ h

/-- Only a FULL channel becomes an orphan. -/
theorem clear_orphanFor {s : State} (id : Nat) (h : ClearIfEmpty c s) : ClearIfEmpty c (orphanFor id s) := by
  refine clear_foldl h fun s ch _ h => ?_
  split
  · next hfull =>
    refine h.of_used (ch := ch) (fun hc => same_hi (mt (onChannel_orphan_iff ch).1 hc) (SameChannel.refl s)) ?_
    rw [State.mbxState, rd_hi_ne _ (by simp only [R.MBX_STAT_STATE, R.MBX_STAT_ORPHAN, Field.mk']; omega)]
    exact ne_of_eq_of_ne hfull (by decide)
  · exact clear_ite h (clear_mbxEmpty ch h)

theorem clear_setD0 {s : State} (f : Nat) (d0 : Bool) (h : ClearIfEmpty c s) : ClearIfEmpty c (setD0 f d0 s) :=
  clear_ite h (clear_abortFor _ h)

/-! ### Crossings and notifications (R415, R416, R430) -/

theorem clear_crossingTimeout {s : State} (ch : Nat) (h : ClearIfEmpty c s) : ClearIfEmpty c (crossingTimeout ch s) := by
  unfold crossingTimeout
  split
  · exact h
  · refine clear_ite ?_ (clear_ite (clear_reject h) h)
    have hw : ∀ x, ClearIfEmpty c (bumpReg R.MBX_XCNT_CROSSED (withdrawMsg ch (s.waitClk x))) := fun x =>
      clear_bumpReg (not_onChannel_of_outside (by decide)) (clear_withdrawMsg ch (clear_waitClk x h))
    exact clear_set_fw ((hw _).of_same (same_logRec (same_postEnds (SameChannel.refl _))))

theorem clear_postHeld {s : State} (f : Nat) (h : ClearIfEmpty c s) : ClearIfEmpty c (postHeld f s).2 := by
  unfold postHeld
  split
  · exact h
  · split
    · exact h
    · exact clear_goFull h fun hc => same_putWords hc (same_wr (not_onChannel_owner _) (SameChannel.refl s))

theorem clear_notifyPost {s : State} (h : ClearIfEmpty c s) : ClearIfEmpty c (notifyPost s) :=
  clear_ite (clear_ite (clear_postHeld 0 h) (clear_postHeld 1 h)) h

end Sys2Proof.Machine
end

section
/-! PROOFS. Where the registers lie (R40, R402): only a channel's own block holds its registers, so a write of any other address leaves the
channel, and a reset of another range does too. -/

namespace Sys2Proof.Machine

variable {c : Fin 16}

/-! ### Registers beside those of the channels -/

/-- Whether bits lie outside the blocks of the channels. -/
def OffChannels (k : Nat) : Prop := k < 0x2000000 ∨ 0x2010000 ≤ k

theorem OffChannels.not_onChannel {k : Nat} (h : OffChannels k) : ¬onChannel c.val k := not_onChannel_of_outside h

theorem offChannels_mk' {a l w r : Nat} {acc : Access} (h : OffChannels (a * 32 + l)) : OffChannels (Field.mk' a l w acc r).key := h

theorem offChannels_at {f : Field} {a l : Nat} (h : OffChannels f.key) : OffChannels (f.at a l).key := h

/-- A register, repeated or not, whose fields lie outside the blocks of the channels. -/
def RegFamily.Off (r : RegFamily) : Prop := ∀ i, ∀ f ∈ (r.reg i).fields, OffChannels f.key

/-- The registers of the chapters before the mailboxes lie outside, each field by its address. -/
theorem off_before : ∀ r ∈ regs01 ++ regs02 ++ regs03 ++ regs04 ++ regs05 ++ regs06 ++ regs07 ++ regs08 ++ regs09 ++ regs10 ++ regs11 ++ regs12,
    r.Off := by
  repeat' first
    | exact List.forall_mem_nil _
    | refine List.forall_mem_cons.2 ⟨?_, ?_⟩
    | refine List.forall_mem_append.2 ⟨?_, ?_⟩
    | intro i
    | exact offChannels_mk' (by unfold OffChannels; omega)
    | apply offChannels_at

/-- So do those of the chapters after them. -/
theorem off_after : ∀ r ∈ regs15 ++ regs16, r.Off := by
  repeat' first
    | exact List.forall_mem_nil _
    | refine List.forall_mem_cons.2 ⟨?_, ?_⟩
    | refine List.forall_mem_append.2 ⟨?_, ?_⟩
    | intro i
    | exact offChannels_mk' (by unfold OffChannels; omega)

/-- The four registers of a channel's block: MBX_DATA, MBX_CTL, MBX_LOCK and MBX_STAT. -/
def channelRegs : List RegFamily := regs13.take 4

/-- The mailbox registers behind the blocks. -/
theorem off_mailbox : ∀ r ∈ regs13.drop 4, r.Off := by
  repeat' first
    | exact List.forall_mem_nil _
    | refine List.forall_mem_cons.2 ⟨?_, ?_⟩
    | intro i
    | exact offChannels_mk' (by unfold OffChannels; omega)

theorem off_or_channelRegs {r : RegFamily} (h : r ∈ allRegs) : r.Off ∨ r ∈ channelRegs := by
  unfold allRegs at h
  rcases List.mem_append.1 h with h | h16
  · rcases List.mem_append.1 h with h | h15
    · rcases List.mem_append.1 h with h | h13
      · exact .inl (off_before r h)
      · rw [← List.take_append_drop 4 regs13] at h13
        exact (List.mem_append.1 h13).symm.imp (off_mailbox r) id
    · exact .inl (off_after r (List.mem_append.2 (.inl h15)))
  · exact .inl (off_after r (List.mem_append.2 (.inr h16)))

/-- The registers of the blocks lie at the blocks' addresses. -/
theorem inBlock_of_find : ∀ r ∈ channelRegs, ∀ a x, r.find a = some x → inBlock a 0x100000 0x80 16 0x4C ≠ none := by
  have hone : ∀ (b : Nat) (reg : Nat → Register) (a : Nat) (x : Register), 0x100000 ≤ b → b < 0x10004C →
      RegFamily.find ⟨b, [(128, 16)], reg⟩ a = some x → inBlock a 0x100000 0x80 16 0x4C ≠ none := by
    intro b reg a x hlo hhi h
    simp only [RegFamily.find, strideIndex, inBlock] at h ⊢
    split at h
    · cases h
    · split at h
      · split at h
        · rw [if_pos (by omega)]; simp
        · cases h
      · cases h
  refine List.forall_mem_cons.2 ⟨fun a x h => ?_, List.forall_mem_cons.2 ⟨fun a x => hone _ _ a x (by decide) (by decide),
    List.forall_mem_cons.2 ⟨fun a x => hone _ _ a x (by decide) (by decide),
      List.forall_mem_cons.2 ⟨fun a x => hone _ _ a x (by decide) (by decide), List.forall_mem_nil _⟩⟩⟩⟩
  simp only [RegFamily.find, strideIndex, inBlock] at h ⊢
  split at h
  · cases h
  · split at h
    · split at h
      · split at h
        · rw [if_pos (by omega)]; simp
        · cases h
      · cases h
    · cases h

/-- None of their fields is kept through a reset or cleared by a read (R10). -/
theorem acc_of_channelRegs : ∀ r ∈ channelRegs, ∀ i, ∀ f ∈ (r.reg i).fields, f.acc ≠ .rws ∧ f.acc ≠ .rc := by
  repeat' first
    | exact List.forall_mem_nil _
    | refine List.forall_mem_cons.2 ⟨?_, ?_⟩
    | intro i
    | exact ⟨nofun, nofun⟩

/-- A register at an address is one of a family. -/
theorem regAt_family {a : Nat} {x : Register} (h : regAt a = some x) : ∃ r ∈ allRegs, r.find a = some x ∧ ∃ i, x = r.reg i := by
  obtain ⟨r, hr, hf⟩ := List.exists_of_findSome?_eq_some h
  refine ⟨r, hr, hf, ?_⟩
  unfold RegFamily.find at hf
  split at hf
  · cases hf
  · obtain ⟨i, -, hi⟩ := Option.map_eq_some_iff.1 hf
    exact ⟨i, hi.symm⟩

/-- Beside the blocks' own addresses, no register has a field in them. -/
theorem regAt_off {a : Nat} {x : Register} (h : regAt a = some x) (ha : inBlock a 0x100000 0x80 16 0x4C = none) :
    ∀ f ∈ x.fields, OffChannels f.key := by
  obtain ⟨r, hr, hf, i, rfl⟩ := regAt_family h
  rcases off_or_channelRegs hr with ho | hc
  · exact ho i
  · exact absurd ha (inBlock_of_find r hc a _ hf)

theorem regAt_acc {a : Nat} {x : Register} (h : regAt a = some x) : ∀ f ∈ x.fields, OffChannels f.key ∨ f.acc ≠ .rws ∧ f.acc ≠ .rc := by
  obtain ⟨r, hr, hf, i, rfl⟩ := regAt_family h
  intro f hm
  rcases off_or_channelRegs hr with ho | hc
  · exact .inl (ho i f hm)
  · exact .inr (acc_of_channelRegs r hc i f hm)

theorem inBlock_of_outside {a : Nat} (h : a < 0x100000 ∨ 0x100800 ≤ a) : inBlock a 0x100000 0x80 16 0x4C = none := by
  unfold inBlock
  exact if_neg (by omega)

/-! ### Stores, clearing reads and enables -/

theorem clear_storeReg {s : State} {l : Bool} {x : Register} {w : Nat} (hx : ∀ f ∈ x.fields, OffChannels f.key) (h : ClearIfEmpty c s) :
    ClearIfEmpty c (s.storeReg l x w) :=
  h.of_same fun _ hg => rd_storeReg_ne s l x w fun f hf e => (hx f hf).not_onChannel (e ▸ hg)

/-- A read clears no field of a channel. -/
theorem clear_clearRc {s : State} {a : Nat} {x : Register} (hx : regAt a = some x) (h : ClearIfEmpty c s) : ClearIfEmpty c (s.clearRc x) :=
  clear_foldl h fun s f hf h => by
    split
    · next hrc =>
      rcases regAt_acc hx f hf with ho | ⟨-, hne⟩
      · exact clear_wr ho.not_onChannel h
      · exact absurd hrc hne
    · exact h

/-- Whether the enables of an event register lie outside the blocks. -/
def EvtSrc.EnOff (e : EvtSrc) : Prop := ∀ f, e.en = some f → OffChannels f.key

theorem enOff_of {f : Field} {ev : Field} {fn vec : Nat} (h : OffChannels f.key) : EvtSrc.EnOff ⟨ev, some f, fn, vec⟩ :=
  fun _ e => Option.some.inj e ▸ h

theorem enOff_evtAt {a : Nat} {e : EvtSrc} (h : evtAt a = some e) : e.EnOff := by
  have hfixed : ∀ e ∈ [Evt.ens, Evt.rfm, Evt.wch, Evt.gns, Evt.tim, Evt.pls, Evt.mor, Evt.pwr, Evt.cfg, Evt.hrg 0, Evt.hrg 1, Evt.mbx 0,
      Evt.mbx 1], e.EnOff := by
    repeat' first
      | exact List.forall_mem_nil _
      | refine List.forall_mem_cons.2 ⟨?_, ?_⟩
      | exact enOff_of (offChannels_mk' (by unfold OffChannels; omega))
  have hdie : ∀ d, ∀ e ∈ ((List.range 8).map (fun k => Evt.mac (d * 8 + k))) ++ [Evt.ntp d, Evt.nts d, Evt.ptp d], e.EnOff := by
    intro d
    refine List.forall_mem_append.2 ⟨List.forall_mem_map.2 fun k _ => ?_, ?_⟩
    repeat' first
      | exact List.forall_mem_nil _
      | refine List.forall_mem_cons.2 ⟨?_, ?_⟩
      | exact enOff_of (offChannels_mk' (by unfold OffChannels; omega))
  unfold evtAt at h
  dsimp only at h
  split at h
  · next e' he =>
    cases h
    exact hfixed _ (List.mem_of_find?_eq_some he)
  · split at h
    · cases h
      exact enOff_of (offChannels_mk' (by unfold OffChannels; omega))
    · split at h
      · exact hdie _ _ (List.mem_of_find?_eq_some h)
      · cases h

theorem clear_enableEvt {s : State} {e : EvtSrc} {v : Nat} (he : e.EnOff) (h : ClearIfEmpty c s) : ClearIfEmpty c (s.enableEvt e v) := by
  unfold State.enableEvt
  split
  · exact h
  · next f hf =>
    have hw : SameChannel c s (s.wr f (enableBits f v)) := same_wr (he f hf).not_onChannel (SameChannel.refl s)
    exact h.of_same (same_ite (same_msi hw) hw)

/-! ### Resets of a range of registers -/

theorem IMap.get_filter_key {α : Type} (d : α) (m : IMap α) (q : Nat → Bool) (k : Nat) :
    IMap.get d (m.filter (fun e => q e.1)) k = if q k then IMap.get d m k else d := by
  induction m with
  | nil => simp [IMap.get]
  | cons p m ih =>
    obtain ⟨k', v⟩ := p
    by_cases hk : k = k'
    · subst hk
      cases hq : q k <;> simp [IMap.get, hq, ih]
    · cases hq : q k' <;> simp [IMap.get, hq, hk, ih]

/-- A reset of registers outside the blocks. -/
theorem clear_resetRegs {s : State} {lo hi : Nat} {keep : Nat → Bool} (hr : hi ≤ 0x100000 ∨ 0x100800 ≤ lo) (h : ClearIfEmpty c s) :
    ClearIfEmpty c (resetRegs lo hi keep s) := by
  refine h.of_same fun g hg => ?_
  have hq : (!within lo hi (g.key / 32) || keep g.key) = true := by
    unfold onChannel at hg
    simp only [within, Bool.or_eq_true, Bool.not_eq_true', Bool.and_eq_false_iff, decide_eq_false_iff_not]
    omega
  have hget := IMap.get_filter_key 0 s.regs (fun k => !within lo hi (k / 32) || keep k) g.key
  rw [if_pos hq] at hget
  exact congrArg (fun v => (v ^^^ g.reset) % 2 ^ g.width) hget

end Sys2Proof.Machine
end

section
/-! PROOFS. What the resets (R447-R449), sleeping dies (R443), memory errors (R473) and the test port (R497) keep of a channel. -/

namespace Sys2Proof.Machine

variable {c : Fin 16}

/-! ### Operations of a reset that write no mailbox register -/

section
variable {s : State}

theorem clear_settleEnded (h : ClearIfEmpty c s) : ClearIfEmpty c (settleEnded s) := h.touches (by apply touches_settleEnded <;> simp)

theorem clear_setLane (n st : Nat) (h : ClearIfEmpty c s) : ClearIfEmpty c (setLane n st s) := h.touches (by apply touches_setLane <;> simp)

theorem clear_modLane (n : Nat) (f : Lane → Lane) (h : ClearIfEmpty c s) : ClearIfEmpty c (s.modLane n f) :=
  h.touches (by apply touches_State_modLane <;> simp)

theorem clear_emptyTables (n : Nat) (h : ClearIfEmpty c s) : ClearIfEmpty c (emptyTables n s) :=
  h.touches (by apply touches_emptyTables <;> simp)

theorem clear_setSaving (i v : Nat) (h : ClearIfEmpty c s) : ClearIfEmpty c (setSaving i v s) :=
  h.touches (by apply touches_setSaving <;> simp)

theorem clear_modPower (f : Power → Power) (h : ClearIfEmpty c s) : ClearIfEmpty c (s.modPower f) :=
  h.touches (by apply touches_State_modPower <;> simp)

theorem clear_napGroups (h : ClearIfEmpty c s) : ClearIfEmpty c (napGroups s) := h.touches (by apply touches_napGroups <;> simp)

theorem clear_doCut (x : Cut) (h : ClearIfEmpty c s) : ClearIfEmpty c (doCut x s) := h.touches (by apply touches_doCut <;> simp)

theorem clear_showCond {f : Field} (evt : Nat) (v : Bool) (hf : Block.pwr.has f.key = true) (h : ClearIfEmpty c s) :
    ClearIfEmpty c (showCond f evt v s) := h.touches (touches_showCond f evt v s (by simp) hf (by simp) (touches_self _ _))

theorem clear_breakRun (h : ClearIfEmpty c s) : ClearIfEmpty c (breakRun s) := h.touches (by apply touches_breakRun <;> simp)

theorem clear_clearKeys (d : Nat) (h : ClearIfEmpty c s) : ClearIfEmpty c (clearKeys s d) := h.touches (by apply touches_clearKeys <;> simp)

theorem clear_clearCounts (h : ClearIfEmpty c s) : ClearIfEmpty c (clearCounts s) := h.touches (by apply touches_clearCounts; simp)

theorem clear_endRunning (id status detail : Nat) (ps : List Nat) (h : ClearIfEmpty c s) :
    ClearIfEmpty c (endRunning id status detail ps s) := h.touches (by apply touches_endRunning <;> simp)

theorem clear_loseStamps (p : Nat) (h : ClearIfEmpty c s) : ClearIfEmpty c (loseStamps p s) := h.touches (by apply touches_loseStamps <;> simp)

theorem clear_setLink (p st : Nat) (h : ClearIfEmpty c s) : ClearIfEmpty c (setLink p st s) := h.touches (by apply touches_setLink <;> simp)

theorem clear_setMor (l st : Nat) (h : ClearIfEmpty c s) : ClearIfEmpty c (setMor l st s) := h.touches (by apply touches_setMor <;> simp)

theorem clear_flushQueues (p : Nat) (h : ClearIfEmpty c s) : ClearIfEmpty c (flushQueues p s) :=
  h.touches (by apply touches_flushQueues <;> simp)

theorem clear_modPort (p : Nat) (f : Port → Port) (h : ClearIfEmpty c s) : ClearIfEmpty c (s.modPort p f) :=
  h.touches (by apply touches_State_modPort <;> simp)

theorem clear_dropHost (qs : List Nat) (p : Nat) (h : ClearIfEmpty c s) : ClearIfEmpty c (dropHost qs s p) :=
  h.touches (by apply touches_dropHost <;> simp)

theorem clear_set_srv {x : Served} (h : ClearIfEmpty c s) : ClearIfEmpty c { s with srv := x } := h.of_regs rfl

theorem clear_set_rings {x : IMap Ring} (h : ClearIfEmpty c s) : ClearIfEmpty c { s with rings := x } := h.of_regs rfl

theorem clear_set_tick_ens_stack {x : Tick} {y : Ens} {z : Stack} (h : ClearIfEmpty c s) :
    ClearIfEmpty c { s with tick := x, ens := y, stack := z } := h.of_regs rfl

theorem clear_warmEns (ts : Bool) (sender : Nat) (h : ClearIfEmpty c s) : ClearIfEmpty c (warmEns ts sender s) :=
  h.touches (by apply touches_warmEns <;> simp)

theorem clear_warmRfm (old : State) (p : Nat) (h : ClearIfEmpty c s) : ClearIfEmpty c (warmRfm old s p) :=
  h.touches (by apply touches_warmRfm <;> simp)

theorem clear_warmOut (old : State) (o : Nat) (h : ClearIfEmpty c s) : ClearIfEmpty c (warmOut old s o) :=
  h.touches (by apply touches_warmOut <;> simp)

theorem clear_warmGroup (old : State) (g : Nat) (h : ClearIfEmpty c s) : ClearIfEmpty c (warmGroup old s g) :=
  h.touches (by apply touches_warmGroup <;> simp)

theorem clear_modGnsPort (p : Nat) (f : GnsPort → GnsPort) (h : ClearIfEmpty c s) : ClearIfEmpty c (s.modGnsPort p f) :=
  h.touches (by apply touches_State_modGnsPort <;> simp)

theorem clear_manualNotch (n k : Nat) (h : ClearIfEmpty c s) : ClearIfEmpty c (manualNotch n k s) :=
  h.touches (by apply touches_manualNotch <;> simp)

theorem clear_assignChan (ch : Nat) (h : ClearIfEmpty c s) : ClearIfEmpty c (assignChan ch s) :=
  h.touches (by apply touches_assignChan <;> simp)

theorem clear_dropBias (i : Nat) (h : ClearIfEmpty c s) : ClearIfEmpty c (dropBias s i) := h.touches (by apply touches_dropBias <;> simp)

theorem clear_stepMeetsOut (b : Bank) (old new o : Nat) (h : ClearIfEmpty c s) : ClearIfEmpty c (stepMeetsOut b old new s o) :=
  h.touches (by apply touches_stepMeetsOut <;> simp)

theorem clear_tapScan (tdi : List Bool) (h : ClearIfEmpty c s) : ClearIfEmpty c (tapScan tdi s) := h.touches (by apply touches_tapScan <;> simp)

theorem clear_count (event unit inc : Nat) (h : ClearIfEmpty c s) : ClearIfEmpty c (s.count event unit inc) :=
  h.of_same (same_count (SameChannel.refl s))

theorem clear_logRec (event unit sender : Nat) (data : List Nat) (h : ClearIfEmpty c s) : ClearIfEmpty c (s.logRec event unit sender data) :=
  h.of_same (same_logRec (SameChannel.refl s))

theorem clear_raise {e : EvtSrc} {b : Block} (m : Nat) (hb : b.has e.ev.key = true) (hne : b ≠ .mbx) (h : ClearIfEmpty c s) :
    ClearIfEmpty c (s.raise e m) := h.of_same (same_raise (not_onChannel_of_has hb hne) (SameChannel.refl s))

end

/-! ### Beacon dies and functions (R412) -/

section
variable {s : State}

theorem clear_dieDown (n : Nat) (h : ClearIfEmpty c s) : ClearIfEmpty c (dieDown n s) :=
  clear_orphanFor _ (clear_emptyTables n (clear_wr (not_onChannel_of_has (has_upField n) (by decide)) (clear_modLane n _
    (clear_wr (not_onChannel_of_has (has_R_TSC_LANE_STAT_GOOD_RUN n) (by decide)) (clear_setLane n 0 h)))))

theorem clear_sleepDies (h : ClearIfEmpty c s) : ClearIfEmpty c (sleepDies s) :=
  clear_foldl h fun _ n _ h => clear_ite
    (clear_wr (not_onChannel_of_has has_R_PWR_DIE_SLEEP_ASLEEP (by decide)) (clear_setSaving _ _ (clear_dieDown n h))) h

/-- A field of the power, reset and configuration registers. -/
theorem clear_wr_pwr {f : Field} {v : Nat} (hf : Block.pwr.has f.key = true) (h : ClearIfEmpty c s) : ClearIfEmpty c (s.wr f v) :=
  clear_wr (not_onChannel_of_has hf (by decide)) h

theorem clear_arbiterEval (demand : Nat) (temp : Int) (die : Nat) (h : ClearIfEmpty c s) : ClearIfEmpty c (arbiterEval demand temp die s) := by
  unfold arbiterEval
  extract_lets s1 s2 s3 e s4 s5 s6 s7
  have h3 : ClearIfEmpty c s3 :=
    clear_wr_pwr has_R_PWR_TEMP_DIE (clear_wr_pwr has_R_PWR_TEMP_TJ (clear_modPower _ (clear_waitClk _ h)))
  have h6 : ClearIfEmpty c s6 := clear_showCond _ _ has_R_PWR_STAT_OVERTEMP (clear_showCond _ _ has_R_PWR_STAT_DERATE
    (clear_wr_pwr has_R_PWR_STAT_GRANTED (clear_wr_pwr has_R_PWR_STAT_EFFECTIVE h3)))
  have h7 : ClearIfEmpty c s7 := clear_ite (clear_modPower _ h6) h6
  have hs : ∀ v, ClearIfEmpty c (showCond R.PWR_STAT_SHORT 1 v s7) := fun v => clear_showCond _ _ has_R_PWR_STAT_SHORT h7
  refine clear_napGroups (clear_sleepDies (clear_ite (hs _) ?_))
  split
  · exact clear_doCut _ (hs _)
  · exact hs _

theorem clear_clearDie (n : Nat) (h : ClearIfEmpty c s) : ClearIfEmpty c (clearDie n s) :=
  clear_foldl (clear_wr (not_onChannel_of_has (has_R_NTS_ENG_STAT_PARKED n) (by decide)) (clear_resetRegs (by omega)
    (clear_set_srv (clear_wr_pwr (has_parkedField n) h)))) fun _ _ _ h => clear_modPort _ _ h

theorem clear_resetDie (n : Nat) (h : ClearIfEmpty c s) : ClearIfEmpty c (resetDie n s) := by
  unfold resetDie
  exact clear_clearCounts (clear_clearDie n (clear_foldl (clear_clearKeys n (clear_dieDown n (clear_foldl
    (clear_resetRegs (by omega) (clear_settleEnded (clear_breakRun h)))
    fun _ p _ h => clear_flushQueues p (clear_setLink p 0 (clear_loseStamps p h))))) fun _ _ _ h => clear_endRunning _ _ _ _ h))

theorem clear_resetFn (f : Nat) (h : ClearIfEmpty c s) : ClearIfEmpty c (resetFn f s) := by
  have hd : ∀ qs, ClearIfEmpty c ((List.range 32).foldl (dropHost qs) (settleEnded s)) :=
    fun qs => clear_foldl (clear_settleEnded h) fun _ p _ h => clear_dropHost qs p h
  exact clear_wr (not_onChannel_of_outside (by simp only [R.MBX_EVT_BITS, Field.mk']; omega))
    (clear_abortFor _ (clear_orphanFor _ (clear_set_fw (clear_resetRegs (by omega) (clear_foldl (clear_set_rings (hd _))
      fun _ q _ h => clear_resetRegs (by omega) h)))))

theorem clear_functionReset (f : Nat) (h : ClearIfEmpty c s) : ClearIfEmpty c (functionReset f s) := clear_ite h (clear_resetFn f h)

theorem clear_beginFlr (f : Nat) (h : ClearIfEmpty c s) : ClearIfEmpty c (beginFlr f s) := clear_ite h (clear_resetFn f (clear_set_pcie h))

theorem clear_perst (h : ClearIfEmpty c s) : ClearIfEmpty c (perst s) := clear_set_pcie (clear_functionReset 1 (clear_functionReset 0 h))

end

/-! ### Cold and warm resets (R449, R451) -/

/-- Where no register is listed, every field reads its reset value. -/
theorem rd_of_nil {s : State} (hs : s.regs = []) (f : Field) : s.rd f = f.reset % 2 ^ f.width := by
  simp [State.rd, RegFile.get, IMap.get, hs]

/-- A cold reset leaves every register at its reset value, which for a channel is 0. -/
theorem clear_coldState (powerOn : Bool) (s : State) : ClearIfEmpty c (coldState powerOn s) :=
  fun _ => ⟨fun _ => rd_of_nil rfl _, rd_of_nil rfl _⟩

/-- The fields of the ensemble that a warm reset keeps are none of a channel's. -/
theorem offChannels_of_keptEns {f : Field} (h : keptEns f = true) : OffChannels f.key := by
  have hslot : ∀ i, ∀ f ∈ [R.ENS_SLOT_STAT_STATE i, R.ENS_SLOT_STAT_CAUSE i, R.ENS_SLOT_STAT_BIAS_OK i], OffChannels f.key := by
    intro i
    simp only [List.forall_mem_cons, OffChannels, R.ENS_SLOT_STAT_STATE, R.ENS_SLOT_STAT_CAUSE, R.ENS_SLOT_STAT_BIAS_OK, Field.mk']
    exact ⟨by omega, by omega, by omega, List.forall_mem_nil _⟩
  have hfixed : ∀ f ∈ [R.ENS_STAT_STATE, R.ENS_STAT_S1_STATE, R.ENS_STAT_LEAD, R.ENS_STAT_LEAD_VALID, R.ENS_STAT_QUAL, R.ENS_PHASE_THETA,
      R.ENS_FREQ_Y, R.ENS_DRIFT_D, R.ENS_ERR_ERR, R.ENS_HO_TIME_SECONDS, R.ENS_TEMP_TEMP, R.ENS_ANCHOR_ACTIVE, R.ENS_ANCHOR_HOLD,
      R.ENS_S1_PHASE_THETA, R.ENS_S1_FREQ_Y], OffChannels f.key := by unfold OffChannels; decide
  simp only [keptEns, Bool.or_eq_true, List.any_eq_true] at h
  rcases h with h | ⟨i, -, h⟩
  · exact hfixed f (of_decide_eq_true h)
  · exact hslot i f (of_decide_eq_true h)

/-- Nor are those kept for one owner each. -/
theorem offChannels_of_keptSome {s : State} {f : Field} (h : s.keptSome f = true) : OffChannels f.key := by
  have hfixed : ∀ f ∈ [R.PWR_RST_CAUSE_WARM_CNT, R.CFG_STAT_LOCKED, R.TIM_STAT_NO_SPARE], OffChannels f.key := by unfold OffChannels; decide
  have hport : ∀ p, ∀ f ∈ [R.RFM_EFC_CODE p, R.RFM_USE_MINUTES p, R.GNS_POS_CTL_STATE p], OffChannels f.key := by
    intro p
    simp only [List.forall_mem_cons, OffChannels, R.RFM_EFC_CODE, R.RFM_USE_MINUTES, R.GNS_POS_CTL_STATE, Field.mk']
    exact ⟨by omega, by omega, by omega, List.forall_mem_nil _⟩
  have htim : ∀ g, ∀ f ∈ [R.TIM_GRP_STAT_SPARE g, R.TIM_GRP_STAT_RETIRED g, R.TIM_CH_STAT_UNIT g, R.TIM_CH_STAT_CAL_SEQ g, R.TIM_CH_CAL_DNL g,
      R.PLS_LEFT_LEFT g, R.PLS_STAT_LEVEL g], OffChannels f.key := by
    intro g
    simp only [List.forall_mem_cons, OffChannels, R.TIM_GRP_STAT_SPARE, R.TIM_GRP_STAT_RETIRED, R.TIM_CH_STAT_UNIT, R.TIM_CH_STAT_CAL_SEQ,
      R.TIM_CH_CAL_DNL, R.PLS_LEFT_LEFT, R.PLS_STAT_LEVEL, Field.mk']
    refine ⟨?_, ?_, ?_, ?_, ?_, ?_, ?_, List.forall_mem_nil _⟩ <;> omega
  simp only [State.keptSome, Bool.or_eq_true, Bool.and_eq_true, List.any_eq_true, decide_eq_true_eq] at h
  rcases h with ((h | ⟨p, -, h | ⟨h, -⟩⟩) | ⟨g, -, -, h | ⟨k, -, (h | h) | h⟩⟩) | ⟨o, -, ⟨h, -⟩ | ⟨h, -⟩⟩
  · exact hfixed f h
  · exact hport p f (List.mem_append_left [R.GNS_POS_CTL_STATE p] h)
  · exact hport p f (by simp [h])
  · exact htim g f (List.mem_append_left [R.TIM_CH_STAT_UNIT g, R.TIM_CH_STAT_CAL_SEQ g, R.TIM_CH_CAL_DNL g, R.PLS_LEFT_LEFT g,
      R.PLS_STAT_LEVEL g] h)
  · exact htim k f (by simp [h])
  · exact htim k f (by simp [h])
  · exact htim k f (by simp [h])
  · exact htim o f (by simp [h])
  · exact htim o f (by simp [h])

theorem keyField_spec {k : Nat} {f : Field} (h : keyField k = some f) : f.key = k ∧ (OffChannels f.key ∨ f.acc ≠ .rws ∧ f.acc ≠ .rc) := by
  obtain ⟨r, hr, hf⟩ := Option.bind_eq_some_iff.1 h
  exact ⟨by simpa using List.find?_some hf, regAt_acc hr f (List.mem_of_find?_eq_some hf)⟩

/-- A warm reset keeps none of a channel's registers (R451). -/
theorem warmKeeps_of_onChannel (s : State) {k : Nat} (h : onChannel c.val k) : s.warmKeeps k = false := by
  unfold State.warmKeeps
  dsimp only
  split
  · rfl
  · next f hf =>
    obtain ⟨hk, hacc⟩ := keyField_spec hf
    have hon : ¬OffChannels f.key := fun ho => ho.not_onChannel (hk ▸ h)
    have hrws : f.acc ≠ .rws := (hacc.resolve_left hon).1
    have hens : keptEns f = false := Bool.eq_false_iff.2 fun e => hon (offChannels_of_keptEns e)
    have hsome : s.keptSome f = false := Bool.eq_false_iff.2 fun e => hon (offChannels_of_keptSome e)
    have hlo : 0x100000 ≤ k / 32 := by unfold onChannel at h; omega
    have hhi : k / 32 < 0x120000 := by unfold onChannel at h; omega
    simp only [hens, hsome, hrws, within, decide_false, Bool.false_or, Bool.or_false, Bool.or_eq_false_iff, Bool.and_eq_false_iff,
      decide_eq_false_iff_not]
    omega

/-- After a warm reset every channel is at its reset value. -/
theorem clear_warmBase (s : State) : ClearIfEmpty c (warmBase s) := by
  have hrd : ∀ f : Field, onChannel c.val f.key → (warmBase s).rd f = f.reset % 2 ^ f.width := by
    intro f hf
    have hget := IMap.get_filter_key 0 s.regs (fun k => s.warmKeeps k) f.key
    rw [warmKeeps_of_onChannel s hf] at hget
    exact (congrArg (fun v => (v ^^^ f.reset) % 2 ^ f.width) hget).trans (by simp)
  have hc : c.val = c.val % 16 := (Nat.mod_eq_of_lt c.isLt).symm
  exact fun _ => ⟨fun k => hrd _ ((onChannel_data_iff _ k.isLt).2 hc), hrd _ ((onChannel_orphan_iff _).2 hc)⟩

theorem clear_warmState (ts : Bool) (sender : Nat) (s : State) : ClearIfEmpty c (warmState ts sender s) := by
  unfold warmState
  extract_lets n0 n1 n2 n3 n4 n5 n6 n7
  have h2 : ClearIfEmpty c n2 := clear_foldl (clear_foldl (clear_foldl (clear_warmEns ts sender (clear_warmBase s))
    fun _ p _ h => clear_warmRfm s p h) fun _ g _ h => clear_warmGroup s g h) fun _ o _ h => clear_warmOut s o h
  have h3 : ClearIfEmpty c n3 :=
    clear_foldl h2 fun _ d _ h => clear_wr (not_onChannel_of_has (has_R_NTS_ENG_STAT_PARKED d) (by decide)) h
  have h5 : ClearIfEmpty c n5 :=
    clear_foldl (clear_foldl h3 fun _ p _ h => clear_modGnsPort p _ h) fun _ p _ h => clear_modPort p _ h
  have h7 : ClearIfEmpty c n7 := clear_foldl (clear_wr (not_onChannel_of_has has_R_GNS_STAT_ACTIVE_ANT (by decide)) h5)
    fun _ p _ h => clear_ite (clear_foldl h fun _ k _ h => clear_manualNotch p k h) h
  exact clear_foldl h7 fun _ _ _ h => clear_ite (clear_assignChan _ h) h

section
variable {s : State}

theorem clear_warmTs (h : ClearIfEmpty c s) : ClearIfEmpty c (warmTs s) := by
  have hens : ∀ f ∈ [R.ENS_STAT_LEAD, R.ENS_STAT_LEAD_VALID, R.ENS_PHASE_THETA, R.ENS_FREQ_Y, R.ENS_ERR_ERR, R.ENS_HO_TIME_SECONDS,
      R.ENS_S1_PHASE_THETA, R.ENS_S1_FREQ_Y], OffChannels f.key := by unfold OffChannels; decide
  exact clear_foldl (clear_foldl (clear_foldl (clear_foldl (clear_set_tick_ens_stack (clear_resetRegs (by omega) h))
    fun _ i _ h => clear_dropBias i h) fun _ f hf h => clear_wr (hens f hf).not_onChannel h)
    fun _ o _ h => clear_stepMeetsOut _ _ _ o h) fun _ o _ h => clear_stepMeetsOut _ _ _ o h

/-! ### What begins a reset (R447, R448) -/

theorem clear_resetScope (k : ResetKind) (sender : Nat) (h : ClearIfEmpty c s) : ClearIfEmpty c (resetScope k sender s) := by
  unfold resetScope
  cases k with
  | powerOn => exact clear_coldState _ _
  | cold => exact clear_coldState _ _
  | warmTs => exact clear_warmTs (clear_warmState _ _ _)
  | warm => exact clear_warmState _ _ _
  | watchdog => exact clear_warmState _ _ _
  | die n => exact clear_resetDie n h

theorem clear_beginReset (k : ResetKind) (sender : Nat) (h : ClearIfEmpty c s) : ClearIfEmpty c (beginReset k sender s) :=
  clear_ite (clear_set_rst (clear_resetScope k sender h)) h

theorem clear_writeRstCtl (id w : Nat) (h : ClearIfEmpty c s) : ClearIfEmpty c (writeRstCtl id w s) := by
  refine clear_ite ?_ (clear_wr_pwr has_R_PWR_RST_CTL_KIND h)
  split
  · exact clear_beginReset _ _ (clear_wr_pwr has_R_PWR_RST_CTL_KIND h)
  · exact clear_raise _ has_Evt_pwr (by decide) h

theorem clear_resetBegin (h : ClearIfEmpty c s) : ClearIfEmpty c (resetBegin s) := by
  unfold resetBegin
  split
  · exact h
  · exact clear_beginReset _ _ (clear_set_rst (clear_waitClk _ h))

theorem clear_porLow (ns : Nat) (rises : Bool) (h : ClearIfEmpty c s) : ClearIfEmpty c (porLow ns rises s) :=
  clear_ite h (clear_set_rst (clear_beginReset _ _ (clear_set_rst h)))

theorem clear_watchdogExpire (h : ClearIfEmpty c s) : ClearIfEmpty c (watchdogExpire s) :=
  clear_ite (clear_beginReset _ _ (clear_waitClk _ h)) h

/-! ### Memory errors and the test port (R473, R497) -/

theorem clear_setCst (k : Nat) (x : CstEntry) (h : ClearIfEmpty c s) : ClearIfEmpty c (s.setCst k x) :=
  h.touches (by apply touches_State_setCst <;> simp)

theorem clear_ntpStat (n k : Nat) (h : ClearIfEmpty c s) : ClearIfEmpty c (ntpStat n k s) := h.touches (by apply touches_ntpStat <;> simp)

theorem clear_setGrant (k : Nat) (x : Grant) (h : ClearIfEmpty c s) : ClearIfEmpty c (s.setGrant k x) :=
  h.touches (by apply touches_State_setGrant <;> simp)

theorem clear_ptpStat (n k : Nat) (h : ClearIfEmpty c s) : ClearIfEmpty c (ptpStat n k s) := h.touches (by apply touches_ptpStat <;> simp)

theorem clear_eccAct (a : EccArray) (h : ClearIfEmpty c s) : ClearIfEmpty c (eccAct a s) := by
  cases a with
  | cst n e => exact clear_ite (clear_ntpStat _ _ (clear_setCst _ _ h)) h
  | grant n e => exact clear_ite (clear_ptpStat _ _ (clear_setGrant _ _ h)) h
  | packet p q i => exact h.touches (by apply touches_dropQueued <;> simp)
  | queue p q i => exact h.touches (by apply touches_dropQueued <;> simp)
  | received p i => exact h.touches (by apply touches_dropReceived <;> simp)
  | assembly p => exact h.touches (by apply touches_dropOpen <;> simp)
  | record g slot => exact h.touches (by apply touches_dropRecord <;> simp)
  | firmware => exact clear_beginReset _ _ h
  | keys => exact clear_beginReset _ _ h
  | shadow => exact clear_beginReset _ _ h
  | other d => exact h

theorem clear_eccError (a : EccArray) (word : Nat) (corrected : Bool) (h : ClearIfEmpty c s) :
    ClearIfEmpty c (eccError a word corrected s) :=
  clear_ite (clear_count _ _ _ (clear_wr (not_onChannel_of_has has_R_WCH_ECC_CORR (by decide)) h))
    (clear_eccAct a (clear_logRec _ _ _ _ (clear_raise _ has_Evt_wch (by decide)
      (clear_count _ _ _ (clear_wr (not_onChannel_of_has has_R_WCH_ECC_UNCORR (by decide)) h)))))

theorem clear_tapInstruction (i : TapInstr) (h : ClearIfEmpty c s) : ClearIfEmpty c (tapInstruction i s) := by
  unfold tapInstruction
  extract_lets leaves r s1 s2
  have h2 : ClearIfEmpty c s2 := clear_ite (clear_beginReset _ _ (clear_set_rst h)) (clear_set_rst h)
  exact clear_ite (clear_foldl (clear_foldl h2 fun _ p _ h => clear_ite h (clear_setLink p 0 h)) fun _ l _ h => clear_setMor l 0 h) h2

theorem clear_tapOp (op : TapOp) (h : ClearIfEmpty c s) : ClearIfEmpty c (tapOp op s) := by
  cases op with
  | reset => exact clear_tapInstruction _ h
  | load code => exact clear_tapInstruction _ h
  | scan tdi => exact clear_tapScan tdi h

end

end Sys2Proof.Machine
end

section
/-! PROOFS. What register accesses (R40-R44, R402) and the boot of the Keeper (R447-R457) keep of a channel. -/

namespace Sys2Proof.Machine

variable {c : Fin 16}

/-! ### Reads -/

section
variable {s : State}

theorem clear_settleAll (h : ClearIfEmpty c s) : ClearIfEmpty c (settleAll s) := h.touches (by apply touches_settleAll <;> simp)

theorem clear_settleFor (a : Nat) (h : ClearIfEmpty c s) : ClearIfEmpty c (settleFor a s) := h.touches (by apply touches_settleFor <;> simp)

theorem clear_readStatLow (k : Nat) (h : ClearIfEmpty c s) : ClearIfEmpty c (readStatLow k s).2 :=
  h.touches (by apply touches_readStatLow <;> simp)

theorem clear_readPctLo (k reader : Nat) (h : ClearIfEmpty c s) : ClearIfEmpty c (readPctLo k reader s).2 :=
  h.touches (by apply touches_readPctLo; simp)

theorem clear_readSol (n k : Nat) (h : ClearIfEmpty c s) : ClearIfEmpty c (readSol n k s).2 := h.touches (by apply touches_readSol <;> simp)

/-- A read clears no field of a channel, whatever its address. -/
theorem clear_busRead (reader a : Nat) (h : ClearIfEmpty c s) : ClearIfEmpty c (busRead reader a s).2 := by
  have hs := clear_settleFor a h
  unfold busRead
  generalize settleFor a s = t at hs
  dsimp only
  split
  · exact clear_readStatLow _ hs
  · exact hs
  · exact clear_readPctLo _ _ hs
  · exact hs
  · split
    · exact clear_readSol _ _ hs
    · exact hs
  · have hm : ∀ p f, ClearIfEmpty c (if a = 0x8101188 then t.modPort p f else t) := fun p f => clear_ite (clear_modPort p f hs) hs
    split
    · next hr => exact clear_clearRc hr (hm _ _)
    · exact hm _ _

end

/-! ### Writes -/

/-- A register's own effect, where it has one, keeps a channel clear where it is EMPTY. -/
def ClearSome (c : Fin 16) (o : Option (State → State)) : Prop := ∀ f, o = some f → ∀ s, ClearIfEmpty c s → ClearIfEmpty c (f s)

theorem clearSome_of_touches {o : Option (State → State)} (h : TouchesSome offMbx o) : ClearSome c o :=
  fun f e s hs => hs.touches (h f e s s (touches_self _ _))

theorem clearSome_or {a b : Option (State → State)} (ha : ClearSome c a) (hb : ClearSome c b) : ClearSome c (a.or b) := by
  cases a with
  | none => exact hb
  | some f => exact ha

theorem clearSome_writeTsc (id a w : Nat) : ClearSome c (writeTsc id a w) := clearSome_of_touches (by apply touches_writeTsc <;> simp)

theorem clearSome_writeEns (id a w : Nat) : ClearSome c (writeEns id a w) := clearSome_of_touches (by apply touches_writeEns <;> simp)

theorem clearSome_writeGns (a w : Nat) : ClearSome c (writeGns a w) := clearSome_of_touches (by apply touches_writeGns <;> simp)

theorem clearSome_writeDie (a w : Nat) : ClearSome c (writeDie a w) := clearSome_of_touches (by apply touches_writeDie <;> simp)

/-- Beside PWR_RST_CTL, no register of the Keeper's blocks has an effect on the mailbox registers. -/
theorem touchesSome_writeKeeper {id a w : Nat} (ha : a ≠ 0x110040) : TouchesSome offMbx (writeKeeper id a w) := by
  unfold writeKeeper
  simp only [if_neg ha]
  with_reducible repeat' first
    | apply touchesSome_none
    | apply touchesSome_some
    | apply touchesSome_ite
    | apply touchesSome_map
    | assumption
    | intro _
    | apply touches_writeTimCtl
    | apply touches_writeMorCtl
    | apply touches_writePwrCtl
    | apply touches_writeTimChCfg
    | apply touches_writeChCtl
    | apply touches_writePlsCtl
    | apply touches_writeRfmCfg
    | apply touches_writeEfc
    | apply touches_writeHoursCmd
    | apply touches_writeLinkCfg
    | apply touches_writePctSel
    | apply touches_clearOvf
    | apply touches_writeRfmCtl
    | apply touches_writeGrpCfg
    | apply touches_ite
    | split
  all_goals simp

theorem clearSome_writeKeeper (id a w : Nat) : ClearSome c (writeKeeper id a w) := by
  by_cases ha : a = 0x110040
  · subst ha
    intro f e s h
    have hf : writeRstCtl id w = f := Option.some.inj e
    exact hf ▸ clear_writeRstCtl id w h
  · exact clearSome_of_touches (touchesSome_writeKeeper ha)

section
variable {s : State}

/-- A write with the effect of a PF1 write, anywhere but in a channel's own block. -/
theorem clear_busWrite {a : Nat} (ha : inBlock a 0x100000 0x80 16 0x4C = none) (id w : Nat) (h : ClearIfEmpty c s) :
    ClearIfEmpty c (busWrite id a w s) := by
  have hs := clear_settleFor a h
  unfold busWrite
  generalize settleFor a s = t at hs
  dsimp only
  split
  · next f hf =>
    exact clearSome_or (clearSome_writeTsc id a w) (clearSome_or (clearSome_writeEns id a w) (clearSome_or (clearSome_writeGns a w)
      (clearSome_or (clearSome_writeKeeper id a w) (clearSome_writeDie a w)))) f hf t hs
  · split
    · next e r he hr =>
      split
      · exact clear_enableEvt (enOff_evtAt he) hs
      · exact hs
    · next hr => exact clear_storeReg (regAt_off hr ha) hs
    · exact hs

/-! ### Ring pages and the BARs -/

theorem clear_readPage (fn a : Nat) (h : ClearIfEmpty c s) : ClearIfEmpty c (readPage fn a s) :=
  clear_ite (clear_ite (clear_unsupported h) (clear_emit h)) (clear_ite (clear_unsupported h) (clear_emit (clear_busRead fn a h)))

theorem clear_writeRingBase {r : Nat → Register} (q w : Nat) (hr : ∀ q, ∀ f ∈ (r q).fields, Block.ring.has f.key = true)
    (h : ClearIfEmpty c s) : ClearIfEmpty c (writeRingBase r q w s) :=
  h.touches (touches_writeRingBase r q w s hr (by simp) (touches_self _ _))

theorem clear_writeRingItr (q w : Nat) (h : ClearIfEmpty c s) : ClearIfEmpty c (writeRingItr q w s) :=
  h.touches (by apply touches_writeRingItr <;> simp)

theorem clear_writeRingThr (q w : Nat) (h : ClearIfEmpty c s) : ClearIfEmpty c (writeRingThr q w s) :=
  h.touches (by apply touches_writeRingThr <;> simp)

theorem clear_writeRingCfg (fn q w : Nat) (h : ClearIfEmpty c s) : ClearIfEmpty c (writeRingCfg fn q w s) :=
  h.touches (by apply touches_writeRingCfg <;> simp)

theorem clear_doorbell (fn q w : Nat) (ds : List (List Nat)) (h : ClearIfEmpty c s) : ClearIfEmpty c (doorbell fn q w ds s) :=
  h.touches (by apply touches_doorbell <;> simp)

theorem clear_unmasked (fn vec : Nat) (h : ClearIfEmpty c s) : ClearIfEmpty c (s.unmasked fn vec) := h.touches (by apply touches_State_unmasked; simp)

theorem clear_writeOwnPage {a : Nat} (ha : 0x8000000 ≤ a) (q w : Nat) (h : ClearIfEmpty c s) : ClearIfEmpty c (writeOwnPage q a w s) :=
  clear_ite (clear_writeRingBase q w has_Reg_HRG_RING_BASE_LO h) (clear_ite (clear_writeRingBase q w has_Reg_HRG_RING_BASE_HI h)
    (clear_ite (clear_writeRingItr q w h) (clear_ite (clear_writeRingThr q w h) (clear_ite
      (clear_unmasked _ _ (clear_wr (not_onChannel_of_has (has_R_MSIX_CTRL_MASK _) (by decide)) h))
      (clear_busWrite (inBlock_of_outside (by omega)) 2 w h)))))

theorem clear_writePage {a : Nat} (ha : 0x8000000 ≤ a) (fn w : Nat) (h : ClearIfEmpty c s) : ClearIfEmpty c (writePage fn a w s) := by
  have hs := clear_settleEnded h
  exact clear_ite (clear_ite (clear_unsupported hs) hs) (clear_ite (clear_unsupported hs) (clear_ite (clear_writeRingCfg _ _ _ hs)
    (clear_ite (clear_doorbell _ _ _ _ hs) (clear_ite (clear_writeOwnPage ha _ w hs) hs))))

theorem clear_hostMbx (fn ch o : Nat) (w : Option Nat) (h : ClearIfEmpty c s) : ClearIfEmpty c (hostMbx fn ch o w s) :=
  clear_mbxAccess ch _ _ w h

theorem clear_hostRead (fn a : Nat) (h : ClearIfEmpty c s) : ClearIfEmpty c (hostRead fn a s) := by
  unfold hostRead
  split
  · exact clear_readPage fn a h
  · refine clear_ite (clear_unsupported h) (clear_ite (clear_emit (clear_emit h)) ?_)
    split
    · exact clear_ite (clear_hostMbx _ _ _ _ h) (clear_emit h)
    · exact clear_emit (clear_busRead fn a h)

theorem clear_hostWrite (fn a w : Nat) (h : ClearIfEmpty c s) : ClearIfEmpty c (hostWrite fn a w s) := by
  unfold hostWrite
  split
  · next hpage => exact clear_writePage hpage fn w h
  · refine clear_ite (clear_unsupported h) (clear_ite (clear_emit h) ?_)
    split
    · exact clear_ite (clear_hostMbx _ _ _ _ h) h
    · next ha => exact clear_ite (clear_ite (clear_unsupported h) h) (clear_busWrite ha 2 w h)

/-! ### The boot of the Keeper (R450, R452, R457) -/

theorem clear_dieUp (n : Nat) (h : ClearIfEmpty c s) : ClearIfEmpty c (dieUp n s) := h.touches (by apply touches_dieUp <;> simp)

theorem clear_set_rst_fw {x : Rst} {y : Fw} (h : ClearIfEmpty c s) : ClearIfEmpty c { s with rst := x, fw := y } := h.of_regs rfl

theorem clear_firmwareRun (h : ClearIfEmpty c s) : ClearIfEmpty c (firmwareRun s) :=
  clear_ite (clear_agentRun (clear_set_rst_fw (clear_wr (not_onChannel_of_has has_R_GNS_STAT_RUN (by decide))
    (clear_foldl (clear_wr (not_onChannel_of_has has_R_DEV_DIE_STAT_KFW_RUN (by decide)) h) fun _ n _ h => clear_dieUp n h)))) h

/-- The ranges of the opcode blocks hold no channel (R431). -/
theorem outside_of_inRanges {b a : Nat} (h : inRanges b a = true) : a < 0x100000 ∨ 0x100800 ≤ a := by
  have hr : ∀ b, ∀ r ∈ blockRanges b, r.2 ≤ 0x100000 ∨ 0x100800 ≤ r.1 := by
    intro b
    unfold blockRanges
    split <;> decide
  obtain ⟨r, hm, hw⟩ := List.any_eq_true.1 h
  have hab := hr b r hm
  simp only [within, Bool.and_eq_true, decide_eq_true_eq] at hw
  omega

theorem outside_of_not_pairForbidden {a : Nat} (h : pairForbidden a = false) : a < 0x100000 ∨ 0x100800 ≤ a := by
  simp only [pairForbidden, Bool.or_eq_false_iff, Bool.not_eq_false', List.any_eq_true] at h
  obtain ⟨⟨⟨-, b, -, hb⟩, -⟩, -⟩ := h
  exact outside_of_inRanges hb

theorem clear_applyPair {p : Nat × Nat} (hp : ¬s.skipsPair p.1 = true) (rws : Bool) (h : ClearIfEmpty c s) :
    ClearIfEmpty c (applyPair rws p s) := by
  have hf : pairForbidden p.1 = false := by
    simp only [State.skipsPair, Bool.or_eq_true, not_or, Bool.not_eq_true] at hp
    exact hp.1
  exact clear_busWrite (inBlock_of_outside (outside_of_not_pairForbidden hf)) _ _ h

theorem clear_bootPair (rws : Bool) (p : Nat × Nat) (h : ClearIfEmpty c s) : ClearIfEmpty c (bootPair rws s p) := by
  unfold bootPair
  split
  · have hw := clear_wr_pwr has_R_CFG_APPLY_SKIPPED (v := satNat 16 (s.rd R.CFG_APPLY_SKIPPED + 1)) h
    exact clear_ite (clear_raise _ has_Evt_cfg (by decide) hw) hw
  · next hp => exact clear_wr_pwr has_R_CFG_APPLY_PAIRS (clear_applyPair hp rws h)

theorem clear_imageApply (h : ClearIfEmpty c s) : ClearIfEmpty c (imageApply s) := by
  have h0 := clear_wr_pwr (v := 0) has_R_CFG_APPLY_SKIPPED (clear_wr_pwr (v := 0) has_R_CFG_APPLY_PAIRS h)
  refine clear_ite (clear_set_rst ?_) h
  split
  · next i _ =>
    have hp := clear_foldl (l := i.pairs) h0 fun _ p _ h => clear_bootPair s.keepsRws p h
    exact clear_ite hp (clear_wr_pwr has_R_CFG_STAT_LOCKED hp)
  · exact h0

theorem clear_dieBack (n : Nat) (h : ClearIfEmpty c s) : ClearIfEmpty c (dieBack n s) := by
  have hu := clear_ite (p := bit (s.rd R.PWR_DIE_SLEEP_ASLEEP) n = true) h (clear_dieUp n h)
  refine clear_ite (clear_foldl hu fun s p _ h => ?_) hu
  split
  · exact h
  · next hp => exact clear_applyPair hp true h

theorem clear_loadCause (k : ResetKind) (sender : Nat) (h : ClearIfEmpty c s) : ClearIfEmpty c (loadCause k sender s) :=
  h.touches (by apply touches_loadCause <;> simp)

theorem clear_resetComplete (h : ClearIfEmpty c s) : ClearIfEmpty c (resetComplete s) := by
  unfold resetComplete
  split
  · exact h
  · exact clear_dieBack _ (clear_set_rst h)
  · exact clear_ite (clear_loadCause _ _ (clear_set_rst h)) h

end

end Sys2Proof.Machine
end

section
/-! PROOFS. What the firmware's commands (R420-R437) and relayed frames (R386, R410) keep of a channel: a reply reaches it through DONE, and
no command writes a register of its block. -/

namespace Sys2Proof.Machine

variable {c : Fin 16}

section
variable {s : State}

/-! ### Replies (R423) -/

theorem clear_finishDesc (q idx : Nat) (f : RingDesc → RingDesc) (h : ClearIfEmpty c s) : ClearIfEmpty c (finishDesc q idx f s) :=
  h.touches (by apply touches_finishDesc <;> simp)

/-- The firmware writes its reply into a FULL channel alone, and ends it with DONE. -/
theorem clear_writeReply (d : Cmd) (status detail : Nat) (params : List Nat) (h : ClearIfEmpty c s) :
    ClearIfEmpty c (writeReply d status detail params s) := by
  unfold writeReply
  extract_lets r
  split
  · next ch _ =>
    split
    · next hfull =>
      refine clear_writeMbxCtl ch _ 2 (h.of_used (fun hc => same_putWords hc (SameChannel.refl s)) ?_)
      rw [mbxState_putWords]
      exact ne_of_eq_of_ne hfull (by decide)
    · exact h
  · refine clear_ite ?_ h
    exact clear_finishDesc _ _ _ (clear_ite h (clear_emit h))
  · exact clear_sendRelay _ _ h
  · exact h

theorem clear_answer (d : Cmd) (status detail : Nat) (params : List Nat) (h : ClearIfEmpty c s) :
    ClearIfEmpty c (answer d status detail params s) := clear_writeReply d _ _ _ (clear_set_fw h)

theorem clear_hold (d : Cmd) (deferred : Bool) (h : ClearIfEmpty c s) : ClearIfEmpty c (hold d deferred s) := clear_set_fw h

/-! ### Checks (R425) -/

theorem firstFault_none {l : List (Nat × Bool)} (h : firstFault l = none) : ∀ e ∈ l, e.2 = false := by
  induction l with
  | nil => exact List.forall_mem_nil _
  | cons e l ih =>
    obtain ⟨k, bad⟩ := e
    cases bad with
    | true => cases h
    | false => exact List.forall_mem_cons.2 ⟨rfl, ih h⟩

/-- A command acts where its fields have no fault. -/
theorem clear_checked {d : Cmd} {lenOk : Bool} {fields : List (Nat × Bool)} {absent : Bool} {act : State → State} (h : ClearIfEmpty c s)
    (ha : firstFault fields = none → ClearIfEmpty c (act s)) : ClearIfEmpty c (checked d lenOk fields absent act s) := by
  refine clear_ite (clear_answer _ _ _ _ h) ?_
  split
  · exact clear_answer _ _ _ _ h
  · next hf =>
    refine clear_ite (clear_answer _ _ _ _ h) ?_
    split
    · exact clear_answer _ _ _ _ h
    · exact ha hf

theorem clear_keyChecked {d : Cmd} {n : Nat} {fields : List (Nat × Bool)} {act : State → State} (h : ClearIfEmpty c s)
    (ha : ClearIfEmpty c (act s)) : ClearIfEmpty c (keyChecked d n fields act s) := by
  refine clear_ite (clear_answer _ _ _ _ h) ?_
  split
  · exact clear_answer _ _ _ _ h
  · split
    · exact clear_answer _ _ _ _ h
    · exact ha

theorem clear_onCurrent {is : Nat → Bool} {f : Cmd → State → State} (h : ClearIfEmpty c s) (hf : ∀ d, ClearIfEmpty c (f d s)) :
    ClearIfEmpty c (onCurrent is f s) := by
  unfold onCurrent
  split
  · exact clear_ite (hf _) h
  · exact h

/-! ### Taking, deferring and ending commands (R414, R427, R428) -/

theorem clear_crossFor (d : Cmd) (h : ClearIfEmpty c s) : ClearIfEmpty c (crossFor d s) := h.touches (by apply touches_crossFor <;> simp)

theorem clear_firmwareTake (h : ClearIfEmpty c s) : ClearIfEmpty c (firmwareTake s) := by
  refine clear_ite ?_ h
  split
  · exact h
  · next q rest _ =>
    have h0 : ClearIfEmpty c { s with fw := { s.fw with queue := rest, cycleAt := s.clk } } := clear_set_fw h
    have h1 := clear_count 0x022 0 1 (clear_crossFor q h0)
    refine clear_ite ?_ h0
    extract_lets d t
    split
    · exact clear_answer _ _ _ _ h1
    · exact clear_set_fw h1

theorem clear_keepDeferred (d : Cmd) (detail : Nat) (h : ClearIfEmpty c s) : ClearIfEmpty c (keepDeferred d detail s) := clear_set_fw h

theorem clear_startDeferred (d : Cmd) (bound : Nat) (h : ClearIfEmpty c s) : ClearIfEmpty c (startDeferred d bound s) :=
  clear_writeReply _ _ _ _ (clear_keepDeferred _ _ (clear_hold _ _ h))

theorem clear_endDeferred (d : Cmd) (e : Ending) (h : ClearIfEmpty c s) : ClearIfEmpty c (endDeferred d e s) := clear_set_fw h

theorem clear_removeWhenFree (r : Running) (h : ClearIfEmpty c s) : ClearIfEmpty c (removeWhenFree r s) :=
  h.touches (by apply touches_removeWhenFree <;> simp)

theorem clear_settleCmd (r : Running) (h : ClearIfEmpty c s) : ClearIfEmpty c (settleCmd r s) := h.touches (by apply touches_settleCmd <;> simp)

theorem clear_dropRunning (id : Nat) (h : ClearIfEmpty c s) : ClearIfEmpty c (dropRunning id s) := clear_set_fw h

theorem clear_concludeRunning (id : Nat) (h : ClearIfEmpty c s) : ClearIfEmpty c (concludeRunning id s) := by
  unfold concludeRunning
  split
  · exact h
  · split
    · exact h
    · have hd := clear_dropRunning id h
      exact clear_ite hd (clear_ite (clear_endDeferred _ _ hd) (clear_writeReply _ _ _ _ hd))

theorem clear_commandComplete (id : Nat) (h : ClearIfEmpty c s) : ClearIfEmpty c (commandComplete id s) := by
  unfold commandComplete
  split
  · exact h
  · exact clear_concludeRunning id (clear_settleCmd _ h)

theorem clear_commandTimeout (id : Nat) (h : ClearIfEmpty c s) : ClearIfEmpty c (commandTimeout id s) := by
  unfold commandTimeout
  split
  · exact h
  · next r _ =>
    refine clear_ite h ?_
    have ht := clear_settleCmd r (clear_waitClk (r.since + ms16 100) h)
    generalize settleCmd r (s.waitClk (r.since + ms16 100)) = t at ht
    dsimp only
    split
    · exact clear_concludeRunning id ht
    · exact clear_writeReply _ _ _ _ (clear_ite (clear_set_fw ht) (clear_dropRunning id ht))

/-! ### Relayed frames (R386, R410) -/

theorem clear_modStack (f : Stack → Stack) (h : ClearIfEmpty c s) : ClearIfEmpty c (s.modStack f) :=
  h.touches (by apply touches_State_modStack <;> simp)

theorem clear_relayReply (src : Nat) (pkt : List Nat) (h : ClearIfEmpty c s) : ClearIfEmpty c (relayReply src pkt s) :=
  h.touches (by apply touches_relayReply <;> simp)

theorem clear_relayArrives (src : Nat) (pkt : List Nat) (h : ClearIfEmpty c s) : ClearIfEmpty c (relayArrives src pkt s) :=
  clear_ite (clear_relayReply src pkt h) (clear_ite h (clear_agentRun (clear_modStack _ h)))

theorem clear_mooringFrameErr (l : Nat) (h : ClearIfEmpty c s) : ClearIfEmpty c (mooringFrameErr l s) :=
  h.touches (by apply touches_mooringFrameErr <;> simp)

theorem clear_relayFrameRx (l : Nat) (f : List Nat) (h : ClearIfEmpty c s) : ClearIfEmpty c (relayFrameRx l f s) := by
  have hp := clear_wr (v := morSrc f) (not_onChannel_of_has (has_R_MOR_LINK_STAT_PEER l) (by decide)) h
  exact clear_ite h (clear_ite (clear_mooringFrameErr l h) (clear_ite (clear_relayArrives _ _ hp)
    (clear_ite (clear_raise _ has_Evt_mor (by decide) hp) (clear_ite (clear_emit hp) hp))))

/-! ### Register access by command (R432, R433) -/

theorem clear_readAll (as acc : List Nat) (h : ClearIfEmpty c s) : ClearIfEmpty c (readAll as acc s).2 := by
  induction as generalizing acc s with
  | nil => exact h
  | cons a as ih => exact ih _ (clear_busRead 1 a h)

theorem clear_regRead (d : Cmd) (h : ClearIfEmpty c s) : ClearIfEmpty c (regRead d s) :=
  clear_checked h fun _ => clear_ite (clear_answer _ _ _ _ (clear_readAll _ _ h))
    (clear_answer _ _ _ _ (clear_foldl h fun _ a _ h => clear_settleFor a h))

/-- The pairs a command has checked name no channel's register. -/
theorem clear_writePairs (sender : Nat) (ps : List (Nat × Nat)) (hp : ∀ p ∈ ps, p.1 < 0x100000 ∨ 0x100800 ≤ p.1) (h : ClearIfEmpty c s) :
    ClearIfEmpty c (writePairs sender ps s) := by
  induction ps generalizing s with
  | nil => exact h
  | cons p ps ih =>
    obtain ⟨hp0, hps⟩ := List.forall_mem_cons.1 hp
    exact clear_ite h (ih hps (clear_busWrite (inBlock_of_outside hp0) _ _ h))

theorem clear_regWrite (d : Cmd) (h : ClearIfEmpty c s) : ClearIfEmpty c (regWrite d s) := by
  refine clear_checked h fun hf => clear_ite (clear_answer _ _ _ _ h) ?_
  have hp : ∀ p ∈ d.pairs, p.1 < 0x100000 ∨ 0x100800 ≤ p.1 := by
    intro p hm
    obtain ⟨i, hi⟩ := List.mem_iff_getElem?.1 hm
    have hbad := firstFault_none hf _ (List.mem_map_of_mem (List.mk_mem_zipIdx_iff_getElem?.2 hi))
    simp only [Bool.or_eq_false_iff, Bool.not_eq_false'] at hbad
    exact outside_of_inRanges hbad.2
  have hw := clear_writePairs d.sender d.pairs hp h
  exact clear_ite hw (clear_answer _ _ _ _ hw)

/-! ### The opcodes (R434-R437, R289, R386, R396, R458) -/

theorem clear_nopCmd (d : Cmd) (h : ClearIfEmpty c s) : ClearIfEmpty c (nopCmd d s) := by
  unfold nopCmd
  exact clear_checked h fun _ => clear_answer _ _ _ _ h

theorem clear_ident (d : Cmd) (h : ClearIfEmpty c s) : ClearIfEmpty c (ident d s) := by
  unfold ident
  exact clear_checked h fun _ => clear_answer _ _ _ _ h

theorem clear_result (d : Cmd) (h : ClearIfEmpty c s) : ClearIfEmpty c (result d s) := by
  unfold result
  refine clear_checked h fun _ => ?_
  split
  · exact clear_answer _ _ _ _ h
  · exact h

theorem clear_cfgStage (d : Cmd) (h : ClearIfEmpty c s) : ClearIfEmpty c (cfgStage d s) := by
  unfold cfgStage
  exact clear_checked h fun _ => clear_answer _ _ _ _ (clear_set_cfg h)

theorem clear_beginCommit (d : Cmd) (h : ClearIfEmpty c s) : ClearIfEmpty c (beginCommit d s) :=
  clear_startDeferred d 10 (clear_set_cfg (clear_wr_pwr has_R_CFG_STAT_OTHER_VALID (clear_wr_pwr has_R_CFG_STAT_STEP
    (clear_wr_pwr has_R_CFG_STAT_COMMIT_BUSY h))))

theorem clear_cfgCommit (d : Cmd) (h : ClearIfEmpty c s) : ClearIfEmpty c (cfgCommit d s) := by
  unfold cfgCommit
  exact clear_checked h fun _ => clear_ite (clear_answer _ _ _ _ h)
    (clear_ite (clear_answer _ _ _ _ (clear_wr_pwr has_R_CFG_STAT_ERR h)) (clear_beginCommit d h))

theorem clear_cfgRead (d : Cmd) (h : ClearIfEmpty c s) : ClearIfEmpty c (cfgRead d s) := by
  unfold cfgRead
  exact clear_checked h fun _ => clear_answer _ _ _ _ h

theorem clear_timeGet (d : Cmd) (h : ClearIfEmpty c s) : ClearIfEmpty c (timeGet d s) := by
  unfold timeGet
  exact clear_checked h fun _ => clear_answer _ _ _ _ h

/-- A write below the channels' blocks. -/
theorem clear_busWrite_below {a : Nat} (ha : a < 0x100000) (id w : Nat) (h : ClearIfEmpty c s) : ClearIfEmpty c (busWrite id a w s) :=
  clear_busWrite (inBlock_of_outside (.inl ha)) id w h

theorem clear_stepCmd (d : Cmd) (h : ClearIfEmpty c s) : ClearIfEmpty c (stepCmd d s) := by
  unfold stepCmd
  refine clear_checked h fun _ => clear_settleCmd _ (clear_hold _ _ (clear_busWrite_below ?_ _ _ (clear_busWrite_below ?_ _ _
    (clear_busWrite_below ?_ _ _ (clear_busWrite_below ?_ _ _ (clear_busWrite_below ?_ _ _ h))))))
  · simp only [Reg.TSC_STEP_CTL]; omega
  · simp only [Reg.TSC_STEP_SEC_HI]; omega
  · simp only [Reg.TSC_STEP_SEC_LO]; omega
  · simp only [Reg.TSC_STEP_NS]; omega
  · simp only [Reg.TSC_STEP_FRAC]; omega

theorem clear_solGet (d : Cmd) (h : ClearIfEmpty c s) : ClearIfEmpty c (solGet d s) := by
  unfold solGet
  exact clear_checked h fun _ => clear_answer _ _ _ _ h

theorem clear_navGet (d : Cmd) (h : ClearIfEmpty c s) : ClearIfEmpty c (navGet d s) := by
  unfold navGet
  exact clear_checked h fun _ => clear_answer _ _ _ _ h

theorem clear_timRecords (d : Cmd) (h : ClearIfEmpty c s) : ClearIfEmpty c (timRecords d s) := by
  unfold timRecords
  exact clear_checked h fun _ => clear_answer _ _ _ _ (clear_wr (not_onChannel_of_has (has_R_TIM_GRP_RD_RD _) (by decide)) h)

theorem clear_svcSet (d : Cmd) (h : ClearIfEmpty c s) : ClearIfEmpty c (svcSet d s) := by
  have hd : ∀ k : Nat, inBlock ((Reg.MAC_SVC_DATA0 (d.b 0)).addr + 4 * k) 0x100000 0x80 16 0x4C = none :=
    fun k => inBlock_of_outside (.inr (by simp only [Reg.MAC_SVC_DATA0]; omega))
  have hcmd : inBlock (Reg.MAC_SVC_CMD (d.b 0)).addr 0x100000 0x80 16 0x4C = none :=
    inBlock_of_outside (.inr (by simp only [Reg.MAC_SVC_CMD]; omega))
  unfold svcSet
  exact clear_checked h fun _ => clear_endRunning _ _ _ _ (clear_hold _ _ (clear_busWrite hcmd _ _
    (clear_foldl h fun _ k _ h => clear_busWrite (hd k) _ _ h)))

theorem clear_svcGet (d : Cmd) (h : ClearIfEmpty c s) : ClearIfEmpty c (svcGet d s) := by
  unfold svcGet
  exact clear_checked h fun _ => clear_answer _ _ _ _ h

theorem clear_startKeyChange (d : Cmd) (k : KeyChange) (h : ClearIfEmpty c s) : ClearIfEmpty c (startKeyChange d k s) :=
  h.touches (by apply touches_startKeyChange <;> simp)

theorem clear_keyNoChange (d : Cmd) (h : ClearIfEmpty c s) : ClearIfEmpty c (keyNoChange d s) :=
  h.touches (by apply touches_keyNoChange <;> simp)

theorem clear_keyLoad (d : Cmd) (h : ClearIfEmpty c s) : ClearIfEmpty c (keyLoad d s) := by
  unfold keyLoad
  exact clear_keyChecked h (clear_startKeyChange _ _ h)

theorem clear_keyPromote (d : Cmd) (h : ClearIfEmpty c s) : ClearIfEmpty c (keyPromote d s) := by
  unfold keyPromote
  exact clear_keyChecked h (clear_ite (clear_keyNoChange _ h) (clear_startKeyChange _ _ h))

theorem clear_keyRetire (d : Cmd) (h : ClearIfEmpty c s) : ClearIfEmpty c (keyRetire d s) := by
  unfold keyRetire
  exact clear_keyChecked h (clear_ite (clear_answer _ _ _ _ h) (clear_startKeyChange _ _ h))

theorem clear_keyStatus (d : Cmd) (h : ClearIfEmpty c s) : ClearIfEmpty c (keyStatus d s) := by
  unfold keyStatus
  exact clear_keyChecked h (clear_keyNoChange _ h)

theorem clear_cstLookup (d : Cmd) (h : ClearIfEmpty c s) : ClearIfEmpty c (cstLookup d s) := by
  unfold cstLookup
  refine clear_checked h fun _ => ?_
  split
  · exact clear_answer _ _ _ _ h
  · exact h

theorem clear_cstRemove (d : Cmd) (h : ClearIfEmpty c s) : ClearIfEmpty c (cstRemove d s) := by
  unfold cstRemove
  exact clear_checked h fun _ => clear_removeWhenFree _ (clear_hold _ _ h)

theorem clear_cstDump (d : Cmd) (h : ClearIfEmpty c s) : ClearIfEmpty c (cstDump d s) := by
  unfold cstDump
  exact clear_checked h fun _ => clear_answer _ _ _ _ h

theorem clear_grantRead (d : Cmd) (h : ClearIfEmpty c s) : ClearIfEmpty c (grantRead d s) := by
  unfold grantRead
  exact clear_checked h fun _ => clear_answer _ _ _ _ h

theorem clear_relayCmd (d : Cmd) (h : ClearIfEmpty c s) : ClearIfEmpty c (relayCmd d s) := by
  unfold relayCmd
  exact clear_checked h fun _ => clear_hold _ _ (clear_sendRelay _ _ h)

theorem clear_sendTnd (dst type : Nat) (payload : List Nat) (h : ClearIfEmpty c s) : ClearIfEmpty c (sendTnd dst type payload s) :=
  h.touches (by apply touches_sendTnd <;> simp)

theorem clear_handoverCmd (d : Cmd) (h : ClearIfEmpty c s) : ClearIfEmpty c (handoverCmd d s) := by
  unfold handoverCmd
  exact clear_checked h fun _ => clear_ite (clear_answer _ _ _ _ (clear_modStack _ (clear_sendTnd _ _ _ h))) (clear_answer _ _ _ _ h)

theorem clear_resetCommand (d : Cmd) (h : ClearIfEmpty c s) : ClearIfEmpty c (resetCommand d s) := by
  unfold resetCommand
  refine clear_checked h fun _ => ?_
  have ha := clear_answer d 0 0 [] h
  generalize answer d 0 0 [] s = t at ha
  exact clear_set_rst ha

theorem clear_advanceRun (n : Nat) (h : ClearIfEmpty c s) : ClearIfEmpty c (advanceRun n s) := h.touches (by apply touches_advanceRun <;> simp)

theorem clear_startRun (mask : Nat) (scheduled force : Bool) (cmd : Option Nat) (sender : Nat) (h : ClearIfEmpty c s) :
    ClearIfEmpty c (startRun mask scheduled force cmd sender s) := h.touches (by apply touches_startRun <;> simp)

theorem clear_watchRun (d : Cmd) (h : ClearIfEmpty c s) : ClearIfEmpty c (watchRun d s) := by
  unfold watchRun
  exact clear_checked h fun _ => clear_ite (clear_answer _ _ _ _ h) (clear_ite (clear_answer _ _ _ _ h)
    (clear_advanceRun _ (clear_startRun _ _ _ _ _ (clear_startDeferred _ _ h))))

theorem clear_logRead (d : Cmd) (h : ClearIfEmpty c s) : ClearIfEmpty c (logRead d s) := by
  unfold logRead
  exact clear_checked h fun _ => clear_answer _ _ _ _ h

theorem clear_hoursCmd (d : Cmd) (h : ClearIfEmpty c s) : ClearIfEmpty c (hoursCmd d s) := by
  have hset : (Reg.RFM_HOURS_SET (d.b 0)).addr < 0x100000 := by simp only [Reg.RFM_HOURS_SET]; omega
  have hcmd : (Reg.RFM_HOURS_CMD (d.b 0)).addr < 0x100000 := by simp only [Reg.RFM_HOURS_CMD]; omega
  have hw := clear_busWrite_below hcmd d.sender 7 (clear_busWrite_below hset d.sender (d.num 4 4) h)
  unfold hoursCmd
  exact clear_checked h fun _ => clear_ite (clear_answer _ _ _ _ hw) (clear_hold _ _ hw)

end

end Sys2Proof.Machine
end

section
/-! PROOFS. Single commands as rows of the table: what a row keeps of a channel follows from what its operation keeps. -/

namespace Sys2Proof.Machine

variable {c : Fin 16}

/-! ### From an operation to its row -/

/-- The frame of a command (its cycle and the counters of edges) leaves every channel. -/
theorem same_go {f : State → State} {s t : State} (e : go f s = .next t) : SameChannel c (f s.begin) t := by
  obtain ⟨u, hu, hrd, -⟩ := go_spec f s
  have ht : u = t := by
    rw [hu] at e
    exact Host.Outcome.next.inj e
  subst ht
  exact fun g hg => hrd g (side_of_onChannel hg)

theorem clear_begin {s : State} (h : ClearIfEmpty c s) : ClearIfEmpty c s.begin := h.of_regs rfl

theorem clear_go {f : State → State} {s t : State} (e : go f s = .next t) (hf : ∀ s, ClearIfEmpty c s → ClearIfEmpty c (f s))
    (h : ClearIfEmpty c s) : ClearIfEmpty c t := (hf _ (clear_begin h)).of_same (same_go e)

/-- A row whose operation touches no mailbox register. -/
theorem clear_go_off {f : State → State} {s t : State} (e : go f s = .next t) (hf : ∀ s, Touches offMbx s (f s)) (h : ClearIfEmpty c s) :
    ClearIfEmpty c t := clear_go e (fun s h => h.touches (hf s)) h

/-- A row of a command packet's opcode acts on the command begun. -/
theorem clear_go_current {is : Nat → Bool} {f : Cmd → State → State} {s t : State} (e : go (onCurrent is f) s = .next t)
    (hf : ∀ d s, ClearIfEmpty c s → ClearIfEmpty c (f d s)) (h : ClearIfEmpty c s) : ClearIfEmpty c t :=
  clear_go e (fun s h => clear_onCurrent h fun d => hf d s h) h

/-- An access by a function, where the BARs hold its offset. -/
theorem clear_hostAccess {fn a : Nat} {w : Option Nat} {s t : State} (e : hostAccess fn a w s = .next t) (h : ClearIfEmpty c s) :
    ClearIfEmpty c t := by
  unfold hostAccess at e
  split at e
  · cases e
  · cases w with
    | some v => exact clear_go e (fun _ h => clear_hostWrite fn a v h) h
    | none => exact clear_go e (fun _ h => clear_hostRead fn a h) h

theorem clear_execRcRead {fn : Fin 2} {a : Nat} {s t : State} (e : execRcRead fn a s = .next t) (h : ClearIfEmpty c s) :
    ClearIfEmpty c t := clear_hostAccess (w := none) e h

theorem clear_execRegisterWrite {fn : Fin 2} {a : Nat} {w : Word} {s t : State} (e : execRegisterWrite fn a w s = .next t)
    (h : ClearIfEmpty c s) : ClearIfEmpty c t := clear_hostAccess (w := some w.toNat) e h

section
variable {s : State}

/-- An access of a Beacon die's window. -/
theorem clear_windowWrite {d : Nat} {r : Register} {f : State → State} (hf : ClearIfEmpty c (f s)) (h : ClearIfEmpty c s) :
    ClearIfEmpty c (windowWrite d r f s) := clear_ite hf (h.touches (by apply touches_refuseAccess; simp))

/-- A frame of the tender. -/
theorem clear_takeTnd {f : TndFrame} {act : Nat → List Nat → State → State} (ha : ∀ n p s, Touches offMbx s (act n p s))
    (h : ClearIfEmpty c s) : ClearIfEmpty c (takeTnd f act s) := by
  have hb : ClearIfEmpty c (tenderBusy 0 s) := h.touches (by apply touches_tenderBusy <;> simp)
  have hr : ClearIfEmpty c (bumpReg R.TND_ERR_RX_OK (tenderBusy 0 s)) := clear_bumpReg (not_onChannel_of_outside (by decide)) hb
  exact clear_ite (hr.touches (ha _ _ _)) hb

/-! ### Waits and settled ports before an operation -/

@[simp] theorem touches_waitClk_off (x : Nat) (s : State) : Touches offMbx s (s.waitClk x) := by apply touches_State_waitClk <;> simp

@[simp] theorem touches_settleEnded_off (s : State) : Touches offMbx s (settleEnded s) := by apply touches_settleEnded <;> simp

@[simp] theorem touches_settleAll_off (s : State) : Touches offMbx s (settleAll s) := by apply touches_settleAll <;> simp

end

/-! ### Rows that act in one state of their subject alone

The table's proof names these rows' own definitions: their operations are written out in them. -/

section
variable {s t : State} {i : Fin 16}

theorem clear_execSlotLoss (e : execSlotLoss i s = .next t) (h : ClearIfEmpty c s) : ClearIfEmpty c t := by
  refine clear_go_off e (fun s => ?_) h
  split
  · exact touches_self _ _
  · apply touches_slotLoss <;> simp

theorem clear_execSlotQualify (e : execSlotQualify i s = .next t) (h : ClearIfEmpty c s) : ClearIfEmpty c t := by
  refine clear_go_off e (fun s => ?_) h
  split
  · apply touches_slotQualify <;> simp
  · exact touches_self _ _

theorem clear_execSlotConsistent (e : execSlotConsistent i s = .next t) (h : ClearIfEmpty c s) : ClearIfEmpty c t := by
  refine clear_go_off e (fun s => ?_) h
  split
  · apply touches_slotConsistent <;> simp
  · exact touches_self _ _

theorem clear_execCarryExpire (e : execCarryExpire i s = .next t) (h : ClearIfEmpty c s) : ClearIfEmpty c t := by
  refine clear_go_off e (fun s => ?_) h
  split
  · apply touches_carryExpire <;> simp
  · exact touches_self _ _

theorem clear_execReestComplete (e : execReestComplete i s = .next t) (h : ClearIfEmpty c s) : ClearIfEmpty c t := by
  refine clear_go_off e (fun s => ?_) h
  split
  · apply touches_reestComplete <;> simp
  · exact touches_self _ _

end

/-! ### Rows that bring ports and counters up to date first -/

section
variable {s t : State}

theorem clear_execDoorbell {fn : Fin 2} {q : Fin 258} {w : Word} {descs : List (List Byte)} (e : execDoorbell fn q w descs s = .next t)
    (h : ClearIfEmpty c s) : ClearIfEmpty c t := clear_go e (fun _ h => clear_doorbell _ _ _ _ (clear_settleEnded h)) h

theorem clear_execTxDescFetch {r : Fin 128} {data : List Byte} (e : execTxDescFetch r data s = .next t) (h : ClearIfEmpty c s) :
    ClearIfEmpty c t := clear_go_off e (fun _ => by apply touches_txDescFetch <;> simp) h

theorem clear_execRingEnable {fn : Fin 2} {q : Fin 258} {w : Word} (e : execRingEnable fn q w s = .next t) (h : ClearIfEmpty c s) :
    ClearIfEmpty c t := clear_go e (fun _ h => clear_writeRingCfg _ _ _ (clear_settleEnded h)) h

theorem clear_execRingDisable {fn : Fin 2} {q : Fin 258} {w : Word} (e : execRingDisable fn q w s = .next t) (h : ClearIfEmpty c s) :
    ClearIfEmpty c t := clear_go e (fun _ h => clear_writeRingCfg _ _ _ (clear_settleEnded h)) h

theorem clear_execRingOwner {q : Fin 256} {w : Word} (e : execRingOwner q w s = .next t) (h : ClearIfEmpty c s) : ClearIfEmpty c t :=
  clear_go e (fun _ h => clear_writeRingCfg _ _ _ (clear_settleEnded h)) h

theorem clear_execItrExpire {q : Fin 258} (e : execItrExpire q s = .next t) (h : ClearIfEmpty c s) : ClearIfEmpty c t :=
  clear_go_off e (fun _ => by apply touches_itrExpire <;> simp) h

theorem clear_execPctSelect {k : Fin 1024} {w : Word} (e : execPctSelect k w s = .next t) (h : ClearIfEmpty c s) : ClearIfEmpty c t :=
  clear_go_off e (fun _ => by apply touches_writePctSel <;> simp) h

theorem clear_execPctRead {k : Fin 1024} {reader : Fin 3} (e : execPctRead k reader s = .next t) (h : ClearIfEmpty c s) :
    ClearIfEmpty c t := clear_go e (fun _ h => clear_emit (clear_readPctLo _ _ (clear_settleAll h))) h

theorem clear_execPctOvfClear {k : Fin 1024} (e : execPctOvfClear k s = .next t) (h : ClearIfEmpty c s) : ClearIfEmpty c t :=
  clear_go_off e (fun _ => by apply touches_clearOvf; simp) h

/-! ### Two rows under a condition -/

theorem clear_execMbxLockRead {ch : Fin 16} {readers : List MbxPath} (e : execMbxLockRead ch readers s = .next t) (h : ClearIfEmpty c s) :
    ClearIfEmpty c t := clear_go e (fun _ h => clear_lockRead _ _ (clear_ite (clear_unsupported h) h)) h

theorem clear_execSupplyDip {us : Nat} (e : execSupplyDip us s = .next t) (h : ClearIfEmpty c s) : ClearIfEmpty c t :=
  clear_go e (fun _ h => clear_ite (clear_beginReset _ _ h) h) h

end

end Sys2Proof.Machine
end

section
/-! PROOFS. Every command keeps a channel clear where it is EMPTY (R408), row by row of the table. -/

namespace Sys2Proof.Machine

variable {c : Fin 16}

/-- A write of PTP_INST_CFG, PTP_INST_UP or PTP_INST_PEER. -/
theorem touches_writeInst_off (j : Fin 128) (r : Fin 6) (w : Nat) {s : State} : Touches offMbx s (writeInst j.val (instReg j.val r) w s) := by
  have hk : ∀ f ∈ (instReg j.val r).fields, Block.ptp.has f.key = true := by
    unfold instReg
    split
    · exact has_Reg_PTP_INST_CFG _
    · exact has_Reg_PTP_INST_UP _
    · exact has_Reg_PTP_INST_PEER _
  apply touches_writeInst (k1 := hk) <;> simp

/-- Every command, in the table's order.  Most touch no mailbox register; the others are mailbox operations, what the firmware does with a
command packet, resets, and accesses by a function, each with its own lemma above. -/
theorem clear_exec {i : Instr} {s t : State} (e : Sys2Proof.Machine.exec i s = .next t) (h : ClearIfEmpty c s) : ClearIfEmpty c t := by
  cases i with
  | epochMarker => exact clear_go_off e (fun _ => by apply touches_epochMarker <;> simp) h
  | lanePulseRx n sub => exact clear_go_off e (fun _ => by apply touches_lanePulseRx <;> simp) h
  | lanePulseMiss n => exact clear_go_off e (fun _ => by apply touches_lanePulseMiss <;> simp) h
  | laneReturn n dc bin => exact clear_go_off e (fun _ => by apply touches_laneReturn <;> simp) h
  | laneLock n => exact clear_go_off e (fun _ => by apply touches_laneLock <;> simp) h
  | coastLimit n => exact clear_go_off e (fun _ => by apply touches_coastLimit <;> simp) h
  | incrApply b src w => exact clear_go_off e (fun _ => by apply touches_writeIncrCtl <;> simp) h
  | slewGo b src w => exact clear_go_off e (fun _ => by apply touches_writeSlewCtl <;> simp) h
  | slewAbort b w => exact clear_go_off e (fun _ => by apply touches_writeSlewCtl <;> simp) h
  | slewDone b => exact clear_go_off e (fun _ => by apply touches_slewDone <;> simp) h
  | stepGo b src w => exact clear_go_off e (fun _ => by apply touches_writeStepCtl <;> simp) h
  | stepApply b => exact clear_go_off e (fun _ => by apply touches_applyStep <;> simp) h
  | snapTake w => exact clear_go_off e (fun _ => by apply touches_writeSnapCtl <;> simp) h
  | snapLatch => exact clear_go_off e (fun _ => by apply touches_snapLatch <;> simp) h
  | switchGo w => exact clear_go_off e (fun _ => by apply touches_writeSwitchCtl <;> simp) h
  | switchDone => exact clear_go_off e (fun _ => by apply touches_switchDone <;> simp) h
  | ts1Enable w => exact clear_go_off e (fun _ => by apply touches_writeTscCtl <;> simp) h
  | ownershipChange w => exact clear_go_off e (fun _ => by apply touches_writeTscCtl <;> simp) h
  | utcOfsWrite w => exact clear_go_off e (fun _ => by apply touches_writeUtcOfs <;> simp) h
  | leapArm w => exact clear_go_off e (fun _ => by apply touches_writeLeapCtl <;> simp) h
  | leapCancel w => exact clear_go_off e (fun _ => by apply touches_writeLeapCtl <;> simp) h
  | leapWarn => exact clear_go_off e (fun _ => by apply touches_leapWarn <;> simp) h
  | leapSecondStart => exact clear_go_off e (fun _ => by apply touches_leapSecondStart <;> simp) h
  | leapOfsChange => exact clear_go_off e (fun _ => by apply touches_leapOfsChange <;> simp) h
  | smearStart => exact clear_go_off e (fun _ => by apply touches_smearStart <;> simp) h
  | smearEnd => exact clear_go_off e (fun _ => by apply touches_smearEnd <;> simp) h
  | filterStep temp => exact clear_go_off e (fun _ => by apply touches_filterStep <;> simp) h
  | sourceSample ix t x dly => exact clear_go_off e (fun _ => by apply touches_deliver <;> simp) h
  | slotLoss ix => exact clear_execSlotLoss e h
  | slotQualify ix => exact clear_execSlotQualify e h
  | slotConsistent ix => exact clear_execSlotConsistent e h
  | carryExpire ix => exact clear_execCarryExpire e h
  | reestComplete ix => exact clear_execReestComplete e h
  | slotEnable ix w => exact clear_go_off e (fun _ => by apply touches_writeSlotCfg <;> simp) h
  | slotMove ix w => exact clear_go_off e (fun _ => by apply touches_writeSlotCfg <;> simp) h
  | slotRelease ix => exact clear_go_off e (fun _ => by apply touches_writeSlotCmd <;> simp) h
  | slotQuarantine ix => exact clear_go_off e (fun _ => by apply touches_writeSlotCmd <;> simp) h
  | clrAsym ix => exact clear_go_off e (fun _ => by apply touches_writeSlotCmd <;> simp) h
  | relearn ix => exact clear_go_off e (fun _ => by apply touches_writeSlotCmd <;> simp) h
  | decideGo w => exact clear_go_off e (fun _ => by apply touches_writeDecide <;> simp) h
  | anchorSelect w => exact clear_go_off e (fun _ => by apply touches_writeAnchor <;> simp) h
  | anchorHold => exact clear_go_off e (fun _ => by apply touches_anchorHold <;> simp) h
  | anchorReturn => exact clear_go_off e (fun _ => by apply touches_anchorReturn <;> simp) h
  | driftRecord => exact clear_go_off e (fun _ => by apply touches_driftRecord <;> simp) h
  | gnssEpoch n dc bin floor samples meas => exact clear_go_off e (fun _ => by apply touches_gnssEpoch <;> simp) h
  | gnssPortFault n => exact clear_go_off e (fun _ => by apply touches_gnssPortFault <;> simp) h
  | gnssPortRecover n => exact clear_go_off e (fun _ => by apply touches_gnssPortRecover <;> simp) h
  | channelAssign c sig => exact clear_go_off e (fun _ => by apply touches_channelAssign <;> simp) h
  | detection c cn0 dop code => exact clear_go_off e (fun _ => by apply touches_detection <;> simp) h
  | searchPassEnd c => exact clear_go_off e (fun _ => by apply touches_searchPassEnd <;> simp) h
  | pullInLock c cn0 dop code low => exact clear_go_off e (fun _ => by apply touches_pullInLock <;> simp) h
  | pullInTimeout c => exact clear_go_off e (fun _ => by apply touches_pullInTimeout <;> simp) h
  | navSync c => exact clear_go_off e (fun _ => by apply touches_navSync <;> simp) h
  | channelLost c => exact clear_go_off e (fun _ => by apply touches_channelLost <;> simp) h
  | reacquire c => exact clear_go_off e (fun _ => by apply touches_reacquire <;> simp) h
  | lostTimeout c => exact clear_go_off e (fun _ => by apply touches_lostTimeout <;> simp) h
  | channelPin c w => exact clear_go_off e (fun _ => by apply touches_writeChCfg <;> simp) h
  | pinApply c => exact clear_go_off e (fun _ => by apply touches_pinApply <;> simp) h
  | navRecord c inv sub3 cn0 t payload utc => exact clear_go_off e (fun _ => by apply touches_navRecord <;> simp) h
  | solution a fix => exact clear_go_off e (fun _ => by apply touches_solution <;> simp) h
  | solutionDelivery a => exact clear_go_off e (fun _ => by apply touches_solutionDelivery <;> simp) h
  | solutionLate a => exact clear_go_off e (fun _ => by apply touches_solutionLate <;> simp) h
  | spoofClear a => exact clear_go_off e (fun _ => by apply touches_spoofClear <;> simp) h
  | positionWrite a axis w => exact clear_go_off e (fun _ => by apply touches_writePos <;> simp) h
  | surveyDone a => exact clear_go_off e (fun _ => by apply touches_surveyDone <;> simp) h
  | surveySlow a => exact clear_go_off e (fun _ => by apply touches_surveySlow <;> simp) h
  | surveyRestart a w => exact clear_go_off e (fun _ => by apply touches_writePosCtl <;> simp) h
  | notchUpdate n peaks => exact clear_go_off e (fun _ => by apply touches_notchUpdate <;> simp) h
  | notchRelease n k => exact clear_go_off e (fun _ => by apply touches_notchRelease <;> simp) h
  | jamBaseline n floor => exact clear_go_off e (fun _ => by apply touches_jamBaseline <;> simp) h
  | jamLearn n w => exact clear_go_off e (fun _ => by apply touches_writePortJam <;> simp) h
  | antSwitch => exact clear_go_off e (fun _ => by apply touches_antSwitch <;> simp) h
  | antReturn => exact clear_go_off e (fun _ => by apply touches_antReturn <;> simp) h
  | gnssSleep span => exact clear_go_off e (fun _ => by apply touches_gnsSleep <;> simp) h
  | gnssSleepEnd => exact clear_go_off e (fun _ => by apply touches_gnssSleepEnd <;> simp) h
  | gnssWake w => exact clear_go_off e (fun _ => by apply touches_gnssWake <;> simp) h
  | hotFail => exact clear_go_off e (fun _ => by apply touches_hotFail <;> simp) h
  | moduleInsert p => exact clear_go_off e (fun _ => by apply touches_moduleInsert <;> simp) h
  | moduleRemove p => exact clear_go_off e (fun _ => by apply touches_moduleRemove <;> simp) h
  | recordRead p rec a b => exact clear_go_off e (fun _ => by apply touches_recordRead <;> simp) h
  | warmupDone p => exact clear_go_off e (fun _ => by apply touches_warmupDone <;> simp) h
  | warmFail p => exact clear_go_off e (fun _ => by apply touches_warmFail <;> simp) h
  | moduleAlarm p us => exact clear_go_off e (fun _ => by apply touches_moduleAlarm <;> simp) h
  | alarmClear p ms => exact clear_go_off e (fun _ => by apply touches_alarmClear <;> simp) h
  | modulePark p w => exact clear_go_off e (fun _ => by apply touches_writeRfmCfg <;> simp) h
  | moduleUnpark p w => exact clear_go_off e (fun _ => by apply touches_writeRfmCfg <;> simp) h
  | moduleMinute p => exact clear_go_off e (fun _ => by apply touches_moduleMinute <;> simp) h
  | hoursWriteEnd p ok => exact clear_go_off e (fun _ => by apply touches_hoursWriteEnd <;> simp) h
  | hoursSetGo p w => exact clear_go_off e (fun _ => by apply touches_writeHoursCmd <;> simp) h
  | efcWrite p w => exact clear_go_off e (fun _ => by apply touches_writeEfc <;> simp) h
  | modulePps p dc bin => exact clear_go_off e (fun _ => by apply touches_modulePps <;> simp) h
  | clockMeasure c nHz => exact clear_go_off e (fun _ => by apply touches_clockMeasure <;> simp) h
  | tiEdge c dc bin fall => exact clear_go_off e (fun _ => by apply touches_tiEdge <;> simp) h
  | gateOpen g dc high => exact clear_go_off e (fun _ => by apply touches_gateOpen <;> simp) h
  | gateClose g dc high => exact clear_go_off e (fun _ => by apply touches_gateClose <;> simp) h
  | countSecond c => exact clear_go_off e (fun _ => by apply touches_countSecond <;> simp) h
  | pairOverflow c => exact clear_go_off e (fun _ => by apply touches_pairOverflow <;> simp) h
  | calPassEnd g hits => exact clear_go_off e (fun _ => by apply touches_calPassEnd <;> simp) h
  | calHandover g => exact clear_go_off e (fun _ => by apply touches_calHandover <;> simp) h
  | calNow w => exact clear_go_off e (fun _ => by apply touches_writeTimCtl <;> simp) h
  | channelArm c w => exact clear_go_off e (fun _ => by apply touches_writeChCtl <;> simp) h
  | channelDisarm c w => exact clear_go_off e (fun _ => by apply touches_writeChCtl <;> simp) h
  | groupWake g => exact clear_go_off e (fun _ => by apply touches_groupWake <;> simp) h
  | pulseGo o w => exact clear_go_off e (fun _ => by apply touches_writePlsCtl <;> simp) h
  | pulseStop o w => exact clear_go_off e (fun _ => by apply touches_writePlsCtl <;> simp) h
  | pulseCommit o => exact clear_go_off e (fun _ => by apply touches_pulseCommit <;> simp) h
  | pulseFire o => exact clear_go_off e (fun _ => by apply touches_pulseFire <;> simp) h
  | pulseEnd o => exact clear_go_off e (fun _ => by apply touches_pulseEnd <;> simp) h
  | portConfig p w => exact clear_go e (fun _ h => clear_windowWrite (h.touches (by apply touches_writeMacCfg <;> simp)) h) h
  | macAddrCommit p w => exact clear_go e (fun _ h => clear_windowWrite (h.touches (by apply touches_writeMacAddrHi <;> simp)) h) h
  | signalDetect l =>
    cases l with
    | port p => exact clear_go_off e (fun _ => by apply touches_portSignal <;> simp) h
    | mooring w => exact clear_go_off e (fun _ => by apply touches_morSignal <;> simp) h
  | trainingDone l fec =>
    cases l with
    | port p => exact clear_go_off e (fun _ => by apply touches_portTrained <;> simp) h
    | mooring w => exact clear_go_off e (fun _ => by apply touches_morTrained <;> simp) h
  | portCalPass l rmsRx rmsTx phiRx phiTx =>
    cases l with
    | port p => exact clear_go_off e (fun _ => by apply touches_portCalibrated <;> simp) h
    | mooring w => exact clear_go_off e (fun _ => by apply touches_morCalibrated <;> simp) h
  | linkLoss l cause inFrame =>
    cases l with
    | port p => exact clear_go_off e (fun _ => by apply touches_portLost <;> simp) h
    | mooring w => exact clear_go_off e (fun _ => by apply touches_morLost <;> simp) h
  | localFault p rem => exact clear_go_off e (fun _ => by apply touches_localFault <;> simp) h
  | queueFlush p => exact clear_go_off e (fun _ => by apply touches_queueFlush <;> simp) h
  | frameRx p f => exact clear_go_off e (fun _ => by apply touches_frameRx <;> simp) h
  | fecVerdict p v corr uncorr sym => exact clear_go_off e (fun _ => by apply touches_fecVerdict <;> simp) h
  | pauseEffect p => exact clear_go_off e (fun _ => by apply touches_pauseEffect <;> simp) h
  | pauseExpire p q => exact clear_go_off e (fun _ => by apply touches_pauseExpire <;> simp) h
  | frameCommit p sub => exact clear_go_off e (fun _ => by apply touches_frameCommit <;> simp) h
  | fragmentEnd p => exact clear_go_off e (fun _ => by apply touches_fragmentEnd <;> simp) h
  | txUnderrun p held => exact clear_go_off e (fun _ => by apply touches_txUnderrun <;> simp) h
  | verifySend p => exact clear_go_off e (fun _ => by apply touches_verifySend <;> simp) h
  | verifyResponse p => exact clear_go_off e (fun _ => by apply touches_verifyResponse <;> simp) h
  | svcWrite p w => exact clear_go e (fun _ h => clear_windowWrite (h.touches (by apply touches_writeSvcCmd <;> simp)) h) h
  | svcRead p w => exact clear_go e (fun _ h => clear_windowWrite (h.touches (by apply touches_writeSvcCmd <;> simp)) h) h
  | counterRead b ix => exact clear_go_off e (fun _ => by apply touches_counterRead <;> simp) h
  | cstSweep n => exact clear_go_off e (fun _ => by apply touches_cstSweep <;> simp) h
  | cstFlush n w => exact clear_go e (fun _ h => clear_windowWrite (h.touches (by apply touches_writeCstCtl <;> simp)) h) h
  | ntpBroadcast p => exact clear_go_off e (fun _ => by apply touches_ntpBroadcast <;> simp) h
  | bucketRefill n => exact clear_go_off e (fun _ => by apply touches_bucketRefill <;> simp) h
  | ntsEngineDone n e => exact clear_go_off e (fun _ => by apply touches_ntsEngineDone <;> simp) h
  | ntsReserve p => exact clear_go_off e (fun _ => by apply touches_ntsReserve <;> simp) h
  | ntsHoldTimeout p => exact clear_go_off e (fun _ => by apply touches_ntsHoldTimeout <;> simp) h
  | keyChangeEffect => exact clear_go_off e (fun _ => by apply touches_keyChangeEffect <;> simp) h
  | ptpSend due => exact clear_go_off e (fun _ => by apply touches_ptpSend <;> simp) h
  | announceTimeout j id => exact clear_go_off e (fun _ => by apply touches_announceTimeout <;> simp) h
  | followUpMiss j => exact clear_go_off e (fun _ => by apply touches_followUpMiss <;> simp) h
  | grantExpire n e => exact clear_go_off e (fun _ => by apply touches_grantExpire <;> simp) h
  | upstreamDelayReq j wait => exact clear_go_off e (fun _ => by apply touches_upstreamDelayReq <;> simp) h
  | unicastRenew j m => exact clear_go_off e (fun _ => by apply touches_unicastRenew <;> simp) h
  | instanceConfig j r w => exact clear_go e (fun _ h => clear_windowWrite (h.touches (touches_writeInst_off _ _ _)) h) h
  | instanceRateWrite j phase w => exact clear_go e (fun _ h => clear_windowWrite (h.touches (by apply touches_writeInstRate <;> simp)) h) h
  | doorbell fn q w descs => exact clear_execDoorbell e h
  | txDescFetch r data => exact clear_execTxDescFetch e h
  | ringEnable fn q w => exact clear_execRingEnable e h
  | ringDisable fn q w => exact clear_execRingDisable e h
  | ringOwner q w => exact clear_execRingOwner e h
  | itrExpire q => exact clear_execItrExpire e h
  | mooringTimeRx l back f => exact clear_go_off e (fun _ => by apply touches_mooringTimeRx <;> simp) h
  | timedLoss l => exact clear_go_off e (fun _ => by apply touches_timedLoss <;> simp) h
  | bertRx l bits errors f => exact clear_go_off e (fun _ => by apply touches_bertRx <;> simp) h
  | relayFrameRx l f => exact clear_go e (fun _ h => clear_relayFrameRx _ _ h) h
  | relayTimeout id => exact clear_go_off e (fun _ => by apply touches_relayTimeout <;> simp) h
  | closureWindow => exact clear_go_off e (fun _ => by apply touches_closureWindow <;> simp) h
  | stackEnable w => exact clear_go_off e (fun _ => by apply touches_writeMorCtl <;> simp) h
  | tenderTx collision => exact clear_go_off e (fun _ => by apply touches_tenderTx <;> simp) h
  | tenderBackoff => exact clear_go_off e (fun _ => by apply touches_tenderBackoff <;> simp) h
  | helloSend => exact clear_go_off e (fun _ => by apply touches_helloSend <;> simp) h
  | hello f => exact clear_go e (fun _ h => clear_takeTnd (fun _ _ _ => by apply touches_hello <;> simp) h) h
  | assign f => exact clear_go e (fun _ h => clear_takeTnd (fun _ _ _ => by apply touches_assign <;> simp) h) h
  | rcheck f => exact clear_go e (fun _ h => clear_takeTnd (fun _ _ _ => by apply touches_rcheck <;> simp) h) h
  | rreport f => exact clear_go e (fun _ h => clear_takeTnd (fun _ _ _ => by apply touches_rreport <;> simp) h) h
  | asym f => exact clear_go e (fun _ h => clear_takeTnd (fun _ _ _ => by apply touches_asym <;> simp) h) h
  | handoverRx f => exact clear_go e (fun _ h => clear_takeTnd (fun _ _ _ => by apply touches_handoverRx <;> simp) h) h
  | ping f => exact clear_go e (fun _ h => clear_takeTnd (fun _ _ _ => by apply touches_ping <;> simp) h) h
  | pong f => exact clear_go e (fun _ h => clear_takeTnd (fun _ _ _ => by apply touches_pong <;> simp) h) h
  | rcheckSend => exact clear_go_off e (fun _ => by apply touches_rcheckSend <;> simp) h
  | masterLost => exact clear_go_off e (fun _ => by apply touches_masterLost <;> simp) h
  | discoverTimeout => exact clear_go_off e (fun _ => by apply touches_discoverTimeout <;> simp) h
  | nodeTimeout a => exact clear_go_off e (fun _ => by apply touches_nodeTimeout <;> simp) h
  | handoverLapse => exact clear_go_off e (fun _ => by apply touches_handoverLapse <;> simp) h
  | mbxLockRead c readers => exact clear_execMbxLockRead e h
  | mbxDataAccess c r by_ w => exact clear_go e (fun _ h => clear_guarded h (clear_mbxAccess _ _ _ _ h)) h
  | mbxGo c by_ w also => exact clear_go e (fun _ h => clear_goTogether _ h) h
  | mbxDone c by_ w => exact clear_go e (fun _ h => clear_guarded h (clear_writeMbxCtl _ _ _ h)) h
  | mbxRelease c by_ w => exact clear_go e (fun _ h => clear_guarded h (clear_writeMbxCtl _ _ _ h)) h
  | lockHoldExpire c => exact clear_go e (fun _ h => clear_lockHoldExpire _ h) h
  | receiverDown fn d0 => exact clear_go e (fun _ h => clear_setD0 _ _ h) h
  | firmwareTake => exact clear_go e (fun _ h => clear_firmwareTake h) h
  | crossingTimeout c => exact clear_go e (fun _ h => clear_crossingTimeout _ h) h
  | notifyPost => exact clear_go e (fun _ h => clear_notifyPost h) h
  | regRead => exact clear_go_current e (fun d _ h => clear_regRead d h) h
  | regWrite => exact clear_go_current e (fun d _ h => clear_regWrite d h) h
  | nop => exact clear_go_current e (fun d _ h => clear_nopCmd d h) h
  | ident => exact clear_go_current e (fun d _ h => clear_ident d h) h
  | result => exact clear_go_current e (fun d _ h => clear_result d h) h
  | cfgStage => exact clear_go_current e (fun d _ h => clear_cfgStage d h) h
  | cfgCommit => exact clear_go_current e (fun d _ h => clear_cfgCommit d h) h
  | flashOpComplete ok => exact clear_go_off e (fun _ => by apply touches_flashOpComplete <;> simp) h
  | cfgRead => exact clear_go_current e (fun d _ h => clear_cfgRead d h) h
  | timeGet => exact clear_go_current e (fun d _ h => clear_timeGet d h) h
  | step => exact clear_go_current e (fun d _ h => clear_stepCmd d h) h
  | solGet => exact clear_go_current e (fun d _ h => clear_solGet d h) h
  | navGet => exact clear_go_current e (fun d _ h => clear_navGet d h) h
  | timRecords => exact clear_go_current e (fun d _ h => clear_timRecords d h) h
  | svcSet => exact clear_go_current e (fun d _ h => clear_svcSet d h) h
  | svcGet => exact clear_go_current e (fun d _ h => clear_svcGet d h) h
  | keyLoad => exact clear_go_current e (fun d _ h => clear_keyLoad d h) h
  | keyPromote => exact clear_go_current e (fun d _ h => clear_keyPromote d h) h
  | keyRetire => exact clear_go_current e (fun d _ h => clear_keyRetire d h) h
  | keyStatus => exact clear_go_current e (fun d _ h => clear_keyStatus d h) h
  | cstLookup => exact clear_go_current e (fun d _ h => clear_cstLookup d h) h
  | cstRemove => exact clear_go_current e (fun d _ h => clear_cstRemove d h) h
  | cstDump => exact clear_go_current e (fun d _ h => clear_cstDump d h) h
  | grantRead => exact clear_go_current e (fun d _ h => clear_grantRead d h) h
  | relay => exact clear_go_current e (fun d _ h => clear_relayCmd d h) h
  | handover => exact clear_go_current e (fun d _ h => clear_handoverCmd d h) h
  | resetCmd => exact clear_go_current e (fun d _ h => clear_resetCommand d h) h
  | watchRun => exact clear_go_current e (fun d _ h => clear_watchRun d h) h
  | logRead => exact clear_go_current e (fun d _ h => clear_logRead d h) h
  | hoursSet => exact clear_go_current e (fun d _ h => clear_hoursCmd d h) h
  | commandComplete id => exact clear_go e (fun _ h => clear_commandComplete _ h) h
  | commandTimeout id => exact clear_go e (fun _ h => clear_commandTimeout _ h) h
  | arbiterEval demand temp die => exact clear_go e (fun _ h => clear_arbiterEval _ _ _ h) h
  | arbiterRestore demand => exact clear_go_off e (fun _ => by apply touches_arbiterRestore <;> simp) h
  | islandWake ix => exact clear_go_off e (fun _ => by apply touches_islandWake <;> simp) h
  | powerOnReset lowNs rises => exact clear_go e (fun _ h => clear_porLow _ _ h) h
  | supplyDip us => exact clear_execSupplyDip e h
  | watchdogExpire => exact clear_go e (fun _ h => clear_watchdogExpire h) h
  | rstGo w => exact clear_go e (fun _ h => clear_writeRstCtl _ _ h) h
  | resetBegin => exact clear_go e (fun _ h => clear_resetBegin h) h
  | functionReset fn => exact clear_go e (fun _ h => clear_beginFlr _ h) h
  | perst => exact clear_go e (fun _ h => clear_perst h) h
  | bootImageSelect sfdp => exact clear_go_off e (fun _ => by apply touches_bootImageSelect <;> simp) h
  | firmwareRun => exact clear_go e (fun _ h => clear_firmwareRun h) h
  | imageApply => exact clear_go e (fun _ h => clear_imageApply h) h
  | resetComplete => exact clear_go e (fun _ h => clear_resetComplete h) h
  | pctSelect c w => exact clear_execPctSelect e h
  | pctRead c reader => exact clear_execPctRead e h
  | pctOvfClear c => exact clear_execPctOvfClear e h
  | eccError a word corrected => exact clear_go e (fun _ h => clear_eccError _ _ _ h) h
  | watchTestEnd bad measure => exact clear_go_off e (fun _ => by apply touches_watchTestEnd <;> simp) h
  | watchTestBound => exact clear_go_off e (fun _ => by apply touches_watchTestBound <;> simp) h
  | tapInstruction op => exact clear_go e (fun _ h => clear_tapOp _ h) h
  | forbiddenAccess addr w => exact clear_hostAccess e h
  | offWindowAccess addr w => exact clear_hostAccess e h
  | rcRead fn addr => exact clear_execRcRead e h
  | registerWrite fn addr w => exact clear_execRegisterWrite e h
  | faultEnd p rem => exact clear_go_off e (fun _ => by apply touches_faultEnd <;> simp) h
  | mooringFrameErr l => exact clear_go e (fun _ h => clear_mooringFrameErr _ h) h
  | tenderCrcErr => exact clear_go_off e (fun _ => by apply touches_tenderCrcErr <;> simp) h
  | pePerstNRise => exact clear_go_off e (fun _ => by apply touches_perstRise <;> simp) h
  | watchTestStart => exact clear_go_off e (fun _ => by apply touches_watchTestStart <;> simp) h

/-- Settles O9: a channel in use is clear-if-EMPTY at once, every command keeps that, and afterwards the channel is EMPTY. -/
theorem emptiedChannelIsClear : Obligations.EmptiedChannelIsClear := by
  intro s t i c e hused hempty
  exact clear_exec e (fun he => absurd he hused) hempty

end Sys2Proof.Machine
end

section
/-! PROOFS. What each row of the table may change (O7): the row's operation, from the state as the command begins. -/

namespace Sys2Proof.Machine

/-! ### From an operation to its row -/

@[simp] theorem touches_begin (ps : List Part) (s : State) : Touches ps s s.begin := touches_State_begin s (Touches.refl ps s)

@[simp] theorem every_part (p : Part) : p ∈ Part.all := Part.mem_all p

section
variable {ps : List Part} {s t : State}

/-- A row of a command packet's opcode touches what its action on the command begun does. -/
theorem touches_go_current {is : Nat → Bool} {f : Cmd → State → State} (e : go (onCurrent is f) s = .next t)
    (hf : ∀ d u, Touches ps s u → Touches ps s (f d u)) : Touches ps s t :=
  touches_go e (touches_onCurrent is f _ hf (touches_begin ps s))

/-- A row that writes in the window of a die touches what the write does. -/
theorem touches_go_window {d : Nat} {r : Register} {f : State → State} (e : go (windowWrite d r f) s = .next t)
    (hf : ∀ u, Touches ps s u → Touches ps s (f u)) : Touches ps s t :=
  touches_go e (touches_windowWrite d r f _ hf (touches_begin ps s))

/-- A row that takes a Tender frame touches what is done with its payload. -/
theorem touches_go_tender {f : TndFrame} {act : Nat → List Nat → State → State} (e : go (takeTnd f act) s = .next t)
    (hs : Part.stack ∈ ps) (hr : Part.regs .mor ∈ ps) (hf : ∀ n p u, Touches ps s u → Touches ps s (act n p u)) : Touches ps s t :=
  touches_go e (touches_takeTnd f act _ hs hr hf (touches_begin ps s))

/-- A row of a mailbox channel touches what the access does, where the function's path may reach it. -/
theorem touches_go_guarded {c addr : Nat} {p : MbxPath} {read : Bool} {f : State → State} (e : go (guarded c p addr read f) s = .next t)
    (hf : ∀ u, Touches ps s u → Touches ps s (f u)) : Touches ps s t :=
  touches_go e (touches_guarded c p addr read f _ hf (touches_begin ps s))

/-- An access by a function, where the BARs hold its offset. -/
theorem touches_hostAccess {fn a : Nat} {w : Option Nat} (e : hostAccess fn a w s = .next t) : Touches Part.all s t := by
  unfold hostAccess at e
  split at e
  · cases e
  · cases w with
    | some v => exact touches_go e (by apply touches_hostWrite <;> simp)
    | none => exact touches_go e (by apply touches_hostRead <;> simp)

end


section

@[simp] theorem touches_settled {ps : List Part} (hs : Part.srv ∈ ps) (hr : Part.rings ∈ ps) (hg : Part.regs .ring ∈ ps) (s : State) :
    Touches ps s (settleEnded s.begin) := touches_settleEnded _ hs hr hg (touches_begin ps s)

@[simp] theorem touches_settledAll {ps : List Part} (hs : Part.srv ∈ ps) (hr : Part.rings ∈ ps) (hg : Part.regs .ring ∈ ps) (s : State) :
    Touches ps s (settleAll s.begin) := touches_settleAll _ hs hr hg (touches_begin ps s)

variable {s t : State} {i : Fin 16}

theorem touches_execSlotLoss (e : execSlotLoss i s = .next t) : Touches [.tick, .lanes, .ens, .log, .regs .ens, .regs .wch] s t := by
  refine touches_go e ?_
  split
  · exact touches_begin _ _
  · apply touches_slotLoss <;> simp [touches_State_waitClk]

theorem touches_execSlotQualify (e : execSlotQualify i s = .next t) : Touches [.tick, .lanes, .ens, .log, .regs .ens, .regs .wch] s t := by
  refine touches_go e ?_
  split
  · apply touches_slotQualify <;> simp [touches_State_waitClk]
  · exact touches_begin _ _

theorem touches_execSlotConsistent (e : execSlotConsistent i s = .next t) : Touches [.tick, .lanes, .ens, .log, .regs .ens, .regs .wch] s t := by
  refine touches_go e ?_
  split
  · apply touches_slotConsistent <;> simp [touches_State_waitClk]
  · exact touches_begin _ _

theorem touches_execCarryExpire (e : execCarryExpire i s = .next t) : Touches [.tick, .lanes, .ens, .log, .regs .ens, .regs .wch] s t := by
  refine touches_go e ?_
  split
  · apply touches_carryExpire <;> simp [touches_State_waitClk]
  · exact touches_begin _ _

theorem touches_execReestComplete (e : execReestComplete i s = .next t) : Touches [.tick, .lanes, .ens, .log, .regs .ens, .regs .wch] s t := by
  refine touches_go e ?_
  split
  · apply touches_reestComplete <;> simp [touches_State_waitClk]
  · exact touches_begin _ _

theorem touches_execPctRead {k : Fin 1024} {reader : Fin 3} (e : execPctRead k reader s = .next t) :
    Touches [.srv, .rings, .regs .ring] s t :=
  touches_go e (touches_State_emit (touches_readPctLo _ _ _ (by apply touches_settleAll <;> simp)))


theorem touches_execDoorbell {fn : Fin 2} {q : Fin 258} {w : Word} {ds : List (List Byte)} (e : execDoorbell fn q w ds s = .next t) :
    Touches [.srv, .rings, .fw, .regs .ring] s t :=
  touches_go e (by apply touches_doorbell <;> simp)

theorem touches_execTxDescFetch {r : Fin 128} {data : List Byte} (e : execTxDescFetch r data s = .next t) :
    Touches [.srv, .rings, .regs .ring] s t :=
  touches_go e (by apply touches_txDescFetch <;> simp)

theorem touches_execRingEnable {fn : Fin 2} {q : Fin 258} {w : Word} (e : execRingEnable fn q w s = .next t) :
    Touches [.srv, .rings, .regs .ring] s t :=
  touches_go e (by apply touches_writeRingCfg <;> simp)

theorem touches_execRingDisable {fn : Fin 2} {q : Fin 258} {w : Word} (e : execRingDisable fn q w s = .next t) :
    Touches [.srv, .rings, .regs .ring] s t :=
  touches_go e (by apply touches_writeRingCfg <;> simp)

theorem touches_execRingOwner {q : Fin 256} {w : Word} (e : execRingOwner q w s = .next t) :
    Touches [.srv, .rings, .regs .ring] s t :=
  touches_go e (by apply touches_writeRingCfg <;> simp)

theorem touches_execItrExpire {q : Fin 258} (e : execItrExpire q s = .next t) :
    Touches [.tick, .lanes, .srv, .rings, .regs .ring] s t :=
  touches_go e (by apply touches_itrExpire <;> simp)

theorem touches_execPctSelect {k : Fin 1024} {w : Word} (e : execPctSelect k w s = .next t) :
    Touches [.srv, .rings, .regs .pct, .regs .ring] s t :=
  touches_go e (by apply touches_writePctSel <;> simp)

theorem touches_execPctOvfClear {k : Fin 1024} (e : execPctOvfClear k s = .next t) : Touches [.srv, .rings, .regs .ring] s t :=
  touches_go e (by apply touches_clearOvf; simp)

theorem touches_execMbxLockRead {c : Fin 16} {readers : List MbxPath} (e : execMbxLockRead c readers s = .next t) :
    Touches [.log, .mbx, .regs .mbx, .regs .wch] s t :=
  touches_go e (by apply touches_lockRead <;> simp [touches_ite, touches_unsupported])

theorem touches_execSupplyDip {us : Nat} (e : execSupplyDip us s = .next t) : Touches Part.all s t :=
  touches_go e (touches_ite (by apply touches_beginReset <;> simp) (touches_begin _ _))

theorem touches_execInstanceConfig {j : Fin 128} {r : Fin 6} {w : Word} (e : execInstanceConfig j r w s = .next t) :
    Touches [.ens, .log, .srv, .rings, .regs .ens, .regs .wch, .regs .ptp, .regs .ring] s t := by
  have hk : ∀ f ∈ (instReg j.val r).fields, Block.ptp.has f.key = true := by
    unfold instReg
    split
    · exact has_Reg_PTP_INST_CFG _
    · exact has_Reg_PTP_INST_UP _
    · exact has_Reg_PTP_INST_PEER _
  exact touches_go_window e fun _ h => by apply touches_writeInst (k1 := hk) <;> simp [h]

end

theorem touches_exec {i : Instr} {s t : State} (e : Sys2Proof.Machine.exec i s = .next t) : Touches (touches i) s t := by
  cases i with
  | epochMarker => dsimp only [touches]; exact touches_go e (by apply touches_epochMarker (h := touches_begin _ _) <;> decide)
  | lanePulseRx n sub => dsimp only [touches]; exact touches_go e (by apply touches_lanePulseRx (h := touches_begin _ _) <;> decide)
  | lanePulseMiss n => dsimp only [touches]; exact touches_go e (by apply touches_lanePulseMiss (h := touches_begin _ _) <;> decide)
  | laneReturn n dc bin => dsimp only [touches]; exact touches_go e (by apply touches_laneReturn (h := touches_begin _ _) <;> decide)
  | laneLock n => dsimp only [touches]; exact touches_go e (by apply touches_laneLock (h := touches_begin _ _) <;> decide)
  | coastLimit n => dsimp only [touches]; exact touches_go e (by apply touches_coastLimit (h := touches_begin _ _) <;> decide)
  | incrApply b src w => dsimp only [touches]; exact touches_go e (by apply touches_writeIncrCtl (h := touches_begin _ _) <;> decide)
  | slewGo b src w => dsimp only [touches]; exact touches_go e (by apply touches_writeSlewCtl (h := touches_begin _ _) <;> decide)
  | slewAbort b w => dsimp only [touches]; exact touches_go e (by apply touches_writeSlewCtl (h := touches_begin _ _) <;> decide)
  | slewDone b => dsimp only [touches]; exact touches_go e (by apply touches_slewDone (h := touches_begin _ _) <;> decide)
  | stepGo b src w => dsimp only [touches]; exact touches_go e (by apply touches_writeStepCtl (h := touches_begin _ _) <;> decide)
  | stepApply b => dsimp only [touches]; exact touches_go e (by apply touches_applyStep (h := touches_begin _ _) <;> decide)
  | snapTake w => dsimp only [touches]; exact touches_go e (by apply touches_writeSnapCtl (h := touches_begin _ _) <;> decide)
  | snapLatch => dsimp only [touches]; exact touches_go e (by apply touches_snapLatch (h := touches_begin _ _) <;> decide)
  | switchGo w => dsimp only [touches]; exact touches_go e (by apply touches_writeSwitchCtl (h := touches_begin _ _) <;> decide)
  | switchDone => dsimp only [touches]; exact touches_go e (by apply touches_switchDone (h := touches_begin _ _) <;> decide)
  | ts1Enable w => dsimp only [touches]; exact touches_go e (by apply touches_writeTscCtl (h := touches_begin _ _) <;> decide)
  | ownershipChange w => dsimp only [touches]; exact touches_go e (by apply touches_writeTscCtl (h := touches_begin _ _) <;> decide)
  | utcOfsWrite w => dsimp only [touches]; exact touches_go e (by apply touches_writeUtcOfs (h := touches_begin _ _) <;> decide)
  | leapArm w => dsimp only [touches]; exact touches_go e (by apply touches_writeLeapCtl (h := touches_begin _ _) <;> decide)
  | leapCancel w => dsimp only [touches]; exact touches_go e (by apply touches_writeLeapCtl (h := touches_begin _ _) <;> decide)
  | leapWarn => dsimp only [touches]; exact touches_go e (by apply touches_leapWarn (h := touches_begin _ _) <;> decide)
  | leapSecondStart => dsimp only [touches]; exact touches_go e (by apply touches_leapSecondStart (h := touches_begin _ _) <;> decide)
  | leapOfsChange => dsimp only [touches]; exact touches_go e (by apply touches_leapOfsChange (h := touches_begin _ _) <;> decide)
  | smearStart => dsimp only [touches]; exact touches_go e (by apply touches_smearStart (h := touches_begin _ _) <;> decide)
  | smearEnd => dsimp only [touches]; exact touches_go e (by apply touches_smearEnd (h := touches_begin _ _) <;> decide)
  | filterStep temp => dsimp only [touches]; exact touches_go e (by apply touches_filterStep (h := touches_begin _ _) <;> decide)
  | sourceSample ix t x dly => dsimp only [touches]; exact touches_go e (by apply touches_deliver (h := touches_begin _ _) <;> decide)
  | slotLoss ix => dsimp only [touches]; exact touches_execSlotLoss e
  | slotQualify ix => dsimp only [touches]; exact touches_execSlotQualify e
  | slotConsistent ix => dsimp only [touches]; exact touches_execSlotConsistent e
  | carryExpire ix => dsimp only [touches]; exact touches_execCarryExpire e
  | reestComplete ix => dsimp only [touches]; exact touches_execReestComplete e
  | slotEnable ix w => dsimp only [touches]; exact touches_go e (by apply touches_writeSlotCfg (h := touches_begin _ _) <;> decide)
  | slotMove ix w => dsimp only [touches]; exact touches_go e (by apply touches_writeSlotCfg (h := touches_begin _ _) <;> decide)
  | slotRelease ix => dsimp only [touches]; exact touches_go e (by apply touches_writeSlotCmd (h := touches_begin _ _) <;> decide)
  | slotQuarantine ix => dsimp only [touches]; exact touches_go e (by apply touches_writeSlotCmd (h := touches_begin _ _) <;> decide)
  | clrAsym ix => dsimp only [touches]; exact touches_go e (by apply touches_writeSlotCmd (h := touches_begin _ _) <;> decide)
  | relearn ix => dsimp only [touches]; exact touches_go e (by apply touches_writeSlotCmd (h := touches_begin _ _) <;> decide)
  | decideGo w => dsimp only [touches]; exact touches_go e (by apply touches_writeDecide (h := touches_begin _ _) <;> decide)
  | anchorSelect w => dsimp only [touches]; exact touches_go e (by apply touches_writeAnchor (h := touches_begin _ _) <;> decide)
  | anchorHold => dsimp only [touches]; exact touches_go e (by apply touches_anchorHold (h := touches_begin _ _) <;> decide)
  | anchorReturn => dsimp only [touches]; exact touches_go e (by apply touches_anchorReturn (h := touches_begin _ _) <;> decide)
  | driftRecord => dsimp only [touches]; exact touches_go e (by apply touches_driftRecord (h := touches_begin _ _) <;> decide)
  | gnssEpoch n dc bin floor samples meas => dsimp only [touches]; exact touches_go e (by apply touches_gnssEpoch (h := touches_begin _ _) <;> decide)
  | gnssPortFault n => dsimp only [touches]; exact touches_go e (by apply touches_gnssPortFault (h := touches_begin _ _) <;> decide)
  | gnssPortRecover n => dsimp only [touches]; exact touches_go e (by apply touches_gnssPortRecover (h := touches_begin _ _) <;> decide)
  | channelAssign c sig => dsimp only [touches]; exact touches_go e (by apply touches_channelAssign (h := touches_begin _ _) <;> decide)
  | detection c cn0 dop code => dsimp only [touches]; exact touches_go e (by apply touches_detection (h := touches_begin _ _) <;> decide)
  | searchPassEnd c => dsimp only [touches]; exact touches_go e (by apply touches_searchPassEnd (h := touches_begin _ _) <;> decide)
  | pullInLock c cn0 dop code low => dsimp only [touches]; exact touches_go e (by apply touches_pullInLock (h := touches_begin _ _) <;> decide)
  | pullInTimeout c => dsimp only [touches]; exact touches_go e (by apply touches_pullInTimeout (h := touches_begin _ _) <;> decide)
  | navSync c => dsimp only [touches]; exact touches_go e (by apply touches_navSync (h := touches_begin _ _) <;> decide)
  | channelLost c => dsimp only [touches]; exact touches_go e (by apply touches_channelLost (h := touches_begin _ _) <;> decide)
  | reacquire c => dsimp only [touches]; exact touches_go e (by apply touches_reacquire (h := touches_begin _ _) <;> decide)
  | lostTimeout c => dsimp only [touches]; exact touches_go e (by apply touches_lostTimeout (h := touches_begin _ _) <;> decide)
  | channelPin c w => dsimp only [touches]; exact touches_go e (by apply touches_writeChCfg (h := touches_begin _ _) <;> decide)
  | pinApply c => dsimp only [touches]; exact touches_go e (by apply touches_pinApply (h := touches_begin _ _) <;> decide)
  | navRecord c inv sub3 cn0 t payload utc => dsimp only [touches]; exact touches_go e (by apply touches_navRecord (h := touches_begin _ _) <;> decide)
  | solution a fix => dsimp only [touches]; exact touches_go e (by apply touches_solution (h := touches_begin _ _) <;> decide)
  | solutionDelivery a => dsimp only [touches]; exact touches_go e (by apply touches_solutionDelivery (h := touches_begin _ _) <;> decide)
  | solutionLate a => dsimp only [touches]; exact touches_go e (by apply touches_solutionLate (h := touches_begin _ _) <;> decide)
  | spoofClear a => dsimp only [touches]; exact touches_go e (by apply touches_spoofClear (h := touches_begin _ _) <;> decide)
  | positionWrite a axis w => dsimp only [touches]; exact touches_go e (by apply touches_writePos (h := touches_begin _ _) <;> decide)
  | surveyDone a => dsimp only [touches]; exact touches_go e (by apply touches_surveyDone (h := touches_begin _ _) <;> decide)
  | surveySlow a => dsimp only [touches]; exact touches_go e (by apply touches_surveySlow (h := touches_begin _ _) <;> decide)
  | surveyRestart a w => dsimp only [touches]; exact touches_go e (by apply touches_writePosCtl (h := touches_begin _ _) <;> decide)
  | notchUpdate n peaks => dsimp only [touches]; exact touches_go e (by apply touches_notchUpdate (h := touches_begin _ _) <;> decide)
  | notchRelease n k => dsimp only [touches]; exact touches_go e (by apply touches_notchRelease (h := touches_begin _ _) <;> decide)
  | jamBaseline n floor => dsimp only [touches]; exact touches_go e (by apply touches_jamBaseline (h := touches_begin _ _) <;> decide)
  | jamLearn n w => dsimp only [touches]; exact touches_go e (by apply touches_writePortJam (h := touches_begin _ _) <;> decide)
  | antSwitch => dsimp only [touches]; exact touches_go e (by apply touches_antSwitch (h := touches_begin _ _) <;> decide)
  | antReturn => dsimp only [touches]; exact touches_go e (by apply touches_antReturn (h := touches_begin _ _) <;> decide)
  | gnssSleep span => dsimp only [touches]; exact touches_go e (by apply touches_gnsSleep (h := touches_begin _ _) <;> decide)
  | gnssSleepEnd => dsimp only [touches]; exact touches_go e (by apply touches_gnssSleepEnd (h := touches_begin _ _) <;> decide)
  | gnssWake w => dsimp only [touches]; exact touches_go e (by apply touches_gnssWake (h := touches_begin _ _) <;> decide)
  | hotFail => dsimp only [touches]; exact touches_go e (by apply touches_hotFail (h := touches_begin _ _) <;> decide)
  | moduleInsert p => dsimp only [touches]; exact touches_go e (by apply touches_moduleInsert (h := touches_begin _ _) <;> decide)
  | moduleRemove p => dsimp only [touches]; exact touches_go e (by apply touches_moduleRemove (h := touches_begin _ _) <;> decide)
  | recordRead p rec a b => dsimp only [touches]; exact touches_go e (by apply touches_recordRead (h := touches_begin _ _) <;> decide)
  | warmupDone p => dsimp only [touches]; exact touches_go e (by apply touches_warmupDone (h := touches_begin _ _) <;> decide)
  | warmFail p => dsimp only [touches]; exact touches_go e (by apply touches_warmFail (h := touches_begin _ _) <;> decide)
  | moduleAlarm p us => dsimp only [touches]; exact touches_go e (by apply touches_moduleAlarm (h := touches_begin _ _) <;> decide)
  | alarmClear p ms => dsimp only [touches]; exact touches_go e (by apply touches_alarmClear (h := touches_begin _ _) <;> decide)
  | modulePark p w => dsimp only [touches]; exact touches_go e (by apply touches_writeRfmCfg (h := touches_begin _ _) <;> decide)
  | moduleUnpark p w => dsimp only [touches]; exact touches_go e (by apply touches_writeRfmCfg (h := touches_begin _ _) <;> decide)
  | moduleMinute p => dsimp only [touches]; exact touches_go e (by apply touches_moduleMinute (h := touches_begin _ _) <;> decide)
  | hoursWriteEnd p ok => dsimp only [touches]; exact touches_go e (by apply touches_hoursWriteEnd (h := touches_begin _ _) <;> decide)
  | hoursSetGo p w => dsimp only [touches]; exact touches_go e (by apply touches_writeHoursCmd (h := touches_begin _ _) <;> decide)
  | efcWrite p w => dsimp only [touches]; exact touches_go e (by apply touches_writeEfc (h := touches_begin _ _) <;> decide)
  | modulePps p dc bin => dsimp only [touches]; exact touches_go e (by apply touches_modulePps (h := touches_begin _ _) <;> decide)
  | clockMeasure c nHz => dsimp only [touches]; exact touches_go e (by apply touches_clockMeasure (h := touches_begin _ _) <;> decide)
  | tiEdge c dc bin fall => dsimp only [touches]; exact touches_go e (by apply touches_tiEdge (h := touches_begin _ _) <;> decide)
  | gateOpen g dc high => dsimp only [touches]; exact touches_go e (by apply touches_gateOpen (h := touches_begin _ _) <;> decide)
  | gateClose g dc high => dsimp only [touches]; exact touches_go e (by apply touches_gateClose (h := touches_begin _ _) <;> decide)
  | countSecond c => dsimp only [touches]; exact touches_go e (by apply touches_countSecond (h := touches_begin _ _) <;> decide)
  | pairOverflow c => dsimp only [touches]; exact touches_go e (by apply touches_pairOverflow (h := touches_begin _ _) <;> decide)
  | calPassEnd g hits => dsimp only [touches]; exact touches_go e (by apply touches_calPassEnd (h := touches_begin _ _) <;> decide)
  | calHandover g => dsimp only [touches]; exact touches_go e (by apply touches_calHandover (h := touches_begin _ _) <;> decide)
  | calNow w => dsimp only [touches]; exact touches_go e (by apply touches_writeTimCtl (h := touches_begin _ _) <;> decide)
  | channelArm c w => dsimp only [touches]; exact touches_go e (by apply touches_writeChCtl (h := touches_begin _ _) <;> decide)
  | channelDisarm c w => dsimp only [touches]; exact touches_go e (by apply touches_writeChCtl (h := touches_begin _ _) <;> decide)
  | groupWake g => dsimp only [touches]; exact touches_go e (by apply touches_groupWake (h := touches_begin _ _) <;> decide)
  | pulseGo o w => dsimp only [touches]; exact touches_go e (by apply touches_writePlsCtl (h := touches_begin _ _) <;> decide)
  | pulseStop o w => dsimp only [touches]; exact touches_go e (by apply touches_writePlsCtl (h := touches_begin _ _) <;> decide)
  | pulseCommit o => dsimp only [touches]; exact touches_go e (by apply touches_pulseCommit (h := touches_begin _ _) <;> decide)
  | pulseFire o => dsimp only [touches]; exact touches_go e (by apply touches_pulseFire (h := touches_begin _ _) <;> decide)
  | pulseEnd o => dsimp only [touches]; exact touches_go e (by apply touches_pulseEnd (h := touches_begin _ _) <;> decide)
  | portConfig p w => dsimp only [touches]; exact touches_go_window e fun _ h => by apply touches_writeMacCfg (h := h) <;> decide
  | macAddrCommit p w => dsimp only [touches]; exact touches_go_window e fun _ h => by apply touches_writeMacAddrHi (h := h) <;> decide
  | signalDetect l =>
    cases l with
    | port p => dsimp only [touches]; exact touches_go e (by apply touches_portSignal (h := touches_begin _ _) <;> decide)
    | mooring w => dsimp only [touches]; exact touches_go e (by apply touches_morSignal (h := touches_begin _ _) <;> decide)
  | trainingDone l fec =>
    cases l with
    | port p => dsimp only [touches]; exact touches_go e (by apply touches_portTrained (h := touches_begin _ _) <;> decide)
    | mooring w => dsimp only [touches]; exact touches_go e (by apply touches_morTrained (h := touches_begin _ _) <;> decide)
  | portCalPass l rmsRx rmsTx phiRx phiTx =>
    cases l with
    | port p => dsimp only [touches]; exact touches_go e (by apply touches_portCalibrated (h := touches_begin _ _) <;> decide)
    | mooring w => dsimp only [touches]; exact touches_go e (by apply touches_morCalibrated (h := touches_begin _ _) <;> decide)
  | linkLoss l cause inFrame =>
    cases l with
    | port p => dsimp only [touches]; exact touches_go e (by apply touches_portLost (h := touches_begin _ _) <;> decide)
    | mooring w => dsimp only [touches]; exact touches_go e (by apply touches_morLost (h := touches_begin _ _) <;> decide)
  | localFault p rem => dsimp only [touches]; exact touches_go e (by apply touches_localFault (h := touches_begin _ _) <;> decide)
  | queueFlush p => dsimp only [touches]; exact touches_go e (by apply touches_queueFlush (h := touches_begin _ _) <;> decide)
  | frameRx p f => dsimp only [touches]; exact touches_go e (by apply touches_frameRx (h := touches_begin _ _) <;> decide)
  | fecVerdict p v corr uncorr sym => dsimp only [touches]; exact touches_go e (by apply touches_fecVerdict (h := touches_begin _ _) <;> decide)
  | pauseEffect p => dsimp only [touches]; exact touches_go e (by apply touches_pauseEffect (h := touches_begin _ _) <;> decide)
  | pauseExpire p q => dsimp only [touches]; exact touches_go e (by apply touches_pauseExpire (h := touches_begin _ _) <;> decide)
  | frameCommit p sub => dsimp only [touches]; exact touches_go e (by apply touches_frameCommit (h := touches_begin _ _) <;> decide)
  | fragmentEnd p => dsimp only [touches]; exact touches_go e (by apply touches_fragmentEnd (h := touches_begin _ _) <;> decide)
  | txUnderrun p held => dsimp only [touches]; exact touches_go e (by apply touches_txUnderrun (h := touches_begin _ _) <;> decide)
  | verifySend p => dsimp only [touches]; exact touches_go e (by apply touches_verifySend (h := touches_begin _ _) <;> decide)
  | verifyResponse p => dsimp only [touches]; exact touches_go e (by apply touches_verifyResponse (h := touches_begin _ _) <;> decide)
  | svcWrite p w => dsimp only [touches]; exact touches_go_window e fun _ h => by apply touches_writeSvcCmd (h := h) <;> decide
  | svcRead p w => dsimp only [touches]; exact touches_go_window e fun _ h => by apply touches_writeSvcCmd (h := h) <;> decide
  | counterRead b ix => dsimp only [touches]; exact touches_go e (by apply touches_counterRead (h := touches_begin _ _) <;> decide)
  | cstSweep n => dsimp only [touches]; exact touches_go e (by apply touches_cstSweep (h := touches_begin _ _) <;> decide)
  | cstFlush n w => dsimp only [touches]; exact touches_go_window e fun _ h => by apply touches_writeCstCtl (h := h) <;> decide
  | ntpBroadcast p => dsimp only [touches]; exact touches_go e (by apply touches_ntpBroadcast (h := touches_begin _ _) <;> decide)
  | bucketRefill n => dsimp only [touches]; exact touches_go e (by apply touches_bucketRefill (h := touches_begin _ _) <;> decide)
  | ntsEngineDone n e => dsimp only [touches]; exact touches_go e (by apply touches_ntsEngineDone (h := touches_begin _ _) <;> decide)
  | ntsReserve p => dsimp only [touches]; exact touches_go e (by apply touches_ntsReserve (h := touches_begin _ _) <;> decide)
  | ntsHoldTimeout p => dsimp only [touches]; exact touches_go e (by apply touches_ntsHoldTimeout (h := touches_begin _ _) <;> decide)
  | keyChangeEffect => dsimp only [touches]; exact touches_go e (by apply touches_keyChangeEffect (h := touches_begin _ _) <;> decide)
  | ptpSend due => dsimp only [touches]; exact touches_go e (by apply touches_ptpSend (h := touches_begin _ _) <;> decide)
  | announceTimeout j id => dsimp only [touches]; exact touches_go e (by apply touches_announceTimeout (h := touches_begin _ _) <;> decide)
  | followUpMiss j => dsimp only [touches]; exact touches_go e (by apply touches_followUpMiss (h := touches_begin _ _) <;> decide)
  | grantExpire n e => dsimp only [touches]; exact touches_go e (by apply touches_grantExpire (h := touches_begin _ _) <;> decide)
  | upstreamDelayReq j wait => dsimp only [touches]; exact touches_go e (by apply touches_upstreamDelayReq (h := touches_begin _ _) <;> decide)
  | unicastRenew j m => dsimp only [touches]; exact touches_go e (by apply touches_unicastRenew (h := touches_begin _ _) <;> decide)
  | instanceConfig j r w => dsimp only [touches]; exact touches_execInstanceConfig e
  | instanceRateWrite j phase w => dsimp only [touches]; exact touches_go_window e fun _ h => by apply touches_writeInstRate (h := h) <;> decide
  | doorbell fn q w descs => dsimp only [touches]; exact touches_execDoorbell e
  | txDescFetch r data => dsimp only [touches]; exact touches_execTxDescFetch e
  | ringEnable fn q w => dsimp only [touches]; exact touches_execRingEnable e
  | ringDisable fn q w => dsimp only [touches]; exact touches_execRingDisable e
  | ringOwner q w => dsimp only [touches]; exact touches_execRingOwner e
  | itrExpire q => dsimp only [touches]; exact touches_execItrExpire e
  | mooringTimeRx l back f => dsimp only [touches]; exact touches_go e (by apply touches_mooringTimeRx (h := touches_begin _ _) <;> decide)
  | timedLoss l => dsimp only [touches]; exact touches_go e (by apply touches_timedLoss (h := touches_begin _ _) <;> decide)
  | bertRx l bits errors f => dsimp only [touches]; exact touches_go e (by apply touches_bertRx (h := touches_begin _ _) <;> decide)
  | relayFrameRx l f => dsimp only [touches]; exact touches_go e (by apply touches_relayFrameRx (h := touches_begin _ _) <;> decide)
  | relayTimeout id => dsimp only [touches]; exact touches_go e (by apply touches_relayTimeout (h := touches_begin _ _) <;> decide)
  | closureWindow => dsimp only [touches]; exact touches_go e (by apply touches_closureWindow (h := touches_begin _ _) <;> decide)
  | stackEnable w => dsimp only [touches]; exact touches_go e (by apply touches_writeMorCtl (h := touches_begin _ _) <;> decide)
  | tenderTx collision => dsimp only [touches]; exact touches_go e (by apply touches_tenderTx (h := touches_begin _ _) <;> decide)
  | tenderBackoff => dsimp only [touches]; exact touches_go e (by apply touches_tenderBackoff (h := touches_begin _ _) <;> decide)
  | helloSend => dsimp only [touches]; exact touches_go e (by apply touches_helloSend (h := touches_begin _ _) <;> decide)
  | hello f => dsimp only [touches]; exact touches_go_tender e (by simp) (by simp) fun _ _ _ h => by apply touches_hello (h := h) <;> decide
  | assign f => dsimp only [touches]; exact touches_go_tender e (by simp) (by simp) fun _ _ _ h => by apply touches_assign (h := h) <;> decide
  | rcheck f => dsimp only [touches]; exact touches_go_tender e (by simp) (by simp) fun _ _ _ h => by apply touches_rcheck (h := h) <;> decide
  | rreport f => dsimp only [touches]; exact touches_go_tender e (by simp) (by simp) fun _ _ _ h => by apply touches_rreport (h := h) <;> decide
  | asym f => dsimp only [touches]; exact touches_go_tender e (by simp) (by simp) fun _ _ _ h => by apply touches_asym (h := h) <;> decide
  | handoverRx f => dsimp only [touches]; exact touches_go_tender e (by simp) (by simp) fun _ _ _ h => by apply touches_handoverRx (h := h) <;> decide
  | ping f => dsimp only [touches]; exact touches_go_tender e (by simp) (by simp) fun _ _ _ h => by apply touches_ping (h := h) <;> decide
  | pong f => dsimp only [touches]; exact touches_go_tender e (by simp) (by simp) fun _ _ _ h => by apply touches_pong (h := h) <;> decide
  | rcheckSend => dsimp only [touches]; exact touches_go e (by apply touches_rcheckSend (h := touches_begin _ _) <;> decide)
  | masterLost => dsimp only [touches]; exact touches_go e (by apply touches_masterLost (h := touches_begin _ _) <;> decide)
  | discoverTimeout => dsimp only [touches]; exact touches_go e (by apply touches_discoverTimeout (h := touches_begin _ _) <;> decide)
  | nodeTimeout a => dsimp only [touches]; exact touches_go e (by apply touches_nodeTimeout (h := touches_begin _ _) <;> decide)
  | handoverLapse => dsimp only [touches]; exact touches_go e (by apply touches_handoverLapse (h := touches_begin _ _) <;> decide)
  | mbxLockRead c readers => dsimp only [touches]; exact touches_execMbxLockRead e
  | mbxDataAccess c r by_ w => dsimp only [touches]; exact touches_go_guarded e fun _ h => by apply touches_mbxAccess (h := h) <;> decide
  | mbxGo c by_ w also => dsimp only [touches]; exact touches_go e (by apply touches_goTogether (h := touches_begin _ _) <;> decide)
  | mbxDone c by_ w => dsimp only [touches]; exact touches_go_guarded e fun _ h => by apply touches_writeMbxCtl (h := h) <;> decide
  | mbxRelease c by_ w => dsimp only [touches]; exact touches_go_guarded e fun _ h => by apply touches_writeMbxCtl (h := h) <;> decide
  | lockHoldExpire c => dsimp only [touches]; exact touches_go e (by apply touches_lockHoldExpire (h := touches_begin _ _) <;> decide)
  | receiverDown fn d0 => dsimp only [touches]; exact touches_go e (by apply touches_setD0 (h := touches_begin _ _) <;> decide)
  | firmwareTake => dsimp only [touches]; exact touches_go e (by apply touches_firmwareTake (h := touches_begin _ _) <;> decide)
  | crossingTimeout c => dsimp only [touches]; exact touches_go e (by apply touches_crossingTimeout (h := touches_begin _ _) <;> decide)
  | notifyPost => dsimp only [touches]; exact touches_go e (by apply touches_notifyPost (h := touches_begin _ _) <;> decide)
  | regRead => dsimp only [touches]; exact touches_go_current e fun _ _ h => by apply touches_regRead <;> simp [h]
  | regWrite => dsimp only [touches]; exact touches_go_current e fun _ _ h => by apply touches_regWrite <;> simp [h]
  | nop => dsimp only [touches]; exact touches_go_current e fun _ _ h => by apply touches_nopCmd (h := h) <;> decide
  | ident => dsimp only [touches]; exact touches_go_current e fun _ _ h => by apply touches_ident (h := h) <;> decide
  | result => dsimp only [touches]; exact touches_go_current e fun _ _ h => by apply touches_result (h := h) <;> decide
  | cfgStage => dsimp only [touches]; exact touches_go_current e fun _ _ h => by apply touches_cfgStage (h := h) <;> decide
  | cfgCommit => dsimp only [touches]; exact touches_go_current e fun _ _ h => by apply touches_cfgCommit (h := h) <;> decide
  | flashOpComplete ok => dsimp only [touches]; exact touches_go e (by apply touches_flashOpComplete (h := touches_begin _ _) <;> decide)
  | cfgRead => dsimp only [touches]; exact touches_go_current e fun _ _ h => by apply touches_cfgRead (h := h) <;> decide
  | timeGet => dsimp only [touches]; exact touches_go_current e fun _ _ h => by apply touches_timeGet (h := h) <;> decide
  | step => dsimp only [touches]; exact touches_go_current e fun _ _ h => by apply touches_stepCmd <;> simp [h]
  | solGet => dsimp only [touches]; exact touches_go_current e fun _ _ h => by apply touches_solGet (h := h) <;> decide
  | navGet => dsimp only [touches]; exact touches_go_current e fun _ _ h => by apply touches_navGet (h := h) <;> decide
  | timRecords => dsimp only [touches]; exact touches_go_current e fun _ _ h => by apply touches_timRecords (h := h) <;> decide
  | svcSet => dsimp only [touches]; exact touches_go_current e fun _ _ h => by apply touches_svcSet <;> simp [h]
  | svcGet => dsimp only [touches]; exact touches_go_current e fun _ _ h => by apply touches_svcGet (h := h) <;> decide
  | keyLoad => dsimp only [touches]; exact touches_go_current e fun _ _ h => by apply touches_keyLoad (h := h) <;> decide
  | keyPromote => dsimp only [touches]; exact touches_go_current e fun _ _ h => by apply touches_keyPromote (h := h) <;> decide
  | keyRetire => dsimp only [touches]; exact touches_go_current e fun _ _ h => by apply touches_keyRetire (h := h) <;> decide
  | keyStatus => dsimp only [touches]; exact touches_go_current e fun _ _ h => by apply touches_keyStatus (h := h) <;> decide
  | cstLookup => dsimp only [touches]; exact touches_go_current e fun _ _ h => by apply touches_cstLookup (h := h) <;> decide
  | cstRemove => dsimp only [touches]; exact touches_go_current e fun _ _ h => by apply touches_cstRemove (h := h) <;> decide
  | cstDump => dsimp only [touches]; exact touches_go_current e fun _ _ h => by apply touches_cstDump (h := h) <;> decide
  | grantRead => dsimp only [touches]; exact touches_go_current e fun _ _ h => by apply touches_grantRead (h := h) <;> decide
  | relay => dsimp only [touches]; exact touches_go_current e fun _ _ h => by apply touches_relayCmd (h := h) <;> decide
  | handover => dsimp only [touches]; exact touches_go_current e fun _ _ h => by apply touches_handoverCmd (h := h) <;> decide
  | resetCmd => dsimp only [touches]; exact touches_go_current e fun _ _ h => by apply touches_resetCommand (h := h) <;> decide
  | watchRun => dsimp only [touches]; exact touches_go_current e fun _ _ h => by apply touches_watchRun (h := h) <;> decide
  | logRead => dsimp only [touches]; exact touches_go_current e fun _ _ h => by apply touches_logRead (h := h) <;> decide
  | hoursSet => dsimp only [touches]; exact touches_go_current e fun _ _ h => by apply touches_hoursCmd <;> simp [h]
  | commandComplete id => dsimp only [touches]; exact touches_go e (by apply touches_commandComplete (h := touches_begin _ _) <;> decide)
  | commandTimeout id => dsimp only [touches]; exact touches_go e (by apply touches_commandTimeout (h := touches_begin _ _) <;> decide)
  | arbiterEval demand temp die => dsimp only [touches]; exact touches_go e (by apply touches_arbiterEval (h := touches_begin _ _) <;> decide)
  | arbiterRestore demand => dsimp only [touches]; exact touches_go e (by apply touches_arbiterRestore (h := touches_begin _ _) <;> decide)
  | islandWake ix => dsimp only [touches]; exact touches_go e (by apply touches_islandWake (h := touches_begin _ _) <;> decide)
  | powerOnReset lowNs rises => dsimp only [touches]; exact touches_go e (by apply touches_porLow <;> simp)
  | supplyDip us => dsimp only [touches]; exact touches_execSupplyDip e
  | watchdogExpire => dsimp only [touches]; exact touches_go e (by apply touches_watchdogExpire <;> simp)
  | rstGo w => dsimp only [touches]; exact touches_go e (by apply touches_writeRstCtl <;> simp)
  | resetBegin => dsimp only [touches]; exact touches_go e (by apply touches_resetBegin <;> simp)
  | functionReset fn => dsimp only [touches]; exact touches_go e (by apply touches_beginFlr <;> simp)
  | perst => dsimp only [touches]; exact touches_go e (by apply touches_perst <;> simp)
  | bootImageSelect sfdp => dsimp only [touches]; exact touches_go e (by apply touches_bootImageSelect (h := touches_begin _ _) <;> decide)
  | firmwareRun => dsimp only [touches]; exact touches_go e (by apply touches_firmwareRun (h := touches_begin _ _) <;> decide)
  | imageApply => dsimp only [touches]; exact touches_go e (by apply touches_imageApply <;> simp)
  | resetComplete => dsimp only [touches]; exact touches_go e (by apply touches_resetComplete <;> simp)
  | pctSelect c w => dsimp only [touches]; exact touches_execPctSelect e
  | pctRead c reader => dsimp only [touches]; exact touches_execPctRead e
  | pctOvfClear c => dsimp only [touches]; exact touches_execPctOvfClear e
  | eccError a word corrected => dsimp only [touches]; exact touches_go e (by apply touches_eccError <;> simp)
  | watchTestEnd bad measure => dsimp only [touches]; exact touches_go e (by apply touches_watchTestEnd (h := touches_begin _ _) <;> decide)
  | watchTestBound => dsimp only [touches]; exact touches_go e (by apply touches_watchTestBound (h := touches_begin _ _) <;> decide)
  | tapInstruction op => dsimp only [touches]; exact touches_go e (by apply touches_tapOp <;> simp)
  | forbiddenAccess addr w => dsimp only [touches]; exact touches_hostAccess e
  | offWindowAccess addr w => dsimp only [touches]; exact touches_hostAccess e
  | rcRead fn addr => dsimp only [touches]; exact touches_hostAccess (w := none) e
  | registerWrite fn addr w => dsimp only [touches]; exact touches_hostAccess (w := some w.toNat) e
  | faultEnd p rem => dsimp only [touches]; exact touches_go e (by apply touches_faultEnd (h := touches_begin _ _) <;> decide)
  | mooringFrameErr l => dsimp only [touches]; exact touches_go e (by apply touches_mooringFrameErr (h := touches_begin _ _) <;> decide)
  | tenderCrcErr => dsimp only [touches]; exact touches_go e (by apply touches_tenderCrcErr (h := touches_begin _ _) <;> decide)
  | pePerstNRise => dsimp only [touches]; exact touches_go e (by apply touches_perstRise (h := touches_begin _ _) <;> decide)
  | watchTestStart => dsimp only [touches]; exact touches_go e (by apply touches_watchTestStart (h := touches_begin _ _) <;> decide)

end Sys2Proof.Machine
end

section
/-! PROOFS. Frames, further: what updates of single parts of the state, waits and the ports' completions add to one. -/

namespace Sys2Proof.Machine

variable {fs : List Field} {ps : List Part} {s₀ s t : State}

theorem Frame.trans {u : State} (h : Frame fs ps s t) (k : Frame fs ps t u) : Frame fs ps s u :=
  ⟨fun f hf hs => (k.1 f hf hs).trans (h.1 f hf hs), fun p hp hr => by
    have a := h.2.1 p hp hr
    have b := k.2.1 p hp hr
    cases p <;> first | exact b.trans a | exact fun x => (b x).trans (a x) | (cases hr),
    h.2.2.1.trans k.2.2.1, h.2.2.2.1.trans k.2.2.2.1, k.2.2.2.2.trans h.2.2.2.2⟩

/-! ### Updates of the record -/

theorem frame_set_ens {x : Ens} (hp : Part.ens ∈ ps) (h : Frame fs ps s₀ s) : Frame fs ps s₀ { s with ens := x } :=
  ⟨h.1, fun p hq hr => by have := h.2.1 p hq hr; cases p <;> first | exact this | contradiction, h.2.2⟩

theorem frame_set_rfm {x : IMap RfmPort} (hp : Part.rfm ∈ ps) (h : Frame fs ps s₀ s) : Frame fs ps s₀ { s with rfm := x } :=
  ⟨h.1, fun p hq hr => by have := h.2.1 p hq hr; cases p <;> first | exact this | contradiction, h.2.2⟩

theorem frame_set_tim {x : Tim} (hp : Part.tim ∈ ps) (h : Frame fs ps s₀ s) : Frame fs ps s₀ { s with tim := x } :=
  ⟨h.1, fun p hq hr => by have := h.2.1 p hq hr; cases p <;> first | exact this | contradiction, h.2.2⟩

theorem frame_set_gnss {x : Gnss} (hp : Part.gnss ∈ ps) (h : Frame fs ps s₀ s) : Frame fs ps s₀ { s with gnss := x } :=
  ⟨h.1, fun p hq hr => by have := h.2.1 p hq hr; cases p <;> first | exact this | contradiction, h.2.2⟩

theorem frame_set_log {x : IMap LogRec} (hp : Part.log ∈ ps) (h : Frame fs ps s₀ s) : Frame fs ps s₀ { s with log := x } :=
  ⟨h.1, fun p hq hr => by have := h.2.1 p hq hr; cases p <;> first | exact this | contradiction, h.2.2⟩

theorem frame_set_srv {x : Served} (hp : Part.srv ∈ ps) (h : Frame fs ps s₀ s) : Frame fs ps s₀ { s with srv := x } :=
  ⟨h.1, fun p hq hr => by have := h.2.1 p hq hr; cases p <;> first | exact this | contradiction, h.2.2⟩

theorem frame_set_rings {x : IMap Ring} (hp : Part.rings ∈ ps) (h : Frame fs ps s₀ s) : Frame fs ps s₀ { s with rings := x } :=
  ⟨h.1, fun p hq hr => by have := h.2.1 p hq hr; cases p <;> first | exact this | contradiction, h.2.2⟩

theorem frame_set_stack {x : Stack} (hp : Part.stack ∈ ps) (h : Frame fs ps s₀ s) : Frame fs ps s₀ { s with stack := x } :=
  ⟨h.1, fun p hq hr => by have := h.2.1 p hq hr; cases p <;> first | exact this | contradiction, h.2.2⟩

theorem frame_set_mbx {x : IMap Mbx} (hp : Part.mbx ∈ ps) (h : Frame fs ps s₀ s) : Frame fs ps s₀ { s with mbx := x } :=
  ⟨h.1, fun p hq hr => by have := h.2.1 p hq hr; cases p <;> first | exact this | contradiction, h.2.2⟩

theorem frame_set_pcie {x : Pcie} (hp : Part.pcie ∈ ps) (h : Frame fs ps s₀ s) : Frame fs ps s₀ { s with pcie := x } :=
  ⟨h.1, fun p hq hr => by have := h.2.1 p hq hr; cases p <;> first | exact this | contradiction, h.2.2⟩

theorem frame_set_watch {x : Watch} (hp : Part.watch ∈ ps) (h : Frame fs ps s₀ s) : Frame fs ps s₀ { s with watch := x } :=
  ⟨h.1, fun p hq hr => by have := h.2.1 p hq hr; cases p <;> first | exact this | contradiction, h.2.2⟩

theorem frame_set_power {x : Power} (hp : Part.power ∈ ps) (h : Frame fs ps s₀ s) : Frame fs ps s₀ { s with power := x } :=
  ⟨h.1, fun p hq hr => by have := h.2.1 p hq hr; cases p <;> first | exact this | contradiction, h.2.2⟩

theorem frame_set_rst {x : Rst} (hp : Part.rst ∈ ps) (h : Frame fs ps s₀ s) : Frame fs ps s₀ { s with rst := x } :=
  ⟨h.1, fun p hq hr => by have := h.2.1 p hq hr; cases p <;> first | exact this | contradiction, h.2.2⟩

theorem frame_set_cfg {x : Cfg} (hp : Part.cfg ∈ ps) (h : Frame fs ps s₀ s) : Frame fs ps s₀ { s with cfg := x } :=
  ⟨h.1, fun p hq hr => by have := h.2.1 p hq hr; cases p <;> first | exact this | contradiction, h.2.2⟩

theorem frame_wr_side {f : Field} {v : Nat} (hf : f.side = true) (h : Frame fs ps s₀ s) : Frame fs ps s₀ (s.wr f v) :=
  ⟨fun g hg hs => (rd_wr_ne _ _ fun e => by
      rw [Field.side, e, ← Field.side, hf] at hs
      cases hs).trans (h.1 g hg hs),
    fun p hp hr => by have := h.2.1 p hp hr; cases p <;> first | exact this | (cases hr), h.2.2⟩

theorem frame_post {fn vec : Nat} (h : Frame fs ps s₀ s) : Frame fs ps s₀ (s.post fn vec) := by
  unfold State.post
  exact frame_ite (frame_wr_side (sideKey_pba _) h) (frame_emit h)

/-! ### Time -/

@[simp] theorem advance_lanes (s : State) (m : Nat) : (s.advance m).lanes = s.lanes.map (fun p => (p.1, p.2.run m)) := by
  obtain ⟨t, -, e⟩ := advance_counted s m
  rw [e]

/-! ### Ports and rings -/

theorem frame_modPort {p : Nat} {f : Port → Port} (hs : Part.srv ∈ ps) (h : Frame fs ps s₀ s) : Frame fs ps s₀ (s.modPort p f) :=
  frame_set_srv hs h

theorem frame_modRing {q : Nat} {f : Ring → Ring} (hr : Part.rings ∈ ps) (h : Frame fs ps s₀ s) : Frame fs ps s₀ (s.modRing q f) :=
  frame_set_rings hr h

theorem frame_bumpStat {key event unit n : Nat} (hs : Part.srv ∈ ps) (h : Frame fs ps s₀ s) :
    Frame fs ps s₀ (bumpStat key event unit n s) := frame_ite h (frame_count (frame_set_srv hs h))

theorem frame_mac {p i n : Nat} (hs : Part.srv ∈ ps) (h : Frame fs ps s₀ s) : Frame fs ps s₀ (mac p i n s) := frame_bumpStat hs h

/-- The fields a completed descriptor of ring `q` may move: HEAD and QUIESCED. -/
def drainFields (q : Nat) : List Field := [R.HRG_RING_HEAD_HEAD q, R.HRG_RING_CFG_QUIESCED q]

theorem frame_ringMsi {q : Nat} (hr : Part.rings ∈ ps) (h : Frame fs ps s₀ s) : Frame fs ps s₀ (ringMsi q s) :=
  frame_post (frame_modRing hr h)

theorem frame_writeBack {q idx : Nat} {b : List Nat} (hf : R.HRG_RING_HEAD_HEAD q ∈ fs) (hr : Part.rings ∈ ps) (h : Frame fs ps s₀ s) :
    Frame fs ps s₀ (writeBack q idx b s) := by
  have hw : ∀ (v : Nat) (f : Ring → Ring), Frame fs ps s₀ (((s.emit (.dma (s.ringBase q + idx * 32) b)).wr (R.HRG_RING_HEAD_HEAD q) v).modRing q f) :=
    fun v f => frame_modRing hr (frame_wr hf (frame_emit h))
  exact frame_ite (frame_ringMsi hr (hw _ _)) (hw _ _)

theorem frame_freeStamp {q : Nat} {d : RingDesc} (hs : Part.srv ∈ ps) (h : Frame fs ps s₀ s) : Frame fs ps s₀ (freeStamp q d s) := by
  unfold freeStamp
  split
  · exact h
  · exact frame_modPort hs h

theorem frame_drainList {q : Nat} (hf : R.HRG_RING_HEAD_HEAD q ∈ fs) (hr : Part.rings ∈ ps) (hs : Part.srv ∈ ps) :
    ∀ (l : List RingDesc) {s : State}, Frame fs ps s₀ s → Frame fs ps s₀ (drainList q l s)
  | [], _, h => frame_modRing hr h
  | d :: l, s, h => by
    unfold drainList
    split
    · exact frame_modRing hr h
    · exact frame_drainList hf hr hs l (frame_writeBack hf hr (frame_freeStamp hs h))

theorem frame_drain {q : Nat} (hf : ∀ f ∈ drainFields q, f ∈ fs) (hr : Part.rings ∈ ps) (hs : Part.srv ∈ ps) (h : Frame fs ps s₀ s) :
    Frame fs ps s₀ (drain q s) := by
  have hd := frame_drainList (q := q) (hf _ (by simp [drainFields])) hr hs (s.ring q).out h
  exact frame_ite (frame_hi (hf _ (by simp [drainFields])) hd) hd

theorem frame_finishDesc {q idx : Nat} {back : RingDesc → RingDesc} (hf : ∀ f ∈ drainFields q, f ∈ fs) (hr : Part.rings ∈ ps)
    (hs : Part.srv ∈ ps) (h : Frame fs ps s₀ s) : Frame fs ps s₀ (finishDesc q idx back s) :=
  frame_drain hf hr hs (frame_modRing hr h)

/-! ### What ends on the ports -/

/-- The fields that what ends on the ports may move: HEAD and QUIESCED of every ring. -/
def endedFields : List Field := (List.range 258).flatMap drainFields

theorem drainFields_ended (q : Nat) : ∀ f ∈ drainFields q, f ∈ endedFields := by
  have hm : drainFields q = drainFields (q % 258) := by simp [drainFields, R.HRG_RING_HEAD_HEAD, R.HRG_RING_CFG_QUIESCED]
  exact fun f hf => List.mem_flatMap.2 ⟨q % 258, by simp; omega, hm ▸ hf⟩

theorem frame_finishFlight {p : Nat} {v : Flight} (hs : Part.srv ∈ ps) (h : Frame fs ps s₀ s) : Frame fs ps s₀ (finishFlight p v s) := by
  unfold finishFlight sendPart
  dsimp only
  split <;> (repeat' apply frame_mac hs) <;> exact frame_emit (frame_modPort hs h)

theorem frame_leaveBall {p now : Nat} (hs : Part.srv ∈ ps) (h : Frame fs ps s₀ s) : Frame fs ps s₀ (leaveBall p now s) :=
  frame_foldl (frame_modPort hs h) fun _ _ _ h => frame_finishFlight hs h

section
variable (hf : ∀ q, ∀ f ∈ drainFields q, f ∈ fs) (hs : Part.srv ∈ ps) (hr : Part.rings ∈ ps)
include hf hs hr

theorem frame_endFlight {p : Nat} {v : Flight} (h : Frame fs ps s₀ s) : Frame fs ps s₀ (endFlight p v s) := by
  unfold endFlight
  dsimp only
  split
  · exact frame_finishDesc (hf _) hr hs (frame_modPort hs h)
  · exact frame_modPort hs h

theorem frame_settleTo {p x : Nat} (h : Frame fs ps s₀ s) : Frame fs ps s₀ (settleTo p x s) := by
  unfold settleTo
  dsimp only
  have hheld : ∀ n (f : Port → Port), Frame fs ps s₀ (if s.pauseHeld p = true then mac p 48 n (s.modPort p f) else s) :=
    fun n f => frame_ite (frame_mac hs (frame_modPort hs h)) h
  refine frame_leaveBall hs ?_
  split
  · exact frame_modPort hs (hheld _ _)
  · exact frame_ite (frame_endFlight hf hs hr (frame_modPort hs (hheld _ _))) (frame_modPort hs (hheld _ _))

theorem frame_settle {p : Nat} (h : Frame fs ps s₀ s) : Frame fs ps s₀ (settle p s) := frame_settleTo hf hs hr h

theorem frame_settleAll (h : Frame fs ps s₀ s) : Frame fs ps s₀ (settleAll s) :=
  frame_foldl h fun _ _ _ h => frame_settle hf hs hr h

theorem frame_settleEnded (h : Frame fs ps s₀ s) : Frame fs ps s₀ (settleEnded s) :=
  frame_foldl h fun _ _ _ h => frame_ite (frame_settle hf hs hr h) h

end

/-- Where nothing has ended on a port, there is nothing to complete. -/
theorem settleEnded_of_none (h : ∀ p, s.ended p = false) : settleEnded s = s := by
  have key : ∀ l : IMap Port, l.foldl (fun s e => if s.ended e.1 then settle e.1 s else s) s = s := by
    intro l
    induction l with
    | nil => rfl
    | cons e l ih => rw [List.foldl_cons, if_neg (by simp [h]), ih]
  exact key _

end Sys2Proof.Machine
end

section
/-! PROOFS. What every step keeps and what may stop one (O1 to O8). -/

namespace Sys2Proof.Machine

/-- Settles O7: each row touches what its operation touches. -/
theorem commandsTouchTheirOwnParts : Obligations.CommandsTouchTheirOwnParts := fun _ _ _ e => touches_exec e

/-! ### A step -/

theorem step_of_cons {s : State} {c : Instr} {q : List Instr} (h : s.pending = c :: q) :
    step s = Sys2Proof.Machine.exec c { s with pending := q } := by rw [step, h]

theorem step_of_nil {s : State} (h : s.pending = []) : step s = .next (idle s) := by rw [step, h]

/-- Settles O1: `step` takes the front of the queue. -/
theorem stepTakesTheFrontCommand : Obligations.StepTakesTheFrontCommand := fun _ _ _ => step_of_cons rfl

/-- What an idle tick touches. -/
theorem idle_touches (s : State) : Touches [.tick, .lanes, .srv, .rings, .regs .ring] s (idle s) := by apply touches_idle <;> simp

theorem idle_pending (s : State) : (idle s).pending = s.pending := by
  have h := frame_settleEnded drainFields_ended (ps := [.srv, .rings]) (by simp) (by simp) (Frame.refl _ _ (s.advance 1))
  rw [idle, (counted_countEdges _ _).pending, h.2.2.2.2, advance_pending]

/-- Settles O2: an idle tick is one tick of the tick domain and the lanes, and then what has ended on the ports. -/
theorem idleStepIsOneTick : Obligations.IdleStepIsOneTick := by
  intro s h
  have hk := counted_countEdges s (settleEnded (s.advance 1))
  have hs := frame_settleEnded drainFields_ended (ps := [.srv, .rings]) (by simp) (by simp) (Frame.refl _ _ (s.advance 1))
  have htick : (idle s).tick = (s.advance 1).tick := hk.tick.trans (hs.2.1 .tick (by simp) rfl)
  have hlanes : (idle s).lanes = (s.advance 1).lanes := hk.lanes.trans (hs.2.1 .lanes (by simp) rfl)
  refine ⟨idle s, step_of_nil h, ?_, ?_, ?_, ?_, fun hnone => ?_, idle_touches s⟩
  · rw [htick, advance_tick]
  · rw [htick, advance_tick]
  · rw [htick, advance_tick]; simp only [State.on, decide_eq_true_eq]
  · rw [hlanes, advance_lanes]
  · rw [settleEnded_of_none hnone] at hk
    rw [idle, settleEnded_of_none hnone]
    exact frame_counted (frame_advance (by simp) (by simp) (Frame.refl _ _ s)) hk

/-- Settles O8: a register file with nothing listed reads every field's reset value. -/
theorem resetState : Obligations.ResetState := by
  have hreset : ∀ f : Field, State.reset.rd f = f.reset % 2 ^ f.width := fun f =>
    congrArg (· % 2 ^ f.width) (Nat.zero_xor f.reset)
  refine ⟨hreset, rfl, rfl, rfl, rfl, rfl, rfl, rfl, by decide, by decide, by decide, by decide, by decide, rfl, ⟨rfl, rfl⟩, nofun⟩

/-- Settles O6: what touches no other part keeps the canonical form too, and both a command and an idle tick are such. -/
theorem stepKeepsForm : Obligations.StepKeepsForm := by
  intro s t h e
  cases hq : s.pending with
  | nil =>
    rw [step_of_nil hq] at e
    cases e
    exact (idle_touches s).2 h
  | cons c q =>
    rw [step_of_cons hq] at e
    exact (touches_exec e).2 h

/-! ### Which commands complete -/

/-- A command without an offset goes on, from every state, and leaves the queue as it found it. -/
theorem exec_goes_on {i : Instr} (h : addressOf i = none) (s : State) :
    ∃ t, Sys2Proof.Machine.exec i s = .next t ∧ t.pending = s.pending := by
  cases i
  case forbiddenAccess | offWindowAccess | rcRead | registerWrite => cases h
  all_goals exact ⟨_, rfl, rfl⟩

/-- A command with an offset is an access of a function there. -/
theorem exec_accesses {i : Instr} {a : Nat} (h : addressOf i = some a) (s : State) :
    ∃ fn w, Sys2Proof.Machine.exec i s = hostAccess fn a w s := by
  cases i
  case forbiddenAccess b w => cases h; exact ⟨0, w.map (·.toNat), rfl⟩
  case offWindowAccess b w => cases h; exact ⟨1, w.map (·.toNat), rfl⟩
  case rcRead fn b => cases h; exact ⟨fn.val, none, rfl⟩
  case registerWrite fn b w => cases h; exact ⟨fn.val, some w.toNat, rfl⟩
  all_goals cases h

theorem hostAccess_of_beyond {a : Nat} (fn : Nat) (w : Option Nat) (s : State) (h : 0x9000000 ≤ a) :
    hostAccess fn a w s = .fault (.noSuchAddress a) := if_pos h

theorem hostAccess_of_inside {a : Nat} (fn : Nat) (w : Option Nat) (s : State) (h : a < 0x9000000) :
    ∃ t, hostAccess fn a w s = .next t ∧ t.pending = s.pending := by
  unfold hostAccess
  rw [if_neg (by omega)]
  cases w <;> exact ⟨_, rfl, rfl⟩

/-- Settles O3: a command without an offset goes on, and so does an access within the BARs. -/
theorem everyCommandCompletes : Obligations.EveryCommandCompletes := by
  intro i s h
  cases ha : addressOf i with
  | none => exact exec_goes_on ha s
  | some a =>
    obtain ⟨fn, w, he⟩ := exec_accesses ha s
    rw [he]
    exact hostAccess_of_inside fn w s (h a ha)

/-- Settles O4: a row without an offset goes on; one with an offset is an access, which stops beyond the BARs alone. -/
theorem stopsAreBeyondTheBars : Obligations.StopsAreBeyondTheBars := by
  have hstop : ∀ {i : Instr} {a : Nat} (s : State), addressOf i = some a → 0x9000000 ≤ a →
      Sys2Proof.Machine.exec i s = .fault (.noSuchAddress a) := by
    intro i a s ha hb
    obtain ⟨fn, w, he⟩ := exec_accesses ha s
    rw [he, hostAccess_of_beyond fn w s hb]
  refine ⟨fun i s => ?_, fun i s a ha hb => hstop s ha hb⟩
  by_cases hin : inBars i
  · obtain ⟨t, e, -⟩ := everyCommandCompletes i s hin
    rw [e]
    exact ⟨nofun, nofun⟩
  · simp only [inBars, not_forall, not_lt] at hin
    obtain ⟨a, ha, hb⟩ := hin
    rw [hstop s ha hb]
    exact ⟨nofun, fun f e => ⟨a, ha, hb, by cases e; rfl⟩⟩

/-- Settles O5: the front command completes and leaves the rest of the queue, an idle tick an empty one. -/
theorem answerableQueueStays : Obligations.AnswerableQueueStays := by
  intro s h
  cases hq : s.pending with
  | nil =>
    exact ⟨_, step_of_nil hq, by rw [State.Answerable, idle_pending, hq]; exact nofun⟩
  | cons c q =>
    rw [State.Answerable, hq] at h
    obtain ⟨t, e, hp⟩ := everyCommandCompletes c { s with pending := q } (h c List.mem_cons_self)
    refine ⟨t, (step_of_cons hq).trans e, fun i hi => h i (List.mem_cons_of_mem _ ?_)⟩
    rwa [hp] at hi

end Sys2Proof.Machine
end

section
/-! PROOFS. How a row ends, as one fact about the state it answers, and what a written register reads as. -/

namespace Sys2Proof.Machine

/-! ### The end of a row -/

/-- `t` is how a command from `s` whose effect leaves `u` ends: every register but the counters' own and every part reads as in `u`, and what
is framed from `s` to `u` is framed to `t`. -/
structure Ended (s u t : State) : Prop where
  rd : ∀ {g : Field}, g.side = false → t.rd g = u.rd g
  same : ∀ p : Part, p.isRegs = false → p.same u t
  frame : ∀ {fs : List Field} {ps : List Part}, Frame fs ps s u → Frame fs ps s t
  touches : ∀ {ps : List Part}, Touches ps s u → Touches ps s t
  out : u.out <:+ t.out

/-- A command that goes on ends as its effect leaves it. -/
theorem go_ended (f : State → State) (s : State) : ∃ t, go f s = .next t ∧ Ended s (f s.begin) t := by
  obtain ⟨t, e, hrd, hsame, hframe, hout⟩ := go_spec f s
  exact ⟨t, e, fun hg => hrd _ hg, hsame, fun h => hframe _ _ h, fun h => touches_go e h, hout⟩

/-- The same, the effect written out. -/
theorem go_ended_of {f : State → State} {s u : State} (h : f s.begin = u) : ∃ t, go f s = .next t ∧ Ended s u t := h ▸ go_ended f s

namespace Ended

variable {s u t : State}

theorem mem (k : Ended s u t) (a : Nat) : readByte t.mem a = readByte u.mem a := k.same .mem rfl a
theorem tick (k : Ended s u t) : t.tick = u.tick := k.same .tick rfl
theorem lanes (k : Ended s u t) : t.lanes = u.lanes := k.same .lanes rfl
theorem ens (k : Ended s u t) : t.ens = u.ens := k.same .ens rfl
theorem rfm (k : Ended s u t) : t.rfm = u.rfm := k.same .rfm rfl
theorem tim (k : Ended s u t) : t.tim = u.tim := k.same .tim rfl
theorem gnss (k : Ended s u t) : t.gnss = u.gnss := k.same .gnss rfl
theorem log (k : Ended s u t) : t.log = u.log := k.same .log rfl
theorem srv (k : Ended s u t) : t.srv = u.srv := k.same .srv rfl
theorem rings (k : Ended s u t) : t.rings = u.rings := k.same .rings rfl
theorem stack (k : Ended s u t) : t.stack = u.stack := k.same .stack rfl
theorem mbx (k : Ended s u t) : t.mbx = u.mbx := k.same .mbx rfl
theorem fw (k : Ended s u t) : t.fw = u.fw := k.same .fw rfl
theorem pcie (k : Ended s u t) : t.pcie = u.pcie := k.same .pcie rfl
theorem watch (k : Ended s u t) : t.watch = u.watch := k.same .watch rfl
theorem power (k : Ended s u t) : t.power = u.power := k.same .power rfl
theorem rst (k : Ended s u t) : t.rst = u.rst := k.same .rst rfl
theorem cfg (k : Ended s u t) : t.cfg = u.cfg := k.same .cfg rfl

end Ended

/-! ### Fields outside a frame, and written registers (R10) -/

/-- A field outside a frame reads as before. -/
theorem Frame.rd {fs : List Field} {ps : List Part} {s t : State} (h : Frame fs ps s t) {g : Field} (hg : ∀ f ∈ fs, g.key ≠ f.key)
    (hs : g.side = false) : t.rd g = s.rd g := h.1 g hg hs

/-- No field below the counters' own is one of theirs. -/
theorem Field.side_of_low {f : Field} (h : f.key < 0x2600000) : f.side = false := by
  unfold Field.side sideKey
  simp only [List.mem_cons, List.not_mem_nil, or_false, Bool.or_eq_false_iff, decide_eq_false_iff_not]
  omega

/-- Nor is one between them and the pending bits of the functions' messages. -/
theorem Field.side_of_mid {f : Field} (h : 0x2601000 ≤ f.key ∧ f.key < 0x102018000) : f.side = false := by
  unfold Field.side sideKey
  simp only [List.mem_cons, List.not_mem_nil, or_false, Bool.or_eq_false_iff, decide_eq_false_iff_not]
  omega

theorem rd_lt (s : State) (f : Field) : s.rd f < 2 ^ f.width := Nat.mod_lt _ (Nat.two_pow_pos _)

theorem Field.of_mod (f : Field) (w : Nat) : f.of w % 2 ^ f.width = f.of w := Nat.mod_mod _ _

/-- What a field reads as once a word is stored in it. -/
theorem rd_storeField_same (s : State) (l : Bool) (w : Nat) (f : Field) : (State.storeField l w s f).rd f = stored l f (s.rd f) w := by
  have hand : ∀ n, (s.rd f &&& n) % 2 ^ f.width = s.rd f &&& n := fun n =>
    Nat.mod_eq_of_lt (lt_of_le_of_lt Nat.and_le_left (rd_lt s f))
  unfold State.storeField stored
  cases f.acc <;> cases l <;> simp [hand, f.of_mod]

/-- A field of a written register holds what its access code stores (R10). -/
theorem rd_storeReg_mem (s : State) (l : Bool) (r : Register) (w : Nat) {f : Field} (hf : f ∈ r.fields)
    (hn : r.fields.Pairwise fun a b => a.key ≠ b.key) : (s.storeReg l r w).rd f = stored l f (s.rd f) w := by
  obtain ⟨a, fs⟩ := r
  induction fs generalizing s with
  | nil => cases hf
  | cons x fs ih =>
    obtain ⟨hx, hn⟩ := List.pairwise_cons.1 hn
    rcases List.mem_cons.1 hf with rfl | hf
    · exact (rd_storeReg_ne _ l ⟨a, fs⟩ w hx).trans (rd_storeField_same s l w f)
    · have hkey : f.key ≠ x.key := (hx f hf).symm
      have hstep : (State.storeField l w s x).rd f = s.rd f := rd_storeReg_ne s l ⟨a, [x]⟩ w (by simpa using hkey)
      exact (ih _ hf hn).trans (congrArg (stored l f · w) hstep)

end Sys2Proof.Machine
end

section
/-! PROOFS. Slews (R52-R54): a write of TSC_SLEW_CTL, and a slew that completes. -/

namespace Sys2Proof.Machine

variable {b : Bank}

/-- Setting a bit at or above a field leaves the field's value in the word. -/
theorem Field.of_setIn_below (f g : Field) (w : Nat) (h : f.lsb + f.width ≤ g.lsb) : f.of (g.setIn w) = f.of w := by
  unfold Field.setIn Field.of
  split
  · rfl
  · obtain ⟨c, hc⟩ := Nat.exists_eq_add_of_le h
    rw [hc, Nat.add_assoc, Nat.pow_add, Nat.add_mul_div_left _ _ (Nat.two_pow_pos _), Nat.pow_add, Nat.add_mul_mod_self_left]

/-- What the start of a command does is nothing to the tick domain's advance. -/
theorem begin_advance_tick (s : State) (m : Nat) : (s.begin.advance m).tick = (s.advance m).tick := by
  have hon : s.begin.on R.TSC_CTL_TS1_EN = s.on R.TSC_CTL_TS1_EN := rfl
  have hstretch : s.begin.stretch = s.stretch := rfl
  rw [advance_tick, advance_tick, begin_tick, hon, hstretch]

@[simp] theorem setBank_setBank (k : Tick) (b : Bank) (x y : TickBank) : (k.setBank b x).setBank b y = k.setBank b y := by cases b <;> rfl

/-! ### The write of TSC_SLEW_CTL -/

/-- The fields of TSC_SLEW_CTL that take bits of a written word (R10). -/
def slewCtlStored (b : Bank) : List Field :=
  [R.TSC_SLEW_CTL_DONE (bankNo b), R.TSC_SLEW_CTL_ABORTED (bankNo b), R.TSC_SLEW_CTL_REJECTED (bankNo b), R.TSC_SLEW_CTL_IGNORED (bankNo b)]

/-- What decides on a GO and what it asks for. -/
def slewInputs (b : Bank) : List Field :=
  [R.TSC_SLEW_OFS_LO_OFS (bankNo b), R.TSC_SLEW_OFS_HI_OFS (bankNo b), R.TSC_SLEW_DUR_DUR (bankNo b), R.TSC_CTL_SLEW_MAX,
   R.TSC_SWITCH_CTL_ACTIVE, R.TSC_CTL_OWN0, R.TSC_CTL_OWN1]

/-- The fields a write of TSC_SLEW_CTL may change: its own, and the remainder of the slew it ends. -/
def slewFields (b : Bank) : List Field :=
  R.TSC_SLEW_LEFT_LO_LEFT (bankNo b) :: R.TSC_SLEW_LEFT_HI_LEFT (bankNo b) :: (Reg.TSC_SLEW_CTL (bankNo b)).fields

/-- The state once TSC_SLEW_CTL has been written and its ABORT has acted. -/
def State.slewWritten (s : State) (b : Bank) (w : Nat) : State :=
  let u := s.storeReg false (Reg.TSC_SLEW_CTL (bankNo b)) w
  if (R.TSC_SLEW_CTL_ABORT (bankNo b)).of w = 1 then abortSlew b u else u

section
variable {fs : List Field} {ps : List Part} {s₀ s : State} {w : Nat}

theorem frame_slewStored (hf : ∀ f ∈ slewCtlStored b, f ∈ fs) (h : Frame fs ps s₀ s) :
    Frame fs ps s₀ (s.storeReg false (Reg.TSC_SLEW_CTL (bankNo b)) w) := by
  have hacc : ∀ f ∈ (Reg.TSC_SLEW_CTL (bankNo b)).fields, f.acc = .ro ∨ f.acc = .wo ∨ f.acc = .rc ∨ f.acc = .sc ∨ f ∈ slewCtlStored b := by
    cases b <;> decide
  exact frame_storeReg (fun f hm => (hacc f hm).imp_right (Or.imp_right (Or.imp_right (Or.imp_right (hf f))))) h

theorem frame_slewWritten (hf : ∀ f ∈ slewCtlStored b ++ slewEndFields b, f ∈ fs) (ht : Part.tick ∈ ps) (h : Frame fs ps s₀ s) :
    Frame fs ps s₀ (s.slewWritten b w) := by
  have hs := frame_slewStored (b := b) (w := w) (fun f hm => hf f (List.mem_append_left _ hm)) h
  exact frame_ite (frame_abortSlew (fun f hm => hf f (List.mem_append_right _ hm)) ht hs) hs

end

theorem rd_slewWritten_inputs (b : Bank) (w : Nat) (s : State) : ∀ g ∈ slewInputs b, (s.slewWritten b w).rd g = s.rd g := by
  have hkeys : ∀ g ∈ slewInputs b, (∀ f ∈ slewCtlStored b ++ slewEndFields b, g.key ≠ f.key) ∧ g.side = false := by cases b <;> decide
  have hframe := frame_slewWritten (b := b) (w := w) (fun _ hm => hm) (List.mem_singleton_self _) (Frame.refl _ [.tick] s)
  exact fun g hg => hframe.rd (hkeys g hg).1 (hkeys g hg).2

/-- The write leaves ACTIVE as it was, until ABORT acts. -/
theorem rd_slewStored_active (b : Bank) (w : Nat) (s : State) :
    (s.storeReg false (Reg.TSC_SLEW_CTL (bankNo b)) w).rd (R.TSC_SLEW_CTL_ACTIVE (bankNo b)) = s.rd (R.TSC_SLEW_CTL_ACTIVE (bankNo b)) :=
  (frame_slewStored (fun _ hm => hm) (Frame.refl (slewCtlStored b) [] s)).rd (by cases b <;> decide) (by cases b <;> decide)

/-! ### A slew that is aborted (R54) -/

/-- An aborted slew leaves the bank without one; its remainder is kept. -/
theorem abortSlew_running {s : State} (ha : s.rd (R.TSC_SLEW_CTL_ACTIVE (bankNo b)) = 1) :
    (abortSlew b s).tick = s.tick.setBank b { s.tick.bank b with slew := {} } ∧
      (abortSlew b s).rd (R.TSC_SLEW_CTL_ABORTED (bankNo b)) = 1 ∧ (abortSlew b s).rd (R.TSC_SLEW_CTL_ACTIVE (bankNo b)) = 0 ∧
      (abortSlew b s).rd (R.TSC_SLEW_LEFT_LO_LEFT (bankNo b)) = ofSigned 48 (s.tick.bank b).slew.left % 2 ^ 32 ∧
      (abortSlew b s).rd (R.TSC_SLEW_LEFT_HI_LEFT (bankNo b)) = ofSigned 48 (s.tick.bank b).slew.left / 2 ^ 32 % 2 ^ 16 := by
  have hon : s.on (R.TSC_SLEW_CTL_ACTIVE (bankNo b)) = true := decide_eq_true ha
  rw [abortSlew, if_pos hon]
  refine ⟨rfl, rd_hi_same _ _, (rd_hi_ne _ (by cases b <;> decide)).trans (rd_lo_same _ _),
    (rd_hi_ne _ (by cases b <;> decide)).trans ((rd_lo_ne _ (by cases b <;> decide)).trans ?_),
    (rd_hi_ne _ (by cases b <;> decide)).trans ((rd_lo_ne _ (by cases b <;> decide)).trans ?_)⟩
  · exact (rd_wr_ne _ _ (by cases b <;> decide)).trans (rd_wr_same _ _ _)
  · exact rd_wr_same _ _ _

theorem abortSlew_idle {s : State} (ha : s.rd (R.TSC_SLEW_CTL_ACTIVE (bankNo b)) ≠ 1) : abortSlew b s = s :=
  if_neg fun h => ha (of_decide_eq_true h)

/-- What an ABORT does to the bank, beside its slew: nothing. -/
theorem slewWritten_bank (b : Bank) (w : Nat) (s : State) :
    ∃ v, (s.slewWritten b w).tick = s.tick.setBank b { s.tick.bank b with slew := v } := by
  have hself : s.tick = s.tick.setBank b { s.tick.bank b with slew := (s.tick.bank b).slew } := (setBank_bank _ _).symm
  unfold State.slewWritten
  split
  · by_cases ha : (s.storeReg false (Reg.TSC_SLEW_CTL (bankNo b)) w).rd (R.TSC_SLEW_CTL_ACTIVE (bankNo b)) = 1
    · exact ⟨{}, by rw [(abortSlew_running ha).1, storeReg_tick]⟩
    · exact ⟨_, by rw [abortSlew_idle ha, storeReg_tick]; exact hself⟩
  · exact ⟨_, by rw [storeReg_tick]; exact hself⟩

/-! ### What a GO comes to (R51-R53, R61) -/

/-- What R53 and R61 refuse a slew for. -/
def State.slewBarred (s : State) (b : Bank) : Prop :=
  s.rd (R.TSC_SLEW_DUR_DUR (bankNo b)) = 0 ∨
    max 1 (min 100 (s.rd R.TSC_CTL_SLEW_MAX)) * 65536 * s.rd (R.TSC_SLEW_DUR_DUR (bankNo b)) < (s.slewOfs b).natAbs * 1000 ∨
    (b = .ts0 ∧ s.rd R.TSC_SWITCH_CTL_ACTIVE = 1) ∨ (s.tick.bank b).stepTick = some s.tick.count

theorem slewRefused_iff (s : State) (b : Bank) :
    slewRefused s b (s.slewOfs b) (s.rd (R.TSC_SLEW_DUR_DUR (bankNo b))) s.slewMaxPpm = true ↔ s.slewBarred b := by
  simp [slewRefused, State.slewBarred, State.slewMaxPpm, State.on, or_assoc]

/-- A GO of the offset and duration staged. -/
def goStaged (b : Bank) (s : State) : State := slewGo b (s.slewOfs b) (s.rd (R.TSC_SLEW_DUR_DUR (bankNo b))) s

theorem goStaged_barred {s : State} (h : s.slewBarred b) : goStaged b s = s.hi (R.TSC_SLEW_CTL_REJECTED (bankNo b)) :=
  if_pos ((slewRefused_iff s b).2 h)

theorem goStaged_starts {s : State} (h : ¬s.slewBarred b) : goStaged b s =
    ((startSlew b (s.slewOfs b) (800 * s.rd (R.TSC_SLEW_DUR_DUR (bankNo b))) s).modBank b (fun k => { k with slewOld := s.slewBefore b })).hi
      (R.TSC_SLEW_CTL_ACTIVE (bankNo b)) := if_neg (mt (slewRefused_iff s b).1 h)

theorem slewOfs_slewWritten (b : Bank) (w : Nat) (s : State) : (s.slewWritten b w).slewOfs b = s.slewOfs b := by
  have hin := rd_slewWritten_inputs b w s
  simp only [slewInputs, List.forall_mem_cons] at hin
  rw [State.slewOfs, hin.1, hin.2.1, State.slewOfs]

/-- The write leaves whether a GO is refused. -/
theorem slewBarred_slewWritten (b : Bank) (w : Nat) (s : State) : (s.slewWritten b w).slewBarred b ↔ s.slewBarred b := by
  have hin := rd_slewWritten_inputs b w s
  simp only [slewInputs, List.forall_mem_cons] at hin
  obtain ⟨-, -, hdur, hmax, hswitch, -⟩ := hin
  obtain ⟨v, htick⟩ := slewWritten_bank b w s
  simp only [State.slewBarred, hdur, hmax, hswitch, slewOfs_slewWritten, htick, bank_setBank_same, setBank_count]

theorem ownerIs_slewWritten (b : Bank) (w : Nat) (src : Steerer) (s : State) :
    (s.slewWritten b w).ownerIs b src = s.ownerIs b src := by
  have hin := rd_slewWritten_inputs b w s
  simp only [slewInputs, List.forall_mem_cons] at hin
  obtain ⟨-, -, -, -, -, hown0, hown1, -⟩ := hin
  cases b <;> cases src <;> simp only [State.ownerIs, State.hostOwns, State.on, hown0, hown1]

/-- A write of TSC_SLEW_CTL with GO, by who writes it. -/
theorem writeSlewCtl_go (b : Bank) (src : Steerer) (w : Nat) (s : State) :
    writeSlewCtl b src ((R.TSC_SLEW_CTL_GO (bankNo b)).setIn w) s =
      let v := s.slewWritten b ((R.TSC_SLEW_CTL_GO (bankNo b)).setIn w)
      if s.ownerIs b src then goStaged b v else if src = .host then v.hi (R.TSC_SLEW_CTL_IGNORED (bankNo b)) else v := by
  rw [← ownerIs_slewWritten b ((R.TSC_SLEW_CTL_GO (bankNo b)).setIn w) src s]
  unfold writeSlewCtl
  simp only [Field.of_setIn _ w (show (R.TSC_SLEW_CTL_GO (bankNo b)).width = 1 from rfl), if_true]
  rfl

theorem abort_setIn_go (b : Bank) (w : Nat) :
    (R.TSC_SLEW_CTL_ABORT (bankNo b)).of ((R.TSC_SLEW_CTL_GO (bankNo b)).setIn w) = (R.TSC_SLEW_CTL_ABORT (bankNo b)).of w :=
  Field.of_setIn_above _ _ _ (show 0 < 1 by decide)

theorem slewWritten_kept {w : Nat} (h : (R.TSC_SLEW_CTL_ABORT (bankNo b)).of w ≠ 1) (s : State) :
    s.slewWritten b w = s.storeReg false (Reg.TSC_SLEW_CTL (bankNo b)) w := if_neg h

theorem slewWritten_aborts {w : Nat} (h : (R.TSC_SLEW_CTL_ABORT (bankNo b)).of w = 1) (s : State) :
    s.slewWritten b w = abortSlew b (s.storeReg false (Reg.TSC_SLEW_CTL (bankNo b)) w) := if_pos h

/-! ### Rows -/

/-- A GO that ends in a bit of TSC_SLEW_CTL, `f`, without ABORT: nothing but the register changes, ACTIVE not at all. -/
theorem slewFlagged {s t : State} {w : Nat} {f : Field} (hf : f ∈ [R.TSC_SLEW_CTL_REJECTED (bankNo b), R.TSC_SLEW_CTL_IGNORED (bankNo b)])
    (ha : (R.TSC_SLEW_CTL_ABORT (bankNo b)).of w ≠ 1) (k : Ended s ((s.begin.slewWritten b w).hi f) t) :
    t.rd f = 1 ∧ t.rd (R.TSC_SLEW_CTL_ACTIVE (bankNo b)) = s.rd (R.TSC_SLEW_CTL_ACTIVE (bankNo b)) ∧
      Frame (Reg.TSC_SLEW_CTL (bankNo b)).fields [] s t := by
  rw [slewWritten_kept ha] at k
  have hone : ∀ g ∈ [R.TSC_SLEW_CTL_REJECTED (bankNo b), R.TSC_SLEW_CTL_IGNORED (bankNo b)],
      g.side = false ∧ 1 % 2 ^ g.width = 1 ∧ (R.TSC_SLEW_CTL_ACTIVE (bankNo b)).key ≠ g.key ∧ g ∈ (Reg.TSC_SLEW_CTL (bankNo b)).fields := by
    cases b <;> decide
  obtain ⟨hside, hbit, hkey, hmem⟩ := hone f hf
  refine ⟨(k.rd hside).trans ((rd_hi_same _ _).trans hbit), (k.rd (by cases b <;> decide)).trans ?_,
    k.frame (frame_hi hmem (frame_slewStored (by cases b <;> decide) (frame_begin s)))⟩
  exact (rd_hi_ne _ hkey).trans (rd_slewStored_active b w s.begin)

/-- A GO that ends in a bit of TSC_SLEW_CTL, `f`, in a write with ABORT: a slew that runs is aborted all the same. -/
theorem slewFlagged_aborts {s t : State} {w : Nat} {f : Field}
    (hf : f ∈ [R.TSC_SLEW_CTL_REJECTED (bankNo b), R.TSC_SLEW_CTL_IGNORED (bankNo b)]) (ha : (R.TSC_SLEW_CTL_ABORT (bankNo b)).of w = 1)
    (k : Ended s ((s.begin.slewWritten b w).hi f) t) :
    t.rd f = 1 ∧
      (s.rd (R.TSC_SLEW_CTL_ACTIVE (bankNo b)) = 1 →
        t.tick = s.tick.setBank b { s.tick.bank b with slew := {} } ∧ t.rd (R.TSC_SLEW_CTL_ABORTED (bankNo b)) = 1 ∧
          t.rd (R.TSC_SLEW_CTL_ACTIVE (bankNo b)) = 0 ∧
          t.rd (R.TSC_SLEW_LEFT_LO_LEFT (bankNo b)) = ofSigned 48 (s.tick.bank b).slew.left % 2 ^ 32 ∧
          t.rd (R.TSC_SLEW_LEFT_HI_LEFT (bankNo b)) = ofSigned 48 (s.tick.bank b).slew.left / 2 ^ 32 % 2 ^ 16) ∧
      (s.rd (R.TSC_SLEW_CTL_ACTIVE (bankNo b)) ≠ 1 → Frame (Reg.TSC_SLEW_CTL (bankNo b)).fields [] s t ∧
        t.rd (R.TSC_SLEW_CTL_ACTIVE (bankNo b)) = s.rd (R.TSC_SLEW_CTL_ACTIVE (bankNo b))) ∧
      Frame (slewFields b) [.tick] s t := by
  have hone : ∀ g ∈ [R.TSC_SLEW_CTL_REJECTED (bankNo b), R.TSC_SLEW_CTL_IGNORED (bankNo b)],
      g.side = false ∧ 1 % 2 ^ g.width = 1 ∧ g ∈ (Reg.TSC_SLEW_CTL (bankNo b)).fields ∧ g ∈ slewFields b ∧
        ∀ e ∈ [R.TSC_SLEW_CTL_ABORTED (bankNo b), R.TSC_SLEW_CTL_ACTIVE (bankNo b), R.TSC_SLEW_LEFT_LO_LEFT (bankNo b),
          R.TSC_SLEW_LEFT_HI_LEFT (bankNo b)], e.side = false ∧ e.key ≠ g.key := by cases b <;> decide
  obtain ⟨hside, hbit, hmem, hwide, hkeys⟩ := hone f hf
  have hactive := rd_slewStored_active b w s.begin
  have hrd : ∀ e ∈ [R.TSC_SLEW_CTL_ABORTED (bankNo b), R.TSC_SLEW_CTL_ACTIVE (bankNo b), R.TSC_SLEW_LEFT_LO_LEFT (bankNo b),
      R.TSC_SLEW_LEFT_HI_LEFT (bankNo b)], t.rd e = (abortSlew b (s.begin.storeReg false (Reg.TSC_SLEW_CTL (bankNo b)) w)).rd e :=
    fun e he => (k.rd (hkeys e he).1).trans ((rd_hi_ne _ (hkeys e he).2).trans (by rw [slewWritten_aborts ha]))
  refine ⟨(k.rd hside).trans ((rd_hi_same _ _).trans hbit), fun hrun => ?_, fun hidle => ?_, k.frame (frame_hi hwide (frame_slewWritten (by cases b <;> decide) (by simp) (frame_begin s)))⟩
  · obtain ⟨htick, haborted, hoff, hlo, hhi⟩ := abortSlew_running (hactive.trans hrun)
    simp only [storeReg_tick, begin_tick] at htick hlo hhi
    refine ⟨k.tick.trans ?_, (hrd _ (by simp)).trans haborted, (hrd _ (by simp)).trans hoff, (hrd _ (by simp)).trans hlo,
      (hrd _ (by simp)).trans hhi⟩
    rw [hi_tick, slewWritten_aborts ha, htick]
  · have hkept : abortSlew b (s.begin.storeReg false (Reg.TSC_SLEW_CTL (bankNo b)) w) = _ := abortSlew_idle (hactive.trans_ne hidle)
    rw [slewWritten_aborts ha, hkept] at k
    refine ⟨k.frame (frame_hi hmem (frame_slewStored (by cases b <;> decide) (frame_begin s))), (hrd _ (by simp)).trans ?_⟩
    rw [hkept]; exact hactive

/-- The bank once a slew has started in it. -/
theorem startedSlew_bank (b : Bank) (o : Int) (n : Nat) (p : Slew) (f : Field) (v : State) :
    (((startSlew b o n v).modBank b fun k => { k with slewOld := p }).hi f).tick.bank b =
      { v.tick.bank b with slew := Slew.make o n, slewFrom := v.tick.count, slewOld := p } := by
  rw [hi_tick, modBank_tick, startSlew, modBank_tick]
  simp only [bank_setBank_same]

/-- SLEW_GO by the owner, not refused (R52). -/
theorem slewGo_starts {s : State} {src : Steerer} (w : Word) (ho : s.ownerIs b src = true) (hb : ¬s.slewBarred b) :
    ∃ t, Sys2Proof.Machine.exec (.slewGo b src w) s = .next t ∧
      (t.tick.bank b).slew = Slew.make (s.slewOfs b) (800 * s.rd (R.TSC_SLEW_DUR_DUR (bankNo b))) ∧
      (t.tick.bank b).slewFrom = s.tick.count ∧ (t.tick.bank b).ts = (s.tick.bank b).ts ∧
      t.rd (R.TSC_SLEW_CTL_ACTIVE (bankNo b)) = 1 ∧ Frame (slewFields b) [.tick] s t := by
  let v := s.begin.slewWritten b ((R.TSC_SLEW_CTL_GO (bankNo b)).setIn w.toNat)
  have hv : ¬v.slewBarred b := fun h => hb ((slewBarred_slewWritten b _ s.begin).1 h)
  have hofs : v.slewOfs b = s.slewOfs b := slewOfs_slewWritten b _ s.begin
  have hdur : v.rd (R.TSC_SLEW_DUR_DUR (bankNo b)) = s.rd (R.TSC_SLEW_DUR_DUR (bankNo b)) :=
    rd_slewWritten_inputs b _ s.begin _ (by simp [slewInputs])
  obtain ⟨x, htick⟩ := slewWritten_bank b ((R.TSC_SLEW_CTL_GO (bankNo b)).setIn w.toNat) s.begin
  have hown : s.begin.ownerIs b src = true := ho
  obtain ⟨t, e, k⟩ := go_ended_of ((writeSlewCtl_go b src w.toNat s.begin).trans ((if_pos hown).trans (goStaged_starts hv)))
  have hcount : v.tick.count = s.tick.count := by rw [show v.tick = _ from htick, setBank_count, begin_tick]
  have hts : (v.tick.bank b).ts = (s.tick.bank b).ts := by rw [show v.tick = _ from htick, bank_setBank_same, begin_tick]
  have hbank : t.tick.bank b = { v.tick.bank b with
      slew := Slew.make (s.slewOfs b) (800 * s.rd (R.TSC_SLEW_DUR_DUR (bankNo b))), slewFrom := s.tick.count, slewOld := v.slewBefore b } := by
    rw [k.tick, startedSlew_bank, ← hcount]
    exact congrArg₂ (fun o d => TickBank.mk _ _ _ (Slew.make o (800 * d)) _ _ _ _ _ _ _ _ _ _) hofs hdur
  refine ⟨t, e, by rw [hbank], by rw [hbank], by rw [hbank, ← hts],
    (k.rd (by cases b <;> decide)).trans (rd_hi_same _ _), k.frame ?_⟩
  exact frame_hi (by cases b <;> decide) (frame_modBank (by simp) (frame_modBank (by simp) (frame_slewWritten (by cases b <;> decide) (by simp) (frame_begin s))))

/-- A GO that R53 or R61 refuses, and one of a sender that does not steer the bank. -/
theorem slewGo_flags {s : State} {src : Steerer} (w : Word) {f : Field}
    (h : (s.ownerIs b src = true ∧ s.slewBarred b ∧ f = R.TSC_SLEW_CTL_REJECTED (bankNo b)) ∨
      (src = .host ∧ s.ownerIs b .host = false ∧ f = R.TSC_SLEW_CTL_IGNORED (bankNo b))) :
    ∃ t, Sys2Proof.Machine.exec (.slewGo b src w) s = .next t ∧
      Ended s ((s.begin.slewWritten b ((R.TSC_SLEW_CTL_GO (bankNo b)).setIn w.toNat)).hi f) t := by
  refine go_ended_of ((writeSlewCtl_go b src w.toNat s.begin).trans ?_)
  rcases h with ⟨ho, hb, rfl⟩ | ⟨rfl, ho, rfl⟩
  · have hown : s.begin.ownerIs b src = true := ho
    exact (if_pos hown).trans (goStaged_barred ((slewBarred_slewWritten b _ s.begin).2 hb))
  · have hown : ¬s.begin.ownerIs b .host = true := by rw [Bool.not_eq_true]; exact ho
    exact (if_neg hown).trans (if_pos rfl)

/-- The word SLEW_ABORT writes: ABORT without GO. -/
def abortWord (b : Bank) (w : Nat) : Nat := (R.TSC_SLEW_CTL_ABORT (bankNo b)).setIn ((R.TSC_SLEW_CTL_GO (bankNo b)).clearIn w)

theorem abortWord_abort (b : Bank) (w : Nat) : (R.TSC_SLEW_CTL_ABORT (bankNo b)).of (abortWord b w) = 1 := Field.of_setIn _ _ rfl

theorem abortWord_go (b : Bank) (w : Nat) : (R.TSC_SLEW_CTL_GO (bankNo b)).of (abortWord b w) = 0 :=
  (Field.of_setIn_below _ _ _ (show 0 + 1 ≤ 1 by decide)).trans (Field.of_clearIn _ _ rfl)

theorem slewAbort_ended (b : Bank) (w : Word) (s : State) : ∃ t, Sys2Proof.Machine.exec (.slewAbort b w) s = .next t ∧
    Ended s (abortSlew b (s.begin.storeReg false (Reg.TSC_SLEW_CTL (bankNo b)) (abortWord b w.toNat))) t := by
  refine go_ended_of ?_
  change writeSlewCtl b .host (abortWord b w.toNat) s.begin = _
  unfold writeSlewCtl
  simp [abortWord_abort, abortWord_go]

/-- A slew's ticks have passed when as many have as were left of it. -/
theorem slewTicks_pass (b : Bank) (s : State) :
    let u := s.advance ((s.tick.bank b).slew.n - (s.tick.bank b).slew.k)
    (u.tick.bank b).slew.k = (u.tick.bank b).slew.n := by
  cases b
  · simp only [Tick.bank, advance_tick, TickBank.run]; omega
  · simp only [Tick.bank, advance_tick]
    split <;> simp only [TickBank.run, TickBank.follow] <;> omega

/-- SLEW_DONE: the slew's ticks pass, and it is complete (R54). -/
theorem slewDone_running {s : State} (ha : s.rd (R.TSC_SLEW_CTL_ACTIVE (bankNo b)) = 1) :
    slewDone b s = (((setLeft b 0 (s.advance ((s.tick.bank b).slew.n - (s.tick.bank b).slew.k))).modBank b
      (fun k => { k with slew := {} })).lo (R.TSC_SLEW_CTL_ACTIVE (bankNo b))).hi (R.TSC_SLEW_CTL_DONE (bankNo b)) := by
  have hon : s.on (R.TSC_SLEW_CTL_ACTIVE (bankNo b)) = true := decide_eq_true ha
  rw [slewDone, if_pos hon]
  exact if_pos (slewTicks_pass b s)

/-- Settles O11: GO taken, refused and ignored, each without and with ABORT; ABORT of a slew and of none; a slew that completes. -/
theorem slews : Obligations.Slews := by
  refine ⟨fun s b src w ho hd hmax hsw hst => slewGo_starts w ho ?_, fun s b src w ho ha hb => ?_, fun s b w ho ha => ?_,
    fun s b src w ho ha hb => ?_, fun s b w ho ha => ?_, fun s b w hrun => ?_, fun s b w hidle => ?_, fun s b => ?_⟩
  · rintro (h | h | ⟨rfl, h⟩ | h)
    · omega
    · omega
    · exact hsw rfl h
    · exact hst h
  · obtain ⟨t, e, k⟩ := slewGo_flags w (.inl ⟨ho, hb, rfl⟩)
    exact ⟨t, e, slewFlagged (by simp) (by rw [abort_setIn_go]; omega) k⟩
  · obtain ⟨t, e, k⟩ := slewGo_flags w (.inr ⟨rfl, ho, rfl⟩)
    obtain ⟨hbit, -, hframe⟩ := slewFlagged (by simp) (by rw [abort_setIn_go]; omega) k
    exact ⟨t, e, hbit, hframe⟩
  · obtain ⟨t, e, k⟩ := slewGo_flags w (.inl ⟨ho, hb, rfl⟩)
    exact ⟨t, e, slewFlagged_aborts (by simp) (by rw [abort_setIn_go, ha]) k⟩
  · obtain ⟨t, e, k⟩ := slewGo_flags w (.inr ⟨rfl, ho, rfl⟩)
    exact ⟨t, e, slewFlagged_aborts (by simp) (by rw [abort_setIn_go, ha]) k⟩
  · obtain ⟨t, e, k⟩ := slewAbort_ended b w s
    obtain ⟨htick, haborted, hoff, hlo, hhi⟩ := abortSlew_running ((rd_slewStored_active b (abortWord b w.toNat) s.begin).trans hrun)
    simp only [storeReg_tick, begin_tick] at htick hlo hhi
    exact ⟨t, e, k.tick.trans htick, (k.rd (by cases b <;> decide)).trans haborted, (k.rd (by cases b <;> decide)).trans hoff,
      (k.rd (by cases b <;> decide)).trans hlo, (k.rd (by cases b <;> decide)).trans hhi,
      k.frame (frame_abortSlew (by cases b <;> decide) (by simp) (frame_slewStored (by cases b <;> decide) (frame_begin s)))⟩
  · obtain ⟨t, e, k⟩ := slewAbort_ended b w s
    rw [abortSlew_idle ((rd_slewStored_active b (abortWord b w.toNat) s.begin).trans_ne hidle)] at k
    have hside : ∀ f ∈ (Reg.TSC_SLEW_CTL (bankNo b)).fields, f.side = false := by cases b <;> decide
    exact ⟨t, e, fun f hf => (k.rd (hside f hf)).trans (rd_storeReg_mem _ _ _ _ hf (by cases b <;> decide)),
      k.frame (frame_slewStored (by cases b <;> decide) (frame_begin s))⟩
  · intro u hrun
    obtain ⟨t, e, k⟩ := go_ended_of (slewDone_running (s := s.begin) hrun)
    have hleft : ∀ v : State, ∀ f ∈ [R.TSC_SLEW_LEFT_LO_LEFT (bankNo b), R.TSC_SLEW_LEFT_HI_LEFT (bankNo b)], (setLeft b 0 v).rd f = 0 := by
      intro v f hf
      rcases List.mem_pair.1 hf with rfl | rfl
      · exact (rd_wr_ne _ _ (by cases b <;> decide)).trans (rd_wr_same _ _ _)
      · exact rd_wr_same _ _ _
    have hadv : (s.begin.advance ((s.tick.bank b).slew.n - (s.tick.bank b).slew.k)).tick = u.tick := begin_advance_tick s _
    refine ⟨t, e, k.tick.trans ?_, (k.rd (by cases b <;> decide)).trans (rd_hi_same _ _),
      (k.rd (by cases b <;> decide)).trans ((rd_hi_ne _ (by cases b <;> decide)).trans (rd_lo_same _ _)),
      (k.rd (by cases b <;> decide)).trans ((rd_hi_ne _ (by cases b <;> decide)).trans ((rd_lo_ne _ (by cases b <;> decide)).trans
        (hleft _ _ (by simp)))),
      (k.rd (by cases b <;> decide)).trans ((rd_hi_ne _ (by cases b <;> decide)).trans ((rd_lo_ne _ (by cases b <;> decide)).trans
        (hleft _ _ (by simp)))), k.frame ?_⟩
    · simp only [hi_tick, lo_tick, modBank_tick, setLeft, wr_tick, begin_tick, hadv]
    · exact frame_hi (by simp) (frame_lo (by simp) (frame_modBank (by simp) (frame_wr (by simp) (frame_wr (by simp)
      (frame_advance (by simp) (by simp) (frame_begin s))))))

end Sys2Proof.Machine
end

section
/-! PROOFS. A barred step of TS0 (R17), the switch of the sources (R64, R65), snapshots (R62) and writes of TSC_CTL (R51, R63). -/

namespace Sys2Proof.Machine

/-! ### What touches no part keeps it -/

/-- A field of a block that is not touched reads as before. -/
theorem Touches.rd {ps : List Part} {s t : State} (h : Touches ps s t) {b : Block} (hb : Part.regs b ∉ ps) {g : Field}
    (hg : b.has g.key = true) (hs : g.side = false) : t.rd g = s.rd g := h.1 (.regs b) hb g hg hs

theorem Touches.tick {ps : List Part} {s t : State} (h : Touches ps s t) (hp : Part.tick ∉ ps) : t.tick = s.tick := h.1 .tick hp

/-! ### A step that service bars (R17) -/

/-- Settles O59. -/
theorem barredStepIsDropped : Obligations.BarredStepIsDropped := by
  intro s hpend hmark hby hserved
  have hdue : s.begin.stepDue .ts0 = true := (stepDue_iff _ _).2 ⟨hpend, hmark⟩
  have hbar : s.begin.stepBarred .ts0 = true := by
    rw [← Bool.not_eq_false, stepBarred_eq_false_iff]
    exact fun h => h rfl hby hserved
  obtain ⟨t, e, k⟩ := go_ended_of (show applyStep .ts0 s.begin = dropStep .ts0 s.begin from if_pos (by rw [hdue, hbar]; rfl))
  have hrd : ∀ g, g.side = false → t.rd g =
      (((s.begin.modBank .ts0 fun k => { k with stepDelta := 0, stepMarkers := 0 }).lo (R.TSC_STEP_CTL_PENDING 0)).hi
        (R.TSC_STEP_CTL_DENIED 0)).rd g := fun g hg => k.rd hg
  refine ⟨t, e, (hrd _ rfl).trans ((rd_hi_ne _ (by decide)).trans (rd_lo_same _ _)), (hrd _ rfl).trans (rd_hi_same _ _),
    (hrd _ rfl).trans ((rd_hi_ne _ (by decide)).trans (rd_lo_ne _ (by decide))), k.tick, k.lanes, fun hnone => ?_, k.frame ?_⟩
  · exact k.fw.trans (endUnit_fw_of_none _ _ _ _ hnone)
  · exact frame_endUnit (by simp) (frame_hi (by simp [bankNo]) (frame_lo (by simp [bankNo]) (frame_modBank (by simp) (frame_begin s))))

/-! ### The exchange of the source sets (R64, R79) -/

/-- The registers an exchange writes beside the slots'. -/
def exchangeFields : List Field :=
  [R.ENS_STAT_STATE, R.ENS_STAT_S1_STATE, R.ENS_STAT_DECIDE_PEND, R.ENS_STAT_S1_DECIDE_PEND, R.ENS_STAT_LEAD, R.ENS_STAT_LEAD_VALID,
   R.ENS_DRIFT_D, R.ENS_HO_TIME_SECONDS, R.ENS_ERR_ERR, R.ENS_EVT_BITS] ++ logFields

section
variable {fs : List Field} {ps : List Part} {s₀ s : State}

theorem frame_swapFields {f g : Field} (hf : f ∈ fs) (hg : g ∈ fs) (h : Frame fs ps s₀ s) : Frame fs ps s₀ (swapFields f g s) :=
  frame_wr hg (frame_wr hf h)

theorem frame_publishTs0 (hf : ∀ f ∈ exchangeFields, f ∈ fs) (h : Frame fs ps s₀ s) : Frame fs ps s₀ (publishTs0 s) := by
  have hlead : Frame fs ps s₀ (match s.ens.f0.lead with
      | some i => (s.wr R.ENS_STAT_LEAD i).hi R.ENS_STAT_LEAD_VALID
      | none => s.lo R.ENS_STAT_LEAD_VALID) := by
    split
    · exact frame_hi (hf _ (by decide)) (frame_wr (hf _ (by decide)) h)
    · exact frame_lo (hf _ (by decide)) h
  exact frame_wr (hf _ (by decide)) (frame_wr (hf _ (by decide)) hlead)

theorem frame_publish (hf : R.ENS_ERR_ERR ∈ fs) (he : Part.ens ∈ ps) (h : Frame fs ps s₀ s) : Frame fs ps s₀ (publish s) :=
  frame_set_ens he (frame_wr hf h)

theorem frame_tellEng {sender : Nat} {b : Bank} {old : Eng} (he : R.ENS_EVT_BITS ∈ fs) (hf : ∀ f ∈ logFields, f ∈ fs)
    (hl : Part.log ∈ ps) (h : Frame fs ps s₀ s) : Frame fs ps s₀ (tellEng sender b old s) := by
  cases b
  · exact frame_logRec hf hl (frame_raise he h)
  · exact frame_raise he h

end

/-- Every slot's samples and set, exchanged. -/
def swapSlots (d : Int) (s : State) : State :=
  slotIds.foldl (fun s i =>
    let s := s.wr (R.ENS_SLOT_CFG_SET i) (1 - s.rd (R.ENS_SLOT_CFG_SET i))
    s.modSlot i (fun k => k.rebased i (1 - k.set) d)) s

theorem touches_swapSlots (d : Int) (s : State) : Touches [.ens, .regs .ens] s (swapSlots d s) :=
  touches_foldl (Touches.refl _ s) fun _ i h =>
    touches_State_modSlot _ _ _ (by simp) (touches_State_wr (has_R_ENS_SLOT_CFG_SET i) (by simp) h)

/-- The filters, each about the counter of the other set. -/
def swapFilters (d : Int) (s : State) : State :=
  { s with ens := { s.ens with
    f0 := { s.ens.f1 with theta := s.ens.f1.theta - toNs d }
    f1 := { s.ens.f0 with theta := s.ens.f0.theta + toNs d } } }

/-- The engine states and the decisions that wait, exchanged. -/
def swapEngines (s : State) : State :=
  swapFields R.ENS_STAT_DECIDE_PEND R.ENS_STAT_S1_DECIDE_PEND (swapFields R.ENS_STAT_STATE R.ENS_STAT_S1_STATE s)

/-- The phase given to each timescale goes with its filter. -/
def swapPhase (s : State) : State :=
  let k0 := s.tick.bank0
  let k1 := s.tick.bank1
  let s := s.modBank .ts0 (fun k => { k with phaseAcc := k1.phaseAcc, incrRef := k1.incrRef })
  s.modBank .ts1 (fun k => { k with phaseAcc := k0.phaseAcc, incrRef := k0.incrRef })

/-- What follows the exchange: registers of TS0's set, and the dies told. -/
def tellExchange (sender : Nat) (old0 old1 : Eng) (s : State) : State :=
  let u := publishTs0 s
  publish (if old0 ≠ old1 then tellEng sender .ts1 old1 (tellEng sender .ts0 old0 u) else u)

theorem exchangeSets_eq (sender : Nat) (d : Int) (s : State) :
    exchangeSets sender d s =
      tellExchange sender ((swapFilters d (swapSlots d s)).eng .ts0) ((swapFilters d (swapSlots d s)).eng .ts1)
        (swapPhase (swapEngines (swapFilters d (swapSlots d s)))) := by
  unfold exchangeSets tellExchange swapPhase swapEngines swapFilters swapSlots
  rfl

theorem frame_tellExchange {sender : Nat} {old0 old1 : Eng} {ps : List Part} {s₀ s : State} (he : Part.ens ∈ ps) (hl : Part.log ∈ ps)
    (h : Frame exchangeFields ps s₀ s) : Frame exchangeFields ps s₀ (tellExchange sender old0 old1 s) := by
  have hlog : ∀ f ∈ logFields, f ∈ exchangeFields := fun f hm => List.mem_append_right _ hm
  have hp := frame_publishTs0 (fun _ hm => hm) h
  exact frame_publish (by decide) he (frame_ite (frame_tellEng (by decide) hlog hl (frame_tellEng (by decide) hlog hl hp)) hp)

/-- An exchange gives each timescale the other's phase, and moves neither. -/
theorem exchangeSets_tick (sender : Nat) (d : Int) (s : State) : (exchangeSets sender d s).tick = (swapPhase s).tick := by
  rw [exchangeSets_eq]
  have htell : ∀ a b v, (tellExchange sender a b v).tick = v.tick := fun a b v =>
    (frame_tellExchange (ps := [.ens, .log]) (by simp) (by simp) (Frame.refl _ _ v)).2.1 .tick (by simp) rfl
  have hslots : (swapEngines (swapFilters d (swapSlots d s))).tick = s.tick := by
    simp only [swapEngines, swapFilters, swapFields, wr_tick, (touches_swapSlots d s).tick (by simp)]
  have hphase : ∀ u v : State, u.tick = v.tick → (swapPhase u).tick = (swapPhase v).tick := by
    intro u v h; simp only [swapPhase, modBank_tick, h]
  rw [htell]
  exact hphase _ _ hslots

/-- What the exchange of the slots leaves in SET, slot by slot. -/
theorem rd_swapSlots_set (d : Int) (s : State) {i : Nat} (hi : i < 16) :
    (swapSlots d s).rd (R.ENS_SLOT_CFG_SET i) = 1 - s.rd (R.ENS_SLOT_CFG_SET i) := by
  have key : ∀ (l : List Nat) (s : State), l.Nodup → (∀ j ∈ l, j < 16) →
      (l.foldl (fun s j => (s.wr (R.ENS_SLOT_CFG_SET j) (1 - s.rd (R.ENS_SLOT_CFG_SET j))).modSlot j
        (fun k => k.rebased j (1 - k.set) d)) s).rd (R.ENS_SLOT_CFG_SET i) =
        if i ∈ l then 1 - s.rd (R.ENS_SLOT_CFG_SET i) else s.rd (R.ENS_SLOT_CFG_SET i) := by
    intro l
    induction l with
    | nil => intro s _ _; rfl
    | cons j l ih =>
      intro s hn hl
      obtain ⟨hj, hn⟩ := List.nodup_cons.1 hn
      have hj16 := hl j List.mem_cons_self
      rw [List.foldl_cons, ih _ hn fun x hx => hl x (List.mem_cons_of_mem _ hx)]
      by_cases hij : i = j
      · subst hij
        have hbit : (1 - s.rd (R.ENS_SLOT_CFG_SET i)) % 2 ^ (R.ENS_SLOT_CFG_SET i).width = 1 - s.rd (R.ENS_SLOT_CFG_SET i) :=
          Nat.mod_eq_of_lt (show _ < 2 by omega)
        rw [if_neg hj, if_pos List.mem_cons_self]
        exact (rd_wr_same _ _ _).trans hbit
      · have hkey : (R.ENS_SLOT_CFG_SET i).key ≠ (R.ENS_SLOT_CFG_SET j).key := by
          simp only [R.ENS_SLOT_CFG_SET, Field.mk']; omega
        have hstep : ∀ v, ((s.wr (R.ENS_SLOT_CFG_SET j) v).modSlot j (fun k => k.rebased j (1 - k.set) d)).rd (R.ENS_SLOT_CFG_SET i) =
            s.rd (R.ENS_SLOT_CFG_SET i) := fun v => rd_wr_ne _ _ hkey
        simp only [hstep, List.mem_cons, hij, false_or]
  exact (key slotIds s (List.nodup_range) fun j hj => List.mem_range.1 hj).trans (if_pos (List.mem_range.2 hi))

theorem rd_exchangeSets_set (sender : Nat) (d : Int) (s : State) {i : Nat} (hi : i < 16) :
    (exchangeSets sender d s).rd (R.ENS_SLOT_CFG_SET i) = 1 - s.rd (R.ENS_SLOT_CFG_SET i) := by
  have hkey : ∀ f ∈ exchangeFields, (R.ENS_SLOT_CFG_SET i).key ≠ f.key := by
    have hlow : (R.ENS_SLOT_CFG_SET i).key = (R.ENS_SLOT_CFG_SET (i % 16)).key := by simp only [R.ENS_SLOT_CFG_SET, Field.mk']; omega
    have hall : ∀ j : Fin 16, ∀ f ∈ exchangeFields, (R.ENS_SLOT_CFG_SET j.val).key ≠ f.key := by decide
    rw [hlow]
    exact hall ⟨i % 16, Nat.mod_lt _ (by decide)⟩
  rw [exchangeSets_eq]
  refine Eq.trans ?_ (rd_swapSlots_set d s hi)
  exact (frame_tellExchange (by simp) (by simp) (frame_modBank (by simp) (frame_modBank (by simp) (frame_swapFields (by decide) (by decide)
    (frame_swapFields (by decide) (by decide) (frame_set_ens (by simp) (Frame.refl exchangeFields [.ens, .log, .tick] _))))))).rd hkey
    (Field.side_of_low (by simp only [R.ENS_SLOT_CFG_SET, Field.mk']; omega))

/-! ### The switch (R64, R65) -/

/-- What R65 refuses a switch for. -/
theorem switchRefused_iff (s : State) (d : Int) :
    s.switchRefused d = true ↔ s.rd R.TSC_CTL_TS1_EN ≠ 1 ∨ s.rd R.TSC_SWITCH_CTL_ACTIVE = 1 ∨ s.rd (R.TSC_STEP_CTL_PENDING 0) = 1 ∨
      s.rd (R.TSC_STEP_CTL_PENDING 1) = 1 ∨ min 1000000 (s.rd R.TSC_SWITCH_LIM_LIMIT) * 65536 < d.natAbs := by
  simp [State.switchRefused, State.on, ns16, or_assoc]

/-- What decides on a switch. -/
def switchInputs : List Field :=
  [R.TSC_CTL_TS1_EN, R.TSC_SWITCH_CTL_ACTIVE, R.TSC_STEP_CTL_PENDING 0, R.TSC_STEP_CTL_PENDING 1, R.TSC_SWITCH_LIM_LIMIT,
   R.TSC_SLEW_CTL_ACTIVE 0]

/-- The fields of TSC_SWITCH_CTL that take bits of a written word (R10). -/
def switchStored : List Field := [R.TSC_SWITCH_CTL_RATE, R.TSC_SWITCH_CTL_DONE, R.TSC_SWITCH_CTL_REFUSED]

theorem frame_switchStored {fs : List Field} {ps : List Part} {s₀ s : State} {w : Nat} (hf : ∀ f ∈ switchStored, f ∈ fs)
    (h : Frame fs ps s₀ s) : Frame fs ps s₀ (s.storeReg false Reg.TSC_SWITCH_CTL w) := by
  have hacc : ∀ f ∈ Reg.TSC_SWITCH_CTL.fields, f.acc = .ro ∨ f.acc = .wo ∨ f.acc = .rc ∨ f.acc = .sc ∨ f ∈ switchStored := by decide
  exact frame_storeReg (fun f hm => (hacc f hm).imp_right (Or.imp_right (Or.imp_right (Or.imp_right (hf f))))) h

theorem rd_switchStored_inputs (w : Nat) (s : State) : ∀ g ∈ switchInputs, (s.storeReg false Reg.TSC_SWITCH_CTL w).rd g = s.rd g := by
  have hkeys : ∀ g ∈ switchInputs, (∀ f ∈ switchStored, g.key ≠ f.key) ∧ g.side = false := by decide
  exact fun g hg => (frame_switchStored (fun _ hm => hm) (Frame.refl switchStored [] s)).rd (hkeys g hg).1 (hkeys g hg).2

theorem tsDiff_switchStored (w : Nat) (s : State) : (s.storeReg false Reg.TSC_SWITCH_CTL w).tsDiff = s.tsDiff := by
  have hen : (s.storeReg false Reg.TSC_SWITCH_CTL w).on R.TSC_CTL_TS1_EN = s.on R.TSC_CTL_TS1_EN := by
    rw [State.on, State.on, rd_switchStored_inputs w s _ (by simp [switchInputs])]
  unfold State.tsDiff State.ts1 State.ts0
  rw [hen, storeReg_tick]

/-- The write leaves what is refused. -/
theorem switchRefused_stored (w : Nat) (d : Int) (s : State) : (s.storeReg false Reg.TSC_SWITCH_CTL w).switchRefused d = s.switchRefused d := by
  have hin := rd_switchStored_inputs w s
  simp only [switchInputs, List.forall_mem_cons] at hin
  obtain ⟨hen, hactive, hp0, hp1, hlim, -⟩ := hin
  simp only [State.switchRefused, State.on, hen, hactive, hp0, hp1, hlim]

/-- A slew that a switch or an ABORT ends is all that changes in the bank. -/
theorem abortSlew_bank (b : Bank) (s : State) : ∃ v, (abortSlew b s).tick = s.tick.setBank b { s.tick.bank b with slew := v } := by
  by_cases ha : s.rd (R.TSC_SLEW_CTL_ACTIVE (bankNo b)) = 1
  · exact ⟨{}, (abortSlew_running ha).1⟩
  · exact ⟨_, by rw [abortSlew_idle ha]; exact (setBank_bank _ _).symm⟩

/-- The state once the sources have been exchanged, before the slew or the report. -/
def switchMoved (d : Int) (s : State) : State :=
  exchangeSets 2 d ((abortSlew .ts0 s).modBank .ts0 fun k => { k with incr := (abortSlew .ts0 s).tick.bank1.incr })

theorem doSwitch_eq (d : Int) (s : State) : doSwitch 2 d s =
    if d = 0 then (switchMoved d s).hi R.TSC_SWITCH_CTL_DONE
    else (startSlew .ts0 d (800 * switchUs d (switchMoved d s).switchRate) (switchMoved d s)).hi R.TSC_SWITCH_CTL_ACTIVE := rfl

/-- TS0 takes TS1's increment; neither counter moves, and TS1 keeps its slew. -/
theorem switchMoved_tick (d : Int) (s : State) :
    (switchMoved d s).tick.bank0.incr = s.tick.bank1.incr ∧ (switchMoved d s).tick.bank0.ts = s.tick.bank0.ts ∧
      (switchMoved d s).tick.bank1.ts = s.tick.bank1.ts ∧ (switchMoved d s).tick.bank1.incr = s.tick.bank1.incr ∧
      (switchMoved d s).tick.bank1.slew = s.tick.bank1.slew := by
  obtain ⟨v, hv⟩ := abortSlew_bank .ts0 s
  rw [switchMoved, exchangeSets_tick]
  simp only [swapPhase, modBank_tick, hv]
  exact ⟨rfl, rfl, rfl, rfl, rfl⟩

/-- The timescale's registers, but for a slew that was ended, are as they were. -/
theorem rd_switchMoved (d : Int) (s : State) {g : Field} (hg : Block.tsc.has g.key = true) (hs : g.side = false) :
    (switchMoved d s).rd g = (abortSlew .ts0 s).rd g :=
  (touches_exchangeSets (ps := [.tick, .ens, .log, .regs .ens, .regs .wch]) 2 d _ (by simp) (by simp) (by simp) (by simp) (by simp)
    (Touches.refl _ _)).rd (by decide) hg hs

theorem switchMoved_rate (d : Int) (w : Nat) (s : State) :
    (switchMoved d (s.storeReg false Reg.TSC_SWITCH_CTL (R.TSC_SWITCH_CTL_GO.setIn w))).switchRate =
      max 1 (min 100 (R.TSC_SWITCH_CTL_RATE.of w)) := by
  have habort := (frame_abortSlew (b := .ts0) (fun _ hm => hm) (List.mem_singleton_self _) (Frame.refl (slewEndFields .ts0) [.tick]
    (s.storeReg false Reg.TSC_SWITCH_CTL (R.TSC_SWITCH_CTL_GO.setIn w)))).rd (g := R.TSC_SWITCH_CTL_RATE) (by decide) rfl
  rw [State.switchRate, rd_switchMoved d _ (by decide) rfl, habort, rd_storeReg_rw _ _ _ _ (by decide) rfl (by decide),
    Field.of_setIn_above _ _ _ (by decide)]

/-- SWITCH_GO, taken or refused. -/
theorem writeSwitchCtl_go (w : Nat) (s : State) :
    writeSwitchCtl 2 (R.TSC_SWITCH_CTL_GO.setIn w) s =
      let v := s.storeReg false Reg.TSC_SWITCH_CTL (R.TSC_SWITCH_CTL_GO.setIn w)
      if s.switchRefused s.tsDiff then v.hi R.TSC_SWITCH_CTL_REFUSED else doSwitch 2 s.tsDiff v := by
  unfold writeSwitchCtl
  simp only [Field.of_setIn _ w (show R.TSC_SWITCH_CTL_GO.width = 1 from rfl), if_true, tsDiff_switchStored, switchRefused_stored]

/-- What a switch leaves in the tick domain, beside the slew it starts. -/
theorem doSwitch_tick (d : Int) (s : State) :
    (doSwitch 2 d s).tick.bank1.ts = s.tick.bank1.ts ∧ (doSwitch 2 d s).tick.bank1.incr = s.tick.bank1.incr ∧
      (doSwitch 2 d s).tick.bank1.slew = s.tick.bank1.slew ∧ (doSwitch 2 d s).tick.bank0.incr = s.tick.bank1.incr ∧
      (doSwitch 2 d s).tick.bank0.ts = s.tick.bank0.ts := by
  obtain ⟨hincr0, hts0, hts1, hincr1, hslew1⟩ := switchMoved_tick d s
  rw [doSwitch_eq]
  split
  · exact ⟨hts1, hincr1, hslew1, hincr0, hts0⟩
  · exact ⟨hts1, hincr1, hslew1, hincr0, hts0⟩

/-- What a switch reports moves no other register. -/
theorem rd_doSwitch (d : Int) (s : State) {g : Field} (hd : g.key ≠ R.TSC_SWITCH_CTL_DONE.key) (ha : g.key ≠ R.TSC_SWITCH_CTL_ACTIVE.key) :
    (doSwitch 2 d s).rd g = (switchMoved d s).rd g := by
  rw [doSwitch_eq]
  split
  · exact rd_hi_ne _ hd
  · exact rd_hi_ne _ ha

theorem side_slotSet (i : Fin 16) : (R.ENS_SLOT_CFG_SET i.val).side = false :=
  Field.side_of_low (by simp only [R.ENS_SLOT_CFG_SET, Field.mk']; omega)

/-- A switch exchanges each slot's set. -/
theorem rd_switch_set (d : Int) (w : Nat) (s : State) (i : Fin 16) :
    (doSwitch 2 d (s.storeReg false Reg.TSC_SWITCH_CTL w)).rd (R.ENS_SLOT_CFG_SET i.val) = 1 - s.rd (R.ENS_SLOT_CFG_SET i.val) := by
  have hends : ∀ j : Fin 16, (R.ENS_SLOT_CFG_SET j.val).key ≠ R.TSC_SWITCH_CTL_DONE.key ∧
      (R.ENS_SLOT_CFG_SET j.val).key ≠ R.TSC_SWITCH_CTL_ACTIVE.key := by decide
  have hstored : (abortSlew .ts0 (s.storeReg false Reg.TSC_SWITCH_CTL w)).rd (R.ENS_SLOT_CFG_SET i.val) = s.rd (R.ENS_SLOT_CFG_SET i.val) :=
    (touches_abortSlew (ps := [.tick, .regs .tsc]) .ts0 _ (by simp) (by simp) (touches_State_storeReg (b := .tsc) (by decide) (by simp)
      (Touches.refl _ s))).rd (by decide) (has_R_ENS_SLOT_CFG_SET i.val) (side_slotSet i)
  rw [rd_doSwitch _ _ (hends i).1 (hends i).2, switchMoved, rd_exchangeSets_set _ _ _ i.isLt]
  exact congrArg (1 - ·) hstored

theorem switchGo_taken {s : State} (w : Word) (h : s.switchRefused s.tsDiff = false) :
    ∃ t, Sys2Proof.Machine.exec (.switchGo w) s = .next t ∧
      t.tick.bank0.incr = s.tick.bank1.incr ∧ t.tick.bank0.ts = s.tick.bank0.ts ∧ t.tick.bank1.ts = s.tick.bank1.ts ∧
      t.tick.bank1.incr = s.tick.bank1.incr ∧ t.tick.bank1.slew = s.tick.bank1.slew ∧
      (∀ i : Fin 16, t.rd (R.ENS_SLOT_CFG_SET i.val) = 1 - s.rd (R.ENS_SLOT_CFG_SET i.val)) ∧
      (s.rd (R.TSC_SLEW_CTL_ACTIVE 0) = 1 → t.rd (R.TSC_SLEW_CTL_ACTIVE 0) = 0 ∧ t.rd (R.TSC_SLEW_CTL_ABORTED 0) = 1) ∧
      (s.tsDiff = 0 → t.rd R.TSC_SWITCH_CTL_DONE = 1 ∧ t.rd R.TSC_SWITCH_CTL_ACTIVE = s.rd R.TSC_SWITCH_CTL_ACTIVE) ∧
      (s.tsDiff ≠ 0 → t.rd R.TSC_SWITCH_CTL_ACTIVE = 1 ∧
        t.tick.bank0.slew = Slew.make s.tsDiff (800 * switchUs s.tsDiff (max 1 (min 100 (R.TSC_SWITCH_CTL_RATE.of w.toNat))))) ∧
      Touches [.tick, .ens, .log, .regs .tsc, .regs .ens, .regs .wch] s t := by
  let v := s.begin.storeReg false Reg.TSC_SWITCH_CTL (R.TSC_SWITCH_CTL_GO.setIn w.toNat)
  have htouch : Touches [.tick, .ens, .log, .regs .tsc, .regs .ens, .regs .wch] s
      (writeSwitchCtl 2 (R.TSC_SWITCH_CTL_GO.setIn w.toNat) s.begin) :=
    touches_writeSwitchCtl _ _ _ (by simp) (by simp) (by simp) (by simp) (by simp) (by simp) (touches_begin _ s)
  have hgo : writeSwitchCtl 2 (R.TSC_SWITCH_CTL_GO.setIn w.toNat) s.begin = doSwitch 2 s.tsDiff v :=
    (writeSwitchCtl_go _ _).trans (if_neg (by rw [show s.begin.switchRefused s.begin.tsDiff = false from h]; decide))
  obtain ⟨t, e, k⟩ := go_ended_of hgo
  have htick : v.tick = s.tick := storeReg_tick _ _ _ _
  obtain ⟨hts1, hincr1, hslew1, hincr0, hts0⟩ := doSwitch_tick s.tsDiff v
  have hrun : v.rd (R.TSC_SLEW_CTL_ACTIVE 0) = s.rd (R.TSC_SLEW_CTL_ACTIVE 0) := rd_switchStored_inputs _ _ _ (by simp [switchInputs])
  have hon : v.rd R.TSC_SWITCH_CTL_ACTIVE = s.rd R.TSC_SWITCH_CTL_ACTIVE := rd_switchStored_inputs _ _ _ (by simp [switchInputs])
  have hkept : (abortSlew .ts0 v).rd R.TSC_SWITCH_CTL_ACTIVE = v.rd R.TSC_SWITCH_CTL_ACTIVE :=
    (frame_abortSlew (b := .ts0) (fun _ hm => hm) (List.mem_singleton_self _) (Frame.refl _ [.tick] v)).rd (by decide) rfl
  refine ⟨t, e, by rw [k.tick, hincr0, htick], by rw [k.tick, hts0, htick], by rw [k.tick, hts1, htick], by rw [k.tick, hincr1, htick],
    by rw [k.tick, hslew1, htick], fun i => ?_, fun ha => ?_, fun hd => ?_, fun hd => ?_, ?_⟩
  · exact (k.rd (side_slotSet i)).trans (rd_switch_set _ _ _ i)
  · obtain ⟨-, haborted, hoff, -⟩ := abortSlew_running (b := .ts0) (hrun.trans ha)
    exact ⟨(k.rd rfl).trans ((rd_doSwitch _ _ (by decide) (by decide)).trans ((rd_switchMoved _ _ (by decide) rfl).trans hoff)),
      (k.rd rfl).trans ((rd_doSwitch _ _ (by decide) (by decide)).trans ((rd_switchMoved _ _ (by decide) rfl).trans haborted))⟩
  · rw [doSwitch_eq, if_pos hd] at k
    exact ⟨(k.rd rfl).trans (rd_hi_same _ _), (k.rd rfl).trans ((rd_hi_ne _ (by decide)).trans
      ((rd_switchMoved _ _ (by decide) rfl).trans (hkept.trans hon)))⟩
  · rw [doSwitch_eq, if_neg hd, switchMoved_rate] at k
    exact ⟨(k.rd rfl).trans (rd_hi_same _ _), by rw [k.tick]; rfl⟩
  · exact k.touches (hgo ▸ htouch)

/-! ### TSC_CTL (R51, R63) -/

/-- A write of TSC_CTL: what TS1 comes to, and whether a snapshot of this tick is latched again. -/
theorem writeTscCtl_eq (w : Nat) (s : State) : writeTscCtl w s =
    let v := s.storeReg false Reg.TSC_CTL w
    if R.TSC_CTL_TS1_EN.of w = 1 ∧ s.rd R.TSC_CTL_TS1_EN ≠ 1 then
      snapAgain (v.modBank .ts1 fun k => { (k.load s.tick.bank0.ts) with incr := s.tick.bank0.incr })
    else if R.TSC_CTL_TS1_EN.of w ≠ 1 ∧ s.rd R.TSC_CTL_TS1_EN = 1 then snapAgain (v.modBank .ts1 fun k => k.load s.tick.bank0.ts)
    else v := by
  have hen : (s.storeReg false Reg.TSC_CTL w).rd R.TSC_CTL_TS1_EN = R.TSC_CTL_TS1_EN.of w :=
    rd_storeReg_rw _ _ _ _ (by decide) rfl (by decide)
  simp only [writeTscCtl, State.on, hen, Bool.and_eq_true, decide_eq_true_eq, Bool.not_eq_true', decide_eq_false_iff_not, storeReg_tick]
  by_cases h1 : R.TSC_CTL_TS1_EN.of w = 1 <;> by_cases h2 : s.rd R.TSC_CTL_TS1_EN = 1 <;> simp [h1, h2]

/-- How a write of TSC_CTL ends, `x` being the state before a snapshot of this tick is latched again. -/
theorem tscCtl_ended {s t u x : State} {w : Nat} (hx : Frame Reg.TSC_CTL.fields [.tick] s x)
    (hw : ∀ f ∈ Reg.TSC_CTL.fields, x.rd f = f.of w) (hcount : x.tick.count = s.tick.count) (hlatch : x.tick.latchAt = s.tick.latchAt)
    (hu : u = snapAgain x ∨ (u = x ∧ R.TSC_CTL_TS1_EN.of w = s.rd R.TSC_CTL_TS1_EN)) (k : Ended s u t) :
    t.tick = x.tick ∧ (∀ f ∈ Reg.TSC_CTL.fields, t.rd f = f.of w) ∧
      (s.tick.latchAt ≠ some s.tick.count → Frame Reg.TSC_CTL.fields [.tick] s t) ∧
      (s.tick.latchAt = some s.tick.count → R.TSC_CTL_TS1_EN.of w ≠ s.rd R.TSC_CTL_TS1_EN → t.SnapShows) ∧
      Frame (Reg.TSC_CTL.fields ++ snapFields) [.tick] s t := by
  have hkeys : ∀ f ∈ Reg.TSC_CTL.fields, (∀ g ∈ snapFields, f.key ≠ g.key) ∧ f.side = false := by decide
  have hsnap := frame_snapAgain [] x
  have hwide : Frame (Reg.TSC_CTL.fields ++ snapFields) [.tick] s x := hx.mono (fun f hf => List.mem_append_left _ hf) fun p hp => hp
  rcases hu with rfl | ⟨rfl, hsame⟩
  · have hrd : ∀ f ∈ Reg.TSC_CTL.fields, t.rd f = f.of w := fun f hf =>
      (k.rd (hkeys f hf).2).trans ((hsnap.rd (hkeys f hf).1 (hkeys f hf).2).trans (hw f hf))
    have htick : t.tick = x.tick := k.tick.trans (snapAgain_tick x)
    refine ⟨htick, hrd, fun hne => ?_, fun hl _ => ?_, ?_⟩
    · have hid : snapAgain x = x := if_neg (by rw [hcount, hlatch]; exact hne)
      rw [hid] at k
      exact k.frame hx
    · have hshow := snapShows_snapAgain (s := x) (by rw [hcount, hlatch]; exact hl)
      have hsides : ∀ f ∈ R.TSC_CTL_TS1_EN :: snapFields, f.side = false := by decide
      have hsrd := fun f hf => k.rd (hsides f hf)
      exact snapShows_congr hshow (fun f hf => hsrd f (List.mem_cons_of_mem _ hf)) (by unfold State.ts0; rw [k.tick])
        (by rw [k.tick]) (hsrd _ List.mem_cons_self)
    · exact k.frame (hwide.trans (hsnap.mono (fun f hf => List.mem_append_right _ hf) (by simp)))
  · exact ⟨k.tick, fun f hf => (k.rd (hkeys f hf).2).trans (hw f hf), fun _ => k.frame hx, fun _ h => absurd hsame h, k.frame hwide⟩

/-- TS1 as a write of TSC_CTL leaves it. -/
def Tick.withEn (k : Tick) (was now : Nat) : Tick :=
  if now = 1 ∧ was ≠ 1 then k.setBank .ts1 { k.bank1.load k.bank0.ts with incr := k.bank0.incr }
  else if now ≠ 1 ∧ was = 1 then k.setBank .ts1 (k.bank1.load k.bank0.ts)
  else k

/-- The fields of TSC_CTL hold what is written. -/
theorem tscCtl_written (s : State) (w : Word) :
    ∃ t, go (fun s => writeTscCtl w.toNat s) s = .next t ∧
      t.tick = s.tick.withEn (s.rd R.TSC_CTL_TS1_EN) (R.TSC_CTL_TS1_EN.of w.toNat) ∧
      t.rd R.TSC_CTL_OWN0 = R.TSC_CTL_OWN0.of w.toNat ∧ t.rd R.TSC_CTL_OWN1 = R.TSC_CTL_OWN1.of w.toNat ∧
      t.rd R.TSC_CTL_TS1_EN = R.TSC_CTL_TS1_EN.of w.toNat ∧ t.rd R.TSC_CTL_SLEW_MAX = R.TSC_CTL_SLEW_MAX.of w.toNat ∧
      (s.tick.latchAt ≠ some s.tick.count → Frame Reg.TSC_CTL.fields [.tick] s t) ∧
      (s.tick.latchAt = some s.tick.count → R.TSC_CTL_TS1_EN.of w.toNat ≠ s.rd R.TSC_CTL_TS1_EN → t.SnapShows) ∧
      Frame (Reg.TSC_CTL.fields ++ snapFields) [.tick] s t := by
  have hacc : ∀ f ∈ Reg.TSC_CTL.fields, f.acc = .rw ∧
      (f.acc = .ro ∨ f.acc = .wo ∨ f.acc = .rc ∨ f.acc = .sc ∨ f ∈ Reg.TSC_CTL.fields) := by decide
  let v := s.begin.storeReg false Reg.TSC_CTL w.toNat
  have hv : Frame Reg.TSC_CTL.fields [.tick] s v := frame_storeReg (fun f hf => (hacc f hf).2) (frame_begin s)
  have hw : ∀ f ∈ Reg.TSC_CTL.fields, v.rd f = f.of w.toNat := fun f hf => rd_storeReg_rw _ _ _ _ hf (hacc f hf).1 (by decide)
  have htick : v.tick = s.tick := storeReg_tick _ _ _ _
  have hbits : R.TSC_CTL_TS1_EN.of w.toNat < 2 ∧ s.rd R.TSC_CTL_TS1_EN < 2 := ⟨Nat.mod_lt _ (by decide), rd_lt s R.TSC_CTL_TS1_EN⟩
  obtain ⟨t, e, k⟩ := go_ended_of (writeTscCtl_eq w.toNat s.begin)
  dsimp only at k
  refine ⟨t, e, ?_⟩
  suffices h : ∃ x : State, x.tick = s.tick.withEn (s.rd R.TSC_CTL_TS1_EN) (R.TSC_CTL_TS1_EN.of w.toNat) ∧
      (t.tick = x.tick ∧ (∀ f ∈ Reg.TSC_CTL.fields, t.rd f = f.of w.toNat) ∧
        (s.tick.latchAt ≠ some s.tick.count → Frame Reg.TSC_CTL.fields [.tick] s t) ∧
        (s.tick.latchAt = some s.tick.count → R.TSC_CTL_TS1_EN.of w.toNat ≠ s.rd R.TSC_CTL_TS1_EN → t.SnapShows) ∧
        Frame (Reg.TSC_CTL.fields ++ snapFields) [.tick] s t) by
    obtain ⟨x, hx, ht, hrd, h1, h2, h3⟩ := h
    exact ⟨ht.trans hx, hrd _ (by decide), hrd _ (by decide), hrd _ (by decide), hrd _ (by decide), h1, h2, h3⟩
  have hmod : ∀ f, Frame Reg.TSC_CTL.fields [.tick] s (v.modBank .ts1 f) := fun f => frame_modBank (by simp) hv
  by_cases hrise : R.TSC_CTL_TS1_EN.of w.toNat = 1 ∧ s.rd R.TSC_CTL_TS1_EN ≠ 1
  · rw [if_pos (show R.TSC_CTL_TS1_EN.of w.toNat = 1 ∧ s.begin.rd R.TSC_CTL_TS1_EN ≠ 1 from hrise)] at k
    exact ⟨_, by rw [Tick.withEn, if_pos hrise, modBank_tick, htick]; rfl, tscCtl_ended (hmod _) hw rfl rfl (.inl rfl) k⟩
  · rw [if_neg (show ¬(R.TSC_CTL_TS1_EN.of w.toNat = 1 ∧ s.begin.rd R.TSC_CTL_TS1_EN ≠ 1) from hrise)] at k
    by_cases hfall : R.TSC_CTL_TS1_EN.of w.toNat ≠ 1 ∧ s.rd R.TSC_CTL_TS1_EN = 1
    · rw [if_pos (show R.TSC_CTL_TS1_EN.of w.toNat ≠ 1 ∧ s.begin.rd R.TSC_CTL_TS1_EN = 1 from hfall)] at k
      exact ⟨_, by rw [Tick.withEn, if_neg hrise, if_pos hfall, modBank_tick, htick]; rfl,
        tscCtl_ended (hmod _) hw rfl rfl (.inl rfl) k⟩
    · rw [if_neg (show ¬(R.TSC_CTL_TS1_EN.of w.toNat ≠ 1 ∧ s.begin.rd R.TSC_CTL_TS1_EN = 1) from hfall)] at k
      exact ⟨v, by rw [Tick.withEn, if_neg hrise, if_neg hfall, htick],
        tscCtl_ended hv hw (by rw [htick]) (by rw [htick]) (.inr ⟨rfl, by omega⟩) k⟩

/-! ### Snapshots (R62) -/

theorem snapTake_first {s : State} (w : Word) (h : s.rd R.TSC_SNAP_CTL_TAKE ≠ 1) :
    ∃ t, Sys2Proof.Machine.exec (.snapTake w) s = .next t ∧ t.tick = { s.tick with takeAt := s.tick.count } ∧
      t.rd R.TSC_SNAP_CTL_TAKE = 1 ∧ t.rd R.TSC_SNAP_CTL_VALID = 0 ∧ Frame [R.TSC_SNAP_CTL_TAKE, R.TSC_SNAP_CTL_VALID] [.tick] s t := by
  let v := s.begin.lo R.TSC_SNAP_CTL_VALID
  have hv : Frame [R.TSC_SNAP_CTL_TAKE, R.TSC_SNAP_CTL_VALID] [.tick] s v := frame_lo (by simp) (frame_begin s)
  have hoff : ¬v.on R.TSC_SNAP_CTL_TAKE = true := by
    rw [State.on, decide_eq_true_eq, show v.rd R.TSC_SNAP_CTL_TAKE = s.rd R.TSC_SNAP_CTL_TAKE from rd_lo_ne _ (by decide)]
    exact h
  have hvalid : v.rd R.TSC_SNAP_CTL_VALID = 0 := rd_lo_same _ _
  obtain ⟨t, e, k⟩ := go_ended_of ((if_pos (Field.of_setIn R.TSC_SNAP_CTL_TAKE w.toNat rfl)).trans (if_neg hoff))
  exact ⟨t, e, k.tick, (k.rd rfl).trans (rd_hi_same _ _), (k.rd rfl).trans ((rd_hi_ne _ (by decide)).trans hvalid),
    k.frame (frame_hi (by simp) (frame_set_tick (by simp) hv))⟩

theorem snapLatch_due {s : State} (h : s.rd R.TSC_SNAP_CTL_TAKE = 1) :
    ∃ t, Sys2Proof.Machine.exec (.snapLatch) s = .next t ∧
      t.tick = { (s.waitTick (s.tick.takeAt + 2)).tick with latchAt := some t.tick.count } ∧
      t.tick.count = max s.tick.count (s.tick.takeAt + 2) ∧ t.SnapShows ∧ t.rd R.TSC_SNAP_CTL_TAKE = 0 ∧
      t.rd R.TSC_SNAP_CTL_VALID = 1 ∧ Frame (R.TSC_SNAP_CTL_TAKE :: R.TSC_SNAP_CTL_VALID :: snapFields) [.tick, .lanes] s t := by
  let v := s.begin.waitTick (s.tick.takeAt + 2)
  let x : State := { v with tick := { v.tick with latchAt := some v.tick.count } }
  have hon : s.begin.on R.TSC_SNAP_CTL_TAKE = true := decide_eq_true h
  obtain ⟨t, e, k⟩ := go_ended_of (show snapLatch s.begin = ((latchSnap x).lo R.TSC_SNAP_CTL_TAKE).hi R.TSC_SNAP_CTL_VALID from if_pos hon)
  have hv : v.tick = (s.waitTick (s.tick.takeAt + 2)).tick := begin_advance_tick s _
  have htick : t.tick = { v.tick with latchAt := some v.tick.count } := k.tick.trans (latchSnap_tick x)
  have hcount : v.tick.count = s.tick.count + (s.tick.takeAt + 2 - s.tick.count) := by rw [hv, State.waitTick, advance_tick]
  have hkeys : ∀ f ∈ R.TSC_CTL_TS1_EN :: snapFields,
      f.key ≠ R.TSC_SNAP_CTL_TAKE.key ∧ f.key ≠ R.TSC_SNAP_CTL_VALID.key ∧ f.side = false := by decide
  have hrd : ∀ f ∈ R.TSC_CTL_TS1_EN :: snapFields, t.rd f = (latchSnap x).rd f := fun f hf =>
    (k.rd (hkeys f hf).2.2).trans ((rd_hi_ne _ (hkeys f hf).2.1).trans (rd_lo_ne _ (hkeys f hf).1))
  refine ⟨t, e, by rw [htick, hv], by rw [htick]; exact hcount.trans (by omega), ?_,
    (k.rd rfl).trans ((rd_hi_ne _ (by decide)).trans (rd_lo_same _ _)), (k.rd rfl).trans (rd_hi_same _ _), k.frame ?_⟩
  · exact snapShows_congr (snapShows_latchSnap x) (fun f hf => hrd f (List.mem_cons_of_mem _ hf)) (by unfold State.ts0; rw [k.tick]; rfl)
      (by rw [k.tick]; rfl) (hrd _ List.mem_cons_self)
  · have hx : Frame snapFields [.tick, .lanes] s x :=
      frame_set_tick (by simp) (frame_advance (by simp) (by simp) (frame_begin s))
    exact frame_hi (by simp) (frame_lo (by simp) ((frame_latchSnap hx).mono (by simp +contextual) fun p hp => hp))

/-- Settles O13: a switch by what `doSwitch` leaves, snapshots by `latchSnap`, and both writers of TSC_CTL by `writeTscCtl`. -/
theorem switchAndSnapshot : Obligations.SwitchAndSnapshot := by
  refine ⟨fun s w hen hactive hp0 hp1 hlim => switchGo_taken w ?_, fun s w hbar => ?_, fun s hrun => ?_, fun s w h => snapTake_first w h,
    fun s h => snapLatch_due h, fun s w => tscCtl_written s w, fun s w => tscCtl_written s w⟩
  · rw [← Bool.not_eq_true, switchRefused_iff]
    omega
  · have hyes : s.begin.switchRefused s.begin.tsDiff = true := (switchRefused_iff s _).2 hbar
    obtain ⟨t, e, k⟩ := go_ended_of ((writeSwitchCtl_go w.toNat s.begin).trans (if_pos hyes))
    exact ⟨t, e, (k.rd rfl).trans (rd_hi_same _ _), (k.rd rfl).trans ((rd_hi_ne _ (by decide)).trans
      (rd_switchStored_inputs _ _ _ (by simp [switchInputs]))), k.frame (frame_hi (by decide) (frame_switchStored (by decide) (frame_begin s)))⟩
  · let n := s.tick.bank0.slew.n - s.tick.bank0.slew.k
    have hon : s.begin.on R.TSC_SWITCH_CTL_ACTIVE = true := decide_eq_true hrun
    have heq : switchDone s.begin = (((s.begin.advance n).modBank .ts0 fun k => { k with slew := {} }).lo R.TSC_SWITCH_CTL_ACTIVE).hi
        R.TSC_SWITCH_CTL_DONE := (if_pos hon).trans (if_pos (slewTicks_pass .ts0 s.begin))
    obtain ⟨t, e, k⟩ := go_ended_of heq
    have htick : t.tick = (s.advance n).tick.setBank .ts0 { (s.advance n).tick.bank0 with slew := {} } := by
      rw [k.tick, hi_tick, lo_tick, modBank_tick, begin_advance_tick]; rfl
    exact ⟨t, e, by rw [htick]; simp only [advance_tick]; rfl, (k.rd rfl).trans ((rd_hi_ne _ (by decide)).trans (rd_lo_same _ _)),
      (k.rd rfl).trans (rd_hi_same _ _), k.frame (frame_hi (by simp) (frame_lo (by simp) (frame_modBank (by simp)
        (frame_advance (by simp) (by simp) (frame_begin s)))))⟩

end Sys2Proof.Machine
end

section
/-! PROOFS. The UTC offset and leap seconds (R66-R74): the writes of their registers, and the instants of a leap. -/

namespace Sys2Proof.Machine

/-! ### Instants of TS0 (R61) -/

/-- What the start of a command does is nothing to what is ahead. -/
theorem begin_waitTs0 (s : State) (x : Nat) :
    (s.begin.waitTs0 x).tick = (s.waitTs0 x).tick ∧ (s.begin.waitTs0 x).stepAhead .ts0 = (s.waitTs0 x).stepAhead .ts0 := by
  have htick : (s.begin.waitTs0 x).tick = (s.waitTs0 x).tick := begin_advance_tick s _
  have hrd : ∀ g : Field, g.side = false → (s.begin.waitTs0 x).rd g = (s.waitTs0 x).rd g := fun g hg =>
    (rd_advance _ _ hg).trans (rd_advance s _ hg).symm
  refine ⟨htick, ?_⟩
  simp only [State.stepAhead, State.stepBarred, State.on, State.nextMarker, htick, hrd (R.TSC_STEP_CTL_PENDING (bankNo .ts0)) (by decide),
    hrd R.TSC_STAT_SERVED (by decide)]

/-- A leap's instant as its command meets it: TS0 comes to it, or is stepped back before it. -/
theorem atLeap_begin (x : Nat) (f : State → State) (s : State) :
    atLeap x f s.begin = if s.comesTo x = true then f (s.begin.waitTs0 x) else s.begin.waitTs0 x := by
  obtain ⟨htick, hahead⟩ := begin_waitTs0 s x
  have hts : (s.begin.waitTs0 x).ts0 = (s.waitTs0 x).ts0 := by rw [State.ts0, State.ts0, htick]
  simp only [atLeap, State.comesTo, hahead, hts, htick, Bool.not_eq_true', Bool.and_eq_false_iff, decide_eq_false_iff_not]
  by_cases h : (s.waitTs0 x).stepAhead .ts0 = some 0 ∧ ((s.waitTs0 x).ts0 : Int) + (s.waitTs0 x).tick.bank0.stepDelta < x
  · rw [if_pos h, if_neg (by simp only [h.1, h.2]; simp)]
  · rw [if_neg h, if_pos (by tauto)]

theorem frame_waitTs0 {fs : List Field} {ps : List Part} {s₀ s : State} {x : Nat} (ht : Part.tick ∈ ps) (hl : Part.lanes ∈ ps)
    (h : Frame fs ps s₀ s) : Frame fs ps s₀ (s.waitTs0 x) := frame_advance ht hl h

theorem rd_waitTs0 (s : State) (x : Nat) {g : Field} (hg : g.side = false) : (s.waitTs0 x).rd g = s.rd g := rd_advance _ _ hg

/-- A row whose instant a step of TS0 has put off: only the time to it passes. -/
theorem leapRow_putOff {s : State} {x : Nat} {row f : State → State} (hrow : row s.begin = atLeap x f s.begin) (h : s.comesTo x = false) :
    ∃ t, go row s = .next t ∧ t.tick = (s.waitTs0 x).tick ∧ Frame [] [.tick, .lanes] s t := by
  obtain ⟨t, e, k⟩ := go_ended_of (hrow.trans ((atLeap_begin x f s).trans (if_neg (by rw [h]; decide))))
  exact ⟨t, e, k.tick.trans (begin_waitTs0 s x).1, k.frame (frame_waitTs0 (by simp) (by simp) (frame_begin s))⟩

/-- A row whose instant TS0 comes to. -/
theorem leapRow_comes {s : State} {x : Nat} {row f : State → State} (hrow : row s.begin = atLeap x f s.begin) (h : s.comesTo x = true) :
    ∃ t, go row s = .next t ∧ Ended s (f (s.begin.waitTs0 x)) t :=
  go_ended_of (hrow.trans ((atLeap_begin x f s).trans (if_pos h)))

/-- A row whose instant sets one indication. -/
theorem leapRow_indicates {s : State} {x : Nat} {row : State → State} {g : Field} (hg : g.side = false ∧ 1 % 2 ^ g.width = 1)
    (hrow : row s.begin = atLeap x (fun s => s.hi g) s.begin) (h : s.comesTo x = true) :
    ∃ t, go row s = .next t ∧ t.tick = (s.waitTs0 x).tick ∧ t.rd g = 1 ∧ Frame [g] [.tick, .lanes] s t := by
  obtain ⟨t, e, k⟩ := leapRow_comes hrow h
  exact ⟨t, e, k.tick.trans (begin_waitTs0 s x).1, (k.rd hg.1).trans ((rd_hi_same _ _).trans hg.2),
    k.frame (frame_hi (by simp) (frame_waitTs0 (by simp) (by simp) (frame_begin s)))⟩

/-! ### The rows of the instants -/

section
variable {s : State}

theorem ofsBefore_fresh (h : s.tick.leap.ofsDone = false) : s.ofsBefore = s.utcOfs := if_neg (by rw [h]; decide)

theorem leapWarn_at (ha : s.rd R.TSC_LEAP_CTL_ARMED = 1) (hd : s.tick.leap.ofsDone = false) :
    leapWarn s = atLeap (sec16 ((s.leapUtc : Int) - 86400 + s.utcOfs).toNat) (fun s => s.hi R.TSC_LEAP_CTL_WARN) s := by
  simp only [leapWarn, State.on, ha, hd, State.taiOf, ofsBefore_fresh hd]
  rfl

theorem leapSecondStart_at (ha : s.rd R.TSC_LEAP_CTL_ARMED = 1) (hd : s.tick.leap.ofsDone = false) (hk : s.tick.leap.kind = 1) :
    leapSecondStart s = atLeap (sec16 ((s.leapUtc : Int) + s.utcOfs).toNat) (fun s => s.hi R.TSC_LEAP_CTL_IN_LEAP) s := by
  simp only [leapSecondStart, State.on, ha, hd, hk, State.taiOf, ofsBefore_fresh hd]
  rfl

theorem leapOfsChange_at (ha : s.rd R.TSC_LEAP_CTL_ARMED = 1) (hd : s.tick.leap.ofsDone = false) :
    leapOfsChange s = atLeap (sec16 ((s.leapUtc : Int) + (if s.tick.leap.kind = 1 then 1 else -1) + s.utcOfs).toNat) takeLeap s := by
  simp only [leapOfsChange, State.on, ha, hd, State.leapEffect, State.taiOf, ofsBefore_fresh hd]
  rfl

theorem smearStart_at (ha : s.rd R.TSC_LEAP_CTL_ARMED = 1) (hm : s.tick.leap.smear = true) :
    smearStart s = atLeap s.smearFrom (fun s => s.hi R.TSC_LEAP_CTL_SMEARING) s := by
  simp only [smearStart, State.on, ha, hm]
  rfl

theorem smearEnd_at (hm : s.rd R.TSC_LEAP_CTL_SMEARING = 1) : smearEnd s = atLeap (s.smearFrom + sec16 86400) doneLeap s := by
  simp only [smearEnd, State.on, hm]
  rfl

end

/-! ### A leap takes effect and ends (R71, R73) -/

/-- The indications that fall as a leap ends. -/
def leapIndications : List Field :=
  [R.TSC_LEAP_CTL_ARM, R.TSC_LEAP_CTL_ARMED, R.TSC_LEAP_CTL_WARN, R.TSC_LEAP_CTL_IN_LEAP, R.TSC_LEAP_CTL_SMEARING]

section
variable {fs : List Field} {ps : List Part} {s₀ s : State}

theorem frame_endLeap (hf : ∀ f ∈ leapIndications, f ∈ fs) (h : Frame fs ps s₀ s) : Frame fs ps s₀ (endLeap s) := by
  simp only [leapIndications, List.forall_mem_cons] at hf
  obtain ⟨harm, harmed, hwarn, hin, hsmear, -⟩ := hf
  exact frame_lo hsmear (frame_lo hin (frame_lo hwarn (frame_lo harmed (frame_lo harm h))))

theorem rd_endLeap (s : State) : ∀ f ∈ leapIndications, (endLeap s).rd f = 0 := by
  simp only [leapIndications, List.forall_mem_cons]
  refine ⟨?_, ?_, ?_, ?_, ?_, fun f hf => absurd hf List.not_mem_nil⟩ <;>
    simp (disch := decide) only [endLeap, rd_lo_same, rd_lo_ne]

@[simp] theorem endLeap_tick (s : State) : (endLeap s).tick = s.tick := rfl
@[simp] theorem endLeap_log (s : State) : (endLeap s).log = s.log := rfl

theorem frame_doneLeap (hf : ∀ f ∈ R.TSC_LEAP_CTL_DONE :: leapIndications, f ∈ fs) (ht : Part.tick ∈ ps) (h : Frame fs ps s₀ s) :
    Frame fs ps s₀ (doneLeap s) :=
  frame_hi (hf _ List.mem_cons_self) (frame_endLeap (fun f hm => hf f (List.mem_cons_of_mem _ hm)) (frame_set_tick ht h))

theorem rd_doneLeap (s : State) : (doneLeap s).rd R.TSC_LEAP_CTL_DONE = 1 ∧ ∀ f ∈ leapIndications, (doneLeap s).rd f = 0 := by
  have hkeys : ∀ f ∈ leapIndications, f.key ≠ R.TSC_LEAP_CTL_DONE.key := by decide
  exact ⟨rd_hi_same _ _, fun f hf => (rd_hi_ne _ (hkeys f hf)).trans (rd_endLeap _ f hf)⟩

/-- A leap that is over is kept with its instant. -/
theorem doneLeap_past (s : State) : (doneLeap s).tick.past = { (doneLeap s).tick.leap with utc := s.leapUtc } := rfl

theorem doneLeap_log (s : State) : (doneLeap s).log = s.log := rfl

theorem doneLeap_tick (s : State) : (doneLeap s).tick = { s.tick with past := s.armedLeap } := rfl

end

/-- OFS as a leap leaves it. -/
def State.leapOfs (s : State) : Int := s.utcOfs + (if s.tick.leap.kind = 1 then 1 else -1)

/-- The state once a leap has taken effect, before it ends. -/
def leapTaken (s : State) : State :=
  ((({ s with tick := { s.tick with leap := { s.tick.leap with ofsDone := true, ofsOld := s.utcOfs } } } : State).wr R.TSC_UTC_OFS_OFS
    (ofSigned 16 s.leapOfs)).lo R.TSC_LEAP_CTL_WARN |>.lo R.TSC_LEAP_CTL_IN_LEAP).logRec 0x0202 s.tick.leap.kind 0 (le 2 (ofSigned 16 s.leapOfs))

theorem takeLeap_eq (s : State) : takeLeap s = if s.tick.leap.smear then leapTaken s else doneLeap (leapTaken s) := rfl

theorem leapTaken_tick (s : State) :
    (leapTaken s).tick = { s.tick with leap := { s.tick.leap with ofsDone := true, ofsOld := s.utcOfs } } := by
  rw [leapTaken, logRec_tick]; rfl

/-- What a leap's effect writes before it ends. -/
def leapTakenFields : List Field := [R.TSC_UTC_OFS_OFS, R.TSC_LEAP_CTL_WARN, R.TSC_LEAP_CTL_IN_LEAP] ++ logFields

theorem frame_leapTaken {fs : List Field} {ps : List Part} {s₀ s : State} (hf : ∀ f ∈ leapTakenFields, f ∈ fs) (ht : Part.tick ∈ ps)
    (hl : Part.log ∈ ps) (h : Frame fs ps s₀ s) : Frame fs ps s₀ (leapTaken s) :=
  frame_logRec (fun f hm => hf f (List.mem_append_right _ hm)) hl (frame_lo (hf _ (by simp [leapTakenFields]))
    (frame_lo (hf _ (by simp [leapTakenFields])) (frame_wr (hf _ (by simp [leapTakenFields])) (frame_set_tick ht h))))

theorem ofSigned_lt (w : Nat) (i : Int) : ofSigned w i < 2 ^ w := by
  have hpos : (0 : Int) < (2 ^ w : Nat) := by exact_mod_cast Nat.two_pow_pos w
  have hlt := Int.emod_lt_of_pos i hpos
  have hnn := Int.emod_nonneg i hpos.ne'
  unfold ofSigned
  omega

theorem rd_leapTaken (s : State) : (leapTaken s).rd R.TSC_UTC_OFS_OFS = ofSigned 16 s.leapOfs ∧
    (leapTaken s).rd R.TSC_LEAP_CTL_WARN = 0 ∧ (leapTaken s).rd R.TSC_LEAP_CTL_IN_LEAP = 0 ∧
    (leapTaken s).rd R.LOG_NEXT_SEQ = (s.rd R.LOG_NEXT_SEQ + 1) % 2 ^ 32 := by
  refine ⟨?_, ?_, ?_, (rd_logRec_next _ _ _ _ _).trans (congrArg (fun n => (n + 1) % 2 ^ 32) ?_)⟩
  · rw [leapTaken, rd_logRec_ne _ _ _ _ _ (by decide) (by decide) (by decide) (by decide) rfl, rd_lo_ne _ (by decide),
      rd_lo_ne _ (by decide)]
    exact (rd_wr_same _ _ _).trans (Nat.mod_eq_of_lt (ofSigned_lt 16 _))
  · rw [leapTaken, rd_logRec_ne _ _ _ _ _ (by decide) (by decide) (by decide) (by decide) rfl, rd_lo_ne _ (by decide)]
    exact rd_lo_same _ _
  · rw [leapTaken, rd_logRec_ne _ _ _ _ _ (by decide) (by decide) (by decide) (by decide) rfl]
    exact rd_lo_same _ _
  · rw [rd_lo_ne _ (by decide), rd_lo_ne _ (by decide), rd_wr_ne _ _ (by decide)]; rfl

/-- The record of a leap takes the next place of the log. -/
theorem leapTaken_record (s : State) : (IMap.get {} (leapTaken s).log (s.rd R.LOG_NEXT_SEQ % 131072)).event = 0x0202 := by
  have hnext : (((({ s with tick := { s.tick with leap := { s.tick.leap with ofsDone := true, ofsOld := s.utcOfs } } } : State).wr
      R.TSC_UTC_OFS_OFS (ofSigned 16 s.leapOfs)).lo R.TSC_LEAP_CTL_WARN).lo R.TSC_LEAP_CTL_IN_LEAP).rd R.LOG_NEXT_SEQ = s.rd R.LOG_NEXT_SEQ := by
    rw [rd_lo_ne _ (by decide), rd_lo_ne _ (by decide), rd_wr_ne _ _ (by decide)]; rfl
  rw [leapTaken, logRec_log, hnext, show logSize = 131072 from rfl, IMap.get_put_same]

/-- LEAP_OFS_CHANGE where TS0 comes to the instant. -/
theorem leapOfsChange_done {s : State} {x : Nat} (hrow : leapOfsChange s.begin = atLeap x takeLeap s.begin) (h : s.comesTo x = true)
    (ha : s.rd R.TSC_LEAP_CTL_ARMED = 1) :
    ∃ t, go leapOfsChange s = .next t ∧ t.tick.bank0 = (s.waitTs0 x).tick.bank0 ∧ t.tick.leap.ofsDone = true ∧
      t.tick.leap.ofsOld = s.utcOfs ∧ t.rd R.TSC_UTC_OFS_OFS = ofSigned 16 (s.utcOfs + (if s.tick.leap.kind = 1 then 1 else -1)) ∧
      t.rd R.TSC_LEAP_CTL_WARN = 0 ∧ t.rd R.TSC_LEAP_CTL_IN_LEAP = 0 ∧
      (s.tick.leap.smear = false → t.rd R.TSC_LEAP_CTL_ARMED = 0 ∧ t.rd R.TSC_LEAP_CTL_ARM = 0 ∧ t.rd R.TSC_LEAP_CTL_DONE = 1 ∧
        t.tick.past = { t.tick.leap with utc := s.leapUtc }) ∧
      (s.tick.leap.smear = true → t.rd R.TSC_LEAP_CTL_ARMED = 1 ∧ t.rd R.TSC_LEAP_CTL_DONE = s.rd R.TSC_LEAP_CTL_DONE) ∧
      (IMap.get {} t.log (s.rd R.LOG_NEXT_SEQ % 131072)).event = 0x0202 ∧
      t.rd R.LOG_NEXT_SEQ = (s.rd R.LOG_NEXT_SEQ + 1) % 2 ^ 32 ∧
      Frame (R.TSC_UTC_OFS_OFS :: Reg.TSC_LEAP_CTL.fields ++ logFields) [.tick, .lanes, .log] s t := by
  let v := s.begin.waitTs0 x
  have htick : v.tick = (s.waitTs0 x).tick := (begin_waitTs0 s x).1
  have hleap : v.tick.leap = s.tick.leap := by rw [htick, State.waitTs0, advance_tick]
  have hrd : ∀ g : Field, g.side = false → v.rd g = s.rd g := fun g hg => rd_waitTs0 _ _ hg
  have hofs : v.utcOfs = s.utcOfs := by rw [State.utcOfs, State.rdSigned, hrd _ (by decide)]; rfl
  have hnew : v.leapOfs = s.utcOfs + (if s.tick.leap.kind = 1 then 1 else -1) := by rw [State.leapOfs, hofs, hleap]
  have hutc : v.leapUtc = s.leapUtc := by rw [State.leapUtc, hrd _ (by decide), hrd _ (by decide)]; rfl
  have hnext : v.rd R.LOG_NEXT_SEQ = s.rd R.LOG_NEXT_SEQ := hrd _ (by decide)
  obtain ⟨hOfs, hwarn, hin, hseq⟩ := rd_leapTaken v
  have hrec := leapTaken_record v
  have htaken := leapTaken_tick v
  have hframe : Frame (R.TSC_UTC_OFS_OFS :: Reg.TSC_LEAP_CTL.fields ++ logFields) [.tick, .lanes, .log] s (leapTaken v) :=
    frame_leapTaken (by decide) (by simp) (by simp) (frame_waitTs0 (by simp) (by simp) (frame_begin s))
  have hkept : ∀ g ∈ [R.TSC_LEAP_CTL_ARMED, R.TSC_LEAP_CTL_DONE], (leapTaken v).rd g = s.rd g := by
    have hkeys : ∀ g ∈ [R.TSC_LEAP_CTL_ARMED, R.TSC_LEAP_CTL_DONE], (∀ f ∈ leapTakenFields, g.key ≠ f.key) ∧ g.side = false := by decide
    exact fun g hg => ((frame_leapTaken (fun _ hm => hm) (by simp) (by simp) (Frame.refl leapTakenFields [.tick, .log] v)).rd
      (hkeys g hg).1 (hkeys g hg).2).trans (hrd g (hkeys g hg).2)
  rw [hnew] at hOfs
  rw [hnext] at hseq hrec
  obtain ⟨t, e, k⟩ := leapRow_comes hrow h
  rw [takeLeap_eq, hleap] at k
  cases hm : s.tick.leap.smear with
  | true =>
    rw [if_pos hm] at k
    refine ⟨t, e, by rw [k.tick, htaken, htick], by rw [k.tick, htaken], by rw [k.tick, htaken, hofs], (k.rd rfl).trans hOfs,
      (k.rd rfl).trans hwarn, (k.rd rfl).trans hin, fun hf => by simp at hf,
      fun _ => ⟨(k.rd rfl).trans ((hkept _ (by simp)).trans ha), (k.rd rfl).trans (hkept _ (by simp))⟩, by rw [k.log]; exact hrec,
      (k.rd (by decide)).trans hseq, k.frame hframe⟩
  | false =>
    rw [if_neg (by rw [hm]; decide)] at k
    have hend : Frame (R.TSC_LEAP_CTL_DONE :: leapIndications) [.tick] (leapTaken v) (doneLeap (leapTaken v)) :=
      frame_doneLeap (fun _ hm => hm) (by simp) (Frame.refl _ _ _)
    obtain ⟨hdone, hoff⟩ := rd_doneLeap (leapTaken v)
    have hutc' : (leapTaken v).leapUtc = s.leapUtc := by
      have hf := frame_leapTaken (fun _ hm => hm) (by simp) (by simp) (Frame.refl leapTakenFields [.tick, .log] v)
      rw [State.leapUtc, hf.rd (by decide) rfl, hf.rd (by decide) rfl]; exact hutc
    refine ⟨t, e, by rw [k.tick, doneLeap_tick, htaken, htick], by rw [k.tick, doneLeap_tick, htaken],
      by rw [k.tick, doneLeap_tick, htaken, hofs], (k.rd rfl).trans ((hend.rd (by decide) rfl).trans hOfs),
      (k.rd rfl).trans (hoff _ (by decide)), (k.rd rfl).trans (hoff _ (by decide)),
      fun _ => ⟨(k.rd rfl).trans (hoff _ (by decide)), (k.rd rfl).trans (hoff _ (by decide)), (k.rd rfl).trans hdone, ?_⟩,
      fun ht => by simp at ht, by rw [k.log, doneLeap_log]; exact hrec, (k.rd (by decide)).trans ((hend.rd (by decide) (by decide)).trans hseq), k.frame ?_⟩
    · rw [k.tick, doneLeap_past, hutc']
    · exact frame_doneLeap (by decide) (by simp) hframe

/-- SMEAR_END where TS0 comes to the instant. -/
theorem smearEnd_done {s : State} (hm : s.rd R.TSC_LEAP_CTL_SMEARING = 1) (h : s.comesTo (s.smearFrom + sec16 86400) = true) :
    ∃ t, go smearEnd s = .next t ∧
      t.tick = { (s.waitTs0 (s.smearFrom + sec16 86400)).tick with past := { s.tick.leap with utc := s.leapUtc } } ∧
      t.rd R.TSC_LEAP_CTL_SMEARING = 0 ∧ t.rd R.TSC_LEAP_CTL_ARM = 0 ∧ t.rd R.TSC_LEAP_CTL_ARMED = 0 ∧
      t.rd R.TSC_LEAP_CTL_DONE = 1 ∧ Frame Reg.TSC_LEAP_CTL.fields [.tick, .lanes] s t := by
  let v := s.begin.waitTs0 (s.smearFrom + sec16 86400)
  have htick : v.tick = (s.waitTs0 (s.smearFrom + sec16 86400)).tick := (begin_waitTs0 s _).1
  have hleap : v.tick.leap = s.tick.leap := by rw [htick, State.waitTs0, advance_tick]
  have hutc : v.leapUtc = s.leapUtc := by rw [State.leapUtc, rd_waitTs0 _ _ (by decide), rd_waitTs0 _ _ (by decide)]; rfl
  have hrow : smearEnd s.begin = atLeap (s.smearFrom + sec16 86400) doneLeap s.begin := smearEnd_at hm
  obtain ⟨t, e, k⟩ := leapRow_comes hrow h
  obtain ⟨hdone, hoff⟩ := rd_doneLeap v
  refine ⟨t, e, ?_, (k.rd rfl).trans (hoff _ (by decide)), (k.rd rfl).trans (hoff _ (by decide)), (k.rd rfl).trans (hoff _ (by decide)),
    (k.rd rfl).trans hdone, k.frame (frame_doneLeap (by decide) (by simp) (frame_waitTs0 (by simp) (by simp) (frame_begin s)))⟩
  rw [k.tick, doneLeap_tick, State.armedLeap, hleap, hutc, htick]

end Sys2Proof.Machine
end

section
/-! PROOFS. The writes of TSC_UTC_OFS and TSC_LEAP_CTL (R66, R69, R70, R74), and the statement about UTC and leaps. -/

namespace Sys2Proof.Machine

/-! ### TSC_UTC_OFS (R66) -/

theorem rd_forgetPast (s : State) (g : Field) : (forgetPast s).rd g = s.rd g := rfl

theorem utcOfs_taken {s : State} (w : Word) (h : s.rd R.TSC_LEAP_CTL_ARMED ≠ 1) :
    ∃ t, Sys2Proof.Machine.exec (.utcOfsWrite w) s = .next t ∧ t.rd R.TSC_UTC_OFS_OFS = w.toNat % 65536 ∧ t.rd R.TSC_UTC_OFS_VALID = 1 ∧
      t.tick = { s.tick with past := {}, leap := { s.tick.leap with back := s.tick.leap.ofsDone } } ∧
      (∀ x, t.ofsAt x = t.utcOfs) ∧ Frame [R.TSC_UTC_OFS_OFS, R.TSC_UTC_OFS_VALID] [.tick] s t := by
  let v := s.begin.storeReg false Reg.TSC_UTC_OFS w.toNat
  have hv : Frame [R.TSC_UTC_OFS_OFS, R.TSC_UTC_OFS_VALID] [.tick] s v := frame_storeReg (by decide) (frame_begin s)
  have hofs : v.rd R.TSC_UTC_OFS_OFS = w.toNat % 65536 :=
    (rd_storeReg_rw _ _ _ _ (by decide) rfl (by decide)).trans (by simp [Field.of, R.TSC_UTC_OFS_OFS, Field.mk'])
  have hoff : ¬s.begin.on R.TSC_LEAP_CTL_ARMED = true := by rw [State.on, decide_eq_true_eq]; exact h
  obtain ⟨t, e, k⟩ := go_ended_of (show writeUtcOfs w.toNat s.begin = forgetPast (v.hi R.TSC_UTC_OFS_VALID) from if_neg hoff)
  have hframe : Frame [R.TSC_UTC_OFS_OFS, R.TSC_UTC_OFS_VALID] [.tick] s t :=
    k.frame (frame_set_tick (by simp) (frame_hi (by simp) hv))
  have htick : t.tick = { s.tick with past := {}, leap := { s.tick.leap with back := s.tick.leap.ofsDone } } := by
    rw [k.tick, forgetPast, hi_tick, show v.tick = s.tick from storeReg_tick _ _ _ _]
  have harmed : t.on R.TSC_LEAP_CTL_ARMED = false := by
    rw [State.on, hframe.rd (by decide) rfl, decide_eq_false_iff_not]; exact h
  refine ⟨t, e, (k.rd rfl).trans ((rd_forgetPast _ _).trans ((rd_hi_ne v (by decide)).trans hofs)),
    (k.rd rfl).trans ((rd_forgetPast _ _).trans (rd_hi_same v _)), htick, fun x => ?_, hframe⟩
  have hpast : t.beforePast x = false := by rw [State.beforePast, htick]; rfl
  rw [State.ofsAt, hpast, harmed]
  rfl

theorem utcOfs_refused {s : State} (w : Word) (h : s.rd R.TSC_LEAP_CTL_ARMED = 1) :
    ∃ t, Sys2Proof.Machine.exec (.utcOfsWrite w) s = .next t ∧ t.rd R.TSC_LEAP_CTL_REFUSED = 1 ∧ Frame [R.TSC_LEAP_CTL_REFUSED] [] s t := by
  have hon : s.begin.on R.TSC_LEAP_CTL_ARMED = true := decide_eq_true h
  obtain ⟨t, e, k⟩ := go_ended_of (show writeUtcOfs w.toNat s.begin = s.begin.hi R.TSC_LEAP_CTL_REFUSED from if_pos hon)
  exact ⟨t, e, (k.rd rfl).trans (rd_hi_same _ _), k.frame (frame_hi (by simp) (frame_begin s))⟩

/-! ### TSC_LEAP_CTL (R69, R70, R74) -/

/-- The fields of TSC_LEAP_CTL that take bits of a written word (R10). -/
def leapStored : List Field :=
  [R.TSC_LEAP_CTL_KIND, R.TSC_LEAP_CTL_ARM, R.TSC_LEAP_CTL_SMEAR, R.TSC_LEAP_CTL_SMEAR_LATE, R.TSC_LEAP_CTL_REFUSED, R.TSC_LEAP_CTL_DONE]

/-- What decides on a leap's arming and cancelling. -/
def leapInputs : List Field :=
  [R.TSC_LEAP_CTL_ARMED, R.TSC_LEAP_CTL_SMEARING, R.TSC_UTC_OFS_OFS, R.TSC_UTC_OFS_VALID, R.TSC_LEAP_UTC_LO_UTC, R.TSC_LEAP_UTC_HI_UTC]

/-- The state once a word has been stored in TSC_LEAP_CTL. -/
def State.leapWritten (s : State) (w : Nat) : State := s.storeReg false Reg.TSC_LEAP_CTL w

theorem frame_leapWritten {fs : List Field} {ps : List Part} {s₀ s : State} {w : Nat} (hf : ∀ f ∈ leapStored, f ∈ fs)
    (h : Frame fs ps s₀ s) : Frame fs ps s₀ (s.leapWritten w) := by
  have hacc : ∀ f ∈ Reg.TSC_LEAP_CTL.fields, f.acc = .ro ∨ f.acc = .wo ∨ f.acc = .rc ∨ f.acc = .sc ∨ f ∈ leapStored := by decide
  exact frame_storeReg (fun f hm => (hacc f hm).imp_right (Or.imp_right (Or.imp_right (Or.imp_right (hf f))))) h

section
variable (w : Nat) (s : State)

@[simp] theorem leapWritten_tick : (s.leapWritten w).tick = s.tick := storeReg_tick _ _ _ _

theorem rd_leapWritten_inputs : ∀ g ∈ leapInputs, (s.leapWritten w).rd g = s.rd g := by
  have hkeys : ∀ g ∈ leapInputs, (∀ f ∈ leapStored, g.key ≠ f.key) ∧ g.side = false := by decide
  exact fun g hg => (frame_leapWritten (fun _ hm => hm) (Frame.refl leapStored [] s)).rd (hkeys g hg).1 (hkeys g hg).2

theorem leapWritten_utcOfs : (s.leapWritten w).utcOfs = s.utcOfs := by
  rw [State.utcOfs, State.utcOfs, State.rdSigned, State.rdSigned, rd_leapWritten_inputs w s _ (by simp [leapInputs])]

theorem leapWritten_leapUtc : (s.leapWritten w).leapUtc = s.leapUtc := by
  rw [State.leapUtc, State.leapUtc, rd_leapWritten_inputs w s _ (by simp [leapInputs]), rd_leapWritten_inputs w s _ (by simp [leapInputs])]

theorem leapWritten_ts0 : (s.leapWritten w).ts0 = s.ts0 := by rw [State.ts0, State.ts0, leapWritten_tick]

theorem leapWritten_leapLast : (s.leapWritten w).leapLast = s.leapLast := by
  simp only [State.leapLast, State.taiOf, State.ofsBefore, leapWritten_tick, leapWritten_utcOfs, leapWritten_leapUtc]

/-- KIND, ARM and SMEAR hold what is written. -/
theorem rd_leapWritten_rw : ∀ f ∈ [R.TSC_LEAP_CTL_KIND, R.TSC_LEAP_CTL_ARM, R.TSC_LEAP_CTL_SMEAR], (s.leapWritten w).rd f = f.of w := by
  have hmem : ∀ f ∈ [R.TSC_LEAP_CTL_KIND, R.TSC_LEAP_CTL_ARM, R.TSC_LEAP_CTL_SMEAR], f ∈ Reg.TSC_LEAP_CTL.fields ∧ f.acc = .rw := by decide
  exact fun f hf => rd_storeReg_rw _ _ _ _ (hmem f hf).1 (hmem f hf).2 (by decide)

end

/-- The word LEAP_ARM writes keeps KIND and SMEAR. -/
theorem armWord (w : Nat) : R.TSC_LEAP_CTL_KIND.of (R.TSC_LEAP_CTL_ARM.setIn w) = R.TSC_LEAP_CTL_KIND.of w ∧
    R.TSC_LEAP_CTL_SMEAR.of (R.TSC_LEAP_CTL_ARM.setIn w) = R.TSC_LEAP_CTL_SMEAR.of w :=
  ⟨Field.of_setIn_below _ _ _ (by decide), Field.of_setIn_above _ _ _ (by decide)⟩

/-- What R69 refuses an arming for. -/
theorem armRefused_iff (s : State) (kind : Nat) : s.armRefused kind = true ↔ s.leapUtc % 86400 ≠ 0 ∨
    (s.leapUtc : Int) * 65536000000000 < (s.ts0 : Int) - s.utcOfs * 65536000000000 + 65536000000000 ∨ kind = 0 ∨ kind = 3 ∨
      s.rd R.TSC_UTC_OFS_VALID ≠ 1 := by
  simp [State.armRefused, State.on, or_assoc]

theorem armRefused_leapWritten (w kind : Nat) (s : State) : (s.leapWritten w).armRefused kind = true ↔ s.armRefused kind = true := by
  simp only [armRefused_iff, leapWritten_leapUtc, leapWritten_ts0, leapWritten_utcOfs, rd_leapWritten_inputs w s R.TSC_UTC_OFS_VALID (by decide)]

/-- A write of TSC_LEAP_CTL, by ARM as written and ARMED. -/
theorem writeLeapCtl_eq (w : Nat) (s : State) : writeLeapCtl w s =
    let v := s.leapWritten w
    let arm := R.TSC_LEAP_CTL_ARM.of w = 1
    if arm && !s.on R.TSC_LEAP_CTL_ARMED then
      if v.armRefused (v.rd R.TSC_LEAP_CTL_KIND) then (v.lo R.TSC_LEAP_CTL_ARM).hi R.TSC_LEAP_CTL_REFUSED else armLeap v
    else if !arm && s.on R.TSC_LEAP_CTL_ARMED then
      if v.on R.TSC_LEAP_CTL_SMEARING || decide (v.leapLast ≤ v.ts0) then (v.hi R.TSC_LEAP_CTL_ARM).hi R.TSC_LEAP_CTL_REFUSED
      else endLeap v
    else v := rfl

/-- LEAP_ARM while no leap is armed. -/
theorem writeLeapCtl_arm {s : State} (w : Nat) (h : s.rd R.TSC_LEAP_CTL_ARMED ≠ 1) :
    writeLeapCtl (R.TSC_LEAP_CTL_ARM.setIn w) s =
      if s.armRefused (R.TSC_LEAP_CTL_KIND.of w) = true then
        ((s.leapWritten (R.TSC_LEAP_CTL_ARM.setIn w)).lo R.TSC_LEAP_CTL_ARM).hi R.TSC_LEAP_CTL_REFUSED
      else armLeap (s.leapWritten (R.TSC_LEAP_CTL_ARM.setIn w)) := by
  have hoff : s.on R.TSC_LEAP_CTL_ARMED = false := decide_eq_false h
  have harm : R.TSC_LEAP_CTL_ARM.of (R.TSC_LEAP_CTL_ARM.setIn w) = 1 := Field.of_setIn _ _ rfl
  have hkind := (rd_leapWritten_rw (R.TSC_LEAP_CTL_ARM.setIn w) s R.TSC_LEAP_CTL_KIND (by simp)).trans (armWord w).1
  simp [writeLeapCtl_eq, hoff, harm, hkind, armRefused_leapWritten]

/-- LEAP_CANCEL while one is. -/
theorem writeLeapCtl_cancel {s : State} (w : Nat) (h : s.rd R.TSC_LEAP_CTL_ARMED = 1) :
    writeLeapCtl (R.TSC_LEAP_CTL_ARM.clearIn w) s =
      if s.rd R.TSC_LEAP_CTL_SMEARING = 1 ∨ s.leapLast ≤ s.ts0 then
        ((s.leapWritten (R.TSC_LEAP_CTL_ARM.clearIn w)).hi R.TSC_LEAP_CTL_ARM).hi R.TSC_LEAP_CTL_REFUSED
      else endLeap (s.leapWritten (R.TSC_LEAP_CTL_ARM.clearIn w)) := by
  have harm : R.TSC_LEAP_CTL_ARM.of (R.TSC_LEAP_CTL_ARM.clearIn w) = 0 := Field.of_clearIn _ _ rfl
  have hsmear := rd_leapWritten_inputs (R.TSC_LEAP_CTL_ARM.clearIn w) s R.TSC_LEAP_CTL_SMEARING (by decide)
  have hon : s.on R.TSC_LEAP_CTL_ARMED = true := decide_eq_true h
  have hsm : (s.leapWritten (R.TSC_LEAP_CTL_ARM.clearIn w)).on R.TSC_LEAP_CTL_SMEARING = decide (s.rd R.TSC_LEAP_CTL_SMEARING = 1) := by
    rw [State.on, hsmear]
  simp [writeLeapCtl_eq, hon, harm, hsm, leapWritten_leapLast, leapWritten_ts0]

/-- Whether a smear asked for comes too late (R74). -/
def State.smearLate (s : State) (smear : Nat) : Bool :=
  decide (smear = 1) && decide (sec16 ((s.leapUtc : Int) - 43200 + s.utcOfs).toNat ≤ s.ts0)

/-- A smear is latched where it is asked for in time. -/
theorem smear_in_time (a now start : Nat) :
    (decide (a = 1) && !(decide (a = 1) && decide (start ≤ now))) = decide (a = 1 ∧ now < start) := by
  rw [Bool.eq_iff_iff]
  simp only [Bool.and_eq_true, Bool.not_eq_true', Bool.and_eq_false_iff, decide_eq_true_eq, decide_eq_false_iff_not]
  omega

/-- What an arming latches. -/
def State.leapLatched (s : State) (kind smear : Nat) : Leap :=
  { kind := kind, smear := decide (smear = 1) && !s.smearLate smear, ofsDone := false, ofsOld := 0 }

/-- A leap armed, before what a late smear sets. -/
def leapArmed (s : State) : State :=
  ((({ s with tick := { s.tick with leap := s.leapLatched (s.rd R.TSC_LEAP_CTL_KIND) (s.rd R.TSC_LEAP_CTL_SMEAR) } } : State).hi
    R.TSC_LEAP_CTL_ARM).hi R.TSC_LEAP_CTL_ARMED)

theorem armLeap_eq (s : State) :
    armLeap s = if s.smearLate (s.rd R.TSC_LEAP_CTL_SMEAR) then (leapArmed s).hi R.TSC_LEAP_CTL_SMEAR_LATE else leapArmed s := rfl

theorem armLeap_tick (s : State) :
    (armLeap s).tick = { s.tick with leap := s.leapLatched (s.rd R.TSC_LEAP_CTL_KIND) (s.rd R.TSC_LEAP_CTL_SMEAR) } := by
  rw [armLeap_eq]; split <;> rfl

theorem rd_armLeap (s : State) : (armLeap s).rd R.TSC_LEAP_CTL_ARMED = 1 ∧ (armLeap s).rd R.TSC_LEAP_CTL_ARM = 1 ∧
    (s.smearLate (s.rd R.TSC_LEAP_CTL_SMEAR) = true → (armLeap s).rd R.TSC_LEAP_CTL_SMEAR_LATE = 1) := by
  have harmed : (leapArmed s).rd R.TSC_LEAP_CTL_ARMED = 1 := rd_hi_same _ _
  have harm : (leapArmed s).rd R.TSC_LEAP_CTL_ARM = 1 := (rd_hi_ne _ (by decide)).trans (rd_hi_same _ _)
  rw [armLeap_eq]
  split
  · exact ⟨(rd_hi_ne _ (by decide)).trans harmed, (rd_hi_ne _ (by decide)).trans harm, fun _ => rd_hi_same _ _⟩
  · exact ⟨harmed, harm, fun h => absurd h (by assumption)⟩

theorem frame_armLeap {fs : List Field} {ps : List Part} {s₀ s : State}
    (hf : ∀ f ∈ [R.TSC_LEAP_CTL_ARM, R.TSC_LEAP_CTL_ARMED, R.TSC_LEAP_CTL_SMEAR_LATE], f ∈ fs) (ht : Part.tick ∈ ps)
    (h : Frame fs ps s₀ s) : Frame fs ps s₀ (armLeap s) := by
  have harmed : Frame fs ps s₀ (leapArmed s) := frame_hi (hf _ (by simp)) (frame_hi (hf _ (by simp)) (frame_set_tick ht h))
  rw [armLeap_eq]
  exact frame_ite (frame_hi (hf _ (by simp)) harmed) harmed

theorem leapArm_taken {s : State} (w : Word) (h : s.rd R.TSC_LEAP_CTL_ARMED ≠ 1) (hr : ¬s.armRefused (R.TSC_LEAP_CTL_KIND.of w.toNat) = true) :
    ∃ t, Sys2Proof.Machine.exec (.leapArm w) s = .next t ∧ t.rd R.TSC_LEAP_CTL_ARMED = 1 ∧ t.rd R.TSC_LEAP_CTL_ARM = 1 ∧
      t.tick.leap.kind = R.TSC_LEAP_CTL_KIND.of w.toNat ∧ t.tick.leap.ofsDone = false ∧
      t.tick.leap.smear = (R.TSC_LEAP_CTL_SMEAR.of w.toNat = 1 ∧ s.ts0 < sec16 ((s.leapUtc : Int) - 43200 + s.utcOfs).toNat : Bool) ∧
      (R.TSC_LEAP_CTL_SMEAR.of w.toNat = 1 → sec16 ((s.leapUtc : Int) - 43200 + s.utcOfs).toNat ≤ s.ts0 → t.rd R.TSC_LEAP_CTL_SMEAR_LATE = 1) ∧
      t.tick.count = s.tick.count ∧ t.tick.bank0 = s.tick.bank0 ∧ t.tick.bank1 = s.tick.bank1 ∧
      Frame Reg.TSC_LEAP_CTL.fields [.tick] s t := by
  let v := s.begin.leapWritten (R.TSC_LEAP_CTL_ARM.setIn w.toNat)
  have hrw := rd_leapWritten_rw (R.TSC_LEAP_CTL_ARM.setIn w.toNat) s.begin
  have hkind : v.rd R.TSC_LEAP_CTL_KIND = _ := (hrw R.TSC_LEAP_CTL_KIND (by simp)).trans (armWord w.toNat).1
  have hsmear : v.rd R.TSC_LEAP_CTL_SMEAR = _ := (hrw R.TSC_LEAP_CTL_SMEAR (by simp)).trans (armWord w.toNat).2
  have hlate : v.smearLate (R.TSC_LEAP_CTL_SMEAR.of w.toNat) = s.smearLate (R.TSC_LEAP_CTL_SMEAR.of w.toNat) := by
    rw [State.smearLate, leapWritten_leapUtc, leapWritten_utcOfs, leapWritten_ts0]; rfl
  have hrun : ¬s.begin.armRefused (R.TSC_LEAP_CTL_KIND.of w.toNat) = true := hr
  obtain ⟨t, e, k⟩ := go_ended_of ((writeLeapCtl_arm (s := s.begin) w.toNat h).trans (if_neg hrun))
  have htick : t.tick = { s.tick with leap := s.leapLatched (R.TSC_LEAP_CTL_KIND.of w.toNat) (R.TSC_LEAP_CTL_SMEAR.of w.toNat) } := by
    rw [k.tick, armLeap_tick, hkind, hsmear, State.leapLatched, hlate, leapWritten_tick]; rfl
  obtain ⟨harmed, harm, hset⟩ := rd_armLeap v
  refine ⟨t, e, (k.rd rfl).trans harmed, (k.rd rfl).trans harm, by rw [htick]; rfl, by rw [htick]; rfl, ?_, fun h1 h2 => ?_, by rw [htick],
    by rw [htick], by rw [htick], k.frame (frame_armLeap (by decide) (by simp) (frame_leapWritten (by decide) (frame_begin s)))⟩
  · rw [htick]
    exact smear_in_time _ _ _
  · refine (k.rd rfl).trans (hset ?_)
    rw [hsmear, hlate, State.smearLate, decide_eq_true h1, decide_eq_true h2]; rfl

theorem leapArm_refused {s : State} (w : Word) (h : s.rd R.TSC_LEAP_CTL_ARMED ≠ 1) (hr : s.armRefused (R.TSC_LEAP_CTL_KIND.of w.toNat) = true) :
    ∃ t, Sys2Proof.Machine.exec (.leapArm w) s = .next t ∧ t.rd R.TSC_LEAP_CTL_REFUSED = 1 ∧ t.rd R.TSC_LEAP_CTL_ARM = 0 ∧
      t.rd R.TSC_LEAP_CTL_ARMED = s.rd R.TSC_LEAP_CTL_ARMED ∧ Frame Reg.TSC_LEAP_CTL.fields [] s t := by
  have hrun : s.begin.armRefused (R.TSC_LEAP_CTL_KIND.of w.toNat) = true := hr
  obtain ⟨t, e, k⟩ := go_ended_of ((writeLeapCtl_arm (s := s.begin) w.toNat h).trans (if_pos hrun))
  exact ⟨t, e, (k.rd rfl).trans (rd_hi_same _ _), (k.rd rfl).trans ((rd_hi_ne _ (by decide)).trans (rd_lo_same _ _)),
    (k.rd rfl).trans ((rd_hi_ne _ (by decide)).trans ((rd_lo_ne _ (by decide)).trans (rd_leapWritten_inputs _ _ _ (by decide)))),
    k.frame (frame_hi (by decide) (frame_lo (by decide) (frame_leapWritten (by decide) (frame_begin s))))⟩

theorem leapCancel_taken {s : State} (w : Word) (h : s.rd R.TSC_LEAP_CTL_ARMED = 1)
    (hc : ¬(s.rd R.TSC_LEAP_CTL_SMEARING = 1 ∨ s.leapLast ≤ s.ts0)) :
    ∃ t, Sys2Proof.Machine.exec (.leapCancel w) s = .next t ∧ t.rd R.TSC_LEAP_CTL_ARM = 0 ∧ t.rd R.TSC_LEAP_CTL_ARMED = 0 ∧
      t.rd R.TSC_LEAP_CTL_WARN = 0 ∧ t.rd R.TSC_LEAP_CTL_IN_LEAP = 0 ∧ Frame Reg.TSC_LEAP_CTL.fields [] s t := by
  obtain ⟨t, e, k⟩ := go_ended_of ((writeLeapCtl_cancel (s := s.begin) w.toNat h).trans (if_neg hc))
  have hoff := rd_endLeap (s.begin.leapWritten (R.TSC_LEAP_CTL_ARM.clearIn w.toNat))
  exact ⟨t, e, (k.rd rfl).trans (hoff _ (by decide)), (k.rd rfl).trans (hoff _ (by decide)), (k.rd rfl).trans (hoff _ (by decide)),
    (k.rd rfl).trans (hoff _ (by decide)), k.frame (frame_endLeap (by decide) (frame_leapWritten (by decide) (frame_begin s)))⟩

theorem leapCancel_refused {s : State} (w : Word) (h : s.rd R.TSC_LEAP_CTL_ARMED = 1)
    (hc : s.rd R.TSC_LEAP_CTL_SMEARING = 1 ∨ s.leapLast ≤ s.ts0) :
    ∃ t, Sys2Proof.Machine.exec (.leapCancel w) s = .next t ∧ t.rd R.TSC_LEAP_CTL_REFUSED = 1 ∧ t.rd R.TSC_LEAP_CTL_ARMED = 1 ∧
      t.rd R.TSC_LEAP_CTL_ARM = 1 ∧ Frame Reg.TSC_LEAP_CTL.fields [] s t := by
  obtain ⟨t, e, k⟩ := go_ended_of ((writeLeapCtl_cancel (s := s.begin) w.toNat h).trans (if_pos hc))
  exact ⟨t, e, (k.rd rfl).trans (rd_hi_same _ _), (k.rd rfl).trans ((rd_hi_ne _ (by decide)).trans ((rd_hi_ne _ (by decide)).trans
      ((rd_leapWritten_inputs _ _ _ (by decide)).trans h))), (k.rd rfl).trans ((rd_hi_ne _ (by decide)).trans (rd_hi_same _ _)),
    k.frame (frame_hi (by decide) (frame_hi (by decide) (frame_leapWritten (by decide) (frame_begin s))))⟩

/-- Settles O14: the writes by what R66, R69 and R70 let pass, the instants by whether TS0 comes to them. -/
theorem utcAndLeaps : Obligations.UtcAndLeaps := by
  refine ⟨fun s w h => utcOfs_taken w h, fun s w h => utcOfs_refused w h, fun s w h hday hahead hkind hvalid => leapArm_taken w h ?_,
    fun s w h hr => leapArm_refused w h ((armRefused_iff _ _).2 hr), fun s w h hm hl => leapCancel_taken w h (by omega),
    fun s w h hc => leapCancel_refused w h hc, fun s ha hd hx => leapRow_indicates ⟨rfl, rfl⟩ (leapWarn_at (s := s.begin) ha hd) hx,
    fun s ha hd hk hx => leapRow_indicates ⟨rfl, rfl⟩ (leapSecondStart_at (s := s.begin) ha hd hk) hx,
    fun s ha hd hx => leapOfsChange_done (leapOfsChange_at (s := s.begin) ha hd) hx ha,
    fun s ha hm hx => leapRow_indicates ⟨rfl, rfl⟩ (smearStart_at (s := s.begin) ha hm) hx, fun s hm hx => smearEnd_done hm hx,
    fun s i x ha hi hx => ?_⟩
  · rw [armRefused_iff]
    omega
  · rcases hi with ⟨rfl, hd, rfl⟩ | ⟨rfl, hd, hk, rfl⟩ | ⟨rfl, hd, rfl⟩ | ⟨rfl, hm, rfl⟩ | ⟨rfl, hm, rfl⟩
    · exact leapRow_putOff (leapWarn_at (s := s.begin) ha hd) hx
    · exact leapRow_putOff (leapSecondStart_at (s := s.begin) ha hd hk) hx
    · exact leapRow_putOff (leapOfsChange_at (s := s.begin) ha hd) hx
    · exact leapRow_putOff (smearStart_at (s := s.begin) ha hm) hx
    · exact leapRow_putOff (smearEnd_at (s := s.begin) hm) hx

end Sys2Proof.Machine
end

section
/-! PROOFS. What completing the ports' frames leaves: the NTS engines, and each port's queues and pauses; and commands that raise no
condition a counter counts (R462). -/

namespace Sys2Proof.Machine

/-! ### Ports brought up to now -/

/-- The NTS engines, and the queues and pauses of every port, are as they were. -/
structure SameQueues (s t : State) : Prop where
  nts : t.srv.nts = s.srv.nts
  queues : ∀ p, (t.port p).queues = (s.port p).queues
  pauses : ∀ p, (t.port p).pauseEnd = (s.port p).pauseEnd

namespace SameQueues

theorem refl (s : State) : SameQueues s s := ⟨rfl, fun _ => rfl, fun _ => rfl⟩

theorem trans {s t u : State} (h : SameQueues s t) (k : SameQueues t u) : SameQueues s u :=
  ⟨k.nts.trans h.nts, fun p => (k.queues p).trans (h.queues p), fun p => (k.pauses p).trans (h.pauses p)⟩

theorem of_srv {s t : State} (h : t.srv = s.srv) : SameQueues s t := by
  have hp : ∀ p, t.port p = s.port p := fun p => by rw [State.port, State.port, h]
  exact ⟨by rw [h], fun p => by rw [hp], fun p => by rw [hp]⟩

theorem of_touches {ps : List Part} {s t : State} (h : Touches ps s t) (hp : Part.srv ∉ ps) : SameQueues s t := of_srv (h.1 .srv hp)

theorem modPort (s : State) (p : Nat) {f : Port → Port} (hq : ∀ k, (f k).queues = k.queues) (he : ∀ k, (f k).pauseEnd = k.pauseEnd) :
    SameQueues s (s.modPort p f) := by
  have hport : ∀ i, (s.modPort p f).port i = if i = p then f (s.port p) else s.port i := by
    intro i
    unfold State.port State.modPort
    split
    · next h => rw [h]; exact IMap.get_upd_same _ _ _ _
    · next h => exact IMap.get_upd_ne _ _ _ h
  refine ⟨rfl, fun i => ?_, fun i => ?_⟩ <;> rw [hport] <;> split
  · next h => rw [hq, h]
  · rfl
  · next h => rw [he, h]
  · rfl

theorem ite {s a b : State} {c : Prop} [Decidable c] (ha : SameQueues s a) (hb : SameQueues s b) : SameQueues s (if c then a else b) := by
  split <;> assumption

theorem foldl {α : Type} {s₀ s : State} {f : State → α → State} {l : List α} (h : SameQueues s₀ s)
    (hf : ∀ s x, SameQueues s (f s x)) : SameQueues s₀ (l.foldl f s) := by
  induction l generalizing s with
  | nil => exact h
  | cons x l ih => exact ih (h.trans (hf s x))

end SameQueues

section
variable (s : State) (p q : Nat)

theorem sameQueues_bumpStat (key event unit n : Nat) : SameQueues s (bumpStat key event unit n s) := by
  unfold bumpStat
  refine SameQueues.ite (.refl s) ⟨?_, fun p => ?_, fun p => ?_⟩ <;>
    first | (rw [(counted_count _ event unit n).srv]) | (rw [State.port, (counted_count _ event unit n).srv]; rfl)

theorem sameQueues_mac (i n : Nat) : SameQueues s (mac p i n s) := sameQueues_bumpStat s _ _ _ _

theorem sameQueues_finishFlight (v : Flight) : SameQueues s (finishFlight p v s) := by
  have hstart : SameQueues s (sendPart p v v.frame.bytes (v.frame.bytes.length - v.sent) (crc32 v.frame.bytes)
      (s.modPort p (fun k => { k with frameAt := s.clkAt (s.leftPs p v) }))) := by
    refine SameQueues.trans (SameQueues.modPort s p (f := fun k => { k with frameAt := s.clkAt (s.leftPs p v) }) (fun _ => rfl) fun _ => rfl) ?_
    exact .of_srv rfl
  have hmac : ∀ {u : State} (i n : Nat), SameQueues s u → SameQueues s (mac p i n u) := fun i n h => h.trans (sameQueues_mac _ p i n)
  unfold finishFlight
  dsimp only
  split <;> (repeat' apply hmac) <;> exact hstart

theorem sameQueues_leaveBall (now : Nat) : SameQueues s (leaveBall p now s) :=
  SameQueues.foldl (SameQueues.modPort s p (fun _ => rfl) fun _ => rfl) fun s v => sameQueues_finishFlight s p v

theorem sameQueues_freeStamp (d : RingDesc) : SameQueues s (freeStamp q d s) := by
  unfold freeStamp
  split
  · exact .refl s
  · exact SameQueues.modPort s _ (fun _ => rfl) fun _ => rfl

theorem sameQueues_drainList : ∀ (l : List RingDesc) (s : State), SameQueues s (drainList q l s)
  | [], s => .of_srv rfl
  | d :: l, s => by
    unfold drainList
    split
    · exact .of_srv rfl
    · next b _ =>
      exact ((sameQueues_freeStamp s q d).trans (.of_touches (ps := [.rings, .regs .ring])
        (touches_writeBack q d.idx b _ (by simp) (by simp) (Touches.refl _ _)) (by simp))).trans (sameQueues_drainList l _)

theorem sameQueues_drain : SameQueues s (drain q s) :=
  (sameQueues_drainList q _ s).trans (.of_touches (ps := [.regs .ring]) (touches_quiesce q _ (by simp) (Touches.refl _ _)) (by simp))

theorem sameQueues_finishDesc (idx : Nat) (back : RingDesc → RingDesc) : SameQueues s (finishDesc q idx back s) := by
  refine SameQueues.trans ?_ (sameQueues_drain _ q)
  exact .of_srv rfl

theorem sameQueues_endFlight (v : Flight) : SameQueues s (endFlight p v s) := by
  have hstart : SameQueues s (s.modPort p fun k => { k with flight := none, leaving := k.leaving ++ [v] }) :=
    SameQueues.modPort s p (fun _ => rfl) fun _ => rfl
  unfold endFlight
  dsimp only
  split
  · exact hstart.trans (sameQueues_finishDesc _ _ _ _)
  · exact hstart

theorem sameQueues_settleTo (x : Nat) : SameQueues s (settleTo p x s) := by
  have hheld : ∀ n (f : Port → Port), (∀ k, (f k).queues = k.queues) → (∀ k, (f k).pauseEnd = k.pauseEnd) →
      SameQueues s (if s.pauseHeld p = true then mac p 48 n (s.modPort p f) else s) := fun n f hq he =>
    SameQueues.ite ((SameQueues.modPort s p hq he).trans (sameQueues_mac _ p _ _)) (.refl s)
  unfold settleTo
  dsimp only
  refine SameQueues.trans ?_ (sameQueues_leaveBall _ p _)
  split
  · refine SameQueues.trans (hheld _ _ ?_ ?_) (SameQueues.modPort _ p ?_ ?_) <;> exact fun _ => rfl
  · refine SameQueues.ite (SameQueues.trans (SameQueues.trans (hheld _ _ ?_ ?_) (SameQueues.modPort _ p ?_ ?_)) (sameQueues_endFlight _ p _))
      (SameQueues.trans (hheld _ _ ?_ ?_) (SameQueues.modPort _ p ?_ ?_)) <;> exact fun _ => rfl

theorem sameQueues_settle : SameQueues s (settle p s) := sameQueues_settleTo s p _

theorem sameQueues_settleAll : SameQueues s (settleAll s) := SameQueues.foldl (.refl s) fun s p => sameQueues_settle s p

end

/-! ### Commands that raise no condition (R462) -/

/-- Whether nothing a counter counts the edges of has become true. -/
def NoEdge (s t : State) : Prop := ∀ e u, t.pctCond e u = true → s.pctCond e u = true

/-- Where no condition has become true, the end of a command counts nothing. -/
theorem countEdges_of_noEdge {s t : State} (h : NoEdge s t) : countEdges s t = t := by
  have key : ∀ (l : IMap Pct), l.foldl (fun u cp =>
      let p := IMap.get {} u.pct cp.1
      if p.event = cp.2.event && p.unit = cp.2.unit && !p.level && !s.pctCond p.event p.unit && t.pctCond p.event p.unit then bumpPct cp.1 1 u
      else u) t = t := by
    intro l
    induction l with
    | nil => rfl
    | cons cp l ih =>
      rw [List.foldl_cons, if_neg, ih]
      have hc := h (IMap.get {} t.pct cp.1).event (IMap.get {} t.pct cp.1).unit
      revert hc
      cases s.pctCond (IMap.get {} t.pct cp.1).event (IMap.get {} t.pct cp.1).unit <;>
        cases t.pctCond (IMap.get {} t.pct cp.1).event (IMap.get {} t.pct cp.1).unit <;> simp
  exact key s.pct

/-- A command that raises no condition leaves exactly what its effect leaves. -/
theorem go_of_noEdge {f : State → State} {s u : State} (h : f s.begin = u) (hn : NoEdge s u) :
    go f s = .next { u with pending := s.pending } := by
  rw [go, h, countEdges_of_noEdge hn]

/-- The parts that decide the conditions, beside the queues and pauses of the ports and the commands that run. -/
def condParts : List Part := [.regs .lane, .regs .gns, .regs .pwr, .tick]

/-- Where all of those stand, no condition changes. -/
theorem noEdge_of_untouched {ps : List Part} {s t : State} (h : Touches ps s t) (hps : ∀ p ∈ condParts, p ∉ ps)
    (hrun : t.fw.running = s.fw.running) (hq : SameQueues s t) : NoEdge s t := by
  have hlane : ∀ n, t.rd (R.TSC_LANE_STAT_STATE n) = s.rd (R.TSC_LANE_STAT_STATE n) := fun n =>
    h.rd (b := .lane) (hps _ (by decide)) (has_R_TSC_LANE_STAT_STATE n)
      (Field.side_of_mid (by simp only [R.TSC_LANE_STAT_STATE, Field.mk']; omega))
  have hgns : ∀ n, t.rd (R.GNS_CH_STAT_STATE n) = s.rd (R.GNS_CH_STAT_STATE n) := fun n =>
    h.rd (b := .gns) (hps _ (by decide)) (has_R_GNS_CH_STAT_STATE n)
      (Field.side_of_low (by simp only [R.GNS_CH_STAT_STATE, Field.mk']; omega))
  have hshort : t.on R.PWR_STAT_SHORT = s.on R.PWR_STAT_SHORT := by
    rw [State.on, State.on, h.rd (b := .pwr) (hps _ (by decide)) has_R_PWR_STAT_SHORT (by decide)]
  have hderate : t.on R.PWR_STAT_DERATE = s.on R.PWR_STAT_DERATE := by
    rw [State.on, State.on, h.rd (b := .pwr) (hps _ (by decide)) has_R_PWR_STAT_DERATE (by decide)]
  have htick : t.tick = s.tick := h.1 .tick (hps _ (by decide))
  have hsame : ∀ e u, t.pctCond e u = s.pctCond e u := by
    intro e u
    have hqs : (IMap.get {} t.srv.ports u).queues = (IMap.get {} s.srv.ports u).queues := hq.queues u
    have hps : (IMap.get {} t.srv.ports u).pauseEnd = (IMap.get {} s.srv.ports u).pauseEnd := hq.pauses u
    unfold State.pctCond
    split <;> simp only [hlane, hgns, hshort, hderate, hrun, htick, hq.nts, hqs, hps]
  exact fun e u he => hsame e u ▸ he

/-- Ports, rings and the counters' own registers decide no condition but by queues and pauses. -/
theorem noEdge_of_touches {s t : State} (h : Touches [.srv, .rings, .regs .ring, .regs .pct] s t) (hq : SameQueues s t) : NoEdge s t :=
  noEdge_of_untouched h (by decide) (congrArg Fw.running (h.1 .fw (by simp))) hq

end Sys2Proof.Machine
end

section
/-! PROOFS. Performance counters: selecting an event, reading, clearing an overflow (R463-R467). -/

namespace Sys2Proof.Machine

/-- A field of a written register that takes the bits written. -/
theorem rd_storeReg_rws (s : State) (r : Register) (w : Nat) {f : Field} (hf : f ∈ r.fields) (ha : f.acc = .rw ∨ f.acc = .rws)
    (hn : r.fields.Pairwise fun a b => a.key ≠ b.key) : (s.storeReg false r w).rd f = f.of w := by
  rw [rd_storeReg_mem _ _ _ _ hf hn, stored, if_pos]
  exact ha.elim Or.inl fun h => .inr (.inl h)

/-! ### Bits of a word -/

theorem bit_eq_testBit (n i : Nat) : bit n i = n.testBit i := by
  rw [bit, Nat.testBit_eq_decide_div_mod_eq]

/-- A word less one bit. -/
theorem bit_and_clear (v i j : Nat) (hi : i < 32) (hj : j < 32) :
    bit (v &&& (2 ^ 32 - 1 - 2 ^ i)) j = (bit v j && decide (j ≠ i)) := by
  have hmask : (2 ^ 32 - 1 - 2 ^ i).testBit j = decide (j ≠ i) := by
    rw [Nat.sub_sub, Nat.add_comm 1, Nat.testBit_two_pow_sub_succ (Nat.pow_lt_pow_right (by decide) hi), Nat.testBit_two_pow]
    simp [hj, eq_comm]
  rw [bit_eq_testBit, bit_eq_testBit, Nat.testBit_and, hmask]

/-! ### PCT_SEL (R463, R467) -/

section
variable (c : Fin 1024)

theorem pctSel_pairwise : (Reg.PCT_SEL c.val).fields.Pairwise fun a b => a.key ≠ b.key := by
  simp only [Reg.PCT_SEL, List.pairwise_cons, List.forall_mem_cons, List.not_mem_nil, false_imp_iff, implies_true, and_true,
    List.Pairwise.nil, R.PCT_SEL_EVENT, R.PCT_SEL_UNIT, R.PCT_SEL_MODE, R.PCT_SEL_INVALID, Field.mk']
  omega

theorem pctSel_side : ∀ f ∈ (Reg.PCT_SEL c.val).fields, f.side = false := by
  simp only [Reg.PCT_SEL, List.forall_mem_cons, List.not_mem_nil, false_imp_iff, implies_true, and_true]
  refine ⟨?_, ?_, ?_, ?_⟩ <;> refine Field.side_of_low ?_ <;>
    simp only [R.PCT_SEL_EVENT, R.PCT_SEL_UNIT, R.PCT_SEL_MODE, R.PCT_SEL_INVALID, Field.mk'] <;> omega

/-- Whether an event and a unit are of the table. -/
def pctOk (w : Nat) : Bool :=
  match pctUnits (w % 2 ^ 10) with
  | some n => w / 2 ^ 10 % 2 ^ 8 < n
  | none => false

/-- A counter as a write of its PCT_SEL leaves it. -/
def Pct.selected (p : Pct) (w : Nat) : Pct :=
  { p with event := if pctOk w then w % 2 ^ 10 else 0, unit := w / 2 ^ 10 % 2 ^ 8, level := bit w 18, count := 0 }

/-- A write of PCT_SEL stores the register, shows whether the selection is valid, and restarts the counter. -/
theorem writePctSel_eq (w : Nat) (s : State) : writePctSel c.val w s =
    let v := (s.storeReg false (Reg.PCT_SEL c.val) w).wr (R.PCT_SEL_INVALID c.val) (b01 (!pctOk w && decide (w % 2 ^ 10 ≠ 0)))
    { v with pct := IMap.put {} s.pct c.val ((IMap.get {} s.pct c.val).selected w) } := by
  have hrd : ∀ f ∈ [R.PCT_SEL_EVENT c.val, R.PCT_SEL_UNIT c.val, R.PCT_SEL_MODE c.val],
      (s.storeReg false (Reg.PCT_SEL c.val) w).rd f = f.of w := by
    have hmem : ∀ f ∈ [R.PCT_SEL_EVENT c.val, R.PCT_SEL_UNIT c.val, R.PCT_SEL_MODE c.val],
        f ∈ (Reg.PCT_SEL c.val).fields ∧ (f.acc = .rw ∨ f.acc = .rws) := by
      simp [Reg.PCT_SEL, R.PCT_SEL_EVENT, R.PCT_SEL_UNIT, R.PCT_SEL_MODE, Field.mk']
    exact fun f hf => rd_storeReg_rws _ _ _ (hmem f hf).1 (hmem f hf).2 (pctSel_pairwise c)
  have hev : (s.storeReg false (Reg.PCT_SEL c.val) w).rd (R.PCT_SEL_EVENT c.val) = w % 2 ^ 10 :=
    (hrd _ (by simp)).trans (by simp [Field.of, R.PCT_SEL_EVENT, Field.mk'])
  have hun : (s.storeReg false (Reg.PCT_SEL c.val) w).rd (R.PCT_SEL_UNIT c.val) = w / 2 ^ 10 % 2 ^ 8 := hrd _ (by simp)
  have hmode : ∀ v, ((s.storeReg false (Reg.PCT_SEL c.val) w).wr (R.PCT_SEL_INVALID c.val) v).on (R.PCT_SEL_MODE c.val) = bit w 18 := by
    intro v
    have hkey : (R.PCT_SEL_MODE c.val).key ≠ (R.PCT_SEL_INVALID c.val).key := by
      simp only [R.PCT_SEL_MODE, R.PCT_SEL_INVALID, Field.mk']; omega
    rw [State.on, rd_wr_ne _ _ hkey, hrd _ (by simp)]
    rfl
  simp only [writePctSel, hev, hun, hmode, wr_pct, storeReg_pct]
  rfl

theorem rd_pctSelected (w : Nat) (s : State) :
    (writePctSel c.val w s).rd (R.PCT_SEL_INVALID c.val) = b01 (!pctOk w && decide (w % 2 ^ 10 ≠ 0)) ∧
      (writePctSel c.val w s).rd (R.PCT_SEL_EVENT c.val) = w % 2 ^ 10 ∧
      (writePctSel c.val w s).rd (R.PCT_SEL_UNIT c.val) = w / 2 ^ 10 % 2 ^ 8 ∧
      (writePctSel c.val w s).rd (R.PCT_SEL_MODE c.val) = w / 2 ^ 18 % 2 := by
  have hrd : ∀ f ∈ [R.PCT_SEL_EVENT c.val, R.PCT_SEL_UNIT c.val, R.PCT_SEL_MODE c.val],
      (writePctSel c.val w s).rd f = f.of w := by
    have hmem : ∀ f ∈ [R.PCT_SEL_EVENT c.val, R.PCT_SEL_UNIT c.val, R.PCT_SEL_MODE c.val],
        f ∈ (Reg.PCT_SEL c.val).fields ∧ (f.acc = .rw ∨ f.acc = .rws) ∧ f.key ≠ (R.PCT_SEL_INVALID c.val).key := by
      simp only [Reg.PCT_SEL, List.forall_mem_cons, List.not_mem_nil, false_imp_iff, implies_true, and_true]
      refine ⟨⟨by simp, .inr rfl, ?_⟩, ⟨by simp, .inr rfl, ?_⟩, by simp, .inr rfl, ?_⟩ <;>
        simp only [R.PCT_SEL_EVENT, R.PCT_SEL_UNIT, R.PCT_SEL_MODE, R.PCT_SEL_INVALID, Field.mk'] <;> omega
    intro f hf
    obtain ⟨hin, hacc, hkey⟩ := hmem f hf
    rw [writePctSel_eq]
    exact (rd_wr_ne _ _ hkey).trans (rd_storeReg_rws _ _ _ hin hacc (pctSel_pairwise c))
  refine ⟨?_, (hrd _ (by simp)).trans (by simp [Field.of, R.PCT_SEL_EVENT, Field.mk']), hrd _ (by simp), hrd _ (by simp)⟩
  have hbit : ∀ b : Bool, b01 b % 2 ^ (R.PCT_SEL_INVALID c.val).width = b01 b := by intro b; cases b <;> rfl
  rw [writePctSel_eq]
  exact (rd_wr_same _ _ _).trans (hbit _)

theorem writePctSel_pct (w : Nat) (s : State) :
    (writePctSel c.val w s).pct = IMap.put {} s.pct c.val ((IMap.get {} s.pct c.val).selected w) := by rw [writePctSel_eq]

/-- OVF of every counter is kept (R467). -/
theorem writePctSel_ovf (w k : Nat) (s : State) : (writePctSel c.val w s).rd (R.PCT_OVF_OVF k) = s.rd (R.PCT_OVF_OVF k) := by
  have hkeys : ∀ f ∈ (Reg.PCT_SEL c.val).fields, (R.PCT_OVF_OVF k).key ≠ f.key := by
    simp only [Reg.PCT_SEL, List.forall_mem_cons, List.not_mem_nil, false_imp_iff, implies_true, and_true]
    refine ⟨?_, ?_, ?_, ?_⟩ <;>
      simp only [R.PCT_OVF_OVF, R.PCT_SEL_EVENT, R.PCT_SEL_UNIT, R.PCT_SEL_MODE, R.PCT_SEL_INVALID, Field.mk'] <;> omega
  rw [writePctSel_eq]
  exact (rd_wr_ne _ _ (hkeys _ (by simp [Reg.PCT_SEL]))).trans (rd_storeReg_ne _ _ _ _ hkeys)

end

/-! ### Rows -/

/-- A row of the counters brings the ports up to now and acts, and raises no condition: it ends exactly as its effect leaves it. -/
theorem counterRow {f : State → State} (s : State) (ht : Touches [.regs .pct] (settleAll s.begin) (f s.begin)) :
    ∃ t, go f s = .next t ∧ t.pct = (f s.begin).pct ∧ t.out = (f s.begin).out ∧ (∀ g, t.rd g = (f s.begin).rd g) ∧
      ∀ ps, Touches ps s (f s.begin) → Touches ps s t := by
  have htouch : Touches [.srv, .rings, .regs .ring, .regs .pct] s (f s.begin) :=
    Touches.trans (touches_settleAll _ (by simp) (by simp) (by simp) (touches_begin _ s)) (ht.mono (by simp))
  have hqueues : SameQueues s (f s.begin) :=
    SameQueues.trans (SameQueues.of_srv (t := s.begin) rfl) ((sameQueues_settleAll s.begin).trans (SameQueues.of_touches ht (by simp)))
  exact ⟨_, go_of_noEdge rfl (noEdge_of_touches htouch hqueues), rfl, rfl, fun _ => rfl, fun _ h => touches_set_pending h⟩

theorem touches_settled_begin (s : State) : Touches [.srv, .rings, .regs .ring] s (settleAll s.begin) :=
  touches_settleAll _ (by simp) (by simp) (by simp) (touches_begin _ s)

theorem exec_pctSelect (c : Fin 1024) (w : Word) (s : State) :
    Sys2Proof.Machine.exec (.pctSelect c w) s = go (fun s => writePctSel c.val w.toNat (settleAll s)) s := rfl

theorem exec_pctRead (c : Fin 1024) (reader : Fin 3) (s : State) : Sys2Proof.Machine.exec (.pctRead c reader) s =
    go (fun s => (readPctLo c.val reader.val (settleAll s)).2.emit (.readData (readPctLo c.val reader.val (settleAll s)).1)) s := rfl

theorem exec_pctOvfClear (c : Fin 1024) (s : State) :
    Sys2Proof.Machine.exec (.pctOvfClear c) s = go (fun s => clearOvf c.val (settleAll s)) s := rfl

/-- PCT_SELECT. -/
theorem pctSelect_selected (s : State) (c : Fin 1024) (w : Word) :
    ∃ t, Sys2Proof.Machine.exec (.pctSelect c w) s = .next t ∧
      IMap.get {} t.pct c.val = (IMap.get {} (settleAll s.begin).pct c.val).selected w.toNat ∧
      t.rd (R.PCT_SEL_INVALID c.val) = b01 (!pctOk w.toNat && decide (w.toNat % 2 ^ 10 ≠ 0)) ∧
      t.rd (R.PCT_SEL_EVENT c.val) = w.toNat % 2 ^ 10 ∧ t.rd (R.PCT_SEL_UNIT c.val) = w.toNat / 2 ^ 10 % 2 ^ 8 ∧
      t.rd (R.PCT_SEL_MODE c.val) = w.toNat / 2 ^ 18 % 2 ∧
      (∀ k : Fin 1024, k ≠ c → IMap.get {} t.pct k.val = IMap.get {} (settleAll s.begin).pct k.val) ∧
      t.rd (R.PCT_OVF_OVF (c.val / 32)) = (settleAll s.begin).rd (R.PCT_OVF_OVF (c.val / 32)) ∧
      Touches [.srv, .rings, .regs .ring, .regs .pct] s t := by
  have hsel := touches_writePctSel (ps := [.regs .pct]) c.val w.toNat (settleAll s.begin) (by simp) (Touches.refl _ _)
  obtain ⟨t, e, hpct, -, hrd, ht⟩ := counterRow (f := fun s => writePctSel c.val w.toNat (settleAll s)) s hsel
  obtain ⟨hinvalid, hevent, hunit, hmode⟩ := rd_pctSelected c w.toNat (settleAll s.begin)
  rw [writePctSel_pct] at hpct
  refine ⟨t, (exec_pctSelect c w s).trans e, by rw [hpct, IMap.get_put_same], (hrd _).trans hinvalid, (hrd _).trans hevent,
    (hrd _).trans hunit, (hrd _).trans hmode, fun k hk => ?_, (hrd _).trans (writePctSel_ovf c w.toNat _ _), ht _ ?_⟩
  · rw [hpct, IMap.get_put_ne _ _ _ fun h => hk (Fin.ext h)]
  · exact ((touches_settled_begin s).mono (by simp)).trans (hsel.mono (by simp))

/-- A counter as a read of its low word leaves it (R464). -/
def Pct.latched (p : Pct) (reader h : Nat) : Pct :=
  if reader = 0 then { p with hi0 := h } else if reader = 1 then { p with hi1 := h } else { p with hiK := h }

theorem readPctLo_pct (c reader : Nat) (o : Output) (s : State) :
    ((readPctLo c reader s).2.emit o).pct = IMap.put {} s.pct c ((IMap.get {} s.pct c).latched reader (s.pctHi c)) := rfl

theorem readPctLo_out (c reader : Nat) (s : State) : ((readPctLo c reader s).2.emit (.readData (readPctLo c reader s).1)).out =
    .readData ((IMap.get {} s.pct c).count % 2 ^ 32) :: s.out := rfl

theorem clearOvf_pct (c : Nat) (s : State) : (clearOvf c s).pct = s.pct := rfl

theorem latched_keeps (p : Pct) (h : Nat) (reader : Fin 3) :
    (p.latched reader.val h).count = p.count ∧ (p.latched reader.val h).event = p.event ∧
      (if reader = 0 then (p.latched reader.val h).hi0 else if reader = 1 then (p.latched reader.val h).hi1 else (p.latched reader.val h).hiK) = h ∧
      (reader ≠ 0 → (p.latched reader.val h).hi0 = p.hi0) ∧ (reader ≠ 1 → (p.latched reader.val h).hi1 = p.hi1) ∧
      (reader ≠ 2 → (p.latched reader.val h).hiK = p.hiK) := by
  fin_cases reader <;> simp [Pct.latched]

theorem pctRead_latches (s : State) (c : Fin 1024) (reader : Fin 3) :
    ∃ t, Sys2Proof.Machine.exec (.pctRead c reader) s = .next t ∧
      t.out = .readData ((IMap.get {} (settleAll s.begin).pct c.val).count % 2 ^ 32) :: (settleAll s.begin).out ∧
      IMap.get {} t.pct c.val = (IMap.get {} (settleAll s.begin).pct c.val).latched reader.val ((settleAll s.begin).pctHi c.val) ∧
      (∀ k : Fin 1024, k ≠ c → IMap.get {} t.pct k.val = IMap.get {} (settleAll s.begin).pct k.val) ∧
      Touches [.srv, .rings, .regs .ring] s t := by
  have hread : ∀ ps, Touches ps (settleAll s.begin) ((readPctLo c.val reader.val (settleAll s.begin)).2.emit
      (.readData (readPctLo c.val reader.val (settleAll s.begin)).1)) := fun ps =>
    touches_State_emit (touches_readPctLo c.val reader.val _ (Touches.refl _ _))
  obtain ⟨t, e, hpct, hout, -, ht⟩ := counterRow (f := fun s => (readPctLo c.val reader.val (settleAll s)).2.emit
    (.readData (readPctLo c.val reader.val (settleAll s)).1)) s (hread _)
  have hput : t.pct = IMap.put {} (settleAll s.begin).pct c.val
    ((IMap.get {} (settleAll s.begin).pct c.val).latched reader.val ((settleAll s.begin).pctHi c.val)) := hpct.trans (readPctLo_pct c.val reader.val _ _)
  have htouch := (touches_settled_begin s).trans (hread [.srv, .rings, .regs .ring])
  exact ⟨t, (exec_pctRead c reader s).trans e, hout.trans (readPctLo_out _ _ _), by rw [hput, IMap.get_put_same],
    fun k hk => by rw [hput, IMap.get_put_ne _ _ _ fun h => hk (Fin.ext h)], ht _ htouch⟩

theorem pctOvfClear_clears (s : State) (c : Fin 1024) :
    ∃ t, Sys2Proof.Machine.exec (.pctOvfClear c) s = .next t ∧
      t.rd (R.PCT_OVF_OVF (c.val / 32)) = (settleAll s.begin).rd (R.PCT_OVF_OVF (c.val / 32)) &&& (2 ^ 32 - 1 - 2 ^ (c.val % 32)) ∧
      t.pct = (settleAll s.begin).pct ∧ Touches [.srv, .rings, .regs .ring] s t := by
  have hclear : ∀ ps, Touches ps (settleAll s.begin) (clearOvf c.val (settleAll s.begin)) := fun ps =>
    touches_clearOvf c.val _ (Touches.refl _ _)
  obtain ⟨t, e, hpct, -, hrd, ht⟩ := counterRow (f := fun s => clearOvf c.val (settleAll s)) s (hclear _)
  refine ⟨t, (exec_pctOvfClear c s).trans e, (hrd _).trans ?_, hpct.trans (clearOvf_pct _ _), ht _ ((touches_settled_begin s).trans (hclear _))⟩
  exact (rd_wr_same _ _ _).trans (Nat.mod_eq_of_lt (lt_of_le_of_lt Nat.and_le_left (rd_lt _ (R.PCT_OVF_OVF (c.val / 32)))))

/-- Settles O50. -/
theorem countersSelectReadClear : Obligations.CountersSelectReadClear := by
  refine ⟨?_, ?_, ?_, ?_⟩
  · intro s c w n u hn hunit
    obtain ⟨t, e, hpct, hinvalid, hevent, hun, hmode, hothers, hovf, ht⟩ := pctSelect_selected s c w
    have hok : pctOk w.toNat = decide (w.toNat / 2 ^ 10 % 2 ^ 8 < n) := by rw [pctOk, hn]
    have hsel : (if pctOk w.toNat then w.toNat % 2 ^ 10 else 0) = w.toNat % 2 ^ 10 := by
      rw [hok]
      split
      · rfl
      · next h => exact (hunit.resolve_left fun hlt => h (decide_eq_true hlt)).symm
    refine ⟨t, e, ?_, ?_, hevent, hun, hmode, hothers, hovf, ht⟩
    · rw [hpct, Pct.selected, hsel]
    · rw [hinvalid, hok]
      rcases hunit with h | h
      · rw [decide_eq_true h]; rfl
      · rw [decide_eq_false (not_not.2 h), Bool.and_false]; rfl
  · intro s c w u hbad hev
    obtain ⟨t, e, hpct, hinvalid, hevent, -, -, hothers, hovf, ht⟩ := pctSelect_selected s c w
    have hok : pctOk w.toNat = false := by
      rcases hbad with h | ⟨n, h, hle⟩
      · rw [pctOk, h]
      · rw [pctOk, h]; exact decide_eq_false (not_lt.2 hle)
    refine ⟨t, e, by rw [hpct, Pct.selected, hok]; rfl, by rw [hpct, Pct.selected], ?_, hevent, hovf, hothers, ht⟩
    rw [hinvalid, hok, decide_eq_true hev]; rfl
  · intro s c reader u
    obtain ⟨t, e, hout, hpct, hothers, ht⟩ := pctRead_latches s c reader
    obtain ⟨hcount, hevent, hhi, h0, h1, h2⟩ := latched_keeps (IMap.get {} (settleAll s.begin).pct c.val) ((settleAll s.begin).pctHi c.val) reader
    rw [← hpct] at hcount hevent hhi h0 h1 h2
    exact ⟨t, e, hout, hcount, hevent, hhi, h0, h1, h2, hothers, ht⟩
  · intro s c u
    obtain ⟨t, e, hrd, hpct, ht⟩ := pctOvfClear_clears s c
    refine ⟨t, e, ?_, fun j hj => ?_, by rw [hpct], ht⟩
    · rw [hrd, bit_and_clear _ _ _ (by omega) (by omega)]; simp
    · rw [hrd, bit_and_clear _ _ _ (by omega) j.isLt]; simp [hj, u]

end Sys2Proof.Machine
end

section
/-! PROOFS. ECC errors (R473): what each array's uncorrectable word does beside its report. -/

namespace Sys2Proof.Machine

/-! ### The report -/

/-- The state once an uncorrectable word has been counted, raised and recorded. -/
def eccTold (a : EccArray) (word : Nat) (s : State) : State :=
  (((s.wr R.WCH_ECC_UNCORR (satNat 16 (s.rd R.WCH_ECC_UNCORR + 1))).count 0x061 (eccCode a).2 1).raise Evt.wch 8).logRec 0x0004
    (eccCode a).2 0 ((eccCode a).1 :: le 4 word)

theorem eccError_uncorrected (a : EccArray) (word : Nat) (s : State) : eccError a word false s = eccAct a (eccTold a word s) := rfl

/-- What the report writes. -/
def eccFields : List Field := [R.WCH_ECC_UNCORR, R.WCH_EVT_BITS] ++ logFields

/-- What shows that an error has been reported. -/
def eccShown : List Field := [R.WCH_ECC_UNCORR, R.WCH_ECC_CORR, R.WCH_EVT_BITS, R.LOG_NEXT_SEQ]

/-- The report of an uncorrectable word of array `a`, as `t` shows it. -/
structure EccShows (a : EccArray) (word : Nat) (s t : State) : Prop where
  uncorr : t.rd R.WCH_ECC_UNCORR = satNat 16 (s.rd R.WCH_ECC_UNCORR + 1)
  corr : t.rd R.WCH_ECC_CORR = s.rd R.WCH_ECC_CORR
  event : bit (t.rd R.WCH_EVT_BITS) 3 = true
  next : t.rd R.LOG_NEXT_SEQ = (s.rd R.LOG_NEXT_SEQ + 1) % 2 ^ 32
  record : IMap.get {} t.log (s.rd R.LOG_NEXT_SEQ % logSize) =
    { seq := s.rd R.LOG_NEXT_SEQ, time := s.ts0, event := 0x0004, unit := (eccCode a).2, sender := 0, data := (eccCode a).1 :: le 4 word }

theorem frame_eccTold {fs : List Field} {ps : List Part} {s₀ s : State} (a : EccArray) (word : Nat) (hf : ∀ f ∈ eccFields, f ∈ fs)
    (hl : Part.log ∈ ps) (h : Frame fs ps s₀ s) : Frame fs ps s₀ (eccTold a word s) :=
  frame_logRec (fun f hm => hf f (List.mem_append_right _ hm)) hl (frame_raise (hf _ (by decide)) (frame_count (frame_wr (hf _ (by decide)) h)))

theorem bit_or (a b i : Nat) : bit (a ||| b) i = (bit a i || bit b i) := by
  rw [bit_eq_testBit, bit_eq_testBit, bit_eq_testBit, Nat.testBit_or]

theorem bit_mod_two_pow (a w i : Nat) : bit (a % 2 ^ w) i = (decide (i < w) && bit a i) := by
  rw [bit_eq_testBit, bit_eq_testBit, Nat.testBit_mod_two_pow]

/-- A bit raised in an event register stands. -/
theorem bit_raise {s : State} {e : EvtSrc} {m i : Nat} (hs : e.ev.side = false) (hi : i < e.ev.width) (hm : bit m i = true) :
    bit ((s.raise e m).rd e.ev) i = true := by
  rw [rd_raise_same _ _ _ hs, bit_mod_two_pow, bit_or, hm, decide_eq_true hi]; simp

/-- What another record leaves of an event of WCH_EVT. -/
theorem bit_wchEvt_logRec {s : State} {i : Nat} (event unit sender : Nat) (data : List Nat) (hi : i < 5)
    (h : bit (s.rd R.WCH_EVT_BITS) i = true) : bit ((s.logRec event unit sender data).rd R.WCH_EVT_BITS) i = true := by
  rcases logRec_cases s event unit sender data with k | ⟨a, b, k⟩ <;> rw [k]
  · rw [rd_wr_ne _ _ (by decide)]; exact h
  · rw [show R.WCH_EVT_BITS = Evt.wch.ev from rfl, rd_raise_same _ _ _ (by decide), bit_mod_two_pow, bit_or,
      show Evt.wch.ev = R.WCH_EVT_BITS from rfl, rd_wr_ne _ _ (by decide), rd_wr_ne _ _ (by decide), rd_wr_ne _ _ (by decide)]
    rw [show R.WCH_EVT_BITS.width = 5 from rfl, decide_eq_true hi, show (s.recorded event unit sender data).rd R.WCH_EVT_BITS = s.rd R.WCH_EVT_BITS from rfl, h]
    rfl

/-- A record as it stands in the log. -/
theorem logRec_record (s : State) (event unit sender : Nat) (data : List Nat) :
    IMap.get {} (s.logRec event unit sender data).log (s.rd R.LOG_NEXT_SEQ % logSize) =
      { seq := s.rd R.LOG_NEXT_SEQ, time := s.ts0, event := event, unit := unit, sender := sender, data := data } := by
  rw [logRec_log, IMap.get_put_same]

theorem satNat_lt (w n : Nat) : satNat w n < 2 ^ w := by
  have hpos := Nat.two_pow_pos w
  unfold satNat
  split <;> omega

theorem eccTold_shows (a : EccArray) (word : Nat) (s : State) : EccShows a word s (eccTold a word s) := by
  let v := ((s.wr R.WCH_ECC_UNCORR (satNat 16 (s.rd R.WCH_ECC_UNCORR + 1))).count 0x061 (eccCode a).2 1).raise Evt.wch 8
  have hne : ∀ g : Field, g.side = false → g.key ≠ R.WCH_EVT_BITS.key → g.key ≠ R.WCH_ECC_UNCORR.key → v.rd g = s.rd g := fun g hg h1 h2 =>
    (rd_raise_ne _ _ _ h1 hg).trans ((rd_count _ _ _ _ hg).trans (rd_wr_ne _ _ h2))
  have huncorr : v.rd R.WCH_ECC_UNCORR = satNat 16 (s.rd R.WCH_ECC_UNCORR + 1) :=
    (rd_raise_ne _ _ _ (by decide) (by decide)).trans ((rd_count _ _ _ _ (by decide)).trans ((rd_wr_same _ _ _).trans
      (Nat.mod_eq_of_lt (satNat_lt 16 _))))
  have hlog : ∀ g : Field, g.side = false → (∀ f ∈ logFields, g.key ≠ f.key) → (eccTold a word s).rd g = v.rd g := fun g hg hk =>
    rd_logRec_ne _ _ _ _ _ (hk _ (by simp [logFields])) (hk _ (by simp [logFields])) (hk _ (by simp [logFields])) (hk _ (by simp [logFields])) hg
  have hseq : v.rd R.LOG_NEXT_SEQ = s.rd R.LOG_NEXT_SEQ := hne _ (by decide) (by decide) (by decide)
  have hts : v.ts0 = s.ts0 := by
    have htick : v.tick = s.tick := (raise_tick _ _ _).trans ((counted_count _ _ _ _).tick)
    rw [State.ts0, State.ts0, htick]
  have hrec := logRec_record v 0x0004 (eccCode a).2 0 ((eccCode a).1 :: le 4 word)
  rw [hseq, hts] at hrec
  exact ⟨(hlog _ (by decide) (by decide)).trans huncorr,
    (hlog _ (by decide) (by decide)).trans (hne _ (by decide) (by decide) (by decide)),
    bit_wchEvt_logRec _ _ _ _ (by decide) (bit_raise (by decide) (by decide) (by decide)),
    (rd_logRec_next _ _ _ _ _).trans (by rw [hseq]), hrec⟩

/-- An action that moves none of the report's fields and no record leaves it standing. -/
theorem EccShows.of_same {a : EccArray} {word : Nat} {s v t : State} (h : EccShows a word s v)
    (hrd : ∀ g ∈ eccShown, t.rd g = v.rd g) (hlog : t.log = v.log) : EccShows a word s t :=
  ⟨(hrd _ (by simp [eccShown])).trans h.uncorr, (hrd _ (by simp [eccShown])).trans h.corr,
    by rw [hrd _ (by simp [eccShown])]; exact h.event, (hrd _ (by simp [eccShown])).trans h.next, by rw [hlog]; exact h.record⟩

theorem side_eccShown : ∀ g ∈ eccShown, g.side = false := by decide

/-- How the row of an uncorrectable word ends, `u` being what its array's action leaves. -/
theorem eccRow {a : EccArray} {word : Word} {s u : State} {ps : List Part} (hu : eccAct a (eccTold a word.toNat s.begin) = u)
    (ht : Touches ps (eccTold a word.toNat s.begin) u) (hw : Part.regs .wch ∉ ps) (hl : Part.log ∉ ps) :
    ∃ t, Sys2Proof.Machine.exec (.eccError a word false) s = .next t ∧ EccShows a word.toNat s t ∧ Ended s u t := by
  obtain ⟨t, e, k⟩ := go_ended_of ((eccError_uncorrected a word.toNat s.begin).trans hu)
  have hhas : ∀ g ∈ eccShown, Block.wch.has g.key = true := by decide
  obtain ⟨h1, h2, h3, h4, h5⟩ := eccTold_shows a word.toNat s.begin
  have htold : EccShows a word.toNat s (eccTold a word.toNat s.begin) := ⟨h1, h2, h3, h4, h5⟩
  exact ⟨t, e, htold.of_same (fun g hg => (k.rd (side_eccShown g hg)).trans (ht.rd hw (hhas g hg) (side_eccShown g hg)))
    (k.log.trans (ht.1 .log hl)), k⟩

/-- The report as an action finds it: all but its own fields and the log is as the command began. -/
theorem frame_told {ps : List Part} (a : EccArray) (word : Nat) (hl : Part.log ∈ ps) (s : State) :
    Frame eccFields ps s (eccTold a word s.begin) := frame_eccTold a word (fun _ hm => hm) hl (frame_begin s)

/-- The row of a word whose array has nothing to discard. -/
theorem eccRow_idle {a : EccArray} {word : Word} {s : State} (hu : eccAct a (eccTold a word.toNat s.begin) = eccTold a word.toNat s.begin) :
    ∃ t, Sys2Proof.Machine.exec (.eccError a word false) s = .next t ∧ EccShows a word.toNat s t ∧ Frame eccFields [.log] s t := by
  obtain ⟨t, e, hshow, k⟩ := eccRow hu (Touches.refl [] _) (by simp) (by simp)
  exact ⟨t, e, hshow, k.frame (frame_told a word.toNat (by simp) s)⟩

section
variable (a : EccArray) (word : Nat) (s : State)

theorem eccTold_srv : (eccTold a word s.begin).srv = s.srv := (frame_told (ps := [.log]) a word (by simp) s).2.1 .srv (by simp) rfl
theorem eccTold_rst : (eccTold a word s.begin).rst = s.rst := (frame_told (ps := [.log]) a word (by simp) s).2.1 .rst (by simp) rfl
theorem eccTold_tick : (eccTold a word s.begin).tick = s.tick := (frame_told (ps := [.log]) a word (by simp) s).2.1 .tick (by simp) rfl
theorem eccTold_cst (k : Nat) : IMap.get {} (eccTold a word s.begin).srv.cst k = IMap.get {} s.srv.cst k := by rw [eccTold_srv]
theorem eccTold_port (p : Nat) : (eccTold a word s.begin).port p = s.port p := by rw [State.port, eccTold_srv]; rfl
theorem eccTold_txq (p q : Nat) : (eccTold a word s.begin).txq p q = s.txq p q := by rw [State.txq, eccTold_port]; rfl
theorem eccTold_grant (g : Nat) : (eccTold a word s.begin).grant g = s.grant g := by rw [State.grant, eccTold_srv]; rfl

theorem touches_eccTold : Touches [.log, .regs .wch] s (eccTold a word s.begin) :=
  touches_State_logRec _ _ _ _ _ (by simp) (by simp) (touches_State_raise has_Evt_wch (by simp) (touches_State_count _ _ _ _
    (touches_State_wr has_R_WCH_ECC_UNCORR (by simp) (touches_begin _ s))))

end

/-! ### Statistics -/

theorem bumpStat_srv (key event unit n : Nat) (s : State) (hn : n ≠ 0) : (bumpStat key event unit n s).srv =
    { s.srv with stats := IMap.upd 0 s.srv.stats key (fun v => (v + n) % 2 ^ 64) } := by
  rw [bumpStat, if_neg hn, (counted_count _ _ _ _).srv]

theorem stats_upd_same (m : IMap Nat) (key : Nat) :
    IMap.get 0 (IMap.upd 0 m key fun v => (v + 1) % 2 ^ 64) key = (IMap.get 0 m key + 1) % 2 ^ 64 := IMap.get_upd_same _ _ _ _

/-! ### Tables (R288, R341) -/

theorem cstDropped_srv (n k : Nat) (v : State) : (ntpStat n 7 (v.setCst k {})).srv =
    { v.srv with
      cst := IMap.put {} v.srv.cst k {}
      stats := IMap.upd 0 v.srv.stats (2048 + n * 32 + 7) (fun v => (v + 1) % 2 ^ 64) } := by
  rw [ntpStat, bumpStat_srv _ _ _ _ _ (by decide)]; rfl

theorem frame_cstDropped {fs : List Field} {ps : List Part} {s₀ v : State} (n k : Nat) (hs : Part.srv ∈ ps) (h : Frame fs ps s₀ v) :
    Frame fs ps s₀ (ntpStat n 7 (v.setCst k {})) := frame_bumpStat hs (frame_set_srv hs h)

theorem grantDropped_srv (n k : Nat) (v : State) : (ptpStat n 15 (v.setGrant k {})).srv =
    { v.srv with
      grants := IMap.put {} v.srv.grants k {}
      stats := IMap.upd 0 v.srv.stats (2304 + n * 32 + 15) (fun v => (v + 1) % 2 ^ 64) } := by
  rw [ptpStat, bumpStat_srv _ _ _ _ _ (by decide)]; rfl

theorem frame_grantDropped {fs : List Field} {ps : List Part} {s₀ v : State} (n k : Nat) (hs : Part.srv ∈ ps) (h : Frame fs ps s₀ v) :
    Frame fs ps s₀ (ptpStat n 15 (v.setGrant k {})) := frame_bumpStat hs (frame_set_srv hs h)

theorem eccAct_cst (n : Fin 4) (e : Fin 2097152) {v : State} (h : (IMap.get {} v.srv.cst (n.val * 2097152 + e.val)).valid = true) :
    eccAct (.cst n e) v = ntpStat n.val 7 (v.setCst (n.val * 2097152 + e.val) {}) := if_pos h

theorem eccAct_cst_free (n : Fin 4) (e : Fin 2097152) {v : State} (h : (IMap.get {} v.srv.cst (n.val * 2097152 + e.val)).valid = false) :
    eccAct (.cst n e) v = v := if_neg (by rw [h]; decide)

theorem eccAct_grant (n : Fin 4) (e : Fin 16384) {v : State} (h : (v.grant (n.val * 16384 + e.val)).valid = true) :
    eccAct (.grant n e) v = ptpStat n.val 15 (v.setGrant (n.val * 16384 + e.val) {}) := if_pos h

theorem eccAct_grant_free (n : Fin 4) (e : Fin 16384) {v : State} (h : (v.grant (n.val * 16384 + e.val)).valid = false) :
    eccAct (.grant n e) v = v := if_neg (by rw [h]; decide)

/-- The row of an entry of the Client State Table that holds a client. -/
theorem eccRow_cst {s : State} (n : Fin 4) (e : Fin 2097152) (word : Word)
    (hv : (IMap.get {} s.srv.cst (n.val * 2097152 + e.val)).valid = true) :
    ∃ t, Sys2Proof.Machine.exec (.eccError (.cst n e) word false) s = .next t ∧ EccShows (.cst n e) word.toNat s t ∧
      t.srv = { s.srv with
        cst := IMap.put {} s.srv.cst (n.val * 2097152 + e.val) {}
        stats := IMap.upd 0 s.srv.stats (2048 + n.val * 32 + 7) (fun v => (v + 1) % 2 ^ 64) } ∧ Frame eccFields [.log, .srv] s t := by
  have ht : Touches [.srv] (eccTold (.cst n e) word.toNat s.begin)
      (ntpStat n.val 7 ((eccTold (.cst n e) word.toNat s.begin).setCst (n.val * 2097152 + e.val) {})) := by
    apply touches_ntpStat
    · simp
    · exact touches_State_setCst _ _ _ (by simp) (Touches.refl _ _)
  obtain ⟨t, ex, hshow, k⟩ := eccRow (eccAct_cst n e ((congrArg CstEntry.valid (eccTold_cst _ _ _ _)).trans hv)) ht (by simp) (by simp)
  exact ⟨t, ex, hshow, by rw [k.srv, cstDropped_srv, eccTold_srv], k.frame (frame_cstDropped _ _ (by simp) (frame_told _ _ (by simp) s))⟩

/-- The row of a grant that is in use. -/
theorem eccRow_grant {s : State} (n : Fin 4) (e : Fin 16384) (word : Word) (hv : (s.grant (n.val * 16384 + e.val)).valid = true) :
    ∃ t, Sys2Proof.Machine.exec (.eccError (.grant n e) word false) s = .next t ∧ EccShows (.grant n e) word.toNat s t ∧
      t.srv = { s.srv with
        grants := IMap.put {} s.srv.grants (n.val * 16384 + e.val) {}
        stats := IMap.upd 0 s.srv.stats (2304 + n.val * 32 + 15) (fun v => (v + 1) % 2 ^ 64) } ∧ Frame eccFields [.log, .srv] s t := by
  let v := eccTold (.grant n e) word.toNat s.begin
  have hvalid : (v.grant (n.val * 16384 + e.val)).valid = true := by rw [eccTold_grant]; exact hv
  have ht : Touches [.srv] v (ptpStat n.val 15 (v.setGrant (n.val * 16384 + e.val) {})) := by
    apply touches_ptpStat
    · simp
    · exact touches_State_setGrant _ _ _ (by simp) (Touches.refl _ v)
  obtain ⟨t, ex, hshow, k⟩ := eccRow (eccAct_grant n e hvalid) ht (by simp) (by simp)
  exact ⟨t, ex, hshow, by rw [k.srv, grantDropped_srv, eccTold_srv], k.frame (frame_grantDropped _ _ (by simp) (frame_told _ _ (by simp) s))⟩

end Sys2Proof.Machine
end

section
/-! PROOFS. ECC errors of the packet buffer, the queues, the interval records and the Keeper's own memories (R473). -/

namespace Sys2Proof.Machine

theorem stats_upd_ne (m : IMap Nat) {key k : Nat} (h : k ≠ key) :
    IMap.get 0 (IMap.upd 0 m key fun v => (v + 1) % 2 ^ 64) k = IMap.get 0 m k := IMap.get_upd_ne 0 m _ h

/-! ### Queued frames (R235) -/

theorem port_modPort_same (s : State) (p : Nat) (f : Port → Port) : (s.modPort p f).port p = f (s.port p) := IMap.get_upd_same _ _ _ _

theorem port_modPort_ne (s : State) {p i : Nat} (f : Port → Port) (h : i ≠ p) : (s.modPort p f).port i = s.port i := IMap.get_upd_ne _ _ _ h

theorem txq_setTxq_same (p q : Nat) (l : List TxFrame) (s : State) : (setTxq p q l s).txq p q = l := by
  rw [State.txq, setTxq, port_modPort_same, IMap.get_put_same]

theorem txq_setTxq_ne (p : Nat) {q r : Nat} (l : List TxFrame) (s : State) (h : r ≠ q) : (setTxq p q l s).txq p r = s.txq p r := by
  rw [State.txq, setTxq, port_modPort_same, IMap.get_put_ne _ _ _ h, State.txq]

theorem SameQueues.txq {s t : State} (h : SameQueues s t) (p q : Nat) : t.txq p q = s.txq p q := by
  rw [State.txq, State.txq, h.queues]

theorem sameQueues_discardFrame (f : TxFrame) (withheld : Bool) (s : State) : SameQueues s (discardFrame f withheld s) := by
  unfold discardFrame
  split
  · exact sameQueues_finishDesc s _ _ _
  · exact .refl s

/-- A completed descriptor moves no statistic. -/
theorem finishDesc_stats (q idx : Nat) (back : RingDesc → RingDesc) (s : State) : (finishDesc q idx back s).srv.stats = s.srv.stats := by
  have hfree : ∀ (d : RingDesc) (s : State), (freeStamp q d s).srv.stats = s.srv.stats := by
    intro d s; unfold freeStamp; split <;> rfl
  have hback : ∀ (i : Nat) (b : List Nat) (s : State), (writeBack q i b s).srv = s.srv := fun i b s =>
    (touches_writeBack (ps := [.rings, .regs .ring]) q i b s (by simp) (by simp) (Touches.refl _ s)).1 .srv (by simp)
  have hlist : ∀ (l : List RingDesc) (s : State), (drainList q l s).srv.stats = s.srv.stats := by
    intro l
    induction l with
    | nil => intro s; rfl
    | cons d l ih =>
      intro s
      unfold drainList
      split
      · rfl
      · rw [ih, hback, hfree]
  have hquiesce : ∀ s : State, (quiesce q s).srv = s.srv := fun s =>
    (touches_quiesce (ps := [.regs .ring]) q s (by simp) (Touches.refl _ s)).1 .srv (by simp)
  rw [finishDesc, drain, hquiesce, hlist]
  rfl

theorem discardFrame_stats (f : TxFrame) (withheld : Bool) (s : State) : (discardFrame f withheld s).srv.stats = s.srv.stats := by
  unfold discardFrame
  split
  · exact finishDesc_stats _ _ _ s
  · rfl

theorem mac_stats (p i : Nat) (s : State) : (mac p i 1 s).srv.stats = IMap.upd 0 s.srv.stats (p * 64 + i) (fun v => (v + 1) % 2 ^ 64) := by
  rw [mac, bumpStat_srv _ _ _ _ _ (by decide)]

/-- The frame at a place of a queue is taken out and counted. -/
theorem dropQueued_frame {p q i : Nat} {s : State} (h : i < (s.txq p q).length) :
    (dropQueued p q i s).txq p q = (s.txq p q).eraseIdx i ∧ (∀ r, r ≠ q → (dropQueued p q i s).txq p r = s.txq p r) ∧
      (dropQueued p q i s).srv.stats = IMap.upd 0 s.srv.stats (p * 64 + 42) (fun v => (v + 1) % 2 ^ 64) := by
  have heq : dropQueued p q i s = discardFrame (s.txq p q)[i] false (mac p 42 1 (setTxq p q ((s.txq p q).eraseIdx i) s)) := by
    rw [dropQueued, List.getElem?_eq_getElem h]; rfl
  have hq : SameQueues (setTxq p q ((s.txq p q).eraseIdx i) s) (dropQueued p q i s) := by
    rw [heq]; exact (sameQueues_mac _ p 42 1).trans (sameQueues_discardFrame _ _ _)
  refine ⟨(hq.txq p q).trans (txq_setTxq_same _ _ _ _), fun r hr => (hq.txq p r).trans (txq_setTxq_ne _ _ _ hr), ?_⟩
  rw [heq, discardFrame_stats, mac_stats]
  rfl

theorem dropQueued_none {p q i : Nat} {s : State} (h : (s.txq p q).length ≤ i) : dropQueued p q i s = s := by
  rw [dropQueued, List.getElem?_eq_none h]

/-- The row of a word of the packet buffer or of a queue that a queued frame is in. -/
theorem eccRow_queued {a : EccArray} {s : State} {p : Fin 32} {q : Fin 8} {i : Nat} (word : Word)
    (ha : ∀ v, eccAct a v = dropQueued p.val q.val i v) (hi : i < (s.txq p.val q.val).length) :
    ∃ t, Sys2Proof.Machine.exec (.eccError a word false) s = .next t ∧ EccShows a word.toNat s t ∧
      t.txq p.val q.val = (s.txq p.val q.val).eraseIdx i ∧ (∀ r : Fin 8, r ≠ q → t.txq p.val r.val = s.txq p.val r.val) ∧
      IMap.get 0 t.srv.stats (p.val * 64 + 42) = (IMap.get 0 s.srv.stats (p.val * 64 + 42) + 1) % 2 ^ 64 ∧
      Touches [.log, .srv, .rings, .regs .wch, .regs .ring] s t := by
  have hlen : i < ((eccTold a word.toNat s.begin).txq p.val q.val).length := by rw [eccTold_txq]; exact hi
  have ht := touches_dropQueued (ps := [.srv, .rings, .regs .ring]) p.val q.val i (eccTold a word.toNat s.begin) (by simp) (by simp)
    (by simp) (Touches.refl _ _)
  obtain ⟨t, e, hshow, k⟩ := eccRow (ha _) ht (by simp) (by simp)
  obtain ⟨hq, hothers, hstats⟩ := dropQueued_frame hlen
  have htxq : ∀ r, t.txq p.val r = (dropQueued p.val q.val i (eccTold a word.toNat s.begin)).txq p.val r := fun r => by
    rw [State.txq, State.port, k.srv]; rfl
  refine ⟨t, e, hshow, by rw [htxq, hq, eccTold_txq], fun r hr => ?_, ?_, k.touches (((touches_eccTold a word.toNat s).mono (by simp)).trans
    (ht.mono (by simp)))⟩
  · rw [htxq, hothers _ fun h => hr (Fin.ext h), eccTold_txq]
  · rw [k.srv, hstats, eccTold_srv, stats_upd_same]

/-! ### Received frames (R235) -/

theorem macPort_srv (p i : Nat) (f : Port → Port) (s : State) : (mac p i 1 (s.modPort p f)).srv =
    { s.srv with
      ports := IMap.upd {} s.srv.ports p f
      stats := IMap.upd 0 s.srv.stats (p * 64 + i) (fun v => (v + 1) % 2 ^ 64) } := by
  rw [mac, bumpStat_srv _ _ _ _ _ (by decide)]; rfl

theorem frame_macPort {fs : List Field} {ps : List Part} {s₀ s : State} {p i : Nat} {f : Port → Port} (hs : Part.srv ∈ ps)
    (h : Frame fs ps s₀ s) : Frame fs ps s₀ (mac p i 1 (s.modPort p f)) := frame_mac hs (frame_modPort hs h)

/-- The row of a word whose frame is taken from a port's receive side and counted in RX_BUF_DROP. -/
theorem eccRow_received {a : EccArray} {s : State} {p : Fin 32} {f : Port → Port} (word : Word)
    (ha : eccAct a (eccTold a word.toNat s.begin) = mac p.val 18 1 ((eccTold a word.toNat s.begin).modPort p.val f)) :
    ∃ t, Sys2Proof.Machine.exec (.eccError a word false) s = .next t ∧ EccShows a word.toNat s t ∧ t.port p.val = f (s.port p.val) ∧
      IMap.get 0 t.srv.stats (p.val * 64 + 18) = (IMap.get 0 s.srv.stats (p.val * 64 + 18) + 1) % 2 ^ 64 ∧
      (∀ k, k ≠ p.val * 64 + 18 → IMap.get 0 t.srv.stats k = IMap.get 0 s.srv.stats k) ∧ Frame eccFields [.log, .srv] s t := by
  have ht : Touches [.srv] (eccTold a word.toNat s.begin) (mac p.val 18 1 ((eccTold a word.toNat s.begin).modPort p.val f)) :=
    touches_mac _ _ _ _ (by simp) (touches_State_modPort _ _ _ (by simp) (Touches.refl _ _))
  obtain ⟨t, e, hshow, k⟩ := eccRow ha ht (by simp) (by simp)
  have hsrv := k.srv.trans (macPort_srv _ _ _ _)
  rw [eccTold_srv] at hsrv
  refine ⟨t, e, hshow, ?_, ?_, fun j hj => ?_, k.frame (frame_macPort (by simp) (frame_told _ _ (by simp) s))⟩
  · rw [State.port, hsrv]; exact IMap.get_upd_same _ _ _ _
  · rw [hsrv]; exact stats_upd_same _ _
  · rw [hsrv]; exact stats_upd_ne _ hj

/-! ### Interval records -/

/-- Whether a slot of a ring holds an unread record. -/
def State.unread (s : State) (g slot : Nat) : Prop :=
  (slot + 16384 - s.rd (R.TIM_GRP_RD_RD g)) % 16384 < (s.rd (R.TIM_GRP_WR_WR g) + 16384 - s.rd (R.TIM_GRP_RD_RD g)) % 16384

/-- The state once an unread record has been lost. -/
def recordLost (g slot : Nat) (s : State) : State :=
  (({ s with tim := { s.tim with rings := IMap.put [] s.tim.rings (g * 16384 + slot) [] } } : State).wr (R.TIM_GRP_LOST_LOST g)
    (satNat 32 (s.rd (R.TIM_GRP_LOST_LOST g) + 1))).count 0x031 g 1

theorem dropRecord_unread {g slot : Nat} {s : State} (h : s.unread g slot) : dropRecord g slot s = recordLost g slot s := if_pos h
theorem dropRecord_read {g slot : Nat} {s : State} (h : ¬s.unread g slot) : dropRecord g slot s = s := if_neg h

theorem frame_recordLost {fs : List Field} {ps : List Part} {s₀ s : State} {g slot : Nat} (hf : R.TIM_GRP_LOST_LOST g ∈ fs)
    (ht : Part.tim ∈ ps) (h : Frame fs ps s₀ s) : Frame fs ps s₀ (recordLost g slot s) :=
  frame_count (frame_wr hf (frame_set_tim ht h))

theorem side_timLost (g : Nat) : (R.TIM_GRP_LOST_LOST g).side = false :=
  Field.side_of_low (by simp only [R.TIM_GRP_LOST_LOST, Field.mk']; omega)

theorem rd_recordLost (g slot : Nat) (s : State) :
    (recordLost g slot s).rd (R.TIM_GRP_LOST_LOST g) = satNat 32 (s.rd (R.TIM_GRP_LOST_LOST g) + 1) :=
  (rd_count _ _ _ _ (side_timLost g)).trans ((rd_wr_same _ _ _).trans (Nat.mod_eq_of_lt (satNat_lt 32 _)))

theorem recordLost_tim (g slot : Nat) (s : State) :
    (recordLost g slot s).tim = { s.tim with rings := IMap.put [] s.tim.rings (g * 16384 + slot) [] } :=
  (counted_count _ _ _ _).tim

theorem eccTold_tim (a : EccArray) (word : Nat) (s : State) : (eccTold a word s.begin).tim = s.tim :=
  (frame_told (ps := [.log]) a word (by simp) s).2.1 .tim (by simp) rfl

theorem rd_eccTold_tim (a : EccArray) (word : Nat) (s : State) {f : Field} (hf : Block.tim.has f.key = true) (hs : f.side = false) :
    (eccTold a word s.begin).rd f = s.rd f := (touches_eccTold a word s).rd (by simp) hf hs

theorem unread_eccTold (a : EccArray) (word : Nat) (s : State) (g : Fin 8) (slot : Nat) :
    (eccTold a word s.begin).unread g.val slot ↔ s.unread g.val slot := by
  have hrd := rd_eccTold_tim a word s (has_R_TIM_GRP_RD_RD g.val) (Field.side_of_low (by simp only [R.TIM_GRP_RD_RD, Field.mk']; omega))
  have hwr := rd_eccTold_tim a word s (has_R_TIM_GRP_WR_WR g.val) (Field.side_of_low (by simp only [R.TIM_GRP_WR_WR, Field.mk']; omega))
  rw [State.unread, State.unread, hrd, hwr]

theorem eccRow_record {s : State} (g : Fin 8) (slot : Fin 16384) (word : Word) (h : s.unread g.val slot.val) :
    ∃ t, Sys2Proof.Machine.exec (.eccError (.record g slot) word false) s = .next t ∧ EccShows (.record g slot) word.toNat s t ∧
      IMap.get [] t.tim.rings (g.val * 16384 + slot.val) = [] ∧
      t.rd (R.TIM_GRP_LOST_LOST g.val) = satNat 32 (s.rd (R.TIM_GRP_LOST_LOST g.val) + 1) ∧
      Frame ([R.TIM_GRP_LOST_LOST g.val] ++ eccFields) [.log, .tim] s t := by
  have hact : eccAct (.record g slot) (eccTold (.record g slot) word.toNat s.begin) =
      recordLost g.val slot.val (eccTold (.record g slot) word.toNat s.begin) := dropRecord_unread ((unread_eccTold _ _ _ _ _).2 h)
  have ht : Touches [.tim, .regs .tim] (eccTold (.record g slot) word.toNat s.begin)
      (recordLost g.val slot.val (eccTold (.record g slot) word.toNat s.begin)) :=
    touches_State_count _ _ _ _ (touches_State_wr (has_R_TIM_GRP_LOST_LOST g.val) (by simp) (touches_set_tim (by simp) (Touches.refl _ _)))
  obtain ⟨t, e, hshow, k⟩ := eccRow hact ht (by simp) (by simp)
  refine ⟨t, e, hshow, by rw [k.tim, recordLost_tim, IMap.get_put_same], (k.rd (side_timLost g.val)).trans ?_, k.frame ?_⟩
  · rw [rd_recordLost, rd_eccTold_tim _ _ _ (has_R_TIM_GRP_LOST_LOST g.val) (side_timLost g.val)]
  · exact frame_recordLost (by simp) (by simp) ((frame_told _ _ (by simp) s).mono (fun f hf => List.mem_append_right _ hf) fun p hp => hp)

/-! ### The Keeper's own memories (R447, R451) -/

/-- The parts a warm reset writes again once its base stands. -/
def warmParts : List Part := Part.all.filter fun p => p ∉ [.fw, .mbx, .rings, .power, .tick]

theorem touches_warmState_base (ts : Bool) (sender : Nat) (s : State) : Touches warmParts (warmBase s) (warmState ts sender s) := by
  have hall : ∀ b, Part.regs b ∈ warmParts := by intro b; cases b <;> decide
  have hens : Part.ens ∈ warmParts := by decide
  have hrfm : Part.rfm ∈ warmParts := by decide
  have htim : Part.tim ∈ warmParts := by decide
  have hgnss : Part.gnss ∈ warmParts := by decide
  have hlog : Part.log ∈ warmParts := by decide
  have hsrv : Part.srv ∈ warmParts := by decide
  have hbase : Touches warmParts (warmBase s) (warmBase s) := Touches.refl _ _
  unfold warmState
  with_reducible repeat' first
    | assumption
    | intro _
    | apply touches_warmEns
    | apply touches_warmRfm
    | apply touches_warmOut
    | apply touches_warmGroup
    | apply touches_State_modGnsPort
    | apply touches_State_modPort
    | apply touches_manualNotch
    | apply touches_assignChan
    | apply touches_wr_all
    | apply touches_foldl
    | apply touches_ite
    | apply hall

/-- What a warm reset empties, and the tick domain it keeps. -/
theorem warmState_empties (ts : Bool) (sender : Nat) (s : State) :
    (warmState ts sender s).fw = {} ∧ (warmState ts sender s).mbx = [] ∧ (warmState ts sender s).rings = [] ∧
      (warmState ts sender s).power = {} ∧ (warmState ts sender s).tick = s.tick := by
  have h := (touches_warmState_base ts sender s).1
  exact ⟨h .fw (by decide), h .mbx (by decide), h .rings (by decide), h .power (by decide), h .tick (by decide)⟩

theorem abortFor_tick (id : Nat) (s : State) : (abortFor id s).tick = s.tick :=
  (touches_abortFor (ps := [.mbx, .fw, .regs .mbx]) id s (by simp) (by simp) (by simp) (Touches.refl _ s)).1 .tick (by simp)

/-- A warm reset begins at once where none as wide is in progress (R448). -/
theorem beginReset_warm {s : State} (sender : Nat) (h : ∀ k, s.rst.active = some k → k.1.rank < ResetKind.warm.rank) :
    (beginReset .warm sender s).rst.active = some (.warm, sender) ∧ (beginReset .warm sender s).rst.stage = 0 ∧
      (beginReset .warm sender s).fw = {} ∧ (beginReset .warm sender s).mbx = [] ∧ (beginReset .warm sender s).rings = [] ∧
      (beginReset .warm sender s).power = {} ∧ (beginReset .warm sender s).tick = s.tick := by
  obtain ⟨hfw, hmbx, hrings, hpower, htick⟩ := warmState_empties false sender (abortFor 3 s)
  have hok : ∃ rq, beginReset .warm sender s =
      { (warmState false sender (abortFor 3 s)) with
        rst := { (warmState false sender (abortFor 3 s)).rst with active := some (.warm, sender), stage := 0, requests := rq } } := by
    refine ⟨_, if_pos ?_⟩
    split
    · next a ha => exact decide_eq_true (h a ha)
    · rfl
  obtain ⟨rq, heq⟩ := hok
  rw [heq]
  exact ⟨rfl, rfl, hfw, hmbx, hrings, hpower, htick.trans (abortFor_tick 3 s)⟩

theorem beginReset_warm_refused {s : State} (sender : Nat) (hs : s.rst.active.isSome = true)
    (h : ∀ k, s.rst.active = some k → ResetKind.warm.rank ≤ k.1.rank) : beginReset .warm sender s = s := by
  obtain ⟨a, ha⟩ := Option.isSome_iff_exists.1 hs
  have hno : decide (a.1.rank < ResetKind.warm.rank) = false := decide_eq_false (not_lt.2 (h a ha))
  simp only [beginReset, ha, hno]
  simp

theorem eccRow_warm {a : EccArray} {s : State} (word : Word) (ha : ∀ v, eccAct a v = beginReset .warm 0 v)
    (h : ∀ k, s.rst.active = some k → k.1.rank < ResetKind.warm.rank) :
    ∃ t, Sys2Proof.Machine.exec (.eccError a word false) s = .next t ∧ t.rst.active = some (.warm, 0) ∧ t.rst.stage = 0 ∧ t.fw = {} ∧
      t.mbx = [] ∧ t.rings = [] ∧ t.power = {} ∧ t.tick = s.tick ∧ Touches Part.all s t := by
  have hrst : ∀ k, (eccTold a word.toNat s.begin).rst.active = some k → k.1.rank < ResetKind.warm.rank := by
    rw [eccTold_rst]; exact h
  obtain ⟨hactive, hstage, hfw, hmbx, hrings, hpower, htick⟩ := beginReset_warm 0 hrst
  obtain ⟨t, e, k⟩ := go_ended_of ((eccError_uncorrected a word.toNat s.begin).trans (ha _))
  exact ⟨t, e, by rw [k.rst]; exact hactive, by rw [k.rst]; exact hstage, k.fw.trans hfw, k.mbx.trans hmbx, k.rings.trans hrings,
    k.power.trans hpower, k.tick.trans (htick.trans (eccTold_tick _ _ _)), touches_exec (i := .eccError a word false) e⟩

theorem eccRow_warm_refused {a : EccArray} {s : State} (word : Word) (ha : ∀ v, eccAct a v = beginReset .warm 0 v)
    (hs : s.rst.active.isSome = true) (h : ∀ k, s.rst.active = some k → ResetKind.warm.rank ≤ k.1.rank) :
    ∃ t, Sys2Proof.Machine.exec (.eccError a word false) s = .next t ∧ EccShows a word.toNat s t ∧ Frame eccFields [.log] s t := by
  refine eccRow_idle ((ha _).trans (beginReset_warm_refused 0 ?_ ?_)) <;> rw [eccTold_rst]
  · exact hs
  · exact h

theorem eccError_corrected (a : EccArray) (word : Word) (s : State) :
    ∃ t, Sys2Proof.Machine.exec (.eccError a word true) s = .next t ∧ t.rd R.WCH_ECC_CORR = satNat 16 (s.rd R.WCH_ECC_CORR + 1) ∧
      Frame [R.WCH_ECC_CORR] [] s t := by
  obtain ⟨t, e, k⟩ := go_ended_of (show eccError a word.toNat true s.begin =
    (s.begin.wr R.WCH_ECC_CORR (satNat 16 (s.begin.rd R.WCH_ECC_CORR + 1))).count 0x060 (eccCode a).2 1 from rfl)
  exact ⟨t, e, (k.rd (by decide)).trans ((rd_count _ _ _ _ (by decide)).trans ((rd_wr_same _ _ _).trans
    (Nat.mod_eq_of_lt (satNat_lt 16 _)))), k.frame (frame_count (frame_wr (by simp) (frame_begin s)))⟩

/-- Settles O51: each array by what its action leaves beside the report. -/
theorem eccErrors : Obligations.EccErrors := by
  have hwarm : ∀ a, (a = EccArray.firmware ∨ a = .keys ∨ a = .shadow) → ∀ v, eccAct a v = beginReset .warm 0 v := by
    rintro a (rfl | rfl | rfl) v <;> rfl
  refine ⟨fun s a word => eccError_corrected a word s, fun s d word => ?_, fun s n e word hv => ?_, fun s n e word hv => ?_,
    fun s n e word hv => ?_, fun s n e word hv => ?_, fun s p q i word hi => ?_, fun s p q i word hi => ?_, fun s p q i word hi => ?_,
    fun s p q i word hi => ?_, fun s p i word hi => ?_, fun s p i word hi => ?_, fun s p word ha => ?_, fun s p word ha => ?_,
    fun s g slot word hu => ?_, fun s g slot word hu => ?_, fun s a word ha h => eccRow_warm word (hwarm a ha) h, fun s a word ha hs h => ?_⟩
  · obtain ⟨t, e, ⟨h1, h2, h3, h4, h5⟩, hframe⟩ := eccRow_idle (a := .other d) (word := word) (s := s) rfl
    exact ⟨t, e, h1, h2, h3, h4, h5, hframe⟩
  · obtain ⟨t, ex, ⟨h1, h2, h3, h4, h5⟩, hsrv, hframe⟩ := eccRow_cst n e word hv
    refine ⟨t, ex, h1, h2, h3, h4, h5, ?_, fun k hk => ?_, ?_, fun k hk => ?_, by rw [hsrv], by rw [hsrv], hframe⟩ <;> rw [hsrv]
    · dsimp only; rw [IMap.get_put_same]
    · dsimp only; exact IMap.get_put_ne _ _ _ hk
    · exact stats_upd_same _ _
    · exact stats_upd_ne _ hk
  · obtain ⟨t, ex, ⟨h1, h2, h3, h4, h5⟩, hframe⟩ := eccRow_idle (s := s) (word := word)
      (eccAct_cst_free n e ((congrArg CstEntry.valid (eccTold_cst _ _ _ _)).trans hv))
    exact ⟨t, ex, h1, h2, h3, h4, h5, hframe⟩
  · obtain ⟨t, ex, ⟨h1, h2, h3, h4, h5⟩, hsrv, hframe⟩ := eccRow_grant n e word hv
    refine ⟨t, ex, h1, h2, h3, h4, h5, ?_, fun k hk => ?_, ?_, fun k hk => ?_, by rw [hsrv], by rw [hsrv], hframe⟩
    · rw [State.grant, hsrv]; dsimp only; rw [IMap.get_put_same]
    · rw [State.grant, hsrv]; dsimp only; exact IMap.get_put_ne _ _ _ hk
    · rw [hsrv]; exact stats_upd_same _ _
    · rw [hsrv]; exact stats_upd_ne _ hk
  · obtain ⟨t, ex, ⟨h1, h2, h3, h4, h5⟩, hframe⟩ := eccRow_idle (s := s) (word := word)
      (eccAct_grant_free n e ((congrArg Grant.valid (eccTold_grant _ _ _ _)).trans hv))
    exact ⟨t, ex, h1, h2, h3, h4, h5, hframe⟩
  · obtain ⟨t, ex, ⟨h1, h2, h3, h4, h5⟩, hframe⟩ := eccRow_idle (a := .packet p q i) (word := word) (s := s)
      (dropQueued_none (by rw [eccTold_txq]; exact hi))
    exact ⟨t, ex, h1, h2, h3, h4, h5, hframe⟩
  · obtain ⟨t, ex, ⟨h1, h2, h3, h4, h5⟩, hframe⟩ := eccRow_idle (a := .queue p q i) (word := word) (s := s)
      (dropQueued_none (by rw [eccTold_txq]; exact hi))
    exact ⟨t, ex, h1, h2, h3, h4, h5, hframe⟩
  · obtain ⟨t, ex, ⟨h1, h2, h3, h4, h5⟩, hq, hothers, hstats, ht⟩ := eccRow_queued (a := .packet p q i) word (fun _ => rfl) hi
    exact ⟨t, ex, h1, h2, h3, h4, h5, hq, hothers, hstats, ht⟩
  · obtain ⟨t, ex, ⟨h1, h2, h3, h4, h5⟩, hq, hothers, hstats, ht⟩ := eccRow_queued (a := .queue p q i) word (fun _ => rfl) hi
    exact ⟨t, ex, h1, h2, h3, h4, h5, hq, hothers, hstats, ht⟩
  · obtain ⟨t, ex, ⟨h1, h2, h3, h4, h5⟩, hport, hstat, hstats, hframe⟩ := eccRow_received (a := .received p i) (s := s) (p := p)
      (f := fun k => { k with fec := k.fec.eraseIdx i }) word (if_pos (by rw [eccTold_port]; exact hi))
    exact ⟨t, ex, h1, h2, h3, h4, h5, by rw [hport], by rw [hport], hstat, hstats, hframe⟩
  · obtain ⟨t, ex, ⟨h1, h2, h3, h4, h5⟩, hframe⟩ := eccRow_idle (a := .received p i) (word := word) (s := s)
      (if_neg (by rw [eccTold_port]; exact not_lt.2 hi))
    exact ⟨t, ex, h1, h2, h3, h4, h5, hframe⟩
  · obtain ⟨t, ex, ⟨h1, h2, h3, h4, h5⟩, hport, hstat, hstats, hframe⟩ := eccRow_received (a := .assembly p) (s := s) (p := p)
      (f := fun k => { k with asm := none }) word (if_pos (by rw [eccTold_port]; exact ha))
    exact ⟨t, ex, h1, h2, h3, h4, h5, by rw [hport], by rw [hport], hstat, hstats, hframe⟩
  · obtain ⟨t, ex, ⟨h1, h2, h3, h4, h5⟩, hframe⟩ := eccRow_idle (a := .assembly p) (word := word) (s := s)
      (if_neg (by rw [eccTold_port, ha]; decide))
    exact ⟨t, ex, h1, h2, h3, h4, h5, hframe⟩
  · obtain ⟨t, ex, ⟨h1, h2, h3, h4, h5⟩, hslot, hlost, hframe⟩ := eccRow_record g slot word hu
    exact ⟨t, ex, h1, h2, h3, h4, h5, hslot, hlost, hframe⟩
  · obtain ⟨t, ex, ⟨h1, h2, h3, h4, h5⟩, hframe⟩ := eccRow_idle (a := .record g slot) (word := word) (s := s)
      (dropRecord_read fun h => hu ((unread_eccTold _ _ _ _ _).1 h))
    exact ⟨t, ex, h1, h2, h3, h4, h5, hframe⟩
  · obtain ⟨t, ex, ⟨h1, h2, h3, h4, h5⟩, hframe⟩ := eccRow_warm_refused word (hwarm a ha) hs h
    exact ⟨t, ex, h1, h2, h3, h4, h5, hframe⟩

end Sys2Proof.Machine
end

section
/-! PROOFS. Links that go down, the cold reset's beginning, and the TAP (R496, R497, O53). -/

namespace Sys2Proof.Machine

variable {fs : List Field} {ps : List Part} {s₀ s : State}

/-! ### A port's link goes down (R226) -/

theorem frame_loseFlight {p : Nat} {v : Option Flight} (hf : ∀ q, ∀ f ∈ drainFields q, f ∈ fs) (hs : Part.srv ∈ ps)
    (hr : Part.rings ∈ ps) (h : Frame fs ps s₀ s) : Frame fs ps s₀ (loseFlight p v s) := by
  unfold loseFlight
  split
  · exact h
  · dsimp only
    split
    · exact frame_finishDesc (hf _) hr hs (frame_mac hs h)
    · exact frame_mac hs h

theorem frame_dropNts {p : Nat} (hf : (Evt.nts (p / 8)).ev ∈ fs) (hs : Part.srv ∈ ps) (h : Frame fs ps s₀ s) :
    Frame fs ps s₀ (dropNts p s) := by
  have hd : ∀ (l : List TxFrame) (g : Port → Port), Frame fs ps s₀ ((setTxq p 7 l s).modPort p g) :=
    fun _ _ => frame_modPort hs (frame_modPort hs h)
  exact frame_ite (hd _ _) (frame_raise hf (frame_bumpStat hs (hd _ _)))

theorem frame_loseOpen {p : Nat} (hs : Part.srv ∈ ps) (h : Frame fs ps s₀ s) : Frame fs ps s₀ (loseOpen p s) :=
  frame_ite (frame_mac hs (frame_modPort hs h)) (frame_modPort hs h)

/-- The fields of a port that leaving UP may move. -/
def leaveFields (p : Nat) : List Field :=
  [R.MAC_STAT_VERIFY p, R.MAC_STAT_PRE_ACTIVE p, (Evt.mac p).ev, (Evt.nts (p / 8)).ev]

theorem frame_leaveUp {p : Nat} (hl : ∀ f ∈ leaveFields p, f ∈ fs) (hf : ∀ q, ∀ f ∈ drainFields q, f ∈ fs) (hs : Part.srv ∈ ps)
    (hr : Part.rings ∈ ps) (h : Frame fs ps s₀ s) : Frame fs ps s₀ (leaveUp p s) := by
  have h1 := frame_settle hf hs hr (p := p) h
  have h2 : ∀ g, Frame fs ps s₀ ((settle p s).modPort p g) := fun g => frame_modPort hs h1
  have h3 : ∀ g v w, Frame fs ps s₀ (loseFlight p v (loseFlight p w ((settle p s).modPort p g))) :=
    fun g v w => frame_loseFlight hf hs hr (frame_loseFlight hf hs hr (h2 g))
  have h4 : ∀ g v w n, Frame fs ps s₀ (loseOpen p (dropNts p (mac p 42 n (loseFlight p v (loseFlight p w ((settle p s).modPort p g)))))) :=
    fun g v w n => frame_loseOpen hs (frame_dropNts (hl _ (by simp [leaveFields])) hs (frame_mac hs (h3 g v w)))
  exact frame_raise (hl _ (by simp [leaveFields])) (frame_mac hs (frame_modPort hs (frame_lo (hl _ (by simp [leaveFields]))
    (frame_wr (hl _ (by simp [leaveFields])) (h4 _ _ _ _)))))

/-- The fields of a port that a link going down may move, STATE among them. -/
def downFields (p : Nat) : List Field :=
  leaveFields p ++ [R.MAC_STAT_FEC_LOCK p, R.MAC_STAT_AN_DONE p, R.MAC_STAT_FEC_USED p, R.MAC_STAT_STATE p]

theorem frame_setLink {p st : Nat} (hl : ∀ f ∈ downFields p, f ∈ fs) (hf : ∀ q, ∀ f ∈ drainFields q, f ∈ fs) (hs : Part.srv ∈ ps)
    (hr : Part.rings ∈ ps) (h : Frame fs ps s₀ s) : Frame fs ps s₀ (setLink p st s) := by
  have hleave : Frame fs ps s₀ (if s.isUp p then leaveUp p s else s) :=
    frame_ite (frame_leaveUp (fun f hm => hl f (List.mem_append_left _ hm)) hf hs hr h) h
  exact frame_wr (hl _ (by simp [downFields])) (frame_lo (hl _ (by simp [downFields])) (frame_lo (hl _ (by simp [downFields]))
    (frame_lo (hl _ (by simp [downFields])) hleave)))

theorem link_setLink_same (p st : Nat) (s : State) (h : st < 4) : (setLink p st s).link p = st :=
  (rd_wr_same _ _ _).trans (Nat.mod_eq_of_lt h)

theorem side_link (p : Nat) : (R.MAC_STAT_STATE p).side = false :=
  Field.side_of_mid (by simp only [R.MAC_STAT_STATE, Field.mk']; omega)

/-- Another port's link stands. -/
theorem link_setLink_ne {p q : Nat} (hp : p < 32) (hq : q < 32) (h : q ≠ p) (st : Nat) (s : State) :
    (setLink p st s).link q = s.link q := by
  have hframe : Frame (downFields p ++ endedFields) [.srv, .rings] s (setLink p st s) :=
    frame_setLink (fun f hf => List.mem_append_left _ hf) (fun r f hf => List.mem_append_right _ (drainFields_ended r f hf)) (by simp)
      (by simp) (Frame.refl _ _ s)
  refine hframe.rd (fun f hf => ?_) (side_link q)
  rcases List.mem_append.1 hf with hf | hf
  · simp only [downFields, leaveFields, List.cons_append, List.nil_append, List.mem_cons, List.not_mem_nil, or_false] at hf
    rcases hf with rfl | rfl | rfl | rfl | rfl | rfl | rfl | rfl <;>
      simp only [R.MAC_STAT_STATE, R.MAC_STAT_VERIFY, R.MAC_STAT_PRE_ACTIVE, Evt.mac, R.MAC_EVT_BITS, Evt.nts, R.NTS_EVT_BITS,
        R.MAC_STAT_FEC_LOCK, R.MAC_STAT_AN_DONE, R.MAC_STAT_FEC_USED, Field.mk', Nat.mod_eq_of_lt hp, Nat.mod_eq_of_lt hq] <;> omega
  · obtain ⟨r, -, hr⟩ := List.mem_flatMap.1 hf
    simp only [drainFields, List.mem_cons, List.not_mem_nil, or_false] at hr
    rcases hr with rfl | rfl <;> simp only [R.MAC_STAT_STATE, R.HRG_RING_HEAD_HEAD, R.HRG_RING_CFG_QUIESCED, Field.mk'] <;> omega

/-- Every port goes DOWN. -/
def portsDown (s : State) : State := (List.range 32).foldl (fun s p => if s.link p = 0 then s else setLink p 0 s) s

theorem link_portsDown (s : State) {p : Nat} (hp : p < 32) : (portsDown s).link p = 0 := by
  have key : ∀ (l : List Nat), (∀ q ∈ l, q < 32) → ∀ s : State, (p ∈ l ∨ s.link p = 0) →
      (l.foldl (fun s q => if s.link q = 0 then s else setLink q 0 s) s).link p = 0 := by
    intro l hl
    induction l with
    | nil => exact fun s h => h.resolve_left (by simp)
    | cons q l ih =>
      intro s h
      have hq := hl q (by simp)
      rw [List.foldl_cons]
      refine ih (fun r hr => hl r (by simp [hr])) _ ?_
      by_cases hqp : p = q
      · subst hqp
        refine .inr ?_
        by_cases h0 : s.link p = 0
        · rw [if_pos h0, h0]
        · rw [if_neg h0, link_setLink_same p 0 s (by decide)]
      · refine h.imp (fun hm => (List.mem_cons.1 hm).resolve_left hqp) fun h0 => ?_
        by_cases hq0 : s.link q = 0
        · rw [if_pos hq0, h0]
        · rw [if_neg hq0, link_setLink_ne hq hp hqp, h0]
  exact key _ (by simp) s (.inl (by simpa using hp))

theorem touches_portsDown (hsrv : Part.srv ∈ ps) (hrings : Part.rings ∈ ps) (rmac : Part.regs .mac ∈ ps) (rnts : Part.regs .nts ∈ ps)
    (rring : Part.regs .ring ∈ ps) (h : Touches ps s₀ s) : Touches ps s₀ (portsDown s) :=
  touches_foldl h fun _ p h => touches_ite h (touches_setLink p 0 _ hsrv hrings rmac rnts rring h)

/-! ### A Mooring link's state (R374) -/

/-- What a link's change of state does once STATE and the event are written. -/
def setMorRest (l st old : Nat) (s : State) : State :=
  let s := if decide (3 ≤ old) = decide (3 ≤ st) then s
    else (s.modMor l (fun k => { k with miss := 4 })).emit (.bert l (decide (3 ≤ st)))
  let s := spoil (if old = 4 then withdraw (6 + l) s else s)
  if s.fabric = 3 then sendReport s else s

theorem setMor_eq (l st : Nat) (s : State) :
    setMor l st s = if s.morState l = st then s
      else setMorRest l st (s.morState l) ((s.wr (R.MOR_LINK_STAT_STATE l) st).raise Evt.mor 1) := rfl

theorem touches_setMorRest {l st old : Nat} (hens : Part.ens ∈ ps) (hlog : Part.log ∈ ps) (hstack : Part.stack ∈ ps)
    (rens : Part.regs .ens ∈ ps) (rwch : Part.regs .wch ∈ ps) (h : Touches ps s₀ s) : Touches ps s₀ (setMorRest l st old s) := by
  have h1 : Touches ps s₀ (if decide (3 ≤ old) = decide (3 ≤ st) then s
      else (s.modMor l (fun k => { k with miss := 4 })).emit (.bert l (decide (3 ≤ st)))) :=
    touches_ite h (touches_State_emit (touches_State_modMor _ _ _ hstack h))
  have h2 := touches_spoil _ hstack (touches_ite (c := old = 4) (touches_withdraw (6 + l) _ hens hlog rens rwch h1) h1)
  exact touches_ite (touches_sendReport _ hstack h2) h2

theorem side_morState (l : Nat) : (R.MOR_LINK_STAT_STATE l).side = false :=
  Field.side_of_low (by simp only [R.MOR_LINK_STAT_STATE, Field.mk']; omega)

theorem morState_setMor_changed (l st m : Nat) (s : State) :
    (setMorRest l st (s.morState l) ((s.wr (R.MOR_LINK_STAT_STATE l) st).raise Evt.mor 1)).morState m =
      (s.wr (R.MOR_LINK_STAT_STATE l) st).morState m := by
  have hrest := (touches_setMorRest (ps := [.ens, .log, .stack, .regs .ens, .regs .wch]) (l := l) (st := st) (old := s.morState l)
    (by simp) (by simp) (by simp) (by simp) (by simp)
    (Touches.refl _ ((s.wr (R.MOR_LINK_STAT_STATE l) st).raise Evt.mor 1))).rd (b := .mor) (by simp) (has_R_MOR_LINK_STAT_STATE m)
    (side_morState m)
  refine hrest.trans (rd_raise_ne _ _ _ ?_ (side_morState m))
  simp only [R.MOR_LINK_STAT_STATE, Evt.mor, R.MOR_EVT_BITS, Field.mk']; omega

theorem morState_setMor_same (l st : Nat) (s : State) (h : st < 8) : (setMor l st s).morState l = st := by
  rw [setMor_eq]
  split
  · assumption
  · exact (morState_setMor_changed l st l s).trans ((rd_wr_same _ _ _).trans (Nat.mod_eq_of_lt h))

theorem morState_setMor_ne (l st m : Nat) (s : State) (h : m % 2 ≠ l % 2) : (setMor l st s).morState m = s.morState m := by
  rw [setMor_eq]
  split
  · rfl
  · refine (morState_setMor_changed l st m s).trans (rd_wr_ne _ _ ?_)
    simp only [R.MOR_LINK_STAT_STATE, Field.mk']; omega

/-! ### The links in a test mode (R497) -/

/-- Every port and Mooring link is taken DOWN. -/
def linksDown (s : State) : State := setMor 1 0 (setMor 0 0 (portsDown s))

theorem touches_linksDown (s : State) : Touches [.ens, .log, .srv, .rings, .stack, .regs .ens, .regs .mor, .regs .wch, .regs .mac, .regs .nts,
    .regs .ring] s (linksDown s) := by
  refine touches_setMor _ _ _ ?_ ?_ ?_ ?_ ?_ ?_ (touches_setMor _ _ _ ?_ ?_ ?_ ?_ ?_ ?_ (touches_portsDown ?_ ?_ ?_ ?_ ?_ (Touches.refl _ s))) <;>
    simp

theorem link_linksDown (s : State) (p : Fin 32) : (linksDown s).link p.val = 0 := by
  have hm : Touches [.ens, .log, .stack, .regs .ens, .regs .mor, .regs .wch] (portsDown s) (linksDown s) := by
    refine touches_setMor _ _ _ ?_ ?_ ?_ ?_ ?_ ?_ (touches_setMor _ _ _ ?_ ?_ ?_ ?_ ?_ ?_ (Touches.refl _ _)) <;> simp
  exact (hm.rd (b := .mac) (by simp) (has_R_MAC_STAT_STATE p.val) (side_link p.val)).trans (link_portsDown s p.isLt)

theorem morState_linksDown (s : State) (l : Fin 2) : (linksDown s).morState l.val = 0 := by
  obtain ⟨l, hl⟩ := l
  interval_cases l
  · exact (morState_setMor_ne 1 0 0 _ (by decide)).trans (morState_setMor_same 0 0 _ (by decide))
  · exact morState_setMor_same 1 0 _ (by decide)

/-! ### A cold reset begins (R447, R448) -/

/-- Where the new state selects no counter, the end of a command counts nothing. -/
theorem countEdges_of_noPct {s t : State} (h : t.pct = []) : countEdges s t = t := by
  have key : ∀ l : IMap Pct, l.foldl (fun u cp =>
      let p := IMap.get {} u.pct cp.1
      if p.event = cp.2.event && p.unit = cp.2.unit && !p.level && !s.pctCond p.event p.unit && t.pctCond p.event p.unit then bumpPct cp.1 1 u
      else u) t = t := by
    intro l
    induction l with
    | nil => rfl
    | cons cp l ih =>
      have hnone : IMap.get {} t.pct cp.1 = ({} : Pct) := by rw [h]; rfl
      have hcond : t.pctCond ({} : Pct).event ({} : Pct).unit = false := rfl
      rw [List.foldl_cons, if_neg, ih]
      rw [hnone, hcond, Bool.and_false]
      exact Bool.false_ne_true
  exact key s.pct

/-- The cold reset's state, which waits for its first stage. -/
def coldBegun (sender : Nat) (requests : List (ResetKind × Nat × Nat)) (s : State) : State :=
  { coldState false (abortFor 3 s) with
    rst := { (coldState false (abortFor 3 s)).rst with active := some (.cold, sender), stage := 0, requests := requests } }

/-- A cold reset begins at once where none as wide is in progress. -/
theorem beginReset_cold {s : State} (sender : Nat) (h : ∀ k, s.rst.active = some k → k.1.rank < ResetKind.cold.rank) :
    ∃ rq, beginReset .cold sender s = coldBegun sender rq s := by
  refine ⟨_, if_pos ?_⟩
  split
  · next a ha => exact decide_eq_true (h a ha)
  · rfl

theorem beginReset_cold_refused {s : State} (sender : Nat) (hs : s.rst.active.isSome = true)
    (h : ∀ k, s.rst.active = some k → ResetKind.cold.rank ≤ k.1.rank) : beginReset .cold sender s = s := by
  obtain ⟨a, ha⟩ := Option.isSome_iff_exists.1 hs
  have hno : decide (a.1.rank < ResetKind.cold.rank) = false := decide_eq_false (not_lt.2 (h a ha))
  simp only [beginReset, ha, hno]
  simp

theorem abortFor_keeps (id : Nat) (s : State) : (abortFor id s).rst = s.rst ∧ (abortFor id s).cfg = s.cfg := by
  have h := (touches_abortFor (ps := [.mbx, .fw, .regs .mbx]) id s (by simp) (by simp) (by simp) (Touches.refl _ s)).1
  exact ⟨h .rst (by simp), h .cfg (by simp)⟩

/-! ### Instructions -/

/-- What a scan out of reset or load takes to one rule. -/
theorem tapOp_of_instr {op : TapOp} {i : TapInstr} (h : (op = .reset ∧ i = .idcode) ∨ ∃ b : Byte, op = .load b ∧ tapDecode b.toNat = i) :
    tapOp op = tapInstruction i := by
  rcases h with ⟨rfl, rfl⟩ | ⟨b, rfl, rfl⟩ <;> rfl

/-- The instructions that take the pins from the device. -/
abbrev testInstrs : List TapInstr := [.extest, .clamp, .highz, .extestPulse, .extestTrain]

/-- The state with an instruction in force. -/
def State.withTap (s : State) (i : TapInstr) : State := { s with rst := { s.rst with tap := i } }

theorem tapInstruction_eq (i : TapInstr) (s : State) :
    tapInstruction i s =
      let u := if s.inTest && s.rst.tap ≠ i then beginReset .cold 0 (s.withTap i) else s.withTap i
      if u.inTest then linksDown u else u := rfl

theorem inTest_iff (s : State) : s.inTest = true ↔ s.rst.tap ∈ testInstrs := decide_eq_true_iff

theorem not_leaves {s : State} {i : TapInstr} (h : s.rst.tap ∉ testInstrs ∨ s.rst.tap = i) :
    ¬(s.inTest && decide (s.rst.tap ≠ i)) = true := by
  rw [Bool.and_eq_true, inTest_iff, decide_eq_true_iff]
  rintro ⟨h1, h2⟩
  exact h.elim (· h1) h2

theorem leaves {s : State} {i : TapInstr} (h : s.rst.tap ∈ testInstrs) (hi : s.rst.tap ≠ i) :
    (s.inTest && decide (s.rst.tap ≠ i)) = true := by
  rw [Bool.and_eq_true, inTest_iff, decide_eq_true_iff]
  exact ⟨h, hi⟩

/-- An instruction that takes no pins and follows no test instruction only comes into force. -/
theorem tapInstruction_plain {i : TapInstr} {s : State} (h : s.rst.tap ∉ testInstrs ∨ s.rst.tap = i) (hi : i ∉ testInstrs) :
    tapInstruction i s = s.withTap i := by
  rw [tapInstruction_eq]
  dsimp only
  rw [if_neg (not_leaves h), if_neg]
  rw [inTest_iff]
  exact hi

theorem tapInstruction_test {i : TapInstr} {s : State} (h : s.rst.tap ∉ testInstrs ∨ s.rst.tap = i) (hi : i ∈ testInstrs) :
    tapInstruction i s = linksDown (s.withTap i) := by
  rw [tapInstruction_eq]
  dsimp only
  rw [if_neg (not_leaves h), if_pos]
  rw [inTest_iff]
  exact hi

theorem tapInstruction_leave {i : TapInstr} {s u : State} (h : s.rst.tap ∈ testInstrs) (hne : s.rst.tap ≠ i)
    (hu : beginReset .cold 0 (s.withTap i) = u) : tapInstruction i s = if u.inTest then linksDown u else u := by
  rw [tapInstruction_eq]
  dsimp only
  rw [if_pos (leaves h hne), hu]

/-! ### Scans -/

/-- The bits of a list, its first the lowest. -/
theorem testBit_bitsNat_reverse (l : List Bool) (k : Nat) : (bitsNat l.reverse).testBit k = l.getD k false := by
  induction l generalizing k with
  | nil => simp [bitsNat]
  | cons b l ih =>
    have hcons : bitsNat (b :: l).reverse = bitsNat l.reverse * 2 + b01 b := by simp [bitsNat, List.foldl_append]
    have hb : b01 b < 2 := by cases b <;> decide
    cases k with
    | zero =>
      rw [hcons, Nat.testBit_zero]
      cases b <;> simp [b01, Nat.add_mod]
    | succ k =>
      rw [hcons, Nat.testBit_succ, show (bitsNat l.reverse * 2 + b01 b) / 2 = bitsNat l.reverse by omega, ih]
      simp

/-- The boundary register with new cells. -/
def State.withCells (s : State) (c : BitVec 1210) : State := { s with rst := { s.rst with cells := c } }

/-- A scan raises no condition, so it leaves just what its effect leaves. -/
theorem exec_scan {tdi : List Bool} {s u : State} (h : tapScan tdi s.begin = u) (hn : NoEdge s u) :
    exec (.tapInstruction (.scan tdi)) s = .next { u with pending := s.pending } := go_of_noEdge (f := tapOp (.scan tdi)) h hn

/-- A scan of another register than the boundary register. -/
theorem exec_scan_plain (tdi : List Bool) (s : State) (h : s.rst.tap.boundary = false) :
    ∃ t, exec (.tapInstruction (.scan tdi)) s = .next t ∧ t.out = .tdo ((s.begin.captured ++ tdi).take tdi.length) :: s.out ∧
      Frame [] [] s t := by
  have heq : tapScan tdi s.begin = s.begin.emit (.tdo ((s.begin.captured ++ tdi).take tdi.length)) := by
    unfold tapScan
    dsimp only
    rw [if_neg]
    rw [State.begin, h]
    exact Bool.false_ne_true
  refine ⟨_, exec_scan heq fun _ _ h => h, rfl, ?_⟩
  exact frame_emit (frame_begin s)

theorem exec_scan_boundary (tdi : List Bool) (s : State) (h : s.rst.tap.boundary = true) (hid : s.rst.tap ≠ .idcode)
    (hlen : tdi.length = 1210) :
    ∃ t, exec (.tapInstruction (.scan tdi)) s = .next t ∧ t.rst = { s.rst with cells := BitVec.ofNat 1210 (bitsNat tdi.reverse) } ∧
      t.out = .tdo ((List.range 1210).map (Config.boundaryPins (s.cycle + 1)).getLsbD) :: s.out ∧ Frame [] [.rst] s t := by
  have hcap : s.begin.captured = (List.range 1210).map (Config.boundaryPins (s.cycle + 1)).getLsbD := by
    unfold State.captured
    rw [if_neg (show ¬s.begin.rst.tap = .idcode from hid), if_pos (show s.begin.rst.tap.boundary = true from h)]
    rfl
  have hcaplen : s.begin.captured.length = tdi.length := by rw [hcap, hlen]; simp
  have heq : tapScan tdi s.begin = (s.begin.withCells (BitVec.ofNat 1210 (bitsNat tdi.reverse))).emit (.tdo s.begin.captured) := by
    unfold tapScan
    dsimp only
    rw [if_pos (show s.begin.rst.tap.boundary = true from h), ← hcaplen, List.drop_left, List.take_left]
    rfl
  refine ⟨_, exec_scan heq fun _ _ h => h, rfl, ?_, ?_⟩
  · rw [hcap]; rfl
  · exact frame_emit (frame_set_rst (by simp) (frame_begin s))

/-! ### The rows -/

/-- What a cold reset begun from an instruction leaves at its reset value. -/
structure ColdShows (s t : State) : Prop where
  mem : t.mem = []
  tick : t.tick = {}
  log : t.log = []
  fw : t.fw = {}
  mbx : t.mbx = []
  rings : t.rings = []
  ens : t.ens = {}
  gnss : t.gnss = {}
  watch : t.watch = {}
  power : t.power = {}
  lanes : t.lanes = []
  ports : t.srv.ports = []
  flash : t.cfg.flash = s.cfg.cutOff.flash

theorem coldBegun_shows (sender : Nat) (rq : List (ResetKind × Nat × Nat)) (s : State) : ColdShows s (coldBegun sender rq s) :=
  ⟨rfl, rfl, rfl, rfl, rfl, rfl, rfl, rfl, rfl, rfl, rfl, rfl, congrArg (fun c => c.cutOff.flash) (abortFor_keeps 3 s).2⟩

theorem coldBegun_tap (sender : Nat) (rq : List (ResetKind × Nat × Nat)) (s : State) : (coldBegun sender rq s).rst.tap = s.rst.tap := by
  change (abortFor 3 s).rst.tap = s.rst.tap
  rw [(abortFor_keeps 3 s).1]

/-- Leaving a test instruction for another that takes no pins: the cold reset alone, and it counts nothing (R497). -/
theorem exec_tap_leave {op : TapOp} {i : TapInstr} {s : State}
    (hop : (op = .reset ∧ i = .idcode) ∨ ∃ b : Byte, op = .load b ∧ tapDecode b.toNat = i) (h : s.rst.tap ∈ testInstrs)
    (hne : s.rst.tap ≠ i) (hi : i ∉ testInstrs) (ha : ∀ a, s.rst.active = some a → a.1.rank < ResetKind.cold.rank) :
    ∃ t, exec (.tapInstruction op) s = .next t ∧ t.rst.active = some (.cold, 0) ∧ t.rst.stage = 0 ∧ t.rst.tap = i ∧ t.regs = [] ∧
      t.pct = [] ∧ ColdShows s t := by
  obtain ⟨rq, hrq⟩ := beginReset_cold (s := s.begin.withTap i) 0 ha
  have htap : (coldBegun 0 rq (s.begin.withTap i)).rst.tap = i := coldBegun_tap 0 rq _
  have heq : tapOp op s.begin = coldBegun 0 rq (s.begin.withTap i) := by
    rw [tapOp_of_instr hop, tapInstruction_leave (s := s.begin) h hne hrq, if_neg]
    rw [inTest_iff, htap]
    exact hi
  obtain ⟨h1, h2, h3, h4, h5, h6, h7, h8, h9, h10, h11, h12, h13⟩ := coldBegun_shows 0 rq (s.begin.withTap i)
  have hgo : go (tapOp op) s = .next { coldBegun 0 rq (s.begin.withTap i) with pending := s.pending } := by
    rw [go, heq, countEdges_of_noPct (show (coldBegun 0 rq (s.begin.withTap i)).pct = [] from rfl)]
  exact ⟨_, hgo, rfl, rfl, htap, rfl, rfl, ⟨h1, h2, h3, h4, h5, h6, h7, h8, h9, h10, h11, h12, h13⟩⟩

/-- Leaving a test instruction for another one: the cold reset, with every link held down. -/
theorem exec_tap_leave_test {op : TapOp} {i : TapInstr} {s : State}
    (hop : (op = .reset ∧ i = .idcode) ∨ ∃ b : Byte, op = .load b ∧ tapDecode b.toNat = i) (h : s.rst.tap ∈ testInstrs)
    (hne : s.rst.tap ≠ i) (hi : i ∈ testInstrs) (ha : ∀ a, s.rst.active = some a → a.1.rank < ResetKind.cold.rank) :
    ∃ t, exec (.tapInstruction op) s = .next t ∧ t.rst.active = some (.cold, 0) ∧ t.rst.tap = i ∧ (∀ p : Fin 32, t.link p.val = 0) ∧
      (∀ l : Fin 2, t.morState l.val = 0) ∧ t.tick = {} ∧ t.fw = {} := by
  obtain ⟨rq, hrq⟩ := beginReset_cold (s := s.begin.withTap i) 0 ha
  have htap : (coldBegun 0 rq (s.begin.withTap i)).rst.tap = i := coldBegun_tap 0 rq _
  have heq : tapOp op s.begin = linksDown (coldBegun 0 rq (s.begin.withTap i)) := by
    rw [tapOp_of_instr hop, tapInstruction_leave (s := s.begin) h hne hrq, if_pos]
    rw [inTest_iff, htap]
    exact hi
  have hdown := (touches_linksDown (coldBegun 0 rq (s.begin.withTap i))).1
  have hrst : (linksDown (coldBegun 0 rq (s.begin.withTap i))).rst = (coldBegun 0 rq (s.begin.withTap i)).rst := hdown .rst (by simp)
  have htick : (linksDown (coldBegun 0 rq (s.begin.withTap i))).tick = {} := hdown .tick (by simp)
  have hfw : (linksDown (coldBegun 0 rq (s.begin.withTap i))).fw = {} := hdown .fw (by simp)
  obtain ⟨t, e, k⟩ := go_ended_of heq
  refine ⟨t, e, ?_, ?_, fun p => (k.rd (side_link p.val)).trans (link_linksDown _ p),
    fun l => (k.rd (side_morState l.val)).trans (morState_linksDown _ l), k.tick.trans htick, k.fw.trans hfw⟩
  · rw [k.rst, hrst]; rfl
  · rw [k.rst, hrst, htap]

/-- A test instruction that follows none, or itself: the pins go to the boundary cells and every link is down. -/
theorem exec_tap_test {op : TapOp} {i : TapInstr} {s : State}
    (hop : (op = .reset ∧ i = .idcode) ∨ ∃ b : Byte, op = .load b ∧ tapDecode b.toNat = i) (hi : i ∈ testInstrs)
    (h : s.rst.tap ∉ testInstrs ∨ s.rst.tap = i) :
    ∃ t, exec (.tapInstruction op) s = .next t ∧ t.rst = { s.rst with tap := i } ∧ (∀ p : Fin 32, t.link p.val = 0) ∧
      (∀ l : Fin 2, t.morState l.val = 0) ∧
      (∀ o : Fin 32, t.ball o.val =
        (if s.rst.porLow = true ∨ i = .highz then none else some (t.rst.cells.getLsbD (Config.outCell o.val).val))) ∧
      Touches [.ens, .log, .srv, .rings, .stack, .rst, .regs .ens, .regs .mor, .regs .wch, .regs .mac, .regs .nts, .regs .ring] s t := by
  have heq : tapOp op s.begin = linksDown (s.begin.withTap i) := by rw [tapOp_of_instr hop, tapInstruction_test (s := s.begin) h hi]
  have hset : Touches [.rst] s (s.begin.withTap i) := touches_set_rst (by simp) (touches_begin _ s)
  have hdown := touches_linksDown (s.begin.withTap i)
  obtain ⟨t, e, k⟩ := go_ended_of heq
  have hrst : t.rst = { s.rst with tap := i } := k.rst.trans (hdown.1 .rst (by simp))
  have htest : t.inTest = true := by rw [inTest_iff, hrst]; exact hi
  refine ⟨t, e, hrst, fun p => (k.rd (side_link p.val)).trans (link_linksDown _ p),
    fun l => (k.rd (side_morState l.val)).trans (morState_linksDown _ l), fun o => ?_, k.touches ?_⟩
  · have hpins : (t.rst.porLow = true ∨ t.rst.tap = .highz) ↔ (s.rst.porLow = true ∨ i = .highz) := by rw [hrst]
    unfold State.ball
    rw [if_pos htest]
    exact if_congr hpins rfl rfl
  · exact (hset.mono (by simp)).trans (hdown.mono (by simp))

/-- Settles O53: what each instruction and each scan leaves, by where it leads from. -/
theorem tapInstructions : Obligations.TapInstructions := by
  refine ⟨fun b => rfl, fun s tdi h => ?_, fun s tdi h => ?_, fun s tdi h hlen => ?_, fun s op i hop h hi => ?_,
    fun s op i hop hi h => exec_tap_test hop hi h, fun s op i hop h hne hi ha => ?_, fun s op i hop h hne hi ha => ?_,
    fun s op i hop h hne hi hs ha => ?_⟩
  · obtain ⟨t, e, ho, hf⟩ := exec_scan_plain tdi s (by rw [h]; rfl)
    refine ⟨t, e, ho.trans ?_, hf⟩
    rw [State.captured, if_pos (show s.begin.rst.tap = .idcode from h)]
    rfl
  · have hb : s.rst.tap.boundary = false ∧ s.rst.tap ≠ .idcode := by rcases h with h | h | h <;> rw [h] <;> decide
    obtain ⟨t, e, ho, hf⟩ := exec_scan_plain tdi s hb.1
    refine ⟨t, e, ho.trans ?_, hf⟩
    rw [State.captured, if_neg (show ¬s.begin.rst.tap = .idcode from hb.2), if_neg (by rw [State.begin, hb.1]; exact Bool.false_ne_true)]
    rfl
  · have hb : s.rst.tap.boundary = true ∧ s.rst.tap ≠ .idcode := by rcases h with h | h | h | h <;> rw [h] <;> decide
    obtain ⟨t, e, hr, ho, hf⟩ := exec_scan_boundary tdi s hb.1 hb.2 hlen
    refine ⟨t, e, fun k => ?_, by rw [hr], ho, hf⟩
    rw [hr, BitVec.getLsbD_ofNat, testBit_bitsNat_reverse, decide_eq_true k.isLt, Bool.true_and]
  · obtain ⟨t, e, k⟩ := go_ended_of (s := s) (f := tapOp op) (u := s.begin.withTap i) (by
      rw [tapOp_of_instr hop]; exact tapInstruction_plain (.inl h) hi)
    exact ⟨t, e, k.rst, k.frame (frame_set_rst (by simp) (frame_begin s))⟩
  · obtain ⟨t, e, h1, h2, h3, h4, h5, k⟩ := exec_tap_leave hop h hne hi ha
    exact ⟨t, e, h1, h2, h3, h4, k.mem, k.tick, k.log, k.fw, k.mbx, k.rings, k.ens, k.gnss, k.watch, k.power, k.lanes, h5, k.ports, k.flash,
      touches_exec (i := .tapInstruction op) e⟩
  · obtain ⟨t, e, h1, h2, h3, h4, h5, h6⟩ := exec_tap_leave_test hop h hne hi ha
    exact ⟨t, e, h1, h2, h3, h4, h5, h6, touches_exec (i := .tapInstruction op) e⟩
  · have heq : tapOp op s.begin = s.begin.withTap i := by
      rw [tapOp_of_instr hop, tapInstruction_leave (s := s.begin) h hne (beginReset_cold_refused 0 hs ha), if_neg]
      rw [inTest_iff]
      exact hi
    obtain ⟨t, e, k⟩ := go_ended_of heq
    exact ⟨t, e, k.rst, k.frame (frame_set_rst (by simp) (frame_begin s))⟩

end Sys2Proof.Machine
end

section
/-! PROOFS. Four statements that take the state a command finds in the cycle before it.  A message carries the number of its cycle (R368,
`State.post`), and a command begins a cycle of its own (`State.begin`), so what a row completes on the ports first sends messages of another
cycle than `settleEnded s` does, and an event it enables sends one of the next cycle (O33, O34, O54, O55). -/

namespace Sys2Proof.Machine

/-- One host frame wholly committed on port 0, its descriptor of ring 128 still to be written back, with the ring's message not masked. -/
def frameEnded : State :=
  ({ srv := { ports := [(0, { flight := some { frame := { kind := .host 128 0 0 0 0 } } })] }, rings := [(128, { out := [{}] })] } : State).wr
    (R.MSIX_CTRL_MASK 0) 0

/-- Completed in the cycle before the command, the frame's write-back sends a message of cycle 0. -/
theorem msi_settleEnded_frameEnded : Output.msi 0 0 0 ∈ (settleEnded frameEnded).out := by decide

/-- With no counter selected, a row puts out what its effect does. -/
theorem out_of_go_frameEnded {f : State → State} {t : State} (e : go f frameEnded = .next t) : t.out = (f frameEnded.begin).out := by
  cases e
  rfl

/-- A row that sends no message of cycle 0 is not framed from the state completed in that cycle. -/
theorem not_framed_of_no_message {f : State → State} {t : State} {fs : List Field} {ps : List Part} (e : go f frameEnded = .next t)
    (hno : Output.msi 0 0 0 ∉ (f frameEnded.begin).out) : ¬Frame fs ps (settleEnded frameEnded) t := fun h =>
  hno (out_of_go_frameEnded e ▸ h.2.2.2.1.subset msi_settleEnded_frameEnded)

/-- Refutes O33: PF0's write to the page of command ring 1 completes the frame that has ended in its own cycle, so the message of the
write-back is one of cycle 1, while the state the statement frames from has put out one of cycle 0. -/
theorem not_ringControl : ¬Obligations.RingControl := by
  rintro ⟨-, -, -, hrefused, -⟩
  obtain ⟨t, e, -, hframe⟩ := hrefused frameEnded 0 257 0 (by decide)
  exact not_framed_of_no_message (f := fun s => writeRingCfg 0 257 ((R.HRG_RING_CFG_EN 257).setIn 0) (settleEnded s)) e (by decide) hframe

/-- Refutes O34: PF0's doorbell to the page of command ring 1, from the same state and for the same reason. -/
theorem not_ringTraffic : ¬Obligations.RingTraffic := by
  rintro ⟨hrefused, -⟩
  obtain ⟨t, e, -, hframe⟩ := hrefused frameEnded 0 257 0 [] (by decide)
  exact not_framed_of_no_message (f := fun s => doorbell 0 257 0 [] (settleEnded s)) e (by decide) hframe

/-- Refutes O54: PF1's read of a reserved page beyond the rings answers 0 and puts out nothing else, while the statement has it put out
what completing the frame that has ended would. -/
theorem not_hostReads : ¬Obligations.HostReads := by
  rintro ⟨-, -, -, -, -, -, -, -, -, -, -, -, hreserved, -⟩
  obtain ⟨t, e, hout, -⟩ := hreserved frameEnded 0x8102000 (by decide) (by decide)
  have hrow : t.out = [.readData 0] := out_of_go_frameEnded (f := hostRead 1 0x8102000) e
  have hmsi : Output.msi 0 0 0 ∈ t.out := hout ▸ List.mem_cons_of_mem _ msi_settleEnded_frameEnded
  rw [hrow] at hmsi
  revert hmsi
  decide

/-- A Watch event that stands, not enabled, with its vector's message not masked. -/
def watchEventStands : State := (({} : State).wr R.WCH_EVT_BITS 8).wr (R.MSIX_CTRL_MASK (64 + 49)) 0

/-- Refutes O55: enabling the Watch event that stands sends the message of the write's own cycle, 1, while the statement names the cycle
before it. -/
theorem not_hostWrites : ¬Obligations.HostWrites := by
  rintro ⟨-, henable, -⟩
  obtain ⟨t, e, hread, hmsi, -⟩ := henable watchEventStands 0x140010 8 Evt.wch Reg.WCH_EVT_EN R.WCH_EVT_EN_BITS (by decide) (by decide)
    (by decide) (by decide) (by rfl) (by decide) rfl (by decide) rfl
  have hrow : t.out = [.msi 1 49 1] := by
    cases e
    rfl
  have hsent := hmsi (by rw [hread]; decide) (by decide)
  rw [hrow] at hsent
  revert hsent
  decide

end Sys2Proof.Machine
end

section
/-! PROOFS. Reading MBX_LOCK (R404, R405, R413; O38). -/

namespace Sys2Proof.Machine

/-! ### Rows that raise no condition -/

/-- A row that touches nothing that decides a condition puts out just what its effect does. -/
theorem go_exact_running {f : State → State} {ps : List Part} {s u : State} (h : f s.begin = u) (ht : Touches ps s u)
    (hps : ∀ p ∈ Part.srv :: condParts, p ∉ ps) (hrun : u.fw.running = s.fw.running) :
    ∃ t, go f s = .next t ∧ t.out = u.out ∧ Ended s u t := by
  have hsrv : u.srv = s.srv := ht.1 .srv (hps _ (by simp))
  have hn : NoEdge s u := noEdge_of_untouched ht (fun p hp => hps p (List.mem_cons_of_mem _ hp)) hrun (.of_srv hsrv)
  obtain ⟨t, e, k⟩ := go_ended_of h
  have heq : t = { u with pending := s.pending } := by
    rw [go_of_noEdge h hn] at e
    cases e
    rfl
  exact ⟨t, e, by rw [heq], k⟩

theorem go_exact_of {f : State → State} {ps : List Part} {s u : State} (h : f s.begin = u) (ht : Touches ps s u)
    (hps : ∀ p ∈ Part.srv :: .fw :: condParts, p ∉ ps) : ∃ t, go f s = .next t ∧ t.out = u.out ∧ Ended s u t := by
  have hfw : u.fw = s.fw := ht.1 .fw (hps _ (by simp))
  refine go_exact_running h ht (fun p hp => hps p ?_) (congrArg Fw.running hfw)
  rcases List.mem_cons.1 hp with rfl | hp
  · exact List.mem_cons_self
  · exact List.mem_cons_of_mem _ (List.mem_cons_of_mem _ hp)

/-! ### A lock is taken -/

/-- The channel is LOCKED with its owner, and its hold begins. -/
def lockTo (c id : Nat) (s : State) : State := restartHold c ((s.wr (R.MBX_STAT_STATE c) 1).wr (R.MBX_STAT_OWNER c) id)

theorem side_mbxState (c : Nat) : (R.MBX_STAT_STATE c).side = false :=
  Field.side_of_low (by simp only [R.MBX_STAT_STATE, Field.mk']; omega)

theorem side_mbxOwner (c : Nat) : (R.MBX_STAT_OWNER c).side = false :=
  Field.side_of_low (by simp only [R.MBX_STAT_OWNER, Field.mk']; omega)

theorem pathId_lt (p : MbxPath) : pathId p < 256 := by cases p <;> simp only [pathId] <;> omega

theorem rd_lockTo_state (c id : Nat) (s : State) : (lockTo c id s).rd (R.MBX_STAT_STATE c) = 1 :=
  (rd_wr_ne _ _ (by simp only [R.MBX_STAT_STATE, R.MBX_STAT_OWNER, Field.mk']; omega)).trans (rd_wr_same _ _ _)

theorem rd_lockTo_owner (c : Nat) (p : MbxPath) (s : State) : (lockTo c (pathId p) s).rd (R.MBX_STAT_OWNER c) = pathId p :=
  (rd_wr_same _ _ _).trans (Nat.mod_eq_of_lt (pathId_lt p))

theorem mbox_modMbox_same (s : State) (c : Nat) (f : Mbx → Mbx) : (s.modMbox c f).mbox c = f (s.mbox c) := IMap.get_upd_same _ _ _ _

theorem lockTo_holdAt (c id : Nat) (s : State) : ((lockTo c id s).mbox c).holdAt = s.clk := by
  rw [lockTo, restartHold, mbox_modMbox_same]
  rfl

theorem frame_lockTo {fs : List Field} {ps : List Part} {s₀ s : State} {c id : Nat} (h1 : R.MBX_STAT_STATE c ∈ fs) (h2 : R.MBX_STAT_OWNER c ∈ fs)
    (hp : Part.mbx ∈ ps) (h : Frame fs ps s₀ s) : Frame fs ps s₀ (lockTo c id s) := frame_set_mbx hp (frame_wr h2 (frame_wr h1 h))

theorem touches_lockTo (c id : Nat) {s₀ s : State} (h : Touches [.mbx, .regs .mbx] s₀ s) : Touches [.mbx, .regs .mbx] s₀ (lockTo c id s) :=
  touches_set_mbx (by simp) (touches_State_wr (has_R_MBX_STAT_OWNER c) (by simp) (touches_State_wr (has_R_MBX_STAT_STATE c) (by simp) h))

/-! ### Readers -/

/-- Whether a path reaches a channel's lock. -/
def reachesLock (c : Nat) (p : MbxPath) : Prop := c < 8 ∨ reachesSecure p = true

/-- What the reads of one cycle leave, every reader reaching the lock. -/
theorem lockRead_of_reach {c : Nat} {ps : List MbxPath} {s : State} (h : ∀ p ∈ ps, reachesLock c p) :
    lockRead c ps s = match s.lowestId c ps with
      | some id => if s.mbxState c = 0 ∧ s.rxDown c = false
          then lockTo c id (ps.foldl (fun t p => lockAnswer c s (some id) p t) s)
          else ps.foldl (fun t p => lockAnswer c s (some id) p t) s
      | none => ps.foldl (fun t p => lockAnswer c s none p t) s := by
  have h1 : ps.filter (fun p => decide (c < 8) || reachesSecure p || decide (p ≠ .host 0)) = ps :=
    List.filter_eq_self.2 fun p hp => by rcases h p hp with k | k <;> simp [k]
  have h2 : ps.filter (fun p => decide (c < 8) || reachesSecure p) = ps :=
    List.filter_eq_self.2 fun p hp => by rcases h p hp with k | k <;> simp [k]
  unfold lockRead
  dsimp only
  rw [h1, h2]
  cases s.lowestId c ps <;> rfl

/-- No path that reaches a lock is the one PF0's guard stops. -/
theorem unguarded {c : Nat} {ps : List MbxPath} (h : ∀ p ∈ ps, reachesLock c p) : ¬(8 ≤ c ∧ MbxPath.host 0 ∈ ps) := fun ⟨h8, hm⟩ =>
  (h _ hm).elim (fun k => absurd h8 (not_le.2 k)) fun k => by revert k; decide

theorem lockAnswer_up {c : Nat} {old : State} {w : Option Nat} {p : MbxPath} {s : State} (hr : reachesLock c p)
    (h : old.rxDown c = false ∨ pathId p = mbxReceiver c) :
    lockAnswer c old w p s = if old.mbxOpen c (pathId p) = false then s.emit (.lockRead (pathId p) 0xFF)
      else if old.mbxState c ≠ 0 then s.emit (.lockRead (pathId p) (old.mbxOwner c))
      else s.emit (.lockRead (pathId p) (if w = some (pathId p) then 0 else w.getD 0)) := by
  have hno : ((old.rxDown c && decide (pathId p ≠ mbxReceiver c)) || (decide (8 ≤ c) && !reachesSecure p)) = false := by
    rw [Bool.or_eq_false_iff]
    refine ⟨?_, ?_⟩
    · rcases h with k | k <;> simp [k]
    · rcases hr with k | k
      · rw [decide_eq_false (not_le.2 k), Bool.false_and]
      · rw [k, Bool.not_true, Bool.and_false]
  refine (if_neg (by rw [hno]; exact Bool.false_ne_true)).trans ?_
  simp only [Bool.not_eq_true']

theorem lockAnswer_barred {c : Nat} {old : State} {w : Option Nat} {p : MbxPath} {s : State}
    (h : ((old.rxDown c && decide (pathId p ≠ mbxReceiver c)) || (decide (8 ≤ c) && !reachesSecure p)) = true) :
    lockAnswer c old w p s = reject c p (Reg.MBX_LOCK c).addr true s := if_pos h

/-- What a reader of an EMPTY channel reads: 0 where it is the winner, else the winner's ID. -/
theorem lockAnswer_race {s : State} {c w : Nat} {p : MbxPath} (hr : reachesLock c p) (hopen : s.mbxOpen c (pathId p) = true)
    (h0 : s.mbxState c = 0) (hup : s.rxDown c = false) (t : State) :
    lockAnswer c s.begin (some w) p t = t.emit (.lockRead (pathId p) (if w = pathId p then 0 else w)) := by
  rw [lockAnswer_up (old := s.begin) hr (.inl hup), if_neg (by rw [show s.begin.mbxOpen c (pathId p) = true from hopen]; decide),
    if_neg (not_not.2 (show s.begin.mbxState c = 0 from h0))]
  simp only [Option.some.injEq, Option.getD_some]

theorem lowestId_one (s : State) (c : Nat) (p : MbxPath) :
    s.lowestId c [p] = if s.mbxOpen c (pathId p) = true then some (pathId p) else none := by
  unfold State.lowestId
  by_cases h : s.mbxOpen c (pathId p) = true <;> simp [h]

theorem lowestId_two (s : State) (c : Nat) {p q : MbxPath} (hp : s.mbxOpen c (pathId p) = true) (hq : s.mbxOpen c (pathId q) = true)
    (h : pathId p < pathId q) : s.lowestId c [p, q] = some (pathId p) ∧ s.lowestId c [q, p] = some (pathId p) := by
  unfold State.lowestId
  simp [hp, hq, List.min?_cons, h.le]

/-- A sender of a channel's kind is one it takes, where it takes another (R400). -/
theorem mbxOpen_of_accepts {s : State} {c id id' : Nat} (h : s.mbxOpen c id = true) (ha : mbxAccepts c id' = true) :
    s.mbxOpen c id' = true := by
  unfold State.mbxOpen at h ⊢
  rw [Bool.and_eq_true, Bool.and_eq_true] at h ⊢
  exact ⟨⟨ha, h.1.2⟩, h.2⟩

/-! ### The row -/

/-- The effect of the row: PF0's access to a secure channel is answered first (R403). -/
def lockEffect (c : Nat) (ps : List MbxPath) (s : State) : State :=
  lockRead c ps (if 8 ≤ c ∧ MbxPath.host 0 ∈ ps then unsupported (Reg.MBX_LOCK c).addr true s else s)

theorem exec_mbxLockRead (c : Fin 16) (ps : List MbxPath) (s : State) : exec (.mbxLockRead c ps) s = go (lockEffect c.val ps) s := rfl

/-- The row of readers that all reach the lock. -/
theorem lockRow {c : Fin 16} {ps : List MbxPath} {s u : State} (hr : ∀ p ∈ ps, reachesLock c.val p) (hu : lockRead c.val ps s.begin = u)
    (ht : Touches [.mbx, .regs .mbx] s u) : ∃ t, exec (.mbxLockRead c ps) s = .next t ∧ t.out = u.out ∧ Ended s u t := by
  rw [exec_mbxLockRead]
  refine go_exact_of ?_ ht (by decide)
  rw [lockEffect, if_neg (unguarded hr), hu]

theorem emit_touches {s : State} (o : Output) : Touches [.mbx, .regs .mbx] s (s.begin.emit o) := touches_State_emit (touches_begin _ s)

/-- What a race of accepted readers leaves, given what they read. -/
theorem lockRow_taken {c : Fin 16} {ps : List MbxPath} {p : MbxPath} {s v : State} (hr : ∀ q ∈ ps, reachesLock c.val q)
    (hlow : s.lowestId c.val ps = some (pathId p)) (h0 : s.mbxState c.val = 0) (hup : s.rxDown c.val = false)
    (hv : ps.foldl (fun t q => lockAnswer c.val s.begin (some (pathId p)) q t) s.begin = v) (ht : Touches [.mbx, .regs .mbx] s v)
    (hframe : Frame [R.MBX_STAT_STATE c.val, R.MBX_STAT_OWNER c.val] [.mbx] s v) (hclk : v.clk = s.clk) :
    ∃ t, exec (.mbxLockRead c ps) s = .next t ∧ t.rd (R.MBX_STAT_STATE c.val) = 1 ∧ t.rd (R.MBX_STAT_OWNER c.val) = pathId p ∧
      t.out = v.out ∧ (t.mbox c.val).holdAt = s.clk ∧ Frame [R.MBX_STAT_STATE c.val, R.MBX_STAT_OWNER c.val] [.mbx] s t := by
  have heq : lockRead c.val ps s.begin = lockTo c.val (pathId p) v := by
    rw [lockRead_of_reach hr, show s.begin.lowestId c.val ps = some (pathId p) from hlow]
    dsimp only
    rw [if_pos (show s.begin.mbxState c.val = 0 ∧ s.begin.rxDown c.val = false from ⟨h0, hup⟩), hv]
  obtain ⟨t, e, hout, k⟩ := lockRow hr heq (touches_lockTo _ _ ht)
  refine ⟨t, e, (k.rd (side_mbxState _)).trans (rd_lockTo_state _ _ _), (k.rd (side_mbxOwner _)).trans (rd_lockTo_owner _ _ _), hout, ?_,
    k.frame (frame_lockTo (by simp) (by simp) (by simp) hframe)⟩
  rw [State.mbox, k.mbx]
  exact (lockTo_holdAt _ _ _).trans hclk

/-- What a reader reads that takes no lock. -/
theorem lockRow_read {c : Fin 16} {p : MbxPath} {s : State} {v : Nat} (hr : reachesLock c.val p)
    (hno : ¬(s.mbxOpen c.val (pathId p) = true ∧ s.mbxState c.val = 0 ∧ s.rxDown c.val = false))
    (hv : ∀ w, lockAnswer c.val s.begin w p s.begin = s.begin.emit (.lockRead (pathId p) v)) :
    ∃ t, exec (.mbxLockRead c [p]) s = .next t ∧ t.out = .lockRead (pathId p) v :: s.out ∧ Frame [] [] s t := by
  have hreach : ∀ q ∈ [p], reachesLock c.val q := by simpa using hr
  have heq : lockRead c.val [p] s.begin = s.begin.emit (.lockRead (pathId p) v) := by
    rw [lockRead_of_reach hreach, lowestId_one]
    by_cases hopen : s.begin.mbxOpen c.val (pathId p) = true
    · rw [if_pos hopen]
      dsimp only
      rw [if_neg (fun h : s.begin.mbxState c.val = 0 ∧ s.begin.rxDown c.val = false => hno ⟨hopen, h⟩)]
      exact hv _
    · rw [if_neg hopen]
      exact hv _
  obtain ⟨t, e, hout, k⟩ := lockRow hreach heq (emit_touches _)
  exact ⟨t, e, hout, k.frame (frame_emit (frame_begin s))⟩

/-! ### Rejected accesses (R403, R409) -/

theorem side_mbxReject (c : Nat) : (R.MBX_STAT_REJECT c).side = false :=
  Field.side_of_low (by simp only [R.MBX_STAT_REJECT, Field.mk']; omega)

theorem side_mbxEvt (c : Nat) : (Evt.mbx c).ev.side = false :=
  Field.side_of_low (by simp only [Evt.mbx, R.MBX_EVT_BITS, Field.mk']; omega)

theorem bit_two_pow (n : Nat) : bit (2 ^ n) n = true := by simp [bit_eq_testBit]

theorem rd_mbxEvent_ne (c kind : Nat) (s : State) {g : Field} (hg : g.side = false) (hk : g.key ≠ (Evt.mbx (c / 8)).ev.key) :
    (mbxEvent c kind s).rd g = s.rd g := rd_raise_ne _ _ _ hk hg

/-- The bit of a channel and a kind stands. -/
theorem bit_mbxEvent (c : Nat) {kind : Nat} (hk : kind < 4) (s : State) :
    bit ((mbxEvent c kind s).rd (R.MBX_EVT_BITS (c / 8))) (8 * kind + c % 8) = true := by
  refine bit_raise (e := Evt.mbx (c / 8)) (side_mbxEvt _) ?_ (bit_two_pow _)
  simp only [Evt.mbx, R.MBX_EVT_BITS, Field.mk']; omega

/-- REJECT and its event stand. -/
def rejectNoted (c : Nat) (s : State) : State := (mbxEvent c 2 (s.hi (R.MBX_STAT_REJECT c))).count 0x021 c 1

/-- The error response of a path, and what it reads. -/
def pathAnswer (p : MbxPath) (addr : Nat) (read : Bool) (s : State) : State :=
  let s := match p with
    | .host f => s.emit (.aer f.val addr read)
    | _ => s.emit (.pathError (pathId p) read)
  if read then s.emit (.lockRead (pathId p) 0xFFFFFFFF) else s

/-- Whether a rejected access is recorded. -/
def rejectLogged (c : Nat) (p : MbxPath) : Bool := decide (8 ≤ c) && (!reachesSecure p || (decide (12 ≤ c) && decide (pathId p = 2)))

theorem reject_eq (c : Nat) (p : MbxPath) (addr : Nat) (read : Bool) (s : State) :
    reject c p addr read s = pathAnswer p addr read (if rejectLogged c p = true
      then (rejectNoted c s).logRec 0x0E01 c (pathId p) (le 4 (addr - (0x100000 + c * 0x80))) else rejectNoted c s) := rfl

theorem rd_pathAnswer (p : MbxPath) (addr : Nat) (read : Bool) (s : State) (f : Field) : (pathAnswer p addr read s).rd f = s.rd f := by
  cases p <;> cases read <;> rfl

theorem pathAnswer_log (p : MbxPath) (addr : Nat) (read : Bool) (s : State) : (pathAnswer p addr read s).log = s.log := by
  cases p <;> cases read <;> rfl

theorem frame_pathAnswer {fs : List Field} {ps : List Part} {s₀ s : State} {p : MbxPath} {addr : Nat} {read : Bool} (h : Frame fs ps s₀ s) :
    Frame fs ps s₀ (pathAnswer p addr read s) := by
  have hone : Frame fs ps s₀ (match p with
      | .host f => s.emit (.aer f.val addr read)
      | _ => s.emit (.pathError (pathId p) read)) := by cases p <;> exact frame_emit h
  exact frame_ite (frame_emit hone) hone

theorem frame_rejectNoted {fs : List Field} {ps : List Part} {s₀ s : State} {c : Nat} (h1 : R.MBX_STAT_REJECT c ∈ fs)
    (h2 : (Evt.mbx (c / 8)).ev ∈ fs) (h : Frame fs ps s₀ s) : Frame fs ps s₀ (rejectNoted c s) :=
  frame_count (frame_raise h2 (frame_hi h1 h))

theorem rd_rejectNoted_reject (c : Nat) (s : State) : (rejectNoted c s).rd (R.MBX_STAT_REJECT c) = 1 := by
  refine (rd_count _ _ _ _ (side_mbxReject c)).trans ((rd_mbxEvent_ne _ _ _ (side_mbxReject c) ?_).trans (rd_wr_same _ _ _))
  simp only [R.MBX_STAT_REJECT, Evt.mbx, R.MBX_EVT_BITS, Field.mk']; omega

theorem bit_rejectNoted (c : Nat) (s : State) : bit ((rejectNoted c s).rd (R.MBX_EVT_BITS (c / 8))) (16 + c % 8) = true := by
  have hrd : (rejectNoted c s).rd (R.MBX_EVT_BITS (c / 8)) = (mbxEvent c 2 (s.hi (R.MBX_STAT_REJECT c))).rd (R.MBX_EVT_BITS (c / 8)) :=
    rd_count _ _ _ _ (side_mbxEvt _)
  rw [hrd]
  exact bit_mbxEvent c (by decide) _

/-- What a rejected access of a path to a channel shows, from `s` to `t`. -/
structure Rejected (c : Nat) (p : MbxPath) (addr : Nat) (read : Bool) (s t : State) : Prop where
  noted : t.rd (R.MBX_STAT_REJECT c) = 1
  event : bit (t.rd (R.MBX_EVT_BITS (c / 8))) (16 + c % 8) = true
  aer : ∀ fn : Fin 2, p = .host fn → Output.aer fn.val addr read ∈ t.out
  path : (∀ fn : Fin 2, p ≠ .host fn) → Output.pathError (pathId p) read ∈ t.out
  head : read = true → t.out.head? = some (.lockRead (pathId p) 0xFFFFFFFF)
  record : rejectLogged c p = true → t.rd R.LOG_NEXT_SEQ = (s.rd R.LOG_NEXT_SEQ + 1) % 2 ^ 32 ∧
    IMap.get {} t.log (s.rd R.LOG_NEXT_SEQ % logSize) = { seq := s.rd R.LOG_NEXT_SEQ, time := s.ts0, event := 0x0E01, unit := c, sender := pathId p, data := le 4 (addr - (0x100000 + c * 0x80)) }
  quiet : rejectLogged c p = false → Frame [R.MBX_STAT_REJECT c, R.MBX_EVT_BITS (c / 8)] [] s t
  frame : Frame ([R.MBX_STAT_REJECT c, R.MBX_EVT_BITS (c / 8)] ++ logFields) [.log] s t
  state : t.mbxState c = s.mbxState c

/-- A field outside the log's own is not moved by the record of a rejected access. -/
theorem rd_reject_ne (c : Nat) (p : MbxPath) (addr : Nat) (read : Bool) (s : State) {g : Field} (hg : g.side = false)
    (hk : ∀ f ∈ logFields, g.key ≠ f.key) : (reject c p addr read s).rd g = (rejectNoted c s).rd g := by
  rw [reject_eq, rd_pathAnswer]
  split
  · exact rd_logRec_ne _ _ _ _ _ (hk _ (by simp [logFields])) (hk _ (by simp [logFields])) (hk _ (by simp [logFields]))
      (hk _ (by simp [logFields])) hg
  · rfl

/-- No field of a channel or of the mailbox events is one of the log's. -/
theorem key_ne_log {g : Field} (h : 0x2000000 ≤ g.key) (h' : g.key < 0x2040000) : ∀ f ∈ logFields, g.key ≠ f.key := by
  intro f hf
  simp only [logFields, List.mem_cons, List.not_mem_nil, or_false] at hf
  rcases hf with rfl | rfl | rfl | rfl <;>
    simp only [R.LOG_NEXT_SEQ, R.LOG_FIRST_SEQ, R.LOG_WRAPS_WRAPS, R.WCH_EVT_BITS, Field.mk'] <;> omega

theorem pathAnswer_outputs (p : MbxPath) (addr : Nat) (read : Bool) (s : State) :
    (∀ fn : Fin 2, p = .host fn → Output.aer fn.val addr read ∈ (pathAnswer p addr read s).out) ∧
      ((∀ fn : Fin 2, p ≠ .host fn) → Output.pathError (pathId p) read ∈ (pathAnswer p addr read s).out) ∧
      (read = true → (pathAnswer p addr read s).out.head? = some (.lockRead (pathId p) 0xFFFFFFFF)) := by
  refine ⟨?_, fun hp => ?_, ?_⟩
  · rintro fn rfl
    cases read
    · exact List.mem_cons_self
    · exact List.mem_cons_of_mem _ List.mem_cons_self
  · cases p with
    | host fn => exact absurd rfl (hp fn)
    | _ =>
      cases read
      · exact List.mem_cons_self
      · exact List.mem_cons_of_mem _ List.mem_cons_self
  · rintro rfl
    cases p <;> rfl

/-- A row that rejects its access. -/
theorem rejected_of_go {f : State → State} {c : Nat} {p : MbxPath} {addr : Nat} {read : Bool} {s : State}
    (h : f s.begin = reject c p addr read s.begin) : ∃ t, go f s = .next t ∧ Rejected c p addr read s t := by
  have ht : Touches [.log, .regs .mbx, .regs .wch] s (reject c p addr read s.begin) :=
    touches_reject _ _ _ _ _ (by simp) (by simp) (by simp) (touches_begin _ s)
  obtain ⟨t, e, hout, k⟩ := go_exact_of h ht (by decide)
  obtain ⟨h1, h2, h3⟩ := pathAnswer_outputs p addr read (if rejectLogged c p = true
    then (rejectNoted c s.begin).logRec 0x0E01 c (pathId p) (le 4 (addr - (0x100000 + c * 0x80))) else rejectNoted c s.begin)
  rw [← reject_eq, ← hout] at h1 h2 h3
  have hnoted : Frame [R.MBX_STAT_REJECT c, R.MBX_EVT_BITS (c / 8)] [] s (rejectNoted c s.begin) :=
    frame_rejectNoted (by simp) (by simp [Evt.mbx]) (frame_begin s)
  have hkeep : ∀ g : Field, g.side = false → g.key ≠ (R.MBX_STAT_REJECT c).key → g.key ≠ (R.MBX_EVT_BITS (c / 8)).key →
      (rejectNoted c s.begin).rd g = s.rd g := fun g hg ha hb =>
    hnoted.rd (fun f hf => by rcases List.mem_pair.1 hf with rfl | rfl <;> assumption) hg
  refine ⟨t, e, ?_, ?_, h1, h2, h3, fun hlog => ?_, fun hlog => ?_, ?_, ?_⟩
  · refine (k.rd (side_mbxReject c)).trans ((rd_reject_ne _ _ _ _ _ (side_mbxReject c) (key_ne_log ?_ ?_)).trans (rd_rejectNoted_reject _ _)) <;>
      simp only [R.MBX_STAT_REJECT, Field.mk'] <;> omega
  · have hevt : t.rd (R.MBX_EVT_BITS (c / 8)) = (rejectNoted c s.begin).rd (R.MBX_EVT_BITS (c / 8)) := by
      refine (k.rd (side_mbxEvt _)).trans (rd_reject_ne (g := R.MBX_EVT_BITS (c / 8)) _ _ _ _ _ (side_mbxEvt _) (key_ne_log ?_ ?_)) <;>
        simp only [R.MBX_EVT_BITS, Field.mk'] <;> omega
    rw [hevt]
    exact bit_rejectNoted _ _
  · rw [reject_eq, if_pos hlog] at k
    have hseq : (rejectNoted c s.begin).rd R.LOG_NEXT_SEQ = s.rd R.LOG_NEXT_SEQ := by
      refine hkeep _ (by decide) ?_ ?_ <;> simp only [R.LOG_NEXT_SEQ, R.MBX_STAT_REJECT, R.MBX_EVT_BITS, Field.mk'] <;> omega
    have hts : (rejectNoted c s.begin).ts0 = s.ts0 := by
      have htick : (rejectNoted c s.begin).tick = s.tick := hnoted.2.1 .tick (by simp) rfl
      rw [State.ts0, State.ts0, htick]
    have hrec := logRec_record (rejectNoted c s.begin) 0x0E01 c (pathId p) (le 4 (addr - (0x100000 + c * 0x80)))
    rw [hseq, hts] at hrec
    exact ⟨(k.rd (by decide)).trans ((rd_pathAnswer _ _ _ _ _).trans ((rd_logRec_next _ _ _ _ _).trans (by rw [hseq]))),
      by rw [k.log, pathAnswer_log, hrec]⟩
  · rw [reject_eq, hlog, if_neg Bool.false_ne_true] at k
    exact k.frame (frame_pathAnswer hnoted)
  · rw [reject_eq] at k
    have hwide := hnoted.mono (gs := [R.MBX_STAT_REJECT c, R.MBX_EVT_BITS (c / 8)] ++ logFields) (qs := [.log])
      (fun f hf => List.mem_append_left _ hf) (fun p hp => absurd hp List.not_mem_nil)
    exact k.frame (frame_pathAnswer (frame_ite (frame_logRec (fun f hf => List.mem_append_right _ hf) (by simp) hwide) hwide))
  · refine (k.rd (side_mbxState c)).trans ((rd_reject_ne _ _ _ _ _ (side_mbxState c) (key_ne_log ?_ ?_)).trans (hkeep _ (side_mbxState c) ?_ ?_)) <;>
      simp only [R.MBX_STAT_STATE, R.MBX_STAT_REJECT, R.MBX_EVT_BITS, Field.mk'] <;> omega

/-- A read of one barred reader. -/
theorem lockRow_barred {c : Fin 16} {p : MbxPath} {s : State} (hguard : c.val < 8 ∨ p ≠ .host 0)
    (hbar : ((s.rxDown c.val && decide (pathId p ≠ mbxReceiver c.val)) || (decide (8 ≤ c.val) && !reachesSecure p)) = true) :
    ∃ t, exec (.mbxLockRead c [p]) s = .next t ∧ Rejected c.val p (Reg.MBX_LOCK c.val).addr true s t := by
  have hkeep : (decide (c.val < 8) || reachesSecure p || decide (p ≠ .host 0)) = true := by rcases hguard with k | k <;> simp [k]
  have hanswer : ∀ w, lockAnswer c.val s.begin w p s.begin = reject c.val p (Reg.MBX_LOCK c.val).addr true s.begin := fun _ =>
    lockAnswer_barred hbar
  have hbar' : s.begin.rxDown c.val = false → decide (8 ≤ c.val) = true ∧ reachesSecure p = false := by
    intro hup
    rw [show s.rxDown c.val = false from hup, Bool.false_and, Bool.false_or, Bool.and_eq_true, Bool.not_eq_true'] at hbar
    exact hbar
  have heq : lockRead c.val [p] s.begin = reject c.val p (Reg.MBX_LOCK c.val).addr true s.begin := by
    have hall : [p].filter (fun p => decide (c.val < 8) || reachesSecure p || decide (p ≠ .host 0)) = [p] := by
      rw [List.filter_cons, if_pos hkeep, List.filter_nil]
    unfold lockRead
    dsimp only
    rw [hall, List.foldl_cons, List.foldl_nil, hanswer]
    split
    · next id hid =>
      refine if_neg fun ⟨_, hup⟩ => ?_
      obtain ⟨h8, hsec⟩ := hbar' hup
      have hfilter : ¬(decide (c.val < 8) || reachesSecure p) = true := by
        rw [hsec, decide_eq_false (not_lt.2 (of_decide_eq_true h8))]; decide
      rw [List.filter_cons, if_neg hfilter] at hid
      cases hid
    · rfl
  rw [exec_mbxLockRead]
  refine rejected_of_go ?_
  rw [lockEffect, if_neg, heq]
  rintro ⟨h8, hm⟩
  rw [List.mem_singleton] at hm
  exact hguard.elim (fun k => absurd h8 (not_le.2 k)) fun k => k hm.symm

theorem lockAddr (c : Fin 16) : (Reg.MBX_LOCK c.val).addr = 0x100000 + c.val * 0x80 + 0x44 := by
  revert c
  decide

/-- Settles O38: a race's winner, what each other reader reads, and the rejected reads. -/
theorem mailboxLocks : Obligations.MailboxLocks := by
  have hone : ∀ {c : Nat} {p : MbxPath}, reachesLock c p → ∀ q ∈ [p], reachesLock c q := by
    intro c p h q hq
    rwa [List.mem_singleton.1 hq]
  have htwo : ∀ {c : Nat} {p q : MbxPath}, (c < 8 ∨ reachesSecure p = true ∧ reachesSecure q = true) → reachesLock c p ∧ reachesLock c q :=
    fun h => ⟨h.imp id fun k => k.1, h.imp id fun k => k.2⟩
  have hboth : ∀ {s : State} {c : Nat} {p q : MbxPath}, s.mbxOpen c (pathId p) = true → mbxAccepts c (pathId q) = true →
      reachesLock c p → reachesLock c q → pathId p < pathId q → s.mbxState c = 0 → s.rxDown c = false →
      [p, q].foldl (fun t x => lockAnswer c s.begin (some (pathId p)) x t) s.begin =
          (s.begin.emit (.lockRead (pathId p) 0)).emit (.lockRead (pathId q) (pathId p)) ∧
        [q, p].foldl (fun t x => lockAnswer c s.begin (some (pathId p)) x t) s.begin =
          (s.begin.emit (.lockRead (pathId q) (pathId p))).emit (.lockRead (pathId p) 0) := by
    intro s c p q hopen hq hrp hrq hlt h0 hup
    have hwin := lockAnswer_race (w := pathId p) hrp hopen h0 hup
    have hlose := lockAnswer_race (w := pathId p) hrq (mbxOpen_of_accepts hopen hq) h0 hup
    rw [if_pos rfl] at hwin
    rw [if_neg hlt.ne] at hlose
    exact ⟨by rw [List.foldl_cons, List.foldl_cons, List.foldl_nil, hwin, hlose],
      by rw [List.foldl_cons, List.foldl_cons, List.foldl_nil, hlose, hwin]⟩
  refine ⟨fun s c p hopen hr h0 hup => ?_, fun s c p q hopen hq hr hlt h0 hup => ?_, fun s c p q hopen hq hr hlt h0 hup => ?_,
    fun s c p hopen hr h0 hup => ?_, fun s c p hopen hr hup => ?_, ?_,
    fun s c p hd hp hguard hlog => ?_, fun s c h8 => ?_⟩
  · obtain ⟨t, e, h1, h2, h3, h4, h5⟩ := lockRow_taken (hone hr) ((lowestId_one s c.val p).trans (if_pos hopen)) h0 hup
      ((lockAnswer_race hr hopen h0 hup _).trans (by rw [if_pos rfl])) (emit_touches _) (frame_emit (frame_begin s)) rfl
    exact ⟨t, e, h1, h2, h3, h4, h5⟩
  · obtain ⟨hrp, hrq⟩ := htwo hr
    obtain ⟨t, e, h1, h2, h3, h4, h5⟩ := lockRow_taken (ps := [p, q]) (by simp [hrp, hrq])
      (lowestId_two s c.val hopen (mbxOpen_of_accepts hopen hq) hlt).1 h0 hup (hboth hopen hq hrp hrq hlt h0 hup).1
      (touches_State_emit (emit_touches _)) (frame_emit (frame_emit (frame_begin s))) rfl
    exact ⟨t, e, h1, h2, h3, h5⟩
  · obtain ⟨hrp, hrq⟩ := htwo hr
    obtain ⟨t, e, h1, h2, h3, h4, h5⟩ := lockRow_taken (ps := [q, p]) (by simp [hrp, hrq])
      (lowestId_two s c.val hopen (mbxOpen_of_accepts hopen hq) hlt).2 h0 hup (hboth hopen hq hrp hrq hlt h0 hup).2
      (touches_State_emit (emit_touches _)) (frame_emit (frame_emit (frame_begin s))) rfl
    exact ⟨t, e, h1, h2, h3, h5⟩
  · refine lockRow_read hr (fun h => h0 h.2.1) fun w => ?_
    rw [lockAnswer_up (old := s.begin) hr (.inl hup), if_neg (by rw [show s.begin.mbxOpen c.val (pathId p) = true from hopen]; decide), if_pos (show s.begin.mbxState c.val ≠ 0 from h0)]
    rfl
  · refine lockRow_read hr (fun h => by rw [hopen] at h; cases h.1) fun w => ?_
    rw [lockAnswer_up (old := s.begin) hr hup, if_pos (show s.begin.mbxOpen c.val (pathId p) = false from hopen)]
  · intro s c p a hdown hp hguard hlog
    have hbar : ((s.rxDown c.val && decide (pathId p ≠ mbxReceiver c.val)) || (decide (8 ≤ c.val) && !reachesSecure p)) = true := by
      simp [hdown, hp]
    have hquiet : rejectLogged c.val p = false := by
      rcases hlog with k | ⟨k, k'⟩
      · simp only [rejectLogged, decide_eq_false (not_le.2 k), Bool.false_and]
      · rcases k' with k' | k' <;> simp [rejectLogged, k, k']
    obtain ⟨t, e, k⟩ := lockRow_barred hguard hbar
    rw [lockAddr] at k
    exact ⟨t, e, k.noted, k.event, List.mem_of_mem_head? (k.head rfl), k.aer, k.quiet hquiet⟩
  · have hlogged : rejectLogged c.val p = true := by
      rcases hlog.2 with k | ⟨k, k'⟩ <;> simp [rejectLogged, *]
    have hbar : ((s.rxDown c.val && decide (pathId p ≠ mbxReceiver c.val)) || (decide (8 ≤ c.val) && !reachesSecure p)) = true := by
      rcases hp with h | h
      · rcases hd with k | k
        · simp [k, h]
        · simp [k, hlog.1]
      · simp [h, hlog.1]
    have hoffset : (Reg.MBX_LOCK c.val).addr - (0x100000 + c.val * 0x80) = 0x44 := by rw [lockAddr]; omega
    obtain ⟨t, e, k⟩ := lockRow_barred hguard hbar
    obtain ⟨hnext, hrec⟩ := k.record hlogged
    rw [hoffset] at hrec
    exact ⟨t, e, k.noted, k.event, List.mem_of_mem_head? (k.head rfl), hnext, hrec, k.frame⟩
  · have heq : lockRead c.val [.host 0] (unsupported (Reg.MBX_LOCK c.val).addr true s.begin) =
        unsupported (Reg.MBX_LOCK c.val).addr true s.begin := by
      have hnone : [MbxPath.host 0].filter (fun p => decide (c.val < 8) || reachesSecure p || decide (p ≠ .host 0)) = [] := by
        rw [List.filter_cons, if_neg, List.filter_nil]
        rw [decide_eq_false (not_lt.2 h8)]
        decide
      unfold lockRead
      dsimp only
      rw [hnone]
      rfl
    have haddr : (Reg.MBX_LOCK c.val).addr = 0x100044 + c.val * 0x80 := by rw [lockAddr]; omega
    have hrow : lockEffect c.val [.host 0] s.begin =
        (s.begin.emit (.aer 0 (0x100044 + c.val * 0x80) false)).emit (.readData 0xFFFFFFFF) := by
      rw [lockEffect, if_pos ⟨h8, List.mem_singleton_self _⟩, heq, haddr]
      rfl
    rw [exec_mbxLockRead]
    obtain ⟨t, e, hout, k⟩ := go_exact_of (ps := []) hrow (touches_State_emit (touches_State_emit (touches_begin _ s))) (by decide)
    exact ⟨t, e, hout, k.frame (frame_emit (frame_emit (frame_begin s)))⟩

end Sys2Proof.Machine
end

section
/-! PROOFS. The mailbox operations, one rule each: a channel emptied, a message or a reply in place, the relay agent (R401, R406-R410). -/

namespace Sys2Proof.Machine

variable {fs : List Field} {ps : List Part} {s₀ s : State}

theorem frame_modMbox {c : Nat} {f : Mbx → Mbx} (hm : Part.mbx ∈ ps) (h : Frame fs ps s₀ s) : Frame fs ps s₀ (s.modMbox c f) := frame_set_mbx hm h

theorem frame_mbxEvent {c kind : Nat} (hf : R.MBX_EVT_BITS (c / 8) ∈ fs) (h : Frame fs ps s₀ s) : Frame fs ps s₀ (mbxEvent c kind s) :=
  frame_raise (e := Evt.mbx (c / 8)) hf h

theorem side_mbxData (k : Nat) : (R.MBX_DATA_DATA k).side = false :=
  Field.side_of_low (by simp only [R.MBX_DATA_DATA, Field.mk']; omega)

theorem side_mbxOrphan (c : Nat) : (R.MBX_STAT_ORPHAN c).side = false :=
  Field.side_of_low (by simp only [R.MBX_STAT_ORPHAN, Field.mk']; omega)

/-- The data words of a channel, as fields. -/
abbrev wordFields (c : Nat) : List Field := mbxWords.map fun k => R.MBX_DATA_DATA (c * 16 + k)

theorem mem_wordFields {c k : Nat} (h : k < 16) : R.MBX_DATA_DATA (c * 16 + k) ∈ wordFields c :=
  List.mem_map.2 ⟨k, List.mem_range.2 h, rfl⟩

theorem mbox_congr {t u : State} (c : Nat) (h : t.mbx = u.mbx) : t.mbox c = u.mbox c := by rw [State.mbox, State.mbox, h]

theorem clk_congr {t u : State} (h : t.tick = u.tick) : t.clk = u.clk := by rw [State.clk, State.clk, h]

/-! ### EMPTY (R408) -/

/-- What becoming EMPTY writes. -/
abbrev emptyFields (c : Nat) : List Field := [R.MBX_STAT_STATE c, R.MBX_STAT_OWNER c, R.MBX_STAT_ORPHAN c] ++ wordFields c

theorem frame_mbxEmpty {c : Nat} (hf : ∀ f ∈ emptyFields c, f ∈ fs) (hm : Part.mbx ∈ ps) (hw : Part.fw ∈ ps) (h : Frame fs ps s₀ s) :
    Frame fs ps s₀ (mbxEmpty c s) := by
  have hwords : Frame fs ps s₀ (mbxWords.foldl (fun s k => s.lo (R.MBX_DATA_DATA (c * 16 + k))) s) :=
    frame_foldl h fun _ k hk h => frame_lo (hf _ (List.mem_append_right _ (mem_wordFields (List.mem_range.1 hk)))) h
  exact frame_modMbox hm (frame_set_fw hw (frame_lo (hf _ (by simp)) (frame_lo (hf _ (by simp)) (frame_lo (hf _ (by simp)) hwords))))

theorem rd_mbxEmpty_state (c : Nat) (s : State) : (mbxEmpty c s).rd (R.MBX_STAT_STATE c) = 0 := by
  rw [rd_mbxEmpty]
  refine (rd_lo_ne _ ?_).trans ((rd_lo_ne _ ?_).trans (rd_lo_same _ _)) <;>
    simp only [R.MBX_STAT_STATE, R.MBX_STAT_ORPHAN, R.MBX_STAT_OWNER, Field.mk'] <;> omega

theorem rd_mbxEmpty_owner (c : Nat) (s : State) : (mbxEmpty c s).rd (R.MBX_STAT_OWNER c) = 0 := by
  rw [rd_mbxEmpty]
  refine (rd_lo_ne _ ?_).trans (rd_lo_same _ _)
  simp only [R.MBX_STAT_ORPHAN, R.MBX_STAT_OWNER, Field.mk']; omega

theorem rd_mbxEmpty_orphan (c : Nat) (s : State) : (mbxEmpty c s).rd (R.MBX_STAT_ORPHAN c) = 0 := by
  rw [rd_mbxEmpty]
  exact rd_lo_same _ _

theorem rd_mbxEmpty_data (c : Nat) (s : State) (k : Fin 16) : (mbxEmpty c s).rd (R.MBX_DATA_DATA (c * 16 + k.val)) = 0 := by
  rw [rd_mbxEmpty]
  refine (rd_lo_ne _ ?_).trans ((rd_lo_ne _ ?_).trans ((rd_lo_ne _ ?_).trans
    (rd_clearWords c mbxWords s k.val (.inl (List.mem_range.2 k.isLt))))) <;>
    simp only [R.MBX_DATA_DATA, R.MBX_STAT_STATE, R.MBX_STAT_ORPHAN, R.MBX_STAT_OWNER, Field.mk'] <;> omega

theorem mbxEmpty_fw (c : Nat) (s : State) : (mbxEmpty c s).fw = { s.fw with posted := IMap.put [] s.fw.posted c [] } := by
  have hfold : ∀ (l : List Nat) (s : State), (l.foldl (fun s k => s.lo (R.MBX_DATA_DATA (c * 16 + k))) s).fw = s.fw := by
    intro l
    induction l with
    | nil => exact fun _ => rfl
    | cons k l ih => exact fun s => ih _
  exact congrArg (fun w : Fw => { w with posted := IMap.put [] w.posted c [] }) (hfold mbxWords s)

/-- A channel that reads as EMPTY. -/
structure IsEmpty (c : Nat) (t : State) : Prop where
  state : t.rd (R.MBX_STAT_STATE c) = 0
  owner : t.rd (R.MBX_STAT_OWNER c) = 0
  orphan : t.rd (R.MBX_STAT_ORPHAN c) = 0
  data : ∀ k : Fin 16, t.rd (R.MBX_DATA_DATA (c * 16 + k.val)) = 0

theorem isEmpty_mbxEmpty (c : Nat) (s : State) : IsEmpty c (mbxEmpty c s) :=
  ⟨rd_mbxEmpty_state c s, rd_mbxEmpty_owner c s, rd_mbxEmpty_orphan c s, rd_mbxEmpty_data c s⟩

/-- A channel stays EMPTY where none of those fields moves. -/
theorem IsEmpty.of_rd {c : Nat} {t u : State} (h : IsEmpty c t) (hrd : ∀ g ∈ emptyFields c, u.rd g = t.rd g) : IsEmpty c u :=
  ⟨(hrd _ (by simp)).trans h.state, (hrd _ (by simp)).trans h.owner, (hrd _ (by simp)).trans h.orphan,
    fun k => (hrd _ (List.mem_append_right _ (mem_wordFields k.isLt))).trans (h.data k)⟩

/-- The fields of a channel lie between these bits. -/
theorem emptyFields_range {c : Nat} {g : Field} (h : g ∈ emptyFields c) : 0x2000000 ≤ g.key ∧ g.key < 0x2010000 := by
  rcases List.mem_append.1 h with h | h
  · simp only [List.mem_cons, List.not_mem_nil, or_false] at h
    rcases h with rfl | rfl | rfl <;> simp only [R.MBX_STAT_STATE, R.MBX_STAT_OWNER, R.MBX_STAT_ORPHAN, Field.mk'] <;> omega
  · obtain ⟨k, -, rfl⟩ := List.mem_map.1 h
    simp only [R.MBX_DATA_DATA, Field.mk']; omega

theorem emptyFields_side {c : Nat} {g : Field} (h : g ∈ emptyFields c) : g.side = false :=
  Field.side_of_low (lt_trans (emptyFields_range h).2 (by decide))

theorem IsEmpty.ended {c : Nat} {s u t : State} (h : IsEmpty c u) (k : Ended s u t) : IsEmpty c t :=
  h.of_rd fun _ hg => k.rd (emptyFields_side hg)

theorem IsEmpty.mbxEvent {c : Nat} (d kind : Nat) (h : IsEmpty c s) : IsEmpty c (mbxEvent d kind s) :=
  h.of_rd fun g hg => rd_mbxEvent_ne _ _ _ (emptyFields_side hg) (by
    have := emptyFields_range hg
    simp only [Evt.mbx, R.MBX_EVT_BITS, Field.mk']; omega)

/-! ### FULL (R401, R407) -/

/-- What a message in place writes. -/
abbrev fullFields (c : Nat) : List Field :=
  [R.MBX_STAT_STATE c, R.MBX_STAT_LAST_SENDER c, R.MBX_DATA_DATA (c * 16 + 1), R.MBX_EVT_BITS (c / 8)]

/-- A message in place, before its event and the firmware's queue. -/
def fullBase (c id : Nat) (s : State) : State := ((stamp c id s).wr (R.MBX_STAT_STATE c) 2).wr (R.MBX_STAT_LAST_SENDER c) id

/-- The command that the firmware's queue takes. -/
def fullCmd (c id : Nat) (s : State) : Cmd := { path := .mbx c, sender := id, sec := s.on R.MOR_RELAY_CFG_RELAY_SEC }

/-- A message in place with its event. -/
def fullTold (c id : Nat) (s : State) : State :=
  if mbxReceiver c = classHost c then mbxEvent c 0 ((fullBase c id s).count 0x020 c 1) else (fullBase c id s).count 0x020 c 1

theorem goFull_eq (c id : Nat) (s : State) : goFull c id s =
    if mbxReceiver c = 3 then { fullTold c id s with fw := { (fullTold c id s).fw with queue := (fullTold c id s).fw.queue ++ [fullCmd c id (fullTold c id s)] } }
    else fullTold c id s := rfl

theorem touches_fullTold (c id : Nat) (s : State) : Touches [.regs .mbx] s (fullTold c id s) := by
  have hbase : Touches [.regs .mbx] s ((fullBase c id s).count 0x020 c 1) :=
    touches_State_count _ _ _ _ (touches_State_wr (has_R_MBX_STAT_LAST_SENDER c) (by simp)
      (touches_State_wr (has_R_MBX_STAT_STATE c) (by simp) (touches_stamp c id s (by simp) (Touches.refl _ s))))
  exact touches_ite (touches_mbxEvent c 0 _ (by simp) hbase) hbase

theorem fullCmd_told (c id : Nat) (s : State) : fullCmd c id (fullTold c id s) = fullCmd c id s := by
  have hrd : (fullTold c id s).rd R.MOR_RELAY_CFG_RELAY_SEC = s.rd R.MOR_RELAY_CFG_RELAY_SEC :=
    (touches_fullTold c id s).rd (b := .mor) (by simp) (by decide) (by decide)
  rw [fullCmd, fullCmd, State.on, State.on, hrd]

theorem goFull_fw (c id : Nat) (s : State) : (goFull c id s).fw =
    if mbxReceiver c = 3 then { s.fw with queue := s.fw.queue ++ [fullCmd c id s] } else s.fw := by
  have hfw : (fullTold c id s).fw = s.fw := (touches_fullTold c id s).1 .fw (by simp)
  rw [goFull_eq, fullCmd_told]
  split
  · rw [hfw]
  · exact hfw

theorem rd_goFull (c id : Nat) (s : State) {g : Field} (hg : g.side = false) (hk : g.key ≠ (R.MBX_EVT_BITS (c / 8)).key) :
    (goFull c id s).rd g = (fullBase c id s).rd g := by
  have htold : (fullTold c id s).rd g = (fullBase c id s).rd g := by
    unfold fullTold
    split
    · exact (rd_mbxEvent_ne _ _ _ hg hk).trans (rd_count _ _ _ _ hg)
    · exact rd_count _ _ _ _ hg
  rw [goFull_eq]
  split
  · exact htold
  · exact htold

theorem frame_goFull {c id : Nat} (hf : ∀ f ∈ fullFields c, f ∈ fs) (hw : Part.fw ∈ ps) (h : Frame fs ps s₀ s) :
    Frame fs ps s₀ (goFull c id s) := by
  have hbase : Frame fs ps s₀ ((fullBase c id s).count 0x020 c 1) :=
    frame_count (frame_wr (hf _ (by simp)) (frame_wr (hf _ (by simp)) (frame_wr (hf _ (by simp)) h)))
  have htold : Frame fs ps s₀ (fullTold c id s) := frame_ite (frame_mbxEvent (hf _ (by simp)) hbase) hbase
  rw [goFull_eq]
  exact frame_ite (frame_set_fw hw htold) htold

theorem rd_goFull_state (c id : Nat) (s : State) : (goFull c id s).rd (R.MBX_STAT_STATE c) = 2 := by
  refine (rd_goFull c id s (side_mbxState c) ?_).trans ((rd_wr_ne _ _ ?_).trans (rd_wr_same _ _ _)) <;>
    simp only [R.MBX_STAT_STATE, R.MBX_EVT_BITS, R.MBX_STAT_LAST_SENDER, Field.mk'] <;> omega

theorem rd_goFull_lastSender (c : Nat) {id : Nat} (hid : id < 256) (s : State) : (goFull c id s).rd (R.MBX_STAT_LAST_SENDER c) = id := by
  refine (rd_goFull c id s (Field.side_of_low ?_) ?_).trans ((rd_wr_same _ _ _).trans (Nat.mod_eq_of_lt hid)) <;>
    simp only [R.MBX_EVT_BITS, R.MBX_STAT_LAST_SENDER, Field.mk'] <;> omega

/-- What the ID stamped into DATA1 leaves of it. -/
theorem rd_stamp (c : Nat) {id : Nat} (hid : id < 256) (s : State) : (stamp c id s).rd (R.MBX_DATA_DATA (c * 16 + 1)) =
    s.rd (R.MBX_DATA_DATA (c * 16 + 1)) % 2 ^ 24 + id * 2 ^ 24 := by
  refine (rd_wr_same _ _ _).trans (Nat.mod_eq_of_lt ?_)
  have := Nat.mod_lt (s.rd (R.MBX_DATA_DATA (c * 16 + 1))) (Nat.two_pow_pos 24)
  simp only [R.MBX_DATA_DATA, Field.mk'] at *
  omega

theorem rd_goFull_stamp (c : Nat) {id : Nat} (hid : id < 256) (s : State) : (goFull c id s).rd (R.MBX_DATA_DATA (c * 16 + 1)) =
    s.rd (R.MBX_DATA_DATA (c * 16 + 1)) % 2 ^ 24 + id * 2 ^ 24 := by
  refine (rd_goFull c id s (side_mbxData _) ?_).trans ((rd_wr_ne _ _ ?_).trans ((rd_wr_ne _ _ ?_).trans (rd_stamp c hid s))) <;>
    simp only [R.MBX_DATA_DATA, R.MBX_EVT_BITS, R.MBX_STAT_LAST_SENDER, R.MBX_STAT_STATE, Field.mk'] <;> omega

theorem bit_goFull (c id : Nat) (s : State) (h : mbxReceiver c = classHost c) :
    bit ((goFull c id s).rd (R.MBX_EVT_BITS (c / 8))) (0 + c % 8) = true := by
  have htold : fullTold c id s = mbxEvent c 0 ((fullBase c id s).count 0x020 c 1) := if_pos h
  have hrd : (goFull c id s).rd (R.MBX_EVT_BITS (c / 8)) = (fullTold c id s).rd (R.MBX_EVT_BITS (c / 8)) := by
    rw [goFull_eq]
    split <;> rfl
  rw [hrd, htold]
  exact bit_mbxEvent c (by decide) _

/-! ### REPLIED (R401, R413) -/

/-- What a reply in place writes. -/
abbrev repliedFields (c : Nat) : List Field := [R.MBX_STAT_STATE c, R.MBX_DATA_DATA (c * 16 + 1), R.MBX_EVT_BITS (c / 8)]

/-- A reply stamped into its channel, its hold begun. -/
def repliedHeld (c : Nat) (s : State) : State := restartHold c ((stamp c (mbxReceiver c) s).wr (R.MBX_STAT_STATE c) 3)

/-- The tick of a DONE. -/
def noteDone (c : Nat) (s : State) : State := s.modMbox c fun m => { m with doneAt := some s.tick.count }

/-- A reply in place. -/
def repliedBase (c : Nat) (s : State) : State := noteDone c (repliedHeld c s)

theorem touches_repliedHeld (c : Nat) (s : State) : Touches [.mbx, .regs .mbx] s (repliedHeld c s) :=
  touches_restartHold _ _ (by simp) (touches_State_wr (has_R_MBX_STAT_STATE c) (by simp) (touches_stamp c _ s (by simp) (Touches.refl _ s)))

theorem touches_repliedBase (c : Nat) (s : State) : Touches [.mbx, .regs .mbx] s (repliedBase c s) :=
  touches_State_modMbox _ _ _ (by simp) (touches_repliedHeld c s)

/-- The firmware is told how its message ended. -/
def tellOwner (c : Nat) (s : State) : State :=
  if s.mbxOwner c = 3 then postEnds c (s.rd (R.MBX_DATA_DATA (c * 16 + 2)) % 256) s else s

/-- The event of a reply. -/
def tellReply (c : Nat) (s : State) : State := if s.mbxOwner c = classHost c then mbxEvent c 1 s else s

theorem rd_postEnds (c n : Nat) (s : State) (g : Field) : (postEnds c n s).rd g = s.rd g := rfl

theorem rd_tellOwner (c : Nat) (s : State) (g : Field) : (tellOwner c s).rd g = s.rd g := by
  unfold tellOwner
  split
  · exact rd_postEnds _ _ _ _
  · rfl

theorem tellOwner_fw (c : Nat) (s : State) : (tellOwner c s).fw =
    if s.mbxOwner c = 3 then { s.fw with postStatus := IMap.put 0 s.fw.postStatus c (s.rd (R.MBX_DATA_DATA (c * 16 + 2)) % 256) } else s.fw := by
  unfold tellOwner
  split <;> rfl

theorem tellOwner_mbx (c : Nat) (s : State) : (tellOwner c s).mbx = s.mbx := by
  unfold tellOwner
  split <;> rfl

theorem rd_modMbox (c : Nat) (f : Mbx → Mbx) (s : State) (g : Field) : (s.modMbox c f).rd g = s.rd g := rfl

theorem rd_noteDone (c : Nat) (s : State) (g : Field) : (noteDone c s).rd g = s.rd g := rd_modMbox _ _ _ _

theorem rd_restartHold (c : Nat) (s : State) (g : Field) : (restartHold c s).rd g = s.rd g := rfl

theorem rd_repliedBase (c : Nat) (s : State) (g : Field) :
    (repliedBase c s).rd g = ((stamp c (mbxReceiver c) s).wr (R.MBX_STAT_STATE c) 3).rd g :=
  (rd_noteDone _ _ _).trans (rd_restartHold _ _ _)

theorem rd_repliedBase_ne (c : Nat) (s : State) {g : Field} (h1 : g.key ≠ (R.MBX_STAT_STATE c).key)
    (h2 : g.key ≠ (R.MBX_DATA_DATA (c * 16 + 1)).key) : (repliedBase c s).rd g = s.rd g :=
  (rd_repliedBase c s g).trans ((rd_wr_ne _ _ h1).trans (rd_wr_ne _ _ h2))

theorem owner_repliedBase (c : Nat) (s : State) : (repliedBase c s).mbxOwner c = s.mbxOwner c := by
  refine rd_repliedBase_ne c s ?_ ?_ <;> simp only [R.MBX_STAT_OWNER, R.MBX_STAT_STATE, R.MBX_DATA_DATA, Field.mk'] <;> omega

theorem goReplied_eq (c : Nat) (s : State) :
    goReplied c s = if s.on (R.MBX_STAT_ORPHAN c) then mbxEmpty c s else tellReply c (tellOwner c (repliedBase c s)) := by
  delta goReplied repliedBase noteDone repliedHeld tellReply tellOwner
  rfl

theorem goReplied_live {c : Nat} {s : State} (h : s.on (R.MBX_STAT_ORPHAN c) = false) :
    goReplied c s = if s.mbxOwner c = classHost c then mbxEvent c 1 (tellOwner c (repliedBase c s)) else tellOwner c (repliedBase c s) := by
  have howner : (tellOwner c (repliedBase c s)).mbxOwner c = s.mbxOwner c := (rd_tellOwner c _ _).trans (owner_repliedBase c s)
  rw [goReplied_eq, h, if_neg Bool.false_ne_true, tellReply, howner]

theorem goReplied_orphan {c : Nat} {s : State} (h : s.on (R.MBX_STAT_ORPHAN c) = true) : goReplied c s = mbxEmpty c s := if_pos h

section
variable {c : Nat} (h : s.on (R.MBX_STAT_ORPHAN c) = false)
include h

theorem rd_goReplied {g : Field} (hg : g.side = false) (hk : g.key ≠ (R.MBX_EVT_BITS (c / 8)).key) :
    (goReplied c s).rd g = (repliedBase c s).rd g := by
  rw [goReplied_live h]
  split
  · exact (rd_mbxEvent_ne _ _ _ hg hk).trans (rd_tellOwner c _ g)
  · exact rd_tellOwner c _ g

theorem rd_goReplied_state : (goReplied c s).rd (R.MBX_STAT_STATE c) = 3 := by
  refine (rd_goReplied h (side_mbxState c) ?_).trans ((rd_repliedBase c s _).trans (rd_wr_same _ _ _))
  simp only [R.MBX_STAT_STATE, R.MBX_EVT_BITS, Field.mk']; omega

theorem rd_goReplied_stamp : (goReplied c s).rd (R.MBX_DATA_DATA (c * 16 + 1)) =
    s.rd (R.MBX_DATA_DATA (c * 16 + 1)) % 2 ^ 24 + mbxReceiver c * 2 ^ 24 := by
  have hid : mbxReceiver c < 256 := by unfold mbxReceiver; split <;> (try split) <;> omega
  refine (rd_goReplied h (side_mbxData _) ?_).trans ((rd_repliedBase c s _).trans ((rd_wr_ne _ _ ?_).trans (rd_stamp c hid s))) <;>
    simp only [R.MBX_DATA_DATA, R.MBX_EVT_BITS, R.MBX_STAT_STATE, Field.mk'] <;> omega

theorem bit_goReplied (ho : s.mbxOwner c = classHost c) : bit ((goReplied c s).rd (R.MBX_EVT_BITS (c / 8))) (8 + c % 8) = true := by
  rw [goReplied_live h, if_pos ho]
  exact bit_mbxEvent c (by decide) _

theorem goReplied_mbox : (goReplied c s).mbox c = { s.mbox c with holdAt := s.clk, doneAt := some s.tick.count } := by
  have hbase : (repliedBase c s).mbox c = { s.mbox c with holdAt := s.clk, doneAt := some s.tick.count } := by
    have htick : (repliedHeld c s).tick = s.tick := (touches_repliedHeld c s).1 .tick (by simp)
    have hstamp : Touches [.regs .mbx] s ((stamp c (mbxReceiver c) s).wr (R.MBX_STAT_STATE c) 3) :=
      touches_State_wr (has_R_MBX_STAT_STATE c) (by simp) (touches_stamp c _ s (by simp) (Touches.refl _ s))
    have hclk := clk_congr (hstamp.1 .tick (by simp))
    have hmbox := mbox_congr c (hstamp.1 .mbx (by simp))
    rw [repliedBase, noteDone, mbox_modMbox_same, htick, repliedHeld, restartHold, mbox_modMbox_same, hclk, hmbox]
  have htold : (tellOwner c (repliedBase c s)).mbox c = (repliedBase c s).mbox c := mbox_congr c (tellOwner_mbx _ _)
  have hevent : (mbxEvent c 1 (tellOwner c (repliedBase c s))).mbx = (tellOwner c (repliedBase c s)).mbx :=
    (touches_mbxEvent (ps := [.regs .mbx]) c 1 _ (by simp) (Touches.refl _ _)).1 .mbx (by simp)
  rw [goReplied_live h, ← hbase, ← htold]
  split
  · exact mbox_congr c hevent
  · rfl

theorem goReplied_fw : (goReplied c s).fw = if s.mbxOwner c = 3
    then { s.fw with postStatus := IMap.put 0 s.fw.postStatus c (s.rd (R.MBX_DATA_DATA (c * 16 + 2)) % 256) } else s.fw := by
  have hdata : (repliedBase c s).rd (R.MBX_DATA_DATA (c * 16 + 2)) = s.rd (R.MBX_DATA_DATA (c * 16 + 2)) := by
    refine rd_repliedBase_ne c s ?_ ?_ <;> simp only [R.MBX_STAT_STATE, R.MBX_DATA_DATA, Field.mk'] <;> omega
  have hbase : (repliedBase c s).fw = s.fw := (touches_repliedBase c s).1 .fw (by simp)
  have htold : (tellOwner c (repliedBase c s)).fw = if s.mbxOwner c = 3
      then { s.fw with postStatus := IMap.put 0 s.fw.postStatus c (s.rd (R.MBX_DATA_DATA (c * 16 + 2)) % 256) } else s.fw := by
    rw [tellOwner_fw, hdata, owner_repliedBase, hbase]
  have hevent : (mbxEvent c 1 (tellOwner c (repliedBase c s))).fw = (tellOwner c (repliedBase c s)).fw :=
    (touches_mbxEvent (ps := [.regs .mbx]) c 1 _ (by simp) (Touches.refl _ _)).1 .fw (by simp)
  rw [goReplied_live h, ← htold]
  split
  · exact hevent
  · rfl

theorem frame_goReplied (hf : ∀ f ∈ repliedFields c, f ∈ fs) (hm : Part.mbx ∈ ps) (hw : Part.fw ∈ ps) (hs : Frame fs ps s₀ s) :
    Frame fs ps s₀ (goReplied c s) := by
  have hbase : Frame fs ps s₀ (repliedBase c s) :=
    frame_modMbox hm (frame_modMbox hm (frame_wr (hf _ (by simp)) (frame_wr (hf _ (by simp)) hs)))
  have htold : Frame fs ps s₀ (tellOwner c (repliedBase c s)) := frame_ite (frame_set_fw hw hbase) hbase
  rw [goReplied_live h]
  exact frame_ite (frame_mbxEvent (hf _ (by simp)) htold) htold

end

/-! ### The relay agent (R410) -/

/-- The fields of a relay channel that the agent writes. -/
abbrev agentFields (c : Nat) : List Field :=
  [R.MBX_STAT_STATE c, R.MBX_STAT_OWNER c, R.MBX_STAT_LAST_SENDER c, R.MBX_EVT_BITS (c / 8)] ++ wordFields c

theorem agentRun_idle {s : State} (h : s.stack.relayQ = []) : agentRun s = s := by
  unfold agentRun agentFeed
  rw [h]

theorem relayChannel_of_touches {s t : State} (h : Touches [.stack, .mbx, .fw, .regs .mbx] s t) : relayChannel t = relayChannel s := by
  have hrd : t.rd R.MOR_RELAY_CFG_RELAY_SEC = s.rd R.MOR_RELAY_CFG_RELAY_SEC := h.rd (b := .mor) (by simp) (by decide) (by decide)
  rw [relayChannel, relayChannel, State.on, State.on, hrd]

theorem frame_putWords {c : Nat} {b : List Nat} (hf : ∀ f ∈ wordFields c, f ∈ fs) (h : Frame fs ps s₀ s) :
    Frame fs ps s₀ (putWords c b s) :=
  frame_foldl h fun _ _ hk h => frame_wr (hf _ (mem_wordFields (List.mem_range.1 (List.mem_of_mem_take hk)))) h

/-- The state once the agent has taken the first of its packets. -/
def State.dropRelay (s : State) (rest : List (Nat × List Nat)) : State := s.modStack fun k => { k with relayQ := rest }

/-- The agent's handover of a short packet. -/
def relayHandOver (c src : Nat) (pkt : List Nat) (s : State) : State := goFull c (7 + src) (putWords c pkt (s.wr (R.MBX_STAT_OWNER c) (7 + src)))

theorem touches_relayHandOver (c src : Nat) (pkt : List Nat) (s : State) : Touches [.fw, .regs .mbx] s (relayHandOver c src pkt s) :=
  touches_goFull _ _ _ (by simp) (by simp) (touches_putWords _ _ _ (by simp)
    (touches_State_wr (has_R_MBX_STAT_OWNER c) (by simp) (Touches.refl _ s)))

/-- The command a long packet is to the firmware. -/
def longCmd (src : Nat) (pkt : List Nat) (s : State) : Cmd :=
  { path := .relay src, sender := 7 + src, sec := s.on R.MOR_RELAY_CFG_RELAY_SEC, bytes := pkt }

/-- What each further packet does: with none it ends, a long one joins the firmware's queue, a short one takes the channel or waits. -/
theorem agentFeed_succ (n : Nat) (s : State) : agentFeed (n + 1) s = match s.stack.relayQ with
    | [] => s
    | (src, pkt) :: rest =>
      if 64 < pkt.length then
        agentFeed n { s.dropRelay rest with fw := { s.fw with queue := s.fw.queue ++ [longCmd src pkt s] } }
      else if s.mbxState (relayChannel s) = 0 ∧ s.rxDown (relayChannel s) = false then
        agentFeed n (relayHandOver (relayChannel s) src pkt (s.dropRelay rest))
      else s := rfl

theorem frame_agentFeed {c : Nat} (hf : ∀ f ∈ agentFields c, f ∈ fs) (hs : Part.stack ∈ ps) (hw : Part.fw ∈ ps) (n : Nat) :
    ∀ s : State, relayChannel s = c → Frame fs ps s₀ s → Frame fs ps s₀ (agentFeed n s) := by
  induction n with
  | zero => exact fun _ _ h => h
  | succ n ih =>
    intro s hc h
    have hdrop : ∀ rest, Frame fs ps s₀ (s.dropRelay rest) := fun _ => frame_set_stack hs h
    rw [agentFeed_succ]
    split
    · exact h
    · next src pkt rest _ =>
      split
      · exact ih _ hc (frame_set_fw hw (hdrop rest))
      · split
        · refine ih _ ?_ ?_
          · refine (relayChannel_of_touches ((touches_relayHandOver _ src pkt (s.dropRelay rest)).mono (by simp))).trans hc
          · rw [hc]
            refine frame_goFull (fun f hm => hf f ?_) hw (frame_putWords (fun f hm => hf f (List.mem_append_right _ hm))
              (frame_wr (hf _ (by simp)) (hdrop rest)))
            simp only [fullFields, List.mem_cons, List.not_mem_nil, or_false] at hm
            rcases hm with rfl | rfl | rfl | rfl
            · simp
            · simp
            · exact List.mem_append_right _ (mem_wordFields (by decide))
            · simp
        · exact h

theorem relayQ_agentFeed (n : Nat) : ∀ s : State, (agentFeed n s).stack.relayQ.length ≤ s.stack.relayQ.length := by
  induction n with
  | zero => exact fun _ => le_rfl
  | succ n ih =>
    intro s
    rw [agentFeed_succ]
    split
    · exact le_rfl
    · next src pkt rest hq =>
      rw [hq]
      split
      · exact (ih _).trans (Nat.le_succ _)
      · split
        · refine (ih _).trans ?_
          rw [show (relayHandOver (relayChannel s) src pkt (s.dropRelay rest)).stack = (s.dropRelay rest).stack from
            (touches_relayHandOver _ _ _ _).1 .stack (by simp)]
          exact Nat.le_succ _
        · rw [hq]

/-- The agent leaves a channel that is not the one it fills. -/
theorem rd_agentRun_ne (s : State) {g : Field} (hg : g.side = false) (hk : ∀ f ∈ agentFields (relayChannel s), g.key ≠ f.key) :
    (agentRun s).rd g = s.rd g :=
  (frame_agentFeed (fs := agentFields (relayChannel s)) (ps := [.stack, .fw]) (fun _ h => h) (by simp) (by simp) 9 s rfl
    (Frame.refl _ _ s)).rd hk hg

theorem relayChannel_or (s : State) : relayChannel s = 3 ∨ relayChannel s = 11 := by
  unfold relayChannel
  split <;> simp

/-- Channels apart have no field in common. -/
theorem emptyFields_ne_agent {c d : Nat} (hc : c < 16) (hd : d < 16) (h : c ≠ d) {g : Field} (hg : g ∈ emptyFields c) :
    ∀ f ∈ agentFields d, g.key ≠ f.key := by
  intro f hf
  have hg' : g.key = (R.MBX_STAT_STATE c).key ∨ g.key = (R.MBX_STAT_OWNER c).key ∨ g.key = (R.MBX_STAT_ORPHAN c).key ∨
      ∃ k < 16, g.key = (R.MBX_DATA_DATA (c * 16 + k)).key := by
    rcases List.mem_append.1 hg with hg | hg
    · simp only [List.mem_cons, List.not_mem_nil, or_false] at hg
      rcases hg with rfl | rfl | rfl <;> simp
    · obtain ⟨k, hk, rfl⟩ := List.mem_map.1 hg
      exact .inr (.inr (.inr ⟨k, List.mem_range.1 hk, rfl⟩))
  have hf' : f.key = (R.MBX_STAT_STATE d).key ∨ f.key = (R.MBX_STAT_OWNER d).key ∨ f.key = (R.MBX_STAT_LAST_SENDER d).key ∨
      f.key = (R.MBX_EVT_BITS (d / 8)).key ∨ ∃ k < 16, f.key = (R.MBX_DATA_DATA (d * 16 + k)).key := by
    rcases List.mem_append.1 hf with hf | hf
    · simp only [List.mem_cons, List.not_mem_nil, or_false] at hf
      rcases hf with rfl | rfl | rfl | rfl <;> simp
    · obtain ⟨k, hk, rfl⟩ := List.mem_map.1 hf
      exact .inr (.inr (.inr (.inr ⟨k, List.mem_range.1 hk, rfl⟩)))
  simp only [R.MBX_STAT_STATE, R.MBX_STAT_OWNER, R.MBX_STAT_ORPHAN, R.MBX_STAT_LAST_SENDER, R.MBX_EVT_BITS, R.MBX_DATA_DATA, Field.mk'] at hg' hf'
  rcases hg' with e | e | e | ⟨k, hk, e⟩ <;> rcases hf' with e' | e' | e' | e' | ⟨k', hk', e'⟩ <;> omega

theorem IsEmpty.agentRun {c : Nat} (hc : c < 16) (h : IsEmpty c s) (hne : relayChannel s ≠ c) : IsEmpty c (agentRun s) := by
  have hd : relayChannel s < 16 := by rcases relayChannel_or s with k | k <;> rw [k] <;> decide
  exact h.of_rd fun g hg => rd_agentRun_ne s (emptyFields_side hg) (emptyFields_ne_agent hc hd (Ne.symm hne) hg)

end Sys2Proof.Machine
end

section
/-! PROOFS. A mailbox's data and control accesses (R402, R403, R407, R409, R410, R414; O39). -/

namespace Sys2Proof.Machine

/-! ### Words of MBX_CTL -/

/-- A word with one of the action bits set, in its low four bits. -/
theorem setIn_mod (c : Nat) (w : Nat) : (R.MBX_CTL_GO c).setIn w % 16 = (w ||| 1) % 16 ∧ (R.MBX_CTL_DONE c).setIn w % 16 = (w ||| 2) % 16 ∧
    (R.MBX_CTL_RELEASE c).setIn w % 16 = (w ||| 4) % 16 := by
  have hor : ∀ k, (w ||| k) % 16 = w % 16 ||| k % 16 := fun k => Nat.or_mod_two_pow (a := w) (b := k) (n := 4)
  have hset : ∀ l, l < 4 → (if w / 2 ^ l % 2 = 1 then w else w + 2 ^ l) % 16 = w % 16 ||| 2 ^ l := by
    intro l hl
    have hlt : w % 16 < 16 := Nat.mod_lt _ (by decide)
    obtain ⟨q, r, hw, hr⟩ : ∃ q r, w = 16 * q + r ∧ w % 16 = r := ⟨w / 16, w % 16, (Nat.div_add_mod w 16).symm, rfl⟩
    rw [hr] at hlt ⊢
    subst hw
    interval_cases l <;> interval_cases r <;> simp only [Nat.reducePow, Nat.reduceOr, Nat.div_one] <;> split <;> omega
  exact ⟨(hset 0 (by decide)).trans (hor 1).symm, (hset 1 (by decide)).trans (hor 2).symm, (hset 2 (by decide)).trans (hor 4).symm⟩

/-- A word that has the bit already. -/
theorem setIn_of_bit {f : Field} {w : Nat} (h : bit w f.lsb = true) : f.setIn w = w := by
  unfold Field.setIn
  exact if_pos (of_decide_eq_true h)

/-! ### The rows -/

/-- A write of MBX_CTL by a path, PF0's access to a secure channel answered first. -/
def ctlEffect (c : Nat) (p : MbxPath) (v : Nat) : State → State := guarded c p (Reg.MBX_CTL c).addr false (writeMbxCtl c p v)

theorem go_congr {f g : State → State} {s : State} (h : f s.begin = g s.begin) : go f s = go g s := by
  rw [go, go, h]

/-- One write in a cycle is that write. -/
theorem goTogether_one (c : Fin 16) (p : MbxPath) (v : Nat) (s : State) : goTogether [(c, p, v)] s = ctlEffect c.val p v s := by
  fin_cases c <;> rfl

theorem exec_mbxGo (c : Fin 16) (p : MbxPath) (w : Word) (s : State) :
    exec (.mbxGo c p w []) s = go (ctlEffect c.val p ((R.MBX_CTL_GO c.val).setIn w.toNat)) s := go_congr (goTogether_one c p _ _)

theorem exec_mbxDone (c : Fin 16) (p : MbxPath) (w : Word) (s : State) :
    exec (.mbxDone c p w) s = go (ctlEffect c.val p ((R.MBX_CTL_DONE c.val).setIn w.toNat)) s := rfl

theorem exec_mbxRelease (c : Fin 16) (p : MbxPath) (w : Word) (s : State) :
    exec (.mbxRelease c p w) s = go (ctlEffect c.val p ((R.MBX_CTL_RELEASE c.val).setIn w.toNat)) s := rfl

theorem exec_mbxData (c : Fin 16) (r : MbxReg) (p : MbxPath) (w : Option Word) (s : State) :
    exec (.mbxDataAccess c r p w) s =
      go (guarded c.val p (mbxRegAddr c.val r) w.isNone (mbxAccess c.val r p (w.map (·.toNat)))) s := rfl

/-- Where PF0 does not stand before a secure channel, the guard lets the access by. -/
theorem guarded_open {c addr : Nat} {p : MbxPath} {read : Bool} {f : State → State} {s : State} (h : c < 8 ∨ p ≠ .host 0) :
    guarded c p addr read f s = f s := if_neg fun ⟨h8, hp⟩ => h.elim (fun k => absurd h8 (not_le.2 k)) fun k => k hp

theorem guarded_pf0 {c addr : Nat} {read : Bool} {f : State → State} {s : State} (h : 8 ≤ c) :
    guarded c (.host 0) addr read f s = unsupported addr read s := if_pos ⟨h, rfl⟩

theorem open_of_reach {c : Nat} {p : MbxPath} (h : reachesLock c p) : c < 8 ∨ p ≠ .host 0 :=
  h.imp id fun k e => by rw [e] at k; revert k; decide

theorem ctlAddr (c : Fin 16) : (Reg.MBX_CTL c.val).addr = 0x100000 + c.val * 0x80 + 0x40 := by
  revert c
  decide

theorem mbxStatAddr (c : Fin 16) : (Reg.MBX_STAT c.val).addr = 0x100000 + c.val * 0x80 + 0x48 := by
  revert c
  decide

theorem dataAddr (c k : Fin 16) : (R.MBX_DATA_DATA (c.val * 16 + k.val)).addr = 0x100000 + c.val * 0x80 + 4 * k.val := by
  simp only [R.MBX_DATA_DATA, Field.mk']; omega

/-! ### Who may (R402) -/

section
variable {s : State} {c : Nat} {p : MbxPath}

theorem asOwner_iff : s.asOwner c p = true ↔
    pathId p = s.mbxOwner c ∧ s.on (R.MBX_STAT_ORPHAN c) = false ∧ s.rxDown c = false ∧ reachesLock c p := by
  simp [State.asOwner, reachesLock, and_assoc]

theorem asReceiver_iff : s.asReceiver c p = true ↔ pathId p = mbxReceiver c ∧ s.rxDown c = false ∧ reachesLock c p := by
  simp [State.asReceiver, reachesLock, and_assoc]

theorem open_of_owner (h : s.asOwner c p = true) : c < 8 ∨ p ≠ .host 0 := open_of_reach (asOwner_iff.1 h).2.2.2

theorem open_of_receiver (h : s.asReceiver c p = true) : c < 8 ∨ p ≠ .host 0 := open_of_reach (asReceiver_iff.1 h).2.2

/-- Whether an access is among those a record is kept of (R409), as the statements have it. -/
theorem rejectLogged_true (h : 8 ≤ c ∧ (reachesSecure p = false ∨ 12 ≤ c ∧ pathId p = 2)) : rejectLogged c p = true := by
  rcases h with ⟨h8, h | ⟨h12, hp⟩⟩ <;> simp [rejectLogged, *]

theorem rejectLogged_false (h : c < 8 ∨ reachesSecure p = true ∧ (c < 12 ∨ pathId p ≠ 2)) : rejectLogged c p = false := by
  rcases h with h | ⟨h, k | k⟩
  · simp [rejectLogged, not_le.2 h]
  · simp [rejectLogged, h, not_le.2 k]
  · simp [rejectLogged, h, k]

end

/-! ### Data words -/

/-- Whether an access of a data word is one the owner may make. -/
def ownAccess (s : State) (c : Nat) (p : MbxPath) (w : Option Nat) : Bool :=
  s.asOwner c p && (s.mbxState c = 1 || (s.mbxState c = 3 && w.isNone))

theorem dataAccess_eq (c k : Nat) (p : MbxPath) (w : Option Nat) (s : State) : dataAccess c k p w s =
    if ownAccess s c p w || (s.asReceiver c p && s.mbxState c = 2) then
      match w with
      | some v => (if ownAccess s c p w then restartHold c s else s).wr (R.MBX_DATA_DATA (c * 16 + k)) v
      | none => (if ownAccess s c p w then restartHold c s else s).emit
          (.lockRead (pathId p) ((if ownAccess s c p w then restartHold c s else s).rd (R.MBX_DATA_DATA (c * 16 + k))))
    else reject c p (R.MBX_DATA_DATA (c * 16 + k)).addr w.isNone s := by
  unfold dataAccess ownAccess
  cases w <;> rfl

section
variable {s : State} {c k : Fin 16} {p : MbxPath}

theorem dataRead_owner (h : s.asOwner c.val p = true) (hst : s.mbxState c.val = 1 ∨ s.mbxState c.val = 3) :
    dataAccess c.val k.val p none s.begin =
      (restartHold c.val s.begin).emit (.lockRead (pathId p) (s.rd (R.MBX_DATA_DATA (c.val * 16 + k.val)))) := by
  have hown : ownAccess s.begin c.val p none = true := by
    have hst' : s.begin.mbxState c.val = 1 ∨ s.begin.mbxState c.val = 3 := hst
    rw [ownAccess, show s.begin.asOwner c.val p = true from h]
    rcases hst' with k | k <;> simp [k]
  rw [dataAccess_eq, hown, Bool.true_or, if_pos rfl]
  rfl

theorem dataWrite_owner (h : s.asOwner c.val p = true) (hst : s.mbxState c.val = 1) (v : Nat) :
    dataAccess c.val k.val p (some v) s.begin = (restartHold c.val s.begin).wr (R.MBX_DATA_DATA (c.val * 16 + k.val)) v := by
  have hown : ownAccess s.begin c.val p (some v) = true := by
    rw [ownAccess, show s.begin.asOwner c.val p = true from h, show s.begin.mbxState c.val = 1 from hst]
    rfl
  rw [dataAccess_eq, hown, Bool.true_or, if_pos rfl]
  rfl

theorem ownAccess_full (h : s.mbxState c.val = 2) (w : Option Nat) : ownAccess s.begin c.val p w = false := by
  rw [ownAccess, show s.begin.mbxState c.val = 2 from h]
  simp

theorem dataRead_receiver (h : s.asReceiver c.val p = true) (hst : s.mbxState c.val = 2) :
    dataAccess c.val k.val p none s.begin = s.begin.emit (.lockRead (pathId p) (s.rd (R.MBX_DATA_DATA (c.val * 16 + k.val)))) := by
  rw [dataAccess_eq, ownAccess_full hst, show s.begin.asReceiver c.val p = true from h, show s.begin.mbxState c.val = 2 from hst]
  rfl

theorem dataWrite_receiver (h : s.asReceiver c.val p = true) (hst : s.mbxState c.val = 2) (v : Nat) :
    dataAccess c.val k.val p (some v) s.begin = s.begin.wr (R.MBX_DATA_DATA (c.val * 16 + k.val)) v := by
  rw [dataAccess_eq, ownAccess_full hst, show s.begin.asReceiver c.val p = true from h, show s.begin.mbxState c.val = 2 from hst]
  rfl

theorem dataAccess_rejected {w : Option Word}
    (h1 : s.asOwner c.val p = false ∨ ¬(s.mbxState c.val = 1 ∨ s.mbxState c.val = 3 ∧ w = none))
    (h2 : s.asReceiver c.val p = false ∨ s.mbxState c.val ≠ 2) :
    dataAccess c.val k.val p (w.map (·.toNat)) s.begin = reject c.val p (R.MBX_DATA_DATA (c.val * 16 + k.val)).addr w.isNone s.begin := by
  have hown : ownAccess s.begin c.val p (w.map (·.toNat)) = false := by
    have h1' : s.begin.asOwner c.val p = false ∨ ¬(s.begin.mbxState c.val = 1 ∨ s.begin.mbxState c.val = 3 ∧ w = none) := h1
    rw [ownAccess]
    rcases h1' with k | k
    · rw [k, Bool.false_and]
    · rw [not_or] at k
      cases w <;> simp_all
  have hrec : (s.begin.asReceiver c.val p && decide (s.begin.mbxState c.val = 2)) = false := by
    have h2' : s.begin.asReceiver c.val p = false ∨ s.begin.mbxState c.val ≠ 2 := h2
    rcases h2' with k | k <;> simp [k]
  rw [dataAccess_eq, hown, hrec, Bool.or_false, if_neg Bool.false_ne_true]
  cases w <;> rfl

end

/-- A data access that the guard lets by. -/
theorem exec_data_open {c k : Fin 16} {p : MbxPath} {w : Option Word} {s u : State} (h : c.val < 8 ∨ p ≠ .host 0)
    (hu : dataAccess c.val k.val p (w.map (·.toNat)) s.begin = u) :
    exec (.mbxDataAccess c (.data k) p w) s = go (fun s => dataAccess c.val k.val p (w.map (·.toNat)) s) s ∧
      (fun s => dataAccess c.val k.val p (w.map (·.toNat)) s) s.begin = u := by
  refine ⟨?_, hu⟩
  rw [exec_mbxData]
  exact go_congr (guarded_open h)

theorem data_rejected {c k : Fin 16} {p : MbxPath} {w : Option Word} {s : State} (h : c.val < 8 ∨ p ≠ .host 0)
    (h1 : s.asOwner c.val p = false ∨ ¬(s.mbxState c.val = 1 ∨ s.mbxState c.val = 3 ∧ w = none))
    (h2 : s.asReceiver c.val p = false ∨ s.mbxState c.val ≠ 2) :
    ∃ t, exec (.mbxDataAccess c (.data k) p w) s = .next t ∧ Rejected c.val p (0x100000 + c.val * 0x80 + 4 * k.val) w.isNone s t := by
  obtain ⟨hex, hu⟩ := exec_data_open h (dataAccess_rejected (k := k) h1 h2)
  rw [hex, ← dataAddr]
  exact rejected_of_go hu

/-! ### MBX_CTL (R402) -/

section
variable {s : State} {c : Fin 16} {p : MbxPath} {w : Nat}

theorem ctl_go (hw : w % 16 = 1) : writeMbxCtl c.val p w s =
    if s.asOwner c.val p && s.mbxState c.val = 1 then goFull c.val (pathId p) s else reject c.val p (Reg.MBX_CTL c.val).addr false s := by
  unfold writeMbxCtl
  rw [hw]
  rfl

theorem ctl_done (hw : w % 16 = 2) : writeMbxCtl c.val p w s =
    if s.asReceiver c.val p && s.mbxState c.val = 2 then agentReply c.val (goReplied c.val s)
    else reject c.val p (Reg.MBX_CTL c.val).addr false s := by
  unfold writeMbxCtl
  rw [hw]
  rfl

theorem ctl_release (hw : w % 16 = 4) : writeMbxCtl c.val p w s =
    if s.asOwner c.val p && (s.mbxState c.val = 1 || s.mbxState c.val = 3) then agentRun (mbxEmpty c.val s)
    else reject c.val p (Reg.MBX_CTL c.val).addr false s := by
  unfold writeMbxCtl
  rw [hw]
  rfl

theorem ctl_withdraw (hw : w % 16 = 8) : writeMbxCtl c.val p w s =
    if s.asOwner c.val p && s.mbxState c.val = 2 && pathId p = 3 then withdrawMsg c.val s
    else reject c.val p (Reg.MBX_CTL c.val).addr false s := by
  unfold writeMbxCtl
  rw [hw]
  rfl

/-- A word with none of the action bits, or with several, is rejected. -/
theorem ctl_other (h1 : w % 16 ≠ 1) (h2 : w % 16 ≠ 2) (h4 : w % 16 ≠ 4) (h8 : w % 16 ≠ 8) :
    writeMbxCtl c.val p w s = reject c.val p (Reg.MBX_CTL c.val).addr false s := by
  unfold writeMbxCtl
  dsimp only
  split <;> first | rfl | omega

theorem ctl_go_rejected (hno : s.asOwner c.val p = false ∨ s.mbxState c.val ≠ 1 ∨ w % 16 ≠ 1) (hbit : w % 2 = 1) :
    writeMbxCtl c.val p w s = reject c.val p (Reg.MBX_CTL c.val).addr false s := by
  by_cases hw : w % 16 = 1
  · rw [ctl_go hw, if_neg]
    rcases hno with k | k | k
    · simp [k]
    · simp [k]
    · exact absurd hw k
  · exact ctl_other hw (by omega) (by omega) (by omega)

theorem ctl_done_rejected (hno : s.asReceiver c.val p = false ∨ s.mbxState c.val ≠ 2 ∨ w % 16 ≠ 2) (hbit : w / 2 % 2 = 1) :
    writeMbxCtl c.val p w s = reject c.val p (Reg.MBX_CTL c.val).addr false s := by
  by_cases hw : w % 16 = 2
  · rw [ctl_done hw, if_neg]
    rcases hno with k | k | k
    · simp [k]
    · simp [k]
    · exact absurd hw k
  · exact ctl_other (by omega) hw (by omega) (by omega)

theorem ctl_release_rejected (hno : s.asOwner c.val p = false ∨ s.mbxState c.val = 0 ∨ s.mbxState c.val = 2 ∨ w % 16 ≠ 4)
    (hbit : w / 4 % 2 = 1) : writeMbxCtl c.val p w s = reject c.val p (Reg.MBX_CTL c.val).addr false s := by
  by_cases hw : w % 16 = 4
  · rw [ctl_release hw, if_neg]
    rcases hno with k | k | k | k
    · simp [k]
    · simp [k]
    · simp [k]
    · exact absurd hw k
  · exact ctl_other (by omega) (by omega) hw (by omega)

end

/-- A rejected write of MBX_CTL that the guard lets by. -/
theorem ctl_rejected {c : Fin 16} {p : MbxPath} {v : Nat} {s : State} (h : c.val < 8 ∨ p ≠ .host 0)
    (hr : writeMbxCtl c.val p v s.begin = reject c.val p (Reg.MBX_CTL c.val).addr false s.begin) :
    ∃ t, go (ctlEffect c.val p v) s = .next t ∧ Rejected c.val p (0x100000 + c.val * 0x80 + 0x40) false s t := by
  rw [← ctlAddr]
  exact rejected_of_go ((guarded_open h).trans hr)

/-- A row of a control access that PF0 has no right to. -/
theorem ctl_unsupported {c : Fin 16} {v : Nat} {s : State} (h : 8 ≤ c.val) :
    ∃ t, go (ctlEffect c.val (.host 0) v) s = .next t ∧ t.out = .aer 0 (0x100000 + c.val * 0x80 + 0x40) false :: s.out ∧ Frame [] [] s t := by
  have hu : ctlEffect c.val (.host 0) v s.begin = s.begin.emit (.aer 0 (0x100000 + c.val * 0x80 + 0x40) false) := by
    rw [ctlEffect, guarded_pf0 h, ctlAddr]
    rfl
  obtain ⟨t, e, hout, k⟩ := go_exact_of (ps := []) hu (touches_State_emit (touches_begin _ s)) (by decide)
  exact ⟨t, e, hout, k.frame (frame_emit (frame_begin s))⟩

/-! ### A reply leaves (R410) -/

theorem touches_ctlBase {s : State} {t : State} (h : Touches [.stack, .mbx, .fw, .regs .mbx] s t) :
    Touches [.log, .stack, .mbx, .fw, .regs .mbx, .regs .wch] s t := h.mono (by simp)

/-- The states of a host's and the firmware's channels are none of the relay agent's. -/
theorem agentReply_host {c : Nat} {s : State} (h : s.mbxState c ≠ 3 ∨ s.mbxOwner c < 8) : agentReply c s = s :=
  if_neg fun ⟨h3, h8⟩ => h.elim (fun k => k h3) fun k => absurd h8 (not_le.2 k)

theorem agentReply_peer {c : Nat} {s : State} (h3 : s.mbxState c = 3) (h8 : 8 ≤ s.mbxOwner c) :
    agentReply c s = agentRun (mbxEmpty c (sendRelay (s.mbxOwner c - 7) (s.mbxPacket c) s)) := if_pos ⟨h3, h8⟩

/-- One frame leaves where a link is found. -/
theorem sendRelay_out {dst l : Nat} {pkt : List Nat} {s : State} (h : s.relayLink dst = some l) :
    (sendRelay dst pkt s).out.length = s.out.length + 1 := by
  unfold sendRelay
  rw [h]
  rfl

theorem sendRelay_relayQ (dst : Nat) (pkt : List Nat) (s : State) : (sendRelay dst pkt s).stack.relayQ = s.stack.relayQ := by
  unfold sendRelay
  split <;> rfl

theorem relayLink_of_touches {s t : State} (dst : Nat) (h : Touches [.mbx, .fw, .regs .mbx] s t) : t.relayLink dst = s.relayLink dst := by
  have hstack : t.stack = s.stack := h.1 .stack (by simp)
  have haddr : t.stackAddr = s.stackAddr := h.rd (b := .mor) (by simp) (by decide) (by decide)
  have hup : ∀ l, t.morUp l = s.morUp l := fun l => by
    rw [State.morUp, State.morUp, State.morState, State.morState, h.rd (b := .mor) (by simp) (has_R_MOR_LINK_STAT_STATE l) (side_morState l)]
  simp only [State.relayLink, hstack, haddr, hup]

/-! ### The rows that act -/

section
variable {s : State} {c k : Fin 16} {p : MbxPath} {w : Word}

theorem goRow (ho : s.asOwner c.val p = true) (hst : s.mbxState c.val = 1) (hw : (w.toNat ||| 1) % 16 = 1) :
    ∃ t, exec (.mbxGo c p w []) s = .next t ∧ Ended s (goFull c.val (pathId p) s.begin) t := by
  have hu : ctlEffect c.val p ((R.MBX_CTL_GO c.val).setIn w.toNat) s.begin = goFull c.val (pathId p) s.begin := by
    rw [ctlEffect, guarded_open (open_of_owner ho), ctl_go ((setIn_mod c.val w.toNat).1.trans hw), if_pos]
    simp [show s.begin.asOwner c.val p = true from ho, show s.begin.mbxState c.val = 1 from hst]
  rw [exec_mbxGo]
  exact go_ended_of hu

theorem done_effect (hr : s.asReceiver c.val p = true) (hst : s.mbxState c.val = 2) (hw : (w.toNat ||| 2) % 16 = 2) :
    ctlEffect c.val p ((R.MBX_CTL_DONE c.val).setIn w.toNat) s.begin = agentReply c.val (goReplied c.val s.begin) := by
  rw [ctlEffect, guarded_open (open_of_receiver hr), ctl_done ((setIn_mod c.val w.toNat).2.1.trans hw), if_pos]
  simp [show s.begin.asReceiver c.val p = true from hr, show s.begin.mbxState c.val = 2 from hst]

theorem release_effect (ho : s.asOwner c.val p = true) (hst : s.mbxState c.val = 1 ∨ s.mbxState c.val = 3)
    (hw : (w.toNat ||| 4) % 16 = 4) :
    ctlEffect c.val p ((R.MBX_CTL_RELEASE c.val).setIn w.toNat) s.begin = agentRun (mbxEmpty c.val s.begin) := by
  have hst' : s.begin.mbxState c.val = 1 ∨ s.begin.mbxState c.val = 3 := hst
  rw [ctlEffect, guarded_open (open_of_owner ho), ctl_release ((setIn_mod c.val w.toNat).2.2.trans hw), if_pos]
  rcases hst' with k | k <;> simp [show s.begin.asOwner c.val p = true from ho, k]

theorem touches_empty (s : State) (c : Nat) : Touches [.mbx, .fw, .regs .mbx] s (mbxEmpty c s.begin) :=
  touches_mbxEmpty c _ (by simp) (by simp) (by simp) (touches_begin _ s)

theorem touches_freed (s : State) (c : Nat) : Touches [.stack, .mbx, .fw, .regs .mbx] s (agentRun (mbxEmpty c s.begin)) :=
  touches_agentRun _ (by simp) (by simp) (by simp) ((touches_empty s c).mono (by simp))

/-- An empty relay queue leaves the channel as it was freed. -/
theorem agentRun_freed (s : State) (c : Nat) (h : s.stack.relayQ = []) : agentRun (mbxEmpty c s.begin) = mbxEmpty c s.begin := by
  refine agentRun_idle ?_
  rw [show (mbxEmpty c s.begin).stack = s.stack from (touches_empty s c).1 .stack (by simp), h]

theorem relayChannel_freed (s : State) (c : Nat) : relayChannel (mbxEmpty c s.begin) = relayChannel s :=
  relayChannel_of_touches ((touches_empty s c).mono (by simp))

theorem owner_replied (ho : s.on (R.MBX_STAT_ORPHAN c.val) = false) : (goReplied c.val s).mbxOwner c.val = s.mbxOwner c.val := by
  refine (rd_goReplied ho (side_mbxOwner c.val) ?_).trans (owner_repliedBase c.val s)
  simp only [R.MBX_STAT_OWNER, R.MBX_EVT_BITS, Field.mk']; omega

/-- A relay channel's reply leaves, and the agent frees the channel. -/
theorem doneRow_peer (hr : s.asReceiver c.val p = true) (hst : s.mbxState c.val = 2) (horphan : s.on (R.MBX_STAT_ORPHAN c.val) = false)
    (h8 : 8 ≤ s.mbxOwner c.val) (hw : (w.toNat ||| 2) % 16 = 2) :
    ∃ pkt, ctlEffect c.val p ((R.MBX_CTL_DONE c.val).setIn w.toNat) s.begin =
      agentRun (mbxEmpty c.val (sendRelay (s.mbxOwner c.val - 7) pkt (goReplied c.val s.begin))) := by
  have howner : (goReplied c.val s.begin).mbxOwner c.val = s.mbxOwner c.val := owner_replied (s := s.begin) horphan
  refine ⟨(goReplied c.val s.begin).mbxPacket c.val, (done_effect hr hst hw).trans ?_⟩
  rw [agentReply_peer (rd_goReplied_state (s := s.begin) horphan) (howner ▸ h8), howner]

theorem touches_replied (s : State) (c : Nat) : Touches [.mbx, .fw, .regs .mbx] s (goReplied c s.begin) :=
  touches_goReplied c _ (by simp) (by simp) (by simp) (touches_begin _ s)

theorem touches_relayed (s : State) (c dst : Nat) (pkt : List Nat) :
    Touches [.stack, .mbx, .fw, .regs .mbx] s (mbxEmpty c (sendRelay dst pkt (goReplied c s.begin))) :=
  touches_mbxEmpty c _ (by simp) (by simp) (by simp) (touches_sendRelay dst pkt _ (by simp) ((touches_replied s c).mono (by simp)))

/-- A peer's reply puts out its RELAY frame alone. -/
theorem relayed_out (horphan : s.on (R.MBX_STAT_ORPHAN c.val) = false) (h8 : 8 ≤ s.mbxOwner c.val) {dst l : Nat} {pkt : List Nat}
    (hl : s.relayLink dst = some l) : (mbxEmpty c.val (sendRelay dst pkt (goReplied c.val s.begin))).out.length = s.out.length + 1 := by
  have hfold : ∀ (l : List Nat) (u : State), (l.foldl (fun s k => s.lo (R.MBX_DATA_DATA (c.val * 16 + k))) u).out = u.out := by
    intro l
    induction l with
    | nil => exact fun _ => rfl
    | cons k l ih => exact fun u => ih _
  have hempty : ∀ u : State, (mbxEmpty c.val u).out = u.out := fun u => by
    unfold mbxEmpty
    dsimp only [State.modMbox, State.lo, State.wr]
    exact hfold mbxWords u
  have hbase : (repliedBase c.val s.begin).out = s.out := rfl
  have hreply : (goReplied c.val s.begin).out = s.out := by
    have hhost : ¬s.begin.mbxOwner c.val = classHost c.val := fun e => by
      have h8' : 8 ≤ s.begin.mbxOwner c.val := h8
      rw [e, classHost] at h8'
      split at h8' <;> omega
    have h3 : ¬(repliedBase c.val s.begin).mbxOwner c.val = 3 := fun e => by
      have h8' : 8 ≤ s.begin.mbxOwner c.val := h8
      rw [← owner_repliedBase, e] at h8'
      omega
    rw [goReplied_live (s := s.begin) horphan, if_neg hhost, tellOwner, if_neg h3, hbase]
  rw [hempty, sendRelay_out ((relayLink_of_touches dst (touches_replied s c.val)).trans hl), hreply]

theorem relayed_running (horphan : s.on (R.MBX_STAT_ORPHAN c.val) = false) (dst : Nat) (pkt : List Nat) :
    (mbxEmpty c.val (sendRelay dst pkt (goReplied c.val s.begin))).fw.running = s.fw.running := by
  have hsend : (sendRelay dst pkt (goReplied c.val s.begin)).fw = (goReplied c.val s.begin).fw :=
    (touches_sendRelay (ps := [.stack]) dst pkt _ (by simp) (Touches.refl _ _)).1 .fw (by simp)
  rw [mbxEmpty_fw, hsend, goReplied_fw (s := s.begin) horphan]
  dsimp only
  split <;> rfl

end

/-! ### Two writes in a cycle (R414) -/

/-- The write to the lower channel comes first. -/
theorem goTogether_two {c d : Fin 16} (h : c.val < d.val) (p q : MbxPath) (v w : Nat) (s : State) :
    goTogether [(d, q, w), (c, p, v)] s = ctlEffect d.val q w (ctlEffect c.val p v s) := by
  fin_cases c <;> fin_cases d <;> first
    | exact absurd h (by decide)
    | rfl

theorem rd_goFull_ne (c id : Nat) (s : State) {g : Field} (hg : g.side = false) (hk : ∀ f ∈ fullFields c, g.key ≠ f.key) :
    (goFull c id s).rd g = s.rd g :=
  (frame_goFull (fs := fullFields c) (ps := [.fw]) (fun _ h => h) (by simp) (Frame.refl _ _ s)).rd hk hg

/-- What a channel's owner and state read from stands while a message goes into another channel. -/
theorem goFull_other {c d : Fin 16} (h : c ≠ d) (id : Nat) (s : State) :
    (goFull c.val id s).mbxState d.val = s.mbxState d.val ∧ (goFull c.val id s).mbxOwner d.val = s.mbxOwner d.val ∧
      (goFull c.val id s).on (R.MBX_STAT_ORPHAN d.val) = s.on (R.MBX_STAT_ORPHAN d.val) := by
  have hne : c.val ≠ d.val := fun e => h (Fin.ext e)
  refine ⟨rd_goFull_ne _ _ _ (side_mbxState _) ?_, rd_goFull_ne _ _ _ (side_mbxOwner _) ?_, ?_⟩
  · intro f hf
    simp only [fullFields, List.mem_cons, List.not_mem_nil, or_false] at hf
    rcases hf with rfl | rfl | rfl | rfl <;>
      simp only [R.MBX_STAT_STATE, R.MBX_STAT_LAST_SENDER, R.MBX_DATA_DATA, R.MBX_EVT_BITS, Field.mk'] <;> omega
  · intro f hf
    simp only [fullFields, List.mem_cons, List.not_mem_nil, or_false] at hf
    rcases hf with rfl | rfl | rfl | rfl <;>
      simp only [R.MBX_STAT_OWNER, R.MBX_STAT_STATE, R.MBX_STAT_LAST_SENDER, R.MBX_DATA_DATA, R.MBX_EVT_BITS, Field.mk'] <;> omega
  · rw [State.on, State.on, rd_goFull_ne _ _ _ (side_mbxOrphan _)]
    intro f hf
    simp only [fullFields, List.mem_cons, List.not_mem_nil, or_false] at hf
    rcases hf with rfl | rfl | rfl | rfl <;>
      simp only [R.MBX_STAT_ORPHAN, R.MBX_STAT_STATE, R.MBX_STAT_LAST_SENDER, R.MBX_DATA_DATA, R.MBX_EVT_BITS, Field.mk'] <;> omega

theorem touches_full (c id : Nat) (s : State) : Touches [.fw, .regs .mbx] s (goFull c id s) :=
  touches_goFull c id s (by simp) (by simp) (Touches.refl _ s)

theorem rxDown_of_touches {s t : State} (h : Touches [.fw, .regs .mbx] s t) (c : Nat) : t.rxDown c = s.rxDown c := by
  have hrun : t.on R.DEV_DIE_STAT_KFW_RUN = s.on R.DEV_DIE_STAT_KFW_RUN := by
    rw [State.on, State.on, h.rd (b := .dev) (by simp) (by decide) (by decide)]
  have hfn : ∀ f, t.fnUp f = s.fnUp f := fun f => by rw [State.fnUp, State.fnUp, h.1 .pcie (by simp)]
  unfold State.rxDown
  split <;> simp only [hrun, hfn]

/-! ### The statement -/

theorem side_lastSender (c : Nat) : (R.MBX_STAT_LAST_SENDER c).side = false :=
  Field.side_of_low (by simp only [R.MBX_STAT_LAST_SENDER, Field.mk']; omega)

theorem mbxReceiver_classHost {c : Nat} (h : mbxReceiver c = 1 ∧ c < 8 ∨ mbxReceiver c = 2) : mbxReceiver c = classHost c := by
  unfold mbxReceiver at h ⊢
  unfold classHost
  by_cases h1 : c < 4 ∨ 8 ≤ c ∧ c < 12
  · rw [if_pos h1] at h
    omega
  · rw [if_neg h1]

/-- MBX_STAT as written. -/
theorem statFields_apart (c : Nat) : (Reg.MBX_STAT c).fields.Pairwise fun a b => a.key ≠ b.key := by
  simp only [Reg.MBX_STAT, R.MBX_STAT_STATE, R.MBX_STAT_RX_DOWN, R.MBX_STAT_REJECT, R.MBX_STAT_STALE, R.MBX_STAT_WITHDRAWN,
    R.MBX_STAT_ORPHAN, R.MBX_STAT_OWNER, R.MBX_STAT_LAST_SENDER, Field.mk', List.pairwise_cons, List.mem_cons, List.not_mem_nil, or_false]
  simp

theorem statFields_side (c : Nat) : ∀ f ∈ (Reg.MBX_STAT c).fields, f.side = false := by
  intro f hf
  refine Field.side_of_low ?_
  simp only [Reg.MBX_STAT, List.mem_cons, List.not_mem_nil, or_false] at hf
  rcases hf with rfl | rfl | rfl | rfl | rfl | rfl | rfl | rfl <;>
    simp only [R.MBX_STAT_STATE, R.MBX_STAT_RX_DOWN, R.MBX_STAT_REJECT, R.MBX_STAT_STALE, R.MBX_STAT_WITHDRAWN,
      R.MBX_STAT_ORPHAN, R.MBX_STAT_OWNER, R.MBX_STAT_LAST_SENDER, Field.mk'] <;> omega

/-- The other registers' accesses that are rejected whatever the channel's state. -/
theorem other_rejected {s : State} {c : Fin 16} {r : MbxReg} {p : MbxPath} {w : Option Word}
    (h : (r = .stat ∧ ((w = none ∧ 8 ≤ c.val ∧ reachesSecure p = false) ∨ (w ≠ none ∧ s.barredOther c.val p = true)))
      ∨ (r = .ctl ∧ w = none ∧ s.barredOther c.val p = true) ∨ (r = .lock ∧ w ≠ none)) :
    mbxAccess c.val r p (w.map (·.toNat)) s.begin = reject c.val p (mbxRegAddr c.val r) w.isNone s.begin := by
  rcases h with ⟨rfl, ⟨rfl, h8, hp⟩ | ⟨hw, hbar⟩⟩ | ⟨rfl, rfl, hbar⟩ | ⟨rfl, hw⟩
  · exact if_pos (by simp [h8, hp])
  · obtain ⟨v, rfl⟩ := Option.ne_none_iff_exists'.1 hw
    exact if_pos hbar
  · exact if_pos hbar
  · obtain ⟨v, rfl⟩ := Option.ne_none_iff_exists'.1 hw
    rfl

/-- A rejected access that the guard lets by. -/
theorem access_rejected {s : State} {c : Fin 16} {r : MbxReg} {p : MbxPath} {w : Option Word} (h : c.val < 8 ∨ p ≠ .host 0)
    (hr : mbxAccess c.val r p (w.map (·.toNat)) s.begin = reject c.val p (mbxRegAddr c.val r) w.isNone s.begin) :
    ∃ t, exec (.mbxDataAccess c r p w) s = .next t ∧ Rejected c.val p (mbxRegAddr c.val r) w.isNone s t := by
  rw [exec_mbxData]
  exact rejected_of_go ((guarded_open h).trans hr)

/-! ### WITHDRAW by the firmware (R416) -/

theorem side_withdrawn (c : Nat) : (R.MBX_STAT_WITHDRAWN c).side = false :=
  Field.side_of_low (by simp only [R.MBX_STAT_WITHDRAWN, Field.mk']; omega)

theorem withdrawn_ne_event (c : Fin 16) : (R.MBX_STAT_WITHDRAWN c.val).key ≠ (R.MBX_EVT_BITS (c.val / 8)).key := by
  revert c
  decide

theorem rd_withdrawMsg (c : Fin 16) (s : State) : (withdrawMsg c.val s).rd (R.MBX_STAT_WITHDRAWN c.val) = 1 := by
  rw [withdrawMsg, rd_mbxEvent_ne _ _ _ (side_withdrawn _) (withdrawn_ne_event c)]
  exact rd_wr_same _ _ _

theorem emptyFields_ne_withdrawn {c : Nat} {g : Field} (h : g ∈ emptyFields c) : g.key ≠ (R.MBX_STAT_WITHDRAWN c).key := by
  rcases List.mem_append.1 h with h | h
  · simp only [List.mem_cons, List.not_mem_nil, or_false] at h
    rcases h with rfl | rfl | rfl <;> simp only [R.MBX_STAT_STATE, R.MBX_STAT_OWNER, R.MBX_STAT_ORPHAN, R.MBX_STAT_WITHDRAWN, Field.mk'] <;> omega
  · obtain ⟨k, hk, rfl⟩ := List.mem_map.1 h
    have hk' := List.mem_range.1 hk
    simp only [R.MBX_DATA_DATA, R.MBX_STAT_WITHDRAWN, Field.mk']; omega

theorem isEmpty_withdrawMsg (c : Nat) (s : State) : IsEmpty c (withdrawMsg c s) :=
  IsEmpty.mbxEvent c 3 ((isEmpty_mbxEmpty c s).of_rd fun _ hg => rd_wr_ne _ _ (emptyFields_ne_withdrawn hg))

theorem frame_withdrawMsg {fs : List Field} {ps : List Part} {s₀ s : State} {c : Nat}
    (hf : ∀ f ∈ [R.MBX_STAT_STATE c, R.MBX_STAT_OWNER c, R.MBX_STAT_ORPHAN c, R.MBX_STAT_WITHDRAWN c, R.MBX_EVT_BITS (c / 8)] ++
      (mbxWords.map (fun k => R.MBX_DATA_DATA (c * 16 + k))), f ∈ fs)
    (hm : Part.mbx ∈ ps) (hw : Part.fw ∈ ps) (h : Frame fs ps s₀ s) : Frame fs ps s₀ (withdrawMsg c s) := by
  refine frame_mbxEvent (hf _ (by simp)) (frame_hi (hf _ (by simp)) (frame_mbxEmpty (fun f h => hf f ?_) hm hw h))
  simp only [List.mem_append, List.mem_cons, List.not_mem_nil, or_false] at h ⊢
  tauto

/-- Two owners' GOs in a cycle, the lower channel's first. -/
theorem twoGos {s : State} {c d : Fin 16} {p q : MbxPath} {w v : Word} (hlt : c.val < d.val) (hoc : s.asOwner c.val p = true)
    (hod : s.asOwner d.val q = true) (hsc : s.mbxState c.val = 1) (hsd : s.mbxState d.val = 1) (hw : (w.toNat ||| 1) % 16 = 1)
    (hv : v.toNat % 16 = 1) : ∃ t, exec (.mbxGo d q w [(c, p, v)]) s = .next t ∧
      Ended s (goFull d.val (pathId q) (goFull c.val (pathId p) s.begin)) t := by
  have hne : d ≠ c := fun h => by rw [h] at hlt; exact lt_irrefl _ hlt
  have hfirst : ctlEffect c.val p v.toNat s.begin = goFull c.val (pathId p) s.begin := by
    rw [ctlEffect, guarded_open (open_of_owner hoc), ctl_go hv, if_pos]
    simp [show s.begin.asOwner c.val p = true from hoc, show s.begin.mbxState c.val = 1 from hsc]
  obtain ⟨hst, hown, horphan⟩ := goFull_other hne.symm (pathId p) s.begin
  have hdown := rxDown_of_touches (touches_full c.val (pathId p) s.begin) d.val
  have hod' : (goFull c.val (pathId p) s.begin).asOwner d.val q = true := by
    obtain ⟨h1, h2, h3, h4⟩ := asOwner_iff.1 hod
    exact asOwner_iff.2 ⟨h1.trans hown.symm, horphan.trans h2, hdown.trans h3, h4⟩
  have hboth : goTogether [(d, q, (R.MBX_CTL_GO d.val).setIn w.toNat), (c, p, v.toNat)] s.begin =
      goFull d.val (pathId q) (goFull c.val (pathId p) s.begin) := by
    rw [goTogether_two hlt, hfirst, ctlEffect, guarded_open (open_of_owner hod), ctl_go ((setIn_mod d.val w.toNat).1.trans hw), if_pos]
    rw [hod', hst, show s.begin.mbxState d.val = 1 from hsd]
    rfl
  exact go_ended_of hboth

theorem twoGos_show {s : State} {c d : Fin 16} {p q : MbxPath} {w v : Word} (hlt : c.val < d.val) (hc : mbxReceiver c.val = 3)
    (hd : mbxReceiver d.val = 3) (hoc : s.asOwner c.val p = true)
    (hod : s.asOwner d.val q = true) (hsc : s.mbxState c.val = 1) (hsd : s.mbxState d.val = 1) (hw : (w.toNat ||| 1) % 16 = 1)
    (hv : v.toNat % 16 = 1) : ∃ t, exec (.mbxGo d q w [(c, p, v)]) s = .next t ∧ t.mbxState c.val = 2 ∧ t.mbxState d.val = 2 ∧
      t.fw.queue = s.fw.queue ++ [fullCmd c.val (pathId p) s, fullCmd d.val (pathId q) s] ∧ Touches [.fw, .regs .mbx] s t := by
  obtain ⟨t, e, k⟩ := twoGos hlt hoc hod hsc hsd hw hv
  have hne : d ≠ c := fun h => by rw [h] at hlt; exact lt_irrefl _ hlt
  have ht : Touches [.fw, .regs .mbx] s (goFull c.val (pathId p) s.begin) := touches_goFull _ _ _ (by simp) (by simp) (touches_begin _ s)
  have hcmd : fullCmd d.val (pathId q) (goFull c.val (pathId p) s.begin) = fullCmd d.val (pathId q) s := by
    rw [fullCmd, State.on, ht.rd (b := .mor) (by simp) (by decide) (by decide)]
    rfl
  refine ⟨t, e, ?_, (k.rd (side_mbxState _)).trans (rd_goFull_state _ _ _), ?_, k.touches (touches_goFull _ _ _ (by simp) (by simp) ht)⟩
  · exact (k.rd (side_mbxState _)).trans ((goFull_other hne _ _).1.trans (rd_goFull_state _ _ _))
  · rw [k.fw, goFull_fw, goFull_fw, if_pos hc, if_pos hd, hcmd]
    exact List.append_assoc s.fw.queue _ _

/-- PF0 before a secure channel (R403). -/
theorem dataAccess_pf0 :
    ∀ (s : State) (c k : Fin 16) (w : Option Word),
    let a := 0x100000 + c.val * 0x80 + 4 * k.val
    8 ≤ c.val →
    ∃ t, exec (.mbxDataAccess c (.data k) (.host 0) w) s = .next t ∧
      Output.aer 0 a false ∈ t.out ∧
      (w = none → t.out.head? = some (.readData 0xFFFFFFFF)) ∧
      Frame [] [] s t := by
  intro s c k w a h8
  have hu : guarded c.val (.host 0) (mbxRegAddr c.val (.data k)) w.isNone (mbxAccess c.val (.data k) (.host 0) (w.map (·.toNat))) s.begin =
      unsupported a w.isNone s.begin := by
    have ha : mbxRegAddr c.val (.data k) = a := dataAddr c k
    rw [guarded_pf0 h8, ha]
  rw [exec_mbxData]
  have ht : Touches [] s (unsupported a w.isNone s.begin) :=
    touches_ite (touches_State_emit (touches_State_emit (touches_begin _ s))) (touches_State_emit (touches_begin _ s))
  obtain ⟨t, e, hout, k'⟩ := go_exact_of hu ht (by decide)
  refine ⟨t, e, ?_, fun hw => ?_, k'.frame (frame_ite (frame_emit (frame_emit (frame_begin s))) (frame_emit (frame_begin s)))⟩
  · rw [hout]
    cases w <;> simp [unsupported, State.emit]
  · rw [hout, hw]
    rfl

/-- A reply to a host or the firmware (R407). -/
theorem done_shows :
    ∀ (s : State) (c : Fin 16) (p : MbxPath) (w : Word),
    s.asReceiver c.val p = true →
    s.mbxState c.val = 2 →
    s.on (R.MBX_STAT_ORPHAN c.val) = false →
    s.mbxOwner c.val < 8 →
    (w.toNat ||| 2) % 16 = 2 →
    ∃ t, exec (.mbxDone c p w) s = .next t ∧
      t.rd (R.MBX_STAT_STATE c.val) = 3 ∧
      t.rd (R.MBX_DATA_DATA (c.val * 16 + 1)) = s.rd (R.MBX_DATA_DATA (c.val * 16 + 1)) % 2 ^ 24 + pathId p * 2 ^ 24 ∧
      (t.mbox c.val).holdAt = s.clk ∧
      (t.mbox c.val).doneAt = some s.tick.count ∧
      (t.fw = (if s.mbxOwner c.val = 3 then { s.fw with postStatus := IMap.put 0 s.fw.postStatus c.val (t.rd (R.MBX_DATA_DATA (c.val * 16 + 2)) % 256) } else s.fw)) ∧
      (s.mbxOwner c.val = classHost c.val → bit (t.rd (R.MBX_EVT_BITS (c.val / 8))) (8 + c.val % 8) = true) ∧
      Frame [R.MBX_STAT_STATE c.val, R.MBX_DATA_DATA (c.val * 16 + 1), R.MBX_EVT_BITS (c.val / 8)] [.mbx, .fw] s t := by
  intro s c p w hr hst horphan hown hw
  have hreply : agentReply c.val (goReplied c.val s.begin) = goReplied c.val s.begin :=
    agentReply_host (.inr (by rw [owner_replied (s := s.begin) horphan]; exact hown))
  obtain ⟨t, e, k⟩ := go_ended_of ((done_effect hr hst hw).trans hreply)
  have hrec : mbxReceiver c.val = pathId p := (asReceiver_iff.1 hr).1.symm
  have hmbox := (mbox_congr c.val k.mbx).trans (goReplied_mbox (s := s.begin) horphan)
  have hdata : t.rd (R.MBX_DATA_DATA (c.val * 16 + 2)) = s.rd (R.MBX_DATA_DATA (c.val * 16 + 2)) := by
    refine (k.rd (side_mbxData _)).trans ((rd_goReplied (s := s.begin) horphan (side_mbxData _) ?_).trans (rd_repliedBase_ne _ _ ?_ ?_)) <;>
      simp only [R.MBX_DATA_DATA, R.MBX_EVT_BITS, R.MBX_STAT_STATE, Field.mk'] <;> omega
  refine ⟨t, (exec_mbxDone c p w s).trans e, (k.rd (side_mbxState _)).trans (rd_goReplied_state (s := s.begin) horphan), ?_, by rw [hmbox]; rfl,
    by rw [hmbox]; rfl, ?_, fun hc => ?_, k.frame (frame_goReplied (s := s.begin) horphan (fun f hf => hf) (by simp) (by simp) (frame_begin s))⟩
  · rw [k.rd (side_mbxData _), rd_goReplied_stamp (s := s.begin) horphan, hrec]
    rfl
  · rw [hdata]
    exact k.fw.trans (goReplied_fw (s := s.begin) horphan)
  · rw [k.rd (g := R.MBX_EVT_BITS (c.val / 8)) (side_mbxEvt _)]
    exact bit_goReplied (s := s.begin) horphan hc

/-- A reply to a peer, with no RELAY frame waiting (R410). -/
theorem done_relayed_idle :
    ∀ (s : State) (c : Fin 16) (p : MbxPath) (w : Word),
    s.asReceiver c.val p = true →
    s.mbxState c.val = 2 →
    s.on (R.MBX_STAT_ORPHAN c.val) = false →
    8 ≤ s.mbxOwner c.val →
    s.stack.relayQ = [] →
    (w.toNat ||| 2) % 16 = 2 →
    ∃ t, exec (.mbxDone c p w) s = .next t ∧
      t.rd (R.MBX_STAT_STATE c.val) = 0 ∧
      (∀ k : Fin 16, t.rd (R.MBX_DATA_DATA (c.val * 16 + k.val)) = 0) ∧
      (∀ l, s.relayLink (s.mbxOwner c.val - 7) = some l → t.out.length = s.out.length + 1) ∧
      Touches [.log, .stack, .mbx, .fw, .regs .mbx, .regs .wch] s t := by
  intro s c p w hr hst horphan h8 hq hw
  obtain ⟨pkt, hu⟩ := doneRow_peer hr hst horphan h8 hw
  have hidle : agentRun (mbxEmpty c.val (sendRelay (s.mbxOwner c.val - 7) pkt (goReplied c.val s.begin))) =
      mbxEmpty c.val (sendRelay (s.mbxOwner c.val - 7) pkt (goReplied c.val s.begin)) := agentRun_idle (by
    have h1 : ∀ u, (mbxEmpty c.val u).stack = u.stack := fun u =>
      (touches_mbxEmpty (ps := [.mbx, .fw, .regs .mbx]) c.val u (by simp) (by simp) (by simp) (Touches.refl _ u)).1 .stack (by simp)
    rw [h1, sendRelay_relayQ, show (goReplied c.val s.begin).stack = s.stack from (touches_replied s c.val).1 .stack (by simp), hq])
  obtain ⟨t, e, hout, k⟩ := go_exact_running (hu.trans hidle) (touches_relayed s c.val _ pkt) (by decide) (relayed_running horphan _ pkt)
  have hempty := (isEmpty_mbxEmpty c.val _).ended k
  exact ⟨t, (exec_mbxDone c p w s).trans e, hempty.state, hempty.data, fun l hl => by rw [hout, relayed_out horphan h8 hl],
    touches_ctlBase (k.touches (touches_relayed s c.val _ pkt))⟩

/-- A reply to a peer with RELAY frames waiting. -/
theorem done_relayed_queued :
    ∀ (s : State) (c : Fin 16) (p : MbxPath) (w : Word),
    s.asReceiver c.val p = true →
    s.mbxState c.val = 2 →
    s.on (R.MBX_STAT_ORPHAN c.val) = false →
    8 ≤ s.mbxOwner c.val →
    s.stack.relayQ ≠ [] →
    (w.toNat ||| 2) % 16 = 2 →
    ∃ t, exec (.mbxDone c p w) s = .next t ∧
      t.stack.relayQ.length ≤ s.stack.relayQ.length ∧
      Touches [.log, .stack, .mbx, .fw, .regs .mbx, .regs .wch] s t := by
  intro s c p w hr hst horphan h8 hq hw
  obtain ⟨pkt, hu⟩ := doneRow_peer hr hst horphan h8 hw
  obtain ⟨t, e, k⟩ := go_ended_of hu
  have hkeep : (mbxEmpty c.val (sendRelay (s.mbxOwner c.val - 7) pkt (goReplied c.val s.begin))).stack.relayQ = s.stack.relayQ := by
    have h1 : ∀ u, (mbxEmpty c.val u).stack = u.stack := fun u =>
      (touches_mbxEmpty (ps := [.mbx, .fw, .regs .mbx]) c.val u (by simp) (by simp) (by simp) (Touches.refl _ u)).1 .stack (by simp)
    rw [h1, sendRelay_relayQ, show (goReplied c.val s.begin).stack = s.stack from (touches_replied s c.val).1 .stack (by simp)]
  refine ⟨t, (exec_mbxDone c p w s).trans e, ?_, touches_ctlBase (k.touches (touches_agentRun _ (by simp) (by simp) (by simp)
    (touches_relayed s c.val _ pkt)))⟩
  rw [k.stack, ← hkeep]
  exact relayQ_agentFeed 9 _

/-- A rejected access of MBX_STAT, MBX_CTL or MBX_LOCK (R402, R409, R411). -/
theorem other_shows :
    ∀ (s : State) (c : Fin 16) (r : MbxReg) (p : MbxPath) (w : Option Word),
    let a : Nat := 0x100000 + c.val * 0x80 + (match r with
      | .ctl => 0x40
      | .lock => 0x44
      | _ => 0x48)
    (r = .stat ∨ r = .ctl ∨ r = .lock) →
    (c.val < 8 ∨ p ≠ .host 0) →
    ((r = .stat ∧ ((w = none ∧ 8 ≤ c.val ∧ reachesSecure p = false) ∨ (w ≠ none ∧ s.barredOther c.val p = true)))
      ∨ (r = .ctl ∧ w = none ∧ s.barredOther c.val p = true) ∨ (r = .lock ∧ w ≠ none)) →
    ∃ t, exec (.mbxDataAccess c r p w) s = .next t ∧
      t.rd (R.MBX_STAT_REJECT c.val) = 1 ∧
      bit (t.rd (R.MBX_EVT_BITS (c.val / 8))) (16 + c.val % 8) = true ∧
      (∀ fn : Fin 2, p = .host fn → Output.aer fn.val a w.isNone ∈ t.out) ∧
      ((∀ fn : Fin 2, p ≠ .host fn) → Output.pathError (pathId p) w.isNone ∈ t.out) ∧
      (w = none → t.out.head? = some (.lockRead (pathId p) 0xFFFFFFFF)) ∧
      (8 ≤ c.val → (reachesSecure p = false ∨ (12 ≤ c.val ∧ pathId p = 2)) →
        IMap.get {} t.log (s.rd R.LOG_NEXT_SEQ % logSize) = { seq := s.rd R.LOG_NEXT_SEQ, time := s.ts0, event := 0x0E01, unit := c.val, sender := pathId p, data := le 4 (a - 0x100000 - c.val * 0x80) }) ∧
      Frame ([R.MBX_STAT_REJECT c.val, R.MBX_EVT_BITS (c.val / 8)] ++ logFields) [.log] s t := by
  intro s c r p w a hr hopen hno
  have ha : mbxRegAddr c.val r = a := by
    rcases hr with rfl | rfl | rfl
    · exact mbxStatAddr c
    · exact ctlAddr c
    · exact lockAddr c
  obtain ⟨t, e, k⟩ := access_rejected hopen (other_rejected hno)
  rw [ha] at k
  refine ⟨t, e, k.noted, k.event, k.aer, k.path, fun hw => k.head (by rw [hw]; rfl), fun h8 h => ?_, k.frame⟩
  rw [Nat.sub_sub]
  exact (k.record (rejectLogged_true ⟨h8, h⟩)).2

/-- WITHDRAW by the firmware (R416). -/
theorem withdraw_shows :
    ∀ (s : State) (c : Fin 16) (p : MbxPath) (w : Word),
    s.asOwner c.val p = true →
    pathId p = 3 →
    s.mbxState c.val = 2 →
    w.toNat % 16 = 8 →
    ∃ t, exec (.mbxDataAccess c .ctl p (some w)) s = .next t ∧
      t.mbxState c.val = 0 ∧
      t.rd (R.MBX_STAT_WITHDRAWN c.val) = 1 ∧
      bit (t.rd (R.MBX_EVT_BITS (c.val / 8))) (24 + c.val % 8) = true ∧
      (∀ k : Fin 16, t.rd (R.MBX_DATA_DATA (c.val * 16 + k.val)) = 0) ∧
      Frame ([R.MBX_STAT_STATE c.val, R.MBX_STAT_OWNER c.val, R.MBX_STAT_ORPHAN c.val, R.MBX_STAT_WITHDRAWN c.val, R.MBX_EVT_BITS (c.val / 8)] ++ (mbxWords.map (fun k => R.MBX_DATA_DATA (c.val * 16 + k)))) [.mbx, .fw] s t := by
  intro s c p w ho h3 hst hw
  have hu : ctlEffect c.val p w.toNat s.begin = withdrawMsg c.val s.begin := by
    rw [ctlEffect, guarded_open (open_of_owner ho), ctl_withdraw hw, if_pos]
    simp [show s.begin.asOwner c.val p = true from ho, show s.begin.mbxState c.val = 2 from hst, h3]
  obtain ⟨t, e, k⟩ := go_ended_of hu
  have hempty := (isEmpty_withdrawMsg c.val s.begin).ended k
  refine ⟨t, (exec_mbxData c .ctl p (some w) s).trans e, hempty.state, (k.rd (side_withdrawn _)).trans (rd_withdrawMsg _ _), ?_, hempty.data,
    k.frame (frame_withdrawMsg (fun f hf => hf) (by simp) (by simp) (frame_begin s))⟩
  rw [k.rd (g := R.MBX_EVT_BITS (c.val / 8)) (side_mbxEvt _)]
  exact bit_mbxEvent c.val (by decide) _

theorem lockRegister_row {s : State} {c : Fin 16} {p : MbxPath} (h : c.val < 8 ∨ p ≠ .host 0) :
    exec (.mbxDataAccess c .lock p none) s = exec (.mbxLockRead c [p]) s := by
  have hlock : lockEffect c [p] s.begin = lockRead c.val [p] s.begin := by
    rw [lockEffect, if_neg]
    rw [List.mem_singleton]
    exact fun k => h.elim (fun h8 => absurd k.1 (not_le.2 h8)) fun hp => hp k.2.symm
  rw [exec_mbxLockRead, exec_mbxData]
  refine go_congr ((guarded_open h).trans ?_)
  rw [hlock]
  rfl

/-- Settles O39: each access by the rule of the operation it is, each rejected one by what a rejection shows. -/
theorem mailboxAccesses : Obligations.MailboxAccesses := by
  have hbits : ∀ c w, (R.MBX_CTL_GO c).setIn w % 2 = 1 ∧ (R.MBX_CTL_DONE c).setIn w / 2 % 2 = 1 ∧ (R.MBX_CTL_RELEASE c).setIn w / 4 % 2 = 1 :=
    fun c w => by
      have h1 := Field.of_setIn (R.MBX_CTL_GO c) w rfl
      have h2 := Field.of_setIn (R.MBX_CTL_DONE c) w rfl
      have h3 := Field.of_setIn (R.MBX_CTL_RELEASE c) w rfl
      simp only [Field.of, R.MBX_CTL_GO, R.MBX_CTL_DONE, R.MBX_CTL_RELEASE, Field.mk'] at *
      omega
  have hhold : ∀ (s : State) (c : Fin 16) (t : State), t.mbx = (restartHold c.val s.begin).mbx → (t.mbox c.val).holdAt = s.clk := by
    intro s c t h
    rw [mbox_congr c.val h, restartHold, mbox_modMbox_same]
    rfl
  refine ⟨fun s c k p ho hst => ?_, fun s c k p w ho hst => ?_, fun s c k p hr hst => ?_, fun s c k p w hr hst => ?_, ?_, ?_, ?_, ?_, ?_, ?_, ?_,
    ?_, ?_, ?_, ?_, ?_, ?_, ?_, ?_, ?_, ?_, ?_, ?_, ?_, ?_, ?_, ?_, ?_, ?_, ?_, ?_, ?_, ?_⟩
  · obtain ⟨hex, hu⟩ := exec_data_open (k := k) (w := none) (open_of_owner ho) (dataRead_owner (k := k) ho hst)
    obtain ⟨t, e, hout, k'⟩ := go_exact_of (ps := [.mbx]) hu
      (touches_State_emit (touches_restartHold _ _ (by simp) (touches_begin _ s))) (by decide)
    exact ⟨t, hex.trans e, hout, hhold s c t k'.mbx, k'.frame (frame_emit (frame_modMbox (by simp) (frame_begin s)))⟩
  · obtain ⟨hex, hu⟩ := exec_data_open (k := k) (w := some w) (open_of_owner ho) (dataWrite_owner (k := k) ho hst w.toNat)
    obtain ⟨t, e, k'⟩ := go_ended_of hu
    exact ⟨t, hex.trans e, (k'.rd (side_mbxData _)).trans ((rd_wr_same _ _ _).trans (Nat.mod_eq_of_lt w.isLt)), hhold s c t k'.mbx,
      k'.frame (frame_wr (by simp) (frame_modMbox (by simp) (frame_begin s)))⟩
  · obtain ⟨hex, hu⟩ := exec_data_open (k := k) (w := none) (open_of_receiver hr) (dataRead_receiver (k := k) hr hst)
    obtain ⟨t, e, hout, k'⟩ := go_exact_of (ps := []) hu (touches_State_emit (touches_begin _ s)) (by decide)
    exact ⟨t, hex.trans e, hout, k'.frame (frame_emit (frame_begin s))⟩
  · obtain ⟨hex, hu⟩ := exec_data_open (k := k) (w := some w) (open_of_receiver hr) (dataWrite_receiver (k := k) hr hst w.toNat)
    obtain ⟨t, e, k'⟩ := go_ended_of hu
    exact ⟨t, hex.trans e, (k'.rd (side_mbxData _)).trans ((rd_wr_same _ _ _).trans (Nat.mod_eq_of_lt w.isLt)),
      k'.frame (frame_wr (by simp) (frame_begin s))⟩
  · intro s c k p w a hopen h1 h2 hlog
    obtain ⟨t, e, r⟩ := data_rejected (k := k) hopen h1 h2
    exact ⟨t, e, r.noted, r.event, r.aer, r.path, fun hw => r.head (by rw [hw]; rfl), r.quiet (rejectLogged_false hlog)⟩
  · intro s c k p w hopen h1 h2 hlog
    obtain ⟨t, e, r⟩ := data_rejected (k := k) hopen h1 h2
    have hrec := (r.record (rejectLogged_true hlog)).2
    rw [Nat.add_sub_cancel_left] at hrec
    exact ⟨t, e, r.noted, r.event, hrec, r.frame⟩
  · exact dataAccess_pf0
  · intro s c p w ho hst hw
    obtain ⟨t, e, k⟩ := goRow ho hst hw
    refine ⟨t, e, (k.rd (side_mbxState _)).trans (rd_goFull_state _ _ _), (k.rd (side_mbxData _)).trans (rd_goFull_stamp _ (pathId_lt p) _),
      (k.rd (side_lastSender _)).trans (rd_goFull_lastSender _ (pathId_lt p) _), k.fw.trans (goFull_fw _ _ _), fun hrec => ?_,
      k.frame (frame_goFull (fun f hf => hf) (by simp) (frame_begin s))⟩
    rw [k.rd (g := R.MBX_EVT_BITS (c.val / 8)) (side_mbxEvt _)]
    exact bit_goFull _ _ _ (mbxReceiver_classHost hrec)
  · intro s c p w a hopen hlog hno
    rw [exec_mbxGo]
    obtain ⟨t, e, r⟩ := ctl_rejected hopen (ctl_go_rejected (s := s.begin) (by rw [(setIn_mod c.val w.toNat).1]; exact hno) (hbits _ _).1)
    exact ⟨t, e, r.noted, r.event, r.aer, r.path, r.quiet (rejectLogged_false hlog)⟩
  · exact done_shows
  · intro s c p w hr hst horphan hw
    have hreply : agentReply c.val (goReplied c.val s.begin) = mbxEmpty c.val s.begin := by
      rw [goReplied_orphan (s := s.begin) horphan]
      exact agentReply_host (.inl (by rw [State.mbxState, rd_mbxEmpty_state]; decide))
    obtain ⟨t, e, k⟩ := go_ended_of ((done_effect hr hst hw).trans hreply)
    have hempty := (isEmpty_mbxEmpty c.val s.begin).ended k
    exact ⟨t, (exec_mbxDone c p w s).trans e, hempty.state, hempty.owner, hempty.orphan, hempty.data,
      k.frame (frame_mbxEmpty (fun f hf => hf) (by simp) (by simp) (frame_begin s))⟩
  · exact done_relayed_idle
  · exact done_relayed_queued
  · intro s c p w hopen hlog hno
    rw [exec_mbxDone]
    obtain ⟨t, e, r⟩ := ctl_rejected hopen (ctl_done_rejected (s := s.begin) (by rw [(setIn_mod c.val w.toNat).2.1]; exact hno) (hbits _ _).2.1)
    exact ⟨t, e, r.noted, r.event, r.quiet (rejectLogged_false hlog)⟩
  · intro s c p w ho hst hq hw
    obtain ⟨t, e, k⟩ := go_ended_of ((release_effect ho hst hw).trans (agentRun_freed s c.val hq))
    have hempty := (isEmpty_mbxEmpty c.val s.begin).ended k
    exact ⟨t, (exec_mbxRelease c p w s).trans e, hempty.state, hempty.owner, hempty.data,
      k.frame (frame_mbxEmpty (fun f hf => hf) (by simp) (by simp) (frame_begin s))⟩
  · intro s c p w ho hst hne hw
    obtain ⟨t, e, k⟩ := go_ended_of (release_effect ho hst hw)
    have hrelay : relayChannel (mbxEmpty c.val s.begin) ≠ c.val := by
      rcases relayChannel_or (mbxEmpty c.val s.begin) with r | r <;> rw [r]
      · exact hne.1.symm
      · exact hne.2.symm
    have hempty := ((isEmpty_mbxEmpty c.val s.begin).agentRun c.isLt hrelay).ended k
    exact ⟨t, (exec_mbxRelease c p w s).trans e, hempty.state, hempty.owner, hempty.data, touches_ctlBase (k.touches (touches_freed s c.val))⟩
  · intro s c p w ho hst hc hq hw
    obtain ⟨t, e, k⟩ := go_ended_of (release_effect ho hst hw)
    have hkeep : (mbxEmpty c.val s.begin).stack = s.stack := (touches_empty s c.val).1 .stack (by simp)
    refine ⟨t, (exec_mbxRelease c p w s).trans e, ?_, fun hne => ?_, touches_ctlBase (k.touches (touches_freed s c.val))⟩
    · rw [k.stack, ← hkeep]
      exact relayQ_agentFeed 9 _
    · rw [← relayChannel_freed s c.val] at hne
      exact (((isEmpty_mbxEmpty c.val s.begin).agentRun c.isLt hne).ended k).state
  · intro s c p w hopen hlog hno
    rw [exec_mbxRelease]
    obtain ⟨t, e, r⟩ := ctl_rejected hopen (ctl_release_rejected (s := s.begin) (by rw [(setIn_mod c.val w.toNat).2.2]; exact hno) (hbits _ _).2.2)
    exact ⟨t, e, r.noted, r.event, r.quiet (rejectLogged_false hlog)⟩
  · intro s c p w hopen hlog hno
    rw [exec_mbxGo]
    obtain ⟨t, e, r⟩ := ctl_rejected hopen (ctl_go_rejected (s := s.begin) (by rw [(setIn_mod c.val w.toNat).1]; exact hno) (hbits _ _).1)
    have hrec := (r.record (rejectLogged_true hlog)).2
    rw [Nat.add_sub_cancel_left] at hrec
    exact ⟨t, e, r.noted, r.event, hrec, r.frame⟩
  · intro s c p w hopen hlog hno
    rw [exec_mbxDone]
    obtain ⟨t, e, r⟩ := ctl_rejected hopen (ctl_done_rejected (s := s.begin) (by rw [(setIn_mod c.val w.toNat).2.1]; exact hno) (hbits _ _).2.1)
    have hrec := (r.record (rejectLogged_true hlog)).2
    rw [Nat.add_sub_cancel_left] at hrec
    exact ⟨t, e, r.noted, r.event, hrec, r.frame⟩
  · intro s c p w hopen hlog hno
    rw [exec_mbxRelease]
    obtain ⟨t, e, r⟩ := ctl_rejected hopen (ctl_release_rejected (s := s.begin) (by rw [(setIn_mod c.val w.toNat).2.2]; exact hno) (hbits _ _).2.2)
    have hrec := (r.record (rejectLogged_true hlog)).2
    rw [Nat.add_sub_cancel_left] at hrec
    exact ⟨t, e, r.noted, r.event, hrec, r.frame⟩
  · intro s c w a h8
    rw [exec_mbxGo]
    exact ctl_unsupported h8
  · intro s c w a h8
    exact ctl_unsupported h8
  · intro s c w a h8
    exact ctl_unsupported h8
  · intro s c p hreach
    have hu : guarded c.val p (mbxRegAddr c.val .stat) true (mbxAccess c.val .stat p none) s.begin =
        s.begin.emit (.lockRead (pathId p) (s.mbxStat c.val)) := by
      refine (guarded_open (open_of_reach hreach)).trans (if_neg ?_)
      rcases hreach with k | k <;> simp [k]
    obtain ⟨t, e, hout, k⟩ := go_exact_of (ps := []) hu (touches_State_emit (touches_begin _ s)) (by decide)
    exact ⟨t, e, hout, k.frame (frame_emit (frame_begin s))⟩
  · intro s c p w hreach hbar
    have hu : guarded c.val p (mbxRegAddr c.val .stat) false (mbxAccess c.val .stat p (some w.toNat)) s.begin =
        s.begin.storeReg false (Reg.MBX_STAT c.val) w.toNat := by
      refine (guarded_open (open_of_reach hreach)).trans (if_neg ?_)
      rw [show s.begin.barredOther c.val p = false from hbar]
      exact Bool.false_ne_true
    obtain ⟨t, e, k⟩ := go_ended_of hu
    exact ⟨t, e, fun f hf => (k.rd (statFields_side _ f hf)).trans (rd_storeReg_mem _ _ _ _ hf (statFields_apart _)),
      k.frame (frame_storeReg (fun f hf => by simp [hf]) (frame_begin s))⟩
  · intro s c p hopen hbar
    have hu : guarded c.val p (mbxRegAddr c.val .ctl) true (mbxAccess c.val .ctl p none) s.begin = s.begin.emit (.lockRead (pathId p) 0) := by
      refine (guarded_open hopen).trans (if_neg ?_)
      rw [show s.begin.barredOther c.val p = false from hbar]
      exact Bool.false_ne_true
    obtain ⟨t, e, hout, k⟩ := go_exact_of (ps := []) hu (touches_State_emit (touches_begin _ s)) (by decide)
    exact ⟨t, e, hout, k.frame (frame_emit (frame_begin s))⟩
  · exact other_shows
  · intro s c p w
    have hbit : ∀ f : Field, bit w.toNat f.lsb = true → exec (.mbxDataAccess c .ctl p (some w)) s = go (ctlEffect c.val p (f.setIn w.toNat)) s :=
      fun f hf => by rw [setIn_of_bit hf]; rfl
    exact ⟨fun h => (hbit (R.MBX_CTL_GO c.val) h).trans (exec_mbxGo c p w s).symm, fun h => hbit (R.MBX_CTL_DONE c.val) h,
      fun h => hbit (R.MBX_CTL_RELEASE c.val) h⟩
  · exact withdraw_shows
  · intro s c p w hopen hno
    have hu : writeMbxCtl c.val p w.toNat s.begin = reject c.val p (Reg.MBX_CTL c.val).addr false s.begin := by
      rcases hno with h0 | ⟨hw, hno⟩
      · exact ctl_other (by omega) (by omega) (by omega) (by omega)
      · rw [ctl_withdraw hw, if_neg]
        have hno' : s.begin.asOwner c.val p = false ∨ pathId p ≠ 3 ∨ s.begin.mbxState c.val ≠ 2 := hno
        rcases hno' with k | k | k <;> simp [k]
    obtain ⟨t, e, k⟩ := access_rejected (r := .ctl) (w := some w) hopen hu
    exact ⟨t, e, k.noted, k.event, k.frame⟩
  · exact fun s c p hopen => lockRegister_row hopen
  · intro s c d p q w v hlt hc hd hoc hod hsc hsd hw hv _ _
    exact twoGos_show hlt hc hd hoc hod hsc hsd hw hv

end Sys2Proof.Machine
end

section
/-! PROOFS. Holds that expire, receivers that go down, crossings and notifications (R406, R411, R415, R416, R430; O40). -/

namespace Sys2Proof.Machine

/-! ### Time passes -/

theorem frame_waitClk {fs : List Field} {ps : List Part} {s₀ s : State} {x : Nat} (ht : Part.tick ∈ ps) (hl : Part.lanes ∈ ps)
    (h : Frame fs ps s₀ s) : Frame fs ps s₀ (s.waitClk x) := frame_advance ht hl h

theorem rd_waitClk (s : State) (x : Nat) {g : Field} (hg : g.side = false) : (s.waitClk x).rd g = s.rd g := rd_advance _ _ hg

theorem begin_waitClk (s : State) (x : Nat) : (s.begin.waitClk x).tick = (s.waitClk x).tick :=
  begin_advance_tick s _

theorem touches_waited (s : State) (x : Nat) : Touches [.tick, .lanes] s (s.begin.waitClk x) :=
  touches_State_waitClk _ _ (by simp) (by simp) (touches_begin _ s)

/-! ### Holds (R406) -/

theorem side_mbxStale (c : Nat) : (R.MBX_STAT_STALE c).side = false :=
  Field.side_of_low (by simp only [R.MBX_STAT_STALE, Field.mk']; omega)

/-- A channel whose hold has run out, before the relay agent runs. -/
def heldOut (c : Nat) (s : State) : State := bumpReg R.MBX_XCNT_STALE ((mbxEmpty c s).hi (R.MBX_STAT_STALE c))

/-- What it writes. -/
abbrev heldOutFields (c : Nat) : List Field :=
  [R.MBX_STAT_STATE c, R.MBX_STAT_OWNER c, R.MBX_STAT_ORPHAN c, R.MBX_STAT_STALE c, R.MBX_XCNT_STALE] ++ wordFields c

theorem touches_heldOut (c : Nat) (s : State) : Touches [.mbx, .fw, .regs .mbx] s (heldOut c s) :=
  touches_bumpReg (b0 := .mbx) _ _ (by decide) (by simp) (touches_State_wr (has_R_MBX_STAT_STALE c) (by simp)
    (touches_mbxEmpty c s (by simp) (by simp) (by simp) (Touches.refl _ s)))

theorem frame_heldOut {fs : List Field} {ps : List Part} {s₀ s : State} {c : Nat} (hf : ∀ f ∈ heldOutFields c, f ∈ fs)
    (hm : Part.mbx ∈ ps) (hw : Part.fw ∈ ps) (h : Frame fs ps s₀ s) : Frame fs ps s₀ (heldOut c s) := by
  refine frame_wr (hf _ (by simp)) (frame_hi (hf _ (by simp)) (frame_mbxEmpty (fun f h => hf f ?_) hm hw h))
  simp only [List.mem_append, List.mem_cons, List.not_mem_nil, or_false] at h ⊢
  tauto

theorem emptyFields_ne_stale {c : Nat} {g : Field} (h : g ∈ emptyFields c) : g.key ≠ (R.MBX_STAT_STALE c).key := by
  rcases List.mem_append.1 h with h | h
  · simp only [List.mem_cons, List.not_mem_nil, or_false] at h
    rcases h with rfl | rfl | rfl <;> simp only [R.MBX_STAT_STATE, R.MBX_STAT_OWNER, R.MBX_STAT_ORPHAN, R.MBX_STAT_STALE, Field.mk'] <;> omega
  · obtain ⟨k, hk, rfl⟩ := List.mem_map.1 h
    have hk' := List.mem_range.1 hk
    simp only [R.MBX_DATA_DATA, R.MBX_STAT_STALE, Field.mk']; omega

/-- A channel's fields lie below those of the channels' counts. -/
theorem emptyFields_ne_of_high {c : Nat} {g f : Field} (h : g ∈ emptyFields c) (hf : 0x2010000 ≤ f.key) : g.key ≠ f.key :=
  ne_of_lt (lt_of_lt_of_le (emptyFields_range h).2 hf)

theorem isEmpty_heldOut (c : Nat) (s : State) : IsEmpty c (heldOut c s) :=
  (isEmpty_mbxEmpty c s).of_rd fun _ hg => (rd_wr_ne _ _ (emptyFields_ne_of_high hg (by decide))).trans (rd_wr_ne _ _ (emptyFields_ne_stale hg))

theorem stale_ne_count (c : Fin 16) : (R.MBX_STAT_STALE c.val).key ≠ R.MBX_XCNT_STALE.key := by
  revert c
  decide

theorem rd_heldOut_stale (c : Fin 16) (s : State) : (heldOut c.val s).rd (R.MBX_STAT_STALE c.val) = 1 :=
  (rd_wr_ne _ _ (stale_ne_count c)).trans (rd_hi_same _ _)

theorem rd_heldOut_count (c : Fin 16) (s : State) : (heldOut c.val s).rd R.MBX_XCNT_STALE = satNat 16 (s.rd R.MBX_XCNT_STALE + 1) := by
  have hkeep : ((mbxEmpty c.val s).hi (R.MBX_STAT_STALE c.val)).rd R.MBX_XCNT_STALE = s.rd R.MBX_XCNT_STALE :=
    (rd_wr_ne _ _ (stale_ne_count c).symm).trans ((frame_mbxEmpty (fs := emptyFields c.val) (ps := [.mbx, .fw]) (fun _ h => h) (by simp)
      (by simp) (Frame.refl _ _ s)).rd (fun f hf => (emptyFields_ne_of_high hf (by decide)).symm) (by decide))
  refine (rd_wr_same _ _ _).trans ?_
  rw [hkeep]
  exact Nat.mod_eq_of_lt (satNat_lt 16 _)

/-- The bits of MBX_STAT that note what befell a channel are none of the agent's fields. -/
theorem stale_ne_agent (c : Fin 16) (d : Nat) : ∀ f ∈ agentFields d, (R.MBX_STAT_STALE c.val).key ≠ f.key := by
  intro f hf
  have hc := c.isLt
  rcases List.mem_append.1 hf with hf | hf
  · simp only [List.mem_cons, List.not_mem_nil, or_false] at hf
    rcases hf with rfl | rfl | rfl | rfl <;>
      simp only [R.MBX_STAT_STALE, R.MBX_STAT_STATE, R.MBX_STAT_OWNER, R.MBX_STAT_LAST_SENDER, R.MBX_EVT_BITS, Field.mk'] <;> omega
  · obtain ⟨k, hk, rfl⟩ := List.mem_map.1 hf
    have hk' := List.mem_range.1 hk
    simp only [R.MBX_STAT_STALE, R.MBX_DATA_DATA, Field.mk']; omega

theorem staleCount_ne_agent {d : Nat} (hd : d < 16) : ∀ f ∈ agentFields d, R.MBX_XCNT_STALE.key ≠ f.key := by
  intro f hf
  rcases List.mem_append.1 hf with hf | hf
  · simp only [List.mem_cons, List.not_mem_nil, or_false] at hf
    rcases hf with rfl | rfl | rfl | rfl <;>
      simp only [R.MBX_XCNT_STALE, R.MBX_STAT_STATE, R.MBX_STAT_OWNER, R.MBX_STAT_LAST_SENDER, R.MBX_EVT_BITS, Field.mk'] <;> omega
  · obtain ⟨k, hk, rfl⟩ := List.mem_map.1 hf
    have hk' := List.mem_range.1 hk
    simp only [R.MBX_XCNT_STALE, R.MBX_DATA_DATA, Field.mk']; omega

theorem relayChannel_lt (s : State) : relayChannel s < 16 := by
  rcases relayChannel_or s with k | k <;> rw [k] <;> decide

section
variable {s : State} {c : Fin 16}

/-- The instant of a channel's hold running out. -/
def holdDue (c : Nat) (s : State) : Nat := (s.mbox c).holdAt + us16 (100 * max 1 (s.rd R.MBX_CFG_LOCK_HOLD))

/-- The state the relay agent finds. -/
def holdEnd (c : Nat) (s : State) : State := heldOut c (s.begin.waitClk (holdDue c s))

theorem lockHoldExpire_held (h : s.mbxState c.val = 1 ∨ s.mbxState c.val = 3) :
    lockHoldExpire c.val s.begin = agentRun (holdEnd c.val s) := if_pos h

theorem touches_holdEnd (s : State) (c : Nat) : Touches [.tick, .lanes, .mbx, .fw, .regs .mbx] s (holdEnd c s) :=
  ((touches_waited s _).mono (by simp)).trans ((touches_heldOut c _).mono (by simp))

theorem holdEnd_tick (s : State) (c : Nat) : (holdEnd c s).tick = (s.waitClk (holdDue c s)).tick :=
  ((touches_heldOut c _).1 .tick (by simp)).trans (begin_waitClk s _)

theorem relayChannel_holdEnd (s : State) (c : Nat) : relayChannel (holdEnd c s) = relayChannel s := by
  have hrd : (holdEnd c s).rd R.MOR_RELAY_CFG_RELAY_SEC = s.rd R.MOR_RELAY_CFG_RELAY_SEC :=
    (touches_holdEnd s c).rd (b := .mor) (by simp) (by decide) (by decide)
  rw [relayChannel, relayChannel, State.on, State.on, hrd]

theorem holdEnd_relayQ (s : State) (c : Nat) : (holdEnd c s).stack.relayQ = s.stack.relayQ :=
  congrArg Stack.relayQ ((touches_holdEnd s c).1 .stack (by simp))

theorem rd_agentRun_stale (c : Fin 16) (s : State) : (agentRun s).rd (R.MBX_STAT_STALE c.val) = s.rd (R.MBX_STAT_STALE c.val) :=
  rd_agentRun_ne s (side_mbxStale _) (stale_ne_agent c _)

theorem rd_agentRun_staleCount (s : State) : (agentRun s).rd R.MBX_XCNT_STALE = s.rd R.MBX_XCNT_STALE :=
  rd_agentRun_ne s (by decide) (staleCount_ne_agent (relayChannel_lt s))

theorem rd_holdEnd_count (c : Fin 16) (s : State) : (holdEnd c.val s).rd R.MBX_XCNT_STALE = satNat 16 (s.rd R.MBX_XCNT_STALE + 1) := by
  rw [holdEnd, rd_heldOut_count, rd_waitClk _ _ (by decide)]
  rfl

/-- A hold that runs out, whatever the relay agent then does. -/
theorem holdRow (h : s.mbxState c.val = 1 ∨ s.mbxState c.val = 3) : ∃ t, exec (.lockHoldExpire c) s = .next t ∧
    Ended s (agentRun (holdEnd c.val s)) t := go_ended_of (lockHoldExpire_held h)

theorem holdRow_touches {t : State} (k : Ended s (agentRun (holdEnd c.val s)) t) :
    Touches [.tick, .lanes, .log, .stack, .mbx, .fw, .regs .mbx, .regs .wch] s t :=
  (k.touches (touches_agentRun (ps := [.tick, .lanes, .stack, .mbx, .fw, .regs .mbx]) _ (by simp) (by simp) (by simp)
    ((touches_holdEnd s c.val).mono (by simp)))).mono (by simp)

theorem holdRow_stale {t : State} (k : Ended s (agentRun (holdEnd c.val s)) t) : t.rd (R.MBX_STAT_STALE c.val) = 1 :=
  (k.rd (side_mbxStale _)).trans ((rd_agentRun_stale c _).trans (rd_heldOut_stale c _))

theorem holdRow_count {t : State} (k : Ended s (agentRun (holdEnd c.val s)) t) :
    t.rd R.MBX_XCNT_STALE = satNat 16 (s.rd R.MBX_XCNT_STALE + 1) :=
  (k.rd (by decide)).trans ((rd_agentRun_staleCount _).trans (rd_holdEnd_count c s))

theorem holdRow_empty {t : State} (k : Ended s (agentRun (holdEnd c.val s)) t) (h : relayChannel s ≠ c.val) : IsEmpty c.val t :=
  ((isEmpty_heldOut c.val _).agentRun c.isLt (by rw [← relayChannel_holdEnd s c.val] at h; exact h)).ended k

end

/-! ### Receivers that go down (R411) -/

section
variable {s : State} {c : Fin 16}

theorem abortMsg_idle {c : Nat} {s : State} (h : s.mbxState c ≠ 2) : abortMsg c s = s := if_neg h

theorem abortMsg_orphan {c : Nat} {s : State} (h : s.mbxState c = 2) (ho : s.on (R.MBX_STAT_ORPHAN c) = true) :
    abortMsg c s = mbxEmpty c s := (if_pos h).trans (if_pos ho)

/-- A message that ends ABORTED: its third word's status byte. -/
def aborted (c : Nat) (s : State) : State := s.wr (R.MBX_DATA_DATA (c * 16 + 2)) (s.rd (R.MBX_DATA_DATA (c * 16 + 2)) / 256 * 256 + 8)

theorem abortMsg_live {c : Nat} {s : State} (h : s.mbxState c = 2) (ho : s.on (R.MBX_STAT_ORPHAN c) = false) :
    abortMsg c s = goReplied c (aborted c s) := (if_pos h).trans (if_neg (by rw [ho]; decide))

/-- The abort of one channel's message leaves every other channel. -/
theorem same_abortMsg {d : Nat} (hd : c.val ≠ d % 16) {s₀ : State} (h : SameChannel c s₀ s) : SameChannel c s₀ (abortMsg d s) := by
  by_cases hst : s.mbxState d = 2
  · cases ho : s.on (R.MBX_STAT_ORPHAN d) with
    | true =>
      rw [abortMsg_orphan hst ho]
      exact same_mbxEmpty hd h
    | false =>
      have ho' : (aborted d s).on (R.MBX_STAT_ORPHAN d) = false := by
        rw [State.on, aborted, rd_wr_ne _ _ (by simp only [R.MBX_STAT_ORPHAN, R.MBX_DATA_DATA, Field.mk']; omega)]
        exact ho
      have hdata : ∀ k < 16, ¬onChannel c.val (R.MBX_DATA_DATA (d * 16 + k)).key := fun k hk => mt (onChannel_data_iff d hk).1 hd
      rw [abortMsg_live hst ho]
      exact (same_wr (mt (onChannel_state_iff d).1 hd) (same_stamp hd (same_wr (hdata 2 (by decide)) h))).trans
        (same_goReplied_reply d (s := aborted d s) (by rw [ho']; decide))
  · rw [abortMsg_idle hst]
    exact h

/-- In a walk over channels, one channel is as its own step finds and leaves it. -/
theorem foldl_channel (f : State → Nat → State) (l : List Nat) (hf : ∀ s, ∀ d ∈ l, d ≠ c.val → SameChannel c s (f s d)) (hc : c.val ∈ l)
    (hn : l.Nodup) (s : State) : ∃ u, SameChannel c s u ∧ SameChannel c (f u c.val) (l.foldl f s) := by
  induction l generalizing s with
  | nil => cases hc
  | cons d l ih =>
    obtain ⟨hd, hn⟩ := List.nodup_cons.1 hn
    have hrest : ∀ s, ∀ e ∈ l, e ≠ c.val → SameChannel c s (f s e) := fun s e he => hf s e (List.mem_cons_of_mem _ he)
    by_cases hdc : d = c.val
    · subst hdc
      exact ⟨s, SameChannel.refl s, same_foldl (l := l) (SameChannel.refl (f s c.val)) fun u e he k =>
        k.trans (hrest u e he fun h => hd (h ▸ he))⟩
    · obtain ⟨u, h1, h2⟩ := ih hrest ((List.mem_cons.1 hc).resolve_left (Ne.symm hdc)) hn (f s d)
      exact ⟨u, (hf s d List.mem_cons_self hdc).trans h1, h2⟩

/-- The same of an abort of a receiver's messages. -/
theorem abortFor_channel (id : Nat) (hc : mbxReceiver c.val = id) (s : State) :
    ∃ u, SameChannel c s u ∧ SameChannel c (abortMsg c.val u) (abortFor id s) := by
  refine foldl_channel (c := c) (fun s c => abortMsg c s) (mbxIds.filter fun c => mbxReceiver c = id) (fun s d hd hne => ?_) ?_ ?_ s
  · refine same_abortMsg ?_ (SameChannel.refl s)
    have hlt : d < 16 := List.mem_range.1 (List.mem_filter.1 hd).1
    rw [Nat.mod_eq_of_lt hlt]
    exact Ne.symm hne
  · exact List.mem_filter.2 ⟨List.mem_range.2 c.isLt, decide_eq_true hc⟩
  · exact List.nodup_range.filter _

theorem onChannel_data (c k : Fin 16) : onChannel c.val (R.MBX_DATA_DATA (c.val * 16 + k.val)).key :=
  (onChannel_data_iff c.val k.isLt).2 (Nat.mod_eq_of_lt c.isLt).symm

theorem onChannel_state (c : Fin 16) : onChannel c.val (R.MBX_STAT_STATE c.val).key :=
  (onChannel_state_iff c.val).2 (Nat.mod_eq_of_lt c.isLt).symm

theorem onChannel_orphan (c : Fin 16) : onChannel c.val (R.MBX_STAT_ORPHAN c.val).key :=
  (onChannel_orphan_iff c.val).2 (Nat.mod_eq_of_lt c.isLt).symm

/-- A message FULL for the receiver ends REPLIED with ABORTED and the receiver's ID. -/
theorem abortFor_live (id : Nat) (hc : mbxReceiver c.val = id) (hst : s.mbxState c.val = 2) (ho : s.on (R.MBX_STAT_ORPHAN c.val) = false) :
    (abortFor id s).rd (R.MBX_STAT_STATE c.val) = 3 ∧
      (abortFor id s).rd (R.MBX_DATA_DATA (c.val * 16 + 2)) = s.rd (R.MBX_DATA_DATA (c.val * 16 + 2)) / 256 * 256 + 8 ∧
      (abortFor id s).rd (R.MBX_DATA_DATA (c.val * 16 + 1)) = s.rd (R.MBX_DATA_DATA (c.val * 16 + 1)) % 2 ^ 24 + id * 2 ^ 24 := by
  obtain ⟨u, hu, ht⟩ := abortFor_channel id hc s
  have hust : u.mbxState c.val = 2 := (hu _ (onChannel_state c)).trans hst
  have huo : u.on (R.MBX_STAT_ORPHAN c.val) = false := by
    rw [State.on, hu _ (onChannel_orphan c)]
    exact ho
  have hao : (aborted c.val u).on (R.MBX_STAT_ORPHAN c.val) = false := by
    rw [State.on, aborted, rd_wr_ne _ _ (by simp only [R.MBX_STAT_ORPHAN, R.MBX_DATA_DATA, Field.mk']; omega)]
    exact huo
  rw [abortMsg_live hust huo] at ht
  refine ⟨(ht _ (onChannel_state c)).trans (rd_goReplied_state hao), ?_, ?_⟩
  · refine (ht _ (onChannel_data c 2)).trans ((rd_goReplied hao (side_mbxData _) ?_).trans ((rd_repliedBase_ne _ _ ?_ ?_).trans
      ((rd_wr_same _ _ _).trans ?_)))
    · simp only [R.MBX_DATA_DATA, R.MBX_EVT_BITS, Field.mk']; omega
    · simp only [R.MBX_DATA_DATA, R.MBX_STAT_STATE, Field.mk']; omega
    · simp only [R.MBX_DATA_DATA, Field.mk']; omega
    · rw [show u.rd (R.MBX_DATA_DATA (c.val * 16 + 2)) = s.rd (R.MBX_DATA_DATA (c.val * 16 + 2)) from hu _ (onChannel_data c 2)]
      have hlt : s.rd (R.MBX_DATA_DATA (c.val * 16 + 2)) < 2 ^ 32 := rd_lt s _
      refine Nat.mod_eq_of_lt (lt_of_lt_of_le ?_ (le_refl (2 ^ 32)))
      omega
  · have hkeep : (aborted c.val u).rd (R.MBX_DATA_DATA (c.val * 16 + 1)) = s.rd (R.MBX_DATA_DATA (c.val * 16 + 1)) :=
      (rd_wr_ne _ _ (by simp only [R.MBX_DATA_DATA, Field.mk']; omega)).trans (hu _ (onChannel_data c 1))
    exact (ht _ (onChannel_data c 1)).trans ((rd_goReplied_stamp hao).trans (by rw [hkeep, hc]))

/-- An orphan's message is discarded. -/
theorem abortFor_orphan (id : Nat) (hc : mbxReceiver c.val = id) (hst : s.mbxState c.val = 2) (ho : s.on (R.MBX_STAT_ORPHAN c.val) = true) :
    (abortFor id s).rd (R.MBX_STAT_STATE c.val) = 0 ∧ (∀ k : Fin 16, (abortFor id s).rd (R.MBX_DATA_DATA (c.val * 16 + k.val)) = 0) ∧
      (abortFor id s).rd (R.MBX_STAT_ORPHAN c.val) = 0 := by
  obtain ⟨u, hu, ht⟩ := abortFor_channel id hc s
  have hust : u.mbxState c.val = 2 := (hu _ (onChannel_state c)).trans hst
  have huo : u.on (R.MBX_STAT_ORPHAN c.val) = true := by
    rw [State.on, hu _ (onChannel_orphan c)]
    exact ho
  rw [abortMsg_orphan hust huo] at ht
  exact ⟨(ht _ (onChannel_state c)).trans (rd_mbxEmpty_state _ _), fun k => (ht _ (onChannel_data c k)).trans (rd_mbxEmpty_data _ _ k),
    (ht _ (onChannel_orphan c)).trans (rd_mbxEmpty_orphan _ _)⟩

/-- With no message FULL for the receiver none ends. -/
theorem abortFor_idle (id : Nat) (h : ∀ c : Fin 16, mbxReceiver c.val = id → s.mbxState c.val ≠ 2) : abortFor id s = s := by
  have hl : ∀ l : List Nat, (∀ c ∈ l, s.mbxState c ≠ 2) → l.foldl (fun s c => abortMsg c s) s = s := by
    intro l
    induction l with
    | nil => exact fun _ => rfl
    | cons d l ih =>
      intro hl
      rw [List.foldl_cons, abortMsg_idle (hl d List.mem_cons_self)]
      exact ih fun c hc => hl c (List.mem_cons_of_mem _ hc)
  refine hl _ fun c hc => ?_
  obtain ⟨hr, hid⟩ := List.mem_filter.1 hc
  exact h ⟨c, List.mem_range.1 hr⟩ (of_decide_eq_true hid)

/-- What a function's power state change writes of the function. -/
def atD0 (f : Nat) (d0 : Bool) (p : Pcie) : Pcie :=
  if f = 0 then { p with d0a := d0, flr0 := p.flr0 && !d0 } else { p with d0b := d0, flr1 := p.flr1 && !d0 }

theorem setD0_eq (f : Nat) (d0 : Bool) (s : State) :
    setD0 f d0 s = if d0 then { s with pcie := atD0 f d0 s.pcie } else abortFor (1 + f) { s with pcie := atD0 f d0 s.pcie } := rfl

theorem abortFor_pcie (id : Nat) (s : State) : (abortFor id s).pcie = s.pcie :=
  (touches_abortFor (ps := [.mbx, .fw, .regs .mbx]) id s (by simp) (by simp) (by simp) (Touches.refl _ s)).1 .pcie (by simp)

theorem fnUp_down (fn : Fin 2) {t : State} {p : Pcie} (h : t.pcie = atD0 fn.val false p) : t.fnUp fn.val = false := by
  rw [State.fnUp, h, atD0]
  split <;> rfl

theorem touches_down (fn : Fin 2) {t : State} (k : Ended s (setD0 fn.val false s.begin) t) : Touches [.mbx, .fw, .pcie, .regs .mbx] s t :=
  k.touches (touches_setD0 _ _ _ (by simp) (by simp) (by simp) (by simp) (touches_begin _ s))

end

/-! ### Crossings (R415, R416) -/

section
variable {s : State} {c : Fin 16}

/-- What beginning a crossing does to a channel. -/
def crossed (s : State) (d : Nat) : Mbx :=
  if s.mbxState d = 2 ∧ s.mbxOwner d = 3 ∧ (s.mbox d).crossAt = none then { s.mbox d with crossAt := some s.clk } else s.mbox d

/-- One channel's step. -/
def crossStep (s : State) (d : Nat) : State :=
  if s.mbxState d = 2 ∧ s.mbxOwner d = 3 ∧ (s.mbox d).crossAt = none then s.modMbox d (fun m => { m with crossAt := some s.clk }) else s

theorem mbox_modMbox_ne (s : State) {d e : Nat} (f : Mbx → Mbx) (h : e ≠ d) : (s.modMbox d f).mbox e = s.mbox e :=
  IMap.get_upd_ne _ _ _ h

theorem crossStep_mbox_same (s : State) (d : Nat) : (crossStep s d).mbox d = crossed s d := by
  unfold crossStep crossed
  split
  · exact mbox_modMbox_same _ _ _
  · rfl

theorem crossStep_mbox_ne (s : State) {d e : Nat} (h : e ≠ d) : (crossStep s d).mbox e = s.mbox e := by
  unfold crossStep
  split
  · exact mbox_modMbox_ne s _ h
  · rfl

theorem crossStep_keeps (s : State) (d : Nat) : (∀ g, (crossStep s d).rd g = s.rd g) ∧ (crossStep s d).tick = s.tick := by
  unfold crossStep
  split <;> exact ⟨fun _ => rfl, rfl⟩

/-- A crossing that has begun stays as it is. -/
theorem crossed_crossStep (s : State) (d e : Nat) : crossed (crossStep s d) e = crossed s e := by
  obtain ⟨hrd, htick⟩ := crossStep_keeps s d
  have hst : (crossStep s d).mbxState e = s.mbxState e := hrd _
  have hown : (crossStep s d).mbxOwner e = s.mbxOwner e := hrd _
  by_cases h : e = d
  · subst h
    have hm := crossStep_mbox_same s e
    by_cases hc : s.mbxState e = 2 ∧ s.mbxOwner e = 3 ∧ (s.mbox e).crossAt = none
    · have hs : crossed s e = { s.mbox e with crossAt := some s.clk } := if_pos hc
      rw [hs] at hm ⊢
      rw [crossed, hm, if_neg (by simp)]
    · have hs : crossed s e = s.mbox e := if_neg hc
      rw [hs] at hm ⊢
      rw [crossed, hst, hown, hm, if_neg hc]
  · rw [crossed, crossed, hst, hown, crossStep_mbox_ne s h, clk_congr htick]

theorem crossFold_mbox (l : List Nat) (s : State) (d : Nat) :
    (l.foldl crossStep s).mbox d = if d ∈ l then crossed s d else s.mbox d := by
  induction l generalizing s with
  | nil => rfl
  | cons e l ih =>
    rw [List.foldl_cons, ih, crossed_crossStep]
    by_cases hd : d = e
    · subst hd
      rw [crossStep_mbox_same, if_pos (List.mem_cons_self (a := d) (l := l))]
      split <;> rfl
    · rw [crossStep_mbox_ne s hd]
      simp [hd]

theorem beginCrossing_mbox (f : Nat) (s : State) (d : Nat) :
    (beginCrossing f s).mbox d = if d ∈ toFn f then crossed s d else s.mbox d := crossFold_mbox _ _ _

theorem frame_beginCrossing {fs : List Field} {ps : List Part} {s₀ : State} {f : Nat} (hm : Part.mbx ∈ ps) (h : Frame fs ps s₀ s) :
    Frame fs ps s₀ (beginCrossing f s) :=
  frame_foldl h fun _ _ _ h => frame_ite (frame_modMbox hm h) h

/-- What a withdrawal at XTO writes beside the channel. -/
abbrev crossFields (c : Nat) : List Field :=
  [R.MBX_STAT_STATE c, R.MBX_STAT_OWNER c, R.MBX_STAT_ORPHAN c, R.MBX_STAT_WITHDRAWN c, R.MBX_XCNT_CROSSED, R.MBX_EVT_BITS (c / 8)] ++
    wordFields c ++ logFields

/-- The withdrawn channel with its count, its end and its record. -/
def crossEnd (c : Nat) (s : State) : State := (postEnds c 9 (bumpReg R.MBX_XCNT_CROSSED (withdrawMsg c s))).logRec 0x0E02 c 3 [c / 8 + 1]

/-- The notification of a withdrawn message is held again. -/
def holdAgain (c : Nat) (pkt : List Nat) (w : Fw) : Fw :=
  { w with posted := IMap.put [] w.posted c [], held := if pkt = [] then w.held else { fn := c / 8, again := true, bytes := pkt } :: w.held }

/-- The instant a crossing is over. -/
def crossDue (at_ : Nat) (s : State) : Nat := at_ + us16 (max 1 (s.rd R.MBX_CFG_XTO))

/-- The state with the firmware's side changed. -/
def State.withFw (s : State) (f : Fw → Fw) : State := { s with fw := f s.fw }

theorem rd_withFw (s : State) (f : Fw → Fw) (g : Field) : (s.withFw f).rd g = s.rd g := rfl
theorem withFw_tick (s : State) (f : Fw → Fw) : (s.withFw f).tick = s.tick := rfl
theorem withFw_fw (s : State) (f : Fw → Fw) : (s.withFw f).fw = f s.fw := rfl

/-- A withdrawal at XTO. -/
def crossOut (c at_ : Nat) (s : State) : State :=
  (crossEnd c (s.waitClk (crossDue at_ s))).withFw (holdAgain c (IMap.get [] (s.waitClk (crossDue at_ s)).fw.posted c))

theorem crossingTimeout_due {c at_ : Nat} (hc : (s.mbox c).crossAt = some at_) (hst : s.mbxState c = 2) (hown : s.mbxOwner c = 3)
    (ho : s.on (R.MBX_STAT_ORPHAN c) = false) : crossingTimeout c s = crossOut c at_ s := by
  unfold crossingTimeout
  rw [hc]
  exact if_pos ⟨hst, hown, ho⟩

theorem crossingTimeout_late {c at_ : Nat} (hc : (s.mbox c).crossAt = some at_) (hst : s.mbxState c = 3)
    (hdone : (s.mbox c).doneAt = some s.tick.count) (hdue : crossDue at_ s ≤ s.clk) :
    crossingTimeout c s = reject c (.keeper true) (Reg.MBX_CTL c).addr false s := by
  unfold crossingTimeout
  rw [hc]
  exact (if_neg (by rw [hst]; simp)).trans (if_pos ⟨hst, hdone, hdue⟩)

theorem crossingTimeout_idle {c : Nat}
    (h1 : (s.mbox c).crossAt = none ∨ s.mbxState c ≠ 2 ∨ s.mbxOwner c ≠ 3 ∨ s.on (R.MBX_STAT_ORPHAN c) = true)
    (h2 : (s.mbox c).crossAt = none ∨ s.mbxState c ≠ 3 ∨ (s.mbox c).doneAt ≠ some s.tick.count) : crossingTimeout c s = s := by
  unfold crossingTimeout
  cases hc : (s.mbox c).crossAt with
  | none => rfl
  | some at_ =>
    have h1' := h1.resolve_left (by rw [hc]; simp)
    have h2' := h2.resolve_left (by rw [hc]; simp)
    refine (if_neg ?_).trans (if_neg ?_)
    · rintro ⟨ha, hb, hd⟩
      rcases h1' with k | k | k
      · exact k ha
      · exact k hb
      · rw [hd] at k
        exact Bool.false_ne_true k
    · rintro ⟨ha, hb, -⟩
      exact h2'.elim (fun k => k ha) fun k => k hb

theorem touches_crossEnd (c : Nat) (s : State) : Touches [.log, .mbx, .fw, .regs .mbx, .regs .wch] s (crossEnd c s) :=
  touches_State_logRec _ _ _ _ _ (by simp) (by simp) (touches_postEnds _ _ _ (by simp) (touches_bumpReg (b0 := .mbx) _ _ (by decide) (by simp)
    (touches_withdrawMsg _ _ (by simp) (by simp) (by simp) (Touches.refl _ s))))

theorem frame_crossEnd {fs : List Field} {ps : List Part} {s₀ : State} {c : Nat} (hf : ∀ f ∈ crossFields c, f ∈ fs)
    (hl : Part.log ∈ ps) (hm : Part.mbx ∈ ps) (hw : Part.fw ∈ ps) (h : Frame fs ps s₀ s) : Frame fs ps s₀ (crossEnd c s) := by
  have hwithdraw : Frame fs ps s₀ (withdrawMsg c s) := by
    refine frame_withdrawMsg (fun f h => hf f ?_) hm hw h
    simp only [List.mem_append, List.mem_cons, List.not_mem_nil, or_false] at h ⊢
    tauto
  exact frame_logRec (fun f h => hf f (List.mem_append_right _ h)) hl (frame_set_fw hw (frame_wr (hf _ (by simp)) hwithdraw))

/-- A field of the mailbox block reads as the withdrawal leaves it, but for the count of crossings. -/
theorem rd_crossEnd (c : Nat) (s : State) {g : Field} (hg : g.side = false) (hlow : 0x2000000 ≤ g.key) (hhigh : g.key < 0x2040000)
    (hne : g.key ≠ R.MBX_XCNT_CROSSED.key) : (crossEnd c s).rd g = (withdrawMsg c s).rd g := by
  have hlog := key_ne_log hlow hhigh
  refine (rd_logRec_ne _ _ _ _ _ (hlog _ (by simp [logFields])) (hlog _ (by simp [logFields])) (hlog _ (by simp [logFields]))
    (hlog _ (by simp [logFields])) hg).trans ((rd_postEnds _ _ _ _).trans (rd_wr_ne _ _ hne))

theorem rd_crossEnd_count (c : Fin 16) (s : State) : (crossEnd c.val s).rd R.MBX_XCNT_CROSSED = satNat 16 (s.rd R.MBX_XCNT_CROSSED + 1) := by
  have hlog := key_ne_log (g := R.MBX_XCNT_CROSSED) (by decide) (by decide)
  have hkeep : (withdrawMsg c.val s).rd R.MBX_XCNT_CROSSED = s.rd R.MBX_XCNT_CROSSED := by
    refine (frame_withdrawMsg (fs := _) (ps := [.mbx, .fw]) (fun _ h => h) (by simp) (by simp) (Frame.refl _ _ s)).rd (fun f hf => ?_) (by decide)
    have hc := c.isLt
    rcases List.mem_append.1 hf with hf | hf
    · simp only [List.mem_cons, List.not_mem_nil, or_false] at hf
      rcases hf with rfl | rfl | rfl | rfl | rfl <;>
        simp only [R.MBX_XCNT_CROSSED, R.MBX_STAT_STATE, R.MBX_STAT_OWNER, R.MBX_STAT_ORPHAN, R.MBX_STAT_WITHDRAWN, R.MBX_EVT_BITS, Field.mk'] <;>
        omega
    · exact (emptyFields_ne_of_high (List.mem_append_right _ hf) (by decide)).symm
  refine (rd_logRec_ne _ _ _ _ _ (hlog _ (by simp [logFields])) (hlog _ (by simp [logFields])) (hlog _ (by simp [logFields]))
    (hlog _ (by simp [logFields])) (by decide)).trans ((rd_postEnds _ _ _ _).trans ((rd_wr_same _ _ _).trans ?_))
  rw [hkeep]
  exact Nat.mod_eq_of_lt (satNat_lt 16 _)

theorem isEmpty_crossEnd (c : Nat) (s : State) : IsEmpty c (crossEnd c s) :=
  (isEmpty_withdrawMsg c s).of_rd fun _ hg => rd_crossEnd c s (emptyFields_side hg) (emptyFields_range hg).1
    (lt_trans (emptyFields_range hg).2 (by decide)) (emptyFields_ne_of_high hg (by decide))

theorem withdrawMsg_fw (c : Nat) (s : State) : (withdrawMsg c s).fw = { s.fw with posted := IMap.put [] s.fw.posted c [] } := by
  have hevent : ∀ u : State, (mbxEvent c 3 u).fw = u.fw := fun u =>
    (touches_mbxEvent (ps := [.regs .mbx]) c 3 u (by simp) (Touches.refl _ u)).1 .fw (by simp)
  rw [withdrawMsg, hevent]
  exact mbxEmpty_fw c s

theorem crossEnd_fw (c : Nat) (s : State) : (crossEnd c s).fw =
    { s.fw with posted := IMap.put [] s.fw.posted c [], postStatus := IMap.put 0 s.fw.postStatus c 9 } := by
  have hbump : (bumpReg R.MBX_XCNT_CROSSED (withdrawMsg c s)).fw = (withdrawMsg c s).fw := rfl
  rw [crossEnd, logRec_fw, postEnds, hbump, withdrawMsg_fw]

theorem rd_crossEnd_next (c : Fin 16) (s : State) : (crossEnd c.val s).rd R.LOG_NEXT_SEQ = (s.rd R.LOG_NEXT_SEQ + 1) % 2 ^ 32 := by
  have hkeep : (bumpReg R.MBX_XCNT_CROSSED (withdrawMsg c.val s)).rd R.LOG_NEXT_SEQ = s.rd R.LOG_NEXT_SEQ :=
    ((touches_bumpReg (ps := [.mbx, .fw, .regs .mbx]) (b0 := .mbx) _ _ (by decide) (by simp)
      (touches_withdrawMsg _ _ (by simp) (by simp) (by simp) (Touches.refl _ s))).rd (b := .wch) (by simp) (by decide) (by decide))
  rw [crossEnd, rd_logRec_next, rd_postEnds, hkeep]

theorem crossOut_fw (c at_ : Nat) (s : State) : (crossOut c at_ s).fw = holdAgain c (IMap.get [] (s.waitClk (crossDue at_ s)).fw.posted c)
    (crossEnd c (s.waitClk (crossDue at_ s))).fw := withFw_fw _ _

theorem crossOut_tick (c at_ : Nat) (s : State) : (crossOut c at_ s.begin).tick = (s.waitClk (crossDue at_ s)).tick :=
  (withFw_tick _ _).trans (((touches_crossEnd c _).1 .tick (by simp)).trans (begin_waitClk s _))

theorem rd_crossOut (c at_ : Nat) (s : State) (g : Field) : (crossOut c at_ s).rd g = (crossEnd c (s.waitClk (crossDue at_ s))).rd g := rd_withFw _ _ _

/-- Time that passes leaves the firmware. -/
theorem waitClk_fw (s : State) (x : Nat) : (s.begin.waitClk x).fw = s.fw := (touches_waited s x).1 .fw (by simp)

theorem held_crossOut (c : Fin 16) (at_ : Nat) (s : State) : (crossOut c.val at_ s.begin).fw.held =
    (if IMap.get [] s.fw.posted c.val = [] then s.fw.held else { fn := c.val / 8, again := true, bytes := IMap.get [] s.fw.posted c.val } :: s.fw.held) ∧
    IMap.get 0 (crossOut c.val at_ s.begin).fw.postStatus c.val = 9 := by
  rw [crossOut_fw, crossEnd_fw, waitClk_fw]
  exact ⟨rfl, IMap.get_put_same 0 s.fw.postStatus c.val 9⟩

/-- What a withdrawal at XTO leaves. -/
theorem crossRow {at_ : Nat} {t : State} (k : Ended s (crossOut c.val at_ s.begin) t) :
    t.rd (R.MBX_STAT_STATE c.val) = 0 ∧ t.rd (R.MBX_STAT_WITHDRAWN c.val) = 1 ∧
      bit (t.rd (R.MBX_EVT_BITS (c.val / 8))) (24 + c.val % 8) = true ∧
      t.rd R.MBX_XCNT_CROSSED = satNat 16 (s.rd R.MBX_XCNT_CROSSED + 1) ∧ IMap.get 0 t.fw.postStatus c.val = 9 ∧
      (∀ k : Fin 16, t.rd (R.MBX_DATA_DATA (c.val * 16 + k.val)) = 0) ∧
      (t.fw.held = (if IMap.get [] s.fw.posted c.val = [] then s.fw.held
        else { fn := c.val / 8, again := true, bytes := IMap.get [] s.fw.posted c.val } :: s.fw.held)) ∧
      t.tick = (s.waitClk (crossDue at_ s)).tick ∧ t.rd R.LOG_NEXT_SEQ = (s.rd R.LOG_NEXT_SEQ + 1) % 2 ^ 32 ∧
      Frame (crossFields c.val) [.tick, .lanes, .log, .mbx, .fw] s t := by
  have hrd : ∀ {g : Field}, g.side = false → t.rd g = (crossEnd c.val (s.begin.waitClk (crossDue at_ s))).rd g := fun hg =>
    (k.rd hg).trans (rd_crossOut _ _ _ _)
  have hwait : ∀ {g : Field}, g.side = false → (s.begin.waitClk (crossDue at_ s)).rd g = s.rd g := fun hg => rd_waitClk _ _ hg
  have hempty := (isEmpty_crossEnd c.val (s.begin.waitClk (crossDue at_ s))).of_rd fun g hg => hrd (emptyFields_side hg)
  have hc := c.isLt
  obtain ⟨hheld, hstatus⟩ := held_crossOut c at_ s
  refine ⟨hempty.state, ?_, ?_, ?_, by rw [k.fw, hstatus], hempty.data, by rw [k.fw, hheld], k.tick.trans (crossOut_tick _ _ _), ?_, ?_⟩
  · refine (hrd (side_withdrawn _)).trans ((rd_crossEnd c.val _ (side_withdrawn _) ?_ ?_ ?_).trans (rd_withdrawMsg c _)) <;>
      simp only [R.MBX_STAT_WITHDRAWN, R.MBX_XCNT_CROSSED, Field.mk'] <;> omega
  · rw [hrd (g := R.MBX_EVT_BITS (c.val / 8)) (side_mbxEvt _), rd_crossEnd (g := R.MBX_EVT_BITS (c.val / 8)) c.val _ (side_mbxEvt _)]
    · exact bit_mbxEvent c.val (by decide) _
    all_goals simp only [R.MBX_EVT_BITS, R.MBX_XCNT_CROSSED, Field.mk']; omega
  · rw [hrd (g := R.MBX_XCNT_CROSSED) (by decide), rd_crossEnd_count, hwait (by decide)]
  · rw [hrd (g := R.LOG_NEXT_SEQ) (by decide), rd_crossEnd_next, hwait (by decide)]
  · exact k.frame (frame_set_fw (by simp) (frame_crossEnd (fun _ h => h) (by simp) (by simp) (by simp)
      (frame_waitClk (by simp) (by simp) (frame_begin s))))

end

/-! ### Notifications (R430) -/

section
variable {s : State} {c : Fin 16} {h : Held}

/-- A held notification taken off its list and written to a channel. -/
def Fw.post (w : Fw) (c : Nat) (h : Held) : Fw := { w with held := w.held.erase h, posted := IMap.put [] w.posted c h.bytes }

/-- The notification's words in place, before GO. -/
def postWords (c : Nat) (h : Held) (s : State) : State :=
  putWords c h.bytes (State.wr { s with fw := s.fw.post c h } (R.MBX_STAT_OWNER c) 3)

theorem postHeld_eq {f : Nat} (hf : s.firstHeld f = some h) (hc : s.notifyChannel h = some c.val) :
    postHeld f s = (true, goFull c.val 3 (postWords c.val h s)) := by
  unfold postHeld
  rw [hf]
  dsimp only
  rw [hc]
  rfl

theorem postHeld_fst (f : Nat) (s : State) : (postHeld f s).1 = (s.firstHeld f).any fun h => (s.notifyChannel h).isSome := by
  unfold postHeld
  cases hf : s.firstHeld f with
  | none => rfl
  | some h => cases hc : s.notifyChannel h <;> simp [hc]

theorem postHeld_begin (f : Nat) (s : State) : (postHeld f s.begin).1 = (postHeld f s).1 := by
  rw [postHeld_fst, postHeld_fst]
  rfl

/-- With nothing to post a function's turn changes nothing. -/
theorem postHeld_idle {f : Nat} (hf : (postHeld f s).1 = false) : (postHeld f s).2 = s := by
  unfold postHeld at hf ⊢
  cases hh : s.firstHeld f with
  | none => rfl
  | some h =>
    rw [hh] at hf
    cases hc : s.notifyChannel h with
    | none => simp only [hc]
    | some c =>
      simp only [hc] at hf
      exact absurd hf (by decide)

theorem notifyPost_first (hrun : s.on R.DEV_DIE_STAT_KFW_RUN = true) (h0 : (postHeld 0 s).1 = true) : notifyPost s = (postHeld 0 s).2 :=
  (if_pos hrun).trans (if_pos h0)

theorem notifyPost_second (hrun : s.on R.DEV_DIE_STAT_KFW_RUN = true) (h0 : (postHeld 0 s).1 = false) : notifyPost s = (postHeld 1 s).2 :=
  (if_pos hrun).trans (if_neg (by rw [h0]; decide))

/-- A notification's channel: one of its function's, whose receiver is the host of its class. -/
theorem notifyChannel_host {f : Nat} (hf : s.firstHeld f = some h) (hc : s.notifyChannel h = some c.val) (hle : f ≤ 1) :
    mbxReceiver c.val = classHost c.val ∧ mbxReceiver c.val ≠ 3 := by
  have hfn : h.fn = f := of_decide_eq_true (List.find?_some (p := fun h : Held => decide (h.fn = f)) hf)
  have hmem : c.val ∈ toFn h.fn := by
    unfold State.notifyChannel at hc
    split at hc
    · cases hc
    · exact List.mem_of_find?_eq_some hc
  rw [hfn] at hmem
  have hall : ∀ d ∈ toFn 0 ++ toFn 1, mbxReceiver d = classHost d ∧ mbxReceiver d ≠ 3 := by decide
  refine hall _ (List.mem_append.2 ?_)
  interval_cases f
  · exact .inl hmem
  · exact .inr hmem

/-- The fields a posted notification writes. -/
abbrev postFields (c : Nat) : List Field :=
  [R.MBX_STAT_STATE c, R.MBX_STAT_OWNER c, R.MBX_STAT_LAST_SENDER c, R.MBX_EVT_BITS (c / 8)] ++ wordFields c

theorem frame_postWords {fs : List Field} {ps : List Part} {s₀ : State} {c : Nat} (hf : ∀ f ∈ postFields c, f ∈ fs) (hw : Part.fw ∈ ps)
    (k : Frame fs ps s₀ s) : Frame fs ps s₀ (postWords c h s) :=
  frame_putWords (fun f hm => hf f (List.mem_append_right _ hm)) (frame_wr (hf _ (by simp)) (frame_set_fw hw k))

theorem frame_posted {fs : List Field} {ps : List Part} {s₀ : State} {c : Nat} (hf : ∀ f ∈ postFields c, f ∈ fs) (hw : Part.fw ∈ ps)
    (k : Frame fs ps s₀ s) : Frame fs ps s₀ (goFull c 3 (postWords c h s)) := by
  refine frame_goFull (fun f hm => ?_) hw (frame_postWords hf hw k)
  simp only [List.mem_cons, List.not_mem_nil, or_false] at hm
  rcases hm with rfl | rfl | rfl | rfl
  · exact hf _ (by simp)
  · exact hf _ (by simp)
  · exact hf _ (List.mem_append_right _ (mem_wordFields (by decide)))
  · exact hf _ (by simp)

theorem rd_wrWords_ne (c : Nat) (b : List Nat) {k : Nat} (hk : k < 16) (l : List Nat) (hl : ∀ j ∈ l, j < 16 ∧ j ≠ k) (s : State) :
    (l.foldl (fun s k => s.wr (R.MBX_DATA_DATA (c * 16 + k)) (leAt b (4 * k) 4)) s).rd (R.MBX_DATA_DATA (c * 16 + k)) =
      s.rd (R.MBX_DATA_DATA (c * 16 + k)) := by
  induction l generalizing s with
  | nil => rfl
  | cons j l ih =>
    obtain ⟨hj, hne⟩ := hl j List.mem_cons_self
    refine (ih (fun i hi => hl i (List.mem_cons_of_mem _ hi)) _).trans (rd_wr_ne _ _ ?_)
    simp only [R.MBX_DATA_DATA, Field.mk']
    omega

theorem rd_wrWords (c : Nat) (b : List Nat) (l : List Nat) (s : State) {k : Nat} (hk : k ∈ l) (hn : l.Nodup) (hl : ∀ j ∈ l, j < 16) :
    (l.foldl (fun s k => s.wr (R.MBX_DATA_DATA (c * 16 + k)) (leAt b (4 * k) 4)) s).rd (R.MBX_DATA_DATA (c * 16 + k)) =
      leAt b (4 * k) 4 % 2 ^ 32 := by
  induction l generalizing s with
  | nil => cases hk
  | cons j l ih =>
    obtain ⟨hj, hn⟩ := List.nodup_cons.1 hn
    have hl' : ∀ i ∈ l, i < 16 := fun i hi => hl i (List.mem_cons_of_mem _ hi)
    rcases List.mem_cons.1 hk with rfl | hk
    · exact (rd_wrWords_ne c b (hl k List.mem_cons_self) l (fun i hi => ⟨hl' i hi, fun h => hj (h ▸ hi)⟩) _).trans (rd_wr_same _ _ _)
    · exact ih _ hk hn hl'

theorem rd_putWords {c : Nat} {b : List Nat} {k : Nat} (s : State) (hk : k < 16) (hb : 4 * k < b.length) :
    (putWords c b s).rd (R.MBX_DATA_DATA (c * 16 + k)) = leAt b (4 * k) 4 % 2 ^ 32 := by
  refine rd_wrWords c b _ s ?_ (List.Nodup.sublist (List.take_sublist _ _) List.nodup_range)
    fun j hj => List.mem_range.1 (List.mem_of_mem_take hj)
  rw [mbxWords, List.take_range, List.mem_range]
  omega

theorem rd_posted_owner (c : Nat) (s : State) : (goFull c 3 (postWords c h s)).rd (R.MBX_STAT_OWNER c) = 3 := by
  have hput : ∀ u : State, (putWords c h.bytes u).rd (R.MBX_STAT_OWNER c) = u.rd (R.MBX_STAT_OWNER c) := fun u =>
    (frame_putWords (fs := wordFields c) (ps := []) (b := h.bytes) (fun _ hm => hm) (Frame.refl _ _ u)).rd (fun f hf => by
      obtain ⟨k, hk, rfl⟩ := List.mem_map.1 hf
      have hk' := List.mem_range.1 hk
      simp only [R.MBX_STAT_OWNER, R.MBX_DATA_DATA, Field.mk']; omega) (side_mbxOwner c)
  refine (rd_goFull c 3 _ (side_mbxOwner c) ?_).trans ((rd_wr_ne _ _ ?_).trans ((rd_wr_ne _ _ ?_).trans ((rd_wr_ne _ _ ?_).trans
    ((hput _).trans (rd_wr_same _ _ _))))) <;>
    simp only [R.MBX_STAT_OWNER, R.MBX_EVT_BITS, R.MBX_STAT_LAST_SENDER, R.MBX_STAT_STATE, R.MBX_DATA_DATA, Field.mk'] <;> omega

theorem posted_fw (hc : mbxReceiver c.val ≠ 3) : (goFull c.val 3 (postWords c.val h s)).fw = s.fw.post c.val h := by
  rw [goFull_fw, if_neg hc]
  exact (touches_putWords (ps := [.regs .mbx]) c.val h.bytes _ (by simp) (touches_State_wr (has_R_MBX_STAT_OWNER _) (by simp)
    (Touches.refl _ _))).1 .fw (by simp)

theorem rd_posted_word {k : Nat} (hk : k < 16) (hb : 4 * k < h.bytes.length) (hne : k ≠ 1) :
    (goFull c.val 3 (postWords c.val h s)).rd (R.MBX_DATA_DATA (c.val * 16 + k)) = leAt h.bytes (4 * k) 4 % 2 ^ 32 := by
  refine (rd_goFull c.val 3 _ (side_mbxData _) ?_).trans ((rd_wr_ne _ _ ?_).trans ((rd_wr_ne _ _ ?_).trans ((rd_wr_ne _ _ ?_).trans
    (rd_putWords _ hk hb)))) <;>
    simp only [R.MBX_EVT_BITS, R.MBX_STAT_LAST_SENDER, R.MBX_STAT_STATE, R.MBX_DATA_DATA, Field.mk'] <;> omega

/-- What a posted notification leaves. -/
theorem postRow {f : Nat} {t : State} (hf : s.firstHeld f = some h) (hc : s.notifyChannel h = some c.val) (hle : f ≤ 1)
    (k : Ended s (goFull c.val 3 (postWords c.val h s.begin)) t) :
    t.rd (R.MBX_STAT_STATE c.val) = 2 ∧ t.rd (R.MBX_STAT_OWNER c.val) = 3 ∧ t.fw = s.fw.post c.val h ∧ Frame (postFields c.val) [.fw] s t :=
  ⟨(k.rd (side_mbxState _)).trans (rd_goFull_state _ _ _), (k.rd (side_mbxOwner _)).trans (rd_posted_owner _ _),
    k.fw.trans (posted_fw (notifyChannel_host hf hc hle).2), k.frame (frame_posted (fun _ h => h) (by simp) (frame_begin s))⟩

theorem postHeld_sends {f : Nat} (hf : s.firstHeld f = some h) (hc : s.notifyChannel h = some c.val) :
    (postHeld f s.begin).2 = goFull c.val 3 (postWords c.val h s.begin) := congrArg Prod.snd (postHeld_eq (s := s.begin) hf hc)

end

/-! ### Taking a message (R415) -/

theorem serves_mbx {s : State} {q : Cmd} {c : Nat} (hq : q.path = .mbx c) (hst : s.mbxState c = 2) : s.serves q = true := by
  unfold State.serves
  rw [hq]
  exact decide_eq_true hst

theorem crossFor_mbx {s : State} {q : Cmd} {c f : Nat} (hq : q.path = .mbx c) (hs : senderFn c = some f) : crossFor q s = beginCrossing f s := by
  unfold crossFor
  rw [hq]
  dsimp only
  rw [hs]

/-- The firmware with a queue taken from. -/
def State.takeFrom (s : State) (rest : List Cmd) : State := { s with fw := { s.fw with queue := rest, cycleAt := s.clk } }

/-- A command begun. -/
def State.beginCmd (s : State) (c : Cmd) : State := { s with fw := { s.fw with current := some c } }

theorem begun_mbx (s : State) (c : Cmd) : ((s.count 0x022 0 1).beginCmd c).mbx = s.mbx :=
  (touches_State_count (ps := []) _ _ _ _ (Touches.refl _ s)).1 .mbx (by simp)

theorem firmwareTake_begins {s : State} {q : Cmd} {rest : List Cmd} {c f : Nat} (hrun : s.on R.DEV_DIE_STAT_KFW_RUN = true)
    (hcur : s.fw.current = none) (hqueue : s.fw.queue = q :: rest) (hq : q.path = .mbx c) (hs : senderFn c = some f)
    (hst : s.mbxState c = 2) (hok : (s.readCmd q).headFault = none) :
    firmwareTake s = ((beginCrossing f (s.takeFrom rest)).count 0x022 0 1).beginCmd (s.readCmd q) := by
  have hread : (s.takeFrom rest).readCmd q = s.readCmd q := by
    unfold State.readCmd
    rw [hq]
    rfl
  unfold firmwareTake
  rw [hrun, hcur, hqueue]
  refine (if_pos rfl).trans ((if_pos (serves_mbx (s := s.takeFrom rest) hq hst)).trans ?_)
  dsimp only
  rw [← State.takeFrom, hread, hok, crossFor_mbx hq hs]
  rfl

/-! ### The statement -/

/-- Settles O40: each row by the rule of the operation it is; the others leave the state. -/
theorem mailboxTimeouts : Obligations.MailboxTimeouts := by
  refine ⟨fun s c h => ?_, ?_, fun s c h hq hne => ?_, fun s c h hq hc => ?_, fun s fn d0 h => ?_, fun s fn c hc hst ho => ?_,
    fun s fn c hc hst ho => ?_, fun s c h1 h2 => ?_, fun s c at_ hcross hst hdone hdue => ?_, ?_, ?_, ?_, ?_, ?_, ?_⟩
  · have hu : lockHoldExpire c.val s.begin = s.begin := if_neg fun k => by
      have k' : s.mbxState c.val = 1 ∨ s.mbxState c.val = 3 := k
      omega
    obtain ⟨t, e, k⟩ := go_ended_of hu
    exact ⟨t, e, k.frame (frame_begin s)⟩
  · intro s c h hq
    have hidle : agentRun (holdEnd c.val s) = holdEnd c.val s := agentRun_idle ((holdEnd_relayQ s c.val).trans hq)
    obtain ⟨t, e, k⟩ := go_ended_of ((lockHoldExpire_held h).trans hidle)
    have hempty := (isEmpty_heldOut c.val (s.begin.waitClk (holdDue c.val s))).ended k
    exact ⟨t, e, hempty.state, hempty.owner, (k.rd (side_mbxStale _)).trans (rd_heldOut_stale c _), (k.rd (by decide)).trans (rd_holdEnd_count c s),
      hempty.data, k.tick.trans (holdEnd_tick s c.val),
      k.frame (frame_heldOut (fun _ h => h) (by simp) (by simp) (frame_waitClk (by simp) (by simp) (frame_begin s)))⟩
  · obtain ⟨t, e, k⟩ := holdRow h
    have hempty := holdRow_empty k (by rcases relayChannel_or s with r | r <;> rw [r]; exacts [hne.1.symm, hne.2.symm])
    exact ⟨t, e, hempty.state, hempty.owner, holdRow_stale k, holdRow_touches k⟩
  · obtain ⟨t, e, k⟩ := holdRow h
    exact ⟨t, e, fun hne => (holdRow_empty k hne).state, holdRow_stale k, holdRow_count k, holdRow_touches k⟩
  · have hu : setD0 fn.val d0 s.begin = { s.begin with pcie := atD0 fn.val d0 s.pcie } := by
      rw [setD0_eq]
      rcases h with rfl | h
      · rfl
      · cases d0 with
        | true => rfl
        | false => exact abortFor_idle (s := { s.begin with pcie := atD0 fn.val false s.pcie }) _ h
    obtain ⟨t, e, k⟩ := go_ended_of hu
    exact ⟨t, e, k.pcie, k.frame (frame_set_pcie (by simp) (frame_begin s))⟩
  · obtain ⟨t, e, k⟩ := go_ended (setD0 fn.val false) s
    obtain ⟨h1, h2, h3⟩ := abortFor_live (s := { s.begin with pcie := atD0 fn.val false s.pcie }) (c := c) (1 + fn.val) hc hst ho
    have hword : t.rd (R.MBX_DATA_DATA (c.val * 16 + 2)) = s.rd (R.MBX_DATA_DATA (c.val * 16 + 2)) / 256 * 256 + 8 := (k.rd (side_mbxData _)).trans h2
    exact ⟨t, e, (k.rd (side_mbxState _)).trans h1, by omega, by omega, (k.rd (side_mbxData _)).trans h3,
      fnUp_down fn (k.pcie.trans (abortFor_pcie _ _)), touches_down fn k⟩
  · obtain ⟨t, e, k⟩ := go_ended (setD0 fn.val false) s
    obtain ⟨h1, h2, h3⟩ := abortFor_orphan (s := { s.begin with pcie := atD0 fn.val false s.pcie }) (c := c) (1 + fn.val) hc hst ho
    exact ⟨t, e, (k.rd (side_mbxState _)).trans h1, fun j => (k.rd (side_mbxData _)).trans (h2 j), (k.rd (side_mbxOrphan _)).trans h3,
      touches_down fn k⟩
  · obtain ⟨t, e, k⟩ := go_ended_of (crossingTimeout_idle (s := s.begin) h1 h2)
    exact ⟨t, e, k.frame (frame_begin s)⟩
  · obtain ⟨t, e, k⟩ := rejected_of_go (f := crossingTimeout c.val) (crossingTimeout_late (s := s.begin) hcross hst hdone hdue)
    have hquiet : rejectLogged c.val (.keeper true) = false := rejectLogged_false (.inr ⟨rfl, .inr (by decide)⟩)
    exact ⟨t, e, k.state.trans hst, k.noted, k.event, k.path fun fn => by simp, k.quiet hquiet⟩
  · intro s c q rest fn hrun hcur hqueue hq hs hst hok
    obtain ⟨t, e, k⟩ := go_ended_of (firmwareTake_begins (s := s.begin) hrun hcur hqueue hq hs hst hok)
    have hmbox : ∀ d, t.mbox d = if d ∈ toFn fn.val then crossed s d else s.mbox d := fun d =>
      (mbox_congr d (k.mbx.trans (begun_mbx _ _))).trans (beginCrossing_mbox fn.val (s.begin.takeFrom rest) d)
    refine ⟨t, e, fun d hd h2 h3 hnone => ?_, fun d hd => ?_,
      k.frame (frame_set_fw (by simp) (frame_count (frame_beginCrossing (by simp) (frame_set_fw (by simp) (frame_begin s)))))⟩
    · rw [hmbox, if_pos hd, crossed, if_pos ⟨h2, h3, hnone⟩]
    · rw [hmbox]
      split
      · exact if_neg fun hall => hd.elim (fun k => k ‹_›) fun k => k.elim (fun k => k hall.1) fun k => k.elim (fun k => k hall.2.1) fun k => k hall.2.2
      · rfl
  · intro s c at_ hcross hst hown ho
    obtain ⟨t, e, k⟩ := go_ended_of (f := crossingTimeout c.val) (crossingTimeout_due (s := s.begin) hcross hst hown ho)
    exact ⟨t, e, crossRow k⟩
  · intro s h
    have hu : notifyPost s.begin = s.begin := by
      rcases h with h | h
      · exact if_neg (by rw [show s.begin.on R.DEV_DIE_STAT_KFW_RUN = false from h]; decide)
      · have hnone : ∀ f, s.begin.firstHeld f = none := fun f => by
          rw [State.firstHeld, show s.begin.fw.held = [] from h]
          rfl
        by_cases hrun : s.begin.on R.DEV_DIE_STAT_KFW_RUN = true
        · rw [notifyPost_second hrun (by rw [postHeld_fst, hnone]; rfl)]
          exact postHeld_idle (by rw [postHeld_fst, hnone]; rfl)
        · exact if_neg hrun
    obtain ⟨t, e, k⟩ := go_ended_of hu
    exact ⟨t, e, k.frame (frame_begin s)⟩
  · intro s h c n hrun hf hc hlen hn
    have hu : notifyPost s.begin = goFull c.val 3 (postWords c.val h s.begin) :=
      (notifyPost_first (s := s.begin) hrun (congrArg Prod.fst (postHeld_eq (s := s.begin) hf hc))).trans (postHeld_sends hf hc)
    obtain ⟨t, e, k⟩ := go_ended_of hu
    obtain ⟨hst, hown, hfw, hframe⟩ := postRow hf hc (by decide) k
    refine ⟨t, e, hst, hown, hfw, fun j hj hne => ?_, ?_, ?_, hframe⟩
    · exact (k.rd (side_mbxData _)).trans (rd_posted_word j.isLt (by omega) hne)
    · rw [k.rd (g := R.MBX_EVT_BITS (c.val / 8)) (side_mbxEvt _)]
      exact bit_goFull _ _ _ (notifyChannel_host hf hc (by decide)).1
    · rw [k.rd (side_mbxData _), rd_goFull_stamp _ (by decide)]
      omega
  · intro s hrun h0 h1
    have hu : notifyPost s.begin = s.begin := (notifyPost_second (s := s.begin) hrun ((postHeld_begin 0 s).trans h0)).trans
      (postHeld_idle (s := s.begin) ((postHeld_begin 1 s).trans h1))
    obtain ⟨t, e, k⟩ := go_ended_of hu
    exact ⟨t, e, k.frame (frame_begin s)⟩
  · intro s h c hrun h0 hf hc
    have hu : notifyPost s.begin = goFull c.val 3 (postWords c.val h s.begin) :=
      (notifyPost_second (s := s.begin) hrun ((postHeld_begin 0 s).trans h0)).trans (postHeld_sends hf hc)
    obtain ⟨t, e, k⟩ := go_ended_of hu
    exact ⟨t, e, postRow hf hc le_rfl k⟩

end Sys2Proof.Machine
end

section
/-! PROOFS. The pulses left to an output whose COUNT is 2^32 - 1 (R212, R213; O27): the register then reads as for an unlimited schedule, but
each pulse counts down. -/

namespace Sys2Proof.Machine

/-- Output 0 ARMED with a limited schedule of 2^32 - 1 pulses, of which the first is committed. -/
def longSchedule : State :=
  (({ tim := { outs := [(0, { commits := [{ ts1 := true }] })] } } : State).wr (R.PLS_STAT_STATE 0) 1).wr (R.PLS_LEFT_LEFT 0) 0xFFFFFFFF

/-- What the leading edge does once its tick has come. -/
def firedEdge (s : State) : State :=
  (((s.hi (R.PLS_STAT_LEVEL 0)).modOut 0 fun q =>
    { q with commits := [], last := some (max 0 (q.last.getD 0)), endPos := some 0, activePol := false }).wr (R.PLS_LEFT_LEFT 0) 0xFFFFFFFE).count
      0x032 0 1

theorem rd_modOut (s : State) (o : Nat) (f : PulseOut → PulseOut) (g : Field) : (s.modOut o f).rd g = s.rd g := rfl

theorem pout_modOut_same (s : State) (o : Nat) (f : PulseOut → PulseOut) : (s.modOut o f).pout o = f (s.pout o) := IMap.get_upd_same _ _ _ _

theorem rd_firedEdge (s : State) : (firedEdge s).rd (R.PLS_LEFT_LEFT 0) = 0xFFFFFFFE :=
  (rd_count _ _ _ _ (by decide)).trans (rd_wr_same _ _ _)

/-- The output while its first edge is launched: ARMED, its schedule limited and its edge its own. -/
theorem pulseFire_longSchedule : pulseFire 0 longSchedule.begin = firedEdge (longSchedule.begin.waitTick (tickOfPos 0)) := by
  have ht : Touches [.tick, .lanes] longSchedule (longSchedule.begin.waitTick (tickOfPos 0)) :=
    touches_State_waitTick _ _ (by simp) (by simp) (touches_begin _ _)
  have hrd : ∀ g : Field, g.side = false → (longSchedule.begin.waitTick (tickOfPos 0)).rd g = longSchedule.rd g := fun g hg => rd_advance _ _ hg
  have htim := ht.1 .tim (by simp)
  have hwatch := ht.1 .watch (by simp)
  unfold pulseFire
  have hc : (longSchedule.begin.pout 0).commits = [{ ts1 := true }] := rfl
  rw [hc]
  dsimp only
  generalize longSchedule.begin.waitTick (tickOfPos 0) = v at *
  rw [if_pos rfl]
  unfold firedEdge
  generalize hw : (v.hi (R.PLS_STAT_LEVEL 0)).modOut 0 (fun q =>
    { q with commits := [], last := some (max 0 (q.last.getD 0)), endPos := some 0, activePol := false }) = w
  have hwrd : ∀ g : Field, g.side = false → g.key ≠ (R.PLS_STAT_LEVEL 0).key → w.rd g = longSchedule.rd g := fun g hg hk => by
    rw [← hw, rd_modOut]
    exact (rd_wr_ne v _ hk).trans (hrd g hg)
  have hunlim : (w.pout 0).sched.unlim = false := by
    rw [← hw, pout_modOut_same, show (v.hi (R.PLS_STAT_LEVEL 0)).pout 0 = longSchedule.pout 0 from
      congrArg (fun m : Tim => IMap.get ({} : PulseOut) m.outs 0) htim]
    rfl
  have hstate : w.outState 0 = 1 := by
    rw [State.outState, hwrd _ (by decide) (by decide), show longSchedule.rd (R.PLS_STAT_STATE 0) = 1 by decide]
    exact if_neg fun h => absurd h.1 (by decide)
  have hleft : w.rd (R.PLS_LEFT_LEFT 0) = 0xFFFFFFFF := (hwrd _ (by decide) (by decide)).trans (by decide)
  have hrecord : ((w.wr (R.PLS_LEFT_LEFT 0) 0xFFFFFFFE).count 0x032 0 1).on (R.PLS_CFG_RECORD 0) = false := by
    rw [State.on, rd_count _ _ _ _ (by decide), rd_wr_ne _ _ (by decide), hwrd _ (by decide) (by decide)]
    decide
  have hmore : ((w.wr (R.PLS_LEFT_LEFT 0) 0xFFFFFFFE).count 0x032 0 1).rd (R.PLS_LEFT_LEFT 0) = 0xFFFFFFFE :=
    (rd_count _ _ _ _ (by decide)).trans (rd_wr_same _ _ _)
  simp only [hstate, hunlim, hleft, decide_true, Bool.not_false, Bool.and_self, if_true, Nat.reduceSub, hrecord, hmore, Bool.false_eq_true,
    if_false, Nat.reduceEqDiff, decide_false, Bool.and_false]

/-- Refutes O27: a leading edge of an output with a limited schedule and 2^32 - 1 pulses left leaves 2^32 - 2, where the statement takes the
register for the all ones of an unlimited one. -/
theorem not_pulseOutputs : ¬Obligations.PulseOutputs := by
  rintro ⟨-, -, -, -, -, -, -, -, -, -, hfire, -⟩
  obtain ⟨t, e, -, -, -, -, hleft, -⟩ := hfire longSchedule 0 { ts1 := true } [] rfl
  obtain ⟨u, e', k⟩ := go_ended_of pulseFire_longSchedule
  obtain rfl : u = t := by
    injection e'.symm.trans e
  rw [k.rd (by decide), show (0 : Fin 32).val = 0 from rfl, rd_firedEdge] at hleft
  revert hleft
  decide

end Sys2Proof.Machine
end

section
/-! PROOFS. The engine's states and the filter at a step (R87, R108, R114, R173; O58, O57). -/

namespace Sys2Proof.Machine

/- The kernel evaluates these examples one after another. -/
set_option Elab.async false

/-- TS0's engine in UNSET while a decision is pending and a slewing one waits, with no ageing of the board clock and TS0 past the step's
instant. -/
def decidedUnset : State :=
  (((({ tick := { bank0 := { ts := 2 ^ 80 } } } : State).wr R.ENS_LOC_AGE_AGE 0).wr R.ENS_STAT_DECIDE_PEND 1).wr R.ENS_DECIDE_GO 1).wr
    R.ENS_DECIDE_ACTION 1

/-- The decision takes the engine to TRACKING in order 1, and with no slot QUALIFIED order 7 takes it on to HOLDOVER. -/
theorem eng_filterStep_decidedUnset : (filterStep 0 decidedUnset.begin).rd (engField .ts0) = 3 := by decide +kernel

/-- Refutes O58: a slewing decision that waits while the engine is UNSET leads to HOLDOVER in one step, not to SETTLING. -/
theorem not_engineTransitions : ¬Obligations.EngineTransitions := by
  intro h
  obtain ⟨t, e, hunset, -⟩ := h decidedUnset 0 .ts0
  obtain ⟨u, e', k⟩ := go_ended_of (f := filterStep 0) (s := decidedUnset) rfl
  obtain rfl : u = t := by injection e'.symm.trans e
  have heng : u.eng .ts0 = .holdover := by
    rw [State.eng, k.rd (by decide), eng_filterStep_decidedUnset]
    rfl
  rw [heng] at hunset
  exact absurd (hunset (by decide)) (by decide)

/-- The engine in HOLDOVER with a drift in its estimate, and otherwise the same decision waiting. -/
def decidedHoldover : State :=
  { decidedUnset.wr (engField .ts0) 3 with ens := { f0 := { d := 512 } } }

/-- What the step leaves of the slots and of TS0's filter. -/
theorem filterStep_decidedHoldover :
    (filterStep 0 decidedHoldover.begin).rd (engField .ts0) = 3 ∧ (filterStep 0 decidedHoldover.begin).ens.f0.theta = 0 ∧
      ¬0 < ((filterStep 0 decidedHoldover.begin).setOf .ts0).foldl
        (fun a i => a + ((((filterStep 0 decidedHoldover.begin).slot i).hist.head?).getD {}).w) (0 : Rat) := by decide +kernel

/-- The phase that the statement has the filter predict. -/
theorem predicted_decidedHoldover :
    decidedHoldover.ens.f0.theta + decidedHoldover.ens.f0.y / 16 + decidedHoldover.ens.f0.d / 512 +
      mkRat (((decidedHoldover.waitTs0 decidedHoldover.nextStep).wr R.ENS_TEMP_TEMP 0).tick.bank .ts0).phaseAcc (2 ^ 48) = 1 := by
  decide +kernel

/-- Refutes O57: a decision carried out at the step takes the engine from HOLDOVER to TRACKING and back within it, which loads the drift
anew, so that the filter does not predict with the drift before the step. -/
theorem not_filterArithmetic : ¬Obligations.FilterArithmetic := by
  rintro ⟨h, -⟩
  obtain ⟨t, e, hstep, -⟩ := h decidedHoldover 0 .ts0 (by decide) (by decide) (by decide)
  obtain ⟨u, e', k⟩ := go_ended_of (f := filterStep 0) (s := decidedHoldover) rfl
  obtain rfl : u = t := by injection e'.symm.trans e
  obtain ⟨heng, htheta, hsum⟩ := filterStep_decidedHoldover
  have hslot : ∀ i, u.slot i = (filterStep 0 decidedHoldover.begin).slot i := fun i => by rw [State.slot, State.slot, k.ens]
  have hset : u.setOf .ts0 = (filterStep 0 decidedHoldover.begin).setOf .ts0 := by simp only [State.setOf, hslot]
  have hkept : u.eng .ts0 = decidedHoldover.eng .ts0 := by
    rw [State.eng, k.rd (by decide), heng]
    decide
  obtain ⟨x, -, -, hif, -⟩ := hstep hkept
  simp only [hset, hslot] at hif
  rw [if_neg hsum] at hif
  have h0 : (u.filter .ts0).theta = 0 := by
    rw [State.filter, k.ens]
    exact htheta
  have h1 := hif.1
  rw [h0] at h1
  exact absurd (h1.trans predicted_decidedHoldover) (by decide)

end Sys2Proof.Machine
end

section
/-! PROOFS. A missing pulse of a lane that alone carries a slot's time (R31, R34; O15): the slot's withdrawal is recorded before the lane's
coasting. -/

namespace Sys2Proof.Machine

/- The kernel evaluates these examples one after another. -/
set_option Elab.async false

/-- Lane 0 LOCKED, with slot 4 enabled, QUALIFIED and fed by port 0, whose time that lane carries. -/
def carriedSlot : State :=
  ((({ srv := { selected := [(0, some (0, 0))] } } : State).wr (R.TSC_LANE_STAT_STATE 0) 2).wr (R.ENS_SLOT_CFG_EN 4) 1).wr
    (R.ENS_SLOT_STAT_STATE 4) 2

theorem log_lanePulseMiss_carriedSlot : (IMap.get {} (lanePulseMiss 0 carriedSlot.begin).log 0).event = 0x0302 := by decide +kernel

/-- Refutes O15: the first record of the cycle in which the lane leaves LOCKED is that of slot 4's loss, not that of the coasting. -/
theorem not_timeLanes : ¬Obligations.TimeLanes := by
  rintro ⟨-, -, -, -, hmiss, -⟩
  obtain ⟨t, e, -, -, -, hcoast, -⟩ := hmiss carriedSlot 0 (by decide)
  obtain ⟨u, e', k⟩ := go_ended_of (f := lanePulseMiss 0) (s := carriedSlot) rfl
  obtain rfl : u = t := by injection e'.symm.trans e
  obtain ⟨-, -, hlog⟩ := hcoast (by decide)
  rw [k.log, show carriedSlot.rd R.LOG_NEXT_SEQ % 131072 = 0 by decide, log_lanePulseMiss_carriedSlot] at hlog
  exact absurd hlog (by decide)

end Sys2Proof.Machine
end

section
/-! PROOFS. A sample port recovers with an antenna's channels all in use (R124, R129, R147; O19): room for one pinned signal is made by a
channel that another pin then starts again. -/

namespace Sys2Proof.Machine

/- The kernel evaluates these examples one after another. -/
set_option Elab.async false

/-- The receiver on with antenna A not primary and its 8 channels, 1 to 8, in TRACK; channel 0 is IDLE.  Channels 0 and 8 are pinned, and 8
still has the firmware's signal.  Port 1 has been faulted and has seen 16 clean epochs. -/
def crowdedAntenna : State :=
  let on : State := (({ gnss := { ports := [(1, { clean := 16 })] } } : State).wr R.GNS_CTL_EN 1).wr R.GNS_CTL_SYS_EN 1
  let high := ((on.wr R.GNS_CTL_HIGH_EN 1).wr R.GNS_CTL_REDUND 1).wr R.GNS_STAT_ACTIVE_ANT 1
  let ports := (high.wr (R.GNS_PORT_CFG_EN 0) 1).wr (R.GNS_PORT_STAT_FAULT 1) 1
  let inUse := [1, 2, 3, 4, 5, 6, 7, 8].foldl (fun s c => s.wr (R.GNS_CH_STAT_STATE c) 3) ports
  [0, 8].foldl (fun s c => (s.wr (R.GNS_CH_CFG_PIN c) 1).wr (R.GNS_CH_CFG_SVID c) 1) inUse

theorem crowdedAntenna_within : ∀ a ≤ 1, (crowdedAntenna.antChans a).length ≤ crowdedAntenna.antQuota a := by decide +kernel

/-- Channel 0's signal drops channel 8, which its own pin then takes to SEARCH. -/
theorem ch8_recovered : (gnssPortRecover 1 crowdedAntenna.begin).rd (R.GNS_CH_STAT_STATE 8) = 1 := by decide +kernel

/-- Refutes O19: channel 8 goes from TRACK to SEARCH at the recovery, neither left as it was nor IDLE. -/
theorem not_gnssPorts : ¬Obligations.GnssPorts := by
  rintro ⟨-, -, -, hrecover, -⟩
  obtain ⟨t, e, -, -, hchannels, -⟩ := hrecover crowdedAntenna 1 (by decide +kernel) (by decide)
  obtain ⟨u, e', k⟩ := go_ended_of (f := gnssPortRecover 1) (s := crowdedAntenna) rfl
  obtain rfl : u = t := by injection e'.symm.trans e
  have hch : u.ch 8 = .search := by
    rw [State.ch, k.rd (by decide), ch8_recovered]
    rfl
  have htrack : crowdedAntenna.ch 8 = .track := by decide +kernel
  rcases (hchannels crowdedAntenna_within).2 8 (by rw [show (8 : Fin 160).val = 8 from rfl, htrack]; decide) with h | h
  · exact absurd (hch.symm.trans (h.trans htrack)) (by decide)
  · exact absurd (hch.symm.trans h.2) (by decide)

end Sys2Proof.Machine
end

section
/-! PROOFS. An hours copy whose minutes do not fit RFM_USE's MINUTES (R166, R167; O23). -/

namespace Sys2Proof.Machine

/- The kernel evaluates these examples one after another. -/
set_option Elab.async false

/-- An hours copy with SEQ, HOURS and code 0, its minutes 64 and its CRC right. -/
def longMinutesCopy : List Byte :=
  let body : List Nat := [0, 0, 64] ++ List.replicate 25 0
  (body ++ le 4 (crc32c body)).map (BitVec.ofNat 8)

/-- Port A in READING. -/
def readingModule : State := ({} : State).wr (R.RFM_STAT_STATE 0) 1

theorem longMinutesCopy_chosen : chooseCopy (natBytes longMinutesCopy) (natBytes []) = some 0 := by decide +kernel

theorem longMinutesCopy_minutes : leAt (natBytes longMinutesCopy) 2 1 = 64 := by decide +kernel

/-- MINUTES has 6 bits: of 64 minutes it keeps none. -/
theorem minutes_read : (recordRead 0 none longMinutesCopy [] readingModule.begin).rd (R.RFM_USE_MINUTES 0) = 0 := by decide +kernel

/-- Refutes O23: a valid copy with 64 minutes leaves 0 in MINUTES, which has 6 bits. -/
theorem not_referenceModules : ¬Obligations.ReferenceModules := by
  rintro ⟨-, -, hread, -⟩
  obtain ⟨t, e, -, -, -, -, hcopyA, -⟩ := hread readingModule 0 none longMinutesCopy [] (by decide +kernel)
  obtain ⟨u, e', k⟩ := go_ended_of (f := recordRead 0 none longMinutesCopy []) (s := readingModule) rfl
  obtain rfl : u = t := by injection e'.symm.trans e
  have hminutes := ((hcopyA longMinutesCopy_chosen).2 (by decide +kernel)).2
  rw [longMinutesCopy_minutes, show (0 : Fin 2).val = 0 from rfl, k.rd (by decide), minutes_read] at hminutes
  exact absurd hminutes (by decide)

end Sys2Proof.Machine
end

section
/-! PROOFS. The stop of a pair whose channels lie in two groups (R178, R193, R195; O25): its edge opens the window of its start's group. -/

namespace Sys2Proof.Machine

/- The kernel evaluates these examples one after another. -/
set_option Elab.async false

theorem coarseAt_zero : coarseAt 0 = 0 := by
  have hphase : (0 : Rat) ≤ mkRat (Config.coarsePhase : Nat) 65536 := Rat.mkRat_nonneg (by omega) _
  have hfloor : ((0 : Rat) * mkRat 25 8 - mkRat (Config.coarsePhase : Nat) 65536).floor ≤ 0 := by
    have hle := Rat.floor_le ((0 : Rat) * mkRat 25 8 - mkRat (Config.coarsePhase : Nat) 65536)
    have : (((0 : Rat) * mkRat 25 8 - mkRat (Config.coarsePhase : Nat) 65536).floor : Rat) ≤ ((0 : Int) : Rat) := by
      push_cast
      linarith only [hle, hphase]
    exact_mod_cast this
  unfold coarseAt
  omega

/-- Beside the gate's open and waiting bits its opening changes no register. -/
theorem rd_openGate (g c : Nat) (s : State) (f : Field) :
    (openGate g c s).rd f = ((s.hi (R.TIM_GRP_STAT_GATE_OPEN g)).lo (R.TIM_GRP_STAT_WAITING g)).rd f := by
  unfold openGate
  refine List.foldlRecOn (motive := fun u : State => u.rd f = _) _ _ rfl (fun u hu d _ => ?_)
  split
  · exact hu
  · exact hu

/-- Channel 8, first of group 1, is the stop of channel 7, which is gated; group 0's window waits and its time has come.  An edge came on
channel 8 at the place 0; its unit has a table. -/
def pairAcrossGroups : State :=
  let s : State := { tim := { chans := [(8, { lastEdge := some 0 })], groups := [(1, { tables := [(0, [0])] })] } }
  let paired := (s.wr (R.TIM_CH_STAT_STATE 8) 3).wr (R.TIM_CH_CFG_GATED 7) 1
  (paired.wr (R.TIM_GRP_CFG_GATE_MODE 0) 3).wr (R.TIM_GRP_STAT_WAITING 0) 1

/-- The same with the command begun, at the tick of the edge. -/
def pairAcrossGroups.edge : State := pairAcrossGroups.begin.waitTick (tickOfCoarse 0)

theorem edge_window_due : pairAcrossGroups.edge.coarseOfTs0 (pairAcrossGroups.edge.windowFrom 0) = 0 := by
  have h : pairAcrossGroups.edge.tick.bank0.reachesOver pairAcrossGroups.edge.tick.count (pairAcrossGroups.edge.stepAhead .ts0)
      (pairAcrossGroups.edge.windowFrom 0) = 0 := by decide +kernel
  rw [State.coarseOfTs0, h, coarseAt_zero]

/-- An edge whose governing channel takes rising edges alone is not taken when it falls. -/
theorem edgeTaken_falling {s : State} {gov c : Nat} (h : s.chEdge gov = 0) : s.edgeTaken gov c true = false := by
  simp [State.edgeTaken, h]

/-- A falling edge on a stop whose start takes rising ones does to the registers what the opening of a window does. -/
theorem rd_tiEdge_falling {ch dc b : Nat} {s u : State} {f : Field} (hstop : s.chState ch = 3)
    (hu : windowOpens (ch - 1) (s.coarseNow + dc) (s.waitTick (tickOfCoarse (s.coarseNow + dc))) = u) (h : u.chEdge (ch - 1) = 0) :
    (tiEdge ch dc b true s).rd f = u.rd f := by
  have htaken (e : Edge) : (noteEdge ch e u).edgeTaken (ch - 1) (s.coarseNow + dc) true = false := edgeTaken_falling h
  unfold tiEdge
  simp only [hstop, hu, htaken, if_true, ne_eq, OfNat.ofNat_ne_zero, not_false_eq_true, Bool.false_eq_true, if_false]
  split
  · rfl
  · rfl

theorem windowOpens_due {gov c w : Nat} {s : State} (hw : s.coarseOfTs0 (s.windowFrom (groupOf gov)) = w) (hgated : s.on (R.TIM_CH_CFG_GATED gov) = true)
    (hmode : s.gateMode (groupOf gov) = 3) (hwait : s.on (R.TIM_GRP_STAT_WAITING (groupOf gov)) = true) (hle : w ≤ c) :
    windowOpens gov c s = openGate (groupOf gov) w s := by
  subst hw
  exact if_pos ⟨hgated, hmode, hwait, hle⟩

theorem edge_windowOpens : windowOpens 7 0 pairAcrossGroups.edge = openGate 0 0 pairAcrossGroups.edge :=
  windowOpens_due edge_window_due (by decide +kernel) (by decide +kernel) (by decide +kernel) (Nat.le_refl 0)

theorem waiting_acrossGroups : (tiEdge 8 0 0 true pairAcrossGroups.begin).rd (R.TIM_GRP_STAT_WAITING 0) = 0 := by
  have hedge : (openGate 0 0 pairAcrossGroups.edge).chEdge 7 = 0 := by
    rw [State.chEdge, rd_openGate]
    decide +kernel
  have hnow : pairAcrossGroups.begin.coarseNow = 0 := by decide +kernel
  have hopens : windowOpens (8 - 1) (pairAcrossGroups.begin.coarseNow + 0)
      (pairAcrossGroups.begin.waitTick (tickOfCoarse (pairAcrossGroups.begin.coarseNow + 0))) = openGate 0 0 pairAcrossGroups.edge := by
    rw [hnow]
    exact edge_windowOpens
  refine (rd_tiEdge_falling (by decide +kernel) hopens hedge).trans ?_
  rw [rd_openGate, rd_lo_same]

/-- Refutes O25: an edge too close to the last one on its input, on a stop in group 1, still opens the window of group 0. -/
theorem not_intervalInputs : ¬Obligations.IntervalInputs := by
  rintro ⟨-, -, -, -, -, -, -, -, hundetected, -⟩
  obtain ⟨t, e, -, -, hframe⟩ := hundetected pairAcrossGroups 8 0 0 true 0 (by decide +kernel) (by decide +kernel) (by decide +kernel)
    (by decide +kernel)
  obtain ⟨u, e', k⟩ := go_ended_of (f := tiEdge 8 0 0 true) (s := pairAcrossGroups) rfl
  obtain rfl : u = t := by injection e'.symm.trans e
  have hwait : u.rd (R.TIM_GRP_STAT_WAITING 0) = 0 := (k.rd (by decide)).trans waiting_acrossGroups
  have hkept : u.rd (R.TIM_GRP_STAT_WAITING 0) = pairAcrossGroups.rd (R.TIM_GRP_STAT_WAITING 0) :=
    hframe.rd (by simp) (by decide)
  exact absurd (hwait.symm.trans hkept) (by decide +kernel)

end Sys2Proof.Machine
end

section
/-! PROOFS. A group wakes with an ARM waiting on a channel that has become a partner (R195, R217; O26). -/

namespace Sys2Proof.Machine

/- The kernel evaluates these examples one after another. -/
set_option Elab.async false

/-- Group 0 naps; an ARM waits on channel 0, which is a PARTNER. -/
def partnerWakes : State :=
  ({ tim := { chans := [(0, { pendArm := true })], groups := [(0, { nap := true })] } } : State).wr (R.TIM_CH_STAT_STATE 0) 3

theorem partner_stays : (groupWake 0 partnerWakes.begin).rd (R.TIM_CH_STAT_STATE 0) = 3 := by decide +kernel

/-- Refutes O26: the ARM that waited is refused on a PARTNER, which stays one. -/
theorem not_gatesAndCalibration : ¬Obligations.GatesAndCalibration := by
  rintro ⟨-, -, -, -, -, -, -, -, -, -, -, -, -, -, -, -, -, -, -, hwake, -⟩
  obtain ⟨t, e, harmed, -⟩ := hwake partnerWakes 0 0 (by decide) (by decide) (by decide) (by decide +kernel) (by decide) (by decide +kernel)
    (by decide +kernel)
  obtain ⟨u, e', k⟩ := go_ended_of (f := groupWake 0) (s := partnerWakes) rfl
  obtain rfl : u = t := by injection e'.symm.trans e
  have hpartner : u.chState 0 = 3 := (k.rd (by decide)).trans partner_stays
  exact absurd (hpartner.symm.trans harmed) (by decide)

end Sys2Proof.Machine
end

section
/-! PROOFS. A later fragment of a frame that was cut off in reassembly as its port left UP (R226; O29). -/

namespace Sys2Proof.Machine

/- The kernel evaluates these examples one after another. -/
set_option Elab.async false

/-- Port 0, not UP, left UP at 1 on the clock of durations with a frame open. -/
def cutFramePort : State := { srv := { ports := [(0, { outAt := 1, cutAsm := true })] } }

/-- A fragment that continues it. -/
def cutFragment : RxFrame := { smd := 0x61, frag := 0xE6, bytes := [], back := 0, codeErr := false, backlog := 0, fecOut := false }

theorem cutFragment_stats : (frameRx 0 cutFragment cutFramePort.begin).srv.stats = [] := by decide +kernel

/-- Refutes O29: the fragment's frame was counted as the port left UP and is not counted again. -/
theorem not_portReceive : ¬Obligations.PortReceive := by
  rintro ⟨-, -, hcut, -⟩
  obtain ⟨t, e, hcount, -⟩ := hcut cutFramePort 0 cutFragment (by decide +kernel) (by decide +kernel) (by decide +kernel)
  obtain ⟨u, e', k⟩ := go_ended_of (f := frameRx 0 cutFragment) (s := cutFramePort) rfl
  obtain rfl : u = t := by injection e'.symm.trans e
  rw [k.srv, cutFragment_stats] at hcount
  exact absurd hcount (by decide)

end Sys2Proof.Machine
end

section
/-! PROOFS. The 40 ns of an NTS reservation are measured on TS0 (R18, R301; O30): at another increment they are other picoseconds. -/

namespace Sys2Proof.Machine

/- The kernel evaluates these examples one after another. -/
set_option Elab.async false

/-- A finished response. -/
def finishedResponse : TxFrame := { kind := .answer, bytes := [] }

/-- Port 0, UP, with a finished response, while TS0 runs at twice its nominal rate. -/
def fastReserve : State :=
  ({ tick := { bank0 := { incr := 703687441776640 } }, srv := { ports := [(0, { ready := [finishedResponse] })] } } : State).wr
    (R.MAC_STAT_STATE 0) 3

theorem fastReserve_txq :
    (ntsReserve 0 fastReserve.begin).txq 0 7 = [{ finishedResponse with notBefore := 20000 }] := by decide +kernel

/-- Refutes O30: at twice the nominal increment 40 ns of TS0 are 20,000 ps. -/
theorem not_portTransmit : ¬Obligations.PortTransmit := by
  rintro ⟨-, -, -, -, -, -, -, -, -, -, -, -, -, hreserve, -⟩
  obtain ⟨t, e, -, htxq, -⟩ := hreserve fastReserve 0 finishedResponse [] (by decide +kernel) (by decide +kernel) (by decide +kernel)
    (by decide) (by decide) (by decide +kernel) (by decide +kernel)
  obtain ⟨u, e', k⟩ := go_ended_of (f := ntsReserve 0) (s := fastReserve) rfl
  obtain rfl : u = t := by injection e'.symm.trans e
  have hqueue : u.txq 0 7 = [{ finishedResponse with notBefore := 20000 }] := by
    rw [State.txq, State.port, k.srv]
    exact fastReserve_txq
  exact absurd (hqueue.symm.trans htxq) (by decide +kernel)

end Sys2Proof.Machine
end

section
/-! PROOFS. A write of PTP_INST_PHASE that leaves an instance without error (R314, R345; O32). -/

namespace Sys2Proof.Machine

/- The kernel evaluates these examples one after another. -/
set_option Elab.async false

/-- Instance 0 has good settings, by its reset values and a valid service address, and CFG_ERR at 1. -/
def mendedInstance : State :=
  (({ srv := { ports := [(0, { svc := [(0, [1])] })] } } : State).wr (R.PTP_INST_STAT_CFG_ERR 0) 1).wr (R.TSC_LANE_STAT_STATE 0) 2

theorem mendedInstance_cfgErr :
    (windowWrite 0 (Reg.PTP_INST_PHASE 0) (writeInstRate 0 true 0) mendedInstance.begin).rd (R.PTP_INST_STAT_CFG_ERR 0) = 0 := by
  decide +kernel

/-- Refutes O32: the write of PHASE also clears CFG_ERR. -/
theorem not_ptpEngine : ¬Obligations.PtpEngine := by
  rintro ⟨-, -, -, -, -, -, -, -, -, -, -, -, -, -, -, -, -, -, -, -, -, -, hphase, -⟩
  obtain ⟨t, e, -, hframe⟩ := hphase mendedInstance 0 0 (by decide +kernel)
  obtain ⟨u, e', k⟩ := go_ended_of (f := windowWrite 0 (Reg.PTP_INST_PHASE 0) (writeInstRate 0 true 0)) (s := mendedInstance) rfl
  obtain rfl : u = t := by injection e'.symm.trans e
  have hcleared : u.rd (R.PTP_INST_STAT_CFG_ERR 0) = 0 := (k.rd (by decide)).trans mendedInstance_cfgErr
  have hkept : u.rd (R.PTP_INST_STAT_CFG_ERR 0) = mendedInstance.rd (R.PTP_INST_STAT_CFG_ERR 0) := hframe.rd (by decide) (by decide)
  exact absurd (hcleared.symm.trans hkept) (by decide +kernel)

end Sys2Proof.Machine
end

section
/-! PROOFS. An heir's HELLO joins the Tender queue (R392, R396; O36): the heir waits for it to be sent. -/

namespace Sys2Proof.Machine

/- The kernel evaluates these examples one after another. -/
set_option Elab.async false

theorem stack_waitClk (s : State) (x : Nat) : (s.waitClk x).stack = s.stack :=
  (touches_State_waitClk (ps := [.tick, .lanes]) s x (by decide) (by decide) (Touches.refl _ s)).1 .stack (by decide)

theorem stack_sendTnd_heir (dst type : Nat) (payload : List Nat) (s : State) :
    (sendTnd dst type payload s).stack.heir = s.stack.heir := rfl

theorem stack_modStack (f : Stack → Stack) (s : State) : (s.modStack f).stack = f s.stack := rfl

/-- A HELLO that is queued leaves the heir what it was: what its sending begins comes with the sending. -/
theorem helloSend_heir (s : State) : (helloSend s).stack.heir = s.stack.heir := by
  unfold helloSend
  split
  · rfl
  · dsimp only
    rw [stack_modStack]
    dsimp only
    rw [stack_sendTnd_heir, stack_waitClk]

/-- A node in MEMBER that is to become master. -/
def waitingHeir : State := ({ stack := { heir := 1 } } : State).wr R.MOR_STAT_FABRIC 3

/-- Refutes O36: the heir's HELLO is queued and not sent yet, so that it is not master from the next epoch on. -/
theorem not_tenderBus : ¬Obligations.TenderBus := by
  rintro ⟨-, -, -, -, -, -, hhello, -⟩
  obtain ⟨t, e, -, hstack, -⟩ := hhello waitingHeir (by decide +kernel)
  obtain ⟨u, e', k⟩ := go_ended_of (f := helloSend) (s := waitingHeir) rfl
  obtain rfl : u = t := by injection e'.symm.trans e
  have hwaits : u.stack.heir = 1 := (congrArg Stack.heir k.stack).trans (helloSend_heir _)
  have hsent : u.stack.heir = 2 := congrArg Stack.heir hstack
  exact absurd (hwaits.symm.trans hsent) (by decide)

end Sys2Proof.Machine
end

section
/-! PROOFS. A TIMED link lost with its slot QUARANTINED (R98, R379, R381; O35): the slot stays QUARANTINED. -/

namespace Sys2Proof.Machine

/- The kernel evaluates these examples one after another. -/
set_option Elab.async false

/-- Link 0 in TIMED with 4 epochs missed, and its slot, slot 6, QUARANTINED. -/
def quarantinedLink : State :=
  (({ stack := { links := [(0, { miss := 4 })] } } : State).wr (R.MOR_LINK_STAT_STATE 0) 4).wr (R.ENS_SLOT_STAT_STATE 6)
    Src.quarantined.code

theorem quarantinedLink_slot : (timedLoss 0 quarantinedLink.begin).rd (R.ENS_SLOT_STAT_STATE 6) = Src.quarantined.code := by
  decide +kernel

/-- Refutes O35: the slot of a link that leaves TIMED stays QUARANTINED. -/
theorem not_mooringLinks : ¬Obligations.MooringLinks := by
  rintro ⟨-, -, -, -, hloss, -⟩
  obtain ⟨t, e, -, habsent, -⟩ := hloss quarantinedLink 0 (by decide +kernel) (by decide +kernel)
  obtain ⟨u, e', k⟩ := go_ended_of (f := timedLoss 0) (s := quarantinedLink) rfl
  obtain rfl : u = t := by injection e'.symm.trans e
  have hkept : u.src 6 = .quarantined := congrArg Src.ofCode ((k.rd (by decide)).trans quarantinedLink_slot)
  exact absurd (hkept.symm.trans habsent) (by decide)

end Sys2Proof.Machine
end

section
/-! PROOFS. A HANDOVER heard in LISTEN (R396; O37): a listening node awaits the target's HELLO too. -/

namespace Sys2Proof.Machine

/- The kernel evaluates these examples one after another. -/
set_option Elab.async false

/-- A node in LISTEN. -/
def listeningNode : State := ({} : State).wr R.MOR_STAT_FABRIC 1

/-- A HANDOVER to everyone that names address 2. -/
def handoverFrame : TndFrame := { dst := 0xFF, src := 0, payload := [2] }

theorem listeningNode_awaits : (takeTnd handoverFrame handoverRx listeningNode.begin).stack.heirOf = some 2 := by decide +kernel

/-- Refutes O37: in LISTEN a HANDOVER of the master heard does more than keep the bus busy. -/
theorem not_stackFormation : ¬Obligations.StackFormation := by
  rintro ⟨-, -, -, -, -, -, -, -, -, -, -, -, -, -, -, -, -, -, -, -, -, -, hother, -⟩
  obtain ⟨t, e, -, hstack, -⟩ := hother listeningNode handoverFrame (by decide +kernel) (by decide +kernel)
  obtain ⟨u, e', k⟩ := go_ended_of (f := takeTnd handoverFrame handoverRx) (s := listeningNode) rfl
  obtain rfl : u = t := by injection e'.symm.trans e
  have hawaits : u.stack.heirOf = some 2 := (congrArg Stack.heirOf k.stack).trans listeningNode_awaits
  have hnone : u.stack.heirOf = none := congrArg Stack.heirOf hstack
  exact absurd (hawaits.symm.trans hnone) (by decide)

end Sys2Proof.Machine
end

section
/-! PROOFS. A STEP command that its step port denies at once (R59, R427, R435; O43): it ends where it begins to wait. -/

namespace Sys2Proof.Machine

/- The kernel evaluates these examples one after another. -/
set_option Elab.async false

/-- A STEP of TS1 by PF1, while TS1_EN is 0. -/
def deniedStep : State :=
  { fw := { current := some { path := .lost, sender := 2, bytes := [0x11, 2, 0, 0, 16, 0, 0, 2, 0, 0, 0, 0, 0, 0, 0, 0, 1] } } }

theorem deniedStep_ends :
    (onCurrent (opIs 0x0211) stepCmd deniedStep.begin).fw.running.map (·.ending.isSome) = [true] := by decide +kernel

/-- Refutes O43: a step denied at once ends its command, which the list of those that wait shows. -/
theorem not_timeCommands : ¬Obligations.TimeCommands := by
  rintro ⟨-, -, -, -, -, hstep, -⟩
  obtain ⟨t, e, -, -, hwaits, -⟩ := hstep deniedStep _ rfl (by decide +kernel) (by decide +kernel)
  obtain ⟨u, e', k⟩ := go_ended_of (f := onCurrent (opIs 0x0211) stepCmd) (s := deniedStep) rfl
  obtain rfl : u = t := by injection e'.symm.trans e
  have hends : u.fw.running.map (·.ending.isSome) = [true] := by rw [k.fw]; exact deniedStep_ends
  rw [hwaits] at hends
  exact absurd hends (by decide)

end Sys2Proof.Machine
end

section
/-! PROOFS. A CST_REMOVE whose client is gone by the time of its timeout (R435, R436; O46): it is complete, and leaves the list. -/

namespace Sys2Proof.Machine

/- The kernel evaluates these examples one after another. -/
set_option Elab.async false

/-- A CST_REMOVE that waits for a client the table no longer holds, 100 ms after it began. -/
def emptyRemoval : State :=
  { fw := { running := [{ cmd := { path := .lost, sender := 2, bytes := [0x21, 7] } }] } }

theorem emptyRemoval_leaves : (commandTimeout 0 emptyRemoval.begin).fw.running = [] := by decide +kernel

/-- Refutes O46: a removal with nothing to remove is over at its timeout, and not one that goes on answered. -/
theorem not_commandService : ¬Obligations.CommandService := by
  rintro ⟨-, -, -, -, -, -, -, -, -, -, -, -, -, -, -, -, -, -, htimeout⟩
  obtain ⟨t, e, -, -, hgoes, -⟩ := htimeout emptyRemoval 0 _ rfl rfl rfl rfl rfl
  obtain ⟨u, e', k⟩ := go_ended_of (f := commandTimeout 0) (s := emptyRemoval) rfl
  obtain rfl : u = t := by injection e'.symm.trans e
  have hleft : u.fw.running = [] := by rw [k.fw]; exact emptyRemoval_leaves
  rw [State.runningAt, hleft] at hgoes
  exact absurd hgoes (by decide)

end Sys2Proof.Machine
end

section
/-! PROOFS. A CST_REMOVE whose number a command in progress has too (R436; O44): the end of the one ends the other. -/

namespace Sys2Proof.Machine

theorem checked_of_refusal_none {c : Cmd} {lenOk absent : Bool} {fields : List (Nat × Bool)} {act : State → State} {s : State}
    (h : refusal lenOk fields absent (s.holder c) = none) : checked c lenOk fields absent act s = act s := by
  unfold refusal at h
  unfold checked
  cases lenOk with
  | false => simp at h
  | true =>
    cases hfault : firstFault fields with
    | some d => simp [hfault] at h
    | none =>
      cases absent with
      | true => simp [hfault] at h
      | false =>
        cases hheld : s.holder c with
        | some op => simp [hfault, hheld] at h
        | none => simp

theorem checked_of_refusal {c : Cmd} {lenOk absent : Bool} {fields : List (Nat × Bool)} {act : State → State} {s : State} {st d : Nat}
    (h : refusal lenOk fields absent (s.holder c) = some (st, d)) : checked c lenOk fields absent act s = answer c st d [] s := by
  unfold refusal at h
  unfold checked
  cases lenOk with
  | false => obtain ⟨rfl, rfl⟩ : 3 = st ∧ 4 = d := by simpa using h
             rfl
  | true =>
    cases hfault : firstFault fields with
    | some k =>
      obtain ⟨rfl, rfl⟩ : 3 = st ∧ k = d := by simpa [hfault] using h
      rfl
    | none =>
      cases absent with
      | true =>
        obtain ⟨rfl, rfl⟩ : 5 = st ∧ 0 = d := by simpa [hfault] using h
        rfl
      | false =>
        cases hheld : s.holder c with
        | none => simp [hfault, hheld] at h
        | some op =>
          obtain ⟨rfl, rfl⟩ : 1 = st ∧ op = d := by simpa [hfault, hheld] using h
          rfl

theorem removeWhenFree_of_free {r : Running} {s : State} {i : Nat} (hi : s.namedEntry r.cmd = some i)
    (hfree : s.cstWaited (r.cmd.b 0) i = false) :
    removeWhenFree r s = endRunning r.id 0 0 [] (ntpStat (r.cmd.b 0) 7 (s.setCst i {})) := by
  simp [removeWhenFree, hi, hfree]

theorem ways_eq_cons (d b : Nat) :
    ways d b = (d * 2097152 + b * 8) :: ((List.range 7).map Nat.succ).map (fun w => d * 2097152 + b * 8 + w) := by
  rw [ways, List.range_succ_eq_map, List.map_cons, Nat.add_zero]

theorem namedEntry_of_first_way {s : State} {c : Cmd} {i : Nat} (hi : i = c.b 0 * 2097152 + s.namedHash c % 2 ^ 18 * 8)
    (hlive : s.cstLive (c.b 0) i = true) (hkey : (s.cst i).key = s.namedHash c) : s.namedEntry c = some i := by
  subst hi
  unfold State.namedEntry
  dsimp only
  rw [ways_eq_cons, List.cons_append, List.find?_cons_of_pos]
  simp only [hlive, hkey, decide_true, Bool.and_self]

/-- A CST_REMOVE of an IPv4 client of die 0. -/
def removeClient : Cmd :=
  { path := .lost, sender := 2, bytes := [0x21, 7, 0, 0, 28, 0, 0, 2, 0, 0, 0, 0, 0, 0, 0, 0, 0, 4] }

/-- The command begun while another runs under the number it comes to have; the client's entry is the first way of the bucket its hash `h` names. -/
def sharedNumber (h : Nat) : State :=
  ({ srv := { cst := [(0 * 2097152 + h % 2 ^ 18 * 8, { key := h, valid := true })] }
     fw := { current := some removeClient, running := [{}] } } : State).wr (R.TSC_LANE_STAT_STATE 0) 2

/-- The hash of that client. -/
def removedHash : Nat := State.namedHash ({} : State) removeClient

/-- Its entry. -/
def removedEntry : Nat := 0 * 2097152 + removedHash % 2 ^ 18 * 8

theorem cst_sharedNumber : (sharedNumber removedHash).cst removedEntry = { key := removedHash, valid := true } := by
  show IMap.get ({} : CstEntry) [(removedEntry, _)] removedEntry = _
  simp [IMap.get]

theorem namedEntry_sharedNumber : (sharedNumber removedHash).namedEntry removeClient = some removedEntry := by
  refine namedEntry_of_first_way rfl ?_ ?_
  · rw [show removeClient.b 0 = 0 from rfl, State.cstLive, cst_sharedNumber]
    rfl
  · rw [cst_sharedNumber]
    rfl

/-- The removal, the command having begun to wait. -/
theorem sharedNumber_removes :
    cstRemove removeClient (sharedNumber removedHash).begin
      = endRunning 0 0 0 [] (ntpStat 0 7 ((hold removeClient false (sharedNumber removedHash).begin).setCst removedEntry {})) := by
  have hnamed : (sharedNumber removedHash).begin.namedEntry removeClient = some removedEntry := namedEntry_sharedNumber
  unfold cstRemove
  rw [hnamed, checked_of_refusal_none rfl]
  exact removeWhenFree_of_free namedEntry_sharedNumber rfl

/-- Refutes O44: the command that ran ends with the removal. -/
theorem not_serviceCommands : ¬Obligations.ServiceCommands := by
  rintro ⟨-, -, -, -, -, -, -, -, -, -, -, -, -, -, -, -, -, -, -, hremove, -⟩
  obtain ⟨t, e, -, hruns, -⟩ := hremove (sharedNumber removedHash) removeClient removedEntry rfl rfl
    (by rw [namedEntry_sharedNumber]; rfl) namedEntry_sharedNumber
  obtain ⟨u, e', k⟩ := go_ended_of (f := onCurrent (opIs 0x0721) cstRemove) (s := sharedNumber removedHash) sharedNumber_removes
  obtain rfl : u = t := by injection e'.symm.trans e
  have hended : u.fw.running.map (·.ending.isSome) = [true, true] := by rw [k.fw]; rfl
  rw [hruns] at hended
  exact absurd (congrArg List.head? hended) (by decide)

end Sys2Proof.Machine
end

section
/-! PROOFS. A function-level reset in the tick in which a frame of the other function's ring ends (R361, R447; O48): the frame's write-back
comes with it. -/

namespace Sys2Proof.Machine

/- The kernel evaluates these examples one after another. -/
set_option Elab.async false

/-- Ring 0, of PF0, with one descriptor whose frame has been committed whole on port 0 by now. -/
def endedFrame : State :=
  { rings := [(0, { out := [{}] })]
    srv := { ports := [(0, { flight := some { frame := { kind := .host 0 0 0 0 0 } } })] } }

theorem endedFrame_writtenBack : ((beginFlr 1 endedFrame.begin).ring 0).out = [] := by decide +kernel

/-- Refutes O48: the reset of PF1 finds the descriptor of PF0's ring written back. -/
theorem not_resetRequests : ¬Obligations.ResetRequests := by
  rintro ⟨-, -, -, -, -, -, -, -, -, -, -, -, -, -, -, -, -, -, -, -, hflr, -⟩
  obtain ⟨t, e, -, hothers, -⟩ := hflr endedFrame 1 rfl
  obtain ⟨u, e', k⟩ := go_ended_of (f := beginFlr 1) (s := endedFrame) rfl
  obtain rfl : u = t := by injection e'.symm.trans e
  have hback : (u.ring 0).out = [] := by rw [State.ring, k.rings]; exact endedFrame_writtenBack
  have hkept : (u.ring 0).out = (endedFrame.ring 0).out := congrArg Ring.out (hothers 0 (by decide +kernel))
  exact absurd (hback.symm.trans hkept) (by decide)

end Sys2Proof.Machine
end

section
/-! PROOFS. A flash operation that fails while the boundary cells drive the flash (R459, R497; O49): the commit ends. -/

namespace Sys2Proof.Machine

/- The kernel evaluates these examples one after another. -/
set_option Elab.async false

/-- A commit in progress under EXTEST. -/
def testedCommit : State := { rst := { tap := .extest }, cfg := { commit := some {} } }

theorem testedCommit_ends : (flashOpComplete false testedCommit.begin).cfg.commit = none := by decide +kernel

/-- Refutes O49: in a test mode no operation completes, but one may fail. -/
theorem not_bootAndCommit : ¬Obligations.BootAndCommit := by
  rintro ⟨-, -, -, -, -, -, -, -, -, -, -, -, -, -, -, -, -, -, -, htest⟩
  obtain ⟨t, e, hframe⟩ := htest testedCommit false (by decide)
  obtain ⟨u, e', k⟩ := go_ended_of (f := flashOpComplete false) (s := testedCommit) rfl
  obtain rfl : u = t := by injection e'.symm.trans e
  have hends : u.cfg.commit = none := (congrArg Cfg.commit k.cfg).trans testedCommit_ends
  have hkept : u.cfg.commit = testedCommit.cfg.commit := congrArg Cfg.commit (hframe.2.1 .cfg (by decide) rfl)
  exact absurd (hends.symm.trans hkept) (by decide)

end Sys2Proof.Machine
end

section
/-! PROOFS. A scheduled run that begins past midnight (R477; O52): LAST_DAY takes the day on which it begins. -/

namespace Sys2Proof.Machine

/- The kernel evaluates these examples one after another. -/
set_option Elab.async false

/-- Test 0 in progress, from two days on, with a scheduled run due. -/
def dueRun : State := { watch := { run := some { tests := [0], since := 2 * 86400 * sec16 1 }, due := true } }

theorem dueRun_lastDay : (watchTestEnd [] 0 dueRun.begin).rd R.WCH_STAT_LAST_DAY = 1 := by decide +kernel

/-- Refutes O52: the day the run takes is not the one on which the test before it was still in progress. -/
theorem not_watchRuns : ¬Obligations.WatchRuns := by
  rintro ⟨-, -, -, -, -, -, -, -, -, -, hdue, -⟩
  obtain ⟨t, e, hday, -⟩ := hdue dueRun [] 0 _ 0 rfl rfl rfl rfl (by decide) (by decide)
  obtain ⟨u, e', k⟩ := go_ended_of (f := watchTestEnd [] 0) (s := dueRun) rfl
  obtain rfl : u = t := by injection e'.symm.trans e
  have htaken : u.rd R.WCH_STAT_LAST_DAY = 1 := (k.rd (by decide)).trans dueRun_lastDay
  exact absurd (htaken.symm.trans hday) (by decide +kernel)

end Sys2Proof.Machine
end

section
/-! PROOFS. A performance counter that overflows as a RELAY begins (R386, R462, R466; O45): its message goes out too. -/

namespace Sys2Proof.Machine

/- The kernel evaluates these examples one after another. -/
set_option Elab.async false

/-- A RELAY to address 2, with link 0 UP, and counter 0 at its last value on the edges of event 0x023, a command in progress, its message
enabled. -/
def relayOverflow : State :=
  (((({ fw := { current := some { path := .lost, sender := 2, bytes := [0x10, 9, 0, 0, 20, 0, 0, 2, 0, 0, 0, 0, 0, 0, 0, 0, 2] } }
        pct := [(0, { event := 0x023, count := 2 ^ 48 - 1 })] } : State).wr (R.MOR_LINK_STAT_STATE 0) 3).wr
    (R.TND_NODE_INFO_PRESENT 1) 1).wr (R.PCT_OVF_EN_EN 0) 1).wr (R.MSIX_CTRL_MASK (64 + 48)) 0

theorem relayOverflow_out :
    (countEdges relayOverflow (onCurrent (opIs 0x0910) relayCmd relayOverflow.begin)).out.length = 2 := by decide +kernel

/-- Refutes O45: the frame is not all that goes out. -/
theorem not_systemCommands : ¬Obligations.SystemCommands := by
  rintro ⟨-, -, hrelay, -⟩
  obtain ⟨t, e, hout, -⟩ := hrelay relayOverflow _ 0 rfl (by decide +kernel) (by decide +kernel) (by decide +kernel)
  obtain rfl : { countEdges relayOverflow (onCurrent (opIs 0x0910) relayCmd relayOverflow.begin) with pending := relayOverflow.pending } = t := by
    injection e
  exact absurd (relayOverflow_out.symm.trans (congrArg List.length hout)) (by decide)

end Sys2Proof.Machine
end

section
/-! PROOFS. What a reply shows its sender (R366, R410, R423, R429), and that it ends the command begun (R427). -/

namespace Sys2Proof.Machine

/-! ### Words of bytes -/

theorem foldr_zeros (m : Nat) : (List.replicate m 0).foldr (fun b a => b + 256 * a) 0 = 0 := by
  induction m with
  | zero => rfl
  | succ m ih => rw [List.replicate_succ, List.foldr_cons, ih]

theorem leAt_append_zeros (l : List Nat) (m i n : Nat) : leAt (l ++ List.replicate m 0) i n = leAt l i n := by
  unfold leAt
  rw [List.drop_append, List.take_append, List.drop_replicate, List.take_replicate, List.foldr_append, foldr_zeros]

theorem leAt_take (l : List Nat) {m i n : Nat} (h : i + n ≤ m) : leAt (l.take m) i n = leAt l i n := by
  unfold leAt
  rw [List.drop_take, List.take_take, Nat.min_eq_left (by omega)]

theorem leAt_second {l : List Nat} (hl : l.length = 4) (a b f e : Nat) (rest : List Nat) :
    leAt (l ++ a :: b :: f :: e :: rest) 4 4 = a + 256 * (b + 256 * (f + 256 * e)) := by
  unfold leAt
  rw [List.drop_left' hl]
  simp only [List.take_succ_cons, List.take_zero, List.foldr_cons, List.foldr_nil, Nat.mul_zero, Nat.add_zero]

theorem leAt_fwPacket (c : Cmd) (st d len : Nat) (ps : List Nat) : leAt (fwPacket c 1 st d len ps) 4 4 =
    len % 256 + 256 * (len / 256 % 256 + 256 * (1 + 2 * b01 c.force + 256 * 3)) := by
  have hhead : ((c.bytes ++ [0, 0, 0, 0]).take 4).length = 4 := by simp
  unfold fwPacket
  simp only [List.append_assoc]
  exact leAt_second hhead _ _ _ _ _

/-- The second word of a reply ends in the firmware's stamp. -/
theorem leAt_reply (c : Cmd) (st d : Nat) (ps : List Nat) : ∃ low < 2 ^ 24, leAt (c.reply st d ps) 4 4 = low + 3 * 2 ^ 24 := by
  have hforce : b01 c.force ≤ 1 := by cases c.force <;> decide
  have hlow : ∀ len, len % 256 + 256 * (len / 256 % 256 + 256 * (1 + 2 * b01 c.force)) < 2 ^ 24 := fun len => by omega
  have hpacket : ∀ d len ps, ∃ low < 2 ^ 24, leAt (fwPacket c 1 st d len ps) 4 4 = low + 3 * 2 ^ 24 := fun d len ps =>
    ⟨_, hlow len, by rw [leAt_fwPacket]; omega⟩
  unfold Cmd.reply
  dsimp only
  split
  · exact hpacket _ _ _
  · exact hpacket _ _ _

/-! ### A packet in a mailbox -/

theorem rd_putWords_ne {c : Nat} (b : List Nat) (s : State) {g : Field} (hg : g.side = false) (hk : ∀ f ∈ wordFields c, g.key ≠ f.key) :
    (putWords c b s).rd g = s.rd g :=
  (frame_putWords (ps := []) (fun _ h => h) (Frame.refl _ _ s)).rd hk hg

/-! ### A descriptor written back -/

theorem drainList_out (q : Nat) (l : List RingDesc) : ∀ s : State, ((drainList q l s).ring q).out = l.dropWhile (·.back.isSome) := by
  induction l with
  | nil =>
    intro s
    unfold drainList
    simp only [State.ring, State.modRing, IMap.get_upd_same, List.dropWhile_nil]
  | cons d l ih =>
    intro s
    unfold drainList
    split
    · next h => simp [h, State.ring, State.modRing]
    · next b h => rw [ih, List.dropWhile_cons_of_pos (by simp [h])]

theorem quiesce_rings (q : Nat) (s : State) : (quiesce q s).rings = s.rings := by
  unfold quiesce
  split <;> rfl

theorem finishDesc_out (q idx : Nat) (back : RingDesc → RingDesc) (s : State) :
    ((finishDesc q idx back s).ring q).out
      = ((s.ring q).out.map fun d => if d.idx = idx then back d else d).dropWhile (·.back.isSome) := by
  have hring (t : State) (u : State) (h : t.rings = u.rings) : t.ring q = u.ring q := by rw [State.ring, State.ring, h]
  unfold finishDesc drain
  rw [hring _ _ (quiesce_rings q _), drainList_out]
  simp only [State.ring, State.modRing, IMap.get_upd_same]

/-- No descriptor of that index is outstanding once it has been given its write-back. -/
theorem descOut_finishDesc (q idx : Nat) {back : RingDesc → RingDesc} (hback : ∀ d, (back d).back.isSome = true) (s : State) :
    (finishDesc q idx back s).descOut q idx = false := by
  rw [State.descOut, finishDesc_out, List.any_eq_false]
  intro d hd
  obtain ⟨e, -, rfl⟩ := List.mem_map.1 (List.dropWhile_sublist _ |>.subset hd)
  split
  · rw [Option.isNone_eq_false_iff.2 (hback e), Bool.and_false]
    exact Bool.false_ne_true
  · next hne => simp [hne]

theorem writeBack_out (q idx : Nat) (b : List Nat) (s : State) : Output.dma (s.ringBase q + idx * 32) b ∈ (writeBack q idx b s).out := by
  have hframe : (s.emit (.dma (s.ringBase q + idx * 32) b)).out <:+ (writeBack q idx b s).out := by
    have hw : ∀ (v : Nat) (f : Ring → Ring), Frame [R.HRG_RING_HEAD_HEAD q] [.rings] (s.emit (.dma (s.ringBase q + idx * 32) b))
        (((s.emit (.dma (s.ringBase q + idx * 32) b)).wr (R.HRG_RING_HEAD_HEAD q) v).modRing q f) := fun v f =>
      frame_modRing (by simp) (frame_wr (by simp) (Frame.refl _ _ _))
    exact (frame_ite (frame_ringMsi (by simp) (hw _ _)) (hw _ _)).2.2.2.1
  exact hframe.subset List.mem_cons_self

/-- The first descriptor of a ring is written back at once. -/
theorem finishDesc_head {q idx : Nat} {back : RingDesc → RingDesc} {b : RingDesc → List Nat} (hback : ∀ d, back d = { d with back := some (b d) })
    (s : State) {d : RingDesc} (hd : (s.ring q).out.head? = some d) (hidx : d.idx = idx) :
    Output.dma (s.ringBase q + idx * 32) (b d) ∈ (finishDesc q idx back s).out := by
  obtain ⟨rest, hout⟩ : ∃ rest, (s.ring q).out = d :: rest := by
    cases h : (s.ring q).out with
    | nil => simp [h] at hd
    | cons x rest => exact ⟨rest, by simpa [h] using hd⟩
  obtain ⟨m, hm⟩ : ∃ m : State, m = s.modRing q (fun r => { r with out := r.out.map (fun d => if d.idx = idx then back d else d) }) := ⟨_, rfl⟩
  have hlist : (m.ring q).out = { d with back := some (b d) } :: rest.map (fun d => if d.idx = idx then back d else d) := by
    rw [hm, State.ring, State.modRing, IMap.get_upd_same]
    show ((s.ring q).out.map _) = _
    rw [hout, List.map_cons, if_pos hidx, hback]
  have hfree : (freeStamp q { d with back := some (b d) } m).ringBase q = s.ringBase q := by
    rw [hm]
    unfold freeStamp
    split <;> rfl
  have hsuffix : ∀ t : State, t.out <:+ (quiesce q (drainList q (rest.map fun d => if d.idx = idx then back d else d) t)).out := fun t => by
    have h := frame_drainList (fs := drainFields q) (ps := [.rings, .srv]) (q := q) (by simp [drainFields]) (by simp) (by simp)
      (rest.map fun d => if d.idx = idx then back d else d) (Frame.refl _ _ t)
    exact (frame_ite (frame_hi (by simp [drainFields]) h) h).2.2.2.1
  have hfinish : finishDesc q idx back s = quiesce q (drainList q (rest.map fun d => if d.idx = idx then back d else d)
      (writeBack q d.idx (b d) (freeStamp q { d with back := some (b d) } m))) := by
    unfold finishDesc drain
    rw [← hm, hlist]
    rfl
  subst hidx
  rw [hfinish, ← hfree]
  exact (hsuffix _).subset (writeBack_out q d.idx (b d) _)

/-! ### The command begun is over -/

theorem current_agentFeed (n : Nat) : ∀ s : State, (agentFeed n s).fw.current = s.fw.current := by
  induction n with
  | zero => exact fun _ => rfl
  | succ n ih =>
    intro s
    rw [agentFeed_succ]
    split
    · rfl
    · next src pkt rest _ =>
      split
      · exact ih _
      · split
        · rw [ih, relayHandOver, goFull_fw]
          have hput : (putWords (relayChannel s) pkt ((s.dropRelay rest).wr (R.MBX_STAT_OWNER (relayChannel s)) (7 + src))).fw = s.fw :=
            (touches_putWords (ps := [.regs .mbx]) _ _ _ (by simp) (Touches.refl _ _)).1 .fw (by simp)
          split <;> simp [hput]
        · rfl

theorem current_mbxEmpty (c : Nat) (s : State) : (mbxEmpty c s).fw.current = s.fw.current := by rw [mbxEmpty_fw]

theorem current_goReplied (c : Nat) (s : State) : (goReplied c s).fw.current = s.fw.current := by
  cases horphan : s.on (R.MBX_STAT_ORPHAN c) with
  | true => rw [goReplied_orphan horphan, current_mbxEmpty]
  | false =>
    rw [goReplied_fw horphan]
    split <;> rfl

theorem current_agentReply (c : Nat) (s : State) : (agentReply c s).fw.current = s.fw.current := by
  unfold agentReply
  split
  · have hsend : (sendRelay (s.mbxOwner c - 7) (s.mbxPacket c) s).fw = s.fw :=
      (touches_sendRelay (ps := [.stack]) _ _ _ (by simp) (Touches.refl _ _)).1 .fw (by simp)
    rw [agentRun, current_agentFeed, current_mbxEmpty, hsend]
  · rfl

theorem writeMbxCtl_done (c : Nat) (p : MbxPath) (s : State) : writeMbxCtl c p 2 s =
    if s.asReceiver c p && s.mbxState c = 2 then agentReply c (goReplied c s) else reject c p (Reg.MBX_CTL c).addr false s := rfl

theorem current_writeMbxCtl_done (c : Nat) (p : MbxPath) (s : State) : (writeMbxCtl c p 2 s).fw.current = s.fw.current := by
  rw [writeMbxCtl_done]
  split
  · rw [current_agentReply, current_goReplied]
  · exact congrArg Fw.current ((touches_reject (ps := [.log, .regs .mbx, .regs .wch]) _ _ _ _ _ (by simp) (by simp) (by simp)
      (Touches.refl _ s)).1 .fw (by simp))

theorem current_writeReply (c : Cmd) (st d : Nat) (ps : List Nat) (s : State) : (writeReply c st d ps s).fw.current = s.fw.current := by
  unfold writeReply
  split
  · next ch _ =>
    have hput (r : List Nat) : (putWords ch r s).fw = s.fw :=
      (touches_putWords (ps := [.regs .mbx]) _ _ _ (by simp) (Touches.refl _ _)).1 .fw (by simp)
    have hdone (r : List Nat) :
        (if s.mbxState ch = 2 then writeMbxCtl ch (.keeper true) 2 (putWords ch r s) else s).fw.current = s.fw.current := by
      split
      · rw [current_writeMbxCtl_done, hput]
      · rfl
    exact hdone _
  · next q idx _ addr len _ =>
    have hdone (back : RingDesc → RingDesc) (v : State) : (finishDesc q idx back v).fw = v.fw :=
      (touches_finishDesc (ps := [.srv, .rings, .regs .ring]) _ _ _ _ (by simp) (by simp) (by simp) (Touches.refl _ v)).1 .fw (by simp)
    split
    · rw [hdone]
      split <;> rfl
    · rfl
  · exact congrArg Fw.current ((touches_sendRelay (ps := [.stack]) _ _ _ (by simp) (Touches.refl _ s)).1 .fw (by simp))
  · rfl

theorem current_answer (c : Cmd) (st d : Nat) (ps : List Nat) (s : State) : (answer c st d ps s).fw.current = none :=
  current_writeReply c st d ps _

end Sys2Proof.Machine
end

section
/-! PROOFS. What a reply shows its sender, by the command's path (R366, R410, R423). -/

namespace Sys2Proof.Machine

/-- The packet as a mailbox holds it. -/
def Cmd.held (c : Cmd) (r : List Nat) : List Nat := if 0x0710 ≤ c.op ∧ c.op ≤ 0x0713 then (r ++ List.replicate 64 0).take 64 else r

theorem Cmd.held_length {c : Cmd} {r : List Nat} {k : Nat} (hk : k < 16) (h : 4 * k < r.length) : 4 * k < (c.held r).length := by
  unfold Cmd.held
  split
  · simp; omega
  · exact h

theorem Cmd.leAt_held (c : Cmd) (r : List Nat) {k : Nat} (hk : k < 16) : leAt (c.held r) (4 * k) 4 = leAt r (4 * k) 4 := by
  unfold Cmd.held
  split
  · rw [leAt_take _ (by omega), leAt_append_zeros]
  · rfl

section
variable {u : State} {ch : Nat}

/-- A channel that waits for the firmware's reply: its packet is FULL, and no peer's nor a sender's that is gone. -/
structure Awaits (u : State) (ch : Nat) : Prop where
  receiver : u.asReceiver ch (.keeper true) = true
  full : u.mbxState ch = 2
  live : u.on (R.MBX_STAT_ORPHAN ch) = false
  host : u.mbxOwner ch < 8

theorem Awaits.receiver_keeper (h : Awaits u ch) : mbxReceiver ch = 3 := ((asReceiver_iff.1 h.receiver).1).symm

theorem Awaits.putWords (h : Awaits u ch) (b : List Nat) : Awaits (putWords ch b u) ch := by
  have hrd {g : Field} (hs : g.side = false) (hk : ∀ f ∈ wordFields ch, g.key ≠ f.key) : (Machine.putWords ch b u).rd g = u.rd g :=
    rd_putWords_ne b u hs hk
  have hstat : ∀ f ∈ wordFields ch, (R.MBX_STAT_STATE ch).key ≠ f.key ∧ (R.MBX_STAT_ORPHAN ch).key ≠ f.key ∧ (R.MBX_STAT_OWNER ch).key ≠ f.key := by
    intro f hf
    obtain ⟨k, hk, rfl⟩ := List.mem_map.1 hf
    have hk : k < 16 := List.mem_range.1 hk
    simp only [R.MBX_STAT_STATE, R.MBX_STAT_ORPHAN, R.MBX_STAT_OWNER, R.MBX_DATA_DATA, Field.mk']
    omega
  refine ⟨?_, ?_, ?_, ?_⟩
  · have hdown := rxDown_of_touches (touches_putWords (ps := [.fw, .regs .mbx]) ch b u (by simp) (Touches.refl _ u)) ch
    unfold State.asReceiver
    rw [hdown]
    exact h.receiver
  · exact (hrd (side_mbxState ch) fun f hf => (hstat f hf).1).trans h.full
  · rw [← h.live, State.on, State.on, hrd (side_mbxOrphan ch) fun f hf => (hstat f hf).2.1]
  · exact lt_of_eq_of_lt (hrd (side_mbxOwner ch) fun f hf => (hstat f hf).2.2) h.host

/-- DONE by the firmware on such a channel makes it REPLIED. -/
theorem Awaits.done (h : Awaits u ch) : writeMbxCtl ch (.keeper true) 2 u = goReplied ch u := by
  rw [writeMbxCtl_done, if_pos (by rw [h.receiver, h.full]; rfl)]
  refine agentReply_host (.inr (lt_of_eq_of_lt ?_ h.host))
  refine (rd_goReplied h.live (side_mbxOwner ch) ?_).trans (owner_repliedBase ch u)
  simp only [R.MBX_STAT_OWNER, R.MBX_EVT_BITS, Field.mk']; omega

/-- The words of its reply. -/
theorem Awaits.rd_words (h : Awaits u ch) (c : Cmd) (st d : Nat) (ps : List Nat) {k : Nat} (hk : k < 16)
    (hlen : 4 * k < (c.reply st d ps).length) :
    (goReplied ch (Machine.putWords ch (c.held (c.reply st d ps)) u)).rd (R.MBX_DATA_DATA (ch * 16 + k))
      = leAt (c.reply st d ps) (4 * k) 4 % 2 ^ 32 := by
  have hput := h.putWords (c.held (c.reply st d ps))
  have hword := rd_putWords (c := ch) u hk (c.held_length hk hlen)
  rw [c.leAt_held _ hk] at hword
  by_cases h1 : k = 1
  · subst h1
    obtain ⟨low, hlow, hsum⟩ := leAt_reply c st d ps
    rw [rd_goReplied_stamp hput.live, h.receiver_keeper, hword]
    simp only [Nat.mul_one, hsum]
    omega
  · refine (rd_goReplied hput.live (side_mbxData _) ?_).trans ((rd_repliedBase_ne ch _ ?_ ?_).trans hword) <;>
      simp only [R.MBX_DATA_DATA, R.MBX_EVT_BITS, R.MBX_STAT_STATE, Field.mk'] <;> omega

end

/-- By mailbox. -/
theorem replied_mbx {c : Cmd} {ch : Nat} (hpath : c.path = .mbx ch) (st d : Nat) (ps : List Nat) {s u t : State}
    (k : Ended s (writeReply c st d ps u) t) : replied c st d ps u t = true := by
  unfold replied
  rw [hpath]
  dsimp only
  rw [Bool.or_eq_true, Bool.not_eq_true']
  by_cases hwait : Awaits u ch
  · refine .inr ?_
    have hwrite : writeReply c st d ps u = goReplied ch (putWords ch (c.held (c.reply st d ps)) u) := by
      unfold writeReply
      rw [hpath]
      dsimp only
      rw [if_pos hwait.full]
      exact (hwait.putWords _).done
    rw [hwrite] at k
    rw [Bool.and_eq_true, decide_eq_true_iff, List.all_eq_true]
    refine ⟨(k.rd (side_mbxState ch)).trans (rd_goReplied_state (hwait.putWords _).live), fun w hw => ?_⟩
    have hw : w < 16 := List.mem_range.1 hw
    rw [Bool.or_eq_true, decide_eq_true_iff, decide_eq_true_iff]
    refine (Nat.lt_or_ge (4 * w) (c.reply st d ps).length).symm.imp_right fun hlen => ?_
    exact (k.rd (side_mbxData _)).trans (hwait.rd_words c st d ps hw hlen)
  · refine .inl (Bool.eq_false_iff.2 fun h => hwait ?_)
    simp only [Bool.and_eq_true, Bool.not_eq_true', decide_eq_true_iff] at h
    exact ⟨h.1.1.1, h.1.1.2, h.1.2, h.2⟩

/-- A command descriptor with the write-back of a reply of `len` bytes where `n` fit (R366). -/
def answeredDesc (len n : Nat) (e : RingDesc) : RingDesc := { e with back := some (cmdBack e.tag len (if n < len then 3 else 1)) }

/-- By a command ring. -/
theorem replied_ring {c : Cmd} {q idx m addr n : Nat} (hpath : c.path = .ring q idx m addr n) (st d : Nat) (ps : List Nat) {s u t : State}
    (k : Ended s (writeReply c st d ps u) t) : replied c st d ps u t = true := by
  unfold replied
  rw [hpath]
  dsimp only
  rw [Bool.or_eq_true, Bool.not_eq_true']
  refine (Bool.eq_false_or_eq_true (u.descOut q idx)).symm.imp_right fun hout => ?_
  obtain ⟨v, hv⟩ : ∃ v : State, v = if (c.reply st d ps).take n = [] then u else u.emit (.dma addr ((c.reply st d ps).take n)) := ⟨_, rfl⟩
  have hwrite : writeReply c st d ps u = finishDesc q idx (answeredDesc (c.reply st d ps).length n) v := by
    unfold writeReply
    rw [hpath, hv]
    dsimp only
    rw [hout, if_pos rfl]
    rfl
  have hsuffix : v.out <:+ t.out := by
    have h := frame_finishDesc (fs := drainFields q) (ps := [.rings, .srv]) (idx := idx) (back := answeredDesc (c.reply st d ps).length n) (fun _ h => h) (by simp) (by simp)
      (Frame.refl _ _ v)
    exact h.2.2.2.1.trans (hwrite ▸ k.out)
  have hring : v.ring q = u.ring q := by rw [hv]; split <;> rfl
  have hbase : v.ringBase q = u.ringBase q := by rw [hv]; split <;> rfl
  have hdone : t.descOut q idx = false := by
    rw [State.descOut, show t.ring q = (writeReply c st d ps u).ring q by rw [State.ring, k.rings, State.ring], hwrite]
    exact descOut_finishDesc q idx (fun _ => rfl) v
  simp only [hdone, Bool.not_false, Bool.true_and, Bool.and_eq_true, Bool.or_eq_true, decide_eq_true_iff]
  refine ⟨?_, ?_⟩
  · by_cases hcut : (c.reply st d ps).take n = []
    · exact .inl hcut
    · rw [if_neg hcut] at hv
      exact .inr (hsuffix.subset (hv ▸ List.mem_cons_self))
  · cases hhead : (u.ring q).out.head? with
    | none => rfl
    | some e =>
      simp only [Option.all_some, Bool.or_eq_true, decide_eq_true_iff]
      refine (em (e.idx = idx)).symm.imp_right fun hidx => ?_
      have hmem := finishDesc_head (q := q) (idx := idx) (back := answeredDesc (c.reply st d ps).length n) (fun _ => rfl) v
        (hring ▸ hhead) hidx
      rw [← hwrite, hbase] at hmem
      exact k.out.subset hmem

/-- By a RELAY frame. -/
theorem replied_relay {c : Cmd} {src : Nat} (hpath : c.path = .relay src) (st d : Nat) (ps : List Nat) {s u t : State}
    (k : Ended s (writeReply c st d ps u) t) : replied c st d ps u t = true := by
  have hwrite : writeReply c st d ps u = sendRelay src (c.reply st d ps) u := by
    unfold writeReply
    rw [hpath]
  rw [hwrite] at k
  unfold replied
  rw [hpath]
  dsimp only
  cases hlink : u.relayLink src with
  | none => rfl
  | some l =>
    refine decide_eq_true (k.out.subset ?_)
    unfold sendRelay
    rw [hlink]
    exact List.mem_cons_self

/-- A reply shows its sender the packet, whatever the path. -/
theorem replied_writeReply {c : Cmd} {st d : Nat} {ps : List Nat} {s u t : State} (k : Ended s (writeReply c st d ps u) t) :
    replied c st d ps u t = true := by
  cases hpath : c.path with
  | mbx ch => exact replied_mbx hpath st d ps k
  | ring q idx m addr n => exact replied_ring hpath st d ps k
  | relay src => exact replied_relay hpath st d ps k
  | lost => rw [replied, hpath]

theorem replied_fw (c : Cmd) (st d : Nat) (ps : List Nat) (u : State) (f : Fw) (t : State) :
    replied c st d ps { u with fw := f } t = replied c st d ps u t := rfl

theorem replied_answer {c : Cmd} {st d : Nat} {ps : List Nat} {s u t : State} (k : Ended s (answer c st d ps u) t) :
    replied c st d ps u t = true := replied_writeReply (u := { u with fw := { u.fw with current := none } }) k

end Sys2Proof.Machine
end

section
/-! PROOFS. How the row of an opcode ends: it leaves another command alone, refuses at the first check that fails, or answers (R425, R427). -/

namespace Sys2Proof.Machine

/-- The parts an answer may change. -/
abbrev replyParts : List Part := [.log, .srv, .rings, .stack, .mbx, .fw, .regs .mbx, .regs .wch, .regs .ring]

/-- A command that goes on touches from an earlier state what its effect touches from there. -/
theorem touches_go_from {ps : List Part} {f : State → State} {s₀ s t : State} (e : go f s = .next t) (h : Touches ps s₀ (f s.begin)) :
    Touches ps s₀ t := by
  cases e
  exact touches_set_pending (touches_countEdges _ _ h)

theorem touches_reply {ps : List Part} {s₀ s : State} (c : Cmd) (st d : Nat) (r : List Nat) (hps : ∀ p ∈ replyParts, p ∈ ps)
    (h : Touches ps s₀ s) : Touches ps s₀ (answer c st d r s) :=
  touches_answer c st d r s (hps _ (by simp)) (hps _ (by simp)) (hps _ (by simp)) (hps _ (by simp)) (hps _ (by simp)) (hps _ (by simp))
    (hps _ (by simp)) (hps _ (by simp)) (hps _ (by simp)) h

section
variable {is : Nat → Bool} {f : Cmd → State → State} {s : State}

theorem onCurrent_some {c : Cmd} (hc : s.fw.current = some c) (hop : is c.op = true) : onCurrent is f s.begin = f c s.begin := by
  unfold onCurrent
  rw [show s.begin.fw.current = some c from hc]
  exact if_pos hop

theorem onCurrent_other (h : ∀ c, s.fw.current = some c → is c.op = false) : onCurrent is f s.begin = s.begin := by
  unfold onCurrent
  cases hc : s.fw.current with
  | none => rw [show s.begin.fw.current = none from hc]
  | some c =>
    rw [show s.begin.fw.current = some c from hc]
    exact if_neg (Bool.eq_false_iff.1 (h c hc))

/-- The row of an opcode that is not the begun command's does nothing. -/
theorem otherRow (h : ∀ c, s.fw.current = some c → is c.op = false) : ∃ t, go (onCurrent is f) s = .next t ∧ Frame [] [] s t := by
  obtain ⟨t, e, k⟩ := go_ended_of (onCurrent_other (f := f) h)
  exact ⟨t, e, k.frame (frame_begin s)⟩

end

/-- A row that comes to an answer: what its sender sees, and that no command is begun any longer. -/
theorem answerRow {F : State → State} {s u : State} {c : Cmd} {st d : Nat} {r : List Nat} (h : F s.begin = answer c st d r u) :
    ∃ t, go F s = .next t ∧ replied c st d r u t = true ∧ t.fw.current = none ∧
      ∀ {ps : List Part} {s₀ : State}, (∀ p ∈ replyParts, p ∈ ps) → Touches ps s₀ u → Touches ps s₀ t := by
  obtain ⟨t, e, k⟩ := go_ended_of h
  refine ⟨t, e, replied_answer k, ?_, fun hps hu => touches_go_from e ?_⟩
  · rw [k.fw, current_answer]
  · rw [h]
    exact touches_reply c st d r hps hu

/-- A command refused at one of checks 5 to 7. -/
theorem refusedRow {is : Nat → Bool} {f : Cmd → State → State} {s : State} {c : Cmd} {lenOk absent : Bool} {fields : List (Nat × Bool)}
    {act : State → State} {st d : Nat} (hc : s.fw.current = some c) (hop : is c.op = true)
    (hf : f c s.begin = checked c lenOk fields absent act s.begin) (h : refusal lenOk fields absent (s.holder c) = some (st, d)) :
    ∃ t, go (onCurrent is f) s = .next t ∧ replied c st d [] s t = true ∧ t.fw.current = none ∧ Touches replyParts s t := by
  obtain ⟨t, e, hr, hcur, ht⟩ := answerRow (((onCurrent_some hc hop).trans hf).trans (checked_of_refusal (s := s.begin) h))
  exact ⟨t, e, hr, hcur, ht (fun _ hp => hp) (touches_begin _ s)⟩

/-- One that passes them acts. -/
theorem passed {is : Nat → Bool} {f : Cmd → State → State} {s : State} {c : Cmd} {lenOk absent : Bool} {fields : List (Nat × Bool)}
    {act : State → State} (hc : s.fw.current = some c) (hop : is c.op = true)
    (hf : f c s.begin = checked c lenOk fields absent act s.begin) (h : refusal lenOk fields absent (s.holder c) = none) :
    onCurrent is f s.begin = act s.begin :=
  ((onCurrent_some hc hop).trans hf).trans (checked_of_refusal_none (s := s.begin) h)

/-- One that passes them and answers from the state as it stands. -/
theorem answeredRow {is : Nat → Bool} {f : Cmd → State → State} {s : State} {c : Cmd} {lenOk absent : Bool} {fields : List (Nat × Bool)}
    {act : State → State} {st d : Nat} {r : List Nat} (hc : s.fw.current = some c) (hop : is c.op = true)
    (hf : f c s.begin = checked c lenOk fields absent act s.begin) (h : refusal lenOk fields absent (s.holder c) = none)
    (ha : act s.begin = answer c st d r s.begin) :
    ∃ t, go (onCurrent is f) s = .next t ∧ replied c st d r s t = true ∧ t.fw.current = none ∧ Touches replyParts s t := by
  obtain ⟨t, e, hr, hcur, ht⟩ := answerRow ((passed hc hop hf h).trans ha)
  exact ⟨t, e, hr, hcur, ht (fun _ hp => hp) (touches_begin _ s)⟩

end Sys2Proof.Machine
end

section
/-! PROOFS. NOP, IDENT, RESULT and the configuration commands (R428, R434, R435, R458; O42). -/

namespace Sys2Proof.Machine

/-! ### A reply written after the image's fields changed -/

/-- The parts a commit changes before its reply is written. -/
abbrev imageParts : List Part := [.fw, .cfg, .regs .pwr]

section
variable {s u : State} (h : Touches imageParts s u)
include h

theorem mbxState_of_image (ch : Nat) : u.mbxState ch = s.mbxState ch :=
  h.rd (b := .mbx) (by simp) (has_R_MBX_STAT_STATE ch) (side_mbxState ch)

theorem mbxOwner_of_image (ch : Nat) : u.mbxOwner ch = s.mbxOwner ch :=
  h.rd (b := .mbx) (by simp) (has_R_MBX_STAT_OWNER ch) (side_mbxOwner ch)

theorem mbxOrphan_of_image (ch : Nat) : u.on (R.MBX_STAT_ORPHAN ch) = s.on (R.MBX_STAT_ORPHAN ch) := by
  rw [State.on, State.on, h.rd (b := .mbx) (by simp) (has_R_MBX_STAT_ORPHAN ch) (side_mbxOrphan ch)]

theorem rxDown_of_image (ch : Nat) : u.rxDown ch = s.rxDown ch := by
  have hrun : u.on R.DEV_DIE_STAT_KFW_RUN = s.on R.DEV_DIE_STAT_KFW_RUN := by
    rw [State.on, State.on, h.rd (b := .dev) (by simp) (by decide) (by decide)]
  have hfn : ∀ f, u.fnUp f = s.fnUp f := fun f => by rw [State.fnUp, State.fnUp, h.1 .pcie (by simp)]
  unfold State.rxDown
  split <;> simp only [hrun, hfn]

theorem ring_of_image (q : Nat) : u.ring q = s.ring q := by rw [State.ring, State.ring, h.1 .rings (by simp)]

theorem ringBase_of_image (q : Nat) : u.ringBase q = s.ringBase q := by
  have hlo : (R.HRG_RING_BASE_LO_ADDR q).side = false := by simp [Field.side, sideKey, R.HRG_RING_BASE_LO_ADDR, Field.mk']; omega
  have hhi : (R.HRG_RING_BASE_HI_ADDR q).side = false := by simp [Field.side, sideKey, R.HRG_RING_BASE_HI_ADDR, Field.mk']; omega
  rw [State.ringBase, State.ringBase, h.rd (b := .ring) (by simp) (has_R_HRG_RING_BASE_LO_ADDR q) hlo,
    h.rd (b := .ring) (by simp) (has_R_HRG_RING_BASE_HI_ADDR q) hhi]

theorem relayLink_of_image (src : Nat) : u.relayLink src = s.relayLink src := by
  have haddr : u.stackAddr = s.stackAddr := h.rd (b := .mor) (by simp) (by decide) (by decide)
  have hup : ∀ l, u.morUp l = s.morUp l := fun l => by
    rw [State.morUp, State.morUp, State.morState, State.morState, h.rd (b := .mor) (by simp) (has_R_MOR_LINK_STAT_STATE l) (side_morState l)]
  have hstack : u.stack = s.stack := h.1 .stack (by simp)
  simp only [State.relayLink, hup, haddr, hstack]

/-- What a sender sees of its reply rests on nothing a commit has changed by then. -/
theorem replied_of_image (c : Cmd) (st d : Nat) (ps : List Nat) (t : State) : replied c st d ps u t = replied c st d ps s t := by
  have haddr : u.stackAddr = s.stackAddr := h.rd (b := .mor) (by simp) (by decide) (by decide)
  have hmor : ∀ l, u.mor l = s.mor l := fun l => by rw [State.mor, State.mor, h.1 .stack (by simp)]
  unfold replied
  split
  · simp only [State.asReceiver, rxDown_of_image h, mbxState_of_image h, mbxOrphan_of_image h, mbxOwner_of_image h]
  · simp only [State.descOut, ring_of_image h, ringBase_of_image h]
  · simp only [relayLink_of_image h, haddr, hmor]
  · rfl

end

/-! ### The staging area -/

/-- Bytes put one after another stand where they were put. -/
theorem get_foldl_put (base : Nat) (bs : List Nat) : ∀ (i : Nat) (m : IMap Nat) (k : Nat),
    IMap.get 0 ((bs.zipIdx i).foldl (fun m e => IMap.put 0 m (base + e.2) e.1) m) (base + k)
      = if i ≤ k ∧ k < i + bs.length then bs.getD (k - i) 0 else IMap.get 0 m (base + k) := by
  induction bs with
  | nil => exact fun i m k => (if_neg (by simp)).symm
  | cons b bs ih =>
    intro i m k
    rw [List.zipIdx_cons, List.foldl_cons, ih]
    by_cases hk : k = i
    · subst hk
      rw [if_neg (by omega), if_pos (by simp), IMap.get_put_same, Nat.sub_self]
      rfl
    · rw [IMap.get_put_ne _ _ _ (by omega)]
      by_cases hin : i + 1 ≤ k ∧ k < i + 1 + bs.length
      · rw [if_pos hin, if_pos (by simp only [List.length_cons]; omega), show k - i = (k - (i + 1)) + 1 by omega]
        rfl
      · rw [if_neg hin, if_neg (by simp only [List.length_cons]; omega)]

/-- The parameter bytes by their places. -/
theorem Cmd.getD_params (c : Cmd) {k : Nat} (hk : k < c.len) : c.params.getD k 0 = c.b k := by
  unfold Cmd.params Cmd.b
  rw [List.getD_eq_getElem?_getD, List.getD_eq_getElem?_getD, List.getElem?_take_of_lt hk]
  by_cases hin : k < (c.bytes.drop 16).length
  · rw [List.getElem?_append_left hin, List.getElem?_drop]
  · have hout : c.bytes.length ≤ 16 + k := by simp at hin; omega
    rw [List.getElem?_append_right (by omega), List.getElem?_eq_none hout]
    cases hz : (List.replicate c.len 0)[k - (c.bytes.drop 16).length]? with
    | none => rfl
    | some z => rw [List.eq_of_mem_replicate (List.mem_of_getElem? hz)]; rfl

theorem Cmd.length_params (c : Cmd) : c.params.length = c.len := by
  unfold Cmd.params
  simp

/-- The state CFG_STAGE answers from. -/
def staged (c : Cmd) (s : State) : State :=
  { s with cfg := { s.cfg with
    staging := (c.params.drop 4).zipIdx.foldl (fun m e => IMap.put 0 m (c.num 0 4 + e.2) e.1) s.cfg.staging } }

theorem touches_staged (c : Cmd) (s : State) : Touches imageParts s (staged c s.begin) :=
  touches_set_cfg (by simp) (touches_begin _ s)

theorem cfgStage_checked (c : Cmd) (s : State) : cfgStage c s =
    checked c (decide (5 ≤ c.len) && decide (c.len ≤ 4096)) [(0, decide (2097152 < c.num 0 4 + (c.len - 4)))] false
      (fun s => answer c 0 0 [] (staged c s)) s := rfl

/-- The staging area holds the bytes given. -/
theorem get_staged (c : Cmd) (s : State) {k : Nat} (hk : k < c.len - 4) :
    IMap.get 0 (staged c s).cfg.staging (c.num 0 4 + k) = c.b (4 + k) := by
  have hlen : (c.params.drop 4).length = c.len - 4 := by rw [List.length_drop, c.length_params]
  have hget : (c.params.drop 4).getD k 0 = c.params.getD (4 + k) 0 := by
    rw [List.getD_eq_getElem?_getD, List.getD_eq_getElem?_getD, List.getElem?_drop]
  refine (get_foldl_put _ _ _ _ _).trans ?_
  rw [if_pos (by omega), Nat.sub_zero, hget, c.getD_params (by omega)]

/-! ### A commit -/

/-- Length and fields being good, the resource is what is left to check. -/
theorem refusal_of_free {absent : Bool} (h : absent = false) {busy : Option Nat} (hb : busy = none) : refusal true [] absent busy = none := by
  subst h hb
  rfl

/-- The state a commit's first reply is written in. -/
def committing (c : Cmd) (s : State) : State :=
  let valid := s.on R.CFG_STAT_ACTIVE_VALID
  let j : CommitJob :=
    { len := hdrLength (s.cfg.stagedBytes 0 64), slot := if valid then 1 - s.rd R.CFG_STAT_ACTIVE_SLOT else 0
      seq := if valid then (s.rd R.CFG_SEQ_SEQ + 1) % 2 ^ 32 else 1, cmd := s.fw.nextId, sender := c.sender }
  let s := ((s.hi R.CFG_STAT_COMMIT_BUSY).wr R.CFG_STAT_STEP 1).lo R.CFG_STAT_OTHER_VALID
  keepDeferred c 10 (hold c true { s with cfg := { s.cfg with commit := some j } })

theorem beginCommit_eq (c : Cmd) (s : State) : beginCommit c s = writeReply c 7 10 [] (committing c s) := rfl

theorem committing_current (c : Cmd) (s : State) : (committing c s).fw.current = none := rfl

theorem touches_committing_parts (c : Cmd) (s : State) {ps : List Part} (hfw : Part.fw ∈ ps) (hcfg : Part.cfg ∈ ps)
    (hpwr : Part.regs .pwr ∈ ps) : Touches ps s (committing c s.begin) := by
  refine touches_set_fw hfw (touches_set_fw hfw (touches_set_cfg hcfg ?_))
  exact touches_State_lo (b := .pwr) (by decide) hpwr (touches_State_wr (b := .pwr) (by decide) hpwr
    (touches_State_hi (b := .pwr) (by decide) hpwr (touches_begin _ s)))

theorem touches_committing (c : Cmd) (s : State) : Touches imageParts s (committing c s.begin) :=
  touches_committing_parts c s (by simp) (by simp) (by simp)

theorem rd_committing (c : Cmd) (s : State) (g : Field) : (committing c s).rd g =
    (((s.hi R.CFG_STAT_COMMIT_BUSY).wr R.CFG_STAT_STEP 1).lo R.CFG_STAT_OTHER_VALID).rd g := rfl

theorem rd_committing_busy (c : Cmd) (s : State) : (committing c s).rd R.CFG_STAT_COMMIT_BUSY = 1 := by
  rw [rd_committing, rd_lo_ne _ (by decide), rd_wr_ne _ _ (by decide), rd_hi_same]
  rfl

theorem rd_committing_step (c : Cmd) (s : State) : (committing c s).rd R.CFG_STAT_STEP = 1 := by
  rw [rd_committing, rd_lo_ne _ (by decide), rd_wr_same]
  rfl

theorem rd_committing_other (c : Cmd) (s : State) : (committing c s).rd R.CFG_STAT_OTHER_VALID = 0 := by
  rw [rd_committing, rd_lo_same]

/-- A row that comes to a reply of a command no longer begun. -/
theorem replyRow {F : State → State} {s u : State} {c : Cmd} {st d : Nat} {r : List Nat} (h : F s.begin = writeReply c st d r u)
    (hcur : u.fw.current = none) :
    ∃ t, go F s = .next t ∧ replied c st d r u t = true ∧ t.fw.current = none ∧
      ∀ {ps : List Part} {s₀ : State}, (∀ p ∈ replyParts, p ∈ ps) → Touches ps s₀ u → Touches ps s₀ t := by
  obtain ⟨t, e, k⟩ := go_ended_of h
  refine ⟨t, e, replied_writeReply k, ?_, fun hps hu => touches_go_from e ?_⟩
  · rw [k.fw, current_writeReply, hcur]
  · rw [h]
    exact touches_writeReply c st d r u (hps _ (by simp)) (hps _ (by simp)) (hps _ (by simp)) (hps _ (by simp)) (hps _ (by simp))
      (hps _ (by simp)) (hps _ (by simp)) (hps _ (by simp)) (hps _ (by simp)) hu

/-! ### The rows of CFG_STAGE and CFG_COMMIT -/

section
variable {s : State} {c : Cmd} (hc : s.fw.current = some c)
include hc

theorem cfgStage_row (hop : c.op = 0x0110)
    (h : refusal (decide (5 ≤ c.len ∧ c.len ≤ 4096)) [(0, decide (2097152 < c.num 0 4 + (c.len - 4)))] false (s.holder c) = none) :
    ∃ t, exec .cfgStage s = .next t ∧ replied c 0 0 [] s t = true ∧
      (∀ k : Fin 4092, k.val < c.len - 4 → IMap.get 0 t.cfg.staging (c.num 0 4 + k.val) = c.b (4 + k.val)) ∧
      t.cfg = { s.cfg with staging := t.cfg.staging } ∧ t.fw.current = none ∧
      Touches [.log, .srv, .rings, .stack, .mbx, .fw, .cfg, .regs .mbx, .regs .wch, .regs .ring] s t := by
  rw [Bool.decide_and] at h
  have hact : onCurrent (opIs 0x0110) cfgStage s.begin = answer c 0 0 [] (staged c s.begin) :=
    passed hc (decide_eq_true hop) (cfgStage_checked c s.begin) h
  obtain ⟨t, e, hr, hcur, ht⟩ := answerRow hact
  have hcfg : t.cfg = (staged c s.begin).cfg := (ht (ps := replyParts) (fun _ h => h) (Touches.refl _ _)).1 .cfg (by simp)
  refine ⟨t, e, (replied_of_image (touches_staged c s) ..).symm.trans hr, fun k hk => ?_, ?_, hcur, ht (by simp) ?_⟩
  · rw [hcfg, get_staged c s.begin hk]
  · rw [hcfg]; rfl
  · exact touches_set_cfg (by simp) (touches_begin _ s)

variable (hop : c.op = 0x0111) (hlen : c.len = 4) (hheld : s.holder c = none)
  (hnum : c.num 0 4 = 64 + hdrLength (s.cfg.stagedBytes 0 64))
include hop hlen hheld hnum

theorem cfgCommit_acts : onCurrent (opIs 0x0111) cfgCommit s.begin =
    if s.stagedErr ≠ 0 then answer c 4 2 [] (s.begin.wr R.CFG_STAT_ERR s.stagedErr) else beginCommit c s.begin := by
  have hpass : refusal (decide (c.len = 4)) [] false (s.holder c) = none := by
    rw [hlen]; exact refusal_of_free rfl hheld
  exact (passed (f := cfgCommit) hc (decide_eq_true hop) rfl hpass).trans (if_neg (not_not.2 hnum))

theorem cfgCommit_denied (herr : s.stagedErr ≠ 0) :
    ∃ t, exec .cfgCommit s = .next t ∧ replied c 4 2 [] s t = true ∧ t.fw.current = none ∧
      t.rd R.CFG_STAT_ERR = s.stagedErr % 2 ^ R.CFG_STAT_ERR.width ∧ t.cfg = s.cfg ∧
      Touches [.log, .srv, .rings, .stack, .mbx, .fw, .regs .mbx, .regs .pwr, .regs .wch, .regs .ring] s t := by
  obtain ⟨t, e, hr, hcur, ht⟩ := answerRow ((cfgCommit_acts hc hop hlen hheld hnum).trans (if_pos herr))
  have himage : ∀ {ps : List Part}, Part.regs .pwr ∈ ps → Touches ps s (s.begin.wr R.CFG_STAT_ERR s.stagedErr) := fun hp =>
    touches_State_wr (b := .pwr) (by decide) hp (touches_begin _ s)
  have hstill := ht (ps := replyParts) (fun _ h => h) (Touches.refl _ _)
  refine ⟨t, e, (replied_of_image (himage (by simp)) ..).symm.trans hr, hcur, ?_, ?_, ht (by simp) (himage (by simp))⟩
  · exact (hstill.rd (b := .pwr) (by simp) (by decide) (by decide)).trans (rd_wr_same _ _ _)
  · exact hstill.1 .cfg (by simp)

theorem cfgCommit_begins (herr : s.stagedErr = 0) :
    ∃ t, exec .cfgCommit s = .next t ∧ replied c 7 10 [] s t = true ∧ t.fw.current = none ∧ t.rd R.CFG_STAT_COMMIT_BUSY = 1 ∧
      t.rd R.CFG_STAT_STEP = 1 ∧ t.rd R.CFG_STAT_OTHER_VALID = 0 ∧
      (∃ j, t.cfg.commit = some j ∧ j.len = hdrLength (s.cfg.stagedBytes 0 64) ∧
        j.slot = (if s.on R.CFG_STAT_ACTIVE_VALID then 1 - s.rd R.CFG_STAT_ACTIVE_SLOT else 0) ∧
        j.seq = (if s.on R.CFG_STAT_ACTIVE_VALID then (s.rd R.CFG_SEQ_SEQ + 1) % 2 ^ 32 else 1)) ∧
      Touches [.log, .srv, .rings, .stack, .mbx, .fw, .cfg, .regs .mbx, .regs .pwr, .regs .wch, .regs .ring] s t := by
  have hact := (cfgCommit_acts hc hop hlen hheld hnum).trans ((if_neg (not_not.2 herr)).trans (beginCommit_eq c s.begin))
  obtain ⟨t, e, hr, hcur, ht⟩ := replyRow hact (committing_current c s.begin)
  have hstill := ht (ps := replyParts) (fun _ h => h) (Touches.refl _ _)
  have hrd {g : Field} (hg : Block.has .pwr g.key = true) (hs : g.side = false) : t.rd g = (committing c s.begin).rd g :=
    hstill.rd (b := .pwr) (by simp) hg hs
  have hcfg : t.cfg = (committing c s.begin).cfg := hstill.1 .cfg (by simp)
  refine ⟨t, e, (replied_of_image (touches_committing c s) ..).symm.trans hr, hcur, ?_, ?_, ?_, ?_, ?_⟩
  · rw [hrd (by decide) (by decide), rd_committing_busy]
  · rw [hrd (by decide) (by decide), rd_committing_step]
  · rw [hrd (by decide) (by decide), rd_committing_other]
  · rw [hcfg]; exact ⟨_, rfl, rfl, rfl, rfl⟩
  · exact ht (by simp) (touches_committing_parts c s (by simp) (by simp) (by simp))

end

/-! ### The statement -/

/-- Settles O42. -/
theorem configCommands : Obligations.ConfigCommands := by
  refine ⟨?_, ?_, ?_, ?_, ?_, ?_, ?_, ?_, ?_, ?_, ?_, ?_, ?_, ?_, ?_, ?_, ?_, ?_, ?_, ?_⟩
  · exact fun s h => otherRow fun c hc => decide_eq_false (h c hc)
  · exact fun s c st d hc hop h => refusedRow (f := nopCmd) hc (decide_eq_true hop) rfl h
  · exact fun s c hc hop h => answeredRow (f := nopCmd) hc (decide_eq_true hop) rfl h rfl
  · exact fun s h => otherRow fun c hc => decide_eq_false (h c hc)
  · exact fun s c st d hc hop h => refusedRow (f := ident) hc (decide_eq_true hop) rfl h
  · exact fun s c hc hop h => answeredRow (f := ident) hc (decide_eq_true hop) rfl h rfl
  · exact fun s h => otherRow fun c hc => decide_eq_false (h c hc)
  · exact fun s c st d hc hop h => refusedRow (f := result) hc (decide_eq_true hop) rfl h
  · intro s c k hc hop h hk
    refine answeredRow (f := result) hc (decide_eq_true hop) rfl h ?_
    rw [show s.begin.keptFor c = some k from hk]
  · exact fun s h => otherRow fun c hc => decide_eq_false (h c hc)
  · intro s c st d hc hop h
    rw [Bool.decide_and] at h
    exact refusedRow hc (decide_eq_true hop) (cfgStage_checked c s.begin) h
  · exact fun s c hc hop h => cfgStage_row hc hop h
  · exact fun s h => otherRow fun c hc => decide_eq_false (h c hc)
  · exact fun s c st d hc hop h => refusedRow (f := cfgCommit) hc (decide_eq_true hop) rfl h
  · exact fun s c hc hop h hnum => answeredRow (f := cfgCommit) hc (decide_eq_true hop) rfl h (if_pos hnum)
  · exact fun s c hc hop hlen hheld hnum herr => cfgCommit_denied hc hop hlen hheld hnum herr
  · exact fun s c hc hop hlen hheld hnum herr => cfgCommit_begins hc hop hlen hheld hnum herr
  · exact fun s h => otherRow fun c hc => decide_eq_false (h c hc)
  · exact fun s c st d hc hop h => refusedRow (f := cfgRead) hc (decide_eq_true hop) rfl h
  · exact fun s c hc hop h => answeredRow (f := cfgRead) hc (decide_eq_true hop) rfl h rfl

end Sys2Proof.Machine
end

section
/-! PROOFS. Writes of a slot's configuration, with the interval channel it names (R79, R81, R199; O17). -/

namespace Sys2Proof.Machine

/-! ### What a channel is used for -/

/-- Whether a field is none of those that say what an interval channel is used for. -/
def Useless (f : Field) : Prop :=
  ∀ c, (R.TIM_CH_STAT_ASSIGNED c).key ≠ f.key ∧ (R.TIM_CH_CFG_MODE c).key ≠ f.key ∧ (R.TIM_CH_CFG_EDGE c).key ≠ f.key

/-- Every interval channel is assigned, and counts or stamps the edges, as it did. -/
def SameUse (s t : State) : Prop :=
  ∀ c, t.rd (R.TIM_CH_STAT_ASSIGNED c) = s.rd (R.TIM_CH_STAT_ASSIGNED c) ∧ t.rd (R.TIM_CH_CFG_MODE c) = s.rd (R.TIM_CH_CFG_MODE c) ∧
    t.rd (R.TIM_CH_CFG_EDGE c) = s.rd (R.TIM_CH_CFG_EDGE c)

theorem side_timAssigned (c : Nat) : (R.TIM_CH_STAT_ASSIGNED c).side = false :=
  Field.side_of_low (by simp only [R.TIM_CH_STAT_ASSIGNED, Field.mk']; omega)

theorem side_timMode (c : Nat) : (R.TIM_CH_CFG_MODE c).side = false :=
  Field.side_of_low (by simp only [R.TIM_CH_CFG_MODE, Field.mk']; omega)

theorem side_timEdge (c : Nat) : (R.TIM_CH_CFG_EDGE c).side = false :=
  Field.side_of_low (by simp only [R.TIM_CH_CFG_EDGE, Field.mk']; omega)

section
variable {s u : State}

theorem SameUse.refl (s : State) : SameUse s s := fun _ => ⟨rfl, rfl, rfl⟩

theorem sameUse_wr {f : Field} {v : Nat} (hf : Useless f) (h : SameUse s u) : SameUse s (u.wr f v) := fun c =>
  ⟨(rd_wr_ne _ _ (hf c).1).trans (h c).1, (rd_wr_ne _ _ (hf c).2.1).trans (h c).2.1, (rd_wr_ne _ _ (hf c).2.2).trans (h c).2.2⟩

theorem sameUse_raise {m : Nat} (h : SameUse s u) : SameUse s (u.raise Evt.tim m) := fun c => by
  have hkey : (R.TIM_CH_STAT_ASSIGNED c).key ≠ Evt.tim.ev.key ∧ (R.TIM_CH_CFG_MODE c).key ≠ Evt.tim.ev.key ∧
      (R.TIM_CH_CFG_EDGE c).key ≠ Evt.tim.ev.key := by
    simp only [Evt.tim, R.TIM_EVT_BITS, R.TIM_CH_STAT_ASSIGNED, R.TIM_CH_CFG_MODE, R.TIM_CH_CFG_EDGE, Field.mk']; omega
  obtain ⟨h1, h2, h3⟩ := h c
  exact ⟨(rd_raise_ne _ _ _ hkey.1 (side_timAssigned c)).trans h1, (rd_raise_ne _ _ _ hkey.2.1 (side_timMode c)).trans h2,
    (rd_raise_ne _ _ _ hkey.2.2 (side_timEdge c)).trans h3⟩

theorem sameUse_modChan {c : Nat} {f : TimChan → TimChan} (h : SameUse s u) : SameUse s (u.modChan c f) := h

theorem sameUse_modGroup {g : Nat} {f : TimGroup → TimGroup} (h : SameUse s u) : SameUse s (u.modGroup g f) := h

theorem sameUse_ite {p : Prop} [Decidable p] {a b : State} (ha : SameUse s a) (hb : SameUse s b) : SameUse s (if p then a else b) := by
  split <;> assumption

theorem sameUse_foldl {α : Type} {f : State → α → State} {l : List α} (h : SameUse s u) (hf : ∀ u x, SameUse s u → SameUse s (f u x)) :
    SameUse s (l.foldl f u) := by
  induction l generalizing u with
  | nil => exact h
  | cons x l ih => exact ih (hf u x h)

end

theorem useless_calBusy : Useless R.TIM_STAT_CAL_BUSY := fun c => by
  simp only [R.TIM_STAT_CAL_BUSY, R.TIM_CH_STAT_ASSIGNED, R.TIM_CH_CFG_MODE, R.TIM_CH_CFG_EDGE, Field.mk']; omega
theorem useless_calNow : Useless R.TIM_CTL_CAL_NOW := fun c => by
  simp only [R.TIM_CTL_CAL_NOW, R.TIM_CH_STAT_ASSIGNED, R.TIM_CH_CFG_MODE, R.TIM_CH_CFG_EDGE, Field.mk']; omega
theorem useless_unit (d : Nat) : Useless (R.TIM_CH_STAT_UNIT d) := fun c => by
  simp only [R.TIM_CH_STAT_UNIT, R.TIM_CH_STAT_ASSIGNED, R.TIM_CH_CFG_MODE, R.TIM_CH_CFG_EDGE, Field.mk']; omega
theorem useless_calSeq (d : Nat) : Useless (R.TIM_CH_STAT_CAL_SEQ d) := fun c => by
  simp only [R.TIM_CH_STAT_CAL_SEQ, R.TIM_CH_STAT_ASSIGNED, R.TIM_CH_CFG_MODE, R.TIM_CH_CFG_EDGE, Field.mk']; omega
theorem useless_hoWait (d : Nat) : Useless (R.TIM_CH_STAT_HO_WAIT d) := fun c => by
  simp only [R.TIM_CH_STAT_HO_WAIT, R.TIM_CH_STAT_ASSIGNED, R.TIM_CH_CFG_MODE, R.TIM_CH_CFG_EDGE, Field.mk']; omega
theorem useless_dnl (d : Nat) : Useless (R.TIM_CH_CAL_DNL d) := fun c => by
  simp only [R.TIM_CH_CAL_DNL, R.TIM_CH_STAT_ASSIGNED, R.TIM_CH_CFG_MODE, R.TIM_CH_CFG_EDGE, Field.mk']; omega
theorem useless_spare (g : Nat) : Useless (R.TIM_GRP_STAT_SPARE g) := fun c => by
  simp only [R.TIM_GRP_STAT_SPARE, R.TIM_CH_STAT_ASSIGNED, R.TIM_CH_CFG_MODE, R.TIM_CH_CFG_EDGE, Field.mk']; omega
theorem useless_waiting (g : Nat) : Useless (R.TIM_GRP_STAT_WAITING g) := fun c => by
  simp only [R.TIM_GRP_STAT_WAITING, R.TIM_CH_STAT_ASSIGNED, R.TIM_CH_CFG_MODE, R.TIM_CH_CFG_EDGE, Field.mk']; omega
theorem useless_gateOpen (g : Nat) : Useless (R.TIM_GRP_STAT_GATE_OPEN g) := fun c => by
  simp only [R.TIM_GRP_STAT_GATE_OPEN, R.TIM_CH_STAT_ASSIGNED, R.TIM_CH_CFG_MODE, R.TIM_CH_CFG_EDGE, Field.mk']; omega
theorem useless_chState (d : Nat) : Useless (R.TIM_CH_STAT_STATE d) := fun c => by
  simp only [R.TIM_CH_STAT_STATE, R.TIM_CH_STAT_ASSIGNED, R.TIM_CH_CFG_MODE, R.TIM_CH_CFG_EDGE, Field.mk']; omega
theorem useless_chErr (d : Nat) : Useless (R.TIM_CH_STAT_CFG_ERR d) := fun c => by
  simp only [R.TIM_CH_STAT_CFG_ERR, R.TIM_CH_STAT_ASSIGNED, R.TIM_CH_CFG_MODE, R.TIM_CH_CFG_EDGE, Field.mk']; omega
theorem useless_arm (d : Nat) : Useless (R.TIM_CH_CTL_ARM d) := fun c => by
  simp only [R.TIM_CH_CTL_ARM, R.TIM_CH_STAT_ASSIGNED, R.TIM_CH_CFG_MODE, R.TIM_CH_CFG_EDGE, Field.mk']; omega

theorem sameUse_endRotation (g : Nat) (s : State) : SameUse s (endRotation g s) := by
  have hbusy : SameUse s (setGroupBit R.TIM_STAT_CAL_BUSY g false (s.modGroup g (fun k => { k with rotLeft := 0 }))) :=
    sameUse_wr useless_calBusy (SameUse.refl s)
  exact sameUse_ite (sameUse_ite (sameUse_raise (sameUse_wr useless_calNow hbusy)) hbusy) (SameUse.refl s)

theorem SameUse.trans {s t u : State} (h : SameUse s t) (k : SameUse t u) : SameUse s u := fun c =>
  ⟨(k c).1.trans (h c).1, (k c).2.1.trans (h c).2.1, (k c).2.2.trans (h c).2.2⟩

theorem sameUse_handTo (g d : Nat) (s : State) : SameUse s (handTo g d s) := by
  unfold handTo
  dsimp only
  have hunit (u : State) (a b e old : Nat) (h : SameUse s u) :
      SameUse s ((((((u.wr (R.TIM_CH_STAT_UNIT d) a).wr (R.TIM_CH_STAT_CAL_SEQ d) b).lo (R.TIM_CH_STAT_HO_WAIT d)).wr
        (R.TIM_CH_CAL_DNL d) e)).wr (R.TIM_GRP_STAT_SPARE g) old) :=
    sameUse_wr (useless_spare g) (sameUse_wr (useless_dnl d) (sameUse_wr (useless_hoWait d) (sameUse_wr (useless_calSeq d)
      (sameUse_wr (useless_unit d) h))))
  refine sameUse_ite (SameUse.trans ?_ (sameUse_endRotation g _)) ?_ <;> exact sameUse_ite (hunit _ _ _ _ _ (SameUse.refl s)) (SameUse.refl s)

theorem sameUse_lateHandover (c : Nat) (s : State) : SameUse s (lateHandover c s) :=
  sameUse_foldl (SameUse.refl s) fun _ _ h => sameUse_ite (h.trans (sameUse_handTo _ _ _)) h

theorem sameUse_endWait {s u : State} (g c : Nat) (h : SameUse s u) : SameUse s (endWait g c u) :=
  sameUse_ite h (sameUse_wr (useless_waiting g) h)

theorem sameUse_refuseCh {s u : State} (c : Nat) (h : SameUse s u) : SameUse s (refuseCh c u) :=
  sameUse_raise (sameUse_wr (useless_chErr c) h)

theorem sameUse_openGate (g c : Nat) (s : State) : SameUse s (openGate g c s) :=
  sameUse_foldl (sameUse_modGroup (sameUse_wr (useless_waiting g) (sameUse_wr (useless_gateOpen g) (SameUse.refl s))))
    fun _ _ h => sameUse_ite h h

theorem sameUse_armGate {s u : State} (g : Nat) (h : SameUse s u) : SameUse s (armGate g u) := by
  have hmod : SameUse s (u.modGroup g (fun k => { k with gateUsed := false })) := h
  exact sameUse_ite (sameUse_ite (sameUse_wr (useless_waiting g) hmod) (sameUse_ite (hmod.trans (sameUse_openGate _ _ _))
    (sameUse_wr (useless_waiting g) hmod))) hmod

theorem sameUse_armNow {s u : State} (c : Nat) (h : SameUse s u) : SameUse s (armNow c u) := by
  have harmed {v : State} (hv : SameUse s v) :
      SameUse s (((v.hi (R.TIM_CH_CTL_ARM c)).wr (R.TIM_CH_STAT_STATE c) 1).lo (R.TIM_CH_STAT_CFG_ERR c)) :=
    sameUse_wr (useless_chErr c) (sameUse_wr (useless_chState c) (sameUse_wr (useless_arm c) hv))
  have hgate : SameUse s (if u.on (R.TIM_CH_CFG_GATED c) && !u.gatedArmed (groupOf c) c then armGate (groupOf c) u else u) :=
    sameUse_ite (sameUse_armGate _ h) h
  refine sameUse_ite (sameUse_refuseCh c (sameUse_modChan (sameUse_wr (useless_arm c) h))) (sameUse_modChan ?_)
  exact sameUse_ite (sameUse_wr (useless_chState (c + 1)) (harmed hgate)) (harmed hgate)

theorem sameUse_disarmCh (c : Nat) (s : State) : SameUse s (disarmCh c s) := by
  have hpair : SameUse s (if s.paired c ∧ s.chState c ≠ 0 then s.wr (R.TIM_CH_STAT_STATE (c + 1)) 0 else s) :=
    sameUse_ite (sameUse_wr (useless_chState _) (SameUse.refl s)) (SameUse.refl s)
  exact (sameUse_modChan (sameUse_endWait _ _ (sameUse_wr (useless_chState c) (sameUse_wr (useless_arm c) hpair)))).trans
    (sameUse_lateHandover c _)

/-! ### A channel assigned to a slot, and freed -/

/-- Two channels of the sixty-four. -/
theorem timChan_ne {c d : Nat} (hc : c < 64) (hd : d < 64) (h : c ≠ d) : (R.TIM_CH_STAT_ASSIGNED c).key ≠ (R.TIM_CH_STAT_ASSIGNED d).key := by
  simp only [R.TIM_CH_STAT_ASSIGNED, Field.mk']; omega

/-- The channel's configuration as a slot's assignment leaves it. -/
def forStamps (c : Nat) (s : State) : State :=
  (((s.lo (R.TIM_CH_CFG_MODE c)).lo (R.TIM_CH_CFG_EDGE c)).lo (R.TIM_CH_CFG_PRESCALE c)).lo (R.TIM_CH_CFG_GATED c)

theorem rd_forStamps_ne (c : Nat) (s : State) {g : Field} (h1 : g.key ≠ (R.TIM_CH_CFG_MODE c).key) (h2 : g.key ≠ (R.TIM_CH_CFG_EDGE c).key)
    (h3 : g.key ≠ (R.TIM_CH_CFG_PRESCALE c).key) (h4 : g.key ≠ (R.TIM_CH_CFG_GATED c).key) : (forStamps c s).rd g = s.rd g := by
  rw [forStamps, rd_lo_ne _ h4, rd_lo_ne _ h3, rd_lo_ne _ h2, rd_lo_ne _ h1]

theorem rd_forStamps_mode (c : Nat) (s : State) : (forStamps c s).rd (R.TIM_CH_CFG_MODE c) = 0 := by
  have hkeys : (R.TIM_CH_CFG_MODE c).key ≠ (R.TIM_CH_CFG_GATED c).key ∧ (R.TIM_CH_CFG_MODE c).key ≠ (R.TIM_CH_CFG_PRESCALE c).key ∧
      (R.TIM_CH_CFG_MODE c).key ≠ (R.TIM_CH_CFG_EDGE c).key := by
    simp only [R.TIM_CH_CFG_MODE, R.TIM_CH_CFG_GATED, R.TIM_CH_CFG_PRESCALE, R.TIM_CH_CFG_EDGE, Field.mk']; omega
  rw [forStamps, rd_lo_ne _ hkeys.1, rd_lo_ne _ hkeys.2.1, rd_lo_ne _ hkeys.2.2, rd_lo_same]

theorem rd_forStamps_edge (c : Nat) (s : State) : (forStamps c s).rd (R.TIM_CH_CFG_EDGE c) = 0 := by
  have hkeys : (R.TIM_CH_CFG_EDGE c).key ≠ (R.TIM_CH_CFG_GATED c).key ∧ (R.TIM_CH_CFG_EDGE c).key ≠ (R.TIM_CH_CFG_PRESCALE c).key := by
    simp only [R.TIM_CH_CFG_GATED, R.TIM_CH_CFG_PRESCALE, R.TIM_CH_CFG_EDGE, Field.mk']; omega
  rw [forStamps, rd_lo_ne _ hkeys.1, rd_lo_ne _ hkeys.2, rd_lo_same]

theorem sameUse_assignChan (c : Nat) (s : State) :
    SameUse ((endWait (groupOf c) c (forStamps c s)).hi (R.TIM_CH_STAT_ASSIGNED c)) (assignChan c s) := by
  have h := SameUse.refl ((endWait (groupOf c) c (forStamps c s)).hi (R.TIM_CH_STAT_ASSIGNED c))
  exact sameUse_ite (sameUse_modChan h) (sameUse_armNow c h)

theorem rd_assignChan_assigned (c : Nat) (s : State) : (assignChan c s).rd (R.TIM_CH_STAT_ASSIGNED c) = 1 := by
  rw [(sameUse_assignChan c s c).1, rd_hi_same]
  rfl

theorem rd_assignChan_mode (c : Nat) (s : State) : (assignChan c s).rd (R.TIM_CH_CFG_MODE c) = 0 := by
  have hkey : (R.TIM_CH_CFG_MODE c).key ≠ (R.TIM_CH_STAT_ASSIGNED c).key := by
    simp only [R.TIM_CH_CFG_MODE, R.TIM_CH_STAT_ASSIGNED, Field.mk']; omega
  rw [(sameUse_assignChan c s c).2.1, rd_hi_ne _ hkey, (sameUse_endWait _ _ (SameUse.refl _) c).2.1, rd_forStamps_mode]

theorem rd_assignChan_edge (c : Nat) (s : State) : (assignChan c s).rd (R.TIM_CH_CFG_EDGE c) = 0 := by
  have hkey : (R.TIM_CH_CFG_EDGE c).key ≠ (R.TIM_CH_STAT_ASSIGNED c).key := by
    simp only [R.TIM_CH_CFG_EDGE, R.TIM_CH_STAT_ASSIGNED, Field.mk']; omega
  rw [(sameUse_assignChan c s c).2.2, rd_hi_ne _ hkey, (sameUse_endWait _ _ (SameUse.refl _) c).2.2, rd_forStamps_edge]

/-- Another channel's assignment. -/
theorem rd_assignChan_other {c d : Nat} (hc : c < 64) (hd : d < 64) (h : d ≠ c) (s : State) :
    (assignChan c s).rd (R.TIM_CH_STAT_ASSIGNED d) = s.rd (R.TIM_CH_STAT_ASSIGNED d) := by
  have hkeys : (R.TIM_CH_STAT_ASSIGNED d).key ≠ (R.TIM_CH_CFG_MODE c).key ∧ (R.TIM_CH_STAT_ASSIGNED d).key ≠ (R.TIM_CH_CFG_EDGE c).key ∧
      (R.TIM_CH_STAT_ASSIGNED d).key ≠ (R.TIM_CH_CFG_PRESCALE c).key ∧ (R.TIM_CH_STAT_ASSIGNED d).key ≠ (R.TIM_CH_CFG_GATED c).key := by
    simp only [R.TIM_CH_STAT_ASSIGNED, R.TIM_CH_CFG_MODE, R.TIM_CH_CFG_GATED, R.TIM_CH_CFG_PRESCALE, R.TIM_CH_CFG_EDGE, Field.mk']; omega
  rw [(sameUse_assignChan c s d).1, rd_hi_ne _ (timChan_ne hd hc h), (sameUse_endWait _ _ (SameUse.refl _) d).1,
    rd_forStamps_ne c s hkeys.1 hkeys.2.1 hkeys.2.2.1 hkeys.2.2.2]

theorem rd_unassignChan_assigned (c : Nat) (s : State) : (unassignChan c s).rd (R.TIM_CH_STAT_ASSIGNED c) = 0 := rd_lo_same _ _

/-! ### The write of a slot's configuration -/

/-- The configuration stored, with its writer noted. -/
def slotNoted (i w : Nat) (s : State) : State :=
  noteWriter 2 i ((s.storeReg false (Reg.ENS_SLOT_CFG i) w).lo (R.ENS_SLOT_STAT_ASSIGN_ERR i))

/-- A slot no longer enabled is marked for the next filter step. -/
def slotTaken (i w : Nat) (s : State) : State :=
  if s.slotEn i && !(slotNoted i w s).slotEn i then (slotNoted i w s).modSlot i (fun k => { k with enOff := true })
  else slotNoted i w s

/-- The registers are those of the write alone. -/
theorem slotTaken_regs (i w : Nat) (s : State) : (slotTaken i w s).regs = (slotNoted i w s).regs := by
  unfold slotTaken
  split <;> rfl

theorem slotTaken_rd (i w : Nat) (s : State) (g : Field) :
    (slotTaken i w s).rd g = ((s.storeReg false (Reg.ENS_SLOT_CFG i) w).lo (R.ENS_SLOT_STAT_ASSIGN_ERR i)).rd g := by
  rw [State.rd, slotTaken_regs]
  rfl

/-- The fields a write of the configuration may move. -/
def slotFields (i : Nat) : List Field := R.ENS_SLOT_STAT_ASSIGN_ERR i :: (Reg.ENS_SLOT_CFG i).fields

theorem frame_slotTaken (i w : Nat) (s : State) : Frame (slotFields i) [.ens] s (slotTaken i w s.begin) := by
  have hstore : Frame (slotFields i) [.ens] s
      ((s.begin.storeReg false (Reg.ENS_SLOT_CFG i) w).lo (R.ENS_SLOT_STAT_ASSIGN_ERR i)) :=
    frame_lo (by simp [slotFields]) (frame_storeReg (fun f hf => by simp [slotFields, hf]) (frame_begin s))
  have hnote := frame_set_ens (x := (slotNoted i w s.begin).ens) (by simp) hstore
  exact frame_ite (frame_set_ens (by simp) hnote) hnote

theorem pairwise_slotCfg (i : Nat) : (Reg.ENS_SLOT_CFG i).fields.Pairwise fun a b => a.key ≠ b.key := by
  simp [Reg.ENS_SLOT_CFG, R.ENS_SLOT_CFG_EN, R.ENS_SLOT_CFG_SET, R.ENS_SLOT_CFG_TB, R.ENS_SLOT_CFG_CLASS, R.ENS_SLOT_CFG_BIAS_FIX,
    R.ENS_SLOT_CFG_REFID, R.ENS_SLOT_CFG_TI_CH, Field.mk']

theorem slotErr_ne (i : Nat) : ∀ f ∈ (Reg.ENS_SLOT_CFG i).fields, f.key ≠ (R.ENS_SLOT_STAT_ASSIGN_ERR i).key := by
  simp [Reg.ENS_SLOT_CFG, R.ENS_SLOT_CFG_EN, R.ENS_SLOT_CFG_SET, R.ENS_SLOT_CFG_TB, R.ENS_SLOT_CFG_CLASS, R.ENS_SLOT_CFG_BIAS_FIX,
    R.ENS_SLOT_CFG_REFID, R.ENS_SLOT_CFG_TI_CH, R.ENS_SLOT_STAT_ASSIGN_ERR, Field.mk']
  omega

/-- A field it stores. -/
theorem rd_slotTaken_rws {i w : Nat} {s : State} {f : Field} (hf : f ∈ (Reg.ENS_SLOT_CFG i).fields) (ha : f.acc = .rws) :
    (slotTaken i w s).rd f = f.of w := by
  rw [slotTaken_rd, rd_lo_ne _ (slotErr_ne i f hf), rd_storeReg_rws _ _ _ hf (.inr ha) (pairwise_slotCfg i)]

theorem rd_slotTaken_en (i w : Nat) (s : State) : (slotTaken i w s).rd (R.ENS_SLOT_CFG_EN i) = (R.ENS_SLOT_CFG_EN i).of w :=
  rd_slotTaken_rws (by simp [Reg.ENS_SLOT_CFG]) rfl

theorem rd_slotTaken_set (i w : Nat) (s : State) : (slotTaken i w s).rd (R.ENS_SLOT_CFG_SET i) = (R.ENS_SLOT_CFG_SET i).of w :=
  rd_slotTaken_rws (by simp [Reg.ENS_SLOT_CFG]) rfl

theorem rd_slotTaken_biasFix (i w : Nat) (s : State) : (slotTaken i w s).rd (R.ENS_SLOT_CFG_BIAS_FIX i) = (R.ENS_SLOT_CFG_BIAS_FIX i).of w :=
  rd_slotTaken_rws (by simp [Reg.ENS_SLOT_CFG]) rfl

theorem rd_slotTaken_chan {i : Nat} (hi : 8 ≤ i) (w : Nat) (s : State) :
    (slotTaken i w s).rd (R.ENS_SLOT_CFG_TI_CH i) = (R.ENS_SLOT_CFG_TI_CH i).of w :=
  rd_slotTaken_rws (by simp [Reg.ENS_SLOT_CFG]) (if_neg (by omega))

theorem rd_slotTaken_err (i w : Nat) (s : State) : (slotTaken i w s).rd (R.ENS_SLOT_STAT_ASSIGN_ERR i) = 0 := by
  rw [slotTaken_rd, rd_lo_same]

theorem slotTaken_slotEn (i w : Nat) (s : State) : (slotTaken i w s).slotEn i = decide ((R.ENS_SLOT_CFG_EN i).of w = 1) := by
  rw [State.slotEn, State.on, rd_slotTaken_en]

/-- A slot that was enabled, and is not, is marked. -/
theorem slotTaken_enOff (i w : Nat) (s : State) : ((slotTaken i w s).slot i).enOff =
    ((s.slot i).enOff || decide (s.rd (R.ENS_SLOT_CFG_EN i) = 1 ∧ (R.ENS_SLOT_CFG_EN i).of w ≠ 1)) := by
  have hen : (slotNoted i w s).slotEn i = decide ((R.ENS_SLOT_CFG_EN i).of w = 1) := by
    rw [← slotTaken_slotEn i w s, State.slotEn, State.slotEn, State.on, State.on, slotTaken_rd]
    rfl
  have hslot : ((slotNoted i w s).slot i).enOff = (s.slot i).enOff := by
    have hens : ((s.storeReg false (Reg.ENS_SLOT_CFG i) w).lo (R.ENS_SLOT_STAT_ASSIGN_ERR i)).ens = s.ens := storeReg_ens s false _ w
    rw [slotNoted, noteWriter, State.slot, State.modSlot, IMap.get_upd_same, hens]
    rfl
  rw [slotTaken, hen, State.slotEn, State.on]
  by_cases h : s.rd (R.ENS_SLOT_CFG_EN i) = 1 ∧ (R.ENS_SLOT_CFG_EN i).of w ≠ 1
  · rw [if_pos (by simp [h]), decide_eq_true h, Bool.or_true, State.slot, State.modSlot, IMap.get_upd_same]
  · rw [if_neg (by simpa using h), decide_eq_false h, Bool.or_false, hslot]

end Sys2Proof.Machine
end

section
/-! PROOFS. Slot configuration and commands, decisions and the frequency anchor's selection (R79, R81, R82, R95-R97, R114; O17). -/

namespace Sys2Proof.Machine

/-! ### The branches of a slot's write -/

section
variable {i w : Nat} {s : State}

theorem writeSlotCfg_eq (i w : Nat) (s : State) : writeSlotCfg 2 i w s =
    let u := slotTaken i w s
    let ch0 := s.rd (R.ENS_SLOT_CFG_TI_CH i)
    let ch := u.rd (R.ENS_SLOT_CFG_TI_CH i)
    if i < 8 then u
    else if s.slotEn i && !u.slotEn i then unassignChan ch0 u
    else if u.slotEn i && !(s.slotEn i && ch = ch0) then
      if u.assignable ch then assignChan ch (if s.slotEn i then unassignChan ch0 u else u)
      else if s.slotEn i then (u.hi (R.ENS_SLOT_STAT_ASSIGN_ERR i)).wr (R.ENS_SLOT_CFG_TI_CH i) ch0
        else (u.hi (R.ENS_SLOT_STAT_ASSIGN_ERR i)).lo (R.ENS_SLOT_CFG_EN i)
    else u := by
  have hen : (slotTaken i w s).slotEn i = (slotNoted i w s).slotEn i := by rw [State.slotEn, State.slotEn, State.on, State.on, State.rd, slotTaken_regs]; rfl
  have hch : (slotTaken i w s).rd (R.ENS_SLOT_CFG_TI_CH i) = (slotNoted i w s).rd (R.ENS_SLOT_CFG_TI_CH i) := by
    rw [State.rd, slotTaken_regs]; rfl
  dsimp only
  rw [hen, hch]
  rfl

theorem touches_slotTaken (i w : Nat) (s : State) : Touches [.ens, .regs .ens] s (slotTaken i w s.begin) := by
  have hstore : Touches [.ens, .regs .ens] s (slotNoted i w s.begin) :=
    touches_set_ens (by simp) (touches_State_lo (has_R_ENS_SLOT_STAT_ASSIGN_ERR i) (by simp)
      (touches_State_storeReg (has_Reg_ENS_SLOT_CFG i) (by simp) (touches_begin _ s)))
  unfold slotTaken
  split
  · exact touches_set_ens (by simp) hstore
  · exact hstore

theorem side_timState (c : Nat) : (R.TIM_CH_STAT_STATE c).side = false :=
  Field.side_of_low (by simp only [R.TIM_CH_STAT_STATE, Field.mk']; omega)

theorem slotTaken_assignable (i w : Nat) (s : State) (c : Nat) : (slotTaken i w s.begin).assignable c = s.assignable c := by
  have h := touches_slotTaken i w s
  have hmode : (slotTaken i w s.begin).chMode c = s.chMode c := by
    simp only [State.chMode, h.rd (b := .tim) (by simp) (has_R_TIM_CH_CFG_MODE c) (side_timMode c)]
  have hstate : (slotTaken i w s.begin).chState c = s.chState c :=
    h.rd (b := .tim) (by simp) (has_R_TIM_CH_STAT_STATE c) (side_timState c)
  have hassigned : (slotTaken i w s.begin).on (R.TIM_CH_STAT_ASSIGNED c) = s.on (R.TIM_CH_STAT_ASSIGNED c) := by
    rw [State.on, State.on, h.rd (b := .tim) (by simp) (has_R_TIM_CH_STAT_ASSIGNED c) (side_timAssigned c)]
  rw [State.assignable, State.assignable, hmode, hstate, hassigned]

theorem side_slotFields (i : Nat) : ∀ f ∈ slotFields i, f.side = false := by
  intro f hf
  refine Field.side_of_low ?_
  simp only [slotFields, Reg.ENS_SLOT_CFG, List.mem_cons, List.not_mem_nil, or_false] at hf
  rcases hf with rfl | rfl | rfl | rfl | rfl | rfl | rfl | rfl <;>
    simp only [R.ENS_SLOT_CFG_EN, R.ENS_SLOT_CFG_SET, R.ENS_SLOT_CFG_TB, R.ENS_SLOT_CFG_CLASS, R.ENS_SLOT_CFG_BIAS_FIX,
      R.ENS_SLOT_CFG_REFID, R.ENS_SLOT_CFG_TI_CH, R.ENS_SLOT_STAT_ASSIGN_ERR, Field.mk'] <;> omega

theorem has_slotFields (i : Nat) : ∀ f ∈ slotFields i, Block.has .ens f.key = true := by
  intro f hf
  rcases List.mem_cons.1 hf with rfl | hf
  · exact has_R_ENS_SLOT_STAT_ASSIGN_ERR i
  · exact has_Reg_ENS_SLOT_CFG i f hf

theorem mem_slotFields_err (i : Nat) : R.ENS_SLOT_STAT_ASSIGN_ERR i ∈ slotFields i := List.mem_cons_self

theorem mem_slotFields_en (i : Nat) : R.ENS_SLOT_CFG_EN i ∈ slotFields i := by simp [slotFields, Reg.ENS_SLOT_CFG]

theorem mem_slotFields_set (i : Nat) : R.ENS_SLOT_CFG_SET i ∈ slotFields i := by simp [slotFields, Reg.ENS_SLOT_CFG]

theorem mem_slotFields_biasFix (i : Nat) : R.ENS_SLOT_CFG_BIAS_FIX i ∈ slotFields i := by simp [slotFields, Reg.ENS_SLOT_CFG]

theorem mem_slotFields_chan (i : Nat) : R.ENS_SLOT_CFG_TI_CH i ∈ slotFields i := by simp [slotFields, Reg.ENS_SLOT_CFG]

end

/-! ### What such a write comes to -/

section
variable {i w : Nat} {s t u : State}

/-- A field of the slot, once the interval channel has been assigned or freed. -/
theorem Ended.rd_slot (k : Ended s u t) (h : Touches [.tim, .regs .tim] (slotTaken i w s.begin) u) {f : Field} (hf : f ∈ slotFields i) :
    t.rd f = (slotTaken i w s.begin).rd f :=
  (k.rd (side_slotFields i f hf)).trans (h.rd (b := .ens) (by simp) (has_slotFields i f hf) (side_slotFields i f hf))

theorem Ended.touches_slot (k : Ended s u t) (h : Touches [.tim, .regs .tim] (slotTaken i w s.begin) u) :
    Touches [.ens, .tim, .regs .ens, .regs .tim] s t :=
  k.touches (((touches_slotTaken i w s).mono (by simp)).trans (h.mono (by simp)))

theorem touches_chanAssigned (c : Nat) {v : State} (h : Touches [.tim, .regs .tim] u v) : Touches [.tim, .regs .tim] u (assignChan c v) :=
  touches_assignChan c v (by simp) (by simp) h

theorem touches_chanFreed (c : Nat) (u : State) : Touches [.tim, .regs .tim] u (unassignChan c u) :=
  touches_unassignChan c u (by simp) (by simp) (Touches.refl _ u)

theorem rd_begin_en (s : State) : s.begin.slotEn i = decide (s.rd (R.ENS_SLOT_CFG_EN i) = 1) := rfl

/-- Slots 0 to 7. -/
theorem slotWrite_low (hi : i < 8) (w : Nat) (s : State) :
    ∃ t, go (writeSlotCfg 2 i w) s = .next t ∧ t.rd (R.ENS_SLOT_CFG_EN i) = (R.ENS_SLOT_CFG_EN i).of w ∧
      t.rd (R.ENS_SLOT_CFG_SET i) = (R.ENS_SLOT_CFG_SET i).of w ∧ t.rd (R.ENS_SLOT_CFG_BIAS_FIX i) = (R.ENS_SLOT_CFG_BIAS_FIX i).of w ∧
      (t.slot i).enOff = ((s.slot i).enOff || decide (s.rd (R.ENS_SLOT_CFG_EN i) = 1 ∧ (R.ENS_SLOT_CFG_EN i).of w ≠ 1)) ∧
      Frame (slotFields i) [.ens] s t := by
  obtain ⟨t, e, k⟩ := go_ended_of (f := writeSlotCfg 2 i w) (s := s) ((writeSlotCfg_eq i w s.begin).trans (if_pos hi))
  have hsame := Touches.refl [.tim, .regs .tim] (slotTaken i w s.begin)
  refine ⟨t, e, ?_, ?_, ?_, ?_, k.frame (frame_slotTaken i w s)⟩
  · rw [k.rd_slot hsame (mem_slotFields_en i), rd_slotTaken_en]
  · rw [k.rd_slot hsame (mem_slotFields_set i), rd_slotTaken_set]
  · rw [k.rd_slot hsame (mem_slotFields_biasFix i), rd_slotTaken_biasFix]
  · rw [State.slot, k.ens]
    exact slotTaken_enOff i w s.begin

section
variable (hi : 8 ≤ i)
include hi

/-- A slot enabled takes its channel. -/
theorem slotWrite_assigned (hwas : s.rd (R.ENS_SLOT_CFG_EN i) ≠ 1) (hnow : (R.ENS_SLOT_CFG_EN i).of w = 1)
    (hfree : s.assignable ((R.ENS_SLOT_CFG_TI_CH i).of w) = true) :
    ∃ t, go (writeSlotCfg 2 i w) s = .next t ∧ t.rd (R.ENS_SLOT_CFG_EN i) = 1 ∧
      t.rd (R.ENS_SLOT_CFG_TI_CH i) = (R.ENS_SLOT_CFG_TI_CH i).of w ∧ t.rd (R.ENS_SLOT_CFG_SET i) = (R.ENS_SLOT_CFG_SET i).of w ∧
      t.rd (R.ENS_SLOT_STAT_ASSIGN_ERR i) = 0 ∧ t.rd (R.TIM_CH_STAT_ASSIGNED ((R.ENS_SLOT_CFG_TI_CH i).of w)) = 1 ∧
      t.rd (R.TIM_CH_CFG_MODE ((R.ENS_SLOT_CFG_TI_CH i).of w)) = 0 ∧ t.rd (R.TIM_CH_CFG_EDGE ((R.ENS_SLOT_CFG_TI_CH i).of w)) = 0 ∧
      Touches [.ens, .tim, .regs .ens, .regs .tim] s t := by
  have hrow : writeSlotCfg 2 i w s.begin = assignChan ((R.ENS_SLOT_CFG_TI_CH i).of w) (slotTaken i w s.begin) := by
    rw [writeSlotCfg_eq]
    dsimp only
    rw [if_neg (by omega), slotTaken_slotEn, rd_slotTaken_chan hi, slotTaken_assignable, rd_begin_en, hnow, hfree, decide_eq_false hwas]
    rfl
  obtain ⟨t, e, k⟩ := go_ended_of hrow
  have htim := touches_chanAssigned ((R.ENS_SLOT_CFG_TI_CH i).of w) (Touches.refl _ (slotTaken i w s.begin))
  refine ⟨t, e, ?_, ?_, ?_, ?_, ?_, ?_, ?_, k.touches_slot htim⟩
  · rw [k.rd_slot htim (mem_slotFields_en i), rd_slotTaken_en, hnow]
  · rw [k.rd_slot htim (mem_slotFields_chan i), rd_slotTaken_chan hi]
  · rw [k.rd_slot htim (mem_slotFields_set i), rd_slotTaken_set]
  · rw [k.rd_slot htim (mem_slotFields_err i), rd_slotTaken_err]
  · rw [k.rd (side_timAssigned _), rd_assignChan_assigned]
  · rw [k.rd (side_timMode _), rd_assignChan_mode]
  · rw [k.rd (side_timEdge _), rd_assignChan_edge]

/-- It stays disabled where its channel is not to be had. -/
theorem slotWrite_refused (hwas : s.rd (R.ENS_SLOT_CFG_EN i) ≠ 1) (hnow : (R.ENS_SLOT_CFG_EN i).of w = 1)
    (hfree : s.assignable ((R.ENS_SLOT_CFG_TI_CH i).of w) = false) :
    ∃ t, go (writeSlotCfg 2 i w) s = .next t ∧ t.rd (R.ENS_SLOT_CFG_EN i) = 0 ∧ t.rd (R.ENS_SLOT_STAT_ASSIGN_ERR i) = 1 ∧
      Frame (slotFields i) [.ens] s t := by
  have hrow : writeSlotCfg 2 i w s.begin = ((slotTaken i w s.begin).hi (R.ENS_SLOT_STAT_ASSIGN_ERR i)).lo (R.ENS_SLOT_CFG_EN i) := by
    rw [writeSlotCfg_eq]
    dsimp only
    rw [if_neg (by omega), slotTaken_slotEn, rd_slotTaken_chan hi, slotTaken_assignable, rd_begin_en, hnow, hfree, decide_eq_false hwas]
    rfl
  obtain ⟨t, e, k⟩ := go_ended_of hrow
  have herr : (R.ENS_SLOT_STAT_ASSIGN_ERR i).key ≠ (R.ENS_SLOT_CFG_EN i).key := (slotErr_ne i _ (by simp [Reg.ENS_SLOT_CFG])).symm
  refine ⟨t, e, ?_, ?_, k.frame (frame_lo (mem_slotFields_en i) (frame_hi (mem_slotFields_err i) (frame_slotTaken i w s)))⟩
  · rw [k.rd (side_slotFields i _ (mem_slotFields_en i)), rd_lo_same]
  · rw [k.rd (side_slotFields i _ (mem_slotFields_err i)), rd_lo_ne _ herr, rd_hi_same]
    rfl

/-! ### A slot that is enabled already -/

section
variable (hwas : s.rd (R.ENS_SLOT_CFG_EN i) = 1)
include hwas

/-- The same channel stays. -/
theorem slotWrite_same (hnow : (R.ENS_SLOT_CFG_EN i).of w = 1) (hsame : (R.ENS_SLOT_CFG_TI_CH i).of w = s.rd (R.ENS_SLOT_CFG_TI_CH i)) :
    writeSlotCfg 2 i w s.begin = slotTaken i w s.begin := by
  rw [writeSlotCfg_eq]
  dsimp only
  rw [if_neg (by omega), slotTaken_slotEn, rd_slotTaken_chan hi, rd_begin_en, hnow, decide_eq_true hwas, hsame]
  rw [if_neg (by simp), if_neg]
  rw [show s.begin.rd (R.ENS_SLOT_CFG_TI_CH i) = s.rd (R.ENS_SLOT_CFG_TI_CH i) from rfl]
  simp

/-- Another takes its place. -/
theorem slotWrite_moved (hnow : (R.ENS_SLOT_CFG_EN i).of w = 1) (hne : (R.ENS_SLOT_CFG_TI_CH i).of w ≠ s.rd (R.ENS_SLOT_CFG_TI_CH i))
    (hfree : s.assignable ((R.ENS_SLOT_CFG_TI_CH i).of w) = true) :
    writeSlotCfg 2 i w s.begin =
      assignChan ((R.ENS_SLOT_CFG_TI_CH i).of w) (unassignChan (s.rd (R.ENS_SLOT_CFG_TI_CH i)) (slotTaken i w s.begin)) := by
  rw [writeSlotCfg_eq]
  dsimp only
  rw [if_neg (by omega), slotTaken_slotEn, rd_slotTaken_chan hi, slotTaken_assignable, rd_begin_en, hnow, hfree, decide_eq_true hwas]
  rw [if_neg (by simp), if_pos]
  · rfl
  · rw [show s.begin.rd (R.ENS_SLOT_CFG_TI_CH i) = s.rd (R.ENS_SLOT_CFG_TI_CH i) from rfl, decide_eq_false hne]
    rfl

/-- One that is not to be had leaves the first. -/
theorem slotWrite_kept (hnow : (R.ENS_SLOT_CFG_EN i).of w = 1) (hne : (R.ENS_SLOT_CFG_TI_CH i).of w ≠ s.rd (R.ENS_SLOT_CFG_TI_CH i))
    (hfree : s.assignable ((R.ENS_SLOT_CFG_TI_CH i).of w) = false) :
    writeSlotCfg 2 i w s.begin =
      ((slotTaken i w s.begin).hi (R.ENS_SLOT_STAT_ASSIGN_ERR i)).wr (R.ENS_SLOT_CFG_TI_CH i) (s.rd (R.ENS_SLOT_CFG_TI_CH i)) := by
  rw [writeSlotCfg_eq]
  dsimp only
  rw [if_neg (by omega), slotTaken_slotEn, rd_slotTaken_chan hi, slotTaken_assignable, rd_begin_en, hnow, hfree, decide_eq_true hwas]
  rw [if_neg (by simp), if_pos]
  · rfl
  · rw [show s.begin.rd (R.ENS_SLOT_CFG_TI_CH i) = s.rd (R.ENS_SLOT_CFG_TI_CH i) from rfl, decide_eq_false hne]
    rfl

/-- A slot disabled frees its channel. -/
theorem slotWrite_off (hnow : (R.ENS_SLOT_CFG_EN i).of w = 0) :
    writeSlotCfg 2 i w s.begin = unassignChan (s.rd (R.ENS_SLOT_CFG_TI_CH i)) (slotTaken i w s.begin) := by
  rw [writeSlotCfg_eq]
  dsimp only
  rw [if_neg (by omega), slotTaken_slotEn, rd_begin_en, hnow, decide_eq_true hwas]
  rfl

end

end

end

/-- A write of the configuration of a slot that is enabled, by what it asks for. -/
theorem slotWrite_enabled {i w : Nat} {s : State} (hi : 8 ≤ i) (hwas : s.rd (R.ENS_SLOT_CFG_EN i) = 1) :
    ∃ t, go (writeSlotCfg 2 i w) s = .next t ∧ t.rd (R.ENS_SLOT_CFG_EN i) = (R.ENS_SLOT_CFG_EN i).of w ∧
      t.rd (R.ENS_SLOT_CFG_SET i) = (R.ENS_SLOT_CFG_SET i).of w ∧
      ((R.ENS_SLOT_CFG_EN i).of w = 1 → (R.ENS_SLOT_CFG_TI_CH i).of w = s.rd (R.ENS_SLOT_CFG_TI_CH i) →
        t.rd (R.ENS_SLOT_CFG_TI_CH i) = (R.ENS_SLOT_CFG_TI_CH i).of w ∧ t.rd (R.ENS_SLOT_STAT_ASSIGN_ERR i) = 0 ∧
        Frame (slotFields i) [.ens] s t) ∧
      ((R.ENS_SLOT_CFG_EN i).of w = 1 → (R.ENS_SLOT_CFG_TI_CH i).of w ≠ s.rd (R.ENS_SLOT_CFG_TI_CH i) →
        s.assignable ((R.ENS_SLOT_CFG_TI_CH i).of w) = true →
        t.rd (R.ENS_SLOT_CFG_TI_CH i) = (R.ENS_SLOT_CFG_TI_CH i).of w ∧ t.rd (R.ENS_SLOT_STAT_ASSIGN_ERR i) = 0 ∧
        t.rd (R.TIM_CH_STAT_ASSIGNED ((R.ENS_SLOT_CFG_TI_CH i).of w)) = 1 ∧
        t.rd (R.TIM_CH_STAT_ASSIGNED (s.rd (R.ENS_SLOT_CFG_TI_CH i))) = 0) ∧
      ((R.ENS_SLOT_CFG_EN i).of w = 1 → (R.ENS_SLOT_CFG_TI_CH i).of w ≠ s.rd (R.ENS_SLOT_CFG_TI_CH i) →
        s.assignable ((R.ENS_SLOT_CFG_TI_CH i).of w) = false →
        t.rd (R.ENS_SLOT_CFG_TI_CH i) = s.rd (R.ENS_SLOT_CFG_TI_CH i) ∧ t.rd (R.ENS_SLOT_STAT_ASSIGN_ERR i) = 1 ∧
        Frame (slotFields i) [.ens] s t) ∧
      ((R.ENS_SLOT_CFG_EN i).of w = 0 →
        (t.slot i).enOff = true ∧ t.rd (R.TIM_CH_STAT_ASSIGNED (s.rd (R.ENS_SLOT_CFG_TI_CH i))) = 0) ∧
      Touches [.ens, .tim, .regs .ens, .regs .tim] s t := by
  have hsame := Touches.refl [.tim, .regs .tim] (slotTaken i w s.begin)
  have hbit : (R.ENS_SLOT_CFG_EN i).of w < 2 := Nat.mod_lt _ (Nat.two_pow_pos _)
  obtain hoff | hnow : (R.ENS_SLOT_CFG_EN i).of w = 0 ∨ (R.ENS_SLOT_CFG_EN i).of w = 1 := by omega
  · obtain ⟨t, e, k⟩ := go_ended_of (slotWrite_off hi hwas hoff)
    have htim := touches_chanFreed (s.rd (R.ENS_SLOT_CFG_TI_CH i)) (slotTaken i w s.begin)
    have hon : (R.ENS_SLOT_CFG_EN i).of w ≠ 1 := by omega
    refine ⟨t, e, ?_, ?_, fun h => absurd h hon, fun h => absurd h hon, fun h => absurd h hon, fun _ => ⟨?_, ?_⟩, k.touches_slot htim⟩
    · rw [k.rd_slot htim (mem_slotFields_en i), rd_slotTaken_en]
    · rw [k.rd_slot htim (mem_slotFields_set i), rd_slotTaken_set]
    · rw [State.slot, k.ens, htim.1 .ens (by simp)]
      refine (slotTaken_enOff i w s.begin).trans ?_
      rw [show s.begin.rd (R.ENS_SLOT_CFG_EN i) = 1 from hwas, decide_eq_true ⟨rfl, hon⟩, Bool.or_true]
    · rw [k.rd (side_timAssigned _), rd_unassignChan_assigned]
  have hon : (R.ENS_SLOT_CFG_EN i).of w ≠ 0 := by omega
  by_cases hch : (R.ENS_SLOT_CFG_TI_CH i).of w = s.rd (R.ENS_SLOT_CFG_TI_CH i)
  · obtain ⟨t, e, k⟩ := go_ended_of (slotWrite_same hi hwas hnow hch)
    refine ⟨t, e, ?_, ?_, fun _ _ => ⟨?_, ?_, k.frame (frame_slotTaken i w s)⟩, fun _ h => absurd hch h, fun _ h => absurd hch h,
      fun h => absurd h hon, k.touches_slot hsame⟩
    · rw [k.rd_slot hsame (mem_slotFields_en i), rd_slotTaken_en]
    · rw [k.rd_slot hsame (mem_slotFields_set i), rd_slotTaken_set]
    · rw [k.rd_slot hsame (mem_slotFields_chan i), rd_slotTaken_chan hi]
    · rw [k.rd_slot hsame (mem_slotFields_err i), rd_slotTaken_err]
  cases hfree : s.assignable ((R.ENS_SLOT_CFG_TI_CH i).of w) with
  | true =>
    obtain ⟨t, e, k⟩ := go_ended_of (slotWrite_moved hi hwas hnow hch hfree)
    have htim := touches_chanAssigned ((R.ENS_SLOT_CFG_TI_CH i).of w)
      (touches_chanFreed (s.rd (R.ENS_SLOT_CFG_TI_CH i)) (slotTaken i w s.begin))
    have hnew : (R.ENS_SLOT_CFG_TI_CH i).of w < 64 := Nat.mod_lt _ (Nat.two_pow_pos _)
    refine ⟨t, e, ?_, ?_, fun _ h => absurd h hch, fun _ _ _ => ⟨?_, ?_, ?_, ?_⟩, fun _ _ h => absurd h (by simp), fun h => absurd h hon,
      k.touches_slot htim⟩
    · rw [k.rd_slot htim (mem_slotFields_en i), rd_slotTaken_en]
    · rw [k.rd_slot htim (mem_slotFields_set i), rd_slotTaken_set]
    · rw [k.rd_slot htim (mem_slotFields_chan i), rd_slotTaken_chan hi]
    · rw [k.rd_slot htim (mem_slotFields_err i), rd_slotTaken_err]
    · rw [k.rd (side_timAssigned _), rd_assignChan_assigned]
    · rw [k.rd (side_timAssigned _), rd_assignChan_other hnew (rd_lt s (R.ENS_SLOT_CFG_TI_CH i)) (Ne.symm hch), rd_unassignChan_assigned]
  | false =>
    obtain ⟨t, e, k⟩ := go_ended_of (slotWrite_kept hi hwas hnow hch hfree)
    have hframe : Frame (slotFields i) [.ens] s t :=
      k.frame (frame_wr (mem_slotFields_chan i) (frame_hi (mem_slotFields_err i) (frame_slotTaken i w s)))
    have herr : ∀ f ∈ (Reg.ENS_SLOT_CFG i).fields, f.key ≠ (R.ENS_SLOT_STAT_ASSIGN_ERR i).key := slotErr_ne i
    have hkeys : (R.ENS_SLOT_CFG_EN i).key ≠ (R.ENS_SLOT_CFG_TI_CH i).key ∧ (R.ENS_SLOT_CFG_SET i).key ≠ (R.ENS_SLOT_CFG_TI_CH i).key := by
      simp only [R.ENS_SLOT_CFG_EN, R.ENS_SLOT_CFG_SET, R.ENS_SLOT_CFG_TI_CH, Field.mk']; omega
    refine ⟨t, e, ?_, ?_, fun _ h => absurd h hch, fun _ _ h => absurd h (by simp), fun _ _ _ => ⟨?_, ?_, hframe⟩, fun h => absurd h hon,
      k.touches (touches_State_wr (b := .ens) (has_slotFields i _ (mem_slotFields_chan i)) (by simp)
        (touches_State_hi (b := .ens) (has_slotFields i _ (mem_slotFields_err i)) (by simp) ((touches_slotTaken i w s).mono (by simp))))⟩
    · rw [k.rd (side_slotFields i _ (mem_slotFields_en i)), rd_wr_ne _ _ hkeys.1, rd_hi_ne _ (herr _ (by simp [Reg.ENS_SLOT_CFG])),
        rd_slotTaken_en]
    · rw [k.rd (side_slotFields i _ (mem_slotFields_set i)), rd_wr_ne _ _ hkeys.2, rd_hi_ne _ (herr _ (by simp [Reg.ENS_SLOT_CFG])),
        rd_slotTaken_set]
    · rw [k.rd (side_slotFields i _ (mem_slotFields_chan i)), rd_wr_same]
      exact Nat.mod_eq_of_lt (rd_lt s _)
    · rw [k.rd (side_slotFields i _ (mem_slotFields_err i)), rd_wr_ne _ _ (herr _ (by simp [Reg.ENS_SLOT_CFG])).symm, rd_hi_same]
      rfl

/-! ### Commands of a slot (R114) -/

/-- Which of the command bits a word asks for. -/
theorem slotCmdFields (i w : Nat) : (Reg.ENS_SLOT_CMD i).fields = [R.ENS_SLOT_CMD_RELEASE i, R.ENS_SLOT_CMD_QUARANTINE i, R.ENS_SLOT_CMD_CLR_ASYM i,
    R.ENS_SLOT_CMD_RELEARN i] ∧ (R.ENS_SLOT_CMD_RELEASE i).of w = w % 2 ∧ (R.ENS_SLOT_CMD_QUARANTINE i).of w = w / 2 % 2 ∧
    (R.ENS_SLOT_CMD_CLR_ASYM i).of w = w / 4 % 2 ∧ (R.ENS_SLOT_CMD_RELEARN i).of w = w / 8 % 2 :=
  ⟨rfl, by simp [Field.of, R.ENS_SLOT_CMD_RELEASE, Field.mk'], rfl, rfl, rfl⟩

theorem side_slotCmd (i : Nat) {f : Field} (hf : f ∈ (Reg.ENS_SLOT_CMD i).fields) : f.side = false := by
  refine Field.side_of_low ?_
  simp only [(slotCmdFields i 0).1, List.mem_cons, List.not_mem_nil, or_false] at hf
  rcases hf with rfl | rfl | rfl | rfl <;>
    simp only [R.ENS_SLOT_CMD_RELEASE, R.ENS_SLOT_CMD_QUARANTINE, R.ENS_SLOT_CMD_CLR_ASYM, R.ENS_SLOT_CMD_RELEARN, Field.mk'] <;> omega

theorem writeSlotCmd_release (i : Nat) (s : State) : writeSlotCmd 2 i 1 s = (noteWriter 2 i s).hi (R.ENS_SLOT_CMD_RELEASE i) := by
  simp [writeSlotCmd, slotCmdFields i 1]

theorem writeSlotCmd_quarantine (i : Nat) (s : State) : writeSlotCmd 2 i 2 s = (noteWriter 2 i s).hi (R.ENS_SLOT_CMD_QUARANTINE i) := by
  simp [writeSlotCmd, slotCmdFields i 2]

theorem writeSlotCmd_clrAsym (i : Nat) (s : State) : writeSlotCmd 2 i 4 s = (noteWriter 2 i s).hi (R.ENS_SLOT_CMD_CLR_ASYM i) := by
  simp [writeSlotCmd, slotCmdFields i 4]

theorem writeSlotCmd_relearn (i : Nat) (s : State) : writeSlotCmd 2 i 8 s = (noteWriter 2 i s).hi (R.ENS_SLOT_CMD_RELEARN i) := by
  simp [writeSlotCmd, slotCmdFields i 8]

/-- The bit of a slot's command waits, its writer noted. -/
theorem slotCmd_row {m i : Nat} {f : Field} (hcmd : ∀ s, writeSlotCmd 2 i m s = (noteWriter 2 i s).hi f) (hside : f.side = false)
    (hwidth : f.width = 1) (s : State) :
    ∃ t, go (writeSlotCmd 2 i m) s = .next t ∧ t.rd f = 1 ∧ t.ens = (s.modSlot i (fun k => { k with by_ := 2 })).ens ∧ Frame [f] [.ens] s t := by
  obtain ⟨t, e, k⟩ := go_ended_of (hcmd s.begin)
  refine ⟨t, e, ?_, k.ens, k.frame (frame_hi (by simp) (frame_set_ens (by simp) (frame_begin s)))⟩
  rw [k.rd hside, rd_hi_same, hwidth]
  rfl

/-! ### Decisions (R114) and the anchor (R95-R97) -/

theorem pairwise_decide : Reg.ENS_DECIDE.fields.Pairwise fun a b => a.key ≠ b.key := by decide

theorem pairwise_anchor : Reg.ENS_ANCHOR.fields.Pairwise fun a b => a.key ≠ b.key := by decide

theorem decideGo_row (w : Nat) (s : State) :
    ∃ t, go (writeDecide 2 (R.ENS_DECIDE_GO.setIn w)) s = .next t ∧ t.rd R.ENS_DECIDE_GO = 1 ∧
      t.rd R.ENS_DECIDE_ACTION = R.ENS_DECIDE_ACTION.of w ∧ t.rd R.ENS_DECIDE_SET = R.ENS_DECIDE_SET.of w ∧
      t.ens = { s.ens with decideBy := 2 } ∧ Frame Reg.ENS_DECIDE.fields [.ens] s t := by
  obtain ⟨u, hu⟩ : ∃ u, u = s.begin.storeReg false Reg.ENS_DECIDE (R.ENS_DECIDE_GO.setIn w) := ⟨_, rfl⟩
  have hens : u.ens = s.ens := by rw [hu, storeReg_ens]; rfl
  have hframe : Frame Reg.ENS_DECIDE.fields [.ens] s u := by
    rw [hu]; exact frame_storeReg (by decide) (frame_begin s)
  have hset : u.rd R.ENS_DECIDE_SET = R.ENS_DECIDE_SET.of w := by
    rw [hu, rd_storeReg_rws _ _ _ (by decide) (.inl rfl) pairwise_decide]
    exact Field.of_setIn_above _ _ _ (by decide)
  have hact : u.rd R.ENS_DECIDE_ACTION = R.ENS_DECIDE_ACTION.of w := by
    rw [hu, rd_storeReg_rws _ _ _ (by decide) (.inl rfl) pairwise_decide]
    exact Field.of_setIn_below _ _ _ (by decide)
  have hrow : writeDecide 2 (R.ENS_DECIDE_GO.setIn w) s.begin = ({ u with ens := { u.ens with decideBy := 2 } }).hi R.ENS_DECIDE_GO := by
    rw [hu]
    exact if_pos (Field.of_setIn _ _ rfl)
  obtain ⟨t, e, k⟩ := go_ended_of hrow
  refine ⟨t, e, ?_, ?_, ?_, ?_, k.frame (frame_hi (by decide) (frame_set_ens (by simp) hframe))⟩
  · rw [k.rd (by decide), rd_hi_same]; rfl
  · rw [k.rd (by decide), rd_hi_ne _ (by decide)]
    exact hact
  · rw [k.rd (by decide), rd_hi_ne _ (by decide)]
    exact hset
  · rw [k.ens, ← hens]
    rfl

theorem anchorSelect_row (w : Nat) (s : State) :
    ∃ t, go (writeAnchor w) s = .next t ∧ t.rd R.ENS_ANCHOR_SEL = R.ENS_ANCHOR_SEL.of w ∧ t.rd R.ENS_ANCHOR_ACTIVE = s.rd R.ENS_ANCHOR_ACTIVE ∧
      t.ens = (if t.anchorSel = s.anchorSel then s.ens else { s.ens with anchorFall := false }) ∧ Frame Reg.ENS_ANCHOR.fields [.ens] s t := by
  obtain ⟨u, hu⟩ : ∃ u, u = s.begin.storeReg false Reg.ENS_ANCHOR w := ⟨_, rfl⟩
  have hens : u.ens = s.ens := by rw [hu, storeReg_ens]; rfl
  have hframe : Frame Reg.ENS_ANCHOR.fields [.ens] s u := by
    rw [hu]; exact frame_storeReg (by decide) (frame_begin s)
  obtain ⟨v, hv⟩ : ∃ v, v = if u.anchorSel = s.anchorSel then u else { u with ens := { u.ens with anchorFall := false } } := ⟨_, rfl⟩
  have hrd (f : Field) : v.rd f = u.rd f := by rw [hv]; split <;> rfl
  have hrow : writeAnchor w s.begin = v := by rw [hv, hu]; rfl
  obtain ⟨t, e, k⟩ := go_ended_of hrow
  have hsel : t.anchorSel = u.anchorSel := by rw [State.anchorSel, State.anchorSel, k.rd (by decide), hrd]
  refine ⟨t, e, ?_, ?_, ?_, k.frame ?_⟩
  · rw [k.rd (by decide), hrd, hu]
    exact rd_storeReg_rws _ _ _ (by decide) (.inr rfl) pairwise_anchor
  · rw [k.rd (by decide), hrd, hu, rd_storeReg_mem _ _ _ _ (by decide) pairwise_anchor]
    rfl
  · rw [k.ens, hsel, hv, ← hens]
    split <;> rfl
  · rw [hv]
    exact frame_ite hframe (frame_set_ens (by simp) hframe)

theorem anchorHold_row (s : State) :
    ∃ t, go anchorHold s = .next t ∧ t.rd R.ENS_ANCHOR_HOLD = 1 ∧
      t.ens = { s.ens with anchorSince := IMap.put 0 s.ens.anchorSince (s.rd R.ENS_ANCHOR_ACTIVE) s.clk } ∧ Frame [R.ENS_ANCHOR_HOLD] [.ens] s t := by
  obtain ⟨t, e, k⟩ := go_ended anchorHold s
  refine ⟨t, e, ?_, k.ens, k.frame (frame_set_ens (by simp) (frame_hi (by simp) (frame_begin s)))⟩
  rw [k.rd (by decide)]
  exact (rd_hi_same s.begin R.ENS_ANCHOR_HOLD).trans rfl

/-- The state in which a selected anchor that is back becomes the active one. -/
def anchorBack (s : State) : State :=
  let v := s.begin.waitClk (IMap.get 0 s.ens.anchorSince s.anchorSel + sec16 60)
  { v with ens := { v.ens with anchorFall := false } }

theorem rd_set_ens (s : State) (x : Ens) (g : Field) : ({ s with ens := x } : State).rd g = s.rd g := rfl

theorem rd_anchorBack (s : State) {g : Field} (hg : g.side = false) : (anchorBack s).rd g = s.rd g := by
  unfold anchorBack
  rw [rd_set_ens, rd_waitClk _ _ hg]
  rfl

theorem anchorBack_ens (s : State) : (anchorBack s).ens = { s.ens with anchorFall := false } := by
  have h : (s.begin.waitClk (IMap.get 0 s.ens.anchorSince s.anchorSel + sec16 60)).ens = s.ens := (touches_waited s _).1 .ens (by simp)
  show { (s.begin.waitClk _).ens with anchorFall := false } = _
  rw [h]

theorem anchorReturn_acts {s : State} (hfall : s.ens.anchorFall = true) (hback : s.candidate s.anchorSel = true)
    (hsrc : s.anchorSel ≠ 0 → s.src (s.anchorSel + 1) ≠ .absent) : anchorReturn s.begin = setAnchor s.anchorSel (anchorBack s) := by
  have hcond : (s.ens.anchorFall && s.candidate s.anchorSel && (s.anchorSel = 0 || s.src (s.anchorSel + 1) ≠ .absent)) = true := by
    rw [hfall, hback, Bool.true_and, Bool.true_and, Bool.or_eq_true, decide_eq_true_iff, decide_eq_true_iff]
    exact or_iff_not_imp_left.2 hsrc
  exact if_pos hcond

theorem anchorSel_lt (s : State) : s.anchorSel < 4 := by
  unfold State.anchorSel
  split
  · decide
  · exact rd_lt s R.ENS_ANCHOR_SEL

/-- The fields a change of the anchor may move. -/
def anchorFields : List Field := [R.ENS_ANCHOR_ACTIVE, R.ENS_ANCHOR_HOLD, R.ENS_EVT_BITS]

theorem frame_setAnchor {ps : List Part} {s₀ s : State} (c : Nat) (hens : Part.ens ∈ ps) (h : Frame anchorFields ps s₀ s) :
    Frame anchorFields ps s₀ (setAnchor c s) :=
  frame_ite (frame_lo (by decide) h)
    (frame_raise (by decide) (frame_lo (by decide) (frame_wr (by decide) (frame_set_ens hens (frame_set_ens hens h)))))

/-- The active anchor set anew. -/
theorem setAnchor_stays {c : Nat} {s : State} (h : s.rd R.ENS_ANCHOR_ACTIVE = c) : setAnchor c s = s.lo R.ENS_ANCHOR_HOLD := if_pos h

/-- A change of the anchor. -/
theorem setAnchor_changes {c : Nat} {s : State} (h : s.rd R.ENS_ANCHOR_ACTIVE ≠ c) : setAnchor c s =
    ((({ s with ens := { s.ens with divider := IMap.get none s.ens.clockHz c, recKept := [] } } : State).wr R.ENS_ANCHOR_ACTIVE c).lo
      R.ENS_ANCHOR_HOLD).raise Evt.ens 64 := if_neg h

theorem anchorReturn_row {s : State} (hfall : s.ens.anchorFall = true) (hback : s.candidate s.anchorSel = true)
    (hsrc : s.anchorSel ≠ 0 → s.src (s.anchorSel + 1) ≠ .absent) :
    ∃ t, go anchorReturn s = .next t ∧ t.rd R.ENS_ANCHOR_ACTIVE = s.anchorSel ∧ t.rd R.ENS_ANCHOR_HOLD = 0 ∧
      t.ens = { s.ens with
        anchorFall := false
        divider := if s.rd R.ENS_ANCHOR_ACTIVE = s.anchorSel then s.ens.divider else IMap.get none s.ens.clockHz s.anchorSel
        recKept := if s.rd R.ENS_ANCHOR_ACTIVE = s.anchorSel then s.ens.recKept else [] } ∧
      t.tick = (s.waitClk (IMap.get 0 s.ens.anchorSince s.anchorSel + sec16 60)).tick ∧
      (s.rd R.ENS_ANCHOR_ACTIVE ≠ s.anchorSel → bit (t.rd R.ENS_EVT_BITS) 6 = true) ∧
      Frame anchorFields [.tick, .lanes, .ens] s t := by
  obtain ⟨t, e, k⟩ := go_ended_of (anchorReturn_acts hfall hback hsrc)
  have hwait : Frame anchorFields [.tick, .lanes, .ens] s (anchorBack s) :=
    frame_set_ens (by simp) (frame_waitClk (by simp) (by simp) (frame_begin s))
  have htick : (anchorBack s).tick = (s.waitClk (IMap.get 0 s.ens.anchorSince s.anchorSel + sec16 60)).tick := begin_waitClk s _
  have hset : (setAnchor s.anchorSel (anchorBack s)).tick = (anchorBack s).tick :=
    (touches_setAnchor (ps := [.ens, .regs .ens]) _ _ (by simp) (by simp) (Touches.refl _ _)).1 .tick (by simp)
  have hactive : (anchorBack s).rd R.ENS_ANCHOR_ACTIVE = s.rd R.ENS_ANCHOR_ACTIVE := rd_anchorBack s (by decide)
  have hframe := k.frame (frame_setAnchor s.anchorSel (by simp) hwait)
  have htick' : t.tick = _ := k.tick.trans (hset.trans htick)
  by_cases hsame : s.rd R.ENS_ANCHOR_ACTIVE = s.anchorSel
  · rw [setAnchor_stays (hactive.trans hsame)] at k
    refine ⟨t, e, ?_, ?_, ?_, htick', fun h => absurd hsame h, hframe⟩
    · rw [k.rd (by decide), rd_lo_ne _ (by decide), hactive, hsame]
    · rw [k.rd (by decide), rd_lo_same]
    · rw [k.ens, if_pos hsame, if_pos hsame]
      exact anchorBack_ens s
  · rw [setAnchor_changes (ne_of_eq_of_ne hactive hsame)] at k
    refine ⟨t, e, ?_, ?_, ?_, htick', fun _ => ?_, hframe⟩
    · rw [k.rd (by decide), rd_raise_ne _ _ _ (by decide) (by decide), rd_lo_ne _ (by decide), rd_wr_same]
      exact Nat.mod_eq_of_lt (anchorSel_lt s)
    · rw [k.rd (by decide), rd_raise_ne _ _ _ (by decide) (by decide), rd_lo_same]
    · rw [k.ens, raise_ens, if_neg hsame, if_neg hsame]
      show { (anchorBack s).ens with divider := IMap.get none (anchorBack s).ens.clockHz s.anchorSel, recKept := [] } = _
      rw [anchorBack_ens]
    · rw [k.rd (by decide)]
      exact bit_raise (by decide) (by decide) (by decide)

/-! ### The statement -/

/-- Settles O17. -/
theorem ensembleCommands : Obligations.EnsembleCommands := by
  refine ⟨?_, ?_, ?_, ?_, ?_, ?_, ?_, ?_, ?_, ?_, ?_, ?_, ?_, ?_⟩
  · exact fun s i w hi => slotWrite_low hi w.toNat s
  · exact fun s i w hi => slotWrite_low hi w.toNat s
  · exact fun s i w hi hwas hnow hfree => slotWrite_assigned hi hwas hnow hfree
  · exact fun s i w hi hwas hnow hfree => slotWrite_assigned hi hwas hnow hfree
  · exact fun s i w hi hwas hnow hfree => slotWrite_refused hi hwas hnow hfree
  · rintro s i w c ch0 ch en (rfl | rfl) hi hwas
    · exact slotWrite_enabled hi hwas
    · exact slotWrite_enabled hi hwas
  · exact fun s i => slotCmd_row (writeSlotCmd_release i) (side_slotCmd i (by simp [slotCmdFields i 0])) rfl s
  · exact fun s i => slotCmd_row (writeSlotCmd_quarantine i) (side_slotCmd i (by simp [slotCmdFields i 0])) rfl s
  · exact fun s i => slotCmd_row (writeSlotCmd_clrAsym i) (side_slotCmd i (by simp [slotCmdFields i 0])) rfl s
  · exact fun s i => slotCmd_row (writeSlotCmd_relearn i) (side_slotCmd i (by simp [slotCmdFields i 0])) rfl s
  · exact fun s w => decideGo_row w.toNat s
  · exact fun s w => anchorSelect_row w.toNat s
  · exact fun s => anchorHold_row s
  · exact fun s hfall hback hsrc => anchorReturn_row hfall hback hsrc

end Sys2Proof.Machine
end

section
/-! PROOFS. Restoring the receiver while Watch waits for a reserved channel (R443, R476; O47): the wake starts a channel, which the run notes. -/

namespace Sys2Proof.Machine

/- The kernel evaluates these examples one after another. -/
set_option Elab.async false

/-- A receiver asleep by a cut, with a signal to take up again, while test 4 of a Watch run waits. -/
def cutAsleep : State :=
  { watch := { run := some { tests := [4] } }
    power := { cuts := [.gnss], calmAt := some 0 }
    gnss := { resume := [(159, { sys := 0, low := false, ant := false, svid := 5 })] } }

/-- With both channels reserved for Watch given away, and port 0 in use. -/
def cutReceiver : State :=
  (((((cutAsleep.lo (R.GNS_CH_CFG_RSV 158)).lo (R.GNS_CH_CFG_RSV 159)).hi R.GNS_SLEEP_STAT_ASLEEP).hi R.GNS_CTL_EN).hi R.GNS_CTL_HIGH_EN).hi
    (R.GNS_PORT_CFG_EN 0)

theorem cutReceiver_restored :
    (arbiterRestore 0 cutReceiver.begin).watch.run.map (·.foundAt) = some (10 ^ 9 * 65536) := by decide +kernel

/-- Refutes O47: the Watch run has noted the instant, though no part of the Watch block is among those the clause names. -/
theorem not_powerArbiter : ¬Obligations.PowerArbiter := by
  rintro ⟨-, -, -, -, -, hrestore, -⟩
  obtain ⟨t, e, -, -, -, -, -, htouch⟩ := hrestore cutReceiver 0 .gnss [] (by decide +kernel) (by decide +kernel)
  obtain ⟨u, e', k⟩ := go_ended_of (f := arbiterRestore 0) (s := cutReceiver) rfl
  obtain rfl : u = t := by injection e'.symm.trans e
  have hsame : u.watch = cutReceiver.watch := htouch.1 .watch (by decide)
  have hnoted : u.watch.run.map (·.foundAt) = some (10 ^ 9 * 65536) := (congrArg (·.run.map (·.foundAt)) k.watch).trans cutReceiver_restored
  rw [hsame] at hnoted
  exact absurd hnoted (by decide +kernel)

end Sys2Proof.Machine
end

section
/-! PROOFS. A filter step at which the daily Watch run begins with FORCE (R475-R477; O18): the run waits for the next second to take a channel. -/

namespace Sys2Proof.Machine

/- The kernel evaluates these examples one after another. -/
set_option Elab.async false

/-- TS0, the host's, past the step's instant, with a board clock free of noise and ageing and the engine in HOLDOVER. -/
def quietHeld : State :=
  ((((({ tick := { bank0 := { ts := 2 ^ 80 } } } : State).hi R.TSC_CTL_OWN0).wr R.ENS_LOC_AGE_AGE 0).wr R.ENS_LOC_WFM_Q 0).wr
    R.ENS_LOC_RWFM_Q 0).wr (engField .ts0) 3

/-- The daily run due, its mask test 4 alone, with FORCE. -/
def dailyDue : State := (((quietHeld.wr R.WCH_CTL_MASK 16).hi R.WCH_CTL_FORCE).wr R.WCH_TIME_TOD 0).hi R.TSC_UTC_OFS_VALID

/-- The receiver on, and both reserved channels in use. -/
def dailyForced : State :=
  ((dailyDue.hi R.GNS_CTL_EN).wr (R.GNS_CH_STAT_STATE 158) 1).wr (R.GNS_CH_STAT_STATE 159) 1

/-- The step itself waits for nothing; the test it begins does. -/
theorem count_filterStep_dailyForced : (filterStep 0 dailyForced.begin).tick.count = 564026164 ∧
    (dailyForced.waitTs0 ((dailyForced.ens.stepAt / 4096000000000 + 1) * 4096000000000)).tick.count = 0 := by decide +kernel

/-- Refutes O18: the step ends with the Keeper further on than its instant. -/
theorem not_filterStep : ¬Obligations.FilterStep := by
  rintro ⟨-, hstep, -⟩
  obtain ⟨t, e, -, hcount, -⟩ := hstep dailyForced 0
  obtain ⟨u, e', k⟩ := go_ended_of (f := filterStep 0) (s := dailyForced) rfl
  obtain rfl : u = t := by injection e'.symm.trans e
  obtain ⟨hlate, hdue⟩ := count_filterStep_dailyForced
  have hmoved : u.tick.count = 564026164 := (congrArg (·.count) k.tick).trans hlate
  rw [hdue, hmoved] at hcount
  exact absurd hcount (by decide)

end Sys2Proof.Machine
end

section
/-! PROOFS. A port's registers, and what its link's coming up and going down leaves (R219-R226, R242). -/

namespace Sys2Proof.Machine

/-! ### The places of a port's registers -/

/-- The key of the first bit of a port's registers. -/
def portBase (p : Nat) : Nat := (0x1000000 + p % 32 / 8 * 0x1000000 + p % 32 % 8 * 0x10000) * 32

section
variable (p : Nat)

@[simp] theorem key_MAC_CFG_EN : (R.MAC_CFG_EN p).key = portBase p + 0 := rfl
@[simp] theorem key_MAC_CFG_MODE : (R.MAC_CFG_MODE p).key = portBase p + 1 := rfl
@[simp] theorem key_MAC_CFG_FEC : (R.MAC_CFG_FEC p).key = portBase p + 5 := rfl
@[simp] theorem key_MAC_CFG_AN_EN : (R.MAC_CFG_AN_EN p).key = portBase p + 7 := rfl
@[simp] theorem key_MAC_STAT_STATE : (R.MAC_STAT_STATE p).key = portBase p + 128 := by
  simp only [R.MAC_STAT_STATE, Field.mk', portBase]; omega
@[simp] theorem key_MAC_STAT_CAL_WEAK : (R.MAC_STAT_CAL_WEAK p).key = portBase p + 130 := by
  simp only [R.MAC_STAT_CAL_WEAK, Field.mk', portBase]; omega
@[simp] theorem key_MAC_STAT_HI_BER : (R.MAC_STAT_HI_BER p).key = portBase p + 133 := by
  simp only [R.MAC_STAT_HI_BER, Field.mk', portBase]; omega
@[simp] theorem key_MAC_STAT_FEC_LOCK : (R.MAC_STAT_FEC_LOCK p).key = portBase p + 134 := by
  simp only [R.MAC_STAT_FEC_LOCK, Field.mk', portBase]; omega
@[simp] theorem key_MAC_STAT_AN_DONE : (R.MAC_STAT_AN_DONE p).key = portBase p + 135 := by
  simp only [R.MAC_STAT_AN_DONE, Field.mk', portBase]; omega
@[simp] theorem key_MAC_STAT_VERIFY : (R.MAC_STAT_VERIFY p).key = portBase p + 136 := by
  simp only [R.MAC_STAT_VERIFY, Field.mk', portBase]; omega
@[simp] theorem key_MAC_STAT_PRE_ACTIVE : (R.MAC_STAT_PRE_ACTIVE p).key = portBase p + 138 := by
  simp only [R.MAC_STAT_PRE_ACTIVE, Field.mk', portBase]; omega
@[simp] theorem key_MAC_STAT_CFG_ERR : (R.MAC_STAT_CFG_ERR p).key = portBase p + 139 := by
  simp only [R.MAC_STAT_CFG_ERR, Field.mk', portBase]; omega
@[simp] theorem key_MAC_STAT_FEC_USED : (R.MAC_STAT_FEC_USED p).key = portBase p + 140 := by
  simp only [R.MAC_STAT_FEC_USED, Field.mk', portBase]; omega
@[simp] theorem key_MAC_STAT_CAL_TRIES : (R.MAC_STAT_CAL_TRIES p).key = portBase p + 142 := by
  simp only [R.MAC_STAT_CAL_TRIES, Field.mk', portBase]; omega
@[simp] theorem key_MAC_EVT_BITS : (R.MAC_EVT_BITS p).key = portBase p + 256 := by
  simp only [R.MAC_EVT_BITS, Field.mk', portBase]; omega
@[simp] theorem key_Evt_mac : (Evt.mac p).ev.key = portBase p + 256 := key_MAC_EVT_BITS p
@[simp] theorem key_MAC_ADDR_LO_A : (R.MAC_ADDR_LO_A p).key = portBase p + 512 := by
  simp only [R.MAC_ADDR_LO_A, Field.mk', portBase]; omega
@[simp] theorem key_MAC_ADDR_HI_A : (R.MAC_ADDR_HI_A p).key = portBase p + 640 := by
  simp only [R.MAC_ADDR_HI_A, Field.mk', portBase]; omega
@[simp] theorem key_MAC_PRE_CFG_PRE_EN : (R.MAC_PRE_CFG_PRE_EN p).key = portBase p + 1152 := by
  simp only [R.MAC_PRE_CFG_PRE_EN, Field.mk', portBase]; omega
@[simp] theorem key_MAC_PRE_CFG_VERIFY_DIS : (R.MAC_PRE_CFG_VERIFY_DIS p).key = portBase p + 1153 := by
  simp only [R.MAC_PRE_CFG_VERIFY_DIS, Field.mk', portBase]; omega
@[simp] theorem key_MAC_TS_LAT_L_RX : (R.MAC_TS_LAT_L_RX p).key = portBase p + 1536 := by
  simp only [R.MAC_TS_LAT_L_RX, Field.mk', portBase]; omega
@[simp] theorem key_MAC_TS_LAT_L_TX : (R.MAC_TS_LAT_L_TX p).key = portBase p + 1552 := by
  simp only [R.MAC_TS_LAT_L_TX, Field.mk', portBase]; omega
@[simp] theorem key_MAC_TS_PHASE_PHI_RX : (R.MAC_TS_PHASE_PHI_RX p).key = portBase p + 1664 := by
  simp only [R.MAC_TS_PHASE_PHI_RX, Field.mk', portBase]; omega
@[simp] theorem key_MAC_TS_PHASE_PHI_TX : (R.MAC_TS_PHASE_PHI_TX p).key = portBase p + 1680 := by
  simp only [R.MAC_TS_PHASE_PHI_TX, Field.mk', portBase]; omega

end

theorem portBase_ge (p : Nat) : 0x20000000 ≤ portBase p := by unfold portBase; omega

theorem portBase_lt (p : Nat) : portBase p < 0xA0000000 := by unfold portBase; omega

/-- No register of a port is a counter's or a pending bit. -/
theorem side_of_portBase {f : Field} {p n : Nat} (h : f.key = portBase p + n) (hn : n < 0x200000) : f.side = false :=
  Field.side_of_mid (by have := portBase_ge p; have := portBase_lt p; omega)

/-! ### What a register reads through the steps that leave it -/

@[simp] theorem rd_modPort (s : State) (p : Nat) (f : Port → Port) (g : Field) : (s.modPort p f).rd g = s.rd g := rfl

theorem rd_bumpStat (key event unit n : Nat) (s : State) {g : Field} (hg : g.side = false) : (bumpStat key event unit n s).rd g = s.rd g :=
  (frame_bumpStat (fs := []) (ps := [.srv]) (by simp) (Frame.refl _ _ s)).rd (by simp) hg

theorem rd_mac (p i n : Nat) (s : State) {g : Field} (hg : g.side = false) : (mac p i n s).rd g = s.rd g := rd_bumpStat _ _ _ _ _ hg

end Sys2Proof.Machine
end

section
/-! PROOFS. What a port that leaves UP keeps and loses (R226, R255, R302). -/

namespace Sys2Proof.Machine

/-! ### What stands on a port -/

/-- What `φ` takes of a port's state, and the statistics `ks` of it, stand. -/
structure PortKept {α : Type} (φ : Port → α) (ks : List Nat) (p : Nat) (s t : State) : Prop where
  port : φ (t.port p) = φ (s.port p)
  stats : ∀ i ∈ ks, IMap.get 0 t.srv.stats (p * 64 + i) = IMap.get 0 s.srv.stats (p * 64 + i)

namespace PortKept

section
variable {α : Type} {φ : Port → α} {ks : List Nat} {p : Nat} {s t u : State}

theorem refl (s : State) : PortKept φ ks p s s := ⟨rfl, fun _ _ => rfl⟩

theorem trans (h : PortKept φ ks p s t) (k : PortKept φ ks p t u) : PortKept φ ks p s u :=
  ⟨k.port.trans h.port, fun i hi => (k.stats i hi).trans (h.stats i hi)⟩

theorem of_srv (h : t.srv = s.srv) : PortKept φ ks p s t := by
  constructor
  · rw [State.port, State.port, h]
  · intro i _; rw [h]

theorem modPort (h : PortKept φ ks p s t) (q : Nat) {f : Port → Port} (hf : ∀ k, φ (f k) = φ k) : PortKept φ ks p s (t.modPort q f) := by
  refine h.trans ⟨?_, fun _ _ => rfl⟩
  by_cases hq : p = q
  · subst hq; exact (congrArg φ (IMap.get_upd_same _ _ _ _)).trans (hf _)
  · exact congrArg φ (IMap.get_upd_ne _ _ _ hq)

theorem bumpStat (h : PortKept φ ks p s t) {key : Nat} (event unit n : Nat) (hk : ∀ i ∈ ks, p * 64 + i ≠ key) :
    PortKept φ ks p s (bumpStat key event unit n t) := by
  by_cases hn : n = 0
  · rw [Machine.bumpStat, if_pos hn]; exact h
  · have hstats : (Machine.bumpStat key event unit n t).srv.stats = IMap.upd 0 t.srv.stats key (fun v => (v + n) % 2 ^ 64) := by
      rw [bumpStat_srv _ _ _ _ _ hn]
    refine h.trans ⟨?_, fun i hi => ?_⟩
    · rw [State.port, bumpStat_srv _ _ _ _ _ hn]; rfl
    · rw [hstats]; exact IMap.get_upd_ne _ _ _ (hk i hi)

theorem mac (h : PortKept φ ks p s t) {i : Nat} (n : Nat) (hi : i ∉ ks) : PortKept φ ks p s (mac p i n t) :=
  h.bumpStat _ _ _ fun j hj e => hi (by rwa [← Nat.add_left_cancel e])

theorem setTxq (h : PortKept φ ks p s t) (q i : Nat) (l : List TxFrame) (hφ : ∀ k l, φ { k with queues := l } = φ k) :
    PortKept φ ks p s (setTxq q i l t) := h.modPort q fun k => hφ k _

theorem raise (h : PortKept φ ks p s t) (e : EvtSrc) (m : Nat) : PortKept φ ks p s (t.raise e m) := h.trans (.of_srv (raise_srv t e m))

theorem ite {a b : State} {c : Prop} [Decidable c] (ha : PortKept φ ks p s a) (hb : PortKept φ ks p s b) :
    PortKept φ ks p s (if c then a else b) := by
  split <;> assumption

theorem foldl {β : Type} {f : State → β → State} {l : List β} (h : PortKept φ ks p s t)
    (hf : ∀ t x, PortKept φ ks p s t → PortKept φ ks p s (f t x)) : PortKept φ ks p s (l.foldl f t) := by
  induction l generalizing t with
  | nil => exact h
  | cons x l ih => exact ih (hf t x h)

theorem touched {ps : List Part} (h : PortKept φ ks p s t) (k : Touches ps t u) (hp : Part.srv ∉ ps) : PortKept φ ks p s u :=
  h.trans (.of_srv (k.1 .srv hp))

theorem freeStamp (h : PortKept φ ks p s t) (q : Nat) (d : RingDesc) (hφ : ∀ k l, φ { k with stamps := l } = φ k) :
    PortKept φ ks p s (freeStamp q d t) := by
  unfold Machine.freeStamp
  split
  · exact h
  · exact h.modPort _ fun k => hφ k _

theorem drainList (q : Nat) (hφ : ∀ k l, φ { k with stamps := l } = φ k) : ∀ (l : List RingDesc) {t : State},
    PortKept φ ks p s t → PortKept φ ks p s (drainList q l t)
  | [], _, h => h.trans (.of_srv rfl)
  | d :: l, t, h => by
    unfold Machine.drainList
    split
    · exact h.trans (.of_srv rfl)
    · next b _ =>
      exact drainList q hφ l ((h.freeStamp q d hφ).touched (ps := [.rings, .regs .ring])
        (touches_writeBack q d.idx b _ (by simp) (by simp) (Touches.refl _ _)) (by simp))

/-- A completed descriptor moves nothing on a port but its two-step stamps. -/
theorem finishDesc (h : PortKept φ ks p s t) (q idx : Nat) (back : RingDesc → RingDesc) (hφ : ∀ k l, φ { k with stamps := l } = φ k) :
    PortKept φ ks p s (finishDesc q idx back t) := by
  have hmod : ∀ f : Ring → Ring, PortKept φ ks p s (t.modRing q f) := fun _ => h.trans (.of_srv rfl)
  unfold Machine.finishDesc drain
  exact (drainList q hφ _ (hmod _)).touched (touches_quiesce (ps := [.regs .ring]) q _ (by simp) (Touches.refl _ _)) (by simp)

end

/-! ### A frame on its way -/

/-- The statistics a frame that leaves may move. -/
def sentStats : List Nat := [32, 33, 34, 35, 36, 37, 38, 39, 40, 45, 48, 50]

section
variable {α : Type} {φ : Port → α} {ks : List Nat} {p : Nat} {s t : State} (hk : ∀ i ∈ sentStats, i ∉ ks) (h : PortKept φ ks p s t)
include hk h

theorem finishFlight (v : Flight) (hφ : ∀ k x, φ { k with frameAt := x } = φ k) : PortKept φ ks p s (finishFlight p v t) := by
  have hstart : PortKept φ ks p s (sendPart p v v.frame.bytes (v.frame.bytes.length - v.sent) (crc32 v.frame.bytes)
      (t.modPort p (fun k => { k with frameAt := t.clkAt (t.leftPs p v) }))) :=
    (h.modPort p fun k => hφ k _).trans (.of_srv rfl)
  have hmac : ∀ {u : State} {i : Nat} (n : Nat), i ∈ sentStats → PortKept φ ks p s u → PortKept φ ks p s (Machine.mac p i n u) :=
    fun n hi h => h.mac n (hk _ hi)
  have hdst : ∀ (a b : Prop) [Decidable a] [Decidable b], (if a then 36 else if b then 35 else 34) ∈ sentStats := by
    intro a b _ _
    split
    · decide
    · split <;> decide
  have hcounted := hmac (b01 (decide (v.frags ≠ 0))) (i := 45) (by decide) (hmac (b01 v.frame.kind.stamped) (i := 50) (by decide)
    (hmac (b01 v.frame.kind.generated) (i := 38) (by decide) (hmac (b01 (decide (v.q = 7))) (i := 37) (by decide)
      (hmac 1 (hdst ((Eth.parse v.frame.bytes).dst = macBcast) (isGroup (Eth.parse v.frame.bytes).dst = true))
        (hmac 1 (i := 33) (by decide) (hmac (v.frame.bytes.length + 4) (i := 32) (by decide) hstart))))))
  unfold Machine.finishFlight
  dsimp only
  split
  · exact hmac 1 (by decide) hcounted
  · exact hmac 1 (by decide) hcounted
  · exact hmac 1 (by decide) hcounted
  · exact hcounted

theorem leaveBall (now : Nat) (hφ : ∀ k x y, φ { k with frameAt := x, leaving := y } = φ k) : PortKept φ ks p s (leaveBall p now t) :=
  foldl (h.modPort p fun k => hφ k k.frameAt _) fun _ v h => finishFlight hk h v fun k x => hφ k x k.leaving

omit hk in
theorem endFlight (v : Flight) (hφ : ∀ k x y z, φ { k with flight := x, leaving := y, stamps := z } = φ k) :
    PortKept φ ks p s (endFlight p v t) := by
  have hmod : ∀ (x : Option Flight) (y : Port → List Flight), PortKept φ ks p s (t.modPort p (fun k => { k with flight := x, leaving := y k })) := fun _ _ =>
    h.modPort p fun k => hφ k _ _ k.stamps
  unfold Machine.endFlight
  dsimp only
  split
  · exact (hmod none fun k => k.leaving ++ [v]).finishDesc _ _ _ fun k z => hφ k k.flight k.leaving z
  · exact hmod none fun k => k.leaving ++ [v]

/-- What a port brought up to an instant keeps. -/
theorem settleTo (x : Nat) (hφ : ∀ k a b c d e f,
      φ { k with heldRem := a, seenPs := b, flight := c, leaving := d, stamps := e, frameAt := f } = φ k) :
    PortKept φ ks p s (settleTo p x t) := by
  have hheld : ∀ n r, PortKept φ ks p s (if t.pauseHeld p then Machine.mac p 48 n (t.modPort p (fun k => { k with heldRem := r })) else t) :=
    fun n r => ite ((h.modPort p fun k => hφ k _ k.seenPs k.flight k.leaving k.stamps k.frameAt).mac n (hk _ (by decide))) h
  have hseen : ∀ {u : State} (y : Nat), PortKept φ ks p s u → PortKept φ ks p s (u.modPort p (fun k => { k with seenPs := y })) := fun y h =>
    h.modPort p fun k => hφ k k.heldRem _ k.flight k.leaving k.stamps k.frameAt
  have hend : ∀ {u : State} (o : Option Flight) (y : Nat), PortKept φ ks p s u → PortKept φ ks p s (match o with
      | none => u
      | some v => if v.endPs ≤ y then Machine.endFlight p v u else u) := by
    intro u o y h
    cases o with
    | none => exact h
    | some v => exact ite (endFlight h v fun k a b c => hφ k k.heldRem k.seenPs a b c k.frameAt) h
  refine leaveBall hk ?_ _ fun k a b => hφ k k.heldRem k.seenPs k.flight b k.stamps a
  exact hend _ _ (hseen _ (hheld _ _))

end

end PortKept

/-! ### A port leaves UP -/

section
variable (p : Nat) (s : State)

/-- The port without the frames on their way. -/
def noFlight (k : Port) : Port := { k with flight := none, leaving := [], suspended := none }

/-- The frames on their way are lost. -/
def flightsLost : State :=
  let s := settle p s
  let k := s.port p
  let s := loseFlight p k.suspended (loseFlight p k.flight (s.modPort p noFlight))
  mac p 42 k.leaving.length s

/-- So are the responses that wait, and the frame being received. -/
def trafficLost : State := loseOpen p (dropNts p (flightsLost p s))

/-- Preemption ends. -/
def verifyOff : State := ((trafficLost p s).wr (R.MAC_STAT_VERIFY p) 0).lo (R.MAC_STAT_PRE_ACTIVE p)

/-- The port with the instant its link left UP. -/
def outSince (x : Nat) (k : Port) : Port := { k with outAt := x }

theorem leaveUp_eq : leaveUp p s = (mac p 51 1 ((verifyOff p s).modPort p (outSince (verifyOff p s).clk))).raise
    (Evt.mac p) 2 := by
  unfold leaveUp verifyOff trafficLost flightsLost
  delta noFlight outSince
  generalize settle p s = u
  dsimp only

theorem touches_trafficLost : Touches [.srv, .rings, .regs .nts, .regs .ring] s (trafficLost p s) := by
  have h1 := touches_settle (ps := [.srv, .rings, .regs .nts, .regs .ring]) p s (by simp) (by simp) (by simp) (Touches.refl _ s)
  have h2 : Touches [.srv, .rings, .regs .nts, .regs .ring] s (flightsLost p s) :=
    touches_mac p 42 _ _ (by simp) (touches_loseFlight p _ _ (by simp) (by simp) (by simp) (touches_loseFlight p _ _ (by simp) (by simp)
      (by simp) (touches_State_modPort _ _ _ (by simp) h1)))
  exact touches_loseOpen p _ (by simp) (touches_dropNts p _ (by simp) (by simp) h2)

theorem verifyOff_clk : (verifyOff p s).clk = s.clk := by
  have h : (trafficLost p s).tick = s.tick := (touches_trafficLost p s).1 .tick (by simp)
  rw [verifyOff, State.clk, State.clk, lo_tick, wr_tick, h]

theorem verifyOff_srv : (verifyOff p s).srv = (trafficLost p s).srv := by rw [verifyOff, lo_srv, wr_srv]

variable {α : Type} {φ : Port → α} {ks : List Nat}

theorem PortKept.loseFlight {p : Nat} {s t : State} (h : PortKept φ ks p s t) (v : Option Flight) (hφ : ∀ k l, φ { k with stamps := l } = φ k)
    (hk : 42 ∉ ks) : PortKept φ ks p s (loseFlight p v t) := by
  unfold Machine.loseFlight
  split
  · exact h
  · dsimp only
    split
    · exact (h.mac _ hk).finishDesc _ _ _ hφ
    · exact h.mac _ hk

theorem PortKept.ntsStat {p : Nat} {s t : State} (h : PortKept φ ks p s t) {i : Nat} (n : Nat) (hp : p < 32) (hk : ∀ j ∈ ks, j < 64) :
    PortKept φ ks p s (ntsStat (p / 8) i n t) :=
  h.bumpStat _ _ _ fun j hj => by have := hk j hj; omega

theorem flightsLost_eq : flightsLost p s = mac p 42 ((settle p s).port p).leaving.length
    (loseFlight p ((settle p s).port p).suspended (loseFlight p ((settle p s).port p).flight ((settle p s).modPort p noFlight))) := rfl

theorem flightsLost_flight : ((flightsLost p s).port p).flight = none := by
  have h : PortKept Port.flight [] p ((settle p s).modPort p noFlight) (flightsLost p s) := by
    rw [flightsLost_eq]
    exact (((PortKept.refl _).loseFlight _ (fun _ _ => rfl) (by simp)).loseFlight _ (fun _ _ => rfl) (by simp)).mac _ (by simp)
  exact h.port.trans (congrArg Port.flight (port_modPort_same _ _ _))

theorem flightsLost_open : PortKept Port.asm [13, 29, 30, 51] p s (flightsLost p s) := by
  have hsettle : PortKept Port.asm [13, 29, 30, 51] p s (settle p s) :=
    PortKept.settleTo (by decide) (.refl s) _ fun _ _ _ _ _ _ _ => rfl
  have hlost := ((hsettle.modPort p (f := noFlight) fun _ => rfl).loseFlight ((settle p s).port p).flight (fun _ _ => rfl)
    (by simp)).loseFlight ((settle p s).port p).suspended (fun _ _ => rfl) (by simp)
  rw [flightsLost_eq]
  exact hlost.mac _ (by decide)

/-- The port once no finished response waits on it. -/
def noNts (k : Port) : Port :=
  { k with queues := IMap.put [] k.queues 7 ((IMap.get [] k.queues 7).filter (fun f => !f.isNts)), hold := [], ready := [] }

theorem dropNts_port : (dropNts p s).port p = noNts (s.port p) := by
  have hset : ((setTxq p 7 ((s.txq p 7).filter (fun f => !f.isNts)) s).modPort p (fun k => { k with hold := [], ready := [] })).port p =
      noNts (s.port p) := by
    rw [port_modPort_same, setTxq, port_modPort_same]; rfl
  unfold dropNts
  dsimp only
  split
  · exact hset
  · have hrefl := PortKept.refl (φ := id) (ks := []) (p := p)
      ((setTxq p 7 ((s.txq p 7).filter (fun f => !f.isNts)) s).modPort p (fun k => { k with hold := [], ready := [] }))
    exact ((hrefl.bumpStat _ _ _ (by simp)).raise _ _).port.trans hset

theorem dropNts_stats (hp : p < 32) : PortKept (fun _ => ()) [13, 29, 30, 51] p s (dropNts p s) := by
  have hset : PortKept (fun _ => ()) [13, 29, 30, 51] p s
      ((setTxq p 7 ((s.txq p 7).filter (fun f => !f.isNts)) s).modPort p (fun k => { k with hold := [], ready := [] })) :=
    ((PortKept.refl s).setTxq p 7 _ fun _ _ => rfl).modPort p fun _ => rfl
  unfold dropNts
  dsimp only
  exact .ite hset ((hset.ntsStat _ hp (by simp)).raise _ _)

theorem mac_port (i n : Nat) : (mac p i n s).port p = s.port p :=
  ((PortKept.refl (φ := id) (ks := []) (p := p) s).mac (i := i) n (by simp)).port

/-- The port once it has lost the frame being received. -/
def notOpen (k : Port) : Port := { k with asm := none, cutAsm := k.asm.isSome }

theorem loseOpen_port : (loseOpen p s).port p = notOpen (s.port p) := by
  have h : (s.modPort p (fun k => { k with asm := none, cutAsm := (s.port p).asm.isSome })).port p = notOpen (s.port p) :=
    port_modPort_same _ _ _
  unfold loseOpen
  dsimp only
  split
  · exact ((PortKept.refl (φ := id) (ks := []) (p := p) _).mac 1 (by simp)).port.trans h
  · exact h

/-- A frame being received is counted where it is lost. -/
theorem loseOpen_count : IMap.get 0 (loseOpen p s).srv.stats (p * 64 + 13) % 2 ^ 64 =
    (IMap.get 0 s.srv.stats (p * 64 + 13) + b01 (s.port p).asm.isSome) % 2 ^ 64 := by
  unfold loseOpen
  dsimp only
  split
  · next h => rw [mac_stats, IMap.get_upd_same, h, Nat.mod_mod]; rfl
  · next h => rw [Bool.eq_false_iff.2 h]; rfl

theorem loseOpen_stats : PortKept (fun _ => ()) [29, 30, 51] p s (loseOpen p s) := by
  have hmod : PortKept (fun _ => ()) [29, 30, 51] p s (s.modPort p (fun k => { k with asm := none, cutAsm := (s.port p).asm.isSome })) :=
    (PortKept.refl s).modPort p fun _ => rfl
  unfold loseOpen
  dsimp only
  exact .ite (hmod.mac 1 (by decide)) hmod

theorem trafficLost_port : (trafficLost p s).port p = notOpen (noNts ((flightsLost p s).port p)) := by
  rw [trafficLost, loseOpen_port, dropNts_port]

/-- A port that has left UP: nothing on its way, no finished response, no frame being received, and the loss counted. -/
structure LeftUp (p : Nat) (s t : State) : Prop where
  outAt : (t.port p).outAt = s.clk
  flight : (t.port p).flight = none
  hold : (t.port p).hold = []
  asm : (t.port p).asm = none
  noNts : ∀ x ∈ t.txq p 7, x.isNts = false
  losses : IMap.get 0 t.srv.stats (p * 64 + 51) = (IMap.get 0 s.srv.stats (p * 64 + 51) + 1) % 2 ^ 64
  pcs : ∀ i ∈ [29, 30], IMap.get 0 t.srv.stats (p * 64 + i) = IMap.get 0 s.srv.stats (p * 64 + i)
  cuts : IMap.get 0 t.srv.stats (p * 64 + 13) % 2 ^ 64 = (IMap.get 0 s.srv.stats (p * 64 + 13) + b01 (s.port p).asm.isSome) % 2 ^ 64

theorem LeftUp.of_srv {p : Nat} {s t u : State} (h : LeftUp p s t) (hs : u.srv = t.srv) : LeftUp p s u := by
  obtain ⟨h1, h2, h3, h4, h5, h6, h7, h8⟩ := h
  constructor <;> simp only [State.txq, State.port, hs] <;> assumption

theorem leaveUp_srv : (leaveUp p s).srv = (mac p 51 1 ((verifyOff p s).modPort p (outSince (verifyOff p s).clk))).srv := by
  rw [leaveUp_eq, raise_srv]

/-- What the port shows once it has left UP, whatever it showed before. -/
theorem leftPort (x : Nat) (k : Port) : let l := outSince x (notOpen (noNts k))
    l.outAt = x ∧ l.flight = k.flight ∧ l.hold = [] ∧ l.asm = none ∧
      l.queues = IMap.put [] k.queues 7 ((IMap.get [] k.queues 7).filter (fun f => !f.isNts)) := ⟨rfl, rfl, rfl, rfl, rfl⟩

theorem noNts_asm (k : Port) : (noNts k).asm = k.asm := rfl

theorem leaveUp_port : (leaveUp p s).port p = outSince s.clk (notOpen (noNts ((flightsLost p s).port p))) := by
  rw [State.port, leaveUp_srv, ← State.port, mac_port, port_modPort_same, verifyOff_clk, State.port, verifyOff_srv, ← State.port,
    trafficLost_port]

theorem modPort_stats (f : Port → Port) : (s.modPort p f).srv.stats = s.srv.stats := rfl

theorem leaveUp_stats : (leaveUp p s).srv.stats = IMap.upd 0 (trafficLost p s).srv.stats (p * 64 + 51) (fun v => (v + 1) % 2 ^ 64) := by
  rw [leaveUp_srv, mac_stats, modPort_stats, verifyOff_srv]

theorem leftUp_leaveUp (hp : p < 32) : LeftUp p s (leaveUp p s) := by
  have hopen := flightsLost_open p s
  have hdrop := dropNts_stats p (flightsLost p s) hp
  have hbefore : ∀ i ∈ [29, 30, 51], IMap.get 0 (trafficLost p s).srv.stats (p * 64 + i) = IMap.get 0 s.srv.stats (p * 64 + i) := by
    intro i hi
    rw [trafficLost]
    exact ((loseOpen_stats p _).stats i hi).trans ((hdrop.stats i (List.mem_cons_of_mem _ hi)).trans (hopen.stats i (List.mem_cons_of_mem _ hi)))
  obtain ⟨hat, hflight, hhold, hasm, hqueues⟩ := leftPort s.clk ((flightsLost p s).port p)
  rw [← leaveUp_port] at hat hflight hhold hasm hqueues
  refine ⟨hat, hflight.trans (flightsLost_flight p s), hhold, hasm, ?noNts, ?losses, ?pcs, ?cuts⟩
  case noNts =>
    intro x hx
    rw [State.txq, hqueues, IMap.get_put_same] at hx
    simpa using (List.mem_filter.1 hx).2
  case losses => rw [leaveUp_stats, IMap.get_upd_same, ← hbefore 51 (by simp)]
  case pcs =>
    intro i hi
    have hne : p * 64 + i ≠ p * 64 + 51 := by
      rcases List.mem_pair.1 hi with rfl | rfl <;> omega
    rw [leaveUp_stats, IMap.get_upd_ne _ _ _ hne]
    exact hbefore i (by rcases List.mem_pair.1 hi with rfl | rfl <;> simp)
  case cuts =>
    have h13 : IMap.get 0 (leaveUp p s).srv.stats (p * 64 + 13) = IMap.get 0 (trafficLost p s).srv.stats (p * 64 + 13) := by
      rw [leaveUp_stats, IMap.get_upd_ne _ _ _ (by omega)]
    rw [h13, trafficLost, loseOpen_count, dropNts_port, hdrop.stats 13 (by simp), hopen.stats 13 (by simp)]
    rw [noNts_asm, hopen.port]

end

end Sys2Proof.Machine
end

section
/-! PROOFS. A port's rows: its configuration and address, its link states, and the verify procedure (R219-R226, R242, O28). -/

namespace Sys2Proof.Machine

/-- A bit that stands in an event register stands when another is raised. -/
theorem bit_raise_kept {s : State} {e : EvtSrc} {m i : Nat} (hs : e.ev.side = false) (hi : i < e.ev.width) (h : bit (s.rd e.ev) i = true) :
    bit ((s.raise e m).rd e.ev) i = true := by
  rw [rd_raise_same _ _ _ hs, bit_mod_two_pow, bit_or, h, decide_eq_true hi]; rfl

section
variable {fs : List Field} {ps : List Part} {s₀ s : State} {p : Nat}

/-! ### The link out of UP -/

/-- The fields that show a link's state. -/
abbrev linkFields (p : Nat) : List Field := [R.MAC_STAT_STATE p, R.MAC_STAT_FEC_LOCK p, R.MAC_STAT_AN_DONE p, R.MAC_STAT_FEC_USED p]

theorem setLink_out (st : Nat) (h : s.link p ≠ 3) :
    setLink p st s = (((s.lo (R.MAC_STAT_FEC_LOCK p)).lo (R.MAC_STAT_AN_DONE p)).lo (R.MAC_STAT_FEC_USED p)).wr (R.MAC_STAT_STATE p) st := by
  have hup : s.isUp p = false := decide_eq_false h
  unfold setLink
  rw [hup]; rfl

theorem setLink_out_srv (st : Nat) (h : s.link p ≠ 3) : (setLink p st s).srv = s.srv := by rw [setLink_out st h]; rfl

theorem frame_setLink_out {st : Nat} (hl : s.link p ≠ 3) (hf : ∀ f ∈ linkFields p, f ∈ fs) (h : Frame fs ps s₀ s) :
    Frame fs ps s₀ (setLink p st s) := by
  rw [setLink_out st hl]
  exact frame_wr (hf _ (by simp)) (frame_lo (hf _ (by simp)) (frame_lo (hf _ (by simp)) (frame_lo (hf _ (by simp)) h)))

/-- A register of the port that does not show its link. -/
theorem rd_setLink_out (st : Nat) (hl : s.link p ≠ 3) {g : Field} (hg : ∀ f ∈ linkFields p, g.key ≠ f.key) :
    (setLink p st s).rd g = s.rd g := by
  rw [setLink_out st hl, rd_wr_ne _ _ (hg _ (by simp)), rd_lo_ne _ (hg _ (by simp)), rd_lo_ne _ (hg _ (by simp)), rd_lo_ne _ (hg _ (by simp))]

/-- A register of the port that no link going down moves. -/
theorem rd_setLink (st : Nat) (s : State) {g : Field} {n : Nat} (hk : g.key = portBase p + n)
    (hn : n = 128 + 5 ∨ n = 128 + 11 ∨ n < 128 ∨ (512 ≤ n ∧ n < 0x8000)) : (setLink p st s).rd g = s.rd g := by
  have hframe : Frame (downFields p ++ endedFields) [.srv, .rings] s (setLink p st s) :=
    frame_setLink (fun f hf => List.mem_append_left _ hf) (fun r f hf => List.mem_append_right _ (drainFields_ended r f hf)) (by simp)
      (by simp) (Frame.refl _ _ s)
  refine hframe.rd (fun f hf => ?_) (side_of_portBase hk (by omega))
  rw [hk]
  rcases List.mem_append.1 hf with hf | hf
  · simp only [downFields, leaveFields, List.cons_append, List.nil_append, List.mem_cons, List.not_mem_nil, or_false] at hf
    rcases hf with rfl | rfl | rfl | rfl | rfl | rfl | rfl | rfl
    case inr.inr.inr.inl => simp only [Evt.nts, R.NTS_EVT_BITS, Field.mk', portBase]; omega
    all_goals simp; omega
  · obtain ⟨r, -, hr⟩ := List.mem_flatMap.1 hf
    have := portBase_ge p
    have := portBase_lt p
    simp only [drainFields, List.mem_cons, List.not_mem_nil, or_false] at hr
    rcases hr with rfl | rfl <;> simp only [R.HRG_RING_HEAD_HEAD, R.HRG_RING_CFG_QUIESCED, Field.mk'] <;> omega

/-! ### A verdict on the configuration (R220, R256) -/

theorem link_of_rd {u : State} (h : u.rd (R.MAC_STAT_STATE p) = s.rd (R.MAC_STAT_STATE p)) : u.link p = s.link p := h

/-- The fields a verdict moves. -/
abbrev verdictFields (p : Nat) : List Field := R.MAC_EVT_BITS p :: R.MAC_STAT_CFG_ERR p :: linkFields p

theorem side_MAC_STAT_STATE : (R.MAC_STAT_STATE p).side = false := side_of_portBase (key_MAC_STAT_STATE p) (by decide)
theorem side_MAC_STAT_CFG_ERR : (R.MAC_STAT_CFG_ERR p).side = false := side_of_portBase (key_MAC_STAT_CFG_ERR p) (by decide)
theorem side_MAC_EVT_BITS : (R.MAC_EVT_BITS p).side = false := side_of_portBase (key_MAC_EVT_BITS p) (by decide)

theorem cfgTold_link (s : State) : ((s.hi (R.MAC_STAT_CFG_ERR p)).raise (Evt.mac p) 1024).link p = s.link p :=
  (rd_raise_ne _ _ _ (by simp) side_MAC_STAT_STATE).trans (rd_hi_ne _ (by simp))

theorem judgeCfg_bad (s : State) : judgeCfg p true s = setLink p 0 ((s.hi (R.MAC_STAT_CFG_ERR p)).raise (Evt.mac p) 1024) := rfl
theorem judgeCfg_good (s : State) : judgeCfg p false s = s.lo (R.MAC_STAT_CFG_ERR p) := rfl

theorem judgeCfg_srv (bad : Bool) (h : s.link p ≠ 3) : (judgeCfg p bad s).srv = s.srv := by
  cases bad
  · rfl
  · rw [judgeCfg_bad, setLink_out_srv _ (by rwa [cfgTold_link]), raise_srv]; rfl

theorem frame_judgeCfg {bad : Bool} (hl : s.link p ≠ 3) (hf : ∀ f ∈ verdictFields p, f ∈ fs) (h : Frame fs ps s₀ s) :
    Frame fs ps s₀ (judgeCfg p bad s) := by
  cases bad
  · exact frame_lo (hf _ (by simp)) h
  · exact frame_setLink_out (by rwa [cfgTold_link]) (fun f hm => hf f (List.mem_cons_of_mem _ (List.mem_cons_of_mem _ hm)))
      (frame_raise (hf _ List.mem_cons_self) (frame_hi (hf _ (by simp)) h))

/-- CFG_ERR shows the verdict. -/
theorem rd_judgeCfg_err (bad : Bool) (hl : s.link p ≠ 3) : (judgeCfg p bad s).rd (R.MAC_STAT_CFG_ERR p) = b01 bad := by
  cases bad
  · exact rd_lo_same _ _
  · rw [judgeCfg_bad, rd_setLink_out _ (by rwa [cfgTold_link]) (by simp), rd_raise_ne _ _ _ (by simp) side_MAC_STAT_CFG_ERR, rd_hi_same]; rfl

theorem judgeCfg_link_bad (s : State) : (judgeCfg p true s).link p = 0 := link_setLink_same p 0 _ (by decide)

theorem bit_judgeCfg_bad (hl : s.link p ≠ 3) : bit ((judgeCfg p true s).rd (R.MAC_EVT_BITS p)) 10 = true := by
  rw [judgeCfg_bad, rd_setLink_out _ (by rwa [cfgTold_link]) (by simp)]
  exact bit_raise (e := Evt.mac p) side_MAC_EVT_BITS (show 10 < 11 by decide) rfl

/-- A register no verdict moves. -/
theorem rd_judgeCfg (bad : Bool) (hl : s.link p ≠ 3) {g : Field} (hs : g.side = false) (hg : ∀ f ∈ verdictFields p, g.key ≠ f.key) :
    (judgeCfg p bad s).rd g = s.rd g :=
  (frame_judgeCfg (fs := verdictFields p) (ps := []) hl (fun _ h => h) (Frame.refl _ _ s)).rd hg hs

end

end Sys2Proof.Machine
end

section
/-! PROOFS. Writes of a port's configuration and address (R43, R219-R222, R256). -/

namespace Sys2Proof.Machine

/-- A write to the window of a die whose lane is OFF is discarded and logged through AER (R43). -/
theorem window_refused {d : Nat} {r : Register} (f : State → State) {s : State} (h : s.dieAnswers d = false) :
    ∃ t, go (windowWrite d r f) s = .next t ∧ t.out.head? = some (.aer 1 r.addr true) ∧ Frame [] [] s t := by
  have hu : windowWrite d r f s.begin = s.begin.emit (.aer 1 r.addr true) := if_neg (by rw [show s.begin.dieAnswers d = false from h]; decide)
  obtain ⟨t, e, hout, k⟩ := go_exact_of (f := windowWrite d r f) (ps := []) hu (touches_State_emit (touches_begin [] s)) (by simp)
  exact ⟨t, e, by rw [hout]; rfl, k.frame (frame_emit (frame_begin s))⟩

theorem window_taken {d : Nat} {r : Register} (f : State → State) {s : State} (h : s.dieAnswers d = true) :
    windowWrite d r f s.begin = f s.begin := if_pos h

section
variable (p w : Nat) (s : State)

/-! ### The configuration as written -/

/-- MAC_CFG as a write leaves it. -/
def cfgWritten : State := s.storeReg false (Reg.MAC_CFG p) w

/-- The write repeats what stands. -/
abbrev SameCfg : Prop :=
  s.rd (R.MAC_CFG_EN p) = (R.MAC_CFG_EN p).of w ∧ s.rd (R.MAC_CFG_MODE p) = (R.MAC_CFG_MODE p).of w ∧
    s.rd (R.MAC_CFG_FEC p) = (R.MAC_CFG_FEC p).of w ∧ s.rd (R.MAC_CFG_AN_EN p) = (R.MAC_CFG_AN_EN p).of w

theorem rd_cfgWritten {f : Field} (hf : f ∈ (Reg.MAC_CFG p).fields) : (cfgWritten p w s).rd f = f.of w := by
  refine rd_storeReg_rw _ _ _ _ hf ?_ (by simp [Reg.MAC_CFG])
  simp only [Reg.MAC_CFG, List.mem_cons, List.not_mem_nil, or_false] at hf
  rcases hf with rfl | rfl | rfl | rfl <;> rfl

theorem rd_cfgWritten_ne {g : Field} (h : ∀ f ∈ (Reg.MAC_CFG p).fields, g.key ≠ f.key) : (cfgWritten p w s).rd g = s.rd g :=
  rd_storeReg_ne _ _ _ _ h

theorem cfgWritten_link : (cfgWritten p w s).link p = s.link p := rd_cfgWritten_ne p w s (by simp [Reg.MAC_CFG])

theorem cfgWritten_srv : (cfgWritten p w s).srv = s.srv := storeReg_srv _ _ _ _

theorem showReg_MAC_CFG : s.showReg (Reg.MAC_CFG p) =
    s.rd (R.MAC_CFG_EN p) + s.rd (R.MAC_CFG_MODE p) * 2 + s.rd (R.MAC_CFG_FEC p) * 32 + s.rd (R.MAC_CFG_AN_EN p) * 128 := by
  simp [State.showReg, Reg.MAC_CFG, R.MAC_CFG_EN, R.MAC_CFG_MODE, R.MAC_CFG_FEC, R.MAC_CFG_AN_EN, Field.mk']

/-- The word shown tells the four fields apart. -/
theorem cfgWritten_same_iff : (cfgWritten p w s).showReg (Reg.MAC_CFG p) = s.showReg (Reg.MAC_CFG p) ↔ SameCfg p w s := by
  have of_lt : ∀ f : Field, f.of w < 2 ^ f.width := fun f => Nat.mod_lt _ (Nat.two_pow_pos _)
  have h1 : s.rd (R.MAC_CFG_EN p) < 2 := rd_lt s _
  have h2 : s.rd (R.MAC_CFG_MODE p) < 16 := rd_lt s _
  have h3 : s.rd (R.MAC_CFG_FEC p) < 4 := rd_lt s _
  have k1 : (R.MAC_CFG_EN p).of w < 2 := of_lt _
  have k2 : (R.MAC_CFG_MODE p).of w < 16 := of_lt _
  have k3 : (R.MAC_CFG_FEC p).of w < 4 := of_lt _
  rw [showReg_MAC_CFG, showReg_MAC_CFG, rd_cfgWritten p w s (by simp [Reg.MAC_CFG]), rd_cfgWritten p w s (by simp [Reg.MAC_CFG]),
    rd_cfgWritten p w s (by simp [Reg.MAC_CFG]), rd_cfgWritten p w s (by simp [Reg.MAC_CFG])]
  constructor
  · intro h; refine ⟨?_, ?_, ?_, ?_⟩ <;> omega
  · rintro ⟨a, b, c, d⟩; rw [a, b, c, d]

/-- A change takes the port to DOWN. -/
def relinked : State := if SameCfg p w s then cfgWritten p w s else setLink p 0 (cfgWritten p w s)

theorem relinked_link : (relinked p w s).link p = if SameCfg p w s then s.link p else 0 := by
  unfold relinked
  split
  · exact cfgWritten_link p w s
  · exact link_setLink_same p 0 _ (by decide)

/-- No other register of the port than those that show its link. -/
theorem rd_relinked {g : Field} {n : Nat} (hk : g.key = portBase p + n) (hn : n = 128 + 5 ∨ n = 128 + 11 ∨ n < 128 ∨ (512 ≤ n ∧ n < 0x8000)) :
    (relinked p w s).rd g = (cfgWritten p w s).rd g := by
  unfold relinked
  split
  · rfl
  · exact rd_setLink 0 _ hk hn

theorem rd_relinked_en : (relinked p w s).rd (R.MAC_CFG_EN p) = (R.MAC_CFG_EN p).of w :=
  (rd_relinked p w s (key_MAC_CFG_EN p) (by omega)).trans (rd_cfgWritten p w s (by simp [Reg.MAC_CFG]))
theorem rd_relinked_mode : (relinked p w s).rd (R.MAC_CFG_MODE p) = (R.MAC_CFG_MODE p).of w :=
  (rd_relinked p w s (key_MAC_CFG_MODE p) (by omega)).trans (rd_cfgWritten p w s (by simp [Reg.MAC_CFG]))
theorem rd_relinked_fec : (relinked p w s).rd (R.MAC_CFG_FEC p) = (R.MAC_CFG_FEC p).of w :=
  (rd_relinked p w s (key_MAC_CFG_FEC p) (by omega)).trans (rd_cfgWritten p w s (by simp [Reg.MAC_CFG]))
theorem rd_relinked_an : (relinked p w s).rd (R.MAC_CFG_AN_EN p) = (R.MAC_CFG_AN_EN p).of w :=
  (rd_relinked p w s (key_MAC_CFG_AN_EN p) (by omega)).trans (rd_cfgWritten p w s (by simp [Reg.MAC_CFG]))

/-- A register of the port that neither the write nor its link moves. -/
theorem rd_relinked_ne {g : Field} {n : Nat} (hk : g.key = portBase p + n) (hn : n = 128 + 5 ∨ n = 128 + 11 ∨ (512 ≤ n ∧ n < 0x8000)) :
    (relinked p w s).rd g = s.rd g := by
  refine (rd_relinked p w s hk (by omega)).trans (rd_cfgWritten_ne p w s fun f hf => ?_)
  simp only [Reg.MAC_CFG, List.mem_cons, List.not_mem_nil, or_false] at hf
  rcases hf with rfl | rfl | rfl | rfl <;> rw [hk] <;> simp <;> omega

theorem relinked_badAddr : (relinked p w s).badAddr p = s.badAddr p := by
  have h1 := rd_relinked_ne p w s (key_MAC_ADDR_LO_A p) (by omega)
  have h2 := rd_relinked_ne p w s (key_MAC_ADDR_HI_A p) (by omega)
  unfold State.badAddr State.macAddr
  rw [h1, h2]

theorem relinked_badMode : (relinked p w s).badMode p =
    (decide (9 ≤ (R.MAC_CFG_MODE p).of w) || !fecAllowed ((R.MAC_CFG_MODE p).of w) ((R.MAC_CFG_FEC p).of w)) := by
  unfold State.badMode
  rw [rd_relinked_mode, rd_relinked_fec]

/-! ### The write -/

/-- The latencies of a setting that is allowed. -/
def latencySet : State := if (relinked p w s).badMode p then relinked p w s
  else setLatency p ((R.MAC_CFG_MODE p).of w) ((R.MAC_CFG_FEC p).of w) (relinked p w s)

/-- Whether the setting is a bad one. -/
def cfgBad : Bool := (relinked p w s).badMode p || ((relinked p w s).on (R.MAC_CFG_EN p) && (relinked p w s).badAddr p)

theorem writeMacCfg_eq : writeMacCfg p w s =
    if cfgBad p w s = false ∧ (latencySet p w s).badAddr p = true then latencySet p w s else judgeCfg p (cfgBad p w s) (latencySet p w s) := by
  have hlink : (if (cfgWritten p w s).showReg (Reg.MAC_CFG p) = s.showReg (Reg.MAC_CFG p) then cfgWritten p w s
      else setLink p 0 (cfgWritten p w s)) = relinked p w s := if_congr (cfgWritten_same_iff p w s) rfl rfl
  unfold writeMacCfg latencySet cfgBad
  rw [← rd_relinked_mode p w s, ← rd_relinked_fec p w s, ← hlink]
  rfl

end

end Sys2Proof.Machine
end

section
/-! PROOFS. What a write of a port's configuration or address leaves, case by case (R219-R222, R256). -/

namespace Sys2Proof.Machine

section
variable {fs : List Field} {ps : List Part} {s₀ s : State} {p w : Nat}

/-- The fields a good setting moves. -/
abbrev cfgFields (p : Nat) : List Field :=
  (R.MAC_STAT_CFG_ERR p :: linkFields p ++ [R.MAC_TS_LAT_L_RX p, R.MAC_TS_LAT_L_TX p]) ++ (Reg.MAC_CFG p).fields

/-! ### The latencies (R229) -/

theorem latRx_lt (mode fec : Nat) : latRx mode fec < 2 ^ 16 := by
  unfold latRx
  split_ifs <;> decide

theorem latTx_lt (mode fec : Nat) : latTx mode fec < 2 ^ 16 := by
  unfold latTx
  split_ifs <;> decide

theorem rd_setLatency_rx (mode fec : Nat) (s : State) : (setLatency p mode fec s).rd (R.MAC_TS_LAT_L_RX p) = latRx mode fec :=
  (rd_wr_ne _ _ (by simp)).trans ((rd_wr_same _ _ _).trans (Nat.mod_eq_of_lt (latRx_lt _ _)))

theorem rd_setLatency_tx (mode fec : Nat) (s : State) : (setLatency p mode fec s).rd (R.MAC_TS_LAT_L_TX p) = latTx mode fec :=
  (rd_wr_same _ _ _).trans (Nat.mod_eq_of_lt (latTx_lt _ _))

theorem rd_setLatency_ne (mode fec : Nat) (s : State) {g : Field} (h1 : g.key ≠ (R.MAC_TS_LAT_L_RX p).key)
    (h2 : g.key ≠ (R.MAC_TS_LAT_L_TX p).key) : (setLatency p mode fec s).rd g = s.rd g := (rd_wr_ne _ _ h2).trans (rd_wr_ne _ _ h1)

theorem frame_setLatency {mode fec : Nat} (h1 : R.MAC_TS_LAT_L_RX p ∈ fs) (h2 : R.MAC_TS_LAT_L_TX p ∈ fs) (h : Frame fs ps s₀ s) :
    Frame fs ps s₀ (setLatency p mode fec s) := frame_wr h2 (frame_wr h1 h)

theorem setLatency_badAddr (mode fec : Nat) (s : State) : (setLatency p mode fec s).badAddr p = s.badAddr p := by
  have h1 := rd_setLatency_ne (p := p) mode fec s (g := R.MAC_ADDR_LO_A p) (by simp) (by simp)
  have h2 := rd_setLatency_ne (p := p) mode fec s (g := R.MAC_ADDR_HI_A p) (by simp) (by simp)
  unfold State.badAddr State.macAddr
  rw [h1, h2]

/-! ### Where the port is not UP -/

theorem frame_relinked (hl : s.link p ≠ 3) (hf : ∀ f ∈ cfgFields p, f ∈ fs) (h : Frame fs ps s₀ s) : Frame fs ps s₀ (relinked p w s) := by
  have hw : Frame fs ps s₀ (cfgWritten p w s) := frame_storeReg (fun f hm => .inr (.inr (.inr (.inr (hf f (List.mem_append_right _ hm)))))) h
  unfold relinked
  split
  · exact hw
  · refine frame_setLink_out (by rwa [cfgWritten_link]) (fun f hm => hf f (List.mem_append_left _ ?_)) hw
    exact List.mem_append_left _ (List.mem_cons_of_mem _ hm)

theorem frame_latencySet (hl : s.link p ≠ 3) (hf : ∀ f ∈ cfgFields p, f ∈ fs) (h : Frame fs ps s₀ s) : Frame fs ps s₀ (latencySet p w s) :=
  have hr := frame_relinked (w := w) hl hf h
  frame_ite hr (frame_setLatency (hf _ (by simp [cfgFields])) (hf _ (by simp [cfgFields])) hr)

/-- A register that the latencies are not. -/
theorem rd_latencySet {g : Field} (h1 : g.key ≠ (R.MAC_TS_LAT_L_RX p).key) (h2 : g.key ≠ (R.MAC_TS_LAT_L_TX p).key) :
    (latencySet p w s).rd g = (relinked p w s).rd g := by
  unfold latencySet
  split
  · rfl
  · exact rd_setLatency_ne _ _ _ h1 h2

theorem latencySet_link : (latencySet p w s).link p = if SameCfg p w s then s.link p else 0 :=
  (rd_latencySet (g := R.MAC_STAT_STATE p) (by simp) (by simp)).trans (relinked_link p w s)

theorem latencySet_badAddr : (latencySet p w s).badAddr p = s.badAddr p := by
  rw [← relinked_badAddr p w s, latencySet]
  split
  · rfl
  · exact setLatency_badAddr _ _ _

theorem latencySet_out (h : s.link p ≠ 3 ∨ ¬SameCfg p w s) : (latencySet p w s).link p ≠ 3 := by
  rw [latencySet_link]
  split
  · next hsame => exact h.resolve_right (not_not.2 hsame)
  · decide

/-! ### A good setting -/

/-- The setting is one the port may have. -/
def GoodMode (p w : Nat) : Prop := fecAllowed ((R.MAC_CFG_MODE p).of w) ((R.MAC_CFG_FEC p).of w) = true ∧ (R.MAC_CFG_MODE p).of w < 9

theorem relinked_goodMode (h : GoodMode p w) : (relinked p w s).badMode p = false := by
  rw [relinked_badMode, h.1, decide_eq_false (not_le.2 h.2)]; rfl

theorem cfgBad_good (h : GoodMode p w) (ha : (R.MAC_CFG_EN p).of w = 0 ∨ s.badAddr p = false) : cfgBad p w s = false := by
  unfold cfgBad
  rw [relinked_goodMode h, Bool.false_or, relinked_badAddr]
  rcases ha with h0 | h0
  · have hon : (relinked p w s).on (R.MAC_CFG_EN p) = false := by
      refine decide_eq_false ?_
      rw [rd_relinked_en, h0]; decide
    rw [hon]; rfl
  · rw [h0, Bool.and_false]

theorem latencySet_good (h : GoodMode p w) :
    latencySet p w s = setLatency p ((R.MAC_CFG_MODE p).of w) ((R.MAC_CFG_FEC p).of w) (relinked p w s) :=
  if_neg (by rw [relinked_goodMode h]; decide)

theorem writeMacCfg_good (h : GoodMode p w) (ha : (R.MAC_CFG_EN p).of w = 0 ∨ s.badAddr p = false) :
    writeMacCfg p w s = if s.badAddr p = true then latencySet p w s else (latencySet p w s).lo (R.MAC_STAT_CFG_ERR p) := by
  rw [writeMacCfg_eq, cfgBad_good h ha, latencySet_badAddr, judgeCfg_good]
  simp only [true_and]

/-- What a register other than CFG_ERR and the latencies reads once a good setting is written. -/
theorem rd_writeMacCfg_good (h : GoodMode p w) (ha : (R.MAC_CFG_EN p).of w = 0 ∨ s.badAddr p = false) {g : Field}
    (h0 : g.key ≠ (R.MAC_STAT_CFG_ERR p).key) : (writeMacCfg p w s).rd g = (latencySet p w s).rd g := by
  rw [writeMacCfg_good h ha]
  split
  · rfl
  · exact rd_lo_ne _ h0

theorem rd_writeMacCfg_err (h : GoodMode p w) (ha : (R.MAC_CFG_EN p).of w = 0 ∨ s.badAddr p = false) :
    (writeMacCfg p w s).rd (R.MAC_STAT_CFG_ERR p) = if s.badAddr p then s.rd (R.MAC_STAT_CFG_ERR p) else 0 := by
  rw [writeMacCfg_good h ha]
  split
  · rw [rd_latencySet (by simp) (by simp), rd_relinked_ne p w s (key_MAC_STAT_CFG_ERR p) (by omega)]
  · exact rd_lo_same _ _

theorem frame_writeMacCfg_good (h : GoodMode p w) (ha : (R.MAC_CFG_EN p).of w = 0 ∨ s.badAddr p = false) (hl : s.link p ≠ 3) :
    Frame (cfgFields p) ps s (writeMacCfg p w s) := by
  have hlat : Frame (cfgFields p) ps s (latencySet p w s) := frame_latencySet hl (fun _ h => h) (Frame.refl _ _ s)
  rw [writeMacCfg_good h ha]
  exact frame_ite hlat (frame_lo (by simp [cfgFields]) hlat)

/-! ### A bad setting -/

/-- The setting is not one the port may have. -/
def BadMode (p w : Nat) : Prop := 9 ≤ (R.MAC_CFG_MODE p).of w ∨ fecAllowed ((R.MAC_CFG_MODE p).of w) ((R.MAC_CFG_FEC p).of w) = false

theorem writeMacCfg_bad (h : BadMode p w) : writeMacCfg p w s = judgeCfg p true (relinked p w s) := by
  have hbad : (relinked p w s).badMode p = true := by
    rw [relinked_badMode]
    rcases h with h | h <;> simp [h]
  have hcfg : cfgBad p w s = true := by rw [cfgBad, hbad, Bool.true_or]
  rw [writeMacCfg_eq, hcfg, if_neg (by simp), latencySet, if_pos hbad]

theorem relinked_out (hl : s.link p ≠ 3) : (relinked p w s).link p ≠ 3 := by
  rw [relinked_link]
  split
  · exact hl
  · decide

/-- A bad setting. -/
theorem badRow (h : BadMode p w) (hl : s.link p ≠ 3) :
    (writeMacCfg p w s).rd (R.MAC_STAT_CFG_ERR p) = 1 ∧ (writeMacCfg p w s).rd (R.MAC_STAT_STATE p) = 0 ∧
      bit ((writeMacCfg p w s).rd (R.MAC_EVT_BITS p)) 10 = true ∧
      (writeMacCfg p w s).rd (R.MAC_TS_LAT_L_RX p) = s.rd (R.MAC_TS_LAT_L_RX p) ∧
      Frame (R.MAC_EVT_BITS p :: cfgFields p) ps s (writeMacCfg p w s) := by
  have hout := relinked_out (w := w) hl
  rw [writeMacCfg_bad h]
  refine ⟨rd_judgeCfg_err true hout, judgeCfg_link_bad _, bit_judgeCfg_bad hout, ?_, ?_⟩
  · rw [rd_judgeCfg true hout (side_of_portBase (key_MAC_TS_LAT_L_RX p) (by decide)) (by simp)]
    exact rd_relinked_ne p w s (key_MAC_TS_LAT_L_RX p) (by omega)
  · refine frame_judgeCfg hout (fun f hm => ?_) (frame_relinked hl (fun f hm => List.mem_cons_of_mem _ hm) (Frame.refl _ _ s))
    simp only [verdictFields, linkFields, cfgFields, List.mem_cons, List.not_mem_nil, or_false, List.mem_append] at hm ⊢
    tauto

/-! ### A change while UP -/

theorem latencySet_srv : (latencySet p w s).srv = (relinked p w s).srv := by
  unfold latencySet
  split <;> rfl

theorem writeMacCfg_srv (hl : ¬SameCfg p w s) : (writeMacCfg p w s).srv = (relinked p w s).srv := by
  rw [writeMacCfg_eq]
  split
  · exact latencySet_srv
  · exact (judgeCfg_srv _ (latencySet_out (.inr hl))).trans latencySet_srv

theorem setLink_up_srv (st : Nat) (h : s.link p = 3) : (setLink p st s).srv = (leaveUp p s).srv := by
  have hup : s.isUp p = true := decide_eq_true h
  unfold setLink
  rw [hup]; rfl

theorem leftUp_setLink (st : Nat) (hp : p < 32) (h : s.link p = 3) : LeftUp p s (setLink p st s) :=
  (leftUp_leaveUp p s hp).of_srv (setLink_up_srv st h)

/-- The event of a port that leaves UP. -/
theorem bit_leaveUp : bit ((leaveUp p s).rd (R.MAC_EVT_BITS p)) 1 = true := by
  rw [leaveUp_eq]
  exact bit_raise (e := Evt.mac p) side_MAC_EVT_BITS (show 1 < 11 by decide) rfl

theorem bit_setLink_up (st : Nat) (h : s.link p = 3) : bit ((setLink p st s).rd (R.MAC_EVT_BITS p)) 1 = true := by
  have hup : s.isUp p = true := decide_eq_true h
  unfold setLink
  rw [hup, rd_wr_ne _ _ (by simp), rd_lo_ne _ (by simp), rd_lo_ne _ (by simp), rd_lo_ne _ (by simp)]
  exact bit_leaveUp

theorem bit_judgeCfg {bad : Bool} {i : Nat} (hl : s.link p ≠ 3) (hi : i < 11) (h : bit (s.rd (R.MAC_EVT_BITS p)) i = true) :
    bit ((judgeCfg p bad s).rd (R.MAC_EVT_BITS p)) i = true := by
  cases bad
  · rw [judgeCfg_good, rd_lo_ne _ (by simp)]; exact h
  · rw [judgeCfg_bad, rd_setLink_out _ (by rwa [cfgTold_link]) (by simp)]
    refine bit_raise_kept (e := Evt.mac p) side_MAC_EVT_BITS hi ?_
    rw [show (Evt.mac p).ev = R.MAC_EVT_BITS p from rfl, rd_hi_ne _ (by simp)]; exact h

theorem judgeCfg_link_zero (bad : Bool) (h : s.link p = 0) : (judgeCfg p bad s).link p = 0 := by
  cases bad
  · exact (rd_lo_ne _ (by simp)).trans h
  · exact judgeCfg_link_bad s

/-- A changed configuration takes a port that is UP out of it. -/
theorem changedRow (hp : p < 32) (hl : s.link p = 3) (hc : ¬SameCfg p w s) :
    (writeMacCfg p w s).rd (R.MAC_STAT_STATE p) = 0 ∧ bit ((writeMacCfg p w s).rd (R.MAC_EVT_BITS p)) 1 = true ∧
      (writeMacCfg p w s).rd (R.MAC_CFG_EN p) = (R.MAC_CFG_EN p).of w ∧ LeftUp p (cfgWritten p w s) (writeMacCfg p w s) := by
  have hup : (cfgWritten p w s).link p = 3 := (cfgWritten_link p w s).trans hl
  have hre : relinked p w s = setLink p 0 (cfgWritten p w s) := if_neg hc
  have h0 : (latencySet p w s).link p = 0 := latencySet_link.trans (if_neg hc)
  have hbit : bit ((latencySet p w s).rd (R.MAC_EVT_BITS p)) 1 = true := by
    rw [rd_latencySet (by simp) (by simp), hre]
    exact bit_setLink_up 0 hup
  have hen : (latencySet p w s).rd (R.MAC_CFG_EN p) = (R.MAC_CFG_EN p).of w :=
    (rd_latencySet (by simp) (by simp)).trans (rd_relinked_en p w s)
  have hout : (latencySet p w s).link p ≠ 3 := latencySet_out (.inr hc)
  refine ⟨?_, ?_, ?_, (leftUp_setLink 0 hp hup).of_srv ((writeMacCfg_srv hc).trans (by rw [hre]))⟩ <;> rw [writeMacCfg_eq] <;> split
  · exact h0
  · exact judgeCfg_link_zero _ h0
  · exact hbit
  · exact bit_judgeCfg hout (by decide) hbit
  · exact hen
  · exact (rd_judgeCfg _ hout (side_of_portBase (key_MAC_CFG_EN p) (by decide)) (by simp)).trans hen

end

/-! ### The address (R220) -/

section
variable {s : State} {p w : Nat}

/-- The address registers and the verdict's. -/
abbrev addrVerdict (p : Nat) : List Field := R.MAC_STAT_CFG_ERR p :: R.MAC_EVT_BITS p :: linkFields p

/-- The high half in force. -/
def hiWritten (p w : Nat) (s : State) : State := s.wr (R.MAC_ADDR_HI_A p) w

/-- Both halves in force. -/
def addrWritten (p w lo : Nat) (s : State) : State :=
  ((hiWritten p w s).wr (R.MAC_ADDR_LO_A p) lo).modPort p (fun k => { k with stagedLo := none })

theorem writeMacAddrHi_none (h : (s.port p).stagedLo = none) :
    writeMacAddrHi p w s = judgeCfg p ((hiWritten p w s).badAddr p || (hiWritten p w s).badMode p) (hiWritten p w s) := by
  have h' : ((s.wr (R.MAC_ADDR_HI_A p) w).port p).stagedLo = none := h
  unfold writeMacAddrHi
  dsimp only
  rw [h']; rfl

theorem writeMacAddrHi_some {lo : Nat} (h : (s.port p).stagedLo = some lo) :
    writeMacAddrHi p w s = judgeCfg p ((addrWritten p w lo s).badAddr p || (addrWritten p w lo s).badMode p) (addrWritten p w lo s) := by
  have h' : ((s.wr (R.MAC_ADDR_HI_A p) w).port p).stagedLo = some lo := h
  unfold writeMacAddrHi
  dsimp only
  rw [h']; rfl

theorem badMode_of_rd {u : State} (h1 : u.rd (R.MAC_CFG_MODE p) = s.rd (R.MAC_CFG_MODE p)) (h2 : u.rd (R.MAC_CFG_FEC p) = s.rd (R.MAC_CFG_FEC p)) :
    u.badMode p = s.badMode p := by
  unfold State.badMode
  rw [h1, h2]

theorem badAddr_of_addr {u : State} (h : u.macAddr p = s.macAddr p) : u.badAddr p = s.badAddr p := by
  rw [State.badAddr, State.badAddr, h]

/-- What the verdict on an address shows. -/
theorem addrJudged {u : State} (hl : u.link p ≠ 3) (hm : u.badMode p = false) :
    let t := judgeCfg p (u.badAddr p || u.badMode p) u
    t.macAddr p = u.macAddr p ∧ t.badAddr p = u.badAddr p ∧ t.rd (R.MAC_STAT_CFG_ERR p) = b01 (u.badAddr p) ∧
      (u.badAddr p = true → bit (t.rd (R.MAC_EVT_BITS p)) 10 = true ∧ t.rd (R.MAC_STAT_STATE p) = 0) := by
  rw [hm, Bool.or_false]
  have hlo := rd_judgeCfg (u.badAddr p) hl (side_of_portBase (key_MAC_ADDR_LO_A p) (by decide)) (by simp)
  have hhi := rd_judgeCfg (u.badAddr p) hl (side_of_portBase (key_MAC_ADDR_HI_A p) (by decide)) (by simp)
  have haddr : (judgeCfg p (u.badAddr p) u).macAddr p = u.macAddr p := by rw [State.macAddr, State.macAddr, hlo, hhi]
  refine ⟨haddr, ?_, rd_judgeCfg_err _ hl, fun hb => ?_⟩
  · exact badAddr_of_addr haddr
  · rw [hb]
    exact ⟨bit_judgeCfg_bad hl, judgeCfg_link_bad u⟩

end

end Sys2Proof.Machine
end

section
/-! PROOFS. A port's link states and its verify procedure, step by step (R222-R226, R242). -/

namespace Sys2Proof.Machine

section
variable {fs : List Field} {ps : List Part} {s₀ s : State} {p : Nat}

/-! ### Signal and training -/

theorem portSignal_trains (h0 : s.rd (R.MAC_STAT_STATE p) = 0) (ht : s.inTest = false) (hen : s.on (R.MAC_CFG_EN p) = true)
    (herr : s.on (R.MAC_STAT_CFG_ERR p) = false) (hpark : (s.port p).parked = false) : portSignal p s = setLink p 1 s :=
  if_pos ⟨h0, ht, hen, herr, hpark⟩

theorem portSignal_idle (h : s.on (R.MAC_CFG_EN p) = false ∨ s.on (R.MAC_STAT_CFG_ERR p) = true ∨ s.rd (R.MAC_STAT_STATE p) ≠ 0) :
    portSignal p s = s := by
  refine if_neg fun ⟨h0, _, hen, herr, _⟩ => ?_
  rcases h with h | h | h
  · rw [h] at hen; cases hen
  · rw [h] at herr; cases herr
  · exact h h0

/-- The FEC code training ends with: what Clause 73 resolved, where it ran. -/
def trainedFec (p fec : Nat) (s : State) : Nat := if s.anRuns p then fec else s.rd (R.MAC_CFG_FEC p)

/-- The port's registers as training ends. -/
def trainedRegs (p fec : Nat) (an : Bool) (s : State) : State :=
  ((((((s.wr (R.MAC_STAT_STATE p) 2).lo (R.MAC_STAT_CAL_WEAK p)).lo (R.MAC_STAT_CAL_TRIES p)).wr (R.MAC_STAT_AN_DONE p) (b01 an)).wr
    (R.MAC_STAT_FEC_LOCK p) (b01 (decide (fec ≠ 0)))).wr (R.MAC_STAT_FEC_USED p) fec).lo (R.MAC_STAT_HI_BER p)

/-- The port with the instant its calibration began. -/
def calibratingSince (x : Nat) (k : Port) : Port := { k with calAt := x }

/-- A port that has trained. -/
def trained (p fec : Nat) (s : State) : State :=
  (setLatency p (s.rd (R.MAC_CFG_MODE p)) fec (trainedRegs p fec (s.anRuns p) s)).modPort p (calibratingSince s.clk)

theorem anRuns_of_rd {u : State} (h1 : u.rd (R.MAC_CFG_AN_EN p) = s.rd (R.MAC_CFG_AN_EN p)) (h2 : u.rd (R.MAC_CFG_MODE p) = s.rd (R.MAC_CFG_MODE p)) :
    u.anRuns p = s.anRuns p := by rw [State.anRuns, State.anRuns, State.on, State.on, h1, h2]

theorem portTrained_eq {fec : Nat} (h1 : s.rd (R.MAC_STAT_STATE p) = 1)
    (hf : fecAllowed (s.rd (R.MAC_CFG_MODE p)) (trainedFec p fec s) = true) : portTrained p fec s = trained p (trainedFec p fec s) s := by
  have han : (((s.wr (R.MAC_STAT_STATE p) 2).lo (R.MAC_STAT_CAL_WEAK p)).lo (R.MAC_STAT_CAL_TRIES p)).anRuns p = s.anRuns p :=
    anRuns_of_rd (by rw [rd_lo_ne _ (by simp), rd_lo_ne _ (by simp), rd_wr_ne _ _ (by simp)])
      (by rw [rd_lo_ne _ (by simp), rd_lo_ne _ (by simp), rd_wr_ne _ _ (by simp)])
  refine (if_pos ⟨h1, hf⟩).trans ?_
  refine Eq.trans (b := (setLatency p (s.rd (R.MAC_CFG_MODE p)) (trainedFec p fec s) (trainedRegs p (trainedFec p fec s)
    ((((s.wr (R.MAC_STAT_STATE p) 2).lo (R.MAC_STAT_CAL_WEAK p)).lo (R.MAC_STAT_CAL_TRIES p)).anRuns p) s)).modPort p (calibratingSince s.clk)) rfl ?_
  rw [han, trained]

theorem rd_trained {g : Field} (fec : Nat) (h1 : g.key ≠ (R.MAC_TS_LAT_L_RX p).key) (h2 : g.key ≠ (R.MAC_TS_LAT_L_TX p).key) :
    (trained p fec s).rd g = (trainedRegs p fec (s.anRuns p) s).rd g := (rd_modPort _ _ _ _).trans (rd_setLatency_ne _ _ _ h1 h2)

theorem trainedRow {fec : Nat} (hfec : fec < 4) :
    (trained p fec s).rd (R.MAC_STAT_STATE p) = 2 ∧ (trained p fec s).rd (R.MAC_STAT_FEC_USED p) = fec ∧
      (trained p fec s).rd (R.MAC_STAT_FEC_LOCK p) = b01 (decide (fec ≠ 0)) ∧ (trained p fec s).rd (R.MAC_STAT_AN_DONE p) = b01 (s.anRuns p) ∧
      (trained p fec s).rd (R.MAC_STAT_CAL_WEAK p) = 0 ∧
      (trained p fec s).rd (R.MAC_TS_LAT_L_RX p) = latRx (s.rd (R.MAC_CFG_MODE p)) fec ∧
      (trained p fec s).rd (R.MAC_TS_LAT_L_TX p) = latTx (s.rd (R.MAC_CFG_MODE p)) fec ∧ ((trained p fec s).port p).calAt = s.clk := by
  have hb : ∀ b : Bool, b01 b % 2 ^ 1 = b01 b := by decide
  refine ⟨?_, ?_, ?_, ?_, ?_, (rd_modPort _ _ _ _).trans (rd_setLatency_rx _ _ _),
    (rd_modPort _ _ _ _).trans (rd_setLatency_tx _ _ _), ?_⟩
  case refine_6 => rw [trained, port_modPort_same]; rfl
  all_goals rw [rd_trained fec (by simp) (by simp), trainedRegs]
  · rw [rd_lo_ne _ (by simp), rd_wr_ne _ _ (by simp), rd_wr_ne _ _ (by simp), rd_wr_ne _ _ (by simp), rd_lo_ne _ (by simp),
      rd_lo_ne _ (by simp), rd_wr_same]; rfl
  · rw [rd_lo_ne _ (by simp), rd_wr_same]; exact Nat.mod_eq_of_lt hfec
  · rw [rd_lo_ne _ (by simp), rd_wr_ne _ _ (by simp), rd_wr_same]; exact hb _
  · rw [rd_lo_ne _ (by simp), rd_wr_ne _ _ (by simp), rd_wr_ne _ _ (by simp), rd_wr_same]; exact hb _
  · rw [rd_lo_ne _ (by simp), rd_wr_ne _ _ (by simp), rd_wr_ne _ _ (by simp), rd_wr_ne _ _ (by simp), rd_lo_ne _ (by simp), rd_lo_same]

/-- The fields training writes. -/
abbrev trainFields (p : Nat) : List Field :=
  [R.MAC_STAT_CAL_WEAK p, R.MAC_STAT_CAL_TRIES p, R.MAC_STAT_HI_BER p] ++ linkFields p ++ [R.MAC_TS_LAT_L_RX p, R.MAC_TS_LAT_L_TX p]

theorem frame_trained (fec : Nat) (hs : Part.srv ∈ ps) : Frame (trainFields p) ps s (trained p fec s) :=
  frame_modPort hs (frame_setLatency (by simp) (by simp) (frame_lo (by simp) (frame_wr (by simp) (frame_wr (by simp) (frame_wr (by simp)
    (frame_lo (by simp) (frame_lo (by simp) (frame_wr (by simp) (Frame.refl _ _ s)))))))))

/-! ### The port enters UP (R242) -/

/-- MAC_PRE_CFG in force. -/
def upWith (cfg x : Nat) (k : Port) : Port := { k with preCfg := cfg, verifySent := 0, verifyAt := x, txCount := 0 }

/-- The link is UP and counted. -/
def upCounted (p : Nat) (s : State) : State := (mac p 52 1 (s.wr (R.MAC_STAT_STATE p) 3)).raise (Evt.mac p) 1

def isUpNow (p : Nat) (s : State) : State := (upCounted p s).modPort p (upWith (s.showReg (Reg.MAC_PRE_CFG p)) (upCounted p s).clk)

theorem showReg_MAC_PRE_CFG (p : Nat) (s : State) : ∃ k, s.showReg (Reg.MAC_PRE_CFG p) =
    s.rd (R.MAC_PRE_CFG_PRE_EN p) + s.rd (R.MAC_PRE_CFG_VERIFY_DIS p) * 2 + 4 * k := by
  refine ⟨s.rd (R.MAC_PRE_CFG_ADD_FRAG p) + s.rd (R.MAC_PRE_CFG_PMASK p) * 4 + s.rd (R.MAC_PRE_CFG_VERIFY_TIME p) * 16384, ?_⟩
  simp [State.showReg, Reg.MAC_PRE_CFG, R.MAC_PRE_CFG_PRE_EN, R.MAC_PRE_CFG_VERIFY_DIS, R.MAC_PRE_CFG_ADD_FRAG, R.MAC_PRE_CFG_PMASK,
    R.MAC_PRE_CFG_VERIFY_TIME, Field.mk']
  omega

theorem preCfg_bits (p : Nat) (s : State) : bit (s.showReg (Reg.MAC_PRE_CFG p)) 0 = decide (s.rd (R.MAC_PRE_CFG_PRE_EN p) = 1) ∧
    bit (s.showReg (Reg.MAC_PRE_CFG p)) 1 = decide (s.rd (R.MAC_PRE_CFG_VERIFY_DIS p) = 1) := by
  obtain ⟨k, hk⟩ := showReg_MAC_PRE_CFG p s
  have h1 : s.rd (R.MAC_PRE_CFG_PRE_EN p) < 2 := rd_lt s _
  have h2 : s.rd (R.MAC_PRE_CFG_VERIFY_DIS p) < 2 := rd_lt s _
  rw [hk]
  unfold bit
  constructor <;> refine decide_eq_decide.2 ?_ <;> omega

theorem enterUp_eq : enterUp p s = if s.rd (R.MAC_PRE_CFG_PRE_EN p) ≠ 1 then isUpNow p s
    else if s.rd (R.MAC_PRE_CFG_VERIFY_DIS p) = 1 then (isUpNow p s).hi (R.MAC_STAT_PRE_ACTIVE p)
    else (isUpNow p s).wr (R.MAC_STAT_VERIFY p) 1 := by
  have hgo : enterUp p s = if (!bit (s.showReg (Reg.MAC_PRE_CFG p)) 0) = true then isUpNow p s
      else if bit (s.showReg (Reg.MAC_PRE_CFG p)) 1 = true then (isUpNow p s).hi (R.MAC_STAT_PRE_ACTIVE p)
      else (isUpNow p s).wr (R.MAC_STAT_VERIFY p) 1 := rfl
  obtain ⟨h0, h1⟩ := preCfg_bits p s
  rw [hgo, h0, h1]
  simp only [Bool.not_eq_true', decide_eq_false_iff_not, decide_eq_true_eq, ne_eq]

/-- The fields that entering UP writes. -/
abbrev upFields (p : Nat) : List Field := [R.MAC_STAT_STATE p, R.MAC_EVT_BITS p, R.MAC_STAT_PRE_ACTIVE p, R.MAC_STAT_VERIFY p]

theorem frame_isUpNow (hf : ∀ f ∈ upFields p, f ∈ fs) (hs : Part.srv ∈ ps) (h : Frame fs ps s₀ s) : Frame fs ps s₀ (isUpNow p s) :=
  frame_modPort hs (frame_raise (hf _ (by simp [Evt.mac])) (frame_mac hs (frame_wr (hf _ (by simp)) h)))

theorem frame_enterUp (hf : ∀ f ∈ upFields p, f ∈ fs) (hs : Part.srv ∈ ps) (h : Frame fs ps s₀ s) : Frame fs ps s₀ (enterUp p s) := by
  have hup := frame_isUpNow hf hs h
  rw [enterUp_eq]
  exact frame_ite hup (frame_ite (frame_hi (hf _ (by simp)) hup) (frame_wr (hf _ (by simp)) hup))

/-- A register that neither preemption nor verify shows. -/
theorem rd_enterUp {g : Field} (h1 : g.key ≠ (R.MAC_STAT_PRE_ACTIVE p).key) (h2 : g.key ≠ (R.MAC_STAT_VERIFY p).key) :
    (enterUp p s).rd g = (isUpNow p s).rd g := by
  rw [enterUp_eq]
  split
  · rfl
  · split
    · exact rd_hi_ne _ h1
    · exact rd_wr_ne _ _ h2

theorem rd_isUpNow {g : Field} (hs : g.side = false) (h1 : g.key ≠ (R.MAC_STAT_STATE p).key) (h2 : g.key ≠ (R.MAC_EVT_BITS p).key) :
    (isUpNow p s).rd g = s.rd g :=
  (rd_modPort _ _ _ _).trans ((rd_raise_ne _ _ _ h2 hs).trans ((rd_mac _ _ _ _ hs).trans (rd_wr_ne _ _ h1)))

theorem enterUp_state : (enterUp p s).rd (R.MAC_STAT_STATE p) = 3 := by
  rw [rd_enterUp (by simp) (by simp), isUpNow, rd_modPort, upCounted, rd_raise_ne _ _ _ (by simp) side_MAC_STAT_STATE,
    rd_mac _ _ _ _ side_MAC_STAT_STATE, rd_wr_same]
  rfl

theorem bit_enterUp : bit ((enterUp p s).rd (R.MAC_EVT_BITS p)) 0 = true := by
  rw [rd_enterUp (by simp) (by simp), isUpNow, rd_modPort]
  exact bit_raise (e := Evt.mac p) side_MAC_EVT_BITS (show 0 < 11 by decide) rfl

theorem bit_enterUp_kept {i : Nat} (hi : i < 11) (h : bit (s.rd (R.MAC_EVT_BITS p)) i = true) :
    bit ((enterUp p s).rd (R.MAC_EVT_BITS p)) i = true := by
  rw [rd_enterUp (by simp) (by simp), isUpNow, rd_modPort]
  refine bit_raise_kept (e := Evt.mac p) side_MAC_EVT_BITS hi ?_
  rw [show (Evt.mac p).ev = R.MAC_EVT_BITS p from rfl, rd_mac _ _ _ _ side_MAC_EVT_BITS, rd_wr_ne _ _ (by simp)]
  exact h

theorem side_MAC_STAT_PRE_ACTIVE : (R.MAC_STAT_PRE_ACTIVE p).side = false := side_of_portBase (key_MAC_STAT_PRE_ACTIVE p) (by decide)
theorem side_MAC_STAT_VERIFY : (R.MAC_STAT_VERIFY p).side = false := side_of_portBase (key_MAC_STAT_VERIFY p) (by decide)

/-- Preemption is active at once where verify is disabled. -/
theorem enterUp_preActive : (enterUp p s).rd (R.MAC_STAT_PRE_ACTIVE p) =
    if s.rd (R.MAC_PRE_CFG_PRE_EN p) = 1 ∧ s.rd (R.MAC_PRE_CFG_VERIFY_DIS p) = 1 then 1 else s.rd (R.MAC_STAT_PRE_ACTIVE p) := by
  have hkeep := rd_isUpNow (s := s) (p := p) (g := R.MAC_STAT_PRE_ACTIVE p) side_MAC_STAT_PRE_ACTIVE (by simp) (by simp)
  rw [enterUp_eq]
  by_cases h0 : s.rd (R.MAC_PRE_CFG_PRE_EN p) = 1
  · rw [if_neg (not_not.2 h0)]
    by_cases h1 : s.rd (R.MAC_PRE_CFG_VERIFY_DIS p) = 1
    · rw [if_pos h1, if_pos ⟨h0, h1⟩, rd_hi_same]; rfl
    · rw [if_neg h1, if_neg fun h => h1 h.2, rd_wr_ne _ _ (by simp), hkeep]
  · rw [if_pos h0, if_neg fun h => h0 h.1, hkeep]

/-- Verify starts where it is not. -/
theorem enterUp_verify : (enterUp p s).rd (R.MAC_STAT_VERIFY p) =
    if s.rd (R.MAC_PRE_CFG_PRE_EN p) = 1 ∧ s.rd (R.MAC_PRE_CFG_VERIFY_DIS p) = 0 then 1 else s.rd (R.MAC_STAT_VERIFY p) := by
  have hkeep := rd_isUpNow (s := s) (p := p) (g := R.MAC_STAT_VERIFY p) side_MAC_STAT_VERIFY (by simp) (by simp)
  have hlt : s.rd (R.MAC_PRE_CFG_VERIFY_DIS p) < 2 := rd_lt s _
  rw [enterUp_eq]
  by_cases h0 : s.rd (R.MAC_PRE_CFG_PRE_EN p) = 1
  · rw [if_neg (not_not.2 h0)]
    by_cases h1 : s.rd (R.MAC_PRE_CFG_VERIFY_DIS p) = 1
    · rw [if_pos h1, if_neg fun h => by omega, rd_hi_ne _ (by simp), hkeep]
    · rw [if_neg h1, if_pos ⟨h0, by omega⟩, rd_wr_same]; rfl
  · rw [if_pos h0, if_neg fun h => h0 h.1, hkeep]

theorem enterUp_srv : (enterUp p s).srv = (isUpNow p s).srv := by
  rw [enterUp_eq]
  split
  · rfl
  · split <;> rfl

theorem enterUp_stats : (enterUp p s).srv.stats = IMap.upd 0 s.srv.stats (p * 64 + 52) (fun v => (v + 1) % 2 ^ 64) := by
  rw [enterUp_srv, isUpNow, modPort_stats, upCounted, raise_srv, mac_stats, wr_srv]

theorem mac_tick (p i n : Nat) (s : State) : (mac p i n s).tick = s.tick :=
  (frame_mac (fs := []) (ps := [.srv]) (by simp) (Frame.refl _ _ s)).2.1 .tick (by simp) rfl

theorem enterUp_tick : (enterUp p s).tick = s.tick :=
  (frame_enterUp (fs := upFields p) (ps := [.srv]) (fun _ h => h) (by simp) (Frame.refl _ _ s)).2.1 .tick (by simp) rfl

/-! ### A calibration pass (R224) -/

/-- The state at the end of the pass in progress. -/
def passEnd (p : Nat) (s : State) : State := s.waitClk ((s.port p).calAt + us16 256)

theorem rd_passEnd {g : Field} (hg : g.side = false) : (passEnd p s).rd g = s.rd g := rd_waitClk _ _ hg

theorem passEnd_srv : (passEnd p s).srv = s.srv :=
  (frame_waitClk (fs := []) (ps := [.tick, .lanes]) (by simp) (by simp) (Frame.refl _ _ s)).2.1 .srv (by simp) rfl

/-- The phases the pass found. -/
def phased (p phiRx phiTx : Nat) (s : State) : State := (s.wr (R.MAC_TS_PHASE_PHI_RX p) phiRx).wr (R.MAC_TS_PHASE_PHI_TX p) phiTx

theorem portCalibrated_good {rmsRx rmsTx phiRx phiTx : Nat} (h2 : s.rd (R.MAC_STAT_STATE p) = 2) (hr : rmsRx ≤ 4000) (ht : rmsTx ≤ 4000) :
    portCalibrated p rmsRx rmsTx phiRx phiTx s = enterUp p (phased p phiRx phiTx (passEnd p s)) := (if_pos h2).trans (if_pos ⟨hr, ht⟩)

/-- A pass that failed is counted. -/
def passFailed (p n : Nat) (s : State) : State := (mac p 53 1 s).wr (R.MAC_STAT_CAL_TRIES p) n

/-- The third in a row leaves the calibration weak. -/
def calWeak (p : Nat) (s : State) : State := (s.hi (R.MAC_STAT_CAL_WEAK p)).raise (Evt.mac p) 4

theorem portCalibrated_failed {rmsRx rmsTx phiRx phiTx : Nat} (h2 : s.rd (R.MAC_STAT_STATE p) = 2) (hbad : 4000 < rmsRx ∨ 4000 < rmsTx) :
    portCalibrated p rmsRx rmsTx phiRx phiTx s =
      let v := passFailed p ((passEnd p s).rd (R.MAC_STAT_CAL_TRIES p) + 1) (passEnd p s)
      if (passEnd p s).rd (R.MAC_STAT_CAL_TRIES p) + 1 = 3 then enterUp p (calWeak p v) else v.modPort p (calibratingSince v.clk) :=
  (if_pos h2).trans (if_neg (by omega))

theorem passFailed_stats (n : Nat) :
    (passFailed p n s).srv.stats = IMap.upd 0 s.srv.stats (p * 64 + 53) (fun v => (v + 1) % 2 ^ 64) := by
  rw [passFailed, wr_srv, mac_stats]

end

end Sys2Proof.Machine
end

section
/-! PROOFS. A link that is lost, a Mooring link that detects signal, and the verify procedure (R223, R226, R242, R374). -/

namespace Sys2Proof.Machine

section
variable {fs : List Field} {ps : List Part} {s₀ s : State} {p : Nat}

/-! ### A link is lost (R223, R226) -/

/-- What caused a loss is counted. -/
def causeNoted (p : Nat) (cause : LossCause) (s : State) : State :=
  match cause with
  | .pcsLock => mac p 29 1 s
  | .hiBer => (mac p 30 1 (s.hi (R.MAC_STAT_HI_BER p))).raise (Evt.mac p) 32
  | _ => s

/-- So is a frame being received of which no more comes. -/
def lossNoted (p : Nat) (cause : LossCause) (inFrame : Bool) (s : State) : State :=
  if (causeNoted p cause s).isUp p && inFrame then mac p 13 1 (causeNoted p cause s) else causeNoted p cause s

theorem portLost_eq {cause : LossCause} {inFrame : Bool} (h : 2 ≤ s.rd (R.MAC_STAT_STATE p)) :
    portLost p cause inFrame s = setLink p 1 (lossNoted p cause inFrame s) := if_pos h

theorem portLost_idle {cause : LossCause} {inFrame : Bool} (h : s.rd (R.MAC_STAT_STATE p) < 2) : portLost p cause inFrame s = s :=
  if_neg (not_le.2 h)

theorem side_MAC_STAT_HI_BER : (R.MAC_STAT_HI_BER p).side = false := side_of_portBase (key_MAC_STAT_HI_BER p) (by decide)

theorem causeNoted_link (cause : LossCause) : (causeNoted p cause s).link p = s.link p := by
  cases cause
  case pcsLock => exact rd_mac _ _ _ _ side_MAC_STAT_STATE
  case hiBer => exact (rd_raise_ne _ _ _ (by simp) side_MAC_STAT_STATE).trans ((rd_mac _ _ _ _ side_MAC_STAT_STATE).trans (rd_hi_ne _ (by simp)))
  all_goals rfl

theorem lossNoted_link (cause : LossCause) (inFrame : Bool) : (lossNoted p cause inFrame s).link p = s.link p := by
  unfold lossNoted
  split
  · exact (rd_mac _ _ _ _ side_MAC_STAT_STATE).trans (causeNoted_link cause)
  · exact causeNoted_link cause

theorem frame_causeNoted (cause : LossCause) (h1 : R.MAC_STAT_HI_BER p ∈ fs) (h2 : R.MAC_EVT_BITS p ∈ fs) (hs : Part.srv ∈ ps)
    (h : Frame fs ps s₀ s) : Frame fs ps s₀ (causeNoted p cause s) := by
  cases cause
  case pcsLock => exact frame_mac hs h
  case hiBer => exact frame_raise h2 (frame_mac hs (frame_hi h1 h))
  all_goals exact h

theorem frame_lossNoted (cause : LossCause) (inFrame : Bool) (h1 : R.MAC_STAT_HI_BER p ∈ fs) (h2 : R.MAC_EVT_BITS p ∈ fs) (hs : Part.srv ∈ ps)
    (h : Frame fs ps s₀ s) : Frame fs ps s₀ (lossNoted p cause inFrame s) :=
  have hc := frame_causeNoted cause h1 h2 hs h
  frame_ite (frame_mac hs hc) hc

theorem stat_mac_ne {i j : Nat} (n : Nat) (h : j ≠ i) : IMap.get 0 (mac p i n s).srv.stats (p * 64 + j) = IMap.get 0 s.srv.stats (p * 64 + j) :=
  ((PortKept.refl (φ := fun _ => ()) (ks := [j]) (p := p) s).mac n (by simpa using h.symm)).stats j (by simp)

theorem stat_mac_same (i : Nat) : IMap.get 0 (mac p i 1 s).srv.stats (p * 64 + i) = (IMap.get 0 s.srv.stats (p * 64 + i) + 1) % 2 ^ 64 := by
  rw [mac_stats, IMap.get_upd_same]

/-- The statistics of what caused the loss. -/
theorem causeNoted_stat (cause : LossCause) {i : Nat} (h : (cause = .pcsLock → i ≠ 29) ∧ (cause = .hiBer → i ≠ 30)) :
    IMap.get 0 (causeNoted p cause s).srv.stats (p * 64 + i) = IMap.get 0 s.srv.stats (p * 64 + i) := by
  cases cause
  case pcsLock => exact stat_mac_ne 1 (h.1 rfl)
  case hiBer => rw [causeNoted, raise_srv, stat_mac_ne 1 (h.2 rfl), hi_srv]
  all_goals rfl

theorem causeNoted_pcs : IMap.get 0 (causeNoted p .pcsLock s).srv.stats (p * 64 + 29) = (IMap.get 0 s.srv.stats (p * 64 + 29) + 1) % 2 ^ 64 :=
  stat_mac_same 29

theorem causeNoted_ber : IMap.get 0 (causeNoted p .hiBer s).srv.stats (p * 64 + 30) = (IMap.get 0 s.srv.stats (p * 64 + 30) + 1) % 2 ^ 64 := by
  rw [causeNoted, raise_srv, stat_mac_same, hi_srv]

theorem lossNoted_stat (cause : LossCause) (inFrame : Bool) {i : Nat} (h : i ≠ 13) :
    IMap.get 0 (lossNoted p cause inFrame s).srv.stats (p * 64 + i) = IMap.get 0 (causeNoted p cause s).srv.stats (p * 64 + i) := by
  unfold lossNoted
  split
  · exact stat_mac_ne 1 h
  · rfl

theorem lossNoted_cut (cause : LossCause) (inFrame : Bool) (h3 : s.link p = 3) :
    IMap.get 0 (lossNoted p cause inFrame s).srv.stats (p * 64 + 13) % 2 ^ 64 = (IMap.get 0 s.srv.stats (p * 64 + 13) + b01 inFrame) % 2 ^ 64 := by
  have hup : (causeNoted p cause s).isUp p = true := decide_eq_true ((causeNoted_link cause).trans h3)
  have hcause := causeNoted_stat (s := s) (p := p) cause (i := 13) ⟨fun _ => by decide, fun _ => by decide⟩
  unfold lossNoted
  rw [hup, Bool.true_and]
  cases inFrame
  · rw [if_neg (by decide), hcause]; rfl
  · rw [if_pos rfl, stat_mac_same, Nat.mod_mod, hcause]; rfl

theorem lossNoted_asm (cause : LossCause) (inFrame : Bool) : ((lossNoted p cause inFrame s).port p).asm = (s.port p).asm := by
  have hcause : ((causeNoted p cause s).port p).asm = (s.port p).asm := by
    cases cause
    case pcsLock => rw [causeNoted, mac_port]
    case hiBer => rw [causeNoted, State.port, raise_srv, ← State.port, mac_port]; rfl
    all_goals rfl
  unfold lossNoted
  split
  · rw [mac_port, hcause]
  · exact hcause

theorem lossNoted_ber (inFrame : Bool) : (lossNoted p .hiBer inFrame s).rd (R.MAC_STAT_HI_BER p) = 1 ∧
    bit ((lossNoted p .hiBer inFrame s).rd (R.MAC_EVT_BITS p)) 5 = true := by
  have h1 : (causeNoted p .hiBer s).rd (R.MAC_STAT_HI_BER p) = 1 := by
    rw [causeNoted, rd_raise_ne _ _ _ (by simp) side_MAC_STAT_HI_BER, rd_mac _ _ _ _ side_MAC_STAT_HI_BER, rd_hi_same]; rfl
  have h2 : bit ((causeNoted p .hiBer s).rd (R.MAC_EVT_BITS p)) 5 = true :=
    bit_raise (e := Evt.mac p) side_MAC_EVT_BITS (show 5 < 11 by decide) rfl
  unfold lossNoted
  split
  · rw [rd_mac _ _ _ _ side_MAC_STAT_HI_BER, rd_mac _ _ _ _ side_MAC_EVT_BITS]; exact ⟨h1, h2⟩
  · exact ⟨h1, h2⟩

/-- An event that stood stands once the port has left UP. -/
theorem bit_leaveUp_kept {i : Nat} (hi : i < 11) (h : bit (s.rd (R.MAC_EVT_BITS p)) i = true) :
    bit ((leaveUp p s).rd (R.MAC_EVT_BITS p)) i = true := by
  have hkey : Block.mac.has (R.MAC_EVT_BITS p).key = true := has_R_MAC_EVT_BITS p
  have htraffic : (trafficLost p s).rd (R.MAC_EVT_BITS p) = s.rd (R.MAC_EVT_BITS p) :=
    (touches_trafficLost p s).rd (b := .mac) (by simp) hkey side_MAC_EVT_BITS
  rw [leaveUp_eq]
  refine bit_raise_kept (e := Evt.mac p) side_MAC_EVT_BITS hi ?_
  rw [show (Evt.mac p).ev = R.MAC_EVT_BITS p from rfl, rd_mac _ _ _ _ side_MAC_EVT_BITS, rd_modPort, verifyOff, rd_lo_ne _ (by simp),
    rd_wr_ne _ _ (by simp), htraffic]
  exact h

theorem bit_setLink_up_kept (st : Nat) {i : Nat} (hl : s.link p = 3) (hi : i < 11) (h : bit (s.rd (R.MAC_EVT_BITS p)) i = true) :
    bit ((setLink p st s).rd (R.MAC_EVT_BITS p)) i = true := by
  have hup : s.isUp p = true := decide_eq_true hl
  unfold setLink
  rw [hup, rd_wr_ne _ _ (by simp), rd_lo_ne _ (by simp), rd_lo_ne _ (by simp), rd_lo_ne _ (by simp)]
  exact bit_leaveUp_kept hi h

/-! ### A Mooring link detects signal (R374) -/

theorem morSignal_trains {l : Nat} (h0 : s.morState l = 0) (ht : s.inTest = false) (hen : s.on R.MOR_CTL_EN = true)
    (hl : s.on (R.MOR_LINK_CFG_EN l) = true) (hf : s.fabric ≠ 3) :
    morSignal l s = spoil ((s.wr (R.MOR_LINK_STAT_STATE l) 1).raise Evt.mor 1) := by
  have hside : R.MOR_STAT_FABRIC.side = false := by decide
  have hfab : ((s.wr (R.MOR_LINK_STAT_STATE l) 1).raise Evt.mor 1).fabric ≠ 3 := by
    rw [State.fabric, rd_raise_ne _ _ _ (by decide) hside, rd_wr_ne _ _ (by simp only [R.MOR_STAT_FABRIC, R.MOR_LINK_STAT_STATE, Field.mk']; omega)]
    exact hf
  have hgo : morSignal l s = setMor l 1 s := if_pos ⟨h0, ht, hen, hl⟩
  rw [hgo, setMor_eq, if_neg (by rw [h0]; decide), h0]
  exact if_neg hfab

/-! ### The verify procedure (R242) -/

theorem verifyResponse_taken (h : s.rd (R.MAC_STAT_VERIFY p) = 1) :
    verifyResponse p s = (s.wr (R.MAC_STAT_VERIFY p) 2).hi (R.MAC_STAT_PRE_ACTIVE p) := if_pos h

theorem verifyResponse_idle (h : s.rd (R.MAC_STAT_VERIFY p) ≠ 1) : verifyResponse p s = s := if_neg h

/-- Verify has failed. -/
def verifyFailed (p : Nat) (s : State) : State := (mac p 46 1 (s.wr (R.MAC_STAT_VERIFY p) 3)).raise (Evt.mac p) 64

theorem verifySend_failed (h : s.rd (R.MAC_STAT_VERIFY p) = 1) (hn : 3 ≤ (s.port p).verifySent) :
    verifySend p s = verifyFailed p (s.waitClk (s.port p).verifyAt) := (if_pos h).trans (if_pos hn)

end

end Sys2Proof.Machine
end

section
/-! PROOFS. A verify mPacket that is sent (R242). -/

namespace Sys2Proof.Machine

section
variable {fs : List Field} {ps : List Part} {s₀ s : State} {p : Nat}

/-! ### A port with nothing in flight, brought up to an instant -/

/-- The time that paused frames are held is counted. -/
def heldCounted (p x : Nat) (s : State) : State :=
  if s.pauseHeld p then
    mac p 48 (((s.port p).heldRem + (max (s.port p).seenPs x - (s.port p).seenPs)) / 1000) (s.modPort p (fun k =>
      { k with heldRem := ((s.port p).heldRem + (max (s.port p).seenPs x - (s.port p).seenPs)) % 1000 }))
  else s

/-- The port seen up to an instant. -/
def seenTo (x : Nat) (k : Port) : Port := { k with seenPs := x }

theorem settleTo_idle {x : Nat} (h : (s.port p).flight = none) : settleTo p x s =
    leaveBall p (max (s.port p).seenPs x) ((heldCounted p x s).modPort p (seenTo (max (s.port p).seenPs x))) := by
  unfold settleTo
  dsimp only
  rw [h]; rfl

theorem frame_settleTo_idle {x : Nat} (h0 : (s.port p).flight = none) (hs : Part.srv ∈ ps) (h : Frame fs ps s₀ s) :
    Frame fs ps s₀ (settleTo p x s) := by
  rw [settleTo_idle h0]
  exact frame_leaveBall hs (frame_modPort hs (frame_ite (frame_mac hs (frame_modPort hs h)) h))

theorem PortKept.settleTo_idle {α : Type} {φ : Port → α} {ks : List Nat} {x : Nat} {t : State} (hk : ∀ i ∈ sentStats, i ∉ ks)
    (h : PortKept φ ks p s t) (h0 : (t.port p).flight = none)
    (hφ : ∀ k a b c d, φ { k with heldRem := a, seenPs := b, leaving := c, frameAt := d } = φ k) : PortKept φ ks p s (Machine.settleTo p x t) := by
  have hheld : PortKept φ ks p s (heldCounted p x t) :=
    .ite ((h.modPort p fun k => hφ k _ k.seenPs k.leaving k.frameAt).mac _ (hk _ (by decide))) h
  rw [Machine.settleTo_idle h0]
  exact PortKept.leaveBall hk (hheld.modPort p fun k => hφ k k.heldRem _ k.leaving k.frameAt) _ fun k a b => hφ k k.heldRem k.seenPs b a

theorem waitPs_srv (s : State) (x : Nat) : (s.waitPs x).srv = s.srv :=
  (frame_advance (fs := []) (ps := [.tick, .lanes]) (by simp) (by simp) (Frame.refl _ _ s)).2.1 .srv (by simp) rfl

/-- What a verify mPacket that falls due counts on, and whether a frame is in flight. -/
def verifyPart (k : Port) : Option Flight × Nat × Nat := (k.flight, k.verifySent, k.verifyAt)

theorem verifyPart_settled (k : Port) (a b : Nat) (c : List Flight) (d : Nat) :
    verifyPart { k with heldRem := a, seenPs := b, leaving := c, frameAt := d } = verifyPart k := rfl

theorem flight_of_kept {t : State} (h : PortKept verifyPart [] p s t) : (t.port p).flight = (s.port p).flight := congrArg Prod.fst h.port
theorem verifySent_of_kept {t : State} (h : PortKept verifyPart [] p s t) : (t.port p).verifySent = (s.port p).verifySent :=
  congrArg (fun x => x.2.1) h.port
theorem verifyAt_of_kept {t : State} (h : PortKept verifyPart [] p s t) : (t.port p).verifyAt = (s.port p).verifyAt :=
  congrArg (fun x => x.2.2) h.port

theorem kept_waitPs (s : State) (x : Nat) : PortKept verifyPart [] p s (s.waitPs x) := .of_srv (waitPs_srv s x)

theorem settleAt_eq (x : Nat) : settleAt p x s = settleTo p x (settle p (s.waitPs x)) := rfl

theorem kept_settleAt_idle {x : Nat} (h : (s.port p).flight = none) : PortKept verifyPart [] p s (settle p (s.waitPs x)) ∧
    PortKept verifyPart [] p s (settleAt p x s) := by
  have k0 := kept_waitPs (p := p) s x
  have k1 : PortKept verifyPart [] p s (settle p (s.waitPs x)) :=
    k0.settleTo_idle (by simp) ((flight_of_kept k0).trans h) verifyPart_settled
  exact ⟨k1, k1.settleTo_idle (by simp) ((flight_of_kept k1).trans h) verifyPart_settled⟩

theorem frame_settleAt_idle {x : Nat} (h : (s.port p).flight = none) (ht : Part.tick ∈ ps) (hl : Part.lanes ∈ ps) (hs : Part.srv ∈ ps) :
    Frame fs ps s (settleAt p x s) := by
  have hwait : Frame fs ps s (s.waitPs x) := frame_advance ht hl (Frame.refl _ _ s)
  exact frame_settleTo_idle ((flight_of_kept (kept_settleAt_idle h).1).trans h) hs
    (frame_settleTo_idle ((flight_of_kept (kept_waitPs s x)).trans h) hs hwait)

theorem sameQueues_settleAt (x : Nat) : SameQueues s (settleAt p x s) :=
  (SameQueues.of_srv (waitPs_srv s x)).trans ((sameQueues_settle _ p).trans (sameQueues_settleTo _ p x))

theorem settleAt_tick (x : Nat) : (settleAt p x s).tick = (s.waitPs x).tick := by
  have h := touches_settle (ps := [.srv, .rings, .regs .ring]) p _ (by simp) (by simp) (by simp) (Touches.refl _ (s.waitPs x))
  exact (touches_settleTo p x _ (by simp) (by simp) (by simp) h).1 .tick (by simp)

/-! ### Time that passes raises no condition (R462) -/

/-- Where only time, the served ports and their lanes have moved on, no condition has become true. -/
theorem noEdge_of_later {t : State} (h : Frame [] [.tick, .lanes, .srv] s t) (hq : SameQueues s t) (hc : s.tick.count ≤ t.tick.count) :
    NoEdge s t := by
  have hrd : ∀ {g : Field}, g.side = false → t.rd g = s.rd g := fun hg => h.rd (by simp) hg
  have hlane : ∀ n, t.rd (R.TSC_LANE_STAT_STATE n) = s.rd (R.TSC_LANE_STAT_STATE n) := fun n =>
    hrd (Field.side_of_mid (by simp only [R.TSC_LANE_STAT_STATE, Field.mk']; omega))
  have hgns : ∀ n, t.rd (R.GNS_CH_STAT_STATE n) = s.rd (R.GNS_CH_STAT_STATE n) := fun n =>
    hrd (Field.side_of_low (by simp only [R.GNS_CH_STAT_STATE, Field.mk']; omega))
  have hshort : t.on R.PWR_STAT_SHORT = s.on R.PWR_STAT_SHORT := by rw [State.on, State.on, hrd (by decide)]
  have hderate : t.on R.PWR_STAT_DERATE = s.on R.PWR_STAT_DERATE := by rw [State.on, State.on, hrd (by decide)]
  have hfw : t.fw = s.fw := h.2.1 .fw (by simp) rfl
  intro e u he
  have hqs : (IMap.get {} t.srv.ports u).queues = (IMap.get {} s.srv.ports u).queues := hq.queues u
  have hps : (IMap.get {} t.srv.ports u).pauseEnd = (IMap.get {} s.srv.ports u).pauseEnd := hq.pauses u
  revert he
  unfold State.pctCond
  split <;> simp only [hlane, hgns, hshort, hderate, hfw, hq.nts, hqs, hps, imp_self]
  simp only [List.any_eq_true, decide_eq_true_eq]
  rintro ⟨x, hx, hlt⟩
  exact ⟨x, hx, lt_of_le_of_lt (Nat.mul_le_mul_right _ hc) hlt⟩

theorem count_advance (s : State) (m : Nat) : s.tick.count ≤ (s.advance m).tick.count := by
  rw [advance_tick]; exact Nat.le_add_right _ _

/-- Time passes alike in states with the same tick domain. -/
theorem advance_tick_congr {u : State} (m : Nat) (ht : u.tick = s.tick) (hen : u.rd R.TSC_CTL_TS1_EN = s.rd R.TSC_CTL_TS1_EN) :
    (u.advance m).tick = (s.advance m).tick := by
  rw [advance_tick, advance_tick, State.stretch, State.stretch, State.on, State.on, ht, hen]

theorem waitPs_tick_congr {u : State} (x : Nat) (ht : u.tick = s.tick) (hen : u.rd R.TSC_CTL_TS1_EN = s.rd R.TSC_CTL_TS1_EN) :
    (u.waitPs x).tick = (s.waitPs x).tick := by
  unfold State.waitPs State.waitTick
  rw [ht]
  exact advance_tick_congr _ ht hen

/-! ### The mPacket -/

/-- The port with one more verify mPacket sent. -/
def verifyCounted (k : Port) : Port := { k with verifySent := k.verifySent + 1, verifyAt := k.verifyAt + verifySpan k.preCfg }

/-- The transmitter is busy with it. -/
def busyWith (p : Nat) (s : State) (k : Port) : Port := { k with freePs := k.seenPs + (8 + 64 + 12) * s.bytePs p }

/-- The state as the mPacket falls due. -/
def verifyDue (p : Nat) (s : State) : State := (s.begin.waitClk (s.port p).verifyAt).modPort p verifyCounted

/-- The port as the transmitter is free for it. -/
def verifyReady (p : Nat) (s : State) : State := settleAt p (max ((verifyDue p s).port p).freePs (verifyDue p s).nowPs) (verifyDue p s)

theorem verifySend_sent (h : s.rd (R.MAC_STAT_VERIFY p) = 1) (hn : (s.port p).verifySent < 3) :
    verifySend p s.begin = ((verifyReady p s).modPort p (busyWith p (verifyReady p s))).emit
      (.mpacket p (0x07 :: verifyBody ++ le 4 (mcrc verifyBody))) := by
  have hdue : verifySend p s.begin = sendVerify p smdVerify (verifyDue p s) := (if_pos h).trans (if_neg (not_le.2 hn))
  rw [hdue]; rfl

theorem waitClk_srv (s : State) (x : Nat) : (s.begin.waitClk x).srv = s.srv := (touches_waited s x).1 .srv (by simp)

theorem verifyDue_port : (verifyDue p s).port p = verifyCounted (s.port p) := by
  rw [verifyDue, port_modPort_same, State.port, waitClk_srv]; rfl

theorem verifyDue_tick : (verifyDue p s).tick = (s.waitClk (s.port p).verifyAt).tick := begin_waitClk s _

theorem verifyDue_frame : Frame [] [.tick, .lanes, .srv] s (verifyDue p s) :=
  frame_modPort (by simp) (frame_waitClk (by simp) (by simp) (frame_begin s))

theorem verifyDue_queues : SameQueues s (verifyDue p s) :=
  (SameQueues.of_srv (waitClk_srv s _)).trans (SameQueues.modPort _ p (fun _ => rfl) fun _ => rfl)

theorem verifyCounted_row (k : Port) : (verifyCounted k).freePs = k.freePs ∧ (verifyCounted k).verifySent = k.verifySent + 1 ∧
    (verifyCounted k).flight = k.flight ∧
    (verifyCounted k).verifyAt = k.verifyAt + 1000000 * 65536 * max 1 (min 128 (bits k.preCfg 23 16)) :=
  ⟨rfl, rfl, rfl, congrArg (k.verifyAt + ·) (Nat.mul_comm _ _)⟩

theorem busyWith_row (k : Port) : (busyWith p s k).verifySent = k.verifySent ∧ (busyWith p s k).verifyAt = k.verifyAt ∧
    (busyWith p s k).freePs = (busyWith p s k).seenPs + 84 * s.bytePs p := ⟨rfl, rfl, rfl⟩

/-- A verify mPacket is sent when it is due and the transmitter is free. -/
theorem verifySendRow (h : s.rd (R.MAC_STAT_VERIFY p) = 1) (hn : (s.port p).verifySent < 3) (hf : (s.port p).flight = none) :
    ∃ t, go (verifySend p) s = .next t ∧ (t.port p).verifySent = (s.port p).verifySent + 1 ∧
      (t.port p).verifyAt = (s.port p).verifyAt + 1000000 * 65536 * max 1 (min 128 (bits (s.port p).preCfg 23 16)) ∧
      t.out.head? = some (.mpacket p (0x07 :: verifyBody ++ le 4 (mcrc verifyBody))) ∧
      t.tick = ((s.waitClk (s.port p).verifyAt).waitPs (max (s.port p).freePs (s.waitClk (s.port p).verifyAt).nowPs)).tick ∧
      (t.port p).freePs = (t.port p).seenPs + 84 * s.bytePs p ∧ Frame [] [.tick, .lanes, .srv] s t := by
  obtain ⟨cfree, csent, cflight, cat⟩ := verifyCounted_row (s.port p)
  have hdue := verifyDue_port (s := s) (p := p)
  have hidle : ((verifyDue p s).port p).flight = none := by rw [hdue, cflight, hf]
  have hframe := frame_settleAt_idle (fs := []) (ps := [.tick, .lanes, .srv]) (x := max ((verifyDue p s).port p).freePs (verifyDue p s).nowPs) hidle
    (by simp) (by simp) (by simp)
  have hkept := (kept_settleAt_idle (x := max ((verifyDue p s).port p).freePs (verifyDue p s).nowPs) hidle).2
  have hqueues := sameQueues_settleAt (s := verifyDue p s) (p := p) (max ((verifyDue p s).port p).freePs (verifyDue p s).nowPs)
  have htick := settleAt_tick (s := verifyDue p s) (p := p) (max ((verifyDue p s).port p).freePs (verifyDue p s).nowPs)
  rw [← verifyReady] at hframe hkept hqueues htick
  have hall : Frame [] [.tick, .lanes, .srv] s (verifyReady p s) := verifyDue_frame.trans hframe
  have htick' : (verifyReady p s).tick = ((s.waitClk (s.port p).verifyAt).waitPs (max (s.port p).freePs (s.waitClk (s.port p).verifyAt).nowPs)).tick := by
    have hen : (s.waitClk (s.port p).verifyAt).rd R.TSC_CTL_TS1_EN = s.rd R.TSC_CTL_TS1_EN := rd_waitClk _ _ (by decide)
    rw [htick, hdue, cfree, State.nowPs, State.nowPs, verifyDue_tick]
    exact waitPs_tick_congr _ verifyDue_tick ((verifyDue_frame.rd (by simp) (by decide)).trans hen.symm)
  have hlater : s.tick.count ≤ (verifyReady p s).tick.count := by
    rw [htick']; exact (count_advance _ _).trans (count_advance _ _)
  have hbyte : (verifyReady p s).bytePs p = s.bytePs p := by
    rw [State.bytePs, State.bytePs, hall.rd (by simp) (side_of_portBase (key_MAC_CFG_MODE p) (by decide))]
  have hsent : ((verifyReady p s).port p).verifySent = (s.port p).verifySent + 1 := by rw [verifySent_of_kept hkept, hdue, csent]
  have hat := (verifyAt_of_kept hkept).trans (by rw [hdue, cat])
  have hq := (verifyDue_queues (p := p)).trans hqueues
  have hgo := verifySend_sent h hn
  generalize verifyReady p s = r at *
  have hfin : Frame [] [.tick, .lanes, .srv] s ((r.modPort p (busyWith p r)).emit (.mpacket p (0x07 :: verifyBody ++ le 4 (mcrc verifyBody)))) :=
    frame_emit (frame_modPort (by simp) hall)
  have hqfin := hq.trans (SameQueues.modPort r p (f := busyWith p r) (fun _ => rfl) fun _ => rfl)
  have hport : (r.modPort p (busyWith p r)).port p = busyWith p r (r.port p) := port_modPort_same _ _ _
  obtain ⟨bsent, bat, bfree⟩ := busyWith_row (p := p) (s := r) (r.port p)
  refine ⟨_, go_of_noEdge hgo (noEdge_of_later hfin ⟨hqfin.nts, hqfin.queues, hqfin.pauses⟩ hlater), ?_, ?_, rfl, htick', ?_, ?_⟩
  · exact (congrArg Port.verifySent hport).trans (bsent.trans hsent)
  · exact (congrArg Port.verifyAt hport).trans (bat.trans hat)
  · have hfree : ((r.modPort p (busyWith p r)).port p).freePs = ((r.modPort p (busyWith p r)).port p).seenPs + 84 * s.bytePs p := by
      rw [hport, bfree, hbyte]
    exact hfree
  · obtain ⟨h1, h2, h3, h4, -⟩ := hfin
    exact ⟨h1, h2, h3, h4, rfl⟩

end

end Sys2Proof.Machine
end

section
/-! PROOFS. Ports and links (R219-R226, R242, R374, O28). -/

namespace Sys2Proof.Machine

section
variable {s t u : State} {p w : Nat}

/-! ### An address as it is judged -/

theorem hiWritten_row : (hiWritten p w s).link p = s.link p ∧ (hiWritten p w s).badMode p = s.badMode p ∧
    (hiWritten p w s).macAddr p = w % 2 ^ 16 * 2 ^ 32 + s.rd (R.MAC_ADDR_LO_A p) := by
  refine ⟨rd_wr_ne _ _ (by simp), badMode_of_rd (rd_wr_ne _ _ (by simp)) (rd_wr_ne _ _ (by simp)), ?_⟩
  rw [State.macAddr, hiWritten, rd_wr_same, rd_wr_ne _ _ (by simp)]; rfl

theorem addrWritten_row (lo : Nat) : (addrWritten p w lo s).link p = s.link p ∧ (addrWritten p w lo s).badMode p = s.badMode p ∧
    (addrWritten p w lo s).macAddr p = w % 2 ^ 16 * 2 ^ 32 + lo % 2 ^ 32 ∧ ((addrWritten p w lo s).port p).stagedLo = none := by
  obtain ⟨hl, hm, -⟩ := hiWritten_row (s := s) (p := p) (w := w)
  have hne : ∀ {g : Field}, g.key ≠ (R.MAC_ADDR_LO_A p).key → (addrWritten p w lo s).rd g = (hiWritten p w s).rd g := fun h => rd_wr_ne _ _ h
  refine ⟨(hne (by simp)).trans hl, (badMode_of_rd (hne (by simp)) (hne (by simp))).trans hm, ?_, ?_⟩
  · have hlo : (addrWritten p w lo s).rd (R.MAC_ADDR_LO_A p) = lo % 2 ^ 32 := rd_wr_same _ _ _
    rw [State.macAddr, hlo, hne (by simp), hiWritten, rd_wr_same]; rfl
  · rw [addrWritten, port_modPort_same]

/-- What the state after the verdict shows. -/
theorem addrJudged_ended (k : Ended s (judgeCfg p (u.badAddr p || u.badMode p) u) t) (hl : u.link p ≠ 3) (hm : u.badMode p = false) :
    t.macAddr p = u.macAddr p ∧ t.rd (R.MAC_STAT_CFG_ERR p) = b01 (t.badAddr p) ∧
      (t.badAddr p = true → bit (t.rd (R.MAC_EVT_BITS p)) 10 = true ∧ t.rd (R.MAC_STAT_STATE p) = 0) := by
  obtain ⟨haddr, hbad, herr, htold⟩ := addrJudged hl hm
  have haddr' : t.macAddr p = u.macAddr p := by
    rw [← haddr, State.macAddr, State.macAddr, k.rd (side_of_portBase (key_MAC_ADDR_LO_A p) (by decide)),
      k.rd (side_of_portBase (key_MAC_ADDR_HI_A p) (by decide))]
  have hbad' : t.badAddr p = u.badAddr p := badAddr_of_addr haddr'
  rw [hbad', k.rd side_MAC_STAT_CFG_ERR, k.rd side_MAC_EVT_BITS, k.rd side_MAC_STAT_STATE]
  exact ⟨haddr', herr, htold⟩

/-! ### A pass that ends -/

theorem phased_stats (phiRx phiTx : Nat) : (phased p phiRx phiTx s).srv.stats = s.srv.stats := rfl

theorem rd_phased {g : Field} (phiRx phiTx : Nat) (h1 : g.key ≠ (R.MAC_TS_PHASE_PHI_RX p).key) (h2 : g.key ≠ (R.MAC_TS_PHASE_PHI_TX p).key) :
    (phased p phiRx phiTx s).rd g = s.rd g := (rd_wr_ne _ _ h2).trans (rd_wr_ne _ _ h1)

theorem frame_passEnd : Frame [] [.tick, .lanes] s (passEnd p s.begin) := frame_waitClk (by simp) (by simp) (frame_begin s)

end

/-- A good configuration is taken, and a change takes the port to DOWN. -/
theorem portConfig_good :
    ∀ (s : State) (p : Fin 32) (w : Word),
    s.rd (R.MAC_STAT_STATE p.val) ≠ 3 →
    fecAllowed ((R.MAC_CFG_MODE p.val).of w.toNat) ((R.MAC_CFG_FEC p.val).of w.toNat) = true →
    (R.MAC_CFG_MODE p.val).of w.toNat < 9 →
    ((R.MAC_CFG_EN p.val).of w.toNat = 0 ∨ s.badAddr p.val = false) →
    s.dieAnswers (p.val / 8) = true →
    ∃ t, exec (.portConfig p w) s = .next t ∧
      t.rd (R.MAC_CFG_EN p.val) = (R.MAC_CFG_EN p.val).of w.toNat ∧
      t.rd (R.MAC_CFG_MODE p.val) = (R.MAC_CFG_MODE p.val).of w.toNat ∧
      t.rd (R.MAC_CFG_FEC p.val) = (R.MAC_CFG_FEC p.val).of w.toNat ∧
      t.rd (R.MAC_CFG_AN_EN p.val) = (R.MAC_CFG_AN_EN p.val).of w.toNat ∧
      (t.rd (R.MAC_STAT_CFG_ERR p.val) = (if s.badAddr p.val then s.rd (R.MAC_STAT_CFG_ERR p.val) else 0)) ∧
      (t.rd (R.MAC_STAT_STATE p.val) = (if (s.rd (R.MAC_CFG_EN p.val) = (R.MAC_CFG_EN p.val).of w.toNat ∧ s.rd (R.MAC_CFG_MODE p.val) = (R.MAC_CFG_MODE p.val).of w.toNat ∧ s.rd (R.MAC_CFG_FEC p.val) = (R.MAC_CFG_FEC p.val).of w.toNat ∧ s.rd (R.MAC_CFG_AN_EN p.val) = (R.MAC_CFG_AN_EN p.val).of w.toNat) then s.rd (R.MAC_STAT_STATE p.val) else 0)) ∧
      t.rd (R.MAC_TS_LAT_L_RX p.val) = latRx ((R.MAC_CFG_MODE p.val).of w.toNat) ((R.MAC_CFG_FEC p.val).of w.toNat) ∧
      t.rd (R.MAC_TS_LAT_L_TX p.val) = latTx ((R.MAC_CFG_MODE p.val).of w.toNat) ((R.MAC_CFG_FEC p.val).of w.toNat) ∧
      Frame ((R.MAC_STAT_CFG_ERR p.val :: [R.MAC_STAT_STATE p.val, R.MAC_STAT_FEC_LOCK p.val, R.MAC_STAT_AN_DONE p.val, R.MAC_STAT_FEC_USED p.val] ++ [R.MAC_TS_LAT_L_RX p.val, R.MAC_TS_LAT_L_TX p.val]) ++ (Reg.MAC_CFG p.val).fields) [] s t := by
  intro s p w hl hfec hmode ha hd
  obtain ⟨t, e, k⟩ := go_ended_of (f := windowWrite (p.val / 8) (Reg.MAC_CFG p.val) (writeMacCfg p.val w.toNat)) (window_taken _ hd)
  have hg : GoodMode p.val w.toNat := ⟨hfec, hmode⟩
  have hrd : ∀ {g : Field}, g.side = false → g.key ≠ (R.MAC_STAT_CFG_ERR p.val).key → t.rd g = (latencySet p.val w.toNat s.begin).rd g :=
    fun hs hne => (k.rd hs).trans (rd_writeMacCfg_good (s := s.begin) hg ha hne)
  have hcfg : ∀ {g : Field} {n : Nat}, g.key = portBase p.val + n → n < 128 → t.rd g = (relinked p.val w.toNat s.begin).rd g := by
    intro g n hk hn
    refine (hrd (side_of_portBase hk (by omega)) ?_).trans (rd_latencySet ?_ ?_) <;> rw [hk] <;> simp <;> omega
  have hlat : latencySet p.val w.toNat s.begin = _ := latencySet_good hg
  refine ⟨t, e, (hcfg (key_MAC_CFG_EN _) (by decide)).trans (rd_relinked_en _ _ _),
    (hcfg (key_MAC_CFG_MODE _) (by decide)).trans (rd_relinked_mode _ _ _), (hcfg (key_MAC_CFG_FEC _) (by decide)).trans (rd_relinked_fec _ _ _),
    (hcfg (key_MAC_CFG_AN_EN _) (by decide)).trans (rd_relinked_an _ _ _), (k.rd side_MAC_STAT_CFG_ERR).trans (rd_writeMacCfg_err hg ha),
    (hrd side_MAC_STAT_STATE (by simp)).trans latencySet_link, ?_, ?_, k.frame (frame_writeMacCfg_good (s := s.begin) hg ha hl)⟩
  · rw [hrd (side_of_portBase (key_MAC_TS_LAT_L_RX _) (by decide)) (by simp), hlat, rd_setLatency_rx]
  · rw [hrd (side_of_portBase (key_MAC_TS_LAT_L_TX _) (by decide)) (by simp), hlat, rd_setLatency_tx]

/-- A bad setting keeps the port DOWN with CFG_ERR. -/
theorem portConfig_bad :
    ∀ (s : State) (p : Fin 32) (w : Word),
    s.rd (R.MAC_STAT_STATE p.val) ≠ 3 →
    (9 ≤ (R.MAC_CFG_MODE p.val).of w.toNat ∨ fecAllowed ((R.MAC_CFG_MODE p.val).of w.toNat) ((R.MAC_CFG_FEC p.val).of w.toNat) = false) →
    s.dieAnswers (p.val / 8) = true →
    ∃ t, exec (.portConfig p w) s = .next t ∧
      t.rd (R.MAC_STAT_CFG_ERR p.val) = 1 ∧
      t.rd (R.MAC_STAT_STATE p.val) = 0 ∧
      bit (t.rd (R.MAC_EVT_BITS p.val)) 10 = true ∧
      t.rd (R.MAC_TS_LAT_L_RX p.val) = s.rd (R.MAC_TS_LAT_L_RX p.val) ∧
      Frame (R.MAC_EVT_BITS p.val :: ((R.MAC_STAT_CFG_ERR p.val :: [R.MAC_STAT_STATE p.val, R.MAC_STAT_FEC_LOCK p.val, R.MAC_STAT_AN_DONE p.val, R.MAC_STAT_FEC_USED p.val] ++ [R.MAC_TS_LAT_L_RX p.val, R.MAC_TS_LAT_L_TX p.val]) ++ (Reg.MAC_CFG p.val).fields)) [] s t := by
  intro s p w hl hbad hd
  obtain ⟨t, e, k⟩ := go_ended_of (f := windowWrite (p.val / 8) (Reg.MAC_CFG p.val) (writeMacCfg p.val w.toNat)) (window_taken _ hd)
  obtain ⟨herr, hst, hbit, hlat, hframe⟩ := badRow (ps := []) (s := s.begin) hbad hl
  exact ⟨t, e, (k.rd side_MAC_STAT_CFG_ERR).trans herr, (k.rd side_MAC_STAT_STATE).trans hst, by rw [k.rd side_MAC_EVT_BITS]; exact hbit,
    (k.rd (side_of_portBase (key_MAC_TS_LAT_L_RX _) (by decide))).trans hlat, k.frame hframe⟩

/-- A change takes a port that is UP to DOWN. -/
theorem portConfig_leavesUp :
    ∀ (s : State) (p : Fin 32) (w : Word),
    s.rd (R.MAC_STAT_STATE p.val) = 3 →
    ¬ (s.rd (R.MAC_CFG_EN p.val) = (R.MAC_CFG_EN p.val).of w.toNat ∧ s.rd (R.MAC_CFG_MODE p.val) = (R.MAC_CFG_MODE p.val).of w.toNat ∧ s.rd (R.MAC_CFG_FEC p.val) = (R.MAC_CFG_FEC p.val).of w.toNat ∧ s.rd (R.MAC_CFG_AN_EN p.val) = (R.MAC_CFG_AN_EN p.val).of w.toNat) →
    s.dieAnswers (p.val / 8) = true →
    ∃ t, exec (.portConfig p w) s = .next t ∧
      t.rd (R.MAC_STAT_STATE p.val) = 0 ∧
      bit (t.rd (R.MAC_EVT_BITS p.val)) 1 = true ∧
      IMap.get 0 t.srv.stats (p.val * 64 + 51) = (IMap.get 0 s.srv.stats (p.val * 64 + 51) + 1) % 2 ^ 64 ∧
      t.rd (R.MAC_CFG_EN p.val) = (R.MAC_CFG_EN p.val).of w.toNat ∧
      (t.port p.val).outAt = s.clk ∧
      (t.port p.val).flight = none ∧
      (t.port p.val).hold = [] ∧
      (t.port p.val).asm = none ∧
      (∀ x ∈ t.txq p.val 7, x.isNts = false) ∧
      Touches [.srv, .rings, .regs .mac, .regs .nts, .regs .ring] s t := by
  intro s p w hl hc hd
  obtain ⟨t, e, k⟩ := go_ended_of (f := windowWrite (p.val / 8) (Reg.MAC_CFG p.val) (writeMacCfg p.val w.toNat)) (window_taken _ hd)
  obtain ⟨hst, hbit, hen, hleft⟩ := changedRow (s := s.begin) p.isLt hl hc
  have hsrv : (cfgWritten p.val w.toNat s.begin).srv = s.srv := cfgWritten_srv _ _ _
  have hclk : (cfgWritten p.val w.toNat s.begin).clk = s.clk := by rw [State.clk, cfgWritten, storeReg_tick]; rfl
  obtain ⟨hat, hflight, hhold, hasm, hnts, hloss, -, -⟩ := hleft.of_srv k.srv
  refine ⟨t, e, (k.rd side_MAC_STAT_STATE).trans hst, by rw [k.rd side_MAC_EVT_BITS]; exact hbit, by rw [hloss, hsrv],
    (k.rd (side_of_portBase (key_MAC_CFG_EN _) (by decide))).trans hen, hat.trans hclk, hflight, hhold, hasm, hnts, k.touches ?_⟩
  exact touches_writeMacCfg _ _ _ (by simp) (by simp) (by simp) (by simp) (by simp) (touches_begin _ s)

/-- A staged low half comes into force with the high half. -/
theorem macAddr_both :
    ∀ (s : State) (p : Fin 32) (w : Word) (lo : Nat),
    s.rd (R.MAC_STAT_STATE p.val) ≠ 3 →
    (s.port p.val).stagedLo = some lo →
    s.badMode p.val = false →
    s.dieAnswers (p.val / 8) = true →
    ∃ t, exec (.macAddrCommit p w) s = .next t ∧
      t.macAddr p.val = w.toNat % 2 ^ 16 * 2 ^ 32 + lo % 2 ^ 32 ∧
      (t.port p.val).stagedLo = none ∧
      t.rd (R.MAC_STAT_CFG_ERR p.val) = b01 (t.badAddr p.val) ∧
      (t.badAddr p.val = true → bit (t.rd (R.MAC_EVT_BITS p.val)) 10 = true ∧ t.rd (R.MAC_STAT_STATE p.val) = 0) ∧
      Frame ([R.MAC_ADDR_LO_A p.val, R.MAC_ADDR_HI_A p.val, R.MAC_STAT_CFG_ERR p.val, R.MAC_EVT_BITS p.val] ++ [R.MAC_STAT_STATE p.val, R.MAC_STAT_FEC_LOCK p.val, R.MAC_STAT_AN_DONE p.val, R.MAC_STAT_FEC_USED p.val]) [.srv] s t := by
  intro s p w lo hl hlo hm hd
  obtain ⟨t, e, k⟩ := go_ended_of (f := windowWrite (p.val / 8) (Reg.MAC_ADDR_HI p.val) (writeMacAddrHi p.val w.toNat))
    ((window_taken _ hd).trans (writeMacAddrHi_some (s := s.begin) hlo))
  obtain ⟨hvl, hvm, hva, hvp⟩ := addrWritten_row (s := s.begin) (p := p.val) (w := w.toNat) lo
  have hout : (addrWritten p.val w.toNat lo s.begin).link p.val ≠ 3 := by rw [hvl]; exact hl
  obtain ⟨haddr, herr, htold⟩ := addrJudged_ended k hout (hvm.trans hm)
  refine ⟨t, e, haddr.trans hva, by rw [State.port, k.srv, judgeCfg_srv _ hout]; exact hvp, herr, htold, k.frame ?_⟩
  exact frame_judgeCfg hout (by simp) (frame_modPort (by simp) (frame_wr (by simp) (frame_wr (by simp) (frame_begin s))))

/-- With none staged the low half in force stays. -/
theorem macAddr_high :
    ∀ (s : State) (p : Fin 32) (w : Word),
    s.rd (R.MAC_STAT_STATE p.val) ≠ 3 →
    (s.port p.val).stagedLo = none →
    s.badMode p.val = false →
    s.dieAnswers (p.val / 8) = true →
    ∃ t, exec (.macAddrCommit p w) s = .next t ∧
      t.macAddr p.val = w.toNat % 2 ^ 16 * 2 ^ 32 + s.rd (R.MAC_ADDR_LO_A p.val) ∧
      t.rd (R.MAC_STAT_CFG_ERR p.val) = b01 (t.badAddr p.val) ∧
      Frame ([R.MAC_ADDR_HI_A p.val, R.MAC_STAT_CFG_ERR p.val, R.MAC_EVT_BITS p.val] ++ [R.MAC_STAT_STATE p.val, R.MAC_STAT_FEC_LOCK p.val, R.MAC_STAT_AN_DONE p.val, R.MAC_STAT_FEC_USED p.val]) [] s t := by
  intro s p w hl hlo hm hd
  obtain ⟨t, e, k⟩ := go_ended_of (f := windowWrite (p.val / 8) (Reg.MAC_ADDR_HI p.val) (writeMacAddrHi p.val w.toNat))
    ((window_taken _ hd).trans (writeMacAddrHi_none (s := s.begin) hlo))
  obtain ⟨hvl, hvm, hva⟩ := hiWritten_row (s := s.begin) (p := p.val) (w := w.toNat)
  have hout : (hiWritten p.val w.toNat s.begin).link p.val ≠ 3 := by rw [hvl]; exact hl
  obtain ⟨haddr, herr, -⟩ := addrJudged_ended k hout (hvm.trans hm)
  exact ⟨t, e, haddr.trans hva, herr, k.frame (frame_judgeCfg hout (by simp) (frame_wr (by simp) (frame_begin s)))⟩

/-- An enabled port with signal trains. -/
theorem signal_trains :
    ∀ (s : State) (p : Fin 32),
    s.rd (R.MAC_STAT_STATE p.val) = 0 →
    s.inTest = false →
    s.on (R.MAC_CFG_EN p.val) = true →
    s.on (R.MAC_STAT_CFG_ERR p.val) = false →
    (s.port p.val).parked = false →
    ∃ t, exec (.signalDetect (.port p)) s = .next t ∧
      t.rd (R.MAC_STAT_STATE p.val) = 1 ∧
      Frame [R.MAC_STAT_STATE p.val, R.MAC_STAT_FEC_LOCK p.val, R.MAC_STAT_AN_DONE p.val, R.MAC_STAT_FEC_USED p.val] [] s t := by
  intro s p h0 ht hen herr hpark
  obtain ⟨t, e, k⟩ := go_ended_of (f := portSignal p.val) (portSignal_trains (s := s.begin) h0 ht hen herr hpark)
  have hout : s.begin.link p.val ≠ 3 := by rw [show s.begin.link p.val = 0 from h0]; decide
  exact ⟨t, e, (k.rd side_MAC_STAT_STATE).trans (link_setLink_same _ _ _ (by decide)), k.frame (frame_setLink_out hout (fun _ h => h) (frame_begin s))⟩

/-- So does an enabled Mooring link. -/
theorem mooringSignal_trains :
    ∀ (s : State) (l : Fin 2),
    s.morState l.val = 0 →
    s.inTest = false →
    s.on R.MOR_CTL_EN = true →
    s.on (R.MOR_LINK_CFG_EN l.val) = true →
    s.fabric ≠ 3 →
    ∃ t, exec (.signalDetect (.mooring l)) s = .next t ∧
      t.morState l.val = 1 ∧
      bit (t.rd R.MOR_EVT_BITS) 0 = true ∧
      Frame [R.MOR_LINK_STAT_STATE l.val, R.MOR_EVT_BITS] [.stack] s t := by
  intro s l h0 ht hen hl hf
  obtain ⟨t, e, k⟩ := go_ended_of (f := morSignal l.val) (morSignal_trains (s := s.begin) h0 ht hen hl hf)
  have hevt : R.MOR_EVT_BITS.side = false := by decide
  refine ⟨t, e, ?_, ?_, k.frame (frame_set_stack (by simp) (frame_raise (by simp [Evt.mor]) (frame_wr (by simp) (frame_begin s))))⟩
  · refine (k.rd (side_morState _)).trans ((rd_raise_ne _ _ _ ?_ (side_morState _)).trans (rd_wr_same _ _ _))
    simp only [R.MOR_LINK_STAT_STATE, Evt.mor, R.MOR_EVT_BITS, Field.mk']; omega
  · rw [k.rd hevt]
    exact bit_raise (e := Evt.mor) hevt (by decide) rfl

/-- A port that has trained calibrates. -/
theorem training_calibrates :
    ∀ (s : State) (p : Fin 32) (fec : Fin 4),
    let f := if s.anRuns p.val then fec.val else s.rd (R.MAC_CFG_FEC p.val)
    s.rd (R.MAC_STAT_STATE p.val) = 1 →
    fecAllowed (s.rd (R.MAC_CFG_MODE p.val)) f = true →
    ∃ t, exec (.trainingDone (.port p) fec) s = .next t ∧
      t.rd (R.MAC_STAT_STATE p.val) = 2 ∧
      t.rd (R.MAC_STAT_FEC_USED p.val) = f ∧
      t.rd (R.MAC_STAT_FEC_LOCK p.val) = b01 (decide (f ≠ 0)) ∧
      t.rd (R.MAC_STAT_AN_DONE p.val) = b01 (s.anRuns p.val) ∧
      t.rd (R.MAC_STAT_CAL_WEAK p.val) = 0 ∧
      t.rd (R.MAC_TS_LAT_L_RX p.val) = latRx (s.rd (R.MAC_CFG_MODE p.val)) f ∧
      t.rd (R.MAC_TS_LAT_L_TX p.val) = latTx (s.rd (R.MAC_CFG_MODE p.val)) f ∧
      (t.port p.val).calAt = s.clk ∧
      Frame ([R.MAC_STAT_CAL_WEAK p.val, R.MAC_STAT_CAL_TRIES p.val, R.MAC_STAT_HI_BER p.val] ++ [R.MAC_STAT_STATE p.val, R.MAC_STAT_FEC_LOCK p.val, R.MAC_STAT_AN_DONE p.val, R.MAC_STAT_FEC_USED p.val] ++ [R.MAC_TS_LAT_L_RX p.val, R.MAC_TS_LAT_L_TX p.val]) [.srv] s t := by
  intro s p fec f h1 hf
  obtain ⟨t, e, k⟩ := go_ended_of (f := portTrained p.val fec.val) (portTrained_eq (s := s.begin) h1 hf)
  have hlt : f < 4 := by
    by_cases han : s.anRuns p.val = true
    · exact (if_pos han).trans_lt fec.isLt
    · exact (if_neg han).trans_lt (rd_lt s _)
  obtain ⟨r1, r2, r3, r4, r5, r6, r7, r8⟩ := trainedRow (s := s.begin) (p := p.val) hlt
  exact ⟨t, e, (k.rd side_MAC_STAT_STATE).trans r1, (k.rd (side_of_portBase (key_MAC_STAT_FEC_USED _) (by decide))).trans r2,
    (k.rd (side_of_portBase (key_MAC_STAT_FEC_LOCK _) (by decide))).trans r3,
    (k.rd (side_of_portBase (key_MAC_STAT_AN_DONE _) (by decide))).trans r4,
    (k.rd (side_of_portBase (key_MAC_STAT_CAL_WEAK _) (by decide))).trans r5,
    (k.rd (side_of_portBase (key_MAC_TS_LAT_L_RX _) (by decide))).trans r6,
    (k.rd (side_of_portBase (key_MAC_TS_LAT_L_TX _) (by decide))).trans r7, by rw [State.port, k.srv]; exact r8,
    k.frame (frame_trained _ (by simp))⟩

/-- A good pass enters UP. -/
theorem pass_entersUp :
    ∀ (s : State) (p : Fin 32) (rmsRx rmsTx phiRx phiTx : Nat),
    s.rd (R.MAC_STAT_STATE p.val) = 2 →
    rmsRx ≤ 4000 →
    rmsTx ≤ 4000 →
    ∃ t, exec (.portCalPass (.port p) rmsRx rmsTx phiRx phiTx) s = .next t ∧
      t.rd (R.MAC_STAT_STATE p.val) = 3 ∧
      t.rd (R.MAC_TS_PHASE_PHI_RX p.val) = phiRx % 65536 ∧
      t.rd (R.MAC_TS_PHASE_PHI_TX p.val) = phiTx % 65536 ∧
      IMap.get 0 t.srv.stats (p.val * 64 + 52) = (IMap.get 0 s.srv.stats (p.val * 64 + 52) + 1) % 2 ^ 64 ∧
      bit (t.rd (R.MAC_EVT_BITS p.val)) 0 = true ∧
      (t.rd (R.MAC_STAT_PRE_ACTIVE p.val) = (if s.rd (R.MAC_PRE_CFG_PRE_EN p.val) = 1 ∧ s.rd (R.MAC_PRE_CFG_VERIFY_DIS p.val) = 1 then 1 else s.rd (R.MAC_STAT_PRE_ACTIVE p.val))) ∧
      (t.rd (R.MAC_STAT_VERIFY p.val) = (if s.rd (R.MAC_PRE_CFG_PRE_EN p.val) = 1 ∧ s.rd (R.MAC_PRE_CFG_VERIFY_DIS p.val) = 0 then 1 else s.rd (R.MAC_STAT_VERIFY p.val))) ∧
      t.tick = (s.waitClk ((s.port p.val).calAt + 256 * 1000 * 65536)).tick ∧
      Frame [R.MAC_STAT_STATE p.val, R.MAC_TS_PHASE_PHI_RX p.val, R.MAC_TS_PHASE_PHI_TX p.val, R.MAC_EVT_BITS p.val, R.MAC_STAT_PRE_ACTIVE p.val, R.MAC_STAT_VERIFY p.val] [.tick, .lanes, .srv] s t := by
  intro s p rmsRx rmsTx phiRx phiTx h2 hr ht
  obtain ⟨t, e, k⟩ := go_ended_of (f := portCalibrated p.val rmsRx rmsTx phiRx phiTx) (portCalibrated_good (s := s.begin) h2 hr ht)
  have hv := frame_passEnd (s := s) (p := p.val)
  have hphase : ∀ {g : Field}, g.side = false → g.key ≠ (R.MAC_TS_PHASE_PHI_RX p.val).key → g.key ≠ (R.MAC_TS_PHASE_PHI_TX p.val).key →
      (phased p.val phiRx phiTx (passEnd p.val s.begin)).rd g = s.rd g := fun hs h1 h2 => (rd_phased _ _ h1 h2).trans (rd_passEnd hs)
  have hpre := hphase (side_of_portBase (key_MAC_PRE_CFG_PRE_EN p.val) (by decide)) (by simp) (by simp)
  have hdis := hphase (side_of_portBase (key_MAC_PRE_CFG_VERIFY_DIS p.val) (by decide)) (by simp) (by simp)
  have hrx := side_of_portBase (key_MAC_TS_PHASE_PHI_RX p.val) (by decide)
  have htx := side_of_portBase (key_MAC_TS_PHASE_PHI_TX p.val) (by decide)
  refine ⟨t, e, (k.rd side_MAC_STAT_STATE).trans enterUp_state, ?_, ?_, ?_, by rw [k.rd side_MAC_EVT_BITS]; exact bit_enterUp, ?_, ?_, ?_, ?_⟩
  · rw [k.rd hrx, rd_enterUp (by simp) (by simp), rd_isUpNow hrx (by simp) (by simp), phased, rd_wr_ne _ _ (by simp), rd_wr_same]; rfl
  · rw [k.rd htx, rd_enterUp (by simp) (by simp), rd_isUpNow htx (by simp) (by simp), phased, rd_wr_same]; rfl
  · rw [k.srv, enterUp_stats, IMap.get_upd_same, phased_stats, passEnd_srv]; rfl
  · rw [k.rd side_MAC_STAT_PRE_ACTIVE, enterUp_preActive, hpre, hdis, hphase side_MAC_STAT_PRE_ACTIVE (by simp) (by simp)]
  · rw [k.rd side_MAC_STAT_VERIFY, enterUp_verify, hpre, hdis, hphase side_MAC_STAT_VERIFY (by simp) (by simp)]
  · rw [k.tick, enterUp_tick]; exact begin_waitClk s _
  · exact k.frame (frame_enterUp (by simp) (by simp) (frame_wr (by simp) (frame_wr (by simp) (hv.mono (by simp) (by simp)))))

/-- A failed one is tried again. -/
theorem pass_retried :
    ∀ (s : State) (p : Fin 32) (rmsRx rmsTx phiRx phiTx : Nat),
    s.rd (R.MAC_STAT_STATE p.val) = 2 →
    (4000 < rmsRx ∨ 4000 < rmsTx) →
    s.rd (R.MAC_STAT_CAL_TRIES p.val) < 2 →
    ∃ t, exec (.portCalPass (.port p) rmsRx rmsTx phiRx phiTx) s = .next t ∧
      t.rd (R.MAC_STAT_STATE p.val) = 2 ∧
      t.rd (R.MAC_STAT_CAL_TRIES p.val) = s.rd (R.MAC_STAT_CAL_TRIES p.val) + 1 ∧
      IMap.get 0 t.srv.stats (p.val * 64 + 53) = (IMap.get 0 s.srv.stats (p.val * 64 + 53) + 1) % 2 ^ 64 ∧
      Frame [R.MAC_STAT_CAL_TRIES p.val] [.tick, .lanes, .srv] s t := by
  intro s p rmsRx rmsTx phiRx phiTx h2 hbad hn
  have htries : (passEnd p.val s.begin).rd (R.MAC_STAT_CAL_TRIES p.val) = s.rd (R.MAC_STAT_CAL_TRIES p.val) :=
    rd_passEnd (side_of_portBase (key_MAC_STAT_CAL_TRIES _) (by decide))
  have hu := portCalibrated_failed (s := s.begin) (rmsRx := rmsRx) (rmsTx := rmsTx) (phiRx := phiRx) (phiTx := phiTx) h2 hbad
  dsimp only at hu
  rw [htries, if_neg (by omega)] at hu
  obtain ⟨t, e, k⟩ := go_ended_of (f := portCalibrated p.val rmsRx rmsTx phiRx phiTx) hu
  have hpass : Frame [R.MAC_STAT_CAL_TRIES p.val] [.tick, .lanes, .srv] s (passFailed p.val (s.rd (R.MAC_STAT_CAL_TRIES p.val) + 1) (passEnd p.val s.begin)) :=
    frame_wr (by simp) (frame_mac (by simp) (frame_passEnd.mono (by simp) (by simp)))
  refine ⟨t, e, ?_, ?_, ?_, k.frame (frame_modPort (by simp) hpass)⟩
  · rw [k.rd side_MAC_STAT_STATE, rd_modPort, hpass.rd (by simp) side_MAC_STAT_STATE, h2]
  · rw [k.rd (side_of_portBase (key_MAC_STAT_CAL_TRIES _) (by decide)), rd_modPort, passFailed, rd_wr_same]
    exact Nat.mod_eq_of_lt (show _ < 4 by omega)
  · rw [k.srv, modPort_stats, passFailed_stats, IMap.get_upd_same, passEnd_srv]; rfl

/-- The third failed one enters UP all the same. -/
theorem pass_entersWeak :
    ∀ (s : State) (p : Fin 32) (rmsRx rmsTx phiRx phiTx : Nat),
    s.rd (R.MAC_STAT_STATE p.val) = 2 →
    (4000 < rmsRx ∨ 4000 < rmsTx) →
    s.rd (R.MAC_STAT_CAL_TRIES p.val) = 2 →
    ∃ t, exec (.portCalPass (.port p) rmsRx rmsTx phiRx phiTx) s = .next t ∧
      t.rd (R.MAC_STAT_STATE p.val) = 3 ∧
      t.rd (R.MAC_STAT_CAL_WEAK p.val) = 1 ∧
      bit (t.rd (R.MAC_EVT_BITS p.val)) 2 = true ∧
      bit (t.rd (R.MAC_EVT_BITS p.val)) 0 = true ∧
      IMap.get 0 t.srv.stats (p.val * 64 + 53) = (IMap.get 0 s.srv.stats (p.val * 64 + 53) + 1) % 2 ^ 64 ∧
      IMap.get 0 t.srv.stats (p.val * 64 + 52) = (IMap.get 0 s.srv.stats (p.val * 64 + 52) + 1) % 2 ^ 64 ∧
      Frame [R.MAC_STAT_STATE p.val, R.MAC_STAT_CAL_WEAK p.val, R.MAC_STAT_CAL_TRIES p.val, R.MAC_EVT_BITS p.val, R.MAC_STAT_PRE_ACTIVE p.val, R.MAC_STAT_VERIFY p.val] [.tick, .lanes, .srv] s t := by
  intro s p rmsRx rmsTx phiRx phiTx h2 hbad hn
  have htries : (passEnd p.val s.begin).rd (R.MAC_STAT_CAL_TRIES p.val) = s.rd (R.MAC_STAT_CAL_TRIES p.val) :=
    rd_passEnd (side_of_portBase (key_MAC_STAT_CAL_TRIES _) (by decide))
  have hu := portCalibrated_failed (s := s.begin) (rmsRx := rmsRx) (rmsTx := rmsTx) (phiRx := phiRx) (phiTx := phiTx) h2 hbad
  dsimp only at hu
  rw [htries, hn, if_pos rfl] at hu
  obtain ⟨t, e, k⟩ := go_ended_of (f := portCalibrated p.val rmsRx rmsTx phiRx phiTx) hu
  have hweak := side_of_portBase (key_MAC_STAT_CAL_WEAK p.val) (by decide)
  have hpass : Frame [R.MAC_STAT_STATE p.val, R.MAC_STAT_CAL_WEAK p.val, R.MAC_STAT_CAL_TRIES p.val, R.MAC_EVT_BITS p.val,
      R.MAC_STAT_PRE_ACTIVE p.val, R.MAC_STAT_VERIFY p.val] [.tick, .lanes, .srv] s (passFailed p.val (2 + 1) (passEnd p.val s.begin)) :=
    frame_wr (by simp) (frame_mac (by simp) (frame_passEnd.mono (by simp) (by simp)))
  have hstats : (calWeak p.val (passFailed p.val (2 + 1) (passEnd p.val s.begin))).srv.stats =
      IMap.upd 0 s.srv.stats (p.val * 64 + 53) (fun v => (v + 1) % 2 ^ 64) := by
    rw [calWeak, raise_srv, hi_srv, passFailed_stats, passEnd_srv]; rfl
  refine ⟨t, e, (k.rd side_MAC_STAT_STATE).trans enterUp_state, ?_, ?_, by rw [k.rd side_MAC_EVT_BITS]; exact bit_enterUp, ?_, ?_, ?_⟩
  · rw [k.rd hweak, rd_enterUp (by simp) (by simp), rd_isUpNow hweak (by simp) (by simp), calWeak, rd_raise_ne _ _ _ (by simp) hweak, rd_hi_same]
    rfl
  · rw [k.rd side_MAC_EVT_BITS]
    exact bit_enterUp_kept (by decide) (bit_raise (e := Evt.mac p.val) side_MAC_EVT_BITS (show 2 < 11 by decide) rfl)
  · rw [k.srv, enterUp_stats, IMap.get_upd_ne _ _ _ (by omega), hstats, IMap.get_upd_same]
  · rw [k.srv, enterUp_stats, IMap.get_upd_same, hstats, IMap.get_upd_ne _ _ _ (by omega)]
  · exact k.frame (frame_enterUp (by simp) (by simp) (frame_raise (by simp [Evt.mac]) (frame_hi (by simp) hpass)))

/-- A loss takes an UP port to TRAINING. -/
theorem loss_leavesUp :
    ∀ (s : State) (p : Fin 32) (cause : LossCause) (inFrame : Bool),
    s.rd (R.MAC_STAT_STATE p.val) = 3 →
    ∃ t, exec (.linkLoss (.port p) cause inFrame) s = .next t ∧
      t.rd (R.MAC_STAT_STATE p.val) = 1 ∧
      bit (t.rd (R.MAC_EVT_BITS p.val)) 1 = true ∧
      IMap.get 0 t.srv.stats (p.val * 64 + 51) = (IMap.get 0 s.srv.stats (p.val * 64 + 51) + 1) % 2 ^ 64 ∧
      (cause = .pcsLock → IMap.get 0 t.srv.stats (p.val * 64 + 29) = (IMap.get 0 s.srv.stats (p.val * 64 + 29) + 1) % 2 ^ 64) ∧
      (cause = .hiBer → IMap.get 0 t.srv.stats (p.val * 64 + 30) = (IMap.get 0 s.srv.stats (p.val * 64 + 30) + 1) % 2 ^ 64 ∧ t.rd (R.MAC_STAT_HI_BER p.val) = 1 ∧ bit (t.rd (R.MAC_EVT_BITS p.val)) 5 = true) ∧
      IMap.get 0 t.srv.stats (p.val * 64 + 13) % 2 ^ 64 = (IMap.get 0 s.srv.stats (p.val * 64 + 13) + b01 inFrame + b01 (s.port p.val).asm.isSome) % 2 ^ 64 ∧
      (t.port p.val).asm = none ∧
      Touches [.srv, .rings, .regs .mac, .regs .nts, .regs .ring] s t := by
  intro s p cause inFrame h3
  have hu : portLost p.val cause inFrame s.begin = _ := portLost_eq (by rw [show s.begin.rd _ = 3 from h3]; decide)
  obtain ⟨t, e, k⟩ := go_ended_of (f := portLost p.val cause inFrame) hu
  have hup : (lossNoted p.val cause inFrame s.begin).link p.val = 3 := (lossNoted_link cause inFrame).trans h3
  obtain ⟨hat, hflight, hhold, hasm, hnts, hloss, hpcs, hcut⟩ := (leftUp_setLink 1 p.isLt hup).of_srv k.srv
  have hstat : ∀ {i : Nat}, i ≠ 13 → IMap.get 0 (lossNoted p.val cause inFrame s.begin).srv.stats (p.val * 64 + i) =
      IMap.get 0 (causeNoted p.val cause s.begin).srv.stats (p.val * 64 + i) := fun h => lossNoted_stat cause inFrame h
  refine ⟨t, e, (k.rd side_MAC_STAT_STATE).trans (link_setLink_same _ _ _ (by decide)), ?_, ?_, ?_, ?_, ?_, hasm, k.touches ?_⟩
  · rw [k.rd side_MAC_EVT_BITS]; exact bit_setLink_up 1 hup
  · rw [hloss, hstat (by decide), causeNoted_stat cause ⟨fun _ => by decide, fun _ => by decide⟩]; rfl
  · rintro rfl
    rw [hpcs 29 (by simp), hstat (by decide), causeNoted_pcs]; rfl
  · rintro rfl
    obtain ⟨hber, hbit⟩ := lossNoted_ber (s := s.begin) (p := p.val) inFrame
    refine ⟨by rw [hpcs 30 (by simp), hstat (by decide), causeNoted_ber]; rfl, ?_, ?_⟩
    · rw [k.rd side_MAC_STAT_HI_BER, rd_setLink 1 _ (key_MAC_STAT_HI_BER _) (by omega), hber]
    · rw [k.rd side_MAC_EVT_BITS]; exact bit_setLink_up_kept 1 hup (by decide) hbit
  · rw [hcut, Nat.add_mod, lossNoted_cut (s := s.begin) cause inFrame h3, lossNoted_asm, ← Nat.add_mod]; rfl
  · rw [← hu]
    exact touches_portLost _ _ _ _ (by simp) (by simp) (by simp) (by simp) (by simp) (touches_begin _ s)

/-- It takes a calibrating one there too. -/
theorem loss_ofCalibration :
    ∀ (s : State) (p : Fin 32) (cause : LossCause) (inFrame : Bool),
    s.rd (R.MAC_STAT_STATE p.val) = 2 →
    ∃ t, exec (.linkLoss (.port p) cause inFrame) s = .next t ∧
      t.rd (R.MAC_STAT_STATE p.val) = 1 ∧
      Frame ([R.MAC_STAT_HI_BER p.val, R.MAC_EVT_BITS p.val] ++ [R.MAC_STAT_STATE p.val, R.MAC_STAT_FEC_LOCK p.val, R.MAC_STAT_AN_DONE p.val, R.MAC_STAT_FEC_USED p.val]) [.srv] s t := by
  intro s p cause inFrame h2
  obtain ⟨t, e, k⟩ := go_ended_of (f := portLost p.val cause inFrame) (portLost_eq (s := s.begin) (by rw [show s.begin.rd _ = 2 from h2]))
  have hout : (lossNoted p.val cause inFrame s.begin).link p.val ≠ 3 := by
    rw [lossNoted_link, show s.begin.link p.val = 2 from h2]; decide
  refine ⟨t, e, (k.rd side_MAC_STAT_STATE).trans (link_setLink_same _ _ _ (by decide)), k.frame ?_⟩
  exact frame_setLink_out hout (by simp) (frame_lossNoted cause inFrame (by simp) (by simp) (by simp) (frame_begin s))

/-- After three without a response verify fails. -/
theorem verify_fails :
    ∀ (s : State) (p : Fin 32),
    s.rd (R.MAC_STAT_VERIFY p.val) = 1 →
    3 ≤ (s.port p.val).verifySent →
    ∃ t, exec (.verifySend p) s = .next t ∧
      t.rd (R.MAC_STAT_VERIFY p.val) = 3 ∧
      bit (t.rd (R.MAC_EVT_BITS p.val)) 6 = true ∧
      IMap.get 0 t.srv.stats (p.val * 64 + 46) = (IMap.get 0 s.srv.stats (p.val * 64 + 46) + 1) % 2 ^ 64 ∧
      t.tick = (s.waitClk (s.port p.val).verifyAt).tick ∧
      Frame [R.MAC_STAT_VERIFY p.val, R.MAC_EVT_BITS p.val] [.tick, .lanes, .srv] s t := by
  intro s p h hn
  obtain ⟨t, e, k⟩ := go_ended_of (f := verifySend p.val) (verifySend_failed (s := s.begin) h hn)
  refine ⟨t, e, ?_, ?_, ?_, ?_, k.frame ?_⟩
  · rw [k.rd side_MAC_STAT_VERIFY, verifyFailed, rd_raise_ne _ _ _ (by simp) side_MAC_STAT_VERIFY, rd_mac _ _ _ _ side_MAC_STAT_VERIFY, rd_wr_same]
    rfl
  · rw [k.rd side_MAC_EVT_BITS]
    exact bit_raise (e := Evt.mac p.val) side_MAC_EVT_BITS (show 6 < 11 by decide) rfl
  · rw [k.srv, verifyFailed, raise_srv, stat_mac_same, wr_srv, waitClk_srv]
  · rw [k.tick, verifyFailed, raise_tick, mac_tick, wr_tick, begin_waitClk]; rfl
  · exact frame_raise (by simp [Evt.mac]) (frame_mac (by simp) (frame_wr (by simp) (frame_waitClk (by simp) (by simp) (frame_begin s))))

/-- A response makes preemption active. -/
theorem verify_answered :
    ∀ (s : State) (p : Fin 32),
    s.rd (R.MAC_STAT_VERIFY p.val) = 1 →
    ∃ t, exec (.verifyResponse p) s = .next t ∧
      t.rd (R.MAC_STAT_VERIFY p.val) = 2 ∧
      t.rd (R.MAC_STAT_PRE_ACTIVE p.val) = 1 ∧
      Frame [R.MAC_STAT_VERIFY p.val, R.MAC_STAT_PRE_ACTIVE p.val] [] s t := by
  intro s p h
  obtain ⟨t, e, k⟩ := go_ended_of (f := verifyResponse p.val) (verifyResponse_taken (s := s.begin) h)
  refine ⟨t, e, ?_, ?_, k.frame (frame_hi (by simp) (frame_wr (by simp) (frame_begin s)))⟩
  · rw [k.rd side_MAC_STAT_VERIFY, rd_hi_ne _ (by simp), rd_wr_same]; rfl
  · rw [k.rd side_MAC_STAT_PRE_ACTIVE, rd_hi_same]; rfl

/-- Settles O28. -/
theorem portLinks : Obligations.PortLinks := by
  unfold Obligations.PortLinks
  refine ⟨?_, ?_, ?_, ?_, ?_, ?_, ?_, ?_, ?_, ?_, ?_, ?_, ?_, ?_, ?_, ?_, ?_, ?_, ?_, ?_, ?_⟩
  · exact fun s p w h => window_refused _ h
  · exact fun s p w h => window_refused _ h
  · exact portConfig_good
  · exact portConfig_bad
  · exact portConfig_leavesUp
  · exact macAddr_both
  · exact macAddr_high
  · exact signal_trains
  · intro s p h
    obtain ⟨t, e, k⟩ := go_ended_of (f := portSignal p.val) (portSignal_idle (s := s.begin) h)
    exact ⟨t, e, k.frame (frame_begin s)⟩
  · exact mooringSignal_trains
  · exact training_calibrates
  · exact pass_entersUp
  · exact pass_retried
  · exact pass_entersWeak
  · exact loss_leavesUp
  · exact loss_ofCalibration
  · intro s p cause inFrame h
    obtain ⟨t, e, k⟩ := go_ended_of (f := portLost p.val cause inFrame) (portLost_idle (s := s.begin) h)
    exact ⟨t, e, k.frame (frame_begin s)⟩
  · exact fun s p h hn hf => verifySendRow h hn hf
  · exact verify_fails
  · exact verify_answered
  · intro s p h
    obtain ⟨t, e, k⟩ := go_ended_of (f := verifyResponse p.val) (verifyResponse_idle (s := s.begin) h)
    exact ⟨t, e, k.frame (frame_begin s)⟩

end Sys2Proof.Machine
end

section
/-! PROOFS. The registers of a reference module port, its jobs and its life (R162-R175). -/

namespace Sys2Proof.Machine

/-! ### The places of a port's registers -/

/-- The key of the first bit of a module port's registers. -/
def rfmBase (p : Nat) : Nat := (0xC0100 + p % 2 * 0x100) * 32

section
variable (p : Nat)

@[simp] theorem key_RFM_EVT_BITS : R.RFM_EVT_BITS.key = 0xC0004 * 32 := rfl
@[simp] theorem key_Evt_rfm : Evt.rfm.ev.key = 0xC0004 * 32 := rfl
@[simp] theorem key_RFM_CFG_PARK : (R.RFM_CFG_PARK p).key = rfmBase p + 0 := rfl
@[simp] theorem key_RFM_CFG_EFC_MODE : (R.RFM_CFG_EFC_MODE p).key = rfmBase p + 1 := rfl
@[simp] theorem key_RFM_CFG_CLK : (R.RFM_CFG_CLK p).key = rfmBase p + 3 := rfl
@[simp] theorem key_RFM_STAT_STATE : (R.RFM_STAT_STATE p).key = rfmBase p + 128 := by
  simp only [R.RFM_STAT_STATE, Field.mk', rfmBase]; omega
@[simp] theorem key_RFM_STAT_IDENT_OK : (R.RFM_STAT_IDENT_OK p).key = rfmBase p + 131 := by
  simp only [R.RFM_STAT_IDENT_OK, Field.mk', rfmBase]; omega
@[simp] theorem key_RFM_STAT_HOURS_OK : (R.RFM_STAT_HOURS_OK p).key = rfmBase p + 132 := by
  simp only [R.RFM_STAT_HOURS_OK, Field.mk', rfmBase]; omega
@[simp] theorem key_RFM_STAT_CLK_OK : (R.RFM_STAT_CLK_OK p).key = rfmBase p + 133 := by
  simp only [R.RFM_STAT_CLK_OK, Field.mk', rfmBase]; omega
@[simp] theorem key_RFM_STAT_ALM : (R.RFM_STAT_ALM p).key = rfmBase p + 134 := by
  simp only [R.RFM_STAT_ALM, Field.mk', rfmBase]; omega
@[simp] theorem key_RFM_STAT_CANDIDATE : (R.RFM_STAT_CANDIDATE p).key = rfmBase p + 135 := by
  simp only [R.RFM_STAT_CANDIDATE, Field.mk', rfmBase]; omega
@[simp] theorem key_RFM_STAT_LIFE : (R.RFM_STAT_LIFE p).key = rfmBase p + 136 := by
  simp only [R.RFM_STAT_LIFE, Field.mk', rfmBase]; omega
@[simp] theorem key_RFM_STAT_EFC_RAIL : (R.RFM_STAT_EFC_RAIL p).key = rfmBase p + 138 := by
  simp only [R.RFM_STAT_EFC_RAIL, Field.mk', rfmBase]; omega
@[simp] theorem key_RFM_STAT_PARKED : (R.RFM_STAT_PARKED p).key = rfmBase p + 139 := by
  simp only [R.RFM_STAT_PARKED, Field.mk', rfmBase]; omega
@[simp] theorem key_RFM_EFC_CODE : (R.RFM_EFC_CODE p).key = rfmBase p + 256 := by
  simp only [R.RFM_EFC_CODE, Field.mk', rfmBase]; omega
@[simp] theorem key_RFM_HOURS_HOURS : (R.RFM_HOURS_HOURS p).key = rfmBase p + 640 := by
  simp only [R.RFM_HOURS_HOURS, Field.mk', rfmBase]; omega
@[simp] theorem key_RFM_USE_MINUTES : (R.RFM_USE_MINUTES p).key = rfmBase p + 768 := by
  simp only [R.RFM_USE_MINUTES, Field.mk', rfmBase]; omega
@[simp] theorem key_RFM_USE_SEQ : (R.RFM_USE_SEQ p).key = rfmBase p + 784 := by
  simp only [R.RFM_USE_SEQ, Field.mk', rfmBase]; omega
@[simp] theorem key_RFM_HOURS_SET_VALUE : (R.RFM_HOURS_SET_VALUE p).key = rfmBase p + 896 := by
  simp only [R.RFM_HOURS_SET_VALUE, Field.mk', rfmBase]; omega
@[simp] theorem key_RFM_HOURS_CMD_GO : (R.RFM_HOURS_CMD_GO p).key = rfmBase p + 1024 := by
  simp only [R.RFM_HOURS_CMD_GO, Field.mk', rfmBase]; omega
@[simp] theorem key_RFM_HOURS_CMD_DONE : (R.RFM_HOURS_CMD_DONE p).key = rfmBase p + 1025 := by
  simp only [R.RFM_HOURS_CMD_DONE, Field.mk', rfmBase]; omega
@[simp] theorem key_RFM_HOURS_CMD_REFUSED : (R.RFM_HOURS_CMD_REFUSED p).key = rfmBase p + 1026 := by
  simp only [R.RFM_HOURS_CMD_REFUSED, Field.mk', rfmBase]; omega
@[simp] theorem key_RFM_LIFE_REMAIN : (R.RFM_LIFE_REMAIN p).key = rfmBase p + 1152 := by
  simp only [R.RFM_LIFE_REMAIN, Field.mk', rfmBase]; omega
@[simp] theorem key_RFM_RAIL_RAIL : (R.RFM_RAIL_RAIL p).key = rfmBase p + 1280 := by
  simp only [R.RFM_RAIL_RAIL, Field.mk', rfmBase]; omega
@[simp] theorem key_RFM_PPS_EXTRA_EXTRA : (R.RFM_PPS_EXTRA_EXTRA p).key = rfmBase p + 1408 := by
  simp only [R.RFM_PPS_EXTRA_EXTRA, Field.mk', rfmBase]; omega

end

theorem rfmBase_ge (p : Nat) : 0x1802000 ≤ rfmBase p := by unfold rfmBase; omega
theorem rfmBase_lt (p : Nat) : rfmBase p < 0x1806000 := by unfold rfmBase; omega

/-- No register of a module port is one below the port's. -/
@[simp] theorem rfmBase_ne_low {p n k : Nat} (h : k < 0x1802000) : rfmBase p + n ≠ k := by have := rfmBase_ge p; omega

/-- No event of the log stands among a module port's. -/
theorem rfmBase_ne_log {p n : Nat} (hn : n < 0x2000) : ∀ f ∈ logFields, rfmBase p + n ≠ f.key := by
  have h : ∀ f ∈ logFields, 0x1808000 ≤ f.key ∨ f.key < 0x1802000 := by decide
  intro f hf
  have := h f hf
  have := rfmBase_ge p
  have := rfmBase_lt p
  omega

theorem side_of_rfmBase {f : Field} {p n : Nat} (h : f.key = rfmBase p + n) (hn : n < 0x2000) : f.side = false :=
  Field.side_of_low (by have := rfmBase_lt p; omega)

theorem side_RFM_EVT_BITS : R.RFM_EVT_BITS.side = false := by decide

section
variable {fs : List Field} {ps : List Part} {s₀ s : State} {p : Nat}

/-! ### Events, life and rail -/

theorem frame_rfmEvt {b : Nat} (hf : R.RFM_EVT_BITS ∈ fs) (h : Frame fs ps s₀ s) : Frame fs ps s₀ (rfmEvt p b s) := frame_raise hf h

theorem frame_modRfm {f : RfmPort → RfmPort} (hp : Part.rfm ∈ ps) (h : Frame fs ps s₀ s) : Frame fs ps s₀ (s.modRfm p f) := frame_set_rfm hp h

@[simp] theorem rd_modRfm (s : State) (p : Nat) (f : RfmPort → RfmPort) (g : Field) : (s.modRfm p f).rd g = s.rd g := rfl

theorem rfmPort_modRfm (s : State) (p : Nat) (f : RfmPort → RfmPort) : (s.modRfm p f).rfmPort p = f (s.rfmPort p) := IMap.get_upd_same _ _ _ _

theorem rfmPort_of_rfm {u : State} (h : u.rfm = s.rfm) : u.rfmPort p = s.rfmPort p := by rw [State.rfmPort, h]; rfl

theorem bit_rfmEvt {b : Nat} (hb : b < 16) (hp : p < 2) : bit ((rfmEvt p b s).rd R.RFM_EVT_BITS) (b + 16 * p) = true :=
  bit_raise (e := Evt.rfm) side_RFM_EVT_BITS (show _ < 32 by omega) (bit_two_pow _)

theorem rd_rfmEvt {b : Nat} {g : Field} (hg : g.side = false) (hk : g.key ≠ R.RFM_EVT_BITS.key) : (rfmEvt p b s).rd g = s.rd g :=
  rd_raise_ne _ _ _ hk hg

/-- The fields of a port's life. -/
abbrev lifeFields (p : Nat) : List Field := [R.RFM_LIFE_REMAIN p, R.RFM_STAT_LIFE p, R.RFM_EVT_BITS] ++ logFields

theorem frame_updateLife {sender : Nat} (hf : ∀ f ∈ lifeFields p, f ∈ fs) (hl : Part.log ∈ ps) (h : Frame fs ps s₀ s) :
    Frame fs ps s₀ (updateLife sender p s) := by
  have hevt : R.RFM_EVT_BITS ∈ fs := hf _ (by simp [lifeFields])
  have hwr : ∀ a b, Frame fs ps s₀ ((s.wr (R.RFM_LIFE_REMAIN p) a).wr (R.RFM_STAT_LIFE p) b) := fun a b =>
    frame_wr (hf _ (by simp [lifeFields])) (frame_wr (hf _ (by simp [lifeFields])) h)
  refine frame_ite (hwr _ _) (frame_logRec (fun f hm => hf f (List.mem_append_right _ hm)) hl ?_)
  exact frame_ite (frame_rfmEvt hevt (frame_ite (frame_rfmEvt hevt (hwr _ _)) (hwr _ _))) (frame_ite (frame_rfmEvt hevt (hwr _ _)) (hwr _ _))

/-- A register of the port that does not show its life. -/
theorem rd_updateLife {sender n : Nat} {g : Field} (hk : g.key = rfmBase p + n) (hn : n < 0x2000) (h1 : n ≠ 1152) (h2 : n ≠ 136) :
    (updateLife sender p s).rd g = s.rd g := by
  refine (frame_updateLife (fs := lifeFields p) (ps := [.log]) (sender := sender) (fun _ h => h) (by simp) (Frame.refl _ _ s)).rd (fun f hf => ?_)
    (side_of_rfmBase hk hn)
  rw [hk]
  rcases List.mem_append.1 hf with hf | hf
  · simp only [List.mem_cons, List.not_mem_nil, or_false] at hf
    rcases hf with rfl | rfl | rfl
    · simpa using h1
    · simpa using h2
    · simp
  · exact rfmBase_ne_log hn f hf

theorem updateLife_rfm (sender : Nat) : (updateLife sender p s).rfm = s.rfm :=
  (frame_updateLife (fs := lifeFields p) (ps := [.log]) (sender := sender) (fun _ h => h) (by simp) (Frame.refl _ _ s)).2.1 .rfm (by simp) rfl

theorem frame_railWarn (hf : R.RFM_EVT_BITS ∈ fs) (h : Frame fs ps s₀ s) : Frame fs ps s₀ (railWarn p s) := frame_ite (frame_rfmEvt hf h) h

/-! ### Page writes (R166-R168) -/

/-- A page follows the three registers it records. -/
theorem hoursPage_congr {u : State} {seq : Nat} (h1 : u.rd (R.RFM_USE_MINUTES p) = s.rd (R.RFM_USE_MINUTES p))
    (h2 : u.rd (R.RFM_HOURS_HOURS p) = s.rd (R.RFM_HOURS_HOURS p)) (h3 : u.rd (R.RFM_EFC_CODE p) = s.rd (R.RFM_EFC_CODE p)) :
    u.hoursPage p seq = s.hoursPage p seq := by
  unfold State.hoursPage
  rw [h1, h2, h3]

/-- The port with its work. -/
def working (w : Option HoursWrite) (k : RfmPort) : RfmPort := { k with work := w }

/-- The port with its jobs. -/
def withJobs (l : List HoursJob) (k : RfmPort) : RfmPort := { k with jobs := l }

/-- Where a copy stands on the module's bus (R162). -/
def copyAt (c : Nat) : Nat := if c = 0 then 0x80 else 0xA0

theorem beginWrite_eq (w : HoursWrite) (s : State) : beginWrite p w s =
    (s.modRfm p (working (some { w with failed := false }))).emit (.eeprom p (copyAt w.copy) (s.hoursPage p w.seq)) := rfl

theorem frame_beginWrite {w : HoursWrite} (hp : Part.rfm ∈ ps) (h : Frame fs ps s₀ s) : Frame fs ps s₀ (beginWrite p w s) :=
  frame_emit (frame_modRfm hp h)

theorem rd_beginWrite (w : HoursWrite) (s : State) (g : Field) : (beginWrite p w s).rd g = s.rd g := rfl

theorem beginWrite_port (w : HoursWrite) (s : State) : (beginWrite p w s).rfmPort p = working (some { w with failed := false }) (s.rfmPort p) :=
  rfmPort_modRfm s p (working (some { w with failed := false }))

theorem nextJob_busy {w : HoursWrite} (h : (s.rfmPort p).work = some w) : nextJob p s = s := by
  unfold nextJob
  dsimp only
  rw [h]

theorem nextJob_none (h : (s.rfmPort p).work = none) (hj : (s.rfmPort p).jobs = []) : nextJob p s = s := by
  unfold nextJob
  dsimp only
  rw [h, hj]

theorem nextJob_begins {j : HoursJob} {rest : List HoursJob} (h : (s.rfmPort p).work = none) (hj : (s.rfmPort p).jobs = j :: rest) :
    nextJob p s = beginWrite p ((s.rfmPort p).nextWrite j) (s.modRfm p (withJobs rest)) := by
  unfold nextJob
  dsimp only
  rw [h, hj]; rfl

theorem frame_nextJob (hp : Part.rfm ∈ ps) (h : Frame fs ps s₀ s) : Frame fs ps s₀ (nextJob p s) := by
  unfold nextJob
  dsimp only
  split
  · exact frame_beginWrite hp (frame_modRfm hp h)
  · exact h

theorem rd_nextJob (s : State) {g : Field} (hg : g.side = false) : (nextJob p s).rd g = s.rd g :=
  (frame_nextJob (fs := []) (ps := [.rfm]) (by simp) (Frame.refl _ _ s)).rd (by simp) hg

/-- The next job's write, its work at hand. -/
theorem nextJob_port {j : HoursJob} {rest : List HoursJob} (h : (s.rfmPort p).work = none) (hj : (s.rfmPort p).jobs = j :: rest) :
    (nextJob p s).rfmPort p = working (some ((s.rfmPort p).nextWrite j)) (withJobs rest (s.rfmPort p)) := by
  rw [nextJob_begins h hj, beginWrite_port, rfmPort_modRfm]; rfl

theorem addJob_eq (j : HoursJob) : addJob p j s = nextJob p (s.modRfm p (withJobs ((s.rfmPort p).jobs ++ [j]))) := by
  have h : s.modRfm p (fun k => { k with jobs := k.jobs ++ [j] }) = s.modRfm p (withJobs ((s.rfmPort p).jobs ++ [j])) := by
    have hupd : IMap.upd {} s.rfm p (fun k : RfmPort => { k with jobs := k.jobs ++ [j] }) =
        IMap.upd {} s.rfm p (withJobs ((s.rfmPort p).jobs ++ [j])) := rfl
    rw [State.modRfm, State.modRfm, hupd]
  rw [addJob, h]

theorem frame_addJob {j : HoursJob} (hp : Part.rfm ∈ ps) (h : Frame fs ps s₀ s) : Frame fs ps s₀ (addJob p j s) :=
  frame_nextJob hp (frame_modRfm hp h)

theorem rd_addJob (j : HoursJob) (s : State) {g : Field} (hg : g.side = false) : (addJob p j s).rd g = s.rd g :=
  (frame_addJob (fs := []) (ps := [.rfm]) (by simp) (Frame.refl _ _ s)).rd (by simp) hg

/-- A job waits behind the one at work. -/
theorem addJob_waits {w : HoursWrite} (j : HoursJob) (h : (s.rfmPort p).work = some w) :
    addJob p j s = s.modRfm p (withJobs ((s.rfmPort p).jobs ++ [j])) := by
  rw [addJob_eq]
  exact nextJob_busy (w := w) (by rw [rfmPort_modRfm]; exact h)

/-- With none at work and none waiting it begins. -/
theorem addJob_begins (j : HoursJob) (h : (s.rfmPort p).work = none) (hj : (s.rfmPort p).jobs = []) :
    (addJob p j s).rfmPort p = working (some ((s.rfmPort p).nextWrite j)) (s.rfmPort p) ∧
      .eeprom p (copyAt ((s.rfmPort p).nextWrite j).copy) (s.hoursPage p ((s.rfmPort p).nextWrite j).seq) ∈ (addJob p j s).out := by
  have hport : (s.modRfm p (withJobs ((s.rfmPort p).jobs ++ [j]))).rfmPort p = withJobs [j] (s.rfmPort p) := by
    rw [rfmPort_modRfm, hj]; rfl
  have hwork : ((s.modRfm p (withJobs ((s.rfmPort p).jobs ++ [j]))).rfmPort p).work = none := by rw [hport]; exact h
  have hjobs : ((s.modRfm p (withJobs ((s.rfmPort p).jobs ++ [j]))).rfmPort p).jobs = j :: [] := by rw [hport]; rfl
  have hback : withJobs [] (s.rfmPort p) = s.rfmPort p := by rw [← hj]; rfl
  rw [addJob_eq]
  constructor
  · rw [nextJob_port hwork hjobs, hport]
    exact congrArg _ hback
  · rw [nextJob_begins hwork hjobs, hport, beginWrite_eq]
    exact List.mem_cons_self

end

end Sys2Proof.Machine
end

section
/-! PROOFS. Hours of use, their page writes, and HOURS_SET (R166-R170, R174, R175). -/

namespace Sys2Proof.Machine

section
variable {fs : List Field} {ps : List Part} {s₀ s : State} {p : Nat}

/-! ### A minute of use (R168) -/

/-- A failed write is tried again. -/
def retryWrite (p : Nat) (s : State) : State :=
  match (s.rfmPort p).work with
  | some w => if w.failed then beginWrite p w s else s
  | none => s

theorem frame_retryWrite (hp : Part.rfm ∈ ps) (h : Frame fs ps s₀ s) : Frame fs ps s₀ (retryWrite p s) := by
  unfold retryWrite
  split
  · exact frame_ite (frame_beginWrite hp h) h
  · exact h

theorem rd_retryWrite (s : State) {g : Field} (hg : g.side = false) : (retryWrite p s).rd g = s.rd g :=
  (frame_retryWrite (fs := []) (ps := [.rfm]) (by simp) (Frame.refl _ _ s)).rd (by simp) hg

theorem retryWrite_port (s : State) : ((retryWrite p s).rfmPort p).jobs = (s.rfmPort p).jobs ∧
    ((retryWrite p s).rfmPort p).codes = (s.rfmPort p).codes := by
  unfold retryWrite
  split
  · split
    · rw [beginWrite_port]; exact ⟨rfl, rfl⟩
    · exact ⟨rfl, rfl⟩
  · exact ⟨rfl, rfl⟩

theorem retryWrite_idle {w : HoursWrite} (h : (s.rfmPort p).work = some w) (hf : w.failed = false) : retryWrite p s = s := by
  unfold retryWrite
  rw [h]
  exact if_neg (by rw [hf]; decide)

theorem moduleMinute_counts (h1 : s.rfmState p ≠ .empty) (h2 : s.rfmState p ≠ .reading) : moduleMinute p s =
    retryWrite p (if s.rd (R.RFM_USE_MINUTES p) ≥ 59 then modHour p (s.lo (R.RFM_USE_MINUTES p))
      else s.wr (R.RFM_USE_MINUTES p) (s.rd (R.RFM_USE_MINUTES p) + 1)) := if_neg fun h => h.elim h1 h2

/-! ### The 60th minute (R168, R170, R174) -/

/-- An hour more. -/
def hourCounted (p : Nat) (s : State) : State := s.wr (R.RFM_HOURS_HOURS p) (s.rd (R.RFM_HOURS_HOURS p) + 1)

/-- The port with the code of the hour. -/
def coded (code : Nat) (k : RfmPort) : RfmPort := { k with codes := (code :: k.codes).take 720 }

/-- The hour's page write is wanted where the hours are known. -/
def hourWritten (p : Nat) (s : State) : State :=
  if s.on (R.RFM_STAT_HOURS_OK p) then addJob p .hourly (s.modRfm p (coded (s.rd (R.RFM_EFC_CODE p)))) else s

/-- Rail and life follow. -/
def hourJudged (p : Nat) (s : State) : State :=
  updateLife 0 p (railWarn p (s.wr (R.RFM_RAIL_RAIL p) (railHours (s.rd (R.RFM_EFC_CODE p)) (s.rfmPort p).codes)))

theorem modHour_eq : modHour p s = hourJudged p (hourWritten p (hourCounted p s)) := rfl

theorem frame_hourWritten (hp : Part.rfm ∈ ps) (h : Frame fs ps s₀ s) : Frame fs ps s₀ (hourWritten p s) :=
  frame_ite (frame_addJob hp (frame_modRfm hp h)) h

theorem rd_hourWritten (s : State) {g : Field} (hg : g.side = false) : (hourWritten p s).rd g = s.rd g :=
  (frame_hourWritten (fs := []) (ps := [.rfm]) (by simp) (Frame.refl _ _ s)).rd (by simp) hg

/-- The fields of an hour's end. -/
abbrev hourFields (p : Nat) : List Field := R.RFM_RAIL_RAIL p :: lifeFields p

theorem frame_hourJudged (hf : ∀ f ∈ hourFields p, f ∈ fs) (hl : Part.log ∈ ps) (h : Frame fs ps s₀ s) : Frame fs ps s₀ (hourJudged p s) :=
  frame_updateLife (fun f hm => hf f (List.mem_cons_of_mem _ hm)) hl
    (frame_railWarn (hf _ (by simp [hourFields, lifeFields])) (frame_wr (hf _ (by simp)) h))

theorem hourJudged_rfm : (hourJudged p s).rfm = s.rfm :=
  (frame_hourJudged (fs := hourFields p) (ps := [.log]) (fun _ h => h) (by simp) (Frame.refl _ _ s)).2.1 .rfm (by simp) rfl

/-- A register of the port that shows neither rail nor life. -/
theorem rd_hourJudged {g : Field} {n : Nat} (hk : g.key = rfmBase p + n) (hn : n < 0x2000) (h1 : n ≠ 1152) (h2 : n ≠ 136) (h3 : n ≠ 1280) :
    (hourJudged p s).rd g = s.rd g := by
  have hside := side_of_rfmBase hk hn
  refine (rd_updateLife hk hn h1 h2).trans ?_
  have hwarn : ∀ u : State, (railWarn p u).rd g = u.rd g := fun u =>
    (frame_railWarn (fs := [R.RFM_EVT_BITS]) (ps := []) (by simp) (Frame.refl _ _ u)).rd (by rw [hk]; simp) hside
  exact (hwarn _).trans (rd_wr_ne _ _ (by rw [hk]; simpa using h3))

/-! ### A page write that ends (R168, R169, R175) -/

/-- The port once its copy holds its SEQ. -/
def noted (w : HoursWrite) (k : RfmPort) : RfmPort :=
  { k with
    work := none
    lastCopy := w.copy
    seqA := if w.copy = 0 then some w.seq else k.seqA
    seqB := if w.copy = 0 then k.seqB else some w.seq }

theorem noteWrite_eq (w : HoursWrite) : noteWrite p w s = (s.modRfm p (noted w)).wr (R.RFM_USE_SEQ p) w.seq := rfl

theorem noteWrite_port (w : HoursWrite) : (noteWrite p w s).rfmPort p = noted w (s.rfmPort p) := rfmPort_modRfm s p (noted w)

theorem rd_noteWrite (w : HoursWrite) {g : Field} (hk : g.key ≠ (R.RFM_USE_SEQ p).key) : (noteWrite p w s).rd g = s.rd g := rd_wr_ne _ _ hk

theorem frame_noteWrite {w : HoursWrite} (hf : R.RFM_USE_SEQ p ∈ fs) (hp : Part.rfm ∈ ps) (h : Frame fs ps s₀ s) :
    Frame fs ps s₀ (noteWrite p w s) := frame_wr hf (frame_modRfm hp h)

/-- What follows a write that has succeeded. -/
def wroteFor (p : Nat) (w : HoursWrite) (s : State) : State :=
  match w.job with
  | .hourly => nextJob p s
  | .flush => nextJob p (parkNow p s)
  | .setFirst => beginWrite p { copy := 1 - w.copy, seq := (w.seq + 1) % 65536, job := .setSecond } s
  | .setSecond => nextJob p (hoursDone p s)

theorem hoursWriteEnd_ok {w : HoursWrite} (h : (s.rfmPort p).work = some w) (hf : w.failed = false) :
    hoursWriteEnd p true s = wroteFor p w (noteWrite p w s) := by
  unfold hoursWriteEnd
  rw [h]
  dsimp only
  rw [if_neg (by rw [hf]; decide)]
  rfl

/-- The write that failed, to be tried again. -/
def failedWrite (w : HoursWrite) : HoursWrite := { w with failed := true, tried := true }

theorem hoursWriteEnd_failed {w : HoursWrite} (h : (s.rfmPort p).work = some w) (hf : w.failed = false) :
    hoursWriteEnd p false s = if w.tried then s.modRfm p (working (some (failedWrite w)))
      else rfmEvt p 8 (s.modRfm p (working (some (failedWrite w)))) := by
  unfold hoursWriteEnd
  rw [h]
  dsimp only
  rw [if_neg (by rw [hf]; decide)]
  rfl

/-- What the next job leaves of a port whose write has ended. -/
structure NextJob (y : RfmPort) (t : RfmPort) : Prop where
  idle : y.jobs = [] → t.work = none ∧ t.jobs = []
  next : ∀ j js, y.jobs = j :: js → t.work = some (t.nextWrite j) ∧ t.jobs = js
  lastCopy : t.lastCopy = y.lastCopy
  seqA : t.seqA = y.seqA
  seqB : t.seqB = y.seqB

theorem nextJob_row (h : (s.rfmPort p).work = none) : NextJob (s.rfmPort p) ((nextJob p s).rfmPort p) := by
  cases hj : (s.rfmPort p).jobs with
  | nil =>
    rw [nextJob_none h hj]
    exact ⟨fun _ => ⟨h, hj⟩, fun j js e => absurd (hj.symm.trans e) (by simp), rfl, rfl, rfl⟩
  | cons j js =>
    rw [nextJob_port h hj]
    refine ⟨fun e => absurd (hj.symm.trans e) (by simp), fun j' js' e => ?_, rfl, rfl, rfl⟩
    rw [hj] at e
    obtain ⟨rfl, rfl⟩ := List.cons.inj e
    exact ⟨rfl, rfl⟩

/-! ### The candidate and the port's state (R157, R160) -/

/-- The fields that a change of state or candidacy moves. -/
abbrev candidateFields (p : Nat) : List Field := [R.RFM_STAT_CANDIDATE p, R.ENS_ANCHOR_HOLD]

theorem frame_setCandidate (hf : ∀ f ∈ candidateFields p, f ∈ fs) (he : Part.ens ∈ ps) (h : Frame fs ps s₀ s) :
    Frame fs ps s₀ (setCandidate p s) := by
  have hlo : Frame fs ps s₀ (s.lo (R.RFM_STAT_CANDIDATE p)) := frame_lo (hf _ (by simp)) h
  have hhold : ∀ {u}, Frame fs ps s₀ u → Frame fs ps s₀ (anchorHold u) := fun hu => frame_set_ens he (frame_hi (hf _ (by simp)) hu)
  exact frame_ite (frame_ite h (frame_set_ens he (frame_hi (hf _ (by simp)) h))) (frame_ite (hhold hlo) hlo)

/-- CANDIDATE shows READY with CLK_OK 1. -/
theorem rd_setCandidate_same : (setCandidate p s).rd (R.RFM_STAT_CANDIDATE p) =
    b01 (decide (s.rfmState p = .ready ∧ s.rd (R.RFM_STAT_CLK_OK p) = 1)) := by
  unfold setCandidate
  dsimp only
  by_cases hnow : s.rfmState p = .ready ∧ s.on (R.RFM_STAT_CLK_OK p) = true
  · have hb : decide (s.rfmState p = .ready ∧ s.rd (R.RFM_STAT_CLK_OK p) = 1) = true := decide_eq_true ⟨hnow.1, of_decide_eq_true hnow.2⟩
    rw [if_pos hnow, hb]
    split
    · next hw => exact of_decide_eq_true hw
    · exact rd_hi_same _ _
  · have hb : decide (s.rfmState p = .ready ∧ s.rd (R.RFM_STAT_CLK_OK p) = 1) = false :=
      decide_eq_false fun h => hnow ⟨h.1, decide_eq_true h.2⟩
    rw [if_neg hnow, hb]
    split
    · have hne : (R.RFM_STAT_CANDIDATE p).key ≠ R.ENS_ANCHOR_HOLD.key := by rw [key_RFM_STAT_CANDIDATE]; exact rfmBase_ne_low (by decide)
      exact (rd_hi_ne _ hne).trans (rd_lo_same _ _)
    · exact rd_lo_same _ _

theorem setCandidate_rfm : (setCandidate p s).rfm = s.rfm :=
  (frame_setCandidate (fs := candidateFields p) (ps := [.ens]) (fun _ h => h) (by simp) (Frame.refl _ _ s)).2.1 .rfm (by simp) rfl

/-- A register of the port other than CANDIDATE. -/
theorem rd_setCandidate {g : Field} {n : Nat} (hk : g.key = rfmBase p + n) (hn : n < 0x2000) (h1 : n ≠ 135) :
    (setCandidate p s).rd g = s.rd g := by
  refine (frame_setCandidate (fs := candidateFields p) (ps := [.ens]) (fun _ h => h) (by simp) (Frame.refl _ _ s)).rd (fun f hf => ?_)
    (side_of_rfmBase hk hn)
  rw [hk]
  rcases List.mem_pair.1 hf with rfl | rfl
  · simpa using h1
  · exact rfmBase_ne_low (by decide)

/-- The fields of a port's state. -/
abbrev rfmStateFields (p : Nat) : List Field :=
  [R.RFM_STAT_STATE p, R.RFM_STAT_PARKED p, R.RFM_STAT_CLK_OK p, R.RFM_STAT_CANDIDATE p, R.RFM_EVT_BITS, R.ENS_ANCHOR_HOLD]

theorem frame_setRfm {v : Rfm} (hf : ∀ f ∈ rfmStateFields p, f ∈ fs) (he : Part.ens ∈ ps) (hp : Part.rfm ∈ ps) (h : Frame fs ps s₀ s) :
    Frame fs ps s₀ (setRfm p v s) := by
  have hst : Frame fs ps s₀ (s.wr (R.RFM_STAT_STATE p) v.code) := frame_wr (hf _ (by simp)) h
  exact frame_setCandidate (by intro f hm; rcases List.mem_pair.1 hm with rfl | rfl <;> exact hf _ (by simp)) he
    (frame_wr (hf _ (by simp)) (frame_ite (frame_modRfm hp (frame_lo (hf _ (by simp)) hst)) hst))

theorem ofCode_code (v : Rfm) : Rfm.ofCode (v.code % 2 ^ 3) = v := by cases v <;> rfl

/-- The port's state as it was set. -/
theorem rfmState_setRfm (v : Rfm) : (setRfm p v s).rfmState p = v := by
  have hrd : (setRfm p v s).rd (R.RFM_STAT_STATE p) = v.code % 2 ^ 3 := by
    unfold setRfm
    dsimp only
    rw [rd_setCandidate (key_RFM_STAT_STATE p) (by decide) (by decide), rd_wr_ne _ _ (by simp)]
    split
    · rw [rd_modRfm, rd_lo_ne _ (by simp), rd_wr_same]; rfl
    · rw [rd_wr_same]; rfl
  rw [State.rfmState, hrd, ofCode_code]

/-- The port without its last measurement. -/
def unmeasured (k : RfmPort) : RfmPort := { k with hz := none }

theorem setRfm_parked_port : (setRfm p .parked s).rfmPort p = unmeasured (s.rfmPort p) := by
  refine (rfmPort_of_rfm setCandidate_rfm).trans ?_
  exact rfmPort_modRfm _ _ unmeasured

end

end Sys2Proof.Machine
end

section
/-! PROOFS. A module's PPS edges and the measurement of its clock (R157, R160, R161, R178, R181). -/

namespace Sys2Proof.Machine

/-! ### States that differ in their messages alone -/

/-- Two states with the same time, interval inputs, ensemble and modules, whose registers read alike but for the counters' own and the
pending bits of messages. -/
structure Alike (s u : State) : Prop where
  tick : u.tick = s.tick
  tim : u.tim = s.tim
  ens : u.ens = s.ens
  rfm : u.rfm = s.rfm
  rd : ∀ {g : Field}, g.side = false → u.rd g = s.rd g

namespace Alike

variable {s u : State} (h : Alike s u)
include h

theorem stepBarred (b : Bank) : u.stepBarred b = s.stepBarred b := by
  unfold State.stepBarred State.on
  rw [h.rd (by decide), h.tick]

theorem stepAhead : u.stepAhead .ts0 = s.stepAhead .ts0 := by
  unfold State.stepAhead State.nextMarker State.on
  rw [h.stepBarred, h.rd (by decide), h.tick]

theorem stepBefore (j : Nat) : u.stepBefore j = s.stepBefore j := by
  unfold State.stepBefore
  rw [h.stepAhead, h.tick]

theorem stretch : u.stretch = s.stretch := by
  unfold State.stretch State.on
  rw [h.rd (by decide), h.tick]

theorem bankIn (j : Nat) : u.bankIn j = s.bankIn j := by
  have hat : u.stretchAt j = s.stretchAt j := by
    unfold State.stretchAt
    rw [h.tick, h.stretch]
  unfold State.bankIn
  rw [h.stepBefore, h.stepAhead, h.tick, hat]

theorem convert (x : Rat) : u.convert x = s.convert x := by
  unfold State.convert
  rw [h.bankIn]

theorem chan (c : Nat) : u.chan c = s.chan c := by rw [State.chan, State.chan, h.tim]
theorem group (g : Nat) : u.group g = s.group g := by rw [State.group, State.group, h.tim]
theorem slot (i : Nat) : u.slot i = s.slot i := by rw [State.slot, State.slot, h.ens]
theorem clk : u.clk = s.clk := by rw [State.clk, State.clk, h.tick]
theorem ts0 : u.ts0 = s.ts0 := by rw [State.ts0, State.ts0, h.tick]
theorem clkOf (t : Nat) : u.clkOf t = s.clkOf t := by rw [State.clkOf, State.clkOf, h.clk, h.ts0]
theorem stampOf (t : Nat) : u.stampOf t = s.stampOf t := by rw [State.stampOf, State.stampOf, h.stretch]
theorem ppsSecond (p t : Nat) : u.ppsSecond p t = s.ppsSecond p t := by rw [State.ppsSecond, State.ppsSecond, h.slot, h.stampOf]

theorem servedBy (ch c : Nat) : u.servedBy ch c = s.servedBy ch c := by
  unfold State.servedBy State.heldEdge State.unitOf
  simp only [h.chan]

theorem binCentre (g v b : Nat) : u.binCentre g v b = s.binCentre g v b := by
  unfold State.binCentre
  rw [h.group]

theorem binWidth (g v b : Nat) : u.binWidth g v b = s.binWidth g v b := by
  unfold State.binWidth
  rw [h.group]

/-- They capture an edge of an internal channel alike. -/
theorem capture {ch : Nat} (hch : 64 ≤ ch) (c b : Nat) (fall : Bool) : u.capture ch c b fall = s.capture ch c b fall := by
  unfold State.capture
  simp only [h.servedBy, h.binCentre, h.binWidth, h.convert, h.stepBefore, h.tim, if_neg (not_lt.2 hch)]

end Alike

/-- Time passes alike from a command's beginning. -/
theorem alike_waitTick (s : State) (n : Nat) : Alike (s.waitTick n) (s.begin.waitTick n) := by
  have hb : Frame [] [.tick, .lanes] s (s.begin.waitTick n) := frame_advance (by simp) (by simp) (frame_begin s)
  have hs : Frame [] [.tick, .lanes] s (s.waitTick n) := frame_advance (by simp) (by simp) (Frame.refl _ _ s)
  have hpart : ∀ p : Part, p ∉ [Part.tick, .lanes] → p.isRegs = false → p.same s (s.begin.waitTick n) ∧ p.same s (s.waitTick n) :=
    fun p h1 h2 => ⟨hb.2.1 p h1 h2, hs.2.1 p h1 h2⟩
  obtain ⟨t1, t2⟩ := hpart .tim (by simp) rfl
  obtain ⟨e1, e2⟩ := hpart .ens (by simp) rfl
  obtain ⟨r1, r2⟩ := hpart .rfm (by simp) rfl
  exact ⟨begin_advance_tick s _, t1.trans t2.symm, e1.trans e2.symm, r1.trans r2.symm, fun hg => (hb.rd (by simp) hg).trans (hs.rd (by simp) hg).symm⟩

/-! ### An edge (R161) -/

section
variable {s u : State} {p : Nat}

/-- The port with an edge taken for its second. -/
def ppsTaken (x : Nat) (sec : Int) (k : RfmPort) : RfmPort := { k with ppsAt := some x, ppsSec := sec }

theorem slot_modSlot_same (i : Nat) (f : Slot → Slot) (s : State) : (s.modSlot i f).slot i = f (s.slot i) := IMap.get_upd_same _ _ _ _

/-- A delivered sample goes to the end of the slot's inbox, stamped. -/
theorem deliver_inbox (i : Nat) (q : Stamp) (x dly : Int) (spoof : Bool) (s : State) :
    ((deliver i q x dly spoof s).slot i).inbox.length = (s.slot i).inbox.length + 1 ∧
      ((deliver i q x dly spoof s).slot i).inbox.getLast?.map (·.t) = some q.clk := by
  rw [deliver, slot_modSlot_same]
  exact ⟨by simp, by simp⟩

theorem stampOf_clk (t : Nat) : (s.stampOf t).clk = s.clkOf t := by
  rw [State.stampOf, Stretch.stamp, State.clkOf, State.clk, State.ts0, State.stretch]
  dsimp only
  omega

theorem takePps_eq (t : Nat) (sec : Int) : takePps p t sec s =
    deliver (p + 2) (s.stampOf t) (nearestSecond t) 0 false (s.modRfm p (ppsTaken (s.clkOf t) sec)) := rfl

/-- The state with an edge noted on the port's own interval channel. -/
def edgeNoted (p : Nat) (e : Edge) (u : State) : State := noteEdge (80 + p) e u

theorem frame_edgeNoted {fs : List Field} {ps : List Part} {s₀ : State} (e : Edge) (hp : Part.tim ∈ ps) (h : Frame fs ps s₀ u) :
    Frame fs ps s₀ (edgeNoted p e u) := frame_set_tim hp h

/-- An edge of the second taken. -/
theorem takePps_row (e : Edge) (t : Nat) (sec : Int) :
    ((takePps p t sec (edgeNoted p e u)).rfmPort p).ppsAt = some (u.clkOf t) ∧ ((takePps p t sec (edgeNoted p e u)).rfmPort p).ppsSec = sec ∧
      ((takePps p t sec (edgeNoted p e u)).slot (p + 2)).inbox.length = (u.slot (p + 2)).inbox.length + 1 ∧
      ((takePps p t sec (edgeNoted p e u)).slot (p + 2)).inbox.getLast?.map (·.t) = some (u.clkOf t) := by
  have hport : (takePps p t sec (edgeNoted p e u)).rfmPort p = ppsTaken (u.clkOf t) sec (u.rfmPort p) :=
    rfmPort_modRfm (edgeNoted p e u) p (ppsTaken (u.clkOf t) sec)
  rw [hport, takePps_eq]
  obtain ⟨h1, h2⟩ := deliver_inbox (p + 2) ((edgeNoted p e u).stampOf t) (nearestSecond t) 0 false
    ((edgeNoted p e u).modRfm p (ppsTaken ((edgeNoted p e u).clkOf t) sec))
  exact ⟨rfl, rfl, h1, h2.trans (by rw [stampOf_clk]; rfl)⟩

theorem frame_takePps {fs : List Field} {ps : List Part} {s₀ : State} (t : Nat) (sec : Int) (he : Part.ens ∈ ps) (hr : Part.rfm ∈ ps)
    (h : Frame fs ps s₀ u) : Frame fs ps s₀ (takePps p t sec u) := frame_set_ens he (frame_modRfm hr h)

/-- The edge of a port at coarse period `c` of the state `u`. -/
abbrev ppsTime (p c bin : Nat) (u : State) : Nat := (u.capture (80 + p) c bin false).time

/-- The state in which the edge is captured. -/
def ppsAt (p dc bin : Nat) (s : State) : State :=
  let u := s.begin.waitTick (tickOfCoarse (s.coarseNow + dc))
  edgeNoted p (u.capture (80 + p) (s.coarseNow + dc) bin false) u

theorem modulePps_ready {dc bin : Nat} (h : s.rfmState p = .ready) : modulePps p dc bin s.begin =
    ppsEdge p (ppsTime p (s.coarseNow + dc) bin (s.begin.waitTick (tickOfCoarse (s.coarseNow + dc)))) (ppsAt p dc bin s) := by
  have hb : s.begin.rfmState p = .ready := h
  unfold modulePps
  dsimp only
  rw [hb, if_pos (by simp), if_pos rfl]
  rfl

theorem modulePps_captured {dc bin : Nat} (h : s.rfmState p = .warming ∨ s.rfmState p = .alarm) : modulePps p dc bin s.begin = ppsAt p dc bin s := by
  have hb : s.begin.rfmState p = s.rfmState p := rfl
  unfold modulePps
  dsimp only
  rw [hb]
  rcases h with h | h <;> rw [h, if_pos (by simp), if_neg (by decide)] <;> rfl

theorem modulePps_gated {dc bin : Nat} (h : s.rfmState p = .empty ∨ s.rfmState p = .reading ∨ s.rfmState p = .parked) :
    modulePps p dc bin s = s := by
  unfold modulePps
  rcases h with h | h | h <;> rw [h] <;> exact if_neg (by decide)

theorem frame_ppsAt (dc bin : Nat) : Frame [] [.tick, .lanes, .tim] s (ppsAt p dc bin s) :=
  frame_edgeNoted _ (by simp) (frame_advance (by simp) (by simp) (frame_begin s))

theorem ppsAt_tick (dc bin : Nat) : (ppsAt p dc bin s).tick = (s.waitTick (tickOfCoarse (s.coarseNow + dc))).tick :=
  (alike_waitTick s _).tick

end

end Sys2Proof.Machine
end

section
/-! PROOFS. The rows of a module's hours and their page writes (R166-R170, R175). -/

namespace Sys2Proof.Machine
/-! ### The page (R166) -/

theorem crcBits_lt {poly : Nat} (hp : poly < 2 ^ 32) (n : Nat) : ∀ c < 2 ^ 32, crcBits poly n c < 2 ^ 32 := by
  induction n with
  | zero => exact fun c hc => hc
  | succ n ih =>
    intro c hc
    refine ih _ ?_
    have hhalf : c / 2 < 2 ^ 32 := by omega
    split
    · exact Nat.xor_lt_two_pow hhalf hp
    · exact hhalf

/-- A CRC over bytes has 32 bits. -/
theorem crc32c_lt {l : List Nat} (hl : ∀ b ∈ l, b < 256) : crc32c l < 2 ^ 32 := by
  have hfold : ∀ (l : List Nat) (c : Nat), (∀ b ∈ l, b < 256) → c < 2 ^ 32 →
      l.foldl (fun c b => crcBits 0x82F63B78 8 (c ^^^ b)) c < 2 ^ 32 := by
    intro l
    induction l with
    | nil => exact fun c _ hc => hc
    | cons b l ih =>
      intro c hl hc
      refine ih _ (fun x hx => hl x (List.mem_cons_of_mem _ hx)) (crcBits_lt (by decide) 8 _ ?_)
      exact Nat.xor_lt_two_pow hc (lt_trans (hl b List.mem_cons_self) (by decide))
  exact Nat.xor_lt_two_pow (hfold l _ hl (by decide)) (by decide)

/-- The bytes under a page's CRC. -/
def pageBody (seq m h e : Nat) : List Nat := le 2 seq ++ [m, 0] ++ le 4 h ++ le 4 e ++ List.replicate 16 0

theorem pageBody_bytes {seq m h e : Nat} (hm : m < 256) : ∀ b ∈ pageBody seq m h e, b < 256 := by
  simp only [pageBody, le, List.replicate]
  intro b hb
  simp at hb
  omega

/-- A page under any CRC of 32 bits reads as it was written. -/
theorem page_reads {seq m h e c : Nat} (hm : m < 256) (hc : c < 2 ^ 32) : (pageBody seq m h e ++ le 4 c).length = 32 ∧
    leAt (pageBody seq m h e ++ le 4 c) 28 4 = c ∧ (pageBody seq m h e ++ le 4 c).take 28 = pageBody seq m h e ∧
    leAt (pageBody seq m h e ++ le 4 c) 0 2 = seq % 65536 ∧ leAt (pageBody seq m h e ++ le 4 c) 2 1 = m % 256 ∧
    leAt (pageBody seq m h e ++ le 4 c) 4 4 = h % 2 ^ 32 ∧ leAt (pageBody seq m h e ++ le 4 c) 8 4 = e % 2 ^ 32 := by
  simp only [pageBody, le, leAt, List.replicate]
  simp
  omega

theorem hoursPage_row (s : State) (p : Fin 2) (seq : Nat) : copyValid (s.hoursPage p.val seq) = true ∧
    leAt (s.hoursPage p.val seq) 0 2 = seq % 65536 ∧ leAt (s.hoursPage p.val seq) 2 1 = s.rd (R.RFM_USE_MINUTES p.val) % 256 ∧
    leAt (s.hoursPage p.val seq) 4 4 = s.rd (R.RFM_HOURS_HOURS p.val) % 2 ^ 32 ∧
    leAt (s.hoursPage p.val seq) 8 4 = s.rd (R.RFM_EFC_CODE p.val) % 2 ^ 32 := by
  have hm : s.rd (R.RFM_USE_MINUTES p.val) < 256 := lt_trans (rd_lt s (R.RFM_USE_MINUTES p.val)) (show 2 ^ 6 < 256 by decide)
  obtain ⟨hlen, hcrc, hbody, hseq, hmin, hhours, hcode⟩ := page_reads (seq := seq) (h := s.rd (R.RFM_HOURS_HOURS p.val))
    (e := s.rd (R.RFM_EFC_CODE p.val)) hm (crc32c_lt (pageBody_bytes (seq := seq) (h := s.rd (R.RFM_HOURS_HOURS p.val))
      (e := s.rd (R.RFM_EFC_CODE p.val)) hm))
  have hpage : s.hoursPage p.val seq = pageBody seq (s.rd (R.RFM_USE_MINUTES p.val)) (s.rd (R.RFM_HOURS_HOURS p.val)) (s.rd (R.RFM_EFC_CODE p.val))
      ++ le 4 (crc32c (pageBody seq (s.rd (R.RFM_USE_MINUTES p.val)) (s.rd (R.RFM_HOURS_HOURS p.val)) (s.rd (R.RFM_EFC_CODE p.val)))) := rfl
  rw [hpage]
  refine ⟨?_, hseq, hmin, hhours, hcode⟩
  unfold copyValid
  rw [hcrc, hbody, hlen]
  simp

/-! ### A minute -/

section
variable {fs : List Field} {ps : List Part} {s₀ s : State} {p : Nat}

theorem on_of_rd {f : Field} (h : s.rd f = 1) : s.on f = true := decide_eq_true h

/-- What was sent stays sent. -/
theorem Frame.sent (h : Frame fs ps s₀ s) {o : Output} (ho : o ∈ s₀.out) : o ∈ s.out := h.2.2.2.1.subset ho

theorem nextJob_codes (s : State) : ((nextJob p s).rfmPort p).codes = (s.rfmPort p).codes := by
  cases hw : (s.rfmPort p).work with
  | some w => rw [nextJob_busy hw]
  | none =>
    cases hj : (s.rfmPort p).jobs with
    | nil => rw [nextJob_none hw hj]
    | cons j js => rw [nextJob_port hw hj]; rfl

theorem addJob_codes (j : HoursJob) (s : State) : ((addJob p j s).rfmPort p).codes = (s.rfmPort p).codes := by
  rw [addJob_eq, nextJob_codes, rfmPort_modRfm]; rfl

theorem hourWritten_codes (h : s.rd (R.RFM_STAT_HOURS_OK p) = 1) :
    ((hourWritten p s).rfmPort p).codes = (s.rd (R.RFM_EFC_CODE p) :: (s.rfmPort p).codes).take 720 := by
  rw [hourWritten, if_pos (on_of_rd h), addJob_codes, rfmPort_modRfm]; rfl

theorem hourWritten_waits {w : HoursWrite} (h : s.rd (R.RFM_STAT_HOURS_OK p) = 1) (hw : (s.rfmPort p).work = some w) :
    ((hourWritten p s).rfmPort p).jobs = (s.rfmPort p).jobs ++ [.hourly] := by
  have hport := rfmPort_modRfm s p (coded (s.rd (R.RFM_EFC_CODE p)))
  rw [hourWritten, if_pos (on_of_rd h), addJob_waits (w := w) .hourly (by rw [hport]; exact hw), rfmPort_modRfm, hport]; rfl

theorem hourWritten_begins (h : s.rd (R.RFM_STAT_HOURS_OK p) = 1) (hw : (s.rfmPort p).work = none) (hj : (s.rfmPort p).jobs = []) :
    ((hourWritten p s).rfmPort p).work = some ((s.rfmPort p).nextWrite .hourly) ∧
      .eeprom p (copyAt (1 - (s.rfmPort p).lastCopy)) (s.hoursPage p ((s.rfmPort p).nextWrite .hourly).seq) ∈ (hourWritten p s).out := by
  have hport := rfmPort_modRfm s p (coded (s.rd (R.RFM_EFC_CODE p)))
  obtain ⟨h1, h2⟩ := addJob_begins (p := p) (s := s.modRfm p (coded (s.rd (R.RFM_EFC_CODE p)))) .hourly (by rw [hport]; exact hw)
    (by rw [hport]; exact hj)
  rw [hourWritten, if_pos (on_of_rd h)]
  rw [hport] at h1 h2
  exact ⟨congrArg RfmPort.work h1, h2⟩

theorem hourWritten_unknown (h : s.rd (R.RFM_STAT_HOURS_OK p) ≠ 1) : hourWritten p s = s := if_neg fun hn => h (of_decide_eq_true hn)

/-- The state in which the 60th minute's page is wanted. -/
def atHour (p : Nat) (s : State) : State := hourCounted p (s.lo (R.RFM_USE_MINUTES p))

theorem frame_atHour (h1 : R.RFM_USE_MINUTES p ∈ fs) (h2 : R.RFM_HOURS_HOURS p ∈ fs) (h : Frame fs ps s₀ s) : Frame fs ps s₀ (atHour p s) :=
  frame_wr h2 (frame_lo h1 h)

theorem rd_atHour {g : Field} {n : Nat} (hk : g.key = rfmBase p + n) (h1 : n ≠ 768) (h2 : n ≠ 640) : (atHour p s).rd g = s.rd g := by
  have hh : g.key ≠ (R.RFM_HOURS_HOURS p).key := by rw [hk]; simpa using h2
  have hm : g.key ≠ (R.RFM_USE_MINUTES p).key := by rw [hk]; simpa using h1
  exact (rd_wr_ne _ _ hh).trans (rd_lo_ne _ hm)

theorem atHour_port : (atHour p s).rfmPort p = s.rfmPort p := rfl

theorem atHour_times : (atHour p s).rd (R.RFM_USE_MINUTES p) = 0 ∧
    (atHour p s).rd (R.RFM_HOURS_HOURS p) = (s.rd (R.RFM_HOURS_HOURS p) + 1) % 2 ^ 32 := by
  constructor
  · exact (rd_wr_ne _ _ (by simp)).trans (rd_lo_same _ _)
  · refine (rd_wr_same _ _ _).trans ?_
    rw [rd_lo_ne _ (by simp)]; rfl

/-- What the 60th minute leaves. -/
def hourDone (p : Nat) (s : State) : State := retryWrite p (hourJudged p (hourWritten p (atHour p s)))

theorem frame_hourDone (hf : ∀ f ∈ [R.RFM_USE_MINUTES p, R.RFM_HOURS_HOURS p] ++ hourFields p, f ∈ fs) (hr : Part.rfm ∈ ps) (hl : Part.log ∈ ps)
    (h : Frame fs ps s₀ s) : Frame fs ps s₀ (hourDone p s) :=
  frame_retryWrite hr (frame_hourJudged (fun f hm => hf f (List.mem_append_right _ hm)) hl
    (frame_hourWritten hr (frame_atHour (hf _ (by simp)) (hf _ (by simp)) h)))

theorem rd_hourDone {g : Field} {n : Nat} (hk : g.key = rfmBase p + n) (hn : n < 0x2000) (h1 : n ≠ 1152) (h2 : n ≠ 136) (h3 : n ≠ 1280) :
    (hourDone p s).rd g = (atHour p s).rd g :=
  have hside := side_of_rfmBase hk hn
  (rd_retryWrite _ hside).trans ((rd_hourJudged hk hn h1 h2 h3).trans (rd_hourWritten _ hside))

theorem judged_port : (hourJudged p (hourWritten p (atHour p s))).rfmPort p = (hourWritten p (atHour p s)).rfmPort p := rfmPort_of_rfm hourJudged_rfm

end

theorem moduleMinute_row (s : State) (p : Fin 2) (h1 : s.rfmState p.val ≠ .empty) (h2 : s.rfmState p.val ≠ .reading)
    (hm : s.rd (R.RFM_USE_MINUTES p.val) < 59) : ∃ t, Sys2Proof.Machine.exec (.moduleMinute p) s = .next t ∧
      t.rd (R.RFM_USE_MINUTES p.val) = s.rd (R.RFM_USE_MINUTES p.val) + 1 ∧ Frame [R.RFM_USE_MINUTES p.val] [.rfm] s t := by
  have hu := moduleMinute_counts (s := s.begin) (p := p.val) h1 h2
  rw [if_neg (show ¬ s.begin.rd (R.RFM_USE_MINUTES p.val) ≥ 59 from not_le.2 hm)] at hu
  obtain ⟨t, e, k⟩ := go_ended_of hu
  have hside := side_of_rfmBase (key_RFM_USE_MINUTES p.val) (by decide)
  refine ⟨t, e, ?_, k.frame (frame_retryWrite (by simp) (frame_wr (by simp) (frame_begin s)))⟩
  rw [k.rd hside, rd_retryWrite _ hside, rd_wr_same]
  exact Nat.mod_eq_of_lt (lt_of_lt_of_le (Nat.succ_lt_succ hm) (show 60 ≤ 2 ^ 6 by decide))

theorem moduleHour_row (s : State) (p : Fin 2) (h1 : s.rfmState p.val ≠ .empty) (h2 : s.rfmState p.val ≠ .reading)
    (hm : s.rd (R.RFM_USE_MINUTES p.val) = 59) : ∃ t, Sys2Proof.Machine.exec (.moduleMinute p) s = .next t ∧
      t.rd (R.RFM_USE_MINUTES p.val) = 0 ∧ t.rd (R.RFM_HOURS_HOURS p.val) = (s.rd (R.RFM_HOURS_HOURS p.val) + 1) % 2 ^ 32 ∧
      (s.rd (R.RFM_STAT_HOURS_OK p.val) = 1 → (s.rfmPort p.val).work = none → (s.rfmPort p.val).jobs = [] →
        (t.rfmPort p.val).work = some ((s.rfmPort p.val).nextWrite .hourly) ∧
        .eeprom p.val (copyAt (1 - (s.rfmPort p.val).lastCopy)) (t.hoursPage p.val ((s.rfmPort p.val).nextWrite .hourly).seq) ∈ t.out) ∧
      (s.rd (R.RFM_STAT_HOURS_OK p.val) = 1 → (s.rfmPort p.val).work ≠ none → (t.rfmPort p.val).jobs = (s.rfmPort p.val).jobs ++ [.hourly]) ∧
      (s.rd (R.RFM_STAT_HOURS_OK p.val) = 1 → (t.rfmPort p.val).codes = (s.rd (R.RFM_EFC_CODE p.val) :: (s.rfmPort p.val).codes).take 720) ∧
      (s.rd (R.RFM_STAT_HOURS_OK p.val) ≠ 1 → (t.rfmPort p.val).jobs = (s.rfmPort p.val).jobs ∧ (t.rfmPort p.val).codes = (s.rfmPort p.val).codes) ∧
      Frame ([R.RFM_USE_MINUTES p.val, R.RFM_HOURS_HOURS p.val] ++ hourFields p.val) [.rfm, .log] s t := by
  have hu : moduleMinute p.val s.begin = hourDone p.val s.begin :=
    (moduleMinute_counts (s := s.begin) (p := p.val) h1 h2).trans (by rw [if_pos (show s.begin.rd (R.RFM_USE_MINUTES p.val) ≥ 59 from hm.ge)]; rfl)
  obtain ⟨t, e, k⟩ := go_ended_of hu
  have hport : t.rfmPort p.val = (hourDone p.val s.begin).rfmPort p.val := rfmPort_of_rfm k.rfm
  have hrd : ∀ {g : Field} {n : Nat}, g.key = rfmBase p.val + n → n < 0x2000 → n ≠ 1152 → n ≠ 136 → n ≠ 1280 → t.rd g = (atHour p.val s.begin).rd g :=
    fun hk hn a b c => (k.rd (side_of_rfmBase hk hn)).trans (rd_hourDone hk hn a b c)
  have hok : (atHour p.val s.begin).rd (R.RFM_STAT_HOURS_OK p.val) = s.rd (R.RFM_STAT_HOURS_OK p.val) :=
    rd_atHour (key_RFM_STAT_HOURS_OK p.val) (by decide) (by decide)
  have hcode : (atHour p.val s.begin).rd (R.RFM_EFC_CODE p.val) = s.rd (R.RFM_EFC_CODE p.val) :=
    rd_atHour (key_RFM_EFC_CODE p.val) (by decide) (by decide)
  obtain ⟨hmin, hhours⟩ := atHour_times (p := p.val) (s := s.begin)
  have hkept := retryWrite_port (p := p.val) (hourJudged p.val (hourWritten p.val (atHour p.val s.begin)))
  rw [judged_port] at hkept
  obtain ⟨hjobs, hcodes⟩ := hkept
  refine ⟨t, e, (hrd (key_RFM_USE_MINUTES _) (by decide) (by decide) (by decide) (by decide)).trans hmin,
    (hrd (key_RFM_HOURS_HOURS _) (by decide) (by decide) (by decide) (by decide)).trans hhours, ?_, ?_, ?_, ?_,
    k.frame (frame_hourDone (fun f hf => hf) (by simp) (by simp) (frame_begin s))⟩
  · intro h hw hj
    obtain ⟨hwork, hout⟩ := hourWritten_begins (s := atHour p.val s.begin) (hok.trans h) hw hj
    have hidle : hourDone p.val s.begin = hourJudged p.val (hourWritten p.val (atHour p.val s.begin)) :=
      retryWrite_idle (by rw [judged_port]; exact hwork) rfl
    rw [hidle, judged_port] at hport
    refine ⟨(congrArg RfmPort.work hport).trans hwork, ?_⟩
    rw [hoursPage_congr (s := atHour p.val s.begin) (hrd (key_RFM_USE_MINUTES _) (by decide) (by decide) (by decide) (by decide))
      (hrd (key_RFM_HOURS_HOURS _) (by decide) (by decide) (by decide) (by decide))
      (hrd (key_RFM_EFC_CODE _) (by decide) (by decide) (by decide) (by decide))]
    refine k.out.subset ?_
    rw [hidle]
    exact (frame_hourJudged (fs := hourFields p.val) (ps := [.log]) (fun f hf => hf) (by simp) (Frame.refl _ _ _)).sent hout
  · intro h hw
    obtain ⟨w, hw⟩ := Option.ne_none_iff_exists'.1 hw
    exact (congrArg RfmPort.jobs hport).trans (hjobs.trans (hourWritten_waits (w := w) (hok.trans h) hw))
  · intro h
    rw [hport, ← hcode]
    exact hcodes.trans (hourWritten_codes (hok.trans h))
  · intro h
    have hsame : (hourWritten p.val (atHour p.val s.begin)).rfmPort p.val = s.rfmPort p.val := by
      rw [hourWritten_unknown (fun hn => h (hok.symm.trans hn))]; rfl
    rw [hsame] at hjobs hcodes
    exact ⟨(congrArg RfmPort.jobs hport).trans hjobs, (congrArg RfmPort.codes hport).trans hcodes⟩

end Sys2Proof.Machine
end

section
/-! PROOFS. The rows of a page write's end, of HOURS_SET and of the EFC code (R168-R171, R175). -/

namespace Sys2Proof.Machine

section
variable {fs : List Field} {ps : List Part} {s₀ s : State} {p : Nat}

/-! ### PARKED entered -/

theorem frame_parkNow (hf : ∀ f ∈ rfmStateFields p, f ∈ fs) (he : Part.ens ∈ ps) (hp : Part.rfm ∈ ps) (h : Frame fs ps s₀ s) :
    Frame fs ps s₀ (parkNow p s) := frame_ite (frame_setRfm hf he hp h) h

theorem rfmState_of_rd {u : State} (h : u.rd (R.RFM_STAT_STATE p) = s.rd (R.RFM_STAT_STATE p)) : u.rfmState p = s.rfmState p := by
  rw [State.rfmState, State.rfmState, h]

theorem parkNow_state : (parkNow p s).rfmState p = if s.rd (R.RFM_CFG_PARK p) = 1 then .parked else s.rfmState p := by
  by_cases h : s.rd (R.RFM_CFG_PARK p) = 1
  · rw [parkNow, if_pos (on_of_rd h), if_pos h, rfmState_setRfm]
  · rw [parkNow, if_neg (show ¬ s.on (R.RFM_CFG_PARK p) = true from fun hn => h (of_decide_eq_true hn)), if_neg h]

theorem parkNow_port : (parkNow p s).rfmPort p = s.rfmPort p ∨ (parkNow p s).rfmPort p = unmeasured (s.rfmPort p) := by
  unfold parkNow
  split
  · exact .inr setRfm_parked_port
  · exact .inl rfl

theorem rd_parkNow {g : Field} {n : Nat} (hk : g.key = rfmBase p + n) (hn : n < 0x2000) (h : 256 ≤ n) : (parkNow p s).rd g = s.rd g := by
  refine (frame_parkNow (fs := rfmStateFields p) (ps := [.ens, .rfm]) (fun f hf => hf) (by simp) (by simp) (Frame.refl _ _ s)).rd (fun f hf => ?_)
    (side_of_rfmBase hk hn)
  rw [hk]
  simp only [List.mem_cons, List.not_mem_nil, or_false] at hf
  rcases hf with rfl | rfl | rfl | rfl | rfl | rfl
  · rw [key_RFM_STAT_STATE]; omega
  · rw [key_RFM_STAT_PARKED]; omega
  · rw [key_RFM_STAT_CLK_OK]; omega
  · rw [key_RFM_STAT_CANDIDATE]; omega
  · exact rfmBase_ne_low (by decide)
  · exact rfmBase_ne_low (by decide)

/-! ### A write that has succeeded -/

/-- An hourly write or a flush noted. -/
def wroteOne (p : Nat) (w : HoursWrite) (s : State) : State := if w.job = .flush then parkNow p (noteWrite p w s) else noteWrite p w s

theorem wroteFor_one {w : HoursWrite} (h : w.job = .hourly ∨ w.job = .flush) : wroteFor p w (noteWrite p w s) = nextJob p (wroteOne p w s) := by
  unfold wroteFor wroteOne
  rcases h with h | h
  · rw [h, if_neg (by decide)]
  · rw [h, if_pos rfl]

theorem frame_wroteOne {w : HoursWrite} (hf : ∀ f ∈ R.RFM_USE_SEQ p :: rfmStateFields p, f ∈ fs) (he : Part.ens ∈ ps) (hp : Part.rfm ∈ ps)
    (h : Frame fs ps s₀ s) : Frame fs ps s₀ (wroteOne p w s) :=
  have hn := frame_noteWrite (w := w) (hf _ (by simp)) hp h
  frame_ite (frame_parkNow (fun f hm => hf f (List.mem_cons_of_mem _ hm)) he hp hn) hn

/-- The port once a write of its is noted, its last measurement kept or not. -/
theorem wroteOne_port (w : HoursWrite) : (wroteOne p w s).rfmPort p = noted w (s.rfmPort p) ∨
    (wroteOne p w s).rfmPort p = unmeasured (noted w (s.rfmPort p)) := by
  rw [← noteWrite_port]
  unfold wroteOne
  split
  · exact parkNow_port
  · exact .inl rfl

theorem wroteOne_seq (w : HoursWrite) : (wroteOne p w s).rd (R.RFM_USE_SEQ p) = w.seq % 65536 := by
  have hn : (noteWrite p w s).rd (R.RFM_USE_SEQ p) = w.seq % 65536 := rd_wr_same _ _ _
  unfold wroteOne
  split
  · exact (rd_parkNow (key_RFM_USE_SEQ p) (by decide) (by decide)).trans hn
  · exact hn

theorem wroteOne_state (w : HoursWrite) : (wroteOne p w s).rfmState p =
    if w.job = .flush ∧ s.rd (R.RFM_CFG_PARK p) = 1 then .parked else s.rfmState p := by
  have hst : (noteWrite p w s).rfmState p = s.rfmState p := rfmState_of_rd (rd_noteWrite w (by simp))
  have hpark : (noteWrite p w s).rd (R.RFM_CFG_PARK p) = s.rd (R.RFM_CFG_PARK p) := rd_noteWrite w (by simp)
  unfold wroteOne
  by_cases h : w.job = .flush
  · rw [if_pos h, parkNow_state, hst, hpark]
    simp only [h, true_and]
  · rw [if_neg h, if_neg (fun hn => h hn.1), hst]

end

theorem hoursWriteEnd_one_row (s : State) (p : Fin 2) (w : HoursWrite) (rest : List HoursJob) (hw : (s.rfmPort p.val).work = some w)
    (hj : (s.rfmPort p.val).jobs = rest) (hf : w.failed = false) (hjob : w.job = .hourly ∨ w.job = .flush) :
    ∃ t, Sys2Proof.Machine.exec (.hoursWriteEnd p true) s = .next t ∧
      (rest = [] → (t.rfmPort p.val).work = none ∧ (t.rfmPort p.val).jobs = []) ∧
      (∀ j js, rest = j :: js → (t.rfmPort p.val).work = some ((t.rfmPort p.val).nextWrite j) ∧ (t.rfmPort p.val).jobs = js) ∧
      (t.rfmPort p.val).lastCopy = w.copy ∧
      ((if w.copy = 0 then (t.rfmPort p.val).seqA else (t.rfmPort p.val).seqB) = some w.seq) ∧
      t.rd (R.RFM_USE_SEQ p.val) = w.seq % 65536 ∧
      (t.rfmState p.val = (if w.job = .flush ∧ s.rd (R.RFM_CFG_PARK p.val) = 1 then .parked else s.rfmState p.val)) ∧
      Frame (R.RFM_USE_SEQ p.val :: rfmStateFields p.val) [.ens, .rfm] s t := by
  have hu : hoursWriteEnd p.val true s.begin = nextJob p.val (wroteOne p.val w s.begin) :=
    (hoursWriteEnd_ok (s := s.begin) hw hf).trans (wroteFor_one hjob)
  obtain ⟨t, e, k⟩ := go_ended_of hu
  obtain ⟨y, hy, hnote⟩ : ∃ y, (wroteOne p.val w s.begin).rfmPort p.val = y ∧
      (y = noted w (s.rfmPort p.val) ∨ y = unmeasured (noted w (s.rfmPort p.val))) := ⟨_, rfl, wroteOne_port w⟩
  have hidle : ((wroteOne p.val w s.begin).rfmPort p.val).work = none := by rw [hy]; rcases hnote with rfl | rfl <;> rfl
  have hrow := nextJob_row hidle
  rw [hy, ← rfmPort_of_rfm (p := p.val) k.rfm] at hrow
  have hjobs : y.jobs = rest := by rcases hnote with rfl | rfl <;> exact hj
  have hcopy : y.lastCopy = w.copy := by rcases hnote with rfl | rfl <;> rfl
  have hseq : (if w.copy = 0 then y.seqA else y.seqB) = some w.seq := by
    rcases hnote with rfl | rfl <;> by_cases hc : w.copy = 0 <;> simp [noted, unmeasured, hc]
  have hrd : ∀ {g : Field} {n : Nat}, g.key = rfmBase p.val + n → n < 0x2000 → t.rd g = (wroteOne p.val w s.begin).rd g := fun hk hn =>
    (k.rd (side_of_rfmBase hk hn)).trans (rd_nextJob _ (side_of_rfmBase hk hn))
  refine ⟨t, e, fun hr => hrow.idle (hjobs.trans hr), fun j js hr => hrow.next j js (hjobs.trans hr), hrow.lastCopy.trans hcopy, ?_,
    (hrd (key_RFM_USE_SEQ _) (by decide)).trans (wroteOne_seq w),
    (rfmState_of_rd (hrd (key_RFM_STAT_STATE _) (by decide))).trans (wroteOne_state w),
    k.frame (frame_nextJob (by simp) (frame_wroteOne (fun f hm => hm) (by simp) (by simp) (frame_begin s)))⟩
  rw [hrow.seqA, hrow.seqB]
  exact hseq

theorem hoursWriteEnd_first_row (s : State) (p : Fin 2) (w : HoursWrite) (rest : List HoursJob) (hw : (s.rfmPort p.val).work = some w)
    (hj : (s.rfmPort p.val).jobs = rest) (hf : w.failed = false) (hjob : w.job = .setFirst) :
    ∃ t, Sys2Proof.Machine.exec (.hoursWriteEnd p true) s = .next t ∧
      (t.rfmPort p.val).work = some { copy := 1 - w.copy, seq := (w.seq + 1) % 65536, job := .setSecond } ∧
      (t.rfmPort p.val).jobs = rest ∧
      .eeprom p.val (copyAt (1 - w.copy)) (s.hoursPage p.val ((w.seq + 1) % 65536)) ∈ t.out ∧
      Frame [R.RFM_USE_SEQ p.val] [.rfm] s t := by
  have hu : hoursWriteEnd p.val true s.begin =
      beginWrite p.val { copy := 1 - w.copy, seq := (w.seq + 1) % 65536, job := .setSecond } (noteWrite p.val w s.begin) := by
    rw [hoursWriteEnd_ok (s := s.begin) hw hf, wroteFor, hjob]
  obtain ⟨t, e, k⟩ := go_ended_of hu
  have hport := rfmPort_of_rfm (p := p.val) k.rfm
  rw [beginWrite_port, noteWrite_port] at hport
  refine ⟨t, e, congrArg RfmPort.work hport, (congrArg RfmPort.jobs hport).trans hj, k.out.subset ?_,
    k.frame (frame_beginWrite (by simp) (frame_noteWrite (by simp) (by simp) (frame_begin s)))⟩
  have hpage : (noteWrite p.val w s.begin).hoursPage p.val ((w.seq + 1) % 65536) = s.hoursPage p.val ((w.seq + 1) % 65536) :=
    hoursPage_congr (rd_noteWrite w (by simp)) (rd_noteWrite w (by simp)) (rd_noteWrite w (by simp))
  rw [beginWrite_eq, hpage]
  exact List.mem_cons_self

/-! ### HOURS_SET has written both copies -/

section
variable {fs : List Field} {ps : List Part} {s₀ s : State} {p : Nat}

/-- An event bit taken back. -/
theorem bit_taken (e i : Nat) : bit (e - (if bit e i then 2 ^ i else 0)) i = false := by
  by_cases h : bit e i = true
  · rw [if_pos h]
    have hodd : e / 2 ^ i % 2 = 1 := of_decide_eq_true h
    have hdiv : (e - 2 ^ i) / 2 ^ i = e / 2 ^ i - 1 := by simpa using Nat.sub_mul_div e (2 ^ i) 1
    refine decide_eq_false ?_
    rw [hdiv]
    omega
  · rw [if_neg h]
    exact Bool.eq_false_iff.2 h

/-- HOURS_BAD taken back. -/
def badTaken (p : Nat) (s : State) : State :=
  s.wr R.RFM_EVT_BITS (s.rd R.RFM_EVT_BITS - (if bit (s.rd R.RFM_EVT_BITS) (7 + 16 * p) then 2 ^ (7 + 16 * p) else 0))

/-- What the end of HOURS_SET shows. -/
def setShown (p : Nat) (s : State) : State := (badTaken p ((s.hi (R.RFM_HOURS_CMD_DONE p)).lo (R.RFM_HOURS_CMD_GO p))).hi (R.RFM_STAT_HOURS_OK p)

/-- The life after it. -/
def setLived (p : Nat) (s : State) : State := updateLife ((setShown p s).rfmPort p).setBy p (setShown p s)

theorem hoursDone_eq : hoursDone p s = endUnit 0x0C10 p 0 0 (le 4 ((setLived p s).showReg (Reg.RFM_HOURS p)) ++
    le 4 ((setLived p s).showReg (Reg.RFM_USE p))) (setLived p s) := rfl

/-- The fields of HOURS_SET's end. -/
abbrev setFields (p : Nat) : List Field := [R.RFM_HOURS_CMD_DONE p, R.RFM_HOURS_CMD_GO p, R.RFM_STAT_HOURS_OK p] ++ lifeFields p

theorem frame_setShown (hf : ∀ f ∈ setFields p, f ∈ fs) (h : Frame fs ps s₀ s) : Frame fs ps s₀ (setShown p s) :=
  frame_hi (hf _ (by simp)) (frame_wr (hf _ (by simp [lifeFields])) (frame_lo (hf _ (by simp)) (frame_hi (hf _ (by simp)) h)))

theorem frame_hoursDone (hf : ∀ f ∈ setFields p, f ∈ fs) (hl : Part.log ∈ ps) (hw : Part.fw ∈ ps) (h : Frame fs ps s₀ s) :
    Frame fs ps s₀ (hoursDone p s) :=
  frame_endUnit hw (frame_updateLife (fun f hm => hf f (List.mem_append_right _ hm)) hl (frame_setShown hf h))

theorem hoursDone_rfm : (hoursDone p s).rfm = s.rfm :=
  (frame_hoursDone (fs := setFields p) (ps := [.log, .fw]) (fun _ h => h) (by simp) (by simp) (Frame.refl _ _ s)).2.1 .rfm (by simp) rfl

theorem setShown_rds : (setShown p s).rd (R.RFM_HOURS_CMD_DONE p) = 1 ∧ (setShown p s).rd (R.RFM_HOURS_CMD_GO p) = 0 ∧
    (setShown p s).rd (R.RFM_STAT_HOURS_OK p) = 1 := by
  refine ⟨?_, ?_, rd_hi_same _ _⟩
  · exact (rd_hi_ne _ (by simp)).trans ((rd_wr_ne _ _ (by simp)).trans ((rd_lo_ne _ (by simp)).trans (rd_hi_same _ _)))
  · exact (rd_hi_ne _ (by simp)).trans ((rd_wr_ne _ _ (by simp)).trans (rd_lo_same _ _))

theorem bit_setShown : bit ((setShown p s).rd R.RFM_EVT_BITS) (7 + 16 * p) = false := by
  have hev : (setShown p s).rd R.RFM_EVT_BITS = (badTaken p ((s.hi (R.RFM_HOURS_CMD_DONE p)).lo (R.RFM_HOURS_CMD_GO p))).rd R.RFM_EVT_BITS :=
    rd_hi_ne _ (by rw [key_RFM_EVT_BITS, key_RFM_STAT_HOURS_OK]; exact (rfmBase_ne_low (by decide)).symm)
  rw [hev, badTaken, rd_wr_same, bit_mod_two_pow, bit_taken, Bool.and_false]

theorem rd_setShown_ident : (setShown p s).rd (R.RFM_STAT_IDENT_OK p) = s.rd (R.RFM_STAT_IDENT_OK p) :=
  (rd_hi_ne _ (by simp)).trans ((rd_wr_ne _ _ (by simp)).trans ((rd_lo_ne _ (by simp)).trans (rd_hi_ne _ (by simp))))

/-- The port's life where it is not known. -/
def lifeless (p : Nat) (s : State) : State := (s.wr (R.RFM_LIFE_REMAIN p) 0xFFFFFFFF).wr (R.RFM_STAT_LIFE p) 3

theorem rd_lifeless_evt : (lifeless p s).rd R.RFM_EVT_BITS = s.rd R.RFM_EVT_BITS := by
  have h : ∀ n, R.RFM_EVT_BITS.key ≠ rfmBase p + n := fun n => (rfmBase_ne_low (by decide)).symm
  exact (rd_wr_ne _ _ (by rw [key_RFM_STAT_LIFE]; exact h _)).trans (rd_wr_ne _ _ (by rw [key_RFM_LIFE_REMAIN]; exact h _))

/-- A life that is not known raises no event of the module. -/
theorem updateLife_unknown {sender : Nat} (h : s.rd (R.RFM_STAT_IDENT_OK p) ≠ 1) : updateLife sender p s =
    if 3 = s.rd (R.RFM_STAT_LIFE p) then lifeless p s
    else (lifeless p s).logRec 0x0C01 p sender (3 :: le 4 (s.rd (R.RFM_HOURS_HOURS p))) := by
  have hoff : s.on (R.RFM_STAT_IDENT_OK p) = false := decide_eq_false h
  unfold updateLife lifeless
  simp only [hoff, Bool.false_and, Bool.not_false, if_true, if_false, Bool.false_eq_true]
  rfl

theorem rd_updateLife_evt {sender : Nat} (h : s.rd (R.RFM_STAT_IDENT_OK p) ≠ 1) : (updateLife sender p s).rd R.RFM_EVT_BITS = s.rd R.RFM_EVT_BITS := by
  rw [updateLife_unknown h]
  split
  · exact rd_lifeless_evt
  · refine Eq.trans ?_ (rd_lifeless_evt (p := p))
    exact (frame_logRec (fs := logFields) (ps := [.log]) (fun _ h => h) (by simp) (Frame.refl _ _ (lifeless p s))).rd (by decide) side_RFM_EVT_BITS

theorem rd_hoursDone {g : Field} {n : Nat} (hk : g.key = rfmBase p + n) (hn : n < 0x2000) (h1 : n ≠ 1152) (h2 : n ≠ 136) :
    (hoursDone p s).rd g = (setShown p s).rd g := by
  rw [hoursDone_eq, rd_endUnit]
  exact rd_updateLife hk hn h1 h2

theorem bit_hoursDone (h : s.rd (R.RFM_STAT_IDENT_OK p) ≠ 1) : bit ((hoursDone p s).rd R.RFM_EVT_BITS) (7 + 16 * p) = false := by
  rw [hoursDone_eq, rd_endUnit, setLived, rd_updateLife_evt (by rwa [rd_setShown_ident])]
  exact bit_setShown

end

theorem hoursWriteEnd_second_row (s : State) (p : Fin 2) (w : HoursWrite) (rest : List HoursJob) (hw : (s.rfmPort p.val).work = some w)
    (hj : (s.rfmPort p.val).jobs = rest) (hf : w.failed = false) (hjob : w.job = .setSecond) :
    ∃ t, Sys2Proof.Machine.exec (.hoursWriteEnd p true) s = .next t ∧
      (rest = [] → (t.rfmPort p.val).work = none ∧ (t.rfmPort p.val).jobs = []) ∧
      (∀ j js, rest = j :: js → (t.rfmPort p.val).work = some ((t.rfmPort p.val).nextWrite j) ∧ (t.rfmPort p.val).jobs = js) ∧
      t.rd (R.RFM_HOURS_CMD_DONE p.val) = 1 ∧ t.rd (R.RFM_HOURS_CMD_GO p.val) = 0 ∧ t.rd (R.RFM_STAT_HOURS_OK p.val) = 1 ∧
      (s.rd (R.RFM_STAT_IDENT_OK p.val) ≠ 1 → bit (t.rd R.RFM_EVT_BITS) (7 + 16 * p.val) = false) ∧
      Frame ([R.RFM_USE_SEQ p.val, R.RFM_HOURS_CMD_DONE p.val, R.RFM_HOURS_CMD_GO p.val, R.RFM_STAT_HOURS_OK p.val] ++ lifeFields p.val)
        [.rfm, .log, .fw] s t := by
  have hu : hoursWriteEnd p.val true s.begin = nextJob p.val (hoursDone p.val (noteWrite p.val w s.begin)) := by
    rw [hoursWriteEnd_ok (s := s.begin) hw hf, wroteFor, hjob]
  obtain ⟨t, e, k⟩ := go_ended_of hu
  have hdone : (hoursDone p.val (noteWrite p.val w s.begin)).rfmPort p.val = noted w (s.rfmPort p.val) :=
    (rfmPort_of_rfm hoursDone_rfm).trans (noteWrite_port w)
  have hrow := nextJob_row (p := p.val) (s := hoursDone p.val (noteWrite p.val w s.begin)) (by rw [hdone]; rfl)
  rw [hdone, ← rfmPort_of_rfm (p := p.val) k.rfm] at hrow
  obtain ⟨h1, h2, h3⟩ := setShown_rds (p := p.val) (s := noteWrite p.val w s.begin)
  have hrd : ∀ {g : Field} {n : Nat}, g.key = rfmBase p.val + n → n < 0x2000 → n ≠ 1152 → n ≠ 136 →
      t.rd g = (setShown p.val (noteWrite p.val w s.begin)).rd g := fun hk hn a b =>
    (k.rd (side_of_rfmBase hk hn)).trans ((rd_nextJob _ (side_of_rfmBase hk hn)).trans (rd_hoursDone hk hn a b))
  refine ⟨t, e, fun hr => hrow.idle (hj.trans hr), fun j js hr => hrow.next j js (hj.trans hr),
    (hrd (key_RFM_HOURS_CMD_DONE _) (by decide) (by decide) (by decide)).trans h1,
    (hrd (key_RFM_HOURS_CMD_GO _) (by decide) (by decide) (by decide)).trans h2,
    (hrd (key_RFM_STAT_HOURS_OK _) (by decide) (by decide) (by decide)).trans h3, ?_,
    k.frame (frame_nextJob (by simp) (frame_hoursDone (fun f hm => List.mem_cons_of_mem _ hm) (by simp) (by simp)
      (frame_noteWrite (by simp) (by simp) (frame_begin s))))⟩
  intro hid
  rw [k.rd side_RFM_EVT_BITS, rd_nextJob _ side_RFM_EVT_BITS]
  exact bit_hoursDone (by rw [rd_noteWrite w (by simp)]; exact hid)

theorem hoursWriteEnd_failed_row (s : State) (p : Fin 2) (w : HoursWrite) (rest : List HoursJob) (hw : (s.rfmPort p.val).work = some w)
    (hj : (s.rfmPort p.val).jobs = rest) (hf : w.failed = false) : ∃ t, Sys2Proof.Machine.exec (.hoursWriteEnd p false) s = .next t ∧
      (t.rfmPort p.val).work = some { w with failed := true, tried := true } ∧ (t.rfmPort p.val).jobs = rest ∧
      (w.tried = false → bit (t.rd R.RFM_EVT_BITS) (8 + 16 * p.val) = true) ∧ Frame [R.RFM_EVT_BITS] [.rfm] s t := by
  obtain ⟨t, e, k⟩ := go_ended_of (hoursWriteEnd_failed (s := s.begin) hw hf)
  have hevt : ∀ u : State, (rfmEvt p.val 8 u).rfm = u.rfm := fun u =>
    (frame_rfmEvt (fs := [R.RFM_EVT_BITS]) (ps := []) (by simp) (Frame.refl _ _ u)).2.1 .rfm (by simp) rfl
  have hrfm : t.rfm = (s.begin.modRfm p.val (working (some (failedWrite w)))).rfm := by
    rw [k.rfm]
    split
    · rfl
    · exact hevt _
  have hport := (rfmPort_of_rfm (p := p.val) hrfm).trans (rfmPort_modRfm _ _ _)
  have hframe : Frame [R.RFM_EVT_BITS] [.rfm] s (s.begin.modRfm p.val (working (some (failedWrite w)))) := frame_modRfm (by simp) (frame_begin s)
  refine ⟨t, e, congrArg RfmPort.work hport, (congrArg RfmPort.jobs hport).trans hj, fun ht => ?_,
    k.frame (frame_ite hframe (frame_rfmEvt (by simp) hframe))⟩
  rw [k.rd side_RFM_EVT_BITS, if_neg (by rw [ht]; decide)]
  exact bit_rfmEvt (by decide) p.isLt

end Sys2Proof.Machine
end

section
/-! PROOFS. HOURS_SET, the EFC code, and the edges of a module's PPS (R161, R169, R171). -/

namespace Sys2Proof.Machine

/-! ### HOURS_SET (R169) -/

section
variable {fs : List Field} {ps : List Part} {s₀ s : State} {p w : Nat}

/-- The port with who set its hours. -/
def setByOf (sender : Nat) (k : RfmPort) : RfmPort := { k with setBy := sender }

/-- The hours taken. -/
def hoursTaken (sender p : Nat) (s : State) : State :=
  ((((s.wr (R.RFM_HOURS_HOURS p) (s.rd (R.RFM_HOURS_SET_VALUE p))).lo (R.RFM_USE_MINUTES p)).modRfm p (setByOf sender)).hi (R.RFM_HOURS_CMD_GO p))

theorem hoursSet_refused {sender : Nat} (h : s.rfmState p = .empty ∨ s.rfmState p = .reading) :
    hoursSet sender p s = s.hi (R.RFM_HOURS_CMD_REFUSED p) := if_pos h

theorem hoursSet_taken {sender : Nat} (h1 : s.rfmState p ≠ .empty) (h2 : s.rfmState p ≠ .reading) :
    hoursSet sender p s = addJob p .setFirst (updateLife sender p (hoursTaken sender p s)) := if_neg fun h => h.elim h1 h2

theorem hoursTaken_port {sender : Nat} : (hoursTaken sender p s).rfmPort p = setByOf sender (s.rfmPort p) := rfmPort_modRfm _ _ _

theorem hoursTaken_rds {sender : Nat} : (hoursTaken sender p s).rd (R.RFM_HOURS_HOURS p) = s.rd (R.RFM_HOURS_SET_VALUE p) % 2 ^ 32 ∧
    (hoursTaken sender p s).rd (R.RFM_USE_MINUTES p) = 0 ∧ (hoursTaken sender p s).rd (R.RFM_HOURS_CMD_GO p) = 1 := by
  refine ⟨?_, ?_, rd_hi_same _ _⟩
  · rw [hoursTaken, rd_hi_ne _ (by simp), rd_modRfm, rd_lo_ne _ (by simp), rd_wr_same]; rfl
  · rw [hoursTaken, rd_hi_ne _ (by simp), rd_modRfm, rd_lo_same]

theorem frame_hoursTaken {sender : Nat} (hf : ∀ f ∈ [R.RFM_HOURS_HOURS p, R.RFM_USE_MINUTES p, R.RFM_HOURS_CMD_GO p], f ∈ fs) (hr : Part.rfm ∈ ps)
    (h : Frame fs ps s₀ s) : Frame fs ps s₀ (hoursTaken sender p s) :=
  frame_hi (hf _ (by simp)) (frame_modRfm hr (frame_lo (hf _ (by simp)) (frame_wr (hf _ (by simp)) h)))

/-- The command register as the write stores it. -/
def cmdStored (p w : Nat) (s : State) : State := s.storeReg false (Reg.RFM_HOURS_CMD p) ((R.RFM_HOURS_CMD_GO p).setIn w)

theorem frame_cmdStored (hf : ∀ f ∈ (Reg.RFM_HOURS_CMD p).fields, f ∈ fs) (h : Frame fs ps s₀ s) : Frame fs ps s₀ (cmdStored p w s) :=
  frame_storeReg (fun f hm => .inr (.inr (.inr (.inr (hf f hm))))) h

theorem rd_cmdStored {g : Field} {n : Nat} (hk : g.key = rfmBase p + n) (hn : n < 0x2000) (h : n < 1024) : (cmdStored p w s).rd g = s.rd g := by
  refine (frame_cmdStored (fs := (Reg.RFM_HOURS_CMD p).fields) (ps := []) (fun _ h => h) (Frame.refl _ _ s)).rd (fun f hf => ?_) (side_of_rfmBase hk hn)
  simp only [Reg.RFM_HOURS_CMD, List.mem_cons, List.not_mem_nil, or_false] at hf
  rw [hk]
  rcases hf with rfl | rfl | rfl
  · rw [key_RFM_HOURS_CMD_GO]; omega
  · rw [key_RFM_HOURS_CMD_DONE]; omega
  · rw [key_RFM_HOURS_CMD_REFUSED]; omega

theorem cmdStored_port : (cmdStored p w s).rfmPort p = s.rfmPort p :=
  rfmPort_of_rfm ((frame_cmdStored (fs := (Reg.RFM_HOURS_CMD p).fields) (ps := []) (fun _ h => h) (Frame.refl _ _ s)).2.1 .rfm (by simp) rfl)

theorem cmdStored_state : (cmdStored p w s).rfmState p = s.rfmState p := rfmState_of_rd (rd_cmdStored (key_RFM_STAT_STATE p) (by decide) (by decide))

theorem writeHoursCmd_go (sender : Nat) :
    writeHoursCmd sender p ((R.RFM_HOURS_CMD_GO p).setIn w) s = hoursSet sender p (cmdStored p w s) := by
  rw [writeHoursCmd, if_pos (Field.of_setIn _ _ rfl)]
  rfl

end

theorem hoursSetGo_row (s : State) (p : Fin 2) (w : Word) (h1 : s.rfmState p.val ≠ .empty) (h2 : s.rfmState p.val ≠ .reading) :
    ∃ t, Sys2Proof.Machine.exec (.hoursSetGo p w) s = .next t ∧
      t.rd (R.RFM_HOURS_HOURS p.val) = s.rd (R.RFM_HOURS_SET_VALUE p.val) % 2 ^ 32 ∧ t.rd (R.RFM_USE_MINUTES p.val) = 0 ∧
      t.rd (R.RFM_HOURS_CMD_GO p.val) = 1 ∧
      ((s.rfmPort p.val).work = none → (s.rfmPort p.val).jobs = [] →
        (t.rfmPort p.val).work = some ((s.rfmPort p.val).nextWrite .setFirst) ∧
        .eeprom p.val (copyAt (1 - (s.rfmPort p.val).lastCopy)) (t.hoursPage p.val ((s.rfmPort p.val).nextWrite .setFirst).seq) ∈ t.out) ∧
      ((s.rfmPort p.val).work ≠ none → (t.rfmPort p.val).jobs = (s.rfmPort p.val).jobs ++ [.setFirst]) ∧
      Frame ([R.RFM_HOURS_HOURS p.val, R.RFM_USE_MINUTES p.val] ++ (Reg.RFM_HOURS_CMD p.val).fields ++ lifeFields p.val) [.rfm, .log] s t := by
  obtain ⟨v, hv⟩ : ∃ v, hoursTaken 2 p.val (cmdStored p.val w.toNat s.begin) = v := ⟨_, rfl⟩
  have hstate : (cmdStored p.val w.toNat s.begin).rfmState p.val = s.rfmState p.val := cmdStored_state (s := s.begin)
  have hu : writeHoursCmd 2 p.val ((R.RFM_HOURS_CMD_GO p.val).setIn w.toNat) s.begin = addJob p.val .setFirst (updateLife 2 p.val v) := by
    rw [writeHoursCmd_go, hoursSet_taken (by rwa [hstate]) (by rwa [hstate]), hv]
  obtain ⟨t, e, k⟩ := go_ended_of hu
  have hport : (updateLife 2 p.val v).rfmPort p.val = setByOf 2 (s.rfmPort p.val) := by
    rw [rfmPort_of_rfm (updateLife_rfm 2), ← hv, hoursTaken_port, cmdStored_port]; rfl
  have htport := rfmPort_of_rfm (p := p.val) k.rfm
  have hset : (cmdStored p.val w.toNat s.begin).rd (R.RFM_HOURS_SET_VALUE p.val) = s.rd (R.RFM_HOURS_SET_VALUE p.val) :=
    rd_cmdStored (s := s.begin) (key_RFM_HOURS_SET_VALUE _) (by decide) (by decide)
  obtain ⟨h3, h4, h5⟩ := hoursTaken_rds (sender := 2) (p := p.val) (s := cmdStored p.val w.toNat s.begin)
  rw [hv] at h3 h4 h5
  have hadd : ∀ {g : Field} {n : Nat}, g.key = rfmBase p.val + n → n < 0x2000 → t.rd g = (updateLife 2 p.val v).rd g := fun hk hn =>
    (k.rd (side_of_rfmBase hk hn)).trans (rd_addJob _ _ (side_of_rfmBase hk hn))
  have hrd : ∀ {g : Field} {n : Nat}, g.key = rfmBase p.val + n → n < 0x2000 → n ≠ 1152 → n ≠ 136 → t.rd g = v.rd g := fun hk hn a b =>
    (hadd hk hn).trans (rd_updateLife hk hn a b)
  have hframe : Frame ([R.RFM_HOURS_HOURS p.val, R.RFM_USE_MINUTES p.val] ++ (Reg.RFM_HOURS_CMD p.val).fields ++ lifeFields p.val) [.rfm, .log] s v := by
    rw [← hv]
    refine frame_hoursTaken (fun f hf => ?_) (by simp) (frame_cmdStored (fun f hf => by simp [hf]) (frame_begin s))
    simp only [List.mem_cons, List.not_mem_nil, or_false] at hf
    rcases hf with rfl | rfl | rfl <;> simp [Reg.RFM_HOURS_CMD]
  refine ⟨t, e, (hrd (key_RFM_HOURS_HOURS _) (by decide) (by decide) (by decide)).trans (h3.trans (by rw [hset])),
    (hrd (key_RFM_USE_MINUTES _) (by decide) (by decide) (by decide)).trans h4,
    (hrd (key_RFM_HOURS_CMD_GO _) (by decide) (by decide) (by decide)).trans h5, ?_, ?_,
    k.frame (frame_addJob (by simp) (frame_updateLife (fun f hf => List.mem_append_right _ hf) (by simp) hframe))⟩
  · intro hw hj
    obtain ⟨hp, hout⟩ := addJob_begins (p := p.val) (s := updateLife 2 p.val v) .setFirst (by rw [hport]; exact hw) (by rw [hport]; exact hj)
    rw [hport] at hp hout
    refine ⟨(congrArg RfmPort.work (htport.trans hp)), k.out.subset ?_⟩
    rw [hoursPage_congr (s := updateLife 2 p.val v) (hadd (key_RFM_USE_MINUTES _) (by decide)) (hadd (key_RFM_HOURS_HOURS _) (by decide))
      (hadd (key_RFM_EFC_CODE _) (by decide))]
    exact hout
  · intro hw
    obtain ⟨x, hx⟩ := Option.ne_none_iff_exists'.1 hw
    rw [htport, addJob_waits (w := x) .setFirst (by rw [hport]; exact hx), rfmPort_modRfm, hport]
    rfl

theorem hoursSetGo_refused_row (s : State) (p : Fin 2) (w : Word) (h : s.rfmState p.val = .empty ∨ s.rfmState p.val = .reading) :
    ∃ t, Sys2Proof.Machine.exec (.hoursSetGo p w) s = .next t ∧ t.rd (R.RFM_HOURS_CMD_REFUSED p.val) = 1 ∧
      Frame (Reg.RFM_HOURS_CMD p.val).fields [] s t := by
  have hstate : (cmdStored p.val w.toNat s.begin).rfmState p.val = s.rfmState p.val := cmdStored_state (s := s.begin)
  have hu : writeHoursCmd 2 p.val ((R.RFM_HOURS_CMD_GO p.val).setIn w.toNat) s.begin =
      (cmdStored p.val w.toNat s.begin).hi (R.RFM_HOURS_CMD_REFUSED p.val) := by
    rw [writeHoursCmd_go, hoursSet_refused (by rwa [hstate])]
  obtain ⟨t, e, k⟩ := go_ended_of hu
  exact ⟨t, e, (k.rd (side_of_rfmBase (key_RFM_HOURS_CMD_REFUSED _) (by decide))).trans (rd_hi_same _ _),
    k.frame (frame_hi (by simp [Reg.RFM_HOURS_CMD]) (frame_cmdStored (fun f hf => hf) (frame_begin s)))⟩

/-! ### The EFC code (R164, R171) -/

section
variable {s : State} {p code : Nat}

/-- The code loaded, EFC_RAIL following it. -/
def efcLoaded (p code : Nat) (s : State) : State :=
  (s.wr (R.RFM_EFC_CODE p) code).wr (R.RFM_STAT_EFC_RAIL p) (if code = 0 ∨ code = 0xFFFFF then 1 else 0)

theorem frame_efcLoaded : Frame [R.RFM_EFC_CODE p, R.RFM_STAT_EFC_RAIL p, R.RFM_EVT_BITS] [] s (efcLoaded p code s.begin) :=
  frame_wr (by simp) (frame_wr (by simp) (frame_begin s))

theorem efcMode_host (hb : s.rd (R.RFM_STAT_IDENT_OK p) = 1 ∨ s.rfmState p = .empty ∨ s.rfmState p = .reading)
    (hm : s.rd (R.RFM_CFG_EFC_MODE p) = 1) : s.efcMode p = 1 := by
  have hgood : s.badRecord p = false := by
    unfold State.badRecord
    rcases hb with h | h | h
    · rw [on_of_rd h]; simp
    · rw [h]; rfl
    · rw [h]; simp
  rw [State.efcMode, hgood, hm]
  rfl

theorem efcMode_not_host (h : (s.rd (R.RFM_STAT_IDENT_OK p) ≠ 1 ∧ s.rfmState p ≠ .empty ∧ s.rfmState p ≠ .reading) ∨
    s.rd (R.RFM_CFG_EFC_MODE p) ≠ 1) : s.efcMode p ≠ 1 := by
  unfold State.efcMode
  split
  · decide
  · next hn =>
    rcases h with ⟨hid, h1, h2⟩ | h
    · refine absurd ?_ hn
      have hoff : s.on (R.RFM_STAT_IDENT_OK p) = false := decide_eq_false hid
      rw [State.badRecord, hoff]
      simp [h1, h2]
    · exact h

theorem rd_efcLoaded_rail : (efcLoaded p code s).rd (R.RFM_STAT_EFC_RAIL p) = b01 (decide (code = 0 ∨ code = 0xFFFFF)) := by
  refine (rd_wr_same _ _ _).trans ?_
  by_cases h : code = 0 ∨ code = 0xFFFFF
  · rw [if_pos h, decide_eq_true h]; rfl
  · rw [if_neg h, decide_eq_false h]; rfl

theorem rd_efcLoaded_code (hc : code < 2 ^ 20) : (efcLoaded p code s).rd (R.RFM_EFC_CODE p) = code :=
  (rd_wr_ne _ _ (by simp)).trans ((rd_wr_same _ _ _).trans (Nat.mod_eq_of_lt hc))

/-- A code that newly reaches a rail. -/
theorem setEfc_rails (h : code = 0 ∨ code = 0xFFFFF) (hn : s.rd (R.RFM_EFC_CODE p) ≠ code ∨ s.rd (R.RFM_STAT_EFC_RAIL p) ≠ 1) :
    setEfc p code s = rfmEvt p 12 (efcLoaded p code s) :=
  if_pos ⟨h, fun ht => hn.elim (fun h => h ht.1) fun h => h (of_decide_eq_true ht.2)⟩

theorem setEfc_cases : setEfc p code s = rfmEvt p 12 (efcLoaded p code s) ∨ setEfc p code s = efcLoaded p code s := by
  unfold setEfc
  dsimp only
  split
  · exact .inl rfl
  · exact .inr rfl

/-- The port's registers stand as the code is loaded. -/
theorem rd_setEfc {g : Field} {n : Nat} (hk : g.key = rfmBase p + n) (hn : n < 0x2000) : (setEfc p code s).rd g = (efcLoaded p code s).rd g := by
  rcases setEfc_cases (p := p) (code := code) (s := s) with h | h
  · rw [h]
    exact rd_rfmEvt (side_of_rfmBase hk hn) (by rw [hk]; exact rfmBase_ne_low (by decide))
  · rw [h]

end

theorem efcWrite_row (s : State) (p : Fin 2) (w : Word) (hb : s.rd (R.RFM_STAT_IDENT_OK p.val) = 1 ∨ s.rfmState p.val = .empty ∨
    s.rfmState p.val = .reading) (hm : s.rd (R.RFM_CFG_EFC_MODE p.val) = 1) : ∃ t, Sys2Proof.Machine.exec (.efcWrite p w) s = .next t ∧
      t.rd (R.RFM_EFC_CODE p.val) = w.toNat % 2 ^ 20 ∧
      ((w.toNat % 2 ^ 20 = 0 ∨ w.toNat % 2 ^ 20 = 0xFFFFF) →
        (s.rd (R.RFM_EFC_CODE p.val) ≠ w.toNat % 2 ^ 20 ∨ s.rd (R.RFM_STAT_EFC_RAIL p.val) ≠ 1) →
        bit (t.rd R.RFM_EVT_BITS) (12 + 16 * p.val) = true) ∧
      (t.rd (R.RFM_STAT_EFC_RAIL p.val) = b01 (decide (w.toNat % 2 ^ 20 = 0 ∨ w.toNat % 2 ^ 20 = 0xFFFFF))) ∧
      Frame [R.RFM_EFC_CODE p.val, R.RFM_STAT_EFC_RAIL p.val, R.RFM_EVT_BITS] [] s t := by
  have hu : writeEfc p.val w.toNat s.begin = setEfc p.val (w.toNat % 2 ^ 20) s.begin := if_pos (efcMode_host (s := s.begin) hb hm)
  have hc : w.toNat % 2 ^ 20 < 2 ^ 20 := Nat.mod_lt _ (by decide)
  generalize w.toNat % 2 ^ 20 = code at hu hc ⊢
  obtain ⟨t, e, k⟩ := go_ended_of hu
  refine ⟨t, e, ?_, fun h hn => ?_, ?_, k.frame ?_⟩
  · exact (k.rd (side_of_rfmBase (key_RFM_EFC_CODE _) (by decide))).trans ((rd_setEfc (key_RFM_EFC_CODE _) (by decide)).trans (rd_efcLoaded_code hc))
  · rw [k.rd side_RFM_EVT_BITS, setEfc_rails (s := s.begin) h hn]
    exact bit_rfmEvt (by decide) p.isLt
  · exact (k.rd (side_of_rfmBase (key_RFM_STAT_EFC_RAIL _) (by decide))).trans
      ((rd_setEfc (key_RFM_STAT_EFC_RAIL _) (by decide)).trans rd_efcLoaded_rail)
  · rcases setEfc_cases (p := p.val) (code := code) (s := s.begin) with h | h
    · rw [h]
      exact frame_rfmEvt (by simp) frame_efcLoaded
    · rw [h]
      exact frame_efcLoaded

theorem efcWrite_ignored_row (s : State) (p : Fin 2) (w : Word) (h : (s.rd (R.RFM_STAT_IDENT_OK p.val) ≠ 1 ∧ s.rfmState p.val ≠ .empty ∧
    s.rfmState p.val ≠ .reading) ∨ s.rd (R.RFM_CFG_EFC_MODE p.val) ≠ 1) :
    ∃ t, Sys2Proof.Machine.exec (.efcWrite p w) s = .next t ∧ Frame [] [] s t := by
  have hu : writeEfc p.val w.toNat s.begin = s.begin := if_neg (efcMode_not_host (s := s.begin) h)
  obtain ⟨t, e, k⟩ := go_ended_of hu
  exact ⟨t, e, k.frame (frame_begin s)⟩

/-! ### The edges of a PPS (R161) -/

section
variable {s : State} {p t : Nat}

theorem ppsEdge_first (h : (s.rfmPort p).ppsAt = none) : ppsEdge p t s = takePps p t (s.ppsSecond p t) s := by
  unfold ppsEdge
  dsimp only
  rw [h]

/-- An edge counted as extra. -/
def extraCounted (p : Nat) (s : State) : State :=
  rfmEvt p 13 (s.wr (R.RFM_PPS_EXTRA_EXTRA p) (satNat 16 (s.rd (R.RFM_PPS_EXTRA_EXTRA p) + 1)))

theorem ppsEdge_extra {l : Nat} (h : (s.rfmPort p).ppsAt = some l) (hn : s.clkOf t < l + ms16 900) : ppsEdge p t s = extraCounted p s := by
  unfold ppsEdge
  dsimp only
  rw [h]
  exact if_pos (decide_eq_true hn)

theorem ppsEdge_next {l : Nat} (h : (s.rfmPort p).ppsAt = some l) (hn : l + ms16 900 ≤ s.clkOf t) (hs : s.ppsSecond p t ≠ (s.rfmPort p).ppsSec) :
    ppsEdge p t s = takePps p t (s.ppsSecond p t) s := by
  unfold ppsEdge
  dsimp only
  rw [h]
  dsimp only
  rw [if_neg (show ¬ decide (s.clkOf t < l + ms16 900) = true by simpa using hn), if_neg hs]

theorem ppsEdge_same {l : Nat} (h : (s.rfmPort p).ppsAt = some l) (hn : l + ms16 900 ≤ s.clkOf t) (hs : s.ppsSecond p t = (s.rfmPort p).ppsSec) :
    ppsEdge p t s = s := by
  unfold ppsEdge
  dsimp only
  rw [h]
  dsimp only
  rw [if_neg (show ¬ decide (s.clkOf t < l + ms16 900) = true by simpa using hn), if_pos hs]

end

/-- What the state in which an edge is captured shows of the one the statement speaks of. -/
structure PpsView (s : State) (p dc bin : Nat) : Prop where
  time : ppsTime p (s.coarseNow + dc) bin (s.begin.waitTick (tickOfCoarse (s.coarseNow + dc))) =
    ppsTime p (s.coarseNow + dc) bin (s.waitTick (tickOfCoarse (s.coarseNow + dc)))
  clkOf : ∀ x, (ppsAt p dc bin s).clkOf x = (s.waitTick (tickOfCoarse (s.coarseNow + dc))).clkOf x
  second : ∀ x, (ppsAt p dc bin s).ppsSecond p x = (s.waitTick (tickOfCoarse (s.coarseNow + dc))).ppsSecond p x
  port : (ppsAt p dc bin s).rfmPort p = s.rfmPort p
  slot : (s.begin.waitTick (tickOfCoarse (s.coarseNow + dc))).slot (p + 2) = s.slot (p + 2)
  begun : ∀ x, (s.begin.waitTick (tickOfCoarse (s.coarseNow + dc))).clkOf x = (s.waitTick (tickOfCoarse (s.coarseNow + dc))).clkOf x

theorem ppsView (s : State) (p dc bin : Nat) : PpsView s p dc bin := by
  have ha := alike_waitTick s (tickOfCoarse (s.coarseNow + dc))
  have hb : Frame [] [.tick, .lanes] s (s.begin.waitTick (tickOfCoarse (s.coarseNow + dc))) := frame_advance (by simp) (by simp) (frame_begin s)
  refine ⟨?_, fun x => ha.clkOf x, fun x => ha.ppsSecond p x, rfmPort_of_rfm ((frame_ppsAt dc bin).2.1 .rfm (by simp) rfl), ?_, fun x => ha.clkOf x⟩
  · exact congrArg Edge.time (ha.capture (by omega) _ _ _)
  · have hens : (s.begin.waitTick (tickOfCoarse (s.coarseNow + dc))).ens = s.ens := hb.2.1 .ens (by simp) rfl
    rw [State.slot, State.slot, hens]

theorem slot_of_ens {s u : State} (h : u.ens = s.ens) (i : Nat) : u.slot i = s.slot i := by rw [State.slot, State.slot, h]

section
variable {s : State} {p : Fin 2} {dc : Nat} {bin : Fin 64}

theorem modulePps_edge (hst : s.rfmState p.val = .ready) : modulePps p.val dc bin.val s.begin =
    ppsEdge p.val (ppsTime p.val (s.coarseNow + dc) bin.val (s.waitTick (tickOfCoarse (s.coarseNow + dc)))) (ppsAt p.val dc bin.val s) := by
  rw [modulePps_ready hst, (ppsView s p.val dc bin.val).time]

/-- An edge that is the first of its second. -/
theorem modulePps_taken (hst : s.rfmState p.val = .ready) :
    let u : State := s.waitTick (tickOfCoarse (s.coarseNow + dc))
    let e : Nat := (u.capture (80 + p.val) (s.coarseNow + dc) bin.val false).time
    ppsEdge p.val e (ppsAt p.val dc bin.val s) = takePps p.val e ((ppsAt p.val dc bin.val s).ppsSecond p.val e) (ppsAt p.val dc bin.val s) →
    ∃ t, Sys2Proof.Machine.exec (.modulePps p dc bin) s = .next t ∧
      t.tick = u.tick ∧
      (t.rfmPort p.val).ppsAt = some (u.clkOf e) ∧
      (t.rfmPort p.val).ppsSec = u.ppsSecond p.val e ∧
      (t.slot (p.val + 2)).inbox.length = (s.slot (p.val + 2)).inbox.length + 1 ∧
      (t.slot (p.val + 2)).inbox.getLast?.map (·.t) = some (u.clkOf e) ∧
      Frame [] [.tick, .lanes, .tim, .rfm, .ens] s t := by
  intro u e h
  have hv := ppsView s p.val dc bin.val
  rw [hv.second] at h
  obtain ⟨t, ht, k⟩ := go_ended_of ((modulePps_edge (bin := bin) hst).trans h)
  obtain ⟨h1, h2, h3, h4⟩ := takePps_row (u := s.begin.waitTick (tickOfCoarse (s.coarseNow + dc))) (p := p.val)
    ((s.begin.waitTick (tickOfCoarse (s.coarseNow + dc))).capture (80 + p.val) (s.coarseNow + dc) bin.val false) e (u.ppsSecond p.val e)
  rw [hv.begun] at h1 h4
  rw [hv.slot] at h3
  have hport := rfmPort_of_rfm (p := p.val) k.rfm
  have hslot := slot_of_ens k.ens (p.val + 2)
  exact ⟨t, ht, k.tick.trans (ppsAt_tick (p := p.val) dc bin.val), (congrArg RfmPort.ppsAt hport).trans h1, (congrArg RfmPort.ppsSec hport).trans h2,
    (congrArg (fun k : Slot => k.inbox.length) hslot).trans h3, (congrArg (fun k : Slot => k.inbox.getLast?.map (·.t)) hslot).trans h4,
    k.frame (frame_takePps _ _ (by simp) (by simp) ((frame_ppsAt dc bin.val).mono (by simp) (by simp)))⟩

end

theorem modulePps_first_row (s : State) (p : Fin 2) (dc : Nat) (bin : Fin 64) :
    let u : State := s.waitTick (tickOfCoarse (s.coarseNow + dc))
    let e : Nat := (u.capture (80 + p.val) (s.coarseNow + dc) bin.val false).time
    s.rfmState p.val = .ready → (s.rfmPort p.val).ppsAt = none →
    ∃ t, Sys2Proof.Machine.exec (.modulePps p dc bin) s = .next t ∧
      t.tick = u.tick ∧
      (t.rfmPort p.val).ppsAt = some (u.clkOf e) ∧
      (t.rfmPort p.val).ppsSec = u.ppsSecond p.val e ∧
      (t.slot (p.val + 2)).inbox.length = (s.slot (p.val + 2)).inbox.length + 1 ∧
      (t.slot (p.val + 2)).inbox.getLast?.map (·.t) = some (u.clkOf e) ∧
      Frame [] [.tick, .lanes, .tim, .rfm, .ens] s t := by
  intro u e hst hnone
  exact modulePps_taken hst (ppsEdge_first (by rw [(ppsView s p.val dc bin.val).port]; exact hnone))

theorem modulePps_extra_row (s : State) (p : Fin 2) (dc : Nat) (bin : Fin 64) (last : Nat) :
    let u : State := s.waitTick (tickOfCoarse (s.coarseNow + dc))
    let e : Nat := (u.capture (80 + p.val) (s.coarseNow + dc) bin.val false).time
    s.rfmState p.val = .ready → (s.rfmPort p.val).ppsAt = some last → u.clkOf e < last + ms16 900 →
    ∃ t, Sys2Proof.Machine.exec (.modulePps p dc bin) s = .next t ∧
      t.tick = u.tick ∧
      t.rd (R.RFM_PPS_EXTRA_EXTRA p.val) = satNat 16 (s.rd (R.RFM_PPS_EXTRA_EXTRA p.val) + 1) ∧
      bit (t.rd R.RFM_EVT_BITS) (13 + 16 * p.val) = true ∧
      Frame [R.RFM_PPS_EXTRA_EXTRA p.val, R.RFM_EVT_BITS] [.tick, .lanes, .tim] s t := by
  intro u e hst hlast hnear
  have hv := ppsView s p.val dc bin.val
  have hu : modulePps p.val dc bin.val s.begin = extraCounted p.val (ppsAt p.val dc bin.val s) :=
    (modulePps_edge hst).trans (ppsEdge_extra (by rw [hv.port]; exact hlast) (by rw [hv.clkOf]; exact hnear))
  obtain ⟨t, ht, k⟩ := go_ended_of hu
  have hside := side_of_rfmBase (key_RFM_PPS_EXTRA_EXTRA p.val) (by decide)
  have hframe : Frame [R.RFM_PPS_EXTRA_EXTRA p.val, R.RFM_EVT_BITS] [.tick, .lanes, .tim] s (extraCounted p.val (ppsAt p.val dc bin.val s)) :=
    frame_rfmEvt (by simp) (frame_wr (by simp) ((frame_ppsAt dc bin.val).mono (by simp) (by simp)))
  have hrd : (ppsAt p.val dc bin.val s).rd (R.RFM_PPS_EXTRA_EXTRA p.val) = s.rd (R.RFM_PPS_EXTRA_EXTRA p.val) :=
    (frame_ppsAt dc bin.val).rd (by simp) hside
  have htick : (extraCounted p.val (ppsAt p.val dc bin.val s)).tick = (ppsAt p.val dc bin.val s).tick :=
    (frame_rfmEvt (fs := [R.RFM_PPS_EXTRA_EXTRA p.val, R.RFM_EVT_BITS]) (ps := []) (by simp) (frame_wr (by simp) (Frame.refl _ _ _))).2.1 .tick
      (by simp) rfl
  have hsat : ∀ n, satNat 16 n < 2 ^ 16 := fun n => by unfold satNat; split <;> omega
  refine ⟨t, ht, k.tick.trans (htick.trans (ppsAt_tick (p := p.val) dc bin.val)), ?_, ?_, k.frame hframe⟩
  · rw [k.rd hside, extraCounted, rd_rfmEvt hside (by rw [key_RFM_PPS_EXTRA_EXTRA]; exact rfmBase_ne_low (by decide)), rd_wr_same, hrd]
    exact Nat.mod_eq_of_lt (hsat _)
  · rw [k.rd side_RFM_EVT_BITS]
    exact bit_rfmEvt (by decide) p.isLt

theorem modulePps_next_row (s : State) (p : Fin 2) (dc : Nat) (bin : Fin 64) (last : Nat) :
    let u : State := s.waitTick (tickOfCoarse (s.coarseNow + dc))
    let e : Nat := (u.capture (80 + p.val) (s.coarseNow + dc) bin.val false).time
    s.rfmState p.val = .ready → (s.rfmPort p.val).ppsAt = some last → last + ms16 900 ≤ u.clkOf e →
    u.ppsSecond p.val e ≠ (s.rfmPort p.val).ppsSec →
    ∃ t, Sys2Proof.Machine.exec (.modulePps p dc bin) s = .next t ∧
      t.tick = u.tick ∧
      (t.rfmPort p.val).ppsAt = some (u.clkOf e) ∧
      (t.rfmPort p.val).ppsSec = u.ppsSecond p.val e ∧
      (t.slot (p.val + 2)).inbox.length = (s.slot (p.val + 2)).inbox.length + 1 ∧
      Frame [] [.tick, .lanes, .tim, .rfm, .ens] s t := by
  intro u e hst hlast hfar hsec
  have hv := ppsView s p.val dc bin.val
  obtain ⟨t, ht, htick, hat, hsecond, hlen, -, hframe⟩ := modulePps_taken hst
    (ppsEdge_next (by rw [hv.port]; exact hlast) (by rw [hv.clkOf]; exact hfar) (by rw [hv.second, hv.port]; exact hsec))
  exact ⟨t, ht, htick, hat, hsecond, hlen, hframe⟩

theorem modulePps_same_row (s : State) (p : Fin 2) (dc : Nat) (bin : Fin 64) (last : Nat) :
    let u : State := s.waitTick (tickOfCoarse (s.coarseNow + dc))
    let e : Nat := (u.capture (80 + p.val) (s.coarseNow + dc) bin.val false).time
    s.rfmState p.val = .ready → (s.rfmPort p.val).ppsAt = some last → last + ms16 900 ≤ u.clkOf e →
    u.ppsSecond p.val e = (s.rfmPort p.val).ppsSec →
    ∃ t, Sys2Proof.Machine.exec (.modulePps p dc bin) s = .next t ∧ t.tick = u.tick ∧ Frame [] [.tick, .lanes, .tim] s t := by
  intro u e hst hlast hfar hsec
  have hv := ppsView s p.val dc bin.val
  obtain ⟨t, ht, k⟩ := go_ended_of ((modulePps_edge (bin := bin) hst).trans
    (ppsEdge_same (by rw [hv.port]; exact hlast) (by rw [hv.clkOf]; exact hfar) (by rw [hv.second, hv.port]; exact hsec)))
  exact ⟨t, ht, k.tick.trans (ppsAt_tick (p := p.val) dc bin.val), k.frame (frame_ppsAt dc bin.val)⟩

theorem modulePps_captured_row (s : State) (p : Fin 2) (dc : Nat) (bin : Fin 64) (h : s.rfmState p.val = .warming ∨ s.rfmState p.val = .alarm) :
    ∃ t, Sys2Proof.Machine.exec (.modulePps p dc bin) s = .next t ∧
      t.tick = (s.waitTick (tickOfCoarse (s.coarseNow + dc))).tick ∧ Frame [] [.tick, .lanes, .tim] s t := by
  obtain ⟨t, ht, k⟩ := go_ended_of (modulePps_captured (dc := dc) (bin := bin.val) h)
  exact ⟨t, ht, k.tick.trans (ppsAt_tick (p := p.val) dc bin.val), k.frame (frame_ppsAt dc bin.val)⟩

theorem modulePps_gated_row (s : State) (p : Fin 2) (dc : Nat) (bin : Fin 64)
    (h : s.rfmState p.val = .empty ∨ s.rfmState p.val = .reading ∨ s.rfmState p.val = .parked) :
    ∃ t, Sys2Proof.Machine.exec (.modulePps p dc bin) s = .next t ∧ Frame [] [] s t := by
  obtain ⟨t, ht, k⟩ := go_ended_of (modulePps_gated (s := s.begin) (dc := dc) (bin := bin.val) h)
  exact ⟨t, ht, k.frame (frame_begin s)⟩

end Sys2Proof.Machine
end

section
/-! PROOFS. The measurement of a module's clock (R157, R158, R160), and the module's hours and EFC settled. -/

namespace Sys2Proof.Machine

section
variable {fs : List Field} {ps : List Part} {s₀ s : State} {p : Nat}

/-! ### CANDIDATE and the state READY -/

/-- CANDIDATE shows the state and CLK_OK. -/
def State.candidateShown (s : State) (p : Nat) : Prop :=
  s.rd (R.RFM_STAT_CANDIDATE p) = b01 (decide (s.rfmState p = .ready ∧ s.rd (R.RFM_STAT_CLK_OK p) = 1))

theorem setCandidate_state : (setCandidate p s).rfmState p = s.rfmState p :=
  rfmState_of_rd (rd_setCandidate (key_RFM_STAT_STATE p) (by decide) (by decide))

theorem setCandidate_shown : (setCandidate p s).candidateShown p := by
  have hok : (setCandidate p s).rd (R.RFM_STAT_CLK_OK p) = s.rd (R.RFM_STAT_CLK_OK p) :=
    rd_setCandidate (key_RFM_STAT_CLK_OK p) (by decide) (by decide)
  rw [State.candidateShown, setCandidate_state, hok]
  exact rd_setCandidate_same

/-- The measured frequencies stand. -/
theorem setCandidate_clockHz : (setCandidate p s).ens.clockHz = s.ens.clockHz := by
  unfold setCandidate
  dsimp only
  split
  · split <;> rfl
  · split <;> rfl

/-- The port once its warm-up has ended. -/
def warmEnded (k : RfmPort) : RfmPort := { k with warmEnd := true }

/-- The registers of a port in READY. -/
def readyShown (p : Nat) (s : State) : State :=
  ((s.modRfm p warmEnded).wr (R.RFM_STAT_STATE p) Rfm.ready.code).wr (R.RFM_STAT_PARKED p) 0

theorem enterReady_eq : enterReady p s = rfmEvt p 2 (setCandidate p (readyShown p s)) := rfl

theorem frame_enterReady (hf : ∀ f ∈ rfmStateFields p, f ∈ fs) (he : Part.ens ∈ ps) (hr : Part.rfm ∈ ps) (h : Frame fs ps s₀ s) :
    Frame fs ps s₀ (enterReady p s) := frame_rfmEvt (hf _ (by simp)) (frame_setRfm hf he hr (frame_modRfm hr h))

theorem rd_enterReady {g : Field} {n : Nat} (hk : g.key = rfmBase p + n) (hn : n < 0x2000) : (enterReady p s).rd g =
    (setCandidate p (readyShown p s)).rd g := by
  rw [enterReady_eq]
  exact rd_rfmEvt (side_of_rfmBase hk hn) (by rw [hk]; exact rfmBase_ne_low (by decide))

theorem enterReady_state : (enterReady p s).rfmState p = .ready :=
  (rfmState_of_rd (rd_enterReady (key_RFM_STAT_STATE p) (by decide))).trans (rfmState_setRfm (s := s.modRfm p warmEnded) .ready)

theorem enterReady_clkOk : (enterReady p s).rd (R.RFM_STAT_CLK_OK p) = s.rd (R.RFM_STAT_CLK_OK p) := by
  rw [rd_enterReady (key_RFM_STAT_CLK_OK p) (by decide), rd_setCandidate (key_RFM_STAT_CLK_OK p) (by decide) (by decide), readyShown,
    rd_wr_ne _ _ (by simp), rd_wr_ne _ _ (by simp), rd_modRfm]

theorem enterReady_shown : (enterReady p s).candidateShown p := by
  have h := setCandidate_shown (p := p) (s := readyShown p s)
  rw [State.candidateShown, ← rd_enterReady (key_RFM_STAT_CANDIDATE p) (by decide), ← rd_enterReady (key_RFM_STAT_CLK_OK p) (by decide),
    ← rfmState_of_rd (rd_enterReady (p := p) (key_RFM_STAT_STATE p) (by decide))] at h
  exact h

theorem rfmEvt_parts (b : Nat) : (rfmEvt p b s).rfm = s.rfm ∧ (rfmEvt p b s).ens = s.ens :=
  have h : Frame [R.RFM_EVT_BITS] [] s (rfmEvt p b s) := frame_rfmEvt (by simp) (Frame.refl _ _ s)
  ⟨h.2.1 .rfm (by simp) rfl, h.2.1 .ens (by simp) rfl⟩

theorem enterReady_port : (enterReady p s).rfmPort p = warmEnded (s.rfmPort p) := by
  have h : (enterReady p s).rfm = (readyShown p s).rfm := (rfmEvt_parts 2).1.trans setCandidate_rfm
  rw [rfmPort_of_rfm h]
  exact rfmPort_modRfm s p warmEnded

theorem enterReady_clockHz : (enterReady p s).ens.clockHz = s.ens.clockHz :=
  (congrArg Ens.clockHz (rfmEvt_parts 2).2).trans setCandidate_clockHz

/-! ### The end of the warm-up -/

/-- What the end of the warm-up waits for besides the state. -/
def State.warmOver (s : State) (p : Nat) : Prop :=
  s.rd (R.RFM_STAT_ALM p) ≠ 1 ∧ s.rd (R.RFM_STAT_CLK_OK p) = 1 ∧ (s.rfmPort p).warmFrom ≠ none ∧
    (s.rfmPort p).warmFrom.getD 0 + (sec16 (s.warmSecs p) : Nat) ≤ (s.clk : Int)

theorem warmReady_enters (hs : s.rfmState p = .warming) (h : s.warmOver p) : warmReady p s = enterReady p s := by
  obtain ⟨halm, hok, hfrom, hover⟩ := h
  obtain ⟨x, hx⟩ := Option.ne_none_iff_exists'.1 hfrom
  rw [hx] at hover
  unfold warmReady
  rw [hx]
  exact if_pos ⟨hs, decide_eq_false halm, decide_eq_true hok, hover⟩

theorem warmReady_stays (h : ¬(s.rfmState p = .warming ∧ s.warmOver p)) : warmReady p s = s := by
  unfold warmReady
  split
  · next x hx =>
    refine if_neg fun ⟨hs, halm, hok, hover⟩ => h ⟨hs, of_decide_eq_false halm, of_decide_eq_true hok, ?_, ?_⟩
    · rw [hx]; simp
    · rw [hx]; exact hover
  · rfl

theorem frame_warmReady (hf : ∀ f ∈ rfmStateFields p, f ∈ fs) (he : Part.ens ∈ ps) (hr : Part.rfm ∈ ps) (h : Frame fs ps s₀ s) :
    Frame fs ps s₀ (warmReady p s) := by
  unfold warmReady
  split
  · exact frame_ite (frame_enterReady hf he hr h) h
  · exact h

theorem warmReady_clkOk : (warmReady p s).rd (R.RFM_STAT_CLK_OK p) = s.rd (R.RFM_STAT_CLK_OK p) := by
  by_cases h : s.rfmState p = .warming ∧ s.warmOver p
  · rw [warmReady_enters h.1 h.2, enterReady_clkOk]
  · rw [warmReady_stays h]

theorem warmReady_shown (hs : s.candidateShown p) : (warmReady p s).candidateShown p := by
  by_cases h : s.rfmState p = .warming ∧ s.warmOver p
  · rw [warmReady_enters h.1 h.2]
    exact enterReady_shown
  · rwa [warmReady_stays h]

theorem warmReady_clockHz : (warmReady p s).ens.clockHz = s.ens.clockHz := by
  by_cases h : s.rfmState p = .warming ∧ s.warmOver p
  · rw [warmReady_enters h.1 h.2, enterReady_clockHz]
  · rw [warmReady_stays h]

theorem warmReady_port : (warmReady p s).rfmPort p = s.rfmPort p ∨ (warmReady p s).rfmPort p = warmEnded (s.rfmPort p) := by
  by_cases h : s.rfmState p = .warming ∧ s.warmOver p
  · rw [warmReady_enters h.1 h.2, enterReady_port]
    exact .inr rfl
  · rw [warmReady_stays h]
    exact .inl rfl

theorem warmReady_state [Decidable (s.rfmState p = .ready ∨ s.warmOver p)] (h : s.rfmState p = .warming ∨ s.rfmState p = .ready) :
    (warmReady p s).rfmState p = if s.rfmState p = .ready ∨ s.warmOver p then .ready else .warming := by
  by_cases ho : s.rfmState p = .warming ∧ s.warmOver p
  · rw [warmReady_enters ho.1 ho.2, enterReady_state, if_pos (.inr ho.2)]
  · rw [warmReady_stays ho]
    rcases h with h | h
    · rw [if_neg (fun hn => hn.elim (fun hr => by rw [h] at hr; cases hr) fun hw => ho ⟨h, hw⟩), h]
    · rw [if_pos (.inl h), h]

/-! ### A measurement (R160) -/

/-- CLK_OK as a deviation within 5 ppm sets it. -/
def clkJudged (p n : Nat) (s : State) : State := s.wr (R.RFM_STAT_CLK_OK p) (b01 (decide (|s.clockDev p n| ≤ mkRat 5 1000000)))

theorem judgeClock_eq {n : Nat} (h : (s.rfmPort p).hz = some n) : judgeClock p s = warmReady p (setCandidate p (clkJudged p n s)) := by
  unfold judgeClock
  rw [h]
  rfl

theorem rfmPort_wr (s : State) (f : Field) (v p : Nat) : (s.wr f v).rfmPort p = s.rfmPort p := rfl

theorem clkJudged_port (n : Nat) : (clkJudged p n s).rfmPort p = s.rfmPort p := rfmPort_wr _ _ _ _

theorem rd_clkJudged (n : Nat) : (clkJudged p n s).rd (R.RFM_STAT_CLK_OK p) = if |s.clockDev p n| ≤ 5 / 1000000 then 1 else 0 := by
  have hppm : (mkRat 5 1000000 : Rat) = 5 / 1000000 := by rw [Rat.mkRat_eq_div]; norm_num
  refine (rd_wr_same _ _ _).trans ?_
  rw [hppm]
  by_cases h : |s.clockDev p n| ≤ 5 / 1000000
  · rw [if_pos h, decide_eq_true h]; rfl
  · rw [if_neg h, decide_eq_false h]; rfl

/-- The port with a measurement taken. -/
def measured (clk n : Nat) (k : RfmPort) : RfmPort :=
  { k with hz := some n, freqs := (clk, n) :: k.freqs.filter (fun q => decide (clk < q.1 + sec16 64)) }

/-- A measurement kept. -/
def hzTaken (p n : Nat) (s : State) : State := (keepHz (p + 1) n s).modRfm p (measured s.clk n)

theorem frame_keepHz {c n : Nat} (he : Part.ens ∈ ps) (h : Frame fs ps s₀ s) : Frame fs ps s₀ (keepHz c n s) := frame_set_ens he h

theorem frame_hzTaken {n : Nat} (he : Part.ens ∈ ps) (hr : Part.rfm ∈ ps) (h : Frame fs ps s₀ s) : Frame fs ps s₀ (hzTaken p n s) :=
  frame_modRfm hr (frame_keepHz he h)

theorem keepHz_clockHz (c n : Nat) : IMap.get none (keepHz c n s).ens.clockHz c = some n := IMap.get_put_same none s.ens.clockHz c (some n)

theorem clockMeasure_judges {n : Nat} (h : s.rfmState p = .warming ∨ s.rfmState p = .ready) :
    clockMeasure (p + 1) n s = judgeClock p (hzTaken p n s) := by
  unfold clockMeasure
  dsimp only
  rw [if_neg (Nat.succ_ne_zero p), Nat.add_sub_cancel, if_pos h]
  rfl

theorem clockMeasure_gated {n : Nat} (h1 : s.rfmState p ≠ .warming) (h2 : s.rfmState p ≠ .ready) : clockMeasure (p + 1) n s = s := by
  unfold clockMeasure
  dsimp only
  rw [if_neg (Nat.succ_ne_zero p), Nat.add_sub_cancel, if_neg fun h => h.elim h1 h2]

theorem declaredHz_hzTaken (n : Nat) : (hzTaken p n s.begin).declaredHz p = s.declaredHz p := rfl

theorem clockDev_hzTaken (n : Nat) : (hzTaken p n s.begin).clockDev p n = s.clockDev p n := by
  unfold State.clockDev
  rw [declaredHz_hzTaken]

/-- The span of the warm-up, away from READING, follows the record and the default. -/
theorem warmSecs_congr {u : State} (h1 : s.rfmState p ≠ .reading) (h2 : u.rfmState p ≠ .reading)
    (hid : u.rd (R.RFM_STAT_IDENT_OK p) = s.rd (R.RFM_STAT_IDENT_OK p))
    (hrec : u.rd (R.RFM_REC_REC (p * 32 + 15)) = s.rd (R.RFM_REC_REC (p * 32 + 15)))
    (hdef : u.rd R.RFM_CTL_WARMUP_DEF = s.rd R.RFM_CTL_WARMUP_DEF) : u.warmSecs p = s.warmSecs p := by
  unfold State.warmSecs State.rfmRec State.on
  rw [if_neg h1, if_neg h2, hid, hrec, hdef]

/-- A register of the port that a change of its state leaves. -/
theorem rd_stateFrame (h : Frame (rfmStateFields p) ps s₀ s) {g : Field} {n : Nat} (hk : g.key = rfmBase p + n) (hn : n < 0x2000)
    (hne : n ∉ [128, 139, 133, 135]) : s.rd g = s₀.rd g := by
  simp only [List.mem_cons, List.not_mem_nil, or_false, not_or] at hne
  obtain ⟨h1, h2, h3, h4⟩ := hne
  refine h.rd (fun f hf => ?_) (side_of_rfmBase hk hn)
  rw [hk]
  simp only [List.mem_cons, List.not_mem_nil, or_false] at hf
  rcases hf with rfl | rfl | rfl | rfl | rfl | rfl
  · simpa using h1
  · simpa using h2
  · simpa using h3
  · simpa using h4
  · exact rfmBase_ne_low (by decide)
  · exact rfmBase_ne_low (by decide)

/-- The word of the record that holds the warm-up time. -/
theorem key_RFM_REC_span (p : Fin 2) : (R.RFM_REC_REC (p.val * 32 + 15)).key = rfmBase p.val + 6016 := by
  simp only [R.RFM_REC_REC, Field.mk', rfmBase]
  omega

theorem rfmStateFields_ne_default : ∀ f ∈ rfmStateFields p, R.RFM_CTL_WARMUP_DEF.key ≠ f.key := by
  have h : ∀ n, R.RFM_CTL_WARMUP_DEF.key ≠ rfmBase p + n := fun n => (rfmBase_ne_low (by decide)).symm
  intro f hf
  simp only [List.mem_cons, List.not_mem_nil, or_false] at hf
  rcases hf with rfl | rfl | rfl | rfl | rfl | rfl
  · rw [key_RFM_STAT_STATE]; exact h _
  · rw [key_RFM_STAT_PARKED]; exact h _
  · rw [key_RFM_STAT_CLK_OK]; exact h _
  · rw [key_RFM_STAT_CANDIDATE]; exact h _
  · decide
  · decide

theorem frame_warmReady_self : Frame (rfmStateFields p) [.ens, .rfm] s (warmReady p s) :=
  frame_warmReady (fun f hf => hf) (by simp) (by simp) (Frame.refl _ _ s)

theorem warmReady_tick : (warmReady p s).tick = s.tick := frame_warmReady_self.2.1 .tick (by simp) rfl

end

theorem clockMeasure_row (s : State) (c : Fin 3) (nHz : Nat) (p : Fin 2) (hc : c.val = p.val + 1)
    (hs : s.rfmState p.val = .warming ∨ s.rfmState p.val = .ready) : ∃ t, Sys2Proof.Machine.exec (.clockMeasure c nHz) s = .next t ∧
      (t.rfmPort p.val).hz = some nHz ∧
      (t.rfmPort p.val).freqs = (s.clk, nHz) :: (s.rfmPort p.val).freqs.filter (fun q => decide (s.clk < q.1 + sec16 64)) ∧
      IMap.get none t.ens.clockHz c.val = some nHz ∧
      (t.rd (R.RFM_STAT_CLK_OK p.val) = (if |s.clockDev p.val nHz| ≤ 5 / 1000000 then 1 else 0)) ∧
      (t.rfmState p.val = (if s.rfmState p.val = .ready ∨ (|s.clockDev p.val nHz| ≤ 5 / 1000000 ∧ s.rd (R.RFM_STAT_ALM p.val) ≠ 1 ∧
        (s.rfmPort p.val).warmFrom ≠ none ∧ (t.rfmPort p.val).warmFrom.getD 0 + (sec16 (t.warmSecs p.val) : Nat) ≤ (t.clk : Int)) then .ready
        else .warming)) ∧
      t.rd (R.RFM_STAT_CANDIDATE p.val) = b01 (decide (t.rfmState p.val = .ready ∧ t.rd (R.RFM_STAT_CLK_OK p.val) = 1)) ∧
      Frame (rfmStateFields p.val) [.rfm, .ens] s t := by
  obtain ⟨c, hlt⟩ := c
  obtain rfl : c = p.val + 1 := hc
  obtain ⟨m, hm⟩ : ∃ m, setCandidate p.val (clkJudged p.val nHz (hzTaken p.val nHz s.begin)) = m := ⟨_, rfl⟩
  have htaken : (hzTaken p.val nHz s.begin).rfmPort p.val = measured s.clk nHz (s.rfmPort p.val) := rfmPort_modRfm _ _ _
  have hu : clockMeasure (p.val + 1) nHz s.begin = warmReady p.val m := by
    rw [clockMeasure_judges (s := s.begin) hs, ← hm]
    exact judgeClock_eq (by rw [htaken]; rfl)
  obtain ⟨t, e, k⟩ := go_ended_of hu
  have hjudged : Frame (rfmStateFields p.val) [.rfm, .ens] s (clkJudged p.val nHz (hzTaken p.val nHz s.begin)) :=
    frame_wr (by simp) (frame_hzTaken (by simp) (by simp) (frame_begin s))
  have hframe : Frame (rfmStateFields p.val) [.rfm, .ens] s m := by
    rw [← hm]
    exact frame_setCandidate (by intro f hf; rcases List.mem_pair.1 hf with rfl | rfl <;> simp) (by simp) hjudged
  have hport : m.rfmPort p.val = measured s.clk nHz (s.rfmPort p.val) := by
    rw [← hm, rfmPort_of_rfm setCandidate_rfm, clkJudged_port, htaken]
  have hclk : m.rd (R.RFM_STAT_CLK_OK p.val) = if |s.clockDev p.val nHz| ≤ 5 / 1000000 then 1 else 0 := by
    rw [← hm, rd_setCandidate (key_RFM_STAT_CLK_OK _) (by decide) (by decide), rd_clkJudged, clockDev_hzTaken]
  have hstate : m.rfmState p.val = s.rfmState p.val := by
    rw [← hm, setCandidate_state]
    exact rfmState_of_rd (rd_wr_ne _ _ (by simp))
  have hhz : IMap.get none m.ens.clockHz (p.val + 1) = some nHz := by
    rw [← hm, setCandidate_clockHz]
    exact keepHz_clockHz (s := s.begin) (p.val + 1) nHz
  have hshown : m.candidateShown p.val := hm ▸ setCandidate_shown
  have hrd : ∀ {g : Field} {n : Nat}, g.key = rfmBase p.val + n → n < 0x2000 → t.rd g = (warmReady p.val m).rd g := fun hk hn =>
    k.rd (side_of_rfmBase hk hn)
  have htstate : t.rfmState p.val = (warmReady p.val m).rfmState p.val := rfmState_of_rd (hrd (key_RFM_STAT_STATE _) (by decide))
  have htframe : Frame (rfmStateFields p.val) [.rfm, .ens] s t := k.frame (frame_warmReady (fun f hf => hf) (by simp) (by simp) hframe)
  have htport := rfmPort_of_rfm (p := p.val) k.rfm
  have hkept : (t.rfmPort p.val).hz = (m.rfmPort p.val).hz ∧ (t.rfmPort p.val).freqs = (m.rfmPort p.val).freqs ∧
      (t.rfmPort p.val).warmFrom = (m.rfmPort p.val).warmFrom := by
    rw [htport]
    rcases warmReady_port (p := p.val) (s := m) with h | h <;> rw [h] <;> exact ⟨rfl, rfl, rfl⟩
  obtain ⟨hkhz, hkfreqs, hkwarm⟩ := hkept
  rw [hport] at hkhz hkfreqs
  have hfrom : (m.rfmPort p.val).warmFrom = (s.rfmPort p.val).warmFrom := by rw [hport]; rfl
  have halm : m.rd (R.RFM_STAT_ALM p.val) = s.rd (R.RFM_STAT_ALM p.val) := rd_stateFrame hframe (key_RFM_STAT_ALM _) (by decide) (by decide)
  have hclock : t.clk = m.clk := clk_congr (k.tick.trans warmReady_tick)
  have hsecs : t.warmSecs p.val = m.warmSecs p.val := by
    have hreading : m.rfmState p.val ≠ .reading := by
      rw [hstate]
      rcases hs with h | h <;> rw [h] <;> decide
    have hkeep : Frame (rfmStateFields p.val) [.ens, .rfm] m (warmReady p.val m) := frame_warmReady_self
    refine warmSecs_congr hreading ?_ ?_ ?_ ?_
    · classical
      rw [htstate, warmReady_state (by rwa [hstate])]
      split <;> decide
    · exact (hrd (key_RFM_STAT_IDENT_OK _) (by decide)).trans (rd_stateFrame hkeep (key_RFM_STAT_IDENT_OK _) (by decide) (by decide))
    · exact (hrd (key_RFM_REC_span p) (by decide)).trans (rd_stateFrame hkeep (key_RFM_REC_span p) (by decide) (by decide))
    · exact (k.rd (by decide)).trans (hkeep.rd rfmStateFields_ne_default (by decide))
  refine ⟨t, e, hkhz, hkfreqs, ?_, (hrd (key_RFM_STAT_CLK_OK _) (by decide)).trans (warmReady_clkOk.trans hclk), ?_, ?_, htframe⟩
  · rw [k.ens, warmReady_clockHz]
    exact hhz
  · classical
    rw [htstate, warmReady_state (by rwa [hstate]), hstate]
    refine if_congr (or_congr_right ?_) rfl rfl
    rw [State.warmOver, hclk, halm, hfrom, hkwarm, hfrom, hsecs, hclock]
    refine ⟨fun ⟨h1, h2, h3, h4⟩ => ⟨?_, h1, h3, h4⟩, fun ⟨h1, h2, h3, h4⟩ => ⟨h2, if_pos h1, h3, h4⟩⟩
    by_contra hn
    rw [if_neg hn] at h2
    exact absurd h2 (by decide)
  · have h := warmReady_shown hshown
    rw [State.candidateShown, ← hrd (key_RFM_STAT_CANDIDATE _) (by decide), ← hrd (key_RFM_STAT_CLK_OK _) (by decide), ← htstate] at h
    exact h

theorem clockMeasure_gated_row (s : State) (c : Fin 3) (nHz : Nat) (p : Fin 2) (hc : c.val = p.val + 1) (h1 : s.rfmState p.val ≠ .warming)
    (h2 : s.rfmState p.val ≠ .ready) : ∃ t, Sys2Proof.Machine.exec (.clockMeasure c nHz) s = .next t ∧ Frame [] [] s t := by
  obtain ⟨c, hlt⟩ := c
  obtain rfl : c = p.val + 1 := hc
  obtain ⟨t, e, k⟩ := go_ended_of (clockMeasure_gated (s := s.begin) (n := nHz) h1 h2)
  exact ⟨t, e, k.frame (frame_begin s)⟩

theorem clockMeasure_host_row (s : State) (nHz : Nat) : ∃ t, Sys2Proof.Machine.exec (.clockMeasure 0 nHz) s = .next t ∧
    IMap.get none t.ens.clockHz 0 = some nHz ∧ Frame [] [.ens] s t := by
  have hu : clockMeasure 0 nHz s.begin = keepHz 0 nHz s.begin := by
    unfold clockMeasure
    rw [if_pos rfl]
  obtain ⟨t, e, k⟩ := go_ended_of hu
  refine ⟨t, e, ?_, k.frame (frame_keepHz (by simp) (frame_begin s))⟩
  rw [k.ens]
  exact keepHz_clockHz 0 nHz

/-! ### The module's hours and EFC (R160-R175) -/

/-- Settles O24. -/
theorem moduleHoursAndEfc : Obligations.ModuleHoursAndEfc := by
  refine ⟨hoursPage_row, moduleMinute_row, moduleHour_row, ?_, ?_, ?_, ?_, ?_, ?_, ?_, ?_, ?_, ?_, ?_, ?_, ?_, ?_, ?_, ?_, ?_⟩
  · exact hoursWriteEnd_one_row
  · exact hoursWriteEnd_first_row
  · exact hoursWriteEnd_second_row
  · exact hoursWriteEnd_failed_row
  · exact hoursSetGo_row
  · exact hoursSetGo_refused_row
  · exact efcWrite_row
  · exact efcWrite_ignored_row
  · exact modulePps_first_row
  · exact modulePps_extra_row
  · exact modulePps_next_row
  · exact modulePps_same_row
  · exact modulePps_captured_row
  · exact modulePps_gated_row
  · exact clockMeasure_row
  · exact clockMeasure_gated_row
  · exact clockMeasure_host_row

end Sys2Proof.Machine
end

section
/-! PROOFS. Time that passes from a command's beginning shows what it would have shown before it. -/

namespace Sys2Proof.Machine

/-- Two states with the same time, lanes, ensemble and services, whose registers read alike but for the counters' own and the pending bits
of messages. -/
structure Twin (s u : State) : Prop where
  tick : u.tick = s.tick
  lanes : u.lanes = s.lanes
  ens : u.ens = s.ens
  srv : u.srv = s.srv
  rd : ∀ {g : Field}, g.side = false → u.rd g = s.rd g

/-- Time passes alike from a command's beginning. -/
theorem twin_advance (s : State) (m : Nat) : Twin (s.advance m) (s.begin.advance m) := by
  have hb : Frame [] [.tick, .lanes] s (s.begin.advance m) := frame_advance (by simp) (by simp) (frame_begin s)
  have hs : Frame [] [.tick, .lanes] s (s.advance m) := frame_advance (by simp) (by simp) (Frame.refl _ _ s)
  have hpart : ∀ p : Part, p ∉ [Part.tick, .lanes] → p.isRegs = false → p.same s (s.begin.advance m) ∧ p.same s (s.advance m) :=
    fun p h1 h2 => ⟨hb.2.1 p h1 h2, hs.2.1 p h1 h2⟩
  have hlanes : ∀ u : State, (u.advance m).lanes = u.lanes.map fun p => (p.1, p.2.run m) := fun u => by
    rw [State.advance]
    exact congrArg (fun l : IMap Lane => l.map fun p => (p.1, p.2.run m)) (counted_countTicks m u).lanes
  obtain ⟨e1, e2⟩ := hpart .ens (by simp) rfl
  obtain ⟨r1, r2⟩ := hpart .srv (by simp) rfl
  exact ⟨begin_advance_tick s m, by rw [hlanes, hlanes]; rfl, e1.trans e2.symm, r1.trans r2.symm,
    fun hg => (hb.rd (by simp) hg).trans (hs.rd (by simp) hg).symm⟩

theorem twin_waitTs0 (s : State) (x : Nat) : Twin (s.waitTs0 x) (s.begin.waitTs0 x) := twin_advance s _
theorem twin_waitClk (s : State) (x : Nat) : Twin (s.waitClk x) (s.begin.waitClk x) := twin_advance s _

/-! ### Fields of a die's services -/

/-- The key of the first bit of a die's NTP registers. -/
def ntpBase (n : Nat) : Nat := (0x1100000 + n % 4 * 0x1000000) * 32

/-- The key of the first bit of a die's NTS registers. -/
def ntsBase (n : Nat) : Nat := (0x1200000 + n % 4 * 0x1000000) * 32

theorem side_of_ntpBase {f : Field} {n k : Nat} (h : f.key = ntpBase n + k) (hk : k < 0x200000) : f.side = false :=
  Field.side_of_mid (by unfold ntpBase at h; omega)

theorem side_of_ntsBase {f : Field} {n k : Nat} (h : f.key = ntsBase n + k) (hk : k < 0x200000) : f.side = false :=
  Field.side_of_mid (by unfold ntsBase at h; omega)

section
variable (n p : Nat)

@[simp] theorem key_NTP_RESP_CFG_PRECISION : (R.NTP_RESP_CFG_PRECISION n).key = ntpBase n + 256 := by
  simp only [R.NTP_RESP_CFG_PRECISION, Field.mk', ntpBase]; omega
@[simp] theorem key_NTP_RESP_CFG_TTL : (R.NTP_RESP_CFG_TTL n).key = ntpBase n + 264 := by
  simp only [R.NTP_RESP_CFG_TTL, Field.mk', ntpBase]; omega
@[simp] theorem key_NTP_RESP_CFG_DSCP : (R.NTP_RESP_CFG_DSCP n).key = ntpBase n + 272 := by
  simp only [R.NTP_RESP_CFG_DSCP, Field.mk', ntpBase]; omega
@[simp] theorem key_NTP_ROOT_DELAY_DELAY : (R.NTP_ROOT_DELAY_DELAY n).key = ntpBase n + 384 := by
  simp only [R.NTP_ROOT_DELAY_DELAY, Field.mk', ntpBase]; omega
@[simp] theorem key_NTP_ROOT_DISP_ADD : (R.NTP_ROOT_DISP_ADD n).key = ntpBase n + 512 := by
  simp only [R.NTP_ROOT_DISP_ADD, Field.mk', ntpBase]; omega
@[simp] theorem key_NTP_OVF_CFG_RATE : (R.NTP_OVF_CFG_RATE n).key = ntpBase n + 768 := by
  simp only [R.NTP_OVF_CFG_RATE, Field.mk', ntpBase]; omega
@[simp] theorem key_NTP_CST_CFG_AGE_BASIC : (R.NTP_CST_CFG_AGE_BASIC n).key = ntpBase n + 1024 := by
  simp only [R.NTP_CST_CFG_AGE_BASIC, Field.mk', ntpBase]; omega
@[simp] theorem key_NTP_CST_CFG_AGE_ILV : (R.NTP_CST_CFG_AGE_ILV n).key = ntpBase n + 1040 := by
  simp only [R.NTP_CST_CFG_AGE_ILV, Field.mk', ntpBase]; omega
@[simp] theorem key_NTP_CST_CTL_FLUSH_BUSY : (R.NTP_CST_CTL_FLUSH_BUSY n).key = ntpBase n + 1153 := by
  simp only [R.NTP_CST_CTL_FLUSH_BUSY, Field.mk', ntpBase]; omega
@[simp] theorem key_NTP_CST_CTL_GEN : (R.NTP_CST_CTL_GEN n).key = ntpBase n + 1154 := by
  simp only [R.NTP_CST_CTL_GEN, Field.mk', ntpBase]; omega
@[simp] theorem key_NTP_EVT_BITS : (R.NTP_EVT_BITS n).key = ntpBase n + 1408 := by
  simp only [R.NTP_EVT_BITS, Field.mk', ntpBase]; omega
@[simp] theorem key_Evt_ntp : (Evt.ntp n).ev.key = ntpBase n + 1408 := key_NTP_EVT_BITS n
@[simp] theorem key_NTS_CTL_NAK_EN : (R.NTS_CTL_NAK_EN n).key = ntsBase n + 1 := by
  simp only [R.NTS_CTL_NAK_EN, Field.mk', ntsBase]
@[simp] theorem key_NTS_STAT_KEY_CURRENT : (R.NTS_STAT_KEY_CURRENT n).key = ntsBase n + 132 := by
  simp only [R.NTS_STAT_KEY_CURRENT, Field.mk', ntsBase]; omega
@[simp] theorem key_NTS_STAT_KEY_PEND : (R.NTS_STAT_KEY_PEND n).key = ntsBase n + 133 := by
  simp only [R.NTS_STAT_KEY_PEND, Field.mk', ntsBase]; omega
@[simp] theorem key_NTS_STAT_QUEUE : (R.NTS_STAT_QUEUE n).key = ntsBase n + 144 := by
  simp only [R.NTS_STAT_QUEUE, Field.mk', ntsBase]; omega
@[simp] theorem key_NTS_EVT_BITS : (R.NTS_EVT_BITS n).key = ntsBase n + 256 := by
  simp only [R.NTS_EVT_BITS, Field.mk', ntsBase]; omega
@[simp] theorem key_Evt_nts : (Evt.nts n).ev.key = ntsBase n + 256 := key_NTS_EVT_BITS n
@[simp] theorem key_NTS_ENG_STAT_PARKED : (R.NTS_ENG_STAT_PARKED n).key = ntsBase n + 512 := by
  simp only [R.NTS_ENG_STAT_PARKED, Field.mk', ntsBase]; omega
@[simp] theorem key_NTS_KEY_STATE_S : (R.NTS_KEY_STATE_S n).key = ntsBase n + 1536 := by
  simp only [R.NTS_KEY_STATE_S, Field.mk', ntsBase]; omega
@[simp] theorem key_NTS_KEY_STATE_CHG_SEQ : (R.NTS_KEY_STATE_CHG_SEQ n).key = ntsBase n + 1544 := by
  simp only [R.NTS_KEY_STATE_CHG_SEQ, Field.mk', ntsBase]; omega

theorem side_NTP_BC_CFG_EN : (R.NTP_BC_CFG_EN p).side = false := Field.side_of_mid (by simp only [R.NTP_BC_CFG_EN, Field.mk']; omega)
theorem side_NTP_BC_CFG_DEST : (R.NTP_BC_CFG_DEST p).side = false := Field.side_of_mid (by simp only [R.NTP_BC_CFG_DEST, Field.mk']; omega)
theorem side_NTP_BC_CFG_SVC : (R.NTP_BC_CFG_SVC p).side = false := Field.side_of_mid (by simp only [R.NTP_BC_CFG_SVC, Field.mk']; omega)
theorem side_NTP_BC_CFG_BPOLL : (R.NTP_BC_CFG_BPOLL p).side = false := Field.side_of_mid (by simp only [R.NTP_BC_CFG_BPOLL, Field.mk']; omega)
theorem side_NTP_BC_ADDR_ADDR : (R.NTP_BC_ADDR_ADDR p).side = false := Field.side_of_mid (by simp only [R.NTP_BC_ADDR_ADDR, Field.mk']; omega)
theorem side_TSC_LANE_STAT_STATE : (R.TSC_LANE_STAT_STATE n).side = false := Field.side_of_mid (by simp only [R.TSC_LANE_STAT_STATE, Field.mk']; omega)

end

/-! ### What twins show alike -/

namespace Twin

variable {s u : State} (h : Twin s u)
include h

theorem port (p : Nat) : u.port p = s.port p := by rw [State.port, State.port, h.srv]
theorem ntpDie (n : Nat) : u.ntpDie n = s.ntpDie n := by rw [State.ntpDie, State.ntpDie, h.srv]
theorem ntsDie (n : Nat) : u.ntsDie n = s.ntsDie n := by rw [State.ntsDie, State.ntsDie, h.srv]
theorem cst (i : Nat) : u.cst i = s.cst i := by rw [State.cst, State.cst, h.srv]
theorem svc (p i : Nat) : u.svc p i = s.svc p i := by rw [State.svc, State.svc, h.port]
theorem txq (p q : Nat) : u.txq p q = s.txq p q := by rw [State.txq, State.txq, h.port]
theorem lane (n : Nat) : u.lane n = s.lane n := by rw [State.lane, State.lane, h.lanes]
theorem clk : u.clk = s.clk := clk_congr h.tick
theorem ts0 : u.ts0 = s.ts0 := by rw [State.ts0, State.ts0, h.tick]

theorem on {f : Field} (hf : f.side = false) : u.on f = s.on f := by rw [State.on, State.on, h.rd hf]

theorem macAddr (p : Nat) : u.macAddr p = s.macAddr p := by
  rw [State.macAddr, State.macAddr, h.rd (side_of_portBase (key_MAC_ADDR_HI_A p) (by decide)), h.rd (side_of_portBase (key_MAC_ADDR_LO_A p) (by decide))]

theorem bcPoll (p : Nat) : u.bcPoll p = s.bcPoll p := by rw [State.bcPoll, State.bcPoll, h.rd (side_NTP_BC_CFG_BPOLL p)]

theorem leapUtc : u.leapUtc = s.leapUtc := by rw [State.leapUtc, State.leapUtc, h.rd (by decide), h.rd (by decide)]
theorem utcOfs : u.utcOfs = s.utcOfs := by rw [State.utcOfs, State.utcOfs, State.rdSigned, State.rdSigned, h.rd (by decide)]
theorem armedLeap : u.armedLeap = s.armedLeap := by rw [State.armedLeap, State.armedLeap, h.leapUtc, h.tick]
theorem ofsBefore : u.ofsBefore = s.ofsBefore := by rw [State.ofsBefore, State.ofsBefore, h.utcOfs, h.tick]

theorem leapEffect : u.leapEffect = s.leapEffect := by
  unfold State.leapEffect State.taiOf
  rw [h.leapUtc, h.tick, h.ofsBefore]

theorem ofsAt (t : Nat) : u.ofsAt t = s.ofsAt t := by
  unfold State.ofsAt State.beforePast
  rw [h.on (by decide), h.tick, h.ofsBefore, h.leapEffect, h.utcOfs]

theorem leapOf (t : Nat) : u.leapOf t = s.leapOf t := by
  unfold State.leapOf
  rw [h.on (by decide), h.tick, h.ofsBefore, h.armedLeap]

theorem ntpTime (t : Nat) : u.ntpTime t = s.ntpTime t := by
  unfold State.ntpTime
  rw [h.ofsAt, h.on (by decide), h.armedLeap, h.ofsBefore, h.tick]

theorem ntpLeap (t : Nat) : u.ntpLeap t = s.ntpLeap t := by
  unfold State.ntpLeap
  rw [h.on (by decide), h.leapOf, h.tick]

theorem ntpLi (n : Nat) : u.ntpLi n = s.ntpLi n := by
  unfold State.ntpLi State.slaveTime
  rw [h.ens, h.lane, h.ntpLeap]

theorem ntpStratum : u.ntpStratum = s.ntpStratum := by
  unfold State.ntpStratum
  rw [h.ens, h.rd (by decide), h.rd (by decide), h.rd (by decide)]

theorem unready : u.unready = s.unready := by rw [State.unready, State.unready, h.ens]

theorem refStamp : u.refStamp = s.refStamp := by
  unfold State.refStamp
  simp only [h.unready, h.ens, h.ntpTime]

theorem rootDisp (n : Nat) : u.rootDisp n = s.rootDisp n := by
  unfold State.rootDisp
  rw [h.ens, h.rd (side_of_ntpBase (key_NTP_ROOT_DISP_ADD n) (by decide))]

theorem ntpHead (n vn mode poll : Nat) : u.ntpHead n vn mode poll = s.ntpHead n vn mode poll := by
  unfold State.ntpHead
  rw [h.ntpLi, h.ntpStratum, h.rd (side_of_ntpBase (key_NTP_RESP_CFG_PRECISION n) (by decide)),
    h.rd (side_of_ntpBase (key_NTP_ROOT_DELAY_DELAY n) (by decide)), h.rootDisp, h.ens, h.refStamp]

theorem bcFrame (p : Nat) : u.bcFrame p = s.bcFrame p := by
  unfold State.bcFrame
  simp only [h.ntpHead, h.bcPoll, h.svc, h.macAddr, h.rd (side_NTP_BC_CFG_SVC p), h.rd (side_NTP_BC_CFG_DEST p), h.rd (side_NTP_BC_ADDR_ADDR p),
    h.rd (side_of_ntpBase (key_NTP_RESP_CFG_TTL (p / 8)) (by decide)), h.rd (side_of_ntpBase (key_NTP_RESP_CFG_DSCP (p / 8)) (by decide))]

theorem laneLocked (n : Nat) : u.laneLocked n = s.laneLocked n := by rw [State.laneLocked, State.laneLocked, h.rd (side_TSC_LANE_STAT_STATE n)]

theorem withheld (p : Nat) : Machine.withheld p u = Machine.withheld p s := by
  unfold Machine.withheld
  rw [h.laneLocked, h.on (side_of_portBase (key_MAC_STAT_CAL_WEAK p) (by decide)), h.unready, h.on (by decide)]

theorem cstWaited (n i : Nat) : u.cstWaited n i = s.cstWaited n i := by
  unfold State.cstWaited
  simp only [h.srv, h.port, h.txq]

theorem cstFrees (n i : Nat) : u.cstFrees n i = s.cstFrees n i := by
  unfold State.cstFrees State.nowHalf State.dieTicks
  simp only [h.cst, h.cstWaited, h.lane, h.rd (side_of_ntpBase (key_NTP_CST_CFG_AGE_ILV n) (by decide)),
    h.rd (side_of_ntpBase (key_NTP_CST_CFG_AGE_BASIC n) (by decide)), h.rd (side_of_ntpBase (key_NTP_CST_CTL_GEN n) (by decide))]

end Twin

end Sys2Proof.Machine
end

section
/-! PROOFS. The rows of the Client State Table's sweep and flush, the buckets and the broadcast (R273, R275, R278, R279, R281, R282). -/

namespace Sys2Proof.Machine

section
variable {fs : List Field} {ps : List Part} {s₀ s t : State} {d i : Nat}

theorem side_NTP_EVT_BITS (d : Nat) : (R.NTP_EVT_BITS d).side = false := side_of_ntpBase (key_NTP_EVT_BITS d) (by decide)

theorem frame_modNtp {f : NtpDie → NtpDie} (hs : Part.srv ∈ ps) (h : Frame fs ps s₀ s) : Frame fs ps s₀ (s.modNtp d f) := frame_set_srv hs h

theorem ntpDie_modNtp (f : NtpDie → NtpDie) : (s.modNtp d f).ntpDie d = f (s.ntpDie d) := IMap.get_upd_same ({} : NtpDie) s.srv.ntp d f

@[simp] theorem modNtp_tick (s : State) (d : Nat) (f : NtpDie → NtpDie) : (s.modNtp d f).tick = s.tick := rfl

@[simp] theorem modNtp_stats (s : State) (d : Nat) (f : NtpDie → NtpDie) : (s.modNtp d f).srv.stats = s.srv.stats := rfl
@[simp] theorem modNtp_cst (s : State) (d : Nat) (f : NtpDie → NtpDie) : (s.modNtp d f).srv.cst = s.srv.cst := rfl

theorem ntpDie_of_ntp {u : State} (h : u.srv.ntp = s.srv.ntp) : u.ntpDie d = s.ntpDie d := by rw [State.ntpDie, State.ntpDie, h]

theorem bit_ntpEvt {m j : Nat} (hj : j < 5) (hm : bit m j = true) : bit ((s.raise (Evt.ntp d) m).rd (R.NTP_EVT_BITS d)) j = true :=
  bit_raise (e := Evt.ntp d) (side_NTP_EVT_BITS d) hj hm

/-! ### A bucket swept (R273) -/

/-- A way visited. -/
def wayVisited (d : Nat) (s : State) (i : Nat) : State := if s.cstFrees d i then ntpStat d 7 (s.setCst i {}) else s

/-- What visiting ways leaves: all that decides whether an entry is freed but the entries themselves. -/
structure TableOnly (s t : State) : Prop where
  tick : t.tick = s.tick
  lanes : t.lanes = s.lanes
  srv : t.srv = { s.srv with cst := t.srv.cst, stats := t.srv.stats }
  rd : ∀ {g : Field}, g.side = false → t.rd g = s.rd g

namespace TableOnly

theorem refl (s : State) : TableOnly s s := ⟨rfl, rfl, rfl, fun _ => rfl⟩

theorem trans {a b c : State} (h : TableOnly a b) (k : TableOnly b c) : TableOnly a c :=
  ⟨k.tick.trans h.tick, k.lanes.trans h.lanes, by rw [k.srv, h.srv], fun hg => (k.rd hg).trans (h.rd hg)⟩

theorem ntp (h : TableOnly s t) : t.srv.ntp = s.srv.ntp := by rw [h.srv]

/-- An entry that stands is freed alike. -/
theorem cstFrees (h : TableOnly s t) (hi : t.cst i = s.cst i) : t.cstFrees d i = s.cstFrees d i := by
  have hwait : t.cstWaited d i = s.cstWaited d i := by
    unfold State.cstWaited State.txq State.port
    rw [h.srv]
  have hhalf : t.nowHalf d = s.nowHalf d := by rw [State.nowHalf, State.nowHalf, State.dieTicks, State.dieTicks, State.lane, State.lane, h.lanes]
  unfold State.cstFrees
  simp only [hi, hwait, hhalf, h.rd (side_of_ntpBase (key_NTP_CST_CFG_AGE_ILV d) (by decide)),
    h.rd (side_of_ntpBase (key_NTP_CST_CFG_AGE_BASIC d) (by decide)), h.rd (side_of_ntpBase (key_NTP_CST_CTL_GEN d) (by decide))]

end TableOnly

theorem tableOnly_wayVisited : TableOnly s (wayVisited d s i) := by
  unfold wayVisited
  split
  · have hf : Frame [] [.srv] s (ntpStat d 7 (s.setCst i {})) := frame_cstDropped d i (by simp) (Frame.refl _ _ s)
    exact ⟨hf.2.1 .tick (by simp) rfl, hf.2.1 .lanes (by simp) rfl, by rw [cstDropped_srv], fun hg => hf.rd (by simp) hg⟩
  · exact .refl s

theorem cst_wayVisited_same : (wayVisited d s i).cst i = if s.cstFrees d i then {} else s.cst i := by
  unfold wayVisited
  split
  · rw [State.cst, cstDropped_srv]
    exact IMap.get_put_same ({} : CstEntry) s.srv.cst i {}
  · rfl

theorem cst_wayVisited_ne {j : Nat} (h : j ≠ i) : (wayVisited d s i).cst j = s.cst j := by
  unfold wayVisited
  split
  · rw [State.cst, cstDropped_srv]
    exact IMap.get_put_ne ({} : CstEntry) s.srv.cst {} h
  · rfl

/-- The statistic of entries swept. -/
def sweptStat (d : Nat) (s : State) : Nat := IMap.get 0 s.srv.stats (2048 + d * 32 + 7)

theorem sweptStat_wayVisited : sweptStat d (wayVisited d s i) % 2 ^ 64 = (sweptStat d s + (if s.cstFrees d i then 1 else 0)) % 2 ^ 64 := by
  unfold wayVisited
  split
  · rw [sweptStat, cstDropped_srv]
    exact (congrArg (· % 2 ^ 64) (stats_upd_same s.srv.stats _)).trans (Nat.mod_mod _ _)
  · rfl

/-- The ways of a bucket visited in turn. -/
def waysVisited (d : Nat) (l : List Nat) (s : State) : State := l.foldl (wayVisited d) s

theorem tableOnly_waysVisited (l : List Nat) : TableOnly s (waysVisited d l s) := by
  induction l generalizing s with
  | nil => exact .refl s
  | cons i l ih => exact tableOnly_wayVisited.trans ih

theorem frame_waysVisited (l : List Nat) (hs : Part.srv ∈ ps) (h : Frame fs ps s₀ s) : Frame fs ps s₀ (waysVisited d l s) :=
  frame_foldl h fun _ i _ hv => frame_ite (frame_cstDropped d i hs hv) hv

theorem cst_waysVisited {l : List Nat} (hl : l.Nodup) (j : Nat) :
    (waysVisited d l s).cst j = if j ∈ l ∧ s.cstFrees d j = true then {} else s.cst j := by
  induction l generalizing s with
  | nil => simp [waysVisited]
  | cons i l ih =>
    obtain ⟨hi, hl⟩ := List.nodup_cons.1 hl
    refine (ih hl).trans ?_
    by_cases hj : j = i
    · subst hj
      rw [if_neg (fun h => hi h.1), cst_wayVisited_same]
      simp
    · have hc : (wayVisited d s i).cst j = s.cst j := cst_wayVisited_ne hj
      rw [tableOnly_wayVisited.cstFrees hc, hc]
      simp [hj]

theorem sweptStat_waysVisited {l : List Nat} (hl : l.Nodup) :
    sweptStat d (waysVisited d l s) % 2 ^ 64 = (sweptStat d s + (l.filter (s.cstFrees d)).length) % 2 ^ 64 := by
  induction l generalizing s with
  | nil => rfl
  | cons i l ih =>
    obtain ⟨hi, hl⟩ := List.nodup_cons.1 hl
    have hrest : l.filter ((wayVisited d s i).cstFrees d) = l.filter (s.cstFrees d) := List.filter_congr fun j hj =>
      tableOnly_wayVisited.cstFrees (cst_wayVisited_ne fun hji => hi (hji ▸ hj))
    refine (ih hl).trans ?_
    rw [hrest, List.filter_cons, Nat.add_mod, sweptStat_wayVisited, ← Nat.add_mod]
    split
    · rw [List.length_cons]; congr 1; omega
    · rfl

theorem ways_nodup (d b : Nat) : (ways d b).Nodup :=
  List.Nodup.map (fun a c h => by simpa using h) List.nodup_range

theorem mem_ways (d b : Nat) (w : Fin 8) : d * 2097152 + b * 8 + w.val ∈ ways d b := List.mem_map.2 ⟨w.val, List.mem_range.2 w.isLt, rfl⟩

end

/-- The die once its bucket is swept. -/
def bucketPassed (k : NtpDie) : NtpDie := { k with bucket := (k.bucket + 1) % 262144, sweepAt := k.sweepAt + ns16 80, flushLeft := k.flushLeft - 1 }

/-- The state once a die's bucket is swept. -/
def bucketSwept (d : Nat) (s : State) : State := (waysVisited d (ways d (s.ntpDie d).bucket) s).modNtp d bucketPassed

/-- The end of a flush shown. -/
def flushShown (d : Nat) (s : State) : State := (s.lo (R.NTP_CST_CTL_FLUSH_BUSY d)).raise (Evt.ntp d) 8

theorem cstSweep_eq (d : Nat) (s : State) : cstSweep d s =
    if ((s.waitClk (s.ntpDie d).sweepAt).ntpDie d).flushLeft = 1 then flushShown d (bucketSwept d (s.waitClk (s.ntpDie d).sweepAt))
    else bucketSwept d (s.waitClk (s.ntpDie d).sweepAt) := rfl

theorem frame_flushShown (d : Nat) (s : State) : Frame [R.NTP_CST_CTL_FLUSH_BUSY d, R.NTP_EVT_BITS d] [] s (flushShown d s) :=
  frame_raise (by simp [Evt.ntp]) (frame_lo (by simp) (Frame.refl _ _ s))

theorem flushShown_srv (d : Nat) (s : State) : (flushShown d s).srv = s.srv := (frame_flushShown d s).2.1 .srv (by simp) rfl
theorem flushShown_tick (d : Nat) (s : State) : (flushShown d s).tick = s.tick := (frame_flushShown d s).2.1 .tick (by simp) rfl

theorem cstSweep_row (s : State) (n : Fin 4) :
    let k := s.ntpDie n.val
    let u := s.waitClk k.sweepAt
    ∃ t, Sys2Proof.Machine.exec (.cstSweep n) s = .next t ∧
      (∀ w : Fin 8, t.cst (n.val * 2097152 + k.bucket * 8 + w.val) =
        (if u.cstFrees n.val (n.val * 2097152 + k.bucket * 8 + w.val) then {} else s.cst (n.val * 2097152 + k.bucket * 8 + w.val))) ∧
      (∀ i, i ∉ ways n.val k.bucket → t.cst i = s.cst i) ∧
      IMap.get 0 t.srv.stats (2048 + n.val * 32 + 7) % 2 ^ 64 =
        (IMap.get 0 s.srv.stats (2048 + n.val * 32 + 7) + ((ways n.val k.bucket).filter (u.cstFrees n.val)).length) % 2 ^ 64 ∧
      (t.ntpDie n.val).bucket = (k.bucket + 1) % 262144 ∧
      (t.ntpDie n.val).sweepAt = k.sweepAt + 80 * 65536 ∧
      (t.ntpDie n.val).flushLeft = k.flushLeft - 1 ∧
      (k.flushLeft = 1 → t.rd (R.NTP_CST_CTL_FLUSH_BUSY n.val) = 0 ∧ bit (t.rd (R.NTP_EVT_BITS n.val)) 3 = true) ∧
      t.tick = u.tick ∧
      Frame [R.NTP_CST_CTL_FLUSH_BUSY n.val, R.NTP_EVT_BITS n.val] [.tick, .lanes, .srv] s t := by
  intro k u
  obtain ⟨v, hv⟩ : ∃ v, s.begin.waitClk k.sweepAt = v := ⟨_, rfl⟩
  have htwin : Twin u v := hv ▸ twin_waitClk s k.sweepAt
  have hwait : Frame [R.NTP_CST_CTL_FLUSH_BUSY n.val, R.NTP_EVT_BITS n.val] [.tick, .lanes, .srv] s v := by
    rw [← hv]
    exact frame_waitClk (by simp) (by simp) (frame_begin s)
  have hsrv : v.srv = s.srv := by
    rw [← hv]
    exact (frame_waitClk (fs := []) (ps := [.tick, .lanes]) (by simp) (by simp) (frame_begin s)).2.1 .srv (by simp) rfl
  have hdie : v.ntpDie n.val = k := ntpDie_of_ntp (congrArg Served.ntp hsrv)
  have hcst : ∀ i, v.cst i = s.cst i := fun i => by rw [State.cst, State.cst, hsrv]
  have hstat : sweptStat n.val v = sweptStat n.val s := by rw [sweptStat, sweptStat, hsrv]
  have hu : cstSweep n.val s.begin = if k.flushLeft = 1 then flushShown n.val (bucketSwept n.val v) else bucketSwept n.val v := by
    rw [cstSweep_eq]
    have hat : (s.begin.ntpDie n.val).sweepAt = k.sweepAt := rfl
    rw [hat, hv, hdie]
  have hswept : bucketSwept n.val v = (waysVisited n.val (ways n.val k.bucket) v).modNtp n.val bucketPassed := by rw [bucketSwept, hdie]
  have hframe : Frame [R.NTP_CST_CTL_FLUSH_BUSY n.val, R.NTP_EVT_BITS n.val] [.tick, .lanes, .srv] s (bucketSwept n.val v) := by
    rw [hswept]
    exact frame_modNtp (by simp) (frame_waysVisited _ (by simp) hwait)
  obtain ⟨t, e, m⟩ := go_ended_of hu
  have htsrv : t.srv = ((waysVisited n.val (ways n.val k.bucket) v).modNtp n.val bucketPassed).srv := by
    rw [m.srv]
    split
    · rw [flushShown_srv, hswept]
    · rw [hswept]
  have htick : t.tick = v.tick := by
    have hb : (bucketSwept n.val v).tick = v.tick := by 
      rw [hswept, modNtp_tick]
      exact (tableOnly_waysVisited _).tick
    rw [m.tick]
    split
    · rw [flushShown_tick, hb]
    · exact hb
  have htcst : ∀ i, t.cst i = (waysVisited n.val (ways n.val k.bucket) v).cst i := fun i => by
    rw [State.cst, htsrv, modNtp_cst, State.cst]
  have htdie : t.ntpDie n.val = bucketPassed k := by
    rw [ntpDie_of_ntp (congrArg Served.ntp htsrv), ntpDie_modNtp]
    have h := ntpDie_of_ntp (d := n.val) (tableOnly_waysVisited (d := n.val) (s := v) (ways n.val k.bucket)).ntp
    rw [h]
    exact congrArg bucketPassed hdie
  refine ⟨t, e, fun w => ?_, fun i hi => ?_, ?_, by rw [htdie]; rfl, by rw [htdie]; rfl, by rw [htdie]; rfl, fun hleft => ?_,
    htick.trans htwin.tick, m.frame ?_⟩
  · rw [htcst, cst_waysVisited (ways_nodup _ _), htwin.cstFrees, hcst]
    simp [mem_ways]
  · rw [htcst, cst_waysVisited (ways_nodup _ _), if_neg (fun h => hi h.1), hcst]
  · have hsame : IMap.get 0 t.srv.stats (2048 + n.val * 32 + 7) = sweptStat n.val (waysVisited n.val (ways n.val k.bucket) v) := by
      rw [htsrv, modNtp_stats, sweptStat]
    have hfrees : v.cstFrees n.val = u.cstFrees n.val := funext fun i => htwin.cstFrees n.val i
    rw [hsame, sweptStat_waysVisited (ways_nodup _ _), hstat, hfrees, sweptStat]
  · rw [if_pos hleft] at m
    constructor
    · rw [m.rd (side_of_ntpBase (key_NTP_CST_CTL_FLUSH_BUSY n.val) (by decide)), flushShown,
        rd_raise_ne _ _ _ (by simp) (side_of_ntpBase (key_NTP_CST_CTL_FLUSH_BUSY n.val) (by decide)), rd_lo_same]
    · rw [m.rd (side_NTP_EVT_BITS n.val)]
      exact bit_ntpEvt (by decide) (bit_two_pow 3)
  · exact frame_ite (frame_raise (by simp [Evt.ntp]) (frame_lo (by simp) hframe)) hframe

end Sys2Proof.Machine
end

section
/-! PROOFS. The rows of the Client State Table's flush, the buckets and the broadcast (R275, R278, R279, R281, R282). -/

namespace Sys2Proof.Machine

/-! ### A flush begins (R275) -/

/-- The die with all its buckets to be flushed. -/
def flushBegun (k : NtpDie) : NtpDie := { k with flushLeft := 262144 }

/-- A flush begun. -/
def tableFlushed (d : Nat) (s : State) : State :=
  ((s.wr (R.NTP_CST_CTL_GEN d) (1 - s.rd (R.NTP_CST_CTL_GEN d))).hi (R.NTP_CST_CTL_FLUSH_BUSY d)).modNtp d flushBegun

@[simp] theorem rd_modNtp (s : State) (d : Nat) (f : NtpDie → NtpDie) (g : Field) : (s.modNtp d f).rd g = s.rd g := rfl

theorem writeCstCtl_flush {d w : Nat} {s : State} (h : s.rd (R.NTP_CST_CTL_FLUSH_BUSY d) = 0) :
    writeCstCtl d ((R.NTP_CST_CTL_FLUSH d).setIn w) s = tableFlushed d s := by
  have hoff : s.on (R.NTP_CST_CTL_FLUSH_BUSY d) = false := decide_eq_false (by rw [h]; decide)
  unfold writeCstCtl
  rw [Field.of_setIn _ _ rfl, hoff]
  rfl

theorem writeCstCtl_busy {d w : Nat} {s : State} (h : s.rd (R.NTP_CST_CTL_FLUSH_BUSY d) = 1) :
    writeCstCtl d ((R.NTP_CST_CTL_FLUSH d).setIn w) s = s := by
  unfold writeCstCtl
  rw [on_of_rd h]
  simp

theorem cstFlush_row (s : State) (n : Fin 4) (w : Word) (hd : s.dieAnswers n.val = true) (hb : s.rd (R.NTP_CST_CTL_FLUSH_BUSY n.val) = 0) :
    ∃ t, Sys2Proof.Machine.exec (.cstFlush n w) s = .next t ∧
      t.rd (R.NTP_CST_CTL_GEN n.val) = 1 - s.rd (R.NTP_CST_CTL_GEN n.val) ∧ t.rd (R.NTP_CST_CTL_FLUSH_BUSY n.val) = 1 ∧
      (t.ntpDie n.val).flushLeft = 262144 ∧ t.srv.cst = s.srv.cst ∧
      Frame [R.NTP_CST_CTL_GEN n.val, R.NTP_CST_CTL_FLUSH_BUSY n.val] [.srv] s t := by
  obtain ⟨t, e, k⟩ := go_ended_of (f := windowWrite n.val (Reg.NTP_CST_CTL n.val) (writeCstCtl n.val ((R.NTP_CST_CTL_FLUSH n.val).setIn w.toNat)))
    ((window_taken _ hd).trans (writeCstCtl_flush (s := s.begin) hb))
  refine ⟨t, e, ?_, ?_, ?_, (congrArg Served.cst k.srv).trans (modNtp_cst _ _ _),
    k.frame (frame_modNtp (by simp) (frame_hi (by simp) (frame_wr (by simp) (frame_begin s))))⟩
  · rw [k.rd (side_of_ntpBase (key_NTP_CST_CTL_GEN n.val) (by decide)), tableFlushed, rd_modNtp, rd_hi_ne _ (by simp), rd_wr_same]
    exact Nat.mod_eq_of_lt (show 1 - _ < 2 ^ 1 by omega)
  · rw [k.rd (side_of_ntpBase (key_NTP_CST_CTL_FLUSH_BUSY n.val) (by decide)), tableFlushed, rd_modNtp]
    exact rd_hi_same _ _
  · rw [ntpDie_of_ntp (congrArg Served.ntp k.srv), tableFlushed, ntpDie_modNtp]
    rfl

theorem cstFlush_busy_row (s : State) (n : Fin 4) (w : Word) (hd : s.dieAnswers n.val = true) (hb : s.rd (R.NTP_CST_CTL_FLUSH_BUSY n.val) = 1) :
    ∃ t, Sys2Proof.Machine.exec (.cstFlush n w) s = .next t ∧ Frame [] [] s t := by
  obtain ⟨t, e, k⟩ := go_ended_of (f := windowWrite n.val (Reg.NTP_CST_CTL n.val) (writeCstCtl n.val ((R.NTP_CST_CTL_FLUSH n.val).setIn w.toNat)))
    ((window_taken _ hd).trans (writeCstCtl_busy (s := s.begin) hb))
  exact ⟨t, e, k.frame (frame_begin s)⟩

theorem cstFlush_off_row (s : State) (n : Fin 4) (w : Word) (hd : s.dieAnswers n.val = false) :
    ∃ t, Sys2Proof.Machine.exec (.cstFlush n w) s = .next t ∧ t.out.head? = some (.aer 1 (Reg.NTP_CST_CTL n.val).addr true) ∧ Frame [] [] s t :=
  window_refused _ hd

/-! ### The buckets (R278, R279) -/

/-- The die with its KoD bucket refilled. -/
def kodRefilled (depth rate now : Nat) (k : NtpDie) : NtpDie := { k with kod := k.kod.refill depth rate now }

/-- The die with its overflow bucket refilled. -/
def ovfRefilled (depth rate now : Nat) (k : NtpDie) : NtpDie := { k with ovf := k.ovf.refill depth rate now }

theorem refillKod_eq (d : Nat) (s : State) : refillKod d s =
    s.modNtp d (kodRefilled (max 1 (s.rd (R.NTP_KOD_CFG_BURST d))) (max 1 (s.rd (R.NTP_KOD_CFG_RATE d))) (s.clk / 81920)) := rfl

theorem refillOvf_eq (d : Nat) (s : State) : refillOvf d s =
    s.modNtp d (ovfRefilled (256 * max 1 (s.rd (R.NTP_OVF_CFG_BURST d))) (max 1 (s.rd (R.NTP_OVF_CFG_RATE d))) (s.clk / 81920)) := rfl

theorem bucketRefill_eq (d : Nat) (s : State) : bucketRefill d s =
    (s.modNtp d (kodRefilled (max 1 (s.rd (R.NTP_KOD_CFG_BURST d))) (max 1 (s.rd (R.NTP_KOD_CFG_RATE d))) (s.clk / 81920))).modNtp d
      (ovfRefilled (256 * max 1 (s.rd (R.NTP_OVF_CFG_BURST d))) (max 1 (s.rd (R.NTP_OVF_CFG_RATE d))) (s.clk / 81920)) := by
  rw [bucketRefill, refillKod_eq, refillOvf_eq]
  rfl

theorem bucketRefill_row (s : State) (n : Fin 4) :
    let depkod := max 1 (s.rd (R.NTP_KOD_CFG_BURST n.val))
    let depovf := 256 * max 1 (s.rd (R.NTP_OVF_CFG_BURST n.val))
    ∃ t, Sys2Proof.Machine.exec (.bucketRefill n) s = .next t ∧
      (t.ntpDie n.val).kod = (s.ntpDie n.val).kod.refill depkod (max 1 (s.rd (R.NTP_KOD_CFG_RATE n.val))) (s.clk / 81920) ∧
      (t.ntpDie n.val).ovf = (s.ntpDie n.val).ovf.refill depovf (max 1 (s.rd (R.NTP_OVF_CFG_RATE n.val))) (s.clk / 81920) ∧
      Frame [] [.srv] s t := by
  intro depkod depovf
  obtain ⟨t, e, k⟩ := go_ended_of (bucketRefill_eq n.val s.begin)
  have hdie := ntpDie_of_ntp (d := n.val) (congrArg Served.ntp k.srv)
  rw [ntpDie_modNtp, ntpDie_modNtp] at hdie
  exact ⟨t, e, congrArg NtpDie.kod hdie, congrArg NtpDie.ovf hdie, k.frame (frame_modNtp (by simp) (frame_modNtp (by simp) (frame_begin s)))⟩

/-! ### A frame put into a queue (R236) -/

section
variable {s : State} {p q : Nat}

theorem enqueue_room {f : TxFrame} (hr : s.txRoom p q f.bytes.length = true) (hf : s.flushing p = false) :
    enqueue p q f s = setTxq p q (s.txq p q ++ [f]) s := by
  have htake : (s.txq p q).takeWhile (fun _ => true) = s.txq p q := List.takeWhile_eq_self_iff.2 fun _ _ => rfl
  have hdrop : (s.txq p q).dropWhile (fun _ => true) = [] := List.dropWhile_eq_nil_iff.2 fun _ _ => rfl
  rw [enqueue, enqueueAhead, hr, hf]
  simp only [Bool.not_true, Bool.false_eq_true, if_false, Bool.not_false, htake, hdrop]

/-- A port with those of its leaving frames that have not left. -/
def leavingKept (keep : Flight → Bool) (k : Port) : Port := { k with leaving := k.leaving.filter keep }

/-- A port with nothing in flight or leaving and no queue held is only seen. -/
theorem settleTo_quiet (x : Nat) (h1 : (s.port p).flight = none) (h2 : (s.port p).leaving = []) (h3 : s.pauseHeld p = false) :
    ∃ keep, settleTo p x s = (s.modPort p (seenTo (max (s.port p).seenPs x))).modPort p (leavingKept keep) := by
  have hheld : heldCounted p x s = s := if_neg (by rw [h3]; decide)
  have hleaving : ((s.modPort p (seenTo (max (s.port p).seenPs x))).port p).leaving = [] := by
    rw [port_modPort_same]
    exact h2
  rw [settleTo_idle h1, hheld, leaveBall, hleaving]
  exact ⟨_, rfl⟩

end

/-! ### A broadcast instant (R281, R282) -/

/-- The next broadcast instant of a port. -/
def State.bcDue (s : State) (p : Nat) : Nat :=
  s.bcNext p (max (s.openFrom (IMap.get none (s.ntpDie (p / 8)).bcSkipped (p % 8)))
    (((IMap.get none (s.ntpDie (p / 8)).bcLast (p % 8)).map (· + 1)).getD 0))

/-- The die with an instant of a port sent. -/
def bcSentAt (k due : Nat) (y : NtpDie) : NtpDie := { y with bcLast := IMap.put none y.bcLast k (some due) }

/-- The die with an instant of a port skipped. -/
def bcSkippedAt (k n : Nat) (y : NtpDie) : NtpDie := { y with bcSkipped := IMap.put none y.bcSkipped k (some n) }

theorem bcSentAt_last (k due : Nat) (y : NtpDie) : IMap.get none (bcSentAt k due y).bcLast k = some due :=
  IMap.get_put_same (none : Option Nat) y.bcLast k (some due)

theorem bcSkippedAt_last (k n : Nat) (y : NtpDie) : IMap.get none (bcSkippedAt k n y).bcSkipped k = some n :=
  IMap.get_put_same (none : Option Nat) y.bcSkipped k (some n)

/-- A broadcast frame. -/
def bcTx (bytes : List Nat) : TxFrame := { kind := .ntpBcast, bytes := bytes }

/-- A broadcast frame put into its queue and counted. -/
def bcPut (p : Nat) (s : State) : State := enqueue p 7 (bcTx (s.bcFrame p)) (ntpStat (p / 8) 19 (settle p s))

/-- A broadcast instant that is sent. -/
def bcSent (p due : Nat) (s : State) : State := bcPut p (s.modNtp (p / 8) (bcSentAt (p % 8) due))

theorem bcFrame_modNtp (s : State) (d p : Nat) (f : NtpDie → NtpDie) : (s.modNtp d f).bcFrame p = s.bcFrame p := rfl

/-- A broadcast instant that is not sent. -/
def bcMissed (p : Nat) (s : State) : State := bcSkip p (s.modNtp (p / 8) (bcSkippedAt (p % 8) s.tick.count))

/-- Whether a port's broadcast goes out: its entry is valid and of its destination's family, the port up and not withheld. -/
def State.bcGoes (s : State) (p : Nat) : Bool :=
  (svcValid (s.svc p (s.rd (R.NTP_BC_CFG_SVC p))) && (decide (64 ≤ s.rd (R.NTP_BC_CFG_SVC p)) = decide (s.rd (R.NTP_BC_CFG_DEST p) = 2)))
    && (Machine.withheld p s).isNone && s.isUp p

theorem ntpBroadcast_off {p : Nat} {s : State} (h : s.on (R.NTP_BC_CFG_EN p) = false) : ntpBroadcast p s = s := by
  unfold ntpBroadcast
  rw [h]
  rfl

/-- What an instant that has come does. -/
def bcAct (p due : Nat) (v : State) : State :=
  if !(svcValid (v.svc p (v.rd (R.NTP_BC_CFG_SVC p))) && decide (decide (64 ≤ v.rd (R.NTP_BC_CFG_SVC p)) = decide (v.rd (R.NTP_BC_CFG_DEST p) = 2)))
      || (Machine.withheld p v).isSome || !v.isUp p then bcMissed p v
  else bcSent p due v

theorem bcAct_eq (p due : Nat) (v : State) : bcAct p due v = if v.bcGoes p then bcSent p due v else bcMissed p v := by
  have hcond : (!(svcValid (v.svc p (v.rd (R.NTP_BC_CFG_SVC p))) &&
      decide (decide (64 ≤ v.rd (R.NTP_BC_CFG_SVC p)) = decide (v.rd (R.NTP_BC_CFG_DEST p) = 2))) || (Machine.withheld p v).isSome || !v.isUp p) =
      !v.bcGoes p := by
    cases hw : Machine.withheld p v <;> simp [State.bcGoes, hw]
  rw [bcAct, hcond]
  cases v.bcGoes p <;> rfl

theorem ntpBroadcast_eq (p : Nat) (s : State) : ntpBroadcast p s =
    if !s.on (R.NTP_BC_CFG_EN p) then s
    else if (s.waitTs0 (s.bcDue p)).ts0 < s.bcDue p then s.waitTs0 (s.bcDue p) else bcAct p (s.bcDue p) (s.waitTs0 (s.bcDue p)) := rfl

theorem ntpBroadcast_due {p : Nat} {s : State} (h : s.on (R.NTP_BC_CFG_EN p) = true) (hd : s.bcDue p ≤ (s.waitTs0 (s.bcDue p)).ts0) :
    ntpBroadcast p s = if (s.waitTs0 (s.bcDue p)).bcGoes p then bcSent p (s.bcDue p) (s.waitTs0 (s.bcDue p))
      else bcMissed p (s.waitTs0 (s.bcDue p)) := by
  rw [ntpBroadcast_eq, h, if_neg (by decide), if_neg (not_lt.2 hd), bcAct_eq]

/-! ### A port only seen -/

section
variable {s z : State} {p : Nat}

theorem side_MAC_STAT_PAUSED (p : Nat) : (R.MAC_STAT_PAUSED p).side = false :=
  Field.side_of_mid (by simp only [R.MAC_STAT_PAUSED, Field.mk']; omega)

theorem side_MAC_STAT_LOC_FAULT (p : Nat) : (R.MAC_STAT_LOC_FAULT p).side = false :=
  Field.side_of_mid (by simp only [R.MAC_STAT_LOC_FAULT, Field.mk']; omega)
theorem side_MAC_STAT_REM_FAULT (p : Nat) : (R.MAC_STAT_REM_FAULT p).side = false :=
  Field.side_of_mid (by simp only [R.MAC_STAT_REM_FAULT, Field.mk']; omega)

theorem pauseHeld_congr (hp : z.port p = s.port p) (hr : z.rd (R.MAC_STAT_PAUSED p) = s.rd (R.MAC_STAT_PAUSED p)) :
    z.pauseHeld p = s.pauseHeld p := by
  unfold State.pauseHeld State.paused State.txq
  rw [hp, hr]

theorem txRoom_congr {q n : Nat} (h : ∀ q, z.txq p q = s.txq p q) : z.txRoom p q n = s.txRoom p q n := by
  unfold State.txRoom State.queued
  simp only [h]

/-- The faults of an UP port decide alone whether its queues are being discarded. -/
theorem flushing_up (h1 : z.rd (R.MAC_STAT_LOC_FAULT p) = s.rd (R.MAC_STAT_LOC_FAULT p)) (h2 : z.rd (R.MAC_STAT_REM_FAULT p) = s.rd (R.MAC_STAT_REM_FAULT p))
    (hup : z.isUp p = true) (h : s.flushing p = false) : z.flushing p = false := by
  unfold State.flushing State.on at *
  rw [h1, h2, hup]
  simp only [Bool.or_eq_false_iff] at h
  simp [h.1]

@[simp] theorem modPort_ntp (s : State) (p : Nat) (f : Port → Port) : (s.modPort p f).srv.ntp = s.srv.ntp := rfl

/-- What settling a quiet port leaves of it. -/
theorem settle_quiet (h1 : (s.port p).flight = none) (h2 : (s.port p).leaving = []) (h3 : s.pauseHeld p = false) :
    (settle p s).srv.ntp = s.srv.ntp ∧ (settle p s).srv.stats = s.srv.stats ∧ ((settle p s).port p).queues = (s.port p).queues ∧
      Frame [] [.srv] s (settle p s) := by
  obtain ⟨keep, hk⟩ := settleTo_quiet s.nowPs h1 h2 h3
  rw [settle, hk]
  refine ⟨by rw [modPort_ntp, modPort_ntp], by rw [modPort_stats, modPort_stats], ?_, frame_modPort (by simp) (frame_modPort (by simp) (Frame.refl _ _ s))⟩
  rw [port_modPort_same, port_modPort_same]
  rfl

end

theorem ntpBroadcast_off_row (s : State) (p : Fin 32) (h : s.on (R.NTP_BC_CFG_EN p.val) = false) :
    ∃ t, Sys2Proof.Machine.exec (.ntpBroadcast p) s = .next t ∧ Frame [] [] s t := by
  obtain ⟨t, e, k⟩ := go_ended_of (ntpBroadcast_off (s := s.begin) h)
  exact ⟨t, e, k.frame (frame_begin s)⟩

theorem ntpBroadcast_sent_row (s : State) (p : Fin 32) :
    let due := s.bcDue p.val
    let u := s.waitTs0 due
    let i := s.rd (R.NTP_BC_CFG_SVC p.val)
    s.on (R.NTP_BC_CFG_EN p.val) = true →
    due ≤ u.ts0 →
    (s.port p.val).flight = none ∧ (s.port p.val).leaving = [] ∧ s.pauseHeld p.val = false →
    s.rd (R.MAC_STAT_STATE p.val) = 3 →
    (Machine.withheld p.val u).isNone = true →
    svcValid (s.svc p.val i) = true →
    (64 ≤ i ↔ s.rd (R.NTP_BC_CFG_DEST p.val) = 2) →
    s.txRoom p.val 7 (u.bcFrame p.val).length = true →
    s.flushing p.val = false →
    ∃ t, Sys2Proof.Machine.exec (.ntpBroadcast p) s = .next t ∧
      t.txq p.val 7 = s.txq p.val 7 ++ [{ kind := .ntpBcast, bytes := u.bcFrame p.val }] ∧
      IMap.get none (t.ntpDie (p.val / 8)).bcLast (p.val % 8) = some due ∧
      IMap.get 0 t.srv.stats (2048 + p.val / 8 * 32 + 19) = (IMap.get 0 s.srv.stats (2048 + p.val / 8 * 32 + 19) + 1) % 2 ^ 64 ∧
      t.tick = u.tick ∧
      Frame [] [.tick, .lanes, .srv] s t := by
  intro due u i hen hdue hquiet hup hwith hvalid hfam hroom hflush
  obtain ⟨hflight, hleaving, hheld⟩ := hquiet
  obtain ⟨v, hv⟩ : ∃ v, s.begin.waitTs0 due = v := ⟨_, rfl⟩
  have htwin : Twin u v := hv ▸ twin_waitTs0 s due
  have hwait : Frame [] [.tick, .lanes] s v := by
    rw [← hv]
    exact frame_waitTs0 (by simp) (by simp) (frame_begin s)
  have hrd : ∀ {g : Field}, g.side = false → v.rd g = s.rd g := fun hg => hwait.rd (by simp) hg
  have hsrv : v.srv = s.srv := hwait.2.1 .srv (by simp) rfl
  have hport : v.port p.val = s.port p.val := by rw [State.port, State.port, hsrv]
  have hvup : v.isUp p.val = true := decide_eq_true ((hrd (side_of_portBase (key_MAC_STAT_STATE p.val) (by decide))).trans hup)
  have hgoes : v.bcGoes p.val = true := by
    have hsvc : v.svc p.val i = s.svc p.val i := by rw [State.svc, State.svc, hport]
    have hfam' : decide (decide (64 ≤ i) = decide (s.rd (R.NTP_BC_CFG_DEST p.val) = 2)) = true := decide_eq_true (decide_eq_decide.2 hfam)
    rw [State.bcGoes, hrd (side_NTP_BC_CFG_SVC p.val), hrd (side_NTP_BC_CFG_DEST p.val), htwin.withheld, hwith, hvup, hsvc, hvalid, hfam']
    rfl
  obtain ⟨y, hy⟩ : ∃ y, v.modNtp (p.val / 8) (bcSentAt (p.val % 8) due) = y := ⟨_, rfl⟩
  have hyport : y.port p.val = s.port p.val := by rw [← hy]; exact hport
  have hyrd : ∀ g, y.rd g = v.rd g := fun g => by rw [← hy, rd_modNtp]
  have hyheld : y.pauseHeld p.val = false :=
    (pauseHeld_congr hyport ((hyrd _).trans (hrd (side_MAC_STAT_PAUSED p.val)))).trans hheld
  obtain ⟨hntp, hstats, hqueues, hsettled⟩ := settle_quiet (by rw [hyport]; exact hflight) (by rw [hyport]; exact hleaving) hyheld
  obtain ⟨z, hz⟩ : ∃ z, ntpStat (p.val / 8) 19 (settle p.val y) = z := ⟨_, rfl⟩
  have hzsrv : z.srv = { (settle p.val y).srv with
      stats := IMap.upd 0 (settle p.val y).srv.stats (2048 + p.val / 8 * 32 + 19) (fun v => (v + 1) % 2 ^ 64) } := by
    rw [← hz, ntpStat, bumpStat_srv _ _ _ _ _ (by decide)]
  have hztxq : ∀ q, z.txq p.val q = s.txq p.val q := fun q => by
    have hzport : z.port p.val = (settle p.val y).port p.val := by rw [State.port, hzsrv]; rfl
    rw [State.txq, hzport, hqueues, hyport]; rfl
  have hzframe : Frame [] [.tick, .lanes, .srv] s z := by
    have hyframe : Frame [] [.tick, .lanes, .srv] s y := by
      rw [← hy]
      exact frame_modNtp (by simp) (hwait.mono (by simp) (by simp))
    rw [← hz]
    exact frame_bumpStat (by simp) (hyframe.trans (hsettled.mono (by simp) (by simp)))
  have hzrd : ∀ {g : Field}, g.side = false → z.rd g = s.rd g := fun hg => hzframe.rd (by simp) hg
  have hzflush : z.flushing p.val = false :=
    flushing_up (hzrd (side_MAC_STAT_LOC_FAULT p.val)) (hzrd (side_MAC_STAT_REM_FAULT p.val))
      (decide_eq_true ((hzrd (side_of_portBase (key_MAC_STAT_STATE p.val) (by decide))).trans hup)) hflush
  have hbytes : y.bcFrame p.val = u.bcFrame p.val := by
    rw [← hy, bcFrame_modNtp, htwin.bcFrame]
  have hu : ntpBroadcast p.val s.begin = setTxq p.val 7 (z.txq p.val 7 ++ [bcTx (u.bcFrame p.val)]) z := by
    have hbegin : s.begin.bcDue p.val = due := rfl
    have hcome : s.begin.bcDue p.val ≤ (s.begin.waitTs0 (s.begin.bcDue p.val)).ts0 := by
      rw [hbegin, hv, htwin.ts0]
      exact hdue
    rw [ntpBroadcast_due (s := s.begin) hen hcome, hbegin, hv, if_pos hgoes, bcSent, hy, bcPut, hbytes, hz]
    exact enqueue_room ((txRoom_congr hztxq).trans hroom) hzflush
  obtain ⟨t, e, k⟩ := go_ended_of hu
  have hvsent : z.srv.ntp = y.srv.ntp := by rw [hzsrv]; exact hntp
  have htntp : t.srv.ntp = y.srv.ntp := by
    rw [k.srv, setTxq, modPort_ntp, hvsent]
  have hdie : t.ntpDie (p.val / 8) = bcSentAt (p.val % 8) due (v.ntpDie (p.val / 8)) := by
    rw [ntpDie_of_ntp htntp, ← hy, ntpDie_modNtp]
  refine ⟨t, e, ?_, ?_, ?_, ?_, k.frame (frame_modPort (by simp) hzframe)⟩
  · have htport : t.port p.val = (setTxq p.val 7 (z.txq p.val 7 ++ [bcTx (u.bcFrame p.val)]) z).port p.val := by rw [State.port, State.port, k.srv]
    rw [State.txq, htport]
    refine (txq_setTxq_same p.val 7 _ z).trans ?_
    rw [hztxq, bcTx]
  · rw [hdie]
    exact bcSentAt_last _ _ _
  · have hystats : y.srv.stats = s.srv.stats := by rw [← hy, modNtp_stats, hsrv]
    rw [k.srv, setTxq, modPort_stats, hzsrv, hstats, hystats]
    exact stats_upd_same _ _
  · have hztick : z.tick = v.tick := by
      have h1 : z.tick = (settle p.val y).tick := by
        rw [← hz]
        exact (frame_bumpStat (fs := []) (ps := [.srv]) (by simp) (Frame.refl _ _ _)).2.1 .tick (by simp) rfl
      rw [h1, hsettled.2.1 .tick (by simp) rfl, ← hy, modNtp_tick]
    rw [k.tick]
    exact hztick.trans htwin.tick

/-! ### An instant that is not sent (R282) -/

theorem ntpBroadcast_skipped_row (s : State) (p : Fin 32) :
    let due := s.bcDue p.val
    let u := s.waitTs0 due
    s.on (R.NTP_BC_CFG_EN p.val) = true →
    due ≤ u.ts0 →
    (s.rd (R.MAC_STAT_STATE p.val) ≠ 3 ∨ (Machine.withheld p.val u).isSome = true ∨ svcValid (s.svc p.val (s.rd (R.NTP_BC_CFG_SVC p.val))) = false) →
    ∃ t, Sys2Proof.Machine.exec (.ntpBroadcast p) s = .next t ∧
      t.txq p.val 7 = s.txq p.val 7 ∧
      IMap.get none (t.ntpDie (p.val / 8)).bcSkipped (p.val % 8) = some t.tick.count ∧
      (t.ntpDie (p.val / 8)).bcLast = (s.ntpDie (p.val / 8)).bcLast ∧
      bit (t.rd (R.NTP_EVT_BITS (p.val / 8))) 4 = true ∧
      IMap.get 0 t.srv.stats (2048 + p.val / 8 * 32 + 20) = (IMap.get 0 s.srv.stats (2048 + p.val / 8 * 32 + 20) + 1) % 2 ^ 64 ∧
      Frame [R.NTP_EVT_BITS (p.val / 8)] [.tick, .lanes, .srv] s t := by
  intro due u hen hdue hwhy
  obtain ⟨v, hv⟩ : ∃ v, s.begin.waitTs0 due = v := ⟨_, rfl⟩
  have htwin : Twin u v := hv ▸ twin_waitTs0 s due
  have hwait : Frame [] [.tick, .lanes] s v := by
    rw [← hv]
    exact frame_waitTs0 (by simp) (by simp) (frame_begin s)
  have hrd : ∀ {g : Field}, g.side = false → v.rd g = s.rd g := fun hg => hwait.rd (by simp) hg
  have hsrv : v.srv = s.srv := hwait.2.1 .srv (by simp) rfl
  have hport : v.port p.val = s.port p.val := by rw [State.port, State.port, hsrv]
  have hgoes : v.bcGoes p.val = false := by
    rw [State.bcGoes, hrd (side_NTP_BC_CFG_SVC p.val), htwin.withheld, State.svc, hport]
    rcases hwhy with h | h | h
    · have hup : v.isUp p.val = false :=
        decide_eq_false (fun hn => h ((hrd (side_of_portBase (key_MAC_STAT_STATE p.val) (by decide))).symm.trans hn))
      rw [hup, Bool.and_false]
    · have hn : (Machine.withheld p.val u).isNone = false := by rw [← Option.not_isSome, h]; rfl
      rw [hn, Bool.and_false, Bool.false_and]
    · have hs : svcValid (IMap.get [] (s.port p.val).svc (s.rd (R.NTP_BC_CFG_SVC p.val))) = false := h
      rw [hs, Bool.false_and, Bool.false_and, Bool.false_and]
  obtain ⟨y, hy⟩ : ∃ y, v.modNtp (p.val / 8) (bcSkippedAt (p.val % 8) v.tick.count) = y := ⟨_, rfl⟩
  have hu : ntpBroadcast p.val s.begin = (ntpStat (p.val / 8) 20 y).raise (Evt.ntp (p.val / 8)) 16 := by
    have hbegin : s.begin.bcDue p.val = due := rfl
    have hcome : s.begin.bcDue p.val ≤ (s.begin.waitTs0 (s.begin.bcDue p.val)).ts0 := by
      rw [hbegin, hv, htwin.ts0]
      exact hdue
    rw [ntpBroadcast_due (s := s.begin) hen hcome, hbegin, hv, if_neg (by rw [hgoes]; decide), bcMissed, hy, bcSkip]
  obtain ⟨t, e, k⟩ := go_ended_of hu
  have hyframe : Frame [R.NTP_EVT_BITS (p.val / 8)] [.tick, .lanes, .srv] s y := by
    rw [← hy]
    exact frame_modNtp (by simp) (hwait.mono (by simp) (by simp))
  have hraise : Frame [R.NTP_EVT_BITS (p.val / 8)] [] (ntpStat (p.val / 8) 20 y) ((ntpStat (p.val / 8) 20 y).raise (Evt.ntp (p.val / 8)) 16) :=
    frame_raise (by simp [Evt.ntp]) (Frame.refl _ _ _)
  have hstat : Frame [] [.srv] y (ntpStat (p.val / 8) 20 y) := frame_bumpStat (by simp) (Frame.refl _ _ _)
  have htsrv : t.srv = { y.srv with stats := IMap.upd 0 y.srv.stats (2048 + p.val / 8 * 32 + 20) (fun v => (v + 1) % 2 ^ 64) } := by
    rw [k.srv, hraise.2.1 .srv (by simp) rfl, ntpStat, bumpStat_srv _ _ _ _ _ (by decide)]
  have htick : t.tick = v.tick := by
    rw [k.tick, hraise.2.1 .tick (by simp) rfl, hstat.2.1 .tick (by simp) rfl, ← hy, modNtp_tick]
  have hdie : t.ntpDie (p.val / 8) = bcSkippedAt (p.val % 8) v.tick.count (s.ntpDie (p.val / 8)) := by
    have htntp : t.srv.ntp = y.srv.ntp := by rw [htsrv]
    rw [ntpDie_of_ntp htntp, ← hy, ntpDie_modNtp, ntpDie_of_ntp (congrArg Served.ntp hsrv)]
  have hyport : y.port p.val = s.port p.val := by rw [← hy]; exact hport
  refine ⟨t, e, ?_, ?_, ?_, ?_, ?_, k.frame (frame_raise (by simp [Evt.ntp]) (frame_bumpStat (by simp) hyframe))⟩
  · have htport : t.port p.val = y.port p.val := by rw [State.port, State.port, htsrv]
    rw [State.txq, State.txq, htport, hyport]
  · rw [hdie, htick]
    exact bcSkippedAt_last _ _ _
  · rw [hdie]; rfl
  · rw [k.rd (side_NTP_EVT_BITS _)]
    exact bit_ntpEvt (by decide) (bit_two_pow 4)
  · have hystats : y.srv.stats = s.srv.stats := by rw [← hy, modNtp_stats, hsrv]
    rw [htsrv]
    refine (stats_upd_same _ _).trans ?_
    rw [hystats]

end Sys2Proof.Machine
end

section
/-! PROOFS. The rows of an NTS engine that ends its request (R296-R304, R306). -/

namespace Sys2Proof.Machine

/-! ### What a request's end leaves of the engines and of the port -/

/-- The engines of the dies, and what a port's receive side counts on. -/
def ntsView (p : Nat) (v : Served) : IMap NtsDie × Nat := (v.nts, (IMap.get {} v.ports p).rxSeq)

section
variable {s t : State} {p d e : Nat}

/-- The engines and the port's receive side stand. -/
def NtsKept (p : Nat) (s t : State) : Prop := ntsView p t.srv = ntsView p s.srv

namespace NtsKept

theorem refl (p : Nat) (s : State) : NtsKept p s s := rfl

theorem of_srv {u : State} (h : NtsKept p s t) (hu : u.srv = t.srv) : NtsKept p s u := (congrArg (ntsView p) hu).trans h

theorem bumpStat (h : NtsKept p s t) (key event unit n : Nat) : NtsKept p s (bumpStat key event unit n t) := by
  by_cases hn : n = 0
  · subst hn
    exact h
  · refine Eq.trans ?_ h
    rw [bumpStat_srv _ _ _ _ _ hn]
    rfl

theorem raise (h : NtsKept p s t) (e : EvtSrc) (m : Nat) : NtsKept p s (t.raise e m) := h.of_srv (raise_srv t e m)

theorem modNtp (h : NtsKept p s t) (d : Nat) (f : NtpDie → NtpDie) : NtsKept p s (t.modNtp d f) := h

theorem modPort (h : NtsKept p s t) (i : Nat) (f : Port → Port) (hf : ∀ k, (f k).rxSeq = k.rxSeq) : NtsKept p s (t.modPort i f) := by
  refine Eq.trans ?_ h
  have hport : ((t.modPort i f).port p).rxSeq = (t.port p).rxSeq := by
    by_cases hi : p = i
    · subst hi
      rw [port_modPort_same, hf]
    · rw [port_modPort_ne _ _ hi]
  exact congrArg (Prod.mk t.srv.nts) hport

theorem takeKod (h : NtsKept p s t) (d : Nat) : NtsKept p s (takeKod d t).2 := by
  unfold Machine.takeKod
  dsimp only
  split
  · exact (h.modNtp d _).modNtp d _
  · exact h.modNtp d _

theorem setTxq (h : NtsKept p s t) (i q : Nat) (l : List TxFrame) : NtsKept p s (setTxq i q l t) := h.modPort i _ fun _ => rfl

/-- A frame of the device's own that finds no room or a fault is only counted. -/
theorem enqueue_still (h : NtsKept p s t) (i q : Nat) {f : TxFrame} {entry : Option Nat} (hf : f.kind = .still entry) :
    NtsKept p s (enqueue i q f t) := by
  have hdrop : ∀ u : State, discardFrame f false u = u := fun u => by rw [discardFrame, hf]
  unfold enqueue enqueueAhead
  split
  · rw [hdrop]
    exact h.bumpStat _ _ _ _
  · split
    · rw [faultDrop, List.foldl_cons, List.foldl_nil, hdrop]
      exact h.bumpStat _ _ _ _
    · exact h.setTxq _ _ _

theorem ntsNak (h : NtsKept p s t) (a : Arrived) (entry : Option Nat) (uid : List Nat) (counter : Nat) :
    NtsKept p s (ntsNak a entry uid counter t) := by
  have h1 : NtsKept p s (ntsStat a.die counter 1 t) := h.bumpStat _ _ _ _
  obtain ⟨q, hq⟩ : ∃ q, (if (ntsStat a.die counter 1 t).on (R.NTS_CTL_NAK_EN a.die) then Machine.takeKod a.die (ntsStat a.die counter 1 t)
      else (false, ntsStat a.die counter 1 t)) = q := ⟨_, rfl⟩
  have h2 : NtsKept p s q.2 := by
    rw [← hq]
    split
    · exact h1.takeKod _
    · exact h1
  unfold Machine.ntsNak
  dsimp only
  rw [hq]
  split
  · exact ((h2.bumpStat _ _ _ _).raise _ _).enqueue_still _ _ (entry := entry) rfl
  · exact (h2.bumpStat _ _ _ _).raise _ _

theorem ntsDie (h : NtsKept p s t) (d : Nat) : t.ntsDie d = s.ntsDie d := congrArg (IMap.get ({} : NtsDie) · d) (congrArg Prod.fst h)
theorem rxSeq (h : NtsKept p s t) : (t.port p).rxSeq = (s.port p).rxSeq := congrArg Prod.snd h

end NtsKept

/-! ### The next request (R296) and an idle engine (R306) -/

/-- With no request waiting the admission queue only shows its length. -/
theorem dispatchNts_empty (h : (s.ntsDie d).queue = []) : dispatchNts d s = s.wr (R.NTS_STAT_QUEUE d) 0 := by
  have hq : ((s.wr (R.NTS_STAT_QUEUE d) 0).ntsDie d).queue = [] := h
  unfold dispatchNts ntsDispatch
  dsimp only
  rw [h, List.length_nil, hq]

theorem ntsDie_modNts (f : NtsDie → NtsDie) : (s.modNts d f).ntsDie d = f (s.ntsDie d) := IMap.get_upd_same ({} : NtsDie) s.srv.nts d f

@[simp] theorem modNts_stats (s : State) (d : Nat) (f : NtsDie → NtsDie) : (s.modNts d f).srv.stats = s.srv.stats := rfl
@[simp] theorem modNts_ports (s : State) (d : Nat) (f : NtsDie → NtsDie) : (s.modNts d f).srv.ports = s.srv.ports := rfl
@[simp] theorem rd_modNts (s : State) (d : Nat) (f : NtsDie → NtsDie) (g : Field) : (s.modNts d f).rd g = s.rd g := rfl

/-- The die with a parking engine parked. -/
def parkedOne (e : Nat) (k : NtsDie) : NtsDie := { k with parking := k.parking - 2 ^ e }

/-- Parking an idle engine leaves statistics, ports and requests. -/
theorem parkIdle_srv (d e : Nat) (s : State) : (parkIdle d e s).srv.stats = s.srv.stats ∧ (parkIdle d e s).srv.ports = s.srv.ports ∧
    ((parkIdle d e s).ntsDie d).engines = (s.ntsDie d).engines := by
  unfold parkIdle
  split
  · have hdie : ((s.modNts d (parkedOne e)).ntsDie d).engines = (s.ntsDie d).engines := by rw [ntsDie_modNts]; rfl
    exact ⟨modNts_stats s d (parkedOne e), modNts_ports s d (parkedOne e), hdie⟩
  · exact ⟨rfl, rfl, rfl⟩

theorem side_NTS_EVT_BITS (d : Nat) : (R.NTS_EVT_BITS d).side = false := side_of_ntsBase (key_NTS_EVT_BITS d) (by decide)

theorem parkedField_ne_evt (d : Nat) : (R.NTS_EVT_BITS d).key ≠ (parkedField d).key := by
  have hlow : (parkedField d).key < 0x1200000 * 32 := by
    unfold parkedField
    split <;> decide
  rw [key_NTS_EVT_BITS, ntsBase]
  omega

theorem rd_parkIdle_evt (d e : Nat) (s : State) : (parkIdle d e s).rd (R.NTS_EVT_BITS d) = s.rd (R.NTS_EVT_BITS d) := by
  unfold parkIdle
  split
  · exact (rd_wr_ne _ _ (parkedField_ne_evt d)).trans (rd_wr_ne _ _ (by simp))
  · rfl

/-- The die with an engine free again. -/
def engineFreed (e : Nat) (k : NtsDie) : NtsDie := { k with engines := IMap.put none k.engines e none }

theorem ntsEngineDone_idle (h : s.engineJob d e = none) : ntsEngineDone d e s = s := by
  unfold ntsEngineDone
  rw [h]

theorem ntsEngineDone_busy {j : NtsJob} (h : s.engineJob d e = some j) :
    ntsEngineDone d e s = parkIdle d e (dispatchNts d (ntsJudge j (s.modNts d (engineFreed e)))) := by
  unfold ntsEngineDone
  rw [h]
  rfl

/-- A request judged with the engines left as they were, the port's receive side too. -/
structure Judged (d e p : Nat) (s t : State) : Prop where
  queue : (t.ntsDie d).queue = (s.ntsDie d).queue
  free : IMap.get none (t.ntsDie d).engines e = none
  rxSeq : (t.port p).rxSeq = (s.port p).rxSeq

theorem engineFreed_free (k : NtsDie) : IMap.get none (engineFreed e k).engines e = none := IMap.get_put_same (none : Option NtsJob) k.engines e none

theorem Judged.of_kept (h : NtsKept p (s.modNts d (engineFreed e)) t) : Judged d e p s t := by
  have hdie : t.ntsDie d = engineFreed e (s.ntsDie d) := (h.ntsDie d).trans (ntsDie_modNts _)
  exact ⟨by rw [hdie]; rfl, by rw [hdie]; exact engineFreed_free _, h.rxSeq⟩

end

theorem ntsEngineDone_idle_row (s : State) (n : Fin 4) (e : Fin 12) (h : s.engineJob n.val e.val = none) :
    ∃ t, Sys2Proof.Machine.exec (.ntsEngineDone n e) s = .next t ∧ Frame [] [] s t := by
  obtain ⟨t, ht, k⟩ := go_ended_of (ntsEngineDone_idle (s := s.begin) h)
  exact ⟨t, ht, k.frame (frame_begin s)⟩

/-! ### Statistics counted once -/

/-- A statistic one higher. -/
def counted1 (m : IMap Nat) (k : Nat) : IMap Nat := IMap.upd 0 m k fun v => (v + 1) % 2 ^ 64

theorem get_counted1 (m : IMap Nat) (k : Nat) : IMap.get 0 (counted1 m k) k = (IMap.get 0 m k + 1) % 2 ^ 64 := stats_upd_same m k

theorem get_counted1_ne (m : IMap Nat) {k i : Nat} (h : i ≠ k) : IMap.get 0 (counted1 m k) i = IMap.get 0 m i := IMap.get_upd_ne 0 m _ h

/-! ### A request judged (R297-R304) -/

section
variable {s : State} {j : NtsJob} {q : NtsParts}

/-- The unique identifier of a request, as its answer carries it. -/
def NtsJob.uid (j : NtsJob) (q : NtsParts) : List Nat := slice j.arrived.payload q.uid.ofs (q.uid.body.length + 4)

theorem ntsJudge_unknown (hq : ntsParts j.arrived.payload = some q)
    (hk : j.keys.find? (fun k => k.1 ≠ 0 ∧ k.2.1 = beAt q.cookie 0 4) = none) : ntsJudge j s = ntsNak j.arrived j.entry (j.uid q) 6 s := by
  unfold ntsJudge
  dsimp only
  rw [hq]
  dsimp only
  rw [hk]
  rfl

/-- A NAK where they are off is only counted. -/
theorem ntsNak_off {a : Arrived} {entry : Option Nat} {uid : List Nat} {counter : Nat} (h : s.rd (R.NTS_CTL_NAK_EN a.die) = 0) :
    ntsNak a entry uid counter s = (ntsStat a.die 5 1 (ntsStat a.die counter 1 s)).raise (Evt.nts a.die) 4 := by
  have hoff : (ntsStat a.die counter 1 s).on (R.NTS_CTL_NAK_EN a.die) = false := by
    have hrd := rd_bumpStat (2176 + a.die * 32 + counter) (0x160 + counter) a.die 1 s
      (side_of_ntsBase (key_NTS_CTL_NAK_EN a.die) (by decide))
    exact decide_eq_false (by rw [ntsStat, hrd, h]; decide)
  unfold ntsNak
  dsimp only
  rw [hoff]
  rfl

end

theorem ntsEngineDone_unknown_row (s : State) (n : Fin 4) (e : Fin 12) (j : NtsJob) (q : NtsParts) (hj : s.engineJob n.val e.val = some j)
    (hd : j.port / 8 = n.val) (hqueue : (s.ntsDie n.val).queue = []) (hq : ntsParts j.arrived.payload = some q)
    (hk : j.keys.find? (fun k => k.1 ≠ 0 ∧ k.2.1 = beAt q.cookie 0 4) = none) (hnak : s.rd (R.NTS_CTL_NAK_EN n.val) = 0) :
    ∃ t, Sys2Proof.Machine.exec (.ntsEngineDone n e) s = .next t ∧
      t.engineJob n.val e.val = none ∧
      IMap.get 0 t.srv.stats (2176 + n.val * 32 + 6) = (IMap.get 0 s.srv.stats (2176 + n.val * 32 + 6) + 1) % 2 ^ 64 ∧
      IMap.get 0 t.srv.stats (2176 + n.val * 32 + 5) = (IMap.get 0 s.srv.stats (2176 + n.val * 32 + 5) + 1) % 2 ^ 64 ∧
      bit (t.rd (R.NTS_EVT_BITS n.val)) 2 = true ∧
      (t.port j.port).ready = (s.port j.port).ready ∧
      Touches [.srv, .regs .nts, .regs .pwr] s t := by
  obtain ⟨x, hx⟩ : ∃ x, s.begin.modNts n.val (engineFreed e.val) = x := ⟨_, rfl⟩
  obtain ⟨y, hy⟩ : ∃ y, (ntsStat n.val 5 1 (ntsStat n.val 6 1 x)).raise (Evt.nts n.val) 4 = y := ⟨_, rfl⟩
  have hdie : j.arrived.die = n.val := hd
  have hjudge : ntsJudge j x = y := by
    rw [ntsJudge_unknown hq hk, ntsNak_off (by rw [hdie, ← hx]; exact hnak), hdie, hy]
  have hkept : NtsKept j.port x y := by
    rw [← hy]
    exact (((NtsKept.refl _ x).bumpStat _ _ _ _).bumpStat _ _ _ _).raise _ _
  have hend : Judged n.val e.val j.port s.begin y := .of_kept (by rw [hx]; exact hkept)
  have hu : ntsEngineDone n.val e.val s.begin = parkIdle n.val e.val (y.wr (R.NTS_STAT_QUEUE n.val) 0) := by
    rw [ntsEngineDone_busy (s := s.begin) hj, hx, hjudge, dispatchNts_empty (hend.queue.trans hqueue)]
  obtain ⟨t, ht, k⟩ := go_ended_of hu
  obtain ⟨hstats, hports, hengines⟩ := parkIdle_srv n.val e.val (y.wr (R.NTS_STAT_QUEUE n.val) 0)
  have hysrv : y.srv = { x.srv with
      stats := counted1 (counted1 x.srv.stats (2176 + n.val * 32 + 6)) (2176 + n.val * 32 + 5) } := by
    rw [← hy, raise_srv, ntsStat, bumpStat_srv _ _ _ _ _ (by decide), ntsStat, bumpStat_srv _ _ _ _ _ (by decide)]
    rfl
  have htstats : t.srv.stats = counted1 (counted1 s.srv.stats (2176 + n.val * 32 + 6)) (2176 + n.val * 32 + 5) := by
    rw [k.srv, hstats, wr_srv, hysrv, ← hx]
    rfl
  have htports : t.srv.ports = s.srv.ports := by
    rw [k.srv, hports, wr_srv, hysrv, ← hx]
    rfl
  refine ⟨t, ht, ?_, ?_, ?_, ?_, by rw [State.port, State.port, htports], k.touches ?_⟩
  · have htdie : (t.ntsDie n.val).engines = (y.ntsDie n.val).engines := by
      have h : t.ntsDie n.val = (parkIdle n.val e.val (y.wr (R.NTS_STAT_QUEUE n.val) 0)).ntsDie n.val := by rw [State.ntsDie, State.ntsDie, k.srv]
      rw [h, hengines]
      rfl
    rw [State.engineJob, htdie]
    exact hend.free
  · rw [htstats, get_counted1_ne _ (by omega), get_counted1]
  · rw [htstats, get_counted1, get_counted1_ne _ (by omega)]
  · rw [k.rd (side_NTS_EVT_BITS _), rd_parkIdle_evt, rd_wr_ne _ _ (by simp), ← hy]
    exact bit_raise (e := Evt.nts n.val) (side_NTS_EVT_BITS _) (show 2 < 6 by decide) (bit_two_pow 2)
  · refine touches_parkIdle _ _ _ (by simp) (by simp) (by simp) (touches_State_wr (has_R_NTS_STAT_QUEUE _) (by simp) ?_)
    rw [← hy, ← hx]
    exact touches_State_raise (has_Evt_nts _) (by simp) (touches_ntsStat _ _ _ _ (by simp) (touches_ntsStat _ _ _ _ (by simp)
      (touches_State_modNts _ _ _ (by simp) (touches_begin _ s))))

/-! ### A request whose key is known (R298-R302) -/

section
variable {s : State} {j : NtsJob} {q : NtsParts} {key : Nat × Nat × List Nat}

/-- What the checks of a request under a known key come to. -/
theorem ntsJudge_known (hq : ntsParts j.arrived.payload = some q)
    (hk : j.keys.find? (fun k => k.1 ≠ 0 ∧ k.2.1 = beAt q.cookie 0 4) = some key) :
    (∃ counter, ntsJudge j s = ntsNak j.arrived j.entry (j.uid q) counter s) ∨
      ∃ plain, ntsJudge j s = ntsBuild j.arrived j.entry q j.keys plain s := by
  unfold ntsJudge
  dsimp only
  rw [hq]
  dsimp only
  rw [hk]
  dsimp only
  split
  · exact .inl ⟨7, rfl⟩
  · next plain _ =>
    split
    · exact .inl ⟨7, rfl⟩
    · split
      · exact .inl ⟨8, rfl⟩
      · exact .inr ⟨plain, rfl⟩

/-- A request that authenticates is answered. -/
theorem ntsJudge_good (hq : ntsParts j.arrived.payload = some q)
    (hk : j.keys.find? (fun k => k.1 ≠ 0 ∧ k.2.1 = beAt q.cookie 0 4) = some key) (hlen : q.cookie.length = 104) {plain x : List Nat}
    (hopen : sivOpen key.2.2 (slice q.cookie 0 4) (slice q.cookie 4 16) (slice q.cookie 20 84) = some plain) (h1 : beAt plain 0 2 = 15)
    (h2 : beAt plain 2 2 = 0) (hauth : sivOpen (slice plain 4 32) (j.arrived.payload.take q.auth.ofs)
      (slice q.auth.body 4 (beAt q.auth.body 0 2)) (slice q.auth.body (4 + pad4 (beAt q.auth.body 0 2)) (beAt q.auth.body 2 2)) = some x) :
    ntsJudge j s = ntsBuild j.arrived j.entry q j.keys plain s := by
  unfold ntsJudge
  dsimp only
  rw [hq]
  dsimp only
  rw [hk]
  dsimp only
  rw [if_pos hlen, hopen]
  dsimp only
  rw [if_neg (by simp [h1, h2]), hauth]

/-- The die with outputs of its random bit generator taken. -/
def noncesDrawn (n : Nat) (k : NtsDie) : NtsDie := { k with drawn := k.drawn + n + 1 }

/-- The port with a finished response. -/
def readied (f : TxFrame) (k : Port) : Port := { k with ready := k.ready ++ [f] }

/-- The state in which a response is built. -/
def building (d held n : Nat) (s : State) : State := (ntsStat d 13 held s).modNts d (noncesDrawn n)

/-- How many cookies a response carries. -/
def NtsParts.fresh (q : NtsParts) : Nat := 1 + min 7 (q.holders.filter (· = 104)).length

/-- How many placeholders go unanswered. -/
def NtsParts.unanswered (q : NtsParts) : Nat := q.holders.length - min 7 (q.holders.filter (· = 104)).length

/-- The response (R299-R301). -/
def ntsResponse (a : Arrived) (entry : Option Nat) (q : NtsParts) (keys : List (Nat × Nat × List Nat)) (plain : List Nat) (at_ : Nat) (s : State) :
    TxFrame :=
  let cur := (keys.find? (fun k => k.1 = 2)).getD (0, 0, [])
  let cookies := (List.range q.fresh).map (fun i => makeCookie cur.2.1 cur.2.2 (drawNonce a.die (at_ + i)) plain)
  let head := s.ntpHead a.die 4 4 (a.payload.getD 2 0) ++ slice a.payload 40 8 ++ be 8 (s.ntpTime a.tRx) ++ List.replicate 8 0
  let auth := be 2 0x0404 ++ be 2 (40 + 108 * q.fresh) ++ be 2 16 ++ be 2 (16 + 108 * q.fresh) ++ List.replicate (32 + 108 * q.fresh) 0
  { kind := .nts { entry := entry, key := slice plain 36 32, nonce := drawNonce a.die (at_ + q.fresh), cookies := cookies }
    bytes := s.ntpReply a (head ++ slice a.payload q.uid.ofs (q.uid.body.length + 4) ++ auth)
    rx := some a.rx }

/-- A finished response waits, or is lost where its port is not UP. -/
def readyOrLost (a : Arrived) (f : TxFrame) (s : State) : State :=
  if s.isUp a.port then s.modPort a.port (readied f) else (ntsStat a.die 11 1 s).raise (Evt.nts a.die) 32

theorem ntsBuild_eq (a : Arrived) (entry : Option Nat) (q : NtsParts) (keys : List (Nat × Nat × List Nat)) (plain : List Nat) (s : State) :
    ntsBuild a entry q keys plain s = readyOrLost a (ntsResponse a entry q keys plain ((ntsStat a.die 13 q.unanswered s).ntsDie a.die).drawn
      (building a.die q.unanswered q.fresh s)) (building a.die q.unanswered q.fresh s) := rfl

/-- On a port that is UP the finished response is the last of those ready. -/
theorem ntsBuild_up {a : Arrived} {entry : Option Nat} {keys : List (Nat × Nat × List Nat)} {plain : List Nat}
    (h : s.rd (R.MAC_STAT_STATE a.port) = 3) : ∃ held n f, ntsBuild a entry q keys plain s = (building a.die held n s).modPort a.port (readied f) ∧
      f.rx = some a.rx ∧ f.isNts = true := by
  have hup : (building a.die q.unanswered q.fresh s).isUp a.port = true := by
    have hrd := rd_bumpStat (2176 + a.die * 32 + 13) (0x160 + 13) a.die q.unanswered s (side_of_portBase (key_MAC_STAT_STATE a.port) (by decide))
    exact decide_eq_true (hrd.trans h)
  rw [ntsBuild_eq, readyOrLost, if_pos hup]
  exact ⟨_, _, _, rfl, rfl, rfl⟩

theorem building_srv (d held n : Nat) (s : State) : ((building d held n s).ntsDie d) = noncesDrawn n (s.ntsDie d) ∧
    (building d held n s).srv.ports = s.srv.ports := by
  have hview : (ntsStat d 13 held s).srv.nts = s.srv.nts ∧ (ntsStat d 13 held s).srv.ports = s.srv.ports := by
    by_cases hn : held = 0
    · subst hn
      exact ⟨rfl, rfl⟩
    · rw [ntsStat, bumpStat_srv _ _ _ _ _ hn]
      exact ⟨rfl, rfl⟩
  refine ⟨?_, hview.2⟩
  have hdie : (ntsStat d 13 held s).ntsDie d = s.ntsDie d := by rw [State.ntsDie, State.ntsDie, hview.1]
  rw [building, ntsDie_modNts, hdie]

end

theorem ntsEngineDone_known_row (s : State) (n : Fin 4) (e : Fin 12) (j : NtsJob) (q : NtsParts) (key : Nat × Nat × List Nat)
    (hj : s.engineJob n.val e.val = some j) (hd : j.port / 8 = n.val) (hqueue : (s.ntsDie n.val).queue = [])
    (hq : ntsParts j.arrived.payload = some q) (hk : j.keys.find? (fun k => k.1 ≠ 0 ∧ k.2.1 = beAt q.cookie 0 4) = some key)
    (hlen : q.cookie.length = 104) (hup : s.rd (R.MAC_STAT_STATE j.port) = 3) : ∃ t, Sys2Proof.Machine.exec (.ntsEngineDone n e) s = .next t ∧
      t.engineJob n.val e.val = none ∧
      (∀ plain x, sivOpen key.2.2 (slice q.cookie 0 4) (slice q.cookie 4 16) (slice q.cookie 20 84) = some plain → beAt plain 0 2 = 15 →
        beAt plain 2 2 = 0 → sivOpen (slice plain 4 32) (j.arrived.payload.take q.auth.ofs) (slice q.auth.body 4 (beAt q.auth.body 0 2))
          (slice q.auth.body (4 + pad4 (beAt q.auth.body 0 2)) (beAt q.auth.body 2 2)) = some x →
        ∃ f, (t.port j.port).ready = (s.port j.port).ready ++ [f] ∧ f.rx = some j.rx ∧ f.isNts = true) ∧
      (t.port j.port).rxSeq = (s.port j.port).rxSeq ∧
      Touches [.srv, .rings, .regs .nts, .regs .pwr, .regs .ring] s t := by
  obtain ⟨x, hx⟩ : ∃ x, s.begin.modNts n.val (engineFreed e.val) = x := ⟨_, rfl⟩
  have hdie : j.arrived.die = n.val := hd
  have hxup : x.rd (R.MAC_STAT_STATE j.arrived.port) = 3 := by rw [← hx]; exact hup
  have hxdie : x.ntsDie n.val = engineFreed e.val (s.ntsDie n.val) := by
    rw [← hx]
    exact ntsDie_modNts (s := s.begin) _
  have hxports : x.srv.ports = s.srv.ports := by rw [← hx]; rfl
  have hbuilt : ∀ plain, ∃ f, ((ntsBuild j.arrived j.entry q j.keys plain x).port j.port).ready = (s.port j.port).ready ++ [f] ∧ f.rx = some j.rx ∧
      f.isNts = true ∧ Judged n.val e.val j.port s.begin (ntsBuild j.arrived j.entry q j.keys plain x) := fun plain => by
    obtain ⟨held, m, f, hb, hrx, hnts⟩ := ntsBuild_up (q := q) (entry := j.entry) (keys := j.keys) (plain := plain) hxup
    obtain ⟨hbdie, hbports⟩ := building_srv n.val held m x
    have hport : ((building n.val held m x).modPort j.port (readied f)).port j.port = readied f (s.port j.port) := by
      rw [port_modPort_same, State.port, hbports, hxports]
      rfl
    have hnd : ((building n.val held m x).modPort j.port (readied f)).ntsDie n.val = noncesDrawn m (engineFreed e.val (s.ntsDie n.val)) := by
      rw [← hxdie, ← hbdie]
      rfl
    have hat : j.arrived.port = j.port := rfl
    rw [hb, hdie, hat]
    exact ⟨f, congrArg Port.ready hport, hrx, hnts, by rw [hnd]; rfl, by rw [hnd]; exact engineFreed_free _, (congrArg Port.rxSeq hport).trans rfl⟩
  obtain ⟨y, hy⟩ : ∃ y, ntsJudge j x = y := ⟨_, rfl⟩
  have hend : Judged n.val e.val j.port s.begin y := by
    rw [← hy]
    rcases ntsJudge_known (s := x) hq hk with ⟨counter, h⟩ | ⟨plain, h⟩
    · rw [h]
      exact .of_kept (by rw [hx]; exact (NtsKept.refl _ x).ntsNak _ _ _ _)
    · rw [h]
      obtain ⟨f, -, -, -, hb⟩ := hbuilt plain
      exact hb
  have hu : ntsEngineDone n.val e.val s.begin = parkIdle n.val e.val (y.wr (R.NTS_STAT_QUEUE n.val) 0) := by
    rw [ntsEngineDone_busy (s := s.begin) hj, hx, hy, dispatchNts_empty (hend.queue.trans hqueue)]
  obtain ⟨t, ht, k⟩ := go_ended_of hu
  obtain ⟨-, hports, hengines⟩ := parkIdle_srv n.val e.val (y.wr (R.NTS_STAT_QUEUE n.val) 0)
  have htport : t.port j.port = y.port j.port := by
    rw [State.port, State.port, k.srv, hports, wr_srv]
  refine ⟨t, ht, ?_, fun plain z h1 h2 h3 h4 => ?_, by rw [htport]; exact hend.rxSeq, ?_⟩
  · have htdie : (t.ntsDie n.val).engines = (y.ntsDie n.val).engines := by
      have h : t.ntsDie n.val = (parkIdle n.val e.val (y.wr (R.NTS_STAT_QUEUE n.val) 0)).ntsDie n.val := by rw [State.ntsDie, State.ntsDie, k.srv]
      rw [h, hengines]
      rfl
    rw [State.engineJob, htdie]
    exact hend.free
  · obtain ⟨f, hready, hrx, hnts, -⟩ := hbuilt plain
    rw [htport, ← hy, ntsJudge_good hq hk hlen h1 h2 h3 h4]
    exact ⟨f, hready, hrx, hnts⟩
  · exact touches_go ht (touches_ntsEngineDone _ _ _ (by simp) (by simp) (by simp) (by simp) (by simp) (touches_begin _ s))

end Sys2Proof.Machine
end

section
/-! PROOFS. The rows of a key change's instant (R288-R290), and NTP and NTS settled. -/

namespace Sys2Proof.Machine

/-! ### The slots (R289) -/

section
variable {fs : List Field} {ps : List Part} {s₀ s : State}

theorem keySlot_set_same (s : State) (k : Nat) (v : Nat × Nat × List Nat) : (s.setKeySlot k v).keySlot k = v :=
  IMap.get_put_same ((0, 0, []) : Nat × Nat × List Nat) s.srv.keys k v

theorem keySlot_set_ne (s : State) {k j : Nat} (v : Nat × Nat × List Nat) (h : j ≠ k) : (s.setKeySlot k v).keySlot j = s.keySlot j :=
  IMap.get_put_ne ((0, 0, []) : Nat × Nat × List Nat) s.srv.keys v h

/-- A slot no longer CURRENT. -/
def demoted (v : Nat × Nat × List Nat) : Nat × Nat × List Nat := (if v.1 = 2 then 1 else v.1, v.2)

/-- A slot of the Keeper made ACCEPT where it is CURRENT. -/
def demote (s : State) (k : Nat) : State := if (s.keySlot k).1 = 2 then s.setKeySlot k (1, (s.keySlot k).2) else s

theorem keySlot_demote_same (s : State) (k : Nat) : (demote s k).keySlot k = demoted (s.keySlot k) := by
  unfold demote demoted
  split
  · rw [keySlot_set_same]
  · rfl

theorem keySlot_demote_ne (s : State) {k j : Nat} (h : j ≠ k) : (demote s k).keySlot j = s.keySlot j := by
  unfold demote
  split
  · exact keySlot_set_ne _ _ h
  · rfl

theorem keySlot_demoteAll (l : List Nat) (hl : l.Nodup) (s : State) (j : Nat) :
    (l.foldl demote s).keySlot j = if j ∈ l then demoted (s.keySlot j) else s.keySlot j := by
  induction l generalizing s with
  | nil => rfl
  | cons k l ih =>
    obtain ⟨hk, hl⟩ := List.nodup_cons.1 hl
    rw [List.foldl_cons, ih hl]
    by_cases hj : j = k
    · subst hj
      rw [if_neg hk, if_pos List.mem_cons_self, keySlot_demote_same]
    · rw [keySlot_demote_ne _ hj]
      simp [hj]

theorem applyKeyChange_promote {c : KeyChange} (h : c.op = 0x0711) (s : State) : applyKeyChange c s =
    (keySlots.foldl demote s).setKeySlot c.slot (2, ((keySlots.foldl demote s).keySlot c.slot).2) := by
  unfold applyKeyChange
  rw [if_neg (by rw [h]; decide), if_pos h]
  rfl

/-- The slots after a promotion. -/
theorem promoted_slots {c : KeyChange} (h : c.op = 0x0711) (hs : c.slot < 4) (s : State) :
    (applyKeyChange c s).keySlot c.slot = (2, (s.keySlot c.slot).2) ∧
      ∀ j : Fin 4, j.val ≠ c.slot → (applyKeyChange c s).keySlot j.val = demoted (s.keySlot j.val) := by
  have hmem : ∀ j < 4, j ∈ keySlots := by decide
  have hall : ∀ j < 4, (keySlots.foldl demote s).keySlot j = demoted (s.keySlot j) := fun j hj => by
    rw [keySlot_demoteAll _ (by decide), if_pos (hmem j hj)]
  rw [applyKeyChange_promote h]
  refine ⟨?_, fun j hj => ?_⟩
  · rw [keySlot_set_same, hall _ hs]
    rfl
  · rw [keySlot_set_ne _ _ hj, hall _ j.isLt]

theorem applyKeyChange_load {c : KeyChange} (h : c.op = 0x0710) (s : State) : applyKeyChange c s = s.setKeySlot c.slot (1, c.id, c.key) :=
  if_pos h

theorem applyKeyChange_retire {c : KeyChange} (h : c.op = 0x0712) (s : State) : applyKeyChange c s = s.setKeySlot c.slot (0, 0, []) := by
  unfold applyKeyChange
  rw [if_neg (by rw [h]; decide), if_neg (by rw [h]; decide)]

/-- A key change moves the slots alone. -/
theorem frame_demote (k : Nat) (hs : Part.srv ∈ ps) (h : Frame fs ps s₀ s) : Frame fs ps s₀ (demote s k) := frame_ite (frame_set_srv hs h) h

theorem frame_applyKeyChange (c : KeyChange) (hs : Part.srv ∈ ps) (h : Frame fs ps s₀ s) : Frame fs ps s₀ (applyKeyChange c s) :=
  frame_ite (frame_set_srv hs h) (frame_ite (frame_set_srv hs (frame_foldl h fun _ k _ hv => frame_demote k hs hv)) (frame_set_srv hs h))

@[simp] theorem setKeySlot_chgSeq (s : State) (k : Nat) (v : Nat × Nat × List Nat) : (s.setKeySlot k v).srv.chgSeq = s.srv.chgSeq := rfl

theorem demoteAll_chgSeq (l : List Nat) (s : State) : (l.foldl demote s).srv.chgSeq = s.srv.chgSeq := by
  induction l generalizing s with
  | nil => rfl
  | cons k l ih =>
    rw [List.foldl_cons, ih, demote]
    split
    · exact setKeySlot_chgSeq _ _ _
    · rfl

theorem applyKeyChange_chgSeq (c : KeyChange) (s : State) : (applyKeyChange c s).srv.chgSeq = s.srv.chgSeq := by
  by_cases h : c.op = 0x0711
  · rw [applyKeyChange_promote h, setKeySlot_chgSeq, demoteAll_chgSeq]
  · unfold applyKeyChange
    rw [if_neg h]
    split <;> exact setKeySlot_chgSeq _ _ _

/-! ### The dies told (R288, R290) -/

theorem key_NTS_KEY_ID_ID {d j : Nat} (hd : d < 4) (hj : j < 4) : (R.NTS_KEY_ID_ID (d * 4 + j)).key = ntsBase d + (1024 + 128 * j) := by
  simp only [R.NTS_KEY_ID_ID, Field.mk', ntsBase]
  omega

/-- The key IDs copied to a die. -/
def idsCopied (s : State) (d : Nat) : State := keySlots.foldl (fun s k => s.wr (R.NTS_KEY_ID_ID (d * 4 + k)) (s.keySlot k).2.1) s

theorem idsCopied_eq (s : State) (d : Nat) : idsCopied s d =
    (((s.wr (R.NTS_KEY_ID_ID (d * 4 + 0)) (s.keySlot 0).2.1).wr (R.NTS_KEY_ID_ID (d * 4 + 1)) (s.keySlot 1).2.1).wr
      (R.NTS_KEY_ID_ID (d * 4 + 2)) (s.keySlot 2).2.1).wr (R.NTS_KEY_ID_ID (d * 4 + 3)) (s.keySlot 3).2.1 := rfl

theorem rd_idsCopied (s : State) {d j : Nat} (hd : d < 4) (hj : j < 4) :
    (idsCopied s d).rd (R.NTS_KEY_ID_ID (d * 4 + j)) = (s.keySlot j).2.1 % 2 ^ 32 := by
  have hne : ∀ i j, i < 4 → j < 4 → i ≠ j → (R.NTS_KEY_ID_ID (d * 4 + i)).key ≠ (R.NTS_KEY_ID_ID (d * 4 + j)).key := fun i j hi hj hij => by
    rw [key_NTS_KEY_ID_ID hd hi, key_NTS_KEY_ID_ID hd hj]
    omega
  rw [idsCopied_eq]
  interval_cases j
  · rw [rd_wr_ne _ _ (hne 0 3 (by decide) (by decide) (by decide)), rd_wr_ne _ _ (hne 0 2 (by decide) (by decide) (by decide)),
      rd_wr_ne _ _ (hne 0 1 (by decide) (by decide) (by decide)), rd_wr_same]
    rfl
  · rw [rd_wr_ne _ _ (hne 1 3 (by decide) (by decide) (by decide)), rd_wr_ne _ _ (hne 1 2 (by decide) (by decide) (by decide)), rd_wr_same]
    rfl
  · rw [rd_wr_ne _ _ (hne 2 3 (by decide) (by decide) (by decide)), rd_wr_same]
    rfl
  · rw [rd_wr_same]
    rfl

theorem copyKeys_eq (s : State) (d : Nat) : copyKeys s d =
    ((((idsCopied s d).wr (R.NTS_KEY_STATE_S d) (idsCopied s d).keyStates).wr (R.NTS_KEY_STATE_CHG_SEQ d) s.srv.chgSeq).wr
      (R.NTS_STAT_KEY_PEND d) (b01 s.srv.keyChange.isSome)).wr (R.NTS_STAT_KEY_CURRENT d) (b01 (keySlots.any (fun k => (s.keySlot k).1 = 2))) := rfl

/-- A die told of a change. -/
def dieTold (s : State) (d : Nat) : State := (copyKeys s d).raise (Evt.nts d) 16

theorem dieTold_srv (s : State) (d : Nat) : (dieTold s d).srv = s.srv := by rw [dieTold, raise_srv]; rfl

/-- The fields of a die that a change of the keys moves. -/
abbrev keyFields (d : Nat) : List Field :=
  [R.NTS_KEY_ID_ID (d * 4 + 0), R.NTS_KEY_ID_ID (d * 4 + 1), R.NTS_KEY_ID_ID (d * 4 + 2), R.NTS_KEY_ID_ID (d * 4 + 3), R.NTS_KEY_STATE_S d,
    R.NTS_KEY_STATE_CHG_SEQ d, R.NTS_STAT_KEY_PEND d, R.NTS_STAT_KEY_CURRENT d, R.NTS_EVT_BITS d]

theorem frame_dieTold (s : State) (d : Nat) : Frame (keyFields d) [] s (dieTold s d) := by
  have hids : Frame (keyFields d) [] s (idsCopied s d) := by
    rw [idsCopied_eq]
    exact frame_wr (by simp) (frame_wr (by simp) (frame_wr (by simp) (frame_wr (by simp) (Frame.refl _ _ s))))
  rw [dieTold, copyKeys_eq]
  exact frame_raise (by simp [Evt.nts]) (frame_wr (by simp) (frame_wr (by simp) (frame_wr (by simp) (frame_wr (by simp) hids))))

theorem side_NTS_KEY_ID_ID {d j : Nat} (hd : d < 4) (hj : j < 4) : (R.NTS_KEY_ID_ID (d * 4 + j)).side = false :=
  side_of_ntsBase (key_NTS_KEY_ID_ID hd hj) (by omega)

theorem rd_dieTold_id (s : State) {d j : Nat} (hd : d < 4) (hj : j < 4) :
    (dieTold s d).rd (R.NTS_KEY_ID_ID (d * 4 + j)) = (s.keySlot j).2.1 % 2 ^ 32 := by
  have hkey := key_NTS_KEY_ID_ID hd hj
  rw [dieTold, rd_raise_ne _ _ _ (by rw [hkey, key_Evt_nts]; omega) (side_NTS_KEY_ID_ID hd hj), copyKeys_eq,
    rd_wr_ne _ _ (by rw [hkey, key_NTS_STAT_KEY_CURRENT]; omega), rd_wr_ne _ _ (by rw [hkey, key_NTS_STAT_KEY_PEND]; omega),
    rd_wr_ne _ _ (by rw [hkey, key_NTS_KEY_STATE_CHG_SEQ]; omega), rd_wr_ne _ _ (by rw [hkey, key_NTS_KEY_STATE_S]; omega)]
  exact rd_idsCopied s hd hj

theorem rd_dieTold_chgSeq (s : State) (d : Nat) : (dieTold s d).rd (R.NTS_KEY_STATE_CHG_SEQ d) = s.srv.chgSeq % 256 := by
  rw [dieTold, rd_raise_ne _ _ _ (by simp) (side_of_ntsBase (key_NTS_KEY_STATE_CHG_SEQ d) (by decide)), copyKeys_eq, rd_wr_ne _ _ (by simp),
    rd_wr_ne _ _ (by simp), rd_wr_same]
  rfl

theorem rd_dieTold_pend (s : State) (d : Nat) : (dieTold s d).rd (R.NTS_STAT_KEY_PEND d) = b01 s.srv.keyChange.isSome % 2 := by
  rw [dieTold, rd_raise_ne _ _ _ (by simp) (side_of_ntsBase (key_NTS_STAT_KEY_PEND d) (by decide)), copyKeys_eq, rd_wr_ne _ _ (by simp), rd_wr_same]
  rfl

theorem bit_dieTold (s : State) (d : Nat) : bit ((dieTold s d).rd (R.NTS_EVT_BITS d)) 4 = true :=
  bit_raise (e := Evt.nts d) (side_NTS_EVT_BITS d) (show 4 < 6 by decide) (bit_two_pow 4)

/-- The registers of one die are not those of another. -/
theorem rd_dieTold_other (s : State) {d i k : Nat} {g : Field} (hg : g.key = ntsBase d + k) (hk : k < 0x200000) (hd : d < 4) (hi : i < 4)
    (hne : d ≠ i) : (dieTold s i).rd g = s.rd g := by
  have hbase : ∀ n, n < 0x200000 → g.key ≠ ntsBase i + n := fun n hn => by
    rw [hg, ntsBase, ntsBase]
    omega
  refine (frame_dieTold s i).rd (fun f hf => ?_) (side_of_ntsBase hg hk)
  simp only [List.mem_cons, List.not_mem_nil, or_false] at hf
  rcases hf with rfl | rfl | rfl | rfl | rfl | rfl | rfl | rfl | rfl
  · rw [key_NTS_KEY_ID_ID hi (by decide)]; exact hbase _ (by decide)
  · rw [key_NTS_KEY_ID_ID hi (by decide)]; exact hbase _ (by decide)
  · rw [key_NTS_KEY_ID_ID hi (by decide)]; exact hbase _ (by decide)
  · rw [key_NTS_KEY_ID_ID hi (by decide)]; exact hbase _ (by decide)
  · rw [key_NTS_KEY_STATE_S]; exact hbase _ (by decide)
  · rw [key_NTS_KEY_STATE_CHG_SEQ]; exact hbase _ (by decide)
  · rw [key_NTS_STAT_KEY_PEND]; exact hbase _ (by decide)
  · rw [key_NTS_STAT_KEY_CURRENT]; exact hbase _ (by decide)
  · rw [key_NTS_EVT_BITS]; exact hbase _ (by decide)

theorem toldAll_srv (l : List Nat) (s : State) : (l.foldl dieTold s).srv = s.srv := by
  induction l generalizing s with
  | nil => rfl
  | cons i l ih => rw [List.foldl_cons, ih, dieTold_srv]

theorem rd_toldAll_other {l : List Nat} (hl : ∀ i ∈ l, i < 4) (s : State) {d k : Nat} {g : Field} (hg : g.key = ntsBase d + k) (hk : k < 0x200000)
    (hd : d < 4) (hn : d ∉ l) : (l.foldl dieTold s).rd g = s.rd g := by
  induction l generalizing s with
  | nil => rfl
  | cons i l ih =>
    rw [List.foldl_cons, ih (fun j hj => hl j (List.mem_cons_of_mem _ hj)) _ fun h => hn (List.mem_cons_of_mem _ h)]
    exact rd_dieTold_other s hg hk hd (hl i List.mem_cons_self) fun h => hn (h ▸ List.mem_cons_self)

/-- A die among those told shows what it was told, whatever the others are. -/
theorem rd_toldAll {l : List Nat} (hl : ∀ i ∈ l, i < 4) (hnd : l.Nodup) (s : State) {d k : Nat} {g : Field} (hg : g.key = ntsBase d + k)
    (hk : k < 0x200000) (hd : d ∈ l) : ∃ x : State, x.srv = s.srv ∧ (l.foldl dieTold s).rd g = (dieTold x d).rd g := by
  induction l generalizing s with
  | nil => cases hd
  | cons i l ih =>
    obtain ⟨hi, hnd⟩ := List.nodup_cons.1 hnd
    have hl' : ∀ i ∈ l, i < 4 := fun j hj => hl j (List.mem_cons_of_mem _ hj)
    rcases List.mem_cons.1 hd with rfl | hd
    · exact ⟨s, rfl, rd_toldAll_other hl' _ hg hk (hl d List.mem_cons_self) hi⟩
    · obtain ⟨x, hx, hr⟩ := ih hl' hnd (dieTold s i) hd
      exact ⟨x, hx.trans (dieTold_srv s i), hr⟩

/-! ### The instant (R290) -/

/-- The change over, its number one higher. -/
def changeOver (s : State) : State := { s with srv := { s.srv with chgSeq := (s.srv.chgSeq + 1) % 256, keyChange := none } }

/-- The dies that are up. -/
def upDies (s : State) : List Nat := [0, 1, 2, 3].filter fun d => s.rd (R.TSC_LANE_STAT_STATE d) ≠ 0

theorem keyChangeNow_eq (c : KeyChange) (s : State) : keyChangeNow c s =
    (upDies (changeOver (applyKeyChange c s))).foldl dieTold (changeOver (applyKeyChange c s)) := rfl

theorem mem_upDies {d : Nat} (hd : d < 4) (h : s.rd (R.TSC_LANE_STAT_STATE d) ≠ 0) : d ∈ upDies s := by
  have hm : d ∈ [0, 1, 2, 3] := by
    simp only [List.mem_cons, List.not_mem_nil, or_false]
    omega
  exact List.mem_filter.2 ⟨hm, decide_eq_true h⟩

theorem upDies_lt : ∀ i ∈ upDies s, i < 4 := fun i hi => by
  have hm := (List.mem_filter.1 hi).1
  simp only [List.mem_cons, List.not_mem_nil, or_false] at hm
  omega

theorem upDies_nodup : (upDies s).Nodup := List.Nodup.filter _ (by decide)

/-- What a key change's instant shows. -/
structure KeysChanged (c : KeyChange) (s t : State) : Prop where
  slots : ∀ j, t.keySlot j = (applyKeyChange c s).keySlot j
  done : t.srv.keyChange = none
  chgSeq : t.srv.chgSeq = (s.srv.chgSeq + 1) % 256
  ids : ∀ d < 4, s.rd (R.TSC_LANE_STAT_STATE d) ≠ 0 → ∀ j < 4, t.rd (R.NTS_KEY_ID_ID (d * 4 + j)) = ((applyKeyChange c s).keySlot j).2.1 % 2 ^ 32
  shown : ∀ d < 4, s.rd (R.TSC_LANE_STAT_STATE d) ≠ 0 → t.rd (R.NTS_KEY_STATE_CHG_SEQ d) = (s.srv.chgSeq + 1) % 256 ∧
    bit (t.rd (R.NTS_EVT_BITS d)) 4 = true ∧ t.rd (R.NTS_STAT_KEY_PEND d) = 0

theorem keysChanged (c : KeyChange) (s : State) : KeysChanged c s (keyChangeNow c s) := by
  obtain ⟨y, hy⟩ : ∃ y, changeOver (applyKeyChange c s) = y := ⟨_, rfl⟩
  have hframe : Frame [] [.srv] s (applyKeyChange c s) := frame_applyKeyChange c (by simp) (Frame.refl _ _ s)
  have hyrd : ∀ g, y.rd g = (applyKeyChange c s).rd g := fun g => by rw [← hy]; rfl
  have hslots : ∀ j, y.keySlot j = (applyKeyChange c s).keySlot j := fun j => by rw [← hy]; rfl
  have hseq : y.srv.chgSeq = (s.srv.chgSeq + 1) % 256 := by
    rw [← applyKeyChange_chgSeq c s, ← hy]
    rfl
  have hover : y.srv.keyChange = none := by rw [← hy]; rfl
  have hsrv := toldAll_srv (upDies y) y
  have hup : ∀ d < 4, s.rd (R.TSC_LANE_STAT_STATE d) ≠ 0 → d ∈ upDies y := fun d hd h =>
    mem_upDies hd (by rw [hyrd, hframe.rd (by simp) (side_TSC_LANE_STAT_STATE d)]; exact h)
  have hslot : ∀ {x : State}, x.srv = y.srv → ∀ j, x.keySlot j = y.keySlot j := fun hx j => by rw [State.keySlot, State.keySlot, hx]
  rw [keyChangeNow_eq, hy]
  refine ⟨fun j => (hslot hsrv j).trans (hslots j), by rw [hsrv]; exact hover, by rw [hsrv]; exact hseq, fun d hd hl j hj => ?_, fun d hd hl => ?_⟩
  · obtain ⟨x, hx, hr⟩ := rd_toldAll upDies_lt upDies_nodup y (key_NTS_KEY_ID_ID hd hj) (by omega) (hup d hd hl)
    rw [hr, rd_dieTold_id _ hd hj, hslot hx, hslots]
  · obtain ⟨x1, hx1, hr1⟩ := rd_toldAll upDies_lt upDies_nodup y (key_NTS_KEY_STATE_CHG_SEQ d) (by decide) (hup d hd hl)
    obtain ⟨x2, hx2, hr2⟩ := rd_toldAll upDies_lt upDies_nodup y (key_NTS_EVT_BITS d) (by decide) (hup d hd hl)
    obtain ⟨x3, hx3, hr3⟩ := rd_toldAll upDies_lt upDies_nodup y (key_NTS_STAT_KEY_PEND d) (by decide) (hup d hd hl)
    refine ⟨?_, by rw [hr2]; exact bit_dieTold x2 d, ?_⟩
    · rw [hr1, rd_dieTold_chgSeq, hx1, hseq, Nat.mod_mod]
    · rw [hr3, rd_dieTold_pend, hx3, hover]
      rfl

end

theorem keyChangeEffect_none {s : State} (h : s.srv.keyChange = none) : keyChangeEffect s = s := by
  unfold keyChangeEffect
  rw [h]

theorem keyChangeEffect_some {s : State} {k : KeyChange} (h : s.srv.keyChange = some k) (hr : s.fw.running = []) :
    keyChangeEffect s = keyChangeNow k (waitKeyInstant k.ready s) := by
  have hw : Touches [.tick, .lanes] s (waitKeyInstant k.ready s) := touches_waitKeyInstant _ _ (by simp) (by simp) (Touches.refl _ s)
  have hn : Touches [.srv, .regs .nts] (waitKeyInstant k.ready s) (keyChangeNow k (waitKeyInstant k.ready s)) :=
    touches_keyChangeNow _ _ (by simp) (by simp) (Touches.refl _ _)
  have hfw : (keyChangeNow k (waitKeyInstant k.ready s)).fw = s.fw := (hn.1 .fw (by simp)).trans (hw.1 .fw (by simp))
  unfold keyChangeEffect
  rw [h]
  dsimp only
  rw [hfw, hr]
  rfl

/-- The instant of a key change, in 2^-16 ns of TS0. -/
theorem keyInstant_eq (x : Nat) : ceilDiv x (ms16 1) * ms16 1 = (x + (1000000 * 65536 - 1)) / (1000000 * 65536) * (1000000 * 65536) := by
  have hms : ms16 1 = 65536000000 := rfl
  have hadd : x + 65536000000 - 1 = x + 65535999999 := by omega
  rw [ceilDiv, hms, if_neg (by decide), hadd]

/-- A key change, from a state whose firmware runs no command. -/
theorem keyChange_ended (s : State) (k : KeyChange) (h : s.srv.keyChange = some k) (hr : s.fw.running = []) :
    ∃ t, Sys2Proof.Machine.exec (.keyChangeEffect) s = .next t ∧
      (∃ w, Frame [] [.tick, .lanes] s w ∧
        w.tick = ((s.waitClk k.ready).waitTs0 (((s.waitClk k.ready).tickFrom + (1000000 * 65536 - 1)) / (1000000 * 65536) * (1000000 * 65536))).tick ∧
        Ended s (keyChangeNow k w) t ∧ t.tick = w.tick) ∧
      Touches [.tick, .lanes, .srv, .regs .nts] s t := by
  obtain ⟨t, e, m⟩ := go_ended_of (keyChangeEffect_some (s := s.begin) h hr)
  refine ⟨t, e, ⟨_, ?_, ?_, m, ?_⟩, m.touches ?_⟩
  · exact frame_waitTs0 (by simp) (by simp) (frame_waitClk (by simp) (by simp) (frame_begin s))
  · have htwin := twin_waitClk s k.ready
    have hfrom : (s.begin.waitClk k.ready).tickFrom = (s.waitClk k.ready).tickFrom := by rw [State.tickFrom, State.tickFrom, htwin.tick, htwin.ts0]
    rw [waitKeyInstant, hfrom, keyInstant_eq, State.waitTs0, State.waitTs0, htwin.tick]
    exact advance_tick_congr _ htwin.tick (htwin.rd (by decide))
  · have hn : Touches [.srv, .regs .nts] (waitKeyInstant k.ready s.begin) (keyChangeNow k (waitKeyInstant k.ready s.begin)) :=
      touches_keyChangeNow _ _ (by simp) (by simp) (Touches.refl _ _)
    exact m.tick.trans (hn.1 .tick (by simp))
  · exact touches_keyChangeNow _ _ (by simp) (by simp) (touches_waitKeyInstant _ _ (by simp) (by simp) (touches_begin _ s))

theorem keyChangeEffect_none_row (s : State) (h : s.srv.keyChange = none) :
    ∃ t, Sys2Proof.Machine.exec (.keyChangeEffect) s = .next t ∧ Frame [] [] s t := by
  obtain ⟨t, e, k⟩ := go_ended_of (keyChangeEffect_none (s := s.begin) h)
  exact ⟨t, e, k.frame (frame_begin s)⟩

/-- The slots and the number of a change that has taken effect. -/
theorem KeysChanged.ended {c : KeyChange} {s w t : State} (hw : Frame [] [.tick, .lanes] s w) (m : Ended s (keyChangeNow c w) t) :
    (∀ j, t.keySlot j = (applyKeyChange c w).keySlot j) ∧ (∀ j, w.keySlot j = s.keySlot j) ∧ t.srv.keyChange = none ∧
      t.srv.chgSeq = (s.srv.chgSeq + 1) % 256 := by
  obtain ⟨hslots, hdone, hseq, -, -⟩ := keysChanged c w
  have hsrv : w.srv = s.srv := hw.2.1 .srv (by simp) rfl
  refine ⟨fun j => ?_, fun j => by rw [State.keySlot, State.keySlot, hsrv], by rw [m.srv]; exact hdone, by rw [m.srv, hseq, hsrv]⟩
  rw [← hslots, State.keySlot, State.keySlot, m.srv]

theorem keyLoad_row (s : State) (k : KeyChange) (h : s.srv.keyChange = some k) (hop : k.op = 0x0710) (hk : k.slot < 4) (hr : s.fw.running = []) :
    ∃ t, Sys2Proof.Machine.exec (.keyChangeEffect) s = .next t ∧
      t.keySlot k.slot = (1, k.id, k.key) ∧ t.srv.keyChange = none ∧ t.srv.chgSeq = (s.srv.chgSeq + 1) % 256 ∧
      (∀ j : Fin 4, j.val ≠ k.slot → t.keySlot j.val = s.keySlot j.val) ∧
      (∀ d : Fin 4, s.rd (R.TSC_LANE_STAT_STATE d.val) ≠ 0 → t.rd (R.NTS_KEY_ID_ID (d.val * 4 + k.slot)) = k.id % 2 ^ 32 ∧
        t.rd (R.NTS_KEY_STATE_CHG_SEQ d.val) = (s.srv.chgSeq + 1) % 256 ∧ bit (t.rd (R.NTS_EVT_BITS d.val)) 4 = true ∧
        t.rd (R.NTS_STAT_KEY_PEND d.val) = 0) ∧
      (let v := s.waitClk k.ready
       t.tick = (v.waitTs0 ((v.tickFrom + (1000000 * 65536 - 1)) / (1000000 * 65536) * (1000000 * 65536))).tick) ∧
      Touches [.tick, .lanes, .srv, .regs .nts] s t := by
  obtain ⟨t, e, ⟨w, hw, htick, m, hmt⟩, htouch⟩ := keyChange_ended s k h hr
  obtain ⟨hslots, hkept, hdone, hseq⟩ := KeysChanged.ended hw m
  obtain ⟨-, -, -, hids, hshown⟩ := keysChanged k w
  have hsrv : w.srv = s.srv := hw.2.1 .srv (by simp) rfl
  have hload := applyKeyChange_load hop w
  refine ⟨t, e, ?_, hdone, hseq, fun j hj => ?_, fun d hd => ?_, hmt.trans htick, htouch⟩
  · rw [hslots, hload, keySlot_set_same]
  · rw [hslots, hload, keySlot_set_ne _ _ hj, hkept]
  · have hup : w.rd (R.TSC_LANE_STAT_STATE d.val) ≠ 0 := by
      rw [hw.rd (by simp) (side_TSC_LANE_STAT_STATE _)]
      exact hd
    obtain ⟨h1, h2, h3⟩ := hshown d.val d.isLt hup
    refine ⟨?_, ?_, ?_, ?_⟩
    · rw [m.rd (side_NTS_KEY_ID_ID d.isLt hk), hids d.val d.isLt hup _ hk, hload, keySlot_set_same]
    · rw [m.rd (side_of_ntsBase (key_NTS_KEY_STATE_CHG_SEQ _) (by decide)), h1, hsrv]
    · rw [m.rd (side_NTS_EVT_BITS _)]
      exact h2
    · rw [m.rd (side_of_ntsBase (key_NTS_STAT_KEY_PEND _) (by decide))]
      exact h3

theorem keyPromote_row (s : State) (k : KeyChange) (h : s.srv.keyChange = some k) (hop : k.op = 0x0711) (hk : k.slot < 4) (hr : s.fw.running = []) :
    ∃ t, Sys2Proof.Machine.exec (.keyChangeEffect) s = .next t ∧
      t.keySlot k.slot = (2, (s.keySlot k.slot).2) ∧
      (∀ j : Fin 4, j.val ≠ k.slot → t.keySlot j.val = ((if (s.keySlot j.val).1 = 2 then 1 else (s.keySlot j.val).1), (s.keySlot j.val).2)) ∧
      t.srv.chgSeq = (s.srv.chgSeq + 1) % 256 ∧ Touches [.tick, .lanes, .srv, .regs .nts] s t := by
  obtain ⟨t, e, ⟨w, hw, htick, m, hmt⟩, htouch⟩ := keyChange_ended s k h hr
  obtain ⟨hslots, hkept, hdone, hseq⟩ := KeysChanged.ended hw m
  obtain ⟨hcur, hother⟩ := promoted_slots hop hk w
  refine ⟨t, e, ?_, fun j hj => ?_, hseq, htouch⟩
  · rw [hslots, hcur, hkept]
  · rw [hslots, hother j hj, hkept]
    rfl

theorem keyRetire_row (s : State) (k : KeyChange) (h : s.srv.keyChange = some k) (hop : k.op = 0x0712) (_hk : k.slot < 4) (hr : s.fw.running = []) :
    ∃ t, Sys2Proof.Machine.exec (.keyChangeEffect) s = .next t ∧
      t.keySlot k.slot = (0, 0, []) ∧ (∀ j : Fin 4, j.val ≠ k.slot → t.keySlot j.val = s.keySlot j.val) ∧
      t.srv.chgSeq = (s.srv.chgSeq + 1) % 256 ∧ Touches [.tick, .lanes, .srv, .regs .nts] s t := by
  obtain ⟨t, e, ⟨w, hw, htick, m, hmt⟩, htouch⟩ := keyChange_ended s k h hr
  obtain ⟨hslots, hkept, hdone, hseq⟩ := KeysChanged.ended hw m
  have hretire := applyKeyChange_retire hop w
  refine ⟨t, e, ?_, fun j hj => ?_, hseq, htouch⟩
  · rw [hslots, hretire, keySlot_set_same]
  · rw [hslots, hretire, keySlot_set_ne _ _ hj, hkept]

/-! ### NTP and NTS (R273-R304) -/

/-- Settles O31. -/
theorem ntpAndNts : Obligations.NtpAndNts := by
  refine ⟨cstSweep_row, cstFlush_row, cstFlush_busy_row, cstFlush_off_row, ?_, ntpBroadcast_off_row, ?_, ?_, ntsEngineDone_idle_row, ?_, ?_,
    keyChangeEffect_none_row, ?_, ?_, ?_⟩
  · exact bucketRefill_row
  · exact ntpBroadcast_sent_row
  · exact ntpBroadcast_skipped_row
  · exact ntsEngineDone_unknown_row
  · exact ntsEngineDone_known_row
  · exact keyLoad_row
  · exact keyPromote_row
  · exact keyRetire_row

end Sys2Proof.Machine
end

section
/-! PROOFS. The registers of the receiver's channels and antennas, and what moves a channel (R119-R130, R147). -/

namespace Sys2Proof.Machine

/-! ### The places of the receiver's registers -/

/-- The key of the first bit of a channel's registers. -/
def chBase (c : Nat) : Nat := (0x50000 + c % 160 * 16) * 32

/-- The key of the first bit of an antenna's registers. -/
def antBase (a : Nat) : Nat := (0x40200 + a % 2 * 0x40) * 32

section
variable (c a k : Nat)

@[simp] theorem key_GNS_EVT_BITS : R.GNS_EVT_BITS.key = 0x40008 * 32 := rfl
@[simp] theorem key_Evt_gns : Evt.gns.ev.key = 0x40008 * 32 := rfl
@[simp] theorem key_GNS_STAT_ACTIVE_ANT : R.GNS_STAT_ACTIVE_ANT.key = 0x40004 * 32 + 16 := rfl
@[simp] theorem key_GNS_STAT_RUN : R.GNS_STAT_RUN.key = 0x40004 * 32 := rfl
@[simp] theorem key_GNS_STAT_SOL : R.GNS_STAT_SOL.key = 0x40004 * 32 + 2 := rfl
@[simp] theorem key_GNS_SLEEP_STAT_ASLEEP : R.GNS_SLEEP_STAT_ASLEEP.key = 0x4002C * 32 := rfl
@[simp] theorem key_GNS_SLEEP_STAT_HOT : R.GNS_SLEEP_STAT_HOT.key = 0x4002C * 32 + 2 := rfl
@[simp] theorem key_GNS_SLEEP_CTL_WAKE : R.GNS_SLEEP_CTL_WAKE.key = 0x40028 * 32 + 1 := rfl
@[simp] theorem key_GNS_SLEEP_CTL_ALLOW : R.GNS_SLEEP_CTL_ALLOW.key = 0x40028 * 32 := rfl

@[simp] theorem key_GNS_CH_CFG_PIN : (R.GNS_CH_CFG_PIN c).key = chBase c + 0 := rfl
@[simp] theorem key_GNS_CH_CFG_SYS : (R.GNS_CH_CFG_SYS c).key = chBase c + 1 := rfl
@[simp] theorem key_GNS_CH_CFG_BAND : (R.GNS_CH_CFG_BAND c).key = chBase c + 3 := rfl
@[simp] theorem key_GNS_CH_CFG_ANT : (R.GNS_CH_CFG_ANT c).key = chBase c + 4 := rfl
@[simp] theorem key_GNS_CH_CFG_RSV : (R.GNS_CH_CFG_RSV c).key = chBase c + 5 := rfl
@[simp] theorem key_GNS_CH_CFG_SVID : (R.GNS_CH_CFG_SVID c).key = chBase c + 8 := rfl
@[simp] theorem key_GNS_CH_CFG_SPACING : (R.GNS_CH_CFG_SPACING c).key = chBase c + 16 := rfl
@[simp] theorem key_GNS_CH_STAT_STATE : (R.GNS_CH_STAT_STATE c).key = chBase c + 128 := by
  simp only [R.GNS_CH_STAT_STATE, Field.mk', chBase]; omega
@[simp] theorem key_GNS_CH_STAT_USED : (R.GNS_CH_STAT_USED c).key = chBase c + 131 := by
  simp only [R.GNS_CH_STAT_USED, Field.mk', chBase]; omega
@[simp] theorem key_GNS_CH_STAT_EXCLUDED : (R.GNS_CH_STAT_EXCLUDED c).key = chBase c + 132 := by
  simp only [R.GNS_CH_STAT_EXCLUDED, Field.mk', chBase]; omega
@[simp] theorem key_GNS_CH_STAT_NOTCHED : (R.GNS_CH_STAT_NOTCHED c).key = chBase c + 133 := by
  simp only [R.GNS_CH_STAT_NOTCHED, Field.mk', chBase]; omega
@[simp] theorem key_GNS_CH_STAT_CFG_ERR : (R.GNS_CH_STAT_CFG_ERR c).key = chBase c + 134 := by
  simp only [R.GNS_CH_STAT_CFG_ERR, Field.mk', chBase]; omega
@[simp] theorem key_GNS_CH_STAT_SVID : (R.GNS_CH_STAT_SVID c).key = chBase c + 136 := by
  simp only [R.GNS_CH_STAT_SVID, Field.mk', chBase]; omega
@[simp] theorem key_GNS_CH_STAT_CN0 : (R.GNS_CH_STAT_CN0 c).key = chBase c + 144 := by
  simp only [R.GNS_CH_STAT_CN0, Field.mk', chBase]; omega
@[simp] theorem key_GNS_CH_DOP_DOP : (R.GNS_CH_DOP_DOP c).key = chBase c + 256 := by
  simp only [R.GNS_CH_DOP_DOP, Field.mk', chBase]; omega

@[simp] theorem key_GNS_POS_CTL_MODE : (R.GNS_POS_CTL_MODE a).key = antBase a + 384 := by
  simp only [R.GNS_POS_CTL_MODE, Field.mk', antBase]; omega
@[simp] theorem key_GNS_POS_CTL_RESTART : (R.GNS_POS_CTL_RESTART a).key = antBase a + 386 := by
  simp only [R.GNS_POS_CTL_RESTART, Field.mk', antBase]; omega
@[simp] theorem key_GNS_POS_CTL_STATE : (R.GNS_POS_CTL_STATE a).key = antBase a + 388 := by
  simp only [R.GNS_POS_CTL_STATE, Field.mk', antBase]; omega
@[simp] theorem key_GNS_SURV_STAT_SIGMA : (R.GNS_SURV_STAT_SIGMA a).key = antBase a + 512 := by
  simp only [R.GNS_SURV_STAT_SIGMA, Field.mk', antBase]; omega
@[simp] theorem key_GNS_SURV_STAT_ELAPSED : (R.GNS_SURV_STAT_ELAPSED a).key = antBase a + 528 := by
  simp only [R.GNS_SURV_STAT_ELAPSED, Field.mk', antBase]; omega

end

theorem chBase_ge (c : Nat) : 0xA00000 ≤ chBase c := by unfold chBase; omega
theorem chBase_lt (c : Nat) : chBase c < 0xA14000 := by unfold chBase; omega
theorem antBase_ge (a : Nat) : 0x804000 ≤ antBase a := by unfold antBase; omega
theorem antBase_lt (a : Nat) : antBase a < 0x805000 := by unfold antBase; omega

/-- No register of a channel is one below the channels'. -/
@[simp] theorem chBase_ne_low {c n k : Nat} (h : k < 0xA00000) : chBase c + n ≠ k := by have := chBase_ge c; omega

/-- No register of an antenna is one below the antennas'. -/
@[simp] theorem antBase_ne_low {a n k : Nat} (h : k < 0x804000) : antBase a + n ≠ k := by have := antBase_ge a; omega

/-- The registers of two channels stand apart. -/
theorem chBase_ne {c d n m : Nat} (h : c % 160 ≠ d % 160) (hn : n < 512) (hm : m < 512) : chBase c + n ≠ chBase d + m := by unfold chBase; omega

theorem chBase_of_lt {c d : Nat} (hc : c < 160) (hd : d < 160) (h : c ≠ d) : c % 160 ≠ d % 160 := by omega

theorem side_of_chBase {f : Field} {c n : Nat} (h : f.key = chBase c + n) (hn : n < 512) : f.side = false :=
  Field.side_of_low (by have := chBase_lt c; omega)

theorem side_of_antBase {f : Field} {a n : Nat} (h : f.key = antBase a + n) (hn : n < 2048) : f.side = false :=
  Field.side_of_low (by have := antBase_lt a; omega)

theorem side_GNS_EVT_BITS : R.GNS_EVT_BITS.side = false := by decide

/-! ### What a change of the receiver's own data leaves -/

theorem rd_modCh (s : State) (c : Nat) (f : GnsCh → GnsCh) (g : Field) : (s.modCh c f).rd g = s.rd g := rfl
theorem rd_modAnt (s : State) (a : Nat) (f : GnsAnt → GnsAnt) (g : Field) : (s.modAnt a f).rd g = s.rd g := rfl
theorem rd_modGnsPort (s : State) (n : Nat) (f : GnsPort → GnsPort) (g : Field) : (s.modGnsPort n f).rd g = s.rd g := rfl

theorem gnsCh_modCh_same (s : State) (c : Nat) (f : GnsCh → GnsCh) : (s.modCh c f).gnsCh c = f (s.gnsCh c) := IMap.get_upd_same _ _ _ _

theorem gnsCh_modCh_ne (s : State) {c d : Nat} (f : GnsCh → GnsCh) (h : d ≠ c) : (s.modCh c f).gnsCh d = s.gnsCh d := IMap.get_upd_ne _ _ _ h

theorem gnsAnt_modAnt_same (s : State) (a : Nat) (f : GnsAnt → GnsAnt) : (s.modAnt a f).gnsAnt a = f (s.gnsAnt a) := IMap.get_upd_same _ _ _ _

theorem gnsPort_modGnsPort_same (s : State) (n : Nat) (f : GnsPort → GnsPort) : (s.modGnsPort n f).gnsPort n = f (s.gnsPort n) :=
  IMap.get_upd_same _ _ _ _

theorem gnsPort_modGnsPort_ne (s : State) {n m : Nat} (f : GnsPort → GnsPort) (h : m ≠ n) : (s.modGnsPort n f).gnsPort m = s.gnsPort m :=
  IMap.get_upd_ne _ _ _ h

theorem gnsAnt_of_gnss {s u : State} (h : u.gnss = s.gnss) (a : Nat) : u.gnsAnt a = s.gnsAnt a := by rw [State.gnsAnt, State.gnsAnt, h]

theorem gnsCh_of_gnss {s u : State} (h : u.gnss = s.gnss) (c : Nat) : u.gnsCh c = s.gnsCh c := by rw [State.gnsCh, State.gnsCh, h]

theorem gnsPort_of_gnss {s u : State} (h : u.gnss = s.gnss) (n : Nat) : u.gnsPort n = s.gnsPort n := by rw [State.gnsPort, State.gnsPort, h]

theorem waitClk_gnss (s : State) (x : Nat) : (s.begin.waitClk x).gnss = s.gnss := (touches_waited s x).1 .gnss (by simp)

section
variable {fs : List Field} {ps : List Part} {s₀ s : State}

theorem frame_modCh {c : Nat} {f : GnsCh → GnsCh} (hp : Part.gnss ∈ ps) (h : Frame fs ps s₀ s) : Frame fs ps s₀ (s.modCh c f) := frame_set_gnss hp h
theorem frame_modAnt {a : Nat} {f : GnsAnt → GnsAnt} (hp : Part.gnss ∈ ps) (h : Frame fs ps s₀ s) : Frame fs ps s₀ (s.modAnt a f) :=
  frame_set_gnss hp h

theorem frame_noteFull (hp : Part.watch ∈ ps) (h : Frame fs ps s₀ s) : Frame fs ps s₀ (noteFull s) := frame_ite h (frame_set_watch hp h)

end

/-! ### A step of the channels -/

/-- Between `s` and `t` the channels for which `f` holds may have moved: the registers that report them, and what the receiver keeps of
them; nothing else of the receiver, no other register and no time. -/
structure ChMove (f : Nat → Prop) (s t : State) : Prop where
  rd : ∀ {g : Field}, (∀ c n, f c → 128 ≤ n → n < 512 → g.key ≠ chBase c + n) → t.rd g = s.rd g
  ch : ∀ {d : Nat}, ¬f d → t.gnsCh d = s.gnsCh d
  gnss : t.gnss = { s.gnss with chans := t.gnss.chans }
  tick : t.tick = s.tick

section
variable {f : Nat → Prop} {s₀ s t u : State} {c : Nat}

theorem ChMove.refl (f : Nat → Prop) (s : State) : ChMove f s s := ⟨fun _ => rfl, fun _ => rfl, rfl, rfl⟩

theorem ChMove.trans (h : ChMove f s t) (k : ChMove f t u) : ChMove f s u where
  rd hg := (k.rd hg).trans (h.rd hg)
  ch hd := (k.ch hd).trans (h.ch hd)
  gnss := by rw [k.gnss, h.gnss]
  tick := k.tick.trans h.tick

theorem ChMove.mono {f' : Nat → Prop} (hf : ∀ c, f c → f' c) (h : ChMove f s t) : ChMove f' s t :=
  ⟨fun hg => h.rd fun c n hc => hg c n (hf c hc), fun hd => h.ch fun hc => hd (hf _ hc), h.gnss, h.tick⟩

theorem chMove_wr {g : Field} {v n : Nat} (hc : f c) (hk : g.key = chBase c + n) (h1 : 128 ≤ n) (h2 : n < 512) (h : ChMove f s₀ s) :
    ChMove f s₀ (s.wr g v) :=
  h.trans ⟨fun hg => rd_wr_ne _ _ (by rw [hk]; exact hg c n hc h1 h2), fun _ => rfl, rfl, rfl⟩

theorem chMove_modCh {k : GnsCh → GnsCh} (hc : f c) (h : ChMove f s₀ s) : ChMove f s₀ (s.modCh c k) :=
  h.trans ⟨fun _ => rfl, fun hd => gnsCh_modCh_ne _ _ fun e => hd (e ▸ hc), rfl, rfl⟩

theorem chMove_noteFull (h : ChMove f s₀ s) : ChMove f s₀ (noteFull s) := by
  unfold noteFull
  split
  · exact h
  · exact h.trans ⟨fun _ => rfl, fun _ => rfl, rfl, rfl⟩

theorem chMove_setCh {v : Ch} (hc : f c) (h : ChMove f s₀ s) : ChMove f s₀ (setCh c v s) :=
  chMove_modCh hc (chMove_wr hc (key_GNS_CH_STAT_STATE c) (by decide) (by decide) (chMove_noteFull h))

theorem chMove_idleCh (hc : f c) (h : ChMove f s₀ s) : ChMove f s₀ (idleCh c s) :=
  chMove_modCh hc <|
    chMove_wr hc (key_GNS_CH_STAT_NOTCHED c) (by decide) (by decide) <|
    chMove_wr hc (key_GNS_CH_STAT_EXCLUDED c) (by decide) (by decide) <|
    chMove_wr hc (key_GNS_CH_STAT_USED c) (by decide) (by decide) <|
    chMove_wr hc (key_GNS_CH_DOP_DOP c) (by decide) (by decide) <|
    chMove_wr hc (key_GNS_CH_STAT_CN0 c) (by decide) (by decide) <|
    chMove_wr hc (key_GNS_CH_STAT_SVID c) (by decide) (by decide) (chMove_setCh hc h)

theorem chMove_startCh {v : Ch} {sys band ant svid : Nat} {pinned : Bool} (hc : f c) (h : ChMove f s₀ s) :
    ChMove f s₀ (startCh c v sys band ant svid pinned s) :=
  chMove_wr hc (key_GNS_CH_STAT_SVID c) (by decide) (by decide) <| chMove_setCh hc <|
    chMove_wr hc (key_GNS_CH_STAT_NOTCHED c) (by decide) (by decide) (chMove_modCh hc (chMove_modCh hc h))

theorem chMove_startLow {sys ant svid code : Nat} {dop : Int} {pinned : Bool} (hc : f c) (h : ChMove f s₀ s) :
    ChMove f s₀ (startLow c sys ant svid pinned code dop s) :=
  chMove_modCh hc (chMove_wr hc (key_GNS_CH_DOP_DOP c) (by decide) (by decide) (chMove_startCh hc h))

theorem chMove_handOver {d : Nat} {pinned : Bool} (hc : f c) (h : ChMove f s₀ s) : ChMove f s₀ (handOver d c pinned s) := chMove_startLow hc h

theorem chMove_ite {p : Prop} [Decidable p] {x y : State} (hx : ChMove f s₀ x) (hy : ChMove f s₀ y) : ChMove f s₀ (if p then x else y) := by
  split
  · exact hx
  · exact hy

theorem chMove_foldl {α : Type} {l : List α} {g : State → α → State} (hg : ∀ s, ∀ x ∈ l, ChMove f s₀ s → ChMove f s₀ (g s x)) (h : ChMove f s₀ s) :
    ChMove f s₀ (l.foldl g s) := by
  induction l generalizing s with
  | nil => exact h
  | cons x l ih => exact ih (fun s y hy => hg s y (List.mem_cons_of_mem _ hy)) (hg s x List.mem_cons_self h)

/-- The channels that an antenna's share drops. -/
theorem chMove_trimPool (hf : ∀ c, f c) (h : ChMove f s₀ s) : ChMove f s₀ (trimPool s) :=
  chMove_foldl (fun _ c _ h => chMove_idleCh (hf c) h) h

theorem chMove_idleWhere {p : State → Nat → Bool} (hf : ∀ c, f c) (h : ChMove f s₀ s) : ChMove f s₀ (idleWhere p s) :=
  chMove_foldl (fun _ c _ h => chMove_ite (chMove_idleCh (hf c) h) h) h

theorem chMove_pinSignal (hf : ∀ c, f c) (h : ChMove f s₀ s) : ChMove f s₀ (pinSignal c s) := by
  refine chMove_ite h ?_
  split
  · exact chMove_trimPool hf (chMove_handOver (hf _) h)
  · exact chMove_ite (chMove_trimPool hf (chMove_startCh (hf _) h)) h

theorem chMove_restartPins (hf : ∀ c, f c) (h : ChMove f s₀ s) : ChMove f s₀ (restartPins s) :=
  chMove_foldl (fun _ _ _ h => chMove_ite (chMove_pinSignal hf h) h) h

theorem chMove_resumeCh {p : Nat × GnssSig} (hf : ∀ c, f c) (h : ChMove f s₀ s) : ChMove f s₀ (resumeCh s p) :=
  chMove_ite (chMove_startCh (hf _) h) h

theorem chMove_loadCh (hc : f c) (h : ChMove f s₀ s) : ChMove f s₀ (loadCh s c) :=
  chMove_ite (chMove_modCh hc (chMove_wr hc (key_GNS_CH_DOP_DOP c) (by decide) (by decide) h)) h

/-- A register that no channel reports through reads as before. -/
theorem ChMove.rd_low (h : ChMove f s t) {g : Field} (hg : g.key < 0xA00000) : t.rd g = s.rd g :=
  h.rd fun c n _ _ _ e => chBase_ne_low (c := c) (n := n) hg e.symm

/-- What a channel's configuration says stays. -/
theorem ChMove.rd_cfg (h : ChMove f s t) {g : Field} {c n : Nat} (hk : g.key = chBase c + n) (hn : n < 128) : t.rd g = s.rd g := by
  refine h.rd fun d m _ h1 _ e => ?_
  rw [hk] at e
  unfold chBase at e
  omega

/-- What a channel that does not move reports stays. -/
theorem ChMove.rd_ch (h : ChMove f s t) {g : Field} {c n : Nat} (hf : ∀ d, f d → d % 160 ≠ c % 160) (hk : g.key = chBase c + n) (hn : n < 512) :
    t.rd g = s.rd g :=
  h.rd fun d m hd _ h2 e => chBase_ne (fun e => hf d hd e.symm) hn h2 (hk ▸ e)

theorem ChMove.clk (h : ChMove f s t) : t.clk = s.clk := clk_congr h.tick

end

/-! ### The state a channel is in -/

section
variable {s t : State} {c d : Nat} {v : Ch}

theorem ch_of_rd (h : t.rd (R.GNS_CH_STAT_STATE c) = s.rd (R.GNS_CH_STAT_STATE c)) : t.ch c = s.ch c := by rw [State.ch, State.ch, h]

theorem ch_of_code (h : s.rd (R.GNS_CH_STAT_STATE c) = v.code) : s.ch c = v := by rw [State.ch, h]; cases v <;> rfl

theorem rd_noteFull (s : State) (g : Field) : (noteFull s).rd g = s.rd g := by
  unfold noteFull
  split <;> rfl

theorem ch_setCh_same (c : Nat) (v : Ch) (s : State) : (setCh c v s).ch c = v :=
  ch_of_code ((rd_modCh _ _ _ _).trans ((rd_wr_same _ _ _).trans (by cases v <;> rfl)))

/-- Moving one channel leaves the state of another. -/
theorem ChMove.ch_ne (h : ChMove (· = c) s t) (hc : c < 160) (hd : d < 160) (hne : d ≠ c) : t.ch d = s.ch d :=
  ch_of_rd (h.rd_ch (fun _ e => e ▸ chBase_of_lt hc hd hne.symm) (key_GNS_CH_STAT_STATE d) (by decide))

theorem ch_idleCh_same (c : Nat) (s : State) : (idleCh c s).ch c = .idle := by
  rw [← ch_setCh_same c .idle s]
  refine ch_of_rd ?_
  unfold idleCh State.lo
  rw [rd_modCh, rd_wr_ne, rd_wr_ne, rd_wr_ne, rd_wr_ne, rd_wr_ne, rd_wr_ne]
  all_goals simp

theorem ch_startCh_same (c : Nat) (v : Ch) (sys band ant svid : Nat) (pinned : Bool) (s : State) :
    (startCh c v sys band ant svid pinned s).ch c = v := by
  refine ch_of_code ?_
  unfold startCh setCh
  rw [rd_wr_ne _ _ (by simp), rd_modCh, rd_wr_same]
  cases v <;> rfl

theorem rd_SVID_startCh (c : Nat) (v : Ch) (sys band ant : Nat) {svid : Nat} (h : svid < 256) (pinned : Bool) (s : State) :
    (startCh c v sys band ant svid pinned s).rd (R.GNS_CH_STAT_SVID c) = svid := (rd_wr_same _ _ _).trans (Nat.mod_eq_of_lt h)

end

end Sys2Proof.Machine
end

section
/-! PROOFS. Positions and surveys (R135, R136). -/

namespace Sys2Proof.Machine

section
variable {s : State} {a : Fin 2}

theorem key_GNS_POS_POS {i : Nat} (hi : i < 3) : (R.GNS_POS_POS (a.val * 3 + i)).key = antBase a.val + i * 128 := by
  have ha : a.val = 0 ∨ a.val = 1 := by omega
  simp only [R.GNS_POS_POS, Field.mk', antBase]
  rcases ha with ha | ha <;> rw [ha] <;> omega

theorem key_GNS_POS_X : (R.GNS_POS_POS (a.val * 3)).key = antBase a.val + 0 := key_GNS_POS_POS (i := 0) (by decide)

theorem posMode_of_survey (h : s.rd (R.GNS_POS_CTL_MODE a.val) = 0 ∨ s.rd (R.GNS_POS_CTL_MODE a.val) = 3) : s.posMode a.val = 0 := by
  unfold State.posMode
  rcases h with h | h <;> simp [h]

theorem posMode_eq_one : s.posMode a.val = 1 ↔ s.rd (R.GNS_POS_CTL_MODE a.val) = 1 := by
  unfold State.posMode
  split <;> omega

/-! ### A position register is written (R135) -/

theorem positionWrite_fixed (axis : Fin 3) (w : Word) (h : s.rd (R.GNS_POS_CTL_MODE a.val) = 1) :
    ∃ t, Sys2Proof.Machine.exec (.positionWrite a axis w) s = .next t ∧
      t.rd (R.GNS_POS_POS (a.val * 3 + axis.val)) = w.toNat ∧
      (t.gnsAnt a.val).posSec = some (s.ts0 / 65536000000000) ∧
      ((s.gnsAnt a.val).posSec ≠ some (s.ts0 / 65536000000000) → (t.gnsAnt a.val).posOld = s.posRegs a.val) ∧
      Frame [R.GNS_POS_POS (a.val * 3 + axis.val)] [.gnss] s t := by
  obtain ⟨t, e, k⟩ := go_ended_of (f := writePos a.val axis.val w.toNat) (s := s) (if_pos (posMode_eq_one (s := s.begin).2 h))
  have hside := side_of_antBase (key_GNS_POS_POS (a := a) axis.isLt) (by omega)
  have hant := (gnsAnt_of_gnss (k.gnss.trans (wr_gnss _ _ _)) a.val).trans (gnsAnt_modAnt_same _ _ _)
  refine ⟨t, e, ?_, ?_, ?_, k.frame (frame_wr (by simp) (frame_modAnt (by simp) (frame_begin s)))⟩
  · exact (k.rd hside).trans ((rd_wr_same _ _ _).trans (Nat.mod_eq_of_lt w.isLt))
  · rw [hant]
    split
    · assumption
    · rfl
  · intro hne
    rw [hant]
    exact congrArg GnsAnt.posOld (if_neg hne)

theorem positionWrite_held (axis : Fin 3) (w : Word) (h : s.rd (R.GNS_POS_CTL_MODE a.val) ≠ 1) :
    ∃ t, Sys2Proof.Machine.exec (.positionWrite a axis w) s = .next t ∧ Frame [] [] s t := by
  obtain ⟨t, e, k⟩ := go_ended_of (f := writePos a.val axis.val w.toNat) (s := s) (if_neg fun e => h (posMode_eq_one (s := s.begin).1 e))
  exact ⟨t, e, k.frame (frame_begin s)⟩

/-! ### A survey ends (R135, R136) -/

/-- The mean of a survey, begun at `from_`, is the position. -/
def surveyed (a from_ : Nat) (s : State) : State :=
  let k := s.gnsAnt a
  let s := ((s.wr (R.GNS_POS_POS (a * 3)) (meanCoord k.surveySum.1 k.surveyN)).wr (R.GNS_POS_POS (a * 3 + 1))
    (meanCoord k.surveySum.2.1 k.surveyN)).wr (R.GNS_POS_POS (a * 3 + 2)) (meanCoord k.surveySum.2.2 k.surveyN)
  let s := s.wr (R.GNS_SURV_STAT_ELAPSED a) (satNat 16 ((s.clk - from_) / sec16 10))
  ((s.wr (R.GNS_POS_CTL_STATE a) 2).modAnt a (fun k => { k with surveyFrom := none })).raise Evt.gns 8

theorem surveyDone_met {from_ : Nat} (hfrom : (s.gnsAnt a.val).surveyFrom = some from_) (hstate : s.rd (R.GNS_POS_CTL_STATE a.val) = 1)
    (hsigma : s.rd (R.GNS_SURV_STAT_SIGMA a.val) ≤ max 1 (s.rd R.GNS_SURV_CTL_ACC)) :
    surveyDone a.val s = surveyed a.val from_ (s.waitClk (from_ + sec16 (s.rd R.GNS_SURV_CTL_MIN_TIME))) := by
  rw [surveyDone, hfrom]
  exact if_pos ⟨hstate, hsigma⟩

/-- The registers and the event that a survey's end writes. -/
abbrev surveyFields (a : Nat) : List Field :=
  [R.GNS_POS_POS (a * 3), R.GNS_POS_POS (a * 3 + 1), R.GNS_POS_POS (a * 3 + 2), R.GNS_SURV_STAT_ELAPSED a, R.GNS_POS_CTL_STATE a, R.GNS_EVT_BITS]

theorem frame_surveyed {from_ : Nat} {s₀ : State} (h : Frame (surveyFields a.val) [.tick, .lanes, .gnss] s₀ s) :
    Frame (surveyFields a.val) [.tick, .lanes, .gnss] s₀ (surveyed a.val from_ s) := by
  refine frame_raise (by simp [surveyFields, Evt.gns]) (frame_modAnt (by simp) ?_)
  refine frame_wr (by simp) (frame_wr (by simp) (frame_wr (by simp) (frame_wr (by simp) (frame_wr (by simp) h))))

theorem satBits_lt (w : Nat) (i : Int) : satBits w i < 2 ^ w := ofSigned_lt _ _

theorem meanCoord_lt (sum : Int) (n : Nat) : meanCoord sum n < 2 ^ 32 := satBits_lt _ _

theorem surveyed_fixes (from_ : Nat) :
    let t := surveyed a.val from_ s
    let k := s.gnsAnt a.val
    t.rd (R.GNS_POS_POS (a.val * 3)) = meanCoord k.surveySum.1 k.surveyN ∧
      t.rd (R.GNS_POS_POS (a.val * 3 + 1)) = meanCoord k.surveySum.2.1 k.surveyN ∧
      t.rd (R.GNS_POS_POS (a.val * 3 + 2)) = meanCoord k.surveySum.2.2 k.surveyN ∧
      t.rd (R.GNS_POS_CTL_STATE a.val) = 2 := by
  have k0 := key_GNS_POS_X (a := a)
  have k1 := key_GNS_POS_POS (a := a) (i := 1) (by decide)
  have k2 := key_GNS_POS_POS (a := a) (i := 2) (by decide)
  have hraise : ∀ {g : Field} {n : Nat} (u : State), g.key = antBase a.val + n → n < 2048 → (u.raise Evt.gns 8).rd g = u.rd g :=
    fun u hk hn => rd_raise_ne _ _ _ (by simp [hk]) (side_of_antBase hk hn)
  refine ⟨?_, ?_, ?_, ?_⟩ <;> unfold surveyed
  · rw [hraise _ k0 (by decide), rd_modAnt, rd_wr_ne _ _ (by simp [k0]), rd_wr_ne _ _ (by simp [k0]), rd_wr_ne _ _ (by simp [k0, k2]),
      rd_wr_ne _ _ (by simp [k0, k1]), rd_wr_same]
    exact Nat.mod_eq_of_lt (meanCoord_lt _ _)
  · rw [hraise _ k1 (by decide), rd_modAnt, rd_wr_ne _ _ (by simp [k1]), rd_wr_ne _ _ (by simp [k1]), rd_wr_ne _ _ (by simp [k1, k2]),
      rd_wr_same]
    exact Nat.mod_eq_of_lt (meanCoord_lt _ _)
  · rw [hraise _ k2 (by decide), rd_modAnt, rd_wr_ne _ _ (by simp [k2]), rd_wr_ne _ _ (by simp [k2]), rd_wr_same]
    exact Nat.mod_eq_of_lt (meanCoord_lt _ _)
  · rw [hraise _ (key_GNS_POS_CTL_STATE a.val) (by decide), rd_modAnt, rd_wr_same]
    rfl

theorem bit_gnsRaise {m b : Nat} (hb : b < 13) (hm : bit m b = true) (s : State) : bit ((s.raise Evt.gns m).rd R.GNS_EVT_BITS) b = true :=
  bit_raise (e := Evt.gns) side_GNS_EVT_BITS hb hm

theorem surveyed_tick (a from_ : Nat) (s : State) : (surveyed a from_ s).tick = s.tick := raise_tick _ _ _

theorem survey_ends {from_ : Nat} (hfrom : (s.gnsAnt a.val).surveyFrom = some from_) (hstate : s.rd (R.GNS_POS_CTL_STATE a.val) = 1)
    (hsigma : s.rd (R.GNS_SURV_STAT_SIGMA a.val) ≤ max 1 (s.rd R.GNS_SURV_CTL_ACC)) :
    ∃ t, Sys2Proof.Machine.exec (.surveyDone a) s = .next t ∧
      t.rd (R.GNS_POS_POS (a.val * 3)) = meanCoord (s.gnsAnt a.val).surveySum.1 (s.gnsAnt a.val).surveyN ∧
      t.rd (R.GNS_POS_POS (a.val * 3 + 1)) = meanCoord (s.gnsAnt a.val).surveySum.2.1 (s.gnsAnt a.val).surveyN ∧
      t.rd (R.GNS_POS_POS (a.val * 3 + 2)) = meanCoord (s.gnsAnt a.val).surveySum.2.2 (s.gnsAnt a.val).surveyN ∧
      t.rd (R.GNS_POS_CTL_STATE a.val) = 2 ∧
      bit (t.rd R.GNS_EVT_BITS) 3 = true ∧
      (t.gnsAnt a.val).surveyFrom = none ∧
      t.tick = (s.waitClk (from_ + sec16 (s.rd R.GNS_SURV_CTL_MIN_TIME))).tick ∧
      Frame [R.GNS_POS_POS (a.val * 3), R.GNS_POS_POS (a.val * 3 + 1), R.GNS_POS_POS (a.val * 3 + 2), R.GNS_SURV_STAT_ELAPSED a.val, R.GNS_POS_CTL_STATE a.val, R.GNS_EVT_BITS] [.tick, .lanes, .gnss] s t := by
  have hrun := surveyDone_met (s := s.begin) hfrom hstate hsigma
  rw [begin_rd] at hrun
  obtain ⟨t, e, k⟩ := go_ended_of (f := surveyDone a.val) hrun
  have hwait := frame_waitClk (fs := surveyFields a.val) (ps := [.tick, .lanes, .gnss]) (x := from_ + sec16 (s.rd R.GNS_SURV_CTL_MIN_TIME))
    (by simp) (by simp) (frame_begin s)
  have hant : (s.begin.waitClk (from_ + sec16 (s.rd R.GNS_SURV_CTL_MIN_TIME))).gnsAnt a.val = s.gnsAnt a.val :=
    gnsAnt_of_gnss (waitClk_gnss s _) _
  obtain ⟨hx, hy, hz, hfixed⟩ := surveyed_fixes (a := a) (s := s.begin.waitClk (from_ + sec16 (s.rd R.GNS_SURV_CTL_MIN_TIME))) from_
  rw [hant] at hx hy hz
  refine ⟨t, e, (k.rd (side_of_antBase key_GNS_POS_X (by decide))).trans hx,
    (k.rd (side_of_antBase (key_GNS_POS_POS (i := 1) (by decide)) (by decide))).trans hy,
    (k.rd (side_of_antBase (key_GNS_POS_POS (i := 2) (by decide)) (by decide))).trans hz,
    (k.rd (side_of_antBase (key_GNS_POS_CTL_STATE _) (by decide))).trans hfixed, ?_, ?_, ?_, k.frame (frame_surveyed hwait)⟩
  · rw [k.rd side_GNS_EVT_BITS]
    exact bit_gnsRaise (by decide) (by decide) _
  · rw [gnsAnt_of_gnss k.gnss, surveyed, gnsAnt_of_gnss (raise_gnss _ _ _), gnsAnt_modAnt_same]
  · exact k.tick.trans ((surveyed_tick _ _ _).trans (begin_waitClk s _))

theorem survey_slow {from_ : Nat} (hfrom : (s.gnsAnt a.val).surveyFrom = some from_) (hstate : s.rd (R.GNS_POS_CTL_STATE a.val) = 1) :
    ∃ t, Sys2Proof.Machine.exec (.surveySlow a) s = .next t ∧
      bit (t.rd R.GNS_EVT_BITS) 4 = true ∧
      t.tick = (s.waitClk (from_ + sec16 86400)).tick ∧
      Frame [R.GNS_EVT_BITS] [.tick, .lanes] s t := by
  have hrun : surveySlow a.val s.begin = (s.begin.waitClk (from_ + sec16 86400)).raise Evt.gns 16 := by
    have hb : (s.begin.gnsAnt a.val).surveyFrom = some from_ := hfrom
    rw [surveySlow, hb]
    exact if_pos hstate
  obtain ⟨t, e, k⟩ := go_ended_of (f := surveySlow a.val) hrun
  refine ⟨t, e, ?_, ?_, k.frame (frame_raise (by simp [Evt.gns]) (frame_waitClk (by simp) (by simp) (frame_begin s)))⟩
  · rw [k.rd side_GNS_EVT_BITS]
    exact bit_gnsRaise (by decide) (by decide) _
  · rw [k.tick, raise_tick]
    exact begin_waitClk s _

/-! ### A write of GNS_ANTa_POS_CTL (R135, R136) -/

/-- The word that RESTART is written with. -/
abbrev restartWord (a : Fin 2) (w : Word) : Nat := (R.GNS_POS_CTL_RESTART a.val).setIn w.toNat

theorem posCtl_apart (a : Nat) : (Reg.GNS_POS_CTL a).fields.Pairwise fun f g => f.key ≠ g.key := by
  simp [Reg.GNS_POS_CTL]

theorem restartWord_mode (a : Fin 2) (w : Word) : (R.GNS_POS_CTL_MODE a.val).of (restartWord a w) = (R.GNS_POS_CTL_MODE a.val).of w.toNat :=
  Field.of_setIn_below _ _ _ (show 0 + 2 ≤ 2 by decide)

theorem restartWord_restart (a : Fin 2) (w : Word) : (R.GNS_POS_CTL_RESTART a.val).of (restartWord a w) = 1 := Field.of_setIn _ _ rfl

theorem rd_MODE_stored (w : Word) : (s.storeReg false (Reg.GNS_POS_CTL a.val) (restartWord a w)).rd (R.GNS_POS_CTL_MODE a.val) =
    (R.GNS_POS_CTL_MODE a.val).of w.toNat := by
  rw [rd_storeReg_rws _ _ _ (by simp [Reg.GNS_POS_CTL]) (.inr rfl) (posCtl_apart _), restartWord_mode]

theorem rd_STATE_stored (w : Nat) : (s.storeReg false (Reg.GNS_POS_CTL a.val) w).rd (R.GNS_POS_CTL_STATE a.val) =
    s.rd (R.GNS_POS_CTL_STATE a.val) := by
  rw [rd_storeReg_mem _ _ _ _ (by simp [Reg.GNS_POS_CTL]) (posCtl_apart _)]
  rfl

/-- What a RESTART writes. -/
abbrev restartFields (a : Nat) : List Field := R.GNS_SURV_STAT_SIGMA a :: (Reg.GNS_POS_CTL a).fields

theorem state_mem_restart : R.GNS_POS_CTL_STATE a.val ∈ (Reg.GNS_POS_CTL a.val).fields := by simp [Reg.GNS_POS_CTL]

theorem frame_beginSurvey {s₀ : State} (h : Frame (restartFields a.val) [.gnss] s₀ s) : Frame (restartFields a.val) [.gnss] s₀ (beginSurvey a.val s) :=
  frame_modAnt (by simp) (frame_wr (by simp) (frame_wr (List.mem_cons_of_mem _ state_mem_restart) h))

theorem beginSurvey_rd (s : State) :
    (beginSurvey a.val s).rd (R.GNS_POS_CTL_STATE a.val) = 1 ∧ (beginSurvey a.val s).rd (R.GNS_SURV_STAT_SIGMA a.val) = 0xFFFF ∧
      (beginSurvey a.val s).rd (R.GNS_POS_CTL_MODE a.val) = s.rd (R.GNS_POS_CTL_MODE a.val) := by
  refine ⟨?_, ?_, ?_⟩ <;> unfold beginSurvey <;> rw [rd_modAnt]
  · rw [rd_wr_ne _ _ (by simp), rd_wr_same]
    rfl
  · rw [rd_wr_same]
    rfl
  · rw [rd_wr_ne _ _ (by simp), rd_wr_ne _ _ (by simp)]

/-- A RESTART in SURVEY begins a survey, once more where the change of MODE has begun one. -/
theorem writePosCtl_survey (w : Word) (h : (R.GNS_POS_CTL_MODE a.val).of w.toNat = 0 ∨ (R.GNS_POS_CTL_MODE a.val).of w.toNat = 3) :
    ∃ x, writePosCtl a.val (restartWord a w) s = beginSurvey a.val x ∧ x.rd (R.GNS_POS_CTL_MODE a.val) = (R.GNS_POS_CTL_MODE a.val).of w.toNat ∧
      Frame (restartFields a.val) [.gnss] s x := by
  obtain ⟨v, hv⟩ : ∃ v, s.storeReg false (Reg.GNS_POS_CTL a.val) (restartWord a w) = v := ⟨_, rfl⟩
  have hmode := hv ▸ rd_MODE_stored (s := s) (a := a) w
  have hframe : Frame (restartFields a.val) [.gnss] s v :=
    hv ▸ frame_storeReg (fun f hf => .inr (.inr (.inr (.inr (List.mem_cons_of_mem _ hf))))) (Frame.refl _ _ s)
  have hnow : v.posMode a.val = 0 := posMode_of_survey (hmode ▸ h)
  unfold writePosCtl
  simp only [hv, hnow, restartWord_restart, and_self, if_true]
  split
  · exact ⟨v, rfl, hmode, hframe⟩
  · exact ⟨_, rfl, (beginSurvey_rd v).2.2.trans hmode, frame_beginSurvey hframe⟩

theorem survey_restarts (w : Word) (h : (R.GNS_POS_CTL_MODE a.val).of w.toNat = 0 ∨ (R.GNS_POS_CTL_MODE a.val).of w.toNat = 3) :
    ∃ t, Sys2Proof.Machine.exec (.surveyRestart a w) s = .next t ∧
      t.rd (R.GNS_POS_CTL_STATE a.val) = 1 ∧
      t.rd (R.GNS_SURV_STAT_SIGMA a.val) = 0xFFFF ∧
      (t.gnsAnt a.val).surveyFrom = some s.clk ∧
      (t.gnsAnt a.val).surveyN = 0 ∧
      (t.gnsAnt a.val).surveySum = (0, 0, 0) ∧
      t.rd (R.GNS_POS_CTL_MODE a.val) = (R.GNS_POS_CTL_MODE a.val).of w.toNat ∧
      Frame (R.GNS_SURV_STAT_SIGMA a.val :: (Reg.GNS_POS_CTL a.val).fields) [.gnss] s t := by
  obtain ⟨x, hx, hmode, hframe⟩ := writePosCtl_survey (s := s.begin) (a := a) w h
  have hs : Frame (restartFields a.val) [.gnss] s x := (frame_begin s).trans hframe
  obtain ⟨t, e, k⟩ := go_ended_of (f := writePosCtl a.val (restartWord a w)) hx
  obtain ⟨hstate, hsigma, hkept⟩ := beginSurvey_rd (a := a) x
  have hclk : x.clk = s.clk := clk_congr (hs.2.1 .tick (by simp) rfl)
  have hant : t.gnsAnt a.val = (x.gnsAnt a.val).newSurvey (some s.clk) := by
    rw [gnsAnt_of_gnss k.gnss, beginSurvey, gnsAnt_modAnt_same, ← hclk]
    rfl
  refine ⟨t, e, (k.rd (side_of_antBase (key_GNS_POS_CTL_STATE _) (by decide))).trans hstate,
    (k.rd (side_of_antBase (key_GNS_SURV_STAT_SIGMA _) (by decide))).trans hsigma, ?_, ?_, ?_,
    (k.rd (side_of_antBase (key_GNS_POS_CTL_MODE _) (by decide))).trans (hkept.trans hmode), k.frame (frame_beginSurvey hs)⟩
  all_goals rw [hant]; rfl

/-- FIXED written, RESTART has no effect. -/
theorem writePosCtl_fixed (w : Word) (h : (R.GNS_POS_CTL_MODE a.val).of w.toNat = 1) :
    let v := s.storeReg false (Reg.GNS_POS_CTL a.val) (restartWord a w)
    writePosCtl a.val (restartWord a w) s = (if s.posMode a.val = 1 then v
      else (v.wr (R.GNS_POS_CTL_STATE a.val) 3).modAnt a.val (fun k => { k with surveyFrom := none })) := by
  intro v
  have hnow : v.posMode a.val = 1 := posMode_eq_one.2 ((rd_MODE_stored w).trans h)
  unfold writePosCtl
  simp only [show s.storeReg false (Reg.GNS_POS_CTL a.val) (restartWord a w) = v from rfl, hnow, restartWord_restart, one_ne_zero, and_false, if_false]

theorem survey_leaves (w : Word) (h : (R.GNS_POS_CTL_MODE a.val).of w.toNat = 1) :
    ∃ t, Sys2Proof.Machine.exec (.surveyRestart a w) s = .next t ∧
      (t.rd (R.GNS_POS_CTL_STATE a.val) = (if s.posMode a.val = 1 then s.rd (R.GNS_POS_CTL_STATE a.val) else 3)) ∧
      t.rd (R.GNS_POS_CTL_MODE a.val) = 1 ∧
      Frame (Reg.GNS_POS_CTL a.val).fields [.gnss] s t := by
  obtain ⟨t, e, k⟩ := go_ended_of (f := writePosCtl a.val (restartWord a w)) (writePosCtl_fixed (s := s.begin) w h)
  have hstored : Frame (Reg.GNS_POS_CTL a.val).fields [.gnss] s (s.begin.storeReg false (Reg.GNS_POS_CTL a.val) (restartWord a w)) :=
    frame_storeReg (fun f hf => .inr (.inr (.inr (.inr hf)))) (frame_begin s)
  have hmode : s.begin.posMode a.val = s.posMode a.val := rfl
  rw [hmode] at k
  refine ⟨t, e, ?_, ?_, k.frame (frame_ite hstored (frame_modAnt (by simp) (frame_wr state_mem_restart hstored)))⟩
  · rw [k.rd (side_of_antBase (key_GNS_POS_CTL_STATE _) (by decide))]
    split
    · exact rd_STATE_stored _
    · rw [rd_modAnt, rd_wr_same]
      rfl
  · rw [k.rd (side_of_antBase (key_GNS_POS_CTL_MODE _) (by decide))]
    split
    · exact (rd_MODE_stored w).trans h
    · rw [rd_modAnt, rd_wr_ne _ _ (by simp), rd_MODE_stored, h]

end

end Sys2Proof.Machine
end

section
/-! PROOFS. The antennas' roles, the receiver's long sleep, and the end of the held loss detection (R147-R151). -/

namespace Sys2Proof.Machine

section
variable {s : State}

theorem originalPrimary_of (h : s.rd R.GNS_CTL_REDUND = 1 ∨ s.rd R.GNS_CTL_REDUND = 2) : ∃ p, s.originalPrimary = some p := by
  unfold State.originalPrimary
  rcases h with h | h <;> rw [h]
  · exact ⟨0, rfl⟩
  · exact ⟨1, rfl⟩

/-! ### The primary antenna changes (R148) -/

theorem ant_switches (hredund : s.rd R.GNS_CTL_REDUND = 1 ∨ s.rd R.GNS_CTL_REDUND = 2) (hon : s.gnsOn = true) :
    ∃ t, Sys2Proof.Machine.exec (.antSwitch) s = .next t ∧
      t.rd R.GNS_STAT_ACTIVE_ANT = 1 - s.rd R.GNS_STAT_ACTIVE_ANT ∧
      bit (t.rd R.GNS_EVT_BITS) 12 = true ∧
      t.tick = (s.waitClk ((s.gnsAnt (s.rd R.GNS_STAT_ACTIVE_ANT)).validAt + sec16 3)).tick ∧
      Touches [.tick, .lanes, .gnss, .regs .gns, .watch] s t := by
  obtain ⟨p, hp⟩ := originalPrimary_of hredund
  have hrun : antSwitch s.begin = trimPool ((((s.begin.waitClk ((s.gnsAnt (s.rd R.GNS_STAT_ACTIVE_ANT)).validAt + sec16 3)).modAnt
      (s.rd R.GNS_STAT_ACTIVE_ANT) (fun k => { k with validFrom := none })).wr R.GNS_STAT_ACTIVE_ANT
      (1 - s.rd R.GNS_STAT_ACTIVE_ANT)).raise Evt.gns 4096) := by
    have hb : s.begin.originalPrimary = some p := hp
    rw [antSwitch, hb]
    exact if_pos hon
  obtain ⟨t, e, k⟩ := go_ended_of (f := antSwitch) hrun
  obtain ⟨x, hx⟩ : ∃ x, ((s.begin.waitClk ((s.gnsAnt (s.rd R.GNS_STAT_ACTIVE_ANT)).validAt + sec16 3)).modAnt
      (s.rd R.GNS_STAT_ACTIVE_ANT) (fun k => { k with validFrom := none })).wr R.GNS_STAT_ACTIVE_ANT
      (1 - s.rd R.GNS_STAT_ACTIVE_ANT) = x := ⟨_, rfl⟩
  rw [hx] at k
  have hmove : ChMove (fun _ => True) (x.raise Evt.gns 4096) (trimPool (x.raise Evt.gns 4096)) := chMove_trimPool (fun _ => trivial) (ChMove.refl _ _)
  refine ⟨t, e, ?_, ?_, ?_, touches_go e (touches_antSwitch _ (by simp) (by simp) (by simp) (by simp) (by simp) (touches_begin _ s))⟩
  · rw [k.rd (by decide), hmove.rd_low (by decide), rd_raise_ne _ _ _ (by decide) (by decide), ← hx, rd_wr_same]
    exact Nat.mod_eq_of_lt (show _ < 2 by omega)
  · rw [k.rd side_GNS_EVT_BITS, hmove.rd_low (by decide)]
    exact bit_gnsRaise (by decide) (by decide) _
  · rw [k.tick, hmove.tick, raise_tick, ← hx]
    exact begin_waitClk s _

theorem ant_returns {p from_ : Nat} (hp : s.originalPrimary = some p) (hfrom : (s.gnsAnt p).validFrom = some from_)
    (hother : s.rd R.GNS_STAT_ACTIVE_ANT ≠ p) :
    ∃ t, Sys2Proof.Machine.exec (.antReturn) s = .next t ∧
      t.rd R.GNS_STAT_ACTIVE_ANT = p ∧
      t.tick = (s.waitClk (from_ + sec16 600)).tick ∧
      Touches [.tick, .lanes, .gnss, .regs .gns, .watch] s t := by
  have hrun : antReturn s.begin = trimPool ((s.begin.waitClk (from_ + sec16 600)).wr R.GNS_STAT_ACTIVE_ANT p) := by
    have hb : s.begin.originalPrimary = some p := hp
    have hf : (s.begin.gnsAnt p).validFrom = some from_ := hfrom
    rw [antReturn, hb]
    simp only [hf]
    exact if_neg hother
  obtain ⟨t, e, k⟩ := go_ended_of (f := antReturn) hrun
  have hmove : ChMove (fun _ => True) ((s.begin.waitClk (from_ + sec16 600)).wr R.GNS_STAT_ACTIVE_ANT p) _ :=
    chMove_trimPool (fun _ => trivial) (ChMove.refl _ _)
  have hlt : p < 2 := by
    unfold State.originalPrimary at hp
    split at hp <;> simp only [Option.some.injEq, reduceCtorEq] at hp <;> omega
  refine ⟨t, e, ?_, ?_, touches_go e (touches_antReturn _ (by simp) (by simp) (by simp) (by simp) (by simp) (touches_begin _ s))⟩
  · rw [k.rd (by decide), hmove.rd_low (by decide), rd_wr_same]
    exact Nat.mod_eq_of_lt hlt
  · rw [k.tick, hmove.tick]
    exact begin_waitClk s _

/-! ### A long sleep begins (R149, R150) -/

theorem sleep_refused {span : Nat} (h : s.sleepLen span = 0) :
    ∃ t, Sys2Proof.Machine.exec (.gnssSleep span) s = .next t ∧ Frame [] [] s t := by
  have hlen : s.begin.sleepLen span = 0 := h
  obtain ⟨t, e, k⟩ := go_ended_of (f := gnsSleep span) (s := s) (if_neg (by simp [hlen]))
  exact ⟨t, e, k.frame (frame_begin s)⟩

/-- The ports and the antennas of a receiver that goes to sleep. -/
def portsOff (s : State) : State :=
  (List.range 4).foldl (fun s n => s.lo (R.GNS_PORT_STAT_CLK_OK n)) (((s.hi R.GNS_SLEEP_STAT_ASLEEP).lo R.GNS_STAT_RUN).lo R.GNS_STAT_SOL)

def antsOff (s : State) : State := [0, 1].foldl (fun s a => s.modAnt a (fun k => { k with ready := none, validFrom := none })) s

/-- Asleep for `len` seconds. -/
def asleepFor (len : Nat) (s : State) : State :=
  let s := antsOff (portsOff s)
  { s with gnss := { s.gnss with sleepUntil := s.clk + sec16 len, lossHeld := true, wakeAt := none } }

/-- The signals that a sleep takes. -/
def holdSignals (s : State) : State := { s with gnss := { s.gnss with resume := s.heldSignals } }

theorem gnsSleep_enters {span : Nat} (hon : s.gnsOn = true) (hel : s.gnsEligible = true) (hlen : 0 < s.sleepLen span) :
    gnsSleep span s = asleepFor (s.sleepLen span) (idleWhere (fun _ _ => true) (holdSignals s)) :=
  if_pos (by simp [hon, hel, hlen])

theorem rd_foldl_lo {l : List Nat} {F : Nat → Field} {g : Field} (h : ∀ n, g.key ≠ (F n).key) (s : State) :
    (l.foldl (fun s n => s.lo (F n)) s).rd g = s.rd g := by
  induction l generalizing s with
  | nil => rfl
  | cons n l ih => exact (ih _).trans (rd_lo_ne _ (h n))

theorem portStat_bounds (n : Nat) : 0x802000 ≤ (R.GNS_PORT_STAT_CLK_OK n).key ∧ (R.GNS_PORT_STAT_CLK_OK n).key < 0x804000 := by
  simp only [R.GNS_PORT_STAT_CLK_OK, Field.mk']; omega

theorem rd_asleepFor {len : Nat} {g : Field} (hg : g.key < 0x802000 ∨ 0x804000 ≤ g.key) :
    (asleepFor len s).rd g = (((s.hi R.GNS_SLEEP_STAT_ASLEEP).lo R.GNS_STAT_RUN).lo R.GNS_STAT_SOL).rd g :=
  rd_foldl_lo (fun n => by have := portStat_bounds n; omega) _

/-- Beyond the ports' registers nothing that a sleep leaves is written. -/
theorem rd_asleepFor_high {len : Nat} {g : Field} (hg : 0x804000 ≤ g.key) : (asleepFor len s).rd g = s.rd g := by
  rw [rd_asleepFor (.inr hg), rd_lo_ne _ (by rw [key_GNS_STAT_SOL]; omega), rd_lo_ne _ (by rw [key_GNS_STAT_RUN]; omega),
    rd_hi_ne _ (by rw [key_GNS_SLEEP_STAT_ASLEEP]; omega)]

/-- A channel that is not under test, and that a condition takes however the others move, is IDLE once the condition has been applied. -/
theorem ch_idleWhere {p : State → Nat → Bool} {c : Nat} (hc : c < 160) (hp : ∀ t, ChMove (fun d => d < 160 ∧ d ≠ c) s t → p t c = true)
    (h : s.ch c ≠ .test) : (idleWhere p s).ch c = .idle := by
  have hfold : ∀ (l : List Nat) (u : State), (∀ d ∈ l, d < 160) → (u.ch c = .idle ∨ ChMove (fun d => d < 160 ∧ d ≠ c) s u ∧ c ∈ l) →
      (l.foldl (fun s c => if s.ch c ≠ .idle ∧ s.ch c ≠ .test ∧ p s c = true then idleCh c s else s) u).ch c = .idle := by
    intro l
    induction l with
    | nil => exact fun u _ hu => hu.resolve_right fun hm => List.not_mem_nil hm.2
    | cons d l ih =>
      intro u hl hu
      refine ih _ (fun x hx => hl x (List.mem_cons_of_mem _ hx)) ?_
      beta_reduce
      by_cases hdc : d = c
      · subst hdc
        refine .inl ?_
        rcases hu with hu | ⟨hu, -⟩
        · rw [if_neg fun hn => hn.1 hu, hu]
        · by_cases hi : u.ch d = .idle
          · rw [if_neg fun hn => hn.1 hi, hi]
          · have ht : u.ch d = s.ch d := ch_of_rd (hu.rd_ch (fun x hx => chBase_of_lt hx.1 hc hx.2) (key_GNS_CH_STAT_STATE d) (by decide))
            rw [if_pos ⟨hi, ht ▸ h, hp u hu⟩, ch_idleCh_same]
      · have hd := hl d List.mem_cons_self
        rcases hu with hu | ⟨hu, hm⟩
        · refine .inl ?_
          split
          · exact ((chMove_idleCh (f := (· = d)) rfl (ChMove.refl _ u)).ch_ne hd hc fun e => hdc e.symm).trans hu
          · exact hu
        · exact .inr ⟨chMove_ite (chMove_idleCh ⟨hd, hdc⟩ hu) hu, (List.mem_cons.1 hm).resolve_left fun e => hdc e.symm⟩
  exact hfold chIds s (fun d hd => List.mem_range.1 hd) (.inr ⟨ChMove.refl _ s, List.mem_range.2 hc⟩)

/-- A channel that is not under test is IDLE once every channel has been taken there. -/
theorem ch_idleWhere_all {c : Nat} (hc : c < 160) (h : s.ch c ≠ .test) : (idleWhere (fun _ _ => true) s).ch c = .idle :=
  ch_idleWhere hc (fun _ _ => rfl) h

theorem asleepFor_gnss (len : Nat) (s : State) :
    (asleepFor len s).gnss.lossHeld = true ∧ (asleepFor len s).gnss.sleepUntil = s.clk + sec16 len ∧
      (asleepFor len s).gnss.resume = s.gnss.resume := ⟨rfl, rfl, rfl⟩

theorem sleep_enters {span : Nat} (hon : s.gnsOn = true) (hel : s.gnsEligible = true) (hlen : 0 < s.sleepLen span) :
    ∃ t, Sys2Proof.Machine.exec (.gnssSleep span) s = .next t ∧
      t.rd R.GNS_SLEEP_STAT_ASLEEP = 1 ∧
      t.rd R.GNS_STAT_RUN = 0 ∧
      t.gnss.lossHeld = true ∧
      t.gnss.sleepUntil = s.clk + sec16 (min (min (s.rd R.GNS_SLEEP_CTL_MAX) span) (s.ephEnd - s.ts0 / sec16 1)) ∧
      t.gnss.resume = s.heldSignals ∧
      (∀ c : Fin 160, s.ch c.val ≠ .test → t.ch c.val = .idle) ∧
      (∀ k : Fin 6, t.rd (R.GNS_POS_POS k.val) = s.rd (R.GNS_POS_POS k.val)) ∧
      Touches [.gnss, .regs .gns, .watch] s t := by
  obtain ⟨t, e, k⟩ := go_ended_of (f := gnsSleep span) (gnsSleep_enters (s := s.begin) hon hel hlen)
  obtain ⟨x, hx⟩ : ∃ x, idleWhere (fun _ _ => true) (holdSignals s.begin) = x := ⟨_, rfl⟩
  rw [hx] at k
  have hmove : ChMove (fun _ => True) (holdSignals s.begin) x := hx ▸ chMove_idleWhere (fun _ => trivial) (ChMove.refl _ _)
  obtain ⟨hloss, huntil, hresume⟩ := asleepFor_gnss (s.begin.sleepLen span) x
  refine ⟨t, e, ?_, ?_, ?_, ?_, ?_, fun c hc => ?_, fun j => ?_,
    touches_go e (touches_gnsSleep _ _ (by simp) (by simp) (by simp) (touches_begin _ s))⟩
  · rw [k.rd (by decide), rd_asleepFor (.inl (by decide)), rd_lo_ne _ (by decide), rd_lo_ne _ (by decide), rd_hi_same]
    rfl
  · rw [k.rd (by decide), rd_asleepFor (.inl (by decide)), rd_lo_ne _ (by decide), rd_lo_same]
  · rw [k.gnss, hloss]
  · rw [k.gnss, huntil, hmove.clk]
    rfl
  · rw [k.gnss, hresume, hmove.gnss]
    rfl
  · have hkey := key_GNS_CH_STAT_STATE c.val
    have hidle : x.ch c.val = .idle := hx ▸ ch_idleWhere_all (s := holdSignals s.begin) c.isLt hc
    rw [← hidle]
    refine ch_of_rd ?_
    rw [k.rd (side_of_chBase hkey (by decide)), rd_asleepFor_high]
    rw [hkey]
    have := chBase_ge c.val
    omega
  · have hb : 0x804000 ≤ (R.GNS_POS_POS j.val).key ∧ (R.GNS_POS_POS j.val).key < 0xA00000 := by
      simp only [R.GNS_POS_POS, Field.mk']; omega
    rw [k.rd (Field.side_of_low (by omega)), rd_asleepFor_high hb.1, hmove.rd_low hb.2]
    rfl

/-! ### No valid solution within 5 s of the wake (R151) -/

/-- Slots 0 and 1 are heard from now on. -/
theorem resumeLoss_held (h : s.gnss.lossHeld = true) : resumeLoss s =
    (State.modSlot { s with gnss := { s.gnss with lossHeld := false } } 0 (fun k => { k with heard := s.clk })).modSlot 1
      (fun k => { k with heard := s.clk }) := if_pos h

theorem slot_modSlot_ne {i j : Nat} (h : j ≠ i) (f : Slot → Slot) (s : State) : (s.modSlot i f).slot j = s.slot j := IMap.get_upd_ne _ _ _ h

theorem resumeLoss_heard (h : s.gnss.lossHeld = true) : ((resumeLoss s).slot 0).heard = s.clk ∧ ((resumeLoss s).slot 1).heard = s.clk := by
  rw [resumeLoss_held h]
  exact ⟨by rw [slot_modSlot_ne (by decide), slot_modSlot_same], by rw [slot_modSlot_same]⟩

theorem rd_resumeLoss (g : Field) : (resumeLoss s).rd g = s.rd g := by
  unfold resumeLoss
  split <;> rfl

theorem resumeLoss_gnss (h : s.gnss.lossHeld = true) : (resumeLoss s).gnss = { s.gnss with lossHeld := false } := by rw [resumeLoss_held h]; rfl

theorem resumeLoss_tick (s : State) : (resumeLoss s).tick = s.tick := by
  unfold resumeLoss
  split <;> rfl

theorem frame_resumeLoss {fs : List Field} {ps : List Part} {s₀ : State} (he : Part.ens ∈ ps) (hg : Part.gnss ∈ ps) (h : Frame fs ps s₀ s) :
    Frame fs ps s₀ (resumeLoss s) := frame_ite (frame_set_ens he (frame_set_ens he (frame_set_gnss hg h))) h

theorem hot_fails {at_ : Nat} (hwake : s.gnss.wakeAt = some at_) (hheld : s.gnss.lossHeld = true) :
    ∃ t, Sys2Proof.Machine.exec (.hotFail) s = .next t ∧
      t.rd R.GNS_SLEEP_STAT_HOT = 0 ∧
      bit (t.rd R.GNS_EVT_BITS) 8 = true ∧
      t.gnss = { s.gnss with lossHeld := false } ∧
      (t.slot 0).heard = t.clk ∧
      (t.slot 1).heard = t.clk ∧
      t.tick = (s.waitClk (at_ + sec16 5)).tick ∧
      Frame [R.GNS_SLEEP_STAT_HOT, R.GNS_EVT_BITS] [.tick, .lanes, .ens, .gnss] s t := by
  obtain ⟨x, hx⟩ : ∃ x, ((s.begin.waitClk (at_ + sec16 5)).lo R.GNS_SLEEP_STAT_HOT).raise Evt.gns 256 = x := ⟨_, rfl⟩
  have hgnss : x.gnss = s.gnss := by rw [← hx, raise_gnss, State.lo, wr_gnss, waitClk_gnss]
  have htick : x.tick = (s.waitClk (at_ + sec16 5)).tick := by
    rw [← hx, raise_tick, State.lo, wr_tick, begin_waitClk]
  have hframe : Frame [R.GNS_SLEEP_STAT_HOT, R.GNS_EVT_BITS] [.tick, .lanes, .ens, .gnss] s x :=
    hx ▸ frame_raise (by simp [Evt.gns]) (frame_lo (by simp) (frame_waitClk (by simp) (by simp) (frame_begin s)))
  have hrun : hotFail s.begin = resumeLoss x := by
    have hb : s.begin.gnss.wakeAt = some at_ := hwake
    rw [hotFail, hb, ← hx]
    exact if_pos hheld
  have hloss : x.gnss.lossHeld = true := hgnss ▸ hheld
  obtain ⟨t, e, k⟩ := go_ended_of (f := hotFail) hrun
  have hclk : t.clk = x.clk := clk_congr (k.tick.trans (resumeLoss_tick x))
  obtain ⟨h0, h1⟩ := resumeLoss_heard hloss
  refine ⟨t, e, ?_, ?_, ?_, ?_, ?_, k.tick.trans ((resumeLoss_tick x).trans htick), k.frame (frame_resumeLoss (by simp) (by simp) hframe)⟩
  · rw [k.rd (by decide), rd_resumeLoss, ← hx, rd_raise_ne _ _ _ (by decide) (by decide), rd_lo_same]
  · rw [k.rd side_GNS_EVT_BITS, rd_resumeLoss, ← hx]
    exact bit_gnsRaise (by decide) (by decide) _
  · rw [k.gnss, resumeLoss_gnss hloss, hgnss]
  · rw [slot_of_ens k.ens, h0, hclk]
  · rw [slot_of_ens k.ens, h1, hclk]

end

end Sys2Proof.Machine
end

section
/-! PROOFS. The receiver wakes: its ports await their epochs and its channels take up their signals (R150, R151). -/

namespace Sys2Proof.Machine

section
variable {s t x : State} {c : Nat}

/-! ### What decides on a signal follows the registers that no channel reports through -/

theorem signalOk_congr (hrd : ∀ {g : Field}, g.key < 0xA00000 → t.rd g = s.rd g) (hsys : t.gnss.sysHeld = s.gnss.sysHeld) (sys band ant : Nat) :
    t.signalOk sys band ant = s.signalOk sys band ant := by
  have hband : (if band = 0 then R.GNS_CTL_HIGH_EN else R.GNS_CTL_LOW_EN).key < 0xA00000 := by split <;> decide
  have hport : ∀ n, t.portOk n = s.portOk n := by
    intro n
    have h1 : (R.GNS_PORT_CFG_EN n).key < 0xA00000 := by simp only [R.GNS_PORT_CFG_EN, Field.mk']; omega
    have h2 : (R.GNS_PORT_STAT_FAULT n).key < 0xA00000 := by simp only [R.GNS_PORT_STAT_FAULT, Field.mk']; omega
    simp only [State.portOk, State.portUsed, State.antInUse, State.on, hrd h1, hrd h2, hrd (g := R.GNS_CTL_REDUND) (by decide)]
  simp only [State.signalOk, State.gnsOn, State.systems, State.antInUse, State.on, hport, hsys, hrd hband, hrd (g := R.GNS_CTL_EN) (by decide),
    hrd (g := R.GNS_SLEEP_STAT_ASLEEP) (by decide), hrd (g := R.GNS_CTL_SYS_EN) (by decide), hrd (g := R.GNS_CTL_REDUND) (by decide)]

theorem lowDirect_congr (hrd : ∀ {g : Field}, g.key < 0xA00000 → t.rd g = s.rd g) (ant : Nat) : t.lowDirect ant = s.lowDirect ant := by
  have h : (R.GNS_PORT_STAT_FAULT (portOf ant 0)).key < 0xA00000 := by simp only [R.GNS_PORT_STAT_FAULT, Field.mk']; omega
  simp only [State.lowDirect, State.on, hrd h, hrd (g := R.GNS_CTL_HIGH_EN) (by decide)]

theorem antQuota_congr (hrd : ∀ {g : Field}, g.key < 0xA00000 → t.rd g = s.rd g) (hrsv : ∀ c < 160, t.reserved c = s.reserved c) (a : Nat) :
    t.antQuota a = s.antQuota a := by
  have hpool : chIds.filter (fun c => !t.reserved c) = chIds.filter (fun c => !s.reserved c) :=
    List.filter_congr fun c hc => by rw [hrsv c (List.mem_range.1 hc)]
  simp only [State.antQuota, hpool, hrd (g := R.GNS_CTL_REDUND) (by decide), hrd (g := R.GNS_STAT_ACTIVE_ANT) (by decide)]

theorem ChMove.reserved {f : Nat → Prop} (h : ChMove f s t) (c : Nat) : t.reserved c = s.reserved c := by
  rw [State.reserved, State.reserved, State.on, State.on, h.rd_cfg (key_GNS_CH_CFG_RSV c) (by decide)]

theorem ChMove.pin {f : Nat → Prop} (h : ChMove f s t) (c : Nat) : t.on (R.GNS_CH_CFG_PIN c) = s.on (R.GNS_CH_CFG_PIN c) := by
  rw [State.on, State.on, h.rd_cfg (key_GNS_CH_CFG_PIN c) (by decide)]

theorem ChMove.sysHeld {f : Nat → Prop} (h : ChMove f s t) : t.gnss.sysHeld = s.gnss.sysHeld := by rw [h.gnss]

theorem ChMove.ants {f : Nat → Prop} (h : ChMove f s t) (a : Nat) : t.gnsAnt a = s.gnsAnt a := by rw [State.gnsAnt, State.gnsAnt, h.gnss]

theorem ChMove.ports {f : Nat → Prop} (h : ChMove f s t) (n : Nat) : t.gnsPort n = s.gnsPort n := by rw [State.gnsPort, State.gnsPort, h.gnss]

theorem ChMove.signalOk {f : Nat → Prop} (h : ChMove f s t) (sys band ant : Nat) : t.signalOk sys band ant = s.signalOk sys band ant :=
  signalOk_congr (fun hg => h.rd_low hg) h.sysHeld sys band ant

theorem ChMove.lowDirect {f : Nat → Prop} (h : ChMove f s t) (ant : Nat) : t.lowDirect ant = s.lowDirect ant :=
  lowDirect_congr (fun hg => h.rd_low hg) ant

theorem ChMove.antQuota {f : Nat → Prop} (h : ChMove f s t) (a : Nat) : t.antQuota a = s.antQuota a :=
  antQuota_congr (fun hg => h.rd_low hg) (fun c _ => h.reserved c) a

/-! ### An antenna within its share (R147) -/

/-- The model's sort is Mathlib's insertion sort. -/
theorem sortBy_eq_insertionSort {α : Type} (p : α → α → Bool) (l : List α) : sortBy p l = l.insertionSort (fun x y => p x y = true) := by
  have hins : ∀ (y : α) (l : List α), insertBy p y l = l.orderedInsert (fun x y => p x y = true) y := by
    intro y l
    induction l with
    | nil => rfl
    | cons z l ih => rw [insertBy, ih, List.orderedInsert_cons]
  induction l with
  | nil => rfl
  | cons y l ih => rw [sortBy, hins, ih, List.insertionSort_cons]

theorem length_sortBy {α : Type} (p : α → α → Bool) (l : List α) : (sortBy p l).length = l.length := by
  rw [sortBy_eq_insertionSort, List.length_insertionSort]

theorem trimPool_of_fits (h : ∀ a < 2, (s.antChans a).length ≤ s.antQuota a) : trimPool s = s := by
  have hdrop : ∀ a < 2, (s.antRanked a).drop (s.antQuota a) = [] := fun a ha =>
    List.drop_eq_nil_of_le (by rw [State.antRanked, length_sortBy]; exact h a ha)
  unfold trimPool
  rw [List.flatMap_cons, List.flatMap_cons, List.flatMap_nil, hdrop 0 (by decide), hdrop 1 (by decide)]
  rfl

theorem nodup_chIds : chIds.Nodup := List.nodup_range

/-- An antenna holds one channel at most where no other is in use. -/
theorem antChans_le_one (hc : ∀ d < 160, d ≠ c → s.ch d = .idle) (a : Nat) : (s.antChans a).length ≤ 1 := by
  have hsub : s.antChans a ⊆ [c] := by
    intro d hd
    obtain ⟨hm, hp⟩ := List.mem_filter.1 hd
    by_contra hne
    have := hc d (List.mem_range.1 hm) (by simpa using hne)
    simp [this] at hp
  exact ((nodup_chIds.filter _).subperm hsub).length_le

/-- And none where that one is the other antenna's. -/
theorem antChans_nil (hc : ∀ d < 160, d ≠ c → s.ch d = .idle) {a : Nat} (ha : (s.gnsCh c).ant ≠ a) : s.antChans a = [] := by
  refine List.filter_eq_nil_iff.2 fun d hd hp => ?_
  by_cases hdc : d = c
  · subst hdc
    simp [ha] at hp
  · simp [hc d (List.mem_range.1 hd) hdc] at hp

/-- With no channel in use but `c`, and a share for its antenna, the pool is as it should be. -/
theorem trimPool_single (hc : ∀ d < 160, d ≠ c → s.ch d = .idle) (hq : 0 < s.antQuota (s.gnsCh c).ant) : trimPool s = s := by
  refine trimPool_of_fits fun a _ => ?_
  by_cases ha : (s.gnsCh c).ant = a
  · exact (antChans_le_one hc a).trans (ha ▸ hq)
  · rw [antChans_nil hc ha]
    exact Nat.zero_le _

theorem foldl_fixed {α : Type} {g : State → α → State} {l : List α} (h : ∀ y ∈ l, g s y = s) : l.foldl g s = s := by
  induction l with
  | nil => rfl
  | cons y l ih =>
    rw [List.foldl_cons, h y List.mem_cons_self]
    exact ih fun z hz => h z (List.mem_cons_of_mem _ hz)

/-- Where nothing is pinned, no pin starts. -/
theorem restartPins_of_none (h : ∀ d < 160, s.on (R.GNS_CH_CFG_PIN d) = false) : restartPins s = s :=
  foldl_fixed fun d hd => if_neg fun hp => by simp [h d (List.mem_range.1 hd)] at hp

/-! ### A signal that a channel takes up again (R151) -/

theorem ant_startCh (c : Nat) (v : Ch) (sys band ant svid : Nat) (pinned : Bool) (s : State) :
    ((startCh c v sys band ant svid pinned s).gnsCh c).ant = ant := by
  have hfull : ∀ u : State, (noteFull u).gnss = u.gnss := by
    intro u
    unfold noteFull
    split <;> rfl
  unfold startCh setCh
  rw [gnsCh_of_gnss (wr_gnss _ _ _), gnsCh_modCh_same]
  simp only [gnsCh_of_gnss (wr_gnss _ _ _), gnsCh_of_gnss (hfull _), gnsCh_modCh_same]

/-- What the end of a sleep has the channels do with the signals they had. -/
def resumed (s : State) : State := restartPins (trimPool (s.gnss.resume.foldl resumeCh s))

theorem chMove_resumed (s : State) : ChMove (fun _ => True) s (resumed s) :=
  chMove_restartPins (fun _ => trivial) (chMove_trimPool (fun _ => trivial)
    (chMove_foldl (fun _ _ _ h => chMove_resumeCh (fun _ => trivial) h) (ChMove.refl _ s)))

theorem resumed_single {c : Fin 160} {g : GnssSig} (hres : s.gnss.resume = [(c.val, g)]) (hidle : ∀ d : Fin 160, s.ch d.val = .idle)
    (hrsv : s.reserved c.val = false) (hpin : ∀ d : Fin 160, s.on (R.GNS_CH_CFG_PIN d.val) = false)
    (hok : s.signalOk g.sys.val (b01 g.low) (b01 g.ant) = true) (hlow : g.low = true → s.lowDirect (b01 g.ant) = true)
    (hquota : 0 < s.antQuota (b01 g.ant)) :
    resumed s = startCh c.val .search g.sys.val (b01 g.low) (b01 g.ant) g.svid.toNat false s := by
  obtain ⟨u, hu⟩ : ∃ u, startCh c.val .search g.sys.val (b01 g.low) (b01 g.ant) g.svid.toNat false s = u := ⟨_, rfl⟩
  have hmove : ChMove (· = c.val) s u := hu ▸ chMove_startCh rfl (ChMove.refl _ s)
  have hstart : s.gnss.resume.foldl resumeCh s = u := by
    rw [hres, ← hu]
    refine if_pos ⟨hidle c, hrsv, hpin c, hok, ?_⟩
    cases hl : g.low
    · exact .inl rfl
    · exact .inr (hlow hl)
  have htrim : trimPool u = u := by
    refine trimPool_single (c := c.val) (fun d hd hdc => (hmove.ch_ne c.isLt hd hdc).trans (hidle ⟨d, hd⟩)) ?_
    rw [← hu, ant_startCh, hu, hmove.antQuota]
    exact hquota
  rw [resumed, hstart, htrim, restartPins_of_none fun d hd => (hmove.pin d).trans (hpin ⟨d, hd⟩), hu]

/-! ### The prediction a search is loaded with (R151) -/

/-- A channel in SEARCH stands at the Doppler predicted for its signal. -/
def State.loadedAt (s : State) (c : Nat) : Prop :=
  s.ch c = .search → s.rd (R.GNS_CH_DOP_DOP c) = (Config.predictDop (s.satOf c) (s.gnsCh c).band s.ts0).toNat

/-- What a prediction is made from. -/
def LoadAlike (c : Nat) (s t : State) : Prop :=
  t.ch c = s.ch c ∧ t.rd (R.GNS_CH_STAT_SVID c) = s.rd (R.GNS_CH_STAT_SVID c) ∧ (t.gnsCh c).sys = (s.gnsCh c).sys ∧
    (t.gnsCh c).band = (s.gnsCh c).band ∧ t.ts0 = s.ts0

theorem loadAlike_loadCh (s : State) {c d : Nat} : LoadAlike c s (loadCh s d) := by
  unfold loadCh
  split
  · refine ⟨ch_of_rd ?_, ?_, ?_, ?_, rfl⟩
    · rw [rd_modCh, rd_wr_ne _ _ (by rw [key_GNS_CH_STAT_STATE, key_GNS_CH_DOP_DOP]; unfold chBase; omega)]
    · rw [rd_modCh, rd_wr_ne _ _ (by rw [key_GNS_CH_STAT_SVID, key_GNS_CH_DOP_DOP]; unfold chBase; omega)]
    all_goals
      by_cases hcd : c = d
      · rw [hcd, gnsCh_modCh_same]; rfl
      · rw [gnsCh_modCh_ne _ _ hcd]; rfl
  · exact ⟨rfl, rfl, rfl, rfl, rfl⟩

theorem LoadAlike.loadedAt (h : LoadAlike c s t) (hd : t.rd (R.GNS_CH_DOP_DOP c) = s.rd (R.GNS_CH_DOP_DOP c)) (hs : s.loadedAt c) :
    t.loadedAt c := by
  obtain ⟨hch, hsvid, hsys, hband, hts⟩ := h
  intro ht
  rw [hd, hs (hch ▸ ht), State.satOf, State.satOf, hsvid, hsys, hband, hts]

theorem loadedAt_loadCh_same (s : State) (c : Nat) : (loadCh s c).loadedAt c := by
  obtain ⟨hch, hsvid, hsys, hband, hts⟩ := loadAlike_loadCh s (c := c) (d := c)
  intro ht
  rw [State.satOf, hsvid, hsys, hband, hts, loadCh, if_pos (hch ▸ ht), rd_modCh, rd_wr_same]
  exact Nat.mod_eq_of_lt (BitVec.isLt _)

theorem loadedAt_loadCh_ne {d : Nat} (hc : c < 160) (hd : d < 160) (hne : c ≠ d) (h : s.loadedAt c) : (loadCh s d).loadedAt c := by
  refine (loadAlike_loadCh s).loadedAt ?_ h
  exact (chMove_loadCh (f := (· = d)) rfl (ChMove.refl _ s)).rd_ch (fun _ e => e ▸ chBase_of_lt hd hc hne.symm) (key_GNS_CH_DOP_DOP c) (by decide)

/-- Every channel loaded. -/
def loadAll (s : State) : State := chIds.foldl loadCh s

theorem loadAll_move (s : State) : ChMove (fun _ => True) s (loadAll s) := chMove_foldl (fun _ _ _ h => chMove_loadCh trivial h) (ChMove.refl _ s)

theorem loadAlike_loadAll (s : State) (c : Nat) : LoadAlike c s (loadAll s) := by
  unfold loadAll
  generalize chIds = l
  induction l generalizing s with
  | nil => exact ⟨rfl, rfl, rfl, rfl, rfl⟩
  | cons d l ih =>
    obtain ⟨a1, a2, a3, a4, a5⟩ := loadAlike_loadCh s (c := c) (d := d)
    obtain ⟨b1, b2, b3, b4, b5⟩ := ih (loadCh s d)
    exact ⟨b1.trans a1, b2.trans a2, b3.trans a3, b4.trans a4, b5.trans a5⟩

theorem loadedAt_loadAll (s : State) (hc : c < 160) : (loadAll s).loadedAt c := by
  have hfold : ∀ (l : List Nat) (s : State), (∀ d ∈ l, d < 160) → (s.loadedAt c ∨ c ∈ l) → (l.foldl loadCh s).loadedAt c := by
    intro l
    induction l with
    | nil => intro s _ h; exact h.resolve_right (by simp)
    | cons d l ih =>
      intro s hl h
      refine ih _ (fun y hy => hl y (List.mem_cons_of_mem _ hy)) ?_
      by_cases hcd : c = d
      · exact .inl (hcd ▸ loadedAt_loadCh_same s c)
      · exact h.imp (loadedAt_loadCh_ne hc (hl d List.mem_cons_self) hcd) fun hm => (List.mem_cons.1 hm).resolve_left hcd
  exact hfold chIds s (fun d hd => List.mem_range.1 hd) (.inr (List.mem_range.2 hc))

/-! ### The wake itself (R151) -/

/-- A port that awaits its epoch from now. -/
def State.awaits (s : State) (n : Nat) : Prop := (s.gnsPort n).epochAt = none ∧ (s.gnsPort n).awaitFrom = s.clk ∧ (s.gnsPort n).clean = 0

theorem awaits_portAwaits (n m : Nat) (s : State) (h : n = m ∨ s.awaits n) : (portAwaits m s).awaits n := by
  by_cases hnm : n = m
  · subst hnm
    unfold State.awaits portAwaits
    rw [gnsPort_modGnsPort_same]
    exact ⟨rfl, rfl, rfl⟩
  · have h := h.resolve_left hnm
    unfold State.awaits portAwaits at *
    rw [gnsPort_modGnsPort_ne _ _ hnm]
    exact h

/-- The receiver on again, before its channels are. -/
def awake (s : State) : State :=
  let s := (s.lo R.GNS_SLEEP_STAT_ASLEEP).lo R.GNS_SLEEP_CTL_WAKE
  let s := s.wr R.GNS_STAT_RUN (b01 s.gnsOn)
  [0, 1, 2, 3].foldl (fun s n => portAwaits n s) s

theorem awaits_awake (s : State) (n : Fin 4) : (awake s).awaits n.val := by
  have hfour : ∀ u : State, ([0, 1, 2, 3].foldl (fun s n => portAwaits n s) u).awaits n.val := by
    intro u
    have hn : n.val = 0 ∨ n.val = 1 ∨ n.val = 2 ∨ n.val = 3 := by omega
    simp only [List.foldl_cons, List.foldl_nil]
    rcases hn with hn | hn | hn | hn
    · exact awaits_portAwaits _ _ _ (.inr (awaits_portAwaits _ _ _ (.inr (awaits_portAwaits _ _ _ (.inr (awaits_portAwaits _ _ _ (.inl hn)))))))
    · exact awaits_portAwaits _ _ _ (.inr (awaits_portAwaits _ _ _ (.inr (awaits_portAwaits _ _ _ (.inl hn)))))
    · exact awaits_portAwaits _ _ _ (.inr (awaits_portAwaits _ _ _ (.inl hn)))
    · exact awaits_portAwaits _ _ _ (.inl hn)
  exact hfour _

theorem rd_awake (s : State) (g : Field) : (awake s).rd g =
    (((s.lo R.GNS_SLEEP_STAT_ASLEEP).lo R.GNS_SLEEP_CTL_WAKE).wr R.GNS_STAT_RUN
      (b01 ((s.lo R.GNS_SLEEP_STAT_ASLEEP).lo R.GNS_SLEEP_CTL_WAKE).gnsOn)).rd g := rfl

theorem rd_awake_ne (s : State) {g : Field} (h1 : g.key ≠ R.GNS_SLEEP_STAT_ASLEEP.key) (h2 : g.key ≠ R.GNS_SLEEP_CTL_WAKE.key)
    (h3 : g.key ≠ R.GNS_STAT_RUN.key) : (awake s).rd g = s.rd g := by
  rw [rd_awake, rd_wr_ne _ _ h3, rd_lo_ne _ h2, rd_lo_ne _ h1]

/-- No register of a channel changes before the channels do. -/
theorem rd_awake_ch (s : State) {g : Field} {n : Nat} (hk : g.key = chBase c + n) : (awake s).rd g = s.rd g :=
  rd_awake_ne s (by simp [hk]) (by simp [hk]) (by simp [hk])

theorem awake_lossHeld (s : State) : (awake s).gnss.lossHeld = s.gnss.lossHeld := rfl

theorem awake_resume (s : State) : (awake s).gnss.resume = s.gnss.resume := rfl

theorem awake_tick (s : State) : (awake s).tick = s.tick := rfl

theorem gnsWake_eq (s : State) : gnsWake s =
    { loadAll (resumed (awake s)) with
      gnss := { (loadAll (resumed (awake s))).gnss with wakeAt := some (loadAll (resumed (awake s))).clk, resume := [] } } := rfl

theorem gnsOn_woken (s : State) : ((s.lo R.GNS_SLEEP_STAT_ASLEEP).lo R.GNS_SLEEP_CTL_WAKE).gnsOn = decide (s.rd R.GNS_CTL_EN = 1) := by
  rw [State.gnsOn, State.on, State.on, rd_lo_ne _ (by decide), rd_lo_ne _ (by decide), rd_lo_ne (f := R.GNS_SLEEP_CTL_WAKE) _ (by decide), rd_lo_same]
  simp

theorem chMove_wake (s : State) : ChMove (fun _ => True) (awake s) (loadAll (resumed (awake s))) := (chMove_resumed _).trans (loadAll_move _)

/-- What a wake from the state `x` leaves. -/
structure Woken (x t : State) : Prop where
  asleep : t.rd R.GNS_SLEEP_STAT_ASLEEP = 0
  wake : t.rd R.GNS_SLEEP_CTL_WAKE = 0
  run : t.rd R.GNS_STAT_RUN = b01 (decide (x.rd R.GNS_CTL_EN = 1))
  at_ : t.gnss.wakeAt = some t.clk
  loss : t.gnss.lossHeld = x.gnss.lossHeld
  ports : ∀ n : Fin 4, t.awaits n.val
  resumes : ∀ (c : Fin 160) (g : GnssSig), x.gnss.resume = [(c.val, g)] → (∀ d : Fin 160, x.ch d.val = .idle) → x.reserved c.val = false →
    (∀ d : Fin 160, x.rd (R.GNS_CH_CFG_PIN d.val) ≠ 1) → t.signalOk g.sys.val (b01 g.low) (b01 g.ant) = true →
    (g.low = true → t.lowDirect (b01 g.ant) = true) → 0 < t.antQuota (b01 g.ant) →
    t.ch c.val = .search ∧ t.rd (R.GNS_CH_STAT_SVID c.val) = g.svid.toNat
  loads : ∀ c : Fin 160, t.loadedAt c.val
  resume : t.gnss.resume = []
  low : ∀ {g : Field}, g.key < 0xA00000 → g.key ≠ R.GNS_SLEEP_STAT_ASLEEP.key → g.key ≠ R.GNS_SLEEP_CTL_WAKE.key → g.key ≠ R.GNS_STAT_RUN.key →
    t.rd g = x.rd g
  tick : t.tick = x.tick

/-- The signal a channel takes up again is one that may be tracked after the wake, which is as it was at it. -/
theorem wake_resumes (s : State) {c : Fin 160} {g : GnssSig} (hres : s.gnss.resume = [(c.val, g)]) (hidle : ∀ d : Fin 160, s.ch d.val = .idle)
    (hrsv : s.reserved c.val = false) (hpin : ∀ d : Fin 160, s.rd (R.GNS_CH_CFG_PIN d.val) ≠ 1) {t : State}
    (h : ChMove (fun _ => True) (awake s) t) (hok : t.signalOk g.sys.val (b01 g.low) (b01 g.ant) = true)
    (hlow : g.low = true → t.lowDirect (b01 g.ant) = true) (hquota : 0 < t.antQuota (b01 g.ant)) :
    (loadAll (resumed (awake s))).ch c.val = .search ∧
      (loadAll (resumed (awake s))).rd (R.GNS_CH_STAT_SVID c.val) = g.svid.toNat := by
  have hrun : resumed (awake s) = startCh c.val .search g.sys.val (b01 g.low) (b01 g.ant) g.svid.toNat false (awake s) := by
    refine resumed_single (s := awake s) ((awake_resume s).trans hres) (fun d => ?_) ?_ (fun d => ?_) ((h.signalOk _ _ _).symm.trans hok)
      (fun hl => (h.lowDirect _).symm.trans (hlow hl)) (h.antQuota _ ▸ hquota)
    · exact (ch_of_rd (rd_awake_ch s (key_GNS_CH_STAT_STATE d.val))).trans (hidle d)
    · rw [State.reserved, State.on, rd_awake_ch s (key_GNS_CH_CFG_RSV c.val)]
      exact hrsv
    · rw [State.on, rd_awake_ch s (key_GNS_CH_CFG_PIN d.val)]
      exact decide_eq_false (hpin d)
  obtain ⟨hch, hsvid, -⟩ := loadAlike_loadAll (resumed (awake s)) c.val
  rw [hch, hsvid, hrun]
  exact ⟨ch_startCh_same _ _ _ _ _ _ _ _, rd_SVID_startCh _ _ _ _ _ g.svid.isLt _ _⟩

theorem woken_of_ended (k : Ended s (gnsWake x) t) : Woken x t := by
  rw [gnsWake_eq] at k
  obtain ⟨u, hu⟩ : ∃ u, loadAll (resumed (awake x)) = u := ⟨_, rfl⟩
  have hmove : ChMove (fun _ => True) (awake x) u := hu ▸ chMove_wake x
  have hresume := fun {c g} a b d e => wake_resumes x (c := c) (g := g) a b d e hmove
  have hloads : ∀ c : Fin 160, u.loadedAt c.val := fun c => hu ▸ loadedAt_loadAll _ c.isLt
  rw [hu] at k hresume
  have hrd : ∀ {g : Field}, g.side = false → t.rd g = u.rd g := fun hg => k.rd hg
  have hlow : ∀ {g : Field}, g.key < 0xA00000 → t.rd g = (awake x).rd g := fun hg =>
    (hrd (Field.side_of_low (by omega))).trans (hmove.rd_low hg)
  have hch : ∀ {g : Field} {c n : Nat}, g.key = chBase c + n → n < 512 → t.rd g = u.rd g := fun hk hn => hrd (side_of_chBase hk hn)
  have htick : t.tick = x.tick := k.tick.trans (hmove.tick.trans (awake_tick x))
  have hchans : ∀ c, t.gnsCh c = u.gnsCh c := fun c => by rw [State.gnsCh, k.gnss]; rfl
  have hports : ∀ n, t.gnsPort n = (awake x).gnsPort n := fun n => by rw [← hmove.ports, State.gnsPort, k.gnss]; rfl
  have hmt : t.gnss.sysHeld = u.gnss.sysHeld := by rw [k.gnss]
  have hmr : ∀ c, t.reserved c = u.reserved c := fun c => by
    rw [State.reserved, State.reserved, State.on, State.on, hch (key_GNS_CH_CFG_RSV c) (by decide)]
  have hlu : ∀ {g : Field}, g.key < 0xA00000 → t.rd g = u.rd g := fun hg => hrd (Field.side_of_low (by omega))
  refine ⟨?_, ?_, ?_, ?_, ?_, fun n => ?_, fun c g hres hidle hrsv hpin hok hdirect hquota => ?_, fun c => ?_, ?_, fun hg h1 h2 h3 => ?_, htick⟩
  · rw [hlow (by decide), rd_awake, rd_wr_ne _ _ (by decide), rd_lo_ne _ (by decide), rd_lo_same]
  · rw [hlow (by decide), rd_awake, rd_wr_ne _ _ (by decide), rd_lo_same]
  · rw [hlow (by decide), rd_awake, rd_wr_same, gnsOn_woken]
    cases decide (x.rd R.GNS_CTL_EN = 1) <;> rfl
  · rw [k.gnss]
    exact congrArg some (clk_congr k.tick).symm
  · rw [k.gnss]
    show u.gnss.lossHeld = _
    rw [hmove.gnss, awake_lossHeld]
  · have := awaits_awake x n
    rw [State.awaits, clk_congr (awake_tick x)] at this
    rw [State.awaits, hports, clk_congr htick]
    exact this
  · rw [signalOk_congr hlu hmt] at hok
    rw [lowDirect_congr hlu] at hdirect
    rw [antQuota_congr hlu fun c _ => hmr c] at hquota
    obtain ⟨h1, h2⟩ := hresume hres hidle hrsv hpin hok hdirect hquota
    exact ⟨(ch_of_rd (hch (key_GNS_CH_STAT_STATE c.val) (by decide))).trans h1, (hch (key_GNS_CH_STAT_SVID c.val) (by decide)).trans h2⟩
  · refine LoadAlike.loadedAt ⟨ch_of_rd (hch (key_GNS_CH_STAT_STATE c.val) (by decide)), hch (key_GNS_CH_STAT_SVID c.val) (by decide), ?_, ?_, ?_⟩
      (hch (key_GNS_CH_DOP_DOP c.val) (by decide)) (hloads c)
    · rw [hchans]
    · rw [hchans]
    · exact congrArg (fun k : Tick => k.bank0.ts / 2 ^ 32) k.tick
  · rw [k.gnss]
  · rw [hlow hg, rd_awake_ne _ h1 h2 h3]

end

end Sys2Proof.Machine
end

section
/-! PROOFS. The ends of a sleep, and the obligation on positions, surveys, antennas and sleep (R135, R136, R147-R151). -/

namespace Sys2Proof.Machine

section
variable {s t x : State}

/-- The channels take up their signals as the state before the command had them. -/
theorem Woken.resumes_of (k : Woken x t) (hres : x.gnss.resume = s.gnss.resume)
    (hrd : ∀ {g : Field} {c n : Nat}, g.key = chBase c + n → n < 512 → x.rd g = s.rd g) :
    ∀ (c : Fin 160) (g : GnssSig), s.gnss.resume = [(c.val, g)] → (∀ d : Fin 160, s.ch d.val = .idle) → s.reserved c.val = false →
      (∀ d : Fin 160, s.rd (R.GNS_CH_CFG_PIN d.val) ≠ 1) → t.signalOk g.sys.val (b01 g.low) (b01 g.ant) = true →
      (g.low = true → t.lowDirect (b01 g.ant) = true) → 0 < t.antQuota (b01 g.ant) →
      t.ch c.val = .search ∧ t.rd (R.GNS_CH_STAT_SVID c.val) = g.svid.toNat := by
  intro c g h1 h2 h3 h4
  refine k.resumes c g (hres.trans h1) (fun d => ?_) ?_ fun d => ?_
  · rw [ch_of_rd (hrd (key_GNS_CH_STAT_STATE d.val) (by decide))]
    exact h2 d
  · rw [State.reserved, State.on, hrd (key_GNS_CH_CFG_RSV c.val) (by decide)]
    exact h3
  · rw [hrd (key_GNS_CH_CFG_PIN d.val) (by decide)]
    exact h4 d

theorem sleep_ends (hasleep : s.rd R.GNS_SLEEP_STAT_ASLEEP = 1) :
    ∃ t, Sys2Proof.Machine.exec .gnssSleepEnd s = .next t ∧ Woken (s.begin.waitClk s.gnss.sleepUntil) t ∧
      Touches [.tick, .lanes, .gnss, .regs .gns, .watch] s t := by
  obtain ⟨t, e, k⟩ := go_ended_of (f := gnssSleepEnd) (s := s) (if_pos (on_of_rd (s := s.begin) hasleep))
  exact ⟨t, e, woken_of_ended k,
    touches_go e (touches_gnssSleepEnd _ (by simp) (by simp) (by simp) (by simp) (by simp) (touches_begin _ s))⟩

/-- GNS_SLEEP_CTL as a write of WAKE leaves it. -/
def sleepCtlStored (w : Word) (s : State) : State := s.storeReg false Reg.GNS_SLEEP_CTL (R.GNS_SLEEP_CTL_WAKE.setIn w.toNat)

theorem frame_sleepCtlStored (w : Word) (s : State) : Frame Reg.GNS_SLEEP_CTL.fields [] s (sleepCtlStored w s) :=
  frame_storeReg (fun _ hf => .inr (.inr (.inr (.inr hf)))) (Frame.refl _ _ s)

theorem rd_sleepCtlStored {w : Word} {g : Field} (hg : g.key < 0x800500 ∨ 0x800520 ≤ g.key) (hside : g.side = false) :
    (sleepCtlStored w s).rd g = s.rd g := by
  have hk : ∀ f ∈ Reg.GNS_SLEEP_CTL.fields, 0x800500 ≤ f.key ∧ f.key < 0x800520 := by decide
  exact (frame_sleepCtlStored w s).rd (fun f hf => by have := hk f hf; omega) hside

theorem sleepCtlStored_allow (w : Word) : (sleepCtlStored w s).rd R.GNS_SLEEP_CTL_ALLOW = R.GNS_SLEEP_CTL_ALLOW.of w.toNat := by
  rw [sleepCtlStored, rd_storeReg_rws _ _ _ (by decide) (.inr rfl) (by decide)]
  exact Field.of_setIn_below _ _ _ (by decide)

/-- The event of an early end. -/
theorem wake_ends_early {u : State} (k : Ended s (gnsWake (x.raise Evt.gns 128)) u) : bit (u.rd R.GNS_EVT_BITS) 7 = true := by
  rw [(woken_of_ended k).low (by decide) (by decide) (by decide) (by decide)]
  exact bit_gnsRaise (by decide) (by decide) _

theorem wakeEarly_asleep (h : x.rd R.GNS_SLEEP_STAT_ASLEEP = 1) : wakeEarly x = gnsWake (x.raise Evt.gns 128) := if_pos (on_of_rd h)

theorem gnssWake_written {w : Word} (hasleep : s.rd R.GNS_SLEEP_STAT_ASLEEP = 1) :
    gnssWake (some w) s = gnsWake ((sleepCtlStored w s).raise Evt.gns 128) := by
  have hwake : R.GNS_SLEEP_CTL_WAKE.of (R.GNS_SLEEP_CTL_WAKE.setIn w.toNat) = 1 := Field.of_setIn _ _ rfl
  refine (if_pos hwake).trans (wakeEarly_asleep ?_)
  exact (rd_sleepCtlStored (.inr (by decide)) (by decide)).trans hasleep

theorem gnssWake_due (hasleep : s.rd R.GNS_SLEEP_STAT_ASLEEP = 1) (hdue : s.wakeDue = true) :
    gnssWake none s = gnsWake (s.raise Evt.gns 128) := (if_pos hdue).trans (wakeEarly_asleep hasleep)

theorem rd_gnsRaise_ch {g : Field} {c n m : Nat} (hk : g.key = chBase c + n) (hn : n < 512) : (s.raise Evt.gns m).rd g = s.rd g :=
  rd_raise_ne _ _ _ (by simp [hk]) (side_of_chBase hk hn)

/-- Settles O22. -/
theorem gnssPositionAndSleep : Obligations.GnssPositionAndSleep := by
  refine ⟨fun s a axis w h => positionWrite_fixed axis w h, fun s a axis w h => positionWrite_held axis w h,
    fun s a from_ h1 h2 h3 => survey_ends h1 h2 h3, fun s a from_ h1 h2 => survey_slow h1 h2, fun s a w h => survey_restarts w h,
    fun s a w h => survey_leaves w h, fun s h1 h2 => ant_switches h1 h2, fun s p from_ h1 h2 h3 => ant_returns h1 h2 h3,
    fun s span _ _ h => sleep_refused h, fun s span h1 h2 h3 => sleep_enters h1 h2 h3, fun s hasleep => ?_, fun s w hasleep => ?_,
    fun s hasleep hdue => ?_, fun s at_ h1 h2 => hot_fails h1 h2⟩
  · obtain ⟨t, e, k, ht⟩ := sleep_ends hasleep
    have hrd : ∀ {g : Field}, g.side = false → (s.begin.waitClk s.gnss.sleepUntil).rd g = s.rd g := fun hg => rd_waitClk _ _ hg
    refine ⟨t, e, k.asleep, k.wake, ?_, k.at_, k.loss.trans (by rw [waitClk_gnss]), k.ports, k.resumes_of (by rw [waitClk_gnss]) fun hk hn => hrd (side_of_chBase hk hn), k.loads, k.resume,
      k.tick.trans (begin_waitClk s _), ?_, ht⟩
    · rw [k.run, hrd (by decide)]
    · rw [k.low (by decide) (by decide) (by decide) (by decide), hrd (by decide)]
  · obtain ⟨t, e, k⟩ := go_ended_of (f := gnssWake (some w)) (gnssWake_written (s := s.begin) hasleep)
    have hk := woken_of_ended k
    have hkept := frame_sleepCtlStored w s.begin
    have hgnss : ((sleepCtlStored w s.begin).raise Evt.gns 128).gnss = s.gnss := (raise_gnss _ _ _).trans (hkept.2.1 .gnss (by simp) rfl)
    have htick : ((sleepCtlStored w s.begin).raise Evt.gns 128).tick = s.tick := (raise_tick _ _ _).trans (hkept.2.1 .tick (by simp) rfl)
    refine ⟨t, e, hk.asleep, wake_ends_early k, ?_, hk.loss.trans (by rw [hgnss]), hk.ports, hk.resumes_of (by rw [hgnss]) ?_, hk.loads, hk.resume, ?_,
      touches_go e (touches_gnssWake _ _ (by simp) (by simp) (by simp) (touches_begin _ s))⟩
    · rw [hk.at_, clk_congr (hk.tick.trans htick)]
    · intro g c n hg hn
      have := chBase_ge c
      exact (rd_gnsRaise_ch hg hn).trans (rd_sleepCtlStored (s := s.begin) (.inr (by omega)) (side_of_chBase hg hn))
    · rw [hk.low (by decide) (by decide) (by decide) (by decide), rd_raise_ne _ _ _ (by decide) (by decide)]
      exact sleepCtlStored_allow w
  · obtain ⟨t, e, k⟩ := go_ended_of (f := gnssWake none) (gnssWake_due (s := s.begin) hasleep hdue)
    have hk := woken_of_ended k
    refine ⟨t, e, hk.asleep, wake_ends_early k, ?_, hk.loss.trans (by rw [raise_gnss]; rfl), hk.ports, hk.resumes_of (by rw [raise_gnss]; rfl) ?_,
      hk.loads, hk.resume, touches_go e (touches_gnssWake _ _ (by simp) (by simp) (by simp) (touches_begin _ s))⟩
    · rw [hk.at_, clk_congr (hk.tick.trans (raise_tick _ _ _))]
      rfl
    · exact fun hg hn => rd_gnsRaise_ch hg hn

end

end Sys2Proof.Machine
end

section
/-! PROOFS. The events that move one channel among its states (R126-R129). -/

namespace Sys2Proof.Machine

section
variable {fs : List Field} {ps : List Part} {s₀ s t : State} {c : Nat} {v : Ch}

/-! ### The frames of a channel's moves -/

/-- What IDLE writes of a channel. -/
abbrev idleFields (c : Nat) : List Field :=
  [R.GNS_CH_STAT_STATE c, R.GNS_CH_STAT_SVID c, R.GNS_CH_STAT_CN0 c, R.GNS_CH_DOP_DOP c, R.GNS_CH_STAT_USED c, R.GNS_CH_STAT_EXCLUDED c,
    R.GNS_CH_STAT_NOTCHED c]

theorem frame_setCh (hf : R.GNS_CH_STAT_STATE c ∈ fs) (hg : Part.gnss ∈ ps) (hw : Part.watch ∈ ps) (h : Frame fs ps s₀ s) :
    Frame fs ps s₀ (setCh c v s) := frame_modCh hg (frame_wr hf (frame_noteFull hw h))

theorem frame_idleCh (hf : ∀ f ∈ idleFields c, f ∈ fs) (hg : Part.gnss ∈ ps) (hw : Part.watch ∈ ps) (h : Frame fs ps s₀ s) :
    Frame fs ps s₀ (idleCh c s) := by
  refine frame_modCh hg (frame_lo ?_ (frame_lo ?_ (frame_lo ?_ (frame_lo ?_ (frame_lo ?_ (frame_lo ?_ (frame_setCh ?_ hg hw h)))))))
  all_goals exact hf _ (by simp [idleFields])

theorem frame_startCh {sys band ant svid : Nat} {pinned : Bool} (h1 : R.GNS_CH_STAT_STATE c ∈ fs) (h2 : R.GNS_CH_STAT_SVID c ∈ fs)
    (h3 : R.GNS_CH_STAT_NOTCHED c ∈ fs) (hg : Part.gnss ∈ ps) (hw : Part.watch ∈ ps) (h : Frame fs ps s₀ s) :
    Frame fs ps s₀ (startCh c v sys band ant svid pinned s) :=
  frame_wr h2 (frame_setCh h1 hg hw (frame_wr h3 (frame_modCh hg (frame_modCh hg h))))

theorem frame_measureCh {cn0 code at_ : Nat} {dop : Int} (h1 : R.GNS_CH_STAT_CN0 c ∈ fs) (h2 : R.GNS_CH_DOP_DOP c ∈ fs) (hg : Part.gnss ∈ ps)
    (h : Frame fs ps s₀ s) : Frame fs ps s₀ (measureCh c cn0 dop code at_ s) := frame_modCh hg (frame_wr h2 (frame_wr h1 h))

/-! ### What a channel reports and keeps after a move -/

theorem noteFull_gnss (s : State) : (noteFull s).gnss = s.gnss := by
  unfold noteFull
  split <;> rfl

theorem gnsCh_setCh_same (c : Nat) (v : Ch) (s : State) : (setCh c v s).gnsCh c = { s.gnsCh c with since := s.clk } := by
  unfold setCh
  rw [gnsCh_modCh_same, gnsCh_of_gnss ((wr_gnss _ _ _).trans (noteFull_gnss s))]

theorem rd_setCh_ne (v : Ch) (s : State) {g : Field} (h : g.key ≠ chBase c + 128) : (setCh c v s).rd g = s.rd g := by
  unfold setCh
  rw [rd_modCh, rd_wr_ne _ _ (by rw [key_GNS_CH_STAT_STATE]; exact h), rd_noteFull]

theorem rd_idleCh_SVID (c : Nat) (s : State) : (idleCh c s).rd (R.GNS_CH_STAT_SVID c) = 0 := by
  unfold idleCh
  rw [rd_modCh, rd_lo_ne _ (by simp), rd_lo_ne _ (by simp), rd_lo_ne _ (by simp), rd_lo_ne _ (by simp), rd_lo_ne _ (by simp), rd_lo_same]

theorem rd_idleCh_CN0 (c : Nat) (s : State) : (idleCh c s).rd (R.GNS_CH_STAT_CN0 c) = 0 := by
  unfold idleCh
  rw [rd_modCh, rd_lo_ne _ (by simp), rd_lo_ne _ (by simp), rd_lo_ne _ (by simp), rd_lo_ne _ (by simp), rd_lo_same]

theorem rd_idleCh_USED (c : Nat) (s : State) : (idleCh c s).rd (R.GNS_CH_STAT_USED c) = 0 := by
  unfold idleCh
  rw [rd_modCh, rd_lo_ne _ (by simp), rd_lo_ne _ (by simp), rd_lo_same]

theorem gnsCh_measureCh_same (c cn0 : Nat) (dop : Int) (code at_ : Nat) (s : State) : (measureCh c cn0 dop code at_ s).gnsCh c =
    { s.gnsCh c with code := code % (codeChips (s.gnsCh c).sys (s.gnsCh c).band * 65536), codeAt := at_ } := gnsCh_modCh_same _ _ _

theorem rd_measureCh_CN0 (c cn0 : Nat) (dop : Int) (code at_ : Nat) (s : State) :
    (measureCh c cn0 dop code at_ s).rd (R.GNS_CH_STAT_CN0 c) = satNat 16 cn0 := by
  unfold measureCh
  rw [rd_modCh, rd_wr_ne _ _ (by simp), rd_wr_same]
  exact Nat.mod_eq_of_lt (satNat_lt _ _)

theorem rd_measureCh_DOP (c cn0 : Nat) (dop : Int) (code at_ : Nat) (s : State) :
    (measureCh c cn0 dop code at_ s).rd (R.GNS_CH_DOP_DOP c) = satBits 32 dop := by
  unfold measureCh
  rw [rd_modCh, rd_wr_same]
  exact Nat.mod_eq_of_lt (satBits_lt _ _)

theorem rd_measureCh_ne (cn0 : Nat) (dop : Int) (code at_ : Nat) (s : State) {g : Field} (h1 : g.key ≠ chBase c + 144) (h2 : g.key ≠ chBase c + 256) :
    (measureCh c cn0 dop code at_ s).rd g = s.rd g := by
  unfold measureCh
  rw [rd_modCh, rd_wr_ne _ _ (by rw [key_GNS_CH_DOP_DOP]; exact h2), rd_wr_ne _ _ (by rw [key_GNS_CH_STAT_CN0]; exact h1)]

theorem ch_measureCh_same (c cn0 : Nat) (dop : Int) (code at_ : Nat) (s : State) : (measureCh c cn0 dop code at_ s).ch c = s.ch c :=
  ch_of_rd (rd_measureCh_ne _ _ _ _ _ (by simp) (by simp))

theorem chMove_measureCh {f : Nat → Prop} {cn0 code at_ : Nat} {dop : Int} (hc : f c) (h : ChMove f s₀ s) :
    ChMove f s₀ (measureCh c cn0 dop code at_ s) :=
  chMove_modCh hc (chMove_wr hc (key_GNS_CH_DOP_DOP c) (by decide) (by decide)
    (chMove_wr hc (key_GNS_CH_STAT_CN0 c) (by decide) (by decide) h))

/-- A command's end leaves a channel in its state. -/
theorem Ended.ch {s u t : State} (k : Ended s u t) (c : Nat) : t.ch c = u.ch c :=
  ch_of_rd (k.rd (side_of_chBase (key_GNS_CH_STAT_STATE c) (by decide)))

theorem Ended.rdCh {s u t : State} (k : Ended s u t) {g : Field} {c n : Nat} (hk : g.key = chBase c + n) (hn : n < 512 := by decide) : t.rd g = u.rd g :=
  k.rd (side_of_chBase hk hn)

theorem Ended.gnsCh {s u t : State} (k : Ended s u t) (c : Nat) : t.gnsCh c = u.gnsCh c := gnsCh_of_gnss k.gnss c

end

/-! ### The rows of the state table that concern one channel (R126) -/

section
variable {s : State} {c : Fin 160}

/-- A row that ends with the channel in IDLE. -/
theorem row_idles {f : State → State} {ps : List Part} {x : State} (hf : f s.begin = idleCh c.val x) (hg : Part.gnss ∈ ps) (hw : Part.watch ∈ ps)
    (h : Frame (idleFields c.val) ps s x) :
    ∃ t, go f s = .next t ∧ t.ch c.val = .idle ∧ t.rd (R.GNS_CH_STAT_SVID c.val) = 0 ∧ t.rd (R.GNS_CH_STAT_CN0 c.val) = 0 ∧
      t.rd (R.GNS_CH_STAT_USED c.val) = 0 ∧ t.tick = x.tick ∧ Frame (idleFields c.val) ps s t := by
  obtain ⟨t, e, k⟩ := go_ended_of hf
  have hmove : ChMove (· = c.val) x (idleCh c.val x) := chMove_idleCh rfl (ChMove.refl _ _)
  exact ⟨t, e, (k.ch _).trans (ch_idleCh_same _ _), (k.rdCh (key_GNS_CH_STAT_SVID _)).trans (rd_idleCh_SVID _ _),
    (k.rdCh (key_GNS_CH_STAT_CN0 _)).trans (rd_idleCh_CN0 _ _), (k.rdCh (key_GNS_CH_STAT_USED _)).trans (rd_idleCh_USED _ _),
    k.tick.trans hmove.tick, k.frame (frame_idleCh (fun _ h => h) hg hw h)⟩

/-- A row that only moves the channel from a state to another. -/
theorem row_moves {f : State → State} {v : Ch} (hf : f s.begin = setCh c.val v s.begin) :
    ∃ t, go f s = .next t ∧ t.ch c.val = v ∧ Frame [R.GNS_CH_STAT_STATE c.val] [.gnss, .watch] s t := by
  obtain ⟨t, e, k⟩ := go_ended_of hf
  exact ⟨t, e, (k.ch _).trans (ch_setCh_same _ _ _), k.frame (frame_setCh (by simp) (by simp) (by simp) (frame_begin s))⟩

theorem channel_taken_back (h1 : s.ch c.val ≠ .idle) (h2 : s.ch c.val ≠ .test) (h3 : (s.gnsCh c.val).pinned = false) :
    ∃ t, Sys2Proof.Machine.exec (.channelAssign c none) s = .next t ∧
      t.ch c.val = .idle ∧
      t.rd (R.GNS_CH_STAT_SVID c.val) = 0 ∧
      t.rd (R.GNS_CH_STAT_USED c.val) = 0 ∧
      Frame [R.GNS_CH_STAT_STATE c.val, R.GNS_CH_STAT_SVID c.val, R.GNS_CH_STAT_CN0 c.val, R.GNS_CH_DOP_DOP c.val, R.GNS_CH_STAT_USED c.val, R.GNS_CH_STAT_EXCLUDED c.val, R.GNS_CH_STAT_NOTCHED c.val] [.gnss, .watch] s t := by
  obtain ⟨t, e, hch, hsvid, -, hused, -, hframe⟩ := row_idles (f := channelAssign c.val none) (ps := [.gnss, .watch])
    (show channelAssign c.val none s.begin = idleCh c.val s.begin from if_pos ⟨h1, h2, h3⟩) (by simp) (by simp) (frame_begin s)
  exact ⟨t, e, hch, hsvid, hused, hframe⟩

theorem signal_detected {cn0 : Nat} {dop : Int} {code : Nat} (h : s.ch c.val = .search) :
    ∃ t, Sys2Proof.Machine.exec (.detection c cn0 dop code) s = .next t ∧
      (t.gnsCh c.val).code = code % (codeChips (s.gnsCh c.val).sys (s.gnsCh c.val).band * 65536) ∧
      t.ch c.val = .pullIn ∧
      t.rd (R.GNS_CH_STAT_CN0 c.val) = satNat 16 cn0 ∧
      t.rd (R.GNS_CH_DOP_DOP c.val) = satBits 32 dop ∧
      Frame [R.GNS_CH_STAT_STATE c.val, R.GNS_CH_STAT_CN0 c.val, R.GNS_CH_DOP_DOP c.val] [.gnss, .watch] s t := by
  obtain ⟨t, e, k⟩ := go_ended_of (f := detection c.val cn0 dop code) (s := s) (if_pos h)
  refine ⟨t, e, ?_, (k.ch _).trans ((ch_measureCh_same _ _ _ _ _ _).trans (ch_setCh_same _ _ _)),
    (k.rdCh (key_GNS_CH_STAT_CN0 _)).trans (rd_measureCh_CN0 _ _ _ _ _ _), (k.rdCh (key_GNS_CH_DOP_DOP _)).trans (rd_measureCh_DOP _ _ _ _ _ _),
    k.frame (frame_measureCh (by simp) (by simp) (by simp) (frame_setCh (by simp) (by simp) (by simp) (frame_begin s)))⟩
  rw [k.gnsCh, gnsCh_measureCh_same, gnsCh_setCh_same]
  rfl

theorem search_ends (h : s.ch c.val = .search) :
    ∃ t, Sys2Proof.Machine.exec (.searchPassEnd c) s = .next t ∧
      t.ch c.val = .idle ∧
      t.rd (R.GNS_CH_STAT_SVID c.val) = 0 ∧
      t.rd (R.GNS_CH_STAT_CN0 c.val) = 0 ∧
      t.rd (R.GNS_CH_STAT_USED c.val) = 0 ∧
      Frame [R.GNS_CH_STAT_STATE c.val, R.GNS_CH_STAT_SVID c.val, R.GNS_CH_STAT_CN0 c.val, R.GNS_CH_DOP_DOP c.val, R.GNS_CH_STAT_USED c.val, R.GNS_CH_STAT_EXCLUDED c.val, R.GNS_CH_STAT_NOTCHED c.val] [.gnss, .watch] s t := by
  obtain ⟨t, e, hch, hsvid, hcn0, hused, -, hframe⟩ := row_idles (f := searchPassEnd c.val) (ps := [.gnss, .watch])
    (show searchPassEnd c.val s.begin = idleCh c.val s.begin from if_pos h) (by simp) (by simp) (frame_begin s)
  exact ⟨t, e, hch, hsvid, hcn0, hused, hframe⟩

theorem pullIn_times_out (h : s.ch c.val = .pullIn) :
    ∃ t, Sys2Proof.Machine.exec (.pullInTimeout c) s = .next t ∧
      t.ch c.val = .search ∧
      t.tick = (s.waitClk ((s.gnsCh c.val).since + ms16 500)).tick ∧
      Frame [R.GNS_CH_STAT_STATE c.val] [.tick, .lanes, .gnss, .watch] s t := by
  have hrun : pullInTimeout c.val s.begin = setCh c.val .search (s.begin.waitClk ((s.gnsCh c.val).since + ms16 500)) := if_pos h
  obtain ⟨t, e, k⟩ := go_ended_of (f := pullInTimeout c.val) hrun
  have hmove : ChMove (· = c.val) (s.begin.waitClk ((s.gnsCh c.val).since + ms16 500)) _ := chMove_setCh (v := .search) rfl (ChMove.refl _ _)
  exact ⟨t, e, (k.ch _).trans (ch_setCh_same _ _ _), k.tick.trans (hmove.tick.trans (begin_waitClk s _)),
    k.frame (frame_setCh (by simp) (by simp) (by simp) (frame_waitClk (by simp) (by simp) (frame_begin s)))⟩

theorem nav_synced (h : s.ch c.val = .track) :
    ∃ t, Sys2Proof.Machine.exec (.navSync c) s = .next t ∧
      t.ch c.val = .nav ∧
      (t.gnsCh c.val).navFirst = true ∧
      Frame [R.GNS_CH_STAT_STATE c.val] [.gnss, .watch] s t := by
  have hrun : navSync c.val s.begin = (setCh c.val .nav s.begin).modCh c.val (fun k => { k with navFirst := true }) := if_pos h
  obtain ⟨t, e, k⟩ := go_ended_of (f := navSync c.val) hrun
  refine ⟨t, e, (k.ch _).trans (ch_setCh_same _ _ _), ?_, k.frame (frame_modCh (by simp) (frame_setCh (by simp) (by simp) (by simp) (frame_begin s)))⟩
  rw [k.gnsCh, gnsCh_modCh_same]

theorem lost_times_out (h : s.ch c.val = .lost) :
    ∃ t, Sys2Proof.Machine.exec (.lostTimeout c) s = .next t ∧
      t.ch c.val = .idle ∧
      t.rd (R.GNS_CH_STAT_SVID c.val) = 0 ∧
      t.rd (R.GNS_CH_STAT_CN0 c.val) = 0 ∧
      t.rd (R.GNS_CH_STAT_USED c.val) = 0 ∧
      t.tick = (s.waitClk ((s.gnsCh c.val).since + sec16 10)).tick ∧
      Frame [R.GNS_CH_STAT_STATE c.val, R.GNS_CH_STAT_SVID c.val, R.GNS_CH_STAT_CN0 c.val, R.GNS_CH_DOP_DOP c.val, R.GNS_CH_STAT_USED c.val, R.GNS_CH_STAT_EXCLUDED c.val, R.GNS_CH_STAT_NOTCHED c.val] [.tick, .lanes, .gnss, .watch] s t := by
  have hrun : lostTimeout c.val s.begin = idleCh c.val (s.begin.waitClk ((s.gnsCh c.val).since + sec16 10)) := if_pos h
  obtain ⟨t, e, hch, hsvid, hcn0, hused, htick, hframe⟩ := row_idles (ps := [.tick, .lanes, .gnss, .watch]) hrun (by simp) (by simp)
    (frame_waitClk (by simp) (by simp) (frame_begin s))
  exact ⟨t, e, hch, hsvid, hcn0, hused, htick.trans (begin_waitClk s _), hframe⟩

/-! ### A write of GNS_CH_CFG (R128, R129) -/

/-- The word a PIN is written with. -/
abbrev pinWord (c : Fin 160) (w : Word) : Nat := (R.GNS_CH_CFG_PIN c.val).setIn w.toNat

theorem pinWord_pin (c : Fin 160) (w : Word) : (R.GNS_CH_CFG_PIN c.val).of (pinWord c w) = 1 := Field.of_setIn _ _ rfl

theorem pin_reserved {w : Word} (htest : s.ch c.val ≠ .test) (hrsv : s.reserved c.val = true) :
    ∃ t, Sys2Proof.Machine.exec (.channelPin c w) s = .next t ∧
      t.rd (R.GNS_CH_STAT_CFG_ERR c.val) = 1 ∧
      Frame [R.GNS_CH_STAT_CFG_ERR c.val] [] s t := by
  have hkey := key_GNS_CH_STAT_CFG_ERR c.val
  have hch : (s.begin.lo (R.GNS_CH_STAT_CFG_ERR c.val)).ch c.val = s.ch c.val := ch_of_rd (rd_lo_ne _ (by simp))
  have hres : (s.begin.lo (R.GNS_CH_STAT_CFG_ERR c.val)).reserved c.val = true := by
    rw [← hrsv, State.reserved, State.reserved, State.on, State.on, rd_lo_ne _ (by simp)]
    rfl
  have hrun : writeChCfg c.val (pinWord c w) s.begin = (s.begin.lo (R.GNS_CH_STAT_CFG_ERR c.val)).hi (R.GNS_CH_STAT_CFG_ERR c.val) :=
    (if_neg (hch ▸ htest)).trans (if_pos ⟨pinWord_pin c w, hres⟩)
  obtain ⟨t, e, k⟩ := go_ended_of (f := writeChCfg c.val (pinWord c w)) hrun
  exact ⟨t, e, (k.rdCh hkey).trans (rd_hi_same _ _), k.frame (frame_hi (by simp) (frame_lo (by simp) (frame_begin s)))⟩

theorem pin_held {w : Word} (htest : s.ch c.val = .test) :
    ∃ t, Sys2Proof.Machine.exec (.channelPin c w) s = .next t ∧
      (t.gnsCh c.val).heldCfg = some ((R.GNS_CH_CFG_PIN c.val).setIn w.toNat) ∧
      t.rd (R.GNS_CH_STAT_CFG_ERR c.val) = 0 ∧
      Frame [R.GNS_CH_STAT_CFG_ERR c.val] [.gnss, .watch] s t := by
  have hch : (s.begin.lo (R.GNS_CH_STAT_CFG_ERR c.val)).ch c.val = s.ch c.val := ch_of_rd (rd_lo_ne _ (by simp))
  obtain ⟨t, e, k⟩ := go_ended_of (f := writeChCfg c.val (pinWord c w)) (s := s) (if_pos (hch.trans htest))
  refine ⟨t, e, ?_, ?_, k.frame (frame_modCh (by simp) (frame_lo (by simp) (frame_begin s)))⟩
  · rw [k.gnsCh, gnsCh_modCh_same]
  · rw [k.rdCh (key_GNS_CH_STAT_CFG_ERR c.val), rd_modCh, rd_lo_same]

/-- GNS_CH_CFG as it is written, the spacing it asks for taken. -/
def chCfgWritten (c w : Nat) (s : State) : State := refreshGap c ((noteFull s).storeReg false (Reg.GNS_CH_CFG c) w)

theorem chCfg_apart (c : Nat) : (Reg.GNS_CH_CFG c).fields.Pairwise fun f g => f.key ≠ g.key := by simp [Reg.GNS_CH_CFG]

theorem chCfg_keys (c : Nat) : ∀ f ∈ (Reg.GNS_CH_CFG c).fields, chBase c ≤ f.key ∧ f.key < chBase c + 128 := by simp [Reg.GNS_CH_CFG]

/-- A change of spacing, where the registers ask for one. -/
theorem refreshGap_cases (c : Nat) (s : State) : refreshGap c s = s ∨
    ∃ x y z, refreshGap c s = s.modCh c (fun k => { k with gapOld := x, gap := y, gapAt := z }) := by
  unfold refreshGap
  dsimp only
  split
  · exact .inl rfl
  · exact .inr ⟨_, _, _, rfl⟩

theorem rd_refreshGap (c : Nat) (s : State) (g : Field) : (refreshGap c s).rd g = s.rd g := by
  rcases refreshGap_cases c s with h | ⟨x, y, z, h⟩ <;> rw [h]
  exact rd_modCh _ _ _ _

theorem frame_refreshGap {fs : List Field} {ps : List Part} {s₀ s : State} {c : Nat} (hg : Part.gnss ∈ ps) (h : Frame fs ps s₀ s) :
    Frame fs ps s₀ (refreshGap c s) := by
  rcases refreshGap_cases c s with hr | ⟨x, y, z, hr⟩ <;> rw [hr]
  · exact h
  · exact frame_modCh hg h

theorem frame_chCfgWritten {fs : List Field} {ps : List Part} {s₀ s : State} {c w : Nat} (hf : ∀ f ∈ (Reg.GNS_CH_CFG c).fields, f ∈ fs)
    (hg : Part.gnss ∈ ps) (hw : Part.watch ∈ ps) (h : Frame fs ps s₀ s) : Frame fs ps s₀ (chCfgWritten c w s) :=
  frame_refreshGap hg (frame_storeReg (fun f hm => .inr (.inr (.inr (.inr (hf f hm))))) (frame_noteFull hw h))

/-- A field of the register takes what is written. -/
theorem rd_chCfgWritten_mem {c w : Nat} {s : State} {f : Field} (hf : f ∈ (Reg.GNS_CH_CFG c).fields) (ha : f.acc = .rw) :
    (chCfgWritten c w s).rd f = f.of w := by
  rw [chCfgWritten, rd_refreshGap, rd_storeReg_rws _ _ _ hf (.inl ha) (chCfg_apart c)]

theorem rd_chCfgWritten_ne {c w : Nat} {s : State} {g : Field} (hg : g.key < chBase c ∨ chBase c + 128 ≤ g.key) :
    (chCfgWritten c w s).rd g = s.rd g := by
  rw [chCfgWritten, rd_refreshGap, rd_storeReg_ne _ _ _ _ (fun f hf => by have := chCfg_keys c f hf; omega), rd_noteFull]

/-- Of what the receiver keeps of its channels only the spacing may change. -/
def GapMove (c : Nat) (s t : State) : Prop :=
  (∀ d, d ≠ c → t.gnsCh d = s.gnsCh d) ∧
    ∃ x y z, t.gnsCh c = { s.gnsCh c with gapOld := x, gap := y, gapAt := z }

theorem gapMove_chCfgWritten (c w : Nat) (s : State) : GapMove c s (chCfgWritten c w s) := by
  have hstored : ((noteFull s).storeReg false (Reg.GNS_CH_CFG c) w).gnss = s.gnss := (storeReg_gnss _ _ _ _).trans (noteFull_gnss s)
  unfold chCfgWritten
  rcases refreshGap_cases c ((noteFull s).storeReg false (Reg.GNS_CH_CFG c) w) with h | ⟨x, y, z, h⟩ <;> rw [h]
  · exact ⟨fun d _ => gnsCh_of_gnss hstored d, _, _, _, gnsCh_of_gnss hstored c⟩
  · refine ⟨fun d hd => (gnsCh_modCh_ne _ _ hd).trans (gnsCh_of_gnss hstored d), x, y, z, (gnsCh_modCh_same _ _ _).trans ?_⟩
    rw [gnsCh_of_gnss hstored c]

theorem chCfgWritten_tick (c w : Nat) (s : State) : (chCfgWritten c w s).tick = s.tick :=
  (frame_chCfgWritten (fs := (Reg.GNS_CH_CFG c).fields) (ps := [.gnss, .watch]) (fun _ h => h) (by simp) (by simp) (Frame.refl _ _ s)).2.1 .tick
    (by simp) rfl

/-- A PIN that is not refused. -/
theorem applyChCfg_pin {c w : Nat} {s : State} (hpin : (R.GNS_CH_CFG_PIN c).of w = 1) (hres : s.reserved c = false)
    (hrsv : (R.GNS_CH_CFG_RSV c).of w = 0) :
    applyChCfg c w s = if (chCfgWritten c w s).ch c = .idle then startPinned c (chCfgWritten c w s)
      else (chCfgWritten c w s).modCh c (fun k => { k with pinAt := some (chCfgWritten c w s).nextSecond }) := by
  have hkept : (chCfgWritten c w s).reserved c = false := by
    rw [State.reserved, State.on, rd_chCfgWritten_mem (by simp [Reg.GNS_CH_CFG]) rfl, hrsv]
    rfl
  have hnot : ¬((R.GNS_CH_CFG_PIN c).of w = 1 ∧ s.reserved c = true) := by simp [hres]
  refine (if_neg hnot).trans ?_
  rw [show refreshGap c ((noteFull s).storeReg false (Reg.GNS_CH_CFG c) w) = chCfgWritten c w s from rfl]
  refine (if_neg (by simp [hkept])).trans (if_pos hpin)

theorem nextSecond_congr {s t : State} (h : t.tick = s.tick) : t.nextSecond = (s.ts0 / 65536000000000 + 1) * 65536000000000 := by
  rw [State.nextSecond, State.ts0, State.ts0, h]

/-- The write of a PIN outside TEST. -/
theorem writeChCfg_pin {w : Word} (htest : s.ch c.val ≠ .test) :
    writeChCfg c.val (pinWord c w) s = applyChCfg c.val (pinWord c w) (s.lo (R.GNS_CH_STAT_CFG_ERR c.val)) := by
  have hch : (s.lo (R.GNS_CH_STAT_CFG_ERR c.val)).ch c.val = s.ch c.val := ch_of_rd (rd_lo_ne _ (by simp))
  exact if_neg (hch ▸ htest)

theorem pinWord_above (c : Fin 160) (w : Word) {f : Field} (h : 1 ≤ f.lsb) : f.of (pinWord c w) = f.of w.toNat :=
  Field.of_setIn_above _ _ _ h

theorem pin_waits {w : Word} (hidle : s.ch c.val ≠ .idle) (htest : s.ch c.val ≠ .test) (hres : s.reserved c.val = false)
    (hrsv : (R.GNS_CH_CFG_RSV c.val).of w.toNat = 0) :
    ∃ t, Sys2Proof.Machine.exec (.channelPin c w) s = .next t ∧
      t.ch c.val = s.ch c.val ∧
      (t.gnsCh c.val).pinAt = some ((s.ts0 / 65536000000000 + 1) * 65536000000000) ∧
      t.rd (R.GNS_CH_CFG_PIN c.val) = 1 ∧
      Frame (R.GNS_CH_STAT_CFG_ERR c.val :: (Reg.GNS_CH_CFG c.val).fields) [.gnss, .watch] s t := by
  obtain ⟨x, hx⟩ : ∃ x, s.begin.lo (R.GNS_CH_STAT_CFG_ERR c.val) = x := ⟨_, rfl⟩
  have hrd : ∀ {g : Field}, g.key ≠ chBase c.val + 134 → x.rd g = s.rd g := fun hg => hx ▸ rd_lo_ne s.begin (by rw [key_GNS_CH_STAT_CFG_ERR]; exact hg)
  have hres' : x.reserved c.val = false := by
    rw [State.reserved, State.on, hrd (by simp)]
    exact hres
  have hch : (chCfgWritten c.val (pinWord c w) x).ch c.val = s.ch c.val :=
    ch_of_rd ((rd_chCfgWritten_ne (.inr (by simp))).trans (hrd (by simp)))
  have hrun : writeChCfg c.val (pinWord c w) s.begin =
      (chCfgWritten c.val (pinWord c w) x).modCh c.val (fun k => { k with pinAt := some (chCfgWritten c.val (pinWord c w) x).nextSecond }) := by
    rw [writeChCfg_pin (s := s.begin) htest, hx, applyChCfg_pin (pinWord_pin c w) hres' ((pinWord_above c w (by decide : 1 ≤ 5)).trans hrsv),
      if_neg (hch ▸ hidle)]
  obtain ⟨t, e, k⟩ := go_ended_of (f := writeChCfg c.val (pinWord c w)) hrun
  have hframe : Frame (R.GNS_CH_STAT_CFG_ERR c.val :: (Reg.GNS_CH_CFG c.val).fields) [.gnss, .watch] s x := hx ▸ frame_lo (by simp) (frame_begin s)
  refine ⟨t, e, (k.ch _).trans hch, ?_, ?_, k.frame (frame_modCh (by simp) (frame_chCfgWritten (fun _ h => List.mem_cons_of_mem _ h) (by simp) (by simp) hframe))⟩
  · rw [k.gnsCh, gnsCh_modCh_same]
    refine congrArg some (nextSecond_congr ?_)
    rw [chCfgWritten_tick, ← hx]
    rfl
  · rw [k.rdCh (key_GNS_CH_CFG_PIN c.val), rd_modCh, rd_chCfgWritten_mem (by simp [Reg.GNS_CH_CFG]) rfl]
    exact pinWord_pin c w

end

end Sys2Proof.Machine
end

section
/-! PROOFS. A signal planned, pinned or handed over within an antenna's share (R125, R126, R129, R147). -/

namespace Sys2Proof.Machine

section
variable {s t u : State} {c d a : Nat}

/-! ### The channels an antenna holds -/

theorem mem_antChans : d ∈ s.antChans a ↔ d < 160 ∧ s.ch d ≠ .idle ∧ s.ch d ≠ .test ∧ (s.gnsCh d).ant = a := by
  simp [State.antChans, chIds, and_assoc]

theorem nodup_antChans (s : State) (a : Nat) : (s.antChans a).Nodup := nodup_chIds.filter _

/-- Two states that agree on which channels are in use, and for which antenna, agree on what an antenna holds. -/
theorem antChans_congr (h : ∀ d < 160, t.ch d = s.ch d) (ha : ∀ d < 160, (t.gnsCh d).ant = (s.gnsCh d).ant) (a : Nat) : t.antChans a = s.antChans a :=
  List.filter_congr fun d hd => by rw [h d (List.mem_range.1 hd), ha d (List.mem_range.1 hd)]

theorem mem_antChans_ne (h : ChMove (· = c) s t) (hc : c < 160) (hne : d ≠ c) : d ∈ t.antChans a ↔ d ∈ s.antChans a := by
  rw [mem_antChans, mem_antChans, h.ch hne]
  by_cases hd : d < 160
  · rw [h.ch_ne hc hd hne]
  · simp [hd]

/-- One channel's move adds one channel at most, to its antenna. -/
theorem antChans_grow (h : ChMove (· = c) s t) (hc : c < 160) (a : Nat) :
    (t.antChans a).length ≤ (s.antChans a).length + (if a = (t.gnsCh c).ant then 1 else 0) := by
  split
  · rename_i ha
    have hsub : t.antChans a ⊆ c :: s.antChans a := by
      intro d hd
      by_cases hdc : d = c
      · exact hdc ▸ List.mem_cons_self
      · exact List.mem_cons_of_mem _ ((mem_antChans_ne h hc hdc).1 hd)
    exact ((nodup_antChans t a).subperm hsub).length_le
  · rename_i ha
    have hsub : t.antChans a ⊆ s.antChans a := by
      intro d hd
      by_cases hdc : d = c
      · exact absurd (hdc ▸ (mem_antChans.1 hd).2.2.2).symm ha
      · exact (mem_antChans_ne h hc hdc).1 hd
    exact ((nodup_antChans t a).subperm hsub).length_le

/-- A move for which the antenna's share has room drops nothing. -/
theorem trimPool_room (h : ChMove (· = c) s t) (hc : c < 160)
    (hroom : ∀ a ≤ 1, (s.antChans a).length + (if a = (t.gnsCh c).ant then 1 else 0) ≤ s.antQuota a) : trimPool t = t :=
  trimPool_of_fits fun a ha => (antChans_grow h hc a).trans ((hroom a (by omega)).trans (h.antQuota a).ge)

/-! ### What a start leaves of a channel -/

theorem gnsCh_startCh (c : Nat) (v : Ch) (sys band ant svid : Nat) (pinned : Bool) (s : State) :
    let k := (startCh c v sys band ant svid pinned s).gnsCh c
    k.sys = sys ∧ k.band = band ∧ k.ant = ant ∧ k.pinned = pinned ∧ k.pinAt = (s.gnsCh c).pinAt ∧ k.code = 0 ∧ k.codeAt = s.clk := by
  unfold startCh
  rw [gnsCh_of_gnss (wr_gnss _ _ _), gnsCh_setCh_same, gnsCh_of_gnss (wr_gnss _ _ _), gnsCh_modCh_same, gnsCh_modCh_same]
  exact ⟨rfl, rfl, rfl, rfl, rfl, rfl, rfl⟩

theorem notchInLobe_congr (h : ∀ {g : Field}, g.key < 0xA00000 → t.rd g = s.rd g) (n : Nat) : t.notchInLobe n = s.notchInLobe n := by
  have h1 : (R.GNS_NOTCH_CTL_ENGAGED n).key < 0xA00000 := by simp only [R.GNS_NOTCH_CTL_ENGAGED, Field.mk']; omega
  have h2 : ∀ k, (R.GNS_NOTCH_FREQ (n * 4 + k)).key < 0xA00000 := fun k => by simp only [R.GNS_NOTCH_FREQ, Field.mk']; omega
  simp only [State.notchInLobe, State.rdSigned, h h1, h (h2 _)]
  rfl

theorem rd_startCh_NOTCHED (c : Nat) (v : Ch) (sys band ant svid : Nat) (pinned : Bool) (s : State) :
    (startCh c v sys band ant svid pinned s).rd (R.GNS_CH_STAT_NOTCHED c) = b01 (s.notchInLobe (portOf ant band)) := by
  unfold startCh
  rw [rd_wr_ne _ _ (by simp), rd_setCh_ne _ _ (by simp), rd_wr_same]
  have h : ∀ b : Bool, b01 b % 2 ^ (R.GNS_CH_STAT_NOTCHED c).width = b01 b := fun b => by cases b <;> rfl
  exact h _

/-! ### Plans (R126, R147) -/

theorem mayAssign_iff {sys band ant svid : Nat} :
    s.mayAssign c sys band ant svid = true ↔ s.mayPlan c sys band ant svid = true ∧ (band = 0 ∨ s.lowDirect ant = true) := by
  simp [State.mayAssign]

theorem mayPlan_iff {sys band ant svid : Nat} : s.mayPlan c sys band ant svid = true ↔
    s.ch c = .idle ∧ s.reserved c = false ∧ s.on (R.GNS_CH_CFG_PIN c) = false ∧ s.signalOk sys band ant = true ∧ prnOk sys svid = true ∧
      s.hasRoom ant (sys * 256 + svid) = true := by
  simp [State.mayPlan, and_assoc]

end

section
variable {s : State} {c : Fin 160}

theorem signal_assigned {sys : Fin 4} {low ant : Bool} {svid : BitVec 8} (hidle : s.ch c.val = .idle) (hrsv : s.reserved c.val = false)
    (hpin : s.rd (R.GNS_CH_CFG_PIN c.val) ≠ 1) (hok : s.signalOk sys.val (b01 low) (b01 ant) = true) (hprn : prnOk sys.val svid.toNat = true)
    (hlow : low = true → s.lowDirect (b01 ant) = true) (hroom : s.hasRoom (b01 ant) (sys.val * 256 + svid.toNat) = true)
    (hshare : ∀ a ≤ 1, (s.antChans a).length + (if a = b01 ant then 1 else 0) ≤ s.antQuota a) :
    ∃ t, Sys2Proof.Machine.exec (.channelAssign c (some ⟨sys, low, ant, svid⟩)) s = .next t ∧
      t.ch c.val = .search ∧
      t.rd (R.GNS_CH_STAT_SVID c.val) = svid.toNat ∧
      (t.gnsCh c.val).sys = sys.val ∧
      (t.gnsCh c.val).band = b01 low ∧
      (t.gnsCh c.val).ant = b01 ant ∧
      (t.gnsCh c.val).pinned = false ∧
      t.rd (R.GNS_CH_STAT_NOTCHED c.val) = b01 (s.notchInLobe (portOf (b01 ant) (b01 low))) ∧
      Frame [R.GNS_CH_STAT_STATE c.val, R.GNS_CH_STAT_SVID c.val, R.GNS_CH_STAT_NOTCHED c.val] [.gnss, .watch] s t := by
  obtain ⟨u, hu⟩ : ∃ u, startCh c.val .search sys.val (b01 low) (b01 ant) svid.toNat false s.begin = u := ⟨_, rfl⟩
  obtain ⟨hsys, hband, hant, hpinned, -⟩ := hu ▸ gnsCh_startCh c.val .search sys.val (b01 low) (b01 ant) svid.toNat false s.begin
  have hmove : ChMove (· = c.val) s.begin u := hu ▸ chMove_startCh rfl (ChMove.refl _ _)
  have hmay : s.begin.mayAssign c.val sys.val (b01 low) (b01 ant) svid.toNat = true := by
    refine mayAssign_iff.2 ⟨mayPlan_iff.2 ⟨hidle, hrsv, decide_eq_false hpin, hok, hprn, hroom⟩, ?_⟩
    cases low
    · exact .inl rfl
    · exact .inr (hlow rfl)
  have hrun : channelAssign c.val (some ⟨sys, low, ant, svid⟩) s.begin = u := by
    refine (if_pos hmay).trans ?_
    rw [hu]
    exact trimPool_room hmove c.isLt fun a ha => hant.symm ▸ hshare a ha
  obtain ⟨t, e, k⟩ := go_ended_of hrun
  refine ⟨t, e, ?_, ?_, ?_, ?_, ?_, ?_, ?_, k.frame (hu ▸ frame_startCh (by simp) (by simp) (by simp) (by simp) (by simp) (frame_begin s))⟩
  · rw [k.ch, ← hu, ch_startCh_same]
  · rw [k.rdCh (key_GNS_CH_STAT_SVID _), ← hu, rd_SVID_startCh _ _ _ _ _ svid.isLt]
  · rw [k.gnsCh, hsys]
  · rw [k.gnsCh, hband]
  · rw [k.gnsCh, hant]
  · rw [k.gnsCh, hpinned]
  · rw [k.rdCh (key_GNS_CH_STAT_NOTCHED _), ← hu, rd_startCh_NOTCHED]
    rfl

theorem signal_not_planned {sys : Fin 4} {low ant : Bool} {svid : BitVec 8}
    (h : prnOk sys.val svid.toNat = false ∨ s.hasRoom (b01 ant) (sys.val * 256 + svid.toNat) = false) :
    ∃ t, Sys2Proof.Machine.exec (.channelAssign c (some ⟨sys, low, ant, svid⟩)) s = .next t ∧ Frame [] [] s t := by
  have hnot : ¬s.begin.mayAssign c.val sys.val (b01 low) (b01 ant) svid.toNat = true := by
    intro hmay
    obtain ⟨-, -, -, -, hprn, hroom⟩ := mayPlan_iff.1 (mayAssign_iff.1 hmay).1
    rcases h with h | h
    · exact absurd (h.symm.trans hprn) (by decide)
    · exact absurd (h.symm.trans hroom) (by decide)
  obtain ⟨t, e, k⟩ := go_ended_of (f := channelAssign c.val (some ⟨sys, low, ant, svid⟩)) (s := s) (if_neg hnot)
  exact ⟨t, e, k.frame (frame_begin s)⟩

/-! ### The handover of a satellite's low band (R125) -/

end

section
variable {s t : State} {c : Nat}

/-- The channels that are in use stay so, each on its satellite, its band and its antenna; nothing else that a plan looks at has changed. -/
structure HeldAlike (s t : State) : Prop where
  rd : ∀ {g : Field}, g.key < 0xA00000 → t.rd g = s.rd g
  cfg : ∀ {g : Field} {c n : Nat}, g.key = chBase c + n → n < 128 → t.rd g = s.rd g
  svid : ∀ d, t.rd (R.GNS_CH_STAT_SVID d) = s.rd (R.GNS_CH_STAT_SVID d)
  idle : ∀ d < 160, (t.ch d = .idle ↔ s.ch d = .idle)
  test : ∀ d < 160, (t.ch d = .test ↔ s.ch d = .test)
  kept : ∀ d, (t.gnsCh d).sys = (s.gnsCh d).sys ∧ (t.gnsCh d).band = (s.gnsCh d).band ∧ (t.gnsCh d).ant = (s.gnsCh d).ant ∧
    (t.gnsCh d).pinned = (s.gnsCh d).pinned
  ants : t.gnss.ants = s.gnss.ants
  sysHeld : t.gnss.sysHeld = s.gnss.sysHeld

section
variable (h : HeldAlike s t)
include h

theorem HeldAlike.satOf (d : Nat) : t.satOf d = s.satOf d := by rw [State.satOf, State.satOf, (h.kept d).1, h.svid]

theorem HeldAlike.reserved (d : Nat) : t.reserved d = s.reserved d := by
  rw [State.reserved, State.reserved, State.on, State.on, h.cfg (key_GNS_CH_CFG_RSV d) (by decide)]

theorem HeldAlike.antQuota (a : Nat) : t.antQuota a = s.antQuota a := antQuota_congr h.rd (fun d _ => h.reserved d) a

theorem HeldAlike.elevOf (a sat : Nat) : t.elevOf a sat = s.elevOf a sat := by rw [State.elevOf, State.elevOf, State.gnsAnt, State.gnsAnt, h.ants]

theorem HeldAlike.antChans (a : Nat) : t.antChans a = s.antChans a :=
  List.filter_congr fun d hd => by
    have hd := List.mem_range.1 hd
    rw [(h.kept d).2.2.1, decide_not, decide_not, decide_not, decide_not, decide_eq_decide.2 (h.idle d hd), decide_eq_decide.2 (h.test d hd)]

theorem HeldAlike.hasRoom (a sat : Nat) : t.hasRoom a sat = s.hasRoom a sat := by
  have hred : t.reduced a = s.reduced a := by
    simp only [State.reduced, h.rd (g := R.GNS_CTL_REDUND) (by decide), h.rd (g := R.GNS_STAT_ACTIVE_ANT) (by decide)]
  have hant : t.gnsAnt a = s.gnsAnt a := by rw [State.gnsAnt, State.gnsAnt, h.ants]
  have hpin : ∀ d, (t.gnsCh d).pinned = (s.gnsCh d).pinned := fun d => (h.kept d).2.2.2
  simp only [State.hasRoom, hred, hant, hpin, h.elevOf, h.satOf, h.antChans, h.antQuota]

theorem HeldAlike.pinRoom (a : Nat) : t.pinRoom a = s.pinRoom a := by
  have hpin : ∀ d, (t.gnsCh d).pinned = (s.gnsCh d).pinned := fun d => (h.kept d).2.2.2
  simp only [State.pinRoom, hpin, h.antChans, h.antQuota]

theorem HeldAlike.signalOk (sys band ant : Nat) : t.signalOk sys band ant = s.signalOk sys band ant := signalOk_congr h.rd h.sysHeld sys band ant

theorem HeldAlike.handoverOk (c : Nat) {l : Nat} (hl : l < 160) : t.handoverOk c l = s.handoverOk c l := by
  obtain ⟨hsys, -, hant, -⟩ := h.kept c
  simp only [State.handoverOk, State.on, hsys, hant, h.cfg (key_GNS_CH_CFG_PIN l) (by decide), h.cfg (key_GNS_CH_CFG_SYS l) (by decide),
    h.cfg (key_GNS_CH_CFG_BAND l) (by decide), h.cfg (key_GNS_CH_CFG_ANT l) (by decide), h.cfg (key_GNS_CH_CFG_SVID l) (by decide), h.svid,
    h.reserved, h.signalOk, h.pinRoom, h.hasRoom, h.satOf, decide_eq_decide.2 (h.idle l hl)]
  rfl

theorem HeldAlike.lowHeld (c : Nat) : t.lowHeld c = s.lowHeld c := by
  rw [Bool.eq_iff_iff, State.lowHeld, State.lowHeld, List.any_eq_true, List.any_eq_true]
  refine exists_congr fun l => and_congr_right fun hl => ?_
  have hl := List.mem_range.1 hl
  rw [(h.kept l).2.1, (h.kept l).2.2.1, (h.kept c).2.2.1, h.satOf, h.satOf, decide_not, decide_not, decide_not, decide_not,
    decide_eq_decide.2 (h.idle l hl), decide_eq_decide.2 (h.test l hl)]

theorem HeldAlike.lowFor (c : Nat) {low : Nat} (hlow : low < 160) : t.lowFor c low = s.lowFor c low := by
  have hfree : chIds.filter (t.handoverOk c) = chIds.filter (s.handoverOk c) :=
    List.filter_congr fun l hl => h.handoverOk c (List.mem_range.1 hl)
  have hpin : ∀ l, t.on (R.GNS_CH_CFG_PIN l) = s.on (R.GNS_CH_CFG_PIN l) := fun l => by
    rw [State.on, State.on, h.cfg (key_GNS_CH_CFG_PIN l) (by decide)]
  simp only [State.lowFor, hfree, hpin, h.handoverOk c hlow]

end

theorem lowFor_ok {low l : Nat} (h : s.lowFor c low = some l) (hlow : low < 160) : s.handoverOk c l = true ∧ l < 160 := by
  have hfree : ∀ {l}, l ∈ chIds.filter (s.handoverOk c) → s.handoverOk c l = true ∧ l < 160 := fun hm =>
    ⟨(List.mem_filter.1 hm).2, List.mem_range.1 (List.mem_filter.1 hm).1⟩
  unfold State.lowFor at h
  simp only at h
  split at h
  · rename_i l' hfind
    exact Option.some.inj h ▸ hfree (List.mem_of_find?_eq_some hfind)
  · split at h
    · rename_i hok
      exact Option.some.inj h ▸ ⟨hok, hlow⟩
    · exact hfree (List.mem_of_mem_head? h)

theorem lowFor_none (h : ∀ d < 160, s.handoverOk c d = false) {low : Nat} (hlow : low < 160) : s.lowFor c low = none := by
  have hfree : chIds.filter (s.handoverOk c) = [] := List.filter_eq_nil_iff.2 fun d hd => by simp [h d (List.mem_range.1 hd)]
  simp [State.lowFor, hfree, h low hlow]

theorem handoverOk_idle {l : Nat} (h : s.handoverOk c l = true) : s.ch l = .idle := by
  simp only [State.handoverOk, Bool.and_eq_true, decide_eq_true_eq] at h
  exact h.1.1.1

/-- A channel in PULL_IN that locks: in TRACK, measured. -/
def locked (c cn0 : Nat) (dop : Int) (code : Nat) (s : State) : State := measureCh c cn0 dop code s.clk (setCh c .track s)

theorem chMove_locked (c cn0 : Nat) (dop : Int) (code : Nat) (s : State) : ChMove (· = c) s (locked c cn0 dop code s) :=
  chMove_measureCh rfl (chMove_setCh rfl (ChMove.refl _ s))

theorem ch_locked (c cn0 : Nat) (dop : Int) (code : Nat) (s : State) : (locked c cn0 dop code s).ch c = .track :=
  (ch_measureCh_same _ _ _ _ _ _).trans (ch_setCh_same _ _ _)

theorem gnsCh_locked (c cn0 : Nat) (dop : Int) (code : Nat) (s : State) : (locked c cn0 dop code s).gnsCh c =
    { s.gnsCh c with since := s.clk, code := code % (codeChips (s.gnsCh c).sys (s.gnsCh c).band * 65536), codeAt := s.clk } := by
  rw [locked, gnsCh_measureCh_same, gnsCh_setCh_same]

theorem rd_locked_ne {cn0 : Nat} {dop : Int} {code : Nat} {g : Field} (h1 : g.key ≠ chBase c + 128) (h2 : g.key ≠ chBase c + 144)
    (h3 : g.key ≠ chBase c + 256) : (locked c cn0 dop code s).rd g = s.rd g :=
  (rd_measureCh_ne _ _ _ _ _ h2 h3).trans (rd_setCh_ne _ _ h1)

theorem heldAlike_locked {cn0 : Nat} {dop : Int} {code : Nat} (hc : c < 160) (h : s.ch c = .pullIn) : HeldAlike s (locked c cn0 dop code s) where
  rd hg := (chMove_locked c cn0 dop code s).rd_low hg
  cfg hk hn := (chMove_locked c cn0 dop code s).rd_cfg hk hn
  svid d := rd_locked_ne (by rw [key_GNS_CH_STAT_SVID]; unfold chBase; omega) (by rw [key_GNS_CH_STAT_SVID]; unfold chBase; omega)
    (by rw [key_GNS_CH_STAT_SVID]; unfold chBase; omega)
  idle d hd := by
    by_cases hdc : d = c
    · rw [hdc, ch_locked, h]; simp
    · rw [(chMove_locked c cn0 dop code s).ch_ne hc hd hdc]
  test d hd := by
    by_cases hdc : d = c
    · rw [hdc, ch_locked, h]; simp
    · rw [(chMove_locked c cn0 dop code s).ch_ne hc hd hdc]
  kept d := by
    by_cases hdc : d = c
    · rw [hdc, gnsCh_locked]; exact ⟨rfl, rfl, rfl, rfl⟩
    · rw [(chMove_locked c cn0 dop code s).ch hdc]; exact ⟨rfl, rfl, rfl, rfl⟩
  ants := by rw [(chMove_locked c cn0 dop code s).gnss]
  sysHeld := (chMove_locked c cn0 dop code s).sysHeld

/-- The lock of a channel that hands nothing over, and of one that does. -/
theorem pullInLock_eq {cn0 : Nat} {dop : Int} {code low : Nat} (h : s.ch c = .pullIn) : pullInLock c cn0 dop code low s =
    match ((locked c cn0 dop code s).gnsCh c).band, (locked c cn0 dop code s).lowHeld c, (locked c cn0 dop code s).lowFor c low with
    | 0, false, some l => trimPool (handOver c l ((locked c cn0 dop code s).on (R.GNS_CH_CFG_PIN l)) (locked c cn0 dop code s))
    | _, _, _ => locked c cn0 dop code s := (if_pos h).trans rfl

theorem band_locked (c cn0 : Nat) (dop : Int) (code : Nat) (s : State) : ((locked c cn0 dop code s).gnsCh c).band = (s.gnsCh c).band := by
  rw [gnsCh_locked]

theorem pullInLock_alone {cn0 : Nat} {dop : Int} {code low : Nat} (hc : c < 160) (hlow : low < 160) (h : s.ch c = .pullIn)
    (hno : (s.gnsCh c).band ≠ 0 ∨ s.lowHeld c = true ∨ ∀ d < 160, d ≠ c → s.handoverOk c d = false) :
    pullInLock c cn0 dop code low s = locked c cn0 dop code s := by
  have hk := heldAlike_locked (cn0 := cn0) (dop := dop) (code := code) hc h
  rw [pullInLock_eq h, band_locked, hk.lowHeld, hk.lowFor c hlow]
  split
  · rename_i l hband hheld hfor
    exfalso
    rcases hno with hno | hno | hno
    · exact hno hband
    · exact absurd (hheld.symm.trans hno) (by decide)
    · obtain ⟨hok, hl⟩ := lowFor_ok hfor hlow
      by_cases hlc : c = l
      · have := handoverOk_idle hok
        rw [← hlc, h] at this
        exact absurd this (by decide)
      · rw [hno _ hl fun e => hlc e.symm] at hok
        exact absurd hok (by decide)
  · rfl

theorem pullInLock_hands {cn0 : Nat} {dop : Int} {code low l : Nat} (hc : c < 160) (hlow : low < 160) (h : s.ch c = .pullIn)
    (hband : (s.gnsCh c).band = 0) (hheld : s.lowHeld c = false) (hfor : s.lowFor c low = some l) :
    pullInLock c cn0 dop code low s =
      trimPool (handOver c l ((locked c cn0 dop code s).on (R.GNS_CH_CFG_PIN l)) (locked c cn0 dop code s)) := by
  have hk := heldAlike_locked (cn0 := cn0) (dop := dop) (code := code) hc h
  rw [pullInLock_eq h, band_locked, hk.lowHeld, hk.lowFor c hlow, hband, hheld, hfor]
  rfl

/-! ### A low-band signal that starts with what its high band gives -/

theorem startLow_ch (l sys ant svid : Nat) (pinned : Bool) (code : Nat) (dop : Int) (s : State) :
    (startLow l sys ant svid pinned code dop s).ch l = .pullIn := by
  rw [← ch_startCh_same l .pullIn sys 1 ant svid pinned s]
  refine ch_of_rd ?_
  unfold startLow
  rw [rd_modCh, rd_wr_ne _ _ (by simp)]

theorem startLow_kept (l sys ant svid : Nat) (pinned : Bool) (code : Nat) (dop : Int) (s : State) :
    let k := (startLow l sys ant svid pinned code dop s).gnsCh l
    k.sys = sys ∧ k.band = 1 ∧ k.ant = ant ∧ k.pinned = pinned ∧ k.code = code % (codeChips sys 1 * 65536) := by
  obtain ⟨hsys, hband, hant, hpin, -⟩ := gnsCh_startCh l .pullIn sys 1 ant svid pinned s
  unfold startLow
  rw [gnsCh_modCh_same, gnsCh_of_gnss (wr_gnss _ _ _)]
  exact ⟨hsys, hband, hant, hpin, rfl⟩

theorem rd_startLow_SVID (l sys ant : Nat) {svid : Nat} (h : svid < 256) (pinned : Bool) (code : Nat) (dop : Int) (s : State) :
    (startLow l sys ant svid pinned code dop s).rd (R.GNS_CH_STAT_SVID l) = svid := by
  unfold startLow
  rw [rd_modCh, rd_wr_ne _ _ (by simp), rd_SVID_startCh _ _ _ _ _ h]

theorem rd_startLow_DOP (l sys ant svid : Nat) (pinned : Bool) (code : Nat) (dop : Int) (s : State) :
    (startLow l sys ant svid pinned code dop s).rd (R.GNS_CH_DOP_DOP l) = satBits 32 dop := by
  unfold startLow
  rw [rd_modCh, rd_wr_same]
  exact Nat.mod_eq_of_lt (satBits_lt _ _)

theorem frame_startLow {fs : List Field} {ps : List Part} {s₀ s : State} {l sys ant svid code : Nat} {pinned : Bool} {dop : Int}
    (h1 : R.GNS_CH_STAT_STATE l ∈ fs) (h2 : R.GNS_CH_STAT_SVID l ∈ fs) (h3 : R.GNS_CH_STAT_NOTCHED l ∈ fs) (h4 : R.GNS_CH_DOP_DOP l ∈ fs)
    (hg : Part.gnss ∈ ps) (hw : Part.watch ∈ ps) (h : Frame fs ps s₀ s) :
    Frame fs ps s₀ (startLow l sys ant svid pinned code dop s) := frame_modCh hg (frame_wr h4 (frame_startCh h1 h2 h3 hg hw h))

theorem svid_lt (s : State) (c : Nat) : s.rd (R.GNS_CH_STAT_SVID c) < 256 := rd_lt s (R.GNS_CH_STAT_SVID c)

/-- A code phase measured at this very time is the one it has now. -/
theorem codeNow_measured (h : (s.gnsCh c).codeAt = s.clk) :
    s.codeNow c = (s.gnsCh c).code % (codeChips (s.gnsCh c).sys (s.gnsCh c).band * 65536) := by
  rw [State.codeNow, h, Nat.sub_self, Nat.zero_mul, Nat.zero_div, Nat.add_zero]

end

end Sys2Proof.Machine
end

section
/-! PROOFS. A channel locks and hands its satellite's low band over; a pin starts its signal (R125, R126, R129). -/

namespace Sys2Proof.Machine

/-- Two's complement holds what 32 bits can hold. -/
theorem toSigned_satBits (i : Int) : toSigned 32 (satBits 32 i) = satSigned 32 i := by
  unfold toSigned satBits ofSigned satSigned
  norm_num
  split_ifs <;> omega

section
variable {s : State} {c : Fin 160}

theorem locks_alone {cn0 : Nat} {dop : Int} {code : Nat} {l : Fin 160} (h : s.ch c.val = .pullIn)
    (hno : (s.gnsCh c.val).band ≠ 0 ∨ s.lowHeld c.val = true ∨ ∀ d : Fin 160, d ≠ c → s.handoverOk c.val d.val = false) :
    ∃ t, Sys2Proof.Machine.exec (.pullInLock c cn0 dop code l) s = .next t ∧
      t.ch c.val = .track ∧
      t.rd (R.GNS_CH_STAT_CN0 c.val) = satNat 16 cn0 ∧
      t.rd (R.GNS_CH_DOP_DOP c.val) = satBits 32 dop ∧
      Frame [R.GNS_CH_STAT_STATE c.val, R.GNS_CH_STAT_CN0 c.val, R.GNS_CH_DOP_DOP c.val] [.gnss, .watch] s t := by
  have hno' : (s.begin.gnsCh c.val).band ≠ 0 ∨ s.begin.lowHeld c.val = true ∨ ∀ d < 160, d ≠ c.val → s.begin.handoverOk c.val d = false :=
    hno.imp_right (Or.imp_right fun h d hd hne => h ⟨d, hd⟩ fun e => hne (congrArg Fin.val e))
  obtain ⟨t, e, k⟩ := go_ended_of (pullInLock_alone (s := s.begin) (cn0 := cn0) (dop := dop) (code := code) c.isLt l.isLt h hno')
  exact ⟨t, e, (k.ch _).trans (ch_locked _ _ _ _ _), (k.rdCh (key_GNS_CH_STAT_CN0 _)).trans (rd_measureCh_CN0 _ _ _ _ _ _),
    (k.rdCh (key_GNS_CH_DOP_DOP _)).trans (rd_measureCh_DOP _ _ _ _ _ _),
    k.frame (frame_measureCh (by simp) (by simp) (by simp) (frame_setCh (by simp) (by simp) (by simp) (frame_begin s)))⟩

theorem locks_and_hands {cn0 : Nat} {dop : Int} {code : Nat} {named l : Fin 160} (h : s.ch c.val = .pullIn) (hband : (s.gnsCh c.val).band = 0)
    (hheld : s.lowHeld c.val = false) (hfor : s.lowFor c.val named.val = some l.val)
    (hshare : ∀ a ≤ 1, (s.antChans a).length + (if a = (s.gnsCh c.val).ant then 1 else 0) ≤ s.antQuota a) :
    ∃ t, Sys2Proof.Machine.exec (.pullInLock c cn0 dop code named) s = .next t ∧
      s.handoverOk c.val l.val = true ∧
      (t.gnsCh l.val).code = code % (codeChips (s.gnsCh c.val).sys 0 * 65536) * 10 % (codeChips (s.gnsCh c.val).sys 1 * 65536) ∧
      t.ch c.val = .track ∧
      t.ch l.val = .pullIn ∧
      (t.gnsCh l.val).band = 1 ∧
      (t.gnsCh l.val).sys = (s.gnsCh c.val).sys ∧
      (t.gnsCh l.val).ant = (s.gnsCh c.val).ant ∧
      t.rd (R.GNS_CH_STAT_SVID l.val) = s.rd (R.GNS_CH_STAT_SVID c.val) % 256 ∧
      t.rd (R.GNS_CH_DOP_DOP l.val) = satBits 32 (rnd (mkRat (satSigned 32 dop * 117645) 157542)) ∧
      Frame [R.GNS_CH_STAT_STATE c.val, R.GNS_CH_STAT_CN0 c.val, R.GNS_CH_DOP_DOP c.val, R.GNS_CH_STAT_STATE l.val, R.GNS_CH_STAT_SVID l.val, R.GNS_CH_DOP_DOP l.val, R.GNS_CH_STAT_NOTCHED l.val] [.gnss, .watch] s t := by
  obtain ⟨hok, -⟩ := lowFor_ok hfor named.isLt
  have hlc : c.val ≠ l.val := fun e => by
    have := handoverOk_idle hok
    rw [← e, h] at this
    exact absurd this (by decide)
  obtain ⟨x, hx⟩ : ∃ x, locked c.val cn0 dop code s.begin = x := ⟨_, rfl⟩
  have hheldAlike : HeldAlike s.begin x := hx ▸ heldAlike_locked c.isLt h
  have hkept := hx ▸ gnsCh_locked c.val cn0 dop code s.begin
  have hmovex : ChMove (· = c.val) s.begin x := hx ▸ chMove_locked c.val cn0 dop code s.begin
  have hsys : (x.gnsCh c.val).sys = (s.gnsCh c.val).sys := (hheldAlike.kept c.val).1
  have hant : (x.gnsCh c.val).ant = (s.gnsCh c.val).ant := (hheldAlike.kept c.val).2.2.1
  have hcode : x.codeNow c.val = code % (codeChips (s.gnsCh c.val).sys 0 * 65536) := by
    rw [codeNow_measured (by rw [hkept, hmovex.clk]), hkept]
    show code % (codeChips (s.gnsCh c.val).sys (s.gnsCh c.val).band * 65536) % (codeChips (s.gnsCh c.val).sys (s.gnsCh c.val).band * 65536) = _
    rw [hband, Nat.mod_mod]
  have hdop : x.rdSigned (R.GNS_CH_DOP_DOP c.val) = satSigned 32 dop := by
    rw [State.rdSigned, ← hx, locked, rd_measureCh_DOP]
    exact toSigned_satBits dop
  have hsvid : x.rd (R.GNS_CH_STAT_SVID c.val) = s.rd (R.GNS_CH_STAT_SVID c.val) := hheldAlike.svid _
  obtain ⟨u, hu⟩ : ∃ u, handOver c.val l.val (x.on (R.GNS_CH_CFG_PIN l.val)) x = u := ⟨_, rfl⟩
  have hstart : startLow l.val (s.gnsCh c.val).sys (s.gnsCh c.val).ant (s.rd (R.GNS_CH_STAT_SVID c.val)) (x.on (R.GNS_CH_CFG_PIN l.val))
      (code % (codeChips (s.gnsCh c.val).sys 0 * 65536) * 10) (rnd (mkRat (satSigned 32 dop * 117645) 157542)) x = u := by
    rw [← hu, handOver, hsys, hant, hcode, hdop, hsvid]
  obtain ⟨ksys, kband, kant, -, kcode⟩ := hstart ▸ startLow_kept l.val (s.gnsCh c.val).sys (s.gnsCh c.val).ant (s.rd (R.GNS_CH_STAT_SVID c.val))
    (x.on (R.GNS_CH_CFG_PIN l.val)) (code % (codeChips (s.gnsCh c.val).sys 0 * 65536) * 10) (rnd (mkRat (satSigned 32 dop * 117645) 157542)) x
  have hmove : ChMove (· = l.val) x u := hu ▸ chMove_handOver rfl (ChMove.refl _ _)
  have hrun : pullInLock c.val cn0 dop code named.val s.begin = u := by
    rw [pullInLock_hands (s := s.begin) c.isLt named.isLt h hband hheld hfor, hx, hu]
    refine trimPool_room hmove l.isLt fun a ha => ?_
    rw [hheldAlike.antChans, hheldAlike.antQuota, kant]
    exact hshare a ha
  obtain ⟨t, e, k⟩ := go_ended_of hrun
  have hframe : Frame [R.GNS_CH_STAT_STATE c.val, R.GNS_CH_STAT_CN0 c.val, R.GNS_CH_DOP_DOP c.val, R.GNS_CH_STAT_STATE l.val, R.GNS_CH_STAT_SVID l.val,
      R.GNS_CH_DOP_DOP l.val, R.GNS_CH_STAT_NOTCHED l.val] [.gnss, .watch] s x :=
    hx ▸ frame_measureCh (by simp) (by simp) (by simp) (frame_setCh (by simp) (by simp) (by simp) (frame_begin s))
  refine ⟨t, e, hok, ?_, ?_, ?_, ?_, ?_, ?_, ?_, ?_,
    k.frame (hstart ▸ frame_startLow (by simp) (by simp) (by simp) (by simp) (by simp) (by simp) hframe)⟩
  · rw [k.gnsCh, kcode]
  · rw [k.ch, hmove.ch_ne l.isLt c.isLt hlc, ← hx, ch_locked]
  · rw [k.ch, ← hstart, startLow_ch]
  · rw [k.gnsCh, kband]
  · rw [k.gnsCh, ksys]
  · rw [k.gnsCh, kant]
  · rw [k.rdCh (key_GNS_CH_STAT_SVID _), ← hstart, rd_startLow_SVID _ _ _ (svid_lt s _), Nat.mod_eq_of_lt (svid_lt s _)]
  · rw [k.rdCh (key_GNS_CH_DOP_DOP _), ← hstart, rd_startLow_DOP]

end

/-! ### A pin starts its signal (R126) -/

section
variable {s : State} {c : Nat}

/-- A high-band signal that may be tracked starts at once. -/
theorem pinSignal_high (hband : s.rd (R.GNS_CH_CFG_BAND c) = 0)
    (hok : s.signalOk (s.rd (R.GNS_CH_CFG_SYS c)) 0 (s.rd (R.GNS_CH_CFG_ANT c)) = true)
    (hprn : prnOk (s.rd (R.GNS_CH_CFG_SYS c)) (s.rd (R.GNS_CH_CFG_SVID c)) = true) (hroom : s.pinRoom (s.rd (R.GNS_CH_CFG_ANT c)) = true) :
    pinSignal c s = trimPool (startCh c .search (s.rd (R.GNS_CH_CFG_SYS c)) 0 (s.rd (R.GNS_CH_CFG_ANT c)) (s.rd (R.GNS_CH_CFG_SVID c)) true s) := by
  unfold pinSignal
  simp only [hband, hok, hprn, hroom, Bool.true_eq_false, or_self, if_false, true_or, if_true]

/-- The host's pins leave room wherever the whole share does. -/
theorem pinRoom_of_room {a : Nat} (h : (s.antChans a).length < s.antQuota a) : s.pinRoom a = true :=
  decide_eq_true (lt_of_le_of_lt (List.length_filter_le _ _) h)

/-- A pin on a channel in IDLE. -/
theorem startPinned_idle (h : s.ch c = .idle) : startPinned c s = pinSignal c (s.modCh c (fun k => { k with pinAt := none })) := by
  unfold startPinned
  simp only [h, ne_eq, not_true_eq_false, decide_false, Bool.false_and, if_true, Bool.false_eq_true, if_false]

end

section
variable {s : State} {c : Fin 160}

/-- A channel's registers once a PIN that is not refused has been written, its signal not started yet. -/
def pinStaged (c : Fin 160) (w : Word) (s : State) : State :=
  (chCfgWritten c.val (pinWord c w) (s.lo (R.GNS_CH_STAT_CFG_ERR c.val))).modCh c.val (fun k => { k with pinAt := none })

theorem frame_pinStaged {fs : List Field} {ps : List Part} {s₀ : State} {w : Word} (hf : ∀ f ∈ (Reg.GNS_CH_CFG c.val).fields, f ∈ fs)
    (he : R.GNS_CH_STAT_CFG_ERR c.val ∈ fs) (hg : Part.gnss ∈ ps) (hw : Part.watch ∈ ps) (h : Frame fs ps s₀ s) :
    Frame fs ps s₀ (pinStaged c w s) := frame_modCh hg (frame_chCfgWritten hf hg hw (frame_lo he h))

section
variable {w : Word} {f g : Field}

theorem rd_pinStaged_mem (hf : f ∈ (Reg.GNS_CH_CFG c.val).fields) (ha : f.acc = .rw) (hl : 1 ≤ f.lsb) : (pinStaged c w s).rd f = f.of w.toNat :=
  (rd_chCfgWritten_mem hf ha).trans (pinWord_above c w hl)

theorem rd_pinStaged_pin : (pinStaged c w s).rd (R.GNS_CH_CFG_PIN c.val) = 1 :=
  (rd_chCfgWritten_mem (by simp [Reg.GNS_CH_CFG]) rfl).trans (pinWord_pin c w)

theorem rd_pinStaged_err : (pinStaged c w s).rd (R.GNS_CH_STAT_CFG_ERR c.val) = 0 :=
  (rd_chCfgWritten_ne (.inr (by simp))).trans (rd_lo_same _ _)

theorem rd_pinStaged_ne (h1 : g.key ≠ chBase c.val + 134) (h2 : g.key < chBase c.val ∨ chBase c.val + 128 ≤ g.key) :
    (pinStaged c w s).rd g = s.rd g := (rd_chCfgWritten_ne h2).trans (rd_lo_ne _ (by rw [key_GNS_CH_STAT_CFG_ERR]; exact h1))

theorem rd_pinStaged_low (hg : g.key < 0xA00000) : (pinStaged c w s).rd g = s.rd g := by
  have := chBase_ge c.val
  exact rd_pinStaged_ne (by omega) (.inl (by omega))

theorem pinStaged_ch (d : Nat) : (pinStaged c w s).ch d = s.ch d :=
  ch_of_rd (rd_pinStaged_ne (by simp only [key_GNS_CH_STAT_STATE, chBase]; omega) (by simp only [key_GNS_CH_STAT_STATE, chBase]; omega))

theorem pinStaged_ant (d : Nat) : ((pinStaged c w s).gnsCh d).ant = (s.gnsCh d).ant := by
  obtain ⟨hothers, _, _, _, hown⟩ := gapMove_chCfgWritten c.val (pinWord c w) (s.lo (R.GNS_CH_STAT_CFG_ERR c.val))
  unfold pinStaged
  by_cases hd : d = c.val
  · rw [hd, gnsCh_modCh_same, hown]
    rfl
  · rw [gnsCh_modCh_ne _ _ hd, hothers d hd]
    rfl

theorem pinStaged_sysHeld : (pinStaged c w s).gnss.sysHeld = s.gnss.sysHeld := by
  have hstored := (storeReg_gnss (noteFull (s.lo (R.GNS_CH_STAT_CFG_ERR c.val))) false (Reg.GNS_CH_CFG c.val) (pinWord c w)).trans (noteFull_gnss _)
  have hwritten : (chCfgWritten c.val (pinWord c w) (s.lo (R.GNS_CH_STAT_CFG_ERR c.val))).gnss.sysHeld = s.gnss.sysHeld := by
    unfold chCfgWritten
    rcases refreshGap_cases c.val ((noteFull (s.lo (R.GNS_CH_STAT_CFG_ERR c.val))).storeReg false (Reg.GNS_CH_CFG c.val) (pinWord c w)) with
      h | ⟨x, y, z, h⟩ <;> rw [h]
    · exact congrArg Gnss.sysHeld hstored
    · have hheld := congrArg Gnss.sysHeld hstored
      exact hheld
  exact hwritten

theorem pinStaged_reserved (hres : s.reserved c.val = false) (hrsv : (R.GNS_CH_CFG_RSV c.val).of w.toNat = 0) :
    ∀ d < 160, (pinStaged c w s).reserved d = s.reserved d := by
  intro d hlt
  by_cases hd : d = c.val
  · subst hd
    rw [hres, State.reserved, State.on, rd_pinStaged_mem (by simp [Reg.GNS_CH_CFG]) rfl (by decide : 1 ≤ 5), hrsv]
    rfl
  · have := c.isLt
    rw [State.reserved, State.reserved, State.on, State.on,
      rd_pinStaged_ne (by simp only [key_GNS_CH_CFG_RSV, chBase]; omega) (by simp only [key_GNS_CH_CFG_RSV, chBase]; omega)]

end

/-- Such a PIN on a channel in IDLE starts the signal from there. -/
theorem writeChCfg_idle {w : Word} (hidle : s.ch c.val = .idle) (hres : s.reserved c.val = false) (hrsv : (R.GNS_CH_CFG_RSV c.val).of w.toNat = 0) :
    writeChCfg c.val (pinWord c w) s = pinSignal c.val (pinStaged c w s) := by
  have hres' : (s.lo (R.GNS_CH_STAT_CFG_ERR c.val)).reserved c.val = false := by
    rw [← hres, State.reserved, State.reserved, State.on, State.on, rd_lo_ne _ (by simp)]
  have hidle' : (chCfgWritten c.val (pinWord c w) (s.lo (R.GNS_CH_STAT_CFG_ERR c.val))).ch c.val = .idle :=
    (pinStaged_ch (s := s) (c := c) (w := w) c.val).trans hidle
  rw [writeChCfg_pin (by rw [hidle]; decide), applyChCfg_pin (pinWord_pin c w) hres' ((pinWord_above c w (by decide : 1 ≤ 5)).trans hrsv),
    if_pos hidle', startPinned_idle hidle']
  rfl

theorem pin_starts {w : Word} (hidle : s.ch c.val = .idle) (hres : s.reserved c.val = false) (hrsv : (R.GNS_CH_CFG_RSV c.val).of w.toNat = 0)
    (hband : (R.GNS_CH_CFG_BAND c.val).of w.toNat = 0)
    (hok : s.signalOk ((R.GNS_CH_CFG_SYS c.val).of w.toNat) 0 ((R.GNS_CH_CFG_ANT c.val).of w.toNat) = true)
    (hprn : prnOk ((R.GNS_CH_CFG_SYS c.val).of w.toNat) ((R.GNS_CH_CFG_SVID c.val).of w.toNat) = true)
    (hshare : ∀ a ≤ 1, (s.antChans a).length + (if a = (R.GNS_CH_CFG_ANT c.val).of w.toNat then 1 else 0) ≤ s.antQuota a) :
    ∃ t, Sys2Proof.Machine.exec (.channelPin c w) s = .next t ∧
      t.ch c.val = .search ∧
      t.rd (R.GNS_CH_STAT_SVID c.val) = (R.GNS_CH_CFG_SVID c.val).of w.toNat ∧
      t.rd (R.GNS_CH_CFG_PIN c.val) = 1 ∧
      (t.gnsCh c.val).pinned = true ∧
      (t.gnsCh c.val).sys = (R.GNS_CH_CFG_SYS c.val).of w.toNat ∧
      (t.gnsCh c.val).ant = (R.GNS_CH_CFG_ANT c.val).of w.toNat ∧
      t.rd (R.GNS_CH_STAT_CFG_ERR c.val) = 0 ∧
      Frame ([R.GNS_CH_STAT_STATE c.val, R.GNS_CH_STAT_SVID c.val, R.GNS_CH_STAT_NOTCHED c.val, R.GNS_CH_STAT_CFG_ERR c.val] ++ (Reg.GNS_CH_CFG c.val).fields) [.gnss, .watch] s t := by
  obtain ⟨z, hz⟩ : ∃ z, pinStaged c w s.begin = z := ⟨_, rfl⟩
  have hchans : ∀ a, z.antChans a = s.antChans a := hz ▸ antChans_congr (fun d _ => pinStaged_ch d) fun d _ => pinStaged_ant d
  have hquota : ∀ a, z.antQuota a = s.antQuota a := hz ▸ antQuota_congr rd_pinStaged_low (pinStaged_reserved (s := s.begin) hres hrsv)
  have hcfg : ∀ {f : Field}, f ∈ (Reg.GNS_CH_CFG c.val).fields → f.acc = .rw → 1 ≤ f.lsb → z.rd f = f.of w.toNat := fun h1 h2 h3 =>
    hz ▸ rd_pinStaged_mem h1 h2 h3
  have hsys := hcfg (f := R.GNS_CH_CFG_SYS c.val) (by simp [Reg.GNS_CH_CFG]) rfl (by decide : 1 ≤ 1)
  have hant := hcfg (f := R.GNS_CH_CFG_ANT c.val) (by simp [Reg.GNS_CH_CFG]) rfl (by decide : 1 ≤ 4)
  have hsvid := hcfg (f := R.GNS_CH_CFG_SVID c.val) (by simp [Reg.GNS_CH_CFG]) rfl (by decide : 1 ≤ 8)
  obtain ⟨u, hu⟩ : ∃ u, startCh c.val .search ((R.GNS_CH_CFG_SYS c.val).of w.toNat) 0 ((R.GNS_CH_CFG_ANT c.val).of w.toNat)
      ((R.GNS_CH_CFG_SVID c.val).of w.toNat) true z = u := ⟨_, rfl⟩
  obtain ⟨ksys, -, kant, kpinned, -⟩ := hu ▸ gnsCh_startCh c.val .search ((R.GNS_CH_CFG_SYS c.val).of w.toNat) 0 ((R.GNS_CH_CFG_ANT c.val).of w.toNat)
    ((R.GNS_CH_CFG_SVID c.val).of w.toNat) true z
  have hmove : ChMove (· = c.val) z u := hu ▸ chMove_startCh rfl (ChMove.refl _ _)
  have hrun : writeChCfg c.val (pinWord c w) s.begin = u := by
    rw [writeChCfg_idle (s := s.begin) hidle hres hrsv, hz, pinSignal_high, hsys, hant, hsvid, hu]
    · refine trimPool_room hmove c.isLt fun a ha => ?_
      rw [hchans, hquota, kant]
      exact hshare a ha
    · exact (hcfg (by simp [Reg.GNS_CH_CFG]) rfl (by decide : 1 ≤ 3)).trans hband
    · rw [hsys, hant, ← hz, signalOk_congr rd_pinStaged_low pinStaged_sysHeld]
      exact hok
    · rw [hsys, hsvid]
      exact hprn
    · have hle : (R.GNS_CH_CFG_ANT c.val).of w.toNat ≤ 1 := Nat.le_of_lt_succ (Nat.mod_lt _ (Nat.two_pow_pos _))
      have := hshare _ hle
      rw [if_pos rfl] at this
      rw [hant]
      refine pinRoom_of_room ?_
      rw [hchans, hquota]
      omega
  obtain ⟨t, e, k⟩ := go_ended_of hrun
  have hcfgs : ∀ f ∈ (Reg.GNS_CH_CFG c.val).fields, f ∈ [R.GNS_CH_STAT_STATE c.val, R.GNS_CH_STAT_SVID c.val, R.GNS_CH_STAT_NOTCHED c.val,
      R.GNS_CH_STAT_CFG_ERR c.val] ++ (Reg.GNS_CH_CFG c.val).fields := fun f hf => List.mem_append_right _ hf
  refine ⟨t, e, ?_, ?_, ?_, ?_, ?_, ?_, ?_, k.frame (hu ▸ frame_startCh (by simp) (by simp) (by simp) (by simp) (by simp)
    (hz ▸ frame_pinStaged hcfgs (by simp) (by simp) (by simp) (frame_begin s)))⟩
  · rw [k.ch, ← hu, ch_startCh_same]
  · rw [k.rdCh (key_GNS_CH_STAT_SVID _), ← hu, rd_SVID_startCh]
    exact Nat.mod_lt _ (Nat.two_pow_pos _)
  · rw [k.rdCh (key_GNS_CH_CFG_PIN _), hmove.rd_cfg (key_GNS_CH_CFG_PIN _) (by decide), ← hz, rd_pinStaged_pin]
  · rw [k.gnsCh, kpinned]
  · rw [k.gnsCh, ksys]
  · rw [k.gnsCh, kant]
  · rw [k.rdCh (key_GNS_CH_STAT_CFG_ERR _), ← hu]
    unfold startCh
    rw [rd_wr_ne _ _ (by simp), rd_setCh_ne _ _ (by simp), rd_wr_ne _ _ (by simp), rd_modCh, rd_modCh, ← hz, rd_pinStaged_err]

end

end Sys2Proof.Machine
end

section
/-! PROOFS. An antenna that holds its whole share puts a higher satellite in place of its lowest (R147). -/

namespace Sys2Proof.Machine

section
variable {s t u : State} {a c d x : Nat}

/-! ### The order in which channels are kept -/

theorem keptBefore_total (s : State) (a c d : Nat) : s.keptBefore a c d = true ∨ s.keptBefore a d c = true := by
  unfold State.keptBefore
  simp only
  by_cases h : (s.gnsCh c).pinned = (s.gnsCh d).pinned
  · simp only [if_pos h, if_pos h.symm, Bool.or_eq_true, Bool.and_eq_true, decide_eq_true_eq]
    omega
  · rw [if_neg h, if_neg (Ne.symm h)]
    cases hc : (s.gnsCh c).pinned <;> cases hd : (s.gnsCh d).pinned <;> simp_all

theorem keptBefore_trans (s : State) (a : Nat) {c d e : Nat} (h1 : s.keptBefore a c d = true) (h2 : s.keptBefore a d e = true) :
    s.keptBefore a c e = true := by
  unfold State.keptBefore at *
  simp only at *
  cases hc : (s.gnsCh c).pinned <;> cases hd : (s.gnsCh d).pinned <;> cases he : (s.gnsCh e).pinned <;>
    simp_all only [if_true, if_false, Bool.or_eq_true, Bool.and_eq_true, decide_eq_true_eq, reduceCtorEq] <;> omega

/-- What stands behind an unpinned channel is unpinned and no higher. -/
theorem keptBefore_unpinned (h : s.keptBefore a x d = true) (hx : (s.gnsCh x).pinned = false) :
    (s.gnsCh d).pinned = false ∧ s.elevOf a (s.satOf d) ≤ s.elevOf a (s.satOf x) := by
  unfold State.keptBefore at h
  simp only [hx] at h
  cases hd : (s.gnsCh d).pinned
  · simp only [hd, if_true, Bool.or_eq_true, Bool.and_eq_true, decide_eq_true_eq] at h
    exact ⟨rfl, by omega⟩
  · simp [hd] at h

/-- One channel beyond the share: the one that is dropped stands behind all. -/
theorem antRanked_beyond (h : (s.antChans a).length = s.antQuota a + 1) :
    ∃ d ∈ s.antChans a, (s.antRanked a).drop (s.antQuota a) = [d] ∧ ∀ x ∈ s.antChans a, s.keptBefore a x d = true := by
  have hsort : s.antRanked a = (s.antChans a).insertionSort (fun x y => s.keptBefore a x y = true) := sortBy_eq_insertionSort _ _
  have : Std.Total (fun x y => s.keptBefore a x y = true) := ⟨keptBefore_total s a⟩
  have : IsTrans Nat (fun x y => s.keptBefore a x y = true) := ⟨fun _ _ _ => keptBefore_trans s a⟩
  have hperm : (s.antRanked a).Perm (s.antChans a) := hsort ▸ List.perm_insertionSort _ _
  have hpair : (s.antRanked a).Pairwise fun x y => s.keptBefore a x y = true := hsort ▸ List.pairwise_insertionSort _ _
  rcases List.eq_nil_or_concat (s.antRanked a) with hnil | ⟨init, d, hlast⟩
  · have := hperm.length_eq
    rw [hnil, h] at this
    exact absurd this (by simp)
  · rw [List.concat_eq_append] at hlast
    have hlen : init.length = s.antQuota a := by
      have := hperm.length_eq
      rw [hlast, h, List.length_append, List.length_singleton] at this
      omega
    refine ⟨d, hperm.subset (by simp [hlast]), by rw [hlast, List.drop_left' hlen], fun x hx => ?_⟩
    have hx' := hperm.symm.subset hx
    rw [hlast] at hpair hx'
    rcases List.mem_append.1 hx' with hx' | hx'
    · exact (List.pairwise_append.1 hpair).2.2 x hx' d (by simp)
    · rw [List.mem_singleton.1 hx']
      exact (keptBefore_total s a d d).elim id id

/-- The pool with one antenna one beyond its share. -/
theorem trimPool_one (ha : a ≤ 1) (hdrop : (s.antRanked a).drop (s.antQuota a) = [d])
    (hother : ∀ b ≤ 1, b ≠ a → (s.antChans b).length ≤ s.antQuota b) : trimPool s = idleCh d s := by
  have hnil : ∀ b ≤ 1, b ≠ a → (s.antRanked b).drop (s.antQuota b) = [] := fun b hb hne =>
    List.drop_eq_nil_of_le (by rw [State.antRanked, length_sortBy]; exact hother b hb hne)
  unfold trimPool
  rw [List.flatMap_cons, List.flatMap_cons, List.flatMap_nil]
  have hcases : a = 0 ∨ a = 1 := by omega
  rcases hcases with rfl | rfl
  · rw [hdrop, hnil 1 (by decide) (by decide)]
    rfl
  · rw [hdrop, hnil 0 (by decide) (by decide)]
    rfl

/-- A channel that an antenna takes, or gives up. -/
theorem antChans_one_more (h : ∀ d, d ≠ c → (d ∈ t.antChans a ↔ d ∈ s.antChans a)) (hin : c ∈ t.antChans a) (hout : c ∉ s.antChans a) :
    (t.antChans a).length = (s.antChans a).length + 1 := by
  have hperm : (t.antChans a).Perm (c :: s.antChans a) := by
    refine (List.perm_ext_iff_of_nodup (nodup_antChans t a) (List.nodup_cons.2 ⟨hout, nodup_antChans s a⟩)).2 fun d => ?_
    by_cases hd : d = c
    · simp [hd, hin]
    · simp [hd, h d hd]
  exact hperm.length_eq

/-- Where the share is full, room is what an unpinned channel on a lower satellite gives. -/
theorem hasRoom_full {sat : Nat} (h : s.hasRoom a sat = true) (hfull : (s.antChans a).length = s.antQuota a) :
    ∃ x ∈ s.antChans a, (s.gnsCh x).pinned = false ∧ s.elevOf a (s.satOf x) < s.elevOf a sat := by
  unfold State.hasRoom at h
  simp only [hfull, lt_self_iff_false, decide_false, Bool.false_or] at h
  split at h
  · obtain ⟨-, hany⟩ := Bool.and_eq_true_iff.1 h
    obtain ⟨x, hx, hp⟩ := List.any_eq_true.1 hany
    simp only [Bool.and_eq_true, Bool.not_eq_true', decide_eq_true_eq] at hp
    exact ⟨x, hx, hp⟩
  · exact absurd h (by decide)

theorem ChMove.satOf_ne (h : ChMove (· = c) s t) (hc : c < 160) (hd : d < 160) (hne : d ≠ c) : t.satOf d = s.satOf d := by
  rw [State.satOf, State.satOf, h.ch hne, h.rd_ch (fun _ e => e ▸ chBase_of_lt hc hd hne.symm) (key_GNS_CH_STAT_SVID d) (by decide)]

theorem ChMove.elevOf {f : Nat → Prop} (h : ChMove f s t) (a sat : Nat) : t.elevOf a sat = s.elevOf a sat := by
  rw [State.elevOf, State.elevOf, h.ants]

end

section
variable {s : State} {c : Fin 160}

theorem signal_replaces {sys : Fin 4} {low ant : Bool} {svid : BitVec 8}
    (hmay : s.mayAssign c.val sys.val (b01 low) (b01 ant) svid.toNat = true) (hfits : ∀ a ≤ 1, (s.antChans a).length ≤ s.antQuota a)
    (hfull : (s.antChans (b01 ant)).length = s.antQuota (b01 ant)) :
    ∃ t, Sys2Proof.Machine.exec (.channelAssign c (some ⟨sys, low, ant, svid⟩)) s = .next t ∧
      t.ch c.val = .search ∧
      (t.antChans (b01 ant)).length = (s.antChans (b01 ant)).length ∧
      (∃ d : Fin 160, d ≠ c ∧ d.val ∈ s.antChans (b01 ant) ∧ t.ch d.val = .idle ∧ (s.gnsCh d.val).pinned = false ∧
        s.elevOf (b01 ant) (s.satOf d.val) < s.elevOf (b01 ant) (sys.val * 256 + svid.toNat) ∧
        ∀ e : Fin 160, e ≠ c → e ≠ d → t.ch e.val = s.ch e.val) ∧
      Touches [.gnss, .regs .gns, .watch] s t := by
  obtain ⟨hidle, -, -, -, -, hroom⟩ := mayPlan_iff.1 (mayAssign_iff.1 hmay).1
  obtain ⟨x, hx, hxpin, hxlow⟩ := hasRoom_full hroom hfull
  have hb : b01 ant ≤ 1 := by cases ant <;> decide
  obtain ⟨u, hu⟩ : ∃ u, startCh c.val .search sys.val (b01 low) (b01 ant) svid.toNat false s.begin = u := ⟨_, rfl⟩
  obtain ⟨ksys, -, kant, -, -⟩ := hu ▸ gnsCh_startCh c.val .search sys.val (b01 low) (b01 ant) svid.toNat false s.begin
  have hch : u.ch c.val = .search := hu ▸ ch_startCh_same _ _ _ _ _ _ _ _
  have hmove : ChMove (· = c.val) s u := hu ▸ chMove_startCh (s₀ := s) (s := s.begin) rfl ⟨fun _ => rfl, fun _ => rfl, rfl, rfl⟩
  have hout : c.val ∉ s.antChans (b01 ant) := fun h => (mem_antChans.1 h).2.1 hidle
  have hin : c.val ∈ u.antChans (b01 ant) := mem_antChans.2 ⟨c.isLt, by rw [hch]; decide, by rw [hch]; decide, kant⟩
  have hothers : ∀ d, d ≠ c.val → (d ∈ u.antChans (b01 ant) ↔ d ∈ s.antChans (b01 ant)) := fun d hd => mem_antChans_ne hmove c.isLt hd
  have hlen := antChans_one_more hothers hin hout
  obtain ⟨d, hd, hdrop, hlast⟩ := antRanked_beyond (s := u) (a := b01 ant) (by rw [hlen, hfull, hmove.antQuota])
  have hxc : x ≠ c.val := fun e => hout (e ▸ hx)
  have hx160 := (mem_antChans.1 hx).1
  have hd160 := (mem_antChans.1 hd).1
  obtain ⟨hdpin, hdlow⟩ := keptBefore_unpinned (hlast x ((hothers x hxc).2 hx)) (hmove.ch hxc ▸ hxpin)
  rw [hmove.elevOf, hmove.elevOf, hmove.satOf_ne c.isLt hx160 hxc] at hdlow
  have hcsat : u.satOf c.val = sys.val * 256 + svid.toNat := by rw [State.satOf, ksys, ← hu, rd_SVID_startCh _ _ _ _ _ svid.isLt]
  have hdc : d ≠ c.val := fun e => by
    rw [e, hcsat] at hdlow
    omega
  rw [hmove.satOf_ne c.isLt hd160 hdc] at hdlow
  have hrun : channelAssign c.val (some ⟨sys, low, ant, svid⟩) s.begin = idleCh d u := by
    have hmay' : s.begin.mayAssign c.val sys.val (b01 low) (b01 ant) svid.toNat = true := hmay
    refine (if_pos hmay').trans ?_
    rw [hu]
    refine trimPool_one hb hdrop fun b hb' hne => ?_
    have := antChans_grow hmove c.isLt b
    rw [if_neg (by rw [kant]; exact hne)] at this
    exact this.trans ((hfits b hb').trans (hmove.antQuota b).ge)
  obtain ⟨t, e, k⟩ := go_ended_of hrun
  have hmoved : ChMove (· = d) u (idleCh d u) := chMove_idleCh rfl (ChMove.refl _ _)
  have hkeep : t.antChans (b01 ant) = (idleCh d u).antChans (b01 ant) := antChans_congr (fun d _ => k.ch d) (fun d _ => by rw [k.gnsCh]) _
  refine ⟨t, e, ?_, ?_, ⟨⟨d, hd160⟩, fun e => hdc (congrArg Fin.val e), (hothers d hdc).1 hd, ?_, hmove.ch hdc ▸ hdpin, lt_of_le_of_lt hdlow hxlow,
    fun e hec hed => ?_⟩, touches_go e (touches_channelAssign _ _ _ (by simp) (by simp) (by simp) (touches_begin _ s))⟩
  · rw [k.ch, hmoved.ch_ne hd160 c.isLt hdc.symm, hch]
  · have := antChans_one_more (s := idleCh d u) (t := u) (c := d) (a := b01 ant) (fun y hy => (mem_antChans_ne hmoved hd160 hy).symm) hd
      fun h => (mem_antChans.1 h).2.1 (ch_idleCh_same d u)
    rw [hkeep]
    omega
  · exact (k.ch _).trans (ch_idleCh_same _ _)
  · have hec' : e.val ≠ c.val := fun h => hec (Fin.ext h)
    have hed' : e.val ≠ d := fun h => hed (Fin.ext h)
    rw [k.ch, hmoved.ch_ne hd160 e.isLt hed', hmove.ch_ne c.isLt e.isLt hec']

end

end Sys2Proof.Machine
end

section
/-! PROOFS. A pending PIN takes effect and displaces a signal; the obligation on the channels (R125-R129). -/

namespace Sys2Proof.Machine

section
variable {s t u v w : State} {c d : Nat}

/-! ### The channel that a pin takes -/

/-- The channel in IDLE, its pending PIN over. -/
def freed (c : Nat) (s : State) : State := (if s.ch c = .idle then s else idleCh c s).modCh c (fun k => { k with pinAt := none })

theorem startPinned_eq (c : Nat) (s : State) : startPinned c s =
    if decide (s.ch c ≠ .idle) && !(s.gnsCh c).pinned then
      replan (s.gnsCh c).sys (s.gnsCh c).band (s.gnsCh c).ant (s.rd (R.GNS_CH_STAT_SVID c)) (s.codeNow c) (s.rdSigned (R.GNS_CH_DOP_DOP c))
        (pinSignal c (freed c s))
    else pinSignal c (freed c s) := rfl

theorem chMove_freed (c : Nat) (s : State) : ChMove (· = c) s (freed c s) :=
  chMove_modCh rfl (chMove_ite (ChMove.refl _ s) (chMove_idleCh rfl (ChMove.refl _ s)))

theorem freed_pinAt (c : Nat) (s : State) : ((freed c s).gnsCh c).pinAt = none := congrArg GnsCh.pinAt (gnsCh_modCh_same _ _ _)

/-- A pinned high-band signal on its channel. -/
structure Pinned (c : Nat) (s u : State) : Prop where
  move : ChMove (· = c) s u
  search : u.ch c = .search
  svid : u.rd (R.GNS_CH_STAT_SVID c) = s.rd (R.GNS_CH_CFG_SVID c)
  waits : (u.gnsCh c).pinAt = none
  pinned : (u.gnsCh c).pinned = true
  ant : (u.gnsCh c).ant = s.rd (R.GNS_CH_CFG_ANT c)

theorem pinned_freed (hc : c < 160) (hband : s.rd (R.GNS_CH_CFG_BAND c) = 0)
    (hok : s.signalOk (s.rd (R.GNS_CH_CFG_SYS c)) 0 (s.rd (R.GNS_CH_CFG_ANT c)) = true)
    (hprn : prnOk (s.rd (R.GNS_CH_CFG_SYS c)) (s.rd (R.GNS_CH_CFG_SVID c)) = true)
    (hshare : ∀ a ≤ 1, (s.antChans a).length + 2 ≤ s.antQuota a) : Pinned c s (pinSignal c (freed c s)) := by
  obtain ⟨z, hz⟩ : ∃ z, freed c s = z := ⟨_, rfl⟩
  have hfree : ChMove (· = c) s z := hz ▸ chMove_freed c s
  have hsys := hfree.rd_cfg (key_GNS_CH_CFG_SYS c) (by decide)
  have hant := hfree.rd_cfg (key_GNS_CH_CFG_ANT c) (by decide)
  have hsvid := hfree.rd_cfg (key_GNS_CH_CFG_SVID c) (by decide)
  have hantle : s.rd (R.GNS_CH_CFG_ANT c) ≤ 1 := Nat.le_of_lt_succ (rd_lt s (R.GNS_CH_CFG_ANT c))
  have hsvidlt : s.rd (R.GNS_CH_CFG_SVID c) < 256 := rd_lt s (R.GNS_CH_CFG_SVID c)
  obtain ⟨u, hu⟩ : ∃ u, startCh c .search (s.rd (R.GNS_CH_CFG_SYS c)) 0 (s.rd (R.GNS_CH_CFG_ANT c)) (s.rd (R.GNS_CH_CFG_SVID c)) true z = u := ⟨_, rfl⟩
  obtain ⟨-, -, kant, kpinned, kpin, -⟩ := hu ▸ gnsCh_startCh c .search (s.rd (R.GNS_CH_CFG_SYS c)) 0 (s.rd (R.GNS_CH_CFG_ANT c))
    (s.rd (R.GNS_CH_CFG_SVID c)) true z
  have hmove : ChMove (· = c) s u := hfree.trans (hu ▸ chMove_startCh rfl (ChMove.refl _ z))
  have hroom : z.pinRoom (z.rd (R.GNS_CH_CFG_ANT c)) = true := by
    rw [hant]
    refine pinRoom_of_room ?_
    have h1 := antChans_grow hfree hc (s.rd (R.GNS_CH_CFG_ANT c))
    have h2 := hshare _ hantle
    rw [hfree.antQuota]
    split at h1 <;> omega
  have hrun : pinSignal c z = u := by
    rw [pinSignal_high ((hfree.rd_cfg (key_GNS_CH_CFG_BAND c) (by decide)).trans hband) (by rw [hsys, hant, hfree.signalOk]; exact hok)
      (by rw [hsys, hsvid]; exact hprn) hroom, hsys, hant, hsvid, hu]
    refine trimPool_room hmove hc fun a ha => ?_
    have := hshare a ha
    split <;> omega
  rw [hz, hrun]
  exact ⟨hmove, hu ▸ ch_startCh_same _ _ _ _ _ _ _ _, hu ▸ rd_SVID_startCh _ _ _ _ _ hsvidlt _ _, kpin.trans (hz ▸ freed_pinAt c s), kpinned, kant⟩

/-! ### The signal that a pin displaces (R129, log entry 106) -/

/-- A signal planned onto a free channel, as `replan` has it. -/
def planOn (d sys band ant svid code : Nat) (dop : Int) (s : State) : State :=
  match band, s.highOf sys ant svid with
  | 1, some h => handOver h d false s
  | 1, none => if s.lowDirect ant then startCh d .search sys 1 ant svid false s else startLow d sys ant svid false code dop s
  | _, _ => startCh d .search sys band ant svid false s

theorem replan_some {sys band ant svid code : Nat} {dop : Int} (h : chIds.find? (fun d => s.mayPlan d sys band ant svid) = some d) :
    replan sys band ant svid code dop s = trimPool (planOn d sys band ant svid code dop s) := by
  unfold replan
  rw [h]
  rfl

theorem replan_none {sys band ant svid code : Nat} {dop : Int} (h : chIds.find? (fun d => s.mayPlan d sys band ant svid) = none) :
    replan sys band ant svid code dop s = s := by
  unfold replan
  rw [h]

/-- What a planned signal finds on its channel. -/
structure PlannedOn (d sys band ant svid : Nat) (s w : State) : Prop where
  move : ChMove (· = d) s w
  state : w.ch d = (if band = 1 ∧ ((s.highOf sys ant svid).isSome = true ∨ s.lowDirect ant = false) then .pullIn else .search)
  pinned : (w.gnsCh d).pinned = false
  sys : (w.gnsCh d).sys = sys
  band : (w.gnsCh d).band = band
  ant : (w.gnsCh d).ant = ant
  svid : w.rd (R.GNS_CH_STAT_SVID d) = svid

theorem plannedOn_start {sys band ant svid : Nat} (hsvid : svid < 256)
    (hno : ¬(band = 1 ∧ ((s.highOf sys ant svid).isSome = true ∨ s.lowDirect ant = false))) :
    PlannedOn d sys band ant svid s (startCh d .search sys band ant svid false s) := by
  obtain ⟨hsys, hband, hant, hpin, -⟩ := gnsCh_startCh d .search sys band ant svid false s
  exact ⟨chMove_startCh rfl (ChMove.refl _ s), (ch_startCh_same _ _ _ _ _ _ _ _).trans (if_neg hno).symm, hpin, hsys, hband, hant,
    rd_SVID_startCh _ _ _ _ _ hsvid _ _⟩

theorem plannedOn_low {sys ant svid code : Nat} {dop : Int} (hsvid : svid < 256)
    (hyes : (s.highOf sys ant svid).isSome = true ∨ s.lowDirect ant = false) :
    PlannedOn d sys 1 ant svid s (startLow d sys ant svid false code dop s) := by
  obtain ⟨hsys, hband, hant, hpin, -⟩ := startLow_kept d sys ant svid false code dop s
  exact ⟨chMove_startLow rfl (ChMove.refl _ s), (startLow_ch _ _ _ _ _ _ _ _).trans (if_pos ⟨rfl, hyes⟩).symm, hpin, hsys, hband, hant,
    rd_startLow_SVID _ _ _ hsvid _ _ _ _⟩

/-- A satellite's high-band channel tracks that satellite on that antenna. -/
theorem highOf_some {sys ant svid h : Nat} (hsvid : svid < 256) (hh : s.highOf sys ant svid = some h) :
    (s.gnsCh h).sys = sys ∧ (s.gnsCh h).ant = ant ∧ s.rd (R.GNS_CH_STAT_SVID h) = svid := by
  have hp := List.find?_some hh
  simp only [Bool.and_eq_true, decide_eq_true_eq] at hp
  obtain ⟨⟨-, hant⟩, hsat⟩ := hp
  have := svid_lt s h
  unfold State.satOf at hsat
  exact ⟨by omega, hant, by omega⟩

theorem plannedOn_planOn {sys band ant svid code : Nat} {dop : Int} (hsvid : svid < 256) :
    PlannedOn d sys band ant svid s (planOn d sys band ant svid code dop s) := by
  unfold planOn
  split
  · rename_i h hh
    obtain ⟨hsys, hant, hsat⟩ := highOf_some hsvid hh
    rw [handOver, hsys, hant, hsat]
    exact plannedOn_low hsvid (.inl (by rw [hh]; rfl))
  · rename_i hh
    split
    · rename_i hdirect
      exact plannedOn_start hsvid (by simp [hh, hdirect])
    · rename_i hdirect
      exact plannedOn_low hsvid (.inr (by simpa using hdirect))
  · rename_i h1 h2
    refine plannedOn_start hsvid fun hb => ?_
    cases hh : s.highOf sys ant svid with
    | none => exact h2 hb.1 hh
    | some h => exact h1 h hb.1 hh

/-- A displaced signal is planned onto one free channel, where there is one, and drops nothing within the shares. -/
theorem replan_cases {sys band ant svid code : Nat} {dop : Int} (hsvid : svid < 256)
    (hshare : ∀ a ≤ 1, (s.antChans a).length + 1 ≤ s.antQuota a) :
    ((∀ d < 160, s.mayPlan d sys band ant svid = false) ∧ replan sys band ant svid code dop s = s) ∨
      ∃ d < 160, s.ch d = .idle ∧ PlannedOn d sys band ant svid s (replan sys band ant svid code dop s) := by
  cases hfind : chIds.find? (fun d => s.mayPlan d sys band ant svid) with
  | none => exact .inl ⟨fun d hd => by simpa using List.find?_eq_none.1 hfind d (List.mem_range.2 hd), replan_none hfind⟩
  | some d =>
    have hd : d < 160 := List.mem_range.1 (List.mem_of_find?_eq_some hfind)
    have hmay : s.mayPlan d sys band ant svid = true := by simpa using List.find?_some hfind
    have hplan := plannedOn_planOn (s := s) (d := d) (sys := sys) (band := band) (ant := ant) (code := code) (dop := dop) hsvid
    refine .inr ⟨d, hd, (mayPlan_iff.1 hmay).1, ?_⟩
    rw [replan_some hfind, trimPool_room hplan.move hd fun a ha => ?_]
    · exact hplan
    · have := hshare a ha
      split <;> omega

/-! ### What a plan asks, before the pin and after it -/

/-- The receiver is as it was. -/
def RxAlike (s t : State) : Prop := (∀ g : Field, g.side = false → t.rd g = s.rd g) ∧ t.gnss = s.gnss

theorem RxAlike.ch (h : RxAlike s t) (d : Nat) : t.ch d = s.ch d := ch_of_rd (h.1 _ (side_of_chBase (key_GNS_CH_STAT_STATE d) (by decide)))

theorem RxAlike.rdCh (h : RxAlike s t) {g : Field} {c n : Nat} (hk : g.key = chBase c + n) (hn : n < 512 := by decide) : t.rd g = s.rd g :=
  h.1 _ (side_of_chBase hk hn)

theorem RxAlike.heldAlike (h : RxAlike s t) : HeldAlike s t where
  rd hg := h.1 _ (Field.side_of_low (by omega))
  cfg hk hn := h.1 _ (side_of_chBase hk (by omega))
  svid d := h.rdCh (key_GNS_CH_STAT_SVID d)
  idle d _ := by rw [h.ch]
  test d _ := by rw [h.ch]
  kept d := by rw [gnsCh_of_gnss h.2]; exact ⟨rfl, rfl, rfl, rfl⟩
  ants := by rw [h.2]
  sysHeld := by rw [h.2]

theorem rxAlike_waitTs0 (s : State) (x : Nat) : RxAlike s (s.begin.waitTs0 x) :=
  ⟨fun _ hg => rd_waitTs0 _ _ hg, (touches_State_waitTs0 (ps := [.tick, .lanes]) _ _ (by simp) (by simp) (touches_begin _ s)).1 .gnss (by simp)⟩

theorem isSome_highOf {sys ant svid : Nat} : (s.highOf sys ant svid).isSome = true ↔
    ∃ d < 160, (s.ch d = .track ∨ s.ch d = .nav) ∧ (s.gnsCh d).band = 0 ∧ (s.gnsCh d).ant = ant ∧ s.satOf d = sys * 256 + svid := by
  simp [State.highOf, List.find?_isSome, chIds, and_assoc]

/-- A low-band channel's move to SEARCH changes no high-band one. -/
theorem highOf_move (h : ChMove (· = c) s t) (hc : c < 160) (hband : (s.gnsCh c).band ≠ 0) (hsearch : t.ch c = .search) (sys ant svid : Nat) :
    (t.highOf sys ant svid).isSome = true ↔ (s.highOf sys ant svid).isSome = true := by
  rw [isSome_highOf, isSome_highOf]
  refine exists_congr fun d => and_congr_right fun hd => ?_
  by_cases hdc : d = c
  · subst hdc
    simp [hsearch, hband]
  · rw [h.ch_ne hc hd hdc, h.ch hdc, h.satOf_ne hc hd hdc]

theorem ChMove.reduced {f : Nat → Prop} (h : ChMove f s t) (a : Nat) : t.reduced a = s.reduced a := by
  rw [State.reduced, State.reduced, h.rd_low (g := R.GNS_CTL_REDUND) (by decide), h.rd_low (g := R.GNS_STAT_ACTIVE_ANT) (by decide)]

/-- Where there was room for the satellite that a channel gives up, there is room after it has gone to another signal. -/
theorem hasRoom_move {a : Nat} (h : ChMove (· = c) s t) (hc : c < 160) (hant : (t.gnsCh c).ant ≤ 1)
    (hshare : ∀ a ≤ 1, (s.antChans a).length + 2 ≤ s.antQuota a) (hroom : s.hasRoom a (s.satOf c) = true) : t.hasRoom a (s.satOf c) = true := by
  have hgrow := antChans_grow h hc a
  have hfree : (s.antChans a).length < s.antQuota a → (t.antChans a).length < t.antQuota a := by
    intro hlt
    rw [h.antQuota]
    split at hgrow
    · rename_i ha
      have := hshare a (ha ▸ hant)
      omega
    · omega
  unfold State.hasRoom at *
  simp only [h.reduced, h.ants, h.elevOf] at hroom ⊢
  split at hroom
  · rename_i hred
    rw [if_pos hred]
    obtain ⟨h1, h2⟩ := Bool.and_eq_true_iff.1 hroom
    refine Bool.and_eq_true_iff.2 ⟨h1, Bool.or_eq_true_iff.2 ?_⟩
    rcases Bool.or_eq_true_iff.1 h2 with h2 | h2
    · exact .inl (decide_eq_true (hfree (of_decide_eq_true h2)))
    · obtain ⟨x, hx, hp⟩ := List.any_eq_true.1 h2
      have hxc : x ≠ c := fun e => by simp [e] at hp
      refine .inr (List.any_eq_true.2 ⟨x, (mem_antChans_ne h hc hxc).2 hx, ?_⟩)
      rw [h.ch hxc, h.satOf_ne hc (mem_antChans.1 hx).1 hxc]
      exact hp
  · rename_i hred
    rw [if_neg hred]
    exact decide_eq_true (hfree (of_decide_eq_true hroom))

theorem mayPlan_move {sys band ant svid : Nat} (h : ChMove (· = c) s t) (hc : c < 160) (hd : d < 160) (hdc : d ≠ c) (hant : (t.gnsCh c).ant ≤ 1)
    (hsat : s.satOf c = sys * 256 + svid) (hshare : ∀ a ≤ 1, (s.antChans a).length + 2 ≤ s.antQuota a)
    (hmay : s.mayPlan d sys band ant svid = true) : t.mayPlan d sys band ant svid = true := by
  obtain ⟨hidle, hres, hpin, hok, hprn, hroom⟩ := mayPlan_iff.1 hmay
  refine mayPlan_iff.2 ⟨(h.ch_ne hc hd hdc).trans hidle, (h.reserved d).trans hres, (h.pin d).trans hpin, (h.signalOk _ _ _).trans hok, hprn, ?_⟩
  rw [← hsat] at hroom ⊢
  exact hasRoom_move h hc hant hshare hroom

end

section
variable {s : State} {c : Fin 160}

theorem pin_applies {at_ : Nat} (hpinAt : (s.gnsCh c.val).pinAt = some at_) (hband : s.rd (R.GNS_CH_CFG_BAND c.val) = 0)
    (hok : s.signalOk (s.rd (R.GNS_CH_CFG_SYS c.val)) 0 (s.rd (R.GNS_CH_CFG_ANT c.val)) = true)
    (hprn : prnOk (s.rd (R.GNS_CH_CFG_SYS c.val)) (s.rd (R.GNS_CH_CFG_SVID c.val)) = true)
    (hshare : ∀ a ≤ 1, (s.antChans a).length + 2 ≤ s.antQuota a) :
    ∃ t, Sys2Proof.Machine.exec (.pinApply c) s = .next t ∧
      t.ch c.val = .search ∧
      t.rd (R.GNS_CH_STAT_SVID c.val) = s.rd (R.GNS_CH_CFG_SVID c.val) % 256 ∧
      (t.gnsCh c.val).pinAt = none ∧
      (t.gnsCh c.val).pinned = true ∧
      t.tick = (s.waitTs0 at_).tick ∧
      (∀ d : Fin 160, d ≠ c → s.ch d.val ≠ .idle → t.ch d.val = s.ch d.val) ∧
      (∀ d : Fin 160, d ≠ c → t.ch d.val ≠ s.ch d.val → t.ch d.val = (if (s.gnsCh c.val).band = 1 ∧
        ((s.highOf (s.gnsCh c.val).sys (s.gnsCh c.val).ant (s.rd (R.GNS_CH_STAT_SVID c.val))).isSome = true ∨ s.lowDirect (s.gnsCh c.val).ant = false)
          then .pullIn else .search) ∧ (t.gnsCh d.val).pinned = false ∧
        (t.gnsCh d.val).sys = (s.gnsCh c.val).sys ∧ (t.gnsCh d.val).band = (s.gnsCh c.val).band ∧ (t.gnsCh d.val).ant = (s.gnsCh c.val).ant ∧
        t.rd (R.GNS_CH_STAT_SVID d.val) = s.rd (R.GNS_CH_STAT_SVID c.val)) ∧
      ((s.ch c.val = .idle ∨ (s.gnsCh c.val).pinned = true) → ∀ d : Fin 160, d ≠ c → t.ch d.val = s.ch d.val) ∧
      (s.ch c.val ≠ .idle → (s.gnsCh c.val).pinned = false →
        (∃ d : Fin 160, d ≠ c ∧ s.mayPlan d.val (s.gnsCh c.val).sys (s.gnsCh c.val).band (s.gnsCh c.val).ant (s.rd (R.GNS_CH_STAT_SVID c.val)) = true) →
        ∃ d : Fin 160, d ≠ c ∧ t.ch d.val ≠ s.ch d.val) ∧
      Touches [.tick, .lanes, .gnss, .regs .gns, .watch] s t := by
  obtain ⟨v, hv⟩ : ∃ v, s.begin.waitTs0 at_ = v := ⟨_, rfl⟩
  have hrx : RxAlike s v := hv ▸ rxAlike_waitTs0 s at_
  have hheld := hrx.heldAlike
  have hch := hrx.ch
  have hkept : ∀ d, v.gnsCh d = s.gnsCh d := gnsCh_of_gnss hrx.2
  have hsvid := hrx.rdCh (key_GNS_CH_STAT_SVID c.val)
  have hcsys := hrx.rdCh (key_GNS_CH_CFG_SYS c.val)
  have hcant := hrx.rdCh (key_GNS_CH_CFG_ANT c.val)
  have hcsvid := hrx.rdCh (key_GNS_CH_CFG_SVID c.val)
  have hsharev : ∀ a ≤ 1, (v.antChans a).length + 2 ≤ v.antQuota a := fun a ha => by
    rw [hheld.antChans, hheld.antQuota]
    exact hshare a ha
  obtain ⟨u, hu⟩ : ∃ u, pinSignal c.val (freed c.val v) = u := ⟨_, rfl⟩
  have hpin : Pinned c.val v u := hu ▸ pinned_freed c.isLt ((hrx.rdCh (key_GNS_CH_CFG_BAND c.val)).trans hband)
    (by rw [hcsys, hcant, hheld.signalOk]; exact hok) (by rw [hcsys, hcsvid]; exact hprn) hsharev
  have hantle : (u.gnsCh c.val).ant ≤ 1 := by
    rw [hpin.ant]
    exact Nat.le_of_lt_succ (rd_lt v (R.GNS_CH_CFG_ANT c.val))
  have hshareu : ∀ a ≤ 1, (u.antChans a).length + 1 ≤ u.antQuota a := fun a ha => by
    have h1 := antChans_grow hpin.move c.isLt a
    have h2 := hsharev a ha
    rw [hpin.move.antQuota]
    split at h1 <;> omega
  have hsvidu : u.rd (R.GNS_CH_STAT_SVID c.val) = s.rd (R.GNS_CH_CFG_SVID c.val) % 256 :=
    (hpin.svid.trans hcsvid).trans (Nat.mod_eq_of_lt (rd_lt s (R.GNS_CH_CFG_SVID c.val))).symm
  have hothers : ∀ d : Fin 160, d ≠ c → u.ch d.val = s.ch d.val := fun d hd =>
    (hpin.move.ch_ne c.isLt d.isLt fun e => hd (Fin.ext e)).trans (hch _)
  have htick : u.tick = (s.waitTs0 at_).tick := hpin.move.tick.trans (hv ▸ (begin_waitTs0 s at_).1)
  have hrun : pinApply c.val s.begin = (if decide (s.ch c.val ≠ .idle) && !(s.gnsCh c.val).pinned then
      replan (s.gnsCh c.val).sys (s.gnsCh c.val).band (s.gnsCh c.val).ant (s.rd (R.GNS_CH_STAT_SVID c.val)) (v.codeNow c.val)
        (v.rdSigned (R.GNS_CH_DOP_DOP c.val)) u else u) := by
    have hb : (s.begin.gnsCh c.val).pinAt = some at_ := hpinAt
    rw [pinApply, hb]
    simp only [hv]
    rw [startPinned_eq, hu, hch, hkept, hsvid]
  have hcond : (s.gnsCh c.val).band = 1 → ((u.highOf (s.gnsCh c.val).sys (s.gnsCh c.val).ant (s.rd (R.GNS_CH_STAT_SVID c.val))).isSome = true ↔
      (s.highOf (s.gnsCh c.val).sys (s.gnsCh c.val).ant (s.rd (R.GNS_CH_STAT_SVID c.val))).isSome = true) := fun hb1 => by
    rw [highOf_move hpin.move c.isLt (by rw [hkept, hb1]; decide) hpin.search, isSome_highOf, isSome_highOf]
    simp only [hch, hkept, hheld.satOf]
  obtain ⟨t, e, k⟩ := go_ended_of hrun
  have htouch := touches_go e (touches_pinApply (ps := [.tick, .lanes, .gnss, .regs .gns, .watch]) _ _ (by simp) (by simp) (by simp) (by simp)
    (by simp) (touches_begin _ s))
  by_cases hused : s.ch c.val ≠ .idle ∧ (s.gnsCh c.val).pinned = false
  · rw [if_pos (by simp [hused.1, hused.2])] at k
    rcases replan_cases (s := u) (sys := (s.gnsCh c.val).sys) (band := (s.gnsCh c.val).band) (ant := (s.gnsCh c.val).ant)
      (code := v.codeNow c.val) (dop := v.rdSigned (R.GNS_CH_DOP_DOP c.val)) (svid_lt s c.val) hshareu with ⟨hno, hsame⟩ | ⟨d, hd, hidle, hplan⟩
    · rw [hsame] at k
      refine ⟨t, e, (k.ch _).trans hpin.search, (k.rdCh (key_GNS_CH_STAT_SVID _)).trans hsvidu, by rw [k.gnsCh, hpin.waits],
        by rw [k.gnsCh, hpin.pinned], k.tick.trans htick, fun d hd _ => (k.ch _).trans (hothers d hd),
        fun d hd hne => absurd ((k.ch _).trans (hothers d hd)) hne, fun _ d hd => (k.ch _).trans (hothers d hd), fun _ _ ⟨d, hdc, hmay⟩ => ?_, htouch⟩
      have hmayv : v.mayPlan d.val (s.gnsCh c.val).sys (s.gnsCh c.val).band (s.gnsCh c.val).ant (s.rd (R.GNS_CH_STAT_SVID c.val)) = true := by
        obtain ⟨h1, h2, h3, h4, h5, h6⟩ := mayPlan_iff.1 hmay
        refine mayPlan_iff.2 ⟨(hch _).trans h1, (hheld.reserved _).trans h2, ?_, (hheld.signalOk _ _ _).trans h4, h5, (hheld.hasRoom _ _).trans h6⟩
        rw [State.on, hrx.rdCh (key_GNS_CH_CFG_PIN d.val)]
        exact h3
      have hmayu := mayPlan_move hpin.move c.isLt d.isLt (fun e => hdc (Fin.ext e)) hantle (by rw [State.satOf, hkept, hsvid]) hsharev hmayv
      rw [hno d.val d.isLt] at hmayu
      exact absurd hmayu (by decide)
    · obtain ⟨r, hr⟩ : ∃ r, replan (s.gnsCh c.val).sys (s.gnsCh c.val).band (s.gnsCh c.val).ant (s.rd (R.GNS_CH_STAT_SVID c.val)) (v.codeNow c.val)
          (v.rdSigned (R.GNS_CH_DOP_DOP c.val)) u = r := ⟨_, rfl⟩
      rw [hr] at k hplan
      have hcd : c.val ≠ d := fun e => by
        rw [← e, hpin.search] at hidle
        exact absurd hidle (by decide)
      have hdc : (⟨d, hd⟩ : Fin 160) ≠ c := fun e => hcd (congrArg Fin.val e).symm
      have hdidle : s.ch d = .idle := (hothers ⟨d, hd⟩ hdc).symm.trans hidle
      have hrest : ∀ x : Fin 160, x ≠ c → x.val ≠ d → t.ch x.val = s.ch x.val := fun x hx hxd =>
        (k.ch _).trans ((hplan.move.ch_ne hd x.isLt hxd).trans (hothers x hx))
      have hstate : t.ch d = (if (s.gnsCh c.val).band = 1 ∧
          ((s.highOf (s.gnsCh c.val).sys (s.gnsCh c.val).ant (s.rd (R.GNS_CH_STAT_SVID c.val))).isSome = true ∨ s.lowDirect (s.gnsCh c.val).ant = false)
            then .pullIn else .search) := by
        rw [k.ch, hplan.state]
        refine if_congr (and_congr_right fun hb1 => ?_) rfl rfl
        rw [hcond hb1, hpin.move.lowDirect, lowDirect_congr hheld.rd]
      refine ⟨t, e, ?_, ?_, ?_, ?_, k.tick.trans (hplan.move.tick.trans htick), fun x hx hne => hrest x hx fun e => hne (e ▸ hdidle),
        fun x hx hne => ?_, fun h => absurd h (by simp [hused.1, hused.2]), fun _ _ _ => ⟨⟨d, hd⟩, hdc, ?_⟩, htouch⟩
      · rw [k.ch, hplan.move.ch_ne hd c.isLt hcd, hpin.search]
      · rw [k.rdCh (key_GNS_CH_STAT_SVID _), hplan.move.rd_ch (fun _ e => e ▸ chBase_of_lt hd c.isLt hcd.symm) (key_GNS_CH_STAT_SVID _) (by decide), hsvidu]
      · rw [k.gnsCh, hplan.move.ch hcd, hpin.waits]
      · rw [k.gnsCh, hplan.move.ch hcd, hpin.pinned]
      · have hxd : x.val = d := by_contra fun h => hne (hrest x hx h)
        rw [hxd, k.gnsCh, k.rdCh (key_GNS_CH_STAT_SVID d)]
        exact ⟨hstate, hplan.pinned, hplan.sys, hplan.band, hplan.ant, hplan.svid⟩
      · show t.ch d ≠ s.ch d
        rw [hstate, hdidle]
        split <;> decide
  · have hnot : ¬(decide (s.ch c.val ≠ .idle) && !(s.gnsCh c.val).pinned) = true := by
      simpa using hused
    rw [if_neg hnot] at k
    exact ⟨t, e, (k.ch _).trans hpin.search, (k.rdCh (key_GNS_CH_STAT_SVID _)).trans hsvidu, by rw [k.gnsCh, hpin.waits],
      by rw [k.gnsCh, hpin.pinned], k.tick.trans htick, fun d hd _ => (k.ch _).trans (hothers d hd),
      fun d hd hne => absurd ((k.ch _).trans (hothers d hd)) hne, fun _ d hd => (k.ch _).trans (hothers d hd),
      fun h1 h2 => absurd ⟨h1, h2⟩ hused, htouch⟩

/-- Settles O20. -/
theorem gnssChannels : Obligations.GnssChannels := by
  refine ⟨fun s c sys low ant svid h1 h2 h3 h4 h5 h6 h7 h8 => signal_assigned h1 h2 h3 h4 h5 h6 h7 h8,
    fun s c sys low ant svid h1 h2 h3 => signal_replaces h1 h2 h3, fun s c sys low ant svid h => signal_not_planned h,
    fun s c h1 h2 h3 => channel_taken_back h1 h2 h3, fun s c cn0 dop code h => signal_detected h, fun s c h => search_ends h,
    fun s c cn0 dop code l h1 h2 => locks_alone h1 h2, fun s c cn0 dop code named l h1 h2 h3 h4 h5 => locks_and_hands h1 h2 h3 h4 h5,
    fun s c h => pullIn_times_out h, fun s c h => nav_synced h, fun s c h => row_moves (if_pos h), fun s c h => row_moves (if_pos h),
    fun s c h => lost_times_out h, fun s c w h1 h2 => pin_reserved h1 h2, fun s c w h => pin_held h,
    fun s c w h1 h2 h3 h4 h5 h6 h7 => pin_starts h1 h2 h3 h4 h5 h6 h7, fun s c w h1 h2 h3 h4 => pin_waits h1 h2 h3 h4,
    fun s c at_ h1 h2 h3 h4 h5 => pin_applies h1 h2 h3 h4 h5⟩

end

end Sys2Proof.Machine
end

section
/-! PROOFS. Navigation records in the host buffer and what they say of UTC (R131-R134, R141). -/

namespace Sys2Proof.Machine

/-! ### Bytes in an addressed buffer -/

section
variable {m : List Host.Cell} {a : Nat}

theorem writeBytes_snoc (m : List Host.Cell) (a : Nat) (bs : List Nat) (b : Nat) :
    writeBytes m a (bs ++ [b]) = writeByte (writeBytes m a bs) (a + bs.length) (BitVec.ofNat 8 b) := by
  simp [writeBytes, List.zipIdx_append]

theorem readByte_writeBytes_out {bs : List Nat} {x : Nat} (h : x < a ∨ a + bs.length ≤ x) : readByte (writeBytes m a bs) x = readByte m x := by
  induction bs using List.reverseRecOn with
  | nil => rfl
  | append_singleton bs b ih =>
    rw [List.length_append, List.length_singleton] at h
    rw [writeBytes_snoc, readByte_writeByte_ne _ _ (by omega), ih (by omega)]

theorem readByte_writeBytes_in {bs : List Nat} {i : Nat} (h : i < bs.length) :
    readByte (writeBytes m a bs) (a + i) = BitVec.ofNat 8 (bs.getD i 0) := by
  induction bs using List.reverseRecOn with
  | nil => exact absurd h (Nat.not_lt_zero _)
  | append_singleton bs b ih =>
    rw [writeBytes_snoc]
    by_cases hi : i = bs.length
    · subst hi
      rw [readByte_writeByte_same]
      simp
    · rw [List.length_append, List.length_singleton] at h
      rw [readByte_writeByte_ne _ _ (by omega), ih (by omega), List.getD_append _ _ _ _ (by omega)]

theorem length_le_bytes (n v : Nat) : (le n v).length = n := by
  induction n generalizing v with
  | zero => rfl
  | succ n ih => simp [le, ih]

end

theorem frame_set_mem {fs : List Field} {ps : List Part} {s₀ s : State} {x : List Host.Cell} (hm : Part.mem ∈ ps) (h : Frame fs ps s₀ s) :
    Frame fs ps s₀ { s with mem := x } :=
  ⟨h.1, fun p hq hr => by have := h.2.1 p hq hr; cases p <;> first | exact this | contradiction, h.2.2⟩

/-! ### A record enters the buffer (R132-R134) -/

section
variable {s : State} {c : Nat}

theorem length_navRecordBytes (s : State) (c : Nat) (inv sub3 : Bool) (cn0 t : Nat) (payload : List Nat) :
    (navRecordBytes s c inv sub3 cn0 t payload).length = 128 := by
  simp [navRecordBytes, ktBytes, payloadBytes, length_le_bytes]

/-- The state with the record kept as its signal's newest. -/
def recordKept (c : Nat) (r : List Nat) (s : State) : State :=
  keepNav (sigCode (s.gnsCh c).sys (s.gnsCh c).band * 1024 + (s.gnsCh c).sys * 256 + s.rd (R.GNS_CH_STAT_SVID c)) r
    (s.modCh c (fun k => { k with navFirst := false }))

/-- The payload of a message unit on a channel. -/
def State.navPayloadOf (s : State) (c : Nat) (inv sub3 : Bool) (symbols : List Nat) : List Nat :=
  navPayload (sigCode (s.gnsCh c).sys (s.gnsCh c).band) inv sub3 symbols

/-- CHECK of a message unit on a channel. -/
def State.navCheckOf (s : State) (c : Nat) (inv sub3 : Bool) (symbols : List Nat) : Nat :=
  (navCheck (sigCode (s.gnsCh c).sys (s.gnsCh c).band) sub3 (s.navPayloadOf c inv sub3 symbols)).2

/-- The record taken: kept, and pushed where the host wants it. -/
def recordTaken (c : Nat) (inv sub3 : Bool) (cn0 t : Nat) (symbols : List Nat) (s : State) : State :=
  let r := navRecordBytes s c inv sub3 cn0 t (s.navPayloadOf c inv sub3 symbols)
  if s.navWanted (s.gnsCh c).sys (s.navCheckOf c inv sub3 symbols) then pushNav r (recordKept c r s) else recordKept c r s

theorem navRecord_nav {inv sub3 : Bool} {cn0 t : Nat} {symbols : List Nat} (h : s.ch c = .nav) :
    navRecord c inv sub3 cn0 t symbols none s = recordTaken c inv sub3 cn0 t symbols s := if_pos h

theorem navRecord_utc {inv sub3 : Bool} {cn0 t : Nat} {symbols : List Nat} {u : UtcWord} (h : s.ch c = .nav)
    (hcheck : s.navCheckOf c inv sub3 symbols = 1) : navRecord c inv sub3 cn0 t symbols (some u) s =
      takeUtc (s.gnsCh c).sys (s.rd (R.GNS_CH_STAT_SVID c)) u (recordTaken c inv sub3 cn0 t symbols s) := (if_pos h).trans (if_pos hcheck)

theorem frame_recordKept {fs : List Field} {ps : List Part} {s₀ : State} {r : List Nat} (hg : Part.gnss ∈ ps) (h : Frame fs ps s₀ s) :
    Frame fs ps s₀ (recordKept c r s) := frame_set_gnss hg (frame_modCh hg h)

theorem rd_recordKept (r : List Nat) (g : Field) : (recordKept c r s).rd g = s.rd g := rfl

theorem recordKept_mem (r : List Nat) : (recordKept c r s).mem = s.mem := rfl

theorem recordKept_navSeq (r : List Nat) : (recordKept c r s).gnss.navSeq = (s.gnss.navSeq + 1) % 65536 := rfl

theorem recordKept_navFirst (r : List Nat) : ((recordKept c r s).gnsCh c).navFirst = false := 
  congrArg GnsCh.navFirst (gnsCh_modCh_same s c (fun k => { k with navFirst := false }))

/-- The address of the slot that the next record takes. -/
def State.navSlot (s : State) : Nat := 0x60000 + s.rd R.GNS_NAV_WR_WR * 128

/-- A record written at its slot, GNS_NAV_WR one on. -/
def recordWritten (r : List Nat) (s : State) : State :=
  State.wr { s with mem := writeBytes s.mem s.navSlot r } R.GNS_NAV_WR_WR (s.rd R.GNS_NAV_WR_WR + 1)

/-- The oldest record lost. -/
def navLost (old : Nat) (s : State) : State :=
  let s : State := { s with gnss := { s.gnss with rdAt := some s.tick.count } }
  ((s.wr R.GNS_NAV_RD_RD (old + 1)).wr R.GNS_NAV_LOST_LOST (satNat 32 (s.rd R.GNS_NAV_LOST_LOST + 1))).raise Evt.gns 32

theorem pushNav_eq (r : List Nat) (s : State) : pushNav r s =
    if (s.rd R.GNS_NAV_WR_WR + 512 - s.rd R.GNS_NAV_RD_RD) % 512 = 511 then navLost (s.rd R.GNS_NAV_RD_RD) (recordWritten r s)
    else recordWritten r s := rfl

theorem rd_recordWritten_ne (r : List Nat) {g : Field} (h : g.key ≠ R.GNS_NAV_WR_WR.key) : (recordWritten r s).rd g = s.rd g := rd_wr_ne _ _ h

theorem navLost_mem (old : Nat) : (navLost old s).mem = s.mem := raise_mem _ _ _

theorem frame_recordWritten {fs : List Field} {ps : List Part} {s₀ : State} {r : List Nat} (hf : R.GNS_NAV_WR_WR ∈ fs) (hm : Part.mem ∈ ps)
    (h : Frame fs ps s₀ s) : Frame fs ps s₀ (recordWritten r s) := frame_wr hf (frame_set_mem hm h)

theorem frame_navLost {fs : List Field} {ps : List Part} {s₀ : State} {old : Nat} (h1 : R.GNS_NAV_RD_RD ∈ fs) (h2 : R.GNS_NAV_LOST_LOST ∈ fs)
    (h3 : R.GNS_EVT_BITS ∈ fs) (hg : Part.gnss ∈ ps) (h : Frame fs ps s₀ s) : Frame fs ps s₀ (navLost old s) :=
  frame_raise h3 (frame_wr h2 (frame_wr h1 (frame_set_gnss hg h)))

/-- The slot's 128 bytes are the record's, and no other byte changes. -/
theorem recordWritten_bytes {r : List Nat} (hr : r.length = 128) :
    (∀ i : Fin 128, readByte (recordWritten r s).mem (s.navSlot + i.val) = BitVec.ofNat 8 (r.getD i.val 0)) ∧
      ∀ a, a < s.navSlot ∨ s.navSlot + 128 ≤ a → readByte (recordWritten r s).mem a = readByte s.mem a :=
  ⟨fun i => readByte_writeBytes_in (by rw [hr]; exact i.isLt), fun _ h => readByte_writeBytes_out (by rw [hr]; exact h)⟩

theorem rd_navLost (old : Nat) : (navLost old s).rd R.GNS_NAV_RD_RD = (old + 1) % 512 ∧
    (navLost old s).rd R.GNS_NAV_LOST_LOST = satNat 32 (s.rd R.GNS_NAV_LOST_LOST + 1) ∧ (navLost old s).rd R.GNS_NAV_WR_WR = s.rd R.GNS_NAV_WR_WR ∧
    bit ((navLost old s).rd R.GNS_EVT_BITS) 5 = true := by
  unfold navLost
  refine ⟨?_, ?_, ?_, bit_gnsRaise (by decide) (by decide) _⟩
  · rw [rd_raise_ne _ _ _ (by decide) (by decide), rd_wr_ne _ _ (by decide), rd_wr_same]
    rfl
  · rw [rd_raise_ne _ _ _ (by decide) (by decide), rd_wr_same]
    exact Nat.mod_eq_of_lt (satNat_lt _ _)
  · rw [rd_raise_ne _ _ _ (by decide) (by decide), rd_wr_ne _ _ (by decide), rd_wr_ne _ _ (by decide)]
    rfl

end

section
variable {s : State} {c : Fin 160} {inv sub3 : Bool} {cn0 : BitVec 16} {at_ : Nat} {symbols : List Byte}

/-- The bytes that open a record. -/
theorem navRecordBytes_head (s : State) (c : Nat) (inv sub3 : Bool) (cn0 t : Nat) (payload : List Nat) :
    (navRecordBytes s c inv sub3 cn0 t payload).getD 0 0 = 1 ∧ (navRecordBytes s c inv sub3 cn0 t payload).getD 4 0 = c ∧
      (navRecordBytes s c inv sub3 cn0 t payload).getD 6 0 = (navCheck (sigCode (s.gnsCh c).sys (s.gnsCh c).band) sub3 payload).2 := ⟨rfl, rfl, rfl⟩

theorem navCheck_lt (sig : Nat) (sub3 : Bool) (payload : List Nat) : (navCheck sig sub3 payload).2 < 256 := by
  unfold navCheck
  dsimp only
  split_ifs <;> simp

/-- A slot that holds a record opens with TYPE 1, the channel and CHECK (R131). -/
theorem record_opens {m : List Host.Cell} {base c : Nat} {inv sub3 : Bool} {cn0 t : Nat} {payload : List Nat} (hc : c < 160)
    (h : ∀ i : Fin 128, readByte m (base + i.val) = BitVec.ofNat 8 ((navRecordBytes s c inv sub3 cn0 t payload).getD i.val 0)) :
    (readByte m base).toNat = 1 ∧ (readByte m (base + 4)).toNat = c ∧
      (readByte m (base + 6)).toNat = (navCheck (sigCode (s.gnsCh c).sys (s.gnsCh c).band) sub3 payload).2 := by
  obtain ⟨h0, h4, h6⟩ := navRecordBytes_head s c inv sub3 cn0 t payload
  refine ⟨?_, ?_, ?_⟩
  · rw [show readByte m base = _ from h 0, show (navRecordBytes s c inv sub3 cn0 t payload).getD (0 : Fin 128).val 0 = 1 from h0]
    rfl
  · rw [show readByte m (base + 4) = _ from h 4, show (navRecordBytes s c inv sub3 cn0 t payload).getD (4 : Fin 128).val 0 = c from h4]
    exact (BitVec.toNat_ofNat _ _).trans (Nat.mod_eq_of_lt (by omega))
  · rw [show readByte m (base + 6) = _ from h 6, show (navRecordBytes s c inv sub3 cn0 t payload).getD (6 : Fin 128).val 0 = _ from h6]
    exact (BitVec.toNat_ofNat _ _).trans (Nat.mod_eq_of_lt (navCheck_lt _ _ _))

theorem record_pushed (hnav : s.ch c.val = .nav)
    (hwant : s.navWanted (s.gnsCh c.val).sys (s.navCheckOf c.val inv sub3 (natBytes symbols)) = true)
    (hroom : (s.rd R.GNS_NAV_WR_WR + 512 - s.rd R.GNS_NAV_RD_RD) % 512 ≠ 511) :
    ∃ t, Sys2Proof.Machine.exec (.navRecord c inv sub3 cn0 at_ symbols none) s = .next t ∧
      (∀ i : Fin 128, readByte t.mem (s.navSlot + i.val) =
        BitVec.ofNat 8 ((navRecordBytes s c.val inv sub3 cn0.toNat at_ (s.navPayloadOf c.val inv sub3 (natBytes symbols))).getD i.val 0)) ∧
      (∀ a, a < s.navSlot ∨ s.navSlot + 128 ≤ a → readByte t.mem a = readByte s.mem a) ∧
      t.rd R.GNS_NAV_WR_WR = (s.rd R.GNS_NAV_WR_WR + 1) % 512 ∧
      t.gnss.navSeq = (s.gnss.navSeq + 1) % 65536 ∧
      (readByte t.mem s.navSlot).toNat = 1 ∧
      (readByte t.mem (s.navSlot + 4)).toNat = c.val ∧
      (readByte t.mem (s.navSlot + 6)).toNat = s.navCheckOf c.val inv sub3 (natBytes symbols) ∧
      Frame [R.GNS_NAV_WR_WR] [.mem, .gnss] s t := by
  obtain ⟨r, hr⟩ : ∃ r, navRecordBytes s c.val inv sub3 cn0.toNat at_ (s.navPayloadOf c.val inv sub3 (natBytes symbols)) = r := ⟨_, rfl⟩
  have hlen : r.length = 128 := hr ▸ length_navRecordBytes _ _ _ _ _ _ _
  have htaken : recordTaken c.val inv sub3 cn0.toNat at_ (natBytes symbols) s.begin = recordWritten r (recordKept c.val r s.begin) := by
    refine (if_pos hwant).trans ((pushNav_eq _ _).trans ?_)
    rw [← hr]
    exact if_neg hroom
  obtain ⟨t, e, k⟩ := go_ended_of ((navRecord_nav (s := s.begin) (symbols := natBytes symbols) hnav).trans htaken)
  obtain ⟨hin, hout⟩ := recordWritten_bytes (s := recordKept c.val r s.begin) hlen
  have hbytes : ∀ i : Fin 128, readByte t.mem (s.navSlot + i.val) =
      BitVec.ofNat 8 ((navRecordBytes s c.val inv sub3 cn0.toNat at_ (s.navPayloadOf c.val inv sub3 (natBytes symbols))).getD i.val 0) := fun i => by
    rw [hr]
    exact (k.mem _).trans (hin i)
  obtain ⟨h0, h4, h6⟩ := record_opens c.isLt hbytes
  refine ⟨t, e, hbytes, fun a ha => (k.mem a).trans (hout a ha), ?_, ?_, h0, h4, h6, k.frame (frame_recordWritten (by simp) (by simp)
    (frame_recordKept (by simp) (frame_begin s)))⟩
  · rw [k.rd (by decide), recordWritten, rd_wr_same]
    rfl
  · rw [k.gnss]
    rfl

theorem record_pushed_full (hnav : s.ch c.val = .nav)
    (hwant : s.navWanted (s.gnsCh c.val).sys (s.navCheckOf c.val inv sub3 (natBytes symbols)) = true)
    (hfull : (s.rd R.GNS_NAV_WR_WR + 512 - s.rd R.GNS_NAV_RD_RD) % 512 = 511) :
    ∃ t, Sys2Proof.Machine.exec (.navRecord c inv sub3 cn0 at_ symbols none) s = .next t ∧
      (∀ i : Fin 128, readByte t.mem (s.navSlot + i.val) =
        BitVec.ofNat 8 ((navRecordBytes s c.val inv sub3 cn0.toNat at_ (s.navPayloadOf c.val inv sub3 (natBytes symbols))).getD i.val 0)) ∧
      (∀ a, a < s.navSlot ∨ s.navSlot + 128 ≤ a → readByte t.mem a = readByte s.mem a) ∧
      t.rd R.GNS_NAV_WR_WR = (s.rd R.GNS_NAV_WR_WR + 1) % 512 ∧
      t.rd R.GNS_NAV_RD_RD = (s.rd R.GNS_NAV_RD_RD + 1) % 512 ∧
      t.rd R.GNS_NAV_LOST_LOST = satNat 32 (s.rd R.GNS_NAV_LOST_LOST + 1) ∧
      bit (t.rd R.GNS_EVT_BITS) 5 = true ∧
      Frame [R.GNS_NAV_WR_WR, R.GNS_NAV_RD_RD, R.GNS_NAV_LOST_LOST, R.GNS_EVT_BITS] [.mem, .gnss] s t := by
  obtain ⟨r, hr⟩ : ∃ r, navRecordBytes s c.val inv sub3 cn0.toNat at_ (s.navPayloadOf c.val inv sub3 (natBytes symbols)) = r := ⟨_, rfl⟩
  have hlen : r.length = 128 := hr ▸ length_navRecordBytes _ _ _ _ _ _ _
  obtain ⟨x, hx⟩ : ∃ x, recordWritten r (recordKept c.val r s.begin) = x := ⟨_, rfl⟩
  have htaken : recordTaken c.val inv sub3 cn0.toNat at_ (natBytes symbols) s.begin = navLost (s.rd R.GNS_NAV_RD_RD) x := by
    refine (if_pos hwant).trans ((pushNav_eq _ _).trans ?_)
    rw [← hx, ← hr]
    exact if_pos hfull
  obtain ⟨t, e, k⟩ := go_ended_of ((navRecord_nav (s := s.begin) (symbols := natBytes symbols) hnav).trans htaken)
  obtain ⟨hin, hout⟩ := recordWritten_bytes (s := recordKept c.val r s.begin) hlen
  obtain ⟨hrd, hlost, hwr, hevt⟩ := rd_navLost (s := x) (s.rd R.GNS_NAV_RD_RD)
  have hmem : ∀ a, readByte t.mem a = readByte x.mem a := fun a => by rw [k.mem, navLost_mem]
  refine ⟨t, e, fun i => ?_, fun a ha => ?_, ?_, (k.rd (by decide)).trans hrd, ?_, ?_, k.frame (frame_navLost (by simp) (by simp) (by simp) (by simp)
    (hx ▸ frame_recordWritten (by simp) (by simp) (frame_recordKept (by simp) (frame_begin s))))⟩
  · rw [hr, hmem, ← hx]
    exact hin i
  · rw [hmem, ← hx]
    exact hout a ha
  · rw [k.rd (by decide), hwr, ← hx, recordWritten, rd_wr_same]
    rfl
  · rw [k.rd (by decide), hlost, ← hx, rd_recordWritten_ne _ (by decide)]
    rfl
  · rw [k.rd side_GNS_EVT_BITS]
    exact hevt

theorem record_not_wanted (hnav : s.ch c.val = .nav)
    (hwant : s.navWanted (s.gnsCh c.val).sys (s.navCheckOf c.val inv sub3 (natBytes symbols)) = false) :
    ∃ t, Sys2Proof.Machine.exec (.navRecord c inv sub3 cn0 at_ symbols none) s = .next t ∧
      t.gnss.navSeq = (s.gnss.navSeq + 1) % 65536 ∧
      (t.gnsCh c.val).navFirst = false ∧
      Frame [] [.gnss] s t := by
  obtain ⟨r, hr⟩ : ∃ r, navRecordBytes s.begin c.val inv sub3 cn0.toNat at_ (s.begin.navPayloadOf c.val inv sub3 (natBytes symbols)) = r := ⟨_, rfl⟩
  have htaken : recordTaken c.val inv sub3 cn0.toNat at_ (natBytes symbols) s.begin = recordKept c.val r s.begin := by
    rw [← hr]
    exact if_neg (by rw [show s.begin.navWanted (s.begin.gnsCh c.val).sys (s.begin.navCheckOf c.val inv sub3 (natBytes symbols)) = false from hwant]; decide)
  obtain ⟨t, e, k⟩ := go_ended_of ((navRecord_nav (s := s.begin) (symbols := natBytes symbols) hnav).trans htaken)
  refine ⟨t, e, ?_, ?_, k.frame (frame_recordKept (by simp) (frame_begin s))⟩
  · rw [k.gnss, recordKept_navSeq]
    rfl
  · rw [k.gnsCh, recordKept_navFirst]

end

end Sys2Proof.Machine
end

section
/-! PROOFS. TAI - UTC as three satellites broadcast it, and the ends of a solution and of the spoofing indication (R140, R141, R146). -/

namespace Sys2Proof.Machine

section
variable {s : State} {c : Nat}

/-! ### A value of TAI - UTC that 3 satellites agree on (R141) -/

/-- The fields a record in the buffer may change. -/
abbrev navFields : List Field := [R.GNS_NAV_WR_WR, R.GNS_NAV_RD_RD, R.GNS_NAV_LOST_LOST, R.GNS_EVT_BITS]

theorem frame_recordTaken (inv sub3 : Bool) (cn0 t : Nat) (symbols : List Nat) : Frame navFields [.mem, .gnss] s (recordTaken c inv sub3 cn0 t symbols s) := by
  have hkept : ∀ r, Frame navFields [.mem, .gnss] s (recordKept c r s) := fun r => frame_recordKept (by simp) (Frame.refl _ _ s)
  have hwritten : ∀ r, Frame navFields [.mem, .gnss] s (recordWritten r (recordKept c r s)) := fun r => frame_recordWritten (by simp) (by simp) (hkept r)
  unfold recordTaken
  refine frame_ite ?_ (hkept _)
  rw [pushNav_eq]
  exact frame_ite (frame_navLost (by simp) (by simp) (by simp) (by simp) (hwritten _)) (hwritten _)

theorem recordTaken_utc (inv sub3 : Bool) (cn0 t : Nat) (symbols : List Nat) :
    (recordTaken c inv sub3 cn0 t symbols s).gnss.utc = s.gnss.utc ∧ (recordTaken c inv sub3 cn0 t symbols s).gnss.utcHeard = s.gnss.utcHeard := by
  unfold recordTaken
  dsimp only
  split
  · rw [pushNav_eq]
    split
    · rw [navLost, raise_gnss]
      exact ⟨rfl, rfl⟩
    · exact ⟨rfl, rfl⟩
  · exact ⟨rfl, rfl⟩

/-- The indications of an accepted value without an announced change. -/
def utcShown (cur : Int) (s : State) : State :=
  let s := (s.wr R.GNS_UTC_TAI_UTC (ofSigned 8 cur)).wr R.GNS_UTC_TAI_UTC_F (ofSigned 8 0)
  (s.hi R.GNS_UTC_VALID).wr R.GNS_UTC_ANNOUNCED (b01 false)

/-- What UTC_AUTO makes of it. -/
def utcApplied (cur : Int) (s : State) : State :=
  if s.on R.GNS_CTL_UTC_AUTO then
    if !s.on R.TSC_UTC_OFS_VALID then writeUtcOfs (ofSigned 16 cur * 2 ^ R.TSC_UTC_OFS_OFS.lsb) s
    else if s.utcOfs ≠ cur ∧ s.inLeap = false then s.raise Evt.gns 512
    else s
  else s

theorem acceptUtc_plain (cur : Int) (s : State) : acceptUtc { cur := cur } s = utcApplied cur (utcShown cur s) := rfl

theorem rd_utcShown (cur : Int) (s : State) : (utcShown cur s).rd R.GNS_UTC_TAI_UTC = ofSigned 8 cur ∧ (utcShown cur s).rd R.GNS_UTC_VALID = 1 ∧
    (utcShown cur s).rd R.GNS_UTC_ANNOUNCED = 0 := by
  unfold utcShown
  refine ⟨?_, ?_, ?_⟩
  · rw [rd_wr_ne _ _ (by decide), rd_hi_ne _ (by decide), rd_wr_ne _ _ (by decide), rd_wr_same]
    exact Nat.mod_eq_of_lt (ofSigned_lt _ _)
  · rw [rd_wr_ne _ _ (by decide), rd_hi_same]
    rfl
  · rw [rd_wr_same]
    rfl

theorem rd_utcShown_ne (cur : Int) (s : State) {g : Field} (hg : g.key < 0x40010 * 32 ∨ 0x40014 * 32 ≤ g.key) : (utcShown cur s).rd g = s.rd g := by
  have hk : R.GNS_UTC_TAI_UTC.key = 0x40010 * 32 ∧ R.GNS_UTC_TAI_UTC_F.key = 0x40010 * 32 + 8 ∧ R.GNS_UTC_VALID.key = 0x40010 * 32 + 16 ∧
      R.GNS_UTC_ANNOUNCED.key = 0x40010 * 32 + 17 := ⟨rfl, rfl, rfl, rfl⟩
  obtain ⟨h1, h2, h3, h4⟩ := hk
  unfold utcShown
  rw [rd_wr_ne _ _ (by omega), rd_hi_ne _ (by omega), rd_wr_ne _ _ (by omega), rd_wr_ne _ _ (by omega)]

/-- A written offset: the registers of TSC alone. -/
theorem rd_writeUtcOfs_ne (w : Nat) (s : State) {g : Field} (h : ∀ f ∈ [R.TSC_UTC_OFS_OFS, R.TSC_UTC_OFS_VALID, R.TSC_LEAP_CTL_REFUSED], g.key ≠ f.key) :
    (writeUtcOfs w s).rd g = s.rd g := by
  unfold writeUtcOfs
  split
  · exact rd_hi_ne _ (h _ (by simp))
  · rw [rd_forgetPast, rd_hi_ne _ (h _ (by simp)), rd_storeReg_ne]
    intro f hf
    refine h f ?_
    simp only [Reg.TSC_UTC_OFS, List.mem_cons, List.not_mem_nil, or_false] at hf
    rcases hf with rfl | rfl <;> simp

theorem writeUtcOfs_gnss (w : Nat) (s : State) : (writeUtcOfs w s).gnss = s.gnss := by
  unfold writeUtcOfs
  split
  · rfl
  · exact storeReg_gnss _ _ _ _

theorem utcApplied_gnss (cur : Int) (s : State) : (utcApplied cur s).gnss = s.gnss := by
  unfold utcApplied
  split
  · split
    · exact writeUtcOfs_gnss _ _
    · split
      · exact raise_gnss _ _ _
      · rfl
  · rfl

theorem rd_utcApplied_ne (cur : Int) (s : State) {g : Field} (hside : g.side = false) (he : g.key ≠ R.GNS_EVT_BITS.key)
    (h : ∀ f ∈ [R.TSC_UTC_OFS_OFS, R.TSC_UTC_OFS_VALID, R.TSC_LEAP_CTL_REFUSED], g.key ≠ f.key) : (utcApplied cur s).rd g = s.rd g := by
  unfold utcApplied
  split
  · split
    · exact rd_writeUtcOfs_ne _ _ h
    · split
      · exact rd_raise_ne _ _ _ he hside
      · rfl
  · rfl

/-- The offset is taken where none is valid and no leap is armed. -/
theorem utcApplied_ofs (cur : Int) {s : State} (hauto : s.rd R.GNS_CTL_UTC_AUTO = 1) (hvalid : s.rd R.TSC_UTC_OFS_VALID ≠ 1)
    (harmed : s.rd R.TSC_LEAP_CTL_ARMED ≠ 1) :
    (utcApplied cur s).rd R.TSC_UTC_OFS_OFS = ofSigned 16 cur ∧ (utcApplied cur s).rd R.TSC_UTC_OFS_VALID = 1 := by
  have hoff : ¬s.on R.TSC_LEAP_CTL_ARMED = true := by rw [State.on, decide_eq_true_eq]; exact harmed
  have hno : (!s.on R.TSC_UTC_OFS_VALID) = true := by simp [State.on, hvalid]
  have hof : R.TSC_UTC_OFS_OFS.of (ofSigned 16 cur * 2 ^ R.TSC_UTC_OFS_OFS.lsb) = ofSigned 16 cur := by
    have := ofSigned_lt 16 cur
    simp only [Field.of, R.TSC_UTC_OFS_OFS, Field.mk']
    omega
  rw [utcApplied, if_pos (on_of_rd hauto), if_pos hno, writeUtcOfs, if_neg hoff, rd_forgetPast, rd_forgetPast]
  refine ⟨?_, rd_hi_same _ _⟩
  rw [rd_hi_ne _ (by decide), rd_storeReg_rw _ _ _ _ (by decide) rfl (by decide), hof]

/-- A valid offset stays. -/
theorem utcApplied_valid (cur : Int) {s : State} (hvalid : s.rd R.TSC_UTC_OFS_VALID = 1) :
    (utcApplied cur s).rd R.TSC_UTC_OFS_OFS = s.rd R.TSC_UTC_OFS_OFS := by
  have hyes : ¬(!s.on R.TSC_UTC_OFS_VALID) = true := by simp [State.on, hvalid]
  unfold utcApplied
  rw [if_neg hyes]
  split
  · split
    · exact rd_raise_ne _ _ _ (by decide) (by decide)
    · rfl
  · rfl

/-- The satellites of REF_SYS heard, the newest first. -/
def State.utcSats (s : State) (sys sat : Nat) : List Nat := sat :: s.gnss.utcHeard.filter (fun v => v ≠ sat && v / 256 = sys)

/-- The parameters of a satellite kept. -/
def utcKept (sys sat : Nat) (p : UtcParams) (s : State) : State :=
  { s with gnss := { s.gnss with utc := IMap.put {} s.gnss.utc sat p, utcHeard := s.utcSats sys sat } }

/-- Three satellites that agree. -/
theorem takeUtc_agreed {svid : Nat} {dt : Int}
    (h : (((s.utcSats s.refSys (s.refSys * 256 + svid)).filter (fun v => v = s.refSys * 256 + svid ∨
      IMap.get {} s.gnss.utc v = { cur := dt + (if s.refSys = 2 then 33 else 19) })).length ≥ 3)) :
    takeUtc s.refSys svid ⟨dt, none⟩ s = acceptUtc { cur := dt + (if s.refSys = 2 then 33 else 19) }
      (utcKept s.refSys (s.refSys * 256 + svid) { cur := dt + (if s.refSys = 2 then 33 else 19) } s) := by
  refine (if_pos rfl).trans (if_pos ?_)
  refine h.trans_eq (congrArg List.length (List.filter_congr fun v _ => ?_))
  refine decide_eq_decide.2 ?_
  by_cases hv : v = s.refSys * 256 + svid
  · subst hv
    simp [IMap.get_put_same]
  · simp only [hv, false_or]
    exact (congrArg (· = _) (IMap.get_put_ne _ _ _ hv)).to_iff.symm

end

section
variable {s : State} {c : Fin 160} {inv sub3 : Bool} {cn0 : BitVec 16} {at_ : Nat} {symbols : List Byte}

theorem utc_agreed {dt : Int} (hnav : s.ch c.val = .nav) (hsys : (s.gnsCh c.val).sys = s.refSys)
    (hcheck : s.navCheckOf c.val inv sub3 (natBytes symbols) = 1)
    (hthree : (((s.utcSats s.refSys (s.refSys * 256 + s.rd (R.GNS_CH_STAT_SVID c.val))).filter (fun v => v = s.refSys * 256 + s.rd (R.GNS_CH_STAT_SVID c.val) ∨
      IMap.get {} s.gnss.utc v = { cur := dt + (if s.refSys = 2 then 33 else 19) })).length ≥ 3)) :
    ∃ t, Sys2Proof.Machine.exec (.navRecord c inv sub3 cn0 at_ symbols (some ⟨dt, none⟩)) s = .next t ∧
      IMap.get {} t.gnss.utc (s.refSys * 256 + s.rd (R.GNS_CH_STAT_SVID c.val)) = { cur := dt + (if s.refSys = 2 then 33 else 19) } ∧
      t.rd R.GNS_UTC_TAI_UTC = ofSigned 8 (dt + (if s.refSys = 2 then 33 else 19)) ∧
      t.rd R.GNS_UTC_VALID = 1 ∧
      t.rd R.GNS_UTC_ANNOUNCED = 0 ∧
      (s.rd R.GNS_CTL_UTC_AUTO = 1 → s.rd R.TSC_UTC_OFS_VALID ≠ 1 → s.rd R.TSC_LEAP_CTL_ARMED ≠ 1 →
        t.rd R.TSC_UTC_OFS_OFS = ofSigned 16 (dt + (if s.refSys = 2 then 33 else 19)) ∧ t.rd R.TSC_UTC_OFS_VALID = 1) ∧
      (s.rd R.TSC_UTC_OFS_VALID = 1 → t.rd R.TSC_UTC_OFS_OFS = s.rd R.TSC_UTC_OFS_OFS) ∧
      Touches [.mem, .tick, .gnss, .regs .tsc, .regs .gns] s t := by
  obtain ⟨sat, hsat⟩ : ∃ sat, s.refSys * 256 + s.rd (R.GNS_CH_STAT_SVID c.val) = sat := ⟨_, rfl⟩
  obtain ⟨cur, hcur⟩ : ∃ cur, dt + (if s.refSys = 2 then 33 else 19) = cur := ⟨_, rfl⟩
  obtain ⟨x, hx⟩ : ∃ x, recordTaken c.val inv sub3 cn0.toNat at_ (natBytes symbols) s.begin = x := ⟨_, rfl⟩
  have hframe : Frame navFields [.mem, .gnss] s.begin x := hx ▸ frame_recordTaken _ _ _ _ _
  have hxrd : ∀ {g : Field}, (∀ f ∈ navFields, g.key ≠ f.key) → g.side = false → x.rd g = s.rd g := fun h hs => hframe.rd h hs
  obtain ⟨hutc, hheard⟩ := hx ▸ recordTaken_utc (s := s.begin) (c := c.val) inv sub3 cn0.toNat at_ (natBytes symbols)
  have href : x.refSys = s.refSys := by rw [State.refSys, State.refSys, hxrd (by decide) (by decide)]
  have hrun : navRecord c.val inv sub3 cn0.toNat at_ (natBytes symbols) (some ⟨dt, none⟩) s.begin =
      utcApplied cur (utcShown cur (utcKept s.refSys sat { cur := cur } x)) := by
    have hsys' : (s.begin.gnsCh c.val).sys = x.refSys := hsys.trans href.symm
    rw [navRecord_utc (s := s.begin) hnav hcheck, hsys', hx, takeUtc_agreed, href, hcur, show s.begin.rd (R.GNS_CH_STAT_SVID c.val) = s.rd _ from rfl, hsat,
      acceptUtc_plain]
    rw [State.utcSats, href, hutc, hheard]
    exact hthree
  obtain ⟨t, e, k⟩ := go_ended_of hrun
  obtain ⟨z, hz⟩ : ∃ z, utcShown cur (utcKept s.refSys sat { cur := cur } x) = z := ⟨_, rfl⟩
  obtain ⟨htai, hvalid, hann⟩ := hz ▸ rd_utcShown cur (utcKept s.refSys sat { cur := cur } x)
  have hzrd : ∀ {g : Field}, (g.key < 0x40010 * 32 ∨ 0x40014 * 32 ≤ g.key) → (∀ f ∈ navFields, g.key ≠ f.key) → g.side = false → z.rd g = s.rd g :=
    fun h1 h2 h3 => hz ▸ (rd_utcShown_ne _ _ h1).trans (hxrd h2 h3)
  rw [hz] at k
  rw [hsat, hcur]
  refine ⟨t, e, ?_, ?_, ?_, ?_, fun h1 h2 h3 => ?_, fun h => ?_, touches_go e (touches_navRecord _ _ _ _ _ _ _ _ (by simp) (by simp) (by simp) (by simp)
    (by simp) (touches_begin _ s))⟩
  · rw [k.gnss, utcApplied_gnss, ← hz]
    exact IMap.get_put_same ({} : UtcParams) x.gnss.utc sat { cur := cur }
  · rw [k.rd (by decide), rd_utcApplied_ne _ _ (by decide) (by decide) (by decide), htai]
  · rw [k.rd (by decide), rd_utcApplied_ne _ _ (by decide) (by decide) (by decide), hvalid]
  · rw [k.rd (by decide), rd_utcApplied_ne _ _ (by decide) (by decide) (by decide), hann]
  · rw [k.rd (by decide), k.rd (by decide)]
    exact utcApplied_ofs cur ((hzrd (by decide) (by decide) (by decide)).trans h1) (by rw [hzrd (by decide) (by decide) (by decide)]; exact h2)
      (by rw [hzrd (by decide) (by decide) (by decide)]; exact h3)
  · rw [k.rd (by decide), utcApplied_valid cur ((hzrd (by decide) (by decide) (by decide)).trans h), hzrd (by decide) (by decide) (by decide)]

end

/-! ### A solution is delivered, or discarded (R140, R146) -/

section
variable {s : State} {a : Fin 2}

theorem solution_delivered {p : Stamp} {x : Int} (hready : (s.gnsAnt a.val).ready = some (p, x)) (htime : s.clk ≤ p.clk + ms16 60) :
    ∃ t, Sys2Proof.Machine.exec (.solutionDelivery a) s = .next t ∧
      (t.gnsAnt a.val).ready = none ∧
      (t.slot a.val).inbox.dropLast = (s.slot a.val).inbox ∧
      ((t.slot a.val).inbox.getLast? = some { t := p.clk, x := x + (if (s.slot a.val).set = 1 then p.d else 0), k := p.k, u := p.k - ((p.t : Int) - x), d := p.d, dly := 0, spoof := decide (s.rd (R.GNS_SOL_FLAGS_SPOOF a.val) = 1) }) ∧
      Frame [] [.ens, .gnss] s t := by
  have hrun : solutionDelivery a.val s.begin =
      deliver a.val p x 0 (s.begin.on (R.GNS_SOL_FLAGS_SPOOF a.val)) (s.begin.modAnt a.val (fun k => { k with ready := none })) := by
    have hb : (s.begin.gnsAnt a.val).ready = some (p, x) := hready
    rw [solutionDelivery, hb]
    exact if_pos htime
  have htb : timeBearing a.val = true := by
    have : a.val = 0 ∨ a.val = 1 := by omega
    rcases this with h | h <;> rw [h] <;> rfl
  obtain ⟨t, e, k⟩ := go_ended_of hrun
  have hinbox : (t.slot a.val).inbox = (s.slot a.val).inbox ++ [{ t := p.clk, x := x + (if (s.slot a.val).set = 1 then p.d else 0), k := p.k, u := p.k - ((p.t : Int) - x), d := p.d, dly := 0, spoof := decide (s.rd (R.GNS_SOL_FLAGS_SPOOF a.val) = 1) }] := by
    rw [slot_of_ens k.ens, deliver, slot_modSlot_same, htb]
    rfl
  refine ⟨t, e, ?_, ?_, ?_, k.frame (frame_set_ens (by simp) (frame_modAnt (by simp) (frame_begin s)))⟩
  · rw [gnsAnt_of_gnss k.gnss]
    exact congrArg GnsAnt.ready (gnsAnt_modAnt_same _ _ _)
  · rw [hinbox, List.dropLast_concat]
  · rw [hinbox, List.getLast?_concat]

/-- An antenna's bit of a field of two, cleared and set. -/
theorem antBit_cleared (m : Fin 4) (a : Fin 2) : bit ((m.val - (if bit m.val a.val then 2 ^ a.val else 0)) % 4) a.val = false := by decide +revert

theorem antBit_taken (m : Fin 4) (a : Fin 2) (h : bit m.val a.val = true) : bit ((m.val - 2 ^ a.val) % 4) a.val = false := by decide +revert

theorem antBit_set (m : Fin 4) (a : Fin 2) : bit ((m.val - (if bit m.val a.val then 2 ^ a.val else 0) + 2 ^ a.val) % 4) a.val = true := by decide +revert

/-- A discarded solution. -/
theorem discardSol_leaves (a : Fin 2) (e : Nat) (s : State) :
    let t := discardSol a.val e s
    (t.gnsAnt a.val).ready = none ∧ (t.gnsAnt a.val).epoch = some (e / 65536000000000) ∧ bit (t.rd R.GNS_EVT_BITS) 6 = true ∧
      bit (t.rd R.GNS_STAT_SOL) a.val = false ∧ t.tick = s.tick := by
  intro t
  have hant : t.gnsAnt a.val = { s.gnsAnt a.val with ready := none, validFrom := none, epoch := some (e / 65536000000000) } := by
    show (discardSol a.val e s).gnsAnt a.val = _
    rw [discardSol, gnsAnt_of_gnss (raise_gnss _ _ _), gnsAnt_modAnt_same]
    rfl
  refine ⟨by rw [hant], by rw [hant], bit_gnsRaise (by decide) (by decide) _, ?_, raise_tick _ _ _⟩
  show bit ((discardSol a.val e s).rd R.GNS_STAT_SOL) a.val = false
  rw [discardSol, rd_raise_ne _ _ _ (by decide) (by decide), rd_modAnt, rd_wr_same]
  exact antBit_cleared ⟨s.rd R.GNS_STAT_SOL, rd_lt s R.GNS_STAT_SOL⟩ a

theorem frame_discardSol {fs : List Field} {ps : List Part} {s₀ : State} {e : Nat} (h1 : R.GNS_EVT_BITS ∈ fs) (h2 : R.GNS_STAT_SOL ∈ fs)
    (hg : Part.gnss ∈ ps) (h : Frame fs ps s₀ s) : Frame fs ps s₀ (discardSol a.val e s) := frame_raise h1 (frame_modAnt hg (frame_wr h2 h))

theorem solution_too_late {p : Stamp} {x : Int} (hready : (s.gnsAnt a.val).ready = some (p, x)) (htime : p.clk + ms16 60 < s.clk) :
    ∃ t, Sys2Proof.Machine.exec (.solutionDelivery a) s = .next t ∧
      (t.gnsAnt a.val).ready = none ∧
      bit (t.rd R.GNS_EVT_BITS) 6 = true ∧
      bit (t.rd R.GNS_STAT_SOL) a.val = false ∧
      Frame [R.GNS_EVT_BITS, R.GNS_STAT_SOL] [.gnss] s t := by
  have hrun : solutionDelivery a.val s.begin = discardSol a.val p.t s.begin := by
    have hb : (s.begin.gnsAnt a.val).ready = some (p, x) := hready
    rw [solutionDelivery, hb]
    exact if_neg (Nat.not_le.2 htime)
  obtain ⟨t, e, k⟩ := go_ended_of hrun
  obtain ⟨h1, -, h3, h4, -⟩ := discardSol_leaves a p.t s.begin
  exact ⟨t, e, by rw [gnsAnt_of_gnss k.gnss, h1], by rw [k.rd side_GNS_EVT_BITS, h3], by rw [k.rd (by decide), h4],
    k.frame (frame_discardSol (by simp) (by simp) (by simp) (frame_begin s))⟩

/-- The epoch that a missing solution belongs to. -/
def State.lateEpoch (s : State) (a : Nat) : Nat :=
  match (s.gnsAnt a).ready with
  | some r => r.1.t
  | none => s.nextEpoch a

theorem systemsAct_none (h : s.gnss.sysHeld = none) : systemsAct s = s := by rw [systemsAct, h]

theorem chMove_dropUnusable {f : Nat → Prop} {s₀ : State} (hf : ∀ c, f c) (h : ChMove f s₀ s) : ChMove f s₀ (dropUnusable s) := chMove_idleWhere hf h

theorem systemsAct_tick (s : State) : (systemsAct s).tick = s.tick := by
  unfold systemsAct
  split
  · exact (chMove_dropUnusable (f := fun _ => True) (fun _ => trivial) (ChMove.refl _ _)).tick
  · rfl

theorem solution_missing (hon : s.gnsOn = true) (huse : s.antInUse a.val = true) :
    ∃ t, Sys2Proof.Machine.exec (.solutionLate a) s = .next t ∧
      (t.gnsAnt a.val).ready = none ∧
      bit (t.rd R.GNS_EVT_BITS) 6 = true ∧
      bit (t.rd R.GNS_STAT_SOL) a.val = false ∧
      (∀ r, (s.gnsAnt a.val).ready = some r → (t.gnsAnt a.val).epoch = some (r.1.t / 65536000000000) ∧ t.tick = (s.waitTs0 (r.1.t + ms16 60)).tick) ∧
      ((s.gnsAnt a.val).ready = none → (t.gnsAnt a.val).epoch = some (s.nextEpoch a.val / 65536000000000) ∧ t.tick = (s.waitTs0 (s.nextEpoch a.val + ms16 60)).tick) ∧
      (s.gnss.sysHeld = none → Frame [R.GNS_EVT_BITS, R.GNS_STAT_SOL] [.tick, .lanes, .gnss] s t) ∧
      Touches [.tick, .lanes, .gnss, .regs .gns, .watch] s t := by
  have hrun : solutionLate a.val s.begin = discardSol a.val (s.lateEpoch a.val) (systemsAct (s.begin.waitTs0 (s.lateEpoch a.val + ms16 60))) :=
    if_pos (by rw [show s.begin.gnsOn = true from hon, show s.begin.antInUse a.val = true from huse]; rfl)
  obtain ⟨t, e, k⟩ := go_ended_of hrun
  obtain ⟨h1, h2, h3, h4, h5⟩ := discardSol_leaves a (s.lateEpoch a.val) (systemsAct (s.begin.waitTs0 (s.lateEpoch a.val + ms16 60)))
  have hepoch : (t.gnsAnt a.val).epoch = some (s.lateEpoch a.val / 65536000000000) := by rw [gnsAnt_of_gnss k.gnss, h2]
  have htick : t.tick = (s.waitTs0 (s.lateEpoch a.val + ms16 60)).tick :=
    k.tick.trans (h5.trans ((systemsAct_tick _).trans (begin_waitTs0 s _).1))
  refine ⟨t, e, by rw [gnsAnt_of_gnss k.gnss, h1], by rw [k.rd side_GNS_EVT_BITS, h3], by rw [k.rd (by decide), h4], fun r hr => ?_, fun hr => ?_,
    fun hheld => ?_, touches_go e (touches_solutionLate _ _ (by simp) (by simp) (by simp) (by simp) (by simp) (touches_begin _ s))⟩
  · rw [hepoch, htick, State.lateEpoch, hr]
    exact ⟨rfl, rfl⟩
  · rw [hepoch, htick, State.lateEpoch, hr]
    exact ⟨rfl, rfl⟩
  · refine k.frame (frame_discardSol (by simp) (by simp) (by simp) ?_)
    rw [systemsAct_none (by rw [(rxAlike_waitTs0 s _).2, hheld])]
    exact frame_waitTs0 (by simp) (by simp) (frame_begin s)

/-! ### The spoofing indication clears (R146) -/

theorem spoof_clears {from_ : Nat} (hpass : (s.gnsAnt a.val).passFrom = some from_) (hset : bit (s.rd R.GNS_STAT_SPOOF) a.val = true) :
    ∃ t, Sys2Proof.Machine.exec (.spoofClear a) s = .next t ∧
      bit (t.rd R.GNS_STAT_SPOOF) a.val = false ∧
      t.tick = (s.waitClk (from_ + sec16 (max 1 (s.rd R.GNS_SPF_CTL_CLEAR)))).tick ∧
      t.src 0 = s.src 0 ∧
      t.src 1 = s.src 1 ∧
      Frame [R.GNS_STAT_SPOOF] [.tick, .lanes] s t := by
  have hrun : spoofClear a.val s.begin = (s.begin.waitClk (from_ + sec16 (max 1 (s.rd R.GNS_SPF_CTL_CLEAR)))).wr R.GNS_STAT_SPOOF
      (s.rd R.GNS_STAT_SPOOF - 2 ^ a.val) := by
    have hb : (s.begin.gnsAnt a.val).passFrom = some from_ := hpass
    rw [spoofClear, hb]
    exact if_pos hset
  obtain ⟨t, e, k⟩ := go_ended_of hrun
  have hframe : Frame [R.GNS_STAT_SPOOF] [.tick, .lanes] s t :=
    k.frame (frame_wr (by simp) (frame_waitClk (by simp) (by simp) (frame_begin s)))
  refine ⟨t, e, ?_, ?_, ?_, ?_, hframe⟩
  · rw [k.rd (by decide), rd_wr_same]
    exact antBit_taken ⟨s.rd R.GNS_STAT_SPOOF, rd_lt s R.GNS_STAT_SPOOF⟩ a hset
  · rw [k.tick, wr_tick]
    exact begin_waitClk s _
  · rw [State.src, State.src, hframe.rd (by decide) (by decide)]
  · rw [State.src, State.src, hframe.rd (by decide) (by decide)]

end

end Sys2Proof.Machine
end

section
/-! PROOFS. What a solution is computed from: the receiver, the time and the registers (R123, R127, R135-R139, R153). -/

namespace Sys2Proof.Machine

/-- Two states that agree on the receiver, the time, and every register but overflow and pending bits. -/
structure RxTwin (s t : State) : Prop where
  rd : ∀ {g : Field}, g.side = false → t.rd g = s.rd g
  gnss : t.gnss = s.gnss
  tick : t.tick = s.tick

/-- A field reads what was written at its key. -/
theorem rd_wr_key (s : State) {f g : Field} (v : Nat) (h : g.key = f.key) :
    (s.wr f v).rd g = (((v % 2 ^ f.width) ^^^ f.reset) ^^^ g.reset) % 2 ^ g.width := by
  simp [State.rd, State.wr, RegFile.get, RegFile.set, h]

theorem rxTwin_waitTs0 (s : State) (x : Nat) : RxTwin (s.waitTs0 x) (s.begin.waitTs0 x) where
  rd := (twin_waitTs0 s x).rd
  gnss := by
    rw [(rxAlike_waitTs0 s x).2]
    exact ((touches_State_waitTs0 (ps := [.tick, .lanes]) s x (by simp) (by simp) (Touches.refl _ s)).1 .gnss (by simp)).symm
  tick := (twin_waitTs0 s x).tick

namespace RxTwin

variable {s t : State} (h : RxTwin s t)
include h

/-! ### What an epoch does to the channels keeps the agreement -/

theorem wr (f : Field) (v : Nat) : RxTwin (s.wr f v) (t.wr f v) where
  rd {g} hg := by
    by_cases hk : g.key = f.key
    · rw [rd_wr_key _ _ hk, rd_wr_key _ _ hk]
    · rw [rd_wr_ne _ _ hk, rd_wr_ne _ _ hk, h.rd hg]
  gnss := h.gnss
  tick := h.tick

theorem modCh (c : Nat) (f : GnsCh → GnsCh) : RxTwin (s.modCh c f) (t.modCh c f) where
  rd hg := h.rd hg
  gnss := by
    show (t.modCh c f).gnss = (s.modCh c f).gnss
    rw [State.modCh, State.modCh, h.gnss]
  tick := h.tick

omit h in
theorem noteFull_tick (s : State) : (noteFull s).tick = s.tick := by
  unfold noteFull
  split <;> rfl

theorem noteFull : RxTwin (noteFull s) (noteFull t) where
  rd hg := by rw [rd_noteFull, rd_noteFull, h.rd hg]
  gnss := by rw [noteFull_gnss, noteFull_gnss, h.gnss]
  tick := by rw [noteFull_tick, noteFull_tick, h.tick]

theorem clk : t.clk = s.clk := clk_congr h.tick

theorem setCh (c : Nat) (v : Ch) : RxTwin (setCh c v s) (setCh c v t) := by
  unfold Machine.setCh
  rw [h.clk]
  exact (h.noteFull.wr _ _).modCh _ _

theorem idleCh (c : Nat) : RxTwin (idleCh c s) (idleCh c t) :=
  (((((((h.setCh c .idle).wr _ 0).wr _ 0).wr _ 0).wr _ 0).wr _ 0).wr _ 0).modCh _ _

theorem low {g : Field} (hg : g.key < 0x2600000) : t.rd g = s.rd g := h.rd (Field.side_of_low hg)

theorem gnsCh (c : Nat) : t.gnsCh c = s.gnsCh c := gnsCh_of_gnss h.gnss c

theorem gnsAnt (a : Nat) : t.gnsAnt a = s.gnsAnt a := gnsAnt_of_gnss h.gnss a

theorem gnsPort (n : Nat) : t.gnsPort n = s.gnsPort n := gnsPort_of_gnss h.gnss n

theorem ch (c : Nat) : t.ch c = s.ch c := ch_of_rd (h.rd (side_of_chBase (key_GNS_CH_STAT_STATE c) (by decide)))

theorem signalOk (sys band ant : Nat) : t.signalOk sys band ant = s.signalOk sys band ant :=
  signalOk_congr (fun hg => h.low (by omega)) (by rw [h.gnss]) sys band ant

omit h in
theorem foldl {α : Type} {l : List α} {g : State → α → State} (hg : ∀ s t, ∀ x ∈ l, RxTwin s t → RxTwin (g s x) (g t x)) {s t : State}
    (h : RxTwin s t) : RxTwin (l.foldl g s) (l.foldl g t) := by
  induction l generalizing s t with
  | nil => exact h
  | cons x l ih => exact ih (fun s t y hy => hg s t y (List.mem_cons_of_mem _ hy)) (hg s t x List.mem_cons_self h)

theorem idleWhere {p : State → Nat → Bool} (hp : ∀ s t, RxTwin s t → ∀ c, p t c = p s c) : RxTwin (idleWhere p s) (idleWhere p t) := by
  refine foldl (fun s t c _ h => ?_) h
  rw [h.ch, hp s t h c]
  split
  · exact h.idleCh c
  · exact h

theorem dropUnusable : RxTwin (dropUnusable s) (dropUnusable t) :=
  h.idleWhere fun s t h c => by rw [h.gnsCh, h.signalOk]

theorem systemsAct : RxTwin (systemsAct s) (systemsAct t) := by
  unfold Machine.systemsAct
  rw [h.gnss]
  split
  · exact RxTwin.dropUnusable ⟨h.rd, rfl, h.tick⟩
  · exact h

/-! ### What a measurement comes from -/

theorem ts0 : t.ts0 = s.ts0 := by rw [State.ts0, State.ts0, h.tick]

theorem clkOf (e : Nat) : t.clkOf e = s.clkOf e := by rw [State.clkOf, State.clkOf, h.clk, h.ts0]

theorem satOf (c : Nat) : t.satOf c = s.satOf c := by
  rw [State.satOf, State.satOf, h.gnsCh, h.rd (side_of_chBase (key_GNS_CH_STAT_SVID c) (by decide))]

theorem cn0 (c : Nat) : t.rd (R.GNS_CH_STAT_CN0 c) = s.rd (R.GNS_CH_STAT_CN0 c) := h.rd (side_of_chBase (key_GNS_CH_STAT_CN0 c) (by decide))

theorem usable (a band : Nat) (v : GnssSat) : t.usable a band v = s.usable a band v := by
  simp only [State.usable, h.ch, h.gnsCh, h.satOf, h.cn0, h.low (g := R.GNS_MASK_CN0) (by decide)]

theorem txAt (e c : Nat) (tx : Int) : t.txAt e c tx = s.txAt e c tx := by
  simp only [State.txAt, State.chPort, State.rdSigned, h.gnsCh, h.gnsPort, h.clkOf, h.rd (side_of_chBase (key_GNS_CH_DOP_DOP c) (by decide))]

theorem measDelay (n : Nat) : t.measDelay n = s.measDelay n := by
  have h1 : ∀ n, t.rd (R.GNS_PORT_DLY_DLY n) = s.rd (R.GNS_PORT_DLY_DLY n) := fun n => h.low (by simp only [R.GNS_PORT_DLY_DLY, Field.mk']; omega)
  have h2 : ∀ n, t.rd (R.GNS_NOTCH_FREQ n) = s.rd (R.GNS_NOTCH_FREQ n) := fun n => h.low (by simp only [R.GNS_NOTCH_FREQ, Field.mk']; omega)
  have h3 : ∀ n, t.rd (R.GNS_NOTCH_CTL_ENGAGED n) = s.rd (R.GNS_NOTCH_CTL_ENGAGED n) := fun n =>
    h.low (by simp only [R.GNS_NOTCH_CTL_ENGAGED, Field.mk']; omega)
  have h4 : ∀ n, t.rd (R.GNS_NOTCH_CTL_WIDTH n) = s.rd (R.GNS_NOTCH_CTL_WIDTH n) := fun n =>
    h.low (by simp only [R.GNS_NOTCH_CTL_WIDTH, Field.mk']; omega)
  simp only [State.measDelay, State.portDelay, State.notchDelay, State.rdSigned, h1, h2, h3, h4]
  rfl

theorem excludedBit (sys svid : Nat) : t.excludedBit sys svid = s.excludedBit sys svid := by
  simp only [State.excludedBit, h.low (g := R.GNS_EXCL_GPS_X) (by decide), h.low (g := R.GNS_EXCL_GAL_LO_X) (by decide),
    h.low (g := R.GNS_EXCL_GAL_HI_X) (by decide), h.low (g := R.GNS_EXCL_BDS_LO_X) (by decide), h.low (g := R.GNS_EXCL_BDS_HI_X) (by decide),
    h.low (g := R.GNS_EXCL_QZS_X) (by decide)]

theorem useSat (a word e : Nat) (p : Int × Int × Int) (v : GnssSat) : t.useSat a word e p v = s.useSat a word e p v := by
  simp only [State.useSat, h.usable, h.txAt, h.measDelay, h.excludedBit, h.cn0, h.low (g := R.GNS_MASK_ELEV) (by decide)]

theorem usedSats (a word e : Nat) (p : Int × Int × Int) (fix : GnssFix) : t.usedSats a word e p fix = s.usedSats a word e p fix := by
  have : t.useSat a word e p = s.useSat a word e p := funext (h.useSat a word e p)
  rw [State.usedSats, State.usedSats, this]

theorem satsFrom (a word e : Nat) (p : Option (Int × Int × Int)) (fix : GnssFix) : t.satsFrom a word e p fix = s.satsFrom a word e p fix := by
  simp only [State.satsFrom, h.usedSats]

theorem solve (a word e : Nat) (known : Option (Int × Int × Int)) (fix : GnssFix) : t.solve a word e known fix = s.solve a word e known fix := by
  simp only [State.solve, h.satsFrom, h.low (g := R.GNS_SPF_THR_RES_THR) (by decide)]

theorem refAtEpoch (sec : Nat) : t.refAtEpoch sec = s.refAtEpoch sec := by
  simp only [State.refAtEpoch, State.refWord, State.refSys, h.gnss, h.low (g := R.GNS_CTL_REF_SYS) (by decide),
    h.low (g := R.GNS_CTL_UTC_STEER) (by decide), h.low (g := R.GNS_CTL_ISB_BCAST) (by decide)]

theorem knownAt (a sec : Nat) : t.knownAt a sec = s.knownAt a sec := by
  have h1 : t.rd (R.GNS_POS_CTL_STATE a) = s.rd (R.GNS_POS_CTL_STATE a) := h.rd (side_of_antBase (key_GNS_POS_CTL_STATE a) (by decide))
  have h2 : t.rd (R.GNS_POS_CTL_MODE a) = s.rd (R.GNS_POS_CTL_MODE a) := h.rd (side_of_antBase (key_GNS_POS_CTL_MODE a) (by decide))
  have h3 : ∀ n, t.rd (R.GNS_POS_POS n) = s.rd (R.GNS_POS_POS n) := fun n => h.low (by simp only [R.GNS_POS_POS, Field.mk']; omega)
  simp only [State.knownAt, State.posKnown, State.posMode, State.posRegs, State.rdSigned, h1, h2, h3, h.gnsAnt]
  rfl

end RxTwin

end Sys2Proof.Machine
end

section
/-! PROOFS. The satellites that a solution excludes and those it keeps (R137, R139). -/

namespace Sys2Proof.Machine

section
variable {s : State} {word thr : Nat} {us l : List SatUse} {v q : SatUse}

/-- The worse of the worst so far and a satellite, by the residuals of a fit. -/
def worse (word : Nat) (us : List SatUse) (best : Option SatUse) (v : SatUse) : Option SatUse :=
  match best with
  | none => some v
  | some w => if |residual word us w| < |residual word us v| then some v else some w

/-- The worst satellite of a system beyond the threshold. -/
def worstOf (word thr : Nat) (us : List SatUse) (sys : Nat) : Option SatUse :=
  (us.filter (fun v => v.sys = sys && decide ((thr : Rat) < |residual word us v|))).foldl (worse word us) none

theorem excluded_eq (word thr : Nat) (us : List SatUse) : excluded word thr us = [0, 1, 2, 3].filterMap (worstOf word thr us) := rfl

theorem worse_cases (word : Nat) (us : List SatUse) (best : Option SatUse) (v : SatUse) :
    worse word us best v = some v ∨ worse word us best v = best := by
  unfold worse
  cases best with
  | none => exact .inl rfl
  | some w =>
    dsimp only
    split
    · exact .inl rfl
    · exact .inr rfl

/-- The worst of a list is one of it. -/
theorem mem_of_foldl_worse {best : Option SatUse} (h : l.foldl (worse word us) best = some v) : v ∈ l ∨ best = some v := by
  induction l generalizing best with
  | nil => exact .inr h
  | cons w l ih =>
    rcases ih h with hl | hw
    · exact .inl (List.mem_cons_of_mem _ hl)
    · rcases worse_cases word us best w with hc | hc
      · rw [hc] at hw
        exact .inl (List.mem_cons.2 (.inl (Option.some.inj hw).symm))
      · exact .inr (hc ▸ hw)

theorem mem_of_worstOf {sys : Nat} (h : worstOf word thr us sys = some v) : v ∈ us ∧ v.sys = sys := by
  have hm := (mem_of_foldl_worse h).resolve_right (by simp)
  obtain ⟨hus, hp⟩ := List.mem_filter.1 hm
  simp only [Bool.and_eq_true, decide_eq_true_eq] at hp
  exact ⟨hus, hp.1⟩

theorem worstOf_of_excluded (h : v ∈ excluded word thr us) : worstOf word thr us v.sys = some v := by
  rw [excluded_eq] at h
  obtain ⟨sys, -, hw⟩ := List.mem_filterMap.1 h
  rw [(mem_of_worstOf hw).2]
  exact hw

theorem mem_of_excluded (h : v ∈ excluded word thr us) : v ∈ us := (mem_of_worstOf (worstOf_of_excluded h)).1

/-- One satellite of a system at most is excluded. -/
theorem excluded_unique (hv : v ∈ excluded word thr us) (hq : q ∈ excluded word thr us) (h : v.sys = q.sys) : v = q :=
  Option.some.inj ((worstOf_of_excluded hv).symm.trans (h ▸ worstOf_of_excluded hq))

section
variable {a e : Nat} {known : Option (Int × Int × Int)} {fix : GnssFix}

theorem solve_excluded (h : v ∈ (s.solve a word e known fix).excl) :
    v ∈ s.satsFrom a word e (known.or fix.nav) fix ∧ v ∉ (s.solve a word e known fix).used := by
  refine ⟨mem_of_excluded h, fun hu => ?_⟩
  obtain ⟨-, hp⟩ := List.mem_filter.1 hu
  have hany : (s.solve a word e known fix).excl.any (fun q => q.sys = v.sys && q.svid = v.svid) = true :=
    List.any_eq_true.2 ⟨v, h, by simp⟩
  have hnot : (!(s.solve a word e known fix).excl.any (fun q => q.sys = v.sys && q.svid = v.svid)) = true := hp
  rw [hany] at hnot
  exact absurd hnot (by decide)

theorem solve_unique (hv : v ∈ (s.solve a word e known fix).excl) (hq : q ∈ (s.solve a word e known fix).excl) (h : v.sys = q.sys) : v = q :=
  excluded_unique hv hq h

/-- Made again without a position known, a solution stands at the position that the exclusions give. -/
theorem solve_again {p : Int × Int × Int} (hex : (s.solve a word e known fix).excl ≠ []) (hknown : known = none) (hagain : fix.again = some p)
    (h : v ∈ (s.solve a word e known fix).used) : v ∈ s.usedSats a word e p fix := by
  subst hknown
  obtain ⟨hm, -⟩ := List.mem_filter.1 h
  have hex' : excluded word (thr1 (s.rd R.GNS_SPF_THR_RES_THR) * 65536) (s.satsFrom a word e (none.or fix.nav) fix) ≠ [] := hex
  rw [if_neg hex', hagain] at hm
  exact hm

theorem all_dual (us : List SatUse) :
    (!us.isEmpty && us.all (·.dual)) = decide (us ≠ [] ∧ ∀ v ∈ us, v.dual = true) := by
  rw [Bool.eq_iff_iff]
  simp

end

end

end Sys2Proof.Machine
end

section
/-! PROOFS. What an epoch does before its report: the survey, the position kept and the checks (R135, R136, R145, R146). -/

namespace Sys2Proof.Machine

section
variable (a : Nat)

@[simp] theorem key_GNS_STAT_SPOOF : R.GNS_STAT_SPOOF.key = 0x40004 * 32 + 4 := rfl
@[simp] theorem key_GNS_SOL_EPOCH_LO_SEC : (R.GNS_SOL_EPOCH_LO_SEC a).key = antBase a + 640 := by
  simp only [R.GNS_SOL_EPOCH_LO_SEC, Field.mk', antBase]; omega
@[simp] theorem key_GNS_SOL_EPOCH_HI_SEC : (R.GNS_SOL_EPOCH_HI_SEC a).key = antBase a + 768 := by
  simp only [R.GNS_SOL_EPOCH_HI_SEC, Field.mk', antBase]; omega
@[simp] theorem key_GNS_SOL_OFS_LO_X : (R.GNS_SOL_OFS_LO_X a).key = antBase a + 896 := by
  simp only [R.GNS_SOL_OFS_LO_X, Field.mk', antBase]; omega
@[simp] theorem key_GNS_SOL_OFS_HI_X : (R.GNS_SOL_OFS_HI_X a).key = antBase a + 1024 := by
  simp only [R.GNS_SOL_OFS_HI_X, Field.mk', antBase]; omega
@[simp] theorem key_GNS_SOL_QUAL_SIGMA : (R.GNS_SOL_QUAL_SIGMA a).key = antBase a + 1152 := by
  simp only [R.GNS_SOL_QUAL_SIGMA, Field.mk', antBase]; omega
@[simp] theorem key_GNS_SOL_QUAL_NSV : (R.GNS_SOL_QUAL_NSV a).key = antBase a + 1168 := by
  simp only [R.GNS_SOL_QUAL_NSV, Field.mk', antBase]; omega
@[simp] theorem key_GNS_SOL_QUAL_NEXCL : (R.GNS_SOL_QUAL_NEXCL a).key = antBase a + 1176 := by
  simp only [R.GNS_SOL_QUAL_NEXCL, Field.mk', antBase]; omega
@[simp] theorem key_GNS_SOL_FLAGS_VALID : (R.GNS_SOL_FLAGS_VALID a).key = antBase a + 1280 := by
  simp only [R.GNS_SOL_FLAGS_VALID, Field.mk', antBase]; omega
@[simp] theorem key_GNS_SOL_FLAGS_DUAL : (R.GNS_SOL_FLAGS_DUAL a).key = antBase a + 1281 := by
  simp only [R.GNS_SOL_FLAGS_DUAL, Field.mk', antBase]; omega
@[simp] theorem key_GNS_SOL_FLAGS_POS_KNOWN : (R.GNS_SOL_FLAGS_POS_KNOWN a).key = antBase a + 1282 := by
  simp only [R.GNS_SOL_FLAGS_POS_KNOWN, Field.mk', antBase]; omega
@[simp] theorem key_GNS_SOL_FLAGS_NOTCH_IN_LOBE : (R.GNS_SOL_FLAGS_NOTCH_IN_LOBE a).key = antBase a + 1283 := by
  simp only [R.GNS_SOL_FLAGS_NOTCH_IN_LOBE, Field.mk', antBase]; omega
@[simp] theorem key_GNS_SOL_FLAGS_SPOOF : (R.GNS_SOL_FLAGS_SPOOF a).key = antBase a + 1284 := by
  simp only [R.GNS_SOL_FLAGS_SPOOF, Field.mk', antBase]; omega
@[simp] theorem key_GNS_SOL_FLAGS_NO_RAIM : (R.GNS_SOL_FLAGS_NO_RAIM a).key = antBase a + 1285 := by
  simp only [R.GNS_SOL_FLAGS_NO_RAIM, Field.mk', antBase]; omega
@[simp] theorem key_GNS_SOL_FLAGS_REF_CHG : (R.GNS_SOL_FLAGS_REF_CHG a).key = antBase a + 1286 := by
  simp only [R.GNS_SOL_FLAGS_REF_CHG, Field.mk', antBase]; omega
@[simp] theorem key_GNS_SOL_FLAGS_DISCONT : (R.GNS_SOL_FLAGS_DISCONT a).key = antBase a + 1287 := by
  simp only [R.GNS_SOL_FLAGS_DISCONT, Field.mk', antBase]; omega
@[simp] theorem key_GNS_SOL_FLAGS_REF_SYS : (R.GNS_SOL_FLAGS_REF_SYS a).key = antBase a + 1288 := by
  simp only [R.GNS_SOL_FLAGS_REF_SYS, Field.mk', antBase]; omega
@[simp] theorem key_GNS_SOL_FLAGS_UTC_STEER : (R.GNS_SOL_FLAGS_UTC_STEER a).key = antBase a + 1290 := by
  simp only [R.GNS_SOL_FLAGS_UTC_STEER, Field.mk', antBase]; omega
@[simp] theorem key_GNS_SOL_FLAGS_JAM : (R.GNS_SOL_FLAGS_JAM a).key = antBase a + 1291 := by
  simp only [R.GNS_SOL_FLAGS_JAM, Field.mk', antBase]; omega

end

/-- The registers of the two antennas stand apart. -/
theorem antBase_ne {a b n m : Nat} (h : a % 2 ≠ b % 2) (hn : n < 2048) (hm : m < 2048) : antBase a + n ≠ antBase b + m := by unfold antBase; omega

theorem gnsAnt_modAnt_ne (s : State) {a b : Nat} (f : GnsAnt → GnsAnt) (h : b ≠ a) : (s.modAnt a f).gnsAnt b = s.gnsAnt b := IMap.get_upd_ne _ _ _ h

section
variable {fs : List Field} {ps : List Part} {s₀ s : State} {a b e : Nat} {x : Int} {r : Solved} {fix : GnssFix} {known : Option (Int × Int × Int)}

/-! ### What the survey and the checks write -/

theorem frame_surveyEpoch {nav : Option (Int × Int × Int)} {sigma : Nat} (h1 : R.GNS_POS_CTL_STATE a ∈ fs) (h2 : R.GNS_SURV_STAT_SIGMA a ∈ fs)
    (hg : Part.gnss ∈ ps) (h : Frame fs ps s₀ s) : Frame fs ps s₀ (surveyEpoch a nav sigma s) := by
  have hbegun : Frame fs ps s₀ (if s.rd (R.GNS_POS_CTL_STATE a) = 1 then s
      else (s.wr (R.GNS_POS_CTL_STATE a) 1).modAnt a (·.newSurvey (some s.clk))) := frame_ite h (frame_modAnt hg (frame_wr h1 h))
  refine frame_ite (frame_wr h2 ?_) h
  cases nav with
  | none => exact hbegun
  | some p => exact frame_modAnt hg hbegun

theorem frame_antennaRun (hg : Part.gnss ∈ ps) (h : Frame fs ps s₀ s) : Frame fs ps s₀ (antennaRun a e x s) := by
  unfold antennaRun
  split
  · exact frame_ite (frame_set_gnss hg h) h
  · exact h

theorem frame_raiseSpoof {fails : Nat} (h1 : R.GNS_STAT_SPOOF ∈ fs) (h2 : R.GNS_EVT_BITS ∈ fs) (hl : ∀ f ∈ logFields, f ∈ fs)
    (hg : Part.gnss ∈ ps) (hlog : Part.log ∈ ps) (h : Frame fs ps s₀ s) : Frame fs ps s₀ (raiseSpoof a fails s) :=
  frame_ite (frame_modAnt hg h) (frame_logRec hl hlog (frame_raise h2 (frame_wr h1 (frame_modAnt hg h))))

/-- The fields that the survey and the checks of an epoch may write. -/
def checkFields (a : Nat) : List Field :=
  [R.GNS_POS_CTL_STATE a, R.GNS_SURV_STAT_SIGMA a, R.GNS_STAT_SPOOF, R.GNS_EVT_BITS, R.GNS_SOL_FLAGS_SPOOF (1 - a)] ++ logFields

theorem logFields_checkFields : ∀ f ∈ logFields, f ∈ checkFields a := fun _ hf => List.mem_append_right _ hf

theorem frame_checkSpoof (hg : Part.gnss ∈ ps) (hlog : Part.log ∈ ps) (he : Part.ens ∈ ps) (h : Frame (checkFields a) ps s₀ s) :
    Frame (checkFields a) ps s₀ (checkSpoof a e known r fix s) := by
  have hraise : ∀ (b fails : Nat) {u : State}, Frame (checkFields a) ps s₀ u → Frame (checkFields a) ps s₀ (raiseSpoof b fails u) :=
    fun b fails u hu => frame_raiseSpoof (by simp [checkFields]) (by simp [checkFields]) logFields_checkFields hg hlog hu
  have hother : ∀ {u : State}, Frame (checkFields a) ps s₀ u → Frame (checkFields a) ps s₀ (spoofOther (1 - a) e u) := fun hu =>
    frame_ite (frame_set_ens he (frame_hi (by simp [checkFields]) (hraise _ _ hu))) (hraise _ _ hu)
  have hown : ∀ {fails : Nat}, Frame (checkFields a) ps s₀ (if fails ≠ 0 then raiseSpoof a fails s
      else s.modAnt a (fun k => { k with passFrom := some (k.passFrom.getD (s.clkOf e)) })) := frame_ite (hraise _ _ h) (frame_modAnt hg h)
  unfold checkSpoof
  dsimp only
  split
  · exact hother hown
  · exact hown

/-- A register that the survey and the checks leave. -/
theorem notCheckField {g : Field} (hlog : ∀ f ∈ logFields, g.key ≠ f.key) (hs : g.key ≠ R.GNS_STAT_SPOOF.key) (he : g.key ≠ R.GNS_EVT_BITS.key)
    (hant : (∀ b, ∀ n < 2048, g.key ≠ antBase b + n) ∨ ∃ n, g.key = antBase a + n ∧ 640 ≤ n ∧ n < 2048) (ha : a < 2) : ∀ f ∈ checkFields a, g.key ≠ f.key := by
  intro f hf
  rcases List.mem_append.1 hf with hf | hf
  · simp only [List.mem_cons, List.not_mem_nil, or_false] at hf
    rcases hf with rfl | rfl | rfl | rfl | rfl
    · rcases hant with hant | ⟨n, hn, h1, h2⟩
      · rw [key_GNS_POS_CTL_STATE]
        exact hant _ _ (by decide)
      · rw [key_GNS_POS_CTL_STATE]
        omega
    · rcases hant with hant | ⟨n, hn, h1, h2⟩
      · rw [key_GNS_SURV_STAT_SIGMA]
        exact hant _ _ (by decide)
      · rw [key_GNS_SURV_STAT_SIGMA]
        omega
    · exact hs
    · exact he
    · rcases hant with hant | ⟨n, hn, h1, h2⟩
      · rw [key_GNS_SOL_FLAGS_SPOOF]
        exact hant _ _ (by decide)
      · rw [key_GNS_SOL_FLAGS_SPOOF, hn]
        exact antBase_ne (by omega) h2 (by decide)
  · exact hlog f hf

/-! ### The epoch an antenna is at -/

theorem epoch_modAnt {f : GnsAnt → GnsAnt} (hf : ∀ k, (f k).epoch = k.epoch) (b a : Nat) (s : State) :
    ((s.modAnt b f).gnsAnt a).epoch = (s.gnsAnt a).epoch := by
  by_cases h : a = b
  · subst h
    rw [gnsAnt_modAnt_same, hf]
  · rw [gnsAnt_modAnt_ne _ _ h]

theorem epoch_raiseSpoof (b fails a : Nat) (s : State) : ((raiseSpoof b fails s).gnsAnt a).epoch = (s.gnsAnt a).epoch := by
  unfold raiseSpoof
  dsimp only
  split
  · exact epoch_modAnt (f := fun k => { k with passFrom := none }) (fun _ => rfl) b a s
  · rw [gnsAnt_of_gnss (logRec_gnss _ _ _ _ _), gnsAnt_of_gnss (raise_gnss _ _ _), gnsAnt_of_gnss (wr_gnss _ _ _)]
    exact epoch_modAnt (f := fun k => { k with passFrom := none }) (fun _ => rfl) b a s

theorem epoch_spoofOther (b e a : Nat) (s : State) : ((spoofOther b e s).gnsAnt a).epoch = (s.gnsAnt a).epoch := by
  unfold spoofOther
  dsimp only
  split
  · exact epoch_raiseSpoof b 4 a s
  · exact epoch_raiseSpoof b 4 a s

theorem epoch_checkSpoof (b : Nat) (s : State) : ((checkSpoof a e known r fix s).gnsAnt b).epoch = (s.gnsAnt b).epoch := by
  have hown : ∀ {fails : Nat}, ((if fails ≠ 0 then raiseSpoof a fails s
      else s.modAnt a (fun k => { k with passFrom := some (k.passFrom.getD (s.clkOf e)) })).gnsAnt b).epoch = (s.gnsAnt b).epoch := by
    intro fails
    split
    · exact epoch_raiseSpoof _ _ _ _
    · exact epoch_modAnt (f := fun k => { k with passFrom := some (k.passFrom.getD (s.clkOf e)) }) (fun _ => rfl) a b s
  unfold checkSpoof
  dsimp only
  split
  · exact (epoch_spoofOther _ _ _ _).trans hown
  · exact hown

theorem gnsAnt_ite {p : Prop} [Decidable p] {u : State} {b : Nat} (h : u.gnsAnt b = s.gnsAnt b) : (if p then u else s).gnsAnt b = s.gnsAnt b := by
  split
  · exact h
  · rfl

theorem gnsAnt_antennaRun (b : Nat) (s : State) : (antennaRun a e x s).gnsAnt b = s.gnsAnt b := by
  unfold antennaRun
  split
  · exact gnsAnt_ite rfl
  · rfl

end

end Sys2Proof.Machine
end

section
/-! PROOFS. What a solution's registers report (R127, R138-R140, R143, R145, R146). -/

namespace Sys2Proof.Machine

section
variable {s : State} {a e word : Nat} {x : Int} {valid : Bool} {fix : GnssFix} {g : Field}

/-! ### A register's fields written from one word -/

theorem rd_storeWord_ne {l : List Field} (w : Nat) (h : ∀ f ∈ l, g.key ≠ f.key) (s : State) : (l.foldl (fun s f => s.wr f (f.of w)) s).rd g = s.rd g := by
  induction l generalizing s with
  | nil => rfl
  | cons f l ih => exact (ih (fun k hk => h k (List.mem_cons_of_mem _ hk)) _).trans (rd_wr_ne _ _ (h f List.mem_cons_self))

theorem rd_storeWord_mem {l : List Field} (w : Nat) (hl : l.Pairwise (fun f k => f.key ≠ k.key)) (h : g ∈ l) (s : State) :
    (l.foldl (fun s f => s.wr f (f.of w)) s).rd g = g.of w := by
  induction l generalizing s with
  | nil => exact absurd h List.not_mem_nil
  | cons f l ih =>
    obtain ⟨hf, hl⟩ := List.pairwise_cons.1 hl
    rcases List.mem_cons.1 h with rfl | h
    · exact (rd_storeWord_ne w hf _).trans ((rd_wr_same _ _ _).trans (Field.of_mod _ _))
    · exact ih hl h _

theorem solFlags_apart (a : Nat) : (Reg.GNS_SOL_FLAGS a).fields.Pairwise (fun f k => f.key ≠ k.key) := by
  simp [Reg.GNS_SOL_FLAGS]

theorem solFlags_keys (a : Nat) {f : Field} (h : f ∈ (Reg.GNS_SOL_FLAGS a).fields) : antBase a + 1280 ≤ f.key ∧ f.key < antBase a + 1292 := by
  simp only [Reg.GNS_SOL_FLAGS, List.mem_cons, List.not_mem_nil, or_false] at h
  rcases h with rfl | rfl | rfl | rfl | rfl | rfl | rfl | rfl | rfl | rfl | rfl <;> simp

/-! ### The registers of a solution -/

/-- The words of a solution before its flags. -/
def solWords (a e : Nat) (x : Int) (valid : Bool) (nsv nexcl : Nat) (fix : GnssFix) (s : State) : State :=
  let s := (s.wr (R.GNS_SOL_EPOCH_LO_SEC a) (e / 65536000000000)).wr (R.GNS_SOL_EPOCH_HI_SEC a) (e / 65536000000000 / 2 ^ 32)
  let s := if valid then (s.wr (R.GNS_SOL_OFS_LO_X a) (satBits 48 x)).wr (R.GNS_SOL_OFS_HI_X a) (satBits 48 x / 2 ^ 32) else s
  ((s.wr (R.GNS_SOL_QUAL_SIGMA a) (satNat 16 fix.sigma)).wr (R.GNS_SOL_QUAL_NSV a) (satNat 8 nsv)).wr (R.GNS_SOL_QUAL_NEXCL a) (satNat 8 nexcl)

theorem storeSolution_eq (a e : Nat) (x : Int) (valid : Bool) (nsv nexcl flags : Nat) (fix : GnssFix) (s : State) :
    storeSolution a e x valid nsv nexcl flags fix s =
      (Reg.GNS_SOL_FLAGS a).fields.foldl (fun s f => s.wr f (f.of flags)) (solWords a e x valid nsv nexcl fix s) := rfl

section
variable (nsv nexcl flags : Nat)

theorem rd_storeSolution_flag (h : g ∈ (Reg.GNS_SOL_FLAGS a).fields) : (storeSolution a e x valid nsv nexcl flags fix s).rd g = g.of flags := by
  rw [storeSolution_eq]
  exact rd_storeWord_mem flags (solFlags_apart a) h _

/-- A register that is not one of the flags. -/
theorem rd_storeSolution_word (h : ∀ n, 1280 ≤ n → n < 1292 → g.key ≠ antBase a + n) :
    (storeSolution a e x valid nsv nexcl flags fix s).rd g = (solWords a e x valid nsv nexcl fix s).rd g := by
  rw [storeSolution_eq]
  refine rd_storeWord_ne flags (fun f hf => ?_) _
  obtain ⟨h1, h2⟩ := solFlags_keys a hf
  have := h (f.key - antBase a) (by omega) (by omega)
  omega

theorem rd_solWords_epoch : (solWords a e x valid nsv nexcl fix s).rd (R.GNS_SOL_EPOCH_LO_SEC a) = e / 65536000000000 % 2 ^ 32 := by
  unfold solWords
  cases valid <;> simp [rd_wr_ne] <;> rfl

theorem rd_solWords_qual : (solWords a e x valid nsv nexcl fix s).rd (R.GNS_SOL_QUAL_NSV a) = satNat 8 nsv ∧
    (solWords a e x valid nsv nexcl fix s).rd (R.GNS_SOL_QUAL_NEXCL a) = satNat 8 nexcl := by
  unfold solWords
  refine ⟨?_, ?_⟩
  · rw [rd_wr_ne _ _ (by simp), rd_wr_same]
    exact Nat.mod_eq_of_lt (satNat_lt _ _)
  · rw [rd_wr_same]
    exact Nat.mod_eq_of_lt (satNat_lt _ _)

theorem rd_solWords_ofs : (solWords a e x true nsv nexcl fix s).rd (R.GNS_SOL_OFS_LO_X a) = satBits 48 x % 2 ^ 32 ∧
    (solWords a e x true nsv nexcl fix s).rd (R.GNS_SOL_OFS_HI_X a) = satBits 48 x / 2 ^ 32 % 2 ^ 16 := by
  unfold solWords
  refine ⟨?_, ?_⟩
  · rw [rd_wr_ne _ _ (by simp), rd_wr_ne _ _ (by simp), rd_wr_ne _ _ (by simp), if_pos rfl, rd_wr_ne _ _ (by simp), rd_wr_same]
    rfl
  · rw [rd_wr_ne _ _ (by simp), rd_wr_ne _ _ (by simp), rd_wr_ne _ _ (by simp), if_pos rfl, rd_wr_same]
    rfl

/-- What stands without a valid solution, and what is none of its registers. -/
theorem rd_solWords_ne (h : ∀ n, (640 ≤ n ∧ n < 896 ∨ 1152 ≤ n ∧ n < 1280) → g.key ≠ antBase a + n)
    (hofs : valid = true → ∀ n, 896 ≤ n → n < 1152 → g.key ≠ antBase a + n) : (solWords a e x valid nsv nexcl fix s).rd g = s.rd g := by
  have hw : ∀ (f : Field) (n v : Nat) (u : State), f.key = antBase a + n → (640 ≤ n ∧ n < 896 ∨ 1152 ≤ n ∧ n < 1280) → (u.wr f v).rd g = u.rd g :=
    fun f n v u hf hn => rd_wr_ne _ _ (hf ▸ h n hn)
  unfold solWords
  rw [hw _ _ _ _ (key_GNS_SOL_QUAL_NEXCL a) (by decide), hw _ _ _ _ (key_GNS_SOL_QUAL_NSV a) (by decide),
    hw _ _ _ _ (key_GNS_SOL_QUAL_SIGMA a) (by decide)]
  have hepoch : ((s.wr (R.GNS_SOL_EPOCH_LO_SEC a) (e / 65536000000000)).wr (R.GNS_SOL_EPOCH_HI_SEC a) (e / 65536000000000 / 2 ^ 32)).rd g = s.rd g := by
    rw [hw _ _ _ _ (key_GNS_SOL_EPOCH_HI_SEC a) (by decide), hw _ _ _ _ (key_GNS_SOL_EPOCH_LO_SEC a) (by decide)]
  cases valid with
  | false => exact hepoch
  | true =>
    rw [if_pos rfl, rd_wr_ne _ _ (by rw [key_GNS_SOL_OFS_HI_X]; exact hofs rfl _ (by decide) (by decide)),
      rd_wr_ne _ _ (by rw [key_GNS_SOL_OFS_LO_X]; exact hofs rfl _ (by decide) (by decide)), hepoch]

end

/-! ### The channels that a solution used -/

theorem rd_markUsed (used excl : List Nat) (h : ∀ c, g.key ≠ chBase c + 131 ∧ g.key ≠ chBase c + 132) (s : State) :
    (markUsed a used excl s).rd g = s.rd g := by
  have hfold : ∀ (l : List Nat) (s : State), (l.foldl (fun s c =>
      if s.ch c ≠ .idle ∧ (s.gnsCh c).ant = a then
        (s.wr (R.GNS_CH_STAT_USED c) (b01 (used.contains c))).wr (R.GNS_CH_STAT_EXCLUDED c) (b01 (excl.contains c))
      else s) s).rd g = s.rd g := by
    intro l
    induction l with
    | nil => exact fun _ => rfl
    | cons c l ih =>
      intro s
      refine (ih _).trans ?_
      show State.rd (if _ then _ else _) g = _
      split
      · rw [rd_wr_ne _ _ (by rw [key_GNS_CH_STAT_EXCLUDED]; exact (h c).2), rd_wr_ne _ _ (by rw [key_GNS_CH_STAT_USED]; exact (h c).1)]
      · rfl
  exact hfold chIds s

/-! ### The flags word -/

theorem bits_of_flags {b0 b1 b2 b3 b4 b5 b6 b7 w j : Nat} (h0 : b0 < 2) (h1 : b1 < 2) (h2 : b2 < 2) (h3 : b3 < 2) (h4 : b4 < 2) (h5 : b5 < 2) :
    let n := b0 + 2 * b1 + 4 * b2 + 8 * b3 + 16 * b4 + 32 * b5 + 64 * b6 + 128 * b7 + 256 * w + 2048 * j
    n % 2 = b0 ∧ n / 2 % 2 = b1 ∧ n / 16 % 2 = b4 ∧ n / 32 % 2 = b5 := by
  intro n
  refine ⟨?_, ?_, ?_, ?_⟩ <;> omega

theorem b01_lt (p : Bool) : b01 p < 2 := by cases p <;> decide

theorem of_solFlags (s : State) (a e word : Nat) (valid dual noRaim spoof refChg : Bool) :
    (R.GNS_SOL_FLAGS_VALID a).of (s.solFlags a e word valid dual noRaim spoof refChg) = b01 valid ∧
      (R.GNS_SOL_FLAGS_DUAL a).of (s.solFlags a e word valid dual noRaim spoof refChg) = b01 dual ∧
      (R.GNS_SOL_FLAGS_SPOOF a).of (s.solFlags a e word valid dual noRaim spoof refChg) = b01 spoof ∧
      (R.GNS_SOL_FLAGS_NO_RAIM a).of (s.solFlags a e word valid dual noRaim spoof refChg) = b01 noRaim := by
  obtain ⟨h0, h1, h4, h5⟩ := bits_of_flags (b0 := b01 valid) (b1 := b01 dual) (b2 := b01 (s.posKnown a))
    (b3 := b01 (s.notchInLobe (portOf a 0) || s.notchInLobe (portOf a 1))) (b4 := b01 spoof) (b5 := b01 noRaim) (b6 := b01 refChg)
    (b7 := b01 ([portOf a 0, portOf a 1].any (fun n => match (s.gnsPort n).notchAt with
      | some t => decide (s.clkOf e ≤ t + sec16 1)
      | none => false))) (w := word % 8) (j := b01 (bit (s.rd R.GNS_STAT_JAM) (portOf a 0) || bit (s.rd R.GNS_STAT_JAM) (portOf a 1)))
    (b01_lt _) (b01_lt _) (b01_lt _) (b01_lt _) (b01_lt _) (b01_lt _)
  exact ⟨(congrArg (· % 2) (Nat.div_one _)).trans h0, h1, h4, h5⟩

end

end Sys2Proof.Machine
end

section
/-! PROOFS. A solved epoch, from its checks to the solution that is ready for the ensemble (R127, R138-R141, R145, R146, R151). -/

namespace Sys2Proof.Machine

section
variable {s : State} {a e word : Nat} {x : Int} {valid : Bool} {fix : GnssFix} {g : Field} {r : Solved} {known : Option (Int × Int × Int)}

/-! ### The report -/

/-- The flags word of a report. -/
def reportFlags (a e word : Nat) (r : Solved) (valid : Bool) (s : State) : Nat :=
  State.solFlags (s.modAnt a (fun k => { k with refSeen := some word })) a e word valid (!r.used.isEmpty && r.used.all (·.dual))
    (decide (r.used.length < r.least + 3)) (bit (s.rd R.GNS_STAT_SPOOF) a) (match (s.gnsAnt a).refSeen with
      | some w => decide (w ≠ word)
      | none => false)

/-- A report's registers, its bit of GNS_STAT left out. -/
def reported (a e word : Nat) (r : Solved) (x : Int) (valid : Bool) (fix : GnssFix) (s : State) : State :=
  markUsed a (r.used.flatMap (·.chans)) (r.excl.flatMap (·.chans))
    (storeSolution a e x valid r.used.length r.excl.length (reportFlags a e word r valid s) fix (s.modAnt a (fun k => { k with refSeen := some word })))

theorem reportSol_eq (a e word : Nat) (r : Solved) (x : Int) (valid : Bool) (fix : GnssFix) (s : State) :
    reportSol a e word r x valid fix s = (reported a e word r x valid fix s).wr R.GNS_STAT_SOL
      ((reported a e word r x valid fix s).rd R.GNS_STAT_SOL - (if bit ((reported a e word r x valid fix s).rd R.GNS_STAT_SOL) a then 2 ^ a else 0)
        + (if valid then 2 ^ a else 0)) := rfl

theorem rd_reportSol (hk : g.key ≠ R.GNS_STAT_SOL.key) (hc : ∀ c, g.key ≠ chBase c + 131 ∧ g.key ≠ chBase c + 132) :
    (reportSol a e word r x valid fix s).rd g = (storeSolution a e x valid r.used.length r.excl.length (reportFlags a e word r valid s) fix
      (s.modAnt a (fun k => { k with refSeen := some word }))).rd g := by
  rw [reportSol_eq, rd_wr_ne _ _ hk]
  exact rd_markUsed _ _ hc _

/-- A register of an antenna is neither GNS_STAT's nor a channel's. -/
theorem antKey_apart {n : Nat} (hn : n < 2048) (hg : g.key = antBase a + n) :
    g.key ≠ R.GNS_STAT_SOL.key ∧ ∀ c, g.key ≠ chBase c + 131 ∧ g.key ≠ chBase c + 132 := by
  have h1 := antBase_ge a
  have h2 := antBase_lt a
  rw [hg, key_GNS_STAT_SOL]
  refine ⟨by omega, fun c => ?_⟩
  have h3 := chBase_ge c
  omega

theorem rd_reportSol_flag {n : Nat} (hn : n < 2048) (hg : g.key = antBase a + n) (h : g ∈ (Reg.GNS_SOL_FLAGS a).fields) :
    (reportSol a e word r x valid fix s).rd g = g.of (reportFlags a e word r valid s) := by
  obtain ⟨h1, h2⟩ := antKey_apart hn hg
  rw [rd_reportSol h1 h2, rd_storeSolution_flag _ _ _ h]

theorem rd_reportSol_flags (a e word : Nat) (r : Solved) (x : Int) (valid : Bool) (fix : GnssFix) (s : State) :
    let t := reportSol a e word r x valid fix s
    t.rd (R.GNS_SOL_FLAGS_VALID a) = b01 valid ∧
      t.rd (R.GNS_SOL_FLAGS_DUAL a) = b01 (decide (r.used ≠ [] ∧ ∀ v ∈ r.used, v.dual = true)) ∧
      t.rd (R.GNS_SOL_FLAGS_SPOOF a) = b01 (bit (s.rd R.GNS_STAT_SPOOF) a) ∧
      t.rd (R.GNS_SOL_FLAGS_NO_RAIM a) = b01 (decide (r.used.length < r.least + 3)) := by
  obtain ⟨h1, h2, h3, h4⟩ := of_solFlags (s.modAnt a (fun k => { k with refSeen := some word })) a e word valid
    (!r.used.isEmpty && r.used.all (·.dual)) (decide (r.used.length < r.least + 3)) (bit (s.rd R.GNS_STAT_SPOOF) a) (match (s.gnsAnt a).refSeen with
      | some w => decide (w ≠ word)
      | none => false)
  rw [← all_dual]
  exact ⟨(rd_reportSol_flag (by decide) (key_GNS_SOL_FLAGS_VALID a) (by simp [Reg.GNS_SOL_FLAGS])).trans h1,
    (rd_reportSol_flag (by decide) (key_GNS_SOL_FLAGS_DUAL a) (by simp [Reg.GNS_SOL_FLAGS])).trans h2,
    (rd_reportSol_flag (by decide) (key_GNS_SOL_FLAGS_SPOOF a) (by simp [Reg.GNS_SOL_FLAGS])).trans h3,
    (rd_reportSol_flag (by decide) (key_GNS_SOL_FLAGS_NO_RAIM a) (by simp [Reg.GNS_SOL_FLAGS])).trans h4⟩

theorem rd_reportSol_word {n : Nat} (hn : n < 1280) (hg : g.key = antBase a + n) : (reportSol a e word r x valid fix s).rd g =
    (solWords a e x valid r.used.length r.excl.length fix (s.modAnt a (fun k => { k with refSeen := some word }))).rd g := by
  obtain ⟨h1, h2⟩ := antKey_apart (Nat.lt_trans hn (by decide)) hg
  rw [rd_reportSol h1 h2, rd_storeSolution_word _ _ _ fun m _ _ => by omega]

/-- A register that no report writes. -/
theorem rd_reportSol_ne (hk : g.key ≠ R.GNS_STAT_SOL.key) (hc : ∀ c, g.key ≠ chBase c + 131 ∧ g.key ≠ chBase c + 132)
    (ha : ∀ n < 2048, g.key ≠ antBase a + n) : (reportSol a e word r x valid fix s).rd g = s.rd g := by
  rw [rd_reportSol hk hc, rd_storeSolution_word _ _ _ fun n _ _ => ha n (by omega),
    rd_solWords_ne _ _ (fun n _ => ha n (by omega)) fun _ n _ _ => ha n (by omega)]
  rfl

theorem bit_reportSol (a : Fin 2) (e word : Nat) (r : Solved) (x : Int) (valid : Bool) (fix : GnssFix) (s : State) :
    bit ((reportSol a.val e word r x valid fix s).rd R.GNS_STAT_SOL) a.val = valid := by
  obtain ⟨u, hu⟩ : ∃ u, reported a.val e word r x valid fix s = u := ⟨_, rfl⟩
  rw [reportSol_eq, hu, rd_wr_same]
  cases valid with
  | true => exact antBit_set ⟨u.rd R.GNS_STAT_SOL, rd_lt u R.GNS_STAT_SOL⟩ a
  | false => exact antBit_cleared ⟨u.rd R.GNS_STAT_SOL, rd_lt u R.GNS_STAT_SOL⟩ a

theorem epoch_reportSol (b : Nat) : ((reportSol a e word r x valid fix s).gnsAnt b).epoch = (s.gnsAnt b).epoch := by
  have hgnss : (reportSol a e word r x valid fix s).gnss = (s.modAnt a (fun k => { k with refSeen := some word })).gnss := by
    rw [reportSol_eq, wr_gnss]
    exact (touches_markUsed (ps := [.regs .gns]) _ _ _ _ (by simp) (touches_storeSolution _ _ _ _ _ _ _ _ _ (by simp) (Touches.refl _ _))).1 .gnss (by simp)
  rw [gnsAnt_of_gnss hgnss]
  exact epoch_modAnt (f := fun k => { k with refSeen := some word }) (fun _ => rfl) a b s

/-! ### A valid solution is ready -/

/-- The solution ready for the ensemble. -/
def solReady (a e : Nat) (x : Int) (s : State) : State :=
  s.modAnt a (fun k => { k with ready := some (s.stampOfSecond e, x), validAt := s.clkOf e, validFrom := some (k.validFrom.getD (s.clkOf e)) })

/-- The end of an epoch with a valid solution. -/
def solDone (a e : Nat) (x : Int) (s : State) : State := resumeLoss (noteWake ((solReady a e x s).count 65 a 1))

theorem rd_noteWake (h1 : g.key ≠ R.GNS_SLEEP_STAT_LAST_START.key) (h2 : g.key ≠ R.GNS_SLEEP_STAT_HOT.key) (s : State) :
    (noteWake s).rd g = s.rd g := by
  unfold noteWake
  split
  · rfl
  · show ((s.wr _ _).wr _ _).rd g = _
    rw [rd_wr_ne _ _ h2, rd_wr_ne _ _ h1]

theorem touches_solDone {ps : List Part} (he : Part.ens ∈ ps) (hg : Part.gnss ∈ ps) (hr : Part.regs .gns ∈ ps) : Touches ps s (solDone a e x s) :=
  touches_resumeLoss _ he hg (touches_noteWake _ hg hr (touches_State_count _ _ _ _ (touches_State_modAnt _ _ _ hg (Touches.refl _ _))))

theorem rd_solDone (hb : Block.gns.has g.key = true) (h1 : g.key ≠ R.GNS_SLEEP_STAT_LAST_START.key) (h2 : g.key ≠ R.GNS_SLEEP_STAT_HOT.key)
    (hs : g.side = false) : (solDone a e x s).rd g = s.rd g := by
  rw [solDone, rd_resumeLoss, rd_noteWake h1 h2]
  exact (touches_State_count (ps := []) (solReady a e x s) 65 a 1 (Touches.refl _ _)).rd (b := .gns) (by simp) hb hs

theorem gnsAnt_solDone : (solDone a e x s).gnsAnt a = { s.gnsAnt a with
    ready := some (s.stampOfSecond e, x), validAt := s.clkOf e, validFrom := some ((s.gnsAnt a).validFrom.getD (s.clkOf e)) } := by
  have hwake : ∀ u : State, (noteWake u).gnsAnt a = u.gnsAnt a := by
    intro u
    unfold noteWake
    split <;> rfl
  have hloss : ∀ u : State, (resumeLoss u).gnsAnt a = u.gnsAnt a := by
    intro u
    unfold resumeLoss
    split <;> rfl
  rw [solDone, hloss, hwake,
    gnsAnt_of_gnss ((touches_State_count (ps := []) (solReady a e x s) 65 a 1 (Touches.refl _ _)).1 .gnss (by simp)), solReady, gnsAnt_modAnt_same]

theorem stampOfSecond_congr {t : State} (htick : t.tick = s.tick) (hen : t.rd R.TSC_CTL_TS1_EN = s.rd R.TSC_CTL_TS1_EN) (e : Nat) :
    t.stampOfSecond e = s.stampOfSecond e := by
  simp only [State.stampOfSecond, State.stampAt, State.stretchAt, State.stretch, State.tickBack, State.ts0, State.on, htick, hen]
  rfl

/-! ### The epoch from its checks on -/

/-- The survey, the position and the checks of an epoch. -/
def solChecked (a e : Nat) (fix : GnssFix) (known : Option (Int × Int × Int)) (r : Solved) (x : Int) (valid : Bool) (s : State) : State :=
  let s := (surveyEpoch a r.nav fix.surveySigma s).modAnt a (fun k =>
    { k.keep (e / 65536000000000) fix with lastX := if valid then some (e, x) else k.lastX })
  checkSpoof a e known r fix (if valid then antennaRun a e x s else s)

/-- An epoch reported, its checks done. -/
def solReported (a e : Nat) (fix : GnssFix) (word : Nat) (known : Option (Int × Int × Int)) (r : Solved) (valid : Bool) (s : State) : State :=
  reportSol a e word r (solX word e r.t fix.poly) valid fix (solChecked a e fix known r (solX word e r.t fix.poly) valid s)

/-- An epoch as it ends with a valid solution or without one. -/
def solvedAs (a e : Nat) (fix : GnssFix) (word : Nat) (known : Option (Int × Int × Int)) (r : Solved) (valid : Bool) (s : State) : State :=
  let s := solReported a e fix word known r valid s
  if valid then solDone a e (solX word e r.t fix.poly) s else s.modAnt a (fun k => { k with ready := none, validFrom := none })

theorem solveAt_eq (a e : Nat) (fix : GnssFix) (s : State) :
    let word := s.refAtEpoch (e / 65536000000000)
    let known := s.knownAt a (e / 65536000000000)
    let r := s.solve a word e known fix
    solveAt a e fix s = solvedAs a e fix word known r (decide (r.least ≤ r.used.length)) s := rfl

theorem frame_solChecked (ps : List Part) (hg : Part.gnss ∈ ps) (hlog : Part.log ∈ ps) (he : Part.ens ∈ ps) :
    Frame (checkFields a) ps s (solChecked a e fix known r x valid s) :=
  have hkept : Frame (checkFields a) ps s ((surveyEpoch a r.nav fix.surveySigma s).modAnt a (fun k =>
      { k.keep (e / 65536000000000) fix with lastX := if valid then some (e, x) else k.lastX })) :=
    frame_modAnt hg (frame_surveyEpoch (by simp [checkFields]) (by simp [checkFields]) hg (Frame.refl _ _ s))
  frame_checkSpoof hg hlog he (frame_ite (frame_antennaRun hg hkept) hkept)

theorem epoch_solChecked : ((solChecked a e fix known r x valid s).gnsAnt a).epoch = some (e / 65536000000000) := by
  rw [solChecked, epoch_checkSpoof]
  refine congrArg GnsAnt.epoch (?_ : _ = _) |>.trans (congrArg GnsAnt.epoch (gnsAnt_modAnt_same (surveyEpoch a r.nav fix.surveySigma s) a
    (fun k => { k.keep (e / 65536000000000) fix with lastX := if valid then some (e, x) else k.lastX })))
  split
  · exact gnsAnt_antennaRun _ _
  · rfl

/-- A register that the checks leave reads as before them. -/
theorem rd_solChecked_ant {n : Nat} (ha : a < 2) (hg : g.key = antBase a + n) (h1 : 640 ≤ n) (h2 : n < 2048) :
    (solChecked a e fix known r x valid s).rd g = s.rd g := by
  refine (frame_solChecked [.gnss, .log, .ens] (by simp) (by simp) (by simp)).rd (notCheckField ?_ ?_ ?_ (.inr ⟨n, hg, h1, h2⟩) ha) (side_of_antBase hg h2)
  · have h3 := antBase_ge a
    have h4 := antBase_lt a
    rw [hg]
    intro f hf
    simp only [logFields, List.mem_cons, List.not_mem_nil, or_false] at hf
    rcases hf with rfl | rfl | rfl | rfl <;> simp [R.LOG_NEXT_SEQ, R.LOG_FIRST_SEQ, R.LOG_WRAPS_WRAPS, R.WCH_EVT_BITS, Field.mk'] <;> omega
  · rw [hg, key_GNS_STAT_SPOOF]
    have := antBase_ge a
    omega
  · rw [hg, key_GNS_EVT_BITS]
    have := antBase_ge a
    omega

end

end Sys2Proof.Machine
end

section
/-! PROOFS. The solution of each second (R137-R141, R145, R146, R153), and the obligation of records and solutions. -/

namespace Sys2Proof.Machine

section
variable {s t : State} {a e word : Nat} {fix : GnssFix} {g : Field} {r : Solved} {known : Option (Int × Int × Int)}

/-! ### A change of the systems acts at an epoch (R153) -/

theorem chMove_systemsAct (s : State) : ∃ u : State, (∀ g : Field, u.rd g = s.rd g) ∧ u.tick = s.tick ∧ ChMove (fun _ => True) u (systemsAct s) := by
  unfold systemsAct
  split
  · exact ⟨{ s with gnss := { s.gnss with sysHeld := none } }, fun _ => rfl, rfl, chMove_dropUnusable (fun _ => trivial) (ChMove.refl _ _)⟩
  · exact ⟨s, fun _ => rfl, rfl, ChMove.refl _ _⟩

theorem rd_systemsAct (hg : g.key < 0xA00000) : (systemsAct s).rd g = s.rd g := by
  obtain ⟨u, hrd, -, hmove⟩ := chMove_systemsAct s
  rw [hmove.rd_low hg, hrd]

/-- A channel of a system that a held change drops is IDLE. -/
theorem systemsAct_drops {c : Nat} (hc : c < 160) (hheld : s.gnss.sysHeld ≠ none) (htest : s.ch c ≠ .test)
    (hoff : bit (s.rd R.GNS_CTL_SYS_EN) (s.gnsCh c).sys = false) : (systemsAct s).ch c = .idle := by
  obtain ⟨v, hv⟩ := Option.ne_none_iff_exists'.1 hheld
  rw [systemsAct, hv]
  refine ch_idleWhere (s := { s with gnss := { s.gnss with sysHeld := none } }) hc (fun t ht => ?_) htest
  have hkept : t.gnsCh c = s.gnsCh c := ht.ch fun h => h.2 rfl
  have hsig : t.signalOk (s.gnsCh c).sys (s.gnsCh c).band (s.gnsCh c).ant = false := by
    rw [ht.signalOk]
    have hsys : bit (State.systems { s with gnss := { s.gnss with sysHeld := none } }) (s.gnsCh c).sys = false := hoff
    rw [State.signalOk, hsys, Bool.and_false, Bool.false_and, Bool.false_and, Bool.false_and]
  rw [hkept, hsig]
  rfl

/-! ### A solved epoch -/

/-- A register below the antennas' or above them is none of theirs. -/
theorem key_ne_antBase (h : g.key < 0x804000 ∨ 0x806000 ≤ g.key) (b : Nat) {n : Nat} (hn : n < 2048) : g.key ≠ antBase b + n := by
  have h1 := antBase_ge b
  have h2 := antBase_lt b
  omega

/-- After its report an epoch changes, of the receiver's registers, GNS_SLEEP_STAT at most. -/
theorem rd_solvedAs {valid : Bool} (hg : 0x800000 ≤ g.key ∧ g.key < 0x800580 ∨ 0x800600 ≤ g.key ∧ g.key < 0x1000000) :
    (solvedAs a e fix word known r valid s).rd g = (solReported a e fix word known r valid s).rd g := by
  cases valid with
  | false => rfl
  | true =>
    refine rd_solDone (decide_eq_true (by omega)) (fun h => ?_) (fun h => ?_) (Field.side_of_low (by omega))
    · rw [show R.GNS_SLEEP_STAT_LAST_START.key = 0x4002C * 32 + 16 from rfl] at h
      omega
    · rw [key_GNS_SLEEP_STAT_HOT] at h
      omega

theorem rd_solvedAs_ant {valid : Bool} {n : Nat} (hk : g.key = antBase a + n) (hn : n < 2048) :
    (solvedAs a e fix word known r valid s).rd g = (solReported a e fix word known r valid s).rd g :=
  rd_solvedAs (.inr (by have := antBase_ge a; have := antBase_lt a; omega))

/-- The state of a channel, and the spoofing indication once its checks are done, stay. -/
theorem rd_solvedAs_kept {valid : Bool} (hk : g.key = R.GNS_STAT_SPOOF.key ∨ ∃ c, g.key = (R.GNS_CH_STAT_STATE c).key) :
    (solvedAs a e fix word known r valid s).rd g = (solChecked a e fix known r (solX word e r.t fix.poly) valid s).rd g := by
  rcases hk with hk | ⟨c, hk⟩
  · rw [key_GNS_STAT_SPOOF] at hk
    rw [rd_solvedAs (.inl (by omega)), solReported]
    exact rd_reportSol_ne (by rw [hk]; decide) (fun c => by have := chBase_ge c; omega) fun n hn => key_ne_antBase (.inl (by omega)) _ hn
  · rw [key_GNS_CH_STAT_STATE] at hk
    have h1 := chBase_ge c
    have h2 := chBase_lt c
    rw [rd_solvedAs (.inr (by omega)), solReported]
    exact rd_reportSol_ne (by rw [key_GNS_STAT_SOL]; omega) (fun d => by unfold chBase at hk ⊢; omega)
      fun n hn => key_ne_antBase (.inr (by omega)) _ hn

theorem ch_solvedAs {valid : Bool} (ha : a < 2) (c : Nat) : (solvedAs a e fix word known r valid s).ch c = s.ch c := by
  refine ch_of_rd ((rd_solvedAs_kept (.inr ⟨c, rfl⟩)).trans ?_)
  have hk := key_GNS_CH_STAT_STATE c
  have h1 := chBase_ge c
  have h2 := chBase_lt c
  refine (frame_solChecked [.gnss, .log, .ens] (by simp) (by simp) (by simp)).rd (notCheckField ?_ ?_ ?_ (.inl fun b n hn =>
    key_ne_antBase (.inr (by omega)) b hn) ha) (side_of_chBase hk (by decide))
  · rw [hk]
    intro f hf
    simp only [logFields, List.mem_cons, List.not_mem_nil, or_false] at hf
    rcases hf with rfl | rfl | rfl | rfl <;> simp [R.LOG_NEXT_SEQ, R.LOG_FIRST_SEQ, R.LOG_WRAPS_WRAPS, R.WCH_EVT_BITS, Field.mk'] <;> omega
  · rw [hk, key_GNS_STAT_SPOOF]
    omega
  · rw [hk, key_GNS_EVT_BITS]
    omega

theorem solvedAs_flags (valid : Bool) (s : State) :
    let t := solvedAs a e fix word known r valid s
    t.rd (R.GNS_SOL_FLAGS_VALID a) = b01 valid ∧
      t.rd (R.GNS_SOL_FLAGS_DUAL a) = b01 (decide (r.used ≠ [] ∧ ∀ v ∈ r.used, v.dual = true)) ∧
      t.rd (R.GNS_SOL_FLAGS_SPOOF a) = b01 (bit (t.rd R.GNS_STAT_SPOOF) a) ∧
      t.rd (R.GNS_SOL_FLAGS_NO_RAIM a) = b01 (decide (r.used.length < r.least + 3)) := by
  intro t
  obtain ⟨h1, h2, h3, h4⟩ := rd_reportSol_flags a e word r (solX word e r.t fix.poly) valid fix
    (solChecked a e fix known r (solX word e r.t fix.poly) valid s)
  have hspoof : t.rd R.GNS_STAT_SPOOF = (solChecked a e fix known r (solX word e r.t fix.poly) valid s).rd R.GNS_STAT_SPOOF :=
    rd_solvedAs_kept (.inl rfl)
  rw [hspoof]
  exact ⟨(rd_solvedAs_ant (key_GNS_SOL_FLAGS_VALID a) (by decide)).trans h1, (rd_solvedAs_ant (key_GNS_SOL_FLAGS_DUAL a) (by decide)).trans h2,
    (rd_solvedAs_ant (key_GNS_SOL_FLAGS_SPOOF a) (by decide)).trans h3, (rd_solvedAs_ant (key_GNS_SOL_FLAGS_NO_RAIM a) (by decide)).trans h4⟩

/-- The words of a solution's registers. -/
theorem rd_solvedAs_word {valid : Bool} {n : Nat} (hk : g.key = antBase a + n) (hn : n < 1280) : ∃ u : State,
    (∀ f : Field, u.rd f = (solChecked a e fix known r (solX word e r.t fix.poly) valid s).rd f) ∧
      (solvedAs a e fix word known r valid s).rd g = (solWords a e (solX word e r.t fix.poly) valid r.used.length r.excl.length fix u).rd g :=
  ⟨_, rd_modAnt _ _ _, (rd_solvedAs_ant hk (by omega)).trans (rd_reportSol_word hn hk)⟩

theorem solvedAs_words (s : State) :
    let t := solvedAs a e fix word known r true s
    let x := solX word e r.t fix.poly
    t.rd (R.GNS_SOL_EPOCH_LO_SEC a) = e / 65536000000000 % 2 ^ 32 ∧
      t.rd (R.GNS_SOL_OFS_LO_X a) = satBits 48 x % 2 ^ 32 ∧
      t.rd (R.GNS_SOL_OFS_HI_X a) = satBits 48 x / 2 ^ 32 % 2 ^ 16 ∧
      t.rd (R.GNS_SOL_QUAL_NSV a) = satNat 8 r.used.length ∧
      t.rd (R.GNS_SOL_QUAL_NEXCL a) = satNat 8 r.excl.length := by
  intro t x
  obtain ⟨u1, -, h1⟩ := rd_solvedAs_word (valid := true) (s := s) (e := e) (fix := fix) (word := word) (known := known) (r := r)
    (key_GNS_SOL_EPOCH_LO_SEC a) (by decide)
  obtain ⟨u2, -, h2⟩ := rd_solvedAs_word (valid := true) (s := s) (e := e) (fix := fix) (word := word) (known := known) (r := r)
    (key_GNS_SOL_OFS_LO_X a) (by decide)
  obtain ⟨u3, -, h3⟩ := rd_solvedAs_word (valid := true) (s := s) (e := e) (fix := fix) (word := word) (known := known) (r := r)
    (key_GNS_SOL_OFS_HI_X a) (by decide)
  obtain ⟨u4, -, h4⟩ := rd_solvedAs_word (valid := true) (s := s) (e := e) (fix := fix) (word := word) (known := known) (r := r)
    (key_GNS_SOL_QUAL_NSV a) (by decide)
  obtain ⟨u5, -, h5⟩ := rd_solvedAs_word (valid := true) (s := s) (e := e) (fix := fix) (word := word) (known := known) (r := r)
    (key_GNS_SOL_QUAL_NEXCL a) (by decide)
  exact ⟨h1.trans (rd_solWords_epoch _ _), h2.trans (rd_solWords_ofs _ _).1, h3.trans (rd_solWords_ofs _ _).2, h4.trans (rd_solWords_qual _ _).1,
    h5.trans (rd_solWords_qual _ _).2⟩

/-- Without a valid solution the offset stays. -/
theorem rd_solvedAs_ofs (ha : a < 2) (s : State) : (solvedAs a e fix word known r false s).rd (R.GNS_SOL_OFS_LO_X a) = s.rd (R.GNS_SOL_OFS_LO_X a) := by
  have hk := key_GNS_SOL_OFS_LO_X a
  obtain ⟨u, hu, h⟩ := rd_solvedAs_word (valid := false) (s := s) (e := e) (fix := fix) (word := word) (known := known) (r := r) hk (by decide)
  rw [h, rd_solWords_ne _ _ (fun n _ => by rw [hk]; omega) (fun hf => absurd hf (by decide)), hu]
  exact rd_solChecked_ant ha hk (by decide) (by decide)

theorem epoch_solReported {valid : Bool} : ((solReported a e fix word known r valid s).gnsAnt a).epoch = some (e / 65536000000000) :=
  (epoch_reportSol a).trans epoch_solChecked

theorem bit_solvedAs (a : Fin 2) (valid : Bool) (s : State) : bit ((solvedAs a.val e fix word known r valid s).rd R.GNS_STAT_SOL) a.val = valid := by
  rw [rd_solvedAs (.inl (by decide))]
  exact bit_reportSol a _ _ _ _ _ _ _

end

end Sys2Proof.Machine
end

section
/-! PROOFS. The solution of a second as a command, and the obligation of records and solutions (R131-R141, R145, R146, R153). -/

namespace Sys2Proof.Machine

section
variable {s : State} {a : Fin 2} {fix : GnssFix}

/-- The state that a solution is computed from. -/
def State.solving (s : State) (a : Nat) : State := systemsAct (s.waitTs0 (s.nextEpoch a))

/-- What REF_SYS and its options were at a solution's epoch. -/
def State.solvingWord (s : State) (a : Nat) : Nat := (s.solving a).refAtEpoch (s.nextEpoch a / 65536000000000)

/-- The position that a solution takes as known. -/
def State.solvingAt (s : State) (a : Nat) : Option (Int × Int × Int) := (s.solving a).knownAt a (s.nextEpoch a / 65536000000000)

/-- What a solution comes to. -/
def State.solved (s : State) (a : Nat) (fix : GnssFix) : Solved :=
  (s.solving a).solve a (s.solvingWord a) (s.nextEpoch a) (s.solvingAt a) fix

/-- x of a solution. -/
def State.solvedX (s : State) (a : Nat) (fix : GnssFix) : Int := solX (s.solvingWord a) (s.nextEpoch a) (s.solved a fix).t fix.poly

theorem rxTwin_solving (s : State) (a : Nat) : RxTwin (s.solving a) (systemsAct (s.begin.waitTs0 (s.nextEpoch a))) := (rxTwin_waitTs0 s _).systemsAct

/-- A solution is the end of an epoch by what the state of its instant gives. -/
theorem solution_solvedAs (hon : s.gnsOn = true) (huse : s.antInUse a.val = true) {valid : Bool}
    (hvalid : decide ((s.solved a.val fix).least ≤ (s.solved a.val fix).used.length) = valid) :
    solution a.val fix s.begin = solvedAs a.val (s.nextEpoch a.val) fix (s.solvingWord a.val) (s.solvingAt a.val) (s.solved a.val fix) valid
      (systemsAct (s.begin.waitTs0 (s.nextEpoch a.val))) := by
  have htwin := rxTwin_solving s a.val
  have hrun : solution a.val fix s.begin = solveAt a.val (s.nextEpoch a.val) fix (systemsAct (s.begin.waitTs0 (s.nextEpoch a.val))) :=
    if_pos (by rw [show s.begin.gnsOn = true from hon, show s.begin.antInUse a.val = true from huse]; rfl)
  obtain ⟨y, hy⟩ : ∃ y, systemsAct (s.begin.waitTs0 (s.nextEpoch a.val)) = y := ⟨_, rfl⟩
  rw [hy] at htwin hrun ⊢
  rw [hrun, solveAt_eq, htwin.refAtEpoch, htwin.knownAt, htwin.solve, ← hvalid]
  rfl

theorem solving_tick : (systemsAct (s.begin.waitTs0 (s.nextEpoch a.val))).tick = (s.waitTs0 (s.nextEpoch a.val)).tick :=
  (systemsAct_tick _).trans (begin_waitTs0 s _).1

theorem tick_solveAt (a e : Nat) (fix : GnssFix) (s : State) : (solveAt a e fix s).tick = s.tick :=
  (touches_solveAt (ps := [.ens, .gnss, .log, .regs .gns, .regs .wch]) a e fix s (by simp) (by simp) (by simp) (by simp) (by simp) (Touches.refl _ s)).tick
    (by simp)

theorem solution_tick (hon : s.gnsOn = true) (huse : s.antInUse a.val = true) :
    (solution a.val fix s.begin).tick = (s.waitTs0 (s.nextEpoch a.val)).tick := by
  have hrun : solution a.val fix s.begin = solveAt a.val (s.nextEpoch a.val) fix (systemsAct (s.begin.waitTs0 (s.nextEpoch a.val))) :=
    if_pos (by rw [show s.begin.gnsOn = true from hon, show s.begin.antInUse a.val = true from huse]; rfl)
  rw [hrun, tick_solveAt]
  exact solving_tick

/-- A system that a held change drops: its channels are IDLE once the second's solution has run. -/
theorem solving_drops {c : Nat} (hc : c < 160) (e : Nat) (hheld : s.gnss.sysHeld ≠ none) (htest : s.ch c ≠ .test)
    (hoff : bit (s.rd R.GNS_CTL_SYS_EN) (s.gnsCh c).sys = false) : (systemsAct (s.begin.waitTs0 e)).ch c = .idle := by
  have hrx := rxAlike_waitTs0 s e
  refine systemsAct_drops hc (by rw [hrx.2]; exact hheld) (by rw [hrx.ch]; exact htest) ?_
  rw [hrx.1 _ (by decide), gnsCh_of_gnss hrx.2]
  exact hoff

theorem solution_valid (hon : s.gnsOn = true) (huse : s.antInUse a.val = true)
    (hvalid : (s.solved a.val fix).least ≤ (s.solved a.val fix).used.length) :
    ∃ t, Sys2Proof.Machine.exec (.solution a fix) s = .next t ∧
      t.rd (R.GNS_SOL_EPOCH_LO_SEC a.val) = s.nextEpoch a.val / 65536000000000 % 2 ^ 32 ∧
      t.rd (R.GNS_SOL_OFS_LO_X a.val) = satBits 48 (s.solvedX a.val fix) % 2 ^ 32 ∧
      t.rd (R.GNS_SOL_OFS_HI_X a.val) = satBits 48 (s.solvedX a.val fix) / 2 ^ 32 % 2 ^ 16 ∧
      t.rd (R.GNS_SOL_FLAGS_VALID a.val) = 1 ∧
      t.rd (R.GNS_SOL_FLAGS_DUAL a.val) = b01 (decide ((s.solved a.val fix).used ≠ [] ∧ ∀ v ∈ (s.solved a.val fix).used, v.dual = true)) ∧
      t.rd (R.GNS_SOL_FLAGS_NO_RAIM a.val) = b01 (decide ((s.solved a.val fix).used.length < (s.solved a.val fix).least + 3)) ∧
      t.rd (R.GNS_SOL_QUAL_NSV a.val) = satNat 8 (s.solved a.val fix).used.length ∧
      t.rd (R.GNS_SOL_QUAL_NEXCL a.val) = satNat 8 (s.solved a.val fix).excl.length ∧
      (s.gnss.sysHeld ≠ none → ∀ c : Fin 160, s.ch c.val ≠ .test → bit (s.rd R.GNS_CTL_SYS_EN) (s.gnsCh c.val).sys = false → t.ch c.val = .idle) ∧
      t.rd (R.GNS_SOL_FLAGS_SPOOF a.val) = b01 (bit (t.rd R.GNS_STAT_SPOOF) a.val) ∧
      bit (t.rd R.GNS_STAT_SOL) a.val = true ∧
      (t.gnsAnt a.val).ready = some (t.stampOfSecond (s.nextEpoch a.val), s.solvedX a.val fix) ∧
      (t.gnsAnt a.val).epoch = some (s.nextEpoch a.val / 65536000000000) ∧
      t.tick = (s.waitTs0 (s.nextEpoch a.val)).tick ∧
      Touches [.tick, .lanes, .ens, .gnss, .log, .regs .gns, .regs .wch, .watch] s t := by
  have hrun := solution_solvedAs (fix := fix) hon huse (decide_eq_true hvalid)
  have htick := solution_tick (fix := fix) hon huse
  obtain ⟨t, e, k⟩ := go_ended_of (f := solution a.val fix) (u := solution a.val fix s.begin) rfl
  have htouch := touches_go e (touches_solution (ps := [.tick, .lanes, .ens, .gnss, .log, .regs .gns, .regs .wch, .watch]) a.val fix _ (by simp) (by simp)
    (by simp) (by simp) (by simp) (by simp) (by simp) (by simp) (touches_begin _ s))
  have hdrop : s.gnss.sysHeld ≠ none → ∀ c : Fin 160, s.ch c.val ≠ .test → bit (s.rd R.GNS_CTL_SYS_EN) (s.gnsCh c.val).sys = false →
      (systemsAct (s.begin.waitTs0 (s.nextEpoch a.val))).ch c.val = .idle := fun h c h1 h2 => solving_drops c.isLt _ h h1 h2
  obtain ⟨y, hy⟩ : ∃ y, systemsAct (s.begin.waitTs0 (s.nextEpoch a.val)) = y := ⟨_, rfl⟩
  rw [hy] at hrun hdrop
  obtain ⟨v, hv⟩ : ∃ v, solReported a.val (s.nextEpoch a.val) fix (s.solvingWord a.val) (s.solvingAt a.val) (s.solved a.val fix) true y = v := ⟨_, rfl⟩
  have hdone : solution a.val fix s.begin = solDone a.val (s.nextEpoch a.val) (s.solvedX a.val fix) v := by rw [hrun, ← hv]; rfl
  have hepoch : (v.gnsAnt a.val).epoch = some (s.nextEpoch a.val / 65536000000000) := hv ▸ epoch_solReported
  have hant : t.gnsAnt a.val = { v.gnsAnt a.val with
      ready := some (v.stampOfSecond (s.nextEpoch a.val), s.solvedX a.val fix), validAt := v.clkOf (s.nextEpoch a.val)
      validFrom := some ((v.gnsAnt a.val).validFrom.getD (v.clkOf (s.nextEpoch a.val))) } := by
    rw [gnsAnt_of_gnss k.gnss, hdone, gnsAnt_solDone]
  have hend : Touches [.ens, .gnss, .regs .gns] v (solDone a.val (s.nextEpoch a.val) (s.solvedX a.val fix) v) := touches_solDone (by simp) (by simp) (by simp)
  have hstamp : t.stampOfSecond (s.nextEpoch a.val) = v.stampOfSecond (s.nextEpoch a.val) := by
    refine stampOfSecond_congr ?_ ?_ _
    · rw [k.tick, hdone, hend.tick (by simp)]
    · rw [k.rd (by decide), hdone, hend.rd (b := .tsc) (by simp) (by decide) (by decide)]
  rw [hrun] at k
  obtain ⟨h1, h2, h3, h4, h5⟩ := solvedAs_words (a := a.val) (e := s.nextEpoch a.val) (fix := fix) (word := s.solvingWord a.val)
    (known := s.solvingAt a.val) (r := s.solved a.val fix) y
  obtain ⟨f1, f2, f3, f4⟩ := solvedAs_flags (a := a.val) (e := s.nextEpoch a.val) (fix := fix) (word := s.solvingWord a.val)
    (known := s.solvingAt a.val) (r := s.solved a.val fix) true y
  have hside : ∀ {f : Field} {n : Nat}, f.key = antBase a.val + n → n < 2048 → f.side = false := fun hk hn => side_of_antBase hk hn
  refine ⟨t, e, (k.rd (hside (key_GNS_SOL_EPOCH_LO_SEC _) (by decide))).trans h1, (k.rd (hside (key_GNS_SOL_OFS_LO_X _) (by decide))).trans h2,
    (k.rd (hside (key_GNS_SOL_OFS_HI_X _) (by decide))).trans h3, (k.rd (hside (key_GNS_SOL_FLAGS_VALID _) (by decide))).trans f1,
    (k.rd (hside (key_GNS_SOL_FLAGS_DUAL _) (by decide))).trans f2, (k.rd (hside (key_GNS_SOL_FLAGS_NO_RAIM _) (by decide))).trans f4,
    (k.rd (hside (key_GNS_SOL_QUAL_NSV _) (by decide))).trans h4, (k.rd (hside (key_GNS_SOL_QUAL_NEXCL _) (by decide))).trans h5,
    fun hh c h1 h2 => ?_, ?_, ?_, ?_, ?_, ?_, htouch⟩
  · rw [k.ch, ch_solvedAs a.isLt]
    exact hdrop hh c h1 h2
  · rw [k.rd (hside (key_GNS_SOL_FLAGS_SPOOF _) (by decide)), k.rd (by decide)]
    exact f3
  · rw [k.rd (by decide)]
    exact bit_solvedAs a true y
  · rw [hant, hstamp]
  · rw [hant]
    exact hepoch
  · rw [k.tick, ← hrun, htick]

theorem solution_invalid (hon : s.gnsOn = true) (huse : s.antInUse a.val = true)
    (hfew : (s.solved a.val fix).used.length < (s.solved a.val fix).least) :
    ∃ t, Sys2Proof.Machine.exec (.solution a fix) s = .next t ∧
      t.rd (R.GNS_SOL_FLAGS_VALID a.val) = 0 ∧
      t.rd (R.GNS_SOL_OFS_LO_X a.val) = s.rd (R.GNS_SOL_OFS_LO_X a.val) ∧
      bit (t.rd R.GNS_STAT_SOL) a.val = false ∧
      (t.gnsAnt a.val).ready = none ∧
      (t.gnsAnt a.val).epoch = some (s.nextEpoch a.val / 65536000000000) ∧
      t.tick = (s.waitTs0 (s.nextEpoch a.val)).tick ∧
      Touches [.tick, .lanes, .ens, .gnss, .log, .regs .gns, .regs .wch, .watch] s t := by
  have hrun := solution_solvedAs (fix := fix) hon huse (decide_eq_false (Nat.not_le.2 hfew))
  have htick := solution_tick (fix := fix) hon huse
  obtain ⟨t, e, k⟩ := go_ended_of (f := solution a.val fix) (u := solution a.val fix s.begin) rfl
  have htouch := touches_go e (touches_solution (ps := [.tick, .lanes, .ens, .gnss, .log, .regs .gns, .regs .wch, .watch]) a.val fix _ (by simp) (by simp)
    (by simp) (by simp) (by simp) (by simp) (by simp) (by simp) (touches_begin _ s))
  have hk := key_GNS_SOL_OFS_LO_X a.val
  have hofs : (systemsAct (s.begin.waitTs0 (s.nextEpoch a.val))).rd (R.GNS_SOL_OFS_LO_X a.val) = s.rd (R.GNS_SOL_OFS_LO_X a.val) := by
    rw [rd_systemsAct (by rw [hk]; have := antBase_lt a.val; omega)]
    exact (rxAlike_waitTs0 s _).1 _ (side_of_antBase hk (by decide))
  obtain ⟨y, hy⟩ : ∃ y, systemsAct (s.begin.waitTs0 (s.nextEpoch a.val)) = y := ⟨_, rfl⟩
  rw [hy] at hrun hofs
  obtain ⟨f1, -, -, -⟩ := solvedAs_flags (a := a.val) (e := s.nextEpoch a.val) (fix := fix) (word := s.solvingWord a.val)
    (known := s.solvingAt a.val) (r := s.solved a.val fix) false y
  obtain ⟨v, hv⟩ : ∃ v, solReported a.val (s.nextEpoch a.val) fix (s.solvingWord a.val) (s.solvingAt a.val) (s.solved a.val fix) false y = v := ⟨_, rfl⟩
  have hdone : solution a.val fix s.begin = v.modAnt a.val (fun k => { k with ready := none, validFrom := none }) := by rw [hrun, ← hv]; rfl
  have hepoch : (v.gnsAnt a.val).epoch = some (s.nextEpoch a.val / 65536000000000) := hv ▸ epoch_solReported
  have hant : t.gnsAnt a.val = { v.gnsAnt a.val with ready := none, validFrom := none } := by
    rw [gnsAnt_of_gnss k.gnss, hdone, gnsAnt_modAnt_same]
  rw [hrun] at k
  refine ⟨t, e, (k.rd (side_of_antBase (key_GNS_SOL_FLAGS_VALID _) (by decide))).trans f1, ?_, ?_, ?_, ?_, ?_, htouch⟩
  · rw [k.rd (side_of_antBase hk (by decide)), rd_solvedAs_ofs a.isLt, hofs]
  · rw [k.rd (by decide)]
    exact bit_solvedAs a false y
  · rw [hant]
  · rw [hant]
    exact hepoch
  · rw [k.tick, ← hrun, htick]

end

/-- Settles O21. -/
theorem gnssSolutions : Obligations.GnssSolutions := by
  refine ⟨fun s c inv sub3 cn0 at_ symbols => ?_, fun s c inv sub3 cn0 at_ symbols => ?_, fun s c inv sub3 cn0 at_ symbols => ?_,
    fun s c inv sub3 cn0 at_ symbols dt => ?_, fun s a fix => ?_, fun s a fix => ?_, fun s a p x => solution_delivered, fun s a p x => solution_too_late,
    fun s a => solution_missing, fun s a from_ => spoof_clears⟩
  · exact record_pushed
  · exact record_pushed_full
  · exact record_not_wanted
  · exact utc_agreed
  · intro e u word known r hon huse hvalid
    obtain ⟨t, hexec, h1, h2, h3, h4, h5, h6, h7, h8, hdrop, hrest⟩ := solution_valid (fix := fix) hon huse hvalid
    exact ⟨t, hexec, h1, h2, h3, h4, h5, h6, h7, h8, fun v hv => solve_excluded hv, fun hex p hknown hagain v hv => solve_again hex hknown hagain hv,
      fun v hv q hq => solve_unique hv hq, hdrop, hrest⟩
  · intro e u word known r
    exact solution_invalid

end Sys2Proof.Machine
end

section
/-! PROOFS. The queue of waiting commands stands through a reset: mailboxes, pulse outputs, the ensemble and the receiver (R412, R427). -/

namespace Sys2Proof.Machine

/-! ### How effects are put together -/

theorem foldl_pending {α : Type} {g : State → α → State} (h : ∀ s x, (g s x).pending = s.pending) (l : List α) (s : State) :
    (l.foldl g s).pending = s.pending := by
  induction l generalizing s with
  | nil => rfl
  | cons x l ih => exact (ih _).trans (h s x)

theorem ite_pending {p : Prop} [Decidable p] {u v : State} {q : List Instr} (hu : u.pending = q) (hv : v.pending = q) :
    (if p then u else v).pending = q := by
  split
  · exact hu
  · exact hv

/-! ### What changes one record -/

@[simp] theorem modMbox_pending (s : State) (k : Nat) (f : Mbx → Mbx) : (s.modMbox k f).pending = s.pending := rfl
@[simp] theorem modSlot_pending (s : State) (k : Nat) (f : Slot → Slot) : (s.modSlot k f).pending = s.pending := rfl
@[simp] theorem modGroup_pending (s : State) (k : Nat) (f : TimGroup → TimGroup) : (s.modGroup k f).pending = s.pending := rfl
@[simp] theorem modOut_pending (s : State) (k : Nat) (f : PulseOut → PulseOut) : (s.modOut k f).pending = s.pending := rfl

@[simp] theorem modFilter_pending (s : State) (k : Bank) (f : Filter → Filter) : (s.modFilter k f).pending = s.pending := by
  unfold State.modFilter
  split <;> simp

@[simp] theorem modRfm_pending (s : State) (k : Nat) (f : RfmPort → RfmPort) : (s.modRfm k f).pending = s.pending := rfl
@[simp] theorem modChan_pending (s : State) (k : Nat) (f : TimChan → TimChan) : (s.modChan k f).pending = s.pending := rfl
@[simp] theorem modGnsPort_pending (s : State) (k : Nat) (f : GnsPort → GnsPort) : (s.modGnsPort k f).pending = s.pending := rfl
@[simp] theorem modPort_pending (s : State) (k : Nat) (f : Port → Port) : (s.modPort k f).pending = s.pending := rfl
@[simp] theorem modRing_pending (s : State) (k : Nat) (f : Ring → Ring) : (s.modRing k f).pending = s.pending := rfl
@[simp] theorem modWatch_pending (s : State) (f : Watch → Watch) : (s.modWatch f).pending = s.pending := rfl
@[simp] theorem modCh_pending (s : State) (k : Nat) (f : GnsCh → GnsCh) : (s.modCh k f).pending = s.pending := rfl
@[simp] theorem modNts_pending (s : State) (k : Nat) (f : NtsDie → NtsDie) : (s.modNts k f).pending = s.pending := rfl
@[simp] theorem modRun_pending (s : State) (f : WatchRun → WatchRun) : (s.modRun f).pending = s.pending := rfl
@[simp] theorem modStack_pending (s : State) (f : Stack → Stack) : (s.modStack f).pending = s.pending := rfl
@[simp] theorem modMor_pending (s : State) (k : Nat) (f : MorLink → MorLink) : (s.modMor k f).pending = s.pending := rfl
@[simp] theorem modLane_pending (s : State) (k : Nat) (f : Lane → Lane) : (s.modLane k f).pending = s.pending := rfl

/-! ### Mailboxes -/

@[simp] theorem mbxEmpty_pending (c : Nat) (s : State) : (mbxEmpty c s).pending = s.pending := by
  simp only [mbxEmpty, modMbox_pending, lo_pending]
  with_reducible exact foldl_pending (fun _ _ => lo_pending _ _) _ _

@[simp] theorem restartHold_pending (c : Nat) (s : State) : (restartHold c s).pending = s.pending := rfl
@[simp] theorem stamp_pending (c id : Nat) (s : State) : (stamp c id s).pending = s.pending := wr_pending _ _ _
@[simp] theorem postEnds_pending (c status : Nat) (s : State) : (postEnds c status s).pending = s.pending := rfl
@[simp] theorem mbxEvent_pending (c kind : Nat) (s : State) : (mbxEvent c kind s).pending = s.pending := by simp [mbxEvent]

@[simp] theorem goReplied_pending (c : Nat) (s : State) : (goReplied c s).pending = s.pending := by
  have hbase : (repliedBase c s).pending = s.pending :=
    (modMbox_pending _ _ _).trans ((restartHold_pending _ _).trans ((wr_pending _ _ _).trans (stamp_pending _ _ _)))
  have htold : (tellOwner c (repliedBase c s)).pending = s.pending := ite_pending ((postEnds_pending _ _ _).trans hbase) hbase
  cases h : s.on (R.MBX_STAT_ORPHAN c) with
  | true => rw [goReplied_orphan h, mbxEmpty_pending]
  | false =>
    rw [goReplied_live h]
    exact ite_pending ((mbxEvent_pending _ _ _).trans htold) htold

@[simp] theorem abortMsg_pending (c : Nat) (s : State) : (abortMsg c s).pending = s.pending := by simp [abortMsg, apply_ite State.pending]
@[simp] theorem abortFor_pending (id : Nat) (s : State) : (abortFor id s).pending = s.pending := by simp [abortFor, foldl_pending]

@[simp] theorem orphanFor_pending (id : Nat) (s : State) : (orphanFor id s).pending = s.pending := by
  simp [orphanFor, apply_ite State.pending, foldl_pending]

/-! ### Interval channels and pulse outputs -/

@[simp] theorem setOut_pending (o v : Nat) (s : State) : (setOut o v s).pending = s.pending := rfl
@[simp] theorem outDone_pending (o : Nat) (s : State) : (outDone o s).pending = s.pending := rfl
@[simp] theorem noneLeft_pending (o : Nat) (s : State) : (noneLeft o s).pending = s.pending := by simp [noneLeft, apply_ite State.pending]
@[simp] theorem missRest_pending (o n : Nat) (s : State) : (missRest o n s).pending = s.pending := by simp [missRest, apply_ite State.pending]

@[simp] theorem offerRecord_pending (g type b1 flags flags2 calSeq t : Nat) (mid tail : List Nat) (s : State) :
    (offerRecord g type b1 flags flags2 calSeq t mid tail s).pending = s.pending := by
  simp [offerRecord, apply_ite State.pending]

@[simp] theorem recordSlot_pending (g c : Nat) (s : State) : (recordSlot g c s).pending = s.pending := rfl

@[simp] theorem missOut_pending (o inst cause : Nat) (ts1 : Bool) (s : State) : (missOut o inst cause ts1 s).pending = s.pending := by
  simp [missOut, apply_ite State.pending]

@[simp] theorem missMany_pending (o : Nat) (p : PulseSched) (fuel n : Nat) (s : State) : (missMany o p fuel n s).pending = s.pending := by
  induction fuel generalizing n s with
  | zero => rfl
  | succ m ih => exact (ih _ _).trans (missOut_pending _ _ _ _ _)

@[simp] theorem stepMeetsOut_pending (b : Bank) (old new : Nat) (s : State) (o : Nat) : (stepMeetsOut b old new s o).pending = s.pending := by
  have htail : ∀ (u : State) (j : Option Nat), u.pending = s.pending → (match j with
      | none => noneLeft o u
      | some j => if (u.pout o).skip j = none then noneLeft o u else u.modOut o (fun q => { q with next := j })).pending = s.pending := by
    intro u j hu
    cases j with
    | none => exact (noneLeft_pending _ _).trans hu
    | some j => exact ite_pending ((noneLeft_pending _ _).trans hu) hu
  have hmissed : ∀ (k n : Nat) (p : PulseSched), (missRest o (n - timRing) (missMany o p (min n timRing) k s)).pending = s.pending := fun k n p =>
    (missRest_pending _ _ _).trans (missMany_pending _ _ _ _ _)
  unfold stepMeetsOut
  dsimp only
  refine ite_pending rfl ?_
  split
  · exact ite_pending rfl (noneLeft_pending _ _)
  · exact htail _ _ (ite_pending (hmissed _ _ _) ((modOut_pending _ _ _).trans (hmissed _ _ _)))

@[simp] theorem endWait_pending (g c : Nat) (s : State) : (endWait g c s).pending = s.pending := by simp [endWait, apply_ite State.pending]
@[simp] theorem refuseCh_pending (c : Nat) (s : State) : (refuseCh c s).pending = s.pending := by simp [refuseCh]

@[simp] theorem openGate_pending (g c : Nat) (s : State) : (openGate g c s).pending = s.pending := by
  simp [openGate, apply_ite State.pending, foldl_pending]

@[simp] theorem armGate_pending (g : Nat) (s : State) : (armGate g s).pending = s.pending := by simp [armGate, apply_ite State.pending]
@[simp] theorem armNow_pending (c : Nat) (s : State) : (armNow c s).pending = s.pending := by simp [armNow, apply_ite State.pending]
@[simp] theorem assignChan_pending (c : Nat) (s : State) : (assignChan c s).pending = s.pending := by simp [assignChan, apply_ite State.pending]
@[simp] theorem setGroupBit_pending (f : Field) (g : Nat) (v : Bool) (s : State) : (setGroupBit f g v s).pending = s.pending := rfl

@[simp] theorem writeTimCtl_pending (w : Nat) (s : State) : (writeTimCtl w s).pending = s.pending := by
  simp [writeTimCtl, apply_ite State.pending, foldl_pending]

/-! ### The ensemble -/

@[simp] theorem dropBias_pending (s : State) (d : Nat) : (dropBias s d).pending = s.pending := by simp [dropBias, apply_ite State.pending]
@[simp] theorem setQual_pending (i : Nat) (s : State) : (setQual i s).pending = s.pending := rfl

@[simp] theorem noteTimeLeft_pending (b : Bank) (before : Bool) (s : State) : (noteTimeLeft b before s).pending = s.pending := by
  simp [noteTimeLeft, apply_ite State.pending]

@[simp] theorem setSrcBy_pending (sender i : Nat) (dest : Src) (cause : Option Cause) (s : State) :
    (setSrcBy sender i dest cause s).pending = s.pending := by
  unfold setSrcBy
  split <;> simp [apply_ite State.pending]

@[simp] theorem tellEng_pending (sender : Nat) (b : Bank) (old : Eng) (s : State) : (tellEng sender b old s).pending = s.pending := by
  unfold tellEng
  split <;> simp

@[simp] theorem setEngBy_pending (sender : Nat) (b : Bank) (dest : Eng) (s : State) : (setEngBy sender b dest s).pending = s.pending := by
  simp [setEngBy, apply_ite State.pending]

@[simp] theorem engineUnset_pending (sender : Nat) (b : Bank) (s : State) : (engineUnset sender b s).pending = s.pending := by simp [engineUnset]

@[simp] theorem enterHoldover_pending (sender : Nat) (b : Bank) (s : State) : (enterHoldover sender b s).pending = s.pending := by
  simp [enterHoldover]

@[simp] theorem setSrc_pending (i : Nat) (dest : Src) (cause : Option Cause) (s : State) : (setSrc i dest cause s).pending = s.pending := by
  simp [setSrc]

@[simp] theorem withdraw_pending (i : Nat) (s : State) : (withdraw i s).pending = s.pending := by simp [withdraw, apply_ite State.pending]
@[simp] theorem withdrawPorts_pending (s : State) : (withdrawPorts s).pending = s.pending := by simp [withdrawPorts, apply_ite State.pending]

/-! ### The receiver -/

@[simp] theorem setNotch_pending (n k : Nat) (v : Bool) (s : State) : (setNotch n k v s).pending = s.pending := by
  simp [setNotch, apply_ite State.pending]

@[simp] theorem manualNotch_pending (n k : Nat) (s : State) : (manualNotch n k s).pending = s.pending := by simp [manualNotch]
@[simp] theorem noteFull_pending (s : State) : (noteFull s).pending = s.pending := by simp [noteFull, apply_ite State.pending]
@[simp] theorem setCh_pending (c : Nat) (v : Ch) (s : State) : (setCh c v s).pending = s.pending := by simp [setCh]
@[simp] theorem idleCh_pending (c : Nat) (s : State) : (idleCh c s).pending = s.pending := by simp [idleCh]
@[simp] theorem refreshGap_pending (c : Nat) (s : State) : (refreshGap c s).pending = s.pending := by simp [refreshGap, apply_ite State.pending]
@[simp] theorem trimPool_pending (s : State) : (trimPool s).pending = s.pending := by simp [trimPool, foldl_pending]

@[simp] theorem startCh_pending (c : Nat) (v : Ch) (sys band ant svid : Nat) (pinned : Bool) (s : State) :
    (startCh c v sys band ant svid pinned s).pending = s.pending := by
  simp [startCh]

@[simp] theorem startLow_pending (l sys ant svid : Nat) (pinned : Bool) (code : Nat) (dop : Int) (s : State) :
    (startLow l sys ant svid pinned code dop s).pending = s.pending := by
  simp [startLow]

@[simp] theorem handOver_pending (h l : Nat) (pinned : Bool) (s : State) : (handOver h l pinned s).pending = s.pending := by simp [handOver]

@[simp] theorem pinSignal_pending (c : Nat) (s : State) : (pinSignal c s).pending = s.pending := by
  unfold pinSignal
  dsimp only
  split
  · simp
  · split <;> simp [apply_ite State.pending]

@[simp] theorem replan_pending (sys band ant svid code : Nat) (dop : Int) (s : State) : (replan sys band ant svid code dop s).pending = s.pending := by
  unfold replan
  split
  · rw [trimPool_pending]
    split <;> simp [apply_ite State.pending]
  · rfl

@[simp] theorem startPinned_pending (c : Nat) (s : State) : (startPinned c s).pending = s.pending := by simp [startPinned, apply_ite State.pending]
@[simp] theorem applyChCfg_pending (c w : Nat) (s : State) : (applyChCfg c w s).pending = s.pending := by simp [applyChCfg, apply_ite State.pending]

@[simp] theorem returnCh_pending (c : Nat) (s : State) : (returnCh c s).pending = s.pending := by
  unfold returnCh
  dsimp only
  split <;> simp

end Sys2Proof.Machine
end

section
/-! PROOFS. The queue of waiting commands stands through a reset: ports, Watch, and the resets themselves (R427, R447). -/

namespace Sys2Proof.Machine

/-! ### Ports, rings and engines -/

@[simp] theorem post_pending (s : State) (fn vec : Nat) : (s.post fn vec).pending = s.pending := by simp [State.post, apply_ite State.pending]

@[simp] theorem bumpStat_pending (key event unit n : Nat) (s : State) : (bumpStat key event unit n s).pending = s.pending := by
  simp [bumpStat, apply_ite State.pending]

@[simp] theorem mac_pending (p i n : Nat) (s : State) : (mac p i n s).pending = s.pending := by simp [mac]
@[simp] theorem sendPart_pending (p : Nat) (v : Flight) (b : List Nat) (n fcs : Nat) (s : State) : (sendPart p v b n fcs s).pending = s.pending := rfl

@[simp] theorem finishFlight_pending (p : Nat) (v : Flight) (s : State) : (finishFlight p v s).pending = s.pending := by
  unfold finishFlight
  split <;> simp

@[simp] theorem leaveBall_pending (p now : Nat) (s : State) : (leaveBall p now s).pending = s.pending := by simp [leaveBall, foldl_pending]
@[simp] theorem quiesce_pending (q : Nat) (s : State) : (quiesce q s).pending = s.pending := by simp [quiesce, apply_ite State.pending]
@[simp] theorem ringMsi_pending (q : Nat) (s : State) : (ringMsi q s).pending = s.pending := by simp [ringMsi]

@[simp] theorem writeBack_pending (q idx : Nat) (bytes : List Nat) (s : State) : (writeBack q idx bytes s).pending = s.pending := by
  simp [writeBack, apply_ite State.pending]

@[simp] theorem freeStamp_pending (q : Nat) (d : RingDesc) (s : State) : (freeStamp q d s).pending = s.pending := by
  unfold freeStamp
  split <;> simp

@[simp] theorem drainList_pending (q : Nat) (l : List RingDesc) (s : State) : (drainList q l s).pending = s.pending := by
  induction l generalizing s with
  | nil => rfl
  | cons d l ih =>
    unfold drainList
    split
    · rfl
    · simp [ih]

@[simp] theorem drain_pending (q : Nat) (s : State) : (drain q s).pending = s.pending := by simp [drain]

@[simp] theorem finishDesc_pending (q idx : Nat) (back : RingDesc → RingDesc) (s : State) : (finishDesc q idx back s).pending = s.pending := by
  simp [finishDesc]

@[simp] theorem endFlight_pending (p : Nat) (v : Flight) (s : State) : (endFlight p v s).pending = s.pending := by
  unfold endFlight
  split <;> simp

@[simp] theorem settleTo_pending (p ps : Nat) (s : State) : (settleTo p ps s).pending = s.pending := by
  unfold settleTo
  dsimp only
  split <;> simp [apply_ite State.pending]

@[simp] theorem settle_pending (p : Nat) (s : State) : (settle p s).pending = s.pending := by simp [settle]
@[simp] theorem settleEnded_pending (s : State) : (settleEnded s).pending = s.pending := by simp [settleEnded, apply_ite State.pending, foldl_pending]

@[simp] theorem discardFrame_pending (f : TxFrame) (withheld : Bool) (s : State) : (discardFrame f withheld s).pending = s.pending := by
  unfold discardFrame
  split <;> simp

@[simp] theorem faultDrop_pending (p : Nat) (fs : List TxFrame) (s : State) : (faultDrop p fs s).pending = s.pending := by
  simp [faultDrop, foldl_pending]

@[simp] theorem setTxq_pending (p q : Nat) (l : List TxFrame) (s : State) : (setTxq p q l s).pending = s.pending := rfl
@[simp] theorem ntsStat_pending (d i n : Nat) (s : State) : (ntsStat d i n s).pending = s.pending := by simp [ntsStat]

@[simp] theorem intoHold_pending (p : Nat) (f : TxFrame) (s : State) : (intoHold p f s).pending = s.pending := by
  simp [intoHold, apply_ite State.pending]

@[simp] theorem cancelReservations_pending (p : Nat) (s : State) : (cancelReservations p s).pending = s.pending := by
  simp [cancelReservations, foldl_pending]

@[simp] theorem flushQueues_pending (p : Nat) (s : State) : (flushQueues p s).pending = s.pending := by simp [flushQueues, foldl_pending]

@[simp] theorem loseFlight_pending (p : Nat) (v : Option Flight) (s : State) : (loseFlight p v s).pending = s.pending := by
  unfold loseFlight
  dsimp only
  split
  · simp
  · split <;> simp

@[simp] theorem loseOpen_pending (p : Nat) (s : State) : (loseOpen p s).pending = s.pending := by simp [loseOpen, apply_ite State.pending]
@[simp] theorem dropNts_pending (p : Nat) (s : State) : (dropNts p s).pending = s.pending := by simp [dropNts, apply_ite State.pending]
@[simp] theorem leaveUp_pending (p : Nat) (s : State) : (leaveUp p s).pending = s.pending := by simp [leaveUp]
@[simp] theorem setLink_pending (p st : Nat) (s : State) : (setLink p st s).pending = s.pending := by simp [setLink, apply_ite State.pending]
@[simp] theorem loseStamps_pending (p : Nat) (s : State) : (loseStamps p s).pending = s.pending := by simp [loseStamps, foldl_pending]

@[simp] theorem ntsDispatch_pending (fuel d : Nat) (s : State) : (ntsDispatch fuel d s).pending = s.pending := by
  induction fuel generalizing s with
  | zero => rfl
  | succ n ih =>
    unfold ntsDispatch
    dsimp only
    split
    · simp [ih]
    · rfl

@[simp] theorem dispatchNts_pending (d : Nat) (s : State) : (dispatchNts d s).pending = s.pending := by simp [dispatchNts]

/-! ### Watch -/

@[simp] theorem waitTs0_pending (s : State) (d : Nat) : (s.waitTs0 d).pending = s.pending := by simp [State.waitTs0]
@[simp] theorem sendTnd_pending (dst type : Nat) (payload : List Nat) (s : State) : (sendTnd dst type payload s).pending = s.pending := rfl

@[simp] theorem returnBorrowed_pending (s : State) : (returnBorrowed s).pending = s.pending := by
  unfold returnBorrowed
  split
  · rfl
  · dsimp only
    rw [foldl_pending fun s d => dispatchNts_pending d s]
    split <;> simp

@[simp] theorem endThose_pending (p : Running → Bool) (status detail : Nat) (params : List Nat) (s : State) :
    (endThose p status detail params s).pending = s.pending :=
  rfl

@[simp] theorem endRunning_pending (id status detail : Nat) (params : List Nat) (s : State) :
    (endRunning id status detail params s).pending = s.pending :=
  rfl

@[simp] theorem showRun_pending (s : State) : (showRun s).pending = s.pending := by
  unfold showRun
  split <;> simp

@[simp] theorem startRun_pending (mask : Nat) (scheduled force : Bool) (cmd : Option Nat) (sender : Nat) (s : State) :
    (startRun mask scheduled force cmd sender s).pending = s.pending :=
  rfl

@[simp] theorem startScheduled_pending (s : State) : (startScheduled s).pending = s.pending := rfl

@[simp] theorem writeResult_pending (t result unit measure : Nat) (s : State) : (writeResult t result unit measure s).pending = s.pending := by
  simp [writeResult]

@[simp] theorem beginTest_pending (t : Nat) (s : State) : (beginTest t s).pending = s.pending := by
  unfold beginTest
  dsimp only
  split
  · exact writeTimCtl_pending _ _
  · rfl
  · exact (modRun_pending _ _).trans ((startCh_pending _ _ _ _ _ _ _ _).trans (ite_pending rfl ((idleCh_pending _ _).trans (waitTs0_pending _ _))))
  · rfl
  · rfl
  · with_reducible refine (foldl_pending (fun _ _ => (modStack_pending _ _).trans (sendTnd_pending _ _ _ _)) _ _).trans ?_
    rfl
  · rfl

@[simp] theorem advanceRun_pending (fuel : Nat) (s : State) : (advanceRun fuel s).pending = s.pending := by
  induction fuel generalizing s with
  | zero => exact showRun_pending s
  | succ n ih =>
    have htail : ∀ u : State, u.pending = s.pending → (if u.watch.due then advanceRun n (startScheduled u) else showRun u).pending = s.pending :=
      fun u hu => ite_pending ((ih _).trans ((startScheduled_pending _).trans hu)) ((showRun_pending _).trans hu)
    unfold advanceRun
    split
    · exact showRun_pending s
    · split
      · dsimp only
        split
        · exact htail _ (endRunning_pending _ _ _ _ _)
        · exact htail _ rfl
      · dsimp only
        split
        · exact (ih _).trans ((modRun_pending _ _).trans ((writeResult_pending _ _ _ _ _).trans (modRun_pending _ _)))
        · split
          · exact (showRun_pending _).trans ((modRun_pending _ _).trans (modRun_pending _ _))
          · exact (showRun_pending _).trans ((beginTest_pending _ _).trans (modRun_pending _ _))

@[simp] theorem breakRun_pending (s : State) : (breakRun s).pending = s.pending := by
  unfold breakRun
  split
  · rfl
  · dsimp only
    split <;> simp [apply_ite State.pending]

/-! ### Cold and warm resets -/

@[simp] theorem resetRegs_pending (lo hi : Nat) (keep : Nat → Bool) (s : State) : (resetRegs lo hi keep s).pending = s.pending := rfl
@[simp] theorem coldState_pending (powerOn : Bool) (s : State) : (coldState powerOn s).pending = s.pending := rfl
@[simp] theorem warmTs_pending (s : State) : (warmTs s).pending = s.pending := by simp [warmTs, foldl_pending]

@[simp] theorem warmEns_pending (ts : Bool) (sender : Nat) (s : State) : (warmEns ts sender s).pending = s.pending := by
  simp [warmEns, apply_ite State.pending, foldl_pending]

@[simp] theorem warmBase_pending (s : State) : (warmBase s).pending = s.pending := rfl
@[simp] theorem warmRfm_pending (old s : State) (p : Nat) : (warmRfm old s p).pending = s.pending := by simp [warmRfm, apply_ite State.pending]
@[simp] theorem warmOut_pending (old s : State) (p : Nat) : (warmOut old s p).pending = s.pending := by simp [warmOut, apply_ite State.pending]

@[simp] theorem warmGroup_pending (old s : State) (p : Nat) : (warmGroup old s p).pending = s.pending :=
  ite_pending ((foldl_pending (fun _ _ => modChan_pending _ _ _) (groupChans p) _).trans (modGroup_pending _ _ _)) rfl

@[simp] theorem warmState_pending (ts : Bool) (sender : Nat) (s : State) : (warmState ts sender s).pending = s.pending := by
  have hchan : ∀ (u : State) (i : Nat), (if 8 ≤ i ∧ u.slotEn i = true ∧ u.rd (R.ENS_SLOT_CFG_TI_CH i) < 64 ∧
      u.assignable (u.rd (R.ENS_SLOT_CFG_TI_CH i)) = true then assignChan (u.rd (R.ENS_SLOT_CFG_TI_CH i)) u else u).pending = u.pending := fun u i =>
    ite_pending (assignChan_pending _ _) rfl
  have hnotch : ∀ (u : State) (p : Nat), (if u.notchMode p = 2 then [0, 1, 2, 3].foldl (fun n k => manualNotch p k n) u else u).pending = u.pending :=
    fun u p => ite_pending (foldl_pending (fun u k => manualNotch_pending p k u) _ _) rfl
  unfold warmState
  refine (foldl_pending hchan slotIds _).trans ((foldl_pending hnotch [0, 1, 2, 3] _).trans ((wr_pending _ _ _).trans ?_))
  refine (foldl_pending (fun u p => modPort_pending _ _ _) (List.range 32) _).trans ?_
  refine (foldl_pending (fun u p => modGnsPort_pending _ _ _) [0, 1, 2, 3] _).trans ?_
  refine (foldl_pending (fun u d => wr_pending _ _ _) dies _).trans ?_
  refine (foldl_pending (fun u o => warmOut_pending s u o) outIds _).trans ?_
  refine (foldl_pending (fun u g => warmGroup_pending s u g) (List.range 9) _).trans ?_
  refine (foldl_pending (fun u p => warmRfm_pending s u p) [0, 1] _).trans ?_
  exact (warmEns_pending _ _ _).trans (warmBase_pending s)

/-! ### Dies, and a reset that begins -/

@[simp] theorem clearKeys_pending (s : State) (d : Nat) : (clearKeys s d).pending = s.pending := rfl
@[simp] theorem copyKeys_pending (s : State) (d : Nat) : (copyKeys s d).pending = s.pending := rfl

@[simp] theorem setLane_pending (n st : Nat) (s : State) : (setLane n st s).pending = s.pending := by
  unfold setLane
  split <;> simp [apply_ite State.pending]

@[simp] theorem emptyTables_pending (n : Nat) (s : State) : (emptyTables n s).pending = s.pending := rfl
@[simp] theorem dieDown_pending (n : Nat) (s : State) : (dieDown n s).pending = s.pending := by simp [dieDown]

@[simp] theorem clearCounts_pending (s : State) : (clearCounts s).pending = s.pending := by
  unfold clearCounts
  with_reducible exact foldl_pending (fun _ _ => lo_pending _ _) _ _

@[simp] theorem clearDie_pending (n : Nat) (s : State) : (clearDie n s).pending = s.pending := by
  unfold clearDie
  with_reducible exact (foldl_pending (fun _ _ => modPort_pending _ _ _) _ _).trans (wr_pending _ _ _)

@[simp] theorem resetDie_pending (n : Nat) (s : State) : (resetDie n s).pending = s.pending := by
  unfold resetDie
  refine (clearCounts_pending _).trans ((clearDie_pending _ _).trans ?_)
  refine (foldl_pending (fun u r => endRunning_pending _ _ _ _ u) _ _).trans ((clearKeys_pending _ _).trans ((dieDown_pending _ _).trans ?_))
  refine (foldl_pending (fun u p => (flushQueues_pending _ _).trans ((setLink_pending _ _ _).trans (loseStamps_pending _ u))) _ _).trans ?_
  exact (resetRegs_pending _ _ _ _).trans ((settleEnded_pending _).trans (breakRun_pending s))

@[simp] theorem resetScope_pending (k : ResetKind) (sender : Nat) (s : State) : (resetScope k sender s).pending = s.pending := by
  unfold resetScope
  cases k with
  | powerOn => with_reducible exact (coldState_pending _ _).trans (abortFor_pending _ _)
  | cold => with_reducible exact (coldState_pending _ _).trans (abortFor_pending _ _)
  | warmTs => with_reducible exact (warmTs_pending _).trans ((warmState_pending _ _ _).trans (abortFor_pending _ _))
  | warm => with_reducible exact (warmState_pending _ _ _).trans (abortFor_pending _ _)
  | watchdog => with_reducible exact (warmState_pending _ _ _).trans (abortFor_pending _ _)
  | die n => with_reducible exact resetDie_pending _ _

@[simp] theorem beginReset_pending (k : ResetKind) (sender : Nat) (s : State) : (beginReset k sender s).pending = s.pending := by
  simp [beginReset, apply_ite State.pending]

@[simp] theorem writeRstCtl_pending (id w : Nat) (s : State) : (writeRstCtl id w s).pending = s.pending := by
  unfold writeRstCtl
  split
  · split <;> simp
  · simp

end Sys2Proof.Machine
end

section
/-! PROOFS. What a REG_WRITE's pairs leave: only the register of resets ends the begun command, and in its block the queue stands (R429, R433). -/

namespace Sys2Proof.Machine

section
variable {a base stride n size : Nat} {s : State} {id w : Nat}

/-! ### Which block an address is of -/

theorem inBlock_beyond (hs : 0 < stride) (h : base + stride * n ≤ a) : inBlock a base stride n size = none :=
  if_neg fun ⟨_, _, hlt⟩ => by
    rw [Nat.div_lt_iff_lt_mul hs, Nat.mul_comm] at hlt
    omega

theorem inBlock_below (h : a < base) : inBlock a base stride n size = none := if_neg fun ⟨hle, _⟩ => by omega

theorem idxAt_beyond (hs : 0 < stride) (h : base + stride * n ≤ a) : idxAt a base stride n = none :=
  if_neg fun ⟨_, _, hlt⟩ => by
    rw [Nat.div_lt_iff_lt_mul hs, Nat.mul_comm] at hlt
    omega

/-! ### A write in the block of power and resets -/

section
variable (hlo : 0x110000 ≤ a) (hhi : a < 0x120000)
include hlo hhi

theorem writeTsc_none : writeTsc id a w = none := by
  unfold writeTsc
  rw [if_neg (by omega), if_neg (by omega), if_neg (by omega), if_neg (by omega), if_neg (by omega), if_neg (by omega), if_neg (by omega),
    inBlock_beyond (by decide) (by omega)]

theorem writeEns_none : writeEns id a w = none := by
  unfold writeEns
  rw [if_neg (by omega), if_neg (by omega), inBlock_beyond (by decide) (by omega)]

theorem writeGns_none : writeGns a w = none := by
  unfold writeGns
  rw [if_neg (by omega), if_neg (by omega), if_neg (by omega), if_neg (by omega), inBlock_beyond (by decide) (by omega),
    inBlock_beyond (by decide) (by omega), idxAt_beyond (by decide) (by omega)]

theorem writeDie_none : writeDie a w = none := by
  unfold writeDie
  rw [inBlock_below (by omega)]

theorem writeKeeper_pwr : writeKeeper id a w = if a = 0x110000 then some (writePwrCtl w) else if a = 0x110040 then some (writeRstCtl id w) else none := by
  unfold writeKeeper
  rw [if_neg (by omega), if_neg (by omega), inBlock_beyond (by decide) (by omega), idxAt_beyond (by decide) (by omega),
    inBlock_beyond (by decide) (by omega), idxAt_beyond (by decide) (by omega), inBlock_below (by omega)]
  dsimp only
  rw [if_neg (show ¬a = 0xC0000 by omega), idxAt_beyond (by decide) (by omega)]
  rfl

end

theorem enableEvt_pending (e : EvtSrc) (v : Nat) (s : State) : (s.enableEvt e v).pending = s.pending := by
  unfold State.enableEvt
  split
  · rfl
  · exact ite_pending (msi_pending _ _ _) rfl

theorem settleFor_pending (a : Nat) (s : State) : (settleFor a s).pending = s.pending :=
  ite_pending (foldl_pending (fun s p => settle_pending p s) _ _) (ite_pending (settleEnded_pending s) rfl)

/-- The queue of waiting commands stands through a write in the block of power and resets. -/
theorem busWrite_pending (hlo : 0x110000 ≤ a) (hhi : a < 0x120000) (s : State) : (busWrite id a w s).pending = s.pending := by
  unfold busWrite
  rw [writeTsc_none hlo hhi, writeEns_none hlo hhi, writeGns_none hlo hhi, writeDie_none hlo hhi, writeKeeper_pwr hlo hhi]
  rw [← settleFor_pending a s]
  by_cases h1 : a = 0x110000
  · rw [if_pos h1]
    rfl
  · by_cases h2 : a = 0x110040
    · rw [if_neg h1, if_pos h2]
      exact writeRstCtl_pending _ _ _
    · rw [if_neg h1, if_neg h2]
      dsimp only [Option.or]
      split
      · split
        · exact enableEvt_pending _ _ _
        · rfl
      · exact storeReg_pending _ _ _ _
      · rfl

/-! ### What ends the begun command -/

/-- Every part but what the firmware keeps. -/
def noFw : List Part := Part.all.filter (fun p => decide (p ≠ .fw))

theorem regs_mem_noFw (b : Block) : Part.regs b ∈ noFw := by cases b <;> decide

/-- A register's own effect leaves the begun command. -/
def KeepsBegun (o : Option (State → State)) : Prop := ∀ f, o = some f → ∀ s, (f s).fw.current = s.fw.current

theorem TouchesSome.keepsBegun {o : Option (State → State)} (h : TouchesSome noFw o) : KeepsBegun o := fun f hf s =>
  congrArg Fw.current ((h f hf s s (Touches.refl _ s)).1 .fw (by decide))

theorem KeepsBegun.or {o p : Option (State → State)} (ho : KeepsBegun o) (hp : KeepsBegun p) : KeepsBegun (o.or p) := by
  cases o with
  | none => exact hp
  | some f => exact ho

theorem keepsBegun_none : KeepsBegun none := fun _ e => nomatch e

theorem keepsBegun_some {f : State → State} (h : ∀ s, (f s).fw.current = s.fw.current) : KeepsBegun (some f) := fun _ e => by
  cases e
  exact h

theorem keepsBegun_ite {p : Prop} [Decidable p] {x y : Option (State → State)} (hx : KeepsBegun x) (hy : KeepsBegun y) :
    KeepsBegun (if p then x else y) := by
  split
  · exact hx
  · exact hy

/-- An effect that leaves what the firmware keeps. -/
theorem keepsBegun_of {f : State → State} (h : ∀ s₀ s, Touches noFw s₀ s → Touches noFw s₀ (f s)) : KeepsBegun (some f) :=
  (touchesSome_some h).keepsBegun

theorem current_denyStep (b : Bank) (s : State) : (denyStep b s).fw.current = s.fw.current := rfl

theorem current_writeStepCtl (b : Bank) (src : StepSource) (w : Nat) (s : State) : (writeStepCtl b src w s).fw.current = s.fw.current := by
  obtain ⟨u, hu⟩ : ∃ u, s.storeReg false (Reg.TSC_STEP_CTL (bankNo b)) w = u := ⟨_, rfl⟩
  have hstored : u.fw.current = s.fw.current := hu ▸ congrArg Fw.current (storeReg_fw s false (Reg.TSC_STEP_CTL (bankNo b)) w)
  unfold writeStepCtl
  rw [hu, ← hstored]
  dsimp only
  split
  · split
    · rfl
    · exact current_denyStep b u
  · rfl

/-- A GO of a step may end a command that waits, never the one begun. -/
theorem writeTsc_keepsBegun : KeepsBegun (writeTsc id a w) := by
  unfold writeTsc
  refine keepsBegun_ite (keepsBegun_of fun _ s => touches_writeTscCtl w s (by decide) (by decide)) ?_
  refine keepsBegun_ite (keepsBegun_of fun _ s => touches_writeSnapCtl w s (by decide) (by decide)) ?_
  refine keepsBegun_ite (keepsBegun_of fun _ s => touches_writeUtcOfs w s (by decide) (by decide)) ?_
  refine keepsBegun_ite (keepsBegun_of fun _ s => touches_writeSwitchCtl id w s (by decide) (by decide) (by decide) (by decide) (by decide) (by decide)) ?_
  refine keepsBegun_ite (keepsBegun_of fun _ s => touches_writeLeapCtl w s (by decide) (by decide)) ?_
  refine keepsBegun_ite (keepsBegun_of fun _ s => touches_writeLeapUtc _ w s has_Reg_TSC_LEAP_UTC_LO (by decide)) ?_
  refine keepsBegun_ite (keepsBegun_of fun _ s => touches_writeLeapUtc _ w s has_Reg_TSC_LEAP_UTC_HI (by decide)) ?_
  split
  · exact keepsBegun_of fun _ s => touches_stageIncr _ _ w s (by decide)
  · exact keepsBegun_of fun _ s => touches_stageIncr _ _ w s (by decide)
  · exact keepsBegun_of fun _ s => touches_stageIncr _ _ w s (by decide)
  · exact keepsBegun_of fun _ s => touches_writeIncrCtl _ _ w s (by decide) (by decide)
  · exact keepsBegun_of fun _ s => touches_writeSlewCtl _ _ w s (by decide) (by decide)
  · exact keepsBegun_some fun s => current_writeStepCtl _ _ w s
  · exact keepsBegun_none

/-- Of the Keeper's registers only that of resets ends it. -/
theorem writeKeeper_keepsBegun (h : a ≠ 0x110040) : KeepsBegun (writeKeeper id a w) := by
  unfold writeKeeper
  refine keepsBegun_ite (keepsBegun_of fun _ s => touches_writeTimCtl w s (by decide) (by decide)) ?_
  refine keepsBegun_ite (keepsBegun_of fun _ s => touches_writeMorCtl w s (by decide) (by decide) (by decide) (by decide) (by decide) (by decide)) ?_
  refine keepsBegun_ite (keepsBegun_of fun _ s => touches_writePwrCtl w s (by decide)) ?_
  rw [if_neg h]
  split
  · exact keepsBegun_of fun _ s => touches_writeTimChCfg _ w s (by decide)
  · exact keepsBegun_of fun _ s => touches_writeChCtl _ w s (by decide) (by decide)
  · exact keepsBegun_of fun _ s => touches_writePlsCtl _ w s (by decide) (by decide)
  · exact keepsBegun_of fun _ s => touches_writeRfmCfg _ w s (by decide) (by decide) (by decide) (by decide)
  · exact keepsBegun_of fun _ s => touches_writeEfc _ w s (by decide)
  · exact keepsBegun_of fun _ s => touches_writeHoursCmd id _ w s (by decide) (by decide) (by decide) (by decide)
  · exact keepsBegun_of fun _ s => touches_writeLinkCfg _ w s (by decide) (by decide) (by decide) (by decide) (by decide) (by decide)
  · exact keepsBegun_of fun _ s => touches_writePctSel _ w s (by decide)
  · exact keepsBegun_of fun _ s h => touches_ite (touches_clearOvf _ s h) h
  · exact keepsBegun_ite (keepsBegun_of fun _ s => touches_writeRfmCtl id w s (by decide) (by decide) (by decide))
      (touchesSome_map fun g _ s => touches_writeGrpCfg g w s (by decide) (by decide)).keepsBegun

theorem settleFor_current (a : Nat) (s : State) : (settleFor a s).fw.current = s.fw.current :=
  congrArg Fw.current ((touches_settleFor (ps := noFw) a s (by decide) (by decide) (by decide) (Touches.refl _ s)).1 .fw (by decide))

/-- A write of any other register leaves the begun command. -/
theorem busWrite_current (h : a ≠ 0x110040) (s : State) : (busWrite id a w s).fw.current = s.fw.current := by
  have hkeeps : KeepsBegun ((writeTsc id a w).or ((writeEns id a w).or ((writeGns a w).or ((writeKeeper id a w).or (writeDie a w))))) :=
    writeTsc_keepsBegun.or ((touches_writeEns id a w (by decide) (by decide) (by decide) (by decide)).keepsBegun.or
      ((touches_writeGns a w (by decide) (by decide) (by decide)).keepsBegun.or ((writeKeeper_keepsBegun h).or
        (touches_writeDie a w (by decide) (by decide) (by decide) (by decide) (by decide) (by decide) (by decide) (by decide) (by decide) (by decide)
          (by decide)).keepsBegun)))
  unfold busWrite
  dsimp only
  split
  · next f hf => exact (hkeeps f hf _).trans (settleFor_current a s)
  · have hplain : ∀ {u : State}, Touches noFw (settleFor a s) u → u.fw.current = s.fw.current := fun hu =>
      (congrArg Fw.current (hu.1 .fw (by decide))).trans (settleFor_current a s)
    split
    · split
      · exact hplain (touches_enableEvt_all regs_mem_noFw (Touches.refl _ _))
      · exact settleFor_current a s
    · exact hplain (touches_storeReg_all regs_mem_noFw (Touches.refl _ _))
    · exact settleFor_current a s

/-! ### Pairs in order -/

/-- Where the pairs end the begun command, one of them wrote the register of resets. -/
theorem writePairs_current {ps : List (Nat × Nat)} (h : ∀ p ∈ ps, p.1 ≠ 0x110040) (s : State) : (writePairs id ps s).fw.current = s.fw.current := by
  induction ps generalizing s with
  | nil => rfl
  | cons p ps ih =>
    unfold writePairs
    split
    · rfl
    · exact (ih (fun q hq => h q (List.mem_cons_of_mem _ hq)) _).trans (busWrite_current (h p List.mem_cons_self) s)

theorem writePairs_pending {ps : List (Nat × Nat)} (h : ∀ p ∈ ps, 0x110000 ≤ p.1 ∧ p.1 < 0x120000) (s : State) :
    (writePairs id ps s).pending = s.pending := by
  induction ps generalizing s with
  | nil => rfl
  | cons p ps ih =>
    obtain ⟨hlo, hhi⟩ := h p List.mem_cons_self
    unfold writePairs
    split
    · rfl
    · exact (ih (fun q hq => h q (List.mem_cons_of_mem _ hq)) _).trans (busWrite_pending hlo hhi s)

/-- The words of one block: all of them are the registers of power and resets, or none is that of resets. -/
theorem inRanges_pwr {b : Nat} (hb : b ≤ 12) : (∀ a, inRanges b a = true → 0x110000 ≤ a ∧ a < 0x120000) ∨ ∀ a, inRanges b a = true → a ≠ 0x110040 := by
  by_cases h : b = 1 ∨ b = 10
  · refine .inl fun a ha => ?_
    rcases h with rfl | rfl <;> simpa [inRanges, blockRanges, within] using ha
  · refine .inr fun a ha e => ?_
    subst e
    revert ha
    interval_cases b <;> simp_all <;> decide

/-- Pairs of one block that end the begun command leave the queue. -/
theorem writePairs_ended {ps : List (Nat × Nat)} {b : Nat} (hb : b ≤ 12) (hin : ∀ p ∈ ps, inRanges b p.1 = true) {c : Cmd}
    (hbegun : s.fw.current = some c) (hended : (writePairs id ps s).fw.current = none) : (writePairs id ps s).pending = s.pending := by
  rcases inRanges_pwr hb with h | h
  · exact writePairs_pending (fun p hp => h _ (hin p hp)) s
  · rw [writePairs_current (fun p hp => h _ (hin p hp)), hbegun] at hended
    cases hended

end

end Sys2Proof.Machine
end

section
/-! PROOFS. REG_READ and REG_WRITE by command packet (R431-R433; O41). -/

namespace Sys2Proof.Machine

/-- The opcode of an access to a block's registers, by its low byte. -/
abbrev accessOp (k : Nat) : Nat → Bool := fun op => op % 256 = k && decide (op / 256 ≤ 12)

theorem accessOp_iff {k op : Nat} : accessOp k op = true ↔ op % 256 = k ∧ op / 256 ≤ 12 := by simp [accessOp]

theorem accessOp_other {k : Nat} {s : State} (h : ∀ c, s.fw.current = some c → ¬(c.op % 256 = k ∧ c.op / 256 ≤ 12)) :
    ∀ c, s.fw.current = some c → accessOp k c.op = false := fun c hc => Bool.eq_false_iff.2 fun hop => h c hc (accessOp_iff.1 hop)

/-! ### Fields without a fault -/

theorem refusal_none {lenOk absent : Bool} {fields : List (Nat × Bool)} {busy : Option Nat} (h : refusal lenOk fields absent busy = none) :
    ∀ e ∈ fields, e.2 = false := by
  unfold refusal at h
  split at h
  · cases h
  · split at h
    · cases h
    · next hf => exact firstFault_none hf

/-- The check of each pair's address, named by the byte it stands at. -/
abbrev pairFaults (c : Cmd) : List (Nat × Bool) :=
  (c.pairs.zipIdx).map (fun e => (8 * e.2, decide (e.1.1 % 4 ≠ 0) || !inRanges (c.op / 256) e.1.1))

/-- Pairs without a fault all name words of the block. -/
theorem pairs_inRanges {c : Cmd} {lenOk absent : Bool} {busy : Option Nat} (h : refusal lenOk (pairFaults c) absent busy = none) :
    ∀ p ∈ c.pairs, inRanges (c.op / 256) p.1 = true := fun p hp => by
  obtain ⟨i, hi, rfl⟩ := List.mem_iff_getElem.1 hp
  have hfault := refusal_none h _ (List.mem_map_of_mem (List.mem_iff_getElem.2 ⟨i, by simpa using hi, rfl⟩))
  simpa using (Bool.or_eq_false_iff.1 hfault).2

/-! ### Checks 5 to 7 of the two rows -/

section
variable {c : Cmd}

/-- What a REG_READ does once it has passed its checks. -/
def readAction (c : Cmd) (s : State) : State :=
  if c.sender = 2 then answer c 0 0 (readAll c.addrs [] s).1 (readAll c.addrs [] s).2
  else answer c 0 0 ((c.addrs.foldl (fun s a => settleFor a s) s).wordsAt c.addrs) (c.addrs.foldl (fun s a => settleFor a s) s)

/-- What a REG_WRITE does then. -/
def writeAction (c : Cmd) (s : State) : State :=
  if c.sender ≠ 2 ∧ c.pairs.any stepPair = true then answer c 4 1 [] s
  else
    let s := writePairs c.sender c.pairs s
    if s.fw.current.isNone then s else answer c 0 0 (s.wordsAt (c.pairs.map (·.1))) s

theorem regRead_checked (s : State) :
    regRead c s.begin = checked c (decide (c.len = 8))
      ([(0, !(decide (c.num 0 4 % 4 = 0) && inRanges (c.op / 256) (c.num 0 4))),
        (4, decide (c.num 4 2 < 1) || decide (1024 < c.num 4 2) || !c.addrs.all (fun a => decide (a % 4 = 0) && inRanges (c.op / 256) a))]
        ++ c.reserved 6 2)
      (c.addrs.any s.windowOff) (readAction c) s.begin := rfl

theorem writeLength (n : Nat) :
    (decide (8 ≤ n) && decide (n ≤ 4096) && decide (n % 8 = 0)) = decide (8 ≤ n ∧ n ≤ 4096 ∧ n % 8 = 0) := by
  rw [Bool.decide_and, Bool.decide_and, Bool.and_assoc]

theorem regWrite_checked (s : State) :
    regWrite c s.begin = checked c (decide (8 ≤ c.len ∧ c.len ≤ 4096 ∧ c.len % 8 = 0)) (pairFaults c)
      (c.pairs.any (fun p => s.windowOff p.1)) (writeAction c) s.begin := by
  rw [← writeLength]
  rfl

theorem writeAction_allowed (h : c.sender = 2 ∨ c.pairs.any stepPair = false) (s : State) :
    writeAction c s = if (writePairs c.sender c.pairs s).fw.current.isNone then writePairs c.sender c.pairs s
      else answer c 0 0 ((writePairs c.sender c.pairs s).wordsAt (c.pairs.map (·.1))) (writePairs c.sender c.pairs s) :=
  if_neg fun ⟨hsender, hstep⟩ => by
    rcases h with h | h
    · exact hsender h
    · rw [hstep] at h
      cases h

/-! ### What the accesses touch -/

theorem touches_all_readAll (l : List Nat) (s : State) : Touches Part.all s (readAll l [] s.begin).2 :=
  touches_readAll l [] s.begin (by decide) (by decide) (by decide) (fun _ => every_part _) (touches_begin _ s)

theorem touches_all_writePairs (id : Nat) (l : List (Nat × Nat)) (s : State) : Touches Part.all s (writePairs id l s.begin) :=
  touches_writePairs id l s.begin (every_part _) (every_part _) (every_part _) (every_part _) (every_part _) (every_part _) (every_part _)
    (every_part _) (every_part _) (every_part _) (every_part _) (every_part _) (every_part _) (every_part _) (every_part _) (every_part _)
    (every_part _) (every_part _) (fun _ => every_part _) (touches_begin _ s)

theorem touches_settleAddrs (l : List Nat) (s : State) : Touches replyParts s (l.foldl (fun s a => settleFor a s) s.begin) :=
  touches_foldl (touches_begin _ s) fun s a => touches_settleFor a s (by simp) (by simp) (by simp)

end

/-! ### Rows that end in the state as it stands -/

/-- A row that ends in a state whose queue is the first one's changes nothing there. -/
theorem endedRow {F : State → State} {s u : State} (h : F s.begin = u) (hq : u.pending = s.pending) : ∃ t, go F s = .next t ∧ Frame [] [] u t := by
  obtain ⟨t, e, k⟩ := go_next F s
  rw [h] at k
  obtain ⟨hrd, hsame, hcounts, hout, -⟩ := frame_counted (Frame.refl [] [] u) k
  exact ⟨_, e, hrd, hsame, hcounts, hout, hq.symm⟩

/-- Settles O41. -/
theorem registerCommands : Obligations.RegisterCommands := by
  unfold Obligations.RegisterCommands
  refine ⟨fun s h => otherRow (accessOp_other h), fun s c st d hc hop h => refusedRow hc (accessOp_iff.2 hop) (regRead_checked s) h,
    ?readPf1, ?readOther, fun s h => otherRow (accessOp_other h),
    fun s c st d hc hop h => refusedRow hc (accessOp_iff.2 hop) (regWrite_checked s) h, ?written,
    ?ended, fun s c hc hop h hsender hstep => ?denied⟩
  case readPf1 =>
    intro s c r hc hop h hsender
    have hact := (passed hc (accessOp_iff.2 hop) (regRead_checked s) h).trans (if_pos hsender)
    obtain ⟨t, e, hr, hcur, ht⟩ := answerRow hact
    exact ⟨t, e, hr, hcur, ht (fun _ _ => every_part _) (touches_all_readAll c.addrs s), ht (fun _ hp => hp) (Touches.refl _ _)⟩
  case readOther =>
    intro s c u hc hop h hsender
    have hact := (passed hc (accessOp_iff.2 hop) (regRead_checked s) h).trans (if_neg hsender)
    obtain ⟨t, e, hr, hcur, ht⟩ := answerRow hact
    exact ⟨t, e, hr, hcur, ht (fun _ hp => hp) (touches_settleAddrs c.addrs s), ht (fun _ hp => hp) (Touches.refl _ _)⟩
  case written =>
    intro s c u hc hop h hallowed hbegun
    have hact := ((passed hc (accessOp_iff.2 hop) (regWrite_checked s) h).trans (writeAction_allowed hallowed s.begin)).trans
      (if_neg (by rw [Option.isNone_eq_false_iff.2 hbegun]; decide))
    obtain ⟨t, e, hr, hcur, ht⟩ := answerRow hact
    exact ⟨t, e, hr, hcur, ht (fun _ _ => every_part _) (touches_all_writePairs c.sender c.pairs s), ht (fun _ hp => hp) (Touches.refl _ _)⟩
  case ended =>
    intro s c u hc hop h hallowed hended
    have hact := ((passed hc (accessOp_iff.2 hop) (regWrite_checked s) h).trans (writeAction_allowed hallowed s.begin)).trans
      (if_pos (Option.isNone_iff_eq_none.2 hended))
    exact endedRow hact (writePairs_ended (s := s.begin) hop.2 (pairs_inRanges h) hc hended)
  case denied =>
    exact answeredRow hc (accessOp_iff.2 hop) (regWrite_checked s) h (if_pos ⟨hsender, hstep⟩)

end Sys2Proof.Machine
end
